-- ==== Sys2Proof/Word.lean ====
section
/-! DEFINITION. The byte, the byte string and the 32-bit word of the AS760, and the sparse table that holds numbered
resources. Every multi-byte field of the device is little-endian (R6, 00). -/

namespace Sys2Proof

/-- One byte of a payload, an image or a memory. -/
abbrev Byte := BitVec 8

/-- A string of bytes, the first at the lowest address. -/
abbrev Bytes := List Byte

/-- The 32 bits of an FP32 value (R163, 05). -/
abbrev F32 := BitVec 32

/-- A sparse table of numbered things, its keys strictly rising. -/
abbrev Tab (α : Type) := List (Nat × α)

end Sys2Proof
end

