-- ==== Sys2Proof/Machine/Units/Wire.lean ====
section
/-! DEFINITION. What commands and events carry: the moment, the Chavy request, packets and the outcomes of physical events. -/

namespace Sys2Proof

/-- When an event happens and which free resource the device takes where the manual leaves the choice open (log entries 1
and 2): the k-th allocation of the event takes element `choice[k] mod n` of the n free ones in ascending order. -/
structure Moment where
  ct     : Nat := 0
  choice : List Nat := []
  /-- What the host has written into its own memory before the event: an address and the bytes from there (log entry 4). -/
  host   : List (Nat × Bytes) := []
  /-- The ranges of host memory whose accesses fail from now on (base, length, PCIe error kind of R50), if they change. -/
  faults : Option (List (Nat × Nat × Nat)) := none
  deriving DecidableEq, Repr

/-- Who issued a request. -/
inductive Src where
  /-- Mailbox `n` of function `fn`: 0 is PF0, v is VF v (R14, 01). -/
  | mailbox (fn n : Nat)
  /-- Management, over MCTP (R53, 01). -/
  | mctp
  /-- Another chip of the board, over Swilan: link and request tag (R387, 13). -/
  | forwarded (link tag fn : Nat)
  /-- The twin pair's primary (R395, 13). -/
  | mirrored
  /-- The device itself: a cast that the Plinth asks for (R82, R85, 02). -/
  | device (partition : Nat)
  deriving DecidableEq, Repr

/-- The host's fields of the mailbox header (R22, 01). -/
structure Header where
  /-- `own` as an MCTP request carries it (R53); a mailbox keeps its own word apart. -/
  own        : Nat := 0
  seq        : Nat := 0
  opcode     : Nat := 0
  flags      : Nat := 0
  partition  : Nat := 0
  rsvd0D     : Nat := 0
  payloadLen : Nat := 0
  msixVector : Nat := 0xFFFF
  rsvd1A     : Nat := 0
  shadowAddr : Nat := 0
  sgAddr     : Nat := 0
  sgCount    : Nat := 0
  rsvd34     : Nat := 0
  deriving DecidableEq, Repr

/-- A Chavy request: its issuer, its header and its payload (R22, 01). -/
structure Req where
  src     : Src
  hdr     : Header := {}
  payload : Bytes := []
  deriving DecidableEq, Repr

/-- A packet of the composed network: a GX packet (R354 to R361, 12), or an RC packet whose `bth` is its RoCEv2 opcode. -/
structure Pkt where
  /-- Local queue-pair handle that it addresses or leaves from. -/
  qp      : Nat := 0
  opcode  : Nat := 0
  version : Nat := 1
  rsvdOk  : Bool := true
  flags   : Nat := 0
  path    : Nat := 0
  msg     : Nat := 0
  offset  : Nat := 0
  len     : Nat := 0
  key     : Nat := 0
  tag     : Nat := 0
  regOff  : Nat := 0
  ctSent  : Nat := 0
  psn     : Nat := 0
  /-- Acknowledgement: NAK code and the PSN that it concerns, backoff in µs and device status (R361); the BTH's PSN is the
  cumulative one. -/
  nak     : Nat := 0
  ackPsn  : Nat := 0
  backoff : Nat := 0
  status  : Nat := 0
  sack    : List Nat := []
  payload : Bytes := []
  /-- The AES-GCM tag of a sealed packet (R355). -/
  icv     : Bytes := []
  bth     : Nat := 0
  /-- The packet arrived marked Congestion Experienced (R363). -/
  ce      : Bool := false
  deriving DecidableEq, Repr

/-- Where a packet goes: its UDP source port and the peer's queue pair, address and MAC, as given at connect (R348, R354). -/
structure Route where
  sport : Nat := 0
  qpn   : Nat := 0
  addr  : Bytes := []
  mac   : Bytes := []
  deriving DecidableEq, Repr

/-- What a descriptor's completion says (R97, 03). -/
inductive DescResult where
  /-- It succeeded; the CRC-32C over what it moved, where it computes one. -/
  | ok
  /-- Its source answered with failure: a memory error or a failed request (R117). -/
  | failed (status : Nat)
  /-- What it read fails its CRC or its authentication (R105, R117). -/
  | badData
  deriving DecidableEq, Repr

/-- A PTP message as the port timestamped it (R349, 12). -/
inductive PtpMsg where
  /-- A Sync with its measured offset θ in ns and the Sync interval in ns. -/
  | sync (ifc : Nat) (theta : Int) (every : Nat)
  /-- An Announce with the sender's rank under the BMCA (lower is better) and the announce interval in ns. -/
  | announce (ifc rank every : Nat)
  deriving DecidableEq, Repr

/-- The identity that TRAIN flits carry (R385, 13). -/
structure TrainId where
  /-- Lanes that trained, as a mask. -/
  lanes    : Nat := 0xFF
  chip     : Nat := 0
  link     : Nat := 0
  /-- Chavy major and minor release: bits [31:16] of BENCH_FW_VERSION. -/
  release  : Nat := 0
  code     : Nat := 0
  deriving DecidableEq, Repr

/-- Where an uncorrectable error lies: the rows of R503 (17). -/
inductive UeData where
  | session (id : Nat)
  | invocation (serial : Nat)
  | weight (slot : Nat)
  | node (partition index session : Nat)
  | parked (fop : Nat)
  | tables (gen session : Nat)
  | spill (session : Nat)
  | touchstone (query slot : Nat)
  | gather (fn mbx bag : Nat)
  | cut (group : Nat)
  | qp (handle : Nat)
  | readRegion (handle msg : Nat)
  | bar2 (fn : Nat)
  | shared (unit : Nat)
  deriving DecidableEq, Repr

/-- A contained error's place (R503, R510). -/
structure UeAt where
  tier : Nat := 1
  chan : Nat := 0
  addr : Nat := 0
  deriving DecidableEq, Repr

/-- A difference between the management view and the hardware (R507). -/
structure Skew where
  group : Nat
  field : Nat
  mgmt  : Nat
  hw    : Nat
  deriving DecidableEq, Repr

/-- How a boot phase ends (R495, R497). -/
structure BootEnd where
  /-- The self-test or the restore's steps passed. -/
  ok       : Bool := true
  /-- The flash could be read. -/
  flashOk  : Bool := true
  /-- Outcomes of training: interface, index, outcome and lanes repaired (R512). -/
  training : List (Nat × Nat × Nat × Nat) := []
  deriving DecidableEq, Repr

/-- A directory access that arrives from another chip on VC0 (R101, R388). -/
inductive DirAccess where
  | read (session : Nat)
  /-- Claim the session by compare-and-swap for a raise or a run-ahead on chip `chip` and, for a raise, its slot (R109). -/
  | claim (session chip slot : Nat) (ahead : Bool)
  /-- Undo a claim (R112, R116). -/
  | unclaim (session : Nat)
  /-- Make the entry ACTIVE on chip `chip`, slot `slot` (R111, R121). -/
  | activate (session chip slot : Nat)
  /-- The session has been retired, or is being retired by its home chip (R101, R454). -/
  | retire (session : Nat)
  /-- A session homed here has left the board for the peer of a queue pair (R122). -/
  | export_ (session peer : Nat)
  /-- Commit a cast of a session homed here: the 128-byte entry (R99, R103). -/
  | park (session : Nat) (entry : Bytes)
  /-- A run-ahead of the asking chip has been promoted into a slot (R101, R115). -/
  | promote (session slot : Nat)
  /-- A committed cut of the asking chip holds the session (R99). -/
  | cut (session cut : Nat)
  /-- The session's armed chain has fired or gone (R83). -/
  | disarm (session : Nat)
  /-- Frames of this chip that entries of the session named and no longer name, as the entries' 64-bit words (R112, R139). -/
  | release (session : Nat) (entries : List Nat)
  deriving DecidableEq, Repr

/-- One draw's inputs for a row of a committed step: the session, its logits per position (the committed one first, then
one per draft) and the draft logits for the next step (R256 to R261; log entry 8). -/
structure RowIn where
  session : Nat
  logits  : List (List (BitVec 32)) := []
  drafts  : List (List (BitVec 32)) := []
  deriving DecidableEq, Repr

/-- One attention row handed over by the command stream: session, position, layer, and the context slots' q, k and v per
head (R198, R202; log entry 8). -/
structure AttIn where
  session : Nat
  pos     : Nat
  layer   : Nat
  q       : List (List (BitVec 32)) := []
  k       : List (List (BitVec 32)) := []
  v       : List (List (BitVec 32)) := []
  deriving DecidableEq, Repr

/-- An operand of a tile operation: element codes of a format, and the scale codes of their blocks (R163, R165). -/
structure TensorIn where
  fmt    : Nat
  scaled : Bool := false
  elems  : List Nat
  scales : List Nat := []
  deriving DecidableEq, Repr

/-- The functions of a tile's vector unit (R171). -/
inductive VecFn where
  | reciprocal | sqrt | rsqrt | exp2 | log2 | tanh | logistic | erf
  deriving DecidableEq, Repr

/-- What an operation of a layer group computes, as the command stream hands it over (R167 to R173; log entry 8). -/
inductive TileOp where
  /-- One reduction of the products of two operands, onto a bias or residual where there is one. -/
  | reduce (a b : TensorIn) (prior : Option (BitVec 32))
  /-- FP32 values converted to an output format. -/
  | convert (fmt : Nat) (scaled sat : Bool) (x : List (BitVec 32))
  /-- A vector function, value by value. -/
  | apply (fn : VecFn) (x : List (BitVec 32))
  deriving DecidableEq, Repr

/-- An operation of a layer group, and where in the context slots its result goes. -/
structure LayerOp where
  offset  : Nat
  session : Nat
  pos     : Nat
  head    : Nat := 0
  op      : TileOp
  deriving DecidableEq, Repr

/-- A shard's result entry: label, slot, distance (R333). -/
structure ShardHit where
  label : Nat
  slot  : Nat
  dist  : Nat
  deriving DecidableEq, Repr

end Sys2Proof
end

