-- ==== Sys2Proof/Machine/Units/Plinth.lean ====
section
/-! DEFINITION. Sessions: the active entry, the parked directory, the per-session records and the Plinth (02, 03, 07, 08). -/

namespace Sys2Proof.Machine

/-- The session states of R63. -/
inductive SState where
  | free | admitted | prefill | decode | toolwait | parking | parked | raising
  | migratingOut | migratingIn | stopped | faulted | retiring
  deriving DecidableEq, Repr

/-- A granted step or chunk in flight (R75). -/
structure InFlight where
  /-- Invocation serial. -/
  inv    : Nat
  /-- 0 for a decode step, else the tokens of the prefill chunk. -/
  chunk  : Nat
  drafts : Nat
  /-- `length` when the step was granted (R258). -/
  base   : Nat
  /-- The chunk rebuilds lost pages (R119). -/
  rebuild : Bool := false
  /-- Spill records reserved for its worst case (R286). -/
  spill   : Nat := 0
  deriving DecidableEq, Repr

/-- The Planisher's queue record of a session (R282). -/
structure QueueRec where
  start     : Nat := 0
  finish    : Nat := 0
  ctCredit  : Nat := 0
  /-- ct at which the session last became backlogged, 0 while it is not. -/
  ctBacklog : Nat := 0
  /-- ct from which stream-buffer room has withheld its grants (R287), 0 while it does not. -/
  ctStall   : Nat := 0
  /-- When last looked at, it met every condition of R71 but credit and fair share. -/
  onCredit  : Bool := false
  /-- It meets every condition of R71 (R74). -/
  eligible  : Bool := false
  deriving DecidableEq, Repr

/-- One active slot's entry (R58 to R60), and what the Plinth keeps with it. -/
structure Session where
  id            : Nat
  st            : SState := .admitted
  partition     : Nat := 0
  modelSlot     : Nat := 0
  priority      : Nat := 0
  stopReason    : Nat := 0
  cls           : Nat := 0
  faultCode     : Nat := 0
  flags         : BitVec 32 := 0
  tableGen      : Nat := 0
  grammarImage  : Nat := 0xFFFF
  specLength    : Nat := 0
  length        : Nat := 0
  windowPages   : Nat := 0
  globalCount   : Nat := 0
  deadline      : Nat := 0xFFFFFFFFFFFFFFFF
  pdirAddr      : Nat := 0
  journalAddr   : Nat := 0
  grammarState  : Nat := 0
  grammarDepth  : Nat := 0
  rngSeed       : Nat := 0
  credit        : Nat := 0
  stopSet       : Nat := 0xFFFFFFFF
  streamTarget  : Nat := 0
  held          : Bytes := []
  maxLength     : Nat := 1
  maxNew        : Nat := 0
  newTokens     : Nat := 0
  ctAdmit       : Nat := 0
  ctFirst       : Nat := 0
  ctLast        : Nat := 0
  ctToolwait    : Nat := 0
  castAfter     : Nat := 0
  armChain      : Nat := 0xFFFFFFFF
  stepCount     : Nat := 0
  prefillPos    : Nat := 0
  prefixLen     : Nat := 0
  raiseCount    : Nat := 0
  pendingGen    : Nat := 0
  stopCt        : Nat := 0
  /-- The state a failed cast or migration returns to, or the RESUME_STATE a raise returns to (R64, R100). -/
  prior         : SState := .admitted
  inflight      : Option InFlight := none
  /-- Commands whose change waits for the step boundary, in the order recorded (R66). -/
  waiting       : List Req := []
  /-- ct at which AUTO_CAST casts the session; 0 when none is armed (R82). -/
  autoCastCt    : Nat := 0
  /-- ct from which the session has been ready for a grant (R74). -/
  readyCt       : Nat := 0
  /-- The Armature has formed the allowed set of the next position (R255). -/
  maskSet       : Bool := false
  /-- PAGE_WAIT has been logged for the present wait (R137). -/
  pageWait      : Bool := false
  /-- The last cast this session was asked for failed in the present pressure episode (R85). -/
  castSkipped   : Bool := false
  q             : QueueRec := {}
  /-- The deadline that R76 set at the turn's start, from which TTFT is measured (R287). -/
  turnDeadline  : Nat := 0xFFFFFFFFFFFFFFFF
  /-- Pages lost, as block numbers, to be rebuilt by REPREFILL (R119). -/
  rebuild       : Option (Nat × Nat) := none
  deriving DecidableEq, Repr

/-- DSTATE of a directory entry (R100). -/
inductive DState where
  | unused | active | parked | claimed | exported | retiring
  deriving DecidableEq, Repr

/-- A parked-directory entry (R99). -/
structure DirEntry where
  id           : Nat
  dstate       : DState := .active
  resume       : SState := .decode
  partition    : Nat := 0
  modelSlot    : Nat := 0
  priority     : Nat := 0
  stopReason   : Nat := 0
  cls          : Nat := 0
  flags        : BitVec 32 := 0
  tableGen     : Nat := 0
  grammarImage : Nat := 0xFFFF
  length       : Nat := 0
  credit       : Nat := 0
  armChain     : Nat := 0xFFFFFFFF
  deadline     : Nat := 0xFFFFFFFFFFFFFFFF
  ctCast       : Nat := 0
  imageLoc     : Nat := 0
  imageBytes   : Nat := 0
  imageCrc     : Nat := 0
  castTier     : Nat := 0
  narrow       : Nat := 0
  winNarrowed  : Bool := false
  provisional  : Bool := false
  activeChip   : Nat := 0
  activeSlot   : Nat := 0
  pagesCast    : Nat := 0
  castGen      : Nat := 0
  ckptCut      : Nat := 0
  exportPeer   : Nat := 0
  deriving DecidableEq, Repr

/-- A page-table entry (R133). -/
structure Pte where
  frame    : Nat := 0
  range    : Nat := 0
  gen      : Nat := 0
  tier     : Nat := 0
  enc      : Nat := 0
  shared   : Bool := false
  cow      : Bool := false
  resident : Bool := false
  valid    : Bool := false
  deriving DecidableEq, Repr

/-- A session's page tables: directory header, segments and entries (R130 to R132). -/
structure PageTables where
  lgCount   : Nat := 0
  pageClass : Nat := 18
  /-- Table frames of the directory. -/
  dirFrames : List Nat := []
  /-- Table frame of segment g * 16 + s. -/
  segs      : Tab Nat := []
  /-- Entry of block b of layer group g at key g * 4096 + b. -/
  ptes      : Tab Pte := []
  /-- Segments g * 16 + s of the cast image that these tables were written to, while there is one (R142). -/
  imageSegs : List Nat := []
  deriving DecidableEq, Repr

/-- One normalised byte not yet cut (R224, R230). -/
structure TailByte where
  byte    : Byte
  cls     : Nat
  cpStart : Bool
  origin  : Nat
  deriving DecidableEq, Repr

/-- The text record: the Shear's carried state and the Solder's stop hold (R224). -/
structure TextRec where
  intakeOpen   : Bool := false
  originResult : Bool := false
  carry        : Bytes := []
  /-- Origin of each carried byte (R225). -/
  carryOrigin  : Nat := 0
  prevClass    : Nat := 0
  /-- Code points of the open segment, each with its source origin (R230). -/
  seg          : List (Nat × Nat) := []
  tail         : List TailByte := []
  staged       : Nat := 0
  replaced     : Nat := 0
  bytesIn      : Nat := 0
  stopHold     : Bytes := []
  deriving DecidableEq, Repr

/-- One bias entry of the sampling record (R247). -/
structure Bias where
  ban   : Bool
  token : Nat
  value : F32
  deriving DecidableEq, Repr

/-- The sampling record (R247). -/
structure Sampling where
  temperature : F32 := 0x3F800000
  topP        : F32 := 0x3F800000
  topK        : Nat := 0
  draftLen    : Nat := 0
  bias        : List Bias := []
  deriving DecidableEq, Repr

/-- What a session owns outside its active entry: journal, records and page tables. They stay in place when it parks. -/
structure Store where
  partition : Nat := 0
  /-- Journal records in position order from `prefix_len`, staged records after committed ones (R78, R225). -/
  journal   : List Nat := []
  /-- Journal block n's frame address (R78). -/
  blocks    : Tab Nat := []
  /-- Table frame holding the block table and the records (R224, R246). -/
  recFrame  : Nat := 0
  text      : TextRec := {}
  samp      : Sampling := {}
  /-- Grammar stack, entry 0 the bottom (R248). -/
  gstack    : List Nat := []
  pages     : PageTables := {}
  /-- The active entry held in the cast image while the session is parked (R103, R142). -/
  image     : Option Session := none
  /-- HBM address and size of that image on this chip. -/
  imageAddr : Nat := 0
  imageSize : Nat := 0
  /-- `cast_gen` under which each page in a composed range was sealed (R105), by key g * 4096 + b. -/
  castGens  : Tab Nat := []
  /-- `cast_gen` and `ckpt_cut` of the session, where its directory entry lies on another chip. -/
  castGen   : Nat := 0
  ckptCut   : Nat := 0
  /-- The chip that holds journal block n, and the one that holds the record frame, where that is not this chip (R79). -/
  blockChips : Tab Nat := []
  recChip   : Option Nat := none
  /-- Draft logits written at the last committed position (R260). -/
  drafts    : List (List F32) := []
  /-- Nodes that the session's shared blocks came from, shallowest first (R147). -/
  path      : List Nat := []
  /-- Reuse count of the last node of `path` when it was resolved (R145, R147). -/
  pathGen   : Nat := 0
  deriving DecidableEq, Repr

/-- An armed raise waiting for a slot (R84). -/
structure RaiseWait where
  session  : Nat
  priority : Nat
  /-- Foundry operation of a run-ahead being promoted, or 0. -/
  fop      : Nat := 0
  chain    : Nat := 0xFFFFFFFF
  /-- The session's partition (R51). -/
  partition : Nat := 0
  deriving DecidableEq, Repr

/-- A pressure-cast episode in progress (R85). -/
structure Episode where
  requested : Nat := 0
  committed : Nat := 0
  deriving DecidableEq, Repr

/-- The Plinth and the parked directory of this chip (R58, R87, R98). -/
structure Plinth where
  slots      : Tab Session := []
  dir        : Tab DirEntry := []
  /-- Sessions' own storage by session ID. -/
  store      : Tab Store := []
  serialLow  : Bool := false
  raiseWait  : List RaiseWait := []
  /-- ct of the last RAISE_WAIT_FULL event and the refusals since. -/
  rwFullCt   : Option Nat := none
  rwRefused  : Nat := 0
  batchWait  : Nat := 20000
  dispatch   : Nat := 16384
  reserve    : Nat := 8192
  slotLow    : Nat := 0
  slotHigh   : Nat := 0
  castTier   : Nat := 0
  castNarrow : Nat := 0
  castWindow : Bool := false
  episode    : Option Episode := none
  /-- The free slots have fallen below SLOT_LOW and not come back to it: an episode has begun for that fall (R85). -/
  slotsShort : Bool := false
  /-- Next invocation serial (R175). -/
  nextInv    : Nat := 1
  deriving DecidableEq, Repr

end Sys2Proof.Machine
end

