-- ==== Sys2Proof/Machine/Units/Operands.lean ====
section
/-! DEFINITION. What arrives from other chips and peers in one piece: migrations, exports, sub-queries and IDE_KM messages. -/

namespace Sys2Proof.Machine

/-- An inbound Swilan migration (R121, 03): the session's entry, its journal and records, and its pages' bytes by key
g * 4096 + b. -/
structure MigrateIn where
  entry     : Session
  store     : Store
  narrowed  : Bool := false
  pages     : Tab Bytes := []
  /-- Keys of the nodes that the session's shared blocks came from, shallowest first, and the digest of its model image (R121). -/
  keys      : List Bytes := []
  modelDigest : Bytes := []
  deriving DecidableEq, Repr

/-- An EXPORT_COMMIT seal and what it commits (R122, 03; R369, 12). -/
structure ExportIn where
  qp        : Nat
  peer      : Nat
  entry     : Session
  store     : Store
  /-- Digests by which the importer names its model slot, generation and class. -/
  modelDigest : Bytes := []
  tableDigest : Bytes := []
  crcOk     : Bool := true
  /-- Another chip of the board answers that the session exists there (R122). -/
  elsewhere : Bool := false
  pages     : Tab Bytes := []
  deriving DecidableEq, Repr

/-- A sub-query that another chip sends to this shard (R333, 11). -/
structure SubQuery where
  link     : Nat
  tag      : Nat
  index    : Nat
  partition : Nat
  snapshot : Nat
  /-- A batch of TCH_BULK. -/
  bulk     : Bool := false
  topK     : Nat := 10
  breadth  : Nat := 64
  visits   : Nat := 4096
  probes   : Nat := 8
  codes    : List Nat := []
  deriving DecidableEq, Repr

/-- What an audit marker says of its channel: what the sender has sent, and the credits that it has returned (R309, 10; log entry 13). -/
structure MarkerCounts where
  sent     : Nat
  returned : Nat
  deriving DecidableEq, Repr

/-- An IDE_KM message (R451, 15): 0 QUERY, 1 KEY_PROG, 2 K_SET_GO, 3 K_SET_STOP; the stream, the function it serves and the
sub-stream, direction and key set as one index 0 to 11. -/
structure IdeKm where
  kind   : Nat
  stream : Nat
  fn     : Nat := 0
  index  : Nat := 0
  deriving DecidableEq, Repr

end Sys2Proof.Machine
end

