-- ==== Sys2Proof/Syntax.lean ====
section
/-! DEFINITION. The commands of the AS760: one constructor per row of spec/opcode_table.json, in the table's order. -/

namespace Sys2Proof

/-- A command: what one row of the table does, with the moment at which it happens. A row of the Chavy command set
carries its request (R22, 01); an event row carries what the event says. -/
inductive Instr where
  /-- MBX_POST (R26). -/
  | mbxPost (m : Moment) (fn mbx : Nat)
  /-- MBX_RELEASE (R26). -/
  | mbxRelease (m : Moment) (fn mbx : Nat)
  /-- MBX_OWN_INVALID (R26). -/
  | mbxOwnInvalid (m : Moment) (fn mbx value : Nat)
  /-- MBX_LOCKED_WRITE (R25). -/
  | mbxLockedWrite (m : Moment) (fn mbx offset value : Nat)
  /-- MBX_TAKE (R27). -/
  | mbxTake (m : Moment) (fn mbx : Nat)
  /-- LONG_OP_ACCEPT (R28). -/
  | longOpAccept (m : Moment) (op : Nat)
  /-- LONG_OP_END (R26). -/
  | longOpEnd (m : Moment) (op : Nat) (ok : Bool)
  /-- MSIX_UNMASK (R32). -/
  | msixUnmask (m : Moment) (fn vector : Nat)
  /-- PROGRESS_UPDATE (R36). -/
  | progressUpdate (m : Moment) (op position : Nat)
  /-- PROGRESS_RETENTION_EXPIRY (R38). -/
  | progressRetentionExpiry (m : Moment) (handle : Nat)
  /-- EVT_CONS_WRITE (R48). -/
  | evtConsWrite (m : Moment) (fn value : Nat)
  /-- BAR2_READ (R17). -/
  | bar2Read (m : Moment) (fn offset len : Nat)
  /-- BAR2_WRITE (R17). -/
  | bar2Write (m : Moment) (fn offset : Nat) (data : Bytes)
  /-- REGISTER_WRITE (R9). -/
  | registerWrite (m : Moment) (fn bar offset len value : Nat)
  /-- CT_NOW_LOW_READ (R487). -/
  | ctNowLowRead (m : Moment) (fn : Nat)
  /-- CT_UTC_DATE_READ (R487). -/
  | ctUtcDateRead (m : Moment) (fn : Nat)
  /-- CHK_CTL_WRITE (R425). -/
  | chkCtlWrite (m : Moment) (fn unit value : Nat)
  /-- CHK_INIT (R425). -/
  | chkInit (m : Moment) (fn unit value : Nat)
  /-- CHK_DATA8 (R425). -/
  | chkData8 (m : Moment) (fn unit value : Nat)
  /-- CHK_DATA1 (R425). -/
  | chkData1 (m : Moment) (fn unit value : Nat)
  /-- MCTP_REQUEST (R53). -/
  | mctpRequest (m : Moment) (r : Req)
  /-- NOP (R42). -/
  | nop (m : Moment) (r : Req)
  /-- QUERY (R43). -/
  | query (m : Moment) (r : Req)
  /-- PROGRESS (R42). -/
  | progress (m : Moment) (r : Req)
  /-- CANCEL (R44). -/
  | cancel (m : Moment) (r : Req)
  /-- EVENT_CFG (R46). -/
  | eventCfg (m : Moment) (r : Req)
  /-- APERTURE_SET (R42). -/
  | apertureSet (m : Moment) (r : Req)
  /-- SESSION_ADMIT (R67). -/
  | sessionAdmit (m : Moment) (r : Req)
  /-- SESSION_APPEND (R225). -/
  | sessionAppend (m : Moment) (r : Req)
  /-- SESSION_APPEND_TOKENS (R91). -/
  | sessionAppendTokens (m : Moment) (r : Req)
  /-- SESSION_STOP (R64). -/
  | sessionStop (m : Moment) (r : Req)
  /-- SESSION_READ (R91). -/
  | sessionRead (m : Moment) (r : Req)
  /-- SESSION_SET (R91). -/
  | sessionSet (m : Moment) (r : Req)
  /-- SESSION_REBIND (R69). -/
  | sessionRebind (m : Moment) (r : Req)
  /-- SESSION_RETIRE (R64). -/
  | sessionRetire (m : Moment) (r : Req)
  /-- SESSION_ARM (R83). -/
  | sessionArm (m : Moment) (r : Req)
  /-- SESSION_LIST (R91). -/
  | sessionList (m : Moment) (r : Req)
  /-- JOURNAL_READ (R91). -/
  | journalRead (m : Moment) (r : Req)
  /-- PLN_CONFIG (R91). -/
  | plnConfig (m : Moment) (r : Req)
  /-- BATCH_DISPATCH (R73). -/
  | batchDispatch (m : Moment)
  /-- BATCH_WAIT_EXPIRY (R74). -/
  | batchWaitExpiry (m : Moment)
  /-- INVOCATION_RESIDENT (R176). -/
  | invocationResident (m : Moment) (serial : Nat)
  /-- LAYER_GROUP_START (R177). -/
  | layerGroupStart (m : Moment) (tile : Nat) (att : List AttIn) (ops : List LayerOp) (fault : Option Nat)
  /-- TILE_WATCHDOG_EXPIRY (R179). -/
  | tileWatchdogExpiry (m : Moment) (serial : Nat)
  /-- STEP_COMMIT (R77). -/
  | stepCommit (m : Moment) (serial : Nat) (rows : List RowIn)
  /-- PREFILL_CHUNK_END (R64). -/
  | prefillChunkEnd (m : Moment) (serial : Nat) (row : RowIn)
  /-- AUTO_CAST_TIMER (R82). -/
  | autoCastTimer (m : Moment) (session : Nat)
  /-- RAISE_WAIT_DEQUEUE (R84). -/
  | raiseWaitDequeue (m : Moment)
  /-- FDY_CAST (R103). -/
  | fdyCast (m : Moment) (r : Req)
  /-- FDY_RAISE (R109). -/
  | fdyRaise (m : Moment) (r : Req)
  /-- FDY_MIGRATE (R121). -/
  | fdyMigrate (m : Moment) (r : Req)
  /-- FDY_DIR_READ (R127). -/
  | fdyDirRead (m : Moment) (r : Req)
  /-- FDY_CONFIG (R127). -/
  | fdyConfig (m : Moment) (r : Req)
  /-- FDY_SUBMIT (R127). -/
  | fdySubmit (m : Moment) (r : Req)
  /-- FDY_EXPORT_RELEASE (R127). -/
  | fdyExportRelease (m : Moment) (r : Req)
  /-- DESCRIPTOR_ISSUE (R94). -/
  | descriptorIssue (m : Moment) (engine : Nat)
  /-- DESCRIPTOR_COMPLETE (R97). -/
  | descriptorComplete (m : Moment) (desc : Nat) (result : DescResult)
  /-- RUNAHEAD_TTL_EXPIRY (R116). -/
  | runaheadTtlExpiry (m : Moment) (fop : Nat)
  /-- PULL_TIMEOUT_EXPIRY (R117). -/
  | pullTimeoutExpiry (m : Moment) (desc : Nat)
  /-- MIGRATE_ARRIVE (R121). -/
  | migrateArrive (m : Moment) (link tag : Nat) (x : Machine.MigrateIn)
  /-- MIGRATE_CONFIRM (R121). -/
  | migrateConfirm (m : Moment) (fop : Nat) (ok : Bool) (slot status : Nat)
  /-- EXPORT_COMMIT (R369). -/
  | exportCommit (m : Moment) (x : Machine.ExportIn)
  /-- EXPORT_RETIRED (R369). -/
  | exportRetired (m : Moment) (session peer : Nat)
  /-- PTN_PUBLISH (R147). -/
  | ptnPublish (m : Moment) (r : Req)
  /-- PTN_MATCH (R149). -/
  | ptnMatch (m : Moment) (r : Req)
  /-- PTN_DELETE (R150). -/
  | ptnDelete (m : Moment) (r : Req)
  /-- PTN_PIN (R158). -/
  | ptnPin (m : Moment) (r : Req)
  /-- PTN_READ (R158). -/
  | ptnRead (m : Moment) (r : Req)
  /-- PTN_PURGE (R153). -/
  | ptnPurge (m : Moment) (r : Req)
  /-- PTN_CONFIG (R158). -/
  | ptnConfig (m : Moment) (r : Req)
  /-- PAGE_POOL_CONFIG (R136). -/
  | pagePoolConfig (m : Moment) (r : Req)
  /-- PAGE_TABLE_READ (R158). -/
  | pageTableRead (m : Moment) (r : Req)
  /-- PTN_EVICTION (R152). -/
  | ptnEviction (m : Moment) (partition : Nat)
  /-- MODEL_LOAD (R186). -/
  | modelLoad (m : Moment) (r : Req)
  /-- MODEL_LOAD_COMPLETE (R184). -/
  | modelLoadComplete (m : Moment) (slot : Nat) (copyOk : Bool)
  /-- MODEL_UNLOAD (R184). -/
  | modelUnload (m : Moment) (r : Req)
  /-- MODEL_UNLOAD_COMPLETE (R184). -/
  | modelUnloadComplete (m : Moment) (slot : Nat)
  /-- MODEL_QUERY (R193). -/
  | modelQuery (m : Moment) (r : Req)
  /-- MODEL_PLACE (R187). -/
  | modelPlace (m : Moment) (r : Req)
  /-- ATT_CONFIG (R217). -/
  | attConfig (m : Moment) (r : Req)
  /-- TABLESET_LOAD (R221). -/
  | tablesetLoad (m : Moment) (r : Req)
  /-- TABLESET_LOAD_COMPLETE (R222). -/
  | tablesetLoadComplete (m : Moment) (gen : Nat) (copyOk : Bool)
  /-- TABLESET_RETIRE (R222). -/
  | tablesetRetire (m : Moment) (r : Req)
  /-- TABLESET_DRAINED (R222). -/
  | tablesetDrained (m : Moment) (gen : Nat)
  /-- TABLESET_QUERY (R245). -/
  | tablesetQuery (m : Moment) (r : Req)
  /-- SHEAR_CUT (R245). -/
  | shearCut (m : Moment) (r : Req)
  /-- SOLDER_RENDER (R245). -/
  | solderRender (m : Moment) (r : Req)
  /-- SHEAR_LANE_START (R234). -/
  | shearLaneStart (m : Moment)
  /-- FIN_SET (R268). -/
  | finSet (m : Moment) (r : Req)
  /-- FIN_READ (R268). -/
  | finRead (m : Moment) (r : Req)
  /-- GRAMMAR_CHECK (R268). -/
  | grammarCheck (m : Moment) (r : Req)
  /-- SPIN_DRAW (R258). -/
  | spinDraw (m : Moment) (r : Req)
  /-- CLASS_SET (R271). -/
  | classSet (m : Moment) (r : Req)
  /-- CLASS_READ (R302). -/
  | classRead (m : Moment) (r : Req)
  /-- CLASS_DELETE (R302). -/
  | classDelete (m : Moment) (r : Req)
  /-- METER_SET (R272). -/
  | meterSet (m : Moment) (r : Req)
  /-- METER_READ (R302). -/
  | meterRead (m : Moment) (r : Req)
  /-- PARTITION_SHARE (R282). -/
  | partitionShare (m : Moment) (r : Req)
  /-- STREAM_RING_SET (R284). -/
  | streamRingSet (m : Moment) (r : Req)
  /-- GAUGE_REPORT (R294). -/
  | gaugeReport (m : Moment) (r : Req)
  /-- GAUGE_CONFIG (R302). -/
  | gaugeConfig (m : Moment) (r : Req)
  /-- PLA_QUEUE_READ (R282). -/
  | plaQueueRead (m : Moment) (r : Req)
  /-- STREAM_RECORD_WRITE (R286). -/
  | streamRecordWrite (m : Moment) (partition ring : Nat)
  /-- STREAM_CONS_READ (R286). -/
  | streamConsRead (m : Moment) (partition ring : Nat)
  /-- GAUGE_SAMPLE (R295). -/
  | gaugeSample (m : Moment)
  /-- GAUGE_WINDOW_CLOSE (R289). -/
  | gaugeWindowClose (m : Moment) (cls : Nat)
  /-- REPORT_SIGN (R293). -/
  | reportSign (m : Moment)
  /-- TLY_READ (R316). -/
  | tlyRead (m : Moment) (r : Req)
  /-- TLY_EVIDENCE (R316). -/
  | tlyEvidence (m : Moment) (r : Req)
  /-- TLY_CONFIG (R311). -/
  | tlyConfig (m : Moment) (r : Req)
  /-- TALLY_AUDIT (R308). -/
  | tallyAudit (m : Moment)
  /-- SWL_MARKER_RECEIVE (R309). -/
  | swlMarkerReceive (m : Moment) (link vc auditCt : Nat) (counts : Machine.MarkerCounts)
  /-- SWL_MARKER_TIMEOUT (R309). -/
  | swlMarkerTimeout (m : Moment) (link vc auditCt : Nat)
  /-- TCH_INDEX_CREATE (R319). -/
  | tchIndexCreate (m : Moment) (r : Req)
  /-- TCH_INDEX_DROP (R334). -/
  | tchIndexDrop (m : Moment) (r : Req)
  /-- TCH_INSERT (R323). -/
  | tchInsert (m : Moment) (r : Req)
  /-- TCH_DELETE (R323). -/
  | tchDelete (m : Moment) (r : Req)
  /-- TCH_QUERY (R327). -/
  | tchQuery (m : Moment) (r : Req)
  /-- TCH_BULK (R331). -/
  | tchBulk (m : Moment) (r : Req)
  /-- TCH_INDEX_QUERY (R345). -/
  | tchIndexQuery (m : Moment) (r : Req)
  /-- TCH_REPAIR (R329). -/
  | tchRepair (m : Moment) (r : Req)
  /-- TCH_SUBQUERY_RECEIVE (R333). -/
  | tchSubqueryReceive (m : Moment) (x : Machine.SubQuery)
  /-- TCH_SHARD_ANSWER (R333). -/
  | tchShardAnswer (m : Moment) (query shard status : Nat) (hits : List (List ShardHit))
  /-- TCH_SHARD_TIMEOUT (R333). -/
  | tchShardTimeout (m : Moment) (query : Nat)
  /-- TCH_RECLAIM (R324). -/
  | tchReclaim (m : Moment) (index slot : Nat)
  /-- TCH_REPAIR_SWEEP (R329). -/
  | tchRepairSweep (m : Moment) (index : Nat)
  /-- GTH_TABLE_LOAD (R336). -/
  | gthTableLoad (m : Moment) (r : Req)
  /-- GTH_TABLE_PATCH (R336). -/
  | gthTablePatch (m : Moment) (r : Req)
  /-- GTH_TABLE_DROP (R336). -/
  | gthTableDrop (m : Moment) (r : Req)
  /-- GTH_HOT_SET (R337). -/
  | gthHotSet (m : Moment) (r : Req)
  /-- GTH_RUN (R340). -/
  | gthRun (m : Moment) (r : Req)
  /-- GTH_TABLE_QUERY (R345). -/
  | gthTableQuery (m : Moment) (r : Req)
  /-- NET_PORT_SET (R346). -/
  | netPortSet (m : Moment) (r : Req)
  /-- NET_PORT_QUERY (R379). -/
  | netPortQuery (m : Moment) (r : Req)
  /-- NET_QP_CONNECT (R352). -/
  | netQpConnect (m : Moment) (r : Req)
  /-- NET_QP_CLOSE (R352). -/
  | netQpClose (m : Moment) (r : Req)
  /-- NET_QP_QUERY (R379). -/
  | netQpQuery (m : Moment) (r : Req)
  /-- NET_CC_SET (R363). -/
  | netCcSet (m : Moment) (r : Req)
  /-- NET_REGION_REG (R356). -/
  | netRegionReg (m : Moment) (r : Req)
  /-- NET_REGION_DEREG (R356). -/
  | netRegionDereg (m : Moment) (r : Req)
  /-- NET_REGION_QUERY (R356). -/
  | netRegionQuery (m : Moment) (r : Req)
  /-- NET_POST (R379). -/
  | netPost (m : Moment) (r : Req)
  /-- NET_CHAIN_POST (R366). -/
  | netChainPost (m : Moment) (r : Req)
  /-- NET_CHAIN_CANCEL (R366). -/
  | netChainCancel (m : Moment) (r : Req)
  /-- NET_MAP_UPDATE (R371). -/
  | netMapUpdate (m : Moment) (r : Req)
  /-- NET_MAP_SWAP (R374). -/
  | netMapSwap (m : Moment) (r : Req)
  /-- NET_MAP_READ (R379). -/
  | netMapRead (m : Moment) (r : Req)
  /-- NET_PTP_SET (R349). -/
  | netPtpSet (m : Moment) (r : Req)
  /-- NVME_CONNECT (R350). -/
  | nvmeConnect (m : Moment) (r : Req)
  /-- NVME_DISCONNECT (R379). -/
  | nvmeDisconnect (m : Moment) (r : Req)
  /-- GX_DATA_RECEIVE (R358). -/
  | gxDataReceive (m : Moment) (p : Pkt)
  /-- GX_SEAL_RECEIVE (R359). -/
  | gxSealReceive (m : Moment) (p : Pkt)
  /-- GX_READ_RECEIVE (R360). -/
  | gxReadReceive (m : Moment) (p : Pkt)
  /-- GX_ACK_RECEIVE (R361). -/
  | gxAckReceive (m : Moment) (p : Pkt)
  /-- GX_ACK_TIMER (R353). -/
  | gxAckTimer (m : Moment) (qp : Nat)
  /-- GX_ACK_TIMEOUT (R353). -/
  | gxAckTimeout (m : Moment) (qp psn : Nat)
  /-- GX_NAK_BACKOFF_EXPIRY (R361). -/
  | gxNakBackoffExpiry (m : Moment) (qp psn : Nat)
  /-- GX_PATH_RESUME (R353). -/
  | gxPathResume (m : Moment) (qp path : Nat)
  /-- SEAL_TIMEOUT (R359). -/
  | sealTimeout (m : Moment) (qp msg : Nat)
  /-- QP_DRAIN_END (R352). -/
  | qpDrainEnd (m : Moment) (qp : Nat)
  /-- NOT_RESIDENT_STALL_EXPIRY (R362). -/
  | notResidentStallExpiry (m : Moment) (qp : Nat)
  /-- RC_PACKET_RECEIVE (R348). -/
  | rcPacketReceive (m : Moment) (p : Pkt)
  /-- CNP_RECEIVE (R363). -/
  | cnpReceive (m : Moment) (qp : Nat)
  /-- CC_RATE_INCREASE (R363). -/
  | ccRateIncrease (m : Moment) (qp : Nat)
  /-- REGION_QUARANTINE_EXPIRY (R356). -/
  | regionQuarantineExpiry (m : Moment) (region : Nat)
  /-- MAP_UPDATE_DRAINED (R371). -/
  | mapUpdateDrained (m : Moment) (partition : Nat)
  /-- MAP_SWAP_HOLD_EXPIRY (R374). -/
  | mapSwapHoldExpiry (m : Moment) (partition : Nat)
  /-- ETH_LINK_CHANGE (R378). -/
  | ethLinkChange (m : Moment) (ifc : Nat) (up : Bool)
  /-- PTP_MESSAGE_RECEIVE (R349). -/
  | ptpMessageReceive (m : Moment) (msg : PtpMsg)
  /-- PTP_ANNOUNCE_TIMEOUT (R349). -/
  | ptpAnnounceTimeout (m : Moment) (ifc : Nat)
  /-- NVME_COMPLETION_RECEIVE (R350). -/
  | nvmeCompletionReceive (m : Moment) (cmd : Nat) (ok : Bool) (data : Bytes)
  /-- NVME_KEEPALIVE_LAPSE (R350). -/
  | nvmeKeepaliveLapse (m : Moment) (ctrl : Nat)
  /-- SWL_QUERY (R406). -/
  | swlQuery (m : Moment) (r : Req)
  /-- SWL_LINK_SET (R385). -/
  | swlLinkSet (m : Moment) (r : Req)
  /-- TWIN_SET (R393). -/
  | twinSet (m : Moment) (r : Req)
  /-- TWIN_CLEAR (R400). -/
  | twinClear (m : Moment) (r : Req)
  /-- TWIN_QUERY (R406). -/
  | twinQuery (m : Moment) (r : Req)
  /-- SWL_TRAIN_IDENTITY (R385). -/
  | swlTrainIdentity (m : Moment) (link : Nat) (id : TrainId)
  /-- SWL_TRAIN_TIMEOUT (R385). -/
  | swlTrainTimeout (m : Moment) (link : Nat)
  /-- SWL_ABSENT_RETRY (R385). -/
  | swlAbsentRetry (m : Moment) (link : Nat)
  /-- SWL_FLIT_CRC_ERROR (R384). -/
  | swlFlitCrcError (m : Moment) (link : Nat)
  /-- SWL_REPLAY_REQUEST (R384). -/
  | swlReplayRequest (m : Moment) (link ackSeq : Nat)
  /-- SWL_CREDIT_RETURN (R383). -/
  | swlCreditReturn (m : Moment) (link vc count : Nat)
  /-- SWL_DIR_REQUEST (R101). -/
  | swlDirRequest (m : Moment) (link tag : Nat) (a : DirAccess)
  /-- SWL_FORWARDED_COMMAND (R387). -/
  | swlForwardedCommand (m : Moment) (link tag fn : Nat) (r : Req)
  /-- SWL_RESPONSE (R387). -/
  | swlResponse (m : Moment) (reqNo status detail : Nat) (result : Bytes)
  /-- SWL_BULK_DATA (R383). -/
  | swlBulkData (m : Moment) (link desc : Nat) (data : Bytes)
  /-- TABLESET_NUMBER_CHECK (R218). -/
  | tablesetNumberCheck (m : Moment) (link tag gen : Nat)
  /-- TWIN_MIRRORED_COMMAND (R395). -/
  | twinMirroredCommand (m : Moment) (r : Req)
  /-- TWIN_GRANT (R396). -/
  | twinGrant (m : Moment) (session base chunk : Nat)
  /-- TWIN_DIGEST (R398). -/
  | twinDigest (m : Moment) (session base lg digest : Nat)
  /-- TWIN_DIGEST_TIMEOUT (R400). -/
  | twinDigestTimeout (m : Moment) (partition : Nat)
  /-- MLD_GROUP_SET (R407). -/
  | mldGroupSet (m : Moment) (r : Req)
  /-- MLD_GROUP_QUERY (R431). -/
  | mldGroupQuery (m : Moment) (r : Req)
  /-- MLD_CUT (R418). -/
  | mldCut (m : Moment) (r : Req)
  /-- MLD_RESTORE (R421). -/
  | mldRestore (m : Moment) (r : Req)
  /-- MLD_CONFIG (R424). -/
  | mldConfig (m : Moment) (r : Req)
  /-- CHK_CLAIM (R424). -/
  | chkClaim (m : Moment) (r : Req)
  /-- CHK_RELEASE (R431). -/
  | chkRelease (m : Moment) (r : Req)
  /-- CHK_RUN (R426). -/
  | chkRun (m : Moment) (r : Req)
  /-- MLD_TIMER_TRIGGER (R419). -/
  | mldTimerTrigger (m : Moment) (group : Nat)
  /-- CAPTURE_WINDOW_EXPIRY (R414). -/
  | captureWindowExpiry (m : Moment) (group : Nat)
  /-- HMK_PARTITION_SET (R444). -/
  | hmkPartitionSet (m : Moment) (r : Req)
  /-- HMK_PARTITION_TEARDOWN (R454). -/
  | hmkPartitionTeardown (m : Moment) (r : Req)
  /-- TEARDOWN_PHASE_DONE (R454). -/
  | teardownPhaseDone (m : Moment) (partition : Nat)
  /-- HMK_PARTITION_QUERY (R461). -/
  | hmkPartitionQuery (m : Moment) (r : Req)
  /-- HMK_KEY_LOAD (R449). -/
  | hmkKeyLoad (m : Moment) (r : Req)
  /-- HMK_KEY_DESTROY (R450). -/
  | hmkKeyDestroy (m : Moment) (r : Req)
  /-- HMK_ATTEST (R441). -/
  | hmkAttest (m : Moment) (r : Req)
  /-- HMK_CERT_READ (R461). -/
  | hmkCertRead (m : Moment) (r : Req)
  /-- HMK_ROLLBACK_COMMIT (R436). -/
  | hmkRollbackCommit (m : Moment) (r : Req)
  /-- GET_VERSION (R439). -/
  | getVersion (m : Moment) (via : Nat)
  /-- GET_CAPABILITIES (R439). -/
  | getCapabilities (m : Moment) (via : Nat)
  /-- NEGOTIATE_ALGORITHMS (R439). -/
  | negotiateAlgorithms (m : Moment) (via : Nat) (supported : Bool)
  /-- GET_DIGESTS (R439). -/
  | getDigests (m : Moment) (via session : Nat)
  /-- GET_CERTIFICATE (R439). -/
  | getCertificate (m : Moment) (via session slot offset len : Nat)
  /-- CHALLENGE (R439). -/
  | challenge (m : Moment) (via session slot : Nat) (nonce : Bytes)
  /-- GET_MEASUREMENTS (R440). -/
  | getMeasurements (m : Moment) (via session index : Nat) (sign : Bool) (nonce : Bytes)
  /-- KEY_EXCHANGE (R439). -/
  | keyExchange (m : Moment) (via slot : Nat) (exchange : Bytes)
  /-- FINISH (R439). -/
  | finish (m : Moment) (via session : Nat) (verify : Bytes)
  /-- HEARTBEAT (R439). -/
  | heartbeat (m : Moment) (via session : Nat)
  /-- KEY_UPDATE (R439). -/
  | keyUpdate (m : Moment) (via session op tag : Nat)
  /-- END_SESSION (R439). -/
  | endSession (m : Moment) (via session : Nat)
  /-- ATTEST_DUAL (R441). -/
  | attestDual (m : Moment) (via session blocks : Nat) (nonce : Bytes)
  /-- KEK_SET (R449). -/
  | kekSet (m : Moment) (via session : Nat) (kek : Bytes)
  /-- IDE_KM_MESSAGE (R451). -/
  | ideKmMessage (m : Moment) (via session : Nat) (x : Machine.IdeKm)
  /-- LOCK_INTERFACE_REQUEST (R452). -/
  | lockInterfaceRequest (m : Moment) (via session fn : Nat)
  /-- START_INTERFACE_REQUEST (R452). -/
  | startInterfaceRequest (m : Moment) (via session fn : Nat)
  /-- STOP_INTERFACE_REQUEST (R452). -/
  | stopInterfaceRequest (m : Moment) (via session fn : Nat)
  /-- IDE_INTEGRITY_FAILURE (R452). -/
  | ideIntegrityFailure (m : Moment) (fn : Nat) (nonT : Bool)
  /-- PWR_SET (R469). -/
  | pwrSet (m : Moment) (r : Req)
  /-- PWR_QUERY (R490). -/
  | pwrQuery (m : Moment) (r : Req)
  /-- PWR_RESUME (R471). -/
  | pwrResume (m : Moment) (r : Req)
  /-- CT_CONFIG (R490). -/
  | ctConfig (m : Moment) (r : Req)
  /-- CT_STEP (R476). -/
  | ctStep (m : Moment) (r : Req)
  /-- CT_LEAP_LOAD (R478). -/
  | ctLeapLoad (m : Moment) (r : Req)
  /-- AON_SETTINGS_SAVE (R481). -/
  | aonSettingsSave (m : Moment) (r : Req)
  /-- AON_SETTINGS_READ (R490). -/
  | aonSettingsRead (m : Moment) (r : Req)
  /-- OTP_PROGRAM (R482). -/
  | otpProgram (m : Moment) (r : Req)
  /-- AON_LIFE_READ (R490). -/
  | aonLifeRead (m : Moment) (r : Req)
  /-- AON_LIFE_SYNC (R484). -/
  | aonLifeSync (m : Moment) (r : Req)
  /-- PWR_TRANSITION_PHASE_DONE (R467). -/
  | pwrTransitionPhaseDone (m : Moment) (group : Nat)
  /-- JUNCTION_SENSOR_SAMPLE (R470). -/
  | junctionSensorSample (m : Moment) (readings : List (Nat × Int))
  /-- CORE_CURRENT_SAMPLE (R470). -/
  | coreCurrentSample (m : Moment) (amps : Nat)
  /-- THERMTRIP (R470). -/
  | thermtrip (m : Moment)
  /-- CADENCE_EDGE (R473). -/
  | cadenceEdge (m : Moment) (width : Nat)
  /-- CADENCE_LOSS (R473). -/
  | cadenceLoss (m : Moment)
  /-- PTP_SOURCE_LOSS (R474). -/
  | ptpSourceLoss (m : Moment)
  /-- HOLDOVER_BUDGET_EXCEEDED (R475). -/
  | holdoverBudgetExceeded (m : Moment)
  /-- LEAP_EXPIRY (R478). -/
  | leapExpiry (m : Moment)
  /-- LIFE_MIRROR_UPDATE (R484). -/
  | lifeMirrorUpdate (m : Moment)
  /-- LIFE_JOURNAL_WRITE (R484). -/
  | lifeJournalWrite (m : Moment) (failing : List Nat)
  /-- CORRECTED_ERROR (R502). -/
  | correctedError (m : Moment) (tier chan : Nat)
  /-- UNCORRECTABLE_ERROR (R503). -/
  | uncorrectableError (m : Moment) (data : UeData) (at_ : UeAt)
  /-- PATROL_SCRUB_PASS (R502). -/
  | patrolScrubPass (m : Moment)
  /-- VIEW_SWEEP (R506). -/
  | viewSweep (m : Moment) (group : Nat) (skews : List Skew)
  /-- VIEW_RECONCILE_TIMEOUT (R507). -/
  | viewReconcileTimeout (m : Moment) (group : Nat)
  /-- FIRMWARE_WATCHDOG_EXPIRY (R505). -/
  | firmwareWatchdogExpiry (m : Moment) (hallmark : Bool)
  /-- DEV_RESET (R494). -/
  | devReset (m : Moment) (r : Req)
  /-- SHUTDOWN_GRACE_EXPIRY (R494). -/
  | shutdownGraceExpiry (m : Moment)
  /-- DIAG_TRAINING (R497). -/
  | diagTraining (m : Moment) (r : Req)
  /-- DIAG_ERRORS (R512). -/
  | diagErrors (m : Moment) (r : Req)
  /-- DIAG_VIEW_CHECK (R507). -/
  | diagViewCheck (m : Moment) (r : Req)
  /-- DIAG_INJECT (R512). -/
  | diagInject (m : Moment) (r : Req)
  /-- FW_LOAD (R499). -/
  | fwLoad (m : Moment) (r : Req)
  /-- DIAG_BOOT_LOG (R496). -/
  | diagBootLog (m : Moment) (r : Req)
  /-- POWER_ON_RESET (R491). -/
  | powerOnReset (m : Moment)
  /-- PWRGOOD_FALL (R493). -/
  | pwrgoodFall (m : Moment)
  /-- PERST_N_ASSERT (R491). -/
  | perstNAssert (m : Moment)
  /-- PERST_N_DEASSERT (R495). -/
  | perstNDeassert (m : Moment) (chipId bootSel : Nat)
  /-- PCIE_HOT_RESET (R491). -/
  | pcieHotReset (m : Moment)
  /-- PCIE_LINK_DOWN (R491). -/
  | pcieLinkDown (m : Moment)
  /-- FLR (R52). -/
  | flr (m : Moment) (fn : Nat)
  /-- CONFIG_READY (R495). -/
  | configReady (m : Moment)
  /-- BOOT_PHASE_END (R495). -/
  | bootPhaseEnd (m : Moment) (x : BootEnd)
  /-- RAIL_FAULT (R519). -/
  | railFault (m : Moment) (rail : Nat)
  /-- SERDES_REF_LOSS (R523). -/
  | serdesRefLoss (m : Moment)
  /-- SERDES_REF_RETURN (R523). -/
  | serdesRefReturn (m : Moment)
  /-- REFCLK_LOSS (R523). -/
  | refclkLoss (m : Moment)
  /-- XTAL_STOP (R523). -/
  | xtalStop (m : Moment)
  /-- SMB_CLOCK_LOW_TIMEOUT (R520). -/
  | smbClockLowTimeout (m : Moment)
  /-- I3C_IDLE_TIMEOUT (R520). -/
  | i3cIdleTimeout (m : Moment)
  /-- SPI_FLASH_TIMEOUT (R520). -/
  | spiFlashTimeout (m : Moment)
  /-- RAIL_RETURN (R519). -/
  | railReturn (m : Moment) (rail : Nat)
  /-- VAUX_1V8_LOSS (R518). -/
  | vaux1v8Loss (m : Moment)
  /-- PCIE_LINK_UP (R491). -/
  | pcieLinkUp (m : Moment) (rate width : Nat)
  /-- XTAL_RESTART (R523). -/
  | xtalRestart (m : Moment)
  /-- DOE_DISCOVERY (R439). -/
  | doeDiscovery (m : Moment) (fn index : Nat)
  /-- RC_LOCAL_ACK_TIMEOUT (R353). -/
  | rcLocalAckTimeout (m : Moment) (qp : Nat)
  deriving DecidableEq, Repr

end Sys2Proof
end

