-- ==== Sys2Proof/Config.lean ====
section
/-! DEFINITION. What the manual leaves open or takes from other standards, as constants with no body: free values, the
cryptographic functions, what the manufacturer fuses and what a firmware image holds. No proof can see a value of them. -/

namespace Sys2Proof.Config

/-- A value the manual leaves open, by the model's own counter `free` of State (log entry 8). -/
opaque freeValue : Nat → Nat

/-- The `n`-th string of `len` bytes drawn from the Hallmark's CTR_DRBG (R447, 15; log entry 7). -/
opaque drbg (n len : Nat) : Bytes

/-- How far a boot phase has come at a ct: the steps, bytes, channels or lanes done of all, in ten-thousandths (R19, R495; log
entry 51). -/
opaque bootProgress (phase ct : Nat) : Nat

/-- The string of `len` bytes that comes from a place the model does not hold, another chip's memory, a composed range, a peer or the
command stream, by the model's own counter and the numbers that say what is read (log entry 13). -/
opaque remoteBytes (n : Nat) (place : List Nat) (len : Nat) : Bytes

/-- UTC's offset from TAI, in seconds, before the first entry of the leap-second table, which the manual does not state (R478, 16;
log entry 48). -/
opaque leapBase : Int

/-- BLAKE3, unkeyed (R143, 04; R185, 05; log entry 7). -/
opaque blake3 : Bytes → Bytes

/-- BLAKE3 keyed under a 32-byte key (R143, 04; R437, 15). -/
opaque blake3Keyed (key message : Bytes) : Bytes

/-- SHA-384 (R439, 15). -/
opaque sha384 : Bytes → Bytes

/-- Pure Ed25519 verification under a public key (R433, 15). -/
opaque ed25519Verify (pub message sig : Bytes) : Bool

/-- Pure ML-DSA-65 verification with an empty context string (R433, 15). -/
opaque mldsaVerify (pub message sig : Bytes) : Bool

/-- Ed25519 public key and signature from a secret seed (R437, R438, 15). -/
opaque ed25519Pub : Bytes → Bytes
opaque ed25519Sign (seed message : Bytes) : Bytes

/-- ML-DSA-65 public key and signature from a key-generation seed (R437, R438, 15). -/
opaque mldsaPub : Bytes → Bytes
opaque mldsaSign (seed message : Bytes) : Bytes

/-- AES-256 key unwrap (RFC 3394): none when the integrity check fails (R449, 15). -/
opaque keyUnwrap (kek wrapped : Bytes) : Option Bytes

/-- AES-256-GCM sealing: ciphertext and 16-byte tag (R355, 12; R412, 14). -/
opaque gcmSeal (key iv aad plain : Bytes) : Bytes × Bytes

/-- AES-256-GCM opening: none when the tag fails (R355, 12; R412, 14). -/
opaque gcmOpen (key iv aad cipher tag : Bytes) : Option Bytes

/-- The unique device secret fused at manufacture (R437, 15). -/
opaque uds : Bytes

/-- Root key digest `n`, 0 to 3, fused in OTP (R434, 15). -/
opaque rootKeyDigest : Nat → Bytes

/-- The Hallmark ROM and firmware images, which the measurements cover (R437, R440, 15). -/
opaque hallmarkRom : Bytes
opaque hallmarkFirmware : Bytes

/-- A DeviceID certificate chain (0 Ed25519, 1 ML-DSA-65) in DER, root first (R438, R461, 15). -/
opaque certChain : Nat → Bytes

/-- The alias certificates that the Hallmark issues at each boot, for a Chavy image (R438, 15). -/
opaque aliasCerts : Bytes → Bytes

/-- What a firmware image holds, in a layout that is Ixhonal's own (R435, 15): its signature block, the bytes the block's
digest covers, its release number and its production bit. -/
opaque fwBlock : Bytes → Bytes
opaque fwBody : Bytes → Bytes
opaque fwVersion : Bytes → Nat
opaque fwProduction : Bytes → Bool

/-- The image offset of the first byte of a model image's command stream that fails its decode, which Rolic documents, if
there is one (R186, R198). -/
opaque cmdStreamBad : Bytes → Option Nat

/-- The order of a Native-mode reduction's additions, which the tile count, the span and scheduling decide (R172, 05): which sums its
`k`-th draw takes, by the model's own counter and the reduction's place. -/
opaque addOrder (n : List Nat) (k : Nat) : Nat

/-- The weight objects that a layer group streams, by the image's digest: its command stream says so, which Rolic documents (R178,
R198). -/
opaque groupObjects (digest : Bytes) (lg : Nat) : List Nat

/-- A model's per-tile constants, of a number of bytes, by its digest: where an image holds them is Rolic's (R176, R185). -/
opaque tileConstants (digest : Bytes) (len : Nat) : Bytes

/-- SPDM response bodies whose layout is DMTF's (R439, 15), by request code and transcript. -/
opaque spdmBody (code : Nat) (input : Bytes) : Bytes

end Sys2Proof.Config
end

