-- ==== Sys2Proof/Machine/Units/Bench.lean ====
section
/-! DEFINITION. The Bench's part of the state: mailboxes, functions, long operations and event rings (01). -/

namespace Sys2Proof.Machine

/-- Device state of BENCH_DEVICE_STATE (R20). -/
inductive DevState where
  | booting | operating | safe | frozen
  deriving DecidableEq, Repr

/-- The ownership states of a mailbox (R24). -/
inductive Own where
  | idle | posted | taken | running | done
  deriving DecidableEq, Repr

/-- The progress area of a mailbox (R35). -/
structure Progress where
  pseq     : Nat := 0
  handle   : Nat := 0
  value    : Nat := 0
  phase    : Nat := 0
  unit     : Nat := 0
  position : Nat := 0
  total    : Nat := 0
  ct       : Nat := 0
  deriving DecidableEq, Repr

/-- One 4 KiB mailbox: header, progress area and payload area (R21, R22). -/
structure Mailbox where
  own       : Own := .idle
  hdr       : Header := {}
  status    : Nat := 0
  resultLen : Nat := 0
  opHandle  : Nat := 0
  detail    : Nat := 0
  ctDone    : Nat := 0
  prog      : Progress := {}
  /-- Payload bytes by offset from the payload area's start; an unlisted byte is 0. -/
  payload   : List Host.Cell := []
  /-- Position in the function's order of posting, for FENCE (R23). -/
  postNo    : Nat := 0
  /-- Posted while the device was BOOTING (R27). -/
  postBoot  : Bool := false
  deriving DecidableEq, Repr

/-- A BAR2 aperture (R17, R42). -/
structure Aperture where
  tier      : Nat
  partition : Nat
  barOffset : Nat
  size      : Nat
  memOffset : Nat
  deriving DecidableEq, Repr

/-- The event-log ring of a function (R45 to R48). -/
structure EventRing where
  base       : Nat := 0
  log2       : Nat := 0
  prod       : Nat := 0
  cons       : Nat := 0
  enabled    : Bool := false
  writeFault : Bool := false
  overflow   : Bool := false
  dropped    : Nat := 0
  vector     : Nat := 0xFFFF
  minSev     : Nat := 0
  mask       : Nat := 0
  /-- Records dropped while full and not yet told by an EVT_OVERFLOW record (R48). -/
  untold     : Nat := 0
  deriving DecidableEq, Repr

/-- One entry of the MSI-X table in BAR4 (R16, R32). -/
structure MsixEntry where
  addr   : Nat := 0
  data   : Nat := 0
  masked : Bool := true
  deriving DecidableEq, Repr

/-- What one function (PF0 or a VF) holds for itself (R14, R18, R47). -/
structure FnState where
  violations : Nat := 0
  bar2Misses : Nat := 0
  /-- ct of the last BAR2_MISS event logged, none before the first (R50). -/
  bar2LogCt  : Option Nat := none
  /-- Serial of the next long operation (R33). -/
  serial     : Nat := 1
  ring       : EventRing := {}
  apertures  : Tab Aperture := []
  msix       : Tab MsixEntry := []
  msixPend   : List Nat := []
  /-- High word of CT_NOW latched by a 32-bit read of its low word (R487). -/
  ctHigh     : Nat := 0
  /-- CT_UTC_TIME and CT_UTC_NS latched by a read of CT_UTC_DATE (R487). -/
  utcTime    : Nat := 0
  utcNs      : Nat := 0
  posts      : Nat := 0
  /-- What the host's configuration requests program: the completion timeout of Device Control 2 in ns (R15), the largest payload and
  read request in bytes and ATS (R15). The table has no row for them (log entry 62). -/
  cplTimeout : Nat := 50000000
  maxPayload : Nat := 128
  maxReadReq : Nat := 512
  ats        : Bool := false
  deriving DecidableEq, Repr

/-- A long operation, from the taking of its command to its end (R33 to R38). -/
structure LongOp where
  /-- 0 until LONG_OP_ACCEPT gives the handle. -/
  handle     : Nat := 0
  fn         : Nat
  req        : Req
  opcode     : Nat
  prog       : Progress := {}
  cancelling : Bool := false
  /-- Clear in a phase that its chapter declares cannot be stopped (R44). -/
  canCancel  : Bool := true
  /-- What the owning unit keeps with the operation. -/
  args       : List Nat := []
  /-- The mailbox is gone (FLR, R52): the operation ends with no completion written. -/
  orphan     : Bool := false
  deriving DecidableEq, Repr

/-- The final progress record of an ended operation (R38). -/
structure Retained where
  fn    : Nat
  ctEnd : Nat
  /-- Position in the function's order of endings. -/
  endNo : Nat
  prog  : Progress
  deriving DecidableEq, Repr

/-- The Bench (01). -/
structure Bench where
  devState  : DevState := .booting
  fwVersion : Nat := 0
  fwFlags   : Nat := 0
  bootPhase : Nat := 1
  /-- PERMYRIAD where no phase of a boot runs, and the ct at which the present phase began (R19). -/
  permyriad : Nat := 0
  phaseCt   : Nat := 0
  bootError : Nat := 0
  fns       : Tab FnState := []
  /-- Mailbox n of function f at key f * 256 + n. -/
  mbx       : Tab Mailbox := []
  /-- Long operations by the model's own operation number. -/
  ops       : Tab LongOp := []
  nextOp    : Nat := 1
  /-- Retained final records by handle. -/
  retained  : Tab Retained := []
  /-- Long operations of each function that have ended, by function. -/
  ended     : Tab Nat := []
  deriving DecidableEq, Repr

end Sys2Proof.Machine
end

