-- ==== Sys2Proof/Machine/Units/Board.lean ====
section
/-! DEFINITION. Swilan links, twin pairs, the Mould and the Check units (13, 14). -/

namespace Sys2Proof.Machine

/-- LSTATE of a link (R385, R403). -/
inductive LState where
  | disabled | training | up | degraded | absent | fault
  deriving DecidableEq, Repr

/-- Flits of one message waiting in the replay buffer (R384). -/
structure ReplayFlit where
  seq     : Nat
  vc      : Nat
  replays : Nat := 0
  deriving DecidableEq, Repr

/-- A message that waits for credits, or a twin record that is not yet acknowledged (R383, R384). -/
structure SwlMsg where
  vc     : Nat
  code   : Nat
  tag    : Nat
  values : List Nat := []
  data   : Bytes := []
  /-- Its flits, and those not yet sent or, of a twin record that has been sent, not yet acknowledged. -/
  flits  : Nat
  left   : Nat
  deriving DecidableEq, Repr

/-- One Swilan link (R382 to R385). -/
structure Link where
  lstate   : LState := .disabled
  cause    : Nat := 0
  lanes    : Nat := 0
  peerChip : Nat := 0
  peerCode : Nat := 0
  retrains : Nat := 0
  attempts : Nat := 0
  /-- ct at which the present state was entered. -/
  ctState  : Nat := 0
  seqTx    : Nat := 0
  seqRx    : Nat := 0
  replay   : List ReplayFlit := []
  /-- cts of the REPLAY requests of the last 1 ms. -/
  replayCts : List Nat := []
  /-- Credits available per virtual channel, as the link layer counts them. -/
  avail    : List Nat := [256, 256, 256, 256]
  /-- Flits sent and received per virtual channel since the link came up. -/
  sent     : List Nat := [0, 0, 0, 0]
  received : List Nat := [0, 0, 0, 0]
  /-- Credits returned to the peer and credits that it has returned, per virtual channel since the link came up (R309). -/
  creditsOut : List Nat := [0, 0, 0, 0]
  creditsIn  : List Nat := [0, 0, 0, 0]
  /-- Messages that wait for credits, in order; twin records wait while the link is down too. -/
  queue    : List SwlMsg := []
  /-- Twin records sent and not yet acknowledged. -/
  twin     : List SwlMsg := []
  /-- The last training ended without a signal from a peer. -/
  empty    : Bool := false
  deriving DecidableEq, Repr

/-- Why this chip waits for a response on VC1 (R387, R388). -/
inductive SwlWait where
  | forwarded (req : Req) (op : Nat)
  | numberCheck (op : Nat)
  | claim (fop : Nat)
  | subQuery (q : Nat)
  | migrate (fop : Nat)
  | twinSet (req : Req)
  deriving DecidableEq, Repr

/-- A request outstanding on a link. -/
structure SwlReq where
  link : Nat
  wait : SwlWait
  deriving DecidableEq, Repr

/-- The Swilan links (13). -/
structure Swilan where
  links   : Tab Link := []
  reqs    : Tab SwlReq := []
  nextReq : Nat := 1
  deriving DecidableEq, Repr

/-- TSTATE of a pair that is not OFF (R400, R403). -/
inductive TState where
  | locked | lost
  deriving DecidableEq, Repr

/-- A twin pair (R393). -/
structure Pair where
  tstate    : TState := .locked
  secondary : Bool
  peer      : Nat
  onLoss    : Nat
  depth     : Nat
  timeout   : Nat
  verified  : Nat := 0
  unverified : Nat := 0
  diverged  : Nat := 0
  /-- ct since which the link has been neither UP nor DEGRADED, 0 while it is. -/
  ctDown    : Nat := 0
  deriving DecidableEq, Repr

/-- A twinned step whose digests are being compared (R397, R398). -/
structure TwinStep where
  session : Nat
  base    : Nat
  /-- Own digests by layer group, 0xFFFF the commit digest, each with the ct it was formed. -/
  own     : Tab (Nat × Nat) := []
  /-- The secondary's digests, by layer group. -/
  peer    : Tab Nat := []
  committed : Bool := false
  ctCommit  : Nat := 0
  deriving DecidableEq, Repr

/-- Twin mode (13). -/
structure Twin where
  pairs   : Tab Pair := []
  steps   : Tab TwinStep := []
  nextStep : Nat := 1
  /-- Twin grants that wait for the shadow, oldest first: session, base, chunk. -/
  grants  : List (Nat × Nat × Nat) := []
  /-- Longest hold in ns of the steps of each partition (R398). -/
  holdMax : Tab Nat := []
  /-- Shadows to be retired when the link to their chip next comes UP (R400): chips and partitions. -/
  owed    : List (Nat × Nat) := []
  deriving DecidableEq, Repr

/-- Cut states of a group (R418). -/
inductive CutState where
  | idle | queued | capture | invalidate | writing | flush | manifest | commit
  deriving DecidableEq, Repr

/-- A session captured by a cut (R414): what its shard will hold. -/
structure Captured where
  session : Nat
  entry   : Session
  store   : Store
  length  : Nat
  ct      : Nat
  /-- Frames on which the cut holds a CUT reference. -/
  frames  : List Nat
  written : Bool := false
  /-- Block offset within the half, body bytes and body CRC, once written. -/
  place   : Nat × Nat × Nat := (0, 0, 0)
  deriving DecidableEq, Repr

/-- A checkpoint group (R407, R419) and its cut (R418). -/
structure CkGroup where
  partition : Nat
  modelSlot : Nat
  narrow    : Nat
  classLo   : Nat
  classHi   : Nat
  qp        : Nat
  nsid      : Nat
  lbaBase   : Nat
  lbaCount  : Nat
  maxShards : Nat
  stepTrig  : Nat
  period    : Nat
  errWindow : Nat
  errThresh : Nat
  window    : Nat
  half      : Nat
  cstate    : CutState := .idle
  /-- Bench operation of MLD_CUT, 0 for a cut started by a trigger. -/
  op        : Nat := 0
  cutId     : Nat := 0
  step      : Nat := 0
  ctStart   : Nat := 0
  /-- Sessions selected and not yet captured. -/
  toCapture : List Nat := []
  captured  : List Captured := []
  /-- What the newest committed cut holds. -/
  last      : List Captured := []
  skipped   : Nat := 0
  bytes     : Nat := 0
  pending   : Bool := false
  /-- NVMe-oF commands outstanding for the present stage. -/
  waiting   : Nat := 0
  grants    : Nat := 0
  errCts    : List Nat := []
  lastTimer : Nat := 0
  lastId    : Nat := 0
  lastStep  : Nat := 0
  /-- Cut IDs that manifest slots 0 and 1 hold, as far as this chip knows. -/
  slotIds   : List Nat := [0, 0]
  deriving DecidableEq, Repr

/-- A restore in progress (R420, R421). -/
structure Restore where
  group   : Nat
  tier    : Nat
  verify  : Bool
  target  : Nat
  req     : Req
  cmd     : Nat
  /-- The store area as it was read, from the choice of the cut on; the restore is then in phase RESTORE (R420, R431). -/
  data    : Bytes := []
  deriving DecidableEq, Repr

/-- The Mould (14). -/
structure Mould where
  groups   : Tab CkGroup := []
  /-- Groups waiting for one of the 16 running cuts to end, oldest first. -/
  queue    : List Nat := []
  restores : Tab Restore := []
  units    : Nat := 0xC0
  deriving DecidableEq, Repr

/-- Who has a Check unit (R424). -/
inductive CheckOwner where
  | free | mould | fn (f : Nat)
  deriving DecidableEq, Repr

/-- A Check unit (R423, R425). -/
structure CheckUnit where
  owner   : CheckOwner := .free
  poly    : Nat := 0
  value   : Nat := 0
  bytes   : Nat := 0
  overlap : Bool := false
  /-- Operation of the CHK_RUN that uses it, 0 when none does. -/
  busy    : Nat := 0
  deriving DecidableEq, Repr

end Sys2Proof.Machine
end

