-- ==== Sys2Proof/Machine/Units/Contracts.lean ====
section
/-! DEFINITION. Planisher, Gauge and Tally (09, 10). -/

namespace Sys2Proof.Machine

/-- A contract class (R269, R270) with its fair-share tags (R280). -/
structure ContractClass where
  partition     : Nat := 0
  recovery      : Nat := 0x39
  narrow        : Nat := 0
  ttftPct       : Nat := 2
  gapPct        : Nat := 2
  redDefer      : Bool := false
  meter         : Nat := 0xFFFF
  classWeight   : Nat := 1
  tokenRate     : Nat := 0
  burst         : Nat := 0
  ttftTarget    : Nat := 0
  gapTarget     : Nat := 0
  windowS       : Nat := 60
  sessionWeight : Nat := 1
  start         : Nat := 0
  finish        : Nat := 0
  /-- Virtual time of its sessions. -/
  vtime         : Nat := 0
  backlogged    : Bool := false
  deriving DecidableEq, Repr

/-- An admission meter (R272). -/
structure Meter where
  ctLast    : Nat := 0
  aware     : Bool := false
  partition : Nat := 0
  cir       : Nat := 0
  cbs       : Nat := 0
  pir       : Nat := 0
  pbs       : Nat := 0
  tc        : Nat := 0
  tp        : Nat := 0
  green     : Nat := 0
  yellow    : Nat := 0
  red       : Nat := 0
  deriving DecidableEq, Repr

/-- A partition's tags in a unit that serves every partition from one queue (R280, R283). -/
structure PartQueue where
  start  : Nat := 0
  finish : Nat := 0
  /-- The unit has work of the partition that it could serve. -/
  busy   : Bool := false
  deriving DecidableEq, Repr

/-- A partition's share (R282, R283) and its tags in the units that serve every partition from one queue. -/
structure Share where
  weight  : Nat := 1
  fairLag : Nat := 64
  meter   : Nat := 0xFFFF
  /-- Virtual time of the partition's classes. -/
  vtime   : Nat := 0
  /-- Its queues in the Shear lanes and in the stream writer. -/
  lane    : PartQueue := {}
  stream  : PartQueue := {}
  deriving DecidableEq, Repr

/-- A stream record not yet written to its ring (R285). -/
structure StreamRec where
  session    : Nat
  length     : Nat
  fault      : Bool := false
  stop       : Bool := false
  endStep    : Bool := false
  first      : Bool := false
  stopReason : Nat := 0
  data       : Bytes := []
  /-- Step of a twinned session whose digest must match before release (R398), 0 when none. -/
  twinStep   : Nat := 0
  deriving DecidableEq, Repr

/-- A stream ring (R284, R286). -/
structure StreamRing where
  kind     : Nat
  log2     : Nat
  base     : Nat
  consAddr : Nat
  conn     : Nat := 0
  key      : Nat := 0
  vector   : Nat := 0xFFFF
  fn       : Nat := 0
  prod     : Nat := 0
  cons     : Nat := 0
  faulted  : Bool := false
  spill    : List StreamRec := []
  reserved : Nat := 0
  /-- ct of the last read of the consumed count. -/
  consCt   : Option Nat := none
  deriving DecidableEq, Repr

/-- The Planisher (09). -/
structure Planisher where
  classes   : Tab ContractClass := []
  meters    : Tab Meter := []
  shares    : Tab Share := []
  /-- Ring n of partition p at key p * 1024 + n. -/
  rings     : Tab StreamRing := []
  /-- Virtual time of the lanes and of the stream writer (R283). -/
  laneV     : Nat := 0
  streamV   : Nat := 0
  deriving DecidableEq, Repr

/-- One metric's counters in a window (R288). -/
structure MetricBank where
  under   : Nat := 0
  buckets : Tab Nat := []
  above   : Nat := 0
  overTarget : Nat := 0
  deriving DecidableEq, Repr

/-- A measurement window of a class (R289, R295). -/
structure Window where
  start      : Nat
  /-- First ct after the window. -/
  stop       : Nat
  windowS    : Nat
  short      : Bool := false
  stepped    : Bool := false
  holdover   : Bool := false
  timeLost   : Bool := false
  /-- Metrics 0 TTFT, 1 GAP, 2 TURN. -/
  ttft       : MetricBank := {}
  gap        : MetricBank := {}
  turn       : MetricBank := {}
  late       : Nat := 0
  hostStall  : Nat := 0
  depthSum   : Nat := 0
  depthMax   : Nat := 0
  depthN     : Nat := 0
  grants     : Nat := 0
  delaySum   : Nat := 0
  delayMax   : Nat := 0
  deriving DecidableEq, Repr

/-- A report awaiting its signature or signed (R291). -/
structure Report where
  cls      : Nat
  seq      : Nat
  body     : Bytes
  verdicts : List Nat := []
  pcts     : List Nat := []
  /-- Metric codes of the percentiles its targets name. -/
  targetPct : List Nat := []
  /-- The class was deleted: the report is discarded once signed (R294). -/
  final    : Bool := false
  deriving DecidableEq, Repr

/-- The Gauge's record of one class. -/
structure GaugeClass where
  opened   : Window
  /-- The window that has ended and not yet closed. -/
  ending   : Option Window := none
  reports  : List Report := []
  depthNow : Nat := 0
  lastSeq  : Nat := 0
  lastPct  : List Nat := []
  lastVerdict : List Nat := []
  lateNext : Nat := 0
  sseq     : Nat := 0
  deriving DecidableEq, Repr

/-- What the last queue sample found of one partition (R51, R295, R298). -/
structure PartSample where
  fdyDepth  : Nat := 0
  fdyMax    : Nat := 0
  raiseMax  : Nat := 0
  shearWait : Nat := 0
  shearMax  : Nat := 0
  deriving DecidableEq, Repr

/-- The Gauge (09). -/
structure Gauge where
  period     : Nat := 100000
  classes    : Tab GaugeClass := []
  /-- Closed reports waiting for the Hallmark, in close order (R293). -/
  toSign     : List Report := []
  reports    : Nat := 0
  late       : Nat := 0
  overwritten : Nat := 0
  fdyDepth   : Nat := 0
  fdyMax     : Nat := 0
  raiseMax   : Nat := 0
  shearWait  : Nat := 0
  shearMax   : Nat := 0
  abandonedBytes  : Nat := 0
  abandonedFrames : Nat := 0
  lateCt     : Option Nat := none
  lateNew    : Nat := 0
  /-- The queue samples by partition. -/
  parts      : Tab PartSample := []
  deriving DecidableEq, Repr

/-- One posting kept in a ledger's trace (R313). -/
structure TraceEntry where
  ct      : Nat
  src     : Nat
  dst     : Nat
  unit    : Nat
  amount  : Nat
  session : Nat
  deriving DecidableEq, Repr

/-- A ledger instance (R303, R305). -/
structure Ledger where
  /-- Columns 0 to 7. -/
  cols  : List Nat := [0, 0, 0, 0, 0, 0, 0, 0]
  /-- Columns at the last epoch's close. -/
  mark  : List Nat := [0, 0, 0, 0, 0, 0, 0, 0]
  /-- The last epoch's differences. -/
  delta : List Int := [0, 0, 0, 0, 0, 0, 0, 0]
  sat   : Bool := false
  trace : List TraceEntry := []
  deriving DecidableEq, Repr

/-- An audit marker expected from a Swilan peer (R309): link, virtual channel and audit ct. -/
structure MarkerDue where
  link : Nat
  vc   : Nat
  ct   : Nat
  deriving DecidableEq, Repr

/-- The Tally (10). -/
structure Tally where
  /-- Instance i of ledger code c at key c * 2^32 + i. -/
  ledgers    : Tab Ledger := []
  epoch      : Nat := 0
  breach     : Bool := false
  reportOnly : Bool := false
  auditCt    : Nat := 0
  /-- ct at which the last audit begun ends (R308). -/
  auditEnd   : Nat := 0
  /-- The audit ct of an audit begun and not yet counted as completed, and that the next one has been delayed by it (R308). -/
  auditing   : Option Nat := none
  delayed    : Bool := false
  audits     : Nat := 0
  postings   : Nat := 0
  timeMax    : Nat := 0
  overruns   : Nat := 0
  evidenceLost : Nat := 0
  swlResets  : Nat := 0
  markers    : List MarkerDue := []
  deriving DecidableEq, Repr

end Sys2Proof.Machine
end

