-- ==== Sys2Proof/Machine/Units/Counters.lean ====
section
/-! DEFINITION. The event counters of the unit-state mirrors, each kept per partition (key 16: for no partition). PF0 reads
the sum of a counter over every key, a VF that of its own partition (R51, 01). -/

namespace Sys2Proof.Machine

/-- A counter of the mirrors, named as its register. -/
inductive Ctr where
  -- 02 (R87)
  | plnRefused | plnSteps | plnBatches
  -- 03 (R124)
  | fdyCasts | fdyRaises | fdyRunCancels | fdyRecoveries
  | fdyPaceStalls | fdyDescs | fdyBytes | fdyNarrowNan
  -- 04 (R155)
  | ptnLookups | ptnHits | ptnEvictions | ptnDups | ptnSlotsRetired | frmRefSaturated | frmStale
  -- 05, 06 (R190, R216)
  | tileInvs | tileFaults | tileRowFaults | tileIntSat | tileScaleClamp | tileIntNan
  | attRows | attLines | attRounds | attNanRows | attShort | attOver
  -- 09 (R298): what each partition adds to the Gauge's counts
  | gauReports | gauLate | gauOverwritten | gauAbandonedBytes | gauAbandonedFrames
  -- 10 (R314)
  | tlyPostings
  -- 07 (R241)
  | shrBytes | shrTokens | shrReplaced | shrFallback | shrRejected | shrNormSplit | shrUnk | shrMisses
  | sldTokens | sldBytes | sldReplaced | sldMatches | sldFffd | sldDrop
  -- 08 (R266)
  | armMasks | armMisses | armWaits | armResets | finSamples | finGreedy | finProposed | finAccepted | finEscapes | finExhausted | finNan
  | finInf
  -- 09 (R297)
  | plaGreen | plaYellow | plaRed | plaDeferred | plaFairHolds | plaCreditHolds | plaExpired | plaStreamStallNs
  -- 11 (R342)
  | tchQueries | tchCompared | tchDangling | tchWaypoints | tchReclaimed | tchRetired | tchTimeouts | gthBatches | gthIndices
  | gthUnique | gthHot | gthEmpty | gthSpills
  -- 12 (R376)
  | netRxPkts | netTxPkts | netDup | netStale | netAged | netGcm | netRetryNaks | netStalls | netCnpSent | netCnpRecv
  | netSealFailed | netStageDrops | netRxInvalid | netRxWindow | netRxOversize | netPtpIgnored
  -- 13 (R402)
  | swlTx | swlRx | swlCrc | swlReplays | swlForwards | twinCompared | twinDiverged | twinUnverified
  -- 14 (R428)
  | mldCuts | mldFails | mldBytes | mldShards | mldCoalesced | mldSkipped
  -- 15 (R457)
  | hmkSigFails
  -- 16 (R485, R487)
  | pwrTrips | pwrWaits | pwrRxDropped | ctChatter | ctGlitch | ctRefused | ctSteps
  -- 17 (R508)
  | benchSkews
  deriving DecidableEq, Repr

end Sys2Proof.Machine
end

