-- ==== Sys2Proof/Machine/Units/Errors.lean ====
section
/-! DEFINITION. Errors, boot and reset (17), pins, rails and clocks (18). -/

namespace Sys2Proof.Machine

/-- A record of the history of contained uncorrectable errors (R503, R512). -/
structure UeRec where
  ct     : Nat
  tier   : Nat
  chan   : Nat
  addr   : Nat
  kind   : Nat
  owner  : Nat
  status : Nat
  deriving DecidableEq, Repr

/-- A line that DIAG_INJECT has armed (R512). -/
structure Injected where
  hard      : Bool
  tier      : Nat
  partition : Nat
  line      : Nat
  deriving DecidableEq, Repr

/-- An orderly shut-down in progress (R494). -/
structure Shutdown where
  op        : Nat
  due       : Nat
  hold      : Bool
  abandoned : Nat := 0
  deriving DecidableEq, Repr

/-- Error handling, views, training, boot and flash (17, R524). -/
structure Errors where
  ceHbm     : List Nat := [0, 0, 0, 0, 0, 0, 0, 0]
  ceLpddr   : Tab Nat := []
  ceSram    : Nat := 0
  /-- cts of each channel's corrected errors in the last 1 s, newest first: key tier * 4096 + channel. -/
  ceRecent  : Tab (List Nat) := []
  /-- ct of the last CE_THRESHOLD event of each channel. -/
  ceLogged  : Tab Nat := []
  ueCount   : Nat := 0
  ueHist    : List UeRec := []
  patrolCt  : Nat := 0
  /-- Groups whose view is stale, and the ct since which each is. -/
  stale     : Tab Nat := []
  fatals    : Nat := 0
  fatalCause : Nat := 0
  failedLp  : List Nat := []
  failedPorts : List Nat := []
  /-- Lanes of each Ethernet port that failed, as a mask. -/
  failedLanes : Tab Nat := []
  /-- Outcomes other than PASS: key which * 65536 + index, value outcome + 256 * lanes repaired (R512). -/
  training  : Tab Nat := []
  injected  : List Injected := []
  /-- The boot log's records, oldest first (R496), and whether they still wait for PF0's ring. -/
  bootLog   : List Bytes := []
  bootOwed  : Bool := true
  bootTime  : Nat := 0
  /-- ct of PERST_N's deassertion, of the start of the device reset, or of the start of ct in phase 0x01, and the ns of the boot before
  that. -/
  bootStart : Nat := 0
  bootPre   : Nat := 0
  configOk  : Bool := false
  hold      : Bool := false
  shutdown  : Option Shutdown := none
  /-- A device-fatal fault of the Bench: the Hallmark serves the mailboxes (R505). -/
  hallmarkServes : Bool := false
  /-- Firmware slots A and B of the flash; an absent slot is invalid. -/
  firmware  : Tab Bytes := []
  /-- Tally evidence records, which the flash keeps over any reset (R312), and whether the next breach replaces them. -/
  evidence  : List Bytes := []
  evidenceOld : Bool := false
  deriving DecidableEq, Repr

/-- Pins, rails and clocks (18). -/
structure Elec where
  pwrgood   : Bool := true
  /-- PERST_N as the device takes it, which is asserted while PWRGOOD is low, and its filtered level. -/
  perst     : Bool := false
  perstLow  : Bool := false
  alert     : Bool := false
  thermtrip : Bool := false
  /-- Rails outside their window, one bit per rail of R516. -/
  railsBad  : Nat := 0
  refclk    : Bool := true
  sdref     : Bool := true
  xtal      : Bool := true
  rtcValid  : Bool := false
  chipId    : Nat := 0
  bootSel   : Nat := 0
  sdrefLosses : Nat := 0
  pcieUp    : Bool := true
  pcieRate  : Nat := 128
  pcieWidth : Nat := 16
  /-- Tries of the flash access in progress that have timed out (R520). -/
  spiTries  : Nat := 0
  deriving DecidableEq, Repr

end Sys2Proof.Machine
end

