-- ==== Sys2Proof/Machine/Units/Memory.lean ====
section
/-! DEFINITION. The Foundry, the frame pools, the Pattern tree and the tensor tiles (03 to 06). -/

namespace Sys2Proof.Machine

/-- KIND of a descriptor (R96). -/
inductive DescKind where
  | copy | castPage | raisePage | imageWrite | imageRead | dirCommit | migratePage
  deriving DecidableEq, Repr

/-- A descriptor in the store (R95, R96), its class (R94) and its owner. -/
structure Desc where
  kind     : DescKind
  length   : Nat := 0
  session  : Nat := 0
  partition : Nat := 0
  srcTier  : Nat := 0
  dstTier  : Nat := 0
  xcode    : Nat := 0
  prov     : Bool := false
  paced    : Bool := false
  fence    : Bool := false
  crc      : Bool := false
  src      : Nat := 0
  dst      : Nat := 0
  srcChip  : Nat := 0
  dstChip  : Nat := 0
  lg       : Nat := 0
  page     : Nat := 0
  needLg   : Nat := 0
  castGen  : Nat := 0
  tag      : Nat := 0
  /-- Foundry operation that made it. -/
  fop      : Nat := 0
  /-- Class of R94, 1 to 6. -/
  cls      : Nat := 6
  /-- Move engine running it, once issued. -/
  engine   : Option Nat := none
  ctIssue  : Nat := 0
  /-- The page-table entry the destination will have. -/
  dest     : Pte := {}
  /-- What another chip has sent for it (R383), none until it has. -/
  data     : Option Bytes := none
  deriving DecidableEq, Repr

/-- Kinds of Foundry operation. -/
inductive FopKind where
  | cast | raise | runAhead | migrate | exportEth | pull | submit
  deriving DecidableEq, Repr

/-- A cast, raise, run-ahead, migration, pull or submission in progress (R102 to R122). -/
structure Fop where
  kind      : FopKind
  /-- Bench operation that reports it; 0 when the device itself asked for it. -/
  op        : Nat := 0
  session   : Nat
  partition : Nat := 0
  /-- Phase code of R127. -/
  phase     : Nat := 0
  tier      : Nat := 0
  narrow    : Nat := 0
  window    : Bool := false
  range     : Nat := 0
  chip      : Nat := 0
  conn      : Nat := 0
  slot      : Option Nat := none
  /-- Entries whose frames are reserved and not yet published, by key g * 4096 + b. -/
  fresh     : Tab Pte := []
  /-- Keys of `fresh` whose bytes have arrived. -/
  arrived   : List Nat := []
  /-- Entries to be released when the operation ends: frames that it has replaced. -/
  old       : List Pte := []
  /-- Descriptors not yet in the store (R93). -/
  todo      : List Desc := []
  /-- Keys of pages whose pull has failed and that are being recovered (R117). -/
  bad       : List Nat := []
  /-- Layer groups of the model, and pages moved and to be moved. -/
  lgCount   : Nat := 0
  pages     : Nat := 0
  total     : Nat := 0
  bytes     : Nat := 0
  castGen   : Nat := 0
  /-- Place and size of the cast image being written. -/
  imageAddr : Nat := 0
  imageSize : Nat := 0
  ctStart   : Nat := 0
  /-- RAISE_LEAD, RUNAHEAD_TTL and PULL_TIMEOUT when it started (R127). -/
  lead      : Nat := 2
  ttl       : Nat := 10000000
  pullTo    : Nat := 500000
  /-- The raise has left RAISING (R111). -/
  left      : Bool := false
  /-- The active entry that the cast image restored, before a slot holds it. -/
  entry     : Option Session := none
  /-- The directory entry that a claim found. -/
  claim     : Option DirEntry := none
  /-- Keys of `fresh` whose frames a promotion has posted as an entry's (R306). -/
  posted    : List Nat := []
  /-- Recovery steps tried for each failed page (R118), and the last failure's status. -/
  tried     : Tab (List Nat) := []
  lastStatus : Nat := 0
  /-- A migration that arrives here (R121). -/
  inbound   : Bool := false
  /-- The tag of an inbound migration's answer. -/
  tag       : Nat := 0
  /-- Bytes of the pages that an export has read for a layer group's message, by key (R369). -/
  bufs      : Tab Bytes := []
  /-- A cast that slot pressure requested (R85). -/
  pressure  : Bool := false
  deriving DecidableEq, Repr

/-- The Foundry (03). -/
structure Foundry where
  store     : Tab Desc := []
  nextDesc  : Nat := 1
  ops       : Tab Fop := []
  nextFop   : Nat := 1
  raiseLead : Nat := 2
  ttl       : Nat := 10000000
  pullTo    : Nat := 500000
  imports   : Tab DirEntry := []
  /-- Next engine-class turn for classes 3 to 6 (R94): descriptors issued since one of them was served. -/
  sinceLow  : Nat := 0
  /-- Partition served last in each class (R94). -/
  lastPart  : Tab Nat := []
  deriving DecidableEq, Repr

/-- Which pool (R136): tier 0 to 2 page frames, 0xFE journal, 0xFF table. -/
structure PoolId where
  partition : Nat
  tier      : Nat
  pclass    : Nat
  enc       : Nat
  deriving DecidableEq, Repr

/-- A pool's extents, each a base byte address and a count of frames. -/
structure Pool where
  id      : PoolId
  size    : Nat
  extents : List (Nat × Nat) := []
  deriving DecidableEq, Repr

/-- A frame in use: its pool, reference count and holders by kind (R139, R305). -/
structure FrameRec where
  pool   : PoolId
  refs   : Nat := 0
  deriving DecidableEq, Repr

/-- The frame table of the chip (R136 to R140). -/
structure Frames where
  pools     : List Pool := []
  /-- Allocated frames by key tier * 2^52 + byte address. -/
  frames    : Tab FrameRec := []
  /-- Frame generations that are not 0, by the same key; they outlive the frame's release. -/
  gens      : Tab Nat := []
  /-- Frames whose first saturation has been logged (R140). -/
  satLogged : List Nat := []
  deriving DecidableEq, Repr

/-- NSTATE of a node (R145). -/
inductive NState where
  | free | building | published | deleted
  deriving DecidableEq, Repr

/-- A Pattern-tree node (R144). -/
structure Node where
  key       : Bytes := []
  parent    : Nat := 0
  gen       : Nat := 0
  nstate    : NState := .free
  modelSlot : Nat := 0
  mode      : Bool := false
  pin       : Bool := false
  depth     : Nat := 0
  children  : Nat := 0
  pageFrame : Nat := 0
  ctUsed    : Nat := 0
  ctPub     : Nat := 0
  pages     : List Pte := []
  deriving DecidableEq, Repr

/-- The Pattern tree of one partition (R143 to R152). -/
structure Tree where
  cap      : Nat := 0
  nodeLow  : Nat := 0
  frameLow : Nat := 0
  nodes    : Tab Node := []
  /-- HBM address of the node table (R144). -/
  base     : Nat := 0
  /-- Table-memory frames sized for the node table and the hash index. -/
  retired  : Nat := 0
  deriving DecidableEq, Repr

/-- MSTATE of a model slot (R183). -/
inductive MState where
  | empty | loading | ready | faulted | unloading
  deriving DecidableEq, Repr

/-- The fields of a model image's header that the device keeps (R185). -/
structure ModelHdr where
  imageBytes : Nat := 0
  digest     : Bytes := []
  layerCount : Nat := 0
  lgLayers   : Nat := 1
  kvFormat   : Nat := 0
  kvHeads    : Nat := 0
  headDim    : Nat := 0
  qHeads     : Nat := 0
  lgCount    : Nat := 0
  vocab      : Nat := 0
  hidden     : Nat := 0
  batchLimit : Nat := 0
  minSpan    : Nat := 0
  ctxSlots   : Nat := 1
  sparse     : Bool := false
  winDefault : Nat := 0
  winMax     : Nat := 0
  globDefault : Nat := 0
  globMax    : Nat := 0
  objCount   : Nat := 0
  constBytes : Nat := 0
  objTable   : Nat := 0
  sigOffset  : Nat := 0
  sigLen     : Nat := 0
  cmdOffset  : Nat := 0
  attTable   : Nat := 0
  deriving DecidableEq, Repr

/-- A weight object's placement (R187). -/
structure WeightObj where
  bytes : Nat
  tier  : Nat
  addr  : Nat
  /-- Bytes of old copies still read by invocations dispatched before a move, with the tier and address. -/
  old   : List (Nat × Nat) := []
  deriving DecidableEq, Repr

/-- An attention descriptor: the OFFSET of its three operands in the context slots, and its parameters (R198). -/
structure AttDesc where
  qOff    : Nat
  kvOff   : Nat
  outOff  : Nat
  sat     : Bool
  scale   : F32
  softcap : F32
  capInv  : F32
  half    : Bool
  deriving DecidableEq, Repr

/-- A model slot (R183 to R187). -/
structure ModelSlot where
  mstate    : MState := .empty
  partition : Nat := 0
  faultRun  : Nat := 0
  spanMask  : Nat := 0
  hdr       : ModelHdr := {}
  hdrBytes  : Bytes := []
  objs      : List WeightObj := []
  att       : List AttDesc := []
  /-- The image while LOADING, for its verification (R186). -/
  image     : Bytes := []
  /-- The placement of a load, while it runs, and the new places of objects that MODEL_PLACE is moving. -/
  newObjs   : List WeightObj := []
  moving    : List WeightObj := []
  reload    : Bool := false
  op        : Nat := 0
  /-- Nodes the unload's purge deleted. -/
  purged    : Nat := 0
  deriving DecidableEq, Repr

/-- One session's item in an invocation (R175). -/
structure InvRow where
  session : Nat
  slot    : Nat
  chunk   : Nat
  drafts  : Nat
  /-- `length` at the grant. -/
  base    : Nat
  /-- First query position. -/
  start   : Nat := 0
  rebuild : Bool := false
  masked  : Bool := false
  deriving DecidableEq, Repr

/-- What an invocation's context slots hold at an operand's OFFSET for one session, position and head (R166, R198): FP32 words, or
element and scale codes. How the slots lay these out is Rolic's (log entry 8). -/
structure CtxCell where
  offset  : Nat
  session : Nat
  pos     : Nat
  head    : Nat
  vals    : List (BitVec 32)
  deriving DecidableEq, Repr

/-- A row on the score plates of a round: its query, its first line of those that R201 numbers, and its entries (R200). -/
structure PlateRow where
  session : Nat
  pos     : Nat
  head    : Nat
  line    : Nat
  /-- R206 has made it NaN. -/
  bad     : Bool := false
  vals    : List F32 := []
  deriving DecidableEq, Repr

/-- The score plates of a span while an attention computation holds them: layer, round and rows (R201). -/
structure Plate where
  layer : Nat
  round : Nat
  rows  : List PlateRow
  deriving DecidableEq, Repr

/-- What a 2 MiB half of the weight stream, or a plate region that is free, holds: 2 MiB piece `piece` of the weight bytes of a layer
group of an invocation (R160, R161, R178). -/
structure WeightBuf where
  serial : Nat
  lg     : Nat
  piece  : Nat
  deriving DecidableEq, Repr

/-- An invocation queued or resident on its span's tiles (R175 to R177). -/
structure Invocation where
  slot      : Nat
  partition : Nat
  cast      : Bool
  spanMask  : Nat
  rows      : List InvRow
  resident  : Bool := false
  /-- Next layer group to start. -/
  lg        : Nat := 0
  /-- ct at which the running layer group started, none between layer groups. -/
  running   : Option Nat := none
  /-- Arbitration key: deadline, priority and session ID of the first session (R72, R177). -/
  key       : Nat × Nat × Nat
  /-- A pace stall at the present layer group has been counted. -/
  stalled   : Bool := false
  rounds    : Nat := 1
  ctDispatch : Nat := 0
  /-- Its context slots: the per-tile constants, each row's input tokens, and what the layer groups have written (R176). -/
  consts    : Bytes := []
  inputs    : List (Nat × List Nat) := []
  ctx       : List CtxCell := []
  /-- Keys of the page frames that the running layer group reads (R213). -/
  reads     : List Nat := []
  /-- Tier and address of each weight object it reads (R187). -/
  objs      : List (Nat × Nat) := []
  deriving DecidableEq, Repr

/-- The tensor tiles and model slots (05, 06). -/
structure Tiles where
  models    : Tab ModelSlot := []
  invs      : Tab Invocation := []
  attRounds : Nat := 8
  /-- ct of the last INT_SATURATED and ATTN_NAN events, and the counts since. -/
  intSatCt  : Option Nat := none
  intSatNew : Nat := 0
  attNanCt  : Option Nat := none
  attNanNew : Nat := 0
  /-- The first row that R206 made NaN since that event: partition, session, layer, query head and position (R216). -/
  attNanAt  : Option (Nat × Nat × List Nat) := none
  /-- The weight stream's two halves of the tiles of a granule, which run together, by granule; their plate regions' look-ahead
  weights; and the score plates of each span, by invocation (R160, R161, R178). -/
  stream    : Tab (List WeightBuf) := []
  ahead     : Tab WeightBuf := []
  plates    : Tab Plate := []
  /-- A batch being filled: model slot, partition, mode and ct of its first session's readiness (R74). -/
  filling   : Option (Nat × Nat × Bool × Nat) := none
  deriving DecidableEq, Repr

end Sys2Proof.Machine
end

