-- ==== Sys2Proof/Machine/Units/Network.lean ====
section
/-! DEFINITION. Ethernet ports, queue pairs, regions, chains, composed memory and NVMe-oF (12). -/

namespace Sys2Proof.Machine

/-- An Ethernet port (R346, R376). -/
structure Port where
  mode   : Nat := 0
  pfc    : Nat := 0
  gxPrio : Nat := 0
  /-- Sub-interfaces whose link is up, as a mask. -/
  linkUp : Nat := 0
  deriving DecidableEq, Repr

/-- Queue-pair states other than RESET (R352). -/
inductive QpState where
  | rts | draining | error
  deriving DecidableEq, Repr

/-- A packet sent and not yet acknowledged (R353). -/
structure TxPkt where
  pkt     : Pkt
  /-- Its payload before it was sealed (R355). -/
  clear   : Bytes := []
  ctFirst : Nat
  ctLast  : Nat
  path    : Nat
  /-- ct at which a retry NAK's backoff ends, none without one (R361). -/
  resend  : Option Nat := none
  /-- The receiver has reported it in a selective bitmap. -/
  sacked  : Bool := false
  deriving DecidableEq, Repr

/-- A message being received (R358, R359). -/
structure RxMsg where
  placed  : Nat := 0
  /-- Region offset of message byte 0. -/
  off     : Nat := 0
  sealPkt : Option Pkt := none
  /-- The seal takes a seal buffer. -/
  held    : Bool := false
  ctSeal  : Nat := 0
  failed  : Bool := false
  applied : Bool := false
  deriving DecidableEq, Repr

/-- What a message that this chip sends belongs to. -/
inductive TxOwner where
  | post (fop : Nat)          -- a NET_POST operation, by its Bench operation or mailbox key
  | chain (idx : Nat)
  | export_ (fop : Nat)       -- an Ethernet export (R369)
  | stream (ring : Nat)       -- a remote stream ring's record (R284)
  | retired (session : Nat)   -- EXPORT_RETIRED
  | pull (desc : Nat)         -- a composed-range request of a descriptor
  | cons (ring : Nat)         -- a read of a remote ring's consumed count
  | ringZero (ring : Nat)     -- the zero written to a remote ring's produced word (R284)
  deriving DecidableEq, Repr

/-- A message or read in flight on a queue pair. -/
structure TxMsg where
  owner   : TxOwner
  lastPsn : Nat
  /-- GX read: bytes asked for and received so far. -/
  want    : Nat := 0
  got     : Nat := 0
  /-- Region key that a NET_POST read's bytes go to. -/
  lkey    : Nat := 0
  /-- Map epoch at issue, and the range, for composed requests (R371). -/
  epoch   : Nat := 0
  range   : Nat := 0xFFFF
  retried : Bool := false
  ctIssue : Nat := 0
  /-- Offset in the range, or in the region that a read's bytes go to, and the bytes written (R373). -/
  roff    : Nat := 0
  body    : Bytes := []
  data    : List Host.Cell := []
  done    : Bool := false
  /-- The status with which it has failed, 0 while it has not. -/
  failed  : Nat := 0
  deriving DecidableEq, Repr

/-- A queue pair not in RESET (R351 to R353, R363). -/
structure Qp where
  state     : QpState := .rts
  gx        : Bool
  partition : Nat
  paths     : Nat := 1
  ifMask    : Nat := 0
  peerQpn   : Nat := 0
  sqPsn     : Nat := 0
  cumPsn    : Nat := 0
  /-- PSNs received above the cumulative one. -/
  rcvd      : List Nat := []
  mtu       : Nat := 4096
  sport     : Nat := 0
  peerAddr  : Bytes := []
  peerMac   : Bytes := []
  keyId     : Nat := 0xFFFFFFFF
  txSalt    : Nat := 0
  rxSalt    : Nat := 0
  msgNext   : Nat := 1
  ackTo     : Nat := 100000
  retryLim  : Nat := 7
  timeouts  : Nat := 0
  nextPath  : Nat := 0
  /-- Consecutive timeouts of each path and the ct until which it is skipped. -/
  pathTo    : Tab Nat := []
  pathSkip  : Tab Nat := []
  tx        : Tab TxPkt := []
  msgs      : Tab TxMsg := []
  rx        : Tab RxMsg := []
  /-- Oldest message whose seal is neither applied nor failed. -/
  rxNext    : Nat := 1
  ackDue    : Bool := false
  ctAck     : Option Nat := none
  /-- Rate in Mb/s (R363). -/
  rate      : Nat := 0
  ctDec     : Option Nat := none
  ctInc     : Nat := 0
  ctCnp     : Option Nat := none
  drainOp   : Nat := 0
  drainDue  : Nat := 0
  /-- Packets that wait in staging for a page to become resident, oldest first, and the ct at which the stall began (R362). -/
  stalled   : List Pkt := []
  ctStall   : Nat := 0
  /-- RC write being received: region key, next region offset and bytes still to come (R348). -/
  rcWrite   : Option (Nat × Nat × Nat) := none
  /-- RC: a sequence NAK has been sent and the expected packet has not come. -/
  nakSent   : Bool := false
  sealTo    : Nat := 10000000
  /-- `seal_backoff` in µs (R359). -/
  sealBackoff : Nat := 20
  deriving DecidableEq, Repr

/-- RSTATE of a region (R356). -/
inductive RState where
  | valid | quarantine
  deriving DecidableEq, Repr

/-- A region entry (R356). -/
structure Region where
  rstate    : RState := .valid
  partition : Nat
  backing   : Nat
  write     : Bool
  read      : Bool
  gen       : Nat
  scope     : Nat
  length    : Nat
  base      : Nat
  ctDereg   : Nat := 0
  deriving DecidableEq, Repr

/-- States of a chain that is not FREE (R366). -/
inductive CState where
  | posted | armed | held | firing
  deriving DecidableEq, Repr

/-- An armed chain (R364, R365). -/
structure Chain where
  cstate    : CState := .posted
  gen       : Nat := 0
  partition : Nat
  tag       : Nat
  qp        : Nat
  landing   : Nat
  wrs       : List Bytes := []
  template  : Bytes := []
  admission : Bool := false
  session   : Nat := 0
  /-- Where in the landing region the message whose seal fired or held it landed, and its bytes. -/
  landOff   : Nat := 0
  landed    : Nat := 0
  /-- Next work request to run while FIRING. -/
  next      : Nat := 0
  /-- The landed bytes of a firing that a twin pair's primary has mirrored (R395). -/
  twin      : Option Bytes := none
  deriving DecidableEq, Repr

/-- A composed-range entry (R370). -/
structure Range where
  switching : Bool := false
  partition : Nat
  epoch     : Nat
  length    : Nat
  conn      : Nat
  key       : Nat
  offset    : Nat
  oldConn   : Nat := 0
  oldKey    : Nat := 0
  oldOffset : Nat := 0
  rgen      : Nat := 0
  replica   : Nat := 0xFFFF
  deriving DecidableEq, Repr

/-- A map update or swap in progress (R371, R374). -/
structure MapOp where
  op        : Nat
  partition : Nat
  swap      : Bool
  phase     : Nat
  ranges    : List Nat := []
  changes   : List Bytes := []
  /-- ct at which a swap is given up. -/
  due       : Nat := 0
  /-- Epoch that an update has published. -/
  epoch     : Nat := 0
  deriving DecidableEq, Repr

/-- Congestion-control parameters of a partition, times in µs and rates in Mb/s (R363). -/
structure CcParams where
  cnpInterval : Nat := 50
  mdShift     : Nat := 1
  mdHold      : Nat := 50
  aiPeriod    : Nat := 50
  aiStep      : Nat := 1000
  rateMin     : Nat := 100
  rateInit    : Nat := 0
  deriving DecidableEq, Repr

/-- The PTP ports (R349). -/
structure Ptp where
  ifMask    : Nat := 0
  profile   : Nat := 0
  transport : Nat := 0
  domain    : Nat := 0
  /-- Interface in the time-receiver state. -/
  selected  : Option Nat := none
  /-- Time transmitters heard, by interface: BMCA rank, announce interval in ns and ct of the last Announce. -/
  heard     : Tab (Nat × Nat × Nat) := []
  deriving DecidableEq, Repr

/-- Why an NVMe-oF command was issued. -/
inductive NvOwner where
  | cut (group : Nat)
  | restore (op : Nat)
  | recover (fop : Nat)
  | connect (op : Nat)
  deriving DecidableEq, Repr

/-- An NVMe-oF command outstanding (R350). -/
structure NvCmd where
  controller : Nat
  owner      : NvOwner
  /-- Shard whose write this is, 0xFFFFFFFF for others. -/
  shard      : Nat := 0xFFFFFFFF
  flush      : Bool := false
  deriving DecidableEq, Repr

/-- An NVMe-oF controller (R350). -/
structure NvCtrl where
  handle     : Nat
  subnqn     : Bytes := []
  hostnqn    : Bytes := []
  ioQueues   : Nat := 1
  depth      : Nat := 16
  connected  : Bool := false
  op         : Nat := 0
  /-- Namespaces and their LBA sizes. -/
  namespaces : Tab Nat := []
  deriving DecidableEq, Repr

/-- The network engines (12). -/
structure Net where
  ports     : Tab Port := []
  qps       : Tab Qp := []
  /-- Handle generations that are not 0. -/
  qpGens    : Tab Nat := []
  regions   : Tab Region := []
  regGens   : Tab Nat := []
  chains    : Tab Chain := []
  chainGens : Tab Nat := []
  ranges    : Tab Range := []
  /-- Range generations of FREE ranges that are not 0. -/
  rgens     : Tab Nat := []
  /-- Map epochs that are not 1. -/
  epochs    : Tab Nat := []
  mapOps    : Tab MapOp := []
  cc        : Tab CcParams := []
  ptp       : Ptp := {}
  ctrls     : Tab NvCtrl := []
  cmds      : Tab NvCmd := []
  nextCmd   : Nat := 1
  staging   : Nat := 0
  staleCt   : Option Nat := none
  staleNew  : Nat := 0
  /-- `busy_backoff` in µs (R361) and `swap_hold` in ns (R374); no command sets them. -/
  busyBackoff : Nat := 1000
  swapHold  : Nat := 10000000000
  deriving DecidableEq, Repr

end Sys2Proof.Machine
end

