-- ==== Sys2Proof/Machine/Units/Power.lean ====
section
/-! DEFINITION. Power groups, the protection trip, cluster time, settings and lifetime data (16). -/

namespace Sys2Proof.Machine

/-- A transition of one power group (R467, R468). -/
structure Trans where
  /-- Target state of R463, none for a change of point alone. -/
  state : Option Nat
  perf  : Option Nat
  /-- Bench operation of its PWR_SET. -/
  op    : Nat
  /-- Phase of R467, 1 HELD to 5 SWITCH. -/
  phase : Nat := 1
  /-- An enable that was held behind a shut-down (R468). -/
  behind : Bool := false
  deriving DecidableEq, Repr

/-- A power group (R462, R463, R486). -/
structure Group where
  state   : Nat := 3
  perf    : Nat := 0
  restore : Nat := 0
  run     : Option Trans := none
  held    : List Trans := []
  /-- The port's configuration saved by SAVE (R467). -/
  savedPort : Option Port := none
  /-- POWER_WAIT has been logged in the present episode (R465). -/
  waiting : Bool := false
  deriving DecidableEq, Repr

/-- A BAR2 access that waits for the group of its memory (R17, R465): what it reaches, and its bytes if it is a write. -/
structure BarWait where
  fn        : Nat
  partition : Nat
  tier      : Nat
  off       : Nat
  len       : Nat
  data      : Option Bytes := none
  deriving DecidableEq, Repr

/-- The power unit (16). -/
structure Power where
  groups   : Tab Group := []
  tripped  : Bool := false
  cause    : Nat := 0
  /-- Commands that wait for a fixed engine to be ACTIVE, oldest first (R465). -/
  waitCmds : List Req := []
  /-- BAR2 accesses that wait for a group to be ACTIVE, oldest first (R465). -/
  waitBar  : List BarWait := []
  /-- Last readings of each sensor, newest first, in 1/16 °C (R470). -/
  readings : Tab (List Int) := []
  amps     : Nat := 0
  /-- ct since which the current has been above the limit. -/
  ctAbove  : Option Nat := none
  tripTemp : Nat := 110
  limit    : Nat := 2400
  deriving DecidableEq, Repr

/-- TSTATE (R475). -/
inductive TimeState where
  | freeRun | locked | holdover | lost
  deriving DecidableEq, Repr

/-- Cluster time (R472 to R478, R487). -/
structure Clock where
  tstate    : TimeState := .freeRun
  source    : Nat := 0
  offset    : Int := 0
  u         : Nat := 0xFFFFFFFFFFFFFFFF
  u0        : Nat := 0
  ctHold    : Nat := 0
  /-- The refused offset and the ct of its measurement (R474). -/
  pending   : Option (Int × Nat) := none
  rate      : Int := 0
  tsrc      : Nat := 0
  period    : Nat := 1000000
  cadOffset : Int := 0
  oscPpb    : Nat := 2000
  budget    : Nat := 1000000
  cadLocked : Bool := false
  /-- Candidate edge's ct and the further edges that have fallen in its windows (R473). -/
  candidate : Option (Nat × Nat) := none
  /-- ct of the last accepted cadence edge. -/
  cadLast   : Nat := 0
  /-- An edge has been ignored since the last accepted one. -/
  cadNoise  : Bool := false
  cadTheta  : Int := 0
  /-- ct of the last accepted Sync, and the Sync interval in ns (R474). -/
  ptpLast   : Option Nat := none
  ptpEvery  : Nat := 0
  ptpTheta  : Int := 0
  /-- Consecutive Syncs whose offset differs from the cadence's by more than 10 µs (R472). -/
  skewRun   : Nat := 0
  /-- ct of the last CT_STEP_REFUSED event. -/
  refusedCt : Option Nat := none
  leap      : List (Nat × Int) := []
  expires   : Nat := 0
  leapStale : Bool := false
  deriving DecidableEq, Repr

/-- The lifetime record (R483). -/
structure LifeRec where
  seq       : Nat := 0
  ct        : Nat := 0
  powerOnS  : Nat := 0
  cycles    : Nat := 0
  resets    : Nat := 0
  thermal   : Nat := 0
  overCurrent : Nat := 0
  tempBand  : List Nat := [0, 0, 0, 0, 0, 0, 0, 0]
  /-- Seconds ACTIVE of cluster g at point p, at key 4 * g + p. -/
  clusterS  : Tab Nat := []
  hbmCe     : List Nat := [0, 0, 0, 0, 0, 0, 0, 0]
  sessCeil  : Nat := 0x1000000
  cutCeil   : Nat := 0x1000000
  repCeil   : Nat := 0x1000000
  deriving DecidableEq, Repr

/-- The retention domain, OTP settings and lifetime journal (R479 to R484). -/
structure Aon where
  /-- The retention domain has kept its contents. -/
  valid     : Bool := false
  /-- The RTC's ticks when the crystal last started or the RTC was last set, and ct then. -/
  rtc       : Nat := 0
  rtcCt     : Nat := 0
  /-- The retention settings image, by bytes. -/
  settings  : Option Bytes := none
  /-- OTP settings generations that have been programmed. -/
  otp       : Tab Bytes := []
  /-- Source in use: 0 retention, 1 OTP, 2 ROM, and the OTP generation used (R481). -/
  src       : Nat := 2
  genUsed   : Nat := 0
  /-- OTP generations whose readback differed: they are programmed and not valid (R482). -/
  otpBad    : List Nat := []
  life      : LifeRec := {}
  mirror    : Option LifeRec := none
  /-- Newest record in the journal region. -/
  flash     : Option LifeRec := none
  /-- Next record slot of the journal, 0 to 4,095, and the retired sectors. -/
  nextSlot  : Nat := 0
  retired   : List Nat := []
  jSeq      : Nat := 0
  jCt       : Nat := 0
  reportSeq : Nat := 1
  resetCause : Nat := 0
  railFault : Nat := 0
  /-- Serial counters of R55 and R408 as the retention domain holds them. -/
  sessSerial : Nat := 1
  cutSerial : Nat := 1
  deriving DecidableEq, Repr

end Sys2Proof.Machine
end

