-- ==== Sys2Proof/Machine/Units/Search.lean ====
section
/-! DEFINITION. Touchstone and the Gather unit (11). -/

namespace Sys2Proof.Machine

/-- Slot states of an item (R323). -/
inductive ItemState where
  | inserting | live | tombstone
  deriving DecidableEq, Repr

/-- A graph edge (R320). -/
structure Edge where
  slot : Nat
  gen  : Nat
  dist : Nat
  deriving DecidableEq, Repr

/-- An item in a slot that is neither FREE nor RETIRED (R319). -/
structure Item where
  code   : Nat
  label  : Nat
  ins    : Nat := 0xFFFFFFFFFFFFFFFF
  del    : Nat := 0xFFFFFFFFFFFFFFFF
  sstate : ItemState := .inserting
  /-- IVF: list number. -/
  list   : Nat := 0
  edges  : List Edge := []
  deriving DecidableEq, Repr

/-- A result entry of a query (R345). -/
structure Hit where
  label : Nat
  slot  : Nat
  dist  : Nat
  chip  : Nat
  deriving DecidableEq, Repr

/-- An index shard on this chip (R317 to R321). -/
structure Index where
  partition : Nat
  kind      : Nat
  tier      : Nat
  shardMask : Nat
  bits      : Nat
  degree    : Nat
  build     : Nat
  lists     : Nat
  capacity  : Nat
  timeout   : Nat
  centroids : List Nat := []
  items     : Tab Item := []
  /-- Slot generations that are not 1. -/
  gens      : Tab Nat := []
  floor     : Nat := 0
  entry     : Option Nat := none
  /-- Operation of TCH_INDEX_DROP, once it has refused new work. -/
  dropping  : Option Nat := none
  /-- Slots visited by the last sweep that the Bench started itself (R329). -/
  repairPos : Nat := 0
  /-- A reclaim has left a dangling edge. -/
  dangling  : Bool := false
  /-- Where its codes, item records and edges lie, one after another: addresses of its tier and lengths (R318, R319). -/
  extents   : List (Nat × Nat) := []
  deriving DecidableEq, Repr

/-- A query that holds a context (R326, R333). -/
structure Query where
  index    : Nat
  req      : Req
  op       : Nat := 0
  snapshot : Nat
  topK     : Nat
  /-- Chips of the shards that have not answered, and of those that are left out. -/
  waiting  : List Nat := []
  missing  : List Nat := []
  due      : Nat := 0
  /-- The hits of the query, or of each query of a bulk batch. -/
  hits     : List (List Hit) := []
  isBulk   : Bool := false
  /-- It takes over 1 ms, whatever it waits for, and ends at its LONG_OP_END. -/
  held     : Bool := false
  deriving DecidableEq, Repr

/-- An insert that runs over 1 ms, under its operation's number: the slot of its first item, INSERTING, and the labels and codes of the
items that follow (R323). -/
structure InsertJob where
  index : Nat
  slot  : Nat
  rest  : List (Nat × Nat) := []
  deriving DecidableEq, Repr

/-- Touchstone (11). -/
structure Touchstone where
  indexes : Tab Index := []
  queries : Tab Query := []
  inserts : Tab InsertJob := []
  nextQ   : Nat := 1
  lateCt  : Option Nat := none
  deriving DecidableEq, Repr

/-- States of a table version that is not FREE (R336). -/
inductive VState where
  | loading | current | superseded
  deriving DecidableEq, Repr

/-- One version of a table. -/
structure GVersion where
  vstate : VState := .loading
  bind   : Nat := 0
  rows   : List Bytes := []
  /-- Where its rows lie (R335). -/
  extents : List (Nat × Nat) := []
  deriving DecidableEq, Repr

/-- A Gather table (R335). -/
structure GTable where
  partition : Nat
  format    : Nat
  tier      : Nat
  rowBytes  : Nat
  rows      : Nat
  versions  : Tab GVersion := []
  hot       : List Nat := []
  dropping  : Option Nat := none
  deriving DecidableEq, Repr

/-- A batch that runs over 1 ms, under its operation's number: the version that it binds, its input and the hot set as they were at its
start (R336, R337). -/
structure GBatch where
  table   : Nat
  version : Nat
  data    : Bytes := []
  hot     : List Nat := []
  deriving DecidableEq, Repr

/-- The Gather unit (11). -/
structure Gather where
  tables  : Tab GTable := []
  batches : Tab GBatch := []
  deriving DecidableEq, Repr

end Sys2Proof.Machine
end

