-- ==== Sys2Proof/Machine/Units/Security.lean ====
section
/-! DEFINITION. The Hallmark: partitions, keys, attestation and confidential interfaces (15). -/

namespace Sys2Proof.Machine

/-- PSTATE of a partition (R444). -/
inductive PState where
  | off | active | teardown
  deriving DecidableEq, Repr

/-- State of a partition's trusted device interface (R452, R458). -/
inductive Tdi where
  | none | unlocked | locked | run | error
  deriving DecidableEq, Repr

/-- One of a partition's 64 network key slots (R448). -/
structure KeySlot where
  /-- Generation of the last load, 0 before the first. -/
  gen : Nat := 0
  key : Option Bytes := none
  deriving DecidableEq, Repr

/-- A tenant partition (R442 to R454). -/
structure Partition where
  pstate       : PState := .off
  tdi          : Tdi := .none
  confidential : Bool := false
  signedImages : Bool := false
  tileMask     : Nat := 0
  hbmMask      : Nat := 0
  lpddrMask    : Nat := 0
  /-- Way masks in the order of R443. -/
  ways         : List Nat := [0, 0, 0, 0, 0, 0]
  imageKeyHash : Bytes := []
  kek          : Option Bytes := none
  xtsKey       : Option Bytes := none
  /-- The tree key of R143. -/
  treeKey      : Bytes := []
  keys         : Tab KeySlot := []
  /-- A TDISP stop began the teardown: the partition is re-created at its end (R452). -/
  recreate     : Bool := false
  /-- Bench operation and phase of the teardown (R454), 0 when none. -/
  tdOp         : Nat := 0
  tdPhase      : Nat := 0
  tdBytes      : Nat := 0
  /-- Granules removed by a change and not yet scrubbed: tile, HBM and LPDDR6 masks (R445). -/
  scrubbing    : List Nat := [0, 0, 0]
  /-- Measurement block 5 as fixed by the lock (R452). -/
  block5       : Option Bytes := none
  deriving DecidableEq, Repr

/-- An SPDM secure session (R439). -/
structure SpdmSession where
  /-- Requester: 0 PF0's DOE, v the DOE of VF v, 17 MCTP. -/
  via       : Nat
  /-- FINISH has been accepted. -/
  secured   : Bool := false
  /-- ct of the last HEARTBEAT or of the session's start. -/
  ctBeat    : Nat := 0
  /-- Key updates in each direction. -/
  reqKeys   : Nat := 0
  rspKeys   : Nat := 0
  deriving DecidableEq, Repr

/-- What an SPDM requester has negotiated outside a session (R439): 0 nothing, 1 version, 2 capabilities, 3 algorithms. -/
structure SpdmConn where
  stage : Nat := 0
  deriving DecidableEq, Repr

/-- An IDE stream (R451): 0 the link stream, 1 to 16 the selective streams. -/
structure IdeStream where
  /-- Function that the stream is bound to. -/
  fn     : Nat
  /-- Keys programmed per sub-stream and direction, as a mask, and the mask in use. -/
  keyed  : Nat := 0
  going  : Nat := 0
  secure : Bool := false
  deriving DecidableEq, Repr

/-- The Hallmark (15). -/
structure Hallmark where
  parts     : Tab Partition := []
  /-- Anti-rollback counter (R436) and revocation bits (R434), in OTP. -/
  counter   : Nat := 0
  revoked   : Nat := 0
  /-- Security version, slot, PRODUCTION and image of the running release (R435). -/
  svn       : Nat := 0
  slot      : Nat := 0
  production : Bool := false
  dualSigned : Bool := false
  chavy     : Bytes := []
  scrubBytes : Nat := 0
  sessions  : Tab SpdmSession := []
  conns     : Tab SpdmConn := []
  ide       : Tab IdeStream := []
  deriving DecidableEq, Repr

end Sys2Proof.Machine
end

