-- ==== Sys2Proof/Machine/Units/Text.lean ====
section
/-! DEFINITION. Table-set generations, the Shear's lanes, and the once-per-interval event latches of text and sampling (07, 08). -/

namespace Sys2Proof.Machine

/-- GSTATE of a generation (R222, R242). -/
inductive GState where
  | empty | loading | resident | retiring
  deriving DecidableEq, Repr

/-- A table-set generation that is not EMPTY (R218, R219). -/
structure TableSet where
  gstate    : GState := .loading
  partition : Nat := 0
  family    : Nat := 0
  digest    : Bytes := []
  vocab     : Nat := 0
  image     : Bytes := []
  hbmBytes  : Nat := 0
  addr      : Nat := 0
  bind      : Nat := 0
  /-- Bind count at entry to RETIRING (R223). -/
  bindAt    : Nat := 0
  /-- Bench operation of the load or the retirement. -/
  op        : Nat := 0
  deriving DecidableEq, Repr

/-- An append that waits for or holds a lane (R234). -/
structure LaneJob where
  session   : Nat
  partition : Nat
  req       : Req
  /-- Bench operation of the append. -/
  op        : Nat := 0
  deriving DecidableEq, Repr

/-- The text path (07). -/
structure Text where
  gens     : Tab TableSet := []
  /-- Busy lanes 0 to 15. -/
  lanes    : Tab LaneJob := []
  /-- Appends waiting for a lane, oldest first. -/
  waiting  : List LaneJob := []
  replCt   : Option Nat := none
  replNew  : Nat := 0
  replSess : Nat := 0
  nanCt    : Option Nat := none
  nanNew   : Nat := 0
  deriving DecidableEq, Repr

end Sys2Proof.Machine
end

