-- ==== Sys2Proof/Machine/State.lean ====
section
/-! DEFINITION. The whole state of one AS760, unit by unit, the reasons a step may stop, and the state after reset. -/

namespace Sys2Proof.Machine

/-- Why the machine stops with a fault. -/
inductive Fault where
  /-- Raised by no meaning: the manual gives every command an effect on State (safe). -/
  | unreachable
  deriving DecidableEq, Repr

/-- Why a command has no meaning in the model. -/
inductive Refusal where
  /-- Raised by an arm of exec whose command has no meaning yet (safe). -/
  | notModelled (mnemonic : String)
  deriving DecidableEq, Repr

/-- The grade of the part (R1, 00). -/
inductive Grade where
  | as760 | as744
  deriving DecidableEq, Repr

/-- A sparse byte memory: strictly rising addresses, none with the byte 0 that an unlisted address reads as (log entry 6). -/
abbrev Mem := List Host.Cell

/-- The canonical form of a memory. -/
abbrev Memory.wf (m : Mem) : Prop := m.Pairwise (fun a b => a.1 < b.1) ∧ ∀ c ∈ m, c.2 ≠ 0

/-- What leaves the device by a path that the model does not hold as state (log entry 3). -/
inductive Output where
  /-- An MSI-X message (R32). -/
  | msix (fn vector addr data : Nat)
  /-- Bytes answered to a BAR2 read (R17). -/
  | bar2 (fn : Nat) (data : Bytes)
  /-- A register value answered to a read (R487). -/
  | register (fn value : Nat)
  /-- A request of a function is answered with Unsupported Request or Completer Abort (R452, R503). -/
  | refused (fn : Nat) (abort : Bool)
  /-- An MCTP response: the header with its completion fields, status, result_len, op_handle, detail and ct_done, and the result
  (R53). -/
  | mctp (hdr : Header) (status resultLen handle detail ctDone : Nat) (result : Bytes)
  /-- An SPDM, DOE, IDE_KM or TDISP response on a path: 0 PF0's DOE, v VF v's DOE, 17 MCTP (R439). -/
  | spdm (via code : Nat) (body : Bytes)
  /-- A GX or RC packet, or an acknowledgement, and where it goes (R354, R361). -/
  | packet (p : Pkt) (route : Route)
  /-- A CNP for a queue pair (R363). -/
  | cnp (qp : Nat)
  /-- A flit or message of a link's virtual channel, with a code of the model's, a tag and values or bytes (R383). -/
  | swilan (link vc code tag : Nat) (values : List Nat) (data : Bytes)
  /-- A host's COPY descriptor has ended: its tag, its status and its CRC (R95; DESIGN CHOICE, log entry 35). -/
  | descDone (tag status crc : Nat)
  /-- An NVMe-oF command: its number, controller, namespace, kind (0 read, 1 write, 2 Flush, 3 Connect with Identify), first block,
  blocks and data (R350; log entry 30). -/
  | nvme (cmd ctrl nsid : Nat) (kind : Nat) (lba count : Nat) (data : Bytes)
  deriving DecidableEq, Repr

/-- The state of the machine. Each field but the first four and the last belongs to the unit that its docstring names. -/
structure State where
  /-- Cluster time in ns (R8). -/
  ct      : Nat := 0
  /-- The model's own: how many free values have been taken (log entry 8). -/
  free    : Nat := 0
  /-- The model's own: what has left the device, oldest first (log entry 3). -/
  out     : List Output := []
  /-- Grade of the part (R1). -/
  grade   : Grade := .as760
  /-- Counters of the mirrors. -/
  ctr     : List ((Ctr × Nat) × Nat) := []
  /-- The host's memory as the device sees it over PCIe, and the ranges whose accesses fail: base, length, error kind. -/
  hostMem : Mem := []
  hostFaults : List (Nat × Nat × Nat) := []
  /-- Device memory: tier 0 to 2 at key tier * 2^60 + byte address (R16, R160). -/
  devMem  : Mem := []
  bench   : Bench := {}
  pln     : Plinth := {}
  fdy     : Foundry := {}
  frames  : Frames := {}
  /-- Pattern trees by partition. -/
  trees   : Tab Tree := []
  tile    : Tiles := {}
  txt     : Text := {}
  pla     : Planisher := {}
  gau     : Gauge := {}
  tly     : Tally := {}
  tch     : Touchstone := {}
  gth     : Gather := {}
  net     : Net := {}
  swl     : Swilan := {}
  twn     : Twin := {}
  mld     : Mould := {}
  /-- Check units 0 to 7 (R423). -/
  chk     : Tab CheckUnit := []
  hmk     : Hallmark := {}
  pwr     : Power := {}
  clk     : Clock := {}
  aon     : Aon := {}
  err     : Errors := {}
  elec    : Elec := {}
  /-- Commands waiting, the first to run first. -/
  pending : List Instr := []
  deriving DecidableEq, Repr

/-- The machine just after PERST_N's deassertion that ends a power-on reset (R491, R495, 17): booting, in phase 0x01, no
partition, no session, nothing in memory (log entry 5). -/
def State.reset : State := {}

end Sys2Proof.Machine
end

