-- ==== Sys2Proof/Machine/Base.lean ====
section
/-! DEFINITION. Tables, bytes, memories and free choices: the plain operations that every unit shares. -/

namespace Sys2Proof.Machine

/-! ### Sparse tables -/

/-- The entry at key `k`. -/
def tget {α : Type} : Tab α → Nat → Option α
  | [], _ => none
  | (j, a) :: t, k => if j = k then some a else tget t k

/-- The entry at key `k`, or a default. -/
def tgetD {α : Type} (t : Tab α) (k : Nat) (d : α) : α := (tget t k).getD d

/-- Sets the entry at key `k`, keeping the keys in rising order. -/
def tset {α : Type} : Tab α → Nat → α → Tab α
  | [], k, a => [(k, a)]
  | (j, b) :: t, k, a =>
    if k < j then (k, a) :: (j, b) :: t
    else if k = j then (k, a) :: t
    else (j, b) :: tset t k a

/-- Removes the entry at key `k`. -/
def tdel {α : Type} (t : Tab α) (k : Nat) : Tab α := t.filter (fun e => e.1 ≠ k)

/-- Changes the entry at key `k`, if there is one. -/
def tmod {α : Type} (t : Tab α) (k : Nat) (f : α → α) : Tab α :=
  t.map (fun e => if e.1 = k then (e.1, f e.2) else e)

/-- Whether key `k` has an entry. -/
def thas {α : Type} (t : Tab α) (k : Nat) : Bool := (tget t k).isSome

/-- The keys, rising. -/
def tkeys {α : Type} (t : Tab α) : List Nat := t.map Prod.fst

/-- The keys of the entries that satisfy `p`. -/
def tfind {α : Type} (t : Tab α) (p : α → Bool) : List Nat := (t.filter (fun e => p e.2)).map Prod.fst

/-- The numbers below `n` that are no key of `t`, rising. -/
def freeKeys {α : Type} (t : Tab α) (n : Nat) : List Nat := (List.range n).filter (fun k => !thas t k)

/-- Takes the first `n` elements of a list, filled up with `d`. -/
def takeD {α : Type} (n : Nat) (d : α) (l : List α) : List α := (List.range n).map (fun i => l.getD i d)

/-- Sets element `i` of a list. -/
def lset {α : Type} (l : List α) (i : Nat) (a : α) : List α := l.set i a

/-! ### Sorting -/

/-- Merges two sorted lists, `fuel` their length together. -/
def mergeTwo {α : Type} (before : α → α → Bool) : Nat → List α → List α → List α
  | 0, xs, ys => xs ++ ys
  | _ + 1, [], ys => ys
  | _ + 1, x :: xs, [] => x :: xs
  | fuel + 1, x :: xs, y :: ys =>
    if before x y then x :: mergeTwo before fuel xs (y :: ys) else y :: mergeTwo before fuel (x :: xs) ys

/-- Merges sorted lists two by two. -/
def mergePairs {α : Type} (before : α → α → Bool) : List (List α) → List (List α)
  | a :: b :: t => mergeTwo before (a.length + b.length) a b :: mergePairs before t
  | l => l

/-- Merges sorted lists into one, in at most `fuel` passes. -/
def mergeAll {α : Type} (before : α → α → Bool) : Nat → List (List α) → List α
  | 0, l => l.flatten
  | fuel + 1, l => if l.length ≤ 1 then l.flatten else mergeAll before fuel (mergePairs before l)

/-- Sorts a list; elements that the order does not tell apart keep their order. -/
def sortBy {α : Type} (before : α → α → Bool) (l : List α) : List α := mergeAll before l.length (l.map (fun a => [a]))

/-! ### The device's open choices (log entry 2) -/

/-- The `k`-th allocation of an event takes one of the free resources `free`, in ascending order. -/
def pick (m : Moment) (k : Nat) (free : List Nat) : Option Nat :=
  free[m.choice.getD k 0 % free.length]?

/-- The first number at or after `c`, cyclically below `n`, that is not in use. -/
def freeFrom (used : Nat → Bool) (n : Nat) : Nat → Nat → Option Nat
  | 0, _ => none
  | k + 1, c => if used c then freeFrom used n k ((c + 1) % n) else some c

/-- The `k`-th allocation of a number below `n` that is no key of `t`: the first free one at or after `choice[k]`. -/
def pickIdx {α : Type} (m : Moment) (k : Nat) (t : Tab α) (n : Nat) : Option Nat :=
  if n = 0 then none else freeFrom (fun i => thas t i) n (t.length + 1) (m.choice.getD k 0 % n)

/-! ### Numbers and bytes -/

/-- `v` as `n` little-endian bytes (R6, 00). -/
def le : Nat → Nat → Bytes
  | 0, _ => []
  | n + 1, v => BitVec.ofNat 8 v :: le n (v / 256)

/-- The number that little-endian bytes spell. -/
def leVal : Bytes → Nat
  | [] => 0
  | b :: t => b.toNat + 256 * leVal t

def u8 (v : Nat) : Bytes := le 1 v
def u16 (v : Nat) : Bytes := le 2 v
def u32 (v : Nat) : Bytes := le 4 v
def u64 (v : Nat) : Bytes := le 8 v

/-- `n` zero bytes. -/
def zeros (n : Nat) : Bytes := List.replicate n 0

/-- A byte string cut or filled with zeros to `n` bytes. -/
def fit (n : Nat) (b : Bytes) : Bytes := takeD n 0 b

/-- The `n` bytes of `b` from offset `o`, zero past its end. -/
def slice (b : Bytes) (o n : Nat) : Bytes := fit n (b.drop o)

/-- The little-endian field of `n` bytes at offset `o`. -/
def field (b : Bytes) (o n : Nat) : Nat := leVal (slice b o n)

/-- Bits [hi:lo] of a number. -/
def bits (v hi lo : Nat) : Nat := v / 2 ^ lo % 2 ^ (hi - lo + 1)

/-- Bit `i` of a number. -/
def bit (v i : Nat) : Bool := v / 2 ^ i % 2 = 1

/-- A flag as a number. -/
def b2n (b : Bool) : Nat := if b then 1 else 0

/-- The number of set bits among the low `n`. -/
def popcount (n v : Nat) : Nat := ((List.range n).filter (fun i => bit v i)).length

/-- The positions of the set bits among the low `n`, rising. -/
def setBits (n v : Nat) : List Nat := (List.range n).filter (fun i => bit v i)

/-- The mask with the bits of a list set. -/
def maskOf (l : List Nat) : Nat := l.eraseDups.foldl (fun a i => a + 2 ^ i) 0

/-- A two's-complement field of `w` bits as an integer. -/
def toSigned (w v : Nat) : Int := if v < 2 ^ (w - 1) then v else (v : Int) - 2 ^ w

/-- An integer as a two's-complement field of `w` bits. -/
def ofSigned (w : Nat) (v : Int) : Nat := (v % (2 ^ w : Int)).toNat

/-- Division rounded up. -/
def ceilDiv (a b : Nat) : Nat := (a + b - 1) / b

/-- A value held at a register's maximum once it reaches it. -/
def sat (w v : Nat) : Nat := min v (2 ^ w - 1)

/-- All ones in 64, 32 and 16 bits. -/
def ones64 : Nat := 0xFFFFFFFFFFFFFFFF
def ones32 : Nat := 0xFFFFFFFF
def ones16 : Nat := 0xFFFF

/-! ### Memories -/

namespace Mem

/-- The byte at an address; 0 where nothing is listed (log entry 6). -/
def byte (m : Mem) (a : Nat) : Byte :=
  match m with
  | [] => 0
  | (x, b) :: t => if x = a then b else byte t a

/-- The `n` bytes from address `a`. -/
def read (m : Mem) (a n : Nat) : Bytes := (List.range n).map (fun i => byte m (a + i))

/-- The listed cells of bytes written at `a`: those that are not 0. -/
def cells (a : Nat) : Bytes → Mem
  | [] => []
  | b :: t => if b = 0 then cells (a + 1) t else (a, b) :: cells (a + 1) t

/-- Writes bytes at `a`. -/
def write (m : Mem) (a : Nat) (b : Bytes) : Mem :=
  m.filter (fun c => c.1 < a) ++ cells a b ++ m.filter (fun c => a + b.length ≤ c.1)

/-- Writes `n` zeros at `a`. -/
def clear (m : Mem) (a n : Nat) : Mem := m.filter (fun c => c.1 < a || a + n ≤ c.1)

end Mem

/-- Key of byte `a` of tier `t` in the device's memory. -/
def devKey (t a : Nat) : Nat := t * 2 ^ 60 + a

/-- Reads device memory. -/
def devRead (s : State) (t a n : Nat) : Bytes := Mem.read s.devMem (devKey t a) n

/-- Writes device memory. -/
def devWrite (t a : Nat) (b : Bytes) (s : State) : State :=
  { s with devMem := Mem.write s.devMem (devKey t a) b }

/-- The kind of failure of an access to host memory (R40, R50), none when it succeeds. -/
def hostErr (s : State) (a n : Nat) : Option Nat :=
  (s.hostFaults.find? (fun f => decide (a < f.1 + f.2.1) && decide (f.1 < a + n))).map (fun f => f.2.2)

/-- Reads host memory, without the check of `hostErr`. -/
def hostRead (s : State) (a n : Nat) : Bytes := Mem.read s.hostMem a n

/-- Writes host memory, without the check of `hostErr`. -/
def hostWrite (a : Nat) (b : Bytes) (s : State) : State :=
  { s with hostMem := Mem.write s.hostMem a b }

/-- The state at an event's moment: cluster time does not fall, and the host's own writes have landed (log entries 1, 4). -/
def State.at (s : State) (m : Moment) : State :=
  { s with
    ct := max s.ct m.ct
    hostMem := m.host.foldl (fun h w => Mem.write h w.1 w.2) s.hostMem
    hostFaults := m.faults.getD s.hostFaults }

/-- Adds an output. -/
def emit (o : Output) (s : State) : State := { s with out := s.out ++ [o] }

/-- A fresh free value (log entry 8). -/
def fresh (s : State) : Nat × State := (Config.freeValue s.free, { s with free := s.free + 1 })

/-- A fresh string from the DRBG (R447). -/
def draw (n : Nat) (s : State) : Bytes × State := (Config.drbg s.free n, { s with free := s.free + 1 })

/-- A meaning's answer: the next state. -/
abbrev Out := Host.Outcome State Fault Refusal

end Sys2Proof.Machine
end

