-- ==== Sys2Proof/Machine/Flags.lean ====
section
/-! DEFINITION. Counters, interrupts and events: every flag and count that an effect sets on its way (01). -/

namespace Sys2Proof.Machine

/-! ### Counters of the mirrors -/

/-- The value of a counter under one key. -/
def ctrAt (s : State) (c : Ctr) (p : Nat) : Nat := (s.ctr.lookup (c, p)).getD 0

/-- Key of the counts that belong to no partition. -/
def noPart : Nat := 16

/-- Adds to a counter of a partition. -/
def bump (c : Ctr) (p n : Nat) (s : State) : State :=
  if s.ctr.any (fun e => e.1 == (c, p)) then
    { s with ctr := s.ctr.map (fun e => if e.1 == (c, p) then (e.1, e.2 + n) else e) }
  else { s with ctr := s.ctr ++ [((c, p), n)] }

/-- Counts what a cache or its timing decides: a free number of times, at most `n` (log entry 52). -/
def bumpFree (c : Ctr) (p n : Nat) (s : State) : State :=
  if n = 0 then s else bump c p (Config.freeValue s.free % (n + 1)) { s with free := s.free + 1 }

/-- A counter as function `fn` reads it: PF0 the sum, a VF its own partition's (R51). -/
def ctrFor (s : State) (fn : Nat) (c : Ctr) : Nat :=
  if fn = 0 then ((s.ctr.filter (fun e => e.1.1 == c)).map (·.2)).sum else ctrAt s c (fn - 1)

/-! ### Functions -/

/-- What function `fn` holds for itself. -/
def fnState (s : State) (fn : Nat) : FnState := tgetD s.bench.fns fn {}

/-- Changes what a function holds for itself. -/
def setFn (fn : Nat) (f : FnState) (s : State) : State :=
  { s with bench := { s.bench with fns := tset s.bench.fns fn f } }

/-- The partition that a function serves, 0xFF for PF0 (R14). -/
def fnPart (fn : Nat) : Nat := if fn = 0 then 0xFF else fn - 1

/-- Mailboxes of a function (R21). -/
def mbxCount (fn : Nat) : Nat := if fn = 0 then 256 else 64

/-- Apertures of a function (R17). -/
def apertureCount (fn : Nat) : Nat := if fn = 0 then 64 else 16

/-- Size of a function's BAR2 (R16). -/
def bar2Size (fn : Nat) : Nat := if fn = 0 then 256 * 2 ^ 30 else 16 * 2 ^ 30

/-- Limit on a function's concurrent long operations (R34). -/
def opLimit (fn : Nat) : Nat := if fn = 0 then 1024 else 64

/-! ### Interrupts (R32) -/

/-- Sends an MSI-X message on a vector, or sets its pending bit where the host has masked it. -/
def sendMsix (fn vec : Nat) (s : State) : State :=
  if vec < 2048 then
    let f := fnState s fn
    let e := tgetD f.msix vec {}
    if e.masked then setFn fn { f with msixPend := (f.msixPend.erase vec) ++ [vec] } s
    else emit (.msix fn vec e.addr e.data) s
  else s

/-! ### The event log (R45 to R50) -/

/-- A 64-byte event record (R49). -/
def evtRecord (ct code sev phase part session source : Nat) (info : Bytes) : Bytes :=
  u64 ct ++ u16 code ++ u8 sev ++ u8 phase ++ u8 part ++ zeros 3 ++ u64 session ++ u32 source ++ zeros 4 ++ fit 32 info

/-- An event, before it is laid out for a ring. -/
structure Event where
  code    : Nat
  sev     : Nat
  part    : Nat := 0xFF
  session : Nat := 0
  source  : Nat := 0
  info    : Bytes := []
  deriving DecidableEq, Repr

/-- Records in a ring that the host has not consumed (R48). -/
def EventRing.used (r : EventRing) : Nat := (r.prod + 2 ^ 32 - r.cons) % 2 ^ 32

/-- Counts a record that a ring could not take (R48). -/
def dropEvent (fn : Nat) (s : State) : State :=
  let f := fnState s fn
  setFn fn { f with ring := { f.ring with overflow := true, dropped := f.ring.dropped + 1, untold := f.ring.untold + 1 } } s

/-- Writes one record, given its PHASE, to a ring that has room (R48, R49). -/
def putRecord (fn : Nat) (mk : Nat → Bytes) (s : State) : State :=
  let f := fnState s fn
  let r := f.ring
  let size := 2 ^ r.log2
  let phase := 1 - r.prod / size % 2
  let a := r.base + r.prod % size * 64
  if (hostErr s a 64).isSome then
    setFn fn { f with ring := { r with writeFault := true, enabled := false, dropped := r.dropped + 1 } } s
  else
    let r' := { r with prod := (r.prod + 1) % 2 ^ 32 }
    let s := setFn fn { f with ring := r' }
      (hostWrite a (mk phase) s)
    if r'.used = 1 then sendMsix fn r.vector s else s

/-- Writes an event's record to a ring that has room. -/
def putEvent (fn : Nat) (e : Event) (s : State) : State :=
  putRecord fn (fun phase => evtRecord s.ct e.code e.sev phase e.part e.session e.source e.info) s

/-- The EVT_OVERFLOW record that tells a ring of its drops, once there is room (R48). -/
def tellOverflow (fn : Nat) (s : State) : State :=
  let r := (fnState s fn).ring
  if r.enabled && decide (0 < r.untold) && decide (r.used < 2 ^ r.log2) then
    let s := putEvent fn { code := 0x0002, sev := 1, part := fnPart fn, info := u64 r.untold } s
    let f := fnState s fn
    setFn fn { f with ring := { f.ring with untold := 0 } } s
  else s

/-- Whether a ring's filters let an event in (R46). -/
def admits (r : EventRing) (e : Event) : Bool :=
  e.sev = 3 || (decide (r.minSev ≤ e.sev) && bit r.mask (e.code / 256))

/-- Offers an event to one function's ring (R46, R48). After a failed write, later events count as dropped until the host clears
WRITE_FAULT or enables the ring again (DESIGN CHOICE, log entry 62). -/
def offerEvent (fn : Nat) (e : Event) (s : State) : State :=
  let s := tellOverflow fn s
  let r := (fnState s fn).ring
  if admits r e then
    if r.enabled then
      if r.used < 2 ^ r.log2 then putEvent fn e s else dropEvent fn s
    else if r.writeFault then
      let f := fnState s fn
      setFn fn { f with ring := { r with dropped := r.dropped + 1 } } s
    else s
  else s

/-- Logs an event: to the boot log before phase 0x07 (R496), else to PF0's ring and to the ring of the partition's VF (R46). -/
def logEvent (e : Event) (s : State) : State :=
  if s.bench.bootPhase < 7 then
    if s.err.bootLog.length < 256 then
      { s with err := { s.err with bootLog :=
          s.err.bootLog ++ [evtRecord s.ct e.code e.sev 0 e.part e.session e.source e.info] } }
    else
      let f := fnState s 0
      setFn 0 { f with ring := { f.ring with dropped := f.ring.dropped + 1 } } s
  else
    let s := offerEvent 0 e s
    if e.part < 16 then offerEvent (e.part + 1) e s else s

/-- The values of an event's `info`, each a u64 in the rule's order (log entry 14). -/
def infoOf (l : List Nat) : Bytes := (l.take 4).flatMap u64

/-- Logs an event whose `info` is a list of values. -/
def note (code sev part session : Nat) (info : List Nat) (s : State) : State :=
  logEvent { code, sev, part, session, info := infoOf info } s

/-- Counts a mailbox protocol violation and logs it (R25, R50). -/
def violation (fn mbx offset value : Nat) (s : State) : State :=
  let f := fnState s fn
  logEvent { code := 0x0001, sev := 0, part := fnPart fn, source := mbx, info := infoOf [offset, value] }
    (setFn fn { f with violations := f.violations + 1 } s)

end Sys2Proof.Machine
end

