-- ==== Sys2Proof/Machine/Posting.lean ====
section
/-! DEFINITION. Postings to the Tally's ledgers (R303 to R306, 10). -/

namespace Sys2Proof.Machine

/-! ### Ledger codes (R305) -/

namespace Lg
def slot : Nat := 0x01
def directory : Nat := 0x02
def frame : Nat := 0x03
def reference : Nat := 0x04
def credit : Nat := 0x05
def token : Nat := 0x06
def spill : Nat := 0x07
def descriptor : Nat := 0x08
def mailbox : Nat := 0x09
def context : Nat := 0x0A
def sealBuf : Nat := 0x0B
def staging : Nat := 0x0C
def swilan : Nat := 0x0D
end Lg

/-- Key of an instance in the table of ledgers. -/
def ledgerKey (code inst : Nat) : Nat := code * 2 ^ 32 + inst

/-- Columns of an instance at its creation, with everything free (R305). -/
def ledgerInit (code inst : Nat) : Ledger :=
  let c : List Nat :=
    match code with
    | 0x01 => [65536, 0, 0, 0, 0, 0, 0, 0]
    | 0x02 => [16777216, 0, 0, 0, 0, 0, 0, 0]
    | 0x07 => [16384, 0, 0, 0, 0, 0, 0, 0]
    | 0x08 => [65536, 0, 0, 0, 0, 0, 0, 0]
    | 0x09 => [mbxCount inst, 0, 0, 0, 0, 0, 0, 0]
    | 0x0A => [4096, 0, 0, 0, 0, 0, 0, 0]
    | 0x0B => [64, 0, 0, 0, 0, 0, 0, 0]
    | 0x0C => [4096, 0, 0, 0, 0, 0, 0, 0]
    | 0x0D => [256, 0, 256, 0, 0, 0, 0, 0]
    | _ => [0, 0, 0, 0, 0, 0, 0, 0]
  { cols := c, mark := c }

/-- A ledger instance. -/
def getLedger (s : State) (code inst : Nat) : Ledger :=
  tgetD s.tly.ledgers (ledgerKey code inst) (ledgerInit code inst)

/-- One ledger's half of a posting: code, instance and the changes of its columns. -/
structure Half where
  code : Nat
  inst : Nat
  chg  : List (Nat × Int)
  deriving DecidableEq, Repr

/-- A column after a change: a flow column holds at 2^64 − 1 (R303). -/
def addCol (v : Nat) (d : Int) : Nat := min ((v : Int) + d).toNat (2 ^ 64 - 1)

/-- The trace entry of a half (R313). -/
def traceOf (h : Half) (ct unit session : Nat) : TraceEntry :=
  { ct, unit, session
    src := ((h.chg.find? (fun x => x.2 < 0)).map (·.1)).getD 0xFF
    dst := ((h.chg.find? (fun x => 0 < x.2)).map (·.1)).getD 0xFF
    amount := ((h.chg.head?).map (fun x => x.2.natAbs)).getD 0 }

/-- Applies one half. -/
def postHalf (h : Half) (unit session : Nat) (s : State) : State :=
  let l := getLedger s h.code h.inst
  let cols := h.chg.foldl (fun c x => c.set x.1 (addCol (c.getD x.1 0) x.2)) l.cols
  let full := h.chg.any (fun x => decide ((2 ^ 64 : Int) - 1 < (l.cols.getD x.1 0 : Int) + x.2))
  let trace := (l.trace ++ [traceOf h s.ct unit session])
  let l' := { l with cols, sat := l.sat || full, trace := trace.drop (trace.length - 64) }
  { s with tly := { s.tly with ledgers := tset s.tly.ledgers (ledgerKey h.code h.inst) l' } }

/-- The partition of an instance, 0xFF for a chip-wide one. -/
def instPart (s : State) (code inst : Nat) : Nat :=
  match code with
  | 0x03 => inst / 65
  | 0x04 => inst / 65
  | 0x05 => ((tget s.pla.classes inst).map (·.partition)).getD 0xFF
  | 0x06 => ((tget s.pla.classes inst).map (·.partition)).getD 0xFF
  | 0x07 => inst / 1024
  | 0x09 => fnPart inst
  | 0x0B => ((tget s.net.qps inst).map (·.partition)).getD 0xFF
  | _ => 0xFF

/-- The partition whose posting a posting is: that of its first instance (R51, R314). -/
def postPart (s : State) : List Half → Nat
  | [] => noPart
  | h :: _ => min (instPart s h.code h.inst) noPart

/-- One atomic posting to up to two instances (R304). -/
def post (hs : List Half) (unit session : Nat) (s : State) : State :=
  let s := bump .tlyPostings (postPart s hs) 1 (hs.foldl (fun s h => postHalf h unit session s) s)
  { s with tly := { s.tly with postings := s.tly.postings + 1 } }

/-- A posting that moves `n` from one column to another of one instance. -/
def move (code inst src dst n unit session : Nat) (s : State) : State :=
  post [⟨code, inst, [(src, -(n : Int)), (dst, (n : Int))]⟩] unit session s

/-- Moves one mailbox's count between its states (R305); the unit's census is computed. -/
def ownCol : Own → Nat
  | .idle => 0
  | .posted => 1
  | .taken => 2
  | .running => 3
  | .done => 4

/-! ### Swilan flits (R382 to R384; log entry 38) -/

/-- A link of this chip. -/
def getLink (s : State) (n : Nat) : Link := tgetD s.swl.links n {}

/-- Stores a link. -/
def setLink (n : Nat) (l : Link) (s : State) : State := { s with swl := { s.swl with links := tset s.swl.links n l } }

/-- Whether a link passes traffic. -/
def Link.up (l : Link) : Bool := l.lstate = .up || l.lstate = .degraded

/-- Instance of the SWILAN ledger (R313). -/
def swlInst (link vc : Nat) : Nat := link * 4 + vc

/-- Flits of a message with `n` bytes of data. -/
def flitsOf (n : Nat) : Nat := max 1 (ceilDiv n 240)

/-- Adds to an element of a list. -/
def addAt (l : List Nat) (i n : Nat) : List Nat := l.set i (l.getD i 0 + n)

/-- Sends `n` flits of a virtual channel: each takes a credit, a sequence number and a place in the replay buffer. -/
def sendFlits (link vc n : Nat) (s : State) : State :=
  let l := getLink s link
  let seqs := (List.range n).map (fun i => ({ seq := (l.seqTx + i) % 1024, vc } : ReplayFlit))
  let l := { l with
    avail := l.avail.set vc (l.avail.getD vc 0 - n), sent := addAt l.sent vc n, seqTx := (l.seqTx + n) % 1024
    replay := l.replay ++ seqs }
  post [⟨Lg.swilan, swlInst link vc, [(0, -(n : Int)), (1, (n : Int)), (5, (n : Int))]⟩] 0x0B 0
    (bump .swlTx noPart n (setLink link l s))

/-- Sends what a virtual channel's credits allow of its oldest messages, at most `fuel` of them. -/
def pumpVc (link vc : Nat) : Nat → State → State
  | 0, s => s
  | fuel + 1, s =>
    let l := getLink s link
    match l.queue.find? (fun q => q.vc = vc) with
    | none => s
    | some q =>
      let k := min q.left (l.avail.getD vc 0)
      if k = 0 then s
      else
        let s := sendFlits link vc k s
        let l := getLink s link
        if k < q.left then
          setLink link { l with queue := l.queue.map (fun x => if x = q then { q with left := q.left - k } else x) } s
        else
          let l := { l with queue := l.queue.erase q, twin := if vc = 3 then l.twin ++ [{ q with left := q.flits }] else l.twin }
          pumpVc link vc fuel (emit (.swilan link vc q.code q.tag q.values q.data) (setLink link l s))

/-- Sends what a link can: RESPONSE, TWIN, REQUEST, then BULK (R383); nothing while its power group is IDLE (R464). -/
def pumpLink (link : Nat) (s : State) : State :=
  if (getLink s link).up && (tgetD s.pwr.groups (0x30 + link) {}).state = 3 then
    [1, 3, 0, 2].foldl (fun s vc => pumpVc link vc ((getLink s link).queue.length + 1) s) s
  else s

/-- Sends a message on a link. Where the link is down a twin record waits for it, and anything else is lost (R384, R388). -/
def sendSwl (o : Output) (s : State) : State :=
  match o with
  | .swilan link vc code tag values data =>
    let l := getLink s link
    if l.up || vc = 3 then
      let n := flitsOf data.length
      pumpLink link (setLink link { l with queue := l.queue ++ [{ vc, code, tag, values, data, flits := n, left := n }] } s)
    else s
  | o => emit o s

/-- A message has arrived: its flits are counted and their credits returned (R305, R309, R383). -/
def swlGot (link vc bytes : Nat) (s : State) : State :=
  let n := flitsOf bytes
  let l := getLink s link
  let s := setLink link { l with
    received := addAt l.received vc n, creditsOut := addAt l.creditsOut vc n, seqRx := (l.seqRx + n) % 1024 } s
  let s := post [⟨Lg.swilan, swlInst link vc, [(6, (n : Int))]⟩] 0x0B 0 (bump .swlRx noPart n s)
  emit (.swilan link vc 34 n [] []) s

end Sys2Proof.Machine
end

