-- ==== Sys2Proof/Machine/Operands.lean ====
section
/-! DEFINITION. What a Chavy request brings: its fields, its partition, the checks 1 to 3 of R29, and its scatter list (01). -/

namespace Sys2Proof.Machine

/-- What the opcode table of the chapters says of a Chavy command. -/
structure OpInfo where
  opcode  : Nat
  /-- Reserved to PF0. -/
  pf0     : Bool := false
  /-- Open to management over MCTP (R53). -/
  mctp    : Bool := false
  /-- Reserved byte ranges of the payload, first byte and length (R10). -/
  rsvd    : List (Nat × Nat) := []
  /-- Reserved bits of payload fields: offset, bytes and the mask of the reserved bits. -/
  rbits   : List (Nat × Nat × Nat) := []
  /-- 8-byte address fields of the payload and their alignments. -/
  align   : List (Nat × Nat) := []
  /-- 8-byte fields that must be aligned only where the byte at the first offset is 1: that offset, the field's, the alignment. -/
  alignOn : List (Nat × Nat × Nat) := []
  /-- Depends on the management view (R506). -/
  view    : Bool := false
  deriving DecidableEq, Repr

end Sys2Proof.Machine

/-! ### Fields -/

namespace Sys2Proof.Req

open Sys2Proof.Machine

/-- A payload field, as the host left it in the payload area whatever `payload_len` is; a byte never written reads as zero (DESIGN
CHOICE, log entry 9). -/
def f (r : Req) (o n : Nat) : Nat := field r.payload o n

/-- A byte string of the payload. -/
def b (r : Req) (o n : Nat) : Bytes := slice r.payload o n

/-- Function whose authority the request carries: management has PF0's reach where a command is open to it. -/
def fn (r : Req) : Nat :=
  match r.src with
  | .mailbox f _ => f
  | .forwarded _ _ f => f
  | _ => 0

/-- Mailbox number, 0 where there is none. -/
def mbx (r : Req) : Nat :=
  match r.src with
  | .mailbox _ n => n
  | _ => 0

/-- The partition that the request names: a VF's own, or PF0's choice, 0xFF for the whole device (R22, R51). -/
def part (r : Req) : Nat :=
  match r.src with
  | .device p => p
  | _ => if r.fn = 0 then r.hdr.partition else r.fn - 1

/-- The partition as a number below 16: partition 0 where PF0 names the whole device (DEDUCED, log entry 9). -/
def part16 (r : Req) : Nat := if r.part < 16 then r.part else 0

/-- Whether the request reaches partition `p` (R51, R57). -/
def reaches (r : Req) (p : Nat) : Bool := r.part = 0xFF || r.part = p

/-- Whether PF0 or the device itself issued it. -/
def isPf0 (r : Req) : Bool := r.fn = 0

end Sys2Proof.Req

namespace Sys2Proof.Machine

/-! ### Checks 2 and 3 of R29 -/

/-- Bytes of the payload that are reserved and not zero (R10). -/
def rsvdBad (i : OpInfo) (p : Bytes) : Bool :=
  i.rsvd.any (fun x => field p x.1 x.2 ≠ 0) || i.rbits.any (fun x => (field p x.1 x.2.1) &&& x.2.2 ≠ 0)

/-- An address field of the payload is misaligned (R29 step 2). -/
def misaligned (i : OpInfo) (r : Req) : Bool :=
  i.align.any (fun x => r.f x.1 8 % x.2 ≠ 0) || i.alignOn.any (fun x => r.f x.1 1 = 1 && r.f x.2.1 8 % x.2.2 ≠ 0)

/-- A header field is reserved and not zero, out of range or misaligned (R29 step 2). -/
def headerBad (h : Header) : Bool :=
  h.rsvd0D ≠ 0 || h.rsvd1A ≠ 0 || h.rsvd34 ≠ 0 || decide (32 ≤ h.flags)
    || decide (3968 < h.payloadLen) || (decide (2048 ≤ h.msixVector) && h.msixVector ≠ 0xFFFF)
    || (decide (16 ≤ h.partition) && h.partition ≠ 0xFF) || decide (4096 < h.sgCount)
    || h.shadowAddr % 16 ≠ 0 || h.sgAddr % 16 ≠ 0

/-- A request over MCTP breaks R53. -/
def mctpBad (r : Req) : Bool :=
  r.hdr.own ≠ 0 || r.hdr.shadowAddr ≠ 0 || r.hdr.sgAddr ≠ 0 || r.hdr.sgCount ≠ 0 || r.hdr.msixVector ≠ 0
    || r.hdr.flags ≠ 0 || decide (1024 < r.hdr.payloadLen)

/-! ### Scatter lists (R39, R40, R528) -/

/-- A data entry of a scatter list: its index in list order, address and length. -/
structure SgEntry where
  idx  : Nat
  addr : Nat
  len  : Nat
  deriving DecidableEq, Repr

/-- Why a scatter list cannot be used. -/
inductive SgErr where
  | badField
  | fault (idx kind : Nat)
  deriving DecidableEq, Repr

/-- The entries of one segment: its data entries and the segment that its CHAIN entry names. -/
def sgSegment (seg : Bytes) (base : Nat) : Nat → Nat → Except SgErr (List SgEntry × Option (Nat × Nat))
  | 0, _ => .ok ([], none)
  | k + 1, i =>
    let a := field seg (16 * i) 8
    let len := field seg (16 * i + 8) 4
    let fl := field seg (16 * i + 12) 4
    if 2 ≤ fl then .error .badField
    else if fl = 1 then
      if k ≠ 0 || a % 16 ≠ 0 || len = 0 || decide (4096 < len) then .error .badField
      else .ok ([], some (a, len))
    else if len = 0 then .error .badField
    else do
      let (es, nx) ← sgSegment seg base k (i + 1)
      .ok ({ idx := base + i, addr := a, len } :: es, nx)

/-- Reads a whole list, at most `fuel` segments of it. -/
def sgWalk (s : State) : Nat → Nat → Nat → Nat → Except SgErr (List SgEntry)
  | 0, _, _, _ => .error .badField
  | fuel + 1, addr, count, base =>
    if 1048576 < base + count then .error .badField
    else
      match hostErr s addr (16 * count) with
      | some k => .error (.fault base k)
      | none => do
        let (es, nx) ← sgSegment (hostRead s addr (16 * count)) base count 0
        match nx with
        | none => .ok es
        | some (a, n) =>
          let rest ← sgWalk s fuel a n (base + count)
          .ok (es ++ rest)

/-- A request's scatter list. -/
def sgList (r : Req) (s : State) : Except SgErr (List SgEntry) :=
  if r.hdr.sgCount = 0 then .ok [] else sgWalk s 4096 r.hdr.sgAddr r.hdr.sgCount 0

/-- Bytes that a list covers. -/
def sgTotal (l : List SgEntry) : Nat := (l.map (·.len)).sum

/-- The list, once it is known to cover `need` bytes (R528). -/
def sgCover (r : Req) (need : Nat) (s : State) : Except SgErr (List SgEntry) := do
  let l ← sgList r s
  if sgTotal l < need then .error .badField else .ok l

/-- Reads `n` bytes through a list. -/
def sgRead (s : State) : List SgEntry → Nat → Except SgErr Bytes
  | _, 0 => .ok []
  | [], _ => .ok []
  | e :: es, n =>
    let k := min e.len n
    match hostErr s e.addr k with
    | some kind => .error (.fault e.idx kind)
    | none => do
      let rest ← sgRead s es (n - k)
      .ok (hostRead s e.addr k ++ rest)

/-- Writes bytes through a list; what has landed before a failure stays. -/
def sgWrite : List SgEntry → Bytes → State → State × Option SgErr
  | [], _, s => (s, none)
  | e :: es, b, s =>
    if b = [] then (s, none)
    else
      let k := min e.len b.length
      match hostErr s e.addr k with
      | some kind => (s, some (.fault e.idx kind))
      | none => sgWrite es (b.drop k) (hostWrite e.addr (b.take k) s)

/-- A request that another chip has sent: its scatter list's bytes come with it, from byte 3,968 of what it carries (R387, R395;
log entry 13). -/
def carried (r : Req) : Bool :=
  match r.src with
  | .forwarded _ _ _ => true
  | .mirrored => true
  | _ => false

/-- The first `n` bytes of a request's scatter list, once it is known to cover them (R528). -/
def inData (r : Req) (n : Nat) (s : State) : Except SgErr Bytes :=
  if carried r then .ok (slice r.payload 3968 n)
  else do
    let l ← sgCover r n s
    sgRead s l n

/-- Splits a list at a byte offset: the entries from `n` bytes on. -/
def sgDrop : List SgEntry → Nat → List SgEntry
  | [], _ => []
  | e :: es, n =>
    if n = 0 then e :: es
    else if n < e.len then { e with addr := e.addr + n, len := e.len - n } :: es
    else sgDrop es (n - e.len)

end Sys2Proof.Machine
end

