-- ==== Sys2Proof/Machine/Ops.lean ====
section
/-! DEFINITION. The command envelope: taking a command, answering it, completing it, and long operations (01). -/

namespace Sys2Proof.Machine

/-! ### Status codes used by every group (R41) -/

namespace St
def ok : Nat := 0x0000
def accepted : Nat := 0x0001
def busyRetry : Nat := 0x0002
def badOpcode : Nat := 0x0003
def badField : Nat := 0x0004
def notPermitted : Nat := 0x0005
def staleView : Nat := 0x0006
def cancelled : Nat := 0x0007
def handleUnknown : Nat := 0x0008
def notCancellable : Nat := 0x0009
def sgFault : Nat := 0x000A
def groupOff : Nat := 0x0E02
end St

/-! ### The board (R381, R385) -/

/-- This chip's number on its board. -/
def chip (s : State) : Nat := s.elec.chipId

/-- The link to another chip of the board (R385). -/
def linkTo (s : State) (c : Nat) : Nat := (c + 15 - chip s) % 8

/-! ### Power groups (R462 to R465) -/

/-- A power group. -/
def getGroup (s : State) (g : Nat) : Group := tgetD s.pwr.groups g {}

/-- Whether a group is ACTIVE and not being shut down: it takes work and its pools have free frames (R463, R467). -/
def groupOpen (s : State) (g : Nat) : Bool :=
  let x := getGroup s g
  x.state = 3 && (match x.run with | some t => t.state.getD 3 = 3 | none => true)

/-- Work waits for a group: POWER_WAIT is logged once per group and episode (R465). -/
def powerWait (g : Nat) (s : State) : State :=
  let x := getGroup s g
  if x.waiting then s
  else note 0x0E02 1 0xFF 0 [g] (bump .pwrWaits noPart 1
    { s with pwr := { s.pwr with groups := tset s.pwr.groups g { x with waiting := true } } })

/-- The fixed engine that runs a command, or the port that it sets (R462). -/
def engineOf (opc : Nat) (r : Req) : Option Nat :=
  if opc = 0x0A00 then (if r.f 0 1 < 8 then some (0x28 + r.f 0 1) else none)
  else if [0x0200, 0x0201, 0x0202, 0x0205].contains opc then some 0x37
  else if [0x0101, 0x0503].contains opc then some 0x38
  else if opc = 0x0504 then some 0x39
  else if opc = 0x0602 then some 0x3A
  else if opc = 0x0603 then some 0x3B
  else if [0x0900, 0x0901, 0x0902, 0x0903, 0x0904, 0x0905, 0x0907].contains opc then some 0x3C
  else if [0x0908, 0x0909, 0x090A, 0x090B, 0x090C].contains opc then some 0x3D
  else if [0x0C02, 0x0C03].contains opc then some 0x3E
  else if [0x0C05, 0x0C06, 0x0C07].contains opc then some 0x3F
  else none

/-- Whether a command needs a group that is OFF (R465). -/
def engineOff (s : State) (opc : Nat) (r : Req) : Bool := (engineOf opc r).any (fun g => (getGroup s g).state = 0)

/-! ### Mailboxes -/

/-- Key of mailbox `n` of function `fn`. -/
def mbxKey (fn n : Nat) : Nat := fn * 256 + n

/-- A mailbox. -/
def getMbx (s : State) (fn n : Nat) : Mailbox := tgetD s.bench.mbx (mbxKey fn n) {}

/-- Stores a mailbox; a change of its ownership is posted to the function's MAILBOX ledger (R305). -/
def setMbx (fn n : Nat) (x : Mailbox) (s : State) : State :=
  let was := (getMbx s fn n).own
  let s := { s with bench := { s.bench with mbx := tset s.bench.mbx (mbxKey fn n) x } }
  if was = x.own then s else move Lg.mailbox fn (ownCol was) (ownCol x.own) 1 0 0 s

/-- The watcher captures a command: the mailbox holds it and is TAKEN, its completion fields cleared (R26). -/
def capture (r : Req) (s : State) : State :=
  match r.src with
  | .mailbox fn n =>
    let x := getMbx s fn n
    setMbx fn n { x with
      own := .taken, hdr := r.hdr, status := 0, resultLen := 0, opHandle := 0, detail := 0
      payload := Mem.write x.payload 0 r.payload } s
  | _ => s

/-! ### Completion (R30 to R32) -/

/-- Logs SG_FAULT (R50). -/
def logSgFault (r : Req) (idx kind : Nat) (s : State) : State :=
  logEvent { code := 0x0004, sev := 1, part := fnPart r.fn, source := r.mbx, info := u32 idx ++ u8 kind } s

/-- The shadow record's write, and its event when it fails (R31). It is written where `shadow_addr` is misaligned too, the command
completing with BAD_FIELD (DESIGN CHOICE, log entry 62). -/
def writeShadow (r : Req) (status handle detail : Nat) (s : State) : State :=
  if bit r.hdr.flags 3 then
    match hostErr s r.hdr.shadowAddr 16 with
    | some k => logSgFault r ones32 k s
    | none => hostWrite r.hdr.shadowAddr (u32 r.hdr.seq ++ u16 status ++ u16 r.mbx ++ u32 handle ++ u32 detail) s
  else s

/-- The completion of a request: result, status, handle and ct_done, then OWN, then the shadow record, then the interrupt.
`quiet` suppresses the interrupt (R29), which a shadow write that fails does not (DESIGN CHOICE, log entry 62). Over MCTP the
completed header goes out with the result's first 1,024 bytes, whatever its length (R53; DESIGN CHOICE, log entry 62). -/
def complete (r : Req) (status detail handle : Nat) (result : Bytes) (quiet : Bool) (s : State) : State :=
  match r.src with
  | .mailbox fn n =>
    let x := getMbx s fn n
    if x.own = .taken || x.own = .running then
      let s := setMbx fn n { x with
        own := .done, status, detail, opHandle := handle, ctDone := s.ct, resultLen := result.length
        payload := Mem.write x.payload 0 result } s
      let s := writeShadow r status handle detail s
      if bit r.hdr.flags 0 && !quiet then sendMsix fn r.hdr.msixVector s else s
    else s
  | .mctp => emit (.mctp r.hdr status (result.take 1024).length handle detail s.ct (result.take 1024)) s
  | .forwarded link tag _ => sendSwl (.swilan link 1 0 tag [status, detail] result) s
  | .mirrored => s
  | .device _ => s

/-- What a command's body answers: the state with its effect, and its completion unless it stays pending. -/
structure Reply where
  st     : State
  status : Nat := 0
  detail : Nat := 0
  result : Bytes := []
  /-- The command waits or has become an operation: it is not completed now. -/
  pend   : Bool := false

namespace Reply

/-- Completion with OK and a result. -/
def ok (s : State) (result : Bytes := []) : Reply := { st := s, result }

/-- Completion with a failure and no effect. -/
def err (s : State) (status : Nat) (detail : Nat := 0) : Reply := { st := s, status, detail }

/-- No completion now. -/
def wait (s : State) : Reply := { st := s, pend := true }

/-- Completion with SG_FAULT or the BAD_FIELD of a scatter list, over the state `s`. -/
def sg (r : Req) (s : State) : SgErr → Reply
  | .badField => { st := s, status := St.badField }
  | .fault idx kind => { st := logSgFault r idx kind s, status := St.sgFault, detail := idx }

end Reply

/-- Fails with a status when a check does not hold. -/
def guard' (p : Bool) (st : Nat) : Except Nat Unit := if p then .ok () else .error st

/-- A checked body: the checks answer the first failing status, the effect runs when all pass. -/
def checked {α : Type} (s : State) (c : Except Nat α) (k : α → Reply) : Reply :=
  match c with
  | .error st => .err s st
  | .ok a => k a

/-- Output through the request's scatter list, once it is known to cover `need` bytes (R528); the data of a forwarded request
are its answer's bytes (log entry 13). -/
def replyData (r : Req) (need : Nat) (data result : Bytes) (s : State) : Reply :=
  if carried r then .ok s data
  else
  match sgCover r need s with
  | .error e => .sg r s e
  | .ok l =>
    match sgWrite l data s with
    | (s', none) => .ok s' result
    | (s', some e) => .sg r s' e

/-- Input of `n` bytes through the request's scatter list. -/
def withData (r : Req) (n : Nat) (s : State) (k : Bytes → Reply) : Reply :=
  match inData r n s with
  | .error e => .sg r s e
  | .ok b => k b

/-! ### Partitions -/

/-- A partition's record. -/
def getPart (s : State) (p : Nat) : Partition := tgetD s.hmk.parts p {}

/-- Stores a partition's record. -/
def setPart (p : Nat) (x : Partition) (s : State) : State :=
  { s with hmk := { s.hmk with parts := tset s.hmk.parts p x } }

/-- Opcodes by group that PF0 keeps for a locked partition because they return no user data (R453). -/
def lockedReads : List Nat :=
  [0x0104, 0x0109, 0x0203, 0x0308, 0x0402, 0x0502, 0x0906, 0x090D, 0x0A01, 0x0A04, 0x0A08, 0x0C01]

/-- Whether a partition's TDI is in CONFIG_LOCKED, RUN or ERROR (R453). -/
def tdiHeld (s : State) (p : Nat) : Bool :=
  match (getPart s p).tdi with
  | .locked => true
  | .run => true
  | .error => true
  | _ => false

/-- R453: what a TDI in CONFIG_LOCKED, RUN or ERROR forbids to PF0 for partition `p`, by opcode. -/
def tdispCheck (i : OpInfo) (r : Req) (p : Nat) (s : State) : Except Nat Unit :=
  let g := i.opcode / 256
  match r.src with
  | .device _ => .ok ()
  | _ =>
    if r.fn = 0 && decide (p < 16) && tdiHeld s p then
      if [0x010A, 0x0503, 0x0504].contains i.opcode then .error St.notPermitted
      else if i.opcode = 0x0D03 then .error 0x0D08
      else if ([1, 2, 3, 4, 5, 6, 9, 10, 12].contains g) && !lockedReads.contains i.opcode then .error 0x0D08
      else .ok ()
    else .ok ()

/-- What bears on a partition that a command of PF0's names in its payload: its range, a teardown and its TDI (R444, R453). -/
def partGate (i : OpInfo) (r : Req) (p : Nat) (s : State) : Except Nat Unit :=
  if 16 ≤ p then .error St.badField
  else if r.fn ≠ 0 && p ≠ r.fn - 1 then .error St.notPermitted
  else if (getPart s p).pstate = .teardown then .error 0x0D05
  else tdispCheck i r p s

/-- Opcodes that a stopped boot leaves open (R498): always, and once phase 0x02 has passed. -/
def stoppedOpen (s : State) (opc : Nat) : Bool :=
  if s.bench.bootPhase ≤ 2 then
    [0x0000, 0x0001, 0x0002, 0x0F00, 0x0F05].contains opc
  else [0x0000, 0x0001, 0x0002, 0x0F00, 0x0F01, 0x0F06, 0x0F05, 0x0D05, 0x0D06].contains opc

/-- The boot has stopped, or the Hallmark serves the mailboxes after a fault of the Bench (R498, R505). -/
def bootStopped (s : State) : Bool :=
  (s.bench.devState = .frozen && decide (s.bench.bootPhase < 7)) || s.err.hallmarkServes

/-- The status with which a device in FROZEN refuses admission, inbound migration and import (R312, R505). -/
def fatalStatus (s : State) : Nat := if s.err.fatalCause = 0 then 0x0F01 else s.err.fatalCause

/-- Whether the function exists for commands: PF0 always, a VF while its partition is not OFF nor in TEARDOWN (R444, R454). -/
def vfEnabled (s : State) (fn : Nat) : Bool := fn = 0 || (getPart s (fn - 1)).pstate = .active

/-- Whether a function's requests are answered with Unsupported Request: a VF that is disabled, or whose TDI is in ERROR (R452). -/
def fnRefused (s : State) (fn : Nat) : Bool := !vfEnabled s fn || (fn ≠ 0 && (getPart s (fn - 1)).tdi = .error)

/-- Whether the host's requests reach the device: its PCIe link is up and configuration requests are answered (R491, R495). -/
def hostReach (s : State) : Bool := s.elec.pcieUp && s.err.configOk

/-- A host access to a function's BARs. -/
def hostAccess (fn : Nat) (k : State → State) (s : State) : State :=
  if !hostReach s then s else if fnRefused s fn then emit (.refused fn false) s else k s

/-- The Hallmark ROM serves the commands: the boot has stopped in phase 0x02 or before (R498). -/
def romServes (s : State) : Bool := s.bench.devState = .frozen && decide (s.bench.bootPhase ≤ 2)

/-- Every command that a function posted before `no` has reached RUNNING or DONE (R23). -/
def fenceOk (s : State) (fn no : Nat) : Bool :=
  !s.bench.mbx.any (fun e => e.1 / 256 = fn && decide (e.2.postNo < no) && (e.2.own = .posted || e.2.own = .taken))

/-- Whether a mailbox is one that the watcher may take (R26, R498). -/
def takeable (s : State) (fn n : Nat) (x : Mailbox) : Bool :=
  x.own = .posted && s.bench.devState ≠ .booting && (!romServes s || (fn = 0 && n = 0))
    && (!bit x.hdr.flags 4 || fenceOk s fn x.postNo)

/-- Whether a lower-numbered mailbox of the function goes first: it was posted before this one, so that every scan that sees this one
has seen it, or both were posted during boot (R27). -/
def goesFirst (s : State) (fn n : Nat) (x : Mailbox) : Bool :=
  s.bench.mbx.any (fun e => e.1 / 256 = fn && decide (e.1 % 256 < n) && takeable s fn (e.1 % 256) e.2
    && (decide (e.2.postNo < x.postNo) || (e.2.postBoot && x.postBoot)))

/-- Whether the watcher takes a POSTED mailbox: within a scan in ascending number (R26, R27, R498). -/
def watcherTakes (s : State) (fn n : Nat) : Bool :=
  let x := getMbx s fn n
  takeable s fn n x && !goesFirst s fn n x

/-- The partition that a command of a twinned group acts on: the one that its header names, or its session's. -/
def twinPart (r : Req) (s : State) : Nat :=
  if r.part < 16 then r.part
  else
    match s.pln.slots.find? (fun e => e.2.id = r.f 0 8), s.pln.dir.find? (fun e => e.2.id = r.f 0 8) with
    | some e, _ => e.2.partition
    | none, some e => e.2.partition
    | none, none => r.part16

/-- The commands that a twin pair's primary mirrors (R395). -/
def mirroredOps : List Nat :=
  [0x0100, 0x0101, 0x0102, 0x0103, 0x0105, 0x0106, 0x0107, 0x0108, 0x0200, 0x0201, 0x0205, 0x0300, 0x0302, 0x0303, 0x0400, 0x0401,
   0x0403, 0x0500, 0x0501, 0x0600]

/-- The locked pair of a partition. -/
def lockedPair (s : State) (p : Nat) : Option Pair := (tget s.twn.pairs p).filter (fun x => x.tstate = .locked)

/-- A command of a twinned group posted to the secondary (R395). -/
def onSecondary (opc : Nat) (r : Req) (s : State) : Bool :=
  mirroredOps.contains opc && (lockedPair s (twinPart r s)).any (·.secondary)

/-- The primary sends a command that it has taken, with its data, to the secondary on VC3; an admission's session ID follows
its payload at 0x50 (R395; log entry 13). A run-ahead is not mirrored. -/
def mirror (opc : Nat) (r : Req) (result : Bytes) (s : State) : State :=
  match lockedPair s (twinPart r s) with
  | some x =>
    if x.secondary || !mirroredOps.contains opc || (opc = 0x0201 && bit (r.f 8 1) 0) then s
    else
      let p := if opc = 0x0100 then fit 0x50 r.payload ++ result.take 8 else r.payload
      let data := match (do let l ← sgList r s; sgRead s l (sgTotal l)) with | .ok b => b | .error _ => []
      sendSwl (.swilan (linkTo s x.peer) 3 10 opc [r.hdr.partition, r.hdr.payloadLen]
        (if data.isEmpty then p else fit 3968 p ++ data)) s
  | none => s

/-- Checks 2 and 3 of R29 and those that bear on every command: the first failure and whether the interrupt is suppressed. The unit
whose management view a command depends on is taken to be its opcode's group (R53, R506; DESIGN CHOICE, log entry 62). -/
def precheck (i : OpInfo) (r : Req) (s : State) : Option (Nat × Bool) :=
  let badVec := decide (2048 ≤ r.hdr.msixVector) && r.hdr.msixVector ≠ 0xFFFF
  match r.src with
  | .mirrored => none
  | .device _ => none
  | _ =>
    if (match r.src with | .mctp => mctpBad r || headerBad { r.hdr with msixVector := 0xFFFF } | _ => headerBad r.hdr)
        || rsvdBad i r.payload || misaligned i r then
      some (St.badField, badVec)
    else if (match r.src with | .mctp => !i.mctp | _ => false) then some (St.notPermitted, false)
    else if r.fn ≠ 0 && (i.pf0 || (r.hdr.partition ≠ 0xFF && r.hdr.partition ≠ r.fn - 1)) then
      some (St.notPermitted, false)
    else if bootStopped s && !stoppedOpen s i.opcode then some (0x0F05, false)
    else if (getPart s r.part).pstate = .teardown && decide (r.part < 16)
        && !([0x0001, 0x0002, 0x0D02].contains i.opcode) then some (0x0D05, false)
    else if (i.view || (match r.src with | .mctp => true | _ => false)) && thas s.err.stale (i.opcode / 256) then
      some (St.staleView, false)
    else if engineOff s i.opcode r then some (St.groupOff, false)
    else if onSecondary i.opcode r s then some (St.notPermitted, false)
    else match tdispCheck i r r.part s with
      | .error st => some (st, false)
      | .ok _ => none

/-- A command after its capture: the checks of R29, the body, and the completion unless it stays pending. One whose engine is
not ACTIVE waits for it (R465). -/
def commandStep (i : OpInfo) (body : Moment → Req → State → Reply) (m : Moment) (r : Req) (s : State) : State :=
  match precheck i r s with
  | some (st, quiet) => complete r st 0 0 [] quiet s
  | none =>
    match (engineOf i.opcode r).filter (fun g => !groupOpen s g) with
    | some g => powerWait g { s with pwr := { s.pwr with waitCmds := s.pwr.waitCmds ++ [r] } }
    | none =>
      let a := body m r s
      let st := if a.pend || a.status = 0 then mirror i.opcode r a.result a.st else a.st
      if a.pend then st else complete r a.status a.detail 0 a.result false st

/-- A request as the row of an opcode takes it: its header names that opcode. -/
def OpInfo.named (i : OpInfo) (r : Req) : Req := { r with hdr := { r.hdr with opcode := i.opcode } }

/-- The host writes a command into a mailbox that it owns, and POSTED (R25, R26). -/
def postIn (r : Req) (s : State) : State :=
  match r.src with
  | .mailbox fn n =>
    let x := getMbx s fn n
    let f := fnState s fn
    setMbx fn n { x with
      own := .posted, hdr := r.hdr, payload := Mem.write x.payload 0 r.payload, postNo := f.posts
      postBoot := s.bench.devState = .booting }
      (setFn fn { f with posts := f.posts + 1 } s)
  | _ => s

/-- A Chavy command: posted, taken, checked, run and completed (R26 to R30). It stays POSTED while the watcher does not take it; a
mailbox that the device has is not the host's to post (R26). A device that is booting serves no MCTP request. -/
def runCommand (i : OpInfo) (body : Moment → Req → State → Reply) (m : Moment) (r : Req) (s : State) : State :=
  let s := s.at m
  let r := i.named r
  match r.src with
  | .mailbox fn n =>
    let own := (getMbx s fn n).own
    if !hostReach s then s
    else if fnRefused s fn then emit (.refused fn false) s
    else if own = .idle || own = .done then
      let t := postIn r s
      if watcherTakes t fn n then commandStep i body m r (capture r t) else t
    else violation fn n 0 1 s
  | .mctp => if s.bench.devState = .booting then s else commandStep i body m r s
  | _ => commandStep i body m r s

/-! ### Long operations (R33 to R38) -/

/-- Long operations of a function that run now. -/
def opsOf (s : State) (fn : Nat) : Nat := (s.bench.ops.filter (fun e => e.2.fn = fn)).length

/-- One more operation may start (R34). -/
def opRoom (s : State) (fn : Nat) : Bool := decide (opsOf s fn < opLimit fn)

/-- Starts an operation for a request: its number and the state. Its handle comes with LONG_OP_ACCEPT. -/
def startOp (r : Req) (phase unit total : Nat) (canCancel : Bool) (args : List Nat) (s : State) : Nat × State :=
  let n := s.bench.nextOp
  (n, { s with bench := { s.bench with
    nextOp := n + 1
    ops := tset s.bench.ops n
      { fn := r.fn, req := r, opcode := r.hdr.opcode, canCancel, args,
        prog := { phase, unit, total, ct := s.ct } } } })

/-- An operation. -/
def getOp (s : State) (n : Nat) : Option LongOp := tget s.bench.ops n

/-- Stores an operation. -/
def setOp (n : Nat) (o : LongOp) (s : State) : State :=
  { s with bench := { s.bench with ops := tset s.bench.ops n o } }

/-- `value` of R36. -/
def permyriad (position total : Nat) : Nat := if total = 0 then 0 else 10000 * position / total

/-- The operation's record in its mailbox, as its progress area shows it. -/
def showProgress (o : LongOp) (s : State) : State :=
  match o.req.src with
  | .mailbox fn n => if o.orphan then s else setMbx fn n { getMbx s fn n with prog := o.prog } s
  | _ => s

/-- The interrupt of IRQ_PROGRESS: an update of the progress area whose `value` has crossed a multiple of 1,000 (R23). -/
def progressIrq (o : LongOp) (v : Nat) (s : State) : State :=
  match o.req.src with
  | .mailbox fn _ =>
    if bit o.req.hdr.flags 2 && decide (o.prog.value / 1000 < v / 1000) && !o.orphan then sendMsix fn o.req.hdr.msixVector s else s
  | _ => s

/-- Rewrites an operation's progress under `pseq` (R35, R36), with the interrupt of IRQ_PROGRESS (R23). -/
def progressOp (n phase position total : Nat) (s : State) : State :=
  match getOp s n with
  | none => s
  | some o =>
    let v := permyriad position total
    let p := { o.prog with
      pseq := o.prog.pseq + 2, handle := o.handle, value := v
      phase := (if o.cancelling then 0xFE else phase), position, total, ct := s.ct }
    let o' := { o with prog := p }
    progressIrq o v (showProgress o' (setOp n o' s))

/-- The next serial of a function's handles that is neither live nor retained (R33). -/
def nextSerial (used : List Nat) : Nat → Nat → Nat
  | 0, k => k
  | fuel + 1, k =>
    if used.contains k then nextSerial used fuel (if k = 0x7FFFFFF then 1 else k + 1) else k

/-- The serials of a function's live and retained handles. -/
def usedSerials (s : State) (fn : Nat) : List Nat :=
  (((s.bench.ops.map (fun e => e.2.handle)) ++ tkeys s.bench.retained).filter
    (fun h => h / 2 ^ 27 = fn && h ≠ 0)).map (· % 2 ^ 27)

/-- Becoming long: the operation gets its handle, the mailbox shows ACCEPTED and RUNNING (R26, R28, R33). `pseq` counts each
operation's updates from 0, and the handle appears without one; over MCTP an operation is answered with ACCEPTED now and with its
final status later (DESIGN CHOICE, log entry 62). -/
def acceptOp (n : Nat) (s : State) : State :=
  match getOp s n with
  | none => s
  | some o =>
    if o.handle ≠ 0 || o.orphan then s
    else
      let f := fnState s o.fn
      let used := usedSerials s o.fn
      let k := nextSerial used (used.length + 1) f.serial
      let h := o.fn * 2 ^ 27 + k
      let s := setFn o.fn { f with serial := if k = 0x7FFFFFF then 1 else k + 1 } s
      let o' := { o with handle := h, prog := { o.prog with handle := h } }
      let s := setOp n o' s
      match o.req.src with
      | .mailbox fn mb =>
        let s := setMbx fn mb { getMbx s fn mb with
          own := .running, status := St.accepted, opHandle := h, prog := o'.prog } s
        if bit o.req.hdr.flags 1 then sendMsix fn o.req.hdr.msixVector s else s
      | .mctp => emit (.mctp o.req.hdr St.accepted 0 h 0 s.ct []) s
      | _ => s

/-- Retains the final record of an ended operation for 10 s of ct or 1,024 later ends (R38). -/
def retainOp (o : LongOp) (p : Progress) (s : State) : State :=
  if o.handle = 0 then s
  else
    let e := tgetD s.bench.ended o.fn 0 + 1
    let keep := tset (s.bench.retained.filter (fun x => x.2.fn ≠ o.fn || decide (e - x.2.endNo < 1024)))
      o.handle { fn := o.fn, ctEnd := s.ct, endNo := e, prog := p }
    { s with bench := { s.bench with ended := tset s.bench.ended o.fn e, retained := keep } }

/-- Ends an operation with its final status: final progress, retained record, completion (R26, R36, R38). -/
def endOp (n status detail : Nat) (result : Bytes) (s : State) : State :=
  match getOp s n with
  | none => s
  | some o =>
    let p := { o.prog with pseq := o.prog.pseq + 2, handle := o.handle, value := 10000, phase := 0xFF, ct := s.ct }
    let o' := { o with prog := p }
    let s := if o.handle = 0 then s else progressIrq o 10000 (showProgress o' s)
    let s := retainOp o p { s with bench := { s.bench with ops := tdel s.bench.ops n } }
    if o.orphan then s else complete o.req status detail o.handle result false s

/-- Ends an operation whose copy through its scatter list has failed, with SG_FAULT and its event (R40, R50). Which entry failed, and by
what PCIe error, is free (log entry 8). -/
def endSgFault (n : Nat) (s : State) : State :=
  match getOp s n with
  | none => s
  | some o =>
    let i := Config.freeValue s.free % max 1 o.req.hdr.sgCount
    let k := Config.freeValue (s.free + 1) % 4
    endOp n St.sgFault i [] (logSgFault o.req i k { s with free := s.free + 2 })

/-- Advances the position of an operation's work by `k`. -/
def advanceOp (n k : Nat) (s : State) : State :=
  match getOp s n with
  | none => s
  | some o => progressOp n o.prog.phase (o.prog.position + k) o.prog.total s

/-- Moves an operation to another phase; from then on it can be cancelled or not (R44). -/
def phaseOp (n phase : Nat) (canCancel : Bool) (s : State) : State :=
  match getOp s n with
  | none => s
  | some o => progressOp n phase o.prog.position o.prog.total (setOp n { o with canCancel } s)

/-- An operation is being cancelled and may still be stopped: it ends with CANCELLED at its next safe point (R44). -/
def stopping (s : State) (n : Nat) : Bool := (getOp s n).any (fun o => o.cancelling && o.canCancel)

/-- Sets what the owning unit keeps with an operation. -/
def setArgs (n : Nat) (args : List Nat) (s : State) : State :=
  match getOp s n with
  | some o => setOp n { o with args } s
  | none => s

/-- A body that starts a long operation, refused with BUSY_RETRY at the function's limit (R34). -/
def asOp (r : Req) (s : State) (phase unit total : Nat) (canCancel : Bool) (args : List Nat)
    (k : Nat → State → State) : Reply :=
  if opRoom s r.fn then
    let (n, s') := startOp r phase unit total canCancel args s
    .wait (k n s')
  else .err s St.busyRetry

end Sys2Proof.Machine
end

