-- ==== Sys2Proof/Machine/Partitions.lean ====
section
/-! DEFINITION. What a partition owns: granules, ways, its memory's places, and the identity words (R18, R19, R442, R458). -/

namespace Sys2Proof.Machine

/-- Enabled tiles of the grade (R1, R3). -/
def tileCount (s : State) : Nat := match s.grade with | .as760 => 128 | .as744 => 112

/-- Bytes of one HBM granule and of one LPDDR6 granule (R442). -/
def hbmGranule : Nat := 16 * 1966445568
def lpddrGranule : Nat := 62500000000

/-- Bytes of memory in a tier's granule, and a partition's granules there. -/
def granuleSize (tier : Nat) : Nat := if tier = 1 then hbmGranule else lpddrGranule
def granules (s : State) (p tier : Nat) : List Nat :=
  setBits 16 (if tier = 1 then (getPart s p).hbmMask else (getPart s p).lpddrMask)

/-- Bytes of a partition's memory in tier 1 or 2. -/
def partBytes (s : State) (p tier : Nat) : Nat := (granules s p tier).length * granuleSize tier

/-- Device address of byte `off` of a partition's memory in tier 1 or 2: its granules lie one after another in rising
order (DESIGN CHOICE, log entry 17). -/
def partAddr (s : State) (p tier off : Nat) : Nat :=
  (granules s p tier).getD (off / granuleSize tier) 0 * granuleSize tier + off % granuleSize tier

/-- Tile of byte `off` of a partition's tier 0: its tiles in rising order, each a carve-out of 0xE0_0000 bytes. -/
def partTiles (s : State) (p : Nat) : List Nat :=
  (setBits 16 (getPart s p).tileMask).flatMap (fun g => (List.range 8).map (8 * g + ·))

/-- Reads a partition's memory in tier 1 or 2. -/
def partRead (s : State) (p tier off n : Nat) : Bytes :=
  (List.range n).map (fun i => Mem.byte s.devMem (devKey tier (partAddr s p tier (off + i))))

/-- Writes a partition's memory in tier 1 or 2. -/
def partWrite (p tier off : Nat) : Bytes → State → State
  | [], s => s
  | b :: t, s => partWrite p tier (off + 1) t (devWrite tier (partAddr s p tier off) [b] s)

/-- BENCH_ID and BENCH_PLACE (R3, R19). -/
def benchId (s : State) : Nat :=
  (match s.grade with | .as760 => 0x0760 | .as744 => 0x0744) * 2 ^ 16 + 0x2100
def benchPlace (s : State) (fn : Nat) : Nat := s.elec.chipId * 2 ^ 16 + tileCount s * 2 ^ 8 + fn

/-- PERMYRIAD (R19, R495): the present phase's progress, 0 at its start and where the device is held in phase 0x01. -/
def bootPermyriad (s : State) : Nat :=
  if s.bench.devState = .booting && !s.err.hold && s.bench.phaseCt ≠ s.ct then Config.bootProgress s.bench.bootPhase s.ct % 10001
  else s.bench.permyriad

/-- PSTATE and TDI as numbers (R458). -/
def pstateCode : PState → Nat
  | .off => 0
  | .active => 1
  | .teardown => 2
def tdiCode : Tdi → Nat
  | .none => 0
  | .unlocked => 1
  | .locked => 2
  | .run => 3
  | .error => 4

/-- HMK_PART of a partition (R458). -/
def hmkPart (s : State) (p : Nat) : Nat :=
  let x := getPart s p
  pstateCode x.pstate * 2 ^ 30 + tdiCode x.tdi * 2 ^ 27 + b2n x.confidential * 2 ^ 26 + b2n x.signedImages * 2 ^ 25
    + b2n x.kek.isSome * 2 ^ 24 + popcount 16 x.tileMask * 2 ^ 15 + popcount 16 x.hbmMask * 2 ^ 10
    + popcount 16 x.lpddrMask * 2 ^ 5

/-- The payload of HMK_PARTITION_SET less `kek` (R440, R461). -/
def partConfig (p : Nat) (x : Partition) : Bytes :=
  u8 p ++ u8 (b2n x.confidential + 2 * b2n x.signedImages) ++ u16 x.tileMask ++ u16 x.hbmMask ++ u16 x.lpddrMask
    ++ (takeD 6 0 x.ways).flatMap u16 ++ zeros 12 ++ fit 32 x.imageKeyHash

/-- HMK_PARTITION_QUERY's answer for a partition: HMK_PART, then HMK_PARTITION_SET's payload less the KEK (R461). -/
def partInfo (s : State) (p : Nat) : Bytes := u32 (hmkPart s p) ++ partConfig p (getPart s p)

/-! ### Power groups (R462, R463, R467) -/

/-- The group in which an address of a tier lies: the tile's cluster, the HBM stack or the LPDDR6 pair (R442, R462). -/
def addrGroup (tier addr : Nat) : Nat :=
  if tier = 0 then addr / 0xE00000 / 8
  else if tier = 1 then 0x10 + addr / hbmGranule / 2
  else 0x18 + addr / lpddrGranule

/-- The channel of a byte of HBM or LPDDR6: the 64-byte lines of a granule go to its channels in turn (log entry 17). -/
def addrChan (tier addr : Nat) : Nat :=
  if tier = 1 then addr / hbmGranule * 16 + addr / 64 % 16
  else if tier = 2 then addr / lpddrGranule * 2 + addr / 64 % 2
  else 0

/-- Ways of cache `c` that a partition has, in the order of R443. -/
def ways (s : State) (p c : Nat) : Nat := popcount 16 ((getPart s p).ways.getD c 0)

end Sys2Proof.Machine
end

