-- ==== Sys2Proof/Machine/Mailboxes.lean ====
section
/-! DEFINITION. What the host does to mailboxes, MSI-X vectors and event rings, and what becomes of long operations (01). -/

namespace Sys2Proof.Machine

/-! ### The ownership word (R24 to R26) -/

/-- Whether mailbox `n` of function `fn` exists (R21). -/
def mbxExists (fn n : Nat) : Bool := decide (fn ≤ 16) && decide (n < mbxCount fn)

/-- The host writes `value` to a mailbox's own word (R26). A write of IDLE to a mailbox that is IDLE has no row of its own there: it
counts as "any other value" (DESIGN CHOICE, log entry 62). -/
def ownWrite (fn n value : Nat) (s : State) : State :=
  if mbxExists fn n then
    let x := getMbx s fn n
    let free := x.own = .idle || x.own = .done
    if free && value = 1 then
      let f := fnState s fn
      setMbx fn n { x with own := .posted, postNo := f.posts, postBoot := s.bench.devState = .booting } (setFn fn { f with posts := f.posts + 1 } s)
    else if x.own = .done && value = 0 then setMbx fn n { x with own := .idle } s
    else violation fn n 0 value s
  else s

/-- MBX_POST: the host writes POSTED (R26). -/
def execMbxPost (m : Moment) (fn n : Nat) (s : State) : Out := .next (hostAccess fn (ownWrite fn n 1) (s.at m))

/-- MBX_RELEASE: the host writes IDLE (R26). -/
def execMbxRelease (m : Moment) (fn n : Nat) (s : State) : Out := .next (hostAccess fn (ownWrite fn n 0) (s.at m))

/-- MBX_OWN_INVALID: the host writes `own` with a value it may not write now (R26). -/
def execMbxOwnInvalid (m : Moment) (fn n value : Nat) (s : State) : Out := .next (hostAccess fn (ownWrite fn n value) (s.at m))

/-! ### Header and payload (R22, R25) -/

/-- The host's fields of a header as the mailbox's first 64 bytes. -/
def headerBytes (h : Header) : Bytes :=
  zeros 4 ++ u32 h.seq ++ u16 h.opcode ++ u16 h.flags ++ u8 h.partition ++ u8 h.rsvd0D ++ u16 h.payloadLen ++ zeros 8
    ++ u16 h.msixVector ++ u16 h.rsvd1A ++ zeros 4 ++ u64 h.shadowAddr ++ u64 h.sgAddr ++ u32 h.sgCount ++ u32 h.rsvd34
    ++ zeros 8

/-- A header from a mailbox's first 64 bytes. -/
def headerOf (b : Bytes) : Header :=
  { seq := field b 4 4, opcode := field b 8 2, flags := field b 0x0A 2, partition := field b 0x0C 1
    rsvd0D := field b 0x0D 1, payloadLen := field b 0x0E 2, msixVector := field b 0x18 2, rsvd1A := field b 0x1A 2
    shadowAddr := field b 0x20 8, sgAddr := field b 0x28 8, sgCount := field b 0x30 4, rsvd34 := field b 0x34 4 }

/-- Replaces bytes of a string from an offset. -/
def overlay (b : Bytes) (o : Nat) (w : Bytes) : Bytes := (b.take o ++ w ++ b.drop (o + w.length)).take b.length

/-- The host writes bytes of a mailbox: those of the header and of the payload are discarded and counted from POSTED until DONE (R25);
the progress area is read-only and ignores them always (R9, R35). -/
def mbxWrite (fn n offset : Nat) (w : Bytes) (s : State) : State :=
  if mbxExists fn n then
    let x := getMbx s fn n
    if x.own = .idle || x.own = .done then
      if offset < 64 then setMbx fn n { x with hdr := headerOf (overlay (headerBytes x.hdr) offset w) } s
      else if offset < 128 then s
      else setMbx fn n { x with payload := Mem.write x.payload (offset - 128) (w.take (4096 - offset)) } s
    else if 64 ≤ offset && offset < 128 then s
    else violation fn n offset (leVal w) s
  else s

/-- MBX_LOCKED_WRITE: a 4-byte host write into a mailbox (R25). -/
def execMbxLockedWrite (m : Moment) (fn n offset value : Nat) (s : State) : Out :=
  .next (hostAccess fn (mbxWrite fn n offset (u32 value)) (s.at m))

/-! ### MSI-X (R32) -/

/-- The host unmasks a vector: a pending message is sent. -/
def msixUnmask (fn vec : Nat) (s : State) : State :=
  let f := fnState s fn
  let e := tgetD f.msix vec {}
  let s := setFn fn { f with msix := tset f.msix vec { e with masked := false }, msixPend := f.msixPend.erase vec } s
  if f.msixPend.contains vec then emit (.msix fn vec e.addr e.data) s else s

/-- MSIX_UNMASK (R32). -/
def execMsixUnmask (m : Moment) (fn vector : Nat) (s : State) : Out :=
  .next (if decide (fn ≤ 16) && decide (vector < 2048) then hostAccess fn (msixUnmask fn vector) (s.at m) else s.at m)

/-! ### Long operations (R33 to R38) -/

/-- LONG_OP_ACCEPT: an operation that has not ended within 1 ms becomes long (R26, R28, R33). -/
def execLongOpAccept (m : Moment) (op : Nat) (s : State) : Out := .next (acceptOp op (s.at m))

/-- The phase of an operation at a position, and whether it can still be cancelled: a settings programming or a firmware load verifies
its image and block, then programs and reads back, or writes (R490, 16; R512, 17); a model or table-set load places, copies and
verifies (R193, 05; R245, 07). -/
def stageOf (o : LongOp) (position : Nat) : Nat × Bool :=
  if o.opcode = 0x0E08 then
    (if position < 7456 then 1 else if position < 9504 then 2 else 3, o.canCancel && decide (position < 7456))
  else if o.opcode = 0x0F05 then (if 2 * position < o.prog.total then 1 else 2, o.canCancel && decide (2 * position < o.prog.total))
  else if o.opcode = 0x0400 || (o.opcode = 0x0500 && o.prog.phase ≠ 1) then
    (if position = 0 then o.prog.phase else if position < o.prog.total then 2 else 3, o.canCancel)
  else (o.prog.phase, o.canCancel)

/-- PROGRESS_UPDATE: the progress area is rewritten with the work done (R36). -/
def execProgressUpdate (m : Moment) (op position : Nat) (s : State) : Out :=
  let s := s.at m
  .next (match getOp s op with
    | some o =>
      if o.handle ≠ 0 && decide (position ≤ o.prog.total) then
        let (phase, canCancel) := stageOf o position
        progressOp op phase position o.prog.total (setOp op { o with canCancel } s)
      else s
    | none => s)

/-- PROGRESS_RETENTION_EXPIRY: 10 s after an operation's end its record goes (R38). -/
def execProgressRetentionExpiry (m : Moment) (handle : Nat) (s : State) : Out :=
  let s := s.at m
  .next (match tget s.bench.retained handle with
    | some x =>
      if x.ctEnd + 10000000000 ≤ s.ct then
        { s with bench := { s.bench with retained := tdel s.bench.retained handle } }
      else s
    | none => s)

/-! ### The ring's consumed count (R47, R48) -/

/-- The host writes BENCH_EVT_CONS: ignored and counted when PROD − CONS would exceed the ring. -/
def evtConsWrite (fn value : Nat) (s : State) : State :=
  let f := fnState s fn
  let r : EventRing := { f.ring with cons := value % 2 ^ 32 }
  if 2 ^ r.log2 < r.used then violation fn 0 0x200010 value s
  else tellOverflow fn (setFn fn { f with ring := r } s)

/-- EVT_CONS_WRITE (R48). -/
def execEvtConsWrite (m : Moment) (fn value : Nat) (s : State) : Out :=
  .next (if fn ≤ 16 then hostAccess fn (evtConsWrite fn value) (s.at m) else s.at m)

end Sys2Proof.Machine
end

