-- ==== Sys2Proof/Machine/Identity.lean ====
section
/-! DEFINITION. Device identity, alias keys and signature blocks (R432 to R438, 15). -/

namespace Sys2Proof.Machine

/-- ASCII text as bytes. -/
def ascii (t : List Nat) : Bytes := t.map (BitVec.ofNat 8)

/-- "IXH-CDI1", "IXH-CDI2", "IXH-DEVID-", "IXH-ALIAS-", "ED" and "MLDSA". -/
def txtCdi1 : Bytes := ascii [0x49, 0x58, 0x48, 0x2D, 0x43, 0x44, 0x49, 0x31]
def txtCdi2 : Bytes := ascii [0x49, 0x58, 0x48, 0x2D, 0x43, 0x44, 0x49, 0x32]
def txtDevid : Bytes := ascii [0x49, 0x58, 0x48, 0x2D, 0x44, 0x45, 0x56, 0x49, 0x44, 0x2D]
def txtAlias : Bytes := ascii [0x49, 0x58, 0x48, 0x2D, 0x41, 0x4C, 0x49, 0x41, 0x53, 0x2D]
def txtEd : Bytes := ascii [0x45, 0x44]
def txtMldsa : Bytes := ascii [0x4D, 0x4C, 0x44, 0x53, 0x41]
def txtSig1 : Bytes := ascii [0x49, 0x58, 0x48, 0x2D, 0x53, 0x49, 0x47, 0x31]

/-- DeviceID seeds, which never change (R437). -/
def devIdEdSeed : Bytes := Config.blake3Keyed Config.uds (txtDevid ++ txtEd)
def devIdMldsaSeed : Bytes := Config.blake3Keyed Config.uds (txtDevid ++ txtMldsa)

/-- `device_id` (R438). -/
def deviceId : Bytes := fit 32 (Config.blake3 (Config.ed25519Pub devIdEdSeed ++ Config.mldsaPub devIdMldsaSeed))

/-- CDI 1, and CDI 2 for the running Chavy image (R437). -/
def cdi1 : Bytes := Config.blake3Keyed Config.uds (txtCdi1 ++ Config.blake3 Config.hallmarkFirmware)
def cdi2 (s : State) : Bytes := Config.blake3Keyed cdi1 (txtCdi2 ++ Config.blake3 s.hmk.chavy)

/-- Alias keys' seeds (R437). -/
def aliasEdSeed (s : State) : Bytes := Config.blake3Keyed (cdi2 s) (txtAlias ++ txtEd)
def aliasMldsaSeed (s : State) : Bytes := Config.blake3Keyed (cdi2 s) (txtAlias ++ txtMldsa)

/-- The two alias signatures over a message: Ed25519, then ML-DSA-65 (R293, R312, R441). -/
def aliasSign (s : State) (msg : Bytes) : Bytes :=
  fit 64 (Config.ed25519Sign (aliasEdSeed s) msg) ++ fit 3309 (Config.mldsaSign (aliasMldsaSeed s) msg)

/-! ### Signature blocks (R432 to R434) -/

/-- The key digest of a block (R433). -/
def keyDigest (b : Bytes) : Bytes := fit 32 (Config.blake3 (slice b 0x30 32 ++ slice b 0x50 1952))

/-- Every check of R433 but the key digest's: form, kind, svn, digest and both signatures. -/
def blockValid (b : Bytes) (kind : Nat) (digest : Bytes) : Bool :=
  let msg := txtSig1 ++ b.take 0x30
  b.length = 5408 && field b 0 4 = 0x31474953 && field b 4 2 = 1 && field b 6 1 = kind
    && (kind = 1 || field b 8 4 = 0)
    && slice b 0x10 32 = digest
    && Config.ed25519Verify (slice b 0x30 32) msg (slice b 0x7F0 64)
    && Config.mldsaVerify (slice b 0x50 1952) msg (slice b 0x830 3309)

/-- Status codes of a refused artefact. -/
def stKeyUntrusted : Nat := 0x0D02
def stSigInvalid : Nat := 0x0D01

/-- Whether one of the four root keys, not revoked, signed a block (R434). -/
def rootTrusted (s : State) (b : Bytes) : Bool :=
  (List.range 4).any (fun i => !bit s.hmk.revoked i && Config.rootKeyDigest i = keyDigest b)

/-- Verification of an image's block for a partition: the status of its failure (R433, R434). -/
def imageBlock (s : State) (p : Nat) (b : Bytes) (kind : Nat) (digest : Bytes) : Except Nat Unit :=
  if !blockValid b kind digest then .error stSigInvalid
  else if (getPart s p).imageKeyHash ≠ keyDigest b then .error stKeyUntrusted
  else .ok ()

/-- A rejected artefact is counted and logged (R434, R460). -/
def sigRejected (kind status part : Nat) (s : State) : State :=
  note 0x0D01 1 part 0 [kind, status] (bump .hmkSigFails (if part < 16 then part else noPart) 1 s)

end Sys2Proof.Machine
end

