-- ==== Sys2Proof/Machine/Frames.lean ====
section
/-! DEFINITION. Frame pools, frames and their holders (R136 to R140, 04). -/

namespace Sys2Proof.Machine

/-- Size of a pool's frame (R136). -/
def frameSize (p : PoolId) : Nat :=
  if p.tier = 0xFF then 2048
  else if p.tier = 0xFE then 65536
  else match p.enc with
    | 0 => 2 ^ p.pclass
    | 1 => 25 * 2 ^ p.pclass / 32
    | _ => 17 * 2 ^ p.pclass / 32

/-- The memory tier in which a pool lies: the table and journal pools lie in HBM. -/
def poolTier (p : PoolId) : Nat := if p.tier ≤ 2 then p.tier else 1

/-- Number of a pool in its partition: that of FRM_FREE, then the table pool and the journal pool (DESIGN CHOICE, log entry 20). -/
def poolNo (p : PoolId) : Nat :=
  if p.tier = 0xFF then 63 else if p.tier = 0xFE then 64 else 21 * p.tier + 7 * p.enc + (p.pclass - 18)

/-- Instance of a pool in the FRAME and REFERENCE ledgers. -/
def poolInst (p : PoolId) : Nat := p.partition * 65 + poolNo p

def tablePool (p : Nat) : PoolId := { partition := p, tier := 0xFF, pclass := 0, enc := 0 }
def journalPool (p : Nat) : PoolId := { partition := p, tier := 0xFE, pclass := 0, enc := 0 }

/-- A configured pool. -/
def getPool (s : State) (id : PoolId) : Option Pool := s.frames.pools.find? (fun x => x.id = id)

/-- Frames of a pool in use. -/
def usedFrames (s : State) (id : PoolId) : Nat := (s.frames.frames.filter (fun e => e.2.pool = id)).length

/-- Free frames of a pool; none while the pool's power group is not ACTIVE is decided by R467's callers. -/
def freeCount (s : State) (id : PoolId) : Nat :=
  match getPool s id with
  | some x => x.size - usedFrames s id
  | none => 0

/-- Key of the frame at a byte address of a tier. -/
def frameKey (tier addr : Nat) : Nat := devKey tier addr

/-- Byte addresses of a pool's free frames, extent by extent. -/
def freeAddrs (s : State) (x : Pool) : List Nat :=
  (x.extents.flatMap (fun e => (List.range e.2).map (fun i => e.1 + i * frameSize x.id))).filter
    (fun a => !thas s.frames.frames (frameKey (poolTier x.id) a) && groupOpen s (addrGroup (poolTier x.id) a))

/-- Generation of a frame (R139). -/
def frameGen (s : State) (tier addr : Nat) : Nat := tgetD s.frames.gens (frameKey tier addr) 0

/-- A frame's reference count. -/
def frameRefs (s : State) (tier addr : Nat) : Nat :=
  match tget s.frames.frames (frameKey tier addr) with
  | some f => f.refs
  | none => 0

/-- The kinds of holder, by their column of the REFERENCE ledger (R305). -/
def hEntry : Nat := 1
def hNode : Nat := 2
def hCut : Nat := 3
def hReserve : Nat := 4

/-- States of a frame, by their column of the FRAME ledger (R305). -/
def fReserved : Nat := 1
def fProvisional : Nat := 2
def fAllocated : Nat := 3

/-- Reserves a frame of a pool: as `fReserved`, or `fProvisional` for a run-ahead (R306). What it held before is cleared, so that a
page's padding reads as zero (R128; log entry 60). -/
def reserveFrame (m : Moment) (k : Nat) (id : PoolId) (col session : Nat) (s : State) : Option (Nat × State) :=
  match getPool s id with
  | none => none
  | some x =>
    match pick m k (freeAddrs s x) with
    | none => none
    | some a =>
      let key := frameKey (poolTier id) a
      let s := { s with
        devMem := Mem.clear s.devMem key (frameSize id)
        frames := { s.frames with frames := tset s.frames.frames key { pool := id, refs := 1 } } }
      some (a, post [⟨Lg.frame, poolInst id, [(0, -1), (col, 1)]⟩,
        ⟨Lg.reference, poolInst id, [(0, 1), (hReserve, 1), (5, 1)]⟩] 3 session s)

/-- A reserved frame is published into an entry or a node (R306). -/
def publishFrame (tier addr col kind session : Nat) (s : State) : State :=
  match tget s.frames.frames (frameKey tier addr) with
  | none => s
  | some f =>
    post [⟨Lg.frame, poolInst f.pool, [(col, -1), (fAllocated, 1)]⟩,
      ⟨Lg.reference, poolInst f.pool, [(hReserve, -1), (kind, 1)]⟩] 3 session s

/-- Takes a frame for an entry or another holder at once. -/
def takeFrame (m : Moment) (k : Nat) (id : PoolId) (kind session : Nat) (s : State) : Option (Nat × State) :=
  match reserveFrame m k id fReserved session s with
  | none => none
  | some (a, s) => some (a, publishFrame (poolTier id) a fReserved kind session s)

/-- The frame returns to its pool: its generation increments, and a tier-0 frame is zeroed first (R139, R455). -/
def returnFrame (tier addr : Nat) (s : State) : State :=
  let key := frameKey tier addr
  match tget s.frames.frames key with
  | none => s
  | some f =>
    let mem := if tier = 0 then Mem.clear s.devMem key (frameSize f.pool) else s.devMem
    { s with
      devMem := mem
      frames := { s.frames with
        frames := tdel s.frames.frames key
        gens := tset s.frames.gens key ((tgetD s.frames.gens key 0 + 1) % 256) } }

/-- Releases a reservation (R306). -/
def unreserveFrame (tier addr col session : Nat) (s : State) : State :=
  match tget s.frames.frames (frameKey tier addr) with
  | none => s
  | some f =>
    let s := post [⟨Lg.frame, poolInst f.pool, [(col, -1), (0, 1)]⟩,
      ⟨Lg.reference, poolInst f.pool, [(0, -1), (hReserve, -1), (5, -1)]⟩] 3 session s
    returnFrame tier addr s

/-- Adds a holder to a frame (R139, R306). -/
def addHolder (tier addr kind session : Nat) (s : State) : State :=
  let key := frameKey tier addr
  match tget s.frames.frames key with
  | none => s
  | some f =>
    post [⟨Lg.reference, poolInst f.pool, [(0, 1), (kind, 1)]⟩] 3 session
      { s with frames := { s.frames with frames := tset s.frames.frames key { f with refs := f.refs + 1 } } }

/-- Whether a layer group that is running reads a frame (R213). -/
def beingRead (s : State) (key : Nat) : Bool := s.tile.invs.any (fun e => e.2.running.isSome && e.2.reads.contains key)

/-- Releases a holder; at count 0 the frame returns to its pool (R139, R306), one that a running layer group reads when that ends,
by `lateFrames` (R213). -/
def dropHolder (tier addr kind session : Nat) (s : State) : State :=
  let key := frameKey tier addr
  match tget s.frames.frames key with
  | none => s
  | some f =>
    if f.refs ≤ 1 && beingRead s key then
      post [⟨Lg.reference, poolInst f.pool, [(0, -1), (kind, -1)]⟩] 3 session
        { s with frames := { s.frames with frames := tset s.frames.frames key { f with refs := 0 } } }
    else if f.refs ≤ 1 then
      let s := post [⟨Lg.reference, poolInst f.pool, [(0, -1), (kind, -1), (5, -1)]⟩,
        ⟨Lg.frame, poolInst f.pool, [(fAllocated, -1), (0, 1)]⟩] 3 session s
      returnFrame tier addr s
    else
      post [⟨Lg.reference, poolInst f.pool, [(0, -1), (kind, -1)]⟩] 3 session
        { s with frames := { s.frames with frames := tset s.frames.frames key { f with refs := f.refs - 1 } } }

/-- Frames without a holder that no running layer group reads any more return to their pools (R213). -/
def lateFrames (s : State) : State :=
  (s.frames.frames.filter (fun e => e.2.refs = 0 && !beingRead s e.1)).foldl (fun s e =>
    returnFrame (e.1 / 2 ^ 60) (e.1 % 2 ^ 60) (post [⟨Lg.reference, poolInst e.2.pool, [(5, -1)]⟩,
      ⟨Lg.frame, poolInst e.2.pool, [(fAllocated, -1), (0, 1)]⟩] 3 0 s)) s

/-- Copies a frame's bytes. -/
def copyFrame (tier src tier' dst n : Nat) (s : State) : State := devWrite tier' dst (devRead s tier src n) s

/-! ### Page-table entries (R133, R134) -/

/-- Byte address of an entry's frame. -/
def Pte.addr (e : Pte) : Nat := e.frame * 8192

/-- The 64 bits of an entry (R133). -/
def Pte.toNat (e : Pte) : Nat :=
  e.frame * 2 ^ 32 + e.range * 2 ^ 16 + e.gen * 2 ^ 8 + e.tier * 2 ^ 6 + e.enc * 2 ^ 4 + b2n e.shared * 8 + b2n e.cow * 4
    + b2n e.resident * 2 + b2n e.valid

/-- The entry that 64 bits spell. -/
def Pte.ofNat (v : Nat) : Pte :=
  { frame := bits v 63 32, range := bits v 31 16, gen := bits v 15 8, tier := bits v 7 6, enc := bits v 5 4
    shared := bit v 3, cow := bit v 2, resident := bit v 1, valid := bit v 0 }

/-- The entry of a frame of this chip (R133, R134). -/
def pteOf (s : State) (tier enc addr : Nat) : Pte :=
  { frame := addr / 8192, range := chip s, gen := frameGen s tier addr, tier, enc
    resident := tier ≤ 1 && enc = 0, valid := true }

/-- Key of block `b` of layer group `g`. -/
def pteKey (g b : Nat) : Nat := g * 4096 + b

/-- Whether the entry's frame lies in this chip's own frame table. -/
def Pte.here (e : Pte) (s : State) : Bool := e.valid && decide (e.tier ≤ 2) && e.range % 8 = chip s

/-- The model's own code of a message that tells another chip of frames that a session's entries no longer name (log entry 13). -/
def releaseCode : Nat := 0x12

/-- Releases an entry's holder of its frame: here, or by a message to the chip that holds the frame (R112, R139). -/
def dropPte (e : Pte) (session : Nat) (s : State) : State :=
  if e.here s then dropHolder e.tier e.addr hEntry session s
  else if e.valid && decide (e.tier ≤ 2) then
    sendSwl (.swilan (linkTo s (e.range % 8)) 0 1 session [releaseCode] (u64 e.toNat)) s
  else s

/-- A range that is not FREE and belongs to a partition. -/
def getRange (s : State) (p k : Nat) : Option Range :=
  match tget s.net.ranges k with
  | some x => if x.partition = p then some x else none
  | none => none

/-- Whether an entry's generation is not its frame's, or that of the range of partition `p` in which its page lies (R135). -/
def Pte.stale (e : Pte) (s : State) (p : Nat) : Bool :=
  if e.tier = 3 then e.valid && (getRange s p e.range).any (fun r => r.rgen % 256 ≠ e.gen)
  else e.here s && e.gen ≠ frameGen s e.tier e.addr

/-- `private_frames` and `shared_pages` of the directory header (R131). -/
def privateFrames (t : PageTables) : Nat := (t.ptes.filter (fun e => e.2.valid && !e.2.shared)).length
def sharedPages (t : PageTables) : Nat := (t.ptes.filter (fun e => e.2.shared)).length

/-! ### A session's storage -/

/-- What a session owns outside its active entry. -/
def getStore (s : State) (id : Nat) : Store := tgetD s.pln.store id {}

/-- Stores it. -/
def setStore (id : Nat) (x : Store) (s : State) : State :=
  { s with pln := { s.pln with store := tset s.pln.store id x } }

/-- Changes a session's storage. -/
def modStore (id : Nat) (f : Store → Store) (s : State) : State := setStore id (f (getStore s id)) s

/-- Sets one page-table entry. -/
def setPte (id g b : Nat) (e : Pte) (s : State) : State :=
  modStore id (fun x => { x with pages := { x.pages with ptes := tset x.pages.ptes (pteKey g b) e } }) s

/-- A page-table entry, all zero where there is none. -/
def getPte (s : State) (id g b : Nat) : Pte := tgetD (getStore s id).pages.ptes (pteKey g b) {}

/-- Table frames that a directory of `lg` layer groups takes (R131). -/
def dirFrameCount (lg : Nat) : Nat := ceilDiv (64 + 128 * lg) 2048

/-- Releases a session's directory and segments (R130, R142). -/
def dropTables (id : Nat) (s : State) : State :=
  let t := (getStore s id).pages
  let s := t.dirFrames.foldl (fun s a => dropHolder 1 a hEntry id s) s
  let s := t.segs.foldl (fun s e => dropHolder 1 e.2 hEntry id s) s
  modStore id (fun x => { x with pages := { x.pages with dirFrames := [], segs := [] } }) s

/-- Releases every page of a session. -/
def dropPages (id : Nat) (s : State) : State :=
  let t := (getStore s id).pages
  let s := t.ptes.foldl (fun s e => dropPte e.2 id s) s
  modStore id (fun x => { x with pages := { x.pages with ptes := [] } }) s

/-- `page_count`: block-list entries in use in each layer group (R131, R138). -/
def pageCount (ptes : Tab Pte) : Nat := ptes.foldl (fun n e => if e.2.valid then max n (e.1 % 4096 + 1) else n) 0

/-- The directory header of a session whose entries are `ptes` (R131). -/
def pdirHeader (s : State) (id slot : Nat) (ptes : Tab Pte) : Bytes :=
  let t := { (getStore s id).pages with ptes }
  u16 t.lgCount ++ u8 t.pageClass ++ u8 slot ++ u32 (pageCount ptes) ++ u32 (privateFrames t) ++ u32 (sharedPages t)
    ++ u64 id ++ zeros 40

end Sys2Proof.Machine
end

