-- ==== Sys2Proof/Machine/Place.lean ====
section
/-! DEFINITION. Where pools, weight objects, table sets and cast images lie in a partition's memory (R136, R162, R187). -/

namespace Sys2Proof.Machine

/-- Bytes of a node table of a capacity: an entry for each index, index 0 too (R144). -/
def treeSize (cap : Nat) : Nat := 64 * (cap + 1)

/-- Ranges of a tier's memory that are taken: base and length (log entry 17). -/
def takenRanges (s : State) (tier : Nat) : List (Nat × Nat) :=
  (s.frames.pools.filter (fun x => poolTier x.id = tier)).flatMap
      (fun x => x.extents.map (fun e => (e.1, e.2 * frameSize x.id)))
    ++ s.tile.models.flatMap (fun e => (e.2.objs ++ e.2.newObjs ++ e.2.moving).flatMap (fun o =>
        (if o.tier = tier then [(o.addr, o.bytes)] else [])
          ++ (o.old.filter (fun x => x.1 = tier)).map (fun x => (x.2, o.bytes))))
    ++ (if tier = 1 then (s.trees.filter (fun e => e.2.cap ≠ 0)).map (fun e => (e.2.base, treeSize e.2.cap)) else [])
    ++ (if tier = 1 then s.txt.gens.map (fun e => (e.2.addr, e.2.hbmBytes)) else [])
    ++ (if tier = 1 then (s.pln.store.filter (fun e => e.2.image.isSome)).map (fun e => (e.2.imageAddr, e.2.imageSize))
          ++ (s.fdy.ops.filter (fun e => e.2.imageSize ≠ 0)).map (fun e => (e.2.imageAddr, e.2.imageSize)) else [])
    ++ (s.tch.indexes.filter (fun e => e.2.tier = tier)).flatMap (fun e => e.2.extents)
    ++ (s.gth.tables.filter (fun e => e.2.tier = tier)).flatMap (fun e => e.2.versions.flatMap (fun v => v.2.extents))

/-- Bytes of an index's codes, item records and edges (R319, R320). -/
def indexBytes (x : Index) : Nat := x.capacity * (32 + x.bits / 8 + if x.kind = 1 then 8 * x.degree else 0)

/-- Bytes of a partition's memory held by stream spill buffers, whose place is the Planisher's to choose (R286). -/
def spillBytes (s : State) (p tier : Nat) : Nat :=
  if tier = 1 then 1048576 * (s.pla.rings.filter (fun e => e.1 / 1024 = p)).length else 0

/-- Bytes taken in a partition's granules of tier 1 or 2. -/
def takenBytes (s : State) (p tier : Nat) : Nat :=
  let gs := granules s p tier
  ((takenRanges s tier).filter (fun x => gs.contains (x.1 / granuleSize tier))).foldl (fun a x => a + x.2) 0
    + spillBytes s p tier

/-- Whether a range meets none of a list. -/
def clear? (l : List (Nat × Nat)) (a n : Nat) : Bool := l.all (fun x => decide (a + n ≤ x.1) || decide (x.1 + x.2 ≤ a))

/-- Rounds up to a multiple. -/
def alignUp (a k : Nat) : Nat := ceilDiv a k * k

/-- Lowest aligned address in a granule of the partition at which `n` bytes are free, each granule's start and each taken
range's end being tried in turn. -/
def placeBlock (s : State) (p tier n align : Nat) : Option Nat :=
  let g := granuleSize tier
  let taken := takenRanges s tier
  if partBytes s p tier < takenBytes s p tier + n then none
  else
    let starts := (granules s p tier).flatMap (fun k =>
      (k * g :: ((taken.filter (fun x => x.1 / g = k)).map (fun x => x.1 + x.2))).map (fun a => alignUp a align))
    (starts.filter (fun a => decide (a % g + n ≤ g) && (granules s p tier).contains (a / g) && clear? taken a n)).min?

/-- Frames that fit one after another from an address, at most `k`, within a granule and clear of what is taken. -/
def runLength (taken : List (Nat × Nat)) (a size stop k : Nat) : Nat :=
  let lim := (taken.filter (fun x => decide (a ≤ x.1))).foldl (fun m x => min m x.1) stop
  min k ((lim - a) / size)

/-- Carves `n` frames from granules in rising order: first the gaps of the first, then of the next (log entry 17). -/
def carve (taken : List (Nat × Nat)) (size g : Nat) : List Nat → Nat → Option (List (Nat × Nat))
  | _, 0 => some []
  | [], _ => none
  | k :: ks, n =>
    let align := if size = 65536 then 65536 else 8192
    let starts := ((k * g :: ((taken.filter (fun x => x.1 / g = k)).map (fun x => x.1 + x.2))).map (fun a => alignUp a align)).filter
      (fun a => decide (a + size ≤ (k + 1) * g) && clear? taken a size)
    let step := (sortBy (fun a b => decide (a ≤ b)) starts).foldl (fun (acc : List (Nat × Nat) × Nat) a =>
      let c := runLength taken a size ((k + 1) * g) acc.2
      if acc.1.any (fun e => decide (e.1 ≤ a) && decide (a < e.1 + e.2 * size)) || c = 0 then acc
      else (acc.1 ++ [(a, c)], acc.2 - c)) ([], n)
    match carve taken size g ks step.2 with
    | none => none
    | some rest => some (step.1 ++ rest)

/-- Carves `n` tier-0 frames in the carve-outs of the partition's tiles (R162). -/
def carveTier0 (taken : List (Nat × Nat)) (size : Nat) (tiles : List Nat) (n : Nat) : Option (List (Nat × Nat)) :=
  let places := tiles.flatMap (fun t =>
    (List.range (0x400000 / size)).map (fun i => t * 0xE00000 + 0x600000 + i * size))
  let free := (places.filter (fun a => clear? taken a size)).take n
  if free.length < n then none else some (free.map (fun a => (a, 1)))

/-- Bytes of a partition's tier-0 carve-outs that page pools and indexes hold (R162, R318). -/
def tier0Taken (s : State) (p : Nat) : Nat :=
  ((s.frames.pools.filter (fun x => poolTier x.id = 0 && x.id.partition = p)).map (fun x => x.size * frameSize x.id)).sum
    + ((s.tch.indexes.filter (fun e => e.2.partition = p && e.2.tier = 0)).map (fun e => (e.2.extents.map (·.2)).sum)).sum

/-- Extents of `n` new frames of a pool. -/
def carvePool (s : State) (id : PoolId) (n : Nat) : Option (List (Nat × Nat)) :=
  let tier := poolTier id
  let taken := takenRanges s tier
  if tier = 0 then
    if 0x400000 * (partTiles s id.partition).length < tier0Taken s id.partition + n * frameSize id then none
    else carveTier0 taken (frameSize id) (partTiles s id.partition) n
  else if partBytes s id.partition tier < takenBytes s id.partition tier + n * frameSize id then none
  else carve taken (frameSize id) (granuleSize tier) (granules s id.partition tier) n

/-- Memory for `n` bytes of Touchstone or the Gather unit in a partition's tier: whole units of 8 KiB, the lowest free first (R318, R335; log
entry 17). -/
def placeUnits (s : State) (p tier n : Nat) : Option (List (Nat × Nat)) :=
  let k := ceilDiv n 8192
  let l :=
    if tier = 0 then
      if 0x400000 * (partTiles s p).length < tier0Taken s p + 8192 * k then none
      else carveTier0 (takenRanges s 0) 8192 (partTiles s p) k
    else if partBytes s p tier < takenBytes s p tier + 8192 * k then none
    else carve (takenRanges s tier) 8192 (granuleSize tier) (granules s p tier) k
  l.map (fun es => es.map (fun e => (e.1, 8192 * e.2)))

end Sys2Proof.Machine
end

