-- ==== Sys2Proof/Machine/Tree.lean ====
section
/-! DEFINITION. The Pattern tree: keys, handles, resolution, publication, deletion and eviction (R143 to R153, 04). -/

namespace Sys2Proof.Machine

/-- A partition's tree. -/
def getTree (s : State) (p : Nat) : Tree := tgetD s.trees p {}

/-- Stores a partition's tree. -/
def setTree (p : Nat) (t : Tree) (s : State) : State := { s with trees := tset s.trees p t }

/-- A node. -/
def getNode (s : State) (p i : Nat) : Node := tgetD (getTree s p).nodes i {}

/-- Stores a node. -/
def setNode (p i : Nat) (n : Node) (s : State) : State :=
  let t := getTree s p
  setTree p { t with nodes := tset t.nodes i n } s

/-- A model slot. -/
def getModel (s : State) (n : Nat) : ModelSlot := tgetD s.tile.models n {}

/-- Stores a model slot. -/
def setModel (n : Nat) (x : ModelSlot) (s : State) : State :=
  { s with tile := { s.tile with models := tset s.tile.models n x } }

/-- `generation` as a handle and a node entry hold it (R144, R146). -/
def nodeGen (s : State) (n : Node) : Nat := chip s * 2 ^ 29 + n.gen

/-- A prefix handle (R146). -/
def handleOf (s : State) (p i : Nat) : Nat := p * 2 ^ 60 + i * 2 ^ 32 + nodeGen s (getNode s p i)

/-- BLAKE3-K cut to 128 bits (R143). -/
def treeHash (s : State) (p : Nat) (b : Bytes) : Bytes := fit 16 (Config.blake3Keyed (getPart s p).treeKey b)

/-- The root key of a model slot and reduction mode (R143). -/
def rootKey (s : State) (p slot : Nat) (mode : Bool) : Bytes :=
  treeHash s p ((getModel s slot).hdr.digest ++ u8 (b2n mode))

/-- The key of the node after `key` over one block of 256 tokens (R143). -/
def nextKey (s : State) (p : Nat) (key : Bytes) (toks : List Nat) : Bytes := treeHash s p (key ++ toks.flatMap u32)

/-- The PUBLISHED node with a key (R144, R151). -/
def findKey (s : State) (p : Nat) (key : Bytes) : Option Nat :=
  ((getTree s p).nodes.find? (fun e => e.2.nstate = .published && e.2.key = key)).map (·.1)

/-- A lookup with its counts (R155). -/
def lookupKey (p : Nat) (key : Bytes) (s : State) : Option Nat × State :=
  let r := findKey s p key
  let s := bump .ptnLookups p 1 s
  (r, if r.isSome then bump .ptnHits p 1 s else s)

/-- The node that a handle names for partition `p`, while it is PUBLISHED with an equal generation (R146). -/
def handleNode (s : State) (p h : Nat) : Option Nat :=
  let i := bits h 59 32
  let n := getNode s p i
  if h / 2 ^ 60 = p && i ≠ 0 && n.nstate = .published && h % 2 ^ 32 = nodeGen s n then some i else none

/-- A node and its ancestors, the node first, at most `fuel` of them. -/
def pathUp (s : State) (p : Nat) : Nat → Nat → List Nat
  | 0, _ => []
  | fuel + 1, i => if i = 0 then [] else i :: pathUp s p fuel (getNode s p i).parent

/-- Sets `ct_used` on nodes (R148, R149). -/
def touchNodes (p : Nat) (l : List Nat) (s : State) : State :=
  l.foldl (fun s i => setNode p i { getNode s p i with ctUsed := s.ct } s) s

/-- Nodes in BUILDING, PUBLISHED or DELETED (R155). -/
def nodesUsed (t : Tree) : Nat := (t.nodes.filter (fun e => e.2.nstate ≠ .free)).length

/-- Whether a publication may take an index that this entry describes: FREE and not retired (R145). -/
def nodeTaken (n : Node) : Bool := n.nstate ≠ .free || decide (0x1FFFFFFF ≤ n.gen)

/-- Free node indices (R145). -/
def freeNodeCount (t : Tree) : Nat := t.cap - (t.nodes.filter (fun e => nodeTaken e.2)).length

/-- The `k`-th index that an event's publications take: FREE and not retired, from 1 to the capacity. -/
def pickNode (m : Moment) (k : Nat) (t : Tree) : Option Nat :=
  if t.cap = 0 then none
  else (freeFrom (fun i => nodeTaken (tgetD t.nodes (i + 1) {})) t.cap (t.nodes.length + 1)
    (m.choice.getD k 0 % t.cap)).map (· + 1)

/-- Releases a node: its frames, its page array, its index; its parent loses a child (R145, R150). -/
def freeNode (p i : Nat) (s : State) : State :=
  let n := getNode s p i
  let s := n.pages.foldl (fun s e => dropHolder e.tier e.addr hNode 0 s) s
  let s := dropHolder 1 n.pageFrame hEntry 0 s
  let s := if n.parent = 0 then s
    else
      let q := getNode s p n.parent
      setNode p n.parent { q with children := q.children - 1 } s
  let s := setNode p i { gen := n.gen } s
  if n.gen = 0x1FFFFFFF then note 0x0303 0 p 0 [i] (bump .ptnSlotsRetired p 1 s) else s

/-- The nodes of a subtree, leaves before their parents: depth falling (R150). -/
def subtree (s : State) (p i : Nat) : List Nat :=
  let d := (getNode s p i).depth
  let inside := (getTree s p).nodes.filter (fun e => e.2.nstate = .published && (pathUp s p (e.2.depth + 1 - d) e.1).contains i)
  (sortBy (fun a b => decide (b.1 ≤ a.1)) (inside.map (fun e => (e.2.depth, e.1)))).map (·.2)

/-- Deletes a node with its subtree; how many nodes went (R150). -/
def deleteNode (p i : Nat) (s : State) : Nat × State :=
  let l := subtree s p i
  (l.length, l.foldl (fun s j => freeNode p j s) s)

/-- Whether a watermark of R152 is breached. -/
def treeLow (s : State) (p : Nat) : Bool :=
  let t := getTree s p
  decide (freeNodeCount t < t.nodeLow)
    || s.frames.pools.any (fun x => x.id.partition = p && x.id.tier = 1 && decide (freeCount s x.id < t.frameLow))

/-- The next leaf to evict: PIN clear, oldest `ct_used`, then lowest index (R152). -/
def evictable (s : State) (p : Nat) : Option Nat :=
  let l := (getTree s p).nodes.filter (fun e => e.2.nstate = .published && e.2.children = 0 && !e.2.pin)
  (l.foldl (fun (b : Option (Nat × Nat)) e =>
    match b with
    | none => some (e.2.ctUsed, e.1)
    | some (c, i) => if e.2.ctUsed < c then some (e.2.ctUsed, e.1) else some (c, i)) none).map (·.2)

/-- Evicts leaves while `want` holds, at most `fuel` of them: how many went. -/
def evictWhile (p : Nat) (want : State → Bool) : Nat → State → Nat × State
  | 0, s => (0, s)
  | fuel + 1, s =>
    if want s then
      match evictable s p with
      | none => (0, s)
      | some i =>
        let s := bump .ptnEvictions p 1 (freeNode p i s)
        let (k, s) := evictWhile p want fuel s
        (k + 1, s)
    else (0, s)

/-- An eviction episode and its event: `cause` 0 node indices, 1 frames, 2 an allocation (R152). -/
def evict (p cause : Nat) (want : State → Bool) (s : State) : State :=
  let (k, s) := evictWhile p want (getTree s p).nodes.length s
  if k = 0 then s else note 0x0304 0 p 0 [k, cause] s

/-- Deletes every node of a model slot of a partition, or of every slot: how many went (R153). -/
def purgeNodes (p : Nat) (slot : Option Nat) (s : State) : Nat × State :=
  let roots := ((getTree s p).nodes.filter (fun e =>
    e.2.nstate = .published && e.2.parent = 0 && (match slot with | some k => e.2.modelSlot = k | none => true))).map (·.1)
  roots.foldl (fun (a : Nat × State) i => let (k, s) := deleteNode p i a.2; (a.1 + k, s)) (0, s)

/-- The 64-byte node entry (R144). -/
def nodeBytes (s : State) (n : Node) : Bytes :=
  let st := match n.nstate with | .free => 0 | .building => 1 | .published => 2 | .deleted => 3
  fit 16 n.key ++ u32 n.parent ++ u32 (nodeGen s n)
    ++ u32 (st * 2 ^ 28 + n.modelSlot * 2 ^ 22 + b2n n.mode * 2 ^ 21 + b2n n.pin * 2 ^ 20)
    ++ u32 n.depth ++ u32 n.children ++ zeros 4 ++ u64 n.pageFrame ++ u64 n.ctUsed ++ u64 n.ctPub

end Sys2Proof.Machine
end

