-- ==== Sys2Proof/Machine/Plinth.lean ====
section
/-! DEFINITION. Where sessions are: active slots, the parked directory, imports, their bytes and how a command finds them
(R54 to R65, 02; R98 to R101, 03; R387, 13). -/

namespace Sys2Proof.Machine

/-! ### Codes -/

/-- Session state codes (R63). -/
def SState.code : SState → Nat
  | .free => 0 | .admitted => 1 | .prefill => 2 | .decode => 3 | .toolwait => 4 | .parking => 5 | .parked => 6
  | .raising => 7 | .migratingOut => 8 | .migratingIn => 9 | .stopped => 10 | .faulted => 11 | .retiring => 12

/-- DSTATE codes (R100), which are also the columns of the DIRECTORY ledger. -/
def DState.code : DState → Nat
  | .unused => 0 | .active => 1 | .parked => 2 | .claimed => 3 | .exported => 4 | .retiring => 5

/-- Flag bit `i` of a session (R60). -/
def sflag (f : BitVec 32) (i : Nat) : Bool := bit f.toNat i
def setFlag (f : BitVec 32) (i : Nat) (v : Bool) : BitVec 32 :=
  if sflag f i = v then f else f ^^^ BitVec.ofNat 32 (2 ^ i)

namespace Fl
def armed : Nat := 0
def rebind : Nat := 1
def yellow : Nat := 2
def prefixBound : Nat := 3
def firstSent : Nat := 4
def utf8Reject : Nat := 5
def flushDrop : Nat := 6
def sparse : Nat := 7
def narrowDeny : Nat := 8
def castMode : Nat := 9
def spec : Nat := 10
def autoCast : Nat := 11
/-- Bits that SESSION_ADMIT may set, and that SESSION_SET may change (R60). -/
def atAdmit : Nat := 0xFE0
def bySet : Nat := 0x940
end Fl

/-- The deadline or ct that means none. -/
def never : Nat := ones64

/-! ### Session IDs (R54) -/

def homeOf (id : Nat) : Nat := id / 2 ^ 61
def serialOf (id : Nat) : Nat := id / 2 ^ 24 % 2 ^ 37
def indexOf (id : Nat) : Nat := id % 2 ^ 24
def mkId (home serial index : Nat) : Nat := home * 2 ^ 61 + serial * 2 ^ 24 + index

/-! ### Entries as bytes (R58, R59, R99, R100) -/

/-- `ctl` of an active entry (R59). -/
def ctlWord (stop slot prio part low : Nat) : Nat := stop * 2 ^ 24 + slot * 2 ^ 18 + prio * 2 ^ 15 + part * 2 ^ 8 + low

/-- `held_bytes` (R61). -/
def heldWord (h : Bytes) : Nat := (leVal (h.take 3)) * 256 + min h.length 3

/-- `grammar_state` (R248). -/
def grammarWord (x : Session) : Nat :=
  x.grammarDepth * 2 ^ 56 + b2n (x.grammarImage ≠ 0xFFFF) * 2 ^ 24 + x.grammarState

/-- The 256-byte active entry (R58). -/
def entryBytes (x : Session) : Bytes :=
  fit 256 (u64 x.id ++ u32 (ctlWord x.stopReason x.modelSlot x.priority x.partition x.st.code) ++ u16 x.cls ++ u16 x.faultCode
    ++ u32 x.flags.toNat ++ u16 x.tableGen ++ u16 x.grammarImage ++ u32 (x.specLength * 2 ^ 24 + x.length)
    ++ u16 x.windowPages ++ u16 x.globalCount ++ u64 x.deadline ++ u64 x.pdirAddr ++ u64 x.journalAddr
    ++ u64 (grammarWord x) ++ u64 x.rngSeed ++ u32 x.credit ++ u32 x.stopSet ++ u64 x.streamTarget
    ++ u32 (heldWord x.held) ++ u32 x.maxLength ++ u32 x.maxNew ++ u32 x.newTokens ++ u64 x.ctAdmit ++ u64 x.ctFirst
    ++ u64 x.ctLast ++ u64 x.ctToolwait ++ u64 x.castAfter ++ u32 x.armChain ++ u32 (sat 32 x.stepCount)
    ++ u32 x.prefillPos ++ u32 x.prefixLen ++ u32 (sat 32 x.raiseCount) ++ u16 x.pendingGen ++ u16 0 ++ u64 x.stopCt)

/-- The 128-byte directory entry (R99). -/
def dirBytes (e : DirEntry) : Bytes :=
  fit 128 (u64 e.id ++ u32 (ctlWord e.stopReason e.modelSlot e.priority e.partition (e.resume.code * 16 + e.dstate.code))
    ++ u16 e.cls ++ u16 (e.flags.toNat % 4096) ++ u16 e.tableGen ++ u16 e.grammarImage ++ u32 e.length ++ u32 e.credit
    ++ u32 e.armChain ++ u64 e.deadline ++ u64 e.ctCast ++ u64 e.imageLoc ++ u32 e.imageBytes ++ u32 e.imageCrc
    ++ u32 (e.castTier * 2 ^ 14 + e.narrow * 2 ^ 12 + b2n e.winNarrowed * 2 ^ 11)
    ++ u32 (b2n e.provisional * 2 ^ 19 + e.activeChip * 2 ^ 16 + e.activeSlot) ++ u32 e.pagesCast ++ u32 (sat 32 e.castGen)
    ++ u64 e.ckptCut ++ u64 e.exportPeer)

/-- An UNUSED index: every field at its Reset value (R99). -/
def unusedDir : DirEntry := { id := 0, dstate := .unused, resume := .free }

/-! ### Slots -/

def slotCount : Nat := 65536
def dirCount : Nat := 16777216

/-- The slot that holds a session. -/
def slotOf (s : State) (id : Nat) : Option Nat := (s.pln.slots.find? (fun e => e.2.id = id)).map (·.1)

/-- A session's active entry. -/
def getSess (s : State) (id : Nat) : Option Session := (s.pln.slots.find? (fun e => e.2.id = id)).map (·.2)

/-- Changes a session's active entry. -/
def modSess (id : Nat) (f : Session → Session) (s : State) : State :=
  { s with pln := { s.pln with slots := s.pln.slots.map (fun e => if e.2.id = id then (e.1, f e.2) else e) } }

/-- Free active slots (R87). -/
def slotsFree (s : State) : Nat := slotCount - s.pln.slots.length

/-- Slots that raises hold while another chip answers their claims (R109). -/
def heldSlots (s : State) : List Nat :=
  s.fdy.ops.filterMap (fun e => if e.2.kind = .raise && e.2.claim.isNone then e.2.slot else none)

/-- The slot that the `k`-th allocation of an event takes: the first free one at or after `choice[k]`. -/
def pickSlot (m : Moment) (k : Nat) (s : State) : Option Nat :=
  let held := heldSlots s
  freeFrom (fun i => thas s.pln.slots i || held.contains i) slotCount (s.pln.slots.length + held.length + 1)
    (m.choice.getD k 0 % slotCount)

/-- Column of the SLOT ledger for a slot in a state (R305). -/
def slotCol : SState → Nat
  | .raising => 2
  | .migratingIn => 2
  | _ => 1

/-- Puts a session into a slot; its posting is FREE to LIVE or PENDING (R306). -/
def takeSlot (slot : Nat) (x : Session) (s : State) : State :=
  move Lg.slot 0 0 (slotCol x.st) 1 1 x.id { s with pln := { s.pln with slots := tset s.pln.slots slot x } }

/-- Frees a session's slot (R306). -/
def freeSlot (id : Nat) (s : State) : State :=
  match s.pln.slots.find? (fun e => e.2.id = id) with
  | none => s
  | some (slot, x) =>
    move Lg.slot 0 (slotCol x.st) 0 1 1 id { s with pln := { s.pln with slots := tdel s.pln.slots slot } }

/-- Sets a session's STATE; a change between RAISING or MIGRATING_IN and the other states is posted (R306). -/
def setState (id : Nat) (st : SState) (s : State) : State :=
  match getSess s id with
  | none => s
  | some x =>
    let s := modSess id (fun x => { x with st }) s
    if slotCol x.st = slotCol st then s else move Lg.slot 0 (slotCol x.st) (slotCol st) 1 1 id s

/-! ### The directory and the import table -/

/-- Free directory indices (R87). -/
def dirFree (s : State) : Nat := dirCount - s.pln.dir.length

/-- A session's entry in this chip's directory. -/
def dirAt (s : State) (id : Nat) : Option DirEntry :=
  match tget s.pln.dir (indexOf id) with
  | some e => if e.id = id then some e else none
  | none => none

/-- A session's entry in the import table (R122). -/
def importAt (s : State) (id : Nat) : Option (Nat × DirEntry) := s.fdy.imports.find? (fun e => e.2.id = id)

/-- A session's directory entry on this chip: the import table is asked first (R122). -/
def getDir (s : State) (id : Nat) : Option DirEntry :=
  match importAt s id with
  | some e => some e.2
  | none => dirAt s id

/-- Whether traffic with a chip can pass (R388). -/
def linkUp (s : State) (c : Nat) : Bool :=
  (getLink s (linkTo s c)).up

/-- Writes a session's directory entry: here, in the import table, or at its home chip by a message on VC0 (R101, R388). A
change of DSTATE in this chip's directory is posted (R305). -/
def setDir (id : Nat) (e : DirEntry) (s : State) : State :=
  match importAt s id with
  | some (k, _) => { s with fdy := { s.fdy with imports := tset s.fdy.imports k e } }
  | none =>
    match dirAt s id with
    | some d =>
      let s := { s with pln := { s.pln with dir := tset s.pln.dir (indexOf id) e } }
      if d.dstate = e.dstate then s else move Lg.directory 0 d.dstate.code e.dstate.code 1 2 id s
    | none =>
      if homeOf id = chip s then s
      else sendSwl (.swilan (linkTo s (homeOf id)) 0 1 id [e.dstate.code, e.activeChip, e.activeSlot] (dirBytes e)) s

/-- Changes a session's directory entry where it is held on this chip. -/
def modDir (id : Nat) (f : DirEntry → DirEntry) (s : State) : State :=
  match getDir s id with
  | some e => setDir id (f e) s
  | none => s

/-- Writes a new entry at a free index (R101). -/
def newDir (id : Nat) (e : DirEntry) (s : State) : State :=
  move Lg.directory 0 0 e.dstate.code 1 2 id { s with pln := { s.pln with dir := tset s.pln.dir (indexOf id) e } }

/-- Frees a session's directory index, or its import-table entry (R101). -/
def freeDir (id : Nat) (s : State) : State :=
  match importAt s id with
  | some (k, _) => { s with fdy := { s.fdy with imports := tdel s.fdy.imports k } }
  | none =>
    match dirAt s id with
    | some d => move Lg.directory 0 d.dstate.code 0 1 2 id { s with pln := { s.pln with dir := tdel s.pln.dir (indexOf id) } }
    | none =>
      if homeOf id = chip s then s
      else sendSwl (.swilan (linkTo s (homeOf id)) 0 1 id [DState.unused.code, 0, 0] []) s

/-- A twin pair's shadow: an entry of this chip's directory that names another home (R394). -/
def isShadow (s : State) (id : Nat) : Bool := homeOf id ≠ chip s && (dirAt s id).isSome && (importAt s id).isNone

/-! ### How a command finds a session (R57, R122, R387) -/

/-- A session that this chip holds. -/
inductive Held where
  | active (x : Session)
  | parked (e : DirEntry)
  deriving DecidableEq, Repr

/-- Where a session is, as this chip sees it: here, on another chip of the board, or nowhere (with the completion's `detail`). -/
inductive Loc where
  | here (h : Held)
  | away (c : Nat)
  | gone (detail : Nat)
  deriving DecidableEq, Repr

/-- Status SESSION_GONE and LINK_DOWN (R57, R388). -/
def stGone : Nat := 0x0104
def stLinkDown : Nat := 0x0205
def stWrong : Nat := 0x0101

/-- A directory entry as a place. A session that a run-ahead has claimed is still parked here (R114). -/
def dirLoc (r : Req) (s : State) (e : DirEntry) : Loc :=
  if !r.reaches e.partition then .gone 0
  else
    match e.dstate with
    | .parked => .here (.parked e)
    | .claimed => if e.activeChip = chip s || e.provisional then .here (.parked e) else .away e.activeChip
    | .active => if e.activeChip = chip s then .gone 0 else .away e.activeChip
    | .exported => .gone 1
    | _ => .gone 0

/-- The directory entry of a session that its cast image on this chip spells, while the entry itself lies at its home (R99, R101). -/
def imageDir (x : Session) (t : Store) (s : State) : DirEntry :=
  { id := x.id, dstate := .parked, resume := x.prior, partition := x.partition, modelSlot := x.modelSlot, priority := x.priority
    stopReason := x.stopReason, cls := x.cls, flags := x.flags, tableGen := x.tableGen, grammarImage := x.grammarImage
    length := x.length, credit := x.credit, imageLoc := chip s * 2 ^ 61 + t.imageAddr, imageBytes := t.imageSize, castGen := t.castGen }

/-- Where a session is that this chip's tables do not name: a home chip's forwarded request finds its cast image here (R387). -/
def locateAway (r : Req) (s : State) (id : Nat) : Loc :=
  if homeOf id = chip s then .gone 0
  else
    match r.src, (getStore s id).image with
    | .forwarded _ _ _, some x => if r.reaches x.partition then .here (.parked (imageDir x (getStore s id) s)) else .gone 0
    | _, _ => .away (homeOf id)

/-- Where the session that a request names is. -/
def locate (r : Req) (s : State) (id : Nat) : Loc :=
  if id = 0 then .gone 0
  else if isShadow s id && r.src ≠ .mirrored then .away (homeOf id)
  else
    match getSess s id with
    | some x => if r.reaches x.partition then .here (.active x) else .gone 0
    | none =>
      match getDir s id with
      | some e => dirLoc r s e
      | none => locateAway r s id

/-- Sends a request to another chip on VC0; its number (R387). -/
def swlAsk (c : Nat) (w : SwlWait) (code tag : Nat) (vals : List Nat) (data : Bytes) (s : State) : State :=
  let l := linkTo s c
  let n := s.swl.nextReq
  sendSwl (.swilan l 0 code tag (n :: vals) data)
    { s with swl := { s.swl with nextReq := n + 1, reqs := tset s.swl.reqs n { link := l, wait := w } } }

/-- The data that go with a forwarded command: an append's bytes or tokens in a scatter list (R387). -/
def forwardData (r : Req) (s : State) : Except SgErr Bytes :=
  if r.f 8 1 = 0 then
    if r.hdr.opcode = 0x0101 then inData r (r.f 0x0C 4) s
    else if r.hdr.opcode = 0x0102 then inData r (4 * r.f 0x0C 4) s
    else .ok []
  else .ok []

/-- Forwards a command to the chip that holds its session, or fails with LINK_DOWN (R387, R388). -/
def forwardTo (c : Nat) (r : Req) (s : State) : Reply :=
  if !linkUp s c then .err s stLinkDown
  else
    match forwardData r s with
    | .error e => .sg r s e
    | .ok d =>
    asOp r s 0 0 0 false [c] fun n s =>
      bump .swlForwards r.part16 1
        (swlAsk c (.forwarded r n) 2 n [r.hdr.opcode, r.fn, r.hdr.partition] (if d.isEmpty then r.payload else fit 3968 r.payload ++ d) s)

/-- Runs `k` on the session that the request names at offset 0 of its payload. -/
def onSession (r : Req) (s : State) (k : Nat → Held → Reply) : Reply :=
  let id := r.f 0 8
  match locate r s id with
  | .here h => k id h
  | .away c =>
    match r.src with
    | .mirrored => .err s stGone
    | .device _ => .err s stGone
    | .forwarded _ _ _ => if homeOf id = chip s then forwardTo c r s else .err s stGone
    | _ => forwardTo c r s
  | .gone d => .err s stGone d

/-- The chip that holds a parked session's image, journal and records. -/
def imageChip (e : DirEntry) : Nat := e.imageLoc / 2 ^ 61

/-- Runs `k` on the session that the request names, where its journal and records are: those of a parked session lie with its cast
image, and a home chip forwards the request there (R79, R103, R387). -/
def onStore (r : Req) (s : State) (k : Nat → Held → Reply) : Reply :=
  onSession r s fun id h =>
    match h with
    | .active _ => k id h
    | .parked e =>
      if imageChip e = chip s then k id h
      else
        match r.src with
        | .mirrored => .err s stGone
        | .device _ => .err s stGone
        | _ => forwardTo (imageChip e) r s

/-- A session's partition. -/
def Held.part : Held → Nat
  | .active x => x.partition
  | .parked e => e.partition

/-- Whether a session is FAULTED. -/
def Held.faulted : Held → Bool
  | .active x => x.st = .faulted
  | .parked _ => false

/-- A step boundary: nothing in flight (R64). -/
def atBoundary (x : Session) : Bool := x.inflight.isNone

/-- Records a change that waits for the step boundary (R66). -/
def addWaiting (id : Nat) (r : Req) (s : State) : State := modSess id (fun x => { x with waiting := x.waiting ++ [r] }) s

/-- Counts an event that R65 discards. -/
def refuse (p : Nat) (s : State) : State := bump .plnRefused p 1 s

/-- Session logs. -/
def noteSess (code sev : Nat) (x : Session) (info : List Nat) (s : State) : State :=
  note code sev x.partition x.id info s

end Sys2Proof.Machine
end

