-- ==== Sys2Proof/Machine/Alloc.lean ====
section
/-! DEFINITION. The descriptor store, Foundry operations, the cancelling of run-aheads, and frame allocation under pressure
(R93 to R97, R114 to R116, 03; R137, 04). -/

namespace Sys2Proof.Machine

/-! ### Device-fatal errors (R505) -/

/-- A chip that enters FROZEN tells the primaries of the pairs in which it is the secondary (R400). -/
def tellPrimaries (s : State) : State :=
  s.twn.pairs.foldl (fun s e =>
    if e.2.secondary && e.2.tstate = .locked then sendSwl (.swilan (linkTo s e.2.peer) 3 15 e.1 [2] []) s else s) s

/-- A device-fatal error: the first one freezes the device and asserts ALERT_N, each is counted. -/
def freeze (cause : Nat) (s : State) : State :=
  let s := if s.err.fatals = 0 then tellPrimaries s else s
  { s with
    bench := { s.bench with devState := .frozen }
    elec := { s.elec with alert := true }
    err := { s.err with fatals := s.err.fatals + 1, fatalCause := if s.err.fatals = 0 then cause else s.err.fatalCause } }

/-- A device-fatal error other than LEDGER_BREACH: the first logs DEVICE_FATAL with the status and the failing unit. -/
def deviceFatal (cause unit : Nat) (s : State) : State :=
  let t := freeze cause s
  if s.err.fatals = 0 then note 0x0F04 3 0xFF 0 [cause, unit] t else t

/-- Changes the error unit. -/
def modErr (f : Errors → Errors) (s : State) : State := { s with err := f s.err }

/-- The `info` of UE_CONTAINED: tier and channel as u32, then address, owner kind and owner (log entry 14). -/
def ueInfo (tier chan addr kind owner : Nat) : Bytes := u32 tier ++ u32 chan ++ u64 addr ++ u64 kind ++ u64 owner

/-- A contained error is counted, logged and kept in the history: the kind and the identifier of its owner, and its partition (R503). -/
def ueLog (kind owner part : Nat) (a : UeAt) (s : State) : State :=
  let rec_ : UeRec := { ct := s.ct, tier := a.tier, chan := a.chan, addr := a.addr, kind, owner, status := 0x0F03 }
  logEvent { code := 0x0F03, sev := 2, part, info := ueInfo a.tier a.chan a.addr kind owner }
    (modErr (fun e => { e with ueCount := e.ueCount + 1, ueHist := (rec_ :: e.ueHist).take 16 }) s)

/-! ### The descriptor store -/

/-- Descriptors that wait in the store (R124). -/
def storeDepth (s : State) : Nat := (s.fdy.store.filter (fun e => e.2.engine.isNone)).length

/-- Adds a descriptor to the store; its number is the next one. -/
def addDesc (d : Desc) (s : State) : State :=
  let n := s.fdy.nextDesc
  move Lg.descriptor 0 0 1 1 2 d.session
    { s with fdy := { s.fdy with store := tset s.fdy.store n d, nextDesc := n + 1 } }

/-- Takes a descriptor out of the store unfinished: discarded if it is in flight (R307). -/
def dropDesc (n : Nat) (s : State) : State :=
  match tget s.fdy.store n with
  | none => s
  | some d =>
    let s := { s with fdy := { s.fdy with store := tdel s.fdy.store n } }
    match d.engine with
    | none => move Lg.descriptor 0 1 0 1 2 d.session s
    | some _ => post [⟨Lg.descriptor, 0, [(2, -1), (3, -(d.length : Int)), (6, 1)]⟩] 2 d.session s

/-- Numbers of an operation's descriptors. -/
def descsOf (s : State) (fop : Nat) : List Nat := tfind s.fdy.store (fun d => d.fop = fop)

/-- Discards every descriptor of an operation. -/
def dropDescs (fop : Nat) (s : State) : State := (descsOf s fop).foldl (fun s n => dropDesc n s) s

/-! ### Foundry operations -/

def getFop (s : State) (n : Nat) : Option Fop := tget s.fdy.ops n
def setFop (n : Nat) (f : Fop) (s : State) : State := { s with fdy := { s.fdy with ops := tset s.fdy.ops n f } }
def delFop (n : Nat) (s : State) : State := { s with fdy := { s.fdy with ops := tdel s.fdy.ops n } }

/-- Starts an operation: its number and the state. -/
def newFop (f : Fop) (s : State) : Nat × State :=
  let n := s.fdy.nextFop
  (n, { s with fdy := { s.fdy with ops := tset s.fdy.ops n f, nextFop := n + 1 } })

/-- The operation of one of some kinds that works on a session. -/
def fopOf (s : State) (id : Nat) (kinds : List FopKind) : Option (Nat × Fop) :=
  s.fdy.ops.find? (fun e => e.2.session = id && kinds.contains e.2.kind)

/-- Run-aheads now running (R124). -/
def runAheads (s : State) : List Nat := tfind s.fdy.ops (fun f => f.kind = .runAhead)

/-- Casts, raises and migrations now running (R123). -/
def moveOps (s : State) : Nat :=
  (s.fdy.ops.filter (fun e => [FopKind.cast, .raise, .migrate, .exportEth].contains e.2.kind)).length

/-- The directory entry of a claim that is given back (R101, R116). -/
def unclaim (e : DirEntry) : DirEntry :=
  { e with dstate := .parked, provisional := false, activeChip := 0, activeSlot := 0 }

/-- The directory entry of a claimed session, as this chip sees it. -/
def claimOf (s : State) (f : Fop) : DirEntry := ((getDir s f.session).orElse (fun _ => f.claim)).getD { id := f.session }

/-- A claim is given back: here, or by a message to the session's home chip (R101, R388). -/
def giveBack (id : Nat) (s : State) : State :=
  match getDir s id with
  | some e => setDir id (unclaim e) s
  | none => if homeOf id = chip s then s else sendSwl (.swilan (linkTo s (homeOf id)) 0 1 id [DState.parked.code, 0, 0] []) s

/-- A claim becomes ACTIVE in a slot of this chip: here, or by a message to the session's home chip (R101). -/
def makeActive (id slot : Nat) (s : State) : State :=
  setDir id { (getDir s id).getD { id } with dstate := .active, provisional := false, activeChip := chip s, activeSlot := slot } s

/-- Releases the frames that an operation reserved and did not publish. -/
def dropFresh (f : Fop) (col : Nat) (s : State) : State :=
  f.fresh.foldl (fun s e =>
    if !e.2.here s then s
    else if f.posted.contains e.1 then dropHolder e.2.tier e.2.addr hEntry f.session s
    else unreserveFrame e.2.tier e.2.addr col f.session s) s

/-- Releases the frames that an operation has replaced. -/
def dropOld (f : Fop) (s : State) : State := f.old.foldl (fun s e => dropPte e f.session s) s

/-- What a claim brought of a session whose cast image lies on another chip goes with the claim (R112, R116): this chip keeps the frames
that it holds for the session, and its journal blocks. -/
def dropBrought (id : Nat) (s : State) : State :=
  let t := getStore s id
  if t.image.isSome || !thas s.pln.store id then s
  else
    let ptes := t.pages.ptes.filter (fun e => e.2.here s)
    let blocks := t.blocks.filter (fun e => !thas t.blockChips e.1)
    if ptes.isEmpty && blocks.isEmpty && (t.recFrame = 0 || t.recChip.isSome) then
      { s with pln := { s.pln with store := tdel s.pln.store id } }
    else setStore id { t with blocks, blockChips := [], pages := { t.pages with ptes, dirFrames := [], segs := [] } } s

/-- Releases the journal blocks and the record frame that this chip holds of a session. -/
def dropJournal (id : Nat) (s : State) : State :=
  let t := getStore s id
  let s := (t.blocks.filter (fun b => !thas t.blockChips b.1)).foldl (fun s b => dropHolder 1 b.2 hEntry id s) s
  if t.recFrame = 0 || t.recChip.isSome then s else dropHolder 1 t.recFrame hEntry id s

/-- The other chips, but for the home, that hold journal blocks or records of a session (R79). -/
def journalChips (s : State) (id : Nat) : List Nat :=
  let t := getStore s id
  ((t.blockChips.map (·.2) ++ t.recChip.toList).eraseDups).filter (fun c => c ≠ chip s && (c ≠ homeOf id || homeOf id = chip s))

/-- Cancels a run-ahead: every effect that another unit can see is reversed (R116). -/
def cancelRunAhead (n cause : Nat) (s : State) : State :=
  match getFop s n with
  | none => s
  | some f =>
    let s := dropFresh f fProvisional (dropDescs n s)
    let s := dropBrought f.session (giveBack f.session (delFop n s))
    let s := { s with gau := { s.gau with
      abandonedBytes := s.gau.abandonedBytes + f.bytes, abandonedFrames := s.gau.abandonedFrames + f.fresh.length } }
    let s := bump .gauAbandonedBytes f.partition f.bytes (bump .gauAbandonedFrames f.partition f.fresh.length s)
    let s := note 0x0204 0 f.partition f.session [cause, f.bytes] (bump .fdyRunCancels f.partition 1 s)
    endOp f.op St.cancelled 0 [] s

/-- Cancels run-aheads one after another while `want` holds. -/
def cancelWhile (want : State → Bool) : List Nat → State → State
  | [], s => s
  | n :: ns, s => if want s then cancelWhile want ns (cancelRunAhead n 2 s) else s

/-! ### Allocation (R137) -/

/-- Whether a pool is configured and has no free frame. -/
def poolEmpty (id : PoolId) (s : State) : Bool :=
  match getPool s id with
  | some x => (freeAddrs s x).isEmpty
  | none => false

/-- Run-aheads that hold a provisional frame of a pool (R116). -/
def holdersOf (id : PoolId) (s : State) : List Nat :=
  (runAheads s).filter (fun n => ((getFop s n).map (·.fresh)).any (fun l => l.any (fun e =>
    e.2.here s && (tget s.frames.frames (frameKey e.2.tier e.2.addr)).any (fun x => x.pool = id))))

/-- Frees frames of a pool in the order of R137, so far as it can: eviction, then the run-aheads that hold frames of it (R116). -/
def makeRoom (id : PoolId) (s : State) : State :=
  if poolEmpty id s then
    let s := evict id.partition 2 (poolEmpty id) s
    cancelWhile (poolEmpty id) (holdersOf id s) s
  else s

/-- What an allocation that fails has not found: a frame of a pool, or room in a composed range or for an image. -/
abbrev Lack := Option PoolId

/-- What an allocation has freed before it fails for want of a frame: every leaf that may be evicted, and every run-ahead that holds a
frame of the pool (R137). What it had taken itself is given back. -/
def starve (l : Lack) (s : State) : State :=
  match l with
  | none => s
  | some id =>
    if (getPool s id).isNone then s
    else
      let s := evict id.partition 2 (fun _ => true) s
      cancelWhile (fun _ => true) (holdersOf id s) s

/-- Reserves a frame, freeing frames where the pool is empty. -/
def allocFrame (m : Moment) (k : Nat) (id : PoolId) (col session : Nat) (s : State) : Except Lack (Nat × State) :=
  match reserveFrame m k id col session (makeRoom id s) with
  | some x => .ok x
  | none => .error (some id)

/-- Takes a frame for a holder at once, freeing frames where the pool is empty. -/
def grabFrame (m : Moment) (k : Nat) (id : PoolId) (kind session : Nat) (s : State) : Except Lack (Nat × State) :=
  match takeFrame m k id kind session (makeRoom id s) with
  | some x => .ok x
  | none => .error (some id)

/-- A new holder of a frame: the frame itself, or at the highest count a private copy in a new frame of its pool (R140). -/
def shareFrame (m : Moment) (k : Nat) (tier addr kind session : Nat) (s : State) : Except Lack (Nat × State) :=
  match tget s.frames.frames (frameKey tier addr) with
  | none => .error none
  | some f =>
    if f.refs < 0xFFFFFF then .ok (addr, addHolder tier addr kind session s)
    else
      match grabFrame m k f.pool kind session s with
      | .error l => .error l
      | .ok (a, s) =>
        let s := bump .frmRefSaturated f.pool.partition 1 (copyFrame tier addr tier a (frameSize f.pool) s)
        let key := frameKey tier addr
        if s.frames.satLogged.contains key then .ok (a, s)
        else
          let s := { s with frames := { s.frames with satLogged := s.frames.satLogged ++ [key] } }
          .ok (a, note 0x0302 0 f.pool.partition session [tier, chip s, addr / 8192] s)

/-- The first of `n` free table frames one after another in address (R131). -/
def tableRun (s : State) (p n : Nat) : Option Nat :=
  match getPool s (tablePool p) with
  | none => none
  | some x =>
    let free := freeAddrs s x
    free.find? (fun a => (List.range n).all (fun i => free.contains (a + 2048 * i)))

/-- Takes `n` table frames one after another in address, freeing frames where there are none (R131, R137). -/
def takeRun (p n session : Nat) (s : State) : Except Lack (List Nat × State) :=
  let none? (s : State) : Bool := (tableRun s p n).isNone
  let s := if none? s && (getPool s (tablePool p)).isSome then evict p 2 none? s else s
  match tableRun s p n with
  | none => .error (some (tablePool p))
  | some a =>
    .ok ((List.range n).map (fun i => a + 2048 * i), (List.range n).foldl (fun s i =>
      let s := { s with frames := { s.frames with
        frames := tset s.frames.frames (frameKey 1 (a + 2048 * i)) { pool := tablePool p, refs := 1 } } }
      post [⟨Lg.frame, poolInst (tablePool p), [(0, -1), (fAllocated, 1)]⟩,
        ⟨Lg.reference, poolInst (tablePool p), [(0, 1), (hEntry, 1), (5, 1)]⟩] 3 session s) s)

/-- Resolution of a handle for a session: references on every page of the path, entries written, the path's `ct_used` set
(R148), and counted as a lookup that hit (R155; log entry 60). It fails when a reference needs a copy that gets no frame (R140). -/
def resolvePrefix (m : Moment) (id p i : Nat) (s : State) : Except Lack State :=
  let path := (pathUp s p 4096 i).reverse
  let step : Except Lack State := path.zipIdx.foldl (fun acc x =>
    (getNode s p x.1).pages.zipIdx.foldl (fun acc y =>
      match acc with
      | .error l => .error l
      | .ok s =>
        match shareFrame m 0 y.1.tier y.1.addr hEntry id s with
        | .error l => .error l
        | .ok (a, s) =>
          let e := if a = y.1.addr then y.1 else { pteOf s y.1.tier y.1.enc a with shared := false }
          .ok (setPte id y.2 x.2 e s)) acc) (.ok s)
  match step with
  | .error l => .error l
  | .ok s =>
    .ok (touchNodes p path (modStore id (fun x => { x with path := path, pathGen := (getNode s p i).gen })
      (bump .ptnLookups p 1 (bump .ptnHits p 1 s))))

/-- The pool that a new page frame of a class comes from (R137). -/
def newPagePool (s : State) (p cls : Nat) : PoolId :=
  let t0 : PoolId := { partition := p, tier := 0, pclass := cls, enc := 0 }
  match getPool s t0 with
  | some x => if (freeAddrs s x).isEmpty then { t0 with tier := 1 } else t0
  | none => { t0 with tier := 1 }

/-- Takes a journal frame (R78, R136). -/
def grabJournal (m : Moment) (k p session : Nat) (s : State) : Except Lack (Nat × State) :=
  grabFrame m k (journalPool p) hEntry session s

/-- Takes a table frame. -/
def grabTable (m : Moment) (k p session : Nat) (s : State) : Except Lack (Nat × State) :=
  grabFrame m k (tablePool p) hEntry session s

/-- The segments of R130 that block `b` needs in every layer group and that are not allocated. -/
def missingSegs (t : PageTables) (b : Nat) : List Nat :=
  ((List.range t.lgCount).map (fun g => g * 16 + b / 256)).filter (fun k => !thas t.segs k)

/-- Allocates segments of a session's block lists. -/
def takeTables (m : Moment) (id p : Nat) (l : List Nat) (s : State) : Except Lack State :=
  l.foldl (fun acc k =>
    match acc with
    | .error l => .error l
    | .ok s =>
      match grabTable m k p id s with
      | .error l => .error l
      | .ok (a, s) =>
        .ok (modStore id (fun x => { x with pages := { x.pages with segs := tset x.pages.segs k a } }) s)) (.ok s)

/-- Allocates the segments that block `b` needs (R130, R138). -/
def takeSegs (m : Moment) (id p b : Nat) (s : State) : Except Lack State :=
  takeTables m id p (missingSegs (getStore s id).pages b) s

/-- Logs PAGE_WAIT once for each session and each episode (R137). -/
def pageWait (id tier cls : Nat) (s : State) : State :=
  match getSess s id with
  | none => s
  | some x =>
    if x.pageWait then s
    else noteSess 0x0301 1 x [tier, cls] (modSess id (fun x => { x with pageWait := true }) s)

/-- Makes a session's COW page at block `b` of layer group `g` its own (R141), if a frame can be had. -/
def cowCopy (m : Moment) (id g b : Nat) (s : State) : Except Lack State :=
  let e := getPte s id g b
  match tget s.frames.frames (frameKey e.tier e.addr) with
  | none => .ok s
  | some f =>
    match allocFrame m 0 f.pool fReserved id s with
    | .error l => .error l
    | .ok (a, s) =>
      let s := copyFrame e.tier e.addr e.tier a (frameSize f.pool) s
      let s := setPte id g b (pteOf s e.tier e.enc a) (publishFrame e.tier a fReserved hEntry id s)
      .ok (dropPte e id s)

end Sys2Proof.Machine
end

