-- ==== Sys2Proof/Machine/Fp.lean ====
section
/-! DEFINITION. Number formats, exact products and sums, rounding and conversion, bit by bit (R163 to R173, 05). -/

namespace Sys2Proof.Machine

/-- A value of a floating-point format: m × 2^e with a sign, an infinity or NaN. -/
inductive Fv where
  | nan
  | inf (neg : Bool)
  | fin (neg : Bool) (m : Nat) (e : Int)
  deriving DecidableEq, Repr

namespace Fv

def zero : Fv := .fin false 0 0

/-- The signed integer m × 2^(e − q) of a finite value, for q ≤ e. -/
def scaled (neg : Bool) (m : Nat) (e q : Int) : Int :=
  let v : Int := m * 2 ^ (e - q).toNat
  if neg then -v else v

/-- Exact product; infinity times zero is invalid (R167, R168). -/
def mul : Fv → Fv → Fv
  | .fin a m e, .fin b n f => .fin (a != b) (m * n) (e + f)
  | .nan, _ => .nan
  | _, .nan => .nan
  | .inf a, .inf b => .inf (a != b)
  | .inf a, .fin b n _ => if n = 0 then .nan else .inf (a != b)
  | .fin a m _, .inf b => if m = 0 then .nan else .inf (a != b)

/-- Exact sum; a zero sum is −0 only of two negative zeros. -/
def add : Fv → Fv → Fv
  | .fin a m e, .fin b n f =>
    let q := min e f
    let v := scaled a m e q + scaled b n f q
    .fin (if v = 0 then a && b && m = 0 && n = 0 else decide (v < 0)) v.natAbs q
  | .nan, _ => .nan
  | _, .nan => .nan
  | .inf a, .inf b => if a = b then .inf a else .nan
  | .inf a, _ => .inf a
  | _, .inf b => .inf b

/-- Negation. -/
def neg : Fv → Fv
  | .nan => .nan
  | .inf a => .inf (!a)
  | .fin a m e => .fin (!a) m e

/-- Exact sum of a list (R167). -/
def sum (l : List Fv) : Fv := l.foldl add zero

/-- Strictly less, for values that are not NaN. -/
def lt : Fv → Fv → Bool
  | .fin a m e, .fin b n f => let q := min e f; decide (scaled a m e q < scaled b n f q)
  | .inf a, .inf b => a && !b
  | .inf a, .fin _ _ _ => a
  | .fin _ _ _, .inf b => !b
  | _, _ => false

end Fv

/-- m / 2^k rounded to the nearest integer, ties to even. -/
def rneShift (m k : Nat) : Nat :=
  let q := m / 2 ^ k
  let r := 2 * (m % 2 ^ k)
  if 2 ^ k < r || (r = 2 ^ k && q % 2 = 1 && 0 < k) then q + 1 else q

/-- n / d rounded to the nearest integer, ties to even. -/
def rneDiv (n d : Nat) : Nat :=
  let q := n / d
  let r := 2 * (n % d)
  if d < r || (r = d && q % 2 = 1) then q + 1 else q

/-- A floating-point format: exponent and significand field widths, bias, and whether it has infinities and NaNs of IEEE 754. -/
structure FpFmt where
  ebits : Nat
  mbits : Nat
  bias  : Nat
  ieee  : Bool
  deriving DecidableEq, Repr

/-- m × 2^e rounded to a format: the encoded magnitude, before the check of overflow (R169). -/
def roundMag (f : FpFmt) (m : Nat) (e : Int) : Nat :=
  if m = 0 then 0
  else
    let top := e + Nat.log2 m
    let q := max (top - f.mbits) (1 - (f.bias : Int) - f.mbits)
    let v := if e ≤ q then rneShift m (q - e).toNat else m * 2 ^ (e - q).toNat
    -- v < 2^(mbits+1), or the next power of two, whose carry moves into the exponent field
    let eb := (q + f.mbits + f.bias - 1).toNat
    eb * 2 ^ f.mbits + v

/-- The magnitude of the largest finite value of a format; in E4M3 the code above it is NaN. -/
def maxMag (f : FpFmt) : Nat :=
  if f.ieee then (2 ^ f.ebits - 1) * 2 ^ f.mbits - 1
  else if f.ebits = 4 then 0x7E
  else 2 ^ (f.ebits + f.mbits) - 1

def fp4e2m1 : FpFmt := ⟨2, 1, 1, false⟩
def fp6e2m3 : FpFmt := ⟨2, 3, 1, false⟩
def fp6e3m2 : FpFmt := ⟨3, 2, 3, false⟩
def fp8e4m3 : FpFmt := ⟨4, 3, 7, false⟩
def fp8e5m2 : FpFmt := ⟨5, 2, 15, true⟩
def bf16 : FpFmt := ⟨8, 7, 127, true⟩
def fp16 : FpFmt := ⟨5, 10, 15, true⟩
def fp32 : FpFmt := ⟨8, 23, 127, true⟩

/-- The floating-point format of a code of R163. -/
def fmtOf : Nat → Option FpFmt
  | 0x2 => some fp4e2m1
  | 0x3 => some fp6e2m3
  | 0x4 => some fp6e3m2
  | 0x5 => some fp8e4m3
  | 0x6 => some fp8e5m2
  | 0x8 => some bf16
  | 0x9 => some fp16
  | 0xA => some fp32
  | _ => none

/-- Width in bits of an element of a format code (R163). -/
def fmtBits : Nat → Nat
  | 0x0 => 1
  | 0x1 => 4
  | 0x2 => 4
  | 0x3 => 6
  | 0x4 => 6
  | 0x5 => 8
  | 0x6 => 8
  | 0x7 => 8
  | 0x8 => 16
  | 0x9 => 16
  | _ => 32

/-- The value that a code word of a floating-point format spells (R163). -/
def fpDecode (f : FpFmt) (v : Nat) : Fv :=
  let sgn := bit v (f.ebits + f.mbits)
  let eb := v / 2 ^ f.mbits % 2 ^ f.ebits
  let mb := v % 2 ^ f.mbits
  if f.ieee && eb = 2 ^ f.ebits - 1 then (if mb = 0 then .inf sgn else .nan)
  else if !f.ieee && f.ebits = 4 && eb = 15 && mb = 7 then .nan
  else if eb = 0 then .fin sgn mb (1 - (f.bias : Int) - f.mbits)
  else .fin sgn (2 ^ f.mbits + mb) ((eb : Int) - f.bias - f.mbits)

/-- The value of an unscaled element of a format code (R163). -/
def elemDecode (code v : Nat) : Fv :=
  match fmtOf code with
  | some f => fpDecode f v
  | none =>
    let z : Int := if code = 0 then (if v % 2 = 1 then 1 else -1) else if code = 1 then toSigned 4 (v % 16) else toSigned 8 (v % 256)
    .fin (decide (z < 0)) z.natAbs 0

/-- Conversion to a floating-point format (R169); `sat` is the SAT bit. -/
def fpEncode (f : FpFmt) (sat : Bool) (x : Fv) : Nat :=
  let signBit := 2 ^ (f.ebits + f.mbits)
  let withSign (n : Bool) (v : Nat) := if n then signBit + v else v
  let infMag := (2 ^ f.ebits - 1) * 2 ^ f.mbits
  let nanMag := if f.ieee then infMag + 2 ^ (f.mbits - 1) else 0x7F
  match x with
  | .nan => nanMag
  | .inf n =>
    if f.ieee then withSign n (if sat && f.ebits + f.mbits ≠ 31 then maxMag f else infMag)
    else if f.ebits = 4 && !sat then nanMag
    else withSign n (maxMag f)
  | .fin n m e =>
    let v := roundMag f m e
    if maxMag f < v then
      withSign n (if f.ieee && !(sat && f.ebits + f.mbits ≠ 31) then infMag else maxMag f)
    else withSign n v

/-- A finite value rounded to an integer, ties to even (R169). -/
def toInteger (n : Bool) (m : Nat) (e : Int) : Int :=
  let v : Int := if 0 ≤ e then m * 2 ^ e.toNat else rneShift m (-e).toNat
  if n then -v else v

/-- Conversion to an unscaled element of any format code, and whether TILE_INT_NAN counts it (R169). -/
def elemEncode (code : Nat) (sat : Bool) (x : Fv) : Nat × Bool :=
  match fmtOf code with
  | some f => (fpEncode f sat x, false)
  | none =>
    if code = 0 then
      match x with
      | .nan => (1, true)
      | .inf n => (b2n (!n), false)
      | .fin n m _ => (b2n (!(n && m ≠ 0)), false)
    else
      let w := if code = 1 then 4 else 8
      let hi : Int := 2 ^ (w - 1) - 1
      let lo : Int := -(2 ^ (w - 1))
      match x with
      | .nan => (0, true)
      | .inf n => (ofSigned w (if n then lo else hi), false)
      | .fin n m e => (ofSigned w (max lo (min hi (toInteger n m e))), false)

/-! ### FP32 -/

/-- The value of an FP32 word. -/
def f32v (x : F32) : Fv := fpDecode fp32 x.toNat

/-- An exact value rounded to FP32 (R168). -/
def f32r (x : Fv) : F32 := BitVec.ofNat 32 (fpEncode fp32 false x)

def f32add (a b : F32) : F32 := f32r (Fv.add (f32v a) (f32v b))
def f32sub (a b : F32) : F32 := f32r (Fv.add (f32v a) (Fv.neg (f32v b)))
def f32mul (a b : F32) : F32 := f32r (Fv.mul (f32v a) (f32v b))
def f32lt (a b : F32) : Bool := Fv.lt (f32v a) (f32v b)
def f32nan (a : F32) : Bool := f32v a = .nan
def f32inf (a : F32) : Bool := match f32v a with | .inf _ => true | _ => false
def canonicalNan : F32 := 0x7FC00000

/-- The larger of two values that are not NaN. -/
def f32max (a b : F32) : F32 := if f32lt a b then b else a

/-- Reciprocal, correctly rounded (R171). -/
def f32recip (a : F32) : F32 :=
  match f32v a with
  | .nan => canonicalNan
  | .inf n => if n then 0x80000000 else 0
  | .fin n m e =>
    if m = 0 then (if n then 0xFF800000 else 0x7F800000)
    else
      -- 1/(m 2^e) = (2^k / m) 2^(-e-k), with a sticky bit below 60 quotient bits
      let k := Nat.log2 m + 60
      let q := 2 ^ k / m
      let v := 2 * q + (if 2 ^ k % m = 0 then 0 else 1)
      f32r (.fin n v (-e - (k : Int) - 1))

/-! ### exp2 and tanh, correctly rounded (R171)

Fixed-point series with `fpBits` fraction bits: every FP32 argument's exact result lies further than the series' error
from a rounding boundary (DEDUCED, log entry 21). -/

def fpBits : Nat := 256

/-- ln 2 in fixed point: the sum of 1 / (k 2^k). -/
def ln2Fix : Nat := ((List.range 260).map (fun k => 2 ^ fpBits / ((k + 1) * 2 ^ (k + 1)))).sum

/-- e^x in fixed point, for a fixed-point x ≥ 0: a Taylor sum of `n` terms from term `t` and index `k` on. -/
def expSeries (x : Nat) : Nat → Nat → Nat → Nat
  | 0, _, _ => 0
  | n + 1, k, t => t + expSeries x n (k + 1) (t * x / 2 ^ fpBits / (k + 1))

/-- e^x in fixed point. -/
def expFix (x : Nat) : Nat := expSeries x 200 0 (2 ^ fpBits)

/-- 2^x for an FP32 x. -/
def f32exp2 (a : F32) : F32 :=
  match f32v a with
  | .nan => canonicalNan
  | .inf n => if n then 0 else 0x7F800000
  | .fin n m e =>
    if m = 0 then 0x3F800000
    else if 8 ≤ e + Nat.log2 m then (if n then 0 else 0x7F800000)
    else
      -- x = i + f with 0 ≤ f < 1, f in fixed point
      let x : Int := if e < -(fpBits : Int) then 0 else m * 2 ^ (e + fpBits).toNat
      let x := if n then -x else x
      let i := x / 2 ^ fpBits
      let f := (x % 2 ^ fpBits).toNat
      let v := expFix (f * ln2Fix / 2 ^ fpBits)
      if f = 0 then f32r (.fin false 1 i)
      else f32r (.fin false (2 * v + 1) (i - fpBits - 1))

/-- tanh x for an FP32 x. -/
def f32tanh (a : F32) : F32 :=
  match f32v a with
  | .nan => canonicalNan
  | .inf n => if n then 0xBF800000 else 0x3F800000
  | .fin n m e =>
    if m = 0 || e + Nat.log2 m < -13 then a
    else if 4 ≤ e + Nat.log2 m then (if n then 0xBF800000 else 0x3F800000)
    else
      let y := 2 * m * 2 ^ (e + fpBits).toNat
      let v := expFix y
      let num := v - 2 ^ fpBits
      let den := v + 2 ^ fpBits
      f32r (.fin n (2 * (num * 2 ^ fpBits / den) + 1) (-(fpBits : Int) - 1))

/-! ### Reductions (R167, R172, R173) -/

/-- A list cut into consecutive blocks of 32. -/
def blocks32 {α : Type} (l : List α) : List (List α) :=
  (List.range (ceilDiv l.length 32)).map (fun j => (l.drop (32 * j)).take 32)

/-- One level of the pairwise tree. -/
def treeLevel : List F32 → List F32
  | a :: b :: t => f32add a b :: treeLevel t
  | l => l

/-- The seven levels of the tree over 128 lanes. -/
def treeSum (l : List F32) : F32 := ((List.range 7).foldl (fun l _ => treeLevel l) l).headD 0

/-- The lanes after every block sum has been added in order. -/
def laneSums (bs : List F32) : List F32 :=
  (List.range 128).map (fun v =>
    ((List.range bs.length).filter (fun j => j % 128 = v)).foldl (fun a j => f32add a (bs.getD j 0)) 0)

/-- A Cast-mode reduction of exact terms onto a prior value (R173). -/
def castReduce (prior : F32) (terms : List Fv) : F32 :=
  f32add prior (treeSum (laneSums ((blocks32 terms).map (fun b => f32r (Fv.sum b)))))

/-- One addition of a Native-mode reduction: two of the sums, in the order that is open, become one (R172; log entry 8). -/
def nativeAdd (n : List Nat) (k : Nat) (l : List F32) : List F32 :=
  let i := Config.addOrder n (2 * k) % l.length
  let rest := l.eraseIdx i
  let j := Config.addOrder n (2 * k + 1) % rest.length
  f32add (l.getD i 0) (rest.getD j 0) :: rest.eraseIdx j

/-- A Native-mode sum: additions in some order until one sum is left, each rounded (R172). -/
def nativeSum (n : List Nat) : Nat → List F32 → F32
  | 0, l => l.headD 0
  | k + 1, l => if l.length ≤ 1 then l.headD 0 else nativeSum n k (nativeAdd n k l)

/-- A reduction of exact terms onto a prior value, if there is one: in Cast mode in the order of R173, in Native mode in an open one. -/
def reduceOnto (cast : Bool) (n : List Nat) (prior : Option F32) (terms : List Fv) : F32 :=
  if cast then castReduce (prior.getD 0) terms
  else
    let l := prior.toList ++ (blocks32 terms).map (fun b => f32r (Fv.sum b))
    nativeSum n l.length l

/-- A reduction of exact terms (R172, R173). -/
def reduce (cast : Bool) (n : List Nat) (terms : List Fv) : F32 := reduceOnto cast n none terms

/-! ### Block scaling (R165, R170) -/

/-- Elements of packed sub-byte or wider format: element `i` of a bit stream (R164). -/
def streamElem (w : Nat) (b : Bytes) (i : Nat) : Nat :=
  let o := w * i / 8
  leVal (slice b o 5) / 2 ^ (w * i % 8) % 2 ^ w

/-- Packs elements of `w` bits from the least significant bit up, to whole bytes (R164). -/
def packElems (w : Nat) (l : List Nat) : Bytes :=
  let v := (List.range l.length).foldl (fun a i => a + l.getD i 0 * 2 ^ (w * i)) 0
  le (ceilDiv (w * l.length) 8) v

end Sys2Proof.Machine
end

