-- ==== Sys2Proof/Machine/Tensor.lean ====
section
/-! DEFINITION. Block-scaled formats and their quantiser, block sums and reductions of tensors, the functions of the vector unit, and
the tile operations built of them (R165 to R173, 05; R107, 03). -/

namespace Sys2Proof.Machine

/-! ### Block scaling (R165) -/

/-- A value times a power of two. -/
def Fv.scale (k : Int) : Fv → Fv
  | .fin n m e => .fin n m (e + k)
  | x => x

/-- Whether a value is NaN or infinite. -/
def Fv.bad : Fv → Bool
  | .fin _ _ _ => false
  | _ => true

/-- An element under its block's scale code; a scaled INT8 element is in units of 2^-6. -/
def scaledDecode (code sc v : Nat) : Fv :=
  if sc = 0xFF then .nan else (elemDecode code v).scale ((sc : Int) - 127 - if code = 7 then 6 else 0)

/-- Whether a format may be scaled as an operand says (R165). -/
def scaleOk (format scaled : Nat) : Bool :=
  if format = 2 || format = 3 || format = 4 then scaled = 1
  else if format = 5 || format = 6 || format = 7 then scaled < 2
  else format ≤ 0xA && scaled = 0

/-- The values of an operand's elements. -/
def tensorValues (t : TensorIn) : List Fv :=
  t.elems.zipIdx.map (fun x => if t.scaled then scaledDecode t.fmt (t.scales.getD (x.2 / 32) 0) x.1 else elemDecode t.fmt x.1)

/-! ### The quantiser (R107, R170) -/

/-- The largest magnitude of a block, exactly. -/
def Fv.amax (l : List Fv) : Fv :=
  l.foldl (fun a x =>
    match x with
    | .fin _ m e => if Fv.lt a (.fin false m e) then .fin false m e else a
    | _ => a) .zero

/-- The largest finite element of a scaled format: 6, 7.5, 28, 448, 57,344 or 127 × 2^-6, as m × 2^e. -/
def elemMax (code : Nat) : Nat × Int :=
  match code with
  | 2 => (6, 0)
  | 3 => (15, -1)
  | 4 => (28, 0)
  | 5 => (448, 0)
  | 6 => (57344, 0)
  | _ => (127, -6)

/-- e of R107: the smallest integer with amax / 2^e at most the format's largest element. -/
def blockExp (code m : Nat) (k : Int) : Int :=
  let (w, q) := elemMax code
  let e := k + Nat.log2 m - (q + Nat.log2 w)
  if Fv.lt (.fin false w (q + e)) (.fin false m k) then e + 1 else e

/-- A value rounded to an element of a scaled format, under scale 2^e. -/
def elemQuant (code : Nat) (e : Int) (x : Fv) : Nat := (elemEncode code true (x.scale ((if code = 7 then 6 else 0) - e))).1

/-- A block of 32 values quantised. -/
structure Quantised where
  elems : List Nat
  scale : Nat
  /-- It held a NaN or an infinity. -/
  bad   : Bool := false
  /-- Its scale code was clamped to 0 (R170). -/
  clamped : Bool := false

/-- The algorithm of R107 for every scaled format: a block with a NaN or an infinity takes scale code 0xFF, and one of zeros takes 0. A
scale below the least is clamped to code 0 (R170). -/
def quantise (code : Nat) (l : List Fv) : Quantised :=
  let none_ : Quantised := { elems := l.map (fun _ => 0), scale := 0xFF, bad := true }
  if l.any Fv.bad then none_
  else
    match Fv.amax l with
    | .fin _ 0 _ => { elems := l.map (fun _ => 0), scale := 0 }
    | .fin _ m k =>
      let e := max (-127) (blockExp code m k)
      { elems := l.map (elemQuant code e), scale := (e + 127).toNat, clamped := decide (blockExp code m k < -127) }
    | _ => none_

/-! ### Reductions of operands (R167, R168, R172, R173) -/

/-- The integer formats. -/
def isInt (fmt : Nat) : Bool := fmt = 0 || fmt = 1 || fmt = 7

/-- The pairings of R167: BIN1 with BIN1, INT4 and INT8 with integers, FP32 with FP32. -/
def pairOk (a b : TensorIn) : Bool :=
  scaleOk a.fmt (b2n a.scaled) && scaleOk b.fmt (b2n b.scaled)
    && (a.fmt = 0) = (b.fmt = 0) && isInt a.fmt = isInt b.fmt && (a.fmt = 0xA) = (b.fmt = 0xA)

/-- Whether a reduction is exact in integers. -/
def exactInts (a b : TensorIn) : Bool := isInt a.fmt && isInt b.fmt && !a.scaled && !b.scaled

/-- The block sum of BIN1 pairs: 2 × popcount(XNOR) − 32 over the valid elements (R167). -/
def binBlock (l : List (Nat × Nat)) : Int := 2 * (l.filter (fun x => x.1 % 2 = x.2 % 2)).length - l.length

/-- The value of an unscaled integer element. -/
def intElem (code v : Nat) : Int := if code = 1 then toSigned 4 (v % 16) else toSigned 8 (v % 256)

/-- The block sum of a pair of unscaled integer operands, never rounded (R167). -/
def intBlock (fa fb : Nat) (l : List (Nat × Nat)) : Int :=
  if fa = 0 then binBlock l else (l.map (fun x => intElem fa x.1 * intElem fb x.2)).sum

/-- An integer reduction: its blocks are summed in a 64-bit register, and the result is saturated to INT32 once, which is told (R168). -/
def intReduce (a b : TensorIn) : BitVec 32 × Bool :=
  let r := (((blocks32 (a.elems.zip b.elems)).map (intBlock a.fmt b.fmt)).foldl (fun (r : BitVec 64) x => r + BitVec.ofInt 64 x) 0).toInt
  let v := max (-2147483648) (min 2147483647 r)
  (BitVec.ofInt 32 v, v ≠ r)

/-- A floating-point reduction of the exact products of two operands, its blocks rounded once each (R167). -/
def floatReduce (cast : Bool) (n : List Nat) (a b : TensorIn) (prior : Option F32) : F32 :=
  reduceOnto cast n prior (((tensorValues a).zip (tensorValues b)).map (fun x => Fv.mul x.1 x.2))

/-! ### The vector unit (R171)

Fixed-point series with `fpBits` fraction bits and a sticky bit, as for exp2 and tanh (log entry 21). -/

/-- Integer square root: the largest r below 2^k with r² ≤ n, bit by bit. -/
def isqrt (n : Nat) : Nat → Nat → Nat
  | 0, r => r
  | k + 1, r => if (r + 2 ^ k) * (r + 2 ^ k) ≤ n then isqrt n k (r + 2 ^ k) else isqrt n k r

/-- A square root q × 2^e of an integer n, with a sticky bit below q. -/
def stickyRoot (n : Nat) (e : Int) : Fv :=
  let q := isqrt n (Nat.log2 n / 2 + 1) 0
  .fin false (2 * q + if q * q = n then 0 else 1) (e - 1)

/-- Square root. -/
def f32sqrt (a : F32) : F32 :=
  match f32v a with
  | .nan => canonicalNan
  | .inf n => if n then canonicalNan else a
  | .fin n m e =>
    if m = 0 then a
    else if n then canonicalNan
    else
      let e' := e - 80 - (e % 2)
      f32r (stickyRoot (m * 2 ^ (e - e').toNat) (e' / 2))

/-- Reciprocal square root. -/
def f32rsqrt (a : F32) : F32 :=
  match f32v a with
  | .nan => canonicalNan
  | .inf n => if n then canonicalNan else 0
  | .fin n m e =>
    if m = 0 then (if n then 0xFF800000 else 0x7F800000)
    else if n then canonicalNan
    else
      -- 1/(m 2^e) = (2^k / m) 2^(-e-k), with an even exponent
      let k := 160 + ((e + 160) % 2).toNat
      let v := 2 ^ k / m
      let q := isqrt v (Nat.log2 v / 2 + 1) 0
      f32r (.fin false (2 * q + if q * q * m = 2 ^ k then 0 else 1) ((-e - (k : Int)) / 2 - 1))

/-- Terms of z^(2k+1) / (2k+1), from index `k` on, in fixed point. -/
def atanhSeries (z2 : Nat) : Nat → Nat → Nat → Nat
  | 0, _, _ => 0
  | n + 1, k, t => t / (2 * k + 1) + atanhSeries z2 n (k + 1) (t * z2 / 2 ^ fpBits)

/-- ln of a fixed-point value from 1 up to 2. -/
def lnFix (v : Nat) : Nat :=
  let z := (v - 2 ^ fpBits) * 2 ^ fpBits / (v + 2 ^ fpBits)
  2 * atanhSeries (z * z / 2 ^ fpBits) 90 0 z

/-- log2. -/
def f32log2 (a : F32) : F32 :=
  match f32v a with
  | .nan => canonicalNan
  | .inf n => if n then canonicalNan else a
  | .fin n m e =>
    if m = 0 then 0xFF800000
    else if n then canonicalNan
    else
      let k := Nat.log2 m
      let i : Int := e + k
      if m = 2 ^ k then f32r (.fin (decide (i < 0)) i.natAbs 0)
      else
        let v : Int := i * 2 ^ fpBits + (lnFix (m * 2 ^ fpBits / 2 ^ k) * 2 ^ fpBits / ln2Fix : Nat)
        f32r (.fin (decide (v < 0)) (2 * v.natAbs + 1) (-(fpBits : Int) - 1))

/-- The logistic function 1 / (1 + e^-x). -/
def f32logistic (a : F32) : F32 :=
  match f32v a with
  | .nan => canonicalNan
  | .inf n => if n then 0 else 0x3F800000
  | .fin n m e =>
    if m = 0 then 0x3F000000
    else if 7 ≤ e + Nat.log2 m then (if n then 0 else 0x3F800000)
    else
      let v := expFix (m * 2 ^ (e + fpBits).toNat)
      let num := if n then 2 ^ fpBits else v
      f32r (.fin false (2 * (num * 2 ^ fpBits / (v + 2 ^ fpBits)) + 1) (-(fpBits : Int) - 1))

/-- Terms of x (2x²)^k / (1 · 3 · … (2k+1)), from index `k` on, in fixed point. -/
def erfSeries (x2 : Nat) : Nat → Nat → Nat → Nat
  | 0, _, _ => 0
  | n + 1, k, t => t + erfSeries x2 n (k + 1) (2 * t * x2 / 2 ^ fpBits / (2 * k + 3))

/-- arctan(1 / d) in fixed point. -/
def atanInv (d : Nat) : Nat :=
  let t (k : Nat) := 2 ^ fpBits / (d ^ (2 * k + 1) * (2 * k + 1))
  ((List.range 60).map (fun k => t (2 * k) - t (2 * k + 1))).sum

/-- π in fixed point, by Machin's formula. -/
def piFix : Nat := 16 * atanInv 5 - 4 * atanInv 239

/-- The error function: 2/√π e^(-x²) Σ x (2x²)^k / (1 · 3 · … (2k+1)). -/
def f32erf (a : F32) : F32 :=
  match f32v a with
  | .nan => canonicalNan
  | .inf n => if n then 0xBF800000 else 0x3F800000
  | .fin n m e =>
    if m = 0 then a
    else if 2 ≤ e + Nat.log2 m then (if n then 0xBF800000 else 0x3F800000)
    else
      let x := m * 2 ^ (e + fpBits).toNat
      let x2 := x * x / 2 ^ fpBits
      let v := 2 * erfSeries x2 200 0 x * 2 ^ fpBits / expFix x2
      let root := isqrt (piFix * 2 ^ fpBits) (fpBits + 2) 0
      f32r (.fin n (2 * (v * 2 ^ fpBits / root) + 1) (-(fpBits : Int) - 1))

/-- A function of the vector unit. -/
def vecApply : VecFn → F32 → F32
  | .reciprocal => f32recip
  | .sqrt => f32sqrt
  | .rsqrt => f32rsqrt
  | .exp2 => f32exp2
  | .log2 => f32log2
  | .tanh => f32tanh
  | .logistic => f32logistic
  | .erf => f32erf

/-! ### Tile operations -/

/-- What an operation gives: its words, and its INT32 saturations, clamped scale codes and NaN conversions. -/
structure OpOut where
  vals  : List (BitVec 32)
  sat   : Nat := 0
  clamp : Nat := 0
  nan   : Nat := 0

/-- Whether an operation's operands may be paired as it pairs them, and its format takes the scaling it names (R165, R167). -/
def opOk : TileOp → Bool
  | .reduce a b _ => pairOk a b
  | .convert fmt scaled _ _ => scaleOk fmt (b2n scaled)
  | .apply _ _ => true

/-- The result of an operation. A scaled output is its element codes, then its scale codes (R165, R169, R170). -/
def runOp (cast : Bool) (n : List Nat) : TileOp → OpOut
  | .reduce a b prior =>
    if exactInts a b then let (v, sat) := intReduce a b; { vals := [v], sat := b2n sat }
    else { vals := [floatReduce cast n a b prior] }
  | .convert fmt scaled sat x =>
    if scaled then
      let q := (blocks32 (x.map f32v)).map (quantise fmt)
      { vals := (q.flatMap (·.elems) ++ q.map (·.scale)).map (BitVec.ofNat 32), clamp := (q.filter (·.clamped)).length }
    else
      let r := x.map (fun v => elemEncode fmt sat (f32v v))
      { vals := r.map (fun e => BitVec.ofNat 32 e.1), nan := (r.filter (·.2)).length }
  | .apply fn x => { vals := x.map (vecApply fn) }

end Sys2Proof.Machine
end

