-- ==== Sys2Proof/Machine/Transcode.lean ====
section
/-! DEFINITION. The Foundry's transcoder: narrowing and widening of pages (R107, R108, 03). -/

namespace Sys2Proof.Machine

/-- Element format of a narrowed page: ENC 1 is FP6 E3M2, ENC 2 FP4 E2M1. -/
def narrowCode (enc : Nat) : Nat := if enc = 1 then 4 else 2

/-- A page in the KV format `code` narrowed to ENC `enc`, and its blocks that hold a NaN or an infinity. -/
def narrowPage (code enc : Nat) (b : Bytes) : Bytes × Nat :=
  let blocks := (blocks32 (b.map (fun x => elemDecode code x.toNat))).map (quantise (narrowCode enc))
  (packElems (fmtBits (narrowCode enc)) (blocks.flatMap (·.elems)) ++ blocks.map (fun x => BitVec.ofNat 8 x.scale),
   (blocks.filter (·.bad)).length)

/-- A narrowed page of `n` elements widened to the KV format `code` (R108). -/
def widenPage (code enc n : Nat) (b : Bytes) : Bytes :=
  let w := fmtBits (narrowCode enc)
  let scales := b.drop (w * n / 8)
  (List.range n).map (fun i =>
    BitVec.ofNat 8 (elemEncode code true (scaledDecode (narrowCode enc) (scales.getD (i / 32) 0).toNat (streamElem w b i))).1)

end Sys2Proof.Machine
end

