-- ==== Sys2Proof/Machine/Pages.lean ====
section
/-! DEFINITION. The commands of group 0x03: the Pattern tree, frame pools and page tables (R136 to R158, 04). -/

namespace Sys2Proof.Machine

namespace St
def nodeFull : Nat := 0x0301
def prefixGone : Nat := 0x0302
def blockNotReady : Nat := 0x0303
def poolInUse : Nat := 0x0304
def tierFull : Nat := 0x0201
def wrongState : Nat := 0x0101
def modelNotReady : Nat := 0x0102
def sessionGone : Nat := 0x0104
end St

/-! ### PTN_PUBLISH -/

def opPtnPublish : OpInfo := { opcode := 0x0300, rsvd := [(0x0D, 3)] }

/-- Token IDs of the journal at positions `a` to `a + n - 1`, counted from the first journalled position (R78). -/
def journalToks (s : State) (id prefixLen a n : Nat) : List Nat :=
  ((getStore s id).journal.drop (a - prefixLen)).take n |>.map (· % 2 ^ 20)

/-- Bytes of the frame that an entry names, in the model format `kv`, of `size` bytes: widened where it is narrowed, and from
outside where it does not lie on this chip. -/
def pageBytes (s : State) (kv size : Nat) (e : Pte) : Bytes :=
  if e.here s then
    if e.enc = 0 then devRead s e.tier e.addr size
    else widenPage kv e.enc size (devRead s e.tier e.addr (size * (if e.enc = 1 then 25 else 17) / 32))
  else Config.remoteBytes s.free [4, e.toNat] size

/-- One page of a block made a node's page: the session's own frame, or a copy in a new tier-1 frame (R147). -/
def publishPage (m : Moment) (id g b : Nat) (x : Session) (s : State) : Except (Lack × State) (Pte × State) :=
  let e := getPte s id g b
  let cls := (getStore s id).pages.pageClass
  let own : Except Lack State :=
    if e.here s && e.tier = 1 && e.enc = 0 then .ok s
    else
      match allocFrame m 0 { partition := x.partition, tier := 1, pclass := cls, enc := 0 } fReserved id s with
      | .error l => .error l
      | .ok (a, s) =>
        let s := devWrite 1 a (pageBytes s (getModel s x.modelSlot).hdr.kvFormat (2 ^ cls) e) s
        let s := setPte id g b (pteOf s 1 0 a) (publishFrame 1 a fReserved hEntry id s)
        .ok (dropPte e id { s with free := s.free + 1 })
  match own with
  | .error l => .error (l, s)
  | .ok s =>
    let e := getPte s id g b
    match shareFrame m 0 e.tier e.addr hNode id s with
    | .error l => .error (l, s)
    | .ok (a, s) => .ok ({ pteOf s 1 0 a with shared := true }, s)

/-- Gives back the references that a node under construction has taken (R145). -/
def dropNodeRefs (id : Nat) (l : List Pte) (s : State) : State := l.foldl (fun s e => dropHolder e.tier e.addr hNode id s) s

/-- The pages of a block, layer group by layer group. A failure releases the references already taken (R145). -/
def publishPages (m : Moment) (id b : Nat) (x : Session) : List Nat → List Pte → State → Except (Nat × State) (List Pte × State)
  | [], acc, s => .ok (acc, s)
  | g :: gs, acc, s =>
    match publishPage m id g b x s with
    | .error (l, s) => .error (St.tierFull, starve l (dropNodeRefs id acc s))
    | .ok (e, s) => publishPages m id b x gs (acc ++ [e]) s

/-- What PTN_PUBLISH has reached: the deepest node, and its counts. -/
structure PubAcc where
  node  : Nat
  /-- The reuse count of that index, by which it is still the same node (R145). -/
  gen   : Nat := 0
  depth : Nat
  key   : Bytes
  fresh : Nat := 0
  dups  : Nat := 0
  deriving DecidableEq, Repr

/-- Evicts until a node index is free (R152). -/
def nodeRoom (p : Nat) (s : State) : State := evict p 0 (fun s => freeNodeCount (getTree s p) = 0) s

/-- Whether what a publication has reached is still there: PUBLISHED under the same reuse count, or the root (R145, R151). -/
def PubAcc.there (a : PubAcc) (s : State) (p : Nat) : Bool :=
  a.node = 0 || ((getNode s p a.node).nstate = .published && (getNode s p a.node).gen = a.gen)

/-- Publishes one block (R147). Its parent is tested last, after everything that the block's frames may have evicted (R145, R151). -/
def publishBlock (m : Moment) (id b : Nat) (x : Session) (pin : Bool) (a : PubAcc) (s : State) :
    Except (Nat × State) (PubAcc × State) :=
  let p := x.partition
  let key := nextKey s p a.key (journalToks s id x.prefixLen (256 * b) 256)
  match lookupKey p key s with
  | (some i, s) => .ok ({ a with node := i, gen := (getNode s p i).gen, depth := b + 1, key, dups := a.dups + 1 }, bump .ptnDups p 1 s)
  | (none, s) =>
    let s := nodeRoom p s
    match pickNode m a.fresh (getTree s p) with
    | none => .error (St.nodeFull, s)
    | some i =>
      match publishPages m id b x (List.range (getStore s id).pages.lgCount) [] s with
      | .error e => .error e
      | .ok (pages, s) =>
        match grabTable m 0 p 0 s with
        | .error l => .error (St.tierFull, starve l (dropNodeRefs id pages s))
        | .ok (fr, s) =>
          if !a.there s p then .error (St.prefixGone, dropHolder 1 fr hEntry 0 (dropNodeRefs id pages s))
          else
            let n := getNode s p i
            let s := setNode p i { key, parent := a.node, gen := n.gen + 1, nstate := .published, modelSlot := x.modelSlot
                                   mode := sflag x.flags Fl.castMode, pin, depth := b + 1, pageFrame := fr, ctPub := s.ct
                                   pages } s
            let q := getNode s p a.node
            let s := if a.node = 0 then s else setNode p a.node { q with children := q.children + 1 } s
            let s := (List.range pages.length).foldl (fun s g =>
              setPte id g b { getPte s id g b with shared := true, cow := false } s) s
            .ok ({ a with node := i, gen := n.gen + 1, depth := b + 1, key, fresh := a.fresh + 1 }, s)

/-- Publishes blocks in ascending order, to the first that fails. -/
def publishBlocks (m : Moment) (id : Nat) (x : Session) (pin : Bool) : List Nat → PubAcc → State → Nat × PubAcc × State
  | [], a, s => (0, a, s)
  | b :: bs, a, s =>
    match publishBlock m id b x pin a s with
    | .error (st, s) => (st, a, s)
    | .ok (a, s) => publishBlocks m id x pin bs a s

/-- The node from which a session's first block descends, with its key: the root, or the node that its admission resolved; none where
that node is gone, or where this chip's tree has none of that prefix (R147). -/
def pubStart (s : State) (id : Nat) (x : Session) : Option PubAcc :=
  let p := x.partition
  if x.prefixLen = 0 then some { node := 0, depth := 0, key := rootKey s p x.modelSlot (sflag x.flags Fl.castMode) }
  else
    match (getStore s id).path.getLast? with
    | some i =>
      let a : PubAcc := { node := i, gen := (getStore s id).pathGen, depth := (getNode s p i).depth, key := (getNode s p i).key }
      if a.there s p && 256 * a.depth = x.prefixLen then some a else none
    | none => none

/-- PTN_PUBLISH: turns blocks of a session into nodes; what was published before a failure stays (R147). -/
def bodyPtnPublish (m : Moment) (r : Req) (s : State) : Reply :=
  if 1 < r.f 0x0C 1 then .err s St.badField
  else
    onSession r s fun id h =>
      match h with
      | .parked _ => .err s St.wrongState
      | .active x =>
        let up := r.f 8 4
        if !([SState.prefill, .decode, .toolwait, .stopped].contains x.st) then .err s St.wrongState
        else if x.length < 256 * up || x.prefillPos < 256 * up then .err s St.blockNotReady
        else
          let first := x.prefixLen / 256
          match pubStart s id x with
          | none => .err s St.prefixGone
          | some a =>
            let (st, a, s) := publishBlocks m id x (r.f 0x0C 1 = 1) ((List.range (up - first)).map (· + first)) a s
            { st := s, status := st
              result := u64 (if a.node = 0 then 0 else handleOf s x.partition a.node) ++ u32 a.depth ++ u32 a.fresh ++ u32 a.dups }

def execPtnPublish (m : Moment) (r : Req) (s : State) : Out := .next (runCommand opPtnPublish bodyPtnPublish m r s)

/-! ### PTN_MATCH -/

def opPtnMatch : OpInfo := { opcode := 0x0301, rsvd := [(3, 1), (8, 8)] }

/-- The nodes that a token sequence's whole blocks reach, shallowest first (R149). -/
def matchPath (p : Nat) : Nat → Bytes → List Nat → List Nat → State → List Nat × State
  | 0, _, _, acc, s => (acc, s)
  | n + 1, key, toks, acc, s =>
    let key := nextKey s p key (toks.take 256)
    match lookupKey p key s with
    | (some i, s) => matchPath p n key (toks.drop 256) (acc ++ [i]) s
    | (none, s) => (acc, s)

/-- u32 values of a byte string. -/
def u32s (n : Nat) (b : Bytes) : List Nat := (List.range n).map (fun i => field b (4 * i) 4)

/-- Whether a model slot is READY and open to a partition (R67 step 2; R183). -/
def modelOpen (s : State) (slot p : Nat) : Bool :=
  let x := getModel s slot
  x.mstate = .ready && x.partition = p

/-- PTN_MATCH: the deepest PUBLISHED node of a token sequence (R149). -/
def bodyPtnMatch (_ : Moment) (r : Req) (s : State) : Reply :=
  let slot := r.f 0 1
  let n := r.f 4 4
  let p := r.part16
  let go (toks : List Nat) : Reply :=
    let (path, s) := matchPath p (n / 256) (rootKey s p slot (r.f 1 1 = 1)) toks [] s
    let s := touchNodes p path s
    .ok s (u64 (match path.getLast? with | some i => handleOf s p i | none => 0) ++ u32 path.length)
  if 63 < slot || 1 < r.f 1 1 || 1 < r.f 2 1 || 1048576 < n || (r.f 2 1 = 0 && decide (988 < n)) then .err s St.badField
  else if !modelOpen s slot p then .err s St.modelNotReady
  else if r.f 2 1 = 0 then go (u32s n (r.payload.drop 0x10))
  else withData r (4 * n) s (fun b => go (u32s n b))

def execPtnMatch (m : Moment) (r : Req) (s : State) : Out := .next (runCommand opPtnMatch bodyPtnMatch m r s)

/-! ### PTN_DELETE, PTN_PIN, PTN_READ -/

/-- Runs `k` on the node that a request's handle names (R146). -/
def onNode (r : Req) (s : State) (k : Nat → Nat → Reply) : Reply :=
  let h := r.f 0 8
  let p := h / 2 ^ 60
  match (if r.reaches p then handleNode s p h else none) with
  | some i => k p i
  | none => .err s St.prefixGone

def opPtnDelete : OpInfo := { opcode := 0x0302 }

/-- PTN_DELETE: a node with its subtree (R150). -/
def bodyPtnDelete (_ : Moment) (r : Req) (s : State) : Reply :=
  onNode r s fun p i => let (n, s) := deleteNode p i s; .ok s (u32 n)

def execPtnDelete (m : Moment) (r : Req) (s : State) : Out := .next (runCommand opPtnDelete bodyPtnDelete m r s)

def opPtnPin : OpInfo := { opcode := 0x0303 }

/-- PTN_PIN: sets or clears PIN (R158). -/
def bodyPtnPin (_ : Moment) (r : Req) (s : State) : Reply :=
  if 1 < r.f 8 1 then .err s St.badField
  else onNode r s fun p i => .ok (setNode p i { getNode s p i with pin := r.f 8 1 = 1 } s)

def execPtnPin (m : Moment) (r : Req) (s : State) : Out := .next (runCommand opPtnPin bodyPtnPin m r s)

def opPtnRead : OpInfo := { opcode := 0x0304, mctp := true }

/-- PTN_READ: the node entry and its page array (R158). -/
def bodyPtnRead (_ : Moment) (r : Req) (s : State) : Reply :=
  onNode r s fun p i =>
    let n := getNode s p i
    .ok s (nodeBytes s n ++ n.pages.flatMap (fun e => u64 e.toNat))

def execPtnRead (m : Moment) (r : Req) (s : State) : Out := .next (runCommand opPtnRead bodyPtnRead m r s)

/-! ### PTN_PURGE -/

def opPtnPurge : OpInfo := { opcode := 0x0305 }

/-- PTN_PURGE: every node of a model slot, or of every slot (R153). The count waits in the operation for its end. -/
def bodyPtnPurge (_ : Moment) (r : Req) (s : State) : Reply :=
  let slot := r.f 0 1
  if 63 < slot && slot ≠ 0xFF then .err s St.badField
  else
    asOp r s 0 0 0 false [] fun op s =>
      let (n, s) := purgeNodes r.part16 (if slot = 0xFF then none else some slot) s
      setArgs op [n] s

/-- The purge's end. -/
def endPtnPurge (n : Nat) (o : LongOp) (s : State) : State := endOp n 0 0 (u32 (o.args.getD 0 0)) s

def execPtnPurge (m : Moment) (r : Req) (s : State) : Out := .next (runCommand opPtnPurge bodyPtnPurge m r s)

/-! ### PTN_CONFIG -/

def opPtnConfig : OpInfo := { opcode := 0x0306, pf0 := true, rsvd := [(1, 3)] }

/-- What PTN_CONFIG checks, when it starts and when it takes effect (R158). -/
def ptnConfigCheck (r : Req) (s : State) : Except Nat Unit := do
  partGate opPtnConfig r (r.f 0 1) s
  guard' (decide (r.f 4 4 < 2 ^ 28)) St.badField
  guard' (decide (nodesUsed (getTree s (r.f 0 1)) ≤ r.f 4 4)) St.busyRetry

/-- A partition's node table at a new capacity, in memory of its own; none where the partition has no room for it. The table of the old
capacity is given up first, and the hash index takes no memory that this names (DESIGN CHOICE, log entry 63). -/
def resizeTree (p cap : Nat) (s : State) : Option State :=
  let t := getTree s p
  if cap = 0 || cap = t.cap then some (setTree p { t with cap } s)
  else
    match placeBlock (setTree p { t with cap := 0 } s) p 1 (treeSize cap) 4096 with
    | some base => some (setTree p { t with cap, base } s)
    | none => none

/-- PTN_CONFIG: sizes a partition's node table, at its end. -/
def bodyPtnConfig (_ : Moment) (r : Req) (s : State) : Reply :=
  checked s (ptnConfigCheck r s) fun _ => asOp r s 0 1 (64 * r.f 4 4) true [] fun _ s => s

def endPtnConfig (n : Nat) (o : LongOp) (s : State) : State :=
  let r := o.req
  match ptnConfigCheck r s with
  | .error st => endOp n st 0 [] s
  | .ok _ =>
    let p := r.f 0 1
    match resizeTree p (r.f 4 4) s with
    | none => endOp n St.badField 0 [] s
    | some s => endOp n 0 0 [] (setTree p { getTree s p with nodeLow := r.f 8 4, frameLow := r.f 0x0C 4 } s)

def execPtnConfig (m : Moment) (r : Req) (s : State) : Out := .next (runCommand opPtnConfig bodyPtnConfig m r s)

/-! ### PAGE_POOL_CONFIG -/

def opPagePoolConfig : OpInfo := { opcode := 0x0307, pf0 := true }

/-- The pool that a request names, if its fields are in range (R136, R158). -/
def poolOf (r : Req) : Option PoolId :=
  let id : PoolId := { partition := r.f 0 1, tier := r.f 1 1, enc := r.f 2 1, pclass := r.f 3 1 }
  if id.tier = 0xFE || id.tier = 0xFF then (if id.enc = 0 && id.pclass = 0 then some id else none)
  else if id.tier ≤ 2 && id.enc ≤ 2 && 18 ≤ id.pclass && id.pclass ≤ 24 && (id.tier ≠ 0 || frameSize id ≤ 0x400000) then some id
  else none

/-- A pool's extents cut to `n` frames: the frames in use stay. -/
def shrinkExtents (s : State) (x : Pool) (n : Nat) : List (Nat × Nat) :=
  let all := x.extents.flatMap (fun e => (List.range e.2).map (fun i => e.1 + i * frameSize x.id))
  let used := all.filter (fun a => thas s.frames.frames (frameKey (poolTier x.id) a))
  let free := (all.filter (fun a => !thas s.frames.frames (frameKey (poolTier x.id) a))).take (n - used.length)
  (all.filter (fun a => used.contains a || free.contains a)).map (fun a => (a, 1))

/-- Stores a pool of `n` frames; the change is posted (R306). -/
def putPool (x : Pool) (old : Nat) (s : State) : State :=
  let rest := s.frames.pools.filter (fun y => y.id ≠ x.id)
  post [⟨Lg.frame, poolInst x.id, [(0, (x.size : Int) - old)]⟩] 3 0
    { s with frames := { s.frames with pools := if x.size = 0 then rest else rest ++ [x] } }

/-- PAGE_POOL_CONFIG: carves, grows or shrinks a pool (R136, R158). -/
def bodyPagePoolConfig (_ : Moment) (r : Req) (s : State) : Reply :=
  match partGate opPagePoolConfig r (r.f 0 1) s with
  | .error st => .err s st
  | .ok _ =>
    match poolOf r with
    | none => .err s St.badField
    | some id =>
      let n := r.f 4 4
      let x := (getPool s id).getD { id, size := 0 }
      if n < usedFrames s id then .err s St.poolInUse
      else if n ≤ x.size then .ok (putPool { x with size := n, extents := shrinkExtents s x n } x.size s)
      else
        match carvePool s id (n - x.size) with
        | none => .err s St.badField
        | some more => .ok (putPool { x with size := n, extents := x.extents ++ more } x.size s)

def execPagePoolConfig (m : Moment) (r : Req) (s : State) : Out :=
  .next (runCommand opPagePoolConfig bodyPagePoolConfig m r s)

/-! ### PAGE_TABLE_READ -/

def opPageTableRead : OpInfo := { opcode := 0x0308, rsvd := [(0x0E, 2)] }

/-- PAGE_TABLE_READ: entries of the live tables, or of the cast image with `detail` 1 (R158). -/
def bodyPageTableRead (_ : Moment) (r : Req) (s : State) : Reply :=
  let n := r.f 0x0C 2
  let go (id detail : Nat) : Reply :=
    if (getStore s id).pages.lgCount ≤ r.f 8 2 then .err s St.badField
    else { st := s, detail
           result := (List.range n).flatMap (fun i => u64 (getPte s id (r.f 8 2) (r.f 0x0A 2 + i)).toNat) }
  if n = 0 || 480 < n || 4096 < r.f 0x0A 2 + n then .err s St.badField
  else
    onStore r s fun id h =>
      match h with
      | .active x => if x.st = .faulted then .err s St.wrongState else go id 0
      | .parked _ => go id 1

def execPageTableRead (m : Moment) (r : Req) (s : State) : Out :=
  .next (runCommand opPageTableRead bodyPageTableRead m r s)

/-! ### PTN_EVICTION -/

/-- PTN_EVICTION: while a watermark of a partition's tree is breached, leaves are evicted (R152). -/
def execPtnEviction (m : Moment) (partition : Nat) (s : State) : Out :=
  let s := s.at m
  let t := getTree s partition
  let cause := if freeNodeCount t < t.nodeLow then 0 else 1
  .next (if treeLow s partition then evict partition cause (fun s => treeLow s partition) s else s)

end Sys2Proof.Machine
end

