-- ==== Sys2Proof/Machine/Tables.lean ====
section
/-! DEFINITION. Table-set images: header, sections, lookups and the checks that a load makes (R219 to R221, R229 to R231, R235,
07; R249 to R252, R263, 08). -/

namespace Sys2Proof.Machine

/-! ### Header and sections -/

/-- A section's offset, bytes and count (R219, R220). -/
structure Sect where
  off   : Nat
  bytes : Nat
  count : Nat
  deriving DecidableEq, Repr

namespace Tb

/-- Section `i` of an image. One with `bytes` 0 is absent and holds nothing (R220). -/
def sect (b : Bytes) (i : Nat) : Sect :=
  let n := field b (0x68 + 16 * i) 4
  ⟨field b (0x60 + 16 * i) 8, n, if n = 0 then 0 else field b (0x6C + 16 * i) 4⟩

def vocab (b : Bytes) : Nat := field b 0x40 4
def byteBase (b : Bytes) : Nat := field b 0x44 4
def unkToken (b : Bytes) : Nat := field b 0x48 4
def compose (b : Bytes) : Bool := bit (field b 0x4C 4) 0
def family (b : Bytes) : Nat := field b 0x3C 4
def digest (b : Bytes) : Bytes := slice b 0x10 32
def sigOffset (b : Bytes) : Nat := field b 0x30 8
def sigLen (b : Bytes) : Nat := field b 0x38 4

/-- The digest computed over an image (R219). -/
def computedDigest (b : Bytes) : Bytes :=
  fit 32 (Config.blake3 (b.take 0x10 ++ zeros 32 ++ (b.take (sigOffset b)).drop 0x30))

/-! ### Normalisation tables (R229) -/

/-- A code point's normalisation entry; identity and class 0 where the tables are absent (R220). -/
def normEntry (b : Bytes) (cp : Nat) : Nat :=
  let s1 := sect b 0
  if s1.bytes = 0 then 0
  else field b ((sect b 1).off + 2048 * field b (s1.off + 2 * (cp / 256)) 2 + 8 * (cp % 256)) 8

def cls (e : Nat) : Nat := bits e 63 60
def ccc (e : Nat) : Nat := bits e 31 24
def kind (e : Nat) : Nat := bits e 23 22
def compSecond (e : Nat) : Bool := bit e 21
def value (e : Nat) : Nat := bits e 20 0

/-- What an entry maps its code point to. -/
def mapping (b : Bytes) (cp e : Nat) : List Nat :=
  match kind e with
  | 0 => [cp]
  | 1 => [value e]
  | 2 => (List.range (value e % 32)).map (fun i => field b ((sect b 2).off + 4 * (value e / 32 + i)) 4)
  | _ => []

/-- The primary composite of two code points, if there is one. -/
def pair (b : Bytes) (x y : Nat) : Option Nat :=
  let s := sect b 3
  (((List.range s.count).map (fun i => field b (s.off + 8 * i) 8)).find? (fun v => v / 2 ^ 22 = x * 2 ^ 21 + y)).map
    (fun v => v % 2 ^ 21)

/-- Whether a token may not contain the boundary between two classes (R231). -/
def breaks (b : Bytes) (x y : Nat) : Bool :=
  let s := sect b 4
  s.bytes ≠ 0 && bit (field b (s.off + 2 * x) 2) y

/-! ### Trie (R231) -/

/-- Offset of a trie node. -/
def nodeAt (b : Bytes) (n : Nat) : Nat := (sect b 5).off + 64 * n

/-- The child of a node for a byte. -/
def child (b : Bytes) (n x : Nat) : Option Nat :=
  let map := field b (nodeAt b n) 32
  if (sect b 5).count ≤ n then none
  else if bit map x then some (field b (nodeAt b n + 0x20) 4 + popcount x map) else none

/-- The token of a terminal node. -/
def terminal (b : Bytes) (n : Nat) : Option Nat :=
  let v := field b (nodeAt b n + 0x24) 4
  if bit v 31 then some (v % 2 ^ 20) else none

/-! ### Detokenizer (R235) -/

/-- A token's bytes; none at or above the vocabulary, or where the section is absent. -/
def detok (b : Bytes) (t : Nat) : Bytes :=
  if vocab b ≤ t || decide ((sect b 6).count ≤ t) then []
  else
    let v := field b ((sect b 6).off + 4 * t) 4
    slice b ((sect b 7).off + v / 256) (v % 256)

/-! ### Stop sets (R263) -/

/-- A stop set. -/
structure StopSet where
  include_ : Bool := false
  stream   : Bool := false
  tokens   : List Nat := []
  strings  : List Bytes := []
  deriving DecidableEq, Repr

/-- `n` packed strings from an offset. -/
def strings (b : Bytes) : Nat → Nat → List Bytes
  | 0, _ => []
  | n + 1, o => slice b (o + 1) (field b o 1) :: strings b n (o + 1 + field b o 1)

def stopCount (b : Bytes) : Nat := (sect b 9).count

/-- Stop set `n`; the empty set for none. -/
def stopSet (b : Bytes) (n : Nat) : StopSet :=
  let s := sect b 9
  if s.count ≤ n then {}
  else
    let o := s.off + field b (s.off + 4 * n) 4
    let fl := field b o 2
    let k := field b (o + 2) 1
    { include_ := bit fl 0, stream := bit fl 1, tokens := (List.range k).map (fun i => field b (o + 8 + 4 * i) 4)
      strings := strings b (field b (o + 3) 1) (o + 8 + 4 * k) }

/-! ### Grammar images (R249 to R251) -/

def grammarCount (b : Bytes) : Nat := (sect b 8).count

/-- Offset of grammar image `n`. -/
def grammarAt (b : Bytes) (n : Nat) : Nat := let s := sect b 8; s.off + field b (s.off + 4 * n) 4

/-! ### The checks of a load (R221 step 3, R252, R263) -/

/-- A check: what must hold, and the offset of the first bad byte where it does not. -/
abbrev Check := Bool × Nat
def ck (ok : Bool) (o : Nat) : Check := (ok, o)

/-- Whether a code point may be produced by a mapping. -/
def plain (b : Bytes) (cp : Nat) : Bool :=
  decide (cp ≤ 0x10FFFF) && !(decide (0xD800 ≤ cp) && decide (cp ≤ 0xDFFF)) && kind (normEntry b cp) = 0

/-- Header fields. -/
def headerChecks (b : Bytes) (len : Nat) : List Check :=
  ([ (field b 0 4 = 0x31534254, 0), (field b 4 2 = 1, 4), (field b 6 2 = 0x100, 6), (field b 8 8 = len, 8)
  , (decide (sigOffset b + sigLen b = len) && decide (0x100 ≤ sigOffset b), 0x30), (sigLen b = 0 || sigLen b = 5408, 0x38)
  , (decide (1 ≤ vocab b) && decide (vocab b ≤ 1048576), 0x40)
  , (byteBase b = ones32 || decide (byteBase b + 255 < vocab b), 0x44)
  , (byteBase b ≠ ones32 || decide (unkToken b < vocab b), 0x48), (decide (field b 0x4C 4 < 2), 0x4C)
  , (decide (1 ≤ field b 0x50 2) && decide (field b 0x50 2 ≤ 255), 0x50) ] : List Check)
  ++ (List.range 14).map (fun i => ck (b.getD (0x52 + i) 0 = 0) (0x52 + i))

/-- Whether a section's count fits its bytes (R220). -/
def countOk (b : Bytes) (i : Nat) : Bool :=
  let s := sect b i
  match i with
  | 0 => s.count = 4352 && s.bytes = 8704
  | 1 => s.bytes = 2048 * s.count
  | 2 => s.bytes = 4 * s.count && decide (s.count ≤ 65536)
  | 3 => s.bytes = 8 * s.count && decide (s.count ≤ 65536)
  | 4 => s.count = 16 && s.bytes = 32
  | 5 => s.bytes = 64 * s.count && decide (s.count ≤ 16777216)
  | 6 => s.count = vocab b && s.bytes = 4 * s.count
  | 7 => s.bytes = s.count && decide (s.bytes ≤ 16777216)
  | _ => decide (4 * s.count ≤ s.bytes)

/-- Sections: within the image, apart from each other, and of the right size. -/
def sectChecks (b : Bytes) : List Check :=
  (List.range 10).flatMap (fun i =>
    let s := sect b i
    let o := 0x60 + 16 * i
    if s.bytes = 0 then
      [(!([0, 1, 4].contains i) || ((sect b 0).bytes = 0 && (sect b 1).bytes = 0 && (sect b 4).bytes = 0), o)]
    else
      [ (decide (0x100 ≤ s.off) && decide (s.off + s.bytes ≤ sigOffset b), o)
      , ((List.range i).all (fun j =>
          let t := sect b j
          t.bytes = 0 || decide (s.off + s.bytes ≤ t.off) || decide (t.off + t.bytes ≤ s.off)), o)
      , (countOk b i, o + 0x0C) ])

/-- Composition pairs: strictly ascending. -/
def pairChecks (b : Bytes) : List Check :=
  let sp := sect b 3
  (List.range (sp.count - 1)).map (fun i =>
    ck (decide (field b (sp.off + 8 * i) 8 / 2 ^ 22 < field b (sp.off + 8 * (i + 1)) 8 / 2 ^ 22)) (sp.off + 8 * (i + 1)))

/-- Normalisation tables. -/
def normChecks (b : Bytes) : List Check :=
  let s1 := sect b 0
  let s2 := sect b 1
  if s1.bytes = 0 then []
  else
    (List.range 4352).map (fun i => ck (decide (field b (s1.off + 2 * i) 2 < s2.count)) (s1.off + 2 * i))
    ++ (List.range (256 * s2.count)).map (fun i =>
        let e := field b (s2.off + 8 * i) 8
        ck (match kind e with
          | 1 => plain b (value e)
          | 2 => decide (2 ≤ value e % 32) && decide (value e % 32 ≤ 18)
              && decide (value e / 32 + value e % 32 ≤ (sect b 2).count) && (mapping b 0 e).all (plain b)
          | _ => true) (s2.off + 8 * i))

/-- Trie nodes. -/
def trieChecks (b : Bytes) : List Check :=
  let s := sect b 5
  let kids (n : Nat) : Nat × Nat := (field b (nodeAt b n + 0x20) 4, popcount 256 (field b (nodeAt b n) 32))
  let depth (n : Nat) : Nat := field b (nodeAt b n + 0x28) 2
  (List.range s.count).flatMap (fun n =>
    let (base, k) := kids n
    (List.range (if base + k ≤ s.count then k else 0)).map (fun i => ck (depth (base + i) = depth n + 1) (nodeAt b (base + i) + 0x28))
    ++ [ (decide (k = 0 ∨ base + k ≤ s.count), nodeAt b n + 0x20)
    , (k = 0 || (decide (0 < base) && (List.range n).all (fun j =>
        let (c, l) := kids j
        l = 0 || decide (base + k ≤ c) || decide (c + l ≤ base))), nodeAt b n + 0x20)
    , ((match terminal b n with | some t => decide (t < vocab b) | none => true), nodeAt b n + 0x24) ])
  ++ (if s.count = 0 then [] else
      [ck (decide (depth 0 = 0)) (nodeAt b 0 + 0x28), ck (decide (((List.range s.count).map depth).foldl max 0 = field b 0x50 2)) 0x50])

/-- Detokenizer entries. -/
def detokChecks (b : Bytes) : List Check :=
  let s := sect b 6
  (List.range s.count).map (fun t =>
    let v := field b (s.off + 4 * t) 4
    ck (decide (v / 256 + v % 256 ≤ (sect b 7).bytes)) (s.off + 4 * t))

/-- Bytes of one mask bitmap (R249). -/
def maskBytes (bitsN : Nat) : Nat := ceilDiv (ceilDiv bitsN 8) 64 * 64

/-- Values that strictly ascend below `n`, each at its own place: the first at `o`, `w` bytes apart. -/
def rising (n : Nat) : Option Nat → List Nat → Nat → Nat → List Check
  | _, [], _, _ => []
  | prev, v :: t, o, w => ck (prev.all (fun p => decide (p < v)) && decide (v < n)) o :: rising n (some v) t (o + w) w

/-- One state of a grammar image. -/
def stateChecks (b : Bytes) (g o : Nat) : List Check :=
  let nT := field b (g + 0x20) 4
  let sr := field b o 4
  let len := field b (o + 4) 4
  let tb := field b (o + 8) 4
  let tl := field b (o + 0x0C) 2
  let idx := sr % 2 ^ 30
  let los := (List.range tl).map (fun i => bits (field b (g + field b (g + 0x1C) 4 + 8 * (tb + i)) 8) 63 44)
  let ids := (List.range len).map (fun i => field b (g + field b (g + 0x24) 4 + 4 * (idx + i)) 4)
  let run := sr / 2 ^ 30 = 1 && decide (idx + len ≤ field b (g + 0x28) 4)
  let ends := decide (1 ≤ tl) && decide (tb + tl ≤ nT)
  [ ck (sr / 2 ^ 30 ≠ 0 || decide (idx < field b (g + 0x30) 4)) o, ck (sr / 2 ^ 30 ≠ 1 || run) (o + 4), ck ends (o + 8) ]
  ++ (if run then rising (vocab b) none ids (g + field b (g + 0x24) 4 + 4 * idx) 4 else [])
  ++ (if ends then ck (los.head? = some 0) (g + field b (g + 0x1C) 4 + 8 * tb)
        :: rising (vocab b) none los (g + field b (g + 0x1C) 4 + 8 * tb) 8 else [])

/-- One transition of a grammar image. -/
def transChecks (b : Bytes) (g o : Nat) : List Check :=
  let e := field b o 8
  let op := bits e 43 40
  let goes := op = 0 || op = 1 || op = 3
  [ (decide (op ≤ 5), o)
  , (if goes then decide (bits e 39 16 < field b (g + 8) 4) else bits e 39 16 = 0, o)
  , (if op = 1 then decide (bits e 15 0 < field b (g + 0x3C) 2) else bits e 15 0 = 0, o) ]

/-- One grammar image (R252). -/
def grammarChecks (b : Bytes) (n : Nat) : List Check :=
  let s := sect b 8
  let g := grammarAt b n
  let stop := s.off + s.bytes
  let inside (o k : Nat) : Bool := decide (g + o + k ≤ stop)
  let nS := field b (g + 8) 4
  let nT := field b (g + 0x20) 4
  let esc := field b (g + 0x10) 4
  let head : List Check :=
    [ (decide (g + 64 ≤ stop) && field b g 4 = 0x314D5247, g), (field b (g + 4) 2 = 1, g + 4)
    , (decide (1 ≤ nS) && decide (nS ≤ 16777216), g + 8), (decide (field b (g + 0x0C) 4 < nS), g + 0x0C)
    , (esc = ones32 || decide (esc < vocab b), g + 0x10), (decide (field b (g + 0x14) 4 < nS), g + 0x14)
    , (inside (field b (g + 0x18) 4) (16 * nS), g + 0x18), (inside (field b (g + 0x1C) 4) (8 * nT), g + 0x1C)
    , (decide (1 ≤ nT) && decide (nT ≤ 2 ^ 28), g + 0x20), (inside (field b (g + 0x24) 4) (4 * field b (g + 0x28) 4), g + 0x24)
    , (inside (field b (g + 0x2C) 4) (field b (g + 0x30) 4 * maskBytes (vocab b)), g + 0x2C)
    , (decide (field b (g + 0x30) 4 ≤ 65536), g + 0x30), (field b (g + 0x34) 4 = vocab b, g + 0x34)
    , (inside (field b (g + 0x38) 4) (4 * field b (g + 0x3C) 2), g + 0x38)
    , (decide (1 ≤ field b (g + 0x3E) 1) && decide (field b (g + 0x3E) 1 ≤ 128), g + 0x3E) ]
  if head.any (fun c => !c.1) then head
  else
    (List.range nS).flatMap (fun i => stateChecks b g (g + field b (g + 0x18) 4 + 16 * i))
    ++ (List.range nT).flatMap (fun i => transChecks b g (g + field b (g + 0x1C) 4 + 8 * i))
    ++ (List.range (field b (g + 0x3C) 2)).map (fun i =>
        ck (decide (field b (g + field b (g + 0x38) 4 + 4 * i) 4 < nS)) (g + field b (g + 0x38) 4 + 4 * i))

/-- The lengths of `n` packed strings from an offset. -/
def stringChecks (b : Bytes) : Nat → Nat → List Check
  | 0, _ => []
  | n + 1, o => ck (decide (1 ≤ field b o 1) && decide (field b o 1 ≤ 64)) o :: stringChecks b n (o + 1 + field b o 1)

/-- One stop set (R263). -/
def stopChecks (b : Bytes) (n : Nat) : List Check :=
  let s := sect b 9
  let o := s.off + field b (s.off + 4 * n) 4
  let k := field b (o + 2) 1
  let q := field b (o + 3) 1
  [ (decide (o + 8 ≤ s.off + s.bytes), s.off + 4 * n), (decide (k ≤ 64), o + 2), (decide (q ≤ 16), o + 3) ]
  ++ (List.range k).map (fun i => ck (decide (field b (o + 8 + 4 * i) 4 < vocab b)) (o + 8 + 4 * i))
  ++ stringChecks b q (o + 8 + 4 * k)

/-- The offset of the first bad byte of an image, if it has one. The later groups are checked once the earlier ones hold. -/
def firstBad (b : Bytes) (len : Nat) : Option Nat :=
  let bad (l : List Check) : Option Nat := ((l.filter (fun c => !c.1)).map (·.2)).min?
  let heads := headerChecks b len ++ sectChecks b
  match bad heads with
  | some o => some o
  | none => bad (normChecks b ++ pairChecks b ++ trieChecks b ++ detokChecks b
      ++ (List.range (grammarCount b)).flatMap (grammarChecks b) ++ (List.range (stopCount b)).flatMap (stopChecks b))

end Tb

end Sys2Proof.Machine
end

