-- ==== Sys2Proof/Machine/Shear.lean ====
section
/-! DEFINITION. The Shear and the Solder as functions of an image and of the carried state: UTF-8, normalisation, cutting, and
rendering (R224 to R238, 07). -/

namespace Sys2Proof.Machine

/-! ### UTF-8 (R227) -/

/-- What stands at the head of a byte string: a character of `n` bytes, an ill-formed maximal subpart of `n` bytes, or a
well-formed prefix that ends with the string. -/
inductive Utf8 where
  | char (cp n : Nat)
  | bad (n : Nat)
  | more
  deriving DecidableEq, Repr

/-- Whether a byte is in a range. -/
def inRange (b : Byte) (lo hi : Nat) : Bool := decide (lo ≤ b.toNat) && decide (b.toNat ≤ hi)

/-- The continuation bytes after the second, the first `k` of `n` being good so far. -/
def utf8Tail : Nat → Nat → Nat → Bytes → Utf8
  | 0, cp, n, _ => .char cp n
  | _ + 1, _, _, [] => .more
  | k + 1, cp, n, b :: t => if inRange b 0x80 0xBF then utf8Tail k (cp * 64 + b.toNat % 64) (n + 1) t else .bad n

/-- A lead byte's second byte in its range, then `k` more. -/
def utf8Second (lead lo hi k : Nat) : Bytes → Utf8
  | [] => .more
  | b :: t => if inRange b lo hi then utf8Tail k (lead * 64 + b.toNat % 64) 2 t else .bad 1

/-- Decodes the head of a string under Table 3-7 of the Unicode Standard. -/
def utf8Head : Bytes → Utf8
  | [] => .more
  | b :: t =>
    let v := b.toNat
    if v < 0x80 then .char v 1
    else if v < 0xC2 then .bad 1
    else if v < 0xE0 then utf8Second (v % 32) 0x80 0xBF 0 t
    else if v = 0xE0 then utf8Second 0 0xA0 0xBF 1 t
    else if v = 0xED then utf8Second 13 0x80 0x9F 1 t
    else if v < 0xF0 then utf8Second (v % 16) 0x80 0xBF 1 t
    else if v = 0xF0 then utf8Second 0 0x90 0xBF 2 t
    else if v < 0xF4 then utf8Second (v % 8) 0x80 0xBF 2 t
    else if v = 0xF4 then utf8Second 4 0x80 0x8F 2 t
    else .bad 1

/-- A code point as UTF-8. -/
def utf8Bytes (cp : Nat) : Bytes :=
  let c (k : Nat) : Byte := BitVec.ofNat 8 (0x80 + cp / 64 ^ k % 64)
  if cp < 0x80 then [BitVec.ofNat 8 cp]
  else if cp < 0x800 then [BitVec.ofNat 8 (0xC0 + cp / 64), c 0]
  else if cp < 0x10000 then [BitVec.ofNat 8 (0xE0 + cp / 4096), c 1, c 0]
  else [BitVec.ofNat 8 (0xF0 + cp / 262144), c 2, c 1, c 0]

/-- A decoded code point: its value, its offset in the string, and whether it replaces an ill-formed subpart. -/
structure Decoded where
  cp  : Nat
  off : Nat
  sub : Bool
  deriving DecidableEq, Repr

/-- Decodes a string: the code points and the prefix carried over. At a close, a prefix is ill-formed too. -/
def utf8Decode (close : Bool) : Nat → Nat → Bytes → List Decoded × Bytes
  | 0, _, b => ([], b)
  | fuel + 1, off, b =>
    if b = [] then ([], [])
    else
      match utf8Head b with
      | .char cp n =>
        let (l, c) := utf8Decode close fuel (off + n) (b.drop n)
        (⟨cp, off, false⟩ :: l, c)
      | .bad n =>
        let (l, c) := utf8Decode close fuel (off + n) (b.drop n)
        (⟨0xFFFD, off, true⟩ :: l, c)
      | .more => if close then ([⟨0xFFFD, off, true⟩], []) else ([], b)

/-! ### Normalisation (R230) -/

/-- Inserts a code point into a run of marks, after those whose CCC is not greater. -/
def insertMark (img : Bytes) (x : Nat × Nat) : List (Nat × Nat) → List (Nat × Nat)
  | [] => [x]
  | y :: t =>
    if Tb.ccc (Tb.normEntry img x.1) < Tb.ccc (Tb.normEntry img y.1) then x :: y :: t else y :: insertMark img x t

/-- Stable sort of each run of code points with non-zero CCC. -/
def orderMarks (img : Bytes) (l : List (Nat × Nat)) : List (Nat × Nat) :=
  let (out, run) := l.foldl (fun (a : List (Nat × Nat) × List (Nat × Nat)) x =>
    if Tb.ccc (Tb.normEntry img x.1) = 0 then (a.1 ++ a.2 ++ [x], []) else (a.1, insertMark img x a.2)) ([], [])
  out ++ run

/-- What canonical composition has built: the output, the place of the last starter, and the CCC of the last code point
after it. -/
structure CompAcc where
  out     : List (Nat × Nat) := []
  starter : Option Nat := none
  last    : Option Nat := none

/-- Canonical composition of a segment (Unicode Standard Annex #15), its composites those of NORM_PAIRS. -/
def composeSeg (img : Bytes) (l : List (Nat × Nat)) : List (Nat × Nat) :=
  (l.foldl (fun (a : CompAcc) x =>
    let c := Tb.ccc (Tb.normEntry img x.1)
    let open_ := match a.last with | none => true | some k => decide (k < c)
    let made := match a.starter with
      | some i => if open_ then (Tb.pair img (a.out.getD i (0, 0)).1 x.1).map (fun y => (i, y)) else none
      | none => none
    match made with
    | some (i, y) => { a with out := a.out.set i (y, (a.out.getD i (0, 0)).2) }
    | none =>
      if c = 0 then { out := a.out ++ [x], starter := some a.out.length, last := none }
      else { a with out := a.out ++ [x], last := some c }) {}).out

/-- The bytes that a closed segment gives the cutter, with class, start and origin. -/
def emitSeg (img : Bytes) (l : List (Nat × Nat)) : List TailByte :=
  let l := orderMarks img l
  let l := if Tb.compose img then composeSeg img l else l
  l.flatMap (fun x =>
    (utf8Bytes x.1).zipIdx.map (fun b =>
      { byte := b.1, cls := Tb.cls (Tb.normEntry img x.1), cpStart := b.2 = 0, origin := x.2 }))

/-- The normaliser's state: the open segment, what it has emitted, and segments closed at 64 code points. -/
structure NormAcc where
  seg    : List (Nat × Nat)
  out    : List TailByte := []
  splits : Nat := 0

/-- One code point of a mapping's result joins the segment. -/
def normPush (img : Bytes) (origin cp : Nat) (a : NormAcc) : NormAcc :=
  let e := Tb.normEntry img cp
  let a := if Tb.ccc e = 0 && !Tb.compSecond e && !a.seg.isEmpty then
      { a with seg := [], out := a.out ++ emitSeg img a.seg } else a
  let a := if 64 ≤ a.seg.length then
      { seg := [], out := a.out ++ emitSeg img a.seg, splits := a.splits + 1 } else a
  { a with seg := a.seg ++ [(cp, origin)] }

/-- One decoded code point is mapped and joins the segment. -/
def normStep (img : Bytes) (a : NormAcc) (x : Nat × Nat) : NormAcc :=
  (Tb.mapping img x.1 (Tb.normEntry img x.1)).foldl (fun a cp => normPush img x.2 cp a) a

/-! ### Cutting (R232) -/

/-- Where a walk through the trie ended: its best token with the bytes it takes, and whether it ran out of bytes. -/
structure WalkEnd where
  best : Option (Nat × Nat)
  ran  : Bool
  deriving DecidableEq, Repr

/-- Walks the trie from a node over the bytes, `i` taken so far and `prev` the class of the last of them. -/
def walkTrie (img : Bytes) : List TailByte → Nat → Nat → Option Nat → Option (Nat × Nat) → WalkEnd
  | [], _, _, _, best => ⟨best, true⟩
  | b :: t, node, i, prev, best =>
    if (match prev with | some c => b.cpStart && Tb.breaks img c b.cls | none => false) then ⟨best, false⟩
    else
      match Tb.child img node b.byte.toNat with
      | none => ⟨best, false⟩
      | some n =>
        let best := match Tb.terminal img n with | some tok => some (i + 1, tok) | none => best
        walkTrie img t n (i + 1) (some b.cls) best

/-- What a cut yields: tokens with origins, the tail, and its counts. -/
structure CutAcc where
  toks     : List (Nat × Nat) := []
  tail     : List TailByte := []
  fallback : Nat := 0
  unk      : Nat := 0
  deriving DecidableEq, Repr

/-- Bytes up to the next start of a code point. -/
def toStart (l : List TailByte) : Nat := 1 + ((l.drop 1).takeWhile (fun b => !b.cpStart)).length

/-- Cuts bytes by leftmost longest match. -/
def cut (img : Bytes) (final : Bool) : Nat → List TailByte → CutAcc → CutAcc
  | 0, l, a => { a with tail := l }
  | fuel + 1, l, a =>
    match l with
    | [] => { a with tail := [] }
    | b :: _ =>
      let w := walkTrie img l 0 0 none none
      if w.ran && !final then { a with tail := l }
      else
        match w.best with
        | some (n, tok) => cut img final fuel (l.drop n) { a with toks := a.toks ++ [(tok, b.origin)] }
        | none =>
          let n := toStart l
          if Tb.byteBase img ≠ ones32 then
            cut img final fuel (l.drop n) { a with
              toks := a.toks ++ (l.take n).map (fun x => (Tb.byteBase img + x.byte.toNat, x.origin))
              fallback := a.fallback + n }
          else cut img final fuel (l.drop n) { a with toks := a.toks ++ [(Tb.unkToken img, b.origin)], unk := a.unk + 1 }

/-! ### An append (R225 to R228) -/

/-- What the Shear makes of a buffer. -/
structure Shorn where
  text     : TextRec
  toks     : List (Nat × Nat) := []
  replaced : Nat := 0
  splits   : Nat := 0
  fallback : Nat := 0
  unk      : Nat := 0
  deriving DecidableEq, Repr

/-- Cuts a buffer of an intake; in reject mode the offset of the first ill-formed subpart, from the intake's first byte. -/
def shear (img : Bytes) (reject final : Bool) (origin : Nat) (t : TextRec) (b : Bytes) : Except Nat Shorn :=
  let all := t.carry ++ b
  let (cps, carry) := utf8Decode final (all.length + 1) 0 all
  match (if reject then cps.find? (·.sub) else none) with
  | some x => .error (t.bytesIn - t.carry.length + x.off)
  | none =>
    let a := (cps.map (fun x => (x.cp, if x.off = 0 && t.carry ≠ [] then t.carryOrigin else origin))).foldl (normStep img)
      { seg := t.seg }
    let a := if final && !a.seg.isEmpty then { a with seg := [], out := a.out ++ emitSeg img a.seg } else a
    let bytes := t.tail ++ a.out
    let c := cut img final (bytes.length + 1) bytes {}
    let sub := (cps.filter (·.sub)).length
    let done := bytes.take (bytes.length - c.tail.length)
    .ok {
      text := { t with
        intakeOpen := true, originResult := origin = 2, carry
        carryOrigin := (if cps = [] && t.carry ≠ [] then t.carryOrigin else origin)
        prevClass := (match done.getLast? with | some x => x.cls | none => t.prevClass)
        seg := a.seg, tail := c.tail, staged := t.staged + c.toks.length, replaced := t.replaced + sub
        bytesIn := t.bytesIn + b.length }
      toks := c.toks, replaced := sub, splits := a.splits, fallback := c.fallback, unk := c.unk }

/-! ### The Solder (R235 to R238) -/

/-- U+FFFD. -/
def fffd : Bytes := [0xEF, 0xBF, 0xBD]

/-- Decodes output bytes: the completed characters, those that replace ill-formed subparts, and the prefix still held. -/
def outChars (b : Bytes) : List Bytes × Nat × Bytes :=
  let (cps, carry) := utf8Decode false (b.length + 1) 0 b
  (cps.map (fun x => if x.sub then fffd else utf8Bytes x.cp), (cps.filter (·.sub)).length, carry)

/-- Splits well-formed bytes into characters. -/
def charsOf (b : Bytes) : List Bytes := (outChars b).1

/-- The first match of a stop string: the end that is earliest, and the longest string that ends there, as start and end. -/
def firstMatch (strs : List Bytes) (b : Bytes) : Option (Nat × Nat) :=
  (List.range (b.length + 1)).findSome? (fun e =>
    let l := (strs.filter (fun x => x ≠ [] && decide (x.length ≤ e) && (b.take e).drop (e - x.length) = x)).map (·.length)
    match l.max? with
    | some n => some (e - n, e)
    | none => none)

/-- Length of the longest suffix that is a proper prefix of a stop string. -/
def partialMatch (strs : List Bytes) (b : Bytes) : Nat :=
  (((List.range 64).filter (fun k => decide (k ≤ b.length) && strs.any (fun x => decide (k < x.length)
    && x.take k = b.drop (b.length - k)))).max?).getD 0

/-- The characters that lie wholly before byte `n`. -/
def charsBefore (n : Nat) : List Bytes → List Bytes
  | [] => []
  | c :: t => if c.length ≤ n then c :: charsBefore (n - c.length) t else []

/-- The characters up to the one that holds the byte before `n`. -/
def charsThrough (n : Nat) : List Bytes → List Bytes
  | [] => []
  | c :: t => if n = 0 then [] else c :: charsThrough (n - c.length) t

/-- What the Solder does with one token's bytes. -/
structure Soldered where
  held     : Bytes
  hold     : Bytes
  out      : Bytes
  matched  : Bool := false
  replaced : Nat := 0
  deriving DecidableEq, Repr

/-- Assembles and matches one token (R236, R237). -/
def solder (ss : Tb.StopSet) (held hold tok : Bytes) : Soldered :=
  let (cs, sub, held') := outChars (held ++ tok)
  let pend := charsOf hold ++ cs
  let b := pend.flatten
  match firstMatch ss.strings b with
  | some (st, e) =>
    let pre := (charsBefore st pend).flatten
    let through := (charsThrough e pend).flatten
    { held := held', hold := [], out := if ss.include_ then through else pre, matched := true, replaced := sub }
  | none =>
    let k := partialMatch ss.strings b
    let pre := (charsBefore (b.length - k) pend).flatten
    { held := held', hold := b.drop pre.length, out := pre, replaced := sub }

/-- The bytes that settling the held bytes yields, and their delivery at a stop (R238). -/
def settle (drop stringStop : Bool) (held hold : Bytes) : Bytes :=
  if stringStop then []
  else hold ++ (if held = [] || drop then [] else fffd)

end Sys2Proof.Machine
end

