-- ==== Sys2Proof/Machine/Finisher.lean ====
section
/-! DEFINITION. The Armature and the Finisher as functions: grammar steps, allowed sets, candidate sets, the spinning generator,
sampling and speculative acceptance (R246 to R264, 08). -/

namespace Sys2Proof.Machine

/-! ### Grammar (R248 to R253) -/

/-- A grammar state: STATE, and the stack of symbols, entry 0 the bottom. -/
structure GState' where
  state : Nat := 0
  stack : List Nat := []
  deriving DecidableEq, Repr

/-- What a position's tokens are checked against: the bound generation's image and the offset of the grammar image. -/
structure Gram where
  img : Bytes
  /-- None without a grammar image. -/
  g   : Option Nat
  deriving DecidableEq, Repr

namespace Gram

/-- The grammar of a session's `grammar_image` in an image. -/
def of (img : Bytes) (n : Nat) : Gram := { img, g := if n = 0xFFFF then none else some (Tb.grammarAt img n) }

/-- Offset of a state entry. -/
def stateAt (x : Gram) (g st : Nat) : Nat := g + field x.img (g + 0x18) 4 + 16 * st

/-- The transition entry of a token's range. -/
def trans (x : Gram) (g st t : Nat) : Nat :=
  let o := x.stateAt g st
  let tb := field x.img (o + 8) 4
  let es := (List.range (field x.img (o + 0x0C) 2)).map (fun i => field x.img (g + field x.img (g + 0x1C) 4 + 8 * (tb + i)) 8)
  ((es.filter (fun e => decide (bits e 63 44 ≤ t))).getLast?).getD 0

/-- Whether a token is in a state's set (R253 condition 2). -/
def inSet (x : Gram) (g st t : Nat) : Bool :=
  let o := x.stateAt g st
  let sr := field x.img o 4
  let idx := sr % 2 ^ 30
  match sr / 2 ^ 30 with
  | 0 => bit (field x.img (g + field x.img (g + 0x2C) 4 + idx * Tb.maskBytes (field x.img (g + 0x34) 4) + t / 8) 1) (t % 8)
  | 1 => (List.range (field x.img (o + 4) 4)).any (fun i => field x.img (g + field x.img (g + 0x24) 4 + 4 * (idx + i)) 4 = t)
  | 2 => true
  | _ => false

/-- The allowed test of R253. -/
def allowed (x : Gram) (s : GState') (t : Nat) : Bool :=
  decide (t < Tb.vocab x.img) &&
  match x.g with
  | none => true
  | some g =>
    let op := bits (x.trans g s.state t) 43 40
    x.inSet g s.state t && op ≠ 5 && !(op = 1 && s.stack.length = field x.img (g + 0x3E) 1)
      && !((op = 2 || op = 4) && s.stack.isEmpty)

/-- The allowed set, in ascending order. -/
def set (x : Gram) (s : GState') : List Nat := (List.range (Tb.vocab x.img)).filter (x.allowed s)

/-- The state at the start of a turn (R254). -/
def start (x : Gram) : GState' :=
  match x.g with
  | none => {}
  | some g => { state := field x.img (g + 0x0C) 4 }

/-- Committing a token: the new state, and whether it ends a tool call (R251). -/
def step (x : Gram) (s : GState') (t : Nat) : GState' × Bool :=
  match x.g with
  | none => (s, false)
  | some g =>
    let e := x.trans g s.state t
    let pop : GState' :=
      { state := field x.img (g + field x.img (g + 0x38) 4 + 4 * (s.stack.getLast?.getD 0)) 4, stack := s.stack.dropLast }
    match bits e 43 40 with
    | 0 => ({ s with state := bits e 39 16 }, false)
    | 1 => ({ state := bits e 39 16, stack := s.stack ++ [bits e 15 0] }, false)
    | 2 => (pop, false)
    | 3 => ({ s with state := bits e 39 16 }, true)
    | 4 => (pop, true)
    | _ => (s, false)

/-- The escape token and the state it forces (R262). -/
def escape (x : Gram) : Option (Nat × Nat) :=
  match x.g with
  | none => none
  | some g => if field x.img (g + 0x10) 4 = ones32 then none else some (field x.img (g + 0x10) 4, field x.img (g + 0x14) 4)

end Gram

/-! ### The spinning generator (R258) -/

/-- One Philox round. -/
def philoxRound (x : List Nat) (k : Nat × Nat) : List Nat :=
  let p0 := 0xD2511F53 * x.getD 0 0
  let p1 := 0xCD9E8D57 * x.getD 2 0
  [ (p1 / 2 ^ 32) ^^^ x.getD 1 0 ^^^ k.1, p1 % 2 ^ 32, (p0 / 2 ^ 32) ^^^ x.getD 3 0 ^^^ k.2, p0 % 2 ^ 32 ]

/-- Philox-4×32 with 10 rounds. -/
def philox (seed p b k : Nat) : List Nat :=
  (List.range 10).foldl (fun x r =>
    philoxRound x ((seed % 2 ^ 32 + r * 0x9E3779B9) % 2 ^ 32, (seed / 2 ^ 32 + r * 0xBB67AE85) % 2 ^ 32))
    [p % 2 ^ 24, b % 2 ^ 24, k, 0x4E495053]

/-- u of R258, in FP32. -/
def spinU (x : List Nat) : F32 := f32r (.fin false (x.getD 0 0 / 256) (-24))

/-- A draw of a session: purpose 0 SAMPLE, 1 ACCEPT, 2 RESIDUAL. -/
def spin (seed p b k : Nat) : F32 := spinU (philox seed p b k)

/-! ### Candidates (R256) -/

/-- A row's candidates with their scores, in ascending order of token; NaN logits removed; reduced to +Inf. -/
structure Cands where
  c    : List (Nat × F32)
  nans : Nat := 0
  infs : Bool := false
  deriving DecidableEq, Repr

/-- Forms the candidate set of a row. -/
def candidates (q : Sampling) (allow : List Nat) (l : List F32) : Cands :=
  let bias (t : Nat) := q.bias.find? (fun b => b.token = t)
  let cs := allow.filter (fun t => !((bias t).any (·.ban)))
  let inv := f32recip q.temperature
  let z (t : Nat) : F32 :=
    let v := l.getD t canonicalNan
    let v := match bias t with | some b => f32add v b.value | none => v
    if q.temperature = 0 then v else f32mul v inv
  let zs := cs.map (fun t => (t, z t))
  let nans := (zs.filter (fun x => f32nan x.2)).length
  let ok := zs.filter (fun x => !f32nan x.2 && x.2 ≠ 0xFF800000)
  let infs := ok.filter (fun x => x.2 = 0x7F800000)
  if infs = [] then { c := ok, nans } else { c := infs.map (fun x => (x.1, 0)), nans, infs := true }

/-- Rank order: score descending, then token ascending (R257). -/
def rank (c : List (Nat × F32)) : List (Nat × F32) := sortBy (fun a b => !f32lt a.2 b.2) c

/-! ### Sampling (R257) -/

/-- log2 e in FP32 (R204). -/
def l2e : F32 := 0x3FB8AA3B

/-- The kept tokens with their cumulative weights, and each one's weight. -/
def keep (q : Sampling) (c : List (Nat × F32)) : List (Nat × F32 × F32) :=
  let k := rank c
  let k := if q.topK = 0 then k else k.take q.topK
  let m := match k with | x :: _ => x.2 | [] => 0
  let e := k.map (fun x => (x.1, f32exp2 (f32mul (f32sub x.2 m) l2e)))
  let cum := (e.foldl (fun (a : F32 × List (Nat × F32 × F32)) x =>
    let s := f32add a.1 x.2
    (s, a.2 ++ [(x.1, x.2, s)])) (0, [])).2
  let total := match cum.getLast? with | some x => x.2.2 | none => 0
  let thr := f32mul q.topP total
  let n := (cum.takeWhile (fun x => f32lt x.2.2 thr)).length + 1
  cum.take n

/-- Draws from a non-empty candidate set. -/
def drawToken (q : Sampling) (c : List (Nat × F32)) (u : F32) : Nat :=
  if q.temperature = 0 then (match rank c with | x :: _ => x.1 | [] => 0)
  else
    let ks := keep q c
    let top := match ks.getLast? with | some x => x.2.2 | none => 0
    let target := f32mul u top
    match ks.find? (fun x => f32lt target x.2.2) with
    | some x => x.1
    | none => match ks.getLast? with | some x => x.1 | none => 0

/-- P of R257 for a token. -/
def keptP (q : Sampling) (c : List (Nat × F32)) (t : Nat) : F32 :=
  let ks := keep q c
  let top := match ks.getLast? with | some x => x.2.2 | none => 0
  match ks.find? (fun x => x.1 = t) with
  | some x => f32mul x.2.1 (f32recip top)
  | none => 0

/-- A draw from the candidates without one token: K with `x` removed (R261). -/
def residual (q : Sampling) (c : List (Nat × F32)) (x : Nat) (u : F32) : Option Nat :=
  let k := rank c
  let k := if q.temperature = 0 || q.topK = 0 then k else k.take q.topK
  let c' := k.filter (fun y => y.1 ≠ x)
  if c' = [] then none else some (drawToken q c' u)

/-! ### Drafts and acceptance (R260, R261) -/

/-- Drafts proposed from the draft logits, at most `d`. -/
def propose (x : Gram) (q : Sampling) : List (List F32) → GState' → List Nat
  | [], _ => []
  | l :: ls, s =>
    match rank (candidates { q with temperature := 0 } (x.set s) l).c with
    | [] => []
    | t :: _ =>
      let (s', tool) := x.step s t.1
      if tool then [t.1] else t.1 :: propose x q ls s'

/-- The candidate sets that proposing forms, as far as it goes. -/
def draftSets (x : Gram) (q : Sampling) : List (List F32) → GState' → List Cands
  | [], _ => []
  | l :: ls, s =>
    let k := candidates { q with temperature := 0 } (x.set s) l
    k :: match rank k.c with
      | [] => []
      | t :: _ => if (x.step s t.1).2 then [] else draftSets x q ls (x.step s t.1).1

/-- What the rows of a step choose: tokens with whether each is an accepted draft, and the counts of R266. -/
structure Chosen where
  toks     : List (Nat × Bool) := []
  /-- NaNs of each row, with its position. -/
  nans     : List (Nat × Nat) := []
  infs     : Nat := 0
  rows     : Nat := 0
  drawn    : Nat := 0
  greedy   : Nat := 0
  /-- The candidate set at the first position was empty. -/
  empty    : Bool := false
  deriving DecidableEq, Repr

/-- Runs the rows of a step: `ds` the drafts still to test, `ls` the rows' logits, `p` the position, `b` the base. -/
def acceptRows (x : Gram) (q : Sampling) (seed b : Nat) : List Nat → List (List F32) → Nat → Bool → GState' → Chosen → Chosen
  | _, [], _, _, _, a => a
  | ds, l :: ls, p, first, s, a =>
    let k := candidates q (x.set s) l
    let a := { a with nans := a.nans ++ [(p, k.nans)], infs := a.infs + b2n k.infs, rows := a.rows + 1 }
    let tally (a : Chosen) : Chosen :=
      if q.temperature = 0 then { a with greedy := a.greedy + 1 } else { a with drawn := a.drawn + 1 }
    if k.c = [] then { a with empty := first }
    else
      match ds with
      | [] => tally { a with toks := a.toks ++ [(drawToken q k.c (spin seed p b 0), false)] }
      | d :: ds =>
        let ok := if q.temperature = 0 then (match rank k.c with | y :: _ => y.1 = d | [] => false)
          else f32lt (spin seed p b 1) (keptP q k.c d)
        if ok then acceptRows x q seed b ds ls (p + 1) false (x.step s d).1 { a with toks := a.toks ++ [(d, true)] }
        else
          match residual q k.c d (spin seed p b 2) with
          | some t => tally { a with toks := a.toks ++ [(t, false)] }
          | none => a

end Sys2Proof.Machine
end

