-- ==== Sys2Proof/Machine/Contracts.lean ====
section
/-! DEFINITION. Contract classes, admission meters, token credit and fair share in virtual time (R269 to R283, 09). -/

namespace Sys2Proof.Machine

namespace St
def classInUse : Nat := 0x0701
def awareLimit : Nat := 0x0702
def reportGone : Nat := 0x0703
def ringBusy : Nat := 0x0704
def meterInUse : Nat := 0x0705
end St

/-! ### Classes -/

/-- A class, the reset entry where it is not defined. -/
def getClass (s : State) (c : Nat) : ContractClass := tgetD s.pla.classes c {}

/-- Stores a class. -/
def setClass (c : Nat) (x : ContractClass) (s : State) : State :=
  { s with pla := { s.pla with classes := tset s.pla.classes c x } }

/-- Changes a defined class. -/
def modClass (c : Nat) (f : ContractClass → ContractClass) (s : State) : State :=
  { s with pla := { s.pla with classes := tmod s.pla.classes c f } }

/-- Whether a directory entry stands for a session that this chip keeps: parked or claimed (R98). -/
def DirEntry.kept (e : DirEntry) : Bool := e.dstate = .parked || e.dstate = .claimed

/-- Sessions of any state except FREE that name a class (R271): those in a slot here, parked ones, and those of this chip's directory that
are active on another chip. -/
def classBound (s : State) (c : Nat) : Nat :=
  (s.pln.slots.filter (fun e => e.2.cls = c)).length
    + ((s.pln.dir ++ s.fdy.imports).filter (fun e => e.2.cls = c && (e.2.kept || (e.2.dstate = .active && (slotOf s e.2.id).isNone)))).length

/-- The 64-byte class entry (R269, R270). -/
def classBytes (x : ContractClass) : Bytes :=
  fit 64 (u32 (2 ^ 31 + x.partition * 2 ^ 24 + x.recovery * 2 ^ 16 + x.narrow * 2 ^ 12 + x.ttftPct * 2 ^ 10
      + x.gapPct * 2 ^ 8 + b2n x.redDefer)
    ++ u16 x.meter ++ u16 x.classWeight ++ u32 x.tokenRate ++ u32 x.burst ++ u64 x.ttftTarget ++ u64 x.gapTarget
    ++ u32 x.windowS ++ u16 x.sessionWeight)

/-- The class entry that CLASS_SET's payload spells at offset `o` of a byte string. -/
def classOf (b : Bytes) : ContractClass :=
  let c := field b 0 4
  { partition := bits c 27 24, recovery := bits c 23 16, narrow := bits c 13 12, ttftPct := bits c 11 10
    gapPct := bits c 9 8, redDefer := bit c 0, meter := field b 4 2, classWeight := field b 6 2, tokenRate := field b 8 4
    burst := field b 0x0C 4, ttftTarget := field b 0x10 8, gapTarget := field b 0x18 8, windowS := field b 0x20 4
    sessionWeight := field b 0x24 2 }

/-- A partition's share, at its reset values where PARTITION_SHARE has not been used (R282, R283). -/
def getShare (s : State) (p : Nat) : Share := tgetD s.pla.shares p {}

/-- Stores a share. -/
def setShare (p : Nat) (x : Share) (s : State) : State :=
  { s with pla := { s.pla with shares := tset s.pla.shares p x } }

/-- A time or target after which a deadline falls: none for a target of 0 (R76). -/
def dueAt (ct target : Nat) : Nat := if target = 0 then never else ct + target

/-! ### Meters (R272 to R277) -/

/-- Exact gain of a bucket of rate `r` between two cts (R273). -/
def gain (r t0 t1 : Nat) : Nat := t1 * r / 1000000000 - t0 * r / 1000000000

/-- A meter brought up to date, without a debit; one whose last update lies ahead of ct gains nothing and keeps it (R274, R476). -/
def Meter.refill (x : Meter) (now : Nat) : Meter :=
  { x with
    tc := min x.cbs (x.tc + gain x.cir x.ctLast now)
    tp := min x.pbs (x.tp + gain x.pir x.ctLast now)
    ctLast := max x.ctLast now }

/-- The colour that a refilled meter gives: 0 green, 1 yellow, 2 red (R274). -/
def Meter.colour (x : Meter) (preColour : Nat) : Nat :=
  let pre := if x.aware then preColour else 0
  if pre = 2 || x.tp < 1000 then 2 else if pre = 1 || x.tc < 1000 then 1 else 0

/-- A meter after an admission of a final colour (R274). -/
def Meter.debit (x : Meter) (colour : Nat) : Meter :=
  match colour with
  | 0 => { x with tc := x.tc - 1000, tp := x.tp - 1000, green := x.green + 1 }
  | 1 => { x with tp := x.tp - 1000, yellow := x.yellow + 1 }
  | _ => { x with red := x.red + 1 }

/-- The ct from which a meter that coloured an admission red would colour another yellow or green (R276). -/
def Meter.retryCt (x : Meter) (now : Nat) : Nat :=
  ceilDiv ((1000 - x.tp + now * x.pir / 1000000000) * 1000000000) x.pir

/-- The meters that colour a class's admissions: its own and its partition's, where they exist. -/
def metersOf (s : State) (c : ContractClass) : List Nat :=
  [c.meter, (getShare s c.partition).meter].eraseDups.filter (fun k => thas s.pla.meters k)

/-- Applies a function to some meters. -/
def modMeters (l : List Nat) (f : Meter → Meter) (s : State) : State :=
  { s with pla := { s.pla with meters := l.foldl (fun t k => tmod t k f) s.pla.meters } }

/-- What an admission's colouring says. -/
structure Colouring where
  colour : Nat
  /-- RED_DEFER applies: the ct to retry at. -/
  retry  : Option Nat := none
  deriving DecidableEq, Repr

/-- The refill that precedes every colouring, and that stands whatever follows (R67, R274). -/
def refillMeters (c : ContractClass) (s : State) : State := modMeters (metersOf s c) (·.refill s.ct) s

/-- The worst colour of the refilled meters (R274). -/
def colourOf (s : State) (c : ContractClass) (pre : Nat) : Colouring :=
  let ms := (metersOf s c).map (fun k => tgetD s.pla.meters k {})
  let colour := (ms.map (·.colour pre)).foldl max 0
  let preRed := pre = 2 && ms.any (·.aware)
  let retry := if colour = 2 && c.redDefer && !preRed then
      some (((ms.filter (fun x => x.colour pre = 2)).map (·.retryCt s.ct)).foldl max 0)
    else none
  { colour, retry }

/-- Debits and counts a colour (R274, R297). -/
def countColour (c : ContractClass) (k : Colouring) (s : State) : State :=
  let s := modMeters (metersOf s c) (·.debit k.colour) s
  match k.colour with
  | 0 => bump .plaGreen c.partition 1 s
  | 1 => bump .plaYellow c.partition 1 s
  | _ =>
    let s := bump .plaRed c.partition 1 s
    if k.retry.isSome then bump .plaDeferred c.partition 1 s else s

/-- The 64-byte meter entry (R272). -/
def meterBytes (x : Meter) : Bytes :=
  fit 64 (u64 x.ctLast ++ u32 (2 ^ 31 + b2n x.aware * 2 ^ 30 + x.partition * 2 ^ 24) ++ u32 x.cir ++ u32 x.cbs ++ u32 x.pir
    ++ u32 x.pbs ++ u32 x.tc ++ u32 x.tp ++ u32 0 ++ u64 x.green ++ u64 x.yellow ++ u64 x.red)

/-! ### Token credit (R278, R279) -/

/-- What an update of a session's credit at ct `now` does: gain, excess over the class's burst, and the new credit. -/
def creditUpdate (c : ContractClass) (credit t0 now : Nat) : Nat × Nat × Nat :=
  let g := gain c.tokenRate t0 now
  (g, credit + g - c.burst, min c.burst (credit + g))

/-- Posts a credit update (R306). -/
def postCredit (cls g ex id : Nat) (s : State) : State :=
  if g = 0 && ex = 0 then s
  else post [⟨Lg.credit, cls, [(3, (g : Int)), (5, (ex : Int)), (0, (g : Int) - ex)]⟩] 7 id s

/-- Brings a session's credit up to date (R278); a shadow holds none (R394). -/
def updateCredit (id : Nat) (s : State) : State :=
  match getSess s id with
  | none => s
  | some x =>
    if isShadow s id || !thas s.pla.classes x.cls then s
    else
      let (g, ex, v) := creditUpdate (getClass s x.cls) x.credit x.q.ctCredit s.ct
      let s := postCredit x.cls g ex id s
      let s := if ex = 0 then s else bump .plaExpired x.partition ex s
      modSess id (fun x => { x with credit := v, q := { x.q with ctCredit := max x.q.ctCredit s.ct } }) s

/-! ### Tags (R280 to R282) -/

/-- Tags are 64 bits and are compared by their signed difference. -/
def tagAdd (a b : Nat) : Nat := (a + b) % 2 ^ 64
def tagDiff (a b : Nat) : Int := toSigned 64 ((a + 2 ^ 64 - b) % 2 ^ 64)
def tagMax (a b : Nat) : Nat := if tagDiff a b < 0 then b else a

/-- The least of some tags. -/
def tagMin : List Nat → Option Nat
  | [] => none
  | a :: l => some (l.foldl (fun m b => if tagDiff b m < 0 then b else m) a)

/-- Backlogged sessions of a class (R281). -/
def backlogged (s : State) (c : Nat) : List Session :=
  (s.pln.slots.filter (fun e => e.2.cls = c && e.2.q.ctBacklog ≠ 0)).map (·.2)

/-- Re-evaluates the virtual times of a class and of its partition (R282). -/
def liftV (c : Nat) (s : State) : State :=
  let s := match tagMin ((backlogged s c).map (·.q.start)) with
    | some v => modClass c (fun x => { x with vtime := tagMax x.vtime v }) s
    | none => s
  let p := (getClass s c).partition
  match tagMin ((s.pla.classes.filter (fun e => e.2.partition = p && e.2.backlogged)).map (·.2.start)) with
  | some v =>
    let h := getShare s p
    setShare p { h with vtime := tagMax h.vtime v } s
  | none => s

/-- The fair-share gate of R282. -/
def fairOk (s : State) (x : Session) : Bool :=
  let c := getClass s x.cls
  let h := getShare s x.partition
  let lag : Int := h.fairLag * 2 ^ 20
  h.fairLag = 0 || (decide (tagDiff x.q.start c.vtime < lag) && decide (tagDiff c.start h.vtime < lag))

/-- A session becomes backlogged at ct `ct`: it wakes at its level's virtual time, and its class with it (R281). Where its fair share lets
it, it is eligible from then on (R71, R74). -/
def wakeQueue (id ct : Nat) (s : State) : State :=
  match getSess s id with
  | none => s
  | some x =>
    if x.q.ctBacklog ≠ 0 then s
    else
      let c := getClass s x.cls
      let s := modSess id (fun x => { x with q := { x.q with
        start := tagMax x.q.finish c.vtime, ctBacklog := max 1 ct, onCredit := false } }) s
      let s := if c.backlogged then s
        else modClass x.cls (fun c => { c with backlogged := true, start := tagMax c.finish (getShare s c.partition).vtime }) s
      let s := liftV x.cls s
      match getSess s id with
      | some x => if fairOk s x then modSess id (fun x => { x with readyCt := ct, q := { x.q with eligible := true } }) s else s
      | none => s

/-- A session ceases to be backlogged (R281). -/
def restQueue (id : Nat) (s : State) : State :=
  match getSess s id with
  | none => s
  | some x =>
    if x.q.ctBacklog = 0 then s
    else
      let s := modSess id (fun x => { x with q := { x.q with ctBacklog := 0, eligible := false } }) s
      modClass x.cls (fun c => { c with backlogged := !(backlogged s x.cls).isEmpty }) s

/-- A backlogged session becomes eligible, or ceases to be, as its fair share says (R74, R282). -/
def noteEligible (id : Nat) (s : State) : State :=
  match getSess s id with
  | none => s
  | some x =>
    let e := x.q.ctBacklog ≠ 0 && fairOk s x
    if e = x.q.eligible then s
    else modSess id (fun x => { x with readyCt := if e then s.ct else x.readyCt, q := { x.q with eligible := e } }) s

/-- The first ct at which a session holds `need` milli-tokens, counted from its last credit update; none if its class's burst stops it
before (R273, R278, R279). -/
def creditDue (c : ContractClass) (x : Session) (need : Nat) : Option Nat :=
  if c.tokenRate = 0 || (decide (c.burst < need) && decide (x.credit < need)) then (if need ≤ x.credit then some 0 else none)
  else some (ceilDiv ((need + x.q.ctCredit * c.tokenRate / 1000000000 - x.credit) * 1000000000) c.tokenRate)

/-- Charges a grant of `n` tokens; the session is no longer backlogged once it has something in flight, its class while
another session is (R280, R281). -/
def chargeGrant (id n : Nat) (s : State) : State :=
  match getSess s id with
  | none => s
  | some x =>
    let c := getClass s x.cls
    let f := tagAdd x.q.start (ceilDiv (n * 2 ^ 20) c.sessionWeight)
    let cf := tagAdd c.start (ceilDiv (n * 2 ^ 20) c.classWeight)
    let s := modSess id (fun x => { x with q := { x.q with finish := f, ctBacklog := 0, eligible := false } }) s
    let still := !(backlogged s x.cls).isEmpty
    let s := modClass x.cls (fun c => { c with finish := cf, backlogged := still, start := if still then cf else c.start }) s
    liftV x.cls s

/-! ### Units that serve every partition from one queue (R283) -/

/-- The units: the Shear's lanes and the stream writer. -/
inductive Server where
  | lane | stream
  deriving DecidableEq, Repr

/-- A partition's queue in a unit. -/
def partQueue (u : Server) (p : Nat) (s : State) : PartQueue :=
  match u with
  | .lane => (getShare s p).lane
  | .stream => (getShare s p).stream

/-- Stores it. -/
def setPartQueue (u : Server) (p : Nat) (q : PartQueue) (s : State) : State :=
  match u with
  | .lane => setShare p { getShare s p with lane := q } s
  | .stream => setShare p { getShare s p with stream := q } s

/-- A unit's virtual time. -/
def serverV (u : Server) (s : State) : Nat :=
  match u with
  | .lane => s.pla.laneV
  | .stream => s.pla.streamV

/-- Re-evaluates a unit's virtual time (R282, R283). -/
def liftServer (u : Server) (s : State) : State :=
  match tagMin ((((List.range 16).map (fun p => partQueue u p s)).filter (·.busy)).map (·.start)) with
  | none => s
  | some v =>
    match u with
    | .lane => { s with pla := { s.pla with laneV := tagMax s.pla.laneV v } }
    | .stream => { s with pla := { s.pla with streamV := tagMax s.pla.streamV v } }

/-- Partitions become backlogged in a unit, or cease to be, as they have work there: `work` names those that have (R281, R283). -/
def wakeParts (u : Server) (work : List Nat) (s : State) : State :=
  (List.range 16).foldl (fun s p =>
    let q := partQueue u p s
    if q.busy = work.contains p then s
    else if q.busy then setPartQueue u p { q with busy := false } s
    else liftServer u (setPartQueue u p { q with start := tagMax q.finish (serverV u s), busy := true } s)) s

/-- The partition that a unit serves next, of those that have work: the least start tag, then the lowest number (R283). -/
def nextPartition (u : Server) (ps : List Nat) (s : State) : Option Nat :=
  (ps.foldl (fun (b : Option (Nat × Nat)) p =>
    let t := (partQueue u p s).start
    match b with
    | none => some (t, p)
    | some (v, q) => if tagDiff t v < 0 then some (t, p) else some (v, q)) none).map (·.2)

/-- A unit has served a partition at cost `n`; `work` names the partitions that have work left (R280, R283). -/
def chargePart (u : Server) (p n : Nat) (work : List Nat) (s : State) : State :=
  let q := partQueue u p s
  let f := tagAdd q.start (ceilDiv (n * 2 ^ 20) (getShare s p).weight)
  let still := work.contains p
  liftServer u (setPartQueue u p { start := if still then f else q.start, finish := f, busy := still } s)

/-- Sessions, active or parked, of a partition that deliver to a stream target. -/
def targetUsed (s : State) (p target : Nat) : Bool :=
  s.pln.slots.any (fun e => e.2.partition = p && e.2.streamTarget = target)
    || (s.pln.dir ++ s.fdy.imports).any (fun e => e.2.partition = p && e.2.kept
      && ((getStore s e.2.id).image.any (fun x => x.streamTarget = target)))

end Sys2Proof.Machine
end

