-- ==== Sys2Proof/Machine/Gauge.lean ====
section
/-! DEFINITION. The Gauge: histograms, windows, percentiles, verdicts and signed reports (R287 to R295, 09). -/

namespace Sys2Proof.Machine

/-! ### Buckets (R288) -/

/-- The largest n with n^8 ≤ v, below 2^40. -/
def root8 (v : Nat) : Nat :=
  (List.range 40).foldl (fun c i => let d := c + 2 ^ (39 - i); if d ^ 8 ≤ v then d else c) 0

/-- B(i) = floor(1,000 × 2^(i / 8) + 1/2), exactly. -/
def bucketFloor (i : Nat) : Nat := (root8 (1000 ^ 8 * 2 ^ (i + 8)) + 1) / 2

/-- The bucket of a sample: none below B(0), 192 at or above B(192). -/
def bucketOf (v : Nat) : Option Nat := ((List.range 193).filter (fun i => decide (bucketFloor i ≤ v))).getLast?

/-- A sample of weight `w` placed in a metric's counters, `over` telling that it is strictly above the target. -/
def MetricBank.add (b : MetricBank) (v w target : Nat) : MetricBank :=
  let b := match bucketOf v with
    | none => { b with under := b.under + w }
    | some 192 => { b with above := b.above + w }
    | some i => { b with buckets := tset b.buckets i (tgetD b.buckets i 0 + w) }
  if target ≠ 0 && target < v then { b with overTarget := b.overTarget + w } else b

/-- N of R290. -/
def MetricBank.count (b : MetricBank) : Nat := b.under + (b.buckets.map (·.2)).sum + b.above

/-- The four percentiles as fractions, by code (R270, R290). -/
def pctNum : Nat → Nat
  | 0 => 1
  | 1 => 9
  | 2 => 99
  | _ => 999
def pctDen : Nat → Nat
  | 0 => 2
  | 1 => 10
  | 2 => 100
  | _ => 1000

/-- Walks the buckets to rank `r`. -/
def walkRank (b : MetricBank) (r : Nat) : List Nat → Nat → Nat
  | [], _ => ones64
  | i :: is, acc =>
    let acc := acc + tgetD b.buckets i 0
    if r ≤ acc then bucketFloor (i + 1) else walkRank b r is acc

/-- A percentile value: the upper bound of its bucket (R290). -/
def MetricBank.pct (b : MetricBank) (q : Nat) : Nat :=
  let r := ceilDiv (b.count * pctNum q) (pctDen q)
  if r ≤ b.under then 1000 else walkRank b r (List.range 192) b.under

/-- The verdict: 0 MET, 1 MISSED, 2 NO_TARGET, 3 NO_SAMPLES (R290). -/
def MetricBank.verdict (b : MetricBank) (target q : Nat) : Nat :=
  if b.count = 0 then 3
  else if target = 0 then 2
  else if b.overTarget * pctDen q ≤ b.count * (pctDen q - pctNum q) then 0 else 1

/-! ### Windows (R289) -/

/-- Nanoseconds of a second. -/
def second : Nat := 1000000000

/-- A declared loss of time (R475). -/
def timeLost (s : State) : Bool := s.clk.tstate = .lost || s.clk.tstate = .freeRun

/-- A window that opens at `ct` and ends at the next boundary of its length. -/
def openWindow (s : State) (ct windowS : Nat) : Window :=
  let len := max 1 windowS * second
  { start := ct, stop := (ct / len + 1) * len, windowS
    short := ct % len ≠ 0
    holdover := s.clk.tstate = .holdover, timeLost := timeLost s }

/-- A class's Gauge record. -/
def getGauge (s : State) (c : Nat) : Option GaugeClass := tget s.gau.classes c

/-- Stores it; `sseq` rises by two with every change (R299). -/
def setGauge (c : Nat) (g : GaugeClass) (s : State) : State :=
  { s with gau := { s.gau with classes := tset s.gau.classes c { g with sseq := (g.sseq + 2) % 2 ^ 32 } } }

/-- The target and percentile code of a metric (R292). -/
def metricTarget (x : ContractClass) : Nat → Nat × Nat
  | 0 => (x.ttftTarget, x.ttftPct)
  | 1 => (x.gapTarget, x.gapPct)
  | _ => (0, 0)

/-- A metric block of a report (R292). -/
def metricBlock (b : MetricBank) (target q : Nat) : Bytes :=
  fit 0x650 (u64 b.count ++ u64 b.under ++ u64 b.above ++ u64 b.overTarget ++ u64 target ++ u8 q ++ u8 (b.verdict target q)
    ++ zeros 6 ++ (List.range 4).flatMap (fun k => u64 (b.pct k))
    ++ (List.range 192).flatMap (fun i => u64 (tgetD b.buckets i 0)))

/-- Banks of a window in metric order. -/
def Window.banks (w : Window) : List MetricBank := [w.ttft, w.gap, w.turn]

/-- Bytes 0x0000 to 0x13FF of a report (R291). -/
def reportBody (x : ContractClass) (c seq : Nat) (w : Window) (late : Nat) : Bytes :=
  fit 0x1400 (fit 0x100 (u32 0x31505247 ++ u16 1 ++ u8 x.partition
      ++ u8 (b2n w.short + 2 * b2n w.stepped + 4 * b2n w.holdover + 8 * b2n w.timeLost) ++ u32 c ++ u32 w.windowS
      ++ u64 w.start ++ u64 (w.stop - 1) ++ u64 seq ++ deviceId ++ fit 32 (Config.blake3 (classBytes x)) ++ u64 late
      ++ u64 w.hostStall ++ u64 0 ++ u64 w.depthSum ++ u32 w.depthMax ++ u32 w.depthN ++ u64 w.grants ++ u64 w.delaySum
      ++ u64 w.delayMax)
    ++ (w.banks.zipIdx.flatMap (fun b => metricBlock b.1 (metricTarget x b.2).1 (metricTarget x b.2).2)))

/-- A window's report, which joins those that wait for the Hallmark (R291, R293). -/
def closeReport (c : Nat) (w : Window) (final : Bool) (s : State) : State :=
  match getGauge s c with
  | none => s
  | some g =>
    let x := getClass s c
    let seq := s.aon.reportSeq
    let r : Report := {
      cls := c, seq, body := reportBody x c seq w g.lateNext, final
      verdicts := w.banks.zipIdx.map (fun b => b.1.verdict (metricTarget x b.2).1 (metricTarget x b.2).2)
      pcts := w.banks.flatMap (fun b => (List.range 4).map b.pct)
      targetPct := w.banks.zipIdx.map (fun b => (metricTarget x b.2).2) }
    let s := setGauge c { g with lateNext := 0 } s
    { s with gau := { s.gau with toSign := s.gau.toSign ++ [r] }, aon := { s.aon with reportSeq := seq + 1 } }

/-- The window that has ended closes (R289). -/
def closeEnding (c : Nat) (s : State) : State :=
  match getGauge s c with
  | some g =>
    match g.ending with
    | some w => closeReport c w false (setGauge c { g with ending := none } s)
    | none => s
  | none => s

/-- Moves past the ends of windows up to ct, at most `fuel` of them. -/
def rollWindow (c : Nat) : Nat → State → State
  | 0, s => s
  | fuel + 1, s =>
    match getGauge s c with
    | none => s
    | some g =>
      if s.ct < g.opened.stop then s
      else
        let s := closeEnding c s
        match getGauge s c with
        | none => s
        | some g =>
          let s := setGauge c { g with ending := some g.opened, opened := openWindow s g.opened.stop (getClass s c).windowS } s
          rollWindow c fuel s

/-- Brings a class's windows up to the present ct. -/
def rollGauge (c : Nat) (s : State) : State :=
  match getGauge s c with
  | none => s
  | some g => rollWindow c ((s.ct - g.opened.start) / (max 1 g.opened.windowS * second) + 2) s

/-- A change applied to the class's open window. -/
def modOpen (c : Nat) (f : Window → Window) (s : State) : State :=
  let s := rollGauge c s
  match getGauge s c with
  | some g => setGauge c { g with opened := f g.opened } s
  | none => s

/-- A metric's bank in a window. -/
def Window.setBank (w : Window) (k : Nat) (f : MetricBank → MetricBank) : Window :=
  match k with
  | 0 => { w with ttft := f w.ttft }
  | 1 => { w with gap := f w.gap }
  | _ => { w with turn := f w.turn }

/-- A late sample: counted in the next report, and told by an event at most once per 1 ms (R289, R301). -/
def lateSample (c w : Nat) (s : State) : State :=
  let s := match getGauge s c with
    | some g => setGauge c { g with lateNext := g.lateNext + w } s
    | none => s
  let s := bump .gauLate (getClass s c).partition w s
  let gau := { s.gau with late := s.gau.late + w, lateNew := s.gau.lateNew + w }
  if (match gau.lateCt with | some t => decide (s.ct < t + 1000000) | none => false) then { s with gau }
  else note 0x0704 0 (getClass s c).partition 0 [c, gau.lateNew] { s with gau := { gau with lateCt := some s.ct, lateNew := 0 } }

/-- Records a sample of metric `k` taken at `ct` (R287, R289). -/
def gaugeSample (c k ct v w : Nat) (s : State) : State :=
  if w = 0 then s
  else
    let s := rollGauge c s
    match getGauge s c with
    | none => s
    | some g =>
      let add (x : Window) := x.setBank k (fun b => b.add v w (metricTarget (getClass s c) k).1)
      if g.opened.start ≤ ct then setGauge c { g with opened := add g.opened } s
      else
        match g.ending with
        | some e => if e.start ≤ ct && decide (ct < e.stop) then setGauge c { g with ending := some (add e) } s else lateSample c w s
        | none => lateSample c w s

/-- A class's open window closes early (R289, R302). -/
def closeEarly (c : Nat) (stepped final : Bool) (stop : Nat) (s : State) : State :=
  let s := rollGauge c s
  match getGauge s c with
  | none => s
  | some g => closeReport c { g.opened with stop, short := true, stepped := g.opened.stepped || stepped } final s

/-- A newly defined class's record: its first window starts at the definition. -/
def openGauge (c windowS : Nat) (s : State) : State :=
  let w := openWindow s s.ct windowS
  match getGauge s c with
  | some g => setGauge c { g with opened := w } s
  | none => setGauge c { opened := w } s

/-- A flag set on every open window (R289). -/
def markWindows (f : Window → Window) (s : State) : State :=
  { s with gau := { s.gau with classes := s.gau.classes.map (fun e => (e.1, { e.2 with opened := f e.2.opened })) } }

/-! ### GAUGE_WINDOW_CLOSE, REPORT_SIGN, GAUGE_SAMPLE -/

/-- GAUGE_WINDOW_CLOSE: 2 ms after a window's end it closes (R289, R290). -/
def execGaugeWindowClose (m : Moment) (cls : Nat) (s : State) : Out :=
  let s := rollGauge cls (s.at m)
  .next (match getGauge s cls with
    | some g =>
      match g.ending with
      | some w => if w.stop + 2000000 ≤ s.ct then closeEnding cls s else s
      | none => s
    | none => s)

/-- A signed report enters its class's store of four (R294). -/
def storeReport (r : Report) (s : State) : State :=
  match getGauge s r.cls with
  | none => s
  | some g =>
    let l := g.reports ++ [r]
    let us := r.pcts.map (fun v => if v = ones64 then ones32 else ceilDiv v 1000)
    let s := setGauge r.cls { g with reports := l.drop (l.length - 4), lastSeq := r.seq, lastPct := us, lastVerdict := r.verdicts } s
    if 4 < l.length then
      bump .gauOverwritten (field r.body 6 1) 1 { s with gau := { s.gau with overwritten := s.gau.overwritten + 1 } }
    else s

/-- The events of a signed report (R294, R301). -/
def reportEvents (r : Report) (p : Nat) (s : State) : State :=
  let s := note 0x0701 0 p 0 [r.cls, r.seq, leVal (r.verdicts.map (BitVec.ofNat 8))] s
  r.verdicts.zipIdx.foldl (fun s v =>
    if v.1 = 1 then note 0x0702 1 p 0 [r.cls, v.2, r.seq, r.pcts.getD (4 * v.2 + r.targetPct.getD v.2 0) 0] s else s) s

/-- After the final report of a deleted class: its record goes, or, where the class is defined again, is emptied (R294). -/
def dropGauge (c : Nat) (s : State) : State :=
  match getGauge s c with
  | some g =>
    if thas s.pla.classes c then setGauge c { g with reports := [], lastSeq := 0, lastPct := [], lastVerdict := [] } s
    else { s with gau := { s.gau with classes := tdel s.gau.classes c } }
  | none => s

/-- A report as it is signed (R291, R293). -/
def Report.signed (r : Report) (s : State) : Report := { r with body := r.body ++ fit 0xD30 (aliasSign s (r.body.take 0x1400)) }

/-- REPORT_SIGN: the oldest closed report is signed, stored and told (R293, R294). -/
def execReportSign (m : Moment) (s : State) : Out :=
  let s := s.at m
  .next (match s.gau.toSign with
    | [] => s
    | r :: rest =>
      let r := r.signed s
      let s := bump .gauReports (field r.body 6 1) 1 { s with gau := { s.gau with toSign := rest, reports := s.gau.reports + 1 } }
      let s := reportEvents r (field r.body 6 1) (storeReport r s)
      if r.final then dropGauge r.cls s else s)

/-- Foundry work that is not a run-ahead's: the ordinary queue depth (R116, R295). -/
def fdyDepth (s : State) : Nat :=
  (s.fdy.store.filter (fun e => !((getFop s e.2.fop).any (fun f => f.kind = .runAhead)))).length

/-- A class's depth enters its open window (R295). -/
def sampleClass (c : Nat) (s : State) : State :=
  let d := (backlogged s c).length
  let s := modOpen c (fun w => { w with depthSum := w.depthSum + d, depthMax := max w.depthMax d, depthN := w.depthN + 1 }) s
  match getGauge s c with
  | some g => setGauge c { g with depthNow := d } s
  | none => s

/-- The depths of the chip's queues and the largest seen (R295). -/
def sampleQueues (s : State) : State :=
  let f := fdyDepth s
  let q := s.pln.raiseWait.length
  let h := s.txt.waiting.length
  { s with gau := { s.gau with
    fdyDepth := f, fdyMax := max s.gau.fdyMax f, raiseMax := max s.gau.raiseMax q, shearWait := h
    shearMax := max s.gau.shearMax h } }

/-- The same of one partition's share of the queues (R51). -/
def samplePart (s : State) (p : Nat) (x : PartSample) : PartSample :=
  let f := (s.fdy.store.filter (fun e => e.2.partition = p && !((getFop s e.2.fop).any (fun f => f.kind = .runAhead)))).length
  let q := (s.pln.raiseWait.filter (fun w => w.partition = p)).length
  let h := (s.txt.waiting.filter (fun j => j.partition = p)).length
  { fdyDepth := f, fdyMax := max x.fdyMax f, raiseMax := max x.raiseMax q, shearWait := h, shearMax := max x.shearMax h }

/-- Every partition's share. -/
def sampleParts (s : State) : State :=
  { s with gau := { s.gau with parts := sampleAll s } }
where
  sampleAll (s : State) : Tab PartSample :=
    (List.range 16).foldl (fun t p => tset t p (samplePart s p (tgetD t p {}))) s.gau.parts

/-- GAUGE_SAMPLE: class depths and the chip's queues (R295). -/
def execGaugeSample (m : Moment) (s : State) : Out :=
  let s := s.at m
  if s.ct % max 1 s.gau.period ≠ 0 then .next s
  else .next (sampleQueues <| sampleParts ((tkeys s.pla.classes).foldl (fun s c => sampleClass c s) s))

/-! ### What the Gauge records of sessions -/

/-- A grant: its count, and its delay since the session became backlogged (R291, R295). -/
def gaugeGrant (x : Session) (s : State) : State :=
  let d := if x.q.ctBacklog = 0 then 0 else s.ct - x.q.ctBacklog
  modOpen x.cls (fun w => { w with grants := w.grants + 1, delaySum := w.delaySum + d, delayMax := max w.delayMax d }) s

/-- Accounts for time withheld for want of stream-buffer room (R287, R297): `room` tells that no grant is withheld for it now. -/
def streamStall (x : Session) (room : Bool) (s : State) : State :=
  if room then
    if x.q.ctStall = 0 then s
    else
      let d := s.ct - x.q.ctStall
      let s := modOpen x.cls (fun w => { w with hostStall := w.hostStall + d }) (bump .plaStreamStallNs x.partition d s)
      modSess x.id (fun x => { x with q := { x.q with ctStall := 0 } }) s
  else if x.q.ctStall = 0 then modSess x.id (fun x => { x with q := { x.q with ctStall := max 1 s.ct } }) s
  else s

/-- A session leaves the queues for grants: nothing is withheld from it, and it is not backlogged (R281, R287). -/
def leaveQueue (id : Nat) (s : State) : State :=
  match getSess s id with
  | none => s
  | some x => restQueue id (streamStall x true s)

/-- TTFT of a turn's first committed sampled token (R287). -/
def gaugeTtft (x : Session) (s : State) : State :=
  let t := (getClass s x.cls).ttftTarget
  if t = 0 then s else gaugeSample x.cls 0 s.ct (x.ctFirst + t - x.turnDeadline) 1 s

/-- GAP of a later step that commits `k` sampled tokens, the last before it at `last` (R287). -/
def gaugeGap (cls last k : Nat) (s : State) : State :=
  if k = 0 then s else gaugeSample cls 1 s.ct ((s.ct - last) / k) k s

/-- TURN of a stop (R287). -/
def gaugeTurn (x : Session) (s : State) : State :=
  if x.newTokens < 2 then s
  else gaugeSample x.cls 2 s.ct ((x.ctLast - x.ctFirst) / (x.newTokens - 1)) 1 s

end Sys2Proof.Machine
end

