-- ==== Sys2Proof/Machine/Planisher.lean ====
section
/-! DEFINITION. The commands of group 0x07: classes, meters, shares, stream rings and the Gauge (R269 to R302, 09). -/

namespace Sys2Proof.Machine

/-! ### Where a definition may lie -/

/-- A partition that a definition names must be ACTIVE (R269, R272). -/
def definable (i : OpInfo) (r : Req) (p : Nat) (s : State) : Except Nat Unit := do
  guard' ((getPart s p).pstate ≠ .off) St.badField
  partGate i r p s

/-! ### CLASS_SET, CLASS_READ, CLASS_DELETE -/

def opClassSet : OpInfo := { opcode := 0x0700, pf0 := true, rsvd := [(2, 14), (0x36, 26)], rbits := [(0x10, 4, 0x70C0C0FE)] }

/-- The ranges of a class entry (R269, R270, R296). -/
def classInRange (x : ContractClass) : Bool :=
  decide (x.narrow ≤ 2) && (decide (x.meter < 16384) || x.meter = 0xFFFF) && x.classWeight ≠ 0 && x.tokenRate ≠ 0
    && decide (1000 ≤ x.burst) && decide (1 ≤ x.windowS) && decide (x.windowS ≤ 86400) && x.sessionWeight ≠ 0

/-- A change of a bound class keeps these fields (R271). -/
def classFixed (x y : ContractClass) : Bool :=
  x.partition = y.partition && x.ttftPct = y.ttftPct && x.gapPct = y.gapPct && x.ttftTarget = y.ttftTarget
    && x.gapTarget = y.gapTarget

/-- The meter that a class or a partition names is defined and belongs to the partition (R272). -/
def meterFits (s : State) (p k : Nat) : Bool :=
  k = 0xFFFF || (match tget s.pla.meters k with | some x => x.partition = p | none => false)

/-- CLASS_SET: defines or changes a class (R271). -/
def bodyClassSet (_ : Moment) (r : Req) (s : State) : Reply :=
  let c := r.f 0 2
  let y := classOf (r.payload.drop 0x10)
  let old := tget s.pla.classes c
  checked s (do
    guard' (decide (c < 4096) && classInRange y) St.badField
    definable opClassSet r y.partition s
    guard' (meterFits s y.partition y.meter) St.badField
    match old with
    | some x => guard' (classBound s c = 0 || classFixed x y) St.classInUse
    | none => pure ()) fun _ =>
    match old with
    | some x =>
      let s := if x.windowS ≠ y.windowS then closeEarly c false false s.ct s else rollGauge c s
      let s := setClass c { y with start := x.start, finish := x.finish, vtime := x.vtime, backlogged := x.backlogged } s
      .ok (if x.windowS ≠ y.windowS then openGauge c y.windowS s else s)
    | none => .ok (openGauge c y.windowS (setClass c y s))

def opClassRead : OpInfo := { opcode := 0x0701, mctp := true }

/-- CLASS_READ: the class entry and its fair-share state; zeros for a class that the caller may not see (R269). -/
def bodyClassRead (_ : Moment) (r : Req) (s : State) : Reply :=
  let c := r.f 0 2
  if 4095 < c then .err s St.badField
  else
    match tget s.pla.classes c with
    | some x =>
      if r.fn ≠ 0 && x.partition ≠ r.fn - 1 then .ok s (zeros 96)
      else .ok s (classBytes x ++ u64 x.start ++ u64 x.finish ++ u64 x.vtime ++ u32 (classBound s c)
        ++ u32 (backlogged s c).length)
    | none => .ok s (zeros 96)

def execClassRead (m : Moment) (r : Req) (s : State) : Out := .next (runCommand opClassRead bodyClassRead m r s)

def opClassDelete : OpInfo := { opcode := 0x0702, pf0 := true }

/-- CLASS_DELETE: an unbound class goes; its open window yields a final report (R294, R302). -/
def bodyClassDelete (_ : Moment) (r : Req) (s : State) : Reply :=
  let c := r.f 0 2
  match tget s.pla.classes c with
  | none => .err s St.badField
  | some x =>
    checked s (do
      guard' (decide (c < 4096)) St.badField
      partGate opClassDelete r x.partition s
      guard' (classBound s c = 0) St.classInUse) fun _ =>
      let s := closeEarly c false true s.ct (closeEnding c (rollGauge c s))
      .ok { s with pla := { s.pla with classes := tdel s.pla.classes c } }

def execClassDelete (m : Moment) (r : Req) (s : State) : Out := .next (runCommand opClassDelete bodyClassDelete m r s)

/-! ### METER_SET, METER_READ -/

def opMeterSet : OpInfo := { opcode := 0x0703, pf0 := true, rsvd := [(3, 5)], rbits := [(8, 4, 0x30FFFFFF)] }

/-- Whether a class or a partition names a meter (R272). -/
def meterNamed (s : State) (k : Nat) : Bool :=
  s.pla.classes.any (fun e => e.2.meter = k) || s.pla.shares.any (fun e => e.2.meter = k)

/-- Colour-aware meters other than one (R277). -/
def awareCount (s : State) (k : Nat) : Nat := (s.pla.meters.filter (fun e => e.1 ≠ k && e.2.aware)).length

/-- METER_SET: defines, redefines or deletes a meter (R272, R277). -/
def bodyMeterSet (_ : Moment) (r : Req) (s : State) : Reply :=
  let k := r.f 0 2
  let old := tget s.pla.meters k
  if 16383 < k || 1 < r.f 2 1 then .err s St.badField
  else if r.f 2 1 = 1 then
    match old with
    | none => .err s St.badField
    | some x =>
      checked s (do
        partGate opMeterSet r x.partition s
        guard' (!meterNamed s k) St.meterInUse) fun _ =>
        .ok { s with pla := { s.pla with meters := tdel s.pla.meters k } }
  else
    let p := bits (r.f 8 4) 27 24
    let aware := bit (r.f 8 4) 30
    checked s (do
      guard' (decide (r.f 0x0C 4 ≤ r.f 0x14 4) && r.f 0x14 4 ≠ 0 && decide (1000 ≤ r.f 0x10 4)
        && decide (1000 ≤ r.f 0x18 4)) St.badField
      definable opMeterSet r p s
      match old with
      | some x => guard' (x.partition = p || !meterNamed s k) St.meterInUse
      | none => pure ()
      guard' (!aware || decide (awareCount s k < 64)) St.awareLimit) fun _ =>
      let x := old.getD {}
      .ok { s with pla := { s.pla with meters := tset s.pla.meters k { x with
        ctLast := s.ct, aware, partition := p, cir := r.f 0x0C 4, cbs := r.f 0x10 4, pir := r.f 0x14 4, pbs := r.f 0x18 4
        tc := r.f 0x10 4, tp := r.f 0x18 4 } } }

def execMeterSet (m : Moment) (r : Req) (s : State) : Out := .next (runCommand opMeterSet bodyMeterSet m r s)

def opMeterRead : OpInfo := { opcode := 0x0704, mctp := true }

/-- METER_READ: the meter, brought up to date without a debit (R302). -/
def bodyMeterRead (_ : Moment) (r : Req) (s : State) : Reply :=
  let k := r.f 0 2
  if 16383 < k then .err s St.badField
  else
    match tget s.pla.meters k with
    | none => .ok s (zeros 64)
    | some x =>
      if r.fn ≠ 0 && x.partition ≠ r.fn - 1 then .ok s (zeros 64)
      else
        let x := x.refill s.ct
        .ok { s with pla := { s.pla with meters := tset s.pla.meters k x } } (meterBytes x)

def execMeterRead (m : Moment) (r : Req) (s : State) : Out := .next (runCommand opMeterRead bodyMeterRead m r s)

/-! ### PARTITION_SHARE -/

def opPartitionShare : OpInfo := { opcode := 0x0705, pf0 := true, rsvd := [(1, 1)] }

/-- PARTITION_SHARE: a partition's weight, fair_lag and meter (R282, R283). -/
def bodyPartitionShare (_ : Moment) (r : Req) (s : State) : Reply :=
  let p := r.f 0 1
  checked s (do
    guard' (r.f 2 2 ≠ 0) St.badField
    partGate opPartitionShare r p s
    guard' (meterFits s p (r.f 6 2)) St.badField) fun _ =>
    .ok (setShare p { getShare s p with weight := r.f 2 2, fairLag := r.f 4 2, meter := r.f 6 2 } s)

/-! ### STREAM_RING_SET -/

def opStreamRingSet : OpInfo := { opcode := 0x0706, rsvd := [(4, 4)] }

/-- Key of ring `n` of partition `p`. -/
def ringKey (p n : Nat) : Nat := p * 1024 + n
def getRing (s : State) (k : Nat) : Option StreamRing := tget s.pla.rings k
def setRing (k : Nat) (x : StreamRing) (s : State) : State :=
  { s with pla := { s.pla with rings := tset s.pla.rings k x } }

/-- A `stream_target` (R61). -/
def targetOf (kind n : Nat) : Nat := kind * 2 ^ 62 + n

/-- Whether a `stream_target` is well formed and names a configured ring of its kind (R61, R284). -/
def targetOk (s : State) (p t : Nat) : Bool :=
  let kind := t / 2 ^ 62
  if kind = 0 then t = 0
  else
    kind ≠ 3 && decide (t % 2 ^ 62 < 1024)
      && (match getRing s (ringKey p (t % 1024)) with | some x => x.kind = kind | none => false)

/-- The ring of a session's `stream_target`. -/
def ringOf (x : Session) : Option Nat :=
  if x.streamTarget = 0 then none else some (ringKey x.partition (x.streamTarget % 1024))

/-- Whether any session, active or parked, delivers to a ring of a partition. -/
def ringTargeted (s : State) (p n : Nat) : Bool := targetUsed s p (targetOf 1 n) || targetUsed s p (targetOf 2 n)

/-! ### GAUGE_REPORT, GAUGE_CONFIG, PLA_QUEUE_READ -/

def opGaugeReport : OpInfo := { opcode := 0x0707, mctp := true, rsvd := [(3, 5)] }

/-- GAUGE_REPORT: a held signed report (R294). -/
def bodyGaugeReport (_ : Moment) (r : Req) (s : State) : Reply :=
  let c := r.f 0 2
  if 4095 < c || 1 < r.f 2 1 then .err s St.badField
  else
    match getGauge s c with
    | none => .err s St.reportGone
    | some g =>
      let found := if r.f 2 1 = 0 then g.reports.getLast? else g.reports.find? (fun x => x.seq = r.f 8 8)
      match found with
      | none => .err s St.reportGone
      | some x =>
        if r.fn ≠ 0 && field x.body 6 1 ≠ r.fn - 1 then .err s St.reportGone
        else replyData r 8496 x.body [] s

def execGaugeReport (m : Moment) (r : Req) (s : State) : Out := .next (runCommand opGaugeReport bodyGaugeReport m r s)

def opGaugeConfig : OpInfo := { opcode := 0x0708, pf0 := true }

/-- GAUGE_CONFIG: sets sample_period and clears the _MAX registers (R295, R302). -/
def bodyGaugeConfig (_ : Moment) (r : Req) (s : State) : Reply :=
  let p := r.f 0 4
  if p < 10000 || 10000000 < p || 1 < r.f 4 1 then .err s St.badField
  else
    let g := { s.gau with period := p }
    .ok { s with gau := if r.f 4 1 = 1 then { g with
      fdyMax := 0, raiseMax := 0, shearMax := 0
      parts := g.parts.map (fun e => (e.1, { e.2 with fdyMax := 0, raiseMax := 0, shearMax := 0 })) } else g }

def execGaugeConfig (m : Moment) (r : Req) (s : State) : Out := .next (runCommand opGaugeConfig bodyGaugeConfig m r s)

def opPlaQueueRead : OpInfo := { opcode := 0x0709 }

/-- PLA_QUEUE_READ: a session's queue record (R282). -/
def bodyPlaQueueRead (_ : Moment) (r : Req) (s : State) : Reply :=
  onSession r s fun _ h =>
    match h with
    | .parked _ => .err s 0x0101
    | .active x => if x.st = .faulted then .err s 0x0101 else .ok s (u64 x.q.start ++ u64 x.q.finish ++ u64 x.q.ctCredit ++ u64 x.q.ctBacklog)

def execPlaQueueRead (m : Moment) (r : Req) (s : State) : Out := .next (runCommand opPlaQueueRead bodyPlaQueueRead m r s)

end Sys2Proof.Machine
end

