-- ==== Sys2Proof/Machine/Turns.lean ====
section
/-! DEFINITION. What happens to a session's turn: bound tables, stream records, intake, commit, stop and fault
(R64, R76 to R82, 02; R223 to R228, R236 to R238, 07; R285, R286, 09). -/

namespace Sys2Proof.Machine

/-! ### Bound generations (R223) -/

/-- A table-set generation's record. -/
def getGen (s : State) (n : Nat) : Option TableSet := tget s.txt.gens n

/-- Stores a generation. -/
def setGen (n : Nat) (x : TableSet) (s : State) : State := { s with txt := { s.txt with gens := tset s.txt.gens n x } }

/-- The image of a generation; empty where there is none. -/
def genImage (s : State) (n : Nat) : Bytes := ((getGen s n).map (·.image)).getD []

/-- Whether a generation is resident for sessions of a partition and a model slot (R223). -/
def genResident (s : State) (n p slot : Nat) : Bool :=
  match getGen s n with
  | some x => x.gstate = .resident && x.partition = p && decide (x.vocab ≤ (getModel s slot).hdr.vocab)
  | none => false

/-- Progress of a retirement: its total less the binds left (R223). -/
def showRetire (n : Nat) (s : State) : State :=
  match getGen s n with
  | some x => if x.gstate = .retiring then progressOp x.op 1 (x.bindAt - x.bind) x.bindAt s else s
  | none => s

/-- Changes a generation's bind count. -/
def bindGen (n : Nat) (d : Int) (s : State) : State :=
  match getGen s n with
  | some x => showRetire n (setGen n { x with bind := ((x.bind : Int) + d).toNat } s)
  | none => s

/-- The image and stop set of a session. -/
def stopSetOf (s : State) (x : Session) : Tb.StopSet :=
  if x.stopSet = ones32 then {} else Tb.stopSet (genImage s x.tableGen) x.stopSet

/-- Whether a generation holds a stop set and a grammar image (R67 step 3). -/
def holdsStop (s : State) (gen n : Nat) : Bool := n = ones32 || decide (n < Tb.stopCount (genImage s gen))
def holdsGrammar (s : State) (gen n : Nat) : Bool := n = 0xFFFF || decide (n < Tb.grammarCount (genImage s gen))

/-- A session's grammar. -/
def gramOf (s : State) (x : Session) : Gram := Gram.of (genImage s x.tableGen) x.grammarImage

/-- A session's grammar state. -/
def gstateOf (s : State) (x : Session) : GState' := { state := x.grammarState, stack := (getStore s x.id).gstack }

/-- Stores a session's grammar state. -/
def setGstate (id : Nat) (g : GState') (s : State) : State :=
  modStore id (fun t => { t with gstack := g.stack })
    (modSess id (fun x => { x with grammarState := g.state, grammarDepth := g.stack.length }) s)

/-- Resets a session's grammar to its start state (R254). -/
def resetGrammar (id : Nat) (s : State) : State :=
  match getSess s id with
  | some x => modSess id (fun x => { x with maskSet := false }) (setGstate id (gramOf s x).start s)
  | none => s

/-- The Armature forms `n` allowed sets for a session; a bitmap that its cache lacks is a miss, which is the cache's (R255, R266). -/
def formSets (x : Session) (n : Nat) (s : State) : State :=
  let g := gramOf s x
  bumpFree .armMisses x.partition (if g.g.any (fun o => field g.img (o + 0x30) 4 ≠ 0) then n else 0) (bump .armMasks x.partition n s)

/-- The Armature forms the allowed set of a session's next position, once (R255). -/
def formNext (id : Nat) (s : State) : State :=
  match getSess s id with
  | none => s
  | some x => if x.maskSet then s else modSess id (fun x => { x with maskSet := true }) (formSets x 1 s)

/-! ### Stream records (R285, R286) -/

/-- Records of `b`, 40 bytes each, at least one. -/
def chunk40 : Nat → Bytes → List Bytes
  | 0, _ => []
  | n + 1, b => if b.length ≤ 40 then [b] else b.take 40 :: chunk40 n (b.drop 40)

/-- Marks the first and the last of a step's records. -/
def markRecs (first stop : Bool) (reason : Nat) (l : List StreamRec) : List StreamRec :=
  let l := match l with | r :: t => { r with first } :: t | [] => []
  l.dropLast ++ (match l.getLast? with
    | some r => [{ r with endStep := true, stop, stopReason := if stop then reason else 0 }]
    | none => [])

/-- Records enter a session's spill buffer; the reservation of the step is released (R286, R305). -/
def spillRecs (x : Session) (recs : List StreamRec) (reserved : Nat) (s : State) : State :=
  match ringOf x with
  | none => s
  | some k =>
    match getRing s k with
    | none => s
    | some ring =>
      if recs.isEmpty && reserved = 0 then s
      else
      let s := setRing k { ring with spill := ring.spill ++ recs, reserved := ring.reserved - reserved } s
      post [⟨Lg.spill, k, [(1, -(reserved : Int)), (2, recs.length), (0, (reserved : Int) - recs.length)]⟩] 7 x.id s

/-- Hands a step's bytes to the Planisher (R286). -/
def deliver (id : Nat) (b : Bytes) (first stop : Bool) (reserved twin : Nat) (s : State) : State :=
  match getSess s id with
  | none => s
  | some x =>
    if isShadow s id then s
    else
      let recs := (chunk40 (b.length + 1) b).map (fun d => ({ session := id, length := x.length, data := d, twinStep := twin } : StreamRec))
      bump .sldBytes x.partition b.length (spillRecs x (markRecs first stop x.stopReason recs) reserved s)

/-- The record of a session that becomes FAULTED (R286). -/
def deliverFault (x : Session) (reserved : Nat) (s : State) : State :=
  if isShadow s x.id then s else spillRecs x [{ session := x.id, length := x.length, fault := true }] reserved s

/-- Free spill records of a ring, less those reserved by steps in flight. -/
def spillRoom (r : StreamRing) : Nat := 16384 - r.spill.length - r.reserved

/-- Records that a step with `d` drafts may need at worst (R239, R286). -/
def worstRecs (d : Nat) : Nat := ceilDiv (75 + 765 * (1 + d)) 40 + 1

/-- Whether a session's stream buffer has room for a step with `d` drafts (R71, R286). -/
def streamRoom (s : State) (x : Session) (d : Nat) : Bool :=
  match ringOf x with
  | none => true
  | some k =>
    match getRing s k with
    | some r => !r.faulted && decide (worstRecs d ≤ spillRoom r)
    | none => false

/-- Reserves the records of a granted step. -/
def reserveRecs (x : Session) (d : Nat) (s : State) : Nat × State :=
  match ringOf x with
  | none => (0, s)
  | some k =>
    match getRing s k with
    | none => (0, s)
    | some r =>
      let n := worstRecs d
      (n, move Lg.spill k 0 1 n 7 x.id (setRing k { r with reserved := r.reserved + n } s))

/-! ### The journal (R78, R79) -/

/-- A journal record. -/
def journalRec (origin tok : Nat) : Nat := origin * 2 ^ 20 + tok

/-- Journal blocks that `n` records need and that are not allocated. -/
def missingBlocks (t : Store) (n : Nat) : List Nat :=
  (List.range (ceilDiv n 16384)).filter (fun k => !thas t.blocks k)

/-- Allocates the blocks that `n` records need, if the pool can give them. -/
def growJournal (m : Moment) (id p n : Nat) (s : State) : Except Lack State :=
  (missingBlocks (getStore s id) n).foldl (fun acc k =>
    match acc with
    | .error l => .error l
    | .ok s =>
      match grabJournal m k p id s with
      | .error l => .error l
      | .ok (a, s) => .ok (modStore id (fun t => { t with blocks := tset t.blocks k a }) s)) (.ok s)

/-! ### Intake (R225, R226) -/

/-- Discards an open intake: its staged records are abandoned and the text record is cleared. -/
def dropIntake (id : Nat) (s : State) : State :=
  modStore id (fun t => { t with journal := t.journal.take (t.journal.length - t.text.staged), text := {} }) s

/-- Whether an intake's tokens may be staged in this state (R64). -/
def intakeState (st : SState) : Bool := st = .admitted || st = .toolwait || st = .stopped

/-- What the sampling of a turn's start clears and sets (R64, R76, R254). The deadline set at admission stands for the first
turn. -/
def startTurn (id : Nat) (st : SState) (s : State) : State :=
  match getSess s id with
  | none => s
  | some x =>
    let due := if x.st = .admitted then x.deadline else dueAt s.ct (getClass s x.cls).ttftTarget
    let s := modSess id (fun x => { x with
      st, newTokens := 0, stopReason := 0, flags := setFlag x.flags Fl.firstSent false, ctFirst := 0, deadline := due
      turnDeadline := due, ctToolwait := 0, autoCastCt := 0, readyCt := s.ct }) s
    resetGrammar id (modStore id (fun t => { t with text := {} }) s)

/-- Commits an open intake: `length` advances over every staged token, and the session enters PREFILL, or DECODE with no token
(R64, R225). The caller has checked that at least one position exists. -/
def commitIntake (id : Nat) (s : State) : State :=
  match getSess s id with
  | none => s
  | some x =>
    let n := (getStore s id).text.staged
    let s := modSess id (fun x => { x with length := x.length + n }) s
    let s := if n = 0 then s else post [⟨Lg.token, x.cls, [(2, (n : Int))]⟩] 1 id s
    startTurn id (if n = 0 then .decode else .prefill) s

/-- Stages tokens with their origins; the status of a failure, which has discarded the intake (R226). -/
def stageToks (m : Moment) (id : Nat) (toks : List (Nat × Nat)) (text : TextRec) (s : State) : Except (Nat × State) State :=
  match getSess s id with
  | none => .error (stGone, s)
  | some x =>
    if x.maxLength < x.length + text.staged then .error (0x0106, dropIntake id s)
    else
      let t := getStore s id
      match growJournal m id x.partition (t.journal.length + toks.length) s with
      | .error l => .error (St.busyRetry, starve l (dropIntake id s))
      | .ok s =>
        .ok (modStore id (fun t => { t with journal := t.journal ++ toks.map (fun k => journalRec k.2 k.1), text }) s)

/-! ### Chains that end with the turn (R366) -/

/-- Frees a chain: its generation rises, and its session is disarmed. -/
def freeChain (idx : Nat) (s : State) : State :=
  match tget s.net.chains idx with
  | none => s
  | some c =>
    let s := { s with net := { s.net with
      chains := tdel s.net.chains idx
      chainGens := if idx < 65536 then tset s.net.chainGens idx ((c.gen + 1) % 65536) else s.net.chainGens } }
    if c.cstate = .armed && c.session ≠ 0 then
      let off (f : BitVec 32) := setFlag f Fl.armed false
      modDir c.session (fun e => if e.kept then { e with armChain := ones32, flags := off e.flags } else e)
        (modSess c.session (fun x => { x with armChain := ones32, flags := off x.flags }) s)
    else s

/-- A chain's handle (R364). -/
def chainHandle (idx : Nat) (c : Chain) : Nat := c.gen * 65536 + idx

/-- The chain that waits HELD for a session. -/
def heldChain (s : State) (id : Nat) : Option (Nat × Chain) :=
  s.net.chains.find? (fun e => e.2.cstate = .held && e.2.session = id)

/-- Drops a session's HELD chain without running it, because the session stops, faults or is retired (R83, R366). -/
def skipHeld (id : Nat) (s : State) : State :=
  match heldChain s id with
  | none => s
  | some (i, c) =>
    let st := match getSess s id with | some x => x.st.code | none => SState.parked.code
    note 0x0A05 0 c.partition id [chainHandle i c, st] (freeChain i s)

/-! ### Sessions that enter and leave this chip -/

/-- The credit of a session that enters or leaves this chip (R306). -/
def creditIn (cls credit id : Nat) (s : State) : State := post [⟨Lg.credit, cls, [(2, (credit : Int)), (0, (credit : Int))]⟩] 7 id s
def creditOut (cls credit id : Nat) (s : State) : State :=
  post [⟨Lg.credit, cls, [(6, (credit : Int)), (0, -(credit : Int))]⟩] 7 id s

/-- A claim becomes ACTIVE on this chip (R101, R111, R120): the session's credit enters where its image lies on another chip, and an
image on this chip is given up. -/
def claimActive (x : Session) (slot : Nat) (s : State) : State :=
  let s := makeActive x.id slot s
  if (getStore s x.id).image.isSome then modStore x.id (fun t => { t with image := none, imageAddr := 0, imageSize := 0 }) s
  else creditIn x.cls x.credit x.id s

/-! ### Stops and faults -/

/-- Ends a turn: the Solder settles, the STOP record is written with the bytes still to deliver, and the stop is logged and
measured (R80, R81, R238, R286, R287). `b` are bytes that the step delivers before the settled ones. -/
def stopSession (id reason : Nat) (b : Bytes) (first : Bool) (reserved twin : Nat) (s : State) : State :=
  match getSess s id with
  | none => s
  | some x =>
    let t := getStore s id
    let drop := sflag x.flags Fl.flushDrop
    let b := b ++ settle drop (reason = 2) x.held t.text.stopHold
    let s := if x.held = [] then s
      else if drop then bump .sldDrop x.partition 1 s else bump .sldFffd x.partition 1 s
    let s := modStore id (fun t => { t with text := { t.text with stopHold := [] } }) s
    let st : SState := if reason = 6 then .toolwait else .stopped
    let s := modSess id (fun x => { x with
      st, stopReason := reason, held := [], specLength := 0, deadline := never, turnDeadline := never
      ctToolwait := (if reason = 6 then s.ct else 0)
      autoCastCt := (if reason = 6 && sflag x.flags Fl.autoCast && x.castAfter ≠ 0 then s.ct + x.castAfter else 0) }) s
    let s := deliver id b first true reserved twin s
    let s := if isShadow s id || !(x.st = .prefill || x.st = .decode) then s else gaugeTurn x s
    let s := leaveQueue id s
    let s := if reason = 6 then s else skipHeld id s
    noteSess 0x0101 0 x [reason, x.length, x.newTokens] s

/-- A session's item is taken out of its invocation. -/
def maskRow (id inv : Nat) (s : State) : State :=
  { s with tile := { s.tile with invs := tmod s.tile.invs inv (fun v =>
    { v with rows := v.rows.map (fun r => if r.session = id then { r with masked := true } else r) }) } }

/-- Ends a session's Foundry operations, releasing what they reserved, with a status. -/
def endFops (id status : Nat) (s : State) : State :=
  (s.fdy.ops.filter (fun e => e.2.session = id)).foldl (fun s e =>
    if e.2.kind = .runAhead then cancelRunAhead e.1 4 s
    else endOp e.2.op status 0 [] (delFop e.1 (dropOld e.2 (dropFresh e.2 fReserved (dropDescs e.1 s))))) s

/-- Discards every held record of a session (R399). -/
def discardHeld (id : Nat) (s : State) : State :=
  s.pla.rings.foldl (fun s e =>
    let keep := e.2.spill.filter (fun r => !(r.session = id && r.twinStep ≠ 0))
    let n := e.2.spill.length - keep.length
    if n = 0 then s else move Lg.spill e.1 2 0 n 7 id (setRing e.1 { e.2 with spill := keep } s)) s

/-- A session of a locked twin pair faults: the other copy is told, no more digests of its steps are awaited, and the records that
they hold, which can no longer be verified, are discarded (R398, R399; DEDUCED, log entry 42). -/
def twinFaults (x : Session) (code : Nat) (s : State) : State :=
  match lockedPair s x.partition with
  | none => s
  | some p =>
    let s := discardHeld x.id { s with twn := { s.twn with steps := s.twn.steps.filter (fun e => e.2.session ≠ x.id) } }
    sendSwl (.swilan (linkTo s p.peer) 3 14 x.id [code] []) s

/-- A fault in a session's context: FAULTED, with its in-flight work released (R64, R238, R286). A claim still held becomes
ACTIVE (R120). The other copy of a twinned session is told (R399). -/
def faultSession (id code : Nat) (s : State) : State :=
  match getSess s id with
  | none => s
  | some x =>
    if x.st = .retiring || x.st = .faulted then s
    else
      let s := match x.inflight with
        | some f => maskRow id f.inv (if code = 0x0F03 then bump .tileRowFaults x.partition 1 s else s)
        | none => s
      let s := endFops id code s
      let s := dropIntake id s
      let s := modStore id (fun t => { t with text := {} }) s
      let s := deliverFault x ((x.inflight.map (·.spill)).getD 0) (twinFaults x code s)
      let slot := (slotOf s id).getD 0
      let s := if x.st = .raising then claimActive x slot s else s
      let s := leaveQueue id s
      let s := modSess id (fun x => { x with
          faultCode := code, inflight := none, held := [], specLength := 0, ctToolwait := 0, autoCastCt := 0 })
        (setState id .faulted s)
      let s := skipHeld id s
      noteSess 0x0102 2 x [code, x.st.code] s

/-- Arms AUTO_CAST afresh for a TOOLWAIT session (R82). -/
def rearmCast (id : Nat) (s : State) : State :=
  modSess id (fun x => { x with autoCastCt :=
    (if x.st = .toolwait && sflag x.flags Fl.autoCast && x.castAfter ≠ 0 then s.ct + x.castAfter else 0) }) s

end Sys2Proof.Machine
end

