-- ==== Sys2Proof/Machine/Tablesets.lean ====
section
/-! DEFINITION. Loading, retiring and reading table-set generations, and the checks of a host's own tokenizer
(R218 to R223, R245, R531, 07). -/

namespace Sys2Proof.Machine

namespace St
def tableInvalid : Nat := 0x0501
def genExists : Nat := 0x0502
def inputInvalid : Nat := 0x0503
def genLimit : Nat := 0x0504
def intakeOpen : Nat := 0x0505
def genNotResident : Nat := 0x0103
def imageUnsigned : Nat := 0x0405
def digestMismatch : Nat := 0x0406
def linkDown : Nat := 0x0205
end St

/-! ### TABLESET_LOAD -/

def opTablesetLoad : OpInfo := { opcode := 0x0500, rsvd := [(3, 5)] }

/-- A link that leads to a populated position and cannot be asked (R388). -/
def linkDark (l : Link) : Bool := l.lstate = .fault || (l.lstate = .training && !l.empty)

/-- Links that can be asked. -/
def linksUp (s : State) : List Nat :=
  (List.range 7).filter (fun n => (getLink s n).lstate = .up || (getLink s n).lstate = .degraded)

/-- Generations not EMPTY of a family in a partition (R218). -/
def familyCount (s : State) (p fam : Nat) : Nat :=
  (s.txt.gens.filter (fun e => e.2.partition = p && e.2.family = fam)).length

/-- Checks 2 to 5 of R221 over the image: the status and the `detail` of the first failure, or the place in HBM. -/
def imageCheck (p bytes : Nat) (img : Bytes) (s : State) : Except (Nat × Nat) Nat :=
  if 64 ≤ s.txt.gens.length || 4 ≤ familyCount s p (Tb.family img) then .error (St.genLimit, 0)
  else
    match Tb.firstBad img bytes with
    | some o => .error (St.tableInvalid, o)
    | none =>
      if (getPart s p).signedImages && Tb.sigLen img = 0 then .error (St.imageUnsigned, 0)
      else
        match placeBlock s p 1 bytes 4096 with
        | none => .error (St.tierFull, 0)
        | some a => .ok a

/-- The load goes on once the board has answered: the remaining checks, then LOADING (R221, R222). -/
def placeTableset (n : Nat) (s : State) : State :=
  match getOp s n with
  | none => s
  | some o =>
    let r := o.req
    let gen := r.f 0 2
    let p := r.f 2 1
    if gen = 0 || thas s.txt.gens gen then endOp n St.genExists 0 [] s
    else
      match inData r (r.f 8 8) s with
      | .error .badField => endOp n St.badField 0 [] s
      | .error (.fault i k) => endOp n St.sgFault i [] (logSgFault r i k s)
      | .ok img =>
        match imageCheck p (r.f 8 8) img s with
        | .error (st, d) => endOp n st d [] s
        | .ok a =>
          let x : TableSet := { partition := p, family := Tb.family img, digest := Tb.digest img, vocab := Tb.vocab img,
                                image := img, hbmBytes := r.f 8 8, addr := a, op := n }
          phaseOp n 2 true (setGen gen x s)

/-- TABLESET_LOAD: asks the board for the number, then checks and places the image (R218, R221, R388). -/
def bodyTablesetLoad (_ : Moment) (r : Req) (s : State) : Reply :=
  match partGate opTablesetLoad r (r.f 2 1) s with
  | .error st => .err s st
  | .ok _ =>
    let gen := r.f 0 2
    if gen = 0 || thas s.txt.gens gen then .err s St.genExists
    else if (List.range 7).any (fun n => linkDark (getLink s n)) then .err s St.linkDown
    else
      let ups := linksUp s
      asOp r s 1 1 (r.f 8 8) true [ups.length] fun n s =>
        if ups.isEmpty then placeTableset n s
        else ups.foldl (fun s l => swlAsk ((chip s + l + 1) % 8) (.numberCheck n) 3 gen [gen] [] s) s

def execTablesetLoad (m : Moment) (r : Req) (s : State) : Out := .next (runCommand opTablesetLoad bodyTablesetLoad m r s)

/-- An answer to a number check: `status` GEN_EXISTS with the digest that the other chip holds, OK where it holds none. The
load ends at the first different digest, and goes on at the last answer (R218). -/
def numberAnswer (n status : Nat) (digest : Bytes) (s : State) : State :=
  match getOp s n with
  | none => s
  | some o =>
    let same := match inData o.req 0x30 s with
      | .ok img => Tb.digest img = fit 32 digest
      | .error _ => false
    if status ≠ 0 && !same then endOp n St.genExists 0 [] s
    else
      let left := o.args.getD 0 0 - 1
      let s := setArgs n [left] s
      if left = 0 && !o.cancelling then placeTableset n s else s

/-- A number check that another chip asks: whether this chip holds the number, and its digest (R218). -/
def execTablesetNumberCheck (m : Moment) (link tag gen : Nat) (s : State) : Out :=
  let s := swlGot link 0 0 (s.at m)
  match getGen s gen with
  | some x => .next (sendSwl (.swilan link 1 3 tag [St.genExists] x.digest) s)
  | none => .next (sendSwl (.swilan link 1 3 tag [0] []) s)

/-! ### The end of a load -/

/-- A generation returns to EMPTY and its memory is released (R222). -/
def dropGen (gen : Nat) (s : State) : State := { s with txt := { s.txt with gens := tdel s.txt.gens gen } }

/-- The verification of a copied image (R221): digest, then the signature block if there is one. -/
def tablesetVerify (s : State) (x : TableSet) : Except Nat Unit := do
  let d := Tb.computedDigest x.image
  guard' (d = fit 32 x.digest) St.digestMismatch
  if Tb.sigLen x.image ≠ 0 then imageBlock s x.partition (x.image.drop (Tb.sigOffset x.image)) 3 d

/-- TABLESET_LOAD_COMPLETE: the generation becomes RESIDENT, or returns to EMPTY (R222). A copy that failed answers as a
failed access to host memory (R40); which entry failed is open. -/
def execTablesetLoadComplete (m : Moment) (gen : Nat) (copyOk : Bool) (s : State) : Out :=
  let s := s.at m
  match getGen s gen with
  | none => .next s
  | some x =>
    if x.gstate ≠ .loading then .next s
    else if stopping s x.op then .next (endOp x.op St.cancelled 0 [] (dropGen gen s))
    else if !copyOk then
      .next (endSgFault x.op (dropGen gen s))
    else
      match tablesetVerify s x with
      | .error st =>
        let s := if st = St.digestMismatch then s else sigRejected 3 st x.partition s
        .next (endOp x.op st 0 [] (dropGen gen s))
      | .ok _ =>
        let s := devWrite 1 x.addr x.image (setGen gen { x with gstate := .resident, op := 0 } s)
        let s := logEvent { code := 0x0501, sev := 0, part := x.partition,
                            info := u64 gen ++ u64 x.family ++ x.digest.take 16 } s
        .next (endOp x.op 0 0 (fit 32 x.digest ++ u64 x.hbmBytes) s)

/-- The load's end by CANCEL: its memory is released (R222). -/
def endTablesetLoad (n : Nat) (o : LongOp) (s : State) : State :=
  if o.cancelling then
    let s := match (s.txt.gens.find? (fun e => e.2.op = n && e.2.gstate = .loading)) with
      | some (g, _) => dropGen g s
      | none => s
    endOp n St.cancelled 0 [] s
  else s

/-! ### TABLESET_RETIRE -/

def opTablesetRetire : OpInfo := { opcode := 0x0501, view := true }

/-- A generation that a request may name: one of its own partition (R223). -/
def genFor (r : Req) (s : State) (gen : Nat) : Option TableSet :=
  match getGen s gen with
  | some x => if r.fn = 0 || r.fn - 1 = x.partition then some x else none
  | none => none

/-- TABLESET_RETIRE: new binds are refused and the binds drain (R222, R223). -/
def bodyTablesetRetire (_ : Moment) (r : Req) (s : State) : Reply :=
  let gen := r.f 0 2
  match genFor r s gen with
  | none => .err s St.genNotResident
  | some x =>
    match partGate opTablesetRetire r x.partition s with
    | .error st => .err s st
    | .ok _ =>
      if x.gstate ≠ .resident then .err s St.genNotResident
      else
        asOp r s 1 3 x.bind true [] fun n s => setGen gen { x with gstate := .retiring, bindAt := x.bind, op := n } s

def execTablesetRetire (m : Moment) (r : Req) (s : State) : Out :=
  .next (runCommand opTablesetRetire bodyTablesetRetire m r s)

/-- The retirement's end by CANCEL in phase DRAINING: binds are accepted again (R222). -/
def endTablesetRetire (n : Nat) (o : LongOp) (s : State) : State :=
  if o.cancelling then
    let s := match (s.txt.gens.find? (fun e => e.2.op = n && e.2.gstate = .retiring)) with
      | some (g, x) => setGen g { x with gstate := .resident, op := 0 } s
      | none => s
    endOp n St.cancelled 0 [] s
  else s

/-- TABLESET_DRAINED: no bind is left; the generation's memory is released (R222). -/
def execTablesetDrained (m : Moment) (gen : Nat) (s : State) : Out :=
  let s := s.at m
  match getGen s gen with
  | none => .next s
  | some x =>
    if x.gstate = .retiring && x.bind = 0 && !((getOp s x.op).any (·.cancelling)) then
      let s := phaseOp x.op 2 false s
      let s := note 0x0502 0 x.partition 0 [gen, x.hbmBytes] (dropGen gen s)
      .next (endOp x.op 0 0 [] s)
    else .next s

/-! ### TABLESET_QUERY -/

def opTablesetQuery : OpInfo := { opcode := 0x0502, mctp := true }

def gstateCode : GState → Nat
  | .empty => 0
  | .loading => 1
  | .resident => 2
  | .retiring => 3

/-- TABLESET_QUERY: header, GSTATE and BIND_COUNT (R245). -/
def bodyTablesetQuery (_ : Moment) (r : Req) (s : State) : Reply :=
  match genFor r s (r.f 0 2) with
  | none => .err s St.genNotResident
  | some x => .ok s (fit 256 x.image ++ u8 (gstateCode x.gstate) ++ zeros 3 ++ u32 x.bind)

def execTablesetQuery (m : Moment) (r : Req) (s : State) : Out :=
  .next (runCommand opTablesetQuery bodyTablesetQuery m r s)

/-! ### SHEAR_CUT and SOLDER_RENDER -/

/-- A generation that serves SHEAR_CUT, SOLDER_RENDER and GRAMMAR_CHECK (R531). -/
def genServing (r : Req) (s : State) (gen : Nat) : Option TableSet :=
  match genFor r s gen with
  | some x => if x.gstate = .resident || x.gstate = .retiring then some x else none
  | none => none

def opShearCut : OpInfo := { opcode := 0x0503, rbits := [(2, 1, 0xFE)], rsvd := [(3, 1), (8, 8)] }

/-- SHEAR_CUT: cuts the bytes as one final intake with no session (R245, R531). -/
def bodyShearCut (_ : Moment) (r : Req) (s : State) : Reply :=
  let n := r.f 4 4
  if 3952 < n then .err s St.badField
  else
    match genServing r s (r.f 0 2) with
    | none => .err s St.genNotResident
    | some x =>
      match shear x.image (bit (r.f 2 1) 0) true 0 {} (r.b 0x10 n) with
      | .error off => .err s St.inputInvalid off
      | .ok a =>
        let ids := a.toks.map (·.1)
        { st := bumpFree .shrMisses x.partition n s, detail := b2n (decide (990 < ids.length))
          result := u32 ids.length ++ u32 a.replaced ++ (ids.take 990).flatMap u32 }

def execShearCut (m : Moment) (r : Req) (s : State) : Out := .next (runCommand opShearCut bodyShearCut m r s)

/-- A rendered turn: what is held, what is delivered, and the token that stopped it. -/
structure Rendered where
  held : Bytes := []
  hold : Bytes := []
  out  : Bytes := []
  stop : Option Nat := none
  deriving DecidableEq, Repr

/-- Renders tokens as one turn, `i` the index of the next (R236 to R238, R264). -/
def renderTurn (img : Bytes) (ss : Tb.StopSet) (drop : Bool) : List Nat → Nat → Rendered → Rendered
  | [], _, a => { a with out := a.out ++ settle drop false a.held a.hold, held := [], hold := [] }
  | t :: ts, i, a =>
    let tokStop := ss.tokens.contains t
    let b := solder ss a.held a.hold (if tokStop && !ss.stream then [] else Tb.detok img t)
    let out := a.out ++ b.out
    if tokStop then
      { out := out ++ settle drop false b.held b.hold, stop := some i }
    else if b.matched then { out, stop := some i }
    else renderTurn img ss drop ts (i + 1) { held := b.held, hold := b.hold, out }

def opSolderRender : OpInfo := { opcode := 0x0504, rbits := [(2, 1, 0xFE)], rsvd := [(3, 1), (0x0C, 4)] }

/-- SOLDER_RENDER: renders tokens as one turn with no session (R245, R531). -/
def bodySolderRender (_ : Moment) (r : Req) (s : State) : Reply :=
  let n := r.f 8 4
  let ids := (List.range n).map (fun i => r.f (0x10 + 4 * i) 4)
  if 988 < n then .err s St.badField
  else
    match genServing r s (r.f 0 2) with
    | none => .err s St.genNotResident
    | some x =>
      if ids.any (fun t => decide (x.vocab ≤ t)) || !(r.f 4 4 = ones32 || decide (r.f 4 4 < Tb.stopCount x.image)) then
        .err s St.badField
      else
        let ss := if r.f 4 4 = ones32 then {} else Tb.stopSet x.image (r.f 4 4)
        let a := renderTurn x.image ss (bit (r.f 2 1) 0) ids 0 {}
        { st := bumpFree .shrMisses x.partition n s, detail := b2n (decide (3960 < a.out.length))
          result := u32 a.out.length ++ u32 (a.stop.getD ones32) ++ a.out.take 3960 }

def execSolderRender (m : Moment) (r : Req) (s : State) : Out :=
  .next (runCommand opSolderRender bodySolderRender m r s)

end Sys2Proof.Machine
end

