-- ==== Sys2Proof/Machine/Sampling.lean ====
section
/-! DEFINITION. The commands of group 0x06: sampling records, grammar walks and draws (R246 to R248, R258, R268, 08). -/

namespace Sys2Proof.Machine

/-! ### Changes that wait for a step boundary (R66) -/

/-- Whether an append of the session holds or waits for a lane. -/
def laneHas (s : State) (id : Nat) : Bool :=
  s.txt.lanes.any (fun e => e.2.session = id) || s.txt.waiting.any (fun j => j.session = id)

/-- Whether a change to a session may take effect: it is at a step boundary, no append taken before is still being cut, and it
is not leaving this chip (R66). -/
def settled (s : State) (x : Session) : Bool := atBoundary x && !laneHas s x.id && x.st ≠ .migratingOut

/-- Runs a change at the session's step boundary: now if it is at one and no earlier change waits, else the request waits. -/
def atStep (r : Req) (x : Session) (s : State) (k : Reply) : Reply :=
  if settled s x && x.waiting.isEmpty then k else .wait (addWaiting x.id r s)

/-- Whether a change recorded before holds back a further append or arming of a session (R66). A rebind that waits for a partly cut
intake, or for a lane that cuts it, does not hold back what that intake needs to end (R69). -/
def holdsBack (s : State) (x : Session) : Bool :=
  match x.waiting with
  | [] => false
  | r :: _ => !(r.hdr.opcode = 0x0106 && ((getStore s x.id).text.intakeOpen || laneHas s x.id))

/-- Runs what needs no step boundary after the changes recorded before it, and after the appends taken before it. -/
def inOrder (r : Req) (x : Session) (s : State) (k : Reply) : Reply :=
  if holdsBack s x || laneHas s x.id then .wait (addWaiting x.id r s) else k

/-! ### FIN_SET -/

def opFinSet : OpInfo := { opcode := 0x0600, rbits := [(8, 1, 0xE0)], rsvd := [(9, 3), (0x1A, 6)] }

/-- Bias entry `i` of a FIN_SET payload. -/
def biasOf (r : Req) (i : Nat) : Bias :=
  { ban := bit (r.f (0x20 + 8 * i) 4) 31, token := r.f (0x20 + 8 * i) 4 % 2 ^ 20, value := BitVec.ofNat 32 (r.f (0x24 + 8 * i) 4) }

def biasList (r : Req) : List Bias := (List.range (r.f 0x19 1)).map (biasOf r)

/-- Whether a temperature is in range (R265). -/
def temperatureOk (v : Nat) : Bool :=
  v = 0 || v = 0x80000000 || (decide (0x37800000 ≤ v) && decide (v ≤ 0x47800000))

/-- The fields that FIN_SET selects are in range for a vocabulary (R247, R265). -/
def finSetOk (r : Req) (vocab : Nat) : Bool :=
  let m := r.f 8 1
  let bias := biasList r
  (!bit m 0 || temperatureOk (r.f 0x0C 4))
    && (!bit m 1 || (decide (0 < r.f 0x10 4) && decide (r.f 0x10 4 ≤ 0x3F800000)))
    && (!bit m 2 || decide (r.f 0x14 4 ≤ 4096))
    && (!bit m 4 || (decide (bias.length ≤ 28) && bias.all (fun b => decide (b.token < vocab))
          && decide ((bias.map (·.token)).Nodup)
          && (List.range bias.length).all (fun i => r.f (0x20 + 8 * i) 4 / 2 ^ 20 % 2 ^ 11 = 0)))

/-- The sampling record after FIN_SET. -/
def finSetTo (r : Req) (q : Sampling) : Sampling :=
  let m := r.f 8 1
  { temperature := if bit m 0 then (if r.f 0x0C 4 = 0x80000000 then 0 else BitVec.ofNat 32 (r.f 0x0C 4)) else q.temperature
    topP := if bit m 1 then BitVec.ofNat 32 (r.f 0x10 4) else q.topP
    topK := if bit m 2 then r.f 0x14 4 else q.topK
    draftLen := if bit m 3 then r.f 0x18 1 else q.draftLen
    bias := if bit m 4 then biasList r else q.bias }

/-- FIN_SET on a session's record, its bound generation being `gen`. -/
def finSetNow (r : Req) (id gen : Nat) (s : State) : Reply :=
  if finSetOk r (Tb.vocab (genImage s gen)) then .ok (modStore id (fun t => { t with samp := finSetTo r t.samp }) s)
  else .err s St.badField

/-- FIN_SET: at the step boundary, for a parked session at once (R268). -/
def bodyFinSet (_ : Moment) (r : Req) (s : State) : Reply :=
  onStore r s fun id h =>
    match h with
    | .parked e => finSetNow r id e.tableGen s
    | .active x =>
      if x.st = .faulted || x.st = .retiring then .err s stWrong else atStep r x s (finSetNow r id x.tableGen s)

/-! ### FIN_READ -/

def opFinRead : OpInfo := { opcode := 0x0601, mctp := true }

/-- The 256-byte sampling record (R247). -/
def sampBytes (q : Sampling) : Bytes :=
  fit 256 (u32 q.temperature.toNat ++ u32 q.topP.toNat ++ u32 q.topK ++ u8 q.draftLen ++ u8 q.bias.length ++ zeros 18
    ++ q.bias.flatMap (fun b => u32 (b2n b.ban * 2 ^ 31 + b.token) ++ u32 b.value.toNat))

/-- A session's entry, in its slot or in its cast image. -/
def entryOf (s : State) (id : Nat) (h : Held) : Session :=
  match h with
  | .active x => x
  | .parked _ => ((getStore s id).image).getD { id }

/-- FIN_READ: sampling record, grammar state and grammar stack (R268). -/
def bodyFinRead (_ : Moment) (r : Req) (s : State) : Reply :=
  onStore r s fun id h =>
    let t := getStore s id
    if h.faulted then .err s stWrong
    else .ok s (sampBytes t.samp ++ u64 (grammarWord (entryOf s id h)) ++ fit 256 (t.gstack.flatMap u16))

def execFinRead (m : Moment) (r : Req) (s : State) : Out := .next (runCommand opFinRead bodyFinRead m r s)

/-! ### GRAMMAR_CHECK -/

def opGrammarCheck : OpInfo := { opcode := 0x0602, rsvd := [(8, 8)] }

/-- Walks tokens while each is allowed: how many, the state after them, and the first that ends a tool call. -/
def walkGrammar (x : Gram) : List Nat → Nat → GState' → Option Nat → Nat × GState' × Option Nat
  | [], i, g, e => (i, g, e)
  | t :: ts, i, g, e =>
    if x.allowed g t then
      let (g', tool) := x.step g t
      walkGrammar x ts (i + 1) g' (if tool && e.isNone then some i else e)
    else (i, g, e)

/-- GRAMMAR_CHECK: walks the tokens from the start state (R268, R529, R531). -/
def bodyGrammarCheck (_ : Moment) (r : Req) (s : State) : Reply :=
  let n := r.f 4 4
  if 988 < n then .err s St.badField
  else
    match genServing r s (r.f 0 2) with
    | none => .err s St.genNotResident
    | some x =>
      if Tb.grammarCount x.image ≤ r.f 2 2 then .err s St.badField
      else
        let g := Gram.of x.image (r.f 2 2)
        let (k, st, e) := walkGrammar g ((List.range n).map (fun i => r.f (0x10 + 4 * i) 4)) 0 g.start none
        let allowed := (g.set st).length
        { st := s, status := if allowed = 0 && g.escape.isNone then 0x0601 else 0
          result := u32 k ++ u32 (e.getD ones32) ++ u64 (st.stack.length * 2 ^ 56 + 2 ^ 24 + st.state) ++ u32 allowed }

def execGrammarCheck (m : Moment) (r : Req) (s : State) : Out :=
  .next (runCommand opGrammarCheck bodyGrammarCheck m r s)

/-! ### SPIN_DRAW -/

def opSpinDraw : OpInfo := { opcode := 0x0603, mctp := true }

/-- SPIN_DRAW: one draw of R258. -/
def bodySpinDraw (_ : Moment) (r : Req) (s : State) : Reply :=
  if 0xFFFFFF < r.f 8 4 || 0xFFFFFF < r.f 0x0C 4 || 2 < r.f 0x10 1 then .err s St.badField
  else
    let x := philox (r.f 0 8) (r.f 8 4) (r.f 0x0C 4) (r.f 0x10 1)
    .ok s (x.flatMap u32 ++ u32 (spinU x).toNat)

def execSpinDraw (m : Moment) (r : Req) (s : State) : Out := .next (runCommand opSpinDraw bodySpinDraw m r s)

end Sys2Proof.Machine
end

