-- ==== Sys2Proof/Machine/Intake.lean ====
section
/-! DEFINITION. Rebinds, intakes and the Shear's lanes (R69, 02; R225 to R228, R234, 07). -/

namespace Sys2Proof.Machine

/-! ### Requests answered later -/

/-- The long operation that a request has become. -/
def opOfReq (s : State) (r : Req) : Option Nat := (s.bench.ops.find? (fun e => e.2.req = r)).map (·.1)

/-- Answers a request that waited: its operation's end, or its completion. -/
def answer (r : Req) (a : Reply) : State :=
  if a.pend then a.st
  else
    match opOfReq a.st r with
    | some n => endOp n a.status a.detail a.result a.st
    | none => complete r a.status a.detail 0 a.result false a.st

/-! ### Rebinds (R69) -/

/-- The generation that a SESSION_REBIND names. -/
def rebindGen (r : Req) : Nat := r.f 8 2

/-- Whether a request is a SESSION_REBIND. -/
def isRebind (r : Req) : Bool := r.hdr.opcode = 0x0106

/-- The waiting rebinds of a session show in REBIND_PENDING and `pending_gen` (R60). -/
def showRebind (id : Nat) (s : State) : State :=
  modSess id (fun x =>
    match x.waiting.find? isRebind with
    | some r => { x with flags := setFlag x.flags Fl.rebind true, pendingGen := rebindGen r }
    | none => { x with flags := setFlag x.flags Fl.rebind false, pendingGen := 0 }) s

/-- Whether a generation may be bound to a session: resident for it, with its grammar image and stop set (R67, R223). -/
def bindable (s : State) (gen : Nat) (x : Session) : Bool :=
  genResident s gen x.partition x.modelSlot && holdsGrammar s gen x.grammarImage && holdsStop s gen x.stopSet

/-- Counts and logs the grammar's reset by a rebind (R254, R267). -/
def noteRebind (x : Session) (old new : Nat) (s : State) : State :=
  if x.grammarImage = 0xFFFF then s
  else noteSess 0x0603 0 x [old, new] (bump .armResets x.partition 1 s)

/-- A rebind takes effect on an active session (R69, R254). -/
def rebindActive (x : Session) (gen : Nat) (s : State) : State :=
  let s := bindGen gen 1 (bindGen x.tableGen (-1) s)
  let s := modSess x.id (fun y => { y with tableGen := gen }) s
  if x.grammarImage = 0xFFFF then s else noteRebind x x.tableGen gen (resetGrammar x.id s)

/-- A rebind takes effect on a parked session, in its directory entry, and in its image where that is here (R69); a raise gives an
image that lies elsewhere the entry's generation (R101). -/
def rebindParked (id gen : Nat) (e : DirEntry) (s : State) : State :=
  let old := e.tableGen
  let s := if homeOf id = chip s then bindGen gen 1 (bindGen old (-1) s) else s
  let s := modDir id (fun e => { e with tableGen := gen }) s
  match (getStore s id).image with
  | none => noteRebind { id, partition := e.partition, grammarImage := e.grammarImage } old gen s
  | some x =>
    let g := (Gram.of (genImage s gen) x.grammarImage).start
    let on := x.grammarImage ≠ 0xFFFF
    let y := { x with tableGen := gen, grammarState := (if on then g.state else x.grammarState)
                      grammarDepth := (if on then 0 else x.grammarDepth) }
    let s := modStore id (fun t => { t with image := some y, gstack := if on then [] else t.gstack }) s
    noteRebind x old gen s

/-- SESSION_REBIND on a session at the moment at which it may take effect (R69). -/
def rebindNow (r : Req) (id : Nat) (h : Held) (s : State) : Reply :=
  match h with
  | .parked e =>
    match (getStore s id).image with
    | some x => if bindable s (rebindGen r) x then .ok (rebindParked id (rebindGen r) e s) else .err s St.genNotResident
    | none =>
      let gen := rebindGen r
      if genResident s gen e.partition e.modelSlot && holdsGrammar s gen e.grammarImage then .ok (rebindParked id gen e s)
      else .err s St.genNotResident
  | .active x =>
    if x.st = .faulted || x.st = .retiring then .err s stWrong
    else if bindable s (rebindGen r) x then .ok (rebindActive x (rebindGen r) s)
    else .err s St.genNotResident

/-- Whether a rebind may take effect: a step boundary, no intake partly cut, not leaving this chip (R69). -/
def rebindOpen (s : State) (x : Session) : Bool :=
  settled s x && x.st ≠ .raising && !(getStore s x.id).text.intakeOpen

/-- Applies the rebinds at the head of a session's waiting changes while they may take effect, at most `fuel` of them. -/
def applyRebinds (id : Nat) : Nat → State → State
  | 0, s => s
  | fuel + 1, s =>
    match getSess s id with
    | none => s
    | some x =>
      match x.waiting with
      | r :: rest =>
        if isRebind r && rebindOpen s x then
          let s := showRebind id (modSess id (fun x => { x with waiting := rest }) s)
          match getSess s id with
          | some x => applyRebinds id fuel (answer r (rebindNow r id (.active x) s))
          | none => s
        else s
      | [] => s

/-- An intake has ended: a rebind that waited for it takes effect. -/
def intakeEnded (id : Nat) (s : State) : State := applyRebinds id 64 s

/-! ### One append (R225 to R228) -/

/-- INPUT_REPLACED, at most once per 1 ms of ct (R244). -/
def noteReplaced (x : Session) (n : Nat) (s : State) : State :=
  if n = 0 then s
  else
    let first := if s.txt.replNew = 0 then x.id else s.txt.replSess
    let total := s.txt.replNew + n
    let due := match s.txt.replCt with | none => true | some c => decide (c + 1000000 ≤ s.ct)
    if due then
      note 0x0503 0 x.partition first [total]
        { s with txt := { s.txt with replCt := some s.ct, replNew := 0, replSess := 0 } }
    else { s with txt := { s.txt with replNew := total, replSess := first } }

/-- Counts of an append's text (R241). -/
def countShorn (x : Session) (bytes : Nat) (a : Shorn) (s : State) : State :=
  let p := x.partition
  let s := bumpFree .shrMisses p bytes s
  noteReplaced x a.replaced
    (bump .shrBytes p bytes (bump .shrTokens p a.toks.length (bump .shrReplaced p a.replaced
      (bump .shrFallback p a.fallback (bump .shrNormSplit p a.splits (bump .shrUnk p a.unk s))))))

/-- Cuts a buffer into a session's intake and stages its tokens; a final buffer commits the intake. -/
def appendBytes (m : Moment) (id : Nat) (final : Bool) (origin : Nat) (data : Bytes) (s : State) : Reply :=
  match getSess s id with
  | none => .err s stGone
  | some x =>
    if !intakeState x.st then .err s stWrong
    else
      match shear (genImage s x.tableGen) (sflag x.flags Fl.utf8Reject) final origin (getStore s id).text data with
      | .error off =>
        let s := bump .shrRejected x.partition 1 (stopSession id 9 [] false 0 0 (dropIntake id s))
        { st := intakeEnded id s, status := St.inputInvalid, detail := off % 2 ^ 32 }
      | .ok a =>
        if final && x.length + a.text.staged = 0 then .err s St.badField
        else
          match stageToks m id a.toks a.text s with
          | .error (st, s) => { st := intakeEnded id s, status := st }
          | .ok s =>
            let s := countShorn x data.length a s
            let s := if final then intakeEnded id (commitIntake id s) else s
            .ok s (u32 a.toks.length ++ u32 a.replaced ++ u32 (x.length + a.text.staged))

/-! ### SESSION_APPEND and the lanes (R234) -/

def opSessionAppend : OpInfo := { opcode := 0x0101, rsvd := [(0x0B, 1)] }

/-- The data of an append. -/
def appendData (r : Req) (s : State) : Except SgErr Bytes :=
  if r.f 8 1 = 1 then .ok (r.b 0x10 (r.f 0x0C 4))
  else inData r (r.f 0x0C 4) s

/-- Waiting appends that may take a lane: the oldest of each session that holds none. -/
def laneReady (s : State) : List LaneJob :=
  s.txt.waiting.filter (fun j =>
    !(s.txt.lanes.any (fun e => e.2.session = j.session))
      && ((s.txt.waiting.find? (fun k => k.session = j.session)).map (·.op)) = some j.op
      && !((getOp s j.op).any (·.cancelling)))

/-- Partitions for which the lanes have work. -/
def laneParts (s : State) : List Nat := (List.range 16).filter (fun p => (laneReady s).any (fun j => j.partition = p))

/-- Charges a partition for an append that a lane has taken (R283). -/
def chargeLane (p bytes : Nat) (s : State) : State :=
  chargePart .lane p (ceilDiv bytes 4096) (laneParts s) (wakeParts .lane (p :: laneParts s) s)

/-- An append taken by a lane runs to its end. -/
def runAppend (m : Moment) (r : Req) (s : State) : Reply :=
  match appendData r s with
  | .error e => .sg r s e
  | .ok b => appendBytes m (r.f 0 8) (r.f 9 1 = 1) (r.f 0x0A 1) b s

/-- Bytes that a lane cuts in the 1 ms after which a command becomes long (R28, R234). -/
def laneShort : Nat := 4000000

/-- An append that no earlier change holds back: one append runs on one lane, a session's appends in order (R225, R234). A lane is held
only by an append that becomes long. -/
def appendNow (m : Moment) (r : Req) (x : Session) (s : State) : Reply :=
  let id := x.id
  if !intakeState x.st then .err s stWrong
  else
    match appendData r s with
    | .error e => .sg r s e
    | .ok b =>
      let free := (List.range 16).filter (fun n => !thas s.txt.lanes n)
      let job (op : Nat) : LaneJob := { session := id, partition := x.partition, req := r, op }
      if free.isEmpty || laneHas s id then
        asOp r s 0 1 b.length true [] fun n s => { s with txt := { s.txt with waiting := s.txt.waiting ++ [job n] } }
      else if b.length ≤ laneShort then appendBytes m id (r.f 9 1 = 1) (r.f 0x0A 1) b (chargeLane x.partition b.length s)
      else
        asOp r s 1 1 b.length true [] fun n s =>
          let s := chargeLane x.partition b.length s
          { s with txt := { s.txt with lanes := tset s.txt.lanes ((pick m 0 free).getD 0) (job n) } }

/-- SESSION_APPEND, after the changes recorded before it (R66). -/
def bodySessionAppend (m : Moment) (r : Req) (s : State) : Reply :=
  if 1 < r.f 8 1 || 1 < r.f 9 1 || !(r.f 0x0A 1 = 0 || r.f 0x0A 1 = 2) || (r.f 8 1 = 1 && 3952 < r.f 0x0C 4) then
    .err s St.badField
  else
    onSession r s fun id h =>
      match h with
      | .parked _ => .err s stWrong
      | .active x => if holdsBack s x then .wait (addWaiting id r s) else appendNow m r x s

/-- Takes a job off the lanes and the waiting list. -/
def dropJob (op : Nat) (s : State) : State :=
  { s with txt := { s.txt with lanes := s.txt.lanes.filter (fun e => e.2.op ≠ op), waiting := s.txt.waiting.filter (fun j => j.op ≠ op) } }

/-- The end of a long append: its lane is free; the append takes effect, unless a CANCEL came first (R44, R91). -/
def endSessionAppend (m : Moment) (n : Nat) (o : LongOp) (s : State) : State :=
  if s.txt.lanes.any (fun e => e.2.op = n) || o.cancelling then
    let s := dropJob n s
    if o.cancelling then endOp n St.cancelled 0 [] s
    else answer o.req (runAppend m o.req (phaseOp n 2 false s))
  else s

/-! ### SESSION_APPEND_TOKENS -/

def opSessionAppendTokens : OpInfo := { opcode := 0x0102, rsvd := [(9, 1), (0x0B, 1)] }

/-- The token IDs of a request. -/
def tokenData (r : Req) (s : State) : Except SgErr (List Nat) :=
  let n := r.f 0x0C 4
  if r.f 8 1 = 1 then .ok ((List.range n).map (fun i => r.f (0x10 + 4 * i) 4))
  else do
    let b ← inData r (4 * n) s
    .ok ((List.range n).map (fun i => field b (4 * i) 4))

/-- Stages and commits tokens that a host supplies (R64, R225). -/
def appendToks (m : Moment) (x : Session) (origin : Nat) (toks : List Nat) (s : State) : Reply :=
  if (getStore s x.id).text.intakeOpen then .err s St.intakeOpen
  else if x.length + toks.length = 0 then .err s St.badField
  else if x.maxLength < x.length + toks.length then .err s 0x0106
  else
    match stageToks m x.id (toks.map (·, origin)) { staged := toks.length } s with
    | .error (st, s) => { st := s, status := st }
    | .ok s => .ok (commitIntake x.id s) (u32 (x.length + toks.length))

/-- An append of tokens that nothing taken earlier holds back. -/
def appendToksNow (m : Moment) (r : Req) (x : Session) (s : State) : Reply :=
  if !intakeState x.st then .err s stWrong
  else
    match tokenData r s with
    | .error e => .sg r s e
    | .ok toks =>
      if toks.any (fun t => decide ((getModel s x.modelSlot).hdr.vocab ≤ t)) then .err s St.badField
      else appendToks m x (r.f 0x0A 1) toks s

/-- SESSION_APPEND_TOKENS: the tokens are committed as a final intake, after the changes and appends taken before (R66, R91). -/
def bodySessionAppendTokens (m : Moment) (r : Req) (s : State) : Reply :=
  if 1 < r.f 8 1 || !(r.f 0x0A 1 = 4 || r.f 0x0A 1 = 2) || (r.f 8 1 = 1 && 988 < r.f 0x0C 4) then .err s St.badField
  else
    onSession r s fun _ h =>
      match h with
      | .parked _ => .err s stWrong
      | .active x => inOrder r x s (appendToksNow m r x s)

end Sys2Proof.Machine
end

