-- ==== Sys2Proof/Machine/Crc.lean ====
section
/-! DEFINITION. Cyclic redundancy checks, bit by bit: CRC-32C of images and packets and the polynomials of the Check units
(R103, 03; R423, 14). -/

namespace Sys2Proof.Machine

/-- One reflected CRC step of one bit. -/
def crcBit (poly v : Nat) : Nat := if v % 2 = 1 then (v / 2) ^^^ poly else v / 2

/-- One byte into a reflected CRC. -/
def crcByte (poly v : Nat) (b : Byte) : Nat :=
  (List.range 8).foldl (fun v _ => crcBit poly v) (v ^^^ b.toNat)

/-- Bytes into a reflected CRC register. -/
def crcRun (poly v : Nat) (bs : Bytes) : Nat := bs.foldl (crcByte poly) v

/-- CRC-32C (Castagnoli): reflected polynomial 0x82F63B78, initial and final value all ones. -/
def crc32c (bs : Bytes) : Nat := crcRun 0x82F63B78 0xFFFFFFFF bs ^^^ 0xFFFFFFFF

/-- One bit of a forward CRC of `w` bits, its polynomial without the leading term. -/
def crcFwdBit (w poly v : Nat) : Nat :=
  if bit v (w - 1) then (v * 2 % 2 ^ w) ^^^ poly else v * 2 % 2 ^ w

/-- One byte into a forward CRC of `w` bits. -/
def crcFwdByte (w poly v : Nat) (b : Byte) : Nat :=
  (List.range 8).foldl (fun v _ => crcFwdBit w poly v) (v ^^^ (b.toNat * 2 ^ (w - 8)))

end Sys2Proof.Machine
end

