-- ==== Sys2Proof/Machine/Send.lean ====
section
/-! DEFINITION. Queue pairs, network keys and what leaves over the network: GX and RC messages, and requests to composed
ranges (R348, R351 to R360, R370, R371, 12; R448, 15). -/

namespace Sys2Proof.Machine

namespace St
def qpError : Nat := 0x0A01
def connGone : Nat := 0x0A02
def regionInUse : Nat := 0x0A03
def tagInUse : Nat := 0x0A04
def rangeInUse : Nat := 0x0A05
def drainPending : Nat := 0x0A06
def msgExhausted : Nat := 0x0A07
def sealFailed : Nat := 0x0A08
def refused : Nat := 0x0A09
def rangeGone : Nat := 0x0202
def keyGone : Nat := 0x0D06
def keyInUse : Nat := 0x0D07
end St

/-! ### Network keys (R448) -/

/-- A partition's key slot. -/
def getKey (s : State) (p slot : Nat) : KeySlot := tgetD (getPart s p).keys slot {}

/-- The key that a `key_id` names: its slot holds a key of its generation. -/
def keyOf (s : State) (k : Nat) : Option Bytes :=
  let x := getKey s (bits k 11 8) (bits k 7 0)
  if k / 2 ^ 24 = x.gen && bits k 23 12 = 0 && k % 256 < 64 then x.key else none

/-- A partition's storage key, slot 0. -/
def storageKey (s : State) (p : Nat) : Option Bytes := (getKey s p 0).key

/-- `v` as `n` bytes in network order. -/
def be (n v : Nat) : Bytes := (le n v).reverse

/-! ### Queue pairs (R351) -/

def getQp (s : State) (i : Nat) : Option Qp := tget s.net.qps i
def setQp (i : Nat) (q : Qp) (s : State) : State := { s with net := { s.net with qps := tset s.net.qps i q } }

/-- A queue pair's handle. -/
def qpHandle (s : State) (i : Nat) : Nat :=
  tgetD s.net.qpGens i 0 * 2 ^ 24 + ((getQp s i).map (·.partition)).getD 0 * 2 ^ 16 + i

/-- The queue pair that a handle names: its index, while generation and partition match (R351). -/
def qpOf (s : State) (h : Nat) : Option (Nat × Qp) :=
  let i := h % 2 ^ 14
  match getQp s i with
  | some q => if qpHandle s i = h then some (i, q) else none
  | none => none

/-- A handle as request `r` may use it. -/
def qpFor (r : Req) (s : State) (h : Nat) : Option (Nat × Qp) :=
  match qpOf s h with
  | some (i, q) => if r.reaches q.partition then some (i, q) else none
  | none => none

/-! ### The GX header and its protection (R354, R355) -/

/-- The 56-byte GX header, in network byte order. -/
def gxHeader (p : Pkt) : Bytes :=
  be 1 (p.version * 16) ++ be 1 p.flags ++ be 2 p.path ++ be 4 p.msg ++ be 4 p.offset ++ be 4 p.len ++ be 4 p.key ++ be 4 p.tag
    ++ be 8 p.regOff ++ be 4 p.ctSent ++ be 4 (p.nak * 2 ^ 24 + p.ackPsn) ++ be 4 p.backoff ++ be 4 p.status
    ++ be 8 (maskOf p.sack)

/-- The additional authenticated data of a packet: what its BTH says, its opcode and its PSN, and its GX header (R355). -/
def gxAad (p : Pkt) : Bytes := be 1 p.opcode ++ be 3 p.psn ++ gxHeader p

/-- The IV of a packet's payload (R355). -/
def gxIv (salt : Nat) (p : Pkt) : Bytes := be 4 salt ++ be 4 p.msg ++ be 4 p.offset

/-- Flags of the GX header. -/
def gxSeal : Nat := 0x80
def gxTrigger : Nat := 0x40
def gxEnc : Nat := 0x20
def gxRetx : Nat := 0x10

/-- Bits [41:10] of a ct. -/
def ctStamp (ct : Nat) : Nat := ct / 1024 % 2 ^ 32

/-- Where a packet of a queue pair goes: the UDP source port is `sport_base` and the path (R348, R354). -/
def routeOf (s : State) (p : Pkt) : Route :=
  match getQp s p.qp with
  | none => {}
  | some q => { sport := (q.sport + p.path) % 2 ^ 16, qpn := q.peerQpn, addr := q.peerAddr, mac := q.peerMac }

/-- A packet leaves the device. -/
def emitPkt (p : Pkt) (s : State) : State := emit (.packet p (routeOf s p)) s

/-- The ciphertext and the tag of a packet that carries `clear`, where its queue pair's key is loaded (R355). -/
def gxSealed (s : State) (q : Qp) (p : Pkt) (clear : Bytes) : Option (Bytes × Bytes) :=
  if q.gx && bit p.flags 5 then (keyOf s q.keyId).map (fun k => Config.gcmSeal k (gxIv q.txSalt p) (gxAad p) clear) else none

/-! ### Sending a packet (R353, R358) -/

/-- The path of the next packet: round robin, skipping suspended paths. -/
def nextPath (q : Qp) (ct : Nat) : Nat :=
  (freeFrom (fun p => decide (ct < tgetD q.pathSkip p 0)) (max q.paths 1) (max q.paths 1) (q.nextPath % max q.paths 1)).getD
    (q.nextPath % max q.paths 1)

/-- Sends one packet that takes `psns` sequence numbers; it waits for its acknowledgement. -/
def sendPkt (i : Nat) (p : Pkt) (psns : Nat) (s : State) : State :=
  match getQp s i with
  | none => s
  | some q =>
    let path := nextPath q s.ct
    let p := { p with qp := i, psn := q.sqPsn, path, ctSent := if q.gx then ctStamp s.ct else 0 }
    let clear := p.payload
    let p := if q.gx && q.keyId ≠ ones32 && (keyOf s q.keyId).isSome then { p with flags := p.flags + gxEnc } else p
    let p := match gxSealed s q p clear with
      | some x => { p with payload := x.1, icv := x.2 }
      | none => p
    let q := { q with
      sqPsn := (q.sqPsn + psns) % 2 ^ 24
      nextPath := path + 1
      tx := q.tx ++ [(p.psn, { pkt := p, clear, ctFirst := s.ct, ctLast := s.ct, path })] }
    emitPkt p (bump .netTxPkts q.partition 1 (setQp i q s))

/-- A byte string in pieces of `n`. -/
def pieces (n : Nat) (b : Bytes) : List Bytes :=
  (List.range (ceilDiv b.length (max n 1))).map (fun i => (b.drop (i * n)).take n)

/-- Takes a message number and records what the message belongs to. -/
def openMsg (i : Nat) (m : TxMsg) (s : State) : Nat × State :=
  match getQp s i with
  | none => (0, s)
  | some q => (q.msgNext, setQp i { q with msgNext := q.msgNext + 1, msgs := tset q.msgs q.msgNext m } s)

/-- The PSN of the packet that leaves next. -/
def nextPsn (s : State) (i : Nat) : Nat := ((getQp s i).map (·.sqPsn)).getD 0

/-- The last PSN of a message. -/
def closeMsg (i msg psn : Nat) (s : State) : State :=
  match getQp s i with
  | some q => setQp i { q with msgs := tmod q.msgs msg (fun x => { x with lastPsn := psn }) } s
  | none => s

/-- What a sealed message carries besides its data. -/
structure Seal where
  payload : Bytes := []
  off     : Nat := 0
  trigger : Bool := false
  tag     : Nat := 0
  deriving DecidableEq, Repr

/-- Whether a queue pair takes new work, or the status that it answers (R352, R355). -/
def qpReady (s : State) (i : Nat) : Except Nat Qp :=
  match getQp s i with
  | none => .error St.connGone
  | some q =>
    if q.state ≠ .rts then .error St.qpError
    else if q.gx && ones32 < q.msgNext then .error St.msgExhausted
    else .ok q

/-- Sends a sealed GX message: its data packets, then its seal (R358, R359). One that would need the number 0xFFFF_FFFF sends
nothing, and ends when the device settles (`spentMsgs`, R355). -/
def gxWrite (i : Nat) (x : TxMsg) (key off : Nat) (data : Bytes) (sl : Seal) (s : State) : Except Nat State :=
  match qpReady s i with
  | .error st => .error st
  | .ok q =>
    let (n, s) := openMsg i { x with ctIssue := s.ct } s
    if n = ones32 then .ok s else
    let base : Pkt := { opcode := 0xE0, msg := n, len := data.length, key, regOff := off
                        flags := if sl.trigger then gxTrigger else 0, tag := if sl.trigger then sl.tag else 0 }
    let s := (pieces q.mtu data).zipIdx.foldl (fun s y =>
      sendPkt i { base with offset := y.2 * q.mtu, payload := y.1 } 1 s) s
    let psn := nextPsn s i
    let s := sendPkt i { base with
      offset := ones32, flags := base.flags + gxSeal, regOff := sl.off, payload := sl.payload } 1 s
    .ok (closeMsg i n psn s)

/-- Sends a GX read request for `len` bytes (R360). -/
def gxRead (i : Nat) (x : TxMsg) (key off len : Nat) (s : State) : Except Nat State :=
  match qpReady s i with
  | .error st => .error st
  | .ok _ =>
    let (n, s) := openMsg i { x with ctIssue := s.ct, want := len } s
    let psn := nextPsn s i
    .ok (if n = ones32 then s else closeMsg i n psn (sendPkt i { opcode := 0xE1, msg := n, len, key, regOff := off } 1 s))

/-- BTH opcode of packet `j` of `n` of an RC SEND (`base` 0) or WRITE (`base` 6). -/
def rcOpcode (base j n : Nat) (imm : Bool) : Nat :=
  if n = 1 then base + (if imm then 5 else 4)
  else if j = 0 then base
  else if j + 1 < n then base + 1
  else base + (if imm then 3 else 2)

/-- Sends an RC SEND or WRITE (R348). -/
def rcSend (i : Nat) (x : TxMsg) (write : Bool) (key off : Nat) (data : Bytes) (imm : Option Nat) (s : State) : Except Nat State :=
  match qpReady s i with
  | .error st => .error st
  | .ok q =>
    let (n, s) := openMsg i { x with ctIssue := s.ct } s
    let ps := if data = [] then [[]] else pieces q.mtu data
    let last := (nextPsn s i + ps.length - 1) % 2 ^ 24
    let s := ps.zipIdx.foldl (fun s y =>
      sendPkt i { bth := rcOpcode (if write then 6 else 0) y.2 ps.length imm.isSome, key, regOff := off, len := data.length
                  msg := n, tag := imm.getD 0, offset := y.2 * q.mtu, payload := y.1 } 1 s) s
    .ok (closeMsg i n last s)

/-- Sends an RC RDMA READ request; its responses take one sequence number each. -/
def rcRead (i : Nat) (x : TxMsg) (key off len : Nat) (s : State) : Except Nat State :=
  match qpReady s i with
  | .error st => .error st
  | .ok q =>
    let (n, s) := openMsg i { x with ctIssue := s.ct, want := len } s
    let k := max 1 (ceilDiv len q.mtu)
    let last := (nextPsn s i + k - 1) % 2 ^ 24
    .ok (closeMsg i n last (sendPkt i { bth := 0x0C, key, regOff := off, len, msg := n } k s))

/-! ### Composed ranges (R370, R371) -/

/-- A partition's map epoch. -/
def mapEpoch (s : State) (p : Nat) : Nat := tgetD s.net.epochs p 1

/-- A partition whose requests NET_MAP_SWAP holds (R374). -/
def mapHeld (s : State) (p : Nat) : Bool := s.net.mapOps.any (fun e => e.2.swap && e.2.partition = p && decide (e.2.phase ≤ 3))

/-- A request to a range, stamped with the present epoch: it goes to the current target (R371). -/
def rangeMsg (s : State) (p k : Nat) (o : TxOwner) : TxMsg := { owner := o, lastPsn := 0, epoch := mapEpoch s p, range := k }

/-- Reads `n` bytes at offset `off` of a range. -/
def rangeRead (p k off n : Nat) (o : TxOwner) (s : State) : Except Nat State :=
  match getRange s p k with
  | none => .error St.rangeGone
  | some x =>
    match qpOf s x.conn with
    | none => .error St.rangeGone
    | some (i, _) => gxRead i { rangeMsg s p k o with roff := off } x.key (x.offset + off) n s

/-- Writes bytes at offset `off` of a range. -/
def rangeWrite (p k off : Nat) (data : Bytes) (o : TxOwner) (s : State) : Except Nat State :=
  match getRange s p k with
  | none => .error St.rangeGone
  | some x =>
    match qpOf s x.conn with
    | none => .error St.rangeGone
    | some (i, _) => gxWrite i { rangeMsg s p k o with roff := off, body := data } x.key (x.offset + off) data {} s

/-- The message that belongs to an owner, with its queue pair. -/
def msgOf (s : State) (o : TxOwner) : Option (Nat × Nat × TxMsg) :=
  (s.net.qps.findSome? (fun e => (e.2.msgs.find? (fun m => m.2.owner = o)).map (fun m => (e.1, m.1, m.2))))

/-- Forgets the messages of an owner. -/
def dropMsgs (o : TxOwner) (s : State) : State :=
  { s with net := { s.net with qps := s.net.qps.map (fun e =>
      (e.1, { e.2 with msgs := e.2.msgs.filter (fun m => m.2.owner ≠ o) })) } }

/-- Requests outstanding against a range's old target (R370). -/
def oldInflight (s : State) (k : Nat) (epoch : Nat) : Nat :=
  (s.net.qps.map (fun e => (e.2.msgs.filter (fun m => m.2.range = k && decide (m.2.epoch < epoch) && !m.2.done && m.2.failed = 0)).length)).sum

/-! ### NVMe-oF commands (R350) -/

/-- The NVMe-oF controller on a queue pair (R350). -/
def ctrlOn (s : State) (h : Nat) : Option (Nat × NvCtrl) := s.net.ctrls.find? (fun e => e.2.handle = h && e.2.connected)

/-- Issues an I/O command to a controller: kind 0 read, 1 write, 2 Flush, 3 Connect with Identify (log entry 30). -/
def nvmeIssue (ctrl nsid kind lba count : Nat) (data : Bytes) (c : NvCmd) (s : State) : State :=
  let n := s.net.nextCmd
  emit (.nvme n ctrl nsid kind lba count data)
    { s with net := { s.net with nextCmd := n + 1, cmds := tset s.net.cmds n { c with controller := ctrl } } }

end Sys2Proof.Machine
end

