-- ==== Sys2Proof/Machine/Images.lean ====
section
/-! DEFINITION. Cast images, record frames and what their bytes spell (R58, R103, R142, R224, R246). -/

namespace Sys2Proof.Machine

/-! ### Entries from their bytes (R58, R99) -/

/-- The state that a code names (R63). -/
def stateOfCode (c : Nat) : SState :=
  (([.free, .admitted, .prefill, .decode, .toolwait, .parking, .parked, .raising, .migratingOut, .migratingIn, .stopped
    , .faulted, .retiring] : List SState)[c]?).getD .free

/-- The active entry that 256 bytes spell (R58, R59, R61, R248). -/
def entryOfBytes (b : Bytes) : Session :=
  let ctl := field b 8 4
  let len := field b 0x18 4
  let held := field b 0x58 4
  let g := field b 0x38 8
  { id := field b 0 8, st := stateOfCode (bits ctl 3 0), partition := bits ctl 11 8, modelSlot := bits ctl 23 18
    priority := bits ctl 17 15, stopReason := bits ctl 31 24, cls := field b 0x0C 2 % 4096, faultCode := field b 0x0E 2
    flags := BitVec.ofNat 32 (field b 0x10 4), tableGen := field b 0x14 2, grammarImage := field b 0x16 2
    specLength := len / 2 ^ 24, length := len % 2 ^ 24, windowPages := field b 0x1C 2, globalCount := field b 0x1E 2
    deadline := field b 0x20 8, pdirAddr := field b 0x28 8, journalAddr := field b 0x30 8
    grammarState := g % 2 ^ 24, grammarDepth := g / 2 ^ 56, rngSeed := field b 0x40 8, credit := field b 0x48 4
    stopSet := field b 0x4C 4, streamTarget := field b 0x50 8
    held := (le 3 (held / 256)).take (held % 4), maxLength := field b 0x5C 4, maxNew := field b 0x60 4
    newTokens := field b 0x64 4, ctAdmit := field b 0x68 8, ctFirst := field b 0x70 8, ctLast := field b 0x78 8
    ctToolwait := field b 0x80 8, castAfter := field b 0x88 8, armChain := field b 0x90 4, stepCount := field b 0x94 4
    prefillPos := field b 0x98 4, prefixLen := field b 0x9C 4, raiseCount := field b 0xA0 4, pendingGen := field b 0xA4 2
    stopCt := field b 0xA8 8 }

/-- The directory entry that 128 bytes spell (R99, R100). -/
def dirOfBytes (b : Bytes) : DirEntry :=
  let ctl := field b 8 4
  let ds := (([.unused, .active, .parked, .claimed, .exported, .retiring] : List DState)[bits ctl 3 0]?).getD .unused
  { id := field b 0 8, dstate := ds, resume := stateOfCode (bits ctl 7 4), partition := bits ctl 11 8
    modelSlot := bits ctl 23 18, priority := bits ctl 17 15, stopReason := bits ctl 31 24, cls := field b 0x0C 2 % 4096
    flags := BitVec.ofNat 32 (field b 0x0E 2), tableGen := field b 0x10 2, grammarImage := field b 0x12 2
    length := field b 0x14 4, credit := field b 0x18 4, armChain := field b 0x1C 4, deadline := field b 0x20 8
    ctCast := field b 0x28 8, imageLoc := field b 0x30 8, imageBytes := field b 0x38 4, imageCrc := field b 0x3C 4
    castTier := bits (field b 0x40 4) 15 14, narrow := bits (field b 0x40 4) 13 12, winNarrowed := bit (field b 0x40 4) 11
    provisional := bit (field b 0x44 4) 19, activeChip := bits (field b 0x44 4) 18 16, activeSlot := bits (field b 0x44 4) 15 0
    pagesCast := field b 0x48 4, castGen := field b 0x4C 4, ckptCut := field b 0x50 8, exportPeer := field b 0x58 4 }

/-! ### The cast image (R142) -/

/-- Segments that a list of entries takes, in order of layer group and then of segment. -/
def segKeys (t : Tab Pte) : List Nat := (t.map (fun e => e.1 / 4096 * 16 + e.1 % 4096 / 256)).eraseDups

/-- Offset of the first segment. -/
def segBase (lg : Nat) : Nat := ceilDiv (0x140 + 128 * lg) 2048 * 2048

/-- The segments of an image: those allocated, and those of its entries, in order of layer group and then of segment (R142). -/
def imageSegs (t : PageTables) (ptes : Tab Pte) : List Nat :=
  sortBy (fun a b => decide (a ≤ b)) (tkeys t.segs ++ t.imageSegs ++ segKeys ptes).eraseDups

/-- Size of an image: the end of its last segment. -/
def imageSizeOf (t : PageTables) (ptes : Tab Pte) : Nat := segBase t.lgCount + 2048 * (imageSegs t ptes).length

/-- The image of a session whose page tables are `ptes` (R142). -/
def imageBytes (s : State) (x : Session) (ptes : Tab Pte) : Bytes :=
  let t := (getStore s x.id).pages
  let ks := imageSegs t ptes
  let base := segBase t.lgCount
  let ptr (k : Nat) : Bytes := u64 (if ks.contains k then base + 2048 * ks.idxOf k else 0)
  entryBytes x ++ pdirHeader s x.id x.modelSlot ptes ++ (List.range (16 * t.lgCount)).flatMap ptr
    ++ zeros (base - (0x140 + 128 * t.lgCount))
    ++ ks.flatMap (fun k => (List.range 256).flatMap (fun i => u64 (tgetD ptes (pteKey (k / 16) (k % 16 * 256 + i)) {}).toNat))

/-- The valid entries that an image's segments hold. -/
def imagePtes (b : Bytes) : Tab Pte :=
  (List.range (field b 0x100 2)).flatMap (fun g => (List.range 16).flatMap (fun sg =>
    let o := field b (0x140 + 128 * g + 8 * sg) 8
    if o = 0 then []
    else (List.range 256).filterMap (fun i =>
      let e := Pte.ofNat (field b (o + 8 * i) 8)
      if e.valid then some (pteKey g (256 * sg + i), e) else none)))

/-- The page tables that an image holds, without frames of their own. -/
def imageTables (b : Bytes) : PageTables :=
  { lgCount := field b 0x100 2, pageClass := field b 0x102 1, ptes := imagePtes b
    imageSegs := (List.range (16 * field b 0x100 2)).filter (fun k => field b (0x140 + 8 * k) 8 ≠ 0) }

/-! ### The record frame (R78, R224, R246) -/

/-- The 1 KiB text record. -/
def textBytes (t : TextRec) : Bytes :=
  let prev := if t.prevClass < 16 then t.prevClass else 0
  u32 (b2n t.intakeOpen * 2 ^ 31 + b2n t.originResult * 2 ^ 30 + t.carry.length * 2 ^ 28 + prev * 2 ^ 24
      + t.seg.length * 2 ^ 8 + t.tail.length)
    ++ u32 (leVal t.carry) ++ u32 t.staged ++ u32 t.replaced ++ u64 t.bytesIn ++ zeros 40
    ++ fit 256 (t.seg.flatMap (fun x => u32 (x.2 * 2 ^ 24 + x.1)))
    ++ fit 256 (t.tail.map (·.byte))
    ++ fit 256 (t.tail.flatMap (fun x => u8 (x.cls * 16 + b2n x.cpStart * 8 + x.origin)))
    ++ u32 t.stopHold.length ++ zeros 12 ++ fit 176 t.stopHold

/-- The text record that 1 KiB spells. It names no origin of the carried bytes: theirs is taken to be that of the last append, which
supplied them (R225; DEDUCED, log entry 60). -/
def textOfBytes (b : Bytes) : TextRec :=
  let c := field b 0 4
  { intakeOpen := bit c 31, originResult := bit c 30, carry := slice b 4 (bits c 29 28), carryOrigin := if bit c 30 then 2 else 0, prevClass := bits c 27 24
    staged := field b 8 4, replaced := field b 0x0C 4, bytesIn := field b 0x10 8
    seg := (List.range (bits c 14 8)).map (fun i => (field b (0x40 + 4 * i) 4 % 2 ^ 24, field b (0x43 + 4 * i) 1))
    tail := (List.range (bits c 7 0)).map (fun i =>
      let m := field b (0x240 + i) 1
      { byte := b.getD (0x140 + i) 0, cls := m / 16, cpStart := bit m 3, origin := m % 8 })
    stopHold := slice b 0x350 (bits (field b 0x340 4) 6 0) }

/-- The grammar stack's 256 bytes. -/
def stackBytes (l : List Nat) : Bytes := fit 256 (l.flatMap u16)

/-- A session's 2 KiB record frame: block table, text record, sampling record and grammar stack. -/
def recBytes (t : Store) : Bytes :=
  (List.range 64).flatMap (fun k => u64 (tgetD t.blocks k 0)) ++ fit 1024 (textBytes t.text) ++ fit 256 (sampBytes t.samp)
    ++ stackBytes t.gstack

/-- The sampling record that 256 bytes spell (R247). -/
def sampOfBytes (b : Bytes) : Sampling :=
  { temperature := BitVec.ofNat 32 (field b 0 4), topP := BitVec.ofNat 32 (field b 4 4), topK := field b 8 4
    draftLen := field b 0x0C 1
    bias := (List.range (field b 0x0D 1)).map (fun i =>
      let w := field b (0x20 + 8 * i) 4
      { ban := bit w 31, token := w % 2 ^ 20, value := BitVec.ofNat 32 (field b (0x24 + 8 * i) 4) }) }

/-- A store as a record frame, a depth and the journal's records spell it. -/
def storeOfBytes (part depth : Nat) (frame journal : Bytes) (pages : PageTables) : Store :=
  { partition := part, text := textOfBytes (slice frame 0x200 1024), samp := sampOfBytes (slice frame 0x600 256)
    gstack := (List.range depth).map (fun i => field frame (0x700 + 2 * i) 2)
    journal := (List.range (journal.length / 4)).map (fun i => field journal (4 * i) 4), pages }

/-! ### Live tables for a session (R109, R130, R131) -/

/-- Allocates a directory and the segments that a session's image had or its entries need, if the table pool can give them. -/
def buildTables (m : Moment) (id p : Nat) (s : State) : Except Lack State :=
  let t := (getStore s id).pages
  match takeRun p (dirFrameCount t.lgCount) id s with
  | .error l => .error l
  | .ok (fr, s) =>
    let s := modStore id (fun x => { x with pages := { x.pages with dirFrames := fr } }) s
    let s := modSess id (fun x => { x with pdirAddr := fr.headD 0 }) s
    takeTables m id p (imageSegs t t.ptes) s

/-- Recomputes RESIDENT of every entry for this chip (R134). -/
def recomputeResident (id : Nat) (s : State) : State :=
  let c := chip s
  modStore id (fun x => { x with pages := { x.pages with ptes := x.pages.ptes.map (fun e =>
    (e.1, { e.2 with resident := e.2.valid && decide (e.2.tier ≤ 1) && e.2.enc = 0 && e.2.range % 8 = c })) } }) s

end Sys2Proof.Machine
end

