-- ==== Sys2Proof/Machine/Overlay.lean ====
section
/-! DEFINITION. The tables that the device itself keeps in HBM, as a reader of that memory sees them: live page directories and block
lists (R131, R132), journal blocks and record frames (R78, R224, R246), Pattern-tree node tables (R144), and the memory of Touchstone's
indexes and the Gather unit's tables (R319, R320, R335). The state holds what they say once; these are their bytes. -/

namespace Sys2Proof.Machine

/-- A session's live page directory and its allocated segments, each with its HBM address (R131, R132). -/
def liveTables (s : State) (id : Nat) (t : Store) : List (Nat × Bytes) :=
  match t.pages.dirFrames with
  | [] => []
  | a :: _ =>
    let slot := ((getSess s id).map (·.modelSlot)).getD 0
    (a, fit (2048 * t.pages.dirFrames.length) (pdirHeader s id slot t.pages.ptes
        ++ (List.range (16 * t.pages.lgCount)).flatMap (fun k => u64 (tgetD t.pages.segs k 0))))
      :: t.pages.segs.map (fun e => (e.2, (List.range 256).flatMap (fun i =>
        u64 (tgetD t.pages.ptes (pteKey (e.1 / 16) (e.1 % 16 * 256 + i)) {}).toNat)))

/-- A session's journal blocks and its record frame, those of this chip (R78, R224, R246). -/
def journalBytes (t : Store) : List (Nat × Bytes) :=
  (t.blocks.filter (fun b => !thas t.blockChips b.1)).map (fun b =>
      (b.2, fit 65536 (((t.journal.drop (16384 * b.1)).take 16384).flatMap u32)))
    ++ (if t.recFrame = 0 || t.recChip.isSome then [] else [(t.recFrame, recBytes t)])

/-- A partition's node table and its nodes' page arrays (R144). -/
def treeBytes (s : State) (t : Tree) : List (Nat × Bytes) :=
  if t.cap = 0 then []
  else
    (t.base, (List.range (t.cap + 1)).flatMap (fun i =>
        match tget t.nodes i with
        | some n => nodeBytes s n
        | none => if i = 0 then zeros 64 else nodeBytes s {}))
      :: (t.nodes.filter (fun e => e.2.nstate ≠ .free)).map (fun e => (e.2.pageFrame, fit 2048 (e.2.pages.flatMap (fun x => u64 x.toNat))))

/-- Every table of the device in HBM. -/
def deviceTables (s : State) : List (Nat × Bytes) :=
  s.pln.store.flatMap (fun e => liveTables s e.1 e.2 ++ journalBytes e.2) ++ s.trees.flatMap (fun e => treeBytes s e.2)

/-- The 32-byte record of an index's slot (R319). -/
def itemRecord (x : Index) (slot : Nat) : Bytes :=
  match tget x.items slot with
  | some i => u64 i.label ++ u64 i.ins ++ u64 i.del ++ u16 (tgetD x.gens slot 1)
      ++ u8 (match i.sstate with | .inserting => 1 | .live => 2 | .tombstone => 3) ++ u8 0
      ++ u32 (if x.kind = 1 then i.edges.length else i.list)
  | none => u64 0 ++ u64 ones64 ++ u64 ones64 ++ u16 (tgetD x.gens slot 1) ++ u8 (if tgetD x.gens slot 1 = 0xFFFF then 4 else 0) ++ u8 0 ++ u32 0

/-- A graph edge as its 64 bits (R320). -/
def edgeWord (e : Edge) : Nat := e.slot * 2 ^ 32 + e.gen % 2 ^ 16 * 2 ^ 16 + e.dist % 2 ^ 16

/-- A byte of an index's memory: its code array, its item records, its edge lists (R319, R320). -/
def indexByte (x : Index) (o : Nat) : Byte :=
  let w := x.bits / 8
  let codes := x.capacity * w
  let item (k : Nat) : Item := tgetD x.items k { code := 0, label := 0 }
  if o < codes then (le w (item (o / w)).code).getD (o % w) 0
  else if o < codes + 32 * x.capacity then (itemRecord x ((o - codes) / 32)).getD ((o - codes) % 32) 0
  else
    let k := (o - codes - 32 * x.capacity) / 8
    match (item (k / x.degree)).edges[k % x.degree]? with
    | some e => (u64 (edgeWord e)).getD (o % 8) 0
    | none => 0

/-- The offset in a list of extents at which an address lies, the extents before it taking `o` bytes. -/
def extentOffset (a : Nat) : List (Nat × Nat) → Nat → Option Nat
  | [], _ => none
  | e :: es, o => if e.1 ≤ a ∧ a < e.1 + e.2 then some (o + (a - e.1)) else extentOffset a es (o + e.2)

/-- The byte that an index or a table version holds at an address of a tier. -/
def engineByte (s : State) (t a : Nat) : Option Byte :=
  match s.tch.indexes.findSome? (fun e =>
      if e.2.tier = t then (extentOffset a e.2.extents 0).map (indexByte e.2) else none) with
  | some b => some b
  | none => s.gth.tables.findSome? (fun e =>
      if e.2.tier = t then e.2.versions.findSome? (fun v =>
        (extentOffset a v.2.extents 0).map (fun o => (v.2.rows.getD (o / e.2.rowBytes) []).getD (o % e.2.rowBytes) 0))
      else none)

/-- Bytes read from `a`, those of indexes and table versions in their places. -/
def overEngines (s : State) (t a : Nat) (b : Bytes) : Bytes :=
  if s.tch.indexes.isEmpty && s.gth.tables.isEmpty then b
  else b.zipIdx.map (fun x => (engineByte s t (a + x.2)).getD x.1)

/-- Bytes read from `a` with those of a table at `base` in their place. -/
def splice (a : Nat) (b : Bytes) (base : Nat) (x : Bytes) : Bytes :=
  let lo := max a base
  let hi := min (a + b.length) (base + x.length)
  if hi ≤ lo then b else b.take (lo - a) ++ slice x (lo - base) (hi - lo) ++ b.drop (hi - a)

/-- What a reader of this chip's memory sees: the stored bytes, and the device's own tables where they lie. What is written under such a
table has no effect (DESIGN CHOICE, log entry 63). -/
def shownRead (s : State) (t a n : Nat) : Bytes :=
  let b := overEngines s t a (devRead s t a n)
  if t = 1 then (deviceTables s).foldl (fun b x => splice a b x.1 x.2) b else b

/-- What a reader of a partition's memory in tier 1 or 2 sees. -/
def shownPart (s : State) (p tier off n : Nat) : Bytes :=
  (List.range n).flatMap (fun i => shownRead s tier (partAddr s p tier (off + i)) 1)

end Sys2Proof.Machine
end

