-- ==== Sys2Proof/Machine/Casts.lean ====
section
/-! DEFINITION. Foundry operations and casting (R93 to R106, 03). -/

namespace Sys2Proof.Machine

namespace St
def recoveryExhausted : Nat := 0x0203
def migrateRefused : Nat := 0x0204
def importCollision : Nat := 0x0206
def importFull : Nat := 0x0207
def sessionArmed : Nat := 0x0107
def twinNeedsCast : Nat := 0x0B01
def twinPinned : Nat := 0x0B02
end St

/-! ### Operations and their descriptors -/

/-- Changes an operation. -/
def modFop (n : Nat) (g : Fop → Fop) (s : State) : State :=
  match getFop s n with
  | some f => setFop n (g f) s
  | none => s

/-- Bytes of a page of a class in an encoding (R136). -/
def encSize (cls enc : Nat) : Nat := frameSize { partition := 0, tier := 1, pclass := cls, enc }

/-- Shows an operation's phase and pages. -/
def showFop (n : Nat) (s : State) : State :=
  match getFop s n with
  | some f => progressOp f.op f.phase f.pages f.total s
  | none => s

/-- Moves an operation to a phase. -/
def fopPhase (n phase : Nat) (canCancel : Bool) (s : State) : State :=
  match getFop s n with
  | none => s
  | some f =>
    let s := setFop n { f with phase } s
    let s := match getOp s f.op with | some o => setOp f.op { o with canCancel } s | none => s
    showFop n s

/-- The phase of a kind of operation once its descriptors are in the store (R93, R127). -/
def firstPhase : FopKind → Nat
  | .cast => 2
  | .migrate => 2
  | .exportEth => 2
  | _ => 1

/-- Moves an operation's descriptors into the store while it has room; one that finds it full stays QUEUED (R93). -/
def pump (n : Nat) (s : State) : State :=
  match getFop s n with
  | none => s
  | some f =>
    let now := f.todo.take (65536 - storeDepth s)
    if now.isEmpty then s
    else
      let s := setFop n { f with todo := f.todo.drop now.length } s
      let s := now.foldl (fun s d => addDesc { d with fop := n } s) s
      if f.phase < firstPhase f.kind then fopPhase n (firstPhase f.kind) true s else s

/-- Moves every operation's waiting descriptors into the store, oldest operation first. -/
def pumpAll (s : State) : State :=
  ((s.fdy.ops.filter (fun e => e.2.todo ≠ [])).map (·.1)).foldl (fun s n => pump n s) s

/-- Adds descriptors to an operation. -/
def addTodo (n : Nat) (l : List Desc) (s : State) : State := pump n (modFop n (fun f => { f with todo := f.todo ++ l }) s)

/-- Starts a Foundry operation for a request, with its Bench operation unless the device itself asks; a request that has waited for its
session's rest is one already (R127). -/
def beginFop (r : Req) (f : Fop) (k : Nat → State → State) (s : State) : Reply :=
  let f := { f with ctStart := s.ct, lead := s.fdy.raiseLead, ttl := s.fdy.ttl, pullTo := s.fdy.pullTo }
  let auto : Reply := let (n, s) := newFop f s; .wait (k n s)
  match r.src with
  | .device _ => auto
  | .mirrored => auto
  | _ =>
    match opOfReq s r with
    | some op => let (n, s) := newFop { f with op } s; .wait (k n (progressOp op 0 0 f.total s))
    | none => asOp r s 0 2 f.total true [] fun op s => let (n, s) := newFop { f with op } s; k n s

/-- Ends an operation that did its work. -/
def endFop (n : Nat) (result : Bytes) (s : State) : State :=
  match getFop s n with
  | some f => endOp f.op 0 0 result (delFop n s)
  | none => s

/-! ### Places in composed ranges (R136) -/

/-- Bytes that a page of a class and an encoding takes in a range, its tag included. -/
def rangeSize (cls enc : Nat) : Nat := ceilDiv (encSize cls enc + 16) 8192 * 8192

/-- Entries that name a composed range, with their page classes: page tables, cast images and operations in progress. -/
def rangeEntries (s : State) (k : Nat) : List (Nat × Pte) :=
  s.pln.store.flatMap (fun e => (e.2.pages.ptes.filter (fun x => x.2.valid && x.2.tier = 3 && x.2.range = k)).map
      (fun x => (e.2.pages.pageClass, x.2)))
    ++ s.fdy.ops.flatMap (fun e => (e.2.fresh.filter (fun x => x.2.tier = 3 && x.2.range = k)).map
      (fun x => ((getStore s e.2.session).pages.pageClass, x.2)))

/-- `pages` of a range (R370). -/
def rangePages (s : State) (k : Nat) : Nat := (rangeEntries s k).length

/-- Lowest offset at which a range has room for a page. -/
def rangePlace (s : State) (p k cls enc : Nat) : Option Nat :=
  match getRange s p k with
  | none => none
  | some x =>
    let used := (rangeEntries s k).map (fun e => (e.2.addr, rangeSize e.1 e.2.enc))
    let n := rangeSize cls enc
    ((0 :: used.map (fun u => u.1 + u.2)).filter (fun a => decide (a + n ≤ x.length) && clear? used a n)).min?

/-! ### Casting (R102 to R106) -/

/-- The narrowing that a cast applies (R106). -/
def castNarrow (s : State) (x : Session) (level : Nat) : Nat :=
  let fmt := (getModel s x.modelSlot).hdr.kvFormat
  if sflag x.flags Fl.narrowDeny || !(fmt = 5 || fmt = 6) then 0 else min level (getClass s x.cls).narrow

/-- Blocks that a raise of a session needs in every layer group (R110). -/
def raiseBlocks (x : Session) : List Nat :=
  (List.range (x.length / 256 + 1)).filter (fun b =>
    !sflag x.flags Fl.sparse || decide (256 * b < x.globalCount) || decide (x.length / 256 + 1 ≤ b + x.windowPages))

/-- Encoding in which a cast writes a page (R106). -/
def castEnc (x : Session) (narrow : Nat) (window : Bool) (key : Nat) (e : Pte) : Nat :=
  if e.enc ≠ 0 then e.enc
  else if sflag x.flags Fl.sparse && !window && (raiseBlocks x).contains (key % 4096) then 0
  else narrow

/-- Pages that a cast copies: private ones above its tier (R102). -/
def castPages (s : State) (id tier : Nat) : Tab Pte :=
  (getStore s id).pages.ptes.filter (fun e => e.2.valid && !e.2.shared && decide (e.2.tier < tier))

/-- An entry's place as a descriptor names it: for tier 3 the range above a 48-bit offset (R95). -/
def placeWord (e : Pte) : Nat := if e.tier = 3 then e.range * 2 ^ 48 + e.addr else e.addr

/-- Reserves the destination of one page; the entry that it will have. -/
def castDest (m : Moment) (k : Nat) (f : Fop) (cls enc : Nat) (s : State) : Except Lack (Pte × State) :=
  if f.tier = 3 then
    match rangePlace s f.partition f.range cls enc with
    | none => .error none
    | some off =>
      .ok ({ frame := off / 8192, range := f.range, gen := ((getRange s f.partition f.range).map (·.rgen)).getD 0 % 256
             tier := 3, enc, valid := true }, s)
  else
    match allocFrame m k { partition := f.partition, tier := f.tier, pclass := cls, enc } fReserved f.session s with
    | .error l => .error l
    | .ok (a, s) => .ok (pteOf s f.tier enc a, s)

/-- Reserves the destinations of a cast's pages and forms its descriptors. -/
def castPlan (m : Moment) (n : Nat) (x : Session) : Tab Pte → Nat → List Desc → State → Except Lack (List Desc × State)
  | [], _, acc, s => .ok (acc, s)
  | (key, e) :: l, k, acc, s =>
    match getFop s n with
    | none => .error none
    | some f =>
      let cls := (getStore s x.id).pages.pageClass
      let enc := castEnc x f.narrow f.window key e
      match castDest m k f cls enc s with
      | .error l => .error l
      | .ok (e', s) =>
        let s := modFop n (fun f => { f with fresh := tset f.fresh key e' }) s
        let d : Desc := { kind := .castPage, length := encSize cls e.enc, session := x.id, partition := x.partition, srcTier := e.tier
                          dstTier := f.tier, xcode := if enc = e.enc then 0 else enc, src := e.addr, dst := placeWord e'
                          srcChip := e.range % 8, dstChip := chip s, lg := key / 4096, page := key % 4096
                          castGen := f.castGen, cls := 4, dest := e' }
        castPlan m n x l (k + 1) (acc ++ [d]) s

/-- A cast fails before its commit point: everything it reserved is released and the session returns to its state (R104). -/
def castFail (n status : Nat) (s : State) : State :=
  match getFop s n with
  | none => s
  | some f =>
    let s := endOp f.op status 0 [] (delFop n (dropFresh f fReserved (dropDescs n s)))
    match getSess s f.session with
    | none => s
    | some x =>
      let s := setState f.session x.prior s
      let s := modSess f.session (fun x => { x with castSkipped := x.castSkipped || f.pressure }) (rearmCast f.session s)
      note 0x0201 1 f.partition f.session [status, f.tier] s

/-- The page-table entries that a session will have once an operation's reserved frames are published. -/
def withFresh (t : Tab Pte) (fresh : Tab Pte) : Tab Pte := fresh.foldl (fun t e => tset t e.1 e.2) t

/-- The descriptors of a cast's pages, image of `size` bytes in tier `tier` and directory in turn (R103). -/
def castRun (m : Moment) (n : Nat) (x : Session) (gen tier : Nat) (pages : Tab Pte) (size : Nat) (s : State) : State :=
  match placeBlock s x.partition tier size 4096 with
  | none => castFail n St.tierFull s
  | some a =>
    let s := modFop n (fun f => { f with imageAddr := a, imageSize := size, total := pages.length }) s
    match castPlan m n x pages 0 [] s with
    | .error l => castFail n St.tierFull (starve l s)
    | .ok (ds, s) =>
      let base : Desc := { kind := .imageWrite, session := x.id, partition := x.partition, srcChip := chip s, dstChip := chip s
                           srcTier := tier, dstTier := tier, castGen := gen, cls := 4, fence := true }
      addTodo n (ds ++ [{ base with length := size, dst := a, crc := true }, { base with kind := .dirCommit, length := 128 }]) s

/-- Starts a cast: PARKING, destinations, then the descriptors (R103). -/
def castStart (m : Moment) (n : Nat) (x : Session) (s : State) : State :=
  let s := modSess x.id (fun y => { y with prior := x.st, autoCastCt := 0 }) (setState x.id .parking (leaveQueue x.id s))
  match getFop s n with
  | none => s
  | some f =>
    castRun m n x f.castGen 1 (castPages s x.id f.tier) (imageSizeOf (getStore s x.id).pages (getStore s x.id).pages.ptes) s

/-- The entry that a cast image holds (R103). -/
def parkedEntry (x : Session) : Session := { x with st := x.prior, inflight := none, autoCastCt := 0, pageWait := false, maskSet := false }

/-- The commit point of a cast, and what follows it (R103). -/
def castCommit (n : Nat) (s : State) : State :=
  match getFop s n with
  | none => s
  | some f =>
    let id := f.session
    let s := updateCredit id s
    match getSess s id with
    | none => s
    | some x =>
      let img := devRead s 1 f.imageAddr f.imageSize
      let e := (getDir s id).getD { id }
      let s := setDir id { e with
        id, dstate := .parked, resume := x.prior, partition := x.partition, modelSlot := x.modelSlot, priority := x.priority
        stopReason := x.stopReason, cls := x.cls, flags := x.flags, tableGen := x.tableGen, grammarImage := x.grammarImage
        ckptCut := if (getDir s id).isSome then e.ckptCut else (getStore s id).ckptCut
        length := x.length, credit := x.credit, armChain := x.armChain, deadline := x.deadline, ctCast := s.ct
        imageLoc := chip s * 2 ^ 61 + f.imageAddr, imageBytes := f.imageSize, imageCrc := crc32c img
        castTier := f.tier, narrow := f.narrow, winNarrowed := f.window && sflag x.flags Fl.sparse, provisional := false
        activeChip := 0, activeSlot := 0, pagesCast := f.fresh.length, castGen := sat 32 (f.castGen + 1) } s
      let old := (getStore s id).pages.ptes.filter (fun e => thas f.fresh e.1)
      let s := f.fresh.foldl (fun s e => if e.2.here s then publishFrame e.2.tier e.2.addr fReserved hEntry id s else s) s
      let s := modStore id (fun t =>
        let ptes := withFresh t.pages.ptes f.fresh
        { t with pages := { t.pages with ptes, imageSegs := imageSegs t.pages ptes } }) s
      let s := dropTables id (old.foldl (fun s e => dropPte e.2 id s) s)
      let s := modStore id (fun t => { t with
        castGen := sat 32 (f.castGen + 1), image := some (parkedEntry x), imageAddr := f.imageAddr, imageSize := f.imageSize
        castGens := f.fresh.foldl (fun g e => if e.2.tier = 3 then tset g e.1 f.castGen else tdel g e.1) t.castGens }) s
      let s := if homeOf id = chip s then s else bindGen x.tableGen (-1) s
      let s := freeSlot id s
      let s := match f.pressure, s.pln.episode with
        | true, some ep => { s with pln := { s.pln with episode := some { ep with committed := ep.committed + 1 } } }
        | _, _ => s
      let s := bump .fdyCasts f.partition 1 s
      endFop n (u8 f.narrow ++ zeros 3 ++ u32 f.fresh.length ++ u64 f.bytes) s

/-- A page as a cast stores it: its own bytes, narrowed where its encoding changes. -/
def castBytes (s : State) (d : Desc) (src : Bytes) : Bytes × Nat :=
  let kv := ((getSess s d.session).map (fun x => (getModel s x.modelSlot).hdr.kvFormat)).getD 5
  if d.xcode = 0 then (src, 0) else narrowPage kv d.xcode src

/-- The IV of a page cast to a composed range (R105). -/
def castIv (id gen lg page : Nat) : Bytes := be 12 (id / 2 ^ 61 * 2 ^ 93 + serialOf id * 2 ^ 56 + gen * 2 ^ 24 + lg * 2 ^ 12 + page)

/-- The source bytes of a descriptor: what another chip or a range has sent or a COPY has transcoded, else this chip's memory. -/
def descSource (s : State) (d : Desc) : Bytes :=
  match d.data with
  | some b => b
  | none =>
    if d.srcChip ≠ chip s then []
    else if d.kind = .copy then shownRead s d.srcTier d.src d.length
    else devRead s d.srcTier d.src d.length

/-- A page of a cast has been written (R103 step 2). -/
def castPageDone (d : Desc) (s : State) : State :=
  let (b, nans) := castBytes s d (descSource s d)
  let s := bump .fdyNarrowNan d.partition nans s
  let s := if d.dstTier = 3 then s else devWrite d.dstTier d.dst b s
  showFop d.fop (modFop d.fop (fun f => { f with pages := f.pages + 1, bytes := f.bytes + b.length }) s)

/-- The cast image is written (R103 step 3). -/
def imageWritten (d : Desc) (s : State) : State :=
  match getFop s d.fop, getSess s d.session with
  | some f, some x =>
    let ptes := withFresh (getStore s d.session).pages.ptes f.fresh
    fopPhase d.fop 3 false (devWrite 1 d.dst (imageBytes s (parkedEntry x) ptes) s)
  | _, _ => s

/-- Whether a raise's tail, a pull, a cast or a migration of a session is in progress. -/
def moving (s : State) (id : Nat) : Bool := (fopOf s id [.cast, .raise, .pull, .migrate, .exportEth]).isSome

/-- A cast or a migration that waits for its session to come to rest: an operation in phase QUIESCE that records itself (R66, R127). -/
def quiesce (r : Req) (x : Session) (s : State) : Reply :=
  match r.src, opOfReq s r with
  | .device _, _ => .wait (addWaiting x.id r s)
  | .mirrored, _ => .wait (addWaiting x.id r s)
  | _, some _ => .wait (addWaiting x.id r s)
  | _, none => asOp r s 1 2 0 true [] fun _ s => addWaiting x.id r s

/-- Runs a change at once at a step boundary at which none of the session's pages is moving, or records it (R64, R66). -/
def atRest (r : Req) (x : Session) (s : State) (k : Reply) : Reply :=
  if settled s x && !moving s x.id then k else quiesce r x s

/-! ### FDY_CAST -/

def opFdyCast : OpInfo := { opcode := 0x0200, rsvd := [(0x0B, 1)], rbits := [(0x0A, 1, 0xFE)] }

/-- FDY_CAST, for the host or for the Plinth itself (R102 to R106, R530). -/
def castBody (pressure : Bool) (m : Moment) (r : Req) (s : State) : Reply :=
  let tier := if r.src = .mirrored && r.f 8 1 = 3 then 2 else r.f 8 1
  if tier = 0 || 3 < tier || 2 < r.f 9 1 then .err s St.badField
  else
    onSession r s fun id h =>
      match h with
      | .parked _ => .err s stWrong
      | .active x =>
        if settled s x && x.waiting.any isRebind then .err s stWrong
        else if !x.waiting.isEmpty then quiesce r x s
        else if !(x.st = .decode || x.st = .toolwait || x.st = .stopped) then .err s stWrong
        else
          atRest r x s (
            let gen := ((getDir s id).map (·.castGen)).getD (getStore s id).castGen
            if tier = 3 && ones32 ≤ gen then .err s St.notPermitted
            else if tier = 3 && ((getRange s x.partition (r.f 0x0C 2)).isNone || (storageKey s x.partition).isNone) then
              .err s St.rangeGone
            else if 4096 ≤ moveOps s then .err s St.busyRetry
            else
              beginFop r { kind := .cast, session := id, partition := x.partition, tier, narrow := castNarrow s x (r.f 9 1)
                           window := bit (r.f 0x0A 1) 0, range := r.f 0x0C 2, castGen := gen, pressure
                           total := (castPages s id tier).length } (fun n s => castStart m n x s) s)

def bodyFdyCast (m : Moment) (r : Req) (s : State) : Reply := castBody false m r s

/-- The tier of a cast that the Plinth requests (R530). -/
def defaultTier (s : State) (x : Session) : Nat :=
  if s.pln.castTier ≠ 0 then s.pln.castTier
  else
    let enc := castNarrow s x s.pln.castNarrow
    if (getPool s { partition := x.partition, tier := 2, pclass := (getStore s x.id).pages.pageClass, enc }).isSome then 2 else 1

/-- The request that stands for a cast that the Plinth issues itself (R530). -/
def castRequest (s : State) (x : Session) : Req :=
  { src := .device x.partition, hdr := { opcode := 0x0200, partition := x.partition }
    payload := u64 x.id ++ u8 (defaultTier s x) ++ u8 s.pln.castNarrow ++ u8 (b2n s.pln.castWindow) ++ zeros 5 }

/-- A cast that the Plinth requests, or takes up `again` after it has waited: one that cannot start logs CAST_FAILED like any other (R82, R85, R530). -/
def deviceCast (m : Moment) (pressure again : Bool) (x : Session) (s : State) : State :=
  let a := castBody pressure m (castRequest s x) s
  if a.pend || a.status = 0 then (if again then a.st else mirror 0x0200 (castRequest s x) [] a.st)
  else
    let s := note 0x0201 1 x.partition x.id [a.status, defaultTier s x] a.st
    rearmCast x.id (modSess x.id (fun y => { y with castSkipped := y.castSkipped || pressure }) s)

/-- A cast that the Plinth requests now. -/
def requestCast (m : Moment) (pressure : Bool) (x : Session) (s : State) : State := deviceCast m pressure false x s

end Sys2Proof.Machine
end

