-- ==== Sys2Proof/Machine/Raises.lean ====
section
/-! DEFINITION. Raising, run-ahead raises, pulls and recovery (R109 to R120, 03; R84, 02). -/

namespace Sys2Proof.Machine

/-! ### Chains that fail with their session's raise (R366) -/

/-- A chain that is FIRING for a session fails at its present work request. -/
def chainFail (id status : Nat) (s : State) : State :=
  match s.net.chains.find? (fun e => e.2.cstate = .firing && e.2.session = id) with
  | none => s
  | some (i, c) => note 0x0A04 1 c.partition id [chainHandle i c, c.next, status] (freeChain i s)

/-! ### Destinations of raised pages -/

/-- Whether a raise moves a page: it is valid and not already in this chip's HBM in the model's format (R109). -/
def raiseMoves (s : State) (e : Pte) : Bool := e.valid && !(e.here s && decide (e.tier ≤ 1) && e.enc = 0)

/-- Keys of the pages that a raise of `x` moves in layer groups `a` to `b - 1`, layer group by layer group (R110). -/
def raiseKeys (s : State) (x : Session) (a b : Nat) : List Nat :=
  let t := (getStore s x.id).pages
  ((List.range (min b t.lgCount)).filter (fun g => decide (a ≤ g))).flatMap (fun g =>
    (raiseBlocks x).filterMap (fun blk =>
      if raiseMoves s (tgetD t.ptes (pteKey g blk) {}) then some (pteKey g blk) else none))

/-- The descriptor that reads a page into its reserved frame. -/
def raiseDesc (s : State) (f : Fop) (x : Session) (key : Nat) (dest : Pte) (cls : Nat) : Desc :=
  let t := (getStore s x.id).pages
  let e := tgetD t.ptes key {}
  { kind := .raisePage, length := encSize t.pageClass e.enc, session := x.id, partition := x.partition, srcTier := e.tier
    dstTier := 1, xcode := if e.enc = 0 then 0 else 3, src := placeWord e, dst := dest.addr
    srcChip := if e.tier = 3 then chip s else e.range % 8, dstChip := chip s, lg := key / 4096, page := key % 4096
    needLg := key / 4096 - f.lead, castGen := tgetD (getStore s x.id).castGens key ((claimOf s f).castGen - 1), cls := cls, paced := cls = 1
    prov := cls = 5, dest }

/-- Reserves a tier-1 frame for each page and forms the descriptors, unless a frame is lacking. -/
def raisePlan (m : Moment) (n : Nat) (x : Session) (col : Nat) (cls : Fop → Nat → Nat) :
    List Nat → Nat → List Desc → State → Except Lack (List Desc × State)
  | [], _, acc, s => .ok (acc, s)
  | key :: l, k, acc, s =>
    let t := (getStore s x.id).pages
    match allocFrame m k { partition := x.partition, tier := 1, pclass := t.pageClass, enc := 0 } col x.id s with
    | .error l => .error l
    | .ok (a, s) =>
      match getFop s n with
      | none => .error none
      | some f =>
        let e : Pte := { pteOf s 1 0 a with shared := false }
        let s := modFop n (fun f => { f with fresh := tset f.fresh key e }) s
        raisePlan m n x col cls l (k + 1) (acc ++ [raiseDesc s f x key e (cls f key)]) s

/-- Class of a definite raise's page: needed before the session leaves RAISING, or paced (R94, R111). -/
def leadClass (f : Fop) (key : Nat) : Nat := if key / 4096 < f.lead then 2 else 1

/-! ### Ends of a raise -/

/-- Publishes the pages that have arrived; the entries that they replace wait for the end (R112, R115). -/
def publishArrived (n : Nat) (s : State) : State :=
  match getFop s n with
  | none => s
  | some f =>
    (f.fresh.filter (fun e => f.arrived.contains e.1)).foldl (fun s e =>
      let was := tgetD (getStore s f.session).pages.ptes e.1 {}
      let s := if f.posted.contains e.1 then s else publishFrame e.2.tier e.2.addr fReserved hEntry f.session s
      let s := modStore f.session (fun t => { t with
        pages := { t.pages with ptes := tset t.pages.ptes e.1 { e.2 with resident := true } }, castGens := tdel t.castGens e.1 }) s
      modFop n (fun f => { f with fresh := tdel f.fresh e.1, arrived := f.arrived.erase e.1, old := f.old ++ [was] }) s) s

/-- A raise ends before its session has left RAISING: the session is parked as it was (R112). -/
def raiseFail (n status : Nat) (s : State) : State :=
  match getFop s n with
  | none => s
  | some f =>
    let id := f.session
    let waiting := ((getSess s id).map (·.waiting)).getD []
    let s := delFop n (dropFresh f fReserved (dropDescs n s))
    let s := modStore id (fun t => { t with image := t.image.map (fun x => { x with waiting }) }) (dropTables id s)
    let s := chainFail id status (dropBrought id (giveBack id (freeSlot id s)))
    endOp f.op status 0 [] s

/-- The tail has completed: the frames of the raised pages' old places are released and the raise ends (R112). -/
def raiseEnd (n : Nat) (s : State) : State :=
  match getFop s n with
  | none => s
  | some f => endFop n (u8 (chip s) ++ u8 0 ++ u16 (f.slot.getD 0) ++ u32 f.pages) (updateCredit f.session (dropOld f s))

/-- The session leaves RAISING and the claim becomes ACTIVE (R64, R76, R82, R111); its credit is brought up to date now (R109, R278), so
that a raise that ends before has no other effect (R112). A session homed on another chip binds its generation here, which must still
be resident (R223). -/
def leaveRaising (n : Nat) (s : State) : State :=
  match getFop s n with
  | none => s
  | some f =>
    let id := f.session
    match getSess s id with
    | none => s
    | some x =>
      if homeOf id ≠ chip s && !genResident s x.tableGen x.partition x.modelSlot then raiseFail n St.genNotResident s
      else
      let s := publishArrived n s
      let s := updateCredit id (claimActive x (f.slot.getD 0) s)
      let due := if x.prior = .decode then max x.deadline s.ct else never
      let s := setState id x.prior s
      let s := modSess id (fun x => { x with deadline := due, turnDeadline := max x.turnDeadline due, raiseCount := x.raiseCount + 1, readyCt := s.ct }) s
      let s := if homeOf id = chip s then s else bindGen x.tableGen 1 s
      let s := modStore id (fun t => { t with pages := { t.pages with imageSegs := [] } }) s
      let s := bump .fdyRaises f.partition 1 (rearmCast id s)
      fopPhase n 4 false (modFop n (fun f => { f with left := true }) s)

/-- What a raise does once some of its pages have arrived. -/
def raiseAdvance (n : Nat) (s : State) : State :=
  match getFop s n with
  | none => s
  | some f =>
    if f.kind ≠ .raise || f.entry.isNone then s
    else if stopping s f.op then raiseFail n St.cancelled s
    else
      let lead := f.fresh.all (fun e => decide (f.lead ≤ e.1 / 4096) || f.arrived.contains e.1)
      let s := if f.left then publishArrived n s
        else if lead && f.bad.isEmpty then leaveRaising n s
        else s
      match getFop s n with
      | some f => if f.left && f.fresh.isEmpty && f.bad.isEmpty then raiseEnd n s else s
      | none => s

/-! ### The cast image on the raising chip (R109) -/

/-- The entry that a raise restores: the image's, overlaid with what the directory is authoritative for (R101, R109). Its fair-share
tags start anew (R281). -/
def restored (x : Session) (e : DirEntry) : Session :=
  { x with
    st := .raising, prior := e.resume, tableGen := e.tableGen, grammarImage := e.grammarImage, armChain := e.armChain
    flags := setFlag x.flags Fl.armed (sflag e.flags Fl.armed), credit := e.credit
    q := { ctCredit := e.ctCast } }

/-- The entry that a slot holds between the claim and the reading of the image. -/
def claimedEntry (e : DirEntry) : Session :=
  { id := e.id, st := .raising, prior := e.resume, partition := e.partition, modelSlot := e.modelSlot, priority := e.priority
    stopReason := e.stopReason, cls := e.cls, flags := e.flags, tableGen := e.tableGen, grammarImage := e.grammarImage
    length := e.length, deadline := e.deadline, credit := e.credit, armChain := e.armChain, q := { ctCredit := e.ctCast } }

/-- A restored entry whose generation the directory has changed since its image was written has its grammar reset (R69, R254). -/
def regrammar (x : Session) (e : DirEntry) (s : State) : State :=
  if x.tableGen = e.tableGen || e.grammarImage = 0xFFFF then s else resetGrammar x.id s

/-- A restored entry takes its slot and its page tables are built; the rest of the needed pages are planned. -/
def raiseRestore (m : Moment) (n : Nat) (s : State) : State :=
  match getFop s n with
  | none => s
  | some f =>
    match f.entry with
    | none => s
    | some x =>
      let id := f.session
      let e := claimOf s f
      let waiting := ((getSess s id).map (·.waiting)).getD []
      let s := regrammar x e (modSess id (fun _ => restored { x with waiting := x.waiting ++ waiting } e) s)
      let s := recomputeResident id s
      match buildTables m id f.partition s with
      | .error l => raiseFail n St.tierFull (starve l s)
      | .ok s =>
        let keys := (raiseKeys s x 0 256).filter (fun k => !thas f.fresh k)
        match raisePlan m n x fReserved leadClass keys 0 [] s with
        | .error l => raiseFail n St.tierFull (starve l s)
        | .ok (ds, s) =>
          let s := modFop n (fun f => { f with total := f.fresh.length + f.pages }) s
          raiseAdvance n (addTodo n ds (fopPhase n 3 true s))

/-- A run-ahead plans its lead pages into provisional frames; one that finds no frame is cancelled (R114, R116). -/
def runAheadPlan (m : Moment) (n : Nat) (x : Session) (s : State) : State :=
  match getFop s n with
  | none => s
  | some f =>
    match raisePlan m n x fProvisional (fun _ _ => 5) (raiseKeys s x 0 f.lead) 0 [] s with
    | .error l => cancelRunAhead n 2 (starve l s)
    | .ok (ds, s) =>
      addTodo n ds (fopPhase n 3 true (modFop n (fun f => { f with total := ds.length }) s))

/-- The store of a session whose image, record frame and journal another chip has sent: what this chip holds of it already stays its own
(R79; log entry 13). -/
def bringStore (id c : Nat) (e : DirEntry) (b : Bytes) (s : State) : State :=
  let img := b.take e.imageBytes
  let rest := b.drop e.imageBytes
  let old := getStore s id
  let pages := imageTables img
  let frame := rest.take 2048
  let fresh : Store := storeOfBytes e.partition (entryOfBytes img).grammarDepth frame (rest.drop 2048) pages
  let t : Store := if rest.isEmpty then { old with partition := e.partition, pages } else fresh
  let here := old.blocks.filter (fun x => !thas old.blockChips x.1)
  let blocks := if rest.isEmpty then old.blocks else withBlocks frame here
  setStore id { t with
    castGen := e.castGen, ckptCut := e.ckptCut, blocks
    blockChips := (blocks.filter (fun x => !(here.any (fun y => y.1 = x.1)))).map (fun x => (x.1, tgetD old.blockChips x.1 c))
    recFrame := if old.recFrame ≠ 0 then old.recFrame else (entryOfBytes img).journalAddr
    recChip := if old.recFrame ≠ 0 then old.recChip else some c
    castGens := (pages.ptes.filter (fun x => x.2.tier = 3)).map (fun x => (x.1, e.castGen - 1)) } s
where
  /-- The block table that a record frame spells, this chip's own blocks kept. -/
  withBlocks (frame : Bytes) (here : Tab Nat) : Tab Nat :=
    (List.range 64).filterMap (fun k =>
      match tget here k with
      | some a => some (k, a)
      | none => if field frame (8 * k) 8 = 0 then none else some (k, field frame (8 * k) 8))

/-- The image has been read and verified: its entry, and on another chip's image its tables and its records, are taken from it. -/
def imageGot (m : Moment) (n : Nat) (b : Bytes) (s : State) : State :=
  match getFop s n with
  | none => s
  | some f =>
    let id := f.session
    let e := claimOf s f
    let s := modFop n (fun f => { f with bytes := f.bytes + e.imageBytes }) s
    let s := match (getStore s id).image with
      | some x => modFop n (fun f => { f with entry := some x }) s
      | none => modFop n (fun f => { f with entry := some (entryOfBytes b) }) (bringStore id (imageChip e) e b s)
    match f.kind, (getFop s n).bind (·.entry) with
    | .raise, some _ => raiseRestore m n s
    | .runAhead, some x => runAheadPlan m n x s
    | _, _ => s

/-- The IMAGE_READ descriptor of a claim. -/
def imageDesc (e : DirEntry) (cls : Nat) : Desc :=
  { kind := .imageRead, length := e.imageBytes, session := e.id, partition := e.partition, srcTier := 1, dstTier := 1
    src := e.imageLoc % 2 ^ 61, srcChip := e.imageLoc / 2 ^ 61, castGen := e.castGen, cls, crc := true }

/-! ### Claims and promotion -/

/-- A claim is made definite in a slot of this chip (R101, R115). -/
def definite (id slot : Nat) (e : DirEntry) (s : State) : DirEntry × State :=
  let e := { e with provisional := false, activeChip := chip s, activeSlot := slot }
  (e, setDir id e s)

/-- A claim holds: the slot is filled for a definite raise, and the image is read (R109, R114). A raise to which a run-ahead was
promoted while its claim was asked makes the claim definite. -/
def claimGot (n : Nat) (e : DirEntry) (s : State) : State :=
  match getFop s n with
  | none => s
  | some f =>
    let (e, s) := match f.kind, f.slot with
      | .raise, some k => if e.provisional then definite f.session k e s else (e, s)
      | _, _ => (e, s)
    let s := setFop n { f with claim := some e } s
    let s := match f.kind, f.slot with
      | .raise, some k => takeSlot k (claimedEntry e) s
      | _, _ => s
    addTodo n [imageDesc e (if f.kind = .raise then 2 else 5)] s

/-- Claims a session of this chip's directory, or asks its home chip to (R101, R109). -/
def claimStart (n : Nat) (s : State) : State :=
  match getFop s n with
  | none => s
  | some f =>
    match getDir s f.session with
    | some e =>
      let e := { e with dstate := .claimed, provisional := f.kind = .runAhead, activeChip := chip s, activeSlot := f.slot.getD 0 }
      claimGot n e (setDir f.session e s)
    | none =>
      swlAsk (homeOf f.session) (.claim n) 1 f.session [b2n (f.kind = .runAhead), f.slot.getD 0] []
        (fopPhase n 1 true s)

/-- Starts a definite raise, once a slot is known to be free. -/
def raiseStart (m : Moment) (r : Req) (id part : Nat) (s : State) : Reply :=
  match pickSlot m 0 s with
  | none => .err s St.busyRetry
  | some slot => beginFop r { kind := .raise, session := id, partition := part, slot := some slot } claimStart s

/-- Starts a run-ahead (R114). -/
def runAheadStart (r : Req) (id part : Nat) (s : State) : Reply :=
  beginFop r { kind := .runAhead, session := id, partition := part } claimStart s

/-- Promotes a run-ahead into a definite raise in a slot (R115, R306). One whose claim another chip has yet to answer takes the slot with
the answer. -/
def promote (m : Moment) (n slot : Nat) (s : State) : State :=
  match getFop s n with
  | none => s
  | some f =>
    if f.claim.isNone then setFop n { f with kind := .raise, slot := some slot } s
    else
    let id := f.session
    let (e, s) := definite id slot (claimOf s f) s
    let s := takeSlot slot (claimedEntry e) s
    let s := f.fresh.foldl (fun s e => publishFrame e.2.tier e.2.addr fProvisional hEntry id s) s
    let s := setFop n { f with kind := .raise, slot := some slot, claim := some e, posted := tkeys f.fresh } s
    let s := { s with fdy := { s.fdy with store := s.fdy.store.map (fun d =>
      if d.2.fop = n then (d.1, { d.2 with cls := 2, prov := false }) else d) } }
    if f.entry.isSome then raiseRestore m n s else s

/-- Queues an armed raise or a promotion that finds no free slot; whether there was room (R84). -/
def queueRaise (w : RaiseWait) (s : State) : Bool × State :=
  if s.pln.raiseWait.length < 4096 then (true, { s with pln := { s.pln with raiseWait := s.pln.raiseWait ++ [w] } })
  else
    let due := match s.pln.rwFullCt with | none => true | some c => decide (c + 1000000 ≤ s.ct)
    let n := s.pln.rwRefused + 1
    if due then (false, note 0x0104 1 0xFF w.session [n] { s with pln := { s.pln with rwFullCt := some s.ct, rwRefused := 0 } })
    else (false, { s with pln := { s.pln with rwRefused := n } })

/-! ### Recovery (R117 to R120) -/

/-- The steps of a class's recovery order, up to END. -/
def recoverySteps (s : State) (cls : Nat) : List Nat :=
  let r := (getClass s cls).recovery
  ([bits r 1 0, bits r 3 2, bits r 5 4]).takeWhile (· ≠ 0)

/-- `ckpt_cut` of a session: its directory entry's, a claim's, or what this chip keeps of an entry that lies at its home. -/
def cutOf (s : State) (id : Nat) : Nat :=
  match getDir s id, s.fdy.ops.findSome? (fun e => if e.2.session = id then e.2.claim else none) with
  | some e, _ => e.ckptCut
  | none, some e => e.ckptCut
  | none, none => (getStore s id).ckptCut

/-- The committed cut that holds a session at its current length, on this chip (R118). -/
def cutHolding (s : State) (id length : Nat) : Option (Nat × Captured) :=
  let cut := cutOf s id
  if cut = 0 then none
  else s.mld.groups.findSome? (fun e =>
    if e.2.lastId = cut && (ctrlOn s e.2.qp).isSome then (e.2.last.find? (fun c => c.session = id && c.length = length)).map (fun c => (e.1, c)) else none)

/-- Whether every shared page that a session maps can be reached (R118). -/
def sharedReachable (s : State) (id : Nat) : Bool :=
  (getStore s id).pages.ptes.all (fun e =>
    !(e.2.valid && e.2.shared) || e.2.here s || (decide (e.2.tier ≤ 2) && linkUp s (e.2.range % 8)))

/-- Whether a step's source exists for a page of a session. -/
def stepExists (s : State) (x : Session) (key step : Nat) : Bool :=
  let e := tgetD (getStore s x.id).pages.ptes key {}
  match step with
  | 1 => e.tier = 3 && (match getRange s x.partition e.range with
      | some r => (getRange s x.partition r.replica).isSome
      | none => false)
  | 2 => (cutHolding s x.id x.length).isSome
  | _ => sharedReachable s x.id

/-- The recovery order is exhausted: the session is FAULTED (R120). -/
def recoveryFailed (id part tried last : Nat) (s : State) : State :=
  faultSession id St.recoveryExhausted (note 0x0203 2 part id [tried, last] s)

/-- Starts the shard read of a CHECKPOINT step (R118, R412, R422). -/
def readShard (n : Nat) (g : Nat) (c : Captured) (s : State) : State :=
  match tget s.mld.groups g with
  | none => s
  | some k =>
    match ctrlOn s k.qp with
    | some (d, _) => nvmeIssue d k.nsid 0 c.place.1 c.place.2.1 [] { controller := d, owner := .recover n } s
    | none => s

/-- Enters the next step of a failed page's recovery, or gives the session up (R118 to R120). -/
def recoverNext (n key : Nat) (s : State) : State :=
  match getFop s n with
  | none => s
  | some f =>
    match getSess s f.session with
    | none => s
    | some x =>
      let tried := tgetD f.tried key []
      match (recoverySteps s x.cls).find? (fun k => !tried.contains k && stepExists s x key k) with
      | none => recoveryFailed x.id x.partition (tried.foldl (fun a k => a * 4 + k) 0) f.lastStatus s
      | some k =>
        let s := modFop n (fun f => { f with tried := tset f.tried key (tried ++ [k]), bad := (f.bad.erase key) ++ [key] }) s
        match k with
        | 1 =>
          let e := tgetD (getStore s x.id).pages.ptes key {}
          let rep := ((getRange s x.partition e.range).map (·.replica)).getD 0
          let d := raiseDesc s f x key (tgetD f.fresh key {}) 2
          addTodo n [{ d with src := rep * 2 ^ 48 + e.addr }] s
        | 2 =>
          match cutHolding s x.id x.length with
          | some (g, c) => readShard n g c s
          | none => s
        | _ =>
          let a := 256 * (key % 4096)
          let b := min x.length (a + 256)
          modSess x.id (fun x => { x with rebuild := some (match x.rebuild with
            | some (c, d) => (min a c, max b d)
            | none => (a, b)) }) s

/-- A pull of a page has failed (R117). -/
def pullFailed (n key status : Nat) (s : State) : State :=
  recoverNext n key (modFop n (fun f => { f with lastStatus := status }) s)

/-- A successful recovery: its step and its pages, none for a cast image (R120). -/
def recovered (n step pages : Nat) (s : State) : State :=
  match getFop s n with
  | none => s
  | some f => bump .fdyRecoveries f.partition 1 (note 0x0202 1 f.partition f.session [step, pages] s)

/-- A page has been recovered by a step (R120). -/
def pageRecovered (n key step : Nat) (s : State) : State :=
    recovered n step 1 (modFop n (fun f => { f with bad := f.bad.erase key, arrived := f.arrived ++ [key], pages := f.pages + 1 }) s)

/-- The cast image cannot be read: a cut that holds the session gives it back, or the session is FAULTED (R109, R118). -/
def imageLost (n status : Nat) (s : State) : State :=
  match getFop s n with
  | none => s
  | some f =>
    if f.kind = .runAhead then cancelRunAhead n 0 s
    else
      match getSess s f.session with
      | none => s
      | some x =>
        match (recoverySteps s x.cls).contains 2, cutHolding s x.id x.length with
        | true, some (g, c) =>
          if (f.tried.any (fun t => t.1 = 0xFFFFFFFF)) then recoveryFailed x.id x.partition 2 status s
          else readShard n g c (modFop n (fun f => { f with tried := tset f.tried 0xFFFFFFFF [2], lastStatus := status }) s)
        | _, _ => recoveryFailed x.id x.partition 0 status s

/-! ### Pulls for a step (R135) -/

/-- Pages of an active session that a step would read and that are not resident, of the operation's blocks. -/
def missingPages (s : State) (x : Session) (blocks : List Nat) : List Nat :=
  let t := (getStore s x.id).pages
  (List.range t.lgCount).flatMap (fun g => blocks.filterMap (fun b =>
    let e := tgetD t.ptes (pteKey g b) {}
    if e.valid && !e.resident then some (pteKey g b) else none))

/-- Starts the pull of an active session's pages into new frames of this chip's HBM, unless a frame is lacking (R135, R137). -/
def startPull (m : Moment) (x : Session) (keys : List Nat) (s : State) : Except Lack State :=
  let (n, s) := newFop { kind := .pull, session := x.id, partition := x.partition, ctStart := s.ct, total := keys.length
                         lead := s.fdy.raiseLead, pullTo := s.fdy.pullTo, phase := 1, entry := some x } s
  match raisePlan m n x fReserved (fun _ _ => 2) keys 0 [] s with
  | .error l => .error l
  | .ok (ds, s) => .ok (addTodo n ds s)

/-- What a pull does once pages have arrived: its old frames are released as soon as every page is in. -/
def pullAdvance (n : Nat) (s : State) : State :=
  let s := publishArrived n s
  match getFop s n with
  | some f => if f.fresh.isEmpty && f.bad.isEmpty then delFop n (dropOld f s) else s
  | none => s

/-- What an operation does once a page of it has arrived. -/
def pagesAdvance (n : Nat) (s : State) : State :=
  match getFop s n with
  | some f => match f.kind with
    | .raise => raiseAdvance n s
    | .pull => pullAdvance n s
    | _ => s
  | none => s

/-! ### Pages of a page list (R362) -/

/-- A page that a region's page list names has been read into its frame: the entry at `castGen` names the frame. The KV format
of a narrowed page is not the list's to say, and its widened bytes are a string that the model does not hold (log entry 27). -/
def listPageDone (d : Desc) (src : Bytes) (s : State) : State :=
  let was := Pte.ofNat (field (devRead s 1 d.castGen 8) 0 8)
  let n := s.free
  let (_, s) := fresh s
  let b := if d.xcode = 3 then Config.remoteBytes n [6, d.session, d.dst] (match tget s.frames.frames (frameKey 1 d.dst) with
    | some f => frameSize f.pool
    | none => d.length) else src
  let s := publishFrame 1 d.dst fReserved hEntry 0 (devWrite 1 d.dst b s)
  delFop d.fop (devWrite 1 d.castGen (u64 { d.dest with resident := true }.toNat) (dropPte was 0 s))

/-- It cannot be read: its frame is given back. -/
def listPageFail (d : Desc) (s : State) : State := delFop d.fop (unreserveFrame 1 d.dst fReserved 0 s)

/-- A page of a raise, a run-ahead or a pull has been read: it is widened where it was narrowed and placed (R107 to R109). -/
def raisePageDone (d : Desc) (src : Bytes) (s : State) : State :=
  match getFop s d.fop with
  | none => s
  | some f =>
    let cls := (getStore s d.session).pages.pageClass
    let x := f.entry.getD { id := d.session }
    let kv := (getModel s x.modelSlot).hdr
    let enc := (tgetD (getStore s d.session).pages.ptes (pteKey d.lg d.page) {}).enc
    let n := 2 ^ cls * 8 / max 1 (if kv.kvFormat = 8 || kv.kvFormat = 9 then 16 else 8)
    let b := if d.xcode = 3 then widenPage kv.kvFormat enc n src else src
    let key := pteKey d.lg d.page
    let s := devWrite 1 d.dst b s
    let s := modFop d.fop (fun f => { f with bytes := f.bytes + d.length }) s
    if f.bad.contains key then pagesAdvance d.fop (pageRecovered d.fop key 1 s)
    else
      let s := modFop d.fop (fun f => { f with arrived := f.arrived ++ [key], pages := f.pages + 1 }) s
      pagesAdvance d.fop (showFop d.fop s)

end Sys2Proof.Machine
end

