-- ==== Sys2Proof/Machine/Migrate.lean ====
section
/-! DEFINITION. Migration over Swilan and export over Ethernet (R121, R122, 03; R369, 12). -/

namespace Sys2Proof.Machine

/-- A migration or an export fails: the session returns to its state on this chip (R64, R121). -/
def migrateFail (n status detail : Nat) (s : State) : State :=
  match getFop s n with
  | none => s
  | some f =>
    let s := endOp f.op status detail [] (delFop n (dropMsgs (.export_ n) (dropDescs n s)))
    match getSess s f.session with
    | none => s
    | some x =>
      note 0x0205 1 f.partition f.session [status, if f.kind = .exportEth then f.conn else f.chip] (setState f.session x.prior s)

/-- Pages that leave with a session: its own, on whichever chip of the board, but for those in a composed range. -/
def leavingPages (s : State) (id : Nat) : Tab Pte :=
  (getStore s id).pages.ptes.filter (fun e => e.2.valid && decide (e.2.tier ≤ 2) && !e.2.shared)

/-- Pages that a migration moves to chip `c`: those that leave, unless they lie there, and the shared ones, which the target may lack
(R121). -/
def movingPages (s : State) (id c : Nat) : Tab Pte :=
  (getStore s id).pages.ptes.filter (fun e => e.2.valid && decide (e.2.tier ≤ 2) && (e.2.shared || e.2.range % 8 ≠ c))

/-- Withholds grants of a session that leaves (R64). -/
def leaveStart (x : Session) (s : State) : State :=
  modSess x.id (fun y => { y with prior := x.st, autoCastCt := 0 }) (setState x.id .migratingOut (leaveQueue x.id s))

/-- Swilan migration: a MIGRATE_PAGE descriptor for each page that moves (R121). -/
def migrateStart (x : Session) (n : Nat) (s : State) : State :=
  let s := leaveStart x s
  match getFop s n with
  | none => s
  | some f =>
    let cls := (getStore s x.id).pages.pageClass
    let ds := (movingPages s x.id f.chip).map (fun e =>
      ({ kind := .migratePage, length := encSize cls e.2.enc, session := x.id, partition := x.partition, srcTier := e.2.tier
         dstTier := 1, src := e.2.addr, srcChip := e.2.range % 8, dstChip := f.chip, lg := e.1 / 4096, page := e.1 % 4096
         cls := 3 } : Desc))
    let s := modFop n (fun f => { f with total := ds.length }) s
    if ds.isEmpty then s else addTodo n ds s

/-- The confirmation is asked once every page has moved: the entry and the directory go to the target (R121). -/
def migrateAsk (n : Nat) (s : State) : State :=
  match getFop s n with
  | none => s
  | some f =>
    match getSess s f.session with
    | none => s
    | some x =>
      let s := fopPhase n 3 false s
      swlAsk f.chip (.migrate n) 5 x.id [x.partition, x.modelSlot, x.tableGen]
        (entryBytes x ++ recBytes (getStore s x.id) ++ pdirHeader s x.id x.modelSlot (getStore s x.id).pages.ptes
          ++ (getModel s x.modelSlot).hdr.digest ++ ((getStore s x.id).path.flatMap (fun i => (getNode s x.partition i).key))) s

/-- The message that commits an export (R369 step 4). -/
def exportCommitSend (n : Nat) (s : State) : State :=
  match getFop s n with
  | none => s
  | some f =>
    match qpOf s f.conn with
    | none => migrateFail n St.linkDown 0 s
    | some (i, _) =>
      let (key, s) := fresh s
      match gxWrite i { owner := .export_ n, lastPsn := 0 } key 0 []
          { payload := u64 f.session, trigger := true, tag := 0xFFFFFFF0 } (fopPhase n 3 false s) with
      | .error st => migrateFail n st 0 s
      | .ok s => s

/-- The pages of an export, a descriptor for each private page in its own encoding (R93, R369). -/
def exportStart (x : Session) (n : Nat) (s : State) : State :=
  let s := leaveStart x s
  match getFop s n with
  | none => s
  | some f =>
    let t := getStore s x.id
    let ptes := t.pages.ptes
    let ds := (leavingPages s x.id).map (fun e =>
      ({ kind := .migratePage, session := x.id, partition := x.partition, srcTier := e.2.tier, dstTier := 3, src := e.2.addr
         srcChip := e.2.range % 8, dstChip := chip s, lg := e.1 / 4096, page := e.1 % 4096, cls := 3
         length := encSize t.pages.pageClass e.2.enc } : Desc))
    let s := modFop n (fun f => { f with total := ds.length }) s
    match qpOf s f.conn with
    | none => migrateFail n St.linkDown 0 s
    | some (i, _) =>
      let (key, s) := fresh s
      let o : TxMsg := { owner := .export_ n, lastPsn := 0 }
      match gxWrite i o key 0 (imageBytes s { x with st := x.prior } ptes) {} s with
      | .error st => migrateFail n st 0 s
      | .ok s =>
        match gxWrite i o key 0 (t.journal.flatMap u32 ++ recBytes t) {} s with
        | .error st => migrateFail n st 0 s
        | .ok s => if ds.isEmpty then exportCommitSend n s else addTodo n ds s

/-- A layer group of an export whose last page has been read goes out as one message (R369). -/
def exportGroup (n lg : Nat) (f : Fop) (s : State) : State :=
  let more := (descsOf s n).any (fun k => (tget s.fdy.store k).any (fun d => d.lg = lg)) || f.todo.any (fun d => d.lg = lg)
  if more then s
  else
    match qpOf s f.conn with
    | none => migrateFail n St.linkDown 0 s
    | some (i, _) =>
      let (mine, rest) := f.bufs.partition (fun e => e.1 / 4096 = lg)
      let (key, s) := fresh (setFop n { f with bufs := rest } s)
      match gxWrite i { owner := .export_ n, lastPsn := 0 } key 0 (mine.flatMap (·.2)) {} s with
      | .error st => migrateFail n st 0 s
      | .ok s => s

/-- A page has left; an export's bytes wait for their layer group's message. -/
def migratePageDone (d : Desc) (b : Bytes) (s : State) : State :=
  let s := showFop d.fop (modFop d.fop (fun f => { f with
    pages := f.pages + 1, bytes := f.bytes + d.length
    bufs := if f.kind = .exportEth then tset f.bufs (pteKey d.lg d.page) b else f.bufs }) s)
  match getFop s d.fop with
  | none => s
  | some f =>
    let s := if f.kind = .exportEth then exportGroup d.fop d.lg f s else s
    match getFop s d.fop with
    | none => s
    | some f =>
      if (descsOf s d.fop).isEmpty && f.todo.isEmpty then
        (if f.kind = .exportEth then exportCommitSend d.fop s else migrateAsk d.fop s)
      else s

/-- What a session that has left this chip releases: slot, frames, tables, and its journal too when `all` (R121, R122). -/
def leaveChip (x : Session) (all : Bool) (s : State) : State :=
  let id := x.id
  let s := creditOut x.cls x.credit id (bindGen x.tableGen (-1) s)
  let s := dropPages id (dropTables id (freeSlot id s))
  if all then
    let s := dropJournal id s
    { s with pln := { s.pln with store := tdel s.pln.store id } }
  else s

/-- The source's side of a confirmation (R121, R122). -/
def migrateDone (n slot : Nat) (s : State) : State :=
  match getFop s n with
  | none => s
  | some f =>
    match getSess s f.session with
    | none => s
    | some x =>
      let eth := f.kind = .exportEth
      let s := modDirAny x.id (fun e =>
        if eth then { e with dstate := .exported, exportPeer := f.conn, activeChip := 0, activeSlot := 0 }
        else { e with dstate := .active, activeChip := f.chip, activeSlot := slot }) s
      let s := leaveChip x eth (dropMsgs (.export_ n) (updateCredit x.id s))
      endFop n (u32 f.pages) s
where
  /-- Writes the entry here, or at the session's home chip. -/
  modDirAny (id : Nat) (g : DirEntry → DirEntry) (s : State) : State := setDir id (g ((getDir s id).getD { id })) s

/-! ### FDY_MIGRATE -/

def opFdyMigrate : OpInfo := { opcode := 0x0202, rsvd := [(0x0A, 2)] }

/-- Whether a session is armed or a chain is held for it (R83, R366). -/
def armed (s : State) (x : Session) : Bool := sflag x.flags Fl.armed || (heldChain s x.id).isSome

/-- What the connection of an export must be (R369). -/
def exportConn (r : Req) (s : State) (p h : Nat) : Except Nat Unit :=
  match qpFor r s h with
  | none => .error St.connGone
  | some (_, q) =>
    if q.partition ≠ p then .error St.connGone
    else if !q.gx || q.keyId = ones32 then .error St.notPermitted
    else if q.state ≠ .rts then .error St.linkDown
    else .ok ()

/-- FDY_MIGRATE (R121, R122). -/
def bodyFdyMigrate (_ : Moment) (r : Req) (s : State) : Reply :=
  let kind := r.f 8 1
  let c := r.f 9 1
  if 1 < kind || (kind = 0 && (7 < c || c = chip s)) then .err s St.badField
  else
    onSession r s fun id h =>
      match h with
      | .parked _ => .err s stWrong
      | .active x =>
        if !x.waiting.isEmpty then quiesce r x s
        else if !([SState.admitted, .prefill, .decode, .toolwait, .stopped].contains x.st) then .err s stWrong
        else if (lockedPair s x.partition).isSome then .err s St.twinPinned
        else if armed s x then .err s St.sessionArmed
        else
          atRest r x s (
            if 4096 ≤ moveOps s then .err s St.busyRetry
            else if kind = 0 then
              if !linkUp s c then .err s St.linkDown
              else beginFop r { kind := .migrate, session := id, partition := x.partition, chip := c
                                total := (movingPages s id c).length }
                (fun n s => let s := migrateStart x n s; if (movingPages s id c).isEmpty then migrateAsk n s else s) s
            else
              match exportConn r s x.partition (r.f 0x0C 4) with
              | .error st => .err s st
              | .ok _ =>
                beginFop r { kind := .exportEth, session := id, partition := x.partition, conn := r.f 0x0C 4
                             total := (leavingPages s id).length } (exportStart x) s)

/-! ### Sessions that arrive -/

/-- What a target lacks for a session, as MIGRATE_REFUSED's `detail`: 1 a slot, 2 the partition, 3 the model image, 4 the
generation; 0 nothing (R121, R125). -/
def lacks (s : State) (x : Session) (digest : Option Bytes) : Nat :=
  if slotsFree s ≤ (heldSlots s).length then 1
  else if (getPart s x.partition).pstate ≠ .active then 2
  else
    let k := getModel s x.modelSlot
    if k.mstate ≠ .ready || k.partition ≠ x.partition || (match digest with | some d => k.hdr.digest ≠ d | none => false) then 3
    else if !genResident s x.tableGen x.partition x.modelSlot then 4
    else 0

/-- Places the pages of an arriving session: this chip's own node where it holds the same page, else a page of its own. -/
def arrivePages (m : Moment) (x : Session) (pages : Tab Bytes) : Tab Pte → Nat → State → Except Lack State
  | [], _, s => .ok s
  | (key, e) :: l, k, s =>
    let cls := (getStore s x.id).pages.pageClass
    match if (getPte s x.id (key / 4096) (key % 4096)).valid then none else tget pages key with
    | none => arrivePages m x pages l k s
    | some b =>
      match grabFrame m k { partition := x.partition, tier := 1, pclass := cls, enc := e.enc } hEntry x.id s with
      | .error l => .error l
      | .ok (a, s) =>
        arrivePages m x pages l (k + 1) (setPte x.id (key / 4096) (key % 4096) (pteOf s 1 e.enc a) (devWrite 1 a b s))

/-- Maps the shared pages of an arriving session that this chip's own tree holds under the same keys (R121). It fails when a reference
needs a copy that gets no frame. -/
def arriveShared (m : Moment) (x : Session) (keys : List Bytes) (s : State) : Except Lack State :=
  match ((keys.map (findKey s x.partition)).takeWhile (·.isSome)).getLast?.bind id with
  | none => .ok s
  | some i => resolvePrefix m x.id x.partition i s

/-- A session's storage on its arrival from chip `from_`, without frames of its own: its pages in composed ranges and those that this
chip already holds stay where they are, and so does its journal (R79, R121). -/
def arriveStore (t : Store) (from_ : Nat) (s : State) : Store :=
  let away (c : Nat) : Option Nat := if c = chip s then none else some c
  { t with pages := { t.pages with ptes := t.pages.ptes.filter (fun e => (e.2.valid && e.2.tier = 3) || (e.2.here s && !e.2.shared))
                                   dirFrames := [], segs := [] }
           blockChips := t.blocks.filterMap (fun b => (away (tgetD t.blockChips b.1 from_)).map (b.1, ·))
           recChip := away (t.recChip.getD from_)
           image := none, imageAddr := 0, imageSize := 0, path := [] }

/-- Releases what an arriving session had been given. -/
def undoArrival (id : Nat) (s : State) : State :=
  let s := freeSlot id (dropPages id (dropTables id s))
  { s with pln := { s.pln with store := tdel s.pln.store id } }

/-- An arriving session's slot, storage, tables and pages, unless a frame is lacking. -/
def arrive (m : Moment) (st : SState) (x : Session) (t : Store) (from_ : Nat) (keys : List Bytes) (pages : Tab Bytes) (s : State) :
    Except Lack State :=
  match pickSlot m 0 s with
  | none => .error none
  | some slot =>
    let y := { x with st, prior := x.st, inflight := none, waiting := [], q := { ctCredit := x.q.ctCredit } }
    let s := setStore x.id (arriveStore t from_ s) (takeSlot slot y s)
    match (arriveShared m y keys s).bind (arrivePages m y pages t.pages.ptes 1) with
    | .error l => .error l
    | .ok s => buildTables m x.id x.partition s

/-- MIGRATE_ARRIVE: an inbound Swilan migration is placed in MIGRATING_IN and confirmed, or refused (R64, R121). It is bound to its
generation from now on, so that a retirement waits for it (R223; DESIGN CHOICE, log entry 60). -/
def migrateArrive (m : Moment) (link tag : Nat) (x : MigrateIn) (s : State) : State :=
  let e := x.entry
  let refuse (why : Nat) (s : State) : State := sendSwl (.swilan link 1 5 tag [St.migrateRefused, why] []) s
  let why := lacks s e (some x.modelDigest)
  if s.bench.devState = .frozen then sendSwl (.swilan link 1 5 tag [fatalStatus s, 0] []) s
  else if s.err.shutdown.isSome then sendSwl (.swilan link 1 5 tag [St.busyRetry, 0] []) s
  else if (getSess s e.id).isSome then refuse 1 s
  else if why ≠ 0 then refuse why s
  else
    match arrive m .migratingIn e x.store (getLink s link).peerChip x.keys x.pages s with
    | .error l => refuse 1 (starve l s)
    | .ok s1 =>
      let (n, s1) := newFop { kind := .migrate, session := e.id, partition := e.partition, ctStart := s.ct, inbound := true, tag
                              chip := (getLink s link).peerChip, slot := slotOf s1 e.id, phase := 3 } (bindGen e.tableGen 1 s1)
      sendSwl (.swilan link 1 5 tag [0, n, (slotOf s1 e.id).getD 0] []) s1

/-- An inbound migration completes: the session has its carried state (R64, R76, R82, R306). -/
def arrivalDone (n : Nat) (s : State) : State :=
  match getFop s n with
  | none => s
  | some f =>
    match getSess s f.session with
    | none => delFop n s
    | some x =>
      let id := x.id
      let due := if x.prior = .decode then max x.deadline s.ct else x.deadline
      let s := creditIn x.cls x.credit id (setState id x.prior s)
      let s := modSess id (fun x => { x with deadline := due, readyCt := s.ct }) s
      let s := modDir id (fun e => { e with dstate := .active, activeChip := chip s, activeSlot := f.slot.getD 0 }) s
      delFop n (rearmCast id (updateCredit id s))

/-- An inbound migration fails: what it was given is released (R64). -/
def arrivalFailed (n : Nat) (s : State) : State :=
  match getFop s n with
  | some f =>
    let s := match getSess s f.session with | some x => bindGen x.tableGen (-1) s | none => s
    delFop n (undoArrival f.session s)
  | none => s

/-- What follows for a session that has left: commands that wait for it go after it (R66, R387). -/
def forwardWaiting (c : Nat) (l : List Req) (s : State) : State := l.foldl (fun s r => answer r (forwardTo c r s)) s

/-- MIGRATE_CONFIRM: the target's answer at the source, or the source's at the target (R121). -/
def migrateConfirm (fop : Nat) (ok : Bool) (slot status : Nat) (s : State) : State :=
  match getFop s fop with
  | none => s
  | some f =>
    let waiting := ((getSess s f.session).map (·.waiting)).getD []
    if f.inbound then (if ok then arrivalDone fop s else arrivalFailed fop s)
    else if f.kind = .migrate || f.kind = .exportEth then
      if !ok then migrateFail fop (if status = 0 then St.migrateRefused else status) slot s
      else if f.kind = .migrate then forwardWaiting f.chip waiting (migrateDone fop slot s)
      else waiting.foldl (fun s r => answer r (.err s stGone 1)) (migrateDone fop slot s)
    else s

/-! ### Imports and exports -/

/-- Why an import is refused (R122, R369); 0 when it is not. -/
def importRefused (s : State) (x : ExportIn) : Nat :=
  let id := x.entry.id
  if !x.crcOk then St.rangeGone
  else if s.bench.devState = .frozen then fatalStatus s
  else if (getSess s id).isSome || (importAt s id).isSome || (dirAt s id).isSome || x.elsewhere then St.importCollision
  else if 65536 ≤ s.fdy.imports.length then St.importFull
  else if lacks s x.entry (some x.modelDigest) ≠ 0 then St.migrateRefused
  else 0

/-- Takes the journal blocks and the record frame of an arriving session. -/
def arriveJournal (m : Moment) (x : Session) (s : State) : Except Lack State :=
  let t := getStore s x.id
  modStore x.id (fun t => { t with blocks := [] }) s |> fun s =>
    match growJournal m x.id x.partition t.journal.length s with
    | .error l => .error l
    | .ok s =>
      match grabTable m 0 x.partition x.id s with
      | .error l => .error l
      | .ok (a, s) =>
        .ok (modSess x.id (fun x => { x with journalAddr := a }) (modStore x.id (fun t => { t with recFrame := a }) s))

/-- EXPORT_COMMIT: the import is checked, posted and confirmed by the seal's acknowledgement, or refused (R122, R369). -/
def exportCommit (m : Moment) (x : ExportIn) (s : State) : State :=
  let e := x.entry
  let ack (nak status : Nat) (s : State) : State := emitPkt { qp := x.qp, opcode := 0xE2, nak, status } s
  let why := importRefused s x
  if why ≠ 0 then ack 0x12 why s
  else
    match (arrive m e.st e { x.store with blocks := [], blockChips := [], recFrame := 0, recChip := none } (chip s) [] x.pages s).bind (arriveJournal m e) with
    | .error l => ack 0x12 St.tierFull (starve l s)
    | .ok s1 =>
      let id := e.id
      let d : DirEntry := { id, dstate := .active, partition := e.partition, modelSlot := e.modelSlot, cls := e.cls
                            flags := e.flags, tableGen := e.tableGen, length := e.length, exportPeer := x.peer
                            activeChip := chip s1, activeSlot := (slotOf s1 id).getD 0 }
      let k := (freeFrom (fun i => thas s1.fdy.imports i) 65536 (s1.fdy.imports.length + 1) 0).getD 0
      let s1 := { s1 with fdy := { s1.fdy with imports := tset s1.fdy.imports k d } }
      let s1 := creditIn e.cls e.credit id (bindGen e.tableGen 1 s1)
      ack 0 0 (rearmCast id (updateCredit id (modSess id (fun y => { y with
        deadline := if e.st = .decode then max e.deadline s.ct else e.deadline }) s1)))

end Sys2Proof.Machine
end

