-- ==== Sys2Proof/Machine/Engines.lean ====
section
/-! DEFINITION. The move engines: issue, completion and failure of descriptors, and the Foundry's commands (R93 to R101, R113 to
R117, R127, 03). -/

namespace Sys2Proof.Machine

/-! ### Which descriptor comes next (R94, R96) -/

/-- Whether the tiles have started a layer group of a session's step, or no step will pace the tail (R111; log entry 22). -/
def paceOpen (s : State) (d : Desc) : Bool :=
  match getSess s d.session with
  | none => true
  | some x =>
    !(x.st = .decode || x.st = .prefill) || !x.waiting.isEmpty ||
      (match x.inflight with
      | none => false
      | some f =>
        match tget s.tile.invs f.inv with
        | none => true
        | some v => decide (d.needLg < v.lg) || (v.lg = d.needLg && v.running.isSome))

/-- Power groups that a descriptor touches on this chip. -/
def descGroups (s : State) (d : Desc) : List Nat :=
  (if d.srcTier ≤ 2 && d.srcChip = chip s then [addrGroup d.srcTier d.src] else [])
    ++ (if d.dstTier ≤ 2 && d.dstChip = chip s then [addrGroup d.dstTier d.dst] else [])

/-- Whether a descriptor may be issued now: FENCE, PACED, its memories' power, and no map swap that holds it (R96, R374, R467). -/
def mayIssue (s : State) (n : Nat) (d : Desc) : Bool :=
  d.engine.isNone && (!d.fence || (descsOf s d.fop).all (fun k => decide (n ≤ k))) && (!d.paced || paceOpen s d)
    && (descGroups s d).all (groupOpen s) && !((d.srcTier = 3 || d.dstTier = 3) && mapHeld s d.partition)

/-- Order within a class and a partition: need for the tail, deadline for a lead, else the order of the store. -/
def descKey (s : State) (d : Desc) : Nat :=
  if d.cls = 1 then d.needLg else if d.cls = 2 then ((getSess s d.session).map (·.deadline)).getD never else 0

/-- The descriptor that an engine takes: the first class with work, or one of classes 3 to 6 when it is their eighth (R94). -/
def nextDesc (s : State) : Option (Nat × Desc) :=
  let l := s.fdy.store.filter (fun e => mayIssue s e.1 e.2)
  let low := l.filter (fun e => decide (3 ≤ e.2.cls))
  let l := if 7 ≤ s.fdy.sinceLow && !low.isEmpty then low else l
  match (l.map (fun e => e.2.cls)).min? with
  | none => none
  | some c =>
    let l := l.filter (fun e => e.2.cls = c)
    let last := tgetD s.fdy.lastPart c 15
    let p := ((List.range 16).map (fun i => (last + 1 + i) % 16)).find? (fun p => l.any (fun e => e.2.partition = p))
    let l := l.filter (fun e => some e.2.partition = p)
    l.foldl (fun (b : Option (Nat × Desc)) e =>
      match b with
      | none => some e
      | some x => if descKey s e.2 < descKey s x.2 then some e else b) none

/-! ### What a descriptor asks of others when it is issued -/

/-- The bytes that a descriptor writes to a composed range: a page is sealed under the storage key (R105). -/
def sealedPage (s : State) (d : Desc) (b : Bytes) : Bytes :=
  match storageKey s d.partition with
  | none => b
  | some k =>
    let (c, t) := Config.gcmSeal k (castIv d.session d.castGen d.lg d.page) [] b
    c ++ t

/-- Whether a descriptor's source is neither in this chip's memory nor come from another chip or a range. -/
def awaits (s : State) (d : Desc) : Bool := d.data.isNone && (d.srcTier = 3 || d.srcChip ≠ chip s)

/-- Asks a composed range or another chip for a descriptor's source; a failure that is known at once. -/
def issueRead (n : Nat) (d : Desc) (s : State) : Except Nat State :=
  if d.srcTier = 3 then
    rangeRead d.partition (d.src / 2 ^ 48) (d.src % 2 ^ 48) (d.length + if d.kind = .copy || d.session = 0 then 0 else 16) (.pull n) s
  else if d.srcChip ≠ chip s then
    (if linkUp s d.srcChip then .ok (sendSwl (.swilan (linkTo s d.srcChip) 0 7 n [d.srcTier, d.src, d.length] []) s)
    else .error St.linkDown)
  else .ok s

/-- Bytes that a COPY of `n` source bytes writes under an XCODE (R96, R107): 25 or 17 for each 32 of them, and widened as FP6. -/
def copySize (xcode n : Nat) : Nat :=
  match xcode with
  | 0 => n
  | 1 => ceilDiv (25 * n) 32
  | 2 => ceilDiv (17 * n) 32
  | _ => 32 * n / 25

/-- A COPY's bytes as it writes them. Those that XCODE gives are a free value: a COPY has no session, and so no KV format (log entry
35). -/
def copyBytes (d : Desc) (b : Bytes) (s : State) : Bytes × State :=
  if d.xcode = 0 then (b, s)
  else
    let (k, s) := fresh s
    (Config.remoteBytes k [7, d.xcode, d.src, d.dst] (copySize d.xcode d.length), s)

/-- Whether a descriptor's bytes leave this chip: to another chip's memory or to a composed range. -/
def leaves (s : State) (d : Desc) : Bool :=
  (d.kind = .copy || d.kind = .castPage || d.kind = .migratePage) && (d.dstTier = 3 || d.dstChip ≠ chip s)
    && !(d.kind = .migratePage && d.dstTier = 3)

/-- Sends a descriptor's bytes to the composed range or the chip that it writes. An export's wait for their layer group (R369). -/
def issueWrite (n : Nat) (d : Desc) (b : Bytes) (s : State) : Except Nat State :=
  if !leaves s d then .ok s
  else if d.dstTier = 3 then
    rangeWrite d.partition (d.dst / 2 ^ 48) (d.dst % 2 ^ 48) (if d.kind = .copy then b else sealedPage s d (castBytes s d b).1) (.pull n) s
  else if !linkUp s d.dstChip then .error St.linkDown
  else if d.kind = .copy then .ok (sendSwl (.swilan (linkTo s d.dstChip) 2 9 n [d.dstTier, d.dst] b) s)
  else .ok (sendSwl (.swilan (linkTo s d.dstChip) 2 6 n [d.session, d.lg, d.page] b) s)

/-- A descriptor's source is in: a COPY's bytes are held as it writes them, and what leaves this chip is sent. -/
def sourceIn (n : Nat) (d : Desc) (b : Bytes) (s : State) : Except Nat State :=
  let (b, s) := if d.kind = .copy then copyBytes d b s else (b, s)
  issueWrite n d b { s with fdy := { s.fdy with store := tset s.fdy.store n { d with data := some b } } }

/-- The requests of a descriptor to a composed range or another chip; a failure that is known at once. -/
def issueIo (n : Nat) (d : Desc) (s : State) : Except Nat State :=
  if awaits s d then issueRead n d s
  else if d.kind = .copy then sourceIn n d (descSource s d) s
  else issueWrite n d (descSource s d) s

/-! ### Failure of a descriptor (R97) -/

/-- A submission ends, with what it has moved (R127). -/
def submitEnd (fop status : Nat) (s : State) : State :=
  match getFop s fop with
  | some f => endOp f.op status 0 (if status = 0 then u32 f.pages else []) (delFop fop (dropDescs fop s))
  | none => s

/-- A descriptor fails and ends its operation, or sends its page into the recovery order (R97, R104, R112, R117). -/
def failDesc (n status : Nat) (s : State) : State :=
  match tget s.fdy.store n with
  | none => s
  | some d =>
    let s := dropMsgs (.pull n) (dropDesc n s)
    let key := pteKey d.lg d.page
    match d.kind with
    | .castPage => castFail d.fop status s
    | .imageWrite => castFail d.fop status s
    | .dirCommit => deviceFatal 0x0F03 2 s
    | .imageRead => imageLost d.fop status s
    | .migratePage => migrateFail d.fop status 0 s
    | .copy => submitEnd d.fop status (emit (.descDone d.tag status 0) s)
    | .raisePage =>
      if d.session = 0 then listPageFail d s else
      match getFop s d.fop with
      | some f => if f.kind = .runAhead then cancelRunAhead d.fop 0 s else pullFailed d.fop key status s
      | none => s

/-- DESCRIPTOR_ISSUE: a free engine takes the next descriptor (R94, R306). -/
def descriptorIssue (engine : Nat) (s : State) : State :=
  if 16 ≤ engine || !groupOpen s 0x37 || s.fdy.store.any (fun e => e.2.engine = some engine) then s
  else
    match nextDesc s with
    | none => s
    | some (n, d) =>
      let low := s.fdy.store.any (fun e => mayIssue s e.1 e.2 && decide (3 ≤ e.2.cls))
      let s := post [⟨Lg.descriptor, 0, [(1, -1), (0, 1), (2, 1), (3, (d.length : Int)), (4, 1)]⟩] 2 d.session s
      let s := { s with fdy := { s.fdy with
        store := tset s.fdy.store n { d with engine := some engine, ctIssue := s.ct }
        lastPart := tset s.fdy.lastPart d.cls d.partition
        sinceLow := if 3 ≤ d.cls || !low then 0 else s.fdy.sinceLow + 1 } }
      let s := pumpAll (if d.kind = .imageRead then fopPhase d.fop 2 true s else s)
      match issueIo n { d with engine := some engine, ctIssue := s.ct } s with
      | .ok s => s
      | .error st => failDesc n st s

/-! ### Cancelling (R44, R104, R112, R116) -/

/-- A CANCEL takes effect on a Foundry operation. -/
def cancelFop (n : Nat) (s : State) : State :=
  match getFop s n with
  | none => s
  | some f =>
    match f.kind with
    | .cast => castFail n St.cancelled s
    | .raise => if f.left then s else raiseFail n St.cancelled s
    | .runAhead => cancelRunAhead n 0 s
    | .migrate => migrateFail n St.cancelled 0 s
    | .exportEth => migrateFail n St.cancelled 0 s
    | .pull => s
    | .submit => submitEnd n St.cancelled s

/-- Whether a CANCEL of an operation is in effect and its phase may be stopped. -/
def fopCancelling (s : State) (f : Fop) : Bool := (getOp s f.op).any (fun o => o.cancelling && o.canCancel)

/-! ### Completion (R97) -/

/-- What a descriptor has read from a composed range, none before it is all in; a page's tag is checked (R105). -/
def pulled (s : State) (n : Nat) (d : Desc) : Option (Except Nat Bytes) :=
  match msgOf s (.pull n) with
  | none => some (.error St.rangeGone)
  | some (_, _, x) =>
    if x.failed ≠ 0 then some (.error x.failed)
    else if !x.done then none
    else
      let b := Mem.read x.data 0 x.want
      if d.kind = .copy || d.session = 0 then some (.ok b)
      else
        match storageKey s d.partition with
        | none => some (.error St.rangeGone)
        | some k =>
          match Config.gcmOpen k (castIv d.session d.castGen d.lg d.page) [] (b.take d.length) (b.drop d.length) with
          | some p => some (.ok p)
          | none => some (.error St.rangeGone)

/-- Whether what a descriptor asked for has come: its source's bytes, or the acknowledgement of its write; none while it has not. -/
def descBytes (s : State) (n : Nat) (d : Desc) : Option (Except Nat Bytes) :=
  if awaits s d then (if d.srcTier = 3 then pulled s n d else none)
  else if leaves s d && d.dstTier = 3 then
    match msgOf s (.pull n) with
    | none => some (.error St.rangeGone)
    | some (_, _, x) => if x.failed ≠ 0 then some (.error x.failed) else if x.done then some (.ok (descSource s d)) else none
  else some (.ok (descSource s d))

/-- A COPY has moved its bytes: its completion returns its tag, and the CRC that it asked for goes back into the host's descriptor (R95,
R127). -/
def copyDone (d : Desc) (b : Bytes) (s : State) : State :=
  let s := if leaves s d then s else devWrite d.dstTier d.dst b s
  let s := emit (.descDone d.tag 0 (if d.crc then crc32c b else 0)) s
  let s := modFop d.fop (fun f => { f with pages := f.pages + 1, bytes := f.bytes + b.length }) s
  match getFop s d.fop with
  | none => s
  | some f =>
    let s := match d.crc, getOp s f.op with
      | true, some o =>
        (match sgList o.req s with
        | .ok l => (sgWrite (sgDrop l (64 * d.page + 0x2C)) (u32 (crc32c b)) s).1
        | .error _ => s)
      | _, _ => s
    let s := progressOp f.op 1 f.bytes f.total s
    if (descsOf s d.fop).isEmpty && f.todo.isEmpty then submitEnd d.fop 0 s else s

/-- A descriptor has succeeded: it leaves the store, and its operation advances. -/
def finishDesc (m : Moment) (n : Nat) (d : Desc) (b : Bytes) (s : State) : State :=
  let s := post [⟨Lg.descriptor, 0, [(2, -1), (3, -(d.length : Int)), (5, 1)]⟩] 2 d.session s
  let s := bump .fdyBytes d.partition d.length (bump .fdyDescs d.partition 1 s)
  let s := dropMsgs (.pull n) { s with fdy := { s.fdy with store := tdel s.fdy.store n } }
  match d.kind with
  | .castPage => castPageDone d s
  | .imageWrite => imageWritten d s
  | .dirCommit => castCommit d.fop s
  | .imageRead =>
    if (getFop s d.fop).any (fun f => (claimOf s f).imageCrc = crc32c (b.take d.length)) then imageGot m d.fop b s
    else imageLost d.fop St.rangeGone s
  | .raisePage => if d.session = 0 then listPageDone d b s else raisePageDone d b s
  | .migratePage => migratePageDone d b s
  | .copy => copyDone d b s

/-- DESCRIPTOR_COMPLETE: a descriptor that runs on an engine ends; one whose data has not come stays (R97). -/
def descriptorComplete (m : Moment) (n : Nat) (res : DescResult) (s : State) : State :=
  match tget s.fdy.store n with
  | none => s
  | some d =>
    if d.engine.isNone then s
    else if (getFop s d.fop).any (fopCancelling s) then cancelFop d.fop s
    else
      match res with
      | .failed st => failDesc n st s
      | .badData => failDesc n St.rangeGone s
      | .ok =>
        match descBytes s n d with
        | none => s
        | some (.error st) => failDesc n st s
        | some (.ok b) =>
          if d.kind = .copy && d.data.isNone then
            -- a COPY out of a range: its bytes are in, and go on to their place
            match sourceIn n d b (dropMsgs (.pull n) s) with
            | .error st => failDesc n st s
            | .ok s => if leaves s d && d.dstTier = 3 then s else finishDesc m n d (((tget s.fdy.store n).bind (·.data)).getD b) s
          else finishDesc m n d b s

/-! ### Timers -/

/-- RUNAHEAD_TTL_EXPIRY: a run-ahead that has not been promoted in time is cancelled; one whose promotion waits for a slot keeps
its frames (R115, R116). -/
def execRunaheadTtlExpiry (m : Moment) (fop : Nat) (s : State) : Out :=
  let s := s.at m
  match getFop s fop with
  | some f =>
    if f.kind = .runAhead && decide (f.ctStart + f.ttl ≤ s.ct) && !(s.pln.raiseWait.any (fun w => w.fop = fop)) then
      .next (cancelRunAhead fop 1 s)
    else .next s
  | none => .next s

/-- PULL_TIMEOUT_EXPIRY: a pull from a composed range has had no response in time (R117). -/
def pullTimeout (n : Nat) (s : State) : State :=
  match tget s.fdy.store n with
  | some d =>
    let late := ((getFop s d.fop).map (·.pullTo)).getD s.fdy.pullTo
    if d.engine.isSome && d.srcTier = 3 && decide (d.ctIssue + late ≤ s.ct) && !((msgOf s (.pull n)).any (fun x => x.2.2.done)) then
      failDesc n St.rangeGone s
    else s
  | none => s

/-! ### FDY_RAISE -/

def opFdyRaise : OpInfo := { opcode := 0x0201, rbits := [(8, 1, 0xFE)] }

/-- A raise of a session that a run-ahead of this chip has claimed: it is promoted, or waits for a slot (R113, R115). Its generation must
still be resident (R223). At R123's limit an `armed` raise waits, and a command is refused. -/
def promoteBody (m : Moment) (id : Nat) (armed : Bool) (s : State) : Reply :=
  match fopOf s id [.runAhead] with
  | none => .err s stWrong (chip s)
  | some (n, f) =>
    let e := claimOf s f
    let known := f.claim.isSome || (getDir s id).isSome
    if known && !genResident s e.tableGen e.partition e.modelSlot then .err s St.genNotResident
    else
      let full := decide (4096 ≤ moveOps s)
      match pickSlot m 0 s with
      | some slot =>
        if !full then { st := promote m n slot s, detail := chip s }
        else if armed then wait e n s
        else .err s St.busyRetry
      | none => wait e n s
where
  /-- The promotion waits in the raise-wait queue, if there is room (R84). -/
  wait (e : DirEntry) (n : Nat) (s : State) : Reply :=
    let (ok, s) := queueRaise { session := id, partition := e.partition, priority := e.priority, fop := n } s
    if ok then { st := s, detail := chip s } else .err s St.busyRetry

/-- The message by which a session's run-ahead on chip `c` is promoted there (R113). -/
def promoteAway (c id : Nat) (s : State) : Reply :=
  if linkUp s c then .ok (sendSwl (.swilan (linkTo s c) 0 1 id [DState.claimed.code, c, 0] []) s) else .err s stLinkDown

/-- Whether the device itself, and not the host or another chip, makes a request. -/
def ownRequest (r : Req) : Bool :=
  match r.src with
  | .device _ => true
  | .mirrored => true
  | _ => false

/-- A raise or a run-ahead on this chip of a session whose directory entry this chip keeps (R109, R113, R114). -/
def raiseHere (m : Moment) (r : Req) (ahead : Bool) (id : Nat) (e : DirEntry) (s : State) : Reply :=
  if !r.reaches e.partition then .err s stGone
  else
    match e.dstate with
    | .parked =>
      if !genResident s e.tableGen e.partition e.modelSlot then .err s St.genNotResident
      else if ahead then (if 1024 ≤ (runAheads s).length then .err s St.busyRetry else runAheadStart r id e.partition s)
      else if 4096 ≤ moveOps s then .err s St.busyRetry
      else raiseStart m r id e.partition s
    | .claimed =>
      if e.provisional && !ahead then
        (if e.activeChip = chip s then promoteBody m id (ownRequest r) s
        else if ownRequest r then promoteAway e.activeChip id s
        else forwardTo e.activeChip r s)
      else .err s stWrong e.activeChip
    | .active => .err s stWrong e.activeChip
    | .exported => .err s stGone 1
    | _ => .err s stGone

/-- A raise on this chip of a session homed on another one, which answers the claim (R109). -/
def raiseAway (m : Moment) (r : Req) (id part : Nat) (s : State) : Reply :=
  if !linkUp s (homeOf id) then .err s stLinkDown
  else if 4096 ≤ moveOps s then .err s St.busyRetry
  else raiseStart m r id part s

/-- FDY_RAISE, on the chip that it names (R109 to R116). -/
def bodyFdyRaise (m : Moment) (r : Req) (s : State) : Reply :=
  let id := r.f 0 8
  let c := if r.f 9 1 = 0xFF then chip s else r.f 9 1
  let ahead := bit (r.f 8 1) 0
  if 7 < c then .err s St.badField
  else if id = 0 then .err s stGone
  else if c ≠ chip s && (lockedPair s (twinPart r s)).isSome then .err s St.twinPinned
  else if !ahead && homeOf id ≠ chip s && (fopOf s id [.runAhead]).any (fun f => r.reaches f.2.partition) then
    promoteBody m id false s
  else if c ≠ chip s then forwardTo c r s
  else
    match getDir s id with
    | some e => raiseHere m r ahead id e s
    | none =>
      if homeOf id = chip s then .err s stGone
      else if !linkUp s (homeOf id) then .err s stLinkDown
      else if ahead then
        (if 1024 ≤ (runAheads s).length then .err s St.busyRetry else runAheadStart r id r.part16 s)
      else raiseAway m r id r.part16 s

/-- Whether the request of a Foundry operation may reach a session of a partition; the device's own is confined to its chain's (R368). -/
def fopReaches (s : State) (f : Fop) (p : Nat) : Bool :=
  match getOp s f.op with
  | some o => o.req.reaches p
  | none => f.partition = p

/-- A home chip has answered a claim with the session's entry (R101, R109; log entry 13). Without data, a run-ahead of the chip in
`detail` has been promoted in its place (R113). A raise that fails takes the chain that fired for it with it (R366). -/
def claimAnswer (n status detail : Nat) (b : Bytes) (s : State) : State :=
  match getFop s n with
  | none => s
  | some f =>
    let fail (st : Nat) (s : State) : State :=
      endOp f.op st detail [] (if st = 0 then delFop n s else chainFail f.session st (delFop n s))
    if status ≠ 0 || b.isEmpty then fail status s
    else
      let e := dirOfBytes b
      let undo (s : State) : State := sendSwl (.swilan (linkTo s (homeOf f.session)) 0 1 f.session [DState.parked.code, 0, 0] []) s
      if !fopReaches s f e.partition then fail stGone (undo s)
      else if !genResident s e.tableGen e.partition e.modelSlot then fail St.genNotResident (undo s)
      else if stopping s f.op then fail St.cancelled (undo s)
      else
        let s := if thas s.pln.store f.session then
            modStore f.session (fun t => { t with castGen := e.castGen, ckptCut := e.ckptCut }) s
          else s
        claimGot n e (modFop n (fun f => { f with partition := e.partition }) s)

/-! ### The other commands of group 0x02 (R127) -/

def opFdyDirRead : OpInfo := { opcode := 0x0203, mctp := true }

/-- `n` directory entries from index `a` as a caller sees them; another partition's read as zeros, an UNUSED one as R99 resets it. -/
def dirRecords (r : Req) (a n : Nat) (s : State) : Bytes :=
  (List.range n).flatMap (fun i =>
    match tget s.pln.dir (a + i) with
    | some e => if r.reaches e.partition then dirBytes e else zeros 128
    | none => dirBytes unusedDir)

/-- FDY_DIR_READ: directory entries by index. -/
def bodyFdyDirRead (_ : Moment) (r : Req) (s : State) : Reply :=
  let a := r.f 0 4
  let n := r.f 4 4
  if dirCount < a + n then .err s St.badField
  else replyData r (128 * n) (dirRecords r a n s) [] s

def execFdyDirRead (m : Moment) (r : Req) (s : State) : Out := .next (runCommand opFdyDirRead bodyFdyDirRead m r s)

def opFdyConfig : OpInfo := { opcode := 0x0204, pf0 := true, rsvd := [(1, 3)] }

/-- FDY_CONFIG: for operations that start afterwards. -/
def bodyFdyConfig (_ : Moment) (r : Req) (s : State) : Reply :=
  let lead := r.f 0 1
  let ttl := r.f 4 4
  let pull := r.f 8 4
  if lead = 0 || 16 < lead || ttl < 1000000 || 1000000000 < ttl || pull < 50000 || 100000000 < pull then .err s St.badField
  else .ok { s with fdy := { s.fdy with raiseLead := lead, ttl, pullTo := pull } }

def execFdyConfig (m : Moment) (r : Req) (s : State) : Out := .next (runCommand opFdyConfig bodyFdyConfig m r s)

def opFdySubmit : OpInfo := { opcode := 0x0205, pf0 := true, rsvd := [(1, 3)] }

/-- A descriptor of FDY_SUBMIT as its 64 bytes spell it, in place `i` of the list. A COPY has no session, so that PACED, which waits
for a session's step, holds nothing back, and PROVISIONAL, which names a run-ahead's frame, changes nothing (log entry 35). -/
def descOfBytes (s : State) (p i : Nat) (b : Bytes) : Desc :=
  let c := field b 0 4
  let place (t k : Nat) : Nat := if t = 3 then chip s else field b k 1 % 8
  { kind := .copy, length := field b 4 4, partition := p, srcTier := bits c 27 26, dstTier := bits c 25 24
    xcode := bits c 23 22, prov := bit c 21, fence := bit c 19, crc := bit c 18, src := field b 0x10 8, dst := field b 0x18 8
    srcChip := place (bits c 27 26) 0x20, dstChip := place (bits c 25 24) 0x21
    lg := field b 0x22 2, needLg := field b 0x26 2, castGen := field b 0x28 4, page := i, tag := field b 0x30 8, cls := 6 }

/-- Whether a place of a descriptor lies within a partition's memory on this chip or in one of its ranges. What a partition holds on
chip `c` other than this one is that chip's to say (log entry 35). -/
def copyPlaceOk (s : State) (p c tier a n : Nat) : Bool :=
  if c ≠ chip s then true else
  match tier with
  | 0 => (partTiles s p).contains (a / 0xE00000) && decide (a % 0xE00000 + n ≤ 0xE00000)
  | 3 => (match getRange s p (a / 2 ^ 48) with | some r => decide (a % 2 ^ 48 + n ≤ r.length) | none => false)
  | t => n = 0 || ((List.range ((a + n - 1) / granuleSize t + 1 - a / granuleSize t)).all (fun i =>
      (granules s p t).contains (a / granuleSize t + i)))

/-- What FDY_SUBMIT checks of one descriptor (R95, R96, R127). -/
def copyOk (s : State) (p : Nat) (b : Bytes) : Bool :=
  let c := field b 0 4
  let d := descOfBytes s p 0 b
  bits c 31 28 = 0 && bits c 17 16 = 0 && bits c 11 0 = 0 && bits c 15 12 = p
    && field b 0x20 1 / 8 = 0 && field b 0x21 1 / 8 = 0 && field b 0x38 8 = 0
    && copyPlaceOk s p d.srcChip d.srcTier d.src d.length
    && copyPlaceOk s p d.dstChip d.dstTier d.dst (copySize d.xcode d.length)

/-- FDY_SUBMIT: the host's COPY descriptors. -/
def bodyFdySubmit (_ : Moment) (r : Req) (s : State) : Reply :=
  let p := r.f 0 1
  let n := r.f 4 4
  match partGate opFdySubmit r p s with
  | .error st => .err s st
  | .ok _ =>
    withData r (64 * n) s fun b =>
      let ds := (List.range n).map (fun i => slice b (64 * i) 64)
      if !ds.all (copyOk s p) then .err s St.badField
      else if n = 0 then .ok s (u32 0)
      else
        let l := ds.zipIdx.map (fun x => descOfBytes s p x.2 x.1)
        asOp r s 0 1 ((l.map (·.length)).sum) true [] fun op s =>
          let (k, s) := newFop { kind := .submit, op, session := 0, partition := p, ctStart := s.ct
                                 total := (l.map (·.length)).sum } s
          addTodo k l s

def execFdySubmit (m : Moment) (r : Req) (s : State) : Out := .next (runCommand opFdySubmit bodyFdySubmit m r s)

def opFdyExportRelease : OpInfo := { opcode := 0x0206, pf0 := true }

/-- FDY_EXPORT_RELEASE: an EXPORTED index becomes UNUSED. -/
def bodyFdyExportRelease (_ : Moment) (r : Req) (s : State) : Reply :=
  let id := r.f 0 8
  match getDir s id with
  | some e =>
    if !r.reaches e.partition then .err s stGone
    else if e.dstate = .exported then .ok (freeDir id s)
    else .err s stWrong
  | none => if homeOf id = chip s || id = 0 then .err s stGone else forwardTo (homeOf id) r s

def execFdyExportRelease (m : Moment) (r : Req) (s : State) : Out :=
  .next (runCommand opFdyExportRelease bodyFdyExportRelease m r s)

end Sys2Proof.Machine
end

