-- ==== Sys2Proof/Machine/Models.lean ====
section
/-! DEFINITION. Model images, model slots and their commands, and the faults of invocations (R179 to R193, 05; R196 to R199,
R217, 06). -/

namespace Sys2Proof.Machine

namespace St
def slotBusy : Nat := 0x0401
def imageInvalid : Nat := 0x0402
def modelTooLarge : Nat := 0x0403
def noTiles : Nat := 0x0404
def modelInUse : Nat := 0x0407
end St

/-! ### The image (R185, R196 to R199) -/

namespace Md

/-- The header of an image. -/
def hdr (b : Bytes) : ModelHdr :=
  { imageBytes := field b 8 8, digest := slice b 0x10 32, layerCount := field b 0x30 2, lgLayers := field b 0x32 1
    kvFormat := field b 0x33 1, kvHeads := field b 0x34 2, headDim := field b 0x36 2, qHeads := field b 0x38 2
    lgCount := field b 0x3A 2, vocab := field b 0x3C 4, hidden := field b 0x40 4, batchLimit := field b 0x44 2
    minSpan := field b 0x46 2, ctxSlots := field b 0x48 1, sparse := bit (field b 0x49 1) 0, winDefault := field b 0x4A 2
    winMax := field b 0x4C 2, globDefault := field b 0x4E 2, globMax := field b 0x50 2, objCount := field b 0x52 2
    constBytes := field b 0x54 4, objTable := field b 0x58 8, sigOffset := field b 0x60 8, sigLen := field b 0x68 4
    cmdOffset := field b 0x6C 4, attTable := field b 0x70 8 }

/-- Page content of a model (R128). -/
def pageContent (h : ModelHdr) : Nat := 256 * h.lgLayers * 2 * h.kvHeads * h.headDim * fmtBits h.kvFormat / 8

/-- Page size class: the least from 18 whose power of two holds the content (R128). -/
def pageClass (h : ModelHdr) : Nat :=
  ((List.range 7).find? (fun k => decide (pageContent h ≤ 2 ^ (18 + k)))).getD 7 + 18

/-- Reserved bytes of an image, each with its offset. -/
def zeroChecks (b : Bytes) (o n : Nat) : List Tb.Check := (List.range n).map (fun i => Tb.ck (b.getD (o + i) 0 = 0) (o + i))

/-- Header fields outside their range, each with its offset; of the two fields of a wrong pair, the first. -/
def headerChecks (b : Bytes) (bytes : Nat) : List Tb.Check :=
  let h := hdr b
  [ Tb.ck (field b 0 4 = 0x314C444D) 0, Tb.ck (field b 4 2 = 1) 4, Tb.ck (field b 6 2 = 0x100) 6, Tb.ck (h.imageBytes = bytes) 8
  , Tb.ck (1 ≤ h.layerCount && h.layerCount ≤ 4096 && h.layerCount % max 1 h.lgLayers = 0) 0x30
  , Tb.ck (1 ≤ h.lgLayers && h.lgLayers ≤ 16) 0x32, Tb.ck ([5, 6, 8, 9].contains h.kvFormat) 0x33
  , Tb.ck (1 ≤ h.kvHeads && h.kvHeads ≤ 256) 0x34
  , Tb.ck (32 ≤ h.headDim && h.headDim ≤ 1024 && h.headDim % 32 = 0) 0x36
  , Tb.ck (1 ≤ h.qHeads && h.qHeads % max 1 h.kvHeads = 0) 0x38
  , Tb.ck (1 ≤ h.lgCount && h.lgCount ≤ 256 && h.lgCount * h.lgLayers = h.layerCount) 0x3A
  , Tb.ck (1 ≤ h.vocab && h.vocab ≤ 1048576) 0x3C, Tb.ck (h.hidden % 32 = 0) 0x40
  , Tb.ck (1 ≤ h.batchLimit && h.batchLimit ≤ 1024) 0x44, Tb.ck (h.minSpan % 8 = 0) 0x46
  , Tb.ck ([1, 2, 4].contains h.ctxSlots) 0x48, Tb.ck (field b 0x49 1 < 2) 0x49
  , Tb.ck (if h.sparse then 1 ≤ h.winDefault && h.winDefault ≤ min h.winMax 4096 else h.winDefault = 0) 0x4A
  , Tb.ck (if h.sparse then decide (h.winMax ≤ 4096) else h.winMax = 0) 0x4C
  , Tb.ck (if h.sparse then decide (h.globDefault ≤ h.globMax) else h.globDefault = 0) 0x4E
  , Tb.ck (h.sparse || h.globMax = 0) 0x50
  , Tb.ck (1 ≤ h.objCount && h.objCount ≤ 4096) 0x52, Tb.ck (h.constBytes ≤ 131072) 0x54
  , Tb.ck (0x100 ≤ h.objTable && h.objTable + 32 * h.objCount ≤ h.sigOffset) 0x58
  , Tb.ck (0x100 ≤ h.sigOffset && h.sigOffset + h.sigLen = bytes) 0x60, Tb.ck (h.sigLen = 0 || h.sigLen = 5408) 0x68
  , Tb.ck (h.cmdOffset * 4096 < h.sigOffset) 0x6C ] ++ zeroChecks b 0x78 0x88

/-- An object's entry of the object table. -/
structure Obj where
  offset : Nat
  bytes  : Nat
  format : Nat
  scaled : Nat
  hint   : Nat
  deriving DecidableEq, Repr

def objAt (b : Bytes) (i : Nat) : Obj :=
  let o := field b 0x58 8 + 32 * i
  { offset := field b o 8, bytes := field b (o + 8) 8, format := field b (o + 0x10) 1, scaled := field b (o + 0x11) 1
    hint := field b (o + 0x12) 1 }

def objs (b : Bytes) : List Obj := (List.range (field b 0x52 2)).map (objAt b)

/-- Fields of the object-table entries, each with its offset. -/
def objChecks (b : Bytes) : List Tb.Check :=
  (List.range (field b 0x52 2)).flatMap (fun i =>
    let x := objAt b i
    let o := field b 0x58 8 + 32 * i
    [ Tb.ck (0x100 ≤ x.offset && x.offset ≤ field b 0x60 8) o, Tb.ck (x.offset + x.bytes ≤ max x.offset (field b 0x60 8)) (o + 8)
    , Tb.ck (x.format ≤ 0xA) (o + 0x10), Tb.ck (0xA < x.format || scaleOk x.format x.scaled) (o + 0x11)
    , Tb.ck (x.hint = 1 || x.hint = 2) (o + 0x12) ] ++ zeroChecks b (o + 0x13) 13)

/-- An FP32 value that is finite and positive. -/
def finPos (v : Nat) : Bool := 0 < v && v < 0x7F800000

/-- Offset of the attention descriptor of a layer. -/
def attAt (b : Bytes) (n : Nat) : Nat := field b 0x70 8 + 48 * n

/-- One operand descriptor of an attention descriptor: reserved bits clear, the context slots named, the format as required. -/
def operandOk (d fmt : Nat) : Bool := bits d 57 56 = 0 && bits d 55 44 = 0xFFF && bits d 63 60 = fmt && !bit d 59

/-- Attention descriptors (R199). -/
def attChecks (b : Bytes) : List Tb.Check :=
  let h := hdr b
  let last := h.attTable + 48 * h.layerCount
  let apart (o n : Nat) : Bool := n = 0 || last ≤ o || o + n ≤ h.attTable
  let place := 0x100 ≤ h.attTable && last ≤ h.sigOffset && apart h.objTable (32 * h.objCount)
    && (objs b).all (fun x => apart x.offset x.bytes)
  Tb.ck place h.attTable :: (List.range h.layerCount).map (fun n =>
    let o := attAt b n
    let cap := field b (o + 0x1C) 4
    Tb.ck (operandOk (field b o 8) (if h.kvFormat = 9 then 9 else 8) && operandOk (field b (o + 8) 8) 0xA
      && operandOk (field b (o + 0x10) 8) 0xA
      && finPos (field b (o + 0x18) 4) && (cap = 0 || finPos cap) && !(cap = 0 && field b (o + 0x20) 4 ≠ 0)
      && field b (o + 0x24) 1 = n % max 1 h.lgLayers && field b (o + 0x25) 1 < 2 && field b (o + 0x26) 10 = 0) o)

/-- The offset of the first bad byte, if there is one (R186 step 2). -/
def firstBad (b : Bytes) (bytes : Nat) : Option Nat :=
  let bad (l : List Tb.Check) : Option Nat := ((l.filter (fun c => !c.1)).map (·.2)).min?
  match bad (headerChecks b bytes) with
  | some o => some o
  | none =>
    ((match bad (objChecks b ++ attChecks b) with | some o => [o] | none => [])
      ++ (match Config.cmdStreamBad b with | some o => [o] | none => [])).min?

/-- The attention descriptors that the device keeps. -/
def att (b : Bytes) : List AttDesc :=
  (List.range (hdr b).layerCount).map (fun n =>
    let o := attAt b n
    { qOff := bits (field b o 8) 43 0, kvOff := bits (field b (o + 8) 8) 43 0, outOff := bits (field b (o + 0x10) 8) 43 0
      sat := bit (field b (o + 8) 8) 58, scale := BitVec.ofNat 32 (field b (o + 0x18) 4)
      softcap := BitVec.ofNat 32 (field b (o + 0x1C) 4), capInv := BitVec.ofNat 32 (field b (o + 0x20) 4)
      half := bit (field b (o + 0x25) 1) 0 })

/-- The digest computed over an image (R185). -/
def computedDigest (b : Bytes) : Bytes :=
  fit 32 (Config.blake3 (b.take 0x10 ++ zeros 32 ++ (b.take (field b 0x60 8)).drop 0x30))

end Md

/-! ### MODEL_LOAD -/

/-- Whether every granule of a span mask is one of the grade's tiles (R2). -/
def spanExists (s : State) (mask : Nat) : Bool := decide (mask < 2 ^ (tileCount s / 8))

/-- Tiles of a span mask. -/
def spanTiles (mask : Nat) : List Nat := (setBits 16 mask).flatMap (fun g => (List.range 8).map (8 * g + ·))

/-- Places weight objects one after another, each whole in its tier (R187). None when one cannot be placed. -/
def placeObjs (slot p place : Nat) : List Md.Obj → State → Option State
  | [], s => some s
  | o :: os, s =>
    let tier := if place = 0 then o.hint else place
    match placeBlock s p tier o.bytes 4096 with
    | none => none
    | some a =>
      let x := getModel s slot
      placeObjs slot p place os (setModel slot { x with newObjs := x.newObjs ++ [{ bytes := o.bytes, tier, addr := a }] } s)

/-- Bytes of weight objects in a tier. -/
def tierBytes (l : List WeightObj) (tier : Nat) : Nat := ((l.filter (fun o => o.tier = tier)).map (·.bytes)).sum

def opModelLoad : OpInfo := { opcode := 0x0400, rsvd := [(3, 1), (6, 2)] }

/-- Checks 2 to 5 of R186. -/
def modelCheck (p span bytes : Nat) (img : Bytes) (s : State) : Except (Nat × Nat) Unit := do
  match Md.firstBad img bytes with
  | some o => .error (St.imageInvalid, o)
  | none => .ok ()
  let h := Md.hdr img
  if 16777216 < Md.pageContent h then .error (St.modelTooLarge, 0) else .ok ()
  let own := (setBits 16 span).all (fun g => bit (getPart s p).tileMask g)
  if span = 0 || !own || decide (8 * popcount 16 span < h.minSpan) then .error (St.noTiles, 0) else .ok ()
  if (getPart s p).signedImages && h.sigLen = 0 then .error (St.imageUnsigned, 0) else .ok ()

/-- MODEL_LOAD: checks the image, allocates its weight frames and starts the copy (R184, R186). -/
def bodyModelLoad (_ : Moment) (r : Req) (s : State) : Reply :=
  let slot := r.f 0 1
  let p := r.f 1 1
  if 63 < slot || 2 < r.f 2 1 || !spanExists s (r.f 4 2) then .err s St.badField
  else
    match partGate opModelLoad r p s with
    | .error st => .err s st
    | .ok _ =>
      let x := getModel s slot
      if !(x.mstate = .empty || (x.mstate = .faulted && x.partition = p)) then .err s St.slotBusy
      else
        withData r (r.f 8 8) s fun img =>
          if x.mstate = .faulted && x.hdr.digest ≠ (Md.hdr img).digest then .err s St.slotBusy
          else
            match modelCheck p (r.f 4 2) (r.f 8 8) img s with
            | .error (st, d) => .err s st d
            | .ok _ =>
              let reload := x.mstate = .faulted
              let y : ModelSlot :=
                if reload then { x with mstate := .loading, image := img, reload := true, spanMask := r.f 4 2 }
                else { mstate := .loading, partition := p, spanMask := r.f 4 2, hdr := Md.hdr img, hdrBytes := fit 256 img, att := Md.att img,
                       image := img }
              match placeObjs slot p (r.f 2 1) (Md.objs img) (setModel slot y s) with
              | none => .err s St.tierFull
              | some s' =>
                if opRoom s r.fn then
                  asOp r s' 1 1 (r.f 8 8) true [slot] fun n s => setModel slot { getModel s slot with op := n } s
                else .err s St.busyRetry

def execModelLoad (m : Moment) (r : Req) (s : State) : Out := .next (runCommand opModelLoad bodyModelLoad m r s)

/-- A load that fails: the new frames are released, and the slot is EMPTY or FAULTED again (R184). -/
def failLoad (slot : Nat) (s : State) : State :=
  let x := getModel s slot
  if x.reload then setModel slot { x with mstate := .faulted, image := [], newObjs := [], reload := false, op := 0 } s
  else { s with tile := { s.tile with models := tdel s.tile.models slot } }

/-- Writes the weight objects' bytes to their frames. -/
def writeObjs (img : Bytes) (l : List (Md.Obj × WeightObj)) (s : State) : State :=
  l.foldl (fun s x => devWrite x.2.tier x.2.addr (slice img x.1.offset x.1.bytes) s) s

/-- Digest, then signature, of a copied image. -/
def modelVerify (s : State) (x : ModelSlot) : Except Nat Unit := do
  let d := Md.computedDigest x.image
  guard' (d = fit 32 x.hdr.digest) St.digestMismatch
  if x.hdr.sigLen ≠ 0 then imageBlock s x.partition (x.image.drop x.hdr.sigOffset) 2 d

/-- Model slots other than EMPTY become eligible again when the slot is READY: the ready time of their sessions is now. -/
def modelReady (slot : Nat) (s : State) : State :=
  { s with pln := { s.pln with slots := s.pln.slots.map (fun e =>
      if e.2.modelSlot = slot then (e.1, { e.2 with readyCt := max e.2.readyCt s.ct }) else e) } }

/-- MODEL_LOAD_COMPLETE: the slot becomes READY, or the load fails (R184). A copy that failed is a failed access through the scatter
list: the load answers SG_FAULT and logs it; which of the list's entries failed, and by what error, is open (R40, R50). -/
def modelLoadComplete (slot : Nat) (copyOk : Bool) (s : State) : State :=
  let x := getModel s slot
  if x.mstate ≠ .loading then s
  else if stopping s x.op then endOp x.op St.cancelled 0 [] (failLoad slot s)
  else if !copyOk then endSgFault x.op (failLoad slot s)
  else
    match modelVerify s x with
    | .error st =>
      let s := if st = St.digestMismatch then s else sigRejected 2 st x.partition s
      endOp x.op st 0 [] (failLoad slot s)
    | .ok _ =>
      let y := { x with mstate := .ready, faultRun := 0, objs := x.newObjs, newObjs := [], image := [], reload := false, op := 0 }
      let s := writeObjs x.image ((Md.objs x.image).zip x.newObjs) s
      let s := modelReady slot (setModel slot y s)
      let hb := tierBytes y.objs 1
      let lb := tierBytes y.objs 2
      let s := logEvent { code := 0x0401, sev := 0, part := x.partition,
                          info := le 2 slot ++ x.hdr.digest.take 16 ++ le 7 hb ++ le 7 lb } s
      endOp x.op 0 0 (fit 32 x.hdr.digest ++ u8 (Md.pageClass x.hdr) ++ u8 0 ++ u16 x.hdr.lgCount ++ u64 hb ++ u64 lb) s

/-- The load's end by CANCEL. -/
def endModelLoad (n : Nat) (o : LongOp) (s : State) : State :=
  if o.cancelling then
    let slot := o.args.getD 0 0
    let s := if (getModel s slot).mstate = .loading && (getModel s slot).op = n then failLoad slot s else s
    endOp n St.cancelled 0 [] s
  else s

/-! ### MODEL_UNLOAD -/

def opModelUnload : OpInfo := { opcode := 0x0401, view := true }

/-- A slot as a request sees it: EMPTY where it belongs to another partition (R189). -/
def modelFor (r : Req) (s : State) (slot : Nat) : ModelSlot :=
  let x := getModel s slot
  if r.fn = 0 || r.fn - 1 = x.partition then x else {}

/-- Sessions of any state but FREE that name a slot. -/
def modelUsed (s : State) (slot : Nat) : Bool :=
  s.pln.slots.any (fun e => e.2.modelSlot = slot)
    || (s.pln.dir ++ s.fdy.imports).any (fun e => e.2.modelSlot = slot && e.2.kept)

/-- MODEL_UNLOAD: stops dispatch and purges the slot's nodes (R184). -/
def bodyModelUnload (_ : Moment) (r : Req) (s : State) : Reply :=
  let slot := r.f 0 1
  let x := modelFor r s slot
  if 63 < slot then .err s St.badField
  else if !(x.mstate = .ready || x.mstate = .faulted) then .err s stWrong
  else
    match partGate opModelUnload r x.partition s with
    | .error st => .err s st
    | .ok _ =>
      if modelUsed s slot then .err s St.modelInUse
      else
        asOp r s 0 0 0 false [slot] fun n s =>
          let (k, s) := purgeNodes x.partition (some slot) s
          setModel slot { x with mstate := .unloading, op := n, purged := k } s

def execModelUnload (m : Moment) (r : Req) (s : State) : Out := .next (runCommand opModelUnload bodyModelUnload m r s)

/-- Invocations of a slot, queued or resident. -/
def slotInvs (s : State) (slot : Nat) : List (Nat × Invocation) := s.tile.invs.filter (fun e => e.2.slot = slot)

/-- MODEL_UNLOAD_COMPLETE: no invocation is left, and the slot is EMPTY (R184). -/
def execModelUnloadComplete (m : Moment) (slot : Nat) (s : State) : Out :=
  let s := s.at m
  let x := getModel s slot
  if x.mstate = .unloading && (slotInvs s slot).isEmpty then
    .next (endOp x.op 0 0 (u32 x.purged) { s with tile := { s.tile with models := tdel s.tile.models slot } })
  else .next s

/-! ### MODEL_QUERY -/

def opModelQuery : OpInfo := { opcode := 0x0402, mctp := true }

def mstateCode : MState → Nat
  | .empty => 0
  | .loading => 1
  | .ready => 2
  | .faulted => 3
  | .unloading => 4

/-- MODEL_SLOT (R190). -/
def modelReg (s : State) (slot : Nat) (x : ModelSlot) : Nat :=
  if x.mstate = .empty then 0
  else x.faultRun * 2 ^ 20 + (slotInvs s slot).length * 2 ^ 16 + popcount 16 x.spanMask * 2 ^ 8 + x.partition * 16 + mstateCode x.mstate

/-- MODEL_QUERY: header, slot register and tiers, as far as the payload area holds them (R193). -/
def bodyModelQuery (_ : Moment) (r : Req) (s : State) : Reply :=
  let slot := r.f 0 1
  if 63 < slot then .err s St.badField
  else
    let x := modelFor r s slot
    .ok s ((fit 256 x.hdrBytes ++ u32 (modelReg s slot x) ++ x.objs.flatMap (fun o => u8 o.tier)).take 3968)

def execModelQuery (m : Moment) (r : Req) (s : State) : Out := .next (runCommand opModelQuery bodyModelQuery m r s)

/-! ### MODEL_PLACE -/

def opModelPlace : OpInfo := { opcode := 0x0403 }

/-- MODEL_PLACE: a new place is taken now, and the object moves at the operation's end (R187). -/
def bodyModelPlace (_ : Moment) (r : Req) (s : State) : Reply :=
  let slot := r.f 0 1
  let tier := r.f 1 1
  let x := modelFor r s slot
  if 63 < slot || !(tier = 1 || tier = 2) then .err s St.badField
  else if x.mstate ≠ .ready then .err s stWrong
  else
    match partGate opModelPlace r x.partition s, x.objs[r.f 2 2]? with
    | .error st, _ => .err s st
    | .ok _, none => .err s St.badField
    | .ok _, some o =>
      match placeBlock s x.partition tier o.bytes 4096 with
      | none => .err s St.tierFull
      | some a =>
        asOp r s 0 1 o.bytes true [slot, r.f 2 2, tier, a] fun _ s =>
          setModel slot { x with moving := x.moving ++ [{ bytes := o.bytes, tier, addr := a }] } s

def execModelPlace (m : Moment) (r : Req) (s : State) : Out := .next (runCommand opModelPlace bodyModelPlace m r s)

/-- Old copies that no invocation reads any more are released (R187). -/
def pruneOld (slot : Nat) (s : State) : State :=
  let x := getModel s slot
  let read := (slotInvs s slot).flatMap (fun e => e.2.objs)
  setModel slot { x with objs := x.objs.map (fun o => { o with old := o.old.filter (fun c => read.contains c) }) } s

/-- The end of a move. -/
def endModelPlace (n : Nat) (o : LongOp) (s : State) : State :=
  let slot := o.args.getD 0 0
  let i := o.args.getD 1 0
  let tier := o.args.getD 2 0
  let a := o.args.getD 3 0
  let x := getModel s slot
  let y := { x with moving := x.moving.filter (fun w => !(w.tier = tier && w.addr = a)) }
  if o.cancelling then endOp n St.cancelled 0 [] (setModel slot y s)
  else
  match x.objs[i]? with
  | none => endOp n stWrong 0 [] (setModel slot y s)
  | some w =>
    if x.mstate ≠ .ready then endOp n stWrong 0 [] (setModel slot y s)
    else
      let s := devWrite tier a (devRead s w.tier w.addr w.bytes) s
      let moved : WeightObj := { bytes := w.bytes, tier, addr := a, old := w.old ++ [(w.tier, w.addr)] }
      endOp n 0 0 (u64 w.bytes) (pruneOld slot (setModel slot { y with objs := y.objs.set i moved } s))

/-! ### ATT_CONFIG -/

def opAttConfig : OpInfo := { opcode := 0x0404, pf0 := true, rsvd := [(1, 7)] }

/-- ATT_CONFIG: rounds per layer of batches formed afterwards (R217). -/
def bodyAttConfig (_ : Moment) (r : Req) (s : State) : Reply :=
  if r.f 0 1 < 1 || 64 < r.f 0 1 then .err s St.badField
  else .ok { s with tile := { s.tile with attRounds := r.f 0 1 } }

def execAttConfig (m : Moment) (r : Req) (s : State) : Out := .next (runCommand opAttConfig bodyAttConfig m r s)

/-! ### Faults of invocations (R180 to R182) -/

/-- The invocation ends: its queue entries and context slots are free, and nothing that it had in its tiles is left for another (R176,
R181). -/
def dropInv (serial : Nat) (s : State) : State :=
  match tget s.tile.invs serial with
  | none => s
  | some v => lateFrames (pruneOld v.slot { s with tile := { s.tile with
      invs := tdel s.tile.invs serial, plates := tdel s.tile.plates serial
      stream := s.tile.stream.filter (fun e => e.2.all (fun b => b.serial ≠ serial))
      ahead := s.tile.ahead.filter (fun e => e.2.serial ≠ serial) } })

/-- A row's session has nothing in flight any more: it is eligible again, and its reserved stream records are free (R181); a
shadow's twin grant waits again. -/
def releaseRow (serial : Nat) (id : Nat) (s : State) : State :=
  match getSess s id with
  | none => s
  | some x =>
    match x.inflight with
    | none => s
    | some f =>
      if f.inv ≠ serial then s
      else
        let s := if isShadow s id && !f.rebuild then
            { s with twn := { s.twn with grants := (id, f.base, f.chunk) :: s.twn.grants } }
          else s
        modSess id (fun x => { x with inflight := none, specLength := 0, readyCt := s.ct }) (spillRecs x [] f.spill s)

/-- The model slot after an invocation fault of a kind (R182). -/
def countFault (slot kind : Nat) (s : State) : State :=
  let x := getModel s slot
  let run := if 4 ≤ kind && kind ≤ 6 then min 3 (x.faultRun + 1) else x.faultRun
  let s := setModel slot { x with faultRun := run } s
  if x.mstate = .ready && (kind = 3 || run = 3) then
    note 0x0402 2 x.partition 0 [slot, kind] (setModel slot { x with faultRun := run, mstate := .faulted } s)
  else s

/-- An invocation fault: nothing of it is committed, and its sessions become eligible again (R181, R182). -/
def invFault (serial kind tile : Nat) (s : State) : State :=
  match tget s.tile.invs serial with
  | none => s
  | some v =>
    let s := (v.rows.filter (fun r => !r.masked)).foldl (fun s r => releaseRow serial r.session s) (dropInv serial s)
    let s := bump .tileFaults v.partition 1 s
    countFault v.slot kind (note 0x0403 1 v.partition 0 [kind, v.slot, serial, tile] s)

end Sys2Proof.Machine
end

