-- ==== Sys2Proof/Machine/Sessions.lean ====
section
/-! DEFINITION. The commands of group 0x01 that name a session, but for appends (R54 to R70, R80 to R92, 02). -/

namespace Sys2Proof.Machine

namespace St
def admitRed : Nat := 0x0105
def serialExhausted : Nat := 0x0108
end St

/-! ### SESSION_ADMIT (R67, R68, R70) -/

def opSessionAdmit : OpInfo := { opcode := 0x0100, rsvd := [(0x45, 11)] }

/-- The payload of SESSION_ADMIT (R92). -/
structure Admit where
  slot     : Nat
  priority : Nat
  cls      : Nat
  gen      : Nat
  grammar  : Nat
  flags    : Nat
  stopSet  : Nat
  seed     : Nat
  handle   : Nat
  target   : Nat
  maxLen   : Nat
  maxNew   : Nat
  stopCt   : Nat
  cast     : Nat
  window   : Nat
  globals  : Nat
  pre      : Nat
  deriving DecidableEq, Repr

/-- The fields of an admission from the payload's bytes. -/
def admitOf (b : Bytes) : Admit :=
  { slot := field b 0 1, priority := field b 1 1, cls := field b 2 2, gen := field b 4 2, grammar := field b 6 2
    flags := field b 8 4, stopSet := field b 0x0C 4, seed := field b 0x10 8, handle := field b 0x18 8, target := field b 0x20 8
    maxLen := field b 0x28 4, maxNew := field b 0x2C 4, stopCt := field b 0x30 8, cast := field b 0x38 8
    window := field b 0x40 2, globals := field b 0x42 2, pre := field b 0x44 1 }

/-- The sparse pattern of an admission after the defaults of R196: window and globals. -/
def admitSparse (h : ModelHdr) (a : Admit) : Nat × Nat :=
  if bit a.flags Fl.sparse then
    (if a.window = 0 then h.winDefault else a.window, if a.globals = 0 then h.globDefault else a.globals)
  else (a.window, a.globals)

/-- Step 5 of R67. -/
def sparseOk (h : ModelHdr) (a : Admit) : Bool :=
  let (w, g) := admitSparse h a
  if bit a.flags Fl.sparse then h.sparse && decide (w ≤ h.winMax) && decide (g ≤ h.globMax) else w = 0 && g = 0

/-- Steps 1 to 5 of R67, and what a breach, a trip or a twin pair adds (R312, R394, R470). -/
def admitCheck (p : Nat) (a : Admit) (s : State) : Except Nat Unit := do
  guard' (s.bench.devState ≠ .frozen) (fatalStatus s)
  guard' (s.bench.devState ≠ .safe && s.err.shutdown.isNone) St.busyRetry
  guard' (decide (a.slot < 64) && decide (a.priority < 8) && decide (a.cls < 4096) && decide (a.flags &&& Fl.atAdmit = a.flags)
    && decide (1 ≤ a.maxLen) && decide (a.maxLen ≤ 1048576) && decide (a.pre ≤ 2) && targetOk s p a.target) St.badField
  guard' ((lockedPair s p).isNone || (bit a.flags Fl.castMode && !bit a.flags Fl.spec)) St.twinNeedsCast
  guard' (modelOpen s a.slot p) St.modelNotReady
  guard' (genResident s a.gen p a.slot && holdsGrammar s a.gen a.grammar && holdsStop s a.gen a.stopSet) St.genNotResident
  guard' ((tget s.pla.classes a.cls).any (fun c => c.partition = p)) St.badField
  guard' (sparseOk (getModel s a.slot).hdr a) St.badField

/-- The node that an admission's handle resolves to (R146); a mirrored handle names the same node of the secondary's own tree. -/
def admitNode (p : Nat) (mirrored : Bool) (a : Admit) (s : State) : Option Nat :=
  let h := if mirrored then a.handle / 2 ^ 32 * 2 ^ 32 + chip s * 2 ^ 29 + a.handle % 2 ^ 29 else a.handle
  (handleNode s p h).filter (fun i => (getNode s p i).modelSlot = a.slot && (getNode s p i).mode = bit a.flags Fl.castMode)

/-- The entry of a session just admitted (R68). -/
def admitEntry (p id colour pos : Nat) (a : Admit) (s : State) : Session :=
  let c := getClass s a.cls
  let (w, g) := admitSparse (getModel s a.slot).hdr a
  let due := dueAt s.ct c.ttftTarget
  let f := setFlag (setFlag (BitVec.ofNat 32 a.flags) Fl.yellow (colour = 1)) Fl.prefixBound (a.handle ≠ 0)
  { id, partition := p, modelSlot := a.slot, priority := if colour = 1 then min 7 (a.priority + 2) else a.priority, cls := a.cls
    flags := f, tableGen := a.gen, grammarImage := a.grammar, length := pos, windowPages := w, globalCount := g, deadline := due
    turnDeadline := due, grammarState := (Gram.of (genImage s a.gen) a.grammar).start.state, rngSeed := a.seed
    credit := if homeOf id = chip s then c.burst else 0, stopSet := a.stopSet, streamTarget := a.target, maxLength := a.maxLen
    maxNew := a.maxNew, ctAdmit := s.ct, castAfter := a.cast, prefillPos := pos, prefixLen := pos, stopCt := a.stopCt
    readyCt := s.ct, q := { ctCredit := s.ct } }

/-- The directory entry of a session just admitted (R101). -/
def admitDir (x : Session) (slot : Nat) (s : State) : DirEntry :=
  { id := x.id, partition := x.partition, modelSlot := x.modelSlot, priority := x.priority, cls := x.cls, flags := x.flags
    tableGen := x.tableGen, grammarImage := x.grammarImage, activeChip := chip s, activeSlot := slot }

/-- Gives an admitted session its slot, index, tables, record frame and prefix, unless a frame is lacking. -/
def admitPlace (m : Moment) (p id slot colour node : Nat) (a : Admit) (s : State) : Except Lack State :=
  let pos := 256 * (getNode s p node).depth
  let x := admitEntry p id colour (if node = 0 then 0 else pos) a s
  let h := (getModel s a.slot).hdr
  let s := newDir id (admitDir x slot s) (takeSlot slot x s)
  let s := setStore id { partition := p, pages := { lgCount := h.lgCount, pageClass := Md.pageClass h } } s
  match if node = 0 then .ok s else resolvePrefix m id p node s with
  | .error l => .error l
  | .ok s =>
    match buildTables m id p s with
    | .error l => .error l
    | .ok s =>
      match grabTable m 2 p id s with
      | .error l => .error l
      | .ok (f, s) => .ok (modSess id (fun x => { x with journalAddr := f }) (modStore id (fun t => { t with recFrame := f }) s))

/-- SERIAL_LOW, once, when fewer than 2^32 serials remain (R55). -/
def tellSerials (s : State) : State :=
  if 2 ^ 37 < s.aon.sessSerial + 2 ^ 32 && !s.pln.serialLow then
    note 0x0105 1 0xFF 0 [s.aon.sessSerial] { s with pln := { s.pln with serialLow := true } }
  else s

/-- The serial counter after an admission (R55). -/
def takeSerial (s : State) : State := tellSerials { s with aon := { s.aon with sessSerial := s.aon.sessSerial + 1 } }

/-- What an admission answers: the state, a status, the ct to retry at, and the session with its slot and colour. -/
structure Admitted where
  st     : State
  status : Nat := 0
  retry  : Nat := 0
  id     : Nat := 0
  slot   : Nat := 0
  colour : Nat := 0
  pos    : Nat := 0

/-- An admission that has been coloured and has a slot and an index: its prefix, its memory and its session (R68). -/
def admitInto (m : Moment) (p : Nat) (mirrored : Option Nat) (a : Admit) (k : Colouring) (slot i : Nat) (s : State) : Admitted :=
  match if a.handle = 0 then some 0 else admitNode p mirrored.isSome a s with
  | none => { st := bump .ptnLookups p 1 s, status := St.prefixGone }
  | some node =>
    let id := mirrored.getD (mkId (chip s) s.aon.sessSerial i)
    match admitPlace m p id slot k.colour node a s with
    | .error l => { st := starve l s, status := St.busyRetry }
    | .ok t =>
      let c := getClass s a.cls
      let t := bindGen a.gen 1 t
      let t := if mirrored.isSome then t
        else takeSerial (post [⟨Lg.credit, a.cls, [(1, (c.burst : Int)), (0, (c.burst : Int))]⟩] 7 id (countColour c k t))
      { st := t, id, slot, colour := k.colour, pos := ((getSess t id).map (·.prefixLen)).getD 0 }

/-- An admission to a partition (R67, R68). A mirrored one brings its session ID and is neither coloured nor posted to the
CREDIT ledger (R394, R395). -/
def admitAs (m : Moment) (p : Nat) (mirrored : Option Nat) (a : Admit) (s : State) : Admitted :=
  match admitCheck p a s with
  | .error st => { st := s, status := st }
  | .ok _ =>
    let c := getClass s a.cls
    let s1 := if mirrored.isSome then s else refillMeters c s
    let k := if mirrored.isSome then { colour := 0 } else colourOf s1 c a.pre
    if k.colour = 2 then
      let s2 := countColour c k s1
      match k.retry with
      | some t => { st := s2, status := St.busyRetry, retry := t }
      | none => { st := s2, status := St.admitRed }
    else
      let index := match mirrored with
        | some id => if thas s1.pln.dir (indexOf id) then none else some (indexOf id)
        | none => pickIdx m 1 s1.pln.dir dirCount
      match pickSlot m 0 s1, index with
      | some slot, some i =>
        if mirrored.isNone && 2 ^ 37 ≤ s1.aon.sessSerial then { st := s1, status := St.serialExhausted }
        else admitInto m p mirrored a k slot i s1
      | _, _ => { st := s1, status := St.busyRetry }

/-- SESSION_ADMIT (R67, R68, R91). -/
def bodySessionAdmit (m : Moment) (r : Req) (s : State) : Reply :=
  let mir := if r.src = .mirrored then some (r.f 0x50 8) else none
  let x := admitAs m r.part16 mir (admitOf (fit 0x50 r.payload)) s
  if x.status = 0 then .ok x.st (u64 x.id ++ u16 x.slot ++ u8 x.colour ++ u8 0 ++ u32 x.pos)
  else { st := x.st, status := x.status, result := if x.retry = 0 then [] else u64 x.retry }

/-! ### SESSION_STOP -/

def opSessionStop : OpInfo := { opcode := 0x0103 }

/-- What SESSION_STOP answers. -/
def stopResult (s : State) (id : Nat) : Bytes :=
  match getSess s id with
  | some x => u8 x.stopReason ++ zeros 3 ++ u32 x.length
  | none => []

/-- SESSION_STOP at a step boundary (R64). -/
def stopNow (id : Nat) (s : State) : Reply :=
  match getSess s id with
  | none => .err s stGone
  | some x =>
    if x.st = .stopped || x.st = .toolwait then .ok s (stopResult s id)
    else if x.st = .prefill || x.st = .decode then
      let s := stopSession id 8 [] false 0 0 s
      .ok s (stopResult s id)
    else .err s stWrong

/-- SESSION_STOP: a session that has stopped already is left as it is. -/
def bodySessionStop (_ : Moment) (r : Req) (s : State) : Reply :=
  onSession r s fun id h =>
    match h with
    | .parked _ => .err s stWrong
    | .active x => if x.st = .prefill || x.st = .decode then atStep r x s (stopNow id s) else stopNow id s

/-! ### SESSION_READ -/

def opSessionRead : OpInfo := { opcode := 0x0104, mctp := true }

/-- SESSION_READ: the active entry, its credit brought up to date (R278), or the directory entry with `detail` 1. -/
def bodySessionRead (_ : Moment) (r : Req) (s : State) : Reply :=
  onSession r s fun id h =>
    match h with
    | .active x =>
      let s := updateCredit id s
      .ok s (entryBytes ((getSess s id).getD x))
    | .parked e => { st := s, detail := 1, result := dirBytes e }

def execSessionRead (m : Moment) (r : Req) (s : State) : Out := .next (runCommand opSessionRead bodySessionRead m r s)

/-! ### SESSION_SET -/

def opSessionSet : OpInfo := { opcode := 0x0105, rsvd := [(0x0D, 3)], rbits := [(8, 4, 0xFFFFFF80)] }

/-- Whether SESSION_SET selects field `i`. -/
def setsField (r : Req) (i : Nat) : Bool := bit (r.f 8 4) i

/-- What SESSION_SET checks against a session's entry (R91). -/
def setCheck (r : Req) (x : Session) (s : State) : Except Nat Unit := do
  guard' (!setsField r 0 || decide (r.f 0x0C 1 < 8)) St.badField
  guard' (!setsField r 2 || (decide (x.length ≤ r.f 0x18 4) && decide (1 ≤ r.f 0x18 4) && decide (r.f 0x18 4 ≤ 1048576)))
    St.badField
  guard' (!setsField r 6 || r.f 0x10 4 &&& Fl.bySet = r.f 0x10 4) St.badField
  guard' (!setsField r 5 || holdsStop s x.tableGen (r.f 0x1C 4)) St.genNotResident

/-- The entry with the selected fields changed. -/
def setEntry (r : Req) (x : Session) : Session :=
  { x with
    priority := if setsField r 0 then r.f 0x0C 1 else x.priority
    maxNew := if setsField r 1 then r.f 0x14 4 else x.maxNew
    maxLength := if setsField r 2 then r.f 0x18 4 else x.maxLength
    stopCt := if setsField r 3 then r.f 0x20 8 else x.stopCt
    castAfter := if setsField r 4 then r.f 0x28 8 else x.castAfter
    stopSet := if setsField r 5 then r.f 0x1C 4 else x.stopSet
    flags := if setsField r 6 then BitVec.ofNat 32 (x.flags.toNat - (x.flags.toNat &&& Fl.bySet) + r.f 0x10 4) else x.flags }

/-- SESSION_SET on an active session at a step boundary (R82, R91). -/
def setNow (r : Req) (id : Nat) (s : State) : Reply :=
  match getSess s id with
  | none => .err s stGone
  | some x =>
    if x.st = .faulted || x.st = .retiring then .err s stWrong
    else
      checked s (setCheck r x s) fun _ =>
        let y := setEntry r x
        let s := modSess id (fun _ => y) s
        let again := sflag x.flags Fl.autoCast ≠ sflag y.flags Fl.autoCast || x.castAfter ≠ y.castAfter
        .ok (if again then rearmCast id s else s)

/-- SESSION_SET on a parked session: its cast image's entry and its directory entry change (DEDUCED, log entry 26). -/
def setParked (r : Req) (id : Nat) (s : State) : Reply :=
  match (getStore s id).image with
  | none => .err s stWrong
  | some x =>
    checked s (setCheck r x s) fun _ =>
      let y := setEntry r x
      .ok (modDir id (fun e => { e with priority := y.priority
                                        flags := e.flags &&& ~~~(BitVec.ofNat 32 Fl.bySet) ||| (y.flags &&& BitVec.ofNat 32 Fl.bySet) })
        (modStore id (fun t => { t with image := some y }) s))

/-- SESSION_SET on a session parked here with its cast image on another chip: the home chip checks the fields and changes its
directory entry, and the image's chip changes the image (DEDUCED, log entry 26). -/
def setAway (r : Req) (id : Nat) (e : DirEntry) (s : State) : Reply :=
  let x : Session := { id, length := e.length, tableGen := e.tableGen, priority := e.priority, flags := e.flags }
  if !linkUp s (imageChip e) then .err s stLinkDown
  else
    checked s (setCheck r x s) fun _ =>
      let y := setEntry r x
      forwardTo (imageChip e) r (modDir id (fun e => { e with priority := y.priority, flags := y.flags }) s)

/-- SESSION_SET, applied at the step boundary. -/
def bodySessionSet (_ : Moment) (r : Req) (s : State) : Reply :=
  onSession r s fun id h =>
    match h with
    | .parked e => if imageChip e = chip s then setParked r id s else setAway r id e s
    | .active x => if x.st = .faulted then .err s stWrong else atStep r x s (setNow r id s)

/-! ### SESSION_REBIND (R69) -/

def opSessionRebind : OpInfo := { opcode := 0x0106 }

/-- A run-ahead's claim gives way to a rebind or a retirement (R116): it is cancelled here, or by a message to its chip. -/
def dropClaim (id : Nat) (e : DirEntry) (s : State) : State :=
  if e.dstate = .claimed && e.provisional then
    match fopOf s id [.runAhead] with
    | some (n, _) => cancelRunAhead n 4 s
    | none => modDir id unclaim (sendSwl (.swilan (linkTo s e.activeChip) 0 1 id [DState.parked.code, 0, 0] []) s)
  else s

/-- SESSION_REBIND: applied at once where it may take effect, else it waits as an operation until it does (R69, R91). -/
def bodySessionRebind (_ : Moment) (r : Req) (s : State) : Reply :=
  onSession r s fun id h =>
    match h with
    | .parked e =>
      let a := rebindNow r id h s
      if a.status ≠ 0 then a
      else
        let s := dropClaim id e s
        rebindNow r id (.parked ((getDir s id).getD e)) s
    | .active x =>
      if x.st = .faulted || x.st = .retiring then .err s stWrong
      else if rebindOpen s x && x.waiting.isEmpty then rebindNow r id h s
      else asOp r s 1 0 0 true [] fun _ s => showRebind id (addWaiting id r s)

/-- The end of a rebind that waits: only a CANCEL ends it so; it is then no longer recorded (R44). -/
def endSessionRebind (n : Nat) (o : LongOp) (s : State) : State :=
  if o.cancelling then
    let id := o.req.f 0 8
    endOp n St.cancelled 0 [] (showRebind id (modSess id (fun x => { x with waiting := x.waiting.filter (· ≠ o.req) }) s))
  else s

/-! ### SESSION_RETIRE (R64) -/

def opSessionRetire : OpInfo := { opcode := 0x0107 }

/-- The model's own code of a message that tells a session's home that its armed chain has gone (log entry 13). -/
def disarmCode : Nat := 0x11

/-- The armed chain of a session goes back to POSTED (R366). A session parked here with its entry at its home is disarmed there by a
message. -/
def disarm (id : Nat) (s : State) : State :=
  let mine (c : Chain) : Bool := c.cstate = .armed && c.session = id && id ≠ 0
  let off (f : BitVec 32) := setFlag f Fl.armed false
  let s := { s with net := { s.net with chains := s.net.chains.map (fun e =>
    if mine e.2 then (e.1, { e.2 with cstate := .posted, session := 0 }) else e) } }
  let was := (getStore s id).image.any (fun x => sflag x.flags Fl.armed)
  let s := if was && homeOf id ≠ chip s && (getDir s id).isNone then
      sendSwl (.swilan (linkTo s (homeOf id)) 0 1 id [disarmCode] []) (modStore id (fun t => { t with
        image := t.image.map (fun x => { x with armChain := ones32, flags := off x.flags }) }) s)
    else s
  modDir id (fun e => if e.kept then { e with armChain := ones32, flags := off e.flags } else e)
    (modSess id (fun x => { x with armChain := ones32, flags := off x.flags }) s)

/-- The importing chip tells the source that a session has been retired (R369). -/
def tellRetired (id : Nat) (s : State) : State :=
  match importAt s id with
  | none => s
  | some (_, e) =>
    match qpOf s e.exportPeer with
    | none => s
    | some (i, _) =>
      match gxWrite i { owner := .retired id, lastPsn := 0 } 0xFFFFFFFF 0 [] { trigger := true, tag := 0xFFFFFFF1, payload := u64 id } s with
      | .ok s => s
      | .error _ => s

/-- Releases what a session holds in storage, here and on other chips, and its index (R64, R79, R101, R306). -/
def releaseAll (id : Nat) (s : State) : State :=
  let s := (journalChips s id).foldl (fun s c => sendSwl (.swilan (linkTo s c) 0 1 id [DState.retiring.code, 0, 0] []) s) s
  let s := dropJournal id (dropPages id (dropTables id s))
  let s := tellRetired id s
  freeDir id { s with pln := { s.pln with store := tdel s.pln.store id } }

/-- A request that waited for a session that is being retired (R91): a rebind's answer is WRONG_STATE, another's SESSION_GONE. -/
def answerGone (r : Req) (s : State) : State := answer r (.err s (if isRebind r then stWrong else stGone))

/-- The retirement of an active session (R64, R306). -/
def retireActive (x : Session) (s : State) : State :=
  let id := x.id
  let shadow := isShadow s id
  let s := setState id .retiring (leaveQueue id s)
  let s := modDir id (fun e => { e with dstate := .retiring }) s
  let s := dropIntake id (disarm id (skipHeld id s))
  let s := updateCredit id s
  let credit := ((getSess s id).map (·.credit)).getD 0
  let s := if shadow then s else creditOut x.cls credit id s
  let s := releaseAll id (freeSlot id (bindGen x.tableGen (-1) s))
  x.waiting.foldl (fun s r => answerGone r s) s

/-- The retirement of a parked session (R64). -/
def retireParked (id : Nat) (e : DirEntry) (s : State) : State :=
  let shadow := isShadow s id
  let waiting := ((getStore s id).image.map (·.waiting)).getD []
  let s := modDir id (fun e => { e with dstate := .retiring }) (disarm id (skipHeld id s))
  let s := if imageChip e = chip s then s
    else sendSwl (.swilan (linkTo s (e.imageLoc / 2 ^ 61)) 0 1 id [DState.retiring.code, 0, 0] []) s
  let s := if shadow || imageChip e ≠ chip s then s else creditOut e.cls e.credit id s
  let s := releaseAll id (if homeOf id = chip s then bindGen e.tableGen (-1) s else s)
  waiting.foldl (fun s r => answerGone r s) s

/-- Whether a retirement may take effect: nothing of the session in flight or moving, and nothing waiting before it but rebinds
that wait for a partly cut intake (R64, R91). -/
def retireOpen (s : State) (x : Session) : Bool :=
  settled s x && !moving s x.id && !([SState.parking, .raising, .migratingOut, .migratingIn].contains x.st)

/-- SESSION_RETIRE: at once, or as an operation once the session is at rest. -/
def bodySessionRetire (_ : Moment) (r : Req) (s : State) : Reply :=
  onSession r s fun id h =>
    match h with
    | .parked e =>
      let s := dropClaim id e s
      .ok (retireParked id ((getDir s id).getD e) s)
    | .active x =>
      if x.st = .retiring then .err s stWrong
      else if retireOpen s x && x.waiting.all isRebind then .ok (retireActive x s)
      else asOp r s 1 2 0 false [] fun _ s => addWaiting id r s

/-! ### SESSION_ARM (R83) -/

def opSessionArm : OpInfo := { opcode := 0x0108 }

/-- A chain that a handle names, of a partition (R364). -/
def chainOf (s : State) (p h : Nat) : Option (Nat × Chain) :=
  match tget s.net.chains (h % 65536) with
  | some c => if c.gen = h / 65536 && c.partition = p && h ≠ ones32 then some (h % 65536, c) else none
  | none => none

/-- A tag is that of an ARMED chain of a partition (R364). -/
def tagArmed (s : State) (p tag : Nat) : Bool :=
  s.net.chains.any (fun e => e.2.cstate = .armed && e.2.partition = p && e.2.tag = tag)

/-- SESSION_ARM in a state that takes it. A chain that is armed for the session already stays so. -/
def armNow (id p h : Nat) (s : State) : Reply :=
  if h = ones32 then .ok (disarm id s)
  else
    match chainOf s p h with
    | none => .err s St.connGone
    | some (i, c) =>
      if c.cstate = .armed && c.session = id then .ok s
      else if c.cstate ≠ .posted then .err s stWrong
      else
        let s1 := disarm id s
        if tagArmed s1 p c.tag then .err s St.tagInUse
        else
          let on (f : BitVec 32) := setFlag f Fl.armed true
          let s := { s1 with net := { s1.net with chains := tset s1.net.chains i { c with cstate := .armed, session := id } } }
          .ok (modDir id (fun e => if e.kept then { e with armChain := h, flags := on e.flags } else e)
            (modSess id (fun x => { x with armChain := h, flags := on x.flags }) s))

/-- SESSION_ARM on an active session, in the states of R83. -/
def armActive (r : Req) (x : Session) (s : State) : Reply :=
  if [SState.decode, .toolwait, .parking].contains x.st then armNow x.id x.partition (r.f 8 4) s else .err s stWrong

/-- SESSION_ARM: attaches, replaces or detaches a session's chain, after what was taken for the session before (R66). -/
def bodySessionArm (_ : Moment) (r : Req) (s : State) : Reply :=
  onSession r s fun id h =>
    match h with
    | .parked e => armNow id e.partition (r.f 8 4) s
    | .active x => inOrder r x s (armActive r x s)

/-! ### SESSION_LIST -/

def opSessionList : OpInfo := { opcode := 0x0109, mctp := true }

/-- A line of SESSION_LIST: session, slot and state. -/
structure ListRow where
  id   : Nat
  slot : Nat
  st   : Nat
  deriving DecidableEq, Repr

/-- The sessions of this chip that a list selects, in ID order (R91). -/
def listRows (r : Req) (s : State) : List ListRow :=
  let want (p slot st : Nat) : Bool := r.reaches p && bit (r.f 0 2) st && (r.f 2 1 = 0xFF || r.f 2 1 = slot)
  let act := (s.pln.slots.filter (fun e => want e.2.partition e.2.modelSlot e.2.st.code)).map
    (fun e => ({ id := e.2.id, slot := e.1, st := e.2.st.code } : ListRow))
  let par := ((s.pln.dir ++ s.fdy.imports).filter (fun e =>
      e.2.kept && (getSess s e.2.id).isNone && (e.2.dstate = .parked || e.2.provisional) && want e.2.partition e.2.modelSlot 6)).map
    (fun e => ({ id := e.2.id, slot := 0, st := 6 } : ListRow))
  sortBy (fun a b => decide (a.id ≤ b.id)) (act ++ par)

/-- SESSION_LIST: a long operation in unit SESSIONS. -/
def bodySessionList (_ : Moment) (r : Req) (s : State) : Reply :=
  if 8192 ≤ r.f 0 2 || (63 < r.f 2 1 && r.f 2 1 ≠ 0xFF) then .err s St.badField
  else
    match sgList r s with
    | .error e => .sg r s e
    | .ok _ => asOp r s 1 3 (listRows r s).length true [] fun _ s => s

def execSessionList (m : Moment) (r : Req) (s : State) : Out := .next (runCommand opSessionList bodySessionList m r s)

/-- The end of a SESSION_LIST: whole records while the list has room (R91, R528). -/
def endSessionList (n : Nat) (o : LongOp) (s : State) : State :=
  if o.cancelling then endOp n St.cancelled 0 [] s
  else
    match sgList o.req s with
    | .error e => answer o.req (.sg o.req s e)
    | .ok l =>
      let rows := listRows o.req s
      let k := min rows.length (sgTotal l / 16)
      match sgWrite l ((rows.take k).flatMap (fun x => u64 x.id ++ u16 x.slot ++ u8 x.st ++ zeros 5)) s with
      | (s, none) => answer o.req (.ok (progressOp n 1 k o.prog.total s) (u32 k ++ u8 (b2n (decide (k < rows.length))) ++ zeros 3))
      | (s, some e) => answer o.req (.sg o.req s e)

/-! ### JOURNAL_READ -/

def opJournalRead : OpInfo := { opcode := 0x010A }

/-- JOURNAL_READ: records of journalled positions, through the scatter list (R70, R91). -/
def bodyJournalRead (_ : Moment) (r : Req) (s : State) : Reply :=
  onStore r s fun id h =>
    let x := entryOf s id h
    let a := r.f 8 4
    let n := r.f 0x0C 4
    if a < x.prefixLen || x.length < a + n then .err s St.badField
    else replyData r (4 * n) ((((getStore s id).journal.drop (a - x.prefixLen)).take n).flatMap u32) [] s

def execJournalRead (m : Moment) (r : Req) (s : State) : Out := .next (runCommand opJournalRead bodyJournalRead m r s)

/-! ### PLN_CONFIG -/

def opPlnConfig : OpInfo := { opcode := 0x010B, pf0 := true, rbits := [(0x16, 1, 0xFE)], rsvd := [(0x17, 1)] }

/-- PLN_CONFIG: batching, slot pressure and the cast defaults (R85, R88, R91, R530). -/
def bodyPlnConfig (_ : Moment) (r : Req) (s : State) : Reply :=
  let d := r.f 4 4
  let v := r.f 8 4
  let lo := r.f 0x0C 4
  let hi := r.f 0x10 4
  if 1000000 < r.f 0 4 || d < 8192 || 65536 < d || d % 256 ≠ 0 || d < v + 1024 || v % 256 ≠ 0 || (lo ≠ 0 && hi ≤ lo)
      || 2 < r.f 0x14 1 || 2 < r.f 0x15 1 then .err s St.badField
  else
    .ok { s with pln := { s.pln with
      batchWait := r.f 0 4, dispatch := d, reserve := v, slotLow := lo, slotHigh := hi, castTier := r.f 0x14 1
      castNarrow := r.f 0x15 1, castWindow := bit (r.f 0x16 1) 0 } }

end Sys2Proof.Machine
end

