-- ==== Sys2Proof/Machine/Regions.lean ====
section
/-! DEFINITION. Memory regions of the network and the bytes behind them (R356, R362, 12). -/

namespace Sys2Proof.Machine

/-- A region that a key names: its index is in range, it is VALID and its generation is the key's (R356, R357 check 4). -/
def regionOf (s : State) (key : Nat) : Option (Nat × Region) :=
  match tget s.net.regions (key / 256) with
  | some r => if key / 256 ≠ 0 && r.rstate = .valid && r.gen = key % 256 then some (key / 256, r) else none
  | none => none

/-- Entry `i` of the page list of a PAGES region. -/
def listPte (s : State) (r : Region) (i : Nat) : Pte := Pte.ofNat (field (devRead s 1 (r.base % 2 ^ 48 + 8 * i) 8) 0 8)

/-- Bytes of a page of a PAGES region: those of the pool of its first entry that lies on this chip (DEDUCED, log entry 27). -/
def listPage (s : State) (r : Region) : Nat :=
  ((List.range (min 4096 (ceilDiv r.length 262144))).findSome? (fun i =>
    let e := listPte s r i
    if e.here s then (tget s.frames.frames (frameKey e.tier e.addr)).map
      (fun f => frameSize { partition := r.partition, tier := 1, pclass := f.pool.pclass, enc := 0 })
    else none)).getD 262144

/-- Whether an entry's page may be written in place: this chip's tier 0 or 1 in the model's format (R134, R362). -/
def listResident (s : State) (e : Pte) : Bool := e.here s && decide (e.tier ≤ 1) && e.enc = 0

/-- The pages of a PAGES region that `n` bytes from `off` touch. -/
def listPages (s : State) (r : Region) (off n : Nat) : List Nat :=
  let z := listPage s r
  if n = 0 then [] else (List.range ((off + n - 1) / z + 1 - off / z)).map (· + off / z)

/-- Where the bytes from `off` lie, piece by piece: tier, address and length. -/
def regionSpots (s : State) (r : Region) (off n : Nat) : List (Nat × Nat × Nat) :=
  match r.backing with
  | 0 => [(r.base / 2 ^ 62, r.base % 2 ^ 48 + off, n)]
  | 1 =>
    let z := listPage s r
    (listPages s r off n).map (fun i =>
      let a := max off (i * z)
      let e := listPte s r i
      (e.tier, e.addr + (a - i * z), min (off + n) ((i + 1) * z) - a))
  | _ => []

/-- Reads bytes of a region; an IMPORT region gives nothing back (R369). -/
def regionRead (s : State) (r : Region) (off n : Nat) : Bytes :=
  fit n ((regionSpots s r off n).flatMap (fun x => shownRead s x.1 x.2.1 x.2.2))

/-- Writes bytes of a region; what is placed in an IMPORT region stays with the import until its commit (R369, log entry 13). -/
def regionWrite (r : Region) (off : Nat) (b : Bytes) (s : State) : State :=
  ((regionSpots s r off b.length).foldl (fun (a : State × Bytes) x =>
    (devWrite x.1 x.2.1 (a.2.take x.2.2) a.1, a.2.drop x.2.2)) (s, b)).1

end Sys2Proof.Machine
end

