-- ==== Sys2Proof/Machine/Chains.lean ====
section
/-! DEFINITION. Armed chains: what a matching message does, their work requests, and the raise-wait queue
(R83, R84, 02; R364 to R368, 12). -/

namespace Sys2Proof.Machine

/-- Changes a chain. -/
def modChain (i : Nat) (f : Chain → Chain) (s : State) : State :=
  { s with net := { s.net with chains := tmod s.net.chains i f } }

/-- The bytes that the message which fired a chain has landed. -/
def landedBytes (s : State) (c : Chain) : Bytes :=
  match c.twin, regionOf s c.landing with
  | some b, _ => b
  | none, some (_, r) => regionRead s r c.landOff c.landed
  | none, none => []

/-- A twin pair's primary mirrors a firing, with its work requests, its second 128 bytes and its landed bytes; that of an admission
chain once its session has its ID (R395; log entry 42). -/
def mirrorFiring (i : Nat) (c : Chain) (s : State) : State :=
  match lockedPair s c.partition with
  | some x =>
    if x.secondary then s
    else sendSwl (.swilan (linkTo s x.peer) 3 11 (chainHandle i c) [c.session, c.landed, c.wrs.length, b2n c.admission]
      (c.wrs.flatten ++ fit 128 c.template ++ landedBytes s c)) s
  | none => s

/-- The request that stands for what a chain asks of a session. -/
def chainReq (c : Chain) : Req := { src := .device c.partition, hdr := { partition := c.partition } }

/-- A chain fails at its present work request (R366). -/
def failChain (i status : Nat) (s : State) : State :=
  match tget s.net.chains i with
  | some c => note 0x0A04 1 c.partition c.session [chainHandle i c, c.next, status] (freeChain i s)
  | none => s

/-! ### Work requests (R365) -/

/-- How a work request ends. -/
inductive WrEnd where
  | done (s : State)
  | failed (status : Nat) (s : State)

/-- A body's reply as the end of a work request. -/
def WrEnd.ofReply (a : Reply) : WrEnd := if a.status = 0 then .done a.st else .failed a.status a.st

/-- Appends a chain's landed bytes or tokens to its session. -/
def wrAppend (m : Moment) (c : Chain) (final toks : Bool) (s : State) : WrEnd :=
  match getSess s c.session with
  | none => .failed stGone s
  | some x =>
    if !intakeState x.st then .failed stWrong s
    else if toks then
      let l := (List.range (c.landed / 4)).map (fun k => field (landedBytes s c) (4 * k) 4)
      if l.any (fun t => decide ((getModel s x.modelSlot).hdr.vocab ≤ t)) then .failed St.badField s
      else .ofReply (appendToks m x 2 l s)
    else .ofReply (appendBytes m x.id final 2 (landedBytes s c) s)

/-- Admits a session from the chain's template and appends the landed bytes as its prompt. -/
def wrAdmit (m : Moment) (i : Nat) (c : Chain) (w : Bytes) (final : Bool) (s : State) : WrEnd :=
  let a := admitAs m c.partition (if c.twin.isSome then some c.session else none) (admitOf (slice c.template (field w 8 4) 0x50)) s
  if a.status ≠ 0 then .failed a.status a.st
  else
    let s := mirrorFiring i { c with session := a.id } (modChain i (fun c => { c with session := a.id }) a.st)
    .ofReply (appendBytes m a.id final 0 (landedBytes s c) s)

/-- Sends chain data to the peer: region key, length and offset in the operands (DESIGN CHOICE, log entry 28). -/
def wrWrite (i : Nat) (c : Chain) (w : Bytes) (s : State) : WrEnd :=
  match qpOf s c.qp with
  | none => .failed St.connGone s
  | some (q, x) =>
    let d := c.template.take (field w 0x0C 4)
    match if x.gx then gxWrite q { owner := .chain i, lastPsn := 0 } (field w 8 4) (field w 0x10 8) d {} s
      else rcSend q { owner := .chain i, lastPsn := 0 } true (field w 8 4) (field w 0x10 8) d none s with
    | .ok s => .done s
    | .error st => .failed st s

/-- Runs one work request of a chain whose session is at rest. -/
def runWr (m : Moment) (i : Nat) (c : Chain) (w : Bytes) (s : State) : WrEnd :=
  let final := bit (field w 1 1) 0
  match field w 0 1 with
  | 0 => .done s
  | 1 => wrAppend m c final false s
  | 2 => wrAppend m c final true s
  | 3 => wrAdmit m i c w final s
  | 4 => if c.twin.isSome then .done s else wrWrite i c w s
  | _ => if c.twin.isSome then .done s else .done (logEvent { code := 0x0A03, sev := 0, part := c.partition, session := c.session, info := slice w 8 24 } s)

/-! ### The raise of a chain's session (R83, R84, R115) -/

/-- A raise that an armed chain or the raise-wait queue asks for (R84, R109, R115): this chip's run-ahead is promoted, and a session homed
on another chip is claimed there. -/
def armedRaise (m : Moment) (p id : Nat) (s : State) : Reply :=
  let r : Req := { src := .device p, hdr := { partition := p } }
  match fopOf s id [.runAhead], getDir s id with
  | some _, _ => promoteBody m id true s
  | none, some e => raiseHere m r false id e s
  | none, none => if homeOf id = chip s then .err s stGone else raiseAway m r id p s

/-- The priority at which a parked session's raise waits, as far as this chip knows it (R84). -/
def raisePriority (s : State) (id : Nat) : Nat :=
  match getDir s id with
  | some e => e.priority
  | none => (((getStore s id).image).map (·.priority)).getD 0

/-- The partition of a parked session, as far as this chip knows it. -/
def raisePart (s : State) (id : Nat) : Nat :=
  match getDir s id, fopOf s id [.runAhead] with
  | some e, _ => e.partition
  | none, some (_, f) => f.partition
  | none, none => (getStore s id).partition

/-- Whether a raise must wait: for a slot, or for one of R123's operations to end (R84). -/
def mustWait (m : Moment) (s : State) : Bool := (pickSlot m 0 s).isNone || decide (4096 ≤ moveOps s)

/-- Starts the raise of a chain's parked session, promotes its run-ahead, or queues it; a failure's status. -/
def chainRaise (m : Moment) (i : Nat) (c : Chain) (s : State) : Except Nat State :=
  let id := c.session
  if s.pln.raiseWait.any (fun w => w.session = id) || (fopOf s id [.raise]).isSome
      || (getDir s id).any (fun e => e.dstate = .claimed && !e.provisional) then .ok s
  else if mustWait m s then
    .ok (queueRaise { session := id, partition := c.partition, priority := raisePriority s id, fop := ((fopOf s id [.runAhead]).map (·.1)).getD 0, chain := chainHandle i c } s).2
  else
    let a := armedRaise m c.partition id s
    if a.status = 0 then .ok a.st else .error a.status

/-- Whether a session that has no slot here may be parked: its entry says so, or lies on another chip. -/
def mayBeParked (s : State) (id : Nat) : Bool :=
  match getDir s id with
  | some e => e.kept
  | none => homeOf id ≠ chip s

/-- The model's own opcode of the recorded event that a FIRING chain goes on (R66). -/
def chainGoesOn : Nat := 0x10000

/-- A FIRING chain's going on, as its session records it in the order of R66. -/
def chainEvent (i : Nat) (c : Chain) : Req :=
  { src := .device c.partition, hdr := { opcode := chainGoesOn, partition := c.partition }, payload := u64 c.session ++ u32 i }

/-- A FIRING chain waits for what was taken for its session before. -/
def recordChain (i : Nat) (c : Chain) (x : Session) (s : State) : State :=
  if x.waiting.contains (chainEvent i c) then s else addWaiting x.id (chainEvent i c) s

/-- A chain that is FIRING goes on as far as it can: it waits while its session is being cast or raised (R83), and for the changes and
the appends recorded before it (R66). -/
def runChain (m : Moment) (i : Nat) : Nat → State → State
  | 0, s => s
  | fuel + 1, s =>
    match tget s.net.chains i with
    | none => s
    | some c =>
      if c.cstate ≠ .firing then s
      else
        match c.wrs[c.next]? with
        | none => freeChain i s
        | some w =>
          let run (s : State) : State :=
            match runWr m i c w s with
            | .done s => runChain m i fuel (modChain i (fun c => { c with next := c.next + 1 }) s)
            | .failed st s => failChain i st s
          if c.admission then run s
          else
            match getSess s c.session with
            | some x =>
              if [SState.parking, .raising].contains x.st then s
              else if holdsBack s x || laneHas s x.id then recordChain i c x s
              else run s
            | none =>
              if mayBeParked s c.session then
                (match chainRaise m i c s with
                | .ok s => s
                | .error st => failChain i st s)
              else failChain i stGone s

/-- Fires a chain: its session is disarmed and its work requests run (R366). A twin pair's primary mirrors the firing (R395). -/
def fireChain (m : Moment) (i : Nat) (s : State) : State :=
  match tget s.net.chains i with
  | none => s
  | some c =>
    let s := modChain i (fun c => { c with cstate := .firing }) s
    let s := if c.session = 0 then s else disarm c.session s
    let s := if c.admission then s else mirrorFiring i c s
    runChain m i (c.wrs.length + 1) s

/-- A mirrored firing arrives at the secondary: its work requests run for the shadow, but for WRITE and NOTIFY, which are the
primary's (R395; log entry 42). It is held beside the chains that have handles. -/
def shadowFiring (m : Moment) (r : Req) (s : State) : State :=
  let n := r.f 0x0C 1
  let c : Chain :=
    { cstate := .firing, partition := r.part16, tag := 0, qp := ones32, landing := ones32, session := r.f 0 8, landed := r.f 8 4
      wrs := (List.range n).map (fun k => r.b (0x10 + 32 * k) 32), template := r.b (0x10 + 32 * n) 128
      admission := r.f 0x0D 1 = 1, twin := some (r.b 3968 (r.f 8 4)) }
  match (List.range (s.net.chains.length + 1)).find? (fun k => !thas s.net.chains (65536 + k)) with
  | some k => runChain m (65536 + k) (n + 1) { s with net := { s.net with chains := tset s.net.chains (65536 + k) c } }
  | none => s

/-! ### Matching messages (R366 to R368) -/

/-- What a matching seal does. -/
inductive Fired where
  /-- The message is complete, whether a chain acted on it or not. -/
  | applied (s : State)
  /-- It cannot proceed: NAK code, device status and backoff in µs. -/
  | nak (code status backoff : Nat) (s : State)

/-- The ARMED chain that a tag on a queue pair of a partition matches (R364, R368). -/
def chainFor (s : State) (p qp tag : Nat) : Option (Nat × Chain) :=
  s.net.chains.find? (fun e => e.2.cstate = .armed && e.2.partition = p && e.2.tag = tag && (e.2.qp = ones32 || e.2.qp = qp))

/-- The backoff that ends at a ct, in µs (R361). -/
def backoffTo (s : State) (ct : Nat) : Nat := ceilDiv (ct - s.ct) 1000

/-- A matching seal of an armed admission chain (R367). -/
def sealAdmission (m : Moment) (i : Nat) (c : Chain) (s : State) : Fired :=
  let w := (c.wrs.find? (fun w => field w 0 1 = 3)).getD []
  let a := admitAs m c.partition none (admitOf (slice c.template (field w 8 4) 0x50)) s
  if a.status = 0 then .applied (fireChain m i s)
  else if a.status = St.busyRetry && a.retry ≠ 0 then .nak 4 0 (backoffTo s a.retry) a.st
  else if s.bench.devState = .safe || s.err.shutdown.isSome then .nak 3 0 s.net.busyBackoff a.st
  else .nak 0x12 a.status 0 a.st

/-- A matching seal of a chain whose session is parked (R83, R84, R367). -/
def sealParked (m : Moment) (i id : Nat) (s : State) : Fired :=
  let full := decide (4096 ≤ s.pln.raiseWait.length)
  let ahead := (fopOf s id [.runAhead]).isSome || (getDir s id).any (fun e => e.dstate = .claimed && e.provisional)
  if (pickSlot m 0 s).isNone && ahead then .nak 3 0 s.net.busyBackoff s
  else if mustWait m s && full then .nak 3 0 s.net.busyBackoff (queueRaise { session := id, partition := raisePart s id, priority := raisePriority s id } s).2
  else .applied (fireChain m i s)

/-- A matching message's seal is ready to be applied: its chain fires, is held, or is left ARMED (R366, R367). -/
def sealChain (m : Moment) (p qp tag landOff landed : Nat) (s : State) : Fired :=
  match chainFor s p qp tag with
  | none => .applied s
  | some (i, c) =>
    let s := modChain i (fun c => { c with landOff, landed, qp, next := 0 }) s
    let back (s : State) : State := modChain i (fun d => if d.cstate = .armed then { d with qp := c.qp } else d) s
    let skip (code : Nat) : Fired := .applied (note 0x0A05 0 p c.session [chainHandle i c, code] (back s))
    match if c.admission then sealAdmission m i c s
      else
        match getSess s c.session with
        | some x =>
          match x.st with
          | .toolwait => .applied (fireChain m i s)
          | .parking => .applied (fireChain m i s)
          | .decode => .applied (modChain i (fun c => { c with cstate := .held }) (hold c.session i s))
          | .raising => .applied (modChain i (fun c => { c with cstate := .held }) (hold c.session i s))
          | .stopped => skip x.st.code
          | .faulted => skip x.st.code
          | _ => .applied (refuse p (back s))
        | none =>
          if mayBeParked s c.session then sealParked m i c.session s else .applied (refuse p (back s)) with
    | .applied s => .applied s
    | .nak a b k s => .nak a b k (back s)
where
  /-- Clears the session's ARMED, keeping the chain out of POSTED. -/
  hold (id i : Nat) (s : State) : State := disarm id (modChain i (fun c => { c with cstate := .held }) s)

/-- The first packet of a matching message: a parked session's run-ahead starts (R114, R366). -/
def chainAhead (p qp tag : Nat) (s : State) : State :=
  match chainFor s p qp tag with
  | none => s
  | some (_, c) =>
    let id := c.session
    let open_ := match getDir s id with
      | some e => e.dstate = .parked && genResident s e.tableGen e.partition e.modelSlot
      | none => homeOf id ≠ chip s && linkUp s (homeOf id) && (getSess s id).isNone && (fopOf s id [.raise, .runAhead]).isNone
    if id ≠ 0 && open_ && decide ((runAheads s).length < 1024) then (runAheadStart (chainReq c) id c.partition s).st else s

/-- The seal of a matching message has failed: the run-ahead that it started is cancelled (R366). -/
def chainSealFailed (p qp tag : Nat) (s : State) : State :=
  match chainFor s p qp tag with
  | none => s
  | some (_, c) =>
    match fopOf s c.session [.runAhead] with
    | some (n, _) => cancelRunAhead n 3 s
    | none => s

/-- Chains of a queue pair that has failed, other than those FIRING, are freed (R352, R366). -/
def freeQpChains (qp : Nat) (s : State) : State :=
  (s.net.chains.filter (fun e => e.2.qp = qp && e.2.cstate ≠ .firing)).foldl (fun s e => freeChain e.1 s) s

/-! ### The raise-wait queue (R84) -/

/-- The entry served next: the least priority value, then the earliest. -/
def nextRaise (s : State) : Option RaiseWait :=
  s.pln.raiseWait.foldl (fun (b : Option RaiseWait) w =>
    match b with
    | none => some w
    | some v => if w.priority < v.priority then some w else b) none

/-- RAISE_WAIT_DEQUEUE: a free slot serves the raise-wait queue (R84). A raise that fails takes its chain with it. -/
def dequeueRaise (m : Moment) (s : State) : State :=
  match nextRaise s with
  | none => s
  | some w =>
    if mustWait m s then s
    else
      let s := { s with pln := { s.pln with raiseWait := s.pln.raiseWait.erase w } }
      let a := armedRaise m (raisePart s w.session) w.session s
      if a.status = 0 then a.st else chainFail w.session a.status a.st

/-! ### Pressure casts (R85) -/

/-- What a pressure-cast candidate is ordered by: TOOLWAIT first, YELLOW first, then the earliest ct. -/
def pressureKey (x : Session) : Nat :=
  (b2n (x.st ≠ .toolwait) * 2 + b2n (!sflag x.flags Fl.yellow)) * 2 ^ 64 + (if x.st = .toolwait then x.ctToolwait else x.ctLast)

/-- The next candidate of an episode. -/
def pressureNext (s : State) : Option Session :=
  let l := (s.pln.slots.map (·.2)).filter (fun x =>
    (x.st = .toolwait || x.st = .stopped) && !x.castSkipped && settled s x && x.waiting.isEmpty && !moving s x.id && !isShadow s x.id)
  l.foldl (fun (b : Option Session) x =>
    match b with
    | none => some x
    | some y => if pressureKey x < pressureKey y then some x else b) none

/-- Casts under way, each of which will free a slot. -/
def castsRunning (s : State) : Nat := (s.fdy.ops.filter (fun e => e.2.kind = .cast)).length
def pressureRunning (s : State) : Bool := s.fdy.ops.any (fun e => e.2.kind = .cast && e.2.pressure)

/-- Requests casts while they are wanted and a candidate remains, at most `fuel` of them. -/
def pressureCasts (m : Moment) : Nat → State → State
  | 0, s => s
  | fuel + 1, s =>
    match s.pln.episode with
    | none => s
    | some ep =>
      if s.pln.slotHigh ≤ slotsFree s + castsRunning s then s
      else
        match pressureNext s with
        | none => s
        | some x =>
          pressureCasts m fuel (requestCast m true x
            { s with pln := { s.pln with episode := some { ep with requested := ep.requested + 1 } } })

/-- An episode of slot pressure begins when the free slots fall below SLOT_LOW (R85). -/
def pressureBegin (s : State) : State :=
  let short := s.pln.slotLow ≠ 0 && decide (slotsFree s < s.pln.slotLow)
  let t := { s with pln := { s.pln with slotsShort := short } }
  if short && !s.pln.slotsShort && s.pln.episode.isNone then
    { t with pln := { t.pln with
      episode := some {}, slots := t.pln.slots.map (fun e => (e.1, { e.2 with castSkipped := false })) } }
  else t

/-- Slot pressure: an episode begins, requests its casts and ends with one PRESSURE_CAST event (R85). -/
def pressure (m : Moment) (s : State) : State :=
  let s := pressureBegin s
  let s := if s.pln.slotLow = 0 then s else pressureCasts m s.pln.slots.length s
  match s.pln.episode with
  | none => s
  | some ep =>
    if s.pln.slotHigh ≤ slotsFree s || (!pressureRunning s && (pressureNext s).isNone) || s.pln.slotLow = 0 then
      logEvent { code := 0x0103, sev := 0, info := u32 ep.requested ++ u32 ep.committed ++ u32 (slotsFree s) }
        { s with pln := { s.pln with episode := none } }
    else s

end Sys2Proof.Machine
end

