-- ==== Sys2Proof/Machine/Cuts.lean ====
section
/-! DEFINITION. Checkpoint groups and cuts: capture, the store's layout, the stages of a cut and its triggers
(R407 to R419, 14). -/

namespace Sys2Proof.Machine

namespace St
def storeFull : Nat := 0x0C01
def storeLost : Nat := 0x0C02
def noCut : Nat := 0x0C03
def shardInvalid : Nat := 0x0C04
def mixedCut : Nat := 0x0C05
def unitBusy : Nat := 0x0C06
end St

/-! ### Groups and their store area (R407, R409) -/

def getGroupCk (s : State) (g : Nat) : Option CkGroup := tget s.mld.groups g
def setGroupCk (g : Nat) (x : CkGroup) (s : State) : State := { s with mld := { s.mld with groups := tset s.mld.groups g x } }
def modCk (g : Nat) (f : CkGroup → CkGroup) (s : State) : State := { s with mld := { s.mld with groups := tmod s.mld.groups g f } }

/-- The LBA size of a group's namespace, 0 where there is none. -/
def lbaSize (s : State) (qp nsid : Nat) : Nat := ((ctrlOn s qp).bind (fun c => tget c.2.namespaces nsid)).getD 0

/-- M, the blocks of a manifest slot. -/
def slotBlocks (l maxShards : Nat) : Nat := ceilDiv (4096 + 32 * maxShards) l + 1

/-- H, the blocks of a shard half. -/
def halfBlocks (l lbaCount maxShards : Nat) : Nat := (lbaCount - 2 * slotBlocks l maxShards) / 2

/-- CRC-64/XZ (R423). -/
def crc64xz (b : Bytes) : Nat := crcRun 0xC96C5795D7870F42 ones64 b ^^^ ones64

/-- Code of a cut state as MLD_GROUP_QUERY returns it: its phase code, 0 IDLE, 7 QUEUED. -/
def CutState.code : CutState → Nat
  | .idle => 0
  | .capture => 1
  | .invalidate => 2
  | .writing => 3
  | .flush => 4
  | .manifest => 5
  | .commit => 6
  | .queued => 7

/-! ### References on captured frames (R414, R415) -/

/-- Clears COW on a session's private pages that no other holder has any more (R141). -/
def clearCow (id : Nat) (s : State) : State :=
  if !thas s.pln.store id then s
  else modStore id (fun t => { t with pages := { t.pages with ptes := t.pages.ptes.map (fun e =>
    if e.2.cow && e.2.here s && frameRefs s e.2.tier e.2.addr ≤ 1 then (e.1, { e.2 with cow := false }) else e) } }) s

/-- Releases the CUT references of a captured session. -/
def dropCut (c : Captured) (s : State) : State :=
  clearCow c.session (c.frames.foldl (fun s k => dropHolder (k / 2 ^ 60) (k % 2 ^ 60) hCut c.session s) s)

/-- The NVMe-oF commands of an owner are given up. -/
def dropCmds (o : NvOwner) (s : State) : State :=
  { s with net := { s.net with cmds := s.net.cmds.filter (fun e => e.2.owner ≠ o) } }

/-! ### Capture (R414) -/

/-- Whether a group selects a session by its filters. -/
def ckMatches (x : CkGroup) (p slot cls : Nat) : Bool :=
  x.partition = p && (x.modelSlot = 0xFF || x.modelSlot = slot) && decide (x.classLo ≤ cls) && decide (cls ≤ x.classHi)

/-- Whether a directory entry is parked, a run-ahead's claim included. -/
def parkedHere (e : DirEntry) : Bool := e.dstate = .parked || (e.dstate = .claimed && e.provisional)

/-- Sessions that a group selects: active on this chip, or parked with this chip as home; never a twin shadow. -/
def ckSelect (s : State) (x : CkGroup) : List Nat :=
  ((s.pln.slots.filter (fun e => ckMatches x e.2.partition e.2.modelSlot e.2.cls && !isShadow s e.2.id)).map (fun e => e.2.id))
    ++ ((s.pln.dir.filter (fun e => parkedHere e.2 && homeOf e.2.id = chip s && ckMatches x e.2.partition e.2.modelSlot e.2.cls)).map
      (fun e => e.2.id))

/-- The frames on which a capture takes a reference: the pages on this chip, the journal blocks and the table frame. -/
def ckFrames (s : State) (t : Store) : List Nat :=
  (t.pages.ptes.filter (fun e => e.2.here s)).map (fun e => frameKey e.2.tier e.2.addr)
    ++ (t.blocks.filter (fun b => !thas t.blockChips b.1)).map (fun b => frameKey 1 b.2)
    ++ (if t.recFrame = 0 || t.recChip.isSome then [] else [frameKey 1 t.recFrame])

/-- Takes CUT references on frames; each with the frame that the cut holds, which is a private copy of one whose count is at its highest
(R140). -/
def cutHold (m : Moment) (id : Nat) (l : List Nat) (s : State) : Except Lack (Tab Nat × State) :=
  l.foldl (fun acc k =>
    match acc with
    | .error e => .error e
    | .ok (held, s) =>
      match shareFrame m 0 (k / 2 ^ 60) (k % 2 ^ 60) hCut id s with
      | .error e => .error e
      | .ok (a, s) => .ok (tset held k (frameKey (k / 2 ^ 60) a), s)) (.ok ([], s))

/-- What a cut holds of a session: its storage, with the cut's own copies in place of frames whose count is at its highest. -/
def heldStore (s : State) (t : Store) (held : Tab Nat) : Store :=
  { t with pages := { t.pages with ptes := t.pages.ptes.map (fun e =>
    match if e.2.here s then tget held (frameKey e.2.tier e.2.addr) else none with
    | some k => if k % 2 ^ 60 = e.2.addr then e else (e.1, { pteOf s e.2.tier e.2.enc (k % 2 ^ 60) with shared := e.2.shared })
    | none => e) } }

/-- A session is left out of a cut. -/
def leaveOut (g id : Nat) (s : State) : State :=
  let p := ((getGroupCk s g).map (·.partition)).getD 0
  bump .mldSkipped p 1 (modCk g (fun c => { c with toCapture := c.toCapture.erase id, skipped := c.skipped + 1 }) s)

/-- Captures one session as entry `x` (R414). One for which a private copy finds no frame is left out (R140; log entry 60). -/
def captureAs (m : Moment) (g id : Nat) (x : Session) (s : State) : State :=
  let t := getStore s id
  match cutHold m id (ckFrames s t) s with
  | .error l => leaveOut g id (starve l s)
  | .ok (held, s) =>
    let s := modStore id (fun t => { t with pages := { t.pages with ptes := t.pages.ptes.map (fun e =>
      if e.1 % 4096 = x.length / 256 && e.2.valid && !e.2.shared then (e.1, { e.2 with cow := true }) else e) } }) s
    modCk g (fun c => { c with
      toCapture := c.toCapture.erase id
      captured := c.captured ++ [{ session := id, entry := x, store := heldStore s t held, length := x.length, ct := s.ct
                                   frames := held.map (·.2) }] }) s

/-- Captures a session that is at a step boundary in a state that admits it, or leaves out one that has gone. -/
def tryCapture (m : Moment) (g id : Nat) (s : State) : State :=
  match getSess s id with
  | some x =>
    if (x.st = .decode || x.st = .toolwait || x.st = .stopped) && atBoundary x then captureAs m g id x s
    else if x.st = .retiring then leaveOut g id s
    else s
  | none =>
    match getDir s id, (getStore s id).image with
    | some e, some x =>
      if parkedHere e then
        captureAs m g id { x with st := e.resume, tableGen := e.tableGen, grammarImage := e.grammarImage, credit := e.credit, flags := e.flags } s
      else leaveOut g id s
    | some e, none => if e.dstate = .claimed then s else leaveOut g id s
    | none, _ => leaveOut g id s

/-! ### Ends of a cut (R418) -/

/-- Cuts that run on this chip. -/
def cutsRunning (s : State) : Nat := (s.mld.groups.filter (fun e => e.2.cstate ≠ .idle && e.2.cstate ≠ .queued)).length

/-- Assigns the cut ID and the step, and begins the capture. -/
def cutAssign (g : Nat) (s : State) : State :=
  match getGroupCk s g with
  | none => s
  | some x =>
    let n := s.aon.cutSerial
    let s := setGroupCk g { x with
      cstate := .capture, cutId := chip s * 2 ^ 61 + n, step := x.step + 1, ctStart := s.ct, toCapture := ckSelect s x
      captured := [], skipped := 0, bytes := 0, pending := false, waiting := 0, grants := 0, errCts := [] } s
    progressOp x.op 1 0 0 { s with aon := { s.aon with cutSerial := n + 1 } }

/-- Starts a cut, or queues it behind the 16 that run or until the Mould takes work (R465). -/
def cutStart (g : Nat) (s : State) : State :=
  if cutsRunning s < 16 && groupOpen s 0x3E then cutAssign g s
  else { modCk g (fun x => { x with cstate := .queued }) s with mld := { (modCk g (fun x => { x with cstate := .queued }) s).mld with
    queue := s.mld.queue ++ [g] } }

/-- The operation of a cut that a trigger started: its handle belongs to PF0. -/
def triggerOp (g : Nat) (s : State) : State :=
  let p := ((getGroupCk s g).map (·.partition)).getD 0
  let (n, s) := startOp { src := .device p, hdr := { opcode := 0x0C02, partition := p }, payload := u8 g } 1 4 0 true [g] s
  modCk g (fun x => { x with op := n }) (acceptOp n s)

/-- Whether cut serials remain (R427). -/
def cutSerialOk (s : State) : Bool := decide (s.aon.cutSerial < 2 ^ 61)

/-- A trigger is due: a cut starts, or is coalesced with the one that runs (R419). -/
def cutTrigger (g : Nat) (s : State) : State :=
  match getGroupCk s g with
  | none => s
  | some x =>
    if !cutSerialOk s then s
    else if x.cstate ≠ .idle then
      bump .mldCoalesced x.partition 1 (setGroupCk g { x with pending := true } s)
    else cutStart g (triggerOp g s)

/-- The first queued cut starts, while the Mould takes work. -/
def cutNext (s : State) : State :=
  match s.mld.queue with
  | [] => s
  | q :: l => if cutsRunning s < 16 && groupOpen s 0x3E then cutAssign q { s with mld := { s.mld with queue := l } } else s

/-- A cut has ended: the first queued one and the group's own pending one start. -/
def cutEnded (g : Nat) (s : State) : State :=
  let s := cutNext s
  match getGroupCk s g with
  | some x => if x.pending && cutSerialOk s then cutStart g (triggerOp g (setGroupCk g { x with pending := false } s)) else s
  | none => s

/-- The result of a cut (R431). -/
def cutResult (x : CkGroup) : Bytes :=
  u64 x.cutId ++ u64 x.step ++ u32 x.captured.length ++ u32 x.skipped ++ u64 x.bytes

/-- A cut fails or is cancelled: its references are released and the previous cut stays (R417, R418). -/
def cutFail (g status : Nat) (s : State) : State :=
  match getGroupCk s g with
  | none => s
  | some x =>
    let s := x.captured.foldl (fun s c => if c.written then s else dropCut c s) (dropCmds (.cut g) s)
    let s := setGroupCk g { x with cstate := .idle, op := 0, toCapture := [], captured := [], waiting := 0 } s
    let s := if status = St.cancelled then s
      else note 0x0C02 1 x.partition 0 [g, x.step, status, x.cstate.code] (bump .mldFails x.partition 1 s)
    cutEnded g (endOp x.op status 0 (if status = St.cancelled then [] else cutResult x) s)

/-! ### Shards (R410 to R412, R416) -/

/-- A body's section, filled to its 4 KiB boundary. -/
def pad4k (b : Bytes) : Bytes := fit (alignUp b.length 4096) b

/-- A captured page as its shard holds it: its encoding and bytes; what lies elsewhere is a string that the model does not hold. -/
def shardPage (s : State) (c : Captured) (narrow cls key : Nat) (e : Pte) : Nat × Bytes :=
  let enc := castEnc c.entry narrow true key e
  let b := if e.here s then devRead s e.tier e.addr (encSize cls e.enc) else Config.remoteBytes s.free [3, c.session, key] (encSize cls e.enc)
  let kv := (getModel s c.entry.modelSlot).hdr.kvFormat
  (enc, if enc = e.enc then b else (narrowPage kv enc b).1)

/-- A shard's body: image, control section, journal and pages, and the narrowing applied. -/
def shardBody (s : State) (x : CkGroup) (c : Captured) : Bytes × Nat :=
  let t := c.store
  let narrow := castNarrow s c.entry x.narrow
  let ps := (t.pages.ptes.filter (fun e => e.2.valid && decide (e.1 % 4096 < ceilDiv c.length 256))).map (fun e =>
    (e.1, shardPage s c narrow t.pages.pageClass e.1 e.2))
  let ctl := sampBytes t.samp ++ stackBytes t.gstack
  let jr := (t.journal.take (c.length - c.entry.prefixLen)).flatMap u32
  let base := alignUp (imageSizeOf t.pages t.pages.ptes) 4096 + 4096 + alignUp jr.length 4096
  let ptes := (ps.foldl (fun (a : Tab Pte × Nat) p =>
    (tset a.1 p.1 { frame := a.2 / 8192, enc := p.2.1, valid := true }, a.2 + p.2.2.length)) ([], base)).1
  (pad4k (imageBytes { s with pln := { s.pln with store := tset s.pln.store c.session t } } c.entry ptes) ++ pad4k ctl ++ pad4k jr
    ++ ps.flatMap (fun p => p.2.2), narrow)

/-- A shard's header without its CRCs and tag. -/
def shardHead (s : State) (g : Nat) (x : CkGroup) (i n narrow : Nat) (c : Captured) (bodyLen : Nat) (key : Bool) : Bytes :=
  u32 0x31444853 ++ u16 1 ++ u16 0x100 ++ u64 x.cutId ++ u64 x.step ++ u8 g ++ u8 x.partition ++ u8 narrow ++ u8 (b2n key)
    ++ u32 i ++ u32 n ++ u32 (if key then (getKey s x.partition 0).gen * 2 ^ 24 + x.partition * 2 ^ 8 else ones32)
    ++ u64 c.session ++ u32 c.length ++ u16 c.store.pages.lgCount ++ u8 c.store.pages.pageClass ++ u8 0 ++ u64 bodyLen
    ++ fit 32 (getModel s c.entry.modelSlot).hdr.digest ++ fit 32 (((getGen s c.entry.tableGen).map (·.digest)).getD [])
    ++ u64 c.ct

/-- The IV of a shard's body. -/
def shardIv (cutId i : Nat) : Bytes := be 8 cutId ++ be 4 i

/-- A whole shard and its body's CRC: header block and sealed body (R412). -/
def shardBytes (s : State) (g : Nat) (x : CkGroup) (i n : Nat) (c : Captured) : Bytes × Nat × Nat :=
  let (body, narrow) := shardBody s x c
  let k := storageKey s x.partition
  let head := shardHead s g x i n narrow c body.length k.isSome
  let (ct, tag) := match k with
    | some k => Config.gcmSeal k (shardIv x.cutId i) (fit 256 head) body
    | none => (body, zeros 16)
  let crc := crc64xz ct
  let h := fit 0xF8 (head ++ u64 crc ++ fit 16 tag)
  (fit 4096 (h ++ u64 (crc64xz h)) ++ ct, body.length, crc)

/-- The manifest's header and shard table (R413). -/
def manifestBytes (g : Nat) (x : CkGroup) : Bytes :=
  fit 4096 (u32 0x31464E4D ++ zeros 4 ++ u64 x.cutId ++ u64 x.step ++ u8 g ++ u8 (x.step % 2) ++ zeros 2 ++ u32 x.captured.length
      ++ u64 x.ctStart)
    ++ x.captured.flatMap (fun c => u64 c.session ++ u64 c.place.1 ++ u64 c.place.2.1 ++ u64 c.place.2.2)

/-- The commit record. -/
def commitBytes (s : State) (g : Nat) (x : CkGroup) : Bytes :=
  let m := manifestBytes g x
  let r := u32 0x31544D43 ++ u16 1 ++ zeros 2 ++ u64 x.cutId ++ u64 x.step ++ u32 x.captured.length ++ zeros 4 ++ u64 m.length
    ++ u64 (crc64xz m) ++ u64 s.ct
  r ++ u64 (crc64xz r)

/-! ### Stages (R417) -/

/-- Writes bytes at a block of a group's store area; the last block is filled with zeros. -/
def ckWrite (g lba shard : Nat) (b : Bytes) (s : State) : State :=
  match getGroupCk s g with
  | none => s
  | some x =>
    match ctrlOn s x.qp with
    | none => s
    | some (c, _) =>
      let l := max 1 (lbaSize s x.qp x.nsid)
      let n := ceilDiv b.length l
      nvmeIssue c x.nsid 1 (x.lbaBase + lba) n (fit (n * l) b) { controller := c, owner := .cut g, shard } s

/-- Issues a Flush for a group. -/
def ckFlush (g : Nat) (s : State) : State :=
  match getGroupCk s g with
  | none => s
  | some x =>
    match ctrlOn s x.qp with
    | none => s
    | some (c, _) => nvmeIssue c x.nsid 2 0 0 [] { controller := c, owner := .cut g, flush := true } s

/-- First block of manifest slot and of half `step` mod 2. -/
def ckSlot (s : State) (x : CkGroup) : Nat := x.step % 2 * slotBlocks (lbaSize s x.qp x.nsid) x.maxShards
def ckHalf (s : State) (x : CkGroup) : Nat := 2 * slotBlocks (lbaSize s x.qp x.nsid) x.maxShards + x.step % 2 * x.half

/-- Moves a cut to a stage. -/
def ckStage (g : Nat) (st : CutState) (s : State) : State :=
  match getGroupCk s g with
  | none => s
  | some x =>
    let s := setGroupCk g { x with cstate := st } s
    let n := x.captured.length
    let done := (x.captured.filter (·.written)).length
    progressOp x.op st.code done n (match getOp s x.op with
      | some o => setOp x.op { o with canCancel := st ≠ .commit } s
      | none => s)

/-- INVALIDATE: zeros over the commit record of the slot to be written. -/
def ckInvalidate (g : Nat) (s : State) : State :=
  match getGroupCk s g with
  | none => s
  | some x =>
    let l := lbaSize s x.qp x.nsid
    if l = 0 then cutFail g St.storeLost (ckStage g .invalidate s)
    else ckWrite g (ckSlot s x + slotBlocks l x.maxShards - 1) ones32 (zeros l) (ckStage g .invalidate s)

/-- The model's own code of a message that tells a session's home which cut holds it (log entry 13). -/
def cutCode : Nat := 0x13

/-- `ckpt_cut` of a session becomes a cut: in its entry here, or in what this chip keeps of it and, by a message, at its home (R99). -/
def setCut (id cut : Nat) (s : State) : State :=
  if (getDir s id).isSome then modDir id (fun e => { e with ckptCut := cut }) s
  else if homeOf id = chip s || !thas s.pln.store id then s
  else sendSwl (.swilan (linkTo s (homeOf id)) 0 1 id [cutCode] (u64 cut)) (modStore id (fun t => { t with ckptCut := cut }) s)

/-- The sessions that a cut held have no checkpoint any more. -/
def ckForget (cut : Nat) (s : State) : State :=
  if cut = 0 then s
  else
    let s := (tkeys (s.pln.store.filter (fun e => e.2.ckptCut = cut))).foldl (fun s id => setCut id 0 s) s
    { s with
    pln := { s.pln with dir := s.pln.dir.map (fun e => if e.2.ckptCut = cut then (e.1, { e.2 with ckptCut := 0 }) else e) }
    fdy := { s.fdy with imports := s.fdy.imports.map (fun e =>
      if e.2.ckptCut = cut then (e.1, { e.2 with ckptCut := 0 }) else e) } }

/-- Shards with their place in the half, one behind the other on 4 KiB boundaries. -/
def ckPlan (s : State) (g : Nat) (x : CkGroup) (l n : Nat) : List Captured → Nat → Nat → List (Captured × Bytes)
  | [], _, _ => []
  | c :: cs, i, off =>
    let (b, len, crc) := shardBytes s g x i n c
    ({ c with place := (off, len, crc) }, b) :: ckPlan s g x l n cs (i + 1) (off + alignUp b.length 4096 / l)

/-- WRITING: every shard goes out, unless the half or `max_shards` cannot take them (R418). -/
def ckWriting (g : Nat) (s : State) : State :=
  let s := ckStage g .writing s
  match getGroupCk s g with
  | none => s
  | some x =>
    let l := max 1 (lbaSize s x.qp x.nsid)
    let n := x.captured.length
    let plan := ckPlan s g x l n x.captured 0 0
    let blocks := (plan.map (fun p => alignUp p.2.length 4096 / l)).sum
    if x.half < blocks || x.maxShards < n then cutFail g St.storeFull s
    else
      plan.zipIdx.foldl (fun s p => ckWrite g (ckHalf s x + p.1.1.place.1) p.2 p.1.2 s)
        (modCk g (fun x => { x with captured := plan.map (·.1), waiting := n }) s)

/-- The capture is over once every selected session is captured or left out. -/
def captureEnd (g : Nat) (s : State) : State :=
  match getGroupCk s g with
  | none => s
  | some x =>
    if x.cstate ≠ .capture || !x.toCapture.isEmpty then s
    else if stopping s x.op then cutFail g St.cancelled s
    else if x.captured.isEmpty then
      cutEnded g (endOp x.op 0 0 (cutResult x) (setGroupCk g { x with cstate := .idle, op := 0 } s))
    else ckInvalidate g s

/-- Captures what can be captured now, in every group whose cut is in CAPTURE. -/
def captureAll (m : Moment) (s : State) : State :=
  ((s.mld.groups.filter (fun e => e.2.cstate = .capture)).map (·.1)).foldl (fun s g =>
    captureEnd g ((((getGroupCk s g).map (·.toCapture)).getD []).foldl (fun s id => tryCapture m g id s) s)) s

/-- The commit point: the cut is the group's newest (R417 step 5). -/
def ckCommit (g : Nat) (s : State) : State :=
  match getGroupCk s g with
  | none => s
  | some x =>
    let s := x.captured.foldl (fun s c => setCut c.session x.cutId s) s
    let base := x.lbaBase + ckHalf s x
    let l := max 1 (lbaSize s x.qp x.nsid)
    let s := setGroupCk g { x with
      cstate := .idle, op := 0, captured := [], lastId := x.cutId, lastStep := x.step, slotIds := x.slotIds.set (x.step % 2) x.cutId
      last := x.captured.map (fun c => { c with place := (base + c.place.1, alignUp (4096 + c.place.2.1) 4096 / l, c.place.2.2) }) } s
    let s := note 0x0C01 0 x.partition 0 [g, x.cutId, x.step, x.captured.length] (bump .mldCuts x.partition 1 s)
    cutEnded g (endOp x.op 0 0 (cutResult x) s)

/-- A shard's write has completed: its references are released. -/
def shardDone (g i : Nat) (s : State) : State :=
  match (getGroupCk s g).bind (fun x => x.captured[i]?.map (fun c => (x, c))) with
  | none => s
  | some (x, c) =>
    let n := 4096 + c.place.2.1
    let s := bump .mldShards x.partition 1 (bump .mldBytes x.partition n (dropCut c s))
    let s := modCk g (fun x => { x with
      captured := x.captured.set i { c with written := true, frames := [] }, bytes := x.bytes + n, waiting := x.waiting - 1 }) s
    let s := ckStage g .writing s
    if x.waiting ≤ 1 then ckFlush g (ckStage g .flush s) else s

/-- Counts manifest bytes that have been written. -/
def manifestDone (g n : Nat) (s : State) : State :=
  match getGroupCk s g with
  | some x => bump .mldBytes x.partition n (setGroupCk g { x with bytes := x.bytes + n } s)
  | none => s

/-- A write or a Flush of a cut has completed (R417, R418). -/
def cutIo (g : Nat) (c : NvCmd) (ok : Bool) (s : State) : State :=
  match getGroupCk s g with
  | none => s
  | some x =>
    if stopping s x.op then cutFail g St.cancelled s
    else if !ok then cutFail g St.storeLost s
    else
      match x.cstate, c.flush with
      | .invalidate, false => ckFlush g (ckForget (x.slotIds.getD (x.step % 2) 0)
          (setGroupCk g { x with slotIds := x.slotIds.set (x.step % 2) 0 } s))
      | .invalidate, true => ckWriting g s
      | .writing, false => shardDone g c.shard s
      | .flush, true =>
        let s := ckStage g .manifest s
        ckWrite g (ckSlot s x) ones32 (manifestBytes g x) s
      | .manifest, false => ckFlush g (manifestDone g (manifestBytes g x).length s)
      | .manifest, true =>
        let s := ckStage g .commit s
        let l := lbaSize s x.qp x.nsid
        ckWrite g (ckSlot s x + slotBlocks l x.maxShards - 1) ones32 (fit l (commitBytes s g x)) s
      | .commit, false => ckFlush g s
      | .commit, true => ckCommit g s
      | _, _ => s

/-! ### Group commands -/

def opMldGroupSet : OpInfo := { opcode := 0x0C00, view := true, rsvd := [(0x3A, 2)] }

/-- The group that a payload defines, over what the group holds already. -/
def ckOf (r : Req) (p half : Nat) (was : Option CkGroup) : CkGroup :=
  let x : CkGroup :=
    { partition := p, modelSlot := r.f 1 1, narrow := r.f 2 1, classLo := r.f 4 2, classHi := r.f 6 2, qp := r.f 8 4, nsid := r.f 0x0C 4
      lbaBase := r.f 0x10 8, lbaCount := r.f 0x18 8, maxShards := r.f 0x20 4, stepTrig := r.f 0x24 4, period := r.f 0x28 8
      errWindow := r.f 0x30 8, errThresh := r.f 0x38 2, window := r.f 0x3C 4, half }
  match was with
  | none => x
  | some w =>
    let same := w.nsid = x.nsid && w.lbaBase = x.lbaBase && w.lbaCount = x.lbaCount && w.maxShards = x.maxShards
    { x with step := w.step, lastId := w.lastId, lastStep := w.lastStep, lastTimer := w.lastTimer
             slotIds := if same then w.slotIds else [0, 0], last := if same then w.last else [] }

/-- MLD_GROUP_SET's ranges (R407, R409, R419). -/
def groupSetCheck (r : Req) (l half : Nat) : Bool :=
  (decide (r.f 1 1 < 64) || r.f 1 1 = 0xFF) && decide (r.f 2 1 ≤ 2) && decide (r.f 4 2 ≤ r.f 6 2) && decide (r.f 6 2 < 4096)
    && l ≠ 0 && decide (1 ≤ r.f 0x20 4) && decide (r.f 0x20 4 ≤ 16777216)
    && (r.f 0x28 8 = 0 || (decide (1000000000 ≤ r.f 0x28 8) && decide (r.f 0x28 8 ≤ 86400000000000)))
    && (r.f 0x38 2 = 0 || (decide (1000000 ≤ r.f 0x30 8) && decide (r.f 0x30 8 ≤ 3600000000000)))
    && decide (1000 ≤ r.f 0x3C 4) && decide (r.f 0x3C 4 ≤ 10000000) && decide (ceilDiv 4096 (max 1 l) ≤ half)

/-- MLD_GROUP_SET: defines or deletes a group (R407, R409, R419). -/
def bodyMldGroupSet (_ : Moment) (r : Req) (s : State) : Reply :=
  let g := r.f 0 1
  let p := r.part16
  let was := getGroupCk s g
  if was.any (fun x => !r.reaches x.partition) then .err s St.notPermitted
  else if 1 < r.f 3 1 then .err s St.badField
  else if was.any (fun x => x.cstate ≠ .idle) then .err s St.busyRetry
  else if r.f 3 1 = 1 then
    if was.isNone then .err s St.badField else .ok { s with mld := { s.mld with groups := tdel s.mld.groups g } } (u64 0)
  else
    match qpFor r s (r.f 8 4) with
    | none => .err s St.connGone
    | some (_, q) =>
      let l := if q.gx || q.partition ≠ p then 0 else lbaSize s (r.f 8 4) (r.f 0x0C 4)
      let half := halfBlocks (max 1 l) (r.f 0x18 8) (r.f 0x20 4)
      if groupSetCheck r l half then
        .ok (setGroupCk g { ckOf r p half was with lastTimer := if r.f 0x28 8 = 0 then 0 else s.ct / r.f 0x28 8 } s) (u64 half)
      else .err s St.badField

def execMldGroupSet (m : Moment) (r : Req) (s : State) : Out := .next (runCommand opMldGroupSet bodyMldGroupSet m r s)

/-- A group that a request names and reaches. -/
def onGroup (r : Req) (s : State) (k : Nat → CkGroup → Reply) : Reply :=
  match getGroupCk s (r.f 0 1) with
  | none => .err s St.badField
  | some x => if r.reaches x.partition then k (r.f 0 1) x else .err s St.notPermitted

def opMldGroupQuery : OpInfo := { opcode := 0x0C01, mctp := true }

/-- The fields of a group as MLD_GROUP_SET took them. -/
def ckFields (g : Nat) (x : CkGroup) : Bytes :=
  u8 g ++ u8 x.modelSlot ++ u8 x.narrow ++ u8 0 ++ u16 x.classLo ++ u16 x.classHi ++ u32 x.qp ++ u32 x.nsid ++ u64 x.lbaBase
    ++ u64 x.lbaCount ++ u32 x.maxShards ++ u32 x.stepTrig ++ u64 x.period ++ u64 x.errWindow ++ u16 x.errThresh ++ zeros 2
    ++ u32 x.window

/-- MLD_GROUP_QUERY. -/
def bodyMldGroupQuery (_ : Moment) (r : Req) (s : State) : Reply :=
  onGroup r s fun g x =>
    .ok s (ckFields g x ++ u8 x.cstate.code ++ u32 (((getOp s x.op).map (·.handle)).getD 0) ++ u64 x.lastId ++ u64 x.lastStep)

def execMldGroupQuery (m : Moment) (r : Req) (s : State) : Out := .next (runCommand opMldGroupQuery bodyMldGroupQuery m r s)

def opMldCut : OpInfo := { opcode := 0x0C02 }

/-- MLD_CUT: a cut starts, or is queued (R414, R418, R419). -/
def bodyMldCut (m : Moment) (r : Req) (s : State) : Reply :=
  onGroup r s fun g x =>
    if x.cstate ≠ .idle then .err s St.busyRetry
    else if !cutSerialOk s then .err s 0x0108
    else asOp r s 1 4 0 true [g] fun n s => captureAll m (cutStart g (modCk g (fun x => { x with op := n }) s))

def execMldCut (m : Moment) (r : Req) (s : State) : Out := .next (runCommand opMldCut bodyMldCut m r s)

/-- MLD_TIMER_TRIGGER: a multiple of the group's period has come (R419). -/
def execMldTimerTrigger (m : Moment) (group : Nat) (s : State) : Out :=
  let s := s.at m
  match getGroupCk s group with
  | none => .next s
  | some x =>
    if x.period = 0 || s.ct / x.period ≤ x.lastTimer then .next s
    else .next (captureAll m (cutTrigger group (setGroupCk group { x with lastTimer := s.ct / x.period } s)))

/-- CAPTURE_WINDOW_EXPIRY: sessions that have not been captured in time are left out (R414). -/
def execCaptureWindowExpiry (m : Moment) (group : Nat) (s : State) : Out :=
  let s := s.at m
  match getGroupCk s group with
  | none => .next s
  | some x =>
    if x.cstate = .capture && decide (x.ctStart + 1000 * x.window ≤ s.ct) then
      .next (captureAll m (captureEnd group (x.toCapture.foldl (fun s id => leaveOut group id s) s)))
    else .next s

/-- A grant to a session counts toward the step triggers of its groups (R419). -/
def countGrant (x : Session) (s : State) : State :=
  s.mld.groups.foldl (fun s e =>
    if ckMatches e.2 x.partition x.modelSlot x.cls && e.2.stepTrig ≠ 0 && !isShadow s x.id then
      let n := e.2.grants + 1
      if n = e.2.stepTrig then cutTrigger e.1 (modCk e.1 (fun y => { y with grants := n }) s)
      else modCk e.1 (fun y => { y with grants := n }) s
    else s) s

/-- A corrected error against a partition's memory counts toward the error triggers of its groups (R419). -/
def countError (p : Nat) (s : State) : State :=
  s.mld.groups.foldl (fun s e =>
    if e.2.partition = p && e.2.errThresh ≠ 0 then
      let l := (e.2.errCts.filter (fun c => decide (s.ct < c + e.2.errWindow))) ++ [s.ct]
      if e.2.errThresh ≤ l.length then cutTrigger e.1 (modCk e.1 (fun y => { y with errCts := [] }) s)
      else modCk e.1 (fun y => { y with errCts := l }) s
    else s) s

end Sys2Proof.Machine
end

