-- ==== Sys2Proof/Machine/Restore.lean ====
section
/-! DEFINITION. Restore of a cut from the store, and the CHECKPOINT step of the recovery order (R420 to R422, 14). -/

namespace Sys2Proof.Machine

/-! ### Shards as they lie on the store (R410, R420) -/

/-- A shard found in a store area: half, block offset in the half, header and stored body. -/
structure Found where
  half : Nat
  off  : Nat
  head : Bytes
  body : Bytes
  deriving DecidableEq, Repr

namespace Found

def hdrOk (f : Found) : Bool := field f.head 0 4 = 0x31444853 && field f.head 0xF8 8 = crc64xz (f.head.take 0xF8)
def bodyOk (f : Found) : Bool := field f.head 0x88 8 = crc64xz f.body
def cutId (f : Found) : Nat := field f.head 8 8
def step (f : Found) : Nat := field f.head 0x10 8
def index (f : Found) : Nat := field f.head 0x1C 4
def count (f : Found) : Nat := field f.head 0x20 4
def kept (f : Found) : Bool := f.hdrOk && f.bodyOk

end Found

/-- The geometry of a store area in bytes: the LBA size, M and H. -/
structure Area where
  l     : Nat
  slot  : Nat
  half  : Nat
  bytes : Bytes
  deriving DecidableEq, Repr

/-- The shard whose header lies at a block of a half. -/
def Area.shardAt (a : Area) (h off : Nat) : Found :=
  let at0 := (2 * a.slot + h * a.half + off) * a.l
  let head := slice a.bytes at0 256
  { half := h, off, head, body := slice a.bytes (at0 + 4096) (min (field head 0x38 8) ((a.half - off) * a.l)) }

/-- A manifest slot, less its last block, and its commit record. -/
def Area.manifest (a : Area) (k : Nat) : Bytes := slice a.bytes (k * a.slot * a.l) ((a.slot - 1) * a.l)
def Area.record (a : Area) (k : Nat) : Bytes := slice a.bytes ((k * a.slot + a.slot - 1) * a.l) 64

/-- Whether a manifest slot is committed (R413). -/
def Area.committed (a : Area) (k : Nat) : Bool :=
  let r := a.record k
  let m := a.manifest k
  field r 0 4 = 0x31544D43 && field r 0x38 8 = crc64xz (r.take 0x38) && decide (field r 0x20 8 ≤ m.length)
    && field r 0x28 8 = crc64xz (m.take (field r 0x20 8)) && field m 0 4 = 0x31464E4D && field m 8 8 = field r 8 8
    && field m 0x10 8 = field r 0x10 8 && field m 0x1C 4 = field r 0x18 4

/-- The shards that a committed slot names, when every one of them verifies and carries the slot's cut. -/
def Area.slotShards (a : Area) (k : Nat) : Option (List Found) :=
  let m := a.manifest k
  let n := field m 0x1C 4
  let l := (List.range n).map (fun i => a.shardAt (field m 0x19 1) (field m (4096 + 32 * i + 8) 8))
  if l.zipIdx.all (fun x => x.1.kept && x.1.cutId = field m 8 8 && x.1.step = field m 0x10 8 && x.1.count = n && x.1.index = x.2)
  then some l else none

/-- Scans a half in steps of 4 KiB, past the body of each shard that verifies: every place where a header's magic stands. -/
def Area.scan (a : Area) (h : Nat) : Nat → Nat → List Found
  | 0, _ => []
  | fuel + 1, off =>
    if a.half ≤ off then []
    else
      let f := a.shardAt h off
      if field f.head 0 4 = 0x31444853 then
        f :: a.scan h fuel (off + (if f.kept then alignUp (4096 + f.body.length) 4096 else 4096) / a.l)
      else a.scan h fuel (off + 4096 / a.l)

/-- What a restore chooses: a cut's shards in index order with their source, or why none (R420). -/
inductive Choice where
  | cut (source : Nat) (l : List Found)
  | noCut
  | mixed (bad : List Bytes) (count : Nat)
  deriving DecidableEq, Repr

/-- The shards of a step, when each index is there exactly once. -/
def wholeStep (kept : List Found) (id : Nat × Nat) : Option (List Found) :=
  let l := kept.filter (fun f => f.cutId = id.1 && f.step = id.2)
  let n := ((l.head?).map (·.count)).getD 0
  if l.length = n && l.all (fun f => f.count = n && decide (f.index < n)) && decide ((l.map (·.index)).Nodup) then
    some (sortBy (fun a b => decide (a.index ≤ b.index)) l)
  else none

/-- A record of MIXED_CUT. -/
def badRec (half off cut step index why : Nat) : Bytes := u8 half ++ zeros 3 ++ u32 off ++ u64 cut ++ u64 step ++ u32 index ++ u32 why

/-- The offending shards of the two highest steps found (R420). -/
def offending (all kept : List Found) : List Bytes :=
  let ids := (sortBy (fun a b => decide (b.2 ≤ a.2)) ((all.filter (·.hdrOk)).map (fun f => (f.cutId, f.step))).eraseDups)
  let top := ids.take 2
  let bad := all.filter (fun f => !f.kept && (top.any (fun t => t.2 = f.step)))
  bad.map (fun f => badRec f.half f.off f.cutId f.step f.index (if f.hdrOk then 1 else 0))
    ++ top.flatMap (fun t =>
      let l := kept.filter (fun f => (f.cutId, f.step) = t)
      let n := ((l.head?).map (·.count)).getD 0
      ((List.range n).filter (fun i => !(l.any (fun f => f.index = i)) && !(bad.any (fun f => f.step = t.2 && f.index = i)))).map
          (fun i => badRec (t.2 % 2) 0 t.1 t.2 i 2)
        ++ (l.zipIdx.filter (fun x => (l.take x.2).any (fun f => f.index = x.1.index))).map
          (fun x => badRec x.1.half x.1.off t.1 t.2 x.1.index 3))

/-- The choice of R420. -/
def Area.choose (a : Area) : Choice :=
  let slots := sortBy (fun x y => decide (field (a.manifest y) 0x10 8 ≤ field (a.manifest x) 0x10 8)) ([0, 1].filter (fun k => a.committed k))
  match slots.findSome? (fun k => (a.slotShards k).map (fun l => (k, l))) with
  | some (k, l) => .cut k l
  | none =>
    let all := a.scan 0 (a.half * a.l / 4096 + 1) 0 ++ a.scan 1 (a.half * a.l / 4096 + 1) 0
    let kept := all.filter (·.kept)
    let ids := sortBy (fun x y => decide (y.2 ≤ x.2)) (kept.map (fun f => (f.cutId, f.step))).eraseDups
    match ids.findSome? (wholeStep kept) with
    | some l => .cut 2 l
    | none =>
      if slots.isEmpty && !(all.any (·.hdrOk)) then .noCut
      else
        let bad := offending all kept
        .mixed (bad.take 128) bad.length

/-! ### What a shard's body holds (R411) -/

/-- A decrypted body's image, control section, journal and pages by key. -/
structure Body where
  entry   : Session
  tables  : PageTables
  samp    : Sampling
  gstack  : List Nat
  journal : List Nat
  pages   : Tab Bytes
  image   : Nat
  deriving DecidableEq, Repr

/-- Reads a body. -/
def bodyOf (length : Nat) (b : Bytes) : Body :=
  let x := entryOfBytes b
  let t := imageTables b
  let size := imageSizeOf t t.ptes
  let o1 := alignUp size 4096
  let o2 := o1 + 4096
  let n := length - x.prefixLen
  let o3 := o2 + alignUp (4 * n) 4096
  let pages := (t.ptes.foldl (fun (a : Tab Bytes × Nat) e =>
    let k := encSize t.pageClass e.2.enc
    (tset a.1 e.1 (slice b a.2 k), a.2 + k)) ([], o3)).1
  { entry := x, tables := t, samp := sampOfBytes (slice b o1 256)
    gstack := (List.range x.grammarDepth).map (fun i => field b (o1 + 256 + 2 * i) 2)
    journal := (List.range n).map (fun i => field b (o2 + 4 * i) 4), pages, image := size }

/-- A shard's body in the clear; none when its tag fails or its key is not there (R412, R448). -/
def openShard (s : State) (p : Nat) (f : Found) : Option Bytes :=
  if field f.head 0x1B 1 % 2 = 0 then some f.body
  else
    match (getKey s p (field f.head 0x24 4 % 256)).key with
    | none => none
    | some k => Config.gcmOpen k (shardIv f.cutId f.index) (fit 256 (f.head.take 0x88)) f.body (slice f.head 0x90 16)

/-! ### Restore (R421) -/

/-- Takes frames of a tier for the pages of a restored session. -/
def restorePages (m : Moment) (id p tier cls : Nat) (pages : Tab Bytes) : Tab Pte → Nat → State → Except Lack State
  | [], _, s => .ok s
  | (key, e) :: l, k, s =>
    match grabFrame m k { partition := p, tier, pclass := cls, enc := e.enc } hEntry id s with
    | .error l => .error l
    | .ok (a, s) =>
      restorePages m id p tier cls pages l (k + 1) (modStore id (fun t => { t with
        pages := { t.pages with ptes := tset t.pages.ptes key (pteOf s tier e.enc a) } }) (devWrite tier a ((tget pages key).getD []) s))

/-- The memory of a restored session: its pages, its journal, its record's frame and its cast image's place, which it answers with the
frame. -/
def restorePlace (m : Moment) (id p tier : Nat) (b : Body) (s : State) : Except Lack ((Nat × Nat) × State) :=
  (restorePages m id p tier b.tables.pageClass b.pages b.tables.ptes 0 s).bind (fun s =>
    (growJournal m id p b.journal.length s).bind (fun s =>
      (grabTable m 0 p id s).bind (fun f =>
        match placeBlock f.2 p 1 b.image 4096 with
        | some a => .ok ((a, f.1), f.2)
        | none => .error none)))

/-- Makes a body into a parked session of this chip: its new ID, or the status that it fails with. -/
def restoreOne (m : Moment) (k p tier target : Nat) (b : Body) (s : State) : Except (Nat × State) (Nat × State) :=
  match pickIdx m k s.pln.dir dirCount with
  | none => .error (St.busyRetry, s)
  | some i =>
    if 2 ^ 37 ≤ s.aon.sessSerial then .error (0x0108, s)
    else
      let id := mkId (chip s) s.aon.sessSerial i
      let x := { b.entry with
        id, flags := setFlag b.entry.flags Fl.armed false, armChain := ones32, pdirAddr := 0
        streamTarget := if target = 0 then b.entry.streamTarget else target }
      let was := s
      let s := setStore id { partition := p, journal := b.journal, samp := b.samp, gstack := b.gstack
                             pages := { b.tables with ptes := [], dirFrames := [], segs := [] } } s
      match restorePlace m id p tier b s with
      | .error l => .error (St.tierFull, starve l was)
      | .ok ((a, fr), s) =>
        let x := { x with journalAddr := fr }
        let img := imageBytes s x (getStore s id).pages.ptes
        let s := devWrite 1 a img (modStore id (fun t => { t with recFrame := fr, image := some x, imageAddr := a, imageSize := b.image }) s)
        let e : DirEntry :=
          { id, dstate := .parked, resume := x.st, partition := p, modelSlot := x.modelSlot, priority := x.priority
            stopReason := x.stopReason, cls := x.cls, flags := x.flags, tableGen := x.tableGen, grammarImage := x.grammarImage
            length := x.length, credit := x.credit, deadline := x.deadline, ctCast := s.ct, imageLoc := chip s * 2 ^ 61 + a
            imageBytes := b.image, imageCrc := crc32c img, castTier := tier, pagesCast := b.tables.ptes.length }
        let s := newDir id e s
        .ok (id, takeSerial (creditIn x.cls x.credit id (bindGen x.tableGen 1 s)))

/-- One shard of a restore: its checks in order, and the session made of it (R421). -/
def restoreShard (m : Moment) (k p tier target : Nat) (f : Found) (s : State) : Except (Nat × State) (Nat × State) :=
  let clear := (openShard s p f).getD []
  let b := bodyOf (field f.head 0x30 4 % 2 ^ 24) (if (openShard s p f).isSome then clear else f.body)
  let x := b.entry
  if (openShard s p f).isSome && ((getModel s x.modelSlot).mstate ≠ .ready || (getModel s x.modelSlot).partition ≠ p
      || fit 32 (getModel s x.modelSlot).hdr.digest ≠ slice f.head 0x40 32) then .error (0x0102, s)
  else if (openShard s p f).isSome && (!genResident s x.tableGen p x.modelSlot
      || fit 32 (((getGen s x.tableGen).map (·.digest)).getD []) ≠ slice f.head 0x60 32) then .error (St.genNotResident, s)
  else if (openShard s p f).isSome && !((tget s.pla.classes x.cls).any (fun c => c.partition = p)) then .error (St.badField, s)
  else if (openShard s p f).isNone then .error (St.shardInvalid, s)
  else restoreOne m k p tier target b s

/-- Restores every shard, each in turn: the records of the result and the sessions made. -/
def restoreAll (m : Moment) (p tier target : Nat) : List Found → Nat → State → Bytes × Nat × State
  | [], _, s => ([], 0, s)
  | f :: fs, k, s =>
    let old := field f.head 0x28 8
    match restoreShard m k p tier target f s with
    | .error (st, s) =>
      let (b, n, s) := restoreAll m p tier target fs (k + 1) s
      (u64 old ++ u64 0 ++ u16 st ++ zeros 6 ++ b, n, s)
    | .ok (id, s) =>
      let (b, n, s) := restoreAll m p tier target fs (k + 1) s
      (u64 old ++ u64 id ++ u16 0 ++ zeros 6 ++ b, n + 1, s)

def opMldRestore : OpInfo := { opcode := 0x0C03, rsvd := [(3, 5)] }

/-- MLD_RESTORE: the store area is read; the rest follows with its bytes (R420, R421). -/
def bodyMldRestore (_ : Moment) (r : Req) (s : State) : Reply :=
  onGroup r s fun g x =>
    let t := r.f 1 1
    if t = 0 || 2 < t || 1 < r.f 2 1 || (r.f 8 8 ≠ 0 && !targetOk s x.partition (r.f 8 8)) then .err s St.badField
    else if x.cstate ≠ .idle then .err s St.busyRetry
    else
      match ctrlOn s x.qp with
      | none => .err s St.storeLost
      | some (c, _) =>
        asOp r s 1 4 0 true [g] fun n s =>
          let s := { s with mld := { s.mld with
            restores := tset s.mld.restores n { group := g, tier := t, verify := r.f 2 1 = 1, target := r.f 8 8, req := r, cmd := s.net.nextCmd } } }
          nvmeIssue c x.nsid 0 x.lbaBase x.lbaCount [] { controller := c, owner := .restore n } s

def execMldRestore (m : Moment) (r : Req) (s : State) : Out := .next (runCommand opMldRestore bodyMldRestore m r s)

/-- Ends a restore with records for its scatter list. -/
def restoreEnd (n status detail : Nat) (head recs : Bytes) (s : State) : State :=
  match tget s.mld.restores n with
  | none => s
  | some x =>
    let s := { s with mld := { s.mld with restores := tdel s.mld.restores n } }
    let a := replyData x.req recs.length recs head s
    if a.status ≠ 0 then endOp n a.status a.detail [] a.st else endOp n status detail a.result a.st

/-- The store area of a group, as its bytes were read. -/
def areaOf (s : State) (g : CkGroup) (data : Bytes) : Area :=
  { l := lbaSize s g.qp g.nsid, slot := slotBlocks (lbaSize s g.qp g.nsid) g.maxShards, half := g.half, bytes := data }

/-- The cut ID, the step and the source that a restore answers (R431). -/
def restoreHead (src : Nat) (fs : List Found) : Bytes :=
  u64 (((fs.head?).map (·.cutId)).getD 0) ++ u64 (((fs.head?).map (·.step)).getD 0) ++ u8 src

/-- The read of a restore has completed: a cut is chosen, and phase RESTORE begins (R420, R431). -/
def restoreIo (n : Nat) (ok : Bool) (data : Bytes) (s : State) : State :=
  match tget s.mld.restores n with
  | none => s
  | some x =>
    match getGroupCk s x.group with
    | none => restoreEnd n St.badField 0 [] [] s
    | some g =>
      let l := lbaSize s g.qp g.nsid
      if stopping s n then restoreEnd n St.cancelled 0 [] [] s
      else if !ok || l = 0 then restoreEnd n St.storeLost 0 [] [] s
      else
        match (areaOf s g data).choose with
        | .noCut => restoreEnd n St.noCut 0 [] [] s
        | .mixed bad count => restoreEnd n St.mixedCut count [] (bad.flatMap id) s
        | .cut src fs =>
          if x.verify then restoreEnd n 0 0 (restoreHead src fs) [] s
          else if !carried x.req && (match sgCover x.req (24 * fs.length) s with | .ok _ => false | .error _ => true) then
            restoreEnd n St.badField 0 [] [] s
          else
            progressOp n 2 0 fs.length { s with mld := { s.mld with restores := tset s.mld.restores n { x with data } } }

/-- Phase RESTORE: each shard of the chosen cut becomes a parked session (R421). -/
def restoreTake (m : Moment) (n : Nat) (s : State) : State :=
  match tget s.mld.restores n with
  | none => s
  | some x =>
    match getGroupCk s x.group with
    | none => restoreEnd n St.badField 0 [] [] s
    | some g =>
      match (areaOf s g x.data).choose with
      | .cut src fs =>
        let (recs, k, s) := restoreAll m g.partition x.tier x.target fs 0 s
        let s := progressOp n 2 fs.length fs.length s
        note 0x0C03 0 g.partition 0 [x.group, ((fs.head?).map (·.step)).getD 0, src, k] (restoreEnd n 0 0 (restoreHead src fs) recs s)
      | _ => s

/-! ### The CHECKPOINT step (R422) -/

/-- The shard that a read for a session returned, when it is the session's at its present length and verifies. -/
def checkpointBody (s : State) (x : Session) (data : Bytes) : Option Body :=
  let f : Found := { half := 0, off := 0, head := data.take 256, body := (data.drop 4096).take (field data 0x38 8) }
  if f.kept && f.cutId = cutOf s x.id && field f.head 0x28 8 = x.id
      && field f.head 0x30 4 % 2 ^ 24 = x.length then
    (openShard s x.partition f).map (bodyOf x.length)
  else none

/-- Failed pages of an operation that wait for a checkpoint. -/
def ckptKeys (f : Fop) : List Nat := f.bad.filter (fun k => (tgetD f.tried k []).getLast? = some 2)

/-- A shard read of a recovery has completed: the failed pages, or the cast image, come from it, or the step fails (R118, R422). -/
def recoverIo (m : Moment) (n : Nat) (ok : Bool) (data : Bytes) (s : State) : State :=
  match getFop s n with
  | none => s
  | some f =>
    match getSess s f.session with
    | none => s
    | some x =>
      let fail (s : State) : State :=
        if f.entry.isNone then recoveryFailed x.id x.partition 2 St.storeLost s
        else (ckptKeys f).foldl (fun s k => recoverNext n k s) s
      match if ok then checkpointBody s x data else none with
      | none => fail s
      | some b =>
        if f.entry.isNone then
          let s := match (getStore s x.id).image with
            | some y => modFop n (fun f => { f with entry := some y }) s
            | none => modFop n (fun f => { f with entry := some { b.entry with st := f.entry.elim b.entry.st (·.st) } }) s
          raiseRestore m n (recovered n 2 0 s)
        else
          let kv := (getModel s x.modelSlot).hdr.kvFormat
          let cnt (cls : Nat) : Nat := 2 ^ cls * 8 / max 1 (if kv = 8 || kv = 9 then 16 else 8)
          pagesAdvance n ((ckptKeys f).foldl (fun s k =>
            match tget b.pages k, tget f.fresh k with
            | some p, some d =>
              let enc := (tgetD b.tables.ptes k {}).enc
              let p := if enc = 0 then p else widenPage kv enc (cnt b.tables.pageClass) p
              pageRecovered n k 2 (devWrite d.tier d.addr p s)
            | _, _ => recoverNext n k s) s)

end Sys2Proof.Machine
end

