-- ==== Sys2Proof/Machine/Check.lean ====
section
/-! DEFINITION. Check units: the four CRCs, their register block and the commands that claim and run them (R423 to R426, 14). -/

namespace Sys2Proof.Machine

/-! ### The CRCs (R423) -/

/-- Width, initial value and final XOR of a POLY. -/
def crcWidth (poly : Nat) : Nat := if poly = 2 then 64 else if poly = 3 then 16 else 32
def crcInit (poly : Nat) : Nat := if poly = 2 then ones64 else if poly = 3 then 0xFFFF else ones32
def crcFinal (poly : Nat) : Nat := if poly = 2 then ones64 else if poly = 3 then 0 else ones32

/-- Absorbs one byte into a running value. -/
def crcAbsorb (poly v : Nat) (b : Byte) : Nat :=
  match poly with
  | 0 => crcByte 0x82F63B78 v b
  | 1 => crcByte 0xEDB88320 v b
  | 2 => crcByte 0xC96C5795D7870F42 v b
  | _ => crcFwdByte 16 0x1021 v b

/-! ### Units (R424, R425) -/

/-- A unit: units 6 and 7 are the Mould's at reset. -/
def getUnit (s : State) (u : Nat) : CheckUnit := tgetD s.chk u { owner := if 6 ≤ u then .mould else .free }
def setUnit (u : Nat) (x : CheckUnit) (s : State) : State := { s with chk := tset s.chk u x }

/-- The unit's POLY is set and the unit restarted. -/
def CheckUnit.init (x : CheckUnit) (poly : Nat) : CheckUnit := { x with poly, value := crcInit poly, bytes := 0 }

/-- Absorbs bytes. -/
def CheckUnit.absorb (x : CheckUnit) (b : Bytes) : CheckUnit :=
  { x with value := b.foldl (crcAbsorb x.poly) x.value, bytes := (x.bytes + b.length) % 2 ^ 64 }

/-- A function has claimed it. -/
def CheckUnit.claimed (x : CheckUnit) : Bool := match x.owner with | .fn _ => true | _ => false

def CheckUnit.result (x : CheckUnit) : Nat := x.value ^^^ crcFinal x.poly

/-- CHK_CTL. -/
def CheckUnit.ctl (x : CheckUnit) : Nat :=
  let own := match x.owner with | .free => 0 | .mould => 0x1F | .fn f => f
  b2n (x.owner ≠ .free) * 2 ^ 31 + own * 2 ^ 26 + b2n (x.busy ≠ 0) * 4 + x.poly

/-- The 256-byte register block as its claimant reads it; zeros for every other function. -/
def CheckUnit.block (x : CheckUnit) (fn : Nat) : Bytes :=
  if x.owner = .fn fn then
    fit 256 (u32 x.ctl ++ u32 (b2n x.overlap) ++ u64 x.value ++ u64 x.result ++ zeros 24 ++ u64 x.bytes)
  else zeros 256

/-- The part of a 64-bit register that a write of `n` bytes at its offset `o` changes. -/
def mergeReg (old o n v : Nat) : Nat := leVal (((le 8 old).take o ++ le n v ++ (le 8 old).drop (o + n)).take 8)

/-- Whether a write at an offset reaches a register that BUSY protects; +0x24 and +0x2C hold none (R425). -/
def chkGuarded (off : Nat) : Bool :=
  off = 0 || off = 8 || off = 0xC || off = 0x18 || off = 0x1C || off = 0x20 || off = 0x28 || off = 0x30 || off = 0x34

/-- CHK_STATUS: writing one clears OVERLAP; an 8-byte write at +0x00 brings it in its upper word (R9, R425). -/
def CheckUnit.statusWrite (x : CheckUnit) (off n v : Nat) : CheckUnit :=
  if off = 4 then { x with overlap := x.overlap && !bit v 0 }
  else if off = 0 && n = 8 then { x with overlap := x.overlap && !bit v 32 }
  else x

/-- A write of `n` bytes at an offset of a unit's block. The widths of the accesses are the model's choice (DESIGN CHOICE, log entry
58): CHK_INIT takes a write of either of its words, a 4-byte write of CHK_DATA8 absorbs 8 bytes, the upper four zero, and of an
8-byte write at +0x00 CHK_STATUS takes its part first. -/
def CheckUnit.write (x : CheckUnit) (off n v : Nat) : CheckUnit :=
  let x := x.statusWrite off n v
  if x.busy ≠ 0 then (if chkGuarded off then { x with overlap := true } else x)
  else if off = 0 then x.init (v % 4)
  else if 8 ≤ off && off < 0x10 then { x with value := mergeReg x.value (off - 8) n v % 2 ^ crcWidth x.poly }
  else if off = 0x18 || off = 0x1C then x.init x.poly
  else if off = 0x20 then x.absorb (le 8 v)
  else if off = 0x28 then x.absorb (le 1 v)
  else if 0x30 ≤ off && off < 0x38 then { x with bytes := mergeReg x.bytes (off - 0x30) n v }
  else x

/-- A write of `n` bytes at an offset of a unit's block by function `fn`: only its claimant's has an effect (R424). -/
def chkWrite (fn u off n v : Nat) (s : State) : State :=
  let x := getUnit s u
  if 8 ≤ u || x.owner ≠ .fn fn then s else setUnit u (x.write off n v) s

/-- CHK_CTL_WRITE, CHK_INIT, CHK_DATA8 and CHK_DATA1: writes of those registers. -/
def execChkCtlWrite (m : Moment) (fn unit value : Nat) (s : State) : Out := .next (hostAccess fn (chkWrite fn unit 0 4 value) (s.at m))
def execChkInit (m : Moment) (fn unit value : Nat) (s : State) : Out := .next (hostAccess fn (chkWrite fn unit 0x18 4 value) (s.at m))
def execChkData8 (m : Moment) (fn unit value : Nat) (s : State) : Out := .next (hostAccess fn (chkWrite fn unit 0x20 8 value) (s.at m))
def execChkData1 (m : Moment) (fn unit value : Nat) (s : State) : Out := .next (hostAccess fn (chkWrite fn unit 0x28 4 value) (s.at m))

/-- Units claimed by a function are freed (FLR, teardown). -/
def freeUnits (fn : Nat) (s : State) : State :=
  { s with chk := s.chk.map (fun e => if e.2.owner = .fn fn then (e.1, {}) else e) }

/-! ### Commands -/

def opMldConfig : OpInfo := { opcode := 0x0C04, pf0 := true }

/-- MLD_CONFIG: the units that the Mould keeps (R424). -/
def bodyMldConfig (_ : Moment) (r : Req) (s : State) : Reply :=
  let mask := r.f 0 1
  if mask = 0 || (setBits 8 mask).any (fun u => (getUnit s u).claimed) then .err s St.unitBusy
  else
    let s := (List.range 8).foldl (fun t u =>
      if (getUnit s u).claimed then t else setUnit u { owner := if bit mask u then .mould else .free } t) s
    .ok { s with mld := { s.mld with units := mask } }

def execMldConfig (m : Moment) (r : Req) (s : State) : Out := .next (runCommand opMldConfig bodyMldConfig m r s)

def opChkClaim : OpInfo := { opcode := 0x0C05 }

/-- CHK_CLAIM (R424). -/
def bodyChkClaim (_ : Moment) (r : Req) (s : State) : Reply :=
  let u := r.f 0 1
  if 8 ≤ u || 4 ≤ r.f 1 1 then .err s St.badField
  else if (getUnit s u).owner ≠ .free then .err s St.unitBusy
  else .ok (setUnit u (({ owner := .fn r.fn } : CheckUnit).init (r.f 1 1)) s)

def execChkClaim (m : Moment) (r : Req) (s : State) : Out := .next (runCommand opChkClaim bodyChkClaim m r s)

def opChkRelease : OpInfo := { opcode := 0x0C06 }

/-- CHK_RELEASE; a unit that a CHK_RUN uses stays claimed until its end. -/
def bodyChkRelease (_ : Moment) (r : Req) (s : State) : Reply :=
  let u := r.f 0 1
  if 8 ≤ u then .err s St.badField
  else if (getUnit s u).owner ≠ .fn r.fn then .err s St.notPermitted
  else if (getUnit s u).busy ≠ 0 then .err s St.unitBusy
  else .ok (setUnit u {} s)

def execChkRelease (m : Moment) (r : Req) (s : State) : Out := .next (runCommand opChkRelease bodyChkRelease m r s)

def opChkRun : OpInfo := { opcode := 0x0C07, rbits := [(1, 1, 0xFE)], rsvd := [(4, 4)] }

/-- The bytes of a CHK_RUN that have been absorbed: whole 64-byte groups when it is stopped. -/
def chkAbsorb (r : Req) (n : Nat) (s : State) : Except SgErr State :=
  let u := r.f 0 1
  let go (b : Bytes) : State := setUnit u ((getUnit s u).absorb (b.take n)) s
  if r.f 2 1 = 0 then (inData r (r.f 0x10 8) s).map go
  else .ok (go (shownPart s r.part16 (r.f 3 1) (r.f 8 8) n))

/-- CHK_RUN: absorbs a run of bytes; it is an operation until LONG_OP_END (R426). -/
def bodyChkRun (_ : Moment) (r : Req) (s : State) : Reply :=
  let u := r.f 0 1
  let x := getUnit s u
  let n := r.f 0x10 8
  if 8 ≤ u || 1 < r.f 2 1 then .err s St.badField
  else if x.owner ≠ .fn r.fn then .err s St.notPermitted
  else if x.busy ≠ 0 then .err s St.unitBusy
  else if r.f 2 1 = 1 && !((r.f 3 1 = 1 || r.f 3 1 = 2) && decide (r.f 8 8 + n ≤ partBytes s r.part16 (r.f 3 1))) then
    .err s St.badField
  else
    match if r.f 2 1 = 0 && !carried r then (sgCover r n s).map (fun _ => ()) else .ok () with
    | .error e => .sg r s e
    | .ok _ =>
      asOp r s 1 1 n true [u] fun op s =>
        setUnit u { (if bit (r.f 1 1) 0 then x.init x.poly else x) with busy := op } s

/-- The end of a CHK_RUN: all of its bytes are absorbed, or those of the whole groups that its position counts when it was
cancelled. -/
def endChkRun (n : Nat) (o : LongOp) (s : State) : State :=
  let u := o.args.getD 0 0
  let s := setUnit u { getUnit s u with busy := 0 } s
  let k := if o.cancelling then o.prog.position / 64 * 64 else o.req.f 0x10 8
  match chkAbsorb o.req k s with
  | .error .badField => endOp n St.badField 0 [] s
  | .error (.fault i kind) => endOp n St.sgFault i [] (logSgFault o.req i kind s)
  | .ok s =>
    let x := getUnit s u
    let s := match getOp s n with
      | some o => setOp n { o with prog := { o.prog with position := k } } s
      | none => s
    endOp n (if o.cancelling then St.cancelled else 0) 0 (u64 x.result ++ u64 x.value) s

def execChkRun (m : Moment) (r : Req) (s : State) : Out := .next (runCommand opChkRun bodyChkRun m r s)

end Sys2Proof.Machine
end

