-- ==== Sys2Proof/Machine/Streams.lean ====
section
/-! DEFINITION. The stream writer: records leave the spill buffers for their rings (R283 to R286, 09). -/

namespace Sys2Proof.Machine

/-- A ring becomes FAULTED: cause 0 a failed access, 1 a consumed count out of range (R284, R286, R301). -/
def ringFault (k cause value : Nat) (s : State) : State :=
  match getRing s k with
  | none => s
  | some x => note 0x0703 1 (k / 1024) 0 [k % 1024, x.kind, cause, value] (setRing k { x with faulted := true } s)

/-- STREAM_RING_SET's write of zero to the produced word (R284): at the host, or by a sealed write without data to the peer's region. -/
def zeroProduced (k : Nat) (x : StreamRing) (s : State) : State :=
  if x.kind = 1 then
    match hostErr s (x.consAddr + 8) 8 with
    | some e => ringFault k 0 e s
    | none => hostWrite (x.consAddr + 8) (u64 0) s
  else
    match qpOf s x.conn with
    | none => ringFault k 0 St.connGone s
    | some (i, _) =>
      match gxWrite i { owner := .ringZero k, lastPsn := 0 } x.key x.base [] { payload := u64 0, off := x.consAddr + 8 } s with
      | .ok s => s
      | .error st => ringFault k 0 st s

/-- STREAM_RING_SET: configures, reconfigures or disables a ring (R284, R286, R302). What was on its way to the ring as it was configured
before no longer counts for it. -/
def bodyStreamRingSet (_ : Moment) (r : Req) (s : State) : Reply :=
  let p := r.part16
  let n := r.f 0 2
  let kind := r.f 2 1
  let k := ringKey p n
  let old := getRing s k
  let busy := ringTargeted s p n || old.any (fun x => !x.spill.isEmpty)
  let clear (s : State) : State := dropMsgs (.stream k) (dropMsgs (.ringZero k) (dropMsgs (.cons k) s))
  if 1023 < n || 2 < kind then .err s St.badField
  else if kind = 0 then
    if busy then .err s St.ringBusy
    else .ok (clear { s with pla := { s.pla with rings := tdel s.pla.rings k } })
  else if r.f 3 1 < 6 || 20 < r.f 3 1 || r.f 8 8 % 4096 ≠ 0 || r.f 0x10 8 % 16 ≠ 0
      || (decide (2048 ≤ r.f 0x20 2) && r.f 0x20 2 ≠ 0xFFFF) then .err s St.badField
  else if busy && !(old.any (·.faulted)) then .err s St.ringBusy
  else if old.isNone && partBytes s p 1 < takenBytes s p 1 + 16384 * 64 then .err s 0x0201
  else
    let x : StreamRing := {
      kind, log2 := r.f 3 1, base := r.f 8 8, consAddr := r.f 0x10 8, conn := r.f 0x18 4, key := r.f 0x1C 4
      vector := r.f 0x20 2, fn := r.fn, spill := (old.map (·.spill)).getD [], reserved := (old.map (·.reserved)).getD 0 }
    .ok (zeroProduced k x (setRing k x (clear s)))

/-- Records of a ring not yet known to be consumed. -/
def StreamRing.used (x : StreamRing) : Nat := (x.prod + 2 ^ 64 - x.cons) % 2 ^ 64

/-- A record's 64 bytes, as number `i` of a ring of 2^n (R285). -/
def recordBytes (ct i n : Nat) (r : StreamRec) : Bytes :=
  let phase := 1 - i / 2 ^ n % 2
  u64 r.session ++ u32 (r.length % 2 ^ 24)
    ++ u8 (phase * 128 + b2n r.fault * 16 + b2n r.stop * 8 + b2n r.endStep * 4 + b2n r.first * 2) ++ u8 (if r.stop then r.stopReason else 0)
    ++ u8 0 ++ u8 r.data.length ++ u64 ct ++ fit 40 r.data

/-- The first record of a ring when the writer may write it: the ring is not FAULTED, has room, no write of it is outstanding,
and the record's step is not held by the twin comparison (R398). -/
def ringReady (s : State) (k : Nat) (x : StreamRing) : Option StreamRec :=
  match x.spill.head? with
  | none => none
  | some r =>
    if x.faulted || decide (2 ^ x.log2 ≤ x.used) || (msgOf s (.stream k)).isSome || (r.twinStep ≠ 0 && thas s.twn.steps r.twinStep)
    then none else some r

/-- Partitions for which the stream writer has work. -/
def streamParts (s : State) : List Nat :=
  (List.range 16).filter (fun p => s.pla.rings.any (fun e => e.1 / 1024 = p && (ringReady s e.1 e.2).isSome))

/-- Charges a partition for one record written (R283). -/
def chargeStream (p : Nat) (s : State) : State := chargePart .stream p 1 (streamParts s) s

/-- A record has been delivered: it leaves the spill buffer. -/
def ringSent (k : Nat) (s : State) : State :=
  match getRing s k with
  | none => s
  | some x =>
    let s := move Lg.spill k 2 0 1 7 0 (setRing k { x with prod := (x.prod + 1) % 2 ^ 64, spill := x.spill.drop 1 } s)
    if x.kind = 1 && (x.prod + 1 + 2 ^ 64 - x.cons) % 2 ^ 64 = 1 && x.vector ≠ 0xFFFF then sendMsix x.fn x.vector s else s

/-- Writes a record to a host ring, then the produced count. -/
def hostRecord (k : Nat) (x : StreamRing) (r : StreamRec) (s : State) : State :=
  let a := x.base + 64 * (x.prod % 2 ^ x.log2)
  match hostErr s a 64 with
  | some e => ringFault k 0 e s
  | none =>
    let s := hostWrite a (recordBytes s.ct x.prod x.log2 r) s
    match hostErr s (x.consAddr + 8) 8 with
    | some e => ringFault k 0 e (ringSent k s)
    | none => ringSent k (hostWrite (x.consAddr + 8) (u64 ((x.prod + 1) % 2 ^ 64)) s)

/-- Sends a record to a remote ring as one sealed write whose seal payload is the produced count (R284, R359). -/
def remoteRecord (k : Nat) (x : StreamRing) (r : StreamRec) (s : State) : State :=
  match qpOf s x.conn with
  | none => ringFault k 0 St.connGone s
  | some (i, _) =>
    match gxWrite i { owner := .stream k, lastPsn := 0 } x.key (x.base + 64 * (x.prod % 2 ^ x.log2)) (recordBytes s.ct x.prod x.log2 r)
        { payload := u64 ((x.prod + 1) % 2 ^ 64), off := x.consAddr + 8 } s with
    | .ok s => s
    | .error st => ringFault k 0 st s

/-- STREAM_RECORD_WRITE: the writer writes the next record of a ring of the partition whose turn it is (R283, R286). -/
def streamRecordWrite (p n : Nat) (s : State) : State :=
  let k := ringKey p n
  match getRing s k with
  | none => s
  | some x =>
    match ringReady s k x with
    | none => s
    | some r =>
      let s := wakeParts .stream (streamParts s) s
      if nextPartition .stream (streamParts s) s ≠ some p then s
      else chargeStream p (if x.kind = 1 then hostRecord k x r s else remoteRecord k x r s)

/-- A consumed count has been read: it counts, or it cannot come from a correct consumer (R284). -/
def consGot (k v : Nat) (s : State) : State :=
  match getRing s k with
  | none => s
  | some x =>
    if 2 ^ x.log2 < (x.prod + 2 ^ 64 - v) % 2 ^ 64 then ringFault k 1 v s
    else setRing k { x with cons := v } s

/-- STREAM_CONS_READ: the device reads a ring's consumed count while the ring seems full, at most once per 1 µs or 5 µs; a remote
ring's comes back with a GX read (R286, R360). -/
def streamConsRead (p n : Nat) (s : State) : State :=
  let k := ringKey p n
  match getRing s k with
  | none => s
  | some x =>
    let gap := if x.kind = 1 then 1000 else 5000
    if x.faulted || x.spill.isEmpty || decide (x.used < 2 ^ x.log2) || x.consCt.any (fun c => decide (s.ct < c + gap)) then s
    else
      let s := setRing k { x with consCt := some s.ct } s
      if x.kind = 1 then
        match hostErr s x.consAddr 8 with
        | some e => ringFault k 0 e s
        | none => consGot k (field (hostRead s x.consAddr 8) 0 8) s
      else if (msgOf s (.cons k)).isSome then s
      else
        match qpOf s x.conn with
        | none => ringFault k 0 St.connGone s
        | some (i, _) =>
          match gxRead i { owner := .cons k, lastPsn := 0 } x.key x.consAddr 8 s with
          | .ok s => s
          | .error st => ringFault k 0 st s

end Sys2Proof.Machine
end

