-- ==== Sys2Proof/Machine/Nvme.lean ====
section
/-! DEFINITION. The NVMe over Fabrics host: controllers, completions and losses (R350, 12). -/

namespace Sys2Proof.Machine

namespace St
def nvmeUnsupported : Nat := 0x0A0A
end St

/-- Forgets a controller. -/
def dropCtrl (c : Nat) (s : State) : State := { s with net := { s.net with ctrls := tdel s.net.ctrls c } }

/-! ### Connecting -/

def opNvmeConnect : OpInfo := { opcode := 0x0A0F, pf0 := true, rsvd := [(4, 12), (0x211, 1)] }

/-- NVME_CONNECT: Connect and Identify go out on an RC queue pair; the operation ends with their completion (R350). -/
def bodyNvmeConnect (m : Moment) (r : Req) (s : State) : Reply :=
  let h := r.f 0 4
  let q := r.f 0x210 1
  let d := r.f 0x212 2
  match qpOf s h with
  | none => .err s St.connGone
  | some (_, x) =>
    if x.gx || q = 0 || decide (64 < q) || decide (d < 16) || decide (1024 < d) then .err s St.badField
    else if x.state ≠ .rts then .err s St.qpError
    else
      match pickIdx m 0 s.net.ctrls 64 with
      | none => .err s St.busyRetry
      | some c =>
        asOp r s 0 0 0 false [c] fun n s =>
          let x : NvCtrl := { handle := h, subnqn := r.b 0x10 256, hostnqn := r.b 0x110 256, ioQueues := q, depth := d, op := n }
          let s := { s with net := { s.net with ctrls := tset s.net.ctrls c x } }
          nvmeIssue c 0 3 0 0 (r.b 0x10 512) { controller := c, owner := .connect n } s

def execNvmeConnect (m : Moment) (r : Req) (s : State) : Out := .next (runCommand opNvmeConnect bodyNvmeConnect m r s)

/-- A namespace that Identify lists: number, LBA size, metadata bytes and protection type, 8 bytes each (log entry 30). -/
def namespacesOf (b : Bytes) : List (Nat × Nat × Bool) :=
  (List.range (b.length / 8)).map (fun i =>
    (field b (8 * i) 4, field b (8 * i + 4) 2, field b (8 * i + 6) 1 = 0 && field b (8 * i + 7) 1 = 0))

/-- Connect and Identify have completed: every namespace must be one that R350 supports. -/
def connectIo (n : Nat) (ok : Bool) (data : Bytes) (s : State) : State :=
  match s.net.ctrls.find? (fun e => e.2.op = n) with
  | none => s
  | some (c, x) =>
    let l := namespacesOf data
    if !ok then endOp n St.qpError 0 [] (dropCtrl c s)
    else if l.any (fun e => !((e.2.1 = 512 || e.2.1 = 4096) && e.2.2)) then endOp n St.nvmeUnsupported 0 [] (dropCtrl c s)
    else
      let x := { x with connected := true, op := 0, namespaces := l.foldl (fun t e => tset t e.1 e.2.1) [] }
      let s := { s with net := { s.net with ctrls := tset s.net.ctrls c x } }
      endOp n 0 0 (u8 c ++ u32 l.length) s

/-! ### Completions -/

/-- A command's completion reaches the unit that issued it. -/
def nvmeDone (m : Moment) (cmd : Nat) (ok : Bool) (data : Bytes) (s : State) : State :=
  match tget s.net.cmds cmd with
  | none => s
  | some c =>
    let s := { s with net := { s.net with cmds := tdel s.net.cmds cmd } }
    match c.owner with
    | .cut g => cutIo g c ok s
    | .restore n => restoreIo n ok data s
    | .recover n => recoverIo m n ok data s
    | .connect n => connectIo n ok data s

/-- Every command outstanding at a controller fails. -/
def nvmeFailAll (m : Moment) (c : Nat) (s : State) : State :=
  (tfind s.net.cmds (fun x => x.controller = c)).foldl (fun s n => nvmeDone m n false [] s) s

/-- A controller is lost: cause 1 Keep Alive, 2 its queue pair (R350, R378). -/
def nvmeLost (m : Moment) (c cause : Nat) (s : State) : State :=
  match tget s.net.ctrls c with
  | none => s
  | some _ => dropCtrl c (nvmeFailAll m c (note 0x0A08 1 0xFF 0 [c, cause] s))

/-! ### Disconnecting -/

def opNvmeDisconnect : OpInfo := { opcode := 0x0A10, pf0 := true }

/-- NVME_DISCONNECT: outstanding I/O fails, and the controller is gone (R379). -/
def bodyNvmeDisconnect (m : Moment) (r : Req) (s : State) : Reply :=
  let c := r.f 0 1
  if (tget s.net.ctrls c).isNone then .err s St.badField
  else asOp r s 0 0 0 false [c] fun _ s => dropCtrl c (nvmeFailAll m c s)

end Sys2Proof.Machine
end

