-- ==== Sys2Proof/Machine/Attention.lean ====
section
/-! DEFINITION. Attention on score plates: visible keys, rows, rounds and the three passes (R194 to R213, 06). -/

namespace Sys2Proof.Machine

/-! ### Rows and visible keys (R194, R195) -/

/-- Whether a position is visible to a row at position `q` under a session's pattern. -/
def sees (x : Session) (q k : Nat) : Bool :=
  decide (k ≤ q) && (!sflag x.flags Fl.sparse || decide (k < x.globalCount) || decide (q / 256 + 1 ≤ k / 256 + x.windowPages))

/-- The visible keys of a row, ascending. -/
def visible (x : Session) (q : Nat) : List Nat := (List.range (q + 1)).filter (sees x q)

/-- How many keys a row at position `q` sees. -/
def visibleCount (x : Session) (q : Nat) : Nat :=
  if !sflag x.flags Fl.sparse then q + 1
  else
    let first := 256 * (q / 256 + 1 - x.windowPages)
    if first ≤ x.globalCount then q + 1 else x.globalCount + (q + 1 - first)

/-- Blocks that hold a visible key of some query position from `a` to `a + n - 1` (R212). -/
def neededBlocks (x : Session) (a n : Nat) : List Nat :=
  if n = 0 then []
  else
    (List.range ((a + n - 1) / 256 + 1)).filter (fun b =>
      !sflag x.flags Fl.sparse || decide (256 * b < x.globalCount) || decide (a / 256 + 1 ≤ b + x.windowPages))

/-- Query positions of an invocation's row. -/
def InvRow.count (r : InvRow) : Nat := if r.chunk = 0 then 1 + r.drafts else r.chunk

/-- Query positions of a row, ascending. -/
def InvRow.positions (r : InvRow) : List Nat := (List.range r.count).map (r.start + ·)

/-! ### Lines and rounds (R200, R201) -/

/-- Plate lines of the rows of an item: `qh` query heads at positions `a` to `a + n - 1`, in row order. -/
def itemLines (x : Session) (qh a n : Nat) : List Nat :=
  (List.range n).flatMap (fun i => List.replicate qh (ceilDiv (visibleCount x (a + i)) 256))

/-- Rows placed one after another in rounds of `cap` lines: complete rounds before the current one, and lines used in it. -/
def packLines (cap : Nat) (l : List Nat) (a : Nat × Nat) : Nat × Nat :=
  l.foldl (fun a k => if cap < a.2 + k then (a.1 + 1, k) else (a.1, a.2 + k)) a

/-- Where a row of `k` lines goes: its round and its first line there. It takes the next free lines, or those of the next round (R201). -/
def lineOf (cap : Nat) (a : Nat × Nat) (k : Nat) : Nat × Nat := if cap < a.2 + k then (a.1 + 1, 0) else a

/-- Rounds that a packing has used. -/
def roundsUsed (a : Nat × Nat) : Nat := if a.2 = 0 then a.1 else a.1 + 1

/-! ### Keys and values in pages (R129, R202) -/

/-- Bytes of one head vector. -/
def vecBytes (h : ModelHdr) : Nat := h.headDim * fmtBits h.kvFormat / 8

/-- Offset in a page of a head vector: layer in the group, K (0) or V (1), KV head, position in the page. -/
def vecOffset (h : ModelHdr) (layer kv head pos : Nat) : Nat := (((layer * 2 + kv) * h.kvHeads + head) * 256 + pos % 256) * vecBytes h

/-- The reserved frame of a page that was lost and is being recovered (R117, R119). -/
def lostPte (s : State) (id g b : Nat) : Option Pte :=
  s.fdy.ops.findSome? (fun e =>
    if e.2.session = id && e.2.bad.contains (pteKey g b) then tget e.2.fresh (pteKey g b) else none)

/-- The entry by which a step reads a page: a page that is being rebuilt lies in its reserved frame. -/
def livePte (s : State) (id g b : Nat) : Pte := (lostPte s id g b).getD (getPte s id g b)

/-- Writes a head vector of a session's position: a rebuild writes lost pages alone (R119). A page that is not on this chip takes
no write. -/
def putVec (rebuild : Bool) (id g : Nat) (h : ModelHdr) (layer kv head pos : Nat) (b : Bytes) (s : State) : State :=
  let e := livePte s id g (pos / 256)
  if e.here s && (!rebuild || (lostPte s id g (pos / 256)).isSome) then devWrite e.tier (e.addr + vecOffset h layer kv head pos) b s else s

/-- Reads a head vector as values. -/
def getVec (s : State) (id g : Nat) (h : ModelHdr) (layer kv head pos : Nat) : List Fv :=
  let e := livePte s id g (pos / 256)
  let b := if e.here s then devRead s e.tier (e.addr + vecOffset h layer kv head pos) (vecBytes h) else Config.remoteBytes s.free [0, id, g, layer, kv, head, pos] (vecBytes h)
  (List.range h.headDim).map (fun i => elemDecode h.kvFormat (streamElem (fmtBits h.kvFormat) b i))

/-- Values in the KV format. -/
def kvBytes (h : ModelHdr) (sat : Bool) (l : List F32) : Bytes :=
  fit (vecBytes h) (packElems (fmtBits h.kvFormat) ((List.range h.headDim).map (fun i => (elemEncode h.kvFormat sat (f32v (l.getD i 0))).1)))

/-- The operand of a session's position in a layer. -/
def attFor (att : List AttIn) (id pos layer : Nat) : Option AttIn :=
  att.find? (fun a => a.session = id && a.pos = pos && a.layer = layer)

/-! ### The context slots (R176, R198) -/

/-- Changes an invocation. -/
def modInv (serial : Nat) (f : Invocation → Invocation) (s : State) : State :=
  { s with tile := { s.tile with invs := tmod s.tile.invs serial f } }

/-- Writes a cell of an invocation's context slots. -/
def putCell (serial : Nat) (c : CtxCell) (s : State) : State :=
  modInv serial (fun v => { v with
    ctx := v.ctx.filter (fun x => !(x.offset = c.offset && x.session = c.session && x.pos = c.pos && x.head = c.head)) ++ [c] }) s

/-- Reads a cell. -/
def getCell (s : State) (serial offset id pos head : Nat) : List (BitVec 32) :=
  ((tget s.tile.invs serial).bind (fun v =>
    v.ctx.find? (fun x => x.offset = offset && x.session = id && x.pos = pos && x.head = head))).elim [] (·.vals)

/-- Free words: what the command stream has left at an operand that the event does not give (log entry 8). -/
def freeWords (s : State) (place : List Nat) (n : Nat) : List (BitVec 32) :=
  let b := Config.remoteBytes s.free place (4 * n)
  (List.range n).map (fun i => BitVec.ofNat 32 (leVal (slice b (4 * i) 4)))

/-- What the command stream has put into the context slots for one position of a layer: its queries at `q_op`, its new keys and values
at `kv_op` (R198, R202; log entry 8). -/
def putOperand (serial : Nat) (h : ModelHdr) (d : AttDesc) (att : List AttIn) (id pos layer : Nat) (s : State) : State :=
  let a := attFor att id pos layer
  let val (i hd : Nat) (l : Option (List F32)) : List F32 := l.getD (freeWords s [i, id, pos, layer, hd] h.headDim)
  let s := (List.range h.qHeads).foldl (fun s hd => putCell serial ⟨d.qOff, id, pos, hd, val 0 hd (a.bind (fun a => a.q[hd]?))⟩ s) s
  let s := (List.range h.kvHeads).foldl (fun s hd =>
    let k := val 1 hd (a.bind (fun a => a.k[hd]?))
    putCell serial ⟨d.kvOff, id, pos, hd, (List.range h.headDim).map (fun i => k.getD i 0) ++ val 2 hd (a.bind (fun a => a.v[hd]?))⟩ s) s
  { s with free := s.free + 1 }

/-- Writes the new keys and values of one position in one layer: its KV bytes in the order of R129. -/
def writeKv (serial : Nat) (rebuild : Bool) (h : ModelHdr) (d : AttDesc) (id g layer pos : Nat) (s : State) : State :=
  (List.range h.kvHeads).foldl (fun s hd =>
    let kv := getCell s serial d.kvOff id pos hd
    putVec rebuild id g h layer 1 hd pos (kvBytes h d.sat (kv.drop h.headDim))
      (putVec rebuild id g h layer 0 hd pos (kvBytes h d.sat (kv.take h.headDim)) s)) s

/-! ### The three passes (R203 to R206) -/

/-- Pass 1: the score of one key. -/
def score (cast : Bool) (n : List Nat) (d : AttDesc) (q k : List Fv) : F32 :=
  let s := f32mul (reduce cast n ((q.zip k).map (fun x => Fv.mul x.1 x.2))) d.scale
  if d.softcap = 0 then s else f32mul d.softcap (f32tanh (f32mul s d.capInv))

/-- Pass 2: the normalised row. -/
def normalise (cast : Bool) (n : List Nat) (l : List F32) : List F32 :=
  let m := l.foldl f32max (l.headD 0)
  let e := l.map (fun x => f32exp2 (f32mul (f32sub x m) l2e))
  let r := f32recip (reduce cast n (e.map f32v))
  e.map (fun x => f32mul x r)

/-- A probability as pass 3 uses it. -/
def probV (half : Bool) (p : F32) : Fv := if half then elemDecode 8 (elemEncode 8 false (f32v p)).1 else f32v p

/-- A row's entries on its lines: beyond its scores, `pad` (R200). -/
def padLines (pad : F32) (l : List F32) : List F32 := l ++ List.replicate (256 * ceilDiv l.length 256 - l.length) pad

/-- Pass 1 of a row: its scores, −∞ beyond them, or canonical NaNs where one is NaN or infinite (R203, R206). -/
def pass1 (cast : Bool) (n : Nat) (d : AttDesc) (r : PlateRow) (q : List Fv) (ks : List (List Fv)) : PlateRow :=
  let sc := ks.zipIdx.map (fun k => score cast [n, 0, k.2] d q k.1)
  if sc.any (fun x => f32nan x || f32inf x) then { r with bad := true, vals := padLines canonicalNan (sc.map (fun _ => canonicalNan)) }
  else { r with vals := padLines 0xFF800000 sc }

/-- Pass 2 of a row of `v` keys: its probabilities, +0 beyond them (R204). -/
def pass2 (cast : Bool) (n v : Nat) (r : PlateRow) : PlateRow :=
  if r.bad then r else { r with vals := padLines 0 (normalise cast [n, 1] (r.vals.take v)) }

/-- Pass 3 of a row: its output (R205). -/
def pass3 (cast : Bool) (n : Nat) (d : AttDesc) (dim : Nat) (r : PlateRow) (vs : List (List Fv)) : List F32 :=
  if r.bad then List.replicate dim canonicalNan
  else (List.range dim).map (fun i =>
    reduce cast [n, 2, i] ((r.vals.zip vs).map (fun x => Fv.mul (probV d.half x.1) (x.2.getD i Fv.zero))))

/-- ATTN_NAN, at most once per 1 ms of ct: it names the first row since the last one (R216). -/
def noteAttNan (p id : Nat) (place : List Nat) (s : State) : State :=
  let total := s.tile.attNanNew + 1
  let first := s.tile.attNanAt.getD (p, id, place)
  let due := match s.tile.attNanCt with | none => true | some c => decide (c + 1000000 ≤ s.ct)
  if due then
    note 0x0405 1 first.1 first.2.1 (first.2.2 ++ [total])
      { s with tile := { s.tile with attNanCt := some s.ct, attNanNew := 0, attNanAt := none } }
  else { s with tile := { s.tile with attNanNew := total, attNanAt := some first } }

/-- The rows of an invocation's item, in the order of R201: query position, then query head. -/
def itemRows (h : ModelHdr) (r : InvRow) : List PlateRow :=
  r.positions.flatMap (fun pos => (List.range h.qHeads).map (fun hd => { session := r.session, pos, head := hd, line := 0 }))

/-- Keys that a row sees. -/
def rowKeys (s : State) (r : PlateRow) : Nat := (getSess s r.session).elim 0 (fun x => visibleCount x r.pos)

/-- A layer's rows with their rounds, and the packing after them (R201). -/
def placeRows (s : State) (cap : Nat) (l : List PlateRow) : List (Nat × PlateRow) × (Nat × Nat) :=
  l.foldl (fun a r =>
    let k := ceilDiv (rowKeys s r) 256
    let p := lineOf cap a.2 k
    (a.1 ++ [(p.1, { r with line := p.2 })], packLines cap [k] a.2)) ([], (0, 0))

/-- Entry `i` of a line of a span's score plates, the span's lines numbered as R201 numbers them (R200). -/
def plateEntry (x : Plate) (line i : Nat) : Option F32 :=
  x.rows.findSome? (fun r => if r.line ≤ line then r.vals[256 * (line - r.line) + i]? else none)

/-- The keys (0) or values (1) that a row reads, in ascending position. -/
def rowVecs (s : State) (h : ModelHdr) (g layer kv : Nat) (r : PlateRow) : List (List Fv) :=
  match getSess s r.session with
  | some x => (visible x r.pos).map (getVec s x.id g h layer kv (r.head * h.kvHeads / max 1 h.qHeads))
  | none => []

/-- One round of a layer's attention: each pass over the round's rows in turn, on the plates (R202 to R206). -/
def attRound (serial : Nat) (h : ModelHdr) (d : AttDesc) (cast : Bool) (g layer round : Nat) (rows : List PlateRow) (s : State) : State :=
  let n := s.free
  let s := { s with free := n + rows.length }
  let lay := g * h.lgLayers + layer
  let qf := if h.kvFormat = 9 then 9 else 8
  let hold (l : List PlateRow) (s : State) : State :=
    { s with tile := { s.tile with plates := tset s.tile.plates serial { layer := lay, round, rows := l } } }
  let scored := rows.zipIdx.map (fun r => pass1 cast (n + r.2) d r.1
    ((List.range h.headDim).map (fun i => elemDecode qf (((getCell s serial d.qOff r.1.session r.1.pos r.1.head).getD i 0).toNat % 65536)))
    (rowVecs s h g layer 0 r.1))
  let s := hold scored s
  let probs := scored.zipIdx.map (fun r => pass2 cast (n + r.2) (rowKeys s r.1) r.1)
  let s := hold probs s
  let s := probs.zipIdx.foldl (fun s r =>
    putCell serial ⟨d.outOff, r.1.session, r.1.pos, r.1.head, pass3 cast (n + r.2) d h.headDim r.1 (rowVecs s h g layer 1 r.1)⟩ s) s
  (scored.filter (·.bad)).foldl (fun s r =>
    let p := (getSess s r.session).elim 0 (·.partition)
    noteAttNan p r.session [lay, r.head, r.pos] (bump .attNanRows p 1 s)) s

/-- The plates of a span are released: until they are next taken, their regions hold the weights of the invocation's next layer group
(R161, R178). -/
def releasePlate (serial : Nat) (v : Invocation) (s : State) : State :=
  { s with tile := { s.tile with
    plates := tdel s.tile.plates serial
    ahead := (setBits 16 v.spanMask).foldl (fun t g => tset t g { serial, lg := v.lg + 1, piece := 2 }) s.tile.ahead } }

/-- The span's plates are taken: what its plate regions held of weights is gone (R161). -/
def takePlate (v : Invocation) (s : State) : State :=
  { s with tile := { s.tile with ahead := (setBits 16 v.spanMask).foldl (fun t g => tdel t g) s.tile.ahead } }

/-- One layer's attention of an invocation: new keys and values, then the rounds over its rows in the order of the batch, then the plate
is released (R201, R202). -/
def attLayer (serial : Nat) (v : Invocation) (att : List AttIn) (layer : Nat) (s : State) : State :=
  let h := (getModel s v.slot).hdr
  let g := v.lg
  let lay := g * h.lgLayers + layer
  let d := (getModel s v.slot).att.getD lay ⟨0, 0, 0, false, 0, 0, 0, false⟩
  let live := v.rows.filter (fun r => !r.masked && (getSess s r.session).isSome)
  let s := live.foldl (fun s r => r.positions.foldl (fun s pos => putOperand serial h d att r.session pos lay s) s) (takePlate v s)
  let s := live.foldl (fun s r => r.positions.foldl (fun s pos => writeKv serial r.rebuild h d r.session g layer pos s) s) s
  let rows := live.flatMap (itemRows h)
  let (placed, pack) := placeRows s (8 * popcount 16 v.spanMask * 4096) rows
  let rounds := roundsUsed pack
  let s := (List.range rounds).foldl (fun s k =>
    attRound serial h d v.cast g layer k ((placed.filter (fun x => x.1 = k)).map (·.2)) s) s
  releasePlate serial v (bump .attRows v.partition rows.length
    (bump .attLines v.partition ((rows.map (fun r => ceilDiv (rowKeys s r) 256)).sum) (bump .attRounds v.partition rounds s)))

/-- The layers of an invocation's present layer group. -/
def attGroup (serial : Nat) (v : Invocation) (att : List AttIn) (s : State) : State :=
  (List.range (getModel s v.slot).hdr.lgLayers).foldl (fun s l => attLayer serial v att l s) s

/-- INT_SATURATED, at most once per 1 ms of ct (R168, R192). -/
def noteSat (p sat : Nat) (s : State) : State :=
  if sat = 0 then s
  else
    let total := s.tile.intSatNew + sat
    let due := match s.tile.intSatCt with | none => true | some c => decide (c + 1000000 ≤ s.ct)
    if due then note 0x0404 0 p 0 [total] { s with tile := { s.tile with intSatCt := some s.ct, intSatNew := 0 } }
    else { s with tile := { s.tile with intSatNew := total } }

/-- One operation of a layer group: its result goes to the context slots, and its saturations, clamped scales and NaN conversions are
counted (R168 to R170). -/
def layerOp (serial : Nat) (v : Invocation) (o : LayerOp) (s : State) : State :=
  let r := runOp v.cast [s.free, 3] o.op
  let s := putCell serial ⟨o.offset, o.session, o.pos, o.head, r.vals⟩ { s with free := s.free + 1 }
  noteSat v.partition r.sat (bump .tileIntSat v.partition r.sat
    (bump .tileScaleClamp v.partition r.clamp (bump .tileIntNan v.partition r.nan s)))

end Sys2Proof.Machine
end

