-- ==== Sys2Proof/Machine/Ports.lean ====
section
/-! DEFINITION. Ethernet ports, queue-pair errors, and the end of messages (R346, R351 to R353, R361, R363, R371, R373, 12). -/

namespace Sys2Proof.Machine

/-! ### Ports and interfaces (R346) -/

def getPort (s : State) (p : Nat) : Port := tgetD s.net.ports p {}
def setPort (p : Nat) (x : Port) (s : State) : State := { s with net := { s.net with ports := tset s.net.ports p x } }

/-- Sub-interfaces that a mode provides, and the line rate of each in Mb/s. -/
def modeSubs (mode : Nat) : List Nat := if mode = 0 then [0] else if mode = 1 then [0, 2] else [0, 1, 2, 3]
def modeRate (mode : Nat) : Nat := if mode = 0 then 800000 else if mode = 1 then 400000 else 200000

/-- Lanes of a sub-interface in a mode. -/
def subLanes (mode sub : Nat) : List Nat := if mode = 0 then [0, 1, 2, 3] else if mode = 1 then [sub, sub + 1] else [sub]

/-- Sub-interfaces of a port: those that its mode provides and that use no failed lane (R346, R497). -/
def portSubs (s : State) (p : Nat) : List Nat :=
  let mode := (getPort s p).mode
  (modeSubs mode).filter (fun k => (subLanes mode k).all (fun l => !bit (tgetD s.err.failedLanes p 0) l))

/-- Whether an interface is present, and whether its link is up. -/
def ifPresent (s : State) (i : Nat) : Bool := decide (i < 32) && (portSubs s (i / 4)).contains (i % 4)
def ifUp (s : State) (i : Nat) : Bool := ifPresent s i && bit (getPort s (i / 4)).linkUp (i % 4)

/-- Interfaces of a queue pair. -/
def qpIfs (q : Qp) : List Nat := setBits 32 q.ifMask

/-- R_max: the sum of the line rates of the interfaces (R363). -/
def rateMax (s : State) (q : Qp) : Nat := ((qpIfs q).map (fun i => modeRate (getPort s (i / 4)).mode)).sum

/-- Whether some interface of a queue pair carries traffic: its link is up and its port ACTIVE (R464). -/
def qpLive (s : State) (q : Qp) : Bool := (qpIfs q).any (fun i => ifUp s i && (getGroup s (0x28 + i / 4)).state = 3)

/-! ### Acknowledgements (R353, R361) -/

/-- How far a packet sequence number lies after another, modulo 2^24. -/
def psnDiff (a b : Nat) : Nat := (a + 2 ^ 24 - b) % 2 ^ 24

/-- Whether `a` lies before `b`: within 2^23 behind. -/
def psnBefore (a b : Nat) : Bool := decide (2 ^ 23 ≤ psnDiff a b)

/-- Sends a GX_ACK, or a NAK that concerns `psn`. -/
def sendAck (i nak psn backoff status : Nat) (s : State) : State :=
  match getQp s i with
  | none => s
  | some q =>
    let sack := ((q.rcvd.map (fun p => psnDiff p q.cumPsn)).filter (fun d => decide (1 ≤ d) && decide (d ≤ 64))).map (· - 1)
    let s := setQp i { q with ackDue := false, ctAck := some s.ct } s
    let s := if [1, 2, 3, 4].contains nak then bump .netRetryNaks q.partition 1 s else s
    emitPkt { qp := i, opcode := 0xE2, psn := q.cumPsn, nak, ackPsn := if nak = 0 then 0 else psn, backoff, status, sack
              ctSent := ctStamp s.ct } (bump .netTxPkts q.partition 1 s)

/-- Sends an RC acknowledgement with an AETH syndrome: 0 ACK, else a NAK that concerns `psn` (log entry 31). -/
def rcAck (i syndrome psn backoff : Nat) (s : State) : State :=
  match getQp s i with
  | none => s
  | some q => emitPkt { qp := i, bth := 0x11, psn, nak := syndrome, backoff } (bump .netTxPkts q.partition 1 s)

/-- An acknowledgement becomes due. -/
def ackLater (i : Nat) (s : State) : State :=
  match getQp s i with
  | some q => setQp i { q with ackDue := true } s
  | none => s

/-! ### Ends of messages -/

/-- A work request of a NET_POST has ended: the operation ends with the first failure or the last completion (R379). -/
def postDone (n status detail bytes : Nat) (s : State) : State :=
  match getOp s n with
  | none => s
  | some o =>
    let total := o.args.getD 0 0
    let done := o.args.getD 1 0
    if status ≠ 0 then endOp n status detail (u32 done) (dropMsgs (.post n) s)
    else if stopping s n then endOp n St.cancelled 0 (u32 (done + 1)) (dropMsgs (.post n) s)
    else if total ≤ done + 1 then endOp n 0 0 (u32 total) s
    else advanceOp n bytes (setArgs n [total, done + 1] s)

/-- Removes a message. -/
def dropMsg (i n : Nat) (s : State) : State :=
  match getQp s i with
  | some q => setQp i { q with msgs := tdel q.msgs n } s
  | none => s

/-- Changes a message. -/
def modMsg (i n : Nat) (f : TxMsg → TxMsg) (s : State) : State :=
  match getQp s i with
  | some q => setQp i { q with msgs := tmod q.msgs n f } s
  | none => s

/-- A message has ended, with OK or a failure; what it belongs to learns of it. A descriptor and an export learn of it at
DESCRIPTOR_COMPLETE, PULL_TIMEOUT_EXPIRY and MIGRATE_CONFIRM (log entry 32). -/
def msgEnd (i n status detail : Nat) (s : State) : State :=
  match (getQp s i).bind (fun q => tget q.msgs n) with
  | none => s
  | some x =>
    let keep (s : State) : State := modMsg i n (fun x => if status = 0 then { x with done := true } else { x with failed := status }) s
    match x.owner with
    | .pull _ => keep s
    | .export_ _ => keep s
    | .post op =>
      let s := dropMsg i n s
      let s := match status, regionOf s x.lkey with
        | 0, some (_, r) => if x.want = 0 then s else regionWrite r x.roff (Mem.read x.data 0 x.want) s
        | _, _ => s
      postDone op status detail (if x.want = 0 then x.body.length else x.want) s
    | .chain _ => dropMsg i n s
    | .retired _ => dropMsg i n s
    | .stream k =>
      let s := dropMsg i n s
      if status = 0 then ringSent k s else ringFault k 0 status s
    | .ringZero k =>
      let s := dropMsg i n s
      if status = 0 then s else ringFault k 0 status s
    | .cons k =>
      let s := dropMsg i n s
      if status = 0 then consGot k (leVal (Mem.read x.data 0 8)) s else ringFault k 0 status s

/-- A composed request that its target has refused: it is resolved once more against the present map, or it fails (R373). -/
def refused (i n : Nat) (s : State) : State :=
  match getQp s i with
  | none => s
  | some q =>
    match tget q.msgs n with
    | none => s
    | some x =>
      if x.range ≠ 0xFFFF && decide (x.epoch < mapEpoch s q.partition) && !x.retried then
        let s := dropMsg i n s
        match if x.want ≠ 0 then rangeRead q.partition x.range x.roff x.want x.owner s
          else rangeWrite q.partition x.range x.roff x.body x.owner s with
        | .ok s =>
          (match msgOf s x.owner with
          | some (j, k, _) => modMsg j k (fun x => { x with retried := true }) s
          | none => s)
        | .error st =>
          (match getQp s i with
          | some q => msgEnd i n st 0 (setQp i { q with msgs := tset q.msgs n x } s)
          | none => s)
      else msgEnd i n St.rangeGone 0 s

/-! ### ERROR and RESET (R352) -/

/-- Returns seal buffers and staging granules of a queue pair. -/
def dropHeldSeals (i : Nat) (s : State) : State :=
  match getQp s i with
  | none => s
  | some q =>
    let n := (q.rx.filter (fun e => e.2.held)).length
    let s := if n = 0 then s else move Lg.sealBuf i 1 0 n 10 0 s
    let k := q.stalled.length
    let s := if k = 0 then s else move Lg.staging 0 1 0 k 10 0 { s with net := { s.net with staging := s.net.staging - k } }
    setQp i { q with rx := [], stalled := [], rcWrite := none } s

/-- Completes every outstanding message of a queue pair with QP_ERROR. -/
def endMsgs (i : Nat) (s : State) : State :=
  (((getQp s i).map (fun q => tkeys (q.msgs.filter (fun m => !m.2.done && m.2.failed = 0)))).getD []).foldl
    (fun s n => msgEnd i n St.qpError 0 s) s

/-- The QP enters ERROR: cause 1 retry limit or the 1.5 s rule, 2 REMOTE_ACCESS, 3 INVALID, 4 a packet that violates R357, 5 all
interfaces down, 6 message numbers spent (R352; log entry 32). -/
def qpFail (m : Moment) (i cause : Nat) (s : State) : State :=
  match getQp s i with
  | none => s
  | some q =>
    if q.state ≠ .rts then s
    else
      let h := qpHandle s i
      let s := dropHeldSeals i s
      let s := match getQp s i with
        | some q => setQp i { q with state := .error, tx := [], ackDue := false } s
        | none => s
      let s := freeQpChains h (endMsgs i s)
      let s := note 0x0A01 1 q.partition 0 [h, cause] s
      match s.net.ctrls.find? (fun e => e.2.handle = h) with
      | some (c, _) => nvmeLost m c 2 s
      | none => s

/-- Messages that would have needed the number 0xFFFF_FFFF complete with MSG_EXHAUSTED, and their QP enters ERROR (R352, R355). -/
def spentMsgs (m : Moment) (s : State) : State :=
  (tfind s.net.qps (fun q => q.state = .rts && q.gx && decide (ones32 < q.msgNext))).foldl (fun s i =>
    qpFail m i 6 (if ((getQp s i).bind (fun q => tget q.msgs ones32)).isSome then msgEnd i ones32 St.msgExhausted 0 s else s)) s

/-- The QP returns to RESET: what remains completes with QP_ERROR, and the handle's generation rises (R351, R352). -/
def qpReset (i : Nat) (s : State) : State :=
  let h := qpHandle s i
  let s := freeQpChains h (endMsgs i (dropHeldSeals i s))
  { s with net := { s.net with
    qps := tdel s.net.qps i, qpGens := tset s.net.qpGens i ((tgetD s.net.qpGens i 0 + 1) % 256) } }

/-- Queue pairs whose interfaces are all down enter ERROR. -/
def failDownQps (m : Moment) (s : State) : State :=
  (tfind s.net.qps (fun q => q.state = .rts && !((qpIfs q).any (ifUp s)))).foldl (fun s i => qpFail m i 5 s) s

/-! ### Congestion control (R363) -/

def ccOf (s : State) (p : Nat) : CcParams := tgetD s.net.cc p {}

/-- The rate falls, at most once per `md_hold`. -/
def ccDecrease (i : Nat) (s : State) : State :=
  match getQp s i with
  | none => s
  | some q =>
    let c := ccOf s q.partition
    if q.ctDec.any (fun t => decide (s.ct < t + 1000 * c.mdHold)) then s
    else setQp i { q with rate := max c.rateMin (q.rate - q.rate / 2 ^ c.mdShift), ctDec := some s.ct, ctInc := s.ct } s

/-- CC_RATE_INCREASE: a period without a decrease has passed. -/
def execCcRateIncrease (m : Moment) (qp : Nat) (s : State) : Out :=
  let s := s.at m
  match getQp s qp with
  | none => .next s
  | some q =>
    let c := ccOf s q.partition
    if s.ct < q.ctInc + 1000 * c.aiPeriod then .next s
    else .next (setQp qp { q with rate := min (rateMax s q) (q.rate + c.aiStep), ctInc := s.ct } s)

/-- CNP_RECEIVE (R363). -/
def execCnpReceive (m : Moment) (qp : Nat) (s : State) : Out :=
  let s := s.at m
  match getQp s qp with
  | none => .next s
  | some q => .next (ccDecrease qp (bump .netCnpRecv q.partition 1 s))

/-- A packet marked Congestion Experienced: a CNP goes back, at most one per `cnp_interval`. -/
def answerCe (i : Nat) (p : Pkt) (s : State) : State :=
  match getQp s i with
  | none => s
  | some q =>
    if !p.ce || q.ctCnp.any (fun t => decide (s.ct < t + 1000 * (ccOf s q.partition).cnpInterval)) then s
    else emit (.cnp i) (bump .netCnpSent q.partition 1 (setQp i { q with ctCnp := some s.ct } s))

/-! ### Retransmission (R353) -/

/-- Sends a packet again: the same bytes under the same IV, over the next path, with a tag over the header as it is now (R355). -/
def resend (i psn : Nat) (s : State) : State :=
  match getQp s i with
  | none => s
  | some q =>
    match tget q.tx psn with
    | none => s
    | some t =>
      let path := nextPath q s.ct
      let p := if q.gx then
          { t.pkt with path, ctSent := ctStamp s.ct, flags := if bit t.pkt.flags 4 then t.pkt.flags else t.pkt.flags + gxRetx }
        else t.pkt
      let p := match gxSealed s q p t.clear with
        | some x => { p with icv := x.2 }
        | none => p
      let q := { q with nextPath := path + 1, tx := tmod q.tx psn (fun t => { t with pkt := p, path, ctLast := s.ct, resend := none }) }
      emitPkt p (bump .netTxPkts q.partition 1 (setQp i q s))

/-- Whether a packet is too old to be sent again: more than 1.5 s after its first transmission. -/
def tooOld (s : State) (t : TxPkt) : Bool := decide (t.ctFirst + 1500000000 < s.ct)

/-- A path has timed out: after two in a row it is skipped for 10 ms. -/
def pathTimeout (i path : Nat) (s : State) : State :=
  match getQp s i with
  | none => s
  | some q =>
    let n := tgetD q.pathTo path 0 + 1
    if 2 ≤ n then setQp i { q with pathTo := tdel q.pathTo path, pathSkip := tset q.pathSkip path (s.ct + 10000000) } s
    else setQp i { q with pathTo := tset q.pathTo path n } s

/-- GX_ACK_TIMEOUT: an unacknowledged packet is sent again, or the QP gives up (R353). -/
def execGxAckTimeout (m : Moment) (qp psn : Nat) (s : State) : Out :=
  let s := s.at m
  match getQp s qp with
  | none => .next s
  | some q =>
    match tget q.tx psn with
    | none => .next s
    | some t =>
      if !q.gx || t.sacked || t.resend.isSome || decide (s.ct < t.ctLast + q.ackTo) then .next s
      else if q.retryLim ≤ q.timeouts + 1 || tooOld s t then .next (qpFail m qp 1 s)
      else
        let s := pathTimeout qp t.path (setQp qp { q with timeouts := q.timeouts + 1 } s)
        .next (resend qp psn (ccDecrease qp s))

/-- GX_NAK_BACKOFF_EXPIRY: the packet that a retry NAK named goes out again (R361). -/
def execGxNakBackoffExpiry (m : Moment) (qp psn : Nat) (s : State) : Out :=
  let s := s.at m
  match (getQp s qp).bind (fun q => tget q.tx psn) with
  | none => .next s
  | some t =>
    if t.resend.all (fun c => decide (s.ct < c)) then .next s
    else if (getQp s qp).any (·.gx) && tooOld s t then .next (qpFail m qp 1 s)
    else .next (resend qp psn s)

/-- GX_PATH_RESUME: a suspended path is used again. -/
def execGxPathResume (m : Moment) (qp path : Nat) (s : State) : Out :=
  let s := s.at m
  match getQp s qp with
  | none => .next s
  | some q =>
    if (tget q.pathSkip path).any (fun c => decide (c ≤ s.ct)) then .next (setQp qp { q with pathSkip := tdel q.pathSkip path } s)
    else .next s

/-- RC_LOCAL_ACK_TIMEOUT: an RC queue pair goes back to its oldest unacknowledged packet, or gives up (R353). -/
def execRcLocalAckTimeout (m : Moment) (qp : Nat) (s : State) : Out :=
  let s := s.at m
  match getQp s qp with
  | none => .next s
  | some q =>
    match q.tx.head? with
    | none => .next s
    | some (_, t) =>
      if q.gx || decide (s.ct < t.ctLast + q.ackTo) then .next s
      else if q.retryLim ≤ q.timeouts + 1 then .next (qpFail m qp 1 s)
      else
        let s := ccDecrease qp (setQp qp { q with timeouts := q.timeouts + 1 } s)
        .next (q.tx.foldl (fun s t => resend qp t.1 s) s)

/-- GX_ACK_TIMER: an acknowledgement that is due goes out, at most once per 1 µs (R353). -/
def execGxAckTimer (m : Moment) (qp : Nat) (s : State) : Out :=
  let s := s.at m
  match getQp s qp with
  | none => .next s
  | some q =>
    if q.gx && q.ackDue && q.ctAck.all (fun c => decide (c + 1000 ≤ s.ct)) then .next (sendAck qp 0 0 0 0 s) else .next s

/-- QP_DRAIN_END: a DRAINING queue pair has no work left, or its time is over (R352). -/
def execQpDrainEnd (m : Moment) (qp : Nat) (s : State) : Out :=
  let s := s.at m
  match getQp s qp with
  | none => .next s
  | some q =>
    if q.state = .draining && (q.msgs.all (fun x => x.2.done || x.2.failed ≠ 0) || decide (q.drainDue ≤ s.ct)) then
      .next (endOp q.drainOp (if stopping s q.drainOp then St.cancelled else St.ok) 0 [] (qpReset qp s))
    else .next s

end Sys2Proof.Machine
end

