-- ==== Sys2Proof/Machine/Receive.lean ====
section
/-! DEFINITION. The receiving side of the network: the checks of R357, placement, the seal, reads, acknowledgements, pages that are
not resident, and plain RC packets (R348, R353 to R362, R367, 12). -/

namespace Sys2Proof.Machine

/-! ### Receive checks (R357) -/

/-- What a GX packet's header must satisfy (check 1). -/
def gxWellFormed (q : Qp) (p : Pkt) : Bool :=
  let isSeal := bit p.flags 7
  p.version = 1 && p.rsvdOk && decide (p.flags < 256) && p.flags % 16 = 0 && decide (p.path < 16)
    && (bit p.flags 6 || p.tag = 0)
    && (match p.opcode with
      | 0xE0 =>
        1 ≤ p.msg && decide (p.msg < ones32) && decide (p.len < ones32) && p.nak = 0 && p.ackPsn = 0 && p.backoff = 0 && p.status = 0
          && p.sack.isEmpty
          && (if isSeal then p.offset = ones32 && decide (p.payload.length ≤ 256)
            else decide (p.payload.length ≤ q.mtu) && decide (p.offset + p.payload.length ≤ p.len))
      | 0xE1 =>
        1 ≤ p.msg && decide (p.msg < ones32) && decide (p.len < ones32) && !isSeal && p.payload.isEmpty && p.offset = 0 && p.nak = 0
          && p.ackPsn = 0 && p.backoff = 0 && p.status = 0 && p.sack.isEmpty
      | 0xE2 => !isSeal && p.payload.isEmpty && p.msg = 0 && p.key = 0 && p.len = 0 && p.offset = 0 && p.regOff = 0
      | _ => false)

/-- A packet older than 2 s (check 2); ages are not checked while time is lost. -/
def gxAged (s : State) (p : Pkt) : Bool :=
  !timeLost s && decide (1953125 < (ctStamp s.ct + 2 ^ 32 - p.ctSent) % 2 ^ 32)

/-- A packet's payload in the clear (check 3). -/
def gxOpen (s : State) (q : Qp) (p : Pkt) : Option Bytes :=
  if !bit p.flags 5 then some p.payload
  else (keyOf s q.keyId).bind (fun k => Config.gcmOpen k (gxIv q.rxSalt p) (gxAad p) p.payload p.icv)

/-- STALE_KEY, at most once per 1 ms (R378). -/
def staleKey (i : Nat) (p : Pkt) (s : State) : State :=
  let part := ((getQp s i).map (·.partition)).getD noPart
  let s := bump .netStale part 1 s
  let n := s.net.staleNew + 1
  if s.net.staleCt.all (fun c => decide (c + 1000000 ≤ s.ct)) then
    note 0x0A06 0 part 0 [qpHandle s i, p.key, n] { s with net := { s.net with staleCt := some s.ct, staleNew := 0 } }
  else { s with net := { s.net with staleNew := n } }

/-- Whether a queue pair may make an access of `n` bytes at an offset of a region (check 5). -/
def regionAllows (i : Nat) (q : Qp) (r : Region) (write : Bool) (off n : Nat) : Bool :=
  r.partition = q.partition && (r.scope = ones32 || r.scope = i) && (if write then r.write else r.read) && decide (off + n ≤ r.length)

/-- What a packet asks of a region: a write or a read, offset and length. -/
def gxAccess (p : Pkt) : Bool × Nat × Nat :=
  if p.opcode = 0xE1 then (false, p.regOff, p.len)
  else if bit p.flags 7 then (true, p.regOff, p.payload.length)
  else (true, p.regOff + p.offset, p.payload.length)

/-- Whether a packet is a response to a GX read (log entry 33). -/
def isResponse (p : Pkt) : Bool := p.opcode = 0xE0 && p.bth = 0x10

/-- Whether a message number may still be received (check 7). -/
def msgInWindow (q : Qp) (n : Nat) : Bool :=
  (decide (q.rxNext ≤ n) && decide (n ≤ q.rxNext + 256)) || (tget q.rx n).any (·.failed)

/-- What the checks of R357 make of a packet. -/
inductive Checked where
  /-- It is dropped or answered; the state with that. -/
  | stop (s : State)
  /-- It passes; its payload is in the clear. -/
  | pass (p : Pkt)

/-- The packet that passes. -/
def Checked.packet : Checked → Option Pkt
  | .stop _ => none
  | .pass p => some p

/-- The checks of R357, in order. A packet for a region passes with the region's index unchecked further on. -/
def gxChecks (m : Moment) (i : Nat) (q : Qp) (p : Pkt) (s : State) : Checked :=
  let part := q.partition
  let bad (nak cause : Nat) (s : State) : Checked := .stop (qpFail m i cause (sendAck i nak p.psn 0 0 s))
  if !gxWellFormed q p then bad 0x14 4 (bump .netRxInvalid part 1 s)
  else if gxAged s p then .stop (bump .netAged part 1 s)
  else
    match gxOpen s q p with
    | none => .stop (bump .netGcm part 1 s)
    | some b =>
      let p := { p with payload := b }
      let d := psnDiff p.psn q.cumPsn
      let last (s : State) : Checked :=
        if psnBefore p.psn q.cumPsn || q.rcvd.contains p.psn then .stop (ackLater i (bump .netDup part 1 s))
        else if 2048 ≤ d || (!isResponse p && !msgInWindow q p.msg) then .stop (bump .netRxWindow part 1 s)
        else if bit p.flags 5 && !bit p.flags 7 && p.opcode = 0xE0 && decide (4096 ≤ s.net.staging) then
          .stop (bump .netStageDrops part 1 s)
        else .pass p
      if isResponse p then
        match tget q.msgs p.msg with
        | some x =>
          if x.want = 0 || x.done then .stop (ackLater i (staleKey i p s))
          else if x.want < p.offset + p.payload.length then bad 0x10 4 s
          else last s
        | none => .stop (ackLater i (staleKey i p s))
      else if p.key / 256 = 0 || decide (1048575 < p.key / 256) then bad 0x10 4 s
      else
        match regionOf s p.key with
        | none => .stop (ackLater i (staleKey i p s))
        | some (_, r) =>
          let (w, o, n) := gxAccess p
          if regionAllows i q r w o n then last s else bad 0x10 4 s

/-! ### Sequence numbers and messages -/

/-- Moves the cumulative number past what has been received. -/
def advanceCum : Nat → Qp → Qp
  | 0, q => q
  | k + 1, q =>
    if q.rcvd.contains q.cumPsn then
      advanceCum k { q with rcvd := q.rcvd.erase q.cumPsn, cumPsn := (q.cumPsn + 1) % 2 ^ 24 }
    else q

/-- A packet's number is recorded; the cumulative one follows at the event's end. -/
def recordPsn (i psn : Nat) (s : State) : State :=
  match getQp s i with
  | some q => bump .netRxPkts q.partition 1 (setQp i { q with rcvd := q.rcvd ++ [psn], ackDue := true } s)
  | none => s

/-- The cumulative number of a queue pair follows the packets received. -/
def settleCum (i : Nat) (s : State) : State :=
  match getQp s i with
  | some q => setQp i (advanceCum (q.rcvd.length + 1) q) s
  | none => s

/-- A packet that its sender must send again counts as not received. -/
def unrecord (i psn : Nat) (s : State) : State :=
  match getQp s i with
  | some q => setQp i { q with rcvd := q.rcvd.erase psn } s
  | none => s

/-- The record of a message being received. -/
def getRx (s : State) (i n : Nat) : RxMsg := ((getQp s i).bind (fun q => tget q.rx n)).getD {}
def setRx (i n : Nat) (x : RxMsg) (s : State) : State :=
  match getQp s i with
  | some q => setQp i { q with rx := tset q.rx n x } s
  | none => s

/-- Frees a message's seal buffer. -/
def freeSeal (i n : Nat) (s : State) : State :=
  let x := getRx s i n
  let s := if x.held then move Lg.sealBuf i 1 0 1 10 0 s else s
  setRx i n { x with held := false, sealPkt := none } s

/-- Moves past a message that is applied; the record of one that has failed stays for its late packets. -/
def passMsg (i n : Nat) (keep : Bool) (s : State) : State :=
  match getQp s i with
  | some q =>
    let rx := if keep then q.rx else tdel q.rx n
    setQp i { q with rx := rx.filter (fun e => decide (n ≤ e.1 + 256)), rxNext := n + 1 } s
  | none => s

/-! ### Applying seals (R359, R367) -/

/-- A message of the device's own that says an exported session has been retired (R369). -/
def exportRetired (session peer : Nat) (s : State) : State :=
  match dirAt s session with
  | some e => if e.dstate = .exported && e.exportPeer = peer then freeDir session s else s
  | none => s

/-- What a complete message's seal does for the receiving unit. -/
def sealUnit (m : Moment) (i n : Nat) (p : Pkt) (s : State) : Fired :=
  match getQp s i with
  | none => .applied s
  | some q =>
    if !bit p.flags 6 then .applied s
    else if p.tag = 0xFFFFFFF1 then .applied (exportRetired (field p.payload 0 8) (qpHandle s i) s)
    else if 0xFFFFFF00 ≤ p.tag then .applied s
    else sealChain m q.partition (qpHandle s i) p.tag (getRx s i n).off p.len s

/-- Applies the seals of a queue pair that can be applied now, in order (R359). -/
def applySeals (m : Moment) (i : Nat) : Nat → State → State
  | 0, s => s
  | fuel + 1, s =>
    match getQp s i with
    | none => s
    | some q =>
      let n := q.rxNext
      match tget q.rx n with
      | none => s
      | some x =>
        if x.applied then applySeals m i fuel (passMsg i n false s)
        else if x.failed then applySeals m i fuel (passMsg i n true s)
        else
          match x.sealPkt with
          | none => s
          | some p =>
            if x.placed ≠ p.len then s
            else
              let s := freeSeal i n s
              let s := match regionOf s p.key with
                | some (_, r) => regionWrite r p.regOff p.payload s
                | none => s
              match sealUnit m i n p s with
              | .applied s => applySeals m i fuel (sendAck i 0 0 0 0 (settleCum i (passMsg i n false s)))
              | .nak code status backoff s =>
                if code = 0x12 then
                  applySeals m i fuel (sendAck i code p.psn 0 status (settleCum i (passMsg i n false s)))
                else sendAck i code p.psn backoff status (unrecord i p.psn s)

/-- The chain that a message may match hears of its first packet while it is incomplete (R366). -/
def firstPacket (i : Nat) (p : Pkt) (s : State) : State :=
  match getQp s i with
  | some q => if bit p.flags 6 && !(thas q.rx p.msg) then chainAhead q.partition (qpHandle s i) p.tag s else s
  | none => s

/-- GX_SEAL_RECEIVE's seal, its checks passed: applied, held, or refused with RETRY_SEAL_FULL. -/
def gxSealIn (m : Moment) (i : Nat) (p : Pkt) (s : State) : State :=
  match getQp s i with
  | none => s
  | some q =>
    let x := getRx s i p.msg
    let s := if x.placed = p.len then s else firstPacket i p s
    let s := recordPsn i p.psn s
    if x.failed then settleCum i s
    else
      let s := applySeals m i 600 (setRx i p.msg { x with sealPkt := some p, ctSeal := s.ct } s)
      match (getQp s i).bind (fun q => tget q.rx p.msg) with
      | none => settleCum i s
      | some y =>
        if y.sealPkt.isNone || y.held then settleCum i s
        else if (((getQp s i).map (fun q => (q.rx.filter (fun e => e.2.held)).length)).getD 0) < 64 then
          settleCum i (move Lg.sealBuf i 0 1 1 10 0 (setRx i p.msg { y with held := true } s))
        else settleCum i (sendAck i 1 p.psn q.sealBackoff 0 (unrecord i p.psn (setRx i p.msg { y with sealPkt := none } s)))

/-- SEAL_TIMEOUT: a held seal fails, and later seals are no longer held back by it (R359). -/
def sealTimeout (m : Moment) (i n : Nat) (s : State) : State :=
  match getQp s i with
  | none => s
  | some q =>
    match (tget q.rx n).bind (fun x => x.sealPkt.map (fun p => (x, p))) with
    | none => s
    | some (x, p) =>
      if !x.held || decide (s.ct < x.ctSeal + q.sealTo) then s
      else
        let s := bump .netSealFailed q.partition 1 (freeSeal i n s)
        let s := setRx i n { getRx s i n with failed := true } s
        let s := if bit p.flags 6 then chainSealFailed q.partition (qpHandle s i) p.tag s else s
        settleCum i (applySeals m i 600 (sendAck i 0x13 p.psn 0 0 s))

/-! ### Pages that are not resident (R362) -/

/-- Pages of a PAGES region that an access needs and that cannot be used where they are. -/
def missingList (s : State) (r : Region) (off n : Nat) : List Nat :=
  if r.backing = 1 then (listPages s r off n).filter (fun i => !listResident s (listPte s r i)) else []

/-- Makes one page of a page list resident: an unallocated one at once, another by a descriptor, if a frame is to be had. -/
def listPull (m : Moment) (r : Region) (i : Nat) (s : State) : Except Lack State :=
  let at0 := r.base % 2 ^ 48 + 8 * i
  let e := listPte s r i
  let id : PoolId := { partition := r.partition, tier := 1, pclass := Nat.log2 (listPage s r), enc := 0 }
  if s.fdy.store.any (fun d => d.2.session = 0 && d.2.kind = .raisePage && d.2.castGen = at0) then .ok s
  else if !e.valid then
    (grabFrame m i id hEntry 0 s).map (fun x => devWrite 1 at0 (u64 { pteOf x.2 1 0 x.1 with resident := true }.toNat) x.2)
  else
    match allocFrame m i id fReserved 0 s with
    | .error l => .error l
    | .ok (a, s) =>
      let dest := pteOf s 1 0 a
      let (n, s) := newFop { kind := .pull, session := 0, partition := r.partition, ctStart := s.ct, pullTo := s.fdy.pullTo, phase := 1 } s
      .ok (addTodo n [{ kind := .raisePage, length := encSize (Nat.log2 (listPage s r)) e.enc, partition := r.partition, srcTier := e.tier
                        dstTier := 1, xcode := if e.enc = 0 then 0 else 3, src := placeWord e, dst := a
                        srcChip := if e.tier = 3 then chip s else e.range % 8, dstChip := chip s, page := i, castGen := at0
                        cls := 2, dest }] s)

/-- Starts the residency work of an access's pages. -/
def listPullAll (m : Moment) (r : Region) (l : List Nat) (s : State) : State :=
  l.foldl (fun s i =>
    match listPull m r i s with
    | .ok s => s
    | .error l => starve l s) s

/-- A packet waits in a staging granule while its queue pair is stalled. -/
def stallPkt (i : Nat) (p : Pkt) (s : State) : State :=
  match getQp s i with
  | none => s
  | some q =>
    if 4096 ≤ s.net.staging then bump .netStageDrops q.partition 1 s
    else
      let s := { s with net := { s.net with staging := s.net.staging + 1 } }
      let s := if q.stalled.isEmpty then bump .netStalls q.partition 1 s else s
      move Lg.staging 0 0 1 1 10 0
        (setQp i { q with stalled := q.stalled ++ [p], ctStall := if q.stalled.isEmpty then s.ct else q.ctStall } s)

/-- The backoff of RETRY_NOT_RESIDENT for an estimate in ns: rounded up to 10 µs, from 10 µs to 10 ms. -/
def residentBackoff (est : Nat) : Nat := max 10 (min 10000 (ceilDiv est 10000 * 10))

/-- An access whose pages are not resident: the queue pair stalls when the Foundry's estimate lies within 50 µs, else the packet is
answered with RETRY_NOT_RESIDENT. The estimate is a free value (log entry 34). -/
def notResident (m : Moment) (i : Nat) (p : Pkt) (r : Region) (l : List Nat) (s : State) : State :=
  let s := listPullAll m r l s
  let (est, s) := fresh s
  if est ≤ 50000 then stallPkt i p s else sendAck i 2 p.psn (residentBackoff est) 0 s

/-! ### GX packets -/

/-- One staging granule takes a payload while it is decrypted and placed, and is released (R358). -/
def staged (s : State) : State := move Lg.staging 0 1 0 1 10 0 (move Lg.staging 0 0 1 1 10 0 s)

/-- A data packet, its checks passed, is placed at its offset (R358). -/
def gxPlace (m : Moment) (i : Nat) (p : Pkt) (s : State) : State :=
  match getQp s i with
  | none => s
  | some q =>
    match regionOf s p.key with
    | none => s
    | some (_, r) =>
      let x := getRx s i p.msg
      let last := x.placed + p.payload.length = p.len && x.sealPkt.isSome
      let s := if last then s else firstPacket i p s
      let s := recordPsn i p.psn s
      let s := if bit p.flags 5 then staged s else s
      let s := regionWrite r (p.regOff + p.offset) p.payload s
      let s := if x.failed || decide (p.msg < q.rxNext) then s
        else setRx i p.msg { x with placed := x.placed + p.payload.length, off := p.regOff } s
      settleCum i (applySeals m i 600 s)

/-- A response to a GX read is placed in the requester's own destination (R360). -/
def gxResponse (i : Nat) (p : Pkt) (s : State) : State :=
  let s := settleCum i (recordPsn i p.psn s)
  let s := if bit p.flags 5 then staged s else s
  let s := modMsg i p.msg (fun x => { x with data := Mem.write x.data p.offset p.payload, got := x.got + p.payload.length }) s
  match (getQp s i).bind (fun q => tget q.msgs p.msg) with
  | some x => if x.want ≤ x.got then msgEnd i p.msg 0 0 s else s
  | none => s

/-- A GX read request is answered by sprayed responses (R360). -/
def gxAnswer (m : Moment) (i : Nat) (p : Pkt) (r : Region) (s : State) : State :=
  let s := settleCum i (recordPsn i p.psn s)
  let s := applySeals m i 600 (setRx i p.msg { applied := true } s)
  let mtu := ((getQp s i).map (·.mtu)).getD 4096
  (pieces mtu (regionRead s r p.regOff p.len)).zipIdx.foldl (fun s b =>
    sendPkt i { opcode := 0xE0, bth := 0x10, msg := p.msg, offset := b.2 * mtu, len := p.len, key := p.key, regOff := p.regOff
                payload := b.1 } 1 s) s

/-- A GX_DATA, seal or GX_READ packet for a queue pair that receives. -/
def gxTake (m : Moment) (i : Nat) (p0 : Pkt) (s : State) : State :=
  match getQp s i with
  | none => s
  | some q =>
    match gxChecks m i q p0 s with
    | .stop s => s
    | .pass p =>
      if isResponse p then gxResponse i p s
      else
        match regionOf s p.key with
        | none => s
        | some (_, r) =>
          let a := gxAccess p
          let l := missingList s r a.2.1 a.2.2
          let s := if l.isEmpty then s else listPullAll m r l s
          if !(missingList s r a.2.1 a.2.2).isEmpty then notResident m i p0 r (missingList s r a.2.1 a.2.2) s
          else if p.opcode = 0xE1 then gxAnswer m i p r s
          else if bit p.flags 7 then gxSealIn m i p s
          else gxPlace m i p s

/-- Whether a packet can reach a queue pair, with the count of those that an idle port drops (R347, R464). -/
def arrives (i : Nat) (p : Pkt) (s : State) : Bool × State :=
  match getQp s i with
  | none => (false, s)
  | some q =>
    if 9216 < p.payload.length then (false, bump .netRxOversize q.partition 1 s)
    else if !((qpIfs q).any (ifUp s)) || q.state = .error then (false, s)
    else if !qpLive s q then (false, bump .pwrRxDropped noPart 1 s)
    else (true, s)

/-- A packet that has arrived is taken, or it waits while its queue pair is stalled (R362). -/
def gxGo (m : Moment) (p : Pkt) (s : State) : State :=
  match getQp s p.qp with
  | none => s
  | some q => if !q.stalled.isEmpty then stallPkt p.qp p s else gxTake m p.qp p s

/-- A packet of a GX queue pair; while the pair is stalled its packets wait (R362). -/
def gxReceive (m : Moment) (p : Pkt) (s : State) : State :=
  let i := p.qp
  let (ok, s) := arrives i p s
  if !ok then s
  else
    match getQp s i with
    | none => s
    | some q =>
      let s := answerCe i p s
      if !q.gx then rcAck i 0x61 p.psn 0 s else gxGo m p s

/-- Queue pairs whose stalled packets may go on: the first one's pages are resident. -/
def stallOver (s : State) (q : Qp) : Bool :=
  match q.stalled with
  | [] => false
  | p :: _ =>
    match regionOf s p.key with
    | none => true
    | some (_, r) => (missingList s r (gxAccess p).2.1 (gxAccess p).2.2).isEmpty

/-- The packets that waited are taken in order. -/
def unstall (m : Moment) (i : Nat) (s : State) : State :=
  match getQp s i with
  | none => s
  | some q =>
    let k := q.stalled.length
    let s := move Lg.staging 0 1 0 k 10 0 { s with net := { s.net with staging := s.net.staging - k } }
    q.stalled.foldl (fun s p => gxGo m p s) (setQp i { q with stalled := [] } s)

/-- Every stall that is over ends. -/
def unstallAll (m : Moment) (s : State) : State := (tfind s.net.qps (stallOver s)).foldl (fun s i => unstall m i s) s

/-- NOT_RESIDENT_STALL_EXPIRY: a stall has lasted 50 µs (R362). -/
def stallExpiry (m : Moment) (i : Nat) (s : State) : State :=
  match getQp s i with
  | none => s
  | some q =>
    match q.stalled with
    | [] => s
    | p :: l =>
      if s.ct < q.ctStall + 50000 then s
      else
        let (est, s) := fresh s
        let k := q.stalled.length
        let s := move Lg.staging 0 1 0 k 10 0 { s with net := { s.net with staging := s.net.staging - k } }
        let s := sendAck i 2 p.psn (residentBackoff est) 0 (setQp i { q with stalled := [] } s)
        l.foldl (fun s p => gxGo m p s) s

/-! ### GX acknowledgements at the sender (R353, R361, R373) -/

/-- What an acknowledgement covers leaves the table of packets sent; progress clears the timeouts. -/
def ackCovers (i : Nat) (p : Pkt) (s : State) : State :=
  match getQp s i with
  | none => s
  | some q =>
    let gone := q.tx.filter (fun t => psnBefore t.1 p.psn)
    let sacked (k : Nat) : Bool := !psnBefore k p.psn && decide (1 ≤ psnDiff k p.psn) && p.sack.contains (psnDiff k p.psn - 1)
    let fresh := q.tx.any (fun t => sacked t.1 && !t.2.sacked)
    let tx := (q.tx.filter (fun t => !psnBefore t.1 p.psn)).map (fun t => if sacked t.1 then (t.1, { t.2 with sacked := true }) else t)
    setQp i { q with
      tx, timeouts := if gone.isEmpty && !fresh then q.timeouts else 0
      pathTo := q.pathTo.filter (fun e => !(gone.any (fun t => t.2.path = e.1))) } s

/-- Messages whose last packet the acknowledgement covers are complete. -/
def ackDone (i psn : Nat) (s : State) : State :=
  ((((getQp s i).map (·.msgs)).getD []).filter (fun e =>
    e.2.want = 0 && !e.2.done && e.2.failed = 0 && psnBefore e.2.lastPsn psn)).foldl (fun s e => msgEnd i e.1 0 0 s) s

/-- A NAK that concerns a packet sent (R361). -/
def gxNak (m : Moment) (i : Nat) (p : Pkt) (msg : Option Nat) (s : State) : State :=
  match p.nak with
  | 0 => s
  | 0x11 => match msg with | some n => refused i n s | none => s
  | 0x12 => match msg with | some n => msgEnd i n St.refused p.status s | none => s
  | 0x13 => match msg with | some n => msgEnd i n St.sealFailed 0 s | none => s
  | 0x10 => qpFail m i 2 (match msg with
    | some n =>
      (match (getQp s i).bind (fun q => tget q.msgs n) with
      | some x => if x.range = 0xFFFF then s else refused i n s
      | none => s)
    | none => s)
  | k =>
    if k ≤ 4 then
      match getQp s i with
      | some q => setQp i { q with tx := tmod q.tx p.ackPsn (fun t => { t with resend := some (s.ct + 1000 * p.backoff) }) } s
      | none => s
    else qpFail m i 3 s

/-- GX_ACK_RECEIVE. A NAK that refuses a message is heard before the cumulative number, which covers its seal (R359, R361). -/
def gxAck (m : Moment) (p : Pkt) (s : State) : State :=
  let i := p.qp
  let (ok, s) := arrives i p s
  match if ok then getQp s i else none with
  | none => s
  | some q =>
    if !q.gx then s
    else if !gxWellFormed q p || p.opcode ≠ 0xE2 then
      qpFail m i 4 (sendAck i 0x14 p.psn 0 0 (bump .netRxInvalid q.partition 1 s))
    else if gxAged s p then bump .netAged q.partition 1 s
    else
      let msg := (tget q.tx p.ackPsn).map (·.pkt.msg)
      if p.nak = 0x11 || p.nak = 0x12 || p.nak = 0x13 then ackDone i p.psn (gxNak m i p msg (ackCovers i p s))
      else gxNak m i p msg (ackDone i p.psn (ackCovers i p s))

/-! ### Plain RC packets (R348) -/

/-- Whether an RC access may be made; the region. -/
def rcRegion (s : State) (i : Nat) (q : Qp) (write : Bool) (key off n : Nat) : Option Region :=
  match regionOf s key with
  | some (_, r) => if regionAllows i q r write off n then some r else none
  | none => none

/-- An RC request that breaks a rule: a NAK goes back and the QP enters ERROR. -/
def rcBad (m : Moment) (i syndrome psn : Nat) (s : State) : State := qpFail m i 4 (rcAck i syndrome psn 0 s)

/-- The expected number moves on by `k`, and the packet is acknowledged. -/
def rcNext (i k psn : Nat) (s : State) : State :=
  match getQp s i with
  | none => s
  | some q =>
    rcAck i 0 psn 0 (bump .netRxPkts q.partition 1 (setQp i { q with cumPsn := (q.cumPsn + k) % 2 ^ 24, nakSent := false } s))

/-- The last packet of a WRITE with immediate: trigger and seal of the chain whose tag it is (R364). One that must come again finds
its write open. -/
def rcTrigger (m : Moment) (i : Nat) (q : Qp) (p : Pkt) (start len : Nat) (s : State) : State :=
  match sealChain m q.partition (qpHandle s i) p.tag start len s with
  | .applied s => rcNext i 1 p.psn s
  | .nak code _ backoff s =>
    if code = 0x12 then rcAck i 0x63 p.psn 0 s
    else
      rcAck i 0x20 p.psn backoff (match getQp s i with
        | some x => setQp i { x with rcWrite := q.rcWrite } s
        | none => s)

/-- A packet of an RC WRITE: placed in order. -/
def rcWriteIn (m : Moment) (i : Nat) (q : Qp) (p : Pkt) (s : State) : State :=
  let first := p.bth = 6 || p.bth = 10 || p.bth = 11
  let at0 := if first then some (p.key, p.regOff, p.len) else q.rcWrite
  match at0 with
  | none => rcBad m i 0x61 p.psn s
  | some (key, off, left) =>
    let n := p.payload.length
    if left < n || q.mtu < n then rcBad m i 0x61 p.psn s
    else
      match rcRegion s i q true key off left with
      | none => rcBad m i 0x62 p.psn s
      | some r =>
        let l := missingList s r off n
        let s := if l.isEmpty then s else listPullAll m r l s
        if !(missingList s r off n).isEmpty then
          let (est, s) := fresh s
          rcAck i 0x20 p.psn (residentBackoff est) s
        else
          let s := regionWrite r off p.payload s
          let last := p.bth = 8 || p.bth = 9 || p.bth = 10 || p.bth = 11
          let s := match getQp s i with
            | some q => setQp i { q with rcWrite := if last then none else some (key, off + n, left - n) } s
            | none => s
          if last && left ≠ n then rcBad m i 0x61 p.psn s
          else if p.bth = 9 || p.bth = 11 then rcTrigger m i q p (off + n - p.len) p.len s
          else rcNext i 1 p.psn s

/-- An RC READ request is answered by its responses. -/
def rcReadIn (m : Moment) (i : Nat) (q : Qp) (p : Pkt) (s : State) : State :=
  match rcRegion s i q false p.key p.regOff p.len with
  | none => rcBad m i 0x62 p.psn s
  | some r =>
    let l := missingList s r p.regOff p.len
    let s := if l.isEmpty then s else listPullAll m r l s
    if !(missingList s r p.regOff p.len).isEmpty then
      let (est, s) := fresh s
      rcAck i 0x20 p.psn (residentBackoff est) s
    else
      let ps := if p.len = 0 then [[]] else pieces q.mtu (regionRead s r p.regOff p.len)
      let n := ps.length
      let s := bump .netRxPkts q.partition 1 (setQp i { q with cumPsn := (p.psn + n) % 2 ^ 24, nakSent := false } s)
      ps.zipIdx.foldl (fun s b =>
        emitPkt { qp := i, psn := (p.psn + b.2) % 2 ^ 24, payload := b.1
                  bth := if n = 1 then 0x10 else if b.2 = 0 then 0x0D else if b.2 + 1 = n then 0x0F else 0x0E }
          (bump .netTxPkts q.partition 1 s)) s

/-- An RC request in its turn. A SEND is a controller's capsule, whose content NVME_COMPLETION_RECEIVE brings; another QP has no
receive buffer for it (log entry 31). -/
def rcRequest (m : Moment) (i : Nat) (q : Qp) (p : Pkt) (s : State) : State :=
  if p.bth ≤ 5 then
    if s.net.ctrls.any (fun e => e.2.handle = qpHandle s i) then rcNext i 1 p.psn s else rcAck i 0x20 p.psn 0 s
  else if p.bth ≤ 11 then rcWriteIn m i q p s
  else if p.bth = 0x0C then rcReadIn m i q p s
  else rcBad m i 0x61 p.psn s

/-- What an RC acknowledgement of everything before `psn` ends. -/
def rcCovers (i psn : Nat) (s : State) : State :=
  match getQp s i with
  | none => s
  | some q =>
    let tx := q.tx.filter (fun t => !psnBefore t.1 psn)
    ackDone i psn (setQp i { q with tx, timeouts := if tx.length = q.tx.length then q.timeouts else 0 } s)

/-- An RC ACK or NAK. -/
def rcAckIn (m : Moment) (i : Nat) (p : Pkt) (s : State) : State :=
  if p.nak = 0 then rcCovers i ((p.psn + 1) % 2 ^ 24) s
  else
    let s := rcCovers i p.psn s
    match getQp s i with
    | none => s
    | some q =>
      if p.nak = 0x60 then q.tx.foldl (fun s t => resend i t.1 s) s
      else if p.nak / 32 = 1 then
        setQp i { q with tx := tmod q.tx p.psn (fun t => { t with resend := some (s.ct + 1000 * p.backoff) }) } s
      else qpFail m i (if p.nak = 0x62 then 2 else 3) s

/-- An RC READ response: it must be the next of the oldest read outstanding. -/
def rcResponse (m : Moment) (i : Nat) (q : Qp) (p : Pkt) (s : State) : State :=
  match q.msgs.find? (fun e => e.2.want ≠ 0 && !e.2.done && e.2.failed = 0) with
  | none => s
  | some (n, x) =>
    let k := max 1 (ceilDiv x.want q.mtu)
    if psnDiff x.lastPsn p.psn + 1 + x.got / q.mtu ≠ k then s
    else if x.want < x.got + p.payload.length then qpFail m i 4 s
    else
      let s := bump .netRxPkts q.partition 1 s
      let s := modMsg i n (fun x => { x with data := Mem.write x.data x.got p.payload, got := x.got + p.payload.length }) s
      if x.got + p.payload.length = x.want then rcCovers i ((p.psn + 1) % 2 ^ 24) (msgEnd i n 0 0 s) else s

/-- RC_PACKET_RECEIVE (R348). -/
def rcReceive (m : Moment) (p : Pkt) (s : State) : State :=
  let i := p.qp
  let (ok, s) := arrives i p s
  match if ok then getQp s i else none with
  | none => s
  | some q =>
    let s := answerCe i p s
    if q.gx then s
    else if p.bth = 0x11 then rcAckIn m i p s
    else if 0x0D ≤ p.bth && p.bth ≤ 0x10 then rcResponse m i q p s
    else if psnBefore p.psn q.cumPsn then
      (if p.bth = 0x0C then
        (match rcRegion s i q false p.key p.regOff p.len with
        | some _ => (match getQp s i with
          | some q => let cum := q.cumPsn
            (match rcReadIn m i q p s with
            | s => (match getQp s i with | some q => setQp i { q with cumPsn := cum } s | none => s))
          | none => s)
        | none => rcBad m i 0x62 p.psn s)
      else rcAck i 0 ((q.cumPsn + 2 ^ 24 - 1) % 2 ^ 24) 0 (bump .netDup q.partition 1 s))
    else if p.psn ≠ q.cumPsn then
      (if q.nakSent then s else rcAck i 0x60 q.cumPsn 0 (setQp i { q with nakSent := true } s))
    else
      match getQp s i with
      | some q => rcRequest m i q p s
      | none => s

end Sys2Proof.Machine
end

