-- ==== Sys2Proof/Machine/NetCommands.lean ====
section
/-! DEFINITION. The commands of group 0x0A and the events of ports, regions and the composition map (R346 to R380, 12). -/

namespace Sys2Proof.Machine

/-! ### Ports (R346, R347) -/

/-- NET_PORT_STATE of a port (R376). -/
def portState (s : State) (p : Nat) : Nat :=
  let x := getPort s p
  let t := match s.net.ptp.selected with
    | some i => if i / 4 = p then 2 ^ (i % 4) else 0
    | none => 0
  x.linkUp * 256 + x.mode * 16 + t

/-- LINK_STATE of an interface (R378). -/
def noteLink (i : Nat) (up : Bool) (s : State) : State := note 0x0A02 (if up then 0 else 1) 0xFF 0 [i] s

def opNetPortSet : OpInfo := { opcode := 0x0A00, pf0 := true }

/-- NET_PORT_SET: a mode change takes the port's links down. -/
def bodyNetPortSet (m : Moment) (r : Req) (s : State) : Reply :=
  let p := r.f 0 1
  let mode := r.f 1 1
  let pfc := r.f 2 1
  let gx := r.f 3 1
  if 7 < p || 2 < mode || 7 < gx || 2 < popcount 8 pfc || bit pfc gx then .err s St.badField
  else
    let x := getPort s p
    let x' : Port := { mode, pfc, gxPrio := gx, linkUp := if mode = x.mode then x.linkUp else 0 }
    let s := setPort p x' s
    if mode = x.mode then .ok s
    else .ok (failDownQps m ((setBits 4 x.linkUp).foldl (fun s k => noteLink (4 * p + k) false s) s))

def execNetPortSet (m : Moment) (r : Req) (s : State) : Out := .next (runCommand opNetPortSet bodyNetPortSet m r s)

def opNetPortQuery : OpInfo := { opcode := 0x0A01, mctp := true }

/-- NET_PORT_QUERY: a line per interface; the FEC counts are free values (log entry 53). -/
def bodyNetPortQuery (_ : Moment) (r : Req) (s : State) : Reply :=
  let p := r.f 0 1
  if 7 < p then .err s St.badField
  else
    let x := getPort s p
    let (l, s') := (portSubs s p).foldl (fun (a : Bytes × State) _ =>
      let (c, s) := fresh a.2
      let (u, s) := fresh s
      (a.1 ++ u16 (modeRate x.mode / 1000) ++ u64 c ++ u64 u, s)) ([], s)
    .ok s' (u32 (portState s p) ++ l)

def execNetPortQuery (m : Moment) (r : Req) (s : State) : Out := .next (runCommand opNetPortQuery bodyNetPortQuery m r s)

/-- ETH_LINK_CHANGE: an interface's link comes up, its port powered and the SerDes reference present (R464, R523), or goes down
(R352, R378). -/
def execEthLinkChange (m : Moment) (ifc : Nat) (up : Bool) (s : State) : Out :=
  let s := s.at m
  let x := getPort s (ifc / 4)
  if !ifPresent s ifc || bit x.linkUp (ifc % 4) = up || (up && (!s.elec.sdref || (getGroup s (0x28 + ifc / 4)).state < 2)) then .next s
  else
    let s := setPort (ifc / 4) { x with linkUp := if up then x.linkUp + 2 ^ (ifc % 4) else x.linkUp - 2 ^ (ifc % 4) } s
    .next (failDownQps m (noteLink ifc up s))

/-! ### Queue pairs (R351, R352) -/

def opNetQpConnect : OpInfo := { opcode := 0x0A02, rsvd := [(2, 2), (0x2E, 2)] }

/-- Queue pairs that a partition's ways of the queue-pair state memory hold: 1,024 each (R351, R443). -/
def qpRoom (s : State) (p : Nat) : Nat := 1024 * ways s p 5

/-- What NET_QP_CONNECT checks of its fields. -/
def qpConnectOk (r : Req) (s : State) : Bool :=
  let gx := r.f 0 1 = 1
  let ifs := setBits 32 (r.f 4 4)
  r.f 0 1 ≤ 1 && ifs.all (ifPresent s) && 1 ≤ ifs.length && 1 ≤ r.f 1 1
    && (if gx then ifs.length ≤ 4 && r.f 1 1 ≤ 16 else ifs.length = 1 && r.f 1 1 = 1 && r.f 0x30 4 = ones32)
    && [1024, 2048, 4096].contains (r.f 0x14 2) && decide (r.f 8 4 < 2 ^ 24) && decide (r.f 0x0C 4 < 2 ^ 24)
    && decide (r.f 0x10 4 < 2 ^ 24)

/-- The key that a connection names must be one of its partition's network keys, and of no other connection (R448). -/
def qpKeyCheck (p key : Nat) (s : State) : Except Nat Unit :=
  if key = ones32 then .ok ()
  else if (keyOf s key).isNone || bits key 11 8 ≠ p || key % 256 = 0 then .error St.keyGone
  else if s.net.qps.any (fun e => e.2.keyId = key) then .error St.keyInUse
  else .ok ()

/-- NET_QP_CONNECT: the queue pair is RTS, with 64 seal buffers FREE. -/
def bodyNetQpConnect (m : Moment) (r : Req) (s : State) : Reply :=
  let p := r.part16
  let key := r.f 0x30 4
  if !qpConnectOk r s then .err s St.badField
  else
    match qpKeyCheck p key s with
    | .error st => .err s st
    | .ok _ =>
      if qpRoom s p ≤ (s.net.qps.filter (fun e => e.2.partition = p)).length then .err s St.busyRetry
      else
        match pickIdx m 0 s.net.qps 16384 with
        | none => .err s St.busyRetry
        | some i =>
          let q : Qp := { gx := r.f 0 1 = 1, partition := p, paths := r.f 1 1, ifMask := r.f 4 4, peerQpn := r.f 8 4
                          sqPsn := r.f 0x0C 4, cumPsn := r.f 0x10 4, mtu := r.f 0x14 2, sport := r.f 0x16 2
                          peerAddr := r.b 0x18 16, peerMac := r.b 0x28 6, keyId := key, txSalt := r.f 0x34 4
                          rxSalt := r.f 0x38 4, ctInc := s.ct }
          let c := ccOf s p
          let s := setQp i { q with rate := if c.rateInit = 0 then rateMax s q else min c.rateInit (rateMax s q) } s
          .ok s (u32 (qpHandle s i))

def execNetQpConnect (m : Moment) (r : Req) (s : State) : Out := .next (runCommand opNetQpConnect bodyNetQpConnect m r s)

def opNetQpClose : OpInfo := { opcode := 0x0A03 }

/-- NET_QP_CLOSE: an RTS queue pair drains, one in ERROR returns to RESET. -/
def bodyNetQpClose (_ : Moment) (r : Req) (s : State) : Reply :=
  match qpFor r s (r.f 0 4) with
  | none => .err s St.connGone
  | some (i, q) =>
    match q.state with
    | .draining => .err s stWrong
    | .error => asOp r s 0 0 0 true [] fun _ s => qpReset i s
    | .rts => asOp r s 0 0 0 true [] fun n s =>
        setQp i { q with state := .draining, drainOp := n, drainDue := s.ct + q.ackTo * q.retryLim } s

def execNetQpClose (m : Moment) (r : Req) (s : State) : Out := .next (runCommand opNetQpClose bodyNetQpClose m r s)

/-- The end of a close whose queue pair is in RESET, or which has been cancelled. -/
def endNetQpClose (n : Nat) (o : LongOp) (s : State) : State :=
  if s.net.qps.any (fun e => e.2.drainOp = n) then
    if o.cancelling then endOp n St.cancelled 0 [] s else s
  else endOp n (if o.cancelling then St.cancelled else St.ok) 0 [] s

def opNetQpQuery : OpInfo := { opcode := 0x0A04 }

def qpStateCode : QpState → Nat
  | .rts => 1
  | .draining => 2
  | .error => 3

/-- Paths that are not suspended (R353). -/
def pathsLive (s : State) (q : Qp) : Nat :=
  ((List.range q.paths).filter (fun k => !(tget q.pathSkip k).any (fun c => decide (s.ct < c)))).length

/-- NET_QP_QUERY. -/
def bodyNetQpQuery (_ : Moment) (r : Req) (s : State) : Reply :=
  match qpFor r s (r.f 0 4) with
  | none => .err s St.connGone
  | some (_, q) =>
    .ok s (u8 (qpStateCode q.state) ++ u8 (b2n q.gx) ++ u16 (pathsLive s q) ++ u32 q.rate ++ u32 q.sqPsn ++ u32 q.cumPsn
      ++ u16 (q.rx.filter (fun e => e.2.held)).length ++ u32 q.msgNext)

def execNetQpQuery (m : Moment) (r : Req) (s : State) : Out := .next (runCommand opNetQpQuery bodyNetQpQuery m r s)

/-! ### Congestion control (R363) -/

def opNetCcSet : OpInfo := { opcode := 0x0A05, pf0 := true, rsvd := [(1, 3)] }

/-- The parameters of NET_CC_SET, in table order. -/
def ccFrom (r : Req) : CcParams :=
  { cnpInterval := r.f 4 4, mdShift := r.f 8 4, mdHold := r.f 0x0C 4, aiPeriod := r.f 0x10 4, aiStep := r.f 0x14 4
    rateMin := r.f 0x18 4, rateInit := r.f 0x1C 4 }

/-- The ranges of R363. -/
def CcParams.ok (c : CcParams) : Bool :=
  1 ≤ c.cnpInterval && c.cnpInterval ≤ 1000 && 1 ≤ c.mdShift && c.mdShift ≤ 4 && 10 ≤ c.mdHold && c.mdHold ≤ 1000
    && 10 ≤ c.aiPeriod && c.aiPeriod ≤ 1000 && 100 ≤ c.aiStep && c.aiStep ≤ 50000 && c.aiStep % 100 = 0
    && 10 ≤ c.rateMin && c.rateMin ≤ 1000 && (c.rateInit = 0 || (c.rateMin ≤ c.rateInit && c.rateInit ≤ 3200000))

/-- NET_CC_SET. -/
def bodyNetCcSet (_ : Moment) (r : Req) (s : State) : Reply :=
  match partGate opNetCcSet r (r.f 0 1) s with
  | .error st => .err s st
  | .ok _ =>
    if (ccFrom r).ok then .ok { s with net := { s.net with cc := tset s.net.cc (r.f 0 1) (ccFrom r) } } else .err s St.badField

def execNetCcSet (m : Moment) (r : Req) (s : State) : Out := .next (runCommand opNetCcSet bodyNetCcSet m r s)

/-! ### Regions (R356) -/

def opNetRegionReg : OpInfo := { opcode := 0x0A06, rsvd := [(2, 2)], rbits := [(1, 1, 0xFC)] }

/-- What NET_REGION_REG checks of the region's place: its memory, or its page list, lies within the partition's memory. -/
def regionPlaceOk (s : State) (p backing length base : Nat) : Bool :=
  match backing with
  | 0 => (base / 2 ^ 62 = 1 || base / 2 ^ 62 = 2) && bits base 61 48 = 0 && copyPlaceOk s p (chip s) (base / 2 ^ 62) (base % 2 ^ 48) length
  | 1 =>
    let r : Region := { partition := p, backing, write := false, read := false, gen := 0, scope := ones32, length, base }
    base % 8 = 0 && decide (base < 2 ^ 48) && copyPlaceOk s p (chip s) 1 base (8 * ceilDiv length (listPage s r))
  | 2 => decide (base < 65536)
  | _ => false

/-- NET_REGION_REG: the region takes a free index, whose generation rises. -/
def bodyNetRegionReg (m : Moment) (r : Req) (s : State) : Reply :=
  let p := r.part16
  let n := r.f 8 8
  let scope := r.f 4 4
  if n = 0 || decide (2 ^ 48 < n) || !(scope = ones32 || decide (scope < 16384)) || !regionPlaceOk s p (r.f 0 1) n (r.f 0x10 8) then
    .err s St.badField
  else
    match freeFrom (fun i => i = 0 || thas s.net.regions i) 1048576 (s.net.regions.length + 2) (m.choice.getD 0 0 % 1048576) with
    | none => .err s St.busyRetry
    | some i =>
      let g := (tgetD s.net.regGens i 0 + 1) % 256
      let x : Region := { partition := p, backing := r.f 0 1, write := bit (r.f 1 1) 1, read := bit (r.f 1 1) 0, gen := g, scope
                          length := n, base := r.f 0x10 8 }
      .ok { s with net := { s.net with regions := tset s.net.regions i x, regGens := tset s.net.regGens i g } } (u32 (i * 256 + g))

def execNetRegionReg (m : Moment) (r : Req) (s : State) : Out := .next (runCommand opNetRegionReg bodyNetRegionReg m r s)

def opNetRegionDereg : OpInfo := { opcode := 0x0A07 }

/-- A chain lands in the region, or it is the region of an import (R356). A stream ring's region lies at its peer. -/
def regionUsed (s : State) (key : Nat) (x : Region) : Bool :=
  s.net.chains.any (fun e => e.2.landing = key) || (x.backing = 2 && thas s.fdy.imports x.base)

/-- NET_REGION_DEREG: the index goes into QUARANTINE. -/
def bodyNetRegionDereg (_ : Moment) (r : Req) (s : State) : Reply :=
  let key := r.f 0 4
  match (regionOf s key).filter (fun e => r.reaches e.2.partition) with
  | none => .err s St.badField
  | some (i, x) =>
    if regionUsed s key x then .err s St.regionInUse
    else .ok { s with net := { s.net with regions := tset s.net.regions i { x with rstate := .quarantine, ctDereg := s.ct } } }

def execNetRegionDereg (m : Moment) (r : Req) (s : State) : Out := .next (runCommand opNetRegionDereg bodyNetRegionDereg m r s)

/-- REGION_QUARANTINE_EXPIRY: 500 ms after its deregistration the index is FREE. -/
def execRegionQuarantineExpiry (m : Moment) (region : Nat) (s : State) : Out :=
  let s := s.at m
  match tget s.net.regions region with
  | some x =>
    if x.rstate = .quarantine && decide (x.ctDereg + 500000000 ≤ s.ct) then
      .next { s with net := { s.net with regions := tdel s.net.regions region } }
    else .next s
  | none => .next s

def opNetRegionQuery : OpInfo := { opcode := 0x0A11 }

/-- The region entry of R356. -/
def regionBytes (x : Region) : Bytes :=
  u32 ((if x.rstate = .valid then 1 else 2) * 2 ^ 30 + x.partition * 2 ^ 26 + x.backing * 2 ^ 24 + b2n x.write * 2 ^ 23
    + b2n x.read * 2 ^ 22 + x.gen) ++ u32 x.scope ++ u64 x.length ++ u64 x.base ++ u64 x.ctDereg

/-- NET_REGION_QUERY returns the entry that a key names, VALID or in QUARANTINE; the manual gives the command no opcode (log
entry 36). -/
def bodyNetRegionQuery (_ : Moment) (r : Req) (s : State) : Reply :=
  let key := r.f 0 4
  match (tget s.net.regions (key / 256)).filter (fun x => x.gen = key % 256 && r.reaches x.partition) with
  | some x => .ok s (regionBytes x)
  | none => .err s St.badField

def execNetRegionQuery (m : Moment) (r : Req) (s : State) : Out := .next (runCommand opNetRegionQuery bodyNetRegionQuery m r s)

/-! ### NET_POST (R379) -/

def opNetPost : OpInfo := { opcode := 0x0A08 }

/-- A work request of NET_POST (log entry 29). -/
structure PostWr where
  kind    : Nat
  sealLen : Nat
  lkey    : Nat
  loff    : Nat
  rkey    : Nat
  roff    : Nat
  length  : Nat
  tag     : Nat
  sealOff : Nat
  deriving DecidableEq, Repr

def postWr (b : Bytes) : PostWr :=
  { kind := field b 0 1, sealLen := field b 2 2, lkey := field b 4 4, loff := field b 8 8, rkey := field b 0x10 4
    roff := field b 0x18 8, length := field b 0x20 4, tag := field b 0x24 4, sealOff := field b 0x28 8 }

/-- The bytes that a work request leaves unused are zero (R10). -/
def postGap (b : Bytes) : Bool := field b 1 1 = 0 && field b 0x14 4 = 0 && slice b 0x30 16 = zeros 16

/-- What NET_POST checks of one work request: its kind, its sizes and its local bytes. -/
def postWrOk (s : State) (q : Qp) (w : PostWr) : Bool :=
  decide (w.kind ≤ (if q.gx then 1 else 2)) && decide (w.length < ones32) && decide (w.sealLen ≤ 256)
    && (w.sealLen = 0 || (q.gx && w.kind = 0)) && (w.tag = 0 || w.kind = 0)
    && (match regionOf s w.lkey with
      | some (_, x) => x.partition = q.partition && decide (w.loff + w.length + w.sealLen ≤ x.length)
      | none => false)

/-- Sends one work request of a NET_POST operation. -/
def postSend (n i : Nat) (w : PostWr) (s : State) : Except Nat State :=
  match getQp s i, regionOf s w.lkey with
  | some q, some (_, x) =>
    let o : TxMsg := { owner := .post n, lastPsn := 0, lkey := w.lkey, roff := w.loff }
    let data := regionRead s x w.loff w.length
    match w.kind, q.gx with
    | 1, true => gxRead i o w.rkey w.roff w.length s
    | 1, false => rcRead i o w.rkey w.roff w.length s
    | 0, true => gxWrite i { o with body := data } w.rkey w.roff data
        { payload := regionRead s x (w.loff + w.length) w.sealLen, off := w.sealOff, trigger := w.tag ≠ 0, tag := w.tag } s
    | 0, false => rcSend i { o with body := data } true w.rkey w.roff data (if w.tag = 0 then none else some w.tag) s
    | _, _ => rcSend i { o with body := data } false 0 0 data none s
  | _, _ => .error St.connGone

/-- Sends the work requests of an operation in order; the first that cannot be sent ends it. -/
def postAll (n i : Nat) : List PostWr → State → State
  | [], s => s
  | w :: l, s =>
    match postSend n i w s with
    | .ok s => postAll n i l s
    | .error st => postDone n st 0 0 s

/-- NET_POST: each GX write goes out as one sealed message; the operation ends with the last completion. -/
def bodyNetPost (m : Moment) (r : Req) (s : State) : Reply :=
  match qpFor r s (r.f 0 4) with
  | none => .err s St.connGone
  | some (i, q) =>
    let k := r.f 4 4
    match qpReady s i with
    | .error st => .err s st
    | .ok _ =>
      withData r (64 * k) s fun b =>
        let l := (List.range k).map (fun j => postWr (slice b (64 * j) 64))
        if !l.all (postWrOk s q) || !(List.range k).all (fun j => postGap (slice b (64 * j) 64)) then .err s St.badField
        else if k = 0 then .ok s (u32 0)
        else asOp r s 0 1 ((l.map (·.length)).sum) true [k, 0] fun n s => spentMsgs m (postAll n i l s)

def execNetPost (m : Moment) (r : Req) (s : State) : Out := .next (runCommand opNetPost bodyNetPost m r s)

/-- The end of a cancelled NET_POST; one that runs ends with its last completion. -/
def endNetPost (n : Nat) (o : LongOp) (s : State) : State :=
  if o.cancelling then endOp n St.cancelled 0 (u32 (o.args.getD 1 0)) (dropMsgs (.post n) s) else s

/-! ### Chains (R364 to R366) -/

def opNetChainPost : OpInfo := { opcode := 0x0A09, rsvd := [(0x0E, 0x32)] }

/-- A work request that a chain may hold: an ADMIT only where the chain is armed for admission, its payload within the
template. -/
def chainWrOk (arm : Bool) (w : Bytes) : Bool :=
  decide (field w 0 1 ≤ 5) && decide (field w 1 1 ≤ 1) && field w 2 6 = 0
    && (field w 0 1 ≠ 3 || (arm && decide (field w 8 4 + 0x50 ≤ 128))) && (field w 0 1 ≠ 4 || decide (field w 0x0C 4 ≤ 256))

/-- The checks of NET_CHAIN_POST. -/
def chainPostCheck (r : Req) (p : Nat) (wrs : List Bytes) (s : State) : Except Nat Unit := do
  let tag := r.f 4 4
  let arm := r.f 0x0C 1 = 1
  guard' (decide (r.f 0x0C 1 ≤ 1) && decide (1 ≤ wrs.length) && decide (wrs.length ≤ 8) && decide (1 ≤ tag) && decide (tag < 0xFFFFFF00)
    && wrs.all (chainWrOk arm) && (!arm || wrs.any (fun w => field w 0 1 = 3))) St.badField
  guard' (r.f 0 4 = ones32 || (qpOf s (r.f 0 4)).any (fun e => e.2.partition = p)) St.connGone
  guard' ((regionOf s (r.f 8 4)).any (fun e => e.2.partition = p && e.2.write && e.2.backing ≠ 2 && decide (e.2.length ≤ 16777216)))
    St.badField
  guard' (!arm || !tagArmed s p tag) St.tagInUse

/-- NET_CHAIN_POST: the chain is POSTED, or ARMED for admissions. -/
def bodyNetChainPost (m : Moment) (r : Req) (s : State) : Reply :=
  let p := r.part16
  let arm := r.f 0x0C 1 = 1
  let wrs := (List.range (r.f 0x0D 1)).map (fun i => r.b (0x40 + 32 * i) 32)
  checked s (chainPostCheck r p wrs s) fun _ =>
    match pickIdx m 0 s.net.chains 65536 with
    | none => .err s St.busyRetry
    | some i =>
      let c : Chain := { cstate := if arm then .armed else .posted, gen := tgetD s.net.chainGens i 0, partition := p, tag := r.f 4 4
                         qp := r.f 0 4, landing := r.f 8 4, wrs, template := r.b 0x140 256, admission := arm }
      .ok { s with net := { s.net with chains := tset s.net.chains i c } } (u32 (chainHandle i c))

def execNetChainPost (m : Moment) (r : Req) (s : State) : Out := .next (runCommand opNetChainPost bodyNetChainPost m r s)

def opNetChainCancel : OpInfo := { opcode := 0x0A0A }

/-- NET_CHAIN_CANCEL: a chain that fires cannot be cancelled. -/
def bodyNetChainCancel (_ : Moment) (r : Req) (s : State) : Reply :=
  let h := r.f 0 4
  match (tget s.net.chains (h % 65536)).filter (fun c => c.gen = h / 65536 && r.reaches c.partition) with
  | none => .err s St.connGone
  | some c => if c.cstate = .firing then .err s stWrong else .ok (freeChain (h % 65536) s)

def execNetChainCancel (m : Moment) (r : Req) (s : State) : Out := .next (runCommand opNetChainCancel bodyNetChainCancel m r s)

/-! ### The composition map (R370 to R374) -/

/-- A range change (log entry 29). -/
structure MapChange where
  range    : Nat
  kind     : Nat
  preserve : Bool
  length   : Nat
  conn     : Nat
  key      : Nat
  offset   : Nat
  replica  : Nat
  deriving DecidableEq, Repr

def mapChange (b : Bytes) : MapChange :=
  { range := field b 0 2, kind := field b 2 1, preserve := bit (field b 3 1) 0, length := field b 8 8, conn := field b 0x10 4
    key := field b 0x14 4, offset := field b 0x18 8, replica := field b 0x20 2 }

/-- What every change must satisfy, for the ranges of a partition; the bytes that it leaves unused are zero (R10). -/
def mapFieldsOk (s : State) (p : Nat) (b : Bytes) : Bool :=
  let c := mapChange b
  c.range ≠ 0xFFFF && decide (c.kind ≤ 2) && decide (field b 3 1 ≤ 1) && field b 4 4 = 0 && slice b 0x22 30 = zeros 30
    && (c.kind = 2 || (1 ≤ c.length && c.length % 8192 = 0 && decide (c.length ≤ 2 ^ 45)))
    && (match tget s.net.ranges c.range with | some x => x.partition = p | none => true)

/-- A target's connection: GX, of the partition (R370). -/
def mapConnOk (s : State) (p : Nat) (c : MapChange) : Bool :=
  c.kind = 2 || (qpOf s c.conn).any (fun e => e.2.gx && e.2.partition = p)

/-- A change redefines or removes a range that pages name (R372). -/
def mapUsed (s : State) (c : MapChange) : Bool :=
  thas s.net.ranges c.range && !(c.preserve && c.kind ≠ 2) && 0 < rangePages s c.range

/-- The checks of NET_MAP_UPDATE. -/
def mapCheck (p : Nat) (l : List Bytes) (s : State) : Except Nat Unit := do
  let cs := l.map mapChange
  guard' (l.all (mapFieldsOk s p) && (cs.map (·.range)).eraseDups.length = cs.length
    && cs.all (fun c => thas s.net.ranges c.range ≠ (c.kind = 0 : Bool))) St.badField
  guard' (cs.all (mapConnOk s p)) St.connGone
  guard' (!cs.any (fun c => (tget s.net.ranges c.range).any (·.switching))) St.drainPending
  guard' (!cs.any (mapUsed s)) St.rangeInUse

/-- Applies one change under an epoch; `drain` keeps the old target of a range whose target changes. -/
def mapApply (p epoch : Nat) (drain : Bool) (c : MapChange) (s : State) : State :=
  let was := tget s.net.ranges c.range
  let g := (was.map (·.rgen)).getD (tgetD s.net.rgens c.range 0)
  let g := if c.preserve then g else (g + 1) % 2 ^ 32
  if c.kind = 2 then
    { s with net := { s.net with ranges := tdel s.net.ranges c.range, rgens := tset s.net.rgens c.range g } }
  else
    let x : Range := { partition := p, epoch, length := c.length, conn := c.conn, key := c.key, offset := c.offset, rgen := g
                       replica := c.replica }
    let x := match was with
      | some y => if drain && (y.conn ≠ c.conn || y.key ≠ c.key || y.offset ≠ c.offset) then
          { x with switching := true, oldConn := y.conn, oldKey := y.key, oldOffset := y.offset }
        else x
      | none => x
    { s with net := { s.net with ranges := tset s.net.ranges c.range x } }

/-- The next map epoch of a partition. -/
def nextEpoch (s : State) (p : Nat) : Nat := (mapEpoch s p + 1) % 2 ^ 32
def setEpoch (p e : Nat) (s : State) : State := { s with net := { s.net with epochs := tset s.net.epochs p e } }
def setMapOp (n : Nat) (x : MapOp) (s : State) : State := { s with net := { s.net with mapOps := tset s.net.mapOps n x } }
def delMapOp (n : Nat) (s : State) : State := { s with net := { s.net with mapOps := tdel s.net.mapOps n } }

def opNetMapUpdate : OpInfo := { opcode := 0x0A0B, rsvd := [(1, 63)] }

/-- NET_MAP_UPDATE, in phase PUBLISH: every change takes effect at once, and the old targets drain (R371). -/
def bodyNetMapUpdate (_ : Moment) (r : Req) (s : State) : Reply :=
  let p := r.part16
  let k := r.f 0 1
  let l := (List.range k).map (fun i => r.b (0x40 + 64 * i) 64)
  if k = 0 || 64 < k then .err s St.badField
  else
    checked s (mapCheck p l s) fun _ =>
      asOp r s 1 0 0 true [nextEpoch s p] fun n s =>
        let e := nextEpoch s p
        let s := setEpoch p e (l.foldl (fun s b => mapApply p e true (mapChange b) s) s)
        let moved := (l.map (fun b => (mapChange b).range)).filter (fun k => (tget s.net.ranges k).any (·.switching))
        setMapOp n { op := n, partition := p, swap := false, phase := 1, ranges := moved, epoch := e } s

def execNetMapUpdate (m : Moment) (r : Req) (s : State) : Out := .next (runCommand opNetMapUpdate bodyNetMapUpdate m r s)

/-- No request is outstanding against an old target of an update. -/
def mapDrained (s : State) (x : MapOp) : Bool := x.ranges.all (fun k => oldInflight s k x.epoch = 0)

/-- An update whose old targets have drained ends: its ranges are VALID (R371). -/
def mapUpdateEnd (n : Nat) (s : State) : State :=
  match tget s.net.mapOps n with
  | none => s
  | some x =>
    if x.swap || !mapDrained s x then s
    else
      let s := x.ranges.foldl (fun s k =>
        { s with net := { s.net with ranges := tmod s.net.ranges k (fun y =>
          { y with switching := false, oldConn := 0, oldKey := 0, oldOffset := 0 }) } }) s
      endOp n (if stopping s n then St.cancelled else St.ok) 0 (if stopping s n then [] else u32 x.epoch) (note 0x0A07 0 x.partition 0 [x.partition, x.epoch] (delMapOp n s))

/-- A map operation enters a phase, and its long operation with it (R371, R374). -/
def mapPhase (n phase : Nat) (canCancel : Bool) (s : State) : State :=
  phaseOp n phase canCancel { s with net := { s.net with mapOps := tmod s.net.mapOps n (fun x => { x with phase }) } }

/-- An update in phase PUBLISH enters DRAIN. -/
def mapDrain (n : Nat) (s : State) : State :=
  if (tget s.net.mapOps n).any (fun x => !x.swap && x.phase = 1) then mapPhase n 2 true s else s

/-- MAP_UPDATE_DRAINED: the drained updates of a partition end. -/
def execMapUpdateDrained (m : Moment) (partition : Nat) (s : State) : Out :=
  let s := s.at m
  .next ((tfind s.net.mapOps (fun x => x.partition = partition && !x.swap)).foldl (fun s n => mapUpdateEnd n (mapDrain n s)) s)

/-- NET_MAP_UPDATE goes on from PUBLISH to DRAIN and, once drained, to its end; cancelled, its ranges drain without it. -/
def endNetMapUpdate (n : Nat) (o : LongOp) (s : State) : State :=
  if o.prog.phase = 1 then mapDrain n s
  else
    let s := mapUpdateEnd n s
    if o.cancelling then endOp n St.cancelled 0 [] s else s

def opNetMapSwap : OpInfo := { opcode := 0x0A0C, pf0 := true, rsvd := [(1, 3)] }

/-- The ranges that a new map leaves out. -/
def mapOmitted (s : State) (p : Nat) (cs : List MapChange) : List Nat :=
  (tfind s.net.ranges (fun x => x.partition = p)).filter (fun k => !cs.any (fun c => c.range = k && c.kind ≠ 2))

/-- RANGE_IN_USE of a new map (R374). -/
def mapSwapUsed (s : State) (p : Nat) (cs : List MapChange) : Bool :=
  cs.any (mapUsed s) || (mapOmitted s p cs).any (fun k => 0 < rangePages s k)

/-- The checks of NET_MAP_SWAP. -/
def mapSwapCheck (p : Nat) (l : List Bytes) (s : State) : Except Nat Unit := do
  let cs := l.map mapChange
  guard' (l.all (mapFieldsOk s p) && (cs.map (·.range)).eraseDups.length = cs.length) St.badField
  guard' (cs.all (mapConnOk s p)) St.connGone
  guard' (!s.net.ranges.any (fun e => e.2.partition = p && e.2.switching)) St.drainPending
  guard' (!mapSwapUsed s p cs) St.rangeInUse
  guard' (!s.net.mapOps.any (fun e => e.2.swap && e.2.partition = p)) St.busyRetry

/-- NET_MAP_SWAP: requests of the partition to composed ranges are held, and the outstanding ones drain (R374). -/
def bodyNetMapSwap (_ : Moment) (r : Req) (s : State) : Reply :=
  let p := r.f 0 1
  let k := r.f 4 4
  match partGate opNetMapSwap r p s with
  | .error st => .err s st
  | .ok _ =>
    if 65535 < k then .err s St.badField
    else
      withData r (64 * k) s fun b =>
        let l := (List.range k).map (fun i => slice b (64 * i) 64)
        checked s (mapSwapCheck p l s) fun _ =>
          asOp r s 1 0 0 true [] fun n s =>
            setMapOp n { op := n, partition := p, swap := true, phase := 1, changes := l, due := s.ct + s.net.swapHold } s

def execNetMapSwap (m : Moment) (r : Req) (s : State) : Out := .next (runCommand opNetMapSwap bodyNetMapSwap m r s)

/-- Requests of a partition to composed ranges that are outstanding. -/
def mapOutstanding (s : State) (p : Nat) : Nat :=
  (s.net.qps.map (fun e => if e.2.partition = p then
    (e.2.msgs.filter (fun m => m.2.range ≠ 0xFFFF && !m.2.done && m.2.failed = 0)).length else 0)).sum

/-- A swap is given up, and the old map stays. -/
def mapSwapDrop (n : Nat) (s : State) : State := endOp n St.cancelled 0 [] (delMapOp n s)

/-- SWAP, once nothing is outstanding: the new map takes the old one's place under a new epoch (R374). -/
def mapSwapTake (n : Nat) (s : State) : State :=
  match tget s.net.mapOps n with
  | none => s
  | some x =>
    if 0 < mapOutstanding s x.partition then s
    else
      let cs := x.changes.map mapChange
      if mapSwapUsed s x.partition cs then endOp n St.rangeInUse 0 [] (delMapOp n s)
      else
        let e := nextEpoch s x.partition
        let drop (k : Nat) : MapChange :=
          { range := k, kind := 2, preserve := false, length := 0, conn := 0, key := 0, offset := 0, replica := 0xFFFF }
        let s := (mapOmitted s x.partition cs).foldl (fun s k => mapApply x.partition e false (drop k) s) s
        let s := (cs.filter (fun c => c.kind ≠ 2)).foldl (fun s c => mapApply x.partition e false c s) s
        mapPhase n 3 false (setMapOp n { x with epoch := e } (setEpoch x.partition e s))

/-- NET_MAP_SWAP goes on: from QUIESCE to DRAIN, once drained to SWAP, then to RESUME and to its end (R374). Only in QUIESCE and
DRAIN is it given up. -/
def mapSwapNext (n : Nat) (s : State) : State :=
  match tget s.net.mapOps n with
  | none => s
  | some x =>
    if !x.swap then s
    else if stopping s n then mapSwapDrop n s
    else if x.phase = 1 then mapPhase n 2 true s
    else if x.phase = 2 then mapSwapTake n s
    else if x.phase = 3 then mapPhase n 4 false s
    else endOp n 0 0 (u32 x.epoch) (delMapOp n s)

/-- MAP_SWAP_HOLD_EXPIRY: a swap whose DRAIN has not finished in time ends with CANCELLED. -/
def execMapSwapHoldExpiry (m : Moment) (partition : Nat) (s : State) : Out :=
  let s := s.at m
  match s.net.mapOps.find? (fun e => e.2.swap && e.2.partition = partition) with
  | none => .next s
  | some (n, x) =>
    if s.ct < x.due || decide (2 < x.phase) then .next s
    else if 0 < mapOutstanding s partition then .next (mapSwapDrop n s)
    else .next (mapSwapNext n s)

def opNetMapRead : OpInfo := { opcode := 0x0A0D, mctp := true }

/-- The range entry of R370. -/
def rangeBytes (s : State) (k : Nat) : Bytes :=
  match tget s.net.ranges k with
  | none => zeros 0x30 ++ u32 (tgetD s.net.rgens k 0) ++ u32 0xFFFF ++ zeros 8
  | some x =>
    u32 ((if x.switching then 2 else 1) * 2 ^ 30 + x.partition * 2 ^ 26) ++ u32 x.epoch ++ u64 x.length ++ u32 x.conn ++ u32 x.key
      ++ u64 x.offset ++ u32 x.oldConn ++ u32 x.oldKey ++ u64 x.oldOffset ++ u32 x.rgen ++ u32 x.replica
      ++ u32 (rangePages s k) ++ u32 (if x.switching then oldInflight s k x.epoch else 0)

/-- NET_MAP_READ: ranges of other partitions read as zero. -/
def bodyNetMapRead (_ : Moment) (r : Req) (s : State) : Reply :=
  let a := r.f 0 2
  let k := r.f 2 2
  if k = 0 || 60 < k || decide (65535 < a + k) then .err s St.badField
  else .ok s ((List.range k).flatMap (fun i =>
    match tget s.net.ranges (a + i) with
    | some x => if r.reaches x.partition then rangeBytes s (a + i) else zeros 64
    | none => rangeBytes s (a + i)))

def execNetMapRead (m : Moment) (r : Req) (s : State) : Out := .next (runCommand opNetMapRead bodyNetMapRead m r s)

/-! ### PTP (R349) -/

def opNetPtpSet : OpInfo := { opcode := 0x0A0E, pf0 := true, rsvd := [(7, 1)] }

/-- NET_PTP_SET: the PTP ports; a change of profile, transport or domain forgets the time transmitters heard. -/
def bodyNetPtpSet (_ : Moment) (r : Req) (s : State) : Reply :=
  let mask := r.f 0 4
  if !(setBits 32 mask).all (ifPresent s) || 1 < r.f 4 1 || 2 < r.f 5 1 || 127 < r.f 6 1 then .err s St.badField
  else
    let x := s.net.ptp
    let same := x.profile = r.f 4 1 && x.transport = r.f 5 1 && x.domain = r.f 6 1
    .ok { s with net := { s.net with ptp :=
      { ifMask := mask, profile := r.f 4 1, transport := r.f 5 1, domain := r.f 6 1
        selected := if same then x.selected.filter (bit mask) else none
        heard := if same then x.heard.filter (fun e => bit mask e.1) else [] } } }

def execNetPtpSet (m : Moment) (r : Req) (s : State) : Out := .next (runCommand opNetPtpSet bodyNetPtpSet m r s)

end Sys2Proof.Machine
end

