-- ==== Sys2Proof/Machine/Eligible.lean ====
section
/-! DEFINITION. What a session would be granted, which conditions of a grant it meets, and the queues that follow from them (R71, 02; R119,
03; R135 to R141, 04; R212, 06; R260, 08; R278 to R283, 09; R396 to R400, 13; R464, R465, 16). -/

namespace Sys2Proof.Machine

/-! ### What a session would be granted (R71, R260) -/

/-- The step or chunk that a session would be granted next. -/
structure Want where
  id      : Nat
  /-- 0 for a decode step, else the tokens of the chunk. -/
  chunk   : Nat := 0
  drafts  : Nat := 0
  /-- First query position. -/
  start   : Nat
  rebuild : Bool := false
  deriving DecidableEq, Repr

/-- Query positions of a wanted item. -/
def Want.count (w : Want) : Nat := if w.chunk = 0 then 1 + w.drafts else w.chunk

/-- The draft positions that a session's next step proposes (R260). -/
def draftCount (s : State) (x : Session) : Nat :=
  if !sflag x.flags Fl.spec then 0
  else
    let t := getStore s x.id
    let d := min (min t.samp.draftLen 255) (min (x.maxLength - x.length - 1) (x.credit / 1000 - 1))
    let d := if x.maxNew = 0 then d else min d (x.maxNew - x.newTokens - 1)
    (propose (gramOf s x) t.samp (t.drafts.take d) (gstateOf s x)).length

/-- What a session in a state that takes grants would be granted, with nothing in flight and no change waiting (R71, R119). A
shadow is granted what its oldest twin grant names (R396). -/
def wantOf (s : State) (x : Session) : Option Want :=
  if x.inflight.isSome || !x.waiting.isEmpty || (getPart s x.partition).pstate = .teardown then none
  else
    match x.rebuild with
    | some (a, b) =>
      if x.st = .raising || x.st = .prefill || x.st = .decode then
        some { id := x.id, chunk := min 8192 (b - a), start := a, rebuild := true }
      else none
    | none =>
      if isShadow s x.id then
        match s.twn.grants.find? (fun g => g.1 = x.id) with
        | some (_, base, chunk) =>
          if base ≠ x.length then none
          else if chunk = 0 then (if x.st = .decode then some { id := x.id, start := x.length } else none)
          else if x.st = .prefill then some { id := x.id, chunk, start := x.prefillPos } else none
        | none => none
      else if x.st = .decode then some { id := x.id, drafts := draftCount s x, start := x.length }
      else if x.st = .prefill && decide (x.prefillPos < x.length) then
        some { id := x.id, chunk := min 8192 (x.length - x.prefillPos), start := x.prefillPos }
      else none

/-- Whether a chunk is its session's last one, at whose end a token is sampled (R64). -/
def lastChunk (x : Session) (w : Want) : Bool :=
  w.chunk ≠ 0 && !w.rebuild && w.start + w.chunk = x.length && decide (x.length < x.maxLength)

/-- Tokens that an item may commit. -/
def mayCommit (x : Session) (w : Want) : Nat := if w.chunk = 0 then 1 + w.drafts else b2n (lastChunk x w)

/-! ### Pages (R135, R140, R212) -/

/-- The valid entries that an item reads, by key. -/
def wantPages (s : State) (x : Session) (w : Want) : List (Nat × Pte) :=
  let t := (getStore s x.id).pages
  (List.range t.lgCount).flatMap (fun g => (neededBlocks x w.start w.count).filterMap (fun b =>
    match tget t.ptes (pteKey g b) with
    | some e => if e.valid then some (pteKey g b, e) else none
    | none => none))

/-- Whether a page is arriving: under a raise that the session has left, or under any Foundry operation. -/
def arriving (s : State) (id key : Nat) (tail : Bool) : Bool :=
  s.fdy.ops.any (fun e => e.2.session = id && thas e.2.fresh key && (!tail || (e.2.kind = .raise && e.2.left)))

/-- What the pages of a wanted item allow. -/
inductive PageTest where
  | ready
  | wait
  | stale (e : Pte)
  | pull (keys : List Nat)
  deriving DecidableEq, Repr

/-- The page conditions of R71 and R212. A rebuild does not wait for the pages that it rebuilds. -/
def pageTest (s : State) (x : Session) (w : Want) : PageTest :=
  let l := wantPages s x w
  match l.find? (fun e => e.2.stale s x.partition) with
  | some e => .stale e.2
  | none =>
    let away := (l.filter (fun e => !e.2.resident && !arriving s x.id e.1 true
      && !(w.rebuild && (lostPte s x.id (e.1 / 4096) (e.1 % 4096)).isSome))).map (·.1)
    if away = [] then .ready
    else match away.filter (fun k => !arriving s x.id k false) with
      | [] => .wait
      | k :: ks => .pull (k :: ks)

/-- The ports of a session's remote stream whose links are up and of which none is ACTIVE (R464, R465). -/
def streamPorts (s : State) (x : Session) : List Nat :=
  match (ringOf x).bind (getRing s) with
  | none => []
  | some r =>
    match if r.kind = 1 then none else qpOf s r.conn with
    | none => []
    | some (_, q) => if qpLive s q then [] else ((qpIfs q).filter (ifUp s)).map (fun i => 0x28 + i / 4)

/-- The first power group that a wanted item needs and that takes no work (R465): its span's clusters, its pages' memories, the
Solder, the Finisher, the Armature for a session with a grammar, and its stream's port. -/
def closedGroup (s : State) (x : Session) (w : Want) : Option Nat :=
  let mem := ((wantPages s x w).filter (fun e => e.2.here s)).map (fun e => addrGroup e.2.tier e.2.addr)
  (setBits 16 (getModel s x.modelSlot).spanMask ++ mem.eraseDups ++ [0x39, 0x3B] ++ (if x.grammarImage = 0xFFFF then [] else [0x3A])
    ++ streamPorts s x).find? (fun g => !groupOpen s g)

/-! ### The grant test (R71, R282, R297) -/

/-- Whether a twinned session may be granted a further step (R398, R400). -/
def twinOpen (s : State) (x : Session) : Bool :=
  match tget s.twn.pairs x.partition with
  | none => true
  | some p => p.secondary || (match p.tstate with
    | .locked => decide ((s.twn.steps.filter (fun e => e.2.session = x.id && e.2.committed)).length < p.depth)
    | .lost => p.onLoss = 1)

/-! ### The conditions together -/

/-- What the conditions of R71 other than credit and fair share say of a session. -/
inductive Gate where
  | shut
  | stale (e : Pte)
  | pull (keys : List Nat)
  | power (group : Nat)
  /-- Stream-buffer room alone is lacking. -/
  | room
  | opened (w : Want)
  deriving DecidableEq, Repr

/-- The gate of a session. -/
def gateOf (s : State) (x : Session) : Gate :=
  match wantOf s x with
  | none => .shut
  | some w =>
    if (getModel s x.modelSlot).mstate ≠ .ready || !twinOpen s x then .shut
    else
      match pageTest s x w with
      | .stale e => .stale e
      | .wait => .shut
      | .pull keys => .pull keys
      | .ready =>
        match closedGroup s x w with
        | some g => .power g
        | none => if isShadow s x.id || mayCommit x w = 0 || streamRoom s x w.drafts then .opened w else .room

/-- The milli-tokens that an item asks for (R71). -/
def creditAsk (w : Want) : Nat := if w.chunk = 0 then 1000 * (1 + w.drafts) else 0

/-- The credit condition of R71. -/
def creditOk (x : Session) (w : Want) : Bool := decide (creditAsk w ≤ x.credit)

/-- A session as its credit would stand if it were updated now (R278). -/
def refreshed (s : State) (x : Session) : Session :=
  if thas s.pla.classes x.cls then { x with credit := (creditUpdate (getClass s x.cls) x.credit x.q.ctCredit s.ct).2.2 } else x

/-- The ct from which a session has met every condition of R71 but the fair share: now, or, where credit alone was lacking, the ct at
which it sufficed (R273, R281). -/
def readyFrom (s : State) (x : Session) : Gate → Option Nat
  | .opened w =>
    if creditOk (refreshed s x) w then
      some (if x.q.onCredit then min s.ct ((creditDue (getClass s x.cls) x (creditAsk w)).getD s.ct) else s.ct)
    else none
  | _ => none

/-- What a session's gate says is kept: whether credit alone is lacking, time withheld for stream room, and the end of its backlog. -/
def noteGate (x : Session) (g : Gate) (s : State) : State :=
  let s := streamStall x (g ≠ .room) s
  match readyFrom s x g with
  | some _ => s
  | none =>
    let lacks := match g with | .opened _ => true | _ => false
    restQueue x.id (modSess x.id (fun x => { x with q := { x.q with onCredit := lacks } }) s)

/-- The queues follow the conditions of R71: sessions that cease to meet them rest, those that now meet them wake in the order of the cts
at which they did, and the units that serve every partition see what work they have (R281 to R283). -/
def settleQueues (s : State) : State :=
  let xs := ((s.pln.slots.map (·.2)).filter (fun x => !isShadow s x.id)).map (fun x => (x, gateOf s (refreshed s x)))
  let woken := sortBy (fun (a b : Nat × Nat) => decide (a.1 ≤ b.1)) (xs.filterMap (fun e => (readyFrom s e.1 e.2).map (·, e.1.id)))
  let s := xs.foldl (fun s e => noteGate e.1 e.2 s) s
  let s := woken.foldl (fun s e => wakeQueue e.2 e.1 s) s
  let s := xs.foldl (fun s e => noteEligible e.1.id s) s
  wakeParts .stream (streamParts s) (wakeParts .lane (laneParts s) s)

end Sys2Proof.Machine
end

