-- ==== Sys2Proof/Machine/Settle.lean ====
section
/-! DEFINITION. What an effect sets going in its turn: waiting changes of sessions, chains, captures, slot pressure and stalled
packets (R64, R66, R69, R83, R85, 02; R362, R366, 12; R414, 14), and the commands and events that end with it. -/

namespace Sys2Proof.Machine

/-! ### Waiting changes (R66) -/

/-- Whether the oldest waiting change of a session may take effect. A fault lets every one but a retirement end at once (R65, R91). -/
def changeOpen (s : State) (x : Session) (r : Req) : Bool :=
  if x.st = .faulted && r.hdr.opcode ≠ 0x0107 then true
  else
  match r.hdr.opcode with
  | 0x0106 => rebindOpen s x
  | 0x0107 => retireOpen s x
  | 0x0108 => !laneHas s x.id
  | 0x0200 => settled s x && !moving s x.id
  | 0x0202 => settled s x && !moving s x.id
  | _ => settled s x

/-- What does not wait for a rebind that waits for a partly cut intake: a retirement (R91), and an append of tokens or an arming, which
a lane alone held back. -/
def passesRebind (s : State) (x : Session) (q : Req) : Bool :=
  match q.hdr.opcode with
  | 0x0107 => retireOpen s x
  | 0x0102 => settled s x
  | 0x0108 => settled s x
  | _ => false

/-- The change that takes effect next: what waits before it and after it. -/
def nextChange (s : State) (x : Session) : Option (List Req × Req × List Req) :=
  match x.waiting with
  | [] => none
  | r :: rest =>
    if changeOpen s x r then some ([], r, rest)
    else if isRebind r then
      match rest.dropWhile isRebind with
      | q :: post => if passesRebind s x q then some (r :: rest.takeWhile isRebind, q, post) else none
      | [] => none
    else none

/-- A waiting change takes effect: it is checked against the state that the earlier ones left (R66). -/
def applyChange (m : Moment) (x : Session) (r : Req) (s : State) : Reply :=
  match r.hdr.opcode with
  | 0x0101 => appendNow m r x s
  | 0x0102 => appendToksNow m r x s
  | 0x0103 => stopNow x.id s
  | 0x0105 => setNow r x.id s
  | 0x0108 => armActive r x s
  | 0x0106 => if (opOfReq s r).any (stopping s) then .err s St.cancelled else rebindNow r x.id (.active x) s
  | 0x0200 =>
    (match r.src with
    | .device _ => .wait (deviceCast m false true x s)
    | _ => castBody false m r s)
  | 0x0202 => bodyFdyMigrate m r s
  | 0x0600 => if x.st = .faulted || x.st = .retiring then .err s stWrong else finSetNow r x.id x.tableGen s
  | _ => if r.hdr.opcode = chainGoesOn then .wait (runChain m (r.f 8 4) 9 s) else .ok s

/-- Applies the waiting changes of an active session while they may take effect, at most `fuel` of them. -/
def applyChanges (m : Moment) (id : Nat) : Nat → State → State
  | 0, s => s
  | fuel + 1, s =>
    match getSess s id with
    | none => s
    | some x =>
      match nextChange s x with
      | none => s
      | some (pre, r, post) =>
        if r.hdr.opcode = 0x0107 then answer r (.ok (retireActive { x with waiting := pre ++ post } s))
        else
          let s := showRebind id (modSess id (fun x => { x with waiting := [] }) s)
          let s := answer r (applyChange m { x with waiting := [] } r s)
          let s := showRebind id (modSess id (fun x => { x with waiting := pre ++ x.waiting ++ post }) s)
          applyChanges m id fuel s

/-- A change that has waited while its session was being cast takes effect on the parked session. -/
def applyParked (id : Nat) (e : DirEntry) (r : Req) (s : State) : Reply :=
  match r.hdr.opcode with
  | 0x0105 => setParked r id s
  | 0x0106 => if (opOfReq s r).any (stopping s) then .err s St.cancelled else rebindNow r id (.parked e) s
  | 0x0108 => armNow id e.partition (r.f 8 4) s
  | 0x0600 => finSetNow r id e.tableGen s
  | _ => .err s stWrong

/-- Applies every waiting change of a parked session. -/
def parkedChanges (id : Nat) (s : State) : State :=
  match getDir s id, (getStore s id).image with
  | some e, some x =>
    if e.dstate ≠ .parked || x.waiting.isEmpty then s
    else
      let y : Session := { x with waiting := [], flags := setFlag x.flags Fl.rebind false, pendingGen := 0 }
      let s := modStore id (fun t => { t with image := some y }) s
      let pre := x.waiting.takeWhile (fun r => r.hdr.opcode ≠ 0x0107)
      let s := pre.foldl (fun s r => answer r (applyParked id ((getDir s id).getD e) r s)) s
      match x.waiting.dropWhile (fun r => r.hdr.opcode ≠ 0x0107) with
      | [] => s
      | r :: post =>
        let s := answer r (.ok (retireParked id ((getDir s id).getD e) s))
        post.foldl (fun s r => answerGone r s) s
  | _, _ => s

/-- The waiting changes of every session. -/
def settleChanges (m : Moment) (s : State) : State :=
  let act := (s.pln.slots.filter (fun e => !e.2.waiting.isEmpty)).map (fun e => (e.2.id, e.2.waiting.length))
  let s := act.foldl (fun s x => applyChanges m x.1 x.2 s) s
  (tfind s.pln.store (fun t => t.image.any (fun x => !x.waiting.isEmpty))).foldl (fun s id => parkedChanges id s) s

/-! ### Chains (R83, R366) -/

/-- Chains that are HELD for a session now in TOOLWAIT fire; those FIRING go on. -/
def settleChains (m : Moment) (s : State) : State :=
  let held := tfind s.net.chains (fun c => c.cstate = .held && (getSess s c.session).any (fun x => x.st = .toolwait))
  let s := held.foldl (fun s i => fireChain m i s) s
  (tfind s.net.chains (fun c => c.cstate = .firing)).foldl (fun s i => runChain m i 9 s) s

/-- Everything that an effect sets going. -/
def settleAll (m : Moment) (s : State) : State :=
  settleQueues (spentMsgs m (unstallAll m (pressure m (captureAll m (settleChains m (settleChanges m s))))))

/-- A command after which the device settles. -/
def runSettled (i : OpInfo) (body : Moment → Req → State → Reply) (m : Moment) (r : Req) (s : State) : State :=
  settleAll m (runCommand i body m r s)

/-! ### Commands of sessions (02, 07, 08) -/

def execSessionAdmit (m : Moment) (r : Req) (s : State) : Out := .next (runSettled opSessionAdmit bodySessionAdmit m r s)

def execSessionAppend (m : Moment) (r : Req) (s : State) : Out := .next (runSettled opSessionAppend bodySessionAppend m r s)

def execSessionAppendTokens (m : Moment) (r : Req) (s : State) : Out :=
  .next (runSettled opSessionAppendTokens bodySessionAppendTokens m r s)

def execSessionStop (m : Moment) (r : Req) (s : State) : Out := .next (runSettled opSessionStop bodySessionStop m r s)

def execSessionSet (m : Moment) (r : Req) (s : State) : Out := .next (runSettled opSessionSet bodySessionSet m r s)

def execSessionRebind (m : Moment) (r : Req) (s : State) : Out := .next (runSettled opSessionRebind bodySessionRebind m r s)

def execSessionRetire (m : Moment) (r : Req) (s : State) : Out := .next (runSettled opSessionRetire bodySessionRetire m r s)

def execSessionArm (m : Moment) (r : Req) (s : State) : Out := .next (runSettled opSessionArm bodySessionArm m r s)

def execPlnConfig (m : Moment) (r : Req) (s : State) : Out := .next (runSettled opPlnConfig bodyPlnConfig m r s)

def execFinSet (m : Moment) (r : Req) (s : State) : Out := .next (runSettled opFinSet bodyFinSet m r s)

/-- SHEAR_LANE_START: a waiting append takes a free lane, its partition chosen by the fair-share tags (R234, R283). One that a
lane cuts within 1 ms runs to its end at once. -/
def shearLaneStart (m : Moment) (s : State) : State :=
  let free := (List.range 16).filter (fun n => !thas s.txt.lanes n)
  let ready := laneReady s
  if !groupOpen s 0x38 then s
  else
  match pick m 0 free, nextPartition .lane (laneParts s) (wakeParts .lane (laneParts s) s) with
  | some lane, some p =>
    match ready.find? (fun j => j.partition = p) with
    | none => s
    | some j =>
      let n := j.req.f 0x0C 4
      let s := phaseOp j.op 1 true (dropJob j.op (wakeParts .lane (laneParts s) s))
      if n ≤ laneShort then answer j.req (runAppend m j.req (chargeLane p n s))
      else chargeLane p n { s with txt := { s.txt with lanes := tset s.txt.lanes lane j } }
  | _, _ => s

def execShearLaneStart (m : Moment) (s : State) : Out := .next (settleAll m (shearLaneStart m (s.at m)))

/-- AUTO_CAST_TIMER: a session still in TOOLWAIT is cast (R82). -/
def autoCast (m : Moment) (id : Nat) (s : State) : State :=
  match getSess s id with
  | none => s
  | some x =>
    if x.st = .toolwait && x.autoCastCt ≠ 0 && decide (x.autoCastCt ≤ s.ct) && !isShadow s id then
      requestCast m false { x with autoCastCt := 0 } (modSess id (fun x => { x with autoCastCt := 0 }) s)
    else s

def execAutoCastTimer (m : Moment) (session : Nat) (s : State) : Out := .next (settleAll m (autoCast m session (s.at m)))

def execRaiseWaitDequeue (m : Moment) (s : State) : Out := .next (settleAll m (dequeueRaise m (s.at m)))

/-! ### The Planisher and the model slots (05, 09) -/

def execClassSet (m : Moment) (r : Req) (s : State) : Out := .next (runSettled opClassSet bodyClassSet m r s)

def execPartitionShare (m : Moment) (r : Req) (s : State) : Out := .next (runSettled opPartitionShare bodyPartitionShare m r s)

def execStreamRingSet (m : Moment) (r : Req) (s : State) : Out := .next (runSettled opStreamRingSet bodyStreamRingSet m r s)

def execModelLoadComplete (m : Moment) (slot : Nat) (copyOk : Bool) (s : State) : Out :=
  .next (settleAll m (modelLoadComplete slot copyOk (s.at m)))

def execStreamRecordWrite (m : Moment) (partition ring : Nat) (s : State) : Out :=
  .next (settleAll m (streamRecordWrite partition ring (s.at m)))

def execStreamConsRead (m : Moment) (partition ring : Nat) (s : State) : Out :=
  .next (settleAll m (streamConsRead partition ring (s.at m)))

/-! ### The Foundry (03) -/

def execFdyCast (m : Moment) (r : Req) (s : State) : Out := .next (runSettled opFdyCast bodyFdyCast m r s)

def execFdyRaise (m : Moment) (r : Req) (s : State) : Out := .next (runSettled opFdyRaise bodyFdyRaise m r s)

def execFdyMigrate (m : Moment) (r : Req) (s : State) : Out := .next (runSettled opFdyMigrate bodyFdyMigrate m r s)

def execDescriptorIssue (m : Moment) (engine : Nat) (s : State) : Out := .next (settleAll m (descriptorIssue engine (s.at m)))

def execDescriptorComplete (m : Moment) (desc : Nat) (result : DescResult) (s : State) : Out :=
  .next (settleAll m (descriptorComplete m desc result (s.at m)))

def execPullTimeoutExpiry (m : Moment) (desc : Nat) (s : State) : Out := .next (settleAll m (pullTimeout desc (s.at m)))

def execMigrateArrive (m : Moment) (link tag : Nat) (x : MigrateIn) (s : State) : Out :=
  .next (settleAll m (migrateArrive m link tag x (swlGot link 2 (x.pages.map (fun e => e.2.length)).sum (swlGot link 0 0 (s.at m)))))

def execMigrateConfirm (m : Moment) (fop : Nat) (ok : Bool) (slot status : Nat) (s : State) : Out :=
  let s := s.at m
  let s := match getFop s fop with
    | some f => if f.kind = .migrate then swlGot (linkTo s f.chip) 1 0 s else s
    | none => s
  .next (settleAll m (migrateConfirm fop ok slot status s))

def execExportCommit (m : Moment) (x : ExportIn) (s : State) : Out := .next (settleAll m (exportCommit m x (s.at m)))

/-- EXPORT_RETIRED: the importing node has retired the session over the connection by which it left (R122, R369). -/
def execExportRetired (m : Moment) (session peer : Nat) (s : State) : Out :=
  .next (settleAll m (exportRetired session peer (s.at m)))

/-! ### The network (12) -/

def execGxDataReceive (m : Moment) (p : Pkt) (s : State) : Out := .next (settleAll m (gxReceive m p (s.at m)))

def execGxSealReceive (m : Moment) (p : Pkt) (s : State) : Out := .next (settleAll m (gxReceive m p (s.at m)))

def execGxReadReceive (m : Moment) (p : Pkt) (s : State) : Out := .next (settleAll m (gxReceive m p (s.at m)))

def execGxAckReceive (m : Moment) (p : Pkt) (s : State) : Out := .next (settleAll m (gxAck m p (s.at m)))

def execRcPacketReceive (m : Moment) (p : Pkt) (s : State) : Out := .next (settleAll m (rcReceive m p (s.at m)))

def execSealTimeout (m : Moment) (qp msg : Nat) (s : State) : Out := .next (settleAll m (sealTimeout m qp msg (s.at m)))

def execNotResidentStallExpiry (m : Moment) (qp : Nat) (s : State) : Out := .next (settleAll m (stallExpiry m qp (s.at m)))

def execNvmeDisconnect (m : Moment) (r : Req) (s : State) : Out := .next (runSettled opNvmeDisconnect bodyNvmeDisconnect m r s)

def execNvmeCompletionReceive (m : Moment) (cmd : Nat) (ok : Bool) (data : Bytes) (s : State) : Out :=
  .next (settleAll m (nvmeDone m cmd ok data (s.at m)))

/-- NVME_KEEPALIVE_LAPSE: the controller is disconnected (R350). -/
def execNvmeKeepaliveLapse (m : Moment) (ctrl : Nat) (s : State) : Out := .next (settleAll m (nvmeLost m ctrl 1 (s.at m)))

end Sys2Proof.Machine
end

