-- ==== Sys2Proof/Machine/Grants.lean ====
section
/-! DEFINITION. The grant test, batches and grants (R71 to R75, R79, 02; R119, 03; R135 to R141, 04; R175, R176, 05; R210 to R212, 06;
R260, 08; R278 to R282, R297, 09; R396, R398, 13). -/

namespace Sys2Proof.Machine

/-! ### The grant test (R71, R282, R297) -/

/-- A session that meets every condition of R71 but perhaps the credit and the fair-share conditions. -/
structure Tested where
  want : Want
  credit : Bool
  fair : Bool
  deriving DecidableEq, Repr

/-- Tests one session: its credit is brought up to date (R278), a stale page faults it, which is an uncorrectable error of its context
(R135, R503), and the pulls that it needs start (R212). -/
def testSession (m : Moment) (id : Nat) (s : State) : State :=
  let s := updateCredit id s
  match getSess s id with
  | none => s
  | some x =>
    match gateOf s x with
    | .stale e =>
      let s := ueLog 0 id x.partition { tier := e.tier, chan := addrChan e.tier e.addr, addr := e.addr } s
      faultSession id 0x0F03 (bump .frmStale x.partition 1 s)
    | .pull keys =>
      (match startPull m x keys s with
      | .ok s => s
      | .error l => pageWait id 1 (getStore s id).pages.pageClass (starve l s))
    | .power g => powerWait g s
    | _ => s

/-- The result of a session's test. -/
def tested (s : State) (x : Session) : Option Tested :=
  match gateOf s x with
  | .opened w =>
    let shadow := isShadow s x.id
    some { want := w, credit := shadow || creditOk x w, fair := shadow || fairOk s x }
  | _ => none

/-- Tests every session of the chip. -/
def testAll (m : Moment) (s : State) : List Tested × State :=
  let s := settleQueues ((s.pln.slots.map (·.2.id)).foldl (fun s id => testSession m id s) (settleQueues s))
  (s.pln.slots.filterMap (fun e => tested s e.2), s)

/-- Tells the secondary of a stop that no commit gives it, as SESSION_STOP (R395; log entry 13). -/
def twinStop (x : Session) (s : State) : State :=
  mirror 0x0103 { src := .mirrored, hdr := { opcode := 0x0103, partition := x.partition, payloadLen := 8 }, payload := u64 x.id } [] s

/-- Stops a session at its grant (R71, R79, R86). -/
def stopAtGrant (id reason : Nat) (s : State) : State :=
  match getSess s id with
  | none => s
  | some x => twinStop x (stopSession id reason [] false 0 0 s)

/-- Why an eligible session is stopped instead of granted: its `stop_ct` has come, or its context is full. -/
def grantStop (s : State) (w : Want) : Option Nat :=
  match getSess s w.id with
  | none => none
  | some x =>
    if w.rebuild || isShadow s w.id then none
    else if x.stopCt ≠ 0 && decide (x.stopCt ≤ s.ct) then some 5
    else if w.chunk = 0 && decide (x.maxLength ≤ x.length) then some 4
    else none

/-! ### Filling a batch (R72 to R74, R210, R211) -/

/-- A place in the order of R72. -/
def orderKey (s : State) (id : Nat) : Nat × Nat × Nat :=
  match getSess s id with
  | some x => (x.deadline, x.priority, id)
  | none => (never, 8, id)

/-- Lexicographic order of arbitration keys. -/
def keyLe (a b : Nat × Nat × Nat) : Bool :=
  decide (a.1 < b.1) || (a.1 = b.1 && (decide (a.2.1 < b.2.1) || (a.2.1 = b.2.1 && decide (a.2.2 ≤ b.2.2))))

/-- What the sessions of one batch share: model slot, partition and reduction mode. -/
def batchOf (s : State) (id : Nat) : Nat × Nat × Bool :=
  match getSess s id with
  | some x => (x.modelSlot, x.partition, sflag x.flags Fl.castMode)
  | none => (64, 16, false)

/-- Whether every tile of a slot's span has a free queue entry (R176). -/
def spanFree (s : State) (slot : Nat) : Bool :=
  (setBits 16 (getModel s slot).spanMask).all (fun g =>
    decide ((s.tile.invs.filter (fun e => bit e.2.spanMask g)).length < 8))

/-- A batch being filled. -/
structure Fill where
  items : List Want := []
  toks  : Nat := 0
  pack  : Nat × Nat := (0, 0)
  /-- A cap has been reached. -/
  full  : Bool := false
  short : Nat := 0
  deriving DecidableEq, Repr

/-- The caps of one batch: lines of a round, rounds, tokens and places. -/
structure Caps where
  lines  : Nat
  rounds : Nat
  toks   : Nat
  places : Nat

/-- Items in the order of R72. -/
def batchOrder (s : State) (l : List Want) : List Want := sortBy (fun a b => keyLe (orderKey s a.id) (orderKey s b.id)) l

/-- The packing of the rows of items, in the order of R72 (R201). -/
def packItems (s : State) (c : Caps) (l : List Want) : Nat × Nat :=
  (batchOrder s l).foldl (fun a w =>
    match getSess s w.id with
    | some x => packLines c.lines (itemLines x (getModel s x.modelSlot).hdr.qHeads w.start w.count) a
    | none => a) (0, 0)

/-- The packing of a batch's rows with `n` positions of a further item. -/
def packItem (s : State) (c : Caps) (f : Fill) (w : Want) (n : Nat) : Nat × Nat :=
  packItems s c (f.items ++ (if n = 0 then [] else [if w.chunk = 0 then w else { w with chunk := n }]))

/-- Adds an item. -/
def Fill.put (f : Fill) (w : Want) (pack : Nat × Nat) : Fill :=
  { f with items := f.items ++ [w], toks := f.toks + w.count, pack }

/-- Places decode steps, and the exact items of twin grants. -/
def fillSteps (s : State) (c : Caps) : List Want → Fill → Fill
  | [], f => f
  | w :: ws, f =>
    if c.places ≤ f.items.length then { f with full := true }
    else if c.toks < f.toks + w.count then fillSteps s c ws { f with full := true }
    else
      let p := packItem s c f w w.count
      let big := decide (c.rounds < roundsUsed p)
      if f.items ≠ [] && big then { f with full := true } else fillSteps s c ws { f.put w p with full := f.full || big }

/-- The largest multiple of 256, at most `k` times 256, at which an item fits its rounds. -/
def fitChunk (s : State) (c : Caps) (f : Fill) (w : Want) : Nat → Nat
  | 0 => 0
  | k + 1 => if roundsUsed (packItem s c f w (256 * (k + 1))) ≤ c.rounds then 256 * (k + 1) else fitChunk s c f w k

/-- Places prefill and rebuild chunks, shortened where they must be. -/
def fillChunks (s : State) (c : Caps) : List Want → Fill → Fill
  | [], f => f
  | w :: ws, f =>
    if c.places ≤ f.items.length then { f with full := true }
    else
      let left := c.toks - f.toks
      let n := if w.chunk ≤ left then w.chunk else left / 256 * 256
      let fits := roundsUsed (packItem s c f w n) ≤ c.rounds
      let k := if fits then n else fitChunk s c f w (n / 256)
      let k := if f.items = [] && k = 0 then min n 256 else k
      let g : Fill := { f with short := f.short + b2n (k ≠ 0 && decide (k < n)), full := f.full || decide (n < w.chunk) || !fits }
      if k = 0 then fillChunks s c ws { g with full := true }
      else fillChunks s c ws (g.put { w with chunk := k } (packItem s c f w k))

/-- The caps of a slot's batches. -/
def capsOf (s : State) (slot : Nat) : Caps :=
  let x := getModel s slot
  { lines := 8 * popcount 16 x.spanMask * 4096, rounds := s.tile.attRounds, toks := s.pln.dispatch, places := min 1024 x.hdr.batchLimit }

/-- Fills a batch from eligible items in the order of R72; `chunks` is how many chunks of the slot and partition are eligible. -/
def fillBatch (s : State) (slot : Nat) (l : List Want) (chunks : Nat) : Fill :=
  let c := capsOf s slot
  let held := min chunks (min 8 (c.places / 2))
  let dec := if chunks = 0 then c else { c with toks := c.toks - s.pln.reserve, places := c.places - held }
  let f := fillSteps s dec (l.filter (fun w => w.chunk = 0)) {}
  let f := fillChunks s c (l.filter (fun w => w.chunk ≠ 0)) f
  { f with full := f.full || decide (c.places ≤ f.items.length) || decide (c.toks ≤ f.toks) }

/-- Fills a batch with the items of twin grants, in their order (R396). -/
def fillTwin (s : State) (slot : Nat) (l : List Want) : Fill := { fillSteps s (capsOf s slot) l {} with full := true }

/-! ### Grants (R75, R135 to R141) -/

/-- Blocks that an item's committed positions and its chunk's positions fall into. -/
def writtenBlocks (x : Session) (w : Want) : List Nat :=
  if w.rebuild then []
  else
    let n := w.count + b2n (lastChunk x w)
    ((List.range ((w.start + n - 1) / 256 + 1)).drop (w.start / 256)).filter (· < 4096)

/-- Copies a page that another holder holds, or reserves a new page's frame (R138, R141). -/
def takePage (m : Moment) (k : Nat) (x : Session) (g b : Nat) (s : State) : Except Lack State :=
  let e := getPte s x.id g b
  if e.valid then (if e.cow then cowCopy m x.id g b s else .ok s)
  else
    match takeSegs m x.id x.partition b s with
    | .error l => .error l
    | .ok s =>
      let pool := newPagePool s x.partition (getStore s x.id).pages.pageClass
      match grabFrame m k pool hEntry x.id s with
      | .error l => .error l
      | .ok (a, s) => .ok (setPte x.id g b (pteOf s pool.tier 0 a) s)

/-- Takes every page that an item writes, or none of them. -/
def takePages (m : Moment) (x : Session) (w : Want) (s : State) : Except Lack State :=
  let lg := (getStore s x.id).pages.lgCount
  (((List.range lg).flatMap (fun g => (writtenBlocks x w).map (fun b => (g, b)))).zipIdx).foldl (fun acc e =>
    acc.bind (takePage m e.2 x e.1.1 e.1.2)) (.ok s)

/-- The primary tells the secondary of a grant to a twinned session, and begins to compare its step (R396, R398). A step that
is granted again after an invocation fault is one that the secondary has been told of. -/
def twinGranted (x : Session) (w : Want) (s : State) : State :=
  match lockedPair s x.partition with
  | some p =>
    if p.secondary || w.rebuild then s
    else
      match s.twn.steps.find? (fun e => e.2.session = x.id && e.2.base = x.length && !e.2.committed) with
      | some (n, t) => { s with twn := { s.twn with steps := tset s.twn.steps n { t with own := [] } } }
      | none =>
      let s := sendSwl (.swilan (linkTo s p.peer) 3 12 x.id [x.length, w.chunk] []) s
      { s with twn := { s.twn with
        nextStep := s.twn.nextStep + 1
        steps := tset s.twn.steps s.twn.nextStep { session := x.id, base := x.length } } }
  | none => s

/-- A session's grant: frames and journal first, then what a grant counts, charges and reserves. None when the session waits. -/
def grantItem (m : Moment) (inv : Nat) (w : Want) (s : State) : Option InvRow × State :=
  match getSess s w.id with
  | none => (none, s)
  | some x =>
    match takePages m x w s with
    | .error l =>
      let pool := newPagePool s x.partition (getStore s x.id).pages.pageClass
      (none, pageWait x.id pool.tier pool.pclass (starve l s))
    | .ok s' =>
      match growJournal m x.id x.partition ((getStore s' x.id).journal.length + mayCommit x w) s' with
      | .error l => (none, stopAtGrant x.id 0x0A (starve l s))
      | .ok s =>
        let shadow := isShadow s x.id
        let (spill, s) := if shadow || mayCommit x w = 0 then (0, s) else reserveRecs x w.drafts s
        let f : InFlight := { inv, chunk := w.chunk, drafts := w.drafts, base := x.length, rebuild := w.rebuild, spill }
        let s := if shadow then s else chargeGrant x.id w.count (gaugeGrant x s)
        let s := twinGranted x w s
        let s := if shadow && !w.rebuild then
            { s with twn := { s.twn with grants := s.twn.grants.eraseP (fun g => g.1 = x.id) } }
          else s
        let s := modSess x.id (fun x => { x with
          inflight := some f, stepCount := x.stepCount + 1, specLength := w.drafts, pageWait := false }) s
        let s := countGrant x (bump .plnSteps x.partition 1 s)
        let s := if lastChunk x w || w.chunk = 0 then formNext x.id s else s
        (some { session := x.id, slot := (slotOf s x.id).getD 0, chunk := w.chunk, drafts := w.drafts, base := x.length
                start := w.start, rebuild := w.rebuild }, s)

/-- Grants the items of a batch in order. -/
def grantItems (m : Moment) (inv : Nat) (l : List Want) (s : State) : List InvRow × State :=
  l.foldl (fun a w =>
    match grantItem m inv w a.2 with
    | (some r, s) => (a.1 ++ [r], s)
    | (none, s) => (a.1, s)) ([], s)

/-- Dispatches a filled batch as an invocation (R175, R177). -/
def dispatch (m : Moment) (b : Nat × Nat × Bool) (f : Fill) (s : State) : State :=
  let serial := s.pln.nextInv
  let key := match batchOrder s f.items with | w :: _ => orderKey s w.id | [] => (0, 0, 0)
  let order := (batchOrder s f.items).map (·.id)
  match grantItems m serial f.items s with
  | ([], s) => s
  | (granted, s) =>
    let rows := order.filterMap (fun id => granted.find? (fun r => r.session = id))
    let x := getModel s b.1
    let v : Invocation := {
      slot := b.1, partition := b.2.1, cast := b.2.2, spanMask := x.spanMask, rows, key, rounds := roundsUsed f.pack
      ctDispatch := s.ct, objs := x.objs.map (fun o => (o.tier, o.addr)) }
    let s := { s with
      pln := { s.pln with nextInv := (serial + 1) % 2 ^ 32 }
      tile := { s.tile with invs := tset s.tile.invs serial v } }
    let s := bump .attShort b.2.1 f.short s
    let s := if s.tile.attRounds < roundsUsed f.pack then bump .attOver b.2.1 1 s else s
    bump .plnBatches b.2.1 1 s

/-- Counts the grant tests of a slot and partition that fail on one condition alone (R297). -/
def countHolds (slot p : Nat) (l : List Tested) (s : State) : State :=
  let l := l.filter (fun t => (batchOf s t.want.id).1 = slot && (batchOf s t.want.id).2.1 = p
    && (getSess s t.want.id).any (fun x => x.st = .prefill || x.st = .decode))
  bump .plaFairHolds p (l.filter (fun t => t.credit && !t.fair)).length
    (bump .plaCreditHolds p (l.filter (fun t => !t.credit && t.fair)).length s)

/-- Whether a batch whose first session is `id` closes now (R74). -/
def closesNow (s : State) (id : Nat) (f : Fill) : Bool :=
  f.full || (match getSess s id with
    | some x => decide (x.readyCt + s.pln.batchWait ≤ s.ct) || decide (x.deadline < s.ct + s.pln.batchWait)
    | none => false)

/-- The shadows' next batch: the oldest twin grants, as long as one after another can be granted together (R396). -/
def twinWants (s : State) (l : List Tested) : List Want :=
  let ws := s.twn.grants.map (fun g => (l.find? (fun t => t.want.id = g.1 && !t.want.rebuild && isShadow s g.1)).map (·.want))
  let run := (ws.takeWhile (·.isSome)).filterMap id
  match run with
  | [] => []
  | w :: _ => (run.takeWhile (fun v => batchOf s v.id = batchOf s w.id)).eraseDups

/-- Forms and dispatches the next batch (R72 to R74). -/
def formBatch (m : Moment) (s : State) : State :=
  let (l, s) := testAll m s
  let stops := (l.filter (fun t => t.credit && t.fair)).filterMap (fun t => (grantStop s t.want).map (fun r => (t.want.id, r)))
  let s := stops.foldl (fun s x => stopAtGrant x.1 x.2 s) s
  let l := l.filter (fun t => !(stops.any (fun x => x.1 = t.want.id)))
  match twinWants s l with
  | w :: ws =>
    let b := batchOf s w.id
    if spanFree s b.1 then dispatch m b (fillTwin s b.1 (w :: ws)) s else s
  | [] =>
    let ok := sortBy (fun a b => keyLe (orderKey s a.id) (orderKey s b.id))
      ((l.filter (fun t => t.credit && t.fair && (t.want.rebuild || !isShadow s t.want.id))).map (·.want))
    match ok.find? (fun w => spanFree s (batchOf s w.id).1) with
    | none => s
    | some w =>
      let b := batchOf s w.id
      let chunks := (ok.filter (fun v => v.chunk ≠ 0 && (batchOf s v.id).1 = b.1 && (batchOf s v.id).2.1 = b.2.1)).length
      let f := fillBatch s b.1 (ok.filter (fun v => batchOf s v.id = b)) chunks
      if closesNow s w.id f then dispatch m b f (countHolds b.1 b.2.1 l s) else s

/-- Whether the Plinth forms batches: from boot phase 7 on, and not in SAFE (R470, R495). -/
def batching (s : State) : Bool :=
  (s.bench.devState = .operating || s.bench.devState = .frozen) && decide (7 ≤ s.bench.bootPhase) && s.err.shutdown.isNone

/-- BATCH_DISPATCH: the Plinth forms its next batch, if one closes now (R73, R74). -/
def execBatchDispatch (m : Moment) (s : State) : Out :=
  let s := s.at m
  .next (settleAll m (if batching s then formBatch m s else s))

/-- BATCH_WAIT_EXPIRY: BATCH_WAIT after its first session became eligible, a batch closes (R74). -/
def execBatchWaitExpiry (m : Moment) (s : State) : Out :=
  let s := s.at m
  .next (settleAll m (if batching s then formBatch m s else s))

end Sys2Proof.Machine
end

