-- ==== Sys2Proof/Machine/TwinSteps.lean ====
section
/-! DEFINITION. The digests of twinned steps, their comparison and the release of what they hold (R397 to R399, 13). -/

namespace Sys2Proof.Machine

/-- Layer-group code of the commit digest. -/
def commitLg : Nat := 0xFFFF

/-- Counts on a pair. -/
def modPair (p : Nat) (f : Pair → Pair) (s : State) : State := { s with twn := { s.twn with pairs := tmod s.twn.pairs p f } }

/-- Removes a step. -/
def dropStep (n : Nat) (s : State) : State := { s with twn := { s.twn with steps := tdel s.twn.steps n } }

/-- The steps of a session, oldest first. -/
def stepsOf (s : State) (id : Nat) : List (Nat × TwinStep) := s.twn.steps.filter (fun e => e.2.session = id)

/-- Releases the stream records that a step holds. -/
def releaseStep (n : Nat) (s : State) : State :=
  { s with pla := { s.pla with rings := s.pla.rings.map (fun e =>
    (e.1, { e.2 with spill := e.2.spill.map (fun r => if r.twinStep = n then { r with twinStep := 0 } else r) })) } }

/-- Both copies of a twinned session are faulted, and what is held for it is discarded (R399). -/
def twinFault (id code : Nat) (s : State) : State :=
  let s := faultSession id code (discardHeld id s)
  (stepsOf s id).foldl (fun s e => dropStep e.1 s) s

/-- The first layer group, in order, at which both digests of a step are known and differ. -/
def firstDiff (t : TwinStep) : Option (Nat × Nat × Nat) :=
  (t.own.takeWhile (fun e => thas t.peer e.1)).findSome? (fun e =>
    let d := tgetD t.peer e.1 0
    if d = e.2.1 then none else some (e.1, e.2.1, d))

/-- Compares what is known of a session's oldest step, and of those after it once it is verified, at most `fuel` of them. -/
def twinCompare (p id : Nat) : Nat → State → State
  | 0, s => s
  | fuel + 1, s =>
    match stepsOf s id with
    | [] => s
    | (n, t) :: _ =>
      match firstDiff t with
      | some (lg, own, peer) =>
        let s := twinFault id 0x0B05 s
        let s := modPair p (fun x => { x with diverged := x.diverged + 1 }) (bump .twinDiverged p 1 s)
        note 0x0B03 2 p id [t.base, lg, own, peer] s
      | none =>
        if t.committed && t.own.all (fun e => thas t.peer e.1) then
          let s := releaseStep n (dropStep n s)
          let s := { s with twn := { s.twn with holdMax := tset s.twn.holdMax p (max (tgetD s.twn.holdMax p 0) (s.ct - t.ctCommit)) } }
          let s := modPair p (fun x => { x with verified := x.verified + 1 }) (bump .twinCompared p 1 s)
          twinCompare p id fuel s
        else s

/-- A digest over a session, a base and a layer group (R397). -/
def digestOf (id base lg : Nat) (b : Bytes) : Nat := crc64xz (u64 id ++ u32 base ++ u16 lg ++ b)

/-- A digest has been formed here: the primary keeps it with its step and compares, a shadow's goes to the primary. -/
def twinFormed (id base lg digest : Nat) (s : State) : State :=
  match getSess s id with
  | none => s
  | some x =>
    match lockedPair s x.partition with
    | none => s
    | some p =>
      if p.secondary then sendSwl (.swilan (linkTo s p.peer) 3 13 id [base, lg, digest] []) s
      else
        match (stepsOf s id).find? (fun e => e.2.base = base && !e.2.committed) with
        | none => s
        | some (n, t) =>
          let t := { t with own := tset t.own lg (digest, s.ct) }
          let t := if lg = commitLg then { t with committed := true, ctCommit := s.ct } else t
          twinCompare x.partition id 64 { s with twn := { s.twn with steps := tset s.twn.steps n t } }

/-- The step of a session that is now in flight, for its records' hold; 0 when none is compared. -/
def twinStepOf (s : State) (id : Nat) : Nat := (((stepsOf s id).find? (fun e => !e.2.committed)).map (·.1)).getD 0

/-- The KV bytes that an item wrote in layer group `g`, in the order of R129. -/
def kvWritten (s : State) (h : ModelHdr) (id g start n : Nat) : Bytes :=
  ((List.range ((start + n - 1) / 256 + 1)).drop (start / 256)).flatMap (fun b =>
    let e := getPte s id g b
    (List.range h.lgLayers).flatMap (fun l => (List.range 2).flatMap (fun kv => (List.range h.kvHeads).flatMap (fun hd =>
      (((List.range n).map (start + ·)).filter (fun q => q / 256 = b)).flatMap (fun q =>
        if e.here s then devRead s e.tier (e.addr + vecOffset h l kv hd q) (vecBytes h) else zeros (vecBytes h))))))

/-- A twinned row's digest of a layer group; the values handed on are the command stream's (R397; log entry 8). -/
def rowDigest (v : Invocation) (g : Nat) (r : InvRow) (s : State) : State :=
  match getSess s r.session with
  | none => s
  | some x =>
    if r.rebuild || (lockedPair s x.partition).isNone then s
    else
      let h := (getModel s v.slot).hdr
      let handed := Config.remoteBytes s.free [5, x.id, g] (4 * h.hidden * r.count)
      let s := { s with free := s.free + 1 }
      twinFormed x.id r.base g (digestOf x.id r.base g (kvWritten s h x.id g r.start r.count ++ handed)) s

end Sys2Proof.Machine
end

