-- ==== Sys2Proof/Machine/Runs.lean ====
section
/-! DEFINITION. Invocations on the tiles: residence, layer groups and the watchdog (R175 to R182, 05; R111, 03; R212, 06). -/

namespace Sys2Proof.Machine

/-- The total order of R177: the position of the first session, then the serial. -/
def invLe (a b : Nat × Invocation) : Bool :=
  if a.2.key = b.2.key then decide (a.1 ≤ b.1) else keyLe a.2.key b.2.key

/-- Whether two invocations share a tile. -/
def meetsSpan (a b : Invocation) : Bool := (setBits 16 a.spanMask).any (fun g => bit b.spanMask g)

/-- Context slots in use on the tiles of a granule, of 4 (R176). -/
def slotsUsed (s : State) (g : Nat) : Nat :=
  ((s.tile.invs.filter (fun e => e.2.resident && bit e.2.spanMask g)).map (fun e => (getModel s e.2.slot).hdr.ctxSlots)).sum

/-- The input tokens of an item: those of a chunk's positions, or the last committed one and the drafts proposed after it (R176;
DEDUCED, log entry 8). -/
def rowTokens (s : State) (r : InvRow) : List Nat :=
  let t := getStore s r.session
  if r.chunk ≠ 0 then ((t.journal.drop r.start).take r.chunk).map (· % 2 ^ 20)
  else (t.journal.getLast?.toList.map (· % 2 ^ 20)) ++ (match getSess s r.session with
    | some x => propose (gramOf s x) t.samp (t.drafts.take r.drafts) (gstateOf s x)
    | none => [])

/-- INVOCATION_RESIDENT: a queued invocation takes its context slots, in the order of the arbitration key, and loads the model's per-tile
constants and its rows' inputs into them (R176). -/
def invResident (serial : Nat) (s : State) : State :=
  match tget s.tile.invs serial with
  | none => s
  | some v =>
    let first := s.tile.invs.all (fun e => e.1 = serial || e.2.resident || !meetsSpan e.2 v || invLe (serial, v) e)
    let room := (setBits 16 v.spanMask).all (fun g => decide (slotsUsed s g + (getModel s v.slot).hdr.ctxSlots ≤ 4))
    if v.resident || !first || !room then s
    else
      let h := (getModel s v.slot).hdr
      { s with tile := { s.tile with invs := tset s.tile.invs serial { v with
          resident := true, consts := fit h.constBytes (Config.tileConstants h.digest h.constBytes)
          inputs := v.rows.map (fun r => (r.session, rowTokens s r)) } } }

def execInvocationResident (m : Moment) (serial : Nat) (s : State) : Out := .next (invResident serial (s.at m))

/-- Whether every page of an invocation's next layer group is resident (R111, R177, R212). -/
def invReady (s : State) (v : Invocation) : Bool :=
  (v.rows.filter (fun r => !r.masked)).all (fun r =>
    match getSess s r.session with
    | none => true
    | some x => (neededBlocks x r.start r.count).all (fun b =>
        let e := getPte s x.id v.lg b
        !e.valid || e.resident || (r.rebuild && (lostPte s x.id v.lg b).isSome)))

/-- Counts a wait for paced pages, once for each layer group of an invocation (R111). -/
def paceStall (serial : Nat) (v : Invocation) (s : State) : State :=
  if v.stalled then s else bump .fdyPaceStalls v.partition 1 (modInv serial (fun v => { v with stalled := true }) s)

/-- Bytes of the weight objects that a layer group of an invocation streams: each once, whatever the batch (R178). -/
def groupWeights (s : State) (serial lg : Nat) : Bytes :=
  match tget s.tile.invs serial with
  | none => []
  | some v =>
    let x := getModel s v.slot
    (Config.groupObjects x.hdr.digest lg).flatMap (fun i =>
      match v.objs[i]?, x.objs[i]? with
      | some a, some o => devRead s a.1 a.2 o.bytes
      | _, _ => [])

/-- What a half of the weight stream, or a free plate region, holds (R160, R178). -/
def WeightBuf.bytes (s : State) (b : WeightBuf) : Bytes := slice (groupWeights s b.serial b.lg) (2097152 * b.piece) 2097152

/-- The first weights of an invocation's next layer group are in the weight stream of its span's tiles: the two halves hold its first
two pieces, and the rest follow into them in turn while it runs (R160, R178). -/
def streamFirst (serial : Nat) (v : Invocation) (s : State) : State :=
  { s with tile := { s.tile with stream := (setBits 16 v.spanMask).foldl (fun t g =>
      tset t g [⟨serial, v.lg, 0⟩, ⟨serial, v.lg, 1⟩]) s.tile.stream } }

/-- Keys of the frames that a layer group of an invocation reads and writes (R213). -/
def groupReads (s : State) (v : Invocation) : List Nat :=
  ((v.rows.filter (fun r => !r.masked)).flatMap (fun r =>
    match getSess s r.session with
    | none => []
    | some x => ((neededBlocks x r.start r.count).map (livePte s x.id v.lg)).filter (·.here s))).map (fun e => frameKey e.tier e.addr)

/-- Runs one layer group of an invocation on its span: its operations as the command stream hands them over, and its attention. -/
def runGroup (serial : Nat) (v : Invocation) (att : List AttIn) (ops : List LayerOp) (s : State) : State :=
  let reads := groupReads s v
  let s := attGroup serial v att (streamFirst serial v s)
  let s := ops.foldl (fun s o => layerOp serial v o s) s
  let s := (v.rows.filter (fun r => !r.masked)).foldl (fun s r => rowDigest v v.lg r s) s
  modInv serial (fun w => { w with lg := v.lg + 1, running := some s.ct, stalled := false, reads }) s

/-- A boundary of a tile: the layer group that ran there has ended, and frames released while it read them return (R213). -/
def tileBoundary (tile : Nat) (s : State) : State :=
  lateFrames { s with tile := { s.tile with
    invs := s.tile.invs.map (fun (e : Nat × Invocation) =>
      if bit e.2.spanMask (tile / 8) then (e.1, { e.2 with running := none, reads := [] }) else e) } }

/-- The resident invocations of a tile that have a layer group to run, in the order of R177. -/
def tileQueue (s : State) (tile : Nat) : List (Nat × Invocation) :=
  sortBy invLe (s.tile.invs.filter (fun e =>
    bit e.2.spanMask (tile / 8) && e.2.resident && decide (e.2.lg < (getModel s e.2.slot).hdr.lgCount)))

/-- Whether the first weights of the `i`-th invocation of a tile's queue have arrived, which is a matter of timing: the moment tells,
by a choice of 0 (R177; log entry 1). -/
def weightsIn (m : Moment) (i : Nat) : Bool := m.choice.getD i 0 = 0

/-- An image's fault that a layer group raises: DESC_INVALID or BOUNDS as the command stream has it, DESC_INVALID for operands that
no operation pairs (R167, R179). -/
def imageFault (ops : List LayerOp) (fault : Option Nat) : Option Nat :=
  match fault with
  | some k => if k = 4 || k = 5 then some k else none
  | none => if ops.all (fun o => opOk o.op) then none else some 4

/-- The first ready invocation of a tile's queue runs, once no tile of its span is busy; of those before it, some wait for pages and
some for their first weights (R177). -/
def startGroup (m : Moment) (tile : Nat) (att : List AttIn) (ops : List LayerOp) (fault : Option Nat) (s : State) : State :=
  let cand := tileQueue s tile
  let waits := cand.zipIdx.takeWhile (fun e => !(invReady s e.1.2 && weightsIn m e.2))
  let s := (waits.filter (fun e => !invReady s e.1.2)).foldl (fun s e => paceStall e.1.1 e.1.2 s) s
  match cand.drop waits.length with
  | [] => s
  | (serial, v) :: _ =>
    if s.tile.invs.any (fun e => e.2.running.isSome && meetsSpan e.2 v) then s
    else
      match imageFault ops fault with
      | some k => invFault serial k tile s
      | none => runGroup serial v att ops s

/-- LAYER_GROUP_START: at a boundary of a tile, the layer group that runs there has ended, and the ready resident invocation
with the lowest key is taken. `fault` is an image's fault that the layer group raises: DESC_INVALID or BOUNDS (R179). -/
def layerGroupStart (m : Moment) (tile : Nat) (att : List AttIn) (ops : List LayerOp) (fault : Option Nat) (s : State) : State :=
  if tile < tileCount s then startGroup m tile att ops fault (tileBoundary tile s) else s

def execLayerGroupStart (m : Moment) (tile : Nat) (att : List AttIn) (ops : List LayerOp) (fault : Option Nat) (s : State) : Out :=
  .next (settleAll m (layerGroupStart m tile att ops fault (s.at m)))

/-- TILE_WATCHDOG_EXPIRY: a layer group that has run for more than 100 ms tears its invocation down (R179, R181). -/
def tileWatchdog (serial : Nat) (s : State) : State :=
  match tget s.tile.invs serial with
  | none => s
  | some v =>
    match v.running with
    | some t => if t + 100000000 < s.ct then invFault serial 6 (((setBits 16 v.spanMask).headD 0) * 8) s else s
    | none => s

def execTileWatchdogExpiry (m : Moment) (serial : Nat) (s : State) : Out := .next (settleAll m (tileWatchdog serial (s.at m)))

end Sys2Proof.Machine
end

