-- ==== Sys2Proof/Machine/Commit.lean ====
section
/-! DEFINITION. The end of steps and chunks: sampling, commit, rendering and stop tests (R64, R77, R80, 02; R119, 03;
R236, R264, 07, 08; R256 to R262, 08; R286, R287, 09; R305, R306, 10). -/

namespace Sys2Proof.Machine

/-! ### Logits of a row -/

/-- Logits of `n` positions; free values where the operand gives none (log entry 8). -/
def rowLogits (s : State) (r : RowIn) (n vocab : Nat) : List (List F32) :=
  (List.range n).map (fun i => r.logits.getD i
    ((List.range vocab).map (fun t => BitVec.ofNat 32 (leVal (slice (Config.remoteBytes s.free [2, r.session, i] (4 * vocab)) (4 * t) 4)))))

/-- NAN_LOGITS, at most once per 1 ms of ct (R256, R267). -/
def noteNan (x : Session) (pos n : Nat) (s : State) : State :=
  if n = 0 then s
  else
    let s := bump .finNan x.partition n s
    let total := s.txt.nanNew + n
    let due := match s.txt.nanCt with | none => true | some c => decide (c + 1000000 ≤ s.ct)
    if due then noteSess 0x0602 1 x [pos, total] { s with txt := { s.txt with nanCt := some s.ct, nanNew := 0 } }
    else { s with txt := { s.txt with nanNew := total } }

/-! ### One token (R77, R80, R264) -/

/-- ORIGIN codes of tokens that a step commits (R78). -/
def originSampled : Nat := 1
def originForced : Nat := 3

/-- A token that a step commits. -/
structure Tok where
  tok    : Nat
  /-- An accepted draft. -/
  draft  : Bool := false
  /-- The state to enter, of a forced escape token. -/
  forced : Option Nat := none
  deriving DecidableEq, Repr

/-- Steps 1 and 2 of R77: the journal record and the position, whose KV state is then written (R58; log entry 56). -/
def commitPos (id : Nat) (t : Tok) (s : State) : State :=
  let o := if t.forced.isSome then originForced else originSampled
  modSess id (fun x => { x with length := x.length + 1, newTokens := x.newTokens + 1, prefillPos := x.length + 1 })
    (modStore id (fun y => { y with journal := y.journal ++ [journalRec o t.tok] }) s)

/-- The grammar after a token, and whether it ends a tool call (R251, R262). -/
def commitGrammar (x : Session) (t : Tok) (s : State) : Bool × State :=
  match t.forced with
  | some st => (false, setGstate x.id { state := st, stack := [] } s)
  | none =>
    let (g, tool) := (gramOf s x).step (gstateOf s x) t.tok
    (tool, setGstate x.id g s)

/-- Step 4 of R77. A shadow holds no credit, and its tokens are counted as the tokens without credit are (R394). So is the first token
of a turn that finds less than 1,000 credit, so that the ledger and the entry keep the same credit (R13, R305; DESIGN CHOICE, log
entry 56). -/
def commitCharge (x : Session) (t : Tok) (s : State) : State :=
  if t.forced.isSome || isShadow s x.id || decide (((getSess s x.id).map (·.credit)).getD 0 < 1000) then post [⟨Lg.token, x.cls, [(1, 1)]⟩] 1 x.id s
  else
    post [⟨Lg.credit, x.cls, [(4, 1000), (0, -1000)]⟩, ⟨Lg.token, x.cls, [(0, 1)]⟩] 1 x.id
      (modSess x.id (fun x => { x with credit := x.credit - 1000 }) s)

/-- The stop that a committed token meets (R80). `x` is the session after the commit. -/
def stopFor (x : Session) (tool isStop matched : Bool) : Option Nat :=
  if tool then some 6
  else if isStop then some 1
  else if matched then some 2
  else if x.maxNew ≠ 0 && decide (x.maxNew ≤ x.newTokens) then some 3
  else if x.maxLength ≤ x.length then some 4
  else none

/-- Commits one token: the bytes it delivers and the stop it meets. -/
def commitTok (id : Nat) (t : Tok) (s : State) : Bytes × Option Nat × State :=
  match getSess s id with
  | none => ([], none, s)
  | some x =>
    let s := commitPos id t s
    let (tool, s) := commitGrammar x t s
    let ss := stopSetOf s x
    let isStop := ss.tokens.contains t.tok
    let b := if isStop && !tool && !ss.stream then [] else Tb.detok (genImage s x.tableGen) t.tok
    let s := bumpFree .shrMisses x.partition 1 s
    let so := solder ss x.held (getStore s id).text.stopHold b
    let p := x.partition
    let s := bump .sldTokens p 1 (bump .sldReplaced p so.replaced (bump .sldMatches p (b2n so.matched) s))
    let s := modStore id (fun y => { y with text := { y.text with stopHold := so.hold } })
      (modSess id (fun x => { x with held := so.held }) s)
    let s := commitCharge x t s
    let s := modSess id (fun y => { y with ctLast := s.ct, ctFirst := if x.newTokens = 0 then s.ct else y.ctFirst }) s
    (so.out, (getSess s id).bind (fun x => stopFor x tool isStop so.matched), s)

/-- What a step's tokens have done so far. -/
structure Done where
  st     : State
  bytes  : Bytes := []
  stop   : Option Nat := none
  count  : Nat := 0
  sampled : Nat := 0
  drafts : Nat := 0

/-- Commits tokens in order up to the first stop (R80). -/
def commitToks (id : Nat) : List Tok → Done → Done
  | [], a => a
  | t :: ts, a =>
    let (b, stop, s) := commitTok id t a.st
    let a := { a with st := s, bytes := a.bytes ++ b, stop, count := a.count + 1
                      sampled := a.sampled + b2n t.forced.isNone, drafts := a.drafts + b2n t.draft }
    if stop.isSome then a else commitToks id ts a

/-! ### One step -/

/-- Drafts proposed, accepted and rejected (R261, R306). -/
def postDrafts (x : Session) (d a : Nat) (s : State) : State :=
  if d = 0 then s
  else
    let s := bump .finProposed x.partition d (bump .finAccepted x.partition a s)
    post [⟨Lg.token, x.cls, [(3, (d : Int)), (4, (a : Int)), (5, (d : Int) - a)]⟩] 1 x.id s

/-- Releases the entries of blocks that hold no committed position (R131). -/
def trimPages (id : Nat) (s : State) : State :=
  match getSess s id with
  | none => s
  | some x =>
    let n := ceilDiv x.length 256
    let out := (getStore s id).pages.ptes.filter (fun e => decide (n ≤ e.1 % 4096))
    let s := out.foldl (fun s e => dropPte e.2 id s) s
    if out.isEmpty then s
    else modStore id (fun t => { t with pages := { t.pages with ptes := t.pages.ptes.filter (fun e => decide (e.1 % 4096 < n)) } }) s

/-- Deadline and measures of a step that committed `k` sampled tokens (R76, R287). `x` is the session before the step, and
`before` tells that the turn has committed a sampled token already. -/
def measureStep (x : Session) (before : Bool) (k : Nat) (s : State) : State :=
  if k = 0 then s
  else
    let s := modSess x.id (fun y => { y with deadline := dueAt s.ct (getClass s x.cls).gapTarget }) s
    if isShadow s x.id then s
    else
      let s := if before then s else (match getSess s x.id with | some y => gaugeTtft { y with turnDeadline := x.turnDeadline } s | none => s)
      if x.newTokens = 0 then s else gaugeGap x.cls x.ctLast k s

/-- What a step's rows choose, with the counts of R266, those of its drafts' candidate sets among them (R255, R256, R260; log entry
52). -/
def chooseToks (x : Session) (base d : Nat) (row : RowIn) (s : State) : Chosen × State :=
  let g := gramOf s x
  let t := getStore s x.id
  let ds := (propose g t.samp (t.drafts.take d) (gstateOf s x)).take d
  let c := acceptRows g t.samp x.rngSeed base ds (rowLogits s row (1 + d) (getModel s x.modelSlot).hdr.vocab) x.length true (gstateOf s x) {}
  let k := draftSets g t.samp (t.drafts.take d) (gstateOf s x)
  let p := x.partition
  -- the first set was formed before the step; of the others, a row and the draft tested in it share one
  let s := bumpFree .armWaits p c.rows (formSets x (max k.length c.rows - 1) { s with free := s.free + 1 + d })
  let s := bump .finInf p (c.infs + (k.filter (·.infs)).length) (bump .finSamples p c.drawn (bump .finGreedy p c.greedy s))
  (c, ((k.zipIdx x.length).map (fun e => (e.2, e.1.nans)) ++ c.nans).foldl (fun s e => noteNan x e.1 e.2 s) s)

/-- The tokens that a step commits: those chosen, or the escape token where the first set was empty (R262). -/
def stepToks (x : Session) (c : Chosen) (s : State) : List Tok × State :=
  if !c.empty then (c.toks.map (fun t => { tok := t.1, draft := t.2 }), s)
  else
    match (gramOf s x).escape with
    | none => ([], s)
    | some (tok, st) =>
      ([{ tok, forced := some st }], noteSess 0x0601 0 x [x.length, tok, grammarWord x] (bump .finEscapes x.partition 1 s))

/-- Ends a session's step: samples, commits, renders, measures, and delivers or stops (R77, R80, R256 to R264, R286). -/
def endStep (id base d spill : Nat) (row : RowIn) (s : State) : State :=
  let s := updateCredit id s
  match getSess s id with
  | none => s
  | some x =>
    let twin := twinStepOf s id
    let (c, s) := chooseToks x base d row s
    let (toks, s) := stepToks x c s
    let jr := (getStore s id).journal
    let before := (jr.drop (jr.length - x.newTokens)).any (fun r => r / 2 ^ 20 = originSampled)
    let a := commitToks id toks { st := s }
    let s := measureStep x before a.sampled (postDrafts x d a.drafts a.st)
    let s := modStore id (fun t => { t with drafts := row.drafts })
      (modSess id (fun y => { y with inflight := none, specLength := 0, readyCt := s.ct, maskSet := false }) s)
    let first := !sflag x.flags Fl.firstSent
    let s := if a.count = 0 then s else modSess id (fun y => { y with flags := setFlag y.flags Fl.firstSent true }) s
    let s := match a.stop with
      | some r => stopSession id r a.bytes first spill twin s
      | none =>
        if c.empty && toks.isEmpty then stopSession id 7 [] first spill twin (bump .finExhausted x.partition 1 s)
        else formNext id (deliver id a.bytes first false spill twin s)
    let recs := (getStore s id).journal.drop jr.length
    twinFormed id base commitLg (digestOf id base commitLg (recs.flatMap u32)) (trimPages id s)

/-! ### Invocations -/

/-- The item of a session in an invocation that has run every layer group, and what it has in flight. -/
def finishedItem (s : State) (serial id : Nat) : Option (InvRow × InFlight) :=
  match tget s.tile.invs serial, (getSess s id).bind (·.inflight) with
  | some v, some f =>
    if v.lg < (getModel s v.slot).hdr.lgCount || f.inv ≠ serial then none
    else (v.rows.find? (fun r => r.session = id && !r.masked)).map (fun r => (r, f))
  | _, _ => none

/-- An item has ended. The invocation completes with its last one, and its slot's faults are forgotten (R176, R182). -/
def itemDone (serial id : Nat) (s : State) : State :=
  match tget s.tile.invs serial with
  | none => s
  | some v =>
    let rows := v.rows.filter (fun r => r.session ≠ id && !r.masked)
    if rows.isEmpty then
      bump .tileInvs v.partition 1 (setModel v.slot { getModel s v.slot with faultRun := 0 } (dropInv serial s))
    else modInv serial (fun v => { v with rows }) s

/-- An invocation whose every row has been masked completes too. -/
def invEmpty (serial : Nat) (s : State) : State :=
  match tget s.tile.invs serial with
  | some v =>
    if v.rows.all (·.masked) && decide ((getModel s v.slot).hdr.lgCount ≤ v.lg) then itemDone serial 0 s else s
  | none => s

/-- One decode step of an invocation commits. -/
def commitRow (serial : Nat) (rows : List RowIn) (r : InvRow) (s : State) : State :=
  match finishedItem s serial r.session with
  | some (r, f) =>
    if r.chunk ≠ 0 then s
    else itemDone serial r.session (endStep r.session f.base f.drafts f.spill
      ((rows.find? (fun x => x.session = r.session)).getD { session := r.session }) s)
  | none => s

/-- STEP_COMMIT: the decode steps of an invocation reach the Finisher, in the batch's order (R77). -/
def stepCommit (serial : Nat) (rows : List RowIn) (s : State) : State :=
  match tget s.tile.invs serial with
  | none => s
  | some v => invEmpty serial (v.rows.foldl (fun s r => commitRow serial rows r s) s)

def execStepCommit (m : Moment) (serial : Nat) (rows : List RowIn) (s : State) : Out :=
  .next (settleAll m (stepCommit serial rows (s.at m)))

/-! ### Chunks -/

/-- A rebuild chunk has ended. Once nothing is left to rebuild, the pages are recovered (R119, R120). -/
def endRebuild (id : Nat) (r : InvRow) (s : State) : State :=
  match getSess s id with
  | none => s
  | some x =>
    let left := match x.rebuild with
      | some (a, b) => if a = r.start then (if b ≤ a + r.chunk then none else some (a + r.chunk, b)) else some (a, b)
      | none => none
    let s := modSess id (fun x => { x with rebuild := left, inflight := none, readyCt := s.ct }) s
    if left.isSome then s
    else
      (s.fdy.ops.filter (fun e => e.2.session = id && !e.2.bad.isEmpty)).foldl (fun s e =>
        let keys := e.2.bad.filter (fun k => (tgetD e.2.tried k []).getLast? = some 3)
        pagesAdvance e.1 (keys.foldl (fun s k => pageRecovered e.1 k 3 s) s)) s

/-- A prefill chunk has ended. The last one samples the turn's first token, and the session enters DECODE (R64). -/
def endChunk (id : Nat) (r : InvRow) (f : InFlight) (row : RowIn) (s : State) : State :=
  let pos := r.start + r.chunk
  let s := modSess id (fun x => { x with prefillPos := pos }) s
  match getSess s id with
  | none => s
  | some x =>
    let base := f.base
    if pos < x.length then
      let s := modSess id (fun x => { x with inflight := none, readyCt := s.ct }) s
      twinFormed id base commitLg (digestOf id base commitLg []) s
    else
      let s := setState id .decode s
      if x.maxLength ≤ x.length then
        let s := modSess id (fun x => { x with inflight := none, readyCt := s.ct }) s
        let s := stopSession id 4 [] true f.spill (twinStepOf s id) s
        twinFormed id base commitLg (digestOf id base commitLg []) s
      else endStep id base 0 f.spill row s

/-- PREFILL_CHUNK_END (R64). -/
def prefillChunkEnd (serial : Nat) (row : RowIn) (s : State) : State :=
  match finishedItem s serial row.session with
  | some (r, f) =>
    if r.chunk = 0 then s
    else itemDone serial row.session (if r.rebuild then endRebuild row.session r s else endChunk row.session r f row s)
  | none => invEmpty serial s

def execPrefillChunkEnd (m : Moment) (serial : Nat) (row : RowIn) (s : State) : Out :=
  .next (settleAll m (prefillChunkEnd serial row (s.at m)))

end Sys2Proof.Machine
end

