-- ==== Sys2Proof/Machine/Touchstone.lean ====
section
/-! DEFINITION. Touchstone: indexes, inserts, deletes, queries over shards, bulk batches, reclaims and repair
(R317 to R334, 11). -/

namespace Sys2Proof.Machine

namespace St
def indexExists : Nat := 0x0901
def indexFull : Nat := 0x0902
def indexGone : Nat := 0x0903
def itemGone : Nat := 0x0904
def shardMissing : Nat := 0x0905
def shardLate : Nat := 0x0906
end St

/-! ### Indexes, slots and epochs -/

def getIndex (s : State) (i : Nat) : Option Index := tget s.tch.indexes i
def setIndex (i : Nat) (x : Index) (s : State) : State := { s with tch := { s.tch with indexes := tset s.tch.indexes i x } }

/-- Distance between two codes of `b` bits (R317). -/
def distance (b q x : Nat) : Nat := popcount b (q ^^^ x)

/-- Generation of a slot (R319). -/
def slotGen (x : Index) (slot : Nat) : Nat := tgetD x.gens slot 1

/-- Whether a snapshot sees an item as a candidate (R322). -/
def Item.seen (i : Item) (snap : Nat) : Bool := decide (i.ins ≤ snap) && decide (snap < i.del)

/-- The epoch of the next publication of a shard (R321). -/
def shardEpoch (s : State) (x : Index) : Nat := max (s.ct + 1) (x.floor + 1)

/-- Inserts into an ordered list. -/
def insertBy {α : Type} (le : α → α → Bool) (a : α) : List α → List α
  | [] => [a]
  | b :: t => if le a b then a :: b :: t else b :: insertBy le a t

/-- The first `k` of a list under an order. -/
def bestOf {α : Type} (le : α → α → Bool) (k : Nat) (l : List α) : List α :=
  l.foldl (fun acc a => (insertBy le a acc).take k) []

/-- Order of a shard's results: distance, then slot (R317). -/
def leSlot (a b : Nat × Nat) : Bool := decide (a.1 < b.1) || (a.1 = b.1 && decide (a.2 ≤ b.2))

/-- Order of merged results: distance, chip, slot (R317). -/
def leHit (a b : Hit) : Bool :=
  decide (a.dist < b.dist) || (a.dist = b.dist && (decide (a.chip < b.chip) || (a.chip = b.chip && decide (a.slot ≤ b.slot))))

/-! ### Searching one shard -/

/-- A graph walk in progress: candidates as distance, slot and whether it is expanded, and what it has counted (R327). -/
structure Walk where
  cand      : List ((Nat × Nat) × Bool)
  visited   : List Nat
  dangling  : Nat := 0
  waypoints : Nat := 0
  /-- Codes compared. -/
  compared  : Nat := 0

/-- A candidate enters the walk; the best `breadth` stay. -/
def Walk.offer (w : Walk) (breadth : Nat) (c : Nat × Nat) : Walk :=
  { w with cand := (insertBy (fun a b => leSlot a.1 b.1) (c, false) w.cand).take breadth, compared := w.compared + 1 }

/-- One edge of an expanded node. -/
def walkEdge (x : Index) (q snap breadth : Nat) (w : Walk) (e : Edge) : Walk :=
  if e.gen = 0 || e.gen ≠ slotGen x e.slot then { w with dangling := w.dangling + b2n (e.gen ≠ 0) }
  else if w.visited.contains e.slot then w
  else
    let w := { w with visited := e.slot :: w.visited }
    match tget x.items e.slot with
    | some i => if snap < i.ins then w else w.offer breadth (distance x.bits q i.code, e.slot)
    | none => w

/-- The walk's loop, at most `fuel` expansions. -/
def walkLoop (x : Index) (q snap breadth visits : Nat) : Nat → Walk → Walk
  | 0, w => w
  | fuel + 1, w =>
    match w.cand.find? (fun c => !c.2) with
    | none => w
    | some n =>
      if visits ≤ w.visited.length then w
      else
        let w := { w with cand := w.cand.map (fun c => if c = n then (c.1, true) else c) }
        match tget x.items n.1.2 with
        | none => walkLoop x q snap breadth visits fuel w
        | some i =>
          let w := { w with waypoints := w.waypoints + b2n (decide (i.del ≤ snap)) }
          walkLoop x q snap breadth visits fuel (i.edges.foldl (walkEdge x q snap breadth) w)

/-- A walk from a slot (R327). -/
def walkFrom (x : Index) (from_ : Option Nat) (q snap breadth visits : Nat) : Walk :=
  match from_.bind (fun e => (tget x.items e).map (fun i => (e, i))) with
  | none => { cand := [], visited := [] }
  | some (e, i) => walkLoop x q snap breadth visits (visits + 1) { cand := [((distance x.bits q i.code, e), false)], visited := [e], compared := 1 }

/-- The visible members of a walk's candidates, in order. -/
def Walk.results (w : Walk) (x : Index) (snap : Nat) : List (Nat × Nat) :=
  (w.cand.map (·.1)).filter (fun c => (tget x.items c.2).any (fun i => i.seen snap))

/-- IVF: the lists nearest to a code (R330). -/
def nearLists (x : Index) (q k : Nat) : List Nat :=
  (bestOf leSlot k ((List.range x.centroids.length).map (fun l => (distance x.bits q (x.centroids.getD l 0), l)))).map (·.2)

/-- What a query finds on one shard: distances and slots, and the counts of R342 (compared, dangling, waypoints). -/
structure SearchFound where
  hits      : List (Nat × Nat)
  compared  : Nat := 0
  dangling  : Nat := 0
  waypoints : Nat := 0

/-- A query on one shard (R327, R330, R331). -/
def searchShard (x : Index) (q snap topK breadth visits probes : Nat) : SearchFound :=
  if x.kind = 1 then
    let w := walkFrom x x.entry q snap breadth visits
    { hits := (w.results x snap).take topK, compared := w.compared, dangling := w.dangling, waypoints := w.waypoints }
  else
    let lists := if x.kind = 2 then nearLists x q probes else []
    let seen := x.items.filter (fun e => e.2.seen snap && (x.kind = 0 || lists.contains e.2.list))
    { hits := bestOf leSlot topK (seen.map (fun e => (distance x.bits q e.2.code, e.1))), compared := seen.length }

/-- Counts what a search has done. -/
def countSearch (p : Nat) (f : SearchFound) (s : State) : State :=
  bump .tchCompared p f.compared (bump .tchDangling p f.dangling (bump .tchWaypoints p f.waypoints s))

/-- A query begins on this shard: the floor rises to its snapshot (R321). -/
def beginOn (i snap : Nat) (x : Index) (s : State) : State := setIndex i { x with floor := max x.floor snap } s

/-- Runs the codes of a query or a batch on this chip's shard: the hits of each. -/
def runShard (i : Nat) (x : Index) (codes : List Nat) (snap topK breadth visits probes : Nat) (s : State) :
    List (List Hit) × State :=
  codes.foldl (fun (a : List (List Hit) × State) q =>
    let f := searchShard x q snap topK breadth visits probes
    (a.1 ++ [f.hits.map (fun h => { label := ((tget x.items h.2).map (·.label)).getD 0, slot := h.2, dist := h.1, chip := chip s })],
     countSearch x.partition f a.2)) ([], beginOn i snap x s)

/-! ### Commands' common checks -/

/-- Runs `k` on an index that the request reaches and that is not being dropped (R51, R334). -/
def onIndex (o : OpInfo) (r : Req) (s : State) (k : Nat → Index → Reply) : Reply :=
  let i := r.f 0 1
  match getIndex s i with
  | none => .err s St.indexGone
  | some x =>
    if !r.reaches x.partition || x.dropping.isSome then .err s St.indexGone
    else
      match partGate o r x.partition s with
      | .error st => .err s st
      | .ok _ => k i x

/-- Codes of `b` bits laid one after another. -/
def codesOf (b n : Nat) (d : Bytes) : List Nat := (List.range n).map (fun k => field d (k * (b / 8)) (b / 8))

/-- Ends an operation with a reply. -/
def endReply (n : Nat) (a : Reply) : State := endOp n a.status a.detail a.result a.st

/-- Output through the part of a request's scatter list that follows `skip` bytes of input. -/
def replyAfter (r : Req) (skip : Nat) (data result : Bytes) (s : State) : Reply :=
  if carried r then .ok s data
  else
    match sgCover r (skip + data.length) s with
    | .error e => .sg r s e
    | .ok l =>
      match sgWrite (sgDrop l skip) data s with
      | (s', none) => .ok s' result
      | (s', some e) => .sg r s' e

/-! ### TCH_INDEX_CREATE -/

def opTchIndexCreate : OpInfo := { opcode := 0x0900, rsvd := [(0x07, 1), (0x0A, 2)] }

/-- The fields of a creation are in range (R317, R328, R330, R341). -/
def indexFieldsOk (r : Req) : Bool :=
  let b := r.f 4 2
  let t := r.f 0x18 4
  decide (r.f 1 1 ≤ 2) && decide (r.f 2 1 ≤ 2) && decide (64 ≤ b) && decide (b ≤ 4096) && b % 64 = 0
    && (t = 0 || (decide (100000 ≤ t) && decide (t ≤ 100000000)))
    && (r.f 1 1 ≠ 1 || (decide (8 ≤ r.f 6 1) && decide (r.f 6 1 ≤ 64) && r.f 6 1 % 8 = 0 && decide (r.f 6 1 ≤ r.f 8 2)
          && decide (r.f 8 2 ≤ 440)))
    && (r.f 1 1 ≠ 2 || (decide (1 ≤ r.f 0x0C 4) && decide (r.f 0x0C 4 ≤ 65536)))

/-- Whether the chip's slots and the partition's tier hold a new index (R319). -/
def indexFits (s : State) (x : Index) : Bool :=
  decide ((s.tch.indexes.map (fun e => e.2.capacity)).sum + x.capacity ≤ 4294967296)
    && (placeUnits s x.partition x.tier (indexBytes x)).isSome

/-- TCH_INDEX_CREATE. -/
def bodyTchIndexCreate (_ : Moment) (r : Req) (s : State) : Reply :=
  if !indexFieldsOk r then .err s St.badField
  else if thas s.tch.indexes (r.f 0 1) then .err s St.indexExists
  else
    let b := r.f 4 2
    let n := if r.f 1 1 = 2 then r.f 0x0C 4 else 0
    withData r (n * (b / 8)) s fun d =>
      let x : Index := {
        partition := r.part16, kind := r.f 1 1, tier := r.f 2 1, shardMask := r.f 3 1, bits := b, degree := r.f 6 1
        build := r.f 8 2, lists := r.f 0x0C 4, capacity := r.f 0x10 8, timeout := r.f 0x18 4, centroids := codesOf b n d }
      if indexFits s x then
        .ok (setIndex (r.f 0 1) { x with extents := (placeUnits s x.partition x.tier (indexBytes x)).getD [] } s)
      else .err s St.indexFull

def execTchIndexCreate (m : Moment) (r : Req) (s : State) : Out :=
  .next (runCommand opTchIndexCreate bodyTchIndexCreate m r s)

/-! ### TCH_INDEX_DROP -/

def opTchIndexDrop : OpInfo := { opcode := 0x0901 }

/-- TCH_INDEX_DROP refuses new work at once; the index goes when the last query on it has ended (R334). -/
def bodyTchIndexDrop (_ : Moment) (r : Req) (s : State) : Reply :=
  onIndex opTchIndexDrop r s fun i x =>
    asOp r s 1 5 x.items.length false [i] fun n s => setIndex i { x with dropping := some n } s

def execTchIndexDrop (m : Moment) (r : Req) (s : State) : Out := .next (runCommand opTchIndexDrop bodyTchIndexDrop m r s)

/-- Whether a query runs on an index. -/
def indexBusy (s : State) (i : Nat) : Bool := s.tch.queries.any (fun e => e.2.index = i)

/-- The inserts that still run on an index that goes end with `status`. -/
def dropInserts (status i : Nat) (s : State) : State :=
  (tfind s.tch.inserts (fun q => q.index = i)).foldl (fun s n =>
    endOp n status 0 [] { s with tch := { s.tch with inserts := tdel s.tch.inserts n } }) s

/-- The end of TCH_INDEX_DROP. -/
def endTchIndexDrop (n : Nat) (o : LongOp) (s : State) : State :=
  let i := o.args.getD 0 0
  if indexBusy s i then s
  else dropInserts St.indexGone i (endOp n St.ok 0 [] { s with tch := { s.tch with indexes := tdel s.tch.indexes i } })

/-! ### TCH_INSERT -/

def opTchInsert : OpInfo := { opcode := 0x0902, rsvd := [(0x01, 3)] }

/-- A slot that no insert may take: in use or RETIRED. -/
def slotTaken (x : Index) (k : Nat) : Bool := thas x.items k || slotGen x k = 0xFFFF

/-- The list that the run of 1,024 slots with number `r` serves, none while no item lies in it (R330). -/
def runList (x : Index) (r : Nat) : Option Nat := (x.items.find? (fun e => e.1 / 1024 = r)).map (·.2.list)

/-- A FREE slot for the `k`-th item of an insert; for IVF in a run of its list, or in a run that serves none. -/
def itemSlot (m : Moment) (k : Nat) (x : Index) (list : Nat) : Option Nat :=
  if x.capacity = 0 then none
  else
    let start := m.choice.getD k 0 % x.capacity
    if x.kind ≠ 2 then freeFrom (slotTaken x) x.capacity (x.items.length + x.gens.length + 1) start
    else
      let runs := ((x.items.map (fun e => e.1 / 1024)).eraseDups).filter (fun r => runList x r = some list)
      let new := freeFrom (fun r => (runList x r).isSome) (ceilDiv x.capacity 1024) (x.items.length + 1)
        (start / 1024 % ceilDiv x.capacity 1024)
      let slots := (runs ++ new.toList).filterMap (fun r =>
        ((List.range 1024).map (fun j => 1024 * r + j)).find? (fun j => decide (j < x.capacity) && !slotTaken x j))
      slots.head?

/-- A reverse edge is added to a neighbour: a full list keeps its best, the new edge in the place of the worst (R328). -/
def addEdge (degree : Nat) (e : Edge) (i : Item) : Item :=
  if i.edges.length < degree then { i with edges := i.edges ++ [e] }
  else
    let worst := i.edges.foldl (fun (w : Edge) f => if leSlot (w.dist, w.slot) (f.dist, f.slot) then f else w) e
    if worst = e then i else { i with edges := i.edges.map (fun f => if f = worst then e else f) }

/-- The neighbours of a code for a node's edges: the first LIVE results of a walk (R328). -/
def neighbours (s : State) (x : Index) (from_ : Option Nat) (code : Nat) (skip : List Nat) (k : Nat) : List Edge × Walk :=
  let snap := max s.ct x.floor
  let w := walkFrom x from_ code snap x.build 4096
  let live := (w.results x snap).filter (fun c => !skip.contains c.2 && (tget x.items c.2).any (fun i => i.sstate = .live))
  ((live.take k).map (fun c => { slot := c.2, gen := slotGen x c.2, dist := c.1 }), w)

/-- Writes one item into a slot, INSERTING: its code, label and edges, and the reverse edges. None where every slot that it could take
is in use (R323, R328). -/
def beginItem (m : Moment) (k i label code : Nat) (s : State) : Option (Nat × State) :=
  match getIndex s i with
  | none => none
  | some x =>
    let list := if x.kind = 2 then (nearLists x code 1).headD 0 else 0
    match itemSlot m k x list with
    | none => none
    | some slot =>
      let (edges, w) : List Edge × Walk :=
        if x.kind = 1 then neighbours s x x.entry code [] x.degree else ([], { cand := [], visited := [] })
      let back : Nat → Edge := fun d => { slot, gen := slotGen x slot, dist := d }
      let items := edges.foldl (fun (t : Tab Item) (f : Edge) => tmod t f.slot (addEdge x.degree (back f.dist))) x.items
      let x' := { x with items := tset items slot { code, label, list, edges } }
      some (slot, countSearch x.partition { hits := [], compared := w.compared, dangling := w.dangling } (setIndex i x' s))

/-- Publishes an item whose writes are complete: LIVE under the shard's next epoch (R321, R323). -/
def publishItem (i slot : Nat) (s : State) : State :=
  match getIndex s i with
  | none => s
  | some x =>
    let e := shardEpoch s x
    setIndex i { x with
      floor := e
      items := tmod x.items slot (fun a => { a with ins := e, sstate := .live })
      entry := if x.kind = 1 && x.entry.isNone then some slot else x.entry } s

/-- An item whose insert is cancelled: its reverse edges go, its slot is FREE under the next generation, or RETIRED (R323). -/
def abandonItem (i slot : Nat) (s : State) : State :=
  match getIndex s i with
  | none => s
  | some x =>
    let g := slotGen x slot
    let items := (tdel x.items slot).map (fun e =>
      (e.1, { e.2 with edges := e.2.edges.filter (fun f => !(f.slot = slot && f.gen = g)) }))
    let s := setIndex i { x with items, gens := tset x.gens slot (g + 1) } s
    if g + 1 = 0xFFFF then note 0x0901 0 x.partition 0 [i, slot] (bump .tchRetired x.partition 1 s) else s

/-- Inserts one item. -/
def insertItem (m : Moment) (k i label code : Nat) (s : State) : Option (Nat × State) :=
  match beginItem m k i label code s with
  | none => none
  | some (slot, s) => some (slot, publishItem i slot s)

/-- Inserts items in turn: the slots and generations of those inserted, and whether all were. -/
def insertAll (m : Moment) (i : Nat) : Nat → List (Nat × Nat) → State → List Nat × Bool × State
  | _, [], s => ([], true, s)
  | k, (label, code) :: rest, s =>
    match insertItem m k i label code s with
    | none => ([], false, s)
    | some (slot, s) =>
      let (l, all, s) := insertAll m i (k + 1) rest s
      (slot :: l, all, s)

/-- The reply of an insert: the slots and generations of those inserted. Inserts before a failure stay published. -/
def insertReply (i : Nat) (slots : List Nat) (all : Bool) (s : State) : Reply :=
  let g := fun k => ((getIndex s i).map (fun x => slotGen x k)).getD 0
  { st := s, status := if all then St.ok else St.indexFull
    result := u32 slots.length ++ slots.flatMap (fun k => u32 k ++ u16 (g k) ++ zeros 2) }

/-- The end of an insert that was long: CANCELLED before its first item is published, or all its items in turn. -/
def endTchInsert (m : Moment) (n : Nat) (s : State) : State :=
  match tget s.tch.inserts n with
  | none => s
  | some q =>
    let s := { s with tch := { s.tch with inserts := tdel s.tch.inserts n } }
    if stopping s n then endOp n St.cancelled 0 [] (abandonItem q.index q.slot s)
    else
      let (slots, all, s) := insertAll m q.index 1 q.rest (publishItem q.index q.slot s)
      endReply n (insertReply q.index (q.slot :: slots) all s)

/-- An insert of the shard that still runs takes its effect before the next insert or delete does (R28, R323). -/
def flushInserts (m : Moment) (i : Nat) (s : State) : State :=
  (tfind s.tch.inserts (fun q => q.index = i)).foldl (fun s n => endTchInsert m n s) s

/-- Whether an insert takes over 1 ms: the moment's choice behind those of its slots (log entry 10). -/
def insertLong (m : Moment) : Bool := m.choice.getD 495 0 % 2 = 1

/-- TCH_INSERT. -/
def bodyTchInsert (m : Moment) (r : Req) (s : State) : Reply :=
  onIndex opTchInsert r s fun i x =>
    let n := r.f 4 4
    let w := 8 + x.bits / 8
    if 495 < n then .err s St.badField
    else withData r (n * w) s fun d =>
      let items := (List.range n).map (fun k => (field d (k * w) 8, field d (k * w + 8) (w - 8)))
      let s := flushInserts m i s
      let now := insertAll m i 0 items s
      match items, insertLong m with
      | (label, code) :: rest, true =>
        match beginItem m 0 i label code s with
        | none => insertReply i [] false s
        | some (slot, u) =>
          if opRoom s r.fn then
            let (o, u) := startOp r 1 5 n true [i] u
            .wait { u with tch := { u.tch with inserts := tset u.tch.inserts o { index := i, slot, rest } } }
          else .err s St.busyRetry
      | _, _ => insertReply i now.1 now.2.1 now.2.2

def execTchInsert (m : Moment) (r : Req) (s : State) : Out := .next (runCommand opTchInsert bodyTchInsert m r s)

/-! ### TCH_DELETE -/

def opTchDelete : OpInfo := { opcode := 0x0903 }

/-- TCH_DELETE: the item becomes a tombstone on the chip that holds it (R323, R333). -/
def bodyTchDelete (m : Moment) (r : Req) (s : State) : Reply :=
  onIndex opTchDelete r s fun i x =>
    let c := r.f 1 1
    let slot := r.f 4 4
    if c = chip s then
      let s := flushInserts m i s
      let x := (getIndex s i).getD x
      match tget x.items slot with
      | none => .err s St.itemGone
      | some a =>
        if slotGen x slot ≠ r.f 2 2 || a.sstate ≠ .live then .err s St.itemGone
        else
          let e := shardEpoch s x
          .ok (setIndex i { x with floor := e, items := tset x.items slot { a with del := e, sstate := .tombstone } } s) (u64 e)
    else if !bit x.shardMask c || carried r then .err s St.badField
    else forwardTo c r s

def execTchDelete (m : Moment) (r : Req) (s : State) : Out := .next (runCommand opTchDelete bodyTchDelete m r s)

/-! ### TCH_QUERY and TCH_BULK -/

/-- A free query context (R326). -/
def contextFree (s : State) (p : Nat) : Bool :=
  decide (s.tch.queries.length < 4096)
    && decide ((s.tch.queries.filter (fun e => (getIndex s e.2.index).any (fun x => x.partition = p))).length < 256 * ways s p 3)

/-- A context is bound or freed (R305, R326). -/
def bindContext (s : State) : State := move Lg.context 0 0 1 1 9 0 s
def freeContext (s : State) : State := move Lg.context 0 1 0 1 9 0 s

/-- The 16-byte entry of a result (R345). -/
def hitBytes (h : Hit) : Bytes := u64 h.label ++ u32 h.slot ++ u16 h.dist ++ u8 h.chip ++ u8 0

/-- Other chips that hold a shard. -/
def otherShards (s : State) (x : Index) : List Nat := (setBits 8 x.shardMask).filter (fun c => c ≠ chip s)

/-- Shards left out of a merge are counted, and logged at most once in 1 ms (R333, R344). -/
def noteMissing (i p : Nat) (missing : List Nat) (s : State) : State :=
  if missing.isEmpty then s
  else
    let s := bump .tchTimeouts p missing.length s
    if s.tch.lateCt.all (fun c => decide (c + 1000000 ≤ s.ct)) then
      note 0x0902 1 p 0 [i, maskOf missing] { s with tch := { s.tch with lateCt := some s.ct } }
    else s

/-- The reply of a query once no shard is waited for. -/
def queryReply (q : Query) (p : Nat) (s : State) : Reply :=
  let hits := (q.hits.headD []).take q.topK
  let s := noteMissing q.index p q.missing (bump .tchQueries p 1 s)
  let body := u16 hits.length ++ zeros 6 ++ hits.flatMap hitBytes
  let a := if q.topK ≤ 247 then Reply.ok s body else replyData q.req (8 + 16 * q.topK) body [] s
  if a.status = 0 && !q.missing.isEmpty then { a with status := St.shardMissing, detail := maskOf q.missing } else a

/-- The reply of a bulk batch: the results follow the codes in the scatter list. -/
def bulkReply (q : Query) (p bits : Nat) (s : State) : Reply :=
  let s := noteMissing q.index p q.missing (bump .tchQueries p q.hits.length s)
  let body := q.hits.flatMap (fun l => fit (16 * q.topK) ((l.take q.topK).flatMap hitBytes))
  let skip := q.hits.length * (bits / 8)
  let a := replyAfter q.req skip body [] s
  if a.status = 0 && !q.missing.isEmpty then { a with status := St.shardMissing, detail := maskOf q.missing } else a

/-- A query leaves its context, whatever becomes of it. -/
def dropQuery (k : Nat) (s : State) : State :=
  freeContext { s with
    tch := { s.tch with queries := tdel s.tch.queries k }
    swl := { s.swl with reqs := s.swl.reqs.filter (fun e => e.2.wait ≠ .subQuery k) } }

/-- Partition of a query's index. -/
def queryPart (s : State) (q : Query) : Nat := ((getIndex s q.index).map (·.partition)).getD noPart

/-- A query that waits for no shard completes; a bulk batch, or a query that takes over 1 ms, completes at its LONG_OP_END. -/
def finishQuery (k : Nat) (s : State) : State :=
  match tget s.tch.queries k with
  | none => s
  | some q =>
    if q.isBulk || q.held || !q.waiting.isEmpty then s
    else if stopping s q.op then endOp q.op St.cancelled 0 [] (dropQuery k s)
    else endReply q.op (queryReply q (queryPart s q) (dropQuery k s))

/-- The sub-query's values on VC0. -/
def askShard (k i : Nat) (x : Index) (bulk : Bool) (codes : List Nat) (snap topK breadth visits probes : Nat) (s : State)
    (c : Nat) : State :=
  swlAsk c (.subQuery k) 8 k [i, x.partition, snap, b2n bulk, topK, breadth, visits, probes, codes.length]
    (codes.flatMap (le (x.bits / 8))) s

/-- Starts a query or a batch on every shard: the local hits at once, the other chips asked (R333). -/
def startQuery (n i : Nat) (x : Index) (r : Req) (bulk held : Bool) (codes : List Nat) (topK breadth visits probes : Nat) (s : State) :
    State :=
  let snap := s.ct
  let k := s.tch.nextQ
  let others := otherShards s x
  let ups := others.filter (linkUp s)
  let (hits, s) := runShard i x codes snap topK breadth visits probes (bindContext s)
  let q : Query := {
    index := i, req := r, op := n, snapshot := snap, topK, waiting := ups, missing := others.filter (fun c => !linkUp s c)
    due := snap + (if x.timeout = 0 then 1000000 else x.timeout), hits, isBulk := bulk, held }
  let s := { s with tch := { s.tch with queries := tset s.tch.queries k q, nextQ := k + 1 } }
  finishQuery k (ups.foldl (askShard k i x bulk codes snap topK breadth visits probes) s)

def opTchQuery : OpInfo := { opcode := 0x0904, rsvd := [(0x01, 1), (0x0A, 6)] }

/-- The limits of a query's fields (R327, R341). -/
def queryFieldsOk (r : Req) (x : Index) : Bool :=
  decide (1 ≤ r.f 2 2) && decide (r.f 2 2 ≤ 1024)
    && (x.kind ≠ 1 || (decide (r.f 2 2 ≤ r.f 4 2) && decide (r.f 4 2 ≤ 440) && decide (1 ≤ r.f 6 2) && decide (r.f 6 2 ≤ 4096)))
    && (x.kind ≠ 2 || (decide (1 ≤ r.f 8 2) && decide (r.f 8 2 ≤ x.lists)))

/-- Whether a query takes over 1 ms on this shard: the moment's choice (log entry 10). One that does not, and has no other shard to ask,
completes at once. -/
def queryHeld (m : Moment) : Bool := m.choice.getD 0 0 % 2 = 1
def queryNow (m : Moment) (s : State) (x : Index) : Bool := (otherShards s x).isEmpty && !queryHeld m

/-- TCH_QUERY. A list that its largest output needs is tested before it starts (R528). -/
def bodyTchQuery (m : Moment) (r : Req) (s : State) : Reply :=
  onIndex opTchQuery r s fun i x =>
    if !queryFieldsOk r x then .err s St.badField
    else if !contextFree s x.partition then .err s St.busyRetry
    else
      match if 247 < r.f 2 2 && !carried r then (sgCover r (8 + 16 * r.f 2 2) s).map (fun _ => ()) else .ok () with
      | .error e => .sg r s e
      | .ok _ =>
      let code := r.f 0x10 (x.bits / 8)
      if queryNow m s x then
        let (hits, s) := runShard i x [code] s.ct (r.f 2 2) (r.f 4 2) (r.f 6 2) (r.f 8 2) (bindContext s)
        queryReply { index := i, req := r, snapshot := s.ct, topK := r.f 2 2, hits } x.partition (freeContext s)
      else asOp r s 1 5 0 true [s.tch.nextQ] fun n s => startQuery n i x r false (queryHeld m) [code] (r.f 2 2) (r.f 4 2) (r.f 6 2) (r.f 8 2) s

def execTchQuery (m : Moment) (r : Req) (s : State) : Out := .next (runCommand opTchQuery bodyTchQuery m r s)

def opTchBulk : OpInfo := { opcode := 0x0905, rsvd := [(0x01, 1), (0x06, 2), (0x0C, 4)] }

/-- TCH_BULK: one snapshot and one context for the whole batch (R331). -/
def bodyTchBulk (_ : Moment) (r : Req) (s : State) : Reply :=
  onIndex opTchBulk r s fun i x =>
    let n := r.f 8 4
    let topK := r.f 2 2
    let probes := r.f 4 2
    if x.kind = 1 || topK = 0 || 1024 < topK || n = 0 || 65536 < n || (x.kind = 2 && (probes = 0 || x.lists < probes))
        || partBytes s x.partition 1 ≤ r.f 0x10 8 then .err s St.badField
    else if !contextFree s x.partition then .err s St.busyRetry
    else
      match (do
          let _ ← (if carried r then Except.ok [] else sgCover r (n * (x.bits / 8) + 16 * topK * n) s)
          inData r (n * (x.bits / 8)) s) with
      | .error e => .sg r s e
      | .ok d => asOp r s 1 5 n true [s.tch.nextQ] fun o s => startQuery o i x r true false (codesOf x.bits n d) topK 0 0 probes s

def execTchBulk (m : Moment) (r : Req) (s : State) : Out := .next (runCommand opTchBulk bodyTchBulk m r s)

/-- The end of a query or a batch: CANCELLED, or, for a batch that waits for no shard, its results. -/
def endTchQuery (n : Nat) (o : LongOp) (s : State) : State :=
  let k := o.args.getD 0 0
  match tget s.tch.queries k with
  | none => s
  | some q =>
    if o.cancelling then endOp n St.cancelled 0 [] (dropQuery k s)
    else if !q.waiting.isEmpty then s
    else
      let p := queryPart s q
      let bits := ((getIndex s q.index).map (·.bits)).getD 0
      endReply n (if q.isBulk then bulkReply q p bits (dropQuery k s) else queryReply q p (dropQuery k s))

/-! ### Shards (R333) -/

/-- The bytes of a shard's answer. -/
def tchAnswerBytes (l : List (List Hit)) : Bytes := l.flatMap (fun h => u32 h.length ++ h.flatMap hitBytes)

/-- TCH_SUBQUERY_RECEIVE: another chip's query runs on this chip's shard, or is late (R324, R333). -/
def execTchSubqueryReceive (m : Moment) (x : SubQuery) (s : State) : Out :=
  let s := swlGot x.link 0 (x.codes.length * (((getIndex s x.index).map (·.bits)).getD 64 / 8)) (s.at m)
  let tell (st : Nat) (d : Bytes) (s : State) : State := sendSwl (.swilan x.link 1 8 x.tag [st] d) s
  .next (match getIndex s x.index with
    | none => tell St.indexGone [] s
    | some i =>
      if i.partition ≠ x.partition || i.dropping.isSome then tell St.indexGone [] s
      else if x.snapshot + 1000000 < s.ct then tell St.shardLate [] s
      else if !contextFree s i.partition then tell St.busyRetry [] s
      else
        let (hits, s) := runShard x.index i x.codes x.snapshot x.topK x.breadth x.visits x.probes (bindContext s)
        tell St.ok (tchAnswerBytes hits) (freeContext s))

/-- A shard of a query has answered, or is left out. -/
def tchShardDone (k c : Nat) (hits : Option (List (List Hit))) (s : State) : State :=
  match tget s.tch.queries k with
  | none => s
  | some q =>
    if !q.waiting.contains c then s
    else
      let q := { q with waiting := q.waiting.erase c }
      let q := match hits with
        | none => { q with missing := q.missing ++ [c] }
        | some l => { q with hits := (List.range q.hits.length).map (fun j =>
            bestOf leHit q.topK (q.hits.getD j [] ++ l.getD j [])) }
      finishQuery k { s with
        tch := { s.tch with queries := tset s.tch.queries k q }
        swl := { s.swl with reqs := s.swl.reqs.filter (fun e => !(e.2.wait = .subQuery k && e.2.link = linkTo s c)) } }

/-- TCH_SHARD_ANSWER: a shard's hits, or the status with which it answers. -/
def execTchShardAnswer (m : Moment) (query shard status : Nat) (hits : List (List ShardHit)) (s : State) : Out :=
  let s := s.at m
  match tget s.tch.queries query with
  | none => .next s
  | some q =>
    if !q.waiting.contains shard then .next s
    else
      let s := swlGot (linkTo s shard) 1 (16 * (hits.map List.length).sum) s
      .next (tchShardDone query shard (if status = 0 then
        some (hits.map (fun l => l.map (fun h => { label := h.label, slot := h.slot, dist := h.dist, chip := shard }))) else none) s)

/-- TCH_SHARD_TIMEOUT: the shards that have not answered in time are left out. -/
def execTchShardTimeout (m : Moment) (query : Nat) (s : State) : Out :=
  let s := s.at m
  .next (match tget s.tch.queries query with
    | some q => if q.due ≤ s.ct then q.waiting.foldl (fun s c => tchShardDone query c none s) s else s
    | none => s)

/-! ### TCH_INDEX_QUERY -/

def opTchIndexQuery : OpInfo := { opcode := 0x0906, mctp := true }

/-- Items of an index in a slot state. -/
def itemCount (x : Index) (st : ItemState) : Nat := (x.items.filter (fun e => e.2.sstate = st)).length

/-- TCH_INDEX_QUERY: the creation fields at their offsets, then the index status packed (log entry 29). -/
def bodyTchIndexQuery (_ : Moment) (r : Req) (s : State) : Reply :=
  match getIndex s (r.f 0 1) with
  | none => .err s St.indexGone
  | some x =>
    if !r.reaches x.partition || x.dropping.isSome then .err s St.indexGone
    else .ok s (u8 (r.f 0 1) ++ u8 x.kind ++ u8 x.tier ++ u8 x.shardMask ++ u16 x.bits ++ u8 x.degree ++ u8 0 ++ u16 x.build
      ++ zeros 2 ++ u32 x.lists ++ u64 x.capacity ++ u32 x.timeout ++ u64 x.floor ++ u32 (x.entry.getD ones32)
      ++ u64 (itemCount x .live) ++ u64 (itemCount x .tombstone) ++ u64 x.repairPos ++ u64 x.capacity)

def execTchIndexQuery (m : Moment) (r : Req) (s : State) : Out :=
  .next (runCommand opTchIndexQuery bodyTchIndexQuery m r s)

/-! ### Reclaim and repair (R324, R329) -/

/-- Whether an edge names an item that still holds its slot. -/
def edgeLive (x : Index) (e : Edge) : Bool := e.gen = slotGen x e.slot && thas x.items e.slot

/-- Where ENTRY moves when its slot is reclaimed (R324). -/
def nextEntry (x : Index) (slot : Nat) : Option Nat :=
  let live := fun k => (tget x.items k).any (fun i => i.sstate = .live)
  let edges := ((tget x.items slot).map (·.edges)).getD []
  match edges.find? (fun e => edgeLive x e && live e.slot) with
  | some e => some e.slot
  | none => (tkeys x.items).find? live

/-- TCH_RECLAIM: a tombstone's slot becomes FREE, or RETIRED at the last generation (R323, R324). -/
def reclaim (i slot : Nat) (s : State) : State :=
  match getIndex s i with
  | none => s
  | some x =>
    match tget x.items slot with
    | none => s
    | some a =>
      if a.sstate ≠ .tombstone || s.ct < a.del + 1000000
          || s.tch.queries.any (fun e => e.2.index = i && decide (e.2.snapshot < a.del)) then s
      else
        let g := slotGen x slot + 1
        let items := tdel x.items slot
        let x' := { x with
          items, gens := tset x.gens slot g
          entry := if x.entry = some slot then nextEntry x slot else x.entry
          dangling := x.dangling || items.any (fun e => e.2.edges.any (fun f => f.slot = slot)) }
        let s := bump .tchReclaimed x.partition 1 (setIndex i x' s)
        if g = 0xFFFF then note 0x0901 0 x.partition 0 [i, slot] (bump .tchRetired x.partition 1 s) else s

def execTchReclaim (m : Moment) (index slot : Nat) (s : State) : Out := .next (reclaim index slot (s.at m))

/-- A sweep visits one slot: its dangling edges are cleared, and a short list is refilled (R329). -/
def sweepSlot (i slot : Nat) (a : Nat × State) : Nat × State :=
  match getIndex a.2 i with
  | none => a
  | some x =>
    match tget x.items slot with
    | none => a
    | some it =>
      let kept := it.edges.filter (edgeLive x)
      let gone := it.edges.length - kept.length
      if gone = 0 then a
      else
        let x := { x with items := tset x.items slot { it with edges := kept } }
        let more := if kept.length < x.degree / 2 then
            (neighbours a.2 x (some slot) it.code (slot :: kept.map (·.slot)) (x.degree - kept.length)).1
          else []
        (a.1 + gone, setIndex i { x with items := tset x.items slot { it with edges := kept ++ more } } a.2)

/-- A repair sweep: the edges that it cleared (R329, R344). -/
def sweep (i : Nat) (s : State) : Nat × State :=
  match getIndex s i with
  | none => (0, s)
  | some x =>
    let (n, s) := (tkeys x.items).foldl (fun a k => sweepSlot i k a) (0, s)
    match getIndex s i with
    | none => (n, s)
    | some y => (n, note 0x0903 0 x.partition 0 [i, n] (setIndex i { y with dangling := false } s))

/-- TCH_REPAIR_SWEEP: the Bench repairs an index in which reclaims have left a dangling edge. -/
def execTchRepairSweep (m : Moment) (index : Nat) (s : State) : Out :=
  let s := s.at m
  match getIndex s index with
  | some x =>
    if x.dangling && x.kind = 1 then
      let s := (sweep index s).2
      .next (match getIndex s index with
        | some y => setIndex index { y with repairPos := y.capacity } s
        | none => s)
    else .next s
  | none => .next s

def opTchRepair : OpInfo := { opcode := 0x0907 }

/-- TCH_REPAIR starts a sweep at once. -/
def bodyTchRepair (_ : Moment) (r : Req) (s : State) : Reply :=
  onIndex opTchRepair r s fun i x =>
    if x.kind ≠ 1 then .err s St.badField else asOp r s 1 5 x.capacity true [i] fun _ s => s

def execTchRepair (m : Moment) (r : Req) (s : State) : Out := .next (runCommand opTchRepair bodyTchRepair m r s)

/-- The end of TCH_REPAIR: the sweep is done. A cancelled one has cleared nothing (DESIGN CHOICE, log entry 40). -/
def endTchRepair (n : Nat) (o : LongOp) (s : State) : State :=
  if o.cancelling then endOp n St.cancelled 0 [] s
  else
    let (k, s) := sweep (o.args.getD 0 0) s
    endOp n St.ok 0 (u64 k) s

end Sys2Proof.Machine
end

