-- ==== Sys2Proof/Machine/Gather.lean ====
section
/-! DEFINITION. The Gather unit: tables and their versions, hot rows, batches and pooling (R335 to R340, 11). -/

namespace Sys2Proof.Machine

namespace St
def indexRange : Nat := 0x0907
def versionLimit : Nat := 0x0908
def tableGone : Nat := 0x0909
end St

/-! ### Tables and versions -/

def getTable (s : State) (t : Nat) : Option GTable := tget s.gth.tables t
def setTable (t : Nat) (x : GTable) (s : State) : State := { s with gth := { s.gth with tables := tset s.gth.tables t x } }
def delTable (t : Nat) (s : State) : State := { s with gth := { s.gth with tables := tdel s.gth.tables t } }

/-- The CURRENT version, with its number and without. -/
def GTable.currentEntry (x : GTable) : Option (Nat × GVersion) := x.versions.find? (fun v => v.2.vstate = .current)
def GTable.current (x : GTable) : Option GVersion := x.currentEntry.map (·.2)

/-- Runs `k` on a table that the request reaches and that is not being dropped (R336). -/
def onTable (o : OpInfo) (r : Req) (s : State) (k : Nat → GTable → Reply) : Reply :=
  let t := r.f 0 2
  if 1024 ≤ t then .err s St.badField
  else
    match getTable s t with
    | none => .err s St.tableGone
    | some x =>
      if !r.reaches x.partition || x.dropping.isSome then .err s St.tableGone
      else
        match partGate o r x.partition s with
        | .error st => .err s st
        | .ok _ => k t x

/-- Starts a new version's copy with its rows, if a version and the memory are free (R336). -/
def newVersion (m : Moment) (r : Req) (t : Nat) (x : GTable) (rows : List Bytes) (s : State) : Reply :=
  match pickIdx m 0 x.versions 4 with
  | none => .err s St.versionLimit
  | some v =>
    match placeUnits s x.partition x.tier (x.rows * x.rowBytes) with
    | none => .err s St.tierFull
    | some extents => asOp r s 1 6 x.rows true [t, v] fun _ s => setTable t { x with versions := tset x.versions v { rows, extents } } s

/-! ### GTH_TABLE_LOAD and GTH_TABLE_PATCH -/

def opGthTableLoad : OpInfo := { opcode := 0x0908, rsvd := [(0x06, 2)] }

/-- Cuts a byte string into `n` rows. -/
def rowsOf (n w : Nat) (d : Bytes) : List Bytes := (List.range n).map (fun i => slice d (i * w) w)

/-- The fields of a load are in range (R335, R341). -/
def tableFieldsOk (r : Req) : Bool :=
  let w := r.f 4 2
  decide (r.f 0 2 < 1024) && decide (r.f 2 1 ≤ 0xA) && (r.f 3 1 = 1 || r.f 3 1 = 2) && decide (16 ≤ w) && decide (w ≤ 16384)
    && w % 16 = 0 && decide (1 ≤ r.f 8 8) && decide (r.f 8 8 ≤ 4294967296)

/-- GTH_TABLE_LOAD: a new version of a table, which its first load defines. -/
def bodyGthTableLoad (m : Moment) (r : Req) (s : State) : Reply :=
  if !tableFieldsOk r then .err s St.badField
  else
    let new : GTable := { partition := r.part16, format := r.f 2 1, tier := r.f 3 1, rowBytes := r.f 4 2, rows := r.f 8 8 }
    let go := fun (t : Nat) (x : GTable) =>
      if x.format ≠ new.format || x.tier ≠ new.tier || x.rowBytes ≠ new.rowBytes || x.rows ≠ new.rows then Reply.err s St.badField
      else withData r (x.rows * x.rowBytes) s fun d => newVersion m r t x (rowsOf x.rows x.rowBytes d) s
    if thas s.gth.tables (r.f 0 2) then onTable opGthTableLoad r s go else go (r.f 0 2) new

def execGthTableLoad (m : Moment) (r : Req) (s : State) : Out := .next (runCommand opGthTableLoad bodyGthTableLoad m r s)

def opGthTablePatch : OpInfo := { opcode := 0x0909, rsvd := [(0x02, 2)] }

/-- GTH_TABLE_PATCH: a new version from CURRENT with rows replaced. -/
def bodyGthTablePatch (m : Moment) (r : Req) (s : State) : Reply :=
  onTable opGthTablePatch r s fun t x =>
    match x.current with
    | none => .err s St.tableGone
    | some v =>
      let n := r.f 4 4
      let w := 4 + x.rowBytes
      withData r (n * w) s fun d =>
        let recs := (List.range n).map (fun i => (field d (i * w) 4, slice d (i * w + 4) x.rowBytes))
        match (List.range n).find? (fun i => decide (x.rows ≤ (recs.getD i (0, [])).1)) with
        | some i => .err s St.indexRange i
        | none => newVersion m r t x (recs.foldl (fun (l : List Bytes) e => l.set e.1 e.2) v.rows) s

def execGthTablePatch (m : Moment) (r : Req) (s : State) : Out :=
  .next (runCommand opGthTablePatch bodyGthTablePatch m r s)

/-- A version becomes CURRENT: the former one is SUPERSEDED, and FREE where no batch binds it. -/
def publishVersion (v : Nat) (x : GTable) : GTable :=
  let old := x.versions.map (fun e =>
    if e.1 = v then (e.1, { e.2 with vstate := .current })
    else if e.2.vstate = .current then (e.1, { e.2 with vstate := .superseded }) else e)
  { x with versions := old.filter (fun e => !(e.2.vstate = .superseded && e.2.bind = 0)) }

/-- A table whose last version has gone without being replaced is undefined again. -/
def dropVersion (t v : Nat) (x : GTable) (s : State) : State :=
  let x := { x with versions := tdel x.versions v }
  if x.versions.isEmpty && x.dropping.isNone then delTable t s else setTable t x s

/-- The end of a load or a patch: CURRENT, or FREE where it is cancelled, its copy fails or the table is being dropped. -/
def endGthVersion (n : Nat) (o : LongOp) (ok : Bool) (s : State) : State :=
  let t := o.args.getD 0 0
  let v := o.args.getD 1 0
  match getTable s t with
  | none => endOp n St.tableGone 0 [] s
  | some x =>
    if o.cancelling then endOp n St.cancelled 0 [] (dropVersion t v x s)
    else if x.dropping.isSome then endOp n St.tableGone 0 [] (dropVersion t v x s)
    else if !ok then
      endSgFault n (dropVersion t v x s)
    else endOp n St.ok 0 (u8 v) (setTable t (publishVersion v x) s)

/-! ### GTH_TABLE_DROP -/

def opGthTableDrop : OpInfo := { opcode := 0x090A }

/-- GTH_TABLE_DROP refuses new batches at once. -/
def bodyGthTableDrop (_ : Moment) (r : Req) (s : State) : Reply :=
  onTable opGthTableDrop r s fun t x => asOp r s 1 0 0 false [t] fun n s => setTable t { x with dropping := some n } s

def execGthTableDrop (m : Moment) (r : Req) (s : State) : Out := .next (runCommand opGthTableDrop bodyGthTableDrop m r s)

/-- The operations that work on a table: loads and patches, its drop and its batches. -/
def tableOps (s : State) (t : Nat) : List Nat :=
  (s.bench.ops.filter (fun e => 0x0908 ≤ e.2.opcode && e.2.opcode ≤ 0x090C && e.2.args.head? = some t)).map (·.1)

/-- A table goes, and what still works on it ends with `status`. -/
def dropTable (status t : Nat) (s : State) : State :=
  let s := (tableOps s t).foldl (fun s n => endOp n status 0 [] s) s
  delTable t { s with gth := { s.gth with batches := s.gth.batches.filter (fun e => e.2.table ≠ t) } }

/-- The end of a drop: every version's bind count is 0, and a version still LOADING goes with the table. -/
def endGthTableDrop (n : Nat) (o : LongOp) (s : State) : State :=
  let t := o.args.getD 0 0
  if (getTable s t).any (fun x => x.versions.any (fun v => v.2.bind ≠ 0)) then s
  else dropTable St.tableGone t (endOp n St.ok 0 [] s)

/-! ### GTH_HOT_SET -/

def opGthHotSet : OpInfo := { opcode := 0x090B, rsvd := [(0x02, 2)] }

/-- GTH_HOT_SET (R337). -/
def bodyGthHotSet (_ : Moment) (r : Req) (s : State) : Reply :=
  onTable opGthHotSet r s fun t x =>
    let n := r.f 4 4
    if 65536 < n then .err s St.badField
    else withData r (4 * n) s fun d =>
      let rows := codesOf 32 n d
      match (List.range n).find? (fun i => decide (x.rows ≤ rows.getD i 0)) with
      | some i => .err s St.indexRange i
      | none => .ok (setTable t { x with hot := rows.eraseDups } s)

def execGthHotSet (m : Moment) (r : Req) (s : State) : Out := .next (runCommand opGthHotSet bodyGthHotSet m r s)

/-! ### GTH_RUN (R338 to R340) -/

def opGthRun : OpInfo := { opcode := 0x090C, rsvd := [(0x0C, 4)] }

/-- Formats that pooling takes, and those that it answers in (R335, R340). -/
def poolIn : List Nat := [0x5, 0x6, 0x7, 0x8, 0x9, 0xA]
def poolOut : List Nat := [0x8, 0x9, 0xA]

/-- Elements of a row. -/
def rowElems (x : GTable) : Nat := x.rowBytes * 8 / fmtBits x.format

/-- acc / n, correctly rounded (R340). -/
def f32quot (a : F32) (n : Nat) : F32 :=
  match f32v a with
  | .fin neg m e =>
    let k := Nat.log2 n + 64
    let q := m * 2 ^ k / n
    f32r (.fin neg (2 * q + (if m * 2 ^ k % n = 0 then 0 else 1)) (e - (k : Int) - 1))
  | v => f32r v

/-- The weights of a row's occurrences in a bag, summed exactly, or their number (R340). -/
def bagFactor (mode u : Nat) (bag : List (Nat × F32)) : Fv :=
  let us := bag.filter (fun e => e.1 = u)
  if mode = 3 then Fv.sum (us.map (fun e => f32v e.2)) else .fin false us.length 0

/-- One element of one bag: its distinct rows in ascending order (R340). -/
def poolElem (x : GTable) (v : GVersion) (mode : Nat) (bag : List (Nat × F32)) (us : List Nat) (i : Nat) : F32 :=
  let acc := us.foldl (fun (acc : F32) u =>
    let e := elemDecode x.format (streamElem (fmtBits x.format) (v.rows.getD u []) i)
    f32add acc (f32r (Fv.mul (bagFactor mode u bag) e))) 0
  if mode = 2 then (if bag.isEmpty then 0 else f32quot acc bag.length) else acc

/-- The distinct rows of a list, ascending. -/
def distinct (l : List Nat) : List Nat := bestOf (fun a b => decide (a ≤ b)) l.length l.eraseDups

/-- The output of a pooled bag. -/
def poolBag (x : GTable) (v : GVersion) (mode out : Nat) (bag : List (Nat × F32)) : Bytes :=
  let us := distinct (bag.map (·.1))
  packElems (fmtBits out) ((List.range (rowElems x)).map (fun i =>
    (elemEncode out false (f32v (poolElem x v mode bag us i))).1))

/-- The offsets of a batch are legal (R338). -/
def offsetsOk (offs : List Nat) (count : Nat) : Bool :=
  offs.getD 0 1 = 0 && offs.getLast? = some count
    && (List.range (offs.length - 1)).all (fun i => decide (offs.getD i 0 ≤ offs.getD (i + 1) 0))

/-- Bag `g` of a batch: its indices and weights. -/
def bagOf (idx : List Nat) (wts : List F32) (offs : List Nat) (g : Nat) : List (Nat × F32) :=
  (List.range (offs.getD (g + 1) 0 - offs.getD g 0)).map (fun j => (idx.getD (offs.getD g 0 + j) 0, wts.getD (offs.getD g 0 + j) 0))

/-- A batch's output. -/
def gatherOut (x : GTable) (v : GVersion) (mode out bags : Nat) (idx : List Nat) (wts : List F32) (offs : List Nat) : Bytes :=
  if mode = 0 then idx.flatMap (fun u => fit x.rowBytes (v.rows.getD u []))
  else (List.range bags).flatMap (fun g => poolBag x v mode out (bagOf idx wts offs g))

/-- Counts a batch; whether its sort spills is a free value (R339; log entry 8). -/
def countBatch (x : GTable) (mode bags : Nat) (idx offs : List Nat) (s : State) : State :=
  let us := distinct idx
  let empty := ((List.range bags).filter (fun g => offs.getD g 0 = offs.getD (g + 1) 0)).length
  let (k, s) := fresh s
  bump .gthBatches x.partition 1 <| bump .gthIndices x.partition idx.length <| bump .gthUnique x.partition us.length
    <| bump .gthHot x.partition (us.filter x.hot.contains).length
    <| bump .gthEmpty x.partition (if mode = 0 then 0 else empty) <| bump .gthSpills x.partition (k % 2) s

/-- Bytes of a batch's output. -/
def gatherLen (x : GTable) (mode out bags count : Nat) : Nat :=
  if mode = 0 then count * x.rowBytes else bags * (rowElems x * fmtBits out / 8)

/-- Bytes of a batch's input: indices, offsets and weights. -/
def inputLen (mode bags count : Nat) : Nat := 4 * count + 4 * (bags + 1) + (if mode = 3 then 4 * count else 0)

/-- The indices, the offsets and the weights of a batch's input. -/
def batchIdx (r : Req) (d : Bytes) : List Nat := codesOf 32 (r.f 4 4) d
def batchOffs (r : Req) (d : Bytes) : List Nat := codesOf 32 (r.f 8 4 + 1) (d.drop (4 * r.f 4 4))
def batchWts (r : Req) (d : Bytes) : List F32 :=
  (codesOf 32 (if r.f 2 1 = 3 then r.f 4 4 else 0) (d.drop (4 * r.f 4 4 + 4 * (r.f 8 4 + 1)))).map (BitVec.ofNat 32)

/-- The reply of a batch over the version that it reads: the output behind its input, the rows read, and its counts. -/
def batchReply (r : Req) (x : GTable) (v : GVersion) (d : Bytes) (s : State) : Reply :=
  let mode := r.f 2 1
  let bags := r.f 8 4
  let idx := batchIdx r d
  let offs := batchOffs r d
  let a := replyAfter r (inputLen mode bags (r.f 4 4)) (gatherOut x v mode (r.f 3 1) bags idx (batchWts r d) offs)
    (u64 (distinct idx).length) s
  if a.status = 0 then { a with st := countBatch x mode bags idx offs a.st } else a

/-- A version's bind count changes; a SUPERSEDED version whose count reaches 0 is FREE (R336). -/
def bindVersion (t v : Nat) (f : Nat → Nat) (s : State) : State :=
  match getTable s t with
  | none => s
  | some x =>
    let vs := x.versions.map (fun e => if e.1 = v then (e.1, { e.2 with bind := f e.2.bind }) else e)
    setTable t { x with versions := vs.filter (fun e => !(e.2.vstate = .superseded && e.2.bind = 0)) } s

/-- A batch binds the version that it reads from its start to its end. -/
def bindBatch (n t v : Nat) (x : GTable) (d : Bytes) (s : State) : State :=
  bindVersion t v (· + 1) { s with gth := { s.gth with
    batches := tset s.gth.batches n { table := t, version := v, data := d, hot := x.hot } } }

/-- GTH_RUN. Its list is tested for its input and its output before it starts (R528). A batch that takes over 1 ms, which is the
moment's choice, is a long operation (log entry 10). -/
def bodyGthRun (m : Moment) (r : Req) (s : State) : Reply :=
  onTable opGthRun r s fun t x =>
    let mode := r.f 2 1
    let out := r.f 3 1
    let count := r.f 4 4
    let bags := r.f 8 4
    if 3 < mode || count = 0 || 16777216 < count || (mode = 0 && out ≠ x.format)
        || (mode ≠ 0 && !(poolIn.contains x.format && poolOut.contains out)) || partBytes s x.partition 1 ≤ r.f 0x10 8 then
      .err s St.badField
    else
      match x.currentEntry with
      | none => .err s St.tableGone
      | some (v, c) =>
        let inp := inputLen mode bags count
        match if carried r then .ok () else (sgCover r (inp + gatherLen x mode out bags count) s).map (fun _ => ()) with
        | .error e => .sg r s e
        | .ok _ =>
        withData r inp s fun d =>
          if !offsetsOk (batchOffs r d) count then .err s St.badField
          else
            match (List.range count).find? (fun i => decide (x.rows ≤ (batchIdx r d).getD i 0)) with
            | some i => .err s St.indexRange i
            | none =>
              if m.choice.getD 0 0 % 2 = 0 then batchReply r x c d s
              else asOp r s 1 6 (distinct (batchIdx r d)).length true [t, v] fun n s => bindBatch n t v x d s

/-- The end of a batch that was long, or its CANCEL: it reads the version that it bound, with the hot set of its start, and unbinds
it. -/
def endGthRun (n : Nat) (o : LongOp) (s : State) : State :=
  match tget s.gth.batches n with
  | none => s
  | some b =>
    let u := bindVersion b.table b.version (· - 1) { s with gth := { s.gth with batches := tdel s.gth.batches n } }
    if o.cancelling then endOp n St.cancelled 0 [] u
    else
      match getTable s b.table with
      | none => endOp n St.tableGone 0 [] u
      | some x =>
        match tget x.versions b.version with
        | none => endOp n St.tableGone 0 [] u
        | some v => endReply n (batchReply o.req { x with hot := b.hot } v b.data u)

def execGthRun (m : Moment) (r : Req) (s : State) : Out := .next (runCommand opGthRun bodyGthRun m r s)

/-! ### GTH_TABLE_QUERY -/

def opGthTableQuery : OpInfo := { opcode := 0x090D, mctp := true }

/-- A version's state in the order of R336: FREE 0, LOADING 1, CURRENT 2, SUPERSEDED 3 (DESIGN CHOICE, log entry 41). -/
def vstateCode : Option GVersion → Nat
  | none => 0
  | some v => match v.vstate with | .loading => 1 | .current => 2 | .superseded => 3

/-- GTH_TABLE_QUERY: the creation fields at their offsets, then the versions and the hot rows packed (log entry 29). -/
def bodyGthTableQuery (_ : Moment) (r : Req) (s : State) : Reply :=
  let t := r.f 0 2
  if 1024 ≤ t then .err s St.badField
  else
    match getTable s t with
    | none => .err s St.tableGone
    | some x =>
      if !r.reaches x.partition || x.dropping.isSome then .err s St.tableGone
      else .ok s (u16 t ++ u8 x.format ++ u8 x.tier ++ u16 x.rowBytes ++ zeros 2 ++ u64 x.rows
        ++ (List.range 4).flatMap (fun v => u8 (vstateCode (tget x.versions v)) ++ u32 (((tget x.versions v).map (·.bind)).getD 0))
        ++ u32 x.hot.length)

def execGthTableQuery (m : Moment) (r : Req) (s : State) : Out :=
  .next (runCommand opGthTableQuery bodyGthTableQuery m r s)

end Sys2Proof.Machine
end

