-- ==== Sys2Proof/Machine/Swilan.lean ====
section
/-! DEFINITION. Swilan links: training, replay, credits, and what arrives from other chips (R101, R380 to R388, 13). -/

namespace Sys2Proof.Machine

/-! ### Link states (R385, R403) -/

def LState.code : LState → Nat
  | .disabled => 0
  | .training => 1
  | .up => 2
  | .degraded => 3
  | .absent => 4
  | .fault => 5

/-- SWL_LINK of a link. -/
def linkWord (l : Link) : Nat := l.cause * 2 ^ 24 + l.lanes * 2 ^ 16 + l.peerChip * 2 ^ 8 + l.lstate.code

/-- The chip that link `n` leads to (R380). -/
def linkPeer (s : State) (n : Nat) : Nat := (chip s + n + 1) % 8

/-- Changes a link's fields. -/
def modLink (n : Nat) (f : Link → Link) (s : State) : State := setLink n (f (getLink s n)) s

/-- The twin pairs with a chip, as they see its link go down or come up (R400). -/
def markPairs (c down : Nat) (s : State) : State :=
  { s with twn := { s.twn with pairs := s.twn.pairs.map (fun e => if e.2.peer = c then (e.1, { e.2 with ctDown := down }) else e) } }

/-- The request of a command that waits for another chip ends without its answer (R384, R388). -/
def failWait (w : SwlWait) (c : Nat) (s : State) : State :=
  match w with
  | .forwarded _ n => endOp n stLinkDown 0 [] s
  | .numberCheck n => endOp n stLinkDown 0 [] s
  | .claim f => claimAnswer f stLinkDown 0 [] s
  | .subQuery q => tchShardDone q c none s
  | .migrate f => migrateFail f stLinkDown 0 s
  | .twinSet r => answer r (.err s stLinkDown)

/-- What was in flight on a link fails with LINK_DOWN: requests, descriptors, migrations that arrive (R121, R384, R388). -/
def failTraffic (n : Nat) (s : State) : State :=
  let c := linkPeer s n
  let reqs := s.swl.reqs.filter (fun e => e.2.link = n)
  let s := { s with swl := { s.swl with reqs := s.swl.reqs.filter (fun e => e.2.link ≠ n) } }
  let s := reqs.foldl (fun s e => failWait e.2.wait c s) s
  let descs := tfind s.fdy.store (fun d => d.engine.isSome && d.data.isNone && ((d.srcChip = c && decide (d.srcTier ≤ 2)) ||
    (d.kind = .migratePage && d.dstTier ≠ 3 && d.dstChip = c)))
  let s := descs.foldl (fun s d => failDesc d stLinkDown s) s
  (tfind s.fdy.ops (fun f => f.kind = .migrate && f.inbound && f.chip = c)).foldl (fun s f => arrivalFailed f s) s

/-- Outstanding credits of a channel, as the SWILAN ledger has them. -/
def outstanding (s : State) (n vc : Nat) : Nat := (getLedger s Lg.swilan (swlInst n vc)).cols.getD 1 0

/-- The credits of a link are initialised again: what is outstanding goes to RESET (R307, R309). -/
def resetCredits (n : Nat) (s : State) : State :=
  (List.range 4).foldl (fun s vc =>
    let o := outstanding s n vc
    if o = 0 then s else post [⟨Lg.swilan, swlInst n vc, [(1, -(o : Int)), (0, (o : Int)), (7, (o : Int))]⟩] 0x0B 0 s) s

/-- A link enters a state; a change to or from UP, DEGRADED or FAULT is logged (R385, R405). -/
def enterState (n : Nat) (st : LState) (cause : Nat) (s : State) : State :=
  let l := getLink s n
  let passes (x : LState) : Bool := x = .up || x = .degraded
  let s := setLink n { l with lstate := st, cause, ctState := s.ct } s
  if st = .fault || passes st || passes l.lstate then
    note 0x0B01 (if st = .fault || (passes l.lstate && !passes st) then 1 else 0) 0xFF 0 [n, st.code, cause] s
  else s

/-- A link leaves UP or DEGRADED: its credits and buffers are reset, no marker is expected of it, and its traffic fails, but for twin
records (R309, R384). -/
def linkLost (n : Nat) (st : LState) (cause : Nat) (s : State) : State :=
  let s := resetCredits n { s with tly := { s.tly with markers := s.tly.markers.filter (fun x => x.link ≠ n) } }
  let s := enterState n st cause (modLink n (fun l => { l with
    avail := [256, 256, 256, 256], replay := [], replayCts := [], seqTx := 0, seqRx := 0, attempts := 0, twin := []
    queue := (l.twin ++ l.queue.filter (fun q => q.vc = 3)).map (fun q => { q with left := q.flits }) }) s)
  failTraffic n (markPairs (linkPeer s n) (max 1 s.ct) s)

/-- An UP or DEGRADED link trains again (R309, R384, R385): its cause is 0 for SWL_LINK_SET, 1 for a flit replayed three times,
2 for 16 REPLAY requests in 1 ms (DESIGN CHOICE, log entry 39). -/
def retrain (n cause : Nat) (s : State) : State :=
  let credits := ((List.range 4).map (outstanding s n)).sum
  let s := { s with tly := { s.tly with swlResets := s.tly.swlResets + 1 } }
  let s := modLink n (fun l => { l with retrains := l.retrains + 1 }) (linkLost n .training 0 s)
  note 0x0B02 1 0xFF 0 [n, cause, credits] s

/-- A link starts to train (R385). -/
def startTraining (n : Nat) (s : State) : State := enterState n .training 0 (modLink n (fun l => { l with attempts := 0, lanes := 0 }) s)

/-- A link is disabled: by SWL_LINK_SET hold, or by its power group (R385, R464). -/
def disableLink (n : Nat) (s : State) : State :=
  if (getLink s n).up then linkLost n .disabled 0 s else enterState n .disabled 0 s

/-- Shadows that an unreachable secondary holds are retired now that its link is up (R400). -/
def sendOwed (c : Nat) (s : State) : State :=
  let owed := s.twn.owed.filter (fun e => e.1 = c)
  owed.foldl (fun s e => sendSwl (.swilan (linkTo s c) 3 10 0x0B03 [e.2, 1] (u8 e.2)) s)
    { s with twn := { s.twn with owed := s.twn.owed.filter (fun e => e.1 ≠ c) } }

/-- A link comes UP, or DEGRADED on four lanes (R385). -/
def linkCome (n : Nat) (id : TrainId) (s : State) : State :=
  let st : LState := if id.lanes % 256 = 0xFF then .up else .degraded
  let s := modLink n (fun l => { l with
    avail := [256, 256, 256, 256], sent := [0, 0, 0, 0], received := [0, 0, 0, 0], creditsOut := [0, 0, 0, 0]
    creditsIn := [0, 0, 0, 0], seqTx := 0, seqRx := 0, attempts := 0 }) s
  let s := markPairs (linkPeer s n) 0 (enterState n st 0 s)
  pumpLink n (sendOwed (linkPeer s n) s)

/-! ### Training -/

/-- SWL_TRAIN_IDENTITY: the outcome of a training that found a peer. -/
def trainIdentity (n : Nat) (id : TrainId) (s : State) : State :=
  if 6 < n || (getLink s n).lstate ≠ .training || !s.elec.sdref then s
  else
    let good := popcount 8 id.lanes
    let s := modLink n (fun l => { l with lanes := id.lanes % 256, empty := false }) s
    if good < 4 then
      let k := (getLink s n).attempts + 1
      let s := modLink n (fun l => { l with attempts := k }) s
      if 3 ≤ k then enterState n .fault 3 s else s
    else
      let s := modLink n (fun l => { l with peerChip := id.chip % 8, peerCode := id.code }) s
      if id.chip ≠ linkPeer s n || id.link ≠ 6 - n then enterState n .fault 1 s
      else if id.release ≠ s.bench.fwVersion / 65536 then enterState n .fault 2 s
      else linkCome n id s

def execSwlTrainIdentity (m : Moment) (link : Nat) (id : TrainId) (s : State) : Out :=
  .next (settleAll m (trainIdentity link id (s.at m)))

/-- SWL_TRAIN_TIMEOUT: no signal from a peer within 100 ms. -/
def execSwlTrainTimeout (m : Moment) (link : Nat) (s : State) : Out :=
  let s := s.at m
  let l := getLink s link
  .next (if decide (link ≤ 6) && l.lstate = .training && l.attempts = 0 && decide (l.ctState + 100000000 ≤ s.ct) then
    enterState link .absent 0 (setLink link { l with empty := true } s) else s)

/-- SWL_ABSENT_RETRY: 1 s in ABSENT. -/
def execSwlAbsentRetry (m : Moment) (link : Nat) (s : State) : Out :=
  let s := s.at m
  let l := getLink s link
  .next (if decide (link ≤ 6) && l.lstate = .absent && decide (l.ctState + 1000000000 ≤ s.ct) then startTraining link s else s)

/-! ### Replay and credits (R383, R384) -/

/-- A REPLAY request is counted; the sixteenth within 1 ms makes the link retrain. -/
def countReplay (n : Nat) (s : State) : State :=
  let l := getLink s n
  let l := { l with replayCts := l.replayCts.filter (fun c => decide (s.ct < c + 1000000)) ++ [s.ct] }
  let s := setLink n l s
  if 16 ≤ l.replayCts.length then retrain n 2 s else s

/-- SWL_FLIT_CRC_ERROR: a flit is discarded and REPLAY is sent, from ACK_SEQ + 1. -/
def execSwlFlitCrcError (m : Moment) (link : Nat) (s : State) : Out :=
  let s := s.at m
  .next (if (getLink s link).up then
    settleAll m (countReplay link (emit (.swilan link 0 33 (getLink s link).seqRx [] []) (bump .swlCrc noPart 1 s))) else s)

/-- The flits that remain once those up to `ack` are acknowledged; all of them where none has that number. -/
def afterAck (l : List ReplayFlit) (ack : Nat) : List ReplayFlit :=
  if l.any (fun f => f.seq = ack) then (l.dropWhile (fun f => f.seq ≠ ack)).drop 1 else l

/-- SWL_REPLAY_REQUEST: every flit after ACK_SEQ is sent again, in order. -/
def execSwlReplayRequest (m : Moment) (link ackSeq : Nat) (s : State) : Out :=
  let s := s.at m
  let l := getLink s link
  if !l.up then .next s
  else
    let left := afterAck l.replay ackSeq
    if left.any (fun f => decide (3 ≤ f.replays)) then .next (settleAll m (retrain link 1 s))
    else
      let s := setLink link { l with replay := left.map (fun f => { f with replays := f.replays + 1 }) } s
      .next (settleAll m (countReplay link (emit (.swilan link 0 32 ackSeq (left.map (·.seq)) []) (bump .swlReplays noPart left.length s))))

/-- Acknowledges flits of the twin records that have been sent, oldest first. -/
def ackTwin : Nat → List SwlMsg → List SwlMsg
  | _, [] => []
  | k, q :: l => if k < q.left then { q with left := q.left - k } :: l else ackTwin (k - q.left) l

/-- Drops the oldest `k` flits of a channel from a replay buffer. -/
def ackFlits (vc : Nat) : Nat → List ReplayFlit → List ReplayFlit
  | 0, l => l
  | _, [] => []
  | k + 1, f :: l => if f.vc = vc then ackFlits vc k l else f :: ackFlits vc (k + 1) l

/-- SWL_CREDIT_RETURN: credits of a channel come back, and its oldest flits are acknowledged with them (DESIGN CHOICE, log
entry 38). -/
def execSwlCreditReturn (m : Moment) (link vc count : Nat) (s : State) : Out :=
  let s := s.at m
  let l := getLink s link
  if !l.up || decide (3 < vc) then .next s
  else
    let k := min count (outstanding s link vc)
    let l := { l with
      avail := addAt l.avail vc k, creditsIn := addAt l.creditsIn vc count, replay := ackFlits vc k l.replay, twin := if vc = 3 then ackTwin k l.twin else l.twin }
    let s := post [⟨Lg.swilan, swlInst link vc, [(1, -(k : Int)), (0, (k : Int))]⟩] 0x0B 0 (setLink link l s)
    .next (pumpLink link s)

/-! ### The directory's requests from other chips (R101, R388) -/

/-- What a claim's answer carries: the entry (log entry 13). -/
def claimBytes (s : State) (id : Nat) : Bytes := match getDir s id with | some e => dirBytes e | none => zeros 128

/-- This chip gives up what only a parked session has here, now that it is ACTIVE on another chip: its credit and its cast image (R112,
R306). Its journal stays (R79), and so do the frames that its entries name, until the raise releases them with a message (R112). -/
def leaveImage (id : Nat) (s : State) : State :=
  let t := getStore s id
  match t.image with
  | none => s
  | some x =>
    let s := creditOut x.cls x.credit id s
    let s := dropTables id s
    modStore id (fun t => { t with
      image := none, imageAddr := 0, imageSize := 0, pages := { t.pages with ptes := t.pages.ptes.filter (fun e => e.2.here s) } }) s

/-- Frames of this chip that a session's entries on another chip no longer name (R112, R139). -/
def releaseFrames (id : Nat) (l : List Nat) (s : State) : State :=
  l.foldl (fun s w =>
    let e := Pte.ofNat w
    let s := modStore id (fun t => { t with pages := { t.pages with ptes := t.pages.ptes.filter (fun x => x.2.toNat ≠ w) } }) s
    if e.here s then dropPte e id s else s) s

/-- Tells the chip that holds a session's cast image what has become of the session. -/
def tellImage (e : DirEntry) (from_ code : Nat) (s : State) : State :=
  let c := e.imageLoc / 2 ^ 61
  if c = chip s || c = from_ then s else sendSwl (.swilan (linkTo s c) 0 1 e.id [code, e.activeChip, e.activeSlot] []) s

/-- A claim by another chip (R101, R109, R113): the answer's status, `detail` and data, and the state. -/
def dirClaim (m : Moment) (id c slot : Nat) (ahead : Bool) (s : State) : Nat × Nat × Bytes × State :=
  match getDir s id with
  | none =>
    match fopOf s id [.runAhead] with
    | some _ => let a := promoteBody m id true s; (a.status, a.detail, [], a.st)
    | none => (stGone, 0, [], s)
  | some e =>
    match e.dstate with
    | .parked =>
      let s := setDir id { e with dstate := .claimed, provisional := ahead, activeChip := c, activeSlot := slot } s
      (0, 0, claimBytes s id, s)
    | .claimed =>
      if !e.provisional || ahead then (stWrong, e.activeChip, [], s)
      else if e.activeChip = chip s then
        let a := promoteBody m id true s
        (a.status, a.detail, [], a.st)
      else (0, e.activeChip, [], sendSwl (.swilan (linkTo s e.activeChip) 0 1 id [DState.claimed.code, e.activeChip, 0] []) s)
    | .active => (stWrong, e.activeChip, [], s)
    | .exported => (stGone, 1, [], s)
    | _ => (stGone, 0, [], s)

/-- Chip `from_`, which holds the claim or the session, makes the entry ACTIVE in a slot: a raise leaves RAISING, or a migration is
confirmed (R101, R121, R306). The home tells the chip that holds the image, which has no entry. -/
def dirActivate (from_ id c slot : Nat) (s : State) : State :=
  match getDir s id with
  | none => leaveImage id s
  | some e =>
    if e.activeChip ≠ from_ || !(e.dstate = .claimed || e.dstate = .active) then s
    else
      let s := setDir id { e with dstate := .active, provisional := false, activeChip := c, activeSlot := slot } s
      if e.dstate = .claimed then leaveImage id (tellImage e c DState.active.code (bindGen e.tableGen (-1) s)) else s

/-- A cast of a session homed here commits on the chip that holds it (R101, R103). The home keeps what only it writes: the cut and the
peer. -/
def dirPark (from_ id : Nat) (b : Bytes) (s : State) : State :=
  match getDir s id with
  | none => s
  | some e =>
    if e.dstate ≠ .active || e.activeChip ≠ from_ then s
    else
      let x := dirOfBytes b
      bindGen x.tableGen 1 (setDir id { x with id, dstate := .parked, ckptCut := e.ckptCut, exportPeer := e.exportPeer } s)

/-- The home's entry of a session that chip `from_` holds, active or by a claim. -/
def heldBy (s : State) (id from_ : Nat) : Option DirEntry :=
  (getDir s id).filter (fun e => e.activeChip = from_ && (e.dstate = .active || e.dstate = .claimed))

/-- A session is retired without delivery, wherever this chip holds it. -/
def retireNow (id : Nat) (s : State) : State :=
  let s := endFops id stGone s
  match getSess s id with
  | some x =>
    let s := match x.inflight with | some f => maskRow id f.inv s | none => s
    retireActive x s
  | none =>
    match getDir s id with
    | some e => if parkedHere e then retireParked id e s else s
    | none => s

/-- A session that this chip is home to, or holds, or holds the image of, has been retired, or is retired with its home's
partition (R64, R101, R454). An entry that is CLAIMED or EXPORTED has no such change (R101). -/
def dirRetire (id : Nat) (s : State) : State :=
  if (getDir s id).any (fun e => e.dstate = .claimed || e.dstate = .exported) then s else
  let s := if (getSess s id).isSome then retireNow id s else s
  let t := getStore s id
  let s := match t.image with | some x => creditOut x.cls x.credit id s | none => s
  if (getDir s id).isSome || thas s.pln.store id then releaseAll id s else s

/-- One directory access of the chip at the other end of a link. -/
def dirRequest (m : Moment) (link tag : Nat) (a : DirAccess) (s : State) : State :=
  let c := linkPeer s link
  let tell (st d : Nat) (b : Bytes) (s : State) : State := sendSwl (.swilan link 1 1 tag [st, d] b) s
  match a with
  | .read id => match getDir s id with
    | some e => tell 0 0 (dirBytes e) s
    | none => tell stGone 0 [] s
  | .claim id k slot ahead =>
    let (st, d, b, s) := dirClaim m id k slot ahead s
    tell st d b s
  | .unclaim id => match fopOf s id [.runAhead], getDir s id with
    | some (n, _), _ => cancelRunAhead n 4 s
    | none, some e => if e.dstate = .claimed && e.activeChip = c then setDir id (unclaim e) s else s
    | none, none => s
  | .activate id k slot => dirActivate c id k slot s
  | .retire id => dirRetire id s
  | .export_ id peer => match heldBy s id c with
    | some e =>
      if e.dstate = .active then setDir id { e with dstate := .exported, exportPeer := peer, activeChip := 0, activeSlot := 0 } s else s
    | none => s
  | .park id b => dirPark c id b s
  | .promote id slot => match heldBy s id c with
    | some e => if e.dstate = .claimed then setDir id { e with provisional := false, activeSlot := slot } s else s
    | none => s
  | .cut id cut => modDir id (fun e => { e with ckptCut := cut }) s
  | .disarm id => modDir id (fun e => if e.kept then { e with armChain := ones32, flags := setFlag e.flags Fl.armed false } else e) s
  | .release id l => releaseFrames id l s

/-- The bytes that a directory request carries beside its command: a parked entry, or the entries of released frames (R99, R383). -/
def dirData : DirAccess → Nat
  | .park _ b => b.length
  | .release _ l => 8 * l.length
  | _ => 0

/-- SWL_DIR_REQUEST (R101, R388). -/
def execSwlDirRequest (m : Moment) (link tag : Nat) (a : DirAccess) (s : State) : Out :=
  let s := s.at m
  .next (if (getLink s link).up then
    settleAll m (dirRequest m link tag a (swlGot link 0 (dirData a) s)) else s)

/-! ### Answers and bulk data (R383, R387) -/

/-- The answer to a request of this chip (R387). -/
def swlAnswer (w : SwlWait) (status detail : Nat) (b : Bytes) (s : State) : State :=
  match w with
  | .forwarded r n =>
    if status = 0 && r.hdr.opcode = 0x010A then endReply n (replyData r b.length b [] s) else endOp n status detail b s
  | .numberCheck n => numberAnswer n status b s
  | .claim f => claimAnswer f status detail b s
  | .subQuery _ => s
  | .migrate f => if status = 0 then s else migrateFail f status detail s
  | .twinSet r =>
    if status ≠ 0 then answer r (.err s status detail)
    else
      let p := r.f 0 1
      let x : Pair := { secondary := false, peer := r.f 1 1, onLoss := r.f 2 1, depth := r.f 3 1, timeout := r.f 4 4 }
      let s := { s with twn := { s.twn with pairs := tset s.twn.pairs p x } }
      answer r (.ok (note 0x0B05 0 p 0 [p, chip s, x.peer] s))

/-- SWL_RESPONSE: an answer on VC1. -/
def execSwlResponse (m : Moment) (reqNo status detail : Nat) (result : Bytes) (s : State) : Out :=
  let s := s.at m
  match tget s.swl.reqs reqNo with
  | none => .next s
  | some q =>
    let s := swlGot q.link 1 result.length { s with swl := { s.swl with reqs := tdel s.swl.reqs reqNo } }
    .next (settleAll m (swlAnswer q.wait status detail result s))

/-- SWL_BULK_DATA: the data of a descriptor that reads another chip (R383). What they are to be written to off this chip follows. -/
def execSwlBulkData (m : Moment) (link desc : Nat) (data : Bytes) (s : State) : Out :=
  let s := s.at m
  if !(getLink s link).up then .next s
  else
    let s := swlGot link 2 data.length s
    .next (match tget s.fdy.store desc with
      | some d =>
        if d.engine.isSome && d.srcChip = linkPeer s link && awaits s d && d.srcTier ≠ 3 then
          (match sourceIn desc d data s with
          | .ok s => s
          | .error st => failDesc desc st s)
        else s
      | none => s)

/-! ### SWL_QUERY and SWL_LINK_SET (R406) -/

def opSwlQuery : OpInfo := { opcode := 0x0B00, mctp := true }

/-- The 20 bytes of a link. -/
def linkBytes (l : Link) : Bytes :=
  u32 (linkWord l) ++ u16 l.peerCode ++ zeros 2 ++ u32 (sat 32 l.retrains) ++ (takeD 4 0 l.avail).flatMap u16

/-- SWL_QUERY. -/
def bodySwlQuery (_ : Moment) (r : Req) (s : State) : Reply :=
  let n := r.f 0 1
  if n = 0xFF then .ok s ((List.range 7).flatMap (fun k => linkBytes (getLink s k)))
  else if 6 < n then .err s St.badField
  else .ok s (linkBytes (getLink s n))

def execSwlQuery (m : Moment) (r : Req) (s : State) : Out := .next (runCommand opSwlQuery bodySwlQuery m r s)

def opSwlLinkSet : OpInfo := { opcode := 0x0B01, pf0 := true }

/-- SWL_LINK_SET: retrain, hold or release. An action for which R385 has no row has no effect (DESIGN CHOICE, log entry 39). -/
def bodySwlLinkSet (_ : Moment) (r : Req) (s : State) : Reply :=
  let n := r.f 0 1
  let a := r.f 1 1
  if 6 < n || 2 < a then .err s St.badField
  else
    let l := getLink s n
    match a, l.lstate with
    | 0, .fault => .ok (startTraining n s)
    | 0, _ => .ok (if l.up then retrain n 0 s else s)
    | 1, _ => .ok (disableLink n s)
    | _, .disabled => .ok (if (getGroup s (0x30 + n)).state < 2 then s else startTraining n s)
    | _, _ => .ok s

def execSwlLinkSet (m : Moment) (r : Req) (s : State) : Out := .next (runSettled opSwlLinkSet bodySwlLinkSet m r s)

end Sys2Proof.Machine
end

