-- ==== Sys2Proof/Machine/Tally.lean ====
section
/-! DEFINITION. The Tally's audit, its evidence and its commands, and device-fatal errors (R303 to R316, 10; R505, 17). -/

namespace Sys2Proof.Machine

namespace St
def noEvidence : Nat := 0x0801
def modeLocked : Nat := 0x0802
def internalFault : Nat := 0x0F08
def uncorrectable : Nat := 0x0F03
end St

/-! ### Invariants and unit views (R305) -/

/-- Column `i` of a list of columns. -/
def colAt (c : List Nat) (i : Nat) : Nat := c.getD i 0

/-- The pool of an instance of the FRAME or REFERENCE ledger. -/
def poolOfInst (s : State) (i : Nat) : Option Pool := s.frames.pools.find? (fun x => poolInst x.id = i)

/-- The differences of an epoch. -/
def epochDelta (l : Ledger) : List Int := (List.range 8).map (fun i => (colAt l.cols i : Int) - colAt l.mark i)

/-- Whether the invariant of an instance holds, over an epoch's differences for its flows. -/
def invariantHolds (s : State) (code inst : Nat) (l : Ledger) : Bool :=
  let c := colAt l.cols
  let d := fun i => (epochDelta l).getD i 0
  let pool := ((poolOfInst s inst).map (·.size)).getD 0
  match code with
  | 0x01 => c 0 + c 1 + c 2 = 65536
  | 0x02 => c 0 + c 1 + c 2 + c 3 + c 4 + c 5 = 16777216
  | 0x03 => c 0 + c 1 + c 2 + c 3 = pool
  | 0x04 =>
    let f := colAt (getLedger s Lg.frame inst).cols
    c 0 = c 1 + c 2 + c 3 + c 4 && c 5 = f 1 + f 2 + f 3
  | 0x05 => d 0 = d 1 + d 2 + d 3 - d 4 - d 5 - d 6
  | 0x06 =>
    let k := (epochDelta (getLedger s Lg.credit inst)).getD 4 0
    d 3 = d 4 + d 5 && k = 1000 * d 0
  | 0x07 => c 0 + c 1 + c 2 = 16384
  | 0x08 => c 0 + c 1 = 65536 && d 2 = d 4 - d 5 - d 6 && (c 2 ≠ 0 || c 3 = 0)
  | 0x09 => c 0 + c 1 + c 2 + c 3 + c 4 = mbxCount inst
  | 0x0A => c 0 + c 1 = 4096
  | 0x0B => c 0 + c 1 = 64
  | 0x0C => c 0 + c 1 + c 2 = 4096
  | 0x0D => c 0 + c 1 = 256 && c 2 + c 3 + c 4 = 256
  | _ => true

/-- The unit view of an instance: the columns that the owning unit counts for itself. -/
def unitView (s : State) (code inst : Nat) : List (Nat × Nat) :=
  match code with
  | 0x01 =>
    let n := (s.pln.slots.filter (fun e => e.2.st = .raising || e.2.st = .migratingIn)).length
    [(0, slotsFree s), (1, s.pln.slots.length - n), (2, n)]
  | 0x02 => [(0, dirFree s)]
  | 0x03 => [(0, ((poolOfInst s inst).map (fun x => freeCount s x.id)).getD 0)]
  | 0x04 =>
    let fs := s.frames.frames.filter (fun e => poolInst e.2.pool = inst)
    [(0, (fs.map (fun e => e.2.refs)).sum), (5, fs.length)]
  | 0x07 => [(2, ((tget s.pla.rings inst).map (fun x => x.spill.length)).getD 0)]
  | 0x08 => [(1, storeDepth s), (3, ((s.fdy.store.filter (fun e => e.2.engine.isSome)).map (fun e => e.2.length)).sum)]
  | 0x09 => [Own.posted, .taken, .running, .done].map (fun o =>
      (ownCol o, (s.bench.mbx.filter (fun e => e.1 / 256 = inst && e.2.own = o)).length))
  | 0x0A => [(0, 4096 - s.tch.queries.length)]
  | 0x0B => [(1, (((tget s.net.qps inst).map (fun q => q.rx)).getD []).countP (fun e => e.2.held))]
  | 0x0C => [(1, s.net.staging)]
  | 0x0D =>
    let a := (getLink s (inst / 4)).avail.getD (inst % 4) 0
    [(0, a), (1, 256 - a)]
  | _ => []

/-! ### LEDGER_BREACH (R312, R313) -/

/-- A 32-byte trace entry. -/
def traceBytes (code inst : Nat) (t : TraceEntry) : Bytes :=
  u64 t.ct ++ u8 code ++ u8 t.src ++ u8 t.dst ++ u8 t.unit ++ u32 inst ++ u64 t.amount ++ u64 t.session

/-- The 5,680-byte evidence record. -/
def evidenceBytes (s : State) (code inst check ct : Nat) : Bytes :=
  let l := getLedger s code inst
  let view := unitView s code inst
  let body := u32 0x31454C54 ++ u8 code ++ u8 check ++ u16 0 ++ u32 inst ++ u8 (instPart s code inst) ++ zeros 3 ++ u64 ct
    ++ u64 s.tly.epoch ++ (takeD 8 0 l.cols).flatMap u64 ++ (epochDelta l).flatMap (fun d => u64 (ofSigned 64 d))
    ++ (List.range 8).flatMap (fun i => u64 ((view.lookup i).getD 0)) ++ deviceId
    ++ fit 2048 (l.trace.flatMap (traceBytes code inst))
  body ++ aliasSign s body ++ zeros 3

/-- A failed check: the device freezes unless REPORT_ONLY is set, the breach is logged and its evidence written; the records of
before an orderly reset give way to the first one after it. -/
def breach (code inst check ct : Nat) (s : State) : State :=
  let rec_ := evidenceBytes s code inst check ct
  let s := note 0x0F01 3 (instPart s code inst) 0 [code, inst] (if s.tly.reportOnly then s else freeze 0x0F01 s)
  let held := if s.err.evidenceOld then [] else s.err.evidence
  let s := { s with tly := { s.tly with breach := true } }
  if held.length < 8 then { s with err := { s.err with evidence := held ++ [rec_], evidenceOld := false } }
  else { s with tly := { s.tly with evidenceLost := s.tly.evidenceLost + 1 } }

/-! ### The audit (R308, R309) -/

/-- Instances that an audit checks: those that have been posted to, and the chip-wide ones. -/
def auditKeys (s : State) : List Nat :=
  (([Lg.slot, Lg.directory, Lg.descriptor, Lg.context, Lg.staging].map (fun c => ledgerKey c 0)) ++ tkeys s.tly.ledgers).eraseDups

/-- The failing check of an instance: 0 its invariant, 1 its unit view. -/
def auditFails (s : State) (code inst : Nat) : Option Nat :=
  let l := getLedger s code inst
  if !invariantHolds s code inst l then some 0
  else if (unitView s code inst).any (fun v => v.2 ≠ colAt l.cols v.1) then some 1
  else none

/-- Closes the epoch of every ledger. -/
def closeEpoch (s : State) : State :=
  { s with tly := { s.tly with
    epoch := s.tly.epoch + 1
    ledgers := s.tly.ledgers.map (fun e => (e.1, { e.2 with delta := epochDelta e.2, mark := e.2.cols })) } }

/-- Places an audit marker in each channel of a link that is up, and expects the peer's (R309). -/
def placeMarkers (ct n : Nat) (s : State) : State :=
  let l := getLink s n
  if !l.up then s
  else
    (List.range 4).foldl (fun s vc =>
      emit (.swilan n vc 35 ct [l.sent.getD vc 0, l.creditsOut.getD vc 0] [])
        { s with tly := { s.tly with markers := s.tly.markers ++ [{ link := n, vc, ct }] } }) s

/-- What the audits completed by now show: how many, the ct of the last, and the longest in ns (R308, R314). -/
def auditsDone (s : State) : Nat × Nat × Nat :=
  let t := s.tly
  match t.auditing with
  | some ct => if t.auditEnd ≤ s.ct then (t.audits + 1, ct, max t.timeMax (t.auditEnd - ct)) else (t.audits, t.auditCt, t.timeMax)
  | none => (t.audits, t.auditCt, t.timeMax)

/-- An audit that has ended is counted. -/
def countAudit (s : State) : State :=
  let (n, ct, time) := auditsDone s
  { s with tly := { s.tly with
    audits := n, auditCt := ct, timeMax := time, auditing := if s.tly.auditEnd ≤ s.ct then none else s.tly.auditing } }

/-- The audit at a ct: every instance is checked and the epoch closes. Its duration in ns is the device's pick (R308; log entry 2). -/
def audit (m : Moment) (s : State) : State :=
  let ct := s.ct
  let fails := (auditKeys s).filterMap (fun k => (auditFails s (k / 2 ^ 32) (k % 2 ^ 32)).map (fun c => (k, c)))
  let s := fails.foldl (fun s e => breach (e.1 / 2 ^ 32) (e.1 % 2 ^ 32) e.2 ct s) s
  let s := (List.range 7).foldl (fun s n => placeMarkers ct n s) (closeEpoch s)
  { s with tly := { s.tly with auditing := some ct, auditEnd := ct + m.choice.getD 0 0, delayed := false } }

/-- An audit ct comes while the audit before still runs: it is delayed until that one completes (R308, R315). -/
def delayAudit (ct : Nat) (s : State) : State :=
  note 0x0801 1 0xFF 0 [ct, s.tly.auditEnd - ct] { s with tly := { s.tly with overruns := s.tly.overruns + 1, delayed := true } }

/-- TALLY_AUDIT: at each multiple of 100,000 ns, or, for an audit delayed, when the audit before it has completed. -/
def tallyAudit (m : Moment) (s : State) : State :=
  let s := countAudit s
  let due := decide (s.ct % 100000 = 0)
  if s.bench.bootPhase < 7 then s
  else
    match s.tly.auditing with
    | some ct => if due && !s.tly.delayed then delayAudit ct s else s
    | none => if due || s.tly.delayed then audit m s else s

def execTallyAudit (m : Moment) (s : State) : Out := .next (tallyAudit m (s.at m))

/-- SWL_MARKER_RECEIVE: the peer's SENT count against this side's RECEIVED, and in the other direction the credits that it has returned
against those that came back here (R309). -/
def execSwlMarkerReceive (m : Moment) (link vc auditCt : Nat) (counts : MarkerCounts) (s : State) : Out :=
  let s := s.at m
  let l := getLink s link
  if !l.up || decide (3 < vc) then .next s
  else
    let s := { s with tly := { s.tly with markers := s.tly.markers.filter (fun x => !(x.link = link && x.vc = vc && x.ct = auditCt)) } }
    .next (if l.received.getD vc 0 = counts.sent && l.creditsIn.getD vc 0 = counts.returned then s else breach Lg.swilan (swlInst link vc) 2 auditCt s)

/-- SWL_MARKER_TIMEOUT: a marker that has not come within 1 ms of its audit is a failed check. -/
def execSwlMarkerTimeout (m : Moment) (link vc auditCt : Nat) (s : State) : Out :=
  let s := s.at m
  let due := s.tly.markers.any (fun x => x.link = link && x.vc = vc && x.ct = auditCt)
  if due && decide (auditCt + 1000000 ≤ s.ct) then
    .next (breach Lg.swilan (swlInst link vc) 2 auditCt
      { s with tly := { s.tly with markers := s.tly.markers.filter (fun x => !(x.link = link && x.vc = vc && x.ct = auditCt)) } })
  else .next s

/-! ### Commands (R311, R316) -/

def opTlyRead : OpInfo := { opcode := 0x0800, mctp := true, rsvd := [(1, 3)] }

/-- Whether an instance lies within a ledger's scope. -/
def instExists (s : State) (code inst : Nat) : Bool :=
  match code with
  | 0x03 => (poolOfInst s inst).isSome
  | 0x04 => (poolOfInst s inst).isSome
  | 0x05 => thas s.pla.classes inst
  | 0x06 => thas s.pla.classes inst
  | 0x07 => thas s.pla.rings inst
  | 0x09 => decide (inst ≤ 16)
  | 0x0B => thas s.net.qps inst
  | 0x0D => decide (inst < 28)
  | c => decide (1 ≤ c) && decide (c ≤ 0x0D) && inst = 0

/-- TLY_READ; a chip-wide instance belongs to no partition. -/
def bodyTlyRead (_ : Moment) (r : Req) (s : State) : Reply :=
  let code := r.f 0 1
  let inst := r.f 4 4
  if !instExists s code inst || !r.reaches (instPart s code inst) then .err s St.badField
  else
    let l := getLedger s code inst
    .ok s ((takeD 8 0 l.cols).flatMap u64 ++ (takeD 8 0 l.delta).flatMap (fun d => u64 (ofSigned 64 d)) ++ u32 (b2n l.sat))

def execTlyRead (m : Moment) (r : Req) (s : State) : Out := .next (runCommand opTlyRead bodyTlyRead m r s)

def opTlyEvidence : OpInfo := { opcode := 0x0801, pf0 := true, mctp := true }

/-- TLY_EVIDENCE: the record through the scatter list; without one, the bytes of it that the payload area holds (DESIGN CHOICE,
log entry 43). -/
def bodyTlyEvidence (_ : Moment) (r : Req) (s : State) : Reply :=
  let i := r.f 0 1
  if 7 < i then .err s St.badField
  else
    match s.err.evidence[i]? with
    | none => .err s St.noEvidence
    | some b => if r.hdr.sgCount = 0 then .ok s (b.take 3968) else replyData r b.length b [] s

def execTlyEvidence (m : Moment) (r : Req) (s : State) : Out := .next (runCommand opTlyEvidence bodyTlyEvidence m r s)

def opTlyConfig : OpInfo := { opcode := 0x0802, pf0 := true }

/-- TLY_CONFIG. -/
def bodyTlyConfig (_ : Moment) (r : Req) (s : State) : Reply :=
  let v := r.f 0 1
  if 1 < v then .err s St.badField
  else if v = 1 && s.hmk.production then .err s St.modeLocked
  else .ok { s with tly := { s.tly with reportOnly := v = 1 } }

def execTlyConfig (m : Moment) (r : Req) (s : State) : Out := .next (runCommand opTlyConfig bodyTlyConfig m r s)

end Sys2Proof.Machine
end

