-- ==== Sys2Proof/Machine/Twin.lean ====
section
/-! DEFINITION. Twin pairs: their forming, clearing and loss, and what the pair's chips send each other (R393 to R400, 13). -/

namespace Sys2Proof.Machine

namespace St
def twinNotEmpty : Nat := 0x0B03
def twinMismatch : Nat := 0x0B04
def twinBusy : Nat := 0x0B07
end St

/-! ### TWIN_SET (R393) -/

def opTwinSet : OpInfo := { opcode := 0x0B02, view := true, pf0 := true }

/-- Whether a partition is enabled here and has no session of any state (R393). -/
def partIdle (s : State) (p : Nat) : Bool :=
  (getPart s p).pstate = .active && !s.pln.slots.any (fun e => e.2.partition = p) && !s.pln.dir.any (fun e => e.2.partition = p)
    && !s.fdy.imports.any (fun e => e.2.partition = p)

/-- Digest of the image in a READY slot of a partition. -/
def readyDigest (s : State) (p k : Nat) : Option Bytes :=
  match tget s.tile.models k with
  | some x => if x.mstate = .ready && x.partition = p then some (fit 32 x.hdr.digest) else none
  | none => none

/-- Digests of the partition's RESIDENT generations, by number. -/
def genDigests (s : State) (p : Nat) : List (Nat × Bytes) :=
  (s.txt.gens.filter (fun e => e.2.gstate = .resident && e.2.partition = p)).map (fun e => (e.1, fit 32 e.2.digest))

/-- What the primary tells of the partition: whether it is idle, and its images and generations (log entry 13). -/
def twinOffer (s : State) (p : Nat) : Bytes :=
  let slots := (List.range 64).filterMap (fun k => (readyDigest s p k).map (fun d => u8 k ++ d))
  let gens := genDigests s p
  u8 (b2n (partIdle s p)) ++ u8 slots.length ++ u16 gens.length ++ slots.flatten ++ gens.flatMap (fun g => u16 g.1 ++ g.2)

/-- The first model slot or generation in which an offer and this chip differ (R393). -/
def twinDiffers (s : State) (p : Nat) (b : Bytes) : Option Nat :=
  let ns := field b 1 1
  let slots := (List.range ns).map (fun i => (field b (4 + 33 * i) 1, slice b (5 + 33 * i) 32))
  let gens := (List.range (field b 2 2)).map (fun i => (field b (4 + 33 * ns + 34 * i) 2, slice b (6 + 33 * ns + 34 * i) 32))
  match (List.range 64).find? (fun k => slots.lookup k ≠ readyDigest s p k) with
  | some k => some k
  | none =>
    let mine := genDigests s p
    ((bestOf (fun a b => decide (a ≤ b)) 128 ((gens ++ mine).map (·.1)).eraseDups).find? (fun g => gens.lookup g ≠ mine.lookup g)).map
      (0x10000 + ·)

/-- The secondary's part of TWIN_SET: its checks, in order, and its side of the pair. -/
def twinJoin (r : Req) (link : Nat) (s : State) : Reply :=
  let p := r.f 0 1
  let offer := r.payload.drop 0x10
  if thas s.twn.pairs p then .err s St.twinBusy
  else if field offer 0 1 = 0 || !partIdle s p then .err s St.twinNotEmpty
  else
    match twinDiffers s p offer with
    | some d => .err s St.twinMismatch d
    | none =>
      let c := linkPeer s link
      let x : Pair := { secondary := true, peer := c, onLoss := r.f 2 1, depth := r.f 3 1, timeout := r.f 4 4 }
      .ok (note 0x0B05 0 p 0 [p, c, chip s] { s with twn := { s.twn with pairs := tset s.twn.pairs p x } })

/-- TWIN_SET: the primary checks the link and its own pair, and asks the secondary for the rest. -/
def bodyTwinSet (_ : Moment) (r : Req) (s : State) : Reply :=
  match r.src with
  | .forwarded link _ _ => twinJoin r link s
  | _ =>
    let p := r.f 0 1
    let c := r.f 1 1
    if 15 < p || 7 < c || c = chip s || 1 < r.f 2 1 || r.f 3 1 = 0 || 8 < r.f 3 1 || r.f 4 4 < 100000 || 100000000 < r.f 4 4 then
      .err s St.badField
    else
      match tdispCheck opTwinSet r p s with
      | .error st => .err s st
      | .ok _ =>
        if !linkUp s c then .err s stLinkDown
        else if thas s.twn.pairs p then .err s St.twinBusy
        else .wait (swlAsk c (.twinSet r) 2 p [0x0B02, 0, 0xFF] (fit 0x10 r.payload ++ twinOffer s p) s)

def execTwinSet (m : Moment) (r : Req) (s : State) : Out := .next (runCommand opTwinSet bodyTwinSet m r s)

/-! ### TWIN_CLEAR (R400) -/

def opTwinClear : OpInfo := { opcode := 0x0B03, pf0 := true }

/-- Sessions of a partition on this chip, active or parked. -/
def partSessions (s : State) (p : Nat) : List Nat :=
  ((s.pln.slots.filter (fun e => e.2.partition = p)).map (fun e => e.2.id)
    ++ (s.pln.dir.filter (fun e => e.2.partition = p && e.2.dstate ≠ .exported)).map (fun e => e.2.id)).eraseDups

/-- Shadows of a partition. -/
def shadows (s : State) (p : Nat) : List Nat := (partSessions s p).filter (isShadow s)

/-- Retires every shadow of a partition. -/
def retireShadows (p : Nat) (s : State) : State :=
  let s := (shadows s p).foldl (fun s id => retireNow id s) s
  { s with twn := { s.twn with grants := s.twn.grants.filter (fun g => (getSess s g.1).isSome) } }

/-- A pair's comparison ends and what it holds is released unverified; the steps so released (R400). -/
def releaseAllSteps (p : Nat) (s : State) : Nat × State :=
  let steps := s.twn.steps.filter (fun e => (getSess s e.2.session).any (fun x => x.partition = p))
  let n := (steps.filter (fun e => e.2.committed)).length
  let s := steps.foldl (fun s e => releaseStep e.1 (dropStep e.1 s)) s
  (n, modPair p (fun x => { x with unverified := x.unverified + n }) (bump .twinUnverified p n s))

/-- A pair of this chip ends (R400): the primary's sessions go on as ordinary ones, a secondary retires its shadows. -/
def twinEnd (p : Nat) (s : State) : State :=
  match tget s.twn.pairs p with
  | none => s
  | some x =>
    let s := if x.secondary then retireShadows p s else (releaseAllSteps p s).2
    { s with twn := { s.twn with pairs := tdel s.twn.pairs p } }

/-- TWIN_CLEAR; a partition without a pair has nothing to clear. -/
def bodyTwinClear (_ : Moment) (r : Req) (s : State) : Reply :=
  let p := r.f 0 1
  if 15 < p then .err s St.badField
  else
    match tdispCheck opTwinClear r p s with
    | .error st => .err s st
    | .ok _ => asOp r s 1 3 (partSessions s p).length true [p] fun _ s => s

def execTwinClear (m : Moment) (r : Req) (s : State) : Out := .next (runCommand opTwinClear bodyTwinClear m r s)

/-- The end of TWIN_CLEAR: the secondary is told, or owed the message while it cannot be reached. -/
def endTwinClear (n : Nat) (o : LongOp) (s : State) : State :=
  let p := o.args.getD 0 0
  if o.cancelling then endOp n St.cancelled 0 [] s
  else
    match tget s.twn.pairs p with
    | none => endOp n St.ok 0 (u32 0) s
    | some x =>
      let k := if x.secondary then (shadows s p).length else (partSessions s p).length
      let s :=
        if x.secondary then s
        else if linkUp s x.peer then sendSwl (.swilan (linkTo s x.peer) 3 10 0x0B03 [p, 1] (u8 p)) s
        else { s with twn := { s.twn with owed := s.twn.owed ++ [(x.peer, p)] } }
      endOp n St.ok 0 (u32 k) (twinEnd p s)

/-! ### TWIN_QUERY -/

def opTwinQuery : OpInfo := { opcode := 0x0B04, mctp := true }

/-- TWIN_PAIR of a partition (R403). -/
def pairWord (s : State) (p : Nat) : Nat :=
  match tget s.twn.pairs p with
  | none => 0
  | some x => x.depth * 2 ^ 16 + x.onLoss * 2 ^ 8 + b2n x.secondary * 2 ^ 7 + x.peer * 2 ^ 4 + (match x.tstate with | .locked => 1 | .lost => 2)

/-- TWIN_QUERY. -/
def bodyTwinQuery (_ : Moment) (r : Req) (s : State) : Reply :=
  let p := r.f 0 1
  if 15 < p then .err s St.badField
  else if r.fn ≠ 0 && p ≠ r.fn - 1 then .err s St.notPermitted
  else
    match tget s.twn.pairs p with
    | none => .ok s (zeros 24)
    | some x => .ok s (u32 (pairWord s p) ++ u64 x.verified ++ u64 x.unverified ++ u32 (sat 32 x.diverged))

def execTwinQuery (m : Moment) (r : Req) (s : State) : Out := .next (runCommand opTwinQuery bodyTwinQuery m r s)

/-! ### Grants, digests and loss (R396 to R400) -/

/-- The link of the pair to which a session belongs. -/
def twinLink (s : State) (id : Nat) : Option (Nat × Pair) :=
  ((getSess s id).bind (fun x => lockedPair s x.partition)).map (fun p => (linkTo s p.peer, p))

/-- TWIN_GRANT: the secondary will grant exactly this step or chunk to the shadow. -/
def execTwinGrant (m : Moment) (session base chunk : Nat) (s : State) : Out :=
  let s := s.at m
  .next (match twinLink s session with
    | some (l, p) =>
      if p.secondary then
        let s := swlGot l 3 16 s
        { s with twn := { s.twn with grants := s.twn.grants ++ [(session, base, chunk)] } }
      else s
    | none => s)

/-- TWIN_DIGEST: a digest of the secondary, compared in order (R398, R399). -/
def execTwinDigest (m : Moment) (session base lg digest : Nat) (s : State) : Out :=
  let s := s.at m
  .next (match twinLink s session, getSess s session with
    | some (l, p), some x =>
      if p.secondary then s
      else
        let s := swlGot l 3 24 s
        match (stepsOf s session).find? (fun e => e.2.base = base && !thas e.2.peer lg) with
        | none => s
        | some (n, t) =>
          settleAll m (twinCompare x.partition session 64
            { s with twn := { s.twn with steps := tset s.twn.steps n { t with peer := tset t.peer lg digest } } })
    | _, _ => s)

/-- Whether a digest of a pair's secondary is late (R400). -/
def digestLate (s : State) (p : Nat) (x : Pair) : Bool :=
  s.twn.steps.any (fun e => (getSess s e.2.session).any (fun y => y.partition = p)
    && e.2.own.any (fun d => !thas e.2.peer d.1 && decide (d.2.2 + x.timeout < s.ct)))

/-- Whether the link of a pair has been down for longer than its timeout. -/
def pairDark (s : State) (x : Pair) : Bool := x.ctDown ≠ 0 && decide (x.ctDown + x.timeout < s.ct)

/-- A pair is lost (R400): HALT faults the sessions with an unverified step, CONTINUE releases what is held. The primary tells the
secondary where it can. -/
def losePair (p cause : Nat) (x : Pair) (s : State) : State :=
  let s := modPair p (fun x => { x with tstate := .lost }) s
  let s := if !x.secondary && linkUp s x.peer then sendSwl (.swilan (linkTo s x.peer) 3 15 p [cause] []) s else s
  if x.secondary then note 0x0B04 2 p 0 [p, cause, 0] s
  else if x.onLoss = 1 then
    let (n, s) := releaseAllSteps p s
    note 0x0B04 2 p 0 [p, cause, n] s
  else
    let ids := ((s.twn.steps.map (fun e => e.2.session)).eraseDups).filter (fun id => (getSess s id).any (fun y => y.partition = p))
    note 0x0B04 2 p 0 [p, cause, ids.length] (ids.foldl (fun s id => twinFault id 0x0B06 s) s)

/-- The model's own opcodes of the pair's two messages that are no commands: a copy's fault and the pair's loss (R399, R400;
DESIGN CHOICE, log entry 42). -/
def copyFaulted : Nat := 0x10B05
def pairLost : Nat := 0x10B04

/-- The other chip of the pair says that it is lost: the secondary enters FROZEN (cause 2), or the primary has found the loss. -/
def hearLoss (p cause : Nat) (s : State) : State :=
  match lockedPair s p with
  | some x => losePair p cause x s
  | none => s

/-- TWIN_DIGEST_TIMEOUT: the pair is lost when a digest is late (cause 0) or its link has been down too long (cause 1; the codes
are a DESIGN CHOICE, log entry 42). -/
def execTwinDigestTimeout (m : Moment) (partition : Nat) (s : State) : Out :=
  let s := s.at m
  .next (match lockedPair s partition with
    | none => s
    | some x =>
      if !x.secondary && digestLate s partition x then settleAll m (losePair partition 0 x s)
      else if pairDark s x then settleAll m (losePair partition 1 x s)
      else s)

end Sys2Proof.Machine
end

