-- ==== Sys2Proof/Machine/Tenancy.lean ====
section
/-! DEFINITION. Tenant partitions: their making, change, teardown and scrub, their keys, and device evidence
(R434 to R461, 15). -/

namespace Sys2Proof.Machine

namespace St
def rollback : Nat := 0x0D03
def partitionBusy : Nat := 0x0D04
def partitionState : Nat := 0x0D05
def tdispLocked : Nat := 0x0D08
end St

/-- Changes a partition's record. -/
def modPart (p : Nat) (f : Partition → Partition) (s : State) : State := setPart p (f (getPart s p)) s

/-! ### Granules (R442, R445) -/

/-- Bytes of one tile's memory, and of a tile granule. -/
def tileBytes : Nat := 0xE00000
def tileGranule : Nat := 8 * tileBytes

/-- Bytes of granules named by masks of tiles, HBM and LPDDR6. -/
def maskBytes (l : List Nat) : Nat :=
  popcount 16 (l.getD 0 0) * tileGranule + popcount 16 (l.getD 1 0) * hbmGranule + popcount 16 (l.getD 2 0) * lpddrGranule

/-- Writes zeros over granules of one kind: tiles 0, HBM 1, LPDDR6 2. -/
def zeroGranules (kind mask : Nat) (s : State) : State :=
  let g := if kind = 0 then tileGranule else granuleSize kind
  (setBits 16 mask).foldl (fun s k => { s with devMem := Mem.clear s.devMem (devKey kind (k * g)) g }) s

/-- The masks of a partition's granules: tiles, HBM, LPDDR6. -/
def Partition.masks (x : Partition) : List Nat := [x.tileMask, x.hbmMask, x.lpddrMask]

/-- Whether a granule kind's mask or a cache's ways are taken outside partition `p`; a granule that is still being scrubbed is
taken for every partition, its own included (R442, R445). -/
def resourceTaken (s : State) (p : Nat) (masks ways : List Nat) : Bool :=
  s.hmk.parts.any (fun e =>
    (e.1 ≠ p && e.2.pstate ≠ .off
      && ((List.range 3).any (fun k => (e.2.masks.getD k 0) &&& (masks.getD k 0) ≠ 0)
        || (List.range 6).any (fun c => (e.2.ways.getD c 0) &&& (ways.getD c 0) ≠ 0)))
      || (List.range 3).any (fun k => (e.2.scrubbing.getD k 0) &&& (masks.getD k 0) ≠ 0))

/-- Bits of `a` that are not in `b`. -/
def maskLess (a b : Nat) : Nat := a - (a &&& b)

/-- Whether a region of the partition lies in removed memory: its memory, or its page list. -/
def regionMeets (x : Region) (tier mask : Nat) : Bool :=
  let a := x.base % 2 ^ 48
  let meets (n : Nat) : Bool := (setBits 16 mask).any (fun k =>
    decide (a < (k + 1) * granuleSize tier) && decide (k * granuleSize tier < a + n))
  (x.backing = 0 && x.base / 2 ^ 62 = tier && meets x.length) || (x.backing = 1 && tier = 1 && meets 8)

/-- Whether anything of a partition is allocated in granules that a change removes (R445). What Touchstone, the Gather unit and
the spill buffers hold lies where the device chooses, so it must fit what is left (log entry 17). -/
def granulesUsed (s : State) (p : Nat) (gone : List Nat) : Bool :=
  let tile := gone.getD 0 0
  let at_ (tier : Nat) : Bool :=
    let mask := gone.getD tier 0
    mask ≠ 0
      && ((takenRanges s tier).any (fun x => bit mask (x.1 / granuleSize tier) && x.2 ≠ 0)
        || s.net.regions.any (fun e => e.2.partition = p && regionMeets e.2 tier mask)
        || decide (partBytes s p tier < takenBytes s p tier + popcount 16 mask * granuleSize tier))
  (tile ≠ 0
    && ((takenRanges s 0).any (fun x => bit tile (x.1 / tileGranule) && x.2 ≠ 0)
      || s.tile.models.any (fun e => e.2.mstate ≠ .empty && e.2.spanMask &&& tile ≠ 0)
      || decide (0x400000 * (partTiles s p).length < tier0Taken s p + 0x400000 * 8 * popcount 16 tile)))
    || at_ 1 || at_ 2

/-- Whether what a partition holds needs ways that a change removes (R443, R445). -/
def waysUsed (s : State) (p : Nat) (ways : List Nat) : Bool :=
  decide (256 * popcount 16 (ways.getD 3 0) <
      (s.tch.queries.filter (fun e => (getIndex s e.2.index).any (fun x => x.partition = p))).length)
    || decide (1024 * popcount 16 (ways.getD 5 0) < (s.net.qps.filter (fun e => e.2.partition = p)).length)

/-! ### HMK_PARTITION_SET (R442 to R445) -/

def opHmkPartitionSet : OpInfo :=
  { opcode := 0x0D00, pf0 := true, view := true, rsvd := [(0x14, 12)], rbits := [(1, 1, 0xFC)] }

/-- Tile granules of the grade. -/
def tileGranules (s : State) : Nat := tileCount s / 8

/-- A partition with fresh keys, ACTIVE (R444). A CONFIDENTIAL one has no KEK until KEK_SET (R449). -/
def makePart (p : Nat) (x : Partition) (kek : Option Bytes) (s : State) : State :=
  let (xts, s) := draw 64 s
  let (tree, s) := draw 32 s
  setPart p {
    pstate := .active, tdi := if x.confidential then .unlocked else .none, confidential := x.confidential
    signedImages := x.signedImages, tileMask := x.tileMask, hbmMask := x.hbmMask, lpddrMask := x.lpddrMask, ways := x.ways
    imageKeyHash := x.imageKeyHash, kek := if x.confidential then none else kek, xtsKey := some xts, treeKey := tree } s

/-- The configuration that a request asks for. -/
def partAsked (r : Req) : Partition :=
  { confidential := bit (r.f 1 1) 0, signedImages := bit (r.f 1 1) 1, tileMask := r.f 2 2, hbmMask := r.f 4 2, lpddrMask := r.f 6 2
    ways := (List.range 6).map (fun c => r.f (8 + 2 * c) 2), imageKeyHash := r.b 0x20 32 }

/-- The ranges of R442: granules of the grade, at least one of tiles and of HBM, and one way of each cache. -/
def partFieldsOk (s : State) (x : Partition) : Bool :=
  x.tileMask ≠ 0 && decide (x.tileMask < 2 ^ tileGranules s) && x.hbmMask ≠ 0 && x.ways.all (· ≠ 0)

/-- The checks of HMK_PARTITION_SET on partition `p`, HW_FAILED first (R497). CONFIDENTIAL cannot change (DESIGN CHOICE: BAD_FIELD, log entry 44). -/
def partSetCheck (p : Nat) (x : Partition) (s : State) : Except Nat Unit := do
  let was := getPart s p
  guard' (!s.err.failedLp.any (bit x.lpddrMask)) 0x0F06
  guard' (decide (p < 16) && partFieldsOk s x) St.badField
  guard' (was.pstate ≠ .teardown) St.partitionState
  guard' (!tdiHeld s p) St.tdispLocked
  guard' (was.pstate = .off || was.confidential = x.confidential) St.badField
  guard' (!resourceTaken s p x.masks x.ways) St.partitionBusy
  if was.pstate = .active then
    guard' (!granulesUsed s p ((List.range 3).map (fun k => maskLess (was.masks.getD k 0) (x.masks.getD k 0)))
      && !waysUsed s p x.ways) St.partitionBusy

/-- HMK_PARTITION_SET: creates or changes a partition; granules removed are scrubbed by a long operation. -/
def bodyHmkPartitionSet (_ : Moment) (r : Req) (s : State) : Reply :=
  let p := r.f 0 1
  let x := partAsked r
  let was := getPart s p
  let kek := some (r.b 0x40 32)
  checked s (partSetCheck p x s) fun _ =>
    if was.pstate = .off then .ok (makePart p x kek s)
    else
      let gone := (List.range 3).map (fun k => maskLess (was.masks.getD k 0) (x.masks.getD k 0))
      let now : Partition := { was with
        signedImages := x.signedImages, tileMask := x.tileMask, hbmMask := x.hbmMask, lpddrMask := x.lpddrMask, ways := x.ways
        imageKeyHash := x.imageKeyHash, kek := if was.confidential then was.kek else kek }
      if gone.all (· = 0) then .ok (setPart p now s)
      else asOp r s 0 1 (maskBytes gone) true (p :: gone) fun _ s =>
        setPart p { now with scrubbing := (List.range 3).map (fun k => was.scrubbing.getD k 0 + gone.getD k 0) } s

def execHmkPartitionSet (m : Moment) (r : Req) (s : State) : Out := .next (runCommand opHmkPartitionSet bodyHmkPartitionSet m r s)

/-- The end of a change's scrub: the granules are zero and free. A cancelled one leaves them with the partition (log entry 44). -/
def endHmkPartitionSet (n : Nat) (o : LongOp) (s : State) : State :=
  let p := o.args.getD 0 0
  let gone := o.args.drop 1
  let x := getPart s p
  let x := { x with scrubbing := (List.range 3).map (fun k => maskLess (x.scrubbing.getD k 0) (gone.getD k 0)) }
  if o.cancelling then
    endOp n St.cancelled 0 [] (setPart p { x with
      tileMask := x.tileMask + gone.getD 0 0, hbmMask := x.hbmMask + gone.getD 1 0, lpddrMask := x.lpddrMask + gone.getD 2 0 } s)
  else
    let s := (List.range 3).foldl (fun s k => zeroGranules k (gone.getD k 0) s) (setPart p x s)
    endOp n St.ok 0 [] { s with hmk := { s.hmk with scrubBytes := s.hmk.scrubBytes + maskBytes gone } }

/-! ### Teardown (R454) -/

def opHmkPartitionTeardown : OpInfo := { opcode := 0x0D01, pf0 := true }

/-- Causes of TDI_ERROR (DESIGN CHOICE, log entry 44). -/
def tdiIde : Nat := 0
def tdiFlr : Nat := 1
def tdiNonT : Nat := 2
def tdiTeardown : Nat := 3

/-- A TDI enters ERROR (R452). -/
def tdiFail (p cause : Nat) (s : State) : State :=
  note 0x0D02 2 p 0 [p, cause] (modPart p (fun x => { x with tdi := .error }) s)

/-- Whether a request came from a function's mailboxes. -/
def fromFn (fn : Nat) (r : Req) : Bool := match r.src with | .mailbox f _ => f = fn | _ => false

/-- Commands of a function that wait, and are no long operations, are gone; a command that another chip is to confirm is no longer
answered (R52). -/
def dropFnWork (fn : Nat) (s : State) : State :=
  let keep (r : Req) : Bool := !fromFn fn r || s.bench.ops.any (fun e => e.2.req = r)
  let quiet (w : SwlWait) : SwlWait := match w with
    | .twinSet r => .twinSet (if fromFn fn r then { r with src := .device r.part16 } else r)
    | w => w
  { s with
    pwr := { s.pwr with waitCmds := s.pwr.waitCmds.filter keep, waitBar := s.pwr.waitBar.filter (fun x => x.fn ≠ fn) }
    pln := { s.pln with
      slots := s.pln.slots.map (fun e => (e.1, { e.2 with waiting := e.2.waiting.filter keep }))
      store := s.pln.store.map (fun e => (e.1, { e.2 with
        image := e.2.image.map (fun x => { x with waiting := x.waiting.filter keep }) })) }
    swl := { s.swl with reqs := s.swl.reqs.map (fun e => (e.1, { e.2 with wait := quiet e.2.wait })) } }

/-- A VF that is disabled keeps nothing of its tenant's: its mailboxes, ring, apertures and vectors are as after reset, its
long operations end with no completion written, and its claimed Check units are free (DEDUCED, log entry 45). -/
def clearFunction (fn : Nat) (s : State) : State :=
  let s := dropFnWork fn s
  let s := s.bench.mbx.foldl (fun s e => if e.1 / 256 = fn then setMbx fn (e.1 % 256) {} s else s) s
  freeUnits fn { s with bench := { s.bench with
    fns := tdel s.bench.fns fn
    mbx := s.bench.mbx.filter (fun e => e.1 / 256 ≠ fn)
    ops := s.bench.ops.map (fun e => if e.2.fn = fn then (e.1, { e.2 with orphan := true }) else e) } }

/-- Apertures of PF0 into a partition are disabled (R452, R454). -/
def dropApertures (p : Nat) (s : State) : State :=
  let f := fnState s 0
  let s := { s with pwr := { s.pwr with waitBar := s.pwr.waitBar.filter (fun x => x.partition ≠ p || x.fn ≠ 0) } }
  setFn 0 { f with apertures := f.apertures.filter (fun e => e.2.partition ≠ p) } s

/-- The bytes that a partition's teardown scrubs. -/
def Partition.bytes (x : Partition) : Nat := maskBytes x.masks

/-- A partition enters TEARDOWN, phase RETIRE (R444, R454). -/
def startTeardown (p op : Nat) (again : Bool) (s : State) : State :=
  let s := { s with err := { s.err with injected := s.err.injected.filter (fun e => e.partition ≠ p) } }
  dropApertures p (clearFunction (p + 1) (modPart p (fun x =>
    { x with pstate := .teardown, recreate := again, tdOp := op, tdPhase := 1, tdBytes := x.bytes }) s))

/-- HMK_PARTITION_TEARDOWN: one long operation that cannot be cancelled. -/
def bodyHmkPartitionTeardown (_ : Moment) (r : Req) (s : State) : Reply :=
  let p := r.f 0 1
  if 15 < p then .err s St.badField
  else if (getPart s p).pstate ≠ .active then .err s St.partitionState
  else asOp r s 1 1 (getPart s p).bytes false [p] fun n s =>
    startTeardown p n false (if (getPart s p).confidential then tdiFail p tdiTeardown s else s)

def execHmkPartitionTeardown (m : Moment) (r : Req) (s : State) : Out :=
  .next (runSettled opHmkPartitionTeardown bodyHmkPartitionTeardown m r s)

/-- An operation of a torn-down partition ends. -/
def endTorn (n : Nat) (s : State) : State := endOp n St.partitionState 0 [] s

/-- A session goes with its partition: retired here without delivery, and, where another chip has it, there too. -/
def tearSession (id : Nat) (s : State) : State :=
  let s := retireNow id s
  match getDir s id with
  | none => s
  | some e =>
    let s := if (e.dstate = .active || e.dstate = .claimed) && e.activeChip ≠ chip s then
        sendSwl (.swilan (linkTo s e.activeChip) 0 1 id [DState.retiring.code, 0, 0] []) s
      else s
    if e.dstate = .claimed then retireParked id e s else releaseAll id (modDir id (fun e => { e with dstate := .retiring }) s)

/-- A checkpoint group goes: its cut fails, and what waits for the group ends. -/
def tearGroup (g : Nat) (s : State) : State :=
  match getGroupCk s g with
  | none => s
  | some x =>
    let s := setGroupCk g { x with pending := false } s
    let s := { s with mld := { s.mld with queue := s.mld.queue.erase g } }
    let s := if x.cstate = .idle then s else cutFail g St.partitionState s
    let rs := tfind s.mld.restores (fun q => q.group = g)
    let s := rs.foldl (fun s n => endTorn n (dropCmds (.restore n) { s with mld := { s.mld with restores := tdel s.mld.restores n } })) s
    { s with mld := { s.mld with groups := tdel s.mld.groups g } }

/-- The network objects of a partition go: chains, map updates, queue pairs with the controllers on them, regions and ranges. -/
def tearNet (m : Moment) (p : Nat) (s : State) : State :=
  let s := (tfind s.net.chains (fun c => c.partition = p)).foldl (fun s i => freeChain i s) s
  let s := (tfind s.net.mapOps (fun x => x.partition = p)).foldl (fun s n => endTorn n (delMapOp n s)) s
  let s := (tfind s.net.qps (fun q => q.partition = p)).foldl (fun s i =>
    let h := qpHandle s i
    let s := (tfind s.net.ctrls (fun c => c.handle = h)).foldl (fun s c => nvmeLost m c 2 s) s
    let op := ((getQp s i).map (·.drainOp)).getD 0
    qpReset i (if op = 0 then s else endTorn op s)) s
  let gone := s.net.ranges.filter (fun e => e.2.partition = p)
  { s with net := { s.net with
    regions := s.net.regions.filter (fun e => e.2.partition ≠ p)
    ranges := s.net.ranges.filter (fun e => e.2.partition ≠ p)
    rgens := gone.foldl (fun t e => tset t e.1 ((e.2.rgen + 1) % 2 ^ 32)) s.net.rgens
    cc := tdel s.net.cc p } }

/-- A stream ring goes with the records that it holds. -/
def tearRing (k : Nat) (s : State) : State :=
  match getRing s k with
  | none => s
  | some x =>
    let n := x.spill.length
    let s := if n = 0 then s else move Lg.spill k 2 0 n 7 0 s
    let s := if x.reserved = 0 then s else move Lg.spill k 1 0 x.reserved 7 0 s
    { s with pla := { s.pla with rings := tdel s.pla.rings k } }

/-- An index and its queries go. -/
def tearIndex (i : Nat) (s : State) : State :=
  let s := (tfind s.tch.queries (fun q => q.index = i)).foldl (fun s k =>
    let op := ((tget s.tch.queries k).map (·.op)).getD 0
    endTorn op (dropQuery k s)) s
  let s := dropInserts St.partitionState i (((getIndex s i).bind (·.dropping)).toList.foldl (fun s n => endTorn n s) s)
  { s with tch := { s.tch with indexes := tdel s.tch.indexes i } }

/-- A class goes with a last report, as CLASS_DELETE closes it. -/
def tearClass (c : Nat) (s : State) : State :=
  let s := closeEarly c false true s.ct (closeEnding c (rollGauge c s))
  { s with pla := { s.pla with classes := tdel s.pla.classes c } }

/-- A model slot goes with its invocations. -/
def tearModel (slot : Nat) (s : State) : State :=
  let s := (slotInvs s slot).foldl (fun s e => dropInv e.1 s) s
  let x := getModel s slot
  let s := if x.op = 0 then s else endTorn x.op s
  { s with tile := { s.tile with models := tdel s.tile.models slot, filling := if s.tile.filling.any (fun f => f.1 = slot) then none else s.tile.filling } }

/-- A partition's frame pools go, once nothing holds their frames. -/
def tearPools (p : Nat) (s : State) : State :=
  (s.frames.pools.filter (fun x => x.id.partition = p)).foldl (fun s x => putPool { x with size := 0, extents := [] } x.size s) s

/-- The operations of a partition that still run are ended: loads, drops and moves of what has gone. -/
def tearOps (p : Nat) (s : State) : State :=
  let mine := (tfind s.fdy.ops (fun f => f.partition = p))
  let s := mine.foldl (fun s n => match getFop s n with
    | some f => endTorn f.op (delFop n (dropOld f (dropFresh f fReserved (dropDescs n s))))
    | none => s) s
  let jobs := (s.txt.lanes.map (·.2) ++ s.txt.waiting).filter (fun j => j.partition = p)
  let s := { s with txt := { s.txt with
    lanes := s.txt.lanes.filter (fun e => e.2.partition ≠ p), waiting := s.txt.waiting.filter (fun j => j.partition ≠ p) } }
  jobs.foldl (fun s j => endTorn j.op s) s

/-- Sessions of a partition that this chip is home to, or has. -/
def tornSessions (s : State) (p : Nat) : List Nat :=
  ((s.pln.slots.filter (fun e => e.2.partition = p)).map (fun e => e.2.id)
    ++ ((s.fdy.imports ++ s.pln.dir).filter (fun e => e.2.partition = p)).map (fun e => e.2.id)).eraseDups

/-- The secondary of a pair is told of its end, or owed the message (R400). -/
def tearPair (p : Nat) (s : State) : State :=
  match tget s.twn.pairs p with
  | none => s
  | some x =>
    let s := if x.secondary then s
      else if linkUp s x.peer then sendSwl (.swilan (linkTo s x.peer) 3 10 0x0B03 [p, 1] (u8 p)) s
      else { s with twn := { s.twn with owed := s.twn.owed ++ [(x.peer, p)] } }
    twinEnd p s

/-- What still runs for a partition whose objects are gone ends: its operations of the groups 0x01 to 0x0B. -/
def tearRest (p : Nat) (s : State) : State :=
  ((s.bench.ops.filter (fun e => e.2.req.part = p && e.2.opcode / 256 ≤ 0x0B)).map (·.1)).foldl (fun s n => endTorn n s) s

/-- Phase RETIRE ends: every session and object of the partition is released (R454 item 1). -/
def tearObjects (m : Moment) (p : Nat) (s : State) : State :=
  let s := tearPair p s
  let s := (tornSessions s p).foldl (fun s id => tearSession id s) s
  let s := { s with pln := { s.pln with raiseWait := s.pln.raiseWait.filter (fun w => (getSess s w.session).isSome || (getDir s w.session).isSome) } }
  let s := tearOps p s
  let s := (tfind s.mld.groups (fun x => x.partition = p)).foldl (fun s g => tearGroup g s) s
  let s := tearNet m p s
  let s := ((tkeys s.pla.rings).filter (fun k => k / 1024 = p)).foldl (fun s k => tearRing k s) s
  let s := (tfind s.tch.indexes (fun x => x.partition = p)).foldl (fun s i => tearIndex i s) s
  let s := (tfind s.gth.tables (fun x => x.partition = p)).foldl (fun s t => dropTable St.partitionState t s) s
  let s := (tfind s.pla.classes (fun x => x.partition = p)).foldl (fun s c => tearClass c s) s
  let s := { s with pla := { s.pla with meters := s.pla.meters.filter (fun e => e.2.partition ≠ p), shares := tdel s.pla.shares p } }
  let s := (tfind s.tile.models (fun x => x.partition = p)).foldl (fun s k => tearModel k s) (purgeNodes p none s).2
  let s := (s.txt.gens.filter (fun e => e.2.partition = p)).foldl (fun s e =>
    dropGen e.1 (if e.2.op = 0 then s else endTorn e.2.op s)) s
  tearRest p (tearPools p { s with trees := tdel s.trees p })

/-- The power groups of a partition's granules that a phase scrubs (R442, R462). -/
def scrubGroups (x : Partition) (phase : Nat) : List Nat :=
  if phase = 2 then setBits 16 x.tileMask
  else if phase = 3 then ((setBits 16 x.hbmMask).map (fun g => 0x10 + g / 2)).eraseDups ++ (setBits 16 x.lpddrMask).map (0x18 + ·)
  else []

/-- The tiles are zeroed and the caches' ways invalidated; every key is destroyed as phase EXTERNAL begins (R454 items 2, 3). -/
def tearOnChip (p : Nat) (s : State) : State :=
  let x := getPart s p
  let n := popcount 16 x.tileMask * tileGranule
  let s := zeroGranules 0 x.tileMask s
  let s := setPart p { x with tdPhase := 3, xtsKey := none, keys := [], kek := none, treeKey := [] } s
  let s := { s with hmk := { s.hmk with scrubBytes := s.hmk.scrubBytes + n } }
  progressOp x.tdOp 3 n ((getOp s x.tdOp).map (·.prog.total) |>.getD 0) s

/-- The external memory is zeroed: the partition is OFF, its resources free; one whose TDI was stopped is made again with the
same configuration and fresh keys (R444, R452, R454). -/
def tearExternal (p : Nat) (s : State) : State :=
  let x := getPart s p
  let n := maskBytes [0, x.hbmMask, x.lpddrMask]
  let s := zeroGranules 2 x.lpddrMask (zeroGranules 1 x.hbmMask s)
  let s := { s with hmk := { s.hmk with scrubBytes := s.hmk.scrubBytes + n, parts := tdel s.hmk.parts p } }
  let s := note 0x0D03 0 p 0 [p, x.tdBytes] s
  let s := if x.recreate then makePart p x none s else s
  let s := match getOp s x.tdOp with
    | some o => setOp x.tdOp { o with prog := { o.prog with position := o.prog.total } } s
    | none => s
  endOp x.tdOp St.ok 0 (u64 x.tdBytes) s

/-- TEARDOWN_PHASE_DONE: a phase of a teardown ends, unless it waits for a power group (R454, R465). -/
def execTeardownPhaseDone (m : Moment) (partition : Nat) (s : State) : Out :=
  let s := s.at m
  let x := getPart s partition
  if x.pstate ≠ .teardown then .next s
  else
    match (scrubGroups x x.tdPhase).find? (fun g => (getGroup s g).state ≠ 3) with
    | some g => .next (powerWait g s)
    | none =>
      .next (match x.tdPhase with
        | 1 => settleAll m (phaseOp x.tdOp 2 false (modPart partition (fun x => { x with tdPhase := 2 }) (tearObjects m partition s)))
        | 2 => tearOnChip partition s
        | _ => tearExternal partition s)

/-! ### HMK_PARTITION_QUERY -/

def opHmkPartitionQuery : OpInfo := { opcode := 0x0D02, mctp := true }

/-- HMK_PARTITION_QUERY. -/
def bodyHmkPartitionQuery (_ : Moment) (r : Req) (s : State) : Reply :=
  let p := r.f 0 1
  if 15 < p then .err s St.badField
  else if r.fn ≠ 0 && p ≠ r.fn - 1 then .err s St.notPermitted
  else .ok s (partInfo s p)

def execHmkPartitionQuery (m : Moment) (r : Req) (s : State) : Out := .next (runCommand opHmkPartitionQuery bodyHmkPartitionQuery m r s)

/-! ### Network keys (R448 to R450) -/

/-- A `key_id`. -/
def keyId (p slot gen : Nat) : Nat := gen * 2 ^ 24 + p * 256 + slot

/-- R450: the storage key while a page or an entry of the partition names tier 3 or a cut runs; a connection key while a queue
pair names it. -/
def keyBusy (s : State) (p slot : Nat) : Bool :=
  if slot = 0 then
    s.pln.store.any (fun e => e.2.partition = p && e.2.pages.ptes.any (fun x => x.2.valid && x.2.tier = 3))
      || (s.pln.dir ++ s.fdy.imports).any (fun e => e.2.partition = p && e.2.kept && e.2.castTier = 3)
      || s.mld.groups.any (fun e => e.2.partition = p && e.2.cstate ≠ .idle)
  else s.net.qps.any (fun e => e.2.keyId ≠ ones32 && bits e.2.keyId 11 8 = p && e.2.keyId % 256 = slot)

/-- Stores a key slot. -/
def setKey (p slot : Nat) (k : KeySlot) (s : State) : State := modPart p (fun x => { x with keys := tset x.keys slot k }) s

def opHmkKeyLoad : OpInfo := { opcode := 0x0D03, rsvd := [(1, 7)] }

/-- HMK_KEY_LOAD: a key unwrapped under the partition's KEK takes the slot's next generation. -/
def bodyHmkKeyLoad (_ : Moment) (r : Req) (s : State) : Reply :=
  let p := r.part16
  let slot := r.f 0 1
  if 63 < slot then .err s St.badField
  else
    match (getPart s p).kek with
    | none => .err s St.keyGone
    | some kek =>
      if keyBusy s p slot then .err s St.keyInUse
      else
        match Config.keyUnwrap kek (r.b 8 40) with
        | none => .err s stSigInvalid
        | some k =>
          let g := (getKey s p slot).gen % 255 + 1
          .ok (setKey p slot { gen := g, key := some k } s) (u32 (keyId p slot g))

def execHmkKeyLoad (m : Moment) (r : Req) (s : State) : Out := .next (runCommand opHmkKeyLoad bodyHmkKeyLoad m r s)

def opHmkKeyDestroy : OpInfo := { opcode := 0x0D04 }

/-- HMK_KEY_DESTROY. -/
def bodyHmkKeyDestroy (_ : Moment) (r : Req) (s : State) : Reply :=
  let k := r.f 0 4
  let p := bits k 11 8
  if (keyOf s k).isNone || !r.reaches p then .err s St.keyGone
  else if keyBusy s p (k % 256) then .err s St.keyInUse
  else .ok (setKey p (k % 256) { gen := (getKey s p (k % 256)).gen } s)

def execHmkKeyDestroy (m : Moment) (r : Req) (s : State) : Out := .next (runCommand opHmkKeyDestroy bodyHmkKeyDestroy m r s)

/-! ### Measurements and evidence (R440, R441) -/

/-- A measurement block, by index 1 to 7; blocks 5 to 7 are a partition's. -/
def measurement (s : State) (p i : Nat) : Bytes :=
  match i with
  | 1 => fit 48 (Config.sha384 Config.hallmarkRom)
  | 2 => fit 48 (Config.sha384 Config.hallmarkFirmware)
  | 3 => fit 48 (Config.sha384 s.hmk.chavy) ++ u8 s.hmk.svn
  | 4 => u8 s.hmk.counter ++ u8 s.hmk.revoked ++ u8 s.aon.genUsed
  | 5 => (getPart s p).block5.getD (partConfig p (getPart s p))
  | 6 => (s.tile.models.filter (fun e => e.2.mstate = .ready && e.2.partition = p)).flatMap (fun e => fit 32 e.2.hdr.digest ++ u8 e.1)
  | 7 => (s.txt.gens.filter (fun e => e.2.gstate = .resident && e.2.partition = p)).flatMap (fun e => u16 e.1 ++ fit 32 e.2.digest)
  | _ => []

/-- Blocks in scope for a function: a VF sees its own partition's too (R440). -/
def blocksFor (fn : Nat) : List Nat := if fn = 0 then [1, 2, 3, 4] else [1, 2, 3, 4, 5, 6, 7]

/-- The evidence record that both alias keys sign: nonce, `device_id`, the selected blocks and the alias certificates (R441; its
layout is a DESIGN CHOICE, log entry 29). -/
def evidenceOf (s : State) (fn blocks : Nat) (nonce : Bytes) : Bytes :=
  let sel := (blocksFor fn).filter (fun i => bit blocks i)
  let body := fit 32 nonce ++ deviceId
    ++ sel.flatMap (fun i => let b := measurement s (fn - 1) i; u8 i ++ u8 0 ++ u16 b.length ++ b) ++ Config.aliasCerts s.hmk.chavy
  body ++ aliasSign s body

/-- Whether every selected block is in scope. -/
def blocksOk (fn blocks : Nat) : Bool := (List.range 8).all (fun i => !bit blocks i || (blocksFor fn).contains i)

/-- Output through the scatter list; without one, the bytes that the payload area holds (DESIGN CHOICE, log entry 43). -/
def listOrHead (r : Req) (b : Bytes) (s : State) : Reply :=
  if r.hdr.sgCount = 0 then .ok s (b.take 3968) else replyData r b.length b [] s

def opHmkAttest : OpInfo := { opcode := 0x0D05, mctp := true }

/-- HMK_ATTEST. -/
def bodyHmkAttest (_ : Moment) (r : Req) (s : State) : Reply :=
  if !blocksOk r.fn (r.f 0x20 1) then .err s St.notPermitted
  else listOrHead r (evidenceOf s r.fn (r.f 0x20 1) (r.b 0 32)) s

def execHmkAttest (m : Moment) (r : Req) (s : State) : Out := .next (runCommand opHmkAttest bodyHmkAttest m r s)

def opHmkCertRead : OpInfo := { opcode := 0x0D06, mctp := true }

/-- HMK_CERT_READ. -/
def bodyHmkCertRead (_ : Moment) (r : Req) (s : State) : Reply :=
  if 1 < r.f 0 1 then .err s St.badField else listOrHead r (Config.certChain (r.f 0 1)) s

def execHmkCertRead (m : Moment) (r : Req) (s : State) : Out := .next (runCommand opHmkCertRead bodyHmkCertRead m r s)

/-! ### Anti-rollback (R436) -/

def opHmkRollbackCommit : OpInfo := { opcode := 0x0D07, pf0 := true }

/-- HMK_ROLLBACK_COMMIT: the counter rises to the running release's `svn`. -/
def bodyHmkRollbackCommit (_ : Moment) (_ : Req) (s : State) : Reply :=
  if !(s.hmk.production && s.hmk.dualSigned) then .err s St.notPermitted
  else
    let c := max s.hmk.counter s.hmk.svn
    .ok { s with hmk := { s.hmk with counter := c } } (u8 c)

def execHmkRollbackCommit (m : Moment) (r : Req) (s : State) : Out := .next (runCommand opHmkRollbackCommit bodyHmkRollbackCommit m r s)

end Sys2Proof.Machine
end

