-- ==== Sys2Proof/Machine/Spdm.lean ====
section
/-! DEFINITION. The SPDM responder, ATTEST_DUAL and KEK_SET, IDE keys and the TDISP machine (R439 to R441, R449 to R452, 15).
The codes and layouts of SPDM, DOE, IDE_KM and TDISP are those of their standards (PRESUMED, log entry 46). -/

namespace Sys2Proof.Machine

/-! ### Answers -/

/-- SPDM error codes: InvalidRequest, InvalidSession, Busy, UnexpectedRequest, DecryptError. -/
def spdmInvalid : Nat := 0x01
def spdmBadSession : Nat := 0x02
def spdmBusy : Nat := 0x03
def spdmUnexpected : Nat := 0x04
def spdmDecrypt : Nat := 0x06

/-- An SPDM response on the path that asked. -/
def spdmSay (via code : Nat) (body : Bytes) (s : State) : State := emit (.spdm via code body) s

/-- An SPDM ERROR response. -/
def spdmErr (via e : Nat) (s : State) : State := spdmSay via 0x7F (u8 e ++ u8 0) s

/-- A path: 0 the DOE of PF0, v that of VF v, 17 MCTP. The DOE of a VF that is disabled does not answer (R444). -/
def pathOpen (s : State) (via : Nat) : Bool := via = 17 || (decide (via ≤ 16) && vfEnabled s via)

/-- A request on a path, where it answers. The SPDM responder is the Hallmark's, from phase 0x02 on (DEDUCED, log entry 46). -/
def onPath (m : Moment) (via : Nat) (s : State) (k : State → State) : Out :=
  let s := s.at m
  .next (if pathOpen s via && decide (2 ≤ s.bench.bootPhase) then k s else s)

/-- What a path has negotiated. -/
def connOf (s : State) (via : Nat) : SpdmConn := tgetD s.hmk.conns via {}
def setConn (via stage : Nat) (s : State) : State :=
  { s with hmk := { s.hmk with conns := tset s.hmk.conns via { stage } } }

/-- A secure session of a path. -/
def spdmSession (s : State) (via n : Nat) : Option SpdmSession := (tget s.hmk.sessions n).filter (fun x => x.via = via)
def setSpdm (n : Nat) (x : SpdmSession) (s : State) : State := { s with hmk := { s.hmk with sessions := tset s.hmk.sessions n x } }
def dropSpdm (n : Nat) (s : State) : State := { s with hmk := { s.hmk with sessions := tdel s.hmk.sessions n } }

/-- A request outside a session (0) after the algorithms are agreed, or inside a secured session of its path. -/
def spdmReady (s : State) (via n : Nat) : Option Nat :=
  if n = 0 then (if (connOf s via).stage = 3 then none else some spdmUnexpected)
  else if (spdmSession s via n).any (·.secured) then none
  else some spdmBadSession

/-- A request that needs a secured session. -/
def inSession (s : State) (via n : Nat) (e : State → State) (k : State → State) : State :=
  if (spdmSession s via n).any (·.secured) then k s else e s

/-- A response with the alias key's Ed25519 signature (R438, R441). -/
def spdmSigned (s : State) (body : Bytes) : Bytes := body ++ fit 64 (Config.ed25519Sign (aliasEdSeed s) body)

/-- The alias chain of certificate slot 0 (R438, R439). -/
def chain0 (s : State) : Bytes := Config.certChain 0 ++ Config.aliasCerts s.hmk.chavy

/-! ### SPDM requests (R439, R440) -/

/-- GET_VERSION: the path's connection starts again. -/
def execGetVersion (m : Moment) (via : Nat) (s : State) : Out :=
  onPath m via s fun s => spdmSay via 0x04 (u8 1 ++ u16 0x1300) (setConn via 1 s)

/-- GET_CAPABILITIES. -/
def execGetCapabilities (m : Moment) (via : Nat) (s : State) : Out :=
  onPath m via s fun s =>
    if (connOf s via).stage = 0 then spdmErr via spdmUnexpected s
    else spdmSay via 0x61 (Config.spdmBody 0x61 []) (setConn via 2 s)

/-- NEGOTIATE_ALGORITHMS: the requester offers the algorithms of R439, or the answer is an error. -/
def execNegotiateAlgorithms (m : Moment) (via : Nat) (supported : Bool) (s : State) : Out :=
  onPath m via s fun s =>
    if (connOf s via).stage < 2 then spdmErr via spdmUnexpected s
    else if supported then spdmSay via 0x63 (Config.spdmBody 0x63 []) (setConn via 3 s)
    else spdmErr via spdmInvalid s

/-- GET_DIGESTS: the digest of slot 0's chain. -/
def execGetDigests (m : Moment) (via session : Nat) (s : State) : Out :=
  onPath m via s fun s =>
    match spdmReady s via session with
    | some e => spdmErr via e s
    | none => spdmSay via 0x01 (u8 1 ++ fit 48 (Config.sha384 (chain0 s))) s

/-- GET_CERTIFICATE: a portion of slot 0's chain, with the lengths of the portion and of the rest. -/
def execGetCertificate (m : Moment) (via session slot offset len : Nat) (s : State) : Out :=
  onPath m via s fun s =>
    match spdmReady s via session with
    | some e => spdmErr via e s
    | none =>
      let rest := (chain0 s).drop offset
      if slot ≠ 0 || rest = [] then spdmErr via spdmInvalid s
      else spdmSay via 0x02 (u8 0 ++ u16 (min len rest.length) ++ u16 (rest.length - len) ++ rest.take len) s

/-- CHALLENGE: an answer to a nonce, signed under slot 0's key. -/
def execChallenge (m : Moment) (via session slot : Nat) (nonce : Bytes) (s : State) : Out :=
  onPath m via s fun s =>
    match spdmReady s via session with
    | some e => spdmErr via e s
    | none =>
      if slot ≠ 0 then spdmErr via spdmInvalid s
      else spdmSay via 0x03 (spdmSigned s (Config.spdmBody 0x03 (fit 32 nonce ++ chain0 s))) s

/-- Function whose blocks a path sees: a VF's DOE its own, PF0's and MCTP the device's (R440). -/
def pathFn (via : Nat) : Nat := if via = 17 then 0 else via

/-- A measurement block as SPDM lays it out: index, specification, size, kind, value size and value. -/
def measBlock (s : State) (fn i : Nat) : Bytes :=
  let b := measurement s (fn - 1) i
  let kind := if i = 1 then 0x00 else if i ≤ 3 then 0x01 else 0x83
  u8 i ++ u8 1 ++ u16 (b.length + 3) ++ u8 kind ++ u16 b.length ++ b

/-- GET_MEASUREMENTS: index 0 asks for the number of blocks, 0xFF for every block in scope. -/
def execGetMeasurements (m : Moment) (via session index : Nat) (sign : Bool) (nonce : Bytes) (s : State) : Out :=
  onPath m via s fun s =>
    match spdmReady s via session with
    | some e => spdmErr via e s
    | none =>
      let all := blocksFor (pathFn via)
      let sel := if index = 0xFF then all else all.filter (· = index)
      if index ≠ 0 && sel = [] then spdmErr via spdmInvalid s
      else
        let n := if index = 0 then all.length else sel.length
        let recs := if index = 0 then [] else sel.flatMap (measBlock s (pathFn via))
        let body := u8 n ++ le 3 recs.length ++ recs
        spdmSay via 0x60 (if sign then spdmSigned s (fit 32 nonce ++ body) else body) s

/-- KEY_EXCHANGE: opens one of the 32 secure sessions, or Error Busy (R439, R456). -/
def execKeyExchange (m : Moment) (via slot : Nat) (exchange : Bytes) (s : State) : Out :=
  onPath m via s fun s =>
    if (connOf s via).stage ≠ 3 then spdmErr via spdmUnexpected s
    else if slot ≠ 0 then spdmErr via spdmInvalid s
    else
      match pick m 0 ((List.range 33).filter (fun i => i ≠ 0 && !thas s.hmk.sessions i)) with
      | none => spdmErr via spdmBusy s
      | some n =>
        let s := setSpdm n { via, ctBeat := s.ct } s
        spdmSay via 0x64 (spdmSigned s (u8 n ++ Config.spdmBody 0x64 exchange)) s

/-- What FINISH must carry: the requester's verification of the handshake (RFC-defined by SPDM; log entry 7). -/
def finishVerify (n : Nat) (x : SpdmSession) : Bytes := Config.spdmBody 0xE5 (u8 n ++ u64 x.ctBeat)

/-- FINISH: the session is secured, or ends. -/
def execFinish (m : Moment) (via session : Nat) (verify : Bytes) (s : State) : Out :=
  onPath m via s fun s =>
    match spdmSession s via session with
    | none => spdmErr via spdmBadSession s
    | some x =>
      if x.secured then spdmErr via spdmUnexpected s
      else if verify = finishVerify session x then
        spdmSay via 0x65 (Config.spdmBody 0x65 (u8 session)) (setSpdm session { x with secured := true } s)
      else spdmErr via spdmDecrypt (dropSpdm session s)

/-- HEARTBEAT: the session lives on. -/
def execHeartbeat (m : Moment) (via session : Nat) (s : State) : Out :=
  onPath m via s fun s =>
    match (spdmSession s via session).filter (·.secured) with
    | none => spdmErr via spdmBadSession s
    | some x => spdmSay via 0x68 [] (setSpdm session { x with ctBeat := s.ct } s)

/-- KEY_UPDATE: operation 1 renews the requester's key, 2 both keys, 3 confirms the new one. -/
def execKeyUpdate (m : Moment) (via session op tag : Nat) (s : State) : Out :=
  onPath m via s fun s =>
    match (spdmSession s via session).filter (·.secured) with
    | none => spdmErr via spdmBadSession s
    | some x =>
      if op = 0 || 3 < op then spdmErr via spdmInvalid s
      else
        let x := { x with reqKeys := x.reqKeys + b2n (op ≤ 2), rspKeys := x.rspKeys + b2n (op = 2) }
        spdmSay via 0x69 (u8 op ++ u8 tag) (setSpdm session x s)

/-- END_SESSION. -/
def execEndSession (m : Moment) (via session : Nat) (s : State) : Out :=
  onPath m via s fun s =>
    match (spdmSession s via session).filter (·.secured) with
    | none => spdmErr via spdmBadSession s
    | some _ => spdmSay via 0x6C [] (dropSpdm session s)

/-- DOE Discovery: the vendor, the protocol and the next index; the protocols are Discovery, SPDM and secured SPDM. -/
def execDoeDiscovery (m : Moment) (fn index : Nat) (s : State) : Out :=
  onPath m fn s fun s =>
    if fn = 17 then s
    else spdmSay fn 0 (if index ≤ 2 then u16 1 ++ u8 index ++ u8 ((index + 1) % 3) else u16 0xFFFF ++ u8 0 ++ u8 0) s

/-! ### Vendor-defined requests (R441, R449) -/

/-- ATTEST_DUAL: evidence that both alias keys sign. -/
def execAttestDual (m : Moment) (via session blocks : Nat) (nonce : Bytes) (s : State) : Out :=
  onPath m via s fun s =>
    match spdmReady s via session with
    | some e => spdmErr via e s
    | none =>
      if blocksOk (pathFn via) blocks then spdmSay via 0x7E (evidenceOf s (pathFn via) blocks nonce) s
      else spdmErr via spdmInvalid s

/-- KEK_SET: a CONFIDENTIAL partition's KEK, inside a secure session of its VF's DOE, while its TDI is CONFIG_LOCKED or RUN. -/
def execKekSet (m : Moment) (via session : Nat) (kek : Bytes) (s : State) : Out :=
  onPath m via s fun s =>
    inSession s via session (spdmErr via spdmBadSession) fun s =>
      let x := getPart s (via - 1)
      if decide (1 ≤ via) && decide (via ≤ 16) && x.confidential && (x.tdi = .locked || x.tdi = .run) then
        spdmSay via 0x7E [] (setPart (via - 1) { x with kek := some (fit 32 kek) } s)
      else spdmErr via spdmInvalid s

/-! ### IDE (R451) -/

/-- A stream may serve a function: the link stream PF0, a selective one the VF of a CONFIDENTIAL partition that has none other. -/
def streamFits (s : State) (k fn : Nat) : Bool :=
  if k = 0 then fn = 0
  else decide (k ≤ 16) && decide (1 ≤ fn) && decide (fn ≤ 16) && (getPart s (fn - 1)).pstate = .active && (getPart s (fn - 1)).confidential
    && !s.hmk.ide.any (fun e => e.1 ≠ 0 && e.1 ≠ k && e.2.fn = fn)

/-- A stream is secure once one key set's six keys are in use: three sub-streams in two directions, key set `k` at indices 6k
to 6k + 5. -/
def streamSecure (going : Nat) : Bool := going % 64 = 63 || going / 64 = 63

/-- The stream after one IDE_KM message; none when it is refused, and a stream left with no key is unbound. -/
def ideStep (s : State) (x : IdeKm) : Option State :=
  let put (y : IdeStream) : State := { s with hmk := { s.hmk with
    ide := if y.keyed = 0 then tdel s.hmk.ide x.stream else tset s.hmk.ide x.stream { y with secure := streamSecure y.going } } }
  match tget s.hmk.ide x.stream with
  | none =>
    match x.kind with
    | 0 => some s
    | 1 => if streamFits s x.stream x.fn then some (put { fn := x.fn, keyed := 2 ^ x.index }) else none
    | _ => none
  | some y =>
    match x.kind with
    | 0 => some s
    | 1 => if y.fn = x.fn then some (put { y with keyed := y.keyed ||| 2 ^ x.index }) else none
    | 2 => if bit y.keyed x.index then some (put { y with going := y.going ||| 2 ^ x.index }) else none
    | 3 => some (put { y with keyed := maskLess y.keyed (2 ^ x.index), going := maskLess y.going (2 ^ x.index) })
    | _ => none

/-- IDE_KM_MESSAGE: keys of a stream, in a secure session over DOE. -/
def execIdeKmMessage (m : Moment) (via session : Nat) (x : IdeKm) (s : State) : Out :=
  onPath m via s fun s =>
    if via = 17 then spdmErr via spdmInvalid s
    else inSession s via session (spdmErr via spdmBadSession) fun s =>
      match if x.stream ≤ 16 && x.index < 12 then ideStep s x else none with
      | some t => spdmSay via 0x7E (Config.spdmBody 0x7E (u8 x.kind ++ u8 x.stream ++ u8 x.index)) t
      | none => spdmErr via spdmInvalid s

/-! ### TDISP (R452) -/

/-- A TDISP answer. -/
def tdispSay (via code : Nat) (body : Bytes) (s : State) : State := spdmSay via 0x7E (u8 0x10 ++ u8 code ++ body) s

/-- TDISP_ERROR: InvalidInterfaceState 4, InvalidInterface 0x101, InvalidDeviceConfiguration 0x104. -/
def tdispErr (via e : Nat) (s : State) : State := tdispSay via 0x7F (u32 e) s

/-- A TDISP request for the interface of a VF, in a secure session over the DOE of PF0 or of that VF. -/
def onTdi (m : Moment) (via session fn : Nat) (s : State) (k : Nat → Partition → State → State) : Out :=
  onPath m via s fun s =>
    if via = 17 then spdmErr via spdmInvalid s
    else inSession s via session (spdmErr via spdmBadSession) fun s =>
      let x := getPart s (fn - 1)
      if fn = 0 || 16 < fn || (via ≠ 0 && via ≠ fn) || x.pstate ≠ .active || !x.confidential then tdispErr via 0x101 s
      else k (fn - 1) x s

/-- Whether a selective stream is bound to a VF. -/
def streamBound (s : State) (fn : Nat) : Bool := s.hmk.ide.any (fun e => e.1 ≠ 0 && e.2.fn = fn)

/-- LOCK_INTERFACE_REQUEST: the configuration is frozen, PF0's apertures go, measurement block 5 is fixed. -/
def execLockInterfaceRequest (m : Moment) (via session fn : Nat) (s : State) : Out :=
  onTdi m via session fn s fun p x s =>
    if x.tdi ≠ .unlocked then tdispErr via 4 s
    else if !streamBound s fn then tdispErr via 0x104 s
    else tdispSay via 0x03 [] (dropApertures p (setPart p { x with tdi := .locked, block5 := some (partConfig p x) } s))

/-- START_INTERFACE_REQUEST: the VF runs once its KEK is set. -/
def execStartInterfaceRequest (m : Moment) (via session fn : Nat) (s : State) : Out :=
  onTdi m via session fn s fun p x s =>
    if x.tdi ≠ .locked || x.kek.isNone then tdispErr via 4 s
    else tdispSay via 0x06 [] (setPart p { x with tdi := .run } s)

/-- STOP_INTERFACE_REQUEST: the partition is torn down, and made again after the scrub. -/
def execStopInterfaceRequest (m : Moment) (via session fn : Nat) (s : State) : Out :=
  onTdi m via session fn s fun p x s =>
    if x.tdi = .locked || x.tdi = .run || x.tdi = .error then tdispSay via 0x07 [] (startTeardown p 0 true s)
    else tdispErr via 4 s

/-- IDE_INTEGRITY_FAILURE: an integrity failure on a VF's stream, or a request without the T bit to a TDI in RUN. -/
def execIdeIntegrityFailure (m : Moment) (fn : Nat) (nonT : Bool) (s : State) : Out :=
  let s := s.at m
  let tdi := (getPart s (fn - 1)).tdi
  if fn = 0 || 16 < fn then .next s
  else
    let s := if nonT then s else { s with hmk := { s.hmk with
      ide := s.hmk.ide.map (fun e => if e.1 ≠ 0 && e.2.fn = fn then (e.1, { e.2 with secure := false, going := 0 }) else e) } }
    .next (if tdi = .run || (tdi = .locked && !nonT) then tdiFail (fn - 1) (if nonT then tdiNonT else tdiIde) s else s)

end Sys2Proof.Machine
end

