-- ==== Sys2Proof/Machine/PowerGroups.lean ====
section
/-! DEFINITION. Power groups and their transitions (R462 to R469, 16). -/

namespace Sys2Proof.Machine

namespace St
def groupInUse : Nat := 0x0E01
def enableAfterDrain : Nat := 0x0E03
def hwFailed : Nat := 0x0F06
end St

/-! ### Groups (R462, R463, R486) -/

/-- Kinds of group. -/
inductive GKind where
  | cluster | hbm | lpddr | port | link | engine
  deriving DecidableEq, Repr

/-- The kind of a group below 64. -/
def groupKind (g : Nat) : GKind :=
  if g < 0x10 then .cluster
  else if g < 0x18 then .hbm
  else if g < 0x28 then .lpddr
  else if g < 0x30 then .port
  else if g < 0x37 then .link
  else .engine

/-- Whether the grade has a group. -/
def groupPresent (s : State) (g : Nat) : Bool := decide (g < 64) && (decide (0x0F < g) || decide (g < tileGranules s))

/-- Stores a group, and changes one. -/
def setGroup (g : Nat) (x : Group) (s : State) : State := { s with pwr := { s.pwr with groups := tset s.pwr.groups g x } }
def modGroup (g : Nat) (f : Group → Group) (s : State) : State := setGroup g (f (getGroup s g)) s

/-- A failed LPDDR6 pair (R497). -/
def groupFailed (s : State) (g : Nat) : Bool := decide (0x18 ≤ g) && s.err.failedLp.contains (g - 0x18)

/-- PWR_GROUP (R486). -/
def groupWord (s : State) (g : Nat) : Nat :=
  let x := getGroup s g
  let cl := groupKind g = .cluster
  let target := ((x.run.bind (·.state)).getD x.state)
  if !groupPresent s g then 0
  else 2 ^ 31 + x.held.length * 2 ^ 20 + ((x.run.map (·.phase)).getD 0) * 2 ^ 16
    + (if cl then x.restore * 2 ^ 10 + x.perf * 2 ^ 8 else 0) + target * 2 ^ 4 + x.state

/-! ### What OFF requires (R464) -/

/-- Whether a group holds what OFF would lose. What Touchstone, the Gather unit and the spill buffers hold in an LPDDR6 pair lies
where the device chooses, so the rest of the partition's memory must hold it (log entry 17). -/
def groupInUse (s : State) (g : Nat) : Bool :=
  match groupKind g with
  | .cluster =>
    (takenRanges s 0).any (fun x => x.1 / tileGranule = g && x.2 ≠ 0)
      || s.tile.models.any (fun e => e.2.mstate ≠ .empty && bit e.2.spanMask g)
  | .hbm => true
  | .lpddr => s.hmk.parts.any (fun e => bit e.2.lpddrMask (g - 0x18) && granulesUsed s e.1 [0, 0, 2 ^ (g - 0x18)])
  | .port => false
  | .link => false
  | .engine =>
    if g = 0x37 then !s.fdy.store.isEmpty || !(runAheads s).isEmpty
    else if g = 0x3C then !s.tch.queries.isEmpty
    else if g = 0x3E then s.mld.groups.any (fun e => e.2.cstate ≠ .idle)
    else if g = 0x3F then s.chk.any (fun e => match e.2.owner with | .fn _ => true | _ => false)
    else false

/-! ### Work in flight (R467) -/

/-- Tiers and addresses that an invocation reads: its weights and its rows' pages. -/
def invGroups (s : State) (x : Invocation) : List Nat :=
  setBits 16 x.spanMask ++ x.objs.map (fun o => addrGroup o.1 o.2)
    ++ x.rows.flatMap (fun w => ((getStore s w.session).pages.ptes.filter (fun e => e.2.here s)).map (fun e => addrGroup e.2.tier e.2.addr))

/-- Whether work in flight on a group has completed. -/
def groupDrained (s : State) (g : Nat) : Bool :=
  let moving := s.fdy.store.any (fun e => e.2.engine.isSome && (descGroups s e.2).contains g)
  match groupKind g with
  | .port => true
  | .link => true
  | .engine =>
    if g = 0x37 then s.fdy.store.all (fun e => e.2.engine.isNone)
    else if g = 0x38 then s.txt.lanes.isEmpty
    else if g ≤ 0x3B then s.tile.invs.isEmpty
    else if g = 0x3C then s.tch.queries.isEmpty
    else if g = 0x3E then s.mld.groups.all (fun e => e.2.cstate = .idle || e.2.cstate = .queued) && s.mld.restores.isEmpty
    else if g = 0x3F then s.chk.all (fun e => e.2.busy = 0)
    else true
  | _ => !moving && !s.tile.invs.any (fun e => (invGroups s e.2).contains g)

/-! ### Transitions (R467, R468) -/

/-- Whether a transition from `state` lowers it. -/
def Trans.lowers (t : Trans) (state : Nat) : Bool := t.state.any (fun x => decide (x < state))

/-- The point that a transition would change: in SAFE the restore point, else the running one (R470). -/
def pointOf (s : State) (x : Group) : Nat := if s.pwr.tripped then x.restore else x.perf

/-- Whether a transition changes nothing. -/
def Trans.idle (s : State) (x : Group) (t : Trans) : Bool :=
  t.state.all (· = x.state) && t.perf.all (· = pointOf s x)

/-- The first phase of a transition that leaves HELD. -/
def Trans.start (x : Group) (t : Trans) : Trans := { t with phase := if t.lowers x.state then 2 else 5 }

/-- The phase after `phase` of a transition. -/
def nextPhase (g : Nat) (t : Trans) : Nat :=
  let k := groupKind g
  let target := t.state.getD 3
  if t.phase = 2 then (if target ≤ 1 then 3 else 5)
  else if t.phase = 3 then (if target = 0 && (k = .cluster || k = .engine) then 4 else 5)
  else 5

/-- The groups in which an operation still has a transition. -/
def transOf (s : State) (op : Nat) : List Trans :=
  s.pwr.groups.flatMap (fun e => (e.2.run.toList ++ e.2.held).filter (fun t => t.op = op))

/-- A PWR_SET ends with its last transition; until then it shows its least advanced phase (R468; log entry 47). -/
def pwrProgress (op : Nat) (s : State) : State :=
  match getOp s op with
  | none => s
  | some o =>
    match transOf s op with
    | [] => endOp op (if o.args.getD 0 0 = 1 then St.enableAfterDrain else St.ok) 0 [] s
    | t :: ts =>
      let ph := ts.foldl (fun a t => min a t.phase) t.phase
      if o.prog.phase = ph then s else phaseOp op ph false s

/-- The oldest held transition leaves HELD; one that changes nothing completes at once. At most `fuel` of them do. -/
def leaveHeld (g : Nat) : Nat → State → State
  | 0, s => s
  | fuel + 1, s =>
    let x := getGroup s g
    match x.run, x.held with
    | none, t :: ts =>
      if t.idle s x then leaveHeld g fuel (pwrProgress t.op (setGroup g { x with held := ts } s))
      else pwrProgress t.op (setGroup g { x with run := some (t.start x), held := ts } s)
    | _, _ => s

/-- The state that a group will have after every transition that it has taken on. -/
def projected (x : Group) : Nat := (x.run.toList ++ x.held).foldl (fun a t => t.state.getD a) x.state

/-- Whether a shut-down runs or is held. -/
def shutting (x : Group) : Bool :=
  ((x.run.toList ++ x.held).foldl (fun (a : Nat × Bool) t => (t.state.getD a.1, a.2 || t.lowers a.1)) (x.state, false)).2

/-- Whether a new transition is an enable (R463). -/
def isEnable (x : Group) (state perf : Option Nat) : Bool :=
  match state with
  | some v => decide (projected x < v) || (v = projected x && perf.isSome)
  | none => perf.isSome

/-- A group takes on a transition for an operation: it is held. -/
def addTrans (op : Nat) (state perf : Option Nat) (g : Nat) (s : State) : State :=
  let x := getGroup s g
  let perf := if groupKind g = .cluster then perf else none
  if state.isNone && perf.isNone then s
  else
    let behind := isEnable x state perf && shutting x
    let s := if behind then setArgs op [1] s else s
    setGroup g { x with held := x.held ++ [{ state, perf, op, behind }] } s

/-! ### PWR_SET -/

def opPwrSet : OpInfo := { opcode := 0x0E00, pf0 := true, view := true }

/-- R469. -/
def pwrSetCheck (gs : List Nat) (state perf : Nat) (s : State) : Except Nat Unit := do
  guard' (!gs.any (groupFailed s)) St.hwFailed
  guard' (gs.all (groupPresent s) && (decide (state < 4) || state = 0xFF) && (decide (perf < 4) || perf = 0xFF)
    && !(state = 0 && gs.any (fun g => groupKind g = .hbm))) St.badField
  guard' (!(state = 0 && gs.any (groupInUse s))) St.groupInUse
  guard' (gs.all (fun g => decide ((getGroup s g).held.length < 4))) St.busyRetry

/-- PWR_SET: one transition in each group named. -/
def bodyPwrSet (_ : Moment) (r : Req) (s : State) : Reply :=
  let gs := setBits 64 (r.f 0 8)
  let opt (v : Nat) : Option Nat := if v = 0xFF then none else some v
  checked s (pwrSetCheck gs (r.f 8 1) (r.f 9 1) s) fun _ =>
    asOp r s 1 0 0 false [0] fun n s =>
      let s := gs.foldl (fun s g => addTrans n (opt (r.f 8 1)) (opt (r.f 9 1)) g s) s
      pwrProgress n (gs.foldl (fun s g => leaveHeld g 1 s) s)

def execPwrSet (m : Moment) (r : Req) (s : State) : Out := .next (runSettled opPwrSet bodyPwrSet m r s)

/-! ### The phases' effects -/

/-- SAVE: a port's configuration goes to the retention domain. -/
def groupSave (g : Nat) (s : State) : State :=
  if groupKind g = .port then modGroup g (fun x => { x with savedPort := some { getPort s (g - 0x28) with linkUp := 0 } }) s else s

/-- SCRUB: a cluster's tile memory is zeroed. What an engine keeps is its saved configuration, or nothing (R464). -/
def groupScrub (g : Nat) (s : State) : State :=
  if groupKind g = .cluster then zeroGranules 0 (2 ^ g) s else s

/-- A port's links go down (R465). -/
def portDown (m : Moment) (p : Nat) (s : State) : State :=
  let x := getPort s p
  let was := setBits 4 x.linkUp
  let s := was.foldl (fun s k => noteLink (4 * p + k) false s) (setPort p { x with linkUp := 0 } s)
  failDownQps m s

/-- A group has changed from `was` to its new state: what goes with it (R463 to R465). An unpowered LPDDR6 pair loses its contents
(log entry 6). -/
def groupChanged (m : Moment) (g was : Nat) (s : State) : State :=
  let now := (getGroup s g).state
  match groupKind g with
  | .lpddr => if now = 0 && was ≠ 0 then zeroGranules 2 (2 ^ (g - 0x18)) s else s
  | .port =>
    if now ≤ 1 then (if 1 < was then portDown m (g - 0x28) s else s)
    else if was ≤ 1 then
      match (getGroup s g).savedPort with
      | some p => modGroup g (fun x => { x with savedPort := none }) (setPort (g - 0x28) p s)
      | none => s
    else s
  | .link =>
    if now ≤ 1 then (if 1 < was then disableLink (g - 0x30) s else s)
    else if was ≤ 1 then startTraining (g - 0x30) s
    else s
  | _ => s

/-- SWITCH ends: the group is in its new state and at its new point, and the next transition starts. -/
def groupSwitch (m : Moment) (g : Nat) (t : Trans) (s : State) : State :=
  let was := (getGroup s g).state
  let s := modGroup g (fun x =>
    let x := { x with state := t.state.getD x.state, run := none }
    match t.perf with
    | none => x
    | some p => if s.pwr.tripped then { x with restore := p } else { x with perf := p }) s
  let s := pwrProgress t.op (groupChanged m g was s)
  let s := if (getGroup s g).state = 3 then modGroup g (fun x => { x with waiting := false }) s else s
  leaveHeld g 4 s

/-- Whether a layer group runs on a cluster: a change of its point waits for the group's boundary (R466). -/
def midGroup (s : State) (g : Nat) : Bool :=
  groupKind g = .cluster && s.tile.invs.any (fun e => e.2.running.isSome && bit e.2.spanMask g)

/-- A phase of a group's transition ends. DRAIN does not while work is in flight, nor a change of a cluster's running point within a
layer group. -/
def groupPhase (m : Moment) (g : Nat) (s : State) : State :=
  match (getGroup s g).run with
  | none => s
  | some t =>
    if t.phase = 2 && !groupDrained s g then s
    else if t.phase = 5 && t.perf.isSome && !s.pwr.tripped && midGroup s g then s
    else if t.phase = 5 then groupSwitch m g t s
    else
      let s := if t.phase = 3 then groupSave g s else if t.phase = 4 then groupScrub g s else s
      pwrProgress t.op (modGroup g (fun x => { x with run := some { t with phase := nextPhase g t } }) s)

end Sys2Proof.Machine
end

