-- ==== Sys2Proof/Machine/Protect.lean ====
section
/-! DEFINITION. The power registers, the protection trip and the way out of it (R470, R471, R485 to R490, 16). -/

namespace Sys2Proof.Machine

namespace St
def protectActive : Nat := 0x0E04
end St

/-! ### Junction temperatures (R470) -/

/-- The sum and the number of a sensor's last readings that are at most four, in 1/16 °C. -/
def sensorSum (l : List Int) : Int × Nat := (l.foldl (· + ·) 0, l.length)

/-- A sensor's mean, in 1/16 °C. -/
def sensorMean (l : List Int) : Int := if l = [] then 0 else l.foldl (· + ·) 0 / l.length

/-- Whether a sensor's mean reaches `v` °C. -/
def meanAtLeast (l : List Int) (v : Int) : Bool := l ≠ [] && decide (16 * v * l.length ≤ (sensorSum l).1)

/-- The hottest sensor and its mean; sensor 0 at 0 while none has been read. -/
def hottest (s : State) : Nat × Int :=
  match s.pwr.readings.map (fun e => (e.1, sensorMean e.2)) with
  | [] => (0, 0)
  | a :: l => l.foldl (fun a b => if a.2 < b.2 then b else a) a

/-- Whether some sensor's mean has reached the trip temperature. -/
def tooHot (s : State) : Bool := s.pwr.readings.any (fun e => meanAtLeast e.2 s.pwr.tripTemp)

/-- Whether the current has been above its limit for 50 µs. -/
def tooMuch (s : State) : Bool := s.pwr.ctAbove.any (fun c => decide (c + 50000 ≤ s.ct))

/-! ### Registers (R485) -/

/-- PWR_DEVICE, PWR_TEMP and PWR_CORE_AMPS. -/
def pwrDevice (s : State) : Nat := s.pwr.cause * 16 + b2n s.pwr.tripped * 2 + b2n (tooHot s || tooMuch s)
def pwrTemp (s : State) : Nat := (hottest s).1 * 2 ^ 16 + ofSigned 16 (hottest s).2
def pwrAmps (s : State) : Nat := sat 32 s.pwr.amps

/-! ### PWR_QUERY -/

def opPwrQuery : OpInfo := { opcode := 0x0E01, mctp := true }

/-- PWR_QUERY. -/
def bodyPwrQuery (_ : Moment) (_ : Req) (s : State) : Reply :=
  .ok s ((List.range 64).flatMap (fun g => u32 (groupWord s g)) ++ u32 (pwrDevice s) ++ u32 (pwrTemp s) ++ u32 (pwrAmps s))

def execPwrQuery (m : Moment) (r : Req) (s : State) : Out := .next (runCommand opPwrQuery bodyPwrQuery m r s)

/-! ### The trip (R470) -/

/-- Changes every tile cluster of the grade. -/
def modClusters (f : Group → Group) (s : State) : State :=
  (List.range (tileGranules s)).foldl (fun s g => modGroup g f s) s

/-- A trip for causes 1 temperature, 2 current: every cluster runs at P3, the device enters SAFE, tells the host and counts. A
frozen device stays FROZEN; a further cause in SAFE is added to the first, and a device that boots trips once it has booted (log
entry 47). -/
def trip (cause sensor : Nat) (temp : Int) (s : State) : State :=
  if s.bench.devState = .booting then s
  else
  let known := bit s.pwr.cause (cause - 1)
  let s := if known then s else { s with pwr := { s.pwr with cause := s.pwr.cause + cause } }
  if known || s.pwr.tripped then s
  else
    let life := s.aon.life
    let life := if cause = 1 then { life with thermal := life.thermal + 1 } else { life with overCurrent := life.overCurrent + 1 }
    let s := modClusters (fun x => { x with restore := x.perf, perf := 3 }) s
    let s := { s with
      bench := { s.bench with devState := if s.bench.devState = .operating then .safe else s.bench.devState }
      pwr := { s.pwr with tripped := s.bench.devState = .operating }
      elec := { s.elec with alert := true }
      aon := { s.aon with life } }
    note 0x0E01 2 0xFF 0 [cause, sensor, ofSigned 64 temp, s.pwr.amps] (bump .pwrTrips noPart 1 s)

/-- Takes a reading of a sensor; one outside −40 °C to 150 °C is discarded. -/
def takeReading (s : State) (e : Nat × Int) : State :=
  if e.1 < 64 && decide (-640 ≤ e.2) && decide (e.2 ≤ 2400) then
    { s with pwr := { s.pwr with readings := tset s.pwr.readings e.1 ((e.2 :: tgetD s.pwr.readings e.1 []).take 4) } }
  else s

/-- JUNCTION_SENSOR_SAMPLE: sensors with their readings in 1/16 °C. -/
def execJunctionSensorSample (m : Moment) (readings : List (Nat × Int)) (s : State) : Out :=
  let s := readings.foldl takeReading (s.at m)
  .next (match s.pwr.readings.find? (fun e => meanAtLeast e.2 s.pwr.tripTemp) with
    | some e => trip 1 e.1 (sensorMean e.2) s
    | none => s)

/-- CORE_CURRENT_SAMPLE: VDD_CORE's current in A. -/
def execCoreCurrentSample (m : Moment) (amps : Nat) (s : State) : Out :=
  let s := s.at m
  let above := if amps ≤ s.pwr.limit then none else some (s.pwr.ctAbove.getD s.ct)
  let s := { s with pwr := { s.pwr with amps, ctAbove := above } }
  .next (if tooMuch s then trip 2 (hottest s).1 (hottest s).2 s else s)

/-- THERMTRIP: the pin stays asserted until PWRGOOD falls. -/
def execThermtrip (m : Moment) (s : State) : Out :=
  let s := s.at m
  .next { s with elec := { s.elec with thermtrip := true } }

/-! ### PWR_RESUME (R471) -/

def opPwrResume : OpInfo := { opcode := 0x0E02, pf0 := true }

/-- Whether the device has cooled by 5 °C and its current is below the limit. -/
def cooled (s : State) : Bool :=
  s.pwr.readings.all (fun e => decide ((sensorSum e.2).1 ≤ 16 * ((s.pwr.tripTemp : Int) - 5) * e.2.length))
    && decide (s.pwr.amps < s.pwr.limit)

/-- PWR_RESUME. -/
def bodyPwrResume (_ : Moment) (_ : Req) (s : State) : Reply :=
  if s.bench.devState ≠ .safe then .ok s
  else if !cooled s then .err s St.protectActive
  else
    let s := modClusters (fun x => { x with perf := x.restore }) s
    .ok { s with
      bench := { s.bench with devState := .operating }
      pwr := { s.pwr with tripped := false, cause := 0 }
      elec := { s.elec with alert := false } }

def execPwrResume (m : Moment) (r : Req) (s : State) : Out := .next (runSettled opPwrResume bodyPwrResume m r s)

end Sys2Proof.Machine
end

