-- ==== Sys2Proof/Machine/Time.lean ====
section
/-! DEFINITION. Cluster time: its sources, the servo, holdover, CT_STEP and the calendar (R472 to R478, R487, 16; R349, 12). -/

namespace Sys2Proof.Machine

/-- Changes the clock. -/
def modClk (f : Clock → Clock) (s : State) : State := { s with clk := f s.clk }

/-! ### The time state (R475) -/

/-- 1 ms and 1 s of ct. -/
def msNs : Nat := 1000000
def secNs : Nat := 1000000000

/-- U (R475). -/
def uncertainty (s : State) : Nat :=
  match s.clk.tstate with
  | .locked => sat 64 s.clk.u
  | .holdover => sat 64 (s.clk.u0 + s.clk.oscPpb * (s.ct - s.clk.ctHold) / secNs)
  | _ => ones64

/-- Enters a time state; the Gauge's open windows tell of holdover and of a loss of time (R289). -/
def setTime (st : TimeState) (s : State) : State :=
  let s := (tkeys s.gau.classes).foldl (fun s c => rollGauge c s) s
  let s := modClk (fun c => { c with tstate := st }) s
  markWindows (fun w => { w with holdover := w.holdover || st = .holdover, timeLost := w.timeLost || timeLost s }) s

/-- An offset measurement is accepted and slewed, from source 1 PTP or 2 cadence. The correction's rate is a free value within
500 ppm (R472; log entry 48). -/
def acceptOffset (theta : Int) (source : Nat) (s : State) : State :=
  let was := s.clk.tstate
  let (v, s) := fresh s
  let rate : Int := if theta = 0 then 0 else (v % 1000001 : Nat) - 500000
  let s := setTime .locked (modClk (fun c => { c with offset := theta, u := theta.natAbs, source, rate }) s)
  if was = .holdover || was = .lost then note 0x0E05 0 0xFF 0 [ofSigned 64 theta, source] s else s

/-- An offset measurement is refused (R474). -/
def refuseOffset (theta : Int) (s : State) : State :=
  let tell := s.clk.refusedCt.all (fun c => decide (c + secNs ≤ s.ct))
  let s := bump .ctRefused noPart 1 (modClk (fun c => { c with
    offset := theta, pending := some (theta, s.ct), refusedCt := if tell then some s.ct else c.refusedCt }) s)
  if tell then note 0x0E06 1 0xFF 0 [ofSigned 64 theta] s else s

/-- A measurement from a source that gives the time both its epoch and its phase. -/
def measured (theta : Int) (source : Nat) (s : State) : State :=
  if theta.natAbs ≤ msNs then acceptOffset theta source s else refuseOffset theta s

/-- Whether PTP, and either source that `tsrc` admits, is not lost (R472, R474). -/
def ptpUp (c : Clock) : Bool := c.ptpLast.isSome
def sourceUp (c : Clock) : Bool :=
  match c.tsrc with
  | 0 => ptpUp c
  | 1 => ptpUp c || c.cadLocked
  | _ => c.cadLocked

/-- A source, 1 PTP or 2 cadence, has been lost: in LOCKED the other one stays in use, or the device enters HOLDOVER (R474, R475). -/
def sourceLost (lost : Nat) (s : State) : State :=
  if s.clk.tstate ≠ .locked then s
  else if sourceUp s.clk then modClk (fun c => { c with source := if c.cadLocked && c.tsrc ≠ 0 then 2 else 1 }) s
  else
    let u0 := uncertainty s
    note 0x0E03 1 0xFF 0 [u0, lost] (setTime .holdover (modClk (fun c => { c with ctHold := s.ct, u0, source := 0 }) s))

/-- HOLDOVER_BUDGET_EXCEEDED: a declared loss of time (R475). -/
def execHoldoverBudgetExceeded (m : Moment) (s : State) : Out :=
  let s := s.at m
  .next (if s.clk.tstate = .holdover && decide (s.clk.budget < uncertainty s) then note 0x0E04 2 0xFF 0 [s.clk.ctHold] (setTime .lost s)
    else s)

/-! ### PTP (R349, R474) -/

/-- The interface that the best master clock algorithm selects: the best rank heard, the lowest interface among equals. -/
def bmca (l : Tab (Nat × Nat × Nat)) : Option Nat :=
  match l with
  | [] => none
  | a :: t => some (t.foldl (fun a b => if b.2.1 < a.2.1 then b else a) a).1

/-- Selects again; PTP is lost when no port is left in the time-receiver state. -/
def ptpSelect (s : State) : State :=
  let sel := bmca s.net.ptp.heard
  let s := { s with net := { s.net with ptp := { s.net.ptp with selected := sel } } }
  if sel.isSome then s else sourceLost 1 (modClk (fun c => { c with ptpLast := none, skewRun := 0 }) s)

/-- Compares the two sources' offsets in PTP_CADENCE (R472). -/
def skewTest (s : State) : State :=
  let c := s.clk
  if c.tsrc ≠ 1 || !c.cadLocked || (c.ptpTheta - c.cadTheta).natAbs ≤ 10000 then modClk (fun c => { c with skewRun := 0 }) s
  else if c.skewRun < 15 then modClk (fun c => { c with skewRun := c.skewRun + 1 }) s
  else note 0x0E09 1 0xFF 0 [ofSigned 64 c.ptpTheta, ofSigned 64 c.cadTheta] (modClk (fun c => { c with skewRun := 0 }) s)

/-- A Sync of the selected port, with its offset. While the cadence is locked in PTP_CADENCE it keeps PTP as the epoch's source, and
its offset is not slewed; in CADENCE_HOST it is not used (log entry 48). -/
def ptpSync (theta : Int) (every : Nat) (s : State) : State :=
  let s := modClk (fun c => { c with
    ptpTheta := theta, ptpEvery := every, ptpLast := if theta.natAbs ≤ msNs then some s.ct else c.ptpLast }) s
  let s := skewTest s
  if s.clk.tsrc = 2 then s
  else if s.clk.tsrc = 1 && s.clk.cadLocked && decide (theta.natAbs ≤ msNs) then s
  else measured theta 1 s

/-- Message intervals of R349, in ns. -/
def syncEvery (n : Nat) : Bool := decide (7812500 ≤ n) && decide (n ≤ 2 * secNs)
def announceEvery (n : Nat) : Bool := decide (125000000 ≤ n) && decide (n ≤ 16 * secNs)

/-- PTP_MESSAGE_RECEIVE (R349). A message on an interface without a PTP port has no effect. -/
def execPtpMessageReceive (m : Moment) (msg : PtpMsg) (s : State) : Out :=
  let s := s.at m
  .next (match msg with
    | .sync i theta every =>
      if !bit s.net.ptp.ifMask i then s
      else if !syncEvery every then bump .netPtpIgnored noPart 1 s
      else if s.net.ptp.selected = some i then ptpSync theta every s
      else s
    | .announce i rank every =>
      if !bit s.net.ptp.ifMask i then s
      else if !announceEvery every then bump .netPtpIgnored noPart 1 s
      else ptpSelect { s with net := { s.net with ptp := { s.net.ptp with heard := tset s.net.ptp.heard i (rank, every, s.ct) } } })

/-- PTP_ANNOUNCE_TIMEOUT: three announce intervals without an Announce (R349). -/
def execPtpAnnounceTimeout (m : Moment) (i : Nat) (s : State) : Out :=
  let s := s.at m
  .next (match tget s.net.ptp.heard i with
    | some (_, every, ct) =>
      if ct + 3 * every ≤ s.ct then
        ptpSelect { s with net := { s.net with ptp := { s.net.ptp with heard := tdel s.net.ptp.heard i } } }
      else s
    | none => s)

/-- PTP_SOURCE_LOSS: no Sync accepted for four Sync intervals, or no port in the time-receiver state (R474). -/
def execPtpSourceLoss (m : Moment) (s : State) : Out :=
  let s := s.at m
  .next (match s.clk.ptpLast with
    | some ct =>
      if decide (ct + 4 * s.clk.ptpEvery ≤ s.ct) || s.net.ptp.selected.isNone then
        sourceLost 1 (modClk (fun c => { c with ptpLast := none, skewRun := 0 }) s)
      else s
    | none => s)

/-! ### CADENCE_IN (R473) -/

/-- The nearest multiple of the period to an edge, as its index, and θ of the edge. -/
def cadNearest (c : Clock) (edge : Nat) : Int × Int :=
  let e : Int := (edge : Int) - c.cadOffset
  let k := (2 * e + c.period) / (2 * c.period)
  (k, e - k * c.period)

/-- Whether `d` lies within ±0.1 % of the period. -/
def cadWindow (c : Clock) (d : Int) : Bool := decide (d.natAbs * 1000 ≤ c.period)

/-- An accepted edge gives its offset. In PTP_CADENCE one beyond 1 ms is not slewed (log entry 48). -/
def cadAccept (theta : Int) (s : State) : State :=
  let s := modClk (fun c => { c with cadLast := s.ct, cadNoise := false, cadTheta := theta }) s
  if s.clk.tsrc = 1 && decide (msNs < theta.natAbs) then s else measured theta 2 s

/-- An edge while the cadence is not locked: a candidate, or one of the three edges that follow it. -/
def cadAcquire (s : State) : State :=
  let c := s.clk
  match c.candidate with
  | some (t, k) =>
    if cadWindow c ((s.ct : Int) - t - (k + 1) * c.period) then
      if k < 2 then modClk (fun c => { c with candidate := some (t, k + 1) }) s
      else cadAccept (cadNearest c s.ct).2 (modClk (fun c => { c with candidate := none, cadLocked := true }) s)
    else modClk (fun c => { c with candidate := some (s.ct, 0) }) s
  | none => modClk (fun c => { c with candidate := some (s.ct, 0) }) s

/-- CADENCE_EDGE: a rising edge of a pulse of `width` ns. -/
def execCadenceEdge (m : Moment) (width : Nat) (s : State) : Out :=
  let s := s.at m
  let c := s.clk
  .next (if c.tsrc = 0 then s
    else if width < 20 then bump .ctGlitch noPart 1 s
    else if !c.cadLocked then cadAcquire s
    else
      let (k, theta) := cadNearest c s.ct
      if cadWindow c theta && decide ((cadNearest c c.cadLast).1 < k) then cadAccept theta s
      else bump .ctChatter noPart 1 (modClk (fun c => { c with cadNoise := true }) s))

/-- CADENCE_LOSS: no edge accepted for three periods. -/
def execCadenceLoss (m : Moment) (s : State) : Out :=
  let s := s.at m
  let c := s.clk
  .next (if c.cadLocked && decide (c.cadLast + 3 * c.period ≤ s.ct) then
      sourceLost 2 (note 0x0E08 1 0xFF 0 [b2n c.cadNoise] (modClk (fun c => { c with cadLocked := false, candidate := none, skewRun := 0 }) s))
    else s)

/-! ### CT_CONFIG (R470 to R475) -/

def opCtConfig : OpInfo := { opcode := 0x0E03, pf0 := true, rsvd := [(1, 3), (0x15, 1)] }

/-- The ranges of the time and protection fields. -/
def timeRanges (tsrc period osc budget trip limit : Nat) : Bool :=
  decide (tsrc ≤ 2) && decide (100000 ≤ period) && decide (period ≤ 1000000000) && period % 1000 = 0
    && decide (10 ≤ osc) && decide (osc ≤ 100000) && decide (1000 ≤ budget) && decide (budget ≤ secNs)
    && decide (95 ≤ trip) && decide (trip ≤ 112) && decide (1000 ≤ limit) && decide (limit ≤ 2400)

/-- Sets the running time and protection configuration. A change of the cadence's meaning drops its lock. -/
def setTimeConfig (tsrc period : Nat) (offset : Int) (osc budget trip limit : Nat) (s : State) : State :=
  let drop := tsrc = 0 || period ≠ s.clk.period || offset ≠ s.clk.cadOffset
  let s := modClk (fun c => { c with
    tsrc, period, cadOffset := offset, oscPpb := osc, budget
    cadLocked := c.cadLocked && !drop, candidate := if drop then none else c.candidate }) s
  { s with pwr := { s.pwr with tripTemp := trip, limit } }

/-- CT_CONFIG; where no source remains, the one in use is lost. -/
def bodyCtConfig (_ : Moment) (r : Req) (s : State) : Reply :=
  if timeRanges (r.f 0 1) (r.f 4 4) (r.f 0x0C 4) (r.f 0x10 4) (r.f 0x14 1) (r.f 0x16 2) then
    .ok (sourceLost s.clk.source
      (setTimeConfig (r.f 0 1) (r.f 4 4) (toSigned 32 (r.f 8 4)) (r.f 0x0C 4) (r.f 0x10 4) (r.f 0x14 1) (r.f 0x16 2) s))
  else .err s St.badField

def execCtConfig (m : Moment) (r : Req) (s : State) : Out := .next (runCommand opCtConfig bodyCtConfig m r s)

/-! ### CT_STEP (R476) -/

def opCtStep : OpInfo := { opcode := 0x0E04, pf0 := true, rsvd := [(1, 7)] }

/-- The Gauge's windows close with STEPPED at the old ct, and open again at the new one. -/
def stepWindows (new : Nat) (s : State) : State :=
  let s := (tkeys s.gau.classes).foldl (fun s c => closeEarly c true false s.ct (closeEnding c (rollGauge c s))) s
  (tkeys s.gau.classes).foldl (fun s c => openGauge c ((getGauge s c).map (·.opened.windowS) |>.getD 1) s) { s with ct := new }

/-- What restarts at the new ct: quarantines, the audit's and the checkpoint periods' next multiples (R356, R308, R419). -/
def stepTimers (s : State) : State :=
  { s with
    net := { s.net with regions := s.net.regions.map (fun e =>
      if e.2.rstate = .quarantine then (e.1, { e.2 with ctDereg := s.ct }) else e) }
    tly := { s.tly with auditEnd := min s.tly.auditEnd s.ct }
    mld := { s.mld with groups := s.mld.groups.map (fun e =>
      (e.1, { e.2 with lastTimer := min e.2.lastTimer (s.ct / max 1 e.2.period) })) } }

/-- Whether a source is present: a port in the time-receiver state, or a locked cadence. -/
def sourcePresent (s : State) : Bool :=
  match s.clk.tsrc with
  | 0 => s.net.ptp.selected.isSome
  | 1 => s.net.ptp.selected.isSome || s.clk.cadLocked
  | _ => s.clk.cadLocked

/-- The clock after a step of `delta`: LOCKED where a source is present and the step has cleared its pending offset, else FREE_RUN. -/
def stepClock (old new : Nat) (s : State) : State :=
  let left := s.clk.pending.map (fun x => x.1 + ((new : Int) - old))
  let ok := sourcePresent s && left.any (fun x => decide (x.natAbs ≤ msNs))
  let source := if !ok then 0 else if s.clk.cadLocked && s.clk.tsrc ≠ 0 then 2 else 1
  let s := modClk (fun c => { c with
    pending := none, source, u := ((left.getD 0).natAbs)
    cadLast := min c.cadLast new
    ptpLast := if ok && s.net.ptp.selected.isSome then some new else c.ptpLast.map (min new) }) s
  setTime (if ok then .locked else .freeRun) s

/-- CT_STEP: the only jump of ct. -/
def bodyCtStep (_ : Moment) (r : Req) (s : State) : Reply :=
  let target : Option Nat :=
    if r.f 0 1 = 1 then some (r.f 8 8)
    else if r.f 0 1 = 0 then
      (s.clk.pending.filter (fun x => decide (s.ct ≤ x.2 + 10 * secNs))).map (fun x => ((s.ct : Int) - x.1).toNat)
    else none
  match target with
  | none => .err s St.badField
  | some new =>
    let old := s.ct
    let s := closeEpoch s
    let s := stepClock old new (stepTimers (stepWindows new s))
    let s := note 0x0E07 1 0xFF 0 [old, new] (bump .ctSteps noPart 1 s)
    .ok s (u64 old ++ u64 new)

def execCtStep (m : Moment) (r : Req) (s : State) : Out := .next (runCommand opCtStep bodyCtStep m r s)

/-! ### The calendar (R478) -/

def opCtLeapLoad : OpInfo := { opcode := 0x0E05, pf0 := true, rsvd := [(1, 7)] }

/-- `n` leap entries of 16 bytes from an offset. -/
def leapEntries (b : Bytes) (o n : Nat) : List (Nat × Int) :=
  (List.range n).map (fun i => (field b (o + 16 * i) 8, toSigned 16 (field b (o + 16 * i + 8) 2)))

/-- Entries ascend strictly and their offsets change by one. -/
def leapAscends : List (Nat × Int) → Bool
  | a :: b :: t => decide (a.1 < b.1) && (b.2 = a.2 + 1 || b.2 = a.2 - 1) && leapAscends (b :: t)
  | _ => true

/-- Whether a table may be installed: its reserved bytes too are zero. -/
def leapOk (b : Bytes) (o n expires : Nat) : Bool :=
  decide (n ≤ 64) && leapAscends (leapEntries b o n)
    && ((leapEntries b o n).getLast?).all (fun e => decide (e.1 < expires))
    && (List.range n).all (fun i => field b (o + 16 * i + 10) 6 = 0)

/-- CT_LEAP_LOAD. -/
def bodyCtLeapLoad (_ : Moment) (r : Req) (s : State) : Reply :=
  if leapOk r.payload 0x10 (r.f 0 1) (r.f 8 8) then
    .ok (modClk (fun c => { c with leap := leapEntries r.payload 0x10 (r.f 0 1), expires := r.f 8 8, leapStale := false }) s)
  else .err s St.badField

def execCtLeapLoad (m : Moment) (r : Req) (s : State) : Out := .next (runCommand opCtLeapLoad bodyCtLeapLoad m r s)

/-- LEAP_EXPIRY: the table's end is told once. -/
def execLeapExpiry (m : Moment) (s : State) : Out :=
  let s := s.at m
  .next (if !s.clk.leapStale && decide (s.clk.expires ≤ s.ct) then
      note 0x0E0A 1 0xFF 0 [s.clk.expires] (modClk (fun c => { c with leapStale := true }) s)
    else s)

/-- L at a ct. -/
def taiUtc (s : State) (ct : Nat) : Int :=
  (((s.clk.leap.filter (fun e => decide (e.1 ≤ ct))).getLast?).map (·.2)).getD Config.leapBase

/-- Whether a ct lies in the second that a positive leap inserts. -/
def inLeap (s : State) (ct : Nat) : Bool :=
  s.clk.leap.any (fun e => decide (ct < e.1) && decide (e.1 ≤ ct + secNs) && decide (taiUtc s (e.1 - 1) < e.2))

/-- Year, month and day of a day number counted from 1970-01-01, in the proleptic Gregorian calendar: years of 400-year eras begin
on 1 March. -/
def civil (day : Int) : Int × Nat × Nat :=
  let z := day + 719468
  let era := z / 146097
  let doe := (z - era * 146097).toNat
  let yoe := (doe - doe / 1460 + doe / 36524 - doe / 146096) / 365
  let doy := doe - (365 * yoe + yoe / 4 - yoe / 100)
  let mp := (5 * doy + 2) / 153
  let month := if mp < 10 then mp + 3 else mp - 9
  ((yoe : Int) + era * 400 + (if month ≤ 2 then 1 else 0), month, doy - (153 * mp + 2) / 5 + 1)

/-- CT_UTC_DATE, CT_UTC_TIME and CT_UTC_NS at the present ct (R487). -/
def utcWords (s : State) : Nat × Nat × Nat :=
  let leap := inLeap s s.ct
  let t : Int := (s.ct / secNs : Nat) - taiUtc s s.ct - (if leap then 1 else 0)
  let (y, mo, d) := civil (t / 86400)
  let sod := (t % 86400).toNat
  let sec := if leap then 60 else sod % 60
  (ofSigned 14 y * 2 ^ 18 + mo * 2 ^ 14 + d * 2 ^ 9, sod / 3600 * 2 ^ 27 + sod / 60 % 60 * 2 ^ 21 + sec * 2 ^ 15, s.ct % secNs)

end Sys2Proof.Machine
end

