-- ==== Sys2Proof/Machine/Retention.lean ====
section
/-! DEFINITION. Settings images, OTP generations, the retention domain and the lifetime record (R479 to R484, R490, 16). -/

namespace Sys2Proof.Machine

namespace St
def settingsInvalid : Nat := 0x0E05
def otpFull : Nat := 0x0E06
def otpFailed : Nat := 0x0E07
end St

/-! ### Settings images (R480, R481) -/

/-- Bytes of an image and of a signature block. -/
def imageLen : Nat := 2048
def blockLen : Nat := 5408

/-- The ROM defaults. -/
def romImage : Bytes :=
  let b := fit 0x7FC (u32 0x31544553 ++ u16 1 ++ u16 0 ++ u32 2048 ++ zeros 4 ++ List.replicate 64 3
    ++ zeros 8 ++ u32 1000000 ++ zeros 4 ++ u32 2000 ++ u32 1000000 ++ zeros 40 ++ u16 110 ++ u16 2400)
  b ++ u32 (crc32c b)

/-- A group's byte of `boot_state`: absent groups are ignored, and an HBM stack cannot be OFF (R464; log entry 47). -/
def bootStateOk (s : State) (b : Bytes) (g : Nat) : Bool :=
  let v := field b (0x10 + g) 1
  !groupPresent s g || (decide (v < 16) && !(groupKind g = .hbm && v % 4 = 0))

/-- Whether an image is valid: magic, version, length, CRC and every field's range. `leap_count` is one byte, as CT_LEAP_LOAD's
(log entry 49). -/
def imageValid (s : State) (b : Bytes) : Bool :=
  b.length = imageLen && field b 0 4 = 0x31544553 && field b 4 2 = 1 && field b 8 4 = 2048
    && field b 0x7FC 4 = crc32c (b.take 0x7FC)
    && [(0x0C, 4), (0x68, 40), (0x94, 12), (0x4B0, 844)].all (fun x => field b x.1 x.2 = 0)
    && (List.range 64).all (bootStateOk s b)
    && decide (field b 0x51 1 ≤ 1) && decide (field b 0x52 1 ≤ 2) && decide (field b 0x53 1 ≤ 127)
    && timeRanges (field b 0x50 1) (field b 0x58 4) (field b 0x60 4) (field b 0x64 4) (field b 0x90 2) (field b 0x92 2)
    && leapOk b 0xB0 (field b 0xA0 1) (field b 0xA8 8)

/-- Changes the retention domain. -/
def modAon (f : Aon → Aon) (s : State) : State := { s with aon := f s.aon }

/-- OTP generations that are valid, as a mask. -/
def otpValid (s : State) : Nat :=
  maskOf ((tfind s.aon.otp (imageValid s)).filter (fun g => !s.aon.otpBad.contains g))

/-- OTP generations programmed, as a mask. -/
def otpProgrammed (s : State) : Nat := maskOf (tkeys s.aon.otp)

/-- AON_SETTINGS_SRC (R485). -/
def settingsSrc (s : State) : Nat :=
  otpValid s * 2 ^ 12 + otpProgrammed s * 2 ^ 8 + (if s.aon.src = 1 then s.aon.genUsed * 2 ^ 4 else 0) + s.aon.src

/-! ### AON_SETTINGS_SAVE and AON_SETTINGS_READ -/

/-- The RSVD fields of an image: bytes, and the upper half of the `boot_state` of every group that each grade has (R480). -/
def imageRsvd : List (Nat × Nat) :=
  [(0x0C, 4), (0x68, 40), (0x94, 12), (0x4B0, 844)] ++ (List.range 64).map (fun i => (0xBA + 16 * i, 6))
def imageRbits : List (Nat × Nat × Nat) :=
  ((List.range 64).filter (fun g => g ≠ 0x0E && g ≠ 0x0F)).map (fun g => (0x10 + g, 1, 0xF0))

/-- A non-zero RSVD field is the command's BAD_FIELD (R10); other faults of the image are SETTINGS_INVALID. -/
def opAonSettingsSave : OpInfo := { opcode := 0x0E06, pf0 := true, rsvd := imageRsvd, rbits := imageRbits }

/-- AON_SETTINGS_SAVE. -/
def bodyAonSettingsSave (_ : Moment) (r : Req) (s : State) : Reply :=
  let b := r.b 0 imageLen
  if [0x0E, 0x0F].any (fun g => groupPresent s g && decide (16 ≤ field b (0x10 + g) 1)) then .err s St.badField
  else if imageValid s b then .ok (modAon (fun a => { a with settings := some b }) s) else .err s St.settingsInvalid

def execAonSettingsSave (m : Moment) (r : Req) (s : State) : Out := .next (runCommand opAonSettingsSave bodyAonSettingsSave m r s)

def opAonSettingsRead : OpInfo := { opcode := 0x0E07, mctp := true }

/-- An image by AON_SETTINGS_READ's number. -/
def settingsImage (s : State) (which : Nat) : Option Bytes :=
  match which with
  | 0 => if s.aon.src = 0 then s.aon.settings else if s.aon.src = 1 then tget s.aon.otp s.aon.genUsed else some romImage
  | 1 => s.aon.settings
  | 6 => some romImage
  | n => tget s.aon.otp (n - 2)

/-- AON_SETTINGS_READ: an absent image reads as zeros, with `detail` 1. -/
def bodyAonSettingsRead (_ : Moment) (r : Req) (s : State) : Reply :=
  if 6 < r.f 0 1 then .err s St.badField
  else
    match settingsImage s (r.f 0 1) with
    | some b => .ok s b
    | none => { st := s, detail := 1, result := zeros imageLen }

def execAonSettingsRead (m : Moment) (r : Req) (s : State) : Out := .next (runCommand opAonSettingsRead bodyAonSettingsRead m r s)

/-! ### OTP_PROGRAM (R482) -/

def opOtpProgram : OpInfo := { opcode := 0x0E08, pf0 := true }

/-- The lowest generation neither programmed nor being programmed. -/
def otpFree (s : State) : Option Nat :=
  (List.range 4).find? (fun g => !thas s.aon.otp g && !s.bench.ops.any (fun e => e.2.opcode = 0x0E08 && e.2.args.getD 0 4 = g))

/-- OTP_PROGRAM: the image and its block are verified, and the generation is then programmed and read back. -/
def bodyOtpProgram (_ : Moment) (r : Req) (s : State) : Reply :=
  withData r (imageLen + blockLen) s fun b =>
    let img := b.take imageLen
    let blk := b.drop imageLen
    match otpFree s with
    | none => .err s St.otpFull
    | some g =>
      if !imageValid s img then .err s St.settingsInvalid
      else if !blockValid blk 4 (fit 32 (Config.blake3 (deviceId ++ u8 g ++ img))) then
        .err (sigRejected 4 stSigInvalid 0xFF s) stSigInvalid
      else if !rootTrusted s blk then .err (sigRejected 4 stKeyUntrusted 0xFF s) stKeyUntrusted
      else asOp r s 1 1 (imageLen + blockLen + 2 * imageLen) true (g :: img.map (·.toNat)) fun _ s => s

def execOtpProgram (m : Moment) (r : Req) (s : State) : Out := .next (runCommand opOtpProgram bodyOtpProgram m r s)

/-- A generation holds an image, or bytes that the manual does not give where its readback differs: they count as programmed and fail
their CRC (R482; log entry 49). -/
def otpStore (g : Nat) (img : Bytes) (good : Bool) (s : State) : State :=
  let b := if good then img else Config.remoteBytes s.free [9, g] imageLen
  modAon (fun a => { a with otp := tset a.otp g b, otpBad := if good then a.otpBad else a.otpBad ++ [g] }) { s with free := s.free + 1 }

/-- The end of a programming, with its readback. -/
def endOtpProgram (n : Nat) (o : LongOp) (good : Bool) (s : State) : State :=
  let g := o.args.getD 0 0
  if o.cancelling then endOp n St.cancelled 0 [] s
  else
    let s := otpStore g ((o.args.drop 1).map (BitVec.ofNat 8)) good s
    if good then endOp n St.ok 0 (u8 g) s else endOp n St.otpFailed 0 [] s

/-! ### The lifetime record (R483, R484) -/

/-- The 512-byte record. -/
def lifeBytes (x : LifeRec) : Bytes :=
  let b := fit 0x1FC (u32 0x3146494C ++ u16 1 ++ zeros 2 ++ u64 x.seq ++ u64 x.ct ++ u64 x.powerOnS ++ u32 x.cycles ++ u32 x.resets
    ++ u32 x.thermal ++ u32 x.overCurrent ++ (takeD 8 0 x.tempBand).flatMap u64
    ++ (List.range 64).flatMap (fun k => u32 (sat 32 (tgetD x.clusterS k 0)))
    ++ (takeD 8 0 x.hbmCe).flatMap u64 ++ u64 x.sessCeil ++ u64 x.cutCeil ++ u64 x.repCeil)
  b ++ u32 (crc32c b)

def opAonLifeRead : OpInfo := { opcode := 0x0E09, mctp := true }

/-- AON_LIFE_READ. -/
def bodyAonLifeRead (_ : Moment) (_ : Req) (s : State) : Reply := .ok s (lifeBytes s.aon.life)

def execAonLifeRead (m : Moment) (r : Req) (s : State) : Out := .next (runCommand opAonLifeRead bodyAonLifeRead m r s)

/-- The temperature band of the hottest sensor, in 1/16 °C. -/
def tempBandOf (t : Int) : Nat := ((List.range 7).filter (fun i => decide ((16 * (45 + 10 * i) : Nat) ≤ t))).length

/-- A second's counts: of power, of the hottest sensor's band and of each ACTIVE cluster at its point. -/
def lifeSecond (s : State) (x : LifeRec) : LifeRec :=
  let cl := (List.range (tileGranules s)).filter (fun g => (getGroup s g).state = 3)
  { x with
    powerOnS := x.powerOnS + 1
    tempBand := addAt (takeD 8 0 x.tempBand) (tempBandOf (hottest s).2) 1
    clusterS := cl.foldl (fun t g => tset t (4 * g + (getGroup s g).perf) (tgetD t (4 * g + (getGroup s g).perf) 0 + 1)) x.clusterS }

/-- LIFE_MIRROR_UPDATE: once in each second of ct. -/
def execLifeMirrorUpdate (m : Moment) (s : State) : Out :=
  let s := s.at m
  .next (if s.aon.mirror.any (fun x => x.ct / secNs = s.ct / secNs) then s
    else
      let life := lifeSecond s s.aon.life
      modAon (fun a => { a with life, mirror := some { life with ct := s.ct } }) s)

/-! ### The journal (R484) -/

/-- Slots of a sector and of the region. -/
def sectorSlots : Nat := 128
def journalSlots : Nat := 4096

/-- The ticks of the RTC now (R479); they stand while the crystal does. -/
def rtcNow (s : State) : Nat :=
  if s.elec.xtal then s.aon.rtc + (s.ct - s.aon.rtcCt) * 32768 / secNs else s.aon.rtc

/-- While LOCKED the RTC is set from ct; with the crystal running it is then valid. -/
def setRtc (s : State) : State :=
  if s.clk.tstate = .locked then
    modAon (fun a => { a with rtc := s.ct * 32768 / secNs, rtcCt := s.ct }) { s with elec := { s.elec with rtcValid := s.elec.xtal } }
  else s

/-- The slot that takes the next record, once the sectors that fail have been retired and skipped; none when all are retired. -/
def journalSlot (failing : List Nat) : Nat → Nat → List Nat → State → Option Nat × List Nat × State
  | 0, _, ret, s => (none, ret, s)
  | fuel + 1, slot, ret, s =>
    let sec := slot / sectorSlots
    let next := ((sec + 1) * sectorSlots) % journalSlots
    if ret.contains sec then journalSlot failing fuel next ret s
    else if failing.contains sec then
      let ret := ret ++ [sec]
      journalSlot failing fuel next ret (note 0x0E0C (if ret.length = 32 then 2 else 1) 0xFF 0 [sec] s)
    else (some slot, ret, s)

/-- Appends the lifetime record with fresh ceilings. -/
def journal (failing : List Nat) (s : State) : State :=
  let (slot, retired, s) := journalSlot failing 64 s.aon.nextSlot s.aon.retired s
  let s := setRtc (modAon (fun a => { a with retired }) s)
  match slot with
  | none => s
  | some k =>
    let a := s.aon
    let x := { a.life with
      seq := a.jSeq + 1, ct := s.ct, sessCeil := a.sessSerial + 2 ^ 24, cutCeil := a.cutSerial + 2 ^ 24
      repCeil := a.reportSeq + 2 ^ 24 }
    modAon (fun a => { a with life := x, flash := some x, jSeq := x.seq, jCt := s.ct, nextSlot := (k + 1) % journalSlots }) s

/-- Whether a serial has come within 2^23 of its journalled ceiling. -/
def ceilingNear (s : State) : Bool :=
  decide (s.aon.life.sessCeil ≤ s.aon.sessSerial + 2 ^ 23) || decide (s.aon.life.cutCeil ≤ s.aon.cutSerial + 2 ^ 23)
    || decide (s.aon.life.repCeil ≤ s.aon.reportSeq + 2 ^ 23)

/-- LIFE_JOURNAL_WRITE: at each multiple of 600 s, and when a serial nears its ceiling. `failing` are the sectors whose erase or
program fails. -/
def execLifeJournalWrite (m : Moment) (failing : List Nat) (s : State) : Out :=
  let s := s.at m
  let span := 600 * secNs
  .next (if s.ct / span ≠ s.aon.jCt / span || ceilingNear s then journal failing s else s)

def opAonLifeSync : OpInfo := { opcode := 0x0E0A, pf0 := true }

/-- AON_LIFE_SYNC: the sectors that fail are the device's pick (log entry 2). -/
def bodyAonLifeSync (m : Moment) (_ : Req) (s : State) : Reply :=
  let s := journal m.choice s
  .ok s (u64 s.aon.jSeq)

def execAonLifeSync (m : Moment) (r : Req) (s : State) : Out := .next (runCommand opAonLifeSync bodyAonLifeSync m r s)

end Sys2Proof.Machine
end

