-- ==== Sys2Proof/Machine/ErrorUnit.lean ====
section
/-! DEFINITION. Corrected, contained and device-fatal errors, the management view, and the diagnostic commands (R501 to R512, 17). -/

namespace Sys2Proof.Machine

namespace St
def stateSkew : Nat := 0x0F02
def bootStop : Nat := 0x0F05
def flashFailed : Nat := 0x0F07
def trainFailed : Nat := 0x0F04
end St

/-! ### Corrected errors (R502) -/

/-- The partition that owns a channel of HBM (16 to a granule) or LPDDR6 (two to a granule). -/
def channelPart (s : State) (tier chan : Nat) : Option Nat :=
  (s.hmk.parts.find? (fun e => if tier = 1 then bit e.2.hbmMask (chan / 16) else bit e.2.lpddrMask (chan / 2))).map (·.1)

/-- Counts a corrected error of a channel, or of SRAM (tier 0), and feeds the error triggers. -/
def countCorrected (tier chan : Nat) (s : State) : State :=
  let s := if tier = 0 then modErr (fun e => { e with ceSram := e.ceSram + 1 }) s
    else if tier = 1 then
      modAon (fun a => { a with life := { a.life with hbmCe := addAt (takeD 8 0 a.life.hbmCe) (chan / 32) 1 } })
        (modErr (fun e => { e with ceHbm := addAt (takeD 8 0 e.ceHbm) (chan / 32) 1 }) s)
    else modErr (fun e => { e with ceLpddr := tset e.ceLpddr chan (tgetD e.ceLpddr chan 0 + 1) }) s
  if tier = 0 then s
  else match channelPart s tier chan with
    | some p => countError p s
    | none => s

/-- CE_THRESHOLD: a channel's count within 1 s has reached 1,000; at most one event per channel and second. -/
def ceThreshold (tier chan : Nat) (s : State) : State :=
  let key := tier * 4096 + chan
  let l := ((s.ct :: tgetD s.err.ceRecent key []).filter (fun c => decide (s.ct < c + secNs))).take 1000
  let s := modErr (fun e => { e with ceRecent := tset e.ceRecent key l }) s
  if l.length < 1000 || (tget s.err.ceLogged key).any (fun c => decide (s.ct < c + secNs)) then s
  else note 0x0F05 1 0xFF 0 [tier, chan, l.length] (modErr (fun e => { e with ceLogged := tset e.ceLogged key s.ct }) s)

/-- A corrected error. -/
def corrected (tier chan : Nat) (s : State) : State :=
  let s := countCorrected tier chan s
  if tier = 0 then s else ceThreshold tier chan s

/-- CORRECTED_ERROR (R502). -/
def execCorrectedError (m : Moment) (tier chan : Nat) (s : State) : Out := .next (settleAll m (corrected tier chan (s.at m)))

/-- PATROL_SCRUB_PASS (R502). -/
def execPatrolScrubPass (m : Moment) (s : State) : Out :=
  let s := s.at m
  .next (modErr (fun e => { e with patrolCt := s.ct }) s)

/-! ### Contained errors (R503) -/

/-- Owner's kind, by the rows of R503 in order, its identifier and its partition (log entry 50). -/
def ueOwner (s : State) (d : UeData) : Nat × Nat × Nat :=
  let sess (id : Nat) : Nat := (((getSess s id).map (·.partition)).orElse (fun _ => (getDir s id).map (·.partition))).getD 0xFF
  match d with
  | .session id => (0, id, sess id)
  | .invocation k => (1, k, ((tget s.tile.invs k).map (·.partition)).getD 0xFF)
  | .weight k => (2, k, (getModel s k).partition)
  | .node p i _ => (3, i, p)
  | .parked k => (4, ((getFop s k).map (·.session)).getD 0, ((getFop s k).map (·.partition)).getD 0xFF)
  | .tables _ id => (5, id, sess id)
  | .spill id => (6, id, sess id)
  | .touchstone q _ => (7, q, ((tget s.tch.queries q).map (queryPart s)).getD 0xFF)
  | .gather fn n _ => (8, mbxKey fn n, fnPart fn)
  | .cut g => (9, g, ((getGroupCk s g).map (·.partition)).getD 0xFF)
  | .qp h => (10, h, ((qpOf s h).map (fun x => x.2.partition)).getD 0xFF)
  | .readRegion h _ => (11, h, ((qpOf s h).map (fun x => x.2.partition)).getD 0xFF)
  | .bar2 fn => (12, fn, fnPart fn)
  | .shared u => (13, u, 0xFF)

/-- Counts, logs and records a contained error. -/
def ueContained (d : UeData) (a : UeAt) (s : State) : State :=
  let (kind, owner, part) := ueOwner s d
  ueLog kind owner part a s

/-- A session's records leave its ring's spill buffer. -/
def dropSpill (id : Nat) (s : State) : State :=
  match (getSess s id).bind ringOf with
  | none => s
  | some k =>
    match getRing s k with
    | none => s
    | some x =>
      let n := (x.spill.filter (fun e => e.session = id)).length
      let s := setRing k { x with spill := x.spill.filter (fun e => e.session ≠ id) } s
      if n = 0 then s else move Lg.spill k 2 0 n 7 id s

/-- The owner's context is torn down. -/
def ueOwnerEnds (m : Moment) (d : UeData) (s : State) : State :=
  let st := St.uncorrectable
  match d with
  | .session id => faultSession id st s
  | .invocation k => invFault k 2 0 s
  | .weight slot =>
    (match tfind s.tile.invs (fun v => v.slot = slot && v.resident) with
    | k :: _ => invFault k 3 0 s
    | [] => countFault slot 3 s)
  | .node p i id => (deleteNode p i (if id = 0 then s else faultSession id st s)).2
  | .parked k =>
    (match (descsOf s k).filter (fun n => ((tget s.fdy.store n).bind (·.engine)).isSome) with
    | n :: _ => failDesc n st s
    | [] => s)
  | .tables _ id => faultSession id st s
  | .spill id => faultSession id st (dropSpill id s)
  | .touchstone q slot =>
    (match tget s.tch.queries q with
    | some x => endOp x.op st slot [] (dropQuery q s)
    | none => s)
  | .gather fn n bag =>
    (match s.pwr.waitCmds.find? (fun r => r.src = .mailbox fn n) with
    | some r => complete r st bag 0 [] false { s with pwr := { s.pwr with waitCmds := s.pwr.waitCmds.erase r } }
    | none => s)
  | .cut g => (match getGroupCk s g with
    | some x => if x.cstate = .idle || x.cstate = .queued then s else cutFail g st s
    | none => s)
  | .qp h => (match qpOf s h with
    | some (i, _) => qpFail m i 7 s
    | none => s)
  | .readRegion h msg => (match qpOf s h with
    | some (i, q) => if q.gx then sendAck i 0x12 msg 0 st s else rcAck i 0x63 msg 0 s
    | none => s)
  | .bar2 fn => emit (.refused fn true) s
  | .shared u => deviceFatal st u s

/-- UNCORRECTABLE_ERROR (R503). In the Tally's state (unit 8) it is a LEDGER_BREACH of the ledger and the instance that the place's
channel and address name (R312). -/
def execUncorrectableError (m : Moment) (data : UeData) (at_ : UeAt) (s : State) : Out :=
  let s := s.at m
  .next (settleAll m (match data with
    | .shared u => if u = 8 then breach at_.chan at_.addr 3 s.ct s else deviceFatal St.uncorrectable u s
    | d => ueOwnerEnds m d (ueContained d at_ s)))

/-! ### Device-fatal errors (R505) -/

/-- INTERNAL_FAULT of a unit; while booting it stops the boot too (R495). -/
def internalFault (unit : Nat) (s : State) : State :=
  let s := if s.bench.devState = .booting then
      { s with bench := { s.bench with bootError := St.internalFault, permyriad := bootPermyriad s } }
    else s
  deviceFatal St.internalFault unit s

/-- FIRMWARE_WATCHDOG_EXPIRY: the Bench's, after which the Hallmark serves the mailboxes, or the Hallmark's. -/
def execFirmwareWatchdogExpiry (m : Moment) (hallmark : Bool) (s : State) : Out :=
  let s := internalFault (if hallmark then 0x0D else 0) (s.at m)
  .next (if hallmark then s else modErr (fun e => { e with hallmarkServes := true }) s)

/-! ### The management view (R506, R507) -/

/-- A difference is found: the group's view is stale, and each field is told. -/
def skewFound (g : Nat) (l : List Skew) (s : State) : State :=
  let s := modErr (fun e => if thas e.stale g then e else { e with stale := tset e.stale g s.ct }) s
  l.foldl (fun s x => note 0x0F02 1 0xFF 0 [g, x.field, x.mgmt, x.hw] (bump .benchSkews noPart 1 s)) s

/-- VIEW_SWEEP of a group: the differences found make its view stale; a sweep that finds none ends its reconciliation. -/
def execViewSweep (m : Moment) (group : Nat) (skews : List Skew) (s : State) : Out :=
  let s := s.at m
  .next (if group < 1 || 14 < group then s
    else if skews.isEmpty then modErr (fun e => { e with stale := tdel e.stale group }) s
    else skewFound group skews s)

/-- VIEW_RECONCILE_TIMEOUT: a view that has been stale for 1 ms. -/
def execViewReconcileTimeout (m : Moment) (group : Nat) (s : State) : Out :=
  let s := s.at m
  .next (match tget s.err.stale group with
    | some c => if c + msNs < s.ct then internalFault group s else s
    | none => s)

def opDiagViewCheck : OpInfo := { opcode := 0x0F03, pf0 := true, mctp := true }

/-- DIAG_VIEW_CHECK: the model holds no copy of the view, so the differences that it finds are those of the views known to be stale,
which it reconciles (log entry 50). -/
def bodyDiagViewCheck (_ : Moment) (r : Req) (s : State) : Reply :=
  let gs := setBits 16 (r.f 0 2)
  if gs.contains 0 || gs.contains 15 then .err s St.badField
  else
    let n := (gs.filter (thas s.err.stale)).length
    let s := modErr (fun e => { e with stale := e.stale.filter (fun x => !gs.contains x.1) }) s
    { st := s, status := if n = 0 then St.ok else St.stateSkew, result := u32 gs.length ++ u32 n }

def execDiagViewCheck (m : Moment) (r : Req) (s : State) : Out := .next (runCommand opDiagViewCheck bodyDiagViewCheck m r s)

/-! ### Registers (R508) -/

/-- BENCH_FATAL_CAUSE and BENCH_FAILED_HW. -/
def fatalCauseWord (s : State) : Nat := sat 16 s.err.fatals * 2 ^ 16 + s.err.fatalCause % 2 ^ 16
def failedHwWord (s : State) : Nat := maskOf s.err.failedPorts * 2 ^ 16 + maskOf s.err.failedLp

/-- BENCH_VIEW_STALE. -/
def viewStaleWord (s : State) : Nat := maskOf (tkeys s.err.stale)

/-- The registers of the error mirror block, in order. -/
def errorRegs (s : State) : Bytes :=
  u32 s.aon.resetCause ++ u32 (fatalCauseWord s) ++ u64 s.err.ueCount ++ u64 s.err.ceSram ++ u64 s.err.patrolCt
    ++ u32 (sat 32 (ctrFor s 0 .benchSkews)) ++ u32 (viewStaleWord s) ++ u32 (failedHwWord s) ++ u32 (sat 32 s.err.bootTime)
    ++ (takeD 8 0 s.err.ceHbm).flatMap u64 ++ (List.range 32).flatMap (fun c => u32 (sat 32 (tgetD s.err.ceLpddr c 0)))

def opDiagErrors : OpInfo := { opcode := 0x0F02, pf0 := true, mctp := true }

/-- DIAG_ERRORS. -/
def bodyDiagErrors (_ : Moment) (_ : Req) (s : State) : Reply :=
  .ok s (errorRegs s ++ s.err.ueHist.flatMap (fun x =>
    u64 x.ct ++ ueInfo x.tier x.chan x.addr x.kind x.owner ++ u16 x.status ++ zeros 6))

def execDiagErrors (m : Moment) (r : Req) (s : State) : Out := .next (runCommand opDiagErrors bodyDiagErrors m r s)

/-! ### DIAG_TRAINING (R497, R512) -/

def opDiagTraining : OpInfo := { opcode := 0x0F01, pf0 := true, mctp := true }

/-- The boot phase that trains an interface: 0 HBM4, 1 LPDDR6, 2 Ethernet. -/
def trainPhase (which : Nat) : Nat := 3 + which

/-- Whether an interface has been trained: its phase is over, or the boot has stopped in it. -/
def trained (s : State) (which : Nat) : Bool :=
  decide (trainPhase which < s.bench.bootPhase) || (s.bench.bootPhase = trainPhase which && s.bench.devState = .frozen)

/-- The outcome and lanes repaired of an index: NOT_TRAINED 3 before its phase is over. The PCIe link is one record, REPAIRED when it
trained below 128 GT/s x16 (log entry 50). -/
def trainOutcome (s : State) (which i : Nat) : Nat × Nat :=
  match which with
  | 3 =>
    let l := getLink s (i / 8)
    (if l.lanes = 0 then 3 else if bit l.lanes (i % 8) then 0 else 2, 0)
  | 4 => (if !s.elec.pcieUp then 3 else if s.elec.pcieRate < 128 || s.elec.pcieWidth < 16 then 1 else 0, 0)
  | w => if trained s w then (tgetD s.err.training (w * 65536 + i) 0 % 256, tgetD s.err.training (w * 65536 + i) 0 / 256) else (3, 0)

/-- Records of an interface. -/
def trainCount (which : Nat) : Nat := [256, 32, 32, 56, 1].getD which 0

/-- DIAG_TRAINING. -/
def bodyDiagTraining (_ : Moment) (r : Req) (s : State) : Reply :=
  let w := r.f 0 1
  if 4 < w then .err s St.badField
  else .ok s ((List.range (trainCount w)).flatMap (fun i => u16 i ++ u8 (trainOutcome s w i).1 ++ u8 (trainOutcome s w i).2))

def execDiagTraining (m : Moment) (r : Req) (s : State) : Out := .next (runCommand opDiagTraining bodyDiagTraining m r s)

/-! ### DIAG_INJECT -/

def opDiagInject : OpInfo := { opcode := 0x0F04, pf0 := true, rsvd := [(3, 5)] }

/-- DIAG_INJECT: a 64-byte line of a partition's memory is armed, its address an offset into that memory (log entry 50). -/
def bodyDiagInject (_ : Moment) (r : Req) (s : State) : Reply :=
  let tier := r.f 1 1
  let p := r.f 2 1
  if s.hmk.production then .err s St.notPermitted
  else if 1 < r.f 0 1 || tier < 1 || 2 < tier || 15 < p || partBytes s p tier ≤ r.f 8 8 then .err s St.badField
  else .ok (modErr (fun e => { e with injected := e.injected ++ [{ hard := r.f 0 1 = 1, tier, partition := p, line := r.f 8 8 / 64 }] }) s)

def execDiagInject (m : Moment) (r : Req) (s : State) : Out := .next (runCommand opDiagInject bodyDiagInject m r s)

/-! ### DIAG_BOOT_LOG (R496) -/

def opDiagBootLog : OpInfo := { opcode := 0x0F06, pf0 := true, mctp := true }

/-- DIAG_BOOT_LOG: the count and the records through the scatter list; without one, what the payload area holds of them (log entry 43). -/
def bodyDiagBootLog (_ : Moment) (r : Req) (s : State) : Reply :=
  listOrHead r (u32 s.err.bootLog.length ++ s.err.bootLog.flatten) s

def execDiagBootLog (m : Moment) (r : Req) (s : State) : Out := .next (runCommand opDiagBootLog bodyDiagBootLog m r s)

end Sys2Proof.Machine
end

