-- ==== Sys2Proof/Machine/Resets.lean ====
section
/-! DEFINITION. Resets, boot, the orderly shut-down, firmware loads and function-level resets (R491 to R500, 17; R435, 15; R52, 01). -/

namespace Sys2Proof.Machine

/-! ### What a reset leaves (R491 to R493) -/

/-- What an OTP programming or a firmware load that a reset interrupts leaves. In phase PROGRAM the OTP macro finishes on its own while
PWRGOOD holds; without it the generation counts as programmed and is not valid. A slot half written is invalid (log entry 51). -/
def interrupt (power : Bool) (s : State) (o : LongOp) : State :=
  if o.opcode = 0x0E08 && !o.canCancel then
    otpStore (o.args.getD 0 0) ((o.args.drop 1).map (BitVec.ofNat 8)) (power || o.prog.phase = 3) s
  else if o.opcode = 0x0F05 && !o.canCancel then
    modErr (fun e => { e with firmware := tdel e.firmware (o.args.getD 0 0) }) s
  else s

/-- The device after a reset of a kind (0 power-on, 1 PERST_N, 2 PCIe hot reset or link down, 3 DEV_RESET orderly, 4 immediate): it
boots, and keeps what R491 says. -/
def resetState (cause : Nat) (power hold : Bool) (s : State) : State :=
  let device := 3 ≤ cause
  let s := (s.bench.ops.map (·.2)).foldl (interrupt power) s
  { ct := s.ct, free := s.free, out := s.out, grade := s.grade, hostMem := s.hostMem, hostFaults := s.hostFaults, pending := s.pending
    bench := { fns := if device then s.bench.fns.map (fun e => (e.1, { msix := e.2.msix })) else [], phaseCt := s.ct }
    pwr := { groups := s.pwr.groups.map (fun e => (e.1, { savedPort := e.2.savedPort })) }
    hmk := { counter := s.hmk.counter, revoked := s.hmk.revoked }
    aon := { s.aon with resetCause := cause }
    err := { bootStart := s.ct, hold, configOk := device && s.err.configOk, firmware := s.err.firmware, evidence := s.err.evidence
             evidenceOld := s.err.evidenceOld }
    elec := { s.elec with
      alert := false, sdrefLosses := 0, pcieUp := device && s.elec.pcieUp, spiTries := 0 } }

/-- Whether a reset holds the device (R491, R519). -/
def inReset (s : State) : Bool := !s.elec.pwrgood || s.elec.railsBad ≠ 0 || s.elec.perst || !s.elec.pcieUp

/-- The device leaves a fundamental reset with PERST_N deasserted: boot phase 0x01 begins, and the PCIe link trains with it. -/
def bootBegin (s : State) : State :=
  modErr (fun e => { e with bootStart := s.ct, bootPre := 0, hold := false, configOk := false })
    { s with
      bench := { s.bench with phaseCt := s.ct }
      elec := { s.elec with perst := false, pcieUp := s.elec.refclk } }

/-- PWRGOOD has risen: a power-on reset, unless a rail is outside its window (R519). -/
def powerOn (s : State) : State :=
  let s := modAon (fun a => { a with life := { a.life with cycles := a.life.cycles + 1 } })
    { s with elec := { s.elec with pwrgood := true, perst := true } }
  if s.elec.railsBad ≠ 0 then modAon (fun a => { a with railFault := a.railFault ||| s.elec.railsBad }) s
  else
    let s := resetState 0 true false s
    if s.elec.perstLow then s else bootBegin s

/-- PWRGOOD has fallen, or a rail has failed: every activity ends (R493). PERST_N is treated as asserted, and THERMTRIP_N deasserts. -/
def powerFall (s : State) : State :=
  let s := resetState 0 false false s
  { s with elec := { s.elec with perst := true, thermtrip := false } }

/-- POWER_ON_RESET: PWRGOOD rises. -/
def execPowerOnReset (m : Moment) (s : State) : Out :=
  let s := s.at m
  .next (if s.elec.pwrgood then s else powerOn s)

/-- PWRGOOD_FALL. -/
def execPwrgoodFall (m : Moment) (s : State) : Out :=
  let s := s.at m
  .next (if s.elec.pwrgood then powerFall { s with elec := { s.elec with pwrgood := false } } else s)

/-- PERST_N_ASSERT: a fundamental reset; ignored while PWRGOOD is low. -/
def execPerstNAssert (m : Moment) (s : State) : Out :=
  let s := s.at m
  let s := { s with elec := { s.elec with perstLow := true } }
  .next (if !s.elec.pwrgood || s.elec.perst then s
    else
      let s := modAon (fun a => { a with life := { a.life with resets := a.life.resets + 1 } }) s
      resetState 1 true false { s with elec := { s.elec with perst := true } })

/-- PERST_N_DEASSERT: the straps are sampled and boot phase 0x01 begins. While PWRGOOD is low or a rail is outside its window the
device stays in reset, and the straps are as they are now when it leaves it (log entry 51). -/
def execPerstNDeassert (m : Moment) (chipId bootSel : Nat) (s : State) : Out :=
  let s := s.at m
  if !s.elec.perst then .next s
  else
    let s := { s with elec := { s.elec with perstLow := false, chipId := chipId % 8, bootSel := bootSel % 2 } }
    .next (if !s.elec.pwrgood || s.elec.railsBad ≠ 0 then s else bootBegin s)

/-- A fundamental reset by the PCIe link. -/
def linkReset (s : State) : State :=
  if s.elec.pwrgood && !s.elec.perst && s.elec.pcieUp then resetState 2 true s.err.hold s else s

/-- PCIE_HOT_RESET and PCIE_LINK_DOWN: a fundamental reset that lasts until the link is up again. -/
def execPcieHotReset (m : Moment) (s : State) : Out := .next (linkReset (s.at m))
def execPcieLinkDown (m : Moment) (s : State) : Out := .next (linkReset (s.at m))

/-- The rates in GT/s, the first generation's 2.5 written as 2, and the widths at which the link trains (R15; PRESUMED, log entry 62). -/
def linkTrains (rate width : Nat) : Bool := [128, 64, 32, 16, 8, 5, 2].contains rate && [16, 8, 4, 2, 1].contains width

/-- PCIE_LINK_UP at a rate in GT/s and a width: it ends a fundamental reset by the link; below 128 GT/s x16 it is told (R497). At no
other rate or width does the link train. -/
def execPcieLinkUp (m : Moment) (rate width : Nat) (s : State) : Out :=
  let s := s.at m
  if !linkTrains rate width || !s.elec.pwrgood || s.elec.perst || s.elec.railsBad ≠ 0 then .next s
  else
    let s := if s.elec.pcieUp then s
      else modErr (fun e => { e with bootStart := s.ct, bootPre := 0 }) { s with bench := { s.bench with phaseCt := s.ct } }
    let s := { s with elec := { s.elec with pcieUp := true, refclk := true, pcieRate := rate, pcieWidth := width } }
    .next (if rate < 128 || width < 16 then note 0x0F08 1 0xFF 0 [rate, width] s else s)

/-- CONFIG_READY: 100 ms after the boot's start. -/
def execConfigReady (m : Moment) (s : State) : Out :=
  let s := s.at m
  .next (if !inReset s && decide (100 * msNs ≤ s.ct - s.err.bootStart + s.err.bootPre) then modErr (fun e => { e with configOk := true }) s
    else s)

/-! ### Firmware images (R435, R499) -/

/-- Why an image may not run, none when it may. An svn beyond 128 is no svn (log entry 51). -/
def firmwareBad (s : State) (img : Option Bytes) : Option Nat :=
  match img with
  | none => some stSigInvalid
  | some b =>
    let blk := Config.fwBlock b
    if !blockValid blk 1 (fit 32 (Config.blake3 (Config.fwBody b))) then some stSigInvalid
    else if !rootTrusted s blk then some stKeyUntrusted
    else if 128 < field blk 8 4 || field blk 8 4 < s.hmk.counter then some St.rollback
    else none

/-- A rejected image's count and event: not for ROLLBACK (R434). -/
def firmwareReject (status : Nat) (s : State) : State :=
  if status = St.rollback then s else sigRejected 1 status 0xFF s

/-- Runs the release of a slot. -/
def runRelease (slot : Nat) (b : Bytes) (s : State) : State :=
  let prod := Config.fwProduction b
  { s with
    hmk := { s.hmk with svn := field (Config.fwBlock b) 8 4, slot, production := prod, dualSigned := true, chavy := b }
    bench := { s.bench with fwVersion := Config.fwVersion b % 2 ^ 32, fwFlags := b2n prod + 2 } }

def opFwLoad : OpInfo := { opcode := 0x0F05, pf0 := true, mctp := true, rsvd := [(1, 7)] }

/-- FW_LOAD: the image is verified before it is written. -/
def bodyFwLoad (_ : Moment) (r : Req) (s : State) : Reply :=
  let slot := r.f 0 1
  let n := r.f 8 8
  if 1 < slot || n = 0 || 24 * 2 ^ 20 < n then .err s St.badField
  else if decide (2 < s.bench.bootPhase) && s.hmk.slot = slot then .err s St.notPermitted
  else withData r n s fun b =>
    match firmwareBad s (some b) with
    | some st => .err (firmwareReject st s) st
    | none => asOp r s 1 1 (2 * n) true (slot :: b.map (·.toNat)) fun _ s => s

def execFwLoad (m : Moment) (r : Req) (s : State) : Out := .next (runCommand opFwLoad bodyFwLoad m r s)

/-- The end of a firmware load: the slot holds the image, or is invalid where the write failed. -/
def endFwLoad (n : Nat) (o : LongOp) (good : Bool) (s : State) : State :=
  let slot := o.args.getD 0 0
  let s := { s with elec := { s.elec with spiTries := 0 } }
  if o.cancelling then endOp n St.cancelled 0 [] s
  else if good then
    endOp n St.ok 0 [] (modErr (fun e => { e with firmware := tset e.firmware slot ((o.args.drop 1).map (BitVec.ofNat 8)) }) s)
  else endOp n St.flashFailed 0 [] (modErr (fun e => { e with firmware := tdel e.firmware slot }) s)

/-! ### Boot (R495 to R498) -/

/-- A boot stops: the device is FROZEN in its phase, and holds its progress (R498). -/
def stopBoot (status : Nat) (s : State) : State :=
  { s with bench := { s.bench with devState := .frozen, bootError := status, permyriad := bootPermyriad s } }

/-- The next phase begins. -/
def toPhase (k : Nat) (s : State) : State := { s with bench := { s.bench with bootPhase := k, permyriad := 0, phaseCt := s.ct } }

/-- ct starts from the RTC, or from the newest lifetime record (R479, R523). -/
def startCt (s : State) : State :=
  let newest := max ((s.aon.mirror.map (·.ct)).getD 0) ((s.aon.flash.map (·.ct)).getD 0)
  let rtc := rtcNow s
  let ct := if s.aon.valid && s.elec.rtcValid then rtc * secNs / 32768 else newest
  let pre := s.ct - s.err.bootStart + s.err.bootPre
  modErr (fun e => { e with bootStart := ct, bootPre := pre }) (modAon (fun a => { a with rtc, rtcCt := ct }) { s with ct })

/-- Phase 0x02: the slot that BOOT_SEL names, then the other. -/
def verifySlots (s : State) : State :=
  let first := s.elec.bootSel
  match firmwareBad s (tget s.err.firmware first) with
  | none => toPhase 3 (runRelease first ((tget s.err.firmware first).getD []) s)
  | some st =>
    let s := firmwareReject st s
    match firmwareBad s (tget s.err.firmware (1 - first)) with
    | none => toPhase 3 (runRelease (1 - first) ((tget s.err.firmware (1 - first)).getD []) s)
    | some st2 => stopBoot st (firmwareReject st2 s)

/-- Records the outcomes of an interface's training, and tells of those that are not PASS. -/
def recordTraining (which : Nat) (l : List (Nat × Nat × Nat × Nat)) (s : State) : State :=
  (l.filter (fun x => x.1 = which && decide (x.2.1 < trainCount which) && decide (x.2.2.1 < 3))).foldl (fun s x =>
    let s := modErr (fun e => { e with training := tset e.training (which * 65536 + x.2.1) (x.2.2.1 + 256 * x.2.2.2) }) s
    if x.2.2.1 = 0 then s else note 0x0F06 (if x.2.2.1 = 1 then 0 else 1) 0xFF 0 [which, x.2.1, x.2.2.1] s) s

/-- Indexes of an interface that failed. -/
def failedOf (s : State) (which : Nat) : List Nat :=
  (List.range (trainCount which)).filter (fun i => tgetD s.err.training (which * 65536 + i) 0 % 256 = 2)

/-- The settings in force: the retention image, the highest valid OTP generation, or the ROM defaults (R481). -/
def pickSettings (s : State) : State :=
  match s.aon.settings.filter (imageValid s), (setBits 4 (otpValid s)).getLast? with
  | some _, _ => modAon (fun a => { a with src := 0, genUsed := 0 }) s
  | none, some g => modAon (fun a => { a with src := 1, genUsed := g }) s
  | none, none => modAon (fun a => { a with src := 2, genUsed := 0 }) s

/-- Groups enter their `boot_state`, a failed LPDDR6 pair OFF; links below IDLE are disabled. -/
def bootGroups (b : Bytes) (s : State) : State :=
  ((List.range 64).filter (groupPresent s)).foldl (fun s g =>
    let v := field b (0x10 + g) 1
    let st := if groupFailed s g then 0 else v % 4
    let s := modGroup g (fun x => { x with state := st, perf := v / 4 % 4, restore := v / 4 % 4 }) s
    if groupKind g = .link && st ≤ 1 then disableLink (g - 0x30) s else s) s

/-- The running configuration becomes an image's (R481). -/
def applySettings (b : Bytes) (s : State) : State :=
  let s := setTimeConfig (field b 0x50 1) (field b 0x58 4) (toSigned 32 (field b 0x5C 4)) (field b 0x60 4) (field b 0x64 4)
    (field b 0x90 2) (field b 0x92 2) s
  let s := modClk (fun c => { c with leap := leapEntries b 0xB0 (field b 0xA0 1), expires := field b 0xA8 8 }) s
  let s := { s with net := { s.net with ptp :=
    { ifMask := field b 0x54 4, profile := field b 0x51 1, transport := field b 0x52 1, domain := field b 0x53 1 } } }
  bootGroups b s

/-- The lifetime record and the serials resume: the record of the mirror or of flash with the higher `seq`, and each serial at the
larger of its counter and its journalled ceiling (R484; DEDUCED, log entry 49). -/
def restoreLife (s : State) : State :=
  let a := s.aon
  let kept : Option LifeRec := match a.mirror, a.flash with
    | some x, some y => some (if x.seq < y.seq then y else x)
    | some x, none => some x
    | none, y => y
  let life := match kept with
    | some x => { x with cycles := max x.cycles a.life.cycles, resets := max x.resets a.life.resets }
    | none => a.life
  let ceil (f : LifeRec → Nat) : Nat := (a.flash.map f).getD 0
  modAon (fun a => { a with
    valid := true, life, mirror := some life
    sessSerial := max a.sessSerial (ceil (·.sessCeil)), cutSerial := max a.cutSerial (ceil (·.cutCeil))
    reportSeq := max a.reportSeq (ceil (·.repCeil)), jSeq := ceil (·.seq), jCt := ceil (·.ct) }) s

/-- The Tally creates its ledgers: stock columns as the units stand, flow columns zero (R492). -/
def createLedgers (s : State) : State :=
  { s with tly := { s.tly with ledgers := s.tly.ledgers.map (fun e =>
      let cols := if e.1 / 2 ^ 32 = Lg.swilan then e.2.cols.take 5 ++ [0, 0, 0] else e.2.cols
      (e.1, { cols, mark := cols })) } }

/-- Phase 0x07: OPERATING. -/
def bootReady (s : State) : State :=
  let time := (s.ct - s.err.bootStart + s.err.bootPre) / msNs
  let s := { s with bench := { s.bench with bootPhase := 7, permyriad := 10000, devState := .operating } }
  let s := modAon (fun a => { a with railFault := 0 }) (modErr (fun e => { e with bootTime := time }) s)
  note 0x0F07 0 0xFF 0 [s.aon.resetCause, time, settingsSrc s] s

/-- Phase 0x06: settings, lifetime record and serials, ledgers, groups; then phase 0x07. -/
def restoreSettings (s : State) : State :=
  let s := tellSerials (restoreLife (pickSettings s))
  let s := note 0x0E0B (if s.aon.src = 0 then 0 else 1) 0xFF 0 [settingsSrc s] s
  bootReady (createLedgers (applySettings ((settingsImage s 0).getD romImage) s))

/-- The end of a boot phase. -/
def phaseEnd (x : BootEnd) (s : State) : State :=
  match s.bench.bootPhase with
  | 1 => if x.ok then toPhase 2 (startCt s) else internalFault 0x0D s
  | 2 =>
    let s := { s with elec := { s.elec with spiTries := 0 } }
    if x.flashOk then verifySlots s else stopBoot St.flashFailed s
  | 3 =>
    let s := recordTraining 0 x.training s
    if failedOf s 0 = [] then toPhase 4 s else stopBoot St.trainFailed s
  | 4 =>
    let s := recordTraining 1 x.training s
    let s := modErr (fun e => { e with failedLp := ((failedOf s 1).map (· / 2)).eraseDups }) s
    (List.range 7).foldl (fun s n => startTraining n s) (toPhase 5 s)
  | 5 =>
    let s := recordTraining 2 x.training s
    let bad := failedOf s 2
    toPhase 6 (modErr (fun e => { e with
      failedPorts := (bad.map (· / 4)).eraseDups
      failedLanes := bad.foldl (fun t i => tset t (i / 4) (tgetD t (i / 4) 0 + 2 ^ (i % 4))) [] }) s)
  | 6 => if x.ok then restoreSettings s else internalFault 0 s
  | _ => s

/-- BOOT_PHASE_END: the present phase is over. A device held in phase 0x01, or in a reset, does not boot. -/
def execBootPhaseEnd (m : Moment) (x : BootEnd) (s : State) : Out :=
  let s := s.at m
  .next (if s.bench.devState = .booting && !inReset s && !s.err.hold then settleAll m (phaseEnd x s) else s)

/-! ### DEV_RESET (R494) -/

def opDevReset : OpInfo := { opcode := 0x0F00, pf0 := true, mctp := true, rsvd := [(2, 2)] }

/-- Operations that can be cancelled are cancelled. -/
def cancelAll (own : Nat) (s : State) : State :=
  ((s.bench.ops.filter (fun e => e.1 ≠ own && e.2.canCancel && !e.2.cancelling))).foldl (fun s e =>
    progressOp e.1 0xFE e.2.prog.position e.2.prog.total (setOp e.1 { e.2 with cancelling := true } s)) s

/-- DEV_RESET: an orderly shut-down and a device reset, or a device reset at once. -/
def bodyDevReset (_ : Moment) (r : Req) (s : State) : Reply :=
  let mode := r.f 0 1
  let hold := r.f 1 1
  if 1 < mode || 1 < hold || 60000 < r.f 4 4 then .err s St.badField
  else if mode = 1 then .wait (resetState 4 true (hold = 1) s)
  else if s.err.shutdown.isSome then .err s St.busyRetry
  else asOp r s 0 0 0 false [] fun n s =>
    cancelAll n (modErr (fun e => { e with shutdown := some { op := n, due := s.ct + r.f 4 4 * msNs, hold := hold = 1 } }) s)

def execDevReset (m : Moment) (r : Req) (s : State) : Out := .next (runCommand opDevReset bodyDevReset m r s)

/-- The end of an orderly shut-down: what still runs is abandoned, but for an OTP programming in its phase PROGRAM; the evidence is kept
and the lifetime record journalled; the command completes and the reset begins. -/
def finishShutdown (m : Moment) (s : State) : State :=
  match s.err.shutdown with
  | none => s
  | some x =>
    let s := (s.bench.ops.filter (fun e => e.2.opcode = 0x0E08 && !e.2.canCancel)).foldl (fun s e => endOtpProgram e.1 e.2 true s) s
    let left := s.bench.ops.filter (fun e => e.1 ≠ x.op)
    let s := (left.map (·.2)).foldl (interrupt true) s
    let s := { s with bench := { s.bench with ops := s.bench.ops.filter (fun e => e.1 = x.op) } }
    let s := journal m.choice (modErr (fun e => { e with evidenceOld := true }) s)
    resetState 3 true x.hold (endOp x.op St.ok 0 (u32 left.length) s)

/-- The shut-down's own operation ends once no other operation runs and no step is in flight. -/
def endDevReset (m : Moment) (n : Nat) (s : State) : State :=
  if s.bench.ops.all (fun e => e.1 = n) && s.tile.invs.isEmpty then finishShutdown m s else s

/-- SHUTDOWN_GRACE_EXPIRY. -/
def execShutdownGraceExpiry (m : Moment) (s : State) : Out :=
  let s := s.at m
  .next (match s.err.shutdown with
    | some x => if x.due ≤ s.ct then finishShutdown m s else s
    | none => s)

/-! ### FLR (R52) -/

/-- FLR of a function: its mailboxes are IDLE, its operations are cancelled or run to their end with no completion, its ring and
apertures are disabled, and its Check units free; a locked or running TDI enters ERROR (R424, R452). -/
def flr (fn : Nat) (s : State) : State :=
  let s := dropFnWork fn s
  let s := s.bench.mbx.foldl (fun s e => if e.1 / 256 = fn then setMbx fn (e.1 % 256) { e.2 with own := .idle } s else s) s
  let s := { s with bench := { s.bench with ops := s.bench.ops.map (fun e =>
    if fromFn fn e.2.req then (e.1, { e.2 with orphan := true, cancelling := e.2.cancelling || e.2.canCancel }) else e) } }
  let f := fnState s fn
  let s := freeUnits fn (setFn fn { f with ring := { f.ring with enabled := false }, apertures := [] } s)
  if fn ≠ 0 && ((getPart s (fn - 1)).tdi = .locked || (getPart s (fn - 1)).tdi = .run) then tdiFail (fn - 1) tdiFlr s else s

/-- FLR (R52). -/
def execFlr (m : Moment) (fn : Nat) (s : State) : Out :=
  .next (if fn ≤ 16 then settleAll m (flr fn (s.at m)) else s.at m)

end Sys2Proof.Machine
end

