-- ==== Sys2Proof/Machine/Electric.lean ====
section
/-! DEFINITION. Rails, clocks, the crystal and the flash's timeouts (R516 to R524, 18). -/

namespace Sys2Proof.Machine

/-- RAIL_FAULT: a rail of R516 has been outside its ±10 % window for 2 µs. With PWRGOOD asserted that is a fall of PWRGOOD (R519). -/
def execRailFault (m : Moment) (rail : Nat) (s : State) : Out :=
  let s := s.at m
  let s := { s with elec := { s.elec with railsBad := s.elec.railsBad ||| 2 ^ rail } }
  .next (if s.elec.pwrgood then powerFall (modAon (fun a => { a with railFault := a.railFault ||| 2 ^ rail }) s) else s)

/-- RAIL_RETURN: with PWRGOOD asserted the device leaves reset once every rail is back in its window. -/
def execRailReturn (m : Moment) (rail : Nat) (s : State) : Out :=
  let s := s.at m
  if !bit s.elec.railsBad rail then .next s
  else
    let s := { s with elec := { s.elec with railsBad := s.elec.railsBad - 2 ^ rail } }
    .next (if s.elec.pwrgood && s.elec.railsBad = 0 then powerOn s else s)

/-- What the retention domain holds is gone (R479, R491, R518). -/
def clearRetention (s : State) : State :=
  let s := modAon (fun a => { a with
    valid := false, rtc := 0, rtcCt := s.ct, settings := none, mirror := none, life := a.flash.getD {}
    sessSerial := 1, cutSerial := 1, reportSeq := 1, resetCause := 0, railFault := 0 }) s
  { s with
    elec := { s.elec with rtcValid := false }
    pwr := { s.pwr with groups := s.pwr.groups.map (fun e => (e.1, { e.2 with savedPort := none })) } }

/-- VAUX_1V8_LOSS: the rail is out of its window too, and with PWRGOOD asserted the device falls into reset (R518, R519). -/
def execVaux1v8Loss (m : Moment) (s : State) : Out :=
  let s := s.at m
  let s := { s with elec := { s.elec with railsBad := s.elec.railsBad ||| 2 ^ 10 } }
  .next (clearRetention (if s.elec.pwrgood then powerFall s else s))

/-- The PTP ports hear nothing any more: PTP is lost. -/
def ptpGone (s : State) : State :=
  ptpSelect { s with net := { s.net with ptp := { s.net.ptp with heard := [] } } }

/-- SERDES_REF_LOSS: every Ethernet interface and Swilan link goes down, and PTP is lost (R523). -/
def execSerdesRefLoss (m : Moment) (s : State) : Out :=
  let s := s.at m
  if !s.elec.sdref then .next s
  else
    let s := { s with elec := { s.elec with sdref := false, sdrefLosses := s.elec.sdrefLosses + 1 } }
    let s := (List.range 8).foldl (fun s p => if (getPort s p).linkUp = 0 then s else portDown m p s) s
    let s := (List.range 7).foldl (fun s n => if (getLink s n).up then linkLost n .training 0 s else s) s
    .next (settleAll m (ptpGone s))

/-- SERDES_REF_RETURN: the links that were training train afresh; Ethernet links come up as they are reported. -/
def execSerdesRefReturn (m : Moment) (s : State) : Out :=
  let s := s.at m
  if s.elec.sdref then .next s
  else
    let s := { s with elec := { s.elec with sdref := true } }
    .next ((List.range 7).foldl (fun s n => if (getLink s n).lstate = .training then startTraining n s else s) s)

/-- REFCLK_LOSS: the PCIe link goes down, which is a fundamental reset. -/
def execRefclkLoss (m : Moment) (s : State) : Out :=
  let s := s.at m
  let s := linkReset { s with elec := { s.elec with refclk := false } }
  .next { s with elec := { s.elec with pcieUp := false } }

/-- XTAL_STOP: the RTC stands and is no longer valid. -/
def execXtalStop (m : Moment) (s : State) : Out :=
  let s := s.at m
  let rtc := rtcNow s
  .next (modAon (fun a => { a with rtc, rtcCt := s.ct }) { s with elec := { s.elec with xtal := false, rtcValid := false } })

/-- XTAL_RESTART: the RTC counts again; it is valid once it has been set. -/
def execXtalRestart (m : Moment) (s : State) : Out :=
  let s := s.at m
  .next (if s.elec.xtal then s else modAon (fun a => { a with rtcCt := s.ct }) { s with elec := { s.elec with xtal := true } })

/-- SMB_CLOCK_LOW_TIMEOUT and I3C_IDLE_TIMEOUT: an unfinished transaction is discarded, of which the model holds nothing: a request over
MCTP arrives whole (R520; log entry 51). -/
def execSmbClockLowTimeout (m : Moment) (s : State) : Out := .next (s.at m)
def execI3cIdleTimeout (m : Moment) (s : State) : Out := .next (s.at m)

/-- The flash write in progress. -/
def flashWrite (s : State) : Option (Nat × LongOp) := s.bench.ops.find? (fun e => e.2.opcode = 0x0F05 && !e.2.canCancel)

/-- SPI_FLASH_TIMEOUT: the access is tried again twice, and then fails: the read of a firmware slot in phase 0x02, or the write of
one. -/
def execSpiFlashTimeout (m : Moment) (s : State) : Out :=
  let s := s.at m
  let reading := s.bench.devState = .booting && s.bench.bootPhase = 2
  if !reading && (flashWrite s).isNone then .next s
  else if s.elec.spiTries < 2 then .next { s with elec := { s.elec with spiTries := s.elec.spiTries + 1 } }
  else
    let s := { s with elec := { s.elec with spiTries := 0 } }
    .next (if reading then stopBoot St.flashFailed s
      else match flashWrite s with
        | some (n, o) => endFwLoad n o false s
        | none => s)

end Sys2Proof.Machine
end

