-- ==== Sys2Proof/Machine/Bar.lean ====
section
/-! DEFINITION. The host's accesses through BAR0, BAR2 and BAR4 that are not mailbox commands (R9, R16, R17, 01; R425, 14; R487, 16). -/

namespace Sys2Proof.Machine

/-! ### BAR2 (R17) -/

/-- The aperture that takes an access: enabled, holding the whole of it, and over memory that its partition has. -/
def apertureOf (s : State) (fn off len : Nat) : Option Aperture :=
  ((fnState s fn).apertures.map Prod.snd).find? (fun a =>
    decide (a.barOffset ≤ off) && decide (off + len ≤ a.barOffset + a.size)
      && decide (a.memOffset + a.size ≤ partBytes s a.partition a.tier))

/-- The access that an aperture makes of a BAR2 access. -/
def Aperture.access (a : Aperture) (fn off len : Nat) (data : Option Bytes) : BarWait :=
  { fn, partition := a.partition, tier := a.tier, off := a.memOffset + (off - a.barOffset), len, data }

/-- A miss: counted, and logged at most once per function and 1 ms (R50). Direction 1 is a write (log entry 14). -/
def bar2Miss (fn off dir : Nat) (s : State) : State :=
  let f := fnState s fn
  let s := setFn fn { f with bar2Misses := f.bar2Misses + 1 } s
  if f.bar2LogCt.all (fun c => decide (c + msNs ≤ s.ct)) then
    note 0x0003 0 (fnPart fn) 0 [off, dir] (setFn fn { fnState s fn with bar2LogCt := some s.ct } s)
  else s

/-- The power groups that an access reaches. -/
def accessGroups (s : State) (x : BarWait) : List Nat :=
  [x.off, x.off + (x.len - 1)].map (fun o => addrGroup x.tier (partAddr s x.partition x.tier o))

/-- The channel of a partition's byte: 16 HBM channels or two LPDDR6 channels to a granule, 64-byte lines in turn (log entry 17). -/
def lineChan (s : State) (p tier off : Nat) : Nat :=
  let n := if tier = 1 then 16 else 2
  (granules s p tier).getD (off / granuleSize tier) 0 * n + off / 64 % n

/-- The armed lines that an access reads (R512). -/
def armedLines (s : State) (x : BarWait) : List Injected :=
  s.err.injected.filter (fun j => j.tier = x.tier && j.partition = x.partition && decide (x.off / 64 ≤ j.line)
    && decide (j.line ≤ (x.off + (x.len - 1)) / 64))

/-- The bytes of a read go to the host, unless it meets an uncorrectable error: then the request ends in Completer Abort (R502, R503). -/
def barAnswer (x : BarWait) (s : State) : State :=
  let hit := armedLines s x
  let s := modErr (fun e => { e with injected := e.injected.filter (fun j => !hit.contains j) }) s
  match hit.find? (·.hard) with
  | some j =>
    emit (.refused x.fn true) (ueContained (.bar2 x.fn)
      { tier := x.tier, chan := lineChan s x.partition x.tier (64 * j.line), addr := partAddr s x.partition x.tier (64 * j.line) } s)
  | none =>
    let s := hit.foldl (fun s j => corrected x.tier (lineChan s x.partition x.tier (64 * j.line)) s) s
    emit (.bar2 x.fn (shownPart s x.partition x.tier x.off x.len)) s

/-- A BAR2 access: it waits while a group of its memory is not ACTIVE (R465). -/
def barAccess (x : BarWait) (s : State) : State :=
  match (accessGroups s x).find? (fun g => (getGroup s g).state ≠ 3) with
  | some g => powerWait g { s with pwr := { s.pwr with waitBar := s.pwr.waitBar ++ [x] } }
  | none =>
    match x.data with
    | some b => partWrite x.partition x.tier x.off b s
    | none => barAnswer x s

/-- A waiting access runs again; one whose memory its partition no longer has finds no aperture. -/
def barRetry (x : BarWait) (s : State) : State :=
  if x.off + x.len ≤ partBytes s x.partition x.tier then barAccess x s
  else if x.data.isSome then s
  else emit (.bar2 x.fn (List.replicate x.len 0xFF)) s

/-- The accesses that wait run again, oldest first. -/
def barAgain (s : State) : State :=
  s.pwr.waitBar.foldl (fun s x => barRetry x s) { s with pwr := { s.pwr with waitBar := [] } }

/-- A read through BAR2: the plaintext, or all-ones on a miss. -/
def bar2Read (fn off len : Nat) (s : State) : State :=
  match apertureOf s fn off len with
  | some a => barAccess (a.access fn off len none) s
  | none => emit (.bar2 fn (List.replicate len 0xFF)) (bar2Miss fn off 0 s)

/-- A write through BAR2: discarded on a miss. -/
def bar2Write (fn off : Nat) (b : Bytes) (s : State) : State :=
  match apertureOf s fn off b.length with
  | some a => barAccess (a.access fn off b.length (some b)) s
  | none => bar2Miss fn off 1 s

/-- BAR2_READ. An access past the BAR's size is not the device's. -/
def execBar2Read (m : Moment) (fn offset len : Nat) (s : State) : Out :=
  let s := s.at m
  .next (if 16 < fn || bar2Size fn < offset + len then s else settleAll m (hostAccess fn (bar2Read fn offset len) s))

/-- BAR2_WRITE. -/
def execBar2Write (m : Moment) (fn offset : Nat) (data : Bytes) (s : State) : Out :=
  let s := s.at m
  .next (if 16 < fn || bar2Size fn < offset + data.length then s else hostAccess fn (bar2Write fn offset data) s)

/-! ### Registers (R9) -/

/-- A write of bytes in a mailbox; its first word is `own` (R25, R26). -/
def mbxRegWrite (fn n off : Nat) (w : Bytes) (s : State) : State :=
  if 4 ≤ off then mbxWrite fn n off w s
  else
    let x := getMbx s fn n
    let own := leVal (overlay (u32 (ownCol x.own)) off (w.take (4 - off)))
    let s := if 4 < off + w.length && (x.own = .idle || x.own = .done) then mbxWrite fn n 4 (w.drop (4 - off)) s else s
    ownWrite fn n own s

/-- A write of BENCH_EVT_STATUS: WRITE_FAULT and OVERFLOW are cleared by writing one (R47). -/
def evtStatusWrite (fn value : Nat) (s : State) : State :=
  let f := fnState s fn
  setFn fn { f with ring := { f.ring with
    writeFault := f.ring.writeFault && !bit value 1, overflow := f.ring.overflow && !bit value 0 } } s

/-- A write of the event-log block's words at 0x10 and 0x14. -/
def evtRegWrite (fn off : Nat) (w : Bytes) (s : State) : State :=
  let s := if off ≤ 0x14 && 0x18 ≤ off + w.length then evtStatusWrite fn (leVal (w.drop (0x14 - off))) s else s
  if off ≤ 0x10 && 0x14 ≤ off + w.length then evtConsWrite fn (leVal ((w.drop (0x10 - off)).take 4)) s else s

/-- An entry of the MSI-X table as its 16 bytes, and back (R16). -/
def msixBytes (e : MsixEntry) : Bytes := u64 e.addr ++ u32 e.data ++ u32 (b2n e.masked)
def msixOf (b : Bytes) : MsixEntry := { addr := field b 0 8, data := field b 8 4, masked := bit (field b 12 4) 0 }

/-- A write in the MSI-X table; clearing a vector's mask sends its pending message (R32). -/
def msixWrite (fn off : Nat) (w : Bytes) (s : State) : State :=
  let f := fnState s fn
  let v := off / 16
  let old := tgetD f.msix v {}
  let new := msixOf (overlay (msixBytes old) (off % 16) w)
  if old.masked && !new.masked then msixUnmask fn v (setFn fn { f with msix := tset f.msix v { new with masked := true } } s)
  else setFn fn { f with msix := tset f.msix v new } s

/-- A host write of `len` bytes at an offset of BAR0 or BAR4. Every register not named here is read-only or reserved (R9, R18). -/
def registerWrite (fn bar off len value : Nat) (s : State) : State :=
  let w := le len value
  if bar = 4 then (if off < 0x8000 then msixWrite fn off w s else s)
  else if bar ≠ 0 then s
  else if 0x100000 ≤ off && off < 0x100000 + mbxCount fn * 0x1000 then
    mbxRegWrite fn ((off - 0x100000) / 0x1000) ((off - 0x100000) % 0x1000) w s
  else if 0x200000 ≤ off && off < 0x200020 then evtRegWrite fn (off - 0x200000) w s
  else if 0x300000 ≤ off && off < 0x300800 then
    chkWrite fn ((off - 0x300000) / 0x100) ((off - 0x300000) % 0x100) len value s
  else s

/-- REGISTER_WRITE: 4 or 8 bytes, aligned. -/
def execRegisterWrite (m : Moment) (fn bar offset len value : Nat) (s : State) : Out :=
  let s := s.at m
  .next (if 16 < fn || (len ≠ 4 && len ≠ 8) || offset % len ≠ 0 then s else hostAccess fn (registerWrite fn bar offset len value) s)

/-! ### Reads that latch (R487) -/

/-- CT_NOW_LOW_READ: the low word is answered, the high word latched for the function. -/
def execCtNowLowRead (m : Moment) (fn : Nat) (s : State) : Out :=
  let s := s.at m
  .next (if 16 < fn then s else hostAccess fn (fun s =>
    emit (.register fn (s.ct % 2 ^ 32)) (setFn fn { fnState s fn with ctHigh := s.ct / 2 ^ 32 % 2 ^ 32 } s)) s)

/-- CT_UTC_DATE_READ: the date is answered, the time and the nanoseconds latched. -/
def execCtUtcDateRead (m : Moment) (fn : Nat) (s : State) : Out :=
  let s := s.at m
  .next (if 16 < fn then s else hostAccess fn (fun s =>
    let (date, time, ns) := utcWords s
    emit (.register fn date) (setFn fn { fnState s fn with utcTime := time, utcNs := ns } s)) s)

end Sys2Proof.Machine
end

