-- ==== Sys2Proof/Machine/Generic.lean ====
section
/-! DEFINITION. The generic commands of group 0x00 (R42 to R46, 01). -/

namespace Sys2Proof.Machine

/-! ### NOP -/

def opNop : OpInfo := { opcode := 0x0000, mctp := true }

/-- NOP: no effect; echoes its payload (R42). -/
def bodyNop (_ : Moment) (r : Req) (s : State) : Reply :=
  .ok s (if r.f 0 1 % 2 = 1 then fit r.hdr.payloadLen r.payload else [])

def execNop (m : Moment) (r : Req) (s : State) : Out := .next (runCommand opNop bodyNop m r s)

/-! ### QUERY -/

def opQuery : OpInfo := { opcode := 0x0001, mctp := true }

/-- A QUERY page (R43). Page 2 holds the enable bits as u32, then what HMK_PARTITION_QUERY answers of each enabled partition, one
whose PSTATE is ACTIVE; a VF sees its own alone (R461; DESIGN CHOICE, log entry 18). -/
def queryPage (s : State) (fn page : Nat) : Option Bytes :=
  match page with
  | 0 => some (u32 (benchId s) ++ u32 (benchPlace s fn) ++ u32 s.bench.fwVersion ++ u32 s.bench.fwFlags)
  | 1 => some (u32 (mbxCount fn) ++ u32 (opLimit fn) ++ u32 (apertureCount fn) ++ u64 (bar2Size fn))
  | 2 =>
    let on := (List.range 16).filter (fun p => (getPart s p).pstate = .active && (fn = 0 || p = fn - 1))
    some (u32 (maskOf on) ++ on.flatMap (partInfo s))
  | _ => none

def bodyQuery (_ : Moment) (r : Req) (s : State) : Reply :=
  match queryPage s r.fn (r.f 0 2) with
  | some b => .ok s b
  | none => .err s St.badField

def execQuery (m : Moment) (r : Req) (s : State) : Out := .next (runCommand opQuery bodyQuery m r s)

/-! ### PROGRESS -/

def opProgress : OpInfo := { opcode := 0x0002, mctp := true }

/-- The 64-byte progress record (R35). -/
def progressBytes (p : Progress) : Bytes :=
  u32 p.pseq ++ u32 p.handle ++ u16 p.value ++ u8 p.phase ++ u8 p.unit ++ zeros 4 ++ u64 p.position ++ u64 p.total
    ++ u64 p.ct ++ zeros 24

/-- The live operation of function `fn` with a handle. -/
def opByHandle (s : State) (fn h : Nat) : Option (Nat × LongOp) :=
  s.bench.ops.find? (fun e => e.2.handle = h && e.2.fn = fn && h ≠ 0)

/-- The retained record of function `fn` with a handle, while it is still readable (R38). -/
def retainedOf (s : State) (fn h : Nat) : Option Retained :=
  match tget s.bench.retained h with
  | some x => if x.fn = fn && decide (s.ct < x.ctEnd + 10000000000) then some x else none
  | none => none

/-- PROGRESS: the record of a live or retained handle of the function (R38, R42). -/
def bodyProgress (_ : Moment) (r : Req) (s : State) : Reply :=
  match opByHandle s r.fn (r.f 0 4) with
  | some (_, o) => .ok s (progressBytes o.prog)
  | none =>
    match retainedOf s r.fn (r.f 0 4) with
    | some x => .ok s (progressBytes x.prog)
    | none => .err s St.handleUnknown

def execProgress (m : Moment) (r : Req) (s : State) : Out := .next (runCommand opProgress bodyProgress m r s)

/-! ### CANCEL -/

def opCancel : OpInfo := { opcode := 0x0003 }

/-- CANCEL: sets CANCELLING, or tells that the operation has ended (R44). The operation stops at LONG_OP_END. -/
def bodyCancel (_ : Moment) (r : Req) (s : State) : Reply :=
  match opByHandle s r.fn (r.f 0 4) with
  | some (n, o) =>
    if o.cancelling then .ok s (u32 0)
    else if !o.canCancel then .err s St.notCancellable
    else .ok (progressOp n 0xFE o.prog.position o.prog.total (setOp n { o with cancelling := true } s)) (u32 0)
  | none =>
    match retainedOf s r.fn (r.f 0 4) with
    | some _ => .ok s (u32 1)
    | none => .err s St.handleUnknown

def execCancel (m : Moment) (r : Req) (s : State) : Out := .next (runCommand opCancel bodyCancel m r s)

/-! ### EVENT_CFG -/

def opEventCfg : OpInfo := { opcode := 0x0004, rsvd := [(0x0D, 1)], alignOn := [(0x09, 0x00, 4096)] }

/-- The boot log's records go to PF0's ring when it is first enabled after the boot (R496). -/
def flushBootLog (s : State) : State :=
  if s.err.bootOwed && (fnState s 0).ring.enabled && decide (7 ≤ s.bench.bootPhase) then
    s.err.bootLog.foldl (fun s rec =>
      let r := (fnState s 0).ring
      let e : Event := { code := field rec 8 2, sev := field rec 10 1 }
      if admits r e then
        if r.enabled && decide (r.used < 2 ^ r.log2) then
          putRecord 0 (fun phase => rec.take 0x0B ++ u8 phase ++ rec.drop 0x0C) s
        else dropEvent 0 s
      else s) { s with err := { s.err with bootOwed := false } }
  else s

/-- EVENT_CFG: enables, reconfigures or disables the function's ring (R46). Nothing is held at a switch: the ring's writes
are done when the command runs (DESIGN CHOICE, log entry 19). Enabling keeps WRITE_FAULT and OVERFLOW, which the host clears, and
forgets drops that no record has told (DESIGN CHOICE, log entry 62). -/
def bodyEventCfg (_ : Moment) (r : Req) (s : State) : Reply :=
  let f := fnState s r.fn
  let en := r.f 0x09 1
  if en = 0 then .ok (setFn r.fn { f with ring := { f.ring with enabled := false } } s)
  else if en ≠ 1 || decide (r.f 8 1 < 6) || decide (20 < r.f 8 1)
      || (decide (2048 ≤ r.f 0x0A 2) && r.f 0x0A 2 ≠ 0xFFFF) || decide (3 < r.f 0x0C 1) then .err s St.badField
  else
    let ring : EventRing := { f.ring with
      base := r.f 0 8, log2 := r.f 8 1, prod := 0, cons := 0, enabled := true, dropped := 0, untold := 0
      vector := r.f 0x0A 2, minSev := r.f 0x0C 1, mask := r.f 0x0E 2 }
    let s := setFn r.fn { f with ring } s
    .ok (if r.fn = 0 then flushBootLog s else s)

def execEventCfg (m : Moment) (r : Req) (s : State) : Out := .next (runCommand opEventCfg bodyEventCfg m r s)

/-! ### APERTURE_SET -/

def opApertureSet : OpInfo :=
  { opcode := 0x0005, rsvd := [(0x04, 4)], alignOn := [(0x02, 0x08, 0x200000), (0x02, 0x10, 0x200000)] }

/-- Two ranges of BAR2 overlap. -/
def rangesMeet (a n b k : Nat) : Bool := decide (a < b + k) && decide (b < a + n)

/-- The checks of APERTURE_SET (R17, R42, R453); R29 has checked the alignment of the BAR2 range. `mem_offset` needs none, and with
`enable` 0 the range, the tier and `mem_offset` are not checked: the manual says neither (DESIGN CHOICE, log entry 62). -/
def apertureCheck (r : Req) (s : State) : Except Nat Unit := do
  guard' (decide (r.f 0 1 < apertureCount r.fn) && decide (r.f 2 1 ≤ 1)) St.badField
  guard' (decide (r.f 3 1 < 16)) St.badField
  guard' (r.fn = 0 || r.f 3 1 = r.fn - 1) St.notPermitted
  guard' ((getPart s (r.f 3 1)).pstate ≠ .teardown) 0x0D05
  guard' (!(r.fn = 0 && [Tdi.locked, Tdi.run, Tdi.error].contains (getPart s (r.f 3 1)).tdi)) 0x0D08
  if r.f 2 1 = 1 then
    guard' (r.f 1 1 = 1 || r.f 1 1 = 2) St.badField
    guard' (r.f 0x10 8 ≠ 0) St.badField
    guard' (decide (r.f 8 8 + r.f 0x10 8 ≤ bar2Size r.fn)) St.badField
    guard' (!((fnState s r.fn).apertures.any (fun e => e.1 ≠ r.f 0 1 && rangesMeet e.2.barOffset e.2.size (r.f 8 8) (r.f 0x10 8))))
      St.badField
    guard' (decide (r.f 0x18 8 + r.f 0x10 8 ≤ partBytes s (r.f 3 1) (r.f 1 1))) St.badField

/-- APERTURE_SET: maps, changes or disables an aperture; one that is not in the table is disabled (R17, R42). -/
def bodyApertureSet (_ : Moment) (r : Req) (s : State) : Reply :=
  checked s (apertureCheck r s) fun _ =>
    let f := fnState s r.fn
    let t := if r.f 2 1 = 1 then
        tset f.apertures (r.f 0 1) { tier := r.f 1 1, partition := r.f 3 1, barOffset := r.f 8 8, size := r.f 0x10 8,
                                     memOffset := r.f 0x18 8 }
      else tdel f.apertures (r.f 0 1)
    .ok (setFn r.fn { f with apertures := t } s)

def execApertureSet (m : Moment) (r : Req) (s : State) : Out := .next (runCommand opApertureSet bodyApertureSet m r s)

end Sys2Proof.Machine
end

