-- ==== Sys2Proof/Machine/LongOps.lean ====
section
/-! DEFINITION. The ends of long operations (R26, R36, R38, R44, 01). -/

namespace Sys2Proof.Machine

/-- A Foundry operation's CANCEL is in effect (R44). What it does without one ends with its last descriptor. -/
def endFoundry (n : Nat) (s : State) : State :=
  match s.fdy.ops.find? (fun e => e.2.op = n) with
  | some (k, f) => if fopCancelling s f then cancelFop k s else s
  | none => if stopping s n then endWaiting n s else s
where
  /-- In phase QUIESCE the operation has only its place among what its session has recorded (R66, R127). -/
  endWaiting (n : Nat) (s : State) : State :=
    match getOp s n with
    | none => s
    | some o => endOp n St.cancelled 0 [] (modSess (o.req.f 0 8) (fun x => { x with waiting := x.waiting.filter (· ≠ o.req) }) s)

/-- A cut's CANCEL is in effect (R418). -/
def endCut (n : Nat) (s : State) : State :=
  match s.mld.groups.find? (fun e => e.2.op = n) with
  | some (g, x) => if stopping s n then
      (if x.cstate = .queued then cutFail g St.cancelled { s with mld := { s.mld with queue := s.mld.queue.erase g } }
       else cutFail g St.cancelled s)
    else s
  | none => s

/-- A restore's CANCEL is in effect, or its phase RESTORE runs to its end. -/
def endRestoreOp (m : Moment) (n : Nat) (s : State) : State :=
  if stopping s n && thas s.mld.restores n then
    endOp n St.cancelled 0 [] (dropCmds (.restore n) { s with mld := { s.mld with restores := tdel s.mld.restores n } })
  else if (tget s.mld.restores n).any (fun x => !x.data.isEmpty) then restoreTake m n s
  else s

/-- An operation reaches its end, as the chapter of its command has it. One that an event of its own ends ends here only by CANCEL,
and one that cannot be cancelled only by that event. -/
def endByKind (m : Moment) (n : Nat) (o : LongOp) (ok : Bool) (s : State) : State :=
  match o.opcode with
  | 0x0101 => endSessionAppend m n o s
  | 0x0106 => endSessionRebind n o s
  | 0x0109 => endSessionList n o s
  | 0x0200 => endFoundry n s
  | 0x0201 => endFoundry n s
  | 0x0202 => endFoundry n s
  | 0x0205 => endFoundry n s
  | 0x0305 => endPtnPurge n o s
  | 0x0306 => if o.cancelling then endOp n St.cancelled 0 [] s else endPtnConfig n o s
  | 0x0400 => endModelLoad n o s
  | 0x0403 => endModelPlace n o s
  | 0x0500 => endTablesetLoad n o s
  | 0x0501 => endTablesetRetire n o s
  | 0x0901 => endTchIndexDrop n o s
  | 0x0902 => endTchInsert m n s
  | 0x0904 => endTchQuery n o s
  | 0x0905 => endTchQuery n o s
  | 0x0907 => endTchRepair n o s
  | 0x0908 => endGthVersion n o ok s
  | 0x0909 => endGthVersion n o ok s
  | 0x090A => endGthTableDrop n o s
  | 0x090C => endGthRun n o s
  | 0x0A03 => endNetQpClose n o s
  | 0x0A08 => endNetPost n o s
  | 0x0A0B => endNetMapUpdate n o s
  | 0x0A0C => mapSwapNext n s
  | 0x0A10 => endOp n St.ok 0 [] s
  | 0x0B03 => endTwinClear n o s
  | 0x0C02 => endCut n s
  | 0x0C03 => endRestoreOp m n s
  | 0x0C07 => endChkRun n o s
  | 0x0D00 => endHmkPartitionSet n o s
  | 0x0E08 => endOtpProgram n o ok s
  | 0x0F00 => endDevReset m n s
  | 0x0F05 => endFwLoad n o ok s
  | _ => s

/-- LONG_OP_END (R26): an operation ends, with its final status or with CANCELLED; one that is forwarded ends with its answer (R387). -/
def execLongOpEnd (m : Moment) (op : Nat) (ok : Bool) (s : State) : Out :=
  let s := s.at m
  .next (match getOp s op with
    | none => s
    | some o =>
      if s.swl.reqs.any (fun e => match e.2.wait with | .forwarded _ n => n = op | _ => false) then s
      else settleAll m (endByKind m op o ok s))

end Sys2Proof.Machine
end

