-- ==== Sys2Proof/Machine/Take.lean ====
section
/-! DEFINITION. The opcode table of the Chavy command set, and the ways by which a command reaches it other than by its own row: the
watcher, MCTP, Swilan, a twin pair's primary, and a power group that becomes ACTIVE (R26 to R29, R53, 01; R387, R395, 13; R467, 16). -/

namespace Sys2Proof.Machine

/-- What a command's chapter says of it: its envelope and its body. -/
abbrev Meaning := OpInfo × (Moment → Req → State → Reply)

/-! ### The opcode table, group by group -/

/-- Group 0x00 (01). -/
def group00 : Nat → Option Meaning
  | 0x00 => some (opNop, bodyNop)
  | 0x01 => some (opQuery, bodyQuery)
  | 0x02 => some (opProgress, bodyProgress)
  | 0x03 => some (opCancel, bodyCancel)
  | 0x04 => some (opEventCfg, bodyEventCfg)
  | 0x05 => some (opApertureSet, bodyApertureSet)
  | _ => none

/-- Group 0x01 (02). -/
def group01 : Nat → Option Meaning
  | 0x00 => some (opSessionAdmit, bodySessionAdmit)
  | 0x01 => some (opSessionAppend, bodySessionAppend)
  | 0x02 => some (opSessionAppendTokens, bodySessionAppendTokens)
  | 0x03 => some (opSessionStop, bodySessionStop)
  | 0x04 => some (opSessionRead, bodySessionRead)
  | 0x05 => some (opSessionSet, bodySessionSet)
  | 0x06 => some (opSessionRebind, bodySessionRebind)
  | 0x07 => some (opSessionRetire, bodySessionRetire)
  | 0x08 => some (opSessionArm, bodySessionArm)
  | 0x09 => some (opSessionList, bodySessionList)
  | 0x0A => some (opJournalRead, bodyJournalRead)
  | 0x0B => some (opPlnConfig, bodyPlnConfig)
  | _ => none

/-- Group 0x02 (03). -/
def group02 : Nat → Option Meaning
  | 0x00 => some (opFdyCast, bodyFdyCast)
  | 0x01 => some (opFdyRaise, bodyFdyRaise)
  | 0x02 => some (opFdyMigrate, bodyFdyMigrate)
  | 0x03 => some (opFdyDirRead, bodyFdyDirRead)
  | 0x04 => some (opFdyConfig, bodyFdyConfig)
  | 0x05 => some (opFdySubmit, bodyFdySubmit)
  | 0x06 => some (opFdyExportRelease, bodyFdyExportRelease)
  | _ => none

/-- Group 0x03 (04). -/
def group03 : Nat → Option Meaning
  | 0x00 => some (opPtnPublish, bodyPtnPublish)
  | 0x01 => some (opPtnMatch, bodyPtnMatch)
  | 0x02 => some (opPtnDelete, bodyPtnDelete)
  | 0x03 => some (opPtnPin, bodyPtnPin)
  | 0x04 => some (opPtnRead, bodyPtnRead)
  | 0x05 => some (opPtnPurge, bodyPtnPurge)
  | 0x06 => some (opPtnConfig, bodyPtnConfig)
  | 0x07 => some (opPagePoolConfig, bodyPagePoolConfig)
  | 0x08 => some (opPageTableRead, bodyPageTableRead)
  | _ => none

/-- Group 0x04 (05). -/
def group04 : Nat → Option Meaning
  | 0x00 => some (opModelLoad, bodyModelLoad)
  | 0x01 => some (opModelUnload, bodyModelUnload)
  | 0x02 => some (opModelQuery, bodyModelQuery)
  | 0x03 => some (opModelPlace, bodyModelPlace)
  | 0x04 => some (opAttConfig, bodyAttConfig)
  | _ => none

/-- Group 0x05 (07). -/
def group05 : Nat → Option Meaning
  | 0x00 => some (opTablesetLoad, bodyTablesetLoad)
  | 0x01 => some (opTablesetRetire, bodyTablesetRetire)
  | 0x02 => some (opTablesetQuery, bodyTablesetQuery)
  | 0x03 => some (opShearCut, bodyShearCut)
  | 0x04 => some (opSolderRender, bodySolderRender)
  | _ => none

/-- Group 0x06 (08). -/
def group06 : Nat → Option Meaning
  | 0x00 => some (opFinSet, bodyFinSet)
  | 0x01 => some (opFinRead, bodyFinRead)
  | 0x02 => some (opGrammarCheck, bodyGrammarCheck)
  | 0x03 => some (opSpinDraw, bodySpinDraw)
  | _ => none

/-- Group 0x07 (09). -/
def group07 : Nat → Option Meaning
  | 0x00 => some (opClassSet, bodyClassSet)
  | 0x01 => some (opClassRead, bodyClassRead)
  | 0x02 => some (opClassDelete, bodyClassDelete)
  | 0x03 => some (opMeterSet, bodyMeterSet)
  | 0x04 => some (opMeterRead, bodyMeterRead)
  | 0x05 => some (opPartitionShare, bodyPartitionShare)
  | 0x06 => some (opStreamRingSet, bodyStreamRingSet)
  | 0x07 => some (opGaugeReport, bodyGaugeReport)
  | 0x08 => some (opGaugeConfig, bodyGaugeConfig)
  | 0x09 => some (opPlaQueueRead, bodyPlaQueueRead)
  | _ => none

/-- Group 0x08 (10). -/
def group08 : Nat → Option Meaning
  | 0x00 => some (opTlyRead, bodyTlyRead)
  | 0x01 => some (opTlyEvidence, bodyTlyEvidence)
  | 0x02 => some (opTlyConfig, bodyTlyConfig)
  | _ => none

/-- Group 0x09 (11). -/
def group09 : Nat → Option Meaning
  | 0x00 => some (opTchIndexCreate, bodyTchIndexCreate)
  | 0x01 => some (opTchIndexDrop, bodyTchIndexDrop)
  | 0x02 => some (opTchInsert, bodyTchInsert)
  | 0x03 => some (opTchDelete, bodyTchDelete)
  | 0x04 => some (opTchQuery, bodyTchQuery)
  | 0x05 => some (opTchBulk, bodyTchBulk)
  | 0x06 => some (opTchIndexQuery, bodyTchIndexQuery)
  | 0x07 => some (opTchRepair, bodyTchRepair)
  | 0x08 => some (opGthTableLoad, bodyGthTableLoad)
  | 0x09 => some (opGthTablePatch, bodyGthTablePatch)
  | 0x0A => some (opGthTableDrop, bodyGthTableDrop)
  | 0x0B => some (opGthHotSet, bodyGthHotSet)
  | 0x0C => some (opGthRun, bodyGthRun)
  | 0x0D => some (opGthTableQuery, bodyGthTableQuery)
  | _ => none

/-- Group 0x0A (12). -/
def group0A : Nat → Option Meaning
  | 0x00 => some (opNetPortSet, bodyNetPortSet)
  | 0x01 => some (opNetPortQuery, bodyNetPortQuery)
  | 0x02 => some (opNetQpConnect, bodyNetQpConnect)
  | 0x03 => some (opNetQpClose, bodyNetQpClose)
  | 0x04 => some (opNetQpQuery, bodyNetQpQuery)
  | 0x05 => some (opNetCcSet, bodyNetCcSet)
  | 0x06 => some (opNetRegionReg, bodyNetRegionReg)
  | 0x07 => some (opNetRegionDereg, bodyNetRegionDereg)
  | 0x08 => some (opNetPost, bodyNetPost)
  | 0x09 => some (opNetChainPost, bodyNetChainPost)
  | 0x0A => some (opNetChainCancel, bodyNetChainCancel)
  | 0x0B => some (opNetMapUpdate, bodyNetMapUpdate)
  | 0x0C => some (opNetMapSwap, bodyNetMapSwap)
  | 0x0D => some (opNetMapRead, bodyNetMapRead)
  | 0x0E => some (opNetPtpSet, bodyNetPtpSet)
  | 0x0F => some (opNvmeConnect, bodyNvmeConnect)
  | 0x10 => some (opNvmeDisconnect, bodyNvmeDisconnect)
  | 0x11 => some (opNetRegionQuery, bodyNetRegionQuery)
  | _ => none

/-- Group 0x0B (13). -/
def group0B : Nat → Option Meaning
  | 0x00 => some (opSwlQuery, bodySwlQuery)
  | 0x01 => some (opSwlLinkSet, bodySwlLinkSet)
  | 0x02 => some (opTwinSet, bodyTwinSet)
  | 0x03 => some (opTwinClear, bodyTwinClear)
  | 0x04 => some (opTwinQuery, bodyTwinQuery)
  | _ => none

/-- Group 0x0C (14). -/
def group0C : Nat → Option Meaning
  | 0x00 => some (opMldGroupSet, bodyMldGroupSet)
  | 0x01 => some (opMldGroupQuery, bodyMldGroupQuery)
  | 0x02 => some (opMldCut, bodyMldCut)
  | 0x03 => some (opMldRestore, bodyMldRestore)
  | 0x04 => some (opMldConfig, bodyMldConfig)
  | 0x05 => some (opChkClaim, bodyChkClaim)
  | 0x06 => some (opChkRelease, bodyChkRelease)
  | 0x07 => some (opChkRun, bodyChkRun)
  | _ => none

/-- Group 0x0D (15). -/
def group0D : Nat → Option Meaning
  | 0x00 => some (opHmkPartitionSet, bodyHmkPartitionSet)
  | 0x01 => some (opHmkPartitionTeardown, bodyHmkPartitionTeardown)
  | 0x02 => some (opHmkPartitionQuery, bodyHmkPartitionQuery)
  | 0x03 => some (opHmkKeyLoad, bodyHmkKeyLoad)
  | 0x04 => some (opHmkKeyDestroy, bodyHmkKeyDestroy)
  | 0x05 => some (opHmkAttest, bodyHmkAttest)
  | 0x06 => some (opHmkCertRead, bodyHmkCertRead)
  | 0x07 => some (opHmkRollbackCommit, bodyHmkRollbackCommit)
  | _ => none

/-- Group 0x0E (16). -/
def group0E : Nat → Option Meaning
  | 0x00 => some (opPwrSet, bodyPwrSet)
  | 0x01 => some (opPwrQuery, bodyPwrQuery)
  | 0x02 => some (opPwrResume, bodyPwrResume)
  | 0x03 => some (opCtConfig, bodyCtConfig)
  | 0x04 => some (opCtStep, bodyCtStep)
  | 0x05 => some (opCtLeapLoad, bodyCtLeapLoad)
  | 0x06 => some (opAonSettingsSave, bodyAonSettingsSave)
  | 0x07 => some (opAonSettingsRead, bodyAonSettingsRead)
  | 0x08 => some (opOtpProgram, bodyOtpProgram)
  | 0x09 => some (opAonLifeRead, bodyAonLifeRead)
  | 0x0A => some (opAonLifeSync, bodyAonLifeSync)
  | _ => none

/-- Group 0x0F (17). -/
def group0F : Nat → Option Meaning
  | 0x00 => some (opDevReset, bodyDevReset)
  | 0x01 => some (opDiagTraining, bodyDiagTraining)
  | 0x02 => some (opDiagErrors, bodyDiagErrors)
  | 0x03 => some (opDiagViewCheck, bodyDiagViewCheck)
  | 0x04 => some (opDiagInject, bodyDiagInject)
  | 0x05 => some (opFwLoad, bodyFwLoad)
  | 0x06 => some (opDiagBootLog, bodyDiagBootLog)
  | _ => none

/-- The meaning of an opcode, none where it is not defined. -/
def commandOf (opc : Nat) : Option Meaning :=
  match opc / 256 with
  | 0x00 => group00 (opc % 256)
  | 0x01 => group01 (opc % 256)
  | 0x02 => group02 (opc % 256)
  | 0x03 => group03 (opc % 256)
  | 0x04 => group04 (opc % 256)
  | 0x05 => group05 (opc % 256)
  | 0x06 => group06 (opc % 256)
  | 0x07 => group07 (opc % 256)
  | 0x08 => group08 (opc % 256)
  | 0x09 => group09 (opc % 256)
  | 0x0A => group0A (opc % 256)
  | 0x0B => group0B (opc % 256)
  | 0x0C => group0C (opc % 256)
  | 0x0D => group0D (opc % 256)
  | 0x0E => group0E (opc % 256)
  | 0x0F => group0F (opc % 256)
  | _ => none

/-- A captured command runs; an undefined opcode completes with BAD_OPCODE (R29 step 1). -/
def runTaken (m : Moment) (r : Req) (s : State) : State :=
  match commandOf r.hdr.opcode with
  | none => complete r St.badOpcode 0 0 [] false s
  | some (i, body) => settleAll m (commandStep i body m r s)

/-! ### The watcher (R26, R27) -/

/-- The request that a mailbox holds. -/
def mbxReq (s : State) (fn n : Nat) : Req :=
  let x := getMbx s fn n
  { src := .mailbox fn n, hdr := x.hdr, payload := Mem.read x.payload 0 (min x.hdr.payloadLen 3968) }

/-- MBX_TAKE: the watcher takes a POSTED mailbox, where it may. -/
def execMbxTake (m : Moment) (fn mbx : Nat) (s : State) : Out :=
  let s := s.at m
  .next (if mbxExists fn mbx && watcherTakes s fn mbx then
    let r := mbxReq s fn mbx
    runTaken m r (capture r s)
  else s)

/-! ### Management (R53) -/

/-- MCTP_REQUEST. A device that is booting does not answer (log entry 46). -/
def execMctpRequest (m : Moment) (r : Req) (s : State) : Out :=
  let s := s.at m
  .next (if s.bench.devState = .booting then s else runTaken m { r with src := .mctp } s)

/-! ### Swilan (R387, R395) -/

/-- SWL_FORWARDED_COMMAND: a command that another chip has taken runs here; its completion goes back on VC1. -/
def execSwlForwardedCommand (m : Moment) (link tag fn : Nat) (r : Req) (s : State) : Out :=
  let s := s.at m
  .next (if (getLink s link).up then
    runTaken m { r with src := .forwarded link tag fn } (swlGot link 0 r.payload.length s)
  else s)

/-- What a chip does with a message of its pair's other chip: a copy's fault, the pair's loss or its end, a chain's firing, or a
command. -/
def applyMirrored (m : Moment) (r : Req) (s : State) : State :=
  if r.hdr.opcode = 0x0B03 then settleAll m (twinEnd (r.f 0 1) s)
  else if r.hdr.opcode = pairLost then settleAll m (hearLoss (r.f 0 1) (r.f 1 1) s)
  else if r.hdr.opcode = copyFaulted then settleAll m (twinFault (r.f 0 8) (r.f 8 2) s)
  else if r.hdr.opcode = 0x0A09 then settleAll m (shadowFiring m r s)
  else if mirroredOps.contains r.hdr.opcode then runTaken m r s
  else s

/-- TWIN_MIRRORED_COMMAND: taken from the primary's link by the secondary of the partition's pair, in the order of its arrival; a
copy's fault and the loss of the pair go either way. The pair's loss and its end name their partition in the payload. -/
def execTwinMirroredCommand (m : Moment) (r : Req) (s : State) : Out :=
  let s := s.at m
  let r := { r with src := .mirrored }
  let p := if r.hdr.opcode = 0x0B03 || r.hdr.opcode = pairLost then r.f 0 1 else twinPart r s
  let both := r.hdr.opcode = copyFaulted || r.hdr.opcode = pairLost
  .next (match tget s.twn.pairs p with
    | some x =>
      if (x.secondary || both) && linkUp s x.peer then applyMirrored m r (swlGot (linkTo s x.peer) 3 r.payload.length s) else s
    | none => s)

/-! ### Power groups that become ACTIVE (R465, R467) -/

/-- The commands that wait for an engine run, in the order in which they were taken. -/
def wakeCmds (m : Moment) (g : Nat) (s : State) : State :=
  let (now, later) := s.pwr.waitCmds.partition (fun r => engineOf r.hdr.opcode r = some g)
  now.foldl (fun s r => runTaken m r s) { s with pwr := { s.pwr with waitCmds := later } }

/-- What waits for a group goes on: commands, BAR2 accesses, descriptors, cuts and a link's messages. -/
def wake (m : Moment) (g : Nat) (s : State) : State :=
  let s := cutNext (pumpAll (barAgain (wakeCmds m g s)))
  if groupKind g = .link then pumpLink (g - 0x30) s else s

/-- PWR_TRANSITION_PHASE_DONE: a phase of a group's transition is over. -/
def execPwrTransitionPhaseDone (m : Moment) (group : Nat) (s : State) : Out :=
  let s := groupPhase m group (s.at m)
  .next (settleAll m (if groupOpen s group then wake m group s else s))

end Sys2Proof.Machine
end

