-- ==== Sys2Proof/Machine/Dispatch.lean ====
section
/-! DEFINITION. The effect of each command on everything but the queue: one arm per constructor. -/

namespace Sys2Proof.Machine

/-- The effect of a command. -/
def exec (i : Instr) (s : State) : Host.Outcome State Fault Refusal :=
  match i with
  | .mbxPost m fn mbx => Sys2Proof.Machine.execMbxPost m fn mbx s
  | .mbxRelease m fn mbx => Sys2Proof.Machine.execMbxRelease m fn mbx s
  | .mbxOwnInvalid m fn mbx value => Sys2Proof.Machine.execMbxOwnInvalid m fn mbx value s
  | .mbxLockedWrite m fn mbx offset value => Sys2Proof.Machine.execMbxLockedWrite m fn mbx offset value s
  | .mbxTake m fn mbx => Sys2Proof.Machine.execMbxTake m fn mbx s
  | .longOpAccept m op => Sys2Proof.Machine.execLongOpAccept m op s
  | .longOpEnd m op ok => Sys2Proof.Machine.execLongOpEnd m op ok s
  | .msixUnmask m fn vector => Sys2Proof.Machine.execMsixUnmask m fn vector s
  | .progressUpdate m op position => Sys2Proof.Machine.execProgressUpdate m op position s
  | .progressRetentionExpiry m handle => Sys2Proof.Machine.execProgressRetentionExpiry m handle s
  | .evtConsWrite m fn value => Sys2Proof.Machine.execEvtConsWrite m fn value s
  | .bar2Read m fn offset len => Sys2Proof.Machine.execBar2Read m fn offset len s
  | .bar2Write m fn offset data => Sys2Proof.Machine.execBar2Write m fn offset data s
  | .registerWrite m fn bar offset len value => Sys2Proof.Machine.execRegisterWrite m fn bar offset len value s
  | .ctNowLowRead m fn => Sys2Proof.Machine.execCtNowLowRead m fn s
  | .ctUtcDateRead m fn => Sys2Proof.Machine.execCtUtcDateRead m fn s
  | .chkCtlWrite m fn unit value => Sys2Proof.Machine.execChkCtlWrite m fn unit value s
  | .chkInit m fn unit value => Sys2Proof.Machine.execChkInit m fn unit value s
  | .chkData8 m fn unit value => Sys2Proof.Machine.execChkData8 m fn unit value s
  | .chkData1 m fn unit value => Sys2Proof.Machine.execChkData1 m fn unit value s
  | .mctpRequest m r => Sys2Proof.Machine.execMctpRequest m r s
  | .nop m r => Sys2Proof.Machine.execNop m r s
  | .query m r => Sys2Proof.Machine.execQuery m r s
  | .progress m r => Sys2Proof.Machine.execProgress m r s
  | .cancel m r => Sys2Proof.Machine.execCancel m r s
  | .eventCfg m r => Sys2Proof.Machine.execEventCfg m r s
  | .apertureSet m r => Sys2Proof.Machine.execApertureSet m r s
  | .sessionAdmit m r => Sys2Proof.Machine.execSessionAdmit m r s
  | .sessionAppend m r => Sys2Proof.Machine.execSessionAppend m r s
  | .sessionAppendTokens m r => Sys2Proof.Machine.execSessionAppendTokens m r s
  | .sessionStop m r => Sys2Proof.Machine.execSessionStop m r s
  | .sessionRead m r => Sys2Proof.Machine.execSessionRead m r s
  | .sessionSet m r => Sys2Proof.Machine.execSessionSet m r s
  | .sessionRebind m r => Sys2Proof.Machine.execSessionRebind m r s
  | .sessionRetire m r => Sys2Proof.Machine.execSessionRetire m r s
  | .sessionArm m r => Sys2Proof.Machine.execSessionArm m r s
  | .sessionList m r => Sys2Proof.Machine.execSessionList m r s
  | .journalRead m r => Sys2Proof.Machine.execJournalRead m r s
  | .plnConfig m r => Sys2Proof.Machine.execPlnConfig m r s
  | .batchDispatch m => Sys2Proof.Machine.execBatchDispatch m s
  | .batchWaitExpiry m => Sys2Proof.Machine.execBatchWaitExpiry m s
  | .invocationResident m serial => Sys2Proof.Machine.execInvocationResident m serial s
  | .layerGroupStart m tile att ops fault => Sys2Proof.Machine.execLayerGroupStart m tile att ops fault s
  | .tileWatchdogExpiry m serial => Sys2Proof.Machine.execTileWatchdogExpiry m serial s
  | .stepCommit m serial rows => Sys2Proof.Machine.execStepCommit m serial rows s
  | .prefillChunkEnd m serial row => Sys2Proof.Machine.execPrefillChunkEnd m serial row s
  | .autoCastTimer m session => Sys2Proof.Machine.execAutoCastTimer m session s
  | .raiseWaitDequeue m => Sys2Proof.Machine.execRaiseWaitDequeue m s
  | .fdyCast m r => Sys2Proof.Machine.execFdyCast m r s
  | .fdyRaise m r => Sys2Proof.Machine.execFdyRaise m r s
  | .fdyMigrate m r => Sys2Proof.Machine.execFdyMigrate m r s
  | .fdyDirRead m r => Sys2Proof.Machine.execFdyDirRead m r s
  | .fdyConfig m r => Sys2Proof.Machine.execFdyConfig m r s
  | .fdySubmit m r => Sys2Proof.Machine.execFdySubmit m r s
  | .fdyExportRelease m r => Sys2Proof.Machine.execFdyExportRelease m r s
  | .descriptorIssue m engine => Sys2Proof.Machine.execDescriptorIssue m engine s
  | .descriptorComplete m desc result => Sys2Proof.Machine.execDescriptorComplete m desc result s
  | .runaheadTtlExpiry m fop => Sys2Proof.Machine.execRunaheadTtlExpiry m fop s
  | .pullTimeoutExpiry m desc => Sys2Proof.Machine.execPullTimeoutExpiry m desc s
  | .migrateArrive m link tag x => Sys2Proof.Machine.execMigrateArrive m link tag x s
  | .migrateConfirm m fop ok slot status => Sys2Proof.Machine.execMigrateConfirm m fop ok slot status s
  | .exportCommit m x => Sys2Proof.Machine.execExportCommit m x s
  | .exportRetired m session peer => Sys2Proof.Machine.execExportRetired m session peer s
  | .ptnPublish m r => Sys2Proof.Machine.execPtnPublish m r s
  | .ptnMatch m r => Sys2Proof.Machine.execPtnMatch m r s
  | .ptnDelete m r => Sys2Proof.Machine.execPtnDelete m r s
  | .ptnPin m r => Sys2Proof.Machine.execPtnPin m r s
  | .ptnRead m r => Sys2Proof.Machine.execPtnRead m r s
  | .ptnPurge m r => Sys2Proof.Machine.execPtnPurge m r s
  | .ptnConfig m r => Sys2Proof.Machine.execPtnConfig m r s
  | .pagePoolConfig m r => Sys2Proof.Machine.execPagePoolConfig m r s
  | .pageTableRead m r => Sys2Proof.Machine.execPageTableRead m r s
  | .ptnEviction m partition => Sys2Proof.Machine.execPtnEviction m partition s
  | .modelLoad m r => Sys2Proof.Machine.execModelLoad m r s
  | .modelLoadComplete m slot copyOk => Sys2Proof.Machine.execModelLoadComplete m slot copyOk s
  | .modelUnload m r => Sys2Proof.Machine.execModelUnload m r s
  | .modelUnloadComplete m slot => Sys2Proof.Machine.execModelUnloadComplete m slot s
  | .modelQuery m r => Sys2Proof.Machine.execModelQuery m r s
  | .modelPlace m r => Sys2Proof.Machine.execModelPlace m r s
  | .attConfig m r => Sys2Proof.Machine.execAttConfig m r s
  | .tablesetLoad m r => Sys2Proof.Machine.execTablesetLoad m r s
  | .tablesetLoadComplete m gen copyOk => Sys2Proof.Machine.execTablesetLoadComplete m gen copyOk s
  | .tablesetRetire m r => Sys2Proof.Machine.execTablesetRetire m r s
  | .tablesetDrained m gen => Sys2Proof.Machine.execTablesetDrained m gen s
  | .tablesetQuery m r => Sys2Proof.Machine.execTablesetQuery m r s
  | .shearCut m r => Sys2Proof.Machine.execShearCut m r s
  | .solderRender m r => Sys2Proof.Machine.execSolderRender m r s
  | .shearLaneStart m => Sys2Proof.Machine.execShearLaneStart m s
  | .finSet m r => Sys2Proof.Machine.execFinSet m r s
  | .finRead m r => Sys2Proof.Machine.execFinRead m r s
  | .grammarCheck m r => Sys2Proof.Machine.execGrammarCheck m r s
  | .spinDraw m r => Sys2Proof.Machine.execSpinDraw m r s
  | .classSet m r => Sys2Proof.Machine.execClassSet m r s
  | .classRead m r => Sys2Proof.Machine.execClassRead m r s
  | .classDelete m r => Sys2Proof.Machine.execClassDelete m r s
  | .meterSet m r => Sys2Proof.Machine.execMeterSet m r s
  | .meterRead m r => Sys2Proof.Machine.execMeterRead m r s
  | .partitionShare m r => Sys2Proof.Machine.execPartitionShare m r s
  | .streamRingSet m r => Sys2Proof.Machine.execStreamRingSet m r s
  | .gaugeReport m r => Sys2Proof.Machine.execGaugeReport m r s
  | .gaugeConfig m r => Sys2Proof.Machine.execGaugeConfig m r s
  | .plaQueueRead m r => Sys2Proof.Machine.execPlaQueueRead m r s
  | .streamRecordWrite m partition ring => Sys2Proof.Machine.execStreamRecordWrite m partition ring s
  | .streamConsRead m partition ring => Sys2Proof.Machine.execStreamConsRead m partition ring s
  | .gaugeSample m => Sys2Proof.Machine.execGaugeSample m s
  | .gaugeWindowClose m cls => Sys2Proof.Machine.execGaugeWindowClose m cls s
  | .reportSign m => Sys2Proof.Machine.execReportSign m s
  | .tlyRead m r => Sys2Proof.Machine.execTlyRead m r s
  | .tlyEvidence m r => Sys2Proof.Machine.execTlyEvidence m r s
  | .tlyConfig m r => Sys2Proof.Machine.execTlyConfig m r s
  | .tallyAudit m => Sys2Proof.Machine.execTallyAudit m s
  | .swlMarkerReceive m link vc auditCt counts => Sys2Proof.Machine.execSwlMarkerReceive m link vc auditCt counts s
  | .swlMarkerTimeout m link vc auditCt => Sys2Proof.Machine.execSwlMarkerTimeout m link vc auditCt s
  | .tchIndexCreate m r => Sys2Proof.Machine.execTchIndexCreate m r s
  | .tchIndexDrop m r => Sys2Proof.Machine.execTchIndexDrop m r s
  | .tchInsert m r => Sys2Proof.Machine.execTchInsert m r s
  | .tchDelete m r => Sys2Proof.Machine.execTchDelete m r s
  | .tchQuery m r => Sys2Proof.Machine.execTchQuery m r s
  | .tchBulk m r => Sys2Proof.Machine.execTchBulk m r s
  | .tchIndexQuery m r => Sys2Proof.Machine.execTchIndexQuery m r s
  | .tchRepair m r => Sys2Proof.Machine.execTchRepair m r s
  | .tchSubqueryReceive m x => Sys2Proof.Machine.execTchSubqueryReceive m x s
  | .tchShardAnswer m query shard status hits => Sys2Proof.Machine.execTchShardAnswer m query shard status hits s
  | .tchShardTimeout m query => Sys2Proof.Machine.execTchShardTimeout m query s
  | .tchReclaim m index slot => Sys2Proof.Machine.execTchReclaim m index slot s
  | .tchRepairSweep m index => Sys2Proof.Machine.execTchRepairSweep m index s
  | .gthTableLoad m r => Sys2Proof.Machine.execGthTableLoad m r s
  | .gthTablePatch m r => Sys2Proof.Machine.execGthTablePatch m r s
  | .gthTableDrop m r => Sys2Proof.Machine.execGthTableDrop m r s
  | .gthHotSet m r => Sys2Proof.Machine.execGthHotSet m r s
  | .gthRun m r => Sys2Proof.Machine.execGthRun m r s
  | .gthTableQuery m r => Sys2Proof.Machine.execGthTableQuery m r s
  | .netPortSet m r => Sys2Proof.Machine.execNetPortSet m r s
  | .netPortQuery m r => Sys2Proof.Machine.execNetPortQuery m r s
  | .netQpConnect m r => Sys2Proof.Machine.execNetQpConnect m r s
  | .netQpClose m r => Sys2Proof.Machine.execNetQpClose m r s
  | .netQpQuery m r => Sys2Proof.Machine.execNetQpQuery m r s
  | .netCcSet m r => Sys2Proof.Machine.execNetCcSet m r s
  | .netRegionReg m r => Sys2Proof.Machine.execNetRegionReg m r s
  | .netRegionDereg m r => Sys2Proof.Machine.execNetRegionDereg m r s
  | .netRegionQuery m r => Sys2Proof.Machine.execNetRegionQuery m r s
  | .netPost m r => Sys2Proof.Machine.execNetPost m r s
  | .netChainPost m r => Sys2Proof.Machine.execNetChainPost m r s
  | .netChainCancel m r => Sys2Proof.Machine.execNetChainCancel m r s
  | .netMapUpdate m r => Sys2Proof.Machine.execNetMapUpdate m r s
  | .netMapSwap m r => Sys2Proof.Machine.execNetMapSwap m r s
  | .netMapRead m r => Sys2Proof.Machine.execNetMapRead m r s
  | .netPtpSet m r => Sys2Proof.Machine.execNetPtpSet m r s
  | .nvmeConnect m r => Sys2Proof.Machine.execNvmeConnect m r s
  | .nvmeDisconnect m r => Sys2Proof.Machine.execNvmeDisconnect m r s
  | .gxDataReceive m p => Sys2Proof.Machine.execGxDataReceive m p s
  | .gxSealReceive m p => Sys2Proof.Machine.execGxSealReceive m p s
  | .gxReadReceive m p => Sys2Proof.Machine.execGxReadReceive m p s
  | .gxAckReceive m p => Sys2Proof.Machine.execGxAckReceive m p s
  | .gxAckTimer m qp => Sys2Proof.Machine.execGxAckTimer m qp s
  | .gxAckTimeout m qp psn => Sys2Proof.Machine.execGxAckTimeout m qp psn s
  | .gxNakBackoffExpiry m qp psn => Sys2Proof.Machine.execGxNakBackoffExpiry m qp psn s
  | .gxPathResume m qp path => Sys2Proof.Machine.execGxPathResume m qp path s
  | .sealTimeout m qp msg => Sys2Proof.Machine.execSealTimeout m qp msg s
  | .qpDrainEnd m qp => Sys2Proof.Machine.execQpDrainEnd m qp s
  | .notResidentStallExpiry m qp => Sys2Proof.Machine.execNotResidentStallExpiry m qp s
  | .rcPacketReceive m p => Sys2Proof.Machine.execRcPacketReceive m p s
  | .cnpReceive m qp => Sys2Proof.Machine.execCnpReceive m qp s
  | .ccRateIncrease m qp => Sys2Proof.Machine.execCcRateIncrease m qp s
  | .regionQuarantineExpiry m region => Sys2Proof.Machine.execRegionQuarantineExpiry m region s
  | .mapUpdateDrained m partition => Sys2Proof.Machine.execMapUpdateDrained m partition s
  | .mapSwapHoldExpiry m partition => Sys2Proof.Machine.execMapSwapHoldExpiry m partition s
  | .ethLinkChange m ifc up => Sys2Proof.Machine.execEthLinkChange m ifc up s
  | .ptpMessageReceive m msg => Sys2Proof.Machine.execPtpMessageReceive m msg s
  | .ptpAnnounceTimeout m ifc => Sys2Proof.Machine.execPtpAnnounceTimeout m ifc s
  | .nvmeCompletionReceive m cmd ok data => Sys2Proof.Machine.execNvmeCompletionReceive m cmd ok data s
  | .nvmeKeepaliveLapse m ctrl => Sys2Proof.Machine.execNvmeKeepaliveLapse m ctrl s
  | .swlQuery m r => Sys2Proof.Machine.execSwlQuery m r s
  | .swlLinkSet m r => Sys2Proof.Machine.execSwlLinkSet m r s
  | .twinSet m r => Sys2Proof.Machine.execTwinSet m r s
  | .twinClear m r => Sys2Proof.Machine.execTwinClear m r s
  | .twinQuery m r => Sys2Proof.Machine.execTwinQuery m r s
  | .swlTrainIdentity m link id => Sys2Proof.Machine.execSwlTrainIdentity m link id s
  | .swlTrainTimeout m link => Sys2Proof.Machine.execSwlTrainTimeout m link s
  | .swlAbsentRetry m link => Sys2Proof.Machine.execSwlAbsentRetry m link s
  | .swlFlitCrcError m link => Sys2Proof.Machine.execSwlFlitCrcError m link s
  | .swlReplayRequest m link ackSeq => Sys2Proof.Machine.execSwlReplayRequest m link ackSeq s
  | .swlCreditReturn m link vc count => Sys2Proof.Machine.execSwlCreditReturn m link vc count s
  | .swlDirRequest m link tag a => Sys2Proof.Machine.execSwlDirRequest m link tag a s
  | .swlForwardedCommand m link tag fn r => Sys2Proof.Machine.execSwlForwardedCommand m link tag fn r s
  | .swlResponse m reqNo status detail result => Sys2Proof.Machine.execSwlResponse m reqNo status detail result s
  | .swlBulkData m link desc data => Sys2Proof.Machine.execSwlBulkData m link desc data s
  | .tablesetNumberCheck m link tag gen => Sys2Proof.Machine.execTablesetNumberCheck m link tag gen s
  | .twinMirroredCommand m r => Sys2Proof.Machine.execTwinMirroredCommand m r s
  | .twinGrant m session base chunk => Sys2Proof.Machine.execTwinGrant m session base chunk s
  | .twinDigest m session base lg digest => Sys2Proof.Machine.execTwinDigest m session base lg digest s
  | .twinDigestTimeout m partition => Sys2Proof.Machine.execTwinDigestTimeout m partition s
  | .mldGroupSet m r => Sys2Proof.Machine.execMldGroupSet m r s
  | .mldGroupQuery m r => Sys2Proof.Machine.execMldGroupQuery m r s
  | .mldCut m r => Sys2Proof.Machine.execMldCut m r s
  | .mldRestore m r => Sys2Proof.Machine.execMldRestore m r s
  | .mldConfig m r => Sys2Proof.Machine.execMldConfig m r s
  | .chkClaim m r => Sys2Proof.Machine.execChkClaim m r s
  | .chkRelease m r => Sys2Proof.Machine.execChkRelease m r s
  | .chkRun m r => Sys2Proof.Machine.execChkRun m r s
  | .mldTimerTrigger m group => Sys2Proof.Machine.execMldTimerTrigger m group s
  | .captureWindowExpiry m group => Sys2Proof.Machine.execCaptureWindowExpiry m group s
  | .hmkPartitionSet m r => Sys2Proof.Machine.execHmkPartitionSet m r s
  | .hmkPartitionTeardown m r => Sys2Proof.Machine.execHmkPartitionTeardown m r s
  | .teardownPhaseDone m partition => Sys2Proof.Machine.execTeardownPhaseDone m partition s
  | .hmkPartitionQuery m r => Sys2Proof.Machine.execHmkPartitionQuery m r s
  | .hmkKeyLoad m r => Sys2Proof.Machine.execHmkKeyLoad m r s
  | .hmkKeyDestroy m r => Sys2Proof.Machine.execHmkKeyDestroy m r s
  | .hmkAttest m r => Sys2Proof.Machine.execHmkAttest m r s
  | .hmkCertRead m r => Sys2Proof.Machine.execHmkCertRead m r s
  | .hmkRollbackCommit m r => Sys2Proof.Machine.execHmkRollbackCommit m r s
  | .getVersion m via => Sys2Proof.Machine.execGetVersion m via s
  | .getCapabilities m via => Sys2Proof.Machine.execGetCapabilities m via s
  | .negotiateAlgorithms m via supported => Sys2Proof.Machine.execNegotiateAlgorithms m via supported s
  | .getDigests m via session => Sys2Proof.Machine.execGetDigests m via session s
  | .getCertificate m via session slot offset len => Sys2Proof.Machine.execGetCertificate m via session slot offset len s
  | .challenge m via session slot nonce => Sys2Proof.Machine.execChallenge m via session slot nonce s
  | .getMeasurements m via session index sign nonce => Sys2Proof.Machine.execGetMeasurements m via session index sign nonce s
  | .keyExchange m via slot exchange => Sys2Proof.Machine.execKeyExchange m via slot exchange s
  | .finish m via session verify => Sys2Proof.Machine.execFinish m via session verify s
  | .heartbeat m via session => Sys2Proof.Machine.execHeartbeat m via session s
  | .keyUpdate m via session op tag => Sys2Proof.Machine.execKeyUpdate m via session op tag s
  | .endSession m via session => Sys2Proof.Machine.execEndSession m via session s
  | .attestDual m via session blocks nonce => Sys2Proof.Machine.execAttestDual m via session blocks nonce s
  | .kekSet m via session kek => Sys2Proof.Machine.execKekSet m via session kek s
  | .ideKmMessage m via session x => Sys2Proof.Machine.execIdeKmMessage m via session x s
  | .lockInterfaceRequest m via session fn => Sys2Proof.Machine.execLockInterfaceRequest m via session fn s
  | .startInterfaceRequest m via session fn => Sys2Proof.Machine.execStartInterfaceRequest m via session fn s
  | .stopInterfaceRequest m via session fn => Sys2Proof.Machine.execStopInterfaceRequest m via session fn s
  | .ideIntegrityFailure m fn nonT => Sys2Proof.Machine.execIdeIntegrityFailure m fn nonT s
  | .pwrSet m r => Sys2Proof.Machine.execPwrSet m r s
  | .pwrQuery m r => Sys2Proof.Machine.execPwrQuery m r s
  | .pwrResume m r => Sys2Proof.Machine.execPwrResume m r s
  | .ctConfig m r => Sys2Proof.Machine.execCtConfig m r s
  | .ctStep m r => Sys2Proof.Machine.execCtStep m r s
  | .ctLeapLoad m r => Sys2Proof.Machine.execCtLeapLoad m r s
  | .aonSettingsSave m r => Sys2Proof.Machine.execAonSettingsSave m r s
  | .aonSettingsRead m r => Sys2Proof.Machine.execAonSettingsRead m r s
  | .otpProgram m r => Sys2Proof.Machine.execOtpProgram m r s
  | .aonLifeRead m r => Sys2Proof.Machine.execAonLifeRead m r s
  | .aonLifeSync m r => Sys2Proof.Machine.execAonLifeSync m r s
  | .pwrTransitionPhaseDone m group => Sys2Proof.Machine.execPwrTransitionPhaseDone m group s
  | .junctionSensorSample m readings => Sys2Proof.Machine.execJunctionSensorSample m readings s
  | .coreCurrentSample m amps => Sys2Proof.Machine.execCoreCurrentSample m amps s
  | .thermtrip m => Sys2Proof.Machine.execThermtrip m s
  | .cadenceEdge m width => Sys2Proof.Machine.execCadenceEdge m width s
  | .cadenceLoss m => Sys2Proof.Machine.execCadenceLoss m s
  | .ptpSourceLoss m => Sys2Proof.Machine.execPtpSourceLoss m s
  | .holdoverBudgetExceeded m => Sys2Proof.Machine.execHoldoverBudgetExceeded m s
  | .leapExpiry m => Sys2Proof.Machine.execLeapExpiry m s
  | .lifeMirrorUpdate m => Sys2Proof.Machine.execLifeMirrorUpdate m s
  | .lifeJournalWrite m failing => Sys2Proof.Machine.execLifeJournalWrite m failing s
  | .correctedError m tier chan => Sys2Proof.Machine.execCorrectedError m tier chan s
  | .uncorrectableError m data at_ => Sys2Proof.Machine.execUncorrectableError m data at_ s
  | .patrolScrubPass m => Sys2Proof.Machine.execPatrolScrubPass m s
  | .viewSweep m group skews => Sys2Proof.Machine.execViewSweep m group skews s
  | .viewReconcileTimeout m group => Sys2Proof.Machine.execViewReconcileTimeout m group s
  | .firmwareWatchdogExpiry m hallmark => Sys2Proof.Machine.execFirmwareWatchdogExpiry m hallmark s
  | .devReset m r => Sys2Proof.Machine.execDevReset m r s
  | .shutdownGraceExpiry m => Sys2Proof.Machine.execShutdownGraceExpiry m s
  | .diagTraining m r => Sys2Proof.Machine.execDiagTraining m r s
  | .diagErrors m r => Sys2Proof.Machine.execDiagErrors m r s
  | .diagViewCheck m r => Sys2Proof.Machine.execDiagViewCheck m r s
  | .diagInject m r => Sys2Proof.Machine.execDiagInject m r s
  | .fwLoad m r => Sys2Proof.Machine.execFwLoad m r s
  | .diagBootLog m r => Sys2Proof.Machine.execDiagBootLog m r s
  | .powerOnReset m => Sys2Proof.Machine.execPowerOnReset m s
  | .pwrgoodFall m => Sys2Proof.Machine.execPwrgoodFall m s
  | .perstNAssert m => Sys2Proof.Machine.execPerstNAssert m s
  | .perstNDeassert m chipId bootSel => Sys2Proof.Machine.execPerstNDeassert m chipId bootSel s
  | .pcieHotReset m => Sys2Proof.Machine.execPcieHotReset m s
  | .pcieLinkDown m => Sys2Proof.Machine.execPcieLinkDown m s
  | .flr m fn => Sys2Proof.Machine.execFlr m fn s
  | .configReady m => Sys2Proof.Machine.execConfigReady m s
  | .bootPhaseEnd m x => Sys2Proof.Machine.execBootPhaseEnd m x s
  | .railFault m rail => Sys2Proof.Machine.execRailFault m rail s
  | .serdesRefLoss m => Sys2Proof.Machine.execSerdesRefLoss m s
  | .serdesRefReturn m => Sys2Proof.Machine.execSerdesRefReturn m s
  | .refclkLoss m => Sys2Proof.Machine.execRefclkLoss m s
  | .xtalStop m => Sys2Proof.Machine.execXtalStop m s
  | .smbClockLowTimeout m => Sys2Proof.Machine.execSmbClockLowTimeout m s
  | .i3cIdleTimeout m => Sys2Proof.Machine.execI3cIdleTimeout m s
  | .spiFlashTimeout m => Sys2Proof.Machine.execSpiFlashTimeout m s
  | .railReturn m rail => Sys2Proof.Machine.execRailReturn m rail s
  | .vaux1v8Loss m => Sys2Proof.Machine.execVaux1v8Loss m s
  | .pcieLinkUp m rate width => Sys2Proof.Machine.execPcieLinkUp m rate width s
  | .xtalRestart m => Sys2Proof.Machine.execXtalRestart m s
  | .doeDiscovery m fn index => Sys2Proof.Machine.execDoeDiscovery m fn index s
  | .rcLocalAckTimeout m qp => Sys2Proof.Machine.execRcLocalAckTimeout m qp s

end Sys2Proof.Machine
end

