-- ==== Sys2Proof/Machine/Registers.lean ====
section
/-! DEFINITION. What BAR0 and BAR4 read as: every register of the chapters as a view of the state (R9, R16, R18, R47, 01, and the
register rules of each unit). No command of the table reads them, but for those that latch (Bar.lean). -/

namespace Sys2Proof.Machine

/-- A block of registers: offsets from its start, each with its bytes. -/
abbrev Regs := List (Nat × Bytes)

/-- Registers of one width in a row. -/
def regRow (off width n : Nat) (f : Nat → Nat) : Regs := (List.range n).map (fun i => (off + width * i, le width (f i)))

/-- Whether a function sees what belongs to a partition (R51). -/
def shows (fn p : Nat) : Bool := fn = 0 || p = fn - 1

/-- The partitions that a function sees. -/
def seen (fn : Nat) : List Nat := (List.range 16).filter (shows fn)

/-- A counter as 64 bits, and as 32 that saturate. -/
def c64 (s : State) (fn : Nat) (c : Ctr) : Bytes := u64 (sat 64 (ctrFor s fn c))
def c32 (s : State) (fn : Nat) (c : Ctr) : Bytes := u32 (sat 32 (ctrFor s fn c))

/-! ### Identity, boot and the event log (R18, R19, R47) -/

/-- BENCH_DEVICE_STATE (R20). -/
def DevState.code : DevState → Nat
  | .booting => 0
  | .operating => 1
  | .safe => 2
  | .frozen => 3

/-- The identity block at 0x0000_0000. -/
def benchRegs (fn : Nat) (s : State) : Regs :=
  let b := s.bench
  let f := fnState s fn
  [(0x00, u32 (benchId s)), (0x04, u32 (benchPlace s fn)), (0x08, u32 b.fwVersion), (0x0C, u32 b.fwFlags)
  , (0x10, u32 (b.bootPhase * 2 ^ 16 + bootPermyriad s)), (0x14, u32 b.bootError), (0x18, u32 b.devState.code)
  , (0x20, u32 (sat 32 f.violations)), (0x24, u32 (sat 32 f.bar2Misses)), (0x28, u32 (opLimit fn * 2 ^ 16 + opsOf s fn))]

/-- The event-log block at 0x0020_0000. -/
def evtRegs (fn : Nat) (s : State) : Regs :=
  let r := (fnState s fn).ring
  [(0x00, u64 r.base), (0x08, u32 r.log2), (0x0C, u32 r.prod), (0x10, u32 r.cons)
  , (0x14, u32 (b2n r.enabled * 4 + b2n r.writeFault * 2 + b2n r.overflow)), (0x18, u32 (sat 32 r.dropped)), (0x1C, u32 r.vector)]

/-- A mailbox as its 4 KiB (R21, R22, R35). -/
def mbxBytes (x : Mailbox) : Bytes :=
  let h := x.hdr
  u32 (ownCol x.own) ++ u32 h.seq ++ u16 h.opcode ++ u16 h.flags ++ u8 h.partition ++ u8 h.rsvd0D ++ u16 h.payloadLen ++ u16 x.status
    ++ u16 x.resultLen ++ u32 x.opHandle ++ u16 h.msixVector ++ u16 h.rsvd1A ++ u32 x.detail ++ u64 h.shadowAddr ++ u64 h.sgAddr
    ++ u32 h.sgCount ++ u32 h.rsvd34 ++ u64 x.ctDone ++ progressBytes x.prog ++ Mem.read x.payload 0 3968

/-! ### The unit-state mirrors at 0x0040_0000 -/

/-- Sessions of a state that a function sees; FREE is chip-wide (R87). -/
def stateCount (s : State) (fn n : Nat) : Nat :=
  if n = 0 then slotsFree s
  else if n = 6 then (s.pln.dir.filter (fun e => e.2.kept && shows fn e.2.partition)).length
  else (s.pln.slots.filter (fun e => e.2.st.code = n && shows fn e.2.partition)).length

/-- 0x0000: the Plinth (R87). -/
def plinthRegs (fn : Nat) (s : State) : Regs :=
  let p := s.pln
  let waits := p.raiseWait.filter (fun w => shows fn w.partition)
  [(0x00, u32 (slotsFree s)), (0x04, u32 (dirFree s)), (0x08, u32 waits.length), (0x0C, c32 s fn .plnRefused)
  , (0x10, u64 s.aon.sessSerial), (0x18, u32 p.batchWait), (0x1C, u32 (p.reserve / 4 * 2 ^ 16 + p.dispatch / 4)), (0x20, u32 p.slotLow)
  , (0x24, u32 p.slotHigh), (0x28, c64 s fn .plnSteps), (0x30, c64 s fn .plnBatches)
  , (0x38, u32 (b2n p.castWindow * 16 + p.castNarrow * 4 + p.castTier))]
    ++ regRow 0x40 4 16 (stateCount s fn)

/-- 0x1000: the Foundry (R124). To a VF an import entry is taken only by its own partition's sessions (R51). -/
def foundryRegs (fn : Nat) (s : State) : Regs :=
  let mine := s.fdy.store.filter (fun e => shows fn e.2.partition)
  [(0x00, u32 (maskOf (mine.filterMap (fun e => e.2.engine)))), (0x04, u32 (mine.filter (fun e => e.2.engine.isNone)).length)
  , (0x08, c64 s fn .fdyDescs), (0x10, c64 s fn .fdyBytes), (0x18, c64 s fn .fdyCasts), (0x20, c64 s fn .fdyRaises)
  , (0x28, u32 (tfind s.fdy.ops (fun f => f.kind = .runAhead && shows fn f.partition)).length), (0x2C, c32 s fn .fdyRunCancels)
  , (0x30, c32 s fn .fdyPaceStalls), (0x34, c32 s fn .fdyRecoveries), (0x38, c32 s fn .fdyNarrowNan)
  , (0x3C, u32 (65536 - (s.fdy.imports.filter (fun e => shows fn e.2.partition)).length)), (0x40, u32 s.fdy.raiseLead), (0x44, u32 s.fdy.ttl), (0x48, u32 s.fdy.pullTo)]

/-- 0x2000: the Pattern tree and the frames (R155). -/
def treeRegs (fn : Nat) (s : State) : Regs :=
  let total (f : Nat → Nat) : Nat := ((seen fn).map f).sum
  [(0x00, u32 (total fun p => (getTree s p).cap)), (0x04, u32 (total fun p => nodesUsed (getTree s p))), (0x08, c64 s fn .ptnLookups)
  , (0x10, c64 s fn .ptnHits), (0x18, c64 s fn .ptnEvictions), (0x20, c32 s fn .ptnDups), (0x24, c32 s fn .ptnSlotsRetired)
  , (0x28, u32 (total fun p => (getTree s p).nodeLow)), (0x2C, u32 (total fun p => (getTree s p).frameLow))
  , (0x30, c32 s fn .frmRefSaturated), (0x34, c32 s fn .frmStale), (0x38, u32 (total fun p => freeCount s (tablePool p)))
  , (0x3C, u32 (total fun p => freeCount s (journalPool p)))]
    ++ regRow 0x100 4 63 (fun n => total fun p => freeCount s { partition := p, tier := n / 21, pclass := 18 + n % 7, enc := n / 7 % 3 })

/-- Tiles that run a layer group. -/
def busyTiles (fn : Nat) (s : State) : Nat :=
  let spans := (s.tile.invs.filter (fun e => e.2.running.isSome && shows fn e.2.partition)).map (fun e => e.2.spanMask)
  maskOf ((spans.flatMap (setBits 16)).flatMap (fun g => (List.range 8).map (8 * g + ·)))

/-- 0x3000: the tiles, the model slots and attention (R189, R190, R215). -/
def tileRegs (fn : Nat) (s : State) : Regs :=
  let enabled := if fn = 0 then tileCount s else 8 * popcount 16 (getPart s (fn - 1)).tileMask
  [(0x00, u32 enabled), (0x08, c64 s fn .tileInvs), (0x10, c32 s fn .tileFaults), (0x14, c32 s fn .tileRowFaults)
  , (0x18, c32 s fn .tileIntSat), (0x1C, c32 s fn .tileScaleClamp), (0x20, c32 s fn .tileIntNan)]
    ++ regRow 0x40 4 4 (fun w => busyTiles fn s / 2 ^ (32 * w) % 2 ^ 32)
    ++ regRow 0x100 4 64 (fun n => if shows fn (getModel s n).partition then modelReg s n (getModel s n) else 0)
    ++ [(0x800, u32 s.tile.attRounds), (0x808, c64 s fn .attRows), (0x810, c64 s fn .attLines), (0x818, c64 s fn .attRounds)
       , (0x820, c32 s fn .attNanRows), (0x824, c32 s fn .attShort), (0x828, c32 s fn .attOver)]

/-- A SHR_GEN entry's two words (R242). -/
def genWord (e : Nat × TableSet) : Nat :=
  e.2.bind * 2 ^ 32 + e.1 * 2 ^ 16 + e.2.partition * 2 ^ 12 + gstateCode e.2.gstate * 2 ^ 8

/-- 0x4000: the text path (R241). -/
def textRegs (fn : Nat) (s : State) : Regs :=
  let gens := s.txt.gens.filter (fun e => shows fn e.2.partition)
  [(0x00, u32 (maskOf (tfind s.txt.lanes (fun j => shows fn j.partition)))), (0x08, c64 s fn .shrBytes), (0x10, c64 s fn .shrTokens)
  , (0x18, c64 s fn .shrReplaced), (0x20, c64 s fn .shrFallback), (0x28, c64 s fn .shrMisses), (0x30, c32 s fn .shrRejected)
  , (0x34, c32 s fn .shrNormSplit), (0x38, c32 s fn .shrUnk), (0x40, c64 s fn .sldTokens), (0x48, c64 s fn .sldBytes)
  , (0x50, c32 s fn .sldReplaced), (0x54, c32 s fn .sldMatches), (0x58, c32 s fn .sldFffd), (0x5C, c32 s fn .sldDrop)]
    ++ regRow 0x100 8 64 (fun n => ((gens[n]?).map genWord).getD 0)

/-- 0x5000: the Armature and the Finisher (R266). -/
def finisherRegs (fn : Nat) (s : State) : Regs :=
  [(0x00, c64 s fn .armMasks), (0x08, c64 s fn .armMisses), (0x10, c32 s fn .armWaits), (0x14, c32 s fn .armResets)
  , (0x18, c64 s fn .finSamples), (0x20, c64 s fn .finGreedy), (0x28, c64 s fn .finProposed), (0x30, c64 s fn .finAccepted)
  , (0x38, c32 s fn .finEscapes), (0x3C, c32 s fn .finExhausted), (0x40, c32 s fn .finNan), (0x44, c32 s fn .finInf)]

/-- 0x6000: the Planisher (R297). -/
def planisherRegs (fn : Nat) (s : State) : Regs :=
  [(0x00, c64 s fn .plaGreen), (0x08, c64 s fn .plaYellow), (0x10, c64 s fn .plaRed), (0x18, c64 s fn .plaDeferred)
  , (0x20, c64 s fn .plaFairHolds), (0x28, c64 s fn .plaCreditHolds), (0x30, c64 s fn .plaExpired), (0x38, c64 s fn .plaStreamStallNs)
  , (0x40, u32 (tfind s.pla.meters (fun x => x.aware && shows fn x.partition)).length)
  , (0x44, u32 (tfind s.pla.classes (fun x => shows fn x.partition)).length)
  , (0x48, u32 (tfind s.pla.meters (fun x => shows fn x.partition)).length)
  , (0x4C, u32 (s.pla.rings.filter (fun e => e.2.faulted && shows fn (e.1 / 1024))).length)]

/-- 0x7000: Touchstone and the Gather unit (R342). -/
def searchRegs (fn : Nat) (s : State) : Regs :=
  let idx := (s.tch.indexes.map (·.2)).filter (fun x => shows fn x.partition)
  [(0x00, u32 (4096 - s.tch.queries.length)), (0x04, u32 idx.length), (0x08, c64 s fn .tchQueries), (0x10, c64 s fn .tchCompared)
  , (0x18, u64 ((idx.map (·.items.length)).sum)), (0x20, c64 s fn .tchDangling), (0x28, c64 s fn .tchWaypoints)
  , (0x30, c64 s fn .tchReclaimed), (0x38, c32 s fn .tchRetired), (0x3C, c32 s fn .tchTimeouts), (0x100, c64 s fn .gthBatches)
  , (0x108, c64 s fn .gthIndices), (0x110, c64 s fn .gthUnique), (0x118, c64 s fn .gthHot), (0x120, c32 s fn .gthEmpty)
  , (0x124, c32 s fn .gthSpills), (0x128, u32 (tfind s.gth.tables (fun x => shows fn x.partition)).length)]

/-- 0x8000: the network (R376). -/
def netRegs (fn : Nat) (s : State) : Regs :=
  regRow 0x00 4 8 (portState s)
    ++ [(0x20, u32 (tfind s.net.qps (fun q => shows fn q.partition)).length), (0x24, u32 (tfind s.net.regions (fun x => shows fn x.partition)).length)
       , (0x28, u32 (tfind s.net.chains (fun c => shows fn c.partition && (c.cstate = .armed || c.cstate = .held))).length)
       , (0x2C, u32 (tfind s.net.ranges (fun x => shows fn x.partition && x.switching)).length), (0x30, c64 s fn .netRxPkts)
       , (0x38, c64 s fn .netTxPkts), (0x40, c64 s fn .netDup), (0x48, c64 s fn .netStale), (0x50, c64 s fn .netAged), (0x58, c64 s fn .netGcm)
       , (0x60, c64 s fn .netRetryNaks), (0x68, c64 s fn .netStalls), (0x70, c64 s fn .netCnpSent), (0x78, c64 s fn .netCnpRecv)
       , (0x80, c32 s fn .netSealFailed), (0x84, c32 s fn .netStageDrops), (0x88, c32 s fn .netRxInvalid), (0x8C, c32 s fn .netRxWindow)
       , (0x90, c32 s fn .netRxOversize), (0x94, c32 s fn .netPtpIgnored)]
    ++ regRow 0x100 4 16 (fun p => if shows fn p then mapEpoch s p else 0)

/-- 0x9000: Swilan and the twin pairs (R402, R403). -/
def swilanRegs (fn : Nat) (s : State) : Regs :=
  regRow 0x00 4 7 (fun n => linkWord (getLink s n)) ++ regRow 0x20 4 7 (fun n => sat 32 (getLink s n).retrains)
    ++ [(0x40, c64 s 0 .swlReplays), (0x48, c64 s 0 .swlTx), (0x50, c64 s 0 .swlRx), (0x58, c64 s 0 .swlCrc), (0x60, c64 s fn .swlForwards)]
    ++ regRow 0x100 4 16 (fun p => if shows fn p then pairWord s p else 0)
    ++ [(0x140, c64 s fn .twinCompared), (0x148, c32 s fn .twinDiverged), (0x14C, c32 s fn .twinUnverified), (0x150, u32 (sat 32
      ((((List.range 16).filter (shows fn)).map (fun p => tgetD s.twn.holdMax p 0)).max?.getD 0)))]

/-- 0xA000: the Mould (R428). -/
def mouldRegs (fn : Nat) (s : State) : Regs :=
  let gs := (s.mld.groups.map (·.2)).filter (fun x => shows fn x.partition)
  let queued := (gs.filter (fun x => x.cstate = .queued)).length
  let busy := (gs.filter (fun x => x.cstate ≠ .idle && x.cstate ≠ .queued)).length
  [(0x00, c64 s fn .mldCuts), (0x08, c64 s fn .mldFails), (0x10, c64 s fn .mldBytes), (0x18, c64 s fn .mldShards)
  , (0x20, u64 s.aon.cutSerial), (0x28, u32 (queued * 2 ^ 16 + busy)), (0x2C, c32 s fn .mldCoalesced), (0x30, c32 s fn .mldSkipped)
  , (0x34, u32 s.mld.units)]

/-- 0xB000: the Hallmark (R457, R458). -/
def hallmarkRegs (fn : Nat) (s : State) : Regs :=
  let h := s.hmk
  [(0x00, u32 (h.counter * 2 ^ 16 + h.svn * 2 ^ 8 + h.revoked * 2 ^ 4 + h.slot)), (0x04, c32 s 0 .hmkSigFails)
  , (0x08, u32 (tfind h.sessions (·.secured)).length), (0x10, u64 h.scrubBytes)]
    ++ regRow 0x100 4 16 (fun p => if shows fn p then hmkPart s p else 0)

/-- 0xC000: power, retention and the electrical status (R485, R486, R527). -/
def powerRegs (s : State) : Regs :=
  let e := s.elec
  regRow 0x00 4 64 (groupWord s)
    ++ [(0x100, u32 (pwrDevice s)), (0x104, u32 (pwrTemp s)), (0x108, u32 (pwrAmps s)), (0x10C, c32 s 0 .pwrTrips), (0x110, c32 s 0 .pwrWaits)
       , (0x114, c32 s 0 .pwrRxDropped), (0x200, u32 (settingsSrc s)), (0x208, u64 (rtcNow s)), (0x210, u64 s.aon.jSeq), (0x218, u64 s.aon.jCt)
       , (0x220, u32 s.aon.retired.length), (0x300, u32 s.aon.railFault)
       , (0x304, u32 (b2n e.rtcValid * 8 + b2n e.xtal * 4 + b2n e.sdref * 2 + b2n e.refclk)), (0x308, u32 (e.bootSel * 8 + e.chipId))
       , (0x30C, u32 (sat 32 e.sdrefLosses))]

/-- 0xD000: errors; a VF reads the first two words alone (R508). The HBM counts begin at 0x40. -/
def errRegs (fn : Nat) (s : State) : Regs :=
  if fn = 0 then [(0x00, (errorRegs s).take 0x30), (0x40, (errorRegs s).drop 0x30)]
  else [(0x00, (errorRegs s).take 8)]

/-! ### Cluster time, the Tally and the Gauge -/

/-- The cluster-time block at 0x0050_0000 (R487). -/
def timeRegs (fn : Nat) (s : State) : Regs :=
  let k := s.clk
  let src := k.source
  [(0x00, u64 s.ct)
  , (0x08, u32 (b2n k.pending.isSome * 2 ^ 10 + b2n k.leapStale * 2 ^ 9 + b2n k.cadLocked * 2 ^ 8 + src * 16
      + (match k.tstate with | .freeRun => 0 | .locked => 1 | .holdover => 2 | .lost => 3)))
  , (0x10, u64 (ofSigned 64 k.offset)), (0x18, u64 (uncertainty s)), (0x20, u32 (ofSigned 32 k.rate)), (0x28, u64 k.ctHold)
  , (0x30, c32 s 0 .ctChatter), (0x34, c32 s 0 .ctGlitch), (0x38, u32 k.period), (0x3C, u32 (ofSigned 32 k.cadOffset))
  , (0x40, c32 s 0 .ctRefused), (0x44, c32 s 0 .ctSteps), (0x48, u32 (ofSigned 16 (taiUtc s s.ct))), (0x50, u32 (utcWords s).1)
  , (0x54, u32 (fnState s fn).utcTime), (0x58, u32 (fnState s fn).utcNs)]

/-- The instances of a ledger on this chip. -/
def ledgerInsts (s : State) (code : Nat) : List Nat :=
  match code with
  | 0x03 => s.frames.pools.map (fun x => poolInst x.id)
  | 0x04 => s.frames.pools.map (fun x => poolInst x.id)
  | 0x05 => tkeys s.pla.classes
  | 0x06 => tkeys s.pla.classes
  | 0x07 => tkeys s.pla.rings
  | 0x09 => List.range 17
  | 0x0B => tkeys s.net.qps
  | 0x0D => List.range 28
  | _ => [0]

/-- The sum of a column over the instances that a function sees. -/
def ledgerSum (fn : Nat) (s : State) (code col : Nat) : Nat :=
  (((ledgerInsts s code).filter (fun i => fn = 0 || instPart s code i = fn - 1)).map (fun i => colAt (getLedger s code i).cols col)).sum

/-- The Tally mirrors at 0x0060_0000 (R314). A VF sees its own partition's sums, postings and saturation; breach, audits and evidence are the
device's (DESIGN CHOICE, log entry 52). -/
def tallyRegs (fn : Nat) (s : State) : Regs :=
  let t := s.tly
  let (audits, auditCt, timeMax) := auditsDone s
  let mine (k : Nat) : Bool := fn = 0 || instPart s (k / 2 ^ 32) (k % 2 ^ 32) = fn - 1
  [(0x00, u32 (b2n t.breach + b2n t.reportOnly * 2 + b2n (t.ledgers.any (fun e => mine e.1 && e.2.sat)) * 4 + s.err.evidence.length * 16))
  , (0x08, u64 audits), (0x10, u64 auditCt), (0x18, if fn = 0 then u64 t.postings else c64 s fn .tlyPostings)
  , (0x20, u32 (sat 32 timeMax)), (0x24, u32 (sat 32 t.overruns))
  , (0x28, u32 (sat 32 t.evidenceLost)), (0x2C, u32 (sat 32 t.swlResets))]
    ++ (List.range 13).flatMap (fun n => regRow (0x100 + 0x40 * n) 8 8 (fun c => sat 64 (ledgerSum fn s (n + 1) c)))

/-- A class snapshot (R299). -/
def classRegs (g : GaugeClass) : Bytes :=
  let w := g.opened
  u64 w.start ++ w.banks.flatMap (fun b => u64 b.count) ++ w.banks.flatMap (fun b => u64 b.overTarget) ++ u32 g.depthNow ++ u32 w.depthMax
    ++ u64 g.lastSeq ++ (takeD 12 0 g.lastPct).flatMap u32 ++ (takeD 3 0 g.lastVerdict).flatMap u8 ++ zeros 1 ++ u32 g.sseq

/-- The Gauge's global registers at 0x0070_0000 (R298): the chip's to PF0, its own partition's share of them to a VF (R51). -/
def gaugeRegs (fn : Nat) (s : State) : Regs :=
  let g := s.gau
  if fn ≠ 0 then
    let x := tgetD g.parts (fn - 1) {}
    [(0x00, u32 g.period), (0x08, c64 s fn .gauReports), (0x10, c64 s fn .gauLate), (0x18, c32 s fn .gauOverwritten), (0x20, u32 x.fdyDepth)
    , (0x24, u32 x.fdyMax), (0x28, u32 x.raiseMax), (0x2C, u32 x.shearWait), (0x30, u32 x.shearMax)
    , (0x40, c64 s fn .gauAbandonedBytes), (0x48, c64 s fn .gauAbandonedFrames)]
  else
  [(0x00, u32 g.period), (0x08, u64 g.reports), (0x10, u64 g.late), (0x18, u32 (sat 32 g.overwritten)), (0x20, u32 g.fdyDepth), (0x24, u32 g.fdyMax)
  , (0x28, u32 g.raiseMax), (0x2C, u32 g.shearWait), (0x30, u32 g.shearMax), (0x40, u64 g.abandonedBytes), (0x48, u64 g.abandonedFrames)]

/-! ### A read -/

/-- Byte `a` of a block; what no register holds reads as zero. -/
def regByte (l : Regs) (a : Nat) : Byte :=
  match l.find? (fun e => decide (e.1 ≤ a) && decide (a < e.1 + e.2.length)) with
  | some e => e.2.getD (a - e.1) 0
  | none => 0

/-- `n` bytes of a block. -/
def regRead (l : Regs) (a n : Nat) : Bytes := (List.range n).map (fun i => regByte l (a + i))

/-- The block of a mirror page. -/
def mirrorRegs (fn page : Nat) (s : State) : Regs :=
  match page with
  | 0x0 => plinthRegs fn s
  | 0x1 => foundryRegs fn s
  | 0x2 => treeRegs fn s
  | 0x3 => tileRegs fn s
  | 0x4 => textRegs fn s
  | 0x5 => finisherRegs fn s
  | 0x6 => planisherRegs fn s
  | 0x7 => searchRegs fn s
  | 0x8 => netRegs fn s
  | 0x9 => swilanRegs fn s
  | 0xA => mouldRegs fn s
  | 0xB => hallmarkRegs fn s
  | 0xC => powerRegs s
  | 0xD => errRegs fn s
  | _ => []

/-- What a read of `n` bytes at offset `a` of a function's BAR0 answers. The high word of CT_NOW, read alone, is the one latched (R487). -/
def bar0Read (fn a n : Nat) (s : State) : Bytes :=
  if a < 0x100000 then regRead (benchRegs fn s) a n
  else if a < 0x200000 then
    (if (a - 0x100000) / 0x1000 < mbxCount fn then
      slice (mbxBytes (getMbx s fn ((a - 0x100000) / 0x1000))) (a % 0x1000) n
    else zeros n)
  else if a < 0x300000 then regRead (evtRegs fn s) (a - 0x200000) n
  else if a < 0x400000 then
    (if a < 0x300800 then slice ((getUnit s ((a - 0x300000) / 0x100)).block fn) (a % 0x100) n else zeros n)
  else if a < 0x500000 then regRead (mirrorRegs fn ((a - 0x400000) / 0x1000) s) (a % 0x1000) n
  else if a < 0x600000 then
    (if a = 0x500004 && n = 4 then u32 (fnState s fn).ctHigh else regRead (timeRegs fn s) (a - 0x500000) n)
  else if a < 0x700000 then regRead (tallyRegs fn s) (a - 0x600000) n
  else if a < 0x708000 then regRead (gaugeRegs fn s) (a - 0x700000) n
  else if a < 0x788000 then
    let c := (a - 0x708000) / 0x80
    (match getGauge s c with
    | some g => if shows fn (getClass s c).partition then slice (classRegs g) ((a - 0x708000) % 0x80) n else zeros n
    | none => zeros n)
  else zeros n

/-- What a read of BAR4 answers: the MSI-X table and, from 0x8000, the pending bits (R16, R32). -/
def bar4Read (fn a n : Nat) (s : State) : Bytes :=
  let f := fnState s fn
  if a < 0x8000 then slice (msixBytes (tgetD f.msix (a / 16) {})) (a % 16) n
  else (List.range n).map (fun i => BitVec.ofNat 8 (maskOf ((f.msixPend.filter (fun v => v / 8 = a - 0x8000 + i)).map (· % 8))))

end Sys2Proof.Machine
end

