-- ==== Sys2Proof/Safety.lean ====
section
/-! DEFINITION. The terms in which claims are stated: memories in canonical form, a command that the device serves, and the states
in which a served command runs and ends. -/

namespace Sys2Proof.Machine

/-- The memories that the state holds are in their canonical form. -/
def State.memOk (s : State) : Prop := Memory.wf s.devMem ∧ Memory.wf s.hostMem

/-- `t` differs from `s` in nothing but what taking and completing a command changes: the mailboxes and the functions' rings, the ledgers and counters,
what leaves the device for the host and over the links, and the boot log (R26 to R32). -/
def Env (s t : State) : Prop :=
  t = { s with
    bench := { s.bench with mbx := t.bench.mbx, fns := t.bench.fns }
    tly := t.tly, ctr := t.ctr, out := t.out, hostMem := t.hostMem, err := { s.err with bootLog := t.err.bootLog }, swl := t.swl }

/-- The state in which a command's body runs: its moment has come, the host has posted it, and the watcher has captured it
(R25, R26). -/
def taken (m : Moment) (r : Req) (s : State) : State := capture r (postIn r (s.at m))

/-- The device serves a mailbox command of opcode `i`: the host reaches the function, the mailbox is the host's, the watcher takes it, it passes
the checks of R29 that bear on every command, and the power group of its engine takes work (R23 to R29, R465). -/
def serves (i : OpInfo) (m : Moment) (r : Req) (s : State) : Bool :=
  match r.src with
  | .mailbox fn n =>
    r.hdr.opcode = i.opcode && hostReach (s.at m) && !fnRefused (s.at m) fn
      && ((getMbx (s.at m) fn n).own = .idle || (getMbx (s.at m) fn n).own = .done)
      && watcherTakes (postIn r (s.at m)) fn n && (precheck i r (taken m r s)).isNone
      && (engineOf i.opcode r).all (groupOpen (taken m r s))
  | _ => false

/-- A served command has ended with OK and a result, its effect having left the state `u` (R30, R395). -/
def ended (i : OpInfo) (r : Req) (result : Bytes) (u : State) (detail : Nat := 0) : State :=
  complete r St.ok detail 0 result false (mirror i.opcode r result u)

/-- A served command waits or has become an operation, its effect having left the state `u` (R26, R395). -/
def goesOn (i : OpInfo) (r : Req) (u : State) : State := mirror i.opcode r [] u

/-- A served command has ended with a failure and no effect (R29). -/
def failed (r : Req) (status detail : Nat) (u : State) : State := complete r status detail 0 [] false u

/-- A served command ends as a body's answer says: it stays pending, or completes with its status, detail and result (R26, R30, R395). -/
def answered (i : OpInfo) (r : Req) (a : Reply) : State :=
  let st := if a.pend || a.status = 0 then mirror i.opcode r a.result a.st else a.st
  if a.pend then st else complete r a.status a.detail 0 a.result false st

/-- A session's journal and records are on this chip: those of a parked session lie with its cast image (R79, R103). -/
def storeHere (s : State) : Held → Bool
  | .active _ => true
  | .parked e => imageChip e = chip s

/-- A request may become an operation: its function has room for one more (R34), and none stands for it yet. -/
def opStarts (s : State) (r : Req) : Bool := opRoom s r.fn && (opOfReq s r).isNone

/-- The Foundry operation that a request begins: its number and the state (R93, R127). -/
def begun (r : Req) (f : Fop) (s : State) : Nat × State :=
  newFop { f with ctStart := s.ct, lead := s.fdy.raiseLead, ttl := s.fdy.ttl, pullTo := s.fdy.pullTo, op := s.bench.nextOp }
    (startOp r 0 2 f.total true [] s).2

/-- What an operation that may refuse leaves: its state, or that of the refusal. -/
def tried (e : Except Nat State) (f : Nat → State) : State := match e with
  | .ok s => s
  | .error n => f n

end Sys2Proof.Machine
end

