-- ==== Sys2Proof/Certificates/Slice0/Obligations.lean ====
section
/-! DEFINITION. The statements for the provers. -/

open Sys2Proof Sys2Proof.Machine

/-- A served NOP echoes its payload when bit 0 of its flags is set; QUERY answers its page; PROGRESS the record of a live handle;
CANCEL of a live operation that can be cancelled marks it CANCELLING and answers outcome 0; EVENT_CFG with enabled 0 disables the
ring; APERTURE_SET with enabled 0 removes the aperture. Each completes with OK and changes nothing else. -/
def Obligations.GenericCommandsAnswer : Prop :=
  (∀ (m : Moment) (r : Req) (s : State), serves opNop m r s = true →
    let u := taken m r s
    r.f 0 1 % 2 = 1 →
    exec (.nop m r) s = .next (ended opNop r (fit r.hdr.payloadLen r.payload) u)) ∧
  (∀ (m : Moment) (r : Req) (s : State) (b : Bytes), serves opQuery m r s = true →
    let u := taken m r s
    queryPage u r.fn (r.f 0 2) = some b →
    exec (.query m r) s = .next (ended opQuery r (b) u)) ∧
  (∀ (m : Moment) (r : Req) (s : State) (n : Nat) (o : LongOp), serves opProgress m r s = true →
    let u := taken m r s
    opByHandle u r.fn (r.f 0 4) = some (n, o) →
    exec (.progress m r) s = .next (ended opProgress r (progressBytes o.prog) u)) ∧
  (∀ (m : Moment) (r : Req) (s : State) (n : Nat) (o : LongOp), serves opCancel m r s = true →
    let u := taken m r s
    opByHandle u r.fn (r.f 0 4) = some (n, o) →
    o.cancelling = false →
    o.canCancel = true →
    exec (.cancel m r) s = .next (ended opCancel r (u32 0) (progressOp n 0xFE o.prog.position o.prog.total (setOp n
      { o with cancelling := true } u)))) ∧
  (∀ (m : Moment) (r : Req) (s : State), serves opEventCfg m r s = true →
    let u := taken m r s
    r.f 9 1 = 0 →
    exec (.eventCfg m r) s = .next (ended opEventCfg r [] (setFn r.fn
      { (fnState u r.fn) with ring := { (fnState u r.fn).ring with enabled := false } } u))) ∧
  (∀ (m : Moment) (r : Req) (s : State), serves opApertureSet m r s = true →
    let u := taken m r s
    (apertureCheck r u).isOk = true →
    r.f 2 1 = 0 →
    exec (.apertureSet m r) s = .next (ended opApertureSet r [] (setFn r.fn
      { (fnState u r.fn) with apertures := tdel (fnState u r.fn).apertures (r.f 0 1) } u)))

/-- The host posts a mailbox that is IDLE or DONE: it becomes POSTED with the function's next post number. It releases one in DONE
to IDLE. Every other write of its own word is discarded and counted and logged as a violation (that a write of IDLE to an IDLE
mailbox is one is the model's choice, log entry 62), and so is a 4-byte write to the header or the payload of a mailbox that the
device has; in IDLE or DONE such a write takes effect, and the progress area ignores every write. A POSTED mailbox that the
watcher may take is captured and its command runs, and one with an undefined opcode completes with BAD_OPCODE. -/
def Obligations.HostWritesOfTheOwnershipWord : Prop :=
  (∀ (m : Moment) (fn mbx : Nat) (s : State),
    let u := s.at m
    mbxExists fn mbx = true →
    hostReach u = true →
    fnRefused u fn = false →
    (getMbx u fn mbx).own = .idle ∨ (getMbx u fn mbx).own = .done →
    exec (.mbxPost m fn mbx) s = .next (setMbx fn mbx
      { (getMbx u fn mbx) with own := .posted, postNo := (fnState u fn).posts, postBoot := u.bench.devState = .booting } (setFn fn
      { (fnState u fn) with posts := (fnState u fn).posts + 1 } u))) ∧
  (∀ (m : Moment) (fn mbx : Nat) (s : State),
    let u := s.at m
    mbxExists fn mbx = true →
    hostReach u = true →
    fnRefused u fn = false →
    (getMbx u fn mbx).own ≠ .idle →
    (getMbx u fn mbx).own ≠ .done →
    exec (.mbxPost m fn mbx) s = .next (violation fn mbx 0 1 u)) ∧
  (∀ (m : Moment) (fn mbx : Nat) (s : State),
    let u := s.at m
    mbxExists fn mbx = true →
    hostReach u = true →
    fnRefused u fn = false →
    (getMbx u fn mbx).own = .done →
    exec (.mbxRelease m fn mbx) s = .next (setMbx fn mbx { (getMbx u fn mbx) with own := .idle } u)) ∧
  (∀ (m : Moment) (fn mbx : Nat) (s : State),
    let u := s.at m
    mbxExists fn mbx = true →
    hostReach u = true →
    fnRefused u fn = false →
    (getMbx u fn mbx).own ≠ .done →
    exec (.mbxRelease m fn mbx) s = .next (violation fn mbx 0 0 u)) ∧
  (∀ (m : Moment) (fn mbx value : Nat) (s : State),
    let u := s.at m
    mbxExists fn mbx = true →
    hostReach u = true →
    fnRefused u fn = false →
    ¬(((getMbx u fn mbx).own = .idle ∨ (getMbx u fn mbx).own = .done) ∧ value = 1) →
    ¬((getMbx u fn mbx).own = .done ∧ value = 0) →
    exec (.mbxOwnInvalid m fn mbx value) s = .next (violation fn mbx 0 value u)) ∧
  (∀ (m : Moment) (fn mbx offset value : Nat) (s : State),
    let u := s.at m
    mbxExists fn mbx = true →
    hostReach u = true →
    fnRefused u fn = false →
    (getMbx u fn mbx).own ≠ .idle →
    (getMbx u fn mbx).own ≠ .done →
    offset < 64 ∨ 128 ≤ offset →
    exec (.mbxLockedWrite m fn mbx offset value) s = .next (violation fn mbx offset (leVal (u32 value)) u)) ∧
  (∀ (m : Moment) (fn mbx offset value : Nat) (s : State),
    let u := s.at m
    mbxExists fn mbx = true →
    hostReach u = true →
    fnRefused u fn = false →
    64 ≤ offset →
    offset < 128 →
    exec (.mbxLockedWrite m fn mbx offset value) s = .next (u)) ∧
  (∀ (m : Moment) (fn mbx offset value : Nat) (s : State),
    let u := s.at m
    mbxExists fn mbx = true →
    hostReach u = true →
    fnRefused u fn = false →
    (getMbx u fn mbx).own = .idle ∨ (getMbx u fn mbx).own = .done →
    offset < 64 →
    exec (.mbxLockedWrite m fn mbx offset value) s = .next (setMbx fn mbx
      { (getMbx u fn mbx) with hdr := headerOf (overlay (headerBytes (getMbx u fn mbx).hdr) offset (u32 value)) } u)) ∧
  (∀ (m : Moment) (fn mbx offset value : Nat) (s : State),
    let u := s.at m
    mbxExists fn mbx = true →
    hostReach u = true →
    fnRefused u fn = false →
    (getMbx u fn mbx).own = .idle ∨ (getMbx u fn mbx).own = .done →
    128 ≤ offset →
    exec (.mbxLockedWrite m fn mbx offset value) s = .next (setMbx fn mbx
      { (getMbx u fn mbx) with payload := Mem.write (getMbx u fn mbx).payload (offset - 128) ((u32 value).take (4096 - offset)) }
      u)) ∧
  (∀ (m : Moment) (fn mbx : Nat) (i : OpInfo) (body : Moment → Req → State → Reply) (s : State),
    let u := s.at m
    mbxExists fn mbx = true →
    watcherTakes u fn mbx = true →
    commandOf (mbxReq u fn mbx).hdr.opcode = some (i, body) →
    exec (.mbxTake m fn mbx) s = .next (settleAll m (commandStep i body m (mbxReq u fn mbx) (capture (mbxReq u fn mbx) u)))) ∧
  (∀ (m : Moment) (fn mbx : Nat) (s : State),
    let u := s.at m
    mbxExists fn mbx = true →
    watcherTakes u fn mbx = true →
    commandOf (mbxReq u fn mbx).hdr.opcode = none →
    exec (.mbxTake m fn mbx) s = .next (complete (mbxReq u fn mbx) St.badOpcode 0 0 [] false (capture (mbxReq u fn mbx) u))) ∧
  (∀ (m : Moment) (fn mbx : Nat) (s : State),
    let u := s.at m
    watcherTakes u fn mbx = false →
    exec (.mbxTake m fn mbx) s = .next (u))

/-- An operation that has not ended within 1 ms is accepted. A progress update rewrites the progress record with the work done. At
the end of its work an operation that is not forwarded ends as its command's chapter says: a cancelled SESSION_LIST with
CANCELLED, an OTP_PROGRAM whose readback is right with its generation, a FW_LOAD with its slot holding the image, or, where the
flash fails, with FLASH_FAILED and the slot invalid. A retained record goes 10 s of ct after the end. -/
def Obligations.LongOperationsAdvanceAndEnd : Prop :=
  (∀ (m : Moment) (op : Nat) (o : LongOp) (s : State),
    let u := s.at m
    getOp u op = some o →
    o.handle = 0 →
    o.orphan = false →
    exec (.longOpAccept m op) s = .next (acceptOp op u)) ∧
  (∀ (m : Moment) (op position : Nat) (o : LongOp) (s : State),
    let u := s.at m
    getOp u op = some o →
    o.handle ≠ 0 →
    position ≤ o.prog.total →
    exec (.progressUpdate m op position) s = .next (progressOp op (stageOf o position).1 position o.prog.total (setOp op
      { o with canCancel := (stageOf o position).2 } u))) ∧
  (∀ (m : Moment) (op : Nat) (ok : Bool) (o : LongOp) (s : State),
    let u := s.at m
    getOp u op = some o →
    u.swl.reqs = [] →
    exec (.longOpEnd m op ok) s = .next (settleAll m (endByKind m op o ok u))) ∧
  (∀ (m : Moment) (op : Nat) (o : LongOp) (s : State),
    let u := s.at m
    getOp u op = some o →
    o.opcode = 0x0E08 →
    o.cancelling = false →
    u.swl.reqs = [] →
    exec (.longOpEnd m op true) s = .next (settleAll m (endOp op St.ok 0 (u8 (o.args.getD 0 0)) (otpStore (o.args.getD 0 0)
      ((o.args.drop 1).map (BitVec.ofNat 8)) true u)))) ∧
  (∀ (m : Moment) (op : Nat) (o : LongOp) (s : State),
    let u := s.at m
    getOp u op = some o →
    o.opcode = 0x0F05 →
    o.cancelling = false →
    u.swl.reqs = [] →
    exec (.longOpEnd m op true) s = .next (settleAll m (endOp op St.ok 0 [] (modErr (fun e =>
      { e with firmware := tset e.firmware (o.args.getD 0 0) ((o.args.drop 1).map (BitVec.ofNat 8)) })
      { u with elec := { u.elec with spiTries := 0 } })))) ∧
  (∀ (m : Moment) (op : Nat) (o : LongOp) (s : State),
    let u := s.at m
    getOp u op = some o →
    o.opcode = 0x0F05 →
    o.cancelling = false →
    u.swl.reqs = [] →
    exec (.longOpEnd m op false) s = .next (settleAll m (endOp op St.flashFailed 0 [] (modErr (fun e =>
      { e with firmware := tdel e.firmware (o.args.getD 0 0) }) { u with elec := { u.elec with spiTries := 0 } })))) ∧
  (∀ (m : Moment) (op : Nat) (ok : Bool) (o : LongOp) (s : State),
    let u := s.at m
    getOp u op = some o →
    o.opcode = 0x0109 →
    o.cancelling = true →
    u.swl.reqs = [] →
    exec (.longOpEnd m op ok) s = .next (settleAll m (endOp op St.cancelled 0 [] u))) ∧
  (∀ (m : Moment) (handle : Nat) (x : Retained) (s : State),
    let u := s.at m
    tget u.bench.retained handle = some x →
    x.ctEnd + 10000000000 ≤ u.ct →
    exec (.progressRetentionExpiry m handle) s = .next
      ({ u with bench := { u.bench with retained := tdel u.bench.retained handle } }))

/-- Unmasking a vector clears its mask and, where its message was pending, sends it. A write of BENCH_EVT_CONS that leaves no more
records than the ring holds sets CONS and then tells of dropped events; any other is ignored and counted as a violation. A BAR2
access inside an aperture over ACTIVE groups reads the partition's bytes or writes them; a read that meets no armed error takes
none away; while a group of its memory is not ACTIVE the access waits; and a miss reads all-ones, or is discarded, and is counted.
A write of 4 or 8 aligned bytes to BAR0 or BAR4 reaches the MSI-X table, a mailbox, the event ring's CONS and STATUS words (STATUS
flags clear where a one is written), or a Check unit; everywhere else it changes nothing. A read of CT_NOW's low word latches its
high word, and a read of CT_UTC_DATE the time and the nanoseconds. A function that is refused gets a refused access, and without a
link no access arrives. -/
def Obligations.HostAccessesOfRegistersAndApertures : Prop :=
  (∀ (m : Moment) (fn vector : Nat) (s : State),
    let u := s.at m
    fn ≤ 16 →
    vector < 2048 →
    hostReach u = true →
    fnRefused u fn = false →
    (fnState u fn).msixPend.contains vector = true →
    exec (.msixUnmask m fn vector) s = .next (emit (.msix fn vector (tgetD (fnState u fn).msix vector {}).addr (tgetD (fnState u
      fn).msix vector {}).data) (setFn fn
      { (fnState u fn) with msix := tset (fnState u fn).msix vector { (tgetD (fnState u fn).msix vector {}) with masked := false }, msixPend := (fnState u fn).msixPend.erase vector }
      u))) ∧
  (∀ (m : Moment) (fn vector : Nat) (s : State),
    let u := s.at m
    fn ≤ 16 →
    vector < 2048 →
    hostReach u = true →
    fnRefused u fn = false →
    (fnState u fn).msixPend.contains vector = false →
    exec (.msixUnmask m fn vector) s = .next (setFn fn
      { (fnState u fn) with msix := tset (fnState u fn).msix vector { (tgetD (fnState u fn).msix vector {}) with masked := false } }
      u)) ∧
  (∀ (m : Moment) (fn value : Nat) (s : State),
    let u := s.at m
    fn ≤ 16 →
    hostReach u = true →
    fnRefused u fn = false →
    EventRing.used { (fnState u fn).ring with cons := value % 2 ^ 32 } ≤ 2 ^ (fnState u fn).ring.log2 →
    exec (.evtConsWrite m fn value) s = .next (tellOverflow fn (setFn fn
      { (fnState u fn) with ring := { (fnState u fn).ring with cons := value % 2 ^ 32 } } u))) ∧
  (∀ (m : Moment) (fn value : Nat) (s : State),
    let u := s.at m
    fn ≤ 16 →
    hostReach u = true →
    fnRefused u fn = false →
    2 ^ (fnState u fn).ring.log2 < EventRing.used { (fnState u fn).ring with cons := value % 2 ^ 32 } →
    exec (.evtConsWrite m fn value) s = .next (violation fn 0 0x200010 value u)) ∧
  (∀ (m : Moment) (fn offset len : Nat) (a : Aperture) (s : State),
    let u := s.at m
    fn ≤ 16 →
    offset + len ≤ bar2Size fn →
    hostReach u = true →
    fnRefused u fn = false →
    apertureOf u fn offset len = some a →
    (accessGroups u (a.access fn offset len none)).find? (fun g => (getGroup u g).state ≠ 3) = none →
    armedLines u (a.access fn offset len none) = [] →
    exec (.bar2Read m fn offset len) s = .next (settleAll m (emit (.bar2 fn (shownPart u a.partition a.tier (a.memOffset + (offset
      - a.barOffset)) len)) u))) ∧
  (∀ (m : Moment) (fn offset len : Nat) (a : Aperture) (s : State),
    let u := s.at m
    fn ≤ 16 →
    offset + len ≤ bar2Size fn →
    hostReach u = true →
    fnRefused u fn = false →
    apertureOf u fn offset len = some a →
    (accessGroups u (a.access fn offset len none)).find? (fun g => (getGroup u g).state ≠ 3) = none →
    exec (.bar2Read m fn offset len) s = .next (settleAll m (barAnswer (a.access fn offset len none) u))) ∧
  (∀ (m : Moment) (fn offset len g : Nat) (a : Aperture) (s : State),
    let u := s.at m
    fn ≤ 16 →
    offset + len ≤ bar2Size fn →
    hostReach u = true →
    fnRefused u fn = false →
    apertureOf u fn offset len = some a →
    (accessGroups u (a.access fn offset len none)).find? (fun g => (getGroup u g).state ≠ 3) = some g →
    exec (.bar2Read m fn offset len) s = .next (settleAll m (powerWait g
      { u with pwr := { u.pwr with waitBar := u.pwr.waitBar ++ [a.access fn offset len none] } }))) ∧
  (∀ (m : Moment) (fn offset len : Nat) (s : State),
    let u := s.at m
    fn ≤ 16 →
    offset + len ≤ bar2Size fn →
    hostReach u = true →
    fnRefused u fn = false →
    apertureOf u fn offset len = none →
    exec (.bar2Read m fn offset len) s = .next (settleAll m (emit (.bar2 fn (List.replicate len 0xFF)) (bar2Miss fn offset 0 u)))) ∧
  (∀ (m : Moment) (fn offset : Nat) (data : Bytes) (a : Aperture) (s : State),
    let u := s.at m
    fn ≤ 16 →
    offset + data.length ≤ bar2Size fn →
    hostReach u = true →
    fnRefused u fn = false →
    apertureOf u fn offset data.length = some a →
    (accessGroups u (a.access fn offset data.length (some data))).find? (fun g => (getGroup u g).state ≠ 3) = none →
    exec (.bar2Write m fn offset data) s = .next (partWrite a.partition a.tier (a.memOffset + (offset - a.barOffset)) data u)) ∧
  (∀ (m : Moment) (fn offset g : Nat) (data : Bytes) (a : Aperture) (s : State),
    let u := s.at m
    fn ≤ 16 →
    offset + data.length ≤ bar2Size fn →
    hostReach u = true →
    fnRefused u fn = false →
    apertureOf u fn offset data.length = some a →
    (accessGroups u (a.access fn offset data.length (some data))).find? (fun g => (getGroup u g).state ≠ 3) = some g →
    exec (.bar2Write m fn offset data) s = .next (powerWait g
      { u with pwr := { u.pwr with waitBar := u.pwr.waitBar ++ [a.access fn offset data.length (some data)] } })) ∧
  (∀ (m : Moment) (fn offset : Nat) (data : Bytes) (s : State),
    let u := s.at m
    fn ≤ 16 →
    offset + data.length ≤ bar2Size fn →
    hostReach u = true →
    fnRefused u fn = false →
    apertureOf u fn offset data.length = none →
    exec (.bar2Write m fn offset data) s = .next (bar2Miss fn offset 1 u)) ∧
  (∀ (m : Moment) (fn offset len value : Nat) (s : State),
    let u := s.at m
    fn ≤ 16 →
    len = 4 ∨ len = 8 →
    offset % len = 0 →
    hostReach u = true →
    fnRefused u fn = false →
    offset < 0x8000 →
    exec (.registerWrite m fn 4 offset len value) s = .next (msixWrite fn offset (le len value) u)) ∧
  (∀ (m : Moment) (fn offset len value : Nat) (s : State),
    let u := s.at m
    fn ≤ 16 →
    len = 4 ∨ len = 8 →
    offset % len = 0 →
    hostReach u = true →
    fnRefused u fn = false →
    0x8000 ≤ offset →
    exec (.registerWrite m fn 4 offset len value) s = .next (u)) ∧
  (∀ (m : Moment) (fn bar offset len value : Nat) (s : State),
    let u := s.at m
    fn ≤ 16 →
    len = 4 ∨ len = 8 →
    offset % len = 0 →
    hostReach u = true →
    fnRefused u fn = false →
    bar ≠ 0 →
    bar ≠ 4 →
    exec (.registerWrite m fn bar offset len value) s = .next (u)) ∧
  (∀ (m : Moment) (fn offset len value : Nat) (s : State),
    let u := s.at m
    fn ≤ 16 →
    len = 4 ∨ len = 8 →
    offset % len = 0 →
    hostReach u = true →
    fnRefused u fn = false →
    0x100000 ≤ offset →
    offset < 0x100000 + mbxCount fn * 0x1000 →
    exec (.registerWrite m fn 0 offset len value) s = .next (mbxRegWrite fn ((offset - 0x100000) / 0x1000) ((offset - 0x100000) %
      0x1000) (le len value) u)) ∧
  (∀ (m : Moment) (fn offset len value : Nat) (s : State),
    let u := s.at m
    fn ≤ 16 →
    len = 4 ∨ len = 8 →
    offset % len = 0 →
    hostReach u = true →
    fnRefused u fn = false →
    0x200000 ≤ offset →
    offset < 0x200020 →
    exec (.registerWrite m fn 0 offset len value) s = .next (evtRegWrite fn (offset - 0x200000) (le len value) u)) ∧
  (∀ (m : Moment) (fn offset len value : Nat) (s : State),
    let u := s.at m
    fn ≤ 16 →
    len = 4 ∨ len = 8 →
    offset % len = 0 →
    hostReach u = true →
    fnRefused u fn = false →
    0x300000 ≤ offset →
    offset < 0x300800 →
    exec (.registerWrite m fn 0 offset len value) s = .next (chkWrite fn ((offset - 0x300000) / 0x100) ((offset - 0x300000) %
      0x100) len value u)) ∧
  (∀ (m : Moment) (fn offset len value : Nat) (s : State),
    let u := s.at m
    fn ≤ 16 →
    len = 4 ∨ len = 8 →
    offset % len = 0 →
    hostReach u = true →
    fnRefused u fn = false →
    offset < 0x100000 ∨ 0x100000 + mbxCount fn * 0x1000 ≤ offset →
    offset < 0x200000 ∨ 0x200020 ≤ offset →
    offset < 0x300000 ∨ 0x300800 ≤ offset →
    exec (.registerWrite m fn 0 offset len value) s = .next (u)) ∧
  (∀ (m : Moment) (fn value : Nat) (s : State),
    let u := s.at m
    fn ≤ 16 →
    hostReach u = true →
    fnRefused u fn = false →
    exec (.registerWrite m fn 0 0x200014 4 value) s = .next (setFn fn
      { (fnState u fn) with ring := { (fnState u fn).ring with writeFault := (fnState u fn).ring.writeFault && !bit (leVal (u32 value)) 1, overflow := (fnState u fn).ring.overflow && !bit (leVal (u32 value)) 0 } }
      u)) ∧
  (∀ (m : Moment) (fn : Nat) (s : State),
    let u := s.at m
    fn ≤ 16 →
    hostReach u = true →
    fnRefused u fn = false →
    exec (.ctNowLowRead m fn) s = .next (emit (.register fn (u.ct % 2 ^ 32)) (setFn fn
      { (fnState u fn) with ctHigh := u.ct / 2 ^ 32 % 2 ^ 32 } u))) ∧
  (∀ (m : Moment) (fn : Nat) (s : State),
    let u := s.at m
    fn ≤ 16 →
    hostReach u = true →
    fnRefused u fn = false →
    exec (.ctUtcDateRead m fn) s = .next (emit (.register fn (utcWords u).1) (setFn fn
      { (fnState u fn) with utcTime := (utcWords u).2.1, utcNs := (utcWords u).2.2 } u))) ∧
  (∀ (m : Moment) (fn vector value offset len bar : Nat) (data : Bytes) (s : State),
  let u := s.at m
  fn ≤ 16 → vector < 2048 → offset + len ≤ bar2Size fn → offset + data.length ≤ bar2Size fn → (len = 4 ∨ len = 8) → offset % len =
    0 →
  (hostReach u = true → fnRefused u fn = true →
  ∀ c ∈ ([.msixUnmask m fn vector, .evtConsWrite m fn value, .bar2Write m fn offset data, .registerWrite m fn bar offset len
    value, .ctNowLowRead m fn, .ctUtcDateRead m fn] : List Instr), exec c s = .next (emit (.refused fn false) u)) ∧
  (hostReach u = false →
  ∀ c ∈ ([.msixUnmask m fn vector, .evtConsWrite m fn value, .bar2Write m fn offset data, .registerWrite m fn bar offset len
    value, .ctNowLowRead m fn, .ctUtcDateRead m fn] : List Instr), exec c s = .next u) ∧
  (hostReach u = true → fnRefused u fn = true → exec (.bar2Read m fn offset len) s = .next (settleAll m (emit (.refused fn false)
    u))))

/-- While the device boots, a management request gets no answer (log entry 46). Otherwise one of an undefined opcode is answered
with BAD_OPCODE, and one of a defined opcode meets the checks of R29 and its engine's power group as a mailbox command does. One
that passes them, changes no mirrored twin partition and does not wait runs its body with PF0's reach and is answered over MCTP
with its header, the status, the detail, ct_done and the first 1,024 bytes of the result (the cut is the model's choice, log entry
62). -/
def Obligations.ManagementRequestsRun : Prop :=
  (∀ (m : Moment) (r : Req) (s : State),
    let u := s.at m
    u.bench.devState = .booting →
    exec (.mctpRequest m r) s = .next (u)) ∧
  (∀ (m : Moment) (r : Req) (s : State),
    let u := s.at m
    u.bench.devState ≠ .booting →
    commandOf r.hdr.opcode = none →
    exec (.mctpRequest m r) s = .next (emit (.mctp r.hdr St.badOpcode 0 0 0 u.ct []) u)) ∧
  (∀ (m : Moment) (r : Req) (i : OpInfo) (body : Moment → Req → State → Reply) (s : State),
    let u := s.at m
    u.bench.devState ≠ .booting →
    commandOf r.hdr.opcode = some (i, body) →
    exec (.mctpRequest m r) s = .next (settleAll m (commandStep i body m { r with src := .mctp } u))) ∧
  (∀ (m : Moment) (r : Req) (i : OpInfo) (body : Moment → Req → State → Reply) (s : State),
    let u := s.at m
    let q : Req := { r with src := .mctp }
    let a := body m q u
    u.bench.devState ≠ .booting →
    commandOf r.hdr.opcode = some (i, body) →
    precheck i q u = none →
    (engineOf i.opcode q).all (groupOpen u) = true →
    a.pend = false →
    lockedPair a.st (twinPart q a.st) = none →
    exec (.mctpRequest m r) s = .next (settleAll m (emit (.mctp r.hdr a.status (a.result.take 1024).length 0 a.detail a.st.ct
      (a.result.take 1024)) a.st)))

/-- A write by its claimant to a unit that is not busy sets POLY and restarts the unit (CHK_CTL), restarts it (CHK_INIT), or
absorbs 8 bytes or 1 (CHK_DATA8, CHK_DATA1); while the unit is busy it only sets OVERLAP, and another function's write changes
nothing. CHK_CLAIM gives a free unit to the caller and restarts it with its POLY, and one that is not free answers UNIT_BUSY.
CHK_RELEASE by the claimant frees a unit that is not busy, and answers UNIT_BUSY while it is. CHK_RUN by the claimant, of device
memory within its partition or of a scatter list that covers its bytes, makes the unit busy as a long operation, restarted first
where INIT is set; another function's answers NOT_PERMITTED. MLD_CONFIG of a mask whose units no function has claimed gives them
to the Mould and frees the other units that no function has claimed; another mask answers UNIT_BUSY. -/
def Obligations.CheckUnitRegistersAndCommands : Prop :=
  (∀ (m : Moment) (fn unit value : Nat) (s : State),
    let u := s.at m
    hostReach u = true →
    fnRefused u fn = false →
    unit < 8 →
    (getUnit u unit).owner = .fn fn →
    (getUnit u unit).busy = 0 →
    exec (.chkCtlWrite m fn unit value) s = .next (setUnit unit ((getUnit u unit).init (value % 4)) u)) ∧
  (∀ (m : Moment) (fn unit value : Nat) (s : State),
    let u := s.at m
    hostReach u = true →
    fnRefused u fn = false →
    unit < 8 →
    (getUnit u unit).owner = .fn fn →
    (getUnit u unit).busy ≠ 0 →
    exec (.chkCtlWrite m fn unit value) s = .next (setUnit unit { (getUnit u unit) with overlap := true } u)) ∧
  (∀ (m : Moment) (fn unit value : Nat) (s : State),
    let u := s.at m
    hostReach u = true →
    fnRefused u fn = false →
    8 ≤ unit ∨ (getUnit u unit).owner ≠ .fn fn →
    exec (.chkCtlWrite m fn unit value) s = .next (u)) ∧
  (∀ (m : Moment) (fn unit value : Nat) (s : State),
    let u := s.at m
    hostReach u = true →
    fnRefused u fn = false →
    unit < 8 →
    (getUnit u unit).owner = .fn fn →
    (getUnit u unit).busy = 0 →
    exec (.chkInit m fn unit value) s = .next (setUnit unit ((getUnit u unit).init (getUnit u unit).poly) u)) ∧
  (∀ (m : Moment) (fn unit value : Nat) (s : State),
    let u := s.at m
    hostReach u = true →
    fnRefused u fn = false →
    unit < 8 →
    (getUnit u unit).owner = .fn fn →
    (getUnit u unit).busy ≠ 0 →
    exec (.chkInit m fn unit value) s = .next (setUnit unit { (getUnit u unit) with overlap := true } u)) ∧
  (∀ (m : Moment) (fn unit value : Nat) (s : State),
    let u := s.at m
    hostReach u = true →
    fnRefused u fn = false →
    8 ≤ unit ∨ (getUnit u unit).owner ≠ .fn fn →
    exec (.chkInit m fn unit value) s = .next (u)) ∧
  (∀ (m : Moment) (fn unit value : Nat) (s : State),
    let u := s.at m
    hostReach u = true →
    fnRefused u fn = false →
    unit < 8 →
    (getUnit u unit).owner = .fn fn →
    (getUnit u unit).busy = 0 →
    exec (.chkData8 m fn unit value) s = .next (setUnit unit ((getUnit u unit).absorb (le 8 value)) u)) ∧
  (∀ (m : Moment) (fn unit value : Nat) (s : State),
    let u := s.at m
    hostReach u = true →
    fnRefused u fn = false →
    unit < 8 →
    (getUnit u unit).owner = .fn fn →
    (getUnit u unit).busy ≠ 0 →
    exec (.chkData8 m fn unit value) s = .next (setUnit unit { (getUnit u unit) with overlap := true } u)) ∧
  (∀ (m : Moment) (fn unit value : Nat) (s : State),
    let u := s.at m
    hostReach u = true →
    fnRefused u fn = false →
    8 ≤ unit ∨ (getUnit u unit).owner ≠ .fn fn →
    exec (.chkData8 m fn unit value) s = .next (u)) ∧
  (∀ (m : Moment) (fn unit value : Nat) (s : State),
    let u := s.at m
    hostReach u = true →
    fnRefused u fn = false →
    unit < 8 →
    (getUnit u unit).owner = .fn fn →
    (getUnit u unit).busy = 0 →
    exec (.chkData1 m fn unit value) s = .next (setUnit unit ((getUnit u unit).absorb (le 1 value)) u)) ∧
  (∀ (m : Moment) (fn unit value : Nat) (s : State),
    let u := s.at m
    hostReach u = true →
    fnRefused u fn = false →
    unit < 8 →
    (getUnit u unit).owner = .fn fn →
    (getUnit u unit).busy ≠ 0 →
    exec (.chkData1 m fn unit value) s = .next (setUnit unit { (getUnit u unit) with overlap := true } u)) ∧
  (∀ (m : Moment) (fn unit value : Nat) (s : State),
    let u := s.at m
    hostReach u = true →
    fnRefused u fn = false →
    8 ≤ unit ∨ (getUnit u unit).owner ≠ .fn fn →
    exec (.chkData1 m fn unit value) s = .next (u)) ∧
  (∀ (m : Moment) (r : Req) (s : State), serves opChkClaim m r s = true →
    let u := taken m r s
    r.f 0 1 < 8 →
    r.f 1 1 < 4 →
    (getUnit u (r.f 0 1)).owner = .free →
    exec (.chkClaim m r) s = .next (ended opChkClaim r [] (setUnit (r.f 0 1) (({ owner := .fn r.fn } : CheckUnit).init (r.f 1 1))
      u))) ∧
  (∀ (m : Moment) (r : Req) (s : State), serves opChkClaim m r s = true →
    let u := taken m r s
    r.f 0 1 < 8 →
    r.f 1 1 < 4 →
    (getUnit u (r.f 0 1)).owner ≠ .free →
    exec (.chkClaim m r) s = .next (failed r St.unitBusy 0 u)) ∧
  (∀ (m : Moment) (r : Req) (s : State), serves opChkRelease m r s = true →
    let u := taken m r s
    r.f 0 1 < 8 →
    (getUnit u (r.f 0 1)).owner = .fn r.fn →
    (getUnit u (r.f 0 1)).busy = 0 →
    exec (.chkRelease m r) s = .next (ended opChkRelease r [] (setUnit (r.f 0 1) {} u))) ∧
  (∀ (m : Moment) (r : Req) (s : State), serves opChkRelease m r s = true →
    let u := taken m r s
    r.f 0 1 < 8 →
    (getUnit u (r.f 0 1)).owner = .fn r.fn →
    (getUnit u (r.f 0 1)).busy ≠ 0 →
    exec (.chkRelease m r) s = .next (failed r St.unitBusy 0 u)) ∧
  (∀ (m : Moment) (r : Req) (s : State), serves opChkRun m r s = true →
    let u := taken m r s
    r.f 0 1 < 8 →
    r.f 2 1 = 1 →
    (getUnit u (r.f 0 1)).owner = .fn r.fn →
    (getUnit u (r.f 0 1)).busy = 0 →
    r.f 3 1 = 1 ∨ r.f 3 1 = 2 →
    r.f 8 8 + r.f 0x10 8 ≤ partBytes u r.part16 (r.f 3 1) →
    opRoom u r.fn = true →
    exec (.chkRun m r) s = .next (goesOn opChkRun r (setUnit (r.f 0 1)
      { (if bit (r.f 1 1) 0 then (getUnit u (r.f 0 1)).init (getUnit u (r.f 0 1)).poly else (getUnit u (r.f 0 1))) with busy := u.bench.nextOp }
      (startOp r 1 1 (r.f 0x10 8) true [r.f 0 1] u).2))) ∧
  (∀ (m : Moment) (r : Req) (s : State) (l : List SgEntry), serves opChkRun m r s = true →
    let u := taken m r s
    r.f 0 1 < 8 →
    r.f 2 1 = 0 →
    (getUnit u (r.f 0 1)).owner = .fn r.fn →
    (getUnit u (r.f 0 1)).busy = 0 →
    carried r = false →
    sgCover r (r.f 0x10 8) u = .ok l →
    opRoom u r.fn = true →
    exec (.chkRun m r) s = .next (goesOn opChkRun r (setUnit (r.f 0 1)
      { (if bit (r.f 1 1) 0 then (getUnit u (r.f 0 1)).init (getUnit u (r.f 0 1)).poly else (getUnit u (r.f 0 1))) with busy := u.bench.nextOp }
      (startOp r 1 1 (r.f 0x10 8) true [r.f 0 1] u).2))) ∧
  (∀ (m : Moment) (r : Req) (s : State), serves opChkRun m r s = true →
    let u := taken m r s
    r.f 0 1 < 8 →
    r.f 2 1 < 2 →
    (getUnit u (r.f 0 1)).owner ≠ .fn r.fn →
    exec (.chkRun m r) s = .next (failed r St.notPermitted 0 u)) ∧
  (∀ (m : Moment) (r : Req) (s : State), serves opMldConfig m r s = true →
    let u := taken m r s
    let v := (List.range 8).foldl (fun t k => if (getUnit u k).claimed then t else setUnit k
      { owner := if bit (r.f 0 1) k then .mould else .free } t) u
    r.f 0 1 ≠ 0 →
    (setBits 8 (r.f 0 1)).any (fun k => (getUnit u k).claimed) = false →
    exec (.mldConfig m r) s = .next (ended opMldConfig r [] (({ v with mld := { v.mld with units := r.f 0 1 } })))) ∧
  (∀ (m : Moment) (r : Req) (s : State), serves opMldConfig m r s = true →
    let u := taken m r s
    r.f 0 1 = 0 ∨ (setBits 8 (r.f 0 1)).any (fun k => (getUnit u k).claimed) = true →
    exec (.mldConfig m r) s = .next (failed r St.unitBusy 0 u))

/-- An admission that passes the checks of R67, that its meters do not colour red, and that finds a free slot, a free index, its
prefix and its frames takes the next serial and answers the session ID, the slot, the colour and the position; its class's burst
goes from FREE to HELD of the CREDIT ledger. -/
def Obligations.SessionsAreAdmitted : Prop :=
  (∀ (m : Moment) (r : Req) (s : State) (slot i node : Nat), serves opSessionAdmit m r s = true →
    let u := taken m r s
    let a := admitOf (fit 0x50 r.payload)
    let c := getClass u a.cls
    let v := refillMeters c u
    let d := getClass v a.cls
    let id := mkId (chip v) v.aon.sessSerial i
    let w := admitPlace m r.part16 id slot (colourOf v c a.pre).colour node a v
    let z := takeSerial (post [⟨Lg.credit, a.cls, [(1, (d.burst : Int)), (0, (d.burst : Int))]⟩] 7 id (countColour d (colourOf v c
      a.pre) (bindGen a.gen 1 (w.toOption.getD u))))
    (admitCheck r.part16 a u).isOk = true →
    (colourOf v c a.pre).colour ≠ 2 →
    pickSlot m 0 v = some slot →
    pickIdx m 1 v.pln.dir dirCount = some i →
    v.aon.sessSerial < 2 ^ 37 →
    (if a.handle = 0 then some 0 else admitNode r.part16 false a v) = some node →
    w.isOk = true →
    exec (.sessionAdmit m r) s = .next (settleAll m (ended opSessionAdmit r (u64 id ++ u16 slot ++ u8 (colourOf v c a.pre).colour
      ++ u8 0 ++ u32 (((getSess z id).map (·.prefixLen)).getD 0)) (z))))

/-- At a step boundary with no earlier change waiting, SESSION_STOP stops a session with HOST_STOP, SESSION_SET writes the
selected fields and re-arms the auto-cast when its condition changed, SESSION_REBIND binds a generation that may be bound, and
SESSION_RETIRE retires the session; SESSION_READ answers the entry, of a parked session the directory entry with detail 1; a
parked session retires and is rebound at once; SESSION_ARM attaches a POSTED chain, behind what was taken for the session before
it. -/
def Obligations.SessionCommandsTakeEffect : Prop :=
  (∀ (m : Moment) (r : Req) (s : State) (x : Session), serves opSessionStop m r s = true →
    let u := taken m r s
    let v := stopSession (r.f 0 8) 8 [] false 0 0 u
    locate r u (r.f 0 8) = .here (.active x) →
    settled u x = true →
    x.waiting.isEmpty = true →
    x.st = .decode ∨ x.st = .prefill →
    getSess u (r.f 0 8) = some x →
    exec (.sessionStop m r) s = .next (settleAll m (ended opSessionStop r (stopResult v (r.f 0 8)) (v)))) ∧
  (∀ (m : Moment) (r : Req) (s : State) (x : Session), serves opSessionRead m r s = true →
    let u := taken m r s
    let v := updateCredit (r.f 0 8) u
    locate r u (r.f 0 8) = .here (.active x) →
    exec (.sessionRead m r) s = .next (ended opSessionRead r (entryBytes ((getSess v (r.f 0 8)).getD x)) (v))) ∧
  (∀ (m : Moment) (r : Req) (s : State) (e : DirEntry), serves opSessionRead m r s = true →
    let u := taken m r s
    locate r u (r.f 0 8) = .here (.parked e) →
    exec (.sessionRead m r) s = .next (ended opSessionRead r (dirBytes e) u 1)) ∧
  (∀ (m : Moment) (r : Req) (s : State) (x : Session), serves opSessionSet m r s = true →
    let u := taken m r s
    let v := modSess (r.f 0 8) (fun _ => setEntry r x) u
    let again : Bool := sflag x.flags Fl.autoCast ≠ sflag (setEntry r x).flags Fl.autoCast || x.castAfter ≠ (setEntry r
      x).castAfter
    locate r u (r.f 0 8) = .here (.active x) →
    settled u x = true →
    x.waiting.isEmpty = true →
    x.st ≠ .faulted →
    x.st ≠ .retiring →
    getSess u (r.f 0 8) = some x →
    (setCheck r x u).isOk = true →
    exec (.sessionSet m r) s = .next (settleAll m (ended opSessionSet r [] (if again then rearmCast (r.f 0 8) v else v)))) ∧
  (∀ (m : Moment) (r : Req) (s : State) (e : DirEntry) (x : Session), serves opSessionSet m r s = true →
    let u := taken m r s
    locate r u (r.f 0 8) = .here (.parked e) →
    imageChip e = chip u →
    (getStore u (r.f 0 8)).image = some x →
    (setCheck r x u).isOk = true →
    exec (.sessionSet m r) s = .next (settleAll m (ended opSessionSet r [] (modDir (r.f 0 8) (fun e =>
      { e with priority := (setEntry r x).priority, flags := e.flags &&& ~~~(BitVec.ofNat 32 Fl.bySet) ||| ((setEntry r x).flags &&& BitVec.ofNat 32 Fl.bySet) })
      (modStore (r.f 0 8) (fun t => { t with image := some (setEntry r x) }) u))))) ∧
  (∀ (m : Moment) (r : Req) (s : State) (x : Session), serves opSessionRebind m r s = true →
    let u := taken m r s
    locate r u (r.f 0 8) = .here (.active x) →
    rebindOpen u x = true →
    x.waiting.isEmpty = true →
    x.st ≠ .faulted →
    x.st ≠ .retiring →
    bindable u (r.f 8 2) x = true →
    exec (.sessionRebind m r) s = .next (settleAll m (ended opSessionRebind r [] (rebindActive x (r.f 8 2) u)))) ∧
  (∀ (m : Moment) (r : Req) (s : State) (e : DirEntry) (x : Session), serves opSessionRebind m r s = true →
    let u := taken m r s
    locate r u (r.f 0 8) = .here (.parked e) →
    e.dstate = .parked →
    (getStore u (r.f 0 8)).image = some x →
    bindable u (r.f 8 2) x = true →
    exec (.sessionRebind m r) s = .next (settleAll m (ended opSessionRebind r [] (rebindParked (r.f 0 8) (r.f 8 2) ((getDir u (r.f
      0 8)).getD e) u)))) ∧
  (∀ (m : Moment) (r : Req) (s : State) (x : Session), serves opSessionRetire m r s = true →
    let u := taken m r s
    locate r u (r.f 0 8) = .here (.active x) →
    x.st ≠ .retiring →
    retireOpen u x = true →
    x.waiting.all isRebind = true →
    exec (.sessionRetire m r) s = .next (settleAll m (ended opSessionRetire r [] (retireActive x u)))) ∧
  (∀ (m : Moment) (r : Req) (s : State) (e : DirEntry), serves opSessionRetire m r s = true →
    let u := taken m r s
    locate r u (r.f 0 8) = .here (.parked e) →
    e.dstate = .parked →
    exec (.sessionRetire m r) s = .next (settleAll m (ended opSessionRetire r [] (retireParked (r.f 0 8) ((getDir u (r.f 0
      8)).getD e) u)))) ∧
  (∀ (m : Moment) (r : Req) (s : State) (x : Session) (i : Nat) (c : Chain), serves opSessionArm m r s = true →
    let u := taken m r s
    let v := disarm x.id u
    locate r u (r.f 0 8) = .here (.active x) →
    holdsBack u x = false →
    laneHas u x.id = false →
    x.st = .decode ∨ x.st = .toolwait ∨ x.st = .parking →
    r.f 8 4 ≠ ones32 →
    chainOf u x.partition (r.f 8 4) = some (i, c) →
    c.cstate = .posted →
    tagArmed (disarm x.id u) x.partition c.tag = false →
    exec (.sessionArm m r) s = .next (settleAll m (ended opSessionArm r [] (modDir x.id (fun e => if e.kept then
      { e with armChain := r.f 8 4, flags := setFlag e.flags Fl.armed true } else e) (modSess x.id (fun x =>
      { x with armChain := r.f 8 4, flags := setFlag x.flags Fl.armed true })
      { v with net := { v.net with chains := tset v.net.chains i { c with cstate := .armed, session := x.id } } }))))) ∧
  (∀ (m : Moment) (r : Req) (s : State) (x : Session), serves opSessionArm m r s = true →
    let u := taken m r s
    locate r u (r.f 0 8) = .here (.active x) →
    holdsBack u x = true ∨ laneHas u x.id = true →
    exec (.sessionArm m r) s = .next (settleAll m (goesOn opSessionArm r (addWaiting x.id r u))))

/-- A short append of a session that takes input runs on a free lane: its bytes are charged to the partition's queue of the lanes,
cut by the Shear, staged in the journal, and a final one is committed. SESSION_APPEND_TOKENS stages its tokens and commits them as
a final intake. A waiting append takes a free lane when its partition's turn comes: the least start tag of the partitions that
have work there. -/
def Obligations.AppendsAreCutAndCommitted : Prop :=
  (∀ (m : Moment) (r : Req) (s : State) (x : Session) (b : Bytes) (a : Shorn), serves opSessionAppend m r s = true →
    let u := taken m r s
    let v := chargeLane x.partition b.length u
    let w := countShorn x b.length a ((stageToks m x.id a.toks a.text v).toOption.getD v)
    r.f 8 1 ≤ 1 →
    r.f 9 1 ≤ 1 →
    r.f 0x0A 1 = 0 ∨ r.f 0x0A 1 = 2 →
    (r.f 8 1 = 1 → r.f 0x0C 4 ≤ 3952) →
    locate r u (r.f 0 8) = .here (.active x) →
    holdsBack u x = false →
    intakeState x.st = true →
    (appendData r u).toOption = some b →
    (List.range 16).any (fun n => !thas u.txt.lanes n) = true →
    laneHas u x.id = false →
    b.length ≤ laneShort →
    getSess v x.id = some x →
    (shear (genImage v x.tableGen) (sflag x.flags Fl.utf8Reject) (r.f 9 1 = 1) (r.f 0x0A 1) (getStore v x.id).text b).toOption =
      some a →
    (r.f 9 1 = 1 → x.length + a.text.staged ≠ 0) →
    (stageToks m x.id a.toks a.text v).isOk = true →
    exec (.sessionAppend m r) s = .next (settleAll m (ended opSessionAppend r (u32 a.toks.length ++ u32 a.replaced ++ u32
      (x.length + a.text.staged)) (if r.f 9 1 = 1 then intakeEnded x.id (commitIntake x.id w) else w)))) ∧
  (∀ (m : Moment) (r : Req) (s : State) (x : Session) (toks : List Nat), serves opSessionAppendTokens m r s = true →
    let u := taken m r s
    r.f 8 1 ≤ 1 →
    r.f 0x0A 1 = 4 ∨ r.f 0x0A 1 = 2 →
    (r.f 8 1 = 1 → r.f 0x0C 4 ≤ 988) →
    locate r u (r.f 0 8) = .here (.active x) →
    holdsBack u x = false →
    laneHas u x.id = false →
    intakeState x.st = true →
    (tokenData r u).toOption = some toks →
    toks.all (fun t => decide (t < (getModel u x.modelSlot).hdr.vocab)) = true →
    (getStore u x.id).text.intakeOpen = false →
    x.length + toks.length ≠ 0 →
    x.length + toks.length ≤ x.maxLength →
    (stageToks m x.id (toks.map (·, r.f 0x0A 1)) { staged := toks.length } u).isOk = true →
    exec (.sessionAppendTokens m r) s = .next (settleAll m (ended opSessionAppendTokens r (u32 (x.length + toks.length))
      (commitIntake x.id ((stageToks m x.id (toks.map (·, r.f 0x0A 1)) { staged := toks.length } u).toOption.getD u))))) ∧
  (∀ (m : Moment) (lane p : Nat) (j : LaneJob) (s : State),
    let u := s.at m
    let w := wakeParts .lane (laneParts u) u
    let v := phaseOp j.op 1 true (dropJob j.op w)
    groupOpen u 0x38 = true →
    pick m 0 ((List.range 16).filter (fun n => !thas u.txt.lanes n)) = some lane →
    nextPartition .lane (laneParts u) w = some p →
    (laneReady u).find? (fun j => j.partition = p) = some j →
    exec (.shearLaneStart m) s = .next (settleAll m (if j.req.f 0x0C 4 ≤ laneShort then answer j.req (runAppend m j.req
      (chargeLane p (j.req.f 0x0C 4) v)) else chargeLane p (j.req.f 0x0C 4)
      { v with txt := { v.txt with lanes := tset v.txt.lanes lane j } })))

/-- SESSION_LIST becomes a long operation over the sessions that it selects. JOURNAL_READ writes the records of its positions
through the scatter list. PLN_CONFIG stores its settings. FIN_SET stores the selected fields of the sampling record, and FIN_READ
reads the record, the grammar's state and stack. GRAMMAR_CHECK answers how far the tokens are allowed. SPIN_DRAW answers one draw.
The auto-cast timer casts a session still in TOOLWAIT, and once a slot is free and R123's limit leaves room, the raise-wait
queue's first entry is raised, or its chain fails. -/
def Obligations.SessionReadsAndSettings : Prop :=
  (∀ (m : Moment) (r : Req) (s : State), serves opSessionList m r s = true →
    let u := taken m r s
    r.f 0 2 < 8192 →
    r.f 2 1 ≤ 63 ∨ r.f 2 1 = 0xFF →
    (sgList r u).isOk = true →
    opRoom u r.fn = true →
    exec (.sessionList m r) s = .next (goesOn opSessionList r ((startOp r 1 3 (listRows r u).length true [] u).2))) ∧
  (∀ (m : Moment) (r : Req) (s : State) (h : Held) (l : List SgEntry), serves opJournalRead m r s = true →
    let u := taken m r s
    let b := (((getStore u (r.f 0 8)).journal.drop (r.f 8 4 - (entryOf u (r.f 0 8) h).prefixLen)).take (r.f 0x0C 4)).flatMap u32
    locate r u (r.f 0 8) = .here h →
    storeHere u h = true →
    (entryOf u (r.f 0 8) h).prefixLen ≤ r.f 8 4 →
    r.f 8 4 + r.f 0x0C 4 ≤ (entryOf u (r.f 0 8) h).length →
    (sgCover r (4 * r.f 0x0C 4) u).toOption = some l →
    (sgWrite l b u).2 = none →
    exec (.journalRead m r) s = .next (ended opJournalRead r [] ((sgWrite l b u).1))) ∧
  (∀ (m : Moment) (r : Req) (s : State), serves opPlnConfig m r s = true →
    let u := taken m r s
    r.f 0 4 ≤ 1000000 →
    8192 ≤ r.f 4 4 →
    r.f 4 4 ≤ 65536 →
    r.f 4 4 % 256 = 0 →
    r.f 8 4 + 1024 ≤ r.f 4 4 →
    r.f 8 4 % 256 = 0 →
    r.f 0x0C 4 = 0 ∨ r.f 0x0C 4 < r.f 0x10 4 →
    r.f 0x14 1 ≤ 2 →
    r.f 0x15 1 ≤ 2 →
    exec (.plnConfig m r) s = .next (settleAll m (ended opPlnConfig r []
      ({ u with pln := { u.pln with batchWait := r.f 0 4, dispatch := r.f 4 4, reserve := r.f 8 4, slotLow := r.f 0x0C 4, slotHigh := r.f 0x10 4, castTier := r.f 0x14 1, castNarrow := r.f 0x15 1, castWindow := bit (r.f 0x16 1) 0 } })))) ∧
  (∀ (m : Moment) (r : Req) (s : State) (x : Session), serves opFinSet m r s = true →
    let u := taken m r s
    locate r u (r.f 0 8) = .here (.active x) →
    settled u x = true →
    x.waiting.isEmpty = true →
    x.st ≠ .faulted →
    x.st ≠ .retiring →
    finSetOk r (Tb.vocab (genImage u x.tableGen)) = true →
    exec (.finSet m r) s = .next (settleAll m (ended opFinSet r [] (modStore (r.f 0 8) (fun t =>
      { t with samp := finSetTo r t.samp }) u)))) ∧
  (∀ (m : Moment) (r : Req) (s : State) (h : Held), serves opFinRead m r s = true →
    let u := taken m r s
    locate r u (r.f 0 8) = .here h →
    storeHere u h = true →
    h.faulted = false →
    exec (.finRead m r) s = .next (ended opFinRead r (sampBytes (getStore u (r.f 0 8)).samp ++ u64 (grammarWord (entryOf u (r.f 0
      8) h)) ++ fit 256 ((getStore u (r.f 0 8)).gstack.flatMap u16)) u)) ∧
  (∀ (m : Moment) (r : Req) (s : State) (x : TableSet), serves opGrammarCheck m r s = true →
    let u := taken m r s
    let g := Gram.of x.image (r.f 2 2)
    let w := walkGrammar g ((List.range (r.f 4 4)).map (fun i => r.f (0x10 + 4 * i) 4)) 0 g.start none
    r.f 4 4 ≤ 988 →
    genServing r u (r.f 0 2) = some x →
    r.f 2 2 < Tb.grammarCount x.image →
    exec (.grammarCheck m r) s = .next (answered opGrammarCheck r
      ({ st := u, status := if (g.set w.2.1).length = 0 && g.escape.isNone then 0x0601 else 0, result := u32 w.1 ++ u32 (w.2.2.getD ones32) ++ u64 (w.2.1.stack.length * 2 ^ 56 + 2 ^ 24 + w.2.1.state) ++ u32 (g.set w.2.1).length }))) ∧
  (∀ (m : Moment) (r : Req) (s : State), serves opSpinDraw m r s = true →
    let u := taken m r s
    r.f 8 4 ≤ 0xFFFFFF →
    r.f 0x0C 4 ≤ 0xFFFFFF →
    r.f 0x10 1 ≤ 2 →
    exec (.spinDraw m r) s = .next (ended opSpinDraw r ((philox (r.f 0 8) (r.f 8 4) (r.f 0x0C 4) (r.f 0x10 1)).flatMap u32 ++ u32
      (spinU (philox (r.f 0 8) (r.f 8 4) (r.f 0x0C 4) (r.f 0x10 1))).toNat) u)) ∧
  (∀ (m : Moment) (id : Nat) (x : Session) (s : State),
    let u := s.at m
    getSess u id = some x →
    x.st = .toolwait →
    x.autoCastCt ≠ 0 →
    x.autoCastCt ≤ u.ct →
    isShadow u id = false →
    exec (.autoCastTimer m id) s = .next (settleAll m (requestCast m false { x with autoCastCt := 0 } (modSess id (fun x =>
      { x with autoCastCt := 0 }) u)))) ∧
  (∀ (m : Moment) (w : RaiseWait) (s : State),
    let u := s.at m
    let v := { u with pln := { u.pln with raiseWait := u.pln.raiseWait.erase w } }
    let a := armedRaise m (raisePart v w.session) w.session v
    nextRaise u = some w →
    mustWait m u = false →
    exec (.raiseWaitDequeue m) s = .next (settleAll m (if a.status = 0 then a.st else chainFail w.session a.status a.st)))

/-- When the Plinth forms batches, no tested session is to be stopped and no shadow's grant comes first, the first session in the
order of R72 whose span has room opens the batch of its model slot, partition and mode; a batch that closes, by a cap or by its
first session's wait, is dispatched with the grants of its items. -/
def Obligations.BatchesAreDispatched : Prop :=
  (∀ (m : Moment) (w : Want) (s : State),
    let u := s.at m
    let t := testAll m u
    let ok := sortBy (fun a b => keyLe (orderKey t.2 a.id) (orderKey t.2 b.id)) ((t.1.filter (fun x => x.credit && x.fair &&
      (x.want.rebuild || !isShadow t.2 x.want.id))).map (·.want))
    let b := batchOf t.2 w.id
    let f := fillBatch t.2 b.1 (ok.filter (fun v => batchOf t.2 v.id = b)) (ok.filter (fun v => v.chunk ≠ 0 && (batchOf t.2
      v.id).1 = b.1 && (batchOf t.2 v.id).2.1 = b.2.1)).length
    batching u = true →
    t.1.all (fun x => (grantStop t.2 x.want).isNone) = true →
    twinWants t.2 t.1 = [] →
    ok.find? (fun w => spanFree t.2 (batchOf t.2 w.id).1) = some w →
    closesNow t.2 w.id f = true →
    (grantItems m t.2.pln.nextInv f.items (countHolds b.1 b.2.1 t.1 t.2)).1 ≠ [] →
    exec (.batchDispatch m) s = .next (settleAll m (dispatch m b f (countHolds b.1 b.2.1 t.1 t.2)))) ∧
  (∀ (m : Moment) (w : Want) (s : State),
    let u := s.at m
    let t := testAll m u
    let ok := sortBy (fun a b => keyLe (orderKey t.2 a.id) (orderKey t.2 b.id)) ((t.1.filter (fun x => x.credit && x.fair &&
      (x.want.rebuild || !isShadow t.2 x.want.id))).map (·.want))
    let b := batchOf t.2 w.id
    let f := fillBatch t.2 b.1 (ok.filter (fun v => batchOf t.2 v.id = b)) (ok.filter (fun v => v.chunk ≠ 0 && (batchOf t.2
      v.id).1 = b.1 && (batchOf t.2 v.id).2.1 = b.2.1)).length
    batching u = true →
    t.1.all (fun x => (grantStop t.2 x.want).isNone) = true →
    twinWants t.2 t.1 = [] →
    ok.find? (fun w => spanFree t.2 (batchOf t.2 w.id).1) = some w →
    closesNow t.2 w.id f = true →
    (grantItems m t.2.pln.nextInv f.items (countHolds b.1 b.2.1 t.1 t.2)).1 ≠ [] →
    exec (.batchWaitExpiry m) s = .next (settleAll m (dispatch m b f (countHolds b.1 b.2.1 t.1 t.2))))

/-- A queued invocation that is first in order takes its context slots when every granule of its span has room, with the model's
per-tile constants and its rows' inputs; the ready resident invocation with the lowest key, its first weights in, runs its layer
group on its span, or raises an image's fault; a layer group that has run for more than 100 ms tears its invocation down; the
decode steps of an invocation that has run every layer group commit in the batch's order, and a prefill chunk ends. -/
def Obligations.InvocationsRunAndCommit : Prop :=
  (∀ (m : Moment) (serial : Nat) (v : Invocation) (s : State),
    let u := s.at m
    let h := (getModel u v.slot).hdr
    tget u.tile.invs serial = some v →
    v.resident = false →
    u.tile.invs.all (fun e => e.1 = serial || e.2.resident || !meetsSpan e.2 v || invLe (serial, v) e) = true →
    (setBits 16 v.spanMask).all (fun g => decide (slotsUsed u g + (getModel u v.slot).hdr.ctxSlots ≤ 4)) = true →
    exec (.invocationResident m serial) s = .next
      ({ u with tile := { u.tile with invs := tset u.tile.invs serial { v with resident := true, consts := fit h.constBytes (Config.tileConstants h.digest h.constBytes), inputs := v.rows.map (fun r => (r.session, rowTokens u r)) } } })) ∧
  (∀ (m : Moment) (tile serial : Nat) (att : List AttIn) (ops : List LayerOp) (v : Invocation) (rest : List (Nat × Invocation)) (s
    : State),
    let u := s.at m
    let w := tileBoundary tile u
    tile < tileCount u →
    tileQueue w tile = (serial, v) :: rest →
    invReady w v = true →
    weightsIn m 0 = true →
    w.tile.invs.all (fun e => e.2.running.isNone || !meetsSpan e.2 v) = true →
    ops.all (fun o => opOk o.op) = true →
    exec (.layerGroupStart m tile att ops none) s = .next (settleAll m (runGroup serial v att ops w))) ∧
  (∀ (m : Moment) (tile serial k : Nat) (att : List AttIn) (ops : List LayerOp) (fault : Option Nat) (v : Invocation) (rest : List
    (Nat × Invocation)) (s : State),
    let u := s.at m
    let w := tileBoundary tile u
    tile < tileCount u →
    tileQueue w tile = (serial, v) :: rest →
    invReady w v = true →
    weightsIn m 0 = true →
    w.tile.invs.all (fun e => e.2.running.isNone || !meetsSpan e.2 v) = true →
    imageFault ops fault = some k →
    exec (.layerGroupStart m tile att ops fault) s = .next (settleAll m (invFault serial k tile w))) ∧
  (∀ (m : Moment) (serial t : Nat) (v : Invocation) (s : State),
    let u := s.at m
    tget u.tile.invs serial = some v →
    v.running = some t →
    t + 100000000 < u.ct →
    exec (.tileWatchdogExpiry m serial) s = .next (settleAll m (invFault serial 6 (((setBits 16 v.spanMask).headD 0) * 8) u))) ∧
  (∀ (m : Moment) (serial : Nat) (rows : List RowIn) (v : Invocation) (r : InvRow) (f : InFlight) (s : State),
    let u := s.at m
    tget u.tile.invs serial = some v →
    v.rows = [r] →
    finishedItem u serial r.session = some (r, f) →
    r.chunk = 0 →
    exec (.stepCommit m serial rows) s = .next (settleAll m (invEmpty serial (itemDone serial r.session (endStep r.session f.base
      f.drafts f.spill ((rows.find? (fun x => x.session = r.session)).getD { session := r.session }) u))))) ∧
  (∀ (m : Moment) (serial : Nat) (rows : List RowIn) (v : Invocation) (s : State),
    let u := s.at m
    tget u.tile.invs serial = some v →
    v.rows.all (fun r => (finishedItem u serial r.session).isSome && r.chunk = 0) = true →
    exec (.stepCommit m serial rows) s = .next (settleAll m (invEmpty serial (v.rows.foldl (fun t r => commitRow serial rows r t)
      u)))) ∧
  (∀ (m : Moment) (serial : Nat) (row : RowIn) (r : InvRow) (f : InFlight) (s : State),
    let u := s.at m
    finishedItem u serial row.session = some (r, f) →
    r.chunk ≠ 0 →
    r.rebuild = false →
    exec (.prefillChunkEnd m serial row) s = .next (settleAll m (itemDone serial row.session (endChunk row.session r f row u))))

/-- At a step boundary at which none of its pages moves, FDY_CAST casts a session of DECODE, TOOLWAIT or STOPPED; FDY_RAISE claims
a parked session for a free slot; FDY_MIGRATE sends a session over a link that is up. Each becomes an operation. FDY_SUBMIT adds
the host's COPY descriptors. FDY_DIR_READ writes directory entries through the scatter list, FDY_CONFIG stores its settings, and
FDY_EXPORT_RELEASE frees an EXPORTED index. -/
def Obligations.FoundryCommandsStart : Prop :=
  (∀ (m : Moment) (r : Req) (s : State) (x : Session), serves opFdyCast m r s = true →
    let u := taken m r s
    let a := begun r
      { kind := .cast, session := r.f 0 8, partition := x.partition, tier := r.f 8 1, narrow := castNarrow u x (r.f 9 1), window := bit (r.f 0x0A 1) 0, range := r.f 0x0C 2, castGen := ((getDir u (r.f 0 8)).map (·.castGen)).getD (getStore u (r.f 0 8)).castGen, pressure := false, total := (castPages u (r.f 0 8) (r.f 8 1)).length }
      u
    1 ≤ r.f 8 1 ∧ r.f 8 1 ≤ 2 →
    r.f 9 1 ≤ 2 →
    locate r u (r.f 0 8) = .here (.active x) →
    x.st = .decode ∨ x.st = .toolwait ∨ x.st = .stopped →
    settled u x = true →
    x.waiting.isEmpty = true →
    moving u x.id = false →
    moveOps u < 4096 →
    opStarts u r = true →
    exec (.fdyCast m r) s = .next (settleAll m (goesOn opFdyCast r (castStart m a.1 x a.2)))) ∧
  (∀ (m : Moment) (r : Req) (s : State) (e : DirEntry) (slot : Nat), serves opFdyRaise m r s = true →
    let u := taken m r s
    let a := begun r { kind := .raise, session := r.f 0 8, partition := e.partition, slot := some slot } u
    r.f 0 8 ≠ 0 →
    r.f 9 1 = 0xFF ∨ r.f 9 1 = chip u →
    bit (r.f 8 1) 0 = false →
    chip u ≤ 7 →
    (fopOf u (r.f 0 8) [.runAhead]).isNone = true →
    getDir u (r.f 0 8) = some e →
    r.reaches e.partition = true →
    e.dstate = .parked →
    genResident u e.tableGen e.partition e.modelSlot = true →
    moveOps u < 4096 →
    pickSlot m 0 u = some slot →
    opStarts u r = true →
    exec (.fdyRaise m r) s = .next (settleAll m (goesOn opFdyRaise r (claimStart a.1 a.2)))) ∧
  (∀ (m : Moment) (r : Req) (s : State) (x : Session), serves opFdyMigrate m r s = true →
    let u := taken m r s
    let a := begun r
      { kind := .migrate, session := r.f 0 8, partition := x.partition, chip := r.f 9 1, total := (movingPages u (r.f 0 8) (r.f 9 1)).length }
      u
    let v := migrateStart x a.1 a.2
    r.f 8 1 = 0 →
    r.f 9 1 ≤ 7 →
    r.f 9 1 ≠ chip u →
    locate r u (r.f 0 8) = .here (.active x) →
    x.st = .admitted ∨ x.st = .prefill ∨ x.st = .decode ∨ x.st = .toolwait ∨ x.st = .stopped →
    lockedPair u x.partition = none →
    armed u x = false →
    settled u x = true →
    x.waiting.isEmpty = true →
    moving u x.id = false →
    moveOps u < 4096 →
    linkUp u (r.f 9 1) = true →
    opStarts u r = true →
    exec (.fdyMigrate m r) s = .next (settleAll m (goesOn opFdyMigrate r (if (movingPages v (r.f 0 8) (r.f 9 1)).isEmpty then
      migrateAsk a.1 v else v)))) ∧
  (∀ (m : Moment) (r : Req) (s : State) (l : List SgEntry), serves opFdyDirRead m r s = true →
    let u := taken m r s
    let b := dirRecords r (r.f 0 4) (r.f 4 4) u
    r.f 0 4 + r.f 4 4 ≤ dirCount →
    (sgCover r (128 * r.f 4 4) u).toOption = some l →
    (sgWrite l b u).2 = none →
    exec (.fdyDirRead m r) s = .next (ended opFdyDirRead r [] ((sgWrite l b u).1))) ∧
  (∀ (m : Moment) (r : Req) (s : State), serves opFdyConfig m r s = true →
    let u := taken m r s
    1 ≤ r.f 0 1 →
    r.f 0 1 ≤ 16 →
    1000000 ≤ r.f 4 4 →
    r.f 4 4 ≤ 1000000000 →
    50000 ≤ r.f 8 4 →
    r.f 8 4 ≤ 100000000 →
    exec (.fdyConfig m r) s = .next (ended opFdyConfig r []
      ({ u with fdy := { u.fdy with raiseLead := r.f 0 1, ttl := r.f 4 4, pullTo := r.f 8 4 } }))) ∧
  (∀ (m : Moment) (r : Req) (s : State) (b : Bytes), serves opFdySubmit m r s = true →
    let u := taken m r s
    let ds := (List.range (r.f 4 4)).map (fun i => slice b (64 * i) 64)
    let l := ds.zipIdx.map (fun x => descOfBytes u (r.f 0 1) x.2 x.1)
    let k := newFop
      { kind := .submit, op := u.bench.nextOp, session := 0, partition := r.f 0 1, ctStart := u.ct, total := (l.map (·.length)).sum }
      (startOp r 0 1 (l.map (·.length)).sum true [] u).2
    (partGate opFdySubmit r (r.f 0 1) u).isOk = true →
    (inData r (64 * r.f 4 4) u).toOption = some b →
    ds.all (copyOk u (r.f 0 1)) = true →
    r.f 4 4 ≠ 0 →
    opRoom u r.fn = true →
    exec (.fdySubmit m r) s = .next (goesOn opFdySubmit r (addTodo k.1 l k.2))) ∧
  (∀ (m : Moment) (r : Req) (s : State) (e : DirEntry), serves opFdyExportRelease m r s = true →
    let u := taken m r s
    getDir u (r.f 0 8) = some e →
    r.reaches e.partition = true →
    e.dstate = .exported →
    exec (.fdyExportRelease m r) s = .next (ended opFdyExportRelease r [] (freeDir (r.f 0 8) u)))

/-- A free move engine takes the next descriptor by class and partition; a descriptor that ran leaves the store and its operation
advances, or fails; a pull that had no response in time fails with RANGE_GONE; a run-ahead that was not promoted in time is
cancelled with cause 1. -/
def Obligations.DescriptorsAndTimersOfTheFoundry : Prop :=
  (∀ (m : Moment) (engine n : Nat) (d : Desc) (s : State),
    let u := s.at m
    let low := u.fdy.store.any (fun e => mayIssue u e.1 e.2 && decide (3 ≤ e.2.cls))
    let v := post [⟨Lg.descriptor, 0, [(1, -1), (0, 1), (2, 1), (3, (d.length : Int)), (4, 1)]⟩] 2 d.session u
    let x :=
      { v with fdy := { v.fdy with store := tset v.fdy.store n { d with engine := some engine, ctIssue := v.ct }, lastPart := tset v.fdy.lastPart d.cls d.partition, sinceLow := if 3 ≤ d.cls || !low then 0 else v.fdy.sinceLow + 1 } }
    let w := pumpAll (if d.kind = .imageRead then fopPhase d.fop 2 true x else x)
    engine < 16 →
    groupOpen u 0x37 = true →
    u.fdy.store.any (fun e => e.2.engine = some engine) = false →
    nextDesc u = some (n, d) →
    exec (.descriptorIssue m engine) s = .next (settleAll m (tried (issueIo n { d with engine := some engine, ctIssue := w.ct } w)
      (fun st => failDesc n st w)))) ∧
  (∀ (m : Moment) (n : Nat) (d : Desc) (b : Bytes) (s : State),
    let u := s.at m
    tget u.fdy.store n = some d →
    d.engine.isSome = true →
    (getFop u d.fop).any (fopCancelling u) = false →
    (descBytes u n d).map Except.toOption = some (some b) →
    (d.kind = .copy && d.data.isNone) = false →
    exec (.descriptorComplete m n .ok) s = .next (settleAll m (finishDesc m n d b u))) ∧
  (∀ (m : Moment) (n : Nat) (d : Desc) (b : Bytes) (s : State),
    let u := s.at m
    tget u.fdy.store n = some d →
    d.engine.isSome = true →
    (getFop u d.fop).any (fopCancelling u) = false →
    (descBytes u n d).map Except.toOption = some (some b) →
    (d.kind = .copy && d.data.isNone) = true →
    exec (.descriptorComplete m n .ok) s = .next (settleAll m (tried ((sourceIn n d b (dropMsgs (.pull n) u)).map (fun t => if
      leaves t d && d.dstTier = 3 then t else finishDesc m n d (((tget t.fdy.store n).bind (·.data)).getD b) t)) (fun st =>
      failDesc n st u)))) ∧
  (∀ (m : Moment) (n st : Nat) (d : Desc) (s : State),
    let u := s.at m
    tget u.fdy.store n = some d →
    d.engine.isSome = true →
    (getFop u d.fop).any (fopCancelling u) = false →
    exec (.descriptorComplete m n (.failed st)) s = .next (settleAll m (failDesc n st u))) ∧
  (∀ (m : Moment) (fop : Nat) (f : Fop) (s : State),
    let u := s.at m
    getFop u fop = some f →
    f.kind = .runAhead →
    f.ctStart + f.ttl ≤ u.ct →
    u.pln.raiseWait.any (fun w => w.fop = fop) = false →
    exec (.runaheadTtlExpiry m fop) s = .next (cancelRunAhead fop 1 u)) ∧
  (∀ (m : Moment) (n : Nat) (d : Desc) (s : State),
    let u := s.at m
    tget u.fdy.store n = some d →
    d.engine.isSome = true →
    d.srcTier = 3 →
    d.ctIssue + ((getFop u d.fop).map (·.pullTo)).getD u.fdy.pullTo ≤ u.ct →
    (msgOf u (.pull n)).any (fun x => x.2.2.done) = false →
    exec (.pullTimeoutExpiry m n) s = .next (settleAll m (failDesc n St.rangeGone u)))

/-- An inbound migration for which the chip lacks nothing is placed and confirmed on VC1; the source's confirmation completes it
at the target, and the target's confirmation completes the migration at the source; an import that is not refused is placed,
entered in the import table and acknowledged; the retirement of an exported session frees its index. -/
def Obligations.SessionsMoveBetweenChips : Prop :=
  (∀ (m : Moment) (link tag : Nat) (x : MigrateIn) (s : State),
    let u := s.at m
    let v := swlGot link 2 (x.pages.map (fun e => e.2.length)).sum (swlGot link 0 0 u)
    let a := arrive m .migratingIn x.entry x.store (getLink v link).peerChip x.keys x.pages v
    let b := a.toOption.getD v
    let k := newFop
      { kind := .migrate, session := x.entry.id, partition := x.entry.partition, ctStart := v.ct, inbound := true, tag := tag, chip := (getLink v link).peerChip, slot := slotOf b x.entry.id, phase := 3 }
      (bindGen x.entry.tableGen 1 b)
    v.bench.devState ≠ .frozen →
    v.err.shutdown.isNone = true →
    getSess v x.entry.id = none →
    lacks v x.entry (some x.modelDigest) = 0 →
    a.isOk = true →
    exec (.migrateArrive m link tag x) s = .next (settleAll m (sendSwl (.swilan link 1 5 tag [0, k.1, (slotOf k.2 x.entry.id).getD
      0] []) k.2))) ∧
  (∀ (m : Moment) (fop slot status : Nat) (f : Fop) (s : State),
    let u := s.at m
    let v := swlGot (linkTo u f.chip) 1 0 u
    getFop u fop = some f →
    f.kind = .migrate →
    f.inbound = true →
    getFop v fop = some f →
    exec (.migrateConfirm m fop true slot status) s = .next (settleAll m (arrivalDone fop v))) ∧
  (∀ (m : Moment) (fop slot status : Nat) (f : Fop) (x : Session) (s : State),
    let u := s.at m
    let v := swlGot (linkTo u f.chip) 1 0 u
    getFop u fop = some f →
    f.kind = .migrate →
    f.inbound = false →
    getFop v fop = some f →
    getSess v f.session = some x →
    exec (.migrateConfirm m fop true slot status) s = .next (settleAll m (forwardWaiting f.chip x.waiting (migrateDone fop slot
      v)))) ∧
  (∀ (m : Moment) (x : ExportIn) (s : State),
    let u := s.at m
    let a := (arrive m x.entry.st x.entry { x.store with blocks := [], blockChips := [], recFrame := 0, recChip := none } (chip u)
      [] x.pages u).bind (arriveJournal m x.entry)
    let v := a.toOption.getD u
    let d : DirEntry :=
      { id := x.entry.id, dstate := .active, partition := x.entry.partition, modelSlot := x.entry.modelSlot, cls := x.entry.cls, flags := x.entry.flags, tableGen := x.entry.tableGen, length := x.entry.length, exportPeer := x.peer, activeChip := chip v, activeSlot := (slotOf v x.entry.id).getD 0 }
    let k := (freeFrom (fun i => thas v.fdy.imports i) 65536 (v.fdy.imports.length + 1) 0).getD 0
    importRefused u x = 0 →
    a.isOk = true →
    exec (.exportCommit m x) s = .next (settleAll m (emitPkt { qp := x.qp, opcode := 0xE2, nak := 0, status := 0 } (rearmCast
      x.entry.id (updateCredit x.entry.id (modSess x.entry.id (fun y =>
      { y with deadline := if x.entry.st = .decode then max x.entry.deadline u.ct else x.entry.deadline }) (creditIn x.entry.cls
      x.entry.credit x.entry.id (bindGen x.entry.tableGen 1
      { v with fdy := { v.fdy with imports := tset v.fdy.imports k d } })))))))) ∧
  (∀ (m : Moment) (session peer : Nat) (e : DirEntry) (s : State),
    let u := s.at m
    dirAt u session = some e →
    e.dstate = .exported →
    e.exportPeer = peer →
    exec (.exportRetired m session peer) s = .next (settleAll m (freeDir session u)))

/-- PTN_PUBLISH turns the blocks of a session up to the one named into nodes below the session's own path and answers the deepest
node's handle, its depth and the counts; PTN_MATCH answers the deepest published node of a token sequence and its depth;
PTN_DELETE deletes a node with its subtree, PTN_PIN sets PIN, PTN_READ reads the node; PTN_PURGE and PTN_CONFIG become operations;
while a watermark is breached, leaves are evicted. -/
def Obligations.PatternTreeCommands : Prop :=
  (∀ (m : Moment) (r : Req) (s : State) (x : Session), serves opPtnPublish m r s = true →
    let u := taken m r s
    let a := (pubStart u (r.f 0 8) x).getD { node := 0, depth := 0, key := [] }
    let w := publishBlocks m (r.f 0 8) x (r.f 0x0C 1 = 1) ((List.range (r.f 8 4 - x.prefixLen / 256)).map (· + x.prefixLen / 256))
      a u
    r.f 0x0C 1 ≤ 1 →
    locate r u (r.f 0 8) = .here (.active x) →
    x.st = .prefill ∨ x.st = .decode ∨ x.st = .toolwait ∨ x.st = .stopped →
    256 * r.f 8 4 ≤ x.length →
    256 * r.f 8 4 ≤ x.prefillPos →
    (pubStart u (r.f 0 8) x).isSome = true →
    w.1 = 0 →
    exec (.ptnPublish m r) s = .next (ended opPtnPublish r (u64 (if w.2.1.node = 0 then 0 else handleOf w.2.2 x.partition
      w.2.1.node) ++ u32 w.2.1.depth ++ u32 w.2.1.fresh ++ u32 w.2.1.dups) (w.2.2))) ∧
  (∀ (m : Moment) (r : Req) (s : State), serves opPtnMatch m r s = true →
    let u := taken m r s
    let w := matchPath r.part16 (r.f 4 4 / 256) (rootKey u r.part16 (r.f 0 1) (r.f 1 1 = 1)) (u32s (r.f 4 4) (r.payload.drop
      0x10)) [] u
    let v := touchNodes r.part16 w.1 w.2
    r.f 0 1 ≤ 63 →
    r.f 1 1 ≤ 1 →
    r.f 2 1 = 0 →
    r.f 4 4 ≤ 988 →
    modelOpen u (r.f 0 1) r.part16 = true →
    exec (.ptnMatch m r) s = .next (ended opPtnMatch r (u64 ((w.1.getLast?.map (handleOf v r.part16)).getD 0) ++ u32 w.1.length)
      (v))) ∧
  (∀ (m : Moment) (r : Req) (s : State) (b : Bytes), serves opPtnMatch m r s = true →
    let u := taken m r s
    let w := matchPath r.part16 (r.f 4 4 / 256) (rootKey u r.part16 (r.f 0 1) (r.f 1 1 = 1)) (u32s (r.f 4 4) b) [] u
    let v := touchNodes r.part16 w.1 w.2
    r.f 0 1 ≤ 63 →
    r.f 1 1 ≤ 1 →
    r.f 2 1 = 1 →
    r.f 4 4 ≤ 1048576 →
    modelOpen u (r.f 0 1) r.part16 = true →
    (inData r (4 * r.f 4 4) u).toOption = some b →
    exec (.ptnMatch m r) s = .next (ended opPtnMatch r (u64 ((w.1.getLast?.map (handleOf v r.part16)).getD 0) ++ u32 w.1.length)
      (v))) ∧
  (∀ (m : Moment) (r : Req) (s : State) (i : Nat), serves opPtnDelete m r s = true →
    let u := taken m r s
    let w := deleteNode (r.f 0 8 / 2 ^ 60) i u
    r.reaches (r.f 0 8 / 2 ^ 60) = true →
    handleNode u (r.f 0 8 / 2 ^ 60) (r.f 0 8) = some i →
    exec (.ptnDelete m r) s = .next (ended opPtnDelete r (u32 w.1) (w.2))) ∧
  (∀ (m : Moment) (r : Req) (s : State) (i : Nat), serves opPtnPin m r s = true →
    let u := taken m r s
    r.f 8 1 ≤ 1 →
    r.reaches (r.f 0 8 / 2 ^ 60) = true →
    handleNode u (r.f 0 8 / 2 ^ 60) (r.f 0 8) = some i →
    exec (.ptnPin m r) s = .next (ended opPtnPin r [] (setNode (r.f 0 8 / 2 ^ 60) i
      { (getNode u (r.f 0 8 / 2 ^ 60) i) with pin := r.f 8 1 = 1 } u))) ∧
  (∀ (m : Moment) (r : Req) (s : State) (i : Nat), serves opPtnRead m r s = true →
    let u := taken m r s
    r.reaches (r.f 0 8 / 2 ^ 60) = true →
    handleNode u (r.f 0 8 / 2 ^ 60) (r.f 0 8) = some i →
    exec (.ptnRead m r) s = .next (ended opPtnRead r (nodeBytes u (getNode u (r.f 0 8 / 2 ^ 60) i) ++ (getNode u (r.f 0 8 / 2 ^
      60) i).pages.flatMap (fun e => u64 e.toNat)) u)) ∧
  (∀ (m : Moment) (r : Req) (s : State), serves opPtnPurge m r s = true →
    let u := taken m r s
    let w := purgeNodes r.part16 (if r.f 0 1 = 0xFF then none else some (r.f 0 1)) (startOp r 0 0 0 false [] u).2
    r.f 0 1 ≤ 63 ∨ r.f 0 1 = 0xFF →
    opRoom u r.fn = true →
    exec (.ptnPurge m r) s = .next (goesOn opPtnPurge r (setArgs u.bench.nextOp [w.1] w.2))) ∧
  (∀ (m : Moment) (r : Req) (s : State), serves opPtnConfig m r s = true →
    let u := taken m r s
    (ptnConfigCheck r u).isOk = true →
    opRoom u r.fn = true →
    exec (.ptnConfig m r) s = .next (goesOn opPtnConfig r ((startOp r 0 1 (64 * r.f 4 4) true [] u).2))) ∧
  (∀ (m : Moment) (p : Nat) (s : State),
    let u := s.at m
    treeLow u p = true →
    exec (.ptnEviction m p) s = .next (evict p (if freeNodeCount (getTree u p) < (getTree u p).nodeLow then 0 else 1) (fun s =>
      treeLow s p) u))

/-- PAGE_POOL_CONFIG shrinks a pool to no fewer frames than are in use, or carves what it lacks from the partition's memory, and
the change is posted; PAGE_TABLE_READ answers entries of the live tables, and of a cast image with detail 1. -/
def Obligations.PagePoolsAndPageTables : Prop :=
  (∀ (m : Moment) (r : Req) (s : State) (id : PoolId), serves opPagePoolConfig m r s = true →
    let u := taken m r s
    let x := (getPool u id).getD { id, size := 0 }
    (partGate opPagePoolConfig r (r.f 0 1) u).isOk = true →
    poolOf r = some id →
    usedFrames u id ≤ r.f 4 4 →
    r.f 4 4 ≤ x.size →
    exec (.pagePoolConfig m r) s = .next (ended opPagePoolConfig r [] (putPool
      { x with size := r.f 4 4, extents := shrinkExtents u x (r.f 4 4) } x.size u))) ∧
  (∀ (m : Moment) (r : Req) (s : State) (id : PoolId) (more : List (Nat × Nat)), serves opPagePoolConfig m r s = true →
    let u := taken m r s
    let x := (getPool u id).getD { id, size := 0 }
    (partGate opPagePoolConfig r (r.f 0 1) u).isOk = true →
    poolOf r = some id →
    usedFrames u id ≤ r.f 4 4 →
    x.size < r.f 4 4 →
    carvePool u id (r.f 4 4 - x.size) = some more →
    exec (.pagePoolConfig m r) s = .next (ended opPagePoolConfig r [] (putPool
      { x with size := r.f 4 4, extents := x.extents ++ more } x.size u))) ∧
  (∀ (m : Moment) (r : Req) (s : State) (x : Session), serves opPageTableRead m r s = true →
    let u := taken m r s
    r.f 0x0C 2 ≠ 0 →
    r.f 0x0C 2 ≤ 480 →
    r.f 0x0A 2 + r.f 0x0C 2 ≤ 4096 →
    locate r u (r.f 0 8) = .here (.active x) →
    x.st ≠ .faulted →
    r.f 8 2 < (getStore u (r.f 0 8)).pages.lgCount →
    exec (.pageTableRead m r) s = .next (ended opPageTableRead r ((List.range (r.f 0x0C 2)).flatMap (fun k => u64 (getPte u (r.f 0
      8) (r.f 8 2) (r.f 0x0A 2 + k)).toNat)) u)) ∧
  (∀ (m : Moment) (r : Req) (s : State) (e : DirEntry), serves opPageTableRead m r s = true →
    let u := taken m r s
    r.f 0x0C 2 ≠ 0 →
    r.f 0x0C 2 ≤ 480 →
    r.f 0x0A 2 + r.f 0x0C 2 ≤ 4096 →
    locate r u (r.f 0 8) = .here (.parked e) →
    imageChip e = chip u →
    r.f 8 2 < (getStore u (r.f 0 8)).pages.lgCount →
    exec (.pageTableRead m r) s = .next (ended opPageTableRead r ((List.range (r.f 0x0C 2)).flatMap (fun k => u64 (getPte u (r.f 0
      8) (r.f 8 2) (r.f 0x0A 2 + k)).toNat)) u 1))

/-- MODEL_LOAD of an image whose fields pass the checks of R186 fails at the first byte at which its command stream fails the
decode (which the model leaves open), else allocates its weight objects and becomes an operation with the slot LOADING; a verified
copy makes the slot READY and answers digest, page class, layer groups and tier bytes; MODEL_UNLOAD purges the slot's nodes and
its end empties the slot; MODEL_QUERY reads the slot; MODEL_PLACE takes a new place; ATT_CONFIG sets the rounds per layer. -/
def Obligations.ModelsAreLoadedAndPlaced : Prop :=
  (∀ (m : Moment) (r : Req) (s : State) (img : Bytes), serves opModelLoad m r s = true →
    let u := taken m r s
    let y : ModelSlot :=
      { mstate := .loading, partition := r.f 1 1, spanMask := r.f 4 2, hdr := Md.hdr img, hdrBytes := fit 256 img, att := Md.att img, image := img }
    let w := placeObjs (r.f 0 1) (r.f 1 1) (r.f 2 1) (Md.objs img) (setModel (r.f 0 1) y u)
    let v := (startOp r 1 1 (r.f 8 8) true [r.f 0 1] (w.getD u)).2
    r.f 0 1 ≤ 63 →
    r.f 2 1 ≤ 2 ∧ spanExists u (r.f 4 2) = true →
    (partGate opModelLoad r (r.f 1 1) u).isOk = true →
    (getModel u (r.f 0 1)).mstate = .empty →
    (inData r (r.f 8 8) u).toOption = some img →
    (Md.headerChecks img (r.f 8 8) ++ Md.objChecks img ++ Md.attChecks img).all (·.1) = true →
    Md.pageContent (Md.hdr img) ≤ 16777216 →
    r.f 4 2 ≠ 0 →
    (setBits 16 (r.f 4 2)).all (fun g => bit (getPart u (r.f 1 1)).tileMask g) = true →
    (Md.hdr img).minSpan ≤ 8 * popcount 16 (r.f 4 2) →
    (getPart u (r.f 1 1)).signedImages = false ∨ (Md.hdr img).sigLen ≠ 0 →
    w.isSome = true →
    opRoom u r.fn = true →
    w.all (fun t => opRoom t r.fn) = true →
    exec (.modelLoad m r) s = .next ((Config.cmdStreamBad img).elim (goesOn opModelLoad r (setModel (r.f 0 1)
      { (getModel v (r.f 0 1)) with op := (w.getD u).bench.nextOp } v)) (fun o => failed r St.imageInvalid o u))) ∧
  (∀ (m : Moment) (slot : Nat) (s : State),
    let u := s.at m
    let x := getModel u slot
    x.mstate = .loading →
    stopping u x.op = false →
    (modelVerify u x).isOk = true →
    exec (.modelLoadComplete m slot true) s = .next (settleAll m (endOp x.op 0 0 (fit 32 x.hdr.digest ++ u8 (Md.pageClass x.hdr)
      ++ u8 0 ++ u16 x.hdr.lgCount ++ u64 (tierBytes x.newObjs 1) ++ u64 (tierBytes x.newObjs 2)) (logEvent
      { code := 0x0401, sev := 0, part := x.partition, info := le 2 slot ++ x.hdr.digest.take 16 ++ le 7 (tierBytes x.newObjs 1) ++ le 7 (tierBytes x.newObjs 2) }
      (modelReady slot (setModel slot
      { x with mstate := .ready, faultRun := 0, objs := x.newObjs, newObjs := [], image := [], reload := false, op := 0 }
      (writeObjs x.image ((Md.objs x.image).zip x.newObjs) u))))))) ∧
  (∀ (m : Moment) (r : Req) (s : State), serves opModelUnload m r s = true →
    let u := taken m r s
    let x := modelFor r u (r.f 0 1)
    let w := purgeNodes x.partition (some (r.f 0 1)) (startOp r 0 0 0 false [r.f 0 1] u).2
    r.f 0 1 ≤ 63 →
    x.mstate = .ready ∨ x.mstate = .faulted →
    (partGate opModelUnload r x.partition u).isOk = true →
    modelUsed u (r.f 0 1) = false →
    opRoom u r.fn = true →
    exec (.modelUnload m r) s = .next (goesOn opModelUnload r (setModel (r.f 0 1)
      { x with mstate := .unloading, op := u.bench.nextOp, purged := w.1 } w.2))) ∧
  (∀ (m : Moment) (slot : Nat) (s : State),
    let u := s.at m
    (getModel u slot).mstate = .unloading →
    (slotInvs u slot).isEmpty = true →
    exec (.modelUnloadComplete m slot) s = .next (endOp (getModel u slot).op 0 0 (u32 (getModel u slot).purged)
      { u with tile := { u.tile with models := tdel u.tile.models slot } })) ∧
  (∀ (m : Moment) (r : Req) (s : State), serves opModelQuery m r s = true →
    let u := taken m r s
    let x := modelFor r u (r.f 0 1)
    r.f 0 1 ≤ 63 →
    exec (.modelQuery m r) s = .next (ended opModelQuery r ((fit 256 x.hdrBytes ++ u32 (modelReg u (r.f 0 1) x) ++ x.objs.flatMap
      (fun o => u8 o.tier)).take 3968) u)) ∧
  (∀ (m : Moment) (r : Req) (s : State) (o : WeightObj) (a : Nat), serves opModelPlace m r s = true →
    let u := taken m r s
    let x := modelFor r u (r.f 0 1)
    r.f 0 1 ≤ 63 →
    r.f 1 1 = 1 ∨ r.f 1 1 = 2 →
    x.mstate = .ready →
    (partGate opModelPlace r x.partition u).isOk = true →
    x.objs[r.f 2 2]? = some o →
    placeBlock u x.partition (r.f 1 1) o.bytes 4096 = some a →
    opRoom u r.fn = true →
    exec (.modelPlace m r) s = .next (goesOn opModelPlace r (setModel (r.f 0 1)
      { x with moving := x.moving ++ [{ bytes := o.bytes, tier := r.f 1 1, addr := a }] } (startOp r 0 1 o.bytes true [r.f 0 1,
      r.f 2 2, r.f 1 1, a] u).2))) ∧
  (∀ (m : Moment) (r : Req) (s : State), serves opAttConfig m r s = true →
    let u := taken m r s
    1 ≤ r.f 0 1 →
    r.f 0 1 ≤ 64 →
    exec (.attConfig m r) s = .next (ended opAttConfig r [] ({ u with tile := { u.tile with attRounds := r.f 0 1 } })))

/-- TABLESET_LOAD of an unused number with every link up or empty becomes an operation that asks each chip on a link that is up,
and with no such link places the image at once. A copy whose digest and signature are right becomes RESIDENT, is written to HBM
and answers its digest and bytes. A number check answers GEN_EXISTS with the digest that this chip holds, or OK. RETIRE of a
RESIDENT generation drains it, and the last bind's end releases it. QUERY reads header, GSTATE and BIND_COUNT. SHEAR_CUT and
SOLDER_RENDER answer what the Shear and Solder make of the input with no session. -/
def Obligations.TableSetsAreLoadedAndServe : Prop :=
  (∀ (m : Moment) (r : Req) (s : State), serves opTablesetLoad m r s = true →
    let u := taken m r s
    (partGate opTablesetLoad r (r.f 2 1) u).isOk = true →
    r.f 0 2 ≠ 0 →
    thas u.txt.gens (r.f 0 2) = false →
    (List.range 7).any (fun n => linkDark (getLink u n)) = false →
    (linksUp u).isEmpty = false →
    opRoom u r.fn = true →
    exec (.tablesetLoad m r) s = .next (goesOn opTablesetLoad r ((linksUp u).foldl (fun s l => swlAsk ((chip s + l + 1) % 8)
      (.numberCheck u.bench.nextOp) 3 (r.f 0 2) [r.f 0 2] [] s) (startOp r 1 1 (r.f 8 8) true [(linksUp u).length] u).2))) ∧
  (∀ (m : Moment) (r : Req) (s : State), serves opTablesetLoad m r s = true →
    let u := taken m r s
    (partGate opTablesetLoad r (r.f 2 1) u).isOk = true →
    r.f 0 2 ≠ 0 →
    thas u.txt.gens (r.f 0 2) = false →
    (List.range 7).any (fun n => linkDark (getLink u n)) = false →
    (linksUp u).isEmpty = true →
    opRoom u r.fn = true →
    exec (.tablesetLoad m r) s = .next (goesOn opTablesetLoad r (placeTableset u.bench.nextOp (startOp r 1 1 (r.f 8 8) true
      [(linksUp u).length] u).2))) ∧
  (∀ (n : Nat) (o : LongOp) (img : Bytes) (a : Nat) (s : State), getOp s n = some o → o.req.f 0 2 ≠ 0 → thas s.txt.gens (o.req.f 0
    2) = false → (inData o.req (o.req.f 8 8) s).toOption = some img → (imageCheck (o.req.f 2 1) (o.req.f 8 8) img s).toOption =
    some a →
  placeTableset n s = phaseOp n 2 true (setGen (o.req.f 0 2)
    { partition := o.req.f 2 1, family := Tb.family img, digest := Tb.digest img, vocab := Tb.vocab img, image := img, hbmBytes := o.req.f 8 8, addr := a, op := n }
    s)) ∧
  (∀ (m : Moment) (gen : Nat) (x : TableSet) (s : State),
    let u := s.at m
    getGen u gen = some x →
    x.gstate = .loading →
    stopping u x.op = false →
    (tablesetVerify u x).isOk = true →
    exec (.tablesetLoadComplete m gen true) s = .next (endOp x.op 0 0 (fit 32 x.digest ++ u64 x.hbmBytes) (logEvent
      { code := 0x0501, sev := 0, part := x.partition, info := u64 gen ++ u64 x.family ++ x.digest.take 16 } (devWrite 1 x.addr
      x.image (setGen gen { x with gstate := .resident, op := 0 } u))))) ∧
  (∀ (m : Moment) (link tag gen : Nat) (s : State),
    let u := s.at m
    let v := swlGot link 0 0 u
    exec (.tablesetNumberCheck m link tag gen) s = .next (sendSwl ((getGen v gen).elim (.swilan link 1 3 tag [0] []) (fun x =>
      .swilan link 1 3 tag [St.genExists] x.digest)) v)) ∧
  (∀ (m : Moment) (r : Req) (s : State) (x : TableSet), serves opTablesetRetire m r s = true →
    let u := taken m r s
    genFor r u (r.f 0 2) = some x →
    (partGate opTablesetRetire r x.partition u).isOk = true →
    x.gstate = .resident →
    opRoom u r.fn = true →
    exec (.tablesetRetire m r) s = .next (goesOn opTablesetRetire r (setGen (r.f 0 2)
      { x with gstate := .retiring, bindAt := x.bind, op := u.bench.nextOp } (startOp r 1 3 x.bind true [] u).2))) ∧
  (∀ (m : Moment) (gen : Nat) (x : TableSet) (s : State),
    let u := s.at m
    getGen u gen = some x →
    x.gstate = .retiring →
    x.bind = 0 →
    (getOp u x.op).any (·.cancelling) = false →
    exec (.tablesetDrained m gen) s = .next (endOp x.op 0 0 [] (note 0x0502 0 x.partition 0 [gen, x.hbmBytes] (dropGen gen
      (phaseOp x.op 2 false u))))) ∧
  (∀ (m : Moment) (r : Req) (s : State) (x : TableSet), serves opTablesetQuery m r s = true →
    let u := taken m r s
    genFor r u (r.f 0 2) = some x →
    exec (.tablesetQuery m r) s = .next (ended opTablesetQuery r (fit 256 x.image ++ u8 (gstateCode x.gstate) ++ zeros 3 ++ u32
      x.bind) u)) ∧
  (∀ (m : Moment) (r : Req) (s : State) (x : TableSet) (a : Shorn), serves opShearCut m r s = true →
    let u := taken m r s
    r.f 4 4 ≤ 3952 →
    genServing r u (r.f 0 2) = some x →
    (shear x.image (bit (r.f 2 1) 0) true 0 {} (r.b 0x10 (r.f 4 4))).toOption = some a →
    exec (.shearCut m r) s = .next (ended opShearCut r (u32 (a.toks.map (·.1)).length ++ u32 a.replaced ++ ((a.toks.map
      (·.1)).take 990).flatMap u32) (bumpFree .shrMisses x.partition (r.f 4 4) u) (b2n (decide (990 < (a.toks.map
      (·.1)).length))))) ∧
  (∀ (m : Moment) (r : Req) (s : State) (x : TableSet), serves opSolderRender m r s = true →
    let u := taken m r s
    let ids := (List.range (r.f 8 4)).map (fun i => r.f (0x10 + 4 * i) 4)
    let a := renderTurn x.image (if r.f 4 4 = ones32 then {} else Tb.stopSet x.image (r.f 4 4)) (bit (r.f 2 1) 0) ids 0 {}
    r.f 8 4 ≤ 988 →
    genServing r u (r.f 0 2) = some x →
    ids.any (fun t => decide (x.vocab ≤ t)) = false →
    r.f 4 4 = ones32 ∨ r.f 4 4 < Tb.stopCount x.image →
    exec (.solderRender m r) s = .next (ended opSolderRender r (u32 a.out.length ++ u32 (a.stop.getD ones32) ++ a.out.take 3960)
      (bumpFree .shrMisses x.partition (r.f 8 4) u) (b2n (decide (3960 < a.out.length)))))

/-- CLASS_SET of an entry in range for an enabled partition, naming a defined meter of it or none, defines a class and opens its
Gauge window; on a class that no session names it changes every field, keeping its tags, and a changed window length closes the
open window early. CLASS_READ answers the entry, its tags, and its bound and backlogged sessions. CLASS_DELETE removes an unbound
class and yields a final report. METER_SET defines a meter with full buckets, or deletes one that nothing names; METER_READ
refills it without a debit. PARTITION_SHARE sets weight, fair_lag and meter. PLA_QUEUE_READ answers a session's queue record. -/
def Obligations.ClassesMetersAndShares : Prop :=
  (∀ (m : Moment) (r : Req) (s : State), serves opClassSet m r s = true →
    let u := taken m r s
    let y := classOf (r.payload.drop 0x10)
    r.f 0 2 < 4096 →
    classInRange y = true →
    (getPart u y.partition).pstate ≠ .off →
    (partGate opClassSet r y.partition u).isOk = true →
    meterFits u y.partition y.meter = true →
    tget u.pla.classes (r.f 0 2) = none →
    exec (.classSet m r) s = .next (settleAll m (ended opClassSet r [] (openGauge (r.f 0 2) y.windowS (setClass (r.f 0 2) y u))))) ∧
  (∀ (m : Moment) (r : Req) (s : State) (x : ContractClass), serves opClassSet m r s = true →
    let u := taken m r s
    let y := classOf (r.payload.drop 0x10)
    let z : ContractClass := { y with start := x.start, finish := x.finish, vtime := x.vtime, backlogged := x.backlogged }
    r.f 0 2 < 4096 →
    classInRange y = true →
    (getPart u y.partition).pstate ≠ .off →
    (partGate opClassSet r y.partition u).isOk = true →
    meterFits u y.partition y.meter = true →
    tget u.pla.classes (r.f 0 2) = some x →
    classBound u (r.f 0 2) = 0 ∨ classFixed x y = true →
    exec (.classSet m r) s = .next (settleAll m (ended opClassSet r [] (if x.windowS ≠ y.windowS then openGauge (r.f 0 2)
      y.windowS (setClass (r.f 0 2) z (closeEarly (r.f 0 2) false false u.ct u)) else setClass (r.f 0 2) z (rollGauge (r.f 0 2)
      u))))) ∧
  (∀ (m : Moment) (r : Req) (s : State) (x : ContractClass), serves opClassRead m r s = true →
    let u := taken m r s
    r.f 0 2 ≤ 4095 →
    tget u.pla.classes (r.f 0 2) = some x →
    r.fn = 0 ∨ x.partition = r.fn - 1 →
    exec (.classRead m r) s = .next (ended opClassRead r (classBytes x ++ u64 x.start ++ u64 x.finish ++ u64 x.vtime ++ u32
      (classBound u (r.f 0 2)) ++ u32 (backlogged u (r.f 0 2)).length) u)) ∧
  (∀ (m : Moment) (r : Req) (s : State) (x : ContractClass), serves opClassDelete m r s = true →
    let u := taken m r s
    let w := closeEarly (r.f 0 2) false true u.ct (closeEnding (r.f 0 2) (rollGauge (r.f 0 2) u))
    r.f 0 2 < 4096 →
    tget u.pla.classes (r.f 0 2) = some x →
    (partGate opClassDelete r x.partition u).isOk = true →
    classBound u (r.f 0 2) = 0 →
    exec (.classDelete m r) s = .next (ended opClassDelete r []
      ({ w with pla := { w.pla with classes := tdel w.pla.classes (r.f 0 2) } }))) ∧
  (∀ (m : Moment) (r : Req) (s : State), serves opMeterSet m r s = true →
    let u := taken m r s
    let p := bits (r.f 8 4) 27 24
    r.f 0 2 ≤ 16383 →
    r.f 2 1 = 0 →
    r.f 0x0C 4 ≤ r.f 0x14 4 →
    r.f 0x14 4 ≠ 0 →
    1000 ≤ r.f 0x10 4 →
    1000 ≤ r.f 0x18 4 →
    (getPart u p).pstate ≠ .off →
    (partGate opMeterSet r p u).isOk = true →
    (∀ x, tget u.pla.meters (r.f 0 2) = some x → x.partition = p ∨ meterNamed u (r.f 0 2) = false) →
    (bit (r.f 8 4) 30 = true → awareCount u (r.f 0 2) < 64) →
    exec (.meterSet m r) s = .next (ended opMeterSet r []
      ({ u with pla := { u.pla with meters := tset u.pla.meters (r.f 0 2) { ((tget u.pla.meters (r.f 0 2)).getD {}) with ctLast := u.ct, aware := bit (r.f 8 4) 30, partition := p, cir := r.f 0x0C 4, cbs := r.f 0x10 4, pir := r.f 0x14 4, pbs := r.f 0x18 4, tc := r.f 0x10 4, tp := r.f 0x18 4 } } }))) ∧
  (∀ (m : Moment) (r : Req) (s : State) (x : Meter), serves opMeterSet m r s = true →
    let u := taken m r s
    r.f 0 2 ≤ 16383 →
    r.f 2 1 = 1 →
    tget u.pla.meters (r.f 0 2) = some x →
    (partGate opMeterSet r x.partition u).isOk = true →
    meterNamed u (r.f 0 2) = false →
    exec (.meterSet m r) s = .next (ended opMeterSet r []
      ({ u with pla := { u.pla with meters := tdel u.pla.meters (r.f 0 2) } }))) ∧
  (∀ (m : Moment) (r : Req) (s : State) (x : Meter), serves opMeterRead m r s = true →
    let u := taken m r s
    r.f 0 2 ≤ 16383 →
    tget u.pla.meters (r.f 0 2) = some x →
    r.fn = 0 ∨ x.partition = r.fn - 1 →
    exec (.meterRead m r) s = .next (ended opMeterRead r (meterBytes (x.refill u.ct))
      ({ u with pla := { u.pla with meters := tset u.pla.meters (r.f 0 2) (x.refill u.ct) } }))) ∧
  (∀ (m : Moment) (r : Req) (s : State), serves opPartitionShare m r s = true →
    let u := taken m r s
    r.f 2 2 ≠ 0 →
    (partGate opPartitionShare r (r.f 0 1) u).isOk = true →
    meterFits u (r.f 0 1) (r.f 6 2) = true →
    exec (.partitionShare m r) s = .next (settleAll m (ended opPartitionShare r [] (setShare (r.f 0 1)
      { (getShare u (r.f 0 1)) with weight := r.f 2 2, fairLag := r.f 4 2, meter := r.f 6 2 } u)))) ∧
  (∀ (m : Moment) (r : Req) (s : State) (x : Session), serves opPlaQueueRead m r s = true →
    let u := taken m r s
    locate r u (r.f 0 8) = .here (.active x) →
    x.st ≠ .faulted →
    exec (.plaQueueRead m r) s = .next (ended opPlaQueueRead r (u64 x.q.start ++ u64 x.q.finish ++ u64 x.q.ctCredit ++ u64
      x.q.ctBacklog) u))

/-- STREAM_RING_SET configures a ring that no session targets, or deletes it. The writer sends the next record of the partition
whose turn it is: to a host ring and then its produced count, or to a remote ring as one sealed GX write. A ring that seems full
has its consumed count read. GAUGE_REPORT writes a held report through the scatter list; GAUGE_CONFIG sets sample_period;
GAUGE_SAMPLE samples every class and queue; a window closes 2 ms after its end; the oldest closed report is signed, stored and
told. -/
def Obligations.StreamRingsAndTheGauge : Prop :=
  (∀ (m : Moment) (r : Req) (s : State), serves opStreamRingSet m r s = true →
    let u := taken m r s
    let k := ringKey r.part16 (r.f 0 2)
    let old := getRing u k
    let ring : StreamRing :=
      { kind := r.f 2 1, log2 := r.f 3 1, base := r.f 8 8, consAddr := r.f 0x10 8, conn := r.f 0x18 4, key := r.f 0x1C 4, vector := r.f 0x20 2, fn := r.fn, spill := (old.map (·.spill)).getD [], reserved := (old.map (·.reserved)).getD 0 }
    r.f 0 2 ≤ 1023 →
    r.f 2 1 = 1 ∨ r.f 2 1 = 2 →
    6 ≤ r.f 3 1 →
    r.f 3 1 ≤ 20 →
    r.f 8 8 % 4096 = 0 →
    r.f 0x10 8 % 16 = 0 →
    r.f 0x20 2 < 2048 ∨ r.f 0x20 2 = 0xFFFF →
    (ringTargeted u r.part16 (r.f 0 2) || old.any (fun x => !x.spill.isEmpty)) = false ∨ old.any (·.faulted) = true →
    old.isSome = true ∨ takenBytes u r.part16 1 + 16384 * 64 ≤ partBytes u r.part16 1 →
    exec (.streamRingSet m r) s = .next (settleAll m (ended opStreamRingSet r [] (zeroProduced k ring (setRing k ring (dropMsgs
      (.stream k) (dropMsgs (.ringZero k) (dropMsgs (.cons k) u)))))))) ∧
  (∀ (m : Moment) (r : Req) (s : State), serves opStreamRingSet m r s = true →
    let u := taken m r s
    let k := ringKey r.part16 (r.f 0 2)
    r.f 0 2 ≤ 1023 →
    r.f 2 1 = 0 →
    ringTargeted u r.part16 (r.f 0 2) = false →
    (getRing u k).all (fun x => x.spill.isEmpty) = true →
    exec (.streamRingSet m r) s = .next (settleAll m (ended opStreamRingSet r [] (dropMsgs (.stream k) (dropMsgs (.ringZero k)
      (dropMsgs (.cons k) { u with pla := { u.pla with rings := tdel u.pla.rings k } })))))) ∧
  (∀ (m : Moment) (p n : Nat) (x : StreamRing) (rec : StreamRec) (s : State),
    let u := s.at m
    let v := wakeParts .stream (streamParts u) u
    let a := x.base + 64 * (x.prod % 2 ^ x.log2)
    getRing u (ringKey p n) = some x →
    ringReady u (ringKey p n) x = some rec →
    nextPartition .stream (streamParts v) v = some p →
    x.kind = 1 →
    hostErr v a 64 = none →
    hostErr v (x.consAddr + 8) 8 = none →
    exec (.streamRecordWrite m p n) s = .next (settleAll m (chargeStream p (ringSent (ringKey p n) (hostWrite (x.consAddr + 8)
      (u64 ((x.prod + 1) % 2 ^ 64)) (hostWrite a (recordBytes v.ct x.prod x.log2 rec) v)))))) ∧
  (∀ (m : Moment) (p n i : Nat) (x : StreamRing) (rec : StreamRec) (q : Qp) (s : State),
    let u := s.at m
    let v := wakeParts .stream (streamParts u) u
    let w := gxWrite i { owner := .stream (ringKey p n), lastPsn := 0 } x.key (x.base + 64 * (x.prod % 2 ^ x.log2)) (recordBytes
      v.ct x.prod x.log2 rec) { payload := u64 ((x.prod + 1) % 2 ^ 64), off := x.consAddr + 8 } v
    getRing u (ringKey p n) = some x →
    ringReady u (ringKey p n) x = some rec →
    nextPartition .stream (streamParts v) v = some p →
    x.kind = 2 →
    qpOf v x.conn = some (i, q) →
    w.isOk = true →
    exec (.streamRecordWrite m p n) s = .next (settleAll m (chargeStream p (w.toOption.getD v)))) ∧
  (∀ (m : Moment) (p n : Nat) (x : StreamRing) (s : State),
    let u := s.at m
    getRing u (ringKey p n) = some x →
    x.faulted = false →
    x.spill.isEmpty = false →
    2 ^ x.log2 ≤ x.used →
    x.kind = 1 →
    x.consCt.all (fun c => decide (c + 1000 ≤ u.ct)) = true →
    hostErr u x.consAddr 8 = none →
    (x.prod + 2 ^ 64 - field (hostRead u x.consAddr 8) 0 8) % 2 ^ 64 ≤ 2 ^ x.log2 →
    exec (.streamConsRead m p n) s = .next (settleAll m (setRing (ringKey p n)
      { x with consCt := some u.ct, cons := field (hostRead u x.consAddr 8) 0 8 } (setRing (ringKey p n)
      { x with consCt := some u.ct } u)))) ∧
  (∀ (m : Moment) (p n i : Nat) (x : StreamRing) (q : Qp) (s : State),
    let u := s.at m
    let v := setRing (ringKey p n) { x with consCt := some u.ct } u
    let w := gxRead i { owner := .cons (ringKey p n), lastPsn := 0 } x.key x.consAddr 8 v
    getRing u (ringKey p n) = some x →
    x.faulted = false →
    x.spill.isEmpty = false →
    2 ^ x.log2 ≤ x.used →
    x.kind = 2 →
    x.consCt.all (fun c => decide (c + 5000 ≤ u.ct)) = true →
    msgOf v (.cons (ringKey p n)) = none →
    qpOf v x.conn = some (i, q) →
    w.isOk = true →
    exec (.streamConsRead m p n) s = .next (settleAll m (w.toOption.getD v))) ∧
  (∀ (m : Moment) (r : Req) (s : State) (g : GaugeClass) (x : Report) (l : List SgEntry), serves opGaugeReport m r s = true →
    let u := taken m r s
    r.f 0 2 ≤ 4095 →
    r.f 2 1 ≤ 1 →
    getGauge u (r.f 0 2) = some g →
    (if r.f 2 1 = 0 then g.reports.getLast? else g.reports.find? (fun x => x.seq = r.f 8 8)) = some x →
    r.fn = 0 ∨ field x.body 6 1 = r.fn - 1 →
    (sgCover r 8496 u).toOption = some l →
    (sgWrite l x.body u).2 = none →
    exec (.gaugeReport m r) s = .next (ended opGaugeReport r [] ((sgWrite l x.body u).1))) ∧
  (∀ (m : Moment) (r : Req) (s : State), serves opGaugeConfig m r s = true →
    let u := taken m r s
    10000 ≤ r.f 0 4 →
    r.f 0 4 ≤ 10000000 →
    r.f 4 1 ≤ 1 →
    exec (.gaugeConfig m r) s = .next (ended opGaugeConfig r []
      ({ u with gau := if r.f 4 1 = 1 then { u.gau with period := r.f 0 4, fdyMax := 0, raiseMax := 0, shearMax := 0, parts := u.gau.parts.map (fun e => (e.1, { e.2 with fdyMax := 0, raiseMax := 0, shearMax := 0 })) } else { u.gau with period := r.f 0 4 } }))) ∧
  (∀ (m : Moment) (s : State),
    let u := s.at m
    u.ct % max 1 u.gau.period = 0 →
    exec (.gaugeSample m) s = .next (sampleQueues (sampleParts ((tkeys u.pla.classes).foldl (fun s c => sampleClass c s) u)))) ∧
  (∀ (m : Moment) (cls : Nat) (g : GaugeClass) (w : Window) (s : State),
    let u := s.at m
    let v := rollGauge cls u
    getGauge v cls = some g →
    g.ending = some w →
    w.stop + 2000000 ≤ v.ct →
    exec (.gaugeWindowClose m cls) s = .next (closeReport cls w false (setGauge cls { g with ending := none } v))) ∧
  (∀ (m : Moment) (r : Report) (rest : List Report) (s : State),
    let u := s.at m
    let z := r.signed u
    let w := reportEvents z (field z.body 6 1) (storeReport z (bump .gauReports (field z.body 6 1) 1
      { u with gau := { u.gau with toSign := rest, reports := u.gau.reports + 1 } }))
    u.gau.toSign = r :: rest →
    exec (.reportSign m) s = .next (if r.final then dropGauge r.cls w else w))

/-- At a multiple of 100,000 ns with no audit running, or after a delayed one, an audit writes the evidence of each instance that
fails, closes the epoch, and places markers on the links that are up; an audit due while one runs is delayed and counted as an
overrun, with its event. A received marker whose SENT count equals this side's RECEIVED, and whose credits are the ones returned
here, is taken, any other is a breach, and so is one outstanding for 1 ms. TLY_READ answers an instance's columns, its last epoch
and its saturation, TLY_EVIDENCE an evidence record, and TLY_CONFIG sets REPORT_ONLY unless the chip is in production. -/
def Obligations.TheTallyAuditsAndAnswers : Prop :=
  (∀ (m : Moment) (s : State),
    let u := s.at m
    let z := countAudit u
    let fails := (auditKeys z).filterMap (fun k => (auditFails z (k / 2 ^ 32) (k % 2 ^ 32)).map (fun c => (k, c)))
    let v := (List.range 7).foldl (fun s n => placeMarkers z.ct n s) (closeEpoch (fails.foldl (fun s e => breach (e.1 / 2 ^ 32)
      (e.1 % 2 ^ 32) e.2 z.ct s) z))
    7 ≤ u.bench.bootPhase →
    z.tly.auditing = none →
    z.ct % 100000 = 0 ∨ z.tly.delayed = true →
    exec (.tallyAudit m) s = .next
      ({ v with tly := { v.tly with auditing := some z.ct, auditEnd := z.ct + m.choice.getD 0 0, delayed := false } })) ∧
  (∀ (m : Moment) (ct : Nat) (s : State),
    let u := s.at m
    let z := countAudit u
    7 ≤ u.bench.bootPhase →
    z.tly.auditing = some ct →
    z.ct % 100000 = 0 →
    z.tly.delayed = false →
    exec (.tallyAudit m) s = .next (note 0x0801 1 0xFF 0 [ct, z.tly.auditEnd - ct]
      { z with tly := { z.tly with overruns := z.tly.overruns + 1, delayed := true } })) ∧
  (∀ (m : Moment) (link vc ct : Nat) (x : MarkerCounts) (s : State),
    let u := s.at m
    let v :=
      { u with tly := { u.tly with markers := u.tly.markers.filter (fun y => !(y.link = link && y.vc = vc && y.ct = ct)) } }
    (getLink u link).up = true →
    vc ≤ 3 →
    exec (.swlMarkerReceive m link vc ct x) s = .next (if (getLink u link).received.getD vc 0 = x.sent && (getLink u
      link).creditsIn.getD vc 0 = x.returned then v else breach Lg.swilan (swlInst link vc) 2 ct v)) ∧
  (∀ (m : Moment) (link vc ct : Nat) (s : State),
    let u := s.at m
    u.tly.markers.any (fun x => x.link = link && x.vc = vc && x.ct = ct) = true →
    ct + 1000000 ≤ u.ct →
    exec (.swlMarkerTimeout m link vc ct) s = .next (breach Lg.swilan (swlInst link vc) 2 ct
      { u with tly := { u.tly with markers := u.tly.markers.filter (fun x => !(x.link = link && x.vc = vc && x.ct = ct)) } })) ∧
  (∀ (m : Moment) (r : Req) (s : State), serves opTlyRead m r s = true →
    let u := taken m r s
    let l := getLedger u (r.f 0 1) (r.f 4 4)
    instExists u (r.f 0 1) (r.f 4 4) = true →
    r.reaches (instPart u (r.f 0 1) (r.f 4 4)) = true →
    exec (.tlyRead m r) s = .next (ended opTlyRead r ((takeD 8 0 l.cols).flatMap u64 ++ (takeD 8 0 l.delta).flatMap (fun d => u64
      (ofSigned 64 d)) ++ u32 (b2n l.sat)) u)) ∧
  (∀ (m : Moment) (r : Req) (s : State) (b : Bytes), serves opTlyEvidence m r s = true →
    let u := taken m r s
    r.f 0 1 ≤ 7 →
    u.err.evidence[r.f 0 1]? = some b →
    r.hdr.sgCount = 0 →
    exec (.tlyEvidence m r) s = .next (ended opTlyEvidence r (b.take 3968) u)) ∧
  (∀ (m : Moment) (r : Req) (s : State) (b : Bytes) (l : List SgEntry), serves opTlyEvidence m r s = true →
    let u := taken m r s
    r.f 0 1 ≤ 7 →
    u.err.evidence[r.f 0 1]? = some b →
    r.hdr.sgCount ≠ 0 →
    (sgCover r b.length u).toOption = some l →
    (sgWrite l b u).2 = none →
    exec (.tlyEvidence m r) s = .next (ended opTlyEvidence r [] ((sgWrite l b u).1))) ∧
  (∀ (m : Moment) (r : Req) (s : State), serves opTlyConfig m r s = true →
    let u := taken m r s
    r.f 0 1 = 0 ∨ r.f 0 1 = 1 ∧ u.hmk.production = false →
    exec (.tlyConfig m r) s = .next (ended opTlyConfig r [] ({ u with tly := { u.tly with reportOnly := r.f 0 1 = 1 } })))

/-- TCH_INDEX_CREATE defines an index that fits, and TCH_INDEX_DROP refuses new work on one at once. TCH_INSERT answers slot and
generation of each item, at once or, by the moment's choice, as a long operation whose first item is INSERTING until LONG_OP_END
publishes it, or a CANCEL frees its slot, and that ends before the shard's next insert or delete (log entry 10). TCH_DELETE of a
live item of this chip publishes a tombstone at the shard's next epoch and answers it. TCH_QUERY of an index with no other shard
answers at once, or by the moment's choice as a long operation (log entry 10), the best hits of this shard, in the payload up to
top_k 247 and through the scatter list above it; with other shards, and for TCH_BULK, the search begins under a context as an
operation. TCH_INDEX_QUERY answers the fields and status, and TCH_REPAIR begins a sweep. -/
def Obligations.TouchstoneCommands : Prop :=
  (∀ (m : Moment) (r : Req) (s : State) (d : Bytes), serves opTchIndexCreate m r s = true →
    let u := taken m r s
    let n := if r.f 1 1 = 2 then r.f 0x0C 4 else 0
    let x : Index :=
      { partition := r.part16, kind := r.f 1 1, tier := r.f 2 1, shardMask := r.f 3 1, bits := r.f 4 2, degree := r.f 6 1, build := r.f 8 2, lists := r.f 0x0C 4, capacity := r.f 0x10 8, timeout := r.f 0x18 4, centroids := codesOf (r.f 4 2) n d }
    indexFieldsOk r = true →
    thas u.tch.indexes (r.f 0 1) = false →
    (inData r (n * (r.f 4 2 / 8)) u).toOption = some d →
    indexFits u x = true →
    exec (.tchIndexCreate m r) s = .next (ended opTchIndexCreate r [] (setIndex (r.f 0 1)
      { x with extents := (placeUnits u x.partition x.tier (indexBytes x)).getD [] } u))) ∧
  (∀ (m : Moment) (r : Req) (s : State) (x : Index), serves opTchIndexDrop m r s = true →
    let u := taken m r s
    getIndex u (r.f 0 1) = some x →
    r.reaches x.partition = true →
    x.dropping = none →
    (partGate opTchIndexDrop r x.partition u).isOk = true →
    opRoom u r.fn = true →
    exec (.tchIndexDrop m r) s = .next (goesOn opTchIndexDrop r (setIndex (r.f 0 1) { x with dropping := some u.bench.nextOp }
      (startOp r 1 5 x.items.length false [r.f 0 1] u).2))) ∧
  (∀ (m : Moment) (r : Req) (s : State) (x : Index) (d : Bytes), serves opTchInsert m r s = true →
    let u := taken m r s
    let n := 8 + x.bits / 8
    let l := (List.range (r.f 4 4)).map (fun k => (field d (k * n) 8, field d (k * n + 8) (n - 8)))
    let w := insertAll m (r.f 0 1) 0 l (flushInserts m (r.f 0 1) u)
    getIndex u (r.f 0 1) = some x →
    r.reaches x.partition = true →
    x.dropping = none →
    (partGate opTchInsert r x.partition u).isOk = true →
    r.f 4 4 ≤ 495 →
    (inData r (r.f 4 4 * n) u).toOption = some d →
    insertLong m = false →
    w.2.1 = true →
    exec (.tchInsert m r) s = .next (ended opTchInsert r (u32 w.1.length ++ w.1.flatMap (fun k => u32 k ++ u16 (((getIndex w.2.2
      (r.f 0 1)).map (fun x => slotGen x k)).getD 0) ++ zeros 2)) (w.2.2))) ∧
  (∀ (m : Moment) (r : Req) (s : State) (x : Index) (d : Bytes) (a : Nat × Nat) (rest : List (Nat × Nat)), serves opTchInsert m r
    s = true →
    let u := taken m r s
    let n := 8 + x.bits / 8
    let v := flushInserts m (r.f 0 1) u
    let b := (beginItem m 0 (r.f 0 1) a.1 a.2 v).getD (0, v)
    let w := startOp r 1 5 (r.f 4 4) true [r.f 0 1] b.2
    getIndex u (r.f 0 1) = some x →
    r.reaches x.partition = true →
    x.dropping = none →
    (partGate opTchInsert r x.partition u).isOk = true →
    r.f 4 4 ≤ 495 →
    (inData r (r.f 4 4 * n) u).toOption = some d →
    insertLong m = true →
    (List.range (r.f 4 4)).map (fun k => (field d (k * n) 8, field d (k * n + 8) (n - 8))) = a :: rest →
    (beginItem m 0 (r.f 0 1) a.1 a.2 v).isSome = true →
    opRoom v r.fn = true →
    exec (.tchInsert m r) s = .next (goesOn opTchInsert r
      ({ w.2 with tch := { w.2.tch with inserts := tset w.2.tch.inserts w.1 { index := r.f 0 1, slot := b.1, rest } } }))) ∧
  (∀ (m : Moment) (op : Nat) (ok : Bool) (o : LongOp) (q : InsertJob) (s : State),
    let u := s.at m
    let w := insertAll m q.index 1 q.rest (publishItem q.index q.slot
      { u with tch := { u.tch with inserts := tdel u.tch.inserts op } })
    getOp u op = some o →
    o.opcode = 0x0902 →
    stopping u op = false →
    u.swl.reqs = [] →
    tget u.tch.inserts op = some q →
    exec (.longOpEnd m op ok) s = .next (settleAll m (endReply op (insertReply q.index (q.slot :: w.1) w.2.1 w.2.2)))) ∧
  (∀ (m : Moment) (op : Nat) (ok : Bool) (o : LongOp) (q : InsertJob) (s : State),
    let u := s.at m
    getOp u op = some o →
    o.opcode = 0x0902 →
    stopping u op = true →
    u.swl.reqs = [] →
    tget u.tch.inserts op = some q →
    exec (.longOpEnd m op ok) s = .next (settleAll m (endOp op St.cancelled 0 [] (abandonItem q.index q.slot
      { u with tch := { u.tch with inserts := tdel u.tch.inserts op } })))) ∧
  (∀ (m : Moment) (r : Req) (s : State) (x y : Index) (a : Item), serves opTchDelete m r s = true →
    let u := taken m r s
    let v := flushInserts m (r.f 0 1) u
    getIndex u (r.f 0 1) = some x →
    r.reaches x.partition = true →
    x.dropping = none →
    (partGate opTchDelete r x.partition u).isOk = true →
    r.f 1 1 = chip u →
    getIndex v (r.f 0 1) = some y →
    tget y.items (r.f 4 4) = some a →
    slotGen y (r.f 4 4) = r.f 2 2 →
    a.sstate = .live →
    exec (.tchDelete m r) s = .next (ended opTchDelete r (u64 (shardEpoch v y)) (setIndex (r.f 0 1)
      { y with floor := shardEpoch v y, items := tset y.items (r.f 4 4) { a with del := shardEpoch v y, sstate := .tombstone } }
      v))) ∧
  (∀ (m : Moment) (r : Req) (s : State) (x : Index), serves opTchQuery m r s = true →
    let u := taken m r s
    let w := runShard (r.f 0 1) x [r.f 0x10 (x.bits / 8)] u.ct (r.f 2 2) (r.f 4 2) (r.f 6 2) (r.f 8 2) (bindContext u)
    let hits := (w.1.headD []).take (r.f 2 2)
    getIndex u (r.f 0 1) = some x →
    r.reaches x.partition = true →
    x.dropping = none →
    (partGate opTchQuery r x.partition u).isOk = true →
    queryFieldsOk r x = true →
    contextFree u x.partition = true →
    queryNow m u x = true →
    r.f 2 2 ≤ 247 →
    exec (.tchQuery m r) s = .next (ended opTchQuery r (u16 hits.length ++ zeros 6 ++ hits.flatMap hitBytes) (bump .tchQueries
      x.partition 1 (freeContext w.2)))) ∧
  (∀ (m : Moment) (r : Req) (s : State) (x : Index) (l : List SgEntry), serves opTchQuery m r s = true →
    let u := taken m r s
    let w := runShard (r.f 0 1) x [r.f 0x10 (x.bits / 8)] u.ct (r.f 2 2) (r.f 4 2) (r.f 6 2) (r.f 8 2) (bindContext u)
    let v := bump .tchQueries x.partition 1 (freeContext w.2)
    let hits := (w.1.headD []).take (r.f 2 2)
    let b := u16 hits.length ++ zeros 6 ++ hits.flatMap hitBytes
    getIndex u (r.f 0 1) = some x →
    r.reaches x.partition = true →
    x.dropping = none →
    (partGate opTchQuery r x.partition u).isOk = true →
    queryFieldsOk r x = true →
    contextFree u x.partition = true →
    queryNow m u x = true →
    247 < r.f 2 2 →
    (sgCover r (8 + 16 * r.f 2 2) u).isOk = true →
    (sgCover r (8 + 16 * r.f 2 2) v).toOption = some l →
    (sgWrite l b v).2 = none →
    exec (.tchQuery m r) s = .next (ended opTchQuery r [] ((sgWrite l b v).1))) ∧
  (∀ (m : Moment) (r : Req) (s : State) (x : Index), serves opTchQuery m r s = true →
    let u := taken m r s
    getIndex u (r.f 0 1) = some x →
    r.reaches x.partition = true →
    x.dropping = none →
    (partGate opTchQuery r x.partition u).isOk = true →
    queryFieldsOk r x = true →
    contextFree u x.partition = true →
    queryNow m u x = false →
    opRoom u r.fn = true →
    r.f 2 2 ≤ 247 ∨ (sgCover r (8 + 16 * r.f 2 2) u).isOk = true →
    exec (.tchQuery m r) s = .next (goesOn opTchQuery r (startQuery u.bench.nextOp (r.f 0 1) x r false (queryHeld m) [r.f 0x10
      (x.bits / 8)] (r.f 2 2) (r.f 4 2) (r.f 6 2) (r.f 8 2) (startOp r 1 5 0 true [u.tch.nextQ] u).2))) ∧
  (∀ (m : Moment) (r : Req) (s : State) (x : Index) (d : Bytes), serves opTchBulk m r s = true →
    let u := taken m r s
    getIndex u (r.f 0 1) = some x →
    r.reaches x.partition = true →
    x.dropping = none →
    (partGate opTchBulk r x.partition u).isOk = true →
    x.kind ≠ 1 →
    1 ≤ r.f 2 2 ∧ r.f 2 2 ≤ 1024 →
    1 ≤ r.f 8 4 ∧ r.f 8 4 ≤ 65536 →
    (x.kind = 2 → 1 ≤ r.f 4 2 ∧ r.f 4 2 ≤ x.lists) →
    r.f 0x10 8 < partBytes u x.partition 1 →
    contextFree u x.partition = true →
    (sgCover r (r.f 8 4 * (x.bits / 8) + 16 * r.f 2 2 * r.f 8 4) u).isOk = true →
    (inData r (r.f 8 4 * (x.bits / 8)) u).toOption = some d →
    opRoom u r.fn = true →
    exec (.tchBulk m r) s = .next (goesOn opTchBulk r (startQuery u.bench.nextOp (r.f 0 1) x r true false (codesOf x.bits (r.f 8
      4) d) (r.f 2 2) 0 0 (r.f 4 2) (startOp r 1 5 (r.f 8 4) true [u.tch.nextQ] u).2))) ∧
  (∀ (m : Moment) (r : Req) (s : State) (x : Index), serves opTchIndexQuery m r s = true →
    let u := taken m r s
    getIndex u (r.f 0 1) = some x →
    r.reaches x.partition = true →
    x.dropping = none →
    exec (.tchIndexQuery m r) s = .next (ended opTchIndexQuery r (u8 (r.f 0 1) ++ u8 x.kind ++ u8 x.tier ++ u8 x.shardMask ++ u16
      x.bits ++ u8 x.degree ++ u8 0 ++ u16 x.build ++ zeros 2 ++ u32 x.lists ++ u64 x.capacity ++ u32 x.timeout ++ u64 x.floor ++
      u32 (x.entry.getD ones32) ++ u64 (itemCount x .live) ++ u64 (itemCount x .tombstone) ++ u64 x.repairPos ++ u64 x.capacity)
      u)) ∧
  (∀ (m : Moment) (r : Req) (s : State) (x : Index), serves opTchRepair m r s = true →
    let u := taken m r s
    getIndex u (r.f 0 1) = some x →
    r.reaches x.partition = true →
    x.dropping = none →
    (partGate opTchRepair r x.partition u).isOk = true →
    x.kind = 1 →
    opRoom u r.fn = true →
    exec (.tchRepair m r) s = .next (goesOn opTchRepair r ((startOp r 1 5 x.capacity true [r.f 0 1] u).2)))

/-- A sub-query that is not late runs on this chip's shard under a context and is answered with its hits. A shard's answer joins
its query and it is no longer waited for; at the query's time the shards still waited for are left out. A tombstone of 1 ms ago
that no query sees gives its slot back under the next generation. The Bench sweeps a graph in which a reclaim left a dangling
edge. -/
def Obligations.ShardsReclaimsAndRepair : Prop :=
  (∀ (m : Moment) (x : SubQuery) (i : Index) (s : State),
    let u := s.at m
    let v := swlGot x.link 0 (x.codes.length * (i.bits / 8)) u
    let w := runShard x.index i x.codes x.snapshot x.topK x.breadth x.visits x.probes (bindContext v)
    getIndex u x.index = some i →
    i.partition = x.partition →
    i.dropping = none →
    v.ct ≤ x.snapshot + 1000000 →
    contextFree v i.partition = true →
    exec (.tchSubqueryReceive m x) s = .next (sendSwl (.swilan x.link 1 8 x.tag [St.ok] (tchAnswerBytes w.1)) (freeContext w.2))) ∧
  (∀ (m : Moment) (k c status : Nat) (l : List (List ShardHit)) (q : Query) (s : State),
    let u := s.at m
    tget u.tch.queries k = some q →
    q.waiting.contains c = true →
    exec (.tchShardAnswer m k c status l) s = .next (tchShardDone k c (if status = 0 then some (l.map (fun l => l.map (fun h =>
      { label := h.label, slot := h.slot, dist := h.dist, chip := c }))) else none) (swlGot (linkTo u c) 1 (16 * (l.map
      List.length).sum) u))) ∧
  (∀ (m : Moment) (k : Nat) (q : Query) (s : State),
    let u := s.at m
    tget u.tch.queries k = some q →
    q.due ≤ u.ct →
    exec (.tchShardTimeout m k) s = .next (q.waiting.foldl (fun s c => tchShardDone k c none s) u)) ∧
  (∀ (k c : Nat) (hits : Option (List (List Hit))) (s : State) (q : Query), tget s.tch.queries k = some q → q.waiting.contains c =
    true → tchShardDone k c hits s = finishQuery k
    { s with tch := { s.tch with queries := tset s.tch.queries k { q with waiting := q.waiting.erase c, missing := if hits.isNone then q.missing ++ [c] else q.missing, hits := hits.elim q.hits (fun l => (List.range q.hits.length).map (fun j => bestOf leHit q.topK (q.hits.getD j [] ++ l.getD j []))) } }, swl := { s.swl with reqs := s.swl.reqs.filter (fun e => !(e.2.wait = .subQuery k && e.2.link = linkTo s c)) } }) ∧
  (∀ (m : Moment) (i slot : Nat) (x : Index) (a : Item) (s : State),
    let u := s.at m
    let w := bump .tchReclaimed x.partition 1 (setIndex i
      { x with items := tdel x.items slot, gens := tset x.gens slot (slotGen x slot + 1), entry := if x.entry = some slot then nextEntry x slot else x.entry, dangling := x.dangling || (tdel x.items slot).any (fun e => e.2.edges.any (fun f => f.slot = slot)) }
      u)
    getIndex u i = some x →
    tget x.items slot = some a →
    a.sstate = .tombstone →
    a.del + 1000000 ≤ u.ct →
    u.tch.queries.any (fun e => e.2.index = i && decide (e.2.snapshot < a.del)) = false →
    exec (.tchReclaim m i slot) s = .next (if slotGen x slot + 1 = 0xFFFF then note 0x0901 0 x.partition 0 [i, slot] (bump
      .tchRetired x.partition 1 w) else w)) ∧
  (∀ (m : Moment) (i : Nat) (x y : Index) (s : State),
    let u := s.at m
    let w := (sweep i u).2
    getIndex u i = some x →
    x.dangling = true →
    x.kind = 1 →
    getIndex w i = some y →
    exec (.tchRepairSweep m i) s = .next (setIndex i { y with repairPos := y.capacity } w))

/-- GTH_TABLE_LOAD of a new table, or with the fields of a defined one, and GTH_TABLE_PATCH of a CURRENT version begin the copy of
a new version in a free version, if the memory holds it. GTH_TABLE_DROP refuses new batches at once. GTH_HOT_SET replaces the hot
rows. GTH_RUN over indices in range answers the number of distinct rows, with the gathered or pooled rows behind the input in the
scatter list, at once or, by the moment's choice, as a long operation that binds the CURRENT version and ends by LONG_OP_END over
that version (log entry 10). GTH_TABLE_QUERY answers fields, versions and the number of hot rows. -/
def Obligations.GatherCommands : Prop :=
  (∀ (m : Moment) (r : Req) (s : State) (d : Bytes) (v : Nat) (place : List (Nat × Nat)), serves opGthTableLoad m r s = true →
    let u := taken m r s
    let x : GTable := { partition := r.part16, format := r.f 2 1, tier := r.f 3 1, rowBytes := r.f 4 2, rows := r.f 8 8 }
    tableFieldsOk r = true →
    thas u.gth.tables (r.f 0 2) = false →
    (inData r (r.f 8 8 * r.f 4 2) u).toOption = some d →
    pickIdx m 0 x.versions 4 = some v →
    placeUnits u x.partition x.tier (x.rows * x.rowBytes) = some place →
    opRoom u r.fn = true →
    exec (.gthTableLoad m r) s = .next (goesOn opGthTableLoad r (setTable (r.f 0 2)
      { x with versions := tset x.versions v { rows := rowsOf x.rows x.rowBytes d, extents := place } } (startOp r 1 6 x.rows true
      [r.f 0 2, v] u).2))) ∧
  (∀ (m : Moment) (r : Req) (s : State) (x : GTable) (d : Bytes) (v : Nat) (place : List (Nat × Nat)), serves opGthTableLoad m r s
    = true →
    let u := taken m r s
    r.f 0 2 < 1024 →
    getTable u (r.f 0 2) = some x →
    r.reaches x.partition = true →
    x.dropping = none →
    (partGate opGthTableLoad r x.partition u).isOk = true →
    tableFieldsOk r = true →
    x.format = r.f 2 1 →
    x.tier = r.f 3 1 →
    x.rowBytes = r.f 4 2 →
    x.rows = r.f 8 8 →
    (inData r (x.rows * x.rowBytes) u).toOption = some d →
    pickIdx m 0 x.versions 4 = some v →
    placeUnits u x.partition x.tier (x.rows * x.rowBytes) = some place →
    opRoom u r.fn = true →
    exec (.gthTableLoad m r) s = .next (goesOn opGthTableLoad r (setTable (r.f 0 2)
      { x with versions := tset x.versions v { rows := rowsOf x.rows x.rowBytes d, extents := place } } (startOp r 1 6 x.rows true
      [r.f 0 2, v] u).2))) ∧
  (∀ (m : Moment) (r : Req) (s : State) (x : GTable) (c : GVersion) (d : Bytes) (v : Nat) (place : List (Nat × Nat)), serves
    opGthTablePatch m r s = true →
    let u := taken m r s
    let w := 4 + x.rowBytes
    let recs := (List.range (r.f 4 4)).map (fun i => (field d (i * w) 4, slice d (i * w + 4) x.rowBytes))
    r.f 0 2 < 1024 →
    getTable u (r.f 0 2) = some x →
    r.reaches x.partition = true →
    x.dropping = none →
    (partGate opGthTablePatch r x.partition u).isOk = true →
    x.current = some c →
    (inData r (r.f 4 4 * w) u).toOption = some d →
    (List.range (r.f 4 4)).find? (fun i => decide (x.rows ≤ (recs.getD i (0, [])).1)) = none →
    pickIdx m 0 x.versions 4 = some v →
    placeUnits u x.partition x.tier (x.rows * x.rowBytes) = some place →
    opRoom u r.fn = true →
    exec (.gthTablePatch m r) s = .next (goesOn opGthTablePatch r (setTable (r.f 0 2)
      { x with versions := tset x.versions v { rows := recs.foldl (fun (l : List Bytes) e => l.set e.1 e.2) c.rows, extents := place } }
      (startOp r 1 6 x.rows true [r.f 0 2, v] u).2))) ∧
  (∀ (m : Moment) (r : Req) (s : State) (x : GTable), serves opGthTableDrop m r s = true →
    let u := taken m r s
    r.f 0 2 < 1024 →
    getTable u (r.f 0 2) = some x →
    r.reaches x.partition = true →
    x.dropping = none →
    (partGate opGthTableDrop r x.partition u).isOk = true →
    opRoom u r.fn = true →
    exec (.gthTableDrop m r) s = .next (goesOn opGthTableDrop r (setTable (r.f 0 2) { x with dropping := some u.bench.nextOp }
      (startOp r 1 0 0 false [r.f 0 2] u).2))) ∧
  (∀ (m : Moment) (r : Req) (s : State) (x : GTable) (d : Bytes), serves opGthHotSet m r s = true →
    let u := taken m r s
    let rows := codesOf 32 (r.f 4 4) d
    r.f 0 2 < 1024 →
    getTable u (r.f 0 2) = some x →
    r.reaches x.partition = true →
    x.dropping = none →
    (partGate opGthHotSet r x.partition u).isOk = true →
    r.f 4 4 ≤ 65536 →
    (inData r (4 * r.f 4 4) u).toOption = some d →
    (List.range (r.f 4 4)).find? (fun i => decide (x.rows ≤ rows.getD i 0)) = none →
    exec (.gthHotSet m r) s = .next (ended opGthHotSet r [] (setTable (r.f 0 2) { x with hot := rows.eraseDups } u))) ∧
  (∀ (m : Moment) (r : Req) (s : State) (x : GTable) (v : Nat) (c : GVersion) (d : Bytes) (l : List SgEntry), serves opGthRun m r
    s = true →
    let u := taken m r s
    let n := inputLen (r.f 2 1) (r.f 8 4) (r.f 4 4)
    let b := gatherOut x c (r.f 2 1) (r.f 3 1) (r.f 8 4) (batchIdx r d) (batchWts r d) (batchOffs r d)
    r.f 0 2 < 1024 →
    getTable u (r.f 0 2) = some x →
    r.reaches x.partition = true →
    x.dropping = none →
    (partGate opGthRun r x.partition u).isOk = true →
    r.f 2 1 ≤ 3 →
    1 ≤ r.f 4 4 ∧ r.f 4 4 ≤ 16777216 →
    (r.f 2 1 = 0 → r.f 3 1 = x.format) →
    (r.f 2 1 ≠ 0 → poolIn.contains x.format = true ∧ poolOut.contains (r.f 3 1) = true) →
    r.f 0x10 8 < partBytes u x.partition 1 →
    x.currentEntry = some (v, c) →
    (inData r n u).toOption = some d →
    offsetsOk (batchOffs r d) (r.f 4 4) = true →
    (List.range (r.f 4 4)).find? (fun i => decide (x.rows ≤ (batchIdx r d).getD i 0)) = none →
    m.choice.getD 0 0 % 2 = 0 →
    (sgCover r (n + b.length) u).toOption = some l →
    (sgWrite (sgDrop l n) b u).2 = none →
    (sgCover r (n + gatherLen x (r.f 2 1) (r.f 3 1) (r.f 8 4) (r.f 4 4)) u).isOk = true →
    exec (.gthRun m r) s = .next (ended opGthRun r (u64 (distinct (batchIdx r d)).length) (countBatch x (r.f 2 1) (r.f 8 4)
      (batchIdx r d) (batchOffs r d) (sgWrite (sgDrop l n) b u).1))) ∧
  (∀ (m : Moment) (r : Req) (s : State) (x : GTable) (v : Nat) (c : GVersion) (d : Bytes), serves opGthRun m r s = true →
    let u := taken m r s
    let n := inputLen (r.f 2 1) (r.f 8 4) (r.f 4 4)
    r.f 0 2 < 1024 →
    getTable u (r.f 0 2) = some x →
    r.reaches x.partition = true →
    x.dropping = none →
    (partGate opGthRun r x.partition u).isOk = true →
    r.f 2 1 ≤ 3 →
    1 ≤ r.f 4 4 ∧ r.f 4 4 ≤ 16777216 →
    (r.f 2 1 = 0 → r.f 3 1 = x.format) →
    (r.f 2 1 ≠ 0 → poolIn.contains x.format = true ∧ poolOut.contains (r.f 3 1) = true) →
    r.f 0x10 8 < partBytes u x.partition 1 →
    x.currentEntry = some (v, c) →
    (inData r n u).toOption = some d →
    offsetsOk (batchOffs r d) (r.f 4 4) = true →
    (List.range (r.f 4 4)).find? (fun i => decide (x.rows ≤ (batchIdx r d).getD i 0)) = none →
    m.choice.getD 0 0 % 2 = 1 →
    (sgCover r (n + gatherLen x (r.f 2 1) (r.f 3 1) (r.f 8 4) (r.f 4 4)) u).isOk = true →
    opRoom u r.fn = true →
    exec (.gthRun m r) s = .next (goesOn opGthRun r (bindBatch u.bench.nextOp (r.f 0 2) v x d (startOp r 1 6 (distinct (batchIdx r
      d)).length true [r.f 0 2, v] u).2))) ∧
  (∀ (m : Moment) (op : Nat) (ok : Bool) (o : LongOp) (b : GBatch) (x : GTable) (v : GVersion) (s : State),
    let u := s.at m
    getOp u op = some o →
    o.opcode = 0x090C →
    o.cancelling = false →
    u.swl.reqs = [] →
    tget u.gth.batches op = some b →
    getTable u b.table = some x →
    tget x.versions b.version = some v →
    exec (.longOpEnd m op ok) s = .next (settleAll m (endReply op (batchReply o.req { x with hot := b.hot } v b.data (bindVersion
      b.table b.version (· - 1) { u with gth := { u.gth with batches := tdel u.gth.batches op } }))))) ∧
  (∀ (m : Moment) (r : Req) (s : State) (x : GTable), serves opGthTableQuery m r s = true →
    let u := taken m r s
    r.f 0 2 < 1024 →
    getTable u (r.f 0 2) = some x →
    r.reaches x.partition = true →
    x.dropping = none →
    exec (.gthTableQuery m r) s = .next (ended opGthTableQuery r (u16 (r.f 0 2) ++ u8 x.format ++ u8 x.tier ++ u16 x.rowBytes ++
      zeros 2 ++ u64 x.rows ++ (List.range 4).flatMap (fun v => u8 (vstateCode (tget x.versions v)) ++ u32 (((tget x.versions
      v).map (·.bind)).getD 0)) ++ u32 x.hot.length) u))

/-- NET_PORT_SET stores mode, PFC and priority, and a mode change takes the port's links down; ETH_LINK_CHANGE sets an interface's
link. NET_QP_CONNECT with legal fields, a network key of its partition or none, and a free index makes a queue pair RTS and
answers its handle; NET_QP_CLOSE drains an RTS one and resets one in ERROR; NET_QP_QUERY reads it. NET_CC_SET sets the seven
parameters. NET_REGION_REG answers the key of a new region, NET_REGION_DEREG puts an unused one in quarantine, NET_REGION_QUERY
reads one, and 500 ms later its index is free. -/
def Obligations.PortsQueuePairsAndRegions : Prop :=
  (∀ (m : Moment) (r : Req) (s : State), serves opNetPortSet m r s = true →
    let u := taken m r s
    let x := getPort u (r.f 0 1)
    let v := setPort (r.f 0 1)
      { mode := r.f 1 1, pfc := r.f 2 1, gxPrio := r.f 3 1, linkUp := if r.f 1 1 = x.mode then x.linkUp else 0 } u
    r.f 0 1 ≤ 7 →
    r.f 1 1 ≤ 2 →
    r.f 3 1 ≤ 7 →
    popcount 8 (r.f 2 1) ≤ 2 →
    bit (r.f 2 1) (r.f 3 1) = false →
    exec (.netPortSet m r) s = .next (ended opNetPortSet r [] (if r.f 1 1 = x.mode then v else failDownQps m ((setBits 4
      x.linkUp).foldl (fun s k => noteLink (4 * r.f 0 1 + k) false s) v)))) ∧
  (∀ (m : Moment) (r : Req) (s : State), serves opNetPortQuery m r s = true →
    let u := taken m r s
    let w := (portSubs u (r.f 0 1)).foldl (fun (a : Bytes × State) _ => (a.1 ++ u16 (modeRate (getPort u (r.f 0 1)).mode / 1000)
      ++ u64 (fresh a.2).1 ++ u64 (fresh (fresh a.2).2).1, (fresh (fresh a.2).2).2)) ([], u)
    r.f 0 1 ≤ 7 →
    exec (.netPortQuery m r) s = .next (ended opNetPortQuery r (u32 (portState u (r.f 0 1)) ++ w.1) (w.2))) ∧
  (∀ (m : Moment) (ifc : Nat) (s : State),
    let u := s.at m
    ifPresent u ifc = true →
    bit (getPort u (ifc / 4)).linkUp (ifc % 4) = false →
    u.elec.sdref = true →
    2 ≤ (getGroup u (0x28 + ifc / 4)).state →
    exec (.ethLinkChange m ifc true) s = .next (failDownQps m (noteLink ifc true (setPort (ifc / 4)
      { (getPort u (ifc / 4)) with linkUp := (getPort u (ifc / 4)).linkUp + 2 ^ (ifc % 4) } u)))) ∧
  (∀ (m : Moment) (ifc : Nat) (s : State),
    let u := s.at m
    ifPresent u ifc = true →
    bit (getPort u (ifc / 4)).linkUp (ifc % 4) = true →
    exec (.ethLinkChange m ifc false) s = .next (failDownQps m (noteLink ifc false (setPort (ifc / 4)
      { (getPort u (ifc / 4)) with linkUp := (getPort u (ifc / 4)).linkUp - 2 ^ (ifc % 4) } u)))) ∧
  (∀ (m : Moment) (r : Req) (s : State) (i : Nat), serves opNetQpConnect m r s = true →
    let u := taken m r s
    let q : Qp :=
      { gx := r.f 0 1 = 1, partition := r.part16, paths := r.f 1 1, ifMask := r.f 4 4, peerQpn := r.f 8 4, sqPsn := r.f 0x0C 4, cumPsn := r.f 0x10 4, mtu := r.f 0x14 2, sport := r.f 0x16 2, peerAddr := r.b 0x18 16, peerMac := r.b 0x28 6, keyId := r.f 0x30 4, txSalt := r.f 0x34 4, rxSalt := r.f 0x38 4, ctInc := u.ct }
    let v := setQp i
      { q with rate := if (ccOf u r.part16).rateInit = 0 then rateMax u q else min (ccOf u r.part16).rateInit (rateMax u q) } u
    qpConnectOk r u = true →
    (qpKeyCheck r.part16 (r.f 0x30 4) u).isOk = true →
    (u.net.qps.filter (fun e => e.2.partition = r.part16)).length < qpRoom u r.part16 →
    pickIdx m 0 u.net.qps 16384 = some i →
    exec (.netQpConnect m r) s = .next (ended opNetQpConnect r (u32 (qpHandle v i)) (v))) ∧
  (∀ (m : Moment) (r : Req) (s : State) (i : Nat) (q : Qp), serves opNetQpClose m r s = true →
    let u := taken m r s
    let v := (startOp r 0 0 0 true [] u).2
    qpFor r u (r.f 0 4) = some (i, q) →
    q.state = .rts →
    opRoom u r.fn = true →
    exec (.netQpClose m r) s = .next (goesOn opNetQpClose r (setQp i
      { q with state := .draining, drainOp := u.bench.nextOp, drainDue := v.ct + q.ackTo * q.retryLim } v))) ∧
  (∀ (m : Moment) (r : Req) (s : State) (i : Nat) (q : Qp), serves opNetQpClose m r s = true →
    let u := taken m r s
    qpFor r u (r.f 0 4) = some (i, q) →
    q.state = .error →
    opRoom u r.fn = true →
    exec (.netQpClose m r) s = .next (goesOn opNetQpClose r (qpReset i (startOp r 0 0 0 true [] u).2))) ∧
  (∀ (m : Moment) (r : Req) (s : State) (i : Nat) (q : Qp), serves opNetQpQuery m r s = true →
    let u := taken m r s
    qpFor r u (r.f 0 4) = some (i, q) →
    exec (.netQpQuery m r) s = .next (ended opNetQpQuery r (u8 (qpStateCode q.state) ++ u8 (b2n q.gx) ++ u16 (pathsLive u q) ++
      u32 q.rate ++ u32 q.sqPsn ++ u32 q.cumPsn ++ u16 (q.rx.filter (fun e => e.2.held)).length ++ u32 q.msgNext) u)) ∧
  (∀ (m : Moment) (r : Req) (s : State), serves opNetCcSet m r s = true →
    let u := taken m r s
    (partGate opNetCcSet r (r.f 0 1) u).isOk = true →
    (ccFrom r).ok = true →
    exec (.netCcSet m r) s = .next (ended opNetCcSet r []
      ({ u with net := { u.net with cc := tset u.net.cc (r.f 0 1) (ccFrom r) } }))) ∧
  (∀ (m : Moment) (r : Req) (s : State) (i : Nat), serves opNetRegionReg m r s = true →
    let u := taken m r s
    let g := (tgetD u.net.regGens i 0 + 1) % 256
    r.f 8 8 ≠ 0 →
    r.f 8 8 ≤ 2 ^ 48 →
    r.f 4 4 = ones32 ∨ r.f 4 4 < 16384 →
    regionPlaceOk u r.part16 (r.f 0 1) (r.f 8 8) (r.f 0x10 8) = true →
    freeFrom (fun i => i = 0 || thas u.net.regions i) 1048576 (u.net.regions.length + 2) (m.choice.getD 0 0 % 1048576) = some i →
    exec (.netRegionReg m r) s = .next (ended opNetRegionReg r (u32 (i * 256 + g))
      ({ u with net := { u.net with regions := tset u.net.regions i { partition := r.part16, backing := r.f 0 1, write := bit (r.f 1 1) 1, read := bit (r.f 1 1) 0, gen := g, scope := r.f 4 4, length := r.f 8 8, base := r.f 0x10 8 }, regGens := tset u.net.regGens i g } }))) ∧
  (∀ (m : Moment) (r : Req) (s : State) (i : Nat) (x : Region), serves opNetRegionDereg m r s = true →
    let u := taken m r s
    (regionOf u (r.f 0 4)).filter (fun e => r.reaches e.2.partition) = some (i, x) →
    regionUsed u (r.f 0 4) x = false →
    exec (.netRegionDereg m r) s = .next (ended opNetRegionDereg r []
      ({ u with net := { u.net with regions := tset u.net.regions i { x with rstate := .quarantine, ctDereg := u.ct } } }))) ∧
  (∀ (m : Moment) (r : Req) (s : State) (x : Region), serves opNetRegionQuery m r s = true →
    let u := taken m r s
    (tget u.net.regions (r.f 0 4 / 256)).filter (fun x => x.gen = r.f 0 4 % 256 && r.reaches x.partition) = some x →
    exec (.netRegionQuery m r) s = .next (ended opNetRegionQuery r (regionBytes x) u)) ∧
  (∀ (m : Moment) (n : Nat) (x : Region) (s : State),
    let u := s.at m
    tget u.net.regions n = some x →
    x.rstate = .quarantine →
    x.ctDereg + 500000000 ≤ u.ct →
    exec (.regionQuarantineExpiry m n) s = .next ({ u with net := { u.net with regions := tdel u.net.regions n } }))

/-- NET_POST of legal work requests sends them in order as one operation. NET_CHAIN_POST posts a chain, or arms it for admission,
and answers its handle; NET_CHAIN_CANCEL frees one that does not fire. NET_MAP_UPDATE applies its changes under the partition's
next epoch and drains the old targets; with nothing outstanding against them the update ends with its epoch. NET_MAP_SWAP holds
requests to composed ranges; a swap past its hold ends CANCELLED while requests are outstanding. NET_MAP_READ answers range
entries. NET_PTP_SET sets the PTP ports and profile. -/
def Obligations.PostsChainsAndTheComposedMap : Prop :=
  (∀ (m : Moment) (r : Req) (s : State) (i : Nat) (q : Qp) (b : Bytes), serves opNetPost m r s = true →
    let u := taken m r s
    let l := (List.range (r.f 4 4)).map (fun j => postWr (slice b (64 * j) 64))
    qpFor r u (r.f 0 4) = some (i, q) →
    (qpReady u i).isOk = true →
    (inData r (64 * r.f 4 4) u).toOption = some b →
    l.all (postWrOk u q) = true →
    r.f 4 4 ≠ 0 →
    opRoom u r.fn = true →
    (List.range (r.f 4 4)).all (fun j => postGap (slice b (64 * j) 64)) = true →
    exec (.netPost m r) s = .next (goesOn opNetPost r (spentMsgs m (postAll u.bench.nextOp i l (startOp r 0 1 ((l.map
      (·.length)).sum) true [r.f 4 4, 0] u).2)))) ∧
  (∀ (m : Moment) (r : Req) (s : State) (i : Nat) (q : Qp), serves opNetPost m r s = true →
    let u := taken m r s
    qpFor r u (r.f 0 4) = some (i, q) →
    (qpReady u i).isOk = true →
    r.f 4 4 = 0 →
    (inData r 0 u).isOk = true →
    exec (.netPost m r) s = .next (ended opNetPost r (u32 0) u)) ∧
  (∀ (m : Moment) (r : Req) (s : State) (i : Nat), serves opNetChainPost m r s = true →
    let u := taken m r s
    let wrs := (List.range (r.f 0x0D 1)).map (fun i => r.b (0x40 + 32 * i) 32)
    let c : Chain :=
      { cstate := if r.f 0x0C 1 = 1 then .armed else .posted, gen := tgetD u.net.chainGens i 0, partition := r.part16, tag := r.f 4 4, qp := r.f 0 4, landing := r.f 8 4, wrs, template := r.b 0x140 256, admission := r.f 0x0C 1 = 1 }
    (chainPostCheck r r.part16 wrs u).isOk = true →
    pickIdx m 0 u.net.chains 65536 = some i →
    exec (.netChainPost m r) s = .next (ended opNetChainPost r (u32 (chainHandle i c))
      ({ u with net := { u.net with chains := tset u.net.chains i c } }))) ∧
  (∀ (m : Moment) (r : Req) (s : State) (c : Chain), serves opNetChainCancel m r s = true →
    let u := taken m r s
    (tget u.net.chains (r.f 0 4 % 65536)).filter (fun c => c.gen = r.f 0 4 / 65536 && r.reaches c.partition) = some c →
    c.cstate ≠ .firing →
    exec (.netChainCancel m r) s = .next (ended opNetChainCancel r [] (freeChain (r.f 0 4 % 65536) u))) ∧
  (∀ (m : Moment) (r : Req) (s : State), serves opNetMapUpdate m r s = true →
    let u := taken m r s
    let l := (List.range (r.f 0 1)).map (fun i => r.b (0x40 + 64 * i) 64)
    let v := (startOp r 1 0 0 true [nextEpoch u r.part16] u).2
    let e := nextEpoch v r.part16
    let w := setEpoch r.part16 e (l.foldl (fun s b => mapApply r.part16 e true (mapChange b) s) v)
    let moved := (l.map (fun b => (mapChange b).range)).filter (fun k => (tget w.net.ranges k).any (·.switching))
    r.f 0 1 ≠ 0 →
    r.f 0 1 ≤ 64 →
    (mapCheck r.part16 l u).isOk = true →
    opRoom u r.fn = true →
    exec (.netMapUpdate m r) s = .next (goesOn opNetMapUpdate r (setMapOp u.bench.nextOp
      { op := u.bench.nextOp, partition := r.part16, swap := false, phase := 1, ranges := moved, epoch := e } w))) ∧
  (∀ (m : Moment) (p : Nat) (s : State), exec (.mapUpdateDrained m p) s = .next ((tfind (s.at m).net.mapOps (fun x => x.partition
    = p && !x.swap)).foldl (fun s n => mapUpdateEnd n (mapDrain n s)) (s.at m))) ∧
  (∀ (n : Nat) (s : State) (x : MapOp), tget s.net.mapOps n = some x → x.swap = false → mapDrained s x = true →
  let v := x.ranges.foldl (fun s k =>
    { s with net := { s.net with ranges := tmod s.net.ranges k (fun y => { y with switching := false, oldConn := 0, oldKey := 0, oldOffset := 0 }) } })
    s
  stopping v n = false →
  mapUpdateEnd n s = endOp n 0 0 (u32 x.epoch) (note 0x0A07 0 x.partition 0 [x.partition, x.epoch] (delMapOp n v))) ∧
  (∀ (m : Moment) (r : Req) (s : State) (b : Bytes), serves opNetMapSwap m r s = true →
    let u := taken m r s
    let l := (List.range (r.f 4 4)).map (fun i => slice b (64 * i) 64)
    let v := (startOp r 1 0 0 true [] u).2
    (partGate opNetMapSwap r (r.f 0 1) u).isOk = true →
    r.f 4 4 ≤ 65535 →
    (inData r (64 * r.f 4 4) u).toOption = some b →
    (mapSwapCheck (r.f 0 1) l u).isOk = true →
    opRoom u r.fn = true →
    exec (.netMapSwap m r) s = .next (goesOn opNetMapSwap r (setMapOp u.bench.nextOp
      { op := u.bench.nextOp, partition := r.f 0 1, swap := true, phase := 1, changes := l, due := v.ct + v.net.swapHold } v))) ∧
  (∀ (m : Moment) (p n : Nat) (x : MapOp) (s : State),
    let u := s.at m
    u.net.mapOps.find? (fun e => e.2.swap && e.2.partition = p) = some (n, x) →
    x.due ≤ u.ct →
    x.phase ≤ 2 →
    0 < mapOutstanding u p →
    exec (.mapSwapHoldExpiry m p) s = .next (endOp n St.cancelled 0 [] (delMapOp n u))) ∧
  (∀ (m : Moment) (p n : Nat) (x : MapOp) (s : State),
    let u := s.at m
    u.net.mapOps.find? (fun e => e.2.swap && e.2.partition = p) = some (n, x) →
    x.due ≤ u.ct →
    x.phase ≤ 2 →
    mapOutstanding u p = 0 →
    exec (.mapSwapHoldExpiry m p) s = .next (mapSwapNext n u)) ∧
  (∀ (m : Moment) (r : Req) (s : State), serves opNetMapRead m r s = true →
    let u := taken m r s
    r.f 2 2 ≠ 0 →
    r.f 2 2 ≤ 60 →
    r.f 0 2 + r.f 2 2 ≤ 65535 →
    exec (.netMapRead m r) s = .next (ended opNetMapRead r ((List.range (r.f 2 2)).flatMap (fun i => ((tget u.net.ranges (r.f 0 2
      + i)).map (fun x => if r.reaches x.partition then rangeBytes u (r.f 0 2 + i) else zeros 64)).getD (rangeBytes u (r.f 0 2 +
      i)))) u)) ∧
  (∀ (m : Moment) (r : Req) (s : State), serves opNetPtpSet m r s = true →
    let u := taken m r s
    let same : Bool := u.net.ptp.profile = r.f 4 1 && u.net.ptp.transport = r.f 5 1 && u.net.ptp.domain = r.f 6 1
    (setBits 32 (r.f 0 4)).all (ifPresent u) = true →
    r.f 4 1 ≤ 1 →
    r.f 5 1 ≤ 2 →
    r.f 6 1 ≤ 127 →
    exec (.netPtpSet m r) s = .next (ended opNetPtpSet r []
      ({ u with net := { u.net with ptp := { ifMask := r.f 0 4, profile := r.f 4 1, transport := r.f 5 1, domain := r.f 6 1, selected := if same then u.net.ptp.selected.filter (bit (r.f 0 4)) else none, heard := if same then u.net.ptp.heard.filter (fun e => bit (r.f 0 4) e.1) else [] } } })))

/-- A packet that reaches a GX queue pair with no stall, passes the checks of R357 and needs only resident pages is answered with
a CNP where it is marked, and then placed (data), held or applied (a seal), answered (a read request) or put at its requester's
destination (a response). An acknowledgement retires what it covers, completes the messages, and acts on its NAK. -/
def Obligations.GxPacketsAreTaken : Prop :=
  (∀ (m : Moment) (p w : Pkt) (q z : Qp) (j : Nat) (r : Region) (s : State),
    let u := s.at m
    let v := answerCe p.qp p u
    (arrives p.qp p u).1 = true →
    getQp u p.qp = some q →
    q.gx = true →
    z.stalled.isEmpty = true →
    getQp v p.qp = some z →
    (gxChecks m p.qp z p v).packet = some w →
    isResponse w = false →
    regionOf v w.key = some (j, r) →
    (missingList v r (gxAccess w).2.1 (gxAccess w).2.2).isEmpty = true →
    w.opcode ≠ 0xE1 →
    bit w.flags 7 = false →
    exec (.gxDataReceive m p) s = .next (settleAll m (gxPlace m p.qp w v))) ∧
  (∀ (m : Moment) (p w : Pkt) (q z : Qp) (j : Nat) (r : Region) (s : State),
    let u := s.at m
    let v := answerCe p.qp p u
    (arrives p.qp p u).1 = true →
    getQp u p.qp = some q →
    q.gx = true →
    z.stalled.isEmpty = true →
    getQp v p.qp = some z →
    (gxChecks m p.qp z p v).packet = some w →
    isResponse w = false →
    regionOf v w.key = some (j, r) →
    (missingList v r (gxAccess w).2.1 (gxAccess w).2.2).isEmpty = true →
    w.opcode ≠ 0xE1 →
    bit w.flags 7 = true →
    exec (.gxSealReceive m p) s = .next (settleAll m (gxSealIn m p.qp w v))) ∧
  (∀ (m : Moment) (p w : Pkt) (q z : Qp) (j : Nat) (r : Region) (s : State),
    let u := s.at m
    let v := answerCe p.qp p u
    (arrives p.qp p u).1 = true →
    getQp u p.qp = some q →
    q.gx = true →
    z.stalled.isEmpty = true →
    getQp v p.qp = some z →
    (gxChecks m p.qp z p v).packet = some w →
    isResponse w = false →
    regionOf v w.key = some (j, r) →
    (missingList v r (gxAccess w).2.1 (gxAccess w).2.2).isEmpty = true →
    w.opcode = 0xE1 →
    exec (.gxReadReceive m p) s = .next (settleAll m (gxAnswer m p.qp w r v))) ∧
  (∀ (m : Moment) (p w : Pkt) (q z : Qp) (s : State),
    let u := s.at m
    let v := answerCe p.qp p u
    (arrives p.qp p u).1 = true →
    getQp u p.qp = some q →
    q.gx = true →
    z.stalled.isEmpty = true →
    getQp v p.qp = some z →
    (gxChecks m p.qp z p v).packet = some w →
    isResponse w = true →
    exec (.gxDataReceive m p) s = .next (settleAll m (gxResponse p.qp w v))) ∧
  (∀ (m : Moment) (p : Pkt) (q : Qp) (s : State),
    let u := s.at m
    let msg := (tget q.tx p.ackPsn).map (·.pkt.msg)
    (arrives p.qp p u).1 = true →
    getQp u p.qp = some q →
    q.gx = true →
    gxWellFormed q p = true →
    p.opcode = 0xE2 →
    gxAged u p = false →
    exec (.gxAckReceive m p) s = .next (settleAll m (if p.nak = 0x11 || p.nak = 0x12 || p.nak = 0x13 then ackDone p.qp p.psn
      (gxNak m p.qp p msg (ackCovers p.qp p u)) else gxNak m p.qp p msg (ackDone p.qp p.psn (ackCovers p.qp p u))))) ∧
  (∀ (m : Moment) (p : Pkt) (q z : Qp) (s : State),
    let u := s.at m
    let v := answerCe p.qp p u
    (arrives p.qp p u).1 = true →
    getQp u p.qp = some q →
    q.gx = false →
    p.bth ≤ 0x0C →
    p.psn = q.cumPsn →
    getQp v p.qp = some z →
    exec (.rcPacketReceive m p) s = .next (settleAll m (rcRequest m p.qp z p v))) ∧
  (∀ (m : Moment) (p : Pkt) (q : Qp) (s : State),
    let u := s.at m
    (arrives p.qp p u).1 = true →
    getQp u p.qp = some q →
    q.gx = false →
    p.bth = 0x11 →
    exec (.rcPacketReceive m p) s = .next (settleAll m (rcAckIn m p.qp p (answerCe p.qp p u)))) ∧
  (∀ (m : Moment) (i : Nat) (q : Qp) (s : State),
    let u := s.at m
    getQp u i = some q →
    exec (.cnpReceive m i) s = .next (ccDecrease i (bump .netCnpRecv q.partition 1 u))) ∧
  (∀ (m : Moment) (i : Nat) (q : Qp) (s : State),
    let u := s.at m
    getQp u i = some q →
    q.ctInc + 1000 * (ccOf u q.partition).aiPeriod ≤ u.ct →
    exec (.ccRateIncrease m i) s = .next (setQp i
      { q with rate := min (rateMax u q) (q.rate + (ccOf u q.partition).aiStep), ctInc := u.ct } u))

/-- A due GX acknowledgement goes out at most once per 1 µs. An unacknowledged packet past its timeout is sent again over the next
path, with the rate decreased, or its queue pair enters ERROR at the retry limit or after 1.5 s; the same for RC from its oldest
packet. A packet whose NAK backoff has passed is sent again, and a suspended path is used again. A held seal past its time fails.
A drained queue pair returns to RESET and its close ends. A stall of 50 µs is answered with RETRY_NOT_RESIDENT. -/
def Obligations.NetworkTimersAndEnds : Prop :=
  (∀ (m : Moment) (i : Nat) (q : Qp) (s : State),
    let u := s.at m
    getQp u i = some q →
    q.gx = true →
    q.ackDue = true →
    q.ctAck.all (fun c => decide (c + 1000 ≤ u.ct)) = true →
    exec (.gxAckTimer m i) s = .next (sendAck i 0 0 0 0 u)) ∧
  (∀ (m : Moment) (i n : Nat) (q : Qp) (t : TxPkt) (s : State),
    let u := s.at m
    getQp u i = some q →
    tget q.tx n = some t →
    q.gx = true →
    t.sacked = false →
    t.resend = none →
    t.ctLast + q.ackTo ≤ u.ct →
    exec (.gxAckTimeout m i n) s = .next (if q.retryLim ≤ q.timeouts + 1 || tooOld u t then qpFail m i 1 u else resend i n
      (ccDecrease i (pathTimeout i t.path (setQp i { q with timeouts := q.timeouts + 1 } u))))) ∧
  (∀ (m : Moment) (i n c : Nat) (t : TxPkt) (s : State),
    let u := s.at m
    (getQp u i).bind (fun q => tget q.tx n) = some t →
    t.resend = some c →
    c ≤ u.ct →
    exec (.gxNakBackoffExpiry m i n) s = .next (if (getQp u i).any (·.gx) && tooOld u t then qpFail m i 1 u else resend i n u)) ∧
  (∀ (m : Moment) (i n c : Nat) (q : Qp) (s : State),
    let u := s.at m
    getQp u i = some q →
    tget q.pathSkip n = some c →
    c ≤ u.ct →
    exec (.gxPathResume m i n) s = .next (setQp i { q with pathSkip := tdel q.pathSkip n } u)) ∧
  (∀ (m : Moment) (i n : Nat) (q : Qp) (t : TxPkt) (s : State),
    let u := s.at m
    getQp u i = some q →
    q.tx.head? = some (n, t) →
    q.gx = false →
    t.ctLast + q.ackTo ≤ u.ct →
    exec (.rcLocalAckTimeout m i) s = .next (if q.retryLim ≤ q.timeouts + 1 then qpFail m i 1 u else q.tx.foldl (fun s t => resend
      i t.1 s) (ccDecrease i (setQp i { q with timeouts := q.timeouts + 1 } u)))) ∧
  (∀ (m : Moment) (i n : Nat) (q : Qp) (x : RxMsg) (p : Pkt) (s : State),
    let u := s.at m
    let v := bump .netSealFailed q.partition 1 (freeSeal i n u)
    let w := setRx i n { (getRx v i n) with failed := true } v
    getQp u i = some q →
    tget q.rx n = some x →
    x.sealPkt = some p →
    x.held = true →
    x.ctSeal + q.sealTo ≤ u.ct →
    exec (.sealTimeout m i n) s = .next (settleAll m (settleCum i (applySeals m i 600 (sendAck i 0x13 p.psn 0 0 (if bit p.flags 6
      then chainSealFailed q.partition (qpHandle w i) p.tag w else w)))))) ∧
  (∀ (m : Moment) (i : Nat) (q : Qp) (s : State),
    let u := s.at m
    getQp u i = some q →
    q.state = .draining →
    q.msgs.all (fun x => x.2.done || x.2.failed ≠ 0) = true ∨ q.drainDue ≤ u.ct →
    exec (.qpDrainEnd m i) s = .next (endOp q.drainOp (if stopping u q.drainOp then St.cancelled else St.ok) 0 [] (qpReset i u))) ∧
  (∀ (m : Moment) (i : Nat) (q : Qp) (p : Pkt) (l : List Pkt) (s : State),
    let u := s.at m
    let v : State := { (fresh u).2 with net := { (fresh u).2.net with staging := (fresh u).2.net.staging - q.stalled.length } }
    getQp u i = some q →
    q.stalled = p :: l →
    q.ctStall + 50000 ≤ u.ct →
    exec (.notResidentStallExpiry m i) s = .next (settleAll m (l.foldl (fun s p => gxGo m p s) (sendAck i 2 p.psn (residentBackoff
      (fresh u).1) 0 (setQp i { q with stalled := [] } (move Lg.staging 0 1 0 q.stalled.length 10 0 v))))))

/-- NVME_CONNECT over an RC queue pair in RTS takes a controller and sends Connect and Identify as an operation; their completion
makes it connected with its namespaces. NVME_DISCONNECT fails outstanding I/O and drops the controller, as does a lapse of Keep
Alive. A completion reaches the unit that issued the command. A Sync of the selected interface, at an interval in range, gives an
offset; an Announce enters the best master selection, and one not renewed within three intervals leaves it; Syncs absent for four
intervals lose PTP. -/
def Obligations.NvmeAndPtp : Prop :=
  (∀ (m : Moment) (r : Req) (s : State) (i c : Nat) (x : Qp), serves opNvmeConnect m r s = true →
    let u := taken m r s
    let v := (startOp r 0 0 0 false [c] u).2
    qpOf u (r.f 0 4) = some (i, x) →
    x.gx = false →
    1 ≤ r.f 0x210 1 ∧ r.f 0x210 1 ≤ 64 →
    16 ≤ r.f 0x212 2 ∧ r.f 0x212 2 ≤ 1024 →
    x.state = .rts →
    pickIdx m 0 u.net.ctrls 64 = some c →
    opRoom u r.fn = true →
    exec (.nvmeConnect m r) s = .next (goesOn opNvmeConnect r (nvmeIssue c 0 3 0 0 (r.b 0x10 512)
      { controller := c, owner := .connect u.bench.nextOp }
      { v with net := { v.net with ctrls := tset v.net.ctrls c { handle := r.f 0 4, subnqn := r.b 0x10 256, hostnqn := r.b 0x110 256, ioQueues := r.f 0x210 1, depth := r.f 0x212 2, op := u.bench.nextOp } } }))) ∧
  (∀ (m : Moment) (r : Req) (s : State), serves opNvmeDisconnect m r s = true →
    let u := taken m r s
    (tget u.net.ctrls (r.f 0 1)).isSome = true →
    opRoom u r.fn = true →
    exec (.nvmeDisconnect m r) s = .next (settleAll m (goesOn opNvmeDisconnect r (dropCtrl (r.f 0 1) (nvmeFailAll m (r.f 0 1)
      (startOp r 0 0 0 false [r.f 0 1] u).2))))) ∧
  (∀ (m : Moment) (n k : Nat) (ok : Bool) (data : Bytes) (c : NvCmd) (s : State),
    let u := s.at m
    tget u.net.cmds n = some c →
    c.owner = .connect k →
    exec (.nvmeCompletionReceive m n ok data) s = .next (settleAll m (connectIo k ok data
      { u with net := { u.net with cmds := tdel u.net.cmds n } }))) ∧
  (∀ (m : Moment) (n g : Nat) (ok : Bool) (data : Bytes) (c : NvCmd) (s : State),
    let u := s.at m
    tget u.net.cmds n = some c →
    c.owner = .cut g →
    exec (.nvmeCompletionReceive m n ok data) s = .next (settleAll m (cutIo g c ok
      { u with net := { u.net with cmds := tdel u.net.cmds n } }))) ∧
  (∀ (m : Moment) (n g : Nat) (ok : Bool) (data : Bytes) (c : NvCmd) (s : State),
    let u := s.at m
    tget u.net.cmds n = some c →
    c.owner = .restore g →
    exec (.nvmeCompletionReceive m n ok data) s = .next (settleAll m (restoreIo g ok data
      { u with net := { u.net with cmds := tdel u.net.cmds n } }))) ∧
  (∀ (n c : Nat) (data : Bytes) (s : State) (x : NvCtrl), s.net.ctrls.find? (fun e => e.2.op = n) = some (c, x) → (namespacesOf
    data).any (fun e => !((e.2.1 = 512 || e.2.1 = 4096) && e.2.2)) = false →
  connectIo n true data s = endOp n 0 0 (u8 c ++ u32 (namespacesOf data).length)
    { s with net := { s.net with ctrls := tset s.net.ctrls c { x with connected := true, op := 0, namespaces := (namespacesOf data).foldl (fun t e => tset t e.1 e.2.1) [] } } }) ∧
  (∀ (m : Moment) (c : Nat) (s : State),
    let u := s.at m
    (tget u.net.ctrls c).isSome = true →
    exec (.nvmeKeepaliveLapse m c) s = .next (settleAll m (dropCtrl c (nvmeFailAll m c (note 0x0A08 1 0xFF 0 [c, 1] u))))) ∧
  (∀ (m : Moment) (i every : Nat) (theta : Int) (s : State),
    let u := s.at m
    bit u.net.ptp.ifMask i = true →
    syncEvery every = true →
    u.net.ptp.selected = some i →
    exec (.ptpMessageReceive m (.sync i theta every)) s = .next (ptpSync theta every u)) ∧
  (∀ (m : Moment) (i rank every : Nat) (s : State),
    let u := s.at m
    bit u.net.ptp.ifMask i = true →
    announceEvery every = true →
    exec (.ptpMessageReceive m (.announce i rank every)) s = .next (ptpSelect
      { u with net := { u.net with ptp := { u.net.ptp with heard := tset u.net.ptp.heard i (rank, every, u.ct) } } })) ∧
  (∀ (m : Moment) (i rank every ct : Nat) (s : State),
    let u := s.at m
    tget u.net.ptp.heard i = some (rank, every, ct) →
    ct + 3 * every ≤ u.ct →
    exec (.ptpAnnounceTimeout m i) s = .next (ptpSelect
      { u with net := { u.net with ptp := { u.net.ptp with heard := tdel u.net.ptp.heard i } } })) ∧
  (∀ (m : Moment) (ct : Nat) (s : State),
    let u := s.at m
    u.clk.ptpLast = some ct →
    ct + 4 * u.clk.ptpEvery ≤ u.ct ∨ u.net.ptp.selected = none →
    exec (.ptpSourceLoss m) s = .next (sourceLost 1 (modClk (fun c => { c with ptpLast := none, skewRun := 0 }) u)))

/-- SWL_QUERY answers the 20 bytes of a link. SWL_LINK_SET retrains a link that is up or starts a faulted one, holds a link
DISABLED, and releases one whose group is on. A training that finds the expected peer of the same release on four or more lanes
brings the link UP or DEGRADED; a wrong peer, another release and the third training with too few lanes fault it; no peer within
100 ms makes it ABSENT, and 1 s later it trains again. A CRC error asks for replay, a REPLAY request sends again what is
unacknowledged, and returned credits let waiting messages go. -/
def Obligations.LinksTrainReplayAndCredit : Prop :=
  (∀ (m : Moment) (r : Req) (s : State), serves opSwlQuery m r s = true →
    let u := taken m r s
    r.f 0 1 ≤ 6 ∨ r.f 0 1 = 0xFF →
    exec (.swlQuery m r) s = .next (ended opSwlQuery r (if r.f 0 1 = 0xFF then (List.range 7).flatMap (fun k => linkBytes (getLink
      u k)) else linkBytes (getLink u (r.f 0 1))) u)) ∧
  (∀ (m : Moment) (r : Req) (s : State), serves opSwlLinkSet m r s = true →
    let u := taken m r s
    r.f 0 1 ≤ 6 →
    r.f 1 1 = 0 →
    (getLink u (r.f 0 1)).up = true →
    exec (.swlLinkSet m r) s = .next (settleAll m (ended opSwlLinkSet r [] (retrain (r.f 0 1) 0 u)))) ∧
  (∀ (m : Moment) (r : Req) (s : State), serves opSwlLinkSet m r s = true →
    let u := taken m r s
    r.f 0 1 ≤ 6 →
    r.f 1 1 = 0 →
    (getLink u (r.f 0 1)).lstate = .fault →
    exec (.swlLinkSet m r) s = .next (settleAll m (ended opSwlLinkSet r [] (startTraining (r.f 0 1) u)))) ∧
  (∀ (m : Moment) (r : Req) (s : State), serves opSwlLinkSet m r s = true →
    let u := taken m r s
    r.f 0 1 ≤ 6 →
    r.f 1 1 = 1 →
    exec (.swlLinkSet m r) s = .next (settleAll m (ended opSwlLinkSet r [] (disableLink (r.f 0 1) u)))) ∧
  (∀ (m : Moment) (r : Req) (s : State), serves opSwlLinkSet m r s = true →
    let u := taken m r s
    r.f 0 1 ≤ 6 →
    r.f 1 1 = 2 →
    (getLink u (r.f 0 1)).lstate = .disabled →
    2 ≤ (getGroup u (0x30 + r.f 0 1)).state →
    exec (.swlLinkSet m r) s = .next (settleAll m (ended opSwlLinkSet r [] (startTraining (r.f 0 1) u)))) ∧
  (∀ (m : Moment) (n : Nat) (id : TrainId) (s : State),
    let u := s.at m
    let v := modLink n (fun l => { l with peerChip := id.chip % 8, peerCode := id.code }) (modLink n (fun l =>
      { l with lanes := id.lanes % 256, empty := false }) u)
    n ≤ 6 →
    (getLink u n).lstate = .training →
    u.elec.sdref = true →
    4 ≤ popcount 8 id.lanes →
    id.chip = linkPeer v n →
    id.link = 6 - n →
    id.release = v.bench.fwVersion / 65536 →
    exec (.swlTrainIdentity m n id) s = .next (settleAll m (linkCome n id v))) ∧
  (∀ (m : Moment) (n : Nat) (id : TrainId) (s : State),
    let u := s.at m
    let v := modLink n (fun l => { l with peerChip := id.chip % 8, peerCode := id.code }) (modLink n (fun l =>
      { l with lanes := id.lanes % 256, empty := false }) u)
    n ≤ 6 →
    (getLink u n).lstate = .training →
    u.elec.sdref = true →
    4 ≤ popcount 8 id.lanes →
    id.chip ≠ linkPeer v n ∨ id.link ≠ 6 - n →
    exec (.swlTrainIdentity m n id) s = .next (settleAll m (enterState n .fault 1 v))) ∧
  (∀ (m : Moment) (n : Nat) (s : State),
    let u := s.at m
    n ≤ 6 →
    (getLink u n).lstate = .training →
    (getLink u n).attempts = 0 →
    (getLink u n).ctState + 100000000 ≤ u.ct →
    exec (.swlTrainTimeout m n) s = .next (enterState n .absent 0 (setLink n { (getLink u n) with empty := true } u))) ∧
  (∀ (m : Moment) (n : Nat) (s : State),
    let u := s.at m
    n ≤ 6 →
    (getLink u n).lstate = .absent →
    (getLink u n).ctState + 1000000000 ≤ u.ct →
    exec (.swlAbsentRetry m n) s = .next (startTraining n u)) ∧
  (∀ (m : Moment) (n : Nat) (s : State),
    let u := s.at m
    (getLink u n).up = true →
    exec (.swlFlitCrcError m n) s = .next (settleAll m (countReplay n (emit (.swilan n 0 33 (getLink u n).seqRx [] []) (bump
      .swlCrc noPart 1 u))))) ∧
  (∀ (m : Moment) (n k : Nat) (s : State),
    let u := s.at m
    let l := afterAck (getLink u n).replay k
    (getLink u n).up = true →
    l.any (fun f => decide (3 ≤ f.replays)) = false →
    exec (.swlReplayRequest m n k) s = .next (settleAll m (countReplay n (emit (.swilan n 0 32 k (l.map (·.seq)) []) (bump
      .swlReplays noPart l.length (setLink n { (getLink u n) with replay := l.map (fun f => { f with replays := f.replays + 1 }) }
      u)))))) ∧
  (∀ (m : Moment) (n k : Nat) (s : State),
    let u := s.at m
    (getLink u n).up = true →
    (afterAck (getLink u n).replay k).any (fun f => decide (3 ≤ f.replays)) = true →
    exec (.swlReplayRequest m n k) s = .next (settleAll m (retrain n 1 u))) ∧
  (∀ (m : Moment) (n vc c : Nat) (s : State),
    let u := s.at m
    let k := min c (outstanding u n vc)
    (getLink u n).up = true →
    vc ≤ 3 →
    exec (.swlCreditReturn m n vc c) s = .next (pumpLink n (post [⟨Lg.swilan, swlInst n vc, [(1, -(k : Int)), (0, (k : Int))]⟩]
      0x0B 0 (setLink n
      { (getLink u n) with avail := addAt (getLink u n).avail vc k, creditsIn := addAt (getLink u n).creditsIn vc c, replay := ackFlits vc k (getLink u n).replay, twin := if vc = 3 then ackTwin k (getLink u n).twin else (getLink u n).twin }
      u))))

/-- A directory request over a link that is up has its effect: a read answers the entry, a claim of a parked session makes it
CLAIMED for the other chip and answers entry, record frame and journal, an export marks the entry that the asking chip holds
ACTIVE EXPORTED. A command that another chip has taken runs here and its completion goes back on VC1; a mirrored one runs on the
secondary without a completion; a copy's fault and the pair's loss, which either chip tells the other, take effect (log entry 42).
A response ends what waited for it: a forwarded command with the status it brings, TWIN_SET by storing the pair. Bulk data join
the descriptor that asked for them. -/
def Obligations.LinkMessagesTakeEffect : Prop :=
  (∀ (m : Moment) (n tag : Nat) (a : DirAccess) (s : State),
    let u := s.at m
    (getLink u n).up = true →
    exec (.swlDirRequest m n tag a) s = .next (settleAll m (dirRequest m n tag a (swlGot n 0 (dirData a) u)))) ∧
  (∀ (m : Moment) (n tag id : Nat) (s : State) (e : DirEntry), getDir s id = some e → dirRequest m n tag (.read id) s = sendSwl
    (.swilan n 1 1 tag [0, 0] (dirBytes e)) s) ∧
  (∀ (m : Moment) (n tag id k slot : Nat) (b : Bool) (s : State) (e : DirEntry), getDir s id = some e → e.dstate = .parked →
  let t := setDir id { e with dstate := .claimed, provisional := b, activeChip := k, activeSlot := slot } s
  dirRequest m n tag (.claim id k slot b) s = sendSwl (.swilan n 1 1 tag [0, 0] (claimBytes t id)) t) ∧
  (∀ (m : Moment) (n tag id p : Nat) (s : State) (e : DirEntry), getDir s id = some e → e.activeChip = linkPeer s n → e.dstate =
    .active → dirRequest m n tag (.export_ id p) s = setDir id
    { e with dstate := .exported, exportPeer := p, activeChip := 0, activeSlot := 0 } s) ∧
  (∀ (m : Moment) (link tag fn : Nat) (r : Req) (i : OpInfo) (body : Moment → Req → State → Reply) (s : State),
    let u := s.at m
    let q : Req := { r with src := .forwarded link tag fn }
    let v := swlGot link 0 r.payload.length u
    let a := body m q v
    (getLink u link).up = true →
    commandOf r.hdr.opcode = some (i, body) →
    precheck i q v = none →
    (engineOf i.opcode q).all (groupOpen v) = true →
    a.pend = false →
    lockedPair a.st (twinPart q a.st) = none →
    exec (.swlForwardedCommand m link tag fn r) s = .next (settleAll m (sendSwl (.swilan link 1 0 tag [a.status, a.detail]
      a.result) a.st))) ∧
  (∀ (m : Moment) (r : Req) (i : OpInfo) (body : Moment → Req → State → Reply) (x : Pair) (s : State),
    let u := s.at m
    let q : Req := { r with src := .mirrored }
    let v := swlGot (linkTo u x.peer) 3 r.payload.length u
    let a := body m q v
    q.hdr.opcode ≠ 0x0B03 ∧ q.hdr.opcode ≠ pairLost ∧ q.hdr.opcode ≠ copyFaulted →
    q.hdr.opcode ≠ 0x0A09 →
    mirroredOps.contains q.hdr.opcode = true →
    tget u.twn.pairs (twinPart q u) = some x →
    x.secondary = true →
    linkUp u x.peer = true →
    commandOf r.hdr.opcode = some (i, body) →
    precheck i q v = none →
    (engineOf i.opcode q).all (groupOpen v) = true →
    a.pend = false →
    (lockedPair a.st (twinPart q a.st)).all (·.secondary) = true →
    exec (.twinMirroredCommand m r) s = .next (settleAll m a.st)) ∧
  (∀ (m : Moment) (r : Req) (x : Pair) (s : State),
    let u := s.at m
    let q : Req := { r with src := .mirrored }
    let v := swlGot (linkTo u x.peer) 3 r.payload.length u
    r.hdr.opcode = pairLost →
    tget u.twn.pairs (q.f 0 1) = some x →
    linkUp u x.peer = true →
    exec (.twinMirroredCommand m r) s = .next (settleAll m (hearLoss (q.f 0 1) (q.f 1 1) v))) ∧
  (∀ (m : Moment) (r : Req) (x : Pair) (s : State),
    let u := s.at m
    let q : Req := { r with src := .mirrored }
    let v := swlGot (linkTo u x.peer) 3 r.payload.length u
    r.hdr.opcode = copyFaulted →
    tget u.twn.pairs (twinPart q u) = some x →
    linkUp u x.peer = true →
    exec (.twinMirroredCommand m r) s = .next (settleAll m (twinFault (q.f 0 8) (q.f 8 2) v))) ∧
  (∀ (m : Moment) (n st d k : Nat) (b : Bytes) (q : SwlReq) (r : Req) (s : State),
    let u := s.at m
    tget u.swl.reqs n = some q →
    q.wait = .forwarded r k →
    ¬ (st = 0 ∧ r.hdr.opcode = 0x010A) →
    exec (.swlResponse m n st d b) s = .next (settleAll m (endOp k st d b (swlGot q.link 1 b.length
      { u with swl := { u.swl with reqs := tdel u.swl.reqs n } })))) ∧
  (∀ (m : Moment) (n st d k : Nat) (b : Bytes) (q : SwlReq) (s : State),
    let u := s.at m
    tget u.swl.reqs n = some q →
    q.wait = .numberCheck k →
    exec (.swlResponse m n st d b) s = .next (settleAll m (numberAnswer k st b (swlGot q.link 1 b.length
      { u with swl := { u.swl with reqs := tdel u.swl.reqs n } })))) ∧
  (∀ (m : Moment) (n d : Nat) (b : Bytes) (q : SwlReq) (r : Req) (s : State),
    let u := s.at m
    let v := swlGot q.link 1 b.length { u with swl := { u.swl with reqs := tdel u.swl.reqs n } }
    tget u.swl.reqs n = some q →
    q.wait = .twinSet r →
    exec (.swlResponse m n 0 d b) s = .next (settleAll m (answer r (.ok (note 0x0B05 0 (r.f 0 1) 0 [r.f 0 1, chip v, r.f 1 1]
      { v with twn := { v.twn with pairs := tset v.twn.pairs (r.f 0 1) { secondary := false, peer := r.f 1 1, onLoss := r.f 2 1, depth := r.f 3 1, timeout := r.f 4 4 } } }))))) ∧
  (∀ (m : Moment) (n k : Nat) (b : Bytes) (d : Desc) (s : State),
    let u := s.at m
    let v := swlGot n 2 b.length u
    (getLink u n).up = true →
    tget v.fdy.store k = some d →
    d.engine.isSome = true →
    d.srcChip = linkPeer v n →
    awaits v d = true →
    d.srcTier ≠ 3 →
    exec (.swlBulkData m n k b) s = .next (tried (sourceIn k d b v) (fun st => failDesc k st v)))

/-- TWIN_SET with legal fields and a link that is up asks the chip named with this chip's images and generations. TWIN_CLEAR runs
as a long operation. TWIN_QUERY answers TWIN_PAIR and the counters of the pair, or 24 zero bytes without one. A secondary records
the grant it is told of. A digest that arrives joins its step, and the session's steps are compared in order. A late digest and a
link down for longer than the timeout make the pair LOST. -/
def Obligations.TwinPairsFormEndAndCompare : Prop :=
  (∀ (m : Moment) (r : Req) (s : State), serves opTwinSet m r s = true →
    let u := taken m r s
    r.f 0 1 ≤ 15 →
    r.f 1 1 ≤ 7 →
    r.f 1 1 ≠ chip u →
    r.f 2 1 ≤ 1 →
    1 ≤ r.f 3 1 →
    r.f 3 1 ≤ 8 →
    100000 ≤ r.f 4 4 →
    r.f 4 4 ≤ 100000000 →
    (tdispCheck opTwinSet r (r.f 0 1) u).isOk = true →
    linkUp u (r.f 1 1) = true →
    thas u.twn.pairs (r.f 0 1) = false →
    exec (.twinSet m r) s = .next (goesOn opTwinSet r (swlAsk (r.f 1 1) (.twinSet r) 2 (r.f 0 1) [0x0B02, 0, 0xFF] (fit 0x10
      r.payload ++ twinOffer u (r.f 0 1)) u))) ∧
  (∀ (m : Moment) (r : Req) (s : State), serves opTwinClear m r s = true →
    let u := taken m r s
    r.f 0 1 ≤ 15 →
    (tdispCheck opTwinClear r (r.f 0 1) u).isOk = true →
    opRoom u r.fn = true →
    exec (.twinClear m r) s = .next (goesOn opTwinClear r ((startOp r 1 3 (partSessions u (r.f 0 1)).length true [r.f 0 1] u).2))) ∧
  (∀ (m : Moment) (r : Req) (s : State), serves opTwinQuery m r s = true →
    let u := taken m r s
    r.f 0 1 ≤ 15 →
    r.fn = 0 ∨ r.f 0 1 + 1 = r.fn →
    exec (.twinQuery m r) s = .next (ended opTwinQuery r ((tget u.twn.pairs (r.f 0 1)).elim (zeros 24) (fun x => u32 (pairWord u
      (r.f 0 1)) ++ u64 x.verified ++ u64 x.unverified ++ u32 (sat 32 x.diverged))) u)) ∧
  (∀ (m : Moment) (id base chunk : Nat) (lp : Nat × Pair) (s : State),
    let u := s.at m
    let v := swlGot lp.1 3 16 u
    twinLink u id = some lp →
    lp.2.secondary = true →
    exec (.twinGrant m id base chunk) s = .next ({ v with twn := { v.twn with grants := v.twn.grants ++ [(id, base, chunk)] } })) ∧
  (∀ (m : Moment) (id base lg d : Nat) (lp : Nat × Pair) (x : Session) (e : Nat × TwinStep) (s : State),
    let u := s.at m
    let v := swlGot lp.1 3 24 u
    twinLink u id = some lp →
    getSess u id = some x →
    lp.2.secondary = false →
    (stepsOf v id).find? (fun t => t.2.base = base && !thas t.2.peer lg) = some e →
    exec (.twinDigest m id base lg d) s = .next (settleAll m (twinCompare x.partition id 64
      { v with twn := { v.twn with steps := tset v.twn.steps e.1 { e.2 with peer := tset e.2.peer lg d } } }))) ∧
  (∀ (m : Moment) (p : Nat) (x : Pair) (s : State),
    let u := s.at m
    lockedPair u p = some x →
    x.secondary = false →
    digestLate u p x = true →
    exec (.twinDigestTimeout m p) s = .next (settleAll m (losePair p 0 x u))) ∧
  (∀ (m : Moment) (p : Nat) (x : Pair) (s : State),
    let u := s.at m
    lockedPair u p = some x →
    x.secondary = true ∨ digestLate u p x = false →
    pairDark u x = true →
    exec (.twinDigestTimeout m p) s = .next (settleAll m (losePair p 1 x u)))

/-- MLD_GROUP_SET with legal fields over a storage queue pair of the partition defines the group, starts its timer at the present
multiple of its period and answers the blocks of a half; with its delete flag it removes a group. MLD_GROUP_QUERY answers the
fields and the newest cut. MLD_CUT starts a cut, or queues it, and captures what stands at a step boundary; MLD_RESTORE reads the
store area. A multiple of the period triggers a cut, and at the end of the capture window what is not captured is left out. -/
def Obligations.CheckpointGroupsCutAndRestore : Prop :=
  (∀ (m : Moment) (r : Req) (s : State) (k : Nat × Qp), serves opMldGroupSet m r s = true →
    let u := taken m r s
    let l := lbaSize u (r.f 8 4) (r.f 0x0C 4)
    let half := halfBlocks (max 1 l) (r.f 0x18 8) (r.f 0x20 4)
    (getGroupCk u (r.f 0 1)).any (fun x => !r.reaches x.partition) = false →
    (getGroupCk u (r.f 0 1)).any (fun x => x.cstate ≠ .idle) = false →
    r.f 3 1 = 0 →
    qpFor r u (r.f 8 4) = some k →
    k.2.gx = false →
    k.2.partition = r.part16 →
    groupSetCheck r l half = true →
    exec (.mldGroupSet m r) s = .next (ended opMldGroupSet r (u64 half) (setGroupCk (r.f 0 1)
      { ckOf r r.part16 half (getGroupCk u (r.f 0 1)) with lastTimer := if r.f 0x28 8 = 0 then 0 else u.ct / r.f 0x28 8 } u))) ∧
  (∀ (m : Moment) (r : Req) (s : State), serves opMldGroupSet m r s = true →
    let u := taken m r s
    (getGroupCk u (r.f 0 1)).any (fun x => r.reaches x.partition && decide (x.cstate = .idle)) = true →
    r.f 3 1 = 1 →
    exec (.mldGroupSet m r) s = .next (ended opMldGroupSet r (u64 0)
      ({ u with mld := { u.mld with groups := tdel u.mld.groups (r.f 0 1) } }))) ∧
  (∀ (m : Moment) (r : Req) (s : State) (x : CkGroup), serves opMldGroupQuery m r s = true →
    let u := taken m r s
    getGroupCk u (r.f 0 1) = some x →
    r.reaches x.partition = true →
    exec (.mldGroupQuery m r) s = .next (ended opMldGroupQuery r (ckFields (r.f 0 1) x ++ u8 x.cstate.code ++ u32 (((getOp u
      x.op).map (·.handle)).getD 0) ++ u64 x.lastId ++ u64 x.lastStep) u)) ∧
  (∀ (m : Moment) (r : Req) (s : State) (x : CkGroup), serves opMldCut m r s = true →
    let u := taken m r s
    getGroupCk u (r.f 0 1) = some x →
    r.reaches x.partition = true →
    x.cstate = .idle →
    cutSerialOk u = true →
    opRoom u r.fn = true →
    exec (.mldCut m r) s = .next (goesOn opMldCut r (captureAll m (cutStart (r.f 0 1) (modCk (r.f 0 1) (fun x =>
      { x with op := u.bench.nextOp }) (startOp r 1 4 0 true [r.f 0 1] u).2))))) ∧
  (∀ (m : Moment) (r : Req) (s : State) (x : CkGroup) (c : Nat × NvCtrl), serves opMldRestore m r s = true →
    let u := taken m r s
    let w := (startOp r 1 4 0 true [r.f 0 1] u).2
    getGroupCk u (r.f 0 1) = some x →
    r.reaches x.partition = true →
    x.cstate = .idle →
    1 ≤ r.f 1 1 →
    r.f 1 1 ≤ 2 →
    r.f 2 1 ≤ 1 →
    r.f 8 8 = 0 ∨ targetOk u x.partition (r.f 8 8) = true →
    ctrlOn u x.qp = some c →
    opRoom u r.fn = true →
    exec (.mldRestore m r) s = .next (goesOn opMldRestore r (nvmeIssue c.1 x.nsid 0 x.lbaBase x.lbaCount []
      { controller := c.1, owner := .restore u.bench.nextOp }
      { w with mld := { w.mld with restores := tset w.mld.restores u.bench.nextOp { group := r.f 0 1, tier := r.f 1 1, verify := r.f 2 1 = 1, target := r.f 8 8, req := r, cmd := w.net.nextCmd } } }))) ∧
  (∀ (m : Moment) (g : Nat) (x : CkGroup) (s : State),
    let u := s.at m
    getGroupCk u g = some x →
    x.period ≠ 0 →
    x.lastTimer < u.ct / x.period →
    exec (.mldTimerTrigger m g) s = .next (captureAll m (cutTrigger g (setGroupCk g { x with lastTimer := u.ct / x.period } u)))) ∧
  (∀ (m : Moment) (g : Nat) (x : CkGroup) (s : State),
    let u := s.at m
    getGroupCk u g = some x →
    x.cstate = .capture →
    x.ctStart + 1000 * x.window ≤ u.ct →
    exec (.captureWindowExpiry m g) s = .next (captureAll m (captureEnd g (x.toCapture.foldl (fun s id => leaveOut g id s) u))))

/-- HMK_PARTITION_SET with checks passed makes an OFF partition ACTIVE with fresh keys, changes an ACTIVE one at once where it
loses no granule, and scrubs what it loses by a long operation. HMK_PARTITION_TEARDOWN puts an ACTIVE partition into TEARDOWN by a
long operation that cannot be cancelled. Its phases release every object, zero the tiles and destroy the keys, and zero the
external memory. HMK_PARTITION_QUERY answers HMK_PART and the configuration. -/
def Obligations.PartitionsAreMadeChangedAndTornDown : Prop :=
  (∀ (m : Moment) (r : Req) (s : State), serves opHmkPartitionSet m r s = true →
    let u := taken m r s
    (partSetCheck (r.f 0 1) (partAsked r) u).isOk = true →
    (getPart u (r.f 0 1)).pstate = .off →
    exec (.hmkPartitionSet m r) s = .next (ended opHmkPartitionSet r [] (makePart (r.f 0 1) (partAsked r) (some (r.b 0x40 32))
      u))) ∧
  (∀ (m : Moment) (r : Req) (s : State), serves opHmkPartitionSet m r s = true →
    let u := taken m r s
    let gone : List Nat := (List.range 3).map (fun k => maskLess ((getPart u (r.f 0 1)).masks.getD k 0) ((partAsked r).masks.getD
      k 0))
    let x := partAsked r
    let was := getPart u (r.f 0 1)
    let now : Partition :=
      { was with signedImages := x.signedImages, tileMask := x.tileMask, hbmMask := x.hbmMask, lpddrMask := x.lpddrMask, ways := x.ways, imageKeyHash := x.imageKeyHash, kek := if was.confidential then was.kek else some (r.b 0x40 32) }
    (partSetCheck (r.f 0 1) (partAsked r) u).isOk = true →
    (getPart u (r.f 0 1)).pstate ≠ .off →
    gone.all (· = 0) = true →
    exec (.hmkPartitionSet m r) s = .next (ended opHmkPartitionSet r [] (setPart (r.f 0 1) now u))) ∧
  (∀ (m : Moment) (r : Req) (s : State), serves opHmkPartitionSet m r s = true →
    let u := taken m r s
    let gone : List Nat := (List.range 3).map (fun k => maskLess ((getPart u (r.f 0 1)).masks.getD k 0) ((partAsked r).masks.getD
      k 0))
    let x := partAsked r
    let was := getPart u (r.f 0 1)
    let now : Partition :=
      { was with signedImages := x.signedImages, tileMask := x.tileMask, hbmMask := x.hbmMask, lpddrMask := x.lpddrMask, ways := x.ways, imageKeyHash := x.imageKeyHash, kek := if was.confidential then was.kek else some (r.b 0x40 32) }
    (partSetCheck (r.f 0 1) (partAsked r) u).isOk = true →
    (getPart u (r.f 0 1)).pstate ≠ .off →
    gone.all (· = 0) = false →
    opRoom u r.fn = true →
    exec (.hmkPartitionSet m r) s = .next (goesOn opHmkPartitionSet r (setPart (r.f 0 1)
      { now with scrubbing := (List.range 3).map (fun k => was.scrubbing.getD k 0 + gone.getD k 0) } (startOp r 0 1 (maskBytes
      gone) true ((r.f 0 1) :: gone) u).2))) ∧
  (∀ (m : Moment) (r : Req) (s : State), serves opHmkPartitionTeardown m r s = true →
    let u := taken m r s
    let w := (startOp r 1 1 (getPart u (r.f 0 1)).bytes false [r.f 0 1] u).2
    r.f 0 1 ≤ 15 →
    (getPart u (r.f 0 1)).pstate = .active →
    opRoom u r.fn = true →
    exec (.hmkPartitionTeardown m r) s = .next (settleAll m (goesOn opHmkPartitionTeardown r (startTeardown (r.f 0 1)
      u.bench.nextOp false (if (getPart w (r.f 0 1)).confidential then tdiFail (r.f 0 1) tdiTeardown w else w))))) ∧
  (∀ (m : Moment) (r : Req) (s : State), serves opHmkPartitionQuery m r s = true →
    let u := taken m r s
    r.f 0 1 ≤ 15 →
    r.fn = 0 ∨ r.f 0 1 + 1 = r.fn →
    exec (.hmkPartitionQuery m r) s = .next (ended opHmkPartitionQuery r (u32 (hmkPart u (r.f 0 1)) ++ partConfig (r.f 0 1)
      (getPart u (r.f 0 1))) u)) ∧
  (∀ (m : Moment) (p : Nat) (s : State),
    let u := s.at m
    (getPart u p).pstate = .teardown →
    (getPart u p).tdPhase = 1 →
    (scrubGroups (getPart u p) 1).all (fun g => (getGroup u g).state = 3) = true →
    exec (.teardownPhaseDone m p) s = .next (settleAll m (phaseOp (getPart u p).tdOp 2 false (modPart p (fun x =>
      { x with tdPhase := 2 }) (tearObjects m p u))))) ∧
  (∀ (m : Moment) (p : Nat) (s : State),
    let u := s.at m
    (getPart u p).pstate = .teardown →
    (getPart u p).tdPhase = 2 →
    (scrubGroups (getPart u p) 2).all (fun g => (getGroup u g).state = 3) = true →
    exec (.teardownPhaseDone m p) s = .next (tearOnChip p u)) ∧
  (∀ (m : Moment) (p : Nat) (s : State),
    let u := s.at m
    (getPart u p).pstate = .teardown →
    (getPart u p).tdPhase = 3 →
    (scrubGroups (getPart u p) 3).all (fun g => (getGroup u g).state = 3) = true →
    exec (.teardownPhaseDone m p) s = .next (tearExternal p u))

/-- HMK_KEY_LOAD of a free slot of a partition with a KEK stores the unwrapped key under the slot's next generation and answers
its key_id; a wrapping that fails its integrity check is refused. HMK_KEY_DESTROY clears a slot that nothing uses and keeps its
generation. HMK_ATTEST answers the evidence over the blocks in scope and HMK_CERT_READ a DeviceID chain, through the scatter list
or in the result. HMK_ROLLBACK_COMMIT raises the counter to the running release's svn in a production chip with a dual-signed
image. -/
def Obligations.KeysEvidenceAndRollback : Prop :=
  (∀ (m : Moment) (r : Req) (s : State) (kek : Bytes), serves opHmkKeyLoad m r s = true →
    let u := taken m r s
    let g := (getKey u r.part16 (r.f 0 1)).gen % 255 + 1
    r.f 0 1 ≤ 63 →
    (getPart u r.part16).kek = some kek →
    keyBusy u r.part16 (r.f 0 1) = false →
    exec (.hmkKeyLoad m r) s = .next (answered opHmkKeyLoad r ((Config.keyUnwrap kek (r.b 8 40)).elim (.err u stSigInvalid) (fun k
      => .ok (setKey r.part16 (r.f 0 1) { gen := g, key := some k } u) (u32 (keyId r.part16 (r.f 0 1) g)))))) ∧
  (∀ (m : Moment) (r : Req) (s : State), serves opHmkKeyDestroy m r s = true →
    let u := taken m r s
    (keyOf u (r.f 0 4)).isSome = true →
    r.reaches (bits (r.f 0 4) 11 8) = true →
    keyBusy u (bits (r.f 0 4) 11 8) (r.f 0 4 % 256) = false →
    exec (.hmkKeyDestroy m r) s = .next (ended opHmkKeyDestroy r [] (setKey (bits (r.f 0 4) 11 8) (r.f 0 4 % 256)
      { gen := (getKey u (bits (r.f 0 4) 11 8) (r.f 0 4 % 256)).gen } u))) ∧
  (∀ (m : Moment) (r : Req) (s : State), serves opHmkAttest m r s = true →
    let u := taken m r s
    blocksOk r.fn (r.f 0x20 1) = true →
    exec (.hmkAttest m r) s = .next (answered opHmkAttest r (listOrHead r (evidenceOf u r.fn (r.f 0x20 1) (r.b 0 32)) u))) ∧
  (∀ (m : Moment) (r : Req) (s : State), serves opHmkCertRead m r s = true →
    let u := taken m r s
    r.f 0 1 ≤ 1 →
    exec (.hmkCertRead m r) s = .next (answered opHmkCertRead r (listOrHead r (Config.certChain (r.f 0 1)) u))) ∧
  (∀ (r : Req) (b : Bytes) (s : State), r.hdr.sgCount = 0 → listOrHead r b s = .ok s (b.take 3968)) ∧
  (∀ (r : Req) (b : Bytes) (s : State) (l : List SgEntry), r.hdr.sgCount ≠ 0 → carried r = false → (sgCover r b.length s).toOption
    = some l → (sgWrite l b s).2 = none → listOrHead r b s = .ok (sgWrite l b s).1 []) ∧
  (∀ (m : Moment) (r : Req) (s : State), serves opHmkRollbackCommit m r s = true →
    let u := taken m r s
    u.hmk.production = true →
    u.hmk.dualSigned = true →
    exec (.hmkRollbackCommit m r) s = .next (ended opHmkRollbackCommit r (u8 (max u.hmk.counter u.hmk.svn))
      ({ u with hmk := { u.hmk with counter := max u.hmk.counter u.hmk.svn } })))

/-- On a path that answers, each SPDM request in its turn gives its response: the version, capabilities and algorithms, the digest
and the parts of slot 0's certificate chain, a signed answer to a challenge, and the measurement blocks in scope, signed where
asked. KEY_EXCHANGE opens a free one of the 32 sessions, FINISH with the right verification secures it, HEARTBEAT, KEY_UPDATE and
END_SESSION act on a secured one. DOE Discovery answers the protocol of its index. The codes and layouts of SPDM and DOE are the
model's (log entry 46). -/
def Obligations.SpdmRequestsAreAnswered : Prop :=
  (∀ (m : Moment) (via : Nat) (s : State),
    let u := s.at m
    pathOpen u via = true →
    2 ≤ u.bench.bootPhase →
    exec (.getVersion m via) s = .next (spdmSay via 0x04 (u8 1 ++ u16 0x1300) (setConn via 1 u))) ∧
  (∀ (m : Moment) (via : Nat) (s : State),
    let u := s.at m
    pathOpen u via = true →
    2 ≤ u.bench.bootPhase →
    (connOf u via).stage ≠ 0 →
    exec (.getCapabilities m via) s = .next (spdmSay via 0x61 (Config.spdmBody 0x61 []) (setConn via 2 u))) ∧
  (∀ (m : Moment) (via : Nat) (s : State),
    let u := s.at m
    pathOpen u via = true →
    2 ≤ u.bench.bootPhase →
    2 ≤ (connOf u via).stage →
    exec (.negotiateAlgorithms m via true) s = .next (spdmSay via 0x63 (Config.spdmBody 0x63 []) (setConn via 3 u))) ∧
  (∀ (m : Moment) (via n : Nat) (s : State),
    let u := s.at m
    pathOpen u via = true →
    2 ≤ u.bench.bootPhase →
    spdmReady u via n = none →
    exec (.getDigests m via n) s = .next (spdmSay via 0x01 (u8 1 ++ fit 48 (Config.sha384 (chain0 u))) u)) ∧
  (∀ (m : Moment) (via n offset len : Nat) (s : State),
    let u := s.at m
    let rest := (chain0 u).drop offset
    pathOpen u via = true →
    2 ≤ u.bench.bootPhase →
    spdmReady u via n = none →
    exec (.getCertificate m via n 0 offset len) s = .next (if rest = [] then spdmErr via spdmInvalid u else spdmSay via 0x02 (u8 0
      ++ u16 (min len rest.length) ++ u16 (rest.length - len) ++ rest.take len) u)) ∧
  (∀ (m : Moment) (via n : Nat) (nonce : Bytes) (s : State),
    let u := s.at m
    pathOpen u via = true →
    2 ≤ u.bench.bootPhase →
    spdmReady u via n = none →
    exec (.challenge m via n 0 nonce) s = .next (spdmSay via 0x03 (spdmSigned u (Config.spdmBody 0x03 (fit 32 nonce ++ chain0 u)))
      u)) ∧
  (∀ (m : Moment) (via n : Nat) (sign : Bool) (nonce : Bytes) (s : State),
    let u := s.at m
    let body := u8 (blocksFor (pathFn via)).length ++ le 3 0
    pathOpen u via = true →
    2 ≤ u.bench.bootPhase →
    spdmReady u via n = none →
    exec (.getMeasurements m via n 0 sign nonce) s = .next (spdmSay via 0x60 (if sign then spdmSigned u (fit 32 nonce ++ body)
      else body) u)) ∧
  (∀ (m : Moment) (via n k : Nat) (sign : Bool) (nonce : Bytes) (s : State),
    let u := s.at m
    let sel : List Nat := if k = 0xFF then blocksFor (pathFn via) else (blocksFor (pathFn via)).filter (· = k)
    let recs := sel.flatMap (measBlock u (pathFn via))
    let body := u8 sel.length ++ le 3 recs.length ++ recs
    pathOpen u via = true →
    2 ≤ u.bench.bootPhase →
    spdmReady u via n = none →
    k ≠ 0 →
    sel ≠ [] →
    exec (.getMeasurements m via n k sign nonce) s = .next (spdmSay via 0x60 (if sign then spdmSigned u (fit 32 nonce ++ body)
      else body) u)) ∧
  (∀ (m : Moment) (via n : Nat) (exchange : Bytes) (s : State),
    let u := s.at m
    let v := setSpdm n { via := via, ctBeat := u.ct } u
    pathOpen u via = true →
    2 ≤ u.bench.bootPhase →
    (connOf u via).stage = 3 →
    pick m 0 ((List.range 33).filter (fun i => i ≠ 0 && !thas u.hmk.sessions i)) = some n →
    exec (.keyExchange m via 0 exchange) s = .next (spdmSay via 0x64 (spdmSigned v (u8 n ++ Config.spdmBody 0x64 exchange)) v)) ∧
  (∀ (m : Moment) (via n : Nat) (x : SpdmSession) (s : State),
    let u := s.at m
    pathOpen u via = true →
    2 ≤ u.bench.bootPhase →
    spdmSession u via n = some x →
    x.secured = false →
    exec (.finish m via n (finishVerify n x)) s = .next (spdmSay via 0x65 (Config.spdmBody 0x65 (u8 n)) (setSpdm n
      { x with secured := true } u))) ∧
  (∀ (m : Moment) (via n : Nat) (x : SpdmSession) (s : State),
    let u := s.at m
    pathOpen u via = true →
    2 ≤ u.bench.bootPhase →
    spdmSession u via n = some x →
    x.secured = true →
    exec (.heartbeat m via n) s = .next (spdmSay via 0x68 [] (setSpdm n { x with ctBeat := u.ct } u))) ∧
  (∀ (m : Moment) (via n op tag : Nat) (x : SpdmSession) (s : State),
    let u := s.at m
    pathOpen u via = true →
    2 ≤ u.bench.bootPhase →
    spdmSession u via n = some x →
    x.secured = true →
    1 ≤ op →
    op ≤ 3 →
    exec (.keyUpdate m via n op tag) s = .next (spdmSay via 0x69 (u8 op ++ u8 tag) (setSpdm n
      { x with reqKeys := x.reqKeys + b2n (op ≤ 2), rspKeys := x.rspKeys + b2n (op = 2) } u))) ∧
  (∀ (m : Moment) (via n : Nat) (x : SpdmSession) (s : State),
    let u := s.at m
    pathOpen u via = true →
    2 ≤ u.bench.bootPhase →
    spdmSession u via n = some x →
    x.secured = true →
    exec (.endSession m via n) s = .next (spdmSay via 0x6C [] (dropSpdm n u))) ∧
  (∀ (m : Moment) (fn index : Nat) (s : State),
    let u := s.at m
    pathOpen u fn = true →
    2 ≤ u.bench.bootPhase →
    fn ≠ 17 →
    exec (.doeDiscovery m fn index) s = .next (spdmSay fn 0 (if index ≤ 2 then u16 1 ++ u8 index ++ u8 ((index + 1) % 3) else u16
      0xFFFF ++ u8 0 ++ u8 0) u))

/-- ATTEST_DUAL answers the evidence that both alias keys sign. KEK_SET in a secured session of its VF's DOE stores the KEK of a
CONFIDENTIAL partition whose TDI is CONFIG_LOCKED or RUN. An IDE_KM message that its stream admits takes effect.
LOCK_INTERFACE_REQUEST freezes an unlocked interface with a bound stream, removes PF0's apertures and fixes measurement block 5;
START needs the KEK; STOP starts the teardown after which the partition is made again. An integrity failure puts a locked or
running TDI in ERROR. The codes and layouts are the model's (log entry 46). -/
def Obligations.ConfidentialInterfacesAndKeys : Prop :=
  (∀ (m : Moment) (via n blocks : Nat) (nonce : Bytes) (s : State),
    let u := s.at m
    pathOpen u via = true →
    2 ≤ u.bench.bootPhase →
    spdmReady u via n = none →
    blocksOk (pathFn via) blocks = true →
    exec (.attestDual m via n blocks nonce) s = .next (spdmSay via 0x7E (evidenceOf u (pathFn via) blocks nonce) u)) ∧
  (∀ (m : Moment) (via n : Nat) (kek : Bytes) (s : State),
    let u := s.at m
    pathOpen u via = true →
    2 ≤ u.bench.bootPhase →
    (spdmSession u via n).any (·.secured) = true →
    1 ≤ via →
    via ≤ 16 →
    (getPart u (via - 1)).confidential = true →
    (getPart u (via - 1)).tdi = .locked ∨ (getPart u (via - 1)).tdi = .run →
    exec (.kekSet m via n kek) s = .next (spdmSay via 0x7E [] (setPart (via - 1)
      { (getPart u (via - 1)) with kek := some (fit 32 kek) } u))) ∧
  (∀ (m : Moment) (via n : Nat) (x : IdeKm) (s : State),
    let u := s.at m
    pathOpen u via = true →
    2 ≤ u.bench.bootPhase →
    via ≠ 17 →
    (spdmSession u via n).any (·.secured) = true →
    x.stream ≤ 16 →
    x.index < 12 →
    (ideStep u x).isSome = true →
    exec (.ideKmMessage m via n x) s = .next (spdmSay via 0x7E (Config.spdmBody 0x7E (u8 x.kind ++ u8 x.stream ++ u8 x.index))
      ((ideStep u x).getD u))) ∧
  (∀ (m : Moment) (via n fn : Nat) (s : State),
    let u := s.at m
    pathOpen u via = true →
    2 ≤ u.bench.bootPhase →
    via ≠ 17 →
    (spdmSession u via n).any (·.secured) = true →
    1 ≤ fn →
    fn ≤ 16 →
    via = 0 ∨ via = fn →
    (getPart u (fn - 1)).pstate = .active →
    (getPart u (fn - 1)).confidential = true →
    (getPart u (fn - 1)).tdi = .unlocked →
    streamBound u fn = true →
    exec (.lockInterfaceRequest m via n fn) s = .next (tdispSay via 0x03 [] (dropApertures (fn - 1) (setPart (fn - 1)
      { (getPart u (fn - 1)) with tdi := .locked, block5 := some (partConfig (fn - 1) (getPart u (fn - 1))) } u)))) ∧
  (∀ (m : Moment) (via n fn : Nat) (s : State),
    let u := s.at m
    pathOpen u via = true →
    2 ≤ u.bench.bootPhase →
    via ≠ 17 →
    (spdmSession u via n).any (·.secured) = true →
    1 ≤ fn →
    fn ≤ 16 →
    via = 0 ∨ via = fn →
    (getPart u (fn - 1)).pstate = .active →
    (getPart u (fn - 1)).confidential = true →
    (getPart u (fn - 1)).tdi = .locked →
    (getPart u (fn - 1)).kek.isSome = true →
    exec (.startInterfaceRequest m via n fn) s = .next (tdispSay via 0x06 [] (setPart (fn - 1)
      { (getPart u (fn - 1)) with tdi := .run } u))) ∧
  (∀ (m : Moment) (via n fn : Nat) (s : State),
    let u := s.at m
    pathOpen u via = true →
    2 ≤ u.bench.bootPhase →
    via ≠ 17 →
    (spdmSession u via n).any (·.secured) = true →
    1 ≤ fn →
    fn ≤ 16 →
    via = 0 ∨ via = fn →
    (getPart u (fn - 1)).pstate = .active →
    (getPart u (fn - 1)).confidential = true →
    (getPart u (fn - 1)).tdi = .locked ∨ (getPart u (fn - 1)).tdi = .run ∨ (getPart u (fn - 1)).tdi = .error →
    exec (.stopInterfaceRequest m via n fn) s = .next (tdispSay via 0x07 [] (startTeardown (fn - 1) 0 true u))) ∧
  (∀ (m : Moment) (fn : Nat) (s : State),
    let u := s.at m
    1 ≤ fn →
    fn ≤ 16 →
    (getPart u (fn - 1)).tdi = .run ∨ (getPart u (fn - 1)).tdi = .locked →
    exec (.ideIntegrityFailure m fn false) s = .next (tdiFail (fn - 1) tdiIde
      { u with hmk := { u.hmk with ide := u.hmk.ide.map (fun e => if e.1 ≠ 0 && e.2.fn = fn then (e.1, { e.2 with secure := false, going := 0 }) else e) } })) ∧
  (∀ (m : Moment) (fn : Nat) (s : State),
    let u := s.at m
    1 ≤ fn →
    fn ≤ 16 →
    (getPart u (fn - 1)).tdi = .run →
    exec (.ideIntegrityFailure m fn true) s = .next (tdiFail (fn - 1) tdiNonT u))

/-- PWR_SET with its checks of R469 passed gives each group named a transition, which leaves HELD when it is the oldest, as one
long operation. PWR_QUERY answers the 64 group words and the three device words. PWR_RESUME takes a cooled device out of SAFE at
its restore points. The end of a phase moves a group's transition on, and an open group takes up its waiting work. Readings and
the current enter the trip's conditions, and a trip runs when one holds. THERMTRIP_N asserts and stays. -/
def Obligations.PowerGroupsSensorsAndTheTrip : Prop :=
  (∀ (m : Moment) (r : Req) (s : State), serves opPwrSet m r s = true →
    let u := taken m r s
    let gs : List Nat := setBits 64 (r.f 0 8)
    (pwrSetCheck gs (r.f 8 1) (r.f 9 1) u).isOk = true →
    opRoom u r.fn = true →
    exec (.pwrSet m r) s = .next (settleAll m (goesOn opPwrSet r (pwrProgress u.bench.nextOp (gs.foldl (fun s g => leaveHeld g 1
      s) (gs.foldl (fun s g => addTrans u.bench.nextOp (if r.f 8 1 = 0xFF then none else some (r.f 8 1)) (if r.f 9 1 = 0xFF then
      none else some (r.f 9 1)) g s) (startOp r 1 0 0 false [0] u).2)))))) ∧
  (∀ (m : Moment) (r : Req) (s : State), serves opPwrQuery m r s = true →
    let u := taken m r s
    exec (.pwrQuery m r) s = .next (ended opPwrQuery r ((List.range 64).flatMap (fun g => u32 (groupWord u g)) ++ u32 (pwrDevice
      u) ++ u32 (pwrTemp u) ++ u32 (pwrAmps u)) u)) ∧
  (∀ (m : Moment) (r : Req) (s : State), serves opPwrResume m r s = true →
    let u := taken m r s
    let v := modClusters (fun x => { x with perf := x.restore }) u
    u.bench.devState = .safe →
    cooled u = true →
    exec (.pwrResume m r) s = .next (settleAll m (ended opPwrResume r []
      ({ v with bench := { v.bench with devState := .operating }, pwr := { v.pwr with tripped := false, cause := 0 }, elec := { v.elec with alert := false } })))) ∧
  (∀ (m : Moment) (g : Nat) (s : State),
    let u := s.at m
    exec (.pwrTransitionPhaseDone m g) s = .next (settleAll m (if groupOpen (groupPhase m g u) g then wake m g (groupPhase m g u)
      else groupPhase m g u))) ∧
  (∀ (m : Moment) (g : Nat) (s : State) (t : Trans), (getGroup s g).run = some t → t.phase = 5 → (t.perf.isSome && !s.pwr.tripped
    && midGroup s g) = false → groupPhase m g s = groupSwitch m g t s) ∧
  (∀ (m : Moment) (g : Nat) (s : State) (t : Trans), (getGroup s g).run = some t → t.phase = 2 → groupDrained s g = true →
    groupPhase m g s = pwrProgress t.op (modGroup g (fun x => { x with run := some { t with phase := nextPhase g t } }) s)) ∧
  (∀ (m : Moment) (l : List (Nat × Int)) (s : State),
    let u := s.at m
    let v := l.foldl takeReading u
    v.pwr.readings.find? (fun e => meanAtLeast e.2 v.pwr.tripTemp) = none →
    exec (.junctionSensorSample m l) s = .next (v)) ∧
  (∀ (m : Moment) (l : List (Nat × Int)) (e : Nat × List Int) (s : State),
    let u := s.at m
    let v := l.foldl takeReading u
    v.pwr.readings.find? (fun e => meanAtLeast e.2 v.pwr.tripTemp) = some e →
    exec (.junctionSensorSample m l) s = .next (trip 1 e.1 (sensorMean e.2) v)) ∧
  (∀ (m : Moment) (a : Nat) (s : State),
    let u := s.at m
    let v : State :=
      { u with pwr := { u.pwr with amps := a, ctAbove := if a ≤ u.pwr.limit then none else some (u.pwr.ctAbove.getD u.ct) } }
    tooMuch v = false →
    exec (.coreCurrentSample m a) s = .next (v)) ∧
  (∀ (m : Moment) (a : Nat) (s : State),
    let u := s.at m
    let v : State :=
      { u with pwr := { u.pwr with amps := a, ctAbove := if a ≤ u.pwr.limit then none else some (u.pwr.ctAbove.getD u.ct) } }
    tooMuch v = true →
    exec (.coreCurrentSample m a) s = .next (trip 2 (hottest v).1 (hottest v).2 v)) ∧
  (∀ (m : Moment) (s : State),
    let u := s.at m
    exec (.thermtrip m) s = .next ({ u with elec := { u.elec with thermtrip := true } }))

/-- CT_CONFIG with its fields in range sets the running time and protection configuration, and a source that it removes is lost.
CT_STEP to a given ct, or by the offset refused within the last 10 s, closes the epoch and the Gauge's windows, moves ct, and
answers the old ct and the new. CT_LEAP_LOAD installs a table. A cadence edge acquires the lock, is accepted in its window, or is
counted. An edge missing for three periods loses the cadence, an uncertainty above the budget in HOLDOVER loses the time, and the
leap table's end is told once. -/
def Obligations.ClusterTimeIsKeptSteppedAndLost : Prop :=
  (∀ (m : Moment) (r : Req) (s : State), serves opCtConfig m r s = true →
    let u := taken m r s
    timeRanges (r.f 0 1) (r.f 4 4) (r.f 0x0C 4) (r.f 0x10 4) (r.f 0x14 1) (r.f 0x16 2) = true →
    exec (.ctConfig m r) s = .next (ended opCtConfig r [] (sourceLost u.clk.source (setTimeConfig (r.f 0 1) (r.f 4 4) (toSigned 32
      (r.f 8 4)) (r.f 0x0C 4) (r.f 0x10 4) (r.f 0x14 1) (r.f 0x16 2) u)))) ∧
  (∀ (m : Moment) (r : Req) (s : State), serves opCtStep m r s = true →
    let u := taken m r s
    r.f 0 1 = 1 →
    exec (.ctStep m r) s = .next (ended opCtStep r (u64 u.ct ++ u64 (r.f 8 8)) (note 0x0E07 1 0xFF 0 [u.ct, r.f 8 8] (bump
      .ctSteps noPart 1 (stepClock u.ct (r.f 8 8) (stepTimers (stepWindows (r.f 8 8) (closeEpoch u)))))))) ∧
  (∀ (m : Moment) (r : Req) (s : State) (p : Int × Nat), serves opCtStep m r s = true →
    let u := taken m r s
    let new : Nat := ((u.ct : Int) - p.1).toNat
    r.f 0 1 = 0 →
    u.clk.pending = some p →
    u.ct ≤ p.2 + 10000000000 →
    exec (.ctStep m r) s = .next (ended opCtStep r (u64 u.ct ++ u64 new) (note 0x0E07 1 0xFF 0 [u.ct, new] (bump .ctSteps noPart 1
      (stepClock u.ct new (stepTimers (stepWindows new (closeEpoch u)))))))) ∧
  (∀ (m : Moment) (r : Req) (s : State), serves opCtLeapLoad m r s = true →
    let u := taken m r s
    leapOk r.payload 0x10 (r.f 0 1) (r.f 8 8) = true →
    exec (.ctLeapLoad m r) s = .next (ended opCtLeapLoad r [] (modClk (fun c =>
      { c with leap := leapEntries r.payload 0x10 (r.f 0 1), expires := r.f 8 8, leapStale := false }) u))) ∧
  (∀ (m : Moment) (w : Nat) (s : State),
    let u := s.at m
    u.clk.tsrc ≠ 0 →
    20 ≤ w →
    u.clk.cadLocked = false →
    exec (.cadenceEdge m w) s = .next (cadAcquire u)) ∧
  (∀ (m : Moment) (w : Nat) (s : State),
    let u := s.at m
    u.clk.tsrc ≠ 0 →
    20 ≤ w →
    u.clk.cadLocked = true →
    cadWindow u.clk (cadNearest u.clk u.ct).2 = true →
    (cadNearest u.clk u.clk.cadLast).1 < (cadNearest u.clk u.ct).1 →
    exec (.cadenceEdge m w) s = .next (cadAccept (cadNearest u.clk u.ct).2 u)) ∧
  (∀ (m : Moment) (w : Nat) (s : State),
    let u := s.at m
    u.clk.tsrc ≠ 0 →
    20 ≤ w →
    u.clk.cadLocked = true →
    cadWindow u.clk (cadNearest u.clk u.ct).2 = false ∨ (cadNearest u.clk u.ct).1 ≤ (cadNearest u.clk u.clk.cadLast).1 →
    exec (.cadenceEdge m w) s = .next (bump .ctChatter noPart 1 (modClk (fun c => { c with cadNoise := true }) u))) ∧
  (∀ (m : Moment) (w : Nat) (s : State),
    let u := s.at m
    u.clk.tsrc ≠ 0 →
    w < 20 →
    exec (.cadenceEdge m w) s = .next (bump .ctGlitch noPart 1 u)) ∧
  (∀ (m : Moment) (s : State),
    let u := s.at m
    u.clk.cadLocked = true →
    u.clk.cadLast + 3 * u.clk.period ≤ u.ct →
    exec (.cadenceLoss m) s = .next (sourceLost 2 (note 0x0E08 1 0xFF 0 [b2n u.clk.cadNoise] (modClk (fun c =>
      { c with cadLocked := false, candidate := none, skewRun := 0 }) u)))) ∧
  (∀ (m : Moment) (s : State),
    let u := s.at m
    u.clk.tstate = .holdover →
    u.clk.budget < uncertainty u →
    exec (.holdoverBudgetExceeded m) s = .next (note 0x0E04 2 0xFF 0 [u.clk.ctHold] (setTime .lost u))) ∧
  (∀ (m : Moment) (s : State),
    let u := s.at m
    u.clk.leapStale = false →
    u.clk.expires ≤ u.ct →
    exec (.leapExpiry m) s = .next (note 0x0E0A 1 0xFF 0 [u.clk.expires] (modClk (fun c => { c with leapStale := true }) u)))

/-- AON_SETTINGS_SAVE stores a valid image in the retention domain; AON_SETTINGS_READ answers an image, or zeros with detail 1.
OTP_PROGRAM of a valid image with a trusted signature block programs the lowest free generation by a long operation. AON_LIFE_READ
answers the record. LIFE_MIRROR_UPDATE counts each second once, the journal is written at each multiple of 600 s and when a serial
nears its ceiling, and AON_LIFE_SYNC writes it at once and answers its number. -/
def Obligations.SettingsGenerationsAndLifeAreKept : Prop :=
  (∀ (m : Moment) (r : Req) (s : State), serves opAonSettingsSave m r s = true →
    let u := taken m r s
    imageValid u (r.b 0 2048) = true →
    [0x0E, 0x0F].any (fun g => groupPresent u g && decide (16 ≤ field (r.b 0 2048) (0x10 + g) 1)) = false →
    exec (.aonSettingsSave m r) s = .next (ended opAonSettingsSave r [] (modAon (fun a =>
      { a with settings := some (r.b 0 2048) }) u))) ∧
  (∀ (m : Moment) (r : Req) (s : State) (b : Bytes), serves opAonSettingsRead m r s = true →
    let u := taken m r s
    r.f 0 1 ≤ 6 →
    settingsImage u (r.f 0 1) = some b →
    exec (.aonSettingsRead m r) s = .next (ended opAonSettingsRead r (b) u)) ∧
  (∀ (m : Moment) (r : Req) (s : State), serves opAonSettingsRead m r s = true →
    let u := taken m r s
    r.f 0 1 ≤ 6 →
    settingsImage u (r.f 0 1) = none →
    exec (.aonSettingsRead m r) s = .next (ended opAonSettingsRead r (zeros 2048) u 1)) ∧
  (∀ (m : Moment) (r : Req) (s : State) (b : Bytes) (g : Nat), serves opOtpProgram m r s = true →
    let u := taken m r s
    (inData r 7456 u).toOption = some b →
    otpFree u = some g →
    imageValid u (b.take 2048) = true →
    exec (.otpProgram m r) s = .next (answered opOtpProgram r (if blockValid (b.drop 2048) 4 (fit 32 (Config.blake3 (deviceId ++
      u8 g ++ b.take 2048))) = false then .err (sigRejected 4 stSigInvalid 0xFF u) stSigInvalid else if rootTrusted u (b.drop
      2048) = false then .err (sigRejected 4 stKeyUntrusted 0xFF u) stKeyUntrusted else asOp r u 1 1 11552 true (g :: (b.take
      2048).map (·.toNat)) fun _ s => s))) ∧
  (∀ (m : Moment) (r : Req) (s : State), serves opAonLifeRead m r s = true →
    let u := taken m r s
    exec (.aonLifeRead m r) s = .next (ended opAonLifeRead r (lifeBytes u.aon.life) u)) ∧
  (∀ (m : Moment) (r : Req) (s : State), serves opAonLifeSync m r s = true →
    let u := taken m r s
    exec (.aonLifeSync m r) s = .next (ended opAonLifeSync r (u64 (journal m.choice u).aon.jSeq) (journal m.choice u))) ∧
  (∀ (m : Moment) (s : State),
    let u := s.at m
    u.aon.mirror.any (fun x => x.ct / 1000000000 = u.ct / 1000000000) = false →
    exec (.lifeMirrorUpdate m) s = .next (modAon (fun a =>
      { a with life := lifeSecond u u.aon.life, mirror := some { lifeSecond u u.aon.life with ct := u.ct } }) u)) ∧
  (∀ (m : Moment) (failing : List Nat) (s : State),
    let u := s.at m
    u.ct / 600000000000 ≠ u.aon.jCt / 600000000000 ∨ ceilingNear u = true →
    exec (.lifeJournalWrite m failing) s = .next (journal failing u))

/-- A corrected error is counted by its channel, and one of SRAM in its own counter. A contained error is logged and ends its
owner; one in shared state is device-fatal, and one in the Tally's state a breach. A pass sets PATROL_CT. A sweep that finds
differences makes the group's view stale, one that finds none ends that, and a view stale for more than 1 ms is an INTERNAL_FAULT,
as an expired watchdog is. DIAG_TRAINING, DIAG_ERRORS, DIAG_VIEW_CHECK, DIAG_INJECT and DIAG_BOOT_LOG answer what R510 to R512 say
of them. -/
def Obligations.ErrorsAreCountedContainedAndFatal : Prop :=
  (∀ (m : Moment) (tier chan : Nat) (s : State),
    let u := s.at m
    exec (.correctedError m tier chan) s = .next (settleAll m (corrected tier chan u))) ∧
  (∀ (chan : Nat) (s : State), corrected 0 chan s = modErr (fun e => { e with ceSram := e.ceSram + 1 }) s) ∧
  (∀ (tier chan : Nat) (s : State), 1 ≤ tier → corrected tier chan s = ceThreshold tier chan (countCorrected tier chan s)) ∧
  (∀ (m : Moment) (d : UeData) (a : UeAt) (s : State),
    let u := s.at m
    (∀ k, d ≠ .shared k) →
    exec (.uncorrectableError m d a) s = .next (settleAll m (ueOwnerEnds m d (ueContained d a u)))) ∧
  (∀ (m : Moment) (k : Nat) (a : UeAt) (s : State),
    let u := s.at m
    k ≠ 8 →
    exec (.uncorrectableError m (.shared k) a) s = .next (settleAll m (deviceFatal St.uncorrectable k u))) ∧
  (∀ (m : Moment) (a : UeAt) (s : State),
    let u := s.at m
    exec (.uncorrectableError m (.shared 8) a) s = .next (settleAll m (breach a.chan a.addr 3 u.ct u))) ∧
  (∀ (m : Moment) (s : State),
    let u := s.at m
    exec (.patrolScrubPass m) s = .next (modErr (fun e => { e with patrolCt := u.ct }) u)) ∧
  (∀ (m : Moment) (g : Nat) (s : State),
    let u := s.at m
    1 ≤ g →
    g ≤ 14 →
    exec (.viewSweep m g []) s = .next (modErr (fun e => { e with stale := tdel e.stale g }) u)) ∧
  (∀ (m : Moment) (g : Nat) (l : List Skew) (s : State),
    let u := s.at m
    1 ≤ g →
    g ≤ 14 →
    l.isEmpty = false →
    exec (.viewSweep m g l) s = .next (skewFound g l u)) ∧
  (∀ (m : Moment) (g c : Nat) (s : State),
    let u := s.at m
    tget u.err.stale g = some c →
    c + 1000000 < u.ct →
    exec (.viewReconcileTimeout m g) s = .next (internalFault g u)) ∧
  (∀ (m : Moment) (s : State),
    let u := s.at m
    exec (.firmwareWatchdogExpiry m true) s = .next (internalFault 0x0D u)) ∧
  (∀ (m : Moment) (s : State),
    let u := s.at m
    exec (.firmwareWatchdogExpiry m false) s = .next (modErr (fun e => { e with hallmarkServes := true }) (internalFault 0 u))) ∧
  (∀ (m : Moment) (r : Req) (s : State), serves opDiagTraining m r s = true →
    let u := taken m r s
    r.f 0 1 ≤ 4 →
    exec (.diagTraining m r) s = .next (ended opDiagTraining r ((List.range (trainCount (r.f 0 1))).flatMap (fun i => u16 i ++ u8
      (trainOutcome u (r.f 0 1) i).1 ++ u8 (trainOutcome u (r.f 0 1) i).2)) u)) ∧
  (∀ (m : Moment) (r : Req) (s : State), serves opDiagErrors m r s = true →
    let u := taken m r s
    exec (.diagErrors m r) s = .next (ended opDiagErrors r (errorRegs u ++ u.err.ueHist.flatMap (fun x => u64 x.ct ++ ueInfo
      x.tier x.chan x.addr x.kind x.owner ++ u16 x.status ++ zeros 6)) u)) ∧
  (∀ (m : Moment) (r : Req) (s : State), serves opDiagViewCheck m r s = true →
    let u := taken m r s
    let gs : List Nat := setBits 16 (r.f 0 2)
    let n := (gs.filter (thas u.err.stale)).length
    gs.contains 0 = false →
    gs.contains 15 = false →
    exec (.diagViewCheck m r) s = .next (answered opDiagViewCheck r
      ({ st := modErr (fun e => { e with stale := e.stale.filter (fun x => !gs.contains x.1) }) u, status := if n = 0 then St.ok else St.stateSkew, result := u32 gs.length ++ u32 n }))) ∧
  (∀ (m : Moment) (r : Req) (s : State), serves opDiagInject m r s = true →
    let u := taken m r s
    u.hmk.production = false →
    r.f 0 1 ≤ 1 →
    1 ≤ r.f 1 1 →
    r.f 1 1 ≤ 2 →
    r.f 2 1 ≤ 15 →
    r.f 8 8 < partBytes u (r.f 2 1) (r.f 1 1) →
    exec (.diagInject m r) s = .next (ended opDiagInject r [] (modErr (fun e =>
      { e with injected := e.injected ++ [{ hard := r.f 0 1 = 1, tier := r.f 1 1, partition := r.f 2 1, line := r.f 8 8 / 64 }] })
      u))) ∧
  (∀ (m : Moment) (r : Req) (s : State), serves opDiagBootLog m r s = true →
    let u := taken m r s
    exec (.diagBootLog m r) s = .next (answered opDiagBootLog r (listOrHead r (u32 u.err.bootLog.length ++ u.err.bootLog.flatten)
      u)))

/-- DEV_RESET in mode 0 starts the orderly shut-down, in mode 1 it resets at once; at the end of the grace the shut-down is
finished. FW_LOAD of an image that may run starts the load. A rise of PWRGOOD is a power-on reset, a fall of it ends everything;
PERST_N and the PCIe link cause their resets and end them. FLR clears its function. CONFIG_READY comes 100 ms after the boot's
start, and the end of a boot phase that is right begins the next, up to the settings and OPERATING. -/
def Obligations.ResetsBootsAndShutdowns : Prop :=
  (∀ (m : Moment) (r : Req) (s : State), serves opDevReset m r s = true →
    let u := taken m r s
    let v := (startOp r 0 0 0 false [] u).2
    r.f 0 1 = 0 →
    r.f 1 1 ≤ 1 →
    r.f 4 4 ≤ 60000 →
    u.err.shutdown = none →
    opRoom u r.fn = true →
    exec (.devReset m r) s = .next (goesOn opDevReset r (cancelAll u.bench.nextOp (modErr (fun e =>
      { e with shutdown := some { op := u.bench.nextOp, due := v.ct + r.f 4 4 * 1000000, hold := r.f 1 1 = 1 } }) v)))) ∧
  (∀ (m : Moment) (r : Req) (s : State), serves opDevReset m r s = true →
    let u := taken m r s
    r.f 0 1 = 1 →
    r.f 1 1 ≤ 1 →
    r.f 4 4 ≤ 60000 →
    exec (.devReset m r) s = .next (goesOn opDevReset r (resetState 4 true (r.f 1 1 = 1) u))) ∧
  (∀ (m : Moment) (x : Shutdown) (s : State),
    let u := s.at m
    u.err.shutdown = some x →
    x.due ≤ u.ct →
    exec (.shutdownGraceExpiry m) s = .next (finishShutdown m u)) ∧
  (∀ (m : Moment) (r : Req) (s : State) (b : Bytes), serves opFwLoad m r s = true →
    let u := taken m r s
    r.f 0 1 ≤ 1 →
    1 ≤ r.f 8 8 →
    r.f 8 8 ≤ 25165824 →
    u.bench.bootPhase ≤ 2 ∨ u.hmk.slot ≠ r.f 0 1 →
    (inData r (r.f 8 8) u).toOption = some b →
    exec (.fwLoad m r) s = .next (answered opFwLoad r ((firmwareBad u (some b)).elim (asOp r u 1 1 (2 * r.f 8 8) true (r.f 0 1 ::
      b.map (·.toNat)) fun _ s => s) (fun st => .err (firmwareReject st u) st)))) ∧
  (∀ (m : Moment) (s : State),
    let u := s.at m
    let v := modAon (fun a => { a with life := { a.life with cycles := a.life.cycles + 1 } })
      { u with elec := { u.elec with pwrgood := true, perst := true } }
    u.elec.pwrgood = false →
    u.elec.railsBad = 0 →
    exec (.powerOnReset m) s = .next (if (resetState 0 true false v).elec.perstLow then resetState 0 true false v else bootBegin
      (resetState 0 true false v))) ∧
  (∀ (m : Moment) (s : State),
    let u := s.at m
    let v := resetState 0 false false { u with elec := { u.elec with pwrgood := false } }
    u.elec.pwrgood = true →
    exec (.pwrgoodFall m) s = .next ({ v with elec := { v.elec with perst := true, thermtrip := false } })) ∧
  (∀ (m : Moment) (s : State),
    let u := s.at m
    let v := modAon (fun a => { a with life := { a.life with resets := a.life.resets + 1 } })
      { u with elec := { u.elec with perstLow := true } }
    u.elec.pwrgood = true →
    u.elec.perst = false →
    exec (.perstNAssert m) s = .next (resetState 1 true false { v with elec := { v.elec with perst := true } })) ∧
  (∀ (m : Moment) (c b : Nat) (s : State),
    let u := s.at m
    u.elec.perst = true →
    u.elec.pwrgood = true →
    u.elec.railsBad = 0 →
    exec (.perstNDeassert m c b) s = .next (bootBegin
      { u with elec := { u.elec with perstLow := false, chipId := c % 8, bootSel := b % 2 } })) ∧
  (∀ (m : Moment) (s : State),
    let u := s.at m
    u.elec.pwrgood = true →
    u.elec.perst = false →
    u.elec.pcieUp = true →
    exec (.pcieHotReset m) s = .next (resetState 2 true u.err.hold u)) ∧
  (∀ (m : Moment) (s : State),
    let u := s.at m
    u.elec.pwrgood = true →
    u.elec.perst = false →
    u.elec.pcieUp = true →
    exec (.pcieLinkDown m) s = .next (resetState 2 true u.err.hold u)) ∧
  (∀ (m : Moment) (rate w : Nat) (s : State),
    let u := s.at m
    let v := if u.elec.pcieUp then u else modErr (fun e => { e with bootStart := u.ct, bootPre := 0 })
      { u with bench := { u.bench with phaseCt := u.ct } }
    let z : State := { v with elec := { v.elec with pcieUp := true, refclk := true, pcieRate := rate, pcieWidth := w } }
    linkTrains rate w = true →
    u.elec.pwrgood = true →
    u.elec.perst = false →
    u.elec.railsBad = 0 →
    exec (.pcieLinkUp m rate w) s = .next (if rate < 128 || w < 16 then note 0x0F08 1 0xFF 0 [rate, w] z else z)) ∧
  (∀ (m : Moment) (fn : Nat) (s : State),
    let u := s.at m
    fn ≤ 16 →
    exec (.flr m fn) s = .next (settleAll m (flr fn u))) ∧
  (∀ (m : Moment) (s : State),
    let u := s.at m
    inReset u = false →
    100000000 ≤ u.ct - u.err.bootStart + u.err.bootPre →
    exec (.configReady m) s = .next (modErr (fun e => { e with configOk := true }) u)) ∧
  (∀ (m : Moment) (x : BootEnd) (s : State),
    let u := s.at m
    u.bench.devState = .booting →
    inReset u = false →
    u.err.hold = false →
    exec (.bootPhaseEnd m x) s = .next (settleAll m (phaseEnd x u))) ∧
  (∀ (x : BootEnd) (s : State), s.bench.bootPhase = 1 → x.ok = true → phaseEnd x s = toPhase 2 (startCt s)) ∧
  (∀ (x : BootEnd) (s : State), s.bench.bootPhase = 2 → x.flashOk = true → phaseEnd x s = verifySlots
    { s with elec := { s.elec with spiTries := 0 } }) ∧
  (∀ (x : BootEnd) (s : State), s.bench.bootPhase = 3 → failedOf (recordTraining 0 x.training s) 0 = [] → phaseEnd x s = toPhase 4
    (recordTraining 0 x.training s)) ∧
  (∀ (x : BootEnd) (s : State), s.bench.bootPhase = 6 → x.ok = true → phaseEnd x s = restoreSettings s)

/-- A rail outside its window with PWRGOOD asserted is a fall of it, and the last one to return a power-on. A loss of VAUX_1V8
clears what the retention domain holds. The loss of the SerDes reference takes every Ethernet and Swilan link down and PTP with
it, and its return trains the links. The loss of REFCLK takes the PCIe link down, a fundamental reset. A stopped crystal stops the
RTC and its validity. A flash access times out twice before it fails. An SMBus or I3C timeout leaves the registers as they are. -/
def Obligations.RailsClocksAndTimeouts : Prop :=
  (∀ (m : Moment) (k : Nat) (s : State),
    let u := s.at m
    u.elec.pwrgood = true →
    exec (.railFault m k) s = .next (powerFall (modAon (fun a => { a with railFault := a.railFault ||| 2 ^ k })
      { u with elec := { u.elec with railsBad := u.elec.railsBad ||| 2 ^ k } }))) ∧
  (∀ (m : Moment) (k : Nat) (s : State),
    let u := s.at m
    let v : State := { u with elec := { u.elec with railsBad := u.elec.railsBad - 2 ^ k } }
    bit u.elec.railsBad k = true →
    exec (.railReturn m k) s = .next (if u.elec.pwrgood && v.elec.railsBad = 0 then powerOn v else v)) ∧
  (∀ (m : Moment) (s : State),
    let u := s.at m
    u.elec.pwrgood = true →
    exec (.vaux1v8Loss m) s = .next (clearRetention (powerFall
      { u with elec := { u.elec with railsBad := u.elec.railsBad ||| 2 ^ 10 } }))) ∧
  (∀ (m : Moment) (s : State),
    let u := s.at m
    u.elec.pwrgood = false →
    exec (.vaux1v8Loss m) s = .next (clearRetention { u with elec := { u.elec with railsBad := u.elec.railsBad ||| 2 ^ 10 } })) ∧
  (∀ (m : Moment) (s : State),
    let u := s.at m
    u.elec.sdref = true →
    exec (.serdesRefLoss m) s = .next (settleAll m (ptpGone ((List.range 7).foldl (fun s n => if (getLink s n).up then linkLost n
      .training 0 s else s) ((List.range 8).foldl (fun s p => if (getPort s p).linkUp = 0 then s else portDown m p s)
      { u with elec := { u.elec with sdref := false, sdrefLosses := u.elec.sdrefLosses + 1 } }))))) ∧
  (∀ (m : Moment) (s : State),
    let u := s.at m
    u.elec.sdref = false →
    exec (.serdesRefReturn m) s = .next ((List.range 7).foldl (fun s n => if (getLink s n).lstate = .training then startTraining n
      s else s) { u with elec := { u.elec with sdref := true } })) ∧
  (∀ (m : Moment) (s : State),
    let u := s.at m
    let v := resetState 2 true u.err.hold { u with elec := { u.elec with refclk := false } }
    u.elec.pwrgood = true →
    u.elec.perst = false →
    u.elec.pcieUp = true →
    exec (.refclkLoss m) s = .next ({ v with elec := { v.elec with pcieUp := false } })) ∧
  (∀ (m : Moment) (s : State),
    let u := s.at m
    exec (.xtalStop m) s = .next (modAon (fun a => { a with rtc := rtcNow u, rtcCt := u.ct })
      { u with elec := { u.elec with xtal := false, rtcValid := false } })) ∧
  (∀ (m : Moment) (s : State),
    let u := s.at m
    u.elec.xtal = false →
    exec (.xtalRestart m) s = .next (modAon (fun a => { a with rtcCt := u.ct }) { u with elec := { u.elec with xtal := true } })) ∧
  (∀ (m : Moment) (s : State),
    let u := s.at m
    exec (.smbClockLowTimeout m) s = .next (u)) ∧
  (∀ (m : Moment) (s : State),
    let u := s.at m
    exec (.i3cIdleTimeout m) s = .next (u)) ∧
  (∀ (m : Moment) (s : State),
    let u := s.at m
    u.bench.devState = .booting →
    u.bench.bootPhase = 2 →
    u.elec.spiTries < 2 →
    exec (.spiFlashTimeout m) s = .next ({ u with elec := { u.elec with spiTries := u.elec.spiTries + 1 } })) ∧
  (∀ (m : Moment) (s : State),
    let u := s.at m
    u.bench.devState = .booting →
    u.bench.bootPhase = 2 →
    2 ≤ u.elec.spiTries →
    exec (.spiFlashTimeout m) s = .next (stopBoot St.flashFailed { u with elec := { u.elec with spiTries := 0 } })) ∧
  (∀ (m : Moment) (k : Nat × LongOp) (s : State),
    let u := s.at m
    u.bench.devState ≠ .booting →
    flashWrite u = some k →
    2 ≤ u.elec.spiTries →
    exec (.spiFlashTimeout m) s = .next (endFwLoad k.1 k.2 false { u with elec := { u.elec with spiTries := 0 } }))

/-- For every command c and state s: with c at the front of its queue, a step of s is exec of c on s with the queue's rest. On an
empty queue the device idles, which is the model's own choice (log entry 16). -/
def Obligations.StepRunsTheFrontCommand : Prop :=
  (∀ (c : Instr) (rest : List Instr) (s : State), s.pending = c :: rest → step s = exec c { s with pending := rest }) ∧
  (∀ s : State, s.pending = [] → step s = .next s)

/-- State.reset: the device is BOOTING in phase 0x01 at position 0 (R19, R20); every mailbox is IDLE, no long operation runs and
each function's handle serial starts at 1 (R24, R33); every HMK_PART reads 0 (R458), no session, model slot, table set, queue pair
or pair exists, the queue is empty, nothing has left the device, and both memories are in their canonical form. -/
def Obligations.ResetIsAsTheSpecSays : Prop :=
  State.reset.bench.devState = .booting ∧ State.reset.bench.bootPhase = 1 ∧ State.reset.bench.permyriad = 0 ∧
  State.reset.bench.ops = [] ∧ State.reset.pln.slots = [] ∧ State.reset.tile.models = [] ∧ State.reset.txt.gens = [] ∧
  State.reset.net.qps = [] ∧ State.reset.twn.pairs = [] ∧ State.reset.pending = [] ∧ State.reset.out = [] ∧
  (∀ fn n : Nat, (getMbx State.reset fn n).own = .idle) ∧ (∀ fn : Nat, (fnState State.reset fn).serial = 1) ∧
  (∀ p : Nat, hmkPart State.reset p = 0) ∧ State.reset.memOk

/-- The manual gives every command an effect or a status: exec of any command in any state answers a next state, never a fault and
never a refusal. Every command reaches a completion, becomes an operation, waits as its rule says, or is discarded as its rule
says. -/
def Obligations.NoCommandStops : Prop :=
  ∀ (i : Instr) (s : State), ∃ t, exec i s = .next t

/-- The invariant of both memories: addresses strictly rising, and no listed byte equal to what an unlisted address reads as. From
every state in which it holds, whatever command stands at the front of the queue, the next state has it. (The form of memory is
the model's own; that what is unlisted reads as zero is log entry 6.) -/
def Obligations.EveryStepKeepsTheMemoriesCanonical : Prop :=
  ∀ s t : State, s.memOk → step s = .next t → t.memOk

/-- For every command, in every state: the commands that wait behind it stay as they are and in their order, the part keeps its
grade (R1), what has left the device (messages, interrupts, packets, flits) stays on its list in its order, and the number of free
values taken does not fall (the model's own field, log entry 8). -/
def Obligations.WhatHasLeftIsNeverTakenBack : Prop :=
  ∀ (i : Instr) (s t : State), exec i s = .next t →
    t.pending = s.pending ∧ t.grade = s.grade ∧ s.out <+: t.out ∧ s.free ≤ t.free

/-- Whatever command runs, in every state, resets and power losses included, the anti-rollback counter of the OTP does not fall
(R436). The revocation bits beside it stay too: the manual gives no command that writes them. -/
def Obligations.TheAntiRollbackCounterNeverFalls : Prop :=
  ∀ s t : State, step s = .next t → s.hmk.counter ≤ t.hmk.counter ∧ t.hmk.revoked = s.hmk.revoked

/-- Capture sets OWN to TAKEN, keeps the header that the host wrote, and clears status, result_len, op_handle and detail (R26).
Completion of a mailbox in TAKEN or RUNNING writes the result into the payload area, result_len, detail, status, op_handle and
ct_done, and sets OWN to DONE, leaving the header (R30); every other mailbox stays. With SHADOW set and host memory that takes it,
the 16 bytes of the shadow record stand at shadow_addr (R31). -/
def Obligations.ServedCommandsCompleteTheirMailbox : Prop :=
  (∀ (m : Moment) (r : Req) (s : State) (fn n : Nat), r.src = .mailbox fn n →
    let x := getMbx (taken m r s) fn n
    x.own = .taken ∧ x.hdr = r.hdr ∧ x.status = 0 ∧ x.resultLen = 0 ∧ x.opHandle = 0 ∧ x.detail = 0) ∧
  (∀ (r : Req) (status detail handle : Nat) (result : Bytes) (quiet : Bool) (u : State) (fn n : Nat), r.src = .mailbox fn n →
    (getMbx u fn n).own = .taken ∨ (getMbx u fn n).own = .running →
    let t := complete r status detail handle result quiet u
    let x := getMbx t fn n
    x.own = .done ∧ x.hdr = (getMbx u fn n).hdr ∧ x.status = status ∧ x.detail = detail ∧ x.opHandle = handle ∧
    x.resultLen = result.length ∧ x.ctDone = u.ct ∧ (∀ i, (h : i < result.length) → Mem.byte x.payload i = result[i]) ∧
    (∀ fn' n', mbxKey fn' n' ≠ mbxKey fn n → getMbx t fn' n' = getMbx u fn' n') ∧
    (bit r.hdr.flags 3 = true → bit r.hdr.flags 0 = false → hostErr u r.hdr.shadowAddr 16 = none →
      ∀ i, (h : i < 16) → Mem.byte t.hostMem (r.hdr.shadowAddr + i) =
        (u32 r.hdr.seq ++ u16 status ++ u16 r.mbx ++ u32 handle ++ u32 detail).getD i 0))

/-- Around the effect that a command's own rule gives it, the envelope changes only what R26 to R32, R305 and R395 name: the
mailboxes and the functions' rings, the Tally, the counters, host memory (the shadow record, event records), what leaves the
device, the links' queues and the boot log. A command that fails changes nothing else (R29). -/
def Obligations.ServedCommandsTouchOnlyTheEnvelope : Prop :=
  (∀ (m : Moment) (r : Req) (s : State), Env (s.at m) (taken m r s)) ∧
  (∀ (i : OpInfo) (r : Req) (result : Bytes) (detail : Nat) (u : State), Env u (ended i r result u detail)) ∧
  (∀ (i : OpInfo) (r : Req) (u : State), Env u (goesOn i r u)) ∧
  (∀ (r : Req) (status detail : Nat) (u : State), Env u (failed r status detail u)) ∧
  (∀ (i : OpInfo) (r : Req) (a : Reply), Env a.st (answered i r a))

/-- Whatever a command's own checks and effect are: a header or RSVD field out of range or a misaligned address completes it with
BAD_FIELD, and a bad msix_vector suppresses the interrupt; where none is, a command that is not open to the function completes
with NOT_PERMITTED; in both cases nothing but the envelope changes. A device on which a command finds neither runs the command's
own checks last. -/
def Obligations.TheChecksComeInTheirOrder : Prop :=
  ∀ (i : OpInfo) (body : Moment → Req → State → Reply) (m : Moment) (r : Req) (s : State) (fn n : Nat),
    r.src = .mailbox fn n → r.hdr.opcode = i.opcode → hostReach (s.at m) = true → fnRefused (s.at m) fn = false →
    (getMbx (s.at m) fn n).own = .idle ∨ (getMbx (s.at m) fn n).own = .done → watcherTakes (postIn r (s.at m)) fn n = true →
    let badField := headerBad r.hdr || rsvdBad i r.payload || i.align.any (fun x => r.f x.1 8 % x.2 ≠ 0) ||
      i.alignOn.any (fun x => r.f x.1 1 = 1 && r.f x.2.1 8 % x.2.2 ≠ 0)
    let notOpen := r.fn ≠ 0 && (i.pf0 || (r.hdr.partition ≠ 0xFF && r.hdr.partition ≠ r.fn - 1))
    let quiet := decide (2048 ≤ r.hdr.msixVector) && r.hdr.msixVector ≠ 0xFFFF
    (badField = true → runCommand i body m r s = complete r St.badField 0 0 [] quiet (taken m r s) ∧
      Env (s.at m) (runCommand i body m r s)) ∧
    (badField = false → notOpen = true → runCommand i body m r s = complete r St.notPermitted 0 0 [] false (taken m r s) ∧
      Env (s.at m) (runCommand i body m r s))

/-- NOP, QUERY, PROGRESS and the queries and reads of the Foundry, the Pattern tree, the models, the table sets, the Planisher,
the Gauge, the Tally, Touchstone, the Gather unit, the network, Swilan, the twin pairs, the Mould, the Hallmark, power, retention
and DIAG, and TLY_CONFIG (whose switch is the Tally's), for every request and state, served or not, change nothing but the
envelope: no session, memory of the device, register or table of a unit. -/
def Obligations.QueriesLeaveEveryUnitAlone : Prop :=
  ∀ (m : Moment) (r : Req) (s : State), ∀ f ∈ ([.nop, .query, .progress, .fdyDirRead, .ptnRead, .modelQuery, .tablesetQuery, .classRead, .gaugeReport, .tlyRead,
        .tlyEvidence, .tchIndexQuery, .gthTableQuery, .netQpQuery, .netMapRead, .netRegionQuery, .swlQuery, .twinQuery,
        .mldGroupQuery, .hmkPartitionQuery, .hmkAttest, .hmkCertRead, .pwrQuery, .aonLifeRead, .diagTraining, .diagErrors,
        .diagBootLog, .tlyConfig] : List (Moment → Req → Instr)),
    ∃ t, exec (f m r) s = .next t ∧ Env (s.at m) t

/-- For every request and state, served or not: CT_LEAP_LOAD changes the clock alone; AON_SETTINGS_SAVE retention; HMK_KEY_LOAD,
HMK_KEY_DESTROY and HMK_ROLLBACK_COMMIT the Hallmark; DIAG_VIEW_CHECK and DIAG_INJECT the error unit; MLD_GROUP_SET the Mould;
NET_CC_SET, NET_PTP_SET, NET_REGION_REG, NET_REGION_DEREG and NET_QP_CONNECT the network; METER_READ and METER_SET the Planisher;
GAUGE_CONFIG the Gauge; FDY_CONFIG the Foundry; PTN_PIN the trees; ATT_CONFIG the tiles; PAGE_POOL_CONFIG the frames.
PARTITION_SHARE changes the Planisher and STREAM_RING_SET the Planisher and the network (the write of a remote ring's produced
count), and what then stands at a step boundary settles. -/
def Obligations.SettingsTouchTheirUnitOnly : Prop :=
  ∀ (m : Moment) (r : Req) (s : State),
    (∀ f ∈ ([.ctLeapLoad] : List (Moment → Req → Instr)), ∃ t, exec (f m r) s = .next t ∧ Env { s.at m with clk := t.clk } t) ∧
    (∀ f ∈ ([.aonSettingsSave] : List (Moment → Req → Instr)), ∃ t, exec (f m r) s = .next t ∧ Env { s.at m with aon := t.aon } t) ∧
    (∀ f ∈ ([.hmkKeyLoad, .hmkKeyDestroy, .hmkRollbackCommit] : List (Moment → Req → Instr)), ∃ t, exec (f m r) s = .next t ∧ Env { s.at m with hmk := t.hmk } t) ∧
    (∀ f ∈ ([.diagViewCheck, .diagInject] : List (Moment → Req → Instr)), ∃ t, exec (f m r) s = .next t ∧ Env { s.at m with err := t.err } t) ∧
    (∀ f ∈ ([.mldGroupSet] : List (Moment → Req → Instr)), ∃ t, exec (f m r) s = .next t ∧ Env { s.at m with mld := t.mld } t) ∧
    (∀ f ∈ ([.netCcSet, .netPtpSet, .netRegionReg, .netRegionDereg, .netQpConnect] : List (Moment → Req → Instr)), ∃ t, exec (f m r) s = .next t ∧ Env { s.at m with net := t.net } t) ∧
    (∀ f ∈ ([.meterRead, .meterSet] : List (Moment → Req → Instr)), ∃ t, exec (f m r) s = .next t ∧ Env { s.at m with pla := t.pla } t) ∧
    (∀ f ∈ ([.gaugeConfig] : List (Moment → Req → Instr)), ∃ t, exec (f m r) s = .next t ∧ Env { s.at m with gau := t.gau } t) ∧
    (∀ f ∈ ([.fdyConfig] : List (Moment → Req → Instr)), ∃ t, exec (f m r) s = .next t ∧ Env { s.at m with fdy := t.fdy } t) ∧
    (∀ f ∈ ([.ptnPin] : List (Moment → Req → Instr)), ∃ t, exec (f m r) s = .next t ∧ Env { s.at m with trees := t.trees } t) ∧
    (∀ f ∈ ([.attConfig] : List (Moment → Req → Instr)), ∃ t, exec (f m r) s = .next t ∧ Env { s.at m with tile := t.tile } t) ∧
    (∀ f ∈ ([.pagePoolConfig] : List (Moment → Req → Instr)), ∃ t, exec (f m r) s = .next t ∧ Env { s.at m with frames := t.frames } t) ∧
    (∃ t, exec (.partitionShare m r) s = .next (settleAll m t) ∧ Env { s.at m with pla := t.pla } t) ∧
    (∃ t, exec (.streamRingSet m r) s = .next (settleAll m t) ∧ Env { s.at m with pla := t.pla, net := t.net } t)

/-- A BAR2 write that an enabled aperture takes, over memory whose power groups are ACTIVE, stores each byte where the aperture's
partition, tier and offset put it, and changes nothing else: every other byte of device memory reads as before, and so does the
memory of every partition that shares no granule with it (R16, R17, R442). (What a device table that lies there shows over these
bytes is log entry 63.) A write that no aperture takes is discarded. -/
def Obligations.ApertureWritesReachTheirBytesAlone : Prop :=
  (∀ (m : Moment) (fn offset : Nat) (data : Bytes) (a : Aperture) (s : State),
    let u := s.at m
    let key := fun i : Nat => devKey a.tier (partAddr u a.partition a.tier (a.memOffset + (offset - a.barOffset) + i))
    fn ≤ 16 → offset + data.length ≤ bar2Size fn → hostReach u = true → fnRefused u fn = false → a.tier = 1 ∨ a.tier = 2 →
    apertureOf u fn offset data.length = some a →
    (accessGroups u (a.access fn offset data.length (some data))).find? (fun g => (getGroup u g).state ≠ 3) = none →
    ∃ t, exec (.bar2Write m fn offset data) s = .next t ∧ t = { u with devMem := t.devMem } ∧
      (∀ i, (h : i < data.length) → Mem.byte t.devMem (key i) = data[i]) ∧
      (∀ k, (∀ i < data.length, k ≠ key i) → Mem.byte t.devMem k = Mem.byte u.devMem k) ∧
      (∀ p tier off, tier = 1 ∨ tier = 2 → (tier = a.tier → ∀ g ∈ granules u p tier, g ∉ granules u a.partition tier) →
        off < partBytes u p tier → partRead t p tier off 1 = partRead u p tier off 1)) ∧
  (∀ (m : Moment) (fn offset : Nat) (data : Bytes) (s : State), apertureOf (s.at m) fn offset data.length = none →
    ∃ t, exec (.bar2Write m fn offset data) s = .next t ∧ t.devMem = s.devMem)

/-- For every state and partition: PSTATE, TDI, CONFIDENTIAL, SIGNED_IMAGES, KEK_SET and the three granule counts, each 0 to 16,
stand at the bits that R458 gives them, the reserved bits are 0, the word reads 0 after reset, BAR0 shows it at 0x0040_B100 + 4 ×
partition, and a write there changes nothing. -/
def Obligations.HmkPartHasItsFields : Prop :=
  (∀ (s : State) (p : Nat),
    let w := hmkPart s p
    let x := getPart s p
    w / 2 ^ 30 = (match x.pstate with | .off => 0 | .active => 1 | .teardown => 2) ∧
    w / 2 ^ 27 % 8 = (match x.tdi with | .none => 0 | .unlocked => 1 | .locked => 2 | .run => 3 | .error => 4) ∧
    w / 2 ^ 26 % 2 = (if x.confidential then 1 else 0) ∧ w / 2 ^ 25 % 2 = (if x.signedImages then 1 else 0) ∧
    w / 2 ^ 24 % 2 = (if x.kek.isSome then 1 else 0) ∧ w / 2 ^ 20 % 16 = 0 ∧
    w / 2 ^ 15 % 32 = (setBits 16 x.tileMask).length ∧ w / 2 ^ 15 % 32 ≤ 16 ∧
    w / 2 ^ 10 % 32 = (setBits 16 x.hbmMask).length ∧ w / 2 ^ 10 % 32 ≤ 16 ∧
    w / 2 ^ 5 % 32 = (setBits 16 x.lpddrMask).length ∧ w / 2 ^ 5 % 32 ≤ 16 ∧ w % 32 = 0 ∧ w < 2 ^ 32) ∧
  (∀ p : Nat, hmkPart State.reset p = 0) ∧
  (∀ (s : State) (fn p : Nat), p < 16 → shows fn p = true → bar0Read fn (0x40B100 + 4 * p) 4 s = u32 (hmkPart s p)) ∧
  (∀ (m : Moment) (fn p value : Nat) (s : State), p < 16 → hostReach (s.at m) = true → fnRefused (s.at m) fn = false →
    exec (.registerWrite m fn 0 (0x40B100 + 4 * p) 4 value) s = .next (s.at m))

/-- For every group whose registers are in range: PRESENT, QUEUED, PHASE, PERF_RESTORE and PERF (of tile clusters only), TARGET
(the state of the transition in progress, or STATE) and STATE stand at the bits that R486 gives them, the reserved bits are 0, a
group that the grade does not have reads 0, BAR0 shows the word at 0x0040_C000 + 4 × group, and a write there changes nothing. -/
def Obligations.PwrGroupHasItsFields : Prop :=
  (∀ (s : State) (g : Nat),
    let w := groupWord s g
    let x := getGroup s g
    let target := (match x.run with | some t => t.state.getD x.state | none => x.state)
    let phase := (match x.run with | some t => t.phase | none => 0)
    groupPresent s g = true → x.held.length ≤ 4 → phase ≤ 5 → x.restore < 4 → x.perf < 4 → target < 4 → x.state < 4 →
    w / 2 ^ 31 = 1 ∧ w / 2 ^ 24 % 128 = 0 ∧ w / 2 ^ 20 % 16 = x.held.length ∧ w / 2 ^ 16 % 16 = phase ∧ w / 2 ^ 12 % 16 = 0 ∧
    w / 2 ^ 10 % 4 = (if g < 16 then x.restore else 0) ∧ w / 2 ^ 8 % 4 = (if g < 16 then x.perf else 0) ∧ w / 2 ^ 6 % 4 = 0 ∧
    w / 2 ^ 4 % 4 = target ∧ w / 2 ^ 2 % 4 = 0 ∧ w % 4 = x.state) ∧
  (∀ (s : State) (g : Nat), groupPresent s g = false → groupWord s g = 0) ∧
  (∀ (s : State) (g : Nat), groupPresent s g = true ↔ g < 64 ∧ (16 ≤ g ∨ g < (match s.grade with | .as760 => 16 | .as744 => 14))) ∧
  (∀ (s : State) (fn g : Nat), g < 64 → bar0Read fn (0x40C000 + 4 * g) 4 s = u32 (groupWord s g)) ∧
  (∀ (m : Moment) (fn g value : Nat) (s : State), g < 64 → hostReach (s.at m) = true → fnRefused (s.at m) fn = false →
    exec (.registerWrite m fn 0 (0x40C000 + 4 * g) 4 value) s = .next (s.at m))

/-- For every link and pair whose fields are in range: FAULT_CAUSE, LANES_GOOD, PEER_CHIP and LSTATE, and DEPTH, ON_LOSS, SIDE,
PEER and TSTATE, stand at the bits that R403 gives them, and the reserved bits are 0; both words read 0 after reset. -/
def Obligations.SwlLinkAndTwinPairHaveTheirFields : Prop :=
  (∀ l : Link, l.cause ≤ 3 → l.lanes < 256 → l.peerChip < 8 →
    let w := linkWord l
    w / 2 ^ 28 = 0 ∧ w / 2 ^ 24 % 16 = l.cause ∧ w / 2 ^ 16 % 256 = l.lanes ∧ w / 2 ^ 11 % 32 = 0 ∧ w / 2 ^ 8 % 8 = l.peerChip ∧
    w / 2 ^ 3 % 32 = 0 ∧
    w % 8 = (match l.lstate with | .disabled => 0 | .training => 1 | .up => 2 | .degraded => 3 | .absent => 4 | .fault => 5)) ∧
  (∀ (s : State) (p : Nat) (x : Pair), tget s.twn.pairs p = some x → 1 ≤ x.depth → x.depth ≤ 8 → x.onLoss < 2 → x.peer < 8 →
    let w := pairWord s p
    w / 2 ^ 20 = 0 ∧ w / 2 ^ 16 % 16 = x.depth ∧ w / 2 ^ 9 % 128 = 0 ∧ w / 2 ^ 8 % 2 = x.onLoss ∧
    w / 2 ^ 7 % 2 = (if x.secondary then 1 else 0) ∧ w / 2 ^ 4 % 8 = x.peer ∧ w / 2 ^ 2 % 4 = 0 ∧
    w % 4 = (match x.tstate with | .locked => 1 | .lost => 2)) ∧
  (∀ (s : State) (p : Nat), tget s.twn.pairs p = none → pairWord s p = 0) ∧
  (∀ n : Nat, linkWord (getLink State.reset n) = 0) ∧ (∀ p : Nat, pairWord State.reset p = 0) ∧
  (∀ (s : State) (fn n : Nat), n < 7 → bar0Read fn (0x409000 + 4 * n) 4 s = u32 (linkWord (getLink s n))) ∧
  (∀ (s : State) (fn p : Nat), p < 16 → shows fn p = true → bar0Read fn (0x409100 + 4 * p) 4 s = u32 (pairWord s p)) ∧
  (∀ (m : Moment) (fn off value : Nat) (s : State), off < 0x140 → off % 4 = 0 → hostReach (s.at m) = true → fnRefused (s.at m) fn = false →
    exec (.registerWrite m fn 0 (0x409000 + off) 4 value) s = .next (s.at m))

/-- LONG_OP_ACCEPT of an operation without a handle gives it [31:27] its function and [26:0] the first serial, counting on from
the function's and wrapping from 0x7FF_FFFF to 1, that no live and no retained handle of the function has; the handle is not 0,
and the function's serial becomes the one after it. After reset each function's serial is 1. -/
def Obligations.HandlesAreGivenInOrder : Prop :=
  (∀ (m : Moment) (n : Nat) (o : LongOp) (s : State),
    let u := s.at m
    let used := usedSerials u o.fn
    let walk := fun i : Nat => ((fnState u o.fn).serial - 1 + i) % 0x7FFFFFF + 1
    getOp u n = some o → o.handle = 0 → o.orphan = false → o.fn ≤ 16 → 1 ≤ (fnState u o.fn).serial →
    (fnState u o.fn).serial ≤ 0x7FFFFFF → used.length < 0x7FFFFFF →
    ∃ t j o', exec (.longOpAccept m n) s = .next t ∧ (∀ i < j, walk i ∈ used) ∧ walk j ∉ used ∧ getOp t n = some o' ∧
      o'.handle = o.fn * 2 ^ 27 + walk j ∧ o'.handle / 2 ^ 27 = o.fn ∧ o'.handle ≠ 0 ∧
      (fnState t o.fn).serial = walk j % 0x7FFFFFF + 1) ∧
  (∀ fn : Nat, (fnState State.reset fn).serial = 1)
end

