-- ==== Sys2Proof/Laws/Envelope.lean ====
section
/-! SUPPORT. What the command envelope changes: mailboxes, functions, ledgers, counters, host memory, the boot log, links, and
what leaves the device. Everything else is as before. -/

namespace Sys2Proof.Machine

theorem Env.refl (s : State) : Env s s := rfl

theorem Env.trans {a b c : State} (h : Env a b) (g : Env b c) : Env a c := by
  unfold Env at *
  rw [g, h]

/-! The units outside the envelope are as they were. -/

theorem Env.ct {s t : State} (h : Env s t) : t.ct = s.ct := by rw [h]
theorem Env.free {s t : State} (h : Env s t) : t.free = s.free := by rw [h]
theorem Env.devMem {s t : State} (h : Env s t) : t.devMem = s.devMem := by rw [h]
theorem Env.pln {s t : State} (h : Env s t) : t.pln = s.pln := by rw [h]
theorem Env.fdy {s t : State} (h : Env s t) : t.fdy = s.fdy := by rw [h]
theorem Env.frames {s t : State} (h : Env s t) : t.frames = s.frames := by rw [h]
theorem Env.trees {s t : State} (h : Env s t) : t.trees = s.trees := by rw [h]
theorem Env.tile {s t : State} (h : Env s t) : t.tile = s.tile := by rw [h]
theorem Env.txt {s t : State} (h : Env s t) : t.txt = s.txt := by rw [h]
theorem Env.pla {s t : State} (h : Env s t) : t.pla = s.pla := by rw [h]
theorem Env.gau {s t : State} (h : Env s t) : t.gau = s.gau := by rw [h]
theorem Env.tch {s t : State} (h : Env s t) : t.tch = s.tch := by rw [h]
theorem Env.gth {s t : State} (h : Env s t) : t.gth = s.gth := by rw [h]
theorem Env.net {s t : State} (h : Env s t) : t.net = s.net := by rw [h]
theorem Env.twn {s t : State} (h : Env s t) : t.twn = s.twn := by rw [h]
theorem Env.mld {s t : State} (h : Env s t) : t.mld = s.mld := by rw [h]
theorem Env.chk {s t : State} (h : Env s t) : t.chk = s.chk := by rw [h]
theorem Env.hmk {s t : State} (h : Env s t) : t.hmk = s.hmk := by rw [h]
theorem Env.pwr {s t : State} (h : Env s t) : t.pwr = s.pwr := by rw [h]
theorem Env.clk {s t : State} (h : Env s t) : t.clk = s.clk := by rw [h]
theorem Env.aon {s t : State} (h : Env s t) : t.aon = s.aon := by rw [h]
theorem Env.elec {s t : State} (h : Env s t) : t.elec = s.elec := by rw [h]
theorem Env.pending {s t : State} (h : Env s t) : t.pending = s.pending := by rw [h]
theorem Env.hostFaults {s t : State} (h : Env s t) : t.hostFaults = s.hostFaults := by rw [h]
theorem Env.grade {s t : State} (h : Env s t) : t.grade = s.grade := by rw [h]
theorem Env.ops {s t : State} (h : Env s t) : t.bench.ops = s.bench.ops := by rw [h]
theorem Env.devState {s t : State} (h : Env s t) : t.bench.devState = s.bench.devState := by rw [h]

theorem env_emit {a s : State} {o : Output} (h : Env a s) : Env a (emit o s) := h.trans rfl
theorem env_hostWrite {a s : State} {n : Nat} {b : Bytes} (h : Env a s) : Env a (hostWrite n b s) := h.trans rfl
theorem env_setFn {a s : State} {fn : Nat} {f : FnState} (h : Env a s) : Env a (setFn fn f s) := h.trans rfl
theorem env_setLink {a s : State} {n : Nat} {l : Link} (h : Env a s) : Env a (setLink n l s) := h.trans rfl
theorem env_postHalf {a s : State} {p : Half} {x y : Nat} (h : Env a s) : Env a (postHalf p x y s) := h.trans rfl
theorem env_ite {a s t : State} {p : Prop} [Decidable p] (h : Env a s) (g : Env a t) : Env a (if p then s else t) := by
  split <;> assumption

theorem env_foldl {a s : State} {α : Type} {f : State → α → State} {l : List α} (h : Env a s)
    (hf : ∀ s x, Env a s → Env a (f s x)) : Env a (l.foldl f s) := by
  induction l generalizing s with
  | nil => exact h
  | cons x l ih => exact ih (hf s x h)

theorem env_bump {a s : State} {c : Ctr} {p n : Nat} (h : Env a s) : Env a (bump c p n s) := by
  unfold bump
  split <;> exact h.trans rfl

theorem env_post {a s : State} {l : List Half} {x y : Nat} (h : Env a s) : Env a (post l x y s) := by
  unfold post
  exact (env_bump (env_foldl h fun _ _ h => env_postHalf h)).trans rfl

theorem env_move {a s : State} {c i x y n p q : Nat} (h : Env a s) : Env a (move c i x y n p q s) := env_post h

theorem env_sendMsix {a s : State} {fn v : Nat} (h : Env a s) : Env a (sendMsix fn v s) := by
  unfold sendMsix
  split
  · dsimp only
    split
    · exact env_setFn h
    · exact env_emit h
  · exact h

theorem env_dropEvent {a s : State} {fn : Nat} (h : Env a s) : Env a (dropEvent fn s) := env_setFn h

theorem env_putRecord {a s : State} {fn : Nat} {k : Nat → Bytes} (h : Env a s) : Env a (putRecord fn k s) := by
  unfold putRecord
  dsimp only
  split
  · exact env_setFn h
  · split
    · exact env_sendMsix (env_setFn (env_hostWrite h))
    · exact env_setFn (env_hostWrite h)

theorem env_putEvent {a s : State} {fn : Nat} {e : Event} (h : Env a s) : Env a (putEvent fn e s) := env_putRecord h

theorem env_tellOverflow {a s : State} {fn : Nat} (h : Env a s) : Env a (tellOverflow fn s) := by
  unfold tellOverflow
  dsimp only
  split
  · exact env_setFn (env_putEvent h)
  · exact h

theorem env_offerEvent {a s : State} {fn : Nat} {e : Event} (h : Env a s) : Env a (offerEvent fn e s) := by
  unfold offerEvent
  have g : Env a (tellOverflow fn s) := env_tellOverflow h
  dsimp only
  split
  · split
    · split
      · exact env_putEvent g
      · exact env_dropEvent g
    · split
      · exact env_setFn g
      · exact g
  · exact g

theorem env_logEvent {a s : State} {e : Event} (h : Env a s) : Env a (logEvent e s) := by
  unfold logEvent
  split
  · split
    · exact h.trans rfl
    · exact env_setFn h
  · dsimp only
    split
    · exact env_offerEvent (env_offerEvent h)
    · exact env_offerEvent h

theorem env_note {a s : State} {c v p x : Nat} {l : List Nat} (h : Env a s) : Env a (note c v p x l s) := env_logEvent h
theorem env_violation {a s : State} {f n o v : Nat} (h : Env a s) : Env a (violation f n o v s) := env_logEvent (env_setFn h)
theorem env_logSgFault {a s : State} {r : Req} {i k : Nat} (h : Env a s) : Env a (logSgFault r i k s) := env_logEvent h

theorem env_sendFlits {a s : State} {l v n : Nat} (h : Env a s) : Env a (sendFlits l v n s) :=
  env_post (env_bump (env_setLink h))

theorem env_pumpVc {a : State} (l v n : Nat) {s : State} (h : Env a s) : Env a (pumpVc l v n s) := by
  induction n generalizing s with
  | zero => exact h
  | succ n ih =>
    unfold pumpVc
    dsimp only
    split
    · exact h
    · split
      · exact h
      · split
        · exact env_setLink (env_sendFlits h)
        · exact ih (env_emit (env_setLink (env_sendFlits h)))

theorem env_pumpLink {a s : State} {l : Nat} (h : Env a s) : Env a (pumpLink l s) := by
  unfold pumpLink
  split
  · exact env_foldl h fun _ _ h => env_pumpVc _ _ _ h
  · exact h

theorem env_sendSwl {a s : State} {o : Output} (h : Env a s) : Env a (sendSwl o s) := by
  unfold sendSwl
  split
  · dsimp only
    split
    · exact env_pumpLink (env_setLink h)
    · exact h
  · exact env_emit h

theorem env_swlGot {a s : State} {l v n : Nat} (h : Env a s) : Env a (swlGot l v n s) :=
  env_emit (env_post (env_bump (env_setLink h)))

theorem env_setMbx {a s : State} {fn n : Nat} {x : Mailbox} (h : Env a s) : Env a (setMbx fn n x s) := by
  have g : Env a { s with bench := { s.bench with mbx := tset s.bench.mbx (mbxKey fn n) x } } := h.trans rfl
  unfold setMbx
  dsimp only
  split
  · exact g
  · exact env_move g

theorem env_capture {a s : State} {r : Req} (h : Env a s) : Env a (capture r s) := by
  unfold capture
  split
  · exact env_setMbx h
  · exact h

theorem env_postIn {a s : State} {r : Req} (h : Env a s) : Env a (postIn r s) := by
  unfold postIn
  split
  · exact env_setMbx (env_setFn h)
  · exact h

theorem env_writeShadow {a s : State} {r : Req} {x y z : Nat} (h : Env a s) : Env a (writeShadow r x y z s) := by
  unfold writeShadow
  split
  · split
    · exact env_logSgFault h
    · exact env_hostWrite h
  · exact h

/-- A completion changes nothing but the envelope. -/
theorem env_complete {a s : State} {r : Req} {x y z : Nat} {b : Bytes} {q : Bool} (h : Env a s) : Env a (complete r x y z b q s) := by
  unfold complete
  split
  · dsimp only
    split
    · split
      · exact env_sendMsix (env_writeShadow (env_setMbx h))
      · exact env_writeShadow (env_setMbx h)
    · exact h
  · exact env_emit h
  · exact env_sendSwl h
  · exact h
  · exact h

theorem env_mirror {a s : State} {i : Nat} {r : Req} {b : Bytes} (h : Env a s) : Env a (mirror i r b s) := by
  unfold mirror
  split
  · split
    · exact h
    · exact env_sendSwl h
  · exact h

/-- A command's taking changes nothing but the envelope. -/
theorem env_taken {a s : State} {m : Moment} {r : Req} (h : Env a (s.at m)) : Env a (taken m r s) := env_capture (env_postIn h)

/-- Nor does its end. -/
theorem env_ended {a u : State} {i : OpInfo} {r : Req} {b : Bytes} {d : Nat} (h : Env a u) : Env a (ended i r b u d) :=
  env_complete (env_mirror h)
theorem env_failed {a u : State} {r : Req} {c d : Nat} (h : Env a u) : Env a (failed r c d u) := env_complete h
theorem env_goesOn {a u : State} {i : OpInfo} {r : Req} (h : Env a u) : Env a (goesOn i r u) := env_mirror h

end Sys2Proof.Machine
end

