-- ==== Sys2Proof/Laws/Framed.lean ====
section
/-! SUPPORT. What a whole Chavy command changes, from what its body changes: the frame of its refusals, waits and completions. -/

namespace Sys2Proof.Machine

/-- A relation of states that what an envelope changes does not disturb, before or after. -/
structure Frame (K : State → State → Prop) : Prop where
  env    : ∀ {a u : State}, Env a u → K a u
  after  : ∀ {a u v : State}, K a u → Env u v → K a v
  before : ∀ {a u v : State}, Env a u → K u v → K a v

theorem env_frame : Frame Env := ⟨fun h => h, fun h g => h.trans g, fun h g => h.trans g⟩

/-! ### One unit beside the envelope -/

theorem frame_clk : Frame (fun a v => Env { a with clk := v.clk } v) where
  env h := by rw [h.clk]; exact h
  after h g := by rw [g.clk]; exact h.trans g
  before {a u v} h g := Env.trans (by unfold Env at h ⊢; rw [h]) g

theorem frame_aon : Frame (fun a v => Env { a with aon := v.aon } v) where
  env h := by rw [h.aon]; exact h
  after h g := by rw [g.aon]; exact h.trans g
  before {a u v} h g := Env.trans (by unfold Env at h ⊢; rw [h]) g

theorem frame_hmk : Frame (fun a v => Env { a with hmk := v.hmk } v) where
  env h := by rw [h.hmk]; exact h
  after h g := by rw [g.hmk]; exact h.trans g
  before {a u v} h g := Env.trans (by unfold Env at h ⊢; rw [h]) g

theorem frame_mld : Frame (fun a v => Env { a with mld := v.mld } v) where
  env h := by rw [h.mld]; exact h
  after h g := by rw [g.mld]; exact h.trans g
  before {a u v} h g := Env.trans (by unfold Env at h ⊢; rw [h]) g

theorem frame_net : Frame (fun a v => Env { a with net := v.net } v) where
  env h := by rw [h.net]; exact h
  after h g := by rw [g.net]; exact h.trans g
  before {a u v} h g := Env.trans (by unfold Env at h ⊢; rw [h]) g

theorem frame_pla : Frame (fun a v => Env { a with pla := v.pla } v) where
  env h := by rw [h.pla]; exact h
  after h g := by rw [g.pla]; exact h.trans g
  before {a u v} h g := Env.trans (by unfold Env at h ⊢; rw [h]) g

theorem frame_gau : Frame (fun a v => Env { a with gau := v.gau } v) where
  env h := by rw [h.gau]; exact h
  after h g := by rw [g.gau]; exact h.trans g
  before {a u v} h g := Env.trans (by unfold Env at h ⊢; rw [h]) g

theorem frame_fdy : Frame (fun a v => Env { a with fdy := v.fdy } v) where
  env h := by rw [h.fdy]; exact h
  after h g := by rw [g.fdy]; exact h.trans g
  before {a u v} h g := Env.trans (by unfold Env at h ⊢; rw [h]) g

theorem frame_trees : Frame (fun a v => Env { a with trees := v.trees } v) where
  env h := by rw [h.trees]; exact h
  after h g := by rw [g.trees]; exact h.trans g
  before {a u v} h g := Env.trans (by unfold Env at h ⊢; rw [h]) g

theorem frame_tile : Frame (fun a v => Env { a with tile := v.tile } v) where
  env h := by rw [h.tile]; exact h
  after h g := by rw [g.tile]; exact h.trans g
  before {a u v} h g := Env.trans (by unfold Env at h ⊢; rw [h]) g

theorem frame_frames : Frame (fun a v => Env { a with frames := v.frames } v) where
  env h := by rw [h.frames]; exact h
  after h g := by rw [g.frames]; exact h.trans g
  before {a u v} h g := Env.trans (by unfold Env at h ⊢; rw [h]) g

theorem frame_err : Frame (fun a v => Env { a with err := v.err } v) where
  env {a u} h := by unfold Env at h ⊢; rw [h]
  after {a u v} h g := by unfold Env at h g ⊢; rw [g, h]
  before {a u v} h g := Env.trans (by unfold Env at h ⊢; rw [h]) g

/-- A command without an engine of its own, for a body that keeps the frame. -/
theorem framed_step {K : State → State → Prop} (F : Frame K) {i : OpInfo} {body : Moment → Req → State → Reply} {m : Moment} {q : Req}
    {u : State} (he : engineOf i.opcode q = none) (hb : K u (body m q u).st) : K u (commandStep i body m q u) := by
  unfold commandStep
  split
  · exact F.env (env_complete (Env.refl u))
  · rw [he]
    dsimp only [Option.filter]
    split
    · split
      · exact F.after hb (env_mirror (Env.refl _))
      · exact hb
    · split
      · exact F.after hb (env_complete (env_mirror (Env.refl _)))
      · exact F.after hb (env_complete (Env.refl _))

/-- A command without an engine of its own, from its posting on. -/
theorem framed {K : State → State → Prop} (F : Frame K) {i : OpInfo} {body : Moment → Req → State → Reply} {m : Moment} {r : Req}
    {s : State} (he : ∀ q, engineOf i.opcode q = none) (hb : ∀ q u, K u (body m q u).st) : K (s.at m) (runCommand i body m r s) := by
  have hs (q : Req) (u : State) : K u (commandStep i body m q u) := framed_step F (he q) (hb q u)
  have e := Env.refl (s.at m)
  unfold runCommand
  dsimp only
  split
  · split
    · exact F.env e
    · split
      · exact F.env (env_emit e)
      · split
        · split
          · exact F.before (env_capture (env_postIn e)) (hs _ _)
          · exact F.env (env_postIn e)
        · exact F.env (env_violation e)
  · split
    · exact F.env e
    · exact hs _ _
  · exact hs _ _

theorem env_reply_ok {a s : State} {b : Bytes} (h : Env a s) : Env a (Reply.ok s b).st := h
theorem env_reply_err {a s : State} {c d : Nat} (h : Env a s) : Env a (Reply.err s c d).st := h

theorem env_reply_sg {a s : State} {r : Req} {e : SgErr} (h : Env a s) : Env a (Reply.sg r s e).st := by
  cases e with
  | badField => exact h
  | fault => exact env_logSgFault h

theorem env_sgWrite {a : State} (l : List SgEntry) (b : Bytes) {s : State} (h : Env a s) : Env a (sgWrite l b s).1 := by
  induction l generalizing b s with
  | nil => exact h
  | cons e l ih =>
    unfold sgWrite
    split
    · exact h
    · dsimp only
      split
      · exact h
      · exact ih _ (env_hostWrite h)

theorem env_replyData {a s : State} {r : Req} {n : Nat} {b c : Bytes} (h : Env a s) : Env a (replyData r n b c s).st := by
  unfold replyData
  split
  · exact h
  · split
    · exact env_reply_sg h
    · next l _ =>
      have g : Env a (sgWrite l b s).1 := env_sgWrite l b h
      split
      · next h2 => rw [h2] at g; exact g
      · next h2 => rw [h2] at g; exact env_reply_sg g

theorem env_listOrHead {a s : State} {r : Req} {b : Bytes} (h : Env a s) : Env a (listOrHead r b s).st := by
  unfold listOrHead
  split
  · exact h
  · exact env_replyData h

end Sys2Proof.Machine
end

