-- ==== Sys2Proof/Laws/Frames.lean ====
section
/-! SUPPORT. The frames of the commands that only read and of those that set one unit: what their bodies change. -/

namespace Sys2Proof.Machine

theorem env_bodyNop (m : Moment) (q : Req) (u : State) : Env u (bodyNop m q u).st := by
  unfold bodyNop
  repeat' (split <;> try dsimp only)
  all_goals first | exact Env.refl _ | exact env_reply_sg rfl | exact env_replyData rfl | exact env_listOrHead rfl

theorem env_bodyQuery (m : Moment) (q : Req) (u : State) : Env u (bodyQuery m q u).st := by
  unfold bodyQuery
  repeat' (split <;> try dsimp only)
  all_goals first | exact Env.refl _ | exact env_reply_sg rfl | exact env_replyData rfl | exact env_listOrHead rfl

theorem env_bodyProgress (m : Moment) (q : Req) (u : State) : Env u (bodyProgress m q u).st := by
  unfold bodyProgress
  repeat' (split <;> try dsimp only)
  all_goals first | exact Env.refl _ | exact env_reply_sg rfl | exact env_replyData rfl | exact env_listOrHead rfl

theorem env_bodyFdyDirRead (m : Moment) (q : Req) (u : State) : Env u (bodyFdyDirRead m q u).st := by
  unfold bodyFdyDirRead
  dsimp only
  repeat' (split <;> try dsimp only)
  all_goals first | exact Env.refl _ | exact env_reply_sg rfl | exact env_replyData rfl | exact env_listOrHead rfl

theorem env_bodyPtnRead (m : Moment) (q : Req) (u : State) : Env u (bodyPtnRead m q u).st := by
  unfold bodyPtnRead
  try dsimp only
  try unfold checked
  try unfold withData
  try unfold onNode
  try unfold onGroup
  try dsimp only
  repeat' (split <;> try dsimp only)
  all_goals first | exact Env.refl _ | exact env_reply_sg rfl | exact env_replyData rfl | exact env_listOrHead rfl

theorem env_bodyModelQuery (m : Moment) (q : Req) (u : State) : Env u (bodyModelQuery m q u).st := by
  unfold bodyModelQuery
  dsimp only
  repeat' (split <;> try dsimp only)
  all_goals first | exact Env.refl _ | exact env_reply_sg rfl | exact env_replyData rfl | exact env_listOrHead rfl

theorem env_bodyTablesetQuery (m : Moment) (q : Req) (u : State) : Env u (bodyTablesetQuery m q u).st := by
  unfold bodyTablesetQuery
  repeat' (split <;> try dsimp only)
  all_goals first | exact Env.refl _ | exact env_reply_sg rfl | exact env_replyData rfl | exact env_listOrHead rfl

theorem env_bodyClassRead (m : Moment) (q : Req) (u : State) : Env u (bodyClassRead m q u).st := by
  unfold bodyClassRead
  dsimp only
  repeat' (split <;> try dsimp only)
  all_goals first | exact Env.refl _ | exact env_reply_sg rfl | exact env_replyData rfl | exact env_listOrHead rfl

theorem env_bodyGaugeReport (m : Moment) (q : Req) (u : State) : Env u (bodyGaugeReport m q u).st := by
  unfold bodyGaugeReport
  repeat' (split <;> try dsimp only)
  all_goals first | exact Env.refl _ | exact env_reply_sg rfl | exact env_replyData rfl | exact env_listOrHead rfl

theorem env_bodyTlyRead (m : Moment) (q : Req) (u : State) : Env u (bodyTlyRead m q u).st := by
  unfold bodyTlyRead
  dsimp only
  repeat' (split <;> try dsimp only)
  all_goals first | exact Env.refl _ | exact env_reply_sg rfl | exact env_replyData rfl | exact env_listOrHead rfl

theorem env_bodyTlyEvidence (m : Moment) (q : Req) (u : State) : Env u (bodyTlyEvidence m q u).st := by
  unfold bodyTlyEvidence
  repeat' (split <;> try dsimp only)
  all_goals first | exact Env.refl _ | exact env_reply_sg rfl | exact env_replyData rfl | exact env_listOrHead rfl

theorem env_bodyTchIndexQuery (m : Moment) (q : Req) (u : State) : Env u (bodyTchIndexQuery m q u).st := by
  unfold bodyTchIndexQuery
  repeat' (split <;> try dsimp only)
  all_goals first | exact Env.refl _ | exact env_reply_sg rfl | exact env_replyData rfl | exact env_listOrHead rfl

theorem env_bodyGthTableQuery (m : Moment) (q : Req) (u : State) : Env u (bodyGthTableQuery m q u).st := by
  unfold bodyGthTableQuery
  dsimp only
  repeat' (split <;> try dsimp only)
  all_goals first | exact Env.refl _ | exact env_reply_sg rfl | exact env_replyData rfl | exact env_listOrHead rfl

theorem env_bodyNetQpQuery (m : Moment) (q : Req) (u : State) : Env u (bodyNetQpQuery m q u).st := by
  unfold bodyNetQpQuery
  repeat' (split <;> try dsimp only)
  all_goals first | exact Env.refl _ | exact env_reply_sg rfl | exact env_replyData rfl | exact env_listOrHead rfl

theorem env_bodyNetMapRead (m : Moment) (q : Req) (u : State) : Env u (bodyNetMapRead m q u).st := by
  unfold bodyNetMapRead
  dsimp only
  repeat' (split <;> try dsimp only)
  all_goals first | exact Env.refl _ | exact env_reply_sg rfl | exact env_replyData rfl | exact env_listOrHead rfl

theorem env_bodyNetRegionQuery (m : Moment) (q : Req) (u : State) : Env u (bodyNetRegionQuery m q u).st := by
  unfold bodyNetRegionQuery
  dsimp only
  repeat' (split <;> try dsimp only)
  all_goals first | exact Env.refl _ | exact env_reply_sg rfl | exact env_replyData rfl | exact env_listOrHead rfl

theorem env_bodySwlQuery (m : Moment) (q : Req) (u : State) : Env u (bodySwlQuery m q u).st := by
  unfold bodySwlQuery
  dsimp only
  repeat' (split <;> try dsimp only)
  all_goals first | exact Env.refl _ | exact env_reply_sg rfl | exact env_replyData rfl | exact env_listOrHead rfl

theorem env_bodyTwinQuery (m : Moment) (q : Req) (u : State) : Env u (bodyTwinQuery m q u).st := by
  unfold bodyTwinQuery
  dsimp only
  repeat' (split <;> try dsimp only)
  all_goals first | exact Env.refl _ | exact env_reply_sg rfl | exact env_replyData rfl | exact env_listOrHead rfl

theorem env_bodyMldGroupQuery (m : Moment) (q : Req) (u : State) : Env u (bodyMldGroupQuery m q u).st := by
  unfold bodyMldGroupQuery
  unfold onGroup
  repeat' (split <;> try dsimp only)
  all_goals first | exact Env.refl _ | exact env_reply_sg rfl | exact env_replyData rfl | exact env_listOrHead rfl

theorem env_bodyHmkPartitionQuery (m : Moment) (q : Req) (u : State) : Env u (bodyHmkPartitionQuery m q u).st := by
  unfold bodyHmkPartitionQuery
  dsimp only
  repeat' (split <;> try dsimp only)
  all_goals first | exact Env.refl _ | exact env_reply_sg rfl | exact env_replyData rfl | exact env_listOrHead rfl

theorem env_bodyHmkAttest (m : Moment) (q : Req) (u : State) : Env u (bodyHmkAttest m q u).st := by
  unfold bodyHmkAttest
  repeat' (split <;> try dsimp only)
  all_goals first | exact Env.refl _ | exact env_reply_sg rfl | exact env_replyData rfl | exact env_listOrHead rfl

theorem env_bodyHmkCertRead (m : Moment) (q : Req) (u : State) : Env u (bodyHmkCertRead m q u).st := by
  unfold bodyHmkCertRead
  repeat' (split <;> try dsimp only)
  all_goals first | exact Env.refl _ | exact env_reply_sg rfl | exact env_replyData rfl | exact env_listOrHead rfl

theorem env_bodyPwrQuery (m : Moment) (q : Req) (u : State) : Env u (bodyPwrQuery m q u).st := by
  unfold bodyPwrQuery
  repeat' (split <;> try dsimp only)
  all_goals first | exact Env.refl _ | exact env_reply_sg rfl | exact env_replyData rfl | exact env_listOrHead rfl

theorem env_bodyAonLifeRead (m : Moment) (q : Req) (u : State) : Env u (bodyAonLifeRead m q u).st := by
  unfold bodyAonLifeRead
  repeat' (split <;> try dsimp only)
  all_goals first | exact Env.refl _ | exact env_reply_sg rfl | exact env_replyData rfl | exact env_listOrHead rfl

theorem env_bodyDiagTraining (m : Moment) (q : Req) (u : State) : Env u (bodyDiagTraining m q u).st := by
  unfold bodyDiagTraining
  dsimp only
  repeat' (split <;> try dsimp only)
  all_goals first | exact Env.refl _ | exact env_reply_sg rfl | exact env_replyData rfl | exact env_listOrHead rfl

theorem env_bodyDiagErrors (m : Moment) (q : Req) (u : State) : Env u (bodyDiagErrors m q u).st := by
  unfold bodyDiagErrors
  repeat' (split <;> try dsimp only)
  all_goals first | exact Env.refl _ | exact env_reply_sg rfl | exact env_replyData rfl | exact env_listOrHead rfl

theorem env_bodyDiagBootLog (m : Moment) (q : Req) (u : State) : Env u (bodyDiagBootLog m q u).st := by
  unfold bodyDiagBootLog
  repeat' (split <;> try dsimp only)
  all_goals first | exact Env.refl _ | exact env_reply_sg rfl | exact env_replyData rfl | exact env_listOrHead rfl

theorem env_bodyTlyConfig (m : Moment) (q : Req) (u : State) : Env u (bodyTlyConfig m q u).st := by
  unfold bodyTlyConfig
  dsimp only
  repeat' (split <;> try dsimp only)
  all_goals first | exact Env.refl _ | exact env_reply_sg rfl | exact env_replyData rfl | exact env_listOrHead rfl

theorem env_bodyCtLeapLoad (m : Moment) (q : Req) (u : State) : Env { u with clk := (bodyCtLeapLoad m q u).st.clk } (bodyCtLeapLoad m q u).st := by
  unfold bodyCtLeapLoad
  repeat' (split <;> try dsimp only)
  all_goals first | rfl | exact env_note rfl | exact env_reply_sg rfl | exact env_note (env_bump rfl)

theorem env_bodyAonSettingsSave (m : Moment) (q : Req) (u : State) : Env { u with aon := (bodyAonSettingsSave m q u).st.aon } (bodyAonSettingsSave m q u).st := by
  unfold bodyAonSettingsSave
  dsimp only
  repeat' (split <;> try dsimp only)
  all_goals first | rfl | exact env_note rfl | exact env_reply_sg rfl | exact env_note (env_bump rfl)

theorem env_bodyHmkKeyLoad (m : Moment) (q : Req) (u : State) : Env { u with hmk := (bodyHmkKeyLoad m q u).st.hmk } (bodyHmkKeyLoad m q u).st := by
  unfold bodyHmkKeyLoad
  dsimp only
  repeat' (split <;> try dsimp only)
  all_goals first | rfl | exact env_note rfl | exact env_reply_sg rfl | exact env_note (env_bump rfl)

theorem env_bodyHmkKeyDestroy (m : Moment) (q : Req) (u : State) : Env { u with hmk := (bodyHmkKeyDestroy m q u).st.hmk } (bodyHmkKeyDestroy m q u).st := by
  unfold bodyHmkKeyDestroy
  dsimp only
  repeat' (split <;> try dsimp only)
  all_goals first | rfl | exact env_note rfl | exact env_reply_sg rfl | exact env_note (env_bump rfl)

theorem env_bodyHmkRollbackCommit (m : Moment) (q : Req) (u : State) : Env { u with hmk := (bodyHmkRollbackCommit m q u).st.hmk } (bodyHmkRollbackCommit m q u).st := by
  unfold bodyHmkRollbackCommit
  repeat' (split <;> try dsimp only)
  all_goals first | rfl | exact env_note rfl | exact env_reply_sg rfl | exact env_note (env_bump rfl)

theorem env_bodyDiagViewCheck (m : Moment) (q : Req) (u : State) : Env { u with err := (bodyDiagViewCheck m q u).st.err } (bodyDiagViewCheck m q u).st := by
  unfold bodyDiagViewCheck
  dsimp only
  repeat' (split <;> try dsimp only)
  all_goals first | rfl | exact env_note rfl | exact env_reply_sg rfl | exact env_note (env_bump rfl)

theorem env_bodyDiagInject (m : Moment) (q : Req) (u : State) : Env { u with err := (bodyDiagInject m q u).st.err } (bodyDiagInject m q u).st := by
  unfold bodyDiagInject
  repeat' (split <;> try dsimp only)
  all_goals first | rfl | exact env_note rfl | exact env_reply_sg rfl | exact env_note (env_bump rfl)

theorem env_bodyMldGroupSet (m : Moment) (q : Req) (u : State) : Env { u with mld := (bodyMldGroupSet m q u).st.mld } (bodyMldGroupSet m q u).st := by
  unfold bodyMldGroupSet
  repeat' (split <;> try dsimp only)
  all_goals first | rfl | exact env_note rfl | exact env_reply_sg rfl | exact env_note (env_bump rfl)

theorem env_bodyNetCcSet (m : Moment) (q : Req) (u : State) : Env { u with net := (bodyNetCcSet m q u).st.net } (bodyNetCcSet m q u).st := by
  unfold bodyNetCcSet
  repeat' (split <;> try dsimp only)
  all_goals first | rfl | exact env_note rfl | exact env_reply_sg rfl | exact env_note (env_bump rfl)

theorem env_bodyNetPtpSet (m : Moment) (q : Req) (u : State) : Env { u with net := (bodyNetPtpSet m q u).st.net } (bodyNetPtpSet m q u).st := by
  unfold bodyNetPtpSet
  dsimp only
  repeat' (split <;> try dsimp only)
  all_goals first | rfl | exact env_note rfl | exact env_reply_sg rfl | exact env_note (env_bump rfl)

theorem env_bodyNetRegionReg (m : Moment) (q : Req) (u : State) : Env { u with net := (bodyNetRegionReg m q u).st.net } (bodyNetRegionReg m q u).st := by
  unfold bodyNetRegionReg
  repeat' (split <;> try dsimp only)
  all_goals first | rfl | exact env_note rfl | exact env_reply_sg rfl | exact env_note (env_bump rfl)

theorem env_bodyNetRegionDereg (m : Moment) (q : Req) (u : State) : Env { u with net := (bodyNetRegionDereg m q u).st.net } (bodyNetRegionDereg m q u).st := by
  unfold bodyNetRegionDereg
  dsimp only
  repeat' (split <;> try dsimp only)
  all_goals first | rfl | exact env_note rfl | exact env_reply_sg rfl | exact env_note (env_bump rfl)

theorem env_bodyNetQpConnect (m : Moment) (q : Req) (u : State) : Env { u with net := (bodyNetQpConnect m q u).st.net } (bodyNetQpConnect m q u).st := by
  unfold bodyNetQpConnect
  repeat' (split <;> try dsimp only)
  all_goals first | rfl | exact env_note rfl | exact env_reply_sg rfl | exact env_note (env_bump rfl)

theorem env_bodyMeterRead (m : Moment) (q : Req) (u : State) : Env { u with pla := (bodyMeterRead m q u).st.pla } (bodyMeterRead m q u).st := by
  unfold bodyMeterRead
  dsimp only
  repeat' (split <;> try dsimp only)
  all_goals first | rfl | exact env_note rfl | exact env_reply_sg rfl | exact env_note (env_bump rfl)

theorem env_bodyMeterSet (m : Moment) (q : Req) (u : State) : Env { u with pla := (bodyMeterSet m q u).st.pla } (bodyMeterSet m q u).st := by
  unfold bodyMeterSet
  unfold checked
  repeat' (split <;> try dsimp only)
  all_goals first | rfl | exact env_note rfl | exact env_reply_sg rfl | exact env_note (env_bump rfl)

theorem env_bodyPartitionShare (m : Moment) (q : Req) (u : State) : Env { u with pla := (bodyPartitionShare m q u).st.pla } (bodyPartitionShare m q u).st := by
  unfold bodyPartitionShare
  unfold checked
  dsimp only
  repeat' (split <;> try dsimp only)
  all_goals first | rfl | exact env_note rfl | exact env_reply_sg rfl | exact env_note (env_bump rfl)

/-- `t` differs from `a` in nothing but the envelope, the Planisher and the network. -/
def EnvNet (a t : State) : Prop := Env { a with pla := t.pla, net := t.net } t

theorem EnvNet.trans {a b c : State} (h : EnvNet a b) (g : Env b c) : EnvNet a c := by
  unfold EnvNet Env at *
  rw [g, h]

theorem envNet_net {a s : State} {f : Planisher} {n : Net} (h : EnvNet a s) : EnvNet a { s with pla := f, net := n } := by
  unfold EnvNet Env at *
  rw [h]

theorem envNet_setQp {a s : State} {i : Nat} {q : Qp} (h : EnvNet a s) : EnvNet a (setQp i q s) := envNet_net h

theorem envNet_setRing {a s : State} {k : Nat} {x : StreamRing} (h : EnvNet a s) : EnvNet a (setRing k x s) := envNet_net h

theorem envNet_dropMsgs {a s : State} {o : TxOwner} (h : EnvNet a s) : EnvNet a (dropMsgs o s) := envNet_net h

theorem envNet_sendPkt {a s : State} {i n : Nat} {p : Pkt} (h : EnvNet a s) : EnvNet a (sendPkt i p n s) := by
  unfold sendPkt
  split
  · exact h
  · exact (envNet_setQp h).trans (env_emit (env_bump (Env.refl _)))

theorem envNet_openMsg {a s : State} {i : Nat} {x : TxMsg} (h : EnvNet a s) : EnvNet a (openMsg i x s).2 := by
  unfold openMsg
  split
  · exact h
  · exact envNet_setQp h

theorem envNet_closeMsg {a s : State} {i n p : Nat} (h : EnvNet a s) : EnvNet a (closeMsg i n p s) := by
  unfold closeMsg
  split
  · exact envNet_setQp h
  · exact h

theorem envNet_foldl {a s : State} {α : Type} {f : State → α → State} {l : List α} (h : EnvNet a s)
    (hf : ∀ s x, EnvNet a s → EnvNet a (f s x)) : EnvNet a (l.foldl f s) := by
  induction l generalizing s with
  | nil => exact h
  | cons x l ih => exact ih (hf s x h)

theorem envNet_gxWrite {a s t : State} {i k o : Nat} {x : TxMsg} {b : Bytes} {l : Seal} (h : EnvNet a s)
    (e : gxWrite i x k o b l s = .ok t) : EnvNet a t := by
  unfold gxWrite at e
  split at e
  · cases e
  · dsimp only at e
    have g := envNet_openMsg (i := i) (x := { x with ctIssue := s.ct }) h
    split at e
    · cases e
      exact g
    · cases e
      exact envNet_closeMsg (envNet_sendPkt (envNet_foldl g fun _ _ h => envNet_sendPkt h))

theorem envNet_ringFault {a s : State} {k c v : Nat} (h : EnvNet a s) : EnvNet a (ringFault k c v s) := by
  unfold ringFault
  split
  · exact h
  · exact (envNet_setRing h).trans (env_note (Env.refl _))

theorem envNet_zeroProduced {a s : State} {k : Nat} {x : StreamRing} (h : EnvNet a s) : EnvNet a (zeroProduced k x s) := by
  unfold zeroProduced
  repeat' (split <;> try dsimp only)
  · exact envNet_ringFault h
  · exact h.trans (env_hostWrite (Env.refl _))
  · exact envNet_ringFault h
  · next e => exact envNet_gxWrite h e
  · exact envNet_ringFault h

/-- STREAM_RING_SET changes the Planisher, and the network where it writes zero to a remote produced word or drops what was under way. -/
theorem env_bodyStreamRingSet (m : Moment) (q : Req) (u : State) : EnvNet u (bodyStreamRingSet m q u).st := by
  have h : EnvNet u u := rfl
  unfold bodyStreamRingSet
  dsimp only
  repeat' (split <;> try dsimp only)
  all_goals first
    | exact h
    | exact envNet_dropMsgs (envNet_dropMsgs (envNet_dropMsgs (envNet_net h)))
    | exact envNet_zeroProduced (envNet_setRing (envNet_dropMsgs (envNet_dropMsgs (envNet_dropMsgs h))))

theorem env_bodyGaugeConfig (m : Moment) (q : Req) (u : State) : Env { u with gau := (bodyGaugeConfig m q u).st.gau } (bodyGaugeConfig m q u).st := by
  unfold bodyGaugeConfig
  repeat' (split <;> try dsimp only)
  all_goals first | rfl | exact env_note rfl | exact env_reply_sg rfl | exact env_note (env_bump rfl)

theorem env_bodyFdyConfig (m : Moment) (q : Req) (u : State) : Env { u with fdy := (bodyFdyConfig m q u).st.fdy } (bodyFdyConfig m q u).st := by
  unfold bodyFdyConfig
  dsimp only
  repeat' (split <;> try dsimp only)
  all_goals first | rfl | exact env_note rfl | exact env_reply_sg rfl | exact env_note (env_bump rfl)

theorem env_bodyPtnPin (m : Moment) (q : Req) (u : State) : Env { u with trees := (bodyPtnPin m q u).st.trees } (bodyPtnPin m q u).st := by
  unfold bodyPtnPin
  unfold onNode
  repeat' (split <;> try dsimp only)
  all_goals first | rfl | exact env_note rfl | exact env_reply_sg rfl | exact env_note (env_bump rfl)

theorem env_bodyAttConfig (m : Moment) (q : Req) (u : State) : Env { u with tile := (bodyAttConfig m q u).st.tile } (bodyAttConfig m q u).st := by
  unfold bodyAttConfig
  repeat' (split <;> try dsimp only)
  all_goals first | rfl | exact env_note rfl | exact env_reply_sg rfl | exact env_note (env_bump rfl)

/-- A change of the frames that the envelope follows. -/
theorem envFrames_trans {a b c : State} (h : Env { a with frames := b.frames } b) (g : Env b c) :
    Env { a with frames := c.frames } c := by
  unfold Env at *
  rw [g, h]

theorem env_putPool {x : Pool} {old : Nat} {u : State} :
    Env { u with frames := (putPool x old u).frames } (putPool x old u) := by
  unfold putPool
  refine envFrames_trans ?_ (env_post (Env.refl _))
  rfl

theorem env_bodyPagePoolConfig (m : Moment) (q : Req) (u : State) : Env { u with frames := (bodyPagePoolConfig m q u).st.frames } (bodyPagePoolConfig m q u).st := by
  unfold bodyPagePoolConfig
  repeat' (split <;> try dsimp only)
  all_goals first | rfl | exact env_note rfl | exact env_reply_sg rfl | exact env_putPool

end Sys2Proof.Machine
end

