-- ==== Sys2Proof/Laws/Memory.lean ====
section
/-! SUPPORT. The canonical form of a memory: every memory operation keeps it, and what a read finds after a write. -/

namespace Sys2Proof.Machine

theorem Memory.wf_nil : Memory.wf [] := by simp [Memory.wf]

theorem Memory.wf_filter {m : Mem} (p : Host.Cell → Bool) (h : Memory.wf m) : Memory.wf (m.filter p) :=
  ⟨h.1.filter p, fun c hc => h.2 c (List.mem_filter.1 hc).1⟩

theorem Mem.cells_ge {a : Nat} {b : Bytes} {c : Host.Cell} (h : c ∈ Mem.cells a b) :
    a ≤ c.1 ∧ c.1 < a + b.length ∧ c.2 ≠ 0 := by
  induction b generalizing a with
  | nil => simp [Mem.cells] at h
  | cons x t ih =>
    simp only [Mem.cells] at h
    split at h
    · have := ih h
      simp only [List.length_cons]
      exact ⟨by omega, by omega, this.2.2⟩
    · rcases List.mem_cons.1 h with h | h
      · subst h
        simp_all
      · have := ih h
        simp only [List.length_cons]
        exact ⟨by omega, by omega, this.2.2⟩

theorem Mem.cells_wf (a : Nat) (b : Bytes) : Memory.wf (Mem.cells a b) := by
  induction b generalizing a with
  | nil => exact Memory.wf_nil
  | cons x t ih =>
    simp only [Mem.cells]
    split
    · exact ih _
    · refine ⟨List.pairwise_cons.2 ⟨fun c hc => ?_, (ih _).1⟩, fun c hc => ?_⟩
      · have := Mem.cells_ge hc
        simp only at this ⊢
        omega
      · rcases List.mem_cons.1 hc with h | h
        · subst h
          assumption
        · exact (ih _).2 c h

/-- Clearing a range keeps the canonical form. -/
theorem Mem.clear_wf {m : Mem} (a n : Nat) (h : Memory.wf m) : Memory.wf (Mem.clear m a n) := Memory.wf_filter _ h

/-- Writing keeps the canonical form. -/
theorem Mem.write_wf {m : Mem} (a : Nat) (b : Bytes) (h : Memory.wf m) : Memory.wf (Mem.write m a b) := by
  have hc := Mem.cells_wf a b
  refine ⟨?_, ?_⟩
  · unfold Mem.write
    refine List.pairwise_append.2 ⟨List.pairwise_append.2 ⟨h.1.filter _, hc.1, ?_⟩, h.1.filter _, ?_⟩
    · intro x hx y hy
      have := (List.mem_filter.1 hx).2
      have := Mem.cells_ge hy
      simp_all
      omega
    · intro x hx y hy
      have hy' := (List.mem_filter.1 hy).2
      rcases List.mem_append.1 hx with hx | hx
      · have := (List.mem_filter.1 hx).2
        simp_all
        omega
      · have := Mem.cells_ge hx
        simp_all
        omega
  · intro c hcm
    simp only [Mem.write, List.mem_append] at hcm
    rcases hcm with (hcm | hcm) | hcm
    · exact h.2 c (List.mem_filter.1 hcm).1
    · exact hc.2 c hcm
    · exact h.2 c (List.mem_filter.1 hcm).1

/-! ### What a byte reads as -/

theorem Mem.byte_of_forall {m : Mem} {a : Nat} (h : ∀ c ∈ m, c.1 ≠ a) : Mem.byte m a = 0 := by
  induction m with
  | nil => rfl
  | cons c t ih =>
    obtain ⟨x, b⟩ := c
    have hx : x ≠ a := h (x, b) (List.mem_cons_self ..)
    simp only [Mem.byte, hx, if_false]
    exact ih fun c hc => h c (List.mem_cons_of_mem _ hc)

theorem Mem.byte_append_left {m n : Mem} {a : Nat} (h : ∀ c ∈ m, c.1 ≠ a) : Mem.byte (m ++ n) a = Mem.byte n a := by
  induction m with
  | nil => rfl
  | cons c t ih =>
    obtain ⟨x, b⟩ := c
    have hx : x ≠ a := h (x, b) (List.mem_cons_self ..)
    simp only [List.cons_append, Mem.byte, hx, if_false]
    exact ih fun c hc => h c (List.mem_cons_of_mem _ hc)

theorem Mem.byte_append_right {m n : Mem} {a : Nat} (h : ∀ c ∈ n, c.1 ≠ a) : Mem.byte (m ++ n) a = Mem.byte m a := by
  induction m with
  | nil => simpa [Mem.byte] using Mem.byte_of_forall h
  | cons c t ih =>
    obtain ⟨x, b⟩ := c
    simp only [List.cons_append, Mem.byte]
    split
    · rfl
    · exact ih

theorem Mem.byte_filter {m : Mem} {a : Nat} (p : Nat → Bool) (h : p a = true) :
    Mem.byte (m.filter (fun c => p c.1)) a = Mem.byte m a := by
  induction m with
  | nil => rfl
  | cons c t ih =>
    obtain ⟨x, b⟩ := c
    by_cases hx : x = a
    · subst hx
      simp [List.filter, h, Mem.byte]
    · by_cases hp : p x = true
      · simp [List.filter, hp, Mem.byte, hx, ih]
      · simp [List.filter, hp, Mem.byte, hx, ih]

/-- A write leaves every byte outside its range alone. -/
theorem Mem.byte_write_of_not_mem (m : Mem) (a : Nat) (b : Bytes) {x : Nat} (h : x < a ∨ a + b.length ≤ x) :
    Mem.byte (Mem.write m a b) x = Mem.byte m x := by
  have hc : ∀ c ∈ Mem.cells a b, c.1 ≠ x := fun c hc => by
    have := Mem.cells_ge hc
    omega
  unfold Mem.write
  rcases h with h | h
  · rw [Mem.byte_append_right, Mem.byte_append_right hc]
    · exact Mem.byte_filter (fun k => decide (k < a)) (by simpa using h)
    · intro c hc
      have := (List.mem_filter.1 hc).2
      simp at this
      omega
  · rw [List.append_assoc, Mem.byte_append_left, Mem.byte_append_left hc]
    · exact Mem.byte_filter (fun k => decide (a + b.length ≤ k)) (by simpa using h)
    · intro c hc
      have := (List.mem_filter.1 hc).2
      simp at this
      omega

theorem Mem.byte_cells (a : Nat) (b : Bytes) (i : Nat) (h : i < b.length) : Mem.byte (Mem.cells a b) (a + i) = b[i] := by
  induction b generalizing a i with
  | nil => simp at h
  | cons x t ih =>
    have hlt : ∀ c ∈ Mem.cells (a + 1) t, c.1 ≠ a := fun c hc => by
      have := Mem.cells_ge hc
      omega
    cases i with
    | zero =>
      simp only [Mem.cells]
      split
      · next hx => simpa [hx] using Mem.byte_of_forall hlt
      · simp [Mem.byte]
    | succ k =>
      have hk : k < t.length := by simpa using h
      have := ih (a + 1) k hk
      rw [show a + (k + 1) = a + 1 + k by omega]
      simp only [Mem.cells]
      split
      · simpa using this
      · simp only [Mem.byte, show ¬ a = a + 1 + k by omega, if_false]
        simpa using this

/-- A read after a write to the same place gives the value written. -/
theorem Mem.byte_write_of_mem (m : Mem) (a : Nat) (b : Bytes) (i : Nat) (h : i < b.length) :
    Mem.byte (Mem.write m a b) (a + i) = b[i] := by
  unfold Mem.write
  rw [Mem.byte_append_right, Mem.byte_append_left, Mem.byte_cells a b i h]
  · intro c hc
    have := (List.mem_filter.1 hc).2
    simp at this
    omega
  · intro c hc
    have := (List.mem_filter.1 hc).2
    simp at this
    omega

end Sys2Proof.Machine
end

