-- ==== Sys2Proof/Laws/Kept.lean ====
section
/-! SUPPORT. What every effect of the device keeps, as one preorder on states, and how it passes through plain updates. -/

namespace Sys2Proof.Machine

/-- What no command undoes: the queue and the grade stay, the anti-rollback counter does not fall, the revocation bits stay,
what has left the device stays on its list, free values are not taken twice, and the memories keep their canonical form. -/
structure Kept (s t : State) : Prop where
  pending : t.pending = s.pending
  grade : t.grade = s.grade
  counter : s.hmk.counter ≤ t.hmk.counter
  revoked : t.hmk.revoked = s.hmk.revoked
  out : s.out <+: t.out
  free : s.free ≤ t.free
  dev : Memory.wf s.devMem → Memory.wf t.devMem
  host : Memory.wf s.hostMem → Memory.wf t.hostMem

theorem Kept.refl (s : State) : Kept s s :=
  ⟨rfl, rfl, Nat.le_refl _, rfl, List.prefix_refl _, Nat.le_refl _, id, id⟩

theorem Kept.trans {a b c : State} (h : Kept a b) (k : Kept b c) : Kept a c :=
  ⟨k.pending.trans h.pending, k.grade.trans h.grade, Nat.le_trans h.counter k.counter, k.revoked.trans h.revoked,
    h.out.trans k.out, Nat.le_trans h.free k.free, fun w => k.dev (h.dev w), fun w => k.host (h.host w)⟩

variable {s0 : State}

/-- `Kept` over the fields that carry a promise. -/
def KeptC (s0 : State) (free : Nat) (out : List Output) (grade : Grade) (hostMem devMem : Mem) (hmk : Hallmark)
    (pending : List Instr) : Prop :=
  pending = s0.pending ∧ grade = s0.grade ∧ s0.hmk.counter ≤ hmk.counter ∧ hmk.revoked = s0.hmk.revoked ∧ s0.out <+: out
    ∧ s0.free ≤ free ∧ (Memory.wf s0.devMem → Memory.wf devMem) ∧ (Memory.wf s0.hostMem → Memory.wf hostMem)

/-- A state written out field by field. -/
theorem kept_mk {ct free out grade ctr hostMem hostFaults devMem bench pln fdy frames trees tile txt pla gau tly tch gth net swl
    twn mld chk hmk pwr clk aon err elec pending} :
    Kept s0 (State.mk ct free out grade ctr hostMem hostFaults devMem bench pln fdy frames trees tile txt pla gau tly tch gth net
      swl twn mld chk hmk pwr clk aon err elec pending) = KeptC s0 free out grade hostMem devMem hmk pending :=
  propext ⟨fun h => ⟨h.pending, h.grade, h.counter, h.revoked, h.out, h.free, h.dev, h.host⟩,
    fun ⟨a, b, c, d, e, f, g, h⟩ => ⟨a, b, c, d, e, f, g, h⟩⟩

/-- An update of fields that carry no promise. -/
theorem keptC_upd {s : State} (h : Kept s0 s) : KeptC s0 s.free s.out s.grade s.hostMem s.devMem s.hmk s.pending :=
  ⟨h.pending, h.grade, h.counter, h.revoked, h.out, h.free, h.dev, h.host⟩

/-- An update that also takes free values or changes the Hallmark. -/
theorem keptC_updHmk {s : State} {free hmk} (h : Kept s0 s) (hf : s.free ≤ free) (hc : s.hmk.counter ≤ hmk.counter)
    (hr : hmk.revoked = s.hmk.revoked) : KeptC s0 free s.out s.grade s.hostMem s.devMem hmk s.pending :=
  ⟨h.pending, h.grade, Nat.le_trans h.counter hc, hr.trans h.revoked, h.out, Nat.le_trans h.free hf, h.dev, h.host⟩

/-- An update that clears a frame. -/
theorem keptC_clear {s : State} {a n : Nat} (h : Kept s0 s) :
    KeptC s0 s.free s.out s.grade s.hostMem (Mem.clear s.devMem a n) s.hmk s.pending :=
  ⟨h.pending, h.grade, h.counter, h.revoked, h.out, h.free, fun w => Mem.clear_wf _ _ (h.dev w), h.host⟩

theorem kept_ite {p : Prop} [Decidable p] {a b : State} (ha : p → Kept s0 a) (hb : ¬p → Kept s0 b) :
    Kept s0 (if p then a else b) := by
  split
  · exact ha ‹_›
  · exact hb ‹_›

theorem kept_ite_st {p : Prop} [Decidable p] {a b : Reply} (ha : p → Kept s0 a.st) (hb : ¬p → Kept s0 b.st) :
    Kept s0 (if p then a else b).st := by
  split
  · exact ha ‹_›
  · exact hb ‹_›

theorem kept_ite_snd {α : Type} {p : Prop} [Decidable p] {a b : α × State} (ha : p → Kept s0 a.2) (hb : ¬p → Kept s0 b.2) :
    Kept s0 (if p then a else b).2 := by
  split
  · exact ha ‹_›
  · exact hb ‹_›

theorem kept_foldl {α : Type} {f : State → α → State} {l : List α} {s : State} (h : Kept s0 s)
    (hf : ∀ s a, Kept s0 s → Kept s0 (f s a)) : Kept s0 (l.foldl f s) := by
  induction l generalizing s with
  | nil => exact h
  | cons a t ih => exact ih (hf _ _ h)

theorem kept_foldl_snd {α β : Type} {f : β × State → α → β × State} {l : List α} {s : β × State} (h : Kept s0 s.2)
    (hf : ∀ s a, Kept s0 s.2 → Kept s0 (f s a).2) : Kept s0 (l.foldl f s).2 := by
  induction l generalizing s with
  | nil => exact h
  | cons a t ih => exact ih (hf _ _ h)

theorem kept_of_snd {α : Type} {p : α × State} {a : α} {t : State} (e : p = (a, t)) (h : Kept s0 p.2) : Kept s0 t := by
  subst e
  exact h

theorem kept_of_fst {α : Type} {p : State × α} {a : α} {t : State} (e : p = (t, a)) (h : Kept s0 p.1) : Kept s0 t := by
  subst e
  exact h

theorem kept_of_snd2 {α β : Type} {p : α × β × State} {a : α} {b : β} {t : State} (e : p = (a, b, t)) (h : Kept s0 p.2.2) :
    Kept s0 t := by
  subst e
  exact h

theorem kept_of_snd3 {α β γ : Type} {p : α × β × γ × State} {a : α} {b : β} {c : γ} {t : State} (e : p = (a, b, c, t))
    (h : Kept s0 p.2.2.2) : Kept s0 t := by
  subst e
  exact h

/-- What an optional result keeps. -/
structure KeptO (s0 : State) (o : Option State) : Prop where
  of : ∀ t, o = some t → Kept s0 t

/-- What an optional result with a value keeps. -/
structure KeptP {α : Type} (s0 : State) (o : Option (α × State)) : Prop where
  of : ∀ a t, o = some (a, t) → Kept s0 t

/-- What a checked result keeps. -/
structure KeptE {ε : Type} (s0 : State) (o : Except ε State) : Prop where
  of : ∀ t, o = .ok t → Kept s0 t

/-- What a checked result with a value keeps. -/
structure KeptEP {ε α : Type} (s0 : State) (o : Except ε (α × State)) : Prop where
  of : ∀ a t, o = .ok (a, t) → Kept s0 t

/-- What a failure that carries a state keeps. -/
structure KeptEE {ε α : Type} (s0 : State) (o : Except (ε × State) α) : Prop where
  of : ∀ a t, o = .error (a, t) → Kept s0 t

/-- What a command's outcome keeps. -/
structure KeptOut (s0 : State) (o : Out) : Prop where
  of : ∀ t, o = .next t → Kept s0 t

theorem kept_of_some {o : Option State} {t : State} (e : o = some t) (h : KeptO s0 o) : Kept s0 t := h.of t e
theorem kept_of_someP {α : Type} {o : Option (α × State)} {a : α} {t : State} (e : o = some (a, t)) (h : KeptP s0 o) :
    Kept s0 t := h.of a t e
theorem kept_of_ok {ε : Type} {o : Except ε State} {t : State} (e : o = .ok t) (h : KeptE s0 o) : Kept s0 t := h.of t e
theorem kept_of_okP {ε α : Type} {o : Except ε (α × State)} {a : α} {t : State} (e : o = .ok (a, t)) (h : KeptEP s0 o) :
    Kept s0 t := h.of a t e
theorem kept_of_error {ε α : Type} {o : Except (ε × State) α} {a : ε} {t : State} (e : o = .error (a, t)) (h : KeptEE s0 o) :
    Kept s0 t := h.of a t e

theorem keptO_some {t : State} (h : Kept s0 t) : KeptO s0 (some t) := ⟨fun _ e => by cases e; exact h⟩
theorem keptO_none : KeptO s0 none := ⟨fun _ e => by cases e⟩
theorem keptP_some {α : Type} {a : α} {t : State} (h : Kept s0 t) : KeptP s0 (some (a, t)) := ⟨fun _ _ e => by cases e; exact h⟩
theorem keptP_none {α : Type} : KeptP (α := α) s0 none := ⟨fun _ _ e => by cases e⟩
theorem keptE_ok {ε : Type} {t : State} (h : Kept s0 t) : KeptE (ε := ε) s0 (.ok t) := ⟨fun _ e => by cases e; exact h⟩
theorem keptE_pure {ε : Type} {t : State} (h : Kept s0 t) : KeptE (ε := ε) s0 (pure t) := keptE_ok h
theorem keptE_error {ε : Type} {x : ε} : KeptE s0 (.error x) := ⟨fun _ e => by cases e⟩
theorem keptEP_ok {ε α : Type} {a : α} {t : State} (h : Kept s0 t) : KeptEP (ε := ε) s0 (.ok (a, t)) :=
  ⟨fun _ _ e => by cases e; exact h⟩
theorem keptEP_pure {ε α : Type} {a : α} {t : State} (h : Kept s0 t) : KeptEP (ε := ε) s0 (pure (a, t)) := keptEP_ok h
theorem keptEP_error {ε α : Type} {x : ε} : KeptEP (α := α) s0 (.error x) := ⟨fun _ _ e => by cases e⟩
theorem keptEE_ok {ε α : Type} {a : α} : KeptEE (ε := ε) s0 (.ok a) := ⟨fun _ _ e => by cases e⟩
theorem keptEE_pure {ε α : Type} {a : α} : KeptEE (ε := ε) s0 (pure a) := ⟨fun _ _ e => by cases e⟩
theorem keptEE_error {ε α : Type} {x : ε} {t : State} (h : Kept s0 t) : KeptEE (α := α) s0 (.error (x, t)) :=
  ⟨fun _ _ e => by cases e; exact h⟩
theorem keptOut_next {t : State} (h : Kept s0 t) : KeptOut s0 (.next t) := ⟨fun _ e => by cases e; exact h⟩

theorem keptOut_ite {p : Prop} [Decidable p] {a b : Out} (ha : p → KeptOut s0 a) (hb : ¬p → KeptOut s0 b) :
    KeptOut s0 (if p then a else b) := by split <;> simp_all
theorem keptO_ite {p : Prop} [Decidable p] {a b : Option State} (ha : p → KeptO s0 a) (hb : ¬p → KeptO s0 b) :
    KeptO s0 (if p then a else b) := by split <;> simp_all
theorem keptP_ite {α : Type} {p : Prop} [Decidable p] {a b : Option (α × State)} (ha : p → KeptP s0 a) (hb : ¬p → KeptP s0 b) :
    KeptP s0 (if p then a else b) := by split <;> simp_all
theorem keptE_ite {ε : Type} {p : Prop} [Decidable p] {a b : Except ε State} (ha : p → KeptE s0 a) (hb : ¬p → KeptE s0 b) :
    KeptE s0 (if p then a else b) := by split <;> simp_all
theorem keptEP_ite {ε α : Type} {p : Prop} [Decidable p] {a b : Except ε (α × State)} (ha : p → KeptEP s0 a)
    (hb : ¬p → KeptEP s0 b) : KeptEP s0 (if p then a else b) := by split <;> simp_all
theorem keptEE_ite {ε α : Type} {p : Prop} [Decidable p] {a b : Except (ε × State) α} (ha : p → KeptEE s0 a)
    (hb : ¬p → KeptEE s0 b) : KeptEE s0 (if p then a else b) := by split <;> simp_all

theorem keptO_bind {α : Type} {o : Option α} {k : α → Option State} (h : ∀ a, o = some a → KeptO s0 (k a)) :
    KeptO s0 (o >>= k) := by
  cases o with
  | none => exact keptO_none
  | some a => exact h a rfl
theorem keptP_bind {α β : Type} {o : Option α} {k : α → Option (β × State)} (h : ∀ a, o = some a → KeptP s0 (k a)) :
    KeptP s0 (o >>= k) := by
  cases o with
  | none => exact keptP_none
  | some a => exact h a rfl
theorem keptE_bind {ε α : Type} {o : Except ε α} {k : α → Except ε State} (h : ∀ a, o = .ok a → KeptE s0 (k a)) :
    KeptE s0 (o >>= k) := by
  cases o with
  | error => exact keptE_error
  | ok a => exact h a rfl
theorem keptEP_bind {ε α β : Type} {o : Except ε α} {k : α → Except ε (β × State)} (h : ∀ a, o = .ok a → KeptEP s0 (k a)) :
    KeptEP s0 (o >>= k) := by
  cases o with
  | error => exact keptEP_error
  | ok a => exact h a rfl
theorem keptEE_bind {ε α β : Type} {o : Except (ε × State) α} {k : α → Except (ε × State) β} (h0 : KeptEE s0 o)
    (h : ∀ a, o = .ok a → KeptEE s0 (k a)) : KeptEE s0 (o >>= k) := by
  cases o with
  | error e => exact ⟨fun a t q => h0.of a t (by cases q; rfl)⟩
  | ok a => exact h a rfl

theorem keptO_foldl {α : Type} {f : Option State → α → Option State} {l : List α} {o : Option State} (h : KeptO s0 o)
    (hf : ∀ o a, KeptO s0 o → KeptO s0 (f o a)) : KeptO s0 (l.foldl f o) := by
  induction l generalizing o with
  | nil => exact h
  | cons a t ih => exact ih (hf _ _ h)
theorem keptP_foldl {α β : Type} {f : Option (β × State) → α → Option (β × State)} {l : List α} {o : Option (β × State)}
    (h : KeptP s0 o) (hf : ∀ o a, KeptP s0 o → KeptP s0 (f o a)) : KeptP s0 (l.foldl f o) := by
  induction l generalizing o with
  | nil => exact h
  | cons a t ih => exact ih (hf _ _ h)
theorem keptE_foldl {ε α : Type} {f : Except ε State → α → Except ε State} {l : List α} {o : Except ε State} (h : KeptE s0 o)
    (hf : ∀ o a, KeptE s0 o → KeptE s0 (f o a)) : KeptE s0 (l.foldl f o) := by
  induction l generalizing o with
  | nil => exact h
  | cons a t ih => exact ih (hf _ _ h)
theorem keptEP_foldl {ε α β : Type} {f : Except ε (β × State) → α → Except ε (β × State)} {l : List α}
    {o : Except ε (β × State)} (h : KeptEP s0 o) (hf : ∀ o a, KeptEP s0 o → KeptEP s0 (f o a)) : KeptEP s0 (l.foldl f o) := by
  induction l generalizing o with
  | nil => exact h
  | cons a t ih => exact ih (hf _ _ h)
theorem keptE_foldlM {ε α : Type} {f : State → α → Except ε State} {l : List α} {s : State} (h : Kept s0 s)
    (hf : ∀ s a, Kept s0 s → KeptE s0 (f s a)) : KeptE s0 (l.foldlM f s) := by
  induction l generalizing s with
  | nil => exact keptE_ok h
  | cons a t ih =>
    simp only [List.foldlM_cons]
    exact keptE_bind fun b e => ih ((hf _ _ h).of b e)
theorem keptO_foldlM {α : Type} {f : State → α → Option State} {l : List α} {s : State} (h : Kept s0 s)
    (hf : ∀ s a, Kept s0 s → KeptO s0 (f s a)) : KeptO s0 (l.foldlM f s) := by
  induction l generalizing s with
  | nil => exact keptO_some h
  | cons a t ih =>
    simp only [List.foldlM_cons]
    exact keptO_bind fun b e => ih ((hf _ _ h).of b e)
theorem keptP_foldlM {α β : Type} {f : β × State → α → Option (β × State)} {l : List α} {s : β × State} (h : Kept s0 s.2)
    (hf : ∀ s a, Kept s0 s.2 → KeptP s0 (f s a)) : KeptP s0 (l.foldlM f s) := by
  induction l generalizing s with
  | nil => exact keptP_some h
  | cons a t ih =>
    simp only [List.foldlM_cons]
    exact keptP_bind fun b e => ih ((hf _ _ h).of b.1 b.2 e)
theorem keptEP_foldlM {ε α β : Type} {f : β × State → α → Except ε (β × State)} {l : List α} {s : β × State} (h : Kept s0 s.2)
    (hf : ∀ s a, Kept s0 s.2 → KeptEP s0 (f s a)) : KeptEP s0 (l.foldlM f s) := by
  induction l generalizing s with
  | nil => exact keptEP_ok h
  | cons a t ih =>
    simp only [List.foldlM_cons]
    exact keptEP_bind fun b e => ih ((hf _ _ h).of b.1 b.2 e)

theorem keptE_ebind {ε : Type} {o : Except ε State} {k : State → Except ε State} (h0 : KeptE s0 o)
    (h : ∀ a, Kept s0 a → KeptE s0 (k a)) : KeptE s0 (o.bind k) := keptE_bind fun a e => h a (h0.of a e)
theorem keptE_ebindP {ε α : Type} {o : Except ε (α × State)} {k : α × State → Except ε State} (h0 : KeptEP s0 o)
    (h : ∀ a b, Kept s0 b → KeptE s0 (k (a, b))) : KeptE s0 (o.bind k) := keptE_bind fun a e => h a.1 a.2 (h0.of a.1 a.2 e)
theorem keptEP_ebind {ε α : Type} {o : Except ε State} {k : State → Except ε (α × State)} (h0 : KeptE s0 o)
    (h : ∀ a, Kept s0 a → KeptEP s0 (k a)) : KeptEP s0 (o.bind k) := keptEP_bind fun a e => h a (h0.of a e)
theorem keptEP_ebindP {ε α β : Type} {o : Except ε (β × State)} {k : β × State → Except ε (α × State)} (h0 : KeptEP s0 o)
    (h : ∀ a b, Kept s0 b → KeptEP s0 (k (a, b))) : KeptEP s0 (o.bind k) :=
  keptEP_bind fun a e => h a.1 a.2 (h0.of a.1 a.2 e)

theorem kept_of_hypO {t : State} (h : KeptO s0 (some t)) : Kept s0 t := h.of t rfl
theorem kept_of_hypP {α : Type} {a : α} {t : State} (h : KeptP s0 (some (a, t))) : Kept s0 t := h.of a t rfl
theorem kept_of_hypE {ε : Type} {t : State} (h : KeptE (ε := ε) s0 (.ok t)) : Kept s0 t := h.of t rfl
theorem kept_of_hypEP {ε α : Type} {a : α} {t : State} (h : KeptEP (ε := ε) s0 (.ok (a, t))) : Kept s0 t := h.of a t rfl

theorem keptO_obind {α : Type} {o : Option α} {k : α → Option State} (h : ∀ a, o = some a → KeptO s0 (k a)) :
    KeptO s0 (o.bind k) := keptO_bind h
theorem keptO_obindS {o : Option State} {k : State → Option State} (h0 : KeptO s0 o) (h : ∀ a, Kept s0 a → KeptO s0 (k a)) :
    KeptO s0 (o.bind k) := keptO_bind fun a e => h a (h0.of a e)
theorem keptP_obind {α β : Type} {o : Option α} {k : α → Option (β × State)} (h : ∀ a, o = some a → KeptP s0 (k a)) :
    KeptP s0 (o.bind k) := keptP_bind h
theorem keptO_map {α : Type} {o : Option α} {f : α → State} (h : ∀ a, o = some a → Kept s0 (f a)) : KeptO s0 (o.map f) := by
  cases o with
  | none => exact keptO_none
  | some a => exact keptO_some (h a rfl)
theorem keptP_map {α β : Type} {o : Option α} {f : α → β × State} (h : ∀ a, o = some a → Kept s0 (f a).2) :
    KeptP s0 (o.map f) := by
  cases o with
  | none => exact keptP_none
  | some a => exact ⟨fun b t e => by injection e with e; have := h a rfl; rw [e] at this; exact this⟩
theorem keptE_map {ε α : Type} {o : Except ε α} {f : α → State} (h : ∀ a, o = .ok a → Kept s0 (f a)) : KeptE s0 (o.map f) := by
  cases o with
  | error => exact keptE_error
  | ok a => exact keptE_ok (h a rfl)
theorem kept_getD {o : Option State} {s : State} (h : KeptO s0 o) (hs : Kept s0 s) : Kept s0 (o.getD s) := by
  cases o with
  | none => exact hs
  | some t => exact h.of t rfl
theorem kept_foldl_fst {α β : Type} {f : State × β → α → State × β} {l : List α} {s : State × β} (h : Kept s0 s.1)
    (hf : ∀ s a, Kept s0 s.1 → Kept s0 (f s a).1) : Kept s0 (l.foldl f s).1 := by
  induction l generalizing s with
  | nil => exact h
  | cons a t ih => exact ih (hf _ _ h)
theorem keptEE_of_eq {ε α β : Type} {o : Except (ε × State) α} {x : ε × State} (e : o = .error x) (h : KeptEE s0 o) :
    KeptEE (α := β) s0 (.error x) := ⟨fun a t q => h.of a t (by cases q; exact e)⟩
/-- A pair's state, named by its equation. -/
theorem keptP_of_snd {α : Type} {o : Option (α × State)} {p : α × State} (e : o = some p) (h : KeptP s0 o) : Kept s0 p.2 :=
  h.of p.1 p.2 e

/-! ### Answers -/

theorem kept_reply_ok {s : State} {b : Bytes} (h : Kept s0 s) : Kept s0 (Reply.ok s b).st := h
theorem kept_reply_err {s : State} {c d : Nat} (h : Kept s0 s) : Kept s0 (Reply.err s c d).st := h
theorem kept_reply_wait {s : State} (h : Kept s0 s) : Kept s0 (Reply.wait s).st := h

end Sys2Proof.Machine
end

