-- ==== Sys2Proof/Laws/KeptBase.lean ====
section
/-! SUPPORT. What the definitions of Sys2Proof/Machine/Base.lean keep. -/

set_option linter.unusedSimpArgs false

namespace Sys2Proof.Machine

variable {s0 : State}

theorem kept_devWrite {x0 : Nat} {x1 : Nat} {x2 : Bytes} {x3 : State} (h3 : Kept s0 x3) : Kept s0 (devWrite x0 x1 x2 x3) := by
  exact ⟨h3.pending, h3.grade, h3.counter, h3.revoked, h3.out, h3.free, fun w => Mem.write_wf _ _ (h3.dev w), h3.host⟩

theorem kept_hostWrite {x0 : Nat} {x1 : Bytes} {x2 : State} (h2 : Kept s0 x2) : Kept s0 (hostWrite x0 x1 x2) := by
  exact ⟨h2.pending, h2.grade, h2.counter, h2.revoked, h2.out, h2.free, h2.dev, fun w => Mem.write_wf _ _ (h2.host w)⟩

theorem kept_State_at {x0 : State} {x1 : Moment} (h0 : Kept s0 x0) : Kept s0 (State.at x0 x1) := by
  have hw : ∀ (l : List (Nat × Bytes)) (m : Mem), Memory.wf m → Memory.wf (l.foldl (fun h w => Mem.write h w.1 w.2) m) := by
    intro l
    induction l with
    | nil => exact fun _ h => h
    | cons a t ih => exact fun m h => ih _ (Mem.write_wf _ _ h)
  exact ⟨h0.pending, h0.grade, h0.counter, h0.revoked, h0.out, h0.free, h0.dev, fun w => hw _ _ (h0.host w)⟩

theorem kept_emit {x0 : Output} {x1 : State} (h1 : Kept s0 x1) : Kept s0 (emit x0 x1) := by
  exact ⟨h1.pending, h1.grade, h1.counter, h1.revoked, h1.out.trans (List.prefix_append _ _), h1.free, h1.dev, h1.host⟩

theorem kept_fresh {x0 : State} (h0 : Kept s0 x0) : Kept s0 (fresh x0).2 := by
  unfold fresh
  repeat' first
    | with_reducible assumption
    | (simp only [kept_mk]; first | with_reducible apply keptC_upd | refine keptC_updHmk ?_ (by first | exact Nat.le_refl _ | exact Nat.le_add_right _ _ | omega) (by exact Nat.le_refl _) (by rfl))
    | dsimp only | with_reducible exact Kept.refl _

theorem kept_draw {x0 : Nat} {x1 : State} (h1 : Kept s0 x1) : Kept s0 (draw x0 x1).2 := by
  unfold draw
  repeat' first
    | with_reducible assumption
    | (simp only [kept_mk]; first | with_reducible apply keptC_upd | refine keptC_updHmk ?_ (by first | exact Nat.le_refl _ | exact Nat.le_add_right _ _ | omega) (by exact Nat.le_refl _) (by rfl))
    | dsimp only | with_reducible exact Kept.refl _

end Sys2Proof.Machine
end

