-- ==== Sys2Proof/Laws/KeptFlags.lean ====
section
/-! SUPPORT. What the definitions of Sys2Proof/Machine/Flags.lean keep. -/

set_option linter.unusedSimpArgs false

namespace Sys2Proof.Machine

variable {s0 : State}

theorem kept_bump {x0 : Ctr} {x1 : Nat} {x2 : Nat} {x3 : State} (h3 : Kept s0 x3) : Kept s0 (bump x0 x1 x2 x3) := by
  unfold bump
  repeat' first
    | with_reducible assumption | intro _ | (simp only [kept_mk]; with_reducible apply keptC_upd)
    | with_reducible apply kept_ite | dsimp only | with_reducible exact Kept.refl _

theorem kept_bumpFree {x0 : Ctr} {x1 : Nat} {x2 : Nat} {x3 : State} (h3 : Kept s0 x3) : Kept s0 (bumpFree x0 x1 x2 x3) := by
  unfold bumpFree
  repeat' first
    | with_reducible assumption | intro _
    | (simp only [kept_mk]; first | with_reducible apply keptC_upd | with_reducible apply keptC_clear | refine keptC_updHmk ?_ (by first | exact Nat.le_refl _ | exact Nat.le_add_right _ _ | omega) (by exact Nat.le_refl _) (by rfl))
    | with_reducible apply kept_bump | with_reducible apply keptO_some | with_reducible apply keptO_none
    | with_reducible apply keptO_ite | with_reducible apply keptO_obindS | with_reducible apply keptO_obind
    | with_reducible apply keptO_map | with_reducible apply keptO_bind | with_reducible apply kept_ite
    | with_reducible apply kept_ite_snd | with_reducible apply kept_foldl | with_reducible apply kept_foldl_snd
    | with_reducible apply kept_foldl_fst | with_reducible apply keptO_foldl | with_reducible apply keptP_foldl
    | with_reducible apply keptE_foldl | with_reducible apply keptEP_foldl | with_reducible apply kept_getD
    | with_reducible exact kept_of_hypO ‹_› | with_reducible exact kept_of_hypP ‹_› | with_reducible exact kept_of_hypE ‹_›
    | with_reducible exact kept_of_hypEP ‹_› | with_reducible refine kept_of_some (by assumption) ?_
    | with_reducible refine kept_of_someP (by assumption) ?_ | with_reducible refine kept_of_ok (by assumption) ?_
    | with_reducible refine kept_of_okP (by assumption) ?_ | with_reducible refine kept_of_error (by assumption) ?_
    | with_reducible refine kept_of_snd (by assumption) ?_ | with_reducible refine kept_of_fst (by assumption) ?_
    | with_reducible refine kept_of_snd2 (by assumption) ?_ | with_reducible refine kept_of_snd3 (by assumption) ?_ | split
    | dsimp only | with_reducible exact Kept.refl _

theorem kept_setFn {x0 : Nat} {x1 : FnState} {x2 : State} (h2 : Kept s0 x2) : Kept s0 (setFn x0 x1 x2) := by
  unfold setFn
  repeat' first
    | with_reducible assumption | (simp only [kept_mk]; with_reducible apply keptC_upd) | dsimp only
    | with_reducible exact Kept.refl _

theorem kept_sendMsix {x0 : Nat} {x1 : Nat} {x2 : State} (h2 : Kept s0 x2) : Kept s0 (sendMsix x0 x1 x2) := by
  unfold sendMsix
  repeat' first
    | with_reducible assumption | intro _ | (simp only [kept_mk]; with_reducible apply keptC_upd)
    | with_reducible apply kept_setFn | with_reducible apply kept_emit | with_reducible apply kept_ite | dsimp only
    | with_reducible exact Kept.refl _

theorem kept_dropEvent {x0 : Nat} {x1 : State} (h1 : Kept s0 x1) : Kept s0 (dropEvent x0 x1) := by
  unfold dropEvent
  repeat' first
    | with_reducible assumption | (simp only [kept_mk]; with_reducible apply keptC_upd) | with_reducible apply kept_setFn
    | dsimp only | with_reducible exact Kept.refl _

theorem kept_putRecord {x0 : Nat} {x1 : Nat → Bytes} {x2 : State} (h2 : Kept s0 x2) : Kept s0 (putRecord x0 x1 x2) := by
  unfold putRecord
  repeat' first
    | with_reducible assumption | intro _ | (simp only [kept_mk]; with_reducible apply keptC_upd)
    | with_reducible apply kept_setFn | with_reducible apply kept_hostWrite | with_reducible apply kept_sendMsix
    | with_reducible apply kept_ite | dsimp only | with_reducible exact Kept.refl _

theorem kept_putEvent {x0 : Nat} {x1 : Event} {x2 : State} (h2 : Kept s0 x2) : Kept s0 (putEvent x0 x1 x2) := by
  unfold putEvent
  repeat' first
    | with_reducible assumption | intro _ | with_reducible apply kept_putRecord | dsimp only | with_reducible exact Kept.refl _

theorem kept_tellOverflow {x0 : Nat} {x1 : State} (h1 : Kept s0 x1) : Kept s0 (tellOverflow x0 x1) := by
  unfold tellOverflow
  repeat' first
    | with_reducible assumption | intro _ | (simp only [kept_mk]; with_reducible apply keptC_upd)
    | with_reducible apply kept_putEvent | with_reducible apply kept_setFn | with_reducible apply kept_ite | dsimp only
    | with_reducible exact Kept.refl _

theorem kept_offerEvent {x0 : Nat} {x1 : Event} {x2 : State} (h2 : Kept s0 x2) : Kept s0 (offerEvent x0 x1 x2) := by
  unfold offerEvent
  repeat' first
    | with_reducible assumption | intro _ | (simp only [kept_mk]; with_reducible apply keptC_upd)
    | with_reducible apply kept_tellOverflow | with_reducible apply kept_putEvent | with_reducible apply kept_dropEvent
    | with_reducible apply kept_setFn | with_reducible apply kept_ite | dsimp only | with_reducible exact Kept.refl _

theorem kept_logEvent {x0 : Event} {x1 : State} (h1 : Kept s0 x1) : Kept s0 (logEvent x0 x1) := by
  unfold logEvent
  repeat' first
    | with_reducible assumption | intro _ | (simp only [kept_mk]; with_reducible apply keptC_upd)
    | with_reducible apply kept_setFn | with_reducible apply kept_offerEvent | with_reducible apply kept_ite | dsimp only
    | with_reducible exact Kept.refl _

theorem kept_note {x0 : Nat} {x1 : Nat} {x2 : Nat} {x3 : Nat} {x4 : List Nat} {x5 : State} (h5 : Kept s0 x5) : Kept s0 (note x0 x1 x2 x3 x4 x5) := by
  unfold note
  repeat' first
    | with_reducible assumption | with_reducible apply kept_logEvent | dsimp only | with_reducible exact Kept.refl _

theorem kept_violation {x0 : Nat} {x1 : Nat} {x2 : Nat} {x3 : Nat} {x4 : State} (h4 : Kept s0 x4) : Kept s0 (violation x0 x1 x2 x3 x4) := by
  unfold violation
  repeat' first
    | with_reducible assumption | (simp only [kept_mk]; with_reducible apply keptC_upd) | with_reducible apply kept_logEvent
    | with_reducible apply kept_setFn | dsimp only | with_reducible exact Kept.refl _

end Sys2Proof.Machine
end

