-- ==== Sys2Proof/Laws/KeptPosting.lean ====
section
/-! SUPPORT. What the definitions of Sys2Proof/Machine/Posting.lean keep. -/

set_option linter.unusedSimpArgs false

namespace Sys2Proof.Machine

variable {s0 : State}

theorem kept_postHalf {x0 : Half} {x1 : Nat} {x2 : Nat} {x3 : State} (h3 : Kept s0 x3) : Kept s0 (postHalf x0 x1 x2 x3) := by
  unfold postHalf
  repeat' first
    | with_reducible assumption | intro _ | (simp only [kept_mk]; with_reducible apply keptC_upd)
    | with_reducible apply kept_foldl | with_reducible apply kept_foldl_snd | with_reducible apply kept_getD
    | with_reducible apply kept_foldl_fst | dsimp only | with_reducible exact Kept.refl _

theorem kept_post {x0 : List Half} {x1 : Nat} {x2 : Nat} {x3 : State} (h3 : Kept s0 x3) : Kept s0 (post x0 x1 x2 x3) := by
  unfold post
  repeat' first
    | with_reducible assumption | intro _ | (simp only [kept_mk]; with_reducible apply keptC_upd)
    | with_reducible apply kept_bump | with_reducible apply kept_postHalf | with_reducible apply kept_foldl
    | with_reducible apply kept_foldl_snd | with_reducible apply kept_foldl_fst | with_reducible apply keptO_foldl
    | with_reducible apply keptP_foldl | with_reducible apply keptE_foldl | with_reducible apply keptEP_foldl | split
    | dsimp only | with_reducible exact Kept.refl _

theorem kept_move {x0 : Nat} {x1 : Nat} {x2 : Nat} {x3 : Nat} {x4 : Nat} {x5 : Nat} {x6 : Nat} {x7 : State} (h7 : Kept s0 x7) : Kept s0 (move x0 x1 x2 x3 x4 x5 x6 x7) := by
  unfold move
  repeat' first
    | with_reducible assumption | with_reducible apply kept_post | dsimp only | with_reducible exact Kept.refl _

theorem kept_setLink {x0 : Nat} {x1 : Link} {x2 : State} (h2 : Kept s0 x2) : Kept s0 (setLink x0 x1 x2) := by
  unfold setLink
  repeat' first
    | with_reducible assumption | (simp only [kept_mk]; with_reducible apply keptC_upd) | dsimp only
    | with_reducible exact Kept.refl _

theorem kept_sendFlits {x0 : Nat} {x1 : Nat} {x2 : Nat} {x3 : State} (h3 : Kept s0 x3) : Kept s0 (sendFlits x0 x1 x2 x3) := by
  unfold sendFlits
  repeat' first
    | with_reducible assumption | intro _ | (simp only [kept_mk]; with_reducible apply keptC_upd)
    | with_reducible apply kept_post | with_reducible apply kept_bump | with_reducible apply kept_setLink
    | with_reducible apply kept_getD | dsimp only | with_reducible exact Kept.refl _

theorem kept_pumpVc {x0 : Nat} {x1 : Nat} {x2 : Nat} {x3 : State} (h3 : Kept s0 x3) : Kept s0 (pumpVc x0 x1 x2 x3) := by
  induction x2 generalizing x0 x1 x3 with
  | zero =>
    unfold pumpVc
    repeat' first
      | with_reducible assumption | intro _ | (simp only [kept_mk]; with_reducible apply keptC_upd)
      | with_reducible apply kept_sendFlits | with_reducible apply kept_setLink | with_reducible apply kept_emit
      | with_reducible apply kept_ite | with_reducible apply kept_getD | split | dsimp only | with_reducible exact Kept.refl _
  | succ n ih =>
    unfold pumpVc
    repeat' first
      | with_reducible apply ih
      | with_reducible assumption | intro _ | (simp only [kept_mk]; with_reducible apply keptC_upd)
      | with_reducible apply kept_sendFlits | with_reducible apply kept_setLink | with_reducible apply kept_emit
      | with_reducible apply kept_ite | with_reducible apply kept_getD | split | dsimp only | with_reducible exact Kept.refl _

theorem kept_pumpLink {x0 : Nat} {x1 : State} (h1 : Kept s0 x1) : Kept s0 (pumpLink x0 x1) := by
  unfold pumpLink
  repeat' first
    | with_reducible assumption | intro _ | with_reducible apply kept_pumpVc | with_reducible apply kept_ite
    | with_reducible apply kept_foldl | with_reducible apply kept_foldl_snd | dsimp only | with_reducible exact Kept.refl _

theorem kept_sendSwl {x0 : Output} {x1 : State} (h1 : Kept s0 x1) : Kept s0 (sendSwl x0 x1) := by
  unfold sendSwl
  repeat' first
    | with_reducible assumption | intro _ | (simp only [kept_mk]; with_reducible apply keptC_upd)
    | with_reducible apply kept_pumpLink | with_reducible apply kept_setLink | with_reducible apply kept_emit
    | with_reducible apply kept_ite | split | dsimp only | with_reducible exact Kept.refl _

theorem kept_swlGot {x0 : Nat} {x1 : Nat} {x2 : Nat} {x3 : State} (h3 : Kept s0 x3) : Kept s0 (swlGot x0 x1 x2 x3) := by
  unfold swlGot
  repeat' first
    | with_reducible assumption | (simp only [kept_mk]; with_reducible apply keptC_upd) | with_reducible apply kept_setLink
    | with_reducible apply kept_post | with_reducible apply kept_bump | with_reducible apply kept_emit | dsimp only
    | with_reducible exact Kept.refl _

end Sys2Proof.Machine
end

