-- ==== Sys2Proof/Laws/KeptOperands.lean ====
section
/-! SUPPORT. What the definitions of Sys2Proof/Machine/Operands.lean keep. -/

set_option linter.unusedSimpArgs false

namespace Sys2Proof.Machine

variable {s0 : State}

theorem kept_sgWrite {x0 : List SgEntry} {x1 : Bytes} {x2 : State} (h2 : Kept s0 x2) : Kept s0 (sgWrite x0 x1 x2).1 := by
  induction x0 generalizing x1 x2 with
  | nil =>
    unfold sgWrite
    repeat' first
      | with_reducible assumption | intro _ | (simp only [kept_mk]; with_reducible apply keptC_upd)
      | with_reducible apply kept_hostWrite | with_reducible apply kept_ite | split | dsimp only
      | with_reducible exact Kept.refl _
  | cons a t ih =>
    unfold sgWrite
    repeat' first
      | with_reducible apply ih
      | with_reducible assumption | intro _ | (simp only [kept_mk]; with_reducible apply keptC_upd)
      | with_reducible apply kept_hostWrite | with_reducible apply kept_ite | split | dsimp only
      | with_reducible exact Kept.refl _

end Sys2Proof.Machine
end

