-- ==== Sys2Proof/Laws/KeptOps.lean ====
section
/-! SUPPORT. What the definitions of Sys2Proof/Machine/Ops.lean keep. -/

set_option linter.unusedSimpArgs false

namespace Sys2Proof.Machine

variable {s0 : State}

theorem kept_powerWait {x0 : Nat} {x1 : State} (h1 : Kept s0 x1) : Kept s0 (powerWait x0 x1) := by
  unfold powerWait
  repeat' first
    | with_reducible assumption | intro _ | (simp only [kept_mk]; with_reducible apply keptC_upd)
    | with_reducible apply kept_note | with_reducible apply kept_bump | with_reducible apply kept_ite | dsimp only
    | with_reducible exact Kept.refl _

theorem kept_setMbx {x0 : Nat} {x1 : Nat} {x2 : Mailbox} {x3 : State} (h3 : Kept s0 x3) : Kept s0 (setMbx x0 x1 x2 x3) := by
  unfold setMbx
  repeat' first
    | with_reducible assumption | intro _ | (simp only [kept_mk]; with_reducible apply keptC_upd)
    | with_reducible apply kept_move | with_reducible apply kept_ite | dsimp only | with_reducible exact Kept.refl _

theorem kept_capture {x0 : Req} {x1 : State} (h1 : Kept s0 x1) : Kept s0 (capture x0 x1) := by
  unfold capture
  repeat' first
    | with_reducible assumption | (simp only [kept_mk]; with_reducible apply keptC_upd) | with_reducible apply kept_setMbx
    | split | dsimp only | with_reducible exact Kept.refl _

theorem kept_logSgFault {x0 : Req} {x1 : Nat} {x2 : Nat} {x3 : State} (h3 : Kept s0 x3) : Kept s0 (logSgFault x0 x1 x2 x3) := by
  unfold logSgFault
  repeat' first
    | with_reducible assumption | with_reducible apply kept_logEvent | dsimp only | with_reducible exact Kept.refl _

theorem kept_writeShadow {x0 : Req} {x1 : Nat} {x2 : Nat} {x3 : Nat} {x4 : State} (h4 : Kept s0 x4) : Kept s0 (writeShadow x0 x1 x2 x3 x4) := by
  unfold writeShadow
  repeat' first
    | with_reducible assumption | intro _ | (simp only [kept_mk]; with_reducible apply keptC_upd)
    | with_reducible apply kept_logSgFault | with_reducible apply kept_hostWrite | with_reducible apply kept_ite | split
    | dsimp only | with_reducible exact Kept.refl _

theorem kept_complete {x0 : Req} {x1 : Nat} {x2 : Nat} {x3 : Nat} {x4 : Bytes} {x5 : Bool} {x6 : State} (h6 : Kept s0 x6) : Kept s0 (complete x0 x1 x2 x3 x4 x5 x6) := by
  unfold complete
  repeat' first
    | with_reducible assumption | intro _ | (simp only [kept_mk]; with_reducible apply keptC_upd)
    | with_reducible apply kept_setMbx | with_reducible apply kept_writeShadow | with_reducible apply kept_sendMsix
    | with_reducible apply kept_emit | with_reducible apply kept_sendSwl | with_reducible apply kept_ite | split | dsimp only
    | with_reducible exact Kept.refl _

theorem kept_Reply_ok {x0 : State} {x1 : optParam Bytes []} (h0 : Kept s0 x0) : Kept s0 (Reply.ok x0 x1).st := by
  unfold Reply.ok
  repeat' first
    | with_reducible assumption | dsimp only | with_reducible exact Kept.refl _

theorem kept_Reply_err {x0 : State} {x1 : Nat} {x2 : optParam Nat 0} (h0 : Kept s0 x0) : Kept s0 (Reply.err x0 x1 x2).st := by
  unfold Reply.err
  repeat' first
    | with_reducible assumption | dsimp only | with_reducible exact Kept.refl _

theorem kept_Reply_wait {x0 : State} (h0 : Kept s0 x0) : Kept s0 (Reply.wait x0).st := by
  unfold Reply.wait
  repeat' first
    | with_reducible assumption | dsimp only | with_reducible exact Kept.refl _

theorem kept_Reply_sg {x0 : Req} {x1 : State} {x2 : SgErr} (h1 : Kept s0 x1) : Kept s0 (Reply.sg x0 x1 x2).st := by
  unfold Reply.sg
  repeat' first
    | with_reducible assumption | with_reducible apply kept_logSgFault | split | dsimp only | with_reducible exact Kept.refl _

theorem kept_checked {α : Type} {x1 : State} {x2 : Except Nat α} {x3 : α → Reply} (h1 : Kept s0 x1) (h3 : ∀ y0, Kept s0 (x3 y0).st) : Kept s0 (checked x1 x2 x3).st := by
  unfold checked
  repeat' first
    | with_reducible assumption | with_reducible apply h3 | (simp only [kept_mk]; with_reducible apply keptC_upd)
    | with_reducible apply kept_reply_ok | with_reducible apply kept_reply_err | split | dsimp only
    | with_reducible exact Kept.refl _

theorem kept_replyData {x0 : Req} {x1 : Nat} {x2 : Bytes} {x3 : Bytes} {x4 : State} (h4 : Kept s0 x4) : Kept s0 (replyData x0 x1 x2 x3 x4).st := by
  unfold replyData
  repeat' first
    | with_reducible assumption | intro _ | (simp only [kept_mk]; with_reducible apply keptC_upd)
    | with_reducible apply kept_reply_ok | with_reducible apply kept_reply_err | with_reducible apply kept_ite_st
    | with_reducible apply kept_sgWrite | with_reducible apply kept_Reply_sg | with_reducible apply kept_ite
    | with_reducible apply keptO_ite | with_reducible exact kept_of_hypO ‹_› | with_reducible apply keptO_some
    | with_reducible apply keptO_none | with_reducible apply keptP_ite | with_reducible exact kept_of_hypP ‹_›
    | with_reducible apply keptP_some | with_reducible apply keptP_none | with_reducible apply keptE_ite
    | with_reducible exact kept_of_hypE ‹_› | with_reducible apply keptE_ok | with_reducible apply keptE_error
    | with_reducible apply keptEP_ite | with_reducible exact kept_of_hypEP ‹_› | with_reducible apply keptEP_ok
    | with_reducible apply keptEP_error | with_reducible apply keptEE_ite | with_reducible apply keptEE_ok
    | with_reducible apply keptEE_error | with_reducible refine kept_of_ok (by assumption) ?_
    | with_reducible refine kept_of_error (by assumption) ?_ | with_reducible refine kept_of_okP (by assumption) ?_
    | with_reducible refine kept_of_some (by assumption) ?_ | with_reducible refine kept_of_someP (by assumption) ?_
    | with_reducible refine kept_of_fst (by assumption) ?_ | with_reducible refine kept_of_snd (by assumption) ?_
    | with_reducible refine kept_of_snd2 (by assumption) ?_ | with_reducible refine kept_of_snd3 (by assumption) ?_
    | with_reducible refine keptP_of_snd (by assumption) ?_ | split | dsimp only | with_reducible exact Kept.refl _

theorem kept_withData {x0 : Req} {x1 : Nat} {x2 : State} {x3 : Bytes → Reply} (h2 : Kept s0 x2) (h3 : ∀ y0, Kept s0 (x3 y0).st) : Kept s0 (withData x0 x1 x2 x3).st := by
  unfold withData
  repeat' first
    | with_reducible assumption | with_reducible apply h3 | (simp only [kept_mk]; with_reducible apply keptC_upd)
    | with_reducible apply kept_reply_ok | with_reducible apply kept_reply_err | with_reducible apply kept_Reply_sg
    | with_reducible exact kept_of_hypO ‹_› | with_reducible exact kept_of_hypP ‹_› | with_reducible exact kept_of_hypE ‹_›
    | with_reducible apply keptE_ok | with_reducible apply keptE_error | with_reducible exact kept_of_hypEP ‹_›
    | with_reducible apply keptEP_ok | with_reducible apply keptEP_error | with_reducible apply keptEE_ok
    | with_reducible apply keptEE_error | with_reducible refine kept_of_ok (by assumption) ?_
    | with_reducible refine kept_of_error (by assumption) ?_ | with_reducible refine kept_of_okP (by assumption) ?_
    | with_reducible refine kept_of_some (by assumption) ?_ | with_reducible refine kept_of_someP (by assumption) ?_
    | with_reducible refine kept_of_fst (by assumption) ?_ | with_reducible refine kept_of_snd (by assumption) ?_
    | with_reducible refine kept_of_snd2 (by assumption) ?_ | with_reducible refine kept_of_snd3 (by assumption) ?_
    | with_reducible refine keptP_of_snd (by assumption) ?_ | split | dsimp only | with_reducible exact Kept.refl _

theorem kept_setPart {x0 : Nat} {x1 : Partition} {x2 : State} (h2 : Kept s0 x2) : Kept s0 (setPart x0 x1 x2) := by
  unfold setPart
  repeat' first
    | with_reducible assumption
    | (simp only [kept_mk]; first | with_reducible apply keptC_upd | refine keptC_updHmk ?_ (by first | exact Nat.le_refl _ | exact Nat.le_add_right _ _ | omega) (by exact Nat.le_refl _) (by rfl))
    | dsimp only | with_reducible exact Kept.refl _

theorem kept_hostAccess {x0 : Nat} {x1 : State → State} {x2 : State} (h1 : ∀ y0, Kept s0 y0 → Kept s0 (x1 y0)) (h2 : Kept s0 x2) : Kept s0 (hostAccess x0 x1 x2) := by
  unfold hostAccess
  repeat' first
    | with_reducible assumption | intro _ | with_reducible apply h1 | with_reducible apply kept_emit
    | with_reducible apply kept_refused | with_reducible apply kept_ite | dsimp only | with_reducible exact Kept.refl _

theorem kept_mirror {x0 : Nat} {x1 : Req} {x2 : Bytes} {x3 : State} (h3 : Kept s0 x3) : Kept s0 (mirror x0 x1 x2 x3) := by
  unfold mirror
  repeat' first
    | with_reducible assumption | intro _ | (simp only [kept_mk]; with_reducible apply keptC_upd)
    | with_reducible apply kept_sendSwl | with_reducible apply kept_ite | split | dsimp only | with_reducible exact Kept.refl _

theorem kept_commandStep {x0 : OpInfo} {x1 : Moment → Req → State → Reply} {x2 : Moment} {x3 : Req} {x4 : State} (h1 : ∀ y0 y1 y2, Kept s0 y2 → Kept s0 (x1 y0 y1 y2).st) (h4 : Kept s0 x4) : Kept s0 (commandStep x0 x1 x2 x3 x4) := by
  unfold commandStep
  repeat' first
    | with_reducible assumption | intro _ | with_reducible apply h1 | (simp only [kept_mk]; with_reducible apply keptC_upd)
    | with_reducible apply kept_reply_wait | with_reducible apply kept_ite_st | with_reducible apply kept_complete
    | with_reducible apply kept_powerWait | with_reducible apply kept_mirror | with_reducible apply kept_ite | split
    | dsimp only | with_reducible exact Kept.refl _

theorem kept_postIn {x0 : Req} {x1 : State} (h1 : Kept s0 x1) : Kept s0 (postIn x0 x1) := by
  unfold postIn
  repeat' first
    | with_reducible assumption | (simp only [kept_mk]; with_reducible apply keptC_upd) | with_reducible apply kept_setMbx
    | with_reducible apply kept_setFn | split | dsimp only | with_reducible exact Kept.refl _

theorem kept_runCommand {x0 : OpInfo} {x1 : Moment → Req → State → Reply} {x2 : Moment} {x3 : Req} {x4 : State} (h1 : ∀ y0 y1 y2, Kept s0 y2 → Kept s0 (x1 y0 y1 y2).st) (h4 : Kept s0 x4) : Kept s0 (runCommand x0 x1 x2 x3 x4) := by
  unfold runCommand
  repeat' first
    | with_reducible assumption | intro _ | with_reducible apply h1 | (simp only [kept_mk]; with_reducible apply keptC_upd)
    | with_reducible apply kept_ite_st | with_reducible apply kept_State_at | with_reducible apply kept_emit
    | with_reducible apply kept_refused | with_reducible apply kept_postIn | with_reducible apply kept_commandStep
    | with_reducible apply kept_capture | with_reducible apply kept_violation | with_reducible apply kept_ite | split
    | dsimp only | with_reducible exact Kept.refl _

theorem kept_startOp {x0 : Req} {x1 : Nat} {x2 : Nat} {x3 : Nat} {x4 : Bool} {x5 : List Nat} {x6 : State} (h6 : Kept s0 x6) : Kept s0 (startOp x0 x1 x2 x3 x4 x5 x6).2 := by
  unfold startOp
  repeat' first
    | with_reducible assumption | (simp only [kept_mk]; with_reducible apply keptC_upd) | dsimp only
    | with_reducible exact Kept.refl _

theorem kept_setOp {x0 : Nat} {x1 : LongOp} {x2 : State} (h2 : Kept s0 x2) : Kept s0 (setOp x0 x1 x2) := by
  unfold setOp
  repeat' first
    | with_reducible assumption | (simp only [kept_mk]; with_reducible apply keptC_upd) | dsimp only
    | with_reducible exact Kept.refl _

theorem kept_showProgress {x0 : LongOp} {x1 : State} (h1 : Kept s0 x1) : Kept s0 (showProgress x0 x1) := by
  unfold showProgress
  repeat' first
    | with_reducible assumption | intro _ | (simp only [kept_mk]; with_reducible apply keptC_upd)
    | with_reducible apply kept_setMbx | with_reducible apply kept_ite | split | dsimp only | with_reducible exact Kept.refl _

theorem kept_progressIrq {x0 : LongOp} {x1 : Nat} {x2 : State} (h2 : Kept s0 x2) : Kept s0 (progressIrq x0 x1 x2) := by
  unfold progressIrq
  repeat' first
    | with_reducible assumption | intro _ | (simp only [kept_mk]; with_reducible apply keptC_upd)
    | with_reducible apply kept_sendMsix | with_reducible apply kept_ite | split | dsimp only
    | with_reducible exact Kept.refl _

theorem kept_progressOp {x0 : Nat} {x1 : Nat} {x2 : Nat} {x3 : Nat} {x4 : State} (h4 : Kept s0 x4) : Kept s0 (progressOp x0 x1 x2 x3 x4) := by
  unfold progressOp
  repeat' first
    | with_reducible assumption | intro _ | (simp only [kept_mk]; with_reducible apply keptC_upd)
    | with_reducible apply kept_showProgress | with_reducible apply kept_setOp | with_reducible apply kept_progressIrq
    | with_reducible apply kept_ite | split | dsimp only | with_reducible exact Kept.refl _

theorem kept_acceptOp {x0 : Nat} {x1 : State} (h1 : Kept s0 x1) : Kept s0 (acceptOp x0 x1) := by
  unfold acceptOp
  repeat' first
    | with_reducible assumption | intro _ | (simp only [kept_mk]; with_reducible apply keptC_upd)
    | with_reducible apply kept_setFn | with_reducible apply kept_setOp | with_reducible apply kept_setMbx
    | with_reducible apply kept_sendMsix | with_reducible apply kept_emit | with_reducible apply kept_ite | split | dsimp only
    | with_reducible exact Kept.refl _

theorem kept_retainOp {x0 : LongOp} {x1 : Progress} {x2 : State} (h2 : Kept s0 x2) : Kept s0 (retainOp x0 x1 x2) := by
  unfold retainOp
  repeat' first
    | with_reducible assumption | intro _ | (simp only [kept_mk]; with_reducible apply keptC_upd)
    | with_reducible apply kept_ite | dsimp only | with_reducible exact Kept.refl _

theorem kept_endOp {x0 : Nat} {x1 : Nat} {x2 : Nat} {x3 : Bytes} {x4 : State} (h4 : Kept s0 x4) : Kept s0 (endOp x0 x1 x2 x3 x4) := by
  unfold endOp
  repeat' first
    | with_reducible assumption | intro _ | (simp only [kept_mk]; with_reducible apply keptC_upd)
    | with_reducible apply kept_showProgress | with_reducible apply kept_retainOp | with_reducible apply kept_complete
    | with_reducible apply kept_progressIrq | with_reducible apply kept_ite | split | dsimp only
    | with_reducible exact Kept.refl _

theorem kept_endSgFault {x0 : Nat} {x1 : State} (h1 : Kept s0 x1) : Kept s0 (endSgFault x0 x1) := by
  unfold endSgFault
  repeat' first
    | with_reducible assumption | intro _
    | (simp only [kept_mk]; first | with_reducible apply keptC_upd | with_reducible apply keptC_clear | refine keptC_updHmk ?_ (by first | exact Nat.le_refl _ | exact Nat.le_add_right _ _ | omega) (by exact Nat.le_refl _) (by rfl))
    | with_reducible apply kept_endOp | with_reducible apply kept_logSgFault | with_reducible apply keptO_some
    | with_reducible apply keptO_none | with_reducible apply keptO_ite | with_reducible apply keptO_obindS
    | with_reducible apply keptO_obind | with_reducible apply keptO_map | with_reducible apply keptO_bind
    | with_reducible apply kept_foldl | with_reducible apply kept_foldl_snd | with_reducible apply kept_foldl_fst
    | with_reducible apply keptO_foldl | with_reducible apply keptP_foldl | with_reducible apply keptE_foldl
    | with_reducible apply keptEP_foldl | with_reducible apply kept_getD | with_reducible exact kept_of_hypO ‹_›
    | with_reducible exact kept_of_hypP ‹_› | with_reducible exact kept_of_hypE ‹_› | with_reducible exact kept_of_hypEP ‹_›
    | with_reducible refine kept_of_some (by assumption) ?_ | with_reducible refine kept_of_someP (by assumption) ?_
    | with_reducible refine kept_of_ok (by assumption) ?_ | with_reducible refine kept_of_okP (by assumption) ?_
    | with_reducible refine kept_of_error (by assumption) ?_ | with_reducible refine kept_of_snd (by assumption) ?_
    | with_reducible refine kept_of_fst (by assumption) ?_ | with_reducible refine kept_of_snd2 (by assumption) ?_
    | with_reducible refine kept_of_snd3 (by assumption) ?_ | split | dsimp only | with_reducible exact Kept.refl _

theorem kept_advanceOp {x0 : Nat} {x1 : Nat} {x2 : State} (h2 : Kept s0 x2) : Kept s0 (advanceOp x0 x1 x2) := by
  unfold advanceOp
  repeat' first
    | with_reducible assumption | (simp only [kept_mk]; with_reducible apply keptC_upd) | with_reducible apply kept_progressOp
    | split | dsimp only | with_reducible exact Kept.refl _

theorem kept_phaseOp {x0 : Nat} {x1 : Nat} {x2 : Bool} {x3 : State} (h3 : Kept s0 x3) : Kept s0 (phaseOp x0 x1 x2 x3) := by
  unfold phaseOp
  repeat' first
    | with_reducible assumption | (simp only [kept_mk]; with_reducible apply keptC_upd) | with_reducible apply kept_progressOp
    | with_reducible apply kept_setOp | split | dsimp only | with_reducible exact Kept.refl _

theorem kept_setArgs {x0 : Nat} {x1 : List Nat} {x2 : State} (h2 : Kept s0 x2) : Kept s0 (setArgs x0 x1 x2) := by
  unfold setArgs
  repeat' first
    | with_reducible assumption | (simp only [kept_mk]; with_reducible apply keptC_upd) | with_reducible apply kept_setOp
    | split | dsimp only | with_reducible exact Kept.refl _

theorem kept_asOp {x0 : Req} {x1 : State} {x2 : Nat} {x3 : Nat} {x4 : Nat} {x5 : Bool} {x6 : List Nat} {x7 : Nat → State → State} (h1 : Kept s0 x1) (h7 : ∀ y0 y1, Kept s0 y1 → Kept s0 (x7 y0 y1)) : Kept s0 (asOp x0 x1 x2 x3 x4 x5 x6 x7).st := by
  unfold asOp
  repeat' first
    | with_reducible assumption | intro _ | with_reducible apply h7 | with_reducible apply kept_reply_err
    | with_reducible apply kept_reply_wait | with_reducible apply kept_ite_st | with_reducible apply kept_startOp
    | with_reducible apply kept_ite | with_reducible refine kept_of_snd (by assumption) ?_ | split | dsimp only
    | with_reducible exact Kept.refl _

end Sys2Proof.Machine
end

