-- ==== Sys2Proof/Laws/KeptPartitions.lean ====
section
/-! SUPPORT. What the definitions of Sys2Proof/Machine/Partitions.lean keep. -/

set_option linter.unusedSimpArgs false

namespace Sys2Proof.Machine

variable {s0 : State}

theorem kept_partWrite {x0 : Nat} {x1 : Nat} {x2 : Nat} {x3 : Bytes} {x4 : State} (h4 : Kept s0 x4) : Kept s0 (partWrite x0 x1 x2 x3 x4) := by
  induction x3 generalizing x0 x1 x2 x4 with
  | nil =>
    unfold partWrite
    repeat' first
      | with_reducible assumption | with_reducible apply kept_devWrite | split | dsimp only | with_reducible exact Kept.refl _
  | cons a t ih =>
    unfold partWrite
    repeat' first
      | with_reducible apply ih
      | with_reducible assumption | with_reducible apply kept_devWrite | split | dsimp only | with_reducible exact Kept.refl _

end Sys2Proof.Machine
end

