-- ==== Sys2Proof/Laws/KeptFrames.lean ====
section
/-! SUPPORT. What the definitions of Sys2Proof/Machine/Frames.lean keep. -/

set_option linter.unusedSimpArgs false

namespace Sys2Proof.Machine

variable {s0 : State}

theorem kept_reserveFrame {x0 : Moment} {x1 : Nat} {x2 : PoolId} {x3 : Nat} {x4 : Nat} {x5 : State} (h5 : Kept s0 x5) : KeptP s0 (reserveFrame x0 x1 x2 x3 x4 x5) := by
  unfold reserveFrame
  repeat' first
    | with_reducible assumption | intro _
    | (simp only [kept_mk]; first | with_reducible apply keptC_upd | with_reducible apply keptC_clear | refine keptC_updHmk ?_ (by first | exact Nat.le_refl _ | exact Nat.le_add_right _ _ | omega) (by exact Nat.le_refl _) (by rfl))
    | with_reducible apply kept_post | with_reducible apply keptO_some | with_reducible apply keptO_none
    | with_reducible apply keptO_ite | with_reducible apply keptO_obindS | with_reducible apply keptO_obind
    | with_reducible apply keptO_map | with_reducible apply keptO_bind | with_reducible apply keptP_some
    | with_reducible apply keptP_none | with_reducible apply keptP_ite | with_reducible apply keptP_obind
    | with_reducible apply keptP_map | with_reducible apply keptP_bind | with_reducible apply kept_foldl
    | with_reducible apply kept_foldl_snd | with_reducible apply kept_foldl_fst | with_reducible apply keptO_foldl
    | with_reducible apply keptP_foldl | with_reducible apply keptE_foldl | with_reducible apply keptEP_foldl
    | with_reducible apply kept_getD | with_reducible exact kept_of_hypO ‹_› | with_reducible exact kept_of_hypP ‹_›
    | with_reducible exact kept_of_hypE ‹_› | with_reducible exact kept_of_hypEP ‹_›
    | with_reducible refine kept_of_some (by assumption) ?_ | with_reducible refine kept_of_someP (by assumption) ?_
    | with_reducible refine kept_of_ok (by assumption) ?_ | with_reducible refine kept_of_okP (by assumption) ?_
    | with_reducible refine kept_of_error (by assumption) ?_ | with_reducible refine kept_of_snd (by assumption) ?_
    | with_reducible refine kept_of_fst (by assumption) ?_ | with_reducible refine kept_of_snd2 (by assumption) ?_
    | with_reducible refine kept_of_snd3 (by assumption) ?_ | split | dsimp only | with_reducible exact Kept.refl _

theorem kept_publishFrame {x0 : Nat} {x1 : Nat} {x2 : Nat} {x3 : Nat} {x4 : Nat} {x5 : State} (h5 : Kept s0 x5) : Kept s0 (publishFrame x0 x1 x2 x3 x4 x5) := by
  unfold publishFrame
  repeat' first
    | with_reducible assumption | (simp only [kept_mk]; with_reducible apply keptC_upd) | with_reducible apply kept_post | split
    | dsimp only | with_reducible exact Kept.refl _

theorem kept_takeFrame {x0 : Moment} {x1 : Nat} {x2 : PoolId} {x3 : Nat} {x4 : Nat} {x5 : State} (h5 : Kept s0 x5) : KeptP s0 (takeFrame x0 x1 x2 x3 x4 x5) := by
  unfold takeFrame
  repeat' first
    | with_reducible assumption | (simp only [kept_mk]; with_reducible apply keptC_upd) | with_reducible apply kept_reserveFrame
    | with_reducible apply kept_publishFrame | with_reducible exact kept_of_hypP ‹_› | with_reducible apply keptP_some
    | with_reducible apply keptP_none | with_reducible refine kept_of_someP (by assumption) ?_
    | with_reducible refine keptP_of_snd (by assumption) ?_ | split | dsimp only | with_reducible exact Kept.refl _

theorem kept_returnFrame {x0 : Nat} {x1 : Nat} {x2 : State} (h2 : Kept s0 x2) : Kept s0 (returnFrame x0 x1 x2) := by
  unfold returnFrame
  dsimp only
  split
  · exact h2
  · split
    · exact ⟨h2.pending, h2.grade, h2.counter, h2.revoked, h2.out, h2.free, fun w => Mem.clear_wf _ _ (h2.dev w), h2.host⟩
    · exact ⟨h2.pending, h2.grade, h2.counter, h2.revoked, h2.out, h2.free, h2.dev, h2.host⟩

theorem kept_unreserveFrame {x0 : Nat} {x1 : Nat} {x2 : Nat} {x3 : Nat} {x4 : State} (h4 : Kept s0 x4) : Kept s0 (unreserveFrame x0 x1 x2 x3 x4) := by
  unfold unreserveFrame
  repeat' first
    | with_reducible assumption | (simp only [kept_mk]; with_reducible apply keptC_upd) | with_reducible apply kept_post
    | with_reducible apply kept_returnFrame | split | dsimp only | with_reducible exact Kept.refl _

theorem kept_addHolder {x0 : Nat} {x1 : Nat} {x2 : Nat} {x3 : Nat} {x4 : State} (h4 : Kept s0 x4) : Kept s0 (addHolder x0 x1 x2 x3 x4) := by
  unfold addHolder
  repeat' first
    | with_reducible assumption | (simp only [kept_mk]; with_reducible apply keptC_upd) | with_reducible apply kept_post | split
    | dsimp only | with_reducible exact Kept.refl _

theorem kept_dropHolder {x0 : Nat} {x1 : Nat} {x2 : Nat} {x3 : Nat} {x4 : State} (h4 : Kept s0 x4) : Kept s0 (dropHolder x0 x1 x2 x3 x4) := by
  unfold dropHolder
  repeat' first
    | with_reducible assumption | intro _ | (simp only [kept_mk]; with_reducible apply keptC_upd)
    | with_reducible apply kept_post | with_reducible apply kept_returnFrame | with_reducible apply kept_ite | split
    | dsimp only | with_reducible exact Kept.refl _

theorem kept_lateFrames {x0 : State} (h0 : Kept s0 x0) : Kept s0 (lateFrames x0) := by
  unfold lateFrames
  repeat' first
    | with_reducible assumption | intro _ | (simp only [kept_mk]; with_reducible apply keptC_upd)
    | with_reducible apply kept_post | with_reducible apply kept_returnFrame | with_reducible apply kept_foldl
    | with_reducible apply kept_foldl_snd | with_reducible apply kept_foldl_fst | with_reducible apply keptO_foldl
    | with_reducible apply keptP_foldl | with_reducible apply keptE_foldl | with_reducible apply keptEP_foldl | split
    | dsimp only | with_reducible exact Kept.refl _

theorem kept_copyFrame {x0 : Nat} {x1 : Nat} {x2 : Nat} {x3 : Nat} {x4 : Nat} {x5 : State} (h5 : Kept s0 x5) : Kept s0 (copyFrame x0 x1 x2 x3 x4 x5) := by
  unfold copyFrame
  repeat' first
    | with_reducible assumption | with_reducible apply kept_devWrite | dsimp only | with_reducible exact Kept.refl _

theorem kept_dropPte {x0 : Pte} {x1 : Nat} {x2 : State} (h2 : Kept s0 x2) : Kept s0 (dropPte x0 x1 x2) := by
  unfold dropPte
  repeat' first
    | with_reducible assumption | intro _ | (simp only [kept_mk]; with_reducible apply keptC_upd)
    | with_reducible apply kept_sendSwl | with_reducible apply kept_dropHolder | with_reducible apply kept_ite | split
    | dsimp only | with_reducible exact Kept.refl _

theorem kept_setStore {x0 : Nat} {x1 : Store} {x2 : State} (h2 : Kept s0 x2) : Kept s0 (setStore x0 x1 x2) := by
  unfold setStore
  repeat' first
    | with_reducible assumption | (simp only [kept_mk]; with_reducible apply keptC_upd) | dsimp only
    | with_reducible exact Kept.refl _

theorem kept_modStore {x0 : Nat} {x1 : Store → Store} {x2 : State} (h2 : Kept s0 x2) : Kept s0 (modStore x0 x1 x2) := by
  unfold modStore
  repeat' first
    | with_reducible assumption | with_reducible apply kept_setStore | dsimp only | with_reducible exact Kept.refl _

theorem kept_setPte {x0 : Nat} {x1 : Nat} {x2 : Nat} {x3 : Pte} {x4 : State} (h4 : Kept s0 x4) : Kept s0 (setPte x0 x1 x2 x3 x4) := by
  unfold setPte
  repeat' first
    | with_reducible assumption | intro _ | (simp only [kept_mk]; with_reducible apply keptC_upd)
    | with_reducible apply kept_modStore | dsimp only | with_reducible exact Kept.refl _

theorem kept_dropTables {x0 : Nat} {x1 : State} (h1 : Kept s0 x1) : Kept s0 (dropTables x0 x1) := by
  unfold dropTables
  repeat' first
    | with_reducible assumption | intro _ | (simp only [kept_mk]; with_reducible apply keptC_upd)
    | with_reducible apply kept_dropHolder | with_reducible apply kept_modStore | with_reducible apply kept_foldl
    | with_reducible apply kept_foldl_snd | dsimp only | with_reducible exact Kept.refl _

theorem kept_dropPages {x0 : Nat} {x1 : State} (h1 : Kept s0 x1) : Kept s0 (dropPages x0 x1) := by
  unfold dropPages
  repeat' first
    | with_reducible assumption | intro _ | (simp only [kept_mk]; with_reducible apply keptC_upd)
    | with_reducible apply kept_dropPte | with_reducible apply kept_modStore | with_reducible apply kept_foldl
    | with_reducible apply kept_foldl_snd | dsimp only | with_reducible exact Kept.refl _

end Sys2Proof.Machine
end

