-- ==== Sys2Proof/Laws/KeptTree.lean ====
section
/-! SUPPORT. What the definitions of Sys2Proof/Machine/Tree.lean keep. -/

set_option linter.unusedSimpArgs false

namespace Sys2Proof.Machine

variable {s0 : State}

theorem kept_setTree {x0 : Nat} {x1 : Tree} {x2 : State} (h2 : Kept s0 x2) : Kept s0 (setTree x0 x1 x2) := by
  unfold setTree
  repeat' first
    | with_reducible assumption | (simp only [kept_mk]; with_reducible apply keptC_upd) | dsimp only
    | with_reducible exact Kept.refl _

theorem kept_setNode {x0 : Nat} {x1 : Nat} {x2 : Node} {x3 : State} (h3 : Kept s0 x3) : Kept s0 (setNode x0 x1 x2 x3) := by
  unfold setNode
  repeat' first
    | with_reducible assumption | (simp only [kept_mk]; with_reducible apply keptC_upd) | with_reducible apply kept_setTree
    | dsimp only | with_reducible exact Kept.refl _

theorem kept_setModel {x0 : Nat} {x1 : ModelSlot} {x2 : State} (h2 : Kept s0 x2) : Kept s0 (setModel x0 x1 x2) := by
  unfold setModel
  repeat' first
    | with_reducible assumption | (simp only [kept_mk]; with_reducible apply keptC_upd) | dsimp only
    | with_reducible exact Kept.refl _

theorem kept_lookupKey {x0 : Nat} {x1 : Bytes} {x2 : State} (h2 : Kept s0 x2) : Kept s0 (lookupKey x0 x1 x2).2 := by
  unfold lookupKey
  repeat' first
    | with_reducible assumption | intro _ | with_reducible apply kept_bump | with_reducible apply kept_ite
    | with_reducible apply kept_ite_snd | dsimp only | with_reducible exact Kept.refl _

theorem kept_touchNodes {x0 : Nat} {x1 : List Nat} {x2 : State} (h2 : Kept s0 x2) : Kept s0 (touchNodes x0 x1 x2) := by
  unfold touchNodes
  repeat' first
    | with_reducible assumption | intro _ | (simp only [kept_mk]; with_reducible apply keptC_upd)
    | with_reducible apply kept_setNode | with_reducible apply kept_foldl | with_reducible apply kept_foldl_snd | dsimp only
    | with_reducible exact Kept.refl _

theorem kept_freeNode {x0 : Nat} {x1 : Nat} {x2 : State} (h2 : Kept s0 x2) : Kept s0 (freeNode x0 x1 x2) := by
  unfold freeNode
  repeat' first
    | with_reducible assumption | intro _ | (simp only [kept_mk]; with_reducible apply keptC_upd)
    | with_reducible apply kept_dropHolder | with_reducible apply kept_setNode | with_reducible apply kept_note
    | with_reducible apply kept_bump | with_reducible apply kept_ite | with_reducible apply kept_foldl
    | with_reducible apply kept_foldl_snd | dsimp only | with_reducible exact Kept.refl _

theorem kept_deleteNode {x0 : Nat} {x1 : Nat} {x2 : State} (h2 : Kept s0 x2) : Kept s0 (deleteNode x0 x1 x2).2 := by
  unfold deleteNode
  repeat' first
    | with_reducible assumption | intro _ | with_reducible apply kept_freeNode | with_reducible apply kept_foldl
    | with_reducible apply kept_foldl_snd | dsimp only | with_reducible exact Kept.refl _

theorem kept_evictWhile {x0 : Nat} {x1 : State → Bool} {x2 : Nat} {x3 : State} (h3 : Kept s0 x3) : Kept s0 (evictWhile x0 x1 x2 x3).2 := by
  induction x2 generalizing x0 x1 x3 with
  | zero =>
    unfold evictWhile
    repeat' first
      | with_reducible assumption | intro _
      | (simp only [kept_mk]; first | with_reducible apply keptC_upd | refine keptC_updHmk ?_ (by first | exact Nat.le_refl _ | exact Nat.le_add_right _ _ | omega) (by exact Nat.le_refl _) (by rfl))
      | with_reducible apply kept_bump | with_reducible apply kept_freeNode | with_reducible apply kept_ite
      | with_reducible apply kept_ite_snd | split | dsimp only | with_reducible exact Kept.refl _
  | succ n ih =>
    unfold evictWhile
    repeat' first
      | with_reducible apply ih
      | with_reducible assumption | intro _
      | (simp only [kept_mk]; first | with_reducible apply keptC_upd | refine keptC_updHmk ?_ (by first | exact Nat.le_refl _ | exact Nat.le_add_right _ _ | omega) (by exact Nat.le_refl _) (by rfl))
      | with_reducible apply kept_bump | with_reducible apply kept_freeNode | with_reducible apply kept_ite
      | with_reducible apply kept_ite_snd | split | dsimp only | with_reducible exact Kept.refl _

theorem kept_evict {x0 : Nat} {x1 : Nat} {x2 : State → Bool} {x3 : State} (h3 : Kept s0 x3) : Kept s0 (evict x0 x1 x2 x3) := by
  unfold evict
  repeat' first
    | with_reducible assumption | intro _ | with_reducible apply kept_evictWhile | with_reducible apply kept_note
    | with_reducible apply kept_ite | with_reducible refine kept_of_snd (by assumption) ?_ | split | dsimp only
    | with_reducible exact Kept.refl _

theorem kept_purgeNodes {x0 : Nat} {x1 : Option Nat} {x2 : State} (h2 : Kept s0 x2) : Kept s0 (purgeNodes x0 x1 x2).2 := by
  unfold purgeNodes
  repeat' first
    | with_reducible assumption | intro _ | (simp only [kept_mk]; with_reducible apply keptC_upd)
    | with_reducible apply kept_deleteNode | with_reducible apply kept_foldl | with_reducible apply kept_foldl_snd
    | with_reducible apply kept_foldl_fst | with_reducible refine kept_of_snd (by assumption) ?_ | split | dsimp only
    | with_reducible exact Kept.refl _

end Sys2Proof.Machine
end

