-- ==== Sys2Proof/Laws/KeptPlinth.lean ====
section
/-! SUPPORT. What the definitions of Sys2Proof/Machine/Plinth.lean keep. -/

set_option linter.unusedSimpArgs false

namespace Sys2Proof.Machine

variable {s0 : State}

theorem kept_modSess {x0 : Nat} {x1 : Session → Session} {x2 : State} (h2 : Kept s0 x2) : Kept s0 (modSess x0 x1 x2) := by
  unfold modSess
  repeat' first
    | with_reducible assumption | intro _ | (simp only [kept_mk]; with_reducible apply keptC_upd)
    | with_reducible apply kept_ite | dsimp only | with_reducible exact Kept.refl _

theorem kept_takeSlot {x0 : Nat} {x1 : Session} {x2 : State} (h2 : Kept s0 x2) : Kept s0 (takeSlot x0 x1 x2) := by
  unfold takeSlot
  repeat' first
    | with_reducible assumption | (simp only [kept_mk]; with_reducible apply keptC_upd) | with_reducible apply kept_move
    | dsimp only | with_reducible exact Kept.refl _

theorem kept_freeSlot {x0 : Nat} {x1 : State} (h1 : Kept s0 x1) : Kept s0 (freeSlot x0 x1) := by
  unfold freeSlot
  repeat' first
    | with_reducible assumption | intro _ | (simp only [kept_mk]; with_reducible apply keptC_upd)
    | with_reducible apply kept_move | split | dsimp only | with_reducible exact Kept.refl _

theorem kept_setState {x0 : Nat} {x1 : SState} {x2 : State} (h2 : Kept s0 x2) : Kept s0 (setState x0 x1 x2) := by
  unfold setState
  repeat' first
    | with_reducible assumption | intro _ | (simp only [kept_mk]; with_reducible apply keptC_upd)
    | with_reducible apply kept_modSess | with_reducible apply kept_move | with_reducible apply kept_ite | split | dsimp only
    | with_reducible exact Kept.refl _

theorem kept_setDir {x0 : Nat} {x1 : DirEntry} {x2 : State} (h2 : Kept s0 x2) : Kept s0 (setDir x0 x1 x2) := by
  unfold setDir
  repeat' first
    | with_reducible assumption | intro _ | (simp only [kept_mk]; with_reducible apply keptC_upd)
    | with_reducible apply kept_move | with_reducible apply kept_sendSwl | with_reducible apply kept_ite | split | dsimp only
    | with_reducible exact Kept.refl _

theorem kept_modDir {x0 : Nat} {x1 : DirEntry → DirEntry} {x2 : State} (h2 : Kept s0 x2) : Kept s0 (modDir x0 x1 x2) := by
  unfold modDir
  repeat' first
    | with_reducible assumption | (simp only [kept_mk]; with_reducible apply keptC_upd) | with_reducible apply kept_setDir
    | split | dsimp only | with_reducible exact Kept.refl _

theorem kept_newDir {x0 : Nat} {x1 : DirEntry} {x2 : State} (h2 : Kept s0 x2) : Kept s0 (newDir x0 x1 x2) := by
  unfold newDir
  repeat' first
    | with_reducible assumption | (simp only [kept_mk]; with_reducible apply keptC_upd) | with_reducible apply kept_move
    | dsimp only | with_reducible exact Kept.refl _

theorem kept_freeDir {x0 : Nat} {x1 : State} (h1 : Kept s0 x1) : Kept s0 (freeDir x0 x1) := by
  unfold freeDir
  repeat' first
    | with_reducible assumption | intro _ | (simp only [kept_mk]; with_reducible apply keptC_upd)
    | with_reducible apply kept_move | with_reducible apply kept_sendSwl | with_reducible apply kept_ite | split | dsimp only
    | with_reducible exact Kept.refl _

theorem kept_swlAsk {x0 : Nat} {x1 : SwlWait} {x2 : Nat} {x3 : Nat} {x4 : List Nat} {x5 : Bytes} {x6 : State} (h6 : Kept s0 x6) : Kept s0 (swlAsk x0 x1 x2 x3 x4 x5 x6) := by
  unfold swlAsk
  repeat' first
    | with_reducible assumption | (simp only [kept_mk]; with_reducible apply keptC_upd) | with_reducible apply kept_sendSwl
    | dsimp only | with_reducible exact Kept.refl _

theorem kept_forwardTo {x0 : Nat} {x1 : Req} {x2 : State} (h2 : Kept s0 x2) : Kept s0 (forwardTo x0 x1 x2).st := by
  unfold forwardTo
  repeat' first
    | with_reducible assumption | intro _ | (simp only [kept_mk]; with_reducible apply keptC_upd)
    | with_reducible apply kept_reply_ok | with_reducible apply kept_reply_err | with_reducible apply kept_ite_st
    | with_reducible apply kept_asOp | with_reducible apply kept_bump | with_reducible apply kept_swlAsk
    | with_reducible apply kept_Reply_sg | with_reducible apply kept_ite | with_reducible apply keptO_ite
    | with_reducible exact kept_of_hypO ‹_› | with_reducible apply keptP_ite | with_reducible exact kept_of_hypP ‹_›
    | with_reducible apply keptE_ite | with_reducible exact kept_of_hypE ‹_› | with_reducible apply keptE_ok
    | with_reducible apply keptE_error | with_reducible apply keptEP_ite | with_reducible exact kept_of_hypEP ‹_›
    | with_reducible apply keptEP_ok | with_reducible apply keptEP_error | with_reducible apply keptEE_ite
    | with_reducible apply keptEE_ok | with_reducible apply keptEE_error | with_reducible refine kept_of_ok (by assumption) ?_
    | with_reducible refine kept_of_error (by assumption) ?_ | with_reducible refine kept_of_okP (by assumption) ?_
    | with_reducible refine kept_of_some (by assumption) ?_ | with_reducible refine kept_of_someP (by assumption) ?_
    | with_reducible refine kept_of_fst (by assumption) ?_ | with_reducible refine kept_of_snd (by assumption) ?_
    | with_reducible refine kept_of_snd2 (by assumption) ?_ | with_reducible refine kept_of_snd3 (by assumption) ?_
    | with_reducible refine keptP_of_snd (by assumption) ?_ | split | dsimp only | with_reducible exact Kept.refl _

theorem kept_onSession {x0 : Req} {x1 : State} {x2 : Nat → Held → Reply} (h1 : Kept s0 x1) (h2 : ∀ y0 y1, Kept s0 (x2 y0 y1).st) : Kept s0 (onSession x0 x1 x2).st := by
  unfold onSession
  repeat' first
    | with_reducible assumption | intro _ | with_reducible apply h2 | (simp only [kept_mk]; with_reducible apply keptC_upd)
    | with_reducible apply kept_reply_err | with_reducible apply kept_ite_st | with_reducible apply kept_forwardTo
    | with_reducible apply kept_ite | split | dsimp only | with_reducible exact Kept.refl _

theorem kept_onStore {x0 : Req} {x1 : State} {x2 : Nat → Held → Reply} (h1 : Kept s0 x1) (h2 : ∀ y0 y1, Kept s0 (x2 y0 y1).st) : Kept s0 (onStore x0 x1 x2).st := by
  unfold onStore
  repeat' first
    | with_reducible assumption | intro _ | (simp only [kept_mk]; with_reducible apply keptC_upd) | with_reducible apply h2
    | with_reducible apply kept_reply_ok | with_reducible apply kept_reply_err | with_reducible apply kept_reply_wait
    | with_reducible apply kept_ite_st | with_reducible apply kept_onSession | with_reducible apply kept_Reply_err
    | with_reducible apply kept_forwardTo | with_reducible apply kept_ite | split | dsimp only
    | with_reducible exact Kept.refl _

theorem kept_addWaiting {x0 : Nat} {x1 : Req} {x2 : State} (h2 : Kept s0 x2) : Kept s0 (addWaiting x0 x1 x2) := by
  unfold addWaiting
  repeat' first
    | with_reducible assumption | intro _ | (simp only [kept_mk]; with_reducible apply keptC_upd)
    | with_reducible apply kept_modSess | dsimp only | with_reducible exact Kept.refl _

theorem kept_refuse {x0 : Nat} {x1 : State} (h1 : Kept s0 x1) : Kept s0 (refuse x0 x1) := by
  unfold refuse
  repeat' first
    | with_reducible assumption | with_reducible apply kept_bump | dsimp only | with_reducible exact Kept.refl _

theorem kept_noteSess {x0 : Nat} {x1 : Nat} {x2 : Session} {x3 : List Nat} {x4 : State} (h4 : Kept s0 x4) : Kept s0 (noteSess x0 x1 x2 x3 x4) := by
  unfold noteSess
  repeat' first
    | with_reducible assumption | with_reducible apply kept_note | dsimp only | with_reducible exact Kept.refl _

end Sys2Proof.Machine
end

