-- ==== Sys2Proof/Laws/KeptAlloc.lean ====
section
/-! SUPPORT. What the definitions of Sys2Proof/Machine/Alloc.lean keep. -/

set_option linter.unusedSimpArgs false

namespace Sys2Proof.Machine

variable {s0 : State}

theorem kept_tellPrimaries {x0 : State} (h0 : Kept s0 x0) : Kept s0 (tellPrimaries x0) := by
  unfold tellPrimaries
  repeat' first
    | with_reducible assumption | intro _ | (simp only [kept_mk]; with_reducible apply keptC_upd)
    | with_reducible apply kept_sendSwl | with_reducible apply kept_ite | with_reducible apply kept_foldl
    | with_reducible apply kept_foldl_snd | with_reducible apply kept_foldl_fst | with_reducible apply keptO_foldl
    | with_reducible apply keptP_foldl | with_reducible apply keptE_foldl | with_reducible apply keptEP_foldl | split
    | dsimp only | with_reducible exact Kept.refl _

theorem kept_freeze {x0 : Nat} {x1 : State} (h1 : Kept s0 x1) : Kept s0 (freeze x0 x1) := by
  unfold freeze
  repeat' first
    | with_reducible assumption | intro _ | (simp only [kept_mk]; with_reducible apply keptC_upd)
    | with_reducible apply kept_reply_ok | with_reducible apply kept_reply_err | with_reducible apply kept_reply_wait
    | with_reducible apply kept_ite_st | with_reducible apply kept_tellPrimaries | with_reducible apply kept_ite | split
    | dsimp only | with_reducible exact Kept.refl _

theorem kept_deviceFatal {x0 : Nat} {x1 : Nat} {x2 : State} (h2 : Kept s0 x2) : Kept s0 (deviceFatal x0 x1 x2) := by
  unfold deviceFatal
  repeat' first
    | with_reducible assumption | intro _ | with_reducible apply kept_freeze | with_reducible apply kept_note
    | with_reducible apply kept_ite | dsimp only | with_reducible exact Kept.refl _

theorem kept_modErr {x0 : Errors → Errors} {x1 : State} (h1 : Kept s0 x1) : Kept s0 (modErr x0 x1) := by
  unfold modErr
  repeat' first
    | with_reducible assumption | (simp only [kept_mk]; with_reducible apply keptC_upd) | dsimp only
    | with_reducible exact Kept.refl _

theorem kept_ueLog {x0 : Nat} {x1 : Nat} {x2 : Nat} {x3 : UeAt} {x4 : State} (h4 : Kept s0 x4) : Kept s0 (ueLog x0 x1 x2 x3 x4) := by
  unfold ueLog
  repeat' first
    | with_reducible assumption | intro _ | (simp only [kept_mk]; with_reducible apply keptC_upd)
    | with_reducible apply kept_logEvent | with_reducible apply kept_modErr | split | dsimp only
    | with_reducible exact Kept.refl _

theorem kept_addDesc {x0 : Desc} {x1 : State} (h1 : Kept s0 x1) : Kept s0 (addDesc x0 x1) := by
  unfold addDesc
  repeat' first
    | with_reducible assumption | (simp only [kept_mk]; with_reducible apply keptC_upd) | with_reducible apply kept_move
    | dsimp only | with_reducible exact Kept.refl _

theorem kept_dropDesc {x0 : Nat} {x1 : State} (h1 : Kept s0 x1) : Kept s0 (dropDesc x0 x1) := by
  unfold dropDesc
  repeat' first
    | with_reducible assumption | (simp only [kept_mk]; with_reducible apply keptC_upd) | with_reducible apply kept_move
    | with_reducible apply kept_post | split | dsimp only | with_reducible exact Kept.refl _

theorem kept_dropDescs {x0 : Nat} {x1 : State} (h1 : Kept s0 x1) : Kept s0 (dropDescs x0 x1) := by
  unfold dropDescs
  repeat' first
    | with_reducible assumption | intro _ | with_reducible apply kept_dropDesc | with_reducible apply kept_foldl
    | with_reducible apply kept_foldl_snd | dsimp only | with_reducible exact Kept.refl _

theorem kept_setFop {x0 : Nat} {x1 : Fop} {x2 : State} (h2 : Kept s0 x2) : Kept s0 (setFop x0 x1 x2) := by
  unfold setFop
  repeat' first
    | with_reducible assumption | (simp only [kept_mk]; with_reducible apply keptC_upd) | dsimp only
    | with_reducible exact Kept.refl _

theorem kept_delFop {x0 : Nat} {x1 : State} (h1 : Kept s0 x1) : Kept s0 (delFop x0 x1) := by
  unfold delFop
  repeat' first
    | with_reducible assumption | (simp only [kept_mk]; with_reducible apply keptC_upd) | dsimp only
    | with_reducible exact Kept.refl _

theorem kept_newFop {x0 : Fop} {x1 : State} (h1 : Kept s0 x1) : Kept s0 (newFop x0 x1).2 := by
  unfold newFop
  repeat' first
    | with_reducible assumption | (simp only [kept_mk]; with_reducible apply keptC_upd) | dsimp only
    | with_reducible exact Kept.refl _

theorem kept_giveBack {x0 : Nat} {x1 : State} (h1 : Kept s0 x1) : Kept s0 (giveBack x0 x1) := by
  unfold giveBack
  repeat' first
    | with_reducible assumption | intro _ | (simp only [kept_mk]; with_reducible apply keptC_upd)
    | with_reducible apply kept_setDir | with_reducible apply kept_sendSwl | with_reducible apply kept_ite | split | dsimp only
    | with_reducible exact Kept.refl _

theorem kept_makeActive {x0 : Nat} {x1 : Nat} {x2 : State} (h2 : Kept s0 x2) : Kept s0 (makeActive x0 x1 x2) := by
  unfold makeActive
  repeat' first
    | with_reducible assumption | (simp only [kept_mk]; with_reducible apply keptC_upd) | with_reducible apply kept_setDir
    | with_reducible apply kept_getD | dsimp only | with_reducible exact Kept.refl _

theorem kept_dropFresh {x0 : Fop} {x1 : Nat} {x2 : State} (h2 : Kept s0 x2) : Kept s0 (dropFresh x0 x1 x2) := by
  unfold dropFresh
  repeat' first
    | with_reducible assumption | intro _ | with_reducible apply kept_dropHolder | with_reducible apply kept_unreserveFrame
    | with_reducible apply kept_ite | with_reducible apply kept_foldl | with_reducible apply kept_foldl_snd
    | with_reducible apply kept_foldl_fst | dsimp only | with_reducible exact Kept.refl _

theorem kept_dropOld {x0 : Fop} {x1 : State} (h1 : Kept s0 x1) : Kept s0 (dropOld x0 x1) := by
  unfold dropOld
  repeat' first
    | with_reducible assumption | intro _ | with_reducible apply kept_dropPte | with_reducible apply kept_foldl
    | with_reducible apply kept_foldl_snd | dsimp only | with_reducible exact Kept.refl _

theorem kept_dropBrought {x0 : Nat} {x1 : State} (h1 : Kept s0 x1) : Kept s0 (dropBrought x0 x1) := by
  unfold dropBrought
  repeat' first
    | with_reducible assumption | intro _ | (simp only [kept_mk]; with_reducible apply keptC_upd)
    | with_reducible apply kept_setStore | with_reducible apply kept_ite | split | dsimp only
    | with_reducible exact Kept.refl _

theorem kept_dropJournal {x0 : Nat} {x1 : State} (h1 : Kept s0 x1) : Kept s0 (dropJournal x0 x1) := by
  unfold dropJournal
  repeat' first
    | with_reducible assumption | intro _ | (simp only [kept_mk]; with_reducible apply keptC_upd)
    | with_reducible apply kept_dropHolder | with_reducible apply kept_ite | with_reducible apply kept_foldl
    | with_reducible apply kept_foldl_snd | with_reducible apply kept_foldl_fst | with_reducible apply keptO_foldl
    | with_reducible apply keptP_foldl | with_reducible apply keptE_foldl | with_reducible apply keptEP_foldl | split
    | dsimp only | with_reducible exact Kept.refl _

theorem kept_cancelRunAhead {x0 : Nat} {x1 : Nat} {x2 : State} (h2 : Kept s0 x2) : Kept s0 (cancelRunAhead x0 x1 x2) := by
  unfold cancelRunAhead
  repeat' first
    | with_reducible assumption | intro _ | (simp only [kept_mk]; with_reducible apply keptC_upd)
    | with_reducible apply kept_bump | with_reducible apply kept_note | with_reducible apply kept_endOp
    | with_reducible apply kept_dropDescs | with_reducible apply kept_delFop | with_reducible apply kept_giveBack
    | with_reducible apply kept_dropFresh | with_reducible apply kept_dropBrought | split | dsimp only
    | with_reducible exact Kept.refl _

theorem kept_cancelWhile {x0 : State → Bool} {x1 : List Nat} {x2 : State} (h2 : Kept s0 x2) : Kept s0 (cancelWhile x0 x1 x2) := by
  induction x1 generalizing x0 x2 with
  | nil =>
    unfold cancelWhile
    repeat' first
      | with_reducible assumption | intro _ | with_reducible apply kept_cancelRunAhead | with_reducible apply kept_ite | split
      | dsimp only | with_reducible exact Kept.refl _
  | cons a t ih =>
    unfold cancelWhile
    repeat' first
      | with_reducible apply ih
      | with_reducible assumption | intro _ | with_reducible apply kept_cancelRunAhead | with_reducible apply kept_ite | split
      | dsimp only | with_reducible exact Kept.refl _

theorem kept_makeRoom {x0 : PoolId} {x1 : State} (h1 : Kept s0 x1) : Kept s0 (makeRoom x0 x1) := by
  unfold makeRoom
  repeat' first
    | with_reducible assumption | intro _ | with_reducible apply kept_evict | with_reducible apply kept_cancelWhile
    | with_reducible apply kept_ite | dsimp only | with_reducible exact Kept.refl _

theorem kept_starve {x0 : Lack} {x1 : State} (h1 : Kept s0 x1) : Kept s0 (starve x0 x1) := by
  unfold starve
  repeat' first
    | with_reducible assumption | intro _ | (simp only [kept_mk]; with_reducible apply keptC_upd)
    | with_reducible apply kept_evict | with_reducible apply kept_cancelWhile | with_reducible apply kept_ite | split
    | dsimp only | with_reducible exact Kept.refl _

theorem kept_allocFrame {x0 : Moment} {x1 : Nat} {x2 : PoolId} {x3 : Nat} {x4 : Nat} {x5 : State} (h5 : Kept s0 x5) : KeptEP s0 (allocFrame x0 x1 x2 x3 x4 x5) := by
  unfold allocFrame
  repeat' first
    | with_reducible assumption | intro _ | (simp only [kept_mk]; with_reducible apply keptC_upd)
    | with_reducible apply kept_reply_ok | with_reducible apply kept_reply_err | with_reducible apply kept_reply_wait
    | with_reducible apply kept_ite_st | with_reducible apply kept_makeRoom | with_reducible apply kept_reserveFrame
    | with_reducible apply keptEP_ok | with_reducible apply keptEP_pure | with_reducible apply keptEP_error
    | with_reducible apply keptEP_ite | with_reducible apply keptEP_foldlM | with_reducible apply keptEP_ebind
    | with_reducible apply keptEP_ebindP | with_reducible apply keptEP_bind
    | with_reducible refine kept_of_someP (by assumption) ?_ | with_reducible refine keptP_of_snd (by assumption) ?_ | split
    | dsimp only | with_reducible exact Kept.refl _

theorem kept_grabFrame {x0 : Moment} {x1 : Nat} {x2 : PoolId} {x3 : Nat} {x4 : Nat} {x5 : State} (h5 : Kept s0 x5) : KeptEP s0 (grabFrame x0 x1 x2 x3 x4 x5) := by
  unfold grabFrame
  repeat' first
    | with_reducible assumption | intro _ | (simp only [kept_mk]; with_reducible apply keptC_upd)
    | with_reducible apply kept_reply_ok | with_reducible apply kept_reply_err | with_reducible apply kept_reply_wait
    | with_reducible apply kept_ite_st | with_reducible apply kept_makeRoom | with_reducible apply kept_takeFrame
    | with_reducible apply keptEP_ok | with_reducible apply keptEP_pure | with_reducible apply keptEP_error
    | with_reducible apply keptEP_ite | with_reducible apply keptEP_foldlM | with_reducible apply keptEP_ebind
    | with_reducible apply keptEP_ebindP | with_reducible apply keptEP_bind
    | with_reducible refine kept_of_someP (by assumption) ?_ | with_reducible refine keptP_of_snd (by assumption) ?_ | split
    | dsimp only | with_reducible exact Kept.refl _

theorem kept_shareFrame {x0 : Moment} {x1 : Nat} {x2 : Nat} {x3 : Nat} {x4 : Nat} {x5 : Nat} {x6 : State} (h6 : Kept s0 x6) : KeptEP s0 (shareFrame x0 x1 x2 x3 x4 x5 x6) := by
  unfold shareFrame
  repeat' first
    | with_reducible assumption | intro _ | (simp only [kept_mk]; with_reducible apply keptC_upd)
    | with_reducible apply kept_reply_ok | with_reducible apply kept_reply_err | with_reducible apply kept_reply_wait
    | with_reducible apply kept_ite_st | with_reducible apply kept_bump | with_reducible apply kept_note
    | with_reducible apply kept_grabFrame | with_reducible apply kept_addHolder | with_reducible apply kept_copyFrame
    | with_reducible apply keptEP_ok | with_reducible apply keptEP_pure | with_reducible apply keptEP_error
    | with_reducible apply keptEP_ite | with_reducible apply keptEP_foldlM | with_reducible apply keptEP_ebind
    | with_reducible apply keptEP_ebindP | with_reducible apply keptEP_bind | with_reducible apply kept_ite
    | with_reducible apply kept_ite_snd | with_reducible refine kept_of_okP (by assumption) ?_ | split | dsimp only
    | with_reducible exact Kept.refl _

theorem kept_takeRun {x0 : Nat} {x1 : Nat} {x2 : Nat} {x3 : State} (h3 : Kept s0 x3) : KeptEP s0 (takeRun x0 x1 x2 x3) := by
  unfold takeRun
  repeat' first
    | with_reducible assumption | intro _ | (simp only [kept_mk]; with_reducible apply keptC_upd)
    | with_reducible apply kept_reply_ok | with_reducible apply kept_reply_err | with_reducible apply kept_reply_wait
    | with_reducible apply kept_ite_st | with_reducible apply kept_evict | with_reducible apply kept_post
    | with_reducible apply keptEP_ok | with_reducible apply keptEP_pure | with_reducible apply keptEP_error
    | with_reducible apply keptEP_ite | with_reducible apply keptEP_foldlM | with_reducible apply keptEP_ebind
    | with_reducible apply keptEP_ebindP | with_reducible apply keptEP_bind | with_reducible apply kept_ite
    | with_reducible apply kept_ite_snd | with_reducible apply kept_foldl | with_reducible apply kept_foldl_snd
    | with_reducible apply kept_foldl_fst | with_reducible apply keptO_foldl | with_reducible apply keptP_foldl
    | with_reducible apply keptE_foldl | with_reducible apply keptEP_foldl | split | dsimp only
    | with_reducible exact Kept.refl _

theorem kept_resolvePrefix {x0 : Moment} {x1 : Nat} {x2 : Nat} {x3 : Nat} {x4 : State} (h4 : Kept s0 x4) : KeptE s0 (resolvePrefix x0 x1 x2 x3 x4) := by
  unfold resolvePrefix
  repeat' first
    | with_reducible assumption | intro _
    | (simp only [kept_mk]; first | with_reducible apply keptC_upd | with_reducible apply keptC_clear | refine keptC_updHmk ?_ (by first | exact Nat.le_refl _ | exact Nat.le_add_right _ _ | omega) (by exact Nat.le_refl _) (by rfl))
    | with_reducible apply kept_reply_ok | with_reducible apply kept_reply_err | with_reducible apply kept_reply_wait
    | with_reducible apply kept_ite_st | with_reducible apply kept_bump | with_reducible apply kept_modStore
    | with_reducible apply kept_shareFrame | with_reducible apply kept_touchNodes | with_reducible apply kept_setPte
    | with_reducible apply keptO_some | with_reducible apply keptO_none | with_reducible apply keptO_ite
    | with_reducible apply keptO_obindS | with_reducible apply keptO_obind | with_reducible apply keptO_map
    | with_reducible apply keptO_bind | with_reducible apply keptE_ok | with_reducible apply keptE_pure
    | with_reducible apply keptE_error | with_reducible apply keptE_ite | with_reducible apply keptE_map
    | with_reducible apply keptE_foldlM | with_reducible apply keptE_ebind | with_reducible apply keptE_ebindP
    | with_reducible apply keptE_bind | with_reducible apply kept_ite | with_reducible apply kept_ite_snd
    | with_reducible apply kept_foldl | with_reducible apply kept_foldl_snd | with_reducible apply kept_foldl_fst
    | with_reducible apply keptO_foldl | with_reducible apply keptP_foldl | with_reducible apply keptE_foldl
    | with_reducible apply keptEP_foldl | with_reducible apply kept_getD | with_reducible exact kept_of_hypO ‹_›
    | with_reducible exact kept_of_hypP ‹_› | with_reducible exact kept_of_hypE ‹_› | with_reducible exact kept_of_hypEP ‹_›
    | with_reducible refine kept_of_some (by assumption) ?_ | with_reducible refine kept_of_someP (by assumption) ?_
    | with_reducible refine kept_of_ok (by assumption) ?_ | with_reducible refine kept_of_okP (by assumption) ?_
    | with_reducible refine kept_of_error (by assumption) ?_ | with_reducible refine kept_of_snd (by assumption) ?_
    | with_reducible refine kept_of_fst (by assumption) ?_ | with_reducible refine kept_of_snd2 (by assumption) ?_
    | with_reducible refine kept_of_snd3 (by assumption) ?_ | split | dsimp only | with_reducible exact Kept.refl _

theorem kept_grabJournal {x0 : Moment} {x1 : Nat} {x2 : Nat} {x3 : Nat} {x4 : State} (h4 : Kept s0 x4) : KeptEP s0 (grabJournal x0 x1 x2 x3 x4) := by
  unfold grabJournal
  repeat' first
    | with_reducible assumption | intro _ | (simp only [kept_mk]; with_reducible apply keptC_upd)
    | with_reducible apply kept_grabFrame | with_reducible apply keptEP_ok | with_reducible apply keptEP_pure
    | with_reducible apply keptEP_error | with_reducible apply keptEP_ite | with_reducible apply keptEP_foldlM
    | with_reducible apply keptEP_ebind | with_reducible apply keptEP_ebindP | with_reducible apply keptEP_bind | split
    | dsimp only | with_reducible exact Kept.refl _

theorem kept_grabTable {x0 : Moment} {x1 : Nat} {x2 : Nat} {x3 : Nat} {x4 : State} (h4 : Kept s0 x4) : KeptEP s0 (grabTable x0 x1 x2 x3 x4) := by
  unfold grabTable
  repeat' first
    | with_reducible assumption | intro _ | (simp only [kept_mk]; with_reducible apply keptC_upd)
    | with_reducible apply kept_grabFrame | with_reducible apply keptEP_ok | with_reducible apply keptEP_pure
    | with_reducible apply keptEP_error | with_reducible apply keptEP_ite | with_reducible apply keptEP_foldlM
    | with_reducible apply keptEP_ebind | with_reducible apply keptEP_ebindP | with_reducible apply keptEP_bind | split
    | dsimp only | with_reducible exact Kept.refl _

theorem kept_takeTables {x0 : Moment} {x1 : Nat} {x2 : Nat} {x3 : List Nat} {x4 : State} (h4 : Kept s0 x4) : KeptE s0 (takeTables x0 x1 x2 x3 x4) := by
  unfold takeTables
  repeat' first
    | with_reducible assumption | intro _
    | (simp only [kept_mk]; first | with_reducible apply keptC_upd | with_reducible apply keptC_clear | refine keptC_updHmk ?_ (by first | exact Nat.le_refl _ | exact Nat.le_add_right _ _ | omega) (by exact Nat.le_refl _) (by rfl))
    | with_reducible apply kept_reply_ok | with_reducible apply kept_reply_err | with_reducible apply kept_reply_wait
    | with_reducible apply kept_ite_st | with_reducible apply kept_grabTable | with_reducible apply kept_modStore
    | with_reducible apply keptO_some | with_reducible apply keptO_none | with_reducible apply keptO_ite
    | with_reducible apply keptO_obindS | with_reducible apply keptO_obind | with_reducible apply keptO_map
    | with_reducible apply keptO_bind | with_reducible apply keptE_ok | with_reducible apply keptE_pure
    | with_reducible apply keptE_error | with_reducible apply keptE_ite | with_reducible apply keptE_map
    | with_reducible apply keptE_foldlM | with_reducible apply keptE_ebind | with_reducible apply keptE_ebindP
    | with_reducible apply keptE_bind | with_reducible apply kept_foldl | with_reducible apply kept_foldl_snd
    | with_reducible apply kept_foldl_fst | with_reducible apply keptO_foldl | with_reducible apply keptP_foldl
    | with_reducible apply keptE_foldl | with_reducible apply keptEP_foldl | with_reducible apply kept_getD
    | with_reducible exact kept_of_hypO ‹_› | with_reducible exact kept_of_hypP ‹_› | with_reducible exact kept_of_hypE ‹_›
    | with_reducible exact kept_of_hypEP ‹_› | with_reducible refine kept_of_some (by assumption) ?_
    | with_reducible refine kept_of_someP (by assumption) ?_ | with_reducible refine kept_of_ok (by assumption) ?_
    | with_reducible refine kept_of_okP (by assumption) ?_ | with_reducible refine kept_of_error (by assumption) ?_
    | with_reducible refine kept_of_snd (by assumption) ?_ | with_reducible refine kept_of_fst (by assumption) ?_
    | with_reducible refine kept_of_snd2 (by assumption) ?_ | with_reducible refine kept_of_snd3 (by assumption) ?_ | split
    | dsimp only | with_reducible exact Kept.refl _

theorem kept_takeSegs {x0 : Moment} {x1 : Nat} {x2 : Nat} {x3 : Nat} {x4 : State} (h4 : Kept s0 x4) : KeptE s0 (takeSegs x0 x1 x2 x3 x4) := by
  unfold takeSegs
  repeat' first
    | with_reducible assumption | intro _ | (simp only [kept_mk]; with_reducible apply keptC_upd)
    | with_reducible apply kept_takeTables | with_reducible apply keptE_ok | with_reducible apply keptE_pure
    | with_reducible apply keptE_error | with_reducible apply keptE_ite | with_reducible apply keptE_map
    | with_reducible apply keptE_foldlM | with_reducible apply keptE_ebind | with_reducible apply keptE_ebindP
    | with_reducible apply keptE_bind | split | dsimp only | with_reducible exact Kept.refl _

theorem kept_pageWait {x0 : Nat} {x1 : Nat} {x2 : Nat} {x3 : State} (h3 : Kept s0 x3) : Kept s0 (pageWait x0 x1 x2 x3) := by
  unfold pageWait
  repeat' first
    | with_reducible assumption | intro _ | (simp only [kept_mk]; with_reducible apply keptC_upd)
    | with_reducible apply kept_noteSess | with_reducible apply kept_modSess | with_reducible apply kept_ite | split
    | dsimp only | with_reducible exact Kept.refl _

theorem kept_cowCopy {x0 : Moment} {x1 : Nat} {x2 : Nat} {x3 : Nat} {x4 : State} (h4 : Kept s0 x4) : KeptE s0 (cowCopy x0 x1 x2 x3 x4) := by
  unfold cowCopy
  repeat' first
    | with_reducible assumption | intro _ | (simp only [kept_mk]; with_reducible apply keptC_upd)
    | with_reducible apply kept_reply_ok | with_reducible apply kept_reply_err | with_reducible apply kept_reply_wait
    | with_reducible apply kept_ite_st | with_reducible apply kept_publishFrame | with_reducible apply kept_allocFrame
    | with_reducible apply kept_setPte | with_reducible apply kept_dropPte | with_reducible apply kept_copyFrame
    | with_reducible apply keptE_ok | with_reducible apply keptE_pure | with_reducible apply keptE_error
    | with_reducible apply keptE_ite | with_reducible apply keptE_map | with_reducible apply keptE_foldlM
    | with_reducible apply keptE_ebind | with_reducible apply keptE_ebindP | with_reducible apply keptE_bind
    | with_reducible refine kept_of_okP (by assumption) ?_ | split | dsimp only | with_reducible exact Kept.refl _

end Sys2Proof.Machine
end

