-- ==== Sys2Proof/Laws/KeptIdentity.lean ====
section
/-! SUPPORT. What the definitions of Sys2Proof/Machine/Identity.lean keep. -/

set_option linter.unusedSimpArgs false

namespace Sys2Proof.Machine

variable {s0 : State}

theorem kept_sigRejected {x0 : Nat} {x1 : Nat} {x2 : Nat} {x3 : State} (h3 : Kept s0 x3) : Kept s0 (sigRejected x0 x1 x2 x3) := by
  unfold sigRejected
  repeat' first
    | with_reducible assumption | intro _ | with_reducible apply kept_note | with_reducible apply kept_bump
    | with_reducible apply kept_ite | dsimp only | with_reducible exact Kept.refl _

end Sys2Proof.Machine
end

