-- ==== Sys2Proof/Laws/KeptPages.lean ====
section
/-! SUPPORT. What the definitions of Sys2Proof/Machine/Pages.lean keep. -/

set_option linter.unusedSimpArgs false

namespace Sys2Proof.Machine

variable {s0 : State}

theorem kept_publishPage {x0 : Moment} {x1 : Nat} {x2 : Nat} {x3 : Nat} {x4 : Session} {x5 : State} (h5 : Kept s0 x5) : KeptEP s0 (publishPage x0 x1 x2 x3 x4 x5) := by
  unfold publishPage
  repeat' first
    | with_reducible assumption | intro _
    | (simp only [kept_mk]; first | with_reducible apply keptC_upd | refine keptC_updHmk ?_ (by first | exact Nat.le_refl _ | exact Nat.le_add_right _ _ | omega) (by exact Nat.le_refl _) (by rfl))
    | with_reducible apply kept_allocFrame | with_reducible apply kept_devWrite | with_reducible apply kept_setPte
    | with_reducible apply kept_publishFrame | with_reducible apply kept_dropPte | with_reducible apply kept_shareFrame
    | with_reducible apply kept_ite | with_reducible apply keptO_ite | with_reducible exact kept_of_hypO ‹_›
    | with_reducible apply keptO_some | with_reducible apply keptO_none | with_reducible apply keptP_ite
    | with_reducible exact kept_of_hypP ‹_› | with_reducible apply keptP_some | with_reducible apply keptP_none
    | with_reducible apply keptE_ite | with_reducible exact kept_of_hypE ‹_› | with_reducible apply keptE_ok
    | with_reducible apply keptE_error | with_reducible apply keptEP_ite | with_reducible exact kept_of_hypEP ‹_›
    | with_reducible apply keptEP_ok | with_reducible apply keptEP_error | with_reducible apply keptEE_ite
    | with_reducible apply keptEE_ok | with_reducible apply keptEE_error | with_reducible refine kept_of_ok (by assumption) ?_
    | with_reducible refine kept_of_error (by assumption) ?_ | with_reducible refine kept_of_okP (by assumption) ?_
    | with_reducible refine kept_of_some (by assumption) ?_ | with_reducible refine kept_of_someP (by assumption) ?_
    | with_reducible refine kept_of_fst (by assumption) ?_ | with_reducible refine kept_of_snd (by assumption) ?_
    | with_reducible refine kept_of_snd2 (by assumption) ?_ | with_reducible refine kept_of_snd3 (by assumption) ?_
    | with_reducible refine keptP_of_snd (by assumption) ?_ | split | dsimp only | with_reducible exact Kept.refl _

theorem keptEE_publishPage {x0 : Moment} {x1 : Nat} {x2 : Nat} {x3 : Nat} {x4 : Session} {x5 : State} (h5 : Kept s0 x5) : KeptEE s0 (publishPage x0 x1 x2 x3 x4 x5) := by
  unfold publishPage
  dsimp only
  split
  next l e => exact keptEE_error h5
  next t e =>
    have h : Kept s0 t := by
      refine kept_of_ok e ?_
      repeat' first
        | with_reducible assumption | intro _
        | (simp only [kept_mk]; first | with_reducible apply keptC_upd | refine keptC_updHmk ?_ (by first | exact Nat.le_refl _ | exact Nat.le_add_right _ _ | omega) (by exact Nat.le_refl _) (by rfl))
        | with_reducible apply kept_allocFrame | with_reducible apply kept_devWrite | with_reducible apply kept_setPte
        | with_reducible apply kept_publishFrame | with_reducible apply kept_dropPte | with_reducible apply kept_shareFrame
        | with_reducible apply kept_ite | with_reducible apply keptO_ite | with_reducible exact kept_of_hypO ‹_›
        | with_reducible apply keptO_some | with_reducible apply keptO_none | with_reducible apply keptP_ite
        | with_reducible exact kept_of_hypP ‹_› | with_reducible apply keptP_some | with_reducible apply keptP_none
        | with_reducible apply keptE_ite | with_reducible exact kept_of_hypE ‹_› | with_reducible apply keptE_ok
        | with_reducible apply keptE_error | with_reducible apply keptEP_ite | with_reducible exact kept_of_hypEP ‹_›
        | with_reducible apply keptEP_ok | with_reducible apply keptEP_error | with_reducible apply keptEE_ite
        | with_reducible apply keptEE_ok | with_reducible apply keptEE_error | with_reducible refine kept_of_ok (by assumption) ?_
        | with_reducible refine kept_of_error (by assumption) ?_ | with_reducible refine kept_of_okP (by assumption) ?_
        | with_reducible refine kept_of_some (by assumption) ?_ | with_reducible refine kept_of_someP (by assumption) ?_
        | with_reducible refine kept_of_fst (by assumption) ?_ | with_reducible refine kept_of_snd (by assumption) ?_
        | with_reducible refine kept_of_snd2 (by assumption) ?_ | with_reducible refine kept_of_snd3 (by assumption) ?_
        | with_reducible refine keptP_of_snd (by assumption) ?_ | split | dsimp only | with_reducible exact Kept.refl _
    split
    next l e2 => exact keptEE_error h
    next a u e2 => exact keptEE_ok

theorem kept_dropNodeRefs {x0 : Nat} {x1 : List Pte} {x2 : State} (h2 : Kept s0 x2) : Kept s0 (dropNodeRefs x0 x1 x2) := by
  unfold dropNodeRefs
  repeat' first
    | with_reducible assumption | intro _ | (simp only [kept_mk]; with_reducible apply keptC_upd)
    | with_reducible apply kept_dropHolder | with_reducible apply kept_foldl | with_reducible apply kept_foldl_snd
    | with_reducible apply kept_foldl_fst | with_reducible apply keptO_foldl | with_reducible apply keptP_foldl
    | with_reducible apply keptE_foldl | with_reducible apply keptEP_foldl | split | dsimp only
    | with_reducible exact Kept.refl _

theorem kept_publishPages {x0 : Moment} {x1 : Nat} {x2 : Nat} {x3 : Session} {x4 : List Nat} {x5 : List Pte} {x6 : State} (h6 : Kept s0 x6) : KeptEP s0 (publishPages x0 x1 x2 x3 x4 x5 x6) := by
  induction x4 generalizing x0 x1 x2 x3 x5 x6 with
  | nil =>
    unfold publishPages
    repeat' first
      | with_reducible assumption | intro _ | (simp only [kept_mk]; with_reducible apply keptC_upd)
      | with_reducible apply kept_reply_ok | with_reducible apply kept_reply_err | with_reducible apply kept_reply_wait
      | with_reducible apply kept_ite_st | with_reducible apply kept_dropNodeRefs | with_reducible apply kept_starve
      | with_reducible apply kept_publishPage | with_reducible apply keptEE_publishPage | with_reducible apply keptEP_ok
      | with_reducible apply keptEP_pure | with_reducible apply keptEP_error | with_reducible apply keptEP_ite
      | with_reducible apply keptEP_foldlM | with_reducible apply keptEP_ebind | with_reducible apply keptEP_ebindP
      | with_reducible apply keptEP_bind | with_reducible refine kept_of_okP (by assumption) ?_
      | with_reducible refine kept_of_error (by assumption) ?_ | split | dsimp only | with_reducible exact Kept.refl _
  | cons a t ih =>
    unfold publishPages
    repeat' first
      | with_reducible apply ih
      | with_reducible assumption | intro _ | (simp only [kept_mk]; with_reducible apply keptC_upd)
      | with_reducible apply kept_reply_ok | with_reducible apply kept_reply_err | with_reducible apply kept_reply_wait
      | with_reducible apply kept_ite_st | with_reducible apply kept_dropNodeRefs | with_reducible apply kept_starve
      | with_reducible apply kept_publishPage | with_reducible apply keptEE_publishPage | with_reducible apply keptEP_ok
      | with_reducible apply keptEP_pure | with_reducible apply keptEP_error | with_reducible apply keptEP_ite
      | with_reducible apply keptEP_foldlM | with_reducible apply keptEP_ebind | with_reducible apply keptEP_ebindP
      | with_reducible apply keptEP_bind | with_reducible refine kept_of_okP (by assumption) ?_
      | with_reducible refine kept_of_error (by assumption) ?_ | split | dsimp only | with_reducible exact Kept.refl _

theorem keptEE_publishPages {x0 : Moment} {x1 : Nat} {x2 : Nat} {x3 : Session} {x4 : List Nat} {x5 : List Pte} {x6 : State} (h6 : Kept s0 x6) : KeptEE s0 (publishPages x0 x1 x2 x3 x4 x5 x6) := by
  induction x4 generalizing x0 x1 x2 x3 x5 x6 with
  | nil =>
    unfold publishPages
    repeat' first
      | with_reducible assumption | intro _ | (simp only [kept_mk]; with_reducible apply keptC_upd)
      | with_reducible apply kept_reply_ok | with_reducible apply kept_reply_err | with_reducible apply kept_reply_wait
      | with_reducible apply kept_ite_st | with_reducible apply kept_dropNodeRefs | with_reducible apply kept_starve
      | with_reducible apply kept_publishPage | with_reducible apply keptEE_publishPage | with_reducible apply keptEE_ok
      | with_reducible apply keptEE_pure | with_reducible apply keptEE_error | with_reducible apply keptEE_ite
      | with_reducible apply keptEE_bind | with_reducible refine keptEE_of_eq (by assumption) ?_
      | with_reducible refine kept_of_okP (by assumption) ?_ | with_reducible refine kept_of_error (by assumption) ?_
      | split | dsimp only | with_reducible exact Kept.refl _
  | cons a t ih =>
    unfold publishPages
    repeat' first
      | with_reducible apply ih
      | with_reducible assumption | intro _ | (simp only [kept_mk]; with_reducible apply keptC_upd)
      | with_reducible apply kept_reply_ok | with_reducible apply kept_reply_err | with_reducible apply kept_reply_wait
      | with_reducible apply kept_ite_st | with_reducible apply kept_dropNodeRefs | with_reducible apply kept_starve
      | with_reducible apply kept_publishPage | with_reducible apply keptEE_publishPage | with_reducible apply keptEE_ok
      | with_reducible apply keptEE_pure | with_reducible apply keptEE_error | with_reducible apply keptEE_ite
      | with_reducible apply keptEE_bind | with_reducible refine keptEE_of_eq (by assumption) ?_
      | with_reducible refine kept_of_okP (by assumption) ?_ | with_reducible refine kept_of_error (by assumption) ?_
      | split | dsimp only | with_reducible exact Kept.refl _

theorem kept_nodeRoom {x0 : Nat} {x1 : State} (h1 : Kept s0 x1) : Kept s0 (nodeRoom x0 x1) := by
  unfold nodeRoom
  repeat' first
    | with_reducible assumption | intro _ | with_reducible apply kept_evict | dsimp only | with_reducible exact Kept.refl _

theorem kept_publishBlock {x0 : Moment} {x1 : Nat} {x2 : Nat} {x3 : Session} {x4 : Bool} {x5 : PubAcc} {x6 : State} (h6 : Kept s0 x6) : KeptEP s0 (publishBlock x0 x1 x2 x3 x4 x5 x6) := by
  unfold publishBlock
  repeat' first
    | with_reducible assumption | intro _ | (simp only [kept_mk]; with_reducible apply keptC_upd)
    | with_reducible apply kept_reply_ok | with_reducible apply kept_reply_err | with_reducible apply kept_reply_wait
    | with_reducible apply kept_ite_st | with_reducible apply kept_nodeRoom | with_reducible apply kept_bump
    | with_reducible apply kept_grabTable | with_reducible apply kept_dropNodeRefs | with_reducible apply kept_dropHolder
    | with_reducible apply kept_starve | with_reducible apply kept_publishPages | with_reducible apply keptEE_publishPages
    | with_reducible apply kept_lookupKey | with_reducible apply kept_setPte | with_reducible apply kept_setNode
    | with_reducible apply keptEP_ok | with_reducible apply keptEP_pure | with_reducible apply keptEP_error
    | with_reducible apply keptEP_ite | with_reducible apply keptEP_foldlM | with_reducible apply keptEP_ebind
    | with_reducible apply keptEP_ebindP | with_reducible apply keptEP_bind | with_reducible apply kept_ite
    | with_reducible apply kept_ite_snd | with_reducible apply kept_foldl | with_reducible apply kept_foldl_snd
    | with_reducible apply kept_foldl_fst | with_reducible apply keptO_foldl | with_reducible apply keptP_foldl
    | with_reducible apply keptE_foldl | with_reducible apply keptEP_foldl
    | with_reducible refine kept_of_okP (by assumption) ?_ | with_reducible refine kept_of_error (by assumption) ?_
    | with_reducible refine kept_of_snd (by assumption) ?_ | split | dsimp only | with_reducible exact Kept.refl _

theorem keptEE_publishBlock {x0 : Moment} {x1 : Nat} {x2 : Nat} {x3 : Session} {x4 : Bool} {x5 : PubAcc} {x6 : State} (h6 : Kept s0 x6) : KeptEE s0 (publishBlock x0 x1 x2 x3 x4 x5 x6) := by
  unfold publishBlock
  repeat' first
    | with_reducible assumption | intro _ | (simp only [kept_mk]; with_reducible apply keptC_upd)
    | with_reducible apply kept_reply_ok | with_reducible apply kept_reply_err | with_reducible apply kept_reply_wait
    | with_reducible apply kept_ite_st | with_reducible apply kept_nodeRoom | with_reducible apply kept_bump
    | with_reducible apply kept_grabTable | with_reducible apply kept_dropNodeRefs | with_reducible apply kept_dropHolder
    | with_reducible apply kept_starve | with_reducible apply kept_publishPages | with_reducible apply keptEE_publishPages
    | with_reducible apply kept_lookupKey | with_reducible apply kept_setPte | with_reducible apply kept_setNode
    | with_reducible apply keptEE_ok | with_reducible apply keptEE_pure | with_reducible apply keptEE_error
    | with_reducible apply keptEE_ite | with_reducible apply keptEE_bind
    | with_reducible refine keptEE_of_eq (by assumption) ?_ | with_reducible apply kept_ite
    | with_reducible apply kept_ite_snd | with_reducible apply kept_foldl | with_reducible apply kept_foldl_snd
    | with_reducible apply kept_foldl_fst | with_reducible apply keptO_foldl | with_reducible apply keptP_foldl
    | with_reducible apply keptE_foldl | with_reducible apply keptEP_foldl
    | with_reducible refine kept_of_okP (by assumption) ?_ | with_reducible refine kept_of_error (by assumption) ?_
    | with_reducible refine kept_of_snd (by assumption) ?_ | split | dsimp only | with_reducible exact Kept.refl _

theorem kept_publishBlocks {x0 : Moment} {x1 : Nat} {x2 : Session} {x3 : Bool} {x4 : List Nat} {x5 : PubAcc} {x6 : State} (h6 : Kept s0 x6) : Kept s0 (publishBlocks x0 x1 x2 x3 x4 x5 x6).2.2 := by
  induction x4 generalizing x0 x1 x2 x3 x5 x6 with
  | nil =>
    unfold publishBlocks
    repeat' first
      | with_reducible assumption | intro _ | (simp only [kept_mk]; with_reducible apply keptC_upd)
      | with_reducible apply kept_reply_ok | with_reducible apply kept_reply_err | with_reducible apply kept_reply_wait
      | with_reducible apply kept_ite_st | with_reducible apply kept_publishBlock | with_reducible apply keptEE_publishBlock
      | with_reducible refine kept_of_okP (by assumption) ?_ | with_reducible refine kept_of_error (by assumption) ?_
      | split | dsimp only | with_reducible exact Kept.refl _
  | cons a t ih =>
    unfold publishBlocks
    repeat' first
      | with_reducible apply ih
      | with_reducible assumption | intro _ | (simp only [kept_mk]; with_reducible apply keptC_upd)
      | with_reducible apply kept_reply_ok | with_reducible apply kept_reply_err | with_reducible apply kept_reply_wait
      | with_reducible apply kept_ite_st | with_reducible apply kept_publishBlock | with_reducible apply keptEE_publishBlock
      | with_reducible refine kept_of_okP (by assumption) ?_ | with_reducible refine kept_of_error (by assumption) ?_
      | split | dsimp only | with_reducible exact Kept.refl _

theorem kept_bodyPtnPublish {x0 : Moment} {x1 : Req} {x2 : State} (h2 : Kept s0 x2) : Kept s0 (bodyPtnPublish x0 x1 x2).st := by
  unfold bodyPtnPublish
  repeat' first
    | with_reducible assumption | intro _ | (simp only [kept_mk]; with_reducible apply keptC_upd)
    | with_reducible apply kept_reply_err | with_reducible apply kept_ite_st | with_reducible apply kept_onSession
    | with_reducible apply kept_publishBlocks | with_reducible apply kept_ite
    | with_reducible refine kept_of_snd2 (by assumption) ?_ | split | dsimp only | with_reducible exact Kept.refl _

theorem kept_execPtnPublish {x0 : Moment} {x1 : Req} {x2 : State} (h2 : Kept s0 x2) : KeptOut s0 (execPtnPublish x0 x1 x2) := by
  unfold execPtnPublish
  repeat' first
    | with_reducible assumption | with_reducible apply keptOut_next | with_reducible apply kept_runCommand
    | with_reducible apply kept_bodyPtnPublish | dsimp only | with_reducible exact Kept.refl _

theorem kept_matchPath {x0 : Nat} {x1 : Nat} {x2 : Bytes} {x3 : List Nat} {x4 : List Nat} {x5 : State} (h5 : Kept s0 x5) : Kept s0 (matchPath x0 x1 x2 x3 x4 x5).2 := by
  induction x1 generalizing x0 x2 x3 x4 x5 with
  | zero =>
    unfold matchPath
    repeat' first
      | with_reducible assumption | (simp only [kept_mk]; with_reducible apply keptC_upd) | with_reducible apply kept_lookupKey
      | with_reducible refine kept_of_snd (by assumption) ?_ | split | dsimp only | with_reducible exact Kept.refl _
  | succ n ih =>
    unfold matchPath
    repeat' first
      | with_reducible apply ih
      | with_reducible assumption | (simp only [kept_mk]; with_reducible apply keptC_upd) | with_reducible apply kept_lookupKey
      | with_reducible refine kept_of_snd (by assumption) ?_ | split | dsimp only | with_reducible exact Kept.refl _

theorem kept_bodyPtnMatch {x0 : Moment} {x1 : Req} {x2 : State} (h2 : Kept s0 x2) : Kept s0 (bodyPtnMatch x0 x1 x2).st := by
  unfold bodyPtnMatch
  repeat' first
    | with_reducible assumption | intro _ | (simp only [kept_mk]; with_reducible apply keptC_upd)
    | with_reducible apply kept_reply_ok | with_reducible apply kept_reply_err | with_reducible apply kept_ite_st
    | with_reducible apply kept_matchPath | with_reducible apply kept_touchNodes | with_reducible apply kept_withData
    | with_reducible apply kept_ite | with_reducible refine kept_of_snd (by assumption) ?_ | split | dsimp only
    | with_reducible exact Kept.refl _

theorem kept_execPtnMatch {x0 : Moment} {x1 : Req} {x2 : State} (h2 : Kept s0 x2) : KeptOut s0 (execPtnMatch x0 x1 x2) := by
  unfold execPtnMatch
  repeat' first
    | with_reducible assumption | with_reducible apply keptOut_next | with_reducible apply kept_runCommand
    | with_reducible apply kept_bodyPtnMatch | dsimp only | with_reducible exact Kept.refl _

theorem kept_onNode {x0 : Req} {x1 : State} {x2 : Nat → Nat → Reply} (h1 : Kept s0 x1) (h2 : ∀ y0 y1, Kept s0 (x2 y0 y1).st) : Kept s0 (onNode x0 x1 x2).st := by
  unfold onNode
  repeat' first
    | with_reducible assumption | intro _ | with_reducible apply h2 | (simp only [kept_mk]; with_reducible apply keptC_upd)
    | with_reducible apply kept_reply_err | with_reducible apply kept_ite_st | with_reducible apply kept_ite | split
    | dsimp only | with_reducible exact Kept.refl _

theorem kept_bodyPtnDelete {x0 : Moment} {x1 : Req} {x2 : State} (h2 : Kept s0 x2) : Kept s0 (bodyPtnDelete x0 x1 x2).st := by
  unfold bodyPtnDelete
  repeat' first
    | with_reducible assumption | intro _ | with_reducible apply kept_reply_ok | with_reducible apply kept_onNode
    | with_reducible apply kept_deleteNode | with_reducible refine kept_of_snd (by assumption) ?_ | split | dsimp only
    | with_reducible exact Kept.refl _

theorem kept_execPtnDelete {x0 : Moment} {x1 : Req} {x2 : State} (h2 : Kept s0 x2) : KeptOut s0 (execPtnDelete x0 x1 x2) := by
  unfold execPtnDelete
  repeat' first
    | with_reducible assumption | with_reducible apply keptOut_next | with_reducible apply kept_runCommand
    | with_reducible apply kept_bodyPtnDelete | dsimp only | with_reducible exact Kept.refl _

theorem kept_bodyPtnPin {x0 : Moment} {x1 : Req} {x2 : State} (h2 : Kept s0 x2) : Kept s0 (bodyPtnPin x0 x1 x2).st := by
  unfold bodyPtnPin
  repeat' first
    | with_reducible assumption | intro _ | (simp only [kept_mk]; with_reducible apply keptC_upd)
    | with_reducible apply kept_reply_ok | with_reducible apply kept_reply_err | with_reducible apply kept_ite_st
    | with_reducible apply kept_onNode | with_reducible apply kept_setNode | with_reducible apply kept_ite | dsimp only
    | with_reducible exact Kept.refl _

theorem kept_execPtnPin {x0 : Moment} {x1 : Req} {x2 : State} (h2 : Kept s0 x2) : KeptOut s0 (execPtnPin x0 x1 x2) := by
  unfold execPtnPin
  repeat' first
    | with_reducible assumption | with_reducible apply keptOut_next | with_reducible apply kept_runCommand
    | with_reducible apply kept_bodyPtnPin | dsimp only | with_reducible exact Kept.refl _

theorem kept_bodyPtnRead {x0 : Moment} {x1 : Req} {x2 : State} (h2 : Kept s0 x2) : Kept s0 (bodyPtnRead x0 x1 x2).st := by
  unfold bodyPtnRead
  repeat' first
    | with_reducible assumption | intro _ | with_reducible apply kept_reply_ok | with_reducible apply kept_onNode | dsimp only
    | with_reducible exact Kept.refl _

theorem kept_execPtnRead {x0 : Moment} {x1 : Req} {x2 : State} (h2 : Kept s0 x2) : KeptOut s0 (execPtnRead x0 x1 x2) := by
  unfold execPtnRead
  repeat' first
    | with_reducible assumption | with_reducible apply keptOut_next | with_reducible apply kept_runCommand
    | with_reducible apply kept_bodyPtnRead | dsimp only | with_reducible exact Kept.refl _

theorem kept_bodyPtnPurge {x0 : Moment} {x1 : Req} {x2 : State} (h2 : Kept s0 x2) : Kept s0 (bodyPtnPurge x0 x1 x2).st := by
  unfold bodyPtnPurge
  repeat' first
    | with_reducible assumption | intro _ | with_reducible apply kept_reply_err | with_reducible apply kept_ite_st
    | with_reducible apply kept_asOp | with_reducible apply kept_purgeNodes | with_reducible apply kept_setArgs
    | with_reducible apply kept_ite | with_reducible refine kept_of_snd (by assumption) ?_ | split | dsimp only
    | with_reducible exact Kept.refl _

theorem kept_endPtnPurge {x0 : Nat} {x1 : LongOp} {x2 : State} (h2 : Kept s0 x2) : Kept s0 (endPtnPurge x0 x1 x2) := by
  unfold endPtnPurge
  repeat' first
    | with_reducible assumption | with_reducible apply kept_endOp | with_reducible apply kept_getD | dsimp only
    | with_reducible exact Kept.refl _

theorem kept_execPtnPurge {x0 : Moment} {x1 : Req} {x2 : State} (h2 : Kept s0 x2) : KeptOut s0 (execPtnPurge x0 x1 x2) := by
  unfold execPtnPurge
  repeat' first
    | with_reducible assumption | with_reducible apply keptOut_next | with_reducible apply kept_runCommand
    | with_reducible apply kept_bodyPtnPurge | dsimp only | with_reducible exact Kept.refl _

theorem kept_resizeTree {x0 : Nat} {x1 : Nat} {x2 : State} (h2 : Kept s0 x2) : KeptO s0 (resizeTree x0 x1 x2) := by
  unfold resizeTree
  repeat' first
    | with_reducible assumption | intro _ | (simp only [kept_mk]; with_reducible apply keptC_upd)
    | with_reducible apply kept_setTree | with_reducible apply keptO_some | with_reducible apply keptO_none
    | with_reducible apply keptO_ite | with_reducible apply keptO_obindS | with_reducible apply keptO_obind
    | with_reducible apply keptO_map | with_reducible apply keptO_bind | with_reducible apply kept_ite | split | dsimp only
    | with_reducible exact Kept.refl _

theorem kept_bodyPtnConfig {x0 : Moment} {x1 : Req} {x2 : State} (h2 : Kept s0 x2) : Kept s0 (bodyPtnConfig x0 x1 x2).st := by
  unfold bodyPtnConfig
  repeat' first
    | with_reducible assumption | intro _ | with_reducible apply kept_checked | with_reducible apply kept_asOp | dsimp only
    | with_reducible exact Kept.refl _

theorem kept_endPtnConfig {x0 : Nat} {x1 : LongOp} {x2 : State} (h2 : Kept s0 x2) : Kept s0 (endPtnConfig x0 x1 x2) := by
  unfold endPtnConfig
  repeat' first
    | with_reducible assumption | intro _ | (simp only [kept_mk]; with_reducible apply keptC_upd)
    | with_reducible apply kept_reply_ok | with_reducible apply kept_reply_err | with_reducible apply kept_reply_wait
    | with_reducible apply kept_ite_st | with_reducible apply kept_endOp | with_reducible apply kept_setTree
    | with_reducible apply kept_resizeTree | with_reducible refine kept_of_some (by assumption) ?_ | split | dsimp only
    | with_reducible exact Kept.refl _

theorem kept_execPtnConfig {x0 : Moment} {x1 : Req} {x2 : State} (h2 : Kept s0 x2) : KeptOut s0 (execPtnConfig x0 x1 x2) := by
  unfold execPtnConfig
  repeat' first
    | with_reducible assumption | with_reducible apply keptOut_next | with_reducible apply kept_runCommand
    | with_reducible apply kept_bodyPtnConfig | dsimp only | with_reducible exact Kept.refl _

theorem kept_putPool {x0 : Pool} {x1 : Nat} {x2 : State} (h2 : Kept s0 x2) : Kept s0 (putPool x0 x1 x2) := by
  unfold putPool
  repeat' first
    | with_reducible assumption | intro _ | (simp only [kept_mk]; with_reducible apply keptC_upd)
    | with_reducible apply kept_post | with_reducible apply kept_ite | dsimp only | with_reducible exact Kept.refl _

theorem kept_bodyPagePoolConfig {x0 : Moment} {x1 : Req} {x2 : State} (h2 : Kept s0 x2) : Kept s0 (bodyPagePoolConfig x0 x1 x2).st := by
  unfold bodyPagePoolConfig
  repeat' first
    | with_reducible assumption | intro _ | (simp only [kept_mk]; with_reducible apply keptC_upd)
    | with_reducible apply kept_reply_ok | with_reducible apply kept_reply_err | with_reducible apply kept_ite_st
    | with_reducible apply kept_putPool | with_reducible apply kept_ite | with_reducible apply kept_getD | split | dsimp only
    | with_reducible exact Kept.refl _

theorem kept_execPagePoolConfig {x0 : Moment} {x1 : Req} {x2 : State} (h2 : Kept s0 x2) : KeptOut s0 (execPagePoolConfig x0 x1 x2) := by
  unfold execPagePoolConfig
  repeat' first
    | with_reducible assumption | with_reducible apply keptOut_next | with_reducible apply kept_runCommand
    | with_reducible apply kept_bodyPagePoolConfig | dsimp only | with_reducible exact Kept.refl _

theorem kept_bodyPageTableRead {x0 : Moment} {x1 : Req} {x2 : State} (h2 : Kept s0 x2) : Kept s0 (bodyPageTableRead x0 x1 x2).st := by
  unfold bodyPageTableRead
  repeat' first
    | with_reducible assumption | intro _ | (simp only [kept_mk]; with_reducible apply keptC_upd)
    | with_reducible apply kept_reply_ok | with_reducible apply kept_reply_err | with_reducible apply kept_reply_wait
    | with_reducible apply kept_ite_st | with_reducible apply kept_onStore | with_reducible apply kept_Reply_err
    | with_reducible apply kept_ite | split | dsimp only | with_reducible exact Kept.refl _

theorem kept_execPageTableRead {x0 : Moment} {x1 : Req} {x2 : State} (h2 : Kept s0 x2) : KeptOut s0 (execPageTableRead x0 x1 x2) := by
  unfold execPageTableRead
  repeat' first
    | with_reducible assumption | with_reducible apply keptOut_next | with_reducible apply kept_runCommand
    | with_reducible apply kept_bodyPageTableRead | dsimp only | with_reducible exact Kept.refl _

theorem kept_execPtnEviction {x0 : Moment} {x1 : Nat} {x2 : State} (h2 : Kept s0 x2) : KeptOut s0 (execPtnEviction x0 x1 x2) := by
  unfold execPtnEviction
  repeat' first
    | with_reducible assumption | intro _ | with_reducible apply keptOut_next | with_reducible apply keptOut_ite
    | with_reducible apply kept_State_at | with_reducible apply kept_evict | with_reducible apply kept_ite | dsimp only
    | with_reducible exact Kept.refl _

end Sys2Proof.Machine
end

