-- ==== Sys2Proof/Laws/KeptContracts.lean ====
section
/-! SUPPORT. What the definitions of Sys2Proof/Machine/Contracts.lean keep. -/

set_option linter.unusedSimpArgs false

namespace Sys2Proof.Machine

variable {s0 : State}

theorem kept_setClass {x0 : Nat} {x1 : ContractClass} {x2 : State} (h2 : Kept s0 x2) : Kept s0 (setClass x0 x1 x2) := by
  unfold setClass
  repeat' first
    | with_reducible assumption | (simp only [kept_mk]; with_reducible apply keptC_upd) | dsimp only
    | with_reducible exact Kept.refl _

theorem kept_modClass {x0 : Nat} {x1 : ContractClass → ContractClass} {x2 : State} (h2 : Kept s0 x2) : Kept s0 (modClass x0 x1 x2) := by
  unfold modClass
  repeat' first
    | with_reducible assumption | (simp only [kept_mk]; with_reducible apply keptC_upd) | dsimp only
    | with_reducible exact Kept.refl _

theorem kept_setShare {x0 : Nat} {x1 : Share} {x2 : State} (h2 : Kept s0 x2) : Kept s0 (setShare x0 x1 x2) := by
  unfold setShare
  repeat' first
    | with_reducible assumption | (simp only [kept_mk]; with_reducible apply keptC_upd) | dsimp only
    | with_reducible exact Kept.refl _

theorem kept_modMeters {x0 : List Nat} {x1 : Meter → Meter} {x2 : State} (h2 : Kept s0 x2) : Kept s0 (modMeters x0 x1 x2) := by
  unfold modMeters
  repeat' first
    | with_reducible assumption | intro _ | (simp only [kept_mk]; with_reducible apply keptC_upd)
    | with_reducible apply kept_foldl | with_reducible apply kept_foldl_snd | dsimp only | with_reducible exact Kept.refl _

theorem kept_refillMeters {x0 : ContractClass} {x1 : State} (h1 : Kept s0 x1) : Kept s0 (refillMeters x0 x1) := by
  unfold refillMeters
  repeat' first
    | with_reducible assumption | with_reducible apply kept_modMeters | dsimp only | with_reducible exact Kept.refl _

theorem kept_countColour {x0 : ContractClass} {x1 : Colouring} {x2 : State} (h2 : Kept s0 x2) : Kept s0 (countColour x0 x1 x2) := by
  unfold countColour
  repeat' first
    | with_reducible assumption | intro _ | (simp only [kept_mk]; with_reducible apply keptC_upd)
    | with_reducible apply kept_modMeters | with_reducible apply kept_bump | with_reducible apply kept_ite | split | dsimp only
    | with_reducible exact Kept.refl _

theorem kept_postCredit {x0 : Nat} {x1 : Nat} {x2 : Nat} {x3 : Nat} {x4 : State} (h4 : Kept s0 x4) : Kept s0 (postCredit x0 x1 x2 x3 x4) := by
  unfold postCredit
  repeat' first
    | with_reducible assumption | intro _ | with_reducible apply kept_post | with_reducible apply kept_ite | dsimp only
    | with_reducible exact Kept.refl _

theorem kept_updateCredit {x0 : Nat} {x1 : State} (h1 : Kept s0 x1) : Kept s0 (updateCredit x0 x1) := by
  unfold updateCredit
  repeat' first
    | with_reducible assumption | intro _ | (simp only [kept_mk]; with_reducible apply keptC_upd)
    | with_reducible apply kept_postCredit | with_reducible apply kept_bump | with_reducible apply kept_modSess
    | with_reducible apply kept_ite | split | dsimp only | with_reducible exact Kept.refl _

theorem kept_liftV {x0 : Nat} {x1 : State} (h1 : Kept s0 x1) : Kept s0 (liftV x0 x1) := by
  unfold liftV
  repeat' first
    | with_reducible assumption | intro _ | (simp only [kept_mk]; with_reducible apply keptC_upd)
    | with_reducible apply kept_modClass | with_reducible apply kept_setShare | split | dsimp only
    | with_reducible exact Kept.refl _

theorem kept_wakeQueue {x0 : Nat} {x1 : Nat} {x2 : State} (h2 : Kept s0 x2) : Kept s0 (wakeQueue x0 x1 x2) := by
  unfold wakeQueue
  repeat' first
    | with_reducible assumption | intro _ | (simp only [kept_mk]; with_reducible apply keptC_upd)
    | with_reducible apply kept_modSess | with_reducible apply kept_modClass | with_reducible apply kept_liftV
    | with_reducible apply kept_ite | split | dsimp only | with_reducible exact Kept.refl _

theorem kept_restQueue {x0 : Nat} {x1 : State} (h1 : Kept s0 x1) : Kept s0 (restQueue x0 x1) := by
  unfold restQueue
  repeat' first
    | with_reducible assumption | intro _ | (simp only [kept_mk]; with_reducible apply keptC_upd)
    | with_reducible apply kept_modSess | with_reducible apply kept_modClass | with_reducible apply kept_ite | split
    | dsimp only | with_reducible exact Kept.refl _

theorem kept_noteEligible {x0 : Nat} {x1 : State} (h1 : Kept s0 x1) : Kept s0 (noteEligible x0 x1) := by
  unfold noteEligible
  repeat' first
    | with_reducible assumption | intro _ | (simp only [kept_mk]; with_reducible apply keptC_upd)
    | with_reducible apply kept_modSess | with_reducible apply kept_ite | split | dsimp only
    | with_reducible exact Kept.refl _

theorem kept_chargeGrant {x0 : Nat} {x1 : Nat} {x2 : State} (h2 : Kept s0 x2) : Kept s0 (chargeGrant x0 x1 x2) := by
  unfold chargeGrant
  repeat' first
    | with_reducible assumption | intro _ | (simp only [kept_mk]; with_reducible apply keptC_upd)
    | with_reducible apply kept_modSess | with_reducible apply kept_modClass | with_reducible apply kept_liftV
    | with_reducible apply kept_ite | split | dsimp only | with_reducible exact Kept.refl _

theorem kept_setPartQueue {x0 : Server} {x1 : Nat} {x2 : PartQueue} {x3 : State} (h3 : Kept s0 x3) : Kept s0 (setPartQueue x0 x1 x2 x3) := by
  unfold setPartQueue
  repeat' first
    | with_reducible assumption | intro _ | (simp only [kept_mk]; with_reducible apply keptC_upd)
    | with_reducible apply kept_setShare | split | dsimp only | with_reducible exact Kept.refl _

theorem kept_liftServer {x0 : Server} {x1 : State} (h1 : Kept s0 x1) : Kept s0 (liftServer x0 x1) := by
  unfold liftServer
  repeat' first
    | with_reducible assumption | intro _ | (simp only [kept_mk]; with_reducible apply keptC_upd) | split | dsimp only
    | with_reducible exact Kept.refl _

theorem kept_wakeParts {x0 : Server} {x1 : List Nat} {x2 : State} (h2 : Kept s0 x2) : Kept s0 (wakeParts x0 x1 x2) := by
  unfold wakeParts
  repeat' first
    | with_reducible assumption | intro _ | (simp only [kept_mk]; with_reducible apply keptC_upd)
    | with_reducible apply kept_liftServer | with_reducible apply kept_setPartQueue | with_reducible apply kept_ite
    | with_reducible apply kept_foldl | with_reducible apply kept_foldl_snd | with_reducible apply kept_foldl_fst
    | with_reducible apply keptO_foldl | with_reducible apply keptP_foldl | with_reducible apply keptE_foldl
    | with_reducible apply keptEP_foldl | split | dsimp only | with_reducible exact Kept.refl _

theorem kept_chargePart {x0 : Server} {x1 : Nat} {x2 : Nat} {x3 : List Nat} {x4 : State} (h4 : Kept s0 x4) : Kept s0 (chargePart x0 x1 x2 x3 x4) := by
  unfold chargePart
  repeat' first
    | with_reducible assumption | intro _ | (simp only [kept_mk]; with_reducible apply keptC_upd)
    | with_reducible apply kept_liftServer | with_reducible apply kept_setPartQueue | with_reducible apply kept_ite | split
    | dsimp only | with_reducible exact Kept.refl _

end Sys2Proof.Machine
end

