-- ==== Sys2Proof/Laws/KeptGauge.lean ====
section
/-! SUPPORT. What the definitions of Sys2Proof/Machine/Gauge.lean keep. -/

set_option linter.unusedSimpArgs false

namespace Sys2Proof.Machine

variable {s0 : State}

theorem kept_setGauge {x0 : Nat} {x1 : GaugeClass} {x2 : State} (h2 : Kept s0 x2) : Kept s0 (setGauge x0 x1 x2) := by
  unfold setGauge
  repeat' first
    | with_reducible assumption | (simp only [kept_mk]; with_reducible apply keptC_upd) | dsimp only
    | with_reducible exact Kept.refl _

theorem kept_closeReport {x0 : Nat} {x1 : Window} {x2 : Bool} {x3 : State} (h3 : Kept s0 x3) : Kept s0 (closeReport x0 x1 x2 x3) := by
  unfold closeReport
  repeat' first
    | with_reducible assumption | intro _ | (simp only [kept_mk]; with_reducible apply keptC_upd)
    | with_reducible apply kept_setGauge | split | dsimp only | with_reducible exact Kept.refl _

theorem kept_closeEnding {x0 : Nat} {x1 : State} (h1 : Kept s0 x1) : Kept s0 (closeEnding x0 x1) := by
  unfold closeEnding
  repeat' first
    | with_reducible assumption | (simp only [kept_mk]; with_reducible apply keptC_upd) | with_reducible apply kept_closeReport
    | with_reducible apply kept_setGauge | split | dsimp only | with_reducible exact Kept.refl _

theorem kept_rollWindow {x0 : Nat} {x1 : Nat} {x2 : State} (h2 : Kept s0 x2) : Kept s0 (rollWindow x0 x1 x2) := by
  induction x1 generalizing x0 x2 with
  | zero =>
    unfold rollWindow
    repeat' first
      | with_reducible assumption | intro _ | (simp only [kept_mk]; with_reducible apply keptC_upd)
      | with_reducible apply kept_closeEnding | with_reducible apply kept_setGauge | with_reducible apply kept_ite | split
      | dsimp only | with_reducible exact Kept.refl _
  | succ n ih =>
    unfold rollWindow
    repeat' first
      | with_reducible apply ih
      | with_reducible assumption | intro _ | (simp only [kept_mk]; with_reducible apply keptC_upd)
      | with_reducible apply kept_closeEnding | with_reducible apply kept_setGauge | with_reducible apply kept_ite | split
      | dsimp only | with_reducible exact Kept.refl _

theorem kept_rollGauge {x0 : Nat} {x1 : State} (h1 : Kept s0 x1) : Kept s0 (rollGauge x0 x1) := by
  unfold rollGauge
  repeat' first
    | with_reducible assumption | (simp only [kept_mk]; with_reducible apply keptC_upd) | with_reducible apply kept_rollWindow
    | split | dsimp only | with_reducible exact Kept.refl _

theorem kept_modOpen {x0 : Nat} {x1 : Window → Window} {x2 : State} (h2 : Kept s0 x2) : Kept s0 (modOpen x0 x1 x2) := by
  unfold modOpen
  repeat' first
    | with_reducible assumption | (simp only [kept_mk]; with_reducible apply keptC_upd) | with_reducible apply kept_rollGauge
    | with_reducible apply kept_setGauge | split | dsimp only | with_reducible exact Kept.refl _

theorem kept_lateSample {x0 : Nat} {x1 : Nat} {x2 : State} (h2 : Kept s0 x2) : Kept s0 (lateSample x0 x1 x2) := by
  unfold lateSample
  repeat' first
    | with_reducible assumption | intro _ | (simp only [kept_mk]; with_reducible apply keptC_upd)
    | with_reducible apply kept_bump | with_reducible apply kept_note | with_reducible apply kept_setGauge
    | with_reducible apply kept_ite | split | dsimp only | with_reducible exact Kept.refl _

theorem kept_gaugeSample {x0 : Nat} {x1 : Nat} {x2 : Nat} {x3 : Nat} {x4 : Nat} {x5 : State} (h5 : Kept s0 x5) : Kept s0 (gaugeSample x0 x1 x2 x3 x4 x5) := by
  unfold gaugeSample
  repeat' first
    | with_reducible assumption | intro _ | (simp only [kept_mk]; with_reducible apply keptC_upd)
    | with_reducible apply kept_rollGauge | with_reducible apply kept_setGauge | with_reducible apply kept_lateSample
    | with_reducible apply kept_ite | split | dsimp only | with_reducible exact Kept.refl _

theorem kept_closeEarly {x0 : Nat} {x1 : Bool} {x2 : Bool} {x3 : Nat} {x4 : State} (h4 : Kept s0 x4) : Kept s0 (closeEarly x0 x1 x2 x3 x4) := by
  unfold closeEarly
  repeat' first
    | with_reducible assumption | (simp only [kept_mk]; with_reducible apply keptC_upd) | with_reducible apply kept_rollGauge
    | with_reducible apply kept_closeReport | split | dsimp only | with_reducible exact Kept.refl _

theorem kept_openGauge {x0 : Nat} {x1 : Nat} {x2 : State} (h2 : Kept s0 x2) : Kept s0 (openGauge x0 x1 x2) := by
  unfold openGauge
  repeat' first
    | with_reducible assumption | (simp only [kept_mk]; with_reducible apply keptC_upd) | with_reducible apply kept_setGauge
    | split | dsimp only | with_reducible exact Kept.refl _

theorem kept_markWindows {x0 : Window → Window} {x1 : State} (h1 : Kept s0 x1) : Kept s0 (markWindows x0 x1) := by
  unfold markWindows
  repeat' first
    | with_reducible assumption | intro _ | (simp only [kept_mk]; with_reducible apply keptC_upd) | dsimp only
    | with_reducible exact Kept.refl _

theorem kept_execGaugeWindowClose {x0 : Moment} {x1 : Nat} {x2 : State} (h2 : Kept s0 x2) : KeptOut s0 (execGaugeWindowClose x0 x1 x2) := by
  unfold execGaugeWindowClose
  repeat' first
    | with_reducible assumption | intro _ | (simp only [kept_mk]; with_reducible apply keptC_upd)
    | with_reducible apply keptOut_next | with_reducible apply keptOut_ite | with_reducible apply kept_rollGauge
    | with_reducible apply kept_State_at | with_reducible apply kept_closeEnding | with_reducible apply kept_ite | split
    | dsimp only | with_reducible exact Kept.refl _

theorem kept_storeReport {x0 : Report} {x1 : State} (h1 : Kept s0 x1) : Kept s0 (storeReport x0 x1) := by
  unfold storeReport
  repeat' first
    | with_reducible assumption | intro _ | (simp only [kept_mk]; with_reducible apply keptC_upd)
    | with_reducible apply kept_bump | with_reducible apply kept_setGauge | with_reducible apply kept_ite | split
    | dsimp only | with_reducible exact Kept.refl _

theorem kept_reportEvents {x0 : Report} {x1 : Nat} {x2 : State} (h2 : Kept s0 x2) : Kept s0 (reportEvents x0 x1 x2) := by
  unfold reportEvents
  repeat' first
    | with_reducible assumption | intro _ | with_reducible apply kept_note | with_reducible apply kept_ite
    | with_reducible apply kept_foldl | with_reducible apply kept_foldl_snd | with_reducible apply kept_getD
    | with_reducible apply kept_foldl_fst | dsimp only | with_reducible exact Kept.refl _

theorem kept_dropGauge {x0 : Nat} {x1 : State} (h1 : Kept s0 x1) : Kept s0 (dropGauge x0 x1) := by
  unfold dropGauge
  repeat' first
    | with_reducible assumption | intro _ | (simp only [kept_mk]; with_reducible apply keptC_upd)
    | with_reducible apply keptOut_next | with_reducible apply keptOut_ite | with_reducible apply kept_State_at
    | with_reducible apply kept_setGauge
    | with_reducible apply kept_ite | with_reducible apply kept_foldl | with_reducible apply kept_foldl_snd
    | split | dsimp only | with_reducible exact Kept.refl _

theorem kept_execReportSign {x0 : Moment} {x1 : State} (h1 : Kept s0 x1) : KeptOut s0 (execReportSign x0 x1) := by
  unfold execReportSign
  repeat' first
    | with_reducible assumption | intro _ | (simp only [kept_mk]; with_reducible apply keptC_upd)
    | with_reducible apply keptOut_next | with_reducible apply keptOut_ite | with_reducible apply kept_bump
    | with_reducible apply kept_dropGauge | with_reducible apply kept_storeReport | with_reducible apply kept_State_at
    | with_reducible apply kept_reportEvents | with_reducible apply kept_ite | split | dsimp only
    | with_reducible exact Kept.refl _

theorem kept_sampleClass {x0 : Nat} {x1 : State} (h1 : Kept s0 x1) : Kept s0 (sampleClass x0 x1) := by
  unfold sampleClass
  repeat' first
    | with_reducible assumption | intro _ | (simp only [kept_mk]; with_reducible apply keptC_upd)
    | with_reducible apply keptOut_next | with_reducible apply keptOut_ite | with_reducible apply kept_State_at
    | with_reducible apply kept_modOpen
    | with_reducible apply kept_setGauge
    | with_reducible apply kept_ite | with_reducible apply kept_foldl | with_reducible apply kept_foldl_snd
    | split | dsimp only | with_reducible exact Kept.refl _

theorem kept_sampleQueues {x0 : State} (h0 : Kept s0 x0) : Kept s0 (sampleQueues x0) := by
  unfold sampleQueues
  repeat' first
    | with_reducible assumption | intro _ | (simp only [kept_mk]; with_reducible apply keptC_upd) | split | dsimp only
    | with_reducible exact Kept.refl _

theorem kept_sampleParts {x0 : State} (h0 : Kept s0 x0) : Kept s0 (sampleParts x0) := by
  unfold sampleParts
  repeat' first
    | with_reducible assumption | intro _ | (simp only [kept_mk]; with_reducible apply keptC_upd)
    | with_reducible apply kept_foldl | with_reducible apply kept_foldl_snd | with_reducible apply kept_foldl_fst
    | with_reducible apply keptO_foldl | with_reducible apply keptP_foldl | with_reducible apply keptE_foldl
    | with_reducible apply keptEP_foldl | with_reducible apply kept_getD | split | dsimp only
    | with_reducible exact Kept.refl _

theorem kept_execGaugeSample {x0 : Moment} {x1 : State} (h1 : Kept s0 x1) : KeptOut s0 (execGaugeSample x0 x1) := by
  unfold execGaugeSample
  repeat' first
    | with_reducible assumption | intro _ | (simp only [kept_mk]; with_reducible apply keptC_upd)
    | with_reducible apply keptOut_next | with_reducible apply keptOut_ite | with_reducible apply kept_sampleQueues
    | with_reducible apply kept_State_at | with_reducible apply kept_sampleParts | with_reducible apply kept_sampleClass
    | with_reducible apply kept_ite | with_reducible apply kept_foldl | with_reducible apply kept_foldl_snd
    | with_reducible apply kept_foldl_fst | with_reducible apply keptO_foldl | with_reducible apply keptP_foldl
    | with_reducible apply keptE_foldl | with_reducible apply keptEP_foldl | split | dsimp only
    | with_reducible exact Kept.refl _

theorem kept_gaugeGrant {x0 : Session} {x1 : State} (h1 : Kept s0 x1) : Kept s0 (gaugeGrant x0 x1) := by
  unfold gaugeGrant
  repeat' first
    | with_reducible assumption | intro _ | (simp only [kept_mk]; with_reducible apply keptC_upd)
    | with_reducible apply kept_modOpen | with_reducible apply kept_ite | dsimp only | with_reducible exact Kept.refl _

theorem kept_streamStall {x0 : Session} {x1 : Bool} {x2 : State} (h2 : Kept s0 x2) : Kept s0 (streamStall x0 x1 x2) := by
  unfold streamStall
  repeat' first
    | with_reducible assumption | intro _ | (simp only [kept_mk]; with_reducible apply keptC_upd)
    | with_reducible apply kept_modOpen | with_reducible apply kept_bump | with_reducible apply kept_modSess
    | with_reducible apply kept_ite | dsimp only | with_reducible exact Kept.refl _

theorem kept_leaveQueue {x0 : Nat} {x1 : State} (h1 : Kept s0 x1) : Kept s0 (leaveQueue x0 x1) := by
  unfold leaveQueue
  repeat' first
    | with_reducible assumption | intro _ | (simp only [kept_mk]; with_reducible apply keptC_upd)
    | with_reducible apply kept_restQueue | with_reducible apply kept_streamStall | split | dsimp only
    | with_reducible exact Kept.refl _

theorem kept_gaugeTtft {x0 : Session} {x1 : State} (h1 : Kept s0 x1) : Kept s0 (gaugeTtft x0 x1) := by
  unfold gaugeTtft
  repeat' first
    | with_reducible assumption | intro _ | with_reducible apply kept_gaugeSample | with_reducible apply kept_ite | dsimp only
    | with_reducible exact Kept.refl _

theorem kept_gaugeGap {x0 : Nat} {x1 : Nat} {x2 : Nat} {x3 : State} (h3 : Kept s0 x3) : Kept s0 (gaugeGap x0 x1 x2 x3) := by
  unfold gaugeGap
  repeat' first
    | with_reducible assumption | intro _ | with_reducible apply kept_gaugeSample | with_reducible apply kept_ite | dsimp only
    | with_reducible exact Kept.refl _

theorem kept_gaugeTurn {x0 : Session} {x1 : State} (h1 : Kept s0 x1) : Kept s0 (gaugeTurn x0 x1) := by
  unfold gaugeTurn
  repeat' first
    | with_reducible assumption | intro _ | with_reducible apply kept_gaugeSample | with_reducible apply kept_ite | dsimp only
    | with_reducible exact Kept.refl _

end Sys2Proof.Machine
end

