-- ==== Sys2Proof/Laws/KeptPlanisher.lean ====
section
/-! SUPPORT. What the definitions of Sys2Proof/Machine/Planisher.lean keep. -/

set_option linter.unusedSimpArgs false

namespace Sys2Proof.Machine

variable {s0 : State}

theorem kept_bodyClassSet {x0 : Moment} {x1 : Req} {x2 : State} (h2 : Kept s0 x2) : Kept s0 (bodyClassSet x0 x1 x2).st := by
  unfold bodyClassSet
  repeat' first
    | with_reducible assumption | intro _ | (simp only [kept_mk]; with_reducible apply keptC_upd)
    | with_reducible apply kept_reply_ok | with_reducible apply kept_ite_st | with_reducible apply kept_checked
    | with_reducible apply kept_closeEarly | with_reducible apply kept_rollGauge | with_reducible apply kept_setClass
    | with_reducible apply kept_openGauge | with_reducible apply kept_ite | split | dsimp only
    | with_reducible exact Kept.refl _

theorem kept_bodyClassRead {x0 : Moment} {x1 : Req} {x2 : State} (h2 : Kept s0 x2) : Kept s0 (bodyClassRead x0 x1 x2).st := by
  unfold bodyClassRead
  repeat' first
    | with_reducible assumption | intro _ | (simp only [kept_mk]; with_reducible apply keptC_upd)
    | with_reducible apply kept_reply_ok | with_reducible apply kept_reply_err | with_reducible apply kept_ite_st
    | with_reducible apply kept_ite | split | dsimp only | with_reducible exact Kept.refl _

theorem kept_execClassRead {x0 : Moment} {x1 : Req} {x2 : State} (h2 : Kept s0 x2) : KeptOut s0 (execClassRead x0 x1 x2) := by
  unfold execClassRead
  repeat' first
    | with_reducible assumption | with_reducible apply keptOut_next | with_reducible apply kept_runCommand
    | with_reducible apply kept_bodyClassRead | dsimp only | with_reducible exact Kept.refl _

theorem kept_bodyClassDelete {x0 : Moment} {x1 : Req} {x2 : State} (h2 : Kept s0 x2) : Kept s0 (bodyClassDelete x0 x1 x2).st := by
  unfold bodyClassDelete
  repeat' first
    | with_reducible assumption | intro _ | (simp only [kept_mk]; with_reducible apply keptC_upd)
    | with_reducible apply kept_reply_ok | with_reducible apply kept_reply_err | with_reducible apply kept_checked
    | with_reducible apply kept_closeEarly | with_reducible apply kept_closeEnding | with_reducible apply kept_rollGauge | split
    | dsimp only | with_reducible exact Kept.refl _

theorem kept_execClassDelete {x0 : Moment} {x1 : Req} {x2 : State} (h2 : Kept s0 x2) : KeptOut s0 (execClassDelete x0 x1 x2) := by
  unfold execClassDelete
  repeat' first
    | with_reducible assumption | with_reducible apply keptOut_next | with_reducible apply kept_runCommand
    | with_reducible apply kept_bodyClassDelete | dsimp only | with_reducible exact Kept.refl _

theorem kept_bodyMeterSet {x0 : Moment} {x1 : Req} {x2 : State} (h2 : Kept s0 x2) : Kept s0 (bodyMeterSet x0 x1 x2).st := by
  unfold bodyMeterSet
  repeat' first
    | with_reducible assumption | intro _ | (simp only [kept_mk]; with_reducible apply keptC_upd)
    | with_reducible apply kept_reply_ok | with_reducible apply kept_reply_err | with_reducible apply kept_ite_st
    | with_reducible apply kept_checked | with_reducible apply kept_ite | with_reducible apply kept_getD | split | dsimp only
    | with_reducible exact Kept.refl _

theorem kept_execMeterSet {x0 : Moment} {x1 : Req} {x2 : State} (h2 : Kept s0 x2) : KeptOut s0 (execMeterSet x0 x1 x2) := by
  unfold execMeterSet
  repeat' first
    | with_reducible assumption | with_reducible apply keptOut_next | with_reducible apply kept_runCommand
    | with_reducible apply kept_bodyMeterSet | dsimp only | with_reducible exact Kept.refl _

theorem kept_bodyMeterRead {x0 : Moment} {x1 : Req} {x2 : State} (h2 : Kept s0 x2) : Kept s0 (bodyMeterRead x0 x1 x2).st := by
  unfold bodyMeterRead
  repeat' first
    | with_reducible assumption | intro _ | (simp only [kept_mk]; with_reducible apply keptC_upd)
    | with_reducible apply kept_reply_ok | with_reducible apply kept_reply_err | with_reducible apply kept_ite_st
    | with_reducible apply kept_ite | split | dsimp only | with_reducible exact Kept.refl _

theorem kept_execMeterRead {x0 : Moment} {x1 : Req} {x2 : State} (h2 : Kept s0 x2) : KeptOut s0 (execMeterRead x0 x1 x2) := by
  unfold execMeterRead
  repeat' first
    | with_reducible assumption | with_reducible apply keptOut_next | with_reducible apply kept_runCommand
    | with_reducible apply kept_bodyMeterRead | dsimp only | with_reducible exact Kept.refl _

theorem kept_bodyPartitionShare {x0 : Moment} {x1 : Req} {x2 : State} (h2 : Kept s0 x2) : Kept s0 (bodyPartitionShare x0 x1 x2).st := by
  unfold bodyPartitionShare
  repeat' first
    | with_reducible assumption | intro _ | (simp only [kept_mk]; with_reducible apply keptC_upd)
    | with_reducible apply kept_reply_ok | with_reducible apply kept_checked | with_reducible apply kept_setShare | dsimp only
    | with_reducible exact Kept.refl _

theorem kept_setRing {x0 : Nat} {x1 : StreamRing} {x2 : State} (h2 : Kept s0 x2) : Kept s0 (setRing x0 x1 x2) := by
  unfold setRing
  repeat' first
    | with_reducible assumption | (simp only [kept_mk]; with_reducible apply keptC_upd) | dsimp only
    | with_reducible exact Kept.refl _

theorem kept_bodyGaugeReport {x0 : Moment} {x1 : Req} {x2 : State} (h2 : Kept s0 x2) : Kept s0 (bodyGaugeReport x0 x1 x2).st := by
  unfold bodyGaugeReport
  repeat' first
    | with_reducible assumption | intro _ | (simp only [kept_mk]; with_reducible apply keptC_upd)
    | with_reducible apply kept_reply_err | with_reducible apply kept_ite_st | with_reducible apply kept_replyData
    | with_reducible apply kept_ite | split | dsimp only | with_reducible exact Kept.refl _

theorem kept_execGaugeReport {x0 : Moment} {x1 : Req} {x2 : State} (h2 : Kept s0 x2) : KeptOut s0 (execGaugeReport x0 x1 x2) := by
  unfold execGaugeReport
  repeat' first
    | with_reducible assumption | with_reducible apply keptOut_next | with_reducible apply kept_runCommand
    | with_reducible apply kept_bodyGaugeReport | dsimp only | with_reducible exact Kept.refl _

theorem kept_bodyGaugeConfig {x0 : Moment} {x1 : Req} {x2 : State} (h2 : Kept s0 x2) : Kept s0 (bodyGaugeConfig x0 x1 x2).st := by
  unfold bodyGaugeConfig
  repeat' first
    | with_reducible assumption | intro _ | (simp only [kept_mk]; with_reducible apply keptC_upd)
    | with_reducible apply kept_reply_ok | with_reducible apply kept_reply_err | with_reducible apply kept_ite_st
    | with_reducible apply kept_ite | dsimp only | with_reducible exact Kept.refl _

theorem kept_execGaugeConfig {x0 : Moment} {x1 : Req} {x2 : State} (h2 : Kept s0 x2) : KeptOut s0 (execGaugeConfig x0 x1 x2) := by
  unfold execGaugeConfig
  repeat' first
    | with_reducible assumption | with_reducible apply keptOut_next | with_reducible apply kept_runCommand
    | with_reducible apply kept_bodyGaugeConfig | dsimp only | with_reducible exact Kept.refl _

theorem kept_bodyPlaQueueRead {x0 : Moment} {x1 : Req} {x2 : State} (h2 : Kept s0 x2) : Kept s0 (bodyPlaQueueRead x0 x1 x2).st := by
  unfold bodyPlaQueueRead
  repeat' first
    | with_reducible assumption | intro _ | (simp only [kept_mk]; with_reducible apply keptC_upd)
    | with_reducible apply kept_reply_ok | with_reducible apply kept_reply_err | with_reducible apply kept_onSession | split
    | dsimp only | with_reducible exact Kept.refl _

theorem kept_execPlaQueueRead {x0 : Moment} {x1 : Req} {x2 : State} (h2 : Kept s0 x2) : KeptOut s0 (execPlaQueueRead x0 x1 x2) := by
  unfold execPlaQueueRead
  repeat' first
    | with_reducible assumption | with_reducible apply keptOut_next | with_reducible apply kept_runCommand
    | with_reducible apply kept_bodyPlaQueueRead | dsimp only | with_reducible exact Kept.refl _

end Sys2Proof.Machine
end

