-- ==== Sys2Proof/Laws/KeptTurns.lean ====
section
/-! SUPPORT. What the definitions of Sys2Proof/Machine/Turns.lean keep. -/

set_option linter.unusedSimpArgs false

namespace Sys2Proof.Machine

variable {s0 : State}

theorem kept_setGen {x0 : Nat} {x1 : TableSet} {x2 : State} (h2 : Kept s0 x2) : Kept s0 (setGen x0 x1 x2) := by
  unfold setGen
  repeat' first
    | with_reducible assumption | (simp only [kept_mk]; with_reducible apply keptC_upd) | dsimp only
    | with_reducible exact Kept.refl _

theorem kept_showRetire {x0 : Nat} {x1 : State} (h1 : Kept s0 x1) : Kept s0 (showRetire x0 x1) := by
  unfold showRetire
  repeat' first
    | with_reducible assumption | intro _ | (simp only [kept_mk]; with_reducible apply keptC_upd)
    | with_reducible apply kept_progressOp | with_reducible apply kept_ite | split | dsimp only
    | with_reducible exact Kept.refl _

theorem kept_bindGen {x0 : Nat} {x1 : Int} {x2 : State} (h2 : Kept s0 x2) : Kept s0 (bindGen x0 x1 x2) := by
  unfold bindGen
  repeat' first
    | with_reducible assumption | intro _ | (simp only [kept_mk]; with_reducible apply keptC_upd)
    | with_reducible apply kept_showRetire | with_reducible apply kept_setGen | split | dsimp only
    | with_reducible exact Kept.refl _

theorem kept_setGstate {x0 : Nat} {x1 : GState'} {x2 : State} (h2 : Kept s0 x2) : Kept s0 (setGstate x0 x1 x2) := by
  unfold setGstate
  repeat' first
    | with_reducible assumption | intro _ | (simp only [kept_mk]; with_reducible apply keptC_upd)
    | with_reducible apply kept_modStore | with_reducible apply kept_modSess | dsimp only | with_reducible exact Kept.refl _

theorem kept_resetGrammar {x0 : Nat} {x1 : State} (h1 : Kept s0 x1) : Kept s0 (resetGrammar x0 x1) := by
  unfold resetGrammar
  repeat' first
    | with_reducible assumption | intro _ | (simp only [kept_mk]; with_reducible apply keptC_upd)
    | with_reducible apply kept_setGstate | with_reducible apply kept_modSess | split | dsimp only
    | with_reducible exact Kept.refl _

theorem kept_formSets {x0 : Session} {x1 : Nat} {x2 : State} (h2 : Kept s0 x2) : Kept s0 (formSets x0 x1 x2) := by
  unfold formSets
  repeat' first
    | with_reducible assumption | intro _ | (simp only [kept_mk]; with_reducible apply keptC_upd)
    | with_reducible apply kept_bump | with_reducible apply kept_bumpFree | with_reducible apply kept_ite | split
    | dsimp only | with_reducible exact Kept.refl _

theorem kept_formNext {x0 : Nat} {x1 : State} (h1 : Kept s0 x1) : Kept s0 (formNext x0 x1) := by
  unfold formNext
  repeat' first
    | with_reducible assumption | intro _ | (simp only [kept_mk]; with_reducible apply keptC_upd)
    | with_reducible apply kept_modSess | with_reducible apply kept_formSets | with_reducible apply kept_ite | split
    | dsimp only | with_reducible exact Kept.refl _

theorem kept_spillRecs {x0 : Session} {x1 : List StreamRec} {x2 : Nat} {x3 : State} (h3 : Kept s0 x3) : Kept s0 (spillRecs x0 x1 x2 x3) := by
  unfold spillRecs
  repeat' first
    | with_reducible assumption | intro _ | (simp only [kept_mk]; with_reducible apply keptC_upd)
    | with_reducible apply kept_setRing | with_reducible apply kept_post | with_reducible apply kept_ite | split | dsimp only
    | with_reducible exact Kept.refl _

theorem kept_deliver {x0 : Nat} {x1 : Bytes} {x2 : Bool} {x3 : Bool} {x4 : Nat} {x5 : Nat} {x6 : State} (h6 : Kept s0 x6) : Kept s0 (deliver x0 x1 x2 x3 x4 x5 x6) := by
  unfold deliver
  repeat' first
    | with_reducible assumption | intro _ | (simp only [kept_mk]; with_reducible apply keptC_upd)
    | with_reducible apply kept_bump | with_reducible apply kept_spillRecs | with_reducible apply kept_ite | split | dsimp only
    | with_reducible exact Kept.refl _

theorem kept_deliverFault {x0 : Session} {x1 : Nat} {x2 : State} (h2 : Kept s0 x2) : Kept s0 (deliverFault x0 x1 x2) := by
  unfold deliverFault
  repeat' first
    | with_reducible assumption | intro _ | with_reducible apply kept_spillRecs | with_reducible apply kept_ite | dsimp only
    | with_reducible exact Kept.refl _

theorem kept_reserveRecs {x0 : Session} {x1 : Nat} {x2 : State} (h2 : Kept s0 x2) : Kept s0 (reserveRecs x0 x1 x2).2 := by
  unfold reserveRecs
  repeat' first
    | with_reducible assumption | (simp only [kept_mk]; with_reducible apply keptC_upd) | with_reducible apply kept_move
    | with_reducible apply kept_setRing | split | dsimp only | with_reducible exact Kept.refl _

theorem kept_growJournal {x0 : Moment} {x1 : Nat} {x2 : Nat} {x3 : Nat} {x4 : State} (h4 : Kept s0 x4) : KeptE s0 (growJournal x0 x1 x2 x3 x4) := by
  unfold growJournal
  repeat' first
    | with_reducible assumption | intro _
    | (simp only [kept_mk]; first | with_reducible apply keptC_upd | with_reducible apply keptC_clear | refine keptC_updHmk ?_ (by first | exact Nat.le_refl _ | exact Nat.le_add_right _ _ | omega) (by exact Nat.le_refl _) (by rfl))
    | with_reducible apply kept_reply_ok | with_reducible apply kept_reply_err | with_reducible apply kept_reply_wait
    | with_reducible apply kept_ite_st | with_reducible apply kept_grabJournal | with_reducible apply kept_modStore
    | with_reducible apply keptO_some | with_reducible apply keptO_none | with_reducible apply keptO_ite
    | with_reducible apply keptO_obindS | with_reducible apply keptO_obind | with_reducible apply keptO_map
    | with_reducible apply keptO_bind | with_reducible apply keptE_ok | with_reducible apply keptE_pure
    | with_reducible apply keptE_error | with_reducible apply keptE_ite | with_reducible apply keptE_map
    | with_reducible apply keptE_foldlM | with_reducible apply keptE_ebind | with_reducible apply keptE_ebindP
    | with_reducible apply keptE_bind | with_reducible apply kept_foldl | with_reducible apply kept_foldl_snd
    | with_reducible apply kept_foldl_fst | with_reducible apply keptO_foldl | with_reducible apply keptP_foldl
    | with_reducible apply keptE_foldl | with_reducible apply keptEP_foldl | with_reducible apply kept_getD
    | with_reducible exact kept_of_hypO ‹_› | with_reducible exact kept_of_hypP ‹_› | with_reducible exact kept_of_hypE ‹_›
    | with_reducible exact kept_of_hypEP ‹_› | with_reducible refine kept_of_some (by assumption) ?_
    | with_reducible refine kept_of_someP (by assumption) ?_ | with_reducible refine kept_of_ok (by assumption) ?_
    | with_reducible refine kept_of_okP (by assumption) ?_ | with_reducible refine kept_of_error (by assumption) ?_
    | with_reducible refine kept_of_snd (by assumption) ?_ | with_reducible refine kept_of_fst (by assumption) ?_
    | with_reducible refine kept_of_snd2 (by assumption) ?_ | with_reducible refine kept_of_snd3 (by assumption) ?_ | split
    | dsimp only | with_reducible exact Kept.refl _

theorem kept_dropIntake {x0 : Nat} {x1 : State} (h1 : Kept s0 x1) : Kept s0 (dropIntake x0 x1) := by
  unfold dropIntake
  repeat' first
    | with_reducible assumption | intro _ | (simp only [kept_mk]; with_reducible apply keptC_upd)
    | with_reducible apply kept_modStore | with_reducible apply kept_journal | dsimp only | with_reducible exact Kept.refl _

theorem kept_startTurn {x0 : Nat} {x1 : SState} {x2 : State} (h2 : Kept s0 x2) : Kept s0 (startTurn x0 x1 x2) := by
  unfold startTurn
  repeat' first
    | with_reducible assumption | intro _ | (simp only [kept_mk]; with_reducible apply keptC_upd)
    | with_reducible apply kept_modSess | with_reducible apply kept_resetGrammar | with_reducible apply kept_modStore
    | with_reducible apply kept_ite | split | dsimp only | with_reducible exact Kept.refl _

theorem kept_commitIntake {x0 : Nat} {x1 : State} (h1 : Kept s0 x1) : Kept s0 (commitIntake x0 x1) := by
  unfold commitIntake
  repeat' first
    | with_reducible assumption | intro _ | (simp only [kept_mk]; with_reducible apply keptC_upd)
    | with_reducible apply kept_modSess | with_reducible apply kept_post | with_reducible apply kept_startTurn
    | with_reducible apply kept_ite | split | dsimp only | with_reducible exact Kept.refl _

theorem kept_stageToks {x0 : Moment} {x1 : Nat} {x2 : List (Nat × Nat)} {x3 : TextRec} {x4 : State} (h4 : Kept s0 x4) : KeptE s0 (stageToks x0 x1 x2 x3 x4) := by
  unfold stageToks
  repeat' first
    | with_reducible assumption | intro _ | (simp only [kept_mk]; with_reducible apply keptC_upd)
    | with_reducible apply kept_reply_ok | with_reducible apply kept_reply_err | with_reducible apply kept_reply_wait
    | with_reducible apply kept_ite_st | with_reducible apply kept_dropIntake | with_reducible apply kept_growJournal
    | with_reducible apply kept_modStore | with_reducible apply kept_starve | with_reducible apply keptE_ok
    | with_reducible apply keptE_pure | with_reducible apply keptE_error | with_reducible apply keptE_ite
    | with_reducible apply keptE_map | with_reducible apply keptE_foldlM | with_reducible apply keptE_ebind
    | with_reducible apply keptE_ebindP | with_reducible apply keptE_bind | with_reducible apply kept_ite
    | with_reducible apply kept_ite_snd | with_reducible refine kept_of_ok (by assumption) ?_ | split | dsimp only
    | with_reducible exact Kept.refl _

theorem keptEE_stageToks {x0 : Moment} {x1 : Nat} {x2 : List (Nat × Nat)} {x3 : TextRec} {x4 : State} (h4 : Kept s0 x4) : KeptEE s0 (stageToks x0 x1 x2 x3 x4) := by
  unfold stageToks
  repeat' first
    | with_reducible assumption | intro _ | (simp only [kept_mk]; with_reducible apply keptC_upd)
    | with_reducible apply kept_reply_ok | with_reducible apply kept_reply_err | with_reducible apply kept_reply_wait
    | with_reducible apply kept_ite_st | with_reducible apply kept_dropIntake | with_reducible apply kept_growJournal
    | with_reducible apply kept_modStore | with_reducible apply kept_starve | with_reducible apply keptEE_ok
    | with_reducible apply keptEE_pure | with_reducible apply keptEE_error | with_reducible apply keptEE_ite
    | with_reducible apply keptEE_bind | with_reducible refine keptEE_of_eq (by assumption) ?_
    | with_reducible apply kept_ite | with_reducible apply kept_ite_snd
    | with_reducible refine kept_of_ok (by assumption) ?_ | split | dsimp only | with_reducible exact Kept.refl _

theorem kept_freeChain {x0 : Nat} {x1 : State} (h1 : Kept s0 x1) : Kept s0 (freeChain x0 x1) := by
  unfold freeChain
  repeat' first
    | with_reducible assumption | intro _ | (simp only [kept_mk]; with_reducible apply keptC_upd)
    | with_reducible apply kept_modDir | with_reducible apply kept_modSess | with_reducible apply kept_ite | split | dsimp only
    | with_reducible exact Kept.refl _

theorem kept_skipHeld {x0 : Nat} {x1 : State} (h1 : Kept s0 x1) : Kept s0 (skipHeld x0 x1) := by
  unfold skipHeld
  repeat' first
    | with_reducible assumption
    | (simp only [kept_mk]; first | with_reducible apply keptC_upd | refine keptC_updHmk ?_ (by first | exact Nat.le_refl _ | exact Nat.le_add_right _ _ | omega) (by exact Nat.le_refl _) (by rfl))
    | with_reducible apply kept_note | with_reducible apply kept_freeChain | split | dsimp only
    | with_reducible exact Kept.refl _

theorem kept_creditIn {x0 : Nat} {x1 : Nat} {x2 : Nat} {x3 : State} (h3 : Kept s0 x3) : Kept s0 (creditIn x0 x1 x2 x3) := by
  unfold creditIn
  repeat' first
    | with_reducible assumption | with_reducible apply kept_post | dsimp only | with_reducible exact Kept.refl _

theorem kept_creditOut {x0 : Nat} {x1 : Nat} {x2 : Nat} {x3 : State} (h3 : Kept s0 x3) : Kept s0 (creditOut x0 x1 x2 x3) := by
  unfold creditOut
  repeat' first
    | with_reducible assumption | with_reducible apply kept_post | dsimp only | with_reducible exact Kept.refl _

theorem kept_claimActive {x0 : Session} {x1 : Nat} {x2 : State} (h2 : Kept s0 x2) : Kept s0 (claimActive x0 x1 x2) := by
  unfold claimActive
  repeat' first
    | with_reducible assumption | intro _ | (simp only [kept_mk]; with_reducible apply keptC_upd)
    | with_reducible apply kept_makeActive | with_reducible apply kept_modStore | with_reducible apply kept_creditIn
    | with_reducible apply kept_ite | split | dsimp only | with_reducible exact Kept.refl _

theorem kept_stopSession {x0 : Nat} {x1 : Nat} {x2 : Bytes} {x3 : Bool} {x4 : Nat} {x5 : Nat} {x6 : State} (h6 : Kept s0 x6) : Kept s0 (stopSession x0 x1 x2 x3 x4 x5 x6) := by
  unfold stopSession
  repeat' first
    | with_reducible assumption | intro _ | (simp only [kept_mk]; with_reducible apply keptC_upd)
    | with_reducible apply kept_bump | with_reducible apply kept_noteSess | with_reducible apply kept_modSess
    | with_reducible apply kept_modStore | with_reducible apply kept_skipHeld | with_reducible apply kept_leaveQueue
    | with_reducible apply kept_gaugeTurn | with_reducible apply kept_deliver | with_reducible apply kept_ite | split
    | dsimp only | with_reducible exact Kept.refl _

theorem kept_maskRow {x0 : Nat} {x1 : Nat} {x2 : State} (h2 : Kept s0 x2) : Kept s0 (maskRow x0 x1 x2) := by
  unfold maskRow
  repeat' first
    | with_reducible assumption | intro _ | (simp only [kept_mk]; with_reducible apply keptC_upd)
    | with_reducible apply kept_ite | dsimp only | with_reducible exact Kept.refl _

theorem kept_endFops {x0 : Nat} {x1 : Nat} {x2 : State} (h2 : Kept s0 x2) : Kept s0 (endFops x0 x1 x2) := by
  unfold endFops
  repeat' first
    | with_reducible assumption | intro _ | with_reducible apply kept_cancelRunAhead | with_reducible apply kept_endOp
    | with_reducible apply kept_delFop | with_reducible apply kept_dropOld | with_reducible apply kept_dropFresh
    | with_reducible apply kept_dropDescs | with_reducible apply kept_ite | with_reducible apply kept_foldl
    | with_reducible apply kept_foldl_snd | with_reducible apply kept_foldl_fst | dsimp only | with_reducible exact Kept.refl _

theorem kept_discardHeld {x0 : Nat} {x1 : State} (h1 : Kept s0 x1) : Kept s0 (discardHeld x0 x1) := by
  unfold discardHeld
  repeat' first
    | with_reducible assumption | intro _ | (simp only [kept_mk]; with_reducible apply keptC_upd)
    | with_reducible apply kept_move | with_reducible apply kept_setRing | with_reducible apply kept_ite
    | with_reducible apply kept_foldl | with_reducible apply kept_foldl_snd | with_reducible apply kept_foldl_fst | dsimp only
    | with_reducible exact Kept.refl _

theorem kept_twinFaults {x0 : Session} {x1 : Nat} {x2 : State} (h2 : Kept s0 x2) : Kept s0 (twinFaults x0 x1 x2) := by
  unfold twinFaults
  repeat' first
    | with_reducible assumption | intro _ | (simp only [kept_mk]; with_reducible apply keptC_upd)
    | with_reducible apply kept_sendSwl | with_reducible apply kept_discardHeld | split | dsimp only
    | with_reducible exact Kept.refl _

theorem kept_faultSession {x0 : Nat} {x1 : Nat} {x2 : State} (h2 : Kept s0 x2) : Kept s0 (faultSession x0 x1 x2) := by
  unfold faultSession
  repeat' first
    | with_reducible assumption | intro _ | (simp only [kept_mk]; with_reducible apply keptC_upd)
    | with_reducible apply kept_dropIntake | with_reducible apply kept_claimActive | with_reducible apply kept_maskRow
    | with_reducible apply kept_bump | with_reducible apply kept_twinFaults | with_reducible apply kept_deliverFault
    | with_reducible apply kept_noteSess | with_reducible apply kept_modSess | with_reducible apply kept_modStore
    | with_reducible apply kept_skipHeld | with_reducible apply kept_leaveQueue | with_reducible apply kept_setState
    | with_reducible apply kept_endFops | with_reducible apply kept_ite | with_reducible apply kept_getD | split
    | dsimp only | with_reducible exact Kept.refl _

theorem kept_rearmCast {x0 : Nat} {x1 : State} (h1 : Kept s0 x1) : Kept s0 (rearmCast x0 x1) := by
  unfold rearmCast
  repeat' first
    | with_reducible assumption | intro _ | (simp only [kept_mk]; with_reducible apply keptC_upd)
    | with_reducible apply kept_modSess | with_reducible apply kept_ite | dsimp only | with_reducible exact Kept.refl _

end Sys2Proof.Machine
end

