-- ==== Sys2Proof/Laws/KeptTablesets.lean ====
section
/-! SUPPORT. What the definitions of Sys2Proof/Machine/Tablesets.lean keep. -/

set_option linter.unusedSimpArgs false

namespace Sys2Proof.Machine

variable {s0 : State}

theorem kept_placeTableset {x0 : Nat} {x1 : State} (h1 : Kept s0 x1) : Kept s0 (placeTableset x0 x1) := by
  unfold placeTableset
  repeat' first
    | with_reducible assumption | intro _ | (simp only [kept_mk]; with_reducible apply keptC_upd)
    | with_reducible apply kept_endOp | with_reducible apply kept_logSgFault | with_reducible apply kept_phaseOp
    | with_reducible apply kept_setGen | with_reducible apply kept_ite | split | dsimp only | with_reducible exact Kept.refl _

theorem kept_bodyTablesetLoad {x0 : Moment} {x1 : Req} {x2 : State} (h2 : Kept s0 x2) : Kept s0 (bodyTablesetLoad x0 x1 x2).st := by
  unfold bodyTablesetLoad
  repeat' first
    | with_reducible assumption | intro _ | (simp only [kept_mk]; with_reducible apply keptC_upd)
    | with_reducible apply kept_reply_ok | with_reducible apply kept_reply_err | with_reducible apply kept_ite_st
    | with_reducible apply kept_asOp | with_reducible apply kept_placeTableset | with_reducible apply kept_swlAsk
    | with_reducible apply kept_ite | with_reducible apply kept_foldl | with_reducible apply kept_foldl_snd | split | dsimp only
    | with_reducible exact Kept.refl _

theorem kept_execTablesetLoad {x0 : Moment} {x1 : Req} {x2 : State} (h2 : Kept s0 x2) : KeptOut s0 (execTablesetLoad x0 x1 x2) := by
  unfold execTablesetLoad
  repeat' first
    | with_reducible assumption | with_reducible apply keptOut_next | with_reducible apply kept_runCommand
    | with_reducible apply kept_bodyTablesetLoad | dsimp only | with_reducible exact Kept.refl _

theorem kept_numberAnswer {x0 : Nat} {x1 : Nat} {x2 : Bytes} {x3 : State} (h3 : Kept s0 x3) : Kept s0 (numberAnswer x0 x1 x2 x3) := by
  unfold numberAnswer
  repeat' first
    | with_reducible assumption | intro _ | (simp only [kept_mk]; with_reducible apply keptC_upd)
    | with_reducible apply kept_endOp | with_reducible apply kept_setArgs | with_reducible apply kept_placeTableset
    | with_reducible apply kept_ite | with_reducible apply kept_getD | split | dsimp only | with_reducible exact Kept.refl _

theorem kept_execTablesetNumberCheck {x0 : Moment} {x1 : Nat} {x2 : Nat} {x3 : Nat} {x4 : State} (h4 : Kept s0 x4) : KeptOut s0 (execTablesetNumberCheck x0 x1 x2 x3 x4) := by
  unfold execTablesetNumberCheck
  repeat' first
    | with_reducible assumption | (simp only [kept_mk]; with_reducible apply keptC_upd) | with_reducible apply keptOut_next
    | with_reducible apply kept_swlGot | with_reducible apply kept_State_at | with_reducible apply kept_sendSwl | split
    | dsimp only | with_reducible exact Kept.refl _

theorem kept_dropGen {x0 : Nat} {x1 : State} (h1 : Kept s0 x1) : Kept s0 (dropGen x0 x1) := by
  unfold dropGen
  repeat' first
    | with_reducible assumption | (simp only [kept_mk]; with_reducible apply keptC_upd) | dsimp only
    | with_reducible exact Kept.refl _

theorem kept_execTablesetLoadComplete {x0 : Moment} {x1 : Nat} {x2 : Bool} {x3 : State} (h3 : Kept s0 x3) : KeptOut s0 (execTablesetLoadComplete x0 x1 x2 x3) := by
  unfold execTablesetLoadComplete
  repeat' first
    | with_reducible assumption | intro _ | (simp only [kept_mk]; with_reducible apply keptC_upd)
    | with_reducible apply kept_reply_ok | with_reducible apply kept_reply_err | with_reducible apply kept_reply_wait
    | with_reducible apply kept_ite_st | with_reducible apply keptOut_next | with_reducible apply keptOut_ite
    | with_reducible apply kept_logEvent | with_reducible apply kept_endOp | with_reducible apply kept_endSgFault
    | with_reducible apply kept_setGen | with_reducible apply kept_sigRejected | with_reducible apply kept_State_at
    | with_reducible apply kept_devWrite | with_reducible apply kept_dropGen | with_reducible apply kept_ite | split
    | dsimp only | with_reducible exact Kept.refl _

theorem kept_endTablesetLoad {x0 : Nat} {x1 : LongOp} {x2 : State} (h2 : Kept s0 x2) : Kept s0 (endTablesetLoad x0 x1 x2) := by
  unfold endTablesetLoad
  repeat' first
    | with_reducible assumption | intro _ | (simp only [kept_mk]; with_reducible apply keptC_upd)
    | with_reducible apply kept_dropGen | with_reducible apply kept_endOp | with_reducible apply kept_ite | split | dsimp only
    | with_reducible exact Kept.refl _

theorem kept_bodyTablesetRetire {x0 : Moment} {x1 : Req} {x2 : State} (h2 : Kept s0 x2) : Kept s0 (bodyTablesetRetire x0 x1 x2).st := by
  unfold bodyTablesetRetire
  repeat' first
    | with_reducible assumption | intro _ | (simp only [kept_mk]; with_reducible apply keptC_upd)
    | with_reducible apply kept_reply_ok | with_reducible apply kept_reply_err | with_reducible apply kept_ite_st
    | with_reducible apply kept_asOp | with_reducible apply kept_setGen | with_reducible apply kept_ite | split | dsimp only
    | with_reducible exact Kept.refl _

theorem kept_execTablesetRetire {x0 : Moment} {x1 : Req} {x2 : State} (h2 : Kept s0 x2) : KeptOut s0 (execTablesetRetire x0 x1 x2) := by
  unfold execTablesetRetire
  repeat' first
    | with_reducible assumption | with_reducible apply keptOut_next | with_reducible apply kept_runCommand
    | with_reducible apply kept_bodyTablesetRetire | dsimp only | with_reducible exact Kept.refl _

theorem kept_endTablesetRetire {x0 : Nat} {x1 : LongOp} {x2 : State} (h2 : Kept s0 x2) : Kept s0 (endTablesetRetire x0 x1 x2) := by
  unfold endTablesetRetire
  repeat' first
    | with_reducible assumption | intro _ | (simp only [kept_mk]; with_reducible apply keptC_upd)
    | with_reducible apply kept_setGen | with_reducible apply kept_endOp | with_reducible apply kept_ite | split | dsimp only
    | with_reducible exact Kept.refl _

theorem kept_execTablesetDrained {x0 : Moment} {x1 : Nat} {x2 : State} (h2 : Kept s0 x2) : KeptOut s0 (execTablesetDrained x0 x1 x2) := by
  unfold execTablesetDrained
  repeat' first
    | with_reducible assumption | intro _ | (simp only [kept_mk]; with_reducible apply keptC_upd)
    | with_reducible apply keptOut_next | with_reducible apply keptOut_ite | with_reducible apply kept_State_at
    | with_reducible apply kept_phaseOp | with_reducible apply kept_note | with_reducible apply kept_dropGen
    | with_reducible apply kept_endOp | with_reducible apply kept_ite | split | dsimp only | with_reducible exact Kept.refl _

theorem kept_bodyTablesetQuery {x0 : Moment} {x1 : Req} {x2 : State} (h2 : Kept s0 x2) : Kept s0 (bodyTablesetQuery x0 x1 x2).st := by
  unfold bodyTablesetQuery
  repeat' first
    | with_reducible assumption | intro _ | (simp only [kept_mk]; with_reducible apply keptC_upd)
    | with_reducible apply kept_reply_ok | with_reducible apply kept_reply_err | split | dsimp only
    | with_reducible exact Kept.refl _

theorem kept_execTablesetQuery {x0 : Moment} {x1 : Req} {x2 : State} (h2 : Kept s0 x2) : KeptOut s0 (execTablesetQuery x0 x1 x2) := by
  unfold execTablesetQuery
  repeat' first
    | with_reducible assumption | with_reducible apply keptOut_next | with_reducible apply kept_runCommand
    | with_reducible apply kept_bodyTablesetQuery | dsimp only | with_reducible exact Kept.refl _

theorem kept_bodyShearCut {x0 : Moment} {x1 : Req} {x2 : State} (h2 : Kept s0 x2) : Kept s0 (bodyShearCut x0 x1 x2).st := by
  unfold bodyShearCut
  repeat' first
    | with_reducible assumption | intro _ | (simp only [kept_mk]; with_reducible apply keptC_upd)
    | with_reducible apply kept_reply_ok | with_reducible apply kept_reply_err | with_reducible apply kept_reply_wait
    | with_reducible apply kept_ite_st | with_reducible apply kept_bumpFree | with_reducible apply kept_Reply_err
    | with_reducible apply kept_ite | split | dsimp only | with_reducible exact Kept.refl _

theorem kept_execShearCut {x0 : Moment} {x1 : Req} {x2 : State} (h2 : Kept s0 x2) : KeptOut s0 (execShearCut x0 x1 x2) := by
  unfold execShearCut
  repeat' first
    | with_reducible assumption | with_reducible apply keptOut_next | with_reducible apply kept_runCommand
    | with_reducible apply kept_bodyShearCut | dsimp only | with_reducible exact Kept.refl _

theorem kept_bodySolderRender {x0 : Moment} {x1 : Req} {x2 : State} (h2 : Kept s0 x2) : Kept s0 (bodySolderRender x0 x1 x2).st := by
  unfold bodySolderRender
  repeat' first
    | with_reducible assumption | intro _ | (simp only [kept_mk]; with_reducible apply keptC_upd)
    | with_reducible apply kept_reply_ok | with_reducible apply kept_reply_err | with_reducible apply kept_reply_wait
    | with_reducible apply kept_ite_st | with_reducible apply kept_bumpFree | with_reducible apply kept_Reply_err
    | with_reducible apply kept_ite | with_reducible apply kept_getD | split | dsimp only | with_reducible exact Kept.refl _

theorem kept_execSolderRender {x0 : Moment} {x1 : Req} {x2 : State} (h2 : Kept s0 x2) : KeptOut s0 (execSolderRender x0 x1 x2) := by
  unfold execSolderRender
  repeat' first
    | with_reducible assumption | with_reducible apply keptOut_next | with_reducible apply kept_runCommand
    | with_reducible apply kept_bodySolderRender | dsimp only | with_reducible exact Kept.refl _

end Sys2Proof.Machine
end

