-- ==== Sys2Proof/Laws/KeptModels.lean ====
section
/-! SUPPORT. What the definitions of Sys2Proof/Machine/Models.lean keep. -/

set_option linter.unusedSimpArgs false

namespace Sys2Proof.Machine

variable {s0 : State}

theorem kept_placeObjs {x0 : Nat} {x1 : Nat} {x2 : Nat} {x3 : List Md.Obj} {x4 : State} (h4 : Kept s0 x4) : KeptO s0 (placeObjs x0 x1 x2 x3 x4) := by
  induction x3 generalizing x0 x1 x2 x4 with
  | nil =>
    unfold placeObjs
    repeat' first
      | with_reducible assumption | intro _ | (simp only [kept_mk]; with_reducible apply keptC_upd)
      | with_reducible apply kept_setModel | with_reducible apply kept_ite | with_reducible apply keptO_ite
      | with_reducible exact kept_of_hypO ‹_› | with_reducible apply keptO_some | with_reducible apply keptO_none | split
      | dsimp only | with_reducible exact Kept.refl _
  | cons a t ih =>
    unfold placeObjs
    repeat' first
      | with_reducible apply ih
      | with_reducible assumption | intro _ | (simp only [kept_mk]; with_reducible apply keptC_upd)
      | with_reducible apply kept_setModel | with_reducible apply kept_ite | with_reducible apply keptO_ite
      | with_reducible exact kept_of_hypO ‹_› | with_reducible apply keptO_some | with_reducible apply keptO_none | split
      | dsimp only | with_reducible exact Kept.refl _

theorem kept_bodyModelLoad {x0 : Moment} {x1 : Req} {x2 : State} (h2 : Kept s0 x2) : Kept s0 (bodyModelLoad x0 x1 x2).st := by
  unfold bodyModelLoad
  repeat' first
    | with_reducible assumption | intro _ | (simp only [kept_mk]; with_reducible apply keptC_upd)
    | with_reducible apply kept_reply_ok | with_reducible apply kept_reply_err | with_reducible apply kept_ite_st
    | with_reducible apply kept_withData | with_reducible apply kept_placeObjs | with_reducible apply kept_setModel
    | with_reducible apply kept_asOp | with_reducible apply kept_State_at | with_reducible apply kept_ite
    | with_reducible refine kept_of_some (by assumption) ?_ | split | dsimp only | with_reducible exact Kept.refl _

theorem kept_execModelLoad {x0 : Moment} {x1 : Req} {x2 : State} (h2 : Kept s0 x2) : KeptOut s0 (execModelLoad x0 x1 x2) := by
  unfold execModelLoad
  repeat' first
    | with_reducible assumption | with_reducible apply keptOut_next | with_reducible apply kept_runCommand
    | with_reducible apply kept_bodyModelLoad | dsimp only | with_reducible exact Kept.refl _

theorem kept_failLoad {x0 : Nat} {x1 : State} (h1 : Kept s0 x1) : Kept s0 (failLoad x0 x1) := by
  unfold failLoad
  repeat' first
    | with_reducible assumption | intro _ | (simp only [kept_mk]; with_reducible apply keptC_upd)
    | with_reducible apply kept_setModel | with_reducible apply kept_ite | dsimp only | with_reducible exact Kept.refl _

theorem kept_writeObjs {x0 : Bytes} {x1 : List (Md.Obj × WeightObj)} {x2 : State} (h2 : Kept s0 x2) : Kept s0 (writeObjs x0 x1 x2) := by
  unfold writeObjs
  repeat' first
    | with_reducible assumption | intro _ | with_reducible apply kept_devWrite | with_reducible apply kept_foldl
    | with_reducible apply kept_foldl_snd | with_reducible apply kept_foldl_fst | dsimp only | with_reducible exact Kept.refl _

theorem kept_modelReady {x0 : Nat} {x1 : State} (h1 : Kept s0 x1) : Kept s0 (modelReady x0 x1) := by
  unfold modelReady
  repeat' first
    | with_reducible assumption | intro _ | (simp only [kept_mk]; with_reducible apply keptC_upd)
    | with_reducible apply kept_ite | dsimp only | with_reducible exact Kept.refl _

theorem kept_modelLoadComplete {x0 : Nat} {x1 : Bool} {x2 : State} (h2 : Kept s0 x2) : Kept s0 (modelLoadComplete x0 x1 x2) := by
  unfold modelLoadComplete
  repeat' first
    | with_reducible assumption | intro _ | (simp only [kept_mk]; with_reducible apply keptC_upd)
    | with_reducible apply kept_reply_ok | with_reducible apply kept_reply_err | with_reducible apply kept_reply_wait
    | with_reducible apply kept_ite_st | with_reducible apply kept_logEvent | with_reducible apply kept_setModel
    | with_reducible apply kept_endOp | with_reducible apply kept_endSgFault | with_reducible apply kept_writeObjs
    | with_reducible apply kept_failLoad | with_reducible apply kept_sigRejected | with_reducible apply kept_modelReady
    | with_reducible apply kept_ite | split | dsimp only | with_reducible exact Kept.refl _

theorem kept_endModelLoad {x0 : Nat} {x1 : LongOp} {x2 : State} (h2 : Kept s0 x2) : Kept s0 (endModelLoad x0 x1 x2) := by
  unfold endModelLoad
  repeat' first
    | with_reducible assumption | intro _ | with_reducible apply kept_failLoad | with_reducible apply kept_endOp
    | with_reducible apply kept_ite | with_reducible apply kept_getD | dsimp only | with_reducible exact Kept.refl _

theorem kept_bodyModelUnload {x0 : Moment} {x1 : Req} {x2 : State} (h2 : Kept s0 x2) : Kept s0 (bodyModelUnload x0 x1 x2).st := by
  unfold bodyModelUnload
  repeat' first
    | with_reducible assumption | intro _ | (simp only [kept_mk]; with_reducible apply keptC_upd)
    | with_reducible apply kept_reply_ok | with_reducible apply kept_reply_err | with_reducible apply kept_ite_st
    | with_reducible apply kept_asOp | with_reducible apply kept_purgeNodes | with_reducible apply kept_setModel
    | with_reducible apply kept_ite | with_reducible refine kept_of_snd (by assumption) ?_ | split | dsimp only
    | with_reducible exact Kept.refl _

theorem kept_execModelUnload {x0 : Moment} {x1 : Req} {x2 : State} (h2 : Kept s0 x2) : KeptOut s0 (execModelUnload x0 x1 x2) := by
  unfold execModelUnload
  repeat' first
    | with_reducible assumption | with_reducible apply keptOut_next | with_reducible apply kept_runCommand
    | with_reducible apply kept_bodyModelUnload | dsimp only | with_reducible exact Kept.refl _

theorem kept_execModelUnloadComplete {x0 : Moment} {x1 : Nat} {x2 : State} (h2 : Kept s0 x2) : KeptOut s0 (execModelUnloadComplete x0 x1 x2) := by
  unfold execModelUnloadComplete
  repeat' first
    | with_reducible assumption | intro _ | (simp only [kept_mk]; with_reducible apply keptC_upd)
    | with_reducible apply keptOut_next | with_reducible apply keptOut_ite | with_reducible apply kept_State_at
    | with_reducible apply kept_endOp | with_reducible apply kept_ite | dsimp only | with_reducible exact Kept.refl _

theorem kept_bodyModelQuery {x0 : Moment} {x1 : Req} {x2 : State} (h2 : Kept s0 x2) : Kept s0 (bodyModelQuery x0 x1 x2).st := by
  unfold bodyModelQuery
  repeat' first
    | with_reducible assumption | intro _ | with_reducible apply kept_reply_ok | with_reducible apply kept_reply_err
    | with_reducible apply kept_ite_st | with_reducible apply kept_ite | dsimp only | with_reducible exact Kept.refl _

theorem kept_execModelQuery {x0 : Moment} {x1 : Req} {x2 : State} (h2 : Kept s0 x2) : KeptOut s0 (execModelQuery x0 x1 x2) := by
  unfold execModelQuery
  repeat' first
    | with_reducible assumption | with_reducible apply keptOut_next | with_reducible apply kept_runCommand
    | with_reducible apply kept_bodyModelQuery | dsimp only | with_reducible exact Kept.refl _

theorem kept_bodyModelPlace {x0 : Moment} {x1 : Req} {x2 : State} (h2 : Kept s0 x2) : Kept s0 (bodyModelPlace x0 x1 x2).st := by
  unfold bodyModelPlace
  repeat' first
    | with_reducible assumption | intro _ | (simp only [kept_mk]; with_reducible apply keptC_upd)
    | with_reducible apply kept_reply_ok | with_reducible apply kept_reply_err | with_reducible apply kept_ite_st
    | with_reducible apply kept_asOp | with_reducible apply kept_setModel | with_reducible apply kept_ite | split | dsimp only
    | with_reducible exact Kept.refl _

theorem kept_execModelPlace {x0 : Moment} {x1 : Req} {x2 : State} (h2 : Kept s0 x2) : KeptOut s0 (execModelPlace x0 x1 x2) := by
  unfold execModelPlace
  repeat' first
    | with_reducible assumption | with_reducible apply keptOut_next | with_reducible apply kept_runCommand
    | with_reducible apply kept_bodyModelPlace | dsimp only | with_reducible exact Kept.refl _

theorem kept_pruneOld {x0 : Nat} {x1 : State} (h1 : Kept s0 x1) : Kept s0 (pruneOld x0 x1) := by
  unfold pruneOld
  repeat' first
    | with_reducible assumption | intro _ | (simp only [kept_mk]; with_reducible apply keptC_upd)
    | with_reducible apply kept_setModel | dsimp only | with_reducible exact Kept.refl _

theorem kept_endModelPlace {x0 : Nat} {x1 : LongOp} {x2 : State} (h2 : Kept s0 x2) : Kept s0 (endModelPlace x0 x1 x2) := by
  unfold endModelPlace
  repeat' first
    | with_reducible assumption | intro _ | (simp only [kept_mk]; with_reducible apply keptC_upd)
    | with_reducible apply kept_endOp | with_reducible apply kept_setModel | with_reducible apply kept_devWrite
    | with_reducible apply kept_pruneOld | with_reducible apply kept_ite | with_reducible apply kept_getD | split | dsimp only
    | with_reducible exact Kept.refl _

theorem kept_bodyAttConfig {x0 : Moment} {x1 : Req} {x2 : State} (h2 : Kept s0 x2) : Kept s0 (bodyAttConfig x0 x1 x2).st := by
  unfold bodyAttConfig
  repeat' first
    | with_reducible assumption | intro _ | (simp only [kept_mk]; with_reducible apply keptC_upd)
    | with_reducible apply kept_reply_ok | with_reducible apply kept_reply_err | with_reducible apply kept_ite_st
    | with_reducible apply kept_ite | dsimp only | with_reducible exact Kept.refl _

theorem kept_execAttConfig {x0 : Moment} {x1 : Req} {x2 : State} (h2 : Kept s0 x2) : KeptOut s0 (execAttConfig x0 x1 x2) := by
  unfold execAttConfig
  repeat' first
    | with_reducible assumption | with_reducible apply keptOut_next | with_reducible apply kept_runCommand
    | with_reducible apply kept_bodyAttConfig | dsimp only | with_reducible exact Kept.refl _

theorem kept_dropInv {x0 : Nat} {x1 : State} (h1 : Kept s0 x1) : Kept s0 (dropInv x0 x1) := by
  unfold dropInv
  repeat' first
    | with_reducible assumption | intro _ | (simp only [kept_mk]; with_reducible apply keptC_upd)
    | with_reducible apply kept_lateFrames | with_reducible apply kept_pruneOld | split | dsimp only
    | with_reducible exact Kept.refl _

theorem kept_releaseRow {x0 : Nat} {x1 : Nat} {x2 : State} (h2 : Kept s0 x2) : Kept s0 (releaseRow x0 x1 x2) := by
  unfold releaseRow
  repeat' first
    | with_reducible assumption | intro _ | (simp only [kept_mk]; with_reducible apply keptC_upd)
    | with_reducible apply kept_modSess | with_reducible apply kept_spillRecs | with_reducible apply kept_ite | split
    | dsimp only | with_reducible exact Kept.refl _

theorem kept_countFault {x0 : Nat} {x1 : Nat} {x2 : State} (h2 : Kept s0 x2) : Kept s0 (countFault x0 x1 x2) := by
  unfold countFault
  repeat' first
    | with_reducible assumption | intro _ | (simp only [kept_mk]; with_reducible apply keptC_upd)
    | with_reducible apply kept_setModel | with_reducible apply kept_note | with_reducible apply kept_ite | dsimp only
    | with_reducible exact Kept.refl _

theorem kept_invFault {x0 : Nat} {x1 : Nat} {x2 : Nat} {x3 : State} (h3 : Kept s0 x3) : Kept s0 (invFault x0 x1 x2 x3) := by
  unfold invFault
  repeat' first
    | with_reducible assumption | intro _ | (simp only [kept_mk]; with_reducible apply keptC_upd)
    | with_reducible apply kept_releaseRow | with_reducible apply kept_dropInv | with_reducible apply kept_bump
    | with_reducible apply kept_countFault | with_reducible apply kept_note | with_reducible apply kept_foldl
    | with_reducible apply kept_foldl_snd | split | dsimp only | with_reducible exact Kept.refl _

end Sys2Proof.Machine
end

