-- ==== Sys2Proof/Laws/KeptAttention.lean ====
section
/-! SUPPORT. What the definitions of Sys2Proof/Machine/Attention.lean keep. -/

set_option linter.unusedSimpArgs false

namespace Sys2Proof.Machine

variable {s0 : State}

theorem kept_putVec {x0 : Bool} {x1 : Nat} {x2 : Nat} {x3 : ModelHdr} {x4 : Nat} {x5 : Nat} {x6 : Nat} {x7 : Nat} {x8 : Bytes} {x9 : State} (h9 : Kept s0 x9) : Kept s0 (putVec x0 x1 x2 x3 x4 x5 x6 x7 x8 x9) := by
  unfold putVec
  repeat' first
    | with_reducible assumption | intro _ | with_reducible apply kept_devWrite | with_reducible apply kept_ite | dsimp only
    | with_reducible exact Kept.refl _

theorem kept_modInv {x0 : Nat} {x1 : Invocation → Invocation} {x2 : State} (h2 : Kept s0 x2) : Kept s0 (modInv x0 x1 x2) := by
  unfold modInv
  repeat' first
    | with_reducible assumption | (simp only [kept_mk]; with_reducible apply keptC_upd) | dsimp only
    | with_reducible exact Kept.refl _

theorem kept_putCell {x0 : Nat} {x1 : CtxCell} {x2 : State} (h2 : Kept s0 x2) : Kept s0 (putCell x0 x1 x2) := by
  unfold putCell
  repeat' first
    | with_reducible assumption | intro _ | (simp only [kept_mk]; with_reducible apply keptC_upd)
    | with_reducible apply kept_modInv | split | dsimp only | with_reducible exact Kept.refl _

theorem kept_putOperand {x0 : Nat} {x1 : ModelHdr} {x2 : AttDesc} {x3 : List AttIn} {x4 : Nat} {x5 : Nat} {x6 : Nat} {x7 : State} (h7 : Kept s0 x7) : Kept s0 (putOperand x0 x1 x2 x3 x4 x5 x6 x7) := by
  unfold putOperand
  repeat' first
    | with_reducible assumption | intro _
    | (simp only [kept_mk]; first | with_reducible apply keptC_upd | with_reducible apply keptC_clear | refine keptC_updHmk ?_ (by first | exact Nat.le_refl _ | exact Nat.le_add_right _ _ | omega) (by exact Nat.le_refl _) (by rfl))
    | with_reducible apply kept_putCell | with_reducible apply keptO_some | with_reducible apply keptO_none
    | with_reducible apply keptO_ite | with_reducible apply keptO_obindS | with_reducible apply keptO_obind
    | with_reducible apply keptO_map | with_reducible apply keptO_bind | with_reducible apply kept_foldl
    | with_reducible apply kept_foldl_snd | with_reducible apply kept_foldl_fst | with_reducible apply keptO_foldl
    | with_reducible apply keptP_foldl | with_reducible apply keptE_foldl | with_reducible apply keptEP_foldl
    | with_reducible apply kept_getD | with_reducible exact kept_of_hypO ‹_› | with_reducible exact kept_of_hypP ‹_›
    | with_reducible exact kept_of_hypE ‹_› | with_reducible exact kept_of_hypEP ‹_›
    | with_reducible refine kept_of_some (by assumption) ?_ | with_reducible refine kept_of_someP (by assumption) ?_
    | with_reducible refine kept_of_ok (by assumption) ?_ | with_reducible refine kept_of_okP (by assumption) ?_
    | with_reducible refine kept_of_error (by assumption) ?_ | with_reducible refine kept_of_snd (by assumption) ?_
    | with_reducible refine kept_of_fst (by assumption) ?_ | with_reducible refine kept_of_snd2 (by assumption) ?_
    | with_reducible refine kept_of_snd3 (by assumption) ?_ | with_reducible apply keptE_ebind
    | with_reducible apply keptE_ebindP | with_reducible apply keptEP_ebind | with_reducible apply keptEP_ebindP | split
    | dsimp only | with_reducible exact Kept.refl _

theorem kept_writeKv {x0 : Nat} {x1 : Bool} {x2 : ModelHdr} {x3 : AttDesc} {x4 : Nat} {x5 : Nat} {x6 : Nat} {x7 : Nat} {x8 : State} (h8 : Kept s0 x8) : Kept s0 (writeKv x0 x1 x2 x3 x4 x5 x6 x7 x8) := by
  unfold writeKv
  repeat' first
    | with_reducible assumption | intro _ | (simp only [kept_mk]; with_reducible apply keptC_upd)
    | with_reducible apply kept_putVec | with_reducible apply kept_foldl | with_reducible apply kept_foldl_snd
    | with_reducible apply kept_foldl_fst | with_reducible apply keptO_foldl | with_reducible apply keptP_foldl
    | with_reducible apply keptE_foldl | with_reducible apply keptEP_foldl | split | dsimp only
    | with_reducible exact Kept.refl _

theorem kept_noteAttNan {x0 : Nat} {x1 : Nat} {x2 : List Nat} {x3 : State} (h3 : Kept s0 x3) : Kept s0 (noteAttNan x0 x1 x2 x3) := by
  unfold noteAttNan
  repeat' first
    | with_reducible assumption | intro _ | (simp only [kept_mk]; with_reducible apply keptC_upd)
    | with_reducible apply kept_note | with_reducible apply kept_ite | with_reducible apply kept_getD | split | dsimp only
    | with_reducible exact Kept.refl _

theorem kept_attRound {x0 : Nat} {x1 : ModelHdr} {x2 : AttDesc} {x3 : Bool} {x4 : Nat} {x5 : Nat} {x6 : Nat} {x7 : List PlateRow} {x8 : State} (h8 : Kept s0 x8) : Kept s0 (attRound x0 x1 x2 x3 x4 x5 x6 x7 x8) := by
  unfold attRound
  repeat' first
    | with_reducible assumption | intro _
    | (simp only [kept_mk]; first | with_reducible apply keptC_upd | with_reducible apply keptC_clear | refine keptC_updHmk ?_ (by first | exact Nat.le_refl _ | exact Nat.le_add_right _ _ | omega) (by exact Nat.le_refl _) (by rfl))
    | with_reducible apply kept_bump | with_reducible apply kept_noteAttNan | with_reducible apply kept_putCell
    | with_reducible apply keptO_some | with_reducible apply keptO_none | with_reducible apply keptO_ite
    | with_reducible apply keptO_obindS | with_reducible apply keptO_obind | with_reducible apply keptO_map
    | with_reducible apply keptO_bind | with_reducible apply kept_ite | with_reducible apply kept_ite_snd
    | with_reducible apply kept_foldl | with_reducible apply kept_foldl_snd | with_reducible apply kept_foldl_fst
    | with_reducible apply keptO_foldl | with_reducible apply keptP_foldl | with_reducible apply keptE_foldl
    | with_reducible apply keptEP_foldl | with_reducible apply kept_getD | with_reducible exact kept_of_hypO ‹_›
    | with_reducible exact kept_of_hypP ‹_› | with_reducible exact kept_of_hypE ‹_› | with_reducible exact kept_of_hypEP ‹_›
    | with_reducible refine kept_of_some (by assumption) ?_ | with_reducible refine kept_of_someP (by assumption) ?_
    | with_reducible refine kept_of_ok (by assumption) ?_ | with_reducible refine kept_of_okP (by assumption) ?_
    | with_reducible refine kept_of_error (by assumption) ?_ | with_reducible refine kept_of_snd (by assumption) ?_
    | with_reducible refine kept_of_fst (by assumption) ?_ | with_reducible refine kept_of_snd2 (by assumption) ?_
    | with_reducible refine kept_of_snd3 (by assumption) ?_ | split | dsimp only | with_reducible exact Kept.refl _

theorem kept_releasePlate {x0 : Nat} {x1 : Invocation} {x2 : State} (h2 : Kept s0 x2) : Kept s0 (releasePlate x0 x1 x2) := by
  unfold releasePlate
  repeat' first
    | with_reducible assumption | intro _ | (simp only [kept_mk]; with_reducible apply keptC_upd)
    | with_reducible apply kept_foldl | with_reducible apply kept_foldl_snd | with_reducible apply kept_foldl_fst
    | with_reducible apply keptO_foldl | with_reducible apply keptP_foldl | with_reducible apply keptE_foldl
    | with_reducible apply keptEP_foldl | split | dsimp only | with_reducible exact Kept.refl _

theorem kept_takePlate {x0 : Invocation} {x1 : State} (h1 : Kept s0 x1) : Kept s0 (takePlate x0 x1) := by
  unfold takePlate
  repeat' first
    | with_reducible assumption | intro _ | (simp only [kept_mk]; with_reducible apply keptC_upd)
    | with_reducible apply kept_foldl | with_reducible apply kept_foldl_snd | with_reducible apply kept_foldl_fst
    | with_reducible apply keptO_foldl | with_reducible apply keptP_foldl | with_reducible apply keptE_foldl
    | with_reducible apply keptEP_foldl | split | dsimp only | with_reducible exact Kept.refl _

theorem kept_attLayer {x0 : Nat} {x1 : Invocation} {x2 : List AttIn} {x3 : Nat} {x4 : State} (h4 : Kept s0 x4) : Kept s0 (attLayer x0 x1 x2 x3 x4) := by
  unfold attLayer
  repeat' first
    | with_reducible assumption | intro _ | (simp only [kept_mk]; with_reducible apply keptC_upd)
    | with_reducible apply kept_bump | with_reducible apply kept_attRound | with_reducible apply kept_writeKv
    | with_reducible apply kept_releasePlate | with_reducible apply kept_takePlate | with_reducible apply kept_putOperand
    | with_reducible apply kept_foldl | with_reducible apply kept_foldl_snd | with_reducible apply kept_foldl_fst
    | with_reducible apply keptO_foldl | with_reducible apply keptP_foldl | with_reducible apply keptE_foldl
    | with_reducible apply keptEP_foldl | with_reducible apply kept_getD | split | dsimp only
    | with_reducible exact Kept.refl _

theorem kept_attGroup {x0 : Nat} {x1 : Invocation} {x2 : List AttIn} {x3 : State} (h3 : Kept s0 x3) : Kept s0 (attGroup x0 x1 x2 x3) := by
  unfold attGroup
  repeat' first
    | with_reducible assumption | intro _ | with_reducible apply kept_attLayer | with_reducible apply kept_foldl
    | with_reducible apply kept_foldl_snd | dsimp only | with_reducible exact Kept.refl _

theorem kept_noteSat {x0 : Nat} {x1 : Nat} {x2 : State} (h2 : Kept s0 x2) : Kept s0 (noteSat x0 x1 x2) := by
  unfold noteSat
  repeat' first
    | with_reducible assumption | intro _ | (simp only [kept_mk]; with_reducible apply keptC_upd)
    | with_reducible apply kept_note | with_reducible apply kept_ite | split | dsimp only | with_reducible exact Kept.refl _

theorem kept_layerOp {x0 : Nat} {x1 : Invocation} {x2 : LayerOp} {x3 : State} (h3 : Kept s0 x3) : Kept s0 (layerOp x0 x1 x2 x3) := by
  unfold layerOp
  repeat' first
    | with_reducible assumption | intro _
    | (simp only [kept_mk]; first | with_reducible apply keptC_upd | with_reducible apply keptC_clear | refine keptC_updHmk ?_ (by first | exact Nat.le_refl _ | exact Nat.le_add_right _ _ | omega) (by exact Nat.le_refl _) (by rfl))
    | with_reducible apply kept_bump | with_reducible apply kept_putCell | with_reducible apply kept_noteSat
    | with_reducible apply keptO_some | with_reducible apply keptO_none | with_reducible apply keptO_ite
    | with_reducible apply keptO_obindS | with_reducible apply keptO_obind | with_reducible apply keptO_map
    | with_reducible apply keptO_bind | with_reducible apply kept_foldl | with_reducible apply kept_foldl_snd
    | with_reducible apply kept_foldl_fst | with_reducible apply keptO_foldl | with_reducible apply keptP_foldl
    | with_reducible apply keptE_foldl | with_reducible apply keptEP_foldl | with_reducible apply kept_getD
    | with_reducible exact kept_of_hypO ‹_› | with_reducible exact kept_of_hypP ‹_› | with_reducible exact kept_of_hypE ‹_›
    | with_reducible exact kept_of_hypEP ‹_› | with_reducible refine kept_of_some (by assumption) ?_
    | with_reducible refine kept_of_someP (by assumption) ?_ | with_reducible refine kept_of_ok (by assumption) ?_
    | with_reducible refine kept_of_okP (by assumption) ?_ | with_reducible refine kept_of_error (by assumption) ?_
    | with_reducible refine kept_of_snd (by assumption) ?_ | with_reducible refine kept_of_fst (by assumption) ?_
    | with_reducible refine kept_of_snd2 (by assumption) ?_ | with_reducible refine kept_of_snd3 (by assumption) ?_ | split
    | dsimp only | with_reducible exact Kept.refl _

end Sys2Proof.Machine
end

