-- ==== Sys2Proof/Laws/KeptEnds.lean ====
section
/-! SUPPORT. What the ends of work requests, of sealed messages and of a packet's checks keep. -/

namespace Sys2Proof.Machine

variable {s0 : State}

/-- What the end of a work request keeps. -/
structure KeptW (s0 : State) (w : WrEnd) : Prop where
  done : ∀ t, w = .done t → Kept s0 t
  failed : ∀ a t, w = .failed a t → Kept s0 t

/-- What firing a sealed message keeps. -/
structure KeptF (s0 : State) (w : Fired) : Prop where
  applied : ∀ t, w = .applied t → Kept s0 t
  nak : ∀ a b c t, w = .nak a b c t → Kept s0 t

/-- What a packet's checks keep. -/
structure KeptG (s0 : State) (w : Checked) : Prop where
  stop : ∀ t, w = .stop t → Kept s0 t

theorem keptW_done {t : State} (h : Kept s0 t) : KeptW s0 (.done t) := ⟨fun _ e => (by cases e; exact h), fun _ _ e => by cases e⟩
theorem keptW_failed {a : Nat} {t : State} (h : Kept s0 t) : KeptW s0 (.failed a t) :=
  ⟨fun _ e => (by cases e), fun _ _ e => by cases e; exact h⟩
theorem keptW_ite {p : Prop} [Decidable p] {a b : WrEnd} (ha : p → KeptW s0 a) (hb : ¬p → KeptW s0 b) :
    KeptW s0 (if p then a else b) := by split <;> simp_all
theorem kept_of_done {w : WrEnd} {t : State} (e : w = .done t) (h : KeptW s0 w) : Kept s0 t := h.done t e
theorem kept_of_failed {w : WrEnd} {a : Nat} {t : State} (e : w = .failed a t) (h : KeptW s0 w) : Kept s0 t := h.failed a t e

theorem keptF_applied {t : State} (h : Kept s0 t) : KeptF s0 (.applied t) :=
  ⟨fun _ e => (by cases e; exact h), fun _ _ _ _ e => by cases e⟩
theorem keptF_nak {a b c : Nat} {t : State} (h : Kept s0 t) : KeptF s0 (.nak a b c t) :=
  ⟨fun _ e => (by cases e), fun _ _ _ _ e => by cases e; exact h⟩
theorem keptF_ite {p : Prop} [Decidable p] {a b : Fired} (ha : p → KeptF s0 a) (hb : ¬p → KeptF s0 b) :
    KeptF s0 (if p then a else b) := by split <;> simp_all
theorem kept_of_applied {w : Fired} {t : State} (e : w = .applied t) (h : KeptF s0 w) : Kept s0 t := h.applied t e
theorem kept_of_nak {w : Fired} {a b c : Nat} {t : State} (e : w = .nak a b c t) (h : KeptF s0 w) : Kept s0 t := h.nak a b c t e

theorem keptG_stop {t : State} (h : Kept s0 t) : KeptG s0 (.stop t) := ⟨fun _ e => by cases e; exact h⟩
theorem keptG_pass {p : Pkt} : KeptG s0 (.pass p) := ⟨fun _ e => by cases e⟩
theorem keptG_ite {p : Prop} [Decidable p] {a b : Checked} (ha : p → KeptG s0 a) (hb : ¬p → KeptG s0 b) :
    KeptG s0 (if p then a else b) := by split <;> simp_all
theorem kept_of_stop {w : Checked} {t : State} (e : w = .stop t) (h : KeptG s0 w) : Kept s0 t := h.stop t e

end Sys2Proof.Machine
end

