-- ==== Sys2Proof/Laws/KeptMailboxes.lean ====
section
/-! SUPPORT. What the definitions of Sys2Proof/Machine/Mailboxes.lean keep. -/

set_option linter.unusedSimpArgs false

namespace Sys2Proof.Machine

variable {s0 : State}

theorem kept_ownWrite {x0 : Nat} {x1 : Nat} {x2 : Nat} {x3 : State} (h3 : Kept s0 x3) : Kept s0 (ownWrite x0 x1 x2 x3) := by
  unfold ownWrite
  repeat' first
    | with_reducible assumption | intro _
    | (simp only [kept_mk]; first | with_reducible apply keptC_upd | refine keptC_updHmk ?_ (by first | exact Nat.le_refl _ | exact Nat.le_add_right _ _ | omega) (by exact Nat.le_refl _) (by rfl))
    | with_reducible apply kept_setMbx | with_reducible apply kept_setFn | with_reducible apply kept_violation
    | with_reducible apply kept_ite | dsimp only | with_reducible exact Kept.refl _

theorem kept_execMbxPost {x0 : Moment} {x1 : Nat} {x2 : Nat} {x3 : State} (h3 : Kept s0 x3) : KeptOut s0 (execMbxPost x0 x1 x2 x3) := by
  unfold execMbxPost
  repeat' first
    | with_reducible assumption | with_reducible apply keptOut_next | with_reducible apply kept_hostAccess
    | with_reducible apply kept_ownWrite | with_reducible apply kept_State_at | dsimp only | with_reducible exact Kept.refl _

theorem kept_execMbxRelease {x0 : Moment} {x1 : Nat} {x2 : Nat} {x3 : State} (h3 : Kept s0 x3) : KeptOut s0 (execMbxRelease x0 x1 x2 x3) := by
  unfold execMbxRelease
  repeat' first
    | with_reducible assumption | with_reducible apply keptOut_next | with_reducible apply kept_hostAccess
    | with_reducible apply kept_ownWrite | with_reducible apply kept_State_at | dsimp only | with_reducible exact Kept.refl _

theorem kept_execMbxOwnInvalid {x0 : Moment} {x1 : Nat} {x2 : Nat} {x3 : Nat} {x4 : State} (h4 : Kept s0 x4) : KeptOut s0 (execMbxOwnInvalid x0 x1 x2 x3 x4) := by
  unfold execMbxOwnInvalid
  repeat' first
    | with_reducible assumption | with_reducible apply keptOut_next | with_reducible apply kept_hostAccess
    | with_reducible apply kept_ownWrite | with_reducible apply kept_State_at | dsimp only | with_reducible exact Kept.refl _

theorem kept_mbxWrite {x0 : Nat} {x1 : Nat} {x2 : Nat} {x3 : Bytes} {x4 : State} (h4 : Kept s0 x4) : Kept s0 (mbxWrite x0 x1 x2 x3 x4) := by
  unfold mbxWrite
  repeat' first
    | with_reducible assumption | intro _ | (simp only [kept_mk]; with_reducible apply keptC_upd)
    | with_reducible apply kept_setMbx | with_reducible apply kept_violation | with_reducible apply kept_ite | dsimp only
    | with_reducible exact Kept.refl _

theorem kept_execMbxLockedWrite {x0 : Moment} {x1 : Nat} {x2 : Nat} {x3 : Nat} {x4 : Nat} {x5 : State} (h5 : Kept s0 x5) : KeptOut s0 (execMbxLockedWrite x0 x1 x2 x3 x4 x5) := by
  unfold execMbxLockedWrite
  repeat' first
    | with_reducible assumption | with_reducible apply keptOut_next | with_reducible apply kept_hostAccess
    | with_reducible apply kept_mbxWrite | with_reducible apply kept_State_at | dsimp only | with_reducible exact Kept.refl _

theorem kept_msixUnmask {x0 : Nat} {x1 : Nat} {x2 : State} (h2 : Kept s0 x2) : Kept s0 (msixUnmask x0 x1 x2) := by
  unfold msixUnmask
  repeat' first
    | with_reducible assumption | intro _ | (simp only [kept_mk]; with_reducible apply keptC_upd)
    | with_reducible apply kept_setFn | with_reducible apply kept_emit | with_reducible apply kept_ite | dsimp only
    | with_reducible exact Kept.refl _

theorem kept_execMsixUnmask {x0 : Moment} {x1 : Nat} {x2 : Nat} {x3 : State} (h3 : Kept s0 x3) : KeptOut s0 (execMsixUnmask x0 x1 x2 x3) := by
  unfold execMsixUnmask
  repeat' first
    | with_reducible assumption | intro _ | with_reducible apply keptOut_next | with_reducible apply keptOut_ite
    | with_reducible apply kept_hostAccess | with_reducible apply kept_msixUnmask | with_reducible apply kept_State_at
    | with_reducible apply kept_ite | dsimp only | with_reducible exact Kept.refl _

theorem kept_execLongOpAccept {x0 : Moment} {x1 : Nat} {x2 : State} (h2 : Kept s0 x2) : KeptOut s0 (execLongOpAccept x0 x1 x2) := by
  unfold execLongOpAccept
  repeat' first
    | with_reducible assumption | with_reducible apply keptOut_next | with_reducible apply kept_acceptOp
    | with_reducible apply kept_State_at | dsimp only | with_reducible exact Kept.refl _

theorem kept_execProgressUpdate {x0 : Moment} {x1 : Nat} {x2 : Nat} {x3 : State} (h3 : Kept s0 x3) : KeptOut s0 (execProgressUpdate x0 x1 x2 x3) := by
  unfold execProgressUpdate
  repeat' first
    | with_reducible assumption | intro _ | (simp only [kept_mk]; with_reducible apply keptC_upd)
    | with_reducible apply keptOut_next | with_reducible apply keptOut_ite | with_reducible apply kept_State_at
    | with_reducible apply kept_progressOp | with_reducible apply kept_setOp | with_reducible apply kept_ite | split
    | dsimp only | with_reducible exact Kept.refl _

theorem kept_execProgressRetentionExpiry {x0 : Moment} {x1 : Nat} {x2 : State} (h2 : Kept s0 x2) : KeptOut s0 (execProgressRetentionExpiry x0 x1 x2) := by
  unfold execProgressRetentionExpiry
  repeat' first
    | with_reducible assumption | intro _ | (simp only [kept_mk]; with_reducible apply keptC_upd)
    | with_reducible apply keptOut_next | with_reducible apply keptOut_ite | with_reducible apply kept_State_at
    | with_reducible apply kept_ite | split | dsimp only | with_reducible exact Kept.refl _

theorem kept_evtConsWrite {x0 : Nat} {x1 : Nat} {x2 : State} (h2 : Kept s0 x2) : Kept s0 (evtConsWrite x0 x1 x2) := by
  unfold evtConsWrite
  repeat' first
    | with_reducible assumption | intro _ | (simp only [kept_mk]; with_reducible apply keptC_upd)
    | with_reducible apply kept_violation | with_reducible apply kept_tellOverflow | with_reducible apply kept_setFn
    | with_reducible apply kept_ite | dsimp only | with_reducible exact Kept.refl _

theorem kept_execEvtConsWrite {x0 : Moment} {x1 : Nat} {x2 : Nat} {x3 : State} (h3 : Kept s0 x3) : KeptOut s0 (execEvtConsWrite x0 x1 x2 x3) := by
  unfold execEvtConsWrite
  repeat' first
    | with_reducible assumption | intro _ | with_reducible apply keptOut_next | with_reducible apply keptOut_ite
    | with_reducible apply kept_hostAccess | with_reducible apply kept_evtConsWrite | with_reducible apply kept_State_at
    | with_reducible apply kept_ite | dsimp only | with_reducible exact Kept.refl _

end Sys2Proof.Machine
end

