-- ==== Sys2Proof/Laws/KeptSampling.lean ====
section
/-! SUPPORT. What the definitions of Sys2Proof/Machine/Sampling.lean keep. -/

set_option linter.unusedSimpArgs false

namespace Sys2Proof.Machine

variable {s0 : State}

theorem kept_atStep {x0 : Req} {x1 : Session} {x2 : State} {x3 : Reply} (h2 : Kept s0 x2) (h3 : Kept s0 x3.st) : Kept s0 (atStep x0 x1 x2 x3).st := by
  unfold atStep
  repeat' first
    | with_reducible assumption | intro _ | with_reducible apply kept_reply_wait | with_reducible apply kept_ite_st
    | with_reducible apply kept_addWaiting | with_reducible apply kept_ite | dsimp only | with_reducible exact Kept.refl _

theorem kept_inOrder {x0 : Req} {x1 : Session} {x2 : State} {x3 : Reply} (h2 : Kept s0 x2) (h3 : Kept s0 x3.st) : Kept s0 (inOrder x0 x1 x2 x3).st := by
  unfold inOrder
  repeat' first
    | with_reducible assumption | intro _ | (simp only [kept_mk]; with_reducible apply keptC_upd)
    | with_reducible apply kept_reply_ok | with_reducible apply kept_reply_err | with_reducible apply kept_reply_wait
    | with_reducible apply kept_ite_st | with_reducible apply kept_addWaiting | with_reducible apply kept_Reply_wait
    | with_reducible apply kept_ite | split | dsimp only | with_reducible exact Kept.refl _

theorem kept_finSetNow {x0 : Req} {x1 : Nat} {x2 : Nat} {x3 : State} (h3 : Kept s0 x3) : Kept s0 (finSetNow x0 x1 x2 x3).st := by
  unfold finSetNow
  repeat' first
    | with_reducible assumption | intro _ | (simp only [kept_mk]; with_reducible apply keptC_upd)
    | with_reducible apply kept_reply_ok | with_reducible apply kept_reply_err | with_reducible apply kept_ite_st
    | with_reducible apply kept_modStore | with_reducible apply kept_ite | dsimp only | with_reducible exact Kept.refl _

theorem kept_bodyFinSet {x0 : Moment} {x1 : Req} {x2 : State} (h2 : Kept s0 x2) : Kept s0 (bodyFinSet x0 x1 x2).st := by
  unfold bodyFinSet
  repeat' first
    | with_reducible assumption | intro _ | (simp only [kept_mk]; with_reducible apply keptC_upd)
    | with_reducible apply kept_reply_ok | with_reducible apply kept_reply_err | with_reducible apply kept_reply_wait
    | with_reducible apply kept_ite_st | with_reducible apply kept_onStore | with_reducible apply kept_atStep
    | with_reducible apply kept_finSetNow | with_reducible apply kept_Reply_err | with_reducible apply kept_ite | split
    | dsimp only | with_reducible exact Kept.refl _

theorem kept_bodyFinRead {x0 : Moment} {x1 : Req} {x2 : State} (h2 : Kept s0 x2) : Kept s0 (bodyFinRead x0 x1 x2).st := by
  unfold bodyFinRead
  repeat' first
    | with_reducible assumption | intro _ | (simp only [kept_mk]; with_reducible apply keptC_upd)
    | with_reducible apply kept_reply_ok | with_reducible apply kept_reply_err | with_reducible apply kept_reply_wait
    | with_reducible apply kept_ite_st | with_reducible apply kept_onStore | with_reducible apply kept_Reply_ok
    | with_reducible apply kept_Reply_err | with_reducible apply kept_ite | split | dsimp only
    | with_reducible exact Kept.refl _

theorem kept_execFinRead {x0 : Moment} {x1 : Req} {x2 : State} (h2 : Kept s0 x2) : KeptOut s0 (execFinRead x0 x1 x2) := by
  unfold execFinRead
  repeat' first
    | with_reducible assumption | with_reducible apply keptOut_next | with_reducible apply kept_runCommand
    | with_reducible apply kept_bodyFinRead | dsimp only | with_reducible exact Kept.refl _

theorem kept_bodyGrammarCheck {x0 : Moment} {x1 : Req} {x2 : State} (h2 : Kept s0 x2) : Kept s0 (bodyGrammarCheck x0 x1 x2).st := by
  unfold bodyGrammarCheck
  repeat' first
    | with_reducible assumption | intro _ | (simp only [kept_mk]; with_reducible apply keptC_upd)
    | with_reducible apply kept_reply_err | with_reducible apply kept_ite_st | with_reducible apply kept_ite
    | with_reducible apply kept_getD | split | dsimp only | with_reducible exact Kept.refl _

theorem kept_execGrammarCheck {x0 : Moment} {x1 : Req} {x2 : State} (h2 : Kept s0 x2) : KeptOut s0 (execGrammarCheck x0 x1 x2) := by
  unfold execGrammarCheck
  repeat' first
    | with_reducible assumption | with_reducible apply keptOut_next | with_reducible apply kept_runCommand
    | with_reducible apply kept_bodyGrammarCheck | dsimp only | with_reducible exact Kept.refl _

theorem kept_bodySpinDraw {x0 : Moment} {x1 : Req} {x2 : State} (h2 : Kept s0 x2) : Kept s0 (bodySpinDraw x0 x1 x2).st := by
  unfold bodySpinDraw
  repeat' first
    | with_reducible assumption | intro _ | with_reducible apply kept_reply_ok | with_reducible apply kept_reply_err
    | with_reducible apply kept_ite_st | with_reducible apply kept_ite | dsimp only | with_reducible exact Kept.refl _

theorem kept_execSpinDraw {x0 : Moment} {x1 : Req} {x2 : State} (h2 : Kept s0 x2) : KeptOut s0 (execSpinDraw x0 x1 x2) := by
  unfold execSpinDraw
  repeat' first
    | with_reducible assumption | with_reducible apply keptOut_next | with_reducible apply kept_runCommand
    | with_reducible apply kept_bodySpinDraw | dsimp only | with_reducible exact Kept.refl _

end Sys2Proof.Machine
end

