-- ==== Sys2Proof/Laws/KeptSend.lean ====
section
/-! SUPPORT. What the definitions of Sys2Proof/Machine/Send.lean keep. -/

set_option linter.unusedSimpArgs false

namespace Sys2Proof.Machine

variable {s0 : State}

theorem kept_setQp {x0 : Nat} {x1 : Qp} {x2 : State} (h2 : Kept s0 x2) : Kept s0 (setQp x0 x1 x2) := by
  unfold setQp
  repeat' first
    | with_reducible assumption | (simp only [kept_mk]; with_reducible apply keptC_upd) | dsimp only
    | with_reducible exact Kept.refl _

theorem kept_emitPkt {x0 : Pkt} {x1 : State} (h1 : Kept s0 x1) : Kept s0 (emitPkt x0 x1) := by
  unfold emitPkt
  repeat' first
    | with_reducible assumption | with_reducible apply kept_emit | dsimp only | with_reducible exact Kept.refl _

theorem kept_sendPkt {x0 : Nat} {x1 : Pkt} {x2 : Nat} {x3 : State} (h3 : Kept s0 x3) : Kept s0 (sendPkt x0 x1 x2 x3) := by
  unfold sendPkt
  repeat' first
    | with_reducible assumption | intro _ | (simp only [kept_mk]; with_reducible apply keptC_upd)
    | with_reducible apply kept_emitPkt | with_reducible apply kept_bump | with_reducible apply kept_setQp
    | with_reducible apply kept_ite | split | dsimp only | with_reducible exact Kept.refl _

theorem kept_openMsg {x0 : Nat} {x1 : TxMsg} {x2 : State} (h2 : Kept s0 x2) : Kept s0 (openMsg x0 x1 x2).2 := by
  unfold openMsg
  repeat' first
    | with_reducible assumption | (simp only [kept_mk]; with_reducible apply keptC_upd) | with_reducible apply kept_setQp
    | split | dsimp only | with_reducible exact Kept.refl _

theorem kept_closeMsg {x0 : Nat} {x1 : Nat} {x2 : Nat} {x3 : State} (h3 : Kept s0 x3) : Kept s0 (closeMsg x0 x1 x2 x3) := by
  unfold closeMsg
  repeat' first
    | with_reducible assumption | intro _ | (simp only [kept_mk]; with_reducible apply keptC_upd)
    | with_reducible apply kept_setQp | split | dsimp only | with_reducible exact Kept.refl _

theorem kept_gxWrite {x0 : Nat} {x1 : TxMsg} {x2 : Nat} {x3 : Nat} {x4 : Bytes} {x5 : Seal} {x6 : State} (h6 : Kept s0 x6) : KeptE s0 (gxWrite x0 x1 x2 x3 x4 x5 x6) := by
  unfold gxWrite
  repeat' first
    | with_reducible assumption | intro _ | (simp only [kept_mk]; with_reducible apply keptC_upd)
    | with_reducible apply kept_openMsg | with_reducible apply kept_sendPkt | with_reducible apply kept_closeMsg
    | with_reducible apply kept_ite | with_reducible apply keptE_ite | with_reducible exact kept_of_hypE ‹_›
    | with_reducible apply keptE_ok | with_reducible apply keptE_error | with_reducible apply kept_foldl
    | with_reducible apply kept_foldl_snd | with_reducible apply kept_foldl_fst
    | with_reducible refine kept_of_snd (by assumption) ?_ | split | dsimp only | with_reducible exact Kept.refl _

theorem kept_gxRead {x0 : Nat} {x1 : TxMsg} {x2 : Nat} {x3 : Nat} {x4 : Nat} {x5 : State} (h5 : Kept s0 x5) : KeptE s0 (gxRead x0 x1 x2 x3 x4 x5) := by
  unfold gxRead
  repeat' first
    | with_reducible assumption | (simp only [kept_mk]; with_reducible apply keptC_upd) | with_reducible apply kept_openMsg
    | with_reducible apply kept_closeMsg | with_reducible apply kept_sendPkt | with_reducible exact kept_of_hypE ‹_›
    | with_reducible apply keptE_ok | with_reducible apply keptE_error | with_reducible refine kept_of_snd (by assumption) ?_
    | split | dsimp only | with_reducible exact Kept.refl _

theorem kept_rcSend {x0 : Nat} {x1 : TxMsg} {x2 : Bool} {x3 : Nat} {x4 : Nat} {x5 : Bytes} {x6 : Option Nat} {x7 : State} (h7 : Kept s0 x7) : KeptE s0 (rcSend x0 x1 x2 x3 x4 x5 x6 x7) := by
  unfold rcSend
  repeat' first
    | with_reducible assumption | intro _ | (simp only [kept_mk]; with_reducible apply keptC_upd)
    | with_reducible apply kept_openMsg | with_reducible apply kept_sendPkt | with_reducible apply kept_closeMsg
    | with_reducible apply kept_ite | with_reducible apply keptE_ite | with_reducible exact kept_of_hypE ‹_›
    | with_reducible apply keptE_ok | with_reducible apply keptE_error | with_reducible apply kept_foldl
    | with_reducible apply kept_foldl_snd | with_reducible apply kept_getD | with_reducible apply kept_foldl_fst
    | with_reducible refine kept_of_snd (by assumption) ?_ | split | dsimp only | with_reducible exact Kept.refl _

theorem kept_rcRead {x0 : Nat} {x1 : TxMsg} {x2 : Nat} {x3 : Nat} {x4 : Nat} {x5 : State} (h5 : Kept s0 x5) : KeptE s0 (rcRead x0 x1 x2 x3 x4 x5) := by
  unfold rcRead
  repeat' first
    | with_reducible assumption | (simp only [kept_mk]; with_reducible apply keptC_upd) | with_reducible apply kept_openMsg
    | with_reducible apply kept_closeMsg | with_reducible apply kept_sendPkt | with_reducible exact kept_of_hypE ‹_›
    | with_reducible apply keptE_ok | with_reducible apply keptE_error | with_reducible refine kept_of_snd (by assumption) ?_
    | split | dsimp only | with_reducible exact Kept.refl _

theorem kept_rangeRead {x0 : Nat} {x1 : Nat} {x2 : Nat} {x3 : Nat} {x4 : TxOwner} {x5 : State} (h5 : Kept s0 x5) : KeptE s0 (rangeRead x0 x1 x2 x3 x4 x5) := by
  unfold rangeRead
  repeat' first
    | with_reducible assumption | (simp only [kept_mk]; with_reducible apply keptC_upd) | with_reducible apply kept_gxRead
    | with_reducible exact kept_of_hypE ‹_› | with_reducible apply keptE_error
    | with_reducible refine kept_of_ok (by assumption) ?_ | split | dsimp only | with_reducible exact Kept.refl _

theorem kept_rangeWrite {x0 : Nat} {x1 : Nat} {x2 : Nat} {x3 : Bytes} {x4 : TxOwner} {x5 : State} (h5 : Kept s0 x5) : KeptE s0 (rangeWrite x0 x1 x2 x3 x4 x5) := by
  unfold rangeWrite
  repeat' first
    | with_reducible assumption | (simp only [kept_mk]; with_reducible apply keptC_upd) | with_reducible apply kept_gxWrite
    | with_reducible exact kept_of_hypE ‹_› | with_reducible apply keptE_error
    | with_reducible refine kept_of_ok (by assumption) ?_ | split | dsimp only | with_reducible exact Kept.refl _

theorem kept_dropMsgs {x0 : TxOwner} {x1 : State} (h1 : Kept s0 x1) : Kept s0 (dropMsgs x0 x1) := by
  unfold dropMsgs
  repeat' first
    | with_reducible assumption | intro _ | (simp only [kept_mk]; with_reducible apply keptC_upd) | dsimp only
    | with_reducible exact Kept.refl _

theorem kept_nvmeIssue {x0 : Nat} {x1 : Nat} {x2 : Nat} {x3 : Nat} {x4 : Nat} {x5 : Bytes} {x6 : NvCmd} {x7 : State} (h7 : Kept s0 x7) : Kept s0 (nvmeIssue x0 x1 x2 x3 x4 x5 x6 x7) := by
  unfold nvmeIssue
  repeat' first
    | with_reducible assumption | (simp only [kept_mk]; with_reducible apply keptC_upd) | with_reducible apply kept_emit
    | dsimp only | with_reducible exact Kept.refl _

end Sys2Proof.Machine
end

