-- ==== Sys2Proof/Laws/KeptImages.lean ====
section
/-! SUPPORT. What the definitions of Sys2Proof/Machine/Images.lean keep. -/

set_option linter.unusedSimpArgs false

namespace Sys2Proof.Machine

variable {s0 : State}

theorem kept_buildTables {x0 : Moment} {x1 : Nat} {x2 : Nat} {x3 : State} (h3 : Kept s0 x3) : KeptE s0 (buildTables x0 x1 x2 x3) := by
  unfold buildTables
  repeat' first
    | with_reducible assumption | intro _ | (simp only [kept_mk]; with_reducible apply keptC_upd)
    | with_reducible apply kept_reply_ok | with_reducible apply kept_reply_err | with_reducible apply kept_reply_wait
    | with_reducible apply kept_ite_st | with_reducible apply kept_modSess | with_reducible apply kept_modStore
    | with_reducible apply kept_takeRun | with_reducible apply kept_takeTables | with_reducible apply keptE_ok
    | with_reducible apply keptE_pure | with_reducible apply keptE_error | with_reducible apply keptE_ite
    | with_reducible apply keptE_map | with_reducible apply keptE_foldlM | with_reducible apply keptE_ebind
    | with_reducible apply keptE_ebindP | with_reducible apply keptE_bind
    | with_reducible refine kept_of_ok (by assumption) ?_ | with_reducible refine kept_of_okP (by assumption) ?_ | split
    | dsimp only | with_reducible exact Kept.refl _

theorem kept_recomputeResident {x0 : Nat} {x1 : State} (h1 : Kept s0 x1) : Kept s0 (recomputeResident x0 x1) := by
  unfold recomputeResident
  repeat' first
    | with_reducible assumption | intro _ | (simp only [kept_mk]; with_reducible apply keptC_upd)
    | with_reducible apply kept_modStore | dsimp only | with_reducible exact Kept.refl _

end Sys2Proof.Machine
end

