-- ==== Sys2Proof/Laws/KeptIntake.lean ====
section
/-! SUPPORT. What the definitions of Sys2Proof/Machine/Intake.lean keep. -/

set_option linter.unusedSimpArgs false

namespace Sys2Proof.Machine

variable {s0 : State}

theorem kept_answer {x0 : Req} {x1 : Reply} (h1 : Kept s0 x1.st) : Kept s0 (answer x0 x1) := by
  unfold answer
  repeat' first
    | with_reducible assumption | intro _ | (simp only [kept_mk]; with_reducible apply keptC_upd)
    | with_reducible apply kept_ite_st | with_reducible apply kept_endOp | with_reducible apply kept_complete
    | with_reducible apply kept_ite | split | dsimp only | with_reducible exact Kept.refl _

theorem kept_showRebind {x0 : Nat} {x1 : State} (h1 : Kept s0 x1) : Kept s0 (showRebind x0 x1) := by
  unfold showRebind
  repeat' first
    | with_reducible assumption | intro _ | (simp only [kept_mk]; with_reducible apply keptC_upd)
    | with_reducible apply kept_modSess | split | dsimp only | with_reducible exact Kept.refl _

theorem kept_noteRebind {x0 : Session} {x1 : Nat} {x2 : Nat} {x3 : State} (h3 : Kept s0 x3) : Kept s0 (noteRebind x0 x1 x2 x3) := by
  unfold noteRebind
  repeat' first
    | with_reducible assumption | intro _ | with_reducible apply kept_noteSess | with_reducible apply kept_bump
    | with_reducible apply kept_ite | dsimp only | with_reducible exact Kept.refl _

theorem kept_rebindActive {x0 : Session} {x1 : Nat} {x2 : State} (h2 : Kept s0 x2) : Kept s0 (rebindActive x0 x1 x2) := by
  unfold rebindActive
  repeat' first
    | with_reducible assumption | intro _ | (simp only [kept_mk]; with_reducible apply keptC_upd)
    | with_reducible apply kept_bindGen | with_reducible apply kept_modSess | with_reducible apply kept_noteRebind
    | with_reducible apply kept_resetGrammar | with_reducible apply kept_ite | dsimp only | with_reducible exact Kept.refl _

theorem kept_rebindParked {x0 : Nat} {x1 : Nat} {x2 : DirEntry} {x3 : State} (h3 : Kept s0 x3) : Kept s0 (rebindParked x0 x1 x2 x3) := by
  unfold rebindParked
  repeat' first
    | with_reducible assumption | intro _ | (simp only [kept_mk]; with_reducible apply keptC_upd)
    | with_reducible apply kept_bindGen | with_reducible apply kept_modDir | with_reducible apply kept_modStore
    | with_reducible apply kept_noteRebind | with_reducible apply kept_ite | split | dsimp only
    | with_reducible exact Kept.refl _

theorem kept_rebindNow {x0 : Req} {x1 : Nat} {x2 : Held} {x3 : State} (h3 : Kept s0 x3) : Kept s0 (rebindNow x0 x1 x2 x3).st := by
  unfold rebindNow
  repeat' first
    | with_reducible assumption | intro _ | (simp only [kept_mk]; with_reducible apply keptC_upd)
    | with_reducible apply kept_reply_ok | with_reducible apply kept_reply_err | with_reducible apply kept_ite_st
    | with_reducible apply kept_rebindParked | with_reducible apply kept_rebindActive | with_reducible apply kept_ite | split
    | dsimp only | with_reducible exact Kept.refl _

theorem kept_applyRebinds {x0 : Nat} {x1 : Nat} {x2 : State} (h2 : Kept s0 x2) : Kept s0 (applyRebinds x0 x1 x2) := by
  induction x1 generalizing x0 x2 with
  | zero =>
    unfold applyRebinds
    repeat' first
      | with_reducible assumption | intro _ | (simp only [kept_mk]; with_reducible apply keptC_upd)
      | with_reducible apply kept_reply_wait | with_reducible apply kept_ite_st | with_reducible apply kept_showRebind
      | with_reducible apply kept_modSess | with_reducible apply kept_answer | with_reducible apply kept_rebindNow
      | with_reducible apply kept_ite | split | dsimp only | with_reducible exact Kept.refl _
  | succ n ih =>
    unfold applyRebinds
    repeat' first
      | with_reducible apply ih
      | with_reducible assumption | intro _ | (simp only [kept_mk]; with_reducible apply keptC_upd)
      | with_reducible apply kept_reply_wait | with_reducible apply kept_ite_st | with_reducible apply kept_showRebind
      | with_reducible apply kept_modSess | with_reducible apply kept_answer | with_reducible apply kept_rebindNow
      | with_reducible apply kept_ite | split | dsimp only | with_reducible exact Kept.refl _

theorem kept_intakeEnded {x0 : Nat} {x1 : State} (h1 : Kept s0 x1) : Kept s0 (intakeEnded x0 x1) := by
  unfold intakeEnded
  repeat' first
    | with_reducible assumption | with_reducible apply kept_applyRebinds | dsimp only | with_reducible exact Kept.refl _

theorem kept_noteReplaced {x0 : Session} {x1 : Nat} {x2 : State} (h2 : Kept s0 x2) : Kept s0 (noteReplaced x0 x1 x2) := by
  unfold noteReplaced
  repeat' first
    | with_reducible assumption | intro _ | (simp only [kept_mk]; with_reducible apply keptC_upd)
    | with_reducible apply kept_note | with_reducible apply kept_ite | split | dsimp only | with_reducible exact Kept.refl _

theorem kept_countShorn {x0 : Session} {x1 : Nat} {x2 : Shorn} {x3 : State} (h3 : Kept s0 x3) : Kept s0 (countShorn x0 x1 x2 x3) := by
  unfold countShorn
  repeat' first
    | with_reducible assumption | intro _ | (simp only [kept_mk]; with_reducible apply keptC_upd)
    | with_reducible apply kept_bump | with_reducible apply kept_bumpFree | with_reducible apply kept_noteReplaced | split
    | dsimp only | with_reducible exact Kept.refl _

theorem kept_appendBytes {x0 : Moment} {x1 : Nat} {x2 : Bool} {x3 : Nat} {x4 : Bytes} {x5 : State} (h5 : Kept s0 x5) : Kept s0 (appendBytes x0 x1 x2 x3 x4 x5).st := by
  unfold appendBytes
  repeat' first
    | with_reducible assumption | intro _ | (simp only [kept_mk]; with_reducible apply keptC_upd)
    | with_reducible apply kept_reply_ok | with_reducible apply kept_reply_err | with_reducible apply kept_reply_wait
    | with_reducible apply kept_ite_st | with_reducible apply kept_stageToks | with_reducible apply keptEE_stageToks
    | with_reducible apply kept_dropIntake | with_reducible apply kept_bump | with_reducible apply kept_countShorn
    | with_reducible apply kept_commitIntake | with_reducible apply kept_Reply_ok | with_reducible apply kept_intakeEnded
    | with_reducible apply kept_Reply_err | with_reducible apply kept_stopSession | with_reducible apply kept_ite
    | with_reducible refine kept_of_ok (by assumption) ?_ | with_reducible refine kept_of_error (by assumption) ?_ | split
    | dsimp only | with_reducible exact Kept.refl _

theorem kept_chargeLane {x0 : Nat} {x1 : Nat} {x2 : State} (h2 : Kept s0 x2) : Kept s0 (chargeLane x0 x1 x2) := by
  unfold chargeLane
  repeat' first
    | with_reducible assumption | intro _ | (simp only [kept_mk]; with_reducible apply keptC_upd)
    | with_reducible apply kept_chargePart | with_reducible apply kept_wakeParts | split | dsimp only
    | with_reducible exact Kept.refl _

theorem kept_runAppend {x0 : Moment} {x1 : Req} {x2 : State} (h2 : Kept s0 x2) : Kept s0 (runAppend x0 x1 x2).st := by
  unfold runAppend
  repeat' first
    | with_reducible assumption | (simp only [kept_mk]; with_reducible apply keptC_upd) | with_reducible apply kept_reply_ok
    | with_reducible apply kept_reply_err | with_reducible apply kept_appendBytes | with_reducible apply kept_Reply_sg
    | with_reducible exact kept_of_hypO ‹_› | with_reducible exact kept_of_hypP ‹_› | with_reducible exact kept_of_hypE ‹_›
    | with_reducible apply keptE_ok | with_reducible apply keptE_error | with_reducible exact kept_of_hypEP ‹_›
    | with_reducible apply keptEP_ok | with_reducible apply keptEP_error | with_reducible apply keptEE_ok
    | with_reducible apply keptEE_error | with_reducible refine kept_of_ok (by assumption) ?_
    | with_reducible refine kept_of_error (by assumption) ?_ | with_reducible refine kept_of_okP (by assumption) ?_
    | with_reducible refine kept_of_some (by assumption) ?_ | with_reducible refine kept_of_someP (by assumption) ?_
    | with_reducible refine kept_of_fst (by assumption) ?_ | with_reducible refine kept_of_snd (by assumption) ?_
    | with_reducible refine kept_of_snd2 (by assumption) ?_ | with_reducible refine kept_of_snd3 (by assumption) ?_
    | with_reducible refine keptP_of_snd (by assumption) ?_ | split | dsimp only | with_reducible exact Kept.refl _

theorem kept_appendNow {x0 : Moment} {x1 : Req} {x2 : Session} {x3 : State} (h3 : Kept s0 x3) : Kept s0 (appendNow x0 x1 x2 x3).st := by
  unfold appendNow
  repeat' first
    | with_reducible assumption | intro _ | (simp only [kept_mk]; with_reducible apply keptC_upd)
    | with_reducible apply kept_reply_ok | with_reducible apply kept_reply_err | with_reducible apply kept_reply_wait
    | with_reducible apply kept_ite_st | with_reducible apply kept_Reply_sg | with_reducible apply kept_asOp
    | with_reducible apply kept_appendBytes | with_reducible apply kept_Reply_err | with_reducible apply kept_chargeLane
    | with_reducible apply kept_ite | with_reducible apply kept_getD | split | dsimp only | with_reducible exact Kept.refl _

theorem kept_bodySessionAppend {x0 : Moment} {x1 : Req} {x2 : State} (h2 : Kept s0 x2) : Kept s0 (bodySessionAppend x0 x1 x2).st := by
  unfold bodySessionAppend
  repeat' first
    | with_reducible assumption | intro _ | (simp only [kept_mk]; with_reducible apply keptC_upd)
    | with_reducible apply kept_reply_ok | with_reducible apply kept_reply_err | with_reducible apply kept_reply_wait
    | with_reducible apply kept_ite_st | with_reducible apply kept_addWaiting | with_reducible apply kept_onSession
    | with_reducible apply kept_Reply_wait | with_reducible apply kept_Reply_err | with_reducible apply kept_appendNow
    | with_reducible apply kept_ite | split | dsimp only | with_reducible exact Kept.refl _

theorem kept_dropJob {x0 : Nat} {x1 : State} (h1 : Kept s0 x1) : Kept s0 (dropJob x0 x1) := by
  unfold dropJob
  repeat' first
    | with_reducible assumption | intro _ | (simp only [kept_mk]; with_reducible apply keptC_upd) | dsimp only
    | with_reducible exact Kept.refl _

theorem kept_endSessionAppend {x0 : Moment} {x1 : Nat} {x2 : LongOp} {x3 : State} (h3 : Kept s0 x3) : Kept s0 (endSessionAppend x0 x1 x2 x3) := by
  unfold endSessionAppend
  repeat' first
    | with_reducible assumption | intro _ | with_reducible apply kept_ite_st | with_reducible apply kept_dropJob
    | with_reducible apply kept_endOp | with_reducible apply kept_answer | with_reducible apply kept_runAppend
    | with_reducible apply kept_phaseOp | with_reducible apply kept_ite | dsimp only | with_reducible exact Kept.refl _

theorem kept_appendToks {x0 : Moment} {x1 : Session} {x2 : Nat} {x3 : List Nat} {x4 : State} (h4 : Kept s0 x4) : Kept s0 (appendToks x0 x1 x2 x3 x4).st := by
  unfold appendToks
  repeat' first
    | with_reducible assumption | intro _ | (simp only [kept_mk]; with_reducible apply keptC_upd)
    | with_reducible apply kept_reply_ok | with_reducible apply kept_reply_err | with_reducible apply kept_reply_wait
    | with_reducible apply kept_ite_st | with_reducible apply kept_stageToks | with_reducible apply keptEE_stageToks
    | with_reducible apply kept_commitIntake | with_reducible apply kept_Reply_ok | with_reducible apply kept_Reply_err
    | with_reducible apply kept_ite | with_reducible refine kept_of_ok (by assumption) ?_
    | with_reducible refine kept_of_error (by assumption) ?_ | split | dsimp only | with_reducible exact Kept.refl _

theorem kept_appendToksNow {x0 : Moment} {x1 : Req} {x2 : Session} {x3 : State} (h3 : Kept s0 x3) : Kept s0 (appendToksNow x0 x1 x2 x3).st := by
  unfold appendToksNow
  repeat' first
    | with_reducible assumption | intro _ | (simp only [kept_mk]; with_reducible apply keptC_upd)
    | with_reducible apply kept_reply_ok | with_reducible apply kept_reply_err | with_reducible apply kept_reply_wait
    | with_reducible apply kept_ite_st | with_reducible apply kept_Reply_sg | with_reducible apply kept_Reply_err
    | with_reducible apply kept_appendToks | with_reducible apply kept_ite | split | dsimp only
    | with_reducible exact Kept.refl _

theorem kept_bodySessionAppendTokens {x0 : Moment} {x1 : Req} {x2 : State} (h2 : Kept s0 x2) : Kept s0 (bodySessionAppendTokens x0 x1 x2).st := by
  unfold bodySessionAppendTokens
  repeat' first
    | with_reducible assumption | intro _ | (simp only [kept_mk]; with_reducible apply keptC_upd)
    | with_reducible apply kept_reply_ok | with_reducible apply kept_reply_err | with_reducible apply kept_reply_wait
    | with_reducible apply kept_ite_st | with_reducible apply kept_inOrder | with_reducible apply kept_onSession
    | with_reducible apply kept_Reply_err | with_reducible apply kept_appendToksNow | with_reducible apply kept_ite | split
    | dsimp only | with_reducible exact Kept.refl _

end Sys2Proof.Machine
end

