-- ==== Sys2Proof/Laws/KeptCasts.lean ====
section
/-! SUPPORT. What the definitions of Sys2Proof/Machine/Casts.lean keep. -/

set_option linter.unusedSimpArgs false

namespace Sys2Proof.Machine

variable {s0 : State}

theorem kept_modFop {x0 : Nat} {x1 : Fop → Fop} {x2 : State} (h2 : Kept s0 x2) : Kept s0 (modFop x0 x1 x2) := by
  unfold modFop
  repeat' first
    | with_reducible assumption | (simp only [kept_mk]; with_reducible apply keptC_upd) | with_reducible apply kept_setFop
    | split | dsimp only | with_reducible exact Kept.refl _

theorem kept_showFop {x0 : Nat} {x1 : State} (h1 : Kept s0 x1) : Kept s0 (showFop x0 x1) := by
  unfold showFop
  repeat' first
    | with_reducible assumption | (simp only [kept_mk]; with_reducible apply keptC_upd) | with_reducible apply kept_progressOp
    | split | dsimp only | with_reducible exact Kept.refl _

theorem kept_fopPhase {x0 : Nat} {x1 : Nat} {x2 : Bool} {x3 : State} (h3 : Kept s0 x3) : Kept s0 (fopPhase x0 x1 x2 x3) := by
  unfold fopPhase
  repeat' first
    | with_reducible assumption | (simp only [kept_mk]; with_reducible apply keptC_upd) | with_reducible apply kept_setFop
    | with_reducible apply kept_setOp | with_reducible apply kept_showFop | split | dsimp only
    | with_reducible exact Kept.refl _

theorem kept_pump {x0 : Nat} {x1 : State} (h1 : Kept s0 x1) : Kept s0 (pump x0 x1) := by
  unfold pump
  repeat' first
    | with_reducible assumption | intro _ | (simp only [kept_mk]; with_reducible apply keptC_upd)
    | with_reducible apply kept_setFop | with_reducible apply kept_addDesc | with_reducible apply kept_fopPhase
    | with_reducible apply kept_ite | with_reducible apply kept_foldl | with_reducible apply kept_foldl_snd | split | dsimp only
    | with_reducible exact Kept.refl _

theorem kept_pumpAll {x0 : State} (h0 : Kept s0 x0) : Kept s0 (pumpAll x0) := by
  unfold pumpAll
  repeat' first
    | with_reducible assumption | intro _ | with_reducible apply kept_pump | with_reducible apply kept_foldl
    | with_reducible apply kept_foldl_snd | with_reducible apply kept_foldl_fst | dsimp only | with_reducible exact Kept.refl _

theorem kept_addTodo {x0 : Nat} {x1 : List Desc} {x2 : State} (h2 : Kept s0 x2) : Kept s0 (addTodo x0 x1 x2) := by
  unfold addTodo
  repeat' first
    | with_reducible assumption | intro _ | (simp only [kept_mk]; with_reducible apply keptC_upd)
    | with_reducible apply kept_pump | with_reducible apply kept_modFop | dsimp only | with_reducible exact Kept.refl _

theorem kept_beginFop {x0 : Req} {x1 : Fop} {x2 : Nat → State → State} {x3 : State} (h2 : ∀ y0 y1, Kept s0 y1 → Kept s0 (x2 y0 y1)) (h3 : Kept s0 x3) : Kept s0 (beginFop x0 x1 x2 x3).st := by
  unfold beginFop
  repeat' first
    | with_reducible assumption | intro _ | (simp only [kept_mk]; with_reducible apply keptC_upd) | with_reducible apply h2
    | with_reducible apply kept_reply_ok | with_reducible apply kept_reply_err | with_reducible apply kept_reply_wait
    | with_reducible apply kept_ite_st | with_reducible apply kept_newFop | with_reducible apply kept_asOp
    | with_reducible apply kept_Reply_wait | with_reducible apply kept_progressOp
    | with_reducible refine kept_of_snd (by assumption) ?_ | split | dsimp only | with_reducible exact Kept.refl _

theorem kept_endFop {x0 : Nat} {x1 : Bytes} {x2 : State} (h2 : Kept s0 x2) : Kept s0 (endFop x0 x1 x2) := by
  unfold endFop
  repeat' first
    | with_reducible assumption | (simp only [kept_mk]; with_reducible apply keptC_upd) | with_reducible apply kept_endOp
    | with_reducible apply kept_delFop | split | dsimp only | with_reducible exact Kept.refl _

theorem kept_castDest {x0 : Moment} {x1 : Nat} {x2 : Fop} {x3 : Nat} {x4 : Nat} {x5 : State} (h5 : Kept s0 x5) : KeptEP s0 (castDest x0 x1 x2 x3 x4 x5) := by
  unfold castDest
  repeat' first
    | with_reducible assumption | intro _ | (simp only [kept_mk]; with_reducible apply keptC_upd)
    | with_reducible apply kept_reply_ok | with_reducible apply kept_reply_err | with_reducible apply kept_reply_wait
    | with_reducible apply kept_ite_st | with_reducible apply kept_allocFrame | with_reducible apply keptEP_ok
    | with_reducible apply keptEP_pure | with_reducible apply keptEP_error | with_reducible apply keptEP_ite
    | with_reducible apply keptEP_foldlM | with_reducible apply keptEP_ebind | with_reducible apply keptEP_ebindP
    | with_reducible apply keptEP_bind | with_reducible apply kept_ite | with_reducible apply kept_ite_snd
    | with_reducible apply kept_getD | with_reducible refine kept_of_okP (by assumption) ?_ | split | dsimp only
    | with_reducible exact Kept.refl _

theorem kept_castPlan {x0 : Moment} {x1 : Nat} {x2 : Session} {x3 : Tab Pte} {x4 : Nat} {x5 : List Desc} {x6 : State} (h6 : Kept s0 x6) : KeptEP s0 (castPlan x0 x1 x2 x3 x4 x5 x6) := by
  induction x3 generalizing x0 x1 x2 x4 x5 x6 with
  | nil =>
    unfold castPlan
    repeat' first
      | with_reducible assumption | intro _ | (simp only [kept_mk]; with_reducible apply keptC_upd)
      | with_reducible apply kept_reply_ok | with_reducible apply kept_reply_err | with_reducible apply kept_reply_wait
      | with_reducible apply kept_ite_st | with_reducible apply kept_modFop | with_reducible apply kept_castDest
      | with_reducible apply keptEP_ok | with_reducible apply keptEP_pure | with_reducible apply keptEP_error
      | with_reducible apply keptEP_ite | with_reducible apply keptEP_foldlM | with_reducible apply keptEP_ebind
      | with_reducible apply keptEP_ebindP | with_reducible apply keptEP_bind | with_reducible apply kept_ite
      | with_reducible apply kept_ite_snd | with_reducible refine kept_of_okP (by assumption) ?_ | split | dsimp only
      | with_reducible exact Kept.refl _
  | cons a t ih =>
    unfold castPlan
    repeat' first
      | with_reducible apply ih
      | with_reducible assumption | intro _ | (simp only [kept_mk]; with_reducible apply keptC_upd)
      | with_reducible apply kept_reply_ok | with_reducible apply kept_reply_err | with_reducible apply kept_reply_wait
      | with_reducible apply kept_ite_st | with_reducible apply kept_modFop | with_reducible apply kept_castDest
      | with_reducible apply keptEP_ok | with_reducible apply keptEP_pure | with_reducible apply keptEP_error
      | with_reducible apply keptEP_ite | with_reducible apply keptEP_foldlM | with_reducible apply keptEP_ebind
      | with_reducible apply keptEP_ebindP | with_reducible apply keptEP_bind | with_reducible apply kept_ite
      | with_reducible apply kept_ite_snd | with_reducible refine kept_of_okP (by assumption) ?_ | split | dsimp only
      | with_reducible exact Kept.refl _

theorem kept_castFail {x0 : Nat} {x1 : Nat} {x2 : State} (h2 : Kept s0 x2) : Kept s0 (castFail x0 x1 x2) := by
  unfold castFail
  repeat' first
    | with_reducible assumption | intro _ | (simp only [kept_mk]; with_reducible apply keptC_upd)
    | with_reducible apply kept_endOp | with_reducible apply kept_delFop | with_reducible apply kept_dropFresh
    | with_reducible apply kept_dropDescs | with_reducible apply kept_setState | with_reducible apply kept_modSess
    | with_reducible apply kept_rearmCast | with_reducible apply kept_bump | with_reducible apply kept_note | split | dsimp only
    | with_reducible exact Kept.refl _

theorem kept_castRun {x0 : Moment} {x1 : Nat} {x2 : Session} {x3 : Nat} {x4 : Nat} {x5 : Tab Pte} {x6 : Nat} {x7 : State} (h7 : Kept s0 x7) : Kept s0 (castRun x0 x1 x2 x3 x4 x5 x6 x7) := by
  unfold castRun
  repeat' first
    | with_reducible assumption | intro _ | (simp only [kept_mk]; with_reducible apply keptC_upd)
    | with_reducible apply kept_reply_ok | with_reducible apply kept_reply_err | with_reducible apply kept_reply_wait
    | with_reducible apply kept_ite_st | with_reducible apply kept_castPlan | with_reducible apply kept_addTodo
    | with_reducible apply kept_starve | with_reducible apply kept_modFop | with_reducible apply kept_castFail
    | with_reducible refine kept_of_okP (by assumption) ?_ | split | dsimp only | with_reducible exact Kept.refl _

theorem kept_castStart {x0 : Moment} {x1 : Nat} {x2 : Session} {x3 : State} (h3 : Kept s0 x3) : Kept s0 (castStart x0 x1 x2 x3) := by
  unfold castStart
  repeat' first
    | with_reducible assumption | intro _ | (simp only [kept_mk]; with_reducible apply keptC_upd)
    | with_reducible apply kept_castRun | with_reducible apply kept_modSess | with_reducible apply kept_leaveQueue
    | with_reducible apply kept_setState | split | dsimp only | with_reducible exact Kept.refl _

theorem kept_castCommit {x0 : Nat} {x1 : State} (h1 : Kept s0 x1) : Kept s0 (castCommit x0 x1) := by
  unfold castCommit
  repeat' first
    | with_reducible assumption | intro _
    | (simp only [kept_mk]; first | with_reducible apply keptC_upd | refine keptC_updHmk ?_ (by first | exact Nat.le_refl _ | exact Nat.le_add_right _ _ | omega) (by exact Nat.le_refl _) (by rfl))
    | with_reducible apply kept_updateCredit | with_reducible apply kept_setDir | with_reducible apply kept_publishFrame
    | with_reducible apply kept_modStore | with_reducible apply kept_dropTables | with_reducible apply kept_dropPte
    | with_reducible apply kept_bindGen | with_reducible apply kept_freeSlot | with_reducible apply kept_bump
    | with_reducible apply kept_endFop | with_reducible apply kept_ite | with_reducible apply kept_foldl
    | with_reducible apply kept_foldl_snd | with_reducible apply kept_getD | with_reducible apply kept_foldl_fst | split
    | dsimp only | with_reducible exact Kept.refl _

theorem kept_castPageDone {x0 : Desc} {x1 : State} (h1 : Kept s0 x1) : Kept s0 (castPageDone x0 x1) := by
  unfold castPageDone
  repeat' first
    | with_reducible assumption | intro _ | (simp only [kept_mk]; with_reducible apply keptC_upd)
    | with_reducible apply kept_bump | with_reducible apply kept_devWrite | with_reducible apply kept_showFop
    | with_reducible apply kept_modFop | with_reducible apply kept_ite | split | dsimp only | with_reducible exact Kept.refl _

theorem kept_imageWritten {x0 : Desc} {x1 : State} (h1 : Kept s0 x1) : Kept s0 (imageWritten x0 x1) := by
  unfold imageWritten
  repeat' first
    | with_reducible assumption | (simp only [kept_mk]; with_reducible apply keptC_upd) | with_reducible apply kept_fopPhase
    | with_reducible apply kept_devWrite | split | dsimp only | with_reducible exact Kept.refl _

theorem kept_quiesce {x0 : Req} {x1 : Session} {x2 : State} (h2 : Kept s0 x2) : Kept s0 (quiesce x0 x1 x2).st := by
  unfold quiesce
  repeat' first
    | with_reducible assumption | intro _ | (simp only [kept_mk]; with_reducible apply keptC_upd)
    | with_reducible apply kept_reply_ok | with_reducible apply kept_reply_err | with_reducible apply kept_reply_wait
    | with_reducible apply kept_ite_st | with_reducible apply kept_asOp | with_reducible apply kept_addWaiting
    | with_reducible apply kept_Reply_wait | split | dsimp only | with_reducible exact Kept.refl _

theorem kept_atRest {x0 : Req} {x1 : Session} {x2 : State} {x3 : Reply} (h2 : Kept s0 x2) (h3 : Kept s0 x3.st) : Kept s0 (atRest x0 x1 x2 x3).st := by
  unfold atRest
  repeat' first
    | with_reducible assumption | intro _ | (simp only [kept_mk]; with_reducible apply keptC_upd)
    | with_reducible apply kept_reply_ok | with_reducible apply kept_reply_err | with_reducible apply kept_reply_wait
    | with_reducible apply kept_ite_st | with_reducible apply kept_quiesce | with_reducible apply kept_ite | split
    | dsimp only | with_reducible exact Kept.refl _

theorem kept_castBody {x0 : Bool} {x1 : Moment} {x2 : Req} {x3 : State} (h3 : Kept s0 x3) : Kept s0 (castBody x0 x1 x2 x3).st := by
  unfold castBody
  repeat' first
    | with_reducible assumption | intro _ | (simp only [kept_mk]; with_reducible apply keptC_upd)
    | with_reducible apply kept_reply_ok | with_reducible apply kept_reply_err | with_reducible apply kept_reply_wait
    | with_reducible apply kept_ite_st | with_reducible apply kept_quiesce | with_reducible apply kept_onSession
    | with_reducible apply kept_castStart | with_reducible apply kept_Reply_err | with_reducible apply kept_beginFop
    | with_reducible apply kept_atRest | with_reducible apply kept_ite | with_reducible apply kept_getD | split | dsimp only
    | with_reducible exact Kept.refl _

theorem kept_bodyFdyCast {x0 : Moment} {x1 : Req} {x2 : State} (h2 : Kept s0 x2) : Kept s0 (bodyFdyCast x0 x1 x2).st := by
  unfold bodyFdyCast
  repeat' first
    | with_reducible assumption | with_reducible apply kept_castBody | dsimp only | with_reducible exact Kept.refl _

theorem kept_deviceCast {x0 : Moment} {x1 : Bool} {x2 : Bool} {x3 : Session} {x4 : State} (h4 : Kept s0 x4) : Kept s0 (deviceCast x0 x1 x2 x3 x4) := by
  unfold deviceCast
  repeat' first
    | with_reducible assumption | intro _ | (simp only [kept_mk]; with_reducible apply keptC_upd)
    | with_reducible apply kept_ite_st | with_reducible apply kept_pressure | with_reducible apply kept_castBody
    | with_reducible apply kept_mirror | with_reducible apply kept_note | with_reducible apply kept_bump
    | with_reducible apply kept_rearmCast | with_reducible apply kept_modSess | with_reducible apply kept_ite | dsimp only
    | with_reducible exact Kept.refl _

theorem kept_requestCast {x0 : Moment} {x1 : Bool} {x2 : Session} {x3 : State} (h3 : Kept s0 x3) : Kept s0 (requestCast x0 x1 x2 x3) := by
  unfold requestCast
  repeat' first
    | with_reducible assumption | with_reducible apply kept_pressure | with_reducible apply kept_deviceCast | dsimp only
    | with_reducible exact Kept.refl _

end Sys2Proof.Machine
end

