-- ==== Sys2Proof/Laws/KeptRaises.lean ====
section
/-! SUPPORT. What the definitions of Sys2Proof/Machine/Raises.lean keep. -/

set_option linter.unusedSimpArgs false

namespace Sys2Proof.Machine

variable {s0 : State}

theorem kept_chainFail {x0 : Nat} {x1 : Nat} {x2 : State} (h2 : Kept s0 x2) : Kept s0 (chainFail x0 x1 x2) := by
  unfold chainFail
  repeat' first
    | with_reducible assumption | intro _
    | (simp only [kept_mk]; first | with_reducible apply keptC_upd | refine keptC_updHmk ?_ (by first | exact Nat.le_refl _ | exact Nat.le_add_right _ _ | omega) (by exact Nat.le_refl _) (by rfl))
    | with_reducible apply kept_note | with_reducible apply kept_freeChain | split | dsimp only
    | with_reducible exact Kept.refl _

theorem kept_raisePlan {x0 : Moment} {x1 : Nat} {x2 : Session} {x3 : Nat} {x4 : Fop → Nat → Nat} {x5 : List Nat} {x6 : Nat} {x7 : List Desc} {x8 : State} (h8 : Kept s0 x8) : KeptEP s0 (raisePlan x0 x1 x2 x3 x4 x5 x6 x7 x8) := by
  induction x5 generalizing x0 x1 x2 x3 x6 x7 x8 with
  | nil =>
    unfold raisePlan
    repeat' first
      | with_reducible assumption | intro _ | (simp only [kept_mk]; with_reducible apply keptC_upd)
      | with_reducible apply kept_reply_ok | with_reducible apply kept_reply_err | with_reducible apply kept_reply_wait
      | with_reducible apply kept_ite_st | with_reducible apply kept_modFop | with_reducible apply kept_allocFrame
      | with_reducible apply keptEP_ok | with_reducible apply keptEP_pure | with_reducible apply keptEP_error
      | with_reducible apply keptEP_ite | with_reducible apply keptEP_foldlM | with_reducible apply keptEP_ebind
      | with_reducible apply keptEP_ebindP | with_reducible apply keptEP_bind
      | with_reducible refine kept_of_okP (by assumption) ?_ | split | dsimp only | with_reducible exact Kept.refl _
  | cons a t ih =>
    unfold raisePlan
    repeat' first
      | with_reducible apply ih
      | with_reducible assumption | intro _ | (simp only [kept_mk]; with_reducible apply keptC_upd)
      | with_reducible apply kept_reply_ok | with_reducible apply kept_reply_err | with_reducible apply kept_reply_wait
      | with_reducible apply kept_ite_st | with_reducible apply kept_modFop | with_reducible apply kept_allocFrame
      | with_reducible apply keptEP_ok | with_reducible apply keptEP_pure | with_reducible apply keptEP_error
      | with_reducible apply keptEP_ite | with_reducible apply keptEP_foldlM | with_reducible apply keptEP_ebind
      | with_reducible apply keptEP_ebindP | with_reducible apply keptEP_bind
      | with_reducible refine kept_of_okP (by assumption) ?_ | split | dsimp only | with_reducible exact Kept.refl _

theorem kept_publishArrived {x0 : Nat} {x1 : State} (h1 : Kept s0 x1) : Kept s0 (publishArrived x0 x1) := by
  unfold publishArrived
  repeat' first
    | with_reducible assumption | intro _ | (simp only [kept_mk]; with_reducible apply keptC_upd)
    | with_reducible apply kept_publishFrame | with_reducible apply kept_modStore | with_reducible apply kept_modFop
    | with_reducible apply kept_fresh | with_reducible apply kept_ite | with_reducible apply kept_foldl
    | with_reducible apply kept_foldl_snd | with_reducible apply kept_foldl_fst
    | with_reducible refine kept_of_snd (by assumption) ?_ | split | dsimp only | with_reducible exact Kept.refl _

theorem kept_raiseFail {x0 : Nat} {x1 : Nat} {x2 : State} (h2 : Kept s0 x2) : Kept s0 (raiseFail x0 x1 x2) := by
  unfold raiseFail
  repeat' first
    | with_reducible assumption | intro _ | (simp only [kept_mk]; with_reducible apply keptC_upd)
    | with_reducible apply kept_endOp | with_reducible apply kept_dropDescs | with_reducible apply kept_delFop
    | with_reducible apply kept_modStore | with_reducible apply kept_giveBack | with_reducible apply kept_dropFresh
    | with_reducible apply kept_freeSlot | with_reducible apply kept_chainFail | with_reducible apply kept_dropBrought
    | with_reducible apply kept_dropTables | with_reducible apply kept_getD | split | dsimp only
    | with_reducible exact Kept.refl _

theorem kept_raiseEnd {x0 : Nat} {x1 : State} (h1 : Kept s0 x1) : Kept s0 (raiseEnd x0 x1) := by
  unfold raiseEnd
  repeat' first
    | with_reducible assumption | intro _ | (simp only [kept_mk]; with_reducible apply keptC_upd)
    | with_reducible apply kept_endFop | with_reducible apply kept_dropOld | with_reducible apply kept_updateCredit
    | with_reducible apply kept_getD | split | dsimp only | with_reducible exact Kept.refl _

theorem kept_leaveRaising {x0 : Nat} {x1 : State} (h1 : Kept s0 x1) : Kept s0 (leaveRaising x0 x1) := by
  unfold leaveRaising
  repeat' first
    | with_reducible assumption | intro _ | (simp only [kept_mk]; with_reducible apply keptC_upd)
    | with_reducible apply kept_claimActive | with_reducible apply kept_bump | with_reducible apply kept_raiseFail
    | with_reducible apply kept_modSess | with_reducible apply kept_modStore | with_reducible apply kept_bindGen
    | with_reducible apply kept_modFop | with_reducible apply kept_setState | with_reducible apply kept_fopPhase
    | with_reducible apply kept_publishArrived | with_reducible apply kept_updateCredit
    | with_reducible apply kept_rearmCast | with_reducible apply kept_ite | with_reducible apply kept_getD | split
    | dsimp only | with_reducible exact Kept.refl _

theorem kept_raiseAdvance {x0 : Nat} {x1 : State} (h1 : Kept s0 x1) : Kept s0 (raiseAdvance x0 x1) := by
  unfold raiseAdvance
  repeat' first
    | with_reducible assumption | intro _ | (simp only [kept_mk]; with_reducible apply keptC_upd)
    | with_reducible apply kept_raiseFail | with_reducible apply kept_publishArrived | with_reducible apply kept_leaveRaising
    | with_reducible apply kept_raiseEnd | with_reducible apply kept_ite | split | dsimp only | with_reducible exact Kept.refl _

theorem kept_regrammar {x0 : Session} {x1 : DirEntry} {x2 : State} (h2 : Kept s0 x2) : Kept s0 (regrammar x0 x1 x2) := by
  unfold regrammar
  repeat' first
    | with_reducible assumption | intro _ | (simp only [kept_mk]; with_reducible apply keptC_upd)
    | with_reducible apply kept_resetGrammar | with_reducible apply kept_ite | split | dsimp only
    | with_reducible exact Kept.refl _

theorem kept_raiseRestore {x0 : Moment} {x1 : Nat} {x2 : State} (h2 : Kept s0 x2) : Kept s0 (raiseRestore x0 x1 x2) := by
  unfold raiseRestore
  repeat' first
    | with_reducible assumption | intro _ | (simp only [kept_mk]; with_reducible apply keptC_upd)
    | with_reducible apply kept_reply_ok | with_reducible apply kept_reply_err | with_reducible apply kept_reply_wait
    | with_reducible apply kept_ite_st | with_reducible apply kept_regrammar | with_reducible apply kept_raiseFail
    | with_reducible apply kept_addTodo | with_reducible apply kept_modSess | with_reducible apply kept_starve
    | with_reducible apply kept_recomputeResident | with_reducible apply kept_modFop | with_reducible apply kept_fopPhase
    | with_reducible apply kept_raisePlan | with_reducible apply kept_raiseAdvance | with_reducible apply kept_buildTables
    | with_reducible apply kept_getD | with_reducible refine kept_of_ok (by assumption) ?_
    | with_reducible refine kept_of_okP (by assumption) ?_ | split | dsimp only | with_reducible exact Kept.refl _

theorem kept_runAheadPlan {x0 : Moment} {x1 : Nat} {x2 : Session} {x3 : State} (h3 : Kept s0 x3) : Kept s0 (runAheadPlan x0 x1 x2 x3) := by
  unfold runAheadPlan
  repeat' first
    | with_reducible assumption | intro _ | (simp only [kept_mk]; with_reducible apply keptC_upd)
    | with_reducible apply kept_reply_ok | with_reducible apply kept_reply_err | with_reducible apply kept_reply_wait
    | with_reducible apply kept_ite_st | with_reducible apply kept_addTodo | with_reducible apply kept_starve
    | with_reducible apply kept_modFop | with_reducible apply kept_fopPhase | with_reducible apply kept_raisePlan
    | with_reducible apply kept_cancelRunAhead | with_reducible refine kept_of_okP (by assumption) ?_ | split | dsimp only
    | with_reducible exact Kept.refl _

theorem kept_bringStore {x0 : Nat} {x1 : Nat} {x2 : DirEntry} {x3 : Bytes} {x4 : State} (h4 : Kept s0 x4) : Kept s0 (bringStore x0 x1 x2 x3 x4) := by
  unfold bringStore
  repeat' first
    | with_reducible assumption | intro _ | (simp only [kept_mk]; with_reducible apply keptC_upd)
    | with_reducible apply kept_setStore | with_reducible apply kept_ite | with_reducible apply kept_getD | split
    | dsimp only | with_reducible exact Kept.refl _

theorem kept_imageGot {x0 : Moment} {x1 : Nat} {x2 : Bytes} {x3 : State} (h3 : Kept s0 x3) : Kept s0 (imageGot x0 x1 x2 x3) := by
  unfold imageGot
  repeat' first
    | with_reducible assumption | intro _ | (simp only [kept_mk]; with_reducible apply keptC_upd)
    | with_reducible apply kept_runAheadPlan | with_reducible apply kept_raiseRestore | with_reducible apply kept_bringStore
    | with_reducible apply kept_modFop | with_reducible apply keptE_ebind | with_reducible apply keptE_ebindP
    | with_reducible apply keptEP_ebind | with_reducible apply keptEP_ebindP | split | dsimp only
    | with_reducible exact Kept.refl _

theorem kept_definite {x0 : Nat} {x1 : Nat} {x2 : DirEntry} {x3 : State} (h3 : Kept s0 x3) : Kept s0 (definite x0 x1 x2 x3).2 := by
  unfold definite
  repeat' first
    | with_reducible assumption | intro _ | (simp only [kept_mk]; with_reducible apply keptC_upd)
    | with_reducible apply kept_setDir | split | dsimp only | with_reducible exact Kept.refl _

theorem kept_claimGot {x0 : Nat} {x1 : DirEntry} {x2 : State} (h2 : Kept s0 x2) : Kept s0 (claimGot x0 x1 x2) := by
  unfold claimGot
  repeat' first
    | with_reducible assumption | intro _ | (simp only [kept_mk]; with_reducible apply keptC_upd)
    | with_reducible apply kept_addTodo | with_reducible apply kept_takeSlot | with_reducible apply kept_setFop
    | with_reducible apply kept_definite | with_reducible apply kept_ite
    | with_reducible refine kept_of_snd (by assumption) ?_ | split | dsimp only | with_reducible exact Kept.refl _

theorem kept_claimStart {x0 : Nat} {x1 : State} (h1 : Kept s0 x1) : Kept s0 (claimStart x0 x1) := by
  unfold claimStart
  repeat' first
    | with_reducible assumption | (simp only [kept_mk]; with_reducible apply keptC_upd) | with_reducible apply kept_claimGot
    | with_reducible apply kept_setDir | with_reducible apply kept_swlAsk | with_reducible apply kept_fopPhase
    | with_reducible apply kept_getD | split | dsimp only | with_reducible exact Kept.refl _

theorem kept_raiseStart {x0 : Moment} {x1 : Req} {x2 : Nat} {x3 : Nat} {x4 : State} (h4 : Kept s0 x4) : Kept s0 (raiseStart x0 x1 x2 x3 x4).st := by
  unfold raiseStart
  repeat' first
    | with_reducible assumption | (simp only [kept_mk]; with_reducible apply keptC_upd) | with_reducible apply kept_reply_err
    | with_reducible apply kept_beginFop | with_reducible apply kept_claimStart | split | dsimp only
    | with_reducible exact Kept.refl _

theorem kept_runAheadStart {x0 : Req} {x1 : Nat} {x2 : Nat} {x3 : State} (h3 : Kept s0 x3) : Kept s0 (runAheadStart x0 x1 x2 x3).st := by
  unfold runAheadStart
  repeat' first
    | with_reducible assumption | with_reducible apply kept_beginFop | with_reducible apply kept_claimStart | dsimp only
    | with_reducible exact Kept.refl _

theorem kept_promote {x0 : Moment} {x1 : Nat} {x2 : Nat} {x3 : State} (h3 : Kept s0 x3) : Kept s0 (promote x0 x1 x2 x3) := by
  unfold promote
  repeat' first
    | with_reducible assumption | intro _ | (simp only [kept_mk]; with_reducible apply keptC_upd)
    | with_reducible apply kept_publishFrame | with_reducible apply kept_takeSlot | with_reducible apply kept_raiseRestore
    | with_reducible apply kept_setFop | with_reducible apply kept_definite | with_reducible apply kept_ite
    | with_reducible apply kept_foldl | with_reducible apply kept_foldl_snd | with_reducible apply kept_foldl_fst
    | with_reducible apply keptO_foldl | with_reducible apply keptP_foldl | with_reducible apply keptE_foldl
    | with_reducible apply keptEP_foldl | with_reducible refine kept_of_snd (by assumption) ?_ | split | dsimp only
    | with_reducible exact Kept.refl _

theorem kept_queueRaise {x0 : RaiseWait} {x1 : State} (h1 : Kept s0 x1) : Kept s0 (queueRaise x0 x1).2 := by
  unfold queueRaise
  repeat' first
    | with_reducible assumption | intro _ | (simp only [kept_mk]; with_reducible apply keptC_upd)
    | with_reducible apply kept_note | with_reducible apply kept_ite | with_reducible apply kept_ite_snd | split | dsimp only
    | with_reducible exact Kept.refl _

theorem kept_recoveryFailed {x0 : Nat} {x1 : Nat} {x2 : Nat} {x3 : Nat} {x4 : State} (h4 : Kept s0 x4) : Kept s0 (recoveryFailed x0 x1 x2 x3 x4) := by
  unfold recoveryFailed
  repeat' first
    | with_reducible assumption | with_reducible apply kept_faultSession | with_reducible apply kept_note | dsimp only
    | with_reducible exact Kept.refl _

theorem kept_readShard {x0 : Nat} {x1 : Nat} {x2 : Captured} {x3 : State} (h3 : Kept s0 x3) : Kept s0 (readShard x0 x1 x2 x3) := by
  unfold readShard
  repeat' first
    | with_reducible assumption | (simp only [kept_mk]; with_reducible apply keptC_upd) | with_reducible apply kept_nvmeIssue
    | split | dsimp only | with_reducible exact Kept.refl _

theorem kept_recoverNext {x0 : Nat} {x1 : Nat} {x2 : State} (h2 : Kept s0 x2) : Kept s0 (recoverNext x0 x1 x2) := by
  unfold recoverNext
  repeat' first
    | with_reducible assumption | intro _ | (simp only [kept_mk]; with_reducible apply keptC_upd)
    | with_reducible apply kept_recoveryFailed | with_reducible apply kept_modFop | with_reducible apply kept_addTodo
    | with_reducible apply kept_readShard | with_reducible apply kept_modSess | with_reducible apply kept_foldl
    | with_reducible apply kept_foldl_snd | with_reducible apply kept_getD | split | dsimp only
    | with_reducible exact Kept.refl _

theorem kept_pullFailed {x0 : Nat} {x1 : Nat} {x2 : Nat} {x3 : State} (h3 : Kept s0 x3) : Kept s0 (pullFailed x0 x1 x2 x3) := by
  unfold pullFailed
  repeat' first
    | with_reducible assumption | intro _ | (simp only [kept_mk]; with_reducible apply keptC_upd)
    | with_reducible apply kept_recoverNext | with_reducible apply kept_modFop | dsimp only | with_reducible exact Kept.refl _

theorem kept_recovered {x0 : Nat} {x1 : Nat} {x2 : Nat} {x3 : State} (h3 : Kept s0 x3) : Kept s0 (recovered x0 x1 x2 x3) := by
  unfold recovered
  repeat' first
    | with_reducible assumption | intro _ | (simp only [kept_mk]; with_reducible apply keptC_upd)
    | with_reducible apply kept_bump | with_reducible apply kept_note | split | dsimp only
    | with_reducible exact Kept.refl _

theorem kept_pageRecovered {x0 : Nat} {x1 : Nat} {x2 : Nat} {x3 : State} (h3 : Kept s0 x3) : Kept s0 (pageRecovered x0 x1 x2 x3) := by
  unfold pageRecovered
  repeat' first
    | with_reducible assumption | intro _ | (simp only [kept_mk]; with_reducible apply keptC_upd)
    | with_reducible apply kept_recovered | with_reducible apply kept_modFop | split | dsimp only
    | with_reducible exact Kept.refl _

theorem kept_imageLost {x0 : Nat} {x1 : Nat} {x2 : State} (h2 : Kept s0 x2) : Kept s0 (imageLost x0 x1 x2) := by
  unfold imageLost
  repeat' first
    | with_reducible assumption | intro _ | (simp only [kept_mk]; with_reducible apply keptC_upd)
    | with_reducible apply kept_cancelRunAhead | with_reducible apply kept_recoveryFailed | with_reducible apply kept_readShard
    | with_reducible apply kept_modFop | with_reducible apply kept_ite | split | dsimp only | with_reducible exact Kept.refl _

theorem kept_startPull {x0 : Moment} {x1 : Session} {x2 : List Nat} {x3 : State} (h3 : Kept s0 x3) : KeptE s0 (startPull x0 x1 x2 x3) := by
  unfold startPull
  repeat' first
    | with_reducible assumption | intro _ | (simp only [kept_mk]; with_reducible apply keptC_upd)
    | with_reducible apply kept_reply_ok | with_reducible apply kept_reply_err | with_reducible apply kept_reply_wait
    | with_reducible apply kept_ite_st | with_reducible apply kept_newFop | with_reducible apply kept_addTodo
    | with_reducible apply kept_raisePlan | with_reducible apply keptE_ok | with_reducible apply keptE_pure
    | with_reducible apply keptE_error | with_reducible apply keptE_ite | with_reducible apply keptE_map
    | with_reducible apply keptE_foldlM | with_reducible apply keptE_ebind | with_reducible apply keptE_ebindP
    | with_reducible apply keptE_bind | with_reducible refine kept_of_okP (by assumption) ?_
    | with_reducible refine kept_of_snd (by assumption) ?_ | split | dsimp only | with_reducible exact Kept.refl _

theorem kept_pullAdvance {x0 : Nat} {x1 : State} (h1 : Kept s0 x1) : Kept s0 (pullAdvance x0 x1) := by
  unfold pullAdvance
  repeat' first
    | with_reducible assumption | intro _ | (simp only [kept_mk]; with_reducible apply keptC_upd)
    | with_reducible apply kept_publishArrived | with_reducible apply kept_delFop | with_reducible apply kept_dropOld
    | with_reducible apply kept_ite | split | dsimp only | with_reducible exact Kept.refl _

theorem kept_pagesAdvance {x0 : Nat} {x1 : State} (h1 : Kept s0 x1) : Kept s0 (pagesAdvance x0 x1) := by
  unfold pagesAdvance
  repeat' first
    | with_reducible assumption | (simp only [kept_mk]; with_reducible apply keptC_upd) | with_reducible apply kept_raiseAdvance
    | with_reducible apply kept_pullAdvance | split | dsimp only | with_reducible exact Kept.refl _

theorem kept_listPageDone {x0 : Desc} {x1 : Bytes} {x2 : State} (h2 : Kept s0 x2) : Kept s0 (listPageDone x0 x1 x2) := by
  unfold listPageDone
  repeat' first
    | with_reducible assumption | intro _ | (simp only [kept_mk]; with_reducible apply keptC_upd)
    | with_reducible apply kept_fresh | with_reducible apply kept_publishFrame | with_reducible apply kept_devWrite
    | with_reducible apply kept_delFop | with_reducible apply kept_dropPte | with_reducible apply kept_ite
    | with_reducible refine kept_of_snd (by assumption) ?_ | split | dsimp only | with_reducible exact Kept.refl _

theorem kept_listPageFail {x0 : Desc} {x1 : State} (h1 : Kept s0 x1) : Kept s0 (listPageFail x0 x1) := by
  unfold listPageFail
  repeat' first
    | with_reducible assumption | with_reducible apply kept_delFop | with_reducible apply kept_unreserveFrame | dsimp only
    | with_reducible exact Kept.refl _

theorem kept_raisePageDone {x0 : Desc} {x1 : Bytes} {x2 : State} (h2 : Kept s0 x2) : Kept s0 (raisePageDone x0 x1 x2) := by
  unfold raisePageDone
  repeat' first
    | with_reducible assumption | intro _ | (simp only [kept_mk]; with_reducible apply keptC_upd)
    | with_reducible apply kept_devWrite | with_reducible apply kept_modFop | with_reducible apply kept_pagesAdvance
    | with_reducible apply kept_pageRecovered | with_reducible apply kept_showFop | with_reducible apply kept_ite
    | with_reducible apply kept_getD | split | dsimp only | with_reducible exact Kept.refl _

end Sys2Proof.Machine
end

