-- ==== Sys2Proof/Laws/KeptMigrate.lean ====
section
/-! SUPPORT. What the definitions of Sys2Proof/Machine/Migrate.lean keep. -/

set_option linter.unusedSimpArgs false

namespace Sys2Proof.Machine

variable {s0 : State}

theorem kept_migrateFail {x0 : Nat} {x1 : Nat} {x2 : Nat} {x3 : State} (h3 : Kept s0 x3) : Kept s0 (migrateFail x0 x1 x2 x3) := by
  unfold migrateFail
  repeat' first
    | with_reducible assumption | intro _ | (simp only [kept_mk]; with_reducible apply keptC_upd)
    | with_reducible apply kept_endOp | with_reducible apply kept_delFop | with_reducible apply kept_dropMsgs
    | with_reducible apply kept_dropDescs | with_reducible apply kept_note | with_reducible apply kept_setState
    | with_reducible apply kept_ite | split | dsimp only | with_reducible exact Kept.refl _

theorem kept_leaveStart {x0 : Session} {x1 : State} (h1 : Kept s0 x1) : Kept s0 (leaveStart x0 x1) := by
  unfold leaveStart
  repeat' first
    | with_reducible assumption | intro _ | (simp only [kept_mk]; with_reducible apply keptC_upd)
    | with_reducible apply kept_modSess | with_reducible apply kept_leaveQueue | with_reducible apply kept_setState | split
    | dsimp only | with_reducible exact Kept.refl _

theorem kept_migrateStart {x0 : Session} {x1 : Nat} {x2 : State} (h2 : Kept s0 x2) : Kept s0 (migrateStart x0 x1 x2) := by
  unfold migrateStart
  repeat' first
    | with_reducible assumption | intro _ | (simp only [kept_mk]; with_reducible apply keptC_upd)
    | with_reducible apply kept_leaveStart | with_reducible apply kept_modFop | with_reducible apply kept_addTodo
    | with_reducible apply kept_ite | split | dsimp only | with_reducible exact Kept.refl _

theorem kept_migrateAsk {x0 : Nat} {x1 : State} (h1 : Kept s0 x1) : Kept s0 (migrateAsk x0 x1) := by
  unfold migrateAsk
  repeat' first
    | with_reducible assumption | (simp only [kept_mk]; with_reducible apply keptC_upd) | with_reducible apply kept_fopPhase
    | with_reducible apply kept_swlAsk | split | dsimp only | with_reducible exact Kept.refl _

theorem kept_exportCommitSend {x0 : Nat} {x1 : State} (h1 : Kept s0 x1) : Kept s0 (exportCommitSend x0 x1) := by
  unfold exportCommitSend
  repeat' first
    | with_reducible assumption | (simp only [kept_mk]; with_reducible apply keptC_upd) | with_reducible apply kept_migrateFail
    | with_reducible apply kept_fresh | with_reducible apply kept_gxWrite | with_reducible apply kept_fopPhase
    | with_reducible refine kept_of_ok (by assumption) ?_ | with_reducible refine kept_of_snd (by assumption) ?_ | split
    | dsimp only | with_reducible exact Kept.refl _

theorem kept_exportStart {x0 : Session} {x1 : Nat} {x2 : State} (h2 : Kept s0 x2) : Kept s0 (exportStart x0 x1 x2) := by
  unfold exportStart
  repeat' first
    | with_reducible assumption | intro _ | (simp only [kept_mk]; with_reducible apply keptC_upd)
    | with_reducible apply kept_reply_ok | with_reducible apply kept_reply_err | with_reducible apply kept_reply_wait
    | with_reducible apply kept_ite_st | with_reducible apply kept_fresh | with_reducible apply kept_addTodo
    | with_reducible apply kept_migrateFail | with_reducible apply kept_modFop | with_reducible apply kept_exportCommitSend
    | with_reducible apply kept_leaveStart | with_reducible apply kept_gxWrite | with_reducible apply kept_ite
    | with_reducible refine kept_of_ok (by assumption) ?_ | with_reducible refine kept_of_snd (by assumption) ?_ | split
    | dsimp only | with_reducible exact Kept.refl _

theorem kept_exportGroup {x0 : Nat} {x1 : Nat} {x2 : Fop} {x3 : State} (h3 : Kept s0 x3) : Kept s0 (exportGroup x0 x1 x2 x3) := by
  unfold exportGroup
  repeat' first
    | with_reducible assumption | intro _ | (simp only [kept_mk]; with_reducible apply keptC_upd)
    | with_reducible apply kept_reply_ok | with_reducible apply kept_reply_err | with_reducible apply kept_reply_wait
    | with_reducible apply kept_ite_st | with_reducible apply kept_fresh | with_reducible apply kept_migrateFail
    | with_reducible apply kept_setFop | with_reducible apply kept_gxWrite | with_reducible apply kept_ite
    | with_reducible refine kept_of_ok (by assumption) ?_ | with_reducible refine kept_of_snd (by assumption) ?_ | split
    | dsimp only | with_reducible exact Kept.refl _

theorem kept_migratePageDone {x0 : Desc} {x1 : Bytes} {x2 : State} (h2 : Kept s0 x2) : Kept s0 (migratePageDone x0 x1 x2) := by
  unfold migratePageDone
  repeat' first
    | with_reducible assumption | intro _ | (simp only [kept_mk]; with_reducible apply keptC_upd)
    | with_reducible apply kept_exportGroup | with_reducible apply kept_migrateAsk | with_reducible apply kept_showFop
    | with_reducible apply kept_modFop | with_reducible apply kept_exportCommitSend | with_reducible apply kept_ite | split
    | dsimp only | with_reducible exact Kept.refl _

theorem kept_leaveChip {x0 : Session} {x1 : Bool} {x2 : State} (h2 : Kept s0 x2) : Kept s0 (leaveChip x0 x1 x2) := by
  unfold leaveChip
  repeat' first
    | with_reducible assumption | intro _ | (simp only [kept_mk]; with_reducible apply keptC_upd)
    | with_reducible apply kept_creditOut | with_reducible apply kept_dropPages | with_reducible apply kept_bindGen
    | with_reducible apply kept_freeSlot | with_reducible apply kept_dropJournal | with_reducible apply kept_dropTables
    | with_reducible apply kept_ite | split | dsimp only | with_reducible exact Kept.refl _

theorem kept_migrateDone_modDirAny {x0 : Nat} {x1 : DirEntry → DirEntry} {x2 : State} (h2 : Kept s0 x2) : Kept s0 (migrateDone.modDirAny x0 x1 x2) := by
  unfold migrateDone.modDirAny
  repeat' first
    | with_reducible assumption | intro _ | (simp only [kept_mk]; with_reducible apply keptC_upd)
    | with_reducible apply kept_setDir | split | dsimp only | with_reducible exact Kept.refl _

theorem kept_migrateDone {x0 : Nat} {x1 : Nat} {x2 : State} (h2 : Kept s0 x2) : Kept s0 (migrateDone x0 x1 x2) := by
  unfold migrateDone
  split
  · exact h2
  · split
    · exact h2
    · exact kept_endFop (kept_leaveChip (kept_dropMsgs (kept_updateCredit (kept_migrateDone_modDirAny h2))))

theorem kept_bodyFdyMigrate {x0 : Moment} {x1 : Req} {x2 : State} (h2 : Kept s0 x2) : Kept s0 (bodyFdyMigrate x0 x1 x2).st := by
  unfold bodyFdyMigrate
  repeat' first
    | with_reducible assumption | intro _ | (simp only [kept_mk]; with_reducible apply keptC_upd)
    | with_reducible apply kept_reply_ok | with_reducible apply kept_reply_err | with_reducible apply kept_reply_wait
    | with_reducible apply kept_ite_st | with_reducible apply kept_migrateStart | with_reducible apply kept_quiesce
    | with_reducible apply kept_migrateAsk | with_reducible apply kept_onSession | with_reducible apply kept_exportStart
    | with_reducible apply kept_Reply_err | with_reducible apply kept_beginFop | with_reducible apply kept_atRest
    | with_reducible apply kept_ite | split | dsimp only | with_reducible exact Kept.refl _

theorem kept_arrivePages {x0 : Moment} {x1 : Session} {x2 : Tab Bytes} {x3 : Tab Pte} {x4 : Nat} {x5 : State} (h5 : Kept s0 x5) : KeptE s0 (arrivePages x0 x1 x2 x3 x4 x5) := by
  induction x3 generalizing x0 x1 x2 x4 x5 with
  | nil =>
    unfold arrivePages
    repeat' first
      | with_reducible assumption | intro _ | (simp only [kept_mk]; with_reducible apply keptC_upd)
      | with_reducible apply kept_reply_ok | with_reducible apply kept_reply_err | with_reducible apply kept_reply_wait
      | with_reducible apply kept_ite_st | with_reducible apply kept_setPte | with_reducible apply kept_grabFrame
      | with_reducible apply kept_devWrite | with_reducible apply keptE_ok | with_reducible apply keptE_pure
      | with_reducible apply keptE_error | with_reducible apply keptE_ite | with_reducible apply keptE_map
      | with_reducible apply keptE_foldlM | with_reducible apply keptE_ebind | with_reducible apply keptE_ebindP
      | with_reducible apply keptE_bind | with_reducible apply kept_ite
      | with_reducible refine kept_of_okP (by assumption) ?_ | split | dsimp only | with_reducible exact Kept.refl _
  | cons a t ih =>
    unfold arrivePages
    repeat' first
      | with_reducible apply ih
      | with_reducible assumption | intro _ | (simp only [kept_mk]; with_reducible apply keptC_upd)
      | with_reducible apply kept_reply_ok | with_reducible apply kept_reply_err | with_reducible apply kept_reply_wait
      | with_reducible apply kept_ite_st | with_reducible apply kept_setPte | with_reducible apply kept_grabFrame
      | with_reducible apply kept_devWrite | with_reducible apply keptE_ok | with_reducible apply keptE_pure
      | with_reducible apply keptE_error | with_reducible apply keptE_ite | with_reducible apply keptE_map
      | with_reducible apply keptE_foldlM | with_reducible apply keptE_ebind | with_reducible apply keptE_ebindP
      | with_reducible apply keptE_bind | with_reducible apply kept_ite
      | with_reducible refine kept_of_okP (by assumption) ?_ | split | dsimp only | with_reducible exact Kept.refl _

theorem kept_arriveShared {x0 : Moment} {x1 : Session} {x2 : List Bytes} {x3 : State} (h3 : Kept s0 x3) : KeptE s0 (arriveShared x0 x1 x2 x3) := by
  unfold arriveShared
  repeat' first
    | with_reducible assumption | intro _ | (simp only [kept_mk]; with_reducible apply keptC_upd)
    | with_reducible apply kept_reply_ok | with_reducible apply kept_reply_err | with_reducible apply kept_reply_wait
    | with_reducible apply kept_ite_st | with_reducible apply kept_resolvePrefix | with_reducible apply keptE_ok
    | with_reducible apply keptE_pure | with_reducible apply keptE_error | with_reducible apply keptE_ite
    | with_reducible apply keptE_map | with_reducible apply keptE_foldlM | with_reducible apply keptE_ebind
    | with_reducible apply keptE_ebindP | with_reducible apply keptE_bind
    | with_reducible refine kept_of_ok (by assumption) ?_ | with_reducible apply keptEP_ebind
    | with_reducible apply keptEP_ebindP | split | dsimp only | with_reducible exact Kept.refl _

theorem kept_undoArrival {x0 : Nat} {x1 : State} (h1 : Kept s0 x1) : Kept s0 (undoArrival x0 x1) := by
  unfold undoArrival
  repeat' first
    | with_reducible assumption
    | (simp only [kept_mk]; first | with_reducible apply keptC_upd | refine keptC_updHmk ?_ (by first | exact Nat.le_refl _ | exact Nat.le_add_right _ _ | omega) (by exact Nat.le_refl _) (by rfl))
    | with_reducible apply kept_freeSlot | with_reducible apply kept_dropPages | with_reducible apply kept_dropTables
    | dsimp only | with_reducible exact Kept.refl _

theorem kept_arrive {x0 : Moment} {x1 : SState} {x2 : Session} {x3 : Store} {x4 : Nat} {x5 : List Bytes} {x6 : Tab Bytes} {x7 : State} (h7 : Kept s0 x7) : KeptE s0 (arrive x0 x1 x2 x3 x4 x5 x6 x7) := by
  unfold arrive
  repeat' first
    | with_reducible assumption | intro _ | (simp only [kept_mk]; with_reducible apply keptC_upd)
    | with_reducible apply kept_reply_ok | with_reducible apply kept_reply_err | with_reducible apply kept_reply_wait
    | with_reducible apply kept_ite_st | with_reducible apply kept_arrivePages | with_reducible apply kept_arriveShared
    | with_reducible apply kept_takeSlot | with_reducible apply kept_setStore | with_reducible apply kept_buildTables
    | with_reducible apply keptE_ok | with_reducible apply keptE_pure | with_reducible apply keptE_error
    | with_reducible apply keptE_ite | with_reducible apply keptE_map | with_reducible apply keptE_foldlM
    | with_reducible apply keptE_ebind | with_reducible apply keptE_ebindP | with_reducible apply keptE_bind
    | with_reducible refine kept_of_ok (by assumption) ?_ | with_reducible apply keptEP_ebind
    | with_reducible apply keptEP_ebindP | split | dsimp only | with_reducible exact Kept.refl _

theorem kept_migrateArrive {x0 : Moment} {x1 : Nat} {x2 : Nat} {x3 : MigrateIn} {x4 : State} (h4 : Kept s0 x4) : Kept s0 (migrateArrive x0 x1 x2 x3 x4) := by
  unfold migrateArrive
  repeat' first
    | with_reducible assumption | intro _ | (simp only [kept_mk]; with_reducible apply keptC_upd)
    | with_reducible apply kept_reply_ok | with_reducible apply kept_reply_err | with_reducible apply kept_reply_wait
    | with_reducible apply kept_ite_st | with_reducible apply kept_newFop | with_reducible apply kept_arrive
    | with_reducible apply kept_sendSwl | with_reducible apply kept_bindGen | with_reducible apply kept_starve
    | with_reducible apply kept_ite | with_reducible apply kept_getD | with_reducible refine kept_of_ok (by assumption) ?_
    | with_reducible refine kept_of_snd (by assumption) ?_ | split | dsimp only | with_reducible exact Kept.refl _

theorem kept_arrivalDone {x0 : Nat} {x1 : State} (h1 : Kept s0 x1) : Kept s0 (arrivalDone x0 x1) := by
  unfold arrivalDone
  repeat' first
    | with_reducible assumption | intro _ | (simp only [kept_mk]; with_reducible apply keptC_upd)
    | with_reducible apply kept_delFop | with_reducible apply kept_creditIn | with_reducible apply kept_bindGen
    | with_reducible apply kept_setState | with_reducible apply kept_modSess | with_reducible apply kept_modDir
    | with_reducible apply kept_rearmCast | with_reducible apply kept_updateCredit | with_reducible apply kept_ite
    | with_reducible apply kept_getD | split | dsimp only | with_reducible exact Kept.refl _

theorem kept_arrivalFailed {x0 : Nat} {x1 : State} (h1 : Kept s0 x1) : Kept s0 (arrivalFailed x0 x1) := by
  unfold arrivalFailed
  repeat' first
    | with_reducible assumption | intro _ | (simp only [kept_mk]; with_reducible apply keptC_upd)
    | with_reducible apply kept_delFop | with_reducible apply kept_bindGen | with_reducible apply kept_undoArrival | split
    | dsimp only | with_reducible exact Kept.refl _

theorem kept_forwardWaiting {x0 : Nat} {x1 : List Req} {x2 : State} (h2 : Kept s0 x2) : Kept s0 (forwardWaiting x0 x1 x2) := by
  unfold forwardWaiting
  repeat' first
    | with_reducible assumption | intro _ | with_reducible apply kept_answer | with_reducible apply kept_forwardTo
    | with_reducible apply kept_foldl | with_reducible apply kept_foldl_snd | dsimp only | with_reducible exact Kept.refl _

theorem kept_migrateConfirm {x0 : Nat} {x1 : Bool} {x2 : Nat} {x3 : Nat} {x4 : State} (h4 : Kept s0 x4) : Kept s0 (migrateConfirm x0 x1 x2 x3 x4) := by
  unfold migrateConfirm
  repeat' first
    | with_reducible assumption | intro _ | (simp only [kept_mk]; with_reducible apply keptC_upd)
    | with_reducible apply kept_reply_err | with_reducible apply kept_reply_wait | with_reducible apply kept_ite_st
    | with_reducible apply kept_arrivalDone | with_reducible apply kept_arrivalFailed | with_reducible apply kept_migrateFail
    | with_reducible apply kept_forwardWaiting | with_reducible apply kept_migrateDone | with_reducible apply kept_answer
    | with_reducible apply kept_ite | with_reducible apply keptO_ite | with_reducible exact kept_of_hypO ‹_›
    | with_reducible apply keptO_map | with_reducible apply keptO_some | with_reducible apply keptO_none
    | with_reducible apply keptO_foldl | with_reducible apply keptP_ite | with_reducible exact kept_of_hypP ‹_›
    | with_reducible apply keptP_map | with_reducible apply keptP_some | with_reducible apply keptP_none
    | with_reducible apply keptP_foldl | with_reducible apply keptE_ite | with_reducible exact kept_of_hypE ‹_›
    | with_reducible apply keptE_map | with_reducible apply keptE_ok | with_reducible apply keptEP_ite
    | with_reducible exact kept_of_hypEP ‹_› | with_reducible apply keptEP_ok | with_reducible apply keptEE_ite
    | with_reducible apply keptEE_ok | with_reducible apply kept_foldl | with_reducible apply kept_foldl_snd
    | with_reducible apply kept_getD | with_reducible refine kept_of_ok (by assumption) ?_
    | with_reducible refine kept_of_error (by assumption) ?_ | with_reducible refine kept_of_okP (by assumption) ?_
    | with_reducible refine kept_of_some (by assumption) ?_ | with_reducible refine kept_of_someP (by assumption) ?_
    | with_reducible refine kept_of_fst (by assumption) ?_ | with_reducible refine kept_of_snd (by assumption) ?_
    | with_reducible refine kept_of_snd2 (by assumption) ?_ | with_reducible refine kept_of_snd3 (by assumption) ?_
    | with_reducible refine keptP_of_snd (by assumption) ?_ | split | dsimp only | with_reducible exact Kept.refl _

theorem kept_arriveJournal {x0 : Moment} {x1 : Session} {x2 : State} (h2 : Kept s0 x2) : KeptE s0 (arriveJournal x0 x1 x2) := by
  unfold arriveJournal
  repeat' first
    | with_reducible assumption | intro _ | (simp only [kept_mk]; with_reducible apply keptC_upd)
    | with_reducible apply kept_reply_ok | with_reducible apply kept_reply_err | with_reducible apply kept_reply_wait
    | with_reducible apply kept_ite_st | with_reducible apply kept_grabTable | with_reducible apply kept_growJournal
    | with_reducible apply kept_modSess | with_reducible apply kept_modStore | with_reducible apply keptE_ok
    | with_reducible apply keptE_pure | with_reducible apply keptE_error | with_reducible apply keptE_ite
    | with_reducible apply keptE_map | with_reducible apply keptE_foldlM | with_reducible apply keptE_ebind
    | with_reducible apply keptE_ebindP | with_reducible apply keptE_bind
    | with_reducible refine kept_of_ok (by assumption) ?_ | with_reducible refine kept_of_okP (by assumption) ?_ | split
    | dsimp only | with_reducible exact Kept.refl _

theorem kept_exportCommit {x0 : Moment} {x1 : ExportIn} {x2 : State} (h2 : Kept s0 x2) : Kept s0 (exportCommit x0 x1 x2) := by
  unfold exportCommit
  repeat' first
    | with_reducible assumption | intro _ | (simp only [kept_mk]; with_reducible apply keptC_upd)
    | with_reducible apply kept_reply_ok | with_reducible apply kept_reply_err | with_reducible apply kept_reply_wait
    | with_reducible apply kept_ite_st | with_reducible apply kept_arrive | with_reducible apply kept_modSess
    | with_reducible apply kept_arriveJournal | with_reducible apply kept_bindGen | with_reducible apply kept_creditIn
    | with_reducible apply kept_emit | with_reducible apply kept_emitPkt | with_reducible apply kept_starve | with_reducible apply kept_updateCredit
    | with_reducible apply kept_rearmCast | with_reducible apply kept_ite | with_reducible apply kept_getD
    | with_reducible refine kept_of_ok (by assumption) ?_ | with_reducible apply keptE_ebind
    | with_reducible apply keptE_ebindP | with_reducible apply keptEP_ebind | with_reducible apply keptEP_ebindP | split
    | dsimp only | with_reducible exact Kept.refl _

end Sys2Proof.Machine
end

