-- ==== Sys2Proof/Laws/KeptEngines.lean ====
section
/-! SUPPORT. What the definitions of Sys2Proof/Machine/Engines.lean keep. -/

set_option linter.unusedSimpArgs false

namespace Sys2Proof.Machine

variable {s0 : State}

theorem kept_issueRead {x0 : Nat} {x1 : Desc} {x2 : State} (h2 : Kept s0 x2) : KeptE s0 (issueRead x0 x1 x2) := by
  unfold issueRead
  repeat' first
    | with_reducible assumption | intro _ | (simp only [kept_mk]; with_reducible apply keptC_upd)
    | with_reducible apply kept_reply_ok | with_reducible apply kept_reply_err | with_reducible apply kept_reply_wait
    | with_reducible apply kept_ite_st | with_reducible apply kept_sendSwl | with_reducible apply kept_rangeRead
    | with_reducible apply keptE_ok | with_reducible apply keptE_pure | with_reducible apply keptE_error
    | with_reducible apply keptE_ite | with_reducible apply keptE_map | with_reducible apply keptE_foldlM
    | with_reducible apply keptE_ebind | with_reducible apply keptE_ebindP | with_reducible apply keptE_bind
    | with_reducible apply kept_ite | split | dsimp only | with_reducible exact Kept.refl _

theorem kept_copyBytes {x0 : Desc} {x1 : Bytes} {x2 : State} (h2 : Kept s0 x2) : Kept s0 (copyBytes x0 x1 x2).2 := by
  unfold copyBytes
  repeat' first
    | with_reducible assumption | intro _ | (simp only [kept_mk]; with_reducible apply keptC_upd)
    | with_reducible apply kept_fresh | with_reducible apply kept_ite | with_reducible apply kept_ite_snd
    | with_reducible refine kept_of_snd (by assumption) ?_ | split | dsimp only | with_reducible exact Kept.refl _

theorem kept_issueWrite {x0 : Nat} {x1 : Desc} {x2 : Bytes} {x3 : State} (h3 : Kept s0 x3) : KeptE s0 (issueWrite x0 x1 x2 x3) := by
  unfold issueWrite
  repeat' first
    | with_reducible assumption | intro _ | (simp only [kept_mk]; with_reducible apply keptC_upd)
    | with_reducible apply kept_reply_ok | with_reducible apply kept_reply_err | with_reducible apply kept_reply_wait
    | with_reducible apply kept_ite_st | with_reducible apply kept_rangeWrite | with_reducible apply kept_sendSwl
    | with_reducible apply keptE_ok | with_reducible apply keptE_pure | with_reducible apply keptE_error
    | with_reducible apply keptE_ite | with_reducible apply keptE_map | with_reducible apply keptE_foldlM
    | with_reducible apply keptE_ebind | with_reducible apply keptE_ebindP | with_reducible apply keptE_bind
    | with_reducible apply kept_ite | split | dsimp only | with_reducible exact Kept.refl _

theorem kept_sourceIn {x0 : Nat} {x1 : Desc} {x2 : Bytes} {x3 : State} (h3 : Kept s0 x3) : KeptE s0 (sourceIn x0 x1 x2 x3) := by
  unfold sourceIn
  repeat' first
    | with_reducible assumption | intro _ | (simp only [kept_mk]; with_reducible apply keptC_upd)
    | with_reducible apply kept_copyBytes | with_reducible apply kept_issueWrite | with_reducible apply keptE_ok
    | with_reducible apply keptE_pure | with_reducible apply keptE_error | with_reducible apply keptE_ite
    | with_reducible apply keptE_map | with_reducible apply keptE_foldlM | with_reducible apply keptE_ebind
    | with_reducible apply keptE_ebindP | with_reducible apply keptE_bind | with_reducible apply kept_ite
    | with_reducible refine kept_of_ok (by assumption) ?_ | with_reducible refine kept_of_snd (by assumption) ?_ | split
    | dsimp only | with_reducible exact Kept.refl _

theorem kept_issueIo {x0 : Nat} {x1 : Desc} {x2 : State} (h2 : Kept s0 x2) : KeptE s0 (issueIo x0 x1 x2) := by
  unfold issueIo
  repeat' first
    | with_reducible assumption | intro _ | (simp only [kept_mk]; with_reducible apply keptC_upd)
    | with_reducible apply kept_issueRead | with_reducible apply kept_issueWrite | with_reducible apply kept_sourceIn
    | with_reducible apply keptE_ok | with_reducible apply keptE_pure | with_reducible apply keptE_error
    | with_reducible apply keptE_ite | with_reducible apply keptE_map | with_reducible apply keptE_foldlM
    | with_reducible apply keptE_ebind | with_reducible apply keptE_ebindP | with_reducible apply keptE_bind
    | with_reducible apply kept_ite | split | dsimp only | with_reducible exact Kept.refl _

theorem kept_submitEnd {x0 : Nat} {x1 : Nat} {x2 : State} (h2 : Kept s0 x2) : Kept s0 (submitEnd x0 x1 x2) := by
  unfold submitEnd
  repeat' first
    | with_reducible assumption | intro _ | (simp only [kept_mk]; with_reducible apply keptC_upd)
    | with_reducible apply kept_endOp | with_reducible apply kept_delFop | with_reducible apply kept_dropDescs
    | with_reducible apply kept_ite | split | dsimp only | with_reducible exact Kept.refl _

theorem kept_failDesc {x0 : Nat} {x1 : Nat} {x2 : State} (h2 : Kept s0 x2) : Kept s0 (failDesc x0 x1 x2) := by
  unfold failDesc
  repeat' first
    | with_reducible assumption | intro _ | (simp only [kept_mk]; with_reducible apply keptC_upd)
    | with_reducible apply kept_deviceFatal | with_reducible apply kept_pullFailed | with_reducible apply kept_migrateFail
    | with_reducible apply kept_emit | with_reducible apply kept_dropMsgs | with_reducible apply kept_listPageFail
    | with_reducible apply kept_dropDesc | with_reducible apply kept_submitEnd | with_reducible apply kept_imageLost
    | with_reducible apply kept_castFail | with_reducible apply kept_cancelRunAhead | with_reducible apply kept_ite | split
    | dsimp only | with_reducible exact Kept.refl _

theorem kept_descriptorIssue {x0 : Nat} {x1 : State} (h1 : Kept s0 x1) : Kept s0 (descriptorIssue x0 x1) := by
  unfold descriptorIssue
  repeat' first
    | with_reducible assumption | intro _ | (simp only [kept_mk]; with_reducible apply keptC_upd)
    | with_reducible apply kept_reply_ok | with_reducible apply kept_reply_err | with_reducible apply kept_reply_wait
    | with_reducible apply kept_ite_st | with_reducible apply kept_issueIo | with_reducible apply kept_failDesc
    | with_reducible apply kept_post | with_reducible apply kept_fopPhase | with_reducible apply kept_pumpAll
    | with_reducible apply kept_ite | with_reducible refine kept_of_ok (by assumption) ?_ | split | dsimp only
    | with_reducible exact Kept.refl _

theorem kept_cancelFop {x0 : Nat} {x1 : State} (h1 : Kept s0 x1) : Kept s0 (cancelFop x0 x1) := by
  unfold cancelFop
  repeat' first
    | with_reducible assumption | intro _ | (simp only [kept_mk]; with_reducible apply keptC_upd)
    | with_reducible apply kept_castFail | with_reducible apply kept_raiseFail | with_reducible apply kept_cancelRunAhead
    | with_reducible apply kept_migrateFail | with_reducible apply kept_submitEnd | with_reducible apply kept_ite | split
    | dsimp only | with_reducible exact Kept.refl _

theorem kept_copyDone {x0 : Desc} {x1 : Bytes} {x2 : State} (h2 : Kept s0 x2) : Kept s0 (copyDone x0 x1 x2) := by
  unfold copyDone
  repeat' first
    | with_reducible assumption | intro _ | (simp only [kept_mk]; with_reducible apply keptC_upd)
    | with_reducible apply kept_reply_ok | with_reducible apply kept_reply_err | with_reducible apply kept_reply_wait
    | with_reducible apply kept_ite_st | with_reducible apply kept_sgWrite | with_reducible apply kept_emit
    | with_reducible apply kept_modFop | with_reducible apply kept_progressOp | with_reducible apply kept_submitEnd
    | with_reducible apply kept_devWrite | with_reducible apply kept_ite
    | with_reducible refine kept_of_fst (by assumption) ?_ | split | dsimp only | with_reducible exact Kept.refl _

theorem kept_finishDesc {x0 : Moment} {x1 : Nat} {x2 : Desc} {x3 : Bytes} {x4 : State} (h4 : Kept s0 x4) : Kept s0 (finishDesc x0 x1 x2 x3 x4) := by
  unfold finishDesc
  repeat' first
    | with_reducible assumption | intro _ | (simp only [kept_mk]; with_reducible apply keptC_upd)
    | with_reducible apply kept_post | with_reducible apply kept_bump | with_reducible apply kept_dropMsgs
    | with_reducible apply kept_castPageDone | with_reducible apply kept_imageWritten | with_reducible apply kept_castCommit
    | with_reducible apply kept_imageGot | with_reducible apply kept_imageLost | with_reducible apply kept_listPageDone
    | with_reducible apply kept_raisePageDone | with_reducible apply kept_migratePageDone | with_reducible apply kept_copyDone
    | with_reducible apply kept_ite | split | dsimp only | with_reducible exact Kept.refl _

theorem kept_descriptorComplete {x0 : Moment} {x1 : Nat} {x2 : DescResult} {x3 : State} (h3 : Kept s0 x3) : Kept s0 (descriptorComplete x0 x1 x2 x3) := by
  unfold descriptorComplete
  repeat' first
    | with_reducible assumption | intro _ | (simp only [kept_mk]; with_reducible apply keptC_upd)
    | with_reducible apply kept_reply_ok | with_reducible apply kept_reply_err | with_reducible apply kept_reply_wait
    | with_reducible apply kept_ite_st | with_reducible apply kept_failDesc | with_reducible apply kept_cancelFop
    | with_reducible apply kept_finishDesc | with_reducible apply kept_dropMsgs | with_reducible apply kept_sourceIn
    | with_reducible apply kept_ite | with_reducible apply kept_getD | with_reducible refine kept_of_ok (by assumption) ?_
    | with_reducible apply keptE_ebind | with_reducible apply keptE_ebindP | with_reducible apply keptEP_ebind
    | with_reducible apply keptEP_ebindP | split | dsimp only | with_reducible exact Kept.refl _

theorem kept_execRunaheadTtlExpiry {x0 : Moment} {x1 : Nat} {x2 : State} (h2 : Kept s0 x2) : KeptOut s0 (execRunaheadTtlExpiry x0 x1 x2) := by
  unfold execRunaheadTtlExpiry
  repeat' first
    | with_reducible assumption | intro _ | (simp only [kept_mk]; with_reducible apply keptC_upd)
    | with_reducible apply keptOut_next | with_reducible apply keptOut_ite | with_reducible apply kept_State_at
    | with_reducible apply kept_cancelRunAhead | with_reducible apply kept_ite | split | dsimp only
    | with_reducible exact Kept.refl _

theorem kept_pullTimeout {x0 : Nat} {x1 : State} (h1 : Kept s0 x1) : Kept s0 (pullTimeout x0 x1) := by
  unfold pullTimeout
  repeat' first
    | with_reducible assumption | intro _ | (simp only [kept_mk]; with_reducible apply keptC_upd)
    | with_reducible apply kept_failDesc | with_reducible apply kept_ite | with_reducible apply kept_getD | split | dsimp only
    | with_reducible exact Kept.refl _

theorem kept_promoteBody_wait {x0 : Nat} {x1 : DirEntry} {x2 : Nat} {x3 : State} (h3 : Kept s0 x3) : Kept s0 (promoteBody.wait x0 x1 x2 x3).st := by
  unfold promoteBody.wait
  repeat' first
    | with_reducible assumption | intro _ | (simp only [kept_mk]; with_reducible apply keptC_upd)
    | with_reducible apply kept_reply_ok | with_reducible apply kept_reply_err | with_reducible apply kept_reply_wait
    | with_reducible apply kept_ite_st | with_reducible apply kept_Reply_err | with_reducible apply kept_queueRaise | split
    | dsimp only | with_reducible exact Kept.refl _

theorem kept_promoteBody {x0 : Moment} {x1 : Nat} {x2 : Bool} {x3 : State} (h3 : Kept s0 x3) : Kept s0 (promoteBody x0 x1 x2 x3).st := by
  unfold promoteBody
  repeat' first
    | with_reducible assumption | intro _ | (simp only [kept_mk]; with_reducible apply keptC_upd)
    | with_reducible apply kept_reply_ok | with_reducible apply kept_reply_err | with_reducible apply kept_reply_wait
    | with_reducible apply kept_ite_st | with_reducible apply kept_promote | with_reducible apply kept_promoteBody_wait
    | with_reducible apply kept_Reply_err | with_reducible apply kept_ite | with_reducible apply kept_getD | split
    | dsimp only | with_reducible exact Kept.refl _

theorem kept_promoteAway {x0 : Nat} {x1 : Nat} {x2 : State} (h2 : Kept s0 x2) : Kept s0 (promoteAway x0 x1 x2).st := by
  unfold promoteAway
  repeat' first
    | with_reducible assumption | intro _ | (simp only [kept_mk]; with_reducible apply keptC_upd)
    | with_reducible apply kept_reply_ok | with_reducible apply kept_reply_err | with_reducible apply kept_reply_wait
    | with_reducible apply kept_ite_st | with_reducible apply kept_sendSwl | with_reducible apply kept_Reply_ok
    | with_reducible apply kept_Reply_err | with_reducible apply kept_ite | split | dsimp only
    | with_reducible exact Kept.refl _

theorem kept_raiseHere {x0 : Moment} {x1 : Req} {x2 : Bool} {x3 : Nat} {x4 : DirEntry} {x5 : State} (h5 : Kept s0 x5) : Kept s0 (raiseHere x0 x1 x2 x3 x4 x5).st := by
  unfold raiseHere
  repeat' first
    | with_reducible assumption | intro _ | (simp only [kept_mk]; with_reducible apply keptC_upd)
    | with_reducible apply kept_reply_ok | with_reducible apply kept_reply_err | with_reducible apply kept_reply_wait
    | with_reducible apply kept_ite_st | with_reducible apply kept_runAheadStart | with_reducible apply kept_raiseStart
    | with_reducible apply kept_promoteAway | with_reducible apply kept_Reply_err | with_reducible apply kept_promoteBody
    | with_reducible apply kept_forwardTo | with_reducible apply kept_ite | split | dsimp only
    | with_reducible exact Kept.refl _

theorem kept_raiseAway {x0 : Moment} {x1 : Req} {x2 : Nat} {x3 : Nat} {x4 : State} (h4 : Kept s0 x4) : Kept s0 (raiseAway x0 x1 x2 x3 x4).st := by
  unfold raiseAway
  repeat' first
    | with_reducible assumption | intro _ | (simp only [kept_mk]; with_reducible apply keptC_upd)
    | with_reducible apply kept_reply_ok | with_reducible apply kept_reply_err | with_reducible apply kept_reply_wait
    | with_reducible apply kept_ite_st | with_reducible apply kept_raiseStart | with_reducible apply kept_Reply_err
    | with_reducible apply kept_ite | split | dsimp only | with_reducible exact Kept.refl _

theorem kept_bodyFdyRaise {x0 : Moment} {x1 : Req} {x2 : State} (h2 : Kept s0 x2) : Kept s0 (bodyFdyRaise x0 x1 x2).st := by
  unfold bodyFdyRaise
  repeat' first
    | with_reducible assumption | intro _ | (simp only [kept_mk]; with_reducible apply keptC_upd)
    | with_reducible apply kept_reply_ok | with_reducible apply kept_reply_err | with_reducible apply kept_reply_wait
    | with_reducible apply kept_ite_st | with_reducible apply kept_runAheadStart | with_reducible apply kept_raiseAway
    | with_reducible apply kept_raiseHere | with_reducible apply kept_Reply_err | with_reducible apply kept_promoteBody
    | with_reducible apply kept_forwardTo | with_reducible apply kept_ite | with_reducible apply kept_getD | split
    | dsimp only | with_reducible exact Kept.refl _

theorem kept_claimAnswer {x0 : Nat} {x1 : Nat} {x2 : Nat} {x3 : Bytes} {x4 : State} (h4 : Kept s0 x4) : Kept s0 (claimAnswer x0 x1 x2 x3 x4) := by
  unfold claimAnswer
  repeat' first
    | with_reducible assumption | intro _ | (simp only [kept_mk]; with_reducible apply keptC_upd)
    | with_reducible apply kept_endOp | with_reducible apply kept_delFop | with_reducible apply kept_modStore
    | with_reducible apply kept_sendSwl | with_reducible apply kept_modFop | with_reducible apply kept_chainFail
    | with_reducible apply kept_claimGot | with_reducible apply kept_ite | split | dsimp only
    | with_reducible exact Kept.refl _

theorem kept_bodyFdyDirRead {x0 : Moment} {x1 : Req} {x2 : State} (h2 : Kept s0 x2) : Kept s0 (bodyFdyDirRead x0 x1 x2).st := by
  unfold bodyFdyDirRead
  repeat' first
    | with_reducible assumption | intro _ | (simp only [kept_mk]; with_reducible apply keptC_upd)
    | with_reducible apply kept_reply_err | with_reducible apply kept_ite_st | with_reducible apply kept_replyData
    | with_reducible apply kept_ite | split | dsimp only | with_reducible exact Kept.refl _

theorem kept_execFdyDirRead {x0 : Moment} {x1 : Req} {x2 : State} (h2 : Kept s0 x2) : KeptOut s0 (execFdyDirRead x0 x1 x2) := by
  unfold execFdyDirRead
  repeat' first
    | with_reducible assumption | with_reducible apply keptOut_next | with_reducible apply kept_runCommand
    | with_reducible apply kept_bodyFdyDirRead | dsimp only | with_reducible exact Kept.refl _

theorem kept_bodyFdyConfig {x0 : Moment} {x1 : Req} {x2 : State} (h2 : Kept s0 x2) : Kept s0 (bodyFdyConfig x0 x1 x2).st := by
  unfold bodyFdyConfig
  repeat' first
    | with_reducible assumption | intro _ | (simp only [kept_mk]; with_reducible apply keptC_upd)
    | with_reducible apply kept_reply_ok | with_reducible apply kept_reply_err | with_reducible apply kept_ite_st
    | with_reducible apply kept_ite | dsimp only | with_reducible exact Kept.refl _

theorem kept_execFdyConfig {x0 : Moment} {x1 : Req} {x2 : State} (h2 : Kept s0 x2) : KeptOut s0 (execFdyConfig x0 x1 x2) := by
  unfold execFdyConfig
  repeat' first
    | with_reducible assumption | with_reducible apply keptOut_next | with_reducible apply kept_runCommand
    | with_reducible apply kept_bodyFdyConfig | dsimp only | with_reducible exact Kept.refl _

theorem kept_bodyFdySubmit {x0 : Moment} {x1 : Req} {x2 : State} (h2 : Kept s0 x2) : Kept s0 (bodyFdySubmit x0 x1 x2).st := by
  unfold bodyFdySubmit
  repeat' first
    | with_reducible assumption | intro _ | (simp only [kept_mk]; with_reducible apply keptC_upd)
    | with_reducible apply kept_reply_ok | with_reducible apply kept_reply_err | with_reducible apply kept_ite_st
    | with_reducible apply kept_withData | with_reducible apply kept_asOp | with_reducible apply kept_newFop
    | with_reducible apply kept_addTodo | with_reducible apply kept_ite | with_reducible refine kept_of_snd (by assumption) ?_
    | split | dsimp only | with_reducible exact Kept.refl _

theorem kept_execFdySubmit {x0 : Moment} {x1 : Req} {x2 : State} (h2 : Kept s0 x2) : KeptOut s0 (execFdySubmit x0 x1 x2) := by
  unfold execFdySubmit
  repeat' first
    | with_reducible assumption | with_reducible apply keptOut_next | with_reducible apply kept_runCommand
    | with_reducible apply kept_bodyFdySubmit | dsimp only | with_reducible exact Kept.refl _

theorem kept_bodyFdyExportRelease {x0 : Moment} {x1 : Req} {x2 : State} (h2 : Kept s0 x2) : Kept s0 (bodyFdyExportRelease x0 x1 x2).st := by
  unfold bodyFdyExportRelease
  repeat' first
    | with_reducible assumption | intro _
    | (simp only [kept_mk]; first | with_reducible apply keptC_upd | refine keptC_updHmk ?_ (by first | exact Nat.le_refl _ | exact Nat.le_add_right _ _ | omega) (by exact Nat.le_refl _) (by rfl))
    | with_reducible apply kept_reply_ok | with_reducible apply kept_reply_err | with_reducible apply kept_ite_st
    | with_reducible apply kept_freeDir | with_reducible apply kept_forwardTo | with_reducible apply kept_ite | split
    | dsimp only | with_reducible exact Kept.refl _

theorem kept_execFdyExportRelease {x0 : Moment} {x1 : Req} {x2 : State} (h2 : Kept s0 x2) : KeptOut s0 (execFdyExportRelease x0 x1 x2) := by
  unfold execFdyExportRelease
  repeat' first
    | with_reducible assumption | with_reducible apply keptOut_next | with_reducible apply kept_runCommand
    | with_reducible apply kept_bodyFdyExportRelease | dsimp only | with_reducible exact Kept.refl _

end Sys2Proof.Machine
end

