-- ==== Sys2Proof/Laws/KeptSessions.lean ====
section
/-! SUPPORT. What the definitions of Sys2Proof/Machine/Sessions.lean keep. -/

set_option linter.unusedSimpArgs false

namespace Sys2Proof.Machine

variable {s0 : State}

theorem kept_admitPlace {x0 : Moment} {x1 : Nat} {x2 : Nat} {x3 : Nat} {x4 : Nat} {x5 : Nat} {x6 : Admit} {x7 : State} (h7 : Kept s0 x7) : KeptE s0 (admitPlace x0 x1 x2 x3 x4 x5 x6 x7) := by
  unfold admitPlace
  repeat' first
    | with_reducible assumption | intro _ | (simp only [kept_mk]; with_reducible apply keptC_upd)
    | with_reducible apply kept_reply_ok | with_reducible apply kept_reply_err | with_reducible apply kept_reply_wait
    | with_reducible apply kept_ite_st | with_reducible apply kept_resolvePrefix | with_reducible apply kept_grabTable
    | with_reducible apply kept_modSess | with_reducible apply kept_modStore | with_reducible apply kept_newDir
    | with_reducible apply kept_takeSlot | with_reducible apply kept_setStore | with_reducible apply kept_buildTables
    | with_reducible apply keptE_ok | with_reducible apply keptE_pure | with_reducible apply keptE_error
    | with_reducible apply keptE_ite | with_reducible apply keptE_map | with_reducible apply keptE_foldlM
    | with_reducible apply keptE_ebind | with_reducible apply keptE_ebindP | with_reducible apply keptE_bind
    | with_reducible apply kept_ite | with_reducible refine kept_of_ok (by assumption) ?_
    | with_reducible refine kept_of_okP (by assumption) ?_ | split | dsimp only | with_reducible exact Kept.refl _

theorem kept_tellSerials {x0 : State} (h0 : Kept s0 x0) : Kept s0 (tellSerials x0) := by
  unfold tellSerials
  repeat' first
    | with_reducible assumption | intro _ | (simp only [kept_mk]; with_reducible apply keptC_upd)
    | with_reducible apply kept_note | with_reducible apply kept_ite | split | dsimp only | with_reducible exact Kept.refl _

theorem kept_takeSerial {x0 : State} (h0 : Kept s0 x0) : Kept s0 (takeSerial x0) := by
  unfold takeSerial
  repeat' first
    | with_reducible assumption | intro _ | (simp only [kept_mk]; with_reducible apply keptC_upd)
    | with_reducible apply kept_tellSerials | split | dsimp only | with_reducible exact Kept.refl _

theorem kept_admitInto {x0 : Moment} {x1 : Nat} {x2 : Option Nat} {x3 : Admit} {x4 : Colouring} {x5 : Nat} {x6 : Nat} {x7 : State} (h7 : Kept s0 x7) : Kept s0 (admitInto x0 x1 x2 x3 x4 x5 x6 x7).st := by
  unfold admitInto
  repeat' first
    | with_reducible assumption | intro _ | (simp only [kept_mk]; with_reducible apply keptC_upd)
    | with_reducible apply kept_reply_ok | with_reducible apply kept_reply_err | with_reducible apply kept_reply_wait
    | with_reducible apply kept_ite_st | with_reducible apply kept_bump | with_reducible apply kept_admitPlace
    | with_reducible apply kept_countColour | with_reducible apply kept_bindGen | with_reducible apply kept_starve
    | with_reducible apply kept_post | with_reducible apply kept_takeSerial | with_reducible apply kept_ite
    | with_reducible apply kept_getD | with_reducible refine kept_of_ok (by assumption) ?_ | split | dsimp only
    | with_reducible exact Kept.refl _

theorem kept_admitAs {x0 : Moment} {x1 : Nat} {x2 : Option Nat} {x3 : Admit} {x4 : State} (h4 : Kept s0 x4) : Kept s0 (admitAs x0 x1 x2 x3 x4).st := by
  unfold admitAs
  repeat' first
    | with_reducible assumption | intro _ | (simp only [kept_mk]; with_reducible apply keptC_upd)
    | with_reducible apply kept_reply_ok | with_reducible apply kept_reply_err | with_reducible apply kept_reply_wait
    | with_reducible apply kept_ite_st | with_reducible apply kept_countColour | with_reducible apply kept_admitInto
    | with_reducible apply kept_refillMeters | with_reducible apply kept_ite | split | dsimp only
    | with_reducible exact Kept.refl _

theorem kept_bodySessionAdmit {x0 : Moment} {x1 : Req} {x2 : State} (h2 : Kept s0 x2) : Kept s0 (bodySessionAdmit x0 x1 x2).st := by
  unfold bodySessionAdmit
  repeat' first
    | with_reducible assumption | intro _ | (simp only [kept_mk]; with_reducible apply keptC_upd)
    | with_reducible apply kept_reply_ok | with_reducible apply kept_reply_err | with_reducible apply kept_reply_wait
    | with_reducible apply kept_ite_st | with_reducible apply kept_admitAs | with_reducible apply kept_Reply_ok
    | with_reducible apply kept_ite | split | dsimp only | with_reducible exact Kept.refl _

theorem kept_stopNow {x0 : Nat} {x1 : State} (h1 : Kept s0 x1) : Kept s0 (stopNow x0 x1).st := by
  unfold stopNow
  repeat' first
    | with_reducible assumption | intro _ | (simp only [kept_mk]; with_reducible apply keptC_upd)
    | with_reducible apply kept_reply_ok | with_reducible apply kept_reply_err | with_reducible apply kept_ite_st
    | with_reducible apply kept_stopSession | with_reducible apply kept_ite | split | dsimp only
    | with_reducible exact Kept.refl _

theorem kept_bodySessionStop {x0 : Moment} {x1 : Req} {x2 : State} (h2 : Kept s0 x2) : Kept s0 (bodySessionStop x0 x1 x2).st := by
  unfold bodySessionStop
  repeat' first
    | with_reducible assumption | intro _ | (simp only [kept_mk]; with_reducible apply keptC_upd)
    | with_reducible apply kept_reply_err | with_reducible apply kept_ite_st | with_reducible apply kept_onSession
    | with_reducible apply kept_atStep | with_reducible apply kept_stopNow | with_reducible apply kept_ite | split | dsimp only
    | with_reducible exact Kept.refl _

theorem kept_bodySessionRead {x0 : Moment} {x1 : Req} {x2 : State} (h2 : Kept s0 x2) : Kept s0 (bodySessionRead x0 x1 x2).st := by
  unfold bodySessionRead
  repeat' first
    | with_reducible assumption | intro _ | (simp only [kept_mk]; with_reducible apply keptC_upd)
    | with_reducible apply kept_reply_ok | with_reducible apply kept_reply_err | with_reducible apply kept_reply_wait
    | with_reducible apply kept_ite_st | with_reducible apply kept_onSession | with_reducible apply kept_Reply_ok
    | with_reducible apply kept_updateCredit | with_reducible apply kept_getD | split | dsimp only
    | with_reducible exact Kept.refl _

theorem kept_execSessionRead {x0 : Moment} {x1 : Req} {x2 : State} (h2 : Kept s0 x2) : KeptOut s0 (execSessionRead x0 x1 x2) := by
  unfold execSessionRead
  repeat' first
    | with_reducible assumption | with_reducible apply keptOut_next | with_reducible apply kept_runCommand
    | with_reducible apply kept_bodySessionRead | dsimp only | with_reducible exact Kept.refl _

theorem kept_setNow {x0 : Req} {x1 : Nat} {x2 : State} (h2 : Kept s0 x2) : Kept s0 (setNow x0 x1 x2).st := by
  unfold setNow
  repeat' first
    | with_reducible assumption | intro _ | (simp only [kept_mk]; with_reducible apply keptC_upd)
    | with_reducible apply kept_reply_ok | with_reducible apply kept_reply_err | with_reducible apply kept_ite_st
    | with_reducible apply kept_checked | with_reducible apply kept_modSess | with_reducible apply kept_rearmCast
    | with_reducible apply kept_ite | split | dsimp only | with_reducible exact Kept.refl _

theorem kept_setParked {x0 : Req} {x1 : Nat} {x2 : State} (h2 : Kept s0 x2) : Kept s0 (setParked x0 x1 x2).st := by
  unfold setParked
  repeat' first
    | with_reducible assumption | intro _ | (simp only [kept_mk]; with_reducible apply keptC_upd)
    | with_reducible apply kept_reply_ok | with_reducible apply kept_reply_err | with_reducible apply kept_checked
    | with_reducible apply kept_modDir | with_reducible apply kept_modStore | split | dsimp only
    | with_reducible exact Kept.refl _

theorem kept_setAway {x0 : Req} {x1 : Nat} {x2 : DirEntry} {x3 : State} (h3 : Kept s0 x3) : Kept s0 (setAway x0 x1 x2 x3).st := by
  unfold setAway
  repeat' first
    | with_reducible assumption | intro _ | (simp only [kept_mk]; with_reducible apply keptC_upd)
    | with_reducible apply kept_reply_ok | with_reducible apply kept_reply_err | with_reducible apply kept_reply_wait
    | with_reducible apply kept_ite_st | with_reducible apply kept_checked | with_reducible apply kept_modDir
    | with_reducible apply kept_Reply_err | with_reducible apply kept_forwardTo | with_reducible apply kept_ite | split
    | dsimp only | with_reducible exact Kept.refl _

theorem kept_bodySessionSet {x0 : Moment} {x1 : Req} {x2 : State} (h2 : Kept s0 x2) : Kept s0 (bodySessionSet x0 x1 x2).st := by
  unfold bodySessionSet
  repeat' first
    | with_reducible assumption | intro _ | (simp only [kept_mk]; with_reducible apply keptC_upd)
    | with_reducible apply kept_reply_ok | with_reducible apply kept_reply_err | with_reducible apply kept_reply_wait
    | with_reducible apply kept_ite_st | with_reducible apply kept_setParked | with_reducible apply kept_setNow
    | with_reducible apply kept_onSession | with_reducible apply kept_atStep | with_reducible apply kept_setAway
    | with_reducible apply kept_Reply_err | with_reducible apply kept_ite | split | dsimp only
    | with_reducible exact Kept.refl _

theorem kept_dropClaim {x0 : Nat} {x1 : DirEntry} {x2 : State} (h2 : Kept s0 x2) : Kept s0 (dropClaim x0 x1 x2) := by
  unfold dropClaim
  repeat' first
    | with_reducible assumption | intro _ | (simp only [kept_mk]; with_reducible apply keptC_upd)
    | with_reducible apply kept_cancelRunAhead | with_reducible apply kept_modDir | with_reducible apply kept_sendSwl
    | with_reducible apply kept_ite | split | dsimp only | with_reducible exact Kept.refl _

theorem kept_bodySessionRebind {x0 : Moment} {x1 : Req} {x2 : State} (h2 : Kept s0 x2) : Kept s0 (bodySessionRebind x0 x1 x2).st := by
  unfold bodySessionRebind
  repeat' first
    | with_reducible assumption | intro _ | (simp only [kept_mk]; with_reducible apply keptC_upd)
    | with_reducible apply kept_reply_err | with_reducible apply kept_reply_wait | with_reducible apply kept_ite_st
    | with_reducible apply kept_onSession | with_reducible apply kept_rebindNow | with_reducible apply kept_dropClaim
    | with_reducible apply kept_asOp | with_reducible apply kept_showRebind | with_reducible apply kept_addWaiting
    | with_reducible apply kept_ite | with_reducible apply kept_getD | split | dsimp only | with_reducible exact Kept.refl _

theorem kept_endSessionRebind {x0 : Nat} {x1 : LongOp} {x2 : State} (h2 : Kept s0 x2) : Kept s0 (endSessionRebind x0 x1 x2) := by
  unfold endSessionRebind
  repeat' first
    | with_reducible assumption | intro _ | (simp only [kept_mk]; with_reducible apply keptC_upd)
    | with_reducible apply kept_endOp | with_reducible apply kept_showRebind | with_reducible apply kept_modSess
    | with_reducible apply kept_ite | dsimp only | with_reducible exact Kept.refl _

theorem kept_disarm {x0 : Nat} {x1 : State} (h1 : Kept s0 x1) : Kept s0 (disarm x0 x1) := by
  unfold disarm
  repeat' first
    | with_reducible assumption | intro _ | (simp only [kept_mk]; with_reducible apply keptC_upd)
    | with_reducible apply kept_modDir | with_reducible apply kept_modSess | with_reducible apply kept_modStore
    | with_reducible apply kept_sendSwl | with_reducible apply kept_ite | with_reducible apply kept_getD | split
    | dsimp only | with_reducible exact Kept.refl _

theorem kept_tellRetired {x0 : Nat} {x1 : State} (h1 : Kept s0 x1) : Kept s0 (tellRetired x0 x1) := by
  unfold tellRetired
  repeat' first
    | with_reducible assumption | (simp only [kept_mk]; with_reducible apply keptC_upd) | with_reducible apply kept_gxWrite
    | with_reducible refine kept_of_ok (by assumption) ?_ | split | dsimp only | with_reducible exact Kept.refl _

theorem kept_releaseAll {x0 : Nat} {x1 : State} (h1 : Kept s0 x1) : Kept s0 (releaseAll x0 x1) := by
  unfold releaseAll
  repeat' first
    | with_reducible assumption | intro _ | (simp only [kept_mk]; with_reducible apply keptC_upd)
    | with_reducible apply kept_dropPages | with_reducible apply kept_sendSwl | with_reducible apply kept_dropJournal
    | with_reducible apply kept_freeDir | with_reducible apply kept_dropTables | with_reducible apply kept_tellRetired
    | with_reducible apply kept_foldl | with_reducible apply kept_foldl_snd | with_reducible apply kept_foldl_fst
    | with_reducible apply keptO_foldl | with_reducible apply keptP_foldl | with_reducible apply keptE_foldl
    | with_reducible apply keptEP_foldl | split | dsimp only | with_reducible exact Kept.refl _

theorem kept_answerGone {x0 : Req} {x1 : State} (h1 : Kept s0 x1) : Kept s0 (answerGone x0 x1) := by
  unfold answerGone
  repeat' first
    | with_reducible assumption | intro _ | with_reducible apply kept_reply_err | with_reducible apply kept_ite_st
    | with_reducible apply kept_answer | with_reducible apply kept_ite | with_reducible apply keptO_ite
    | with_reducible exact kept_of_hypO ‹_› | with_reducible apply keptP_ite | with_reducible exact kept_of_hypP ‹_›
    | with_reducible apply keptE_ite | with_reducible exact kept_of_hypE ‹_› | with_reducible apply keptEP_ite
    | with_reducible exact kept_of_hypEP ‹_› | with_reducible apply keptEE_ite
    | with_reducible refine kept_of_ok (by assumption) ?_ | with_reducible refine kept_of_error (by assumption) ?_
    | with_reducible refine kept_of_okP (by assumption) ?_ | with_reducible refine kept_of_some (by assumption) ?_
    | with_reducible refine kept_of_someP (by assumption) ?_ | with_reducible refine kept_of_fst (by assumption) ?_
    | with_reducible refine kept_of_snd (by assumption) ?_ | with_reducible refine kept_of_snd2 (by assumption) ?_
    | with_reducible refine kept_of_snd3 (by assumption) ?_ | with_reducible refine keptP_of_snd (by assumption) ?_ | dsimp only
    | with_reducible exact Kept.refl _

theorem kept_retireActive {x0 : Session} {x1 : State} (h1 : Kept s0 x1) : Kept s0 (retireActive x0 x1) := by
  unfold retireActive
  repeat' first
    | with_reducible assumption | intro _ | (simp only [kept_mk]; with_reducible apply keptC_upd)
    | with_reducible apply kept_disarm | with_reducible apply kept_dropIntake | with_reducible apply kept_creditOut
    | with_reducible apply kept_modDir | with_reducible apply kept_releaseAll | with_reducible apply kept_bindGen
    | with_reducible apply kept_freeSlot | with_reducible apply kept_skipHeld | with_reducible apply kept_leaveQueue
    | with_reducible apply kept_setState | with_reducible apply kept_updateCredit | with_reducible apply kept_answerGone
    | with_reducible apply kept_ite | with_reducible apply kept_foldl | with_reducible apply kept_foldl_snd
    | with_reducible apply kept_foldl_fst | with_reducible apply keptO_foldl | with_reducible apply keptP_foldl
    | with_reducible apply keptE_foldl | with_reducible apply keptEP_foldl | with_reducible apply kept_getD | split
    | dsimp only | with_reducible exact Kept.refl _

theorem kept_retireParked {x0 : Nat} {x1 : DirEntry} {x2 : State} (h2 : Kept s0 x2) : Kept s0 (retireParked x0 x1 x2) := by
  unfold retireParked
  repeat' first
    | with_reducible assumption | intro _ | (simp only [kept_mk]; with_reducible apply keptC_upd)
    | with_reducible apply kept_modDir | with_reducible apply kept_disarm | with_reducible apply kept_skipHeld
    | with_reducible apply kept_sendSwl | with_reducible apply kept_creditOut | with_reducible apply kept_releaseAll
    | with_reducible apply kept_bindGen | with_reducible apply kept_answerGone | with_reducible apply kept_ite
    | with_reducible apply kept_foldl | with_reducible apply kept_foldl_snd | with_reducible apply kept_getD | dsimp only
    | with_reducible exact Kept.refl _

theorem kept_bodySessionRetire {x0 : Moment} {x1 : Req} {x2 : State} (h2 : Kept s0 x2) : Kept s0 (bodySessionRetire x0 x1 x2).st := by
  unfold bodySessionRetire
  repeat' first
    | with_reducible assumption | intro _ | (simp only [kept_mk]; with_reducible apply keptC_upd)
    | with_reducible apply kept_reply_ok | with_reducible apply kept_reply_err | with_reducible apply kept_reply_wait
    | with_reducible apply kept_ite_st | with_reducible apply kept_onSession | with_reducible apply kept_dropClaim
    | with_reducible apply kept_retireParked | with_reducible apply kept_retireActive | with_reducible apply kept_asOp
    | with_reducible apply kept_addWaiting | with_reducible apply kept_ite | with_reducible apply kept_getD | split | dsimp only
    | with_reducible exact Kept.refl _

theorem kept_armNow {x0 : Nat} {x1 : Nat} {x2 : Nat} {x3 : State} (h3 : Kept s0 x3) : Kept s0 (armNow x0 x1 x2 x3).st := by
  unfold armNow
  repeat' first
    | with_reducible assumption | intro _ | (simp only [kept_mk]; with_reducible apply keptC_upd)
    | with_reducible apply kept_reply_ok | with_reducible apply kept_reply_err | with_reducible apply kept_ite_st
    | with_reducible apply kept_disarm | with_reducible apply kept_modDir | with_reducible apply kept_modSess
    | with_reducible apply kept_ite | split | dsimp only | with_reducible exact Kept.refl _

theorem kept_armActive {x0 : Req} {x1 : Session} {x2 : State} (h2 : Kept s0 x2) : Kept s0 (armActive x0 x1 x2).st := by
  unfold armActive
  repeat' first
    | with_reducible assumption | intro _ | (simp only [kept_mk]; with_reducible apply keptC_upd)
    | with_reducible apply kept_reply_ok | with_reducible apply kept_reply_err | with_reducible apply kept_reply_wait
    | with_reducible apply kept_ite_st | with_reducible apply kept_Reply_err | with_reducible apply kept_armNow
    | with_reducible apply kept_ite | split | dsimp only | with_reducible exact Kept.refl _

theorem kept_bodySessionArm {x0 : Moment} {x1 : Req} {x2 : State} (h2 : Kept s0 x2) : Kept s0 (bodySessionArm x0 x1 x2).st := by
  unfold bodySessionArm
  repeat' first
    | with_reducible assumption | intro _ | (simp only [kept_mk]; with_reducible apply keptC_upd)
    | with_reducible apply kept_reply_ok | with_reducible apply kept_reply_err | with_reducible apply kept_reply_wait
    | with_reducible apply kept_ite_st | with_reducible apply kept_inOrder | with_reducible apply kept_onSession
    | with_reducible apply kept_armActive | with_reducible apply kept_armNow | split | dsimp only
    | with_reducible exact Kept.refl _

theorem kept_bodySessionList {x0 : Moment} {x1 : Req} {x2 : State} (h2 : Kept s0 x2) : Kept s0 (bodySessionList x0 x1 x2).st := by
  unfold bodySessionList
  repeat' first
    | with_reducible assumption | intro _ | (simp only [kept_mk]; with_reducible apply keptC_upd)
    | with_reducible apply kept_reply_ok | with_reducible apply kept_reply_err | with_reducible apply kept_ite_st
    | with_reducible apply kept_asOp | with_reducible apply kept_Reply_sg | with_reducible apply kept_ite
    | with_reducible apply keptO_ite | with_reducible exact kept_of_hypO ‹_› | with_reducible apply keptP_ite
    | with_reducible exact kept_of_hypP ‹_› | with_reducible apply keptE_ite | with_reducible exact kept_of_hypE ‹_›
    | with_reducible apply keptE_ok | with_reducible apply keptE_error | with_reducible apply keptEP_ite
    | with_reducible exact kept_of_hypEP ‹_› | with_reducible apply keptEP_ok | with_reducible apply keptEP_error
    | with_reducible apply keptEE_ite | with_reducible apply keptEE_ok | with_reducible apply keptEE_error
    | with_reducible refine kept_of_ok (by assumption) ?_ | with_reducible refine kept_of_error (by assumption) ?_
    | with_reducible refine kept_of_okP (by assumption) ?_ | with_reducible refine kept_of_some (by assumption) ?_
    | with_reducible refine kept_of_someP (by assumption) ?_ | with_reducible refine kept_of_fst (by assumption) ?_
    | with_reducible refine kept_of_snd (by assumption) ?_ | with_reducible refine kept_of_snd2 (by assumption) ?_
    | with_reducible refine kept_of_snd3 (by assumption) ?_ | with_reducible refine keptP_of_snd (by assumption) ?_ | split
    | dsimp only | with_reducible exact Kept.refl _

theorem kept_execSessionList {x0 : Moment} {x1 : Req} {x2 : State} (h2 : Kept s0 x2) : KeptOut s0 (execSessionList x0 x1 x2) := by
  unfold execSessionList
  repeat' first
    | with_reducible assumption | with_reducible apply keptOut_next | with_reducible apply kept_runCommand
    | with_reducible apply kept_bodySessionList | dsimp only | with_reducible exact Kept.refl _

theorem kept_endSessionList {x0 : Nat} {x1 : LongOp} {x2 : State} (h2 : Kept s0 x2) : Kept s0 (endSessionList x0 x1 x2) := by
  unfold endSessionList
  repeat' first
    | with_reducible assumption | intro _ | (simp only [kept_mk]; with_reducible apply keptC_upd)
    | with_reducible apply kept_reply_ok | with_reducible apply kept_reply_err | with_reducible apply kept_ite_st
    | with_reducible apply kept_endOp | with_reducible apply kept_answer | with_reducible apply kept_sgWrite
    | with_reducible apply kept_progressOp | with_reducible apply kept_Reply_sg | with_reducible apply kept_ite
    | with_reducible apply keptO_ite | with_reducible exact kept_of_hypO ‹_› | with_reducible apply keptO_some
    | with_reducible apply keptO_none | with_reducible apply keptP_ite | with_reducible exact kept_of_hypP ‹_›
    | with_reducible apply keptP_some | with_reducible apply keptP_none | with_reducible apply keptE_ite
    | with_reducible exact kept_of_hypE ‹_› | with_reducible apply keptE_ok | with_reducible apply keptE_error
    | with_reducible apply keptEP_ite | with_reducible exact kept_of_hypEP ‹_› | with_reducible apply keptEP_ok
    | with_reducible apply keptEP_error | with_reducible apply keptEE_ite | with_reducible apply keptEE_ok
    | with_reducible apply keptEE_error | with_reducible refine kept_of_ok (by assumption) ?_
    | with_reducible refine kept_of_error (by assumption) ?_ | with_reducible refine kept_of_okP (by assumption) ?_
    | with_reducible refine kept_of_some (by assumption) ?_ | with_reducible refine kept_of_someP (by assumption) ?_
    | with_reducible refine kept_of_fst (by assumption) ?_ | with_reducible refine kept_of_snd (by assumption) ?_
    | with_reducible refine kept_of_snd2 (by assumption) ?_ | with_reducible refine kept_of_snd3 (by assumption) ?_
    | with_reducible refine keptP_of_snd (by assumption) ?_ | split | dsimp only | with_reducible exact Kept.refl _

theorem kept_bodyJournalRead {x0 : Moment} {x1 : Req} {x2 : State} (h2 : Kept s0 x2) : Kept s0 (bodyJournalRead x0 x1 x2).st := by
  unfold bodyJournalRead
  repeat' first
    | with_reducible assumption | intro _ | (simp only [kept_mk]; with_reducible apply keptC_upd)
    | with_reducible apply kept_reply_ok | with_reducible apply kept_reply_err | with_reducible apply kept_reply_wait
    | with_reducible apply kept_ite_st | with_reducible apply kept_onStore | with_reducible apply kept_replyData
    | with_reducible apply kept_Reply_err | with_reducible apply kept_ite | split | dsimp only
    | with_reducible exact Kept.refl _

theorem kept_execJournalRead {x0 : Moment} {x1 : Req} {x2 : State} (h2 : Kept s0 x2) : KeptOut s0 (execJournalRead x0 x1 x2) := by
  unfold execJournalRead
  repeat' first
    | with_reducible assumption | with_reducible apply keptOut_next | with_reducible apply kept_runCommand
    | with_reducible apply kept_bodyJournalRead | dsimp only | with_reducible exact Kept.refl _

theorem kept_bodyPlnConfig {x0 : Moment} {x1 : Req} {x2 : State} (h2 : Kept s0 x2) : Kept s0 (bodyPlnConfig x0 x1 x2).st := by
  unfold bodyPlnConfig
  repeat' first
    | with_reducible assumption | intro _ | (simp only [kept_mk]; with_reducible apply keptC_upd)
    | with_reducible apply kept_reply_ok | with_reducible apply kept_reply_err | with_reducible apply kept_ite_st
    | with_reducible apply kept_dispatch | with_reducible apply kept_ite | dsimp only | with_reducible exact Kept.refl _

end Sys2Proof.Machine
end

