-- ==== Sys2Proof/Laws/KeptRegions.lean ====
section
/-! SUPPORT. What the definitions of Sys2Proof/Machine/Regions.lean keep. -/

set_option linter.unusedSimpArgs false

namespace Sys2Proof.Machine

variable {s0 : State}

theorem kept_regionWrite {x0 : Region} {x1 : Nat} {x2 : Bytes} {x3 : State} (h3 : Kept s0 x3) : Kept s0 (regionWrite x0 x1 x2 x3) := by
  unfold regionWrite
  repeat' first
    | with_reducible assumption | intro _ | with_reducible apply kept_devWrite | with_reducible exact kept_of_hypO ‹_›
    | with_reducible apply keptO_foldl | with_reducible exact kept_of_hypP ‹_› | with_reducible apply keptP_foldl
    | with_reducible exact kept_of_hypE ‹_› | with_reducible exact kept_of_hypEP ‹_› | with_reducible apply kept_foldl
    | with_reducible apply kept_foldl_snd | with_reducible apply kept_foldl_fst
    | with_reducible refine kept_of_ok (by assumption) ?_ | with_reducible refine kept_of_error (by assumption) ?_
    | with_reducible refine kept_of_okP (by assumption) ?_ | with_reducible refine kept_of_some (by assumption) ?_
    | with_reducible refine kept_of_someP (by assumption) ?_ | with_reducible refine kept_of_fst (by assumption) ?_
    | with_reducible refine kept_of_snd (by assumption) ?_ | with_reducible refine kept_of_snd2 (by assumption) ?_
    | with_reducible refine kept_of_snd3 (by assumption) ?_ | with_reducible refine keptP_of_snd (by assumption) ?_ | split
    | dsimp only | with_reducible exact Kept.refl _

end Sys2Proof.Machine
end

