-- ==== Sys2Proof/Laws/KeptChains.lean ====
section
/-! SUPPORT. What the definitions of Sys2Proof/Machine/Chains.lean keep. -/

set_option linter.unusedSimpArgs false

namespace Sys2Proof.Machine

variable {s0 : State}

theorem kept_modChain {x0 : Nat} {x1 : Chain → Chain} {x2 : State} (h2 : Kept s0 x2) : Kept s0 (modChain x0 x1 x2) := by
  unfold modChain
  repeat' first
    | with_reducible assumption | (simp only [kept_mk]; with_reducible apply keptC_upd)
    | with_reducible refine kept_of_done (by assumption) ?_ | with_reducible refine kept_of_failed (by assumption) ?_
    | with_reducible refine kept_of_applied (by assumption) ?_ | with_reducible refine kept_of_nak (by assumption) ?_
    | with_reducible refine kept_of_stop (by assumption) ?_ | dsimp only | with_reducible exact Kept.refl _

theorem kept_mirrorFiring {x0 : Nat} {x1 : Chain} {x2 : State} (h2 : Kept s0 x2) : Kept s0 (mirrorFiring x0 x1 x2) := by
  unfold mirrorFiring
  repeat' first
    | with_reducible assumption | intro _ | (simp only [kept_mk]; with_reducible apply keptC_upd)
    | with_reducible apply kept_sendSwl | with_reducible apply kept_ite | with_reducible refine kept_of_done (by assumption) ?_
    | with_reducible refine kept_of_failed (by assumption) ?_ | with_reducible refine kept_of_applied (by assumption) ?_
    | with_reducible refine kept_of_nak (by assumption) ?_ | with_reducible refine kept_of_stop (by assumption) ?_ | split
    | dsimp only | with_reducible exact Kept.refl _

theorem kept_failChain {x0 : Nat} {x1 : Nat} {x2 : State} (h2 : Kept s0 x2) : Kept s0 (failChain x0 x1 x2) := by
  unfold failChain
  repeat' first
    | with_reducible assumption
    | (simp only [kept_mk]; first | with_reducible apply keptC_upd | refine keptC_updHmk ?_ (by first | exact Nat.le_refl _ | exact Nat.le_add_right _ _ | omega) (by exact Nat.le_refl _) (by rfl))
    | with_reducible apply kept_note | with_reducible apply kept_freeChain
    | with_reducible refine kept_of_done (by assumption) ?_ | with_reducible refine kept_of_failed (by assumption) ?_
    | with_reducible refine kept_of_applied (by assumption) ?_ | with_reducible refine kept_of_nak (by assumption) ?_
    | with_reducible refine kept_of_stop (by assumption) ?_ | split | dsimp only | with_reducible exact Kept.refl _

theorem kept_WrEnd_ofReply {x0 : Reply} (h0 : Kept s0 x0.st) : KeptW s0 (WrEnd.ofReply x0) := by
  unfold WrEnd.ofReply
  repeat' first
    | with_reducible assumption | intro _ | with_reducible apply kept_ite_st | with_reducible apply kept_ite
    | with_reducible apply keptW_done | with_reducible apply keptW_failed | with_reducible apply keptW_ite
    | with_reducible refine kept_of_done (by assumption) ?_ | with_reducible refine kept_of_failed (by assumption) ?_
    | with_reducible refine kept_of_applied (by assumption) ?_ | with_reducible refine kept_of_nak (by assumption) ?_
    | with_reducible refine kept_of_stop (by assumption) ?_ | dsimp only | with_reducible exact Kept.refl _

theorem kept_wrAppend {x0 : Moment} {x1 : Chain} {x2 : Bool} {x3 : Bool} {x4 : State} (h4 : Kept s0 x4) : KeptW s0 (wrAppend x0 x1 x2 x3 x4) := by
  unfold wrAppend
  repeat' first
    | with_reducible assumption | intro _ | (simp only [kept_mk]; with_reducible apply keptC_upd)
    | with_reducible apply kept_ite_st | with_reducible apply kept_appendToks | with_reducible apply kept_appendBytes
    | with_reducible apply kept_WrEnd_ofReply | with_reducible apply kept_ite | with_reducible apply keptW_done
    | with_reducible apply keptW_failed | with_reducible apply keptW_ite | with_reducible refine kept_of_done (by assumption) ?_
    | with_reducible refine kept_of_failed (by assumption) ?_ | with_reducible refine kept_of_applied (by assumption) ?_
    | with_reducible refine kept_of_nak (by assumption) ?_ | with_reducible refine kept_of_stop (by assumption) ?_ | split
    | dsimp only | with_reducible exact Kept.refl _

theorem kept_wrAdmit {x0 : Moment} {x1 : Nat} {x2 : Chain} {x3 : Bytes} {x4 : Bool} {x5 : State} (h5 : Kept s0 x5) : KeptW s0 (wrAdmit x0 x1 x2 x3 x4 x5) := by
  unfold wrAdmit
  repeat' first
    | with_reducible assumption | intro _ | (simp only [kept_mk]; with_reducible apply keptC_upd)
    | with_reducible apply kept_reply_ok | with_reducible apply kept_reply_err | with_reducible apply kept_reply_wait
    | with_reducible apply kept_ite_st | with_reducible apply kept_admitAs | with_reducible apply kept_modChain
    | with_reducible apply kept_appendBytes | with_reducible apply kept_mirrorFiring
    | with_reducible apply kept_WrEnd_ofReply | with_reducible apply keptW_done | with_reducible apply keptW_failed
    | with_reducible apply keptW_ite | with_reducible apply kept_ite | with_reducible refine kept_of_done (by assumption) ?_
    | with_reducible refine kept_of_failed (by assumption) ?_ | split | dsimp only | with_reducible exact Kept.refl _

theorem kept_wrWrite {x0 : Nat} {x1 : Chain} {x2 : Bytes} {x3 : State} (h3 : Kept s0 x3) : KeptW s0 (wrWrite x0 x1 x2 x3) := by
  unfold wrWrite
  repeat' first
    | with_reducible assumption | intro _ | (simp only [kept_mk]; with_reducible apply keptC_upd)
    | with_reducible apply kept_gxWrite | with_reducible apply kept_rcSend | with_reducible apply kept_ite
    | with_reducible apply keptW_done | with_reducible apply keptW_failed | with_reducible apply keptW_ite
    | with_reducible refine kept_of_done (by assumption) ?_ | with_reducible refine kept_of_failed (by assumption) ?_
    | with_reducible refine kept_of_applied (by assumption) ?_ | with_reducible refine kept_of_nak (by assumption) ?_
    | with_reducible refine kept_of_stop (by assumption) ?_ | with_reducible refine kept_of_ok (by assumption) ?_ | split
    | dsimp only | with_reducible exact Kept.refl _

theorem kept_runWr {x0 : Moment} {x1 : Nat} {x2 : Chain} {x3 : Bytes} {x4 : State} (h4 : Kept s0 x4) : KeptW s0 (runWr x0 x1 x2 x3 x4) := by
  unfold runWr
  repeat' first
    | with_reducible assumption | intro _ | (simp only [kept_mk]; with_reducible apply keptC_upd)
    | with_reducible apply kept_wrAppend | with_reducible apply kept_wrAdmit | with_reducible apply kept_wrWrite
    | with_reducible apply kept_logEvent | with_reducible apply kept_ite | with_reducible apply keptW_done
    | with_reducible apply keptW_failed | with_reducible apply keptW_ite | with_reducible refine kept_of_done (by assumption) ?_
    | with_reducible refine kept_of_failed (by assumption) ?_ | with_reducible refine kept_of_applied (by assumption) ?_
    | with_reducible refine kept_of_nak (by assumption) ?_ | with_reducible refine kept_of_stop (by assumption) ?_ | split
    | dsimp only | with_reducible exact Kept.refl _

theorem kept_armedRaise {x0 : Moment} {x1 : Nat} {x2 : Nat} {x3 : State} (h3 : Kept s0 x3) : Kept s0 (armedRaise x0 x1 x2 x3).st := by
  unfold armedRaise
  repeat' first
    | with_reducible assumption | intro _ | (simp only [kept_mk]; with_reducible apply keptC_upd)
    | with_reducible apply kept_reply_ok | with_reducible apply kept_reply_err | with_reducible apply kept_reply_wait
    | with_reducible apply kept_ite_st | with_reducible apply kept_raiseAway | with_reducible apply kept_raiseHere
    | with_reducible apply kept_Reply_err | with_reducible apply kept_promoteBody | with_reducible apply kept_ite
    | with_reducible apply kept_getD | split | dsimp only | with_reducible exact Kept.refl _

theorem kept_chainRaise {x0 : Moment} {x1 : Nat} {x2 : Chain} {x3 : State} (h3 : Kept s0 x3) : KeptE s0 (chainRaise x0 x1 x2 x3) := by
  unfold chainRaise
  repeat' first
    | with_reducible assumption | intro _ | (simp only [kept_mk]; with_reducible apply keptC_upd)
    | with_reducible apply kept_reply_ok | with_reducible apply kept_reply_err | with_reducible apply kept_reply_wait
    | with_reducible apply kept_ite_st | with_reducible apply kept_armedRaise | with_reducible apply kept_queueRaise
    | with_reducible apply keptE_ok | with_reducible apply keptE_pure | with_reducible apply keptE_error
    | with_reducible apply keptE_ite | with_reducible apply keptE_map | with_reducible apply keptE_foldlM
    | with_reducible apply keptE_ebind | with_reducible apply keptE_ebindP | with_reducible apply keptE_bind
    | with_reducible apply kept_ite | with_reducible apply kept_getD | split | dsimp only | with_reducible exact Kept.refl _

theorem kept_recordChain {x0 : Nat} {x1 : Chain} {x2 : Session} {x3 : State} (h3 : Kept s0 x3) : Kept s0 (recordChain x0 x1 x2 x3) := by
  unfold recordChain
  repeat' first
    | with_reducible assumption | intro _ | (simp only [kept_mk]; with_reducible apply keptC_upd)
    | with_reducible apply kept_addWaiting | with_reducible apply kept_ite | split | dsimp only
    | with_reducible exact Kept.refl _

theorem kept_runChain {x0 : Moment} {x1 : Nat} {x2 : Nat} {x3 : State} (h3 : Kept s0 x3) : Kept s0 (runChain x0 x1 x2 x3) := by
  induction x2 generalizing x0 x1 x3 with
  | zero =>
    unfold runChain
    repeat' first
      | with_reducible assumption | intro _ | (simp only [kept_mk]; with_reducible apply keptC_upd)
      | with_reducible apply kept_reply_ok | with_reducible apply kept_reply_err | with_reducible apply kept_reply_wait
      | with_reducible apply kept_ite_st | with_reducible apply kept_recordChain | with_reducible apply kept_chainRaise
      | with_reducible apply kept_modChain | with_reducible apply kept_runWr | with_reducible apply kept_freeChain
      | with_reducible apply kept_failChain | with_reducible apply kept_ite
      | with_reducible refine kept_of_ok (by assumption) ?_ | with_reducible refine kept_of_done (by assumption) ?_
      | with_reducible refine kept_of_failed (by assumption) ?_ | split | dsimp only | with_reducible exact Kept.refl _
  | succ n ih =>
    unfold runChain
    repeat' first
      | with_reducible apply ih
      | with_reducible assumption | intro _ | (simp only [kept_mk]; with_reducible apply keptC_upd)
      | with_reducible apply kept_reply_ok | with_reducible apply kept_reply_err | with_reducible apply kept_reply_wait
      | with_reducible apply kept_ite_st | with_reducible apply kept_recordChain | with_reducible apply kept_chainRaise
      | with_reducible apply kept_modChain | with_reducible apply kept_runWr | with_reducible apply kept_freeChain
      | with_reducible apply kept_failChain | with_reducible apply kept_ite
      | with_reducible refine kept_of_ok (by assumption) ?_ | with_reducible refine kept_of_done (by assumption) ?_
      | with_reducible refine kept_of_failed (by assumption) ?_ | split | dsimp only | with_reducible exact Kept.refl _

theorem kept_fireChain {x0 : Moment} {x1 : Nat} {x2 : State} (h2 : Kept s0 x2) : Kept s0 (fireChain x0 x1 x2) := by
  unfold fireChain
  repeat' first
    | with_reducible assumption | intro _ | (simp only [kept_mk]; with_reducible apply keptC_upd)
    | with_reducible apply kept_modChain | with_reducible apply kept_disarm | with_reducible apply kept_mirrorFiring
    | with_reducible apply kept_runChain | with_reducible apply kept_ite | with_reducible refine kept_of_done (by assumption) ?_
    | with_reducible refine kept_of_failed (by assumption) ?_ | with_reducible refine kept_of_applied (by assumption) ?_
    | with_reducible refine kept_of_nak (by assumption) ?_ | with_reducible refine kept_of_stop (by assumption) ?_ | split
    | dsimp only | with_reducible exact Kept.refl _

theorem kept_shadowFiring {x0 : Moment} {x1 : Req} {x2 : State} (h2 : Kept s0 x2) : Kept s0 (shadowFiring x0 x1 x2) := by
  unfold shadowFiring
  repeat' first
    | with_reducible assumption | intro _ | (simp only [kept_mk]; with_reducible apply keptC_upd)
    | with_reducible apply kept_runChain | with_reducible refine kept_of_done (by assumption) ?_
    | with_reducible refine kept_of_failed (by assumption) ?_ | with_reducible refine kept_of_applied (by assumption) ?_
    | with_reducible refine kept_of_nak (by assumption) ?_ | with_reducible refine kept_of_stop (by assumption) ?_ | split
    | dsimp only | with_reducible exact Kept.refl _

theorem kept_sealAdmission {x0 : Moment} {x1 : Nat} {x2 : Chain} {x3 : State} (h3 : Kept s0 x3) : KeptF s0 (sealAdmission x0 x1 x2 x3) := by
  unfold sealAdmission
  repeat' first
    | with_reducible assumption | intro _ | (simp only [kept_mk]; with_reducible apply keptC_upd)
    | with_reducible apply kept_admitAs | with_reducible apply kept_fireChain | with_reducible apply keptF_applied
    | with_reducible apply keptF_nak | with_reducible apply keptF_ite | with_reducible apply kept_ite
    | with_reducible apply kept_getD | split | dsimp only | with_reducible exact Kept.refl _

theorem kept_sealParked {x0 : Moment} {x1 : Nat} {x2 : Nat} {x3 : State} (h3 : Kept s0 x3) : KeptF s0 (sealParked x0 x1 x2 x3) := by
  unfold sealParked
  repeat' first
    | with_reducible assumption | intro _ | (simp only [kept_mk]; with_reducible apply keptC_upd)
    | with_reducible apply kept_fireChain | with_reducible apply kept_queueRaise | with_reducible apply keptF_applied
    | with_reducible apply keptF_nak | with_reducible apply keptF_ite | with_reducible apply kept_ite
    | with_reducible apply kept_getD | split | dsimp only | with_reducible exact Kept.refl _

theorem kept_sealChain_hold {x0 : Nat} {x1 : Nat} {x2 : State} (h2 : Kept s0 x2) : Kept s0 (sealChain.hold x0 x1 x2) := by
  unfold sealChain.hold
  repeat' first
    | with_reducible assumption | intro _ | (simp only [kept_mk]; with_reducible apply keptC_upd)
    | with_reducible apply kept_disarm | with_reducible apply kept_modChain | split | dsimp only
    | with_reducible exact Kept.refl _

theorem kept_sealChain {x0 : Moment} {x1 : Nat} {x2 : Nat} {x3 : Nat} {x4 : Nat} {x5 : Nat} {x6 : State} (h6 : Kept s0 x6) : KeptF s0 (sealChain x0 x1 x2 x3 x4 x5 x6) := by
  unfold sealChain
  repeat' first
    | with_reducible apply kept_sealChain_hold
    | with_reducible assumption | intro _ | (simp only [kept_mk]; with_reducible apply keptC_upd)
    | with_reducible apply kept_modChain | with_reducible apply kept_note | with_reducible apply kept_sealAdmission
    | with_reducible apply kept_fireChain | with_reducible apply kept_refuse | with_reducible apply kept_sealParked
    | with_reducible apply kept_disarm | with_reducible apply kept_ite | with_reducible apply keptO_ite
    | with_reducible exact kept_of_hypO ‹_› | with_reducible apply keptO_some | with_reducible apply keptO_none
    | with_reducible apply keptP_ite | with_reducible exact kept_of_hypP ‹_› | with_reducible apply keptP_some
    | with_reducible apply keptP_none | with_reducible apply keptE_ite | with_reducible exact kept_of_hypE ‹_›
    | with_reducible apply keptEP_ite | with_reducible exact kept_of_hypEP ‹_› | with_reducible apply keptEE_ite
    | with_reducible apply keptF_applied | with_reducible apply keptF_nak | with_reducible apply keptF_ite
    | with_reducible refine kept_of_done (by assumption) ?_ | with_reducible refine kept_of_failed (by assumption) ?_
    | with_reducible refine kept_of_applied (by assumption) ?_ | with_reducible refine kept_of_nak (by assumption) ?_
    | with_reducible refine kept_of_stop (by assumption) ?_ | with_reducible refine kept_of_ok (by assumption) ?_
    | with_reducible refine kept_of_error (by assumption) ?_ | with_reducible refine kept_of_okP (by assumption) ?_
    | with_reducible refine kept_of_some (by assumption) ?_ | with_reducible refine kept_of_someP (by assumption) ?_
    | with_reducible refine kept_of_fst (by assumption) ?_ | with_reducible refine kept_of_snd (by assumption) ?_
    | with_reducible refine kept_of_snd2 (by assumption) ?_ | with_reducible refine kept_of_snd3 (by assumption) ?_
    | with_reducible refine keptP_of_snd (by assumption) ?_ | split | dsimp only | with_reducible exact Kept.refl _

theorem kept_chainAhead {x0 : Nat} {x1 : Nat} {x2 : Nat} {x3 : State} (h3 : Kept s0 x3) : Kept s0 (chainAhead x0 x1 x2 x3) := by
  unfold chainAhead
  repeat' first
    | with_reducible assumption | intro _ | (simp only [kept_mk]; with_reducible apply keptC_upd)
    | with_reducible apply kept_ite_st | with_reducible apply kept_runAheadStart | with_reducible apply kept_ite
    | with_reducible refine kept_of_done (by assumption) ?_ | with_reducible refine kept_of_failed (by assumption) ?_
    | with_reducible refine kept_of_applied (by assumption) ?_ | with_reducible refine kept_of_nak (by assumption) ?_
    | with_reducible refine kept_of_stop (by assumption) ?_ | split | dsimp only | with_reducible exact Kept.refl _

theorem kept_chainSealFailed {x0 : Nat} {x1 : Nat} {x2 : Nat} {x3 : State} (h3 : Kept s0 x3) : Kept s0 (chainSealFailed x0 x1 x2 x3) := by
  unfold chainSealFailed
  repeat' first
    | with_reducible assumption | (simp only [kept_mk]; with_reducible apply keptC_upd)
    | with_reducible apply kept_cancelRunAhead | with_reducible refine kept_of_done (by assumption) ?_
    | with_reducible refine kept_of_failed (by assumption) ?_ | with_reducible refine kept_of_applied (by assumption) ?_
    | with_reducible refine kept_of_nak (by assumption) ?_ | with_reducible refine kept_of_stop (by assumption) ?_ | split
    | dsimp only | with_reducible exact Kept.refl _

theorem kept_freeQpChains {x0 : Nat} {x1 : State} (h1 : Kept s0 x1) : Kept s0 (freeQpChains x0 x1) := by
  unfold freeQpChains
  repeat' first
    | with_reducible assumption | intro _ | with_reducible apply kept_freeChain | with_reducible apply kept_foldl
    | with_reducible apply kept_foldl_snd | with_reducible refine kept_of_done (by assumption) ?_
    | with_reducible refine kept_of_failed (by assumption) ?_ | with_reducible refine kept_of_applied (by assumption) ?_
    | with_reducible refine kept_of_nak (by assumption) ?_ | with_reducible refine kept_of_stop (by assumption) ?_
    | with_reducible apply kept_foldl_fst | dsimp only | with_reducible exact Kept.refl _

theorem kept_dequeueRaise {x0 : Moment} {x1 : State} (h1 : Kept s0 x1) : Kept s0 (dequeueRaise x0 x1) := by
  unfold dequeueRaise
  repeat' first
    | with_reducible assumption | intro _ | (simp only [kept_mk]; with_reducible apply keptC_upd)
    | with_reducible apply kept_armedRaise | with_reducible apply kept_chainFail | with_reducible apply kept_ite | split
    | dsimp only | with_reducible exact Kept.refl _

theorem kept_pressureCasts {x0 : Moment} {x1 : Nat} {x2 : State} (h2 : Kept s0 x2) : Kept s0 (pressureCasts x0 x1 x2) := by
  induction x1 generalizing x0 x2 with
  | zero =>
    unfold pressureCasts
    repeat' first
      | with_reducible assumption | intro _ | (simp only [kept_mk]; with_reducible apply keptC_upd)
      | with_reducible apply kept_requestCast | with_reducible apply kept_ite
      | with_reducible refine kept_of_done (by assumption) ?_ | with_reducible refine kept_of_failed (by assumption) ?_
      | with_reducible refine kept_of_applied (by assumption) ?_ | with_reducible refine kept_of_nak (by assumption) ?_
      | with_reducible refine kept_of_stop (by assumption) ?_ | split | dsimp only | with_reducible exact Kept.refl _
  | succ n ih =>
    unfold pressureCasts
    repeat' first
      | with_reducible apply ih
      | with_reducible assumption | intro _ | (simp only [kept_mk]; with_reducible apply keptC_upd)
      | with_reducible apply kept_requestCast | with_reducible apply kept_ite
      | with_reducible refine kept_of_done (by assumption) ?_ | with_reducible refine kept_of_failed (by assumption) ?_
      | with_reducible refine kept_of_applied (by assumption) ?_ | with_reducible refine kept_of_nak (by assumption) ?_
      | with_reducible refine kept_of_stop (by assumption) ?_ | split | dsimp only | with_reducible exact Kept.refl _

theorem kept_pressureBegin {x0 : State} (h0 : Kept s0 x0) : Kept s0 (pressureBegin x0) := by
  unfold pressureBegin
  repeat' first
    | with_reducible assumption | intro _ | (simp only [kept_mk]; with_reducible apply keptC_upd)
    | with_reducible apply kept_ite | split | dsimp only | with_reducible exact Kept.refl _

theorem kept_pressure {x0 : Moment} {x1 : State} (h1 : Kept s0 x1) : Kept s0 (pressure x0 x1) := by
  unfold pressure
  repeat' first
    | with_reducible assumption | intro _ | (simp only [kept_mk]; with_reducible apply keptC_upd)
    | with_reducible apply kept_logEvent | with_reducible apply kept_pressureCasts | with_reducible apply kept_pressureBegin
    | with_reducible apply kept_ite | split | dsimp only | with_reducible exact Kept.refl _

end Sys2Proof.Machine
end

