-- ==== Sys2Proof/Laws/KeptCuts.lean ====
section
/-! SUPPORT. What the definitions of Sys2Proof/Machine/Cuts.lean keep. -/

set_option linter.unusedSimpArgs false

namespace Sys2Proof.Machine

variable {s0 : State}

theorem kept_setGroupCk {x0 : Nat} {x1 : CkGroup} {x2 : State} (h2 : Kept s0 x2) : Kept s0 (setGroupCk x0 x1 x2) := by
  unfold setGroupCk
  repeat' first
    | with_reducible assumption | (simp only [kept_mk]; with_reducible apply keptC_upd) | dsimp only
    | with_reducible exact Kept.refl _

theorem kept_modCk {x0 : Nat} {x1 : CkGroup → CkGroup} {x2 : State} (h2 : Kept s0 x2) : Kept s0 (modCk x0 x1 x2) := by
  unfold modCk
  repeat' first
    | with_reducible assumption | (simp only [kept_mk]; with_reducible apply keptC_upd) | dsimp only
    | with_reducible exact Kept.refl _

theorem kept_clearCow {x0 : Nat} {x1 : State} (h1 : Kept s0 x1) : Kept s0 (clearCow x0 x1) := by
  unfold clearCow
  repeat' first
    | with_reducible assumption | intro _ | (simp only [kept_mk]; with_reducible apply keptC_upd)
    | with_reducible apply kept_modStore | with_reducible apply kept_ite | split | dsimp only
    | with_reducible exact Kept.refl _

theorem kept_dropCut {x0 : Captured} {x1 : State} (h1 : Kept s0 x1) : Kept s0 (dropCut x0 x1) := by
  unfold dropCut
  repeat' first
    | with_reducible assumption | intro _ | (simp only [kept_mk]; with_reducible apply keptC_upd)
    | with_reducible apply kept_dropHolder | with_reducible apply kept_clearCow | with_reducible apply kept_foldl
    | with_reducible apply kept_foldl_snd | with_reducible apply kept_foldl_fst | with_reducible apply keptO_foldl
    | with_reducible apply keptP_foldl | with_reducible apply keptE_foldl | with_reducible apply keptEP_foldl | split
    | dsimp only | with_reducible exact Kept.refl _

theorem kept_dropCmds {x0 : NvOwner} {x1 : State} (h1 : Kept s0 x1) : Kept s0 (dropCmds x0 x1) := by
  unfold dropCmds
  repeat' first
    | with_reducible assumption | intro _ | (simp only [kept_mk]; with_reducible apply keptC_upd) | dsimp only
    | with_reducible exact Kept.refl _

theorem kept_cutHold {x0 : Moment} {x1 : Nat} {x2 : List Nat} {x3 : State} (h3 : Kept s0 x3) : KeptEP s0 (cutHold x0 x1 x2 x3) := by
  unfold cutHold
  repeat' first
    | with_reducible assumption | intro _
    | (simp only [kept_mk]; first | with_reducible apply keptC_upd | with_reducible apply keptC_clear | refine keptC_updHmk ?_ (by first | exact Nat.le_refl _ | exact Nat.le_add_right _ _ | omega) (by exact Nat.le_refl _) (by rfl))
    | with_reducible apply kept_reply_ok | with_reducible apply kept_reply_err | with_reducible apply kept_reply_wait
    | with_reducible apply kept_ite_st | with_reducible apply kept_shareFrame | with_reducible apply keptO_some
    | with_reducible apply keptO_none | with_reducible apply keptO_ite | with_reducible apply keptO_obindS
    | with_reducible apply keptO_obind | with_reducible apply keptO_map | with_reducible apply keptO_bind
    | with_reducible apply keptEP_ok | with_reducible apply keptEP_pure | with_reducible apply keptEP_error
    | with_reducible apply keptEP_ite | with_reducible apply keptEP_foldlM | with_reducible apply keptEP_ebind
    | with_reducible apply keptEP_ebindP | with_reducible apply keptEP_bind | with_reducible apply kept_foldl
    | with_reducible apply kept_foldl_snd | with_reducible apply kept_foldl_fst | with_reducible apply keptO_foldl
    | with_reducible apply keptP_foldl | with_reducible apply keptE_foldl | with_reducible apply keptEP_foldl
    | with_reducible apply kept_getD | with_reducible exact kept_of_hypO ‹_› | with_reducible exact kept_of_hypP ‹_›
    | with_reducible exact kept_of_hypE ‹_› | with_reducible exact kept_of_hypEP ‹_›
    | with_reducible refine kept_of_some (by assumption) ?_ | with_reducible refine kept_of_someP (by assumption) ?_
    | with_reducible refine kept_of_ok (by assumption) ?_ | with_reducible refine kept_of_okP (by assumption) ?_
    | with_reducible refine kept_of_error (by assumption) ?_ | with_reducible refine kept_of_snd (by assumption) ?_
    | with_reducible refine kept_of_fst (by assumption) ?_ | with_reducible refine kept_of_snd2 (by assumption) ?_
    | with_reducible refine kept_of_snd3 (by assumption) ?_ | split | dsimp only | with_reducible exact Kept.refl _

theorem kept_leaveOut {x0 : Nat} {x1 : Nat} {x2 : State} (h2 : Kept s0 x2) : Kept s0 (leaveOut x0 x1 x2) := by
  unfold leaveOut
  repeat' first
    | with_reducible assumption | intro _ | (simp only [kept_mk]; with_reducible apply keptC_upd)
    | with_reducible apply kept_bump | with_reducible apply kept_modCk | with_reducible apply kept_getD | dsimp only
    | with_reducible exact Kept.refl _

theorem kept_captureAs {x0 : Moment} {x1 : Nat} {x2 : Nat} {x3 : Session} {x4 : State} (h4 : Kept s0 x4) : Kept s0 (captureAs x0 x1 x2 x3 x4) := by
  unfold captureAs
  repeat' first
    | with_reducible assumption | intro _ | (simp only [kept_mk]; with_reducible apply keptC_upd)
    | with_reducible apply kept_reply_ok | with_reducible apply kept_reply_err | with_reducible apply kept_reply_wait
    | with_reducible apply kept_ite_st | with_reducible apply kept_cutHold | with_reducible apply kept_modStore
    | with_reducible apply kept_leaveOut | with_reducible apply kept_starve | with_reducible apply kept_modCk
    | with_reducible apply kept_ite | with_reducible refine kept_of_okP (by assumption) ?_ | split | dsimp only
    | with_reducible exact Kept.refl _

theorem kept_tryCapture {x0 : Moment} {x1 : Nat} {x2 : Nat} {x3 : State} (h3 : Kept s0 x3) : Kept s0 (tryCapture x0 x1 x2 x3) := by
  unfold tryCapture
  repeat' first
    | with_reducible assumption | intro _ | (simp only [kept_mk]; with_reducible apply keptC_upd)
    | with_reducible apply kept_leaveOut | with_reducible apply kept_captureAs | with_reducible apply kept_ite
    | with_reducible apply kept_getD | split | dsimp only | with_reducible exact Kept.refl _

theorem kept_cutAssign {x0 : Nat} {x1 : State} (h1 : Kept s0 x1) : Kept s0 (cutAssign x0 x1) := by
  unfold cutAssign
  repeat' first
    | with_reducible assumption | (simp only [kept_mk]; with_reducible apply keptC_upd) | with_reducible apply kept_setGroupCk
    | with_reducible apply kept_capture | with_reducible apply kept_step | with_reducible apply kept_progressOp | split
    | dsimp only | with_reducible exact Kept.refl _

theorem kept_cutStart {x0 : Nat} {x1 : State} (h1 : Kept s0 x1) : Kept s0 (cutStart x0 x1) := by
  unfold cutStart
  repeat' first
    | with_reducible assumption | intro _ | (simp only [kept_mk]; with_reducible apply keptC_upd)
    | with_reducible apply kept_cutAssign | with_reducible apply kept_modCk | with_reducible apply kept_ite | dsimp only
    | with_reducible exact Kept.refl _

theorem kept_triggerOp {x0 : Nat} {x1 : State} (h1 : Kept s0 x1) : Kept s0 (triggerOp x0 x1) := by
  unfold triggerOp
  repeat' first
    | with_reducible assumption | intro _ | (simp only [kept_mk]; with_reducible apply keptC_upd)
    | with_reducible apply kept_acceptOp | with_reducible apply kept_startOp | with_reducible apply kept_modCk
    | with_reducible apply kept_getD | with_reducible refine kept_of_snd (by assumption) ?_ | split | dsimp only
    | with_reducible exact Kept.refl _

theorem kept_cutTrigger {x0 : Nat} {x1 : State} (h1 : Kept s0 x1) : Kept s0 (cutTrigger x0 x1) := by
  unfold cutTrigger
  repeat' first
    | with_reducible assumption | intro _ | (simp only [kept_mk]; with_reducible apply keptC_upd)
    | with_reducible apply kept_bump | with_reducible apply kept_setGroupCk | with_reducible apply kept_cutStart
    | with_reducible apply kept_triggerOp | with_reducible apply kept_ite | split | dsimp only
    | with_reducible exact Kept.refl _

theorem kept_cutNext {x0 : State} (h0 : Kept s0 x0) : Kept s0 (cutNext x0) := by
  unfold cutNext
  repeat' first
    | with_reducible assumption | intro _ | (simp only [kept_mk]; with_reducible apply keptC_upd)
    | with_reducible apply kept_cutAssign | with_reducible apply kept_ite | split | dsimp only
    | with_reducible exact Kept.refl _

theorem kept_cutEnded {x0 : Nat} {x1 : State} (h1 : Kept s0 x1) : Kept s0 (cutEnded x0 x1) := by
  unfold cutEnded
  repeat' first
    | with_reducible assumption | intro _ | (simp only [kept_mk]; with_reducible apply keptC_upd)
    | with_reducible apply kept_cutNext | with_reducible apply kept_cutStart | with_reducible apply kept_triggerOp
    | with_reducible apply kept_setGroupCk | with_reducible apply kept_ite | split | dsimp only
    | with_reducible exact Kept.refl _

theorem kept_cutFail {x0 : Nat} {x1 : Nat} {x2 : State} (h2 : Kept s0 x2) : Kept s0 (cutFail x0 x1 x2) := by
  unfold cutFail
  repeat' first
    | with_reducible assumption | intro _ | (simp only [kept_mk]; with_reducible apply keptC_upd)
    | with_reducible apply kept_dropCut | with_reducible apply kept_dropCmds | with_reducible apply kept_setGroupCk
    | with_reducible apply kept_note | with_reducible apply kept_bump | with_reducible apply kept_cutEnded
    | with_reducible apply kept_endOp | with_reducible apply kept_ite | with_reducible apply kept_foldl
    | with_reducible apply kept_foldl_snd | split | dsimp only | with_reducible exact Kept.refl _

theorem kept_ckWrite {x0 : Nat} {x1 : Nat} {x2 : Nat} {x3 : Bytes} {x4 : State} (h4 : Kept s0 x4) : Kept s0 (ckWrite x0 x1 x2 x3 x4) := by
  unfold ckWrite
  repeat' first
    | with_reducible assumption | (simp only [kept_mk]; with_reducible apply keptC_upd) | with_reducible apply kept_nvmeIssue
    | split | dsimp only | with_reducible exact Kept.refl _

theorem kept_ckFlush {x0 : Nat} {x1 : State} (h1 : Kept s0 x1) : Kept s0 (ckFlush x0 x1) := by
  unfold ckFlush
  repeat' first
    | with_reducible assumption | (simp only [kept_mk]; with_reducible apply keptC_upd) | with_reducible apply kept_nvmeIssue
    | split | dsimp only | with_reducible exact Kept.refl _

theorem kept_ckStage {x0 : Nat} {x1 : CutState} {x2 : State} (h2 : Kept s0 x2) : Kept s0 (ckStage x0 x1 x2) := by
  unfold ckStage
  repeat' first
    | with_reducible assumption | (simp only [kept_mk]; with_reducible apply keptC_upd) | with_reducible apply kept_setGroupCk
    | with_reducible apply kept_progressOp | with_reducible apply kept_setOp | split | dsimp only
    | with_reducible exact Kept.refl _

theorem kept_ckInvalidate {x0 : Nat} {x1 : State} (h1 : Kept s0 x1) : Kept s0 (ckInvalidate x0 x1) := by
  unfold ckInvalidate
  repeat' first
    | with_reducible assumption | intro _ | (simp only [kept_mk]; with_reducible apply keptC_upd)
    | with_reducible apply kept_cutFail | with_reducible apply kept_ckStage | with_reducible apply kept_ckWrite
    | with_reducible apply kept_ite | split | dsimp only | with_reducible exact Kept.refl _

theorem kept_setCut {x0 : Nat} {x1 : Nat} {x2 : State} (h2 : Kept s0 x2) : Kept s0 (setCut x0 x1 x2) := by
  unfold setCut
  repeat' first
    | with_reducible assumption | intro _ | (simp only [kept_mk]; with_reducible apply keptC_upd)
    | with_reducible apply kept_modDir | with_reducible apply kept_modStore | with_reducible apply kept_sendSwl
    | with_reducible apply kept_ite | with_reducible apply kept_getD | split | dsimp only | with_reducible exact Kept.refl _

theorem kept_ckForget {x0 : Nat} {x1 : State} (h1 : Kept s0 x1) : Kept s0 (ckForget x0 x1) := by
  unfold ckForget
  repeat' first
    | with_reducible assumption | intro _ | (simp only [kept_mk]; with_reducible apply keptC_upd)
    | with_reducible apply kept_setCut | with_reducible apply kept_ite | with_reducible apply kept_foldl
    | with_reducible apply kept_foldl_snd | with_reducible apply kept_foldl_fst | with_reducible apply keptO_foldl
    | with_reducible apply keptP_foldl | with_reducible apply keptE_foldl | with_reducible apply keptEP_foldl | split
    | dsimp only | with_reducible exact Kept.refl _

theorem kept_ckWriting {x0 : Nat} {x1 : State} (h1 : Kept s0 x1) : Kept s0 (ckWriting x0 x1) := by
  unfold ckWriting
  repeat' first
    | with_reducible assumption | intro _ | (simp only [kept_mk]; with_reducible apply keptC_upd)
    | with_reducible apply kept_ckStage | with_reducible apply kept_cutFail | with_reducible apply kept_ckWrite
    | with_reducible apply kept_modCk | with_reducible apply kept_ite | with_reducible apply kept_foldl
    | with_reducible apply kept_foldl_snd | with_reducible apply kept_foldl_fst | split | dsimp only
    | with_reducible exact Kept.refl _

theorem kept_captureEnd {x0 : Nat} {x1 : State} (h1 : Kept s0 x1) : Kept s0 (captureEnd x0 x1) := by
  unfold captureEnd
  repeat' first
    | with_reducible assumption | intro _ | (simp only [kept_mk]; with_reducible apply keptC_upd)
    | with_reducible apply kept_capture | with_reducible apply kept_cutFail | with_reducible apply kept_cutEnded
    | with_reducible apply kept_endOp | with_reducible apply kept_setGroupCk | with_reducible apply kept_ckInvalidate
    | with_reducible apply kept_ite | split | dsimp only | with_reducible exact Kept.refl _

theorem kept_captureAll {x0 : Moment} {x1 : State} (h1 : Kept s0 x1) : Kept s0 (captureAll x0 x1) := by
  unfold captureAll
  repeat' first
    | with_reducible assumption | intro _ | (simp only [kept_mk]; with_reducible apply keptC_upd)
    | with_reducible apply kept_tryCapture | with_reducible apply kept_captureEnd | with_reducible apply kept_foldl
    | with_reducible apply kept_foldl_snd | with_reducible apply kept_foldl_fst | with_reducible apply keptO_foldl
    | with_reducible apply keptP_foldl | with_reducible apply keptE_foldl | with_reducible apply keptEP_foldl
    | with_reducible apply kept_getD | split | dsimp only | with_reducible exact Kept.refl _

theorem kept_ckCommit {x0 : Nat} {x1 : State} (h1 : Kept s0 x1) : Kept s0 (ckCommit x0 x1) := by
  unfold ckCommit
  repeat' first
    | with_reducible assumption | intro _ | (simp only [kept_mk]; with_reducible apply keptC_upd)
    | with_reducible apply kept_bump | with_reducible apply kept_note | with_reducible apply kept_endOp
    | with_reducible apply kept_cutEnded | with_reducible apply kept_setGroupCk | with_reducible apply kept_setCut
    | with_reducible apply kept_foldl | with_reducible apply kept_foldl_snd | with_reducible apply kept_foldl_fst
    | with_reducible apply keptO_foldl | with_reducible apply keptP_foldl | with_reducible apply keptE_foldl
    | with_reducible apply keptEP_foldl | split | dsimp only | with_reducible exact Kept.refl _

theorem kept_shardDone {x0 : Nat} {x1 : Nat} {x2 : State} (h2 : Kept s0 x2) : Kept s0 (shardDone x0 x1 x2) := by
  unfold shardDone
  repeat' first
    | with_reducible assumption | intro _ | (simp only [kept_mk]; with_reducible apply keptC_upd)
    | with_reducible apply kept_bump | with_reducible apply kept_dropCut | with_reducible apply kept_modCk
    | with_reducible apply kept_ckStage | with_reducible apply kept_ckFlush | with_reducible apply kept_ite | split | dsimp only
    | with_reducible exact Kept.refl _

theorem kept_manifestDone {x0 : Nat} {x1 : Nat} {x2 : State} (h2 : Kept s0 x2) : Kept s0 (manifestDone x0 x1 x2) := by
  unfold manifestDone
  repeat' first
    | with_reducible assumption | (simp only [kept_mk]; with_reducible apply keptC_upd) | with_reducible apply kept_bump
    | with_reducible apply kept_setGroupCk | split | dsimp only | with_reducible exact Kept.refl _

theorem kept_cutIo {x0 : Nat} {x1 : NvCmd} {x2 : Bool} {x3 : State} (h3 : Kept s0 x3) : Kept s0 (cutIo x0 x1 x2 x3) := by
  unfold cutIo
  repeat' first
    | with_reducible assumption | intro _ | (simp only [kept_mk]; with_reducible apply keptC_upd)
    | with_reducible apply kept_cutFail | with_reducible apply kept_ckFlush | with_reducible apply kept_ckForget
    | with_reducible apply kept_setGroupCk | with_reducible apply kept_ckWriting | with_reducible apply kept_shardDone
    | with_reducible apply kept_ckStage | with_reducible apply kept_ckWrite | with_reducible apply kept_manifestDone
    | with_reducible apply kept_ckCommit | with_reducible apply kept_ite | with_reducible apply kept_getD | split | dsimp only
    | with_reducible exact Kept.refl _

theorem kept_bodyMldGroupSet {x0 : Moment} {x1 : Req} {x2 : State} (h2 : Kept s0 x2) : Kept s0 (bodyMldGroupSet x0 x1 x2).st := by
  unfold bodyMldGroupSet
  repeat' first
    | with_reducible assumption | intro _ | (simp only [kept_mk]; with_reducible apply keptC_upd)
    | with_reducible apply kept_reply_ok | with_reducible apply kept_reply_err | with_reducible apply kept_ite_st
    | with_reducible apply kept_setGroupCk | with_reducible apply kept_ite | split | dsimp only
    | with_reducible exact Kept.refl _

theorem kept_execMldGroupSet {x0 : Moment} {x1 : Req} {x2 : State} (h2 : Kept s0 x2) : KeptOut s0 (execMldGroupSet x0 x1 x2) := by
  unfold execMldGroupSet
  repeat' first
    | with_reducible assumption | with_reducible apply keptOut_next | with_reducible apply kept_runCommand
    | with_reducible apply kept_bodyMldGroupSet | dsimp only | with_reducible exact Kept.refl _

theorem kept_onGroup {x0 : Req} {x1 : State} {x2 : Nat → CkGroup → Reply} (h1 : Kept s0 x1) (h2 : ∀ y0 y1, Kept s0 (x2 y0 y1).st) : Kept s0 (onGroup x0 x1 x2).st := by
  unfold onGroup
  repeat' first
    | with_reducible assumption | intro _ | with_reducible apply h2 | (simp only [kept_mk]; with_reducible apply keptC_upd)
    | with_reducible apply kept_reply_err | with_reducible apply kept_ite_st | with_reducible apply kept_ite | split
    | dsimp only | with_reducible exact Kept.refl _

theorem kept_bodyMldGroupQuery {x0 : Moment} {x1 : Req} {x2 : State} (h2 : Kept s0 x2) : Kept s0 (bodyMldGroupQuery x0 x1 x2).st := by
  unfold bodyMldGroupQuery
  repeat' first
    | with_reducible assumption | intro _ | with_reducible apply kept_reply_ok | with_reducible apply kept_onGroup
    | with_reducible apply kept_getD | dsimp only | with_reducible exact Kept.refl _

theorem kept_execMldGroupQuery {x0 : Moment} {x1 : Req} {x2 : State} (h2 : Kept s0 x2) : KeptOut s0 (execMldGroupQuery x0 x1 x2) := by
  unfold execMldGroupQuery
  repeat' first
    | with_reducible assumption | with_reducible apply keptOut_next | with_reducible apply kept_runCommand
    | with_reducible apply kept_bodyMldGroupQuery | dsimp only | with_reducible exact Kept.refl _

theorem kept_bodyMldCut {x0 : Moment} {x1 : Req} {x2 : State} (h2 : Kept s0 x2) : Kept s0 (bodyMldCut x0 x1 x2).st := by
  unfold bodyMldCut
  repeat' first
    | with_reducible assumption | intro _ | (simp only [kept_mk]; with_reducible apply keptC_upd)
    | with_reducible apply kept_reply_err | with_reducible apply kept_ite_st | with_reducible apply kept_onGroup
    | with_reducible apply kept_asOp | with_reducible apply kept_captureAll | with_reducible apply kept_cutStart
    | with_reducible apply kept_modCk | with_reducible apply kept_ite | dsimp only | with_reducible exact Kept.refl _

theorem kept_execMldCut {x0 : Moment} {x1 : Req} {x2 : State} (h2 : Kept s0 x2) : KeptOut s0 (execMldCut x0 x1 x2) := by
  unfold execMldCut
  repeat' first
    | with_reducible assumption | with_reducible apply keptOut_next | with_reducible apply kept_runCommand
    | with_reducible apply kept_bodyMldCut | dsimp only | with_reducible exact Kept.refl _

theorem kept_execMldTimerTrigger {x0 : Moment} {x1 : Nat} {x2 : State} (h2 : Kept s0 x2) : KeptOut s0 (execMldTimerTrigger x0 x1 x2) := by
  unfold execMldTimerTrigger
  repeat' first
    | with_reducible assumption | intro _ | (simp only [kept_mk]; with_reducible apply keptC_upd)
    | with_reducible apply keptOut_next | with_reducible apply keptOut_ite | with_reducible apply kept_State_at
    | with_reducible apply kept_captureAll | with_reducible apply kept_cutTrigger | with_reducible apply kept_setGroupCk
    | with_reducible apply kept_ite | split | dsimp only | with_reducible exact Kept.refl _

theorem kept_execCaptureWindowExpiry {x0 : Moment} {x1 : Nat} {x2 : State} (h2 : Kept s0 x2) : KeptOut s0 (execCaptureWindowExpiry x0 x1 x2) := by
  unfold execCaptureWindowExpiry
  repeat' first
    | with_reducible assumption | intro _ | (simp only [kept_mk]; with_reducible apply keptC_upd)
    | with_reducible apply keptOut_next | with_reducible apply keptOut_ite | with_reducible apply kept_State_at
    | with_reducible apply kept_capture | with_reducible apply kept_captureAll | with_reducible apply kept_captureEnd
    | with_reducible apply kept_leaveOut | with_reducible apply kept_ite | with_reducible apply kept_foldl
    | with_reducible apply kept_foldl_snd | split | dsimp only | with_reducible exact Kept.refl _

theorem kept_countGrant {x0 : Session} {x1 : State} (h1 : Kept s0 x1) : Kept s0 (countGrant x0 x1) := by
  unfold countGrant
  repeat' first
    | with_reducible assumption | intro _ | (simp only [kept_mk]; with_reducible apply keptC_upd)
    | with_reducible apply kept_cutTrigger | with_reducible apply kept_modCk | with_reducible apply kept_ite
    | with_reducible apply kept_foldl | with_reducible apply kept_foldl_snd | with_reducible apply kept_foldl_fst | dsimp only
    | with_reducible exact Kept.refl _

theorem kept_countError {x0 : Nat} {x1 : State} (h1 : Kept s0 x1) : Kept s0 (countError x0 x1) := by
  unfold countError
  repeat' first
    | with_reducible assumption | intro _ | (simp only [kept_mk]; with_reducible apply keptC_upd)
    | with_reducible apply kept_cutTrigger | with_reducible apply kept_modCk | with_reducible apply kept_ite
    | with_reducible apply kept_foldl | with_reducible apply kept_foldl_snd | with_reducible apply kept_foldl_fst | dsimp only
    | with_reducible exact Kept.refl _

end Sys2Proof.Machine
end

