-- ==== Sys2Proof/Laws/KeptRestore.lean ====
section
/-! SUPPORT. What the definitions of Sys2Proof/Machine/Restore.lean keep. -/

set_option linter.unusedSimpArgs false

namespace Sys2Proof.Machine

variable {s0 : State}

theorem kept_restorePages {x0 : Moment} {x1 : Nat} {x2 : Nat} {x3 : Nat} {x4 : Nat} {x5 : Tab Bytes} {x6 : Tab Pte} {x7 : Nat} {x8 : State} (h8 : Kept s0 x8) : KeptE s0 (restorePages x0 x1 x2 x3 x4 x5 x6 x7 x8) := by
  induction x6 generalizing x0 x1 x2 x3 x4 x5 x7 x8 with
  | nil =>
    unfold restorePages
    repeat' first
      | with_reducible assumption | intro _ | (simp only [kept_mk]; with_reducible apply keptC_upd)
      | with_reducible apply kept_reply_ok | with_reducible apply kept_reply_err | with_reducible apply kept_reply_wait
      | with_reducible apply kept_ite_st | with_reducible apply kept_modStore | with_reducible apply kept_grabFrame
      | with_reducible apply kept_devWrite | with_reducible apply keptE_ok | with_reducible apply keptE_pure
      | with_reducible apply keptE_error | with_reducible apply keptE_ite | with_reducible apply keptE_map
      | with_reducible apply keptE_foldlM | with_reducible apply keptE_ebind | with_reducible apply keptE_ebindP
      | with_reducible apply keptE_bind | with_reducible apply kept_getD
      | with_reducible refine kept_of_okP (by assumption) ?_ | split | dsimp only | with_reducible exact Kept.refl _
  | cons a t ih =>
    unfold restorePages
    repeat' first
      | with_reducible apply ih
      | with_reducible assumption | intro _ | (simp only [kept_mk]; with_reducible apply keptC_upd)
      | with_reducible apply kept_reply_ok | with_reducible apply kept_reply_err | with_reducible apply kept_reply_wait
      | with_reducible apply kept_ite_st | with_reducible apply kept_modStore | with_reducible apply kept_grabFrame
      | with_reducible apply kept_devWrite | with_reducible apply keptE_ok | with_reducible apply keptE_pure
      | with_reducible apply keptE_error | with_reducible apply keptE_ite | with_reducible apply keptE_map
      | with_reducible apply keptE_foldlM | with_reducible apply keptE_ebind | with_reducible apply keptE_ebindP
      | with_reducible apply keptE_bind | with_reducible apply kept_getD
      | with_reducible refine kept_of_okP (by assumption) ?_ | split | dsimp only | with_reducible exact Kept.refl _

theorem kept_restorePlace {x0 : Moment} {x1 : Nat} {x2 : Nat} {x3 : Nat} {x4 : Body} {x5 : State} (h5 : Kept s0 x5) : KeptEP s0 (restorePlace x0 x1 x2 x3 x4 x5) := by
  unfold restorePlace
  repeat' first
    | with_reducible assumption | intro _ | (simp only [kept_mk]; with_reducible apply keptC_upd)
    | with_reducible apply kept_reply_ok | with_reducible apply kept_reply_err | with_reducible apply kept_reply_wait
    | with_reducible apply kept_ite_st | with_reducible apply kept_restorePages | with_reducible apply kept_grabTable
    | with_reducible apply kept_growJournal | with_reducible apply keptEP_ok | with_reducible apply keptEP_pure
    | with_reducible apply keptEP_error | with_reducible apply keptEP_ite | with_reducible apply keptEP_foldlM
    | with_reducible apply keptEP_ebind | with_reducible apply keptEP_ebindP | with_reducible apply keptEP_bind
    | with_reducible refine kept_of_ok (by assumption) ?_ | with_reducible refine kept_of_okP (by assumption) ?_
    | with_reducible apply keptE_ebind | with_reducible apply keptE_ebindP | split | dsimp only
    | with_reducible exact Kept.refl _

theorem kept_restoreOne {x0 : Moment} {x1 : Nat} {x2 : Nat} {x3 : Nat} {x4 : Nat} {x5 : Body} {x6 : State} (h6 : Kept s0 x6) : KeptEP s0 (restoreOne x0 x1 x2 x3 x4 x5 x6) := by
  unfold restoreOne
  repeat' first
    | with_reducible assumption | intro _ | (simp only [kept_mk]; with_reducible apply keptC_upd)
    | with_reducible apply kept_reply_ok | with_reducible apply kept_reply_err | with_reducible apply kept_reply_wait
    | with_reducible apply kept_ite_st | with_reducible apply kept_modStore | with_reducible apply kept_bindGen
    | with_reducible apply kept_creditIn | with_reducible apply kept_newDir | with_reducible apply kept_starve
    | with_reducible apply kept_takeSerial | with_reducible apply kept_setStore | with_reducible apply kept_devWrite
    | with_reducible apply kept_restorePlace | with_reducible apply keptEP_ok | with_reducible apply keptEP_pure
    | with_reducible apply keptEP_error | with_reducible apply keptEP_ite | with_reducible apply keptEP_foldlM
    | with_reducible apply keptEP_ebind | with_reducible apply keptEP_ebindP | with_reducible apply keptEP_bind
    | with_reducible apply kept_ite | with_reducible apply kept_ite_snd
    | with_reducible refine kept_of_okP (by assumption) ?_ | split | dsimp only | with_reducible exact Kept.refl _

theorem keptEE_restoreOne {x0 : Moment} {x1 : Nat} {x2 : Nat} {x3 : Nat} {x4 : Nat} {x5 : Body} {x6 : State} (h6 : Kept s0 x6) : KeptEE s0 (restoreOne x0 x1 x2 x3 x4 x5 x6) := by
  unfold restoreOne
  repeat' first
    | with_reducible assumption | intro _ | (simp only [kept_mk]; with_reducible apply keptC_upd)
    | with_reducible apply kept_reply_ok | with_reducible apply kept_reply_err | with_reducible apply kept_reply_wait
    | with_reducible apply kept_ite_st | with_reducible apply kept_modStore | with_reducible apply kept_bindGen
    | with_reducible apply kept_creditIn | with_reducible apply kept_newDir | with_reducible apply kept_starve
    | with_reducible apply kept_takeSerial | with_reducible apply kept_setStore | with_reducible apply kept_devWrite
    | with_reducible apply kept_restorePlace | with_reducible apply keptEE_ok | with_reducible apply keptEE_pure
    | with_reducible apply keptEE_error | with_reducible apply keptEE_ite | with_reducible apply keptEE_bind
    | with_reducible refine keptEE_of_eq (by assumption) ?_ | with_reducible apply kept_ite
    | with_reducible apply kept_ite_snd | with_reducible refine kept_of_okP (by assumption) ?_ | split | dsimp only
    | with_reducible exact Kept.refl _

theorem kept_restoreShard {x0 : Moment} {x1 : Nat} {x2 : Nat} {x3 : Nat} {x4 : Nat} {x5 : Found} {x6 : State} (h6 : Kept s0 x6) : KeptEP s0 (restoreShard x0 x1 x2 x3 x4 x5 x6) := by
  unfold restoreShard
  repeat' first
    | with_reducible assumption | intro _ | with_reducible apply kept_restoreOne | with_reducible apply kept_ite
    | with_reducible apply keptEP_ite | with_reducible exact kept_of_hypEP ‹_› | with_reducible apply keptEP_error
    | with_reducible apply kept_getD | with_reducible refine kept_of_okP (by assumption) ?_ | dsimp only
    | with_reducible exact Kept.refl _

theorem keptEE_restoreShard {x0 : Moment} {x1 : Nat} {x2 : Nat} {x3 : Nat} {x4 : Nat} {x5 : Found} {x6 : State} (h6 : Kept s0 x6) : KeptEE s0 (restoreShard x0 x1 x2 x3 x4 x5 x6) := by
  unfold restoreShard
  repeat' first
    | with_reducible assumption | intro _ | (simp only [kept_mk]; with_reducible apply keptC_upd)
    | with_reducible apply kept_restoreOne | with_reducible apply keptEE_restoreOne | with_reducible apply keptEE_ok
    | with_reducible apply keptEE_pure | with_reducible apply keptEE_error | with_reducible apply keptEE_ite
    | with_reducible apply keptEE_bind | with_reducible refine keptEE_of_eq (by assumption) ?_
    | with_reducible apply kept_ite | with_reducible apply kept_ite_snd | with_reducible apply kept_getD | split
    | dsimp only | with_reducible exact Kept.refl _

theorem kept_restoreAll {x0 : Moment} {x1 : Nat} {x2 : Nat} {x3 : Nat} {x4 : List Found} {x5 : Nat} {x6 : State} (h6 : Kept s0 x6) : Kept s0 (restoreAll x0 x1 x2 x3 x4 x5 x6).2.2 := by
  induction x4 generalizing x0 x1 x2 x3 x5 x6 with
  | nil =>
    unfold restoreAll
    repeat' first
      | with_reducible assumption | intro _ | (simp only [kept_mk]; with_reducible apply keptC_upd)
      | with_reducible apply kept_reply_ok | with_reducible apply kept_reply_err | with_reducible apply kept_reply_wait
      | with_reducible apply kept_ite_st | with_reducible apply kept_restoreShard | with_reducible apply keptEE_restoreShard
      | with_reducible refine kept_of_okP (by assumption) ?_ | with_reducible refine kept_of_error (by assumption) ?_
      | split | dsimp only | with_reducible exact Kept.refl _
  | cons a t ih =>
    unfold restoreAll
    repeat' first
      | with_reducible apply ih
      | with_reducible assumption | intro _ | (simp only [kept_mk]; with_reducible apply keptC_upd)
      | with_reducible apply kept_reply_ok | with_reducible apply kept_reply_err | with_reducible apply kept_reply_wait
      | with_reducible apply kept_ite_st | with_reducible apply kept_restoreShard | with_reducible apply keptEE_restoreShard
      | with_reducible refine kept_of_okP (by assumption) ?_ | with_reducible refine kept_of_error (by assumption) ?_
      | split | dsimp only | with_reducible exact Kept.refl _

theorem kept_bodyMldRestore {x0 : Moment} {x1 : Req} {x2 : State} (h2 : Kept s0 x2) : Kept s0 (bodyMldRestore x0 x1 x2).st := by
  unfold bodyMldRestore
  repeat' first
    | with_reducible assumption | intro _ | (simp only [kept_mk]; with_reducible apply keptC_upd)
    | with_reducible apply kept_reply_err | with_reducible apply kept_ite_st | with_reducible apply kept_onGroup
    | with_reducible apply kept_asOp | with_reducible apply kept_nvmeIssue | with_reducible apply kept_ite | split | dsimp only
    | with_reducible exact Kept.refl _

theorem kept_execMldRestore {x0 : Moment} {x1 : Req} {x2 : State} (h2 : Kept s0 x2) : KeptOut s0 (execMldRestore x0 x1 x2) := by
  unfold execMldRestore
  repeat' first
    | with_reducible assumption | with_reducible apply keptOut_next | with_reducible apply kept_runCommand
    | with_reducible apply kept_bodyMldRestore | dsimp only | with_reducible exact Kept.refl _

theorem kept_restoreEnd {x0 : Nat} {x1 : Nat} {x2 : Nat} {x3 : Bytes} {x4 : Bytes} {x5 : State} (h5 : Kept s0 x5) : Kept s0 (restoreEnd x0 x1 x2 x3 x4 x5) := by
  unfold restoreEnd
  repeat' first
    | with_reducible assumption | intro _ | (simp only [kept_mk]; with_reducible apply keptC_upd)
    | with_reducible apply kept_ite_st | with_reducible apply kept_replyData | with_reducible apply kept_endOp
    | with_reducible apply kept_ite | split | dsimp only | with_reducible exact Kept.refl _

theorem kept_restoreIo {x0 : Nat} {x1 : Bool} {x2 : Bytes} {x3 : State} (h3 : Kept s0 x3) : Kept s0 (restoreIo x0 x1 x2 x3) := by
  unfold restoreIo
  repeat' first
    | with_reducible assumption | intro _ | (simp only [kept_mk]; with_reducible apply keptC_upd)
    | with_reducible apply kept_reply_ok | with_reducible apply kept_reply_err | with_reducible apply kept_reply_wait
    | with_reducible apply kept_ite_st | with_reducible apply kept_restoreEnd | with_reducible apply kept_progressOp
    | with_reducible apply kept_ite | split | dsimp only | with_reducible exact Kept.refl _

theorem kept_restoreTake {x0 : Moment} {x1 : Nat} {x2 : State} (h2 : Kept s0 x2) : Kept s0 (restoreTake x0 x1 x2) := by
  unfold restoreTake
  repeat' first
    | with_reducible assumption | intro _ | (simp only [kept_mk]; with_reducible apply keptC_upd)
    | with_reducible apply kept_note | with_reducible apply kept_restoreAll | with_reducible apply kept_restoreEnd
    | with_reducible apply kept_progressOp | with_reducible apply kept_getD
    | with_reducible refine kept_of_snd2 (by assumption) ?_ | split | dsimp only | with_reducible exact Kept.refl _

theorem kept_recoverIo {x0 : Moment} {x1 : Nat} {x2 : Bool} {x3 : Bytes} {x4 : State} (h4 : Kept s0 x4) : Kept s0 (recoverIo x0 x1 x2 x3 x4) := by
  unfold recoverIo
  repeat' first
    | with_reducible assumption | intro _ | (simp only [kept_mk]; with_reducible apply keptC_upd)
    | with_reducible apply kept_recovered | with_reducible apply kept_pagesAdvance
    | with_reducible apply kept_recoveryFailed | with_reducible apply kept_recoverNext
    | with_reducible apply kept_raiseRestore | with_reducible apply kept_pageRecovered | with_reducible apply kept_modFop
    | with_reducible apply kept_devWrite | with_reducible apply kept_ite | with_reducible apply kept_foldl
    | with_reducible apply kept_foldl_snd | with_reducible apply kept_foldl_fst | with_reducible apply keptO_foldl
    | with_reducible apply keptP_foldl | with_reducible apply keptE_foldl | with_reducible apply keptEP_foldl
    | with_reducible apply kept_getD | split | dsimp only | with_reducible exact Kept.refl _

end Sys2Proof.Machine
end

