-- ==== Sys2Proof/Laws/KeptCheck.lean ====
section
/-! SUPPORT. What the definitions of Sys2Proof/Machine/Check.lean keep. -/

set_option linter.unusedSimpArgs false

namespace Sys2Proof.Machine

variable {s0 : State}

theorem kept_setUnit {x0 : Nat} {x1 : CheckUnit} {x2 : State} (h2 : Kept s0 x2) : Kept s0 (setUnit x0 x1 x2) := by
  unfold setUnit
  repeat' first
    | with_reducible assumption | (simp only [kept_mk]; with_reducible apply keptC_upd) | dsimp only
    | with_reducible exact Kept.refl _

theorem kept_chkWrite {x0 : Nat} {x1 : Nat} {x2 : Nat} {x3 : Nat} {x4 : Nat} {x5 : State} (h5 : Kept s0 x5) : Kept s0 (chkWrite x0 x1 x2 x3 x4 x5) := by
  unfold chkWrite
  repeat' first
    | with_reducible assumption | intro _ | (simp only [kept_mk]; with_reducible apply keptC_upd)
    | with_reducible apply kept_setUnit | with_reducible apply kept_ite | dsimp only | with_reducible exact Kept.refl _

theorem kept_execChkCtlWrite {x0 : Moment} {x1 : Nat} {x2 : Nat} {x3 : Nat} {x4 : State} (h4 : Kept s0 x4) : KeptOut s0 (execChkCtlWrite x0 x1 x2 x3 x4) := by
  unfold execChkCtlWrite
  repeat' first
    | with_reducible assumption | with_reducible apply keptOut_next | with_reducible apply kept_hostAccess
    | with_reducible apply kept_chkWrite | with_reducible apply kept_State_at | dsimp only | with_reducible exact Kept.refl _

theorem kept_execChkInit {x0 : Moment} {x1 : Nat} {x2 : Nat} {x3 : Nat} {x4 : State} (h4 : Kept s0 x4) : KeptOut s0 (execChkInit x0 x1 x2 x3 x4) := by
  unfold execChkInit
  repeat' first
    | with_reducible assumption | with_reducible apply keptOut_next | with_reducible apply kept_hostAccess
    | with_reducible apply kept_chkWrite | with_reducible apply kept_State_at | dsimp only | with_reducible exact Kept.refl _

theorem kept_execChkData8 {x0 : Moment} {x1 : Nat} {x2 : Nat} {x3 : Nat} {x4 : State} (h4 : Kept s0 x4) : KeptOut s0 (execChkData8 x0 x1 x2 x3 x4) := by
  unfold execChkData8
  repeat' first
    | with_reducible assumption | with_reducible apply keptOut_next | with_reducible apply kept_hostAccess
    | with_reducible apply kept_chkWrite | with_reducible apply kept_State_at | dsimp only | with_reducible exact Kept.refl _

theorem kept_execChkData1 {x0 : Moment} {x1 : Nat} {x2 : Nat} {x3 : Nat} {x4 : State} (h4 : Kept s0 x4) : KeptOut s0 (execChkData1 x0 x1 x2 x3 x4) := by
  unfold execChkData1
  repeat' first
    | with_reducible assumption | with_reducible apply keptOut_next | with_reducible apply kept_hostAccess
    | with_reducible apply kept_chkWrite | with_reducible apply kept_State_at | dsimp only | with_reducible exact Kept.refl _

theorem kept_freeUnits {x0 : Nat} {x1 : State} (h1 : Kept s0 x1) : Kept s0 (freeUnits x0 x1) := by
  unfold freeUnits
  repeat' first
    | with_reducible assumption | intro _ | (simp only [kept_mk]; with_reducible apply keptC_upd)
    | with_reducible apply kept_ite | dsimp only | with_reducible exact Kept.refl _

theorem kept_bodyMldConfig {x0 : Moment} {x1 : Req} {x2 : State} (h2 : Kept s0 x2) : Kept s0 (bodyMldConfig x0 x1 x2).st := by
  unfold bodyMldConfig
  repeat' first
    | with_reducible assumption | intro _
    | (simp only [kept_mk]; first | with_reducible apply keptC_upd | refine keptC_updHmk ?_ (by first | exact Nat.le_refl _ | exact Nat.le_add_right _ _ | omega) (by exact Nat.le_refl _) (by rfl))
    | with_reducible apply kept_reply_ok | with_reducible apply kept_reply_err | with_reducible apply kept_ite_st
    | with_reducible apply kept_setUnit | with_reducible apply kept_ite | with_reducible apply kept_foldl
    | with_reducible apply kept_foldl_snd | split | dsimp only | with_reducible exact Kept.refl _

theorem kept_execMldConfig {x0 : Moment} {x1 : Req} {x2 : State} (h2 : Kept s0 x2) : KeptOut s0 (execMldConfig x0 x1 x2) := by
  unfold execMldConfig
  repeat' first
    | with_reducible assumption | with_reducible apply keptOut_next | with_reducible apply kept_runCommand
    | with_reducible apply kept_bodyMldConfig | dsimp only | with_reducible exact Kept.refl _

theorem kept_bodyChkClaim {x0 : Moment} {x1 : Req} {x2 : State} (h2 : Kept s0 x2) : Kept s0 (bodyChkClaim x0 x1 x2).st := by
  unfold bodyChkClaim
  repeat' first
    | with_reducible assumption | intro _ | with_reducible apply kept_reply_ok | with_reducible apply kept_reply_err
    | with_reducible apply kept_ite_st | with_reducible apply kept_setUnit | with_reducible apply kept_ite | dsimp only
    | with_reducible exact Kept.refl _

theorem kept_execChkClaim {x0 : Moment} {x1 : Req} {x2 : State} (h2 : Kept s0 x2) : KeptOut s0 (execChkClaim x0 x1 x2) := by
  unfold execChkClaim
  repeat' first
    | with_reducible assumption | with_reducible apply keptOut_next | with_reducible apply kept_runCommand
    | with_reducible apply kept_bodyChkClaim | dsimp only | with_reducible exact Kept.refl _

theorem kept_bodyChkRelease {x0 : Moment} {x1 : Req} {x2 : State} (h2 : Kept s0 x2) : Kept s0 (bodyChkRelease x0 x1 x2).st := by
  unfold bodyChkRelease
  repeat' first
    | with_reducible assumption | intro _ | with_reducible apply kept_reply_ok | with_reducible apply kept_reply_err
    | with_reducible apply kept_ite_st | with_reducible apply kept_setUnit | with_reducible apply kept_ite | dsimp only
    | with_reducible exact Kept.refl _

theorem kept_execChkRelease {x0 : Moment} {x1 : Req} {x2 : State} (h2 : Kept s0 x2) : KeptOut s0 (execChkRelease x0 x1 x2) := by
  unfold execChkRelease
  repeat' first
    | with_reducible assumption | with_reducible apply keptOut_next | with_reducible apply kept_runCommand
    | with_reducible apply kept_bodyChkRelease | dsimp only | with_reducible exact Kept.refl _

theorem kept_chkAbsorb {x0 : Req} {x1 : Nat} {x2 : State} (h2 : Kept s0 x2) : KeptE s0 (chkAbsorb x0 x1 x2) := by
  unfold chkAbsorb
  repeat' first
    | with_reducible assumption | intro _ | with_reducible apply kept_setUnit | with_reducible apply kept_ite
    | with_reducible apply keptO_ite | with_reducible exact kept_of_hypO ‹_› | with_reducible apply keptO_map
    | with_reducible apply keptP_ite | with_reducible exact kept_of_hypP ‹_› | with_reducible apply keptP_map
    | with_reducible apply keptE_ite | with_reducible exact kept_of_hypE ‹_› | with_reducible apply keptE_map
    | with_reducible apply keptE_ok | with_reducible apply keptEP_ite | with_reducible exact kept_of_hypEP ‹_›
    | with_reducible apply keptEP_ok | with_reducible apply keptEE_ite | with_reducible apply keptEE_ok
    | with_reducible refine kept_of_ok (by assumption) ?_ | with_reducible refine kept_of_error (by assumption) ?_
    | with_reducible refine kept_of_okP (by assumption) ?_ | with_reducible refine kept_of_some (by assumption) ?_
    | with_reducible refine kept_of_someP (by assumption) ?_ | with_reducible refine kept_of_fst (by assumption) ?_
    | with_reducible refine kept_of_snd (by assumption) ?_ | with_reducible refine kept_of_snd2 (by assumption) ?_
    | with_reducible refine kept_of_snd3 (by assumption) ?_ | with_reducible refine keptP_of_snd (by assumption) ?_ | dsimp only
    | with_reducible exact Kept.refl _

theorem kept_bodyChkRun {x0 : Moment} {x1 : Req} {x2 : State} (h2 : Kept s0 x2) : Kept s0 (bodyChkRun x0 x1 x2).st := by
  unfold bodyChkRun
  repeat' first
    | with_reducible assumption | intro _ | (simp only [kept_mk]; with_reducible apply keptC_upd)
    | with_reducible apply kept_reply_ok | with_reducible apply kept_reply_err | with_reducible apply kept_ite_st
    | with_reducible apply kept_asOp | with_reducible apply kept_setUnit | with_reducible apply kept_Reply_sg
    | with_reducible apply kept_ite | with_reducible apply keptO_ite | with_reducible exact kept_of_hypO ‹_›
    | with_reducible apply keptO_map | with_reducible apply keptP_ite | with_reducible exact kept_of_hypP ‹_›
    | with_reducible apply keptP_map | with_reducible apply keptE_ite | with_reducible exact kept_of_hypE ‹_›
    | with_reducible apply keptE_map | with_reducible apply keptE_ok | with_reducible apply keptE_error
    | with_reducible apply keptEP_ite | with_reducible exact kept_of_hypEP ‹_› | with_reducible apply keptEP_ok
    | with_reducible apply keptEP_error | with_reducible apply keptEE_ite | with_reducible apply keptEE_ok
    | with_reducible apply keptEE_error | with_reducible refine kept_of_ok (by assumption) ?_
    | with_reducible refine kept_of_error (by assumption) ?_ | with_reducible refine kept_of_okP (by assumption) ?_
    | with_reducible refine kept_of_some (by assumption) ?_ | with_reducible refine kept_of_someP (by assumption) ?_
    | with_reducible refine kept_of_fst (by assumption) ?_ | with_reducible refine kept_of_snd (by assumption) ?_
    | with_reducible refine kept_of_snd2 (by assumption) ?_ | with_reducible refine kept_of_snd3 (by assumption) ?_
    | with_reducible refine keptP_of_snd (by assumption) ?_ | split | dsimp only | with_reducible exact Kept.refl _

theorem kept_endChkRun {x0 : Nat} {x1 : LongOp} {x2 : State} (h2 : Kept s0 x2) : Kept s0 (endChkRun x0 x1 x2) := by
  unfold endChkRun
  repeat' first
    | with_reducible assumption | intro _ | (simp only [kept_mk]; with_reducible apply keptC_upd)
    | with_reducible apply kept_setUnit | with_reducible apply kept_chkAbsorb | with_reducible apply kept_endOp
    | with_reducible apply kept_logSgFault | with_reducible apply kept_setOp | with_reducible apply kept_ite
    | with_reducible apply kept_getD | with_reducible refine kept_of_ok (by assumption) ?_ | split | dsimp only
    | with_reducible exact Kept.refl _

theorem kept_execChkRun {x0 : Moment} {x1 : Req} {x2 : State} (h2 : Kept s0 x2) : KeptOut s0 (execChkRun x0 x1 x2) := by
  unfold execChkRun
  repeat' first
    | with_reducible assumption | with_reducible apply keptOut_next | with_reducible apply kept_runCommand
    | with_reducible apply kept_bodyChkRun | dsimp only | with_reducible exact Kept.refl _

end Sys2Proof.Machine
end

