-- ==== Sys2Proof/Laws/KeptStreams.lean ====
section
/-! SUPPORT. What the definitions of Sys2Proof/Machine/Streams.lean keep. -/

set_option linter.unusedSimpArgs false

namespace Sys2Proof.Machine

variable {s0 : State}

theorem kept_ringFault {x0 : Nat} {x1 : Nat} {x2 : Nat} {x3 : State} (h3 : Kept s0 x3) : Kept s0 (ringFault x0 x1 x2 x3) := by
  unfold ringFault
  repeat' first
    | with_reducible assumption | (simp only [kept_mk]; with_reducible apply keptC_upd) | with_reducible apply kept_note
    | with_reducible apply kept_setRing | split | dsimp only | with_reducible exact Kept.refl _

theorem kept_zeroProduced {x0 : Nat} {x1 : StreamRing} {x2 : State} (h2 : Kept s0 x2) : Kept s0 (zeroProduced x0 x1 x2) := by
  unfold zeroProduced
  repeat' first
    | with_reducible assumption | intro _ | (simp only [kept_mk]; with_reducible apply keptC_upd)
    | with_reducible apply kept_reply_ok | with_reducible apply kept_reply_err | with_reducible apply kept_reply_wait
    | with_reducible apply kept_ite_st | with_reducible apply kept_ringFault | with_reducible apply kept_gxWrite
    | with_reducible apply kept_hostWrite | with_reducible apply kept_ite
    | with_reducible refine kept_of_ok (by assumption) ?_ | split | dsimp only | with_reducible exact Kept.refl _

theorem kept_bodyStreamRingSet {x0 : Moment} {x1 : Req} {x2 : State} (h2 : Kept s0 x2) : Kept s0 (bodyStreamRingSet x0 x1 x2).st := by
  unfold bodyStreamRingSet
  repeat' first
    | with_reducible assumption | intro _ | (simp only [kept_mk]; with_reducible apply keptC_upd)
    | with_reducible apply kept_reply_ok | with_reducible apply kept_reply_err | with_reducible apply kept_reply_wait
    | with_reducible apply kept_ite_st | with_reducible apply kept_zeroProduced | with_reducible apply kept_setRing
    | with_reducible apply kept_dropMsgs | with_reducible apply kept_Reply_ok | with_reducible apply kept_Reply_err
    | with_reducible apply kept_ite | with_reducible apply kept_getD | split | dsimp only | with_reducible exact Kept.refl _

theorem kept_chargeStream {x0 : Nat} {x1 : State} (h1 : Kept s0 x1) : Kept s0 (chargeStream x0 x1) := by
  unfold chargeStream
  repeat' first
    | with_reducible assumption | intro _ | (simp only [kept_mk]; with_reducible apply keptC_upd)
    | with_reducible apply kept_chargePart | split | dsimp only | with_reducible exact Kept.refl _

theorem kept_ringSent {x0 : Nat} {x1 : State} (h1 : Kept s0 x1) : Kept s0 (ringSent x0 x1) := by
  unfold ringSent
  repeat' first
    | with_reducible assumption | intro _ | (simp only [kept_mk]; with_reducible apply keptC_upd)
    | with_reducible apply kept_move | with_reducible apply kept_setRing | with_reducible apply kept_sendMsix
    | with_reducible apply kept_ite | split | dsimp only | with_reducible exact Kept.refl _

theorem kept_hostRecord {x0 : Nat} {x1 : StreamRing} {x2 : StreamRec} {x3 : State} (h3 : Kept s0 x3) : Kept s0 (hostRecord x0 x1 x2 x3) := by
  unfold hostRecord
  repeat' first
    | with_reducible assumption | (simp only [kept_mk]; with_reducible apply keptC_upd) | with_reducible apply kept_ringFault
    | with_reducible apply kept_hostWrite | with_reducible apply kept_ringSent | split | dsimp only
    | with_reducible exact Kept.refl _

theorem kept_remoteRecord {x0 : Nat} {x1 : StreamRing} {x2 : StreamRec} {x3 : State} (h3 : Kept s0 x3) : Kept s0 (remoteRecord x0 x1 x2 x3) := by
  unfold remoteRecord
  repeat' first
    | with_reducible assumption | (simp only [kept_mk]; with_reducible apply keptC_upd) | with_reducible apply kept_ringFault
    | with_reducible apply kept_gxWrite | with_reducible refine kept_of_ok (by assumption) ?_ | split | dsimp only
    | with_reducible exact Kept.refl _

theorem kept_streamRecordWrite {x0 : Nat} {x1 : Nat} {x2 : State} (h2 : Kept s0 x2) : Kept s0 (streamRecordWrite x0 x1 x2) := by
  unfold streamRecordWrite
  repeat' first
    | with_reducible assumption | intro _ | (simp only [kept_mk]; with_reducible apply keptC_upd)
    | with_reducible apply kept_wakeParts | with_reducible apply kept_remoteRecord | with_reducible apply kept_chargeStream
    | with_reducible apply kept_hostRecord | with_reducible apply kept_ite | split | dsimp only
    | with_reducible exact Kept.refl _

theorem kept_consGot {x0 : Nat} {x1 : Nat} {x2 : State} (h2 : Kept s0 x2) : Kept s0 (consGot x0 x1 x2) := by
  unfold consGot
  repeat' first
    | with_reducible assumption | intro _ | (simp only [kept_mk]; with_reducible apply keptC_upd)
    | with_reducible apply kept_ringFault | with_reducible apply kept_setRing | with_reducible apply kept_ite | split
    | dsimp only | with_reducible exact Kept.refl _

theorem kept_streamConsRead {x0 : Nat} {x1 : Nat} {x2 : State} (h2 : Kept s0 x2) : Kept s0 (streamConsRead x0 x1 x2) := by
  unfold streamConsRead
  repeat' first
    | with_reducible assumption | intro _ | (simp only [kept_mk]; with_reducible apply keptC_upd)
    | with_reducible apply kept_setRing | with_reducible apply kept_ringFault | with_reducible apply kept_consGot
    | with_reducible apply kept_gxRead | with_reducible apply kept_ite | with_reducible refine kept_of_ok (by assumption) ?_
    | split | dsimp only | with_reducible exact Kept.refl _

end Sys2Proof.Machine
end

