-- ==== Sys2Proof/Laws/KeptNvme.lean ====
section
/-! SUPPORT. What the definitions of Sys2Proof/Machine/Nvme.lean keep. -/

set_option linter.unusedSimpArgs false

namespace Sys2Proof.Machine

variable {s0 : State}

theorem kept_dropCtrl {x0 : Nat} {x1 : State} (h1 : Kept s0 x1) : Kept s0 (dropCtrl x0 x1) := by
  unfold dropCtrl
  repeat' first
    | with_reducible assumption | (simp only [kept_mk]; with_reducible apply keptC_upd) | dsimp only
    | with_reducible exact Kept.refl _

theorem kept_bodyNvmeConnect {x0 : Moment} {x1 : Req} {x2 : State} (h2 : Kept s0 x2) : Kept s0 (bodyNvmeConnect x0 x1 x2).st := by
  unfold bodyNvmeConnect
  repeat' first
    | with_reducible assumption | intro _ | (simp only [kept_mk]; with_reducible apply keptC_upd)
    | with_reducible apply kept_reply_err | with_reducible apply kept_ite_st | with_reducible apply kept_asOp
    | with_reducible apply kept_nvmeIssue | with_reducible apply kept_ite | split | dsimp only
    | with_reducible exact Kept.refl _

theorem kept_execNvmeConnect {x0 : Moment} {x1 : Req} {x2 : State} (h2 : Kept s0 x2) : KeptOut s0 (execNvmeConnect x0 x1 x2) := by
  unfold execNvmeConnect
  repeat' first
    | with_reducible assumption | with_reducible apply keptOut_next | with_reducible apply kept_runCommand
    | with_reducible apply kept_bodyNvmeConnect | dsimp only | with_reducible exact Kept.refl _

theorem kept_connectIo {x0 : Nat} {x1 : Bool} {x2 : Bytes} {x3 : State} (h3 : Kept s0 x3) : Kept s0 (connectIo x0 x1 x2 x3) := by
  unfold connectIo
  repeat' first
    | with_reducible assumption | intro _ | (simp only [kept_mk]; with_reducible apply keptC_upd)
    | with_reducible apply kept_endOp | with_reducible apply kept_dropCtrl | with_reducible apply kept_ite
    | with_reducible apply kept_foldl | with_reducible apply kept_foldl_snd | with_reducible apply kept_foldl_fst | split
    | dsimp only | with_reducible exact Kept.refl _

theorem kept_nvmeDone {x0 : Moment} {x1 : Nat} {x2 : Bool} {x3 : Bytes} {x4 : State} (h4 : Kept s0 x4) : Kept s0 (nvmeDone x0 x1 x2 x3 x4) := by
  unfold nvmeDone
  repeat' first
    | with_reducible assumption | (simp only [kept_mk]; with_reducible apply keptC_upd) | with_reducible apply kept_cutIo
    | with_reducible apply kept_restoreIo | with_reducible apply kept_recoverIo | with_reducible apply kept_connectIo | split
    | dsimp only | with_reducible exact Kept.refl _

theorem kept_nvmeFailAll {x0 : Moment} {x1 : Nat} {x2 : State} (h2 : Kept s0 x2) : Kept s0 (nvmeFailAll x0 x1 x2) := by
  unfold nvmeFailAll
  repeat' first
    | with_reducible assumption | intro _ | with_reducible apply kept_nvmeDone | with_reducible apply kept_foldl
    | with_reducible apply kept_foldl_snd | dsimp only | with_reducible exact Kept.refl _

theorem kept_nvmeLost {x0 : Moment} {x1 : Nat} {x2 : Nat} {x3 : State} (h3 : Kept s0 x3) : Kept s0 (nvmeLost x0 x1 x2 x3) := by
  unfold nvmeLost
  repeat' first
    | with_reducible assumption | (simp only [kept_mk]; with_reducible apply keptC_upd) | with_reducible apply kept_dropCtrl
    | with_reducible apply kept_nvmeFailAll | with_reducible apply kept_note | split | dsimp only
    | with_reducible exact Kept.refl _

theorem kept_bodyNvmeDisconnect {x0 : Moment} {x1 : Req} {x2 : State} (h2 : Kept s0 x2) : Kept s0 (bodyNvmeDisconnect x0 x1 x2).st := by
  unfold bodyNvmeDisconnect
  repeat' first
    | with_reducible assumption | intro _ | with_reducible apply kept_reply_err | with_reducible apply kept_ite_st
    | with_reducible apply kept_asOp | with_reducible apply kept_dropCtrl | with_reducible apply kept_nvmeFailAll
    | with_reducible apply kept_ite | dsimp only | with_reducible exact Kept.refl _

end Sys2Proof.Machine
end

