-- ==== Sys2Proof/Laws/KeptPorts.lean ====
section
/-! SUPPORT. What the definitions of Sys2Proof/Machine/Ports.lean keep. -/

set_option linter.unusedSimpArgs false

namespace Sys2Proof.Machine

variable {s0 : State}

theorem kept_setPort {x0 : Nat} {x1 : Port} {x2 : State} (h2 : Kept s0 x2) : Kept s0 (setPort x0 x1 x2) := by
  unfold setPort
  repeat' first
    | with_reducible assumption | (simp only [kept_mk]; with_reducible apply keptC_upd) | dsimp only
    | with_reducible exact Kept.refl _

theorem kept_sendAck {x0 : Nat} {x1 : Nat} {x2 : Nat} {x3 : Nat} {x4 : Nat} {x5 : State} (h5 : Kept s0 x5) : Kept s0 (sendAck x0 x1 x2 x3 x4 x5) := by
  unfold sendAck
  repeat' first
    | with_reducible assumption | intro _ | (simp only [kept_mk]; with_reducible apply keptC_upd)
    | with_reducible apply kept_setQp | with_reducible apply kept_bump | with_reducible apply kept_emit | with_reducible apply kept_emitPkt
    | with_reducible apply kept_ite | split | dsimp only | with_reducible exact Kept.refl _

theorem kept_rcAck {x0 : Nat} {x1 : Nat} {x2 : Nat} {x3 : Nat} {x4 : State} (h4 : Kept s0 x4) : Kept s0 (rcAck x0 x1 x2 x3 x4) := by
  unfold rcAck
  repeat' first
    | with_reducible assumption | (simp only [kept_mk]; with_reducible apply keptC_upd) | with_reducible apply kept_emit | with_reducible apply kept_emitPkt
    | with_reducible apply kept_bump | split | dsimp only | with_reducible exact Kept.refl _

theorem kept_ackLater {x0 : Nat} {x1 : State} (h1 : Kept s0 x1) : Kept s0 (ackLater x0 x1) := by
  unfold ackLater
  repeat' first
    | with_reducible assumption | (simp only [kept_mk]; with_reducible apply keptC_upd) | with_reducible apply kept_setQp
    | split | dsimp only | with_reducible exact Kept.refl _

theorem kept_postDone {x0 : Nat} {x1 : Nat} {x2 : Nat} {x3 : Nat} {x4 : State} (h4 : Kept s0 x4) : Kept s0 (postDone x0 x1 x2 x3 x4) := by
  unfold postDone
  repeat' first
    | with_reducible assumption | intro _ | (simp only [kept_mk]; with_reducible apply keptC_upd)
    | with_reducible apply kept_endOp | with_reducible apply kept_dropMsgs | with_reducible apply kept_post
    | with_reducible apply kept_advanceOp | with_reducible apply kept_setArgs | with_reducible apply kept_ite
    | with_reducible apply kept_getD | split | dsimp only | with_reducible exact Kept.refl _

theorem kept_dropMsg {x0 : Nat} {x1 : Nat} {x2 : State} (h2 : Kept s0 x2) : Kept s0 (dropMsg x0 x1 x2) := by
  unfold dropMsg
  repeat' first
    | with_reducible assumption | (simp only [kept_mk]; with_reducible apply keptC_upd) | with_reducible apply kept_setQp
    | split | dsimp only | with_reducible exact Kept.refl _

theorem kept_modMsg {x0 : Nat} {x1 : Nat} {x2 : TxMsg → TxMsg} {x3 : State} (h3 : Kept s0 x3) : Kept s0 (modMsg x0 x1 x2 x3) := by
  unfold modMsg
  repeat' first
    | with_reducible assumption | (simp only [kept_mk]; with_reducible apply keptC_upd) | with_reducible apply kept_setQp
    | split | dsimp only | with_reducible exact Kept.refl _

theorem kept_msgEnd {x0 : Nat} {x1 : Nat} {x2 : Nat} {x3 : Nat} {x4 : State} (h4 : Kept s0 x4) : Kept s0 (msgEnd x0 x1 x2 x3 x4) := by
  unfold msgEnd
  repeat' first
    | with_reducible assumption | intro _ | (simp only [kept_mk]; with_reducible apply keptC_upd)
    | with_reducible apply kept_modMsg | with_reducible apply kept_post | with_reducible apply kept_dropMsg
    | with_reducible apply kept_regionWrite | with_reducible apply kept_postDone | with_reducible apply kept_ringSent
    | with_reducible apply kept_ringFault | with_reducible apply kept_consGot | with_reducible apply kept_ite | split
    | dsimp only | with_reducible exact Kept.refl _

theorem kept_refused {x0 : Nat} {x1 : Nat} {x2 : State} (h2 : Kept s0 x2) : Kept s0 (refused x0 x1 x2) := by
  unfold refused
  repeat' first
    | with_reducible assumption | intro _ | (simp only [kept_mk]; with_reducible apply keptC_upd)
    | with_reducible apply kept_dropMsg | with_reducible apply kept_rangeRead | with_reducible apply kept_rangeWrite
    | with_reducible apply kept_modMsg | with_reducible apply kept_msgEnd | with_reducible apply kept_setQp
    | with_reducible apply kept_ite | with_reducible refine kept_of_ok (by assumption) ?_ | split | dsimp only
    | with_reducible exact Kept.refl _

theorem kept_dropHeldSeals {x0 : Nat} {x1 : State} (h1 : Kept s0 x1) : Kept s0 (dropHeldSeals x0 x1) := by
  unfold dropHeldSeals
  repeat' first
    | with_reducible assumption | intro _ | (simp only [kept_mk]; with_reducible apply keptC_upd)
    | with_reducible apply kept_move | with_reducible apply kept_setQp | with_reducible apply kept_ite | split | dsimp only
    | with_reducible exact Kept.refl _

theorem kept_endMsgs {x0 : Nat} {x1 : State} (h1 : Kept s0 x1) : Kept s0 (endMsgs x0 x1) := by
  unfold endMsgs
  repeat' first
    | with_reducible assumption | intro _ | with_reducible apply kept_msgEnd | with_reducible apply kept_foldl
    | with_reducible apply kept_foldl_snd | with_reducible apply kept_getD | dsimp only | with_reducible exact Kept.refl _

theorem kept_qpFail {x0 : Moment} {x1 : Nat} {x2 : Nat} {x3 : State} (h3 : Kept s0 x3) : Kept s0 (qpFail x0 x1 x2 x3) := by
  unfold qpFail
  repeat' first
    | with_reducible assumption | intro _
    | (simp only [kept_mk]; first | with_reducible apply keptC_upd | refine keptC_updHmk ?_ (by first | exact Nat.le_refl _ | exact Nat.le_add_right _ _ | omega) (by exact Nat.le_refl _) (by rfl))
    | with_reducible apply kept_dropHeldSeals | with_reducible apply kept_setQp | with_reducible apply kept_freeQpChains
    | with_reducible apply kept_endMsgs | with_reducible apply kept_note | with_reducible apply kept_nvmeLost
    | with_reducible apply kept_ite | split | dsimp only | with_reducible exact Kept.refl _

theorem kept_spentMsgs {x0 : Moment} {x1 : State} (h1 : Kept s0 x1) : Kept s0 (spentMsgs x0 x1) := by
  unfold spentMsgs
  repeat' first
    | with_reducible assumption | intro _ | (simp only [kept_mk]; with_reducible apply keptC_upd)
    | with_reducible apply kept_qpFail | with_reducible apply kept_msgEnd | with_reducible apply kept_ite
    | with_reducible apply kept_foldl | with_reducible apply kept_foldl_snd | with_reducible apply kept_foldl_fst
    | with_reducible apply keptO_foldl | with_reducible apply keptP_foldl | with_reducible apply keptE_foldl
    | with_reducible apply keptEP_foldl | split | dsimp only | with_reducible exact Kept.refl _

theorem kept_qpReset {x0 : Nat} {x1 : State} (h1 : Kept s0 x1) : Kept s0 (qpReset x0 x1) := by
  unfold qpReset
  repeat' first
    | with_reducible assumption
    | (simp only [kept_mk]; first | with_reducible apply keptC_upd | refine keptC_updHmk ?_ (by first | exact Nat.le_refl _ | exact Nat.le_add_right _ _ | omega) (by exact Nat.le_refl _) (by rfl))
    | with_reducible apply kept_freeQpChains | with_reducible apply kept_endMsgs | with_reducible apply kept_dropHeldSeals
    | dsimp only | with_reducible exact Kept.refl _

theorem kept_failDownQps {x0 : Moment} {x1 : State} (h1 : Kept s0 x1) : Kept s0 (failDownQps x0 x1) := by
  unfold failDownQps
  repeat' first
    | with_reducible assumption | intro _ | with_reducible apply kept_qpFail | with_reducible apply kept_foldl
    | with_reducible apply kept_foldl_snd | dsimp only | with_reducible exact Kept.refl _

theorem kept_ccDecrease {x0 : Nat} {x1 : State} (h1 : Kept s0 x1) : Kept s0 (ccDecrease x0 x1) := by
  unfold ccDecrease
  repeat' first
    | with_reducible assumption | intro _ | (simp only [kept_mk]; with_reducible apply keptC_upd)
    | with_reducible apply kept_setQp | with_reducible apply kept_ite | split | dsimp only | with_reducible exact Kept.refl _

theorem kept_execCcRateIncrease {x0 : Moment} {x1 : Nat} {x2 : State} (h2 : Kept s0 x2) : KeptOut s0 (execCcRateIncrease x0 x1 x2) := by
  unfold execCcRateIncrease
  repeat' first
    | with_reducible assumption | intro _ | (simp only [kept_mk]; with_reducible apply keptC_upd)
    | with_reducible apply keptOut_next | with_reducible apply keptOut_ite | with_reducible apply kept_State_at
    | with_reducible apply kept_setQp | with_reducible apply kept_ite | split | dsimp only | with_reducible exact Kept.refl _

theorem kept_execCnpReceive {x0 : Moment} {x1 : Nat} {x2 : State} (h2 : Kept s0 x2) : KeptOut s0 (execCnpReceive x0 x1 x2) := by
  unfold execCnpReceive
  repeat' first
    | with_reducible assumption | (simp only [kept_mk]; with_reducible apply keptC_upd) | with_reducible apply keptOut_next
    | with_reducible apply kept_State_at | with_reducible apply kept_ccDecrease | with_reducible apply kept_bump | split
    | dsimp only | with_reducible exact Kept.refl _

theorem kept_answerCe {x0 : Nat} {x1 : Pkt} {x2 : State} (h2 : Kept s0 x2) : Kept s0 (answerCe x0 x1 x2) := by
  unfold answerCe
  repeat' first
    | with_reducible assumption | intro _ | (simp only [kept_mk]; with_reducible apply keptC_upd)
    | with_reducible apply kept_emit | with_reducible apply kept_emitPkt | with_reducible apply kept_bump | with_reducible apply kept_setQp
    | with_reducible apply kept_ite | split | dsimp only | with_reducible exact Kept.refl _

theorem kept_resend {x0 : Nat} {x1 : Nat} {x2 : State} (h2 : Kept s0 x2) : Kept s0 (resend x0 x1 x2) := by
  unfold resend
  repeat' first
    | with_reducible assumption | intro _ | (simp only [kept_mk]; with_reducible apply keptC_upd)
    | with_reducible apply kept_emit | with_reducible apply kept_emitPkt | with_reducible apply kept_bump | with_reducible apply kept_setQp
    | with_reducible apply kept_ite | split | dsimp only | with_reducible exact Kept.refl _

theorem kept_pathTimeout {x0 : Nat} {x1 : Nat} {x2 : State} (h2 : Kept s0 x2) : Kept s0 (pathTimeout x0 x1 x2) := by
  unfold pathTimeout
  repeat' first
    | with_reducible assumption | intro _ | (simp only [kept_mk]; with_reducible apply keptC_upd)
    | with_reducible apply kept_setQp | with_reducible apply kept_ite | split | dsimp only | with_reducible exact Kept.refl _

theorem kept_execGxAckTimeout {x0 : Moment} {x1 : Nat} {x2 : Nat} {x3 : State} (h3 : Kept s0 x3) : KeptOut s0 (execGxAckTimeout x0 x1 x2 x3) := by
  unfold execGxAckTimeout
  repeat' first
    | with_reducible assumption | intro _ | (simp only [kept_mk]; with_reducible apply keptC_upd)
    | with_reducible apply keptOut_next | with_reducible apply keptOut_ite | with_reducible apply kept_State_at
    | with_reducible apply kept_qpFail | with_reducible apply kept_pathTimeout | with_reducible apply kept_setQp
    | with_reducible apply kept_resend | with_reducible apply kept_ccDecrease | with_reducible apply kept_ite | split
    | dsimp only | with_reducible exact Kept.refl _

theorem kept_execGxNakBackoffExpiry {x0 : Moment} {x1 : Nat} {x2 : Nat} {x3 : State} (h3 : Kept s0 x3) : KeptOut s0 (execGxNakBackoffExpiry x0 x1 x2 x3) := by
  unfold execGxNakBackoffExpiry
  repeat' first
    | with_reducible assumption | intro _ | (simp only [kept_mk]; with_reducible apply keptC_upd)
    | with_reducible apply keptOut_next | with_reducible apply keptOut_ite | with_reducible apply kept_State_at
    | with_reducible apply kept_qpFail | with_reducible apply kept_resend | with_reducible apply kept_ite | split | dsimp only
    | with_reducible exact Kept.refl _

theorem kept_execGxPathResume {x0 : Moment} {x1 : Nat} {x2 : Nat} {x3 : State} (h3 : Kept s0 x3) : KeptOut s0 (execGxPathResume x0 x1 x2 x3) := by
  unfold execGxPathResume
  repeat' first
    | with_reducible assumption | intro _ | (simp only [kept_mk]; with_reducible apply keptC_upd)
    | with_reducible apply keptOut_next | with_reducible apply keptOut_ite | with_reducible apply kept_State_at
    | with_reducible apply kept_setQp | with_reducible apply kept_ite | split | dsimp only | with_reducible exact Kept.refl _

theorem kept_execRcLocalAckTimeout {x0 : Moment} {x1 : Nat} {x2 : State} (h2 : Kept s0 x2) : KeptOut s0 (execRcLocalAckTimeout x0 x1 x2) := by
  unfold execRcLocalAckTimeout
  repeat' first
    | with_reducible assumption | intro _ | (simp only [kept_mk]; with_reducible apply keptC_upd)
    | with_reducible apply keptOut_next | with_reducible apply keptOut_ite | with_reducible apply kept_State_at
    | with_reducible apply kept_qpFail | with_reducible apply kept_ccDecrease | with_reducible apply kept_setQp
    | with_reducible apply kept_resend | with_reducible apply kept_ite | with_reducible apply kept_foldl
    | with_reducible apply kept_foldl_snd | with_reducible apply kept_foldl_fst | split | dsimp only
    | with_reducible exact Kept.refl _

theorem kept_execGxAckTimer {x0 : Moment} {x1 : Nat} {x2 : State} (h2 : Kept s0 x2) : KeptOut s0 (execGxAckTimer x0 x1 x2) := by
  unfold execGxAckTimer
  repeat' first
    | with_reducible assumption | intro _ | (simp only [kept_mk]; with_reducible apply keptC_upd)
    | with_reducible apply keptOut_next | with_reducible apply keptOut_ite | with_reducible apply kept_State_at
    | with_reducible apply kept_sendAck | with_reducible apply kept_ite | split | dsimp only | with_reducible exact Kept.refl _

theorem kept_execQpDrainEnd {x0 : Moment} {x1 : Nat} {x2 : State} (h2 : Kept s0 x2) : KeptOut s0 (execQpDrainEnd x0 x1 x2) := by
  unfold execQpDrainEnd
  repeat' first
    | with_reducible assumption | intro _ | (simp only [kept_mk]; with_reducible apply keptC_upd)
    | with_reducible apply keptOut_next | with_reducible apply keptOut_ite | with_reducible apply kept_State_at
    | with_reducible apply kept_endOp | with_reducible apply kept_qpReset | with_reducible apply kept_ite | split | dsimp only
    | with_reducible exact Kept.refl _

end Sys2Proof.Machine
end

