-- ==== Sys2Proof/Laws/KeptReceive.lean ====
section
/-! SUPPORT. What the definitions of Sys2Proof/Machine/Receive.lean keep. -/

set_option linter.unusedSimpArgs false

namespace Sys2Proof.Machine

variable {s0 : State}

theorem kept_staleKey {x0 : Nat} {x1 : Pkt} {x2 : State} (h2 : Kept s0 x2) : Kept s0 (staleKey x0 x1 x2) := by
  unfold staleKey
  repeat' first
    | with_reducible assumption | intro _ | (simp only [kept_mk]; with_reducible apply keptC_upd)
    | with_reducible apply kept_bump | with_reducible apply kept_note | with_reducible apply kept_ite
    | with_reducible refine kept_of_done (by assumption) ?_ | with_reducible refine kept_of_failed (by assumption) ?_
    | with_reducible refine kept_of_applied (by assumption) ?_ | with_reducible refine kept_of_nak (by assumption) ?_
    | with_reducible refine kept_of_stop (by assumption) ?_ | with_reducible apply kept_getD | dsimp only
    | with_reducible exact Kept.refl _

theorem kept_gxChecks {x0 : Moment} {x1 : Nat} {x2 : Qp} {x3 : Pkt} {x4 : State} (h4 : Kept s0 x4) : KeptG s0 (gxChecks x0 x1 x2 x3 x4) := by
  unfold gxChecks
  repeat' first
    | with_reducible assumption | intro _ | (simp only [kept_mk]; with_reducible apply keptC_upd)
    | with_reducible apply kept_qpFail | with_reducible apply kept_sendAck | with_reducible apply kept_bump
    | with_reducible apply kept_ackLater | with_reducible apply kept_staleKey | with_reducible apply kept_ite
    | with_reducible apply keptG_stop | with_reducible apply keptG_pass | with_reducible apply keptG_ite
    | with_reducible refine kept_of_done (by assumption) ?_ | with_reducible refine kept_of_failed (by assumption) ?_
    | with_reducible refine kept_of_applied (by assumption) ?_ | with_reducible refine kept_of_nak (by assumption) ?_
    | with_reducible refine kept_of_stop (by assumption) ?_ | split | dsimp only | with_reducible exact Kept.refl _

theorem kept_recordPsn {x0 : Nat} {x1 : Nat} {x2 : State} (h2 : Kept s0 x2) : Kept s0 (recordPsn x0 x1 x2) := by
  unfold recordPsn
  repeat' first
    | with_reducible assumption | (simp only [kept_mk]; with_reducible apply keptC_upd) | with_reducible apply kept_bump
    | with_reducible apply kept_setQp | with_reducible refine kept_of_done (by assumption) ?_
    | with_reducible refine kept_of_failed (by assumption) ?_ | with_reducible refine kept_of_applied (by assumption) ?_
    | with_reducible refine kept_of_nak (by assumption) ?_ | with_reducible refine kept_of_stop (by assumption) ?_ | split
    | dsimp only | with_reducible exact Kept.refl _

theorem kept_settleCum {x0 : Nat} {x1 : State} (h1 : Kept s0 x1) : Kept s0 (settleCum x0 x1) := by
  unfold settleCum
  repeat' first
    | with_reducible assumption | (simp only [kept_mk]; with_reducible apply keptC_upd) | with_reducible apply kept_setQp
    | with_reducible refine kept_of_done (by assumption) ?_ | with_reducible refine kept_of_failed (by assumption) ?_
    | with_reducible refine kept_of_applied (by assumption) ?_ | with_reducible refine kept_of_nak (by assumption) ?_
    | with_reducible refine kept_of_stop (by assumption) ?_ | split | dsimp only | with_reducible exact Kept.refl _

theorem kept_unrecord {x0 : Nat} {x1 : Nat} {x2 : State} (h2 : Kept s0 x2) : Kept s0 (unrecord x0 x1 x2) := by
  unfold unrecord
  repeat' first
    | with_reducible assumption | (simp only [kept_mk]; with_reducible apply keptC_upd) | with_reducible apply kept_setQp
    | with_reducible refine kept_of_done (by assumption) ?_ | with_reducible refine kept_of_failed (by assumption) ?_
    | with_reducible refine kept_of_applied (by assumption) ?_ | with_reducible refine kept_of_nak (by assumption) ?_
    | with_reducible refine kept_of_stop (by assumption) ?_ | split | dsimp only | with_reducible exact Kept.refl _

theorem kept_setRx {x0 : Nat} {x1 : Nat} {x2 : RxMsg} {x3 : State} (h3 : Kept s0 x3) : Kept s0 (setRx x0 x1 x2 x3) := by
  unfold setRx
  repeat' first
    | with_reducible assumption | (simp only [kept_mk]; with_reducible apply keptC_upd) | with_reducible apply kept_setQp
    | with_reducible refine kept_of_done (by assumption) ?_ | with_reducible refine kept_of_failed (by assumption) ?_
    | with_reducible refine kept_of_applied (by assumption) ?_ | with_reducible refine kept_of_nak (by assumption) ?_
    | with_reducible refine kept_of_stop (by assumption) ?_ | split | dsimp only | with_reducible exact Kept.refl _

theorem kept_freeSeal {x0 : Nat} {x1 : Nat} {x2 : State} (h2 : Kept s0 x2) : Kept s0 (freeSeal x0 x1 x2) := by
  unfold freeSeal
  repeat' first
    | with_reducible assumption | intro _ | (simp only [kept_mk]; with_reducible apply keptC_upd)
    | with_reducible apply kept_move | with_reducible apply kept_setRx | with_reducible apply kept_ite
    | with_reducible refine kept_of_done (by assumption) ?_ | with_reducible refine kept_of_failed (by assumption) ?_
    | with_reducible refine kept_of_applied (by assumption) ?_ | with_reducible refine kept_of_nak (by assumption) ?_
    | with_reducible refine kept_of_stop (by assumption) ?_ | dsimp only | with_reducible exact Kept.refl _

theorem kept_passMsg {x0 : Nat} {x1 : Nat} {x2 : Bool} {x3 : State} (h3 : Kept s0 x3) : Kept s0 (passMsg x0 x1 x2 x3) := by
  unfold passMsg
  repeat' first
    | with_reducible assumption | intro _ | (simp only [kept_mk]; with_reducible apply keptC_upd)
    | with_reducible apply kept_setQp | with_reducible apply kept_ite | with_reducible refine kept_of_done (by assumption) ?_
    | with_reducible refine kept_of_failed (by assumption) ?_ | with_reducible refine kept_of_applied (by assumption) ?_
    | with_reducible refine kept_of_nak (by assumption) ?_ | with_reducible refine kept_of_stop (by assumption) ?_ | split
    | dsimp only | with_reducible exact Kept.refl _

theorem kept_exportRetired {x0 : Nat} {x1 : Nat} {x2 : State} (h2 : Kept s0 x2) : Kept s0 (exportRetired x0 x1 x2) := by
  unfold exportRetired
  repeat' first
    | with_reducible assumption | intro _
    | (simp only [kept_mk]; first | with_reducible apply keptC_upd | refine keptC_updHmk ?_ (by first | exact Nat.le_refl _ | exact Nat.le_add_right _ _ | omega) (by exact Nat.le_refl _) (by rfl))
    | with_reducible apply kept_freeDir | with_reducible apply kept_ite | with_reducible refine kept_of_done (by assumption) ?_
    | with_reducible refine kept_of_failed (by assumption) ?_ | with_reducible refine kept_of_applied (by assumption) ?_
    | with_reducible refine kept_of_nak (by assumption) ?_ | with_reducible refine kept_of_stop (by assumption) ?_ | split
    | dsimp only | with_reducible exact Kept.refl _

theorem kept_sealUnit {x0 : Moment} {x1 : Nat} {x2 : Nat} {x3 : Pkt} {x4 : State} (h4 : Kept s0 x4) : KeptF s0 (sealUnit x0 x1 x2 x3 x4) := by
  unfold sealUnit
  repeat' first
    | with_reducible assumption | intro _ | (simp only [kept_mk]; with_reducible apply keptC_upd)
    | with_reducible apply kept_exportRetired | with_reducible apply kept_sealChain | with_reducible apply kept_ite
    | with_reducible apply keptF_applied | with_reducible apply keptF_nak | with_reducible apply keptF_ite
    | with_reducible refine kept_of_done (by assumption) ?_ | with_reducible refine kept_of_failed (by assumption) ?_
    | with_reducible refine kept_of_applied (by assumption) ?_ | with_reducible refine kept_of_nak (by assumption) ?_
    | with_reducible refine kept_of_stop (by assumption) ?_ | split | dsimp only | with_reducible exact Kept.refl _

theorem kept_applySeals {x0 : Moment} {x1 : Nat} {x2 : Nat} {x3 : State} (h3 : Kept s0 x3) : Kept s0 (applySeals x0 x1 x2 x3) := by
  induction x2 generalizing x0 x1 x3 with
  | zero =>
    unfold applySeals
    repeat' first
      | with_reducible assumption | intro _
      | (simp only [kept_mk]; first | with_reducible apply keptC_upd | refine keptC_updHmk ?_ (by first | exact Nat.le_refl _ | exact Nat.le_add_right _ _ | omega) (by exact Nat.le_refl _) (by rfl))
      | with_reducible apply kept_passMsg | with_reducible apply kept_freeSeal | with_reducible apply kept_regionWrite
      | with_reducible apply kept_sealUnit | with_reducible apply kept_sendAck | with_reducible apply kept_settleCum
      | with_reducible apply kept_unrecord | with_reducible apply kept_ite | with_reducible refine kept_of_done (by assumption) ?_
      | with_reducible refine kept_of_failed (by assumption) ?_ | with_reducible refine kept_of_applied (by assumption) ?_
      | with_reducible refine kept_of_nak (by assumption) ?_ | with_reducible refine kept_of_stop (by assumption) ?_ | split
      | dsimp only | with_reducible exact Kept.refl _
  | succ n ih =>
    unfold applySeals
    repeat' first
      | with_reducible apply ih
      | with_reducible assumption | intro _
      | (simp only [kept_mk]; first | with_reducible apply keptC_upd | refine keptC_updHmk ?_ (by first | exact Nat.le_refl _ | exact Nat.le_add_right _ _ | omega) (by exact Nat.le_refl _) (by rfl))
      | with_reducible apply kept_passMsg | with_reducible apply kept_freeSeal | with_reducible apply kept_regionWrite
      | with_reducible apply kept_sealUnit | with_reducible apply kept_sendAck | with_reducible apply kept_settleCum
      | with_reducible apply kept_unrecord | with_reducible apply kept_ite | with_reducible refine kept_of_done (by assumption) ?_
      | with_reducible refine kept_of_failed (by assumption) ?_ | with_reducible refine kept_of_applied (by assumption) ?_
      | with_reducible refine kept_of_nak (by assumption) ?_ | with_reducible refine kept_of_stop (by assumption) ?_ | split
      | dsimp only | with_reducible exact Kept.refl _

theorem kept_firstPacket {x0 : Nat} {x1 : Pkt} {x2 : State} (h2 : Kept s0 x2) : Kept s0 (firstPacket x0 x1 x2) := by
  unfold firstPacket
  repeat' first
    | with_reducible assumption | intro _ | (simp only [kept_mk]; with_reducible apply keptC_upd)
    | with_reducible apply kept_chainAhead | with_reducible apply kept_ite
    | with_reducible refine kept_of_done (by assumption) ?_ | with_reducible refine kept_of_failed (by assumption) ?_
    | with_reducible refine kept_of_applied (by assumption) ?_ | with_reducible refine kept_of_nak (by assumption) ?_
    | with_reducible refine kept_of_stop (by assumption) ?_ | split | dsimp only | with_reducible exact Kept.refl _

theorem kept_gxSealIn {x0 : Moment} {x1 : Nat} {x2 : Pkt} {x3 : State} (h3 : Kept s0 x3) : Kept s0 (gxSealIn x0 x1 x2 x3) := by
  unfold gxSealIn
  repeat' first
    | with_reducible assumption | intro _ | (simp only [kept_mk]; with_reducible apply keptC_upd)
    | with_reducible apply kept_firstPacket | with_reducible apply kept_recordPsn | with_reducible apply kept_settleCum
    | with_reducible apply kept_applySeals | with_reducible apply kept_setRx | with_reducible apply kept_move
    | with_reducible apply kept_sendAck | with_reducible apply kept_unrecord | with_reducible apply kept_ite
    | with_reducible refine kept_of_done (by assumption) ?_ | with_reducible refine kept_of_failed (by assumption) ?_
    | with_reducible refine kept_of_applied (by assumption) ?_ | with_reducible refine kept_of_nak (by assumption) ?_
    | with_reducible refine kept_of_stop (by assumption) ?_ | with_reducible apply kept_getD | split | dsimp only
    | with_reducible exact Kept.refl _

theorem kept_sealTimeout {x0 : Moment} {x1 : Nat} {x2 : Nat} {x3 : State} (h3 : Kept s0 x3) : Kept s0 (sealTimeout x0 x1 x2 x3) := by
  unfold sealTimeout
  repeat' first
    | with_reducible assumption | intro _
    | (simp only [kept_mk]; first | with_reducible apply keptC_upd | refine keptC_updHmk ?_ (by first | exact Nat.le_refl _ | exact Nat.le_add_right _ _ | omega) (by exact Nat.le_refl _) (by rfl))
    | with_reducible apply kept_bump | with_reducible apply kept_freeSeal | with_reducible apply kept_setRx
    | with_reducible apply kept_chainSealFailed | with_reducible apply kept_settleCum | with_reducible apply kept_applySeals
    | with_reducible apply kept_sendAck | with_reducible apply kept_ite | with_reducible refine kept_of_done (by assumption) ?_
    | with_reducible refine kept_of_failed (by assumption) ?_ | with_reducible refine kept_of_applied (by assumption) ?_
    | with_reducible refine kept_of_nak (by assumption) ?_ | with_reducible refine kept_of_stop (by assumption) ?_ | split
    | dsimp only | with_reducible exact Kept.refl _

theorem kept_listPull {x0 : Moment} {x1 : Region} {x2 : Nat} {x3 : State} (h3 : Kept s0 x3) : KeptE s0 (listPull x0 x1 x2 x3) := by
  unfold listPull
  repeat' first
    | with_reducible assumption | intro _ | (simp only [kept_mk]; with_reducible apply keptC_upd)
    | with_reducible apply kept_reply_ok | with_reducible apply kept_reply_err | with_reducible apply kept_reply_wait
    | with_reducible apply kept_ite_st | with_reducible apply kept_newFop | with_reducible apply kept_addTodo
    | with_reducible apply kept_allocFrame | with_reducible apply kept_grabFrame | with_reducible apply kept_devWrite
    | with_reducible apply keptE_ok | with_reducible apply keptE_pure | with_reducible apply keptE_error
    | with_reducible apply keptE_ite | with_reducible apply keptE_map | with_reducible apply keptE_foldlM
    | with_reducible apply keptE_ebind | with_reducible apply keptE_ebindP | with_reducible apply keptE_bind
    | with_reducible apply kept_ite | with_reducible refine kept_of_okP (by assumption) ?_
    | with_reducible refine kept_of_snd (by assumption) ?_ | split | dsimp only | with_reducible exact Kept.refl _

theorem kept_listPullAll {x0 : Moment} {x1 : Region} {x2 : List Nat} {x3 : State} (h3 : Kept s0 x3) : Kept s0 (listPullAll x0 x1 x2 x3) := by
  unfold listPullAll
  repeat' first
    | with_reducible assumption | intro _ | (simp only [kept_mk]; with_reducible apply keptC_upd)
    | with_reducible apply kept_reply_ok | with_reducible apply kept_reply_err | with_reducible apply kept_reply_wait
    | with_reducible apply kept_ite_st | with_reducible apply kept_listPull | with_reducible apply kept_starve
    | with_reducible apply kept_foldl | with_reducible apply kept_foldl_snd | with_reducible apply kept_foldl_fst
    | with_reducible apply keptO_foldl | with_reducible apply keptP_foldl | with_reducible apply keptE_foldl
    | with_reducible apply keptEP_foldl | with_reducible refine kept_of_ok (by assumption) ?_ | split | dsimp only
    | with_reducible exact Kept.refl _

theorem kept_stallPkt {x0 : Nat} {x1 : Pkt} {x2 : State} (h2 : Kept s0 x2) : Kept s0 (stallPkt x0 x1 x2) := by
  unfold stallPkt
  repeat' first
    | with_reducible assumption | intro _ | (simp only [kept_mk]; with_reducible apply keptC_upd)
    | with_reducible apply kept_bump | with_reducible apply kept_move | with_reducible apply kept_setQp
    | with_reducible apply kept_ite | with_reducible refine kept_of_done (by assumption) ?_
    | with_reducible refine kept_of_failed (by assumption) ?_ | with_reducible refine kept_of_applied (by assumption) ?_
    | with_reducible refine kept_of_nak (by assumption) ?_ | with_reducible refine kept_of_stop (by assumption) ?_ | split
    | dsimp only | with_reducible exact Kept.refl _

theorem kept_notResident {x0 : Moment} {x1 : Nat} {x2 : Pkt} {x3 : Region} {x4 : List Nat} {x5 : State} (h5 : Kept s0 x5) : Kept s0 (notResident x0 x1 x2 x3 x4 x5) := by
  unfold notResident
  repeat' first
    | with_reducible assumption | intro _ | with_reducible apply kept_listPullAll | with_reducible apply kept_fresh
    | with_reducible apply kept_stallPkt | with_reducible apply kept_sendAck | with_reducible apply kept_ite
    | with_reducible refine kept_of_done (by assumption) ?_ | with_reducible refine kept_of_failed (by assumption) ?_
    | with_reducible refine kept_of_applied (by assumption) ?_ | with_reducible refine kept_of_nak (by assumption) ?_
    | with_reducible refine kept_of_stop (by assumption) ?_ | with_reducible refine kept_of_snd (by assumption) ?_ | split
    | dsimp only | with_reducible exact Kept.refl _

theorem kept_staged {x0 : State} (h0 : Kept s0 x0) : Kept s0 (staged x0) := by
  unfold staged
  repeat' first
    | with_reducible assumption | intro _ | (simp only [kept_mk]; with_reducible apply keptC_upd)
    | with_reducible apply kept_move | split | dsimp only | with_reducible exact Kept.refl _

theorem kept_gxPlace {x0 : Moment} {x1 : Nat} {x2 : Pkt} {x3 : State} (h3 : Kept s0 x3) : Kept s0 (gxPlace x0 x1 x2 x3) := by
  unfold gxPlace
  repeat' first
    | with_reducible assumption | intro _ | (simp only [kept_mk]; with_reducible apply keptC_upd)
    | with_reducible apply kept_recordPsn | with_reducible apply kept_setRx | with_reducible apply kept_staged
    | with_reducible apply kept_regionWrite | with_reducible apply kept_applySeals | with_reducible apply kept_firstPacket
    | with_reducible apply kept_settleCum | with_reducible apply kept_ite | split | dsimp only
    | with_reducible exact Kept.refl _

theorem kept_gxResponse {x0 : Nat} {x1 : Pkt} {x2 : State} (h2 : Kept s0 x2) : Kept s0 (gxResponse x0 x1 x2) := by
  unfold gxResponse
  repeat' first
    | with_reducible assumption | intro _ | (simp only [kept_mk]; with_reducible apply keptC_upd)
    | with_reducible apply kept_recordPsn | with_reducible apply kept_staged | with_reducible apply kept_settleCum
    | with_reducible apply kept_msgEnd | with_reducible apply kept_modMsg | with_reducible apply kept_ite
    | with_reducible apply keptE_ebind | with_reducible apply keptE_ebindP | with_reducible apply keptEP_ebind
    | with_reducible apply keptEP_ebindP | split | dsimp only | with_reducible exact Kept.refl _

theorem kept_gxAnswer {x0 : Moment} {x1 : Nat} {x2 : Pkt} {x3 : Region} {x4 : State} (h4 : Kept s0 x4) : Kept s0 (gxAnswer x0 x1 x2 x3 x4) := by
  unfold gxAnswer
  repeat' first
    | with_reducible assumption | intro _ | with_reducible apply kept_settleCum | with_reducible apply kept_recordPsn
    | with_reducible apply kept_applySeals | with_reducible apply kept_setRx | with_reducible apply kept_sendPkt
    | with_reducible apply kept_foldl | with_reducible apply kept_foldl_snd
    | with_reducible refine kept_of_done (by assumption) ?_ | with_reducible refine kept_of_failed (by assumption) ?_
    | with_reducible refine kept_of_applied (by assumption) ?_ | with_reducible refine kept_of_nak (by assumption) ?_
    | with_reducible refine kept_of_stop (by assumption) ?_ | with_reducible apply kept_getD
    | with_reducible apply kept_foldl_fst | dsimp only | with_reducible exact Kept.refl _

theorem kept_gxTake {x0 : Moment} {x1 : Nat} {x2 : Pkt} {x3 : State} (h3 : Kept s0 x3) : Kept s0 (gxTake x0 x1 x2 x3) := by
  unfold gxTake
  repeat' first
    | with_reducible assumption | intro _ | (simp only [kept_mk]; with_reducible apply keptC_upd)
    | with_reducible apply kept_gxChecks | with_reducible apply kept_gxResponse | with_reducible apply kept_listPullAll
    | with_reducible apply kept_notResident | with_reducible apply kept_gxAnswer | with_reducible apply kept_gxSealIn
    | with_reducible apply kept_gxPlace | with_reducible apply kept_ite | with_reducible apply keptO_ite
    | with_reducible exact kept_of_hypO ‹_› | with_reducible apply keptO_some | with_reducible apply keptO_none
    | with_reducible apply keptP_ite | with_reducible exact kept_of_hypP ‹_› | with_reducible apply keptP_some
    | with_reducible apply keptP_none | with_reducible apply keptE_ite | with_reducible exact kept_of_hypE ‹_›
    | with_reducible apply keptEP_ite | with_reducible exact kept_of_hypEP ‹_› | with_reducible apply keptEE_ite
    | with_reducible refine kept_of_done (by assumption) ?_ | with_reducible refine kept_of_failed (by assumption) ?_
    | with_reducible refine kept_of_applied (by assumption) ?_ | with_reducible refine kept_of_nak (by assumption) ?_
    | with_reducible refine kept_of_stop (by assumption) ?_ | with_reducible refine kept_of_ok (by assumption) ?_
    | with_reducible refine kept_of_error (by assumption) ?_ | with_reducible refine kept_of_okP (by assumption) ?_
    | with_reducible refine kept_of_some (by assumption) ?_ | with_reducible refine kept_of_someP (by assumption) ?_
    | with_reducible refine kept_of_fst (by assumption) ?_ | with_reducible refine kept_of_snd (by assumption) ?_
    | with_reducible refine kept_of_snd2 (by assumption) ?_ | with_reducible refine kept_of_snd3 (by assumption) ?_
    | with_reducible refine keptP_of_snd (by assumption) ?_ | split | dsimp only | with_reducible exact Kept.refl _

theorem kept_arrives {x0 : Nat} {x1 : Pkt} {x2 : State} (h2 : Kept s0 x2) : Kept s0 (arrives x0 x1 x2).2 := by
  unfold arrives
  repeat' first
    | with_reducible assumption | intro _ | (simp only [kept_mk]; with_reducible apply keptC_upd)
    | with_reducible apply kept_bump | with_reducible apply kept_ite | with_reducible apply kept_ite_snd
    | with_reducible refine kept_of_done (by assumption) ?_ | with_reducible refine kept_of_failed (by assumption) ?_
    | with_reducible refine kept_of_applied (by assumption) ?_ | with_reducible refine kept_of_nak (by assumption) ?_
    | with_reducible refine kept_of_stop (by assumption) ?_ | split | dsimp only | with_reducible exact Kept.refl _

theorem kept_gxGo {x0 : Moment} {x1 : Pkt} {x2 : State} (h2 : Kept s0 x2) : Kept s0 (gxGo x0 x1 x2) := by
  unfold gxGo
  repeat' first
    | with_reducible assumption | intro _ | (simp only [kept_mk]; with_reducible apply keptC_upd)
    | with_reducible apply kept_stallPkt | with_reducible apply kept_gxTake | with_reducible apply kept_ite | split
    | dsimp only | with_reducible exact Kept.refl _

theorem kept_gxReceive {x0 : Moment} {x1 : Pkt} {x2 : State} (h2 : Kept s0 x2) : Kept s0 (gxReceive x0 x1 x2) := by
  unfold gxReceive
  repeat' first
    | with_reducible assumption | intro _ | (simp only [kept_mk]; with_reducible apply keptC_upd)
    | with_reducible apply kept_arrives | with_reducible apply kept_rcAck | with_reducible apply kept_answerCe
    | with_reducible apply kept_gxGo | with_reducible apply kept_ite | with_reducible refine kept_of_snd (by assumption) ?_
    | split | dsimp only | with_reducible exact Kept.refl _

theorem kept_unstall {x0 : Moment} {x1 : Nat} {x2 : State} (h2 : Kept s0 x2) : Kept s0 (unstall x0 x1 x2) := by
  unfold unstall
  repeat' first
    | with_reducible assumption | intro _ | (simp only [kept_mk]; with_reducible apply keptC_upd)
    | with_reducible apply kept_move | with_reducible apply kept_gxGo | with_reducible apply kept_setQp
    | with_reducible apply kept_foldl | with_reducible apply kept_foldl_snd | with_reducible apply kept_foldl_fst
    | with_reducible apply keptO_foldl | with_reducible apply keptP_foldl | with_reducible apply keptE_foldl
    | with_reducible apply keptEP_foldl | split | dsimp only | with_reducible exact Kept.refl _

theorem kept_unstallAll {x0 : Moment} {x1 : State} (h1 : Kept s0 x1) : Kept s0 (unstallAll x0 x1) := by
  unfold unstallAll
  repeat' first
    | with_reducible assumption | intro _ | with_reducible apply kept_unstall | with_reducible apply kept_foldl
    | with_reducible apply kept_foldl_snd | with_reducible refine kept_of_done (by assumption) ?_
    | with_reducible refine kept_of_failed (by assumption) ?_ | with_reducible refine kept_of_applied (by assumption) ?_
    | with_reducible refine kept_of_nak (by assumption) ?_ | with_reducible refine kept_of_stop (by assumption) ?_ | dsimp only
    | with_reducible exact Kept.refl _

theorem kept_stallExpiry {x0 : Moment} {x1 : Nat} {x2 : State} (h2 : Kept s0 x2) : Kept s0 (stallExpiry x0 x1 x2) := by
  unfold stallExpiry
  repeat' first
    | with_reducible assumption | intro _ | (simp only [kept_mk]; with_reducible apply keptC_upd)
    | with_reducible apply kept_fresh | with_reducible apply kept_move | with_reducible apply kept_sendAck
    | with_reducible apply kept_gxGo | with_reducible apply kept_setQp | with_reducible apply kept_ite
    | with_reducible apply kept_foldl | with_reducible apply kept_foldl_snd | with_reducible apply kept_foldl_fst
    | with_reducible apply keptO_foldl | with_reducible apply keptP_foldl | with_reducible apply keptE_foldl
    | with_reducible apply keptEP_foldl | with_reducible refine kept_of_snd (by assumption) ?_ | split | dsimp only
    | with_reducible exact Kept.refl _

theorem kept_ackCovers {x0 : Nat} {x1 : Pkt} {x2 : State} (h2 : Kept s0 x2) : Kept s0 (ackCovers x0 x1 x2) := by
  unfold ackCovers
  repeat' first
    | with_reducible assumption | intro _ | (simp only [kept_mk]; with_reducible apply keptC_upd)
    | with_reducible apply kept_fresh | with_reducible apply kept_setQp | with_reducible apply kept_ite
    | with_reducible refine kept_of_done (by assumption) ?_ | with_reducible refine kept_of_failed (by assumption) ?_
    | with_reducible refine kept_of_applied (by assumption) ?_ | with_reducible refine kept_of_nak (by assumption) ?_
    | with_reducible refine kept_of_stop (by assumption) ?_ | with_reducible refine kept_of_snd (by assumption) ?_ | split
    | dsimp only | with_reducible exact Kept.refl _

theorem kept_ackDone {x0 : Nat} {x1 : Nat} {x2 : State} (h2 : Kept s0 x2) : Kept s0 (ackDone x0 x1 x2) := by
  unfold ackDone
  repeat' first
    | with_reducible assumption | intro _ | with_reducible apply kept_msgEnd | with_reducible apply kept_foldl
    | with_reducible apply kept_foldl_snd | with_reducible refine kept_of_done (by assumption) ?_
    | with_reducible refine kept_of_failed (by assumption) ?_ | with_reducible refine kept_of_applied (by assumption) ?_
    | with_reducible refine kept_of_nak (by assumption) ?_ | with_reducible refine kept_of_stop (by assumption) ?_
    | with_reducible apply kept_getD | with_reducible apply kept_foldl_fst | dsimp only | with_reducible exact Kept.refl _

theorem kept_gxNak {x0 : Moment} {x1 : Nat} {x2 : Pkt} {x3 : Option Nat} {x4 : State} (h4 : Kept s0 x4) : Kept s0 (gxNak x0 x1 x2 x3 x4) := by
  unfold gxNak
  repeat' first
    | with_reducible assumption | intro _ | (simp only [kept_mk]; with_reducible apply keptC_upd)
    | with_reducible apply kept_refused | with_reducible apply kept_msgEnd | with_reducible apply kept_qpFail
    | with_reducible apply kept_setQp | with_reducible apply kept_resend | with_reducible apply kept_ite
    | with_reducible refine kept_of_done (by assumption) ?_ | with_reducible refine kept_of_failed (by assumption) ?_
    | with_reducible refine kept_of_applied (by assumption) ?_ | with_reducible refine kept_of_nak (by assumption) ?_
    | with_reducible refine kept_of_stop (by assumption) ?_ | split | dsimp only | with_reducible exact Kept.refl _

theorem kept_gxAck {x0 : Moment} {x1 : Pkt} {x2 : State} (h2 : Kept s0 x2) : Kept s0 (gxAck x0 x1 x2) := by
  unfold gxAck
  repeat' first
    | with_reducible assumption | intro _ | (simp only [kept_mk]; with_reducible apply keptC_upd)
    | with_reducible apply kept_arrives | with_reducible apply kept_qpFail | with_reducible apply kept_sendAck
    | with_reducible apply kept_bump | with_reducible apply kept_gxNak | with_reducible apply kept_ackDone
    | with_reducible apply kept_ackCovers | with_reducible apply kept_ite
    | with_reducible refine kept_of_done (by assumption) ?_ | with_reducible refine kept_of_failed (by assumption) ?_
    | with_reducible refine kept_of_applied (by assumption) ?_ | with_reducible refine kept_of_nak (by assumption) ?_
    | with_reducible refine kept_of_stop (by assumption) ?_ | with_reducible refine kept_of_snd (by assumption) ?_ | split
    | dsimp only | with_reducible exact Kept.refl _

theorem kept_rcBad {x0 : Moment} {x1 : Nat} {x2 : Nat} {x3 : Nat} {x4 : State} (h4 : Kept s0 x4) : Kept s0 (rcBad x0 x1 x2 x3 x4) := by
  unfold rcBad
  repeat' first
    | with_reducible assumption | with_reducible apply kept_qpFail | with_reducible apply kept_rcAck
    | with_reducible refine kept_of_done (by assumption) ?_ | with_reducible refine kept_of_failed (by assumption) ?_
    | with_reducible refine kept_of_applied (by assumption) ?_ | with_reducible refine kept_of_nak (by assumption) ?_
    | with_reducible refine kept_of_stop (by assumption) ?_ | dsimp only | with_reducible exact Kept.refl _

theorem kept_rcNext {x0 : Nat} {x1 : Nat} {x2 : Nat} {x3 : State} (h3 : Kept s0 x3) : Kept s0 (rcNext x0 x1 x2 x3) := by
  unfold rcNext
  repeat' first
    | with_reducible assumption | (simp only [kept_mk]; with_reducible apply keptC_upd) | with_reducible apply kept_rcAck
    | with_reducible apply kept_bump | with_reducible apply kept_setQp | with_reducible refine kept_of_done (by assumption) ?_
    | with_reducible refine kept_of_failed (by assumption) ?_ | with_reducible refine kept_of_applied (by assumption) ?_
    | with_reducible refine kept_of_nak (by assumption) ?_ | with_reducible refine kept_of_stop (by assumption) ?_ | split
    | dsimp only | with_reducible exact Kept.refl _

theorem kept_rcTrigger {x0 : Moment} {x1 : Nat} {x2 : Qp} {x3 : Pkt} {x4 : Nat} {x5 : Nat} {x6 : State} (h6 : Kept s0 x6) : Kept s0 (rcTrigger x0 x1 x2 x3 x4 x5 x6) := by
  unfold rcTrigger
  repeat' first
    | with_reducible assumption | intro _ | (simp only [kept_mk]; with_reducible apply keptC_upd)
    | with_reducible apply kept_rcAck | with_reducible apply kept_sealChain | with_reducible apply kept_rcNext
    | with_reducible apply kept_setQp | with_reducible apply kept_ite
    | with_reducible refine kept_of_applied (by assumption) ?_ | with_reducible refine kept_of_nak (by assumption) ?_
    | split | dsimp only | with_reducible exact Kept.refl _

theorem kept_rcWriteIn {x0 : Moment} {x1 : Nat} {x2 : Qp} {x3 : Pkt} {x4 : State} (h4 : Kept s0 x4) : Kept s0 (rcWriteIn x0 x1 x2 x3 x4) := by
  unfold rcWriteIn
  repeat' first
    | with_reducible assumption | intro _ | (simp only [kept_mk]; with_reducible apply keptC_upd)
    | with_reducible apply kept_rcBad | with_reducible apply kept_listPullAll | with_reducible apply kept_fresh
    | with_reducible apply kept_rcAck | with_reducible apply kept_regionWrite | with_reducible apply kept_setQp
    | with_reducible apply kept_rcTrigger | with_reducible apply kept_rcNext | with_reducible apply kept_ite
    | with_reducible refine kept_of_done (by assumption) ?_ | with_reducible refine kept_of_failed (by assumption) ?_
    | with_reducible refine kept_of_applied (by assumption) ?_ | with_reducible refine kept_of_nak (by assumption) ?_
    | with_reducible refine kept_of_stop (by assumption) ?_ | with_reducible refine kept_of_snd (by assumption) ?_ | split
    | dsimp only | with_reducible exact Kept.refl _

theorem kept_rcReadIn {x0 : Moment} {x1 : Nat} {x2 : Qp} {x3 : Pkt} {x4 : State} (h4 : Kept s0 x4) : Kept s0 (rcReadIn x0 x1 x2 x3 x4) := by
  unfold rcReadIn
  repeat' first
    | with_reducible assumption | intro _ | (simp only [kept_mk]; with_reducible apply keptC_upd)
    | with_reducible apply kept_rcBad | with_reducible apply kept_listPullAll | with_reducible apply kept_fresh
    | with_reducible apply kept_rcAck | with_reducible apply kept_bump | with_reducible apply kept_setQp
    | with_reducible apply kept_emit | with_reducible apply kept_emitPkt | with_reducible apply kept_ite | with_reducible apply kept_foldl
    | with_reducible apply kept_foldl_snd | with_reducible refine kept_of_done (by assumption) ?_
    | with_reducible refine kept_of_failed (by assumption) ?_ | with_reducible refine kept_of_applied (by assumption) ?_
    | with_reducible refine kept_of_nak (by assumption) ?_ | with_reducible refine kept_of_stop (by assumption) ?_
    | with_reducible apply kept_foldl_fst | with_reducible refine kept_of_snd (by assumption) ?_ | split | dsimp only
    | with_reducible exact Kept.refl _

theorem kept_rcRequest {x0 : Moment} {x1 : Nat} {x2 : Qp} {x3 : Pkt} {x4 : State} (h4 : Kept s0 x4) : Kept s0 (rcRequest x0 x1 x2 x3 x4) := by
  unfold rcRequest
  repeat' first
    | with_reducible assumption | intro _ | with_reducible apply kept_rcNext | with_reducible apply kept_rcAck
    | with_reducible apply kept_rcWriteIn | with_reducible apply kept_rcReadIn | with_reducible apply kept_rcBad
    | with_reducible apply kept_ite | with_reducible refine kept_of_done (by assumption) ?_
    | with_reducible refine kept_of_failed (by assumption) ?_ | with_reducible refine kept_of_applied (by assumption) ?_
    | with_reducible refine kept_of_nak (by assumption) ?_ | with_reducible refine kept_of_stop (by assumption) ?_ | dsimp only
    | with_reducible exact Kept.refl _

theorem kept_rcCovers {x0 : Nat} {x1 : Nat} {x2 : State} (h2 : Kept s0 x2) : Kept s0 (rcCovers x0 x1 x2) := by
  unfold rcCovers
  repeat' first
    | with_reducible assumption | intro _ | (simp only [kept_mk]; with_reducible apply keptC_upd)
    | with_reducible apply kept_ackDone | with_reducible apply kept_setQp | with_reducible apply kept_ite
    | with_reducible refine kept_of_done (by assumption) ?_ | with_reducible refine kept_of_failed (by assumption) ?_
    | with_reducible refine kept_of_applied (by assumption) ?_ | with_reducible refine kept_of_nak (by assumption) ?_
    | with_reducible refine kept_of_stop (by assumption) ?_ | split | dsimp only | with_reducible exact Kept.refl _

theorem kept_rcAckIn {x0 : Moment} {x1 : Nat} {x2 : Pkt} {x3 : State} (h3 : Kept s0 x3) : Kept s0 (rcAckIn x0 x1 x2 x3) := by
  unfold rcAckIn
  repeat' first
    | with_reducible assumption | intro _ | (simp only [kept_mk]; with_reducible apply keptC_upd)
    | with_reducible apply kept_rcCovers | with_reducible apply kept_resend | with_reducible apply kept_setQp
    | with_reducible apply kept_qpFail | with_reducible apply kept_ite | with_reducible apply kept_foldl
    | with_reducible apply kept_foldl_snd | with_reducible refine kept_of_done (by assumption) ?_
    | with_reducible refine kept_of_failed (by assumption) ?_ | with_reducible refine kept_of_applied (by assumption) ?_
    | with_reducible refine kept_of_nak (by assumption) ?_ | with_reducible refine kept_of_stop (by assumption) ?_
    | with_reducible apply kept_foldl_fst | split | dsimp only | with_reducible exact Kept.refl _

theorem kept_rcResponse {x0 : Moment} {x1 : Nat} {x2 : Qp} {x3 : Pkt} {x4 : State} (h4 : Kept s0 x4) : Kept s0 (rcResponse x0 x1 x2 x3 x4) := by
  unfold rcResponse
  repeat' first
    | with_reducible assumption | intro _ | (simp only [kept_mk]; with_reducible apply keptC_upd)
    | with_reducible apply kept_qpFail | with_reducible apply kept_bump | with_reducible apply kept_modMsg
    | with_reducible apply kept_rcCovers | with_reducible apply kept_msgEnd | with_reducible apply kept_ite
    | with_reducible refine kept_of_done (by assumption) ?_ | with_reducible refine kept_of_failed (by assumption) ?_
    | with_reducible refine kept_of_applied (by assumption) ?_ | with_reducible refine kept_of_nak (by assumption) ?_
    | with_reducible refine kept_of_stop (by assumption) ?_ | split | dsimp only | with_reducible exact Kept.refl _

theorem kept_rcReceive {x0 : Moment} {x1 : Pkt} {x2 : State} (h2 : Kept s0 x2) : Kept s0 (rcReceive x0 x1 x2) := by
  unfold rcReceive
  repeat' first
    | with_reducible assumption | intro _ | (simp only [kept_mk]; with_reducible apply keptC_upd)
    | with_reducible apply kept_arrives | with_reducible apply kept_answerCe | with_reducible apply kept_rcAckIn
    | with_reducible apply kept_rcResponse | with_reducible apply kept_rcReadIn | with_reducible apply kept_setQp
    | with_reducible apply kept_rcBad | with_reducible apply kept_rcAck | with_reducible apply kept_bump
    | with_reducible apply kept_rcRequest | with_reducible apply kept_ite
    | with_reducible refine kept_of_done (by assumption) ?_ | with_reducible refine kept_of_failed (by assumption) ?_
    | with_reducible refine kept_of_applied (by assumption) ?_ | with_reducible refine kept_of_nak (by assumption) ?_
    | with_reducible refine kept_of_stop (by assumption) ?_ | with_reducible refine kept_of_snd (by assumption) ?_ | split
    | dsimp only | with_reducible exact Kept.refl _

end Sys2Proof.Machine
end

