-- ==== Sys2Proof/Laws/KeptNetCommands.lean ====
section
/-! SUPPORT. What the definitions of Sys2Proof/Machine/NetCommands.lean keep. -/

set_option linter.unusedSimpArgs false

namespace Sys2Proof.Machine

variable {s0 : State}

theorem kept_noteLink {x0 : Nat} {x1 : Bool} {x2 : State} (h2 : Kept s0 x2) : Kept s0 (noteLink x0 x1 x2) := by
  unfold noteLink
  repeat' first
    | with_reducible assumption | intro _ | with_reducible apply kept_note | with_reducible apply kept_ite | dsimp only
    | with_reducible exact Kept.refl _

theorem kept_bodyNetPortSet {x0 : Moment} {x1 : Req} {x2 : State} (h2 : Kept s0 x2) : Kept s0 (bodyNetPortSet x0 x1 x2).st := by
  unfold bodyNetPortSet
  repeat' first
    | with_reducible assumption | intro _ | with_reducible apply kept_reply_ok | with_reducible apply kept_reply_err
    | with_reducible apply kept_ite_st | with_reducible apply kept_setPort | with_reducible apply kept_failDownQps
    | with_reducible apply kept_noteLink | with_reducible apply kept_ite | with_reducible apply kept_foldl
    | with_reducible apply kept_foldl_snd | dsimp only | with_reducible exact Kept.refl _

theorem kept_execNetPortSet {x0 : Moment} {x1 : Req} {x2 : State} (h2 : Kept s0 x2) : KeptOut s0 (execNetPortSet x0 x1 x2) := by
  unfold execNetPortSet
  repeat' first
    | with_reducible assumption | with_reducible apply keptOut_next | with_reducible apply kept_runCommand
    | with_reducible apply kept_bodyNetPortSet | dsimp only | with_reducible exact Kept.refl _

theorem kept_bodyNetPortQuery {x0 : Moment} {x1 : Req} {x2 : State} (h2 : Kept s0 x2) : Kept s0 (bodyNetPortQuery x0 x1 x2).st := by
  unfold bodyNetPortQuery
  repeat' first
    | with_reducible assumption | intro _ | with_reducible apply kept_reply_ok | with_reducible apply kept_reply_err
    | with_reducible apply kept_ite_st | with_reducible apply kept_fresh | with_reducible apply kept_ite
    | with_reducible apply kept_foldl | with_reducible apply kept_foldl_snd | with_reducible apply kept_foldl_fst
    | with_reducible refine kept_of_snd (by assumption) ?_ | split | dsimp only | with_reducible exact Kept.refl _

theorem kept_execNetPortQuery {x0 : Moment} {x1 : Req} {x2 : State} (h2 : Kept s0 x2) : KeptOut s0 (execNetPortQuery x0 x1 x2) := by
  unfold execNetPortQuery
  repeat' first
    | with_reducible assumption | with_reducible apply keptOut_next | with_reducible apply kept_runCommand
    | with_reducible apply kept_bodyNetPortQuery | dsimp only | with_reducible exact Kept.refl _

theorem kept_execEthLinkChange {x0 : Moment} {x1 : Nat} {x2 : Bool} {x3 : State} (h3 : Kept s0 x3) : KeptOut s0 (execEthLinkChange x0 x1 x2 x3) := by
  unfold execEthLinkChange
  repeat' first
    | with_reducible assumption | intro _ | (simp only [kept_mk]; with_reducible apply keptC_upd)
    | with_reducible apply keptOut_next | with_reducible apply keptOut_ite | with_reducible apply kept_State_at
    | with_reducible apply kept_setPort | with_reducible apply kept_failDownQps | with_reducible apply kept_noteLink
    | with_reducible apply kept_ite | dsimp only | with_reducible exact Kept.refl _

theorem kept_bodyNetQpConnect {x0 : Moment} {x1 : Req} {x2 : State} (h2 : Kept s0 x2) : Kept s0 (bodyNetQpConnect x0 x1 x2).st := by
  unfold bodyNetQpConnect
  repeat' first
    | with_reducible assumption | intro _ | (simp only [kept_mk]; with_reducible apply keptC_upd)
    | with_reducible apply kept_reply_ok | with_reducible apply kept_reply_err | with_reducible apply kept_ite_st
    | with_reducible apply kept_setQp | with_reducible apply kept_ite | split | dsimp only | with_reducible exact Kept.refl _

theorem kept_execNetQpConnect {x0 : Moment} {x1 : Req} {x2 : State} (h2 : Kept s0 x2) : KeptOut s0 (execNetQpConnect x0 x1 x2) := by
  unfold execNetQpConnect
  repeat' first
    | with_reducible assumption | with_reducible apply keptOut_next | with_reducible apply kept_runCommand
    | with_reducible apply kept_bodyNetQpConnect | dsimp only | with_reducible exact Kept.refl _

theorem kept_bodyNetQpClose {x0 : Moment} {x1 : Req} {x2 : State} (h2 : Kept s0 x2) : Kept s0 (bodyNetQpClose x0 x1 x2).st := by
  unfold bodyNetQpClose
  repeat' first
    | with_reducible assumption | intro _ | (simp only [kept_mk]; with_reducible apply keptC_upd)
    | with_reducible apply kept_reply_err | with_reducible apply kept_asOp | with_reducible apply kept_qpReset
    | with_reducible apply kept_setQp | split | dsimp only | with_reducible exact Kept.refl _

theorem kept_execNetQpClose {x0 : Moment} {x1 : Req} {x2 : State} (h2 : Kept s0 x2) : KeptOut s0 (execNetQpClose x0 x1 x2) := by
  unfold execNetQpClose
  repeat' first
    | with_reducible assumption | with_reducible apply keptOut_next | with_reducible apply kept_runCommand
    | with_reducible apply kept_bodyNetQpClose | dsimp only | with_reducible exact Kept.refl _

theorem kept_endNetQpClose {x0 : Nat} {x1 : LongOp} {x2 : State} (h2 : Kept s0 x2) : Kept s0 (endNetQpClose x0 x1 x2) := by
  unfold endNetQpClose
  repeat' first
    | with_reducible assumption | intro _ | with_reducible apply kept_endOp | with_reducible apply kept_ite | dsimp only
    | with_reducible exact Kept.refl _

theorem kept_bodyNetQpQuery {x0 : Moment} {x1 : Req} {x2 : State} (h2 : Kept s0 x2) : Kept s0 (bodyNetQpQuery x0 x1 x2).st := by
  unfold bodyNetQpQuery
  repeat' first
    | with_reducible assumption | intro _ | (simp only [kept_mk]; with_reducible apply keptC_upd)
    | with_reducible apply kept_reply_ok | with_reducible apply kept_reply_err | split | dsimp only
    | with_reducible exact Kept.refl _

theorem kept_execNetQpQuery {x0 : Moment} {x1 : Req} {x2 : State} (h2 : Kept s0 x2) : KeptOut s0 (execNetQpQuery x0 x1 x2) := by
  unfold execNetQpQuery
  repeat' first
    | with_reducible assumption | with_reducible apply keptOut_next | with_reducible apply kept_runCommand
    | with_reducible apply kept_bodyNetQpQuery | dsimp only | with_reducible exact Kept.refl _

theorem kept_bodyNetCcSet {x0 : Moment} {x1 : Req} {x2 : State} (h2 : Kept s0 x2) : Kept s0 (bodyNetCcSet x0 x1 x2).st := by
  unfold bodyNetCcSet
  repeat' first
    | with_reducible assumption | intro _ | (simp only [kept_mk]; with_reducible apply keptC_upd)
    | with_reducible apply kept_reply_ok | with_reducible apply kept_reply_err | with_reducible apply kept_ite_st
    | with_reducible apply kept_ite | split | dsimp only | with_reducible exact Kept.refl _

theorem kept_execNetCcSet {x0 : Moment} {x1 : Req} {x2 : State} (h2 : Kept s0 x2) : KeptOut s0 (execNetCcSet x0 x1 x2) := by
  unfold execNetCcSet
  repeat' first
    | with_reducible assumption | with_reducible apply keptOut_next | with_reducible apply kept_runCommand
    | with_reducible apply kept_bodyNetCcSet | dsimp only | with_reducible exact Kept.refl _

theorem kept_bodyNetRegionReg {x0 : Moment} {x1 : Req} {x2 : State} (h2 : Kept s0 x2) : Kept s0 (bodyNetRegionReg x0 x1 x2).st := by
  unfold bodyNetRegionReg
  repeat' first
    | with_reducible assumption | intro _
    | (simp only [kept_mk]; first | with_reducible apply keptC_upd | refine keptC_updHmk ?_ (by first | exact Nat.le_refl _ | exact Nat.le_add_right _ _ | omega) (by exact Nat.le_refl _) (by rfl))
    | with_reducible apply kept_reply_ok | with_reducible apply kept_reply_err | with_reducible apply kept_ite_st
    | with_reducible apply kept_ite | with_reducible apply kept_getD | split | dsimp only | with_reducible exact Kept.refl _

theorem kept_execNetRegionReg {x0 : Moment} {x1 : Req} {x2 : State} (h2 : Kept s0 x2) : KeptOut s0 (execNetRegionReg x0 x1 x2) := by
  unfold execNetRegionReg
  repeat' first
    | with_reducible assumption | with_reducible apply keptOut_next | with_reducible apply kept_runCommand
    | with_reducible apply kept_bodyNetRegionReg | dsimp only | with_reducible exact Kept.refl _

theorem kept_bodyNetRegionDereg {x0 : Moment} {x1 : Req} {x2 : State} (h2 : Kept s0 x2) : Kept s0 (bodyNetRegionDereg x0 x1 x2).st := by
  unfold bodyNetRegionDereg
  repeat' first
    | with_reducible assumption | intro _ | (simp only [kept_mk]; with_reducible apply keptC_upd)
    | with_reducible apply kept_reply_ok | with_reducible apply kept_reply_err | with_reducible apply kept_ite_st
    | with_reducible apply kept_ite | split | dsimp only | with_reducible exact Kept.refl _

theorem kept_execNetRegionDereg {x0 : Moment} {x1 : Req} {x2 : State} (h2 : Kept s0 x2) : KeptOut s0 (execNetRegionDereg x0 x1 x2) := by
  unfold execNetRegionDereg
  repeat' first
    | with_reducible assumption | with_reducible apply keptOut_next | with_reducible apply kept_runCommand
    | with_reducible apply kept_bodyNetRegionDereg | dsimp only | with_reducible exact Kept.refl _

theorem kept_execRegionQuarantineExpiry {x0 : Moment} {x1 : Nat} {x2 : State} (h2 : Kept s0 x2) : KeptOut s0 (execRegionQuarantineExpiry x0 x1 x2) := by
  unfold execRegionQuarantineExpiry
  repeat' first
    | with_reducible assumption | intro _ | (simp only [kept_mk]; with_reducible apply keptC_upd)
    | with_reducible apply keptOut_next | with_reducible apply keptOut_ite | with_reducible apply kept_State_at
    | with_reducible apply kept_ite | split | dsimp only | with_reducible exact Kept.refl _

theorem kept_bodyNetRegionQuery {x0 : Moment} {x1 : Req} {x2 : State} (h2 : Kept s0 x2) : Kept s0 (bodyNetRegionQuery x0 x1 x2).st := by
  unfold bodyNetRegionQuery
  repeat' first
    | with_reducible assumption | intro _ | (simp only [kept_mk]; with_reducible apply keptC_upd)
    | with_reducible apply kept_reply_ok | with_reducible apply kept_reply_err | split | dsimp only
    | with_reducible exact Kept.refl _

theorem kept_execNetRegionQuery {x0 : Moment} {x1 : Req} {x2 : State} (h2 : Kept s0 x2) : KeptOut s0 (execNetRegionQuery x0 x1 x2) := by
  unfold execNetRegionQuery
  repeat' first
    | with_reducible assumption | with_reducible apply keptOut_next | with_reducible apply kept_runCommand
    | with_reducible apply kept_bodyNetRegionQuery | dsimp only | with_reducible exact Kept.refl _

theorem kept_postSend {x0 : Nat} {x1 : Nat} {x2 : PostWr} {x3 : State} (h3 : Kept s0 x3) : KeptE s0 (postSend x0 x1 x2 x3) := by
  unfold postSend
  repeat' first
    | with_reducible assumption | intro _ | (simp only [kept_mk]; with_reducible apply keptC_upd)
    | with_reducible apply kept_post | with_reducible apply kept_gxRead | with_reducible apply kept_rcRead
    | with_reducible apply kept_gxWrite | with_reducible apply kept_rcSend | with_reducible apply kept_ite
    | with_reducible apply keptE_ite | with_reducible exact kept_of_hypE ‹_› | with_reducible apply keptE_error
    | with_reducible refine kept_of_ok (by assumption) ?_ | split | dsimp only | with_reducible exact Kept.refl _

theorem kept_postAll {x0 : Nat} {x1 : Nat} {x2 : List PostWr} {x3 : State} (h3 : Kept s0 x3) : Kept s0 (postAll x0 x1 x2 x3) := by
  induction x2 generalizing x0 x1 x3 with
  | nil =>
    unfold postAll
    repeat' first
      | with_reducible assumption | (simp only [kept_mk]; with_reducible apply keptC_upd) | with_reducible apply kept_postSend
      | with_reducible apply kept_postDone | with_reducible refine kept_of_ok (by assumption) ?_ | split | dsimp only
      | with_reducible exact Kept.refl _
  | cons a t ih =>
    unfold postAll
    repeat' first
      | with_reducible apply ih
      | with_reducible assumption | (simp only [kept_mk]; with_reducible apply keptC_upd) | with_reducible apply kept_postSend
      | with_reducible apply kept_postDone | with_reducible refine kept_of_ok (by assumption) ?_ | split | dsimp only
      | with_reducible exact Kept.refl _

theorem kept_bodyNetPost {x0 : Moment} {x1 : Req} {x2 : State} (h2 : Kept s0 x2) : Kept s0 (bodyNetPost x0 x1 x2).st := by
  unfold bodyNetPost
  repeat' first
    | with_reducible assumption | intro _ | (simp only [kept_mk]; with_reducible apply keptC_upd)
    | with_reducible apply kept_reply_ok | with_reducible apply kept_reply_err | with_reducible apply kept_reply_wait
    | with_reducible apply kept_ite_st | with_reducible apply kept_postAll | with_reducible apply kept_asOp
    | with_reducible apply kept_spentMsgs | with_reducible apply kept_withData | with_reducible apply kept_Reply_ok
    | with_reducible apply kept_Reply_err | with_reducible apply kept_ite | split | dsimp only
    | with_reducible exact Kept.refl _

theorem kept_execNetPost {x0 : Moment} {x1 : Req} {x2 : State} (h2 : Kept s0 x2) : KeptOut s0 (execNetPost x0 x1 x2) := by
  unfold execNetPost
  repeat' first
    | with_reducible assumption | with_reducible apply keptOut_next | with_reducible apply kept_runCommand
    | with_reducible apply kept_bodyNetPost | dsimp only | with_reducible exact Kept.refl _

theorem kept_endNetPost {x0 : Nat} {x1 : LongOp} {x2 : State} (h2 : Kept s0 x2) : Kept s0 (endNetPost x0 x1 x2) := by
  unfold endNetPost
  repeat' first
    | with_reducible assumption | intro _ | with_reducible apply kept_endOp | with_reducible apply kept_dropMsgs
    | with_reducible apply kept_post | with_reducible apply kept_ite | with_reducible apply kept_getD | dsimp only
    | with_reducible exact Kept.refl _

theorem kept_bodyNetChainPost {x0 : Moment} {x1 : Req} {x2 : State} (h2 : Kept s0 x2) : Kept s0 (bodyNetChainPost x0 x1 x2).st := by
  unfold bodyNetChainPost
  repeat' first
    | with_reducible assumption | intro _ | (simp only [kept_mk]; with_reducible apply keptC_upd)
    | with_reducible apply kept_reply_ok | with_reducible apply kept_reply_err | with_reducible apply kept_ite_st
    | with_reducible apply kept_checked | with_reducible apply kept_ite | split | dsimp only | with_reducible exact Kept.refl _

theorem kept_execNetChainPost {x0 : Moment} {x1 : Req} {x2 : State} (h2 : Kept s0 x2) : KeptOut s0 (execNetChainPost x0 x1 x2) := by
  unfold execNetChainPost
  repeat' first
    | with_reducible assumption | with_reducible apply keptOut_next | with_reducible apply kept_runCommand
    | with_reducible apply kept_bodyNetChainPost | dsimp only | with_reducible exact Kept.refl _

theorem kept_bodyNetChainCancel {x0 : Moment} {x1 : Req} {x2 : State} (h2 : Kept s0 x2) : Kept s0 (bodyNetChainCancel x0 x1 x2).st := by
  unfold bodyNetChainCancel
  repeat' first
    | with_reducible assumption | intro _
    | (simp only [kept_mk]; first | with_reducible apply keptC_upd | refine keptC_updHmk ?_ (by first | exact Nat.le_refl _ | exact Nat.le_add_right _ _ | omega) (by exact Nat.le_refl _) (by rfl))
    | with_reducible apply kept_reply_ok | with_reducible apply kept_reply_err | with_reducible apply kept_ite_st
    | with_reducible apply kept_freeChain | with_reducible apply kept_ite | split | dsimp only
    | with_reducible exact Kept.refl _

theorem kept_execNetChainCancel {x0 : Moment} {x1 : Req} {x2 : State} (h2 : Kept s0 x2) : KeptOut s0 (execNetChainCancel x0 x1 x2) := by
  unfold execNetChainCancel
  repeat' first
    | with_reducible assumption | with_reducible apply keptOut_next | with_reducible apply kept_runCommand
    | with_reducible apply kept_bodyNetChainCancel | dsimp only | with_reducible exact Kept.refl _

theorem kept_mapApply {x0 : Nat} {x1 : Nat} {x2 : Bool} {x3 : MapChange} {x4 : State} (h4 : Kept s0 x4) : Kept s0 (mapApply x0 x1 x2 x3 x4) := by
  unfold mapApply
  repeat' first
    | with_reducible assumption | intro _ | (simp only [kept_mk]; with_reducible apply keptC_upd)
    | with_reducible apply kept_ite | with_reducible apply kept_getD | split | dsimp only | with_reducible exact Kept.refl _

theorem kept_setEpoch {x0 : Nat} {x1 : Nat} {x2 : State} (h2 : Kept s0 x2) : Kept s0 (setEpoch x0 x1 x2) := by
  unfold setEpoch
  repeat' first
    | with_reducible assumption | (simp only [kept_mk]; with_reducible apply keptC_upd) | dsimp only
    | with_reducible exact Kept.refl _

theorem kept_setMapOp {x0 : Nat} {x1 : MapOp} {x2 : State} (h2 : Kept s0 x2) : Kept s0 (setMapOp x0 x1 x2) := by
  unfold setMapOp
  repeat' first
    | with_reducible assumption | intro _ | (simp only [kept_mk]; with_reducible apply keptC_upd) | dsimp only
    | with_reducible exact Kept.refl _

theorem kept_delMapOp {x0 : Nat} {x1 : State} (h1 : Kept s0 x1) : Kept s0 (delMapOp x0 x1) := by
  unfold delMapOp
  repeat' first
    | with_reducible assumption | intro _ | (simp only [kept_mk]; with_reducible apply keptC_upd) | dsimp only
    | with_reducible exact Kept.refl _

theorem kept_bodyNetMapUpdate {x0 : Moment} {x1 : Req} {x2 : State} (h2 : Kept s0 x2) : Kept s0 (bodyNetMapUpdate x0 x1 x2).st := by
  unfold bodyNetMapUpdate
  repeat' first
    | with_reducible assumption | intro _ | with_reducible apply kept_reply_err | with_reducible apply kept_ite_st
    | with_reducible apply kept_checked | with_reducible apply kept_asOp | with_reducible apply kept_setEpoch
    | with_reducible apply kept_mapApply | with_reducible apply kept_phaseOp | with_reducible apply kept_setMapOp
    | with_reducible apply kept_ite | with_reducible apply kept_foldl | with_reducible apply kept_foldl_snd | dsimp only
    | with_reducible exact Kept.refl _

theorem kept_execNetMapUpdate {x0 : Moment} {x1 : Req} {x2 : State} (h2 : Kept s0 x2) : KeptOut s0 (execNetMapUpdate x0 x1 x2) := by
  unfold execNetMapUpdate
  repeat' first
    | with_reducible assumption | with_reducible apply keptOut_next | with_reducible apply kept_runCommand
    | with_reducible apply kept_bodyNetMapUpdate | dsimp only | with_reducible exact Kept.refl _

theorem kept_mapUpdateEnd {x0 : Nat} {x1 : State} (h1 : Kept s0 x1) : Kept s0 (mapUpdateEnd x0 x1) := by
  unfold mapUpdateEnd
  repeat' first
    | with_reducible assumption | intro _ | (simp only [kept_mk]; with_reducible apply keptC_upd)
    | with_reducible apply kept_endOp | with_reducible apply kept_note | with_reducible apply kept_delMapOp
    | with_reducible apply kept_ite | with_reducible apply kept_foldl | with_reducible apply kept_foldl_snd | split | dsimp only
    | with_reducible exact Kept.refl _

theorem kept_mapPhase {x0 : Nat} {x1 : Nat} {x2 : Bool} {x3 : State} (h3 : Kept s0 x3) : Kept s0 (mapPhase x0 x1 x2 x3) := by
  unfold mapPhase
  repeat' first
    | with_reducible assumption | intro _ | (simp only [kept_mk]; with_reducible apply keptC_upd)
    | with_reducible apply kept_phaseOp | split | dsimp only | with_reducible exact Kept.refl _

theorem kept_mapDrain {x0 : Nat} {x1 : State} (h1 : Kept s0 x1) : Kept s0 (mapDrain x0 x1) := by
  unfold mapDrain
  repeat' first
    | with_reducible assumption | intro _ | (simp only [kept_mk]; with_reducible apply keptC_upd)
    | with_reducible apply kept_mapPhase | with_reducible apply kept_ite | split | dsimp only
    | with_reducible exact Kept.refl _

theorem kept_execMapUpdateDrained {x0 : Moment} {x1 : Nat} {x2 : State} (h2 : Kept s0 x2) : KeptOut s0 (execMapUpdateDrained x0 x1 x2) := by
  unfold execMapUpdateDrained
  repeat' first
    | with_reducible assumption | intro _ | (simp only [kept_mk]; with_reducible apply keptC_upd)
    | with_reducible apply keptOut_next | with_reducible apply keptOut_ite | with_reducible apply kept_mapDrain
    | with_reducible apply kept_mapUpdateEnd | with_reducible apply kept_State_at | with_reducible apply kept_foldl
    | with_reducible apply kept_foldl_snd | with_reducible apply kept_foldl_fst | with_reducible apply keptO_foldl
    | with_reducible apply keptP_foldl | with_reducible apply keptE_foldl | with_reducible apply keptEP_foldl | split
    | dsimp only | with_reducible exact Kept.refl _

theorem kept_endNetMapUpdate {x0 : Nat} {x1 : LongOp} {x2 : State} (h2 : Kept s0 x2) : Kept s0 (endNetMapUpdate x0 x1 x2) := by
  unfold endNetMapUpdate
  repeat' first
    | with_reducible assumption | intro _ | (simp only [kept_mk]; with_reducible apply keptC_upd)
    | with_reducible apply kept_mapDrain | with_reducible apply kept_endOp | with_reducible apply kept_mapUpdateEnd
    | with_reducible apply kept_ite | split | dsimp only | with_reducible exact Kept.refl _

theorem kept_bodyNetMapSwap {x0 : Moment} {x1 : Req} {x2 : State} (h2 : Kept s0 x2) : Kept s0 (bodyNetMapSwap x0 x1 x2).st := by
  unfold bodyNetMapSwap
  repeat' first
    | with_reducible assumption | intro _ | (simp only [kept_mk]; with_reducible apply keptC_upd)
    | with_reducible apply kept_reply_ok | with_reducible apply kept_reply_err | with_reducible apply kept_ite_st
    | with_reducible apply kept_withData | with_reducible apply kept_checked | with_reducible apply kept_asOp
    | with_reducible apply kept_phaseOp | with_reducible apply kept_setMapOp | with_reducible apply kept_ite | split
    | dsimp only | with_reducible exact Kept.refl _

theorem kept_execNetMapSwap {x0 : Moment} {x1 : Req} {x2 : State} (h2 : Kept s0 x2) : KeptOut s0 (execNetMapSwap x0 x1 x2) := by
  unfold execNetMapSwap
  repeat' first
    | with_reducible assumption | with_reducible apply keptOut_next | with_reducible apply kept_runCommand
    | with_reducible apply kept_bodyNetMapSwap | dsimp only | with_reducible exact Kept.refl _

theorem kept_mapSwapDrop {x0 : Nat} {x1 : State} (h1 : Kept s0 x1) : Kept s0 (mapSwapDrop x0 x1) := by
  unfold mapSwapDrop
  repeat' first
    | with_reducible assumption | with_reducible apply kept_endOp | with_reducible apply kept_delMapOp | dsimp only
    | with_reducible exact Kept.refl _

theorem kept_mapSwapTake {x0 : Nat} {x1 : State} (h1 : Kept s0 x1) : Kept s0 (mapSwapTake x0 x1) := by
  unfold mapSwapTake
  repeat' first
    | with_reducible assumption | intro _ | (simp only [kept_mk]; with_reducible apply keptC_upd)
    | with_reducible apply kept_setEpoch | with_reducible apply kept_setMapOp | with_reducible apply kept_endOp
    | with_reducible apply kept_mapApply | with_reducible apply kept_mapPhase | with_reducible apply kept_delMapOp
    | with_reducible apply kept_ite | with_reducible apply kept_foldl | with_reducible apply kept_foldl_snd
    | with_reducible apply kept_foldl_fst | with_reducible apply keptO_foldl | with_reducible apply keptP_foldl
    | with_reducible apply keptE_foldl | with_reducible apply keptEP_foldl | split | dsimp only
    | with_reducible exact Kept.refl _

theorem kept_mapSwapNext {x0 : Nat} {x1 : State} (h1 : Kept s0 x1) : Kept s0 (mapSwapNext x0 x1) := by
  unfold mapSwapNext
  repeat' first
    | with_reducible assumption | intro _ | (simp only [kept_mk]; with_reducible apply keptC_upd)
    | with_reducible apply kept_endOp | with_reducible apply kept_mapPhase | with_reducible apply kept_delMapOp
    | with_reducible apply kept_mapSwapDrop | with_reducible apply kept_mapSwapTake | with_reducible apply kept_ite | split
    | dsimp only | with_reducible exact Kept.refl _

theorem kept_execMapSwapHoldExpiry {x0 : Moment} {x1 : Nat} {x2 : State} (h2 : Kept s0 x2) : KeptOut s0 (execMapSwapHoldExpiry x0 x1 x2) := by
  unfold execMapSwapHoldExpiry
  repeat' first
    | with_reducible assumption | intro _ | (simp only [kept_mk]; with_reducible apply keptC_upd)
    | with_reducible apply keptOut_next | with_reducible apply keptOut_ite | with_reducible apply kept_mapSwapDrop
    | with_reducible apply kept_State_at | with_reducible apply kept_mapSwapNext | with_reducible apply kept_ite | split
    | dsimp only | with_reducible exact Kept.refl _

theorem kept_bodyNetMapRead {x0 : Moment} {x1 : Req} {x2 : State} (h2 : Kept s0 x2) : Kept s0 (bodyNetMapRead x0 x1 x2).st := by
  unfold bodyNetMapRead
  repeat' first
    | with_reducible assumption | intro _ | (simp only [kept_mk]; with_reducible apply keptC_upd)
    | with_reducible apply kept_reply_ok | with_reducible apply kept_reply_err | with_reducible apply kept_ite_st
    | with_reducible apply kept_ite | split | dsimp only | with_reducible exact Kept.refl _

theorem kept_execNetMapRead {x0 : Moment} {x1 : Req} {x2 : State} (h2 : Kept s0 x2) : KeptOut s0 (execNetMapRead x0 x1 x2) := by
  unfold execNetMapRead
  repeat' first
    | with_reducible assumption | with_reducible apply keptOut_next | with_reducible apply kept_runCommand
    | with_reducible apply kept_bodyNetMapRead | dsimp only | with_reducible exact Kept.refl _

theorem kept_bodyNetPtpSet {x0 : Moment} {x1 : Req} {x2 : State} (h2 : Kept s0 x2) : Kept s0 (bodyNetPtpSet x0 x1 x2).st := by
  unfold bodyNetPtpSet
  repeat' first
    | with_reducible assumption | intro _ | (simp only [kept_mk]; with_reducible apply keptC_upd)
    | with_reducible apply kept_reply_ok | with_reducible apply kept_reply_err | with_reducible apply kept_ite_st
    | with_reducible apply kept_ite | dsimp only | with_reducible exact Kept.refl _

theorem kept_execNetPtpSet {x0 : Moment} {x1 : Req} {x2 : State} (h2 : Kept s0 x2) : KeptOut s0 (execNetPtpSet x0 x1 x2) := by
  unfold execNetPtpSet
  repeat' first
    | with_reducible assumption | with_reducible apply keptOut_next | with_reducible apply kept_runCommand
    | with_reducible apply kept_bodyNetPtpSet | dsimp only | with_reducible exact Kept.refl _

end Sys2Proof.Machine
end

