-- ==== Sys2Proof/Laws/KeptEligible.lean ====
section
/-! SUPPORT. What the definitions of Sys2Proof/Machine/Eligible.lean keep. -/

set_option linter.unusedSimpArgs false

namespace Sys2Proof.Machine

variable {s0 : State}

theorem kept_noteGate {x0 : Session} {x1 : Gate} {x2 : State} (h2 : Kept s0 x2) : Kept s0 (noteGate x0 x1 x2) := by
  unfold noteGate
  repeat' first
    | with_reducible assumption | intro _ | (simp only [kept_mk]; with_reducible apply keptC_upd)
    | with_reducible apply kept_modSess | with_reducible apply kept_restQueue | with_reducible apply kept_streamStall
    | split | dsimp only | with_reducible exact Kept.refl _

theorem kept_settleQueues {x0 : State} (h0 : Kept s0 x0) : Kept s0 (settleQueues x0) := by
  unfold settleQueues
  repeat' first
    | with_reducible assumption | intro _ | (simp only [kept_mk]; with_reducible apply keptC_upd)
    | with_reducible apply kept_noteEligible | with_reducible apply kept_noteGate | with_reducible apply kept_wakeParts
    | with_reducible apply kept_wakeQueue | with_reducible apply kept_foldl | with_reducible apply kept_foldl_snd
    | with_reducible apply kept_foldl_fst | with_reducible apply keptO_foldl | with_reducible apply keptP_foldl
    | with_reducible apply keptE_foldl | with_reducible apply keptEP_foldl | split | dsimp only
    | with_reducible exact Kept.refl _

end Sys2Proof.Machine
end

