-- ==== Sys2Proof/Laws/KeptSettle.lean ====
section
/-! SUPPORT. What the definitions of Sys2Proof/Machine/Settle.lean keep. -/

set_option linter.unusedSimpArgs false

namespace Sys2Proof.Machine

variable {s0 : State}

theorem kept_applyChange {x0 : Moment} {x1 : Session} {x2 : Req} {x3 : State} (h3 : Kept s0 x3) : Kept s0 (applyChange x0 x1 x2 x3).st := by
  unfold applyChange
  repeat' first
    | with_reducible assumption | intro _ | (simp only [kept_mk]; with_reducible apply keptC_upd)
    | with_reducible apply kept_reply_ok | with_reducible apply kept_reply_err | with_reducible apply kept_reply_wait
    | with_reducible apply kept_ite_st | with_reducible apply kept_castBody | with_reducible apply kept_setNow
    | with_reducible apply kept_rebindNow | with_reducible apply kept_deviceCast | with_reducible apply kept_finSetNow
    | with_reducible apply kept_Reply_wait | with_reducible apply kept_Reply_ok | with_reducible apply kept_stopNow
    | with_reducible apply kept_armActive | with_reducible apply kept_runChain | with_reducible apply kept_Reply_err
    | with_reducible apply kept_appendNow | with_reducible apply kept_bodyFdyMigrate
    | with_reducible apply kept_appendToksNow | with_reducible apply kept_ite | split | dsimp only
    | with_reducible exact Kept.refl _

theorem kept_applyChanges {x0 : Moment} {x1 : Nat} {x2 : Nat} {x3 : State} (h3 : Kept s0 x3) : Kept s0 (applyChanges x0 x1 x2 x3) := by
  induction x2 generalizing x0 x1 x3 with
  | zero =>
    unfold applyChanges
    repeat' first
      | with_reducible assumption | intro _ | (simp only [kept_mk]; with_reducible apply keptC_upd)
      | with_reducible apply kept_reply_ok | with_reducible apply kept_reply_wait | with_reducible apply kept_ite_st
      | with_reducible apply kept_post | with_reducible apply kept_answer | with_reducible apply kept_retireActive
      | with_reducible apply kept_showRebind | with_reducible apply kept_modSess | with_reducible apply kept_applyChange
      | with_reducible apply kept_ite | split | dsimp only | with_reducible exact Kept.refl _
  | succ n ih =>
    unfold applyChanges
    repeat' first
      | with_reducible apply ih
      | with_reducible assumption | intro _ | (simp only [kept_mk]; with_reducible apply keptC_upd)
      | with_reducible apply kept_reply_ok | with_reducible apply kept_reply_wait | with_reducible apply kept_ite_st
      | with_reducible apply kept_post | with_reducible apply kept_answer | with_reducible apply kept_retireActive
      | with_reducible apply kept_showRebind | with_reducible apply kept_modSess | with_reducible apply kept_applyChange
      | with_reducible apply kept_ite | split | dsimp only | with_reducible exact Kept.refl _

theorem kept_applyParked {x0 : Nat} {x1 : DirEntry} {x2 : Req} {x3 : State} (h3 : Kept s0 x3) : Kept s0 (applyParked x0 x1 x2 x3).st := by
  unfold applyParked
  repeat' first
    | with_reducible assumption | intro _ | (simp only [kept_mk]; with_reducible apply keptC_upd)
    | with_reducible apply kept_reply_ok | with_reducible apply kept_reply_err | with_reducible apply kept_reply_wait
    | with_reducible apply kept_ite_st | with_reducible apply kept_setParked | with_reducible apply kept_rebindNow
    | with_reducible apply kept_finSetNow | with_reducible apply kept_Reply_err | with_reducible apply kept_armNow
    | with_reducible apply kept_ite | split | dsimp only | with_reducible exact Kept.refl _

theorem kept_parkedChanges {x0 : Nat} {x1 : State} (h1 : Kept s0 x1) : Kept s0 (parkedChanges x0 x1) := by
  unfold parkedChanges
  repeat' first
    | with_reducible assumption | intro _ | (simp only [kept_mk]; with_reducible apply keptC_upd)
    | with_reducible apply kept_reply_ok | with_reducible apply kept_reply_wait | with_reducible apply kept_ite_st
    | with_reducible apply kept_modStore | with_reducible apply kept_answer | with_reducible apply kept_applyParked
    | with_reducible apply kept_post | with_reducible apply kept_retireParked | with_reducible apply kept_answerGone
    | with_reducible apply kept_ite | with_reducible apply kept_foldl | with_reducible apply kept_foldl_snd
    | with_reducible apply kept_getD | split | dsimp only | with_reducible exact Kept.refl _

theorem kept_settleChanges {x0 : Moment} {x1 : State} (h1 : Kept s0 x1) : Kept s0 (settleChanges x0 x1) := by
  unfold settleChanges
  repeat' first
    | with_reducible assumption | intro _ | with_reducible apply kept_applyChanges | with_reducible apply kept_parkedChanges
    | with_reducible apply kept_foldl | with_reducible apply kept_foldl_snd | with_reducible apply kept_foldl_fst | dsimp only
    | with_reducible exact Kept.refl _

theorem kept_settleChains {x0 : Moment} {x1 : State} (h1 : Kept s0 x1) : Kept s0 (settleChains x0 x1) := by
  unfold settleChains
  repeat' first
    | with_reducible assumption | intro _ | with_reducible apply kept_fireChain | with_reducible apply kept_runChain
    | with_reducible apply kept_foldl | with_reducible apply kept_foldl_snd | dsimp only | with_reducible exact Kept.refl _

theorem kept_settleAll {x0 : Moment} {x1 : State} (h1 : Kept s0 x1) : Kept s0 (settleAll x0 x1) := by
  unfold settleAll
  repeat' first
    | with_reducible assumption | intro _ | (simp only [kept_mk]; with_reducible apply keptC_upd)
    | with_reducible apply kept_spentMsgs | with_reducible apply kept_settleChains | with_reducible apply kept_unstallAll
    | with_reducible apply kept_settleQueues | with_reducible apply kept_pressure | with_reducible apply kept_settleChanges
    | with_reducible apply kept_captureAll | split | dsimp only | with_reducible exact Kept.refl _

theorem kept_runSettled {x0 : OpInfo} {x1 : Moment → Req → State → Reply} {x2 : Moment} {x3 : Req} {x4 : State} (h1 : ∀ y0 y1 y2, Kept s0 y2 → Kept s0 (x1 y0 y1 y2).st) (h4 : Kept s0 x4) : Kept s0 (runSettled x0 x1 x2 x3 x4) := by
  unfold runSettled
  repeat' first
    | with_reducible assumption | with_reducible apply h1 | with_reducible apply kept_settleAll
    | with_reducible apply kept_runCommand | dsimp only | with_reducible exact Kept.refl _

theorem kept_execSessionAdmit {x0 : Moment} {x1 : Req} {x2 : State} (h2 : Kept s0 x2) : KeptOut s0 (execSessionAdmit x0 x1 x2) := by
  unfold execSessionAdmit
  repeat' first
    | with_reducible assumption | with_reducible apply keptOut_next | with_reducible apply kept_runSettled
    | with_reducible apply kept_bodySessionAdmit | dsimp only | with_reducible exact Kept.refl _

theorem kept_execSessionAppend {x0 : Moment} {x1 : Req} {x2 : State} (h2 : Kept s0 x2) : KeptOut s0 (execSessionAppend x0 x1 x2) := by
  unfold execSessionAppend
  repeat' first
    | with_reducible assumption | with_reducible apply keptOut_next | with_reducible apply kept_runSettled
    | with_reducible apply kept_bodySessionAppend | dsimp only | with_reducible exact Kept.refl _

theorem kept_execSessionAppendTokens {x0 : Moment} {x1 : Req} {x2 : State} (h2 : Kept s0 x2) : KeptOut s0 (execSessionAppendTokens x0 x1 x2) := by
  unfold execSessionAppendTokens
  repeat' first
    | with_reducible assumption | with_reducible apply keptOut_next | with_reducible apply kept_runSettled
    | with_reducible apply kept_bodySessionAppendTokens | dsimp only | with_reducible exact Kept.refl _

theorem kept_execSessionStop {x0 : Moment} {x1 : Req} {x2 : State} (h2 : Kept s0 x2) : KeptOut s0 (execSessionStop x0 x1 x2) := by
  unfold execSessionStop
  repeat' first
    | with_reducible assumption | with_reducible apply keptOut_next | with_reducible apply kept_runSettled
    | with_reducible apply kept_bodySessionStop | dsimp only | with_reducible exact Kept.refl _

theorem kept_execSessionSet {x0 : Moment} {x1 : Req} {x2 : State} (h2 : Kept s0 x2) : KeptOut s0 (execSessionSet x0 x1 x2) := by
  unfold execSessionSet
  repeat' first
    | with_reducible assumption | with_reducible apply keptOut_next | with_reducible apply kept_runSettled
    | with_reducible apply kept_bodySessionSet | dsimp only | with_reducible exact Kept.refl _

theorem kept_execSessionRebind {x0 : Moment} {x1 : Req} {x2 : State} (h2 : Kept s0 x2) : KeptOut s0 (execSessionRebind x0 x1 x2) := by
  unfold execSessionRebind
  repeat' first
    | with_reducible assumption | with_reducible apply keptOut_next | with_reducible apply kept_runSettled
    | with_reducible apply kept_bodySessionRebind | dsimp only | with_reducible exact Kept.refl _

theorem kept_execSessionRetire {x0 : Moment} {x1 : Req} {x2 : State} (h2 : Kept s0 x2) : KeptOut s0 (execSessionRetire x0 x1 x2) := by
  unfold execSessionRetire
  repeat' first
    | with_reducible assumption | with_reducible apply keptOut_next | with_reducible apply kept_runSettled
    | with_reducible apply kept_bodySessionRetire | dsimp only | with_reducible exact Kept.refl _

theorem kept_execSessionArm {x0 : Moment} {x1 : Req} {x2 : State} (h2 : Kept s0 x2) : KeptOut s0 (execSessionArm x0 x1 x2) := by
  unfold execSessionArm
  repeat' first
    | with_reducible assumption | with_reducible apply keptOut_next | with_reducible apply kept_runSettled
    | with_reducible apply kept_bodySessionArm | dsimp only | with_reducible exact Kept.refl _

theorem kept_execPlnConfig {x0 : Moment} {x1 : Req} {x2 : State} (h2 : Kept s0 x2) : KeptOut s0 (execPlnConfig x0 x1 x2) := by
  unfold execPlnConfig
  repeat' first
    | with_reducible assumption | with_reducible apply keptOut_next | with_reducible apply kept_runSettled
    | with_reducible apply kept_bodyPlnConfig | dsimp only | with_reducible exact Kept.refl _

theorem kept_execFinSet {x0 : Moment} {x1 : Req} {x2 : State} (h2 : Kept s0 x2) : KeptOut s0 (execFinSet x0 x1 x2) := by
  unfold execFinSet
  repeat' first
    | with_reducible assumption | with_reducible apply keptOut_next | with_reducible apply kept_runSettled
    | with_reducible apply kept_bodyFinSet | dsimp only | with_reducible exact Kept.refl _

theorem kept_shearLaneStart {x0 : Moment} {x1 : State} (h1 : Kept s0 x1) : Kept s0 (shearLaneStart x0 x1) := by
  unfold shearLaneStart
  repeat' first
    | with_reducible assumption | intro _ | (simp only [kept_mk]; with_reducible apply keptC_upd)
    | with_reducible apply kept_phaseOp | with_reducible apply kept_answer | with_reducible apply kept_dropJob
    | with_reducible apply kept_wakeParts | with_reducible apply kept_runAppend | with_reducible apply kept_chargeLane
    | with_reducible apply kept_ite | split | dsimp only | with_reducible exact Kept.refl _

theorem kept_execShearLaneStart {x0 : Moment} {x1 : State} (h1 : Kept s0 x1) : KeptOut s0 (execShearLaneStart x0 x1) := by
  unfold execShearLaneStart
  repeat' first
    | with_reducible assumption | with_reducible apply keptOut_next | with_reducible apply kept_settleAll
    | with_reducible apply kept_shearLaneStart | with_reducible apply kept_State_at | dsimp only
    | with_reducible exact Kept.refl _

theorem kept_autoCast {x0 : Moment} {x1 : Nat} {x2 : State} (h2 : Kept s0 x2) : Kept s0 (autoCast x0 x1 x2) := by
  unfold autoCast
  repeat' first
    | with_reducible assumption | intro _ | (simp only [kept_mk]; with_reducible apply keptC_upd)
    | with_reducible apply kept_requestCast | with_reducible apply kept_modSess | with_reducible apply kept_ite | split
    | dsimp only | with_reducible exact Kept.refl _

theorem kept_execAutoCastTimer {x0 : Moment} {x1 : Nat} {x2 : State} (h2 : Kept s0 x2) : KeptOut s0 (execAutoCastTimer x0 x1 x2) := by
  unfold execAutoCastTimer
  repeat' first
    | with_reducible assumption | with_reducible apply keptOut_next | with_reducible apply kept_settleAll
    | with_reducible apply kept_autoCast | with_reducible apply kept_State_at | dsimp only | with_reducible exact Kept.refl _

theorem kept_execRaiseWaitDequeue {x0 : Moment} {x1 : State} (h1 : Kept s0 x1) : KeptOut s0 (execRaiseWaitDequeue x0 x1) := by
  unfold execRaiseWaitDequeue
  repeat' first
    | with_reducible assumption | with_reducible apply keptOut_next | with_reducible apply kept_settleAll
    | with_reducible apply kept_dequeueRaise | with_reducible apply kept_State_at | dsimp only
    | with_reducible exact Kept.refl _

theorem kept_execClassSet {x0 : Moment} {x1 : Req} {x2 : State} (h2 : Kept s0 x2) : KeptOut s0 (execClassSet x0 x1 x2) := by
  unfold execClassSet
  repeat' first
    | with_reducible assumption | intro _ | (simp only [kept_mk]; with_reducible apply keptC_upd)
    | with_reducible apply keptOut_next | with_reducible apply keptOut_ite | with_reducible apply kept_bodyClassSet
    | with_reducible apply kept_runSettled | split | dsimp only | with_reducible exact Kept.refl _

theorem kept_execPartitionShare {x0 : Moment} {x1 : Req} {x2 : State} (h2 : Kept s0 x2) : KeptOut s0 (execPartitionShare x0 x1 x2) := by
  unfold execPartitionShare
  repeat' first
    | with_reducible assumption | intro _ | (simp only [kept_mk]; with_reducible apply keptC_upd)
    | with_reducible apply keptOut_next | with_reducible apply keptOut_ite | with_reducible apply kept_bodyPartitionShare
    | with_reducible apply kept_runSettled | split | dsimp only | with_reducible exact Kept.refl _

theorem kept_execStreamRingSet {x0 : Moment} {x1 : Req} {x2 : State} (h2 : Kept s0 x2) : KeptOut s0 (execStreamRingSet x0 x1 x2) := by
  unfold execStreamRingSet
  repeat' first
    | with_reducible assumption | intro _ | (simp only [kept_mk]; with_reducible apply keptC_upd)
    | with_reducible apply keptOut_next | with_reducible apply keptOut_ite | with_reducible apply kept_runSettled
    | with_reducible apply kept_bodyStreamRingSet | split | dsimp only | with_reducible exact Kept.refl _

theorem kept_execModelLoadComplete {x0 : Moment} {x1 : Nat} {x2 : Bool} {x3 : State} (h3 : Kept s0 x3) : KeptOut s0 (execModelLoadComplete x0 x1 x2 x3) := by
  unfold execModelLoadComplete
  repeat' first
    | with_reducible assumption | intro _ | (simp only [kept_mk]; with_reducible apply keptC_upd)
    | with_reducible apply keptOut_next | with_reducible apply keptOut_ite | with_reducible apply kept_settleAll
    | with_reducible apply kept_modelLoadComplete | with_reducible apply kept_State_at | split | dsimp only
    | with_reducible exact Kept.refl _

theorem kept_execStreamRecordWrite {x0 : Moment} {x1 : Nat} {x2 : Nat} {x3 : State} (h3 : Kept s0 x3) : KeptOut s0 (execStreamRecordWrite x0 x1 x2 x3) := by
  unfold execStreamRecordWrite
  repeat' first
    | with_reducible assumption | intro _ | (simp only [kept_mk]; with_reducible apply keptC_upd)
    | with_reducible apply keptOut_next | with_reducible apply keptOut_ite | with_reducible apply kept_streamRecordWrite
    | with_reducible apply kept_settleAll | with_reducible apply kept_State_at | split | dsimp only
    | with_reducible exact Kept.refl _

theorem kept_execStreamConsRead {x0 : Moment} {x1 : Nat} {x2 : Nat} {x3 : State} (h3 : Kept s0 x3) : KeptOut s0 (execStreamConsRead x0 x1 x2 x3) := by
  unfold execStreamConsRead
  repeat' first
    | with_reducible assumption | intro _ | (simp only [kept_mk]; with_reducible apply keptC_upd)
    | with_reducible apply keptOut_next | with_reducible apply keptOut_ite | with_reducible apply kept_streamConsRead
    | with_reducible apply kept_settleAll | with_reducible apply kept_State_at | split | dsimp only
    | with_reducible exact Kept.refl _

theorem kept_execFdyCast {x0 : Moment} {x1 : Req} {x2 : State} (h2 : Kept s0 x2) : KeptOut s0 (execFdyCast x0 x1 x2) := by
  unfold execFdyCast
  repeat' first
    | with_reducible assumption | with_reducible apply keptOut_next | with_reducible apply kept_runSettled
    | with_reducible apply kept_bodyFdyCast | dsimp only | with_reducible exact Kept.refl _

theorem kept_execFdyRaise {x0 : Moment} {x1 : Req} {x2 : State} (h2 : Kept s0 x2) : KeptOut s0 (execFdyRaise x0 x1 x2) := by
  unfold execFdyRaise
  repeat' first
    | with_reducible assumption | with_reducible apply keptOut_next | with_reducible apply kept_runSettled
    | with_reducible apply kept_bodyFdyRaise | dsimp only | with_reducible exact Kept.refl _

theorem kept_execFdyMigrate {x0 : Moment} {x1 : Req} {x2 : State} (h2 : Kept s0 x2) : KeptOut s0 (execFdyMigrate x0 x1 x2) := by
  unfold execFdyMigrate
  repeat' first
    | with_reducible assumption | with_reducible apply keptOut_next | with_reducible apply kept_runSettled
    | with_reducible apply kept_bodyFdyMigrate | dsimp only | with_reducible exact Kept.refl _

theorem kept_execDescriptorIssue {x0 : Moment} {x1 : Nat} {x2 : State} (h2 : Kept s0 x2) : KeptOut s0 (execDescriptorIssue x0 x1 x2) := by
  unfold execDescriptorIssue
  repeat' first
    | with_reducible assumption | with_reducible apply keptOut_next | with_reducible apply kept_settleAll
    | with_reducible apply kept_descriptorIssue | with_reducible apply kept_State_at | dsimp only
    | with_reducible exact Kept.refl _

theorem kept_execDescriptorComplete {x0 : Moment} {x1 : Nat} {x2 : DescResult} {x3 : State} (h3 : Kept s0 x3) : KeptOut s0 (execDescriptorComplete x0 x1 x2 x3) := by
  unfold execDescriptorComplete
  repeat' first
    | with_reducible assumption | with_reducible apply keptOut_next | with_reducible apply kept_settleAll
    | with_reducible apply kept_descriptorComplete | with_reducible apply kept_State_at | dsimp only
    | with_reducible exact Kept.refl _

theorem kept_execPullTimeoutExpiry {x0 : Moment} {x1 : Nat} {x2 : State} (h2 : Kept s0 x2) : KeptOut s0 (execPullTimeoutExpiry x0 x1 x2) := by
  unfold execPullTimeoutExpiry
  repeat' first
    | with_reducible assumption | with_reducible apply keptOut_next | with_reducible apply kept_settleAll
    | with_reducible apply kept_pullTimeout | with_reducible apply kept_State_at | dsimp only | with_reducible exact Kept.refl _

theorem kept_execMigrateArrive {x0 : Moment} {x1 : Nat} {x2 : Nat} {x3 : MigrateIn} {x4 : State} (h4 : Kept s0 x4) : KeptOut s0 (execMigrateArrive x0 x1 x2 x3 x4) := by
  unfold execMigrateArrive
  repeat' first
    | with_reducible assumption | intro _ | with_reducible apply keptOut_next | with_reducible apply kept_settleAll
    | with_reducible apply kept_migrateArrive | with_reducible apply kept_swlGot | with_reducible apply kept_State_at
    | dsimp only | with_reducible exact Kept.refl _

theorem kept_execMigrateConfirm {x0 : Moment} {x1 : Nat} {x2 : Bool} {x3 : Nat} {x4 : Nat} {x5 : State} (h5 : Kept s0 x5) : KeptOut s0 (execMigrateConfirm x0 x1 x2 x3 x4 x5) := by
  unfold execMigrateConfirm
  repeat' first
    | with_reducible assumption | intro _ | (simp only [kept_mk]; with_reducible apply keptC_upd)
    | with_reducible apply keptOut_next | with_reducible apply keptOut_ite | with_reducible apply kept_State_at
    | with_reducible apply kept_swlGot | with_reducible apply kept_settleAll | with_reducible apply kept_migrateConfirm
    | with_reducible apply kept_ite | split | dsimp only | with_reducible exact Kept.refl _

theorem kept_execExportCommit {x0 : Moment} {x1 : ExportIn} {x2 : State} (h2 : Kept s0 x2) : KeptOut s0 (execExportCommit x0 x1 x2) := by
  unfold execExportCommit
  repeat' first
    | with_reducible assumption | with_reducible apply keptOut_next | with_reducible apply kept_settleAll
    | with_reducible apply kept_exportCommit | with_reducible apply kept_State_at | dsimp only
    | with_reducible exact Kept.refl _

theorem kept_execExportRetired {x0 : Moment} {x1 : Nat} {x2 : Nat} {x3 : State} (h3 : Kept s0 x3) : KeptOut s0 (execExportRetired x0 x1 x2 x3) := by
  unfold execExportRetired
  repeat' first
    | with_reducible assumption | with_reducible apply keptOut_next | with_reducible apply kept_settleAll
    | with_reducible apply kept_exportRetired | with_reducible apply kept_State_at | dsimp only
    | with_reducible exact Kept.refl _

theorem kept_execGxDataReceive {x0 : Moment} {x1 : Pkt} {x2 : State} (h2 : Kept s0 x2) : KeptOut s0 (execGxDataReceive x0 x1 x2) := by
  unfold execGxDataReceive
  repeat' first
    | with_reducible assumption | with_reducible apply keptOut_next | with_reducible apply kept_settleAll
    | with_reducible apply kept_gxReceive | with_reducible apply kept_State_at | dsimp only | with_reducible exact Kept.refl _

theorem kept_execGxSealReceive {x0 : Moment} {x1 : Pkt} {x2 : State} (h2 : Kept s0 x2) : KeptOut s0 (execGxSealReceive x0 x1 x2) := by
  unfold execGxSealReceive
  repeat' first
    | with_reducible assumption | with_reducible apply keptOut_next | with_reducible apply kept_settleAll
    | with_reducible apply kept_gxReceive | with_reducible apply kept_State_at | dsimp only | with_reducible exact Kept.refl _

theorem kept_execGxReadReceive {x0 : Moment} {x1 : Pkt} {x2 : State} (h2 : Kept s0 x2) : KeptOut s0 (execGxReadReceive x0 x1 x2) := by
  unfold execGxReadReceive
  repeat' first
    | with_reducible assumption | with_reducible apply keptOut_next | with_reducible apply kept_settleAll
    | with_reducible apply kept_gxReceive | with_reducible apply kept_State_at | dsimp only | with_reducible exact Kept.refl _

theorem kept_execGxAckReceive {x0 : Moment} {x1 : Pkt} {x2 : State} (h2 : Kept s0 x2) : KeptOut s0 (execGxAckReceive x0 x1 x2) := by
  unfold execGxAckReceive
  repeat' first
    | with_reducible assumption | with_reducible apply keptOut_next | with_reducible apply kept_settleAll
    | with_reducible apply kept_gxAck | with_reducible apply kept_State_at | dsimp only | with_reducible exact Kept.refl _

theorem kept_execRcPacketReceive {x0 : Moment} {x1 : Pkt} {x2 : State} (h2 : Kept s0 x2) : KeptOut s0 (execRcPacketReceive x0 x1 x2) := by
  unfold execRcPacketReceive
  repeat' first
    | with_reducible assumption | with_reducible apply keptOut_next | with_reducible apply kept_settleAll
    | with_reducible apply kept_rcReceive | with_reducible apply kept_State_at | dsimp only | with_reducible exact Kept.refl _

theorem kept_execSealTimeout {x0 : Moment} {x1 : Nat} {x2 : Nat} {x3 : State} (h3 : Kept s0 x3) : KeptOut s0 (execSealTimeout x0 x1 x2 x3) := by
  unfold execSealTimeout
  repeat' first
    | with_reducible assumption | with_reducible apply keptOut_next | with_reducible apply kept_settleAll
    | with_reducible apply kept_sealTimeout | with_reducible apply kept_State_at | dsimp only | with_reducible exact Kept.refl _

theorem kept_execNotResidentStallExpiry {x0 : Moment} {x1 : Nat} {x2 : State} (h2 : Kept s0 x2) : KeptOut s0 (execNotResidentStallExpiry x0 x1 x2) := by
  unfold execNotResidentStallExpiry
  repeat' first
    | with_reducible assumption | with_reducible apply keptOut_next | with_reducible apply kept_settleAll
    | with_reducible apply kept_stallExpiry | with_reducible apply kept_State_at | dsimp only | with_reducible exact Kept.refl _

theorem kept_execNvmeDisconnect {x0 : Moment} {x1 : Req} {x2 : State} (h2 : Kept s0 x2) : KeptOut s0 (execNvmeDisconnect x0 x1 x2) := by
  unfold execNvmeDisconnect
  repeat' first
    | with_reducible assumption | with_reducible apply keptOut_next | with_reducible apply kept_runSettled
    | with_reducible apply kept_bodyNvmeDisconnect | dsimp only | with_reducible exact Kept.refl _

theorem kept_execNvmeCompletionReceive {x0 : Moment} {x1 : Nat} {x2 : Bool} {x3 : Bytes} {x4 : State} (h4 : Kept s0 x4) : KeptOut s0 (execNvmeCompletionReceive x0 x1 x2 x3 x4) := by
  unfold execNvmeCompletionReceive
  repeat' first
    | with_reducible assumption | with_reducible apply keptOut_next | with_reducible apply kept_settleAll
    | with_reducible apply kept_nvmeDone | with_reducible apply kept_State_at | dsimp only | with_reducible exact Kept.refl _

theorem kept_execNvmeKeepaliveLapse {x0 : Moment} {x1 : Nat} {x2 : State} (h2 : Kept s0 x2) : KeptOut s0 (execNvmeKeepaliveLapse x0 x1 x2) := by
  unfold execNvmeKeepaliveLapse
  repeat' first
    | with_reducible assumption | with_reducible apply keptOut_next | with_reducible apply kept_settleAll
    | with_reducible apply kept_nvmeLost | with_reducible apply kept_State_at | dsimp only | with_reducible exact Kept.refl _

end Sys2Proof.Machine
end

