-- ==== Sys2Proof/Laws/KeptGrants.lean ====
section
/-! SUPPORT. What the definitions of Sys2Proof/Machine/Grants.lean keep. -/

set_option linter.unusedSimpArgs false

namespace Sys2Proof.Machine

variable {s0 : State}

theorem kept_testSession {x0 : Moment} {x1 : Nat} {x2 : State} (h2 : Kept s0 x2) : Kept s0 (testSession x0 x1 x2) := by
  unfold testSession
  repeat' first
    | with_reducible assumption | intro _ | (simp only [kept_mk]; with_reducible apply keptC_upd)
    | with_reducible apply kept_reply_ok | with_reducible apply kept_reply_err | with_reducible apply kept_reply_wait
    | with_reducible apply kept_ite_st | with_reducible apply kept_bump | with_reducible apply kept_ueLog
    | with_reducible apply kept_pageWait | with_reducible apply kept_powerWait | with_reducible apply kept_starve
    | with_reducible apply kept_faultSession | with_reducible apply kept_updateCredit | with_reducible apply kept_startPull
    | with_reducible refine kept_of_ok (by assumption) ?_ | split | dsimp only | with_reducible exact Kept.refl _

theorem kept_testAll {x0 : Moment} {x1 : State} (h1 : Kept s0 x1) : Kept s0 (testAll x0 x1).2 := by
  unfold testAll
  repeat' first
    | with_reducible assumption | intro _ | (simp only [kept_mk]; with_reducible apply keptC_upd)
    | with_reducible apply kept_testSession | with_reducible apply kept_settleQueues | with_reducible apply kept_foldl
    | with_reducible apply kept_foldl_snd | with_reducible apply kept_foldl_fst | with_reducible apply keptO_foldl
    | with_reducible apply keptP_foldl | with_reducible apply keptE_foldl | with_reducible apply keptEP_foldl | split
    | dsimp only | with_reducible exact Kept.refl _

theorem kept_twinStop {x0 : Session} {x1 : State} (h1 : Kept s0 x1) : Kept s0 (twinStop x0 x1) := by
  unfold twinStop
  repeat' first
    | with_reducible assumption | with_reducible apply kept_mirror | dsimp only | with_reducible exact Kept.refl _

theorem kept_stopAtGrant {x0 : Nat} {x1 : Nat} {x2 : State} (h2 : Kept s0 x2) : Kept s0 (stopAtGrant x0 x1 x2) := by
  unfold stopAtGrant
  repeat' first
    | with_reducible assumption | (simp only [kept_mk]; with_reducible apply keptC_upd) | with_reducible apply kept_twinStop
    | with_reducible apply kept_stopSession | split | dsimp only | with_reducible exact Kept.refl _

theorem kept_takePage {x0 : Moment} {x1 : Nat} {x2 : Session} {x3 : Nat} {x4 : Nat} {x5 : State} (h5 : Kept s0 x5) : KeptE s0 (takePage x0 x1 x2 x3 x4 x5) := by
  unfold takePage
  repeat' first
    | with_reducible assumption | intro _ | (simp only [kept_mk]; with_reducible apply keptC_upd)
    | with_reducible apply kept_reply_ok | with_reducible apply kept_reply_err | with_reducible apply kept_reply_wait
    | with_reducible apply kept_ite_st | with_reducible apply kept_cowCopy | with_reducible apply kept_takeSegs
    | with_reducible apply kept_setPte | with_reducible apply kept_grabFrame | with_reducible apply keptE_ok
    | with_reducible apply keptE_pure | with_reducible apply keptE_error | with_reducible apply keptE_ite
    | with_reducible apply keptE_map | with_reducible apply keptE_foldlM | with_reducible apply keptE_ebind
    | with_reducible apply keptE_ebindP | with_reducible apply keptE_bind | with_reducible apply kept_ite
    | with_reducible refine kept_of_ok (by assumption) ?_ | with_reducible refine kept_of_okP (by assumption) ?_ | split
    | dsimp only | with_reducible exact Kept.refl _

theorem kept_takePages {x0 : Moment} {x1 : Session} {x2 : Want} {x3 : State} (h3 : Kept s0 x3) : KeptE s0 (takePages x0 x1 x2 x3) := by
  unfold takePages
  repeat' first
    | with_reducible assumption | intro _ | (simp only [kept_mk]; with_reducible apply keptC_upd)
    | with_reducible apply kept_reply_ok | with_reducible apply kept_reply_err | with_reducible apply kept_reply_wait
    | with_reducible apply kept_ite_st | with_reducible apply kept_takePage | with_reducible apply keptE_ok
    | with_reducible apply keptE_pure | with_reducible apply keptE_error | with_reducible apply keptE_ite
    | with_reducible apply keptE_map | with_reducible apply keptE_foldlM | with_reducible apply keptE_ebind
    | with_reducible apply keptE_ebindP | with_reducible apply keptE_bind | with_reducible apply kept_foldl
    | with_reducible apply kept_foldl_snd | with_reducible apply kept_foldl_fst | with_reducible apply keptO_foldl
    | with_reducible apply keptP_foldl | with_reducible apply keptE_foldl | with_reducible apply keptEP_foldl | split
    | dsimp only | with_reducible exact Kept.refl _

theorem kept_twinGranted {x0 : Session} {x1 : Want} {x2 : State} (h2 : Kept s0 x2) : Kept s0 (twinGranted x0 x1 x2) := by
  unfold twinGranted
  repeat' first
    | with_reducible assumption | intro _ | (simp only [kept_mk]; with_reducible apply keptC_upd)
    | with_reducible apply kept_sendSwl | with_reducible apply kept_ite | split | dsimp only | with_reducible exact Kept.refl _

theorem kept_grantItem {x0 : Moment} {x1 : Nat} {x2 : Want} {x3 : State} (h3 : Kept s0 x3) : Kept s0 (grantItem x0 x1 x2 x3).2 := by
  unfold grantItem
  repeat' first
    | with_reducible assumption | intro _ | (simp only [kept_mk]; with_reducible apply keptC_upd)
    | with_reducible apply kept_reply_ok | with_reducible apply kept_reply_err | with_reducible apply kept_reply_wait
    | with_reducible apply kept_ite_st | with_reducible apply kept_bump | with_reducible apply kept_twinGranted
    | with_reducible apply kept_gaugeGrant | with_reducible apply kept_chargeGrant | with_reducible apply kept_takePages
    | with_reducible apply kept_pageWait | with_reducible apply kept_growJournal | with_reducible apply kept_modSess
    | with_reducible apply kept_formNext | with_reducible apply kept_starve | with_reducible apply kept_stopAtGrant
    | with_reducible apply kept_reserveRecs | with_reducible apply kept_countGrant | with_reducible apply kept_ite
    | with_reducible apply kept_ite_snd | with_reducible apply kept_getD
    | with_reducible refine kept_of_ok (by assumption) ?_ | with_reducible refine kept_of_snd (by assumption) ?_ | split
    | dsimp only | with_reducible exact Kept.refl _

theorem kept_grantItems {x0 : Moment} {x1 : Nat} {x2 : List Want} {x3 : State} (h3 : Kept s0 x3) : Kept s0 (grantItems x0 x1 x2 x3).2 := by
  unfold grantItems
  repeat' first
    | with_reducible assumption | intro _ | (simp only [kept_mk]; with_reducible apply keptC_upd)
    | with_reducible apply kept_grantItem | with_reducible apply kept_foldl | with_reducible apply kept_foldl_snd
    | with_reducible apply kept_foldl_fst | with_reducible refine kept_of_snd (by assumption) ?_ | split | dsimp only
    | with_reducible exact Kept.refl _

theorem kept_dispatch {x0 : Moment} {x1 : Nat × Nat × Bool} {x2 : Fill} {x3 : State} (h3 : Kept s0 x3) : Kept s0 (dispatch x0 x1 x2 x3) := by
  unfold dispatch
  repeat' first
    | with_reducible assumption | intro _ | (simp only [kept_mk]; with_reducible apply keptC_upd)
    | with_reducible apply kept_grantItems | with_reducible apply kept_bump | with_reducible apply kept_State_at
    | with_reducible apply kept_ite | with_reducible refine kept_of_snd (by assumption) ?_ | split | dsimp only
    | with_reducible exact Kept.refl _

theorem kept_countHolds {x0 : Nat} {x1 : Nat} {x2 : List Tested} {x3 : State} (h3 : Kept s0 x3) : Kept s0 (countHolds x0 x1 x2 x3) := by
  unfold countHolds
  repeat' first
    | with_reducible assumption | intro _ | with_reducible apply kept_bump | dsimp only | with_reducible exact Kept.refl _

theorem kept_formBatch {x0 : Moment} {x1 : State} (h1 : Kept s0 x1) : Kept s0 (formBatch x0 x1) := by
  unfold formBatch
  repeat' first
    | with_reducible assumption | intro _ | (simp only [kept_mk]; with_reducible apply keptC_upd)
    | with_reducible apply kept_testAll | with_reducible apply kept_stopAtGrant | with_reducible apply kept_dispatch
    | with_reducible apply kept_countHolds | with_reducible apply kept_ite | with_reducible apply kept_foldl
    | with_reducible apply kept_foldl_snd | with_reducible apply kept_foldl_fst
    | with_reducible refine kept_of_snd (by assumption) ?_ | split | dsimp only | with_reducible exact Kept.refl _

theorem kept_execBatchDispatch {x0 : Moment} {x1 : State} (h1 : Kept s0 x1) : KeptOut s0 (execBatchDispatch x0 x1) := by
  unfold execBatchDispatch
  repeat' first
    | with_reducible assumption | intro _ | with_reducible apply keptOut_next | with_reducible apply keptOut_ite
    | with_reducible apply kept_State_at | with_reducible apply kept_settleAll | with_reducible apply kept_formBatch
    | with_reducible apply kept_ite | dsimp only | with_reducible exact Kept.refl _

theorem kept_execBatchWaitExpiry {x0 : Moment} {x1 : State} (h1 : Kept s0 x1) : KeptOut s0 (execBatchWaitExpiry x0 x1) := by
  unfold execBatchWaitExpiry
  repeat' first
    | with_reducible assumption | intro _ | with_reducible apply keptOut_next | with_reducible apply keptOut_ite
    | with_reducible apply kept_State_at | with_reducible apply kept_settleAll | with_reducible apply kept_formBatch
    | with_reducible apply kept_ite | dsimp only | with_reducible exact Kept.refl _

end Sys2Proof.Machine
end

