-- ==== Sys2Proof/Laws/KeptTwinSteps.lean ====
section
/-! SUPPORT. What the definitions of Sys2Proof/Machine/TwinSteps.lean keep. -/

set_option linter.unusedSimpArgs false

namespace Sys2Proof.Machine

variable {s0 : State}

theorem kept_modPair {x0 : Nat} {x1 : Pair → Pair} {x2 : State} (h2 : Kept s0 x2) : Kept s0 (modPair x0 x1 x2) := by
  unfold modPair
  repeat' first
    | with_reducible assumption | (simp only [kept_mk]; with_reducible apply keptC_upd) | dsimp only
    | with_reducible exact Kept.refl _

theorem kept_dropStep {x0 : Nat} {x1 : State} (h1 : Kept s0 x1) : Kept s0 (dropStep x0 x1) := by
  unfold dropStep
  repeat' first
    | with_reducible assumption | (simp only [kept_mk]; with_reducible apply keptC_upd) | dsimp only
    | with_reducible exact Kept.refl _

theorem kept_releaseStep {x0 : Nat} {x1 : State} (h1 : Kept s0 x1) : Kept s0 (releaseStep x0 x1) := by
  unfold releaseStep
  repeat' first
    | with_reducible assumption | intro _ | (simp only [kept_mk]; with_reducible apply keptC_upd)
    | with_reducible apply kept_ite | dsimp only | with_reducible exact Kept.refl _

theorem kept_twinFault {x0 : Nat} {x1 : Nat} {x2 : State} (h2 : Kept s0 x2) : Kept s0 (twinFault x0 x1 x2) := by
  unfold twinFault
  repeat' first
    | with_reducible assumption | intro _ | with_reducible apply kept_faultSession | with_reducible apply kept_discardHeld
    | with_reducible apply kept_dropStep | with_reducible apply kept_foldl | with_reducible apply kept_foldl_snd
    | with_reducible apply kept_foldl_fst | dsimp only | with_reducible exact Kept.refl _

theorem kept_twinCompare {x0 : Nat} {x1 : Nat} {x2 : Nat} {x3 : State} (h3 : Kept s0 x3) : Kept s0 (twinCompare x0 x1 x2 x3) := by
  induction x2 generalizing x0 x1 x3 with
  | zero =>
    unfold twinCompare
    repeat' first
      | with_reducible assumption | intro _ | (simp only [kept_mk]; with_reducible apply keptC_upd)
      | with_reducible apply kept_twinFault | with_reducible apply kept_modPair | with_reducible apply kept_bump
      | with_reducible apply kept_note | with_reducible apply kept_releaseStep | with_reducible apply kept_dropStep
      | with_reducible apply kept_ite | split | dsimp only | with_reducible exact Kept.refl _
  | succ n ih =>
    unfold twinCompare
    repeat' first
      | with_reducible apply ih
      | with_reducible assumption | intro _ | (simp only [kept_mk]; with_reducible apply keptC_upd)
      | with_reducible apply kept_twinFault | with_reducible apply kept_modPair | with_reducible apply kept_bump
      | with_reducible apply kept_note | with_reducible apply kept_releaseStep | with_reducible apply kept_dropStep
      | with_reducible apply kept_ite | split | dsimp only | with_reducible exact Kept.refl _

theorem kept_twinFormed {x0 : Nat} {x1 : Nat} {x2 : Nat} {x3 : Nat} {x4 : State} (h4 : Kept s0 x4) : Kept s0 (twinFormed x0 x1 x2 x3 x4) := by
  unfold twinFormed
  repeat' first
    | with_reducible assumption | intro _ | (simp only [kept_mk]; with_reducible apply keptC_upd)
    | with_reducible apply kept_sendSwl | with_reducible apply kept_twinCompare | with_reducible apply kept_ite | split
    | dsimp only | with_reducible exact Kept.refl _

theorem kept_rowDigest {x0 : Invocation} {x1 : Nat} {x2 : InvRow} {x3 : State} (h3 : Kept s0 x3) : Kept s0 (rowDigest x0 x1 x2 x3) := by
  unfold rowDigest
  repeat' first
    | with_reducible assumption | intro _
    | (simp only [kept_mk]; first | with_reducible apply keptC_upd | refine keptC_updHmk ?_ (by first | exact Nat.le_refl _ | exact Nat.le_add_right _ _ | omega) (by exact Nat.le_refl _) (by rfl))
    | with_reducible apply kept_twinFormed | with_reducible apply kept_ite | split | dsimp only
    | with_reducible exact Kept.refl _

end Sys2Proof.Machine
end

