-- ==== Sys2Proof/Laws/KeptRuns.lean ====
section
/-! SUPPORT. What the definitions of Sys2Proof/Machine/Runs.lean keep. -/

set_option linter.unusedSimpArgs false

namespace Sys2Proof.Machine

variable {s0 : State}

theorem kept_invResident {x0 : Nat} {x1 : State} (h1 : Kept s0 x1) : Kept s0 (invResident x0 x1) := by
  unfold invResident
  repeat' first
    | with_reducible assumption | intro _ | (simp only [kept_mk]; with_reducible apply keptC_upd)
    | with_reducible apply kept_ite | split | dsimp only | with_reducible exact Kept.refl _

theorem kept_execInvocationResident {x0 : Moment} {x1 : Nat} {x2 : State} (h2 : Kept s0 x2) : KeptOut s0 (execInvocationResident x0 x1 x2) := by
  unfold execInvocationResident
  repeat' first
    | with_reducible assumption | with_reducible apply keptOut_next | with_reducible apply kept_invResident
    | with_reducible apply kept_State_at | dsimp only | with_reducible exact Kept.refl _

theorem kept_paceStall {x0 : Nat} {x1 : Invocation} {x2 : State} (h2 : Kept s0 x2) : Kept s0 (paceStall x0 x1 x2) := by
  unfold paceStall
  repeat' first
    | with_reducible assumption | intro _ | (simp only [kept_mk]; with_reducible apply keptC_upd)
    | with_reducible apply kept_bump | with_reducible apply kept_modInv | with_reducible apply kept_ite | dsimp only
    | with_reducible exact Kept.refl _

theorem kept_streamFirst {x0 : Nat} {x1 : Invocation} {x2 : State} (h2 : Kept s0 x2) : Kept s0 (streamFirst x0 x1 x2) := by
  unfold streamFirst
  repeat' first
    | with_reducible assumption | intro _ | (simp only [kept_mk]; with_reducible apply keptC_upd)
    | with_reducible apply kept_foldl | with_reducible apply kept_foldl_snd | with_reducible apply kept_foldl_fst
    | with_reducible apply keptO_foldl | with_reducible apply keptP_foldl | with_reducible apply keptE_foldl
    | with_reducible apply keptEP_foldl | split | dsimp only | with_reducible exact Kept.refl _

theorem kept_runGroup {x0 : Nat} {x1 : Invocation} {x2 : List AttIn} {x3 : List LayerOp} {x4 : State} (h4 : Kept s0 x4) : Kept s0 (runGroup x0 x1 x2 x3 x4) := by
  unfold runGroup
  repeat' first
    | with_reducible assumption | intro _ | (simp only [kept_mk]; with_reducible apply keptC_upd)
    | with_reducible apply kept_rowDigest | with_reducible apply kept_attGroup | with_reducible apply kept_modInv
    | with_reducible apply kept_streamFirst | with_reducible apply kept_layerOp | with_reducible apply kept_foldl
    | with_reducible apply kept_foldl_snd | with_reducible apply kept_foldl_fst | with_reducible apply keptO_foldl
    | with_reducible apply keptP_foldl | with_reducible apply keptE_foldl | with_reducible apply keptEP_foldl | split
    | dsimp only | with_reducible exact Kept.refl _

theorem kept_tileBoundary {x0 : Nat} {x1 : State} (h1 : Kept s0 x1) : Kept s0 (tileBoundary x0 x1) := by
  unfold tileBoundary
  repeat' first
    | with_reducible assumption | intro _ | (simp only [kept_mk]; with_reducible apply keptC_upd)
    | with_reducible apply kept_lateFrames | with_reducible apply kept_ite | split | dsimp only
    | with_reducible exact Kept.refl _

theorem kept_startGroup {x0 : Moment} {x1 : Nat} {x2 : List AttIn} {x3 : List LayerOp} {x4 : Option Nat} {x5 : State} (h5 : Kept s0 x5) : Kept s0 (startGroup x0 x1 x2 x3 x4 x5) := by
  unfold startGroup
  repeat' first
    | with_reducible assumption | intro _ | (simp only [kept_mk]; with_reducible apply keptC_upd)
    | with_reducible apply kept_runGroup | with_reducible apply kept_paceStall | with_reducible apply kept_invFault
    | with_reducible apply kept_ite | with_reducible apply kept_foldl | with_reducible apply kept_foldl_snd
    | with_reducible apply kept_foldl_fst | with_reducible apply keptO_foldl | with_reducible apply keptP_foldl
    | with_reducible apply keptE_foldl | with_reducible apply keptEP_foldl | split | dsimp only
    | with_reducible exact Kept.refl _

theorem kept_layerGroupStart {x0 : Moment} {x1 : Nat} {x2 : List AttIn} {x3 : List LayerOp} {x4 : Option Nat} {x5 : State} (h5 : Kept s0 x5) : Kept s0 (layerGroupStart x0 x1 x2 x3 x4 x5) := by
  unfold layerGroupStart
  repeat' first
    | with_reducible assumption | intro _ | (simp only [kept_mk]; with_reducible apply keptC_upd)
    | with_reducible apply kept_startGroup | with_reducible apply kept_tileBoundary | with_reducible apply kept_ite | split
    | dsimp only | with_reducible exact Kept.refl _

theorem kept_execLayerGroupStart {x0 : Moment} {x1 : Nat} {x2 : List AttIn} {x3 : List LayerOp} {x4 : Option Nat} {x5 : State} (h5 : Kept s0 x5) : KeptOut s0 (execLayerGroupStart x0 x1 x2 x3 x4 x5) := by
  unfold execLayerGroupStart
  repeat' first
    | with_reducible assumption | intro _ | (simp only [kept_mk]; with_reducible apply keptC_upd)
    | with_reducible apply keptOut_next | with_reducible apply keptOut_ite | with_reducible apply kept_settleAll
    | with_reducible apply kept_layerGroupStart | with_reducible apply kept_State_at | split | dsimp only
    | with_reducible exact Kept.refl _

theorem kept_tileWatchdog {x0 : Nat} {x1 : State} (h1 : Kept s0 x1) : Kept s0 (tileWatchdog x0 x1) := by
  unfold tileWatchdog
  repeat' first
    | with_reducible assumption | intro _ | (simp only [kept_mk]; with_reducible apply keptC_upd)
    | with_reducible apply kept_invFault | with_reducible apply kept_ite | split | dsimp only | with_reducible exact Kept.refl _

theorem kept_execTileWatchdogExpiry {x0 : Moment} {x1 : Nat} {x2 : State} (h2 : Kept s0 x2) : KeptOut s0 (execTileWatchdogExpiry x0 x1 x2) := by
  unfold execTileWatchdogExpiry
  repeat' first
    | with_reducible assumption | with_reducible apply keptOut_next | with_reducible apply kept_settleAll
    | with_reducible apply kept_tileWatchdog | with_reducible apply kept_State_at | dsimp only
    | with_reducible exact Kept.refl _

end Sys2Proof.Machine
end

