-- ==== Sys2Proof/Laws/KeptCommit.lean ====
section
/-! SUPPORT. What the definitions of Sys2Proof/Machine/Commit.lean keep. -/

set_option linter.unusedSimpArgs false

namespace Sys2Proof.Machine

variable {s0 : State}

theorem kept_noteNan {x0 : Session} {x1 : Nat} {x2 : Nat} {x3 : State} (h3 : Kept s0 x3) : Kept s0 (noteNan x0 x1 x2 x3) := by
  unfold noteNan
  repeat' first
    | with_reducible assumption | intro _ | (simp only [kept_mk]; with_reducible apply keptC_upd)
    | with_reducible apply kept_bump | with_reducible apply kept_noteSess | with_reducible apply kept_ite | split | dsimp only
    | with_reducible exact Kept.refl _

theorem kept_commitPos {x0 : Nat} {x1 : Tok} {x2 : State} (h2 : Kept s0 x2) : Kept s0 (commitPos x0 x1 x2) := by
  unfold commitPos
  repeat' first
    | with_reducible assumption | intro _ | (simp only [kept_mk]; with_reducible apply keptC_upd)
    | with_reducible apply kept_modSess | with_reducible apply kept_modStore | with_reducible apply kept_journal
    | with_reducible apply kept_ite | dsimp only | with_reducible exact Kept.refl _

theorem kept_commitGrammar {x0 : Session} {x1 : Tok} {x2 : State} (h2 : Kept s0 x2) : Kept s0 (commitGrammar x0 x1 x2).2 := by
  unfold commitGrammar
  repeat' first
    | with_reducible assumption | (simp only [kept_mk]; with_reducible apply keptC_upd) | with_reducible apply kept_setGstate
    | with_reducible apply kept_step | split | dsimp only | with_reducible exact Kept.refl _

theorem kept_commitCharge {x0 : Session} {x1 : Tok} {x2 : State} (h2 : Kept s0 x2) : Kept s0 (commitCharge x0 x1 x2) := by
  unfold commitCharge
  repeat' first
    | with_reducible assumption | intro _ | (simp only [kept_mk]; with_reducible apply keptC_upd)
    | with_reducible apply kept_post | with_reducible apply kept_modSess | with_reducible apply kept_ite | dsimp only
    | with_reducible exact Kept.refl _

theorem kept_commitTok {x0 : Nat} {x1 : Tok} {x2 : State} (h2 : Kept s0 x2) : Kept s0 (commitTok x0 x1 x2).2.2 := by
  unfold commitTok
  repeat' first
    | with_reducible assumption | intro _ | (simp only [kept_mk]; with_reducible apply keptC_upd)
    | with_reducible apply kept_bump | with_reducible apply kept_bumpFree | with_reducible apply kept_modSess
    | with_reducible apply kept_modStore | with_reducible apply kept_commitPos | with_reducible apply kept_commitCharge
    | with_reducible apply kept_commitGrammar | with_reducible apply kept_ite | with_reducible apply kept_ite_snd
    | with_reducible refine kept_of_snd (by assumption) ?_ | with_reducible apply keptE_ebind
    | with_reducible apply keptE_ebindP | with_reducible apply keptEP_ebind | with_reducible apply keptEP_ebindP | split
    | dsimp only | with_reducible exact Kept.refl _

theorem kept_commitToks {x0 : Nat} {x1 : List Tok} {x2 : Done} (h2 : Kept s0 x2.st) : Kept s0 (commitToks x0 x1 x2).st := by
  induction x1 generalizing x2 with
  | nil => exact h2
  | cons t ts ih =>
    have h : Kept s0 (commitTok x0 t x2.st).2.2 := kept_commitTok h2
    unfold commitToks
    dsimp only
    split
    · exact h
    · exact ih h

theorem kept_postDrafts {x0 : Session} {x1 : Nat} {x2 : Nat} {x3 : State} (h3 : Kept s0 x3) : Kept s0 (postDrafts x0 x1 x2 x3) := by
  unfold postDrafts
  repeat' first
    | with_reducible assumption | intro _ | with_reducible apply kept_bump | with_reducible apply kept_post
    | with_reducible apply kept_ite | dsimp only | with_reducible exact Kept.refl _

theorem kept_trimPages {x0 : Nat} {x1 : State} (h1 : Kept s0 x1) : Kept s0 (trimPages x0 x1) := by
  unfold trimPages
  repeat' first
    | with_reducible assumption | intro _ | (simp only [kept_mk]; with_reducible apply keptC_upd)
    | with_reducible apply kept_dropPte | with_reducible apply kept_modStore | with_reducible apply kept_ite
    | with_reducible apply kept_foldl | with_reducible apply kept_foldl_snd | with_reducible apply kept_foldl_fst | split
    | dsimp only | with_reducible exact Kept.refl _

theorem kept_measureStep {x0 : Session} {x1 : Bool} {x2 : Nat} {x3 : State} (h3 : Kept s0 x3) : Kept s0 (measureStep x0 x1 x2 x3) := by
  unfold measureStep
  repeat' first
    | with_reducible assumption | intro _ | (simp only [kept_mk]; with_reducible apply keptC_upd)
    | with_reducible apply kept_modSess | with_reducible apply kept_gaugeTtft | with_reducible apply kept_gaugeGap
    | with_reducible apply kept_ite | split | dsimp only | with_reducible exact Kept.refl _

theorem kept_chooseToks {x0 : Session} {x1 : Nat} {x2 : Nat} {x3 : RowIn} {x4 : State} (h4 : Kept s0 x4) : Kept s0 (chooseToks x0 x1 x2 x3 x4).2 := by
  unfold chooseToks
  repeat' first
    | with_reducible assumption | intro _
    | (simp only [kept_mk]; first | with_reducible apply keptC_upd | with_reducible apply keptC_clear | refine keptC_updHmk ?_ (by first | exact Nat.le_refl _ | exact Nat.le_add_right _ _ | omega) (by exact Nat.le_refl _) (by rfl))
    | with_reducible apply kept_bump | with_reducible apply kept_bumpFree | with_reducible apply kept_noteNan
    | with_reducible apply kept_formSets | with_reducible apply keptO_some | with_reducible apply keptO_none
    | with_reducible apply keptO_ite | with_reducible apply keptO_obindS | with_reducible apply keptO_obind
    | with_reducible apply keptO_map | with_reducible apply keptO_bind | with_reducible apply kept_foldl
    | with_reducible apply kept_foldl_snd | with_reducible apply kept_foldl_fst | with_reducible apply keptO_foldl
    | with_reducible apply keptP_foldl | with_reducible apply keptE_foldl | with_reducible apply keptEP_foldl
    | with_reducible apply kept_getD | with_reducible exact kept_of_hypO ‹_› | with_reducible exact kept_of_hypP ‹_›
    | with_reducible exact kept_of_hypE ‹_› | with_reducible exact kept_of_hypEP ‹_›
    | with_reducible refine kept_of_some (by assumption) ?_ | with_reducible refine kept_of_someP (by assumption) ?_
    | with_reducible refine kept_of_ok (by assumption) ?_ | with_reducible refine kept_of_okP (by assumption) ?_
    | with_reducible refine kept_of_error (by assumption) ?_ | with_reducible refine kept_of_snd (by assumption) ?_
    | with_reducible refine kept_of_fst (by assumption) ?_ | with_reducible refine kept_of_snd2 (by assumption) ?_
    | with_reducible refine kept_of_snd3 (by assumption) ?_ | split | dsimp only | with_reducible exact Kept.refl _

theorem kept_stepToks {x0 : Session} {x1 : Chosen} {x2 : State} (h2 : Kept s0 x2) : Kept s0 (stepToks x0 x1 x2).2 := by
  unfold stepToks
  repeat' first
    | with_reducible assumption | intro _ | (simp only [kept_mk]; with_reducible apply keptC_upd)
    | with_reducible apply kept_noteSess | with_reducible apply kept_bump | with_reducible apply kept_ite
    | with_reducible apply kept_ite_snd | split | dsimp only | with_reducible exact Kept.refl _

theorem kept_endStep {x0 : Nat} {x1 : Nat} {x2 : Nat} {x3 : Nat} {x4 : RowIn} {x5 : State} (h5 : Kept s0 x5) : Kept s0 (endStep x0 x1 x2 x3 x4 x5) := by
  unfold endStep
  repeat' first
    | with_reducible assumption | intro _ | (simp only [kept_mk]; with_reducible apply keptC_upd)
    | with_reducible apply kept_bump | with_reducible apply kept_twinFormed | with_reducible apply kept_postDrafts
    | with_reducible apply kept_modSess | with_reducible apply kept_modStore | with_reducible apply kept_formNext
    | with_reducible apply kept_stepToks | with_reducible apply kept_commitToks | with_reducible apply kept_updateCredit
    | with_reducible apply kept_chooseToks | with_reducible apply kept_measureStep | with_reducible apply kept_deliver
    | with_reducible apply kept_stopSession | with_reducible apply kept_trimPages | with_reducible apply kept_ite
    | with_reducible refine kept_of_snd (by assumption) ?_ | split | dsimp only | with_reducible exact Kept.refl _

theorem kept_itemDone {x0 : Nat} {x1 : Nat} {x2 : State} (h2 : Kept s0 x2) : Kept s0 (itemDone x0 x1 x2) := by
  unfold itemDone
  repeat' first
    | with_reducible assumption | intro _ | (simp only [kept_mk]; with_reducible apply keptC_upd)
    | with_reducible apply kept_bump | with_reducible apply kept_setModel | with_reducible apply kept_dropInv
    | with_reducible apply kept_modInv | with_reducible apply kept_ite | split | dsimp only | with_reducible exact Kept.refl _

theorem kept_invEmpty {x0 : Nat} {x1 : State} (h1 : Kept s0 x1) : Kept s0 (invEmpty x0 x1) := by
  unfold invEmpty
  repeat' first
    | with_reducible assumption | intro _ | (simp only [kept_mk]; with_reducible apply keptC_upd)
    | with_reducible apply kept_itemDone | with_reducible apply kept_ite | split | dsimp only | with_reducible exact Kept.refl _

theorem kept_commitRow {x0 : Nat} {x1 : List RowIn} {x2 : InvRow} {x3 : State} (h3 : Kept s0 x3) : Kept s0 (commitRow x0 x1 x2 x3) := by
  unfold commitRow
  repeat' first
    | with_reducible assumption | intro _ | (simp only [kept_mk]; with_reducible apply keptC_upd)
    | with_reducible apply kept_itemDone | with_reducible apply kept_endStep | with_reducible apply kept_ite
    | with_reducible apply kept_getD | split | dsimp only | with_reducible exact Kept.refl _

theorem kept_stepCommit {x0 : Nat} {x1 : List RowIn} {x2 : State} (h2 : Kept s0 x2) : Kept s0 (stepCommit x0 x1 x2) := by
  unfold stepCommit
  repeat' first
    | with_reducible assumption | intro _ | (simp only [kept_mk]; with_reducible apply keptC_upd)
    | with_reducible apply kept_invEmpty | with_reducible apply kept_commitRow | with_reducible apply kept_foldl
    | with_reducible apply kept_foldl_snd | split | dsimp only | with_reducible exact Kept.refl _

theorem kept_execStepCommit {x0 : Moment} {x1 : Nat} {x2 : List RowIn} {x3 : State} (h3 : Kept s0 x3) : KeptOut s0 (execStepCommit x0 x1 x2 x3) := by
  unfold execStepCommit
  repeat' first
    | with_reducible assumption | with_reducible apply keptOut_next | with_reducible apply kept_settleAll
    | with_reducible apply kept_stepCommit | with_reducible apply kept_State_at | dsimp only | with_reducible exact Kept.refl _

theorem kept_endRebuild {x0 : Nat} {x1 : InvRow} {x2 : State} (h2 : Kept s0 x2) : Kept s0 (endRebuild x0 x1 x2) := by
  unfold endRebuild
  repeat' first
    | with_reducible assumption | intro _ | (simp only [kept_mk]; with_reducible apply keptC_upd)
    | with_reducible apply kept_modSess | with_reducible apply kept_pagesAdvance | with_reducible apply kept_pageRecovered
    | with_reducible apply kept_ite | with_reducible apply kept_foldl | with_reducible apply kept_foldl_snd
    | with_reducible apply kept_foldl_fst | split | dsimp only | with_reducible exact Kept.refl _

theorem kept_endChunk {x0 : Nat} {x1 : InvRow} {x2 : InFlight} {x3 : RowIn} {x4 : State} (h4 : Kept s0 x4) : Kept s0 (endChunk x0 x1 x2 x3 x4) := by
  unfold endChunk
  repeat' first
    | with_reducible assumption | intro _ | (simp only [kept_mk]; with_reducible apply keptC_upd)
    | with_reducible apply kept_modSess | with_reducible apply kept_twinFormed | with_reducible apply kept_setState
    | with_reducible apply kept_stopSession | with_reducible apply kept_endStep | with_reducible apply kept_ite | split
    | dsimp only | with_reducible exact Kept.refl _

theorem kept_prefillChunkEnd {x0 : Nat} {x1 : RowIn} {x2 : State} (h2 : Kept s0 x2) : Kept s0 (prefillChunkEnd x0 x1 x2) := by
  unfold prefillChunkEnd
  repeat' first
    | with_reducible assumption | intro _ | (simp only [kept_mk]; with_reducible apply keptC_upd)
    | with_reducible apply kept_itemDone | with_reducible apply kept_endRebuild | with_reducible apply kept_endChunk
    | with_reducible apply kept_invEmpty | with_reducible apply kept_ite | split | dsimp only | with_reducible exact Kept.refl _

theorem kept_execPrefillChunkEnd {x0 : Moment} {x1 : Nat} {x2 : RowIn} {x3 : State} (h3 : Kept s0 x3) : KeptOut s0 (execPrefillChunkEnd x0 x1 x2 x3) := by
  unfold execPrefillChunkEnd
  repeat' first
    | with_reducible assumption | with_reducible apply keptOut_next | with_reducible apply kept_settleAll
    | with_reducible apply kept_prefillChunkEnd | with_reducible apply kept_State_at | dsimp only
    | with_reducible exact Kept.refl _

end Sys2Proof.Machine
end

