-- ==== Sys2Proof/Laws/KeptTouchstone.lean ====
section
/-! SUPPORT. What the definitions of Sys2Proof/Machine/Touchstone.lean keep. -/

set_option linter.unusedSimpArgs false

namespace Sys2Proof.Machine

variable {s0 : State}

theorem kept_setIndex {x0 : Nat} {x1 : Index} {x2 : State} (h2 : Kept s0 x2) : Kept s0 (setIndex x0 x1 x2) := by
  unfold setIndex
  repeat' first
    | with_reducible assumption | (simp only [kept_mk]; with_reducible apply keptC_upd) | dsimp only
    | with_reducible exact Kept.refl _

theorem kept_countSearch {x0 : Nat} {x1 : SearchFound} {x2 : State} (h2 : Kept s0 x2) : Kept s0 (countSearch x0 x1 x2) := by
  unfold countSearch
  repeat' first
    | with_reducible assumption | with_reducible apply kept_bump | dsimp only | with_reducible exact Kept.refl _

theorem kept_beginOn {x0 : Nat} {x1 : Nat} {x2 : Index} {x3 : State} (h3 : Kept s0 x3) : Kept s0 (beginOn x0 x1 x2 x3) := by
  unfold beginOn
  repeat' first
    | with_reducible assumption | (simp only [kept_mk]; with_reducible apply keptC_upd) | with_reducible apply kept_setIndex
    | dsimp only | with_reducible exact Kept.refl _

theorem kept_runShard {x0 : Nat} {x1 : Index} {x2 : List Nat} {x3 : Nat} {x4 : Nat} {x5 : Nat} {x6 : Nat} {x7 : Nat} {x8 : State} (h8 : Kept s0 x8) : Kept s0 (runShard x0 x1 x2 x3 x4 x5 x6 x7 x8).2 := by
  unfold runShard
  repeat' first
    | with_reducible assumption | intro _ | with_reducible apply kept_countSearch | with_reducible apply kept_beginOn
    | with_reducible apply kept_foldl | with_reducible apply kept_foldl_snd | with_reducible apply kept_getD
    | with_reducible apply kept_foldl_fst | split | dsimp only | with_reducible exact Kept.refl _

theorem kept_onIndex {x0 : OpInfo} {x1 : Req} {x2 : State} {x3 : Nat → Index → Reply} (h2 : Kept s0 x2) (h3 : ∀ y0 y1, Kept s0 (x3 y0 y1).st) : Kept s0 (onIndex x0 x1 x2 x3).st := by
  unfold onIndex
  repeat' first
    | with_reducible assumption | intro _ | with_reducible apply h3 | (simp only [kept_mk]; with_reducible apply keptC_upd)
    | with_reducible apply kept_reply_ok | with_reducible apply kept_reply_err | with_reducible apply kept_ite_st
    | with_reducible apply kept_ite | split | dsimp only | with_reducible exact Kept.refl _

theorem kept_endReply {x0 : Nat} {x1 : Reply} (h1 : Kept s0 x1.st) : Kept s0 (endReply x0 x1) := by
  unfold endReply
  repeat' first
    | with_reducible assumption | with_reducible apply kept_endOp | dsimp only | with_reducible exact Kept.refl _

theorem kept_replyAfter {x0 : Req} {x1 : Nat} {x2 : Bytes} {x3 : Bytes} {x4 : State} (h4 : Kept s0 x4) : Kept s0 (replyAfter x0 x1 x2 x3 x4).st := by
  unfold replyAfter
  repeat' first
    | with_reducible assumption | intro _ | (simp only [kept_mk]; with_reducible apply keptC_upd)
    | with_reducible apply kept_reply_ok | with_reducible apply kept_reply_err | with_reducible apply kept_ite_st
    | with_reducible apply kept_sgWrite | with_reducible apply kept_Reply_sg | with_reducible apply kept_ite
    | with_reducible apply keptO_ite | with_reducible exact kept_of_hypO ‹_› | with_reducible apply keptO_some
    | with_reducible apply keptO_none | with_reducible apply keptP_ite | with_reducible exact kept_of_hypP ‹_›
    | with_reducible apply keptP_some | with_reducible apply keptP_none | with_reducible apply keptE_ite
    | with_reducible exact kept_of_hypE ‹_› | with_reducible apply keptE_ok | with_reducible apply keptE_error
    | with_reducible apply keptEP_ite | with_reducible exact kept_of_hypEP ‹_› | with_reducible apply keptEP_ok
    | with_reducible apply keptEP_error | with_reducible apply keptEE_ite | with_reducible apply keptEE_ok
    | with_reducible apply keptEE_error | with_reducible refine kept_of_ok (by assumption) ?_
    | with_reducible refine kept_of_error (by assumption) ?_ | with_reducible refine kept_of_okP (by assumption) ?_
    | with_reducible refine kept_of_some (by assumption) ?_ | with_reducible refine kept_of_someP (by assumption) ?_
    | with_reducible refine kept_of_fst (by assumption) ?_ | with_reducible refine kept_of_snd (by assumption) ?_
    | with_reducible refine kept_of_snd2 (by assumption) ?_ | with_reducible refine kept_of_snd3 (by assumption) ?_
    | with_reducible refine keptP_of_snd (by assumption) ?_ | split | dsimp only | with_reducible exact Kept.refl _

theorem kept_bodyTchIndexCreate {x0 : Moment} {x1 : Req} {x2 : State} (h2 : Kept s0 x2) : Kept s0 (bodyTchIndexCreate x0 x1 x2).st := by
  unfold bodyTchIndexCreate
  repeat' first
    | with_reducible assumption | intro _ | with_reducible apply kept_reply_ok | with_reducible apply kept_reply_err
    | with_reducible apply kept_ite_st | with_reducible apply kept_withData | with_reducible apply kept_setIndex
    | with_reducible apply kept_ite | dsimp only | with_reducible exact Kept.refl _

theorem kept_execTchIndexCreate {x0 : Moment} {x1 : Req} {x2 : State} (h2 : Kept s0 x2) : KeptOut s0 (execTchIndexCreate x0 x1 x2) := by
  unfold execTchIndexCreate
  repeat' first
    | with_reducible assumption | with_reducible apply keptOut_next | with_reducible apply kept_runCommand
    | with_reducible apply kept_bodyTchIndexCreate | dsimp only | with_reducible exact Kept.refl _

theorem kept_bodyTchIndexDrop {x0 : Moment} {x1 : Req} {x2 : State} (h2 : Kept s0 x2) : Kept s0 (bodyTchIndexDrop x0 x1 x2).st := by
  unfold bodyTchIndexDrop
  repeat' first
    | with_reducible assumption | intro _ | (simp only [kept_mk]; with_reducible apply keptC_upd)
    | with_reducible apply kept_onIndex | with_reducible apply kept_asOp | with_reducible apply kept_setIndex | dsimp only
    | with_reducible exact Kept.refl _

theorem kept_execTchIndexDrop {x0 : Moment} {x1 : Req} {x2 : State} (h2 : Kept s0 x2) : KeptOut s0 (execTchIndexDrop x0 x1 x2) := by
  unfold execTchIndexDrop
  repeat' first
    | with_reducible assumption | with_reducible apply keptOut_next | with_reducible apply kept_runCommand
    | with_reducible apply kept_bodyTchIndexDrop | dsimp only | with_reducible exact Kept.refl _

theorem kept_dropInserts {x0 x1 : Nat} {x2 : State} (h2 : Kept s0 x2) : Kept s0 (dropInserts x0 x1 x2) := by
  unfold dropInserts
  repeat' first
    | with_reducible assumption | intro _ | (simp only [kept_mk]; with_reducible apply keptC_upd)
    | with_reducible apply kept_foldl | with_reducible apply kept_endOp | dsimp only
    | with_reducible exact Kept.refl _

theorem kept_endTchIndexDrop {x0 : Nat} {x1 : LongOp} {x2 : State} (h2 : Kept s0 x2) : Kept s0 (endTchIndexDrop x0 x1 x2) := by
  unfold endTchIndexDrop
  repeat' first
    | with_reducible assumption | intro _ | (simp only [kept_mk]; with_reducible apply keptC_upd)
    | with_reducible apply kept_endOp | with_reducible apply kept_dropInserts | with_reducible apply kept_ite
    | with_reducible apply kept_getD | dsimp only | with_reducible exact Kept.refl _

theorem kept_beginItem {x0 : Moment} {x1 : Nat} {x2 : Nat} {x3 : Nat} {x4 : Nat} {x5 : State} (h5 : Kept s0 x5) : KeptP s0 (beginItem x0 x1 x2 x3 x4 x5) := by
  unfold beginItem
  repeat' first
    | with_reducible assumption | intro _ | (simp only [kept_mk]; with_reducible apply keptC_upd)
    | with_reducible apply kept_countSearch | with_reducible apply kept_setIndex | with_reducible apply kept_ite
    | with_reducible apply keptP_ite | with_reducible exact kept_of_hypP ‹_› | with_reducible apply keptP_some
    | with_reducible apply keptP_none | with_reducible apply keptP_foldl | with_reducible apply kept_foldl
    | with_reducible apply kept_foldl_snd | split | dsimp only | with_reducible exact Kept.refl _

theorem kept_publishItem {x0 x1 : Nat} {x2 : State} (h2 : Kept s0 x2) : Kept s0 (publishItem x0 x1 x2) := by
  unfold publishItem
  repeat' first
    | with_reducible assumption | intro _ | (simp only [kept_mk]; with_reducible apply keptC_upd)
    | with_reducible apply kept_setIndex | split | dsimp only | with_reducible exact Kept.refl _

theorem kept_abandonItem {x0 x1 : Nat} {x2 : State} (h2 : Kept s0 x2) : Kept s0 (abandonItem x0 x1 x2) := by
  unfold abandonItem
  repeat' first
    | with_reducible assumption | intro _ | (simp only [kept_mk]; with_reducible apply keptC_upd)
    | with_reducible apply kept_note | with_reducible apply kept_bump | with_reducible apply kept_setIndex
    | with_reducible apply kept_ite | split | dsimp only | with_reducible exact Kept.refl _

theorem kept_insertItem {x0 : Moment} {x1 : Nat} {x2 : Nat} {x3 : Nat} {x4 : Nat} {x5 : State} (h5 : Kept s0 x5) : KeptP s0 (insertItem x0 x1 x2 x3 x4 x5) := by
  unfold insertItem
  repeat' first
    | with_reducible assumption | intro _ | (simp only [kept_mk]; with_reducible apply keptC_upd)
    | with_reducible apply kept_beginItem | with_reducible apply kept_publishItem | with_reducible apply keptP_some
    | with_reducible apply keptP_none | with_reducible refine kept_of_someP (by assumption) ?_ | split | dsimp only
    | with_reducible exact Kept.refl _

theorem kept_insertAll {x0 : Moment} {x1 : Nat} {x2 : Nat} {x3 : List (Nat × Nat)} {x4 : State} (h4 : Kept s0 x4) : Kept s0 (insertAll x0 x1 x2 x3 x4).2.2 := by
  induction x3 generalizing x0 x1 x2 x4 with
  | nil =>
    unfold insertAll
    repeat' first
      | with_reducible assumption | (simp only [kept_mk]; with_reducible apply keptC_upd) | with_reducible apply kept_insertItem
      | with_reducible refine kept_of_someP (by assumption) ?_ | with_reducible refine keptP_of_snd (by assumption) ?_ | split
      | dsimp only | with_reducible exact Kept.refl _
  | cons a t ih =>
    unfold insertAll
    repeat' first
      | with_reducible apply ih
      | with_reducible assumption | (simp only [kept_mk]; with_reducible apply keptC_upd) | with_reducible apply kept_insertItem
      | with_reducible refine kept_of_someP (by assumption) ?_ | with_reducible refine keptP_of_snd (by assumption) ?_ | split
      | dsimp only | with_reducible exact Kept.refl _

theorem kept_insertReply {x0 : Nat} {x1 : List Nat} {x2 : Bool} {x3 : State} (h3 : Kept s0 x3) : Kept s0 (insertReply x0 x1 x2 x3).st := by
  unfold insertReply
  repeat' first
    | with_reducible assumption | intro _ | (simp only [kept_mk]; with_reducible apply keptC_upd) | dsimp only
    | with_reducible exact Kept.refl _

theorem kept_endTchInsert {x0 : Moment} {x1 : Nat} {x2 : State} (h2 : Kept s0 x2) : Kept s0 (endTchInsert x0 x1 x2) := by
  unfold endTchInsert
  repeat' first
    | with_reducible assumption | intro _ | (simp only [kept_mk]; with_reducible apply keptC_upd)
    | with_reducible apply kept_endOp | with_reducible apply kept_endReply | with_reducible apply kept_abandonItem
    | with_reducible apply kept_insertReply | with_reducible apply kept_insertAll
    | with_reducible apply kept_publishItem | with_reducible apply kept_ite
    | with_reducible refine kept_of_snd2 (by assumption) ?_ | split | dsimp only | with_reducible exact Kept.refl _

theorem kept_flushInserts {x0 : Moment} {x1 : Nat} {x2 : State} (h2 : Kept s0 x2) : Kept s0 (flushInserts x0 x1 x2) := by
  unfold flushInserts
  repeat' first
    | with_reducible assumption | intro _ | with_reducible apply kept_foldl | with_reducible apply kept_endTchInsert
    | dsimp only | with_reducible exact Kept.refl _

theorem kept_bodyTchInsert {x0 : Moment} {x1 : Req} {x2 : State} (h2 : Kept s0 x2) : Kept s0 (bodyTchInsert x0 x1 x2).st := by
  unfold bodyTchInsert
  repeat' first
    | with_reducible assumption | intro _ | (simp only [kept_mk]; with_reducible apply keptC_upd)
    | with_reducible apply kept_reply_ok | with_reducible apply kept_reply_err | with_reducible apply kept_ite_st
    | with_reducible apply kept_onIndex | with_reducible apply kept_withData | with_reducible apply kept_insertReply
    | with_reducible apply kept_insertAll | with_reducible apply kept_flushInserts
    | with_reducible apply kept_beginItem | with_reducible apply kept_reply_wait | with_reducible apply kept_startOp | with_reducible apply kept_ite
    | with_reducible apply kept_getD | with_reducible refine kept_of_someP (by assumption) ?_
    | with_reducible refine kept_of_snd2 (by assumption) ?_ | split | dsimp only | with_reducible exact Kept.refl _

theorem kept_execTchInsert {x0 : Moment} {x1 : Req} {x2 : State} (h2 : Kept s0 x2) : KeptOut s0 (execTchInsert x0 x1 x2) := by
  unfold execTchInsert
  repeat' first
    | with_reducible assumption | with_reducible apply keptOut_next | with_reducible apply kept_runCommand
    | with_reducible apply kept_bodyTchInsert | dsimp only | with_reducible exact Kept.refl _

theorem kept_bodyTchDelete {x0 : Moment} {x1 : Req} {x2 : State} (h2 : Kept s0 x2) : Kept s0 (bodyTchDelete x0 x1 x2).st := by
  unfold bodyTchDelete
  repeat' first
    | with_reducible assumption | intro _ | (simp only [kept_mk]; with_reducible apply keptC_upd)
    | with_reducible apply kept_reply_ok | with_reducible apply kept_reply_err | with_reducible apply kept_ite_st
    | with_reducible apply kept_onIndex | with_reducible apply kept_setIndex | with_reducible apply kept_flushInserts | with_reducible apply kept_forwardTo
    | with_reducible apply kept_ite | split | dsimp only | with_reducible exact Kept.refl _

theorem kept_execTchDelete {x0 : Moment} {x1 : Req} {x2 : State} (h2 : Kept s0 x2) : KeptOut s0 (execTchDelete x0 x1 x2) := by
  unfold execTchDelete
  repeat' first
    | with_reducible assumption | with_reducible apply keptOut_next | with_reducible apply kept_runCommand
    | with_reducible apply kept_bodyTchDelete | dsimp only | with_reducible exact Kept.refl _

theorem kept_bindContext {x0 : State} (h0 : Kept s0 x0) : Kept s0 (bindContext x0) := by
  unfold bindContext
  repeat' first
    | with_reducible assumption | with_reducible apply kept_move | dsimp only | with_reducible exact Kept.refl _

theorem kept_freeContext {x0 : State} (h0 : Kept s0 x0) : Kept s0 (freeContext x0) := by
  unfold freeContext
  repeat' first
    | with_reducible assumption | with_reducible apply kept_move | dsimp only | with_reducible exact Kept.refl _

theorem kept_noteMissing {x0 : Nat} {x1 : Nat} {x2 : List Nat} {x3 : State} (h3 : Kept s0 x3) : Kept s0 (noteMissing x0 x1 x2 x3) := by
  unfold noteMissing
  repeat' first
    | with_reducible assumption | intro _ | (simp only [kept_mk]; with_reducible apply keptC_upd)
    | with_reducible apply kept_bump | with_reducible apply kept_note | with_reducible apply kept_ite | dsimp only
    | with_reducible exact Kept.refl _

theorem kept_queryReply {x0 : Query} {x1 : Nat} {x2 : State} (h2 : Kept s0 x2) : Kept s0 (queryReply x0 x1 x2).st := by
  unfold queryReply
  repeat' first
    | with_reducible assumption | intro _ | (simp only [kept_mk]; with_reducible apply keptC_upd)
    | with_reducible apply kept_reply_ok | with_reducible apply kept_ite_st | with_reducible apply kept_noteMissing
    | with_reducible apply kept_bump | with_reducible apply kept_replyData | with_reducible apply kept_ite | dsimp only
    | with_reducible exact Kept.refl _

theorem kept_bulkReply {x0 : Query} {x1 : Nat} {x2 : Nat} {x3 : State} (h3 : Kept s0 x3) : Kept s0 (bulkReply x0 x1 x2 x3).st := by
  unfold bulkReply
  repeat' first
    | with_reducible assumption | intro _ | (simp only [kept_mk]; with_reducible apply keptC_upd)
    | with_reducible apply kept_ite_st | with_reducible apply kept_noteMissing | with_reducible apply kept_bump
    | with_reducible apply kept_replyAfter | with_reducible apply kept_ite | dsimp only | with_reducible exact Kept.refl _

theorem kept_dropQuery {x0 : Nat} {x1 : State} (h1 : Kept s0 x1) : Kept s0 (dropQuery x0 x1) := by
  unfold dropQuery
  repeat' first
    | with_reducible assumption | intro _
    | (simp only [kept_mk]; first | with_reducible apply keptC_upd | refine keptC_updHmk ?_ (by first | exact Nat.le_refl _ | exact Nat.le_add_right _ _ | omega) (by exact Nat.le_refl _) (by rfl))
    | with_reducible apply kept_freeContext | dsimp only | with_reducible exact Kept.refl _

theorem kept_finishQuery {x0 : Nat} {x1 : State} (h1 : Kept s0 x1) : Kept s0 (finishQuery x0 x1) := by
  unfold finishQuery
  repeat' first
    | with_reducible assumption | intro _ | (simp only [kept_mk]; with_reducible apply keptC_upd)
    | with_reducible apply kept_reply_wait | with_reducible apply kept_ite_st | with_reducible apply kept_endOp
    | with_reducible apply kept_dropQuery | with_reducible apply kept_endReply | with_reducible apply kept_queryReply
    | with_reducible apply kept_ite | split | dsimp only | with_reducible exact Kept.refl _

theorem kept_askShard {x0 : Nat} {x1 : Nat} {x2 : Index} {x3 : Bool} {x4 : List Nat} {x5 : Nat} {x6 : Nat} {x7 : Nat} {x8 : Nat} {x9 : Nat} {x10 : State} {x11 : Nat} (h10 : Kept s0 x10) : Kept s0 (askShard x0 x1 x2 x3 x4 x5 x6 x7 x8 x9 x10 x11) := by
  unfold askShard
  repeat' first
    | with_reducible assumption | with_reducible apply kept_swlAsk | dsimp only | with_reducible exact Kept.refl _

theorem kept_startQuery {x0 x1 : Nat} {x2 : Index} {x3 : Req} {x4 x5 : Bool} {x6 : List Nat} {x7 x8 x9 x10 : Nat} {x11 : State} (h11 : Kept s0 x11) : Kept s0 (startQuery x0 x1 x2 x3 x4 x5 x6 x7 x8 x9 x10 x11) := by
  unfold startQuery
  repeat' first
    | with_reducible assumption | intro _ | (simp only [kept_mk]; with_reducible apply keptC_upd)
    | with_reducible apply kept_runShard | with_reducible apply kept_bindContext | with_reducible apply kept_finishQuery
    | with_reducible apply kept_askShard | with_reducible apply kept_ite | with_reducible apply kept_foldl
    | with_reducible apply kept_foldl_snd | with_reducible refine kept_of_snd (by assumption) ?_ | split | dsimp only
    | with_reducible exact Kept.refl _

theorem kept_bodyTchQuery {x0 : Moment} {x1 : Req} {x2 : State} (h2 : Kept s0 x2) : Kept s0 (bodyTchQuery x0 x1 x2).st := by
  unfold bodyTchQuery
  repeat' first
    | with_reducible assumption | intro _ | (simp only [kept_mk]; with_reducible apply keptC_upd)
    | with_reducible apply kept_reply_ok | with_reducible apply kept_reply_err | with_reducible apply kept_reply_wait
    | with_reducible apply kept_ite_st | with_reducible apply kept_Reply_sg | with_reducible apply kept_startQuery
    | with_reducible apply kept_freeContext | with_reducible apply kept_asOp | with_reducible apply kept_runShard
    | with_reducible apply kept_queryReply | with_reducible apply kept_bindContext | with_reducible apply kept_onIndex
    | with_reducible apply kept_Reply_err | with_reducible apply kept_ite
    | with_reducible refine kept_of_snd (by assumption) ?_ | split | dsimp only | with_reducible exact Kept.refl _

theorem kept_execTchQuery {x0 : Moment} {x1 : Req} {x2 : State} (h2 : Kept s0 x2) : KeptOut s0 (execTchQuery x0 x1 x2) := by
  unfold execTchQuery
  repeat' first
    | with_reducible assumption | with_reducible apply keptOut_next | with_reducible apply kept_runCommand
    | with_reducible apply kept_bodyTchQuery | dsimp only | with_reducible exact Kept.refl _

theorem kept_bodyTchBulk {x0 : Moment} {x1 : Req} {x2 : State} (h2 : Kept s0 x2) : Kept s0 (bodyTchBulk x0 x1 x2).st := by
  unfold bodyTchBulk
  repeat' first
    | with_reducible assumption | intro _ | (simp only [kept_mk]; with_reducible apply keptC_upd)
    | with_reducible apply kept_reply_ok | with_reducible apply kept_reply_err | with_reducible apply kept_ite_st
    | with_reducible apply kept_onIndex | with_reducible apply kept_asOp | with_reducible apply kept_startQuery
    | with_reducible apply kept_Reply_sg | with_reducible apply kept_ite | with_reducible apply keptO_ite
    | with_reducible exact kept_of_hypO ‹_› | with_reducible apply keptO_bind | with_reducible apply keptP_ite
    | with_reducible exact kept_of_hypP ‹_› | with_reducible apply keptP_bind | with_reducible apply keptE_ite
    | with_reducible exact kept_of_hypE ‹_› | with_reducible apply keptE_bind | with_reducible apply keptE_ok
    | with_reducible apply keptE_error | with_reducible apply keptEP_ite | with_reducible exact kept_of_hypEP ‹_›
    | with_reducible apply keptEP_bind | with_reducible apply keptEP_ok | with_reducible apply keptEP_error
    | with_reducible apply keptEE_ite | with_reducible apply keptEE_bind | with_reducible apply keptEE_ok
    | with_reducible apply keptEE_error | with_reducible refine kept_of_ok (by assumption) ?_
    | with_reducible refine kept_of_error (by assumption) ?_ | with_reducible refine kept_of_okP (by assumption) ?_
    | with_reducible refine kept_of_some (by assumption) ?_ | with_reducible refine kept_of_someP (by assumption) ?_
    | with_reducible refine kept_of_fst (by assumption) ?_ | with_reducible refine kept_of_snd (by assumption) ?_
    | with_reducible refine kept_of_snd2 (by assumption) ?_ | with_reducible refine kept_of_snd3 (by assumption) ?_
    | with_reducible refine keptP_of_snd (by assumption) ?_ | split | dsimp only | with_reducible exact Kept.refl _

theorem kept_execTchBulk {x0 : Moment} {x1 : Req} {x2 : State} (h2 : Kept s0 x2) : KeptOut s0 (execTchBulk x0 x1 x2) := by
  unfold execTchBulk
  repeat' first
    | with_reducible assumption | with_reducible apply keptOut_next | with_reducible apply kept_runCommand
    | with_reducible apply kept_bodyTchBulk | dsimp only | with_reducible exact Kept.refl _

theorem kept_endTchQuery {x0 : Nat} {x1 : LongOp} {x2 : State} (h2 : Kept s0 x2) : Kept s0 (endTchQuery x0 x1 x2) := by
  unfold endTchQuery
  repeat' first
    | with_reducible assumption | intro _ | (simp only [kept_mk]; with_reducible apply keptC_upd)
    | with_reducible apply kept_reply_wait | with_reducible apply kept_ite_st | with_reducible apply kept_endOp
    | with_reducible apply kept_dropQuery | with_reducible apply kept_endReply | with_reducible apply kept_bulkReply
    | with_reducible apply kept_queryReply | with_reducible apply kept_ite | with_reducible apply kept_getD | split | dsimp only
    | with_reducible exact Kept.refl _

theorem kept_execTchSubqueryReceive {x0 : Moment} {x1 : SubQuery} {x2 : State} (h2 : Kept s0 x2) : KeptOut s0 (execTchSubqueryReceive x0 x1 x2) := by
  unfold execTchSubqueryReceive
  repeat' first
    | with_reducible assumption | intro _
    | (simp only [kept_mk]; first | with_reducible apply keptC_upd | refine keptC_updHmk ?_ (by first | exact Nat.le_refl _ | exact Nat.le_add_right _ _ | omega) (by exact Nat.le_refl _) (by rfl))
    | with_reducible apply keptOut_next | with_reducible apply keptOut_ite | with_reducible apply kept_swlGot
    | with_reducible apply kept_State_at | with_reducible apply kept_sendSwl | with_reducible apply kept_runShard
    | with_reducible apply kept_bindContext | with_reducible apply kept_freeContext | with_reducible apply kept_ite
    | with_reducible apply kept_getD | with_reducible refine kept_of_snd (by assumption) ?_ | split | dsimp only
    | with_reducible exact Kept.refl _

theorem kept_tchShardDone {x0 : Nat} {x1 : Nat} {x2 : Option (List (List Hit))} {x3 : State} (h3 : Kept s0 x3) : Kept s0 (tchShardDone x0 x1 x2 x3) := by
  unfold tchShardDone
  repeat' first
    | with_reducible assumption | intro _ | (simp only [kept_mk]; with_reducible apply keptC_upd)
    | with_reducible apply kept_finishQuery | with_reducible apply kept_ite | with_reducible apply kept_getD | split
    | dsimp only | with_reducible exact Kept.refl _

theorem kept_execTchShardAnswer {x0 : Moment} {x1 : Nat} {x2 : Nat} {x3 : Nat} {x4 : List (List ShardHit)} {x5 : State} (h5 : Kept s0 x5) : KeptOut s0 (execTchShardAnswer x0 x1 x2 x3 x4 x5) := by
  unfold execTchShardAnswer
  repeat' first
    | with_reducible assumption | intro _ | (simp only [kept_mk]; with_reducible apply keptC_upd)
    | with_reducible apply keptOut_next | with_reducible apply keptOut_ite | with_reducible apply kept_State_at
    | with_reducible apply kept_swlGot | with_reducible apply kept_tchShardDone | with_reducible apply kept_ite | split
    | dsimp only | with_reducible exact Kept.refl _

theorem kept_execTchShardTimeout {x0 : Moment} {x1 : Nat} {x2 : State} (h2 : Kept s0 x2) : KeptOut s0 (execTchShardTimeout x0 x1 x2) := by
  unfold execTchShardTimeout
  repeat' first
    | with_reducible assumption | intro _ | (simp only [kept_mk]; with_reducible apply keptC_upd)
    | with_reducible apply keptOut_next | with_reducible apply keptOut_ite | with_reducible apply kept_State_at
    | with_reducible apply kept_tchShardDone | with_reducible apply kept_ite | with_reducible apply kept_foldl
    | with_reducible apply kept_foldl_snd | split | dsimp only | with_reducible exact Kept.refl _

theorem kept_bodyTchIndexQuery {x0 : Moment} {x1 : Req} {x2 : State} (h2 : Kept s0 x2) : Kept s0 (bodyTchIndexQuery x0 x1 x2).st := by
  unfold bodyTchIndexQuery
  repeat' first
    | with_reducible assumption | intro _ | (simp only [kept_mk]; with_reducible apply keptC_upd)
    | with_reducible apply kept_reply_ok | with_reducible apply kept_reply_err | with_reducible apply kept_ite_st
    | with_reducible apply kept_ite | with_reducible apply kept_getD | split | dsimp only | with_reducible exact Kept.refl _

theorem kept_execTchIndexQuery {x0 : Moment} {x1 : Req} {x2 : State} (h2 : Kept s0 x2) : KeptOut s0 (execTchIndexQuery x0 x1 x2) := by
  unfold execTchIndexQuery
  repeat' first
    | with_reducible assumption | with_reducible apply keptOut_next | with_reducible apply kept_runCommand
    | with_reducible apply kept_bodyTchIndexQuery | dsimp only | with_reducible exact Kept.refl _

theorem kept_reclaim {x0 : Nat} {x1 : Nat} {x2 : State} (h2 : Kept s0 x2) : Kept s0 (reclaim x0 x1 x2) := by
  unfold reclaim
  repeat' first
    | with_reducible assumption | intro _ | (simp only [kept_mk]; with_reducible apply keptC_upd)
    | with_reducible apply kept_bump | with_reducible apply kept_setIndex | with_reducible apply kept_note
    | with_reducible apply kept_ite | split | dsimp only | with_reducible exact Kept.refl _

theorem kept_execTchReclaim {x0 : Moment} {x1 : Nat} {x2 : Nat} {x3 : State} (h3 : Kept s0 x3) : KeptOut s0 (execTchReclaim x0 x1 x2 x3) := by
  unfold execTchReclaim
  repeat' first
    | with_reducible assumption | with_reducible apply keptOut_next | with_reducible apply kept_reclaim
    | with_reducible apply kept_State_at | dsimp only | with_reducible exact Kept.refl _

theorem kept_sweepSlot {x0 : Nat} {x1 : Nat} {x2 : Nat × State} (h2 : Kept s0 x2.2) : Kept s0 (sweepSlot x0 x1 x2).2 := by
  unfold sweepSlot
  repeat' first
    | with_reducible assumption | intro _ | (simp only [kept_mk]; with_reducible apply keptC_upd)
    | with_reducible apply kept_setIndex | with_reducible apply kept_ite | with_reducible apply kept_ite_snd | split
    | dsimp only | with_reducible exact Kept.refl _

theorem kept_sweep {x0 : Nat} {x1 : State} (h1 : Kept s0 x1) : Kept s0 (sweep x0 x1).2 := by
  unfold sweep
  repeat' first
    | with_reducible assumption | intro _ | (simp only [kept_mk]; with_reducible apply keptC_upd)
    | with_reducible apply kept_sweepSlot | with_reducible apply kept_note | with_reducible apply kept_setIndex
    | with_reducible apply kept_foldl | with_reducible apply kept_foldl_snd
    | with_reducible refine kept_of_snd (by assumption) ?_ | split | dsimp only | with_reducible exact Kept.refl _

theorem kept_execTchRepairSweep {x0 : Moment} {x1 : Nat} {x2 : State} (h2 : Kept s0 x2) : KeptOut s0 (execTchRepairSweep x0 x1 x2) := by
  unfold execTchRepairSweep
  repeat' first
    | with_reducible assumption | intro _ | (simp only [kept_mk]; with_reducible apply keptC_upd)
    | with_reducible apply keptOut_next | with_reducible apply keptOut_ite | with_reducible apply kept_State_at
    | with_reducible apply kept_sweep | with_reducible apply kept_setIndex | with_reducible apply kept_ite
    | with_reducible refine kept_of_snd (by assumption) ?_ | split | dsimp only | with_reducible exact Kept.refl _

theorem kept_bodyTchRepair {x0 : Moment} {x1 : Req} {x2 : State} (h2 : Kept s0 x2) : Kept s0 (bodyTchRepair x0 x1 x2).st := by
  unfold bodyTchRepair
  repeat' first
    | with_reducible assumption | intro _ | with_reducible apply kept_reply_err | with_reducible apply kept_ite_st
    | with_reducible apply kept_onIndex | with_reducible apply kept_asOp | with_reducible apply kept_ite | dsimp only
    | with_reducible exact Kept.refl _

theorem kept_execTchRepair {x0 : Moment} {x1 : Req} {x2 : State} (h2 : Kept s0 x2) : KeptOut s0 (execTchRepair x0 x1 x2) := by
  unfold execTchRepair
  repeat' first
    | with_reducible assumption | with_reducible apply keptOut_next | with_reducible apply kept_runCommand
    | with_reducible apply kept_bodyTchRepair | dsimp only | with_reducible exact Kept.refl _

theorem kept_endTchRepair {x0 : Nat} {x1 : LongOp} {x2 : State} (h2 : Kept s0 x2) : Kept s0 (endTchRepair x0 x1 x2) := by
  unfold endTchRepair
  repeat' first
    | with_reducible assumption | intro _ | with_reducible apply kept_endOp | with_reducible apply kept_sweep
    | with_reducible apply kept_ite | with_reducible apply kept_getD | with_reducible refine kept_of_snd (by assumption) ?_
    | split | dsimp only | with_reducible exact Kept.refl _

end Sys2Proof.Machine
end

