-- ==== Sys2Proof/Laws/KeptGather.lean ====
section
/-! SUPPORT. What the definitions of Sys2Proof/Machine/Gather.lean keep. -/

set_option linter.unusedSimpArgs false

namespace Sys2Proof.Machine

variable {s0 : State}

theorem kept_setTable {x0 : Nat} {x1 : GTable} {x2 : State} (h2 : Kept s0 x2) : Kept s0 (setTable x0 x1 x2) := by
  unfold setTable
  repeat' first
    | with_reducible assumption | (simp only [kept_mk]; with_reducible apply keptC_upd) | dsimp only
    | with_reducible exact Kept.refl _

theorem kept_delTable {x0 : Nat} {x1 : State} (h1 : Kept s0 x1) : Kept s0 (delTable x0 x1) := by
  unfold delTable
  repeat' first
    | with_reducible assumption | (simp only [kept_mk]; with_reducible apply keptC_upd) | dsimp only
    | with_reducible exact Kept.refl _

theorem kept_onTable {x0 : OpInfo} {x1 : Req} {x2 : State} {x3 : Nat → GTable → Reply} (h2 : Kept s0 x2) (h3 : ∀ y0 y1, Kept s0 (x3 y0 y1).st) : Kept s0 (onTable x0 x1 x2 x3).st := by
  unfold onTable
  repeat' first
    | with_reducible assumption | intro _ | with_reducible apply h3 | (simp only [kept_mk]; with_reducible apply keptC_upd)
    | with_reducible apply kept_reply_ok | with_reducible apply kept_reply_err | with_reducible apply kept_ite_st
    | with_reducible apply kept_ite | split | dsimp only | with_reducible exact Kept.refl _

theorem kept_newVersion {x0 : Moment} {x1 : Req} {x2 : Nat} {x3 : GTable} {x4 : List Bytes} {x5 : State} (h5 : Kept s0 x5) : Kept s0 (newVersion x0 x1 x2 x3 x4 x5).st := by
  unfold newVersion
  repeat' first
    | with_reducible assumption | intro _ | (simp only [kept_mk]; with_reducible apply keptC_upd)
    | with_reducible apply kept_reply_err | with_reducible apply kept_ite_st | with_reducible apply kept_asOp
    | with_reducible apply kept_setTable | with_reducible apply kept_ite | split | dsimp only | with_reducible exact Kept.refl _

theorem kept_bodyGthTableLoad {x0 : Moment} {x1 : Req} {x2 : State} (h2 : Kept s0 x2) : Kept s0 (bodyGthTableLoad x0 x1 x2).st := by
  unfold bodyGthTableLoad
  repeat' first
    | with_reducible assumption | intro _ | with_reducible apply kept_reply_err | with_reducible apply kept_ite_st
    | with_reducible apply kept_withData | with_reducible apply kept_newVersion | with_reducible apply kept_onTable
    | with_reducible apply kept_ite | split | dsimp only | with_reducible exact Kept.refl _

theorem kept_execGthTableLoad {x0 : Moment} {x1 : Req} {x2 : State} (h2 : Kept s0 x2) : KeptOut s0 (execGthTableLoad x0 x1 x2) := by
  unfold execGthTableLoad
  repeat' first
    | with_reducible assumption | with_reducible apply keptOut_next | with_reducible apply kept_runCommand
    | with_reducible apply kept_bodyGthTableLoad | dsimp only | with_reducible exact Kept.refl _

theorem kept_bodyGthTablePatch {x0 : Moment} {x1 : Req} {x2 : State} (h2 : Kept s0 x2) : Kept s0 (bodyGthTablePatch x0 x1 x2).st := by
  unfold bodyGthTablePatch
  repeat' first
    | with_reducible assumption | intro _ | (simp only [kept_mk]; with_reducible apply keptC_upd)
    | with_reducible apply kept_reply_err | with_reducible apply kept_onTable | with_reducible apply kept_withData
    | with_reducible apply kept_newVersion | with_reducible apply kept_foldl | with_reducible apply kept_foldl_snd
    | with_reducible apply kept_getD | with_reducible apply kept_foldl_fst | split | dsimp only
    | with_reducible exact Kept.refl _

theorem kept_execGthTablePatch {x0 : Moment} {x1 : Req} {x2 : State} (h2 : Kept s0 x2) : KeptOut s0 (execGthTablePatch x0 x1 x2) := by
  unfold execGthTablePatch
  repeat' first
    | with_reducible assumption | with_reducible apply keptOut_next | with_reducible apply kept_runCommand
    | with_reducible apply kept_bodyGthTablePatch | dsimp only | with_reducible exact Kept.refl _

theorem kept_dropVersion {x0 : Nat} {x1 : Nat} {x2 : GTable} {x3 : State} (h3 : Kept s0 x3) : Kept s0 (dropVersion x0 x1 x2 x3) := by
  unfold dropVersion
  repeat' first
    | with_reducible assumption | intro _ | (simp only [kept_mk]; with_reducible apply keptC_upd)
    | with_reducible apply kept_delTable | with_reducible apply kept_setTable | with_reducible apply kept_ite | dsimp only
    | with_reducible exact Kept.refl _

theorem kept_endGthVersion {x0 : Nat} {x1 : LongOp} {x2 : Bool} {x3 : State} (h3 : Kept s0 x3) : Kept s0 (endGthVersion x0 x1 x2 x3) := by
  unfold endGthVersion
  repeat' first
    | with_reducible assumption | intro _ | (simp only [kept_mk]; with_reducible apply keptC_upd)
    | with_reducible apply kept_reply_ok | with_reducible apply kept_reply_err | with_reducible apply kept_reply_wait
    | with_reducible apply kept_ite_st | with_reducible apply kept_endOp | with_reducible apply kept_setTable
    | with_reducible apply kept_endSgFault | with_reducible apply kept_dropVersion | with_reducible apply kept_ite
    | with_reducible apply kept_getD | split | dsimp only | with_reducible exact Kept.refl _

theorem kept_bodyGthTableDrop {x0 : Moment} {x1 : Req} {x2 : State} (h2 : Kept s0 x2) : Kept s0 (bodyGthTableDrop x0 x1 x2).st := by
  unfold bodyGthTableDrop
  repeat' first
    | with_reducible assumption | intro _ | (simp only [kept_mk]; with_reducible apply keptC_upd)
    | with_reducible apply kept_onTable | with_reducible apply kept_asOp | with_reducible apply kept_setTable | dsimp only
    | with_reducible exact Kept.refl _

theorem kept_execGthTableDrop {x0 : Moment} {x1 : Req} {x2 : State} (h2 : Kept s0 x2) : KeptOut s0 (execGthTableDrop x0 x1 x2) := by
  unfold execGthTableDrop
  repeat' first
    | with_reducible assumption | with_reducible apply keptOut_next | with_reducible apply kept_runCommand
    | with_reducible apply kept_bodyGthTableDrop | dsimp only | with_reducible exact Kept.refl _

theorem kept_dropTable {x0 : Nat} {x1 : Nat} {x2 : State} (h2 : Kept s0 x2) : Kept s0 (dropTable x0 x1 x2) := by
  unfold dropTable
  repeat' first
    | with_reducible assumption | intro _ | (simp only [kept_mk]; with_reducible apply keptC_upd)
    | with_reducible apply kept_delTable | with_reducible apply kept_endOp | with_reducible apply kept_foldl
    | dsimp only | with_reducible exact Kept.refl _

theorem kept_endGthTableDrop {x0 : Nat} {x1 : LongOp} {x2 : State} (h2 : Kept s0 x2) : Kept s0 (endGthTableDrop x0 x1 x2) := by
  unfold endGthTableDrop
  repeat' first
    | with_reducible assumption | intro _ | with_reducible apply kept_endOp | with_reducible apply kept_dropTable
    | with_reducible apply kept_ite | with_reducible apply kept_getD | dsimp only | with_reducible exact Kept.refl _

theorem kept_bodyGthHotSet {x0 : Moment} {x1 : Req} {x2 : State} (h2 : Kept s0 x2) : Kept s0 (bodyGthHotSet x0 x1 x2).st := by
  unfold bodyGthHotSet
  repeat' first
    | with_reducible assumption | intro _ | (simp only [kept_mk]; with_reducible apply keptC_upd)
    | with_reducible apply kept_reply_ok | with_reducible apply kept_reply_err | with_reducible apply kept_ite_st
    | with_reducible apply kept_onTable | with_reducible apply kept_withData | with_reducible apply kept_setTable
    | with_reducible apply kept_ite | with_reducible apply kept_getD | split | dsimp only | with_reducible exact Kept.refl _

theorem kept_execGthHotSet {x0 : Moment} {x1 : Req} {x2 : State} (h2 : Kept s0 x2) : KeptOut s0 (execGthHotSet x0 x1 x2) := by
  unfold execGthHotSet
  repeat' first
    | with_reducible assumption | with_reducible apply keptOut_next | with_reducible apply kept_runCommand
    | with_reducible apply kept_bodyGthHotSet | dsimp only | with_reducible exact Kept.refl _

theorem kept_countBatch {x0 : GTable} {x1 : Nat} {x2 : Nat} {x3 : List Nat} {x4 : List Nat} {x5 : State} (h5 : Kept s0 x5) : Kept s0 (countBatch x0 x1 x2 x3 x4 x5) := by
  unfold countBatch
  repeat' first
    | with_reducible assumption | intro _ | with_reducible apply kept_fresh | with_reducible apply kept_bump
    | with_reducible apply kept_ite | with_reducible apply kept_getD | with_reducible refine kept_of_snd (by assumption) ?_
    | split | dsimp only | with_reducible exact Kept.refl _

theorem kept_batchReply {x0 : Req} {x1 : GTable} {x2 : GVersion} {x3 : Bytes} {x4 : State} (h4 : Kept s0 x4) : Kept s0 (batchReply x0 x1 x2 x3 x4).st := by
  unfold batchReply
  repeat' first
    | with_reducible assumption | intro _ | (simp only [kept_mk]; with_reducible apply keptC_upd)
    | with_reducible apply kept_ite_st | with_reducible apply kept_replyAfter | with_reducible apply kept_countBatch
    | with_reducible apply kept_ite | split | dsimp only | with_reducible exact Kept.refl _

theorem kept_bindVersion {x0 x1 : Nat} {x2 : Nat → Nat} {x3 : State} (h3 : Kept s0 x3) : Kept s0 (bindVersion x0 x1 x2 x3) := by
  unfold bindVersion
  repeat' first
    | with_reducible assumption | intro _ | (simp only [kept_mk]; with_reducible apply keptC_upd)
    | with_reducible apply kept_setTable | split | dsimp only | with_reducible exact Kept.refl _

theorem kept_bindBatch {x0 x1 x2 : Nat} {x3 : GTable} {x4 : Bytes} {x5 : State} (h5 : Kept s0 x5) : Kept s0 (bindBatch x0 x1 x2 x3 x4 x5) := by
  unfold bindBatch
  repeat' first
    | with_reducible assumption | intro _ | (simp only [kept_mk]; with_reducible apply keptC_upd)
    | with_reducible apply kept_bindVersion | dsimp only | with_reducible exact Kept.refl _

theorem kept_bodyGthRun {x0 : Moment} {x1 : Req} {x2 : State} (h2 : Kept s0 x2) : Kept s0 (bodyGthRun x0 x1 x2).st := by
  unfold bodyGthRun
  repeat' first
    | with_reducible assumption | intro _ | (simp only [kept_mk]; with_reducible apply keptC_upd)
    | with_reducible apply kept_reply_ok | with_reducible apply kept_reply_err | with_reducible apply kept_reply_wait
    | with_reducible apply kept_ite_st | with_reducible apply kept_Reply_sg | with_reducible apply kept_batchReply
    | with_reducible apply kept_asOp | with_reducible apply kept_bindBatch | with_reducible apply kept_withData
    | with_reducible apply kept_Reply_err | with_reducible apply kept_onTable | with_reducible apply kept_ite
    | with_reducible apply kept_getD | split | dsimp only | with_reducible exact Kept.refl _

theorem kept_endGthRun {x0 : Nat} {x1 : LongOp} {x2 : State} (h2 : Kept s0 x2) : Kept s0 (endGthRun x0 x1 x2) := by
  unfold endGthRun
  repeat' first
    | with_reducible assumption | intro _ | (simp only [kept_mk]; with_reducible apply keptC_upd)
    | with_reducible apply kept_endOp | with_reducible apply kept_endReply | with_reducible apply kept_batchReply
    | with_reducible apply kept_bindVersion | with_reducible apply kept_ite | split | dsimp only
    | with_reducible exact Kept.refl _

theorem kept_execGthRun {x0 : Moment} {x1 : Req} {x2 : State} (h2 : Kept s0 x2) : KeptOut s0 (execGthRun x0 x1 x2) := by
  unfold execGthRun
  repeat' first
    | with_reducible assumption | with_reducible apply keptOut_next | with_reducible apply kept_runCommand
    | with_reducible apply kept_bodyGthRun | dsimp only | with_reducible exact Kept.refl _

theorem kept_bodyGthTableQuery {x0 : Moment} {x1 : Req} {x2 : State} (h2 : Kept s0 x2) : Kept s0 (bodyGthTableQuery x0 x1 x2).st := by
  unfold bodyGthTableQuery
  repeat' first
    | with_reducible assumption | intro _ | (simp only [kept_mk]; with_reducible apply keptC_upd)
    | with_reducible apply kept_reply_ok | with_reducible apply kept_reply_err | with_reducible apply kept_ite_st
    | with_reducible apply kept_ite | with_reducible apply kept_getD | split | dsimp only | with_reducible exact Kept.refl _

theorem kept_execGthTableQuery {x0 : Moment} {x1 : Req} {x2 : State} (h2 : Kept s0 x2) : KeptOut s0 (execGthTableQuery x0 x1 x2) := by
  unfold execGthTableQuery
  repeat' first
    | with_reducible assumption | with_reducible apply keptOut_next | with_reducible apply kept_runCommand
    | with_reducible apply kept_bodyGthTableQuery | dsimp only | with_reducible exact Kept.refl _

end Sys2Proof.Machine
end

