-- ==== Sys2Proof/Laws/KeptSwilan.lean ====
section
/-! SUPPORT. What the definitions of Sys2Proof/Machine/Swilan.lean keep. -/

set_option linter.unusedSimpArgs false

namespace Sys2Proof.Machine

variable {s0 : State}

theorem kept_modLink {x0 : Nat} {x1 : Link → Link} {x2 : State} (h2 : Kept s0 x2) : Kept s0 (modLink x0 x1 x2) := by
  unfold modLink
  repeat' first
    | with_reducible assumption | with_reducible apply kept_setLink | dsimp only | with_reducible exact Kept.refl _

theorem kept_markPairs {x0 : Nat} {x1 : Nat} {x2 : State} (h2 : Kept s0 x2) : Kept s0 (markPairs x0 x1 x2) := by
  unfold markPairs
  repeat' first
    | with_reducible assumption | intro _ | (simp only [kept_mk]; with_reducible apply keptC_upd)
    | with_reducible apply kept_ite | dsimp only | with_reducible exact Kept.refl _

theorem kept_failWait {x0 : SwlWait} {x1 : Nat} {x2 : State} (h2 : Kept s0 x2) : Kept s0 (failWait x0 x1 x2) := by
  unfold failWait
  repeat' first
    | with_reducible assumption | (simp only [kept_mk]; with_reducible apply keptC_upd) | with_reducible apply kept_reply_err
    | with_reducible apply kept_endOp | with_reducible apply kept_claimAnswer | with_reducible apply kept_tchShardDone
    | with_reducible apply kept_migrateFail | with_reducible apply kept_answer | with_reducible exact kept_of_hypO ‹_›
    | with_reducible apply keptO_none | with_reducible exact kept_of_hypP ‹_› | with_reducible apply keptP_none
    | with_reducible exact kept_of_hypE ‹_› | with_reducible exact kept_of_hypEP ‹_›
    | with_reducible refine kept_of_ok (by assumption) ?_ | with_reducible refine kept_of_error (by assumption) ?_
    | with_reducible refine kept_of_okP (by assumption) ?_ | with_reducible refine kept_of_some (by assumption) ?_
    | with_reducible refine kept_of_someP (by assumption) ?_ | with_reducible refine kept_of_fst (by assumption) ?_
    | with_reducible refine kept_of_snd (by assumption) ?_ | with_reducible refine kept_of_snd2 (by assumption) ?_
    | with_reducible refine kept_of_snd3 (by assumption) ?_ | with_reducible refine keptP_of_snd (by assumption) ?_ | split
    | dsimp only | with_reducible exact Kept.refl _

theorem kept_failTraffic {x0 : Nat} {x1 : State} (h1 : Kept s0 x1) : Kept s0 (failTraffic x0 x1) := by
  unfold failTraffic
  repeat' first
    | with_reducible assumption | intro _ | (simp only [kept_mk]; with_reducible apply keptC_upd)
    | with_reducible apply kept_failWait | with_reducible apply kept_failDesc | with_reducible apply kept_arrivalFailed
    | with_reducible apply kept_foldl | with_reducible apply kept_foldl_snd | dsimp only | with_reducible exact Kept.refl _

theorem kept_resetCredits {x0 : Nat} {x1 : State} (h1 : Kept s0 x1) : Kept s0 (resetCredits x0 x1) := by
  unfold resetCredits
  repeat' first
    | with_reducible assumption | intro _ | with_reducible apply kept_post | with_reducible apply kept_ite
    | with_reducible apply kept_foldl | with_reducible apply kept_foldl_snd | dsimp only | with_reducible exact Kept.refl _

theorem kept_enterState {x0 : Nat} {x1 : LState} {x2 : Nat} {x3 : State} (h3 : Kept s0 x3) : Kept s0 (enterState x0 x1 x2 x3) := by
  unfold enterState
  repeat' first
    | with_reducible assumption | intro _ | (simp only [kept_mk]; with_reducible apply keptC_upd)
    | with_reducible apply kept_setLink | with_reducible apply kept_note | with_reducible apply kept_ite | dsimp only
    | with_reducible exact Kept.refl _

theorem kept_linkLost {x0 : Nat} {x1 : LState} {x2 : Nat} {x3 : State} (h3 : Kept s0 x3) : Kept s0 (linkLost x0 x1 x2 x3) := by
  unfold linkLost
  repeat' first
    | with_reducible assumption | intro _ | (simp only [kept_mk]; with_reducible apply keptC_upd)
    | with_reducible apply kept_resetCredits | with_reducible apply kept_enterState | with_reducible apply kept_modLink
    | with_reducible apply kept_failTraffic | with_reducible apply kept_markPairs | dsimp only
    | with_reducible exact Kept.refl _

theorem kept_retrain {x0 : Nat} {x1 : Nat} {x2 : State} (h2 : Kept s0 x2) : Kept s0 (retrain x0 x1 x2) := by
  unfold retrain
  repeat' first
    | with_reducible assumption | intro _ | (simp only [kept_mk]; with_reducible apply keptC_upd)
    | with_reducible apply kept_modLink | with_reducible apply kept_linkLost | with_reducible apply kept_note | dsimp only
    | with_reducible exact Kept.refl _

theorem kept_startTraining {x0 : Nat} {x1 : State} (h1 : Kept s0 x1) : Kept s0 (startTraining x0 x1) := by
  unfold startTraining
  repeat' first
    | with_reducible assumption | intro _ | (simp only [kept_mk]; with_reducible apply keptC_upd)
    | with_reducible apply kept_enterState | with_reducible apply kept_modLink | dsimp only | with_reducible exact Kept.refl _

theorem kept_disableLink {x0 : Nat} {x1 : State} (h1 : Kept s0 x1) : Kept s0 (disableLink x0 x1) := by
  unfold disableLink
  repeat' first
    | with_reducible assumption | intro _ | with_reducible apply kept_linkLost | with_reducible apply kept_enterState
    | with_reducible apply kept_ite | dsimp only | with_reducible exact Kept.refl _

theorem kept_sendOwed {x0 : Nat} {x1 : State} (h1 : Kept s0 x1) : Kept s0 (sendOwed x0 x1) := by
  unfold sendOwed
  repeat' first
    | with_reducible assumption | intro _ | (simp only [kept_mk]; with_reducible apply keptC_upd)
    | with_reducible apply kept_sendSwl | with_reducible apply kept_foldl | with_reducible apply kept_foldl_snd
    | with_reducible apply kept_foldl_fst | dsimp only | with_reducible exact Kept.refl _

theorem kept_linkCome {x0 : Nat} {x1 : TrainId} {x2 : State} (h2 : Kept s0 x2) : Kept s0 (linkCome x0 x1 x2) := by
  unfold linkCome
  repeat' first
    | with_reducible assumption | intro _ | (simp only [kept_mk]; with_reducible apply keptC_upd)
    | with_reducible apply kept_modLink | with_reducible apply kept_markPairs | with_reducible apply kept_enterState
    | with_reducible apply kept_pumpLink | with_reducible apply kept_sendOwed | with_reducible apply kept_ite | dsimp only
    | with_reducible exact Kept.refl _

theorem kept_trainIdentity {x0 : Nat} {x1 : TrainId} {x2 : State} (h2 : Kept s0 x2) : Kept s0 (trainIdentity x0 x1 x2) := by
  unfold trainIdentity
  repeat' first
    | with_reducible assumption | intro _ | (simp only [kept_mk]; with_reducible apply keptC_upd)
    | with_reducible apply kept_modLink | with_reducible apply kept_enterState | with_reducible apply kept_linkCome
    | with_reducible apply kept_State_at | with_reducible apply kept_ite | dsimp only | with_reducible exact Kept.refl _

theorem kept_execSwlTrainIdentity {x0 : Moment} {x1 : Nat} {x2 : TrainId} {x3 : State} (h3 : Kept s0 x3) : KeptOut s0 (execSwlTrainIdentity x0 x1 x2 x3) := by
  unfold execSwlTrainIdentity
  repeat' first
    | with_reducible assumption | with_reducible apply keptOut_next | with_reducible apply kept_settleAll
    | with_reducible apply kept_trainIdentity | with_reducible apply kept_State_at | dsimp only
    | with_reducible exact Kept.refl _

theorem kept_execSwlTrainTimeout {x0 : Moment} {x1 : Nat} {x2 : State} (h2 : Kept s0 x2) : KeptOut s0 (execSwlTrainTimeout x0 x1 x2) := by
  unfold execSwlTrainTimeout
  repeat' first
    | with_reducible assumption | intro _ | (simp only [kept_mk]; with_reducible apply keptC_upd)
    | with_reducible apply keptOut_next | with_reducible apply keptOut_ite | with_reducible apply kept_State_at
    | with_reducible apply kept_enterState | with_reducible apply kept_setLink | with_reducible apply kept_ite | dsimp only
    | with_reducible exact Kept.refl _

theorem kept_execSwlAbsentRetry {x0 : Moment} {x1 : Nat} {x2 : State} (h2 : Kept s0 x2) : KeptOut s0 (execSwlAbsentRetry x0 x1 x2) := by
  unfold execSwlAbsentRetry
  repeat' first
    | with_reducible assumption | intro _ | with_reducible apply keptOut_next | with_reducible apply keptOut_ite
    | with_reducible apply kept_State_at | with_reducible apply kept_startTraining | with_reducible apply kept_ite | dsimp only
    | with_reducible exact Kept.refl _

theorem kept_countReplay {x0 : Nat} {x1 : State} (h1 : Kept s0 x1) : Kept s0 (countReplay x0 x1) := by
  unfold countReplay
  repeat' first
    | with_reducible assumption | intro _ | (simp only [kept_mk]; with_reducible apply keptC_upd)
    | with_reducible apply kept_setLink | with_reducible apply kept_retrain | with_reducible apply kept_ite | dsimp only
    | with_reducible exact Kept.refl _

theorem kept_execSwlFlitCrcError {x0 : Moment} {x1 : Nat} {x2 : State} (h2 : Kept s0 x2) : KeptOut s0 (execSwlFlitCrcError x0 x1 x2) := by
  unfold execSwlFlitCrcError
  repeat' first
    | with_reducible assumption | intro _ | with_reducible apply keptOut_next | with_reducible apply keptOut_ite
    | with_reducible apply kept_State_at | with_reducible apply kept_settleAll | with_reducible apply kept_countReplay
    | with_reducible apply kept_emit | with_reducible apply kept_bump | with_reducible apply kept_ite | dsimp only
    | with_reducible exact Kept.refl _

theorem kept_execSwlReplayRequest {x0 : Moment} {x1 : Nat} {x2 : Nat} {x3 : State} (h3 : Kept s0 x3) : KeptOut s0 (execSwlReplayRequest x0 x1 x2 x3) := by
  unfold execSwlReplayRequest
  repeat' first
    | with_reducible assumption | intro _ | (simp only [kept_mk]; with_reducible apply keptC_upd)
    | with_reducible apply keptOut_next | with_reducible apply keptOut_ite | with_reducible apply kept_State_at
    | with_reducible apply kept_settleAll | with_reducible apply kept_retrain | with_reducible apply kept_setLink
    | with_reducible apply kept_countReplay | with_reducible apply kept_emit | with_reducible apply kept_bump
    | with_reducible apply kept_ite | dsimp only | with_reducible exact Kept.refl _

theorem kept_execSwlCreditReturn {x0 : Moment} {x1 : Nat} {x2 : Nat} {x3 : Nat} {x4 : State} (h4 : Kept s0 x4) : KeptOut s0 (execSwlCreditReturn x0 x1 x2 x3 x4) := by
  unfold execSwlCreditReturn
  repeat' first
    | with_reducible assumption | intro _ | (simp only [kept_mk]; with_reducible apply keptC_upd)
    | with_reducible apply keptOut_next | with_reducible apply keptOut_ite | with_reducible apply kept_State_at
    | with_reducible apply kept_post | with_reducible apply kept_setLink | with_reducible apply kept_pumpLink
    | with_reducible apply kept_ite | dsimp only | with_reducible exact Kept.refl _

theorem kept_leaveImage {x0 : Nat} {x1 : State} (h1 : Kept s0 x1) : Kept s0 (leaveImage x0 x1) := by
  unfold leaveImage
  repeat' first
    | with_reducible assumption | intro _ | (simp only [kept_mk]; with_reducible apply keptC_upd)
    | with_reducible apply kept_creditOut | with_reducible apply kept_modStore | with_reducible apply kept_dropTables
    | split | dsimp only | with_reducible exact Kept.refl _

theorem kept_releaseFrames {x0 : Nat} {x1 : List Nat} {x2 : State} (h2 : Kept s0 x2) : Kept s0 (releaseFrames x0 x1 x2) := by
  unfold releaseFrames
  repeat' first
    | with_reducible assumption | intro _ | (simp only [kept_mk]; with_reducible apply keptC_upd)
    | with_reducible apply kept_modStore | with_reducible apply kept_dropPte | with_reducible apply kept_ite
    | with_reducible apply kept_foldl | with_reducible apply kept_foldl_snd | with_reducible apply kept_foldl_fst
    | with_reducible apply keptO_foldl | with_reducible apply keptP_foldl | with_reducible apply keptE_foldl
    | with_reducible apply keptEP_foldl | split | dsimp only | with_reducible exact Kept.refl _

theorem kept_tellImage {x0 : DirEntry} {x1 : Nat} {x2 : Nat} {x3 : State} (h3 : Kept s0 x3) : Kept s0 (tellImage x0 x1 x2 x3) := by
  unfold tellImage
  repeat' first
    | with_reducible assumption | intro _ | with_reducible apply kept_sendSwl | with_reducible apply kept_ite | dsimp only
    | with_reducible exact Kept.refl _

theorem kept_dirClaim {x0 : Moment} {x1 : Nat} {x2 : Nat} {x3 : Nat} {x4 : Bool} {x5 : State} (h5 : Kept s0 x5) : Kept s0 (dirClaim x0 x1 x2 x3 x4 x5).2.2.2 := by
  unfold dirClaim
  repeat' first
    | with_reducible assumption | intro _ | (simp only [kept_mk]; with_reducible apply keptC_upd)
    | with_reducible apply kept_ite_st | with_reducible apply kept_promoteBody | with_reducible apply kept_setDir
    | with_reducible apply kept_sendSwl | with_reducible apply kept_ite | with_reducible apply kept_ite_snd | split | dsimp only
    | with_reducible exact Kept.refl _

theorem kept_dirActivate {x0 : Nat} {x1 : Nat} {x2 : Nat} {x3 : Nat} {x4 : State} (h4 : Kept s0 x4) : Kept s0 (dirActivate x0 x1 x2 x3 x4) := by
  unfold dirActivate
  repeat' first
    | with_reducible assumption | intro _ | (simp only [kept_mk]; with_reducible apply keptC_upd)
    | with_reducible apply kept_bindGen | with_reducible apply kept_tellImage | with_reducible apply kept_setDir
    | with_reducible apply kept_leaveImage | with_reducible apply kept_ite | with_reducible apply kept_getD | split
    | dsimp only | with_reducible exact Kept.refl _

theorem kept_dirPark {x0 : Nat} {x1 : Nat} {x2 : Bytes} {x3 : State} (h3 : Kept s0 x3) : Kept s0 (dirPark x0 x1 x2 x3) := by
  unfold dirPark
  repeat' first
    | with_reducible assumption | intro _ | (simp only [kept_mk]; with_reducible apply keptC_upd)
    | with_reducible apply kept_bindGen | with_reducible apply kept_setDir | with_reducible apply kept_ite
    | with_reducible apply kept_getD | split | dsimp only | with_reducible exact Kept.refl _

theorem kept_retireNow {x0 : Nat} {x1 : State} (h1 : Kept s0 x1) : Kept s0 (retireNow x0 x1) := by
  unfold retireNow
  repeat' first
    | with_reducible assumption | intro _ | (simp only [kept_mk]; with_reducible apply keptC_upd)
    | with_reducible apply kept_endFops | with_reducible apply kept_maskRow | with_reducible apply kept_retireActive
    | with_reducible apply kept_retireParked | with_reducible apply kept_ite | split | dsimp only
    | with_reducible exact Kept.refl _

theorem kept_dirRetire {x0 : Nat} {x1 : State} (h1 : Kept s0 x1) : Kept s0 (dirRetire x0 x1) := by
  unfold dirRetire
  repeat' first
    | with_reducible assumption | intro _ | (simp only [kept_mk]; with_reducible apply keptC_upd)
    | with_reducible apply kept_retireNow | with_reducible apply kept_creditOut | with_reducible apply kept_releaseAll
    | with_reducible apply kept_ite | split | dsimp only | with_reducible exact Kept.refl _

theorem kept_dirRequest {x0 : Moment} {x1 : Nat} {x2 : Nat} {x3 : DirAccess} {x4 : State} (h4 : Kept s0 x4) : Kept s0 (dirRequest x0 x1 x2 x3 x4) := by
  unfold dirRequest
  repeat' first
    | with_reducible assumption | intro _ | (simp only [kept_mk]; with_reducible apply keptC_upd)
    | with_reducible apply kept_dirRetire | with_reducible apply kept_modDir | with_reducible apply kept_dirPark
    | with_reducible apply kept_sendSwl | with_reducible apply kept_dirActivate | with_reducible apply kept_setDir
    | with_reducible apply kept_dirClaim | with_reducible apply kept_releaseFrames
    | with_reducible apply kept_cancelRunAhead | with_reducible apply kept_ite | with_reducible apply kept_getD
    | with_reducible refine kept_of_snd3 (by assumption) ?_ | split | dsimp only | with_reducible exact Kept.refl _

theorem kept_execSwlDirRequest {x0 : Moment} {x1 : Nat} {x2 : Nat} {x3 : DirAccess} {x4 : State} (h4 : Kept s0 x4) : KeptOut s0 (execSwlDirRequest x0 x1 x2 x3 x4) := by
  unfold execSwlDirRequest
  repeat' first
    | with_reducible assumption | intro _ | (simp only [kept_mk]; with_reducible apply keptC_upd)
    | with_reducible apply keptOut_next | with_reducible apply keptOut_ite | with_reducible apply kept_State_at
    | with_reducible apply kept_settleAll | with_reducible apply kept_dirRequest | with_reducible apply kept_swlGot
    | with_reducible apply kept_ite | split | dsimp only | with_reducible exact Kept.refl _

theorem kept_swlAnswer {x0 : SwlWait} {x1 : Nat} {x2 : Nat} {x3 : Bytes} {x4 : State} (h4 : Kept s0 x4) : Kept s0 (swlAnswer x0 x1 x2 x3 x4) := by
  unfold swlAnswer
  repeat' first
    | with_reducible assumption | intro _ | (simp only [kept_mk]; with_reducible apply keptC_upd)
    | with_reducible apply kept_reply_ok | with_reducible apply kept_reply_err | with_reducible apply kept_ite_st
    | with_reducible apply kept_endReply | with_reducible apply kept_replyData | with_reducible apply kept_endOp
    | with_reducible apply kept_numberAnswer | with_reducible apply kept_claimAnswer | with_reducible apply kept_migrateFail
    | with_reducible apply kept_answer | with_reducible apply kept_note | with_reducible apply kept_ite | split | dsimp only
    | with_reducible exact Kept.refl _

theorem kept_execSwlResponse {x0 : Moment} {x1 : Nat} {x2 : Nat} {x3 : Nat} {x4 : Bytes} {x5 : State} (h5 : Kept s0 x5) : KeptOut s0 (execSwlResponse x0 x1 x2 x3 x4 x5) := by
  unfold execSwlResponse
  repeat' first
    | with_reducible assumption | (simp only [kept_mk]; with_reducible apply keptC_upd) | with_reducible apply keptOut_next
    | with_reducible apply kept_State_at | with_reducible apply kept_swlGot | with_reducible apply kept_settleAll
    | with_reducible apply kept_swlAnswer | split | dsimp only | with_reducible exact Kept.refl _

theorem kept_execSwlBulkData {x0 : Moment} {x1 : Nat} {x2 : Nat} {x3 : Bytes} {x4 : State} (h4 : Kept s0 x4) : KeptOut s0 (execSwlBulkData x0 x1 x2 x3 x4) := by
  unfold execSwlBulkData
  repeat' first
    | with_reducible assumption | intro _ | (simp only [kept_mk]; with_reducible apply keptC_upd)
    | with_reducible apply kept_reply_ok | with_reducible apply kept_reply_err | with_reducible apply kept_reply_wait
    | with_reducible apply kept_ite_st | with_reducible apply keptOut_next | with_reducible apply keptOut_ite
    | with_reducible apply kept_failDesc | with_reducible apply kept_swlGot | with_reducible apply kept_State_at
    | with_reducible apply kept_sourceIn | with_reducible apply kept_ite
    | with_reducible refine kept_of_ok (by assumption) ?_ | split | dsimp only | with_reducible exact Kept.refl _

theorem kept_bodySwlQuery {x0 : Moment} {x1 : Req} {x2 : State} (h2 : Kept s0 x2) : Kept s0 (bodySwlQuery x0 x1 x2).st := by
  unfold bodySwlQuery
  repeat' first
    | with_reducible assumption | intro _ | with_reducible apply kept_reply_ok | with_reducible apply kept_reply_err
    | with_reducible apply kept_ite_st | with_reducible apply kept_ite | dsimp only | with_reducible exact Kept.refl _

theorem kept_execSwlQuery {x0 : Moment} {x1 : Req} {x2 : State} (h2 : Kept s0 x2) : KeptOut s0 (execSwlQuery x0 x1 x2) := by
  unfold execSwlQuery
  repeat' first
    | with_reducible assumption | with_reducible apply keptOut_next | with_reducible apply kept_runCommand
    | with_reducible apply kept_bodySwlQuery | dsimp only | with_reducible exact Kept.refl _

theorem kept_bodySwlLinkSet {x0 : Moment} {x1 : Req} {x2 : State} (h2 : Kept s0 x2) : Kept s0 (bodySwlLinkSet x0 x1 x2).st := by
  unfold bodySwlLinkSet
  repeat' first
    | with_reducible assumption | intro _ | (simp only [kept_mk]; with_reducible apply keptC_upd)
    | with_reducible apply kept_reply_ok | with_reducible apply kept_reply_err | with_reducible apply kept_ite_st
    | with_reducible apply kept_startTraining | with_reducible apply kept_retrain | with_reducible apply kept_disableLink
    | with_reducible apply kept_ite | split | dsimp only | with_reducible exact Kept.refl _

theorem kept_execSwlLinkSet {x0 : Moment} {x1 : Req} {x2 : State} (h2 : Kept s0 x2) : KeptOut s0 (execSwlLinkSet x0 x1 x2) := by
  unfold execSwlLinkSet
  repeat' first
    | with_reducible assumption | with_reducible apply keptOut_next | with_reducible apply kept_runSettled
    | with_reducible apply kept_bodySwlLinkSet | dsimp only | with_reducible exact Kept.refl _

end Sys2Proof.Machine
end

