-- ==== Sys2Proof/Laws/KeptTally.lean ====
section
/-! SUPPORT. What the definitions of Sys2Proof/Machine/Tally.lean keep. -/

set_option linter.unusedSimpArgs false

namespace Sys2Proof.Machine

variable {s0 : State}

theorem kept_breach {x0 : Nat} {x1 : Nat} {x2 : Nat} {x3 : Nat} {x4 : State} (h4 : Kept s0 x4) : Kept s0 (breach x0 x1 x2 x3 x4) := by
  unfold breach
  repeat' first
    | with_reducible assumption | intro _
    | (simp only [kept_mk]; first | with_reducible apply keptC_upd | refine keptC_updHmk ?_ (by first | exact Nat.le_refl _ | exact Nat.le_add_right _ _ | omega) (by exact Nat.le_refl _) (by rfl))
    | with_reducible apply kept_note | with_reducible apply kept_freeze | with_reducible apply kept_ite | dsimp only
    | with_reducible exact Kept.refl _

theorem kept_closeEpoch {x0 : State} (h0 : Kept s0 x0) : Kept s0 (closeEpoch x0) := by
  unfold closeEpoch
  repeat' first
    | with_reducible assumption | intro _ | (simp only [kept_mk]; with_reducible apply keptC_upd) | dsimp only
    | with_reducible exact Kept.refl _

theorem kept_placeMarkers {x0 : Nat} {x1 : Nat} {x2 : State} (h2 : Kept s0 x2) : Kept s0 (placeMarkers x0 x1 x2) := by
  unfold placeMarkers
  repeat' first
    | with_reducible assumption | intro _ | (simp only [kept_mk]; with_reducible apply keptC_upd)
    | with_reducible apply kept_emit | with_reducible apply kept_ite | with_reducible apply kept_foldl
    | with_reducible apply kept_foldl_snd | with_reducible apply kept_getD | dsimp only | with_reducible exact Kept.refl _

theorem kept_countAudit {x0 : State} (h0 : Kept s0 x0) : Kept s0 (countAudit x0) := by
  unfold countAudit
  repeat' first
    | with_reducible assumption | intro _ | (simp only [kept_mk]; with_reducible apply keptC_upd)
    | with_reducible apply kept_ite | split | dsimp only | with_reducible exact Kept.refl _

theorem kept_audit {x0 : Moment} {x1 : State} (h1 : Kept s0 x1) : Kept s0 (audit x0 x1) := by
  unfold audit
  repeat' first
    | with_reducible assumption | intro _ | (simp only [kept_mk]; with_reducible apply keptC_upd)
    | with_reducible apply kept_breach | with_reducible apply kept_placeMarkers | with_reducible apply kept_closeEpoch
    | with_reducible apply kept_note | with_reducible apply kept_ite | with_reducible apply kept_foldl
    | with_reducible apply kept_foldl_snd | with_reducible apply kept_getD | with_reducible apply kept_foldl_fst | dsimp only
    | with_reducible exact Kept.refl _

theorem kept_delayAudit {x0 : Nat} {x1 : State} (h1 : Kept s0 x1) : Kept s0 (delayAudit x0 x1) := by
  unfold delayAudit
  repeat' first
    | with_reducible assumption | intro _ | (simp only [kept_mk]; with_reducible apply keptC_upd)
    | with_reducible apply kept_note | split | dsimp only | with_reducible exact Kept.refl _

theorem kept_tallyAudit {x0 : Moment} {x1 : State} (h1 : Kept s0 x1) : Kept s0 (tallyAudit x0 x1) := by
  unfold tallyAudit
  repeat' first
    | with_reducible assumption | intro _ | (simp only [kept_mk]; with_reducible apply keptC_upd)
    | with_reducible apply kept_countAudit | with_reducible apply kept_delayAudit | with_reducible apply kept_audit
    | with_reducible apply kept_ite | split | dsimp only | with_reducible exact Kept.refl _

theorem kept_execTallyAudit {x0 : Moment} {x1 : State} (h1 : Kept s0 x1) : KeptOut s0 (execTallyAudit x0 x1) := by
  unfold execTallyAudit
  repeat' first
    | with_reducible assumption | intro _ | (simp only [kept_mk]; with_reducible apply keptC_upd)
    | with_reducible apply keptOut_next | with_reducible apply keptOut_ite | with_reducible apply kept_tallyAudit
    | with_reducible apply kept_State_at | split | dsimp only | with_reducible exact Kept.refl _

theorem kept_execSwlMarkerReceive {x0 : Moment} {x1 : Nat} {x2 : Nat} {x3 : Nat} {x4 : MarkerCounts} {x5 : State} (h5 : Kept s0 x5) : KeptOut s0 (execSwlMarkerReceive x0 x1 x2 x3 x4 x5) := by
  unfold execSwlMarkerReceive
  repeat' first
    | with_reducible assumption | intro _ | (simp only [kept_mk]; with_reducible apply keptC_upd)
    | with_reducible apply keptOut_next | with_reducible apply keptOut_ite | with_reducible apply kept_breach
    | with_reducible apply kept_State_at | with_reducible apply kept_ite | with_reducible apply kept_getD | split
    | dsimp only | with_reducible exact Kept.refl _

theorem kept_execSwlMarkerTimeout {x0 : Moment} {x1 : Nat} {x2 : Nat} {x3 : Nat} {x4 : State} (h4 : Kept s0 x4) : KeptOut s0 (execSwlMarkerTimeout x0 x1 x2 x3 x4) := by
  unfold execSwlMarkerTimeout
  repeat' first
    | with_reducible assumption | intro _ | (simp only [kept_mk]; with_reducible apply keptC_upd)
    | with_reducible apply keptOut_next | with_reducible apply keptOut_ite | with_reducible apply kept_State_at
    | with_reducible apply kept_breach | with_reducible apply kept_ite | dsimp only | with_reducible exact Kept.refl _

theorem kept_bodyTlyRead {x0 : Moment} {x1 : Req} {x2 : State} (h2 : Kept s0 x2) : Kept s0 (bodyTlyRead x0 x1 x2).st := by
  unfold bodyTlyRead
  repeat' first
    | with_reducible assumption | intro _ | with_reducible apply kept_reply_ok | with_reducible apply kept_reply_err
    | with_reducible apply kept_ite_st | with_reducible apply kept_ite | dsimp only | with_reducible exact Kept.refl _

theorem kept_execTlyRead {x0 : Moment} {x1 : Req} {x2 : State} (h2 : Kept s0 x2) : KeptOut s0 (execTlyRead x0 x1 x2) := by
  unfold execTlyRead
  repeat' first
    | with_reducible assumption | with_reducible apply keptOut_next | with_reducible apply kept_runCommand
    | with_reducible apply kept_bodyTlyRead | dsimp only | with_reducible exact Kept.refl _

theorem kept_bodyTlyEvidence {x0 : Moment} {x1 : Req} {x2 : State} (h2 : Kept s0 x2) : Kept s0 (bodyTlyEvidence x0 x1 x2).st := by
  unfold bodyTlyEvidence
  repeat' first
    | with_reducible assumption | intro _ | (simp only [kept_mk]; with_reducible apply keptC_upd)
    | with_reducible apply kept_reply_ok | with_reducible apply kept_reply_err | with_reducible apply kept_ite_st
    | with_reducible apply kept_replyData | with_reducible apply kept_ite | split | dsimp only
    | with_reducible exact Kept.refl _

theorem kept_execTlyEvidence {x0 : Moment} {x1 : Req} {x2 : State} (h2 : Kept s0 x2) : KeptOut s0 (execTlyEvidence x0 x1 x2) := by
  unfold execTlyEvidence
  repeat' first
    | with_reducible assumption | with_reducible apply keptOut_next | with_reducible apply kept_runCommand
    | with_reducible apply kept_bodyTlyEvidence | dsimp only | with_reducible exact Kept.refl _

theorem kept_bodyTlyConfig {x0 : Moment} {x1 : Req} {x2 : State} (h2 : Kept s0 x2) : Kept s0 (bodyTlyConfig x0 x1 x2).st := by
  unfold bodyTlyConfig
  repeat' first
    | with_reducible assumption | intro _
    | (simp only [kept_mk]; first | with_reducible apply keptC_upd | refine keptC_updHmk ?_ (by first | exact Nat.le_refl _ | exact Nat.le_add_right _ _ | omega) (by exact Nat.le_refl _) (by rfl))
    | with_reducible apply kept_reply_ok | with_reducible apply kept_reply_err | with_reducible apply kept_ite_st
    | with_reducible apply kept_ite | dsimp only | with_reducible exact Kept.refl _

theorem kept_execTlyConfig {x0 : Moment} {x1 : Req} {x2 : State} (h2 : Kept s0 x2) : KeptOut s0 (execTlyConfig x0 x1 x2) := by
  unfold execTlyConfig
  repeat' first
    | with_reducible assumption | with_reducible apply keptOut_next | with_reducible apply kept_runCommand
    | with_reducible apply kept_bodyTlyConfig | dsimp only | with_reducible exact Kept.refl _

end Sys2Proof.Machine
end

