-- ==== Sys2Proof/Laws/KeptTwin.lean ====
section
/-! SUPPORT. What the definitions of Sys2Proof/Machine/Twin.lean keep. -/

set_option linter.unusedSimpArgs false

namespace Sys2Proof.Machine

variable {s0 : State}

theorem kept_twinJoin {x0 : Req} {x1 : Nat} {x2 : State} (h2 : Kept s0 x2) : Kept s0 (twinJoin x0 x1 x2).st := by
  unfold twinJoin
  repeat' first
    | with_reducible assumption | intro _ | (simp only [kept_mk]; with_reducible apply keptC_upd)
    | with_reducible apply kept_reply_ok | with_reducible apply kept_reply_err | with_reducible apply kept_ite_st
    | with_reducible apply kept_note | with_reducible apply kept_ite | split | dsimp only | with_reducible exact Kept.refl _

theorem kept_bodyTwinSet {x0 : Moment} {x1 : Req} {x2 : State} (h2 : Kept s0 x2) : Kept s0 (bodyTwinSet x0 x1 x2).st := by
  unfold bodyTwinSet
  repeat' first
    | with_reducible assumption | intro _ | (simp only [kept_mk]; with_reducible apply keptC_upd)
    | with_reducible apply kept_reply_ok | with_reducible apply kept_reply_err | with_reducible apply kept_reply_wait
    | with_reducible apply kept_ite_st | with_reducible apply kept_twinJoin | with_reducible apply kept_swlAsk
    | with_reducible apply kept_ite | split | dsimp only | with_reducible exact Kept.refl _

theorem kept_execTwinSet {x0 : Moment} {x1 : Req} {x2 : State} (h2 : Kept s0 x2) : KeptOut s0 (execTwinSet x0 x1 x2) := by
  unfold execTwinSet
  repeat' first
    | with_reducible assumption | with_reducible apply keptOut_next | with_reducible apply kept_runCommand
    | with_reducible apply kept_bodyTwinSet | dsimp only | with_reducible exact Kept.refl _

theorem kept_retireShadows {x0 : Nat} {x1 : State} (h1 : Kept s0 x1) : Kept s0 (retireShadows x0 x1) := by
  unfold retireShadows
  repeat' first
    | with_reducible assumption | intro _ | (simp only [kept_mk]; with_reducible apply keptC_upd)
    | with_reducible apply kept_retireNow | with_reducible apply kept_foldl | with_reducible apply kept_foldl_snd
    | with_reducible apply kept_foldl_fst | dsimp only | with_reducible exact Kept.refl _

theorem kept_releaseAllSteps {x0 : Nat} {x1 : State} (h1 : Kept s0 x1) : Kept s0 (releaseAllSteps x0 x1).2 := by
  unfold releaseAllSteps
  repeat' first
    | with_reducible assumption | intro _ | (simp only [kept_mk]; with_reducible apply keptC_upd)
    | with_reducible apply kept_releaseStep | with_reducible apply kept_dropStep | with_reducible apply kept_modPair
    | with_reducible apply kept_bump | with_reducible apply kept_foldl | with_reducible apply kept_foldl_snd
    | with_reducible apply kept_foldl_fst | dsimp only | with_reducible exact Kept.refl _

theorem kept_twinEnd {x0 : Nat} {x1 : State} (h1 : Kept s0 x1) : Kept s0 (twinEnd x0 x1) := by
  unfold twinEnd
  repeat' first
    | with_reducible assumption | intro _ | (simp only [kept_mk]; with_reducible apply keptC_upd)
    | with_reducible apply kept_retireShadows | with_reducible apply kept_releaseAllSteps | with_reducible apply kept_ite
    | with_reducible refine kept_of_snd (by assumption) ?_ | split | dsimp only | with_reducible exact Kept.refl _

theorem kept_bodyTwinClear {x0 : Moment} {x1 : Req} {x2 : State} (h2 : Kept s0 x2) : Kept s0 (bodyTwinClear x0 x1 x2).st := by
  unfold bodyTwinClear
  repeat' first
    | with_reducible assumption | intro _ | (simp only [kept_mk]; with_reducible apply keptC_upd)
    | with_reducible apply kept_reply_ok | with_reducible apply kept_reply_err | with_reducible apply kept_ite_st
    | with_reducible apply kept_asOp | with_reducible apply kept_ite | split | dsimp only | with_reducible exact Kept.refl _

theorem kept_execTwinClear {x0 : Moment} {x1 : Req} {x2 : State} (h2 : Kept s0 x2) : KeptOut s0 (execTwinClear x0 x1 x2) := by
  unfold execTwinClear
  repeat' first
    | with_reducible assumption | with_reducible apply keptOut_next | with_reducible apply kept_runCommand
    | with_reducible apply kept_bodyTwinClear | dsimp only | with_reducible exact Kept.refl _

theorem kept_endTwinClear {x0 : Nat} {x1 : LongOp} {x2 : State} (h2 : Kept s0 x2) : Kept s0 (endTwinClear x0 x1 x2) := by
  unfold endTwinClear
  repeat' first
    | with_reducible assumption | intro _ | (simp only [kept_mk]; with_reducible apply keptC_upd)
    | with_reducible apply kept_endOp | with_reducible apply kept_sendSwl | with_reducible apply kept_twinEnd
    | with_reducible apply kept_ite | with_reducible apply kept_getD | split | dsimp only | with_reducible exact Kept.refl _

theorem kept_bodyTwinQuery {x0 : Moment} {x1 : Req} {x2 : State} (h2 : Kept s0 x2) : Kept s0 (bodyTwinQuery x0 x1 x2).st := by
  unfold bodyTwinQuery
  repeat' first
    | with_reducible assumption | intro _ | (simp only [kept_mk]; with_reducible apply keptC_upd)
    | with_reducible apply kept_reply_ok | with_reducible apply kept_reply_err | with_reducible apply kept_ite_st
    | with_reducible apply kept_ite | split | dsimp only | with_reducible exact Kept.refl _

theorem kept_execTwinQuery {x0 : Moment} {x1 : Req} {x2 : State} (h2 : Kept s0 x2) : KeptOut s0 (execTwinQuery x0 x1 x2) := by
  unfold execTwinQuery
  repeat' first
    | with_reducible assumption | with_reducible apply keptOut_next | with_reducible apply kept_runCommand
    | with_reducible apply kept_bodyTwinQuery | dsimp only | with_reducible exact Kept.refl _

theorem kept_execTwinGrant {x0 : Moment} {x1 : Nat} {x2 : Nat} {x3 : Nat} {x4 : State} (h4 : Kept s0 x4) : KeptOut s0 (execTwinGrant x0 x1 x2 x3 x4) := by
  unfold execTwinGrant
  repeat' first
    | with_reducible assumption | intro _ | (simp only [kept_mk]; with_reducible apply keptC_upd)
    | with_reducible apply keptOut_next | with_reducible apply keptOut_ite | with_reducible apply kept_State_at
    | with_reducible apply kept_swlGot | with_reducible apply kept_ite | split | dsimp only | with_reducible exact Kept.refl _

theorem kept_execTwinDigest {x0 : Moment} {x1 : Nat} {x2 : Nat} {x3 : Nat} {x4 : Nat} {x5 : State} (h5 : Kept s0 x5) : KeptOut s0 (execTwinDigest x0 x1 x2 x3 x4 x5) := by
  unfold execTwinDigest
  repeat' first
    | with_reducible assumption | intro _ | (simp only [kept_mk]; with_reducible apply keptC_upd)
    | with_reducible apply keptOut_next | with_reducible apply keptOut_ite | with_reducible apply kept_State_at
    | with_reducible apply kept_swlGot | with_reducible apply kept_settleAll | with_reducible apply kept_twinCompare
    | with_reducible apply kept_ite | split | dsimp only | with_reducible exact Kept.refl _

theorem kept_losePair {x0 : Nat} {x1 : Nat} {x2 : Pair} {x3 : State} (h3 : Kept s0 x3) : Kept s0 (losePair x0 x1 x2 x3) := by
  unfold losePair
  repeat' first
    | with_reducible assumption | intro _ | (simp only [kept_mk]; with_reducible apply keptC_upd)
    | with_reducible apply kept_twinFault | with_reducible apply kept_note | with_reducible apply kept_releaseAllSteps
    | with_reducible apply kept_sendSwl | with_reducible apply kept_modPair | with_reducible apply kept_ite
    | with_reducible apply kept_foldl | with_reducible apply kept_foldl_snd | with_reducible apply kept_foldl_fst
    | with_reducible apply keptO_foldl | with_reducible apply keptP_foldl | with_reducible apply keptE_foldl
    | with_reducible apply keptEP_foldl | with_reducible refine kept_of_snd (by assumption) ?_ | split | dsimp only
    | with_reducible exact Kept.refl _

theorem kept_hearLoss {x0 : Nat} {x1 : Nat} {x2 : State} (h2 : Kept s0 x2) : Kept s0 (hearLoss x0 x1 x2) := by
  unfold hearLoss
  repeat' first
    | with_reducible assumption | intro _ | (simp only [kept_mk]; with_reducible apply keptC_upd)
    | with_reducible apply kept_losePair | split | dsimp only | with_reducible exact Kept.refl _

theorem kept_execTwinDigestTimeout {x0 : Moment} {x1 : Nat} {x2 : State} (h2 : Kept s0 x2) : KeptOut s0 (execTwinDigestTimeout x0 x1 x2) := by
  unfold execTwinDigestTimeout
  repeat' first
    | with_reducible assumption | intro _ | (simp only [kept_mk]; with_reducible apply keptC_upd)
    | with_reducible apply keptOut_next | with_reducible apply keptOut_ite | with_reducible apply kept_State_at
    | with_reducible apply kept_settleAll | with_reducible apply kept_losePair | with_reducible apply kept_ite | split
    | dsimp only | with_reducible exact Kept.refl _

end Sys2Proof.Machine
end

