-- ==== Sys2Proof/Laws/KeptTenancy.lean ====
section
/-! SUPPORT. What the definitions of Sys2Proof/Machine/Tenancy.lean keep. -/

set_option linter.unusedSimpArgs false

namespace Sys2Proof.Machine

variable {s0 : State}

theorem kept_modPart {x0 : Nat} {x1 : Partition → Partition} {x2 : State} (h2 : Kept s0 x2) : Kept s0 (modPart x0 x1 x2) := by
  unfold modPart
  repeat' first
    | with_reducible assumption | with_reducible apply kept_setPart | dsimp only | with_reducible exact Kept.refl _

theorem kept_zeroGranules {x0 : Nat} {x1 : Nat} {x2 : State} (h2 : Kept s0 x2) : Kept s0 (zeroGranules x0 x1 x2) := by
  unfold zeroGranules
  refine kept_foldl h2 fun s a h => ?_
  exact ⟨h.pending, h.grade, h.counter, h.revoked, h.out, h.free, fun w => Mem.clear_wf _ _ (h.dev w), h.host⟩

theorem kept_makePart {x0 : Nat} {x1 : Partition} {x2 : Option Bytes} {x3 : State} (h3 : Kept s0 x3) : Kept s0 (makePart x0 x1 x2 x3) := by
  unfold makePart
  repeat' first
    | with_reducible assumption | intro _ | with_reducible apply kept_draw | with_reducible apply kept_setPart
    | with_reducible apply kept_ite | with_reducible refine kept_of_snd (by assumption) ?_ | split | dsimp only
    | with_reducible exact Kept.refl _

theorem kept_bodyHmkPartitionSet {x0 : Moment} {x1 : Req} {x2 : State} (h2 : Kept s0 x2) : Kept s0 (bodyHmkPartitionSet x0 x1 x2).st := by
  unfold bodyHmkPartitionSet
  repeat' first
    | with_reducible assumption | intro _ | (simp only [kept_mk]; with_reducible apply keptC_upd)
    | with_reducible apply kept_reply_ok | with_reducible apply kept_ite_st | with_reducible apply kept_checked
    | with_reducible apply kept_makePart | with_reducible apply kept_setPart | with_reducible apply kept_asOp
    | with_reducible apply kept_ite | with_reducible apply kept_getD | dsimp only | with_reducible exact Kept.refl _

theorem kept_execHmkPartitionSet {x0 : Moment} {x1 : Req} {x2 : State} (h2 : Kept s0 x2) : KeptOut s0 (execHmkPartitionSet x0 x1 x2) := by
  unfold execHmkPartitionSet
  repeat' first
    | with_reducible assumption | with_reducible apply keptOut_next | with_reducible apply kept_runCommand
    | with_reducible apply kept_bodyHmkPartitionSet | dsimp only | with_reducible exact Kept.refl _

theorem kept_endHmkPartitionSet {x0 : Nat} {x1 : LongOp} {x2 : State} (h2 : Kept s0 x2) : Kept s0 (endHmkPartitionSet x0 x1 x2) := by
  unfold endHmkPartitionSet
  repeat' first
    | with_reducible assumption | intro _
    | (simp only [kept_mk]; first | with_reducible apply keptC_upd | refine keptC_updHmk ?_ (by first | exact Nat.le_refl _ | exact Nat.le_add_right _ _ | omega) (by exact Nat.le_refl _) (by rfl))
    | with_reducible apply kept_endOp | with_reducible apply kept_setPart | with_reducible apply kept_zeroGranules
    | with_reducible apply kept_ite | with_reducible apply kept_foldl | with_reducible apply kept_foldl_snd
    | with_reducible apply kept_getD | dsimp only | with_reducible exact Kept.refl _

theorem kept_tdiFail {x0 : Nat} {x1 : Nat} {x2 : State} (h2 : Kept s0 x2) : Kept s0 (tdiFail x0 x1 x2) := by
  unfold tdiFail
  repeat' first
    | with_reducible assumption | intro _ | (simp only [kept_mk]; with_reducible apply keptC_upd)
    | with_reducible apply kept_note | with_reducible apply kept_modPart | dsimp only | with_reducible exact Kept.refl _

theorem kept_dropFnWork {x0 : Nat} {x1 : State} (h1 : Kept s0 x1) : Kept s0 (dropFnWork x0 x1) := by
  unfold dropFnWork
  repeat' first
    | with_reducible assumption | intro _ | (simp only [kept_mk]; with_reducible apply keptC_upd)
    | with_reducible apply kept_ite | split | dsimp only | with_reducible exact Kept.refl _

theorem kept_clearFunction {x0 : Nat} {x1 : State} (h1 : Kept s0 x1) : Kept s0 (clearFunction x0 x1) := by
  unfold clearFunction
  repeat' first
    | with_reducible assumption | intro _
    | (simp only [kept_mk]; first | with_reducible apply keptC_upd | refine keptC_updHmk ?_ (by first | exact Nat.le_refl _ | exact Nat.le_add_right _ _ | omega) (by exact Nat.le_refl _) (by rfl))
    | with_reducible apply kept_dropFnWork | with_reducible apply kept_setMbx | with_reducible apply kept_freeUnits
    | with_reducible apply kept_ite | with_reducible apply kept_foldl | with_reducible apply kept_foldl_snd
    | with_reducible apply kept_foldl_fst | dsimp only | with_reducible exact Kept.refl _

theorem kept_dropApertures {x0 : Nat} {x1 : State} (h1 : Kept s0 x1) : Kept s0 (dropApertures x0 x1) := by
  unfold dropApertures
  repeat' first
    | with_reducible assumption | intro _ | (simp only [kept_mk]; with_reducible apply keptC_upd)
    | with_reducible apply kept_setFn | dsimp only | with_reducible exact Kept.refl _

theorem kept_startTeardown {x0 : Nat} {x1 : Nat} {x2 : Bool} {x3 : State} (h3 : Kept s0 x3) : Kept s0 (startTeardown x0 x1 x2 x3) := by
  unfold startTeardown
  repeat' first
    | with_reducible assumption | intro _ | (simp only [kept_mk]; with_reducible apply keptC_upd)
    | with_reducible apply kept_dropApertures | with_reducible apply kept_clearFunction | with_reducible apply kept_modPart
    | dsimp only | with_reducible exact Kept.refl _

theorem kept_bodyHmkPartitionTeardown {x0 : Moment} {x1 : Req} {x2 : State} (h2 : Kept s0 x2) : Kept s0 (bodyHmkPartitionTeardown x0 x1 x2).st := by
  unfold bodyHmkPartitionTeardown
  repeat' first
    | with_reducible assumption | intro _ | with_reducible apply kept_reply_err | with_reducible apply kept_ite_st
    | with_reducible apply kept_asOp | with_reducible apply kept_startTeardown | with_reducible apply kept_tdiFail
    | with_reducible apply kept_ite | dsimp only | with_reducible exact Kept.refl _

theorem kept_execHmkPartitionTeardown {x0 : Moment} {x1 : Req} {x2 : State} (h2 : Kept s0 x2) : KeptOut s0 (execHmkPartitionTeardown x0 x1 x2) := by
  unfold execHmkPartitionTeardown
  repeat' first
    | with_reducible assumption | intro _ | (simp only [kept_mk]; with_reducible apply keptC_upd)
    | with_reducible apply keptOut_next | with_reducible apply keptOut_ite | with_reducible apply kept_runSettled
    | with_reducible apply kept_bodyHmkPartitionTeardown | split | dsimp only | with_reducible exact Kept.refl _

theorem kept_endTorn {x0 : Nat} {x1 : State} (h1 : Kept s0 x1) : Kept s0 (endTorn x0 x1) := by
  unfold endTorn
  repeat' first
    | with_reducible assumption | with_reducible apply kept_endOp | dsimp only | with_reducible exact Kept.refl _

theorem kept_tearSession {x0 : Nat} {x1 : State} (h1 : Kept s0 x1) : Kept s0 (tearSession x0 x1) := by
  unfold tearSession
  repeat' first
    | with_reducible assumption | intro _ | (simp only [kept_mk]; with_reducible apply keptC_upd)
    | with_reducible apply kept_retireNow | with_reducible apply kept_sendSwl | with_reducible apply kept_retireParked
    | with_reducible apply kept_releaseAll | with_reducible apply kept_modDir | with_reducible apply kept_ite | split
    | dsimp only | with_reducible exact Kept.refl _

theorem kept_tearGroup {x0 : Nat} {x1 : State} (h1 : Kept s0 x1) : Kept s0 (tearGroup x0 x1) := by
  unfold tearGroup
  repeat' first
    | with_reducible assumption | intro _ | (simp only [kept_mk]; with_reducible apply keptC_upd)
    | with_reducible apply kept_setGroupCk | with_reducible apply kept_endTorn | with_reducible apply kept_cutFail
    | with_reducible apply kept_dropCmds | with_reducible apply kept_ite | with_reducible apply kept_foldl
    | with_reducible apply kept_foldl_snd | split | dsimp only | with_reducible exact Kept.refl _

theorem kept_tearNet {x0 : Moment} {x1 : Nat} {x2 : State} (h2 : Kept s0 x2) : Kept s0 (tearNet x0 x1 x2) := by
  unfold tearNet
  repeat' first
    | with_reducible assumption | intro _
    | (simp only [kept_mk]; first | with_reducible apply keptC_upd | refine keptC_updHmk ?_ (by first | exact Nat.le_refl _ | exact Nat.le_add_right _ _ | omega) (by exact Nat.le_refl _) (by rfl))
    | with_reducible apply kept_freeChain | with_reducible apply kept_endTorn | with_reducible apply kept_delMapOp
    | with_reducible apply kept_nvmeLost | with_reducible apply kept_qpReset | with_reducible apply kept_ite
    | with_reducible apply kept_foldl | with_reducible apply kept_foldl_snd | with_reducible apply kept_getD
    | with_reducible apply kept_foldl_fst | dsimp only | with_reducible exact Kept.refl _

theorem kept_tearRing {x0 : Nat} {x1 : State} (h1 : Kept s0 x1) : Kept s0 (tearRing x0 x1) := by
  unfold tearRing
  repeat' first
    | with_reducible assumption | intro _ | (simp only [kept_mk]; with_reducible apply keptC_upd)
    | with_reducible apply kept_move | with_reducible apply kept_ite | split | dsimp only | with_reducible exact Kept.refl _

theorem kept_tearIndex {x0 : Nat} {x1 : State} (h1 : Kept s0 x1) : Kept s0 (tearIndex x0 x1) := by
  unfold tearIndex
  repeat' first
    | with_reducible assumption | intro _ | (simp only [kept_mk]; with_reducible apply keptC_upd)
    | with_reducible apply kept_endTorn | with_reducible apply kept_dropQuery | with_reducible apply kept_dropInserts | with_reducible apply kept_foldl
    | with_reducible apply kept_foldl_snd | with_reducible apply kept_getD | dsimp only | with_reducible exact Kept.refl _

theorem kept_tearClass {x0 : Nat} {x1 : State} (h1 : Kept s0 x1) : Kept s0 (tearClass x0 x1) := by
  unfold tearClass
  repeat' first
    | with_reducible assumption | (simp only [kept_mk]; with_reducible apply keptC_upd) | with_reducible apply kept_closeEarly
    | with_reducible apply kept_closeEnding | with_reducible apply kept_rollGauge | dsimp only
    | with_reducible exact Kept.refl _

theorem kept_tearModel {x0 : Nat} {x1 : State} (h1 : Kept s0 x1) : Kept s0 (tearModel x0 x1) := by
  unfold tearModel
  repeat' first
    | with_reducible assumption | intro _ | (simp only [kept_mk]; with_reducible apply keptC_upd)
    | with_reducible apply kept_dropInv | with_reducible apply kept_endTorn | with_reducible apply kept_ite
    | with_reducible apply kept_foldl | with_reducible apply kept_foldl_snd | with_reducible apply kept_foldl_fst | dsimp only
    | with_reducible exact Kept.refl _

theorem kept_tearPools {x0 : Nat} {x1 : State} (h1 : Kept s0 x1) : Kept s0 (tearPools x0 x1) := by
  unfold tearPools
  repeat' first
    | with_reducible assumption | intro _ | (simp only [kept_mk]; with_reducible apply keptC_upd)
    | with_reducible apply kept_putPool | with_reducible apply kept_foldl | with_reducible apply kept_foldl_snd | dsimp only
    | with_reducible exact Kept.refl _

theorem kept_tearOps {x0 : Nat} {x1 : State} (h1 : Kept s0 x1) : Kept s0 (tearOps x0 x1) := by
  unfold tearOps
  repeat' first
    | with_reducible assumption | intro _ | (simp only [kept_mk]; with_reducible apply keptC_upd)
    | with_reducible apply kept_endTorn | with_reducible apply kept_delFop | with_reducible apply kept_dropOld
    | with_reducible apply kept_dropFresh | with_reducible apply kept_dropDescs | with_reducible apply kept_foldl
    | with_reducible apply kept_foldl_snd | split | dsimp only | with_reducible exact Kept.refl _

theorem kept_tearPair {x0 : Nat} {x1 : State} (h1 : Kept s0 x1) : Kept s0 (tearPair x0 x1) := by
  unfold tearPair
  repeat' first
    | with_reducible assumption | intro _ | (simp only [kept_mk]; with_reducible apply keptC_upd)
    | with_reducible apply kept_sendSwl | with_reducible apply kept_twinEnd | with_reducible apply kept_ite | split | dsimp only
    | with_reducible exact Kept.refl _

theorem kept_tearRest {x0 : Nat} {x1 : State} (h1 : Kept s0 x1) : Kept s0 (tearRest x0 x1) := by
  unfold tearRest
  repeat' first
    | with_reducible assumption | intro _ | with_reducible apply kept_foldl | with_reducible apply kept_endTorn
    | dsimp only | with_reducible exact Kept.refl _

theorem kept_tearObjects {x0 : Moment} {x1 : Nat} {x2 : State} (h2 : Kept s0 x2) : Kept s0 (tearObjects x0 x1 x2) := by
  unfold tearObjects
  repeat' first
    | with_reducible assumption | intro _ | (simp only [kept_mk]; with_reducible apply keptC_upd)
    | with_reducible apply kept_tearPair | with_reducible apply kept_tearSession | with_reducible apply kept_tearOps
    | with_reducible apply kept_tearGroup | with_reducible apply kept_tearNet | with_reducible apply kept_tearRing
    | with_reducible apply kept_tearIndex | with_reducible apply kept_dropTable | with_reducible apply kept_endTorn
    | with_reducible apply kept_tearClass | with_reducible apply kept_tearModel | with_reducible apply kept_purgeNodes
    | with_reducible apply kept_dropGen | with_reducible apply kept_tearPools | with_reducible apply kept_tearRest | with_reducible apply kept_ite
    | with_reducible apply kept_foldl | with_reducible apply kept_foldl_snd | with_reducible apply kept_foldl_fst
    | with_reducible refine kept_of_snd (by assumption) ?_ | dsimp only | with_reducible exact Kept.refl _

theorem kept_tearOnChip {x0 : Nat} {x1 : State} (h1 : Kept s0 x1) : Kept s0 (tearOnChip x0 x1) := by
  unfold tearOnChip
  repeat' first
    | with_reducible assumption | intro _
    | (simp only [kept_mk]; first | with_reducible apply keptC_upd | refine keptC_updHmk ?_ (by first | exact Nat.le_refl _ | exact Nat.le_add_right _ _ | omega) (by exact Nat.le_refl _) (by rfl))
    | with_reducible apply kept_zeroGranules | with_reducible apply kept_setPart | with_reducible apply kept_progressOp
    | with_reducible apply kept_getD | dsimp only | with_reducible exact Kept.refl _

theorem kept_tearExternal {x0 : Nat} {x1 : State} (h1 : Kept s0 x1) : Kept s0 (tearExternal x0 x1) := by
  unfold tearExternal
  repeat' first
    | with_reducible assumption | intro _
    | (simp only [kept_mk]; first | with_reducible apply keptC_upd | refine keptC_updHmk ?_ (by first | exact Nat.le_refl _ | exact Nat.le_add_right _ _ | omega) (by exact Nat.le_refl _) (by rfl))
    | with_reducible apply kept_zeroGranules | with_reducible apply kept_note | with_reducible apply kept_makePart
    | with_reducible apply kept_setOp | with_reducible apply kept_endOp | with_reducible apply kept_ite | split | dsimp only
    | with_reducible exact Kept.refl _

theorem kept_execTeardownPhaseDone {x0 : Moment} {x1 : Nat} {x2 : State} (h2 : Kept s0 x2) : KeptOut s0 (execTeardownPhaseDone x0 x1 x2) := by
  unfold execTeardownPhaseDone
  repeat' first
    | with_reducible assumption | intro _ | (simp only [kept_mk]; with_reducible apply keptC_upd)
    | with_reducible apply keptOut_next | with_reducible apply keptOut_ite | with_reducible apply kept_State_at
    | with_reducible apply kept_powerWait | with_reducible apply kept_settleAll | with_reducible apply kept_phaseOp
    | with_reducible apply kept_modPart | with_reducible apply kept_tearObjects | with_reducible apply kept_tearOnChip
    | with_reducible apply kept_tearExternal | with_reducible apply kept_ite | split | dsimp only
    | with_reducible exact Kept.refl _

theorem kept_bodyHmkPartitionQuery {x0 : Moment} {x1 : Req} {x2 : State} (h2 : Kept s0 x2) : Kept s0 (bodyHmkPartitionQuery x0 x1 x2).st := by
  unfold bodyHmkPartitionQuery
  repeat' first
    | with_reducible assumption | intro _ | with_reducible apply kept_reply_ok | with_reducible apply kept_reply_err
    | with_reducible apply kept_ite_st | with_reducible apply kept_ite | dsimp only | with_reducible exact Kept.refl _

theorem kept_execHmkPartitionQuery {x0 : Moment} {x1 : Req} {x2 : State} (h2 : Kept s0 x2) : KeptOut s0 (execHmkPartitionQuery x0 x1 x2) := by
  unfold execHmkPartitionQuery
  repeat' first
    | with_reducible assumption | with_reducible apply keptOut_next | with_reducible apply kept_runCommand
    | with_reducible apply kept_bodyHmkPartitionQuery | dsimp only | with_reducible exact Kept.refl _

theorem kept_setKey {x0 : Nat} {x1 : Nat} {x2 : KeySlot} {x3 : State} (h3 : Kept s0 x3) : Kept s0 (setKey x0 x1 x2 x3) := by
  unfold setKey
  repeat' first
    | with_reducible assumption | intro _ | (simp only [kept_mk]; with_reducible apply keptC_upd)
    | with_reducible apply kept_modPart | dsimp only | with_reducible exact Kept.refl _

theorem kept_bodyHmkKeyLoad {x0 : Moment} {x1 : Req} {x2 : State} (h2 : Kept s0 x2) : Kept s0 (bodyHmkKeyLoad x0 x1 x2).st := by
  unfold bodyHmkKeyLoad
  repeat' first
    | with_reducible assumption | intro _ | (simp only [kept_mk]; with_reducible apply keptC_upd)
    | with_reducible apply kept_reply_ok | with_reducible apply kept_reply_err | with_reducible apply kept_ite_st
    | with_reducible apply kept_setKey | with_reducible apply kept_ite | split | dsimp only | with_reducible exact Kept.refl _

theorem kept_execHmkKeyLoad {x0 : Moment} {x1 : Req} {x2 : State} (h2 : Kept s0 x2) : KeptOut s0 (execHmkKeyLoad x0 x1 x2) := by
  unfold execHmkKeyLoad
  repeat' first
    | with_reducible assumption | with_reducible apply keptOut_next | with_reducible apply kept_runCommand
    | with_reducible apply kept_bodyHmkKeyLoad | dsimp only | with_reducible exact Kept.refl _

theorem kept_bodyHmkKeyDestroy {x0 : Moment} {x1 : Req} {x2 : State} (h2 : Kept s0 x2) : Kept s0 (bodyHmkKeyDestroy x0 x1 x2).st := by
  unfold bodyHmkKeyDestroy
  repeat' first
    | with_reducible assumption | intro _ | with_reducible apply kept_reply_ok | with_reducible apply kept_reply_err
    | with_reducible apply kept_ite_st | with_reducible apply kept_setKey | with_reducible apply kept_ite | dsimp only
    | with_reducible exact Kept.refl _

theorem kept_execHmkKeyDestroy {x0 : Moment} {x1 : Req} {x2 : State} (h2 : Kept s0 x2) : KeptOut s0 (execHmkKeyDestroy x0 x1 x2) := by
  unfold execHmkKeyDestroy
  repeat' first
    | with_reducible assumption | with_reducible apply keptOut_next | with_reducible apply kept_runCommand
    | with_reducible apply kept_bodyHmkKeyDestroy | dsimp only | with_reducible exact Kept.refl _

theorem kept_listOrHead {x0 : Req} {x1 : Bytes} {x2 : State} (h2 : Kept s0 x2) : Kept s0 (listOrHead x0 x1 x2).st := by
  unfold listOrHead
  repeat' first
    | with_reducible assumption | intro _ | with_reducible apply kept_reply_ok | with_reducible apply kept_ite_st
    | with_reducible apply kept_replyData | with_reducible apply kept_ite | dsimp only | with_reducible exact Kept.refl _

theorem kept_bodyHmkAttest {x0 : Moment} {x1 : Req} {x2 : State} (h2 : Kept s0 x2) : Kept s0 (bodyHmkAttest x0 x1 x2).st := by
  unfold bodyHmkAttest
  repeat' first
    | with_reducible assumption | intro _ | with_reducible apply kept_reply_err | with_reducible apply kept_ite_st
    | with_reducible apply kept_listOrHead | with_reducible apply kept_ite | dsimp only | with_reducible exact Kept.refl _

theorem kept_execHmkAttest {x0 : Moment} {x1 : Req} {x2 : State} (h2 : Kept s0 x2) : KeptOut s0 (execHmkAttest x0 x1 x2) := by
  unfold execHmkAttest
  repeat' first
    | with_reducible assumption | with_reducible apply keptOut_next | with_reducible apply kept_runCommand
    | with_reducible apply kept_bodyHmkAttest | dsimp only | with_reducible exact Kept.refl _

theorem kept_bodyHmkCertRead {x0 : Moment} {x1 : Req} {x2 : State} (h2 : Kept s0 x2) : Kept s0 (bodyHmkCertRead x0 x1 x2).st := by
  unfold bodyHmkCertRead
  repeat' first
    | with_reducible assumption | intro _ | with_reducible apply kept_reply_err | with_reducible apply kept_ite_st
    | with_reducible apply kept_listOrHead | with_reducible apply kept_ite | dsimp only | with_reducible exact Kept.refl _

theorem kept_execHmkCertRead {x0 : Moment} {x1 : Req} {x2 : State} (h2 : Kept s0 x2) : KeptOut s0 (execHmkCertRead x0 x1 x2) := by
  unfold execHmkCertRead
  repeat' first
    | with_reducible assumption | with_reducible apply keptOut_next | with_reducible apply kept_runCommand
    | with_reducible apply kept_bodyHmkCertRead | dsimp only | with_reducible exact Kept.refl _

theorem kept_bodyHmkRollbackCommit {x0 : Moment} {x1 : Req} {x2 : State} (h2 : Kept s0 x2) : Kept s0 (bodyHmkRollbackCommit x0 x1 x2).st := by
  unfold bodyHmkRollbackCommit
  split
  · exact h2
  · exact ⟨h2.pending, h2.grade, Nat.le_trans h2.counter (Nat.le_max_left _ _), h2.revoked, h2.out, h2.free, h2.dev, h2.host⟩

theorem kept_execHmkRollbackCommit {x0 : Moment} {x1 : Req} {x2 : State} (h2 : Kept s0 x2) : KeptOut s0 (execHmkRollbackCommit x0 x1 x2) := by
  unfold execHmkRollbackCommit
  repeat' first
    | with_reducible assumption | with_reducible apply keptOut_next | with_reducible apply kept_runCommand
    | with_reducible apply kept_bodyHmkRollbackCommit | dsimp only | with_reducible exact Kept.refl _

end Sys2Proof.Machine
end

