-- ==== Sys2Proof/Laws/KeptSpdm.lean ====
section
/-! SUPPORT. What the definitions of Sys2Proof/Machine/Spdm.lean keep. -/

set_option linter.unusedSimpArgs false

namespace Sys2Proof.Machine

variable {s0 : State}

theorem kept_spdmSay {x0 : Nat} {x1 : Nat} {x2 : Bytes} {x3 : State} (h3 : Kept s0 x3) : Kept s0 (spdmSay x0 x1 x2 x3) := by
  unfold spdmSay
  repeat' first
    | with_reducible assumption | with_reducible apply kept_emit | dsimp only | with_reducible exact Kept.refl _

theorem kept_spdmErr {x0 : Nat} {x1 : Nat} {x2 : State} (h2 : Kept s0 x2) : Kept s0 (spdmErr x0 x1 x2) := by
  unfold spdmErr
  repeat' first
    | with_reducible assumption | with_reducible apply kept_spdmSay | dsimp only | with_reducible exact Kept.refl _

theorem kept_onPath {x0 : Moment} {x1 : Nat} {x2 : State} {x3 : State → State} (h2 : Kept s0 x2) (h3 : ∀ y0, Kept s0 y0 → Kept s0 (x3 y0)) : KeptOut s0 (onPath x0 x1 x2 x3) := by
  unfold onPath
  repeat' first
    | with_reducible assumption | intro _ | with_reducible apply h3 | with_reducible apply keptOut_next
    | with_reducible apply keptOut_ite | with_reducible apply kept_State_at | with_reducible apply kept_ite | dsimp only
    | with_reducible exact Kept.refl _

theorem kept_setConn {x0 : Nat} {x1 : Nat} {x2 : State} (h2 : Kept s0 x2) : Kept s0 (setConn x0 x1 x2) := by
  unfold setConn
  repeat' first
    | with_reducible assumption
    | (simp only [kept_mk]; first | with_reducible apply keptC_upd | refine keptC_updHmk ?_ (by first | exact Nat.le_refl _ | exact Nat.le_add_right _ _ | omega) (by exact Nat.le_refl _) (by rfl))
    | dsimp only | with_reducible exact Kept.refl _

theorem kept_setSpdm {x0 : Nat} {x1 : SpdmSession} {x2 : State} (h2 : Kept s0 x2) : Kept s0 (setSpdm x0 x1 x2) := by
  unfold setSpdm
  repeat' first
    | with_reducible assumption
    | (simp only [kept_mk]; first | with_reducible apply keptC_upd | refine keptC_updHmk ?_ (by first | exact Nat.le_refl _ | exact Nat.le_add_right _ _ | omega) (by exact Nat.le_refl _) (by rfl))
    | dsimp only | with_reducible exact Kept.refl _

theorem kept_dropSpdm {x0 : Nat} {x1 : State} (h1 : Kept s0 x1) : Kept s0 (dropSpdm x0 x1) := by
  unfold dropSpdm
  repeat' first
    | with_reducible assumption
    | (simp only [kept_mk]; first | with_reducible apply keptC_upd | refine keptC_updHmk ?_ (by first | exact Nat.le_refl _ | exact Nat.le_add_right _ _ | omega) (by exact Nat.le_refl _) (by rfl))
    | dsimp only | with_reducible exact Kept.refl _

theorem kept_inSession {x0 : State} {x1 : Nat} {x2 : Nat} {x3 : State → State} {x4 : State → State} (h0 : Kept s0 x0) (h3 : ∀ y0, Kept s0 y0 → Kept s0 (x3 y0)) (h4 : ∀ y0, Kept s0 y0 → Kept s0 (x4 y0)) : Kept s0 (inSession x0 x1 x2 x3 x4) := by
  unfold inSession
  repeat' first
    | with_reducible assumption | intro _ | with_reducible apply h3 | with_reducible apply h4 | with_reducible apply kept_ite
    | dsimp only | with_reducible exact Kept.refl _

theorem kept_execGetVersion {x0 : Moment} {x1 : Nat} {x2 : State} (h2 : Kept s0 x2) : KeptOut s0 (execGetVersion x0 x1 x2) := by
  unfold execGetVersion
  repeat' first
    | with_reducible assumption | intro _ | with_reducible apply keptOut_next | with_reducible apply kept_onPath
    | with_reducible apply kept_spdmSay | with_reducible apply kept_setConn | dsimp only | with_reducible exact Kept.refl _

theorem kept_execGetCapabilities {x0 : Moment} {x1 : Nat} {x2 : State} (h2 : Kept s0 x2) : KeptOut s0 (execGetCapabilities x0 x1 x2) := by
  unfold execGetCapabilities
  repeat' first
    | with_reducible assumption | intro _ | with_reducible apply keptOut_next | with_reducible apply keptOut_ite
    | with_reducible apply kept_onPath | with_reducible apply kept_spdmErr | with_reducible apply kept_spdmSay
    | with_reducible apply kept_setConn | with_reducible apply kept_ite | dsimp only | with_reducible exact Kept.refl _

theorem kept_execNegotiateAlgorithms {x0 : Moment} {x1 : Nat} {x2 : Bool} {x3 : State} (h3 : Kept s0 x3) : KeptOut s0 (execNegotiateAlgorithms x0 x1 x2 x3) := by
  unfold execNegotiateAlgorithms
  repeat' first
    | with_reducible assumption | intro _ | with_reducible apply keptOut_next | with_reducible apply keptOut_ite
    | with_reducible apply kept_onPath | with_reducible apply kept_spdmErr | with_reducible apply kept_spdmSay
    | with_reducible apply kept_setConn | with_reducible apply kept_ite | dsimp only | with_reducible exact Kept.refl _

theorem kept_execGetDigests {x0 : Moment} {x1 : Nat} {x2 : Nat} {x3 : State} (h3 : Kept s0 x3) : KeptOut s0 (execGetDigests x0 x1 x2 x3) := by
  unfold execGetDigests
  repeat' first
    | with_reducible assumption | intro _ | (simp only [kept_mk]; with_reducible apply keptC_upd)
    | with_reducible apply keptOut_next | with_reducible apply kept_onPath | with_reducible apply kept_spdmErr
    | with_reducible apply kept_spdmSay | split | dsimp only | with_reducible exact Kept.refl _

theorem kept_execGetCertificate {x0 : Moment} {x1 : Nat} {x2 : Nat} {x3 : Nat} {x4 : Nat} {x5 : Nat} {x6 : State} (h6 : Kept s0 x6) : KeptOut s0 (execGetCertificate x0 x1 x2 x3 x4 x5 x6) := by
  unfold execGetCertificate
  repeat' first
    | with_reducible assumption | intro _ | (simp only [kept_mk]; with_reducible apply keptC_upd)
    | with_reducible apply keptOut_next | with_reducible apply keptOut_ite | with_reducible apply kept_onPath
    | with_reducible apply kept_spdmErr | with_reducible apply kept_spdmSay | with_reducible apply kept_ite | split | dsimp only
    | with_reducible exact Kept.refl _

theorem kept_execChallenge {x0 : Moment} {x1 : Nat} {x2 : Nat} {x3 : Nat} {x4 : Bytes} {x5 : State} (h5 : Kept s0 x5) : KeptOut s0 (execChallenge x0 x1 x2 x3 x4 x5) := by
  unfold execChallenge
  repeat' first
    | with_reducible assumption | intro _ | (simp only [kept_mk]; with_reducible apply keptC_upd)
    | with_reducible apply keptOut_next | with_reducible apply keptOut_ite | with_reducible apply kept_onPath
    | with_reducible apply kept_spdmErr | with_reducible apply kept_spdmSay | with_reducible apply kept_ite | split | dsimp only
    | with_reducible exact Kept.refl _

theorem kept_execGetMeasurements {x0 : Moment} {x1 : Nat} {x2 : Nat} {x3 : Nat} {x4 : Bool} {x5 : Bytes} {x6 : State} (h6 : Kept s0 x6) : KeptOut s0 (execGetMeasurements x0 x1 x2 x3 x4 x5 x6) := by
  unfold execGetMeasurements
  repeat' first
    | with_reducible assumption | intro _ | (simp only [kept_mk]; with_reducible apply keptC_upd)
    | with_reducible apply keptOut_next | with_reducible apply keptOut_ite | with_reducible apply kept_onPath
    | with_reducible apply kept_spdmErr | with_reducible apply kept_spdmSay | with_reducible apply kept_ite | split | dsimp only
    | with_reducible exact Kept.refl _

theorem kept_execKeyExchange {x0 : Moment} {x1 : Nat} {x2 : Nat} {x3 : Bytes} {x4 : State} (h4 : Kept s0 x4) : KeptOut s0 (execKeyExchange x0 x1 x2 x3 x4) := by
  unfold execKeyExchange
  repeat' first
    | with_reducible assumption | intro _
    | (simp only [kept_mk]; first | with_reducible apply keptC_upd | refine keptC_updHmk ?_ (by first | exact Nat.le_refl _ | exact Nat.le_add_right _ _ | omega) (by exact Nat.le_refl _) (by rfl))
    | with_reducible apply keptOut_next | with_reducible apply keptOut_ite | with_reducible apply kept_onPath
    | with_reducible apply kept_spdmErr | with_reducible apply kept_setSpdm | with_reducible apply kept_spdmSay
    | with_reducible apply kept_ite | split | dsimp only | with_reducible exact Kept.refl _

theorem kept_execFinish {x0 : Moment} {x1 : Nat} {x2 : Nat} {x3 : Bytes} {x4 : State} (h4 : Kept s0 x4) : KeptOut s0 (execFinish x0 x1 x2 x3 x4) := by
  unfold execFinish
  repeat' first
    | with_reducible assumption | intro _ | (simp only [kept_mk]; with_reducible apply keptC_upd)
    | with_reducible apply keptOut_next | with_reducible apply keptOut_ite | with_reducible apply kept_onPath
    | with_reducible apply kept_spdmErr | with_reducible apply kept_spdmSay | with_reducible apply kept_setSpdm
    | with_reducible apply kept_dropSpdm | with_reducible apply kept_ite | split | dsimp only | with_reducible exact Kept.refl _

theorem kept_execHeartbeat {x0 : Moment} {x1 : Nat} {x2 : Nat} {x3 : State} (h3 : Kept s0 x3) : KeptOut s0 (execHeartbeat x0 x1 x2 x3) := by
  unfold execHeartbeat
  repeat' first
    | with_reducible assumption | intro _ | (simp only [kept_mk]; with_reducible apply keptC_upd)
    | with_reducible apply keptOut_next | with_reducible apply kept_onPath | with_reducible apply kept_spdmErr
    | with_reducible apply kept_spdmSay | with_reducible apply kept_setSpdm | split | dsimp only
    | with_reducible exact Kept.refl _

theorem kept_execKeyUpdate {x0 : Moment} {x1 : Nat} {x2 : Nat} {x3 : Nat} {x4 : Nat} {x5 : State} (h5 : Kept s0 x5) : KeptOut s0 (execKeyUpdate x0 x1 x2 x3 x4 x5) := by
  unfold execKeyUpdate
  repeat' first
    | with_reducible assumption | intro _ | (simp only [kept_mk]; with_reducible apply keptC_upd)
    | with_reducible apply keptOut_next | with_reducible apply keptOut_ite | with_reducible apply kept_onPath
    | with_reducible apply kept_spdmErr | with_reducible apply kept_spdmSay | with_reducible apply kept_setSpdm
    | with_reducible apply kept_ite | split | dsimp only | with_reducible exact Kept.refl _

theorem kept_execEndSession {x0 : Moment} {x1 : Nat} {x2 : Nat} {x3 : State} (h3 : Kept s0 x3) : KeptOut s0 (execEndSession x0 x1 x2 x3) := by
  unfold execEndSession
  repeat' first
    | with_reducible assumption | intro _ | (simp only [kept_mk]; with_reducible apply keptC_upd)
    | with_reducible apply keptOut_next | with_reducible apply kept_onPath | with_reducible apply kept_spdmErr
    | with_reducible apply kept_spdmSay | with_reducible apply kept_dropSpdm | split | dsimp only
    | with_reducible exact Kept.refl _

theorem kept_execDoeDiscovery {x0 : Moment} {x1 : Nat} {x2 : Nat} {x3 : State} (h3 : Kept s0 x3) : KeptOut s0 (execDoeDiscovery x0 x1 x2 x3) := by
  unfold execDoeDiscovery
  repeat' first
    | with_reducible assumption | intro _ | with_reducible apply keptOut_next | with_reducible apply keptOut_ite
    | with_reducible apply kept_onPath | with_reducible apply kept_spdmSay | with_reducible apply kept_ite | dsimp only
    | with_reducible exact Kept.refl _

theorem kept_execAttestDual {x0 : Moment} {x1 : Nat} {x2 : Nat} {x3 : Nat} {x4 : Bytes} {x5 : State} (h5 : Kept s0 x5) : KeptOut s0 (execAttestDual x0 x1 x2 x3 x4 x5) := by
  unfold execAttestDual
  repeat' first
    | with_reducible assumption | intro _ | (simp only [kept_mk]; with_reducible apply keptC_upd)
    | with_reducible apply keptOut_next | with_reducible apply keptOut_ite | with_reducible apply kept_onPath
    | with_reducible apply kept_spdmErr | with_reducible apply kept_spdmSay | with_reducible apply kept_ite | split | dsimp only
    | with_reducible exact Kept.refl _

theorem kept_execKekSet {x0 : Moment} {x1 : Nat} {x2 : Nat} {x3 : Bytes} {x4 : State} (h4 : Kept s0 x4) : KeptOut s0 (execKekSet x0 x1 x2 x3 x4) := by
  unfold execKekSet
  repeat' first
    | with_reducible assumption | intro _ | (simp only [kept_mk]; with_reducible apply keptC_upd)
    | with_reducible apply keptOut_next | with_reducible apply keptOut_ite | with_reducible apply kept_onPath
    | with_reducible apply kept_inSession | with_reducible apply kept_spdmErr | with_reducible apply kept_spdmSay
    | with_reducible apply kept_setPart | with_reducible apply kept_ite | dsimp only | with_reducible exact Kept.refl _

theorem kept_ideStep {x0 : State} {x1 : IdeKm} (h0 : Kept s0 x0) : KeptO s0 (ideStep x0 x1) := by
  unfold ideStep
  repeat' first
    | with_reducible assumption | intro _
    | (simp only [kept_mk]; first | with_reducible apply keptC_upd | refine keptC_updHmk ?_ (by first | exact Nat.le_refl _ | exact Nat.le_add_right _ _ | omega) (by exact Nat.le_refl _) (by rfl))
    | with_reducible apply kept_ite | with_reducible apply keptO_ite | with_reducible exact kept_of_hypO ‹_›
    | with_reducible apply keptO_some | with_reducible apply keptO_none | split | dsimp only | with_reducible exact Kept.refl _

theorem kept_execIdeKmMessage {x0 : Moment} {x1 : Nat} {x2 : Nat} {x3 : IdeKm} {x4 : State} (h4 : Kept s0 x4) : KeptOut s0 (execIdeKmMessage x0 x1 x2 x3 x4) := by
  unfold execIdeKmMessage
  repeat' first
    | with_reducible assumption | intro _ | (simp only [kept_mk]; with_reducible apply keptC_upd)
    | with_reducible apply keptOut_next | with_reducible apply keptOut_ite | with_reducible apply kept_onPath
    | with_reducible apply kept_spdmErr | with_reducible apply kept_inSession | with_reducible apply kept_ideStep
    | with_reducible apply kept_spdmSay | with_reducible apply kept_ite | with_reducible apply keptO_ite
    | with_reducible exact kept_of_hypO ‹_› | with_reducible apply keptO_some | with_reducible apply keptO_none
    | with_reducible apply keptP_ite | with_reducible exact kept_of_hypP ‹_› | with_reducible apply keptP_some
    | with_reducible apply keptP_none | with_reducible apply keptE_ite | with_reducible exact kept_of_hypE ‹_›
    | with_reducible apply keptEP_ite | with_reducible exact kept_of_hypEP ‹_› | with_reducible apply keptEE_ite
    | with_reducible refine kept_of_ok (by assumption) ?_ | with_reducible refine kept_of_error (by assumption) ?_
    | with_reducible refine kept_of_okP (by assumption) ?_ | with_reducible refine kept_of_some (by assumption) ?_
    | with_reducible refine kept_of_someP (by assumption) ?_ | with_reducible refine kept_of_fst (by assumption) ?_
    | with_reducible refine kept_of_snd (by assumption) ?_ | with_reducible refine kept_of_snd2 (by assumption) ?_
    | with_reducible refine kept_of_snd3 (by assumption) ?_ | with_reducible refine keptP_of_snd (by assumption) ?_ | split
    | dsimp only | with_reducible exact Kept.refl _

theorem kept_tdispSay {x0 : Nat} {x1 : Nat} {x2 : Bytes} {x3 : State} (h3 : Kept s0 x3) : Kept s0 (tdispSay x0 x1 x2 x3) := by
  unfold tdispSay
  repeat' first
    | with_reducible assumption | with_reducible apply kept_spdmSay | dsimp only | with_reducible exact Kept.refl _

theorem kept_tdispErr {x0 : Nat} {x1 : Nat} {x2 : State} (h2 : Kept s0 x2) : Kept s0 (tdispErr x0 x1 x2) := by
  unfold tdispErr
  repeat' first
    | with_reducible assumption | with_reducible apply kept_tdispSay | dsimp only | with_reducible exact Kept.refl _

theorem kept_onTdi {x0 : Moment} {x1 : Nat} {x2 : Nat} {x3 : Nat} {x4 : State} {x5 : Nat → Partition → State → State} (h4 : Kept s0 x4) (h5 : ∀ y0 y1 y2, Kept s0 y2 → Kept s0 (x5 y0 y1 y2)) : KeptOut s0 (onTdi x0 x1 x2 x3 x4 x5) := by
  unfold onTdi
  repeat' first
    | with_reducible assumption | intro _ | with_reducible apply h5 | with_reducible apply keptOut_next
    | with_reducible apply keptOut_ite | with_reducible apply kept_onPath | with_reducible apply kept_spdmErr
    | with_reducible apply kept_inSession | with_reducible apply kept_tdispErr | with_reducible apply kept_ite | dsimp only
    | with_reducible exact Kept.refl _

theorem kept_execLockInterfaceRequest {x0 : Moment} {x1 : Nat} {x2 : Nat} {x3 : Nat} {x4 : State} (h4 : Kept s0 x4) : KeptOut s0 (execLockInterfaceRequest x0 x1 x2 x3 x4) := by
  unfold execLockInterfaceRequest
  repeat' first
    | with_reducible assumption | intro _ | (simp only [kept_mk]; with_reducible apply keptC_upd)
    | with_reducible apply keptOut_next | with_reducible apply keptOut_ite | with_reducible apply kept_onTdi
    | with_reducible apply kept_tdispErr | with_reducible apply kept_tdispSay | with_reducible apply kept_dropApertures
    | with_reducible apply kept_setPart | with_reducible apply kept_ite | dsimp only | with_reducible exact Kept.refl _

theorem kept_execStartInterfaceRequest {x0 : Moment} {x1 : Nat} {x2 : Nat} {x3 : Nat} {x4 : State} (h4 : Kept s0 x4) : KeptOut s0 (execStartInterfaceRequest x0 x1 x2 x3 x4) := by
  unfold execStartInterfaceRequest
  repeat' first
    | with_reducible assumption | intro _ | (simp only [kept_mk]; with_reducible apply keptC_upd)
    | with_reducible apply keptOut_next | with_reducible apply keptOut_ite | with_reducible apply kept_onTdi
    | with_reducible apply kept_tdispErr | with_reducible apply kept_tdispSay | with_reducible apply kept_setPart
    | with_reducible apply kept_ite | dsimp only | with_reducible exact Kept.refl _

theorem kept_execStopInterfaceRequest {x0 : Moment} {x1 : Nat} {x2 : Nat} {x3 : Nat} {x4 : State} (h4 : Kept s0 x4) : KeptOut s0 (execStopInterfaceRequest x0 x1 x2 x3 x4) := by
  unfold execStopInterfaceRequest
  repeat' first
    | with_reducible assumption | intro _ | with_reducible apply keptOut_next | with_reducible apply keptOut_ite
    | with_reducible apply kept_onTdi | with_reducible apply kept_tdispSay | with_reducible apply kept_startTeardown
    | with_reducible apply kept_tdispErr | with_reducible apply kept_ite | dsimp only | with_reducible exact Kept.refl _

theorem kept_execIdeIntegrityFailure {x0 : Moment} {x1 : Nat} {x2 : Bool} {x3 : State} (h3 : Kept s0 x3) : KeptOut s0 (execIdeIntegrityFailure x0 x1 x2 x3) := by
  unfold execIdeIntegrityFailure
  repeat' first
    | with_reducible assumption | intro _
    | (simp only [kept_mk]; first | with_reducible apply keptC_upd | refine keptC_updHmk ?_ (by first | exact Nat.le_refl _ | exact Nat.le_add_right _ _ | omega) (by exact Nat.le_refl _) (by rfl))
    | with_reducible apply keptOut_next | with_reducible apply keptOut_ite | with_reducible apply kept_State_at
    | with_reducible apply kept_tdiFail | with_reducible apply kept_ite | dsimp only | with_reducible exact Kept.refl _

end Sys2Proof.Machine
end

