-- ==== Sys2Proof/Laws/KeptPowerGroups.lean ====
section
/-! SUPPORT. What the definitions of Sys2Proof/Machine/PowerGroups.lean keep. -/

set_option linter.unusedSimpArgs false

namespace Sys2Proof.Machine

variable {s0 : State}

theorem kept_setGroup {x0 : Nat} {x1 : Group} {x2 : State} (h2 : Kept s0 x2) : Kept s0 (setGroup x0 x1 x2) := by
  unfold setGroup
  repeat' first
    | with_reducible assumption | (simp only [kept_mk]; with_reducible apply keptC_upd) | dsimp only
    | with_reducible exact Kept.refl _

theorem kept_modGroup {x0 : Nat} {x1 : Group → Group} {x2 : State} (h2 : Kept s0 x2) : Kept s0 (modGroup x0 x1 x2) := by
  unfold modGroup
  repeat' first
    | with_reducible assumption | with_reducible apply kept_setGroup | dsimp only | with_reducible exact Kept.refl _

theorem kept_pwrProgress {x0 : Nat} {x1 : State} (h1 : Kept s0 x1) : Kept s0 (pwrProgress x0 x1) := by
  unfold pwrProgress
  repeat' first
    | with_reducible assumption | intro _ | (simp only [kept_mk]; with_reducible apply keptC_upd)
    | with_reducible apply kept_endOp | with_reducible apply kept_phaseOp | with_reducible apply kept_ite
    | with_reducible apply kept_foldl | with_reducible apply kept_foldl_snd | with_reducible apply kept_getD | split
    | dsimp only | with_reducible exact Kept.refl _

theorem kept_leaveHeld {x0 : Nat} {x1 : Nat} {x2 : State} (h2 : Kept s0 x2) : Kept s0 (leaveHeld x0 x1 x2) := by
  induction x1 generalizing x0 x2 with
  | zero =>
    unfold leaveHeld
    repeat' first
      | with_reducible assumption | intro _ | (simp only [kept_mk]; with_reducible apply keptC_upd)
      | with_reducible apply kept_pwrProgress | with_reducible apply kept_setGroup | with_reducible apply kept_ite | split
      | dsimp only | with_reducible exact Kept.refl _
  | succ n ih =>
    unfold leaveHeld
    repeat' first
      | with_reducible apply ih
      | with_reducible assumption | intro _ | (simp only [kept_mk]; with_reducible apply keptC_upd)
      | with_reducible apply kept_pwrProgress | with_reducible apply kept_setGroup | with_reducible apply kept_ite | split
      | dsimp only | with_reducible exact Kept.refl _

theorem kept_addTrans {x0 : Nat} {x1 : Option Nat} {x2 : Option Nat} {x3 : Nat} {x4 : State} (h4 : Kept s0 x4) : Kept s0 (addTrans x0 x1 x2 x3 x4) := by
  unfold addTrans
  repeat' first
    | with_reducible assumption | intro _ | (simp only [kept_mk]; with_reducible apply keptC_upd)
    | with_reducible apply kept_setArgs | with_reducible apply kept_setGroup | with_reducible apply kept_ite | dsimp only
    | with_reducible exact Kept.refl _

theorem kept_bodyPwrSet {x0 : Moment} {x1 : Req} {x2 : State} (h2 : Kept s0 x2) : Kept s0 (bodyPwrSet x0 x1 x2).st := by
  unfold bodyPwrSet
  repeat' first
    | with_reducible assumption | intro _ | with_reducible apply kept_ite_st | with_reducible apply kept_checked
    | with_reducible apply kept_asOp | with_reducible apply kept_addTrans | with_reducible apply kept_pwrProgress
    | with_reducible apply kept_leaveHeld | with_reducible apply kept_ite | with_reducible apply kept_foldl
    | with_reducible apply kept_foldl_snd | dsimp only | with_reducible exact Kept.refl _

theorem kept_execPwrSet {x0 : Moment} {x1 : Req} {x2 : State} (h2 : Kept s0 x2) : KeptOut s0 (execPwrSet x0 x1 x2) := by
  unfold execPwrSet
  repeat' first
    | with_reducible assumption | intro _ | (simp only [kept_mk]; with_reducible apply keptC_upd)
    | with_reducible apply keptOut_next | with_reducible apply keptOut_ite | with_reducible apply kept_bodyPwrSet
    | with_reducible apply kept_runSettled | split | dsimp only | with_reducible exact Kept.refl _

theorem kept_groupSave {x0 : Nat} {x1 : State} (h1 : Kept s0 x1) : Kept s0 (groupSave x0 x1) := by
  unfold groupSave
  repeat' first
    | with_reducible assumption | intro _ | (simp only [kept_mk]; with_reducible apply keptC_upd)
    | with_reducible apply kept_modGroup | with_reducible apply kept_ite | dsimp only | with_reducible exact Kept.refl _

theorem kept_groupScrub {x0 : Nat} {x1 : State} (h1 : Kept s0 x1) : Kept s0 (groupScrub x0 x1) := by
  unfold groupScrub
  repeat' first
    | with_reducible assumption | intro _ | with_reducible apply kept_zeroGranules | with_reducible apply kept_ite | dsimp only
    | with_reducible exact Kept.refl _

theorem kept_portDown {x0 : Moment} {x1 : Nat} {x2 : State} (h2 : Kept s0 x2) : Kept s0 (portDown x0 x1 x2) := by
  unfold portDown
  repeat' first
    | with_reducible assumption | intro _ | (simp only [kept_mk]; with_reducible apply keptC_upd)
    | with_reducible apply kept_noteLink | with_reducible apply kept_setPort | with_reducible apply kept_failDownQps
    | with_reducible apply kept_foldl | with_reducible apply kept_foldl_snd | dsimp only | with_reducible exact Kept.refl _

theorem kept_groupChanged {x0 : Moment} {x1 : Nat} {x2 : Nat} {x3 : State} (h3 : Kept s0 x3) : Kept s0 (groupChanged x0 x1 x2 x3) := by
  unfold groupChanged
  repeat' first
    | with_reducible assumption | intro _ | (simp only [kept_mk]; with_reducible apply keptC_upd)
    | with_reducible apply kept_zeroGranules | with_reducible apply kept_portDown | with_reducible apply kept_modGroup
    | with_reducible apply kept_setPort | with_reducible apply kept_disableLink | with_reducible apply kept_startTraining
    | with_reducible apply kept_ite | split | dsimp only | with_reducible exact Kept.refl _

theorem kept_groupSwitch {x0 : Moment} {x1 : Nat} {x2 : Trans} {x3 : State} (h3 : Kept s0 x3) : Kept s0 (groupSwitch x0 x1 x2 x3) := by
  unfold groupSwitch
  repeat' first
    | with_reducible assumption | intro _ | (simp only [kept_mk]; with_reducible apply keptC_upd)
    | with_reducible apply kept_modGroup | with_reducible apply kept_pwrProgress | with_reducible apply kept_groupChanged
    | with_reducible apply kept_leaveHeld | with_reducible apply kept_ite | with_reducible apply kept_getD | split | dsimp only
    | with_reducible exact Kept.refl _

theorem kept_groupPhase {x0 : Moment} {x1 : Nat} {x2 : State} (h2 : Kept s0 x2) : Kept s0 (groupPhase x0 x1 x2) := by
  unfold groupPhase
  repeat' first
    | with_reducible assumption | intro _ | (simp only [kept_mk]; with_reducible apply keptC_upd)
    | with_reducible apply kept_groupSwitch | with_reducible apply kept_groupSave | with_reducible apply kept_groupScrub
    | with_reducible apply kept_pwrProgress | with_reducible apply kept_modGroup | with_reducible apply kept_ite | split
    | dsimp only | with_reducible exact Kept.refl _

end Sys2Proof.Machine
end

