-- ==== Sys2Proof/Laws/KeptProtect.lean ====
section
/-! SUPPORT. What the definitions of Sys2Proof/Machine/Protect.lean keep. -/

set_option linter.unusedSimpArgs false

namespace Sys2Proof.Machine

variable {s0 : State}

theorem kept_bodyPwrQuery {x0 : Moment} {x1 : Req} {x2 : State} (h2 : Kept s0 x2) : Kept s0 (bodyPwrQuery x0 x1 x2).st := by
  unfold bodyPwrQuery
  repeat' first
    | with_reducible assumption | intro _ | with_reducible apply kept_reply_ok | dsimp only | with_reducible exact Kept.refl _

theorem kept_execPwrQuery {x0 : Moment} {x1 : Req} {x2 : State} (h2 : Kept s0 x2) : KeptOut s0 (execPwrQuery x0 x1 x2) := by
  unfold execPwrQuery
  repeat' first
    | with_reducible assumption | with_reducible apply keptOut_next | with_reducible apply kept_runCommand
    | with_reducible apply kept_bodyPwrQuery | dsimp only | with_reducible exact Kept.refl _

theorem kept_modClusters {x0 : Group → Group} {x1 : State} (h1 : Kept s0 x1) : Kept s0 (modClusters x0 x1) := by
  unfold modClusters
  repeat' first
    | with_reducible assumption | intro _ | with_reducible apply kept_modGroup | with_reducible apply kept_foldl
    | with_reducible apply kept_foldl_snd | dsimp only | with_reducible exact Kept.refl _

theorem kept_trip {x0 : Nat} {x1 : Nat} {x2 : Int} {x3 : State} (h3 : Kept s0 x3) : Kept s0 (trip x0 x1 x2 x3) := by
  unfold trip
  repeat' first
    | with_reducible assumption | intro _ | (simp only [kept_mk]; with_reducible apply keptC_upd)
    | with_reducible apply kept_modClusters | with_reducible apply kept_note | with_reducible apply kept_bump
    | with_reducible apply kept_ite | dsimp only | with_reducible exact Kept.refl _

theorem kept_takeReading {x0 : State} {x1 : Nat × Int} (h0 : Kept s0 x0) : Kept s0 (takeReading x0 x1) := by
  unfold takeReading
  repeat' first
    | with_reducible assumption | intro _ | (simp only [kept_mk]; with_reducible apply keptC_upd)
    | with_reducible apply kept_ite | dsimp only | with_reducible exact Kept.refl _

theorem kept_execJunctionSensorSample {x0 : Moment} {x1 : List (Nat × Int)} {x2 : State} (h2 : Kept s0 x2) : KeptOut s0 (execJunctionSensorSample x0 x1 x2) := by
  unfold execJunctionSensorSample
  repeat' first
    | with_reducible assumption | intro _ | (simp only [kept_mk]; with_reducible apply keptC_upd)
    | with_reducible apply keptOut_next | with_reducible apply kept_takeReading | with_reducible apply kept_State_at
    | with_reducible apply kept_trip | with_reducible apply kept_foldl | with_reducible apply kept_foldl_snd
    | with_reducible apply kept_foldl_fst | split | dsimp only | with_reducible exact Kept.refl _

theorem kept_execCoreCurrentSample {x0 : Moment} {x1 : Nat} {x2 : State} (h2 : Kept s0 x2) : KeptOut s0 (execCoreCurrentSample x0 x1 x2) := by
  unfold execCoreCurrentSample
  repeat' first
    | with_reducible assumption | intro _ | (simp only [kept_mk]; with_reducible apply keptC_upd)
    | with_reducible apply keptOut_next | with_reducible apply keptOut_ite | with_reducible apply kept_State_at
    | with_reducible apply kept_trip | with_reducible apply kept_ite | with_reducible apply kept_getD | dsimp only
    | with_reducible exact Kept.refl _

theorem kept_execThermtrip {x0 : Moment} {x1 : State} (h1 : Kept s0 x1) : KeptOut s0 (execThermtrip x0 x1) := by
  unfold execThermtrip
  repeat' first
    | with_reducible assumption | (simp only [kept_mk]; with_reducible apply keptC_upd) | with_reducible apply keptOut_next
    | with_reducible apply kept_State_at | dsimp only | with_reducible exact Kept.refl _

theorem kept_bodyPwrResume {x0 : Moment} {x1 : Req} {x2 : State} (h2 : Kept s0 x2) : Kept s0 (bodyPwrResume x0 x1 x2).st := by
  unfold bodyPwrResume
  repeat' first
    | with_reducible assumption | intro _ | (simp only [kept_mk]; with_reducible apply keptC_upd)
    | with_reducible apply kept_reply_ok | with_reducible apply kept_reply_err | with_reducible apply kept_ite_st
    | with_reducible apply kept_modClusters | with_reducible apply kept_ite | dsimp only | with_reducible exact Kept.refl _

theorem kept_execPwrResume {x0 : Moment} {x1 : Req} {x2 : State} (h2 : Kept s0 x2) : KeptOut s0 (execPwrResume x0 x1 x2) := by
  unfold execPwrResume
  repeat' first
    | with_reducible assumption | with_reducible apply keptOut_next | with_reducible apply kept_runSettled
    | with_reducible apply kept_bodyPwrResume | dsimp only | with_reducible exact Kept.refl _

end Sys2Proof.Machine
end

