-- ==== Sys2Proof/Laws/KeptTime.lean ====
section
/-! SUPPORT. What the definitions of Sys2Proof/Machine/Time.lean keep. -/

set_option linter.unusedSimpArgs false

namespace Sys2Proof.Machine

variable {s0 : State}

theorem kept_modClk {x0 : Clock → Clock} {x1 : State} (h1 : Kept s0 x1) : Kept s0 (modClk x0 x1) := by
  unfold modClk
  repeat' first
    | with_reducible assumption | (simp only [kept_mk]; with_reducible apply keptC_upd) | dsimp only
    | with_reducible exact Kept.refl _

theorem kept_setTime {x0 : TimeState} {x1 : State} (h1 : Kept s0 x1) : Kept s0 (setTime x0 x1) := by
  unfold setTime
  repeat' first
    | with_reducible assumption | intro _ | (simp only [kept_mk]; with_reducible apply keptC_upd)
    | with_reducible apply kept_rollGauge | with_reducible apply kept_modClk | with_reducible apply kept_markWindows
    | with_reducible apply kept_foldl | with_reducible apply kept_foldl_snd | dsimp only | with_reducible exact Kept.refl _

theorem kept_acceptOffset {x0 : Int} {x1 : Nat} {x2 : State} (h2 : Kept s0 x2) : Kept s0 (acceptOffset x0 x1 x2) := by
  unfold acceptOffset
  repeat' first
    | with_reducible assumption | intro _ | (simp only [kept_mk]; with_reducible apply keptC_upd)
    | with_reducible apply kept_fresh | with_reducible apply kept_setTime | with_reducible apply kept_modClk
    | with_reducible apply kept_note | with_reducible apply kept_ite | with_reducible refine kept_of_snd (by assumption) ?_
    | split | dsimp only | with_reducible exact Kept.refl _

theorem kept_refuseOffset {x0 : Int} {x1 : State} (h1 : Kept s0 x1) : Kept s0 (refuseOffset x0 x1) := by
  unfold refuseOffset
  repeat' first
    | with_reducible assumption | intro _ | (simp only [kept_mk]; with_reducible apply keptC_upd)
    | with_reducible apply kept_bump | with_reducible apply kept_modClk | with_reducible apply kept_note
    | with_reducible apply kept_ite | dsimp only | with_reducible exact Kept.refl _

theorem kept_measured {x0 : Int} {x1 : Nat} {x2 : State} (h2 : Kept s0 x2) : Kept s0 (measured x0 x1 x2) := by
  unfold measured
  repeat' first
    | with_reducible assumption | intro _ | with_reducible apply kept_acceptOffset | with_reducible apply kept_refuseOffset
    | with_reducible apply kept_ite | dsimp only | with_reducible exact Kept.refl _

theorem kept_sourceLost {x0 : Nat} {x1 : State} (h1 : Kept s0 x1) : Kept s0 (sourceLost x0 x1) := by
  unfold sourceLost
  repeat' first
    | with_reducible assumption | intro _ | (simp only [kept_mk]; with_reducible apply keptC_upd)
    | with_reducible apply kept_modClk | with_reducible apply kept_note | with_reducible apply kept_setTime
    | with_reducible apply kept_ite | dsimp only | with_reducible exact Kept.refl _

theorem kept_execHoldoverBudgetExceeded {x0 : Moment} {x1 : State} (h1 : Kept s0 x1) : KeptOut s0 (execHoldoverBudgetExceeded x0 x1) := by
  unfold execHoldoverBudgetExceeded
  repeat' first
    | with_reducible assumption | intro _ | with_reducible apply keptOut_next | with_reducible apply keptOut_ite
    | with_reducible apply kept_State_at | with_reducible apply kept_note | with_reducible apply kept_setTime
    | with_reducible apply kept_ite | dsimp only | with_reducible exact Kept.refl _

theorem kept_ptpSelect {x0 : State} (h0 : Kept s0 x0) : Kept s0 (ptpSelect x0) := by
  unfold ptpSelect
  repeat' first
    | with_reducible assumption | intro _ | (simp only [kept_mk]; with_reducible apply keptC_upd)
    | with_reducible apply kept_sourceLost | with_reducible apply kept_modClk | with_reducible apply kept_ite | dsimp only
    | with_reducible exact Kept.refl _

theorem kept_skewTest {x0 : State} (h0 : Kept s0 x0) : Kept s0 (skewTest x0) := by
  unfold skewTest
  repeat' first
    | with_reducible assumption | intro _ | (simp only [kept_mk]; with_reducible apply keptC_upd)
    | with_reducible apply kept_modClk | with_reducible apply kept_note | with_reducible apply kept_ite | dsimp only
    | with_reducible exact Kept.refl _

theorem kept_ptpSync {x0 : Int} {x1 : Nat} {x2 : State} (h2 : Kept s0 x2) : Kept s0 (ptpSync x0 x1 x2) := by
  unfold ptpSync
  repeat' first
    | with_reducible assumption | intro _ | (simp only [kept_mk]; with_reducible apply keptC_upd)
    | with_reducible apply kept_modClk | with_reducible apply kept_skewTest | with_reducible apply kept_measured
    | with_reducible apply kept_ite | dsimp only | with_reducible exact Kept.refl _

theorem kept_execPtpMessageReceive {x0 : Moment} {x1 : PtpMsg} {x2 : State} (h2 : Kept s0 x2) : KeptOut s0 (execPtpMessageReceive x0 x1 x2) := by
  unfold execPtpMessageReceive
  repeat' first
    | with_reducible assumption | intro _ | (simp only [kept_mk]; with_reducible apply keptC_upd)
    | with_reducible apply keptOut_next | with_reducible apply keptOut_ite | with_reducible apply kept_State_at
    | with_reducible apply kept_bump | with_reducible apply kept_ptpSync | with_reducible apply kept_ptpSelect
    | with_reducible apply kept_ite | split | dsimp only | with_reducible exact Kept.refl _

theorem kept_execPtpAnnounceTimeout {x0 : Moment} {x1 : Nat} {x2 : State} (h2 : Kept s0 x2) : KeptOut s0 (execPtpAnnounceTimeout x0 x1 x2) := by
  unfold execPtpAnnounceTimeout
  repeat' first
    | with_reducible assumption | intro _ | (simp only [kept_mk]; with_reducible apply keptC_upd)
    | with_reducible apply keptOut_next | with_reducible apply keptOut_ite | with_reducible apply kept_State_at
    | with_reducible apply kept_ptpSelect | with_reducible apply kept_ite | split | dsimp only
    | with_reducible exact Kept.refl _

theorem kept_execPtpSourceLoss {x0 : Moment} {x1 : State} (h1 : Kept s0 x1) : KeptOut s0 (execPtpSourceLoss x0 x1) := by
  unfold execPtpSourceLoss
  repeat' first
    | with_reducible assumption | intro _ | (simp only [kept_mk]; with_reducible apply keptC_upd)
    | with_reducible apply keptOut_next | with_reducible apply keptOut_ite | with_reducible apply kept_State_at
    | with_reducible apply kept_sourceLost | with_reducible apply kept_modClk | with_reducible apply kept_ite | split
    | dsimp only | with_reducible exact Kept.refl _

theorem kept_cadAccept {x0 : Int} {x1 : State} (h1 : Kept s0 x1) : Kept s0 (cadAccept x0 x1) := by
  unfold cadAccept
  repeat' first
    | with_reducible assumption | intro _ | (simp only [kept_mk]; with_reducible apply keptC_upd)
    | with_reducible apply kept_modClk | with_reducible apply kept_measured | with_reducible apply kept_ite | dsimp only
    | with_reducible exact Kept.refl _

theorem kept_cadAcquire {x0 : State} (h0 : Kept s0 x0) : Kept s0 (cadAcquire x0) := by
  unfold cadAcquire
  repeat' first
    | with_reducible assumption | intro _ | (simp only [kept_mk]; with_reducible apply keptC_upd)
    | with_reducible apply kept_modClk | with_reducible apply kept_cadAccept | with_reducible apply kept_ite | split
    | dsimp only | with_reducible exact Kept.refl _

theorem kept_execCadenceEdge {x0 : Moment} {x1 : Nat} {x2 : State} (h2 : Kept s0 x2) : KeptOut s0 (execCadenceEdge x0 x1 x2) := by
  unfold execCadenceEdge
  repeat' first
    | with_reducible assumption | intro _ | (simp only [kept_mk]; with_reducible apply keptC_upd)
    | with_reducible apply keptOut_next | with_reducible apply keptOut_ite | with_reducible apply kept_State_at
    | with_reducible apply kept_bump | with_reducible apply kept_cadAcquire | with_reducible apply kept_cadAccept
    | with_reducible apply kept_modClk | with_reducible apply kept_ite | split | dsimp only | with_reducible exact Kept.refl _

theorem kept_execCadenceLoss {x0 : Moment} {x1 : State} (h1 : Kept s0 x1) : KeptOut s0 (execCadenceLoss x0 x1) := by
  unfold execCadenceLoss
  repeat' first
    | with_reducible assumption | intro _ | (simp only [kept_mk]; with_reducible apply keptC_upd)
    | with_reducible apply keptOut_next | with_reducible apply keptOut_ite | with_reducible apply kept_State_at
    | with_reducible apply kept_sourceLost | with_reducible apply kept_note | with_reducible apply kept_modClk
    | with_reducible apply kept_ite | dsimp only | with_reducible exact Kept.refl _

theorem kept_setTimeConfig {x0 : Nat} {x1 : Nat} {x2 : Int} {x3 : Nat} {x4 : Nat} {x5 : Nat} {x6 : Nat} {x7 : State} (h7 : Kept s0 x7) : Kept s0 (setTimeConfig x0 x1 x2 x3 x4 x5 x6 x7) := by
  unfold setTimeConfig
  repeat' first
    | with_reducible assumption | intro _ | (simp only [kept_mk]; with_reducible apply keptC_upd)
    | with_reducible apply kept_trip | with_reducible apply kept_modClk | with_reducible apply kept_ite | dsimp only
    | with_reducible exact Kept.refl _

theorem kept_bodyCtConfig {x0 : Moment} {x1 : Req} {x2 : State} (h2 : Kept s0 x2) : Kept s0 (bodyCtConfig x0 x1 x2).st := by
  unfold bodyCtConfig
  repeat' first
    | with_reducible assumption | intro _ | with_reducible apply kept_reply_ok | with_reducible apply kept_reply_err
    | with_reducible apply kept_ite_st | with_reducible apply kept_sourceLost | with_reducible apply kept_setTimeConfig
    | with_reducible apply kept_ite | dsimp only | with_reducible exact Kept.refl _

theorem kept_execCtConfig {x0 : Moment} {x1 : Req} {x2 : State} (h2 : Kept s0 x2) : KeptOut s0 (execCtConfig x0 x1 x2) := by
  unfold execCtConfig
  repeat' first
    | with_reducible assumption | with_reducible apply keptOut_next | with_reducible apply kept_runCommand
    | with_reducible apply kept_bodyCtConfig | dsimp only | with_reducible exact Kept.refl _

theorem kept_stepWindows {x0 : Nat} {x1 : State} (h1 : Kept s0 x1) : Kept s0 (stepWindows x0 x1) := by
  unfold stepWindows
  repeat' first
    | with_reducible assumption | intro _ | (simp only [kept_mk]; with_reducible apply keptC_upd)
    | with_reducible apply kept_closeEarly | with_reducible apply kept_closeEnding | with_reducible apply kept_rollGauge
    | with_reducible apply kept_openGauge | with_reducible apply kept_foldl | with_reducible apply kept_foldl_snd
    | with_reducible apply kept_getD | dsimp only | with_reducible exact Kept.refl _

theorem kept_stepTimers {x0 : State} (h0 : Kept s0 x0) : Kept s0 (stepTimers x0) := by
  unfold stepTimers
  repeat' first
    | with_reducible assumption | intro _ | (simp only [kept_mk]; with_reducible apply keptC_upd)
    | with_reducible apply kept_ite | dsimp only | with_reducible exact Kept.refl _

theorem kept_stepClock {x0 : Nat} {x1 : Nat} {x2 : State} (h2 : Kept s0 x2) : Kept s0 (stepClock x0 x1 x2) := by
  unfold stepClock
  repeat' first
    | with_reducible assumption | intro _
    | (simp only [kept_mk]; first | with_reducible apply keptC_upd | refine keptC_updHmk ?_ (by first | exact Nat.le_refl _ | exact Nat.le_add_right _ _ | omega) (by exact Nat.le_refl _) (by rfl))
    | with_reducible apply kept_modClk | with_reducible apply kept_setTime | with_reducible apply kept_ite
    | with_reducible apply kept_getD | dsimp only | with_reducible exact Kept.refl _

theorem kept_bodyCtStep {x0 : Moment} {x1 : Req} {x2 : State} (h2 : Kept s0 x2) : Kept s0 (bodyCtStep x0 x1 x2).st := by
  unfold bodyCtStep
  repeat' first
    | with_reducible assumption | intro _ | (simp only [kept_mk]; with_reducible apply keptC_upd)
    | with_reducible apply kept_reply_ok | with_reducible apply kept_reply_err | with_reducible apply kept_ite_st
    | with_reducible apply kept_closeEpoch | with_reducible apply kept_stepClock | with_reducible apply kept_stepTimers
    | with_reducible apply kept_stepWindows | with_reducible apply kept_note | with_reducible apply kept_bump
    | with_reducible apply kept_ite | split | dsimp only | with_reducible exact Kept.refl _

theorem kept_execCtStep {x0 : Moment} {x1 : Req} {x2 : State} (h2 : Kept s0 x2) : KeptOut s0 (execCtStep x0 x1 x2) := by
  unfold execCtStep
  repeat' first
    | with_reducible assumption | with_reducible apply keptOut_next | with_reducible apply kept_runCommand
    | with_reducible apply kept_bodyCtStep | dsimp only | with_reducible exact Kept.refl _

theorem kept_bodyCtLeapLoad {x0 : Moment} {x1 : Req} {x2 : State} (h2 : Kept s0 x2) : Kept s0 (bodyCtLeapLoad x0 x1 x2).st := by
  unfold bodyCtLeapLoad
  repeat' first
    | with_reducible assumption | intro _ | (simp only [kept_mk]; with_reducible apply keptC_upd)
    | with_reducible apply kept_reply_ok | with_reducible apply kept_reply_err | with_reducible apply kept_ite_st
    | with_reducible apply kept_modClk | with_reducible apply kept_ite | dsimp only | with_reducible exact Kept.refl _

theorem kept_execCtLeapLoad {x0 : Moment} {x1 : Req} {x2 : State} (h2 : Kept s0 x2) : KeptOut s0 (execCtLeapLoad x0 x1 x2) := by
  unfold execCtLeapLoad
  repeat' first
    | with_reducible assumption | with_reducible apply keptOut_next | with_reducible apply kept_runCommand
    | with_reducible apply kept_bodyCtLeapLoad | dsimp only | with_reducible exact Kept.refl _

theorem kept_execLeapExpiry {x0 : Moment} {x1 : State} (h1 : Kept s0 x1) : KeptOut s0 (execLeapExpiry x0 x1) := by
  unfold execLeapExpiry
  repeat' first
    | with_reducible assumption | intro _ | (simp only [kept_mk]; with_reducible apply keptC_upd)
    | with_reducible apply keptOut_next | with_reducible apply keptOut_ite | with_reducible apply kept_State_at
    | with_reducible apply kept_note | with_reducible apply kept_modClk | with_reducible apply kept_ite | dsimp only
    | with_reducible exact Kept.refl _

end Sys2Proof.Machine
end

