-- ==== Sys2Proof/Laws/KeptRetention.lean ====
section
/-! SUPPORT. What the definitions of Sys2Proof/Machine/Retention.lean keep. -/

set_option linter.unusedSimpArgs false

namespace Sys2Proof.Machine

variable {s0 : State}

theorem kept_modAon {x0 : Aon → Aon} {x1 : State} (h1 : Kept s0 x1) : Kept s0 (modAon x0 x1) := by
  unfold modAon
  repeat' first
    | with_reducible assumption | (simp only [kept_mk]; with_reducible apply keptC_upd) | dsimp only
    | with_reducible exact Kept.refl _

theorem kept_bodyAonSettingsSave {x0 : Moment} {x1 : Req} {x2 : State} (h2 : Kept s0 x2) : Kept s0 (bodyAonSettingsSave x0 x1 x2).st := by
  unfold bodyAonSettingsSave
  repeat' first
    | with_reducible assumption | intro _ | (simp only [kept_mk]; with_reducible apply keptC_upd)
    | with_reducible apply kept_reply_ok | with_reducible apply kept_reply_err | with_reducible apply kept_ite_st
    | with_reducible apply kept_modAon | with_reducible apply kept_ite | dsimp only | with_reducible exact Kept.refl _

theorem kept_execAonSettingsSave {x0 : Moment} {x1 : Req} {x2 : State} (h2 : Kept s0 x2) : KeptOut s0 (execAonSettingsSave x0 x1 x2) := by
  unfold execAonSettingsSave
  repeat' first
    | with_reducible assumption | with_reducible apply keptOut_next | with_reducible apply kept_runCommand
    | with_reducible apply kept_bodyAonSettingsSave | dsimp only | with_reducible exact Kept.refl _

theorem kept_bodyAonSettingsRead {x0 : Moment} {x1 : Req} {x2 : State} (h2 : Kept s0 x2) : Kept s0 (bodyAonSettingsRead x0 x1 x2).st := by
  unfold bodyAonSettingsRead
  repeat' first
    | with_reducible assumption | intro _ | (simp only [kept_mk]; with_reducible apply keptC_upd)
    | with_reducible apply kept_reply_ok | with_reducible apply kept_reply_err | with_reducible apply kept_ite_st
    | with_reducible apply kept_ite | split | dsimp only | with_reducible exact Kept.refl _

theorem kept_execAonSettingsRead {x0 : Moment} {x1 : Req} {x2 : State} (h2 : Kept s0 x2) : KeptOut s0 (execAonSettingsRead x0 x1 x2) := by
  unfold execAonSettingsRead
  repeat' first
    | with_reducible assumption | with_reducible apply keptOut_next | with_reducible apply kept_runCommand
    | with_reducible apply kept_bodyAonSettingsRead | dsimp only | with_reducible exact Kept.refl _

theorem kept_bodyOtpProgram {x0 : Moment} {x1 : Req} {x2 : State} (h2 : Kept s0 x2) : Kept s0 (bodyOtpProgram x0 x1 x2).st := by
  unfold bodyOtpProgram
  repeat' first
    | with_reducible assumption | intro _ | (simp only [kept_mk]; with_reducible apply keptC_upd)
    | with_reducible apply kept_reply_err | with_reducible apply kept_ite_st | with_reducible apply kept_withData
    | with_reducible apply kept_sigRejected | with_reducible apply kept_asOp | with_reducible apply kept_ite | split
    | dsimp only | with_reducible exact Kept.refl _

theorem kept_execOtpProgram {x0 : Moment} {x1 : Req} {x2 : State} (h2 : Kept s0 x2) : KeptOut s0 (execOtpProgram x0 x1 x2) := by
  unfold execOtpProgram
  repeat' first
    | with_reducible assumption | with_reducible apply keptOut_next | with_reducible apply kept_runCommand
    | with_reducible apply kept_bodyOtpProgram | dsimp only | with_reducible exact Kept.refl _

theorem kept_otpStore {x0 : Nat} {x1 : Bytes} {x2 : Bool} {x3 : State} (h3 : Kept s0 x3) : Kept s0 (otpStore x0 x1 x2 x3) := by
  unfold otpStore
  repeat' first
    | with_reducible assumption | intro _
    | (simp only [kept_mk]; first | with_reducible apply keptC_upd | with_reducible apply keptC_clear | refine keptC_updHmk ?_ (by first | exact Nat.le_refl _ | exact Nat.le_add_right _ _ | omega) (by exact Nat.le_refl _) (by rfl))
    | with_reducible apply kept_modAon | with_reducible apply keptO_some | with_reducible apply keptO_none
    | with_reducible apply keptO_ite | with_reducible apply keptO_obindS | with_reducible apply keptO_obind
    | with_reducible apply keptO_map | with_reducible apply keptO_bind | with_reducible apply kept_ite
    | with_reducible apply kept_ite_snd | with_reducible apply kept_foldl | with_reducible apply kept_foldl_snd
    | with_reducible apply kept_foldl_fst | with_reducible apply keptO_foldl | with_reducible apply keptP_foldl
    | with_reducible apply keptE_foldl | with_reducible apply keptEP_foldl | with_reducible apply kept_getD
    | with_reducible exact kept_of_hypO ‹_› | with_reducible exact kept_of_hypP ‹_› | with_reducible exact kept_of_hypE ‹_›
    | with_reducible exact kept_of_hypEP ‹_› | with_reducible refine kept_of_some (by assumption) ?_
    | with_reducible refine kept_of_someP (by assumption) ?_ | with_reducible refine kept_of_ok (by assumption) ?_
    | with_reducible refine kept_of_okP (by assumption) ?_ | with_reducible refine kept_of_error (by assumption) ?_
    | with_reducible refine kept_of_snd (by assumption) ?_ | with_reducible refine kept_of_fst (by assumption) ?_
    | with_reducible refine kept_of_snd2 (by assumption) ?_ | with_reducible refine kept_of_snd3 (by assumption) ?_ | split
    | dsimp only | with_reducible exact Kept.refl _

theorem kept_endOtpProgram {x0 : Nat} {x1 : LongOp} {x2 : Bool} {x3 : State} (h3 : Kept s0 x3) : Kept s0 (endOtpProgram x0 x1 x2 x3) := by
  unfold endOtpProgram
  repeat' first
    | with_reducible assumption | intro _ | with_reducible apply kept_endOp | with_reducible apply kept_otpStore
    | with_reducible apply kept_ite | with_reducible apply kept_getD | dsimp only | with_reducible exact Kept.refl _

theorem kept_bodyAonLifeRead {x0 : Moment} {x1 : Req} {x2 : State} (h2 : Kept s0 x2) : Kept s0 (bodyAonLifeRead x0 x1 x2).st := by
  unfold bodyAonLifeRead
  repeat' first
    | with_reducible assumption | with_reducible apply kept_reply_ok | dsimp only | with_reducible exact Kept.refl _

theorem kept_execAonLifeRead {x0 : Moment} {x1 : Req} {x2 : State} (h2 : Kept s0 x2) : KeptOut s0 (execAonLifeRead x0 x1 x2) := by
  unfold execAonLifeRead
  repeat' first
    | with_reducible assumption | with_reducible apply keptOut_next | with_reducible apply kept_runCommand
    | with_reducible apply kept_bodyAonLifeRead | dsimp only | with_reducible exact Kept.refl _

theorem kept_execLifeMirrorUpdate {x0 : Moment} {x1 : State} (h1 : Kept s0 x1) : KeptOut s0 (execLifeMirrorUpdate x0 x1) := by
  unfold execLifeMirrorUpdate
  repeat' first
    | with_reducible assumption | intro _ | (simp only [kept_mk]; with_reducible apply keptC_upd)
    | with_reducible apply keptOut_next | with_reducible apply keptOut_ite | with_reducible apply kept_State_at
    | with_reducible apply kept_modAon | with_reducible apply kept_mirror | with_reducible apply kept_ite | dsimp only
    | with_reducible exact Kept.refl _

theorem kept_setRtc {x0 : State} (h0 : Kept s0 x0) : Kept s0 (setRtc x0) := by
  unfold setRtc
  repeat' first
    | with_reducible assumption | intro _ | (simp only [kept_mk]; with_reducible apply keptC_upd)
    | with_reducible apply kept_modAon | with_reducible apply kept_ite | dsimp only | with_reducible exact Kept.refl _

theorem kept_journalSlot {x0 : List Nat} {x1 : Nat} {x2 : Nat} {x3 : List Nat} {x4 : State} (h4 : Kept s0 x4) : Kept s0 (journalSlot x0 x1 x2 x3 x4).2.2 := by
  induction x1 generalizing x0 x2 x3 x4 with
  | zero =>
    unfold journalSlot
    repeat' first
      | with_reducible assumption | intro _ | with_reducible apply kept_note | with_reducible apply kept_ite
      | with_reducible apply kept_ite_snd | split | dsimp only | with_reducible exact Kept.refl _
  | succ n ih =>
    unfold journalSlot
    repeat' first
      | with_reducible apply ih
      | with_reducible assumption | intro _ | with_reducible apply kept_note | with_reducible apply kept_ite
      | with_reducible apply kept_ite_snd | split | dsimp only | with_reducible exact Kept.refl _

theorem kept_journal {x0 : List Nat} {x1 : State} (h1 : Kept s0 x1) : Kept s0 (journal x0 x1) := by
  unfold journal
  repeat' first
    | with_reducible assumption | intro _ | (simp only [kept_mk]; with_reducible apply keptC_upd)
    | with_reducible apply kept_journalSlot | with_reducible apply kept_setRtc | with_reducible apply kept_modAon
    | with_reducible refine kept_of_snd2 (by assumption) ?_ | split | dsimp only | with_reducible exact Kept.refl _

theorem kept_execLifeJournalWrite {x0 : Moment} {x1 : List Nat} {x2 : State} (h2 : Kept s0 x2) : KeptOut s0 (execLifeJournalWrite x0 x1 x2) := by
  unfold execLifeJournalWrite
  repeat' first
    | with_reducible assumption | intro _ | with_reducible apply keptOut_next | with_reducible apply keptOut_ite
    | with_reducible apply kept_State_at | with_reducible apply kept_journal | with_reducible apply kept_ite | dsimp only
    | with_reducible exact Kept.refl _

theorem kept_bodyAonLifeSync {x0 : Moment} {x1 : Req} {x2 : State} (h2 : Kept s0 x2) : Kept s0 (bodyAonLifeSync x0 x1 x2).st := by
  unfold bodyAonLifeSync
  repeat' first
    | with_reducible assumption | with_reducible apply kept_reply_ok | with_reducible apply kept_journal | dsimp only
    | with_reducible exact Kept.refl _

theorem kept_execAonLifeSync {x0 : Moment} {x1 : Req} {x2 : State} (h2 : Kept s0 x2) : KeptOut s0 (execAonLifeSync x0 x1 x2) := by
  unfold execAonLifeSync
  repeat' first
    | with_reducible assumption | with_reducible apply keptOut_next | with_reducible apply kept_runCommand
    | with_reducible apply kept_bodyAonLifeSync | dsimp only | with_reducible exact Kept.refl _

end Sys2Proof.Machine
end

