-- ==== Sys2Proof/Laws/KeptErrorUnit.lean ====
section
/-! SUPPORT. What the definitions of Sys2Proof/Machine/ErrorUnit.lean keep. -/

set_option linter.unusedSimpArgs false

namespace Sys2Proof.Machine

variable {s0 : State}

theorem kept_countCorrected {x0 : Nat} {x1 : Nat} {x2 : State} (h2 : Kept s0 x2) : Kept s0 (countCorrected x0 x1 x2) := by
  unfold countCorrected
  repeat' first
    | with_reducible assumption | intro _ | (simp only [kept_mk]; with_reducible apply keptC_upd)
    | with_reducible apply kept_modErr | with_reducible apply kept_modAon | with_reducible apply kept_countError
    | with_reducible apply kept_ite | split | dsimp only | with_reducible exact Kept.refl _

theorem kept_ceThreshold {x0 : Nat} {x1 : Nat} {x2 : State} (h2 : Kept s0 x2) : Kept s0 (ceThreshold x0 x1 x2) := by
  unfold ceThreshold
  repeat' first
    | with_reducible assumption | intro _ | (simp only [kept_mk]; with_reducible apply keptC_upd)
    | with_reducible apply kept_modErr | with_reducible apply kept_note | with_reducible apply kept_ite | dsimp only
    | with_reducible exact Kept.refl _

theorem kept_corrected {x0 : Nat} {x1 : Nat} {x2 : State} (h2 : Kept s0 x2) : Kept s0 (corrected x0 x1 x2) := by
  unfold corrected
  repeat' first
    | with_reducible assumption | intro _ | with_reducible apply kept_countCorrected | with_reducible apply kept_ceThreshold
    | with_reducible apply kept_ite | dsimp only | with_reducible exact Kept.refl _

theorem kept_execCorrectedError {x0 : Moment} {x1 : Nat} {x2 : Nat} {x3 : State} (h3 : Kept s0 x3) : KeptOut s0 (execCorrectedError x0 x1 x2 x3) := by
  unfold execCorrectedError
  repeat' first
    | with_reducible assumption | with_reducible apply keptOut_next | with_reducible apply kept_settleAll
    | with_reducible apply kept_corrected | with_reducible apply kept_State_at | dsimp only | with_reducible exact Kept.refl _

theorem kept_execPatrolScrubPass {x0 : Moment} {x1 : State} (h1 : Kept s0 x1) : KeptOut s0 (execPatrolScrubPass x0 x1) := by
  unfold execPatrolScrubPass
  repeat' first
    | with_reducible assumption | intro _ | (simp only [kept_mk]; with_reducible apply keptC_upd)
    | with_reducible apply keptOut_next | with_reducible apply kept_State_at | with_reducible apply kept_modErr | dsimp only
    | with_reducible exact Kept.refl _

theorem kept_ueContained {x0 : UeData} {x1 : UeAt} {x2 : State} (h2 : Kept s0 x2) : Kept s0 (ueContained x0 x1 x2) := by
  unfold ueContained
  repeat' first
    | with_reducible assumption | intro _ | (simp only [kept_mk]; with_reducible apply keptC_upd)
    | with_reducible apply kept_ueLog | split | dsimp only | with_reducible exact Kept.refl _

theorem kept_dropSpill {x0 : Nat} {x1 : State} (h1 : Kept s0 x1) : Kept s0 (dropSpill x0 x1) := by
  unfold dropSpill
  repeat' first
    | with_reducible assumption | intro _ | (simp only [kept_mk]; with_reducible apply keptC_upd)
    | with_reducible apply kept_setRing | with_reducible apply kept_move | with_reducible apply kept_ite | split | dsimp only
    | with_reducible exact Kept.refl _

theorem kept_ueOwnerEnds {x0 : Moment} {x1 : UeData} {x2 : State} (h2 : Kept s0 x2) : Kept s0 (ueOwnerEnds x0 x1 x2) := by
  unfold ueOwnerEnds
  repeat' first
    | with_reducible assumption | intro _ | (simp only [kept_mk]; with_reducible apply keptC_upd)
    | with_reducible apply kept_faultSession | with_reducible apply kept_invFault | with_reducible apply kept_countFault
    | with_reducible apply kept_deleteNode | with_reducible apply kept_failDesc | with_reducible apply kept_dropSpill
    | with_reducible apply kept_endOp | with_reducible apply kept_dropQuery | with_reducible apply kept_complete
    | with_reducible apply kept_cutFail | with_reducible apply kept_qpFail | with_reducible apply kept_sendAck
    | with_reducible apply kept_rcAck | with_reducible apply kept_emit | with_reducible apply kept_refused
    | with_reducible apply kept_deviceFatal | with_reducible apply kept_ite
    | with_reducible refine kept_of_snd (by assumption) ?_ | split | dsimp only | with_reducible exact Kept.refl _

theorem kept_execUncorrectableError {x0 : Moment} {x1 : UeData} {x2 : UeAt} {x3 : State} (h3 : Kept s0 x3) : KeptOut s0 (execUncorrectableError x0 x1 x2 x3) := by
  unfold execUncorrectableError
  repeat' first
    | with_reducible assumption | intro _ | (simp only [kept_mk]; with_reducible apply keptC_upd)
    | with_reducible apply keptOut_next | with_reducible apply keptOut_ite | with_reducible apply kept_State_at
    | with_reducible apply kept_settleAll | with_reducible apply kept_breach | with_reducible apply kept_deviceFatal
    | with_reducible apply kept_ueOwnerEnds | with_reducible apply kept_ueContained | with_reducible apply kept_ite | split
    | dsimp only | with_reducible exact Kept.refl _

theorem kept_internalFault {x0 : Nat} {x1 : State} (h1 : Kept s0 x1) : Kept s0 (internalFault x0 x1) := by
  unfold internalFault
  repeat' first
    | with_reducible assumption | intro _ | (simp only [kept_mk]; with_reducible apply keptC_upd)
    | with_reducible apply kept_deviceFatal | with_reducible apply kept_ite | dsimp only | with_reducible exact Kept.refl _

theorem kept_execFirmwareWatchdogExpiry {x0 : Moment} {x1 : Bool} {x2 : State} (h2 : Kept s0 x2) : KeptOut s0 (execFirmwareWatchdogExpiry x0 x1 x2) := by
  unfold execFirmwareWatchdogExpiry
  repeat' first
    | with_reducible assumption | intro _ | (simp only [kept_mk]; with_reducible apply keptC_upd)
    | with_reducible apply keptOut_next | with_reducible apply keptOut_ite | with_reducible apply kept_internalFault
    | with_reducible apply kept_State_at | with_reducible apply kept_modErr | with_reducible apply kept_ite | dsimp only
    | with_reducible exact Kept.refl _

theorem kept_skewFound {x0 : Nat} {x1 : List Skew} {x2 : State} (h2 : Kept s0 x2) : Kept s0 (skewFound x0 x1 x2) := by
  unfold skewFound
  repeat' first
    | with_reducible assumption | intro _ | (simp only [kept_mk]; with_reducible apply keptC_upd)
    | with_reducible apply kept_modErr | with_reducible apply kept_note | with_reducible apply kept_bump
    | with_reducible apply kept_ite | with_reducible apply kept_foldl | with_reducible apply kept_foldl_snd | dsimp only
    | with_reducible exact Kept.refl _

theorem kept_execViewSweep {x0 : Moment} {x1 : Nat} {x2 : List Skew} {x3 : State} (h3 : Kept s0 x3) : KeptOut s0 (execViewSweep x0 x1 x2 x3) := by
  unfold execViewSweep
  repeat' first
    | with_reducible assumption | intro _ | (simp only [kept_mk]; with_reducible apply keptC_upd)
    | with_reducible apply keptOut_next | with_reducible apply keptOut_ite | with_reducible apply kept_State_at
    | with_reducible apply kept_modErr | with_reducible apply kept_skewFound | with_reducible apply kept_ite | dsimp only
    | with_reducible exact Kept.refl _

theorem kept_execViewReconcileTimeout {x0 : Moment} {x1 : Nat} {x2 : State} (h2 : Kept s0 x2) : KeptOut s0 (execViewReconcileTimeout x0 x1 x2) := by
  unfold execViewReconcileTimeout
  repeat' first
    | with_reducible assumption | intro _ | (simp only [kept_mk]; with_reducible apply keptC_upd)
    | with_reducible apply keptOut_next | with_reducible apply keptOut_ite | with_reducible apply kept_State_at
    | with_reducible apply kept_internalFault | with_reducible apply kept_ite | split | dsimp only
    | with_reducible exact Kept.refl _

theorem kept_bodyDiagViewCheck {x0 : Moment} {x1 : Req} {x2 : State} (h2 : Kept s0 x2) : Kept s0 (bodyDiagViewCheck x0 x1 x2).st := by
  unfold bodyDiagViewCheck
  repeat' first
    | with_reducible assumption | intro _ | (simp only [kept_mk]; with_reducible apply keptC_upd)
    | with_reducible apply kept_reply_ok | with_reducible apply kept_reply_err | with_reducible apply kept_ite_st
    | with_reducible apply kept_modErr | with_reducible apply kept_ite | dsimp only | with_reducible exact Kept.refl _

theorem kept_execDiagViewCheck {x0 : Moment} {x1 : Req} {x2 : State} (h2 : Kept s0 x2) : KeptOut s0 (execDiagViewCheck x0 x1 x2) := by
  unfold execDiagViewCheck
  repeat' first
    | with_reducible assumption | with_reducible apply keptOut_next | with_reducible apply kept_runCommand
    | with_reducible apply kept_bodyDiagViewCheck | dsimp only | with_reducible exact Kept.refl _

theorem kept_bodyDiagErrors {x0 : Moment} {x1 : Req} {x2 : State} (h2 : Kept s0 x2) : Kept s0 (bodyDiagErrors x0 x1 x2).st := by
  unfold bodyDiagErrors
  repeat' first
    | with_reducible assumption | intro _ | with_reducible apply kept_reply_ok | with_reducible apply kept_reply_err
    | dsimp only | with_reducible exact Kept.refl _

theorem kept_execDiagErrors {x0 : Moment} {x1 : Req} {x2 : State} (h2 : Kept s0 x2) : KeptOut s0 (execDiagErrors x0 x1 x2) := by
  unfold execDiagErrors
  repeat' first
    | with_reducible assumption | with_reducible apply keptOut_next | with_reducible apply kept_runCommand
    | with_reducible apply kept_bodyDiagErrors | dsimp only | with_reducible exact Kept.refl _

theorem kept_bodyDiagTraining {x0 : Moment} {x1 : Req} {x2 : State} (h2 : Kept s0 x2) : Kept s0 (bodyDiagTraining x0 x1 x2).st := by
  unfold bodyDiagTraining
  repeat' first
    | with_reducible assumption | intro _ | with_reducible apply kept_reply_ok | with_reducible apply kept_reply_err
    | with_reducible apply kept_ite_st | with_reducible apply kept_ite | dsimp only | with_reducible exact Kept.refl _

theorem kept_execDiagTraining {x0 : Moment} {x1 : Req} {x2 : State} (h2 : Kept s0 x2) : KeptOut s0 (execDiagTraining x0 x1 x2) := by
  unfold execDiagTraining
  repeat' first
    | with_reducible assumption | with_reducible apply keptOut_next | with_reducible apply kept_runCommand
    | with_reducible apply kept_bodyDiagTraining | dsimp only | with_reducible exact Kept.refl _

theorem kept_bodyDiagInject {x0 : Moment} {x1 : Req} {x2 : State} (h2 : Kept s0 x2) : Kept s0 (bodyDiagInject x0 x1 x2).st := by
  unfold bodyDiagInject
  repeat' first
    | with_reducible assumption | intro _
    | (simp only [kept_mk]; first | with_reducible apply keptC_upd | refine keptC_updHmk ?_ (by first | exact Nat.le_refl _ | exact Nat.le_add_right _ _ | omega) (by exact Nat.le_refl _) (by rfl))
    | with_reducible apply kept_reply_ok | with_reducible apply kept_reply_err | with_reducible apply kept_ite_st
    | with_reducible apply kept_modErr | with_reducible apply kept_ite | dsimp only | with_reducible exact Kept.refl _

theorem kept_execDiagInject {x0 : Moment} {x1 : Req} {x2 : State} (h2 : Kept s0 x2) : KeptOut s0 (execDiagInject x0 x1 x2) := by
  unfold execDiagInject
  repeat' first
    | with_reducible assumption | with_reducible apply keptOut_next | with_reducible apply kept_runCommand
    | with_reducible apply kept_bodyDiagInject | dsimp only | with_reducible exact Kept.refl _

theorem kept_bodyDiagBootLog {x0 : Moment} {x1 : Req} {x2 : State} (h2 : Kept s0 x2) : Kept s0 (bodyDiagBootLog x0 x1 x2).st := by
  unfold bodyDiagBootLog
  repeat' first
    | with_reducible assumption | with_reducible apply kept_reply_err | with_reducible apply kept_listOrHead | dsimp only
    | with_reducible exact Kept.refl _

theorem kept_execDiagBootLog {x0 : Moment} {x1 : Req} {x2 : State} (h2 : Kept s0 x2) : KeptOut s0 (execDiagBootLog x0 x1 x2) := by
  unfold execDiagBootLog
  repeat' first
    | with_reducible assumption | with_reducible apply keptOut_next | with_reducible apply kept_runCommand
    | with_reducible apply kept_bodyDiagBootLog | dsimp only | with_reducible exact Kept.refl _

end Sys2Proof.Machine
end

