-- ==== Sys2Proof/Laws/KeptResets.lean ====
section
/-! SUPPORT. What the definitions of Sys2Proof/Machine/Resets.lean keep. -/

set_option linter.unusedSimpArgs false

namespace Sys2Proof.Machine

variable {s0 : State}

theorem kept_interrupt {x0 : Bool} {x1 : State} {x2 : LongOp} (h1 : Kept s0 x1) : Kept s0 (interrupt x0 x1 x2) := by
  unfold interrupt
  repeat' first
    | with_reducible assumption | intro _ | (simp only [kept_mk]; with_reducible apply keptC_upd)
    | with_reducible apply kept_otpStore | with_reducible apply kept_modErr | with_reducible apply kept_ite
    | with_reducible apply kept_getD | dsimp only | with_reducible exact Kept.refl _

theorem kept_resetState {x0 : Nat} {x1 : Bool} {x2 : Bool} {x3 : State} (h3 : Kept s0 x3) : Kept s0 (resetState x0 x1 x2 x3) := by
  have h : Kept s0 ((x3.bench.ops.map (·.2)).foldl (interrupt x1) x3) := kept_foldl h3 fun _ _ k => kept_interrupt k
  exact ⟨h.pending, h.grade, h.counter, h.revoked, h.out, h.free, fun _ => Memory.wf_nil, h.host⟩

theorem kept_bootBegin {x0 : State} (h0 : Kept s0 x0) : Kept s0 (bootBegin x0) := by
  unfold bootBegin
  repeat' first
    | with_reducible assumption | intro _ | (simp only [kept_mk]; with_reducible apply keptC_upd)
    | with_reducible apply kept_modErr | dsimp only | with_reducible exact Kept.refl _

theorem kept_powerOn {x0 : State} (h0 : Kept s0 x0) : Kept s0 (powerOn x0) := by
  unfold powerOn
  repeat' first
    | with_reducible assumption | intro _ | (simp only [kept_mk]; with_reducible apply keptC_upd)
    | with_reducible apply kept_modAon | with_reducible apply kept_resetState | with_reducible apply kept_bootBegin
    | with_reducible apply kept_ite | dsimp only | with_reducible exact Kept.refl _

theorem kept_powerFall {x0 : State} (h0 : Kept s0 x0) : Kept s0 (powerFall x0) := by
  unfold powerFall
  repeat' first
    | with_reducible assumption | (simp only [kept_mk]; with_reducible apply keptC_upd) | with_reducible apply kept_resetState
    | dsimp only | with_reducible exact Kept.refl _

theorem kept_execPowerOnReset {x0 : Moment} {x1 : State} (h1 : Kept s0 x1) : KeptOut s0 (execPowerOnReset x0 x1) := by
  unfold execPowerOnReset
  repeat' first
    | with_reducible assumption | intro _ | with_reducible apply keptOut_next | with_reducible apply keptOut_ite
    | with_reducible apply kept_State_at | with_reducible apply kept_powerOn | with_reducible apply kept_ite | dsimp only
    | with_reducible exact Kept.refl _

theorem kept_execPwrgoodFall {x0 : Moment} {x1 : State} (h1 : Kept s0 x1) : KeptOut s0 (execPwrgoodFall x0 x1) := by
  unfold execPwrgoodFall
  repeat' first
    | with_reducible assumption | intro _ | (simp only [kept_mk]; with_reducible apply keptC_upd)
    | with_reducible apply keptOut_next | with_reducible apply keptOut_ite | with_reducible apply kept_State_at
    | with_reducible apply kept_powerFall | with_reducible apply kept_ite | dsimp only | with_reducible exact Kept.refl _

theorem kept_execPerstNAssert {x0 : Moment} {x1 : State} (h1 : Kept s0 x1) : KeptOut s0 (execPerstNAssert x0 x1) := by
  unfold execPerstNAssert
  repeat' first
    | with_reducible assumption | intro _ | (simp only [kept_mk]; with_reducible apply keptC_upd)
    | with_reducible apply keptOut_next | with_reducible apply keptOut_ite | with_reducible apply kept_State_at
    | with_reducible apply kept_modAon | with_reducible apply kept_resetState | with_reducible apply kept_ite | dsimp only
    | with_reducible exact Kept.refl _

theorem kept_execPerstNDeassert {x0 : Moment} {x1 : Nat} {x2 : Nat} {x3 : State} (h3 : Kept s0 x3) : KeptOut s0 (execPerstNDeassert x0 x1 x2 x3) := by
  unfold execPerstNDeassert
  repeat' first
    | with_reducible assumption | intro _ | (simp only [kept_mk]; with_reducible apply keptC_upd)
    | with_reducible apply keptOut_next | with_reducible apply keptOut_ite | with_reducible apply kept_State_at
    | with_reducible apply kept_bootBegin | with_reducible apply kept_ite | dsimp only | with_reducible exact Kept.refl _

theorem kept_linkReset {x0 : State} (h0 : Kept s0 x0) : Kept s0 (linkReset x0) := by
  unfold linkReset
  repeat' first
    | with_reducible assumption | intro _ | with_reducible apply kept_resetState | with_reducible apply kept_ite | dsimp only
    | with_reducible exact Kept.refl _

theorem kept_execPcieHotReset {x0 : Moment} {x1 : State} (h1 : Kept s0 x1) : KeptOut s0 (execPcieHotReset x0 x1) := by
  unfold execPcieHotReset
  repeat' first
    | with_reducible assumption | with_reducible apply keptOut_next | with_reducible apply kept_linkReset
    | with_reducible apply kept_State_at | dsimp only | with_reducible exact Kept.refl _

theorem kept_execPcieLinkDown {x0 : Moment} {x1 : State} (h1 : Kept s0 x1) : KeptOut s0 (execPcieLinkDown x0 x1) := by
  unfold execPcieLinkDown
  repeat' first
    | with_reducible assumption | with_reducible apply keptOut_next | with_reducible apply kept_linkReset
    | with_reducible apply kept_State_at | dsimp only | with_reducible exact Kept.refl _

theorem kept_execPcieLinkUp {x0 : Moment} {x1 : Nat} {x2 : Nat} {x3 : State} (h3 : Kept s0 x3) : KeptOut s0 (execPcieLinkUp x0 x1 x2 x3) := by
  unfold execPcieLinkUp
  repeat' first
    | with_reducible assumption | intro _ | (simp only [kept_mk]; with_reducible apply keptC_upd)
    | with_reducible apply keptOut_next | with_reducible apply keptOut_ite | with_reducible apply kept_State_at
    | with_reducible apply kept_modErr | with_reducible apply kept_note | with_reducible apply kept_ite | dsimp only
    | with_reducible exact Kept.refl _

theorem kept_execConfigReady {x0 : Moment} {x1 : State} (h1 : Kept s0 x1) : KeptOut s0 (execConfigReady x0 x1) := by
  unfold execConfigReady
  repeat' first
    | with_reducible assumption | intro _ | (simp only [kept_mk]; with_reducible apply keptC_upd)
    | with_reducible apply keptOut_next | with_reducible apply keptOut_ite | with_reducible apply kept_State_at
    | with_reducible apply kept_modErr | with_reducible apply kept_ite | dsimp only | with_reducible exact Kept.refl _

theorem kept_firmwareReject {x0 : Nat} {x1 : State} (h1 : Kept s0 x1) : Kept s0 (firmwareReject x0 x1) := by
  unfold firmwareReject
  repeat' first
    | with_reducible assumption | intro _ | with_reducible apply kept_sigRejected | with_reducible apply kept_ite | dsimp only
    | with_reducible exact Kept.refl _

theorem kept_runRelease {x0 : Nat} {x1 : Bytes} {x2 : State} (h2 : Kept s0 x2) : Kept s0 (runRelease x0 x1 x2) := by
  unfold runRelease
  repeat' first
    | with_reducible assumption
    | (simp only [kept_mk]; first | with_reducible apply keptC_upd | refine keptC_updHmk ?_ (by first | exact Nat.le_refl _ | exact Nat.le_add_right _ _ | omega) (by exact Nat.le_refl _) (by rfl))
    | dsimp only | with_reducible exact Kept.refl _

theorem kept_bodyFwLoad {x0 : Moment} {x1 : Req} {x2 : State} (h2 : Kept s0 x2) : Kept s0 (bodyFwLoad x0 x1 x2).st := by
  unfold bodyFwLoad
  repeat' first
    | with_reducible assumption | intro _
    | (simp only [kept_mk]; first | with_reducible apply keptC_upd | refine keptC_updHmk ?_ (by first | exact Nat.le_refl _ | exact Nat.le_add_right _ _ | omega) (by exact Nat.le_refl _) (by rfl))
    | with_reducible apply kept_reply_err | with_reducible apply kept_ite_st | with_reducible apply kept_withData
    | with_reducible apply kept_firmwareReject | with_reducible apply kept_asOp | with_reducible apply kept_ite | split
    | dsimp only | with_reducible exact Kept.refl _

theorem kept_execFwLoad {x0 : Moment} {x1 : Req} {x2 : State} (h2 : Kept s0 x2) : KeptOut s0 (execFwLoad x0 x1 x2) := by
  unfold execFwLoad
  repeat' first
    | with_reducible assumption | with_reducible apply keptOut_next | with_reducible apply kept_runCommand
    | with_reducible apply kept_bodyFwLoad | dsimp only | with_reducible exact Kept.refl _

theorem kept_endFwLoad {x0 : Nat} {x1 : LongOp} {x2 : Bool} {x3 : State} (h3 : Kept s0 x3) : Kept s0 (endFwLoad x0 x1 x2 x3) := by
  unfold endFwLoad
  repeat' first
    | with_reducible assumption | intro _ | (simp only [kept_mk]; with_reducible apply keptC_upd)
    | with_reducible apply kept_endOp | with_reducible apply kept_modErr | with_reducible apply kept_ite
    | with_reducible apply kept_getD | dsimp only | with_reducible exact Kept.refl _

theorem kept_stopBoot {x0 : Nat} {x1 : State} (h1 : Kept s0 x1) : Kept s0 (stopBoot x0 x1) := by
  unfold stopBoot
  repeat' first
    | with_reducible assumption | (simp only [kept_mk]; with_reducible apply keptC_upd) | dsimp only
    | with_reducible exact Kept.refl _

theorem kept_toPhase {x0 : Nat} {x1 : State} (h1 : Kept s0 x1) : Kept s0 (toPhase x0 x1) := by
  unfold toPhase
  repeat' first
    | with_reducible assumption | (simp only [kept_mk]; with_reducible apply keptC_upd) | dsimp only
    | with_reducible exact Kept.refl _

theorem kept_startCt {x0 : State} (h0 : Kept s0 x0) : Kept s0 (startCt x0) := by
  unfold startCt
  repeat' first
    | with_reducible assumption | intro _ | (simp only [kept_mk]; with_reducible apply keptC_upd)
    | with_reducible apply kept_modErr | with_reducible apply kept_modAon | with_reducible apply kept_ite
    | with_reducible apply kept_getD | dsimp only | with_reducible exact Kept.refl _

theorem kept_verifySlots {x0 : State} (h0 : Kept s0 x0) : Kept s0 (verifySlots x0) := by
  unfold verifySlots
  repeat' first
    | with_reducible assumption | (simp only [kept_mk]; with_reducible apply keptC_upd) | with_reducible apply kept_toPhase
    | with_reducible apply kept_runRelease | with_reducible apply kept_firmwareReject | with_reducible apply kept_stopBoot
    | with_reducible apply kept_getD | split | dsimp only | with_reducible exact Kept.refl _

theorem kept_recordTraining {x0 : Nat} {x1 : List (Nat × Nat × Nat × Nat)} {x2 : State} (h2 : Kept s0 x2) : Kept s0 (recordTraining x0 x1 x2) := by
  unfold recordTraining
  repeat' first
    | with_reducible assumption | intro _ | (simp only [kept_mk]; with_reducible apply keptC_upd)
    | with_reducible apply kept_modErr | with_reducible apply kept_note | with_reducible apply kept_ite
    | with_reducible apply kept_foldl | with_reducible apply kept_foldl_snd | with_reducible apply kept_foldl_fst | dsimp only
    | with_reducible exact Kept.refl _

theorem kept_pickSettings {x0 : State} (h0 : Kept s0 x0) : Kept s0 (pickSettings x0) := by
  unfold pickSettings
  repeat' first
    | with_reducible assumption | intro _ | (simp only [kept_mk]; with_reducible apply keptC_upd)
    | with_reducible apply kept_modAon | split | dsimp only | with_reducible exact Kept.refl _

theorem kept_bootGroups {x0 : Bytes} {x1 : State} (h1 : Kept s0 x1) : Kept s0 (bootGroups x0 x1) := by
  unfold bootGroups
  repeat' first
    | with_reducible assumption | intro _ | (simp only [kept_mk]; with_reducible apply keptC_upd)
    | with_reducible apply kept_modGroup | with_reducible apply kept_disableLink | with_reducible apply kept_ite
    | with_reducible apply kept_foldl | with_reducible apply kept_foldl_snd | dsimp only | with_reducible exact Kept.refl _

theorem kept_applySettings {x0 : Bytes} {x1 : State} (h1 : Kept s0 x1) : Kept s0 (applySettings x0 x1) := by
  unfold applySettings
  repeat' first
    | with_reducible assumption | intro _ | (simp only [kept_mk]; with_reducible apply keptC_upd)
    | with_reducible apply kept_setTimeConfig | with_reducible apply kept_modClk | with_reducible apply kept_bootGroups
    | dsimp only | with_reducible exact Kept.refl _

theorem kept_restoreLife {x0 : State} (h0 : Kept s0 x0) : Kept s0 (restoreLife x0) := by
  unfold restoreLife
  repeat' first
    | with_reducible assumption | intro _ | (simp only [kept_mk]; with_reducible apply keptC_upd)
    | with_reducible apply kept_modAon | with_reducible apply kept_mirror | with_reducible apply kept_ite
    | with_reducible apply kept_getD | split | dsimp only | with_reducible exact Kept.refl _

theorem kept_createLedgers {x0 : State} (h0 : Kept s0 x0) : Kept s0 (createLedgers x0) := by
  unfold createLedgers
  repeat' first
    | with_reducible assumption | intro _ | (simp only [kept_mk]; with_reducible apply keptC_upd)
    | with_reducible apply kept_ite | dsimp only | with_reducible exact Kept.refl _

theorem kept_bootReady {x0 : State} (h0 : Kept s0 x0) : Kept s0 (bootReady x0) := by
  unfold bootReady
  repeat' first
    | with_reducible assumption | intro _ | (simp only [kept_mk]; with_reducible apply keptC_upd)
    | with_reducible apply kept_modAon | with_reducible apply kept_modErr | with_reducible apply kept_note | dsimp only
    | with_reducible exact Kept.refl _

theorem kept_restoreSettings {x0 : State} (h0 : Kept s0 x0) : Kept s0 (restoreSettings x0) := by
  unfold restoreSettings
  repeat' first
    | with_reducible assumption | intro _ | (simp only [kept_mk]; with_reducible apply keptC_upd)
    | with_reducible apply kept_pickSettings | with_reducible apply kept_note | with_reducible apply kept_bootReady
    | with_reducible apply kept_createLedgers | with_reducible apply kept_applySettings
    | with_reducible apply kept_tellSerials | with_reducible apply kept_restoreLife | with_reducible apply kept_ite
    | with_reducible apply kept_getD | split | dsimp only | with_reducible exact Kept.refl _

theorem kept_phaseEnd {x0 : BootEnd} {x1 : State} (h1 : Kept s0 x1) : Kept s0 (phaseEnd x0 x1) := by
  unfold phaseEnd
  repeat' first
    | with_reducible assumption | intro _ | (simp only [kept_mk]; with_reducible apply keptC_upd)
    | with_reducible apply kept_toPhase | with_reducible apply kept_startCt | with_reducible apply kept_internalFault
    | with_reducible apply kept_verifySlots | with_reducible apply kept_stopBoot | with_reducible apply kept_recordTraining
    | with_reducible apply kept_modErr | with_reducible apply kept_startTraining | with_reducible apply kept_restoreSettings
    | with_reducible apply kept_ite | with_reducible apply kept_foldl | with_reducible apply kept_foldl_snd | split | dsimp only
    | with_reducible exact Kept.refl _

theorem kept_execBootPhaseEnd {x0 : Moment} {x1 : BootEnd} {x2 : State} (h2 : Kept s0 x2) : KeptOut s0 (execBootPhaseEnd x0 x1 x2) := by
  unfold execBootPhaseEnd
  repeat' first
    | with_reducible assumption | intro _ | with_reducible apply keptOut_next | with_reducible apply keptOut_ite
    | with_reducible apply kept_State_at | with_reducible apply kept_settleAll | with_reducible apply kept_phaseEnd
    | with_reducible apply kept_ite | dsimp only | with_reducible exact Kept.refl _

theorem kept_cancelAll {x0 : Nat} {x1 : State} (h1 : Kept s0 x1) : Kept s0 (cancelAll x0 x1) := by
  unfold cancelAll
  repeat' first
    | with_reducible assumption | intro _ | (simp only [kept_mk]; with_reducible apply keptC_upd)
    | with_reducible apply kept_progressOp | with_reducible apply kept_setOp | with_reducible apply kept_foldl
    | with_reducible apply kept_foldl_snd | with_reducible apply kept_foldl_fst | dsimp only | with_reducible exact Kept.refl _

theorem kept_bodyDevReset {x0 : Moment} {x1 : Req} {x2 : State} (h2 : Kept s0 x2) : Kept s0 (bodyDevReset x0 x1 x2).st := by
  unfold bodyDevReset
  repeat' first
    | with_reducible assumption | intro _ | (simp only [kept_mk]; with_reducible apply keptC_upd)
    | with_reducible apply kept_reply_err | with_reducible apply kept_reply_wait | with_reducible apply kept_ite_st
    | with_reducible apply kept_resetState | with_reducible apply kept_asOp | with_reducible apply kept_cancelAll
    | with_reducible apply kept_modErr | with_reducible apply kept_ite | dsimp only | with_reducible exact Kept.refl _

theorem kept_execDevReset {x0 : Moment} {x1 : Req} {x2 : State} (h2 : Kept s0 x2) : KeptOut s0 (execDevReset x0 x1 x2) := by
  unfold execDevReset
  repeat' first
    | with_reducible assumption | with_reducible apply keptOut_next | with_reducible apply kept_runCommand
    | with_reducible apply kept_bodyDevReset | dsimp only | with_reducible exact Kept.refl _

theorem kept_finishShutdown {x0 : Moment} {x1 : State} (h1 : Kept s0 x1) : Kept s0 (finishShutdown x0 x1) := by
  unfold finishShutdown
  repeat' first
    | with_reducible assumption | intro _ | (simp only [kept_mk]; with_reducible apply keptC_upd)
    | with_reducible apply kept_endOtpProgram | with_reducible apply kept_interrupt | with_reducible apply kept_journal
    | with_reducible apply kept_modErr | with_reducible apply kept_resetState | with_reducible apply kept_endOp
    | with_reducible apply kept_foldl | with_reducible apply kept_foldl_snd | with_reducible apply kept_foldl_fst | split
    | dsimp only | with_reducible exact Kept.refl _

theorem kept_endDevReset {x0 : Moment} {x1 : Nat} {x2 : State} (h2 : Kept s0 x2) : Kept s0 (endDevReset x0 x1 x2) := by
  unfold endDevReset
  repeat' first
    | with_reducible assumption | intro _ | with_reducible apply kept_finishShutdown | with_reducible apply kept_ite
    | dsimp only | with_reducible exact Kept.refl _

theorem kept_execShutdownGraceExpiry {x0 : Moment} {x1 : State} (h1 : Kept s0 x1) : KeptOut s0 (execShutdownGraceExpiry x0 x1) := by
  unfold execShutdownGraceExpiry
  repeat' first
    | with_reducible assumption | intro _ | (simp only [kept_mk]; with_reducible apply keptC_upd)
    | with_reducible apply keptOut_next | with_reducible apply keptOut_ite | with_reducible apply kept_State_at
    | with_reducible apply kept_finishShutdown | with_reducible apply kept_ite | split | dsimp only
    | with_reducible exact Kept.refl _

theorem kept_flr {x0 : Nat} {x1 : State} (h1 : Kept s0 x1) : Kept s0 (flr x0 x1) := by
  unfold flr
  repeat' first
    | with_reducible assumption | intro _
    | (simp only [kept_mk]; first | with_reducible apply keptC_upd | refine keptC_updHmk ?_ (by first | exact Nat.le_refl _ | exact Nat.le_add_right _ _ | omega) (by exact Nat.le_refl _) (by rfl))
    | with_reducible apply kept_dropFnWork | with_reducible apply kept_setMbx | with_reducible apply kept_freeUnits
    | with_reducible apply kept_setFn | with_reducible apply kept_tdiFail | with_reducible apply kept_ite
    | with_reducible apply kept_foldl | with_reducible apply kept_foldl_snd | with_reducible apply kept_foldl_fst | dsimp only
    | with_reducible exact Kept.refl _

theorem kept_execFlr {x0 : Moment} {x1 : Nat} {x2 : State} (h2 : Kept s0 x2) : KeptOut s0 (execFlr x0 x1 x2) := by
  unfold execFlr
  repeat' first
    | with_reducible assumption | intro _ | with_reducible apply keptOut_next | with_reducible apply keptOut_ite
    | with_reducible apply kept_settleAll | with_reducible apply kept_flr | with_reducible apply kept_State_at
    | with_reducible apply kept_ite | dsimp only | with_reducible exact Kept.refl _

end Sys2Proof.Machine
end

