-- ==== Sys2Proof/Laws/KeptElectric.lean ====
section
/-! SUPPORT. What the definitions of Sys2Proof/Machine/Electric.lean keep. -/

set_option linter.unusedSimpArgs false

namespace Sys2Proof.Machine

variable {s0 : State}

theorem kept_execRailFault {x0 : Moment} {x1 : Nat} {x2 : State} (h2 : Kept s0 x2) : KeptOut s0 (execRailFault x0 x1 x2) := by
  unfold execRailFault
  repeat' first
    | with_reducible assumption | intro _ | (simp only [kept_mk]; with_reducible apply keptC_upd)
    | with_reducible apply keptOut_next | with_reducible apply keptOut_ite | with_reducible apply kept_State_at
    | with_reducible apply kept_powerFall | with_reducible apply kept_modAon | with_reducible apply kept_ite | dsimp only
    | with_reducible exact Kept.refl _

theorem kept_execRailReturn {x0 : Moment} {x1 : Nat} {x2 : State} (h2 : Kept s0 x2) : KeptOut s0 (execRailReturn x0 x1 x2) := by
  unfold execRailReturn
  repeat' first
    | with_reducible assumption | intro _ | (simp only [kept_mk]; with_reducible apply keptC_upd)
    | with_reducible apply keptOut_next | with_reducible apply keptOut_ite | with_reducible apply kept_State_at
    | with_reducible apply kept_powerOn | with_reducible apply kept_ite | dsimp only | with_reducible exact Kept.refl _

theorem kept_clearRetention {x0 : State} (h0 : Kept s0 x0) : Kept s0 (clearRetention x0) := by
  unfold clearRetention
  repeat' first
    | with_reducible assumption | intro _ | (simp only [kept_mk]; with_reducible apply keptC_upd)
    | with_reducible apply kept_modAon | with_reducible apply kept_mirror | with_reducible apply kept_getD | dsimp only
    | with_reducible exact Kept.refl _

theorem kept_execVaux1v8Loss {x0 : Moment} {x1 : State} (h1 : Kept s0 x1) : KeptOut s0 (execVaux1v8Loss x0 x1) := by
  unfold execVaux1v8Loss
  repeat' first
    | with_reducible assumption | intro _ | (simp only [kept_mk]; with_reducible apply keptC_upd)
    | with_reducible apply keptOut_next | with_reducible apply keptOut_ite | with_reducible apply kept_State_at
    | with_reducible apply kept_clearRetention | with_reducible apply kept_powerFall | with_reducible apply kept_ite
    | dsimp only | with_reducible exact Kept.refl _

theorem kept_ptpGone {x0 : State} (h0 : Kept s0 x0) : Kept s0 (ptpGone x0) := by
  unfold ptpGone
  repeat' first
    | with_reducible assumption | (simp only [kept_mk]; with_reducible apply keptC_upd) | with_reducible apply kept_ptpSelect
    | dsimp only | with_reducible exact Kept.refl _

theorem kept_execSerdesRefLoss {x0 : Moment} {x1 : State} (h1 : Kept s0 x1) : KeptOut s0 (execSerdesRefLoss x0 x1) := by
  unfold execSerdesRefLoss
  repeat' first
    | with_reducible assumption | intro _ | (simp only [kept_mk]; with_reducible apply keptC_upd)
    | with_reducible apply keptOut_next | with_reducible apply keptOut_ite | with_reducible apply kept_State_at
    | with_reducible apply kept_portDown | with_reducible apply kept_linkLost | with_reducible apply kept_settleAll
    | with_reducible apply kept_ptpGone | with_reducible apply kept_ite | with_reducible apply kept_foldl
    | with_reducible apply kept_foldl_snd | dsimp only | with_reducible exact Kept.refl _

theorem kept_execSerdesRefReturn {x0 : Moment} {x1 : State} (h1 : Kept s0 x1) : KeptOut s0 (execSerdesRefReturn x0 x1) := by
  unfold execSerdesRefReturn
  repeat' first
    | with_reducible assumption | intro _ | (simp only [kept_mk]; with_reducible apply keptC_upd)
    | with_reducible apply keptOut_next | with_reducible apply keptOut_ite | with_reducible apply kept_State_at
    | with_reducible apply kept_startTraining | with_reducible apply kept_ite | with_reducible apply kept_foldl
    | with_reducible apply kept_foldl_snd | dsimp only | with_reducible exact Kept.refl _

theorem kept_execRefclkLoss {x0 : Moment} {x1 : State} (h1 : Kept s0 x1) : KeptOut s0 (execRefclkLoss x0 x1) := by
  unfold execRefclkLoss
  repeat' first
    | with_reducible assumption | (simp only [kept_mk]; with_reducible apply keptC_upd) | with_reducible apply keptOut_next
    | with_reducible apply kept_State_at | with_reducible apply kept_linkReset | dsimp only | with_reducible exact Kept.refl _

theorem kept_execXtalStop {x0 : Moment} {x1 : State} (h1 : Kept s0 x1) : KeptOut s0 (execXtalStop x0 x1) := by
  unfold execXtalStop
  repeat' first
    | with_reducible assumption | intro _ | (simp only [kept_mk]; with_reducible apply keptC_upd)
    | with_reducible apply keptOut_next | with_reducible apply kept_State_at | with_reducible apply kept_modAon | dsimp only
    | with_reducible exact Kept.refl _

theorem kept_execXtalRestart {x0 : Moment} {x1 : State} (h1 : Kept s0 x1) : KeptOut s0 (execXtalRestart x0 x1) := by
  unfold execXtalRestart
  repeat' first
    | with_reducible assumption | intro _ | (simp only [kept_mk]; with_reducible apply keptC_upd)
    | with_reducible apply keptOut_next | with_reducible apply keptOut_ite | with_reducible apply kept_State_at
    | with_reducible apply kept_modAon | with_reducible apply kept_ite | dsimp only | with_reducible exact Kept.refl _

theorem kept_execSmbClockLowTimeout {x0 : Moment} {x1 : State} (h1 : Kept s0 x1) : KeptOut s0 (execSmbClockLowTimeout x0 x1) := by
  unfold execSmbClockLowTimeout
  repeat' first
    | with_reducible assumption | with_reducible apply keptOut_next | with_reducible apply kept_State_at | dsimp only
    | with_reducible exact Kept.refl _

theorem kept_execI3cIdleTimeout {x0 : Moment} {x1 : State} (h1 : Kept s0 x1) : KeptOut s0 (execI3cIdleTimeout x0 x1) := by
  unfold execI3cIdleTimeout
  repeat' first
    | with_reducible assumption | with_reducible apply keptOut_next | with_reducible apply kept_State_at | dsimp only
    | with_reducible exact Kept.refl _

theorem kept_execSpiFlashTimeout {x0 : Moment} {x1 : State} (h1 : Kept s0 x1) : KeptOut s0 (execSpiFlashTimeout x0 x1) := by
  unfold execSpiFlashTimeout
  repeat' first
    | with_reducible assumption | intro _ | (simp only [kept_mk]; with_reducible apply keptC_upd)
    | with_reducible apply keptOut_next | with_reducible apply keptOut_ite | with_reducible apply kept_State_at
    | with_reducible apply kept_stopBoot | with_reducible apply kept_endFwLoad | with_reducible apply kept_ite | split
    | dsimp only | with_reducible exact Kept.refl _

end Sys2Proof.Machine
end

