-- ==== Sys2Proof/Laws/KeptBar.lean ====
section
/-! SUPPORT. What the definitions of Sys2Proof/Machine/Bar.lean keep. -/

set_option linter.unusedSimpArgs false

namespace Sys2Proof.Machine

variable {s0 : State}

theorem kept_bar2Miss {x0 : Nat} {x1 : Nat} {x2 : Nat} {x3 : State} (h3 : Kept s0 x3) : Kept s0 (bar2Miss x0 x1 x2 x3) := by
  unfold bar2Miss
  repeat' first
    | with_reducible assumption | intro _ | (simp only [kept_mk]; with_reducible apply keptC_upd)
    | with_reducible apply kept_setFn | with_reducible apply kept_note | with_reducible apply kept_ite | dsimp only
    | with_reducible exact Kept.refl _

theorem kept_barAnswer {x0 : BarWait} {x1 : State} (h1 : Kept s0 x1) : Kept s0 (barAnswer x0 x1) := by
  unfold barAnswer
  repeat' first
    | with_reducible assumption | intro _ | (simp only [kept_mk]; with_reducible apply keptC_upd)
    | with_reducible apply kept_modErr | with_reducible apply kept_emit | with_reducible apply kept_refused
    | with_reducible apply kept_ueContained | with_reducible apply kept_corrected | with_reducible apply kept_foldl
    | with_reducible apply kept_foldl_snd | split | dsimp only | with_reducible exact Kept.refl _

theorem kept_barAccess {x0 : BarWait} {x1 : State} (h1 : Kept s0 x1) : Kept s0 (barAccess x0 x1) := by
  unfold barAccess
  repeat' first
    | with_reducible assumption | intro _ | (simp only [kept_mk]; with_reducible apply keptC_upd)
    | with_reducible apply kept_powerWait | with_reducible apply kept_partWrite | with_reducible apply kept_barAnswer | split
    | dsimp only | with_reducible exact Kept.refl _

theorem kept_barRetry {x0 : BarWait} {x1 : State} (h1 : Kept s0 x1) : Kept s0 (barRetry x0 x1) := by
  unfold barRetry
  repeat' first
    | with_reducible assumption | intro _ | with_reducible apply kept_barAccess | with_reducible apply kept_emit
    | with_reducible apply kept_ite | dsimp only | with_reducible exact Kept.refl _

theorem kept_barAgain {x0 : State} (h0 : Kept s0 x0) : Kept s0 (barAgain x0) := by
  unfold barAgain
  repeat' first
    | with_reducible assumption | intro _ | (simp only [kept_mk]; with_reducible apply keptC_upd)
    | with_reducible apply kept_barRetry | with_reducible apply kept_foldl | with_reducible apply kept_foldl_snd | dsimp only
    | with_reducible exact Kept.refl _

theorem kept_bar2Read {x0 : Nat} {x1 : Nat} {x2 : Nat} {x3 : State} (h3 : Kept s0 x3) : Kept s0 (bar2Read x0 x1 x2 x3) := by
  unfold bar2Read
  repeat' first
    | with_reducible assumption | (simp only [kept_mk]; with_reducible apply keptC_upd) | with_reducible apply kept_barAccess
    | with_reducible apply kept_emit | with_reducible apply kept_bar2Miss | split | dsimp only
    | with_reducible exact Kept.refl _

theorem kept_bar2Write {x0 : Nat} {x1 : Nat} {x2 : Bytes} {x3 : State} (h3 : Kept s0 x3) : Kept s0 (bar2Write x0 x1 x2 x3) := by
  unfold bar2Write
  repeat' first
    | with_reducible assumption | (simp only [kept_mk]; with_reducible apply keptC_upd) | with_reducible apply kept_barAccess
    | with_reducible apply kept_bar2Miss | split | dsimp only | with_reducible exact Kept.refl _

theorem kept_execBar2Read {x0 : Moment} {x1 : Nat} {x2 : Nat} {x3 : Nat} {x4 : State} (h4 : Kept s0 x4) : KeptOut s0 (execBar2Read x0 x1 x2 x3 x4) := by
  unfold execBar2Read
  repeat' first
    | with_reducible assumption | intro _ | with_reducible apply keptOut_next | with_reducible apply keptOut_ite
    | with_reducible apply kept_State_at | with_reducible apply kept_settleAll | with_reducible apply kept_hostAccess
    | with_reducible apply kept_bar2Read | with_reducible apply kept_ite | dsimp only | with_reducible exact Kept.refl _

theorem kept_execBar2Write {x0 : Moment} {x1 : Nat} {x2 : Nat} {x3 : Bytes} {x4 : State} (h4 : Kept s0 x4) : KeptOut s0 (execBar2Write x0 x1 x2 x3 x4) := by
  unfold execBar2Write
  repeat' first
    | with_reducible assumption | intro _ | with_reducible apply keptOut_next | with_reducible apply keptOut_ite
    | with_reducible apply kept_State_at | with_reducible apply kept_hostAccess | with_reducible apply kept_bar2Write
    | with_reducible apply kept_ite | dsimp only | with_reducible exact Kept.refl _

theorem kept_mbxRegWrite {x0 : Nat} {x1 : Nat} {x2 : Nat} {x3 : Bytes} {x4 : State} (h4 : Kept s0 x4) : Kept s0 (mbxRegWrite x0 x1 x2 x3 x4) := by
  unfold mbxRegWrite
  repeat' first
    | with_reducible assumption | intro _ | with_reducible apply kept_mbxWrite | with_reducible apply kept_ownWrite
    | with_reducible apply kept_ite | dsimp only | with_reducible exact Kept.refl _

theorem kept_evtStatusWrite {x0 : Nat} {x1 : Nat} {x2 : State} (h2 : Kept s0 x2) : Kept s0 (evtStatusWrite x0 x1 x2) := by
  unfold evtStatusWrite
  repeat' first
    | with_reducible assumption | (simp only [kept_mk]; with_reducible apply keptC_upd) | with_reducible apply kept_setFn
    | dsimp only | with_reducible exact Kept.refl _

theorem kept_evtRegWrite {x0 : Nat} {x1 : Nat} {x2 : Bytes} {x3 : State} (h3 : Kept s0 x3) : Kept s0 (evtRegWrite x0 x1 x2 x3) := by
  unfold evtRegWrite
  repeat' first
    | with_reducible assumption | intro _ | with_reducible apply kept_evtStatusWrite | with_reducible apply kept_evtConsWrite
    | with_reducible apply kept_ite | dsimp only | with_reducible exact Kept.refl _

theorem kept_msixWrite {x0 : Nat} {x1 : Nat} {x2 : Bytes} {x3 : State} (h3 : Kept s0 x3) : Kept s0 (msixWrite x0 x1 x2 x3) := by
  unfold msixWrite
  repeat' first
    | with_reducible assumption | intro _ | (simp only [kept_mk]; with_reducible apply keptC_upd)
    | with_reducible apply kept_msixUnmask | with_reducible apply kept_setFn | with_reducible apply kept_ite | dsimp only
    | with_reducible exact Kept.refl _

theorem kept_registerWrite {x0 : Nat} {x1 : Nat} {x2 : Nat} {x3 : Nat} {x4 : Nat} {x5 : State} (h5 : Kept s0 x5) : Kept s0 (registerWrite x0 x1 x2 x3 x4 x5) := by
  unfold registerWrite
  repeat' first
    | with_reducible assumption | intro _ | with_reducible apply kept_msixWrite | with_reducible apply kept_mbxRegWrite
    | with_reducible apply kept_evtRegWrite | with_reducible apply kept_chkWrite | with_reducible apply kept_ite | dsimp only
    | with_reducible exact Kept.refl _

theorem kept_execRegisterWrite {x0 : Moment} {x1 : Nat} {x2 : Nat} {x3 : Nat} {x4 : Nat} {x5 : Nat} {x6 : State} (h6 : Kept s0 x6) : KeptOut s0 (execRegisterWrite x0 x1 x2 x3 x4 x5 x6) := by
  unfold execRegisterWrite
  repeat' first
    | with_reducible assumption | intro _ | with_reducible apply keptOut_next | with_reducible apply keptOut_ite
    | with_reducible apply kept_State_at | with_reducible apply kept_hostAccess | with_reducible apply kept_registerWrite
    | with_reducible apply kept_ite | dsimp only | with_reducible exact Kept.refl _

theorem kept_execCtNowLowRead {x0 : Moment} {x1 : Nat} {x2 : State} (h2 : Kept s0 x2) : KeptOut s0 (execCtNowLowRead x0 x1 x2) := by
  unfold execCtNowLowRead
  repeat' first
    | with_reducible assumption | intro _ | (simp only [kept_mk]; with_reducible apply keptC_upd)
    | with_reducible apply keptOut_next | with_reducible apply keptOut_ite | with_reducible apply kept_State_at
    | with_reducible apply kept_hostAccess | with_reducible apply kept_emit | with_reducible apply kept_setFn
    | with_reducible apply kept_ite | dsimp only | with_reducible exact Kept.refl _

theorem kept_execCtUtcDateRead {x0 : Moment} {x1 : Nat} {x2 : State} (h2 : Kept s0 x2) : KeptOut s0 (execCtUtcDateRead x0 x1 x2) := by
  unfold execCtUtcDateRead
  repeat' first
    | with_reducible assumption | intro _ | (simp only [kept_mk]; with_reducible apply keptC_upd)
    | with_reducible apply keptOut_next | with_reducible apply keptOut_ite | with_reducible apply kept_State_at
    | with_reducible apply kept_hostAccess | with_reducible apply kept_emit | with_reducible apply kept_setFn
    | with_reducible apply kept_ite | split | dsimp only | with_reducible exact Kept.refl _

end Sys2Proof.Machine
end

