-- ==== Sys2Proof/Laws/KeptGeneric.lean ====
section
/-! SUPPORT. What the definitions of Sys2Proof/Machine/Generic.lean keep. -/

set_option linter.unusedSimpArgs false

namespace Sys2Proof.Machine

variable {s0 : State}

theorem kept_bodyNop {x0 : Moment} {x1 : Req} {x2 : State} (h2 : Kept s0 x2) : Kept s0 (bodyNop x0 x1 x2).st := by
  unfold bodyNop
  repeat' first
    | with_reducible assumption | intro _ | with_reducible apply kept_reply_ok | with_reducible apply kept_ite_st
    | with_reducible apply kept_ite | dsimp only | with_reducible exact Kept.refl _

theorem kept_execNop {x0 : Moment} {x1 : Req} {x2 : State} (h2 : Kept s0 x2) : KeptOut s0 (execNop x0 x1 x2) := by
  unfold execNop
  repeat' first
    | with_reducible assumption | with_reducible apply keptOut_next | with_reducible apply kept_runCommand
    | with_reducible apply kept_bodyNop | dsimp only | with_reducible exact Kept.refl _

theorem kept_bodyQuery {x0 : Moment} {x1 : Req} {x2 : State} (h2 : Kept s0 x2) : Kept s0 (bodyQuery x0 x1 x2).st := by
  unfold bodyQuery
  repeat' first
    | with_reducible assumption | (simp only [kept_mk]; with_reducible apply keptC_upd) | with_reducible apply kept_reply_ok
    | with_reducible apply kept_reply_err | split | dsimp only | with_reducible exact Kept.refl _

theorem kept_execQuery {x0 : Moment} {x1 : Req} {x2 : State} (h2 : Kept s0 x2) : KeptOut s0 (execQuery x0 x1 x2) := by
  unfold execQuery
  repeat' first
    | with_reducible assumption | with_reducible apply keptOut_next | with_reducible apply kept_runCommand
    | with_reducible apply kept_bodyQuery | dsimp only | with_reducible exact Kept.refl _

theorem kept_bodyProgress {x0 : Moment} {x1 : Req} {x2 : State} (h2 : Kept s0 x2) : Kept s0 (bodyProgress x0 x1 x2).st := by
  unfold bodyProgress
  repeat' first
    | with_reducible assumption | (simp only [kept_mk]; with_reducible apply keptC_upd) | with_reducible apply kept_reply_ok
    | with_reducible apply kept_reply_err | split | dsimp only | with_reducible exact Kept.refl _

theorem kept_execProgress {x0 : Moment} {x1 : Req} {x2 : State} (h2 : Kept s0 x2) : KeptOut s0 (execProgress x0 x1 x2) := by
  unfold execProgress
  repeat' first
    | with_reducible assumption | with_reducible apply keptOut_next | with_reducible apply kept_runCommand
    | with_reducible apply kept_bodyProgress | dsimp only | with_reducible exact Kept.refl _

theorem kept_bodyCancel {x0 : Moment} {x1 : Req} {x2 : State} (h2 : Kept s0 x2) : Kept s0 (bodyCancel x0 x1 x2).st := by
  unfold bodyCancel
  repeat' first
    | with_reducible assumption | intro _ | (simp only [kept_mk]; with_reducible apply keptC_upd)
    | with_reducible apply kept_reply_ok | with_reducible apply kept_reply_err | with_reducible apply kept_ite_st
    | with_reducible apply kept_progressOp | with_reducible apply kept_setOp | with_reducible apply kept_ite | split
    | dsimp only | with_reducible exact Kept.refl _

theorem kept_execCancel {x0 : Moment} {x1 : Req} {x2 : State} (h2 : Kept s0 x2) : KeptOut s0 (execCancel x0 x1 x2) := by
  unfold execCancel
  repeat' first
    | with_reducible assumption | with_reducible apply keptOut_next | with_reducible apply kept_runCommand
    | with_reducible apply kept_bodyCancel | dsimp only | with_reducible exact Kept.refl _

theorem kept_flushBootLog {x0 : State} (h0 : Kept s0 x0) : Kept s0 (flushBootLog x0) := by
  unfold flushBootLog
  repeat' first
    | with_reducible assumption | intro _ | (simp only [kept_mk]; with_reducible apply keptC_upd)
    | with_reducible apply kept_putRecord | with_reducible apply kept_dropEvent | with_reducible apply kept_ite
    | with_reducible apply kept_foldl | with_reducible apply kept_foldl_snd | dsimp only | with_reducible exact Kept.refl _

theorem kept_bodyEventCfg {x0 : Moment} {x1 : Req} {x2 : State} (h2 : Kept s0 x2) : Kept s0 (bodyEventCfg x0 x1 x2).st := by
  unfold bodyEventCfg
  repeat' first
    | with_reducible assumption | intro _ | (simp only [kept_mk]; with_reducible apply keptC_upd)
    | with_reducible apply kept_reply_ok | with_reducible apply kept_reply_err | with_reducible apply kept_ite_st
    | with_reducible apply kept_setFn | with_reducible apply kept_flushBootLog | with_reducible apply kept_ite | dsimp only
    | with_reducible exact Kept.refl _

theorem kept_execEventCfg {x0 : Moment} {x1 : Req} {x2 : State} (h2 : Kept s0 x2) : KeptOut s0 (execEventCfg x0 x1 x2) := by
  unfold execEventCfg
  repeat' first
    | with_reducible assumption | with_reducible apply keptOut_next | with_reducible apply kept_runCommand
    | with_reducible apply kept_bodyEventCfg | dsimp only | with_reducible exact Kept.refl _

theorem kept_bodyApertureSet {x0 : Moment} {x1 : Req} {x2 : State} (h2 : Kept s0 x2) : Kept s0 (bodyApertureSet x0 x1 x2).st := by
  unfold bodyApertureSet
  repeat' first
    | with_reducible assumption | intro _ | (simp only [kept_mk]; with_reducible apply keptC_upd)
    | with_reducible apply kept_reply_ok | with_reducible apply kept_ite_st | with_reducible apply kept_checked
    | with_reducible apply kept_setFn | with_reducible apply kept_ite | dsimp only | with_reducible exact Kept.refl _

theorem kept_execApertureSet {x0 : Moment} {x1 : Req} {x2 : State} (h2 : Kept s0 x2) : KeptOut s0 (execApertureSet x0 x1 x2) := by
  unfold execApertureSet
  repeat' first
    | with_reducible assumption | with_reducible apply keptOut_next | with_reducible apply kept_runCommand
    | with_reducible apply kept_bodyApertureSet | dsimp only | with_reducible exact Kept.refl _

end Sys2Proof.Machine
end

