-- ==== Sys2Proof/Laws/KeptLongOps.lean ====
section
/-! SUPPORT. What the definitions of Sys2Proof/Machine/LongOps.lean keep. -/

set_option linter.unusedSimpArgs false

namespace Sys2Proof.Machine

variable {s0 : State}

theorem kept_endFoundry_endWaiting {x0 : Nat} {x1 : State} (h1 : Kept s0 x1) : Kept s0 (endFoundry.endWaiting x0 x1) := by
  unfold endFoundry.endWaiting
  repeat' first
    | with_reducible assumption | intro _ | (simp only [kept_mk]; with_reducible apply keptC_upd)
    | with_reducible apply kept_endOp | with_reducible apply kept_modSess | split | dsimp only
    | with_reducible exact Kept.refl _

theorem kept_endFoundry {x0 : Nat} {x1 : State} (h1 : Kept s0 x1) : Kept s0 (endFoundry x0 x1) := by
  unfold endFoundry
  repeat' first
    | with_reducible assumption | intro _ | (simp only [kept_mk]; with_reducible apply keptC_upd)
    | with_reducible apply kept_endFoundry_endWaiting | with_reducible apply kept_cancelFop | with_reducible apply kept_ite
    | split | dsimp only | with_reducible exact Kept.refl _

theorem kept_endCut {x0 : Nat} {x1 : State} (h1 : Kept s0 x1) : Kept s0 (endCut x0 x1) := by
  unfold endCut
  repeat' first
    | with_reducible assumption | intro _ | (simp only [kept_mk]; with_reducible apply keptC_upd)
    | with_reducible apply kept_cutFail | with_reducible apply kept_ite | split | dsimp only | with_reducible exact Kept.refl _

theorem kept_endRestoreOp {x0 : Moment} {x1 : Nat} {x2 : State} (h2 : Kept s0 x2) : Kept s0 (endRestoreOp x0 x1 x2) := by
  unfold endRestoreOp
  repeat' first
    | with_reducible assumption | intro _ | (simp only [kept_mk]; with_reducible apply keptC_upd)
    | with_reducible apply kept_endOp | with_reducible apply kept_restoreTake | with_reducible apply kept_dropCmds
    | with_reducible apply kept_ite | split | dsimp only | with_reducible exact Kept.refl _

theorem kept_endByKind {x0 : Moment} {x1 : Nat} {x2 : LongOp} {x3 : Bool} {x4 : State} (h4 : Kept s0 x4) : Kept s0 (endByKind x0 x1 x2 x3 x4) := by
  unfold endByKind
  repeat' first
    | with_reducible assumption | intro _ | (simp only [kept_mk]; with_reducible apply keptC_upd)
    | with_reducible apply kept_reply_ok | with_reducible apply kept_reply_err | with_reducible apply kept_reply_wait
    | with_reducible apply kept_ite_st | with_reducible apply kept_endSessionAppend | with_reducible apply kept_endFoundry
    | with_reducible apply kept_endHmkPartitionSet | with_reducible apply kept_endTablesetLoad
    | with_reducible apply kept_endTwinClear | with_reducible apply kept_endGthTableDrop
    | with_reducible apply kept_endDevReset | with_reducible apply kept_endOp | with_reducible apply kept_endSessionRebind
    | with_reducible apply kept_endTchIndexDrop | with_reducible apply kept_endNetQpClose
    | with_reducible apply kept_endModelPlace | with_reducible apply kept_endTchRepair
    | with_reducible apply kept_endModelLoad | with_reducible apply kept_endGthVersion
    | with_reducible apply kept_endPtnConfig | with_reducible apply kept_endFwLoad | with_reducible apply kept_endChkRun
    | with_reducible apply kept_endRestoreOp | with_reducible apply kept_endOtpProgram
    | with_reducible apply kept_endSessionList | with_reducible apply kept_endPtnPurge
    | with_reducible apply kept_endTablesetRetire | with_reducible apply kept_endTchQuery | with_reducible apply kept_endCut
    | with_reducible apply kept_mapSwapNext | with_reducible apply kept_endNetMapUpdate
    | with_reducible apply kept_endNetPost | with_reducible apply kept_endGthRun | with_reducible apply kept_endTchInsert
    | with_reducible apply kept_ite | split | dsimp only
    | with_reducible exact Kept.refl _

theorem kept_execLongOpEnd {x0 : Moment} {x1 : Nat} {x2 : Bool} {x3 : State} (h3 : Kept s0 x3) : KeptOut s0 (execLongOpEnd x0 x1 x2 x3) := by
  unfold execLongOpEnd
  repeat' first
    | with_reducible assumption | intro _ | (simp only [kept_mk]; with_reducible apply keptC_upd)
    | with_reducible apply keptOut_next | with_reducible apply keptOut_ite | with_reducible apply kept_State_at
    | with_reducible apply kept_settleAll | with_reducible apply kept_endByKind | with_reducible apply kept_ite | split
    | dsimp only | with_reducible exact Kept.refl _

end Sys2Proof.Machine
end

