-- ==== Sys2Proof/Laws/KeptTake.lean ====
section
/-! SUPPORT. What the definitions of Sys2Proof/Machine/Take.lean keep. -/

set_option linter.unusedSimpArgs false

namespace Sys2Proof.Machine

variable {s0 : State}

theorem keptM_group00 {n : Nat} {i : OpInfo} {body : Moment → Req → State → Reply} (e : group00 n = some (i, body)) :
    ∀ m r s, Kept s0 s → Kept s0 (body m r s).st := by
  unfold group00 at e
  split at e <;> cases e <;> first
    | with_reducible exact fun _ _ _ h => kept_bodyNop h | with_reducible exact fun _ _ _ h => kept_bodyQuery h | with_reducible exact fun _ _ _ h => kept_bodyProgress h
    | with_reducible exact fun _ _ _ h => kept_bodyCancel h | with_reducible exact fun _ _ _ h => kept_bodyEventCfg h
    | with_reducible exact fun _ _ _ h => kept_bodyApertureSet h

theorem keptM_group01 {n : Nat} {i : OpInfo} {body : Moment → Req → State → Reply} (e : group01 n = some (i, body)) :
    ∀ m r s, Kept s0 s → Kept s0 (body m r s).st := by
  unfold group01 at e
  split at e <;> cases e <;> first
    | with_reducible exact fun _ _ _ h => kept_bodySessionAdmit h | with_reducible exact fun _ _ _ h => kept_bodySessionAppend h
    | with_reducible exact fun _ _ _ h => kept_bodySessionAppendTokens h | with_reducible exact fun _ _ _ h => kept_bodySessionStop h
    | with_reducible exact fun _ _ _ h => kept_bodySessionRead h | with_reducible exact fun _ _ _ h => kept_bodySessionSet h
    | with_reducible exact fun _ _ _ h => kept_bodySessionRebind h | with_reducible exact fun _ _ _ h => kept_bodySessionRetire h
    | with_reducible exact fun _ _ _ h => kept_bodySessionArm h | with_reducible exact fun _ _ _ h => kept_bodySessionList h
    | with_reducible exact fun _ _ _ h => kept_bodyJournalRead h | with_reducible exact fun _ _ _ h => kept_bodyPlnConfig h

theorem keptM_group02 {n : Nat} {i : OpInfo} {body : Moment → Req → State → Reply} (e : group02 n = some (i, body)) :
    ∀ m r s, Kept s0 s → Kept s0 (body m r s).st := by
  unfold group02 at e
  split at e <;> cases e <;> first
    | with_reducible exact fun _ _ _ h => kept_bodyFdyCast h | with_reducible exact fun _ _ _ h => kept_bodyFdyRaise h
    | with_reducible exact fun _ _ _ h => kept_bodyFdyMigrate h | with_reducible exact fun _ _ _ h => kept_bodyFdyDirRead h
    | with_reducible exact fun _ _ _ h => kept_bodyFdyConfig h | with_reducible exact fun _ _ _ h => kept_bodyFdySubmit h
    | with_reducible exact fun _ _ _ h => kept_bodyFdyExportRelease h

theorem keptM_group03 {n : Nat} {i : OpInfo} {body : Moment → Req → State → Reply} (e : group03 n = some (i, body)) :
    ∀ m r s, Kept s0 s → Kept s0 (body m r s).st := by
  unfold group03 at e
  split at e <;> cases e <;> first
    | with_reducible exact fun _ _ _ h => kept_bodyPtnPublish h | with_reducible exact fun _ _ _ h => kept_bodyPtnMatch h
    | with_reducible exact fun _ _ _ h => kept_bodyPtnDelete h | with_reducible exact fun _ _ _ h => kept_bodyPtnPin h
    | with_reducible exact fun _ _ _ h => kept_bodyPtnRead h | with_reducible exact fun _ _ _ h => kept_bodyPtnPurge h
    | with_reducible exact fun _ _ _ h => kept_bodyPtnConfig h | with_reducible exact fun _ _ _ h => kept_bodyPagePoolConfig h
    | with_reducible exact fun _ _ _ h => kept_bodyPageTableRead h

theorem keptM_group04 {n : Nat} {i : OpInfo} {body : Moment → Req → State → Reply} (e : group04 n = some (i, body)) :
    ∀ m r s, Kept s0 s → Kept s0 (body m r s).st := by
  unfold group04 at e
  split at e <;> cases e <;> first
    | with_reducible exact fun _ _ _ h => kept_bodyModelLoad h | with_reducible exact fun _ _ _ h => kept_bodyModelUnload h
    | with_reducible exact fun _ _ _ h => kept_bodyModelQuery h | with_reducible exact fun _ _ _ h => kept_bodyModelPlace h
    | with_reducible exact fun _ _ _ h => kept_bodyAttConfig h

theorem keptM_group05 {n : Nat} {i : OpInfo} {body : Moment → Req → State → Reply} (e : group05 n = some (i, body)) :
    ∀ m r s, Kept s0 s → Kept s0 (body m r s).st := by
  unfold group05 at e
  split at e <;> cases e <;> first
    | with_reducible exact fun _ _ _ h => kept_bodyTablesetLoad h | with_reducible exact fun _ _ _ h => kept_bodyTablesetRetire h
    | with_reducible exact fun _ _ _ h => kept_bodyTablesetQuery h | with_reducible exact fun _ _ _ h => kept_bodyShearCut h
    | with_reducible exact fun _ _ _ h => kept_bodySolderRender h

theorem keptM_group06 {n : Nat} {i : OpInfo} {body : Moment → Req → State → Reply} (e : group06 n = some (i, body)) :
    ∀ m r s, Kept s0 s → Kept s0 (body m r s).st := by
  unfold group06 at e
  split at e <;> cases e <;> first
    | with_reducible exact fun _ _ _ h => kept_bodyFinSet h | with_reducible exact fun _ _ _ h => kept_bodyFinRead h
    | with_reducible exact fun _ _ _ h => kept_bodyGrammarCheck h | with_reducible exact fun _ _ _ h => kept_bodySpinDraw h

theorem keptM_group07 {n : Nat} {i : OpInfo} {body : Moment → Req → State → Reply} (e : group07 n = some (i, body)) :
    ∀ m r s, Kept s0 s → Kept s0 (body m r s).st := by
  unfold group07 at e
  split at e <;> cases e <;> first
    | with_reducible exact fun _ _ _ h => kept_bodyClassSet h | with_reducible exact fun _ _ _ h => kept_bodyClassRead h
    | with_reducible exact fun _ _ _ h => kept_bodyClassDelete h | with_reducible exact fun _ _ _ h => kept_bodyMeterSet h
    | with_reducible exact fun _ _ _ h => kept_bodyMeterRead h | with_reducible exact fun _ _ _ h => kept_bodyPartitionShare h
    | with_reducible exact fun _ _ _ h => kept_bodyStreamRingSet h | with_reducible exact fun _ _ _ h => kept_bodyGaugeReport h
    | with_reducible exact fun _ _ _ h => kept_bodyGaugeConfig h | with_reducible exact fun _ _ _ h => kept_bodyPlaQueueRead h

theorem keptM_group08 {n : Nat} {i : OpInfo} {body : Moment → Req → State → Reply} (e : group08 n = some (i, body)) :
    ∀ m r s, Kept s0 s → Kept s0 (body m r s).st := by
  unfold group08 at e
  split at e <;> cases e <;> first
    | with_reducible exact fun _ _ _ h => kept_bodyTlyRead h | with_reducible exact fun _ _ _ h => kept_bodyTlyEvidence h
    | with_reducible exact fun _ _ _ h => kept_bodyTlyConfig h

theorem keptM_group09 {n : Nat} {i : OpInfo} {body : Moment → Req → State → Reply} (e : group09 n = some (i, body)) :
    ∀ m r s, Kept s0 s → Kept s0 (body m r s).st := by
  unfold group09 at e
  split at e <;> cases e <;> first
    | with_reducible exact fun _ _ _ h => kept_bodyTchIndexCreate h | with_reducible exact fun _ _ _ h => kept_bodyTchIndexDrop h
    | with_reducible exact fun _ _ _ h => kept_bodyTchInsert h | with_reducible exact fun _ _ _ h => kept_bodyTchDelete h
    | with_reducible exact fun _ _ _ h => kept_bodyTchQuery h | with_reducible exact fun _ _ _ h => kept_bodyTchBulk h
    | with_reducible exact fun _ _ _ h => kept_bodyTchIndexQuery h | with_reducible exact fun _ _ _ h => kept_bodyTchRepair h
    | with_reducible exact fun _ _ _ h => kept_bodyGthTableLoad h | with_reducible exact fun _ _ _ h => kept_bodyGthTablePatch h
    | with_reducible exact fun _ _ _ h => kept_bodyGthTableDrop h | with_reducible exact fun _ _ _ h => kept_bodyGthHotSet h
    | with_reducible exact fun _ _ _ h => kept_bodyGthRun h | with_reducible exact fun _ _ _ h => kept_bodyGthTableQuery h

theorem keptM_group0A {n : Nat} {i : OpInfo} {body : Moment → Req → State → Reply} (e : group0A n = some (i, body)) :
    ∀ m r s, Kept s0 s → Kept s0 (body m r s).st := by
  unfold group0A at e
  split at e <;> cases e <;> first
    | with_reducible exact fun _ _ _ h => kept_bodyNetPortSet h | with_reducible exact fun _ _ _ h => kept_bodyNetPortQuery h
    | with_reducible exact fun _ _ _ h => kept_bodyNetQpConnect h | with_reducible exact fun _ _ _ h => kept_bodyNetQpClose h
    | with_reducible exact fun _ _ _ h => kept_bodyNetQpQuery h | with_reducible exact fun _ _ _ h => kept_bodyNetCcSet h
    | with_reducible exact fun _ _ _ h => kept_bodyNetRegionReg h | with_reducible exact fun _ _ _ h => kept_bodyNetRegionDereg h
    | with_reducible exact fun _ _ _ h => kept_bodyNetPost h | with_reducible exact fun _ _ _ h => kept_bodyNetChainPost h
    | with_reducible exact fun _ _ _ h => kept_bodyNetChainCancel h | with_reducible exact fun _ _ _ h => kept_bodyNetMapUpdate h
    | with_reducible exact fun _ _ _ h => kept_bodyNetMapSwap h | with_reducible exact fun _ _ _ h => kept_bodyNetMapRead h
    | with_reducible exact fun _ _ _ h => kept_bodyNetPtpSet h | with_reducible exact fun _ _ _ h => kept_bodyNvmeConnect h
    | with_reducible exact fun _ _ _ h => kept_bodyNvmeDisconnect h | with_reducible exact fun _ _ _ h => kept_bodyNetRegionQuery h

theorem keptM_group0B {n : Nat} {i : OpInfo} {body : Moment → Req → State → Reply} (e : group0B n = some (i, body)) :
    ∀ m r s, Kept s0 s → Kept s0 (body m r s).st := by
  unfold group0B at e
  split at e <;> cases e <;> first
    | with_reducible exact fun _ _ _ h => kept_bodySwlQuery h | with_reducible exact fun _ _ _ h => kept_bodySwlLinkSet h
    | with_reducible exact fun _ _ _ h => kept_bodyTwinSet h | with_reducible exact fun _ _ _ h => kept_bodyTwinClear h
    | with_reducible exact fun _ _ _ h => kept_bodyTwinQuery h

theorem keptM_group0C {n : Nat} {i : OpInfo} {body : Moment → Req → State → Reply} (e : group0C n = some (i, body)) :
    ∀ m r s, Kept s0 s → Kept s0 (body m r s).st := by
  unfold group0C at e
  split at e <;> cases e <;> first
    | with_reducible exact fun _ _ _ h => kept_bodyMldGroupSet h | with_reducible exact fun _ _ _ h => kept_bodyMldGroupQuery h
    | with_reducible exact fun _ _ _ h => kept_bodyMldCut h | with_reducible exact fun _ _ _ h => kept_bodyMldRestore h
    | with_reducible exact fun _ _ _ h => kept_bodyMldConfig h | with_reducible exact fun _ _ _ h => kept_bodyChkClaim h
    | with_reducible exact fun _ _ _ h => kept_bodyChkRelease h | with_reducible exact fun _ _ _ h => kept_bodyChkRun h

theorem keptM_group0D {n : Nat} {i : OpInfo} {body : Moment → Req → State → Reply} (e : group0D n = some (i, body)) :
    ∀ m r s, Kept s0 s → Kept s0 (body m r s).st := by
  unfold group0D at e
  split at e <;> cases e <;> first
    | with_reducible exact fun _ _ _ h => kept_bodyHmkPartitionSet h | with_reducible exact fun _ _ _ h => kept_bodyHmkPartitionTeardown h
    | with_reducible exact fun _ _ _ h => kept_bodyHmkPartitionQuery h | with_reducible exact fun _ _ _ h => kept_bodyHmkKeyLoad h
    | with_reducible exact fun _ _ _ h => kept_bodyHmkKeyDestroy h | with_reducible exact fun _ _ _ h => kept_bodyHmkAttest h
    | with_reducible exact fun _ _ _ h => kept_bodyHmkCertRead h | with_reducible exact fun _ _ _ h => kept_bodyHmkRollbackCommit h

theorem keptM_group0E {n : Nat} {i : OpInfo} {body : Moment → Req → State → Reply} (e : group0E n = some (i, body)) :
    ∀ m r s, Kept s0 s → Kept s0 (body m r s).st := by
  unfold group0E at e
  split at e <;> cases e <;> first
    | with_reducible exact fun _ _ _ h => kept_bodyPwrSet h | with_reducible exact fun _ _ _ h => kept_bodyPwrQuery h
    | with_reducible exact fun _ _ _ h => kept_bodyPwrResume h | with_reducible exact fun _ _ _ h => kept_bodyCtConfig h
    | with_reducible exact fun _ _ _ h => kept_bodyCtStep h | with_reducible exact fun _ _ _ h => kept_bodyCtLeapLoad h
    | with_reducible exact fun _ _ _ h => kept_bodyAonSettingsSave h | with_reducible exact fun _ _ _ h => kept_bodyAonSettingsRead h
    | with_reducible exact fun _ _ _ h => kept_bodyOtpProgram h | with_reducible exact fun _ _ _ h => kept_bodyAonLifeRead h
    | with_reducible exact fun _ _ _ h => kept_bodyAonLifeSync h

theorem keptM_group0F {n : Nat} {i : OpInfo} {body : Moment → Req → State → Reply} (e : group0F n = some (i, body)) :
    ∀ m r s, Kept s0 s → Kept s0 (body m r s).st := by
  unfold group0F at e
  split at e <;> cases e <;> first
    | with_reducible exact fun _ _ _ h => kept_bodyDevReset h | with_reducible exact fun _ _ _ h => kept_bodyDiagTraining h
    | with_reducible exact fun _ _ _ h => kept_bodyDiagErrors h | with_reducible exact fun _ _ _ h => kept_bodyDiagViewCheck h
    | with_reducible exact fun _ _ _ h => kept_bodyDiagInject h | with_reducible exact fun _ _ _ h => kept_bodyFwLoad h
    | with_reducible exact fun _ _ _ h => kept_bodyDiagBootLog h

theorem keptM_commandOf {n : Nat} {i : OpInfo} {body : Moment → Req → State → Reply} (e : commandOf n = some (i, body)) :
    ∀ m r s, Kept s0 s → Kept s0 (body m r s).st := by
  unfold commandOf at e
  split at e
  · exact keptM_group00 e
  · exact keptM_group01 e
  · exact keptM_group02 e
  · exact keptM_group03 e
  · exact keptM_group04 e
  · exact keptM_group05 e
  · exact keptM_group06 e
  · exact keptM_group07 e
  · exact keptM_group08 e
  · exact keptM_group09 e
  · exact keptM_group0A e
  · exact keptM_group0B e
  · exact keptM_group0C e
  · exact keptM_group0D e
  · exact keptM_group0E e
  · exact keptM_group0F e
  · cases e

theorem kept_runTaken {x0 : Moment} {x1 : Req} {x2 : State} (h2 : Kept s0 x2) : Kept s0 (runTaken x0 x1 x2) := by
  unfold runTaken
  split
  · exact kept_complete h2
  · exact kept_settleAll (kept_commandStep (keptM_commandOf ‹_›) h2)

theorem kept_execMbxTake {x0 : Moment} {x1 : Nat} {x2 : Nat} {x3 : State} (h3 : Kept s0 x3) : KeptOut s0 (execMbxTake x0 x1 x2 x3) := by
  unfold execMbxTake
  repeat' first
    | with_reducible assumption | intro _ | with_reducible apply keptOut_next | with_reducible apply keptOut_ite
    | with_reducible apply kept_State_at | with_reducible apply kept_runTaken | with_reducible apply kept_capture
    | with_reducible apply kept_ite | dsimp only | with_reducible exact Kept.refl _

theorem kept_execMctpRequest {x0 : Moment} {x1 : Req} {x2 : State} (h2 : Kept s0 x2) : KeptOut s0 (execMctpRequest x0 x1 x2) := by
  unfold execMctpRequest
  repeat' first
    | with_reducible assumption | intro _ | (simp only [kept_mk]; with_reducible apply keptC_upd)
    | with_reducible apply keptOut_next | with_reducible apply keptOut_ite | with_reducible apply kept_State_at
    | with_reducible apply kept_runTaken | with_reducible apply kept_ite | dsimp only | with_reducible exact Kept.refl _

theorem kept_execSwlForwardedCommand {x0 : Moment} {x1 : Nat} {x2 : Nat} {x3 : Nat} {x4 : Req} {x5 : State} (h5 : Kept s0 x5) : KeptOut s0 (execSwlForwardedCommand x0 x1 x2 x3 x4 x5) := by
  unfold execSwlForwardedCommand
  repeat' first
    | with_reducible assumption | intro _ | (simp only [kept_mk]; with_reducible apply keptC_upd)
    | with_reducible apply keptOut_next | with_reducible apply keptOut_ite | with_reducible apply kept_State_at
    | with_reducible apply kept_runTaken | with_reducible apply kept_swlGot | with_reducible apply kept_ite | dsimp only
    | with_reducible exact Kept.refl _

theorem kept_applyMirrored {x0 : Moment} {x1 : Req} {x2 : State} (h2 : Kept s0 x2) : Kept s0 (applyMirrored x0 x1 x2) := by
  unfold applyMirrored
  repeat' first
    | with_reducible assumption | intro _ | (simp only [kept_mk]; with_reducible apply keptC_upd)
    | with_reducible apply kept_twinFault | with_reducible apply kept_settleAll | with_reducible apply kept_twinEnd
    | with_reducible apply kept_shadowFiring | with_reducible apply kept_runTaken | with_reducible apply kept_hearLoss
    | with_reducible apply kept_ite | split | dsimp only | with_reducible exact Kept.refl _

theorem kept_execTwinMirroredCommand {x0 : Moment} {x1 : Req} {x2 : State} (h2 : Kept s0 x2) : KeptOut s0 (execTwinMirroredCommand x0 x1 x2) := by
  unfold execTwinMirroredCommand
  repeat' first
    | with_reducible assumption | intro _ | (simp only [kept_mk]; with_reducible apply keptC_upd)
    | with_reducible apply keptOut_next | with_reducible apply keptOut_ite | with_reducible apply kept_State_at
    | with_reducible apply kept_applyMirrored | with_reducible apply kept_swlGot | with_reducible apply kept_ite | split
    | dsimp only | with_reducible exact Kept.refl _

theorem kept_wakeCmds {x0 : Moment} {x1 : Nat} {x2 : State} (h2 : Kept s0 x2) : Kept s0 (wakeCmds x0 x1 x2) := by
  unfold wakeCmds
  repeat' first
    | with_reducible assumption | intro _ | (simp only [kept_mk]; with_reducible apply keptC_upd)
    | with_reducible apply kept_runTaken | with_reducible apply kept_foldl | with_reducible apply kept_foldl_snd | split
    | dsimp only | with_reducible exact Kept.refl _

theorem kept_wake {x0 : Moment} {x1 : Nat} {x2 : State} (h2 : Kept s0 x2) : Kept s0 (wake x0 x1 x2) := by
  unfold wake
  repeat' first
    | with_reducible assumption | intro _ | with_reducible apply kept_cutNext | with_reducible apply kept_pumpAll
    | with_reducible apply kept_barAgain | with_reducible apply kept_wakeCmds | with_reducible apply kept_pumpLink
    | with_reducible apply kept_ite | dsimp only | with_reducible exact Kept.refl _

theorem kept_execPwrTransitionPhaseDone {x0 : Moment} {x1 : Nat} {x2 : State} (h2 : Kept s0 x2) : KeptOut s0 (execPwrTransitionPhaseDone x0 x1 x2) := by
  unfold execPwrTransitionPhaseDone
  repeat' first
    | with_reducible assumption | intro _ | with_reducible apply keptOut_next | with_reducible apply keptOut_ite
    | with_reducible apply kept_groupPhase | with_reducible apply kept_State_at | with_reducible apply kept_settleAll
    | with_reducible apply kept_wake | with_reducible apply kept_ite | dsimp only | with_reducible exact Kept.refl _

end Sys2Proof.Machine
end

