-- ==== Sys2Proof/Laws/PartMemory.lean ====
section
/-! SUPPORT. What a write of a partition's memory does (R16, R442). -/

namespace Sys2Proof.Machine

/-- A write of partition memory changes device memory alone. -/
theorem partWrite_eq (p tier : Nat) (b : Bytes) (off : Nat) (s : State) :
    partWrite p tier off b s = { s with devMem := (partWrite p tier off b s).devMem } := by
  induction b generalizing off s with
  | nil => rfl
  | cons x b ih =>
    unfold partWrite
    rw [ih]
    rfl

theorem partAddr_devWrite (t a : Nat) (b : Bytes) (s : State) (p tier off : Nat) : partAddr (devWrite t a b s) p tier off = partAddr s p tier off := rfl

/-- It leaves the bytes at other keys. -/
theorem partWrite_frame (p tier : Nat) (b : Bytes) (off : Nat) (s : State) (k : Nat)
    (h : ∀ i < b.length, k ≠ devKey tier (partAddr s p tier (off + i))) :
    Mem.byte (partWrite p tier off b s).devMem k = Mem.byte s.devMem k := by
  induction b generalizing off s with
  | nil => rfl
  | cons x b ih =>
    unfold partWrite
    rw [ih]
    · have h0 := h 0 (by simp)
      rw [Nat.add_zero] at h0
      exact Mem.byte_write_of_not_mem _ _ _ (by simp only [List.length_singleton]; omega)
    · intro i hi
      rw [partAddr_devWrite, show off + 1 + i = off + (i + 1) by omega]
      exact h (i + 1) (by simp; omega)

theorem setBits_nodup (v : Nat) : (setBits 16 v).Nodup := List.Pairwise.filter _ List.nodup_range
theorem gs_pos (tier : Nat) : 0 < granuleSize tier := by unfold granuleSize; split <;> decide
/-- The granule in which an offset lies. -/
theorem gran_getD {s : State} {p tier off : Nat} (h : off < partBytes s p tier) :
    ∃ i, ∃ hi : i < (granules s p tier).length, i = off / granuleSize tier ∧
      partAddr s p tier off = (granules s p tier)[i] * granuleSize tier + off % granuleSize tier := by
  have hi : off / granuleSize tier < (granules s p tier).length := by
    rw [Nat.div_lt_iff_lt_mul (gs_pos tier)]; exact h
  refine ⟨_, hi, rfl, ?_⟩
  unfold partAddr
  simp [List.getD, List.getElem?_eq_getElem hi]
theorem mul_add_inj {g a b x y : Nat} (hx : x < g) (hy : y < g) (h : a * g + x = b * g + y) : a = b ∧ x = y := by
  have h1 : (a * g + x) / g = a := by rw [Nat.mul_comm, Nat.mul_add_div (by omega), Nat.div_eq_of_lt hx]; omega
  have h2 : (b * g + y) / g = b := by rw [Nat.mul_comm, Nat.mul_add_div (by omega), Nat.div_eq_of_lt hy]; omega
  have : a = b := by rw [← h1, ← h2, h]
  subst this; omega
/-- Two offsets of a partition have two addresses. -/
theorem partAddr_inj {s : State} {p tier x y : Nat} (hx : x < partBytes s p tier) (hy : y < partBytes s p tier)
    (h : partAddr s p tier x = partAddr s p tier y) : x = y := by
  obtain ⟨i, hi, ei, e1⟩ := gran_getD hx
  obtain ⟨j, hj, ej, e2⟩ := gran_getD hy
  rw [e1, e2] at h
  have g := gs_pos tier
  obtain ⟨h1, h2⟩ := mul_add_inj (Nat.mod_lt _ g) (Nat.mod_lt _ g) h
  have hp := List.pairwise_iff_getElem.mp (setBits_nodup (if tier = 1 then (getPart s p).hbmMask else (getPart s p).lpddrMask))
  have hij : i = j := by
    rcases Nat.lt_trichotomy i j with h | h | h
    · exact absurd h1 (hp i j hi hj h)
    · exact h
    · exact absurd h1.symm (hp j i hj hi h)
  have := Nat.div_add_mod x (granuleSize tier)
  have := Nat.div_add_mod y (granuleSize tier)
  rw [← ei] at *; rw [← ej] at *; subst hij; omega

/-- Each byte is stored where the partition has its offset. -/
theorem partWrite_bytes (p tier : Nat) (b : Bytes) (off : Nat) (s : State) (h : off + b.length ≤ partBytes s p tier) :
    ∀ i, (hi : i < b.length) → Mem.byte (partWrite p tier off b s).devMem (devKey tier (partAddr s p tier (off + i))) = b[i] := by
  induction b generalizing off s with
  | nil => intro i hi; simp at hi
  | cons x b ih =>
    intro i hi
    unfold partWrite
    cases i with
    | zero =>
      rw [partWrite_frame]
      · simp only [Nat.add_zero, List.getElem_cons_zero]
        have := Mem.byte_write_of_mem s.devMem (devKey tier (partAddr s p tier off)) [x] 0 (by simp)
        simpa [devWrite] using this
      · intro j hj e
        rw [partAddr_devWrite] at e
        simp only [devKey, Nat.add_zero] at e
        simp only [List.length_cons] at h
        have := partAddr_inj (s := s) (p := p) (tier := tier) (x := off) (y := off + 1 + j) (by omega) (by omega) (by omega)
        omega
    | succ j =>
      simp only [List.length_cons] at h hi
      have := ih (off + 1) (devWrite tier (partAddr s p tier off) [x] s) (show _ ≤ partBytes s p tier by omega) j (by omega)
      rw [partAddr_devWrite, show off + 1 + j = off + (j + 1) by omega] at this
      simpa using this

theorem gran_lt {s : State} {p tier g : Nat} (h : g ∈ granules s p tier) : g < 16 := by
  unfold granules setBits at h
  simpa using (List.mem_filter.mp h).1

theorem partAddr_lt {s : State} {p tier off : Nat} (h : off < partBytes s p tier) : partAddr s p tier off < 2 ^ 60 := by
  obtain ⟨i, hi, -, e⟩ := gran_getD h
  rw [e]
  have h1 := gran_lt (List.getElem_mem hi)
  have h2 := Nat.mod_lt off (gs_pos tier)
  have h3 : granuleSize tier ≤ 62500000000 := by unfold granuleSize; split <;> decide
  have : (granules s p tier)[i] * granuleSize tier ≤ 15 * 62500000000 := Nat.mul_le_mul (by omega) h3
  omega

end Sys2Proof.Machine
end

