-- ==== Sys2Proof/WellFormed.lean ====
section
/-! DEFINITION. Which commands are well formed: every operand in the range that the manual gives it. -/

namespace Sys2Proof

/-- A value that fits `w` bits. -/
def okWord (w v : Nat) : Bool := decide (v < 2 ^ w)

/-- A function: PF0 or one of 16 VFs (R14, 01). -/
def okFn (fn : Nat) : Bool := decide (fn ≤ 16)

/-- A mailbox of a function (R21, 01). -/
def okMbx (fn mbx : Nat) : Bool := okFn fn && decide (mbx < if fn = 0 then 256 else 64)

/-- Who may issue a request. -/
def okSrc : Src → Bool
  | .mailbox fn n => okMbx fn n
  | .mctp => true
  | .forwarded link tag fn => decide (link < 7) && okWord 32 tag && okFn fn
  | .mirrored => true
  | .device p => decide (p < 16)

/-- The header's fields fit their places (R22, 01). -/
def okHeader (h : Header) : Bool :=
  okWord 32 h.own && okWord 32 h.seq && okWord 16 h.opcode && okWord 16 h.flags && okWord 8 h.partition && okWord 8 h.rsvd0D
    && okWord 16 h.payloadLen && okWord 16 h.msixVector && okWord 16 h.rsvd1A && okWord 64 h.shadowAddr && okWord 64 h.sgAddr
    && okWord 32 h.sgCount && okWord 32 h.rsvd34

/-- A request whose payload a mailbox can hold (R22, 01). -/
def okReq (r : Req) : Bool := okSrc r.src && okHeader r.hdr && decide (r.payload.length ≤ 3968)

/-- A packet whose sequence numbers fit their fields (R354, 12). -/
def okPkt (p : Pkt) : Bool := okWord 24 p.psn && okWord 24 p.ackPsn && okWord 8 p.path && p.sack.all (okWord 24)

/-- The rates in GT/s, the first generation's 2.5 written as 2, and the widths of a PCIe link (R15, 01; log entry 62). -/
def okLink (rate width : Nat) : Bool := [128, 64, 32, 16, 8, 5, 2].contains rate && [16, 8, 4, 2, 1].contains width

/-- Whether a command is well formed. -/
def Instr.wellFormed : Instr → Bool
  | .mbxPost _ fn mbx => okFn fn && okMbx fn mbx
  | .mbxRelease _ fn mbx => okFn fn && okMbx fn mbx
  | .mbxOwnInvalid _ fn mbx _ => okFn fn && okMbx fn mbx
  | .mbxLockedWrite _ fn mbx _ _ => okFn fn && okMbx fn mbx
  | .mbxTake _ fn mbx => okFn fn && okMbx fn mbx
  | .longOpAccept _ _ => true
  | .longOpEnd _ _ _ => true
  | .msixUnmask _ fn vector => okFn fn && decide (vector < 2048)
  | .progressUpdate _ _ _ => true
  | .progressRetentionExpiry _ _ => true
  | .evtConsWrite _ fn _ => okFn fn
  | .bar2Read _ fn _ _ => okFn fn
  | .bar2Write _ fn _ _ => okFn fn
  | .registerWrite _ fn bar _ _ _ => okFn fn && (bar = 0 || bar = 4)
  | .ctNowLowRead _ fn => okFn fn
  | .ctUtcDateRead _ fn => okFn fn
  | .chkCtlWrite _ fn unit _ => okFn fn && decide (unit < 8)
  | .chkInit _ fn unit _ => okFn fn && decide (unit < 8)
  | .chkData8 _ fn unit _ => okFn fn && decide (unit < 8)
  | .chkData1 _ fn unit _ => okFn fn && decide (unit < 8)
  | .mctpRequest _ r => okReq r
  | .nop _ r => okReq r
  | .query _ r => okReq r
  | .progress _ r => okReq r
  | .cancel _ r => okReq r
  | .eventCfg _ r => okReq r
  | .apertureSet _ r => okReq r
  | .sessionAdmit _ r => okReq r
  | .sessionAppend _ r => okReq r
  | .sessionAppendTokens _ r => okReq r
  | .sessionStop _ r => okReq r
  | .sessionRead _ r => okReq r
  | .sessionSet _ r => okReq r
  | .sessionRebind _ r => okReq r
  | .sessionRetire _ r => okReq r
  | .sessionArm _ r => okReq r
  | .sessionList _ r => okReq r
  | .journalRead _ r => okReq r
  | .plnConfig _ r => okReq r
  | .batchDispatch _ => true
  | .batchWaitExpiry _ => true
  | .invocationResident _ _ => true
  | .layerGroupStart _ tile _ _ _ => decide (tile < 128)
  | .tileWatchdogExpiry _ _ => true
  | .stepCommit _ _ _ => true
  | .prefillChunkEnd _ _ _ => true
  | .autoCastTimer _ session => okWord 64 session
  | .raiseWaitDequeue _ => true
  | .fdyCast _ r => okReq r
  | .fdyRaise _ r => okReq r
  | .fdyMigrate _ r => okReq r
  | .fdyDirRead _ r => okReq r
  | .fdyConfig _ r => okReq r
  | .fdySubmit _ r => okReq r
  | .fdyExportRelease _ r => okReq r
  | .descriptorIssue _ _ => true
  | .descriptorComplete _ _ _ => true
  | .runaheadTtlExpiry _ _ => true
  | .pullTimeoutExpiry _ _ => true
  | .migrateArrive _ link _ _ => decide (link < 7)
  | .migrateConfirm _ _ _ _ _ => true
  | .exportCommit _ _ => true
  | .exportRetired _ session _ => okWord 64 session
  | .ptnPublish _ r => okReq r
  | .ptnMatch _ r => okReq r
  | .ptnDelete _ r => okReq r
  | .ptnPin _ r => okReq r
  | .ptnRead _ r => okReq r
  | .ptnPurge _ r => okReq r
  | .ptnConfig _ r => okReq r
  | .pagePoolConfig _ r => okReq r
  | .pageTableRead _ r => okReq r
  | .ptnEviction _ partition => decide (partition < 16)
  | .modelLoad _ r => okReq r
  | .modelLoadComplete _ slot _ => decide (slot < 64)
  | .modelUnload _ r => okReq r
  | .modelUnloadComplete _ slot => decide (slot < 64)
  | .modelQuery _ r => okReq r
  | .modelPlace _ r => okReq r
  | .attConfig _ r => okReq r
  | .tablesetLoad _ r => okReq r
  | .tablesetLoadComplete _ gen _ => okWord 16 gen
  | .tablesetRetire _ r => okReq r
  | .tablesetDrained _ gen => okWord 16 gen
  | .tablesetQuery _ r => okReq r
  | .shearCut _ r => okReq r
  | .solderRender _ r => okReq r
  | .shearLaneStart _ => true
  | .finSet _ r => okReq r
  | .finRead _ r => okReq r
  | .grammarCheck _ r => okReq r
  | .spinDraw _ r => okReq r
  | .classSet _ r => okReq r
  | .classRead _ r => okReq r
  | .classDelete _ r => okReq r
  | .meterSet _ r => okReq r
  | .meterRead _ r => okReq r
  | .partitionShare _ r => okReq r
  | .streamRingSet _ r => okReq r
  | .gaugeReport _ r => okReq r
  | .gaugeConfig _ r => okReq r
  | .plaQueueRead _ r => okReq r
  | .streamRecordWrite _ partition ring => decide (partition < 16) && decide (ring < 1024)
  | .streamConsRead _ partition ring => decide (partition < 16) && decide (ring < 1024)
  | .gaugeSample _ => true
  | .gaugeWindowClose _ cls => okWord 16 cls
  | .reportSign _ => true
  | .tlyRead _ r => okReq r
  | .tlyEvidence _ r => okReq r
  | .tlyConfig _ r => okReq r
  | .tallyAudit _ => true
  | .swlMarkerReceive _ link vc _ _ => decide (link < 7) && decide (vc < 4)
  | .swlMarkerTimeout _ link vc _ => decide (link < 7) && decide (vc < 4)
  | .tchIndexCreate _ r => okReq r
  | .tchIndexDrop _ r => okReq r
  | .tchInsert _ r => okReq r
  | .tchDelete _ r => okReq r
  | .tchQuery _ r => okReq r
  | .tchBulk _ r => okReq r
  | .tchIndexQuery _ r => okReq r
  | .tchRepair _ r => okReq r
  | .tchSubqueryReceive _ _ => true
  | .tchShardAnswer _ _ _ _ _ => true
  | .tchShardTimeout _ _ => true
  | .tchReclaim _ _ slot => okWord 32 slot
  | .tchRepairSweep _ _ => true
  | .gthTableLoad _ r => okReq r
  | .gthTablePatch _ r => okReq r
  | .gthTableDrop _ r => okReq r
  | .gthHotSet _ r => okReq r
  | .gthRun _ r => okReq r
  | .gthTableQuery _ r => okReq r
  | .netPortSet _ r => okReq r
  | .netPortQuery _ r => okReq r
  | .netQpConnect _ r => okReq r
  | .netQpClose _ r => okReq r
  | .netQpQuery _ r => okReq r
  | .netCcSet _ r => okReq r
  | .netRegionReg _ r => okReq r
  | .netRegionDereg _ r => okReq r
  | .netRegionQuery _ r => okReq r
  | .netPost _ r => okReq r
  | .netChainPost _ r => okReq r
  | .netChainCancel _ r => okReq r
  | .netMapUpdate _ r => okReq r
  | .netMapSwap _ r => okReq r
  | .netMapRead _ r => okReq r
  | .netPtpSet _ r => okReq r
  | .nvmeConnect _ r => okReq r
  | .nvmeDisconnect _ r => okReq r
  | .gxDataReceive _ p => okPkt p
  | .gxSealReceive _ p => okPkt p
  | .gxReadReceive _ p => okPkt p
  | .gxAckReceive _ p => okPkt p
  | .gxAckTimer _ _ => true
  | .gxAckTimeout _ _ _ => true
  | .gxNakBackoffExpiry _ _ _ => true
  | .gxPathResume _ _ _ => true
  | .sealTimeout _ _ _ => true
  | .qpDrainEnd _ _ => true
  | .notResidentStallExpiry _ _ => true
  | .rcPacketReceive _ p => okPkt p
  | .cnpReceive _ _ => true
  | .ccRateIncrease _ _ => true
  | .regionQuarantineExpiry _ _ => true
  | .mapUpdateDrained _ partition => decide (partition < 16)
  | .mapSwapHoldExpiry _ partition => decide (partition < 16)
  | .ethLinkChange _ ifc _ => decide (ifc < 64)
  | .ptpMessageReceive _ _ => true
  | .ptpAnnounceTimeout _ ifc => decide (ifc < 64)
  | .nvmeCompletionReceive _ _ _ _ => true
  | .nvmeKeepaliveLapse _ _ => true
  | .swlQuery _ r => okReq r
  | .swlLinkSet _ r => okReq r
  | .twinSet _ r => okReq r
  | .twinClear _ r => okReq r
  | .twinQuery _ r => okReq r
  | .swlTrainIdentity _ link _ => decide (link < 7)
  | .swlTrainTimeout _ link => decide (link < 7)
  | .swlAbsentRetry _ link => decide (link < 7)
  | .swlFlitCrcError _ link => decide (link < 7)
  | .swlReplayRequest _ link _ => decide (link < 7)
  | .swlCreditReturn _ link vc _ => decide (link < 7) && decide (vc < 4)
  | .swlDirRequest _ link _ _ => decide (link < 7)
  | .swlForwardedCommand _ link _ fn r => decide (link < 7) && okFn fn && okReq r
  | .swlResponse _ _ _ _ _ => true
  | .swlBulkData _ link _ _ => decide (link < 7)
  | .tablesetNumberCheck _ link _ gen => decide (link < 7) && okWord 16 gen
  | .twinMirroredCommand _ r => okReq r
  | .twinGrant _ session _ _ => okWord 64 session
  | .twinDigest _ session _ _ _ => okWord 64 session
  | .twinDigestTimeout _ partition => decide (partition < 16)
  | .mldGroupSet _ r => okReq r
  | .mldGroupQuery _ r => okReq r
  | .mldCut _ r => okReq r
  | .mldRestore _ r => okReq r
  | .mldConfig _ r => okReq r
  | .chkClaim _ r => okReq r
  | .chkRelease _ r => okReq r
  | .chkRun _ r => okReq r
  | .mldTimerTrigger _ _ => true
  | .captureWindowExpiry _ _ => true
  | .hmkPartitionSet _ r => okReq r
  | .hmkPartitionTeardown _ r => okReq r
  | .teardownPhaseDone _ partition => decide (partition < 16)
  | .hmkPartitionQuery _ r => okReq r
  | .hmkKeyLoad _ r => okReq r
  | .hmkKeyDestroy _ r => okReq r
  | .hmkAttest _ r => okReq r
  | .hmkCertRead _ r => okReq r
  | .hmkRollbackCommit _ r => okReq r
  | .getVersion _ via => decide (via < 18)
  | .getCapabilities _ via => decide (via < 18)
  | .negotiateAlgorithms _ via _ => decide (via < 18)
  | .getDigests _ via _ => decide (via < 18)
  | .getCertificate _ via session _ _ _ => decide (via < 18) && okWord 64 session
  | .challenge _ via session _ _ => decide (via < 18) && okWord 64 session
  | .getMeasurements _ via session _ _ _ => decide (via < 18) && okWord 64 session
  | .keyExchange _ via _ _ => decide (via < 18)
  | .finish _ via session _ => decide (via < 18) && okWord 64 session
  | .heartbeat _ via session => decide (via < 18) && okWord 64 session
  | .keyUpdate _ via session _ _ => decide (via < 18) && okWord 64 session
  | .endSession _ via session => decide (via < 18) && okWord 64 session
  | .attestDual _ via session _ _ => decide (via < 18) && okWord 64 session
  | .kekSet _ via session _ => decide (via < 18) && okWord 64 session
  | .ideKmMessage _ via session _ => decide (via < 18) && okWord 64 session
  | .lockInterfaceRequest _ via session fn => decide (via < 18) && okWord 64 session && okFn fn
  | .startInterfaceRequest _ via session fn => decide (via < 18) && okWord 64 session && okFn fn
  | .stopInterfaceRequest _ via session fn => decide (via < 18) && okWord 64 session && okFn fn
  | .ideIntegrityFailure _ fn _ => okFn fn
  | .pwrSet _ r => okReq r
  | .pwrQuery _ r => okReq r
  | .pwrResume _ r => okReq r
  | .ctConfig _ r => okReq r
  | .ctStep _ r => okReq r
  | .ctLeapLoad _ r => okReq r
  | .aonSettingsSave _ r => okReq r
  | .aonSettingsRead _ r => okReq r
  | .otpProgram _ r => okReq r
  | .aonLifeRead _ r => okReq r
  | .aonLifeSync _ r => okReq r
  | .pwrTransitionPhaseDone _ _ => true
  | .junctionSensorSample _ _ => true
  | .coreCurrentSample _ _ => true
  | .thermtrip _ => true
  | .cadenceEdge _ _ => true
  | .cadenceLoss _ => true
  | .ptpSourceLoss _ => true
  | .holdoverBudgetExceeded _ => true
  | .leapExpiry _ => true
  | .lifeMirrorUpdate _ => true
  | .lifeJournalWrite _ _ => true
  | .correctedError _ tier _ => decide (tier < 3)
  | .uncorrectableError _ _ _ => true
  | .patrolScrubPass _ => true
  | .viewSweep _ _ _ => true
  | .viewReconcileTimeout _ _ => true
  | .firmwareWatchdogExpiry _ _ => true
  | .devReset _ r => okReq r
  | .shutdownGraceExpiry _ => true
  | .diagTraining _ r => okReq r
  | .diagErrors _ r => okReq r
  | .diagViewCheck _ r => okReq r
  | .diagInject _ r => okReq r
  | .fwLoad _ r => okReq r
  | .diagBootLog _ r => okReq r
  | .powerOnReset _ => true
  | .pwrgoodFall _ => true
  | .perstNAssert _ => true
  | .perstNDeassert _ chipId bootSel => decide (chipId < 8) && decide (bootSel < 2)
  | .pcieHotReset _ => true
  | .pcieLinkDown _ => true
  | .flr _ fn => okFn fn
  | .configReady _ => true
  | .bootPhaseEnd _ _ => true
  | .railFault _ rail => decide (rail < 11)
  | .serdesRefLoss _ => true
  | .serdesRefReturn _ => true
  | .refclkLoss _ => true
  | .xtalStop _ => true
  | .smbClockLowTimeout _ => true
  | .i3cIdleTimeout _ => true
  | .spiFlashTimeout _ => true
  | .railReturn _ rail => decide (rail < 11)
  | .vaux1v8Loss _ => true
  | .pcieLinkUp _ rate width => okLink rate width
  | .xtalRestart _ => true
  | .doeDiscovery _ fn _ => okFn fn
  | .rcLocalAckTimeout _ _ => true

/-- A well-formed command. -/
abbrev Instr.WellFormed (i : Instr) : Prop := i.wellFormed = true

end Sys2Proof
end

