-- ==== Sys2Proof/Laws/PerInstr.lean ====
section
/-! SUPPORT. For every command: a well-formed one that carries a request carries one that a mailbox can hold (R21, R22). -/

namespace Sys2Proof

/-- The request that a command carries. -/
def Instr.request : Instr → Option Req
  | .mctpRequest _ r => some r
  | .nop _ r => some r
  | .query _ r => some r
  | .progress _ r => some r
  | .cancel _ r => some r
  | .eventCfg _ r => some r
  | .apertureSet _ r => some r
  | .sessionAdmit _ r => some r
  | .sessionAppend _ r => some r
  | .sessionAppendTokens _ r => some r
  | .sessionStop _ r => some r
  | .sessionRead _ r => some r
  | .sessionSet _ r => some r
  | .sessionRebind _ r => some r
  | .sessionRetire _ r => some r
  | .sessionArm _ r => some r
  | .sessionList _ r => some r
  | .journalRead _ r => some r
  | .plnConfig _ r => some r
  | .fdyCast _ r => some r
  | .fdyRaise _ r => some r
  | .fdyMigrate _ r => some r
  | .fdyDirRead _ r => some r
  | .fdyConfig _ r => some r
  | .fdySubmit _ r => some r
  | .fdyExportRelease _ r => some r
  | .ptnPublish _ r => some r
  | .ptnMatch _ r => some r
  | .ptnDelete _ r => some r
  | .ptnPin _ r => some r
  | .ptnRead _ r => some r
  | .ptnPurge _ r => some r
  | .ptnConfig _ r => some r
  | .pagePoolConfig _ r => some r
  | .pageTableRead _ r => some r
  | .modelLoad _ r => some r
  | .modelUnload _ r => some r
  | .modelQuery _ r => some r
  | .modelPlace _ r => some r
  | .attConfig _ r => some r
  | .tablesetLoad _ r => some r
  | .tablesetRetire _ r => some r
  | .tablesetQuery _ r => some r
  | .shearCut _ r => some r
  | .solderRender _ r => some r
  | .finSet _ r => some r
  | .finRead _ r => some r
  | .grammarCheck _ r => some r
  | .spinDraw _ r => some r
  | .classSet _ r => some r
  | .classRead _ r => some r
  | .classDelete _ r => some r
  | .meterSet _ r => some r
  | .meterRead _ r => some r
  | .partitionShare _ r => some r
  | .streamRingSet _ r => some r
  | .gaugeReport _ r => some r
  | .gaugeConfig _ r => some r
  | .plaQueueRead _ r => some r
  | .tlyRead _ r => some r
  | .tlyEvidence _ r => some r
  | .tlyConfig _ r => some r
  | .tchIndexCreate _ r => some r
  | .tchIndexDrop _ r => some r
  | .tchInsert _ r => some r
  | .tchDelete _ r => some r
  | .tchQuery _ r => some r
  | .tchBulk _ r => some r
  | .tchIndexQuery _ r => some r
  | .tchRepair _ r => some r
  | .gthTableLoad _ r => some r
  | .gthTablePatch _ r => some r
  | .gthTableDrop _ r => some r
  | .gthHotSet _ r => some r
  | .gthRun _ r => some r
  | .gthTableQuery _ r => some r
  | .netPortSet _ r => some r
  | .netPortQuery _ r => some r
  | .netQpConnect _ r => some r
  | .netQpClose _ r => some r
  | .netQpQuery _ r => some r
  | .netCcSet _ r => some r
  | .netRegionReg _ r => some r
  | .netRegionDereg _ r => some r
  | .netRegionQuery _ r => some r
  | .netPost _ r => some r
  | .netChainPost _ r => some r
  | .netChainCancel _ r => some r
  | .netMapUpdate _ r => some r
  | .netMapSwap _ r => some r
  | .netMapRead _ r => some r
  | .netPtpSet _ r => some r
  | .nvmeConnect _ r => some r
  | .nvmeDisconnect _ r => some r
  | .swlQuery _ r => some r
  | .swlLinkSet _ r => some r
  | .twinSet _ r => some r
  | .twinClear _ r => some r
  | .twinQuery _ r => some r
  | .swlForwardedCommand _ _ _ _ r => some r
  | .twinMirroredCommand _ r => some r
  | .mldGroupSet _ r => some r
  | .mldGroupQuery _ r => some r
  | .mldCut _ r => some r
  | .mldRestore _ r => some r
  | .mldConfig _ r => some r
  | .chkClaim _ r => some r
  | .chkRelease _ r => some r
  | .chkRun _ r => some r
  | .hmkPartitionSet _ r => some r
  | .hmkPartitionTeardown _ r => some r
  | .hmkPartitionQuery _ r => some r
  | .hmkKeyLoad _ r => some r
  | .hmkKeyDestroy _ r => some r
  | .hmkAttest _ r => some r
  | .hmkCertRead _ r => some r
  | .hmkRollbackCommit _ r => some r
  | .pwrSet _ r => some r
  | .pwrQuery _ r => some r
  | .pwrResume _ r => some r
  | .ctConfig _ r => some r
  | .ctStep _ r => some r
  | .ctLeapLoad _ r => some r
  | .aonSettingsSave _ r => some r
  | .aonSettingsRead _ r => some r
  | .otpProgram _ r => some r
  | .aonLifeRead _ r => some r
  | .aonLifeSync _ r => some r
  | .devReset _ r => some r
  | .diagTraining _ r => some r
  | .diagErrors _ r => some r
  | .diagViewCheck _ r => some r
  | .diagInject _ r => some r
  | .fwLoad _ r => some r
  | .diagBootLog _ r => some r
  | _ => none

/-- A request that a mailbox can hold, of a function and a mailbox that exist. -/
def Req.Fits (r : Req) : Prop := r.payload.length ≤ 3968 ∧ ∀ fn n, r.src = .mailbox fn n → fn ≤ 16 ∧ n < (if fn = 0 then 256 else 64)

theorem Req.fits {r : Req} (h : okReq r = true) : r.Fits := by
  simp only [okReq, Bool.and_eq_true, decide_eq_true_eq] at h
  refine ⟨h.2, fun fn n e => ?_⟩
  have g := h.1.1
  rw [e] at g
  simpa [okSrc, okMbx, okFn] using g

namespace Laws.Carries

/-- What the family says of a command. -/
def Statement (i : Instr) : Prop := ∀ r, i.request = some r → i.wellFormed = true → r.Fits

theorem mbxPost (x0 : Moment) (x1 : Nat) (x2 : Nat) : Statement (.mbxPost x0 x1 x2) := fun _ e => by cases e
theorem mbxRelease (x0 : Moment) (x1 : Nat) (x2 : Nat) : Statement (.mbxRelease x0 x1 x2) := fun _ e => by cases e
theorem mbxOwnInvalid (x0 : Moment) (x1 : Nat) (x2 : Nat) (x3 : Nat) : Statement (.mbxOwnInvalid x0 x1 x2 x3) := fun _ e => by cases e
theorem mbxLockedWrite (x0 : Moment) (x1 : Nat) (x2 : Nat) (x3 : Nat) (x4 : Nat) : Statement (.mbxLockedWrite x0 x1 x2 x3 x4) := fun _ e => by cases e
theorem mbxTake (x0 : Moment) (x1 : Nat) (x2 : Nat) : Statement (.mbxTake x0 x1 x2) := fun _ e => by cases e
theorem longOpAccept (x0 : Moment) (x1 : Nat) : Statement (.longOpAccept x0 x1) := fun _ e => by cases e
theorem longOpEnd (x0 : Moment) (x1 : Nat) (x2 : Bool) : Statement (.longOpEnd x0 x1 x2) := fun _ e => by cases e
theorem msixUnmask (x0 : Moment) (x1 : Nat) (x2 : Nat) : Statement (.msixUnmask x0 x1 x2) := fun _ e => by cases e
theorem progressUpdate (x0 : Moment) (x1 : Nat) (x2 : Nat) : Statement (.progressUpdate x0 x1 x2) := fun _ e => by cases e
theorem progressRetentionExpiry (x0 : Moment) (x1 : Nat) : Statement (.progressRetentionExpiry x0 x1) := fun _ e => by cases e
theorem evtConsWrite (x0 : Moment) (x1 : Nat) (x2 : Nat) : Statement (.evtConsWrite x0 x1 x2) := fun _ e => by cases e
theorem bar2Read (x0 : Moment) (x1 : Nat) (x2 : Nat) (x3 : Nat) : Statement (.bar2Read x0 x1 x2 x3) := fun _ e => by cases e
theorem bar2Write (x0 : Moment) (x1 : Nat) (x2 : Nat) (x3 : Bytes) : Statement (.bar2Write x0 x1 x2 x3) := fun _ e => by cases e
theorem registerWrite (x0 : Moment) (x1 : Nat) (x2 : Nat) (x3 : Nat) (x4 : Nat) (x5 : Nat) : Statement (.registerWrite x0 x1 x2 x3 x4 x5) := fun _ e => by cases e
theorem ctNowLowRead (x0 : Moment) (x1 : Nat) : Statement (.ctNowLowRead x0 x1) := fun _ e => by cases e
theorem ctUtcDateRead (x0 : Moment) (x1 : Nat) : Statement (.ctUtcDateRead x0 x1) := fun _ e => by cases e
theorem chkCtlWrite (x0 : Moment) (x1 : Nat) (x2 : Nat) (x3 : Nat) : Statement (.chkCtlWrite x0 x1 x2 x3) := fun _ e => by cases e
theorem chkInit (x0 : Moment) (x1 : Nat) (x2 : Nat) (x3 : Nat) : Statement (.chkInit x0 x1 x2 x3) := fun _ e => by cases e
theorem chkData8 (x0 : Moment) (x1 : Nat) (x2 : Nat) (x3 : Nat) : Statement (.chkData8 x0 x1 x2 x3) := fun _ e => by cases e
theorem chkData1 (x0 : Moment) (x1 : Nat) (x2 : Nat) (x3 : Nat) : Statement (.chkData1 x0 x1 x2 x3) := fun _ e => by cases e
theorem mctpRequest (x0 : Moment) (r : Req) : Statement (.mctpRequest x0 r) := fun _ e h => by cases e; exact Req.fits h
theorem nop (x0 : Moment) (r : Req) : Statement (.nop x0 r) := fun _ e h => by cases e; exact Req.fits h
theorem query (x0 : Moment) (r : Req) : Statement (.query x0 r) := fun _ e h => by cases e; exact Req.fits h
theorem progress (x0 : Moment) (r : Req) : Statement (.progress x0 r) := fun _ e h => by cases e; exact Req.fits h
theorem cancel (x0 : Moment) (r : Req) : Statement (.cancel x0 r) := fun _ e h => by cases e; exact Req.fits h
theorem eventCfg (x0 : Moment) (r : Req) : Statement (.eventCfg x0 r) := fun _ e h => by cases e; exact Req.fits h
theorem apertureSet (x0 : Moment) (r : Req) : Statement (.apertureSet x0 r) := fun _ e h => by cases e; exact Req.fits h
theorem sessionAdmit (x0 : Moment) (r : Req) : Statement (.sessionAdmit x0 r) := fun _ e h => by cases e; exact Req.fits h
theorem sessionAppend (x0 : Moment) (r : Req) : Statement (.sessionAppend x0 r) := fun _ e h => by cases e; exact Req.fits h
theorem sessionAppendTokens (x0 : Moment) (r : Req) : Statement (.sessionAppendTokens x0 r) := fun _ e h => by cases e; exact Req.fits h
theorem sessionStop (x0 : Moment) (r : Req) : Statement (.sessionStop x0 r) := fun _ e h => by cases e; exact Req.fits h
theorem sessionRead (x0 : Moment) (r : Req) : Statement (.sessionRead x0 r) := fun _ e h => by cases e; exact Req.fits h
theorem sessionSet (x0 : Moment) (r : Req) : Statement (.sessionSet x0 r) := fun _ e h => by cases e; exact Req.fits h
theorem sessionRebind (x0 : Moment) (r : Req) : Statement (.sessionRebind x0 r) := fun _ e h => by cases e; exact Req.fits h
theorem sessionRetire (x0 : Moment) (r : Req) : Statement (.sessionRetire x0 r) := fun _ e h => by cases e; exact Req.fits h
theorem sessionArm (x0 : Moment) (r : Req) : Statement (.sessionArm x0 r) := fun _ e h => by cases e; exact Req.fits h
theorem sessionList (x0 : Moment) (r : Req) : Statement (.sessionList x0 r) := fun _ e h => by cases e; exact Req.fits h
theorem journalRead (x0 : Moment) (r : Req) : Statement (.journalRead x0 r) := fun _ e h => by cases e; exact Req.fits h
theorem plnConfig (x0 : Moment) (r : Req) : Statement (.plnConfig x0 r) := fun _ e h => by cases e; exact Req.fits h
theorem batchDispatch (x0 : Moment) : Statement (.batchDispatch x0) := fun _ e => by cases e
theorem batchWaitExpiry (x0 : Moment) : Statement (.batchWaitExpiry x0) := fun _ e => by cases e
theorem invocationResident (x0 : Moment) (x1 : Nat) : Statement (.invocationResident x0 x1) := fun _ e => by cases e
theorem layerGroupStart (x0 : Moment) (x1 : Nat) (x2 : List AttIn) (x3 : List LayerOp) (x4 : Option Nat) : Statement (.layerGroupStart x0 x1 x2 x3 x4) := fun _ e => by cases e
theorem tileWatchdogExpiry (x0 : Moment) (x1 : Nat) : Statement (.tileWatchdogExpiry x0 x1) := fun _ e => by cases e
theorem stepCommit (x0 : Moment) (x1 : Nat) (x2 : List RowIn) : Statement (.stepCommit x0 x1 x2) := fun _ e => by cases e
theorem prefillChunkEnd (x0 : Moment) (x1 : Nat) (x2 : RowIn) : Statement (.prefillChunkEnd x0 x1 x2) := fun _ e => by cases e
theorem autoCastTimer (x0 : Moment) (x1 : Nat) : Statement (.autoCastTimer x0 x1) := fun _ e => by cases e
theorem raiseWaitDequeue (x0 : Moment) : Statement (.raiseWaitDequeue x0) := fun _ e => by cases e
theorem fdyCast (x0 : Moment) (r : Req) : Statement (.fdyCast x0 r) := fun _ e h => by cases e; exact Req.fits h
theorem fdyRaise (x0 : Moment) (r : Req) : Statement (.fdyRaise x0 r) := fun _ e h => by cases e; exact Req.fits h
theorem fdyMigrate (x0 : Moment) (r : Req) : Statement (.fdyMigrate x0 r) := fun _ e h => by cases e; exact Req.fits h
theorem fdyDirRead (x0 : Moment) (r : Req) : Statement (.fdyDirRead x0 r) := fun _ e h => by cases e; exact Req.fits h
theorem fdyConfig (x0 : Moment) (r : Req) : Statement (.fdyConfig x0 r) := fun _ e h => by cases e; exact Req.fits h
theorem fdySubmit (x0 : Moment) (r : Req) : Statement (.fdySubmit x0 r) := fun _ e h => by cases e; exact Req.fits h
theorem fdyExportRelease (x0 : Moment) (r : Req) : Statement (.fdyExportRelease x0 r) := fun _ e h => by cases e; exact Req.fits h
theorem descriptorIssue (x0 : Moment) (x1 : Nat) : Statement (.descriptorIssue x0 x1) := fun _ e => by cases e
theorem descriptorComplete (x0 : Moment) (x1 : Nat) (x2 : DescResult) : Statement (.descriptorComplete x0 x1 x2) := fun _ e => by cases e
theorem runaheadTtlExpiry (x0 : Moment) (x1 : Nat) : Statement (.runaheadTtlExpiry x0 x1) := fun _ e => by cases e
theorem pullTimeoutExpiry (x0 : Moment) (x1 : Nat) : Statement (.pullTimeoutExpiry x0 x1) := fun _ e => by cases e
theorem migrateArrive (x0 : Moment) (x1 : Nat) (x2 : Nat) (x3 : Machine.MigrateIn) : Statement (.migrateArrive x0 x1 x2 x3) := fun _ e => by cases e
theorem migrateConfirm (x0 : Moment) (x1 : Nat) (x2 : Bool) (x3 : Nat) (x4 : Nat) : Statement (.migrateConfirm x0 x1 x2 x3 x4) := fun _ e => by cases e
theorem exportCommit (x0 : Moment) (x1 : Machine.ExportIn) : Statement (.exportCommit x0 x1) := fun _ e => by cases e
theorem exportRetired (x0 : Moment) (x1 : Nat) (x2 : Nat) : Statement (.exportRetired x0 x1 x2) := fun _ e => by cases e
theorem ptnPublish (x0 : Moment) (r : Req) : Statement (.ptnPublish x0 r) := fun _ e h => by cases e; exact Req.fits h
theorem ptnMatch (x0 : Moment) (r : Req) : Statement (.ptnMatch x0 r) := fun _ e h => by cases e; exact Req.fits h
theorem ptnDelete (x0 : Moment) (r : Req) : Statement (.ptnDelete x0 r) := fun _ e h => by cases e; exact Req.fits h
theorem ptnPin (x0 : Moment) (r : Req) : Statement (.ptnPin x0 r) := fun _ e h => by cases e; exact Req.fits h
theorem ptnRead (x0 : Moment) (r : Req) : Statement (.ptnRead x0 r) := fun _ e h => by cases e; exact Req.fits h
theorem ptnPurge (x0 : Moment) (r : Req) : Statement (.ptnPurge x0 r) := fun _ e h => by cases e; exact Req.fits h
theorem ptnConfig (x0 : Moment) (r : Req) : Statement (.ptnConfig x0 r) := fun _ e h => by cases e; exact Req.fits h
theorem pagePoolConfig (x0 : Moment) (r : Req) : Statement (.pagePoolConfig x0 r) := fun _ e h => by cases e; exact Req.fits h
theorem pageTableRead (x0 : Moment) (r : Req) : Statement (.pageTableRead x0 r) := fun _ e h => by cases e; exact Req.fits h
theorem ptnEviction (x0 : Moment) (x1 : Nat) : Statement (.ptnEviction x0 x1) := fun _ e => by cases e
theorem modelLoad (x0 : Moment) (r : Req) : Statement (.modelLoad x0 r) := fun _ e h => by cases e; exact Req.fits h
theorem modelLoadComplete (x0 : Moment) (x1 : Nat) (x2 : Bool) : Statement (.modelLoadComplete x0 x1 x2) := fun _ e => by cases e
theorem modelUnload (x0 : Moment) (r : Req) : Statement (.modelUnload x0 r) := fun _ e h => by cases e; exact Req.fits h
theorem modelUnloadComplete (x0 : Moment) (x1 : Nat) : Statement (.modelUnloadComplete x0 x1) := fun _ e => by cases e
theorem modelQuery (x0 : Moment) (r : Req) : Statement (.modelQuery x0 r) := fun _ e h => by cases e; exact Req.fits h
theorem modelPlace (x0 : Moment) (r : Req) : Statement (.modelPlace x0 r) := fun _ e h => by cases e; exact Req.fits h
theorem attConfig (x0 : Moment) (r : Req) : Statement (.attConfig x0 r) := fun _ e h => by cases e; exact Req.fits h
theorem tablesetLoad (x0 : Moment) (r : Req) : Statement (.tablesetLoad x0 r) := fun _ e h => by cases e; exact Req.fits h
theorem tablesetLoadComplete (x0 : Moment) (x1 : Nat) (x2 : Bool) : Statement (.tablesetLoadComplete x0 x1 x2) := fun _ e => by cases e
theorem tablesetRetire (x0 : Moment) (r : Req) : Statement (.tablesetRetire x0 r) := fun _ e h => by cases e; exact Req.fits h
theorem tablesetDrained (x0 : Moment) (x1 : Nat) : Statement (.tablesetDrained x0 x1) := fun _ e => by cases e
theorem tablesetQuery (x0 : Moment) (r : Req) : Statement (.tablesetQuery x0 r) := fun _ e h => by cases e; exact Req.fits h
theorem shearCut (x0 : Moment) (r : Req) : Statement (.shearCut x0 r) := fun _ e h => by cases e; exact Req.fits h
theorem solderRender (x0 : Moment) (r : Req) : Statement (.solderRender x0 r) := fun _ e h => by cases e; exact Req.fits h
theorem shearLaneStart (x0 : Moment) : Statement (.shearLaneStart x0) := fun _ e => by cases e
theorem finSet (x0 : Moment) (r : Req) : Statement (.finSet x0 r) := fun _ e h => by cases e; exact Req.fits h
theorem finRead (x0 : Moment) (r : Req) : Statement (.finRead x0 r) := fun _ e h => by cases e; exact Req.fits h
theorem grammarCheck (x0 : Moment) (r : Req) : Statement (.grammarCheck x0 r) := fun _ e h => by cases e; exact Req.fits h
theorem spinDraw (x0 : Moment) (r : Req) : Statement (.spinDraw x0 r) := fun _ e h => by cases e; exact Req.fits h
theorem classSet (x0 : Moment) (r : Req) : Statement (.classSet x0 r) := fun _ e h => by cases e; exact Req.fits h
theorem classRead (x0 : Moment) (r : Req) : Statement (.classRead x0 r) := fun _ e h => by cases e; exact Req.fits h
theorem classDelete (x0 : Moment) (r : Req) : Statement (.classDelete x0 r) := fun _ e h => by cases e; exact Req.fits h
theorem meterSet (x0 : Moment) (r : Req) : Statement (.meterSet x0 r) := fun _ e h => by cases e; exact Req.fits h
theorem meterRead (x0 : Moment) (r : Req) : Statement (.meterRead x0 r) := fun _ e h => by cases e; exact Req.fits h
theorem partitionShare (x0 : Moment) (r : Req) : Statement (.partitionShare x0 r) := fun _ e h => by cases e; exact Req.fits h
theorem streamRingSet (x0 : Moment) (r : Req) : Statement (.streamRingSet x0 r) := fun _ e h => by cases e; exact Req.fits h
theorem gaugeReport (x0 : Moment) (r : Req) : Statement (.gaugeReport x0 r) := fun _ e h => by cases e; exact Req.fits h
theorem gaugeConfig (x0 : Moment) (r : Req) : Statement (.gaugeConfig x0 r) := fun _ e h => by cases e; exact Req.fits h
theorem plaQueueRead (x0 : Moment) (r : Req) : Statement (.plaQueueRead x0 r) := fun _ e h => by cases e; exact Req.fits h
theorem streamRecordWrite (x0 : Moment) (x1 : Nat) (x2 : Nat) : Statement (.streamRecordWrite x0 x1 x2) := fun _ e => by cases e
theorem streamConsRead (x0 : Moment) (x1 : Nat) (x2 : Nat) : Statement (.streamConsRead x0 x1 x2) := fun _ e => by cases e
theorem gaugeSample (x0 : Moment) : Statement (.gaugeSample x0) := fun _ e => by cases e
theorem gaugeWindowClose (x0 : Moment) (x1 : Nat) : Statement (.gaugeWindowClose x0 x1) := fun _ e => by cases e
theorem reportSign (x0 : Moment) : Statement (.reportSign x0) := fun _ e => by cases e
theorem tlyRead (x0 : Moment) (r : Req) : Statement (.tlyRead x0 r) := fun _ e h => by cases e; exact Req.fits h
theorem tlyEvidence (x0 : Moment) (r : Req) : Statement (.tlyEvidence x0 r) := fun _ e h => by cases e; exact Req.fits h
theorem tlyConfig (x0 : Moment) (r : Req) : Statement (.tlyConfig x0 r) := fun _ e h => by cases e; exact Req.fits h
theorem tallyAudit (x0 : Moment) : Statement (.tallyAudit x0) := fun _ e => by cases e
theorem swlMarkerReceive (x0 : Moment) (x1 : Nat) (x2 : Nat) (x3 : Nat) (x4 : Machine.MarkerCounts) : Statement (.swlMarkerReceive x0 x1 x2 x3 x4) := fun _ e => by cases e
theorem swlMarkerTimeout (x0 : Moment) (x1 : Nat) (x2 : Nat) (x3 : Nat) : Statement (.swlMarkerTimeout x0 x1 x2 x3) := fun _ e => by cases e
theorem tchIndexCreate (x0 : Moment) (r : Req) : Statement (.tchIndexCreate x0 r) := fun _ e h => by cases e; exact Req.fits h
theorem tchIndexDrop (x0 : Moment) (r : Req) : Statement (.tchIndexDrop x0 r) := fun _ e h => by cases e; exact Req.fits h
theorem tchInsert (x0 : Moment) (r : Req) : Statement (.tchInsert x0 r) := fun _ e h => by cases e; exact Req.fits h
theorem tchDelete (x0 : Moment) (r : Req) : Statement (.tchDelete x0 r) := fun _ e h => by cases e; exact Req.fits h
theorem tchQuery (x0 : Moment) (r : Req) : Statement (.tchQuery x0 r) := fun _ e h => by cases e; exact Req.fits h
theorem tchBulk (x0 : Moment) (r : Req) : Statement (.tchBulk x0 r) := fun _ e h => by cases e; exact Req.fits h
theorem tchIndexQuery (x0 : Moment) (r : Req) : Statement (.tchIndexQuery x0 r) := fun _ e h => by cases e; exact Req.fits h
theorem tchRepair (x0 : Moment) (r : Req) : Statement (.tchRepair x0 r) := fun _ e h => by cases e; exact Req.fits h
theorem tchSubqueryReceive (x0 : Moment) (x1 : Machine.SubQuery) : Statement (.tchSubqueryReceive x0 x1) := fun _ e => by cases e
theorem tchShardAnswer (x0 : Moment) (x1 : Nat) (x2 : Nat) (x3 : Nat) (x4 : List (List ShardHit)) : Statement (.tchShardAnswer x0 x1 x2 x3 x4) := fun _ e => by cases e
theorem tchShardTimeout (x0 : Moment) (x1 : Nat) : Statement (.tchShardTimeout x0 x1) := fun _ e => by cases e
theorem tchReclaim (x0 : Moment) (x1 : Nat) (x2 : Nat) : Statement (.tchReclaim x0 x1 x2) := fun _ e => by cases e
theorem tchRepairSweep (x0 : Moment) (x1 : Nat) : Statement (.tchRepairSweep x0 x1) := fun _ e => by cases e
theorem gthTableLoad (x0 : Moment) (r : Req) : Statement (.gthTableLoad x0 r) := fun _ e h => by cases e; exact Req.fits h
theorem gthTablePatch (x0 : Moment) (r : Req) : Statement (.gthTablePatch x0 r) := fun _ e h => by cases e; exact Req.fits h
theorem gthTableDrop (x0 : Moment) (r : Req) : Statement (.gthTableDrop x0 r) := fun _ e h => by cases e; exact Req.fits h
theorem gthHotSet (x0 : Moment) (r : Req) : Statement (.gthHotSet x0 r) := fun _ e h => by cases e; exact Req.fits h
theorem gthRun (x0 : Moment) (r : Req) : Statement (.gthRun x0 r) := fun _ e h => by cases e; exact Req.fits h
theorem gthTableQuery (x0 : Moment) (r : Req) : Statement (.gthTableQuery x0 r) := fun _ e h => by cases e; exact Req.fits h
theorem netPortSet (x0 : Moment) (r : Req) : Statement (.netPortSet x0 r) := fun _ e h => by cases e; exact Req.fits h
theorem netPortQuery (x0 : Moment) (r : Req) : Statement (.netPortQuery x0 r) := fun _ e h => by cases e; exact Req.fits h
theorem netQpConnect (x0 : Moment) (r : Req) : Statement (.netQpConnect x0 r) := fun _ e h => by cases e; exact Req.fits h
theorem netQpClose (x0 : Moment) (r : Req) : Statement (.netQpClose x0 r) := fun _ e h => by cases e; exact Req.fits h
theorem netQpQuery (x0 : Moment) (r : Req) : Statement (.netQpQuery x0 r) := fun _ e h => by cases e; exact Req.fits h
theorem netCcSet (x0 : Moment) (r : Req) : Statement (.netCcSet x0 r) := fun _ e h => by cases e; exact Req.fits h
theorem netRegionReg (x0 : Moment) (r : Req) : Statement (.netRegionReg x0 r) := fun _ e h => by cases e; exact Req.fits h
theorem netRegionDereg (x0 : Moment) (r : Req) : Statement (.netRegionDereg x0 r) := fun _ e h => by cases e; exact Req.fits h
theorem netRegionQuery (x0 : Moment) (r : Req) : Statement (.netRegionQuery x0 r) := fun _ e h => by cases e; exact Req.fits h
theorem netPost (x0 : Moment) (r : Req) : Statement (.netPost x0 r) := fun _ e h => by cases e; exact Req.fits h
theorem netChainPost (x0 : Moment) (r : Req) : Statement (.netChainPost x0 r) := fun _ e h => by cases e; exact Req.fits h
theorem netChainCancel (x0 : Moment) (r : Req) : Statement (.netChainCancel x0 r) := fun _ e h => by cases e; exact Req.fits h
theorem netMapUpdate (x0 : Moment) (r : Req) : Statement (.netMapUpdate x0 r) := fun _ e h => by cases e; exact Req.fits h
theorem netMapSwap (x0 : Moment) (r : Req) : Statement (.netMapSwap x0 r) := fun _ e h => by cases e; exact Req.fits h
theorem netMapRead (x0 : Moment) (r : Req) : Statement (.netMapRead x0 r) := fun _ e h => by cases e; exact Req.fits h
theorem netPtpSet (x0 : Moment) (r : Req) : Statement (.netPtpSet x0 r) := fun _ e h => by cases e; exact Req.fits h
theorem nvmeConnect (x0 : Moment) (r : Req) : Statement (.nvmeConnect x0 r) := fun _ e h => by cases e; exact Req.fits h
theorem nvmeDisconnect (x0 : Moment) (r : Req) : Statement (.nvmeDisconnect x0 r) := fun _ e h => by cases e; exact Req.fits h
theorem gxDataReceive (x0 : Moment) (x1 : Pkt) : Statement (.gxDataReceive x0 x1) := fun _ e => by cases e
theorem gxSealReceive (x0 : Moment) (x1 : Pkt) : Statement (.gxSealReceive x0 x1) := fun _ e => by cases e
theorem gxReadReceive (x0 : Moment) (x1 : Pkt) : Statement (.gxReadReceive x0 x1) := fun _ e => by cases e
theorem gxAckReceive (x0 : Moment) (x1 : Pkt) : Statement (.gxAckReceive x0 x1) := fun _ e => by cases e
theorem gxAckTimer (x0 : Moment) (x1 : Nat) : Statement (.gxAckTimer x0 x1) := fun _ e => by cases e
theorem gxAckTimeout (x0 : Moment) (x1 : Nat) (x2 : Nat) : Statement (.gxAckTimeout x0 x1 x2) := fun _ e => by cases e
theorem gxNakBackoffExpiry (x0 : Moment) (x1 : Nat) (x2 : Nat) : Statement (.gxNakBackoffExpiry x0 x1 x2) := fun _ e => by cases e
theorem gxPathResume (x0 : Moment) (x1 : Nat) (x2 : Nat) : Statement (.gxPathResume x0 x1 x2) := fun _ e => by cases e
theorem sealTimeout (x0 : Moment) (x1 : Nat) (x2 : Nat) : Statement (.sealTimeout x0 x1 x2) := fun _ e => by cases e
theorem qpDrainEnd (x0 : Moment) (x1 : Nat) : Statement (.qpDrainEnd x0 x1) := fun _ e => by cases e
theorem notResidentStallExpiry (x0 : Moment) (x1 : Nat) : Statement (.notResidentStallExpiry x0 x1) := fun _ e => by cases e
theorem rcPacketReceive (x0 : Moment) (x1 : Pkt) : Statement (.rcPacketReceive x0 x1) := fun _ e => by cases e
theorem cnpReceive (x0 : Moment) (x1 : Nat) : Statement (.cnpReceive x0 x1) := fun _ e => by cases e
theorem ccRateIncrease (x0 : Moment) (x1 : Nat) : Statement (.ccRateIncrease x0 x1) := fun _ e => by cases e
theorem regionQuarantineExpiry (x0 : Moment) (x1 : Nat) : Statement (.regionQuarantineExpiry x0 x1) := fun _ e => by cases e
theorem mapUpdateDrained (x0 : Moment) (x1 : Nat) : Statement (.mapUpdateDrained x0 x1) := fun _ e => by cases e
theorem mapSwapHoldExpiry (x0 : Moment) (x1 : Nat) : Statement (.mapSwapHoldExpiry x0 x1) := fun _ e => by cases e
theorem ethLinkChange (x0 : Moment) (x1 : Nat) (x2 : Bool) : Statement (.ethLinkChange x0 x1 x2) := fun _ e => by cases e
theorem ptpMessageReceive (x0 : Moment) (x1 : PtpMsg) : Statement (.ptpMessageReceive x0 x1) := fun _ e => by cases e
theorem ptpAnnounceTimeout (x0 : Moment) (x1 : Nat) : Statement (.ptpAnnounceTimeout x0 x1) := fun _ e => by cases e
theorem nvmeCompletionReceive (x0 : Moment) (x1 : Nat) (x2 : Bool) (x3 : Bytes) : Statement (.nvmeCompletionReceive x0 x1 x2 x3) := fun _ e => by cases e
theorem nvmeKeepaliveLapse (x0 : Moment) (x1 : Nat) : Statement (.nvmeKeepaliveLapse x0 x1) := fun _ e => by cases e
theorem swlQuery (x0 : Moment) (r : Req) : Statement (.swlQuery x0 r) := fun _ e h => by cases e; exact Req.fits h
theorem swlLinkSet (x0 : Moment) (r : Req) : Statement (.swlLinkSet x0 r) := fun _ e h => by cases e; exact Req.fits h
theorem twinSet (x0 : Moment) (r : Req) : Statement (.twinSet x0 r) := fun _ e h => by cases e; exact Req.fits h
theorem twinClear (x0 : Moment) (r : Req) : Statement (.twinClear x0 r) := fun _ e h => by cases e; exact Req.fits h
theorem twinQuery (x0 : Moment) (r : Req) : Statement (.twinQuery x0 r) := fun _ e h => by cases e; exact Req.fits h
theorem swlTrainIdentity (x0 : Moment) (x1 : Nat) (x2 : TrainId) : Statement (.swlTrainIdentity x0 x1 x2) := fun _ e => by cases e
theorem swlTrainTimeout (x0 : Moment) (x1 : Nat) : Statement (.swlTrainTimeout x0 x1) := fun _ e => by cases e
theorem swlAbsentRetry (x0 : Moment) (x1 : Nat) : Statement (.swlAbsentRetry x0 x1) := fun _ e => by cases e
theorem swlFlitCrcError (x0 : Moment) (x1 : Nat) : Statement (.swlFlitCrcError x0 x1) := fun _ e => by cases e
theorem swlReplayRequest (x0 : Moment) (x1 : Nat) (x2 : Nat) : Statement (.swlReplayRequest x0 x1 x2) := fun _ e => by cases e
theorem swlCreditReturn (x0 : Moment) (x1 : Nat) (x2 : Nat) (x3 : Nat) : Statement (.swlCreditReturn x0 x1 x2 x3) := fun _ e => by cases e
theorem swlDirRequest (x0 : Moment) (x1 : Nat) (x2 : Nat) (x3 : DirAccess) : Statement (.swlDirRequest x0 x1 x2 x3) := fun _ e => by cases e
theorem swlForwardedCommand (x0 : Moment) (x1 : Nat) (x2 : Nat) (x3 : Nat) (r : Req) : Statement (.swlForwardedCommand x0 x1 x2 x3 r) := fun _ e h => by cases e; exact Req.fits (by simp_all [Instr.wellFormed])
theorem swlResponse (x0 : Moment) (x1 : Nat) (x2 : Nat) (x3 : Nat) (x4 : Bytes) : Statement (.swlResponse x0 x1 x2 x3 x4) := fun _ e => by cases e
theorem swlBulkData (x0 : Moment) (x1 : Nat) (x2 : Nat) (x3 : Bytes) : Statement (.swlBulkData x0 x1 x2 x3) := fun _ e => by cases e
theorem tablesetNumberCheck (x0 : Moment) (x1 : Nat) (x2 : Nat) (x3 : Nat) : Statement (.tablesetNumberCheck x0 x1 x2 x3) := fun _ e => by cases e
theorem twinMirroredCommand (x0 : Moment) (r : Req) : Statement (.twinMirroredCommand x0 r) := fun _ e h => by cases e; exact Req.fits h
theorem twinGrant (x0 : Moment) (x1 : Nat) (x2 : Nat) (x3 : Nat) : Statement (.twinGrant x0 x1 x2 x3) := fun _ e => by cases e
theorem twinDigest (x0 : Moment) (x1 : Nat) (x2 : Nat) (x3 : Nat) (x4 : Nat) : Statement (.twinDigest x0 x1 x2 x3 x4) := fun _ e => by cases e
theorem twinDigestTimeout (x0 : Moment) (x1 : Nat) : Statement (.twinDigestTimeout x0 x1) := fun _ e => by cases e
theorem mldGroupSet (x0 : Moment) (r : Req) : Statement (.mldGroupSet x0 r) := fun _ e h => by cases e; exact Req.fits h
theorem mldGroupQuery (x0 : Moment) (r : Req) : Statement (.mldGroupQuery x0 r) := fun _ e h => by cases e; exact Req.fits h
theorem mldCut (x0 : Moment) (r : Req) : Statement (.mldCut x0 r) := fun _ e h => by cases e; exact Req.fits h
theorem mldRestore (x0 : Moment) (r : Req) : Statement (.mldRestore x0 r) := fun _ e h => by cases e; exact Req.fits h
theorem mldConfig (x0 : Moment) (r : Req) : Statement (.mldConfig x0 r) := fun _ e h => by cases e; exact Req.fits h
theorem chkClaim (x0 : Moment) (r : Req) : Statement (.chkClaim x0 r) := fun _ e h => by cases e; exact Req.fits h
theorem chkRelease (x0 : Moment) (r : Req) : Statement (.chkRelease x0 r) := fun _ e h => by cases e; exact Req.fits h
theorem chkRun (x0 : Moment) (r : Req) : Statement (.chkRun x0 r) := fun _ e h => by cases e; exact Req.fits h
theorem mldTimerTrigger (x0 : Moment) (x1 : Nat) : Statement (.mldTimerTrigger x0 x1) := fun _ e => by cases e
theorem captureWindowExpiry (x0 : Moment) (x1 : Nat) : Statement (.captureWindowExpiry x0 x1) := fun _ e => by cases e
theorem hmkPartitionSet (x0 : Moment) (r : Req) : Statement (.hmkPartitionSet x0 r) := fun _ e h => by cases e; exact Req.fits h
theorem hmkPartitionTeardown (x0 : Moment) (r : Req) : Statement (.hmkPartitionTeardown x0 r) := fun _ e h => by cases e; exact Req.fits h
theorem teardownPhaseDone (x0 : Moment) (x1 : Nat) : Statement (.teardownPhaseDone x0 x1) := fun _ e => by cases e
theorem hmkPartitionQuery (x0 : Moment) (r : Req) : Statement (.hmkPartitionQuery x0 r) := fun _ e h => by cases e; exact Req.fits h
theorem hmkKeyLoad (x0 : Moment) (r : Req) : Statement (.hmkKeyLoad x0 r) := fun _ e h => by cases e; exact Req.fits h
theorem hmkKeyDestroy (x0 : Moment) (r : Req) : Statement (.hmkKeyDestroy x0 r) := fun _ e h => by cases e; exact Req.fits h
theorem hmkAttest (x0 : Moment) (r : Req) : Statement (.hmkAttest x0 r) := fun _ e h => by cases e; exact Req.fits h
theorem hmkCertRead (x0 : Moment) (r : Req) : Statement (.hmkCertRead x0 r) := fun _ e h => by cases e; exact Req.fits h
theorem hmkRollbackCommit (x0 : Moment) (r : Req) : Statement (.hmkRollbackCommit x0 r) := fun _ e h => by cases e; exact Req.fits h
theorem getVersion (x0 : Moment) (x1 : Nat) : Statement (.getVersion x0 x1) := fun _ e => by cases e
theorem getCapabilities (x0 : Moment) (x1 : Nat) : Statement (.getCapabilities x0 x1) := fun _ e => by cases e
theorem negotiateAlgorithms (x0 : Moment) (x1 : Nat) (x2 : Bool) : Statement (.negotiateAlgorithms x0 x1 x2) := fun _ e => by cases e
theorem getDigests (x0 : Moment) (x1 : Nat) (x2 : Nat) : Statement (.getDigests x0 x1 x2) := fun _ e => by cases e
theorem getCertificate (x0 : Moment) (x1 : Nat) (x2 : Nat) (x3 : Nat) (x4 : Nat) (x5 : Nat) : Statement (.getCertificate x0 x1 x2 x3 x4 x5) := fun _ e => by cases e
theorem challenge (x0 : Moment) (x1 : Nat) (x2 : Nat) (x3 : Nat) (x4 : Bytes) : Statement (.challenge x0 x1 x2 x3 x4) := fun _ e => by cases e
theorem getMeasurements (x0 : Moment) (x1 : Nat) (x2 : Nat) (x3 : Nat) (x4 : Bool) (x5 : Bytes) : Statement (.getMeasurements x0 x1 x2 x3 x4 x5) := fun _ e => by cases e
theorem keyExchange (x0 : Moment) (x1 : Nat) (x2 : Nat) (x3 : Bytes) : Statement (.keyExchange x0 x1 x2 x3) := fun _ e => by cases e
theorem finish (x0 : Moment) (x1 : Nat) (x2 : Nat) (x3 : Bytes) : Statement (.finish x0 x1 x2 x3) := fun _ e => by cases e
theorem heartbeat (x0 : Moment) (x1 : Nat) (x2 : Nat) : Statement (.heartbeat x0 x1 x2) := fun _ e => by cases e
theorem keyUpdate (x0 : Moment) (x1 : Nat) (x2 : Nat) (x3 : Nat) (x4 : Nat) : Statement (.keyUpdate x0 x1 x2 x3 x4) := fun _ e => by cases e
theorem endSession (x0 : Moment) (x1 : Nat) (x2 : Nat) : Statement (.endSession x0 x1 x2) := fun _ e => by cases e
theorem attestDual (x0 : Moment) (x1 : Nat) (x2 : Nat) (x3 : Nat) (x4 : Bytes) : Statement (.attestDual x0 x1 x2 x3 x4) := fun _ e => by cases e
theorem kekSet (x0 : Moment) (x1 : Nat) (x2 : Nat) (x3 : Bytes) : Statement (.kekSet x0 x1 x2 x3) := fun _ e => by cases e
theorem ideKmMessage (x0 : Moment) (x1 : Nat) (x2 : Nat) (x3 : Machine.IdeKm) : Statement (.ideKmMessage x0 x1 x2 x3) := fun _ e => by cases e
theorem lockInterfaceRequest (x0 : Moment) (x1 : Nat) (x2 : Nat) (x3 : Nat) : Statement (.lockInterfaceRequest x0 x1 x2 x3) := fun _ e => by cases e
theorem startInterfaceRequest (x0 : Moment) (x1 : Nat) (x2 : Nat) (x3 : Nat) : Statement (.startInterfaceRequest x0 x1 x2 x3) := fun _ e => by cases e
theorem stopInterfaceRequest (x0 : Moment) (x1 : Nat) (x2 : Nat) (x3 : Nat) : Statement (.stopInterfaceRequest x0 x1 x2 x3) := fun _ e => by cases e
theorem ideIntegrityFailure (x0 : Moment) (x1 : Nat) (x2 : Bool) : Statement (.ideIntegrityFailure x0 x1 x2) := fun _ e => by cases e
theorem pwrSet (x0 : Moment) (r : Req) : Statement (.pwrSet x0 r) := fun _ e h => by cases e; exact Req.fits h
theorem pwrQuery (x0 : Moment) (r : Req) : Statement (.pwrQuery x0 r) := fun _ e h => by cases e; exact Req.fits h
theorem pwrResume (x0 : Moment) (r : Req) : Statement (.pwrResume x0 r) := fun _ e h => by cases e; exact Req.fits h
theorem ctConfig (x0 : Moment) (r : Req) : Statement (.ctConfig x0 r) := fun _ e h => by cases e; exact Req.fits h
theorem ctStep (x0 : Moment) (r : Req) : Statement (.ctStep x0 r) := fun _ e h => by cases e; exact Req.fits h
theorem ctLeapLoad (x0 : Moment) (r : Req) : Statement (.ctLeapLoad x0 r) := fun _ e h => by cases e; exact Req.fits h
theorem aonSettingsSave (x0 : Moment) (r : Req) : Statement (.aonSettingsSave x0 r) := fun _ e h => by cases e; exact Req.fits h
theorem aonSettingsRead (x0 : Moment) (r : Req) : Statement (.aonSettingsRead x0 r) := fun _ e h => by cases e; exact Req.fits h
theorem otpProgram (x0 : Moment) (r : Req) : Statement (.otpProgram x0 r) := fun _ e h => by cases e; exact Req.fits h
theorem aonLifeRead (x0 : Moment) (r : Req) : Statement (.aonLifeRead x0 r) := fun _ e h => by cases e; exact Req.fits h
theorem aonLifeSync (x0 : Moment) (r : Req) : Statement (.aonLifeSync x0 r) := fun _ e h => by cases e; exact Req.fits h
theorem pwrTransitionPhaseDone (x0 : Moment) (x1 : Nat) : Statement (.pwrTransitionPhaseDone x0 x1) := fun _ e => by cases e
theorem junctionSensorSample (x0 : Moment) (x1 : List (Nat × Int)) : Statement (.junctionSensorSample x0 x1) := fun _ e => by cases e
theorem coreCurrentSample (x0 : Moment) (x1 : Nat) : Statement (.coreCurrentSample x0 x1) := fun _ e => by cases e
theorem thermtrip (x0 : Moment) : Statement (.thermtrip x0) := fun _ e => by cases e
theorem cadenceEdge (x0 : Moment) (x1 : Nat) : Statement (.cadenceEdge x0 x1) := fun _ e => by cases e
theorem cadenceLoss (x0 : Moment) : Statement (.cadenceLoss x0) := fun _ e => by cases e
theorem ptpSourceLoss (x0 : Moment) : Statement (.ptpSourceLoss x0) := fun _ e => by cases e
theorem holdoverBudgetExceeded (x0 : Moment) : Statement (.holdoverBudgetExceeded x0) := fun _ e => by cases e
theorem leapExpiry (x0 : Moment) : Statement (.leapExpiry x0) := fun _ e => by cases e
theorem lifeMirrorUpdate (x0 : Moment) : Statement (.lifeMirrorUpdate x0) := fun _ e => by cases e
theorem lifeJournalWrite (x0 : Moment) (x1 : List Nat) : Statement (.lifeJournalWrite x0 x1) := fun _ e => by cases e
theorem correctedError (x0 : Moment) (x1 : Nat) (x2 : Nat) : Statement (.correctedError x0 x1 x2) := fun _ e => by cases e
theorem uncorrectableError (x0 : Moment) (x1 : UeData) (x2 : UeAt) : Statement (.uncorrectableError x0 x1 x2) := fun _ e => by cases e
theorem patrolScrubPass (x0 : Moment) : Statement (.patrolScrubPass x0) := fun _ e => by cases e
theorem viewSweep (x0 : Moment) (x1 : Nat) (x2 : List Skew) : Statement (.viewSweep x0 x1 x2) := fun _ e => by cases e
theorem viewReconcileTimeout (x0 : Moment) (x1 : Nat) : Statement (.viewReconcileTimeout x0 x1) := fun _ e => by cases e
theorem firmwareWatchdogExpiry (x0 : Moment) (x1 : Bool) : Statement (.firmwareWatchdogExpiry x0 x1) := fun _ e => by cases e
theorem devReset (x0 : Moment) (r : Req) : Statement (.devReset x0 r) := fun _ e h => by cases e; exact Req.fits h
theorem shutdownGraceExpiry (x0 : Moment) : Statement (.shutdownGraceExpiry x0) := fun _ e => by cases e
theorem diagTraining (x0 : Moment) (r : Req) : Statement (.diagTraining x0 r) := fun _ e h => by cases e; exact Req.fits h
theorem diagErrors (x0 : Moment) (r : Req) : Statement (.diagErrors x0 r) := fun _ e h => by cases e; exact Req.fits h
theorem diagViewCheck (x0 : Moment) (r : Req) : Statement (.diagViewCheck x0 r) := fun _ e h => by cases e; exact Req.fits h
theorem diagInject (x0 : Moment) (r : Req) : Statement (.diagInject x0 r) := fun _ e h => by cases e; exact Req.fits h
theorem fwLoad (x0 : Moment) (r : Req) : Statement (.fwLoad x0 r) := fun _ e h => by cases e; exact Req.fits h
theorem diagBootLog (x0 : Moment) (r : Req) : Statement (.diagBootLog x0 r) := fun _ e h => by cases e; exact Req.fits h
theorem powerOnReset (x0 : Moment) : Statement (.powerOnReset x0) := fun _ e => by cases e
theorem pwrgoodFall (x0 : Moment) : Statement (.pwrgoodFall x0) := fun _ e => by cases e
theorem perstNAssert (x0 : Moment) : Statement (.perstNAssert x0) := fun _ e => by cases e
theorem perstNDeassert (x0 : Moment) (x1 : Nat) (x2 : Nat) : Statement (.perstNDeassert x0 x1 x2) := fun _ e => by cases e
theorem pcieHotReset (x0 : Moment) : Statement (.pcieHotReset x0) := fun _ e => by cases e
theorem pcieLinkDown (x0 : Moment) : Statement (.pcieLinkDown x0) := fun _ e => by cases e
theorem flr (x0 : Moment) (x1 : Nat) : Statement (.flr x0 x1) := fun _ e => by cases e
theorem configReady (x0 : Moment) : Statement (.configReady x0) := fun _ e => by cases e
theorem bootPhaseEnd (x0 : Moment) (x1 : BootEnd) : Statement (.bootPhaseEnd x0 x1) := fun _ e => by cases e
theorem railFault (x0 : Moment) (x1 : Nat) : Statement (.railFault x0 x1) := fun _ e => by cases e
theorem serdesRefLoss (x0 : Moment) : Statement (.serdesRefLoss x0) := fun _ e => by cases e
theorem serdesRefReturn (x0 : Moment) : Statement (.serdesRefReturn x0) := fun _ e => by cases e
theorem refclkLoss (x0 : Moment) : Statement (.refclkLoss x0) := fun _ e => by cases e
theorem xtalStop (x0 : Moment) : Statement (.xtalStop x0) := fun _ e => by cases e
theorem smbClockLowTimeout (x0 : Moment) : Statement (.smbClockLowTimeout x0) := fun _ e => by cases e
theorem i3cIdleTimeout (x0 : Moment) : Statement (.i3cIdleTimeout x0) := fun _ e => by cases e
theorem spiFlashTimeout (x0 : Moment) : Statement (.spiFlashTimeout x0) := fun _ e => by cases e
theorem railReturn (x0 : Moment) (x1 : Nat) : Statement (.railReturn x0 x1) := fun _ e => by cases e
theorem vaux1v8Loss (x0 : Moment) : Statement (.vaux1v8Loss x0) := fun _ e => by cases e
theorem pcieLinkUp (x0 : Moment) (x1 : Nat) (x2 : Nat) : Statement (.pcieLinkUp x0 x1 x2) := fun _ e => by cases e
theorem xtalRestart (x0 : Moment) : Statement (.xtalRestart x0) := fun _ e => by cases e
theorem doeDiscovery (x0 : Moment) (x1 : Nat) (x2 : Nat) : Statement (.doeDiscovery x0 x1 x2) := fun _ e => by cases e
theorem rcLocalAckTimeout (x0 : Moment) (x1 : Nat) : Statement (.rcLocalAckTimeout x0 x1) := fun _ e => by cases e

end Laws.Carries

end Sys2Proof
end

