-- ==== Sys2Proof/Laws/Tables.lean ====
section
/-! SUPPORT. Reading a table after a change of it. -/

namespace Sys2Proof.Machine

/-- The entry that was set is the one that is read. -/
@[simp] theorem tget_tset_self {α : Type} (t : Tab α) (k : Nat) (a : α) : tget (tset t k a) k = some a := by
  induction t with
  | nil => simp [tset, tget]
  | cons e t ih =>
    obtain ⟨j, b⟩ := e
    unfold tset
    split
    · simp [tget]
    · split
      · simp [tget]
      · next h => simp [tget, Ne.symm h, ih]

/-- Every other entry is as before. -/
theorem tget_tset_ne {α : Type} (t : Tab α) {k j : Nat} (a : α) (h : j ≠ k) : tget (tset t k a) j = tget t j := by
  induction t with
  | nil => simp [tset, tget, Ne.symm h]
  | cons e t ih =>
    obtain ⟨i, b⟩ := e
    unfold tset
    split
    · simp [tget, Ne.symm h]
    · split
      · next h2 => subst h2; simp [tget, Ne.symm h]
      · simp only [tget, ih]

/-- The entry that was removed is gone. -/
@[simp] theorem tget_tdel_self {α : Type} (t : Tab α) (k : Nat) : tget (tdel t k) k = none := by
  induction t with
  | nil => rfl
  | cons e t ih =>
    obtain ⟨j, b⟩ := e
    unfold tdel at ih ⊢
    rw [List.filter_cons]
    split
    · next h => simp only [tget]; rw [if_neg (by simpa using h)]; exact ih
    · exact ih

/-- Every other entry stays. -/
theorem tget_tdel_ne {α : Type} (t : Tab α) {k j : Nat} (h : j ≠ k) : tget (tdel t k) j = tget t j := by
  induction t with
  | nil => rfl
  | cons e t ih =>
    obtain ⟨i, b⟩ := e
    unfold tdel at ih ⊢
    rw [List.filter_cons]
    split
    · simp only [tget]; rw [ih]
    · next h2 =>
      have h3 : i = k := by simpa using h2
      simp only [tget]; rw [if_neg (by omega)]; exact ih

end Sys2Proof.Machine
end

