-- ==== Sys2Proof/Laws/State.lean ====
section
/-! SUPPORT. The fields of State after each plain update: one lemma per field and update, so that no proof unfolds a record update. -/

namespace Sys2Proof.Machine

variable (s : State)

/-! ### State.at -/

section
variable {m : Moment}
@[simp] theorem at_ct : (s.at m).ct = max s.ct m.ct := rfl
@[simp] theorem at_free : (s.at m).free = s.free := rfl
@[simp] theorem at_out : (s.at m).out = s.out := rfl
@[simp] theorem at_grade : (s.at m).grade = s.grade := rfl
@[simp] theorem at_ctr : (s.at m).ctr = s.ctr := rfl
@[simp] theorem at_hostMem : (s.at m).hostMem = List.foldl (fun h w => h.write w.fst w.snd) s.hostMem m.host := rfl
@[simp] theorem at_hostFaults : (s.at m).hostFaults = m.faults.getD s.hostFaults := rfl
@[simp] theorem at_devMem : (s.at m).devMem = s.devMem := rfl
@[simp] theorem at_bench : (s.at m).bench = s.bench := rfl
@[simp] theorem at_pln : (s.at m).pln = s.pln := rfl
@[simp] theorem at_fdy : (s.at m).fdy = s.fdy := rfl
@[simp] theorem at_frames : (s.at m).frames = s.frames := rfl
@[simp] theorem at_trees : (s.at m).trees = s.trees := rfl
@[simp] theorem at_tile : (s.at m).tile = s.tile := rfl
@[simp] theorem at_txt : (s.at m).txt = s.txt := rfl
@[simp] theorem at_pla : (s.at m).pla = s.pla := rfl
@[simp] theorem at_gau : (s.at m).gau = s.gau := rfl
@[simp] theorem at_tly : (s.at m).tly = s.tly := rfl
@[simp] theorem at_tch : (s.at m).tch = s.tch := rfl
@[simp] theorem at_gth : (s.at m).gth = s.gth := rfl
@[simp] theorem at_net : (s.at m).net = s.net := rfl
@[simp] theorem at_swl : (s.at m).swl = s.swl := rfl
@[simp] theorem at_twn : (s.at m).twn = s.twn := rfl
@[simp] theorem at_mld : (s.at m).mld = s.mld := rfl
@[simp] theorem at_chk : (s.at m).chk = s.chk := rfl
@[simp] theorem at_hmk : (s.at m).hmk = s.hmk := rfl
@[simp] theorem at_pwr : (s.at m).pwr = s.pwr := rfl
@[simp] theorem at_clk : (s.at m).clk = s.clk := rfl
@[simp] theorem at_aon : (s.at m).aon = s.aon := rfl
@[simp] theorem at_err : (s.at m).err = s.err := rfl
@[simp] theorem at_elec : (s.at m).elec = s.elec := rfl
@[simp] theorem at_pending : (s.at m).pending = s.pending := rfl
end

/-! ### emit -/

section
variable {o : Output}
@[simp] theorem emit_ct : (emit o s).ct = s.ct := rfl
@[simp] theorem emit_free : (emit o s).free = s.free := rfl
@[simp] theorem emit_out : (emit o s).out = s.out ++ [o] := rfl
@[simp] theorem emit_grade : (emit o s).grade = s.grade := rfl
@[simp] theorem emit_ctr : (emit o s).ctr = s.ctr := rfl
@[simp] theorem emit_hostMem : (emit o s).hostMem = s.hostMem := rfl
@[simp] theorem emit_hostFaults : (emit o s).hostFaults = s.hostFaults := rfl
@[simp] theorem emit_devMem : (emit o s).devMem = s.devMem := rfl
@[simp] theorem emit_bench : (emit o s).bench = s.bench := rfl
@[simp] theorem emit_pln : (emit o s).pln = s.pln := rfl
@[simp] theorem emit_fdy : (emit o s).fdy = s.fdy := rfl
@[simp] theorem emit_frames : (emit o s).frames = s.frames := rfl
@[simp] theorem emit_trees : (emit o s).trees = s.trees := rfl
@[simp] theorem emit_tile : (emit o s).tile = s.tile := rfl
@[simp] theorem emit_txt : (emit o s).txt = s.txt := rfl
@[simp] theorem emit_pla : (emit o s).pla = s.pla := rfl
@[simp] theorem emit_gau : (emit o s).gau = s.gau := rfl
@[simp] theorem emit_tly : (emit o s).tly = s.tly := rfl
@[simp] theorem emit_tch : (emit o s).tch = s.tch := rfl
@[simp] theorem emit_gth : (emit o s).gth = s.gth := rfl
@[simp] theorem emit_net : (emit o s).net = s.net := rfl
@[simp] theorem emit_swl : (emit o s).swl = s.swl := rfl
@[simp] theorem emit_twn : (emit o s).twn = s.twn := rfl
@[simp] theorem emit_mld : (emit o s).mld = s.mld := rfl
@[simp] theorem emit_chk : (emit o s).chk = s.chk := rfl
@[simp] theorem emit_hmk : (emit o s).hmk = s.hmk := rfl
@[simp] theorem emit_pwr : (emit o s).pwr = s.pwr := rfl
@[simp] theorem emit_clk : (emit o s).clk = s.clk := rfl
@[simp] theorem emit_aon : (emit o s).aon = s.aon := rfl
@[simp] theorem emit_err : (emit o s).err = s.err := rfl
@[simp] theorem emit_elec : (emit o s).elec = s.elec := rfl
@[simp] theorem emit_pending : (emit o s).pending = s.pending := rfl
end

/-! ### hostWrite -/

section
variable {a : Nat} {b : Bytes}
@[simp] theorem hostWrite_ct : (hostWrite a b s).ct = s.ct := rfl
@[simp] theorem hostWrite_free : (hostWrite a b s).free = s.free := rfl
@[simp] theorem hostWrite_out : (hostWrite a b s).out = s.out := rfl
@[simp] theorem hostWrite_grade : (hostWrite a b s).grade = s.grade := rfl
@[simp] theorem hostWrite_ctr : (hostWrite a b s).ctr = s.ctr := rfl
@[simp] theorem hostWrite_hostMem : (hostWrite a b s).hostMem = s.hostMem.write a b := rfl
@[simp] theorem hostWrite_hostFaults : (hostWrite a b s).hostFaults = s.hostFaults := rfl
@[simp] theorem hostWrite_devMem : (hostWrite a b s).devMem = s.devMem := rfl
@[simp] theorem hostWrite_bench : (hostWrite a b s).bench = s.bench := rfl
@[simp] theorem hostWrite_pln : (hostWrite a b s).pln = s.pln := rfl
@[simp] theorem hostWrite_fdy : (hostWrite a b s).fdy = s.fdy := rfl
@[simp] theorem hostWrite_frames : (hostWrite a b s).frames = s.frames := rfl
@[simp] theorem hostWrite_trees : (hostWrite a b s).trees = s.trees := rfl
@[simp] theorem hostWrite_tile : (hostWrite a b s).tile = s.tile := rfl
@[simp] theorem hostWrite_txt : (hostWrite a b s).txt = s.txt := rfl
@[simp] theorem hostWrite_pla : (hostWrite a b s).pla = s.pla := rfl
@[simp] theorem hostWrite_gau : (hostWrite a b s).gau = s.gau := rfl
@[simp] theorem hostWrite_tly : (hostWrite a b s).tly = s.tly := rfl
@[simp] theorem hostWrite_tch : (hostWrite a b s).tch = s.tch := rfl
@[simp] theorem hostWrite_gth : (hostWrite a b s).gth = s.gth := rfl
@[simp] theorem hostWrite_net : (hostWrite a b s).net = s.net := rfl
@[simp] theorem hostWrite_swl : (hostWrite a b s).swl = s.swl := rfl
@[simp] theorem hostWrite_twn : (hostWrite a b s).twn = s.twn := rfl
@[simp] theorem hostWrite_mld : (hostWrite a b s).mld = s.mld := rfl
@[simp] theorem hostWrite_chk : (hostWrite a b s).chk = s.chk := rfl
@[simp] theorem hostWrite_hmk : (hostWrite a b s).hmk = s.hmk := rfl
@[simp] theorem hostWrite_pwr : (hostWrite a b s).pwr = s.pwr := rfl
@[simp] theorem hostWrite_clk : (hostWrite a b s).clk = s.clk := rfl
@[simp] theorem hostWrite_aon : (hostWrite a b s).aon = s.aon := rfl
@[simp] theorem hostWrite_err : (hostWrite a b s).err = s.err := rfl
@[simp] theorem hostWrite_elec : (hostWrite a b s).elec = s.elec := rfl
@[simp] theorem hostWrite_pending : (hostWrite a b s).pending = s.pending := rfl
end

/-! ### devWrite -/

section
variable {t : Nat} {a : Nat} {b : Bytes}
@[simp] theorem devWrite_ct : (devWrite t a b s).ct = s.ct := rfl
@[simp] theorem devWrite_free : (devWrite t a b s).free = s.free := rfl
@[simp] theorem devWrite_out : (devWrite t a b s).out = s.out := rfl
@[simp] theorem devWrite_grade : (devWrite t a b s).grade = s.grade := rfl
@[simp] theorem devWrite_ctr : (devWrite t a b s).ctr = s.ctr := rfl
@[simp] theorem devWrite_hostMem : (devWrite t a b s).hostMem = s.hostMem := rfl
@[simp] theorem devWrite_hostFaults : (devWrite t a b s).hostFaults = s.hostFaults := rfl
@[simp] theorem devWrite_devMem : (devWrite t a b s).devMem = s.devMem.write (devKey t a) b := rfl
@[simp] theorem devWrite_bench : (devWrite t a b s).bench = s.bench := rfl
@[simp] theorem devWrite_pln : (devWrite t a b s).pln = s.pln := rfl
@[simp] theorem devWrite_fdy : (devWrite t a b s).fdy = s.fdy := rfl
@[simp] theorem devWrite_frames : (devWrite t a b s).frames = s.frames := rfl
@[simp] theorem devWrite_trees : (devWrite t a b s).trees = s.trees := rfl
@[simp] theorem devWrite_tile : (devWrite t a b s).tile = s.tile := rfl
@[simp] theorem devWrite_txt : (devWrite t a b s).txt = s.txt := rfl
@[simp] theorem devWrite_pla : (devWrite t a b s).pla = s.pla := rfl
@[simp] theorem devWrite_gau : (devWrite t a b s).gau = s.gau := rfl
@[simp] theorem devWrite_tly : (devWrite t a b s).tly = s.tly := rfl
@[simp] theorem devWrite_tch : (devWrite t a b s).tch = s.tch := rfl
@[simp] theorem devWrite_gth : (devWrite t a b s).gth = s.gth := rfl
@[simp] theorem devWrite_net : (devWrite t a b s).net = s.net := rfl
@[simp] theorem devWrite_swl : (devWrite t a b s).swl = s.swl := rfl
@[simp] theorem devWrite_twn : (devWrite t a b s).twn = s.twn := rfl
@[simp] theorem devWrite_mld : (devWrite t a b s).mld = s.mld := rfl
@[simp] theorem devWrite_chk : (devWrite t a b s).chk = s.chk := rfl
@[simp] theorem devWrite_hmk : (devWrite t a b s).hmk = s.hmk := rfl
@[simp] theorem devWrite_pwr : (devWrite t a b s).pwr = s.pwr := rfl
@[simp] theorem devWrite_clk : (devWrite t a b s).clk = s.clk := rfl
@[simp] theorem devWrite_aon : (devWrite t a b s).aon = s.aon := rfl
@[simp] theorem devWrite_err : (devWrite t a b s).err = s.err := rfl
@[simp] theorem devWrite_elec : (devWrite t a b s).elec = s.elec := rfl
@[simp] theorem devWrite_pending : (devWrite t a b s).pending = s.pending := rfl
end

/-! ### setFn -/

section
variable {fn : Nat} {f : FnState}
@[simp] theorem setFn_ct : (setFn fn f s).ct = s.ct := rfl
@[simp] theorem setFn_free : (setFn fn f s).free = s.free := rfl
@[simp] theorem setFn_out : (setFn fn f s).out = s.out := rfl
@[simp] theorem setFn_grade : (setFn fn f s).grade = s.grade := rfl
@[simp] theorem setFn_ctr : (setFn fn f s).ctr = s.ctr := rfl
@[simp] theorem setFn_hostMem : (setFn fn f s).hostMem = s.hostMem := rfl
@[simp] theorem setFn_hostFaults : (setFn fn f s).hostFaults = s.hostFaults := rfl
@[simp] theorem setFn_devMem : (setFn fn f s).devMem = s.devMem := rfl
@[simp] theorem setFn_bench : (setFn fn f s).bench = { s.bench with fns := tset s.bench.fns fn f } := rfl
@[simp] theorem setFn_pln : (setFn fn f s).pln = s.pln := rfl
@[simp] theorem setFn_fdy : (setFn fn f s).fdy = s.fdy := rfl
@[simp] theorem setFn_frames : (setFn fn f s).frames = s.frames := rfl
@[simp] theorem setFn_trees : (setFn fn f s).trees = s.trees := rfl
@[simp] theorem setFn_tile : (setFn fn f s).tile = s.tile := rfl
@[simp] theorem setFn_txt : (setFn fn f s).txt = s.txt := rfl
@[simp] theorem setFn_pla : (setFn fn f s).pla = s.pla := rfl
@[simp] theorem setFn_gau : (setFn fn f s).gau = s.gau := rfl
@[simp] theorem setFn_tly : (setFn fn f s).tly = s.tly := rfl
@[simp] theorem setFn_tch : (setFn fn f s).tch = s.tch := rfl
@[simp] theorem setFn_gth : (setFn fn f s).gth = s.gth := rfl
@[simp] theorem setFn_net : (setFn fn f s).net = s.net := rfl
@[simp] theorem setFn_swl : (setFn fn f s).swl = s.swl := rfl
@[simp] theorem setFn_twn : (setFn fn f s).twn = s.twn := rfl
@[simp] theorem setFn_mld : (setFn fn f s).mld = s.mld := rfl
@[simp] theorem setFn_chk : (setFn fn f s).chk = s.chk := rfl
@[simp] theorem setFn_hmk : (setFn fn f s).hmk = s.hmk := rfl
@[simp] theorem setFn_pwr : (setFn fn f s).pwr = s.pwr := rfl
@[simp] theorem setFn_clk : (setFn fn f s).clk = s.clk := rfl
@[simp] theorem setFn_aon : (setFn fn f s).aon = s.aon := rfl
@[simp] theorem setFn_err : (setFn fn f s).err = s.err := rfl
@[simp] theorem setFn_elec : (setFn fn f s).elec = s.elec := rfl
@[simp] theorem setFn_pending : (setFn fn f s).pending = s.pending := rfl
end

/-! ### setOp -/

section
variable {n : Nat} {o : LongOp}
@[simp] theorem setOp_ct : (setOp n o s).ct = s.ct := rfl
@[simp] theorem setOp_free : (setOp n o s).free = s.free := rfl
@[simp] theorem setOp_out : (setOp n o s).out = s.out := rfl
@[simp] theorem setOp_grade : (setOp n o s).grade = s.grade := rfl
@[simp] theorem setOp_ctr : (setOp n o s).ctr = s.ctr := rfl
@[simp] theorem setOp_hostMem : (setOp n o s).hostMem = s.hostMem := rfl
@[simp] theorem setOp_hostFaults : (setOp n o s).hostFaults = s.hostFaults := rfl
@[simp] theorem setOp_devMem : (setOp n o s).devMem = s.devMem := rfl
@[simp] theorem setOp_bench : (setOp n o s).bench = { s.bench with ops := tset s.bench.ops n o } := rfl
@[simp] theorem setOp_pln : (setOp n o s).pln = s.pln := rfl
@[simp] theorem setOp_fdy : (setOp n o s).fdy = s.fdy := rfl
@[simp] theorem setOp_frames : (setOp n o s).frames = s.frames := rfl
@[simp] theorem setOp_trees : (setOp n o s).trees = s.trees := rfl
@[simp] theorem setOp_tile : (setOp n o s).tile = s.tile := rfl
@[simp] theorem setOp_txt : (setOp n o s).txt = s.txt := rfl
@[simp] theorem setOp_pla : (setOp n o s).pla = s.pla := rfl
@[simp] theorem setOp_gau : (setOp n o s).gau = s.gau := rfl
@[simp] theorem setOp_tly : (setOp n o s).tly = s.tly := rfl
@[simp] theorem setOp_tch : (setOp n o s).tch = s.tch := rfl
@[simp] theorem setOp_gth : (setOp n o s).gth = s.gth := rfl
@[simp] theorem setOp_net : (setOp n o s).net = s.net := rfl
@[simp] theorem setOp_swl : (setOp n o s).swl = s.swl := rfl
@[simp] theorem setOp_twn : (setOp n o s).twn = s.twn := rfl
@[simp] theorem setOp_mld : (setOp n o s).mld = s.mld := rfl
@[simp] theorem setOp_chk : (setOp n o s).chk = s.chk := rfl
@[simp] theorem setOp_hmk : (setOp n o s).hmk = s.hmk := rfl
@[simp] theorem setOp_pwr : (setOp n o s).pwr = s.pwr := rfl
@[simp] theorem setOp_clk : (setOp n o s).clk = s.clk := rfl
@[simp] theorem setOp_aon : (setOp n o s).aon = s.aon := rfl
@[simp] theorem setOp_err : (setOp n o s).err = s.err := rfl
@[simp] theorem setOp_elec : (setOp n o s).elec = s.elec := rfl
@[simp] theorem setOp_pending : (setOp n o s).pending = s.pending := rfl
end

/-! ### postHalf -/

section
variable {h : Half} {unit : Nat} {session : Nat}
@[simp] theorem postHalf_ct : (postHalf h unit session s).ct = s.ct := rfl
@[simp] theorem postHalf_free : (postHalf h unit session s).free = s.free := rfl
@[simp] theorem postHalf_out : (postHalf h unit session s).out = s.out := rfl
@[simp] theorem postHalf_grade : (postHalf h unit session s).grade = s.grade := rfl
@[simp] theorem postHalf_ctr : (postHalf h unit session s).ctr = s.ctr := rfl
@[simp] theorem postHalf_hostMem : (postHalf h unit session s).hostMem = s.hostMem := rfl
@[simp] theorem postHalf_hostFaults : (postHalf h unit session s).hostFaults = s.hostFaults := rfl
@[simp] theorem postHalf_devMem : (postHalf h unit session s).devMem = s.devMem := rfl
@[simp] theorem postHalf_bench : (postHalf h unit session s).bench = s.bench := rfl
@[simp] theorem postHalf_pln : (postHalf h unit session s).pln = s.pln := rfl
@[simp] theorem postHalf_fdy : (postHalf h unit session s).fdy = s.fdy := rfl
@[simp] theorem postHalf_frames : (postHalf h unit session s).frames = s.frames := rfl
@[simp] theorem postHalf_trees : (postHalf h unit session s).trees = s.trees := rfl
@[simp] theorem postHalf_tile : (postHalf h unit session s).tile = s.tile := rfl
@[simp] theorem postHalf_txt : (postHalf h unit session s).txt = s.txt := rfl
@[simp] theorem postHalf_pla : (postHalf h unit session s).pla = s.pla := rfl
@[simp] theorem postHalf_gau : (postHalf h unit session s).gau = s.gau := rfl
@[simp] theorem postHalf_tly : (postHalf h unit session s).tly = { s.tly with ledgers := tset s.tly.ledgers (ledgerKey h.code h.inst) { cols := List.foldl (fun c x => c.set x.fst (addCol (c.getD x.fst 0) x.snd)) (getLedger s h.code h.inst).cols h.chg, mark := (getLedger s h.code h.inst).mark, delta := (getLedger s h.code h.inst).delta, sat := (getLedger s h.code h.inst).sat || h.chg.any fun x => decide (2 ^ 64 - 1 < ↑((getLedger s h.code h.inst).cols.getD x.fst 0) + x.snd), trace := List.drop (((getLedger s h.code h.inst).trace ++ [traceOf h s.ct unit session]).length - 64) ((getLedger s h.code h.inst).trace ++ [traceOf h s.ct unit session]) } } := rfl
@[simp] theorem postHalf_tch : (postHalf h unit session s).tch = s.tch := rfl
@[simp] theorem postHalf_gth : (postHalf h unit session s).gth = s.gth := rfl
@[simp] theorem postHalf_net : (postHalf h unit session s).net = s.net := rfl
@[simp] theorem postHalf_swl : (postHalf h unit session s).swl = s.swl := rfl
@[simp] theorem postHalf_twn : (postHalf h unit session s).twn = s.twn := rfl
@[simp] theorem postHalf_mld : (postHalf h unit session s).mld = s.mld := rfl
@[simp] theorem postHalf_chk : (postHalf h unit session s).chk = s.chk := rfl
@[simp] theorem postHalf_hmk : (postHalf h unit session s).hmk = s.hmk := rfl
@[simp] theorem postHalf_pwr : (postHalf h unit session s).pwr = s.pwr := rfl
@[simp] theorem postHalf_clk : (postHalf h unit session s).clk = s.clk := rfl
@[simp] theorem postHalf_aon : (postHalf h unit session s).aon = s.aon := rfl
@[simp] theorem postHalf_err : (postHalf h unit session s).err = s.err := rfl
@[simp] theorem postHalf_elec : (postHalf h unit session s).elec = s.elec := rfl
@[simp] theorem postHalf_pending : (postHalf h unit session s).pending = s.pending := rfl
end

/-! ### setPart -/

section
variable {p : Nat} {x : Partition}
@[simp] theorem setPart_ct : (setPart p x s).ct = s.ct := rfl
@[simp] theorem setPart_free : (setPart p x s).free = s.free := rfl
@[simp] theorem setPart_out : (setPart p x s).out = s.out := rfl
@[simp] theorem setPart_grade : (setPart p x s).grade = s.grade := rfl
@[simp] theorem setPart_ctr : (setPart p x s).ctr = s.ctr := rfl
@[simp] theorem setPart_hostMem : (setPart p x s).hostMem = s.hostMem := rfl
@[simp] theorem setPart_hostFaults : (setPart p x s).hostFaults = s.hostFaults := rfl
@[simp] theorem setPart_devMem : (setPart p x s).devMem = s.devMem := rfl
@[simp] theorem setPart_bench : (setPart p x s).bench = s.bench := rfl
@[simp] theorem setPart_pln : (setPart p x s).pln = s.pln := rfl
@[simp] theorem setPart_fdy : (setPart p x s).fdy = s.fdy := rfl
@[simp] theorem setPart_frames : (setPart p x s).frames = s.frames := rfl
@[simp] theorem setPart_trees : (setPart p x s).trees = s.trees := rfl
@[simp] theorem setPart_tile : (setPart p x s).tile = s.tile := rfl
@[simp] theorem setPart_txt : (setPart p x s).txt = s.txt := rfl
@[simp] theorem setPart_pla : (setPart p x s).pla = s.pla := rfl
@[simp] theorem setPart_gau : (setPart p x s).gau = s.gau := rfl
@[simp] theorem setPart_tly : (setPart p x s).tly = s.tly := rfl
@[simp] theorem setPart_tch : (setPart p x s).tch = s.tch := rfl
@[simp] theorem setPart_gth : (setPart p x s).gth = s.gth := rfl
@[simp] theorem setPart_net : (setPart p x s).net = s.net := rfl
@[simp] theorem setPart_swl : (setPart p x s).swl = s.swl := rfl
@[simp] theorem setPart_twn : (setPart p x s).twn = s.twn := rfl
@[simp] theorem setPart_mld : (setPart p x s).mld = s.mld := rfl
@[simp] theorem setPart_chk : (setPart p x s).chk = s.chk := rfl
@[simp] theorem setPart_hmk : (setPart p x s).hmk = { s.hmk with parts := tset s.hmk.parts p x } := rfl
@[simp] theorem setPart_pwr : (setPart p x s).pwr = s.pwr := rfl
@[simp] theorem setPart_clk : (setPart p x s).clk = s.clk := rfl
@[simp] theorem setPart_aon : (setPart p x s).aon = s.aon := rfl
@[simp] theorem setPart_err : (setPart p x s).err = s.err := rfl
@[simp] theorem setPart_elec : (setPart p x s).elec = s.elec := rfl
@[simp] theorem setPart_pending : (setPart p x s).pending = s.pending := rfl
end

/-! ### setConn -/

section
variable {via : Nat} {stage : Nat}
@[simp] theorem setConn_ct : (setConn via stage s).ct = s.ct := rfl
@[simp] theorem setConn_free : (setConn via stage s).free = s.free := rfl
@[simp] theorem setConn_out : (setConn via stage s).out = s.out := rfl
@[simp] theorem setConn_grade : (setConn via stage s).grade = s.grade := rfl
@[simp] theorem setConn_ctr : (setConn via stage s).ctr = s.ctr := rfl
@[simp] theorem setConn_hostMem : (setConn via stage s).hostMem = s.hostMem := rfl
@[simp] theorem setConn_hostFaults : (setConn via stage s).hostFaults = s.hostFaults := rfl
@[simp] theorem setConn_devMem : (setConn via stage s).devMem = s.devMem := rfl
@[simp] theorem setConn_bench : (setConn via stage s).bench = s.bench := rfl
@[simp] theorem setConn_pln : (setConn via stage s).pln = s.pln := rfl
@[simp] theorem setConn_fdy : (setConn via stage s).fdy = s.fdy := rfl
@[simp] theorem setConn_frames : (setConn via stage s).frames = s.frames := rfl
@[simp] theorem setConn_trees : (setConn via stage s).trees = s.trees := rfl
@[simp] theorem setConn_tile : (setConn via stage s).tile = s.tile := rfl
@[simp] theorem setConn_txt : (setConn via stage s).txt = s.txt := rfl
@[simp] theorem setConn_pla : (setConn via stage s).pla = s.pla := rfl
@[simp] theorem setConn_gau : (setConn via stage s).gau = s.gau := rfl
@[simp] theorem setConn_tly : (setConn via stage s).tly = s.tly := rfl
@[simp] theorem setConn_tch : (setConn via stage s).tch = s.tch := rfl
@[simp] theorem setConn_gth : (setConn via stage s).gth = s.gth := rfl
@[simp] theorem setConn_net : (setConn via stage s).net = s.net := rfl
@[simp] theorem setConn_swl : (setConn via stage s).swl = s.swl := rfl
@[simp] theorem setConn_twn : (setConn via stage s).twn = s.twn := rfl
@[simp] theorem setConn_mld : (setConn via stage s).mld = s.mld := rfl
@[simp] theorem setConn_chk : (setConn via stage s).chk = s.chk := rfl
@[simp] theorem setConn_hmk : (setConn via stage s).hmk = { s.hmk with conns := tset s.hmk.conns via { stage := stage } } := rfl
@[simp] theorem setConn_pwr : (setConn via stage s).pwr = s.pwr := rfl
@[simp] theorem setConn_clk : (setConn via stage s).clk = s.clk := rfl
@[simp] theorem setConn_aon : (setConn via stage s).aon = s.aon := rfl
@[simp] theorem setConn_err : (setConn via stage s).err = s.err := rfl
@[simp] theorem setConn_elec : (setConn via stage s).elec = s.elec := rfl
@[simp] theorem setConn_pending : (setConn via stage s).pending = s.pending := rfl
end

/-! ### setSpdm -/

section
variable {n : Nat} {x : SpdmSession}
@[simp] theorem setSpdm_ct : (setSpdm n x s).ct = s.ct := rfl
@[simp] theorem setSpdm_free : (setSpdm n x s).free = s.free := rfl
@[simp] theorem setSpdm_out : (setSpdm n x s).out = s.out := rfl
@[simp] theorem setSpdm_grade : (setSpdm n x s).grade = s.grade := rfl
@[simp] theorem setSpdm_ctr : (setSpdm n x s).ctr = s.ctr := rfl
@[simp] theorem setSpdm_hostMem : (setSpdm n x s).hostMem = s.hostMem := rfl
@[simp] theorem setSpdm_hostFaults : (setSpdm n x s).hostFaults = s.hostFaults := rfl
@[simp] theorem setSpdm_devMem : (setSpdm n x s).devMem = s.devMem := rfl
@[simp] theorem setSpdm_bench : (setSpdm n x s).bench = s.bench := rfl
@[simp] theorem setSpdm_pln : (setSpdm n x s).pln = s.pln := rfl
@[simp] theorem setSpdm_fdy : (setSpdm n x s).fdy = s.fdy := rfl
@[simp] theorem setSpdm_frames : (setSpdm n x s).frames = s.frames := rfl
@[simp] theorem setSpdm_trees : (setSpdm n x s).trees = s.trees := rfl
@[simp] theorem setSpdm_tile : (setSpdm n x s).tile = s.tile := rfl
@[simp] theorem setSpdm_txt : (setSpdm n x s).txt = s.txt := rfl
@[simp] theorem setSpdm_pla : (setSpdm n x s).pla = s.pla := rfl
@[simp] theorem setSpdm_gau : (setSpdm n x s).gau = s.gau := rfl
@[simp] theorem setSpdm_tly : (setSpdm n x s).tly = s.tly := rfl
@[simp] theorem setSpdm_tch : (setSpdm n x s).tch = s.tch := rfl
@[simp] theorem setSpdm_gth : (setSpdm n x s).gth = s.gth := rfl
@[simp] theorem setSpdm_net : (setSpdm n x s).net = s.net := rfl
@[simp] theorem setSpdm_swl : (setSpdm n x s).swl = s.swl := rfl
@[simp] theorem setSpdm_twn : (setSpdm n x s).twn = s.twn := rfl
@[simp] theorem setSpdm_mld : (setSpdm n x s).mld = s.mld := rfl
@[simp] theorem setSpdm_chk : (setSpdm n x s).chk = s.chk := rfl
@[simp] theorem setSpdm_hmk : (setSpdm n x s).hmk = { s.hmk with sessions := tset s.hmk.sessions n x } := rfl
@[simp] theorem setSpdm_pwr : (setSpdm n x s).pwr = s.pwr := rfl
@[simp] theorem setSpdm_clk : (setSpdm n x s).clk = s.clk := rfl
@[simp] theorem setSpdm_aon : (setSpdm n x s).aon = s.aon := rfl
@[simp] theorem setSpdm_err : (setSpdm n x s).err = s.err := rfl
@[simp] theorem setSpdm_elec : (setSpdm n x s).elec = s.elec := rfl
@[simp] theorem setSpdm_pending : (setSpdm n x s).pending = s.pending := rfl
end

/-! ### setGroup -/

section
variable {g : Nat} {x : Group}
@[simp] theorem setGroup_ct : (setGroup g x s).ct = s.ct := rfl
@[simp] theorem setGroup_free : (setGroup g x s).free = s.free := rfl
@[simp] theorem setGroup_out : (setGroup g x s).out = s.out := rfl
@[simp] theorem setGroup_grade : (setGroup g x s).grade = s.grade := rfl
@[simp] theorem setGroup_ctr : (setGroup g x s).ctr = s.ctr := rfl
@[simp] theorem setGroup_hostMem : (setGroup g x s).hostMem = s.hostMem := rfl
@[simp] theorem setGroup_hostFaults : (setGroup g x s).hostFaults = s.hostFaults := rfl
@[simp] theorem setGroup_devMem : (setGroup g x s).devMem = s.devMem := rfl
@[simp] theorem setGroup_bench : (setGroup g x s).bench = s.bench := rfl
@[simp] theorem setGroup_pln : (setGroup g x s).pln = s.pln := rfl
@[simp] theorem setGroup_fdy : (setGroup g x s).fdy = s.fdy := rfl
@[simp] theorem setGroup_frames : (setGroup g x s).frames = s.frames := rfl
@[simp] theorem setGroup_trees : (setGroup g x s).trees = s.trees := rfl
@[simp] theorem setGroup_tile : (setGroup g x s).tile = s.tile := rfl
@[simp] theorem setGroup_txt : (setGroup g x s).txt = s.txt := rfl
@[simp] theorem setGroup_pla : (setGroup g x s).pla = s.pla := rfl
@[simp] theorem setGroup_gau : (setGroup g x s).gau = s.gau := rfl
@[simp] theorem setGroup_tly : (setGroup g x s).tly = s.tly := rfl
@[simp] theorem setGroup_tch : (setGroup g x s).tch = s.tch := rfl
@[simp] theorem setGroup_gth : (setGroup g x s).gth = s.gth := rfl
@[simp] theorem setGroup_net : (setGroup g x s).net = s.net := rfl
@[simp] theorem setGroup_swl : (setGroup g x s).swl = s.swl := rfl
@[simp] theorem setGroup_twn : (setGroup g x s).twn = s.twn := rfl
@[simp] theorem setGroup_mld : (setGroup g x s).mld = s.mld := rfl
@[simp] theorem setGroup_chk : (setGroup g x s).chk = s.chk := rfl
@[simp] theorem setGroup_hmk : (setGroup g x s).hmk = s.hmk := rfl
@[simp] theorem setGroup_pwr : (setGroup g x s).pwr = { s.pwr with groups := tset s.pwr.groups g x } := rfl
@[simp] theorem setGroup_clk : (setGroup g x s).clk = s.clk := rfl
@[simp] theorem setGroup_aon : (setGroup g x s).aon = s.aon := rfl
@[simp] theorem setGroup_err : (setGroup g x s).err = s.err := rfl
@[simp] theorem setGroup_elec : (setGroup g x s).elec = s.elec := rfl
@[simp] theorem setGroup_pending : (setGroup g x s).pending = s.pending := rfl
end

/-! ### setTree -/

section
variable {p : Nat} {t : Tree}
@[simp] theorem setTree_ct : (setTree p t s).ct = s.ct := rfl
@[simp] theorem setTree_free : (setTree p t s).free = s.free := rfl
@[simp] theorem setTree_out : (setTree p t s).out = s.out := rfl
@[simp] theorem setTree_grade : (setTree p t s).grade = s.grade := rfl
@[simp] theorem setTree_ctr : (setTree p t s).ctr = s.ctr := rfl
@[simp] theorem setTree_hostMem : (setTree p t s).hostMem = s.hostMem := rfl
@[simp] theorem setTree_hostFaults : (setTree p t s).hostFaults = s.hostFaults := rfl
@[simp] theorem setTree_devMem : (setTree p t s).devMem = s.devMem := rfl
@[simp] theorem setTree_bench : (setTree p t s).bench = s.bench := rfl
@[simp] theorem setTree_pln : (setTree p t s).pln = s.pln := rfl
@[simp] theorem setTree_fdy : (setTree p t s).fdy = s.fdy := rfl
@[simp] theorem setTree_frames : (setTree p t s).frames = s.frames := rfl
@[simp] theorem setTree_trees : (setTree p t s).trees = tset s.trees p t := rfl
@[simp] theorem setTree_tile : (setTree p t s).tile = s.tile := rfl
@[simp] theorem setTree_txt : (setTree p t s).txt = s.txt := rfl
@[simp] theorem setTree_pla : (setTree p t s).pla = s.pla := rfl
@[simp] theorem setTree_gau : (setTree p t s).gau = s.gau := rfl
@[simp] theorem setTree_tly : (setTree p t s).tly = s.tly := rfl
@[simp] theorem setTree_tch : (setTree p t s).tch = s.tch := rfl
@[simp] theorem setTree_gth : (setTree p t s).gth = s.gth := rfl
@[simp] theorem setTree_net : (setTree p t s).net = s.net := rfl
@[simp] theorem setTree_swl : (setTree p t s).swl = s.swl := rfl
@[simp] theorem setTree_twn : (setTree p t s).twn = s.twn := rfl
@[simp] theorem setTree_mld : (setTree p t s).mld = s.mld := rfl
@[simp] theorem setTree_chk : (setTree p t s).chk = s.chk := rfl
@[simp] theorem setTree_hmk : (setTree p t s).hmk = s.hmk := rfl
@[simp] theorem setTree_pwr : (setTree p t s).pwr = s.pwr := rfl
@[simp] theorem setTree_clk : (setTree p t s).clk = s.clk := rfl
@[simp] theorem setTree_aon : (setTree p t s).aon = s.aon := rfl
@[simp] theorem setTree_err : (setTree p t s).err = s.err := rfl
@[simp] theorem setTree_elec : (setTree p t s).elec = s.elec := rfl
@[simp] theorem setTree_pending : (setTree p t s).pending = s.pending := rfl
end

/-! ### setModel -/

section
variable {n : Nat} {x : ModelSlot}
@[simp] theorem setModel_ct : (setModel n x s).ct = s.ct := rfl
@[simp] theorem setModel_free : (setModel n x s).free = s.free := rfl
@[simp] theorem setModel_out : (setModel n x s).out = s.out := rfl
@[simp] theorem setModel_grade : (setModel n x s).grade = s.grade := rfl
@[simp] theorem setModel_ctr : (setModel n x s).ctr = s.ctr := rfl
@[simp] theorem setModel_hostMem : (setModel n x s).hostMem = s.hostMem := rfl
@[simp] theorem setModel_hostFaults : (setModel n x s).hostFaults = s.hostFaults := rfl
@[simp] theorem setModel_devMem : (setModel n x s).devMem = s.devMem := rfl
@[simp] theorem setModel_bench : (setModel n x s).bench = s.bench := rfl
@[simp] theorem setModel_pln : (setModel n x s).pln = s.pln := rfl
@[simp] theorem setModel_fdy : (setModel n x s).fdy = s.fdy := rfl
@[simp] theorem setModel_frames : (setModel n x s).frames = s.frames := rfl
@[simp] theorem setModel_trees : (setModel n x s).trees = s.trees := rfl
@[simp] theorem setModel_tile : (setModel n x s).tile = { s.tile with models := tset s.tile.models n x } := rfl
@[simp] theorem setModel_txt : (setModel n x s).txt = s.txt := rfl
@[simp] theorem setModel_pla : (setModel n x s).pla = s.pla := rfl
@[simp] theorem setModel_gau : (setModel n x s).gau = s.gau := rfl
@[simp] theorem setModel_tly : (setModel n x s).tly = s.tly := rfl
@[simp] theorem setModel_tch : (setModel n x s).tch = s.tch := rfl
@[simp] theorem setModel_gth : (setModel n x s).gth = s.gth := rfl
@[simp] theorem setModel_net : (setModel n x s).net = s.net := rfl
@[simp] theorem setModel_swl : (setModel n x s).swl = s.swl := rfl
@[simp] theorem setModel_twn : (setModel n x s).twn = s.twn := rfl
@[simp] theorem setModel_mld : (setModel n x s).mld = s.mld := rfl
@[simp] theorem setModel_chk : (setModel n x s).chk = s.chk := rfl
@[simp] theorem setModel_hmk : (setModel n x s).hmk = s.hmk := rfl
@[simp] theorem setModel_pwr : (setModel n x s).pwr = s.pwr := rfl
@[simp] theorem setModel_clk : (setModel n x s).clk = s.clk := rfl
@[simp] theorem setModel_aon : (setModel n x s).aon = s.aon := rfl
@[simp] theorem setModel_err : (setModel n x s).err = s.err := rfl
@[simp] theorem setModel_elec : (setModel n x s).elec = s.elec := rfl
@[simp] theorem setModel_pending : (setModel n x s).pending = s.pending := rfl
end

/-! ### modInv -/

section
variable {serial : Nat} {f : Invocation → Invocation}
@[simp] theorem modInv_ct : (modInv serial f s).ct = s.ct := rfl
@[simp] theorem modInv_free : (modInv serial f s).free = s.free := rfl
@[simp] theorem modInv_out : (modInv serial f s).out = s.out := rfl
@[simp] theorem modInv_grade : (modInv serial f s).grade = s.grade := rfl
@[simp] theorem modInv_ctr : (modInv serial f s).ctr = s.ctr := rfl
@[simp] theorem modInv_hostMem : (modInv serial f s).hostMem = s.hostMem := rfl
@[simp] theorem modInv_hostFaults : (modInv serial f s).hostFaults = s.hostFaults := rfl
@[simp] theorem modInv_devMem : (modInv serial f s).devMem = s.devMem := rfl
@[simp] theorem modInv_bench : (modInv serial f s).bench = s.bench := rfl
@[simp] theorem modInv_pln : (modInv serial f s).pln = s.pln := rfl
@[simp] theorem modInv_fdy : (modInv serial f s).fdy = s.fdy := rfl
@[simp] theorem modInv_frames : (modInv serial f s).frames = s.frames := rfl
@[simp] theorem modInv_trees : (modInv serial f s).trees = s.trees := rfl
@[simp] theorem modInv_tile : (modInv serial f s).tile = { s.tile with invs := tmod s.tile.invs serial f } := rfl
@[simp] theorem modInv_txt : (modInv serial f s).txt = s.txt := rfl
@[simp] theorem modInv_pla : (modInv serial f s).pla = s.pla := rfl
@[simp] theorem modInv_gau : (modInv serial f s).gau = s.gau := rfl
@[simp] theorem modInv_tly : (modInv serial f s).tly = s.tly := rfl
@[simp] theorem modInv_tch : (modInv serial f s).tch = s.tch := rfl
@[simp] theorem modInv_gth : (modInv serial f s).gth = s.gth := rfl
@[simp] theorem modInv_net : (modInv serial f s).net = s.net := rfl
@[simp] theorem modInv_swl : (modInv serial f s).swl = s.swl := rfl
@[simp] theorem modInv_twn : (modInv serial f s).twn = s.twn := rfl
@[simp] theorem modInv_mld : (modInv serial f s).mld = s.mld := rfl
@[simp] theorem modInv_chk : (modInv serial f s).chk = s.chk := rfl
@[simp] theorem modInv_hmk : (modInv serial f s).hmk = s.hmk := rfl
@[simp] theorem modInv_pwr : (modInv serial f s).pwr = s.pwr := rfl
@[simp] theorem modInv_clk : (modInv serial f s).clk = s.clk := rfl
@[simp] theorem modInv_aon : (modInv serial f s).aon = s.aon := rfl
@[simp] theorem modInv_err : (modInv serial f s).err = s.err := rfl
@[simp] theorem modInv_elec : (modInv serial f s).elec = s.elec := rfl
@[simp] theorem modInv_pending : (modInv serial f s).pending = s.pending := rfl
end

/-! ### setGen -/

section
variable {n : Nat} {x : TableSet}
@[simp] theorem setGen_ct : (setGen n x s).ct = s.ct := rfl
@[simp] theorem setGen_free : (setGen n x s).free = s.free := rfl
@[simp] theorem setGen_out : (setGen n x s).out = s.out := rfl
@[simp] theorem setGen_grade : (setGen n x s).grade = s.grade := rfl
@[simp] theorem setGen_ctr : (setGen n x s).ctr = s.ctr := rfl
@[simp] theorem setGen_hostMem : (setGen n x s).hostMem = s.hostMem := rfl
@[simp] theorem setGen_hostFaults : (setGen n x s).hostFaults = s.hostFaults := rfl
@[simp] theorem setGen_devMem : (setGen n x s).devMem = s.devMem := rfl
@[simp] theorem setGen_bench : (setGen n x s).bench = s.bench := rfl
@[simp] theorem setGen_pln : (setGen n x s).pln = s.pln := rfl
@[simp] theorem setGen_fdy : (setGen n x s).fdy = s.fdy := rfl
@[simp] theorem setGen_frames : (setGen n x s).frames = s.frames := rfl
@[simp] theorem setGen_trees : (setGen n x s).trees = s.trees := rfl
@[simp] theorem setGen_tile : (setGen n x s).tile = s.tile := rfl
@[simp] theorem setGen_txt : (setGen n x s).txt = { s.txt with gens := tset s.txt.gens n x } := rfl
@[simp] theorem setGen_pla : (setGen n x s).pla = s.pla := rfl
@[simp] theorem setGen_gau : (setGen n x s).gau = s.gau := rfl
@[simp] theorem setGen_tly : (setGen n x s).tly = s.tly := rfl
@[simp] theorem setGen_tch : (setGen n x s).tch = s.tch := rfl
@[simp] theorem setGen_gth : (setGen n x s).gth = s.gth := rfl
@[simp] theorem setGen_net : (setGen n x s).net = s.net := rfl
@[simp] theorem setGen_swl : (setGen n x s).swl = s.swl := rfl
@[simp] theorem setGen_twn : (setGen n x s).twn = s.twn := rfl
@[simp] theorem setGen_mld : (setGen n x s).mld = s.mld := rfl
@[simp] theorem setGen_chk : (setGen n x s).chk = s.chk := rfl
@[simp] theorem setGen_hmk : (setGen n x s).hmk = s.hmk := rfl
@[simp] theorem setGen_pwr : (setGen n x s).pwr = s.pwr := rfl
@[simp] theorem setGen_clk : (setGen n x s).clk = s.clk := rfl
@[simp] theorem setGen_aon : (setGen n x s).aon = s.aon := rfl
@[simp] theorem setGen_err : (setGen n x s).err = s.err := rfl
@[simp] theorem setGen_elec : (setGen n x s).elec = s.elec := rfl
@[simp] theorem setGen_pending : (setGen n x s).pending = s.pending := rfl
end

/-! ### setIndex -/

section
variable {i : Nat} {x : Index}
@[simp] theorem setIndex_ct : (setIndex i x s).ct = s.ct := rfl
@[simp] theorem setIndex_free : (setIndex i x s).free = s.free := rfl
@[simp] theorem setIndex_out : (setIndex i x s).out = s.out := rfl
@[simp] theorem setIndex_grade : (setIndex i x s).grade = s.grade := rfl
@[simp] theorem setIndex_ctr : (setIndex i x s).ctr = s.ctr := rfl
@[simp] theorem setIndex_hostMem : (setIndex i x s).hostMem = s.hostMem := rfl
@[simp] theorem setIndex_hostFaults : (setIndex i x s).hostFaults = s.hostFaults := rfl
@[simp] theorem setIndex_devMem : (setIndex i x s).devMem = s.devMem := rfl
@[simp] theorem setIndex_bench : (setIndex i x s).bench = s.bench := rfl
@[simp] theorem setIndex_pln : (setIndex i x s).pln = s.pln := rfl
@[simp] theorem setIndex_fdy : (setIndex i x s).fdy = s.fdy := rfl
@[simp] theorem setIndex_frames : (setIndex i x s).frames = s.frames := rfl
@[simp] theorem setIndex_trees : (setIndex i x s).trees = s.trees := rfl
@[simp] theorem setIndex_tile : (setIndex i x s).tile = s.tile := rfl
@[simp] theorem setIndex_txt : (setIndex i x s).txt = s.txt := rfl
@[simp] theorem setIndex_pla : (setIndex i x s).pla = s.pla := rfl
@[simp] theorem setIndex_gau : (setIndex i x s).gau = s.gau := rfl
@[simp] theorem setIndex_tly : (setIndex i x s).tly = s.tly := rfl
@[simp] theorem setIndex_tch : (setIndex i x s).tch = { s.tch with indexes := tset s.tch.indexes i x } := rfl
@[simp] theorem setIndex_gth : (setIndex i x s).gth = s.gth := rfl
@[simp] theorem setIndex_net : (setIndex i x s).net = s.net := rfl
@[simp] theorem setIndex_swl : (setIndex i x s).swl = s.swl := rfl
@[simp] theorem setIndex_twn : (setIndex i x s).twn = s.twn := rfl
@[simp] theorem setIndex_mld : (setIndex i x s).mld = s.mld := rfl
@[simp] theorem setIndex_chk : (setIndex i x s).chk = s.chk := rfl
@[simp] theorem setIndex_hmk : (setIndex i x s).hmk = s.hmk := rfl
@[simp] theorem setIndex_pwr : (setIndex i x s).pwr = s.pwr := rfl
@[simp] theorem setIndex_clk : (setIndex i x s).clk = s.clk := rfl
@[simp] theorem setIndex_aon : (setIndex i x s).aon = s.aon := rfl
@[simp] theorem setIndex_err : (setIndex i x s).err = s.err := rfl
@[simp] theorem setIndex_elec : (setIndex i x s).elec = s.elec := rfl
@[simp] theorem setIndex_pending : (setIndex i x s).pending = s.pending := rfl
end

/-! ### setTable -/

section
variable {t : Nat} {x : GTable}
@[simp] theorem setTable_ct : (setTable t x s).ct = s.ct := rfl
@[simp] theorem setTable_free : (setTable t x s).free = s.free := rfl
@[simp] theorem setTable_out : (setTable t x s).out = s.out := rfl
@[simp] theorem setTable_grade : (setTable t x s).grade = s.grade := rfl
@[simp] theorem setTable_ctr : (setTable t x s).ctr = s.ctr := rfl
@[simp] theorem setTable_hostMem : (setTable t x s).hostMem = s.hostMem := rfl
@[simp] theorem setTable_hostFaults : (setTable t x s).hostFaults = s.hostFaults := rfl
@[simp] theorem setTable_devMem : (setTable t x s).devMem = s.devMem := rfl
@[simp] theorem setTable_bench : (setTable t x s).bench = s.bench := rfl
@[simp] theorem setTable_pln : (setTable t x s).pln = s.pln := rfl
@[simp] theorem setTable_fdy : (setTable t x s).fdy = s.fdy := rfl
@[simp] theorem setTable_frames : (setTable t x s).frames = s.frames := rfl
@[simp] theorem setTable_trees : (setTable t x s).trees = s.trees := rfl
@[simp] theorem setTable_tile : (setTable t x s).tile = s.tile := rfl
@[simp] theorem setTable_txt : (setTable t x s).txt = s.txt := rfl
@[simp] theorem setTable_pla : (setTable t x s).pla = s.pla := rfl
@[simp] theorem setTable_gau : (setTable t x s).gau = s.gau := rfl
@[simp] theorem setTable_tly : (setTable t x s).tly = s.tly := rfl
@[simp] theorem setTable_tch : (setTable t x s).tch = s.tch := rfl
@[simp] theorem setTable_gth : (setTable t x s).gth = { s.gth with tables := tset s.gth.tables t x } := rfl
@[simp] theorem setTable_net : (setTable t x s).net = s.net := rfl
@[simp] theorem setTable_swl : (setTable t x s).swl = s.swl := rfl
@[simp] theorem setTable_twn : (setTable t x s).twn = s.twn := rfl
@[simp] theorem setTable_mld : (setTable t x s).mld = s.mld := rfl
@[simp] theorem setTable_chk : (setTable t x s).chk = s.chk := rfl
@[simp] theorem setTable_hmk : (setTable t x s).hmk = s.hmk := rfl
@[simp] theorem setTable_pwr : (setTable t x s).pwr = s.pwr := rfl
@[simp] theorem setTable_clk : (setTable t x s).clk = s.clk := rfl
@[simp] theorem setTable_aon : (setTable t x s).aon = s.aon := rfl
@[simp] theorem setTable_err : (setTable t x s).err = s.err := rfl
@[simp] theorem setTable_elec : (setTable t x s).elec = s.elec := rfl
@[simp] theorem setTable_pending : (setTable t x s).pending = s.pending := rfl
end

/-! ### delTable -/

section
variable {t : Nat}
@[simp] theorem delTable_ct : (delTable t s).ct = s.ct := rfl
@[simp] theorem delTable_free : (delTable t s).free = s.free := rfl
@[simp] theorem delTable_out : (delTable t s).out = s.out := rfl
@[simp] theorem delTable_grade : (delTable t s).grade = s.grade := rfl
@[simp] theorem delTable_ctr : (delTable t s).ctr = s.ctr := rfl
@[simp] theorem delTable_hostMem : (delTable t s).hostMem = s.hostMem := rfl
@[simp] theorem delTable_hostFaults : (delTable t s).hostFaults = s.hostFaults := rfl
@[simp] theorem delTable_devMem : (delTable t s).devMem = s.devMem := rfl
@[simp] theorem delTable_bench : (delTable t s).bench = s.bench := rfl
@[simp] theorem delTable_pln : (delTable t s).pln = s.pln := rfl
@[simp] theorem delTable_fdy : (delTable t s).fdy = s.fdy := rfl
@[simp] theorem delTable_frames : (delTable t s).frames = s.frames := rfl
@[simp] theorem delTable_trees : (delTable t s).trees = s.trees := rfl
@[simp] theorem delTable_tile : (delTable t s).tile = s.tile := rfl
@[simp] theorem delTable_txt : (delTable t s).txt = s.txt := rfl
@[simp] theorem delTable_pla : (delTable t s).pla = s.pla := rfl
@[simp] theorem delTable_gau : (delTable t s).gau = s.gau := rfl
@[simp] theorem delTable_tly : (delTable t s).tly = s.tly := rfl
@[simp] theorem delTable_tch : (delTable t s).tch = s.tch := rfl
@[simp] theorem delTable_gth : (delTable t s).gth = { s.gth with tables := tdel s.gth.tables t } := rfl
@[simp] theorem delTable_net : (delTable t s).net = s.net := rfl
@[simp] theorem delTable_swl : (delTable t s).swl = s.swl := rfl
@[simp] theorem delTable_twn : (delTable t s).twn = s.twn := rfl
@[simp] theorem delTable_mld : (delTable t s).mld = s.mld := rfl
@[simp] theorem delTable_chk : (delTable t s).chk = s.chk := rfl
@[simp] theorem delTable_hmk : (delTable t s).hmk = s.hmk := rfl
@[simp] theorem delTable_pwr : (delTable t s).pwr = s.pwr := rfl
@[simp] theorem delTable_clk : (delTable t s).clk = s.clk := rfl
@[simp] theorem delTable_aon : (delTable t s).aon = s.aon := rfl
@[simp] theorem delTable_err : (delTable t s).err = s.err := rfl
@[simp] theorem delTable_elec : (delTable t s).elec = s.elec := rfl
@[simp] theorem delTable_pending : (delTable t s).pending = s.pending := rfl
end

/-! ### setPort -/

section
variable {p : Nat} {x : Port}
@[simp] theorem setPort_ct : (setPort p x s).ct = s.ct := rfl
@[simp] theorem setPort_free : (setPort p x s).free = s.free := rfl
@[simp] theorem setPort_out : (setPort p x s).out = s.out := rfl
@[simp] theorem setPort_grade : (setPort p x s).grade = s.grade := rfl
@[simp] theorem setPort_ctr : (setPort p x s).ctr = s.ctr := rfl
@[simp] theorem setPort_hostMem : (setPort p x s).hostMem = s.hostMem := rfl
@[simp] theorem setPort_hostFaults : (setPort p x s).hostFaults = s.hostFaults := rfl
@[simp] theorem setPort_devMem : (setPort p x s).devMem = s.devMem := rfl
@[simp] theorem setPort_bench : (setPort p x s).bench = s.bench := rfl
@[simp] theorem setPort_pln : (setPort p x s).pln = s.pln := rfl
@[simp] theorem setPort_fdy : (setPort p x s).fdy = s.fdy := rfl
@[simp] theorem setPort_frames : (setPort p x s).frames = s.frames := rfl
@[simp] theorem setPort_trees : (setPort p x s).trees = s.trees := rfl
@[simp] theorem setPort_tile : (setPort p x s).tile = s.tile := rfl
@[simp] theorem setPort_txt : (setPort p x s).txt = s.txt := rfl
@[simp] theorem setPort_pla : (setPort p x s).pla = s.pla := rfl
@[simp] theorem setPort_gau : (setPort p x s).gau = s.gau := rfl
@[simp] theorem setPort_tly : (setPort p x s).tly = s.tly := rfl
@[simp] theorem setPort_tch : (setPort p x s).tch = s.tch := rfl
@[simp] theorem setPort_gth : (setPort p x s).gth = s.gth := rfl
@[simp] theorem setPort_net : (setPort p x s).net = { s.net with ports := tset s.net.ports p x } := rfl
@[simp] theorem setPort_swl : (setPort p x s).swl = s.swl := rfl
@[simp] theorem setPort_twn : (setPort p x s).twn = s.twn := rfl
@[simp] theorem setPort_mld : (setPort p x s).mld = s.mld := rfl
@[simp] theorem setPort_chk : (setPort p x s).chk = s.chk := rfl
@[simp] theorem setPort_hmk : (setPort p x s).hmk = s.hmk := rfl
@[simp] theorem setPort_pwr : (setPort p x s).pwr = s.pwr := rfl
@[simp] theorem setPort_clk : (setPort p x s).clk = s.clk := rfl
@[simp] theorem setPort_aon : (setPort p x s).aon = s.aon := rfl
@[simp] theorem setPort_err : (setPort p x s).err = s.err := rfl
@[simp] theorem setPort_elec : (setPort p x s).elec = s.elec := rfl
@[simp] theorem setPort_pending : (setPort p x s).pending = s.pending := rfl
end

/-! ### setQp -/

section
variable {i : Nat} {q : Qp}
@[simp] theorem setQp_ct : (setQp i q s).ct = s.ct := rfl
@[simp] theorem setQp_free : (setQp i q s).free = s.free := rfl
@[simp] theorem setQp_out : (setQp i q s).out = s.out := rfl
@[simp] theorem setQp_grade : (setQp i q s).grade = s.grade := rfl
@[simp] theorem setQp_ctr : (setQp i q s).ctr = s.ctr := rfl
@[simp] theorem setQp_hostMem : (setQp i q s).hostMem = s.hostMem := rfl
@[simp] theorem setQp_hostFaults : (setQp i q s).hostFaults = s.hostFaults := rfl
@[simp] theorem setQp_devMem : (setQp i q s).devMem = s.devMem := rfl
@[simp] theorem setQp_bench : (setQp i q s).bench = s.bench := rfl
@[simp] theorem setQp_pln : (setQp i q s).pln = s.pln := rfl
@[simp] theorem setQp_fdy : (setQp i q s).fdy = s.fdy := rfl
@[simp] theorem setQp_frames : (setQp i q s).frames = s.frames := rfl
@[simp] theorem setQp_trees : (setQp i q s).trees = s.trees := rfl
@[simp] theorem setQp_tile : (setQp i q s).tile = s.tile := rfl
@[simp] theorem setQp_txt : (setQp i q s).txt = s.txt := rfl
@[simp] theorem setQp_pla : (setQp i q s).pla = s.pla := rfl
@[simp] theorem setQp_gau : (setQp i q s).gau = s.gau := rfl
@[simp] theorem setQp_tly : (setQp i q s).tly = s.tly := rfl
@[simp] theorem setQp_tch : (setQp i q s).tch = s.tch := rfl
@[simp] theorem setQp_gth : (setQp i q s).gth = s.gth := rfl
@[simp] theorem setQp_net : (setQp i q s).net = { s.net with qps := tset s.net.qps i q } := rfl
@[simp] theorem setQp_swl : (setQp i q s).swl = s.swl := rfl
@[simp] theorem setQp_twn : (setQp i q s).twn = s.twn := rfl
@[simp] theorem setQp_mld : (setQp i q s).mld = s.mld := rfl
@[simp] theorem setQp_chk : (setQp i q s).chk = s.chk := rfl
@[simp] theorem setQp_hmk : (setQp i q s).hmk = s.hmk := rfl
@[simp] theorem setQp_pwr : (setQp i q s).pwr = s.pwr := rfl
@[simp] theorem setQp_clk : (setQp i q s).clk = s.clk := rfl
@[simp] theorem setQp_aon : (setQp i q s).aon = s.aon := rfl
@[simp] theorem setQp_err : (setQp i q s).err = s.err := rfl
@[simp] theorem setQp_elec : (setQp i q s).elec = s.elec := rfl
@[simp] theorem setQp_pending : (setQp i q s).pending = s.pending := rfl
end

/-! ### modChain -/

section
variable {i : Nat} {f : Chain → Chain}
@[simp] theorem modChain_ct : (modChain i f s).ct = s.ct := rfl
@[simp] theorem modChain_free : (modChain i f s).free = s.free := rfl
@[simp] theorem modChain_out : (modChain i f s).out = s.out := rfl
@[simp] theorem modChain_grade : (modChain i f s).grade = s.grade := rfl
@[simp] theorem modChain_ctr : (modChain i f s).ctr = s.ctr := rfl
@[simp] theorem modChain_hostMem : (modChain i f s).hostMem = s.hostMem := rfl
@[simp] theorem modChain_hostFaults : (modChain i f s).hostFaults = s.hostFaults := rfl
@[simp] theorem modChain_devMem : (modChain i f s).devMem = s.devMem := rfl
@[simp] theorem modChain_bench : (modChain i f s).bench = s.bench := rfl
@[simp] theorem modChain_pln : (modChain i f s).pln = s.pln := rfl
@[simp] theorem modChain_fdy : (modChain i f s).fdy = s.fdy := rfl
@[simp] theorem modChain_frames : (modChain i f s).frames = s.frames := rfl
@[simp] theorem modChain_trees : (modChain i f s).trees = s.trees := rfl
@[simp] theorem modChain_tile : (modChain i f s).tile = s.tile := rfl
@[simp] theorem modChain_txt : (modChain i f s).txt = s.txt := rfl
@[simp] theorem modChain_pla : (modChain i f s).pla = s.pla := rfl
@[simp] theorem modChain_gau : (modChain i f s).gau = s.gau := rfl
@[simp] theorem modChain_tly : (modChain i f s).tly = s.tly := rfl
@[simp] theorem modChain_tch : (modChain i f s).tch = s.tch := rfl
@[simp] theorem modChain_gth : (modChain i f s).gth = s.gth := rfl
@[simp] theorem modChain_net : (modChain i f s).net = { s.net with chains := tmod s.net.chains i f } := rfl
@[simp] theorem modChain_swl : (modChain i f s).swl = s.swl := rfl
@[simp] theorem modChain_twn : (modChain i f s).twn = s.twn := rfl
@[simp] theorem modChain_mld : (modChain i f s).mld = s.mld := rfl
@[simp] theorem modChain_chk : (modChain i f s).chk = s.chk := rfl
@[simp] theorem modChain_hmk : (modChain i f s).hmk = s.hmk := rfl
@[simp] theorem modChain_pwr : (modChain i f s).pwr = s.pwr := rfl
@[simp] theorem modChain_clk : (modChain i f s).clk = s.clk := rfl
@[simp] theorem modChain_aon : (modChain i f s).aon = s.aon := rfl
@[simp] theorem modChain_err : (modChain i f s).err = s.err := rfl
@[simp] theorem modChain_elec : (modChain i f s).elec = s.elec := rfl
@[simp] theorem modChain_pending : (modChain i f s).pending = s.pending := rfl
end

/-! ### setMapOp -/

section
variable {n : Nat} {x : MapOp}
@[simp] theorem setMapOp_ct : (setMapOp n x s).ct = s.ct := rfl
@[simp] theorem setMapOp_free : (setMapOp n x s).free = s.free := rfl
@[simp] theorem setMapOp_out : (setMapOp n x s).out = s.out := rfl
@[simp] theorem setMapOp_grade : (setMapOp n x s).grade = s.grade := rfl
@[simp] theorem setMapOp_ctr : (setMapOp n x s).ctr = s.ctr := rfl
@[simp] theorem setMapOp_hostMem : (setMapOp n x s).hostMem = s.hostMem := rfl
@[simp] theorem setMapOp_hostFaults : (setMapOp n x s).hostFaults = s.hostFaults := rfl
@[simp] theorem setMapOp_devMem : (setMapOp n x s).devMem = s.devMem := rfl
@[simp] theorem setMapOp_bench : (setMapOp n x s).bench = s.bench := rfl
@[simp] theorem setMapOp_pln : (setMapOp n x s).pln = s.pln := rfl
@[simp] theorem setMapOp_fdy : (setMapOp n x s).fdy = s.fdy := rfl
@[simp] theorem setMapOp_frames : (setMapOp n x s).frames = s.frames := rfl
@[simp] theorem setMapOp_trees : (setMapOp n x s).trees = s.trees := rfl
@[simp] theorem setMapOp_tile : (setMapOp n x s).tile = s.tile := rfl
@[simp] theorem setMapOp_txt : (setMapOp n x s).txt = s.txt := rfl
@[simp] theorem setMapOp_pla : (setMapOp n x s).pla = s.pla := rfl
@[simp] theorem setMapOp_gau : (setMapOp n x s).gau = s.gau := rfl
@[simp] theorem setMapOp_tly : (setMapOp n x s).tly = s.tly := rfl
@[simp] theorem setMapOp_tch : (setMapOp n x s).tch = s.tch := rfl
@[simp] theorem setMapOp_gth : (setMapOp n x s).gth = s.gth := rfl
@[simp] theorem setMapOp_net : (setMapOp n x s).net = { s.net with mapOps := tset s.net.mapOps n x } := rfl
@[simp] theorem setMapOp_swl : (setMapOp n x s).swl = s.swl := rfl
@[simp] theorem setMapOp_twn : (setMapOp n x s).twn = s.twn := rfl
@[simp] theorem setMapOp_mld : (setMapOp n x s).mld = s.mld := rfl
@[simp] theorem setMapOp_chk : (setMapOp n x s).chk = s.chk := rfl
@[simp] theorem setMapOp_hmk : (setMapOp n x s).hmk = s.hmk := rfl
@[simp] theorem setMapOp_pwr : (setMapOp n x s).pwr = s.pwr := rfl
@[simp] theorem setMapOp_clk : (setMapOp n x s).clk = s.clk := rfl
@[simp] theorem setMapOp_aon : (setMapOp n x s).aon = s.aon := rfl
@[simp] theorem setMapOp_err : (setMapOp n x s).err = s.err := rfl
@[simp] theorem setMapOp_elec : (setMapOp n x s).elec = s.elec := rfl
@[simp] theorem setMapOp_pending : (setMapOp n x s).pending = s.pending := rfl
end

/-! ### delMapOp -/

section
variable {n : Nat}
@[simp] theorem delMapOp_ct : (delMapOp n s).ct = s.ct := rfl
@[simp] theorem delMapOp_free : (delMapOp n s).free = s.free := rfl
@[simp] theorem delMapOp_out : (delMapOp n s).out = s.out := rfl
@[simp] theorem delMapOp_grade : (delMapOp n s).grade = s.grade := rfl
@[simp] theorem delMapOp_ctr : (delMapOp n s).ctr = s.ctr := rfl
@[simp] theorem delMapOp_hostMem : (delMapOp n s).hostMem = s.hostMem := rfl
@[simp] theorem delMapOp_hostFaults : (delMapOp n s).hostFaults = s.hostFaults := rfl
@[simp] theorem delMapOp_devMem : (delMapOp n s).devMem = s.devMem := rfl
@[simp] theorem delMapOp_bench : (delMapOp n s).bench = s.bench := rfl
@[simp] theorem delMapOp_pln : (delMapOp n s).pln = s.pln := rfl
@[simp] theorem delMapOp_fdy : (delMapOp n s).fdy = s.fdy := rfl
@[simp] theorem delMapOp_frames : (delMapOp n s).frames = s.frames := rfl
@[simp] theorem delMapOp_trees : (delMapOp n s).trees = s.trees := rfl
@[simp] theorem delMapOp_tile : (delMapOp n s).tile = s.tile := rfl
@[simp] theorem delMapOp_txt : (delMapOp n s).txt = s.txt := rfl
@[simp] theorem delMapOp_pla : (delMapOp n s).pla = s.pla := rfl
@[simp] theorem delMapOp_gau : (delMapOp n s).gau = s.gau := rfl
@[simp] theorem delMapOp_tly : (delMapOp n s).tly = s.tly := rfl
@[simp] theorem delMapOp_tch : (delMapOp n s).tch = s.tch := rfl
@[simp] theorem delMapOp_gth : (delMapOp n s).gth = s.gth := rfl
@[simp] theorem delMapOp_net : (delMapOp n s).net = { s.net with mapOps := tdel s.net.mapOps n } := rfl
@[simp] theorem delMapOp_swl : (delMapOp n s).swl = s.swl := rfl
@[simp] theorem delMapOp_twn : (delMapOp n s).twn = s.twn := rfl
@[simp] theorem delMapOp_mld : (delMapOp n s).mld = s.mld := rfl
@[simp] theorem delMapOp_chk : (delMapOp n s).chk = s.chk := rfl
@[simp] theorem delMapOp_hmk : (delMapOp n s).hmk = s.hmk := rfl
@[simp] theorem delMapOp_pwr : (delMapOp n s).pwr = s.pwr := rfl
@[simp] theorem delMapOp_clk : (delMapOp n s).clk = s.clk := rfl
@[simp] theorem delMapOp_aon : (delMapOp n s).aon = s.aon := rfl
@[simp] theorem delMapOp_err : (delMapOp n s).err = s.err := rfl
@[simp] theorem delMapOp_elec : (delMapOp n s).elec = s.elec := rfl
@[simp] theorem delMapOp_pending : (delMapOp n s).pending = s.pending := rfl
end

/-! ### setEpoch -/

section
variable {p : Nat} {e : Nat}
@[simp] theorem setEpoch_ct : (setEpoch p e s).ct = s.ct := rfl
@[simp] theorem setEpoch_free : (setEpoch p e s).free = s.free := rfl
@[simp] theorem setEpoch_out : (setEpoch p e s).out = s.out := rfl
@[simp] theorem setEpoch_grade : (setEpoch p e s).grade = s.grade := rfl
@[simp] theorem setEpoch_ctr : (setEpoch p e s).ctr = s.ctr := rfl
@[simp] theorem setEpoch_hostMem : (setEpoch p e s).hostMem = s.hostMem := rfl
@[simp] theorem setEpoch_hostFaults : (setEpoch p e s).hostFaults = s.hostFaults := rfl
@[simp] theorem setEpoch_devMem : (setEpoch p e s).devMem = s.devMem := rfl
@[simp] theorem setEpoch_bench : (setEpoch p e s).bench = s.bench := rfl
@[simp] theorem setEpoch_pln : (setEpoch p e s).pln = s.pln := rfl
@[simp] theorem setEpoch_fdy : (setEpoch p e s).fdy = s.fdy := rfl
@[simp] theorem setEpoch_frames : (setEpoch p e s).frames = s.frames := rfl
@[simp] theorem setEpoch_trees : (setEpoch p e s).trees = s.trees := rfl
@[simp] theorem setEpoch_tile : (setEpoch p e s).tile = s.tile := rfl
@[simp] theorem setEpoch_txt : (setEpoch p e s).txt = s.txt := rfl
@[simp] theorem setEpoch_pla : (setEpoch p e s).pla = s.pla := rfl
@[simp] theorem setEpoch_gau : (setEpoch p e s).gau = s.gau := rfl
@[simp] theorem setEpoch_tly : (setEpoch p e s).tly = s.tly := rfl
@[simp] theorem setEpoch_tch : (setEpoch p e s).tch = s.tch := rfl
@[simp] theorem setEpoch_gth : (setEpoch p e s).gth = s.gth := rfl
@[simp] theorem setEpoch_net : (setEpoch p e s).net = { s.net with epochs := tset s.net.epochs p e } := rfl
@[simp] theorem setEpoch_swl : (setEpoch p e s).swl = s.swl := rfl
@[simp] theorem setEpoch_twn : (setEpoch p e s).twn = s.twn := rfl
@[simp] theorem setEpoch_mld : (setEpoch p e s).mld = s.mld := rfl
@[simp] theorem setEpoch_chk : (setEpoch p e s).chk = s.chk := rfl
@[simp] theorem setEpoch_hmk : (setEpoch p e s).hmk = s.hmk := rfl
@[simp] theorem setEpoch_pwr : (setEpoch p e s).pwr = s.pwr := rfl
@[simp] theorem setEpoch_clk : (setEpoch p e s).clk = s.clk := rfl
@[simp] theorem setEpoch_aon : (setEpoch p e s).aon = s.aon := rfl
@[simp] theorem setEpoch_err : (setEpoch p e s).err = s.err := rfl
@[simp] theorem setEpoch_elec : (setEpoch p e s).elec = s.elec := rfl
@[simp] theorem setEpoch_pending : (setEpoch p e s).pending = s.pending := rfl
end

/-! ### setLink -/

section
variable {n : Nat} {l : Link}
@[simp] theorem setLink_ct : (setLink n l s).ct = s.ct := rfl
@[simp] theorem setLink_free : (setLink n l s).free = s.free := rfl
@[simp] theorem setLink_out : (setLink n l s).out = s.out := rfl
@[simp] theorem setLink_grade : (setLink n l s).grade = s.grade := rfl
@[simp] theorem setLink_ctr : (setLink n l s).ctr = s.ctr := rfl
@[simp] theorem setLink_hostMem : (setLink n l s).hostMem = s.hostMem := rfl
@[simp] theorem setLink_hostFaults : (setLink n l s).hostFaults = s.hostFaults := rfl
@[simp] theorem setLink_devMem : (setLink n l s).devMem = s.devMem := rfl
@[simp] theorem setLink_bench : (setLink n l s).bench = s.bench := rfl
@[simp] theorem setLink_pln : (setLink n l s).pln = s.pln := rfl
@[simp] theorem setLink_fdy : (setLink n l s).fdy = s.fdy := rfl
@[simp] theorem setLink_frames : (setLink n l s).frames = s.frames := rfl
@[simp] theorem setLink_trees : (setLink n l s).trees = s.trees := rfl
@[simp] theorem setLink_tile : (setLink n l s).tile = s.tile := rfl
@[simp] theorem setLink_txt : (setLink n l s).txt = s.txt := rfl
@[simp] theorem setLink_pla : (setLink n l s).pla = s.pla := rfl
@[simp] theorem setLink_gau : (setLink n l s).gau = s.gau := rfl
@[simp] theorem setLink_tly : (setLink n l s).tly = s.tly := rfl
@[simp] theorem setLink_tch : (setLink n l s).tch = s.tch := rfl
@[simp] theorem setLink_gth : (setLink n l s).gth = s.gth := rfl
@[simp] theorem setLink_net : (setLink n l s).net = s.net := rfl
@[simp] theorem setLink_swl : (setLink n l s).swl = { s.swl with links := tset s.swl.links n l } := rfl
@[simp] theorem setLink_twn : (setLink n l s).twn = s.twn := rfl
@[simp] theorem setLink_mld : (setLink n l s).mld = s.mld := rfl
@[simp] theorem setLink_chk : (setLink n l s).chk = s.chk := rfl
@[simp] theorem setLink_hmk : (setLink n l s).hmk = s.hmk := rfl
@[simp] theorem setLink_pwr : (setLink n l s).pwr = s.pwr := rfl
@[simp] theorem setLink_clk : (setLink n l s).clk = s.clk := rfl
@[simp] theorem setLink_aon : (setLink n l s).aon = s.aon := rfl
@[simp] theorem setLink_err : (setLink n l s).err = s.err := rfl
@[simp] theorem setLink_elec : (setLink n l s).elec = s.elec := rfl
@[simp] theorem setLink_pending : (setLink n l s).pending = s.pending := rfl
end

/-! ### modPair -/

section
variable {p : Nat} {f : Pair → Pair}
@[simp] theorem modPair_ct : (modPair p f s).ct = s.ct := rfl
@[simp] theorem modPair_free : (modPair p f s).free = s.free := rfl
@[simp] theorem modPair_out : (modPair p f s).out = s.out := rfl
@[simp] theorem modPair_grade : (modPair p f s).grade = s.grade := rfl
@[simp] theorem modPair_ctr : (modPair p f s).ctr = s.ctr := rfl
@[simp] theorem modPair_hostMem : (modPair p f s).hostMem = s.hostMem := rfl
@[simp] theorem modPair_hostFaults : (modPair p f s).hostFaults = s.hostFaults := rfl
@[simp] theorem modPair_devMem : (modPair p f s).devMem = s.devMem := rfl
@[simp] theorem modPair_bench : (modPair p f s).bench = s.bench := rfl
@[simp] theorem modPair_pln : (modPair p f s).pln = s.pln := rfl
@[simp] theorem modPair_fdy : (modPair p f s).fdy = s.fdy := rfl
@[simp] theorem modPair_frames : (modPair p f s).frames = s.frames := rfl
@[simp] theorem modPair_trees : (modPair p f s).trees = s.trees := rfl
@[simp] theorem modPair_tile : (modPair p f s).tile = s.tile := rfl
@[simp] theorem modPair_txt : (modPair p f s).txt = s.txt := rfl
@[simp] theorem modPair_pla : (modPair p f s).pla = s.pla := rfl
@[simp] theorem modPair_gau : (modPair p f s).gau = s.gau := rfl
@[simp] theorem modPair_tly : (modPair p f s).tly = s.tly := rfl
@[simp] theorem modPair_tch : (modPair p f s).tch = s.tch := rfl
@[simp] theorem modPair_gth : (modPair p f s).gth = s.gth := rfl
@[simp] theorem modPair_net : (modPair p f s).net = s.net := rfl
@[simp] theorem modPair_swl : (modPair p f s).swl = s.swl := rfl
@[simp] theorem modPair_twn : (modPair p f s).twn = { s.twn with pairs := tmod s.twn.pairs p f } := rfl
@[simp] theorem modPair_mld : (modPair p f s).mld = s.mld := rfl
@[simp] theorem modPair_chk : (modPair p f s).chk = s.chk := rfl
@[simp] theorem modPair_hmk : (modPair p f s).hmk = s.hmk := rfl
@[simp] theorem modPair_pwr : (modPair p f s).pwr = s.pwr := rfl
@[simp] theorem modPair_clk : (modPair p f s).clk = s.clk := rfl
@[simp] theorem modPair_aon : (modPair p f s).aon = s.aon := rfl
@[simp] theorem modPair_err : (modPair p f s).err = s.err := rfl
@[simp] theorem modPair_elec : (modPair p f s).elec = s.elec := rfl
@[simp] theorem modPair_pending : (modPair p f s).pending = s.pending := rfl
end

/-! ### setUnit -/

section
variable {u : Nat} {x : CheckUnit}
@[simp] theorem setUnit_ct : (setUnit u x s).ct = s.ct := rfl
@[simp] theorem setUnit_free : (setUnit u x s).free = s.free := rfl
@[simp] theorem setUnit_out : (setUnit u x s).out = s.out := rfl
@[simp] theorem setUnit_grade : (setUnit u x s).grade = s.grade := rfl
@[simp] theorem setUnit_ctr : (setUnit u x s).ctr = s.ctr := rfl
@[simp] theorem setUnit_hostMem : (setUnit u x s).hostMem = s.hostMem := rfl
@[simp] theorem setUnit_hostFaults : (setUnit u x s).hostFaults = s.hostFaults := rfl
@[simp] theorem setUnit_devMem : (setUnit u x s).devMem = s.devMem := rfl
@[simp] theorem setUnit_bench : (setUnit u x s).bench = s.bench := rfl
@[simp] theorem setUnit_pln : (setUnit u x s).pln = s.pln := rfl
@[simp] theorem setUnit_fdy : (setUnit u x s).fdy = s.fdy := rfl
@[simp] theorem setUnit_frames : (setUnit u x s).frames = s.frames := rfl
@[simp] theorem setUnit_trees : (setUnit u x s).trees = s.trees := rfl
@[simp] theorem setUnit_tile : (setUnit u x s).tile = s.tile := rfl
@[simp] theorem setUnit_txt : (setUnit u x s).txt = s.txt := rfl
@[simp] theorem setUnit_pla : (setUnit u x s).pla = s.pla := rfl
@[simp] theorem setUnit_gau : (setUnit u x s).gau = s.gau := rfl
@[simp] theorem setUnit_tly : (setUnit u x s).tly = s.tly := rfl
@[simp] theorem setUnit_tch : (setUnit u x s).tch = s.tch := rfl
@[simp] theorem setUnit_gth : (setUnit u x s).gth = s.gth := rfl
@[simp] theorem setUnit_net : (setUnit u x s).net = s.net := rfl
@[simp] theorem setUnit_swl : (setUnit u x s).swl = s.swl := rfl
@[simp] theorem setUnit_twn : (setUnit u x s).twn = s.twn := rfl
@[simp] theorem setUnit_mld : (setUnit u x s).mld = s.mld := rfl
@[simp] theorem setUnit_chk : (setUnit u x s).chk = tset s.chk u x := rfl
@[simp] theorem setUnit_hmk : (setUnit u x s).hmk = s.hmk := rfl
@[simp] theorem setUnit_pwr : (setUnit u x s).pwr = s.pwr := rfl
@[simp] theorem setUnit_clk : (setUnit u x s).clk = s.clk := rfl
@[simp] theorem setUnit_aon : (setUnit u x s).aon = s.aon := rfl
@[simp] theorem setUnit_err : (setUnit u x s).err = s.err := rfl
@[simp] theorem setUnit_elec : (setUnit u x s).elec = s.elec := rfl
@[simp] theorem setUnit_pending : (setUnit u x s).pending = s.pending := rfl
end

/-! ### setGroupCk -/

section
variable {g : Nat} {x : CkGroup}
@[simp] theorem setGroupCk_ct : (setGroupCk g x s).ct = s.ct := rfl
@[simp] theorem setGroupCk_free : (setGroupCk g x s).free = s.free := rfl
@[simp] theorem setGroupCk_out : (setGroupCk g x s).out = s.out := rfl
@[simp] theorem setGroupCk_grade : (setGroupCk g x s).grade = s.grade := rfl
@[simp] theorem setGroupCk_ctr : (setGroupCk g x s).ctr = s.ctr := rfl
@[simp] theorem setGroupCk_hostMem : (setGroupCk g x s).hostMem = s.hostMem := rfl
@[simp] theorem setGroupCk_hostFaults : (setGroupCk g x s).hostFaults = s.hostFaults := rfl
@[simp] theorem setGroupCk_devMem : (setGroupCk g x s).devMem = s.devMem := rfl
@[simp] theorem setGroupCk_bench : (setGroupCk g x s).bench = s.bench := rfl
@[simp] theorem setGroupCk_pln : (setGroupCk g x s).pln = s.pln := rfl
@[simp] theorem setGroupCk_fdy : (setGroupCk g x s).fdy = s.fdy := rfl
@[simp] theorem setGroupCk_frames : (setGroupCk g x s).frames = s.frames := rfl
@[simp] theorem setGroupCk_trees : (setGroupCk g x s).trees = s.trees := rfl
@[simp] theorem setGroupCk_tile : (setGroupCk g x s).tile = s.tile := rfl
@[simp] theorem setGroupCk_txt : (setGroupCk g x s).txt = s.txt := rfl
@[simp] theorem setGroupCk_pla : (setGroupCk g x s).pla = s.pla := rfl
@[simp] theorem setGroupCk_gau : (setGroupCk g x s).gau = s.gau := rfl
@[simp] theorem setGroupCk_tly : (setGroupCk g x s).tly = s.tly := rfl
@[simp] theorem setGroupCk_tch : (setGroupCk g x s).tch = s.tch := rfl
@[simp] theorem setGroupCk_gth : (setGroupCk g x s).gth = s.gth := rfl
@[simp] theorem setGroupCk_net : (setGroupCk g x s).net = s.net := rfl
@[simp] theorem setGroupCk_swl : (setGroupCk g x s).swl = s.swl := rfl
@[simp] theorem setGroupCk_twn : (setGroupCk g x s).twn = s.twn := rfl
@[simp] theorem setGroupCk_mld : (setGroupCk g x s).mld = { s.mld with groups := tset s.mld.groups g x } := rfl
@[simp] theorem setGroupCk_chk : (setGroupCk g x s).chk = s.chk := rfl
@[simp] theorem setGroupCk_hmk : (setGroupCk g x s).hmk = s.hmk := rfl
@[simp] theorem setGroupCk_pwr : (setGroupCk g x s).pwr = s.pwr := rfl
@[simp] theorem setGroupCk_clk : (setGroupCk g x s).clk = s.clk := rfl
@[simp] theorem setGroupCk_aon : (setGroupCk g x s).aon = s.aon := rfl
@[simp] theorem setGroupCk_err : (setGroupCk g x s).err = s.err := rfl
@[simp] theorem setGroupCk_elec : (setGroupCk g x s).elec = s.elec := rfl
@[simp] theorem setGroupCk_pending : (setGroupCk g x s).pending = s.pending := rfl
end

/-! ### modCk -/

section
variable {g : Nat} {f : CkGroup → CkGroup}
@[simp] theorem modCk_ct : (modCk g f s).ct = s.ct := rfl
@[simp] theorem modCk_free : (modCk g f s).free = s.free := rfl
@[simp] theorem modCk_out : (modCk g f s).out = s.out := rfl
@[simp] theorem modCk_grade : (modCk g f s).grade = s.grade := rfl
@[simp] theorem modCk_ctr : (modCk g f s).ctr = s.ctr := rfl
@[simp] theorem modCk_hostMem : (modCk g f s).hostMem = s.hostMem := rfl
@[simp] theorem modCk_hostFaults : (modCk g f s).hostFaults = s.hostFaults := rfl
@[simp] theorem modCk_devMem : (modCk g f s).devMem = s.devMem := rfl
@[simp] theorem modCk_bench : (modCk g f s).bench = s.bench := rfl
@[simp] theorem modCk_pln : (modCk g f s).pln = s.pln := rfl
@[simp] theorem modCk_fdy : (modCk g f s).fdy = s.fdy := rfl
@[simp] theorem modCk_frames : (modCk g f s).frames = s.frames := rfl
@[simp] theorem modCk_trees : (modCk g f s).trees = s.trees := rfl
@[simp] theorem modCk_tile : (modCk g f s).tile = s.tile := rfl
@[simp] theorem modCk_txt : (modCk g f s).txt = s.txt := rfl
@[simp] theorem modCk_pla : (modCk g f s).pla = s.pla := rfl
@[simp] theorem modCk_gau : (modCk g f s).gau = s.gau := rfl
@[simp] theorem modCk_tly : (modCk g f s).tly = s.tly := rfl
@[simp] theorem modCk_tch : (modCk g f s).tch = s.tch := rfl
@[simp] theorem modCk_gth : (modCk g f s).gth = s.gth := rfl
@[simp] theorem modCk_net : (modCk g f s).net = s.net := rfl
@[simp] theorem modCk_swl : (modCk g f s).swl = s.swl := rfl
@[simp] theorem modCk_twn : (modCk g f s).twn = s.twn := rfl
@[simp] theorem modCk_mld : (modCk g f s).mld = { s.mld with groups := tmod s.mld.groups g f } := rfl
@[simp] theorem modCk_chk : (modCk g f s).chk = s.chk := rfl
@[simp] theorem modCk_hmk : (modCk g f s).hmk = s.hmk := rfl
@[simp] theorem modCk_pwr : (modCk g f s).pwr = s.pwr := rfl
@[simp] theorem modCk_clk : (modCk g f s).clk = s.clk := rfl
@[simp] theorem modCk_aon : (modCk g f s).aon = s.aon := rfl
@[simp] theorem modCk_err : (modCk g f s).err = s.err := rfl
@[simp] theorem modCk_elec : (modCk g f s).elec = s.elec := rfl
@[simp] theorem modCk_pending : (modCk g f s).pending = s.pending := rfl
end

/-! ### setClass -/

section
variable {c : Nat} {x : ContractClass}
@[simp] theorem setClass_ct : (setClass c x s).ct = s.ct := rfl
@[simp] theorem setClass_free : (setClass c x s).free = s.free := rfl
@[simp] theorem setClass_out : (setClass c x s).out = s.out := rfl
@[simp] theorem setClass_grade : (setClass c x s).grade = s.grade := rfl
@[simp] theorem setClass_ctr : (setClass c x s).ctr = s.ctr := rfl
@[simp] theorem setClass_hostMem : (setClass c x s).hostMem = s.hostMem := rfl
@[simp] theorem setClass_hostFaults : (setClass c x s).hostFaults = s.hostFaults := rfl
@[simp] theorem setClass_devMem : (setClass c x s).devMem = s.devMem := rfl
@[simp] theorem setClass_bench : (setClass c x s).bench = s.bench := rfl
@[simp] theorem setClass_pln : (setClass c x s).pln = s.pln := rfl
@[simp] theorem setClass_fdy : (setClass c x s).fdy = s.fdy := rfl
@[simp] theorem setClass_frames : (setClass c x s).frames = s.frames := rfl
@[simp] theorem setClass_trees : (setClass c x s).trees = s.trees := rfl
@[simp] theorem setClass_tile : (setClass c x s).tile = s.tile := rfl
@[simp] theorem setClass_txt : (setClass c x s).txt = s.txt := rfl
@[simp] theorem setClass_pla : (setClass c x s).pla = { s.pla with classes := tset s.pla.classes c x } := rfl
@[simp] theorem setClass_gau : (setClass c x s).gau = s.gau := rfl
@[simp] theorem setClass_tly : (setClass c x s).tly = s.tly := rfl
@[simp] theorem setClass_tch : (setClass c x s).tch = s.tch := rfl
@[simp] theorem setClass_gth : (setClass c x s).gth = s.gth := rfl
@[simp] theorem setClass_net : (setClass c x s).net = s.net := rfl
@[simp] theorem setClass_swl : (setClass c x s).swl = s.swl := rfl
@[simp] theorem setClass_twn : (setClass c x s).twn = s.twn := rfl
@[simp] theorem setClass_mld : (setClass c x s).mld = s.mld := rfl
@[simp] theorem setClass_chk : (setClass c x s).chk = s.chk := rfl
@[simp] theorem setClass_hmk : (setClass c x s).hmk = s.hmk := rfl
@[simp] theorem setClass_pwr : (setClass c x s).pwr = s.pwr := rfl
@[simp] theorem setClass_clk : (setClass c x s).clk = s.clk := rfl
@[simp] theorem setClass_aon : (setClass c x s).aon = s.aon := rfl
@[simp] theorem setClass_err : (setClass c x s).err = s.err := rfl
@[simp] theorem setClass_elec : (setClass c x s).elec = s.elec := rfl
@[simp] theorem setClass_pending : (setClass c x s).pending = s.pending := rfl
end

/-! ### modClass -/

section
variable {c : Nat} {f : ContractClass → ContractClass}
@[simp] theorem modClass_ct : (modClass c f s).ct = s.ct := rfl
@[simp] theorem modClass_free : (modClass c f s).free = s.free := rfl
@[simp] theorem modClass_out : (modClass c f s).out = s.out := rfl
@[simp] theorem modClass_grade : (modClass c f s).grade = s.grade := rfl
@[simp] theorem modClass_ctr : (modClass c f s).ctr = s.ctr := rfl
@[simp] theorem modClass_hostMem : (modClass c f s).hostMem = s.hostMem := rfl
@[simp] theorem modClass_hostFaults : (modClass c f s).hostFaults = s.hostFaults := rfl
@[simp] theorem modClass_devMem : (modClass c f s).devMem = s.devMem := rfl
@[simp] theorem modClass_bench : (modClass c f s).bench = s.bench := rfl
@[simp] theorem modClass_pln : (modClass c f s).pln = s.pln := rfl
@[simp] theorem modClass_fdy : (modClass c f s).fdy = s.fdy := rfl
@[simp] theorem modClass_frames : (modClass c f s).frames = s.frames := rfl
@[simp] theorem modClass_trees : (modClass c f s).trees = s.trees := rfl
@[simp] theorem modClass_tile : (modClass c f s).tile = s.tile := rfl
@[simp] theorem modClass_txt : (modClass c f s).txt = s.txt := rfl
@[simp] theorem modClass_pla : (modClass c f s).pla = { s.pla with classes := tmod s.pla.classes c f } := rfl
@[simp] theorem modClass_gau : (modClass c f s).gau = s.gau := rfl
@[simp] theorem modClass_tly : (modClass c f s).tly = s.tly := rfl
@[simp] theorem modClass_tch : (modClass c f s).tch = s.tch := rfl
@[simp] theorem modClass_gth : (modClass c f s).gth = s.gth := rfl
@[simp] theorem modClass_net : (modClass c f s).net = s.net := rfl
@[simp] theorem modClass_swl : (modClass c f s).swl = s.swl := rfl
@[simp] theorem modClass_twn : (modClass c f s).twn = s.twn := rfl
@[simp] theorem modClass_mld : (modClass c f s).mld = s.mld := rfl
@[simp] theorem modClass_chk : (modClass c f s).chk = s.chk := rfl
@[simp] theorem modClass_hmk : (modClass c f s).hmk = s.hmk := rfl
@[simp] theorem modClass_pwr : (modClass c f s).pwr = s.pwr := rfl
@[simp] theorem modClass_clk : (modClass c f s).clk = s.clk := rfl
@[simp] theorem modClass_aon : (modClass c f s).aon = s.aon := rfl
@[simp] theorem modClass_err : (modClass c f s).err = s.err := rfl
@[simp] theorem modClass_elec : (modClass c f s).elec = s.elec := rfl
@[simp] theorem modClass_pending : (modClass c f s).pending = s.pending := rfl
end

/-! ### setShare -/

section
variable {p : Nat} {x : Share}
@[simp] theorem setShare_ct : (setShare p x s).ct = s.ct := rfl
@[simp] theorem setShare_free : (setShare p x s).free = s.free := rfl
@[simp] theorem setShare_out : (setShare p x s).out = s.out := rfl
@[simp] theorem setShare_grade : (setShare p x s).grade = s.grade := rfl
@[simp] theorem setShare_ctr : (setShare p x s).ctr = s.ctr := rfl
@[simp] theorem setShare_hostMem : (setShare p x s).hostMem = s.hostMem := rfl
@[simp] theorem setShare_hostFaults : (setShare p x s).hostFaults = s.hostFaults := rfl
@[simp] theorem setShare_devMem : (setShare p x s).devMem = s.devMem := rfl
@[simp] theorem setShare_bench : (setShare p x s).bench = s.bench := rfl
@[simp] theorem setShare_pln : (setShare p x s).pln = s.pln := rfl
@[simp] theorem setShare_fdy : (setShare p x s).fdy = s.fdy := rfl
@[simp] theorem setShare_frames : (setShare p x s).frames = s.frames := rfl
@[simp] theorem setShare_trees : (setShare p x s).trees = s.trees := rfl
@[simp] theorem setShare_tile : (setShare p x s).tile = s.tile := rfl
@[simp] theorem setShare_txt : (setShare p x s).txt = s.txt := rfl
@[simp] theorem setShare_pla : (setShare p x s).pla = { s.pla with shares := tset s.pla.shares p x } := rfl
@[simp] theorem setShare_gau : (setShare p x s).gau = s.gau := rfl
@[simp] theorem setShare_tly : (setShare p x s).tly = s.tly := rfl
@[simp] theorem setShare_tch : (setShare p x s).tch = s.tch := rfl
@[simp] theorem setShare_gth : (setShare p x s).gth = s.gth := rfl
@[simp] theorem setShare_net : (setShare p x s).net = s.net := rfl
@[simp] theorem setShare_swl : (setShare p x s).swl = s.swl := rfl
@[simp] theorem setShare_twn : (setShare p x s).twn = s.twn := rfl
@[simp] theorem setShare_mld : (setShare p x s).mld = s.mld := rfl
@[simp] theorem setShare_chk : (setShare p x s).chk = s.chk := rfl
@[simp] theorem setShare_hmk : (setShare p x s).hmk = s.hmk := rfl
@[simp] theorem setShare_pwr : (setShare p x s).pwr = s.pwr := rfl
@[simp] theorem setShare_clk : (setShare p x s).clk = s.clk := rfl
@[simp] theorem setShare_aon : (setShare p x s).aon = s.aon := rfl
@[simp] theorem setShare_err : (setShare p x s).err = s.err := rfl
@[simp] theorem setShare_elec : (setShare p x s).elec = s.elec := rfl
@[simp] theorem setShare_pending : (setShare p x s).pending = s.pending := rfl
end

/-! ### modMeters -/

section
variable {l : List Nat} {f : Meter → Meter}
@[simp] theorem modMeters_ct : (modMeters l f s).ct = s.ct := rfl
@[simp] theorem modMeters_free : (modMeters l f s).free = s.free := rfl
@[simp] theorem modMeters_out : (modMeters l f s).out = s.out := rfl
@[simp] theorem modMeters_grade : (modMeters l f s).grade = s.grade := rfl
@[simp] theorem modMeters_ctr : (modMeters l f s).ctr = s.ctr := rfl
@[simp] theorem modMeters_hostMem : (modMeters l f s).hostMem = s.hostMem := rfl
@[simp] theorem modMeters_hostFaults : (modMeters l f s).hostFaults = s.hostFaults := rfl
@[simp] theorem modMeters_devMem : (modMeters l f s).devMem = s.devMem := rfl
@[simp] theorem modMeters_bench : (modMeters l f s).bench = s.bench := rfl
@[simp] theorem modMeters_pln : (modMeters l f s).pln = s.pln := rfl
@[simp] theorem modMeters_fdy : (modMeters l f s).fdy = s.fdy := rfl
@[simp] theorem modMeters_frames : (modMeters l f s).frames = s.frames := rfl
@[simp] theorem modMeters_trees : (modMeters l f s).trees = s.trees := rfl
@[simp] theorem modMeters_tile : (modMeters l f s).tile = s.tile := rfl
@[simp] theorem modMeters_txt : (modMeters l f s).txt = s.txt := rfl
@[simp] theorem modMeters_pla : (modMeters l f s).pla = { s.pla with meters := List.foldl (fun t k => tmod t k f) s.pla.meters l } := rfl
@[simp] theorem modMeters_gau : (modMeters l f s).gau = s.gau := rfl
@[simp] theorem modMeters_tly : (modMeters l f s).tly = s.tly := rfl
@[simp] theorem modMeters_tch : (modMeters l f s).tch = s.tch := rfl
@[simp] theorem modMeters_gth : (modMeters l f s).gth = s.gth := rfl
@[simp] theorem modMeters_net : (modMeters l f s).net = s.net := rfl
@[simp] theorem modMeters_swl : (modMeters l f s).swl = s.swl := rfl
@[simp] theorem modMeters_twn : (modMeters l f s).twn = s.twn := rfl
@[simp] theorem modMeters_mld : (modMeters l f s).mld = s.mld := rfl
@[simp] theorem modMeters_chk : (modMeters l f s).chk = s.chk := rfl
@[simp] theorem modMeters_hmk : (modMeters l f s).hmk = s.hmk := rfl
@[simp] theorem modMeters_pwr : (modMeters l f s).pwr = s.pwr := rfl
@[simp] theorem modMeters_clk : (modMeters l f s).clk = s.clk := rfl
@[simp] theorem modMeters_aon : (modMeters l f s).aon = s.aon := rfl
@[simp] theorem modMeters_err : (modMeters l f s).err = s.err := rfl
@[simp] theorem modMeters_elec : (modMeters l f s).elec = s.elec := rfl
@[simp] theorem modMeters_pending : (modMeters l f s).pending = s.pending := rfl
end

/-! ### setRing -/

section
variable {k : Nat} {x : StreamRing}
@[simp] theorem setRing_ct : (setRing k x s).ct = s.ct := rfl
@[simp] theorem setRing_free : (setRing k x s).free = s.free := rfl
@[simp] theorem setRing_out : (setRing k x s).out = s.out := rfl
@[simp] theorem setRing_grade : (setRing k x s).grade = s.grade := rfl
@[simp] theorem setRing_ctr : (setRing k x s).ctr = s.ctr := rfl
@[simp] theorem setRing_hostMem : (setRing k x s).hostMem = s.hostMem := rfl
@[simp] theorem setRing_hostFaults : (setRing k x s).hostFaults = s.hostFaults := rfl
@[simp] theorem setRing_devMem : (setRing k x s).devMem = s.devMem := rfl
@[simp] theorem setRing_bench : (setRing k x s).bench = s.bench := rfl
@[simp] theorem setRing_pln : (setRing k x s).pln = s.pln := rfl
@[simp] theorem setRing_fdy : (setRing k x s).fdy = s.fdy := rfl
@[simp] theorem setRing_frames : (setRing k x s).frames = s.frames := rfl
@[simp] theorem setRing_trees : (setRing k x s).trees = s.trees := rfl
@[simp] theorem setRing_tile : (setRing k x s).tile = s.tile := rfl
@[simp] theorem setRing_txt : (setRing k x s).txt = s.txt := rfl
@[simp] theorem setRing_pla : (setRing k x s).pla = { s.pla with rings := tset s.pla.rings k x } := rfl
@[simp] theorem setRing_gau : (setRing k x s).gau = s.gau := rfl
@[simp] theorem setRing_tly : (setRing k x s).tly = s.tly := rfl
@[simp] theorem setRing_tch : (setRing k x s).tch = s.tch := rfl
@[simp] theorem setRing_gth : (setRing k x s).gth = s.gth := rfl
@[simp] theorem setRing_net : (setRing k x s).net = s.net := rfl
@[simp] theorem setRing_swl : (setRing k x s).swl = s.swl := rfl
@[simp] theorem setRing_twn : (setRing k x s).twn = s.twn := rfl
@[simp] theorem setRing_mld : (setRing k x s).mld = s.mld := rfl
@[simp] theorem setRing_chk : (setRing k x s).chk = s.chk := rfl
@[simp] theorem setRing_hmk : (setRing k x s).hmk = s.hmk := rfl
@[simp] theorem setRing_pwr : (setRing k x s).pwr = s.pwr := rfl
@[simp] theorem setRing_clk : (setRing k x s).clk = s.clk := rfl
@[simp] theorem setRing_aon : (setRing k x s).aon = s.aon := rfl
@[simp] theorem setRing_err : (setRing k x s).err = s.err := rfl
@[simp] theorem setRing_elec : (setRing k x s).elec = s.elec := rfl
@[simp] theorem setRing_pending : (setRing k x s).pending = s.pending := rfl
end

/-! ### setGauge -/

section
variable {c : Nat} {g : GaugeClass}
@[simp] theorem setGauge_ct : (setGauge c g s).ct = s.ct := rfl
@[simp] theorem setGauge_free : (setGauge c g s).free = s.free := rfl
@[simp] theorem setGauge_out : (setGauge c g s).out = s.out := rfl
@[simp] theorem setGauge_grade : (setGauge c g s).grade = s.grade := rfl
@[simp] theorem setGauge_ctr : (setGauge c g s).ctr = s.ctr := rfl
@[simp] theorem setGauge_hostMem : (setGauge c g s).hostMem = s.hostMem := rfl
@[simp] theorem setGauge_hostFaults : (setGauge c g s).hostFaults = s.hostFaults := rfl
@[simp] theorem setGauge_devMem : (setGauge c g s).devMem = s.devMem := rfl
@[simp] theorem setGauge_bench : (setGauge c g s).bench = s.bench := rfl
@[simp] theorem setGauge_pln : (setGauge c g s).pln = s.pln := rfl
@[simp] theorem setGauge_fdy : (setGauge c g s).fdy = s.fdy := rfl
@[simp] theorem setGauge_frames : (setGauge c g s).frames = s.frames := rfl
@[simp] theorem setGauge_trees : (setGauge c g s).trees = s.trees := rfl
@[simp] theorem setGauge_tile : (setGauge c g s).tile = s.tile := rfl
@[simp] theorem setGauge_txt : (setGauge c g s).txt = s.txt := rfl
@[simp] theorem setGauge_pla : (setGauge c g s).pla = s.pla := rfl
@[simp] theorem setGauge_gau : (setGauge c g s).gau = { s.gau with classes := tset s.gau.classes c { opened := g.opened, ending := g.ending, reports := g.reports, depthNow := g.depthNow, lastSeq := g.lastSeq, lastPct := g.lastPct, lastVerdict := g.lastVerdict, lateNext := g.lateNext, sseq := (g.sseq + 2) % 2 ^ 32 } } := rfl
@[simp] theorem setGauge_tly : (setGauge c g s).tly = s.tly := rfl
@[simp] theorem setGauge_tch : (setGauge c g s).tch = s.tch := rfl
@[simp] theorem setGauge_gth : (setGauge c g s).gth = s.gth := rfl
@[simp] theorem setGauge_net : (setGauge c g s).net = s.net := rfl
@[simp] theorem setGauge_swl : (setGauge c g s).swl = s.swl := rfl
@[simp] theorem setGauge_twn : (setGauge c g s).twn = s.twn := rfl
@[simp] theorem setGauge_mld : (setGauge c g s).mld = s.mld := rfl
@[simp] theorem setGauge_chk : (setGauge c g s).chk = s.chk := rfl
@[simp] theorem setGauge_hmk : (setGauge c g s).hmk = s.hmk := rfl
@[simp] theorem setGauge_pwr : (setGauge c g s).pwr = s.pwr := rfl
@[simp] theorem setGauge_clk : (setGauge c g s).clk = s.clk := rfl
@[simp] theorem setGauge_aon : (setGauge c g s).aon = s.aon := rfl
@[simp] theorem setGauge_err : (setGauge c g s).err = s.err := rfl
@[simp] theorem setGauge_elec : (setGauge c g s).elec = s.elec := rfl
@[simp] theorem setGauge_pending : (setGauge c g s).pending = s.pending := rfl
end

/-! ### closeEpoch -/

section
@[simp] theorem closeEpoch_ct : (closeEpoch s).ct = s.ct := rfl
@[simp] theorem closeEpoch_free : (closeEpoch s).free = s.free := rfl
@[simp] theorem closeEpoch_out : (closeEpoch s).out = s.out := rfl
@[simp] theorem closeEpoch_grade : (closeEpoch s).grade = s.grade := rfl
@[simp] theorem closeEpoch_ctr : (closeEpoch s).ctr = s.ctr := rfl
@[simp] theorem closeEpoch_hostMem : (closeEpoch s).hostMem = s.hostMem := rfl
@[simp] theorem closeEpoch_hostFaults : (closeEpoch s).hostFaults = s.hostFaults := rfl
@[simp] theorem closeEpoch_devMem : (closeEpoch s).devMem = s.devMem := rfl
@[simp] theorem closeEpoch_bench : (closeEpoch s).bench = s.bench := rfl
@[simp] theorem closeEpoch_pln : (closeEpoch s).pln = s.pln := rfl
@[simp] theorem closeEpoch_fdy : (closeEpoch s).fdy = s.fdy := rfl
@[simp] theorem closeEpoch_frames : (closeEpoch s).frames = s.frames := rfl
@[simp] theorem closeEpoch_trees : (closeEpoch s).trees = s.trees := rfl
@[simp] theorem closeEpoch_tile : (closeEpoch s).tile = s.tile := rfl
@[simp] theorem closeEpoch_txt : (closeEpoch s).txt = s.txt := rfl
@[simp] theorem closeEpoch_pla : (closeEpoch s).pla = s.pla := rfl
@[simp] theorem closeEpoch_gau : (closeEpoch s).gau = s.gau := rfl
@[simp] theorem closeEpoch_tly : (closeEpoch s).tly = { s.tly with ledgers := List.map (fun e => (e.fst, { cols := e.snd.cols, mark := e.snd.cols, delta := epochDelta e.snd, sat := e.snd.sat, trace := e.snd.trace })) s.tly.ledgers, epoch := s.tly.epoch + 1 } := rfl
@[simp] theorem closeEpoch_tch : (closeEpoch s).tch = s.tch := rfl
@[simp] theorem closeEpoch_gth : (closeEpoch s).gth = s.gth := rfl
@[simp] theorem closeEpoch_net : (closeEpoch s).net = s.net := rfl
@[simp] theorem closeEpoch_swl : (closeEpoch s).swl = s.swl := rfl
@[simp] theorem closeEpoch_twn : (closeEpoch s).twn = s.twn := rfl
@[simp] theorem closeEpoch_mld : (closeEpoch s).mld = s.mld := rfl
@[simp] theorem closeEpoch_chk : (closeEpoch s).chk = s.chk := rfl
@[simp] theorem closeEpoch_hmk : (closeEpoch s).hmk = s.hmk := rfl
@[simp] theorem closeEpoch_pwr : (closeEpoch s).pwr = s.pwr := rfl
@[simp] theorem closeEpoch_clk : (closeEpoch s).clk = s.clk := rfl
@[simp] theorem closeEpoch_aon : (closeEpoch s).aon = s.aon := rfl
@[simp] theorem closeEpoch_err : (closeEpoch s).err = s.err := rfl
@[simp] theorem closeEpoch_elec : (closeEpoch s).elec = s.elec := rfl
@[simp] theorem closeEpoch_pending : (closeEpoch s).pending = s.pending := rfl
end

/-! ### setStore -/

section
variable {id : Nat} {x : Store}
@[simp] theorem setStore_ct : (setStore id x s).ct = s.ct := rfl
@[simp] theorem setStore_free : (setStore id x s).free = s.free := rfl
@[simp] theorem setStore_out : (setStore id x s).out = s.out := rfl
@[simp] theorem setStore_grade : (setStore id x s).grade = s.grade := rfl
@[simp] theorem setStore_ctr : (setStore id x s).ctr = s.ctr := rfl
@[simp] theorem setStore_hostMem : (setStore id x s).hostMem = s.hostMem := rfl
@[simp] theorem setStore_hostFaults : (setStore id x s).hostFaults = s.hostFaults := rfl
@[simp] theorem setStore_devMem : (setStore id x s).devMem = s.devMem := rfl
@[simp] theorem setStore_bench : (setStore id x s).bench = s.bench := rfl
@[simp] theorem setStore_pln : (setStore id x s).pln = { s.pln with store := tset s.pln.store id x } := rfl
@[simp] theorem setStore_fdy : (setStore id x s).fdy = s.fdy := rfl
@[simp] theorem setStore_frames : (setStore id x s).frames = s.frames := rfl
@[simp] theorem setStore_trees : (setStore id x s).trees = s.trees := rfl
@[simp] theorem setStore_tile : (setStore id x s).tile = s.tile := rfl
@[simp] theorem setStore_txt : (setStore id x s).txt = s.txt := rfl
@[simp] theorem setStore_pla : (setStore id x s).pla = s.pla := rfl
@[simp] theorem setStore_gau : (setStore id x s).gau = s.gau := rfl
@[simp] theorem setStore_tly : (setStore id x s).tly = s.tly := rfl
@[simp] theorem setStore_tch : (setStore id x s).tch = s.tch := rfl
@[simp] theorem setStore_gth : (setStore id x s).gth = s.gth := rfl
@[simp] theorem setStore_net : (setStore id x s).net = s.net := rfl
@[simp] theorem setStore_swl : (setStore id x s).swl = s.swl := rfl
@[simp] theorem setStore_twn : (setStore id x s).twn = s.twn := rfl
@[simp] theorem setStore_mld : (setStore id x s).mld = s.mld := rfl
@[simp] theorem setStore_chk : (setStore id x s).chk = s.chk := rfl
@[simp] theorem setStore_hmk : (setStore id x s).hmk = s.hmk := rfl
@[simp] theorem setStore_pwr : (setStore id x s).pwr = s.pwr := rfl
@[simp] theorem setStore_clk : (setStore id x s).clk = s.clk := rfl
@[simp] theorem setStore_aon : (setStore id x s).aon = s.aon := rfl
@[simp] theorem setStore_err : (setStore id x s).err = s.err := rfl
@[simp] theorem setStore_elec : (setStore id x s).elec = s.elec := rfl
@[simp] theorem setStore_pending : (setStore id x s).pending = s.pending := rfl
end

/-! ### modSess -/

section
variable {id : Nat} {f : Session → Session}
@[simp] theorem modSess_ct : (modSess id f s).ct = s.ct := rfl
@[simp] theorem modSess_free : (modSess id f s).free = s.free := rfl
@[simp] theorem modSess_out : (modSess id f s).out = s.out := rfl
@[simp] theorem modSess_grade : (modSess id f s).grade = s.grade := rfl
@[simp] theorem modSess_ctr : (modSess id f s).ctr = s.ctr := rfl
@[simp] theorem modSess_hostMem : (modSess id f s).hostMem = s.hostMem := rfl
@[simp] theorem modSess_hostFaults : (modSess id f s).hostFaults = s.hostFaults := rfl
@[simp] theorem modSess_devMem : (modSess id f s).devMem = s.devMem := rfl
@[simp] theorem modSess_bench : (modSess id f s).bench = s.bench := rfl
@[simp] theorem modSess_pln : (modSess id f s).pln = { s.pln with slots := List.map (fun e => if e.snd.id = id then (e.fst, f e.snd) else e) s.pln.slots } := rfl
@[simp] theorem modSess_fdy : (modSess id f s).fdy = s.fdy := rfl
@[simp] theorem modSess_frames : (modSess id f s).frames = s.frames := rfl
@[simp] theorem modSess_trees : (modSess id f s).trees = s.trees := rfl
@[simp] theorem modSess_tile : (modSess id f s).tile = s.tile := rfl
@[simp] theorem modSess_txt : (modSess id f s).txt = s.txt := rfl
@[simp] theorem modSess_pla : (modSess id f s).pla = s.pla := rfl
@[simp] theorem modSess_gau : (modSess id f s).gau = s.gau := rfl
@[simp] theorem modSess_tly : (modSess id f s).tly = s.tly := rfl
@[simp] theorem modSess_tch : (modSess id f s).tch = s.tch := rfl
@[simp] theorem modSess_gth : (modSess id f s).gth = s.gth := rfl
@[simp] theorem modSess_net : (modSess id f s).net = s.net := rfl
@[simp] theorem modSess_swl : (modSess id f s).swl = s.swl := rfl
@[simp] theorem modSess_twn : (modSess id f s).twn = s.twn := rfl
@[simp] theorem modSess_mld : (modSess id f s).mld = s.mld := rfl
@[simp] theorem modSess_chk : (modSess id f s).chk = s.chk := rfl
@[simp] theorem modSess_hmk : (modSess id f s).hmk = s.hmk := rfl
@[simp] theorem modSess_pwr : (modSess id f s).pwr = s.pwr := rfl
@[simp] theorem modSess_clk : (modSess id f s).clk = s.clk := rfl
@[simp] theorem modSess_aon : (modSess id f s).aon = s.aon := rfl
@[simp] theorem modSess_err : (modSess id f s).err = s.err := rfl
@[simp] theorem modSess_elec : (modSess id f s).elec = s.elec := rfl
@[simp] theorem modSess_pending : (modSess id f s).pending = s.pending := rfl
end

/-! ### setFop -/

section
variable {n : Nat} {f : Fop}
@[simp] theorem setFop_ct : (setFop n f s).ct = s.ct := rfl
@[simp] theorem setFop_free : (setFop n f s).free = s.free := rfl
@[simp] theorem setFop_out : (setFop n f s).out = s.out := rfl
@[simp] theorem setFop_grade : (setFop n f s).grade = s.grade := rfl
@[simp] theorem setFop_ctr : (setFop n f s).ctr = s.ctr := rfl
@[simp] theorem setFop_hostMem : (setFop n f s).hostMem = s.hostMem := rfl
@[simp] theorem setFop_hostFaults : (setFop n f s).hostFaults = s.hostFaults := rfl
@[simp] theorem setFop_devMem : (setFop n f s).devMem = s.devMem := rfl
@[simp] theorem setFop_bench : (setFop n f s).bench = s.bench := rfl
@[simp] theorem setFop_pln : (setFop n f s).pln = s.pln := rfl
@[simp] theorem setFop_fdy : (setFop n f s).fdy = { s.fdy with ops := tset s.fdy.ops n f } := rfl
@[simp] theorem setFop_frames : (setFop n f s).frames = s.frames := rfl
@[simp] theorem setFop_trees : (setFop n f s).trees = s.trees := rfl
@[simp] theorem setFop_tile : (setFop n f s).tile = s.tile := rfl
@[simp] theorem setFop_txt : (setFop n f s).txt = s.txt := rfl
@[simp] theorem setFop_pla : (setFop n f s).pla = s.pla := rfl
@[simp] theorem setFop_gau : (setFop n f s).gau = s.gau := rfl
@[simp] theorem setFop_tly : (setFop n f s).tly = s.tly := rfl
@[simp] theorem setFop_tch : (setFop n f s).tch = s.tch := rfl
@[simp] theorem setFop_gth : (setFop n f s).gth = s.gth := rfl
@[simp] theorem setFop_net : (setFop n f s).net = s.net := rfl
@[simp] theorem setFop_swl : (setFop n f s).swl = s.swl := rfl
@[simp] theorem setFop_twn : (setFop n f s).twn = s.twn := rfl
@[simp] theorem setFop_mld : (setFop n f s).mld = s.mld := rfl
@[simp] theorem setFop_chk : (setFop n f s).chk = s.chk := rfl
@[simp] theorem setFop_hmk : (setFop n f s).hmk = s.hmk := rfl
@[simp] theorem setFop_pwr : (setFop n f s).pwr = s.pwr := rfl
@[simp] theorem setFop_clk : (setFop n f s).clk = s.clk := rfl
@[simp] theorem setFop_aon : (setFop n f s).aon = s.aon := rfl
@[simp] theorem setFop_err : (setFop n f s).err = s.err := rfl
@[simp] theorem setFop_elec : (setFop n f s).elec = s.elec := rfl
@[simp] theorem setFop_pending : (setFop n f s).pending = s.pending := rfl
end

/-! ### delFop -/

section
variable {n : Nat}
@[simp] theorem delFop_ct : (delFop n s).ct = s.ct := rfl
@[simp] theorem delFop_free : (delFop n s).free = s.free := rfl
@[simp] theorem delFop_out : (delFop n s).out = s.out := rfl
@[simp] theorem delFop_grade : (delFop n s).grade = s.grade := rfl
@[simp] theorem delFop_ctr : (delFop n s).ctr = s.ctr := rfl
@[simp] theorem delFop_hostMem : (delFop n s).hostMem = s.hostMem := rfl
@[simp] theorem delFop_hostFaults : (delFop n s).hostFaults = s.hostFaults := rfl
@[simp] theorem delFop_devMem : (delFop n s).devMem = s.devMem := rfl
@[simp] theorem delFop_bench : (delFop n s).bench = s.bench := rfl
@[simp] theorem delFop_pln : (delFop n s).pln = s.pln := rfl
@[simp] theorem delFop_fdy : (delFop n s).fdy = { s.fdy with ops := tdel s.fdy.ops n } := rfl
@[simp] theorem delFop_frames : (delFop n s).frames = s.frames := rfl
@[simp] theorem delFop_trees : (delFop n s).trees = s.trees := rfl
@[simp] theorem delFop_tile : (delFop n s).tile = s.tile := rfl
@[simp] theorem delFop_txt : (delFop n s).txt = s.txt := rfl
@[simp] theorem delFop_pla : (delFop n s).pla = s.pla := rfl
@[simp] theorem delFop_gau : (delFop n s).gau = s.gau := rfl
@[simp] theorem delFop_tly : (delFop n s).tly = s.tly := rfl
@[simp] theorem delFop_tch : (delFop n s).tch = s.tch := rfl
@[simp] theorem delFop_gth : (delFop n s).gth = s.gth := rfl
@[simp] theorem delFop_net : (delFop n s).net = s.net := rfl
@[simp] theorem delFop_swl : (delFop n s).swl = s.swl := rfl
@[simp] theorem delFop_twn : (delFop n s).twn = s.twn := rfl
@[simp] theorem delFop_mld : (delFop n s).mld = s.mld := rfl
@[simp] theorem delFop_chk : (delFop n s).chk = s.chk := rfl
@[simp] theorem delFop_hmk : (delFop n s).hmk = s.hmk := rfl
@[simp] theorem delFop_pwr : (delFop n s).pwr = s.pwr := rfl
@[simp] theorem delFop_clk : (delFop n s).clk = s.clk := rfl
@[simp] theorem delFop_aon : (delFop n s).aon = s.aon := rfl
@[simp] theorem delFop_err : (delFop n s).err = s.err := rfl
@[simp] theorem delFop_elec : (delFop n s).elec = s.elec := rfl
@[simp] theorem delFop_pending : (delFop n s).pending = s.pending := rfl
end

/-! ### modErr -/

section
variable {f : Errors → Errors}
@[simp] theorem modErr_ct : (modErr f s).ct = s.ct := rfl
@[simp] theorem modErr_free : (modErr f s).free = s.free := rfl
@[simp] theorem modErr_out : (modErr f s).out = s.out := rfl
@[simp] theorem modErr_grade : (modErr f s).grade = s.grade := rfl
@[simp] theorem modErr_ctr : (modErr f s).ctr = s.ctr := rfl
@[simp] theorem modErr_hostMem : (modErr f s).hostMem = s.hostMem := rfl
@[simp] theorem modErr_hostFaults : (modErr f s).hostFaults = s.hostFaults := rfl
@[simp] theorem modErr_devMem : (modErr f s).devMem = s.devMem := rfl
@[simp] theorem modErr_bench : (modErr f s).bench = s.bench := rfl
@[simp] theorem modErr_pln : (modErr f s).pln = s.pln := rfl
@[simp] theorem modErr_fdy : (modErr f s).fdy = s.fdy := rfl
@[simp] theorem modErr_frames : (modErr f s).frames = s.frames := rfl
@[simp] theorem modErr_trees : (modErr f s).trees = s.trees := rfl
@[simp] theorem modErr_tile : (modErr f s).tile = s.tile := rfl
@[simp] theorem modErr_txt : (modErr f s).txt = s.txt := rfl
@[simp] theorem modErr_pla : (modErr f s).pla = s.pla := rfl
@[simp] theorem modErr_gau : (modErr f s).gau = s.gau := rfl
@[simp] theorem modErr_tly : (modErr f s).tly = s.tly := rfl
@[simp] theorem modErr_tch : (modErr f s).tch = s.tch := rfl
@[simp] theorem modErr_gth : (modErr f s).gth = s.gth := rfl
@[simp] theorem modErr_net : (modErr f s).net = s.net := rfl
@[simp] theorem modErr_swl : (modErr f s).swl = s.swl := rfl
@[simp] theorem modErr_twn : (modErr f s).twn = s.twn := rfl
@[simp] theorem modErr_mld : (modErr f s).mld = s.mld := rfl
@[simp] theorem modErr_chk : (modErr f s).chk = s.chk := rfl
@[simp] theorem modErr_hmk : (modErr f s).hmk = s.hmk := rfl
@[simp] theorem modErr_pwr : (modErr f s).pwr = s.pwr := rfl
@[simp] theorem modErr_clk : (modErr f s).clk = s.clk := rfl
@[simp] theorem modErr_aon : (modErr f s).aon = s.aon := rfl
@[simp] theorem modErr_err : (modErr f s).err = f s.err := rfl
@[simp] theorem modErr_elec : (modErr f s).elec = s.elec := rfl
@[simp] theorem modErr_pending : (modErr f s).pending = s.pending := rfl
end

/-! ### modClk -/

section
variable {f : Clock → Clock}
@[simp] theorem modClk_ct : (modClk f s).ct = s.ct := rfl
@[simp] theorem modClk_free : (modClk f s).free = s.free := rfl
@[simp] theorem modClk_out : (modClk f s).out = s.out := rfl
@[simp] theorem modClk_grade : (modClk f s).grade = s.grade := rfl
@[simp] theorem modClk_ctr : (modClk f s).ctr = s.ctr := rfl
@[simp] theorem modClk_hostMem : (modClk f s).hostMem = s.hostMem := rfl
@[simp] theorem modClk_hostFaults : (modClk f s).hostFaults = s.hostFaults := rfl
@[simp] theorem modClk_devMem : (modClk f s).devMem = s.devMem := rfl
@[simp] theorem modClk_bench : (modClk f s).bench = s.bench := rfl
@[simp] theorem modClk_pln : (modClk f s).pln = s.pln := rfl
@[simp] theorem modClk_fdy : (modClk f s).fdy = s.fdy := rfl
@[simp] theorem modClk_frames : (modClk f s).frames = s.frames := rfl
@[simp] theorem modClk_trees : (modClk f s).trees = s.trees := rfl
@[simp] theorem modClk_tile : (modClk f s).tile = s.tile := rfl
@[simp] theorem modClk_txt : (modClk f s).txt = s.txt := rfl
@[simp] theorem modClk_pla : (modClk f s).pla = s.pla := rfl
@[simp] theorem modClk_gau : (modClk f s).gau = s.gau := rfl
@[simp] theorem modClk_tly : (modClk f s).tly = s.tly := rfl
@[simp] theorem modClk_tch : (modClk f s).tch = s.tch := rfl
@[simp] theorem modClk_gth : (modClk f s).gth = s.gth := rfl
@[simp] theorem modClk_net : (modClk f s).net = s.net := rfl
@[simp] theorem modClk_swl : (modClk f s).swl = s.swl := rfl
@[simp] theorem modClk_twn : (modClk f s).twn = s.twn := rfl
@[simp] theorem modClk_mld : (modClk f s).mld = s.mld := rfl
@[simp] theorem modClk_chk : (modClk f s).chk = s.chk := rfl
@[simp] theorem modClk_hmk : (modClk f s).hmk = s.hmk := rfl
@[simp] theorem modClk_pwr : (modClk f s).pwr = s.pwr := rfl
@[simp] theorem modClk_clk : (modClk f s).clk = f s.clk := rfl
@[simp] theorem modClk_aon : (modClk f s).aon = s.aon := rfl
@[simp] theorem modClk_err : (modClk f s).err = s.err := rfl
@[simp] theorem modClk_elec : (modClk f s).elec = s.elec := rfl
@[simp] theorem modClk_pending : (modClk f s).pending = s.pending := rfl
end

/-! ### modAon -/

section
variable {f : Aon → Aon}
@[simp] theorem modAon_ct : (modAon f s).ct = s.ct := rfl
@[simp] theorem modAon_free : (modAon f s).free = s.free := rfl
@[simp] theorem modAon_out : (modAon f s).out = s.out := rfl
@[simp] theorem modAon_grade : (modAon f s).grade = s.grade := rfl
@[simp] theorem modAon_ctr : (modAon f s).ctr = s.ctr := rfl
@[simp] theorem modAon_hostMem : (modAon f s).hostMem = s.hostMem := rfl
@[simp] theorem modAon_hostFaults : (modAon f s).hostFaults = s.hostFaults := rfl
@[simp] theorem modAon_devMem : (modAon f s).devMem = s.devMem := rfl
@[simp] theorem modAon_bench : (modAon f s).bench = s.bench := rfl
@[simp] theorem modAon_pln : (modAon f s).pln = s.pln := rfl
@[simp] theorem modAon_fdy : (modAon f s).fdy = s.fdy := rfl
@[simp] theorem modAon_frames : (modAon f s).frames = s.frames := rfl
@[simp] theorem modAon_trees : (modAon f s).trees = s.trees := rfl
@[simp] theorem modAon_tile : (modAon f s).tile = s.tile := rfl
@[simp] theorem modAon_txt : (modAon f s).txt = s.txt := rfl
@[simp] theorem modAon_pla : (modAon f s).pla = s.pla := rfl
@[simp] theorem modAon_gau : (modAon f s).gau = s.gau := rfl
@[simp] theorem modAon_tly : (modAon f s).tly = s.tly := rfl
@[simp] theorem modAon_tch : (modAon f s).tch = s.tch := rfl
@[simp] theorem modAon_gth : (modAon f s).gth = s.gth := rfl
@[simp] theorem modAon_net : (modAon f s).net = s.net := rfl
@[simp] theorem modAon_swl : (modAon f s).swl = s.swl := rfl
@[simp] theorem modAon_twn : (modAon f s).twn = s.twn := rfl
@[simp] theorem modAon_mld : (modAon f s).mld = s.mld := rfl
@[simp] theorem modAon_chk : (modAon f s).chk = s.chk := rfl
@[simp] theorem modAon_hmk : (modAon f s).hmk = s.hmk := rfl
@[simp] theorem modAon_pwr : (modAon f s).pwr = s.pwr := rfl
@[simp] theorem modAon_clk : (modAon f s).clk = s.clk := rfl
@[simp] theorem modAon_aon : (modAon f s).aon = f s.aon := rfl
@[simp] theorem modAon_err : (modAon f s).err = s.err := rfl
@[simp] theorem modAon_elec : (modAon f s).elec = s.elec := rfl
@[simp] theorem modAon_pending : (modAon f s).pending = s.pending := rfl
end

/-! ### toPhase -/

section
variable {k : Nat}
@[simp] theorem toPhase_ct : (toPhase k s).ct = s.ct := rfl
@[simp] theorem toPhase_free : (toPhase k s).free = s.free := rfl
@[simp] theorem toPhase_out : (toPhase k s).out = s.out := rfl
@[simp] theorem toPhase_grade : (toPhase k s).grade = s.grade := rfl
@[simp] theorem toPhase_ctr : (toPhase k s).ctr = s.ctr := rfl
@[simp] theorem toPhase_hostMem : (toPhase k s).hostMem = s.hostMem := rfl
@[simp] theorem toPhase_hostFaults : (toPhase k s).hostFaults = s.hostFaults := rfl
@[simp] theorem toPhase_devMem : (toPhase k s).devMem = s.devMem := rfl
@[simp] theorem toPhase_bench : (toPhase k s).bench = { s.bench with bootPhase := k, permyriad := 0, phaseCt := s.ct } := rfl
@[simp] theorem toPhase_pln : (toPhase k s).pln = s.pln := rfl
@[simp] theorem toPhase_fdy : (toPhase k s).fdy = s.fdy := rfl
@[simp] theorem toPhase_frames : (toPhase k s).frames = s.frames := rfl
@[simp] theorem toPhase_trees : (toPhase k s).trees = s.trees := rfl
@[simp] theorem toPhase_tile : (toPhase k s).tile = s.tile := rfl
@[simp] theorem toPhase_txt : (toPhase k s).txt = s.txt := rfl
@[simp] theorem toPhase_pla : (toPhase k s).pla = s.pla := rfl
@[simp] theorem toPhase_gau : (toPhase k s).gau = s.gau := rfl
@[simp] theorem toPhase_tly : (toPhase k s).tly = s.tly := rfl
@[simp] theorem toPhase_tch : (toPhase k s).tch = s.tch := rfl
@[simp] theorem toPhase_gth : (toPhase k s).gth = s.gth := rfl
@[simp] theorem toPhase_net : (toPhase k s).net = s.net := rfl
@[simp] theorem toPhase_swl : (toPhase k s).swl = s.swl := rfl
@[simp] theorem toPhase_twn : (toPhase k s).twn = s.twn := rfl
@[simp] theorem toPhase_mld : (toPhase k s).mld = s.mld := rfl
@[simp] theorem toPhase_chk : (toPhase k s).chk = s.chk := rfl
@[simp] theorem toPhase_hmk : (toPhase k s).hmk = s.hmk := rfl
@[simp] theorem toPhase_pwr : (toPhase k s).pwr = s.pwr := rfl
@[simp] theorem toPhase_clk : (toPhase k s).clk = s.clk := rfl
@[simp] theorem toPhase_aon : (toPhase k s).aon = s.aon := rfl
@[simp] theorem toPhase_err : (toPhase k s).err = s.err := rfl
@[simp] theorem toPhase_elec : (toPhase k s).elec = s.elec := rfl
@[simp] theorem toPhase_pending : (toPhase k s).pending = s.pending := rfl
end

/-! ### stopBoot -/

section
variable {status : Nat}
@[simp] theorem stopBoot_ct : (stopBoot status s).ct = s.ct := rfl
@[simp] theorem stopBoot_free : (stopBoot status s).free = s.free := rfl
@[simp] theorem stopBoot_out : (stopBoot status s).out = s.out := rfl
@[simp] theorem stopBoot_grade : (stopBoot status s).grade = s.grade := rfl
@[simp] theorem stopBoot_ctr : (stopBoot status s).ctr = s.ctr := rfl
@[simp] theorem stopBoot_hostMem : (stopBoot status s).hostMem = s.hostMem := rfl
@[simp] theorem stopBoot_hostFaults : (stopBoot status s).hostFaults = s.hostFaults := rfl
@[simp] theorem stopBoot_devMem : (stopBoot status s).devMem = s.devMem := rfl
@[simp] theorem stopBoot_bench : (stopBoot status s).bench =
    { s.bench with devState := DevState.frozen, bootError := status, permyriad := bootPermyriad s } := rfl
@[simp] theorem stopBoot_pln : (stopBoot status s).pln = s.pln := rfl
@[simp] theorem stopBoot_fdy : (stopBoot status s).fdy = s.fdy := rfl
@[simp] theorem stopBoot_frames : (stopBoot status s).frames = s.frames := rfl
@[simp] theorem stopBoot_trees : (stopBoot status s).trees = s.trees := rfl
@[simp] theorem stopBoot_tile : (stopBoot status s).tile = s.tile := rfl
@[simp] theorem stopBoot_txt : (stopBoot status s).txt = s.txt := rfl
@[simp] theorem stopBoot_pla : (stopBoot status s).pla = s.pla := rfl
@[simp] theorem stopBoot_gau : (stopBoot status s).gau = s.gau := rfl
@[simp] theorem stopBoot_tly : (stopBoot status s).tly = s.tly := rfl
@[simp] theorem stopBoot_tch : (stopBoot status s).tch = s.tch := rfl
@[simp] theorem stopBoot_gth : (stopBoot status s).gth = s.gth := rfl
@[simp] theorem stopBoot_net : (stopBoot status s).net = s.net := rfl
@[simp] theorem stopBoot_swl : (stopBoot status s).swl = s.swl := rfl
@[simp] theorem stopBoot_twn : (stopBoot status s).twn = s.twn := rfl
@[simp] theorem stopBoot_mld : (stopBoot status s).mld = s.mld := rfl
@[simp] theorem stopBoot_chk : (stopBoot status s).chk = s.chk := rfl
@[simp] theorem stopBoot_hmk : (stopBoot status s).hmk = s.hmk := rfl
@[simp] theorem stopBoot_pwr : (stopBoot status s).pwr = s.pwr := rfl
@[simp] theorem stopBoot_clk : (stopBoot status s).clk = s.clk := rfl
@[simp] theorem stopBoot_aon : (stopBoot status s).aon = s.aon := rfl
@[simp] theorem stopBoot_err : (stopBoot status s).err = s.err := rfl
@[simp] theorem stopBoot_elec : (stopBoot status s).elec = s.elec := rfl
@[simp] theorem stopBoot_pending : (stopBoot status s).pending = s.pending := rfl
end

/-! ### bump -/

section
variable {c : Ctr} {p n : Nat}
@[simp] theorem bump_ct : (bump c p n s).ct = s.ct := by unfold bump; split <;> rfl
@[simp] theorem bump_free : (bump c p n s).free = s.free := by unfold bump; split <;> rfl
@[simp] theorem bump_out : (bump c p n s).out = s.out := by unfold bump; split <;> rfl
@[simp] theorem bump_grade : (bump c p n s).grade = s.grade := by unfold bump; split <;> rfl
@[simp] theorem bump_hostMem : (bump c p n s).hostMem = s.hostMem := by unfold bump; split <;> rfl
@[simp] theorem bump_hostFaults : (bump c p n s).hostFaults = s.hostFaults := by unfold bump; split <;> rfl
@[simp] theorem bump_devMem : (bump c p n s).devMem = s.devMem := by unfold bump; split <;> rfl
@[simp] theorem bump_bench : (bump c p n s).bench = s.bench := by unfold bump; split <;> rfl
@[simp] theorem bump_pln : (bump c p n s).pln = s.pln := by unfold bump; split <;> rfl
@[simp] theorem bump_fdy : (bump c p n s).fdy = s.fdy := by unfold bump; split <;> rfl
@[simp] theorem bump_frames : (bump c p n s).frames = s.frames := by unfold bump; split <;> rfl
@[simp] theorem bump_trees : (bump c p n s).trees = s.trees := by unfold bump; split <;> rfl
@[simp] theorem bump_tile : (bump c p n s).tile = s.tile := by unfold bump; split <;> rfl
@[simp] theorem bump_txt : (bump c p n s).txt = s.txt := by unfold bump; split <;> rfl
@[simp] theorem bump_pla : (bump c p n s).pla = s.pla := by unfold bump; split <;> rfl
@[simp] theorem bump_gau : (bump c p n s).gau = s.gau := by unfold bump; split <;> rfl
@[simp] theorem bump_tly : (bump c p n s).tly = s.tly := by unfold bump; split <;> rfl
@[simp] theorem bump_tch : (bump c p n s).tch = s.tch := by unfold bump; split <;> rfl
@[simp] theorem bump_gth : (bump c p n s).gth = s.gth := by unfold bump; split <;> rfl
@[simp] theorem bump_net : (bump c p n s).net = s.net := by unfold bump; split <;> rfl
@[simp] theorem bump_swl : (bump c p n s).swl = s.swl := by unfold bump; split <;> rfl
@[simp] theorem bump_twn : (bump c p n s).twn = s.twn := by unfold bump; split <;> rfl
@[simp] theorem bump_mld : (bump c p n s).mld = s.mld := by unfold bump; split <;> rfl
@[simp] theorem bump_chk : (bump c p n s).chk = s.chk := by unfold bump; split <;> rfl
@[simp] theorem bump_hmk : (bump c p n s).hmk = s.hmk := by unfold bump; split <;> rfl
@[simp] theorem bump_pwr : (bump c p n s).pwr = s.pwr := by unfold bump; split <;> rfl
@[simp] theorem bump_clk : (bump c p n s).clk = s.clk := by unfold bump; split <;> rfl
@[simp] theorem bump_aon : (bump c p n s).aon = s.aon := by unfold bump; split <;> rfl
@[simp] theorem bump_err : (bump c p n s).err = s.err := by unfold bump; split <;> rfl
@[simp] theorem bump_elec : (bump c p n s).elec = s.elec := by unfold bump; split <;> rfl
@[simp] theorem bump_pending : (bump c p n s).pending = s.pending := by unfold bump; split <;> rfl
end

/-! ### Mailboxes, functions and operations -/

@[simp] theorem le_length (n v : Nat) : (le n v).length = n := by
  induction n generalizing v with
  | zero => rfl
  | succ n ih => simp [le, ih]

@[simp] theorem move_bench (a b c d e f g : Nat) : (move a b c d e f g s).bench = s.bench := by
  simp [move, post, postHalf]
@[simp] theorem move_hostMem (a b c d e f g : Nat) : (move a b c d e f g s).hostMem = s.hostMem := by
  simp [move, post, postHalf]
@[simp] theorem move_devMem (a b c d e f g : Nat) : (move a b c d e f g s).devMem = s.devMem := by
  simp [move, post, postHalf]
@[simp] theorem move_hostFaults (a b c d e f g : Nat) : (move a b c d e f g s).hostFaults = s.hostFaults := by
  simp [move, post, postHalf]
@[simp] theorem move_out (a b c d e f g : Nat) : (move a b c d e f g s).out = s.out := by
  simp [move, post, postHalf]

@[simp] theorem setMbx_bench (fn n : Nat) (x : Mailbox) :
    (setMbx fn n x s).bench = { s.bench with mbx := tset s.bench.mbx (mbxKey fn n) x } := by
  unfold setMbx
  dsimp only
  split
  · rfl
  · rw [move_bench]

/-- A mailbox reads as it was stored. -/
@[simp] theorem getMbx_setMbx (fn n : Nat) (x : Mailbox) : getMbx (setMbx fn n x s) fn n = x := by
  unfold getMbx
  rw [setMbx_bench]
  simp [tgetD]

/-- Storing a mailbox leaves the others. -/
theorem getMbx_setMbx_ne {fn n fn' n' : Nat} (x : Mailbox) (h : mbxKey fn' n' ≠ mbxKey fn n) :
    getMbx (setMbx fn n x s) fn' n' = getMbx s fn' n' := by
  unfold getMbx
  rw [setMbx_bench]
  simp only [tgetD]
  rw [tget_tset_ne _ _ h]

@[simp] theorem fnState_setMbx (fn n k : Nat) (x : Mailbox) : fnState (setMbx fn n x s) k = fnState s k := by
  unfold fnState
  rw [setMbx_bench]

@[simp] theorem fnState_setFn (fn : Nat) (f : FnState) : fnState (setFn fn f s) fn = f := by
  unfold fnState setFn
  simp [tgetD]

@[simp] theorem getOp_setOp (n : Nat) (o : LongOp) : getOp (setOp n o s) n = some o := by
  unfold getOp setOp
  simp

end Sys2Proof.Machine
end

