-- ==== Sys2Proof/Laws/Registers.lean ====
section
/-! SUPPORT. What a read of a block of registers answers. -/

namespace Sys2Proof.Machine

/-- The register that holds a byte answers it. -/
theorem regByte_hit {l r : Regs} {o : Nat} {b : Bytes} {a : Nat} (hl : ∀ e ∈ l, ¬(e.1 ≤ a ∧ a < e.1 + e.2.length)) (h1 : o ≤ a)
    (h2 : a < o + b.length) : regByte (l ++ (o, b) :: r) a = b.getD (a - o) 0 := by
  unfold regByte
  have : (l ++ (o, b) :: r).find? (fun e => decide (e.1 ≤ a) && decide (a < e.1 + e.2.length)) = some (o, b) := by
    rw [List.find?_append, List.find?_eq_none.mpr (by intro x hx; simpa using hl x hx)]
    simp [h1, h2]
  rw [this]

/-- A byte of a register in a row. -/
theorem regByte_row {l r : Regs} {o w n : Nat} {f : Nat → Nat} {p : Nat} {a : Nat} (hp : p < n)
    (hl : ∀ e ∈ l, ¬(e.1 ≤ a ∧ a < e.1 + e.2.length)) (h1 : o + w * p ≤ a) (h2 : a < o + w * p + w) :
    regByte (l ++ (regRow o w n f ++ r)) a = (le w (f p)).getD (a - (o + w * p)) 0 := by
  have e : regRow o w n f = regRow o w p f ++ (o + w * p, le w (f p))
      :: ((List.range' (p + 1) (n - p - 1)).map (fun i => (o + w * i, le w (f i)))) := by
    unfold regRow
    rw [List.range_eq_range', List.range_eq_range', ← List.map_cons (f := fun i => (o + w * i, le w (f i))), ← List.map_append]
    congr 1
    obtain ⟨k, rfl⟩ : ∃ k, n = p + (1 + k) := ⟨n - p - 1, by omega⟩
    rw [← List.range'_append_1, show p + (1 + k) - p - 1 = k by omega, Nat.add_comm 1 k, List.range'_succ]
    simp
  rw [e, List.append_assoc, ← List.append_assoc, List.cons_append]
  apply regByte_hit
  · intro x hx
    rcases List.mem_append.mp hx with h | h
    · exact hl x h
    · simp only [regRow, List.mem_map, List.mem_range] at h
      obtain ⟨i, hi, rfl⟩ := h
      simp only [le_length]
      have : w * i + w ≤ w * p := by
        calc w * i + w = w * (i + 1) := by rw [Nat.mul_succ]
          _ ≤ w * p := Nat.mul_le_mul_left _ hi
      omega
  · exact h1
  · rw [le_length]; exact h2

/-- A register of a row of words, read whole. -/
theorem regRead_row {l r : Regs} {o n : Nat} {f : Nat → Nat} {p : Nat} (hp : p < n)
    (hl : ∀ e ∈ l, e.1 + e.2.length ≤ o + 4 * p) : regRead (l ++ (regRow o 4 n f ++ r)) (o + 4 * p) 4 = u32 (f p) := by
  unfold regRead
  have hb (i : Nat) (hi : i < 4) : regByte (l ++ (regRow o 4 n f ++ r)) (o + 4 * p + i) = (le 4 (f p)).getD i 0 := by
    rw [regByte_row (p := p) hp (by intro e he h; have := hl e he; omega) (by omega) (by omega)]
    congr 1; omega
  apply List.ext_getElem
  · simp [u32, le_length]
  · intro i h1 h2
    have hi : i < 4 := by simpa using h1
    simp only [List.getElem_map, List.getElem_range]
    rw [hb i hi]
    simp [u32, List.getD, List.getElem?_eq_getElem (show i < (le 4 (f p)).length by rw [le_length]; exact hi)]

end Sys2Proof.Machine
end

