-- ==== Sys2Proof/Laws/Served.lean ====
section
/-! SUPPORT. What becomes of a command that the device serves. -/

namespace Sys2Proof.Machine

/-- An outcome that is a success. -/
theorem toOption_some {ε α : Type} {e : Except ε α} {a : α} (h : e.toOption = some a) : e = .ok a := by
  cases e with
  | error x => cases h
  | ok x => cases h; rfl

/-- A body that starts an operation below the function's limit. -/
theorem asOp_room {r : Req} {s : State} {phase unit total : Nat} {c : Bool} {args : List Nat} {k : Nat → State → State}
    (h : opRoom s r.fn = true) :
    asOp r s phase unit total c args k = .wait (k s.bench.nextOp (startOp r phase unit total c args s).2) := by
  simp [asOp, h, startOp]

/-- A body whose checks hold. -/
theorem checked_isOk {s : State} {c : Except Nat Unit} {k : Unit → Reply} (h : c.isOk = true) : checked s c k = k () := by
  cases c with
  | error => simp [Except.isOk, Except.toBool] at h
  | ok => rfl

/-- A served command comes from a mailbox. -/
theorem serves_src {i : OpInfo} {m : Moment} {r : Req} {s : State} (h : serves i m r s = true) : ∃ fn n, r.src = .mailbox fn n := by
  unfold serves at h
  split at h
  · next fn n e => exact ⟨fn, n, e⟩
  · cases h

theorem serves_not_mirrored {i : OpInfo} {m : Moment} {r : Req} {s : State} (h : serves i m r s = true) : r.src ≠ .mirrored := by
  obtain ⟨_, _, e⟩ := serves_src h
  simp [e]

theorem serves_not_carried {i : OpInfo} {m : Moment} {r : Req} {s : State} (h : serves i m r s = true) : carried r = false := by
  obtain ⟨_, _, e⟩ := serves_src h
  simp [carried, e]

/-- Output through a list that covers it and can be written. -/
theorem replyData_list {r : Req} {s : State} {need : Nat} {data result : Bytes} {l : List SgEntry}
    (hc : carried r = false) (hl : (sgCover r need s).toOption = some l) (hw : (sgWrite l data s).2 = none) :
    replyData r need data result s = .ok (sgWrite l data s).1 result := by
  unfold replyData
  simp only [hc, Bool.false_eq_true, if_false, toOption_some hl]
  split
  · next h => rw [h]
  · next h => rw [h] at hw; cases hw

/-- Input that can be read. -/
theorem withData_ok {r : Req} {s : State} {n : Nat} {b : Bytes} {k : Bytes → Reply} (h : (inData r n s).toOption = some b) :
    withData r n s k = k b := by
  simp [withData, toOption_some h]



/-- A session that this chip holds is the one that the body runs on. -/
theorem onSession_here {r : Req} {s : State} {k : Nat → Held → Reply} {x : Held} (h : locate r s (r.f 0 8) = .here x) :
    onSession r s k = k (r.f 0 8) x := by
  simp [onSession, h]

/-- So is one whose records this chip holds. -/
theorem onStore_here {r : Req} {s : State} {k : Nat → Held → Reply} {x : Held} (h : locate r s (r.f 0 8) = .here x)
    (hx : storeHere s x = true) : onStore r s k = k (r.f 0 8) x := by
  unfold onStore
  rw [onSession_here h]
  cases x with
  | active y => rfl
  | parked e => simp only [storeHere, decide_eq_true_eq] at hx; simp only [hx, if_true]

/-- A change of a session at its step boundary takes effect now. -/
theorem atStep_now {r : Req} {x : Session} {s : State} {k : Reply} (h : settled s x = true) (hw : x.waiting.isEmpty = true) :
    atStep r x s k = k := by
  simp [atStep, h, hw]

/-- A request that names its row's opcode is the one that the row takes. -/
theorem named_self {i : OpInfo} {r : Req} (h : r.hdr.opcode = i.opcode) : i.named r = r := by
  unfold OpInfo.named
  rw [← h]

/-- A served command runs its body on the captured state, and completes unless it stays pending. -/
theorem runCommand_served {i : OpInfo} {body : Moment → Req → State → Reply} {m : Moment} {r : Req} {s : State}
    (h : serves i m r s = true) :
    runCommand i body m r s =
      (let a := body m r (taken m r s)
       let st := if a.pend || a.status = 0 then mirror i.opcode r a.result a.st else a.st
       if a.pend then st else complete r a.status a.detail 0 a.result false st) := by
  unfold serves at h
  split at h
  · next fn n hs =>
    simp only [Bool.and_eq_true, Bool.not_eq_true', Option.isNone_iff_eq_none, decide_eq_true_eq] at h
    obtain ⟨⟨⟨⟨⟨⟨h0, h1⟩, h2⟩, h3⟩, h4⟩, h5⟩, h6⟩ := h
    have h7 : (engineOf i.opcode r).filter (fun g => !groupOpen (taken m r s) g) = none := by
      cases he : engineOf i.opcode r with
      | none => rfl
      | some g => simp_all [Option.filter]
    unfold runCommand
    simp only [named_self h0, hs, h1, h2, h4, Bool.not_true, if_false, Bool.false_eq_true, if_true]
    rw [if_pos (by simpa using h3)]
    unfold commandStep
    rw [show capture r (postIn r (s.at m)) = taken m r s from rfl, h5]
    simp only [h7]
  · simp at h

/-- A served command ends as its body answers. -/
theorem runCommand_answered {i : OpInfo} {body : Moment → Req → State → Reply} {m : Moment} {r : Req} {s : State} {a : Reply}
    (h : serves i m r s = true) (hb : body m r (taken m r s) = a) : runCommand i body m r s = answered i r a := by
  rw [runCommand_served h, hb]
  rfl

/-- The result of a served command whose body answers OK. -/
theorem runCommand_ended {i : OpInfo} {body : Moment → Req → State → Reply} {m : Moment} {r : Req} {s u : State} {b : Bytes}
    (h : serves i m r s = true) (hb : body m r (taken m r s) = .ok u b) :
    runCommand i body m r s = ended i r b u := by
  rw [runCommand_served h]
  simp only [hb, Reply.ok, ended, St.ok, Bool.false_or, decide_true, if_true, if_false, Bool.false_eq_true]

/-- The result of a served command whose body answers OK with a detail. -/
theorem runCommand_detail {i : OpInfo} {body : Moment → Req → State → Reply} {m : Moment} {r : Req} {s u : State} {b : Bytes} {d : Nat}
    (h : serves i m r s = true) (hb : body m r (taken m r s) = { st := u, detail := d, result := b }) :
    runCommand i body m r s = ended i r b u d := by
  rw [runCommand_served h]
  simp only [hb, ended, St.ok, Bool.false_or, decide_true, if_true, if_false, Bool.false_eq_true]

/-- The result of a served command whose body stays pending. -/
theorem runCommand_goesOn {i : OpInfo} {body : Moment → Req → State → Reply} {m : Moment} {r : Req} {s u : State}
    (h : serves i m r s = true) (hb : body m r (taken m r s) = .wait u) :
    runCommand i body m r s = goesOn i r u := by
  rw [runCommand_served h]
  simp only [hb, Reply.wait, goesOn, Bool.true_or, if_true]

/-- The result of a served command whose body fails. -/
theorem runCommand_failed {i : OpInfo} {body : Moment → Req → State → Reply} {m : Moment} {r : Req} {s u : State} {c d : Nat}
    (h : serves i m r s = true) (hc : c ≠ 0) (hb : body m r (taken m r s) = .err u c d) :
    runCommand i body m r s = failed r c d u := by
  rw [runCommand_served h]
  simp only [hb, Reply.err, failed, hc, decide_false, Bool.or_self, if_false, Bool.false_eq_true]

/-- A served request begins its Foundry operation below the function's limit. -/
theorem beginFop_served {i : OpInfo} {m : Moment} {r : Req} {s u : State} {f : Fop} {k : Nat → State → State}
    (hs : serves i m r s = true) (h : opStarts u r = true) :
    beginFop r f k u = .wait (k (begun r f u).1 (begun r f u).2) := by
  obtain ⟨_, _, e⟩ := serves_src hs
  unfold opStarts at h
  rw [Bool.and_eq_true, Option.isNone_iff_eq_none] at h
  unfold beginFop
  simp only [e, h.2]
  rw [asOp_room (r := r) h.1]
  rfl

/-! ### Indexes and tables -/

/-- An index that the request reaches is the one that the body runs on. -/
theorem onIndex_here {o : OpInfo} {r : Req} {s : State} {k : Nat → Index → Reply} {x : Index} (h : getIndex s (r.f 0 1) = some x)
    (hr : r.reaches x.partition = true) (hd : x.dropping = none) (hp : (partGate o r x.partition s).isOk = true) :
    onIndex o r s k = k (r.f 0 1) x := by
  unfold onIndex
  simp only [h, hr, hd]
  cases hq : partGate o r x.partition s with
  | error e => rw [hq] at hp; cases hp
  | ok q => rfl

/-- A table that the request reaches is the one that the body runs on. -/
theorem onTable_here {o : OpInfo} {r : Req} {s : State} {k : Nat → GTable → Reply} {x : GTable} (hn : r.f 0 2 < 1024)
    (h : getTable s (r.f 0 2) = some x) (hr : r.reaches x.partition = true) (hd : x.dropping = none)
    (hp : (partGate o r x.partition s).isOk = true) :
    onTable o r s k = k (r.f 0 2) x := by
  unfold onTable
  simp only [Nat.not_le.mpr hn, if_false, h, hr, hd]
  cases hq : partGate o r x.partition s with
  | error e => rw [hq] at hp; cases hp
  | ok q => rfl

/-- Output after the input of a list that covers both. -/
theorem replyAfter_list {r : Req} {s : State} {skip : Nat} {data result : Bytes} {l : List SgEntry}
    (hc : carried r = false) (hl : (sgCover r (skip + data.length) s).toOption = some l) (hw : (sgWrite (sgDrop l skip) data s).2 = none) :
    replyAfter r skip data result s = .ok (sgWrite (sgDrop l skip) data s).1 result := by
  unfold replyAfter
  simp only [hc, Bool.false_eq_true, if_false, toOption_some hl]
  split
  · next h => rw [h]
  · next h => rw [h] at hw; cases hw

/-! ### Packets -/

/-- A packet that reaches its queue pair leaves the state as it is. -/
theorem arrives_true {i : Nat} {p : Pkt} {s : State} (h : (arrives i p s).1 = true) : arrives i p s = (true, s) := by
  unfold arrives at h ⊢
  cases hq : getQp s i with
  | none => rw [hq] at h; cases h
  | some q =>
    rw [hq] at h
    dsimp only at h ⊢
    split at h
    · cases h
    · next h1 =>
      rw [if_neg h1]
      split at h
      · cases h
      · next h2 =>
        rw [if_neg h2]
        split at h
        · cases h
        · next h3 => rw [if_neg h3]

/-- Checks that let a packet pass. -/
theorem packet_some {c : Checked} {p : Pkt} (h : c.packet = some p) : c = .pass p := by
  cases c with
  | stop => cases h
  | pass => cases h; rfl

/-! ### Images -/

theorem filter_bad {l : List Tb.Check} (h : l.all (·.1) = true) : l.filter (fun c => !c.1) = [] := by
  rw [List.filter_eq_nil_iff]
  intro c hc
  simp [List.all_eq_true.mp h c hc]

/-- An image whose fields are all in range fails only where its command stream fails its decode (R186). -/
theorem firstBad_stream {b : Bytes} {n : Nat} (h : (Md.headerChecks b n ++ Md.objChecks b ++ Md.attChecks b).all (·.1) = true) :
    Md.firstBad b n = Config.cmdStreamBad b := by
  rw [List.append_assoc, List.all_append, Bool.and_eq_true] at h
  have h1 := filter_bad h.1
  have h2 := filter_bad h.2
  unfold Md.firstBad
  simp only [h1, h2, List.map_nil, List.min?_nil, List.nil_append]
  cases Config.cmdStreamBad b <;> rfl

/-- Cutting to a length twice cuts once. -/
theorem fit_fit (n : Nat) (b : Bytes) : fit n (fit n b) = fit n b := by
  unfold fit takeD
  apply List.map_congr_left
  intro i hi
  have : i < n := List.mem_range.mp hi
  simp [List.getD, List.getElem?_map, List.getElem?_range this]

/-- A model's unsigned image is verified when its digest is the one computed over it (R185). -/
theorem modelVerify_ok {s : State} {x : ModelSlot} (hd : x.hdr.digest = Md.computedDigest x.image) (hs : x.hdr.sigLen = 0) :
    (modelVerify s x).isOk = true := by
  have e : Md.computedDigest x.image = fit 32 (Md.computedDigest x.image) := (fit_fit 32 _).symm
  unfold modelVerify
  simp only [hd, hs, guard']
  rw [decide_eq_true e]
  rfl

/-- A table set's unsigned image is verified when its digest is the one computed over it (R221). -/
theorem tablesetVerify_ok {s : State} {x : TableSet} (hd : x.digest = Tb.computedDigest x.image) (hs : Tb.sigLen x.image = 0) :
    (tablesetVerify s x).isOk = true := by
  have e : Tb.computedDigest x.image = fit 32 (Tb.computedDigest x.image) := (fit_fit 32 _).symm
  unfold tablesetVerify
  simp only [hd, hs, guard']
  rw [decide_eq_true e]
  rfl

end Sys2Proof.Machine
end

