-- ==== Sys2Proof/Machine/Package.lean ====
section
/-! DEFINITION. The package: its lands and their names, the rails with their limits, the power budget and the management bus address
(R513 to R517, R521, R525, 18). No command acts on them. -/

namespace Sys2Proof.Machine

/-- The 19 letters of row names (R514). -/
def rowLetters : List Char :=
  ['A', 'B', 'C', 'D', 'E', 'F', 'G', 'H', 'J', 'K', 'L', 'M', 'N', 'P', 'T', 'U', 'V', 'W', 'Y']

/-- The name of row `n`, 1 to 96 (R514). -/
def landRow (n : Nat) : List Char :=
  let letter (k : Nat) : List Char := (rowLetters[k]?).toList
  if n ≤ 19 then letter (n - 1) else letter ((n - 20) / 19) ++ letter ((n - 20) % 19)

/-- A row's or a column's distance from the array's centre, in hundredths of a millimetre: the pitch is 0.94 mm (R513, R514). -/
def landOffset (n : Nat) : Int := (2 * (n : Int) - 97) * 47

/-- Lands by group, in the order of R515. -/
def landGroups : List Nat := [66, 128, 2, 224, 1536, 6, 4, 9, 2, 24, 3700, 3515]

/-- A rail (R516): its nominal voltage, its tolerance in ten-thousandths, its rated current, its lands and its sense lands. -/
structure Rail where
  millivolts : Nat
  tolerance  : Nat
  milliamps  : Nat
  lands      : Nat
  sense      : Nat := 0
  deriving DecidableEq, Repr

/-- The rails in the order of R516, which numbers the bits of PWR_RAIL_FAULT. -/
def rails : List Rail :=
  [{ millivolts := 700, tolerance := 300, milliamps := 2400000, lands := 2600, sense := 2 }
  , { millivolts := 750, tolerance := 300, milliamps := 340000, lands := 400, sense := 2 }
  , { millivolts := 1050, tolerance := 300, milliamps := 150000, lands := 160 }
  , { millivolts := 400, tolerance := 300, milliamps := 200000, lands := 200 }
  , { millivolts := 1800, tolerance := 500, milliamps := 12000, lands := 16 }
  , { millivolts := 750, tolerance := 300, milliamps := 50000, lands := 64 }
  , { millivolts := 500, tolerance := 300, milliamps := 50000, lands := 64 }
  , { millivolts := 750, tolerance := 200, milliamps := 120000, lands := 140 }
  , { millivolts := 1200, tolerance := 200, milliamps := 30000, lands := 40 }
  , { millivolts := 1800, tolerance := 500, milliamps := 1000, lands := 8 }
  , { millivolts := 1800, tolerance := 500, milliamps := 50, lands := 4 }]

/-- Whether a voltage lies in the rail monitor's window, ±10 % of nominal (R519). -/
def railInWindow (r : Rail) (mv : Nat) : Bool := decide (9 * r.millivolts ≤ 10 * mv) && decide (10 * mv ≤ 11 * r.millivolts)

/-- The worst-case budget in W, in the order of R517. -/
def powerBudget : List Nat := [800, 250, 256, 60, 125, 120, 40]

/-- The highest lid temperature at a package power in W, in thousandths of a degree: 105 °C less 0.012 °C/W (R525). -/
def lidLimit (watts : Nat) : Int := 105000 - 12 * (watts : Int)

/-- The SMBus target address and the I3C static address (R521). -/
def busAddress (s : State) : Nat := 0x40 + s.elec.chipId

end Sys2Proof.Machine
end

