-- ==== Sys2Proof/Tests/Slice0Base.lean ====
section
/-! SUPPORT. Small states and requests for the tests and the witnesses. -/

namespace Sys2Proof.Machine

/-- An operating device with every power group ACTIVE and partition 0 enabled, its host reachable. -/
def up : State :=
  { State.reset with
    bench := { devState := .operating, bootPhase := 7 }
    hmk := { parts := [(0, { pstate := .active, tileMask := 1, hbmMask := 1, lpddrMask := 1, ways := [1, 1, 1, 1, 1, 1] })] }
    pwr := { groups := (List.range 64).map (fun g => (g, { state := 3 })) }
    err := { configOk := true }
    elec := { pcieUp := true } }

/-- A request from PF0's mailbox 0 for partition 0, with a payload. -/
def cmdReq (p : Bytes) : Req :=
  { src := .mailbox 0 0, hdr := { payloadLen := p.length }, payload := p }

/-- A long operation of PF0's mailbox 1 with handle 7, and a device that runs it as operation 1. -/
def theOp : LongOp := { handle := 7, fn := 0, req := { src := .mailbox 0 1 }, opcode := 0x0109 }
def upOp : State := { up with bench := { up.bench with ops := [(1, theOp)], nextOp := 2 } }

/-- The same device with mailbox 5 of PF0 in DONE, or TAKEN. -/
def upDone : State := { up with bench := { up.bench with mbx := [(5, { own := .done })] } }
def upTaken : State := { up with bench := { up.bench with mbx := [(5, { own := .taken })] } }

/-- The same device with mailbox 5 POSTED: a NOP, and an undefined opcode. -/
def upPosted : State := { up with bench := { up.bench with mbx := [(5, { own := .posted })] } }
def upBad : State := { up with bench := { up.bench with mbx := [(5, { own := .posted, hdr := { opcode := 0x0F77 } })] } }

/-- The same device with partition 15 enabled, so that VF 16 exists. -/
def upVf : State := { up with hmk := { up.hmk with parts := [(15, { pstate := .active })] } }

/-- An aperture of PF0 on partition 0's HBM, and the device that has it. -/
def theAp : Aperture := { tier := 1, partition := 0, barOffset := 0, size := 2 * 2 ^ 20, memOffset := 0 }
def upAp : State := { up with bench := { up.bench with fns := [(0, { apertures := [(0, theAp)] })] } }

/-- The same device with check unit 7 claimed by PF0. -/
def upUnit : State := { up with chk := [(7, { owner := .fn 0 })] }

/-- A session in DECODE of partition 0, and the device with a session in slot 0. -/
def aSess : Session := { id := 0x1000000, st := .decode, maxLength := 100, length := 10 }
def upSess (x : Session) : State :=
  { up with pln := { up.pln with slots := [(0, x)], store := [(x.id, {})], dir := [(0, { id := x.id })] } }

/-- The device with a model in slot 0, an empty generation 0 and class 0. -/
def upModel : State :=
  { up with frames := { up.frames with pools := [{ id := tablePool 0, size := 8, extents := [(0, 8)] }, { id := journalPool 0, size := 2, extents := [(131072, 2)] }] }
            tile := { up.tile with models := [(0, { mstate := .ready, hdr := { vocab := 10, lgCount := 1 } })] }
            txt := { up.txt with gens := [(0, { gstate := .resident })] }
            pla := { up.pla with classes := [(0, {})] } }

/-- A parked session's directory entry, and the device that keeps it with its image. -/
def aDir : DirEntry := { id := 0x1000000, dstate := .parked }
def upParked : State :=
  { up with pln := { up.pln with dir := [(0, aDir)], store := [(0x1000000, { image := some aSess })] } }

/-- A chain of partition 0 that is POSTED, and the device with it beside a session. -/
def aChain : Chain := { partition := 0, tag := 5, qp := 0, landing := 0 }
def upChain : State := { upSess aSess with net := { up.net with chains := [(3, aChain)] } }

/-- A request whose scatter list is one entry of 2,048 bytes, and the writes by which the host lays that list down. -/
def sgReq (p : Bytes) : Req :=
  { src := .mailbox 0 0, hdr := { payloadLen := p.length, sgCount := 1, sgAddr := 0x1000 }, payload := p }
def sgAt : Moment := { host := [(0x1000, u64 0x2000 ++ u32 2048)] }

/-- The device with its model and a session in TOOLWAIT whose auto-cast is armed. -/
def upTool : State :=
  { upModel with pln := { up.pln with slots := [(0, { aSess with st := .toolwait, autoCastCt := 1 })], store := [(0x1000000, {})]
                                      dir := [(0, { id := 0x1000000 })] } }

/-- An append that waits for a lane. -/
def aJob : LaneJob := { session := 0x1000000, partition := 0, req := cmdReq (u64 0x1000000 ++ [1, 0, 0, 0] ++ u32 0) }
def upLane : State := { upTool with txt := { upModel.txt with waiting := [aJob] } }

/-- A generation with one grammar, whose every field is 0. -/
def aGrammarSet : TableSet := { gstate := .resident, image := zeros 0xE8 ++ u32 1 ++ u32 1 }
def upGrammar : State := { up with txt := { up.txt with gens := [(0, aGrammarSet)] } }

/-- A parked session whose armed raise waits for a slot. -/
def upQueued : State :=
  { upParked with txt := upModel.txt, pln := { upParked.pln with raiseWait := [{ session := 0x1000000, priority := 0 }] } }

/-- The device with a session in DECODE that may be granted a step, and with that step in flight on a tile. -/
def aRun : Session := { aSess with credit := 100000, q := { ctBacklog := 1, eligible := true } }
def upRun : State :=
  { upModel with
    frames := { pools := upModel.frames.pools ++ [{ id := { partition := 0, tier := 1, pclass := 18, enc := 0 }, size := 4, extents := [(2 ^ 20, 4)] }] }
    tile := { upModel.tile with models := [(0, { mstate := .ready, spanMask := 1, hdr := { vocab := 10, lgCount := 1, batchLimit := 4, qHeads := 1, kvHeads := 1 } })] }
    pla := { upModel.pla with classes := [(0, { burst := 100000, tokenRate := 1 })] }
    pln := { up.pln with slots := [(0, aRun)], store := [(aRun.id, { pages := { lgCount := 1 } })], dir := [(0, { id := aRun.id })] } }
def aRow : InvRow := { session := aRun.id, slot := 0, chunk := 0, drafts := 0, base := 10 }
def anInv : Invocation := { slot := 0, partition := 0, cast := false, spanMask := 1, rows := [aRow], key := (0, 0, 0) }
def upInv (v : Invocation) (x : Session) : State :=
  { upRun with tile := { upRun.tile with invs := [(7, v)] }, pln := { upRun.pln with slots := [(0, x)] } }
def aFlight : InFlight := { inv := 7, chunk := 0, drafts := 0, base := 10 }

/-- The device with its first link up to chip 1. -/
def upLink (s : State) : State := { s with swl := { s.swl with links := [(0, { lstate := .up, peerChip := 1 })] } }

/-- A run-ahead of 1 s ago, a copy descriptor and its operation. -/
def aFop : Fop := { kind := .submit, op := 1, session := 0 }
def aDesc : Desc := { kind := .copy, length := 64, srcTier := 1, dstTier := 1, src := 4096, dst := 8192, fop := 1 }
def upDesc (d : Desc) : State := { upOp with fdy := { up.fdy with store := [(4, d)], ops := [(1, aFop)], nextDesc := 5, nextFop := 2 } }

/-- A COPY descriptor of 64 bytes within partition 0's HBM as FDY_SUBMIT takes it (R95). -/
def aCopy : Bytes :=
  fit 64 (u32 (2 ^ 26 + 2 ^ 24) ++ u32 64 ++ zeros 8 ++ u64 4096 ++ u64 8192)

/-- A session of 256 computed positions, and the device with it and room in its partition's tree. -/
def aLong : Session := { aRun with length := 256, prefillPos := 256 }
def upLong : State :=
  { upRun with trees := [(0, { cap := 4 })]
               pln := { upRun.pln with slots := [(0, aLong)], store := [(aRun.id, { journal := List.replicate 256 7, pages := { lgCount := 1, ptes := [(0, { tier := 1, frame := 128, resident := true, valid := true })] } })] }
               frames := { upRun.frames with frames := [(2 ^ 60 + 2 ^ 20, { pool := { partition := 0, tier := 1, pclass := 18, enc := 0 }, refs := 1 })] } }

/-- The device with one published node in partition 0's tree. -/
def upNode : State := { upModel with trees := [(0, { cap := 8, nodes := [(5, { nstate := .published, gen := 1, depth := 1 })] })] }

/-- A model image of one layer and one object of no bytes (R185), and a table-set image without sections (R219). -/
def aModelImage : Bytes :=
  u32 0x314C444D ++ u16 1 ++ u16 0x100 ++ u64 0x150 ++ zeros 32 ++ u16 1 ++ [1, 5] ++ u16 1 ++ u16 32 ++ u16 1 ++ u16 1 ++ u32 1
    ++ u32 0 ++ u16 1 ++ u16 0 ++ [1, 0] ++ zeros 8 ++ u16 1 ++ u32 0 ++ u64 0x130 ++ u64 0x150 ++ u32 0 ++ u32 0 ++ u64 0x100
    ++ zeros 0x88
    ++ (u64 (8 * 2 ^ 60 + 0xFFF * 2 ^ 44) ++ u64 (10 * 2 ^ 60 + 0xFFF * 2 ^ 44) ++ u64 (10 * 2 ^ 60 + 0xFFF * 2 ^ 44))
    ++ u32 0x3F800000 ++ zeros 20 ++ (u64 0x100 ++ u64 0 ++ [0, 0, 1] ++ zeros 13)
def aTableImage : Bytes :=
  fit 0x100 (u32 0x31534254 ++ u16 1 ++ u16 0x100 ++ u64 0x100 ++ zeros 32 ++ u64 0x100 ++ u32 0 ++ u32 0 ++ u32 1 ++ u32 0xFFFFFFFF
    ++ u32 0 ++ u32 0 ++ u16 1)

/-- The host's writes of a scatter list at 0x1000 that names `b`, laid down at 0x2000. -/
def listOf (b : Bytes) : Moment := { host := [(0x1000, u64 0x2000 ++ u32 b.length), (0x2000, b)] }

/-- The device that loads that model into slot 3, or holds it there; and one that loads that table set as generation 2. -/
def aLoad : ModelSlot :=
  { mstate := .loading, image := aModelImage, hdr := { Md.hdr aModelImage with digest := Md.computedDigest aModelImage }
    newObjs := [{ bytes := 0, tier := 1, addr := 0 }], op := 1 }
def upLoading : State := { upOp with tile := { up.tile with models := [(3, aLoad)] } }
def aHeld : ModelSlot := { mstate := .ready, objs := [{ bytes := 4096, tier := 1, addr := 0 }] }
def upHeld : State := { up with tile := { up.tile with models := [(3, aHeld)] } }
def aSet : TableSet := { image := aTableImage, digest := Tb.computedDigest aTableImage, op := 1 }
def upSet (x : TableSet) : State := { upOp with txt := { up.txt with gens := [(2, x)] } }

/-- The device that runs operation 1, a TABLESET_LOAD of generation 7 without data, and that operation. -/
def upPlacing : State × LongOp :=
  let o : LongOp := { fn := 0, req := { src := .mailbox 0 1, hdr := { sgCount := 1, sgAddr := 0x1000 }, payload := u16 7 ++ zeros 6 ++ u64 0x100 }, opcode := 0x0500 }
  ((upOp.at (listOf aTableImage)) |> setOp 1 o, o)

/-- The device with a GX queue pair of handle 1, with a stream ring of one waiting record, and with class 0's Gauge record. -/
def aQp : Qp := { gx := true, partition := 0, paths := 1, mtu := 1024 }
def upQp (q : Qp) : State := { up with net := { up.net with qps := [(1, q)] } }
def aRing (kind : Nat) : StreamRing :=
  { kind, log2 := 6, base := 0x10000, consAddr := 0x20000, conn := 1, spill := [{ session := 0x1000000, length := 1 }] }
def upRing (x : StreamRing) : State := { upQp aQp with pla := { up.pla with rings := [(2, x)] } }
def aGauge : GaugeClass := { opened := { start := 0, stop := 1000000000, windowS := 1 } }
def upGauge (g : GaugeClass) : State :=
  { up with ct := 5, pla := { up.pla with classes := [(0, {})] }, gau := { up.gau with classes := [(0, g)], toSign := [{ cls := 0, seq := 1, body := [] }] } }

/-- The device with an index of 64-bit codes and one item, with a query on it, and with a table of one row of 16 bytes. -/
def anIndex (kind : Nat) : Index :=
  { partition := 0, kind, tier := 1, shardMask := 1, bits := 64, degree := 8, build := 8, lists := 1, capacity := 4, timeout := 0
    items := [(0, { code := 7, label := 9, ins := 0, sstate := .live })], entry := some 0 }
def upIndex (x : Index) : State := { up with tch := { up.tch with indexes := [(3, x)] } }
def upInsert : State := { upIndex (anIndex 0) with
  bench := { up.bench with ops := [(1, { theOp with opcode := 0x0902 })], nextOp := 2 }
  tch := { (upIndex (anIndex 0)).tch with inserts := [(1, { index := 3, slot := 0 })] } }
def aQuery : Query := { index := 3, req := { src := .mailbox 0 1 }, op := 1, snapshot := 0, topK := 1, waiting := [1], hits := [[]] }
def upQuery (q : Query) : State := { upLink upOp with tch := { up.tch with indexes := [(3, anIndex 0)], queries := [(1, q)], nextQ := 2 } }
def aTable : GTable := { partition := 0, format := 5, tier := 1, rowBytes := 16, rows := 1, versions := [(0, { vstate := .current, rows := [zeros 16] })] }
def upTable (x : GTable) : State := { up with gth := { tables := [(3, x)] } }

/-- The device with a region of key 257. -/
def aRegion : Region := { partition := 0, backing := 0, write := true, read := true, gen := 1, scope := 0xFFFFFFFF, length := 64, base := 2 ^ 62 }
def upRegion (x : Region) : State := { up with net := { up.net with regions := [(1, x)] } }

/-- The device with that region and a queue pair on an interface that is up, and packets for it. -/
def upNet (q : Qp) : State :=
  { up with net := { up.net with regions := [(1, aRegion)], qps := [(1, { q with ifMask := 1 })], ports := [(0, { linkUp := 1 })] } }
def aPkt : Pkt := { qp := 1, opcode := 0xE0, msg := 1, len := 4, key := 257, payload := [1, 2, 3, 4] }
def aSeal : Pkt := { qp := 1, opcode := 0xE0, msg := 1, len := 0, key := 257, flags := 0x80, offset := 0xFFFFFFFF }
def anRc : Qp := { gx := false, partition := 0 }

/-- The device with a controller that connects, its commands, and a PTP port that hears a time transmitter. -/
def upCtrl : State :=
  { upOp with net := { up.net with
    ctrls := [(0, { handle := 1, subnqn := [], hostnqn := [], ioQueues := 1, depth := 16, op := 1 })]
    cmds := [(1, { controller := 0, owner := .connect 1 }), (2, { controller := 0, owner := .cut 0 }), (3, { controller := 0, owner := .restore 0 })] } }
def upPtp : State :=
  { up with net := { up.net with ptp := { ifMask := 1, selected := some 0, heard := [(0, (7, 1000000000, 0))] } } }

/-- A link in a state, and the device with it as its first link. -/
def upTrain (l : Link) : State := { upOp with swl := { up.swl with links := [(0, l)] }, elec := { up.elec with sdref := true } }
/-- The device that waits for an answer on its first link. -/
def upAsked (w : SwlWait) : State := { upLink upOp with swl := { up.swl with links := [(0, { lstate := .up, peerChip := 1 })], reqs := [(1, { link := 0, wait := w })], nextReq := 2 } }
/-- The device with a pair of partition 0, and with a session of it and one of its steps. -/
def aPair : Pair := { secondary := false, peer := 1, onLoss := 1, depth := 1, timeout := 100000 }
def upPair (x : Pair) : State := { upLink upOp with twn := { up.twn with pairs := [(0, x)] } }
def upTwin (x : Pair) : State :=
  { upPair x with pln := (upSess aSess).pln, twn := { up.twn with pairs := [(0, x)], steps := [(1, { session := 0x1000000, base := 10, own := [(0, 7, 0)] })] } }
/-- A checkpoint group of partition 0 on a connected controller, and the device with it. -/
def aGroup : CkGroup :=
  { partition := 0, modelSlot := 0xFF, narrow := 0, classLo := 0, classHi := 4095, qp := 1, nsid := 1, lbaBase := 0, lbaCount := 1000, maxShards := 1
    stepTrig := 0, period := 0, errWindow := 0, errThresh := 0, window := 1000, half := 488 }
def upGroup (x : CkGroup) : State :=
  { upOp with mld := { up.mld with groups := [(2, x)] }
              net := { up.net with qps := [(1, anRc)], ctrls := [(0, { handle := 1, connected := true, namespaces := [(1, 512)] })] } }

/-- The device with a record of partition 0, with the SPDM path of VF 1 at its third stage and a secured session on it. -/
def aPart : Partition :=
  { pstate := .active, tdi := .unlocked, confidential := true, tileMask := 1, hbmMask := 1, lpddrMask := 1, ways := [1, 1, 1, 1, 1, 1] }
def upTdi (x : Partition) : State :=
  { up with hmk := { parts := [(0, x)], conns := [(1, { stage := 3 })], sessions := [(1, { via := 1, secured := true }), (2, { via := 1 })]
                     ide := [(1, { fn := 1, keyed := 1 })] } }

/-- Their copies are verified: their digests are those computed over them. -/
theorem verifies_aLoad : (modelVerify (upLoading.at {}) (getModel (upLoading.at {}) 3)).isOk = true := modelVerify_ok rfl (by decide)
theorem verifies_aSet : (tablesetVerify ((upSet aSet).at {}) aSet).isOk = true := tablesetVerify_ok rfl (by decide)

end Sys2Proof.Machine
end

