-- ==== Sys2Proof/Tests/Slice0Images.lean ====
section
/-! SUPPORT. Witnesses over a whole settings image: the ROM defaults are valid, can be saved, and can be read to be programmed. -/

namespace Sys2Proof.Machine
set_option maxRecDepth 20000

theorem leVal_le (n v : Nat) : leVal (le n v) = v % 256 ^ n := by
  induction n generalizing v with
  | zero => simp [le, leVal, Nat.mod_one]
  | succ n ih =>
    rw [le, leVal, ih, BitVec.toNat_ofNat, show 256 ^ (n + 1) = 256 * 256 ^ n from Nat.pow_succ', Nat.mod_mul]

theorem crc32c_lt (b : Bytes) : crc32c b < 2 ^ 32 := by
  have hb : ∀ v, v < 2 ^ 32 → crcBit 0x82F63B78 v < 2 ^ 32 := by
    intro v hv
    unfold crcBit
    split
    · exact Nat.xor_lt_two_pow (by omega) (by decide)
    · omega
  have hf : ∀ (l : List Nat) v, v < 2 ^ 32 → l.foldl (fun v _ => crcBit 0x82F63B78 v) v < 2 ^ 32 := by
    intro l
    induction l with
    | nil => exact fun v h => h
    | cons x t ih => exact fun v h => ih _ (hb v h)
  have hr : ∀ (b : Bytes) v, v < 2 ^ 32 → crcRun 0x82F63B78 v b < 2 ^ 32 := by
    intro b
    unfold crcRun
    induction b with
    | nil => exact fun v h => h
    | cons x t ih =>
      exact fun v h => ih _ (hf _ _ (Nat.xor_lt_two_pow h (by have := x.isLt; omega)))
  exact Nat.xor_lt_two_pow (hr b _ (by decide)) (by decide)

theorem slice_head {N o n : Nat} {x t : Bytes} (h : o + n ≤ N) : slice (fit N x ++ t) o n = slice x o n := by
  unfold slice fit takeD
  apply List.map_congr_left
  intro i hi
  have hi : i < n := List.mem_range.mp hi
  have h1 : o + i < ((List.range N).map (fun i => x[i]?.getD 0)).length := by simp; omega
  simp only [List.getD_eq_getElem?_getD, List.getElem?_drop]
  rw [List.getElem?_append_left h1]
  simp [List.getElem?_map, List.getElem?_range (show o + i < N by omega)]

theorem field_head {N o n : Nat} {x t : Bytes} (h : o + n ≤ N) : field (fit N x ++ t) o n = field x o n := by
  unfold field; rw [slice_head h]

theorem fit_length (n : Nat) (b : Bytes) : (fit n b).length = n := by simp [fit, takeD]

theorem fit_same (b : Bytes) : fit b.length b = b := by
  apply List.ext_getElem (fit_length _ _)
  intro i h1 h2
  simp [fit, takeD, h2]

theorem field_tail (b : Bytes) (v : Nat) (h : v < 2 ^ 32) : field (b ++ u32 v) b.length 4 = v := by
  unfold field slice
  rw [List.drop_left, show fit 4 (u32 v) = u32 v from fit_same (u32 v), u32, leVal_le]
  omega

/-- The ROM image up to its reserved bytes. -/
def romHead : Bytes :=
  u32 0x31544553 ++ u16 1 ++ u16 0 ++ u32 2048 ++ zeros 4 ++ List.replicate 64 3
    ++ zeros 8 ++ u32 1000000 ++ zeros 4 ++ u32 2000 ++ u32 1000000 ++ zeros 40 ++ u16 110 ++ u16 2400

theorem romImage_eq : romImage = fit 0x7FC romHead ++ u32 (crc32c (fit 0x7FC romHead)) := rfl
theorem romImage_length : romImage.length = 2048 := by rw [romImage_eq]; simp [fit_length, u32, le]

/-- The ROM defaults are a valid image (R481). -/
theorem romImage_valid (s : State) : imageValid s romImage = true := by
  have f : ∀ o n, o + n ≤ 0x7FC → field romImage o n = field romHead o n := fun o n h => by rw [romImage_eq, field_head h]
  have hc : field romImage 0x7FC 4 = crc32c (romImage.take 0x7FC) := by
    rw [romImage_eq]
    have hl : (fit 0x7FC romHead).length = 0x7FC := fit_length _ _
    rw [show List.take 0x7FC (fit 0x7FC romHead ++ u32 (crc32c (fit 0x7FC romHead))) = fit 0x7FC romHead from by
      rw [List.take_append_of_le_length (by omega), List.take_of_length_le (by omega)]]
    have := field_tail (fit 0x7FC romHead) _ (crc32c_lt (fit 0x7FC romHead))
    rwa [hl] at this
  have hb : (List.range 64).all (bootStateOk s romImage) = true := by
    rw [List.all_eq_true]
    intro g hgm
    have hlt : g < 64 := List.mem_range.mp hgm
    unfold bootStateOk
    rw [f _ _ (by omega)]
    have : field romHead (0x10 + g) 1 = 3 := by
      have H : ∀ g < 64, field romHead (0x10 + g) 1 = 3 := by decide
      exact H g hlt
    simp [this]
  have hz : [(0x0C, 4), (0x68, 40), (0x94, 12), (0x4B0, 844)].all (fun x => field romImage x.1 x.2 = 0) = true := by
    simp only [List.all_cons, List.all_nil, f 0x0C 4 (by decide), f 0x68 40 (by decide), f 0x94 12 (by decide), f 0x4B0 844 (by decide)]
    decide
  unfold imageValid
  rw [hc, hb, hz, romImage_length]
  simp only [f 0 4 (by decide), f 4 2 (by decide), f 8 4 (by decide), f 0x51 1 (by decide), f 0x52 1 (by decide), f 0x53 1 (by decide),
    f 0x50 1 (by decide), f 0x58 4 (by decide), f 0x60 4 (by decide), f 0x64 4 (by decide), f 0x90 2 (by decide), f 0x92 2 (by decide),
    f 0xA0 1 (by decide), f 0xA8 8 (by decide)]
  have k : field romHead 0xA0 1 = 0 := by decide
  rw [k]
  simp only [leapOk, leapEntries, List.range_zero, List.map_nil, List.all_nil]
  decide

/-- A read of what has just been written. -/
theorem read_write (h : Mem) (a : Nat) (b : Bytes) : Mem.read (Mem.write h a b) a b.length = b := by
  apply List.ext_getElem (by simp [Mem.read])
  intro i h1 h2
  simp only [Mem.read, List.getElem_map, List.getElem_range]
  exact Mem.byte_write_of_mem h a b i h2

/-- The host's writes of a list at 0x1000 of 7,456 bytes at 0x2000, where it has laid the ROM image down. -/
def otpAt : Moment := { host := [(0x2000, romImage), (0x1000, u64 0x2000 ++ u32 7456 ++ u32 0)] }
def otpReq : Req := { src := .mailbox 0 0, hdr := { opcode := 0x0E08, sgCount := 1, sgAddr := 0x1000 } }

/-- The host's memory after them. -/
def otpMem : Mem := Mem.write (Mem.write [] 0x2000 romImage) 0x1000 (u64 0x2000 ++ u32 7456 ++ u32 0)

theorem hostErr_none {s : State} (h : s.hostFaults = []) (a n : Nat) : hostErr s a n = none := by simp [hostErr, h]

theorem sgWalk_otp {s : State} (h : s.hostMem = otpMem) (h2 : s.hostFaults = []) :
    sgWalk s 4096 0x1000 1 0 = .ok [{ idx := 0, addr := 0x2000, len := 7456 }] := by
  have e : hostRead s 0x1000 (16 * 1) = u64 0x2000 ++ u32 7456 ++ u32 0 := by
    unfold hostRead; rw [h]; exact read_write _ 0x1000 (u64 0x2000 ++ u32 7456 ++ u32 0)
  rw [sgWalk, if_neg (by decide), hostErr_none h2]
  simp only []
  rw [e]
  rfl

theorem inData_otp {s : State} (h : s.hostMem = otpMem) (h2 : s.hostFaults = []) :
    inData otpReq 7456 s = .ok (hostRead s 0x2000 7456) := by
  unfold inData sgCover sgList
  rw [if_neg (by decide), if_neg (by decide)]
  rw [show otpReq.hdr.sgAddr = 0x1000 from rfl, show otpReq.hdr.sgCount = 1 from rfl, sgWalk_otp h h2]
  simp only [bind, Except.bind, sgTotal, List.map_cons, List.map_nil, List.sum_cons, List.sum_nil]
  rw [if_neg (by decide)]
  simp only [sgRead, bind, Except.bind, hostErr_none h2]
  simp [sgRead]

theorem read_image {s : State} (h : s.hostMem = otpMem) : (hostRead s 0x2000 7456).take 2048 = romImage := by
  have h0 : hostRead s 0x2000 2048 = romImage := by
    unfold hostRead
    rw [← romImage_length, h]
    refine Eq.trans ?_ (read_write [] 0x2000 romImage)
    unfold Mem.read
    apply List.map_congr_left
    intro i hi
    exact Mem.byte_write_of_not_mem _ _ _ (Or.inr (by
      have : (u64 0x2000 ++ u32 7456 ++ u32 0).length = 16 := rfl
      omega))
  rw [← h0]
  simp only [hostRead, Mem.read, ← List.map_take, List.take_range]
  rfl

theorem setMbx_hostMem (fn n : Nat) (x : Mailbox) (s : State) : (setMbx fn n x s).hostMem = s.hostMem := by
  unfold setMbx
  simp only
  split
  · rfl
  · rw [move_hostMem]

theorem taken_hostMem (m : Moment) (r : Req) (s : State) : (taken m r s).hostMem = (s.at m).hostMem := by
  have a (s : State) : (postIn r s).hostMem = s.hostMem := by
    unfold postIn; split
    · simp only [setMbx_hostMem]; rfl
    · rfl
  have b (s : State) : (capture r s).hostMem = s.hostMem := by
    unfold capture; split
    · simp only [setMbx_hostMem]
    · rfl
  rw [taken, b, a]

theorem at_host_list (s : State) (m : Moment) : (s.at m).hostMem = m.host.foldl (fun h w => Mem.write h w.1 w.2) s.hostMem := rfl
theorem otpAt_host : otpAt.host = [(0x2000, romImage), (0x1000, u64 0x2000 ++ u32 7456 ++ u32 0)] := rfl

/-- The ROM defaults come through that list as an image to be programmed. -/
theorem otp_reads : ∃ (m : Moment) (r : Req) (s : State) (b : Bytes) (g : Nat), (serves opOtpProgram m r s = true) ∧
    ((inData r 7456 (taken m r s)).toOption = some b) ∧ (otpFree (taken m r s) = some g) ∧ (imageValid (taken m r s) (b.take 2048) = true) := by
  have h0 : up.hostMem = [] := rfl
  have h : (taken otpAt otpReq up).hostMem = otpMem := by
    rw [taken_hostMem, at_host_list, otpAt_host, List.foldl_cons, List.foldl_cons, List.foldl_nil, h0, otpMem]
  refine ⟨otpAt, otpReq, up, hostRead (taken otpAt otpReq up) 0x2000 7456, 0, by decide, ?_, by decide, ?_⟩
  · rw [inData_otp h rfl]
    rfl
  · rw [read_image h]; exact romImage_valid _

/-- The ROM defaults' reserved fields are zero. -/
theorem romImage_rsvd : rsvdBad opAonSettingsSave romImage = false := by
  have f : ∀ o n, o + n ≤ 0x7FC → field romImage o n = field romHead o n := fun o n h => by rw [romImage_eq, field_head h]
  have h1 : ∀ x ∈ imageRsvd, x.1 + x.2 ≤ 0x7FC ∧ field romHead x.1 x.2 = 0 := by decide +kernel
  have h2 : ∀ x ∈ imageRbits, x.1 + x.2.1 ≤ 0x7FC ∧ field romHead x.1 x.2.1 &&& x.2.2 = 0 := by decide +kernel
  unfold rsvdBad
  rw [Bool.or_eq_false_iff, List.any_eq_false, List.any_eq_false]
  refine ⟨fun x hx => ?_, fun x hx => ?_⟩
  · rw [f _ _ (h1 x hx).1]; simp [(h1 x hx).2]
  · rw [f _ _ (h2 x hx).1]; simp [(h2 x hx).2]

/-- A request that saves a settings image. -/
def saveReq (b : Bytes) : Req := { src := .mailbox 0 0, hdr := { opcode := 0x0E06, payloadLen := 2048 }, payload := b }

theorem saveReq_serves : serves opAonSettingsSave {} (saveReq romImage) up = true := by
  have e : (saveReq romImage).payload = romImage := rfl
  have p : precheck opAonSettingsSave (saveReq romImage) (taken {} (saveReq romImage) up) = none := by
    unfold precheck
    rw [e, romImage_rsvd]
    decide +kernel
  unfold serves
  rw [p]
  decide +kernel

/-- The ROM defaults are an image to be saved. -/
theorem save_serves : ∃ (m : Moment) (r : Req) (s : State), (serves opAonSettingsSave m r s = true) ∧
    (imageValid (taken m r s) (r.b 0 2048) = true) ∧
    ([0x0E, 0x0F].any (fun g => groupPresent (taken m r s) g && decide (16 ≤ field (r.b 0 2048) (0x10 + g) 1)) = false) := by
  have e : (saveReq romImage).b 0 2048 = romImage := by
    show slice romImage 0 2048 = romImage
    unfold slice
    rw [List.drop_zero]
    exact romImage_length ▸ fit_same romImage
  refine ⟨{}, saveReq romImage, up, saveReq_serves, ?_, ?_⟩ <;> rw [e]
  · exact romImage_valid _
  · have f : ∀ g, g < 64 → field romImage (0x10 + g) 1 = field romHead (0x10 + g) 1 := fun g h => by rw [romImage_eq, field_head (by omega)]
    have k : ∀ g ∈ [0x0E, 0x0F], decide (16 ≤ field romHead (0x10 + g) 1) = false := by decide
    rw [List.any_eq_false]
    intro g hg
    have hlt : g < 64 := by simp at hg; omega
    rw [f g hlt, k g hg, Bool.and_false]
    decide
end Sys2Proof.Machine
end

