-- ==== Sys2Proof/Tests/Slice0.lean ====
section
/-! SUPPORT. Tests: ill-formed commands, small steps with expected results from the manual, and a witness for the hypotheses of
every statement. -/

open Sys2Proof Sys2Proof.Machine

set_option maxRecDepth 20000
set_option linter.unusedVariables false

/-! ### A command that each check of WellFormed refuses -/

theorem test_wf_function : (Instr.evtConsWrite {} 17 0).wellFormed = false := by decide
theorem test_wf_mailbox_pf : (Instr.mbxPost {} 0 256).wellFormed = false := by decide
theorem test_wf_mailbox_vf : (Instr.mbxPost {} 1 64).wellFormed = false := by decide
theorem test_wf_mailbox_last : (Instr.mbxPost {} 16 63).wellFormed = true := by decide
theorem test_wf_vector : (Instr.msixUnmask {} 0 2048).wellFormed = false := by decide
theorem test_wf_bar : (Instr.registerWrite {} 0 2 0 4 0).wellFormed = false := by decide
theorem test_wf_unit : (Instr.chkInit {} 0 8 0).wellFormed = false := by decide
theorem test_wf_request_mailbox : (Instr.nop {} { src := .mailbox 1 64 }).wellFormed = false := by decide
theorem test_wf_request_link : (Instr.nop {} { src := .forwarded 8 0 0 }).wellFormed = false := by decide
theorem test_wf_request_tag : (Instr.nop {} { src := .forwarded 0 (2 ^ 32) 0 }).wellFormed = false := by decide
theorem test_wf_request_device : (Instr.nop {} { src := .device 16 }).wellFormed = false := by decide
theorem test_wf_header_own : (Instr.nop {} { hdr := { own := 2 ^ 32 }, src := .mctp }).wellFormed = false := by decide
theorem test_wf_header_seq : (Instr.nop {} { hdr := { seq := 2 ^ 32 }, src := .mctp }).wellFormed = false := by decide
theorem test_wf_header_opcode : (Instr.nop {} { hdr := { opcode := 2 ^ 16 }, src := .mctp }).wellFormed = false := by decide
theorem test_wf_header_flags : (Instr.nop {} { hdr := { flags := 2 ^ 16 }, src := .mctp }).wellFormed = false := by decide
theorem test_wf_header_partition : (Instr.nop {} { hdr := { partition := 256 }, src := .mctp }).wellFormed = false := by decide
theorem test_wf_header_rsvd0D : (Instr.nop {} { hdr := { rsvd0D := 2 ^ 8 }, src := .mctp }).wellFormed = false := by decide
theorem test_wf_header_payloadLen : (Instr.nop {} { hdr := { payloadLen := 2 ^ 16 }, src := .mctp }).wellFormed = false := by decide
theorem test_wf_header_vector : (Instr.nop {} { hdr := { msixVector := 2 ^ 16 }, src := .mctp }).wellFormed = false := by decide
theorem test_wf_header_rsvd1A : (Instr.nop {} { hdr := { rsvd1A := 2 ^ 16 }, src := .mctp }).wellFormed = false := by decide
theorem test_wf_header_shadow : (Instr.nop {} { hdr := { shadowAddr := 2 ^ 64 }, src := .mctp }).wellFormed = false := by decide
theorem test_wf_header_sg : (Instr.nop {} { hdr := { sgAddr := 2 ^ 64 }, src := .mctp }).wellFormed = false := by decide
theorem test_wf_header_sgCount : (Instr.nop {} { hdr := { sgCount := 2 ^ 32 }, src := .mctp }).wellFormed = false := by decide
theorem test_wf_header_rsvd34 : (Instr.nop {} { hdr := { rsvd34 := 2 ^ 32 }, src := .mctp }).wellFormed = false := by decide
theorem test_wf_packet_psn : (Instr.gxDataReceive {} { psn := 2 ^ 24 }).wellFormed = false := by decide
theorem test_wf_packet_ack : (Instr.gxAckReceive {} { ackPsn := 2 ^ 24 }).wellFormed = false := by decide
theorem test_wf_packet_path : (Instr.gxSealReceive {} { path := 256 }).wellFormed = false := by decide
theorem test_wf_packet_sack : (Instr.rcPacketReceive {} { sack := [2 ^ 24] }).wellFormed = false := by decide
theorem test_wf_payload : (Instr.nop {} { src := .mctp, payload := List.replicate 3969 0 }).wellFormed = false := by
  simp [Instr.wellFormed, okReq]
theorem test_wf_tile : (Instr.layerGroupStart {} 128 [] [] none).wellFormed = false := by decide
theorem test_wf_session : (Instr.autoCastTimer {} (2 ^ 64)).wellFormed = false := by decide
theorem test_wf_link : (Instr.swlTrainTimeout {} 7).wellFormed = false := by decide
theorem test_wf_vc : (Instr.swlCreditReturn {} 0 4 0).wellFormed = false := by decide
theorem test_wf_partition : (Instr.ptnEviction {} 16).wellFormed = false := by decide
theorem test_wf_slot : (Instr.modelLoadComplete {} 64 true).wellFormed = false := by decide
theorem test_wf_generation : (Instr.tablesetDrained {} 65536).wellFormed = false := by decide
theorem test_wf_ring : (Instr.streamConsRead {} 0 1024).wellFormed = false := by decide
theorem test_wf_class : (Instr.gaugeWindowClose {} 65536).wellFormed = false := by decide
theorem test_wf_index_slot : (Instr.tchReclaim {} 0 (2 ^ 32)).wellFormed = false := by decide
theorem test_wf_interface : (Instr.ptpAnnounceTimeout {} 64).wellFormed = false := by decide
theorem test_wf_via : (Instr.getVersion {} 18).wellFormed = false := by decide
theorem test_wf_tier : (Instr.correctedError {} 3 0).wellFormed = false := by decide
theorem test_wf_chip : (Instr.perstNDeassert {} 8 0).wellFormed = false := by decide
theorem test_wf_bootsel : (Instr.perstNDeassert {} 0 2).wellFormed = false := by decide
theorem test_wf_rail : (Instr.railFault {} 11).wellFormed = false := by decide

/-! ### The queue -/

/-- The state that an outcome leads to. -/
def nextOf (o : Out) : State := match o with | .next t => t | _ => State.reset

theorem test_step_idle : step State.reset = .next State.reset := by rfl
theorem test_step_front : (nextOf (step { up with pending := [.mbxPost {} 0 5, .mbxPost {} 0 6] })).pending = [.mbxPost {} 0 6] := by decide
theorem test_no_word : (up.withFetchWord 32 0).pending = [] := by decide

/-! ### Worked examples of the manual -/

/-- 00: chip 3, serial 0x12, index 0x42. -/
theorem test_session_id : mkId 3 0x12 0x42 = 0x6000000012000042 := by decide
/-- 02: chip 2, serial 0x1_2345, index 0x01_A2B3. -/
theorem test_session_id_admitted : mkId 2 0x12345 0x01A2B3 = 0x400001234501A2B3 := by decide
/-- 01: VF 5, serial 0x123. -/
theorem test_handle : 5 * 2 ^ 27 + 0x123 = 0x28000123 ∧
    (nextOf (exec (.longOpAccept {} 1) { upOp with bench := { upOp.bench with
      fns := [(5, { serial := 0x123 })], ops := [(1, { theOp with handle := 0, fn := 5 })] } })).bench.ops.map (fun e => e.2.handle)
      = [0x28000123] := by decide
/-- 01: the serial wraps past 0x7FF_FFFF to 1. -/
theorem test_handle_wraps :
    (fnState (nextOf (exec (.longOpAccept {} 1) { upOp with bench := { upOp.bench with
      fns := [(5, { serial := 0x7FFFFFF })], ops := [(1, { theOp with handle := 0, fn := 5 })] } })) 5).serial = 1 := by decide
/-- 01: position 3,221,225,472 of 12,884,901,888. -/
theorem test_progress_value : permyriad 3221225472 12884901888 = 2500 := by decide
/-- 04: 3 layers, 8 KV heads of dimension 128, FP8: 1,572,864 bytes, a class of 2 MiB. -/
theorem test_page_class :
    Md.pageContent { lgLayers := 3, kvHeads := 8, headDim := 128, kvFormat := 5 } = 1572864 ∧
    Md.pageClass { lgLayers := 3, kvHeads := 8, headDim := 128, kvFormat := 5 } = 21 := by decide
/-- 04: a shared page in HBM of chip 2. -/
theorem test_page_entry :
    Pte.toNat { frame := 0x12340, range := 2, gen := 7, tier := 1, shared := true, resident := true, valid := true }
      = 0x000123400002074B ∧ Pte.addr { frame := 0x12340 } = 0x24680000 := by decide
/-- 05: −2.75 in FP16, BF16, E4M3, E5M2, E2M3, E3M2, E2M1 and INT8. -/
theorem test_convert :
    ([0x9, 0x8, 0x5, 0x6, 0x3, 0x4, 0x2, 0x7].map (fun f => (elemEncode f false (.fin true 11 (-2))).1))
      = [0xC180, 0xC030, 0xC3, 0xC2, 0x33, 0x32, 0xD, 0xFD] := by decide
/-- 03: a block of amax 1.5 with 0.40625 and 2^-9, in FP6: codes of 24, 6 and 0 under scale 123. -/
theorem test_narrow_fp6 :
    (fun q => (q.elems, q.scale)) (quantise 4 [.fin false 3 (-1), .fin false 13 (-5), .fin false 1 (-9)]) = ([0x1E, 0x16, 0], 123) := by decide
/-- 03: the same in FP4: 0.40625 / 0.25 rounds to 1.5. -/
theorem test_narrow_fp4 :
    (fun q => (q.elems, q.scale)) (quantise 2 [.fin false 3 (-1), .fin false 13 (-5)]) = ([7, 3], 125) := by decide
/-- 05: a block whose largest element would need 2^-128 takes scale code 0. -/
theorem test_scale_clamp :
    (fun q => (q.scale, q.clamped)) (quantise 5 [.fin false 448 (-128)]) = (0, true) := by decide
/-- 09: the meter's two admissions and the retry. -/
theorem test_meter_yellow :
    let x : Meter := { cir := 2000, cbs := 3000, pir := 5000, pbs := 5000, tc := 500, tp := 1200, ctLast := 10000000000 }
    let y := x.refill 10100000000
    (y.tc, y.tp, y.colour 0, (y.debit 1).tp) = (700, 1700, 1, 700) := by decide
theorem test_meter_red :
    let y : Meter := { cir := 2000, cbs := 3000, pir := 5000, pbs := 5000, tc := 700, tp := 700, ctLast := 10100000000 }
    let z := y.refill 10150000000
    (z.tc, z.tp, z.colour 0, z.retryCt 10150000000, (z.refill 10160000000).tp) = (800, 950, 2, 10160000000, 1000) := by decide
/-- 09: B(143) and B(144), the p99 of the window and its verdict. -/
theorem test_bucket_edges : bucketFloor 143 = 240387108 ∧ bucketFloor 144 = 262144000 := by decide
theorem test_window :
    let b : MetricBank := { buckets := [(142, 9850), (143, 90), (150, 60)], overTarget := 80 }
    b.pct 2 = 262144000 ∧ b.verdict 250000000 2 = 0 := by decide
/-- 06: a sparse session with W = 2, G = 64 at position 65,400 sees 441 keys of pages 0, 254 and 255. -/
theorem test_sparse_keys :
    visibleCount { aSess with flags := 2 ^ Fl.sparse, windowPages := 2, globalCount := 64 } 65400 = 441 := by decide
/-- 07: the Solder's five tokens with the stop string "\n\nUser:". -/
def userStop : Tb.StopSet := { strings := [[0x0A, 0x0A, 0x55, 0x73, 0x65, 0x72, 0x3A]] }
theorem test_solder_1 : solder userStop [] [] [0x44, 0x6F, 0x6E, 0x65] = { held := [], hold := [], out := [0x44, 0x6F, 0x6E, 0x65] } := by decide
theorem test_solder_2 : solder userStop [] [] [0xE2, 0x9C] = { held := [0xE2, 0x9C], hold := [], out := [] } := by decide
theorem test_solder_3 : solder userStop [0xE2, 0x9C] [] [0x93, 0x0A] = { held := [], hold := [0x0A], out := [0xE2, 0x9C, 0x93] } := by decide
theorem test_solder_4 : solder userStop [] [0x0A] [0x0A, 0x55, 0x73] = { held := [], hold := [0x0A, 0x0A, 0x55, 0x73], out := [] } := by decide
theorem test_solder_5 :
    solder userStop [] [0x0A, 0x0A, 0x55, 0x73] [0x65, 0x72, 0x3A] = { held := [], hold := [], out := [], matched := true } := by decide
theorem test_solder_other :
    (solder userStop [] [0x0A, 0x0A, 0x55, 0x73] [0x65, 0x72, 0x73]).out = [0x0A, 0x0A, 0x55, 0x73, 0x65, 0x72, 0x73] := by decide
/-- 08: the sampling example keeps two tokens and draws token 11; without it, 10 is kept alone. -/
def aSampling : Sampling := { temperature := 0x3F000000, topP := 0x3F4CCCCD, topK := 3 }
def logitRow : List (Nat × F32) := [(10, 0x41000000), (11, 0x40C00000), (12, 0x40800000), (13, 0x40C00000), (14, 0x40400000)]
theorem test_rank : (rank logitRow).map (·.1) = [10, 11, 13, 12, 14] := by decide
theorem test_candidates :
    (candidates { aSampling with bias := [{ token := 15, ban := true, value := 0 }, { token := 14, ban := false, value := 0x3F800000 }] }
      [10, 11, 12, 13, 14, 15] (List.replicate 10 0 ++ [0x40800000, 0x40400000, 0x40000000, 0x40400000, 0x3F000000, 0])).c = logitRow := by decide
set_option exponentiation.threshold 600 in
theorem test_draw : drawToken aSampling logitRow 0x3F680000 = 11 := by decide
set_option exponentiation.threshold 600 in
theorem test_residual : residual aSampling logitRow 11 0x3E99999A = some 10 := by decide
theorem test_recip : f32recip 0x3F000000 = 0x40000000 := by decide
/-- 13: link 2 of chip 2 reaches chip 5, where it is link 4. -/
theorem test_links :
    let c2 : State := { up with elec := { up.elec with chipId := 2 } }
    let c5 : State := { up with elec := { up.elec with chipId := 5 } }
    (linkPeer c2 2, linkTo c2 5, linkTo c5 2, linkPeer c5 4) = (5, 2, 4, 2) := by decide
/-- 15: tile granules 6 to 9 are tiles 48 to 79. -/
theorem test_tiles :
    partTiles { up with hmk := { parts := [(4, { pstate := .active, tileMask := 0x3C0 })] } } 4 = (List.range 32).map (48 + ·) := by decide
/-- 16: U reaches 1,000,000 ns 499.9 s after a loss at an offset of 200 ns. -/
theorem test_uncertainty :
    uncertainty { up with ct := 1399900000000, clk := { up.clk with tstate := .holdover, u0 := 200, oscPpb := 2000, ctHold := 900000000000 } }
      = 1000000 := by decide
/-- 11: the pooled sums before the division, and the spacing that rounds the first. -/
theorem test_gather_round : f32r (.mul (.fin false 1000000 0) (f32v 0x3DCCCCCD)) = 0x47C35000 := by decide
/-- 18: row 40 is BB, and the land in its column 17 lies at −7.99 mm and −29.61 mm. -/
theorem test_land : (landRow 40, landOffset 40, landOffset 17) = (['B', 'B'], -799, -2961) := by decide
/-- 18: 9,216 lands and 1,651 W. -/
theorem test_package : (landGroups.sum, powerBudget.sum) = (9216, 1651) := by decide
/-- CRC-32C of the nine ASCII digits is the polynomial's published check value. -/
theorem test_crc : crc32c [0x31, 0x32, 0x33, 0x34, 0x35, 0x36, 0x37, 0x38, 0x39] = 0xE3069283 := by decide

/-! ### Small steps -/

theorem test_post : (getMbx (nextOf (exec (.mbxPost {} 0 5) up)) 0 5).own = .posted := by decide
theorem test_post_locked : (fnState (nextOf (exec (.mbxPost {} 0 5) upTaken)) 0).violations = 1 := by decide
theorem test_release : (getMbx (nextOf (exec (.mbxRelease {} 0 5) upDone)) 0 5).own = .idle := by decide
theorem test_nop :
    let t := nextOf (exec (.nop {} (opNop.named (cmdReq (u32 1 ++ u32 5)))) up)
    ((getMbx t 0 0).own, (getMbx t 0 0).status, (getMbx t 0 0).resultLen) = (.done, 0, 8) := by decide
theorem test_nop_bad_flag :
    let r := opNop.named (cmdReq (u32 1 ++ u32 5))
    (getMbx (nextOf (exec (.nop {} { r with hdr := { r.hdr with flags := 32 } }) up)) 0 0).status = 4 := by decide
theorem test_vf_needs_pf0 :
    let r := opHmkPartitionSet.named { src := .mailbox 16 63 }
    (getMbx (nextOf (exec (.hmkPartitionSet {} r) upVf)) 16 63).status = 5 := by decide
theorem test_ct_latch : (nextOf (exec (.ctNowLowRead { ct := 2 ^ 32 + 7 } 0) up)).out = [.register 0 7] := by decide

/-! ### A witness for the hypotheses of each statement -/

theorem witness_GenericCommandsAnswer_1 :
    ∃ (m : Moment) (r : Req) (s : State), (serves opNop m r s = true) ∧ (r.f 0 1 % 2 = 1) :=
  ⟨{}, (opNop.named (cmdReq (u32 1 ++ u32 5))), up, by decide⟩

theorem witness_GenericCommandsAnswer_2 :
    ∃ (m : Moment) (r : Req) (s : State) (b : Bytes), (serves opQuery m r s = true) ∧ (queryPage (taken m r s) r.fn (r.f 0 2) =
      some b) :=
  ⟨{}, (opQuery.named (cmdReq (u32 1))), up, u32 256 ++ u32 1024 ++ u32 64 ++ u64 (256 * 2 ^ 30), by decide⟩

theorem witness_GenericCommandsAnswer_3 :
    ∃ (m : Moment) (r : Req) (s : State) (n : Nat) (o : LongOp), (serves opProgress m r s = true) ∧ (opByHandle (taken m r s) r.fn
      (r.f 0 4) = some (n, o)) :=
  ⟨{}, (opProgress.named (cmdReq (u32 7))), upOp, 1, theOp, by decide⟩

theorem witness_GenericCommandsAnswer_4 :
    ∃ (m : Moment) (r : Req) (s : State) (n : Nat) (o : LongOp), (serves opCancel m r s = true) ∧ (opByHandle (taken m r s) r.fn
      (r.f 0 4) = some (n, o)) ∧ (o.cancelling = false) ∧ (o.canCancel = true) :=
  ⟨{}, (opCancel.named (cmdReq (u32 7))), upOp, 1, theOp, by decide⟩

theorem witness_GenericCommandsAnswer_5 :
    ∃ (m : Moment) (r : Req) (s : State), (serves opEventCfg m r s = true) ∧ (r.f 9 1 = 0) :=
  ⟨{}, (opEventCfg.named (cmdReq (zeros 16))), up, by decide⟩

theorem witness_GenericCommandsAnswer_6 :
    ∃ (m : Moment) (r : Req) (s : State), (serves opApertureSet m r s = true) ∧ ((apertureCheck r (taken m r s)).isOk = true) ∧
      (r.f 2 1 = 0) :=
  ⟨{}, (opApertureSet.named (cmdReq (zeros 32))), up, by decide⟩

theorem witness_HostWritesOfTheOwnershipWord_1 :
    ∃ (m : Moment) (fn mbx : Nat) (s : State), (mbxExists fn mbx = true) ∧ (hostReach (s.at m) = true) ∧ (fnRefused (s.at m) fn =
      false) ∧ ((getMbx (s.at m) fn mbx).own = .idle ∨ (getMbx (s.at m) fn mbx).own = .done) :=
  ⟨{}, 0, 255, up, by decide⟩

theorem witness_HostWritesOfTheOwnershipWord_2 :
    ∃ (m : Moment) (fn mbx : Nat) (s : State), (mbxExists fn mbx = true) ∧ (hostReach (s.at m) = true) ∧ (fnRefused (s.at m) fn =
      false) ∧ ((getMbx (s.at m) fn mbx).own ≠ .idle) ∧ ((getMbx (s.at m) fn mbx).own ≠ .done) :=
  ⟨{}, 0, 5, upTaken, by decide⟩

theorem witness_HostWritesOfTheOwnershipWord_3 :
    ∃ (m : Moment) (fn mbx : Nat) (s : State), (mbxExists fn mbx = true) ∧ (hostReach (s.at m) = true) ∧ (fnRefused (s.at m) fn =
      false) ∧ ((getMbx (s.at m) fn mbx).own = .done) :=
  ⟨{}, 0, 5, upDone, by decide⟩

theorem witness_HostWritesOfTheOwnershipWord_4 :
    ∃ (m : Moment) (fn mbx : Nat) (s : State), (mbxExists fn mbx = true) ∧ (hostReach (s.at m) = true) ∧ (fnRefused (s.at m) fn =
      false) ∧ ((getMbx (s.at m) fn mbx).own ≠ .done) :=
  ⟨{}, 0, 5, up, by decide⟩

theorem witness_HostWritesOfTheOwnershipWord_5 :
    ∃ (m : Moment) (fn mbx value : Nat) (s : State), (mbxExists fn mbx = true) ∧ (hostReach (s.at m) = true) ∧ (fnRefused (s.at m)
      fn = false) ∧ (¬(((getMbx (s.at m) fn mbx).own = .idle ∨ (getMbx (s.at m) fn mbx).own = .done) ∧ value = 1)) ∧ (¬((getMbx
      (s.at m) fn mbx).own = .done ∧ value = 0)) :=
  ⟨{}, 0, 5, 2, up, by decide⟩

theorem witness_HostWritesOfTheOwnershipWord_6 :
    ∃ (m : Moment) (fn mbx offset value : Nat) (s : State), (mbxExists fn mbx = true) ∧ (hostReach (s.at m) = true) ∧ (fnRefused
      (s.at m) fn = false) ∧ ((getMbx (s.at m) fn mbx).own ≠ .idle) ∧ ((getMbx (s.at m) fn mbx).own ≠ .done) ∧ (offset < 64 ∨ 128
      ≤ offset) :=
  ⟨{}, 0, 5, 60, 3, upTaken, by decide⟩

theorem witness_HostWritesOfTheOwnershipWord_7 :
    ∃ (m : Moment) (fn mbx offset value : Nat) (s : State), (mbxExists fn mbx = true) ∧ (hostReach (s.at m) = true) ∧ (fnRefused
      (s.at m) fn = false) ∧ (64 ≤ offset) ∧ (offset < 128) :=
  ⟨{}, 0, 5, 64, 3, upTaken, by decide⟩

theorem witness_HostWritesOfTheOwnershipWord_8 :
    ∃ (m : Moment) (fn mbx offset value : Nat) (s : State), (mbxExists fn mbx = true) ∧ (hostReach (s.at m) = true) ∧ (fnRefused
      (s.at m) fn = false) ∧ ((getMbx (s.at m) fn mbx).own = .idle ∨ (getMbx (s.at m) fn mbx).own = .done) ∧ (offset < 64) :=
  ⟨{}, 0, 5, 60, 3, upDone, by decide⟩

theorem witness_HostWritesOfTheOwnershipWord_9 :
    ∃ (m : Moment) (fn mbx offset value : Nat) (s : State), (mbxExists fn mbx = true) ∧ (hostReach (s.at m) = true) ∧ (fnRefused
      (s.at m) fn = false) ∧ ((getMbx (s.at m) fn mbx).own = .idle ∨ (getMbx (s.at m) fn mbx).own = .done) ∧ (128 ≤ offset) :=
  ⟨{}, 0, 5, 4092, 3, upDone, by decide⟩

theorem witness_HostWritesOfTheOwnershipWord_10 :
    ∃ (m : Moment) (fn mbx : Nat) (i : OpInfo) (body : Moment → Req → State → Reply) (s : State), (mbxExists fn mbx = true) ∧
      (watcherTakes (s.at m) fn mbx = true) ∧ (commandOf (mbxReq (s.at m) fn mbx).hdr.opcode = some (i, body)) :=
  ⟨{}, 0, 5, opNop, bodyNop, upPosted, by decide, by decide, rfl⟩

theorem witness_HostWritesOfTheOwnershipWord_11 :
    ∃ (m : Moment) (fn mbx : Nat) (s : State), (mbxExists fn mbx = true) ∧ (watcherTakes (s.at m) fn mbx = true) ∧ (commandOf
      (mbxReq (s.at m) fn mbx).hdr.opcode = none) :=
  ⟨{}, 0, 5, upBad, by decide, by decide, rfl⟩

theorem witness_HostWritesOfTheOwnershipWord_12 :
    ∃ (m : Moment) (fn mbx : Nat) (s : State), (watcherTakes (s.at m) fn mbx = false) :=
  ⟨{}, 0, 5, up, by decide⟩

theorem witness_LongOperationsAdvanceAndEnd_1 :
    ∃ (m : Moment) (op : Nat) (o : LongOp) (s : State), (getOp (s.at m) op = some o) ∧ (o.handle = 0) ∧ (o.orphan = false) :=
  ⟨{}, 2, { theOp with handle := 0 }, { upOp with bench := { upOp.bench with ops := [(2, { theOp with handle := 0 })] } }, by
    decide⟩

theorem witness_LongOperationsAdvanceAndEnd_2 :
    ∃ (m : Moment) (op position : Nat) (o : LongOp) (s : State), (getOp (s.at m) op = some o) ∧ (o.handle ≠ 0) ∧ (position ≤
      o.prog.total) :=
  ⟨{}, 1, 0, theOp, upOp, by decide⟩

theorem witness_LongOperationsAdvanceAndEnd_3 :
    ∃ (m : Moment) (op : Nat) (ok : Bool) (o : LongOp) (s : State), (getOp (s.at m) op = some o) ∧ ((s.at m).swl.reqs = []) :=
  ⟨{}, 1, true, theOp, upOp, by decide⟩

theorem witness_LongOperationsAdvanceAndEnd_4 :
    ∃ (m : Moment) (op : Nat) (o : LongOp) (s : State), (getOp (s.at m) op = some o) ∧ (o.opcode = 0x0E08) ∧ (o.cancelling =
      false) ∧ ((s.at m).swl.reqs = []) :=
  ⟨{}, 1, { theOp with opcode := 0x0E08, args := [2, 7] },
    { upOp with bench := { upOp.bench with ops := [(1, { theOp with opcode := 0x0E08, args := [2, 7] })] } }, by decide⟩

theorem witness_LongOperationsAdvanceAndEnd_5 :
    ∃ (m : Moment) (op : Nat) (o : LongOp) (s : State), (getOp (s.at m) op = some o) ∧ (o.opcode = 0x0F05) ∧ (o.cancelling =
      false) ∧ ((s.at m).swl.reqs = []) :=
  ⟨{}, 1, { theOp with opcode := 0x0F05, args := [1, 7] },
    { upOp with bench := { upOp.bench with ops := [(1, { theOp with opcode := 0x0F05, args := [1, 7] })] } }, by decide⟩

theorem witness_LongOperationsAdvanceAndEnd_6 :
    ∃ (m : Moment) (op : Nat) (o : LongOp) (s : State), (getOp (s.at m) op = some o) ∧ (o.opcode = 0x0F05) ∧ (o.cancelling =
      false) ∧ ((s.at m).swl.reqs = []) :=
  ⟨{}, 1, { theOp with opcode := 0x0F05, args := [1, 7] },
    { upOp with bench := { upOp.bench with ops := [(1, { theOp with opcode := 0x0F05, args := [1, 7] })] } }, by decide⟩

theorem witness_LongOperationsAdvanceAndEnd_7 :
    ∃ (m : Moment) (op : Nat) (ok : Bool) (o : LongOp) (s : State), (getOp (s.at m) op = some o) ∧ (o.opcode = 0x0109) ∧
      (o.cancelling = true) ∧ ((s.at m).swl.reqs = []) :=
  ⟨{}, 1, true, { theOp with cancelling := true },
    { upOp with bench := { upOp.bench with ops := [(1, { theOp with cancelling := true })] } }, by decide⟩

theorem witness_LongOperationsAdvanceAndEnd_8 :
    ∃ (m : Moment) (handle : Nat) (x : Retained) (s : State), (tget (s.at m).bench.retained handle = some x) ∧ (x.ctEnd +
      10000000000 ≤ (s.at m).ct) :=
  ⟨{ ct := 10000000000 }, 7, { fn := 0, ctEnd := 0, endNo := 1, prog := {} },
    { up with bench := { up.bench with retained := [(7, { fn := 0, ctEnd := 0, endNo := 1, prog := {} })] } }, by decide⟩

theorem witness_HostAccessesOfRegistersAndApertures_1 :
    ∃ (m : Moment) (fn vector : Nat) (s : State), (fn ≤ 16) ∧ (vector < 2048) ∧ (hostReach (s.at m) = true) ∧ (fnRefused (s.at m)
      fn = false) ∧ ((fnState (s.at m) fn).msixPend.contains vector = true) :=
  ⟨{}, 0, 2047, { up with bench := { up.bench with fns := [(0, { msixPend := [2047] })] } }, by decide⟩

theorem witness_HostAccessesOfRegistersAndApertures_2 :
    ∃ (m : Moment) (fn vector : Nat) (s : State), (fn ≤ 16) ∧ (vector < 2048) ∧ (hostReach (s.at m) = true) ∧ (fnRefused (s.at m)
      fn = false) ∧ ((fnState (s.at m) fn).msixPend.contains vector = false) :=
  ⟨{}, 16, 2047, upVf, by decide⟩

theorem witness_HostAccessesOfRegistersAndApertures_3 :
    ∃ (m : Moment) (fn value : Nat) (s : State), (fn ≤ 16) ∧ (hostReach (s.at m) = true) ∧ (fnRefused (s.at m) fn = false) ∧
      (EventRing.used { (fnState (s.at m) fn).ring with cons := value % 2 ^ 32 } ≤ 2 ^ (fnState (s.at m) fn).ring.log2) :=
  ⟨{}, 16, 0, upVf, by decide⟩

theorem witness_HostAccessesOfRegistersAndApertures_4 :
    ∃ (m : Moment) (fn value : Nat) (s : State), (fn ≤ 16) ∧ (hostReach (s.at m) = true) ∧ (fnRefused (s.at m) fn = false) ∧ (2 ^
      (fnState (s.at m) fn).ring.log2 < EventRing.used { (fnState (s.at m) fn).ring with cons := value % 2 ^ 32 }) :=
  ⟨{}, 16, 1, upVf, by decide⟩

theorem witness_HostAccessesOfRegistersAndApertures_5 :
    ∃ (m : Moment) (fn offset len : Nat) (a : Aperture) (s : State), (fn ≤ 16) ∧ (offset + len ≤ bar2Size fn) ∧ (hostReach (s.at
      m) = true) ∧ (fnRefused (s.at m) fn = false) ∧ (apertureOf (s.at m) fn offset len = some a) ∧ ((accessGroups (s.at m)
      (a.access fn offset len none)).find? (fun g => (getGroup (s.at m) g).state ≠ 3) = none) ∧ (armedLines (s.at m) (a.access fn
      offset len none) = []) :=
  ⟨{}, 0, 0, 8, theAp, upAp, by decide⟩

theorem witness_HostAccessesOfRegistersAndApertures_6 :
    ∃ (m : Moment) (fn offset len : Nat) (a : Aperture) (s : State), (fn ≤ 16) ∧ (offset + len ≤ bar2Size fn) ∧ (hostReach (s.at
      m) = true) ∧ (fnRefused (s.at m) fn = false) ∧ (apertureOf (s.at m) fn offset len = some a) ∧ ((accessGroups (s.at m)
      (a.access fn offset len none)).find? (fun g => (getGroup (s.at m) g).state ≠ 3) = none) :=
  ⟨{}, 0, 0, 8, theAp, upAp, by decide⟩

theorem witness_HostAccessesOfRegistersAndApertures_7 :
    ∃ (m : Moment) (fn offset len g : Nat) (a : Aperture) (s : State), (fn ≤ 16) ∧ (offset + len ≤ bar2Size fn) ∧ (hostReach (s.at
      m) = true) ∧ (fnRefused (s.at m) fn = false) ∧ (apertureOf (s.at m) fn offset len = some a) ∧ ((accessGroups (s.at m)
      (a.access fn offset len none)).find? (fun g => (getGroup (s.at m) g).state ≠ 3) = some g) :=
  ⟨{}, 0, 0, 8, 0x10, theAp, { upAp with pwr := { groups := [(16, { state := 1 })] } }, by decide⟩

theorem witness_HostAccessesOfRegistersAndApertures_8 :
    ∃ (m : Moment) (fn offset len : Nat) (s : State), (fn ≤ 16) ∧ (offset + len ≤ bar2Size fn) ∧ (hostReach (s.at m) = true) ∧
      (fnRefused (s.at m) fn = false) ∧ (apertureOf (s.at m) fn offset len = none) :=
  ⟨{}, 0, 0x200000, 8, upAp, by decide⟩

theorem witness_HostAccessesOfRegistersAndApertures_9 :
    ∃ (m : Moment) (fn offset : Nat) (data : Bytes) (a : Aperture) (s : State), (fn ≤ 16) ∧ (offset + data.length ≤ bar2Size fn) ∧
      (hostReach (s.at m) = true) ∧ (fnRefused (s.at m) fn = false) ∧ (apertureOf (s.at m) fn offset data.length = some a) ∧
      ((accessGroups (s.at m) (a.access fn offset data.length (some data))).find? (fun g => (getGroup (s.at m) g).state ≠ 3) =
      none) :=
  ⟨{}, 0, 0, [1, 2], theAp, upAp, by decide⟩

theorem witness_HostAccessesOfRegistersAndApertures_10 :
    ∃ (m : Moment) (fn offset g : Nat) (data : Bytes) (a : Aperture) (s : State), (fn ≤ 16) ∧ (offset + data.length ≤ bar2Size fn)
      ∧ (hostReach (s.at m) = true) ∧ (fnRefused (s.at m) fn = false) ∧ (apertureOf (s.at m) fn offset data.length = some a) ∧
      ((accessGroups (s.at m) (a.access fn offset data.length (some data))).find? (fun g => (getGroup (s.at m) g).state ≠ 3) =
      some g) :=
  ⟨{}, 0, 0, 0x10, [1, 2], theAp, { upAp with pwr := { groups := [(16, { state := 1 })] } }, by decide⟩

theorem witness_HostAccessesOfRegistersAndApertures_11 :
    ∃ (m : Moment) (fn offset : Nat) (data : Bytes) (s : State), (fn ≤ 16) ∧ (offset + data.length ≤ bar2Size fn) ∧ (hostReach
      (s.at m) = true) ∧ (fnRefused (s.at m) fn = false) ∧ (apertureOf (s.at m) fn offset data.length = none) :=
  ⟨{}, 0, 0x1FFFFF, [1, 2], upAp, by decide⟩

theorem witness_HostAccessesOfRegistersAndApertures_12 :
    ∃ (m : Moment) (fn offset len value : Nat) (s : State), (fn ≤ 16) ∧ (len = 4 ∨ len = 8) ∧ (offset % len = 0) ∧ (hostReach
      (s.at m) = true) ∧ (fnRefused (s.at m) fn = false) ∧ (offset < 0x8000) :=
  ⟨{}, 16, 0x7FF8, 8, 1, upVf, by decide⟩

theorem witness_HostAccessesOfRegistersAndApertures_13 :
    ∃ (m : Moment) (fn offset len value : Nat) (s : State), (fn ≤ 16) ∧ (len = 4 ∨ len = 8) ∧ (offset % len = 0) ∧ (hostReach
      (s.at m) = true) ∧ (fnRefused (s.at m) fn = false) ∧ (0x8000 ≤ offset) :=
  ⟨{}, 16, 0x8000, 8, 1, upVf, by decide⟩

theorem witness_HostAccessesOfRegistersAndApertures_14 :
    ∃ (m : Moment) (fn bar offset len value : Nat) (s : State), (fn ≤ 16) ∧ (len = 4 ∨ len = 8) ∧ (offset % len = 0) ∧ (hostReach
      (s.at m) = true) ∧ (fnRefused (s.at m) fn = false) ∧ (bar ≠ 0) ∧ (bar ≠ 4) :=
  ⟨{}, 16, 2, 0, 8, 1, upVf, by decide⟩

theorem witness_HostAccessesOfRegistersAndApertures_15 :
    ∃ (m : Moment) (fn offset len value : Nat) (s : State), (fn ≤ 16) ∧ (len = 4 ∨ len = 8) ∧ (offset % len = 0) ∧ (hostReach
      (s.at m) = true) ∧ (fnRefused (s.at m) fn = false) ∧ (0x100000 ≤ offset) ∧ (offset < 0x100000 + mbxCount fn * 0x1000) :=
  ⟨{}, 16, 0x13FFF8, 8, 1, upVf, by decide⟩

theorem witness_HostAccessesOfRegistersAndApertures_16 :
    ∃ (m : Moment) (fn offset len value : Nat) (s : State), (fn ≤ 16) ∧ (len = 4 ∨ len = 8) ∧ (offset % len = 0) ∧ (hostReach
      (s.at m) = true) ∧ (fnRefused (s.at m) fn = false) ∧ (0x200000 ≤ offset) ∧ (offset < 0x200020) :=
  ⟨{}, 16, 0x200010, 8, 1, upVf, by decide⟩

theorem witness_HostAccessesOfRegistersAndApertures_17 :
    ∃ (m : Moment) (fn offset len value : Nat) (s : State), (fn ≤ 16) ∧ (len = 4 ∨ len = 8) ∧ (offset % len = 0) ∧ (hostReach
      (s.at m) = true) ∧ (fnRefused (s.at m) fn = false) ∧ (0x300000 ≤ offset) ∧ (offset < 0x300800) :=
  ⟨{}, 16, 0x300728, 4, 1, upVf, by decide⟩

theorem witness_HostAccessesOfRegistersAndApertures_18 :
    ∃ (m : Moment) (fn offset len value : Nat) (s : State), (fn ≤ 16) ∧ (len = 4 ∨ len = 8) ∧ (offset % len = 0) ∧ (hostReach
      (s.at m) = true) ∧ (fnRefused (s.at m) fn = false) ∧ (offset < 0x100000 ∨ 0x100000 + mbxCount fn * 0x1000 ≤ offset) ∧
      (offset < 0x200000 ∨ 0x200020 ≤ offset) ∧ (offset < 0x300000 ∨ 0x300800 ≤ offset) :=
  ⟨{}, 16, 0x300800, 8, 1, upVf, by decide⟩

theorem witness_HostAccessesOfRegistersAndApertures_19 :
    ∃ (m : Moment) (fn value : Nat) (s : State), (fn ≤ 16) ∧ (hostReach (s.at m) = true) ∧ (fnRefused (s.at m) fn = false) :=
  ⟨{}, 16, 3, upVf, by decide⟩

theorem witness_HostAccessesOfRegistersAndApertures_20 :
    ∃ (m : Moment) (fn : Nat) (s : State), (fn ≤ 16) ∧ (hostReach (s.at m) = true) ∧ (fnRefused (s.at m) fn = false) :=
  ⟨{}, 16, upVf, by decide⟩

theorem witness_HostAccessesOfRegistersAndApertures_21 :
    ∃ (m : Moment) (fn : Nat) (s : State), (fn ≤ 16) ∧ (hostReach (s.at m) = true) ∧ (fnRefused (s.at m) fn = false) :=
  ⟨{}, 16, upVf, by decide⟩

theorem witness_HostAccessesOfRegistersAndApertures_22 :
    ∃ (m : Moment) (fn vector offset len : Nat) (data : Bytes) (s : State), fn ≤ 16 ∧ vector < 2048 ∧ offset + len ≤ bar2Size fn ∧
      offset + data.length ≤ bar2Size fn ∧ (len = 4 ∨ len = 8) ∧ offset % len = 0 ∧ hostReach (s.at m) = true ∧ fnRefused (s.at m)
      fn = true :=
  ⟨{}, 16, 2047, 8, 8, [1], up, by decide⟩

theorem witness_ManagementRequestsRun_1 :
    ∃ (m : Moment) (r : Req) (s : State), ((s.at m).bench.devState = .booting) :=
  ⟨{}, { src := .mctp }, State.reset, by decide⟩

theorem witness_ManagementRequestsRun_2 :
    ∃ (m : Moment) (r : Req) (s : State), ((s.at m).bench.devState ≠ .booting) ∧ (commandOf r.hdr.opcode = none) :=
  ⟨{}, { src := .mctp, hdr := { opcode := 0x0F77 } }, up, by decide, rfl⟩

theorem witness_ManagementRequestsRun_3 :
    ∃ (m : Moment) (r : Req) (i : OpInfo) (body : Moment → Req → State → Reply) (s : State), ((s.at m).bench.devState ≠ .booting)
      ∧ (commandOf r.hdr.opcode = some (i, body)) :=
  ⟨{}, { src := .mctp, hdr := { opcode := 1, payloadLen := 4, msixVector := 0 }, payload := u32 0 }, opQuery, bodyQuery, up, by
    decide, rfl⟩

theorem witness_ManagementRequestsRun_4 :
    ∃ (m : Moment) (r : Req) (i : OpInfo) (body : Moment → Req → State → Reply) (s : State), ((s.at m).bench.devState ≠ .booting)
      ∧ (commandOf r.hdr.opcode = some (i, body)) ∧ (precheck i (({ r with src := .mctp } : Req )) (s.at m) = none) ∧ ((engineOf
      i.opcode (({ r with src := .mctp } : Req ))).all (groupOpen (s.at m)) = true) ∧ ((body m (({ r with src := .mctp } : Req ))
      (s.at m)).pend = false) ∧ (lockedPair (body m (({ r with src := .mctp } : Req )) (s.at m)).st (twinPart
      (({ r with src := .mctp } : Req )) (body m (({ r with src := .mctp } : Req )) (s.at m)).st) = none) :=
  ⟨{}, { src := .mctp, hdr := { opcode := 1, payloadLen := 4, msixVector := 0 }, payload := u32 0 }, opQuery, bodyQuery, up, by
    decide, rfl, by decide, by decide, by decide, by decide⟩

theorem witness_CheckUnitRegistersAndCommands_1 :
    ∃ (m : Moment) (fn unit value : Nat) (s : State), (hostReach (s.at m) = true) ∧ (fnRefused (s.at m) fn = false) ∧ (unit < 8) ∧
      ((getUnit (s.at m) unit).owner = .fn fn) ∧ ((getUnit (s.at m) unit).busy = 0) :=
  ⟨{}, 0, 7, 2, upUnit, by decide⟩

theorem witness_CheckUnitRegistersAndCommands_2 :
    ∃ (m : Moment) (fn unit value : Nat) (s : State), (hostReach (s.at m) = true) ∧ (fnRefused (s.at m) fn = false) ∧ (unit < 8) ∧
      ((getUnit (s.at m) unit).owner = .fn fn) ∧ ((getUnit (s.at m) unit).busy ≠ 0) :=
  ⟨{}, 0, 7, 2, { upUnit with chk := [(7, { owner := .fn 0, busy := 1 })] }, by decide⟩

theorem witness_CheckUnitRegistersAndCommands_3 :
    ∃ (m : Moment) (fn unit value : Nat) (s : State), (hostReach (s.at m) = true) ∧ (fnRefused (s.at m) fn = false) ∧ (8 ≤ unit ∨
      (getUnit (s.at m) unit).owner ≠ .fn fn) :=
  ⟨{}, 0, 6, 2, upUnit, by decide⟩

theorem witness_CheckUnitRegistersAndCommands_4 :
    ∃ (m : Moment) (fn unit value : Nat) (s : State), (hostReach (s.at m) = true) ∧ (fnRefused (s.at m) fn = false) ∧ (unit < 8) ∧
      ((getUnit (s.at m) unit).owner = .fn fn) ∧ ((getUnit (s.at m) unit).busy = 0) :=
  ⟨{}, 0, 7, 2, upUnit, by decide⟩

theorem witness_CheckUnitRegistersAndCommands_5 :
    ∃ (m : Moment) (fn unit value : Nat) (s : State), (hostReach (s.at m) = true) ∧ (fnRefused (s.at m) fn = false) ∧ (unit < 8) ∧
      ((getUnit (s.at m) unit).owner = .fn fn) ∧ ((getUnit (s.at m) unit).busy ≠ 0) :=
  ⟨{}, 0, 7, 2, { upUnit with chk := [(7, { owner := .fn 0, busy := 1 })] }, by decide⟩

theorem witness_CheckUnitRegistersAndCommands_6 :
    ∃ (m : Moment) (fn unit value : Nat) (s : State), (hostReach (s.at m) = true) ∧ (fnRefused (s.at m) fn = false) ∧ (8 ≤ unit ∨
      (getUnit (s.at m) unit).owner ≠ .fn fn) :=
  ⟨{}, 0, 6, 2, upUnit, by decide⟩

theorem witness_CheckUnitRegistersAndCommands_7 :
    ∃ (m : Moment) (fn unit value : Nat) (s : State), (hostReach (s.at m) = true) ∧ (fnRefused (s.at m) fn = false) ∧ (unit < 8) ∧
      ((getUnit (s.at m) unit).owner = .fn fn) ∧ ((getUnit (s.at m) unit).busy = 0) :=
  ⟨{}, 0, 7, 2, upUnit, by decide⟩

theorem witness_CheckUnitRegistersAndCommands_8 :
    ∃ (m : Moment) (fn unit value : Nat) (s : State), (hostReach (s.at m) = true) ∧ (fnRefused (s.at m) fn = false) ∧ (unit < 8) ∧
      ((getUnit (s.at m) unit).owner = .fn fn) ∧ ((getUnit (s.at m) unit).busy ≠ 0) :=
  ⟨{}, 0, 7, 2, { upUnit with chk := [(7, { owner := .fn 0, busy := 1 })] }, by decide⟩

theorem witness_CheckUnitRegistersAndCommands_9 :
    ∃ (m : Moment) (fn unit value : Nat) (s : State), (hostReach (s.at m) = true) ∧ (fnRefused (s.at m) fn = false) ∧ (8 ≤ unit ∨
      (getUnit (s.at m) unit).owner ≠ .fn fn) :=
  ⟨{}, 0, 6, 2, upUnit, by decide⟩

theorem witness_CheckUnitRegistersAndCommands_10 :
    ∃ (m : Moment) (fn unit value : Nat) (s : State), (hostReach (s.at m) = true) ∧ (fnRefused (s.at m) fn = false) ∧ (unit < 8) ∧
      ((getUnit (s.at m) unit).owner = .fn fn) ∧ ((getUnit (s.at m) unit).busy = 0) :=
  ⟨{}, 0, 7, 2, upUnit, by decide⟩

theorem witness_CheckUnitRegistersAndCommands_11 :
    ∃ (m : Moment) (fn unit value : Nat) (s : State), (hostReach (s.at m) = true) ∧ (fnRefused (s.at m) fn = false) ∧ (unit < 8) ∧
      ((getUnit (s.at m) unit).owner = .fn fn) ∧ ((getUnit (s.at m) unit).busy ≠ 0) :=
  ⟨{}, 0, 7, 2, { upUnit with chk := [(7, { owner := .fn 0, busy := 1 })] }, by decide⟩

theorem witness_CheckUnitRegistersAndCommands_12 :
    ∃ (m : Moment) (fn unit value : Nat) (s : State), (hostReach (s.at m) = true) ∧ (fnRefused (s.at m) fn = false) ∧ (8 ≤ unit ∨
      (getUnit (s.at m) unit).owner ≠ .fn fn) :=
  ⟨{}, 0, 6, 2, upUnit, by decide⟩

theorem witness_CheckUnitRegistersAndCommands_13 :
    ∃ (m : Moment) (r : Req) (s : State), (serves opChkClaim m r s = true) ∧ (r.f 0 1 < 8) ∧ (r.f 1 1 < 4) ∧ ((getUnit (taken m r
      s) (r.f 0 1)).owner = .free) :=
  ⟨{}, (opChkClaim.named (cmdReq [3, 2])), up, by decide⟩

theorem witness_CheckUnitRegistersAndCommands_14 :
    ∃ (m : Moment) (r : Req) (s : State), (serves opChkClaim m r s = true) ∧ (r.f 0 1 < 8) ∧ (r.f 1 1 < 4) ∧ ((getUnit (taken m r
      s) (r.f 0 1)).owner ≠ .free) :=
  ⟨{}, (opChkClaim.named (cmdReq [6, 2])), up, by decide⟩

theorem witness_CheckUnitRegistersAndCommands_15 :
    ∃ (m : Moment) (r : Req) (s : State), (serves opChkRelease m r s = true) ∧ (r.f 0 1 < 8) ∧ ((getUnit (taken m r s) (r.f 0
      1)).owner = .fn r.fn) ∧ ((getUnit (taken m r s) (r.f 0 1)).busy = 0) :=
  ⟨{}, (opChkRelease.named (cmdReq [7])), upUnit, by decide⟩

theorem witness_CheckUnitRegistersAndCommands_16 :
    ∃ (m : Moment) (r : Req) (s : State), (serves opChkRelease m r s = true) ∧ (r.f 0 1 < 8) ∧ ((getUnit (taken m r s) (r.f 0
      1)).owner = .fn r.fn) ∧ ((getUnit (taken m r s) (r.f 0 1)).busy ≠ 0) :=
  ⟨{}, (opChkRelease.named (cmdReq [7])), { upUnit with chk := [(7, { owner := .fn 0, busy := 1 })] }, by decide⟩

theorem witness_CheckUnitRegistersAndCommands_17 :
    ∃ (m : Moment) (r : Req) (s : State), (serves opChkRun m r s = true) ∧ (r.f 0 1 < 8) ∧ (r.f 2 1 = 1) ∧ ((getUnit (taken m r s)
      (r.f 0 1)).owner = .fn r.fn) ∧ ((getUnit (taken m r s) (r.f 0 1)).busy = 0) ∧ (r.f 3 1 = 1 ∨ r.f 3 1 = 2) ∧ (r.f 8 8 + r.f
      0x10 8 ≤ partBytes (taken m r s) r.part16 (r.f 3 1)) ∧ (opRoom (taken m r s) r.fn = true) :=
  ⟨{}, (opChkRun.named (cmdReq ([7, 1, 1, 1] ++ u32 0 ++ u64 0 ++ u64 16))), upUnit, by decide⟩

theorem witness_CheckUnitRegistersAndCommands_18 :
    ∃ (m : Moment) (r : Req) (s : State) (l : List SgEntry), (serves opChkRun m r s = true) ∧ (r.f 0 1 < 8) ∧ (r.f 2 1 = 0) ∧
      ((getUnit (taken m r s) (r.f 0 1)).owner = .fn r.fn) ∧ ((getUnit (taken m r s) (r.f 0 1)).busy = 0) ∧ (carried r = false) ∧
      (sgCover r (r.f 0x10 8) (taken m r s) = .ok l) ∧ (opRoom (taken m r s) r.fn = true) :=
  ⟨{}, (opChkRun.named (cmdReq ([7, 0, 0, 0] ++ u32 0 ++ u64 0 ++ u64 0))), upUnit, [], by (refine ⟨?_, ?_, ?_, ?_, ?_, ?_, ?_,
    ?_⟩ <;> first | rfl | decide)⟩

theorem witness_CheckUnitRegistersAndCommands_19 :
    ∃ (m : Moment) (r : Req) (s : State), (serves opChkRun m r s = true) ∧ (r.f 0 1 < 8) ∧ (r.f 2 1 < 2) ∧ ((getUnit (taken m r s)
      (r.f 0 1)).owner ≠ .fn r.fn) :=
  ⟨{}, (opChkRun.named (cmdReq ([6, 1, 1, 1] ++ u32 0 ++ u64 0 ++ u64 16))), upUnit, by decide⟩

theorem witness_CheckUnitRegistersAndCommands_20 :
    ∃ (m : Moment) (r : Req) (s : State), (serves opMldConfig m r s = true) ∧ (r.f 0 1 ≠ 0) ∧ ((setBits 8 (r.f 0 1)).any (fun k =>
      (getUnit (taken m r s) k).claimed) = false) :=
  ⟨{}, (opMldConfig.named (cmdReq [0xC0])), up, by decide⟩

theorem witness_CheckUnitRegistersAndCommands_21 :
    ∃ (m : Moment) (r : Req) (s : State), (serves opMldConfig m r s = true) ∧ (r.f 0 1 = 0 ∨ (setBits 8 (r.f 0 1)).any (fun k =>
      (getUnit (taken m r s) k).claimed) = true) :=
  ⟨{}, (opMldConfig.named (cmdReq [0x80])), upUnit, by decide⟩

theorem witness_SessionsAreAdmitted :
    ∃ (m : Moment) (r : Req) (s : State) (slot i node : Nat), (serves opSessionAdmit m r s = true) ∧ ((admitCheck r.part16
      (admitOf (fit 0x50 r.payload)) (taken m r s)).isOk = true) ∧ ((colourOf (refillMeters (getClass (taken m r s) (admitOf (fit
      0x50 r.payload)).cls) (taken m r s)) (getClass (taken m r s) (admitOf (fit 0x50 r.payload)).cls) (admitOf (fit 0x50
      r.payload)).pre).colour ≠ 2) ∧ (pickSlot m 0 (refillMeters (getClass (taken m r s) (admitOf (fit 0x50 r.payload)).cls)
      (taken m r s)) = some slot) ∧ (pickIdx m 1 (refillMeters (getClass (taken m r s) (admitOf (fit 0x50 r.payload)).cls) (taken
      m r s)).pln.dir dirCount = some i) ∧ ((refillMeters (getClass (taken m r s) (admitOf (fit 0x50 r.payload)).cls) (taken m r
      s)).aon.sessSerial < 2 ^ 37) ∧ ((if (admitOf (fit 0x50 r.payload)).handle = 0 then some 0 else admitNode r.part16 false
      (admitOf (fit 0x50 r.payload)) (refillMeters (getClass (taken m r s) (admitOf (fit 0x50 r.payload)).cls) (taken m r s))) =
      some node) ∧ ((admitPlace m r.part16 (mkId (chip (refillMeters (getClass (taken m r s) (admitOf (fit 0x50 r.payload)).cls)
      (taken m r s))) (refillMeters (getClass (taken m r s) (admitOf (fit 0x50 r.payload)).cls) (taken m r s)).aon.sessSerial i)
      slot (colourOf (refillMeters (getClass (taken m r s) (admitOf (fit 0x50 r.payload)).cls) (taken m r s)) (getClass (taken m r
      s) (admitOf (fit 0x50 r.payload)).cls) (admitOf (fit 0x50 r.payload)).pre).colour node (admitOf (fit 0x50 r.payload))
      (refillMeters (getClass (taken m r s) (admitOf (fit 0x50 r.payload)).cls) (taken m r s))).isOk = true) :=
  ⟨{}, (opSessionAdmit.named (cmdReq ([0, 0] ++ u16 0 ++ u16 0 ++ u16 0xFFFF ++ u32 0 ++ u32 0xFFFFFFFF ++ u64 1 ++ u64 0 ++ u64 0
    ++ u32 100))), upModel, 0, 0, 0, by decide⟩

theorem witness_SessionCommandsTakeEffect_1 :
    ∃ (m : Moment) (r : Req) (s : State) (x : Session), (serves opSessionStop m r s = true) ∧ (locate r (taken m r s) (r.f 0 8) =
      .here (.active x)) ∧ (settled (taken m r s) x = true) ∧ (x.waiting.isEmpty = true) ∧ (x.st = .decode ∨ x.st = .prefill) ∧
      (getSess (taken m r s) (r.f 0 8) = some x) :=
  ⟨{}, (opSessionStop.named (cmdReq (u64 0x1000000))), (upSess aSess), aSess, by decide⟩

theorem witness_SessionCommandsTakeEffect_2 :
    ∃ (m : Moment) (r : Req) (s : State) (x : Session), (serves opSessionRead m r s = true) ∧ (locate r (taken m r s) (r.f 0 8) =
      .here (.active x)) :=
  ⟨{}, (opSessionRead.named (cmdReq (u64 0x1000000))), (upSess aSess), aSess, by decide⟩

theorem witness_SessionCommandsTakeEffect_3 :
    ∃ (m : Moment) (r : Req) (s : State) (e : DirEntry), (serves opSessionRead m r s = true) ∧ (locate r (taken m r s) (r.f 0 8) =
      .here (.parked e)) :=
  ⟨{}, (opSessionRead.named (cmdReq (u64 0x1000000))), upParked, aDir, by decide⟩

theorem witness_SessionCommandsTakeEffect_4 :
    ∃ (m : Moment) (r : Req) (s : State) (x : Session), (serves opSessionSet m r s = true) ∧ (locate r (taken m r s) (r.f 0 8) =
      .here (.active x)) ∧ (settled (taken m r s) x = true) ∧ (x.waiting.isEmpty = true) ∧ (x.st ≠ .faulted) ∧ (x.st ≠ .retiring)
      ∧ (getSess (taken m r s) (r.f 0 8) = some x) ∧ ((setCheck r x (taken m r s)).isOk = true) :=
  ⟨{}, (opSessionSet.named (cmdReq (u64 0x1000000 ++ u32 1 ++ [5]))), (upSess aSess), aSess, by decide⟩

theorem witness_SessionCommandsTakeEffect_5 :
    ∃ (m : Moment) (r : Req) (s : State) (e : DirEntry) (x : Session), (serves opSessionSet m r s = true) ∧ (locate r (taken m r
      s) (r.f 0 8) = .here (.parked e)) ∧ (imageChip e = chip (taken m r s)) ∧ ((getStore (taken m r s) (r.f 0 8)).image = some x)
      ∧ ((setCheck r x (taken m r s)).isOk = true) :=
  ⟨{}, (opSessionSet.named (cmdReq (u64 0x1000000 ++ u32 1 ++ [5]))), upParked, aDir, aSess, by decide⟩

theorem witness_SessionCommandsTakeEffect_6 :
    ∃ (m : Moment) (r : Req) (s : State) (x : Session), (serves opSessionRebind m r s = true) ∧ (locate r (taken m r s) (r.f 0 8)
      = .here (.active x)) ∧ (rebindOpen (taken m r s) x = true) ∧ (x.waiting.isEmpty = true) ∧ (x.st ≠ .faulted) ∧ (x.st ≠
      .retiring) ∧ (bindable (taken m r s) (r.f 8 2) x = true) :=
  ⟨{}, (opSessionRebind.named (cmdReq (u64 0x1000000 ++ u16 0))), { upSess aSess with txt := upModel.txt }, aSess, by decide⟩

theorem witness_SessionCommandsTakeEffect_7 :
    ∃ (m : Moment) (r : Req) (s : State) (e : DirEntry) (x : Session), (serves opSessionRebind m r s = true) ∧ (locate r (taken m
      r s) (r.f 0 8) = .here (.parked e)) ∧ (e.dstate = .parked) ∧ ((getStore (taken m r s) (r.f 0 8)).image = some x) ∧ (bindable
      (taken m r s) (r.f 8 2) x = true) :=
  ⟨{}, (opSessionRebind.named (cmdReq (u64 0x1000000 ++ u16 0))), { upParked with txt := upModel.txt }, aDir, aSess, by decide⟩

theorem witness_SessionCommandsTakeEffect_8 :
    ∃ (m : Moment) (r : Req) (s : State) (x : Session), (serves opSessionRetire m r s = true) ∧ (locate r (taken m r s) (r.f 0 8)
      = .here (.active x)) ∧ (x.st ≠ .retiring) ∧ (retireOpen (taken m r s) x = true) ∧ (x.waiting.all isRebind = true) :=
  ⟨{}, (opSessionRetire.named (cmdReq (u64 0x1000000))), (upSess aSess), aSess, by decide⟩

theorem witness_SessionCommandsTakeEffect_9 :
    ∃ (m : Moment) (r : Req) (s : State) (e : DirEntry), (serves opSessionRetire m r s = true) ∧ (locate r (taken m r s) (r.f 0 8)
      = .here (.parked e)) ∧ (e.dstate = .parked) :=
  ⟨{}, (opSessionRetire.named (cmdReq (u64 0x1000000))), upParked, aDir, by decide⟩

theorem witness_SessionCommandsTakeEffect_10 :
    ∃ (m : Moment) (r : Req) (s : State) (x : Session) (i : Nat) (c : Chain), (serves opSessionArm m r s = true) ∧ (locate r
      (taken m r s) (r.f 0 8) = .here (.active x)) ∧ (holdsBack (taken m r s) x = false) ∧ (laneHas (taken m r s) x.id = false) ∧
      (x.st = .decode ∨ x.st = .toolwait ∨ x.st = .parking) ∧ (r.f 8 4 ≠ ones32) ∧ (chainOf (taken m r s) x.partition (r.f 8 4) =
      some (i, c)) ∧ (c.cstate = .posted) ∧ (tagArmed (disarm x.id (taken m r s)) x.partition c.tag = false) :=
  ⟨{}, (opSessionArm.named (cmdReq (u64 0x1000000 ++ u32 3))), upChain, aSess, 3, aChain, by decide⟩

theorem witness_SessionCommandsTakeEffect_11 :
    ∃ (m : Moment) (r : Req) (s : State) (x : Session), (serves opSessionArm m r s = true) ∧ (locate r (taken m r s) (r.f 0 8) =
      .here (.active x)) ∧ (holdsBack (taken m r s) x = true ∨ laneHas (taken m r s) x.id = true) :=
  ⟨{}, (opSessionArm.named (cmdReq (u64 0x1000000 ++ u32 3))), (upSess { aSess with waiting := [cmdReq []] }),
    { aSess with waiting := [cmdReq []] }, by decide⟩

theorem witness_AppendsAreCutAndCommitted_1 :
    ∃ (m : Moment) (r : Req) (s : State) (x : Session) (b : Bytes) (a : Shorn), (serves opSessionAppend m r s = true) ∧ (r.f 8 1 ≤
      1) ∧ (r.f 9 1 ≤ 1) ∧ (r.f 0x0A 1 = 0 ∨ r.f 0x0A 1 = 2) ∧ (r.f 8 1 = 1 → r.f 0x0C 4 ≤ 3952) ∧ (locate r (taken m r s) (r.f 0
      8) = .here (.active x)) ∧ (holdsBack (taken m r s) x = false) ∧ (intakeState x.st = true) ∧ ((appendData r (taken m r
      s)).toOption = some b) ∧ ((List.range 16).any (fun n => !thas (taken m r s).txt.lanes n) = true) ∧ (laneHas (taken m r s)
      x.id = false) ∧ (b.length ≤ laneShort) ∧ (getSess (chargeLane x.partition b.length (taken m r s)) x.id = some x) ∧ ((shear
      (genImage (chargeLane x.partition b.length (taken m r s)) x.tableGen) (sflag x.flags Fl.utf8Reject) (r.f 9 1 = 1) (r.f 0x0A
      1) (getStore (chargeLane x.partition b.length (taken m r s)) x.id).text b).toOption = some a) ∧ (r.f 9 1 = 1 → x.length +
      a.text.staged ≠ 0) ∧ ((stageToks m x.id a.toks a.text (chargeLane x.partition b.length (taken m r s))).isOk = true) :=
  ⟨{}, (opSessionAppend.named (cmdReq (u64 0x1000000 ++ [1, 0, 0, 0] ++ u32 0))), upTool,
    { aSess with st := .toolwait, autoCastCt := 1 }, [], { text := { intakeOpen := true } }, by decide⟩

theorem witness_AppendsAreCutAndCommitted_2 :
    ∃ (m : Moment) (r : Req) (s : State) (x : Session) (toks : List Nat), (serves opSessionAppendTokens m r s = true) ∧ (r.f 8 1 ≤
      1) ∧ (r.f 0x0A 1 = 4 ∨ r.f 0x0A 1 = 2) ∧ (r.f 8 1 = 1 → r.f 0x0C 4 ≤ 988) ∧ (locate r (taken m r s) (r.f 0 8) = .here
      (.active x)) ∧ (holdsBack (taken m r s) x = false) ∧ (laneHas (taken m r s) x.id = false) ∧ (intakeState x.st = true) ∧
      ((tokenData r (taken m r s)).toOption = some toks) ∧ (toks.all (fun t => decide (t < (getModel (taken m r s)
      x.modelSlot).hdr.vocab)) = true) ∧ ((getStore (taken m r s) x.id).text.intakeOpen = false) ∧ (x.length + toks.length ≠ 0) ∧
      (x.length + toks.length ≤ x.maxLength) ∧ ((stageToks m x.id (toks.map (·, r.f 0x0A 1)) { staged := toks.length } (taken m r
      s)).isOk = true) :=
  ⟨{}, (opSessionAppendTokens.named (cmdReq (u64 0x1000000 ++ [1, 0, 4, 0] ++ u32 1 ++ u32 3))), upTool,
    { aSess with st := .toolwait, autoCastCt := 1 }, [3], by decide⟩

theorem witness_AppendsAreCutAndCommitted_3 :
    ∃ (m : Moment) (lane p : Nat) (j : LaneJob) (s : State), (groupOpen (s.at m) 0x38 = true) ∧ (pick m 0 ((List.range 16).filter
      (fun n => !thas (s.at m).txt.lanes n)) = some lane) ∧ (nextPartition .lane (laneParts (s.at m)) (wakeParts .lane (laneParts
      (s.at m)) (s.at m)) = some p) ∧ ((laneReady (s.at m)).find? (fun j => j.partition = p) = some j) :=
  ⟨{}, 0, 0, aJob, upLane, by decide⟩

theorem witness_SessionReadsAndSettings_1 :
    ∃ (m : Moment) (r : Req) (s : State), (serves opSessionList m r s = true) ∧ (r.f 0 2 < 8192) ∧ (r.f 2 1 ≤ 63 ∨ r.f 2 1 = 0xFF)
      ∧ ((sgList r (taken m r s)).isOk = true) ∧ (opRoom (taken m r s) r.fn = true) :=
  ⟨{}, (opSessionList.named (cmdReq (u16 0x1FFF ++ [0xFF]))), up, by decide⟩

theorem witness_SessionReadsAndSettings_2 :
    ∃ (m : Moment) (r : Req) (s : State) (h : Held) (l : List SgEntry), (serves opJournalRead m r s = true) ∧ (locate r (taken m r
      s) (r.f 0 8) = .here h) ∧ (storeHere (taken m r s) h = true) ∧ ((entryOf (taken m r s) (r.f 0 8) h).prefixLen ≤ r.f 8 4) ∧
      (r.f 8 4 + r.f 0x0C 4 ≤ (entryOf (taken m r s) (r.f 0 8) h).length) ∧ ((sgCover r (4 * r.f 0x0C 4) (taken m r s)).toOption =
      some l) ∧ ((sgWrite l ((((getStore (taken m r s) (r.f 0 8)).journal.drop (r.f 8 4 - (entryOf (taken m r s) (r.f 0 8)
      h).prefixLen)).take (r.f 0x0C 4)).flatMap u32) (taken m r s)).2 = none) :=
  ⟨sgAt, (opJournalRead.named (sgReq (u64 0x1000000 ++ u32 2 ++ u32 3))), (upSess aSess), .active aSess,
    [{ idx := 0, addr := 0x2000, len := 2048 }], by decide⟩

theorem witness_SessionReadsAndSettings_3 :
    ∃ (m : Moment) (r : Req) (s : State), (serves opPlnConfig m r s = true) ∧ (r.f 0 4 ≤ 1000000) ∧ (8192 ≤ r.f 4 4) ∧ (r.f 4 4 ≤
      65536) ∧ (r.f 4 4 % 256 = 0) ∧ (r.f 8 4 + 1024 ≤ r.f 4 4) ∧ (r.f 8 4 % 256 = 0) ∧ (r.f 0x0C 4 = 0 ∨ r.f 0x0C 4 < r.f 0x10 4)
      ∧ (r.f 0x14 1 ≤ 2) ∧ (r.f 0x15 1 ≤ 2) :=
  ⟨{}, (opPlnConfig.named (cmdReq (u32 1000 ++ u32 16384 ++ u32 8192 ++ u32 0 ++ u32 0))), up, by decide⟩

theorem witness_SessionReadsAndSettings_4 :
    ∃ (m : Moment) (r : Req) (s : State) (x : Session), (serves opFinSet m r s = true) ∧ (locate r (taken m r s) (r.f 0 8) = .here
      (.active x)) ∧ (settled (taken m r s) x = true) ∧ (x.waiting.isEmpty = true) ∧ (x.st ≠ .faulted) ∧ (x.st ≠ .retiring) ∧
      (finSetOk r (Tb.vocab (genImage (taken m r s) x.tableGen)) = true) :=
  ⟨{}, (opFinSet.named (cmdReq (u64 0x1000000 ++ [1, 0, 0, 0] ++ u32 0x3F800000))), (upSess aSess), aSess, by decide⟩

theorem witness_SessionReadsAndSettings_5 :
    ∃ (m : Moment) (r : Req) (s : State) (h : Held), (serves opFinRead m r s = true) ∧ (locate r (taken m r s) (r.f 0 8) = .here
      h) ∧ (storeHere (taken m r s) h = true) ∧ (h.faulted = false) :=
  ⟨{}, (opFinRead.named (cmdReq (u64 0x1000000))), (upSess aSess), .active aSess, by decide⟩

theorem witness_SessionReadsAndSettings_6 :
    ∃ (m : Moment) (r : Req) (s : State) (x : TableSet), (serves opGrammarCheck m r s = true) ∧ (r.f 4 4 ≤ 988) ∧ (genServing r
      (taken m r s) (r.f 0 2) = some x) ∧ (r.f 2 2 < Tb.grammarCount x.image) :=
  ⟨{}, (opGrammarCheck.named (cmdReq (u16 0 ++ u16 0 ++ u32 0))), upGrammar, aGrammarSet, by decide⟩

theorem witness_SessionReadsAndSettings_7 :
    ∃ (m : Moment) (r : Req) (s : State), (serves opSpinDraw m r s = true) ∧ (r.f 8 4 ≤ 0xFFFFFF) ∧ (r.f 0x0C 4 ≤ 0xFFFFFF) ∧ (r.f
      0x10 1 ≤ 2) :=
  ⟨{}, (opSpinDraw.named (cmdReq (u64 1 ++ u32 0xFFFFFF ++ u32 2 ++ [2]))), up, by decide⟩

theorem witness_SessionReadsAndSettings_8 :
    ∃ (m : Moment) (id : Nat) (x : Session) (s : State), (getSess (s.at m) id = some x) ∧ (x.st = .toolwait) ∧ (x.autoCastCt ≠ 0)
      ∧ (x.autoCastCt ≤ (s.at m).ct) ∧ (isShadow (s.at m) id = false) :=
  ⟨{ ct := 1 }, 0x1000000, { aSess with st := .toolwait, autoCastCt := 1 }, upTool, by decide⟩

theorem witness_SessionReadsAndSettings_9 :
    ∃ (m : Moment) (w : RaiseWait) (s : State), (nextRaise (s.at m) = some w) ∧ (mustWait m (s.at m) = false) :=
  ⟨{}, { session := 0x1000000, priority := 0 }, upQueued, by decide⟩

theorem witness_BatchesAreDispatched_1 :
    ∃ (m : Moment) (w : Want) (s : State), (batching (s.at m) = true) ∧ ((testAll m (s.at m)).1.all (fun x => (grantStop (testAll
      m (s.at m)).2 x.want).isNone) = true) ∧ (twinWants (testAll m (s.at m)).2 (testAll m (s.at m)).1 = []) ∧ ((sortBy (fun a b
      => keyLe (orderKey (testAll m (s.at m)).2 a.id) (orderKey (testAll m (s.at m)).2 b.id)) (((testAll m (s.at m)).1.filter (fun
      x => x.credit && x.fair && (x.want.rebuild || !isShadow (testAll m (s.at m)).2 x.want.id))).map (·.want))).find? (fun w =>
      spanFree (testAll m (s.at m)).2 (batchOf (testAll m (s.at m)).2 w.id).1) = some w) ∧ (closesNow (testAll m (s.at m)).2 w.id
      (fillBatch (testAll m (s.at m)).2 (batchOf (testAll m (s.at m)).2 w.id).1 ((sortBy (fun a b => keyLe (orderKey (testAll m
      (s.at m)).2 a.id) (orderKey (testAll m (s.at m)).2 b.id)) (((testAll m (s.at m)).1.filter (fun x => x.credit && x.fair &&
      (x.want.rebuild || !isShadow (testAll m (s.at m)).2 x.want.id))).map (·.want))).filter (fun v => batchOf (testAll m (s.at
      m)).2 v.id = (batchOf (testAll m (s.at m)).2 w.id))) ((sortBy (fun a b => keyLe (orderKey (testAll m (s.at m)).2 a.id)
      (orderKey (testAll m (s.at m)).2 b.id)) (((testAll m (s.at m)).1.filter (fun x => x.credit && x.fair && (x.want.rebuild ||
      !isShadow (testAll m (s.at m)).2 x.want.id))).map (·.want))).filter (fun v => v.chunk ≠ 0 && (batchOf (testAll m (s.at m)).2
      v.id).1 = (batchOf (testAll m (s.at m)).2 w.id).1 && (batchOf (testAll m (s.at m)).2 v.id).2.1 = (batchOf (testAll m (s.at
      m)).2 w.id).2.1)).length) = true) ∧ ((grantItems m (testAll m (s.at m)).2.pln.nextInv (fillBatch (testAll m (s.at m)).2
      (batchOf (testAll m (s.at m)).2 w.id).1 ((sortBy (fun a b => keyLe (orderKey (testAll m (s.at m)).2 a.id) (orderKey (testAll
      m (s.at m)).2 b.id)) (((testAll m (s.at m)).1.filter (fun x => x.credit && x.fair && (x.want.rebuild || !isShadow (testAll m
      (s.at m)).2 x.want.id))).map (·.want))).filter (fun v => batchOf (testAll m (s.at m)).2 v.id = (batchOf (testAll m (s.at
      m)).2 w.id))) ((sortBy (fun a b => keyLe (orderKey (testAll m (s.at m)).2 a.id) (orderKey (testAll m (s.at m)).2 b.id))
      (((testAll m (s.at m)).1.filter (fun x => x.credit && x.fair && (x.want.rebuild || !isShadow (testAll m (s.at m)).2
      x.want.id))).map (·.want))).filter (fun v => v.chunk ≠ 0 && (batchOf (testAll m (s.at m)).2 v.id).1 = (batchOf (testAll m
      (s.at m)).2 w.id).1 && (batchOf (testAll m (s.at m)).2 v.id).2.1 = (batchOf (testAll m (s.at m)).2 w.id).2.1)).length).items
      (countHolds (batchOf (testAll m (s.at m)).2 w.id).1 (batchOf (testAll m (s.at m)).2 w.id).2.1 (testAll m (s.at m)).1
      (testAll m (s.at m)).2)).1 ≠ []) :=
  ⟨{ ct := 20000 }, { id := aRun.id, start := 10 }, upRun, by decide⟩

theorem witness_BatchesAreDispatched_2 :
    ∃ (m : Moment) (w : Want) (s : State), (batching (s.at m) = true) ∧ ((testAll m (s.at m)).1.all (fun x => (grantStop (testAll
      m (s.at m)).2 x.want).isNone) = true) ∧ (twinWants (testAll m (s.at m)).2 (testAll m (s.at m)).1 = []) ∧ ((sortBy (fun a b
      => keyLe (orderKey (testAll m (s.at m)).2 a.id) (orderKey (testAll m (s.at m)).2 b.id)) (((testAll m (s.at m)).1.filter (fun
      x => x.credit && x.fair && (x.want.rebuild || !isShadow (testAll m (s.at m)).2 x.want.id))).map (·.want))).find? (fun w =>
      spanFree (testAll m (s.at m)).2 (batchOf (testAll m (s.at m)).2 w.id).1) = some w) ∧ (closesNow (testAll m (s.at m)).2 w.id
      (fillBatch (testAll m (s.at m)).2 (batchOf (testAll m (s.at m)).2 w.id).1 ((sortBy (fun a b => keyLe (orderKey (testAll m
      (s.at m)).2 a.id) (orderKey (testAll m (s.at m)).2 b.id)) (((testAll m (s.at m)).1.filter (fun x => x.credit && x.fair &&
      (x.want.rebuild || !isShadow (testAll m (s.at m)).2 x.want.id))).map (·.want))).filter (fun v => batchOf (testAll m (s.at
      m)).2 v.id = (batchOf (testAll m (s.at m)).2 w.id))) ((sortBy (fun a b => keyLe (orderKey (testAll m (s.at m)).2 a.id)
      (orderKey (testAll m (s.at m)).2 b.id)) (((testAll m (s.at m)).1.filter (fun x => x.credit && x.fair && (x.want.rebuild ||
      !isShadow (testAll m (s.at m)).2 x.want.id))).map (·.want))).filter (fun v => v.chunk ≠ 0 && (batchOf (testAll m (s.at m)).2
      v.id).1 = (batchOf (testAll m (s.at m)).2 w.id).1 && (batchOf (testAll m (s.at m)).2 v.id).2.1 = (batchOf (testAll m (s.at
      m)).2 w.id).2.1)).length) = true) ∧ ((grantItems m (testAll m (s.at m)).2.pln.nextInv (fillBatch (testAll m (s.at m)).2
      (batchOf (testAll m (s.at m)).2 w.id).1 ((sortBy (fun a b => keyLe (orderKey (testAll m (s.at m)).2 a.id) (orderKey (testAll
      m (s.at m)).2 b.id)) (((testAll m (s.at m)).1.filter (fun x => x.credit && x.fair && (x.want.rebuild || !isShadow (testAll m
      (s.at m)).2 x.want.id))).map (·.want))).filter (fun v => batchOf (testAll m (s.at m)).2 v.id = (batchOf (testAll m (s.at
      m)).2 w.id))) ((sortBy (fun a b => keyLe (orderKey (testAll m (s.at m)).2 a.id) (orderKey (testAll m (s.at m)).2 b.id))
      (((testAll m (s.at m)).1.filter (fun x => x.credit && x.fair && (x.want.rebuild || !isShadow (testAll m (s.at m)).2
      x.want.id))).map (·.want))).filter (fun v => v.chunk ≠ 0 && (batchOf (testAll m (s.at m)).2 v.id).1 = (batchOf (testAll m
      (s.at m)).2 w.id).1 && (batchOf (testAll m (s.at m)).2 v.id).2.1 = (batchOf (testAll m (s.at m)).2 w.id).2.1)).length).items
      (countHolds (batchOf (testAll m (s.at m)).2 w.id).1 (batchOf (testAll m (s.at m)).2 w.id).2.1 (testAll m (s.at m)).1
      (testAll m (s.at m)).2)).1 ≠ []) :=
  ⟨{ ct := 20000 }, { id := aRun.id, start := 10 }, upRun, by decide⟩

theorem witness_InvocationsRunAndCommit_1 :
    ∃ (m : Moment) (serial : Nat) (v : Invocation) (s : State), (tget (s.at m).tile.invs serial = some v) ∧ (v.resident = false) ∧
      ((s.at m).tile.invs.all (fun e => e.1 = serial || e.2.resident || !meetsSpan e.2 v || invLe (serial, v) e) = true) ∧
      ((setBits 16 v.spanMask).all (fun g => decide (slotsUsed (s.at m) g + (getModel (s.at m) v.slot).hdr.ctxSlots ≤ 4)) = true) :=
  ⟨{}, 7, anInv, (upInv anInv aRun), by decide⟩

theorem witness_InvocationsRunAndCommit_2 :
    ∃ (m : Moment) (tile serial : Nat) (att : List AttIn) (ops : List LayerOp) (v : Invocation) (rest : List (Nat × Invocation))
      (s : State), (tile < tileCount (s.at m)) ∧ (tileQueue (tileBoundary tile (s.at m)) tile = (serial, v) :: rest) ∧ (invReady
      (tileBoundary tile (s.at m)) v = true) ∧ (weightsIn m 0 = true) ∧ ((tileBoundary tile (s.at m)).tile.invs.all (fun e =>
      e.2.running.isNone || !meetsSpan e.2 v) = true) ∧ (ops.all (fun o => opOk o.op) = true) :=
  ⟨{}, 5, 7, [], [], { anInv with resident := true }, [], (upInv { anInv with resident := true, running := some 0 } aRun), by
    decide⟩

theorem witness_InvocationsRunAndCommit_3 :
    ∃ (m : Moment) (tile serial k : Nat) (att : List AttIn) (ops : List LayerOp) (fault : Option Nat) (v : Invocation) (rest :
      List (Nat × Invocation)) (s : State), (tile < tileCount (s.at m)) ∧ (tileQueue (tileBoundary tile (s.at m)) tile = (serial,
      v) :: rest) ∧ (invReady (tileBoundary tile (s.at m)) v = true) ∧ (weightsIn m 0 = true) ∧ ((tileBoundary tile (s.at
      m)).tile.invs.all (fun e => e.2.running.isNone || !meetsSpan e.2 v) = true) ∧ (imageFault ops fault = some k) :=
  ⟨{}, 5, 7, 5, [], [], some 5, { anInv with resident := true }, [], (upInv { anInv with resident := true, running := some 0 }
    aRun), by decide⟩

theorem witness_InvocationsRunAndCommit_4 :
    ∃ (m : Moment) (serial t : Nat) (v : Invocation) (s : State), (tget (s.at m).tile.invs serial = some v) ∧ (v.running = some t)
      ∧ (t + 100000000 < (s.at m).ct) :=
  ⟨{ ct := 100000001 }, 7, 0, { anInv with running := some 0 }, (upInv { anInv with running := some 0 } aRun), by decide⟩

theorem witness_InvocationsRunAndCommit_5 :
    ∃ (m : Moment) (serial : Nat) (rows : List RowIn) (v : Invocation) (r : InvRow) (f : InFlight) (s : State), (tget (s.at
      m).tile.invs serial = some v) ∧ (v.rows = [r]) ∧ (finishedItem (s.at m) serial r.session = some (r, f)) ∧ (r.chunk = 0) :=
  ⟨{}, 7, [], { anInv with lg := 1 }, aRow, aFlight, (upInv { anInv with lg := 1 } { aRun with inflight := some aFlight }), by
    decide⟩

theorem witness_InvocationsRunAndCommit_6 :
    ∃ (m : Moment) (serial : Nat) (rows : List RowIn) (v : Invocation) (s : State), (tget (s.at m).tile.invs serial = some v) ∧
      (v.rows.all (fun r => (finishedItem (s.at m) serial r.session).isSome && r.chunk = 0) = true) :=
  ⟨{}, 7, [], { anInv with lg := 1 }, (upInv { anInv with lg := 1 } { aRun with inflight := some aFlight }), by decide⟩

theorem witness_InvocationsRunAndCommit_7 :
    ∃ (m : Moment) (serial : Nat) (row : RowIn) (r : InvRow) (f : InFlight) (s : State), (finishedItem (s.at m) serial row.session
      = some (r, f)) ∧ (r.chunk ≠ 0) ∧ (r.rebuild = false) :=
  ⟨{}, 7, { session := aRun.id }, { aRow with chunk := 256 }, { aFlight with chunk := 256 }, (upInv
    { anInv with lg := 1, rows := [{ aRow with chunk := 256 }] } { aRun with inflight := some { aFlight with chunk := 256 } }), by
    decide⟩

theorem witness_FoundryCommandsStart_1 :
    ∃ (m : Moment) (r : Req) (s : State) (x : Session), (serves opFdyCast m r s = true) ∧ (1 ≤ r.f 8 1 ∧ r.f 8 1 ≤ 2) ∧ (r.f 9 1 ≤
      2) ∧ (locate r (taken m r s) (r.f 0 8) = .here (.active x)) ∧ (x.st = .decode ∨ x.st = .toolwait ∨ x.st = .stopped) ∧
      (settled (taken m r s) x = true) ∧ (x.waiting.isEmpty = true) ∧ (moving (taken m r s) x.id = false) ∧ (moveOps (taken m r s)
      < 4096) ∧ (opStarts (taken m r s) r = true) :=
  ⟨{}, (opFdyCast.named (cmdReq (u64 0x1000000 ++ [1, 0, 0, 0]))), (upSess aSess), aSess, by decide⟩

theorem witness_FoundryCommandsStart_2 :
    ∃ (m : Moment) (r : Req) (s : State) (e : DirEntry) (slot : Nat), (serves opFdyRaise m r s = true) ∧ (r.f 0 8 ≠ 0) ∧ (r.f 9 1
      = 0xFF ∨ r.f 9 1 = chip (taken m r s)) ∧ (bit (r.f 8 1) 0 = false) ∧ (chip (taken m r s) ≤ 7) ∧ ((fopOf (taken m r s) (r.f 0
      8) [.runAhead]).isNone = true) ∧ (getDir (taken m r s) (r.f 0 8) = some e) ∧ (r.reaches e.partition = true) ∧ (e.dstate =
      .parked) ∧ (genResident (taken m r s) e.tableGen e.partition e.modelSlot = true) ∧ (moveOps (taken m r s) < 4096) ∧
      (pickSlot m 0 (taken m r s) = some slot) ∧ (opStarts (taken m r s) r = true) :=
  ⟨{}, (opFdyRaise.named (cmdReq (u64 0x1000000 ++ [0, 0xFF]))), { upParked with txt := upModel.txt }, aDir, 0, by decide⟩

theorem witness_FoundryCommandsStart_3 :
    ∃ (m : Moment) (r : Req) (s : State) (x : Session), (serves opFdyMigrate m r s = true) ∧ (r.f 8 1 = 0) ∧ (r.f 9 1 ≤ 7) ∧ (r.f
      9 1 ≠ chip (taken m r s)) ∧ (locate r (taken m r s) (r.f 0 8) = .here (.active x)) ∧ (x.st = .admitted ∨ x.st = .prefill ∨
      x.st = .decode ∨ x.st = .toolwait ∨ x.st = .stopped) ∧ (lockedPair (taken m r s) x.partition = none) ∧ (armed (taken m r s)
      x = false) ∧ (settled (taken m r s) x = true) ∧ (x.waiting.isEmpty = true) ∧ (moving (taken m r s) x.id = false) ∧ (moveOps
      (taken m r s) < 4096) ∧ (linkUp (taken m r s) (r.f 9 1) = true) ∧ (opStarts (taken m r s) r = true) :=
  ⟨{}, (opFdyMigrate.named (cmdReq (u64 0x1000000 ++ [0, 1]))), (upLink (upSess aSess)), aSess, by decide⟩

theorem witness_FoundryCommandsStart_4 :
    ∃ (m : Moment) (r : Req) (s : State) (l : List SgEntry), (serves opFdyDirRead m r s = true) ∧ (r.f 0 4 + r.f 4 4 ≤ dirCount) ∧
      ((sgCover r (128 * r.f 4 4) (taken m r s)).toOption = some l) ∧ ((sgWrite l (dirRecords r (r.f 0 4) (r.f 4 4) (taken m r s))
      (taken m r s)).2 = none) :=
  ⟨sgAt, (opFdyDirRead.named (sgReq (u32 0 ++ u32 1))), upParked, [{ idx := 0, addr := 0x2000, len := 2048 }], by decide⟩

theorem witness_FoundryCommandsStart_5 :
    ∃ (m : Moment) (r : Req) (s : State), (serves opFdyConfig m r s = true) ∧ (1 ≤ r.f 0 1) ∧ (r.f 0 1 ≤ 16) ∧ (1000000 ≤ r.f 4 4)
      ∧ (r.f 4 4 ≤ 1000000000) ∧ (50000 ≤ r.f 8 4) ∧ (r.f 8 4 ≤ 100000000) :=
  ⟨{}, (opFdyConfig.named (cmdReq (u32 16 ++ u32 1000000 ++ u32 50000))), up, by decide⟩

theorem witness_FoundryCommandsStart_6 :
    ∃ (m : Moment) (r : Req) (s : State) (b : Bytes), (serves opFdySubmit m r s = true) ∧ ((partGate opFdySubmit r (r.f 0 1)
      (taken m r s)).isOk = true) ∧ ((inData r (64 * r.f 4 4) (taken m r s)).toOption = some b) ∧ (((List.range (r.f 4 4)).map
      (fun i => slice b (64 * i) 64)).all (copyOk (taken m r s) (r.f 0 1)) = true) ∧ (r.f 4 4 ≠ 0) ∧ (opRoom (taken m r s) r.fn =
      true) :=
  ⟨{ host := [(0x1000, u64 0x2000 ++ u32 2048), (0x2000, aCopy)] }, (opFdySubmit.named (sgReq (u32 0 ++ u32 1))), up, aCopy, by
    decide⟩

theorem witness_FoundryCommandsStart_7 :
    ∃ (m : Moment) (r : Req) (s : State) (e : DirEntry), (serves opFdyExportRelease m r s = true) ∧ (getDir (taken m r s) (r.f 0
      8) = some e) ∧ (r.reaches e.partition = true) ∧ (e.dstate = .exported) :=
  ⟨{}, (opFdyExportRelease.named (cmdReq (u64 0x1000000))),
    { upParked with pln := { upParked.pln with dir := [(0, { aDir with dstate := .exported })] } },
    { aDir with dstate := .exported }, by decide⟩

theorem witness_DescriptorsAndTimersOfTheFoundry_1 :
    ∃ (m : Moment) (engine n : Nat) (d : Desc) (s : State), (engine < 16) ∧ (groupOpen (s.at m) 0x37 = true) ∧ ((s.at
      m).fdy.store.any (fun e => e.2.engine = some engine) = false) ∧ (nextDesc (s.at m) = some (n, d)) :=
  ⟨{}, 15, 4, aDesc, (upDesc aDesc), by decide⟩

theorem witness_DescriptorsAndTimersOfTheFoundry_2 :
    ∃ (m : Moment) (n : Nat) (d : Desc) (b : Bytes) (s : State), (tget (s.at m).fdy.store n = some d) ∧ (d.engine.isSome = true) ∧
      ((getFop (s.at m) d.fop).any (fopCancelling (s.at m)) = false) ∧ ((descBytes (s.at m) n d).map Except.toOption = some (some
      b)) ∧ ((d.kind = .copy && d.data.isNone) = false) :=
  ⟨{}, 4, { aDesc with engine := some 3, data := some (zeros 64) }, zeros 64, (upDesc
    { aDesc with engine := some 3, data := some (zeros 64) }), by decide⟩

theorem witness_DescriptorsAndTimersOfTheFoundry_3 :
    ∃ (m : Moment) (n : Nat) (d : Desc) (b : Bytes) (s : State), (tget (s.at m).fdy.store n = some d) ∧ (d.engine.isSome = true) ∧
      ((getFop (s.at m) d.fop).any (fopCancelling (s.at m)) = false) ∧ ((descBytes (s.at m) n d).map Except.toOption = some (some
      b)) ∧ ((d.kind = .copy && d.data.isNone) = true) :=
  ⟨{}, 4, { aDesc with engine := some 3, kind := .copy }, zeros 64, (upDesc { aDesc with engine := some 3, kind := .copy }), by
    decide⟩

theorem witness_DescriptorsAndTimersOfTheFoundry_4 :
    ∃ (m : Moment) (n st : Nat) (d : Desc) (s : State), (tget (s.at m).fdy.store n = some d) ∧ (d.engine.isSome = true) ∧ ((getFop
      (s.at m) d.fop).any (fopCancelling (s.at m)) = false) :=
  ⟨{}, 4, 1, { aDesc with engine := some 3 }, (upDesc { aDesc with engine := some 3 }), by decide⟩

theorem witness_DescriptorsAndTimersOfTheFoundry_5 :
    ∃ (m : Moment) (fop : Nat) (f : Fop) (s : State), (getFop (s.at m) fop = some f) ∧ (f.kind = .runAhead) ∧ (f.ctStart + f.ttl ≤
      (s.at m).ct) ∧ ((s.at m).pln.raiseWait.any (fun w => w.fop = fop) = false) :=
  ⟨{ ct := 10000000 }, 1, { aFop with kind := .runAhead },
    { up with fdy := { up.fdy with ops := [(1, { aFop with kind := .runAhead })] } }, by decide⟩

theorem witness_DescriptorsAndTimersOfTheFoundry_6 :
    ∃ (m : Moment) (n : Nat) (d : Desc) (s : State), (tget (s.at m).fdy.store n = some d) ∧ (d.engine.isSome = true) ∧ (d.srcTier
      = 3) ∧ (d.ctIssue + ((getFop (s.at m) d.fop).map (·.pullTo)).getD (s.at m).fdy.pullTo ≤ (s.at m).ct) ∧ ((msgOf (s.at m)
      (.pull n)).any (fun x => x.2.2.done) = false) :=
  ⟨{ ct := 500000 }, 4, { aDesc with engine := some 3, srcTier := 3 }, (upDesc { aDesc with engine := some 3, srcTier := 3 }), by
    decide⟩

theorem witness_SessionsMoveBetweenChips_1 :
    ∃ (m : Moment) (link tag : Nat) (x : MigrateIn) (s : State), ((swlGot link 2 (x.pages.map (fun e => e.2.length)).sum (swlGot
      link 0 0 (s.at m))).bench.devState ≠ .frozen) ∧ ((swlGot link 2 (x.pages.map (fun e => e.2.length)).sum (swlGot link 0 0
      (s.at m))).err.shutdown.isNone = true) ∧ (getSess (swlGot link 2 (x.pages.map (fun e => e.2.length)).sum (swlGot link 0 0
      (s.at m))) x.entry.id = none) ∧ (lacks (swlGot link 2 (x.pages.map (fun e => e.2.length)).sum (swlGot link 0 0 (s.at m)))
      x.entry (some x.modelDigest) = 0) ∧ ((arrive m .migratingIn x.entry x.store (getLink (swlGot link 2 (x.pages.map (fun e =>
      e.2.length)).sum (swlGot link 0 0 (s.at m))) link).peerChip x.keys x.pages (swlGot link 2 (x.pages.map (fun e =>
      e.2.length)).sum (swlGot link 0 0 (s.at m)))).isOk = true) :=
  ⟨{}, 0, 9, { entry := aSess, store := {} }, upModel, by decide⟩

theorem witness_SessionsMoveBetweenChips_2 :
    ∃ (m : Moment) (fop slot status : Nat) (f : Fop) (s : State), (getFop (s.at m) fop = some f) ∧ (f.kind = .migrate) ∧
      (f.inbound = true) ∧ (getFop (swlGot (linkTo (s.at m) f.chip) 1 0 (s.at m)) fop = some f) :=
  ⟨{}, 1, 0, 0, { aFop with kind := .migrate, inbound := true },
    { up with fdy := { up.fdy with ops := [(1, { aFop with kind := .migrate, inbound := true })] } }, by decide⟩

theorem witness_SessionsMoveBetweenChips_3 :
    ∃ (m : Moment) (fop slot status : Nat) (f : Fop) (x : Session) (s : State), (getFop (s.at m) fop = some f) ∧ (f.kind =
      .migrate) ∧ (f.inbound = false) ∧ (getFop (swlGot (linkTo (s.at m) f.chip) 1 0 (s.at m)) fop = some f) ∧ (getSess (swlGot
      (linkTo (s.at m) f.chip) 1 0 (s.at m)) f.session = some x) :=
  ⟨{}, 1, 5, 0, { aFop with kind := .migrate, session := aSess.id, chip := 1 }, aSess,
    { upSess aSess with fdy := { up.fdy with ops := [(1, { aFop with kind := .migrate, session := aSess.id, chip := 1 })] } }, by
    decide⟩

theorem witness_SessionsMoveBetweenChips_4 :
    ∃ (m : Moment) (x : ExportIn) (s : State), (importRefused (s.at m) x = 0) ∧ (((arrive m x.entry.st x.entry
      { x.store with blocks := [], blockChips := [], recFrame := 0, recChip := none } (chip (s.at m)) [] x.pages (s.at m)).bind
      (arriveJournal m x.entry)).isOk = true) :=
  ⟨{}, { qp := 3, peer := 4, entry := aSess, store := {} }, upModel, by decide⟩

theorem witness_SessionsMoveBetweenChips_5 :
    ∃ (m : Moment) (session peer : Nat) (e : DirEntry) (s : State), (dirAt (s.at m) session = some e) ∧ (e.dstate = .exported) ∧
      (e.exportPeer = peer) :=
  ⟨{}, 0x1000000, 6, { aDir with dstate := .exported, exportPeer := 6 },
    { upParked with pln := { upParked.pln with dir := [(0, { aDir with dstate := .exported, exportPeer := 6 })] } }, by decide⟩

theorem witness_PatternTreeCommands_1 :
    ∃ (m : Moment) (r : Req) (s : State) (x : Session), (serves opPtnPublish m r s = true) ∧ (r.f 0x0C 1 ≤ 1) ∧ (locate r (taken m
      r s) (r.f 0 8) = .here (.active x)) ∧ (x.st = .prefill ∨ x.st = .decode ∨ x.st = .toolwait ∨ x.st = .stopped) ∧ (256 * r.f 8
      4 ≤ x.length) ∧ (256 * r.f 8 4 ≤ x.prefillPos) ∧ ((pubStart (taken m r s) (r.f 0 8) x).isSome = true) ∧ ((publishBlocks m
      (r.f 0 8) x (r.f 0x0C 1 = 1) ((List.range (r.f 8 4 - x.prefixLen / 256)).map (· + x.prefixLen / 256)) ((pubStart (taken m r
      s) (r.f 0 8) x).getD { node := 0, depth := 0, key := [] }) (taken m r s)).1 = 0) :=
  ⟨{}, (opPtnPublish.named (cmdReq (u64 0x1000000 ++ u32 1))), upLong, aLong, by decide⟩

theorem witness_PatternTreeCommands_2 :
    ∃ (m : Moment) (r : Req) (s : State), (serves opPtnMatch m r s = true) ∧ (r.f 0 1 ≤ 63) ∧ (r.f 1 1 ≤ 1) ∧ (r.f 2 1 = 0) ∧ (r.f
      4 4 ≤ 988) ∧ (modelOpen (taken m r s) (r.f 0 1) r.part16 = true) :=
  ⟨{}, (opPtnMatch.named (cmdReq (zeros 16))), upModel, by decide⟩

theorem witness_PatternTreeCommands_3 :
    ∃ (m : Moment) (r : Req) (s : State) (b : Bytes), (serves opPtnMatch m r s = true) ∧ (r.f 0 1 ≤ 63) ∧ (r.f 1 1 ≤ 1) ∧ (r.f 2 1
      = 1) ∧ (r.f 4 4 ≤ 1048576) ∧ (modelOpen (taken m r s) (r.f 0 1) r.part16 = true) ∧ ((inData r (4 * r.f 4 4) (taken m r
      s)).toOption = some b) :=
  ⟨sgAt, (opPtnMatch.named (sgReq ([0, 0, 1, 0] ++ u32 1))), upModel, [0, 0, 0, 0], by decide⟩

theorem witness_PatternTreeCommands_4 :
    ∃ (m : Moment) (r : Req) (s : State) (i : Nat), (serves opPtnDelete m r s = true) ∧ (r.reaches (r.f 0 8 / 2 ^ 60) = true) ∧
      (handleNode (taken m r s) (r.f 0 8 / 2 ^ 60) (r.f 0 8) = some i) :=
  ⟨{}, (opPtnDelete.named (cmdReq (u64 (5 * 2 ^ 32 + 1)))), upNode, 5, by decide⟩

theorem witness_PatternTreeCommands_5 :
    ∃ (m : Moment) (r : Req) (s : State) (i : Nat), (serves opPtnPin m r s = true) ∧ (r.f 8 1 ≤ 1) ∧ (r.reaches (r.f 0 8 / 2 ^ 60)
      = true) ∧ (handleNode (taken m r s) (r.f 0 8 / 2 ^ 60) (r.f 0 8) = some i) :=
  ⟨{}, (opPtnPin.named (cmdReq (u64 (5 * 2 ^ 32 + 1) ++ [1]))), upNode, 5, by decide⟩

theorem witness_PatternTreeCommands_6 :
    ∃ (m : Moment) (r : Req) (s : State) (i : Nat), (serves opPtnRead m r s = true) ∧ (r.reaches (r.f 0 8 / 2 ^ 60) = true) ∧
      (handleNode (taken m r s) (r.f 0 8 / 2 ^ 60) (r.f 0 8) = some i) :=
  ⟨{}, (opPtnRead.named (cmdReq (u64 (5 * 2 ^ 32 + 1)))), upNode, 5, by decide⟩

theorem witness_PatternTreeCommands_7 :
    ∃ (m : Moment) (r : Req) (s : State), (serves opPtnPurge m r s = true) ∧ (r.f 0 1 ≤ 63 ∨ r.f 0 1 = 0xFF) ∧ (opRoom (taken m r
      s) r.fn = true) :=
  ⟨{}, (opPtnPurge.named (cmdReq [0xFF])), upNode, by decide⟩

theorem witness_PatternTreeCommands_8 :
    ∃ (m : Moment) (r : Req) (s : State), (serves opPtnConfig m r s = true) ∧ ((ptnConfigCheck r (taken m r s)).isOk = true) ∧
      (opRoom (taken m r s) r.fn = true) :=
  ⟨{}, (opPtnConfig.named (cmdReq (u32 0 ++ u32 16))), up, by decide⟩

theorem witness_PatternTreeCommands_9 :
    ∃ (m : Moment) (p : Nat) (s : State), (treeLow (s.at m) p = true) :=
  ⟨{}, 0, { upNode with trees := [(0, { cap := 4, nodeLow := 9 })] }, by decide⟩

theorem witness_PagePoolsAndPageTables_1 :
    ∃ (m : Moment) (r : Req) (s : State) (id : PoolId), (serves opPagePoolConfig m r s = true) ∧ ((partGate opPagePoolConfig r
      (r.f 0 1) (taken m r s)).isOk = true) ∧ (poolOf r = some id) ∧ (usedFrames (taken m r s) id ≤ r.f 4 4) ∧ (r.f 4 4 ≤
      ((getPool (taken m r s) id).getD { id, size := 0 }).size) :=
  ⟨{}, (opPagePoolConfig.named (cmdReq ([0, 0xFF, 0, 0] ++ u32 3))), upModel, tablePool 0, by decide⟩

theorem witness_PagePoolsAndPageTables_2 :
    ∃ (m : Moment) (r : Req) (s : State) (id : PoolId) (more : List (Nat × Nat)), (serves opPagePoolConfig m r s = true) ∧
      ((partGate opPagePoolConfig r (r.f 0 1) (taken m r s)).isOk = true) ∧ (poolOf r = some id) ∧ (usedFrames (taken m r s) id ≤
      r.f 4 4) ∧ (((getPool (taken m r s) id).getD { id, size := 0 }).size < r.f 4 4) ∧ (carvePool (taken m r s) id (r.f 4 4 -
      ((getPool (taken m r s) id).getD { id, size := 0 }).size) = some more) :=
  ⟨{}, (opPagePoolConfig.named (cmdReq ([0, 0xFF, 0, 0] ++ u32 2))), up, tablePool 0, [(0, 2)], by decide⟩

theorem witness_PagePoolsAndPageTables_3 :
    ∃ (m : Moment) (r : Req) (s : State) (x : Session), (serves opPageTableRead m r s = true) ∧ (r.f 0x0C 2 ≠ 0) ∧ (r.f 0x0C 2 ≤
      480) ∧ (r.f 0x0A 2 + r.f 0x0C 2 ≤ 4096) ∧ (locate r (taken m r s) (r.f 0 8) = .here (.active x)) ∧ (x.st ≠ .faulted) ∧ (r.f
      8 2 < (getStore (taken m r s) (r.f 0 8)).pages.lgCount) :=
  ⟨{}, (opPageTableRead.named (cmdReq (u64 0x1000000 ++ u16 0 ++ u16 4095 ++ u16 1))), upRun, aRun, by decide⟩

theorem witness_PagePoolsAndPageTables_4 :
    ∃ (m : Moment) (r : Req) (s : State) (e : DirEntry), (serves opPageTableRead m r s = true) ∧ (r.f 0x0C 2 ≠ 0) ∧ (r.f 0x0C 2 ≤
      480) ∧ (r.f 0x0A 2 + r.f 0x0C 2 ≤ 4096) ∧ (locate r (taken m r s) (r.f 0 8) = .here (.parked e)) ∧ (imageChip e = chip
      (taken m r s)) ∧ (r.f 8 2 < (getStore (taken m r s) (r.f 0 8)).pages.lgCount) :=
  ⟨{}, (opPageTableRead.named (cmdReq (u64 0x1000000 ++ u16 0 ++ u16 4095 ++ u16 1))),
    { upParked with pln := { upParked.pln with store := [(0x1000000, { pages := { lgCount := 1 } })] } }, aDir, by decide⟩

theorem witness_ModelsAreLoadedAndPlaced_1 :
    ∃ (m : Moment) (r : Req) (s : State) (img : Bytes), (serves opModelLoad m r s = true) ∧ (r.f 0 1 ≤ 63) ∧ (r.f 2 1 ≤ 2 ∧
      spanExists (taken m r s) (r.f 4 2) = true) ∧ ((partGate opModelLoad r (r.f 1 1) (taken m r s)).isOk = true) ∧ ((getModel
      (taken m r s) (r.f 0 1)).mstate = .empty) ∧ ((inData r (r.f 8 8) (taken m r s)).toOption = some img) ∧ ((Md.headerChecks img
      (r.f 8 8) ++ Md.objChecks img ++ Md.attChecks img).all (·.1) = true) ∧ (Md.pageContent (Md.hdr img) ≤ 16777216) ∧ (r.f 4 2 ≠
      0) ∧ ((setBits 16 (r.f 4 2)).all (fun g => bit (getPart (taken m r s) (r.f 1 1)).tileMask g) = true) ∧ ((Md.hdr img).minSpan
      ≤ 8 * popcount 16 (r.f 4 2)) ∧ ((getPart (taken m r s) (r.f 1 1)).signedImages = false ∨ (Md.hdr img).sigLen ≠ 0) ∧
      ((placeObjs (r.f 0 1) (r.f 1 1) (r.f 2 1) (Md.objs img) (setModel (r.f 0 1)
      (({ mstate := .loading, partition := r.f 1 1, spanMask := r.f 4 2, hdr := Md.hdr img, hdrBytes := fit 256 img, att := Md.att img, image := img }
      : ModelSlot )) (taken m r s))).isSome = true) ∧ (opRoom (taken m r s) r.fn = true) ∧ ((placeObjs (r.f 0 1) (r.f 1 1) (r.f 2
      1) (Md.objs img) (setModel (r.f 0 1)
      (({ mstate := .loading, partition := r.f 1 1, spanMask := r.f 4 2, hdr := Md.hdr img, hdrBytes := fit 256 img, att := Md.att img, image := img }
      : ModelSlot )) (taken m r s))).all (fun t => opRoom t r.fn) = true) :=
  ⟨listOf aModelImage, (opModelLoad.named
    ({ sgReq ([3, 0, 0, 0, 1, 0, 0, 0] ++ u64 0x150) with hdr := { sgCount := 1, sgAddr := 0x1000, payloadLen := 16 } })), up,
    aModelImage, by decide⟩

theorem witness_ModelsAreLoadedAndPlaced_2 :
    ∃ (m : Moment) (slot : Nat) (s : State), ((getModel (s.at m) slot).mstate = .loading) ∧ (stopping (s.at m) (getModel (s.at m)
      slot).op = false) ∧ ((modelVerify (s.at m) (getModel (s.at m) slot)).isOk = true) :=
  ⟨{}, 3, upLoading, by decide, by decide, verifies_aLoad⟩

theorem witness_ModelsAreLoadedAndPlaced_3 :
    ∃ (m : Moment) (r : Req) (s : State), (serves opModelUnload m r s = true) ∧ (r.f 0 1 ≤ 63) ∧ ((modelFor r (taken m r s) (r.f 0
      1)).mstate = .ready ∨ (modelFor r (taken m r s) (r.f 0 1)).mstate = .faulted) ∧ ((partGate opModelUnload r (modelFor r
      (taken m r s) (r.f 0 1)).partition (taken m r s)).isOk = true) ∧ (modelUsed (taken m r s) (r.f 0 1) = false) ∧ (opRoom
      (taken m r s) r.fn = true) :=
  ⟨{}, (opModelUnload.named (cmdReq [0])), upModel, by decide⟩

theorem witness_ModelsAreLoadedAndPlaced_4 :
    ∃ (m : Moment) (slot : Nat) (s : State), ((getModel (s.at m) slot).mstate = .unloading) ∧ ((slotInvs (s.at m) slot).isEmpty =
      true) :=
  ⟨{}, 3, { up with tile := { up.tile with models := [(3, { mstate := .unloading })] } }, by decide⟩

theorem witness_ModelsAreLoadedAndPlaced_5 :
    ∃ (m : Moment) (r : Req) (s : State), (serves opModelQuery m r s = true) ∧ (r.f 0 1 ≤ 63) :=
  ⟨{}, (opModelQuery.named (cmdReq [63])), up, by decide⟩

theorem witness_ModelsAreLoadedAndPlaced_6 :
    ∃ (m : Moment) (r : Req) (s : State) (o : WeightObj) (a : Nat), (serves opModelPlace m r s = true) ∧ (r.f 0 1 ≤ 63) ∧ (r.f 1 1
      = 1 ∨ r.f 1 1 = 2) ∧ ((modelFor r (taken m r s) (r.f 0 1)).mstate = .ready) ∧ ((partGate opModelPlace r (modelFor r (taken m
      r s) (r.f 0 1)).partition (taken m r s)).isOk = true) ∧ ((modelFor r (taken m r s) (r.f 0 1)).objs[r.f 2 2]? = some o) ∧
      (placeBlock (taken m r s) (modelFor r (taken m r s) (r.f 0 1)).partition (r.f 1 1) o.bytes 4096 = some a) ∧ (opRoom (taken m
      r s) r.fn = true) :=
  ⟨{}, (opModelPlace.named (cmdReq [3, 2, 0, 0])), upHeld, { bytes := 4096, tier := 1, addr := 0 }, 0, by decide⟩

theorem witness_ModelsAreLoadedAndPlaced_7 :
    ∃ (m : Moment) (r : Req) (s : State), (serves opAttConfig m r s = true) ∧ (1 ≤ r.f 0 1) ∧ (r.f 0 1 ≤ 64) :=
  ⟨{}, (opAttConfig.named (cmdReq [64])), up, by decide⟩

theorem witness_TableSetsAreLoadedAndServe_1 :
    ∃ (m : Moment) (r : Req) (s : State), (serves opTablesetLoad m r s = true) ∧ ((partGate opTablesetLoad r (r.f 2 1) (taken m r
      s)).isOk = true) ∧ (r.f 0 2 ≠ 0) ∧ (thas (taken m r s).txt.gens (r.f 0 2) = false) ∧ ((List.range 7).any (fun n => linkDark
      (getLink (taken m r s) n)) = false) ∧ ((linksUp (taken m r s)).isEmpty = false) ∧ (opRoom (taken m r s) r.fn = true) :=
  ⟨{}, (opTablesetLoad.named (cmdReq (u16 7 ++ zeros 14))), (upLink up), by decide⟩

theorem witness_TableSetsAreLoadedAndServe_2 :
    ∃ (m : Moment) (r : Req) (s : State), (serves opTablesetLoad m r s = true) ∧ ((partGate opTablesetLoad r (r.f 2 1) (taken m r
      s)).isOk = true) ∧ (r.f 0 2 ≠ 0) ∧ (thas (taken m r s).txt.gens (r.f 0 2) = false) ∧ ((List.range 7).any (fun n => linkDark
      (getLink (taken m r s) n)) = false) ∧ ((linksUp (taken m r s)).isEmpty = true) ∧ (opRoom (taken m r s) r.fn = true) :=
  ⟨{}, (opTablesetLoad.named (cmdReq (u16 7 ++ zeros 14))), up, by decide⟩

theorem witness_TableSetsAreLoadedAndServe_3 :
    ∃ (n : Nat) (o : LongOp) (img : Bytes) (a : Nat) (s : State), getOp s n = some o ∧ o.req.f 0 2 ≠ 0 ∧ thas s.txt.gens (o.req.f
      0 2) = false ∧ (inData o.req (o.req.f 8 8) s).toOption = some img ∧ (imageCheck (o.req.f 2 1) (o.req.f 8 8) img s).toOption
      = some a :=
  ⟨1, upPlacing.2, aTableImage, 0, upPlacing.1, by decide⟩

theorem witness_TableSetsAreLoadedAndServe_4 :
    ∃ (m : Moment) (gen : Nat) (x : TableSet) (s : State), (getGen (s.at m) gen = some x) ∧ (x.gstate = .loading) ∧ (stopping
      (s.at m) x.op = false) ∧ ((tablesetVerify (s.at m) x).isOk = true) :=
  ⟨{}, 2, aSet, upSet aSet, rfl, by decide, by decide, verifies_aSet⟩

theorem witness_TableSetsAreLoadedAndServe_5 :
    ∃ (m : Moment) (r : Req) (s : State) (x : TableSet), (serves opTablesetRetire m r s = true) ∧ (genFor r (taken m r s) (r.f 0
      2) = some x) ∧ ((partGate opTablesetRetire r x.partition (taken m r s)).isOk = true) ∧ (x.gstate = .resident) ∧ (opRoom
      (taken m r s) r.fn = true) :=
  ⟨{}, (opTablesetRetire.named (cmdReq (u16 0))), upModel, { gstate := .resident }, by decide⟩

theorem witness_TableSetsAreLoadedAndServe_6 :
    ∃ (m : Moment) (gen : Nat) (x : TableSet) (s : State), (getGen (s.at m) gen = some x) ∧ (x.gstate = .retiring) ∧ (x.bind = 0)
      ∧ ((getOp (s.at m) x.op).any (·.cancelling) = false) :=
  ⟨{}, 2, { gstate := .retiring, op := 1 }, upSet { gstate := .retiring, op := 1 }, by decide⟩

theorem witness_TableSetsAreLoadedAndServe_7 :
    ∃ (m : Moment) (r : Req) (s : State) (x : TableSet), (serves opTablesetQuery m r s = true) ∧ (genFor r (taken m r s) (r.f 0 2)
      = some x) :=
  ⟨{}, (opTablesetQuery.named (cmdReq (u16 0))), upModel, { gstate := .resident }, by decide⟩

theorem witness_TableSetsAreLoadedAndServe_8 :
    ∃ (m : Moment) (r : Req) (s : State) (x : TableSet) (a : Shorn), (serves opShearCut m r s = true) ∧ (r.f 4 4 ≤ 3952) ∧
      (genServing r (taken m r s) (r.f 0 2) = some x) ∧ ((shear x.image (bit (r.f 2 1) 0) true 0 {} (r.b 0x10 (r.f 4 4))).toOption
      = some a) :=
  ⟨{}, (opShearCut.named (cmdReq (u16 0 ++ zeros 14))), upModel, { gstate := .resident }, { text := { intakeOpen := true } }, by
    decide⟩

theorem witness_TableSetsAreLoadedAndServe_9 :
    ∃ (m : Moment) (r : Req) (s : State) (x : TableSet), (serves opSolderRender m r s = true) ∧ (r.f 8 4 ≤ 988) ∧ (genServing r
      (taken m r s) (r.f 0 2) = some x) ∧ (((List.range (r.f 8 4)).map (fun i => r.f (0x10 + 4 * i) 4)).any (fun t => decide
      (x.vocab ≤ t)) = false) ∧ (r.f 4 4 = ones32 ∨ r.f 4 4 < Tb.stopCount x.image) :=
  ⟨{}, (opSolderRender.named (cmdReq (u16 0 ++ u16 0 ++ u32 0xFFFFFFFF ++ zeros 8))), upModel, { gstate := .resident }, by decide⟩

theorem witness_ClassesMetersAndShares_1 :
    ∃ (m : Moment) (r : Req) (s : State), (serves opClassSet m r s = true) ∧ (r.f 0 2 < 4096) ∧ (classInRange (classOf
      (r.payload.drop 0x10)) = true) ∧ ((getPart (taken m r s) (classOf (r.payload.drop 0x10)).partition).pstate ≠ .off) ∧
      ((partGate opClassSet r (classOf (r.payload.drop 0x10)).partition (taken m r s)).isOk = true) ∧ (meterFits (taken m r s)
      (classOf (r.payload.drop 0x10)).partition (classOf (r.payload.drop 0x10)).meter = true) ∧ (tget (taken m r s).pla.classes
      (r.f 0 2) = none) :=
  ⟨{}, (opClassSet.named (cmdReq (u16 5 ++ zeros 14 ++ classBytes
    { meter := 0xFFFF, classWeight := 1, tokenRate := 1, burst := 1000, windowS := 1, sessionWeight := 1 }))), up, by decide⟩

theorem witness_ClassesMetersAndShares_2 :
    ∃ (m : Moment) (r : Req) (s : State) (x : ContractClass), (serves opClassSet m r s = true) ∧ (r.f 0 2 < 4096) ∧ (classInRange
      (classOf (r.payload.drop 0x10)) = true) ∧ ((getPart (taken m r s) (classOf (r.payload.drop 0x10)).partition).pstate ≠ .off)
      ∧ ((partGate opClassSet r (classOf (r.payload.drop 0x10)).partition (taken m r s)).isOk = true) ∧ (meterFits (taken m r s)
      (classOf (r.payload.drop 0x10)).partition (classOf (r.payload.drop 0x10)).meter = true) ∧ (tget (taken m r s).pla.classes
      (r.f 0 2) = some x) ∧ (classBound (taken m r s) (r.f 0 2) = 0 ∨ classFixed x (classOf (r.payload.drop 0x10)) = true) :=
  ⟨{}, (opClassSet.named (cmdReq (u16 0 ++ zeros 14 ++ classBytes
    { meter := 0xFFFF, classWeight := 1, tokenRate := 1, burst := 1000, windowS := 1, sessionWeight := 1 }))), upModel, {}, by
    decide⟩

theorem witness_ClassesMetersAndShares_3 :
    ∃ (m : Moment) (r : Req) (s : State) (x : ContractClass), (serves opClassRead m r s = true) ∧ (r.f 0 2 ≤ 4095) ∧ (tget (taken
      m r s).pla.classes (r.f 0 2) = some x) ∧ (r.fn = 0 ∨ x.partition = r.fn - 1) :=
  ⟨{}, (opClassRead.named (cmdReq (u16 0))), upModel, {}, by decide⟩

theorem witness_ClassesMetersAndShares_4 :
    ∃ (m : Moment) (r : Req) (s : State) (x : ContractClass), (serves opClassDelete m r s = true) ∧ (r.f 0 2 < 4096) ∧ (tget
      (taken m r s).pla.classes (r.f 0 2) = some x) ∧ ((partGate opClassDelete r x.partition (taken m r s)).isOk = true) ∧
      (classBound (taken m r s) (r.f 0 2) = 0) :=
  ⟨{}, (opClassDelete.named (cmdReq (u16 0))), upModel, {}, by decide⟩

theorem witness_ClassesMetersAndShares_5 :
    ∃ (m : Moment) (r : Req) (s : State), (serves opMeterSet m r s = true) ∧ (r.f 0 2 ≤ 16383) ∧ (r.f 2 1 = 0) ∧ (r.f 0x0C 4 ≤ r.f
      0x14 4) ∧ (r.f 0x14 4 ≠ 0) ∧ (1000 ≤ r.f 0x10 4) ∧ (1000 ≤ r.f 0x18 4) ∧ ((getPart (taken m r s) (bits (r.f 8 4) 27
      24)).pstate ≠ .off) ∧ ((partGate opMeterSet r (bits (r.f 8 4) 27 24) (taken m r s)).isOk = true) ∧ (∀ x, tget (taken m r
      s).pla.meters (r.f 0 2) = some x → x.partition = (bits (r.f 8 4) 27 24) ∨ meterNamed (taken m r s) (r.f 0 2) = false) ∧ (bit
      (r.f 8 4) 30 = true → awareCount (taken m r s) (r.f 0 2) < 64) :=
  ⟨{}, (opMeterSet.named (cmdReq (u16 5 ++ zeros 6 ++ u32 0 ++ u32 1 ++ u32 1000 ++ u32 1 ++ u32 1000))), up, by decide⟩

theorem witness_ClassesMetersAndShares_6 :
    ∃ (m : Moment) (r : Req) (s : State) (x : Meter), (serves opMeterSet m r s = true) ∧ (r.f 0 2 ≤ 16383) ∧ (r.f 2 1 = 1) ∧ (tget
      (taken m r s).pla.meters (r.f 0 2) = some x) ∧ ((partGate opMeterSet r x.partition (taken m r s)).isOk = true) ∧ (meterNamed
      (taken m r s) (r.f 0 2) = false) :=
  ⟨{}, (opMeterSet.named (cmdReq (u16 3 ++ [1]))), { up with pla := { up.pla with meters := [(3, {})] } }, {}, by decide⟩

theorem witness_ClassesMetersAndShares_7 :
    ∃ (m : Moment) (r : Req) (s : State) (x : Meter), (serves opMeterRead m r s = true) ∧ (r.f 0 2 ≤ 16383) ∧ (tget (taken m r
      s).pla.meters (r.f 0 2) = some x) ∧ (r.fn = 0 ∨ x.partition = r.fn - 1) :=
  ⟨{}, (opMeterRead.named (cmdReq (u16 3))), { up with pla := { up.pla with meters := [(3, {})] } }, {}, by decide⟩

theorem witness_ClassesMetersAndShares_8 :
    ∃ (m : Moment) (r : Req) (s : State), (serves opPartitionShare m r s = true) ∧ (r.f 2 2 ≠ 0) ∧ ((partGate opPartitionShare r
      (r.f 0 1) (taken m r s)).isOk = true) ∧ (meterFits (taken m r s) (r.f 0 1) (r.f 6 2) = true) :=
  ⟨{}, (opPartitionShare.named (cmdReq ([0, 0] ++ u16 2 ++ u16 0 ++ u16 0xFFFF))), up, by decide⟩

theorem witness_ClassesMetersAndShares_9 :
    ∃ (m : Moment) (r : Req) (s : State) (x : Session), (serves opPlaQueueRead m r s = true) ∧ (locate r (taken m r s) (r.f 0 8) =
      .here (.active x)) ∧ (x.st ≠ .faulted) :=
  ⟨{}, (opPlaQueueRead.named (cmdReq (u64 0x1000000))), (upSess aSess), aSess, by decide⟩

theorem witness_StreamRingsAndTheGauge_1 :
    ∃ (m : Moment) (r : Req) (s : State), (serves opStreamRingSet m r s = true) ∧ (r.f 0 2 ≤ 1023) ∧ (r.f 2 1 = 1 ∨ r.f 2 1 = 2) ∧
      (6 ≤ r.f 3 1) ∧ (r.f 3 1 ≤ 20) ∧ (r.f 8 8 % 4096 = 0) ∧ (r.f 0x10 8 % 16 = 0) ∧ (r.f 0x20 2 < 2048 ∨ r.f 0x20 2 = 0xFFFF) ∧
      ((ringTargeted (taken m r s) r.part16 (r.f 0 2) || (getRing (taken m r s) (ringKey r.part16 (r.f 0 2))).any (fun x =>
      !x.spill.isEmpty)) = false ∨ (getRing (taken m r s) (ringKey r.part16 (r.f 0 2))).any (·.faulted) = true) ∧ ((getRing (taken
      m r s) (ringKey r.part16 (r.f 0 2))).isSome = true ∨ takenBytes (taken m r s) r.part16 1 + 16384 * 64 ≤ partBytes (taken m r
      s) r.part16 1) :=
  ⟨{}, (opStreamRingSet.named (cmdReq (u16 5 ++ [1, 6] ++ u32 0 ++ u64 0x10000 ++ u64 0x20000 ++ u32 0 ++ u32 0 ++ u16 0xFFFF))),
    up, by decide⟩

theorem witness_StreamRingsAndTheGauge_2 :
    ∃ (m : Moment) (r : Req) (s : State), (serves opStreamRingSet m r s = true) ∧ (r.f 0 2 ≤ 1023) ∧ (r.f 2 1 = 0) ∧ (ringTargeted
      (taken m r s) r.part16 (r.f 0 2) = false) ∧ ((getRing (taken m r s) (ringKey r.part16 (r.f 0 2))).all (fun x =>
      x.spill.isEmpty) = true) :=
  ⟨{}, (opStreamRingSet.named (cmdReq (u16 2 ++ [0]))), (upRing { aRing 1 with spill := [] }), by decide⟩

theorem witness_StreamRingsAndTheGauge_3 :
    ∃ (m : Moment) (p n : Nat) (x : StreamRing) (rec : StreamRec) (s : State), (getRing (s.at m) (ringKey p n) = some x) ∧
      (ringReady (s.at m) (ringKey p n) x = some rec) ∧ (nextPartition .stream (streamParts (wakeParts .stream (streamParts (s.at
      m)) (s.at m))) (wakeParts .stream (streamParts (s.at m)) (s.at m)) = some p) ∧ (x.kind = 1) ∧ (hostErr (wakeParts .stream
      (streamParts (s.at m)) (s.at m)) (x.base + 64 * (x.prod % 2 ^ x.log2)) 64 = none) ∧ (hostErr (wakeParts .stream (streamParts
      (s.at m)) (s.at m)) (x.consAddr + 8) 8 = none) :=
  ⟨{}, 0, 2, aRing 1, { session := 0x1000000, length := 1 }, upRing (aRing 1), by decide⟩

theorem witness_StreamRingsAndTheGauge_4 :
    ∃ (m : Moment) (p n i : Nat) (x : StreamRing) (rec : StreamRec) (q : Qp) (s : State), (getRing (s.at m) (ringKey p n) = some
      x) ∧ (ringReady (s.at m) (ringKey p n) x = some rec) ∧ (nextPartition .stream (streamParts (wakeParts .stream (streamParts
      (s.at m)) (s.at m))) (wakeParts .stream (streamParts (s.at m)) (s.at m)) = some p) ∧ (x.kind = 2) ∧ (qpOf (wakeParts .stream
      (streamParts (s.at m)) (s.at m)) x.conn = some (i, q)) ∧ ((gxWrite i { owner := .stream (ringKey p n), lastPsn := 0 } x.key
      (x.base + 64 * (x.prod % 2 ^ x.log2)) (recordBytes (wakeParts .stream (streamParts (s.at m)) (s.at m)).ct x.prod x.log2 rec)
      { payload := u64 ((x.prod + 1) % 2 ^ 64), off := x.consAddr + 8 } (wakeParts .stream (streamParts (s.at m)) (s.at m))).isOk
      = true) :=
  ⟨{}, 0, 2, 1, aRing 2, { session := 0x1000000, length := 1 }, aQp, upRing (aRing 2), by decide⟩

theorem witness_StreamRingsAndTheGauge_5 :
    ∃ (m : Moment) (p n : Nat) (x : StreamRing) (s : State), (getRing (s.at m) (ringKey p n) = some x) ∧ (x.faulted = false) ∧
      (x.spill.isEmpty = false) ∧ (2 ^ x.log2 ≤ x.used) ∧ (x.kind = 1) ∧ (x.consCt.all (fun c => decide (c + 1000 ≤ (s.at m).ct))
      = true) ∧ (hostErr (s.at m) x.consAddr 8 = none) ∧ ((x.prod + 2 ^ 64 - field (hostRead (s.at m) x.consAddr 8) 0 8) % 2 ^ 64
      ≤ 2 ^ x.log2) :=
  ⟨{ host := [(0x20000, u64 7)] }, 0, 2, { aRing 1 with prod := 64 }, upRing { aRing 1 with prod := 64 }, by decide⟩

theorem witness_StreamRingsAndTheGauge_6 :
    ∃ (m : Moment) (p n i : Nat) (x : StreamRing) (q : Qp) (s : State), (getRing (s.at m) (ringKey p n) = some x) ∧ (x.faulted =
      false) ∧ (x.spill.isEmpty = false) ∧ (2 ^ x.log2 ≤ x.used) ∧ (x.kind = 2) ∧ (x.consCt.all (fun c => decide (c + 5000 ≤ (s.at
      m).ct)) = true) ∧ (msgOf (setRing (ringKey p n) { x with consCt := some (s.at m).ct } (s.at m)) (.cons (ringKey p n)) =
      none) ∧ (qpOf (setRing (ringKey p n) { x with consCt := some (s.at m).ct } (s.at m)) x.conn = some (i, q)) ∧ ((gxRead i
      { owner := .cons (ringKey p n), lastPsn := 0 } x.key x.consAddr 8 (setRing (ringKey p n)
      { x with consCt := some (s.at m).ct } (s.at m))).isOk = true) :=
  ⟨{}, 0, 2, 1, { aRing 2 with prod := 64 }, aQp, upRing { aRing 2 with prod := 64 }, by decide⟩

theorem witness_StreamRingsAndTheGauge_7 :
    ∃ (m : Moment) (r : Req) (s : State) (g : GaugeClass) (x : Report) (l : List SgEntry), (serves opGaugeReport m r s = true) ∧
      (r.f 0 2 ≤ 4095) ∧ (r.f 2 1 ≤ 1) ∧ (getGauge (taken m r s) (r.f 0 2) = some g) ∧ ((if r.f 2 1 = 0 then g.reports.getLast?
      else g.reports.find? (fun x => x.seq = r.f 8 8)) = some x) ∧ (r.fn = 0 ∨ field x.body 6 1 = r.fn - 1) ∧ ((sgCover r 8496
      (taken m r s)).toOption = some l) ∧ ((sgWrite l x.body (taken m r s)).2 = none) :=
  ⟨{ host := [(0x1000, u64 0x2000 ++ u32 8496)] }, (opGaugeReport.named (sgReq (u16 0 ++ [0]))), (upGauge
    { aGauge with reports := [{ cls := 0, seq := 1, body := [1] }] }),
    { aGauge with reports := [{ cls := 0, seq := 1, body := [1] }] }, { cls := 0, seq := 1, body := [1] },
    [{ idx := 0, addr := 0x2000, len := 8496 }], by decide⟩

theorem witness_StreamRingsAndTheGauge_8 :
    ∃ (m : Moment) (r : Req) (s : State), (serves opGaugeConfig m r s = true) ∧ (10000 ≤ r.f 0 4) ∧ (r.f 0 4 ≤ 10000000) ∧ (r.f 4
      1 ≤ 1) :=
  ⟨{}, (opGaugeConfig.named (cmdReq (u32 10000 ++ [1]))), up, by decide⟩

theorem witness_StreamRingsAndTheGauge_9 :
    ∃ (m : Moment) (s : State), ((s.at m).ct % max 1 (s.at m).gau.period = 0) :=
  ⟨{ ct := 100000 }, upGauge aGauge, by decide⟩

theorem witness_StreamRingsAndTheGauge_10 :
    ∃ (m : Moment) (cls : Nat) (g : GaugeClass) (w : Window) (s : State), (getGauge (rollGauge cls (s.at m)) cls = some g) ∧
      (g.ending = some w) ∧ (w.stop + 2000000 ≤ (rollGauge cls (s.at m)).ct) :=
  ⟨{ ct := 1002000000 }, 0,
    { aGauge with ending := some aGauge.opened, opened := { start := 1000000000, stop := 60000000000, windowS := 60, short := true, timeLost := true }, sseq := 2 },
    aGauge.opened, upGauge aGauge, by decide⟩

theorem witness_StreamRingsAndTheGauge_11 :
    ∃ (m : Moment) (r : Report) (rest : List Report) (s : State), ((s.at m).gau.toSign = r :: rest) :=
  ⟨{}, { cls := 0, seq := 1, body := [] }, [], upGauge aGauge, by decide⟩

theorem witness_TheTallyAuditsAndAnswers_1 :
    ∃ (m : Moment) (s : State), (7 ≤ (s.at m).bench.bootPhase) ∧ ((countAudit (s.at m)).tly.auditing = none) ∧ ((countAudit (s.at
      m)).ct % 100000 = 0 ∨ (countAudit (s.at m)).tly.delayed = true) :=
  ⟨{ ct := 100000 }, up, by decide⟩

theorem witness_TheTallyAuditsAndAnswers_2 :
    ∃ (m : Moment) (ct : Nat) (s : State), (7 ≤ (s.at m).bench.bootPhase) ∧ ((countAudit (s.at m)).tly.auditing = some ct) ∧
      ((countAudit (s.at m)).ct % 100000 = 0) ∧ ((countAudit (s.at m)).tly.delayed = false) :=
  ⟨{ ct := 200000 }, 100000, { up with tly := { up.tly with auditing := some 100000, auditEnd := 300000 } }, by decide⟩

theorem witness_TheTallyAuditsAndAnswers_3 :
    ∃ (m : Moment) (link vc ct : Nat) (x : MarkerCounts) (s : State), ((getLink (s.at m) link).up = true) ∧ (vc ≤ 3) :=
  ⟨{}, 0, 3, 100000, { sent := 0, returned := 0 }, upLink up, by decide⟩

theorem witness_TheTallyAuditsAndAnswers_4 :
    ∃ (m : Moment) (link vc ct : Nat) (s : State), ((s.at m).tly.markers.any (fun x => x.link = link && x.vc = vc && x.ct = ct) =
      true) ∧ (ct + 1000000 ≤ (s.at m).ct) :=
  ⟨{ ct := 1100000 }, 0, 3, 100000, { up with tly := { up.tly with markers := [{ link := 0, vc := 3, ct := 100000 }] } }, by
    decide⟩

theorem witness_TheTallyAuditsAndAnswers_5 :
    ∃ (m : Moment) (r : Req) (s : State), (serves opTlyRead m r s = true) ∧ (instExists (taken m r s) (r.f 0 1) (r.f 4 4) = true)
      ∧ (r.reaches (instPart (taken m r s) (r.f 0 1) (r.f 4 4)) = true) :=
  ⟨{}, (opTlyRead.named ({ cmdReq ([1, 0, 0, 0] ++ u32 0) with hdr := { partition := 0xFF, payloadLen := 8 } })), up, by decide⟩

theorem witness_TheTallyAuditsAndAnswers_6 :
    ∃ (m : Moment) (r : Req) (s : State) (b : Bytes), (serves opTlyEvidence m r s = true) ∧ (r.f 0 1 ≤ 7) ∧ ((taken m r
      s).err.evidence[r.f 0 1]? = some b) ∧ (r.hdr.sgCount = 0) :=
  ⟨{}, (opTlyEvidence.named (cmdReq [0])), { up with err := { up.err with evidence := [[7]] } }, [7], by decide⟩

theorem witness_TheTallyAuditsAndAnswers_7 :
    ∃ (m : Moment) (r : Req) (s : State) (b : Bytes) (l : List SgEntry), (serves opTlyEvidence m r s = true) ∧ (r.f 0 1 ≤ 7) ∧
      ((taken m r s).err.evidence[r.f 0 1]? = some b) ∧ (r.hdr.sgCount ≠ 0) ∧ ((sgCover r b.length (taken m r s)).toOption = some
      l) ∧ ((sgWrite l b (taken m r s)).2 = none) :=
  ⟨sgAt, (opTlyEvidence.named (sgReq [0])), { up with err := { up.err with evidence := [[7]] } }, [7],
    [{ idx := 0, addr := 0x2000, len := 2048 }], by decide⟩

theorem witness_TheTallyAuditsAndAnswers_8 :
    ∃ (m : Moment) (r : Req) (s : State), (serves opTlyConfig m r s = true) ∧ (r.f 0 1 = 0 ∨ r.f 0 1 = 1 ∧ (taken m r
      s).hmk.production = false) :=
  ⟨{}, (opTlyConfig.named (cmdReq [1])), up, by decide⟩

theorem witness_TouchstoneCommands_1 :
    ∃ (m : Moment) (r : Req) (s : State) (d : Bytes), (serves opTchIndexCreate m r s = true) ∧ (indexFieldsOk r = true) ∧ (thas
      (taken m r s).tch.indexes (r.f 0 1) = false) ∧ ((inData r ((if r.f 1 1 = 2 then r.f 0x0C 4 else 0) * (r.f 4 2 / 8)) (taken m
      r s)).toOption = some d) ∧ (indexFits (taken m r s)
      (({ partition := r.part16, kind := r.f 1 1, tier := r.f 2 1, shardMask := r.f 3 1, bits := r.f 4 2, degree := r.f 6 1, build := r.f 8 2, lists := r.f 0x0C 4, capacity := r.f 0x10 8, timeout := r.f 0x18 4, centroids := codesOf (r.f 4 2) (if r.f 1 1 = 2 then r.f 0x0C 4 else 0) d }
      : Index )) = true) :=
  ⟨{}, (opTchIndexCreate.named (cmdReq ([7, 0, 1, 1] ++ u16 64 ++ zeros 10 ++ u64 4 ++ u32 0))), up, [], by decide⟩

theorem witness_TouchstoneCommands_2 :
    ∃ (m : Moment) (r : Req) (s : State) (x : Index), (serves opTchIndexDrop m r s = true) ∧ (getIndex (taken m r s) (r.f 0 1) =
      some x) ∧ (r.reaches x.partition = true) ∧ (x.dropping = none) ∧ ((partGate opTchIndexDrop r x.partition (taken m r s)).isOk
      = true) ∧ (opRoom (taken m r s) r.fn = true) :=
  ⟨{}, (opTchIndexDrop.named (cmdReq [3])), upIndex (anIndex 0), anIndex 0, by decide⟩

theorem witness_TouchstoneCommands_3 :
    ∃ (m : Moment) (r : Req) (s : State) (x : Index) (d : Bytes), (serves opTchInsert m r s = true) ∧ (getIndex (taken m r s) (r.f
      0 1) = some x) ∧ (r.reaches x.partition = true) ∧ (x.dropping = none) ∧ ((partGate opTchInsert r x.partition (taken m r
      s)).isOk = true) ∧ (r.f 4 4 ≤ 495) ∧ ((inData r (r.f 4 4 * (8 + x.bits / 8)) (taken m r s)).toOption = some d) ∧ (insertLong
      m = false) ∧ ((insertAll m (r.f 0 1) 0 ((List.range (r.f 4 4)).map (fun k => (field d (k * (8 + x.bits / 8)) 8, field d (k *
      (8 + x.bits / 8) + 8) ((8 + x.bits / 8) - 8)))) (flushInserts m (r.f 0 1) (taken m r s))).2.1 = true) :=
  ⟨{ host := [(0x1000, u64 0x2000 ++ u32 16), (0x2000, u64 5 ++ u64 6)] }, (opTchInsert.named (sgReq ([3, 0, 0, 0] ++ u32 1))),
    upIndex (anIndex 0), anIndex 0, u64 5 ++ u64 6, by decide⟩

theorem witness_TouchstoneCommands_4 :
    ∃ (m : Moment) (r : Req) (s : State) (x : Index) (d : Bytes) (a : Nat × Nat) (rest : List (Nat × Nat)), (serves opTchInsert m
      r s = true) ∧ (getIndex (taken m r s) (r.f 0 1) = some x) ∧ (r.reaches x.partition = true) ∧ (x.dropping = none) ∧
      ((partGate opTchInsert r x.partition (taken m r s)).isOk = true) ∧ (r.f 4 4 ≤ 495) ∧ ((inData r (r.f 4 4 * (8 + x.bits / 8))
      (taken m r s)).toOption = some d) ∧ (insertLong m = true) ∧ ((List.range (r.f 4 4)).map (fun k => (field d (k * (8 + x.bits
      / 8)) 8, field d (k * (8 + x.bits / 8) + 8) ((8 + x.bits / 8) - 8))) = a :: rest) ∧ ((beginItem m 0 (r.f 0 1) a.1 a.2
      (flushInserts m (r.f 0 1) (taken m r s))).isSome = true) ∧ (opRoom (flushInserts m (r.f 0 1) (taken m r s)) r.fn = true) :=
  ⟨{ choice := List.replicate 496 1, host := [(0x1000, u64 0x2000 ++ u32 16), (0x2000, u64 5 ++ u64 6)] }, (opTchInsert.named
    (sgReq ([3, 0, 0, 0] ++ u32 1))), upIndex (anIndex 0), anIndex 0, u64 5 ++ u64 6, (5, 6), [], by decide⟩

theorem witness_TouchstoneCommands_5 :
    ∃ (m : Moment) (op : Nat) (ok : Bool) (o : LongOp) (q : InsertJob) (s : State), (getOp (s.at m) op = some o) ∧ (o.opcode =
      0x0902) ∧ (stopping (s.at m) op = false) ∧ ((s.at m).swl.reqs = []) ∧ (tget (s.at m).tch.inserts op = some q) :=
  ⟨{}, 1, true, { theOp with opcode := 0x0902 }, { index := 3, slot := 0 }, upInsert, by decide⟩

theorem witness_TouchstoneCommands_6 :
    ∃ (m : Moment) (op : Nat) (ok : Bool) (o : LongOp) (q : InsertJob) (s : State), (getOp (s.at m) op = some o) ∧ (o.opcode =
      0x0902) ∧ (stopping (s.at m) op = true) ∧ ((s.at m).swl.reqs = []) ∧ (tget (s.at m).tch.inserts op = some q) :=
  ⟨{}, 1, true, { theOp with opcode := 0x0902, cancelling := true }, { index := 3, slot := 0 },
    { upInsert with bench := { upInsert.bench with ops := [(1, { theOp with opcode := 0x0902, cancelling := true })] } }, by
    decide⟩

theorem witness_TouchstoneCommands_7 :
    ∃ (m : Moment) (r : Req) (s : State) (x y : Index) (a : Item), (serves opTchDelete m r s = true) ∧ (getIndex (taken m r s)
      (r.f 0 1) = some x) ∧ (r.reaches x.partition = true) ∧ (x.dropping = none) ∧ ((partGate opTchDelete r x.partition (taken m r
      s)).isOk = true) ∧ (r.f 1 1 = chip (taken m r s)) ∧ (getIndex (flushInserts m (r.f 0 1) (taken m r s)) (r.f 0 1) = some y) ∧
      (tget y.items (r.f 4 4) = some a) ∧ (slotGen y (r.f 4 4) = r.f 2 2) ∧ (a.sstate = .live) :=
  ⟨{}, (opTchDelete.named (cmdReq ([3, 0] ++ u16 1 ++ u32 0))), upIndex (anIndex 0), anIndex 0, anIndex 0,
    { code := 7, label := 9, ins := 0, sstate := .live }, by decide⟩

theorem witness_TouchstoneCommands_8 :
    ∃ (m : Moment) (r : Req) (s : State) (x : Index), (serves opTchQuery m r s = true) ∧ (getIndex (taken m r s) (r.f 0 1) = some
      x) ∧ (r.reaches x.partition = true) ∧ (x.dropping = none) ∧ ((partGate opTchQuery r x.partition (taken m r s)).isOk = true)
      ∧ (queryFieldsOk r x = true) ∧ (contextFree (taken m r s) x.partition = true) ∧ (queryNow m (taken m r s) x = true) ∧ (r.f 2
      2 ≤ 247) :=
  ⟨{}, (opTchQuery.named (cmdReq ([3, 0] ++ u16 1 ++ zeros 12 ++ u64 7))), upIndex (anIndex 0), anIndex 0, by decide⟩

theorem witness_TouchstoneCommands_9 :
    ∃ (m : Moment) (r : Req) (s : State) (x : Index) (l : List SgEntry), (serves opTchQuery m r s = true) ∧ (getIndex (taken m r
      s) (r.f 0 1) = some x) ∧ (r.reaches x.partition = true) ∧ (x.dropping = none) ∧ ((partGate opTchQuery r x.partition (taken m
      r s)).isOk = true) ∧ (queryFieldsOk r x = true) ∧ (contextFree (taken m r s) x.partition = true) ∧ (queryNow m (taken m r s)
      x = true) ∧ (247 < r.f 2 2) ∧ ((sgCover r (8 + 16 * r.f 2 2) (taken m r s)).isOk = true) ∧ ((sgCover r (8 + 16 * r.f 2 2)
      (bump .tchQueries x.partition 1 (freeContext (runShard (r.f 0 1) x [r.f 0x10 (x.bits / 8)] (taken m r s).ct (r.f 2 2) (r.f 4
      2) (r.f 6 2) (r.f 8 2) (bindContext (taken m r s))).2))).toOption = some l) ∧ ((sgWrite l (u16 (((runShard (r.f 0 1) x [r.f
      0x10 (x.bits / 8)] (taken m r s).ct (r.f 2 2) (r.f 4 2) (r.f 6 2) (r.f 8 2) (bindContext (taken m r s))).1.headD []).take
      (r.f 2 2)).length ++ zeros 6 ++ (((runShard (r.f 0 1) x [r.f 0x10 (x.bits / 8)] (taken m r s).ct (r.f 2 2) (r.f 4 2) (r.f 6
      2) (r.f 8 2) (bindContext (taken m r s))).1.headD []).take (r.f 2 2)).flatMap hitBytes) (bump .tchQueries x.partition 1
      (freeContext (runShard (r.f 0 1) x [r.f 0x10 (x.bits / 8)] (taken m r s).ct (r.f 2 2) (r.f 4 2) (r.f 6 2) (r.f 8 2)
      (bindContext (taken m r s))).2))).2 = none) :=
  ⟨{ host := [(0x1000, u64 0x2000 ++ u32 8192)] }, (opTchQuery.named (sgReq ([3, 0] ++ u16 248 ++ zeros 12 ++ u64 7))), upIndex
    (anIndex 0), anIndex 0, [{ idx := 0, addr := 0x2000, len := 8192 }], by decide⟩

theorem witness_TouchstoneCommands_10 :
    ∃ (m : Moment) (r : Req) (s : State) (x : Index), (serves opTchQuery m r s = true) ∧ (getIndex (taken m r s) (r.f 0 1) = some
      x) ∧ (r.reaches x.partition = true) ∧ (x.dropping = none) ∧ ((partGate opTchQuery r x.partition (taken m r s)).isOk = true)
      ∧ (queryFieldsOk r x = true) ∧ (contextFree (taken m r s) x.partition = true) ∧ (queryNow m (taken m r s) x = false) ∧
      (opRoom (taken m r s) r.fn = true) ∧ (r.f 2 2 ≤ 247 ∨ (sgCover r (8 + 16 * r.f 2 2) (taken m r s)).isOk = true) :=
  ⟨{}, (opTchQuery.named (cmdReq ([3, 0] ++ u16 1 ++ zeros 12 ++ u64 7))), upLink (upIndex { anIndex 0 with shardMask := 3 }),
    { anIndex 0 with shardMask := 3 }, by decide⟩

theorem witness_TouchstoneCommands_11 :
    ∃ (m : Moment) (r : Req) (s : State) (x : Index) (d : Bytes), (serves opTchBulk m r s = true) ∧ (getIndex (taken m r s) (r.f 0
      1) = some x) ∧ (r.reaches x.partition = true) ∧ (x.dropping = none) ∧ ((partGate opTchBulk r x.partition (taken m r s)).isOk
      = true) ∧ (x.kind ≠ 1) ∧ (1 ≤ r.f 2 2 ∧ r.f 2 2 ≤ 1024) ∧ (1 ≤ r.f 8 4 ∧ r.f 8 4 ≤ 65536) ∧ (x.kind = 2 → 1 ≤ r.f 4 2 ∧ r.f
      4 2 ≤ x.lists) ∧ (r.f 0x10 8 < partBytes (taken m r s) x.partition 1) ∧ (contextFree (taken m r s) x.partition = true) ∧
      ((sgCover r (r.f 8 4 * (x.bits / 8) + 16 * r.f 2 2 * r.f 8 4) (taken m r s)).isOk = true) ∧ ((inData r (r.f 8 4 * (x.bits /
      8)) (taken m r s)).toOption = some d) ∧ (opRoom (taken m r s) r.fn = true) :=
  ⟨sgAt, (opTchBulk.named (sgReq ([3, 0] ++ u16 1 ++ u16 0 ++ u16 0 ++ u32 1 ++ zeros 4 ++ u64 0))), upIndex (anIndex 0), anIndex
    0, zeros 8, by decide⟩

theorem witness_TouchstoneCommands_12 :
    ∃ (m : Moment) (r : Req) (s : State) (x : Index), (serves opTchIndexQuery m r s = true) ∧ (getIndex (taken m r s) (r.f 0 1) =
      some x) ∧ (r.reaches x.partition = true) ∧ (x.dropping = none) :=
  ⟨{}, (opTchIndexQuery.named (cmdReq [3])), upIndex (anIndex 0), anIndex 0, by decide⟩

theorem witness_TouchstoneCommands_13 :
    ∃ (m : Moment) (r : Req) (s : State) (x : Index), (serves opTchRepair m r s = true) ∧ (getIndex (taken m r s) (r.f 0 1) = some
      x) ∧ (r.reaches x.partition = true) ∧ (x.dropping = none) ∧ ((partGate opTchRepair r x.partition (taken m r s)).isOk = true)
      ∧ (x.kind = 1) ∧ (opRoom (taken m r s) r.fn = true) :=
  ⟨{}, (opTchRepair.named (cmdReq [3])), upIndex (anIndex 1), anIndex 1, by decide⟩

theorem witness_ShardsReclaimsAndRepair_1 :
    ∃ (m : Moment) (x : SubQuery) (i : Index) (s : State), (getIndex (s.at m) x.index = some i) ∧ (i.partition = x.partition) ∧
      (i.dropping = none) ∧ ((swlGot x.link 0 (x.codes.length * (i.bits / 8)) (s.at m)).ct ≤ x.snapshot + 1000000) ∧ (contextFree
      (swlGot x.link 0 (x.codes.length * (i.bits / 8)) (s.at m)) i.partition = true) :=
  ⟨{}, { link := 0, tag := 4, index := 3, partition := 0, snapshot := 0, topK := 1, codes := [7] }, anIndex 0, upLink (upIndex
    (anIndex 0)), by decide⟩

theorem witness_ShardsReclaimsAndRepair_2 :
    ∃ (m : Moment) (k c status : Nat) (l : List (List ShardHit)) (q : Query) (s : State), (tget (s.at m).tch.queries k = some q) ∧
      (q.waiting.contains c = true) :=
  ⟨{}, 1, 1, 0, [[{ label := 1, slot := 2, dist := 3 }]], aQuery, upQuery aQuery, by decide⟩

theorem witness_ShardsReclaimsAndRepair_3 :
    ∃ (m : Moment) (k : Nat) (q : Query) (s : State), (tget (s.at m).tch.queries k = some q) ∧ (q.due ≤ (s.at m).ct) :=
  ⟨{}, 1, aQuery, upQuery aQuery, by decide⟩

theorem witness_ShardsReclaimsAndRepair_4 :
    ∃ (k c : Nat) (s : State) (q : Query), tget s.tch.queries k = some q ∧ q.waiting.contains c = true :=
  ⟨1, 1, upQuery aQuery, aQuery, by decide⟩

theorem witness_ShardsReclaimsAndRepair_5 :
    ∃ (m : Moment) (i slot : Nat) (x : Index) (a : Item) (s : State), (getIndex (s.at m) i = some x) ∧ (tget x.items slot = some
      a) ∧ (a.sstate = .tombstone) ∧ (a.del + 1000000 ≤ (s.at m).ct) ∧ ((s.at m).tch.queries.any (fun e => e.2.index = i && decide
      (e.2.snapshot < a.del)) = false) :=
  ⟨{ ct := 2000000 }, 3, 0,
    { anIndex 0 with items := [(0, { code := 7, label := 9, ins := 0, del := 5, sstate := .tombstone })] },
    { code := 7, label := 9, ins := 0, del := 5, sstate := .tombstone }, upIndex
    { anIndex 0 with items := [(0, { code := 7, label := 9, ins := 0, del := 5, sstate := .tombstone })] }, by decide⟩

theorem witness_ShardsReclaimsAndRepair_6 :
    ∃ (m : Moment) (i : Nat) (x y : Index) (s : State), (getIndex (s.at m) i = some x) ∧ (x.dangling = true) ∧ (x.kind = 1) ∧
      (getIndex ((sweep i (s.at m)).2) i = some y) :=
  ⟨{}, 3, { anIndex 1 with dangling := true }, anIndex 1, upIndex { anIndex 1 with dangling := true }, by decide⟩

theorem witness_GatherCommands_1 :
    ∃ (m : Moment) (r : Req) (s : State) (d : Bytes) (v : Nat) (place : List (Nat × Nat)), (serves opGthTableLoad m r s = true) ∧
      (tableFieldsOk r = true) ∧ (thas (taken m r s).gth.tables (r.f 0 2) = false) ∧ ((inData r (r.f 8 8 * r.f 4 2) (taken m r
      s)).toOption = some d) ∧ (pickIdx m 0
      (({ partition := r.part16, format := r.f 2 1, tier := r.f 3 1, rowBytes := r.f 4 2, rows := r.f 8 8 } : GTable )).versions 4
      = some v) ∧ (placeUnits (taken m r s)
      (({ partition := r.part16, format := r.f 2 1, tier := r.f 3 1, rowBytes := r.f 4 2, rows := r.f 8 8 } : GTable )).partition
      (({ partition := r.part16, format := r.f 2 1, tier := r.f 3 1, rowBytes := r.f 4 2, rows := r.f 8 8 } : GTable )).tier
      ((({ partition := r.part16, format := r.f 2 1, tier := r.f 3 1, rowBytes := r.f 4 2, rows := r.f 8 8 } : GTable )).rows *
      (({ partition := r.part16, format := r.f 2 1, tier := r.f 3 1, rowBytes := r.f 4 2, rows := r.f 8 8 } : GTable )).rowBytes)
      = some place) ∧ (opRoom (taken m r s) r.fn = true) :=
  ⟨{ host := [(0x1000, u64 0x2000 ++ u32 16)] }, (opGthTableLoad.named (sgReq (u16 3 ++ [5, 1] ++ u16 16 ++ u16 0 ++ u64 1))), up,
    zeros 16, 0, [(0, 8192)], by decide⟩

theorem witness_GatherCommands_2 :
    ∃ (m : Moment) (r : Req) (s : State) (x : GTable) (d : Bytes) (v : Nat) (place : List (Nat × Nat)), (serves opGthTableLoad m r
      s = true) ∧ (r.f 0 2 < 1024) ∧ (getTable (taken m r s) (r.f 0 2) = some x) ∧ (r.reaches x.partition = true) ∧ (x.dropping =
      none) ∧ ((partGate opGthTableLoad r x.partition (taken m r s)).isOk = true) ∧ (tableFieldsOk r = true) ∧ (x.format = r.f 2
      1) ∧ (x.tier = r.f 3 1) ∧ (x.rowBytes = r.f 4 2) ∧ (x.rows = r.f 8 8) ∧ ((inData r (x.rows * x.rowBytes) (taken m r
      s)).toOption = some d) ∧ (pickIdx m 0 x.versions 4 = some v) ∧ (placeUnits (taken m r s) x.partition x.tier (x.rows *
      x.rowBytes) = some place) ∧ (opRoom (taken m r s) r.fn = true) :=
  ⟨{ host := [(0x1000, u64 0x2000 ++ u32 16)] }, (opGthTableLoad.named (sgReq (u16 3 ++ [5, 1] ++ u16 16 ++ u16 0 ++ u64 1))),
    upTable aTable, aTable, zeros 16, 1, [(0, 8192)], by decide⟩

theorem witness_GatherCommands_3 :
    ∃ (m : Moment) (r : Req) (s : State) (x : GTable) (c : GVersion) (d : Bytes) (v : Nat) (place : List (Nat × Nat)), (serves
      opGthTablePatch m r s = true) ∧ (r.f 0 2 < 1024) ∧ (getTable (taken m r s) (r.f 0 2) = some x) ∧ (r.reaches x.partition =
      true) ∧ (x.dropping = none) ∧ ((partGate opGthTablePatch r x.partition (taken m r s)).isOk = true) ∧ (x.current = some c) ∧
      ((inData r (r.f 4 4 * (4 + x.rowBytes)) (taken m r s)).toOption = some d) ∧ ((List.range (r.f 4 4)).find? (fun i => decide
      (x.rows ≤ (((List.range (r.f 4 4)).map (fun i => (field d (i * (4 + x.rowBytes)) 4, slice d (i * (4 + x.rowBytes) + 4)
      x.rowBytes))).getD i (0, [])).1)) = none) ∧ (pickIdx m 0 x.versions 4 = some v) ∧ (placeUnits (taken m r s) x.partition
      x.tier (x.rows * x.rowBytes) = some place) ∧ (opRoom (taken m r s) r.fn = true) :=
  ⟨{ host := [(0x1000, u64 0x2000 ++ u32 20)] }, (opGthTablePatch.named (sgReq (u16 3 ++ u16 0 ++ u32 1))), upTable aTable,
    aTable, { vstate := .current, rows := [zeros 16] }, zeros 20, 1, [(0, 8192)], by decide⟩

theorem witness_GatherCommands_4 :
    ∃ (m : Moment) (r : Req) (s : State) (x : GTable), (serves opGthTableDrop m r s = true) ∧ (r.f 0 2 < 1024) ∧ (getTable (taken
      m r s) (r.f 0 2) = some x) ∧ (r.reaches x.partition = true) ∧ (x.dropping = none) ∧ ((partGate opGthTableDrop r x.partition
      (taken m r s)).isOk = true) ∧ (opRoom (taken m r s) r.fn = true) :=
  ⟨{}, (opGthTableDrop.named (cmdReq (u16 3))), upTable aTable, aTable, by decide⟩

theorem witness_GatherCommands_5 :
    ∃ (m : Moment) (r : Req) (s : State) (x : GTable) (d : Bytes), (serves opGthHotSet m r s = true) ∧ (r.f 0 2 < 1024) ∧
      (getTable (taken m r s) (r.f 0 2) = some x) ∧ (r.reaches x.partition = true) ∧ (x.dropping = none) ∧ ((partGate opGthHotSet
      r x.partition (taken m r s)).isOk = true) ∧ (r.f 4 4 ≤ 65536) ∧ ((inData r (4 * r.f 4 4) (taken m r s)).toOption = some d) ∧
      ((List.range (r.f 4 4)).find? (fun i => decide (x.rows ≤ (codesOf 32 (r.f 4 4) d).getD i 0)) = none) :=
  ⟨{ host := [(0x1000, u64 0x2000 ++ u32 4)] }, (opGthHotSet.named (sgReq (u16 3 ++ u16 0 ++ u32 1))), upTable aTable, aTable, u32
    0, by decide⟩

theorem witness_GatherCommands_6 :
    ∃ (m : Moment) (r : Req) (s : State) (x : GTable) (v : Nat) (c : GVersion) (d : Bytes) (l : List SgEntry), (serves opGthRun m
      r s = true) ∧ (r.f 0 2 < 1024) ∧ (getTable (taken m r s) (r.f 0 2) = some x) ∧ (r.reaches x.partition = true) ∧ (x.dropping
      = none) ∧ ((partGate opGthRun r x.partition (taken m r s)).isOk = true) ∧ (r.f 2 1 ≤ 3) ∧ (1 ≤ r.f 4 4 ∧ r.f 4 4 ≤ 16777216)
      ∧ (r.f 2 1 = 0 → r.f 3 1 = x.format) ∧ (r.f 2 1 ≠ 0 → poolIn.contains x.format = true ∧ poolOut.contains (r.f 3 1) = true) ∧
      (r.f 0x10 8 < partBytes (taken m r s) x.partition 1) ∧ (x.currentEntry = some (v, c)) ∧ ((inData r (inputLen (r.f 2 1) (r.f
      8 4) (r.f 4 4)) (taken m r s)).toOption = some d) ∧ (offsetsOk (batchOffs r d) (r.f 4 4) = true) ∧ ((List.range (r.f 4
      4)).find? (fun i => decide (x.rows ≤ (batchIdx r d).getD i 0)) = none) ∧ (m.choice.getD 0 0 % 2 = 0) ∧ ((sgCover r
      ((inputLen (r.f 2 1) (r.f 8 4) (r.f 4 4)) + (gatherOut x c (r.f 2 1) (r.f 3 1) (r.f 8 4) (batchIdx r d) (batchWts r d)
      (batchOffs r d)).length) (taken m r s)).toOption = some l) ∧ ((sgWrite (sgDrop l (inputLen (r.f 2 1) (r.f 8 4) (r.f 4 4)))
      (gatherOut x c (r.f 2 1) (r.f 3 1) (r.f 8 4) (batchIdx r d) (batchWts r d) (batchOffs r d)) (taken m r s)).2 = none) ∧
      ((sgCover r ((inputLen (r.f 2 1) (r.f 8 4) (r.f 4 4)) + gatherLen x (r.f 2 1) (r.f 3 1) (r.f 8 4) (r.f 4 4)) (taken m r
      s)).isOk = true) :=
  ⟨{ host := [(0x1000, u64 0x2000 ++ u32 2048), (0x2000, u32 0 ++ u32 0 ++ u32 1)] }, (opGthRun.named (sgReq (u16 3 ++ [0, 5] ++
    u32 1 ++ u32 1 ++ u32 0 ++ u64 0))), upTable aTable, aTable, 0, { vstate := .current, rows := [zeros 16] }, u32 0 ++ u32 0 ++
    u32 1, [{ idx := 0, addr := 0x2000, len := 2048 }], by decide⟩

theorem witness_GatherCommands_7 :
    ∃ (m : Moment) (r : Req) (s : State) (x : GTable) (v : Nat) (c : GVersion) (d : Bytes), (serves opGthRun m r s = true) ∧ (r.f
      0 2 < 1024) ∧ (getTable (taken m r s) (r.f 0 2) = some x) ∧ (r.reaches x.partition = true) ∧ (x.dropping = none) ∧
      ((partGate opGthRun r x.partition (taken m r s)).isOk = true) ∧ (r.f 2 1 ≤ 3) ∧ (1 ≤ r.f 4 4 ∧ r.f 4 4 ≤ 16777216) ∧ (r.f 2
      1 = 0 → r.f 3 1 = x.format) ∧ (r.f 2 1 ≠ 0 → poolIn.contains x.format = true ∧ poolOut.contains (r.f 3 1) = true) ∧ (r.f
      0x10 8 < partBytes (taken m r s) x.partition 1) ∧ (x.currentEntry = some (v, c)) ∧ ((inData r (inputLen (r.f 2 1) (r.f 8 4)
      (r.f 4 4)) (taken m r s)).toOption = some d) ∧ (offsetsOk (batchOffs r d) (r.f 4 4) = true) ∧ ((List.range (r.f 4 4)).find?
      (fun i => decide (x.rows ≤ (batchIdx r d).getD i 0)) = none) ∧ (m.choice.getD 0 0 % 2 = 1) ∧ ((sgCover r ((inputLen (r.f 2
      1) (r.f 8 4) (r.f 4 4)) + gatherLen x (r.f 2 1) (r.f 3 1) (r.f 8 4) (r.f 4 4)) (taken m r s)).isOk = true) ∧ (opRoom (taken
      m r s) r.fn = true) :=
  ⟨{ choice := [1], host := [(0x1000, u64 0x2000 ++ u32 2048), (0x2000, u32 0 ++ u32 0 ++ u32 1)] }, (opGthRun.named (sgReq (u16 3
    ++ [0, 5] ++ u32 1 ++ u32 1 ++ u32 0 ++ u64 0))), upTable aTable, aTable, 0, { vstate := .current, rows := [zeros 16] }, u32 0
    ++ u32 0 ++ u32 1, by decide⟩

theorem witness_GatherCommands_8 :
    ∃ (m : Moment) (op : Nat) (ok : Bool) (o : LongOp) (b : GBatch) (x : GTable) (v : GVersion) (s : State), (getOp (s.at m) op =
      some o) ∧ (o.opcode = 0x090C) ∧ (o.cancelling = false) ∧ ((s.at m).swl.reqs = []) ∧ (tget (s.at m).gth.batches op = some b)
      ∧ (getTable (s.at m) b.table = some x) ∧ (tget x.versions b.version = some v) :=
  ⟨{}, 1, true, { theOp with opcode := 0x090C }, { table := 3, version := 0 }, aTable, { vstate := .current, rows := [zeros 16] },
    { upOp with bench := { upOp.bench with ops := [(1, { theOp with opcode := 0x090C })] }, gth := { tables := [(3, aTable)], batches := [(1, { table := 3, version := 0 })] } },
    by decide⟩

theorem witness_GatherCommands_9 :
    ∃ (m : Moment) (r : Req) (s : State) (x : GTable), (serves opGthTableQuery m r s = true) ∧ (r.f 0 2 < 1024) ∧ (getTable (taken
      m r s) (r.f 0 2) = some x) ∧ (r.reaches x.partition = true) ∧ (x.dropping = none) :=
  ⟨{}, (opGthTableQuery.named (cmdReq (u16 3))), upTable aTable, aTable, by decide⟩

theorem witness_PortsQueuePairsAndRegions_1 :
    ∃ (m : Moment) (r : Req) (s : State), (serves opNetPortSet m r s = true) ∧ (r.f 0 1 ≤ 7) ∧ (r.f 1 1 ≤ 2) ∧ (r.f 3 1 ≤ 7) ∧
      (popcount 8 (r.f 2 1) ≤ 2) ∧ (bit (r.f 2 1) (r.f 3 1) = false) :=
  ⟨{}, (opNetPortSet.named (cmdReq [7, 2, 3, 2])), up, by decide⟩

theorem witness_PortsQueuePairsAndRegions_2 :
    ∃ (m : Moment) (r : Req) (s : State), (serves opNetPortQuery m r s = true) ∧ (r.f 0 1 ≤ 7) :=
  ⟨{}, (opNetPortQuery.named (cmdReq [7])), up, by decide⟩

theorem witness_PortsQueuePairsAndRegions_3 :
    ∃ (m : Moment) (ifc : Nat) (s : State), (ifPresent (s.at m) ifc = true) ∧ (bit (getPort (s.at m) (ifc / 4)).linkUp (ifc % 4) =
      false) ∧ ((s.at m).elec.sdref = true) ∧ (2 ≤ (getGroup (s.at m) (0x28 + ifc / 4)).state) :=
  ⟨{}, 0, { up with elec := { up.elec with sdref := true } }, by decide⟩

theorem witness_PortsQueuePairsAndRegions_4 :
    ∃ (m : Moment) (ifc : Nat) (s : State), (ifPresent (s.at m) ifc = true) ∧ (bit (getPort (s.at m) (ifc / 4)).linkUp (ifc % 4) =
      true) :=
  ⟨{}, 0, { up with net := { up.net with ports := [(0, { linkUp := 1 })] } }, by decide⟩

theorem witness_PortsQueuePairsAndRegions_5 :
    ∃ (m : Moment) (r : Req) (s : State) (i : Nat), (serves opNetQpConnect m r s = true) ∧ (qpConnectOk r (taken m r s) = true) ∧
      ((qpKeyCheck r.part16 (r.f 0x30 4) (taken m r s)).isOk = true) ∧ (((taken m r s).net.qps.filter (fun e => e.2.partition =
      r.part16)).length < qpRoom (taken m r s) r.part16) ∧ (pickIdx m 0 (taken m r s).net.qps 16384 = some i) :=
  ⟨{}, (opNetQpConnect.named (cmdReq ([1, 1, 0, 0] ++ u32 1 ++ u32 0 ++ u32 0 ++ u32 0 ++ u16 1024 ++ u16 0 ++ zeros 24 ++ u32
    0xFFFFFFFF ++ zeros 8))), up, 0, by decide⟩

theorem witness_PortsQueuePairsAndRegions_6 :
    ∃ (m : Moment) (r : Req) (s : State) (i : Nat) (q : Qp), (serves opNetQpClose m r s = true) ∧ (qpFor r (taken m r s) (r.f 0 4)
      = some (i, q)) ∧ (q.state = .rts) ∧ (opRoom (taken m r s) r.fn = true) :=
  ⟨{}, (opNetQpClose.named (cmdReq (u32 1))), upQp aQp, 1, aQp, by decide⟩

theorem witness_PortsQueuePairsAndRegions_7 :
    ∃ (m : Moment) (r : Req) (s : State) (i : Nat) (q : Qp), (serves opNetQpClose m r s = true) ∧ (qpFor r (taken m r s) (r.f 0 4)
      = some (i, q)) ∧ (q.state = .error) ∧ (opRoom (taken m r s) r.fn = true) :=
  ⟨{}, (opNetQpClose.named (cmdReq (u32 1))), upQp { aQp with state := .error }, 1, { aQp with state := .error }, by decide⟩

theorem witness_PortsQueuePairsAndRegions_8 :
    ∃ (m : Moment) (r : Req) (s : State) (i : Nat) (q : Qp), (serves opNetQpQuery m r s = true) ∧ (qpFor r (taken m r s) (r.f 0 4)
      = some (i, q)) :=
  ⟨{}, (opNetQpQuery.named (cmdReq (u32 1))), upQp aQp, 1, aQp, by decide⟩

theorem witness_PortsQueuePairsAndRegions_9 :
    ∃ (m : Moment) (r : Req) (s : State), (serves opNetCcSet m r s = true) ∧ ((partGate opNetCcSet r (r.f 0 1) (taken m r s)).isOk
      = true) ∧ ((ccFrom r).ok = true) :=
  ⟨{}, (opNetCcSet.named (cmdReq ([0, 0, 0, 0] ++ u32 50 ++ u32 1 ++ u32 55 ++ u32 55 ++ u32 1000 ++ u32 100 ++ u32 0))), up, by
    decide⟩

theorem witness_PortsQueuePairsAndRegions_10 :
    ∃ (m : Moment) (r : Req) (s : State) (i : Nat), (serves opNetRegionReg m r s = true) ∧ (r.f 8 8 ≠ 0) ∧ (r.f 8 8 ≤ 2 ^ 48) ∧
      (r.f 4 4 = ones32 ∨ r.f 4 4 < 16384) ∧ (regionPlaceOk (taken m r s) r.part16 (r.f 0 1) (r.f 8 8) (r.f 0x10 8) = true) ∧
      (freeFrom (fun i => i = 0 || thas (taken m r s).net.regions i) 1048576 ((taken m r s).net.regions.length + 2) (m.choice.getD
      0 0 % 1048576) = some i) :=
  ⟨{}, (opNetRegionReg.named (cmdReq ([0, 3, 0, 0] ++ u32 0xFFFFFFFF ++ u64 64 ++ u64 (2 ^ 62)))), up, 1, by decide⟩

theorem witness_PortsQueuePairsAndRegions_11 :
    ∃ (m : Moment) (r : Req) (s : State) (i : Nat) (x : Region), (serves opNetRegionDereg m r s = true) ∧ ((regionOf (taken m r s)
      (r.f 0 4)).filter (fun e => r.reaches e.2.partition) = some (i, x)) ∧ (regionUsed (taken m r s) (r.f 0 4) x = false) :=
  ⟨{}, (opNetRegionDereg.named (cmdReq (u32 257))), upRegion aRegion, 1, aRegion, by decide⟩

theorem witness_PortsQueuePairsAndRegions_12 :
    ∃ (m : Moment) (r : Req) (s : State) (x : Region), (serves opNetRegionQuery m r s = true) ∧ ((tget (taken m r s).net.regions
      (r.f 0 4 / 256)).filter (fun x => x.gen = r.f 0 4 % 256 && r.reaches x.partition) = some x) :=
  ⟨{}, (opNetRegionQuery.named (cmdReq (u32 257))), upRegion aRegion, aRegion, by decide⟩

theorem witness_PortsQueuePairsAndRegions_13 :
    ∃ (m : Moment) (n : Nat) (x : Region) (s : State), (tget (s.at m).net.regions n = some x) ∧ (x.rstate = .quarantine) ∧
      (x.ctDereg + 500000000 ≤ (s.at m).ct) :=
  ⟨{ ct := 500000000 }, 1, { aRegion with rstate := .quarantine }, upRegion { aRegion with rstate := .quarantine }, by decide⟩

theorem witness_PostsChainsAndTheComposedMap_1 :
    ∃ (m : Moment) (r : Req) (s : State) (i : Nat) (q : Qp) (b : Bytes), (serves opNetPost m r s = true) ∧ (qpFor r (taken m r s)
      (r.f 0 4) = some (i, q)) ∧ ((qpReady (taken m r s) i).isOk = true) ∧ ((inData r (64 * r.f 4 4) (taken m r s)).toOption =
      some b) ∧ (((List.range (r.f 4 4)).map (fun j => postWr (slice b (64 * j) 64))).all (postWrOk (taken m r s) q) = true) ∧
      (r.f 4 4 ≠ 0) ∧ (opRoom (taken m r s) r.fn = true) ∧ ((List.range (r.f 4 4)).all (fun j => postGap (slice b (64 * j) 64)) =
      true) :=
  ⟨{ host := [(0x1000, u64 0x2000 ++ u32 64), (0x2000, fit 64 (zeros 4 ++ u32 257))] }, (opNetPost.named (sgReq (u32 1 ++ u32
    1))), { upQp aQp with net := { (upQp aQp).net with regions := [(1, aRegion)] } }, 1, aQp, fit 64 (zeros 4 ++ u32 257), by
    decide⟩

theorem witness_PostsChainsAndTheComposedMap_2 :
    ∃ (m : Moment) (r : Req) (s : State) (i : Nat) (q : Qp), (serves opNetPost m r s = true) ∧ (qpFor r (taken m r s) (r.f 0 4) =
      some (i, q)) ∧ ((qpReady (taken m r s) i).isOk = true) ∧ (r.f 4 4 = 0) ∧ ((inData r 0 (taken m r s)).isOk = true) :=
  ⟨{}, (opNetPost.named (cmdReq (u32 1 ++ u32 0))), upQp aQp, 1, aQp, by decide⟩

theorem witness_PostsChainsAndTheComposedMap_3 :
    ∃ (m : Moment) (r : Req) (s : State) (i : Nat), (serves opNetChainPost m r s = true) ∧ ((chainPostCheck r r.part16
      ((List.range (r.f 0x0D 1)).map (fun i => r.b (0x40 + 32 * i) 32)) (taken m r s)).isOk = true) ∧ (pickIdx m 0 (taken m r
      s).net.chains 65536 = some i) :=
  ⟨{}, (opNetChainPost.named (cmdReq (u32 0xFFFFFFFF ++ u32 5 ++ u32 257 ++ [0, 1] ++ zeros 0x32 ++ fit 0x220 [0]))), upRegion
    aRegion, 0, by decide⟩

theorem witness_PostsChainsAndTheComposedMap_4 :
    ∃ (m : Moment) (r : Req) (s : State) (c : Chain), (serves opNetChainCancel m r s = true) ∧ ((tget (taken m r s).net.chains
      (r.f 0 4 % 65536)).filter (fun c => c.gen = r.f 0 4 / 65536 && r.reaches c.partition) = some c) ∧ (c.cstate ≠ .firing) :=
  ⟨{}, (opNetChainCancel.named (cmdReq (u32 3))), upChain, aChain, by decide⟩

theorem witness_PostsChainsAndTheComposedMap_5 :
    ∃ (m : Moment) (r : Req) (s : State), (serves opNetMapUpdate m r s = true) ∧ (r.f 0 1 ≠ 0) ∧ (r.f 0 1 ≤ 64) ∧ ((mapCheck
      r.part16 ((List.range (r.f 0 1)).map (fun i => r.b (0x40 + 64 * i) 64)) (taken m r s)).isOk = true) ∧ (opRoom (taken m r s)
      r.fn = true) :=
  ⟨{}, (opNetMapUpdate.named (cmdReq ([1] ++ zeros 63 ++ fit 64 (u16 5 ++ [0, 0] ++ zeros 4 ++ u64 8192 ++ u32 1)))), upQp aQp, by
    decide⟩

theorem witness_PostsChainsAndTheComposedMap_6 :
    ∃ (n : Nat) (s : State) (x : MapOp), tget s.net.mapOps n = some x ∧ x.swap = false ∧ mapDrained s x = true ∧ stopping s n =
      false ∧ x.ranges = [] :=
  ⟨1, { upOp with net := { up.net with mapOps := [(1, { op := 1, partition := 0, swap := false, phase := 2 })] } },
    { op := 1, partition := 0, swap := false, phase := 2 }, by decide⟩

theorem witness_PostsChainsAndTheComposedMap_7 :
    ∃ (m : Moment) (r : Req) (s : State) (b : Bytes), (serves opNetMapSwap m r s = true) ∧ ((partGate opNetMapSwap r (r.f 0 1)
      (taken m r s)).isOk = true) ∧ (r.f 4 4 ≤ 65535) ∧ ((inData r (64 * r.f 4 4) (taken m r s)).toOption = some b) ∧
      ((mapSwapCheck (r.f 0 1) ((List.range (r.f 4 4)).map (fun i => slice b (64 * i) 64)) (taken m r s)).isOk = true) ∧ (opRoom
      (taken m r s) r.fn = true) :=
  ⟨{ host := [(0x1000, u64 0x2000 ++ u32 64), (0x2000, fit 64 (u16 5 ++ [0, 0] ++ zeros 4 ++ u64 8192 ++ u32 1))] },
    (opNetMapSwap.named (sgReq ([0, 0, 0, 0] ++ u32 1))), upQp aQp, fit 64 (u16 5 ++ [0, 0] ++ zeros 4 ++ u64 8192 ++ u32 1), by
    decide⟩

theorem witness_PostsChainsAndTheComposedMap_8 :
    ∃ (m : Moment) (p n : Nat) (x : MapOp) (s : State), ((s.at m).net.mapOps.find? (fun e => e.2.swap && e.2.partition = p) = some
      (n, x)) ∧ (x.due ≤ (s.at m).ct) ∧ (x.phase ≤ 2) ∧ (0 < mapOutstanding (s.at m) p) :=
  ⟨{}, 0, 1, { op := 1, partition := 0, swap := true, phase := 2 },
    { upOp with net := { up.net with qps := [(1, { aQp with msgs := [(1, { owner := .stream 0, lastPsn := 0, range := 3 })] })], mapOps := [(1, { op := 1, partition := 0, swap := true, phase := 2 })] } },
    by decide⟩

theorem witness_PostsChainsAndTheComposedMap_9 :
    ∃ (m : Moment) (p n : Nat) (x : MapOp) (s : State), ((s.at m).net.mapOps.find? (fun e => e.2.swap && e.2.partition = p) = some
      (n, x)) ∧ (x.due ≤ (s.at m).ct) ∧ (x.phase ≤ 2) ∧ (mapOutstanding (s.at m) p = 0) :=
  ⟨{}, 0, 1, { op := 1, partition := 0, swap := true, phase := 2 },
    { upOp with net := { up.net with mapOps := [(1, { op := 1, partition := 0, swap := true, phase := 2 })] } }, by decide⟩

theorem witness_PostsChainsAndTheComposedMap_10 :
    ∃ (m : Moment) (r : Req) (s : State), (serves opNetMapRead m r s = true) ∧ (r.f 2 2 ≠ 0) ∧ (r.f 2 2 ≤ 60) ∧ (r.f 0 2 + r.f 2 2
      ≤ 65535) :=
  ⟨{}, (opNetMapRead.named (cmdReq (u16 65534 ++ u16 1))), up, by decide⟩

theorem witness_PostsChainsAndTheComposedMap_11 :
    ∃ (m : Moment) (r : Req) (s : State), (serves opNetPtpSet m r s = true) ∧ ((setBits 32 (r.f 0 4)).all (ifPresent (taken m r
      s)) = true) ∧ (r.f 4 1 ≤ 1) ∧ (r.f 5 1 ≤ 2) ∧ (r.f 6 1 ≤ 127) :=
  ⟨{}, (opNetPtpSet.named (cmdReq (u32 1 ++ [1, 2, 127]))), up, by decide⟩

theorem witness_GxPacketsAreTaken_1 :
    ∃ (m : Moment) (p w : Pkt) (q z : Qp) (j : Nat) (r : Region) (s : State), ((arrives p.qp p (s.at m)).1 = true) ∧ (getQp (s.at
      m) p.qp = some q) ∧ (q.gx = true) ∧ (z.stalled.isEmpty = true) ∧ (getQp (answerCe p.qp p (s.at m)) p.qp = some z) ∧
      ((gxChecks m p.qp z p (answerCe p.qp p (s.at m))).packet = some w) ∧ (isResponse w = false) ∧ (regionOf (answerCe p.qp p
      (s.at m)) w.key = some (j, r)) ∧ ((missingList (answerCe p.qp p (s.at m)) r (gxAccess w).2.1 (gxAccess w).2.2).isEmpty =
      true) ∧ (w.opcode ≠ 0xE1) ∧ (bit w.flags 7 = false) :=
  ⟨{}, aPkt, aPkt, { aQp with ifMask := 1 }, { aQp with ifMask := 1 }, 1, aRegion, upNet aQp, by decide⟩

theorem witness_GxPacketsAreTaken_2 :
    ∃ (m : Moment) (p w : Pkt) (q z : Qp) (j : Nat) (r : Region) (s : State), ((arrives p.qp p (s.at m)).1 = true) ∧ (getQp (s.at
      m) p.qp = some q) ∧ (q.gx = true) ∧ (z.stalled.isEmpty = true) ∧ (getQp (answerCe p.qp p (s.at m)) p.qp = some z) ∧
      ((gxChecks m p.qp z p (answerCe p.qp p (s.at m))).packet = some w) ∧ (isResponse w = false) ∧ (regionOf (answerCe p.qp p
      (s.at m)) w.key = some (j, r)) ∧ ((missingList (answerCe p.qp p (s.at m)) r (gxAccess w).2.1 (gxAccess w).2.2).isEmpty =
      true) ∧ (w.opcode ≠ 0xE1) ∧ (bit w.flags 7 = true) :=
  ⟨{}, aSeal, aSeal, { aQp with ifMask := 1 }, { aQp with ifMask := 1 }, 1, aRegion, upNet aQp, by decide⟩

theorem witness_GxPacketsAreTaken_3 :
    ∃ (m : Moment) (p w : Pkt) (q z : Qp) (j : Nat) (r : Region) (s : State), ((arrives p.qp p (s.at m)).1 = true) ∧ (getQp (s.at
      m) p.qp = some q) ∧ (q.gx = true) ∧ (z.stalled.isEmpty = true) ∧ (getQp (answerCe p.qp p (s.at m)) p.qp = some z) ∧
      ((gxChecks m p.qp z p (answerCe p.qp p (s.at m))).packet = some w) ∧ (isResponse w = false) ∧ (regionOf (answerCe p.qp p
      (s.at m)) w.key = some (j, r)) ∧ ((missingList (answerCe p.qp p (s.at m)) r (gxAccess w).2.1 (gxAccess w).2.2).isEmpty =
      true) ∧ (w.opcode = 0xE1) :=
  ⟨{}, { aPkt with opcode := 0xE1, payload := [] }, { aPkt with opcode := 0xE1, payload := [] }, { aQp with ifMask := 1 },
    { aQp with ifMask := 1 }, 1, aRegion, upNet aQp, by decide⟩

theorem witness_GxPacketsAreTaken_4 :
    ∃ (m : Moment) (p w : Pkt) (q z : Qp) (s : State), ((arrives p.qp p (s.at m)).1 = true) ∧ (getQp (s.at m) p.qp = some q) ∧
      (q.gx = true) ∧ (z.stalled.isEmpty = true) ∧ (getQp (answerCe p.qp p (s.at m)) p.qp = some z) ∧ ((gxChecks m p.qp z p
      (answerCe p.qp p (s.at m))).packet = some w) ∧ (isResponse w = true) :=
  ⟨{}, { aPkt with bth := 0x10 }, { aPkt with bth := 0x10 },
    { aQp with ifMask := 1, msgs := [(1, { owner := .cons 0, lastPsn := 0, want := 4 })] },
    { aQp with ifMask := 1, msgs := [(1, { owner := .cons 0, lastPsn := 0, want := 4 })] }, upNet
    { aQp with msgs := [(1, { owner := .cons 0, lastPsn := 0, want := 4 })] }, by decide⟩

theorem witness_GxPacketsAreTaken_5 :
    ∃ (m : Moment) (p : Pkt) (q : Qp) (s : State), ((arrives p.qp p (s.at m)).1 = true) ∧ (getQp (s.at m) p.qp = some q) ∧ (q.gx =
      true) ∧ (gxWellFormed q p = true) ∧ (p.opcode = 0xE2) ∧ (gxAged (s.at m) p = false) :=
  ⟨{}, { qp := 1, opcode := 0xE2 }, { aQp with ifMask := 1 }, upNet aQp, by decide⟩

theorem witness_GxPacketsAreTaken_6 :
    ∃ (m : Moment) (p : Pkt) (q z : Qp) (s : State), ((arrives p.qp p (s.at m)).1 = true) ∧ (getQp (s.at m) p.qp = some q) ∧ (q.gx
      = false) ∧ (p.bth ≤ 0x0C) ∧ (p.psn = q.cumPsn) ∧ (getQp (answerCe p.qp p (s.at m)) p.qp = some z) :=
  ⟨{}, { qp := 1, bth := 10, key := 257, len := 1, payload := [7] }, { anRc with ifMask := 1 }, { anRc with ifMask := 1 }, upNet
    anRc, by decide⟩

theorem witness_GxPacketsAreTaken_7 :
    ∃ (m : Moment) (p : Pkt) (q : Qp) (s : State), ((arrives p.qp p (s.at m)).1 = true) ∧ (getQp (s.at m) p.qp = some q) ∧ (q.gx =
      false) ∧ (p.bth = 0x11) :=
  ⟨{}, { qp := 1, bth := 0x11 }, { anRc with ifMask := 1 }, upNet anRc, by decide⟩

theorem witness_GxPacketsAreTaken_8 :
    ∃ (m : Moment) (i : Nat) (q : Qp) (s : State), (getQp (s.at m) i = some q) :=
  ⟨{}, 1, { aQp with ifMask := 1 }, upNet aQp, by decide⟩

theorem witness_GxPacketsAreTaken_9 :
    ∃ (m : Moment) (i : Nat) (q : Qp) (s : State), (getQp (s.at m) i = some q) ∧ (q.ctInc + 1000 * (ccOf (s.at m)
      q.partition).aiPeriod ≤ (s.at m).ct) :=
  ⟨{ ct := 1000000 }, 1, { aQp with ifMask := 1 }, upNet aQp, by decide⟩

theorem witness_NetworkTimersAndEnds_1 :
    ∃ (m : Moment) (i : Nat) (q : Qp) (s : State), (getQp (s.at m) i = some q) ∧ (q.gx = true) ∧ (q.ackDue = true) ∧ (q.ctAck.all
      (fun c => decide (c + 1000 ≤ (s.at m).ct)) = true) :=
  ⟨{}, 1, { aQp with ackDue := true }, upQp { aQp with ackDue := true }, by decide⟩

theorem witness_NetworkTimersAndEnds_2 :
    ∃ (m : Moment) (i n : Nat) (q : Qp) (t : TxPkt) (s : State), (getQp (s.at m) i = some q) ∧ (tget q.tx n = some t) ∧ (q.gx =
      true) ∧ (t.sacked = false) ∧ (t.resend = none) ∧ (t.ctLast + q.ackTo ≤ (s.at m).ct) :=
  ⟨{ ct := 100000 }, 1, 0, { aQp with ifMask := 1, tx := [(0, { pkt := aPkt, ctFirst := 0, ctLast := 0, path := 0 })] },
    { pkt := aPkt, ctFirst := 0, ctLast := 0, path := 0 }, upNet
    { aQp with ifMask := 1, tx := [(0, { pkt := aPkt, ctFirst := 0, ctLast := 0, path := 0 })] }, by decide⟩

theorem witness_NetworkTimersAndEnds_3 :
    ∃ (m : Moment) (i n c : Nat) (t : TxPkt) (s : State), ((getQp (s.at m) i).bind (fun q => tget q.tx n) = some t) ∧ (t.resend =
      some c) ∧ (c ≤ (s.at m).ct) :=
  ⟨{ ct := 5 }, 1, 0, 5, { pkt := aPkt, ctFirst := 0, ctLast := 0, path := 0, resend := some 5 }, upNet
    { aQp with tx := [(0, { pkt := aPkt, ctFirst := 0, ctLast := 0, path := 0, resend := some 5 })] }, by decide⟩

theorem witness_NetworkTimersAndEnds_4 :
    ∃ (m : Moment) (i n c : Nat) (q : Qp) (s : State), (getQp (s.at m) i = some q) ∧ (tget q.pathSkip n = some c) ∧ (c ≤ (s.at
      m).ct) :=
  ⟨{ ct := 5 }, 1, 0, 5, { aQp with pathSkip := [(0, 5)] }, upQp { aQp with pathSkip := [(0, 5)] }, by decide⟩

theorem witness_NetworkTimersAndEnds_5 :
    ∃ (m : Moment) (i n : Nat) (q : Qp) (t : TxPkt) (s : State), (getQp (s.at m) i = some q) ∧ (q.tx.head? = some (n, t)) ∧ (q.gx
      = false) ∧ (t.ctLast + q.ackTo ≤ (s.at m).ct) :=
  ⟨{ ct := 100000 }, 1, 0, { anRc with ifMask := 1, tx := [(0, { pkt := {}, ctFirst := 0, ctLast := 0, path := 0 })] },
    { pkt := {}, ctFirst := 0, ctLast := 0, path := 0 }, upNet
    { anRc with tx := [(0, { pkt := {}, ctFirst := 0, ctLast := 0, path := 0 })] }, by decide⟩

theorem witness_NetworkTimersAndEnds_6 :
    ∃ (m : Moment) (i n : Nat) (q : Qp) (x : RxMsg) (p : Pkt) (s : State), (getQp (s.at m) i = some q) ∧ (tget q.rx n = some x) ∧
      (x.sealPkt = some p) ∧ (x.held = true) ∧ (x.ctSeal + q.sealTo ≤ (s.at m).ct) :=
  ⟨{ ct := 10000000 }, 1, 1, { aQp with rx := [(1, { held := true, sealPkt := some aSeal })] },
    { held := true, sealPkt := some aSeal }, aSeal, upQp { aQp with rx := [(1, { held := true, sealPkt := some aSeal })] }, by
    decide⟩

theorem witness_NetworkTimersAndEnds_7 :
    ∃ (m : Moment) (i : Nat) (q : Qp) (s : State), (getQp (s.at m) i = some q) ∧ (q.state = .draining) ∧ (q.msgs.all (fun x =>
      x.2.done || x.2.failed ≠ 0) = true ∨ q.drainDue ≤ (s.at m).ct) :=
  ⟨{}, 1, { aQp with state := .draining, drainOp := 1 },
    { upOp with net := { up.net with qps := [(1, { aQp with state := .draining, drainOp := 1 })] } }, by decide⟩

theorem witness_NetworkTimersAndEnds_8 :
    ∃ (m : Moment) (i : Nat) (q : Qp) (p : Pkt) (l : List Pkt) (s : State), (getQp (s.at m) i = some q) ∧ (q.stalled = p :: l) ∧
      (q.ctStall + 50000 ≤ (s.at m).ct) :=
  ⟨{ ct := 50000 }, 1, { aQp with stalled := [aPkt] }, aPkt, [], upQp { aQp with stalled := [aPkt] }, by decide⟩

theorem witness_NvmeAndPtp_1 :
    ∃ (m : Moment) (r : Req) (s : State) (i c : Nat) (x : Qp), (serves opNvmeConnect m r s = true) ∧ (qpOf (taken m r s) (r.f 0 4)
      = some (i, x)) ∧ (x.gx = false) ∧ (1 ≤ r.f 0x210 1 ∧ r.f 0x210 1 ≤ 64) ∧ (16 ≤ r.f 0x212 2 ∧ r.f 0x212 2 ≤ 1024) ∧ (x.state
      = .rts) ∧ (pickIdx m 0 (taken m r s).net.ctrls 64 = some c) ∧ (opRoom (taken m r s) r.fn = true) :=
  ⟨{}, (opNvmeConnect.named (cmdReq (fit 0x210 (u32 1) ++ [1, 0] ++ u16 16))), upQp anRc, 1, 0, anRc, by decide⟩

theorem witness_NvmeAndPtp_2 :
    ∃ (m : Moment) (r : Req) (s : State), (serves opNvmeDisconnect m r s = true) ∧ ((tget (taken m r s).net.ctrls (r.f 0
      1)).isSome = true) ∧ (opRoom (taken m r s) r.fn = true) :=
  ⟨{}, (opNvmeDisconnect.named (cmdReq [0])), upCtrl, by decide⟩

theorem witness_NvmeAndPtp_3 :
    ∃ (m : Moment) (n k : Nat) (ok : Bool) (data : Bytes) (c : NvCmd) (s : State), (tget (s.at m).net.cmds n = some c) ∧ (c.owner
      = .connect k) :=
  ⟨{}, 1, 1, true, [], { controller := 0, owner := .connect 1 }, upCtrl, by decide⟩

theorem witness_NvmeAndPtp_4 :
    ∃ (m : Moment) (n g : Nat) (ok : Bool) (data : Bytes) (c : NvCmd) (s : State), (tget (s.at m).net.cmds n = some c) ∧ (c.owner
      = .cut g) :=
  ⟨{}, 2, 0, true, [], { controller := 0, owner := .cut 0 }, upCtrl, by decide⟩

theorem witness_NvmeAndPtp_5 :
    ∃ (m : Moment) (n g : Nat) (ok : Bool) (data : Bytes) (c : NvCmd) (s : State), (tget (s.at m).net.cmds n = some c) ∧ (c.owner
      = .restore g) :=
  ⟨{}, 3, 0, true, [], { controller := 0, owner := .restore 0 }, upCtrl, by decide⟩

theorem witness_NvmeAndPtp_6 :
    ∃ (n c : Nat) (data : Bytes) (s : State) (x : NvCtrl), s.net.ctrls.find? (fun e => e.2.op = n) = some (c, x) ∧ (namespacesOf
      data).any (fun e => !((e.2.1 = 512 || e.2.1 = 4096) && e.2.2)) = false :=
  ⟨1, 0, u32 1 ++ u16 512 ++ [0, 0], upCtrl, { handle := 1, subnqn := [], hostnqn := [], ioQueues := 1, depth := 16, op := 1 }, by
    decide⟩

theorem witness_NvmeAndPtp_7 :
    ∃ (m : Moment) (c : Nat) (s : State), ((tget (s.at m).net.ctrls c).isSome = true) :=
  ⟨{}, 0, upCtrl, by decide⟩

theorem witness_NvmeAndPtp_8 :
    ∃ (m : Moment) (i every : Nat) (theta : Int) (s : State), (bit (s.at m).net.ptp.ifMask i = true) ∧ (syncEvery every = true) ∧
      ((s.at m).net.ptp.selected = some i) :=
  ⟨{}, 0, 1000000000, 5, upPtp, by decide⟩

theorem witness_NvmeAndPtp_9 :
    ∃ (m : Moment) (i rank every : Nat) (s : State), (bit (s.at m).net.ptp.ifMask i = true) ∧ (announceEvery every = true) :=
  ⟨{}, 0, 7, 1000000000, upPtp, by decide⟩

theorem witness_NvmeAndPtp_10 :
    ∃ (m : Moment) (i rank every ct : Nat) (s : State), (tget (s.at m).net.ptp.heard i = some (rank, every, ct)) ∧ (ct + 3 * every
      ≤ (s.at m).ct) :=
  ⟨{ ct := 3000000000 }, 0, 7, 1000000000, 0, upPtp, by decide⟩

theorem witness_NvmeAndPtp_11 :
    ∃ (m : Moment) (ct : Nat) (s : State), ((s.at m).clk.ptpLast = some ct) ∧ (ct + 4 * (s.at m).clk.ptpEvery ≤ (s.at m).ct ∨
      (s.at m).net.ptp.selected = none) :=
  ⟨{ ct := 4000000000 }, 0, { upPtp with clk := { up.clk with ptpLast := some 0, ptpEvery := 1000000000 } }, by decide⟩

theorem witness_LinksTrainReplayAndCredit_1 :
    ∃ (m : Moment) (r : Req) (s : State), (serves opSwlQuery m r s = true) ∧ (r.f 0 1 ≤ 6 ∨ r.f 0 1 = 0xFF) :=
  ⟨{}, (opSwlQuery.named (cmdReq [6])), up, by decide⟩

theorem witness_LinksTrainReplayAndCredit_2 :
    ∃ (m : Moment) (r : Req) (s : State), (serves opSwlLinkSet m r s = true) ∧ (r.f 0 1 ≤ 6) ∧ (r.f 1 1 = 0) ∧ ((getLink (taken m
      r s) (r.f 0 1)).up = true) :=
  ⟨{}, (opSwlLinkSet.named (cmdReq [0, 0])), upLink upOp, by decide⟩

theorem witness_LinksTrainReplayAndCredit_3 :
    ∃ (m : Moment) (r : Req) (s : State), (serves opSwlLinkSet m r s = true) ∧ (r.f 0 1 ≤ 6) ∧ (r.f 1 1 = 0) ∧ ((getLink (taken m
      r s) (r.f 0 1)).lstate = .fault) :=
  ⟨{}, (opSwlLinkSet.named (cmdReq [0, 0])), upTrain { lstate := .fault }, by decide⟩

theorem witness_LinksTrainReplayAndCredit_4 :
    ∃ (m : Moment) (r : Req) (s : State), (serves opSwlLinkSet m r s = true) ∧ (r.f 0 1 ≤ 6) ∧ (r.f 1 1 = 1) :=
  ⟨{}, (opSwlLinkSet.named (cmdReq [0, 1])), upLink upOp, by decide⟩

theorem witness_LinksTrainReplayAndCredit_5 :
    ∃ (m : Moment) (r : Req) (s : State), (serves opSwlLinkSet m r s = true) ∧ (r.f 0 1 ≤ 6) ∧ (r.f 1 1 = 2) ∧ ((getLink (taken m
      r s) (r.f 0 1)).lstate = .disabled) ∧ (2 ≤ (getGroup (taken m r s) (0x30 + r.f 0 1)).state) :=
  ⟨{}, (opSwlLinkSet.named (cmdReq [0, 2])), upTrain {}, by decide⟩

theorem witness_LinksTrainReplayAndCredit_6 :
    ∃ (m : Moment) (n : Nat) (id : TrainId) (s : State), (n ≤ 6) ∧ ((getLink (s.at m) n).lstate = .training) ∧ ((s.at
      m).elec.sdref = true) ∧ (4 ≤ popcount 8 id.lanes) ∧ (id.chip = linkPeer (modLink n (fun l =>
      { l with peerChip := id.chip % 8, peerCode := id.code }) (modLink n (fun l =>
      { l with lanes := id.lanes % 256, empty := false }) (s.at m))) n) ∧ (id.link = 6 - n) ∧ (id.release = (modLink n (fun l =>
      { l with peerChip := id.chip % 8, peerCode := id.code }) (modLink n (fun l =>
      { l with lanes := id.lanes % 256, empty := false }) (s.at m))).bench.fwVersion / 65536) :=
  ⟨{}, 0, { chip := 1, link := 6, code := 0, release := 0, lanes := 0x0F }, upTrain { lstate := .training }, by decide⟩

theorem witness_LinksTrainReplayAndCredit_7 :
    ∃ (m : Moment) (n : Nat) (id : TrainId) (s : State), (n ≤ 6) ∧ ((getLink (s.at m) n).lstate = .training) ∧ ((s.at
      m).elec.sdref = true) ∧ (4 ≤ popcount 8 id.lanes) ∧ (id.chip ≠ linkPeer (modLink n (fun l =>
      { l with peerChip := id.chip % 8, peerCode := id.code }) (modLink n (fun l =>
      { l with lanes := id.lanes % 256, empty := false }) (s.at m))) n ∨ id.link ≠ 6 - n) :=
  ⟨{}, 0, { chip := 2, link := 6, code := 0, release := 0, lanes := 0xFF }, upTrain { lstate := .training }, by decide⟩

theorem witness_LinksTrainReplayAndCredit_8 :
    ∃ (m : Moment) (n : Nat) (s : State), (n ≤ 6) ∧ ((getLink (s.at m) n).lstate = .training) ∧ ((getLink (s.at m) n).attempts =
      0) ∧ ((getLink (s.at m) n).ctState + 100000000 ≤ (s.at m).ct) :=
  ⟨{ ct := 100000000 }, 0, upTrain { lstate := .training }, by decide⟩

theorem witness_LinksTrainReplayAndCredit_9 :
    ∃ (m : Moment) (n : Nat) (s : State), (n ≤ 6) ∧ ((getLink (s.at m) n).lstate = .absent) ∧ ((getLink (s.at m) n).ctState +
      1000000000 ≤ (s.at m).ct) :=
  ⟨{ ct := 1000000000 }, 0, upTrain { lstate := .absent }, by decide⟩

theorem witness_LinksTrainReplayAndCredit_10 :
    ∃ (m : Moment) (n : Nat) (s : State), ((getLink (s.at m) n).up = true) :=
  ⟨{}, 0, upLink up, by decide⟩

theorem witness_LinksTrainReplayAndCredit_11 :
    ∃ (m : Moment) (n k : Nat) (s : State), ((getLink (s.at m) n).up = true) ∧ ((afterAck (getLink (s.at m) n).replay k).any (fun
      f => decide (3 ≤ f.replays)) = false) :=
  ⟨{}, 0, 5, upTrain { lstate := .up, replay := [{ seq := 5, vc := 0 }, { seq := 6, vc := 0 }] }, by decide⟩

theorem witness_LinksTrainReplayAndCredit_12 :
    ∃ (m : Moment) (n k : Nat) (s : State), ((getLink (s.at m) n).up = true) ∧ ((afterAck (getLink (s.at m) n).replay k).any (fun
      f => decide (3 ≤ f.replays)) = true) :=
  ⟨{}, 0, 5, upTrain { lstate := .up, replay := [{ seq := 6, vc := 0, replays := 3 }] }, by decide⟩

theorem witness_LinksTrainReplayAndCredit_13 :
    ∃ (m : Moment) (n vc c : Nat) (s : State), ((getLink (s.at m) n).up = true) ∧ (vc ≤ 3) :=
  ⟨{}, 0, 3, 2, upLink up, by decide⟩

theorem witness_LinkMessagesTakeEffect_1 :
    ∃ (m : Moment) (n tag : Nat) (a : DirAccess) (s : State), ((getLink (s.at m) n).up = true) :=
  ⟨{}, 0, 1, .read 0x1000000, upLink up, by decide⟩

theorem witness_LinkMessagesTakeEffect_2 :
    ∃ (id : Nat) (s : State) (e : DirEntry), getDir s id = some e :=
  ⟨0x1000000, upParked, aDir, by decide⟩

theorem witness_LinkMessagesTakeEffect_3 :
    ∃ (id : Nat) (s : State) (e : DirEntry), getDir s id = some e ∧ e.dstate = .parked :=
  ⟨0x1000000, upParked, aDir, by decide⟩

theorem witness_LinkMessagesTakeEffect_4 :
    ∃ (n id : Nat) (s : State) (e : DirEntry), getDir s id = some e ∧ e.activeChip = linkPeer s n ∧ e.dstate = .active :=
  ⟨0, 0x1000000, { upParked with pln := { upParked.pln with dir := [(0, { aDir with dstate := .active, activeChip := 1 })] } },
    { aDir with dstate := .active, activeChip := 1 }, by decide⟩

theorem witness_LinkMessagesTakeEffect_5 :
    ∃ (m : Moment) (link tag fn : Nat) (r : Req) (i : OpInfo) (body : Moment → Req → State → Reply) (s : State), ((getLink (s.at
      m) link).up = true) ∧ (commandOf r.hdr.opcode = some (i, body)) ∧ (precheck i (({ r with src := .forwarded link tag fn } :
      Req )) (swlGot link 0 r.payload.length (s.at m)) = none) ∧ ((engineOf i.opcode (({ r with src := .forwarded link tag fn } :
      Req ))).all (groupOpen (swlGot link 0 r.payload.length (s.at m))) = true) ∧ ((body m
      (({ r with src := .forwarded link tag fn } : Req )) (swlGot link 0 r.payload.length (s.at m))).pend = false) ∧ (lockedPair
      (body m (({ r with src := .forwarded link tag fn } : Req )) (swlGot link 0 r.payload.length (s.at m))).st (twinPart
      (({ r with src := .forwarded link tag fn } : Req )) (body m (({ r with src := .forwarded link tag fn } : Req )) (swlGot link
      0 r.payload.length (s.at m))).st) = none) :=
  ⟨{}, 0, 4, 0, { src := .mctp, hdr := { opcode := 1, payloadLen := 4 }, payload := u32 0 }, opQuery, bodyQuery, upLink up, by
    decide, rfl, by decide, by decide, by decide, by decide⟩

theorem witness_LinkMessagesTakeEffect_6 :
    ∃ (m : Moment) (r : Req) (i : OpInfo) (body : Moment → Req → State → Reply) (x : Pair) (s : State),
      ((({ r with src := .mirrored } : Req )).hdr.opcode ≠ 0x0B03 ∧ (({ r with src := .mirrored } : Req )).hdr.opcode ≠ pairLost ∧
      (({ r with src := .mirrored } : Req )).hdr.opcode ≠ copyFaulted) ∧ ((({ r with src := .mirrored } : Req )).hdr.opcode ≠
      0x0A09) ∧ (mirroredOps.contains (({ r with src := .mirrored } : Req )).hdr.opcode = true) ∧ (tget (s.at m).twn.pairs
      (twinPart (({ r with src := .mirrored } : Req )) (s.at m)) = some x) ∧ (x.secondary = true) ∧ (linkUp (s.at m) x.peer =
      true) ∧ (commandOf r.hdr.opcode = some (i, body)) ∧ (precheck i (({ r with src := .mirrored } : Req )) (swlGot (linkTo (s.at
      m) x.peer) 3 r.payload.length (s.at m)) = none) ∧ ((engineOf i.opcode (({ r with src := .mirrored } : Req ))).all (groupOpen
      (swlGot (linkTo (s.at m) x.peer) 3 r.payload.length (s.at m))) = true) ∧ ((body m (({ r with src := .mirrored } : Req ))
      (swlGot (linkTo (s.at m) x.peer) 3 r.payload.length (s.at m))).pend = false) ∧ ((lockedPair (body m
      (({ r with src := .mirrored } : Req )) (swlGot (linkTo (s.at m) x.peer) 3 r.payload.length (s.at m))).st (twinPart
      (({ r with src := .mirrored } : Req )) (body m (({ r with src := .mirrored } : Req )) (swlGot (linkTo (s.at m) x.peer) 3
      r.payload.length (s.at m))).st)).all (·.secondary) = true) :=
  ⟨{}, { src := .mctp, hdr := { opcode := 0x0401, payloadLen := 1 }, payload := [0] }, opModelUnload, bodyModelUnload,
    { aPair with secondary := true }, upPair { aPair with secondary := true }, by decide, by decide, by decide, by decide, by
    decide, by decide, rfl, by decide, by decide, by decide, by decide⟩

theorem witness_LinkMessagesTakeEffect_7 :
    ∃ (m : Moment) (r : Req) (x : Pair) (s : State), (r.hdr.opcode = pairLost) ∧ (tget (s.at m).twn.pairs
      ((({ r with src := .mirrored } : Req )).f 0 1) = some x) ∧ (linkUp (s.at m) x.peer = true) :=
  ⟨{}, { src := .mctp, hdr := { opcode := pairLost, payloadLen := 2 }, payload := [0, 1] }, aPair, upPair aPair, by decide⟩

theorem witness_LinkMessagesTakeEffect_8 :
    ∃ (m : Moment) (r : Req) (x : Pair) (s : State), (r.hdr.opcode = copyFaulted) ∧ (tget (s.at m).twn.pairs (twinPart
      (({ r with src := .mirrored } : Req )) (s.at m)) = some x) ∧ (linkUp (s.at m) x.peer = true) :=
  ⟨{}, { src := .mctp, hdr := { opcode := copyFaulted, payloadLen := 10 }, payload := u64 0x1000000 ++ u16 7 }, aPair, upPair
    aPair, by decide⟩

theorem witness_LinkMessagesTakeEffect_9 :
    ∃ (m : Moment) (n st d k : Nat) (b : Bytes) (q : SwlReq) (r : Req) (s : State), (tget (s.at m).swl.reqs n = some q) ∧ (q.wait
      = .forwarded r k) ∧ (¬ (st = 0 ∧ r.hdr.opcode = 0x010A)) :=
  ⟨{}, 1, 0, 0, 1, [], { link := 0, wait := .forwarded theOp.req 1 }, theOp.req, upAsked (.forwarded theOp.req 1), by decide⟩

theorem witness_LinkMessagesTakeEffect_10 :
    ∃ (m : Moment) (n st d k : Nat) (b : Bytes) (q : SwlReq) (s : State), (tget (s.at m).swl.reqs n = some q) ∧ (q.wait =
      .numberCheck k) :=
  ⟨{}, 1, 0, 0, 1, [], { link := 0, wait := .numberCheck 1 }, upAsked (.numberCheck 1), by decide⟩

theorem witness_LinkMessagesTakeEffect_11 :
    ∃ (m : Moment) (n d : Nat) (b : Bytes) (q : SwlReq) (r : Req) (s : State), (tget (s.at m).swl.reqs n = some q) ∧ (q.wait =
      .twinSet r) :=
  ⟨{}, 1, 0, [], { link := 0, wait := .twinSet theOp.req }, theOp.req, upAsked (.twinSet theOp.req), by decide⟩

theorem witness_LinkMessagesTakeEffect_12 :
    ∃ (m : Moment) (n k : Nat) (b : Bytes) (d : Desc) (s : State), ((getLink (s.at m) n).up = true) ∧ (tget (swlGot n 2 b.length
      (s.at m)).fdy.store k = some d) ∧ (d.engine.isSome = true) ∧ (d.srcChip = linkPeer (swlGot n 2 b.length (s.at m)) n) ∧
      (awaits (swlGot n 2 b.length (s.at m)) d = true) ∧ (d.srcTier ≠ 3) :=
  ⟨{}, 0, 4, [7], { aDesc with engine := some 0, srcChip := 1 }, upLink (upDesc { aDesc with engine := some 0, srcChip := 1 }), by
    decide⟩

theorem witness_TwinPairsFormEndAndCompare_1 :
    ∃ (m : Moment) (r : Req) (s : State), (serves opTwinSet m r s = true) ∧ (r.f 0 1 ≤ 15) ∧ (r.f 1 1 ≤ 7) ∧ (r.f 1 1 ≠ chip
      (taken m r s)) ∧ (r.f 2 1 ≤ 1) ∧ (1 ≤ r.f 3 1) ∧ (r.f 3 1 ≤ 8) ∧ (100000 ≤ r.f 4 4) ∧ (r.f 4 4 ≤ 100000000) ∧ ((tdispCheck
      opTwinSet r (r.f 0 1) (taken m r s)).isOk = true) ∧ (linkUp (taken m r s) (r.f 1 1) = true) ∧ (thas (taken m r s).twn.pairs
      (r.f 0 1) = false) :=
  ⟨{}, (opTwinSet.named (cmdReq ([0, 1, 0, 1] ++ u32 100000))), upLink upOp, by decide⟩

theorem witness_TwinPairsFormEndAndCompare_2 :
    ∃ (m : Moment) (r : Req) (s : State), (serves opTwinClear m r s = true) ∧ (r.f 0 1 ≤ 15) ∧ ((tdispCheck opTwinClear r (r.f 0
      1) (taken m r s)).isOk = true) ∧ (opRoom (taken m r s) r.fn = true) :=
  ⟨{}, (opTwinClear.named (cmdReq [0])), upPair aPair, by decide⟩

theorem witness_TwinPairsFormEndAndCompare_3 :
    ∃ (m : Moment) (r : Req) (s : State), (serves opTwinQuery m r s = true) ∧ (r.f 0 1 ≤ 15) ∧ (r.fn = 0 ∨ r.f 0 1 + 1 = r.fn) :=
  ⟨{}, (opTwinQuery.named (cmdReq [0])), upPair aPair, by decide⟩

theorem witness_TwinPairsFormEndAndCompare_4 :
    ∃ (m : Moment) (id base chunk : Nat) (lp : Nat × Pair) (s : State), (twinLink (s.at m) id = some lp) ∧ (lp.2.secondary = true) :=
  ⟨{}, 0x1000000, 10, 0, (0, { aPair with secondary := true }), upTwin { aPair with secondary := true }, by decide⟩

theorem witness_TwinPairsFormEndAndCompare_5 :
    ∃ (m : Moment) (id base lg d : Nat) (lp : Nat × Pair) (x : Session) (e : Nat × TwinStep) (s : State), (twinLink (s.at m) id =
      some lp) ∧ (getSess (s.at m) id = some x) ∧ (lp.2.secondary = false) ∧ ((stepsOf (swlGot lp.1 3 24 (s.at m)) id).find? (fun
      t => t.2.base = base && !thas t.2.peer lg) = some e) :=
  ⟨{}, 0x1000000, 10, 0, 7, (0, aPair), aSess, (1, { session := 0x1000000, base := 10, own := [(0, 7, 0)] }), upTwin aPair, by
    decide⟩

theorem witness_TwinPairsFormEndAndCompare_6 :
    ∃ (m : Moment) (p : Nat) (x : Pair) (s : State), (lockedPair (s.at m) p = some x) ∧ (x.secondary = false) ∧ (digestLate (s.at
      m) p x = true) :=
  ⟨{ ct := 200000 }, 0, aPair, upTwin aPair, by decide⟩

theorem witness_TwinPairsFormEndAndCompare_7 :
    ∃ (m : Moment) (p : Nat) (x : Pair) (s : State), (lockedPair (s.at m) p = some x) ∧ (x.secondary = true ∨ digestLate (s.at m)
      p x = false) ∧ (pairDark (s.at m) x = true) :=
  ⟨{ ct := 200000 }, 0, { aPair with secondary := true, ctDown := 5 }, upTwin { aPair with secondary := true, ctDown := 5 }, by
    decide⟩

theorem witness_CheckpointGroupsCutAndRestore_1 :
    ∃ (m : Moment) (r : Req) (s : State) (k : Nat × Qp), (serves opMldGroupSet m r s = true) ∧ ((getGroupCk (taken m r s) (r.f 0
      1)).any (fun x => !r.reaches x.partition) = false) ∧ ((getGroupCk (taken m r s) (r.f 0 1)).any (fun x => x.cstate ≠ .idle) =
      false) ∧ (r.f 3 1 = 0) ∧ (qpFor r (taken m r s) (r.f 8 4) = some k) ∧ (k.2.gx = false) ∧ (k.2.partition = r.part16) ∧
      (groupSetCheck r (lbaSize (taken m r s) (r.f 8 4) (r.f 0x0C 4)) (halfBlocks (max 1 (lbaSize (taken m r s) (r.f 8 4) (r.f
      0x0C 4))) (r.f 0x18 8) (r.f 0x20 4)) = true) :=
  ⟨{}, (opMldGroupSet.named (cmdReq ([2, 255, 0, 0] ++ u16 0 ++ u16 4095 ++ u32 1 ++ u32 1 ++ u64 0 ++ u64 1000 ++ u32 1 ++ u32 0
    ++ u64 0 ++ u64 0 ++ u16 0 ++ u16 0 ++ u32 1000))), upGroup aGroup, (1, anRc), by decide⟩

theorem witness_CheckpointGroupsCutAndRestore_2 :
    ∃ (m : Moment) (r : Req) (s : State), (serves opMldGroupSet m r s = true) ∧ ((getGroupCk (taken m r s) (r.f 0 1)).any (fun x
      => r.reaches x.partition && decide (x.cstate = .idle)) = true) ∧ (r.f 3 1 = 1) :=
  ⟨{}, (opMldGroupSet.named (cmdReq (fit 0x40 [2, 255, 0, 1]))), upGroup aGroup, by decide⟩

theorem witness_CheckpointGroupsCutAndRestore_3 :
    ∃ (m : Moment) (r : Req) (s : State) (x : CkGroup), (serves opMldGroupQuery m r s = true) ∧ (getGroupCk (taken m r s) (r.f 0
      1) = some x) ∧ (r.reaches x.partition = true) :=
  ⟨{}, (opMldGroupQuery.named (cmdReq [2])), upGroup aGroup, aGroup, by decide⟩

theorem witness_CheckpointGroupsCutAndRestore_4 :
    ∃ (m : Moment) (r : Req) (s : State) (x : CkGroup), (serves opMldCut m r s = true) ∧ (getGroupCk (taken m r s) (r.f 0 1) =
      some x) ∧ (r.reaches x.partition = true) ∧ (x.cstate = .idle) ∧ (cutSerialOk (taken m r s) = true) ∧ (opRoom (taken m r s)
      r.fn = true) :=
  ⟨{}, (opMldCut.named (cmdReq [2])), upGroup aGroup, aGroup, by decide⟩

theorem witness_CheckpointGroupsCutAndRestore_5 :
    ∃ (m : Moment) (r : Req) (s : State) (x : CkGroup) (c : Nat × NvCtrl), (serves opMldRestore m r s = true) ∧ (getGroupCk (taken
      m r s) (r.f 0 1) = some x) ∧ (r.reaches x.partition = true) ∧ (x.cstate = .idle) ∧ (1 ≤ r.f 1 1) ∧ (r.f 1 1 ≤ 2) ∧ (r.f 2 1
      ≤ 1) ∧ (r.f 8 8 = 0 ∨ targetOk (taken m r s) x.partition (r.f 8 8) = true) ∧ (ctrlOn (taken m r s) x.qp = some c) ∧ (opRoom
      (taken m r s) r.fn = true) :=
  ⟨{}, (opMldRestore.named (cmdReq (fit 0x10 [2, 2]))), upGroup aGroup, aGroup, (0,
    { handle := 1, connected := true, namespaces := [(1, 512)] }), by decide⟩

theorem witness_CheckpointGroupsCutAndRestore_6 :
    ∃ (m : Moment) (g : Nat) (x : CkGroup) (s : State), (getGroupCk (s.at m) g = some x) ∧ (x.period ≠ 0) ∧ (x.lastTimer < (s.at
      m).ct / x.period) :=
  ⟨{ ct := 1000000000 }, 2, { aGroup with period := 1000000000 }, upGroup { aGroup with period := 1000000000 }, by decide⟩

theorem witness_CheckpointGroupsCutAndRestore_7 :
    ∃ (m : Moment) (g : Nat) (x : CkGroup) (s : State), (getGroupCk (s.at m) g = some x) ∧ (x.cstate = .capture) ∧ (x.ctStart +
      1000 * x.window ≤ (s.at m).ct) :=
  ⟨{ ct := 1000000000 }, 2, { aGroup with cstate := .capture }, upGroup { aGroup with cstate := .capture }, by decide⟩

theorem witness_PartitionsAreMadeChangedAndTornDown_1 :
    ∃ (m : Moment) (r : Req) (s : State), (serves opHmkPartitionSet m r s = true) ∧ ((partSetCheck (r.f 0 1) (partAsked r) (taken
      m r s)).isOk = true) ∧ ((getPart (taken m r s) (r.f 0 1)).pstate = .off) :=
  ⟨{}, (opHmkPartitionSet.named (cmdReq ([1, 0] ++ u16 2 ++ u16 2 ++ u16 2 ++ u16 2 ++ u16 2 ++ u16 2 ++ u16 2 ++ u16 2 ++ u16 2
    ++ zeros 76))), up, by decide⟩

theorem witness_PartitionsAreMadeChangedAndTornDown_2 :
    ∃ (m : Moment) (r : Req) (s : State), (serves opHmkPartitionSet m r s = true) ∧ ((partSetCheck (r.f 0 1) (partAsked r) (taken
      m r s)).isOk = true) ∧ ((getPart (taken m r s) (r.f 0 1)).pstate ≠ .off) ∧ ((((List.range 3).map (fun k => maskLess
      ((getPart (taken m r s) (r.f 0 1)).masks.getD k 0) ((partAsked r).masks.getD k 0)) : List Nat )).all (· = 0) = true) :=
  ⟨{}, (opHmkPartitionSet.named (cmdReq ([0, 0] ++ u16 3 ++ u16 3 ++ u16 3 ++ u16 3 ++ u16 3 ++ u16 3 ++ u16 3 ++ u16 3 ++ u16 3
    ++ zeros 76))), up, by decide⟩

theorem witness_PartitionsAreMadeChangedAndTornDown_3 :
    ∃ (m : Moment) (r : Req) (s : State), (serves opHmkPartitionSet m r s = true) ∧ ((partSetCheck (r.f 0 1) (partAsked r) (taken
      m r s)).isOk = true) ∧ ((getPart (taken m r s) (r.f 0 1)).pstate ≠ .off) ∧ ((((List.range 3).map (fun k => maskLess
      ((getPart (taken m r s) (r.f 0 1)).masks.getD k 0) ((partAsked r).masks.getD k 0)) : List Nat )).all (· = 0) = false) ∧
      (opRoom (taken m r s) r.fn = true) :=
  ⟨{}, (opHmkPartitionSet.named (cmdReq ([0, 0] ++ u16 1 ++ u16 1 ++ u16 0 ++ u16 1 ++ u16 1 ++ u16 1 ++ u16 1 ++ u16 1 ++ u16 1
    ++ zeros 76))), up, by decide⟩

theorem witness_PartitionsAreMadeChangedAndTornDown_4 :
    ∃ (m : Moment) (r : Req) (s : State), (serves opHmkPartitionTeardown m r s = true) ∧ (r.f 0 1 ≤ 15) ∧ ((getPart (taken m r s)
      (r.f 0 1)).pstate = .active) ∧ (opRoom (taken m r s) r.fn = true) :=
  ⟨{}, (opHmkPartitionTeardown.named (cmdReq [0])), up, by decide⟩

theorem witness_PartitionsAreMadeChangedAndTornDown_5 :
    ∃ (m : Moment) (r : Req) (s : State), (serves opHmkPartitionQuery m r s = true) ∧ (r.f 0 1 ≤ 15) ∧ (r.fn = 0 ∨ r.f 0 1 + 1 =
      r.fn) :=
  ⟨{}, (opHmkPartitionQuery.named (cmdReq [0])), up, by decide⟩

theorem witness_PartitionsAreMadeChangedAndTornDown_6 :
    ∃ (m : Moment) (p : Nat) (s : State), ((getPart (s.at m) p).pstate = .teardown) ∧ ((getPart (s.at m) p).tdPhase = 1) ∧
      ((scrubGroups (getPart (s.at m) p) 1).all (fun g => (getGroup (s.at m) g).state = 3) = true) :=
  ⟨{}, 0, upTdi { aPart with pstate := .teardown, tdPhase := 1 }, by decide⟩

theorem witness_PartitionsAreMadeChangedAndTornDown_7 :
    ∃ (m : Moment) (p : Nat) (s : State), ((getPart (s.at m) p).pstate = .teardown) ∧ ((getPart (s.at m) p).tdPhase = 2) ∧
      ((scrubGroups (getPart (s.at m) p) 2).all (fun g => (getGroup (s.at m) g).state = 3) = true) :=
  ⟨{}, 0, upTdi { aPart with pstate := .teardown, tdPhase := 2, tileMask := 0, hbmMask := 0, lpddrMask := 0 }, by decide⟩

theorem witness_PartitionsAreMadeChangedAndTornDown_8 :
    ∃ (m : Moment) (p : Nat) (s : State), ((getPart (s.at m) p).pstate = .teardown) ∧ ((getPart (s.at m) p).tdPhase = 3) ∧
      ((scrubGroups (getPart (s.at m) p) 3).all (fun g => (getGroup (s.at m) g).state = 3) = true) :=
  ⟨{}, 0, upTdi { aPart with pstate := .teardown, tdPhase := 3, tileMask := 0, hbmMask := 0, lpddrMask := 0 }, by decide⟩

theorem witness_KeysEvidenceAndRollback_1 :
    ∃ (m : Moment) (r : Req) (s : State) (kek : Bytes), (serves opHmkKeyLoad m r s = true) ∧ (r.f 0 1 ≤ 63) ∧ ((getPart (taken m r
      s) r.part16).kek = some kek) ∧ (keyBusy (taken m r s) r.part16 (r.f 0 1) = false) :=
  ⟨{}, (opHmkKeyLoad.named (cmdReq (fit 0x30 [2]))), upTdi
    { aPart with confidential := false, tdi := .none, kek := some (zeros 32) }, zeros 32, by decide⟩

theorem witness_KeysEvidenceAndRollback_2 :
    ∃ (m : Moment) (r : Req) (s : State), (serves opHmkKeyDestroy m r s = true) ∧ ((keyOf (taken m r s) (r.f 0 4)).isSome = true)
      ∧ (r.reaches (bits (r.f 0 4) 11 8) = true) ∧ (keyBusy (taken m r s) (bits (r.f 0 4) 11 8) (r.f 0 4 % 256) = false) :=
  ⟨{}, (opHmkKeyDestroy.named (cmdReq (u32 (2 ^ 24 + 2)))), upTdi
    { aPart with keys := [(2, { gen := 1, key := some (zeros 32) })] }, by decide⟩

theorem witness_KeysEvidenceAndRollback_3 :
    ∃ (m : Moment) (r : Req) (s : State), (serves opHmkAttest m r s = true) ∧ (blocksOk r.fn (r.f 0x20 1) = true) :=
  ⟨{}, (opHmkAttest.named (cmdReq (zeros 32 ++ [2]))), up, by decide⟩

theorem witness_KeysEvidenceAndRollback_4 :
    ∃ (m : Moment) (r : Req) (s : State), (serves opHmkCertRead m r s = true) ∧ (r.f 0 1 ≤ 1) :=
  ⟨{}, (opHmkCertRead.named (cmdReq [1])), up, by decide⟩

theorem witness_KeysEvidenceAndRollback_5 :
    ∃ (r : Req), r.hdr.sgCount = 0 :=
  ⟨cmdReq [], by decide⟩

theorem witness_KeysEvidenceAndRollback_6 :
    ∃ (r : Req) (b : Bytes) (s : State) (l : List SgEntry), r.hdr.sgCount ≠ 0 ∧ carried r = false ∧ (sgCover r b.length
      s).toOption = some l ∧ (sgWrite l b s).2 = none :=
  ⟨sgReq [0], [7], up.at sgAt, [{ idx := 0, addr := 0x2000, len := 2048 }], by decide⟩

theorem witness_KeysEvidenceAndRollback_7 :
    ∃ (m : Moment) (r : Req) (s : State), (serves opHmkRollbackCommit m r s = true) ∧ ((taken m r s).hmk.production = true) ∧
      ((taken m r s).hmk.dualSigned = true) :=
  ⟨{}, (opHmkRollbackCommit.named (cmdReq [])),
    { up with hmk := { up.hmk with production := true, dualSigned := true, svn := 3 } }, by decide⟩

theorem witness_SpdmRequestsAreAnswered_1 :
    ∃ (m : Moment) (via : Nat) (s : State), (pathOpen (s.at m) via = true) ∧ (2 ≤ (s.at m).bench.bootPhase) :=
  ⟨{}, 1, upTdi aPart, by decide⟩

theorem witness_SpdmRequestsAreAnswered_2 :
    ∃ (m : Moment) (via : Nat) (s : State), (pathOpen (s.at m) via = true) ∧ (2 ≤ (s.at m).bench.bootPhase) ∧ ((connOf (s.at m)
      via).stage ≠ 0) :=
  ⟨{}, 1, upTdi aPart, by decide⟩

theorem witness_SpdmRequestsAreAnswered_3 :
    ∃ (m : Moment) (via : Nat) (s : State), (pathOpen (s.at m) via = true) ∧ (2 ≤ (s.at m).bench.bootPhase) ∧ (2 ≤ (connOf (s.at
      m) via).stage) :=
  ⟨{}, 1, upTdi aPart, by decide⟩

theorem witness_SpdmRequestsAreAnswered_4 :
    ∃ (m : Moment) (via n : Nat) (s : State), (pathOpen (s.at m) via = true) ∧ (2 ≤ (s.at m).bench.bootPhase) ∧ (spdmReady (s.at
      m) via n = none) :=
  ⟨{}, 1, 0, upTdi aPart, by decide⟩

theorem witness_SpdmRequestsAreAnswered_5 :
    ∃ (m : Moment) (via n offset len : Nat) (s : State), (pathOpen (s.at m) via = true) ∧ (2 ≤ (s.at m).bench.bootPhase) ∧
      (spdmReady (s.at m) via n = none) :=
  ⟨{}, 1, 0, 0, 64, upTdi aPart, by decide⟩

theorem witness_SpdmRequestsAreAnswered_6 :
    ∃ (m : Moment) (via n : Nat) (nonce : Bytes) (s : State), (pathOpen (s.at m) via = true) ∧ (2 ≤ (s.at m).bench.bootPhase) ∧
      (spdmReady (s.at m) via n = none) :=
  ⟨{}, 1, 0, [], upTdi aPart, by decide⟩

theorem witness_SpdmRequestsAreAnswered_7 :
    ∃ (m : Moment) (via n : Nat) (sign : Bool) (nonce : Bytes) (s : State), (pathOpen (s.at m) via = true) ∧ (2 ≤ (s.at
      m).bench.bootPhase) ∧ (spdmReady (s.at m) via n = none) :=
  ⟨{}, 1, 0, true, [], upTdi aPart, by decide⟩

theorem witness_SpdmRequestsAreAnswered_8 :
    ∃ (m : Moment) (via n k : Nat) (sign : Bool) (nonce : Bytes) (s : State), (pathOpen (s.at m) via = true) ∧ (2 ≤ (s.at
      m).bench.bootPhase) ∧ (spdmReady (s.at m) via n = none) ∧ (k ≠ 0) ∧ (((if k = 0xFF then blocksFor (pathFn via) else
      (blocksFor (pathFn via)).filter (· = k) : List Nat )) ≠ []) :=
  ⟨{}, 1, 0, 0xFF, true, [], upTdi aPart, by decide⟩

theorem witness_SpdmRequestsAreAnswered_9 :
    ∃ (m : Moment) (via n : Nat) (exchange : Bytes) (s : State), (pathOpen (s.at m) via = true) ∧ (2 ≤ (s.at m).bench.bootPhase) ∧
      ((connOf (s.at m) via).stage = 3) ∧ (pick m 0 ((List.range 33).filter (fun i => i ≠ 0 && !thas (s.at m).hmk.sessions i)) =
      some n) :=
  ⟨{}, 1, 3, [], upTdi aPart, by decide⟩

theorem witness_SpdmRequestsAreAnswered_10 :
    ∃ (m : Moment) (via n : Nat) (x : SpdmSession) (s : State), (pathOpen (s.at m) via = true) ∧ (2 ≤ (s.at m).bench.bootPhase) ∧
      (spdmSession (s.at m) via n = some x) ∧ (x.secured = false) :=
  ⟨{}, 1, 2, { via := 1 }, upTdi aPart, by decide⟩

theorem witness_SpdmRequestsAreAnswered_11 :
    ∃ (m : Moment) (via n : Nat) (x : SpdmSession) (s : State), (pathOpen (s.at m) via = true) ∧ (2 ≤ (s.at m).bench.bootPhase) ∧
      (spdmSession (s.at m) via n = some x) ∧ (x.secured = true) :=
  ⟨{}, 1, 1, { via := 1, secured := true }, upTdi aPart, by decide⟩

theorem witness_SpdmRequestsAreAnswered_12 :
    ∃ (m : Moment) (via n op tag : Nat) (x : SpdmSession) (s : State), (pathOpen (s.at m) via = true) ∧ (2 ≤ (s.at
      m).bench.bootPhase) ∧ (spdmSession (s.at m) via n = some x) ∧ (x.secured = true) ∧ (1 ≤ op) ∧ (op ≤ 3) :=
  ⟨{}, 1, 1, 2, 5, { via := 1, secured := true }, upTdi aPart, by decide⟩

theorem witness_SpdmRequestsAreAnswered_13 :
    ∃ (m : Moment) (via n : Nat) (x : SpdmSession) (s : State), (pathOpen (s.at m) via = true) ∧ (2 ≤ (s.at m).bench.bootPhase) ∧
      (spdmSession (s.at m) via n = some x) ∧ (x.secured = true) :=
  ⟨{}, 1, 1, { via := 1, secured := true }, upTdi aPart, by decide⟩

theorem witness_SpdmRequestsAreAnswered_14 :
    ∃ (m : Moment) (fn index : Nat) (s : State), (pathOpen (s.at m) fn = true) ∧ (2 ≤ (s.at m).bench.bootPhase) ∧ (fn ≠ 17) :=
  ⟨{}, 1, 0, upTdi aPart, by decide⟩

theorem witness_ConfidentialInterfacesAndKeys_1 :
    ∃ (m : Moment) (via n blocks : Nat) (nonce : Bytes) (s : State), (pathOpen (s.at m) via = true) ∧ (2 ≤ (s.at
      m).bench.bootPhase) ∧ (spdmReady (s.at m) via n = none) ∧ (blocksOk (pathFn via) blocks = true) :=
  ⟨{}, 1, 0, 2, [], upTdi aPart, by decide⟩

theorem witness_ConfidentialInterfacesAndKeys_2 :
    ∃ (m : Moment) (via n : Nat) (kek : Bytes) (s : State), (pathOpen (s.at m) via = true) ∧ (2 ≤ (s.at m).bench.bootPhase) ∧
      ((spdmSession (s.at m) via n).any (·.secured) = true) ∧ (1 ≤ via) ∧ (via ≤ 16) ∧ ((getPart (s.at m) (via - 1)).confidential
      = true) ∧ ((getPart (s.at m) (via - 1)).tdi = .locked ∨ (getPart (s.at m) (via - 1)).tdi = .run) :=
  ⟨{}, 1, 1, [], upTdi { aPart with tdi := .locked }, by decide⟩

theorem witness_ConfidentialInterfacesAndKeys_3 :
    ∃ (m : Moment) (via n : Nat) (x : IdeKm) (s : State), (pathOpen (s.at m) via = true) ∧ (2 ≤ (s.at m).bench.bootPhase) ∧ (via ≠
      17) ∧ ((spdmSession (s.at m) via n).any (·.secured) = true) ∧ (x.stream ≤ 16) ∧ (x.index < 12) ∧ ((ideStep (s.at m)
      x).isSome = true) :=
  ⟨{}, 1, 1, { kind := 2, stream := 1, fn := 1, index := 0 }, upTdi aPart, by decide⟩

theorem witness_ConfidentialInterfacesAndKeys_4 :
    ∃ (m : Moment) (via n fn : Nat) (s : State), (pathOpen (s.at m) via = true) ∧ (2 ≤ (s.at m).bench.bootPhase) ∧ (via ≠ 17) ∧
      ((spdmSession (s.at m) via n).any (·.secured) = true) ∧ (1 ≤ fn) ∧ (fn ≤ 16) ∧ (via = 0 ∨ via = fn) ∧ ((getPart (s.at m) (fn
      - 1)).pstate = .active) ∧ ((getPart (s.at m) (fn - 1)).confidential = true) ∧ ((getPart (s.at m) (fn - 1)).tdi = .unlocked)
      ∧ (streamBound (s.at m) fn = true) :=
  ⟨{}, 1, 1, 1, upTdi aPart, by decide⟩

theorem witness_ConfidentialInterfacesAndKeys_5 :
    ∃ (m : Moment) (via n fn : Nat) (s : State), (pathOpen (s.at m) via = true) ∧ (2 ≤ (s.at m).bench.bootPhase) ∧ (via ≠ 17) ∧
      ((spdmSession (s.at m) via n).any (·.secured) = true) ∧ (1 ≤ fn) ∧ (fn ≤ 16) ∧ (via = 0 ∨ via = fn) ∧ ((getPart (s.at m) (fn
      - 1)).pstate = .active) ∧ ((getPart (s.at m) (fn - 1)).confidential = true) ∧ ((getPart (s.at m) (fn - 1)).tdi = .locked) ∧
      ((getPart (s.at m) (fn - 1)).kek.isSome = true) :=
  ⟨{}, 1, 1, 1, upTdi { aPart with tdi := .locked, kek := some [] }, by decide⟩

theorem witness_ConfidentialInterfacesAndKeys_6 :
    ∃ (m : Moment) (via n fn : Nat) (s : State), (pathOpen (s.at m) via = true) ∧ (2 ≤ (s.at m).bench.bootPhase) ∧ (via ≠ 17) ∧
      ((spdmSession (s.at m) via n).any (·.secured) = true) ∧ (1 ≤ fn) ∧ (fn ≤ 16) ∧ (via = 0 ∨ via = fn) ∧ ((getPart (s.at m) (fn
      - 1)).pstate = .active) ∧ ((getPart (s.at m) (fn - 1)).confidential = true) ∧ ((getPart (s.at m) (fn - 1)).tdi = .locked ∨
      (getPart (s.at m) (fn - 1)).tdi = .run ∨ (getPart (s.at m) (fn - 1)).tdi = .error) :=
  ⟨{}, 1, 1, 1, upTdi { aPart with tdi := .locked }, by decide⟩

theorem witness_ConfidentialInterfacesAndKeys_7 :
    ∃ (m : Moment) (fn : Nat) (s : State), (1 ≤ fn) ∧ (fn ≤ 16) ∧ ((getPart (s.at m) (fn - 1)).tdi = .run ∨ (getPart (s.at m) (fn
      - 1)).tdi = .locked) :=
  ⟨{}, 1, upTdi { aPart with tdi := .run }, by decide⟩

theorem witness_ConfidentialInterfacesAndKeys_8 :
    ∃ (m : Moment) (fn : Nat) (s : State), (1 ≤ fn) ∧ (fn ≤ 16) ∧ ((getPart (s.at m) (fn - 1)).tdi = .run) :=
  ⟨{}, 1, upTdi { aPart with tdi := .run }, by decide⟩

theorem witness_PowerGroupsSensorsAndTheTrip_1 :
    ∃ (m : Moment) (r : Req) (s : State), (serves opPwrSet m r s = true) ∧ ((pwrSetCheck ((setBits 64 (r.f 0 8) : List Nat )) (r.f
      8 1) (r.f 9 1) (taken m r s)).isOk = true) ∧ (opRoom (taken m r s) r.fn = true) :=
  ⟨{}, (opPwrSet.named (cmdReq (u64 1 ++ [2, 255] ++ zeros 6))), up, by decide⟩

theorem witness_PowerGroupsSensorsAndTheTrip_2 :
    ∃ (m : Moment) (r : Req) (s : State), (serves opPwrQuery m r s = true) :=
  ⟨{}, (opPwrQuery.named (cmdReq [])), up, by decide⟩

theorem witness_PowerGroupsSensorsAndTheTrip_3 :
    ∃ (m : Moment) (r : Req) (s : State), (serves opPwrResume m r s = true) ∧ ((taken m r s).bench.devState = .safe) ∧ (cooled
      (taken m r s) = true) :=
  ⟨{}, (opPwrResume.named (cmdReq [])), { up with bench := { up.bench with devState := .safe } }, by decide⟩

theorem witness_PowerGroupsSensorsAndTheTrip_4 :
    ∃ (g : Nat) (s : State) (t : Trans), (getGroup s g).run = some t ∧ t.phase = 5 ∧ (t.perf.isSome && !s.pwr.tripped && midGroup
      s g) = false :=
  ⟨0, setGroup 0 { run := some { state := none, perf := none, op := 1, phase := 5 } } up,
    { state := none, perf := none, op := 1, phase := 5 }, by decide⟩

theorem witness_PowerGroupsSensorsAndTheTrip_5 :
    ∃ (g : Nat) (s : State) (t : Trans), (getGroup s g).run = some t ∧ t.phase = 2 ∧ groupDrained s g = true :=
  ⟨0, setGroup 0 { run := some { state := none, perf := none, op := 1, phase := 2 } } up,
    { state := none, perf := none, op := 1, phase := 2 }, by decide⟩

theorem witness_PowerGroupsSensorsAndTheTrip_6 :
    ∃ (m : Moment) (l : List (Nat × Int)) (s : State), ((l.foldl takeReading (s.at m)).pwr.readings.find? (fun e => meanAtLeast
      e.2 (l.foldl takeReading (s.at m)).pwr.tripTemp) = none) :=
  ⟨{}, [(0, 640)], up, by decide⟩

theorem witness_PowerGroupsSensorsAndTheTrip_7 :
    ∃ (m : Moment) (l : List (Nat × Int)) (e : Nat × List Int) (s : State), ((l.foldl takeReading (s.at m)).pwr.readings.find?
      (fun e => meanAtLeast e.2 (l.foldl takeReading (s.at m)).pwr.tripTemp) = some e) :=
  ⟨{}, [(0, 2000)], (0, [2000]), up, by decide⟩

theorem witness_PowerGroupsSensorsAndTheTrip_8 :
    ∃ (m : Moment) (a : Nat) (s : State), (tooMuch
      (({ (s.at m) with pwr := { (s.at m).pwr with amps := a, ctAbove := if a ≤ (s.at m).pwr.limit then none else some ((s.at m).pwr.ctAbove.getD (s.at m).ct) } }
      : State )) = false) :=
  ⟨{}, 900, up, by decide⟩

theorem witness_PowerGroupsSensorsAndTheTrip_9 :
    ∃ (m : Moment) (a : Nat) (s : State), (tooMuch
      (({ (s.at m) with pwr := { (s.at m).pwr with amps := a, ctAbove := if a ≤ (s.at m).pwr.limit then none else some ((s.at m).pwr.ctAbove.getD (s.at m).ct) } }
      : State )) = true) :=
  ⟨{ ct := 60000 }, 9000, { up with pwr := { up.pwr with ctAbove := some 5 } }, by decide⟩

theorem witness_ClusterTimeIsKeptSteppedAndLost_1 :
    ∃ (m : Moment) (r : Req) (s : State), (serves opCtConfig m r s = true) ∧ (timeRanges (r.f 0 1) (r.f 4 4) (r.f 0x0C 4) (r.f
      0x10 4) (r.f 0x14 1) (r.f 0x16 2) = true) :=
  ⟨{}, (opCtConfig.named (cmdReq ([0, 0, 0, 0] ++ u32 1000000 ++ u32 0 ++ u32 1000 ++ u32 1000000 ++ [100, 0] ++ u16 2000))), up,
    by decide⟩

theorem witness_ClusterTimeIsKeptSteppedAndLost_2 :
    ∃ (m : Moment) (r : Req) (s : State), (serves opCtStep m r s = true) ∧ (r.f 0 1 = 1) :=
  ⟨{}, (opCtStep.named (cmdReq ([1] ++ zeros 7 ++ u64 5000))), up, by decide⟩

theorem witness_ClusterTimeIsKeptSteppedAndLost_3 :
    ∃ (m : Moment) (r : Req) (s : State) (p : Int × Nat), (serves opCtStep m r s = true) ∧ (r.f 0 1 = 0) ∧ ((taken m r
      s).clk.pending = some p) ∧ ((taken m r s).ct ≤ p.2 + 10000000000) :=
  ⟨{}, (opCtStep.named (cmdReq (zeros 16))), { up with clk := { up.clk with pending := some (-2000000, 5) } }, (-2000000, 5), by
    decide⟩

theorem witness_ClusterTimeIsKeptSteppedAndLost_4 :
    ∃ (m : Moment) (r : Req) (s : State), (serves opCtLeapLoad m r s = true) ∧ (leapOk r.payload 0x10 (r.f 0 1) (r.f 8 8) = true) :=
  ⟨{}, (opCtLeapLoad.named (cmdReq ([1] ++ zeros 7 ++ u64 9000 ++ u64 500 ++ u16 37 ++ zeros 6))), up, by decide⟩

theorem witness_ClusterTimeIsKeptSteppedAndLost_5 :
    ∃ (m : Moment) (w : Nat) (s : State), ((s.at m).clk.tsrc ≠ 0) ∧ (20 ≤ w) ∧ ((s.at m).clk.cadLocked = false) :=
  ⟨{}, 50, { up with clk := { up.clk with tsrc := 2 } }, by decide⟩

theorem witness_ClusterTimeIsKeptSteppedAndLost_6 :
    ∃ (m : Moment) (w : Nat) (s : State), ((s.at m).clk.tsrc ≠ 0) ∧ (20 ≤ w) ∧ ((s.at m).clk.cadLocked = true) ∧ (cadWindow (s.at
      m).clk (cadNearest (s.at m).clk (s.at m).ct).2 = true) ∧ ((cadNearest (s.at m).clk (s.at m).clk.cadLast).1 < (cadNearest
      (s.at m).clk (s.at m).ct).1) :=
  ⟨{ ct := 2000000 }, 50, { up with clk := { up.clk with tsrc := 2, cadLocked := true, cadLast := 1000000 } }, by decide⟩

theorem witness_ClusterTimeIsKeptSteppedAndLost_7 :
    ∃ (m : Moment) (w : Nat) (s : State), ((s.at m).clk.tsrc ≠ 0) ∧ (20 ≤ w) ∧ ((s.at m).clk.cadLocked = true) ∧ (cadWindow (s.at
      m).clk (cadNearest (s.at m).clk (s.at m).ct).2 = false ∨ (cadNearest (s.at m).clk (s.at m).ct).1 ≤ (cadNearest (s.at m).clk
      (s.at m).clk.cadLast).1) :=
  ⟨{ ct := 2400000 }, 50, { up with clk := { up.clk with tsrc := 2, cadLocked := true, cadLast := 1000000 } }, by decide⟩

theorem witness_ClusterTimeIsKeptSteppedAndLost_8 :
    ∃ (m : Moment) (w : Nat) (s : State), ((s.at m).clk.tsrc ≠ 0) ∧ (w < 20) :=
  ⟨{}, 19, { up with clk := { up.clk with tsrc := 2 } }, by decide⟩

theorem witness_ClusterTimeIsKeptSteppedAndLost_9 :
    ∃ (m : Moment) (s : State), ((s.at m).clk.cadLocked = true) ∧ ((s.at m).clk.cadLast + 3 * (s.at m).clk.period ≤ (s.at m).ct) :=
  ⟨{ ct := 9000000 }, { up with clk := { up.clk with tsrc := 2, cadLocked := true } }, by decide⟩

theorem witness_ClusterTimeIsKeptSteppedAndLost_10 :
    ∃ (m : Moment) (s : State), ((s.at m).clk.tstate = .holdover) ∧ ((s.at m).clk.budget < uncertainty (s.at m)) :=
  ⟨{}, { up with clk := { up.clk with tstate := .holdover, u0 := 2000000000 } }, by decide⟩

theorem witness_ClusterTimeIsKeptSteppedAndLost_11 :
    ∃ (m : Moment) (s : State), ((s.at m).clk.leapStale = false) ∧ ((s.at m).clk.expires ≤ (s.at m).ct) :=
  ⟨{ ct := 9 }, { up with clk := { up.clk with expires := 5 } }, by decide⟩

theorem witness_SettingsGenerationsAndLifeAreKept_1 :
    ∃ (m : Moment) (r : Req) (s : State), (serves opAonSettingsSave m r s = true) ∧ (imageValid (taken m r s) (r.b 0 2048) = true)
      ∧ ([0x0E, 0x0F].any (fun g => groupPresent (taken m r s) g && decide (16 ≤ field (r.b 0 2048) (0x10 + g) 1)) = false) :=
  save_serves

theorem witness_SettingsGenerationsAndLifeAreKept_2 :
    ∃ (m : Moment) (r : Req) (s : State) (b : Bytes), (serves opAonSettingsRead m r s = true) ∧ (r.f 0 1 ≤ 6) ∧ (settingsImage
      (taken m r s) (r.f 0 1) = some b) :=
  ⟨{}, (opAonSettingsRead.named (cmdReq [1])), { up with aon := { up.aon with settings := some [7] } }, [7], by decide⟩

theorem witness_SettingsGenerationsAndLifeAreKept_3 :
    ∃ (m : Moment) (r : Req) (s : State), (serves opAonSettingsRead m r s = true) ∧ (r.f 0 1 ≤ 6) ∧ (settingsImage (taken m r s)
      (r.f 0 1) = none) :=
  ⟨{}, (opAonSettingsRead.named (cmdReq [2])), up, by decide⟩

theorem witness_SettingsGenerationsAndLifeAreKept_4 :
    ∃ (m : Moment) (r : Req) (s : State) (b : Bytes) (g : Nat), (serves opOtpProgram m r s = true) ∧ ((inData r 7456 (taken m r
      s)).toOption = some b) ∧ (otpFree (taken m r s) = some g) ∧ (imageValid (taken m r s) (b.take 2048) = true) :=
  otp_reads

theorem witness_SettingsGenerationsAndLifeAreKept_5 :
    ∃ (m : Moment) (r : Req) (s : State), (serves opAonLifeRead m r s = true) :=
  ⟨{}, (opAonLifeRead.named (cmdReq [])), up, by decide⟩

theorem witness_SettingsGenerationsAndLifeAreKept_6 :
    ∃ (m : Moment) (r : Req) (s : State), (serves opAonLifeSync m r s = true) :=
  ⟨{}, (opAonLifeSync.named (cmdReq [])), up, by decide⟩

theorem witness_SettingsGenerationsAndLifeAreKept_7 :
    ∃ (m : Moment) (s : State), ((s.at m).aon.mirror.any (fun x => x.ct / 1000000000 = (s.at m).ct / 1000000000) = false) :=
  ⟨{ ct := 1000000000 }, { up with aon := { up.aon with mirror := some {} } }, by decide⟩

theorem witness_SettingsGenerationsAndLifeAreKept_8 :
    ∃ (m : Moment) (failing : List Nat) (s : State), ((s.at m).ct / 600000000000 ≠ (s.at m).aon.jCt / 600000000000 ∨ ceilingNear
      (s.at m) = true) :=
  ⟨{ ct := 600000000000 }, [], up, by decide⟩

theorem witness_ErrorsAreCountedContainedAndFatal_1 :
    ∃ (tier : Nat), 1 ≤ tier :=
  ⟨2, by decide⟩

theorem witness_ErrorsAreCountedContainedAndFatal_2 :
    ∃ (m : Moment) (d : UeData) (a : UeAt) (s : State), (∀ k, d ≠ .shared k) :=
  ⟨{}, .session 0x1000000, { tier := 1, chan := 0, addr := 0 }, upSess aSess, (fun k h => by cases h)⟩

theorem witness_ErrorsAreCountedContainedAndFatal_3 :
    ∃ (m : Moment) (k : Nat) (a : UeAt) (s : State), (k ≠ 8) :=
  ⟨{}, 3, { tier := 0, chan := 0, addr := 0 }, up, by decide⟩

theorem witness_ErrorsAreCountedContainedAndFatal_4 :
    ∃ (m : Moment) (g : Nat) (s : State), (1 ≤ g) ∧ (g ≤ 14) :=
  ⟨{}, 3, up, by decide⟩

theorem witness_ErrorsAreCountedContainedAndFatal_5 :
    ∃ (m : Moment) (g : Nat) (l : List Skew) (s : State), (1 ≤ g) ∧ (g ≤ 14) ∧ (l.isEmpty = false) :=
  ⟨{}, 3, [{ group := 3, field := 1, mgmt := 2, hw := 3 }], up, by decide⟩

theorem witness_ErrorsAreCountedContainedAndFatal_6 :
    ∃ (m : Moment) (g c : Nat) (s : State), (tget (s.at m).err.stale g = some c) ∧ (c + 1000000 < (s.at m).ct) :=
  ⟨{ ct := 2000000 }, 3, 0, { up with err := { up.err with stale := [(3, 0)] } }, by decide⟩

theorem witness_ErrorsAreCountedContainedAndFatal_7 :
    ∃ (m : Moment) (r : Req) (s : State), (serves opDiagTraining m r s = true) ∧ (r.f 0 1 ≤ 4) :=
  ⟨{}, (opDiagTraining.named (cmdReq [4])), up, by decide⟩

theorem witness_ErrorsAreCountedContainedAndFatal_8 :
    ∃ (m : Moment) (r : Req) (s : State), (serves opDiagErrors m r s = true) :=
  ⟨{}, (opDiagErrors.named (cmdReq [])), up, by decide⟩

theorem witness_ErrorsAreCountedContainedAndFatal_9 :
    ∃ (m : Moment) (r : Req) (s : State), (serves opDiagViewCheck m r s = true) ∧ (((setBits 16 (r.f 0 2) : List Nat )).contains 0
      = false) ∧ (((setBits 16 (r.f 0 2) : List Nat )).contains 15 = false) :=
  ⟨{}, (opDiagViewCheck.named (cmdReq (u16 6))), up, by decide⟩

theorem witness_ErrorsAreCountedContainedAndFatal_10 :
    ∃ (m : Moment) (r : Req) (s : State), (serves opDiagInject m r s = true) ∧ ((taken m r s).hmk.production = false) ∧ (r.f 0 1 ≤
      1) ∧ (1 ≤ r.f 1 1) ∧ (r.f 1 1 ≤ 2) ∧ (r.f 2 1 ≤ 15) ∧ (r.f 8 8 < partBytes (taken m r s) (r.f 2 1) (r.f 1 1)) :=
  ⟨{}, (opDiagInject.named (cmdReq (fit 0x10 [1, 1, 0]))), up, by decide⟩

theorem witness_ErrorsAreCountedContainedAndFatal_11 :
    ∃ (m : Moment) (r : Req) (s : State), (serves opDiagBootLog m r s = true) :=
  ⟨{}, (opDiagBootLog.named (cmdReq [])), up, by decide⟩

theorem witness_ResetsBootsAndShutdowns_1 :
    ∃ (m : Moment) (r : Req) (s : State), (serves opDevReset m r s = true) ∧ (r.f 0 1 = 0) ∧ (r.f 1 1 ≤ 1) ∧ (r.f 4 4 ≤ 60000) ∧
      ((taken m r s).err.shutdown = none) ∧ (opRoom (taken m r s) r.fn = true) :=
  ⟨{}, (opDevReset.named (cmdReq ([0, 1, 0, 0] ++ u32 100))), up, by decide⟩

theorem witness_ResetsBootsAndShutdowns_2 :
    ∃ (m : Moment) (r : Req) (s : State), (serves opDevReset m r s = true) ∧ (r.f 0 1 = 1) ∧ (r.f 1 1 ≤ 1) ∧ (r.f 4 4 ≤ 60000) :=
  ⟨{}, (opDevReset.named (cmdReq ([1, 0, 0, 0] ++ u32 100))), up, by decide⟩

theorem witness_ResetsBootsAndShutdowns_3 :
    ∃ (m : Moment) (x : Shutdown) (s : State), ((s.at m).err.shutdown = some x) ∧ (x.due ≤ (s.at m).ct) :=
  ⟨{}, { op := 1, due := 0, hold := false },
    { upOp with err := { up.err with shutdown := some { op := 1, due := 0, hold := false } } }, by decide⟩

theorem witness_ResetsBootsAndShutdowns_4 :
    ∃ (m : Moment) (r : Req) (s : State) (b : Bytes), (serves opFwLoad m r s = true) ∧ (r.f 0 1 ≤ 1) ∧ (1 ≤ r.f 8 8) ∧ (r.f 8 8 ≤
      25165824) ∧ ((taken m r s).bench.bootPhase ≤ 2 ∨ (taken m r s).hmk.slot ≠ r.f 0 1) ∧ ((inData r (r.f 8 8) (taken m r
      s)).toOption = some b) :=
  ⟨sgAt, (opFwLoad.named (sgReq ([1] ++ zeros 7 ++ u64 4))), up, zeros 4, by decide⟩

theorem witness_ResetsBootsAndShutdowns_5 :
    ∃ (m : Moment) (s : State), ((s.at m).elec.pwrgood = false) ∧ ((s.at m).elec.railsBad = 0) :=
  ⟨{}, { up with elec := { up.elec with pwrgood := false } }, by decide⟩

theorem witness_ResetsBootsAndShutdowns_6 :
    ∃ (m : Moment) (s : State), ((s.at m).elec.pwrgood = true) :=
  ⟨{}, { up with elec := { up.elec with pwrgood := true } }, by decide⟩

theorem witness_ResetsBootsAndShutdowns_7 :
    ∃ (m : Moment) (s : State), ((s.at m).elec.pwrgood = true) ∧ ((s.at m).elec.perst = false) :=
  ⟨{}, { up with elec := { up.elec with pwrgood := true, perst := false } }, by decide⟩

theorem witness_ResetsBootsAndShutdowns_8 :
    ∃ (m : Moment) (c b : Nat) (s : State), ((s.at m).elec.perst = true) ∧ ((s.at m).elec.pwrgood = true) ∧ ((s.at
      m).elec.railsBad = 0) :=
  ⟨{}, 3, 1, { up with elec := { up.elec with pwrgood := true, perst := true } }, by decide⟩

theorem witness_ResetsBootsAndShutdowns_9 :
    ∃ (m : Moment) (s : State), ((s.at m).elec.pwrgood = true) ∧ ((s.at m).elec.perst = false) ∧ ((s.at m).elec.pcieUp = true) :=
  ⟨{}, { up with elec := { up.elec with pwrgood := true, perst := false, pcieUp := true } }, by decide⟩

theorem witness_ResetsBootsAndShutdowns_10 :
    ∃ (m : Moment) (s : State), ((s.at m).elec.pwrgood = true) ∧ ((s.at m).elec.perst = false) ∧ ((s.at m).elec.pcieUp = true) :=
  ⟨{}, { up with elec := { up.elec with pwrgood := true, perst := false, pcieUp := true } }, by decide⟩

theorem witness_ResetsBootsAndShutdowns_11 :
    ∃ (m : Moment) (rate w : Nat) (s : State), (linkTrains rate w = true) ∧ ((s.at m).elec.pwrgood = true) ∧ ((s.at m).elec.perst
      = false) ∧ ((s.at m).elec.railsBad = 0) :=
  ⟨{}, 128, 16, { up with elec := { up.elec with pwrgood := true, perst := false } }, by decide⟩

theorem witness_ResetsBootsAndShutdowns_12 :
    ∃ (m : Moment) (fn : Nat) (s : State), (fn ≤ 16) :=
  ⟨{}, 1, up, by decide⟩

theorem witness_ResetsBootsAndShutdowns_13 :
    ∃ (m : Moment) (s : State), (inReset (s.at m) = false) ∧ (100000000 ≤ (s.at m).ct - (s.at m).err.bootStart + (s.at
      m).err.bootPre) :=
  ⟨{ ct := 100000000 },
    { up with bench := { up.bench with devState := .booting, bootPhase := 1 }, elec := { up.elec with pwrgood := true, perst := false, pcieUp := true } },
    by decide⟩

theorem witness_ResetsBootsAndShutdowns_14 :
    ∃ (m : Moment) (x : BootEnd) (s : State), ((s.at m).bench.devState = .booting) ∧ (inReset (s.at m) = false) ∧ ((s.at
      m).err.hold = false) :=
  ⟨{}, {},
    { up with bench := { up.bench with devState := .booting, bootPhase := 1 }, elec := { up.elec with pwrgood := true, perst := false, pcieUp := true } },
    by decide⟩

theorem witness_ResetsBootsAndShutdowns_15 :
    ∃ (x : BootEnd) (s : State), s.bench.bootPhase = 1 ∧ x.ok = true :=
  ⟨{}, { up with bench := { up.bench with devState := .booting, bootPhase := 1 } }, by decide⟩

theorem witness_ResetsBootsAndShutdowns_16 :
    ∃ (x : BootEnd) (s : State), s.bench.bootPhase = 2 ∧ x.flashOk = true :=
  ⟨{}, { up with bench := { up.bench with devState := .booting, bootPhase := 2 } }, by decide⟩

theorem witness_ResetsBootsAndShutdowns_17 :
    ∃ (x : BootEnd) (s : State), s.bench.bootPhase = 3 ∧ failedOf (recordTraining 0 x.training s) 0 = [] :=
  ⟨{}, { up with bench := { up.bench with devState := .booting, bootPhase := 3 } }, by decide⟩

theorem witness_ResetsBootsAndShutdowns_18 :
    ∃ (x : BootEnd) (s : State), s.bench.bootPhase = 6 ∧ x.ok = true :=
  ⟨{}, { up with bench := { up.bench with devState := .booting, bootPhase := 6 } }, by decide⟩

theorem witness_RailsClocksAndTimeouts_1 :
    ∃ (m : Moment) (k : Nat) (s : State), ((s.at m).elec.pwrgood = true) :=
  ⟨{}, 2, { up with elec := { up.elec with pwrgood := true } }, by decide⟩

theorem witness_RailsClocksAndTimeouts_2 :
    ∃ (m : Moment) (k : Nat) (s : State), (bit (s.at m).elec.railsBad k = true) :=
  ⟨{}, 2, { up with elec := { up.elec with pwrgood := true, railsBad := 4 } }, by decide⟩

theorem witness_RailsClocksAndTimeouts_3 :
    ∃ (m : Moment) (s : State), ((s.at m).elec.pwrgood = true) :=
  ⟨{}, { up with elec := { up.elec with pwrgood := true } }, by decide⟩

theorem witness_RailsClocksAndTimeouts_4 :
    ∃ (m : Moment) (s : State), ((s.at m).elec.pwrgood = false) :=
  ⟨{}, { up with elec := { up.elec with pwrgood := false } }, by decide⟩

theorem witness_RailsClocksAndTimeouts_5 :
    ∃ (m : Moment) (s : State), ((s.at m).elec.sdref = true) :=
  ⟨{}, { up with elec := { up.elec with sdref := true } }, by decide⟩

theorem witness_RailsClocksAndTimeouts_6 :
    ∃ (m : Moment) (s : State), ((s.at m).elec.sdref = false) :=
  ⟨{}, { up with elec := { up.elec with sdref := false } }, by decide⟩

theorem witness_RailsClocksAndTimeouts_7 :
    ∃ (m : Moment) (s : State), ((s.at m).elec.pwrgood = true) ∧ ((s.at m).elec.perst = false) ∧ ((s.at m).elec.pcieUp = true) :=
  ⟨{}, { up with elec := { up.elec with pwrgood := true, perst := false, pcieUp := true } }, by decide⟩

theorem witness_RailsClocksAndTimeouts_8 :
    ∃ (m : Moment) (s : State), ((s.at m).elec.xtal = false) :=
  ⟨{}, { up with elec := { up.elec with xtal := false } }, by decide⟩

theorem witness_RailsClocksAndTimeouts_9 :
    ∃ (m : Moment) (s : State), ((s.at m).bench.devState = .booting) ∧ ((s.at m).bench.bootPhase = 2) ∧ ((s.at m).elec.spiTries <
      2) :=
  ⟨{}, { up with bench := { up.bench with devState := .booting, bootPhase := 2 } }, by decide⟩

theorem witness_RailsClocksAndTimeouts_10 :
    ∃ (m : Moment) (s : State), ((s.at m).bench.devState = .booting) ∧ ((s.at m).bench.bootPhase = 2) ∧ (2 ≤ (s.at
      m).elec.spiTries) :=
  ⟨{},
    { ({ up with bench := { up.bench with devState := .booting, bootPhase := 2 } }) with elec := { up.elec with spiTries := 2 } },
    by decide⟩

theorem witness_RailsClocksAndTimeouts_11 :
    ∃ (m : Moment) (k : Nat × LongOp) (s : State), ((s.at m).bench.devState ≠ .booting) ∧ (flashWrite (s.at m) = some k) ∧ (2 ≤
      (s.at m).elec.spiTries) :=
  ⟨{}, (1, { theOp with opcode := 0x0F05, canCancel := false }),
    { (setOp 1 { theOp with opcode := 0x0F05, canCancel := false } upOp) with elec := { up.elec with spiTries := 2 } }, by decide⟩

theorem witness_StepRunsTheFrontCommand_1 : ∃ (c : Instr) (rest : List Instr) (s : State), s.pending = c :: rest :=
  ⟨.mbxPost {} 0 0, [], { State.reset with pending := [.mbxPost {} 0 0] }, rfl⟩
theorem witness_StepRunsTheFrontCommand_2 : ∃ s : State, s.pending = [] := ⟨State.reset, rfl⟩

theorem witness_EveryStepKeepsTheMemoriesCanonical :
    ∃ s t : State, s.memOk ∧ s.pending ≠ [] ∧ step s = .next t :=
  ⟨{ State.reset with pending := [.mbxPost {} 0 0] }, _, ⟨by decide, by decide⟩, by simp, rfl⟩

theorem witness_WhatHasLeftIsNeverTakenBack : ∃ (i : Instr) (s t : State), exec i s = .next t :=
  ⟨.mbxPost {} 0 0, State.reset, _, rfl⟩

theorem witness_TheAntiRollbackCounterNeverFalls : ∃ s t : State, s.pending ≠ [] ∧ step s = .next t :=
  ⟨{ State.reset with pending := [.mbxPost {} 0 0] }, _, by simp, rfl⟩

theorem witness_ServedCommandsCompleteTheirMailbox_1 : ∃ (r : Req) (fn n : Nat), r.src = .mailbox fn n := ⟨cmdReq [], 0, 0, rfl⟩
theorem witness_ServedCommandsCompleteTheirMailbox_2 : ∃ (r : Req) (u : State) (fn n : Nat), r.src = .mailbox fn n ∧
    ((getMbx u fn n).own = .taken ∨ (getMbx u fn n).own = .running) ∧ bit r.hdr.flags 3 = true ∧ bit r.hdr.flags 0 = false ∧
    hostErr u r.hdr.shadowAddr 16 = none ∧ ∃ fn' n', mbxKey fn' n' ≠ mbxKey fn n :=
  ⟨{ hdr := { flags := 8 }, src := .mailbox 0 5 }, upTaken, 0, 5, rfl, by decide, by decide, by decide, by decide, 16, 63, by decide⟩

theorem witness_TheChecksComeInTheirOrder_1 : ∃ (i : OpInfo) (m : Moment) (r : Req) (s : State) (fn n : Nat),
    r.src = .mailbox fn n ∧ r.hdr.opcode = i.opcode ∧ hostReach (s.at m) = true ∧ fnRefused (s.at m) fn = false ∧
    ((getMbx (s.at m) fn n).own = .idle ∨ (getMbx (s.at m) fn n).own = .done) ∧ watcherTakes (postIn r (s.at m)) fn n = true ∧
    headerBad r.hdr = true :=
  ⟨opNop, {}, opNop.named { hdr := { flags := 32 }, src := .mailbox 0 0 }, up, 0, 0, by decide⟩
theorem witness_TheChecksComeInTheirOrder_2 : ∃ (i : OpInfo) (m : Moment) (r : Req) (s : State) (fn n : Nat),
    r.src = .mailbox fn n ∧ r.hdr.opcode = i.opcode ∧ hostReach (s.at m) = true ∧ fnRefused (s.at m) fn = false ∧
    ((getMbx (s.at m) fn n).own = .idle ∨ (getMbx (s.at m) fn n).own = .done) ∧ watcherTakes (postIn r (s.at m)) fn n = true ∧
    (headerBad r.hdr || rsvdBad i r.payload || i.align.any (fun x => r.f x.1 8 % x.2 ≠ 0) ||
      i.alignOn.any (fun x => r.f x.1 1 = 1 && r.f x.2.1 8 % x.2.2 ≠ 0)) = false ∧
    (r.fn ≠ 0 ∧ i.pf0 = true) :=
  ⟨opHmkPartitionSet, {}, opHmkPartitionSet.named { src := .mailbox 16 63 }, upVf, 16, 63, by decide⟩

theorem witness_ApertureWritesReachTheirBytesAlone_1 : ∃ (fn offset : Nat) (data : Bytes) (a : Aperture) (u : State),
    fn ≤ 16 ∧ offset + data.length ≤ bar2Size fn ∧ hostReach (u.at {}) = true ∧ fnRefused (u.at {}) fn = false ∧ (a.tier = 1 ∨ a.tier = 2) ∧
    apertureOf (u.at {}) fn offset data.length = some a ∧
    (accessGroups (u.at {}) (a.access fn offset data.length (some data))).find? (fun g => (getGroup (u.at {}) g).state ≠ 3) = none ∧ data ≠ [] :=
  ⟨0, 0, [1, 2], theAp, upAp, by decide⟩
theorem witness_ApertureWritesReachTheirBytesAlone_2 : ∃ (m : Moment) (fn offset : Nat) (data : Bytes) (s : State),
    apertureOf (s.at m) fn offset data.length = none := ⟨{}, 0, 0, [1], State.reset, by decide⟩

theorem witness_HmkPartHasItsFields_1 : ∃ fn p : Nat, p < 16 ∧ shows fn p = true := ⟨16, 15, by decide⟩
theorem witness_HmkPartHasItsFields_2 : ∃ (m : Moment) (fn p : Nat) (s : State), p < 16 ∧ hostReach (s.at m) = true ∧
    fnRefused (s.at m) fn = false := ⟨{}, 16, 15, upVf, by decide⟩

theorem witness_PwrGroupHasItsFields_1 : ∃ (s : State) (g : Nat), groupPresent s g = true ∧ (getGroup s g).held.length ≤ 4 ∧
    (match (getGroup s g).run with | some t => t.phase | none => 0) ≤ 5 ∧ (getGroup s g).restore < 4 ∧ (getGroup s g).perf < 4 ∧
    (match (getGroup s g).run with | some t => t.state.getD (getGroup s g).state | none => (getGroup s g).state) < 4 ∧
    (getGroup s g).state < 4 := ⟨State.reset, 63, by decide⟩
theorem witness_PwrGroupHasItsFields_2 : ∃ (s : State) (g : Nat), groupPresent s g = false := ⟨{ State.reset with grade := .as744 }, 15, by decide⟩
theorem witness_PwrGroupHasItsFields_3 : ∃ g : Nat, g < 64 := ⟨63, by decide⟩
theorem witness_PwrGroupHasItsFields_4 : ∃ (m : Moment) (fn g : Nat) (s : State), g < 64 ∧ hostReach (s.at m) = true ∧
    fnRefused (s.at m) fn = false := ⟨{}, 16, 63, upVf, by decide⟩

theorem witness_SwlLinkAndTwinPairHaveTheirFields_1 : ∃ l : Link, l.cause ≤ 3 ∧ l.lanes < 256 ∧ l.peerChip < 8 ∧ l.lstate = .fault :=
  ⟨{ cause := 3, lanes := 255, peerChip := 7, lstate := .fault }, by decide⟩
theorem witness_SwlLinkAndTwinPairHaveTheirFields_2 : ∃ (s : State) (p : Nat) (x : Pair), tget s.twn.pairs p = some x ∧ 1 ≤ x.depth ∧
    x.depth ≤ 8 ∧ x.onLoss < 2 ∧ x.peer < 8 := ⟨upPair { secondary := true, depth := 8, onLoss := 1, peer := 7, timeout := 1 }, 0, { secondary := true, depth := 8, onLoss := 1, peer := 7, timeout := 1 }, by decide⟩
theorem witness_SwlLinkAndTwinPairHaveTheirFields_3 : ∃ (s : State) (p : Nat), tget s.twn.pairs p = none := ⟨State.reset, 15, rfl⟩
theorem witness_SwlLinkAndTwinPairHaveTheirFields_4 : ∃ n : Nat, n < 7 := ⟨6, by decide⟩
theorem witness_SwlLinkAndTwinPairHaveTheirFields_5 : ∃ fn p : Nat, p < 16 ∧ shows fn p = true := ⟨16, 15, by decide⟩
theorem witness_SwlLinkAndTwinPairHaveTheirFields_6 : ∃ (m : Moment) (fn off : Nat) (s : State), off < 0x140 ∧ off % 4 = 0 ∧
    hostReach (s.at m) = true ∧ fnRefused (s.at m) fn = false := ⟨{}, 16, 0x13C, upVf, by decide⟩

theorem witness_HandlesAreGivenInOrder : ∃ (m : Moment) (n : Nat) (o : LongOp) (s : State), getOp (s.at m) n = some o ∧
    o.handle = 0 ∧ o.orphan = false ∧ o.fn ≤ 16 ∧ 1 ≤ (fnState (s.at m) o.fn).serial ∧ (fnState (s.at m) o.fn).serial ≤ 0x7FFFFFF ∧
    (usedSerials (s.at m) o.fn).length < 0x7FFFFFF :=
  ⟨{}, 1, { theOp with handle := 0 }, { upOp with bench := { upOp.bench with ops := [(1, { theOp with handle := 0 })] } }, by decide⟩
end

section
/-! What every command keeps, assembled from what each row's effect keeps, and the statement that nothing taken is given back. -/

namespace Sys2Proof.Machine

/-- Every command keeps what `Kept` names: each arm of the dispatch cites the law of its row. -/
theorem exec_keptOut (i : Instr) (s : State) : KeptOut s (exec i s) := by
  cases i with
  | mbxPost => exact kept_execMbxPost (.refl s)
  | mbxRelease => exact kept_execMbxRelease (.refl s)
  | mbxOwnInvalid => exact kept_execMbxOwnInvalid (.refl s)
  | mbxLockedWrite => exact kept_execMbxLockedWrite (.refl s)
  | mbxTake => exact kept_execMbxTake (.refl s)
  | longOpAccept => exact kept_execLongOpAccept (.refl s)
  | longOpEnd => exact kept_execLongOpEnd (.refl s)
  | msixUnmask => exact kept_execMsixUnmask (.refl s)
  | progressUpdate => exact kept_execProgressUpdate (.refl s)
  | progressRetentionExpiry => exact kept_execProgressRetentionExpiry (.refl s)
  | evtConsWrite => exact kept_execEvtConsWrite (.refl s)
  | bar2Read => exact kept_execBar2Read (.refl s)
  | bar2Write => exact kept_execBar2Write (.refl s)
  | registerWrite => exact kept_execRegisterWrite (.refl s)
  | ctNowLowRead => exact kept_execCtNowLowRead (.refl s)
  | ctUtcDateRead => exact kept_execCtUtcDateRead (.refl s)
  | chkCtlWrite => exact kept_execChkCtlWrite (.refl s)
  | chkInit => exact kept_execChkInit (.refl s)
  | chkData8 => exact kept_execChkData8 (.refl s)
  | chkData1 => exact kept_execChkData1 (.refl s)
  | mctpRequest => exact kept_execMctpRequest (.refl s)
  | nop => exact kept_execNop (.refl s)
  | query => exact kept_execQuery (.refl s)
  | progress => exact kept_execProgress (.refl s)
  | cancel => exact kept_execCancel (.refl s)
  | eventCfg => exact kept_execEventCfg (.refl s)
  | apertureSet => exact kept_execApertureSet (.refl s)
  | sessionAdmit => exact kept_execSessionAdmit (.refl s)
  | sessionAppend => exact kept_execSessionAppend (.refl s)
  | sessionAppendTokens => exact kept_execSessionAppendTokens (.refl s)
  | sessionStop => exact kept_execSessionStop (.refl s)
  | sessionRead => exact kept_execSessionRead (.refl s)
  | sessionSet => exact kept_execSessionSet (.refl s)
  | sessionRebind => exact kept_execSessionRebind (.refl s)
  | sessionRetire => exact kept_execSessionRetire (.refl s)
  | sessionArm => exact kept_execSessionArm (.refl s)
  | sessionList => exact kept_execSessionList (.refl s)
  | journalRead => exact kept_execJournalRead (.refl s)
  | plnConfig => exact kept_execPlnConfig (.refl s)
  | batchDispatch => exact kept_execBatchDispatch (.refl s)
  | batchWaitExpiry => exact kept_execBatchWaitExpiry (.refl s)
  | invocationResident => exact kept_execInvocationResident (.refl s)
  | layerGroupStart => exact kept_execLayerGroupStart (.refl s)
  | tileWatchdogExpiry => exact kept_execTileWatchdogExpiry (.refl s)
  | stepCommit => exact kept_execStepCommit (.refl s)
  | prefillChunkEnd => exact kept_execPrefillChunkEnd (.refl s)
  | autoCastTimer => exact kept_execAutoCastTimer (.refl s)
  | raiseWaitDequeue => exact kept_execRaiseWaitDequeue (.refl s)
  | fdyCast => exact kept_execFdyCast (.refl s)
  | fdyRaise => exact kept_execFdyRaise (.refl s)
  | fdyMigrate => exact kept_execFdyMigrate (.refl s)
  | fdyDirRead => exact kept_execFdyDirRead (.refl s)
  | fdyConfig => exact kept_execFdyConfig (.refl s)
  | fdySubmit => exact kept_execFdySubmit (.refl s)
  | fdyExportRelease => exact kept_execFdyExportRelease (.refl s)
  | descriptorIssue => exact kept_execDescriptorIssue (.refl s)
  | descriptorComplete => exact kept_execDescriptorComplete (.refl s)
  | runaheadTtlExpiry => exact kept_execRunaheadTtlExpiry (.refl s)
  | pullTimeoutExpiry => exact kept_execPullTimeoutExpiry (.refl s)
  | migrateArrive => exact kept_execMigrateArrive (.refl s)
  | migrateConfirm => exact kept_execMigrateConfirm (.refl s)
  | exportCommit => exact kept_execExportCommit (.refl s)
  | exportRetired => exact kept_execExportRetired (.refl s)
  | ptnPublish => exact kept_execPtnPublish (.refl s)
  | ptnMatch => exact kept_execPtnMatch (.refl s)
  | ptnDelete => exact kept_execPtnDelete (.refl s)
  | ptnPin => exact kept_execPtnPin (.refl s)
  | ptnRead => exact kept_execPtnRead (.refl s)
  | ptnPurge => exact kept_execPtnPurge (.refl s)
  | ptnConfig => exact kept_execPtnConfig (.refl s)
  | pagePoolConfig => exact kept_execPagePoolConfig (.refl s)
  | pageTableRead => exact kept_execPageTableRead (.refl s)
  | ptnEviction => exact kept_execPtnEviction (.refl s)
  | modelLoad => exact kept_execModelLoad (.refl s)
  | modelLoadComplete => exact kept_execModelLoadComplete (.refl s)
  | modelUnload => exact kept_execModelUnload (.refl s)
  | modelUnloadComplete => exact kept_execModelUnloadComplete (.refl s)
  | modelQuery => exact kept_execModelQuery (.refl s)
  | modelPlace => exact kept_execModelPlace (.refl s)
  | attConfig => exact kept_execAttConfig (.refl s)
  | tablesetLoad => exact kept_execTablesetLoad (.refl s)
  | tablesetLoadComplete => exact kept_execTablesetLoadComplete (.refl s)
  | tablesetRetire => exact kept_execTablesetRetire (.refl s)
  | tablesetDrained => exact kept_execTablesetDrained (.refl s)
  | tablesetQuery => exact kept_execTablesetQuery (.refl s)
  | shearCut => exact kept_execShearCut (.refl s)
  | solderRender => exact kept_execSolderRender (.refl s)
  | shearLaneStart => exact kept_execShearLaneStart (.refl s)
  | finSet => exact kept_execFinSet (.refl s)
  | finRead => exact kept_execFinRead (.refl s)
  | grammarCheck => exact kept_execGrammarCheck (.refl s)
  | spinDraw => exact kept_execSpinDraw (.refl s)
  | classSet => exact kept_execClassSet (.refl s)
  | classRead => exact kept_execClassRead (.refl s)
  | classDelete => exact kept_execClassDelete (.refl s)
  | meterSet => exact kept_execMeterSet (.refl s)
  | meterRead => exact kept_execMeterRead (.refl s)
  | partitionShare => exact kept_execPartitionShare (.refl s)
  | streamRingSet => exact kept_execStreamRingSet (.refl s)
  | gaugeReport => exact kept_execGaugeReport (.refl s)
  | gaugeConfig => exact kept_execGaugeConfig (.refl s)
  | plaQueueRead => exact kept_execPlaQueueRead (.refl s)
  | streamRecordWrite => exact kept_execStreamRecordWrite (.refl s)
  | streamConsRead => exact kept_execStreamConsRead (.refl s)
  | gaugeSample => exact kept_execGaugeSample (.refl s)
  | gaugeWindowClose => exact kept_execGaugeWindowClose (.refl s)
  | reportSign => exact kept_execReportSign (.refl s)
  | tlyRead => exact kept_execTlyRead (.refl s)
  | tlyEvidence => exact kept_execTlyEvidence (.refl s)
  | tlyConfig => exact kept_execTlyConfig (.refl s)
  | tallyAudit => exact kept_execTallyAudit (.refl s)
  | swlMarkerReceive => exact kept_execSwlMarkerReceive (.refl s)
  | swlMarkerTimeout => exact kept_execSwlMarkerTimeout (.refl s)
  | tchIndexCreate => exact kept_execTchIndexCreate (.refl s)
  | tchIndexDrop => exact kept_execTchIndexDrop (.refl s)
  | tchInsert => exact kept_execTchInsert (.refl s)
  | tchDelete => exact kept_execTchDelete (.refl s)
  | tchQuery => exact kept_execTchQuery (.refl s)
  | tchBulk => exact kept_execTchBulk (.refl s)
  | tchIndexQuery => exact kept_execTchIndexQuery (.refl s)
  | tchRepair => exact kept_execTchRepair (.refl s)
  | tchSubqueryReceive => exact kept_execTchSubqueryReceive (.refl s)
  | tchShardAnswer => exact kept_execTchShardAnswer (.refl s)
  | tchShardTimeout => exact kept_execTchShardTimeout (.refl s)
  | tchReclaim => exact kept_execTchReclaim (.refl s)
  | tchRepairSweep => exact kept_execTchRepairSweep (.refl s)
  | gthTableLoad => exact kept_execGthTableLoad (.refl s)
  | gthTablePatch => exact kept_execGthTablePatch (.refl s)
  | gthTableDrop => exact kept_execGthTableDrop (.refl s)
  | gthHotSet => exact kept_execGthHotSet (.refl s)
  | gthRun => exact kept_execGthRun (.refl s)
  | gthTableQuery => exact kept_execGthTableQuery (.refl s)
  | netPortSet => exact kept_execNetPortSet (.refl s)
  | netPortQuery => exact kept_execNetPortQuery (.refl s)
  | netQpConnect => exact kept_execNetQpConnect (.refl s)
  | netQpClose => exact kept_execNetQpClose (.refl s)
  | netQpQuery => exact kept_execNetQpQuery (.refl s)
  | netCcSet => exact kept_execNetCcSet (.refl s)
  | netRegionReg => exact kept_execNetRegionReg (.refl s)
  | netRegionDereg => exact kept_execNetRegionDereg (.refl s)
  | netRegionQuery => exact kept_execNetRegionQuery (.refl s)
  | netPost => exact kept_execNetPost (.refl s)
  | netChainPost => exact kept_execNetChainPost (.refl s)
  | netChainCancel => exact kept_execNetChainCancel (.refl s)
  | netMapUpdate => exact kept_execNetMapUpdate (.refl s)
  | netMapSwap => exact kept_execNetMapSwap (.refl s)
  | netMapRead => exact kept_execNetMapRead (.refl s)
  | netPtpSet => exact kept_execNetPtpSet (.refl s)
  | nvmeConnect => exact kept_execNvmeConnect (.refl s)
  | nvmeDisconnect => exact kept_execNvmeDisconnect (.refl s)
  | gxDataReceive => exact kept_execGxDataReceive (.refl s)
  | gxSealReceive => exact kept_execGxSealReceive (.refl s)
  | gxReadReceive => exact kept_execGxReadReceive (.refl s)
  | gxAckReceive => exact kept_execGxAckReceive (.refl s)
  | gxAckTimer => exact kept_execGxAckTimer (.refl s)
  | gxAckTimeout => exact kept_execGxAckTimeout (.refl s)
  | gxNakBackoffExpiry => exact kept_execGxNakBackoffExpiry (.refl s)
  | gxPathResume => exact kept_execGxPathResume (.refl s)
  | sealTimeout => exact kept_execSealTimeout (.refl s)
  | qpDrainEnd => exact kept_execQpDrainEnd (.refl s)
  | notResidentStallExpiry => exact kept_execNotResidentStallExpiry (.refl s)
  | rcPacketReceive => exact kept_execRcPacketReceive (.refl s)
  | cnpReceive => exact kept_execCnpReceive (.refl s)
  | ccRateIncrease => exact kept_execCcRateIncrease (.refl s)
  | regionQuarantineExpiry => exact kept_execRegionQuarantineExpiry (.refl s)
  | mapUpdateDrained => exact kept_execMapUpdateDrained (.refl s)
  | mapSwapHoldExpiry => exact kept_execMapSwapHoldExpiry (.refl s)
  | ethLinkChange => exact kept_execEthLinkChange (.refl s)
  | ptpMessageReceive => exact kept_execPtpMessageReceive (.refl s)
  | ptpAnnounceTimeout => exact kept_execPtpAnnounceTimeout (.refl s)
  | nvmeCompletionReceive => exact kept_execNvmeCompletionReceive (.refl s)
  | nvmeKeepaliveLapse => exact kept_execNvmeKeepaliveLapse (.refl s)
  | swlQuery => exact kept_execSwlQuery (.refl s)
  | swlLinkSet => exact kept_execSwlLinkSet (.refl s)
  | twinSet => exact kept_execTwinSet (.refl s)
  | twinClear => exact kept_execTwinClear (.refl s)
  | twinQuery => exact kept_execTwinQuery (.refl s)
  | swlTrainIdentity => exact kept_execSwlTrainIdentity (.refl s)
  | swlTrainTimeout => exact kept_execSwlTrainTimeout (.refl s)
  | swlAbsentRetry => exact kept_execSwlAbsentRetry (.refl s)
  | swlFlitCrcError => exact kept_execSwlFlitCrcError (.refl s)
  | swlReplayRequest => exact kept_execSwlReplayRequest (.refl s)
  | swlCreditReturn => exact kept_execSwlCreditReturn (.refl s)
  | swlDirRequest => exact kept_execSwlDirRequest (.refl s)
  | swlForwardedCommand => exact kept_execSwlForwardedCommand (.refl s)
  | swlResponse => exact kept_execSwlResponse (.refl s)
  | swlBulkData => exact kept_execSwlBulkData (.refl s)
  | tablesetNumberCheck => exact kept_execTablesetNumberCheck (.refl s)
  | twinMirroredCommand => exact kept_execTwinMirroredCommand (.refl s)
  | twinGrant => exact kept_execTwinGrant (.refl s)
  | twinDigest => exact kept_execTwinDigest (.refl s)
  | twinDigestTimeout => exact kept_execTwinDigestTimeout (.refl s)
  | mldGroupSet => exact kept_execMldGroupSet (.refl s)
  | mldGroupQuery => exact kept_execMldGroupQuery (.refl s)
  | mldCut => exact kept_execMldCut (.refl s)
  | mldRestore => exact kept_execMldRestore (.refl s)
  | mldConfig => exact kept_execMldConfig (.refl s)
  | chkClaim => exact kept_execChkClaim (.refl s)
  | chkRelease => exact kept_execChkRelease (.refl s)
  | chkRun => exact kept_execChkRun (.refl s)
  | mldTimerTrigger => exact kept_execMldTimerTrigger (.refl s)
  | captureWindowExpiry => exact kept_execCaptureWindowExpiry (.refl s)
  | hmkPartitionSet => exact kept_execHmkPartitionSet (.refl s)
  | hmkPartitionTeardown => exact kept_execHmkPartitionTeardown (.refl s)
  | teardownPhaseDone => exact kept_execTeardownPhaseDone (.refl s)
  | hmkPartitionQuery => exact kept_execHmkPartitionQuery (.refl s)
  | hmkKeyLoad => exact kept_execHmkKeyLoad (.refl s)
  | hmkKeyDestroy => exact kept_execHmkKeyDestroy (.refl s)
  | hmkAttest => exact kept_execHmkAttest (.refl s)
  | hmkCertRead => exact kept_execHmkCertRead (.refl s)
  | hmkRollbackCommit => exact kept_execHmkRollbackCommit (.refl s)
  | getVersion => exact kept_execGetVersion (.refl s)
  | getCapabilities => exact kept_execGetCapabilities (.refl s)
  | negotiateAlgorithms => exact kept_execNegotiateAlgorithms (.refl s)
  | getDigests => exact kept_execGetDigests (.refl s)
  | getCertificate => exact kept_execGetCertificate (.refl s)
  | challenge => exact kept_execChallenge (.refl s)
  | getMeasurements => exact kept_execGetMeasurements (.refl s)
  | keyExchange => exact kept_execKeyExchange (.refl s)
  | finish => exact kept_execFinish (.refl s)
  | heartbeat => exact kept_execHeartbeat (.refl s)
  | keyUpdate => exact kept_execKeyUpdate (.refl s)
  | endSession => exact kept_execEndSession (.refl s)
  | attestDual => exact kept_execAttestDual (.refl s)
  | kekSet => exact kept_execKekSet (.refl s)
  | ideKmMessage => exact kept_execIdeKmMessage (.refl s)
  | lockInterfaceRequest => exact kept_execLockInterfaceRequest (.refl s)
  | startInterfaceRequest => exact kept_execStartInterfaceRequest (.refl s)
  | stopInterfaceRequest => exact kept_execStopInterfaceRequest (.refl s)
  | ideIntegrityFailure => exact kept_execIdeIntegrityFailure (.refl s)
  | pwrSet => exact kept_execPwrSet (.refl s)
  | pwrQuery => exact kept_execPwrQuery (.refl s)
  | pwrResume => exact kept_execPwrResume (.refl s)
  | ctConfig => exact kept_execCtConfig (.refl s)
  | ctStep => exact kept_execCtStep (.refl s)
  | ctLeapLoad => exact kept_execCtLeapLoad (.refl s)
  | aonSettingsSave => exact kept_execAonSettingsSave (.refl s)
  | aonSettingsRead => exact kept_execAonSettingsRead (.refl s)
  | otpProgram => exact kept_execOtpProgram (.refl s)
  | aonLifeRead => exact kept_execAonLifeRead (.refl s)
  | aonLifeSync => exact kept_execAonLifeSync (.refl s)
  | pwrTransitionPhaseDone => exact kept_execPwrTransitionPhaseDone (.refl s)
  | junctionSensorSample => exact kept_execJunctionSensorSample (.refl s)
  | coreCurrentSample => exact kept_execCoreCurrentSample (.refl s)
  | thermtrip => exact kept_execThermtrip (.refl s)
  | cadenceEdge => exact kept_execCadenceEdge (.refl s)
  | cadenceLoss => exact kept_execCadenceLoss (.refl s)
  | ptpSourceLoss => exact kept_execPtpSourceLoss (.refl s)
  | holdoverBudgetExceeded => exact kept_execHoldoverBudgetExceeded (.refl s)
  | leapExpiry => exact kept_execLeapExpiry (.refl s)
  | lifeMirrorUpdate => exact kept_execLifeMirrorUpdate (.refl s)
  | lifeJournalWrite => exact kept_execLifeJournalWrite (.refl s)
  | correctedError => exact kept_execCorrectedError (.refl s)
  | uncorrectableError => exact kept_execUncorrectableError (.refl s)
  | patrolScrubPass => exact kept_execPatrolScrubPass (.refl s)
  | viewSweep => exact kept_execViewSweep (.refl s)
  | viewReconcileTimeout => exact kept_execViewReconcileTimeout (.refl s)
  | firmwareWatchdogExpiry => exact kept_execFirmwareWatchdogExpiry (.refl s)
  | devReset => exact kept_execDevReset (.refl s)
  | shutdownGraceExpiry => exact kept_execShutdownGraceExpiry (.refl s)
  | diagTraining => exact kept_execDiagTraining (.refl s)
  | diagErrors => exact kept_execDiagErrors (.refl s)
  | diagViewCheck => exact kept_execDiagViewCheck (.refl s)
  | diagInject => exact kept_execDiagInject (.refl s)
  | fwLoad => exact kept_execFwLoad (.refl s)
  | diagBootLog => exact kept_execDiagBootLog (.refl s)
  | powerOnReset => exact kept_execPowerOnReset (.refl s)
  | pwrgoodFall => exact kept_execPwrgoodFall (.refl s)
  | perstNAssert => exact kept_execPerstNAssert (.refl s)
  | perstNDeassert => exact kept_execPerstNDeassert (.refl s)
  | pcieHotReset => exact kept_execPcieHotReset (.refl s)
  | pcieLinkDown => exact kept_execPcieLinkDown (.refl s)
  | flr => exact kept_execFlr (.refl s)
  | configReady => exact kept_execConfigReady (.refl s)
  | bootPhaseEnd => exact kept_execBootPhaseEnd (.refl s)
  | railFault => exact kept_execRailFault (.refl s)
  | serdesRefLoss => exact kept_execSerdesRefLoss (.refl s)
  | serdesRefReturn => exact kept_execSerdesRefReturn (.refl s)
  | refclkLoss => exact kept_execRefclkLoss (.refl s)
  | xtalStop => exact kept_execXtalStop (.refl s)
  | smbClockLowTimeout => exact kept_execSmbClockLowTimeout (.refl s)
  | i3cIdleTimeout => exact kept_execI3cIdleTimeout (.refl s)
  | spiFlashTimeout => exact kept_execSpiFlashTimeout (.refl s)
  | railReturn => exact kept_execRailReturn (.refl s)
  | vaux1v8Loss => exact kept_execVaux1v8Loss (.refl s)
  | pcieLinkUp => exact kept_execPcieLinkUp (.refl s)
  | xtalRestart => exact kept_execXtalRestart (.refl s)
  | doeDiscovery => exact kept_execDoeDiscovery (.refl s)
  | rcLocalAckTimeout => exact kept_execRcLocalAckTimeout (.refl s)

/-- The next state of a command keeps what `Kept` names. -/
theorem kept_of_exec {i : Instr} {s t : State} (h : exec i s = .next t) : Kept s t := (exec_keptOut i s).of t h

/-- Settles O49: the queue, the grade, the list of outputs and the counter of free values are four of the fields of `Kept`. -/
theorem whatHasLeftIsNeverTakenBack : Obligations.WhatHasLeftIsNeverTakenBack := by
  intro i s t h
  have k := kept_of_exec h
  exact ⟨k.pending, k.grade, k.out, k.free⟩

end Sys2Proof.Machine
end

section
/-! The host's accesses through its BARs: who is answered, what each row hands to the access, and what each access does by case
(R9, R16, R17, R32, R47 to R50, R465, R487). -/

namespace Sys2Proof.Machine

/-! ### Who is answered -/

section
variable {fn : Nat} {k : State → State} {s : State}

theorem hostAccess_served (hr : hostReach s = true) (hf : fnRefused s fn = false) : hostAccess fn k s = k s := by
  simp only [hostAccess, hr, hf, Bool.not_true, Bool.false_eq_true, if_false]

theorem hostAccess_refused (hr : hostReach s = true) (hf : fnRefused s fn = true) :
    hostAccess fn k s = emit (.refused fn false) s := by
  simp only [hostAccess, hr, hf, Bool.not_true, Bool.false_eq_true, if_false, if_true]

theorem hostAccess_unreached (hr : hostReach s = false) : hostAccess fn k s = s := by
  simp only [hostAccess, hr, Bool.not_false, if_true]

end

/-! ### The access that each row makes -/

/-- The access of CT_NOW_LOW_READ: the low word is answered and the high word latched (R487). -/
def ctNowLowRead (fn : Nat) (s : State) : State :=
  emit (.register fn (s.ct % 2 ^ 32)) (setFn fn { fnState s fn with ctHigh := s.ct / 2 ^ 32 % 2 ^ 32 } s)

/-- The access of CT_UTC_DATE_READ: the date is answered, the time and the nanoseconds are latched (R487). -/
def ctUtcDateRead (fn : Nat) (s : State) : State :=
  emit (.register fn (utcWords s).1) (setFn fn { fnState s fn with utcTime := (utcWords s).2.1, utcNs := (utcWords s).2.2 } s)

section
variable {m : Moment} {fn vector value bar offset len : Nat} {data : Bytes} {s : State} (hfn : fn ≤ 16)
include hfn

theorem exec_msixUnmask (hv : vector < 2048) :
    exec (.msixUnmask m fn vector) s = .next (hostAccess fn (msixUnmask fn vector) (s.at m)) := by
  change execMsixUnmask m fn vector s = _
  simp only [execMsixUnmask, hfn, hv, decide_true, Bool.and_self, if_true]

theorem exec_evtConsWrite :
    exec (.evtConsWrite m fn value) s = .next (hostAccess fn (evtConsWrite fn value) (s.at m)) := by
  change execEvtConsWrite m fn value s = _
  simp only [execEvtConsWrite, hfn, if_true]

theorem exec_bar2Read (hb : offset + len ≤ bar2Size fn) :
    exec (.bar2Read m fn offset len) s = .next (settleAll m (hostAccess fn (bar2Read fn offset len) (s.at m))) := by
  change execBar2Read m fn offset len s = _
  simp only [execBar2Read, Nat.not_lt.mpr hfn, Nat.not_lt.mpr hb, decide_false, Bool.or_self, Bool.false_eq_true, if_false]

theorem exec_bar2Write (hb : offset + data.length ≤ bar2Size fn) :
    exec (.bar2Write m fn offset data) s = .next (hostAccess fn (bar2Write fn offset data) (s.at m)) := by
  change execBar2Write m fn offset data s = _
  simp only [execBar2Write, Nat.not_lt.mpr hfn, Nat.not_lt.mpr hb, decide_false, Bool.or_self, Bool.false_eq_true, if_false]

theorem exec_registerWrite (hl : len = 4 ∨ len = 8) (ha : offset % len = 0) :
    exec (.registerWrite m fn bar offset len value) s = .next (hostAccess fn (registerWrite fn bar offset len value) (s.at m)) := by
  change execRegisterWrite m fn bar offset len value s = _
  have hg : (decide (16 < fn) || (decide (len ≠ 4) && decide (len ≠ 8)) || decide (offset % len ≠ 0)) = false := by
    rw [decide_eq_false (Nat.not_lt.mpr hfn), decide_eq_false (not_not_intro ha)]
    rcases hl with rfl | rfl <;> rfl
  simp only [execRegisterWrite, hg, Bool.false_eq_true, if_false]

theorem exec_ctNowLowRead : exec (.ctNowLowRead m fn) s = .next (hostAccess fn (ctNowLowRead fn) (s.at m)) := by
  change execCtNowLowRead m fn s = _
  exact congrArg Host.Outcome.next (if_neg (Nat.not_lt.mpr hfn))

theorem exec_ctUtcDateRead : exec (.ctUtcDateRead m fn) s = .next (hostAccess fn (ctUtcDateRead fn) (s.at m)) := by
  change execCtUtcDateRead m fn s = _
  exact congrArg Host.Outcome.next (if_neg (Nat.not_lt.mpr hfn))

/-- Every access but a BAR2 read is a host access and nothing beside it. -/
theorem exec_hostAccess (hv : vector < 2048) (hb : offset + data.length ≤ bar2Size fn) (hl : len = 4 ∨ len = 8)
    (ha : offset % len = 0) :
    ∀ c ∈ ([.msixUnmask m fn vector, .evtConsWrite m fn value, .bar2Write m fn offset data, .registerWrite m fn bar offset len
      value, .ctNowLowRead m fn, .ctUtcDateRead m fn] : List Instr), ∃ k, exec c s = .next (hostAccess fn k (s.at m)) := by
  simp only [List.forall_mem_cons]
  exact ⟨⟨_, exec_msixUnmask hfn hv⟩, ⟨_, exec_evtConsWrite hfn⟩, ⟨_, exec_bar2Write hfn hb⟩, ⟨_, exec_registerWrite hfn hl ha⟩,
    ⟨_, exec_ctNowLowRead hfn⟩, ⟨_, exec_ctUtcDateRead hfn⟩, List.forall_mem_nil _⟩

end

/-! ### MSI-X and the event ring -/

section
variable {fn vec value : Nat} {s : State}

/-- A vector whose message is pending sends it as its mask goes (R32). -/
theorem msixUnmask_pending (h : (fnState s fn).msixPend.contains vec = true) :
    msixUnmask fn vec s = emit (.msix fn vec (tgetD (fnState s fn).msix vec {}).addr (tgetD (fnState s fn).msix vec {}).data)
      (setFn fn { (fnState s fn) with
        msix := tset (fnState s fn).msix vec { (tgetD (fnState s fn).msix vec {}) with masked := false }
        msixPend := (fnState s fn).msixPend.erase vec } s) := by
  simp only [msixUnmask, h, if_true]

/-- A vector without a pending message only loses its mask (R32). -/
theorem msixUnmask_idle (h : (fnState s fn).msixPend.contains vec = false) :
    msixUnmask fn vec s = setFn fn { (fnState s fn) with
      msix := tset (fnState s fn).msix vec { (tgetD (fnState s fn).msix vec {}) with masked := false } } s := by
  have he : (fnState s fn).msixPend.erase vec = (fnState s fn).msixPend := List.erase_of_not_mem fun hm => by
    rw [List.contains_iff_mem.mpr hm] at h
    cases h
  simp only [msixUnmask, h, he, Bool.false_eq_true, if_false]

/-- A consumed count that leaves no more records than the ring holds is taken (R48). -/
theorem evtConsWrite_fits
    (h : EventRing.used { (fnState s fn).ring with cons := value % 2 ^ 32 } ≤ 2 ^ (fnState s fn).ring.log2) :
    evtConsWrite fn value s = tellOverflow fn (setFn fn
      { (fnState s fn) with ring := { (fnState s fn).ring with cons := value % 2 ^ 32 } } s) :=
  if_neg (Nat.not_lt.mpr h)

/-- Any other is a violation (R48). -/
theorem evtConsWrite_exceeds
    (h : 2 ^ (fnState s fn).ring.log2 < EventRing.used { (fnState s fn).ring with cons := value % 2 ^ 32 }) :
    evtConsWrite fn value s = violation fn 0 0x200010 value s :=
  if_pos h

end

/-! ### BAR2 -/

section
variable {fn off len g : Nat} {data : Bytes} {a : Aperture} {x : BarWait} {s : State}

theorem bar2Read_hit (h : apertureOf s fn off len = some a) : bar2Read fn off len s = barAccess (a.access fn off len none) s := by
  simp only [bar2Read, h]

theorem bar2Read_miss (h : apertureOf s fn off len = none) :
    bar2Read fn off len s = emit (.bar2 fn (List.replicate len 0xFF)) (bar2Miss fn off 0 s) := by
  simp only [bar2Read, h]

theorem bar2Write_hit (h : apertureOf s fn off data.length = some a) :
    bar2Write fn off data s = barAccess (a.access fn off data.length (some data)) s := by
  simp only [bar2Write, h]

theorem bar2Write_miss (h : apertureOf s fn off data.length = none) : bar2Write fn off data s = bar2Miss fn off 1 s := by
  simp only [bar2Write, h]

/-- An access to a group that is not ACTIVE waits and wakes the group (R465). -/
theorem barAccess_waits (h : (accessGroups s x).find? (fun g => (getGroup s g).state ≠ 3) = some g) :
    barAccess x s = powerWait g { s with pwr := { s.pwr with waitBar := s.pwr.waitBar ++ [x] } } := by
  simp only [barAccess, h]

/-- A read of ACTIVE groups is answered. -/
theorem barAccess_read (h : (accessGroups s x).find? (fun g => (getGroup s g).state ≠ 3) = none) (hx : x.data = none) :
    barAccess x s = barAnswer x s := by
  simp only [barAccess, h, hx]

/-- A write of ACTIVE groups reaches the partition's bytes. -/
theorem barAccess_write (h : (accessGroups s x).find? (fun g => (getGroup s g).state ≠ 3) = none) (hx : x.data = some data) :
    barAccess x s = partWrite x.partition x.tier x.off data s := by
  simp only [barAccess, h, hx]

/-- Dropping armed errors of which none meets the test drops none. -/
theorem modErr_keepInjected {p : Injected → Bool} (h : ∀ j ∈ s.err.injected, p j = true) :
    modErr (fun e => { e with injected := e.injected.filter p }) s = s := by
  dsimp only [modErr]
  rw [List.filter_eq_self.mpr h]

/-- A read that meets no armed error answers the partition's bytes and leaves every armed error armed (R512). -/
theorem barAnswer_unarmed (h : armedLines s x = []) :
    barAnswer x s = emit (.bar2 x.fn (shownPart s x.partition x.tier x.off x.len)) s := by
  have he := modErr_keepInjected (s := s) (p := fun j => !([] : List Injected).contains j) fun _ _ => rfl
  simp only [barAnswer, h, he, List.find?_nil, List.foldl_nil]

end

/-! ### Registers -/

section
variable {fn bar off len value : Nat} {s : State}

theorem mbxCount_le (fn : Nat) : mbxCount fn ≤ 256 := by
  unfold mbxCount
  split <;> omega

theorem registerWrite_msixTable (h : off < 0x8000) :
    registerWrite fn 4 off len value s = msixWrite fn off (le len value) s := by
  simp only [registerWrite, h, if_true]

theorem registerWrite_pastMsixTable (h : 0x8000 ≤ off) : registerWrite fn 4 off len value s = s := by
  simp only [registerWrite, Nat.not_lt.mpr h, if_true, if_false]

theorem registerWrite_otherBar (h0 : bar ≠ 0) (h4 : bar ≠ 4) : registerWrite fn bar off len value s = s := by
  simp only [registerWrite, h0, h4, ne_eq, not_false_eq_true, if_true, if_false]

theorem registerWrite_mailbox (h1 : 0x100000 ≤ off) (h2 : off < 0x100000 + mbxCount fn * 0x1000) :
    registerWrite fn 0 off len value s =
      mbxRegWrite fn ((off - 0x100000) / 0x1000) ((off - 0x100000) % 0x1000) (le len value) s := by
  simp only [registerWrite, reduceCtorEq, ne_eq, not_true_eq_false, h1, h2, decide_true, Bool.and_self, if_true, if_false]

theorem registerWrite_eventRing (h1 : 0x200000 ≤ off) (h2 : off < 0x200020) :
    registerWrite fn 0 off len value s = evtRegWrite fn (off - 0x200000) (le len value) s := by
  have hm : ¬ off < 0x100000 + mbxCount fn * 0x1000 := by
    have := mbxCount_le fn
    omega
  simp only [registerWrite, reduceCtorEq, ne_eq, not_true_eq_false, hm, h1, h2, decide_false, Bool.and_false,
    Bool.false_eq_true, decide_true, Bool.and_self, if_true, if_false]

theorem registerWrite_checkUnit (h1 : 0x300000 ≤ off) (h2 : off < 0x300800) :
    registerWrite fn 0 off len value s =
      chkWrite fn ((off - 0x300000) / 0x100) ((off - 0x300000) % 0x100) len value s := by
  have hm : ¬ off < 0x100000 + mbxCount fn * 0x1000 := by
    have := mbxCount_le fn
    omega
  have he : ¬ off < 0x200020 := by omega
  simp only [registerWrite, reduceCtorEq, ne_eq, not_true_eq_false, hm, he, h1, h2, decide_false, Bool.and_false,
    Bool.false_eq_true, decide_true, Bool.and_self, if_true, if_false]

/-- Everywhere else in BAR0 a write changes nothing (R9). -/
theorem registerWrite_elsewhere (hm : off < 0x100000 ∨ 0x100000 + mbxCount fn * 0x1000 ≤ off)
    (he : off < 0x200000 ∨ 0x200020 ≤ off) (hc : off < 0x300000 ∨ 0x300800 ≤ off) :
    registerWrite fn 0 off len value s = s := by
  have hm' : ¬ (0x100000 ≤ off ∧ off < 0x100000 + mbxCount fn * 0x1000) := by omega
  have he' : ¬ (0x200000 ≤ off ∧ off < 0x200020) := by omega
  have hc' : ¬ (0x300000 ≤ off ∧ off < 0x300800) := by omega
  simp only [registerWrite, Bool.and_eq_true, decide_eq_true_eq, hm', he', hc', reduceCtorEq, ne_eq, not_true_eq_false,
    if_false]

/-- A write of BENCH_EVT_STATUS alone clears its flags (R47). -/
theorem evtRegWrite_status : evtRegWrite fn 0x14 (u32 value) s = evtStatusWrite fn (leVal (u32 value)) s := by
  have hs : (decide (0x14 ≤ 0x14) && decide (0x18 ≤ 0x14 + (u32 value).length)) = true := by rw [u32, le_length]; rfl
  have hc : (decide (0x14 ≤ 0x10) && decide (0x14 ≤ 0x14 + (u32 value).length)) = false := rfl
  simp only [evtRegWrite, hs, hc, Bool.false_eq_true, if_true, if_false, Nat.sub_self, List.drop_zero]

end

/-- Settles O4: each row is its host access (`exec_…`), a function that is not refused gets it (`hostAccess_served`), and the access
does what its case says. That a straddling BAR2 access is a miss is log entry 52, and that a torn-down VF is refused log entry 45. -/
theorem hostAccessesOfRegistersAndApertures : Obligations.HostAccessesOfRegistersAndApertures := by
  refine ⟨?pending, ?idle, ?fits, ?exceeds, ?unarmed, ?answered, ?readWaits, ?readMiss, ?written, ?writeWaits, ?writeMiss, ?msixTable,
    ?pastMsixTable, ?otherBar, ?mailbox, ?eventRing, ?checkUnit, ?elsewhere, ?status, ?ctNow, ?ctUtc, ?notServed⟩
  case pending =>
    intro m fn vector s u hfn hv hr hf hp
    rw [exec_msixUnmask hfn hv, hostAccess_served hr hf, msixUnmask_pending hp]
  case idle =>
    intro m fn vector s u hfn hv hr hf hp
    rw [exec_msixUnmask hfn hv, hostAccess_served hr hf, msixUnmask_idle hp]
  case fits =>
    intro m fn value s u hfn hr hf hu
    rw [exec_evtConsWrite hfn, hostAccess_served hr hf, evtConsWrite_fits hu]
  case exceeds =>
    intro m fn value s u hfn hr hf hu
    rw [exec_evtConsWrite hfn, hostAccess_served hr hf, evtConsWrite_exceeds hu]
  case unarmed =>
    intro m fn offset len a s u hfn hb hr hf hap hg hu
    rw [exec_bar2Read hfn hb, hostAccess_served hr hf, bar2Read_hit hap, barAccess_read hg rfl, barAnswer_unarmed hu]
    rfl
  case answered =>
    intro m fn offset len a s u hfn hb hr hf hap hg
    rw [exec_bar2Read hfn hb, hostAccess_served hr hf, bar2Read_hit hap, barAccess_read hg rfl]
  case readWaits =>
    intro m fn offset len g a s u hfn hb hr hf hap hg
    rw [exec_bar2Read hfn hb, hostAccess_served hr hf, bar2Read_hit hap, barAccess_waits hg]
  case readMiss =>
    intro m fn offset len s u hfn hb hr hf hap
    rw [exec_bar2Read hfn hb, hostAccess_served hr hf, bar2Read_miss hap]
  case written =>
    intro m fn offset data a s u hfn hb hr hf hap hg
    rw [exec_bar2Write hfn hb, hostAccess_served hr hf, bar2Write_hit hap, barAccess_write hg rfl]
    rfl
  case writeWaits =>
    intro m fn offset g data a s u hfn hb hr hf hap hg
    rw [exec_bar2Write hfn hb, hostAccess_served hr hf, bar2Write_hit hap, barAccess_waits hg]
  case writeMiss =>
    intro m fn offset data s u hfn hb hr hf hap
    rw [exec_bar2Write hfn hb, hostAccess_served hr hf, bar2Write_miss hap]
  case msixTable =>
    intro m fn offset len value s u hfn hl ha hr hf ho
    rw [exec_registerWrite hfn hl ha, hostAccess_served hr hf, registerWrite_msixTable ho]
  case pastMsixTable =>
    intro m fn offset len value s u hfn hl ha hr hf ho
    rw [exec_registerWrite hfn hl ha, hostAccess_served hr hf, registerWrite_pastMsixTable ho]
  case otherBar =>
    intro m fn bar offset len value s u hfn hl ha hr hf h0 h4
    rw [exec_registerWrite hfn hl ha, hostAccess_served hr hf, registerWrite_otherBar h0 h4]
  case mailbox =>
    intro m fn offset len value s u hfn hl ha hr hf h1 h2
    rw [exec_registerWrite hfn hl ha, hostAccess_served hr hf, registerWrite_mailbox h1 h2]
  case eventRing =>
    intro m fn offset len value s u hfn hl ha hr hf h1 h2
    rw [exec_registerWrite hfn hl ha, hostAccess_served hr hf, registerWrite_eventRing h1 h2]
  case checkUnit =>
    intro m fn offset len value s u hfn hl ha hr hf h1 h2
    rw [exec_registerWrite hfn hl ha, hostAccess_served hr hf, registerWrite_checkUnit h1 h2]
  case elsewhere =>
    intro m fn offset len value s u hfn hl ha hr hf hm he hc
    rw [exec_registerWrite hfn hl ha, hostAccess_served hr hf, registerWrite_elsewhere hm he hc]
  case status =>
    intro m fn value s u hfn hr hf
    rw [exec_registerWrite hfn (.inl rfl) rfl, hostAccess_served hr hf, registerWrite_eventRing (by decide) (by decide)]
    exact congrArg _ evtRegWrite_status
  case ctNow =>
    intro m fn s u hfn hr hf
    rw [exec_ctNowLowRead hfn, hostAccess_served hr hf, ctNowLowRead]
  case ctUtc =>
    intro m fn s u hfn hr hf
    rw [exec_ctUtcDateRead hfn, hostAccess_served hr hf, ctUtcDateRead]
  case notServed =>
    intro m fn vector value offset len bar data s u hfn hv hb hw hl ha
    refine ⟨fun hr hf c hc => ?_, fun hr c hc => ?_, fun hr hf => ?_⟩
    · obtain ⟨k, hk⟩ := exec_hostAccess (m := m) (s := s) hfn hv hw hl ha c hc
      rw [hk, hostAccess_refused hr hf]
    · obtain ⟨k, hk⟩ := exec_hostAccess (m := m) (s := s) hfn hv hw hl ha c hc
      rw [hk, hostAccess_unreached hr]
    · rw [exec_bar2Read hfn hb, hostAccess_refused hr hf]

end Sys2Proof.Machine
end

section
/-! A step and what stands after reset: the front command runs, every command answers a next state, the memories keep their
canonical form. -/

namespace Sys2Proof.Machine

/-! ### A step -/

theorem step_front {c : Instr} {rest : List Instr} {s : State} (h : s.pending = c :: rest) :
    step s = exec c { s with pending := rest } := by
  unfold step
  rw [h]

theorem step_idle {s : State} (h : s.pending = []) : step s = .next s := by
  unfold step
  rw [h]

/-- Settles O45: the queue is empty or has a front. That an empty queue idles is log entry 16. -/
theorem stepRunsTheFrontCommand : Obligations.StepRunsTheFrontCommand :=
  ⟨fun _ _ _ h => step_front h, fun _ h => step_idle h⟩

/-- Settles O48: taking the front command off the queue leaves both memories, and no command takes their form away. -/
theorem everyStepKeepsTheMemoriesCanonical : Obligations.EveryStepKeepsTheMemoriesCanonical := by
  intro s t hm h
  cases hp : s.pending with
  | nil =>
    rw [step_idle hp] at h
    cases h
    exact hm
  | cons c rest =>
    rw [step_front hp] at h
    have k := kept_of_exec h
    exact ⟨k.dev hm.1, k.host hm.2⟩

/-! ### Reset -/

theorem getPart_reset (p : Nat) : getPart State.reset p = {} := rfl

theorem hmkPart_reset (p : Nat) : hmkPart State.reset p = 0 := by
  unfold hmkPart
  rw [getPart_reset]
  decide

/-- Settles O46: every field of the reset state is its structure's default, and no table of it has an entry. -/
theorem resetIsAsTheSpecSays : Obligations.ResetIsAsTheSpecSays := by
  refine ⟨rfl, rfl, rfl, rfl, rfl, rfl, rfl, rfl, rfl, rfl, rfl, fun fn n => ?mailbox, fun fn => ?serial, fun p => ?part, ?memories⟩
  case mailbox => rfl
  case serial => rfl
  case part => exact hmkPart_reset p
  case memories => exact ⟨Memory.wf_nil, Memory.wf_nil⟩

end Sys2Proof.Machine
end

section
/-! Every command answers a next state. -/

namespace Sys2Proof.Machine

/-- Settles O47: a row's meaning is a next state as it stands; or the row first tells its cases apart (what it names is there, its
time has come, the wire is up), and each case is a next state. -/
theorem noCommandStops : Obligations.NoCommandStops := by
  intro i s
  cases i with
  | runaheadTtlExpiry | modelUnloadComplete | tablesetLoadComplete | tablesetDrained | gaugeSample | swlMarkerReceive
  | swlMarkerTimeout | tchShardAnswer | tchRepairSweep | gxAckTimer | gxAckTimeout | gxNakBackoffExpiry | gxPathResume
  | qpDrainEnd | cnpReceive | ccRateIncrease | regionQuarantineExpiry | mapSwapHoldExpiry | ethLinkChange | swlReplayRequest
  | swlCreditReturn | swlResponse | swlBulkData | tablesetNumberCheck | mldTimerTrigger | captureWindowExpiry
  | teardownPhaseDone | ideIntegrityFailure | perstNDeassert | serdesRefLoss | serdesRefReturn | spiFlashTimeout | railReturn
  | pcieLinkUp | rcLocalAckTimeout =>
    dsimp only [exec,
      execRunaheadTtlExpiry, execModelUnloadComplete, execTablesetLoadComplete, execTablesetDrained, execGaugeSample,
      execSwlMarkerReceive, execSwlMarkerTimeout, execTchShardAnswer, execTchRepairSweep, execGxAckTimer, execGxAckTimeout,
      execGxNakBackoffExpiry, execGxPathResume, execQpDrainEnd, execCnpReceive, execCcRateIncrease,
      execRegionQuarantineExpiry, execMapSwapHoldExpiry, execEthLinkChange, execSwlReplayRequest, execSwlCreditReturn,
      execSwlResponse, execSwlBulkData, execTablesetNumberCheck, execMldTimerTrigger, execCaptureWindowExpiry,
      execTeardownPhaseDone, execIdeIntegrityFailure, execPerstNDeassert, execSerdesRefLoss, execSerdesRefReturn,
      execSpiFlashTimeout, execRailReturn, execPcieLinkUp, execRcLocalAckTimeout]
    repeat' split
    all_goals exact ⟨_, rfl⟩
  | _ => exact ⟨_, rfl⟩

end Sys2Proof.Machine
end

section
/-! Frames of whole commands: those that only read, and those that set one unit. -/

namespace Sys2Proof.Machine

/-- Settles O54: each of these bodies changes nothing but the envelope (`env_body…`), and posting, taking and completing it change
nothing else either (`framed`). -/
theorem queriesLeaveEveryUnitAlone : Obligations.QueriesLeaveEveryUnitAlone := by
  intro m r s
  simp only [List.forall_mem_cons, List.not_mem_nil, false_imp_iff, implies_true, and_true]
  exact ⟨⟨_, rfl, framed env_frame (fun _ => rfl) (env_bodyNop m)⟩,
    ⟨_, rfl, framed env_frame (fun _ => rfl) (env_bodyQuery m)⟩,
    ⟨_, rfl, framed env_frame (fun _ => rfl) (env_bodyProgress m)⟩,
    ⟨_, rfl, framed env_frame (fun _ => rfl) (env_bodyFdyDirRead m)⟩,
    ⟨_, rfl, framed env_frame (fun _ => rfl) (env_bodyPtnRead m)⟩,
    ⟨_, rfl, framed env_frame (fun _ => rfl) (env_bodyModelQuery m)⟩,
    ⟨_, rfl, framed env_frame (fun _ => rfl) (env_bodyTablesetQuery m)⟩,
    ⟨_, rfl, framed env_frame (fun _ => rfl) (env_bodyClassRead m)⟩,
    ⟨_, rfl, framed env_frame (fun _ => rfl) (env_bodyGaugeReport m)⟩,
    ⟨_, rfl, framed env_frame (fun _ => rfl) (env_bodyTlyRead m)⟩,
    ⟨_, rfl, framed env_frame (fun _ => rfl) (env_bodyTlyEvidence m)⟩,
    ⟨_, rfl, framed env_frame (fun _ => rfl) (env_bodyTchIndexQuery m)⟩,
    ⟨_, rfl, framed env_frame (fun _ => rfl) (env_bodyGthTableQuery m)⟩,
    ⟨_, rfl, framed env_frame (fun _ => rfl) (env_bodyNetQpQuery m)⟩,
    ⟨_, rfl, framed env_frame (fun _ => rfl) (env_bodyNetMapRead m)⟩,
    ⟨_, rfl, framed env_frame (fun _ => rfl) (env_bodyNetRegionQuery m)⟩,
    ⟨_, rfl, framed env_frame (fun _ => rfl) (env_bodySwlQuery m)⟩,
    ⟨_, rfl, framed env_frame (fun _ => rfl) (env_bodyTwinQuery m)⟩,
    ⟨_, rfl, framed env_frame (fun _ => rfl) (env_bodyMldGroupQuery m)⟩,
    ⟨_, rfl, framed env_frame (fun _ => rfl) (env_bodyHmkPartitionQuery m)⟩,
    ⟨_, rfl, framed env_frame (fun _ => rfl) (env_bodyHmkAttest m)⟩,
    ⟨_, rfl, framed env_frame (fun _ => rfl) (env_bodyHmkCertRead m)⟩,
    ⟨_, rfl, framed env_frame (fun _ => rfl) (env_bodyPwrQuery m)⟩,
    ⟨_, rfl, framed env_frame (fun _ => rfl) (env_bodyAonLifeRead m)⟩,
    ⟨_, rfl, framed env_frame (fun _ => rfl) (env_bodyDiagTraining m)⟩,
    ⟨_, rfl, framed env_frame (fun _ => rfl) (env_bodyDiagErrors m)⟩,
    ⟨_, rfl, framed env_frame (fun _ => rfl) (env_bodyDiagBootLog m)⟩,
    ⟨_, rfl, framed env_frame (fun _ => rfl) (env_bodyTlyConfig m)⟩⟩

/-- The frame of a command that changes the Planisher and the network. -/
theorem frame_plaNet : Frame EnvNet where
  env h := by unfold EnvNet; rw [h.pla, h.net]; exact h
  after := EnvNet.trans
  before {a u v} h g := Env.trans (by unfold Env at h ⊢; rw [h]) g

/-- Settles O55: each of these bodies changes its unit and the envelope (`env_body…`), and so does the whole command (`framed`);
PARTITION_SHARE and STREAM_RING_SET settle afterwards. -/
theorem settingsTouchTheirUnitOnly : Obligations.SettingsTouchTheirUnitOnly := by
  intro m r s
  simp only [List.forall_mem_cons, List.not_mem_nil, false_imp_iff, implies_true, and_true]
  refine ⟨?clk, ?aon, ?hmk, ?err, ?mld, ?net, ?pla, ?gau, ?fdy, ?trees, ?tile, ?frames, ?share, ?ring⟩
  case clk => exact ⟨_, rfl, framed frame_clk (fun _ => rfl) (env_bodyCtLeapLoad m)⟩
  case aon => exact ⟨_, rfl, framed frame_aon (fun _ => rfl) (env_bodyAonSettingsSave m)⟩
  case hmk =>
    exact ⟨⟨_, rfl, framed frame_hmk (fun _ => rfl) (env_bodyHmkKeyLoad m)⟩,
      ⟨_, rfl, framed frame_hmk (fun _ => rfl) (env_bodyHmkKeyDestroy m)⟩,
      ⟨_, rfl, framed frame_hmk (fun _ => rfl) (env_bodyHmkRollbackCommit m)⟩⟩
  case err =>
    exact ⟨⟨_, rfl, framed frame_err (fun _ => rfl) (env_bodyDiagViewCheck m)⟩,
      ⟨_, rfl, framed frame_err (fun _ => rfl) (env_bodyDiagInject m)⟩⟩
  case mld => exact ⟨_, rfl, framed frame_mld (fun _ => rfl) (env_bodyMldGroupSet m)⟩
  case net =>
    exact ⟨⟨_, rfl, framed frame_net (fun _ => rfl) (env_bodyNetCcSet m)⟩,
      ⟨_, rfl, framed frame_net (fun _ => rfl) (env_bodyNetPtpSet m)⟩,
      ⟨_, rfl, framed frame_net (fun _ => rfl) (env_bodyNetRegionReg m)⟩,
      ⟨_, rfl, framed frame_net (fun _ => rfl) (env_bodyNetRegionDereg m)⟩,
      ⟨_, rfl, framed frame_net (fun _ => rfl) (env_bodyNetQpConnect m)⟩⟩
  case pla =>
    exact ⟨⟨_, rfl, framed frame_pla (fun _ => rfl) (env_bodyMeterRead m)⟩,
      ⟨_, rfl, framed frame_pla (fun _ => rfl) (env_bodyMeterSet m)⟩⟩
  case gau => exact ⟨_, rfl, framed frame_gau (fun _ => rfl) (env_bodyGaugeConfig m)⟩
  case fdy => exact ⟨_, rfl, framed frame_fdy (fun _ => rfl) (env_bodyFdyConfig m)⟩
  case trees => exact ⟨_, rfl, framed frame_trees (fun _ => rfl) (env_bodyPtnPin m)⟩
  case tile => exact ⟨_, rfl, framed frame_tile (fun _ => rfl) (env_bodyAttConfig m)⟩
  case frames => exact ⟨_, rfl, framed frame_frames (fun _ => rfl) (env_bodyPagePoolConfig m)⟩
  case share => exact ⟨_, rfl, framed frame_pla (fun _ => rfl) (env_bodyPartitionShare m)⟩
  case ring => exact ⟨_, rfl, framed frame_plaNet (fun _ => rfl) (env_bodyStreamRingSet m)⟩

end Sys2Proof.Machine
end

section
/-! The generic commands of group 0x00, served (R42 to R46). -/

namespace Sys2Proof.Machine

section
variable {m : Moment} {r : Req} {s : State}

theorem bodyNop_echo (h : r.f 0 1 % 2 = 1) : bodyNop m r s = .ok s (fit r.hdr.payloadLen r.payload) := by
  simp only [bodyNop, h, if_true]

theorem bodyQuery_page {b : Bytes} (h : queryPage s r.fn (r.f 0 2) = some b) : bodyQuery m r s = .ok s b := by
  simp only [bodyQuery, h]

theorem bodyProgress_live {n : Nat} {o : LongOp} (h : opByHandle s r.fn (r.f 0 4) = some (n, o)) :
    bodyProgress m r s = .ok s (progressBytes o.prog) := by
  simp only [bodyProgress, h]

theorem bodyCancel_live {n : Nat} {o : LongOp} (h : opByHandle s r.fn (r.f 0 4) = some (n, o)) (hc : o.cancelling = false)
    (hs : o.canCancel = true) :
    bodyCancel m r s =
      .ok (progressOp n 0xFE o.prog.position o.prog.total (setOp n { o with cancelling := true } s)) (u32 0) := by
  simp only [bodyCancel, h, hc, hs, Bool.not_true, Bool.false_eq_true, if_false]

theorem bodyEventCfg_disable (h : r.f 9 1 = 0) :
    bodyEventCfg m r s =
      .ok (setFn r.fn { fnState s r.fn with ring := { (fnState s r.fn).ring with enabled := false } } s) := by
  simp only [bodyEventCfg, h, if_true]

theorem bodyApertureSet_disable (hc : (apertureCheck r s).isOk = true) (h : r.f 2 1 = 0) :
    bodyApertureSet m r s =
      .ok (setFn r.fn { fnState s r.fn with apertures := tdel (fnState s r.fn).apertures (r.f 0 1) } s) := by
  rw [bodyApertureSet, checked_isOk hc]
  simp only [h, Nat.zero_ne_one, if_false]

end

/-- Settles O1: each command is served (`runCommand_ended`), and its body answers OK by its case. -/
theorem genericCommandsAnswer : Obligations.GenericCommandsAnswer := by
  refine ⟨?nop, ?query, ?progress, ?cancel, ?eventCfg, ?apertureSet⟩
  case nop => exact fun m r s hs h => congrArg _ (runCommand_ended hs (bodyNop_echo h))
  case query => exact fun m r s b hs h => congrArg _ (runCommand_ended hs (bodyQuery_page h))
  case progress => exact fun m r s n o hs h => congrArg _ (runCommand_ended hs (bodyProgress_live h))
  case cancel => exact fun m r s n o hs h hc ho => congrArg _ (runCommand_ended hs (bodyCancel_live h hc ho))
  case eventCfg => exact fun m r s hs h => congrArg _ (runCommand_ended hs (bodyEventCfg_disable h))
  case apertureSet => exact fun m r s hs hc h => congrArg _ (runCommand_ended hs (bodyApertureSet_disable hc h))

end Sys2Proof.Machine
end

section
/-! The checks of R29 in their order, and requests over MCTP (R53). -/

namespace Sys2Proof.Machine

section
variable {i : OpInfo} {body : Moment → Req → State → Reply} {m : Moment} {r : Req} {s : State} {fn n : Nat}

/-- A bad header, a reserved bit or a misaligned address of a mailbox command is BAD_FIELD, without the interrupt where the vector
is bad (R29 step 2). -/
theorem precheck_badField (hs : r.src = .mailbox fn n)
    (hb : (headerBad r.hdr || rsvdBad i r.payload || misaligned i r) = true) :
    precheck i r s = some (St.badField, decide (2048 ≤ r.hdr.msixVector) && r.hdr.msixVector ≠ 0xFFFF) := by
  simp only [precheck, hs, hb, if_true]

/-- Where none is, a command that is not open to the function is NOT_PERMITTED (R29 step 3). -/
theorem precheck_notOpen (hs : r.src = .mailbox fn n)
    (hb : (headerBad r.hdr || rsvdBad i r.payload || misaligned i r) = false)
    (ho : (r.fn ≠ 0 && (i.pf0 || (r.hdr.partition ≠ 0xFF && r.hdr.partition ≠ r.fn - 1))) = true) :
    precheck i r s = some (St.notPermitted, false) := by
  simp only [precheck, hs, hb, ho, Bool.false_eq_true, if_false, if_true]

/-- A command that fails a check completes with it, and its body does not run. -/
theorem commandStep_refused {st : Nat} {quiet : Bool} (h : precheck i r s = some (st, quiet)) :
    commandStep i body m r s = complete r st 0 0 [] quiet s := by
  simp only [commandStep, h]

/-- A command that passes the checks, whose engine takes work and whose body ends, completes with what the body answers; where no
pair mirrors it, that is all. -/
theorem commandStep_unmirrored (hp : precheck i r s = none) (he : (engineOf i.opcode r).all (groupOpen s) = true)
    (ha : (body m r s).pend = false) (hl : lockedPair (body m r s).st (twinPart r (body m r s).st) = none) :
    commandStep i body m r s = complete r (body m r s).status (body m r s).detail 0 (body m r s).result false (body m r s).st := by
  have hg : (engineOf i.opcode r).filter (fun g => !groupOpen s g) = none := by
    cases hq : engineOf i.opcode r with
    | none => rfl
    | some g =>
      rw [hq, Option.all_some] at he
      simp only [Option.filter, he, Bool.not_true, Bool.false_eq_true, if_false]
  have hm : mirror i.opcode r (body m r s).result (body m r s).st = (body m r s).st := by
    simp only [mirror, hl]
  simp only [commandStep, hp, hg, hm, ha, ite_self, Bool.false_eq_true, if_false]

/-- A command that the watcher takes meets its checks in the state of its capture (R26). -/
theorem runCommand_taken (hs : r.src = .mailbox fn n) (hc : r.hdr.opcode = i.opcode) (hr : hostReach (s.at m) = true)
    (hf : fnRefused (s.at m) fn = false) (ho : (getMbx (s.at m) fn n).own = .idle ∨ (getMbx (s.at m) fn n).own = .done)
    (hw : watcherTakes (postIn r (s.at m)) fn n = true) :
    runCommand i body m r s = commandStep i body m r (taken m r s) := by
  have hd : (decide ((getMbx (s.at m) fn n).own = .idle) || decide ((getMbx (s.at m) fn n).own = .done)) = true := by
    rw [Bool.or_eq_true, decide_eq_true_eq, decide_eq_true_eq]
    exact ho
  simp only [runCommand, named_self hc, hs, hr, hf, hd, hw, Bool.not_true, Bool.false_eq_true, if_false, if_true, taken]

end

/-- Settles O53: a taken command meets `precheck` before its body, whose first check is that of fields and alignment and whose second
that of authority; a refusal changes the envelope alone (`env_complete`). -/
theorem theChecksComeInTheirOrder : Obligations.TheChecksComeInTheirOrder := by
  intro i body m r s fn n hs hc hr hf ho hw badField notOpen quiet
  have hbad : badField = (headerBad r.hdr || rsvdBad i r.payload || misaligned i r) := Bool.or_assoc ..
  have refusal {st : Nat} {q : Bool} (h : precheck i r (taken m r s) = some (st, q)) :
      runCommand i body m r s = complete r st 0 0 [] q (taken m r s) ∧ Env (s.at m) (runCommand i body m r s) := by
    rw [runCommand_taken hs hc hr hf ho hw, commandStep_refused h]
    exact ⟨rfl, env_complete (env_taken (Env.refl _))⟩
  exact ⟨fun hb => refusal (precheck_badField hs (hbad ▸ hb)),
    fun hb hn => refusal (precheck_notOpen hs (hbad ▸ hb) hn)⟩

/-! ### Requests over MCTP -/

section
variable {m : Moment} {r : Req} {s : State}

theorem runTaken_undefined (h : commandOf r.hdr.opcode = none) : runTaken m r s = complete r St.badOpcode 0 0 [] false s := by
  simp only [runTaken, h]

theorem runTaken_defined {i : OpInfo} {body : Moment → Req → State → Reply} (h : commandOf r.hdr.opcode = some (i, body)) :
    runTaken m r s = settleAll m (commandStep i body m r s) := by
  simp only [runTaken, h]

theorem exec_mctpRequest_booting (h : (s.at m).bench.devState = .booting) : exec (.mctpRequest m r) s = .next (s.at m) :=
  congrArg Host.Outcome.next (if_pos h)

theorem exec_mctpRequest_runs (h : (s.at m).bench.devState ≠ .booting) :
    exec (.mctpRequest m r) s = .next (runTaken m { r with src := .mctp } (s.at m)) :=
  congrArg Host.Outcome.next (if_neg h)

end

/-- Settles O5: a device that does not boot runs the request by its opcode (`runTaken_…`), and its completion goes out over MCTP. That
a booting device is silent is log entry 46, the cut of the result log entry 62. -/
theorem managementRequestsRun : Obligations.ManagementRequestsRun := by
  refine ⟨?booting, ?undefined, ?defined, ?answered⟩
  case booting => exact fun m r s h => exec_mctpRequest_booting h
  case undefined =>
    intro m r s u h hc
    rw [exec_mctpRequest_runs h, runTaken_undefined (r := { r with src := .mctp }) hc]
    rfl
  case defined =>
    intro m r i body s u h hc
    rw [exec_mctpRequest_runs h, runTaken_defined (r := { r with src := .mctp }) hc]
  case answered =>
    intro m r i body s u q a h hc hp he ha hl
    rw [exec_mctpRequest_runs h, runTaken_defined (r := { r with src := .mctp }) hc, commandStep_unmirrored hp he ha hl]
    rfl

end Sys2Proof.Machine
end

section
/-! A mailbox's capture and completion (R26, R30, R31). -/

namespace Sys2Proof.Machine

section
variable {s : State} {r : Req} {fn n : Nat}

/-! ### Interrupts and events leave the mailboxes -/

@[simp] theorem sendMsix_mbx (v : Nat) : (sendMsix fn v s).bench.mbx = s.bench.mbx := by
  unfold sendMsix
  dsimp only
  split
  · split <;> rfl
  · rfl

@[simp] theorem dropEvent_mbx : (dropEvent fn s).bench.mbx = s.bench.mbx := rfl

@[simp] theorem putRecord_mbx (k : Nat → Bytes) : (putRecord fn k s).bench.mbx = s.bench.mbx := by
  unfold putRecord
  dsimp only
  split
  · rfl
  · split
    · rw [sendMsix_mbx]
      rfl
    · rfl

@[simp] theorem putEvent_mbx (e : Event) : (putEvent fn e s).bench.mbx = s.bench.mbx := putRecord_mbx _

@[simp] theorem tellOverflow_mbx : (tellOverflow fn s).bench.mbx = s.bench.mbx := by
  unfold tellOverflow
  dsimp only
  split
  · exact putEvent_mbx _
  · rfl

@[simp] theorem offerEvent_mbx (e : Event) : (offerEvent fn e s).bench.mbx = s.bench.mbx := by
  unfold offerEvent
  dsimp only
  split
  · split
    · split
      · rw [putEvent_mbx, tellOverflow_mbx]
      · rw [dropEvent_mbx, tellOverflow_mbx]
    · split <;> exact tellOverflow_mbx
  · exact tellOverflow_mbx

@[simp] theorem logEvent_mbx (e : Event) : (logEvent e s).bench.mbx = s.bench.mbx := by
  unfold logEvent
  split
  · split <;> rfl
  · dsimp only
    split
    · rw [offerEvent_mbx, offerEvent_mbx]
    · exact offerEvent_mbx e

@[simp] theorem writeShadow_mbx (status handle detail : Nat) : (writeShadow r status handle detail s).bench.mbx = s.bench.mbx := by
  unfold writeShadow
  split
  · split
    · exact logEvent_mbx _
    · rfl
  · rfl

/-- A mailbox is read from the table of mailboxes alone. -/
theorem getMbx_congr {t : State} (h : t.bench.mbx = s.bench.mbx) (fn n : Nat) : getMbx t fn n = getMbx s fn n := by
  unfold getMbx
  rw [h]

/-- A store of a mailbox leaves the host's memory and the ranges that fail. -/
theorem setMbx_host (x : Mailbox) : (setMbx fn n x s).hostMem = s.hostMem ∧ (setMbx fn n x s).hostFaults = s.hostFaults := by
  unfold setMbx
  dsimp only
  split
  · exact ⟨rfl, rfl⟩
  · exact ⟨move_hostMem .., move_hostFaults ..⟩

/-! ### Capture -/

/-- The watcher captures a command (R26). -/
theorem getMbx_capture (h : r.src = .mailbox fn n) :
    getMbx (capture r s) fn n = { getMbx s fn n with
      own := .taken, hdr := r.hdr, status := 0, resultLen := 0, opHandle := 0, detail := 0
      payload := Mem.write (getMbx s fn n).payload 0 r.payload } := by
  simp only [capture, h, getMbx_setMbx]

/-! ### Completion -/

/-- A mailbox whose command has completed (R30). -/
def Mailbox.completed (x : Mailbox) (status detail handle ct : Nat) (result : Bytes) : Mailbox :=
  { x with
    own := .done, status, detail, opHandle := handle, ctDone := ct, resultLen := result.length
    payload := Mem.write x.payload 0 result }

/-- The result stands at the start of the payload area. -/
theorem Mailbox.completed_payload {x : Mailbox} {status detail handle ct : Nat} {result : Bytes} (i : Nat) (h : i < result.length) :
    Mem.byte (x.completed status detail handle ct result).payload i = result[i] := by
  have := Mem.byte_write_of_mem x.payload 0 result i h
  rwa [Nat.zero_add] at this

section
variable {status detail handle : Nat} {result : Bytes} {quiet : Bool} (hs : r.src = .mailbox fn n)
  (ho : (getMbx s fn n).own = .taken ∨ (getMbx s fn n).own = .running)
include hs ho

/-- The completion of a mailbox in TAKEN or RUNNING: the mailbox, then the shadow record, then the interrupt. -/
theorem complete_mailbox :
    complete r status detail handle result quiet s =
      (let t := writeShadow r status handle detail
        (setMbx fn n ((getMbx s fn n).completed status detail handle s.ct result) s)
      if bit r.hdr.flags 0 && !quiet then sendMsix fn r.hdr.msixVector t else t) := by
  have hd : (decide ((getMbx s fn n).own = .taken) || decide ((getMbx s fn n).own = .running)) = true := by
    rw [Bool.or_eq_true, decide_eq_true_eq, decide_eq_true_eq]
    exact ho
  simp only [complete, hs, hd, if_true]
  rfl

/-- Of the mailboxes it changes its own alone. -/
theorem getMbx_complete (fn' n' : Nat) :
    getMbx (complete r status detail handle result quiet s) fn' n' =
      getMbx (setMbx fn n ((getMbx s fn n).completed status detail handle s.ct result) s) fn' n' := by
  rw [complete_mailbox hs ho]
  dsimp only
  split
  · exact getMbx_congr (by rw [sendMsix_mbx, writeShadow_mbx]) fn' n'
  · exact getMbx_congr (writeShadow_mbx ..) fn' n'

/-- Without IRQ_DONE and with SHADOW set, host memory that takes the shadow record holds it (R31). -/
theorem complete_shadow (h3 : bit r.hdr.flags 3 = true) (h0 : bit r.hdr.flags 0 = false)
    (hh : hostErr s r.hdr.shadowAddr 16 = none) :
    (complete r status detail handle result quiet s).hostMem =
      Mem.write s.hostMem r.hdr.shadowAddr (u32 r.hdr.seq ++ u16 status ++ u16 r.mbx ++ u32 handle ++ u32 detail) := by
  have hm (x : Mailbox) : hostErr (setMbx fn n x s) r.hdr.shadowAddr 16 = none := by
    rw [hostErr, (setMbx_host x).2]
    exact hh
  rw [complete_mailbox hs ho]
  simp only [h0, h3, hm, writeShadow, Bool.false_and, Bool.false_eq_true, if_false, if_true, hostWrite_hostMem,
    (setMbx_host _).1]

end

end

/-- Settles O51: a capture and a completion are each one store of the mailbox, and neither the shadow record nor the interrupt that
follow reach a mailbox. That a misaligned `shadow_addr` is written too is log entry 62. -/
theorem servedCommandsCompleteTheirMailbox : Obligations.ServedCommandsCompleteTheirMailbox := by
  refine ⟨?captured, ?completed⟩
  case captured =>
    intro m r s fn n hs x
    have hx : x = _ := getMbx_capture hs
    rw [hx]
    exact ⟨rfl, rfl, rfl, rfl, rfl, rfl⟩
  case completed =>
    intro r status detail handle result quiet u fn n hs ho t x
    have hx : x = (getMbx u fn n).completed status detail handle u.ct result := by
      rw [← getMbx_setMbx (s := u) fn n (Mailbox.completed ..)]
      exact getMbx_complete hs ho fn n
    rw [hx]
    refine ⟨rfl, rfl, rfl, rfl, rfl, rfl, rfl, Mailbox.completed_payload, fun fn' n' hne => ?others, fun h3 h0 hh i hi => ?shadow⟩
    case others => rw [← getMbx_setMbx_ne u (Mailbox.completed ..) hne]; exact getMbx_complete hs ho fn' n'
    case shadow =>
      have hl : i < (u32 r.hdr.seq ++ u16 status ++ u16 r.mbx ++ u32 handle ++ u32 detail).length := by
        simp only [u32, u16, List.length_append, le_length]
        exact hi
      rw [complete_shadow hs ho h3 h0 hh, Mem.byte_write_of_mem _ _ _ i hl, List.getD_eq_getElem?_getD,
        List.getElem?_eq_getElem hl, Option.getD_some]

end Sys2Proof.Machine
end

section
/-! Writes through an aperture: the bytes that they reach, and those that they leave (R16, R17, R442). -/

namespace Sys2Proof.Machine

section
variable {s : State}

/-- The aperture that takes an access holds the whole of it, over memory that its partition has. -/
theorem apertureOf_fits {fn off len : Nat} {a : Aperture} (h : apertureOf s fn off len = some a) :
    a.barOffset ≤ off ∧ off + len ≤ a.barOffset + a.size ∧ a.memOffset + a.size ≤ partBytes s a.partition a.tier := by
  have := List.find?_some h
  simp only [Bool.and_eq_true, decide_eq_true_eq] at this
  exact ⟨this.1.1, this.1.2, this.2⟩

/-- Two partitions without a granule in common have no byte in common. -/
theorem devKey_partAddr_ne {p q tier tier' x y : Nat} (hx : x < partBytes s p tier) (hy : y < partBytes s q tier')
    (hg : tier = tier' → ∀ g ∈ granules s p tier, g ∉ granules s q tier) :
    devKey tier (partAddr s p tier x) ≠ devKey tier' (partAddr s q tier' y) := by
  intro h
  obtain ⟨rfl, ha⟩ := mul_add_inj (partAddr_lt hx) (partAddr_lt hy) h
  obtain ⟨i, hi, -, ei⟩ := gran_getD hx
  obtain ⟨j, hj, -, ej⟩ := gran_getD hy
  rw [ei, ej] at ha
  have hij := (mul_add_inj (Nat.mod_lt _ (gs_pos tier)) (Nat.mod_lt _ (gs_pos tier)) ha).1
  exact hg rfl _ (List.getElem_mem hi) (hij ▸ List.getElem_mem hj)

/-- A write within a partition leaves the bytes of every partition that shares no granule with it. -/
theorem partRead_partWrite_of_disjoint {p q tier tier' x off : Nat} {b : Bytes} (hx : x < partBytes s p tier)
    (hb : off + b.length ≤ partBytes s q tier') (hg : tier = tier' → ∀ g ∈ granules s p tier, g ∉ granules s q tier) :
    partRead (partWrite q tier' off b s) p tier x 1 = partRead s p tier x 1 := by
  have hk : Mem.byte (partWrite q tier' off b s).devMem (devKey tier (partAddr s p tier x)) =
      Mem.byte s.devMem (devKey tier (partAddr s p tier x)) :=
    partWrite_frame q tier' b off s _ fun i hi => devKey_partAddr_ne hx (by omega) hg
  rw [partWrite_eq]
  exact congrArg (fun v => [v]) hk

theorem env_bar2Miss {a : State} {fn off dir : Nat} (h : Env a s) : Env a (bar2Miss fn off dir s) := by
  unfold bar2Miss
  dsimp only
  split
  · exact env_note (env_setFn (env_setFn h))
  · exact env_setFn h

/-- A host write that no aperture takes reaches no device memory. -/
theorem hostAccess_bar2Write_miss_devMem {fn off : Nat} {data : Bytes} (h : apertureOf s fn off data.length = none) :
    (hostAccess fn (bar2Write fn off data) s).devMem = s.devMem := by
  cases hr : hostReach s with
  | false => rw [hostAccess_unreached hr]
  | true =>
    cases hf : fnRefused s fn with
    | true => rw [hostAccess_refused hr hf, emit_devMem]
    | false =>
      rw [hostAccess_served hr hf, bar2Write_miss h]
      exact (env_bar2Miss (Env.refl s)).devMem

end

/-- Settles O56: the write is `partWrite` at the place that the aperture names, which lies within its partition. What a device table
shows over these bytes is log entry 63. -/
theorem apertureWritesReachTheirBytesAlone : Obligations.ApertureWritesReachTheirBytesAlone := by
  refine ⟨?taken, ?missed⟩
  case taken =>
    intro m fn offset data a s u key hfn hb hr hf _ hap hg
    obtain ⟨h1, h2, h3⟩ := apertureOf_fits hap
    have hin : a.memOffset + (offset - a.barOffset) + data.length ≤ partBytes u a.partition a.tier := by omega
    refine ⟨partWrite a.partition a.tier (a.memOffset + (offset - a.barOffset)) data u, ?_, partWrite_eq .., ?_, ?_, ?_⟩
    · rw [exec_bar2Write hfn hb, hostAccess_served hr hf, bar2Write_hit hap, barAccess_write hg rfl]
      rfl
    · exact partWrite_bytes _ _ _ _ _ hin
    · exact fun k hk => partWrite_frame _ _ _ _ _ k hk
    · exact fun p tier off _ hd ho => partRead_partWrite_of_disjoint ho hin hd
  case missed =>
    intro m fn offset data s h
    refine ⟨_, rfl, ?_⟩
    split
    · rfl
    · exact hostAccess_bar2Write_miss_devMem h

end Sys2Proof.Machine
end

section
/-! The handles of long operations: each is its function's next free serial (R26, R33). -/

namespace Sys2Proof.Machine

/-! ### Serials (R33) -/

/-- The `i`-th serial counting on from `k`: it wraps from 0x7FF_FFFF to 1. -/
def serialFrom (k i : Nat) : Nat := (k - 1 + i) % 0x7FFFFFF + 1

theorem serialFrom_pos (k i : Nat) : 1 ≤ serialFrom k i := by
  unfold serialFrom
  omega

theorem serialFrom_le (k i : Nat) : serialFrom k i ≤ 0x7FFFFFF := by
  unfold serialFrom
  omega

theorem serialFrom_zero {k : Nat} (h1 : 1 ≤ k) (h2 : k ≤ 0x7FFFFFF) : serialFrom k 0 = k := by
  unfold serialFrom
  omega

/-- The serial after `k`, as the model counts it. -/
theorem serialSucc_eq {k : Nat} (h : k ≤ 0x7FFFFFF) : (if k = 0x7FFFFFF then 1 else k + 1) = k % 0x7FFFFFF + 1 := by
  split <;> omega

theorem serialFrom_serialSucc {k : Nat} (h : 1 ≤ k) (i : Nat) : serialFrom (k % 0x7FFFFFF + 1) i = serialFrom k (i + 1) := by
  unfold serialFrom
  omega

/-- At most 0x7FF_FFFF serials in a row are all different. -/
theorem serialFrom_nodup (k : Nat) {n : Nat} (h : n ≤ 0x7FFFFFF) : ((List.range n).map (serialFrom k)).Nodup := by
  rw [List.nodup_iff_pairwise_ne, List.pairwise_map]
  refine List.pairwise_lt_range.imp_of_mem fun {i j} hi hj hij e => ?_
  rw [List.mem_range] at hi hj
  unfold serialFrom at e
  omega

/-- Fewer than 0x7FF_FFFF numbers leave a serial free among as many and one. -/
theorem serialFrom_free {used : List Nat} (k : Nat) (h : used.length < 0x7FFFFFF) :
    ∃ i < used.length + 1, serialFrom k i ∉ used := by
  refine Classical.byContradiction fun hnone => ?_
  have hsub : (List.range (used.length + 1)).map (serialFrom k) ⊆ used := by
    intro x hx
    obtain ⟨i, hi, rfl⟩ := List.mem_map.mp hx
    exact Classical.byContradiction fun hn => hnone ⟨i, List.mem_range.mp hi, hn⟩
  have hle := (serialFrom_nodup k (Nat.succ_le_of_lt h)).length_le_of_subset hsub
  rw [List.length_map, List.length_range] at hle
  omega

/-- The search gives the first serial that is not in use, where it meets one. -/
theorem nextSerial_first {used : List Nat} {fuel k : Nat} (h1 : 1 ≤ k) (h2 : k ≤ 0x7FFFFFF)
    (hf : ∃ i < fuel, serialFrom k i ∉ used) :
    ∃ j, nextSerial used fuel k = serialFrom k j ∧ (∀ i < j, serialFrom k i ∈ used) ∧ serialFrom k j ∉ used := by
  induction fuel generalizing k with
  | zero =>
    obtain ⟨i, hi, -⟩ := hf
    omega
  | succ fuel ih =>
    unfold nextSerial
    split
    case isFalse hk =>
      rw [List.contains_iff_mem] at hk
      exact ⟨0, (serialFrom_zero h1 h2).symm, fun i hi => by omega, by rwa [serialFrom_zero h1 h2]⟩
    case isTrue hk =>
      rw [List.contains_iff_mem] at hk
      rw [serialSucc_eq h2]
      have hnext : ∃ i < fuel, serialFrom (k % 0x7FFFFFF + 1) i ∉ used := by
        obtain ⟨i, hi, hn⟩ := hf
        cases i with
        | zero =>
          rw [serialFrom_zero h1 h2] at hn
          exact absurd hk hn
        | succ i => exact ⟨i, by omega, by rwa [serialFrom_serialSucc h1]⟩
      obtain ⟨j, hj, hused, hfree⟩ := ih (by omega) (by omega) hnext
      rw [serialFrom_serialSucc h1] at hj hfree
      refine ⟨j + 1, hj, fun i hi => ?_, hfree⟩
      cases i with
      | zero => rwa [serialFrom_zero h1 h2]
      | succ i =>
        rw [← serialFrom_serialSucc h1]
        exact hused i (by omega)

/-! ### Acceptance (R26, R33) -/

section
variable {s : State} {n : Nat} {o : LongOp}

theorem sendMsix_ops (fn v : Nat) : (sendMsix fn v s).bench.ops = s.bench.ops := (env_sendMsix (Env.refl s)).ops

/-- An interrupt leaves every function's serial. -/
theorem sendMsix_serial (fn v k : Nat) : (fnState (sendMsix fn v s) k).serial = (fnState s k).serial := by
  unfold sendMsix
  split
  · dsimp only
    split
    · by_cases h : k = fn
      · subst h
        rw [fnState_setFn]
      · simp only [fnState, setFn, tgetD, tget_tset_ne _ _ h]
    · rfl
  · rfl

/-- An operation with its handle. -/
def LongOp.accepted (o : LongOp) (h : Nat) : LongOp := { o with handle := h, prog := { o.prog with handle := h } }

/-- The serial that an accepted operation of a function gets. -/
def freeSerial (s : State) (fn : Nat) : Nat :=
  nextSerial (usedSerials s fn) ((usedSerials s fn).length + 1) (fnState s fn).serial

/-- The state in which an operation has got its handle, and its function's serial has moved on. -/
def withHandle (n : Nat) (o : LongOp) (k : Nat) (s : State) : State :=
  setOp n (o.accepted (o.fn * 2 ^ 27 + k))
    (setFn o.fn { fnState s o.fn with serial := if k = 0x7FFFFFF then 1 else k + 1 } s)

theorem withHandle_op (k : Nat) : getOp (withHandle n o k s) n = some (o.accepted (o.fn * 2 ^ 27 + k)) := getOp_setOp ..

theorem withHandle_serial (k : Nat) :
    (fnState (withHandle n o k s) o.fn).serial = if k = 0x7FFFFFF then 1 else k + 1 :=
  congrArg FnState.serial (fnState_setFn (s := s) o.fn _)

/-- What the operation's source is told (R26, R28): its mailbox RUNNING with ACCEPTED and the handle, and the interrupt of
IRQ_ACCEPTED; over MCTP an answer. -/
def tellAccepted (o : LongOp) (h : Nat) (s : State) : State :=
  match o.req.src with
  | .mailbox fn mb =>
    let t := setMbx fn mb { getMbx s fn mb with own := .running, status := St.accepted, opHandle := h, prog := (o.accepted h).prog } s
    if bit o.req.hdr.flags 1 then sendMsix fn o.req.hdr.msixVector t else t
  | .mctp => emit (.mctp o.req.hdr St.accepted 0 h 0 s.ct []) s
  | _ => s

theorem tellAccepted_ops (h : Nat) : (tellAccepted o h s).bench.ops = s.bench.ops := by
  unfold tellAccepted
  split
  · dsimp only
    split
    · rw [sendMsix_ops, setMbx_bench]
    · rw [setMbx_bench]
  · rfl
  · rfl

theorem tellAccepted_serial (h k : Nat) : (fnState (tellAccepted o h s) k).serial = (fnState s k).serial := by
  unfold tellAccepted
  split
  · dsimp only
    split
    · rw [sendMsix_serial, fnState_setMbx]
    · rw [fnState_setMbx]
  · rfl
  · rfl

/-- An operation without a handle is accepted with its function's next free serial. -/
theorem acceptOp_open (hg : getOp s n = some o) (hh : o.handle = 0) (ho : o.orphan = false) :
    acceptOp n s = tellAccepted o (o.fn * 2 ^ 27 + freeSerial s o.fn) (withHandle n o (freeSerial s o.fn) s) := by
  have hc : ¬ (decide (o.handle ≠ 0) || o.orphan) = true := by
    rw [hh, ho]
    decide
  unfold acceptOp
  rw [hg]
  dsimp only
  rw [if_neg hc]
  rfl

end

/-- Settles O60: the serial is the first that the walk finds free (`nextSerial_first`), and there is one (`serialFrom_free`). -/
theorem handlesAreGivenInOrder : Obligations.HandlesAreGivenInOrder := by
  refine ⟨?accepted, fun _ => rfl⟩
  intro m n o s u used walk hg hh ho hfn h1 h2 hu
  obtain ⟨j, hj, hused, hfree⟩ := nextSerial_first (fuel := used.length + 1) h1 h2 (serialFrom_free _ hu)
  have hser : freeSerial u o.fn = walk j := hj
  have hpos : 1 ≤ walk j := serialFrom_pos ..
  have hle : walk j ≤ 0x7FFFFFF := serialFrom_le ..
  have ht := acceptOp_open hg hh ho
  rw [hser] at ht
  refine ⟨acceptOp n u, j, o.accepted (o.fn * 2 ^ 27 + walk j), rfl, hused, hfree, ?_, rfl, ?_, ?_, ?_⟩
  · rw [ht, getOp, tellAccepted_ops]
    exact withHandle_op _
  · change (o.fn * 2 ^ 27 + walk j) / 2 ^ 27 = o.fn
    omega
  · change o.fn * 2 ^ 27 + walk j ≠ 0
    omega
  · rw [ht, tellAccepted_serial, withHandle_serial, serialSucc_eq hle]

end Sys2Proof.Machine
end

section
/-! How a long operation advances, ends and is forgotten (R26, R36, R38). -/

namespace Sys2Proof.Machine

section
variable {m : Moment} {op position handle : Nat} {ok : Bool} {o : LongOp} {x : Retained} {s : State}

theorem exec_progressUpdate (hg : getOp (s.at m) op = some o) (hh : o.handle ≠ 0) (hp : position ≤ o.prog.total) :
    exec (.progressUpdate m op position) s = .next (progressOp op (stageOf o position).1 position o.prog.total
      (setOp op { o with canCancel := (stageOf o position).2 } (s.at m))) := by
  change execProgressUpdate m op position s = _
  simp only [execProgressUpdate, hg, hh, hp, ne_eq, not_false_eq_true, decide_true, Bool.and_self, if_true]

/-- While no request waits for another chip, no operation is forwarded, and LONG_OP_END ends it by its kind (R387). -/
theorem exec_longOpEnd (hg : getOp (s.at m) op = some o) (hr : (s.at m).swl.reqs = []) :
    exec (.longOpEnd m op ok) s = .next (settleAll m (endByKind m op o ok (s.at m))) := by
  change execLongOpEnd m op ok s = _
  simp only [execLongOpEnd, hg, hr, List.any_nil, Bool.false_eq_true, if_false]

theorem exec_progressRetentionExpiry (hx : tget (s.at m).bench.retained handle = some x)
    (hd : x.ctEnd + 10000000000 ≤ (s.at m).ct) :
    exec (.progressRetentionExpiry m handle) s = .next
      { s.at m with bench := { (s.at m).bench with retained := tdel (s.at m).bench.retained handle } } := by
  change execProgressRetentionExpiry m handle s = _
  simp only [execProgressRetentionExpiry, hx, hd, if_true]

/-! ### Ends by kind -/

theorem endByKind_otpProgram (h : o.opcode = 0x0E08) : endByKind m op o ok s = endOtpProgram op o ok s := by
  simp only [endByKind, h]

theorem endByKind_fwLoad (h : o.opcode = 0x0F05) : endByKind m op o ok s = endFwLoad op o ok s := by
  simp only [endByKind, h]

theorem endByKind_sessionList (h : o.opcode = 0x0109) : endByKind m op o ok s = endSessionList op o s := by
  simp only [endByKind, h]

theorem endOtpProgram_good (hc : o.cancelling = false) :
    endOtpProgram op o true s = endOp op St.ok 0 (u8 (o.args.getD 0 0))
      (otpStore (o.args.getD 0 0) ((o.args.drop 1).map (BitVec.ofNat 8)) true s) := by
  simp only [endOtpProgram, hc, Bool.false_eq_true, if_false, if_true]

theorem endFwLoad_good (hc : o.cancelling = false) :
    endFwLoad op o true s = endOp op St.ok 0 [] (modErr
      (fun e => { e with firmware := tset e.firmware (o.args.getD 0 0) ((o.args.drop 1).map (BitVec.ofNat 8)) })
      { s with elec := { s.elec with spiTries := 0 } }) := by
  simp only [endFwLoad, hc, Bool.false_eq_true, if_false, if_true]

theorem endFwLoad_bad (hc : o.cancelling = false) :
    endFwLoad op o false s = endOp op St.flashFailed 0 [] (modErr
      (fun e => { e with firmware := tdel e.firmware (o.args.getD 0 0) })
      { s with elec := { s.elec with spiTries := 0 } }) := by
  simp only [endFwLoad, hc, Bool.false_eq_true, if_false]

theorem endSessionList_cancelled (hc : o.cancelling = true) : endSessionList op o s = endOp op St.cancelled 0 [] s := by
  simp only [endSessionList, hc, if_true]

end

/-- Settles O3: an end is that of the operation's kind (`exec_longOpEnd`), and each kind's end is its chapter's (`endByKind_…`). -/
theorem longOperationsAdvanceAndEnd : Obligations.LongOperationsAdvanceAndEnd := by
  refine ⟨?accepted, ?advanced, ?ended, ?otp, ?firmware, ?flashFailed, ?listCancelled, ?forgotten⟩
  case accepted => exact fun m op o s _ _ _ => rfl
  case advanced => exact fun m op position o s hg hh hp => exec_progressUpdate hg hh hp
  case ended => exact fun m op ok o s hg hr => exec_longOpEnd hg hr
  case otp =>
    intro m op o s u hg hk hc hr
    rw [exec_longOpEnd hg hr, endByKind_otpProgram hk, endOtpProgram_good hc]
  case firmware =>
    intro m op o s u hg hk hc hr
    rw [exec_longOpEnd hg hr, endByKind_fwLoad hk, endFwLoad_good hc]
  case flashFailed =>
    intro m op o s u hg hk hc hr
    rw [exec_longOpEnd hg hr, endByKind_fwLoad hk, endFwLoad_bad hc]
  case listCancelled =>
    intro m op ok o s u hg hk hc hr
    rw [exec_longOpEnd hg hr, endByKind_sessionList hk, endSessionList_cancelled hc]
  case forgotten => exact fun m handle x s hx hd => exec_progressRetentionExpiry hx hd

end Sys2Proof.Machine
end

section
/-! Resets, boot phases, the orderly shut-down and firmware loads (R52, R491 to R499). -/

namespace Sys2Proof.Machine

/-! ### DEV_RESET and FW_LOAD -/

section
variable {m : Moment} {r : Req} {s : State}

/-- The operands of DEV_RESET are in range (R494). -/
theorem devReset_inRange (hm : r.f 0 1 ≤ 1) (hh : r.f 1 1 ≤ 1) (hg : r.f 4 4 ≤ 60000) :
    ¬ (decide (1 < r.f 0 1) || decide (1 < r.f 1 1) || decide (60000 < r.f 4 4)) = true := by
  simp only [Bool.or_eq_true, decide_eq_true_eq]
  omega

theorem bodyDevReset_orderly (hm : r.f 0 1 = 0) (hh : r.f 1 1 ≤ 1) (hg : r.f 4 4 ≤ 60000) (hs : s.err.shutdown = none)
    (ho : opRoom s r.fn = true) :
    bodyDevReset m r s = .wait (cancelAll s.bench.nextOp (modErr (fun e => { e with shutdown := some {
      op := s.bench.nextOp, due := (startOp r 0 0 0 false [] s).2.ct + r.f 4 4 * 1000000, hold := r.f 1 1 = 1 } })
      (startOp r 0 0 0 false [] s).2)) := by
  have h1 : ¬ r.f 0 1 = 1 := by omega
  have h2 : ¬ s.err.shutdown.isSome = true := by
    rw [hs]
    exact Bool.false_ne_true
  unfold bodyDevReset
  dsimp only
  rw [if_neg (devReset_inRange (by omega) hh hg), if_neg h1, if_neg h2, asOp_room ho]
  rfl

theorem bodyDevReset_immediate (hm : r.f 0 1 = 1) (hh : r.f 1 1 ≤ 1) (hg : r.f 4 4 ≤ 60000) :
    bodyDevReset m r s = .wait (resetState 4 true (r.f 1 1 = 1) s) := by
  unfold bodyDevReset
  dsimp only
  rw [if_neg (devReset_inRange (by omega) hh hg), if_pos hm]

theorem bodyFwLoad_verified {b : Bytes} (h0 : r.f 0 1 ≤ 1) (h1 : 1 ≤ r.f 8 8) (h2 : r.f 8 8 ≤ 25165824)
    (hslot : s.bench.bootPhase ≤ 2 ∨ s.hmk.slot ≠ r.f 0 1) (hb : (inData r (r.f 8 8) s).toOption = some b) :
    bodyFwLoad m r s = (firmwareBad s (some b)).elim
      (asOp r s 1 1 (2 * r.f 8 8) true (r.f 0 1 :: b.map (·.toNat)) fun _ s => s)
      (fun st => .err (firmwareReject st s) st) := by
  have hrange : ¬ (decide (1 < r.f 0 1) || decide (r.f 8 8 = 0) || decide (24 * 2 ^ 20 < r.f 8 8)) = true := by
    simp only [Bool.or_eq_true, decide_eq_true_eq]
    omega
  have hrun : ¬ (decide (2 < s.bench.bootPhase) && decide (s.hmk.slot = r.f 0 1)) = true := by
    simp only [Bool.and_eq_true, decide_eq_true_eq]
    omega
  unfold bodyFwLoad
  dsimp only
  rw [if_neg hrange, if_neg hrun, withData_ok hb]
  cases firmwareBad s (some b) <;> rfl

end

/-! ### The four resets and the PCIe link -/

section
variable {m : Moment} {s : State}

theorem powerOn_inWindow (h : s.elec.railsBad = 0) :
    powerOn s =
      (let t := resetState 0 true false (modAon (fun a => { a with life := { a.life with cycles := a.life.cycles + 1 } })
        { s with elec := { s.elec with pwrgood := true, perst := true } })
      if t.elec.perstLow then t else bootBegin t) :=
  if_neg (not_not_intro h)

theorem linkReset_up (hp : s.elec.pwrgood = true) (hn : s.elec.perst = false) (hu : s.elec.pcieUp = true) :
    linkReset s = resetState 2 true s.err.hold s := by
  simp only [linkReset, hp, hn, hu, Bool.not_false, Bool.and_self, if_true]

theorem exec_perstNAssert (hp : (s.at m).elec.pwrgood = true) (hn : (s.at m).elec.perst = false) :
    exec (.perstNAssert m) s =
      (let v := modAon (fun a => { a with life := { a.life with resets := a.life.resets + 1 } })
        { s.at m with elec := { (s.at m).elec with perstLow := true } }
      .next (resetState 1 true false { v with elec := { v.elec with perst := true } })) := by
  have hc : ¬ (!(s.at m).elec.pwrgood || (s.at m).elec.perst) = true := by
    rw [hp, hn]
    decide
  exact congrArg Host.Outcome.next (if_neg hc)

theorem exec_perstNDeassert {c b : Nat} (hn : (s.at m).elec.perst = true) (hp : (s.at m).elec.pwrgood = true)
    (hr : (s.at m).elec.railsBad = 0) :
    exec (.perstNDeassert m c b) s = .next (bootBegin
      { s.at m with elec := { (s.at m).elec with perstLow := false, chipId := c % 8, bootSel := b % 2 } }) := by
  change execPerstNDeassert m c b s = _
  simp only [execPerstNDeassert, hn, hp, hr, Bool.not_true, ne_eq, not_true_eq_false, decide_false, Bool.or_self,
    Bool.false_eq_true, if_false]

theorem exec_pcieLinkUp {rate w : Nat} (hl : linkTrains rate w = true) (hp : (s.at m).elec.pwrgood = true)
    (hn : (s.at m).elec.perst = false) (hr : (s.at m).elec.railsBad = 0) :
    exec (.pcieLinkUp m rate w) s =
      (let u := s.at m
      let v := if u.elec.pcieUp then u else modErr (fun e => { e with bootStart := u.ct, bootPre := 0 })
        { u with bench := { u.bench with phaseCt := u.ct } }
      let z : State := { v with elec := { v.elec with pcieUp := true, refclk := true, pcieRate := rate, pcieWidth := w } }
      .next (if rate < 128 || w < 16 then note 0x0F08 1 0xFF 0 [rate, w] z else z)) := by
  have hc : ¬ (!linkTrains rate w || !(s.at m).elec.pwrgood || (s.at m).elec.perst
      || decide ((s.at m).elec.railsBad ≠ 0)) = true := by
    rw [hl, hp, hn, hr]
    decide
  exact if_neg hc

theorem exec_configReady (hn : inReset (s.at m) = false)
    (hd : 100000000 ≤ (s.at m).ct - (s.at m).err.bootStart + (s.at m).err.bootPre) :
    exec (.configReady m) s = .next (modErr (fun e => { e with configOk := true }) (s.at m)) := by
  have hc : (!inReset (s.at m) && decide (100 * msNs ≤ (s.at m).ct - (s.at m).err.bootStart + (s.at m).err.bootPre)) = true := by
    rw [hn, Bool.not_false, Bool.true_and, decide_eq_true_eq]
    exact hd
  exact congrArg Host.Outcome.next (if_pos hc)

theorem exec_shutdownGraceExpiry {x : Shutdown} (hx : (s.at m).err.shutdown = some x) (hd : x.due ≤ (s.at m).ct) :
    exec (.shutdownGraceExpiry m) s = .next (finishShutdown m (s.at m)) := by
  change execShutdownGraceExpiry m s = _
  simp only [execShutdownGraceExpiry, hx, hd, if_true]

theorem exec_bootPhaseEnd {x : BootEnd} (hb : (s.at m).bench.devState = .booting) (hn : inReset (s.at m) = false)
    (hh : (s.at m).err.hold = false) :
    exec (.bootPhaseEnd m x) s = .next (settleAll m (phaseEnd x (s.at m))) := by
  have hc : (decide ((s.at m).bench.devState = .booting) && !inReset (s.at m) && !(s.at m).err.hold) = true := by
    rw [hb, hn, hh]
    decide
  exact congrArg Host.Outcome.next (if_pos hc)

end

/-! ### Boot phases (R495 to R498) -/

section
variable {x : BootEnd} {s : State}

theorem phaseEnd_first (hp : s.bench.bootPhase = 1) (hx : x.ok = true) : phaseEnd x s = toPhase 2 (startCt s) := by
  simp only [phaseEnd, hp, hx, if_true]

theorem phaseEnd_verify (hp : s.bench.bootPhase = 2) (hx : x.flashOk = true) :
    phaseEnd x s = verifySlots { s with elec := { s.elec with spiTries := 0 } } := by
  simp only [phaseEnd, hp, hx, if_true]

theorem phaseEnd_trained (hp : s.bench.bootPhase = 3) (hx : failedOf (recordTraining 0 x.training s) 0 = []) :
    phaseEnd x s = toPhase 4 (recordTraining 0 x.training s) := by
  simp only [phaseEnd, hp, hx, if_true]

theorem phaseEnd_settings (hp : s.bench.bootPhase = 6) (hx : x.ok = true) : phaseEnd x s = restoreSettings s := by
  simp only [phaseEnd, hp, hx, if_true]

end

/-- Settles O43: each row, under the conditions that make it act, is the reset, the boot or the operation that its rule names. That a
device reset is one step is log entry 51. -/
theorem resetsBootsAndShutdowns : Obligations.ResetsBootsAndShutdowns := by
  refine ⟨?orderly, ?immediate, ?graceOver, ?fwLoad, ?powerOn, ?powerFall, ?assert, ?deassert, ?hotReset, ?linkDown, ?linkUp, ?flr,
    ?configReady, ?phaseEnd, ?first, ?verify, ?trained, ?settings⟩
  case orderly =>
    exact fun m r s hs hm hh hg hn ho => congrArg _ (runCommand_goesOn hs (bodyDevReset_orderly hm hh hg hn ho))
  case immediate => exact fun m r s hs hm hh hg => congrArg _ (runCommand_goesOn hs (bodyDevReset_immediate hm hh hg))
  case graceOver => exact fun m x s hx hd => exec_shutdownGraceExpiry hx hd
  case fwLoad =>
    exact fun m r s b hs h0 h1 h2 hslot hb => congrArg _ (runCommand_answered hs (bodyFwLoad_verified h0 h1 h2 hslot hb))
  case powerOn =>
    intro m s u v hp hr
    have hc : ¬ u.elec.pwrgood = true := by
      rw [hp]
      exact Bool.false_ne_true
    exact congrArg Host.Outcome.next ((if_neg hc).trans (powerOn_inWindow hr))
  case powerFall => exact fun m s hp => congrArg Host.Outcome.next (if_pos hp)
  case assert => exact fun m s hp hn => exec_perstNAssert hp hn
  case deassert => exact fun m c b s hn hp hr => exec_perstNDeassert hn hp hr
  case hotReset => exact fun m s hp hn hu => congrArg Host.Outcome.next (linkReset_up hp hn hu)
  case linkDown => exact fun m s hp hn hu => congrArg Host.Outcome.next (linkReset_up hp hn hu)
  case linkUp => exact fun m rate w s hl hp hn hr => exec_pcieLinkUp hl hp hn hr
  case flr => exact fun m fn s hfn => congrArg Host.Outcome.next (if_pos hfn)
  case configReady => exact fun m s hn hd => exec_configReady hn hd
  case phaseEnd => exact fun m x s hb hn hh => exec_bootPhaseEnd hb hn hh
  case first => exact fun x s hp hx => phaseEnd_first hp hx
  case verify => exact fun x s hp hx => phaseEnd_verify hp hx
  case trained => exact fun x s hp hx => phaseEnd_trained hp hx
  case settings => exact fun x s hp hx => phaseEnd_settings hp hx

end Sys2Proof.Machine
end

section
/-! The rows of sessions, after which the device settles, and the outcome of a check (R29, R66). -/

namespace Sys2Proof.Machine

/-- A success is the value that it carries, whatever stands in for a failure. -/
theorem eq_ok_of_isOk {ε α : Type} {e : Except ε α} (h : e.isOk = true) (d : α) : e = .ok (e.toOption.getD d) := by
  cases e with
  | error => cases h
  | ok => rfl

/-- What a row leaves, the device settles. -/
theorem next_settleAll (m : Moment) {t u : State} (h : t = u) : (.next (settleAll m t) : Out) = .next (settleAll m u) := by
  rw [h]

section
variable {i : OpInfo} {body : Moment → Req → State → Reply} {m : Moment} {r : Req} {s u : State} {b : Bytes}

/-- A served row that answers OK ends, and the device settles. -/
theorem runSettled_ended (h : serves i m r s = true) (hb : body m r (taken m r s) = .ok u b) :
    runSettled i body m r s = settleAll m (ended i r b u) :=
  congrArg (settleAll m) (runCommand_ended h hb)

/-- A served row that stays pending goes on, and the device settles. -/
theorem runSettled_goesOn (h : serves i m r s = true) (hb : body m r (taken m r s) = .wait u) :
    runSettled i body m r s = settleAll m (goesOn i r u) :=
  congrArg (settleAll m) (runCommand_goesOn h hb)

end

end Sys2Proof.Machine
end

section
/-! The Plinth's batches: which one opens, and when it closes (R71 to R75). -/

namespace Sys2Proof.Machine

/-- What the sessions that pass the grant test and are no shadows would be granted, in the order of R72. -/
def grantOrder (l : List Tested) (s : State) : List Want :=
  sortBy (fun a b => keyLe (orderKey s a.id) (orderKey s b.id))
    ((l.filter (fun t => t.credit && t.fair && (t.want.rebuild || !isShadow s t.want.id))).map (·.want))

/-- The batch that a session of that order opens: it takes the sessions of its own model slot, partition and mode, and knows how many
chunks of its slot and partition wait (R73, R210). -/
def openedBatch (ok : List Want) (w : Want) (s : State) : Fill :=
  fillBatch s (batchOf s w.id).1 (ok.filter (fun v => batchOf s v.id = batchOf s w.id))
    (ok.filter (fun v => v.chunk ≠ 0 && (batchOf s v.id).1 = (batchOf s w.id).1
      && (batchOf s v.id).2.1 = (batchOf s w.id).2.1)).length

section
variable {m : Moment} {w : Want} {s : State}

/-- Where no tested session is to be stopped, the grants stop none. -/
theorem grantStops_nil {l : List Tested} (h : l.all (fun t => (grantStop s t.want).isNone) = true) :
    (l.filter (fun t => t.credit && t.fair)).filterMap (fun t => (grantStop s t.want).map (fun r => (t.want.id, r))) = [] := by
  rw [List.filterMap_eq_nil_iff]
  intro t ht
  rw [Option.map_eq_none_iff, ← Option.isNone_iff_eq_none]
  exact List.all_eq_true.mp h t (List.mem_filter.mp ht).1

/-- Without a stop and without a shadow's grant, the first session in order whose span has room opens its batch, and one that closes now
is dispatched (R72 to R74). -/
theorem formBatch_dispatches {t : List Tested × State} (ht : testAll m s = t)
    (hstop : t.1.all (fun x => (grantStop t.2 x.want).isNone) = true) (htwin : twinWants t.2 t.1 = [])
    (hfirst : (grantOrder t.1 t.2).find? (fun w => spanFree t.2 (batchOf t.2 w.id).1) = some w)
    (hclose : closesNow t.2 w.id (openedBatch (grantOrder t.1 t.2) w t.2) = true) :
    formBatch m s = dispatch m (batchOf t.2 w.id) (openedBatch (grantOrder t.1 t.2) w t.2)
      (countHolds (batchOf t.2 w.id).1 (batchOf t.2 w.id).2.1 t.1 t.2) := by
  have hall : t.1.filter (fun _ => !false) = t.1 := List.filter_eq_self.mpr fun _ _ => rfl
  unfold grantOrder at hfirst
  unfold formBatch
  rw [ht]
  dsimp only
  rw [grantStops_nil hstop]
  simp only [List.foldl_nil, List.any_nil, hall, htwin, hfirst]
  exact if_pos hclose

/-- While the Plinth forms batches, BATCH_DISPATCH forms the next one. -/
theorem exec_batchDispatch (h : batching (s.at m) = true) :
    exec (.batchDispatch m) s = .next (settleAll m (formBatch m (s.at m))) :=
  next_settleAll m (if_pos h)

/-- So does BATCH_WAIT_EXPIRY. -/
theorem exec_batchWaitExpiry (h : batching (s.at m) = true) :
    exec (.batchWaitExpiry m) s = .next (settleAll m (formBatch m (s.at m))) :=
  next_settleAll m (if_pos h)

end

/-- Settles O11: either row forms the next batch (`exec_batch…`), and the first session whose span has room opens it
(`formBatch_dispatches`). -/
theorem batchesAreDispatched : Obligations.BatchesAreDispatched := by
  refine ⟨?dispatch, ?waitExpiry⟩
  case dispatch =>
    intro m w s u
    generalize ht : testAll m u = t
    intro _ ok b f hb hstop htwin hfirst hclose _
    rw [exec_batchDispatch hb, formBatch_dispatches ht hstop htwin hfirst hclose]
    rfl
  case waitExpiry =>
    intro m w s u
    generalize ht : testAll m u = t
    intro _ ok b f hb hstop htwin hfirst hclose _
    rw [exec_batchWaitExpiry hb, formBatch_dispatches ht hstop htwin hfirst hclose]
    rfl

end Sys2Proof.Machine
end

section
/-! An admission that finds everything it needs (R54, R67, R68, R70). -/

namespace Sys2Proof.Machine

/-- The state after an admission whose entry, storage and path stand in `t`: the session is bound to its generation, its class's
meters count it, its class's burst is posted as HELD (R306), and the next serial is taken (R55). -/
def admissionDone (a : Admit) (k : Colouring) (id : Nat) (s t : State) : State :=
  takeSerial (post [⟨Lg.credit, a.cls, [(1, ((getClass s a.cls).burst : Int)), (0, ((getClass s a.cls).burst : Int))]⟩] 7 id
    (countColour (getClass s a.cls) k (bindGen a.gen 1 t)))

section
variable {m : Moment} {p slot i node : Nat} {a : Admit} {k : Colouring} {s : State}

/-- An admission whose handle resolves and that gets its memory takes the next serial's ID. -/
theorem admitInto_placed {t : State} (hn : (if a.handle = 0 then some 0 else admitNode p false a s) = some node)
    (ht : admitPlace m p (mkId (chip s) s.aon.sessSerial i) slot k.colour node a s = .ok t) :
    admitInto m p none a k slot i s =
      (let id := mkId (chip s) s.aon.sessSerial i
      let z := admissionDone a k id s t
      { st := z, id, slot, colour := k.colour, pos := ((getSess z id).map (·.prefixLen)).getD 0 }) := by
  unfold admitInto
  rw [Option.isSome_none, hn]
  dsimp only [Option.getD_none]
  rw [ht]
  simp only [Bool.false_eq_true, if_false, admissionDone]

/-- An admission that its checks and its meters let pass, and that finds a slot and an index, goes on to its handle and its memory. -/
theorem admitAs_found (hc : (admitCheck p a s).isOk = true)
    (hk : (colourOf (refillMeters (getClass s a.cls) s) (getClass s a.cls) a.pre).colour ≠ 2)
    (hs : pickSlot m 0 (refillMeters (getClass s a.cls) s) = some slot)
    (hi : pickIdx m 1 (refillMeters (getClass s a.cls) s).pln.dir dirCount = some i)
    (hv : (refillMeters (getClass s a.cls) s).aon.sessSerial < 2 ^ 37) :
    admitAs m p none a s = admitInto m p none a (colourOf (refillMeters (getClass s a.cls) s) (getClass s a.cls) a.pre) slot i
      (refillMeters (getClass s a.cls) s) := by
  have hserial : ¬ (true && decide (2 ^ 37 ≤ (refillMeters (getClass s a.cls) s).aon.sessSerial)) = true := by
    rw [Bool.true_and, decide_eq_true_eq]
    exact Nat.not_le.mpr hv
  unfold admitAs
  rw [eq_ok_of_isOk hc ()]
  simp only [Option.isSome_none, Bool.false_eq_true, if_false, hk, hs, hi]
  exact if_neg hserial

end

/-- A served admission answers what `admitAs` gives, where that is OK. -/
theorem bodySessionAdmit_ok {m : Moment} {r : Req} {s : State} (hr : r.src ≠ .mirrored) {x : Admitted}
    (hx : admitAs m r.part16 none (admitOf (fit 0x50 r.payload)) s = x) (h : x.status = 0) :
    bodySessionAdmit m r s = .ok x.st (u64 x.id ++ u16 x.slot ++ u8 x.colour ++ u8 0 ++ u32 x.pos) := by
  unfold bodySessionAdmit
  dsimp only
  rw [if_neg hr, hx, if_pos h]

/-- Settles O7: the checks, the colour, the slot and the index let the admission through (`admitAs_found`), and its handle and memory
make it a session (`admitInto_placed`). That its class's burst is posted as ADMITTED and HELD is R306. -/
theorem sessionsAreAdmitted : Obligations.SessionsAreAdmitted := by
  intro m r s slot i node hs u a c v d id w z hc hk hslot hidx hserial hnode hw
  have hx := (admitAs_found hc hk hslot hidx hserial).trans (admitInto_placed hnode (eq_ok_of_isOk hw u))
  have hb := bodySessionAdmit_ok (serves_not_mirrored hs) hx rfl
  change Host.Outcome.next (runSettled opSessionAdmit bodySessionAdmit m r s) = _
  rw [runSettled_ended hs hb]
  dsimp only [admissionDone]

end Sys2Proof.Machine
end

section
/-! The commands on one session of this chip: stop, read, set, rebind, retire and arm (R64, R66, R69, R82, R83, R91). -/

namespace Sys2Proof.Machine

section
variable {m : Moment} {r : Req} {s : State} {id : Nat} {x : Session} {e : DirEntry}

/-! ### Stop and read -/

theorem stopNow_running (hg : getSess s id = some x) (ht : x.st = .decode ∨ x.st = .prefill) :
    stopNow id s = .ok (stopSession id 8 [] false 0 0 s) (stopResult (stopSession id 8 [] false 0 0 s) id) := by
  rcases ht with ht | ht
  all_goals
    simp only [stopNow, hg, ht, reduceCtorEq, decide_true, decide_false, Bool.or_self, Bool.or_true, Bool.or_false,
      Bool.false_eq_true, if_false, if_true]

/-- A session of DECODE or PREFILL at its step boundary is stopped at once (R64). -/
theorem bodySessionStop_now (hl : locate r s (r.f 0 8) = .here (.active x)) (hs : settled s x = true)
    (hw : x.waiting.isEmpty = true) (ht : x.st = .decode ∨ x.st = .prefill) (hg : getSess s (r.f 0 8) = some x) :
    bodySessionStop m r s = .ok (stopSession (r.f 0 8) 8 [] false 0 0 s)
      (stopResult (stopSession (r.f 0 8) 8 [] false 0 0 s) (r.f 0 8)) := by
  have hrun : (decide (x.st = .prefill) || decide (x.st = .decode)) = true := by
    rw [Bool.or_eq_true, decide_eq_true_eq, decide_eq_true_eq]
    exact ht.symm
  rw [bodySessionStop, onSession_here hl]
  dsimp only
  rw [if_pos hrun, atStep_now hs hw, stopNow_running hg ht]

theorem bodySessionRead_active (hl : locate r s (r.f 0 8) = .here (.active x)) :
    bodySessionRead m r s =
      .ok (updateCredit (r.f 0 8) s) (entryBytes ((getSess (updateCredit (r.f 0 8) s) (r.f 0 8)).getD x)) := by
  rw [bodySessionRead, onSession_here hl]

theorem bodySessionRead_parked (hl : locate r s (r.f 0 8) = .here (.parked e)) :
    bodySessionRead m r s = { st := s, detail := 1, result := dirBytes e } := by
  rw [bodySessionRead, onSession_here hl]

/-! ### Set -/

/-- A change of AUTO_CAST or of the cast's time arms the auto-cast anew (R82). -/
theorem setNow_checked (hg : getSess s id = some x) (hf : x.st ≠ .faulted) (hr : x.st ≠ .retiring)
    (hc : (setCheck r x s).isOk = true) :
    setNow r id s =
      (let v := modSess id (fun _ => setEntry r x) s
      let again := sflag x.flags Fl.autoCast ≠ sflag (setEntry r x).flags Fl.autoCast || x.castAfter ≠ (setEntry r x).castAfter
      .ok (if again then rearmCast id v else v)) := by
  simp only [setNow, hg, hf, hr, decide_false, Bool.or_self, Bool.false_eq_true, if_false]
  exact checked_isOk hc

theorem bodySessionSet_now (hl : locate r s (r.f 0 8) = .here (.active x)) (hs : settled s x = true)
    (hw : x.waiting.isEmpty = true) (hf : x.st ≠ .faulted) : bodySessionSet m r s = setNow r (r.f 0 8) s := by
  rw [bodySessionSet, onSession_here hl]
  dsimp only
  rw [if_neg hf, atStep_now hs hw]

/-- A parked session's image and its directory entry take the selected fields (the model's reading of R91, log entry 26). -/
theorem setParked_checked (hi : (getStore s id).image = some x) (hc : (setCheck r x s).isOk = true) :
    setParked r id s =
      .ok (modDir id (fun e => { e with
          priority := (setEntry r x).priority
          flags := e.flags &&& ~~~(BitVec.ofNat 32 Fl.bySet) ||| ((setEntry r x).flags &&& BitVec.ofNat 32 Fl.bySet) })
        (modStore id (fun t => { t with image := some (setEntry r x) }) s)) := by
  rw [setParked, hi]
  exact checked_isOk hc

theorem bodySessionSet_parked (hl : locate r s (r.f 0 8) = .here (.parked e)) (hc : imageChip e = chip s) :
    bodySessionSet m r s = setParked r (r.f 0 8) s := by
  rw [bodySessionSet, onSession_here hl]
  exact if_pos hc

/-! ### Rebind -/

theorem rebindNow_active (hf : x.st ≠ .faulted) (hr : x.st ≠ .retiring) (hb : bindable s (r.f 8 2) x = true) :
    rebindNow r id (.active x) s = .ok (rebindActive x (r.f 8 2) s) := by
  simp only [rebindNow, rebindGen, hf, hr, hb, decide_false, Bool.or_self, Bool.false_eq_true, if_false, if_true]

theorem rebindNow_parked (hi : (getStore s id).image = some x) (hb : bindable s (r.f 8 2) x = true) :
    rebindNow r id (.parked e) s = .ok (rebindParked id (r.f 8 2) e s) := by
  simp only [rebindNow, rebindGen, hi, hb, if_true]

theorem bodySessionRebind_now (hl : locate r s (r.f 0 8) = .here (.active x)) (ho : rebindOpen s x = true)
    (hw : x.waiting.isEmpty = true) (hf : x.st ≠ .faulted) (hr : x.st ≠ .retiring) (hb : bindable s (r.f 8 2) x = true) :
    bodySessionRebind m r s = .ok (rebindActive x (r.f 8 2) s) := by
  rw [bodySessionRebind, onSession_here hl]
  simp only [hf, hr, ho, hw, decide_false, Bool.or_self, Bool.and_self, Bool.false_eq_true, if_false, if_true]
  exact rebindNow_active hf hr hb

/-- Only a session that a run-ahead has claimed has a claim to give way (R116). -/
theorem dropClaim_parked (h : e.dstate = .parked) : dropClaim id e s = s := by
  rw [dropClaim, h]
  rfl

theorem bodySessionRebind_parked (hl : locate r s (r.f 0 8) = .here (.parked e)) (hd : e.dstate = .parked)
    (hi : (getStore s (r.f 0 8)).image = some x) (hb : bindable s (r.f 8 2) x = true) :
    bodySessionRebind m r s = .ok (rebindParked (r.f 0 8) (r.f 8 2) ((getDir s (r.f 0 8)).getD e) s) := by
  rw [bodySessionRebind, onSession_here hl]
  dsimp only
  rw [dropClaim_parked hd, rebindNow_parked hi hb, rebindNow_parked hi hb]
  exact if_neg (not_not_intro rfl)

/-! ### Retire -/

theorem bodySessionRetire_now (hl : locate r s (r.f 0 8) = .here (.active x)) (hr : x.st ≠ .retiring)
    (ho : retireOpen s x = true) (hw : x.waiting.all isRebind = true) : bodySessionRetire m r s = .ok (retireActive x s) := by
  rw [bodySessionRetire, onSession_here hl]
  simp only [hr, ho, hw, Bool.and_self, if_false, if_true]

theorem bodySessionRetire_parked (hl : locate r s (r.f 0 8) = .here (.parked e)) (hd : e.dstate = .parked) :
    bodySessionRetire m r s = .ok (retireParked (r.f 0 8) ((getDir s (r.f 0 8)).getD e) s) := by
  rw [bodySessionRetire, onSession_here hl]
  dsimp only
  rw [dropClaim_parked hd]

/-! ### Arm -/

theorem inOrder_now {k : Reply} (hb : holdsBack s x = false) (hn : laneHas s x.id = false) : inOrder r x s k = k := by
  rw [inOrder, hb, hn]
  rfl

theorem inOrder_waits {k : Reply} (h : holdsBack s x = true ∨ laneHas s x.id = true) :
    inOrder r x s k = .wait (addWaiting x.id r s) :=
  if_pos (Bool.or_eq_true _ _ ▸ h)

/-- A POSTED chain whose tag is free is armed for the session, in place of the one that it had (R83, R366). -/
theorem armNow_posted {p h i : Nat} {c : Chain} (hh : h ≠ ones32) (hi : chainOf s p h = some (i, c)) (hc : c.cstate = .posted)
    (ht : tagArmed (disarm id s) p c.tag = false) :
    armNow id p h s =
      (let v := disarm id s
      .ok (modDir id (fun e => if e.kept then { e with armChain := h, flags := setFlag e.flags Fl.armed true } else e)
        (modSess id (fun x => { x with armChain := h, flags := setFlag x.flags Fl.armed true })
          { v with net := { v.net with chains := tset v.net.chains i { c with cstate := .armed, session := id } } }))) := by
  simp only [armNow, hh, hi, hc, ht, reduceCtorEq, decide_false, Bool.false_and, ne_eq, not_true_eq_false, Bool.false_eq_true,
    if_false]

theorem armActive_takes (ht : x.st = .decode ∨ x.st = .toolwait ∨ x.st = .parking) :
    armActive r x s = armNow x.id x.partition (r.f 8 4) s := by
  have hc : [SState.decode, .toolwait, .parking].contains x.st = true := by
    rcases ht with ht | ht | ht
    all_goals rw [ht]; rfl
  exact if_pos hc

theorem bodySessionArm_active (hl : locate r s (r.f 0 8) = .here (.active x)) :
    bodySessionArm m r s = inOrder r x s (armActive r x s) := by
  rw [bodySessionArm, onSession_here hl]

end

/-- Settles O8: each command finds its session on this chip (`onSession_here`), nothing holds it back, and its body does what the
command's rule says. That SESSION_SET changes a parked session's image and entry is the model's reading of R65 and R91, log entry 26. -/
theorem sessionCommandsTakeEffect : Obligations.SessionCommandsTakeEffect := by
  refine ⟨?stop, ?readActive, ?readParked, ?setActive, ?setParked, ?rebindActive, ?rebindParked, ?retireActive, ?retireParked, ?armed,
    ?armWaits⟩
  case stop =>
    exact fun m r s x hs hl hb hw ht hg => congrArg Host.Outcome.next (runSettled_ended hs (bodySessionStop_now hl hb hw ht hg))
  case readActive => exact fun m r s x hs hl => congrArg Host.Outcome.next (runCommand_ended hs (bodySessionRead_active hl))
  case readParked => exact fun m r s e hs hl => congrArg Host.Outcome.next (runCommand_detail hs (bodySessionRead_parked hl))
  case setActive =>
    exact fun m r s x hs hl hb hw hf hr hg hc => congrArg Host.Outcome.next
      (runSettled_ended hs ((bodySessionSet_now hl hb hw hf).trans (setNow_checked hg hf hr hc)))
  case setParked =>
    exact fun m r s e x hs hl hi hx hc => congrArg Host.Outcome.next
      (runSettled_ended hs ((bodySessionSet_parked hl hi).trans (setParked_checked hx hc)))
  case rebindActive =>
    exact fun m r s x hs hl ho hw hf hr hb => congrArg Host.Outcome.next
      (runSettled_ended hs (bodySessionRebind_now hl ho hw hf hr hb))
  case rebindParked =>
    exact fun m r s e x hs hl hd hx hb => congrArg Host.Outcome.next
      (runSettled_ended hs (bodySessionRebind_parked hl hd hx hb))
  case retireActive =>
    exact fun m r s x hs hl hr ho hw => congrArg Host.Outcome.next (runSettled_ended hs (bodySessionRetire_now hl hr ho hw))
  case retireParked =>
    exact fun m r s e hs hl hd => congrArg Host.Outcome.next (runSettled_ended hs (bodySessionRetire_parked hl hd))
  case armed =>
    intro m r s x i c hs u v hl hb hn ht hh hi hc hf
    have harm := (bodySessionArm_active (m := m) hl).trans
      ((inOrder_now hb hn).trans ((armActive_takes ht).trans (armNow_posted hh hi hc hf)))
    exact congrArg Host.Outcome.next (runSettled_ended hs harm)
  case armWaits =>
    intro m r s x hs u hl h
    exact congrArg Host.Outcome.next (runSettled_goesOn hs ((bodySessionArm_active hl).trans (inOrder_waits h)))

end Sys2Proof.Machine
end

section
/-! Appends: what a lane cuts at once, tokens that the host supplies, and a waiting append's turn (R91, R225, R226, R234, R283). -/

namespace Sys2Proof.Machine

section
variable {m : Moment} {r : Req} {s : State} {id : Nat} {x : Session}

/-! ### Text -/

/-- The operands of SESSION_APPEND are in range (R91). -/
theorem append_inRange (hl : r.f 8 1 ≤ 1) (hf : r.f 9 1 ≤ 1) (ho : r.f 0x0A 1 = 0 ∨ r.f 0x0A 1 = 2)
    (hn : r.f 8 1 = 1 → r.f 0x0C 4 ≤ 3952) :
    ¬ (decide (1 < r.f 8 1) || decide (1 < r.f 9 1) || !(decide (r.f 0x0A 1 = 0) || decide (r.f 0x0A 1 = 2))
      || (decide (r.f 8 1 = 1) && decide (3952 < r.f 0x0C 4))) = true := by
  simp only [Bool.or_eq_true, Bool.and_eq_true, Bool.not_eq_true', Bool.or_eq_false_iff, decide_eq_true_eq, decide_eq_false_iff_not]
  omega

theorem bodySessionAppend_active (hl : r.f 8 1 ≤ 1) (hf : r.f 9 1 ≤ 1) (ho : r.f 0x0A 1 = 0 ∨ r.f 0x0A 1 = 2)
    (hn : r.f 8 1 = 1 → r.f 0x0C 4 ≤ 3952) (hx : locate r s (r.f 0 8) = .here (.active x)) (hb : holdsBack s x = false) :
    bodySessionAppend m r s = appendNow m r x s := by
  rw [bodySessionAppend, if_neg (append_inRange hl hf ho hn), onSession_here hx]
  simp only [hb, Bool.false_eq_true, if_false]

/-- An append that a free lane cuts within 1 ms runs at once, charged to its partition (R234, R283). -/
theorem appendNow_short {b : Bytes} (ht : intakeState x.st = true) (hd : (appendData r s).toOption = some b)
    (hfree : (List.range 16).any (fun n => !thas s.txt.lanes n) = true) (hn : laneHas s x.id = false) (hs : b.length ≤ laneShort) :
    appendNow m r x s = appendBytes m x.id (r.f 9 1 = 1) (r.f 0x0A 1) b (chargeLane x.partition b.length s) := by
  have hlane : ((List.range 16).filter (fun n => !thas s.txt.lanes n)).isEmpty = false := by
    rw [List.isEmpty_eq_false_iff_exists_mem]
    obtain ⟨n, hn, hfree⟩ := List.any_eq_true.mp hfree
    exact ⟨n, List.mem_filter.mpr ⟨hn, hfree⟩⟩
  unfold appendNow
  simp only [ht, toOption_some hd, hlane, hn, hs, Bool.not_true, Bool.or_self, Bool.false_eq_true, if_false, if_true]

/-- Bytes that the Shear cuts are staged in the journal and counted, and a final buffer is committed (R225, R226). -/
theorem appendBytes_staged {final : Bool} {origin : Nat} {b : Bytes} {a : Shorn} {t : State} (hg : getSess s id = some x)
    (ht : intakeState x.st = true)
    (ha : (shear (genImage s x.tableGen) (sflag x.flags Fl.utf8Reject) final origin (getStore s id).text b).toOption = some a)
    (hz : final = true → x.length + a.text.staged ≠ 0) (hs : stageToks m id a.toks a.text s = .ok t) :
    appendBytes m id final origin b s =
      .ok (if final then intakeEnded id (commitIntake id (countShorn x b.length a t)) else countShorn x b.length a t)
        (u32 a.toks.length ++ u32 a.replaced ++ u32 (x.length + a.text.staged)) := by
  have hempty : ¬ (final && decide (x.length + a.text.staged = 0)) = true := by
    rw [Bool.and_eq_true, decide_eq_true_eq]
    exact fun h => hz h.1 h.2
  unfold appendBytes
  simp only [hg, ht, toOption_some ha, hs, Bool.not_true, Bool.false_eq_true, if_false]
  exact if_neg hempty

/-! ### Tokens -/

/-- The operands of SESSION_APPEND_TOKENS are in range (R91). -/
theorem appendTokens_inRange (hl : r.f 8 1 ≤ 1) (ho : r.f 0x0A 1 = 4 ∨ r.f 0x0A 1 = 2) (hn : r.f 8 1 = 1 → r.f 0x0C 4 ≤ 988) :
    ¬ (decide (1 < r.f 8 1) || !(decide (r.f 0x0A 1 = 4) || decide (r.f 0x0A 1 = 2))
      || (decide (r.f 8 1 = 1) && decide (988 < r.f 0x0C 4))) = true := by
  simp only [Bool.or_eq_true, Bool.and_eq_true, Bool.not_eq_true', Bool.or_eq_false_iff, decide_eq_true_eq, decide_eq_false_iff_not]
  omega

theorem bodySessionAppendTokens_active (hl : r.f 8 1 ≤ 1) (ho : r.f 0x0A 1 = 4 ∨ r.f 0x0A 1 = 2)
    (hn : r.f 8 1 = 1 → r.f 0x0C 4 ≤ 988) (hx : locate r s (r.f 0 8) = .here (.active x)) (hb : holdsBack s x = false)
    (hlane : laneHas s x.id = false) : bodySessionAppendTokens m r s = appendToksNow m r x s := by
  rw [bodySessionAppendTokens, if_neg (appendTokens_inRange hl ho hn), onSession_here hx]
  simp only [inOrder, hb, hlane, Bool.or_self, Bool.false_eq_true, if_false]

/-- Tokens of the model's vocabulary go into the session's intake (R225). -/
theorem appendToksNow_known {toks : List Nat} (ht : intakeState x.st = true) (hd : (tokenData r s).toOption = some toks)
    (hv : toks.all (fun t => decide (t < (getModel s x.modelSlot).hdr.vocab)) = true) :
    appendToksNow m r x s = appendToks m x (r.f 0x0A 1) toks s := by
  have hknown : ¬ toks.any (fun t => decide ((getModel s x.modelSlot).hdr.vocab ≤ t)) = true := by
    intro h
    obtain ⟨t, ht, hle⟩ := List.any_eq_true.mp h
    have hlt := List.all_eq_true.mp hv t ht
    rw [decide_eq_true_eq] at hle hlt
    omega
  unfold appendToksNow
  simp only [ht, toOption_some hd, Bool.not_true, Bool.false_eq_true, if_false]
  exact if_neg hknown

/-- Tokens that leave the session within its greatest length are staged and committed as a final intake (R91). -/
theorem appendToks_committed {origin : Nat} {toks : List Nat} {t : State} (ho : (getStore s x.id).text.intakeOpen = false)
    (hz : x.length + toks.length ≠ 0) (hm : x.length + toks.length ≤ x.maxLength)
    (hs : stageToks m x.id (toks.map (·, origin)) { staged := toks.length } s = .ok t) :
    appendToks m x origin toks s = .ok (commitIntake x.id t) (u32 (x.length + toks.length)) := by
  unfold appendToks
  rw [ho, if_neg Bool.false_ne_true, if_neg hz, if_neg (Nat.not_lt.mpr hm), hs]

end

/-! ### The lanes -/

/-- Where a lane is free and a partition has its turn, its oldest ready append takes the lane; a short one runs to its end at once
(R234, R283). -/
theorem shearLaneStart_takes {m : Moment} {s : State} {lane p : Nat} {j : LaneJob} (hg : groupOpen s 0x38 = true)
    (hl : pick m 0 ((List.range 16).filter (fun n => !thas s.txt.lanes n)) = some lane)
    (hp : nextPartition .lane (laneParts s) (wakeParts .lane (laneParts s) s) = some p)
    (hj : (laneReady s).find? (fun j => j.partition = p) = some j) :
    shearLaneStart m s =
      (let v := phaseOp j.op 1 true (dropJob j.op (wakeParts .lane (laneParts s) s))
      if j.req.f 0x0C 4 ≤ laneShort then answer j.req (runAppend m j.req (chargeLane p (j.req.f 0x0C 4) v))
      else chargeLane p (j.req.f 0x0C 4) { v with txt := { v.txt with lanes := tset v.txt.lanes lane j } }) := by
  unfold shearLaneStart
  simp only [hg, hl, hp, hj, Bool.not_true, Bool.false_eq_true, if_false]

/-- Settles O9: a short append runs on a free lane (`appendNow_short`) and is cut, staged and committed (`appendBytes_staged`), tokens
are committed at once (`appendToks_committed`), and a waiting append's turn is `shearLaneStart_takes`. -/
theorem appendsAreCutAndCommitted : Obligations.AppendsAreCutAndCommitted := by
  refine ⟨?append, ?tokens, ?lane⟩
  case append =>
    intro m r s x b a hs u v w hl hf ho hn hx hb ht hd hfree hlane hshort hg ha hz hstage
    have hstaged := appendBytes_staged (final := decide (r.f 9 1 = 1)) hg ht ha (fun h => hz (of_decide_eq_true h))
      (eq_ok_of_isOk hstage v)
    have hbody := (bodySessionAppend_active (m := m) hl hf ho hn hx hb).trans ((appendNow_short ht hd hfree hlane hshort).trans hstaged)
    change Host.Outcome.next (runSettled opSessionAppend bodySessionAppend m r s) = _
    rw [runSettled_ended hs hbody]
    simp only [decide_eq_true_eq]
    rfl
  case tokens =>
    intro m r s x toks hs u hl ho hn hx hb hlane ht hd hv hopen hz hm hstage
    have hbody := (bodySessionAppendTokens_active (m := m) hl ho hn hx hb hlane).trans
      ((appendToksNow_known ht hd hv).trans (appendToks_committed hopen hz hm (eq_ok_of_isOk hstage u)))
    exact congrArg Host.Outcome.next (runSettled_ended hs hbody)
  case lane =>
    exact fun m lane p j s hg hl hp hj => next_settleAll m (shearLaneStart_takes hg hl hp hj)

end Sys2Proof.Machine
end

section
/-! Session lists, journals, the Plinth's settings, sampling records, grammars and draws, and the two timers that move a session
(R82, R84, R85, R91, R123, R247, R258, R268). -/

namespace Sys2Proof.Machine

section
variable {m : Moment} {r : Req} {s : State} {id : Nat} {x : Session} {h : Held}

/-! ### Lists, journals and settings -/

theorem bodySessionList_starts (hst : r.f 0 2 < 8192) (hslot : r.f 2 1 ≤ 63 ∨ r.f 2 1 = 0xFF) (hl : (sgList r s).isOk = true)
    (ho : opRoom s r.fn = true) : bodySessionList m r s = .wait (startOp r 1 3 (listRows r s).length true [] s).2 := by
  have hrange : ¬ (decide (8192 ≤ r.f 0 2) || (decide (63 < r.f 2 1) && decide (r.f 2 1 ≠ 0xFF))) = true := by
    simp only [Bool.or_eq_true, Bool.and_eq_true, decide_eq_true_eq]
    omega
  unfold bodySessionList
  rw [if_neg hrange, eq_ok_of_isOk hl []]
  exact asOp_room ho

/-- Records of positions from the first journalled one to the session's length go out through the list (R91). -/
theorem bodyJournalRead_inside {l : List SgEntry} (hc : carried r = false) (hx : locate r s (r.f 0 8) = .here h)
    (hs : storeHere s h = true) (hlo : (entryOf s (r.f 0 8) h).prefixLen ≤ r.f 8 4)
    (hhi : r.f 8 4 + r.f 0x0C 4 ≤ (entryOf s (r.f 0 8) h).length) (hl : (sgCover r (4 * r.f 0x0C 4) s).toOption = some l)
    (hw : (sgWrite l ((((getStore s (r.f 0 8)).journal.drop (r.f 8 4 - (entryOf s (r.f 0 8) h).prefixLen)).take
      (r.f 0x0C 4)).flatMap u32) s).2 = none) :
    bodyJournalRead m r s = .ok (sgWrite l ((((getStore s (r.f 0 8)).journal.drop
      (r.f 8 4 - (entryOf s (r.f 0 8) h).prefixLen)).take (r.f 0x0C 4)).flatMap u32) s).1 := by
  have hrange : ¬ (decide (r.f 8 4 < (entryOf s (r.f 0 8) h).prefixLen)
      || decide ((entryOf s (r.f 0 8) h).length < r.f 8 4 + r.f 0x0C 4)) = true := by
    simp only [Bool.or_eq_true, decide_eq_true_eq]
    omega
  rw [bodyJournalRead, onStore_here hx hs]
  dsimp only
  rw [if_neg hrange]
  exact replyData_list hc hl hw

/-- The settings of PLN_CONFIG (R85, R88, R530). -/
theorem bodyPlnConfig_inRange (hwait : r.f 0 4 ≤ 1000000) (hlo : 8192 ≤ r.f 4 4) (hhi : r.f 4 4 ≤ 65536) (hd : r.f 4 4 % 256 = 0)
    (hres : r.f 8 4 + 1024 ≤ r.f 4 4) (hr : r.f 8 4 % 256 = 0) (hslot : r.f 0x0C 4 = 0 ∨ r.f 0x0C 4 < r.f 0x10 4)
    (htier : r.f 0x14 1 ≤ 2) (hnarrow : r.f 0x15 1 ≤ 2) :
    bodyPlnConfig m r s = .ok { s with pln := { s.pln with
      batchWait := r.f 0 4, dispatch := r.f 4 4, reserve := r.f 8 4, slotLow := r.f 0x0C 4, slotHigh := r.f 0x10 4
      castTier := r.f 0x14 1, castNarrow := r.f 0x15 1, castWindow := bit (r.f 0x16 1) 0 } } := by
  refine if_neg ?_
  simp only [Bool.or_eq_true, Bool.and_eq_true, decide_eq_true_eq]
  omega

/-! ### Sampling records, grammars and draws -/

theorem bodyFinSet_now (hl : locate r s (r.f 0 8) = .here (.active x)) (hs : settled s x = true) (hw : x.waiting.isEmpty = true)
    (hf : x.st ≠ .faulted) (hr : x.st ≠ .retiring) (hok : finSetOk r (Tb.vocab (genImage s x.tableGen)) = true) :
    bodyFinSet m r s = .ok (modStore (r.f 0 8) (fun t => { t with samp := finSetTo r t.samp }) s) := by
  rw [bodyFinSet, onStore_here hl rfl]
  simp only [hf, hr, decide_false, Bool.or_self, Bool.false_eq_true, if_false]
  rw [atStep_now hs hw]
  exact if_pos hok

theorem bodyFinRead_here (hl : locate r s (r.f 0 8) = .here h) (hs : storeHere s h = true) (hf : h.faulted = false) :
    bodyFinRead m r s = .ok s (sampBytes (getStore s (r.f 0 8)).samp ++ u64 (grammarWord (entryOf s (r.f 0 8) h))
      ++ fit 256 ((getStore s (r.f 0 8)).gstack.flatMap u16)) := by
  rw [bodyFinRead, onStore_here hl hs]
  dsimp only
  rw [if_neg (Bool.eq_false_iff.mp hf)]

/-- The tokens are walked from the grammar's start while each is allowed (R268, R531). -/
theorem bodyGrammarCheck_walks {t : TableSet} (hn : r.f 4 4 ≤ 988) (hg : genServing r s (r.f 0 2) = some t)
    (hi : r.f 2 2 < Tb.grammarCount t.image) :
    bodyGrammarCheck m r s =
      (let g := Gram.of t.image (r.f 2 2)
      let w := walkGrammar g ((List.range (r.f 4 4)).map (fun i => r.f (0x10 + 4 * i) 4)) 0 g.start none
      { st := s, status := if (g.set w.2.1).length = 0 && g.escape.isNone then 0x0601 else 0
        result := u32 w.1 ++ u32 (w.2.2.getD ones32) ++ u64 (w.2.1.stack.length * 2 ^ 56 + 2 ^ 24 + w.2.1.state)
          ++ u32 (g.set w.2.1).length }) := by
  simp only [bodyGrammarCheck, Nat.not_lt.mpr hn, hg, Nat.not_le.mpr hi, if_false]

theorem bodySpinDraw_inRange (hp : r.f 8 4 ≤ 0xFFFFFF) (hq : r.f 0x0C 4 ≤ 0xFFFFFF) (hk : r.f 0x10 1 ≤ 2) :
    bodySpinDraw m r s = .ok s ((philox (r.f 0 8) (r.f 8 4) (r.f 0x0C 4) (r.f 0x10 1)).flatMap u32
      ++ u32 (spinU (philox (r.f 0 8) (r.f 8 4) (r.f 0x0C 4) (r.f 0x10 1))).toNat) := by
  refine if_neg ?_
  simp only [Bool.or_eq_true, decide_eq_true_eq]
  omega

/-! ### Timers -/

/-- A session still in TOOLWAIT when its time has come is cast, unless it is a shadow (R82). -/
theorem autoCast_due (hg : getSess s id = some x) (ht : x.st = .toolwait) (hc : x.autoCastCt ≠ 0) (hd : x.autoCastCt ≤ s.ct)
    (hs : isShadow s id = false) :
    autoCast m id s = requestCast m false { x with autoCastCt := 0 } (modSess id (fun x => { x with autoCastCt := 0 }) s) := by
  have hdue : (decide (x.st = .toolwait) && decide (x.autoCastCt ≠ 0) && decide (x.autoCastCt ≤ s.ct) && !isShadow s id) = true := by
    rw [hs, decide_eq_true ht, decide_eq_true hc, decide_eq_true hd]
    rfl
  unfold autoCast
  rw [hg]
  exact if_pos hdue

/-- The raise-wait queue's first entry is raised once it need not wait, and a raise that fails takes its chain with it (R84). -/
theorem dequeueRaise_served {w : RaiseWait} (hn : nextRaise s = some w) (hm : mustWait m s = false) :
    dequeueRaise m s =
      (let v := { s with pln := { s.pln with raiseWait := s.pln.raiseWait.erase w } }
      let a := armedRaise m (raisePart v w.session) w.session v
      if a.status = 0 then a.st else chainFail w.session a.status a.st) := by
  simp only [dequeueRaise, hn, hm, Bool.false_eq_true, if_false]

end

/-- Settles O10: each row answers as its own lemma says (`body…`), and the two timers do what R82 and R84 say (`autoCast_due`,
`dequeueRaise_served`). -/
theorem sessionReadsAndSettings : Obligations.SessionReadsAndSettings := by
  refine ⟨?list, ?journal, ?settings, ?finSet, ?finRead, ?grammar, ?spin, ?autoCast, ?dequeue⟩
  case list =>
    exact fun m r s hs hst hslot hl ho => congrArg Host.Outcome.next (runCommand_goesOn hs (bodySessionList_starts hst hslot hl ho))
  case journal =>
    exact fun m r s h l hs hx hst hlo hhi hl hw => congrArg Host.Outcome.next
      (runCommand_ended hs (bodyJournalRead_inside (serves_not_carried hs) hx hst hlo hhi hl hw))
  case settings =>
    exact fun m r s hs hwait hlo hhi hd hres hr hslot htier hnarrow => congrArg Host.Outcome.next
      (runSettled_ended hs (bodyPlnConfig_inRange hwait hlo hhi hd hres hr hslot htier hnarrow))
  case finSet =>
    exact fun m r s x hs hl hb hw hf hr hok => congrArg Host.Outcome.next
      (runSettled_ended hs (bodyFinSet_now hl hb hw hf hr hok))
  case finRead =>
    exact fun m r s h hs hl hst hf => congrArg Host.Outcome.next (runCommand_ended hs (bodyFinRead_here hl hst hf))
  case grammar =>
    exact fun m r s x hs hn hg hi => congrArg Host.Outcome.next (runCommand_answered hs (bodyGrammarCheck_walks hn hg hi))
  case spin =>
    exact fun m r s hs hp hq hk => congrArg Host.Outcome.next (runCommand_ended hs (bodySpinDraw_inRange hp hq hk))
  case autoCast =>
    exact fun m id x s hg ht hc hd hs => next_settleAll m (autoCast_due hg ht hc hd hs)
  case dequeue =>
    exact fun m w s hn hm => next_settleAll m (dequeueRaise_served hn hm)

end Sys2Proof.Machine
end

section
/-! Invocations on the tiles: residence, layer groups, the watchdog, and the end of steps and chunks (R64, R77, R176 to R181). -/

namespace Sys2Proof.Machine

section
variable {m : Moment} {serial tile : Nat} {v : Invocation} {s : State}

/-! ### Residence and layer groups -/

/-- A queued invocation that is first in order and whose span has room takes its context slots (R176). -/
theorem invResident_first (hv : tget s.tile.invs serial = some v) (hq : v.resident = false)
    (hfirst : s.tile.invs.all (fun e => e.1 = serial || e.2.resident || !meetsSpan e.2 v || invLe (serial, v) e) = true)
    (hroom : (setBits 16 v.spanMask).all (fun g => decide (slotsUsed s g + (getModel s v.slot).hdr.ctxSlots ≤ 4)) = true) :
    invResident serial s =
      (let h := (getModel s v.slot).hdr
      { s with tile := { s.tile with invs := tset s.tile.invs serial { v with
        resident := true, consts := fit h.constBytes (Config.tileConstants h.digest h.constBytes)
        inputs := v.rows.map (fun r => (r.session, rowTokens s r)) } } }) := by
  simp only [invResident, hv, hq, hfirst, hroom, Bool.not_true, Bool.or_self, Bool.false_eq_true, if_false]

section
variable {att : List AttIn} {ops : List LayerOp} {fault : Option Nat} {rest : List (Nat × Invocation)}

/-- The head of a tile's queue that is ready, with its first weights in, runs or faults while no tile of its span is busy (R177, R179). -/
theorem startGroup_head (hq : tileQueue s tile = (serial, v) :: rest) (hr : invReady s v = true) (hw : weightsIn m 0 = true)
    (hidle : s.tile.invs.all (fun e => e.2.running.isNone || !meetsSpan e.2 v) = true) :
    startGroup m tile att ops fault s =
      (imageFault ops fault).elim (runGroup serial v att ops s) (fun k => invFault serial k tile s) := by
  have hbusy : ¬ s.tile.invs.any (fun e => e.2.running.isSome && meetsSpan e.2 v) = true := by
    intro h
    obtain ⟨e, he, hrun⟩ := List.any_eq_true.mp h
    have hi := List.all_eq_true.mp hidle e he
    rw [Bool.and_eq_true] at hrun
    rw [hrun.2, Bool.not_true, Bool.or_false, Option.isNone_iff_eq_none] at hi
    rw [hi] at hrun
    exact Bool.false_ne_true hrun.1
  have hwaits : ((serial, v) :: rest).zipIdx.takeWhile (fun e => !(invReady s e.1.2 && weightsIn m e.2)) = [] := by
    rw [List.zipIdx_cons, List.takeWhile_cons, hr, hw]
    rfl
  unfold startGroup
  rw [hq]
  dsimp only
  rw [hwaits]
  refine (if_neg hbusy).trans ?_
  cases imageFault ops fault <;> rfl

theorem layerGroupStart_onTile (h : tile < tileCount s) :
    layerGroupStart m tile att ops fault s = startGroup m tile att ops fault (tileBoundary tile s) :=
  if_pos h

/-- Operations that are all well-formed, and no fault of the command stream, are no image's fault (R167). -/
theorem imageFault_none (h : ops.all (fun o => opOk o.op) = true) : imageFault ops none = none := if_pos h

end

/-- A layer group that has run for more than 100 ms tears its invocation down (R179, R181). -/
theorem tileWatchdog_late {t : Nat} (hv : tget s.tile.invs serial = some v) (hr : v.running = some t) (ht : t + 100000000 < s.ct) :
    tileWatchdog serial s = invFault serial 6 (((setBits 16 v.spanMask).headD 0) * 8) s := by
  simp only [tileWatchdog, hv, hr, ht, if_true]

/-! ### Steps and chunks -/

theorem stepCommit_found {rows : List RowIn} (hv : tget s.tile.invs serial = some v) :
    stepCommit serial rows s = invEmpty serial (v.rows.foldl (fun t r => commitRow serial rows r t) s) := by
  simp only [stepCommit, hv]

section
variable {r : InvRow} {f : InFlight}

/-- A decode step whose invocation has run every layer group commits (R77). -/
theorem commitRow_step {rows : List RowIn} {q : InvRow} (hf : finishedItem s serial q.session = some (r, f)) (hc : r.chunk = 0) :
    commitRow serial rows q s = itemDone serial r.session (endStep r.session f.base f.drafts f.spill
      ((rows.find? (fun x => x.session = r.session)).getD { session := r.session }) s) := by
  simp only [commitRow, hf, hc, ne_eq, not_true_eq_false, if_false]

/-- A prefill chunk whose invocation has run every layer group ends (R64). -/
theorem prefillChunkEnd_chunk {row : RowIn} (hf : finishedItem s serial row.session = some (r, f)) (hc : r.chunk ≠ 0)
    (hb : r.rebuild = false) :
    prefillChunkEnd serial row s = itemDone serial row.session (endChunk row.session r f row s) := by
  simp only [prefillChunkEnd, hf, hc, hb, Bool.false_eq_true, if_false]

end

end

/-- Settles O12: residence is `invResident_first`, a tile's queue gives its head (`startGroup_head`), the watchdog tears down
(`tileWatchdog_late`), and a step or a chunk that has run every layer group ends (`commitRow_step`, `prefillChunkEnd_chunk`). That the
tiles' constants are free values, and what a row's tokens are, is log entry 8. -/
theorem invocationsRunAndCommit : Obligations.InvocationsRunAndCommit := by
  refine ⟨?resident, ?runs, ?imageFault, ?watchdog, ?oneStep, ?steps, ?chunk⟩
  case resident =>
    exact fun m serial v s hv hq hfirst hroom => congrArg Host.Outcome.next (invResident_first hv hq hfirst hroom)
  case runs =>
    intro m tile serial att ops v rest s u w ht hq hr hw hidle hops
    have h := (layerGroupStart_onTile (m := m) (att := att) (ops := ops) (fault := none) ht).trans (startGroup_head hq hr hw hidle)
    rw [imageFault_none hops] at h
    exact next_settleAll m h
  case imageFault =>
    intro m tile serial k att ops fault v rest s u w ht hq hr hw hidle hk
    have h := (layerGroupStart_onTile (m := m) (att := att) (ops := ops) (fault := fault) ht).trans (startGroup_head hq hr hw hidle)
    rw [hk] at h
    exact next_settleAll m h
  case watchdog =>
    exact fun m serial t v s hv hr ht => next_settleAll m (tileWatchdog_late hv hr ht)
  case oneStep =>
    intro m serial rows v r f s u hv hrows hf hc
    have h := stepCommit_found (rows := rows) hv
    rw [hrows, List.foldl_cons, List.foldl_nil, commitRow_step hf hc] at h
    exact next_settleAll m h
  case steps =>
    exact fun m serial rows v s hv _ => next_settleAll m (stepCommit_found hv)
  case chunk =>
    exact fun m serial row r f s hf hc hb => next_settleAll m (prefillChunkEnd_chunk hf hc hb)

end Sys2Proof.Machine
end

section
/-! Sessions that move between chips: arrival, confirmation, import and retirement (R64, R121, R122, R369). -/

namespace Sys2Proof.Machine

section
variable {m : Moment} {link tag fop slot status : Nat} {f : Fop} {x : Session} {s : State}

/-! ### Migration over Swilan -/

/-- The operation at the target of a session that has arrived from a link's peer (R121). -/
def arrivalFop (link tag : Nat) (e : Session) (s t : State) : Fop :=
  { kind := .migrate, session := e.id, partition := e.partition, ctStart := s.ct, inbound := true, tag
    chip := (getLink s link).peerChip, slot := slotOf t e.id, phase := 3 }

/-- A session for which the chip lacks nothing is placed and confirmed on VC1 (R64, R121). -/
theorem migrateArrive_placed {y : MigrateIn} {t : State} (hd : s.bench.devState ≠ .frozen) (hs : s.err.shutdown.isNone = true)
    (hg : getSess s y.entry.id = none) (hl : lacks s y.entry (some y.modelDigest) = 0)
    (ht : arrive m .migratingIn y.entry y.store (getLink s link).peerChip y.keys y.pages s = .ok t) :
    migrateArrive m link tag y s =
      (let k := newFop (arrivalFop link tag y.entry s t) (bindGen y.entry.tableGen 1 t)
      sendSwl (.swilan link 1 5 tag [0, k.1, (slotOf k.2 y.entry.id).getD 0] []) k.2) := by
  have hup : s.err.shutdown.isSome = false := by
    rw [Option.isNone_iff_eq_none.mp hs]
    rfl
  simp only [migrateArrive, hd, hup, hg, hl, ht, Option.isSome_none, ne_eq, not_true_eq_false, Bool.false_eq_true, if_false,
    arrivalFop]

/-- A confirmation of a migration comes over the link to its other chip, whose credit it returns (R121). -/
theorem exec_migrateConfirm {ok : Bool} (hf : getFop (s.at m) fop = some f) (hk : f.kind = .migrate) :
    exec (.migrateConfirm m fop ok slot status) s =
      .next (settleAll m (migrateConfirm fop ok slot status (swlGot (linkTo (s.at m) f.chip) 1 0 (s.at m)))) := by
  change execMigrateConfirm m fop ok slot status s = _
  simp only [execMigrateConfirm, hf, hk, if_true]

theorem migrateConfirm_atTarget (hf : getFop s fop = some f) (hi : f.inbound = true) :
    migrateConfirm fop true slot status s = arrivalDone fop s := by
  simp only [migrateConfirm, hf, hi, if_true]

/-- What waits for a session that has left goes after it (R66, R387). -/
theorem migrateConfirm_atSource (hf : getFop s fop = some f) (hk : f.kind = .migrate) (hi : f.inbound = false)
    (hg : getSess s f.session = some x) :
    migrateConfirm fop true slot status s = forwardWaiting f.chip x.waiting (migrateDone fop slot s) := by
  simp only [migrateConfirm, hf, hk, hi, hg, Bool.false_eq_true, if_false, decide_true, Bool.true_or, Bool.not_true, if_true,
    Option.map_some, Option.getD_some]

/-! ### Sessions that come and go over Ethernet -/

/-- The import-table entry of an imported session (R122). -/
def importEntry (y : ExportIn) (t : State) : DirEntry :=
  { id := y.entry.id, dstate := .active, partition := y.entry.partition, modelSlot := y.entry.modelSlot, cls := y.entry.cls
    flags := y.entry.flags, tableGen := y.entry.tableGen, length := y.entry.length, exportPeer := y.peer, activeChip := chip t
    activeSlot := (slotOf t y.entry.id).getD 0 }

/-- The import table's first free place (R122). -/
def importPlace (t : State) : Nat :=
  (freeFrom (fun i => thas t.fdy.imports i) 65536 (t.fdy.imports.length + 1) 0).getD 0

/-- The state with an imported session's entry at that place. -/
def enterImport (y : ExportIn) (t : State) : State :=
  { t with fdy := { t.fdy with imports := tset t.fdy.imports (importPlace t) (importEntry y t) } }

/-- An import that is not refused and that gets its memory is placed, entered and acknowledged (R122, R306, R369). -/
theorem exportCommit_placed {y : ExportIn} {t : State} (hr : importRefused s y = 0)
    (ht : (arrive m y.entry.st y.entry { y.store with blocks := [], blockChips := [], recFrame := 0, recChip := none } (chip s) []
      y.pages s).bind (arriveJournal m y.entry) = .ok t) :
    exportCommit m y s = emitPkt { qp := y.qp, opcode := 0xE2, nak := 0, status := 0 } (rearmCast y.entry.id
      (updateCredit y.entry.id (modSess y.entry.id
        (fun z => { z with deadline := if y.entry.st = .decode then max y.entry.deadline s.ct else y.entry.deadline })
        (creditIn y.entry.cls y.entry.credit y.entry.id (bindGen y.entry.tableGen 1 (enterImport y t)))))) := by
  simp only [exportCommit, hr, ht, ne_eq, not_true_eq_false, if_false, enterImport, importPlace,
    importEntry]

/-- The connection by which a session has left frees its index when the session is retired (R122, R369). -/
theorem exportRetired_exported {id peer : Nat} {e : DirEntry} (hd : dirAt s id = some e) (hs : e.dstate = .exported)
    (hp : e.exportPeer = peer) : exportRetired id peer s = freeDir id s := by
  simp only [exportRetired, hd, hs, hp, decide_true, Bool.and_self, if_true]

end

/-- Settles O15: an arrival and an import are placed as their storage gives (`migrateArrive_placed`, `exportCommit_placed`), and a
confirmation ends the migration on its own side (`migrateConfirm_at…`). -/
theorem sessionsMoveBetweenChips : Obligations.SessionsMoveBetweenChips := by
  refine ⟨?arrive, ?target, ?source, ?importIn, ?retired⟩
  case arrive =>
    intro m link tag x s u v a b k hd hs hg hl ha
    exact next_settleAll m (migrateArrive_placed hd hs hg hl (eq_ok_of_isOk ha v))
  case target =>
    intro m fop slot status f s u v hu hk hi hf
    rw [exec_migrateConfirm hu hk, migrateConfirm_atTarget hf hi]
  case source =>
    intro m fop slot status f x s u v hu hk hi hf hg
    rw [exec_migrateConfirm hu hk, migrateConfirm_atSource hf hk hi hg]
  case importIn =>
    intro m x s u a v d k hr ha
    exact next_settleAll m (exportCommit_placed hr (eq_ok_of_isOk ha u))
  case retired =>
    exact fun m session peer e s hd hs hp => next_settleAll m (exportRetired_exported hd hs hp)

end Sys2Proof.Machine
end

section
/-! The Foundry's commands: a cast, a raise and a migration begin, and the host's descriptors, the directory's entries, the settings
and an exported index (R95, R101 to R103, R109, R121, R127). -/

namespace Sys2Proof.Machine

section
variable {m : Moment} {r : Req} {s : State} {x : Session} {e : DirEntry}

/-! ### Cast -/

/-- At a step boundary at which none of a session's pages moves, a change of it runs at once (R64, R66). -/
theorem atRest_now {k : Reply} (hb : settled s x = true) (hv : moving s x.id = false) : atRest r x s k = k := by
  simp only [atRest, hb, hv, Bool.not_false, Bool.and_self, if_true]

/-- The operation of a cast that the host asks for (R103). -/
def castFop (r : Req) (s : State) (x : Session) : Fop :=
  { kind := .cast, session := r.f 0 8, partition := x.partition, tier := r.f 8 1, narrow := castNarrow s x (r.f 9 1)
    window := bit (r.f 0x0A 1) 0, range := r.f 0x0C 2
    castGen := ((getDir s (r.f 0 8)).map (·.castGen)).getD (getStore s (r.f 0 8)).castGen, pressure := false
    total := (castPages s (r.f 0 8) (r.f 8 1)).length }

/-- A session of DECODE, TOOLWAIT or STOPPED that rests on this chip begins its cast to a tier of device memory (R102, R103). -/
theorem bodyFdyCast_atRest (hn : r.src ≠ .mirrored) (ht : 1 ≤ r.f 8 1 ∧ r.f 8 1 ≤ 2) (hq : r.f 9 1 ≤ 2)
    (hl : locate r s (r.f 0 8) = .here (.active x)) (hst : x.st = .decode ∨ x.st = .toolwait ∨ x.st = .stopped)
    (hb : settled s x = true) (hw : x.waiting.isEmpty = true) (hv : moving s x.id = false) (hm : moveOps s < 4096) :
    bodyFdyCast m r s = beginFop r (castFop r s x) (fun n s => castStart m n x s) s := by
  obtain ⟨hlo, hhi⟩ := ht
  have hcasts : (decide (x.st = .decode) || decide (x.st = .toolwait) || decide (x.st = .stopped)) = true := by
    simpa only [Bool.or_eq_true, decide_eq_true_eq, or_assoc] using hst
  have hzero : r.f 8 1 ≠ 0 := by omega
  have hrange : ¬ 3 < r.f 8 1 := by omega
  have hcomposed : r.f 8 1 ≠ 3 := by omega
  unfold bodyFdyCast castBody
  dsimp only
  rw [onSession_here hl]
  simp only [hn, hzero, hrange, hcomposed, Nat.not_lt.mpr hq, List.isEmpty_iff.mp hw, hcasts, atRest_now hb hv, Nat.not_le.mpr hm,
    List.any_nil, List.isEmpty_nil, decide_false, Bool.false_and, Bool.and_false, Bool.or_self, Bool.not_true, Bool.false_eq_true,
    if_false, castFop]

/-! ### Raise -/

/-- The operation of a raise that the host asks for (R109). -/
def raiseFop (r : Req) (e : DirEntry) (slot : Nat) : Fop :=
  { kind := .raise, session := r.f 0 8, partition := e.partition, slot := some slot }

/-- A parked session whose generation is resident begins its raise into a free slot (R109, R123). -/
theorem raiseHere_parked {slot : Nat} (hr : r.reaches e.partition = true) (hd : e.dstate = .parked)
    (hg : genResident s e.tableGen e.partition e.modelSlot = true) (hm : moveOps s < 4096) (hs : pickSlot m 0 s = some slot) :
    raiseHere m r false (r.f 0 8) e s = beginFop r (raiseFop r e slot) claimStart s := by
  simp only [raiseHere, hr, hd, hg, Nat.not_le.mpr hm, raiseStart, hs, Bool.not_true, Bool.false_eq_true, if_false, raiseFop]

/-- FDY_RAISE of a session that this chip's directory names and that no run-ahead has claimed, on this chip (R109). -/
theorem bodyFdyRaise_here (hid : r.f 0 8 ≠ 0) (hc : r.f 9 1 = 0xFF ∨ r.f 9 1 = chip s) (ha : bit (r.f 8 1) 0 = false)
    (h7 : chip s ≤ 7) (hf : (fopOf s (r.f 0 8) [.runAhead]).isNone = true) (he : getDir s (r.f 0 8) = some e) :
    bodyFdyRaise m r s = raiseHere m r false (r.f 0 8) e s := by
  have hchip : (if r.f 9 1 = 0xFF then chip s else r.f 9 1) = chip s := by
    rcases hc with hc | hc
    · exact if_pos hc
    · rw [hc, ite_self]
  simp only [bodyFdyRaise, hchip, Nat.not_lt.mpr h7, hid, ha, Option.isNone_iff_eq_none.mp hf, he, Option.any_none, ne_eq,
    not_true_eq_false, decide_false, Bool.false_and, Bool.and_false, Bool.false_eq_true, if_false]

/-! ### Migrate -/

/-- The operation of a migration over Swilan (R121). -/
def migrateFop (r : Req) (s : State) (x : Session) : Fop :=
  { kind := .migrate, session := r.f 0 8, partition := x.partition, chip := r.f 9 1
    total := (movingPages s (r.f 0 8) (r.f 9 1)).length }

/-- A migration begins, and one that has no page to move asks for its confirmation at once (R121). -/
def migrateBegin (r : Req) (x : Session) (n : Nat) (s : State) : State :=
  let t := migrateStart x n s
  if (movingPages t (r.f 0 8) (r.f 9 1)).isEmpty then migrateAsk n t else t

/-- A session that rests on this chip, unarmed and of no locked pair, begins its migration over a link that is up (R121). -/
theorem bodyFdyMigrate_atRest (hk : r.f 8 1 = 0) (h7 : r.f 9 1 ≤ 7) (hc : r.f 9 1 ≠ chip s)
    (hl : locate r s (r.f 0 8) = .here (.active x))
    (hst : x.st = .admitted ∨ x.st = .prefill ∨ x.st = .decode ∨ x.st = .toolwait ∨ x.st = .stopped)
    (hp : lockedPair s x.partition = none) (ha : armed s x = false) (hb : settled s x = true) (hw : x.waiting.isEmpty = true)
    (hv : moving s x.id = false) (hm : moveOps s < 4096) (hu : linkUp s (r.f 9 1) = true) :
    bodyFdyMigrate m r s = beginFop r (migrateFop r s x) (migrateBegin r x) s := by
  have hmoves : [SState.admitted, .prefill, .decode, .toolwait, .stopped].contains x.st = true := by
    simpa only [List.contains_iff_mem, List.mem_cons, List.not_mem_nil, or_false] using hst
  unfold bodyFdyMigrate
  dsimp only
  rw [onSession_here hl]
  simp only [hk, hc, Nat.not_lt.mpr h7, hw, hmoves, hp, ha, hu, atRest_now hb hv, Nat.not_le.mpr hm, Option.isSome_none,
    Nat.not_lt_zero, decide_false, decide_true, Bool.or_self, Bool.and_false, Bool.not_true, Bool.false_eq_true, if_false, if_true]
  rfl

/-! ### The other commands of the group (R127) -/

theorem bodyFdyDirRead_written {l : List SgEntry} (hn : carried r = false) (hr : r.f 0 4 + r.f 4 4 ≤ dirCount)
    (hl : (sgCover r (128 * r.f 4 4) s).toOption = some l) (hw : (sgWrite l (dirRecords r (r.f 0 4) (r.f 4 4) s) s).2 = none) :
    bodyFdyDirRead m r s = .ok (sgWrite l (dirRecords r (r.f 0 4) (r.f 4 4) s) s).1 :=
  (if_neg (Nat.not_lt.mpr hr)).trans (replyData_list hn hl hw)

theorem bodyFdyConfig_inRange (hl : 1 ≤ r.f 0 1) (hl' : r.f 0 1 ≤ 16) (ht : 1000000 ≤ r.f 4 4) (ht' : r.f 4 4 ≤ 1000000000)
    (hp : 50000 ≤ r.f 8 4) (hp' : r.f 8 4 ≤ 100000000) :
    bodyFdyConfig m r s =
      .ok { s with fdy := { s.fdy with raiseLead := r.f 0 1, ttl := r.f 4 4, pullTo := r.f 8 4 } } := by
  refine if_neg ?_
  simp only [Bool.or_eq_true, decide_eq_true_eq]
  omega

/-- The host's descriptors as the bytes of its list spell them (R95). -/
def submitted (r : Req) (b : Bytes) (s : State) : List Desc :=
  ((List.range (r.f 4 4)).map (fun i => slice b (64 * i) 64)).zipIdx.map (fun x => descOfBytes s (r.f 0 1) x.2 x.1)

/-- A submission of descriptors becomes a Foundry operation that has them all to do (R127). -/
def submitStart (r : Req) (l : List Desc) (op : Nat) (s : State) : State :=
  let k := newFop { kind := .submit, op, session := 0, partition := r.f 0 1, ctStart := s.ct, total := (l.map (·.length)).sum } s
  addTodo k.1 l k.2

/-- Descriptors whose places all lie within the partition's memory become an operation (R95, R96, R127). -/
theorem bodyFdySubmit_placed {b : Bytes} (hg : (partGate opFdySubmit r (r.f 0 1) s).isOk = true)
    (hd : (inData r (64 * r.f 4 4) s).toOption = some b)
    (hok : ((List.range (r.f 4 4)).map (fun i => slice b (64 * i) 64)).all (copyOk s (r.f 0 1)) = true) (hz : r.f 4 4 ≠ 0)
    (ho : opRoom s r.fn = true) :
    bodyFdySubmit m r s = .wait (submitStart r (submitted r b s) s.bench.nextOp
      (startOp r 0 1 ((submitted r b s).map (·.length)).sum true [] s).2) := by
  unfold bodyFdySubmit
  dsimp only
  rw [eq_ok_of_isOk hg ()]
  dsimp only
  rw [withData_ok hd]
  simp only [hok, hz, Bool.not_true, Bool.false_eq_true, if_false]
  exact asOp_room ho

theorem bodyFdyExportRelease_exported (he : getDir s (r.f 0 8) = some e) (hr : r.reaches e.partition = true)
    (hd : e.dstate = .exported) : bodyFdyExportRelease m r s = .ok (freeDir (r.f 0 8) s) := by
  simp only [bodyFdyExportRelease, he, hr, hd, Bool.not_true, Bool.false_eq_true, if_false, if_true]

end

/-- Settles O13: a cast, a raise and a migration that nothing holds back begin their operation (`bodyFdyCast_atRest`,
`bodyFdyRaise_here`, `bodyFdyMigrate_atRest`), a submission becomes one (`bodyFdySubmit_placed`), and the other three commands end. -/
theorem foundryCommandsStart : Obligations.FoundryCommandsStart := by
  refine ⟨?cast, ?raised, ?migrate, ?dirRead, ?settings, ?submit, ?release⟩
  case cast =>
    intro m r s x hs u a ht hq hl hst hb hw hv hm ho
    exact congrArg Host.Outcome.next (runSettled_goesOn hs
      ((bodyFdyCast_atRest (serves_not_mirrored hs) ht hq hl hst hb hw hv hm).trans (beginFop_served hs ho)))
  case raised =>
    intro m r s e slot hs u a hid hc ha h7 hf he hr hd hg hm hslot ho
    exact congrArg Host.Outcome.next (runSettled_goesOn hs
      (((bodyFdyRaise_here hid hc ha h7 hf he).trans (raiseHere_parked hr hd hg hm hslot)).trans (beginFop_served hs ho)))
  case migrate =>
    intro m r s x hs u a v hk h7 hc hl hst hp ha hb hw hv hm hu ho
    exact congrArg Host.Outcome.next (runSettled_goesOn hs
      ((bodyFdyMigrate_atRest hk h7 hc hl hst hp ha hb hw hv hm hu).trans (beginFop_served hs ho)))
  case dirRead =>
    intro m r s l hs u b hr hl hw
    exact congrArg Host.Outcome.next (runCommand_ended hs (bodyFdyDirRead_written (serves_not_carried hs) hr hl hw))
  case settings =>
    intro m r s hs u hl hl' ht ht' hp hp'
    exact congrArg Host.Outcome.next (runCommand_ended hs (bodyFdyConfig_inRange hl hl' ht ht' hp hp'))
  case submit =>
    intro m r s b hs u ds l k hg hd hok hz ho
    exact congrArg Host.Outcome.next (runCommand_goesOn hs (bodyFdySubmit_placed hg hd hok hz ho))
  case release =>
    intro m r s e hs u he hr hd
    exact congrArg Host.Outcome.next (runCommand_ended hs (bodyFdyExportRelease_exported he hr hd))

end Sys2Proof.Machine
end

section
/-! The move engines' descriptors and the Foundry's timers (R94, R96, R97, R115 to R117). -/

namespace Sys2Proof.Machine

section
variable {m : Moment} {engine n : Nat} {d : Desc} {s : State}

/-! ### Issue -/

/-- Whether a descriptor of the lower classes, 3 and on, may be issued (R94). -/
def lowWaits (s : State) : Bool := s.fdy.store.any (fun e => mayIssue s e.1 e.2 && decide (3 ≤ e.2.cls))

/-- The state in which a descriptor has been posted as running on an engine, and in which the store counts what it let by
(R94, R305). -/
def engineTakes (engine n : Nat) (d : Desc) (s : State) : State :=
  let v := post [⟨Lg.descriptor, 0, [(1, -1), (0, 1), (2, 1), (3, (d.length : Int)), (4, 1)]⟩] 2 d.session s
  { v with fdy := { v.fdy with
    store := tset v.fdy.store n { d with engine := some engine, ctIssue := v.ct }
    lastPart := tset v.fdy.lastPart d.cls d.partition
    sinceLow := if 3 ≤ d.cls || !lowWaits s then 0 else v.fdy.sinceLow + 1 } }

/-- The state from which an issued descriptor's access leaves: a raise's phase moves on, and operations refill the store (R94). -/
def issuing (engine n : Nat) (d : Desc) (s : State) : State :=
  pumpAll (if d.kind = .imageRead then fopPhase d.fop 2 true (engineTakes engine n d s) else engineTakes engine n d s)

/-- A free move engine takes the next descriptor, whose access starts or fails (R94, R96). -/
theorem descriptorIssue_takes (he : engine < 16) (hg : groupOpen s 0x37 = true)
    (hfree : s.fdy.store.any (fun e => e.2.engine = some engine) = false) (hn : nextDesc s = some (n, d)) :
    descriptorIssue engine s =
      tried (issueIo n { d with engine := some engine, ctIssue := (issuing engine n d s).ct } (issuing engine n d s))
        (fun st => failDesc n st (issuing engine n d s)) := by
  unfold descriptorIssue
  simp only [Nat.not_le.mpr he, hg, hfree, hn, decide_false, Bool.not_true, Bool.or_self, Bool.false_eq_true, if_false]
  rfl

/-! ### Completion -/

/-- What a descriptor asked for has come, and is no failure. -/
theorem some_ok_of_map_toOption {ε α : Type} {o : Option (Except ε α)} {a : α} (h : o.map Except.toOption = some (some a)) :
    o = some (.ok a) := by
  obtain ⟨e, rfl, he⟩ := Option.map_eq_some_iff.mp h
  rw [toOption_some he]

section
variable (hd : tget s.fdy.store n = some d) (he : d.engine.isSome = true) (hc : (getFop s d.fop).any (fopCancelling s) = false)
include hd he hc

/-- A running descriptor whose data has come leaves the store (R97). -/
theorem descriptorComplete_finished {b : Bytes} (hb : (descBytes s n d).map Except.toOption = some (some b))
    (hk : (d.kind = .copy && d.data.isNone) = false) : descriptorComplete m n .ok s = finishDesc m n d b s := by
  simp only [descriptorComplete, hd, Option.isNone_eq_false_iff.mpr he, hc, some_ok_of_map_toOption hb, hk, Bool.false_eq_true,
    if_false]

/-- A COPY out of a range has its bytes, and goes on to their place (R95, R97). -/
theorem descriptorComplete_copied {b : Bytes} (hb : (descBytes s n d).map Except.toOption = some (some b))
    (hk : (d.kind = .copy && d.data.isNone) = true) :
    descriptorComplete m n .ok s = tried ((sourceIn n d b (dropMsgs (.pull n) s)).map (fun t =>
      if leaves t d && d.dstTier = 3 then t else finishDesc m n d (((tget t.fdy.store n).bind (·.data)).getD b) t))
      (fun st => failDesc n st s) := by
  simp only [descriptorComplete, hd, Option.isNone_eq_false_iff.mpr he, hc, some_ok_of_map_toOption hb, hk, Bool.false_eq_true,
    if_false, if_true]
  cases sourceIn n d b (dropMsgs (.pull n) s) <;> rfl

/-- A running descriptor fails as its engine reports (R97). -/
theorem descriptorComplete_failed (st : Nat) : descriptorComplete m n (.failed st) s = failDesc n st s := by
  simp only [descriptorComplete, hd, Option.isNone_eq_false_iff.mpr he, hc, Bool.false_eq_true, if_false]

end

/-! ### Timers -/

/-- A run-ahead that has not been promoted in time, and whose promotion does not wait for a slot, is cancelled with cause 1
(R115, R116). -/
theorem exec_runaheadTtlExpiry_due {fop : Nat} {f : Fop} (hf : getFop (s.at m) fop = some f) (hk : f.kind = .runAhead)
    (ht : f.ctStart + f.ttl ≤ (s.at m).ct) (hw : (s.at m).pln.raiseWait.any (fun w => w.fop = fop) = false) :
    exec (.runaheadTtlExpiry m fop) s = .next (cancelRunAhead fop 1 (s.at m)) := by
  change execRunaheadTtlExpiry m fop s = _
  simp only [execRunaheadTtlExpiry, hf, hk, ht, hw, decide_true, Bool.not_false, Bool.and_self, if_true]

/-- A pull from a composed range that had no response in its time fails with RANGE_GONE (R117). -/
theorem pullTimeout_due (hd : tget s.fdy.store n = some d) (he : d.engine.isSome = true) (ht : d.srcTier = 3)
    (hl : d.ctIssue + ((getFop s d.fop).map (·.pullTo)).getD s.fdy.pullTo ≤ s.ct)
    (hm : (msgOf s (.pull n)).any (fun x => x.2.2.done) = false) : pullTimeout n s = failDesc n St.rangeGone s := by
  simp only [pullTimeout, hd, he, ht, hl, hm, decide_true, Bool.not_false, Bool.and_self, if_true]

end

/-- Settles O14: a free engine takes the next descriptor (`descriptorIssue_takes`), one that ran finishes, goes on or fails
(`descriptorComplete_…`), and the two timers do what R116 and R117 say. -/
theorem descriptorsAndTimersOfTheFoundry : Obligations.DescriptorsAndTimersOfTheFoundry := by
  refine ⟨?issue, ?finished, ?copied, ?failed, ?runAhead, ?pull⟩
  case issue =>
    intro m engine n d s u low v x w he hg hfree hn
    exact next_settleAll m (descriptorIssue_takes he hg hfree hn)
  case finished => exact fun m n d b s hd he hc hb hk => next_settleAll m (descriptorComplete_finished hd he hc hb hk)
  case copied => exact fun m n d b s hd he hc hb hk => next_settleAll m (descriptorComplete_copied hd he hc hb hk)
  case failed => exact fun m n st d s hd he hc => next_settleAll m (descriptorComplete_failed hd he hc st)
  case runAhead => exact fun m fop f s hf hk ht hw => exec_runaheadTtlExpiry_due hf hk ht hw
  case pull => exact fun m n d s hd he ht hl hm => next_settleAll m (pullTimeout_due hd he ht hl hm)

end Sys2Proof.Machine
end

section
/-! Messages of other chips: the directory's requests, commands that a chip forwards or mirrors, answers, and bulk data (R101, R383,
R387, R388, R393, R395). -/

namespace Sys2Proof.Machine

section
variable {m : Moment} {n tag : Nat} {r : Req} {s : State} {e : DirEntry}

/-! ### The directory -/

theorem exec_swlDirRequest_up {a : DirAccess} (h : (getLink (s.at m) n).up = true) :
    exec (.swlDirRequest m n tag a) s = .next (settleAll m (dirRequest m n tag a (swlGot n 0 (dirData a) (s.at m)))) :=
  congrArg Host.Outcome.next (if_pos h)

theorem dirRequest_read {id : Nat} (h : getDir s id = some e) :
    dirRequest m n tag (.read id) s = sendSwl (.swilan n 1 1 tag [0, 0] (dirBytes e)) s := by
  simp only [dirRequest, h]

/-- A parked session becomes CLAIMED for the chip that asks, and its entry is the answer (R101, R109). -/
theorem dirRequest_claimParked {id k slot : Nat} {b : Bool} (h : getDir s id = some e) (hd : e.dstate = .parked) :
    dirRequest m n tag (.claim id k slot b) s =
      (let t := setDir id { e with dstate := .claimed, provisional := b, activeChip := k, activeSlot := slot } s
      sendSwl (.swilan n 1 1 tag [0, 0] (claimBytes t id)) t) := by
  simp only [dirRequest, dirClaim, h, hd]

/-- The chip that holds a session ACTIVE marks its entry EXPORTED (R101). -/
theorem dirRequest_exportHeld {id p : Nat} (h : getDir s id = some e) (hc : e.activeChip = linkPeer s n) (hd : e.dstate = .active) :
    dirRequest m n tag (.export_ id p) s =
      setDir id { e with dstate := .exported, exportPeer := p, activeChip := 0, activeSlot := 0 } s := by
  have hheld : heldBy s id (linkPeer s n) = some e := by
    simp only [heldBy, h, Option.filter, hc, hd, decide_true, Bool.true_or, Bool.and_self, if_true]
  simp only [dirRequest, hheld, hd, if_true]

/-! ### Commands of other chips -/

section
variable {i : OpInfo} {body : Moment → Req → State → Reply}

theorem exec_swlForwardedCommand_up {fn : Nat} (h : (getLink (s.at m) n).up = true) :
    exec (.swlForwardedCommand m n tag fn r) s =
      .next (runTaken m { r with src := .forwarded n tag fn } (swlGot n 0 r.payload.length (s.at m))) :=
  congrArg Host.Outcome.next (if_pos h)

/-- A secondary mirrors nothing (R395). -/
theorem mirror_secondary {opc : Nat} {b : Bytes} (h : (lockedPair s (twinPart r s)).all (·.secondary) = true) :
    mirror opc r b s = s := by
  unfold mirror
  cases hl : lockedPair s (twinPart r s) with
  | none => rfl
  | some x =>
    rw [hl, Option.all_some] at h
    simp only [h, Bool.true_or, if_true]

/-- A mirrored command that passes the checks, whose engine takes work and whose body ends, leaves what its body leaves: it has no
completion, and a secondary mirrors nothing further (R395). -/
theorem commandStep_mirrored (hs : r.src = .mirrored) (hp : precheck i r s = none)
    (he : (engineOf i.opcode r).all (groupOpen s) = true) (ha : (body m r s).pend = false)
    (hl : (lockedPair (body m r s).st (twinPart r (body m r s).st)).all (·.secondary) = true) :
    commandStep i body m r s = (body m r s).st := by
  have hg : (engineOf i.opcode r).filter (fun g => !groupOpen s g) = none := by
    simpa only [Option.filter_eq_none_iff, Bool.not_eq_true', Bool.not_eq_false, Option.all_eq_true] using he
  simp only [commandStep, hp, hg, ha, mirror_secondary hl, ite_self, complete, hs, Bool.false_eq_true]

/-- A message of the pair's other chip that is not the pair's end is applied over a link that is up: by the secondary, and by either
chip where it tells a copy's fault or the pair's loss (R393, R395; log entry 42). -/
theorem exec_twinMirroredCommand_up {x : Pair} {p : Nat} (hend : r.hdr.opcode ≠ 0x0B03)
    (hp : (if r.hdr.opcode = pairLost then ({ r with src := .mirrored } : Req).f 0 1
      else twinPart { r with src := .mirrored } (s.at m)) = p)
    (hx : tget (s.at m).twn.pairs p = some x)
    (ht : x.secondary = true ∨ r.hdr.opcode = copyFaulted ∨ r.hdr.opcode = pairLost) (hu : linkUp (s.at m) x.peer = true) :
    exec (.twinMirroredCommand m r) s = .next (applyMirrored m { r with src := .mirrored }
      (swlGot (linkTo (s.at m) x.peer) 3 r.payload.length (s.at m))) := by
  have hp' : (if (decide (r.hdr.opcode = 0x0B03) || decide (r.hdr.opcode = pairLost)) = true
      then ({ r with src := .mirrored } : Req).f 0 1 else twinPart { r with src := .mirrored } (s.at m)) = p := by
    rw [decide_eq_false hend, Bool.false_or]
    simpa only [decide_eq_true_eq] using hp
  have ht' : (x.secondary || (decide (r.hdr.opcode = copyFaulted) || decide (r.hdr.opcode = pairLost))) = true := by
    simpa only [Bool.or_eq_true, decide_eq_true_eq] using ht
  change execTwinMirroredCommand m r s = _
  simp only [execTwinMirroredCommand, hp', hx, ht', hu, Bool.and_self, if_true]

end

/-! ### Answers and bulk data -/

theorem exec_swlResponse_asked {st d : Nat} {b : Bytes} {q : SwlReq} (h : tget (s.at m).swl.reqs n = some q) :
    exec (.swlResponse m n st d b) s = .next (settleAll m (swlAnswer q.wait st d b
      (swlGot q.link 1 b.length { (s.at m) with swl := { (s.at m).swl with reqs := tdel (s.at m).swl.reqs n } }))) := by
  change execSwlResponse m n st d b s = _
  simp only [execSwlResponse, h]

/-- A forwarded command that is not a list's output ends with the status that its answer brings (R387). -/
theorem swlAnswer_forwarded {st d k : Nat} {b : Bytes} (h : ¬ (st = 0 ∧ r.hdr.opcode = 0x010A)) :
    swlAnswer (.forwarded r k) st d b s = endOp k st d b s := by
  refine if_neg ?_
  rwa [Bool.and_eq_true, decide_eq_true_eq, decide_eq_true_eq]

/-- Data of a descriptor that runs and waits for the chip that has sent them go in (R383). -/
theorem exec_swlBulkData_awaited {k : Nat} {b : Bytes} {d : Desc} (hu : (getLink (s.at m) n).up = true)
    (hd : tget (swlGot n 2 b.length (s.at m)).fdy.store k = some d) (he : d.engine.isSome = true)
    (hc : d.srcChip = linkPeer (swlGot n 2 b.length (s.at m)) n) (ha : awaits (swlGot n 2 b.length (s.at m)) d = true)
    (ht : d.srcTier ≠ 3) :
    exec (.swlBulkData m n k b) s = .next (tried (sourceIn k d b (swlGot n 2 b.length (s.at m)))
      (fun st => failDesc k st (swlGot n 2 b.length (s.at m)))) := by
  change execSwlBulkData m n k b s = _
  simp only [execSwlBulkData, hu, hd, he, hc, ha, ht, ne_eq, not_false_eq_true, decide_true, Bool.and_self, Bool.not_true,
    Bool.false_eq_true, if_false, if_true]
  rfl

end

/-- Settles O32: each access of the directory is its own case (`dirRequest_…`), a forwarded and a mirrored command run as any taken
one does (`commandStep_…`), and an answer ends what its request waits for (`exec_swlResponse_asked`). That a copy's fault and the
pair's loss are told by either chip is log entry 42. -/
theorem linkMessagesTakeEffect : Obligations.LinkMessagesTakeEffect := by
  refine ⟨?dirRequest, ?read, ?claim, ?exported, ?forwarded, ?mirrored, ?lost, ?faulted, ?response, ?numberCheck, ?twinSet, ?bulk⟩
  case dirRequest => exact fun m n tag a s hu => exec_swlDirRequest_up hu
  case read => exact fun m n tag id s e h => dirRequest_read h
  case claim => exact fun m n tag id k slot b s e h hd => dirRequest_claimParked h hd
  case exported => exact fun m n tag id p s e h hc hd => dirRequest_exportHeld h hc hd
  case forwarded =>
    intro m link tag fn r i body s u q v a hu hc hp he ha hl
    rw [exec_swlForwardedCommand_up hu, runTaken_defined (r := q) hc, commandStep_unmirrored hp he ha hl]
    rfl
  case mirrored =>
    intro m r i body x s u q v a hno hfire hm hx hsec hu hc hp he ha hl
    obtain ⟨hend, hlost, hfault⟩ := hno
    rw [exec_twinMirroredCommand_up (r := r) hend (if_neg hlost) hx (.inl hsec) hu]
    have happly : applyMirrored m q v = runTaken m q v := by
      simp only [applyMirrored, hend, hlost, hfault, hfire, hm, if_false, if_true]
    exact congrArg Host.Outcome.next (happly.trans ((runTaken_defined (r := q) hc).trans
      (congrArg (settleAll m) (commandStep_mirrored rfl hp he ha hl))))
  case lost =>
    intro m r x s u q v ho hx hu
    have hend : r.hdr.opcode ≠ 0x0B03 := by
      rw [ho]
      decide
    rw [exec_twinMirroredCommand_up hend (if_pos ho) hx (.inr (.inr ho)) hu]
    exact congrArg Host.Outcome.next ((if_neg hend).trans (if_pos ho))
  case faulted =>
    intro m r x s u q v ho hx hu
    have hend : r.hdr.opcode ≠ 0x0B03 := by
      rw [ho]
      decide
    have hlost : r.hdr.opcode ≠ pairLost := by
      rw [ho]
      decide
    rw [exec_twinMirroredCommand_up hend (if_neg hlost) hx (.inr (.inl ho)) hu]
    exact congrArg Host.Outcome.next ((if_neg hend).trans ((if_neg hlost).trans (if_pos ho)))
  case response =>
    intro m n st d k b q r s u hq hw hno
    rw [exec_swlResponse_asked hq, hw, swlAnswer_forwarded hno]
  case numberCheck =>
    intro m n st d k b q s u hq hw
    rw [exec_swlResponse_asked hq, hw]
    rfl
  case twinSet =>
    intro m n d b q r s u v hq hw
    rw [exec_swlResponse_asked hq, hw]
    rfl
  case bulk => exact fun m n k b d s hu hd he hc ha ht => exec_swlBulkData_awaited hu hd he hc ha ht

end Sys2Proof.Machine
end

section
/-! The Pattern tree: a publication, a match, the commands on the node that a handle names, the two commands that become operations,
and evictions (R146, R147, R149, R150, R152, R153, R158). -/

namespace Sys2Proof.Machine

section
variable {m : Moment} {r : Req} {s : State} {x : Session} {i p : Nat}

/-! ### Publication -/

/-- The blocks that PTN_PUBLISH names, past the part that its own path holds (R147). -/
def blocksToPublish (r : Req) (x : Session) : List Nat :=
  (List.range (r.f 8 4 - x.prefixLen / 256)).map (· + x.prefixLen / 256)

/-- What publishing those blocks below `a` comes to: the status, the deepest node reached with its counts, and the state (R147). -/
def publication (m : Moment) (r : Req) (x : Session) (a : PubAcc) (s : State) : Nat × PubAcc × State :=
  publishBlocks m (r.f 0 8) x (r.f 0x0C 1 = 1) (blocksToPublish r x) a s

/-- The result of a publication: the deepest node's handle, its depth and the counts (R147). -/
def publishedBytes (x : Session) (a : PubAcc) (s : State) : Bytes :=
  u64 (if a.node = 0 then 0 else handleOf s x.partition a.node) ++ u32 a.depth ++ u32 a.fresh ++ u32 a.dups

/-- A session of this chip in one of the four states whose blocks are ready is published from the node that its path reaches; the
answer is OK or the status of the block that failed (R147). -/
theorem bodyPtnPublish_ready {a : PubAcc} (hpin : r.f 0x0C 1 ≤ 1) (hl : locate r s (r.f 0 8) = .here (.active x))
    (ht : x.st = .prefill ∨ x.st = .decode ∨ x.st = .toolwait ∨ x.st = .stopped) (hlen : 256 * r.f 8 4 ≤ x.length)
    (hpos : 256 * r.f 8 4 ≤ x.prefillPos) (ha : pubStart s (r.f 0 8) x = some a) :
    bodyPtnPublish m r s =
      (let w := publication m r x a s
      { st := w.2.2, status := w.1, result := publishedBytes x w.2.1 w.2.2 }) := by
  have hstate : ¬ (!([SState.prefill, .decode, .toolwait, .stopped].contains x.st)) = true := by
    rcases ht with ht | ht | ht | ht
    all_goals rw [ht]; decide
  have hready : ¬ (decide (x.length < 256 * r.f 8 4) || decide (x.prefillPos < 256 * r.f 8 4)) = true := by
    simp only [Bool.or_eq_true, decide_eq_true_eq]
    omega
  rw [bodyPtnPublish, if_neg (Nat.not_lt.mpr hpin), onSession_here hl]
  dsimp only
  rw [ha]
  exact (if_neg hstate).trans (if_neg hready)

/-! ### Match -/

/-- What a match of a token sequence comes to: the nodes that its whole blocks reach, and the state in which they are touched
(R149). -/
def matching (r : Req) (toks : List Nat) (s : State) : List Nat × State :=
  let w := matchPath r.part16 (r.f 4 4 / 256) (rootKey s r.part16 (r.f 0 1) (r.f 1 1 = 1)) toks [] s
  (w.1, touchNodes r.part16 w.1 w.2)

/-- What an answer shows of an optional node: `f` of its index, 0 where there is none. -/
def shownOrZero (f : Nat → Nat) (o : Option Nat) : Nat :=
  match o with
  | some i => f i
  | none => 0

theorem shownOrZero_eq (f : Nat → Nat) (o : Option Nat) : shownOrZero f o = (o.map f).getD 0 := by
  cases o <;> rfl

/-- The answer of a match: the deepest node's handle, 0 where there is none, and its depth (R149). -/
def matchReply (r : Req) (w : List Nat × State) : Reply :=
  .ok w.2 (u64 (shownOrZero (handleOf w.2 r.part16) w.1.getLast?) ++ u32 w.1.length)

/-- The operands of PTN_MATCH are in range (R149). -/
theorem match_inRange (hslot : r.f 0 1 ≤ 63) (hmode : r.f 1 1 ≤ 1) (hlist : r.f 2 1 ≤ 1) (hn : r.f 4 4 ≤ 1048576)
    (hin : r.f 2 1 = 0 → r.f 4 4 ≤ 988) :
    ¬ (decide (63 < r.f 0 1) || decide (1 < r.f 1 1) || decide (1 < r.f 2 1) || decide (1048576 < r.f 4 4)
      || (decide (r.f 2 1 = 0) && decide (988 < r.f 4 4))) = true := by
  simp only [Bool.or_eq_true, Bool.and_eq_true, decide_eq_true_eq]
  omega

section
variable (hslot : r.f 0 1 ≤ 63) (hmode : r.f 1 1 ≤ 1) (ho : modelOpen s (r.f 0 1) r.part16 = true)
include hslot hmode ho

/-- Against a READY slot of the partition, the tokens are matched that the payload or the list holds (R149). -/
theorem bodyPtnMatch_open (hlist : r.f 2 1 ≤ 1) (hn : r.f 4 4 ≤ 1048576) (hin : r.f 2 1 = 0 → r.f 4 4 ≤ 988) :
    bodyPtnMatch m r s =
      if r.f 2 1 = 0 then matchReply r (matching r (u32s (r.f 4 4) (r.payload.drop 0x10)) s)
      else withData r (4 * r.f 4 4) s fun b => matchReply r (matching r (u32s (r.f 4 4) b) s) := by
  have hopen : ¬ (!modelOpen s (r.f 0 1) r.part16) = true := by
    rw [ho]
    decide
  exact (if_neg (match_inRange hslot hmode hlist hn hin)).trans (if_neg hopen)

theorem bodyPtnMatch_inline (hlist : r.f 2 1 = 0) (hn : r.f 4 4 ≤ 988) :
    bodyPtnMatch m r s = matchReply r (matching r (u32s (r.f 4 4) (r.payload.drop 0x10)) s) :=
  (bodyPtnMatch_open hslot hmode ho (by omega) (by omega) fun _ => hn).trans (if_pos hlist)

theorem bodyPtnMatch_list {b : Bytes} (hlist : r.f 2 1 = 1) (hn : r.f 4 4 ≤ 1048576)
    (hb : (inData r (4 * r.f 4 4) s).toOption = some b) :
    bodyPtnMatch m r s = matchReply r (matching r (u32s (r.f 4 4) b) s) :=
  have hzero : r.f 2 1 ≠ 0 := by omega
  (bodyPtnMatch_open hslot hmode ho (by omega) hn fun h => absurd h hzero).trans ((if_neg hzero).trans (withData_ok hb))

end

/-! ### One node -/

/-- A node that the request reaches is the one that its handle names (R146). -/
theorem onNode_named {k : Nat → Nat → Reply} (hr : r.reaches (r.f 0 8 / 2 ^ 60) = true)
    (hi : handleNode s (r.f 0 8 / 2 ^ 60) (r.f 0 8) = some i) : onNode r s k = k (r.f 0 8 / 2 ^ 60) i := by
  simp only [onNode, hr, hi, if_true]

section
variable (hr : r.reaches (r.f 0 8 / 2 ^ 60) = true) (hi : handleNode s (r.f 0 8 / 2 ^ 60) (r.f 0 8) = some i)
include hr hi

theorem bodyPtnDelete_named :
    bodyPtnDelete m r s =
      .ok (deleteNode (r.f 0 8 / 2 ^ 60) i s).2 (u32 (deleteNode (r.f 0 8 / 2 ^ 60) i s).1) := onNode_named hr hi

theorem bodyPtnPin_named (hp : r.f 8 1 ≤ 1) :
    bodyPtnPin m r s =
      .ok (setNode (r.f 0 8 / 2 ^ 60) i { getNode s (r.f 0 8 / 2 ^ 60) i with pin := r.f 8 1 = 1 } s) :=
  (if_neg (Nat.not_lt.mpr hp)).trans (onNode_named hr hi)

theorem bodyPtnRead_named :
    bodyPtnRead m r s = .ok s (nodeBytes s (getNode s (r.f 0 8 / 2 ^ 60) i)
      ++ (getNode s (r.f 0 8 / 2 ^ 60) i).pages.flatMap (fun e => u64 e.toNat)) := onNode_named hr hi

end

/-! ### The two operations -/

/-- A purge deletes its nodes as it starts, and keeps their count for its end (R153). -/
theorem bodyPtnPurge_starts (hslot : r.f 0 1 ≤ 63 ∨ r.f 0 1 = 0xFF) (ho : opRoom s r.fn = true) :
    bodyPtnPurge m r s =
      (let w := purgeNodes r.part16 (if r.f 0 1 = 0xFF then none else some (r.f 0 1)) (startOp r 0 0 0 false [] s).2
      .wait (setArgs s.bench.nextOp [w.1] w.2)) := by
  have hrange : ¬ (decide (63 < r.f 0 1) && decide (r.f 0 1 ≠ 0xFF)) = true := by
    simp only [Bool.and_eq_true, decide_eq_true_eq]
    omega
  exact (if_neg hrange).trans (asOp_room ho)

theorem bodyPtnConfig_starts (hc : (ptnConfigCheck r s).isOk = true) (ho : opRoom s r.fn = true) :
    bodyPtnConfig m r s = .wait (startOp r 0 1 (64 * r.f 4 4) true [] s).2 :=
  (checked_isOk hc).trans (asOp_room ho)

/-! ### Eviction -/

/-- Leaves are evicted while a watermark is breached: the event's cause is 0 for node indices and 1 for frames (R152). -/
theorem exec_ptnEviction_low (h : treeLow (s.at m) p = true) :
    exec (.ptnEviction m p) s = .next (evict p
      (if freeNodeCount (getTree (s.at m) p) < (getTree (s.at m) p).nodeLow then 0 else 1) (fun s => treeLow s p) (s.at m)) :=
  congrArg Host.Outcome.next (if_pos h)

end

/-- Settles O16: a publication starts where the session's path ends (`bodyPtnPublish_ready`), a match reads its tokens from the payload
or the list (`bodyPtnMatch_open`), and a handle names its node (`onNode_named`). -/
theorem patternTreeCommands : Obligations.PatternTreeCommands := by
  refine ⟨?publish, ?matchInline, ?matchList, ?delete, ?pin, ?read, ?purge, ?config, ?eviction⟩
  case publish =>
    intro m r s x hs u a w hpin hl ht hlen hpos hstart hok
    have ha : pubStart u (r.f 0 8) x = some a := (Option.some_get hstart).symm.trans (congrArg some (Option.get_eq_getD _))
    have hbody := bodyPtnPublish_ready (m := m) hpin hl ht hlen hpos ha
    change bodyPtnPublish m r u = { st := w.2.2, status := w.1, result := publishedBytes x w.2.1 w.2.2 } at hbody
    rw [hok] at hbody
    exact congrArg Host.Outcome.next (runCommand_ended hs hbody)
  case matchInline =>
    intro m r s hs u w v hslot hmode hlist hn ho
    have hbody := bodyPtnMatch_inline (m := m) hslot hmode ho hlist hn
    rw [matchReply, shownOrZero_eq] at hbody
    exact congrArg Host.Outcome.next (runCommand_ended hs hbody)
  case matchList =>
    intro m r s b hs u w v hslot hmode hlist hn ho hb
    have hbody := bodyPtnMatch_list (m := m) hslot hmode ho hlist hn hb
    rw [matchReply, shownOrZero_eq] at hbody
    exact congrArg Host.Outcome.next (runCommand_ended hs hbody)
  case delete =>
    exact fun m r s i hs hr hi => congrArg Host.Outcome.next (runCommand_ended hs (bodyPtnDelete_named hr hi))
  case pin =>
    exact fun m r s i hs hp hr hi => congrArg Host.Outcome.next (runCommand_ended hs (bodyPtnPin_named hr hi hp))
  case read =>
    exact fun m r s i hs hr hi => congrArg Host.Outcome.next (runCommand_ended hs (bodyPtnRead_named hr hi))
  case purge =>
    exact fun m r s hs hslot ho => congrArg Host.Outcome.next (runCommand_goesOn hs (bodyPtnPurge_starts hslot ho))
  case config =>
    exact fun m r s hs hc ho => congrArg Host.Outcome.next (runCommand_goesOn hs (bodyPtnConfig_starts hc ho))
  case eviction => exact fun m p s h => exec_ptnEviction_low h

end Sys2Proof.Machine
end

section
/-! Page pools and page tables: a pool that shrinks or grows, and entries of live tables and of cast images (R136, R158, R306). -/

namespace Sys2Proof.Machine

section
variable {m : Moment} {r : Req} {s : State} {id : PoolId} {x : Session} {e : DirEntry}

/-! ### PAGE_POOL_CONFIG -/

/-- A pool as it stands; one that the partition does not have yet holds no frame (R136). -/
def poolNow (s : State) (id : PoolId) : Pool := (getPool s id).getD { id, size := 0 }

section
variable (hg : (partGate opPagePoolConfig r (r.f 0 1) s).isOk = true) (hid : poolOf r = some id) (hu : usedFrames s id ≤ r.f 4 4)
include hg hid hu

/-- A pool shrinks to no fewer frames than are in use (R136). -/
theorem bodyPagePoolConfig_shrinks (hn : r.f 4 4 ≤ (poolNow s id).size) :
    bodyPagePoolConfig m r s =
      .ok (putPool { poolNow s id with size := r.f 4 4, extents := shrinkExtents s (poolNow s id) (r.f 4 4) }
        (poolNow s id).size s) := by
  rw [bodyPagePoolConfig, eq_ok_of_isOk hg (), hid]
  exact (if_neg (Nat.not_lt.mpr hu)).trans (if_pos hn)

/-- A pool grows by frames that are carved from the partition's memory (R136). -/
theorem bodyPagePoolConfig_grows {more : List (Nat × Nat)} (hn : (poolNow s id).size < r.f 4 4)
    (hc : carvePool s id (r.f 4 4 - (poolNow s id).size) = some more) :
    bodyPagePoolConfig m r s =
      .ok (putPool { poolNow s id with size := r.f 4 4, extents := (poolNow s id).extents ++ more } (poolNow s id).size s) := by
  unfold poolNow at hc
  rw [bodyPagePoolConfig, eq_ok_of_isOk hg (), hid]
  dsimp only
  rw [if_neg (Nat.not_lt.mpr hu), hc]
  exact if_neg (Nat.not_le.mpr hn)

end

/-! ### PAGE_TABLE_READ -/

/-- The entries that PAGE_TABLE_READ answers (R158). -/
def entriesRead (r : Req) (s : State) : Bytes :=
  (List.range (r.f 0x0C 2)).flatMap (fun k => u64 (getPte s (r.f 0 8) (r.f 8 2) (r.f 0x0A 2 + k)).toNat)

/-- The operands of PAGE_TABLE_READ are in range (R158). -/
theorem pageTableRead_inRange (hz : r.f 0x0C 2 ≠ 0) (hn : r.f 0x0C 2 ≤ 480) (hend : r.f 0x0A 2 + r.f 0x0C 2 ≤ 4096) :
    ¬ (decide (r.f 0x0C 2 = 0) || decide (480 < r.f 0x0C 2) || decide (4096 < r.f 0x0A 2 + r.f 0x0C 2)) = true := by
  simp only [Bool.or_eq_true, decide_eq_true_eq]
  omega

section
variable (hz : r.f 0x0C 2 ≠ 0) (hn : r.f 0x0C 2 ≤ 480) (hend : r.f 0x0A 2 + r.f 0x0C 2 ≤ 4096)
  (hg : r.f 8 2 < (getStore s (r.f 0 8)).pages.lgCount)
include hz hn hend hg

/-- Entries of the live tables (R158). -/
theorem bodyPageTableRead_active (hl : locate r s (r.f 0 8) = .here (.active x)) (hf : x.st ≠ .faulted) :
    bodyPageTableRead m r s = .ok s (entriesRead r s) := by
  rw [bodyPageTableRead, if_neg (pageTableRead_inRange hz hn hend), onStore_here hl rfl]
  exact (if_neg hf).trans (if_neg (Nat.not_le.mpr hg))

/-- Entries of a cast image, told by detail 1 (R158). -/
theorem bodyPageTableRead_parked (hl : locate r s (r.f 0 8) = .here (.parked e)) (hc : imageChip e = chip s) :
    bodyPageTableRead m r s = { st := s, detail := 1, result := entriesRead r s } := by
  rw [bodyPageTableRead, if_neg (pageTableRead_inRange hz hn hend), onStore_here hl (decide_eq_true hc)]
  exact if_neg (Nat.not_le.mpr hg)

end

end

/-- Settles O17: a pool shrinks or grows by what its size is against the frames asked for (`bodyPagePoolConfig_…`), and the entries are
those of the session's tables wherever its records are on this chip (`bodyPageTableRead_…`). -/
theorem pagePoolsAndPageTables : Obligations.PagePoolsAndPageTables := by
  refine ⟨?shrinks, ?grows, ?live, ?cast⟩
  case shrinks =>
    exact fun m r s id hs hg hid hu hn => congrArg Host.Outcome.next
      (runCommand_ended hs (bodyPagePoolConfig_shrinks hg hid hu hn))
  case grows =>
    exact fun m r s id more hs hg hid hu hn hc => congrArg Host.Outcome.next
      (runCommand_ended hs (bodyPagePoolConfig_grows hg hid hu hn hc))
  case live =>
    exact fun m r s x hs hz hn hend hl hf hg => congrArg Host.Outcome.next
      (runCommand_ended hs (bodyPageTableRead_active hz hn hend hg hl hf))
  case cast =>
    exact fun m r s e hs hz hn hend hl hc hg => congrArg Host.Outcome.next
      (runCommand_detail hs (bodyPageTableRead_parked hz hn hend hg hl hc))

end Sys2Proof.Machine
end

section
/-! Model slots: a load and its end, an unload and its end, the read of a slot, a new place of a weight object, and the rounds of
attention (R184, R186, R187, R193, R217). -/

namespace Sys2Proof.Machine

section
variable {m : Moment} {r : Req} {s : State} {slot : Nat} {img : Bytes}

/-! ### MODEL_LOAD -/

/-- The slot that a load into an EMPTY one makes: LOADING, with what the image's header and attention descriptors say (R184). -/
def slotLoading (r : Req) (img : Bytes) : ModelSlot :=
  { mstate := .loading, partition := r.f 1 1, spanMask := r.f 4 2, hdr := Md.hdr img, hdrBytes := fit 256 img, att := Md.att img,
    image := img }

/-- The frames of an image's weight objects, taken for a load into an EMPTY slot (R187). -/
def loadFrames (r : Req) (img : Bytes) (s : State) : Option State :=
  placeObjs (r.f 0 1) (r.f 1 1) (r.f 2 1) (Md.objs img) (setModel (r.f 0 1) (slotLoading r img) s)

/-- The load's operation starts: the slot names it. -/
def loadBegun (r : Req) (w : State) : State :=
  let v := (startOp r 1 1 (r.f 8 8) true [r.f 0 1] w).2
  setModel (r.f 0 1) { getModel v (r.f 0 1) with op := w.bench.nextOp } v

/-- The answer of a load into an EMPTY slot to the outcome of the image's checks: the failure that they name, or the operation where
the frames are found (R186, R187). -/
def loadReply (r : Req) (img : Bytes) (s : State) : Except (Nat × Nat) Unit → Reply
  | .error (st, d) => .err s st d
  | .ok _ =>
    match loadFrames r img s with
    | none => .err s St.tierFull
    | some w =>
      if opRoom s r.fn then
        asOp r w 1 1 (r.f 8 8) true [r.f 0 1] fun n v => setModel (r.f 0 1) { getModel v (r.f 0 1) with op := n } v
      else .err s St.busyRetry

/-- With frames and room, an image that passes the checks starts the load (R184). -/
theorem loadReply_ok {w : State} (hw : loadFrames r img s = some w) (ho : opRoom s r.fn = true) (ho' : opRoom w r.fn = true) :
    loadReply r img s (.ok ()) = .wait (loadBegun r w) := by
  rw [loadReply, hw]
  exact (if_pos ho).trans (asOp_room ho')

/-- The span of a load is not empty, lies within the partition's tiles and is wide enough for the model (R186). -/
def spanFits (s : State) (p span : Nat) (h : ModelHdr) : Prop :=
  span ≠ 0 ∧ (setBits 16 span).all (fun g => bit (getPart s p).tileMask g) = true ∧ h.minSpan ≤ 8 * popcount 16 span

/-- Of the checks 2 to 5 of R186, only that of the command stream can fail an image whose fields, page, span and signature are
right. -/
theorem modelCheck_stream {p span n : Nat}
    (hf : (Md.headerChecks img n ++ Md.objChecks img ++ Md.attChecks img).all (·.1) = true)
    (hpage : Md.pageContent (Md.hdr img) ≤ 16777216) (hspan : spanFits s p span (Md.hdr img))
    (hsig : (getPart s p).signedImages = false ∨ (Md.hdr img).sigLen ≠ 0) :
    modelCheck p span n img s = (Config.cmdStreamBad img).elim (.ok ()) (fun o => .error (St.imageInvalid, o)) := by
  obtain ⟨hne, hown, hmin⟩ := hspan
  have hsigned : ((getPart s p).signedImages && decide ((Md.hdr img).sigLen = 0)) = false := by
    rcases hsig with h | h
    · rw [h, Bool.false_and]
    · rw [decide_eq_false h, Bool.and_false]
  rw [modelCheck, firstBad_stream hf]
  cases Config.cmdStreamBad img with
  | some o => rfl
  | none =>
    simp only [hne, hown, hsigned, Nat.not_lt.mpr hpage, Nat.not_lt.mpr hmin, decide_false, Bool.not_true, Bool.or_self,
      Bool.false_eq_true, if_false]
    rfl

section
variable (hslot : r.f 0 1 ≤ 63) (hplace : r.f 2 1 ≤ 2 ∧ spanExists s (r.f 4 2) = true)
  (hg : (partGate opModelLoad r (r.f 1 1) s).isOk = true) (he : (getModel s (r.f 0 1)).mstate = .empty)
  (hi : (inData r (r.f 8 8) s).toOption = some img)
include hslot hplace hg he hi

/-- A load into an EMPTY slot, in range and of an image that can be read, answers by what the checks of the image say (R186). -/
theorem bodyModelLoad_empty : bodyModelLoad m r s = loadReply r img s (modelCheck (r.f 1 1) (r.f 4 2) (r.f 8 8) img s) := by
  have hrange : ¬ (decide (63 < r.f 0 1) || decide (2 < r.f 2 1) || !spanExists s (r.f 4 2)) = true := by
    simp only [hplace.2, Bool.not_true, Bool.or_false, Bool.or_eq_true, decide_eq_true_eq]
    omega
  rw [bodyModelLoad, if_neg hrange, eq_ok_of_isOk hg ()]
  dsimp only
  rw [he, withData_ok hi]
  rfl

end

/-! ### The load's end -/

/-- A copy that is verified makes the slot READY, and the load answers what the image is and takes (R184). -/
theorem modelLoadComplete_verified {x : ModelSlot} (hx : getModel s slot = x) (hl : x.mstate = .loading)
    (hs : stopping s x.op = false) (hv : (modelVerify s x).isOk = true) :
    modelLoadComplete slot true s =
      endOp x.op 0 0 (fit 32 x.hdr.digest ++ u8 (Md.pageClass x.hdr) ++ u8 0 ++ u16 x.hdr.lgCount
          ++ u64 (tierBytes x.newObjs 1) ++ u64 (tierBytes x.newObjs 2))
        (logEvent { code := 0x0401, sev := 0, part := x.partition,
                    info := le 2 slot ++ x.hdr.digest.take 16 ++ le 7 (tierBytes x.newObjs 1) ++ le 7 (tierBytes x.newObjs 2) }
          (modelReady slot (setModel slot
            { x with mstate := .ready, faultRun := 0, objs := x.newObjs, newObjs := [], image := [], reload := false, op := 0 }
            (writeObjs x.image ((Md.objs x.image).zip x.newObjs) s)))) := by
  rw [modelLoadComplete, hx, if_neg (not_not_intro hl), if_neg (Bool.eq_false_iff.mp hs), if_neg (by decide), eq_ok_of_isOk hv ()]

/-! ### MODEL_UNLOAD -/

/-- A READY or FAULTED slot that no session names begins its unload: its nodes are purged, and their count is kept for the end
(R184). -/
theorem bodyModelUnload_starts (hslot : r.f 0 1 ≤ 63)
    (hst : (modelFor r s (r.f 0 1)).mstate = .ready ∨ (modelFor r s (r.f 0 1)).mstate = .faulted)
    (hg : (partGate opModelUnload r (modelFor r s (r.f 0 1)).partition s).isOk = true) (hu : modelUsed s (r.f 0 1) = false)
    (ho : opRoom s r.fn = true) :
    bodyModelUnload m r s =
      (let w := purgeNodes (modelFor r s (r.f 0 1)).partition (some (r.f 0 1)) (startOp r 0 0 0 false [r.f 0 1] s).2
      .wait (setModel (r.f 0 1)
        { modelFor r s (r.f 0 1) with mstate := .unloading, op := s.bench.nextOp, purged := w.1 } w.2)) := by
  have hready : ¬ (!(decide ((modelFor r s (r.f 0 1)).mstate = .ready) || decide ((modelFor r s (r.f 0 1)).mstate = .faulted)))
      = true := by
    simpa only [Bool.not_eq_true', Bool.not_eq_false, Bool.or_eq_true, decide_eq_true_eq] using hst
  rw [bodyModelUnload, if_neg (Nat.not_lt.mpr hslot), if_neg hready, eq_ok_of_isOk hg ()]
  dsimp only
  exact (if_neg (Bool.eq_false_iff.mp hu)).trans (asOp_room ho)

/-- The unload of a slot that no invocation is left of ends with the count of the nodes purged, and the slot is EMPTY (R184). -/
theorem exec_modelUnloadComplete_idle (hst : (getModel (s.at m) slot).mstate = .unloading)
    (hn : (slotInvs (s.at m) slot).isEmpty = true) :
    exec (.modelUnloadComplete m slot) s = .next (endOp (getModel (s.at m) slot).op 0 0 (u32 (getModel (s.at m) slot).purged)
      { s.at m with tile := { (s.at m).tile with models := tdel (s.at m).tile.models slot } }) := by
  refine if_pos ?_
  rw [hn, decide_eq_true hst]
  rfl

/-! ### MODEL_QUERY, MODEL_PLACE and ATT_CONFIG -/

theorem bodyModelQuery_inRange (hslot : r.f 0 1 ≤ 63) :
    bodyModelQuery m r s =
      .ok s ((fit 256 (modelFor r s (r.f 0 1)).hdrBytes ++ u32 (modelReg s (r.f 0 1) (modelFor r s (r.f 0 1)))
        ++ (modelFor r s (r.f 0 1)).objs.flatMap (fun o => u8 o.tier)).take 3968) :=
  if_neg (Nat.not_lt.mpr hslot)

/-- A weight object of a READY slot takes its new place in the tier named, and the operation that moves it starts (R187). -/
theorem bodyModelPlace_starts {o : WeightObj} {a : Nat} (hslot : r.f 0 1 ≤ 63) (ht : r.f 1 1 = 1 ∨ r.f 1 1 = 2)
    (hst : (modelFor r s (r.f 0 1)).mstate = .ready)
    (hg : (partGate opModelPlace r (modelFor r s (r.f 0 1)).partition s).isOk = true)
    (hobj : (modelFor r s (r.f 0 1)).objs[r.f 2 2]? = some o)
    (ha : placeBlock s (modelFor r s (r.f 0 1)).partition (r.f 1 1) o.bytes 4096 = some a) (ho : opRoom s r.fn = true) :
    bodyModelPlace m r s =
      .wait (setModel (r.f 0 1)
        { modelFor r s (r.f 0 1) with
          moving := (modelFor r s (r.f 0 1)).moving ++ [{ bytes := o.bytes, tier := r.f 1 1, addr := a }] }
        (startOp r 0 1 o.bytes true [r.f 0 1, r.f 2 2, r.f 1 1, a] s).2) := by
  have hrange : ¬ (decide (63 < r.f 0 1) || !(decide (r.f 1 1 = 1) || decide (r.f 1 1 = 2))) = true := by
    simp only [Bool.or_eq_true, Bool.not_eq_true', Bool.or_eq_false_iff, decide_eq_true_eq, decide_eq_false_iff_not]
    omega
  rw [bodyModelPlace, if_neg hrange, if_neg (not_not_intro hst), eq_ok_of_isOk hg (), hobj]
  dsimp only
  rw [ha]
  exact asOp_room ho

theorem bodyAttConfig_inRange (hl : 1 ≤ r.f 0 1) (hh : r.f 0 1 ≤ 64) :
    bodyAttConfig m r s = .ok { s with tile := { s.tile with attRounds := r.f 0 1 } } := by
  refine if_neg ?_
  simp only [Bool.or_eq_true, decide_eq_true_eq]
  omega

end

/-- Settles O18: with the image's fields right, the decode of its command stream decides (`modelCheck_stream`) whether the load fails
or starts (`bodyModelLoad_empty`, `loadReply_ok`), a verified copy ends it (`modelLoadComplete_verified`), and the other commands act
on the slot as the request sees it. That a request sees another partition's slot as EMPTY and that a query's answer is cut are log
entry 55. -/
theorem modelsAreLoadedAndPlaced : Obligations.ModelsAreLoadedAndPlaced := by
  refine ⟨?load, ?complete, ?unload, ?unloadEnd, ?query, ?place, ?rounds⟩
  case load =>
    intro m r s img hs u y w v hslot hplace hg he hi hf hpage hne hown hmin hsig hw ho hroom
    have hcheck := modelCheck_stream (s := u) (p := r.f 1 1) hf hpage ⟨hne, hown, hmin⟩ hsig
    have hbody := bodyModelLoad_empty (m := m) hslot hplace hg he hi
    rw [hcheck] at hbody
    refine congrArg Host.Outcome.next ?_
    cases hstream : Config.cmdStreamBad img with
    | some o =>
      rw [hstream] at hbody
      exact runCommand_failed hs (by decide) hbody
    | none =>
      rw [hstream] at hbody
      have hframes : loadFrames r img u = some (w.getD u) := (Option.some_get hw).symm.trans (congrArg some (Option.get_eq_getD _))
      exact runCommand_goesOn hs (hbody.trans (loadReply_ok hframes ho ((Option.all_eq_true _ _).mp hroom _ hframes)))
  case complete =>
    exact fun m slot s hl hst hv => congrArg (fun t => Host.Outcome.next (settleAll m t))
      (modelLoadComplete_verified rfl hl hst hv)
  case unload =>
    exact fun m r s hs hslot hst hg hu ho => congrArg Host.Outcome.next
      (runCommand_goesOn hs (bodyModelUnload_starts hslot hst hg hu ho))
  case unloadEnd => exact fun m slot s hst hn => exec_modelUnloadComplete_idle hst hn
  case query =>
    exact fun m r s hs hslot => congrArg Host.Outcome.next (runCommand_ended hs (bodyModelQuery_inRange hslot))
  case place =>
    exact fun m r s o a hs hslot ht hst hg hobj ha ho => congrArg Host.Outcome.next
      (runCommand_goesOn hs (bodyModelPlace_starts hslot ht hst hg hobj ha ho))
  case rounds =>
    exact fun m r s hs hl hh => congrArg Host.Outcome.next (runCommand_ended hs (bodyAttConfig_inRange hl hh))

end Sys2Proof.Machine
end

section
/-! Table sets: a load whose number the board is asked for, the end of the copy, a number check of another chip, a retirement and its
end, the read of a generation, and the two checks of a host's own tokenizer (R218, R221, R222, R223, R245, R531). -/

namespace Sys2Proof.Machine

section
variable {m : Moment} {r : Req} {s : State} {x : TableSet} {gen : Nat}

/-! ### TABLESET_LOAD -/

/-- The number check of generation `gen` leaves, for operation `n`, to the chip on each of the links `ups` (R218). -/
def askBoard (ups : List Nat) (gen n : Nat) (s : State) : State :=
  ups.foldl (fun s l => swlAsk ((chip s + l + 1) % 8) (.numberCheck n) 3 gen [gen] [] s) s

section
variable (hg : (partGate opTablesetLoad r (r.f 2 1) s).isOk = true) (hgen : r.f 0 2 ≠ 0)
  (hnew : thas s.txt.gens (r.f 0 2) = false) (hdark : (List.range 7).any (fun n => linkDark (getLink s n)) = false)
  (ho : opRoom s r.fn = true)
include hg hgen hnew hdark ho

/-- With the number unused and no link dark, the load starts: it asks the board where a link is up, and else places the image
(R218, R221). -/
theorem bodyTablesetLoad_starts :
    bodyTablesetLoad m r s =
      (let v := (startOp r 1 1 (r.f 8 8) true [(linksUp s).length] s).2
      .wait (if (linksUp s).isEmpty then placeTableset s.bench.nextOp v else askBoard (linksUp s) (r.f 0 2) s.bench.nextOp v)) := by
  have hunused : ¬ (decide (r.f 0 2 = 0) || thas s.txt.gens (r.f 0 2)) = true := by
    rw [hnew, Bool.or_false, decide_eq_true_eq]
    exact hgen
  rw [bodyTablesetLoad, eq_ok_of_isOk hg ()]
  exact (if_neg hunused).trans ((if_neg (Bool.eq_false_iff.mp hdark)).trans (asOp_room ho))

theorem bodyTablesetLoad_asks (hup : (linksUp s).isEmpty = false) :
    bodyTablesetLoad m r s = .wait (askBoard (linksUp s) (r.f 0 2) s.bench.nextOp
      (startOp r 1 1 (r.f 8 8) true [(linksUp s).length] s).2) :=
  (bodyTablesetLoad_starts hg hgen hnew hdark ho).trans (congrArg Reply.wait (if_neg (Bool.eq_false_iff.mp hup)))

theorem bodyTablesetLoad_places (hup : (linksUp s).isEmpty = true) :
    bodyTablesetLoad m r s =
      .wait (placeTableset s.bench.nextOp (startOp r 1 1 (r.f 8 8) true [(linksUp s).length] s).2) :=
  (bodyTablesetLoad_starts hg hgen hnew hdark ho).trans (congrArg Reply.wait (if_pos hup))

end

/-- The generation that a load places: LOADING, with what the image's header says (R221, R222). -/
def loadingSet (r : Req) (img : Bytes) (a n : Nat) : TableSet :=
  { partition := r.f 2 1, family := Tb.family img, digest := Tb.digest img, vocab := Tb.vocab img, image := img,
    hbmBytes := r.f 8 8, addr := a, op := n }

/-- An image that can be read, passes its checks and finds its place is LOADING under its unused number, and the load copies it
(R221, R222). -/
theorem placeTableset_checked {n a : Nat} {o : LongOp} {img : Bytes} (hop : getOp s n = some o) (hgen : o.req.f 0 2 ≠ 0)
    (hnew : thas s.txt.gens (o.req.f 0 2) = false) (hi : inData o.req (o.req.f 8 8) s = .ok img)
    (hc : imageCheck (o.req.f 2 1) (o.req.f 8 8) img s = .ok a) :
    placeTableset n s = phaseOp n 2 true (setGen (o.req.f 0 2) (loadingSet o.req img a n) s) := by
  simp only [placeTableset, hop, hgen, hnew, hi, hc, decide_false, Bool.or_self, Bool.false_eq_true, if_false]
  rfl

/-! ### The load's end -/

/-- A copy that is verified becomes RESIDENT and is written to HBM, and the load answers its digest and bytes (R222). -/
theorem exec_tablesetLoadComplete_verified (hx : getGen (s.at m) gen = some x) (hl : x.gstate = .loading)
    (hs : stopping (s.at m) x.op = false) (hv : (tablesetVerify (s.at m) x).isOk = true) :
    exec (.tablesetLoadComplete m gen true) s = .next (endOp x.op 0 0 (fit 32 x.digest ++ u64 x.hbmBytes)
      (logEvent { code := 0x0501, sev := 0, part := x.partition, info := u64 gen ++ u64 x.family ++ x.digest.take 16 }
        (devWrite 1 x.addr x.image (setGen gen { x with gstate := .resident, op := 0 } (s.at m))))) := by
  change execTablesetLoadComplete m gen true s = _
  rw [execTablesetLoadComplete, hx]
  dsimp only
  rw [if_neg (not_not_intro hl), if_neg (Bool.eq_false_iff.mp hs), if_neg (by decide), eq_ok_of_isOk hv ()]

/-! ### A number check -/

/-- Another chip's number check is answered with the digest of the generation held here, or with OK (R218). -/
theorem exec_tablesetNumberCheck_answers {link tag : Nat} :
    exec (.tablesetNumberCheck m link tag gen) s =
      .next (sendSwl ((getGen (swlGot link 0 0 (s.at m)) gen).elim (.swilan link 1 3 tag [0] [])
        (fun x => .swilan link 1 3 tag [St.genExists] x.digest)) (swlGot link 0 0 (s.at m))) := by
  change execTablesetNumberCheck m link tag gen s = _
  rw [execTablesetNumberCheck]
  cases getGen (swlGot link 0 0 (s.at m)) gen with
  | none => rfl
  | some x => rfl

/-! ### TABLESET_RETIRE -/

/-- A RESIDENT generation that the request may name drains, and keeps the binds that it starts with (R222, R223). -/
theorem bodyTablesetRetire_drains (hx : genFor r s (r.f 0 2) = some x)
    (hg : (partGate opTablesetRetire r x.partition s).isOk = true) (hres : x.gstate = .resident) (ho : opRoom s r.fn = true) :
    bodyTablesetRetire m r s =
      .wait (setGen (r.f 0 2) { x with gstate := .retiring, bindAt := x.bind, op := s.bench.nextOp }
        (startOp r 1 3 x.bind true [] s).2) := by
  rw [bodyTablesetRetire, hx]
  dsimp only
  rw [eq_ok_of_isOk hg ()]
  exact (if_neg (not_not_intro hres)).trans (asOp_room ho)

/-- A RETIRING generation without a bind, whose retirement is not being cancelled, is released (R222). -/
theorem exec_tablesetDrained_unbound (hx : getGen (s.at m) gen = some x) (hret : x.gstate = .retiring) (hb : x.bind = 0)
    (hc : (getOp (s.at m) x.op).any (·.cancelling) = false) :
    exec (.tablesetDrained m gen) s = .next (endOp x.op 0 0 [] (note 0x0502 0 x.partition 0 [gen, x.hbmBytes]
      (dropGen gen (phaseOp x.op 2 false (s.at m))))) := by
  change execTablesetDrained m gen s = _
  rw [execTablesetDrained, hx]
  refine if_pos ?_
  rw [hret, hb, hc]
  rfl

/-! ### TABLESET_QUERY, SHEAR_CUT and SOLDER_RENDER -/

theorem bodyTablesetQuery_held (hx : genFor r s (r.f 0 2) = some x) :
    bodyTablesetQuery m r s = .ok s (fit 256 x.image ++ u8 (gstateCode x.gstate) ++ zeros 3 ++ u32 x.bind) := by
  rw [bodyTablesetQuery, hx]

/-- The Shear cuts the bytes as one final intake; the answer holds 990 tokens at most, and the detail says whether more were cut
(R245, R531). -/
theorem bodyShearCut_cuts {a : Shorn} (hn : r.f 4 4 ≤ 3952) (hx : genServing r s (r.f 0 2) = some x)
    (ha : shear x.image (bit (r.f 2 1) 0) true 0 {} (r.b 0x10 (r.f 4 4)) = .ok a) :
    bodyShearCut m r s =
      { st := bumpFree .shrMisses x.partition (r.f 4 4) s
        detail := b2n (decide (990 < (a.toks.map (·.1)).length))
        result := u32 (a.toks.map (·.1)).length ++ u32 a.replaced ++ ((a.toks.map (·.1)).take 990).flatMap u32 } := by
  simp only [bodyShearCut, Nat.not_lt.mpr hn, hx, ha, if_false]

/-- The tokens that SOLDER_RENDER names (R245). -/
def renderIds (r : Req) : List Nat := (List.range (r.f 8 4)).map (fun i => r.f (0x10 + 4 * i) 4)

/-- What rendering those tokens as one turn yields, under the stop set named or none (R245, R531). -/
def rendering (r : Req) (img : Bytes) : Rendered :=
  renderTurn img (if r.f 4 4 = ones32 then {} else Tb.stopSet img (r.f 4 4)) (bit (r.f 2 1) 0) (renderIds r) 0 {}

/-- The Solder renders tokens of the vocabulary as one turn; the answer holds 3,960 bytes at most, and the detail says whether more
were rendered (R245, R531). -/
theorem bodySolderRender_renders (hn : r.f 8 4 ≤ 988) (hx : genServing r s (r.f 0 2) = some x)
    (hids : (renderIds r).any (fun t => decide (x.vocab ≤ t)) = false)
    (hstop : r.f 4 4 = ones32 ∨ r.f 4 4 < Tb.stopCount x.image) :
    bodySolderRender m r s =
      { st := bumpFree .shrMisses x.partition (r.f 8 4) s
        detail := b2n (decide (3960 < (rendering r x.image).out.length))
        result := u32 (rendering r x.image).out.length ++ u32 ((rendering r x.image).stop.getD ones32)
          ++ (rendering r x.image).out.take 3960 } := by
  have hrange : ¬ ((renderIds r).any (fun t => decide (x.vocab ≤ t))
      || !(decide (r.f 4 4 = ones32) || decide (r.f 4 4 < Tb.stopCount x.image))) = true := by
    simpa only [hids, Bool.false_or, Bool.not_eq_true', Bool.not_eq_false, Bool.or_eq_true, decide_eq_true_eq] using hstop
  rw [bodySolderRender, if_neg (Nat.not_lt.mpr hn), hx]
  exact if_neg hrange

end

/-- Settles O19: a load with no dark link asks the board or places its image (`bodyTablesetLoad_starts`, `placeTableset_checked`), a
verified copy ends it, a number check reads what this chip holds, a retirement is two steps of the generation's state, and the reads
and the two checks answer from the generation that the request may name. -/
theorem tableSetsAreLoadedAndServe : Obligations.TableSetsAreLoadedAndServe := by
  refine ⟨?asks, ?places, ?placed, ?complete, ?number, ?retire, ?drained, ?query, ?cut, ?render⟩
  case asks =>
    exact fun m r s hs hg hgen hnew hdark hup ho => congrArg Host.Outcome.next
      (runCommand_goesOn hs (bodyTablesetLoad_asks hg hgen hnew hdark ho hup))
  case places =>
    exact fun m r s hs hg hgen hnew hdark hup ho => congrArg Host.Outcome.next
      (runCommand_goesOn hs (bodyTablesetLoad_places hg hgen hnew hdark ho hup))
  case placed =>
    exact fun n o img a s hop hgen hnew hi hc => placeTableset_checked hop hgen hnew (toOption_some hi) (toOption_some hc)
  case complete => exact fun m gen x s hx hl hs hv => exec_tablesetLoadComplete_verified hx hl hs hv
  case number => exact fun m link tag gen s => exec_tablesetNumberCheck_answers
  case retire =>
    exact fun m r s x hs hx hg hres ho => congrArg Host.Outcome.next
      (runCommand_goesOn hs (bodyTablesetRetire_drains hx hg hres ho))
  case drained => exact fun m gen x s hx hret hb hc => exec_tablesetDrained_unbound hx hret hb hc
  case query => exact fun m r s x hs hx => congrArg Host.Outcome.next (runCommand_ended hs (bodyTablesetQuery_held hx))
  case cut =>
    exact fun m r s x a hs hn hx ha => congrArg Host.Outcome.next
      (runCommand_detail hs (bodyShearCut_cuts hn hx (toOption_some ha)))
  case render =>
    exact fun m r s x hs hn hx hids hstop => congrArg Host.Outcome.next
      (runCommand_detail hs (bodySolderRender_renders hn hx hids hstop))

end Sys2Proof.Machine
end

section
/-! The commands of classes, meters and shares, and the read of a session's queue record (R269, R271, R272, R277, R282, R302). -/

namespace Sys2Proof.Machine

section
variable {m : Moment} {r : Req} {s : State}

/-! ### What the checks ask for -/

theorem guard'_holds {p : Bool} {st : Nat} (h : p = true) : guard' p st = .ok () := if_pos h

theorem definable_ok {i : OpInfo} {p : Nat} (hon : (getPart s p).pstate ≠ .off) (hg : (partGate i r p s).isOk = true) :
    definable i r p s = .ok () := by
  rw [definable, guard'_holds (decide_eq_true hon)]
  exact eq_ok_of_isOk hg ()

/-- PF0 sees what every partition has, a VF what its own has (R51). -/
theorem not_hidden {p : Nat} (h : r.fn = 0 ∨ p = r.fn - 1) : ¬ (decide (r.fn ≠ 0) && decide (p ≠ r.fn - 1)) = true := by
  rw [Bool.and_eq_true, decide_eq_true_eq, decide_eq_true_eq]
  exact fun ⟨hvf, hother⟩ => h.elim hvf hother

/-! ### CLASS_SET, CLASS_READ and CLASS_DELETE -/

/-- The entry that CLASS_SET's payload spells (R271). -/
abbrev classEntry (r : Req) : ContractClass := classOf (r.payload.drop 0x10)

/-- A class's new entry with the tags that it had (R271). -/
def ContractClass.changedTo (x y : ContractClass) : ContractClass :=
  { y with start := x.start, finish := x.finish, vtime := x.vtime, backlogged := x.backlogged }

theorem classSet_inRange (hc : r.f 0 2 < 4096) (hr : classInRange (classEntry r) = true) :
    (decide (r.f 0 2 < 4096) && classInRange (classEntry r)) = true := by
  rw [decide_eq_true hc, hr]
  rfl

section
variable (hc : r.f 0 2 < 4096) (hr : classInRange (classEntry r) = true)
  (hon : (getPart s (classEntry r).partition).pstate ≠ .off)
  (hg : (partGate opClassSet r (classEntry r).partition s).isOk = true)
  (hm : meterFits s (classEntry r).partition (classEntry r).meter = true)
include hc hr hon hg hm

/-- An unused number becomes a class, and its Gauge window opens (R271, R289). -/
theorem bodyClassSet_defines (hx : tget s.pla.classes (r.f 0 2) = none) :
    bodyClassSet m r s = .ok (openGauge (r.f 0 2) (classEntry r).windowS (setClass (r.f 0 2) (classEntry r) s)) := by
  rw [bodyClassSet, hx]
  dsimp only
  rw [guard'_holds (classSet_inRange hc hr), definable_ok hon hg, guard'_holds hm]
  rfl

/-- A class that no session names, or whose fixed fields stay, changes and keeps its tags; another window length closes the open
window and opens one (R271). -/
theorem bodyClassSet_changes {x : ContractClass} (hx : tget s.pla.classes (r.f 0 2) = some x)
    (hfree : classBound s (r.f 0 2) = 0 ∨ classFixed x (classEntry r) = true) :
    bodyClassSet m r s = .ok (if x.windowS ≠ (classEntry r).windowS then
        openGauge (r.f 0 2) (classEntry r).windowS
          (setClass (r.f 0 2) (x.changedTo (classEntry r)) (closeEarly (r.f 0 2) false false s.ct s))
      else setClass (r.f 0 2) (x.changedTo (classEntry r)) (rollGauge (r.f 0 2) s)) := by
  have hkept : (decide (classBound s (r.f 0 2) = 0) || classFixed x (classEntry r)) = true := by
    rwa [Bool.or_eq_true, decide_eq_true_eq]
  rw [bodyClassSet, hx]
  dsimp only
  rw [guard'_holds (classSet_inRange hc hr), definable_ok hon hg, guard'_holds hm, guard'_holds hkept]
  by_cases hw : x.windowS ≠ (classEntry r).windowS
  · simp only [if_pos hw]
    rfl
  · simp only [if_neg hw]
    rfl

end

theorem bodyClassRead_seen {x : ContractClass} (hc : r.f 0 2 ≤ 4095) (hx : tget s.pla.classes (r.f 0 2) = some x)
    (hp : r.fn = 0 ∨ x.partition = r.fn - 1) :
    bodyClassRead m r s = .ok s (classBytes x ++ u64 x.start ++ u64 x.finish ++ u64 x.vtime
      ++ u32 (classBound s (r.f 0 2)) ++ u32 (backlogged s (r.f 0 2)).length) := by
  rw [bodyClassRead, if_neg (Nat.not_lt.mpr hc), hx]
  exact if_neg (not_hidden hp)

/-- A class that no session names goes, and its open window yields the final report (R294, R302). -/
theorem bodyClassDelete_unbound {x : ContractClass} (hc : r.f 0 2 < 4096) (hx : tget s.pla.classes (r.f 0 2) = some x)
    (hg : (partGate opClassDelete r x.partition s).isOk = true) (hb : classBound s (r.f 0 2) = 0) :
    bodyClassDelete m r s =
      (let w := closeEarly (r.f 0 2) false true s.ct (closeEnding (r.f 0 2) (rollGauge (r.f 0 2) s))
      .ok { w with pla := { w.pla with classes := tdel w.pla.classes (r.f 0 2) } }) := by
  rw [bodyClassDelete]
  dsimp only
  rw [hx]
  dsimp only
  rw [guard'_holds (decide_eq_true hc), eq_ok_of_isOk hg (), guard'_holds (decide_eq_true hb)]
  rfl

/-! ### METER_SET and METER_READ -/

/-- The meter `x` as METER_SET defines it: its rates and sizes, and its buckets full (R272). -/
def Meter.definedBy (r : Req) (ct : Nat) (x : Meter) : Meter :=
  { x with ctLast := ct, aware := bit (r.f 8 4) 30, partition := bits (r.f 8 4) 27 24, cir := r.f 0x0C 4, cbs := r.f 0x10 4,
           pir := r.f 0x14 4, pbs := r.f 0x18 4, tc := r.f 0x10 4, tp := r.f 0x18 4 }

theorem meterSet_inRange (hk : r.f 0 2 ≤ 16383) (hm : r.f 2 1 ≤ 1) :
    ¬ (decide (16383 < r.f 0 2) || decide (1 < r.f 2 1)) = true := by
  simp only [Bool.or_eq_true, decide_eq_true_eq]
  omega

/-- With rates and sizes in range, and a place that is not another partition's meter in use, METER_SET defines the meter
(R272, R277). -/
theorem bodyMeterSet_defines (hk : r.f 0 2 ≤ 16383) (hmode : r.f 2 1 = 0) (hcir : r.f 0x0C 4 ≤ r.f 0x14 4)
    (hpir : r.f 0x14 4 ≠ 0) (hcbs : 1000 ≤ r.f 0x10 4) (hpbs : 1000 ≤ r.f 0x18 4)
    (hon : (getPart s (bits (r.f 8 4) 27 24)).pstate ≠ .off)
    (hg : (partGate opMeterSet r (bits (r.f 8 4) 27 24) s).isOk = true)
    (hold : ∀ x, tget s.pla.meters (r.f 0 2) = some x → x.partition = bits (r.f 8 4) 27 24 ∨ meterNamed s (r.f 0 2) = false)
    (haw : bit (r.f 8 4) 30 = true → awareCount s (r.f 0 2) < 64) :
    bodyMeterSet m r s = .ok { s with pla := { s.pla with
      meters := tset s.pla.meters (r.f 0 2) (((tget s.pla.meters (r.f 0 2)).getD {}).definedBy r s.ct) } } := by
  have hrange : (decide (r.f 0x0C 4 ≤ r.f 0x14 4) && decide (r.f 0x14 4 ≠ 0) && decide (1000 ≤ r.f 0x10 4)
      && decide (1000 ≤ r.f 0x18 4)) = true := by
    rw [decide_eq_true hcir, decide_eq_true hpir, decide_eq_true hcbs, decide_eq_true hpbs]
    rfl
  have haware : (!bit (r.f 8 4) 30 || decide (awareCount s (r.f 0 2) < 64)) = true := by
    rw [Bool.or_eq_true, Bool.not_eq_true', decide_eq_true_eq]
    exact (Bool.eq_false_or_eq_true (bit (r.f 8 4) 30)).symm.imp_right haw
  rw [bodyMeterSet]
  dsimp only
  rw [if_neg (meterSet_inRange hk (by omega)), if_neg (by omega), guard'_holds hrange, definable_ok hon hg]
  cases hx : tget s.pla.meters (r.f 0 2) with
  | none =>
    dsimp only
    rw [guard'_holds haware]
    rfl
  | some x =>
    have hplace : (decide (x.partition = bits (r.f 8 4) 27 24) || !meterNamed s (r.f 0 2)) = true := by
      rw [Bool.or_eq_true, Bool.not_eq_true', decide_eq_true_eq]
      exact hold x hx
    dsimp only
    rw [guard'_holds hplace, guard'_holds haware]
    rfl

theorem bodyMeterSet_deletes {x : Meter} (hk : r.f 0 2 ≤ 16383) (hmode : r.f 2 1 = 1)
    (hx : tget s.pla.meters (r.f 0 2) = some x) (hg : (partGate opMeterSet r x.partition s).isOk = true)
    (hn : meterNamed s (r.f 0 2) = false) :
    bodyMeterSet m r s = .ok { s with pla := { s.pla with meters := tdel s.pla.meters (r.f 0 2) } } := by
  rw [bodyMeterSet]
  dsimp only
  rw [if_neg (meterSet_inRange hk (Nat.le_of_eq hmode)), if_pos hmode, hx]
  dsimp only
  rw [eq_ok_of_isOk hg (), hn]
  rfl

theorem bodyMeterRead_seen {x : Meter} (hk : r.f 0 2 ≤ 16383) (hx : tget s.pla.meters (r.f 0 2) = some x)
    (hp : r.fn = 0 ∨ x.partition = r.fn - 1) :
    bodyMeterRead m r s =
      .ok { s with pla := { s.pla with meters := tset s.pla.meters (r.f 0 2) (x.refill s.ct) } }
        (meterBytes (x.refill s.ct)) := by
  rw [bodyMeterRead]
  dsimp only
  rw [if_neg (Nat.not_lt.mpr hk), hx]
  exact if_neg (not_hidden hp)

/-! ### PARTITION_SHARE and PLA_QUEUE_READ -/

theorem bodyPartitionShare_sets (hw : r.f 2 2 ≠ 0) (hg : (partGate opPartitionShare r (r.f 0 1) s).isOk = true)
    (hm : meterFits s (r.f 0 1) (r.f 6 2) = true) :
    bodyPartitionShare m r s = .ok (setShare (r.f 0 1)
      { getShare s (r.f 0 1) with weight := r.f 2 2, fairLag := r.f 4 2, meter := r.f 6 2 } s) := by
  rw [bodyPartitionShare]
  dsimp only
  rw [guard'_holds (decide_eq_true hw), eq_ok_of_isOk hg (), guard'_holds hm]
  rfl

theorem bodyPlaQueueRead_active {x : Session} (hl : locate r s (r.f 0 8) = .here (.active x)) (hf : x.st ≠ .faulted) :
    bodyPlaQueueRead m r s = .ok s (u64 x.q.start ++ u64 x.q.finish ++ u64 x.q.ctCredit ++ u64 x.q.ctBacklog) := by
  rw [bodyPlaQueueRead, onSession_here hl]
  exact if_neg hf

end

/-- Settles O20: the checks of each command pass (`definable_ok`, `guard'_holds`), so its effect runs (`body…`); CLASS_SET and
PARTITION_SHARE are rows after which the device settles. -/
theorem classesMetersAndShares : Obligations.ClassesMetersAndShares := by
  refine ⟨?define, ?change, ?read, ?delete, ?meterSet, ?meterDelete, ?meterRead, ?share, ?queue⟩
  case define =>
    exact fun m r s hs hc hr hon hg hm hx => congrArg Host.Outcome.next
      (runSettled_ended hs (bodyClassSet_defines hc hr hon hg hm hx))
  case change =>
    exact fun m r s x hs hc hr hon hg hm hx hfree => congrArg Host.Outcome.next
      (runSettled_ended hs (bodyClassSet_changes hc hr hon hg hm hx hfree))
  case read =>
    exact fun m r s x hs hc hx hp => congrArg Host.Outcome.next (runCommand_ended hs (bodyClassRead_seen hc hx hp))
  case delete =>
    exact fun m r s x hs hc hx hg hb => congrArg Host.Outcome.next (runCommand_ended hs (bodyClassDelete_unbound hc hx hg hb))
  case meterSet =>
    exact fun m r s hs hk hmode hcir hpir hcbs hpbs hon hg hold haw => congrArg Host.Outcome.next
      (runCommand_ended hs (bodyMeterSet_defines hk hmode hcir hpir hcbs hpbs hon hg hold haw))
  case meterDelete =>
    exact fun m r s x hs hk hmode hx hg hn => congrArg Host.Outcome.next
      (runCommand_ended hs (bodyMeterSet_deletes hk hmode hx hg hn))
  case meterRead =>
    exact fun m r s x hs hk hx hp => congrArg Host.Outcome.next (runCommand_ended hs (bodyMeterRead_seen hk hx hp))
  case share =>
    exact fun m r s hs hw hg hm => congrArg Host.Outcome.next (runSettled_ended hs (bodyPartitionShare_sets hw hg hm))
  case queue =>
    exact fun m r s x hs hl hf => congrArg Host.Outcome.next (runCommand_ended hs (bodyPlaQueueRead_active hl hf))

end Sys2Proof.Machine
end

section
/-! Stream rings and their writer, and the Gauge: reports, samples, windows and their signing (R283, R284, R286, R289, R293 to
R295, R302). -/

namespace Sys2Proof.Machine

/-! ### STREAM_RING_SET -/

section
variable {m : Moment} {r : Req} {s : State}

/-- The key of the ring that STREAM_RING_SET names (R284). -/
def ringNamed (r : Req) : Nat := ringKey r.part16 (r.f 0 2)

/-- The ring that STREAM_RING_SET configures, with the spill buffer of the one that it takes the place of (R284). -/
def ringSet (r : Req) (old : Option StreamRing) : StreamRing :=
  { kind := r.f 2 1, log2 := r.f 3 1, base := r.f 8 8, consAddr := r.f 0x10 8, conn := r.f 0x18 4, key := r.f 0x1C 4,
    vector := r.f 0x20 2, fn := r.fn, spill := (old.map (·.spill)).getD [], reserved := (old.map (·.reserved)).getD 0 }

/-- What is on its way to ring `k` no longer counts for it (R286, R302). -/
def forgetRing (k : Nat) (s : State) : State := dropMsgs (.stream k) (dropMsgs (.ringZero k) (dropMsgs (.cons k) s))

/-- A ring is in use while a session targets it or its spill buffer holds a record (R284). -/
def ringInUse (r : Req) (s : State) : Bool :=
  ringTargeted s r.part16 (r.f 0 2) || (getRing s (ringNamed r)).any (fun x => !x.spill.isEmpty)

theorem streamRingSet_inRange (hn : r.f 0 2 ≤ 1023) (hk : r.f 2 1 ≤ 2) :
    ¬ (decide (1023 < r.f 0 2) || decide (2 < r.f 2 1)) = true := by
  simp only [Bool.or_eq_true, decide_eq_true_eq]
  omega

/-- A ring that is not in use, or is FAULTED, is configured: the size, the addresses and the vector are in range, and a new ring's
spill buffer has its place (R284). -/
theorem bodyStreamRingSet_configures (hn : r.f 0 2 ≤ 1023) (hk : r.f 2 1 = 1 ∨ r.f 2 1 = 2) (hlo : 6 ≤ r.f 3 1)
    (hhi : r.f 3 1 ≤ 20) (hbase : r.f 8 8 % 4096 = 0) (hcons : r.f 0x10 8 % 16 = 0)
    (hvec : r.f 0x20 2 < 2048 ∨ r.f 0x20 2 = 0xFFFF)
    (hfree : ringInUse r s = false ∨ (getRing s (ringNamed r)).any (·.faulted) = true)
    (hroom : (getRing s (ringNamed r)).isSome = true ∨ takenBytes s r.part16 1 + 16384 * 64 ≤ partBytes s r.part16 1) :
    bodyStreamRingSet m r s = .ok (zeroProduced (ringNamed r) (ringSet r (getRing s (ringNamed r)))
      (setRing (ringNamed r) (ringSet r (getRing s (ringNamed r))) (forgetRing (ringNamed r) s))) := by
  have hkind : ¬ r.f 2 1 = 0 := by omega
  have hform : ¬ (decide (r.f 3 1 < 6) || decide (20 < r.f 3 1) || decide (r.f 8 8 % 4096 ≠ 0) || decide (r.f 0x10 8 % 16 ≠ 0)
      || (decide (2048 ≤ r.f 0x20 2) && decide (r.f 0x20 2 ≠ 0xFFFF))) = true := by
    simp only [Bool.or_eq_true, Bool.and_eq_true, decide_eq_true_eq]
    omega
  have hunused : ¬ (ringInUse r s && !(getRing s (ringNamed r)).any (·.faulted)) = true := by
    rw [Bool.and_eq_true, Bool.not_eq_true']
    rintro ⟨hb, hf⟩
    rcases hfree with h | h
    · rw [hb] at h; cases h
    · rw [hf] at h; cases h
  have hplace : ¬ ((getRing s (ringNamed r)).isNone
      && decide (partBytes s r.part16 1 < takenBytes s r.part16 1 + 16384 * 64)) = true := by
    rw [Bool.and_eq_true, decide_eq_true_eq, Option.isNone_iff_eq_none]
    rintro ⟨hnone, hlt⟩
    rcases hroom with h | h
    · rw [hnone] at h; cases h
    · omega
  rw [bodyStreamRingSet]
  exact (if_neg (streamRingSet_inRange hn (by omega))).trans
    ((if_neg hkind).trans ((if_neg hform).trans ((if_neg hunused).trans (if_neg hplace))))

theorem bodyStreamRingSet_deletes (hn : r.f 0 2 ≤ 1023) (hk : r.f 2 1 = 0) (ht : ringTargeted s r.part16 (r.f 0 2) = false)
    (he : (getRing s (ringNamed r)).all (fun x => x.spill.isEmpty) = true) :
    bodyStreamRingSet m r s =
      .ok (forgetRing (ringNamed r) { s with pla := { s.pla with rings := tdel s.pla.rings (ringNamed r) } }) := by
  have hunused : ¬ ringInUse r s = true := by
    rw [ringInUse, ht, Bool.false_or, Option.any_eq_true_iff_get]
    rintro ⟨x, hx⟩
    rw [(Option.all_eq_true _ _).mp he _ (Option.some_get x).symm] at hx
    cases hx
  rw [bodyStreamRingSet]
  exact (if_neg (streamRingSet_inRange hn (by omega))).trans ((if_pos hk).trans (if_neg hunused))

end

/-! ### The writer -/

section
variable {p n k i : Nat} {x : StreamRing} {rec : StreamRec} {q : Qp} {s : State}

/-- A ring that has been stored is the one that is read. -/
theorem getRing_setRing : getRing (setRing k x s) k = some x := tget_tset_self _ _ _

/-- The ready record of a ring leaves when it is the turn of the ring's partition, which is charged (R283, R286). -/
theorem streamRecordWrite_turn (hx : getRing s (ringKey p n) = some x) (hr : ringReady s (ringKey p n) x = some rec)
    (ht : nextPartition .stream (streamParts (wakeParts .stream (streamParts s) s)) (wakeParts .stream (streamParts s) s)
      = some p) :
    streamRecordWrite p n s =
      (let v := wakeParts .stream (streamParts s) s
      chargeStream p (if x.kind = 1 then hostRecord (ringKey p n) x rec v else remoteRecord (ringKey p n) x rec v)) := by
  simp only [streamRecordWrite, hx, hr, ht, ne_eq, not_true, if_false]

/-- A record that the host's memory takes is written, then the produced count (R286). -/
theorem hostRecord_written (ha : hostErr s (x.base + 64 * (x.prod % 2 ^ x.log2)) 64 = none)
    (hc : hostErr s (x.consAddr + 8) 8 = none) :
    hostRecord k x rec s = ringSent k (hostWrite (x.consAddr + 8) (u64 ((x.prod + 1) % 2 ^ 64))
      (hostWrite (x.base + 64 * (x.prod % 2 ^ x.log2)) (recordBytes s.ct x.prod x.log2 rec) s)) := by
  rw [hostRecord]
  dsimp only
  rw [ha]
  dsimp only
  rw [show hostErr (hostWrite _ _ s) (x.consAddr + 8) 8 = none from hc]

/-- The sealed write that takes a record, and then the produced count, to a remote ring (R284, R359). -/
def sealedRecord (i k : Nat) (x : StreamRing) (rec : StreamRec) (s : State) : Except Nat State :=
  gxWrite i { owner := .stream k, lastPsn := 0 } x.key (x.base + 64 * (x.prod % 2 ^ x.log2)) (recordBytes s.ct x.prod x.log2 rec)
    { payload := u64 ((x.prod + 1) % 2 ^ 64), off := x.consAddr + 8 } s

theorem remoteRecord_sent (hq : qpOf s x.conn = some (i, q)) (hw : (sealedRecord i k x rec s).isOk = true) :
    remoteRecord k x rec s = (sealedRecord i k x rec s).toOption.getD s := by
  rw [sealedRecord] at hw ⊢
  rw [remoteRecord, hq]
  dsimp only
  conv => lhs; rw [eq_ok_of_isOk hw s]

/-! ### The read of a consumed count -/

/-- The state in which ring `k`'s consumed count is read: the time of the read is kept (R286). -/
def consDue (k : Nat) (x : StreamRing) (s : State) : State := setRing k { x with consCt := some s.ct } s

/-- The GX read of a remote ring's consumed count (R360). -/
def consRequest (i k : Nat) (x : StreamRing) (s : State) : Except Nat State :=
  gxRead i { owner := .cons k, lastPsn := 0 } x.key x.consAddr 8 s

/-- A ring that seems full and whose count was not read within `gap` has it read now (R286). -/
theorem ring_readsCons {gap ct : Nat} (hf : x.faulted = false) (he : x.spill.isEmpty = false) (hfull : 2 ^ x.log2 ≤ x.used)
    (hct : x.consCt.all (fun c => decide (c + gap ≤ ct)) = true) :
    ¬ (x.faulted || x.spill.isEmpty || decide (x.used < 2 ^ x.log2) || x.consCt.any (fun c => decide (ct < c + gap))) = true := by
  have hlate : x.consCt.any (fun c => decide (ct < c + gap)) = false := by
    cases hc : x.consCt with
    | none => rfl
    | some c =>
      rw [hc] at hct
      exact decide_eq_false (Nat.not_lt.mpr (of_decide_eq_true hct))
  rw [hf, he, decide_eq_false (Nat.not_lt.mpr hfull), hlate]
  decide

/-- A count that a correct consumer can have counts (R284). -/
theorem consGot_counts {v : Nat} (hx : getRing s k = some x) (hv : (x.prod + 2 ^ 64 - v) % 2 ^ 64 ≤ 2 ^ x.log2) :
    consGot k v s = setRing k { x with cons := v } s := by
  rw [consGot, hx]
  exact if_neg (Nat.not_lt.mpr hv)

section
variable (hx : getRing s (ringKey p n) = some x) (hf : x.faulted = false) (he : x.spill.isEmpty = false)
  (hfull : 2 ^ x.log2 ≤ x.used)
include hx hf he hfull

/-- A host ring's count is read at once (R286). -/
theorem streamConsRead_host (hk : x.kind = 1) (hct : x.consCt.all (fun c => decide (c + 1000 ≤ s.ct)) = true)
    (herr : hostErr s x.consAddr 8 = none)
    (hv : (x.prod + 2 ^ 64 - field (hostRead s x.consAddr 8) 0 8) % 2 ^ 64 ≤ 2 ^ x.log2) :
    streamConsRead p n s = setRing (ringKey p n) { x with consCt := some s.ct, cons := field (hostRead s x.consAddr 8) 0 8 }
      (consDue (ringKey p n) x s) := by
  rw [streamConsRead]
  dsimp only
  rw [hx]
  dsimp only
  rw [if_pos hk, if_neg (ring_readsCons hf he hfull hct), if_pos hk,
    show hostErr (setRing (ringKey p n) { x with consCt := some s.ct } s) x.consAddr 8 = none from herr]
  exact consGot_counts getRing_setRing hv

/-- A remote ring's count is asked for by a GX read (R360). -/
theorem streamConsRead_remote (hk : x.kind = 2) (hct : x.consCt.all (fun c => decide (c + 5000 ≤ s.ct)) = true)
    (hm : msgOf (consDue (ringKey p n) x s) (.cons (ringKey p n)) = none)
    (hq : qpOf (consDue (ringKey p n) x s) x.conn = some (i, q))
    (hw : (consRequest i (ringKey p n) x (consDue (ringKey p n) x s)).isOk = true) :
    streamConsRead p n s =
      (consRequest i (ringKey p n) x (consDue (ringKey p n) x s)).toOption.getD (consDue (ringKey p n) x s) := by
  have hremote : ¬ x.kind = 1 := by omega
  simp only [consRequest, consDue] at hm hq hw ⊢
  rw [streamConsRead]
  dsimp only
  rw [hx]
  dsimp only
  rw [if_neg hremote, if_neg (ring_readsCons hf he hfull hct), if_neg hremote, hm, hq]
  dsimp only
  rw [if_neg (by decide)]
  conv => lhs; rw [eq_ok_of_isOk hw (setRing (ringKey p n) { x with consCt := some s.ct } s)]

end

end

/-! ### GAUGE_REPORT and GAUGE_CONFIG -/

section
variable {m : Moment} {r : Req} {s : State} {g : GaugeClass} {x : Report}

/-- The report that GAUGE_REPORT asks for, of those that a class holds: the newest, or the one of a number (R294). -/
def GaugeClass.asked (g : GaugeClass) (r : Req) : Option Report :=
  if r.f 2 1 = 0 then g.reports.getLast? else g.reports.find? (fun x => x.seq = r.f 8 8)

theorem bodyGaugeReport_held {l : List SgEntry} (hn : carried r = false) (hc : r.f 0 2 ≤ 4095) (hk : r.f 2 1 ≤ 1)
    (hg : getGauge s (r.f 0 2) = some g) (hx : g.asked r = some x) (hp : r.fn = 0 ∨ field x.body 6 1 = r.fn - 1)
    (hl : (sgCover r 8496 s).toOption = some l) (hw : (sgWrite l x.body s).2 = none) :
    bodyGaugeReport m r s = .ok (sgWrite l x.body s).1 := by
  have hrange : ¬ (decide (4095 < r.f 0 2) || decide (1 < r.f 2 1)) = true := by
    simp only [Bool.or_eq_true, decide_eq_true_eq]
    omega
  rw [GaugeClass.asked] at hx
  rw [bodyGaugeReport]
  dsimp only
  rw [if_neg hrange, hg]
  dsimp only
  rw [hx]
  exact (if_neg (not_hidden hp)).trans (replyData_list hn hl hw)

/-- The Gauge with another sample_period, and with its largest depths cleared where the request says so (R295, R302). -/
def gaugeConfigured (r : Req) (g : Gauge) : Gauge :=
  if r.f 4 1 = 1 then
    { g with period := r.f 0 4, fdyMax := 0, raiseMax := 0, shearMax := 0,
             parts := g.parts.map (fun e => (e.1, { e.2 with fdyMax := 0, raiseMax := 0, shearMax := 0 })) }
  else { g with period := r.f 0 4 }

theorem bodyGaugeConfig_inRange (hlo : 10000 ≤ r.f 0 4) (hhi : r.f 0 4 ≤ 10000000) (hc : r.f 4 1 ≤ 1) :
    bodyGaugeConfig m r s = .ok { s with gau := gaugeConfigured r s.gau } := by
  refine if_neg ?_
  simp only [Bool.or_eq_true, decide_eq_true_eq]
  omega

end

/-! ### Samples, windows and signing -/

section
variable {m : Moment} {s : State}

theorem exec_gaugeSample_due (h : (s.at m).ct % max 1 (s.at m).gau.period = 0) :
    exec (.gaugeSample m) s = .next (sampleQueues (sampleParts
      ((tkeys (s.at m).pla.classes).foldl (fun s c => sampleClass c s) (s.at m)))) :=
  if_neg (not_not_intro h)

/-- A class's window that has ended closes with its report (R289, R291). -/
theorem closeEnding_ended {c : Nat} {g : GaugeClass} {w : Window} (hg : getGauge s c = some g) (he : g.ending = some w) :
    closeEnding c s = closeReport c w false (setGauge c { g with ending := none } s) := by
  rw [closeEnding, hg]
  dsimp only
  rw [he]

/-- 2 ms after its end a window closes (R289). -/
theorem exec_gaugeWindowClose_due {cls : Nat} {g : GaugeClass} {w : Window} (hg : getGauge (rollGauge cls (s.at m)) cls = some g)
    (he : g.ending = some w) (hd : w.stop + 2000000 ≤ (rollGauge cls (s.at m)).ct) :
    exec (.gaugeWindowClose m cls) s =
      .next (closeReport cls w false (setGauge cls { g with ending := none } (rollGauge cls (s.at m)))) := by
  change execGaugeWindowClose m cls s = _
  rw [execGaugeWindowClose, hg]
  dsimp only
  rw [he]
  exact congrArg Host.Outcome.next ((if_pos hd).trans (closeEnding_ended hg he))

/-- The signed report `z`, counted, stored and told, with `rest` left to sign (R293, R294). -/
def reportDone (z : Report) (rest : List Report) (s : State) : State :=
  reportEvents z (field z.body 6 1) (storeReport z (bump .gauReports (field z.body 6 1) 1
    { s with gau := { s.gau with toSign := rest, reports := s.gau.reports + 1 } }))

/-- The oldest closed report is signed; the final one takes its class's record with it (R293, R294). -/
theorem exec_reportSign_oldest {r : Report} {rest : List Report} (h : (s.at m).gau.toSign = r :: rest) :
    exec (.reportSign m) s = .next (if r.final then dropGauge r.cls (reportDone (r.signed (s.at m)) rest (s.at m))
      else reportDone (r.signed (s.at m)) rest (s.at m)) := by
  change execReportSign m s = _
  rw [execReportSign]
  dsimp only
  rw [h]
  rfl

end

/-- Settles O21: STREAM_RING_SET's checks pass and its ring is set or deleted; the writer serves the partition whose turn it is
(`streamRecordWrite_turn`) by `hostRecord_written` or `remoteRecord_sent`; a consumed count is read as the ring's kind says;
and the Gauge's rows answer or act as their own lemmas say. What the store of reports counts, and when a class's record goes, is log
entry 25. -/
theorem streamRingsAndTheGauge : Obligations.StreamRingsAndTheGauge := by
  refine ⟨?configure, ?delete, ?hostRing, ?remoteRing, ?hostCons, ?remoteCons, ?report, ?config, ?sample, ?close, ?sign⟩
  case configure =>
    exact fun m r s hs hn hk hlo hhi hbase hcons hvec hfree hroom => congrArg Host.Outcome.next
      (runSettled_ended hs (bodyStreamRingSet_configures hn hk hlo hhi hbase hcons hvec hfree hroom))
  case delete =>
    exact fun m r s hs hn hk ht he => congrArg Host.Outcome.next
      (runSettled_ended hs (bodyStreamRingSet_deletes hn hk ht he))
  case hostRing =>
    exact fun m p n x rec s hx hr ht hk ha hc => next_settleAll m ((streamRecordWrite_turn hx hr ht).trans
      (congrArg (chargeStream p) ((if_pos hk).trans (hostRecord_written ha hc))))
  case remoteRing =>
    exact fun m p n i x rec q s hx hr ht hk hq hw => next_settleAll m ((streamRecordWrite_turn hx hr ht).trans
      (congrArg (chargeStream p) ((if_neg (by omega)).trans (remoteRecord_sent hq hw))))
  case hostCons =>
    exact fun m p n x s hx hf he hfull hk hct herr hv => next_settleAll m
      (streamConsRead_host hx hf he hfull hk hct herr hv)
  case remoteCons =>
    exact fun m p n i x q s hx hf he hfull hk hct hm hq hw => next_settleAll m
      (streamConsRead_remote hx hf he hfull hk hct hm hq hw)
  case report =>
    exact fun m r s g x l hs hc hk hg hx hp hl hw => congrArg Host.Outcome.next
      (runCommand_ended hs (bodyGaugeReport_held (serves_not_carried hs) hc hk hg hx hp hl hw))
  case config =>
    exact fun m r s hs hlo hhi hc => congrArg Host.Outcome.next (runCommand_ended hs (bodyGaugeConfig_inRange hlo hhi hc))
  case sample => exact fun m s h => exec_gaugeSample_due h
  case close => exact fun m cls g w s hg he hd => exec_gaugeWindowClose_due hg he hd
  case sign => exact fun m r rest s h => exec_reportSign_oldest h

end Sys2Proof.Machine
end

section
/-! The Tally: an audit that is due, one that is delayed, the markers of the links, and the Tally's commands (R308, R309, R311,
R316). -/

namespace Sys2Proof.Machine

/-! ### The audit -/

section
variable {m : Moment} {s : State}

/-- The ledgers that an audit finds failing, each with the check that fails (R308, R312). -/
def auditFailures (s : State) : List (Nat × Nat) :=
  (auditKeys s).filterMap (fun k => (auditFails s (k / 2 ^ 32) (k % 2 ^ 32)).map (fun c => (k, c)))

/-- The state that an audit leaves, before it is noted as running: the evidence of the failing ledgers is written, the epoch is closed
and the markers are placed (R308, R309, R312). -/
def audited (s : State) : State :=
  (List.range 7).foldl (fun t n => placeMarkers s.ct n t)
    (closeEpoch ((auditFailures s).foldl (fun t e => breach (e.1 / 2 ^ 32) (e.1 % 2 ^ 32) e.2 s.ct t) s))

/-- The audit at `ct` is noted as running, for as long as the moment picks (R308; log entry 2). -/
def auditNoted (m : Moment) (ct : Nat) (s : State) : State :=
  { s with tly := { s.tly with auditing := some ct, auditEnd := ct + m.choice.getD 0 0, delayed := false } }

theorem audit_eq : audit m s = auditNoted m s.ct (audited s) := by
  simp only [audit, auditNoted, audited, auditFailures]

/-- No audit runs, and one is due or has been delayed (R308). -/
theorem tallyAudit_starts (hb : 7 ≤ s.bench.bootPhase) (ha : (countAudit s).tly.auditing = none)
    (hd : (countAudit s).ct % 100000 = 0 ∨ (countAudit s).tly.delayed = true) :
    tallyAudit m s = auditNoted m (countAudit s).ct (audited (countAudit s)) := by
  have hdue : (decide ((countAudit s).ct % 100000 = 0) || (countAudit s).tly.delayed) = true := by
    simpa only [Bool.or_eq_true, decide_eq_true_eq] using hd
  refine (if_neg (Nat.not_lt.mpr hb)).trans ?_
  rw [ha]
  exact (if_pos hdue).trans audit_eq

/-- An audit ct comes while the audit of `ct` still runs (R308, R315). -/
theorem tallyAudit_overruns {ct : Nat} (hb : 7 ≤ s.bench.bootPhase) (ha : (countAudit s).tly.auditing = some ct)
    (hd : (countAudit s).ct % 100000 = 0) (hn : (countAudit s).tly.delayed = false) :
    tallyAudit m s = delayAudit ct (countAudit s) := by
  have hdue : (decide ((countAudit s).ct % 100000 = 0) && !(countAudit s).tly.delayed) = true := by
    rw [hn, decide_eq_true hd]
    rfl
  refine (if_neg (Nat.not_lt.mpr hb)).trans ?_
  rw [ha]
  exact if_pos hdue

end

/-! ### The markers of the links -/

section
variable {m : Moment} {s : State} {link vc ct : Nat}

/-- The marker of an audit on a channel is no longer expected (R309). -/
def markerCame (link vc ct : Nat) (s : State) : State :=
  { s with tly := { s.tly with markers := s.tly.markers.filter (fun y => !(y.link = link && y.vc = vc && y.ct = ct)) } }

theorem exec_swlMarkerReceive_up {x : MarkerCounts} (hu : (getLink (s.at m) link).up = true) (hv : vc ≤ 3) :
    exec (.swlMarkerReceive m link vc ct x) s = .next
      (if (getLink (s.at m) link).received.getD vc 0 = x.sent && (getLink (s.at m) link).creditsIn.getD vc 0 = x.returned then
        markerCame link vc ct (s.at m)
      else breach Lg.swilan (swlInst link vc) 2 ct (markerCame link vc ct (s.at m))) := by
  have hopen : ¬ (!(getLink (s.at m) link).up || decide (3 < vc)) = true := by
    rw [hu, decide_eq_false (Nat.not_lt.mpr hv)]
    decide
  exact if_neg hopen

theorem exec_swlMarkerTimeout_due
    (hx : (s.at m).tly.markers.any (fun x => x.link = link && x.vc = vc && x.ct = ct) = true) (ht : ct + 1000000 ≤ (s.at m).ct) :
    exec (.swlMarkerTimeout m link vc ct) s =
      .next (breach Lg.swilan (swlInst link vc) 2 ct (markerCame link vc ct (s.at m))) :=
  if_pos ((Bool.and_eq_true _ _).mpr ⟨hx, decide_eq_true ht⟩)

end

/-! ### TLY_READ, TLY_EVIDENCE and TLY_CONFIG -/

section
variable {m : Moment} {r : Req} {s : State} {b : Bytes}

/-- What TLY_READ answers of a ledger: its columns, its last epoch's differences and whether it is saturated (R311, R316). -/
def ledgerBytes (l : Ledger) : Bytes :=
  (takeD 8 0 l.cols).flatMap u64 ++ (takeD 8 0 l.delta).flatMap (fun d => u64 (ofSigned 64 d)) ++ u32 (b2n l.sat)

theorem bodyTlyRead_reached (hx : instExists s (r.f 0 1) (r.f 4 4) = true)
    (hr : r.reaches (instPart s (r.f 0 1) (r.f 4 4)) = true) :
    bodyTlyRead m r s = .ok s (ledgerBytes (getLedger s (r.f 0 1) (r.f 4 4))) := by
  have hreads : ¬ (!instExists s (r.f 0 1) (r.f 4 4) || !r.reaches (instPart s (r.f 0 1) (r.f 4 4))) = true := by
    rw [hx, hr]
    decide
  exact if_neg hreads

/-- A record that is held is answered, at the output's head or through the list (R316; log entry 43). -/
theorem bodyTlyEvidence_held (hi : r.f 0 1 ≤ 7) (hb : s.err.evidence[r.f 0 1]? = some b) :
    bodyTlyEvidence m r s = if r.hdr.sgCount = 0 then .ok s (b.take 3968) else replyData r b.length b [] s := by
  refine (if_neg (Nat.not_lt.mpr hi)).trans ?_
  rw [hb]

theorem bodyTlyEvidence_head (hi : r.f 0 1 ≤ 7) (hb : s.err.evidence[r.f 0 1]? = some b) (hn : r.hdr.sgCount = 0) :
    bodyTlyEvidence m r s = .ok s (b.take 3968) :=
  (bodyTlyEvidence_held hi hb).trans (if_pos hn)

theorem bodyTlyEvidence_written {l : List SgEntry} (hc : carried r = false) (hi : r.f 0 1 ≤ 7)
    (hb : s.err.evidence[r.f 0 1]? = some b) (hn : r.hdr.sgCount ≠ 0) (hl : (sgCover r b.length s).toOption = some l)
    (hw : (sgWrite l b s).2 = none) : bodyTlyEvidence m r s = .ok (sgWrite l b s).1 :=
  (bodyTlyEvidence_held hi hb).trans ((if_neg hn).trans (replyData_list hc hl hw))

theorem bodyTlyConfig_allowed (hv : r.f 0 1 = 0 ∨ r.f 0 1 = 1 ∧ s.hmk.production = false) :
    bodyTlyConfig m r s = .ok { s with tly := { s.tly with reportOnly := r.f 0 1 = 1 } } := by
  have hrange : ¬ 1 < r.f 0 1 := by omega
  have hopen : ¬ (decide (r.f 0 1 = 1) && s.hmk.production) = true := by
    rw [Bool.and_eq_true, decide_eq_true_eq]
    rintro ⟨hone, hprod⟩
    rcases hv with hzero | ⟨-, hnot⟩
    · omega
    · rw [hprod] at hnot
      cases hnot
  exact (if_neg hrange).trans (if_neg hopen)

end

/-- Settles O22: an audit starts (`tallyAudit_starts`) or is delayed (`tallyAudit_overruns`), a marker comes or is missed, and the
three commands answer as their own lemmas say. The counts in a marker are log entry 38, the place of TLY_EVIDENCE's output log
entry 43. -/
theorem theTallyAuditsAndAnswers : Obligations.TheTallyAuditsAndAnswers := by
  refine ⟨?starts, ?overruns, ?marker, ?missed, ?read, ?head, ?list, ?config⟩
  case starts =>
    intro m s u z fails v hb ha hd
    have h : tallyAudit m u = auditNoted m z.ct v := tallyAudit_starts hb ha hd
    exact congrArg Host.Outcome.next h
  case overruns => exact fun m ct s hb ha hd hn => congrArg Host.Outcome.next (tallyAudit_overruns hb ha hd hn)
  case marker => exact fun m link vc ct x s hu hv => exec_swlMarkerReceive_up hu hv
  case missed => exact fun m link vc ct s hx ht => exec_swlMarkerTimeout_due hx ht
  case read =>
    exact fun m r s hs hx hr => congrArg Host.Outcome.next (runCommand_ended hs (bodyTlyRead_reached hx hr))
  case head =>
    exact fun m r s b hs hi hb hn => congrArg Host.Outcome.next (runCommand_ended hs (bodyTlyEvidence_head hi hb hn))
  case list =>
    exact fun m r s b l hs hi hb hn hl hw => congrArg Host.Outcome.next
      (runCommand_ended hs (bodyTlyEvidence_written (serves_not_carried hs) hi hb hn hl hw))
  case config =>
    exact fun m r s hs hv => congrArg Host.Outcome.next (runCommand_ended hs (bodyTlyConfig_allowed hv))

end Sys2Proof.Machine
end

section
/-! Touchstone's commands on one index: its creation and its drop, inserts at once and long ones, deletes, queries of one shard and of
several, bulk batches, the read of an index and a repair (R317, R319, R321, R323, R326, R331, R333, R334). -/

namespace Sys2Proof.Machine

/-- A check that holds lets what follows it go on. -/
theorem check_passes {α : Type} {p : Bool} {fail next : α} (h : p = true) : (if !p then fail else next) = next := by
  rw [h]
  rfl

section
variable {m : Moment} {r : Req} {s : State} {x : Index} {d : Bytes}

/-- The request `r` reaches `x`, the index that it names, for the command `o`: the index is not being dropped, and its partition takes
the command (R51, R334). -/
structure IndexReached (o : OpInfo) (r : Req) (s : State) (x : Index) : Prop where
  named : getIndex s (r.f 0 1) = some x
  reaches : r.reaches x.partition = true
  kept : x.dropping = none
  admits : (partGate o r x.partition s).isOk = true

theorem IndexReached.onIndex {o : OpInfo} {k : Nat → Index → Reply} (h : IndexReached o r s x) :
    onIndex o r s k = k (r.f 0 1) x :=
  onIndex_here h.named h.reaches h.kept h.admits

/-! ### TCH_INDEX_CREATE and TCH_INDEX_DROP -/

/-- The centroids that a creation carries: one for each list of an IVF index (R330). -/
def centroidCount (r : Req) : Nat := if r.f 1 1 = 2 then r.f 0x0C 4 else 0

/-- The index that a creation's fields and centroids spell (R317). -/
def spelledIndex (r : Req) (d : Bytes) : Index :=
  { partition := r.part16, kind := r.f 1 1, tier := r.f 2 1, shardMask := r.f 3 1, bits := r.f 4 2, degree := r.f 6 1,
    build := r.f 8 2, lists := r.f 0x0C 4, capacity := r.f 0x10 8, timeout := r.f 0x18 4,
    centroids := codesOf (r.f 4 2) (centroidCount r) d }

/-- An unused number becomes an index whose fields are in range and which the chip's slots and the tier hold (R317, R319). -/
theorem bodyTchIndexCreate_fits (hf : indexFieldsOk r = true) (hnew : thas s.tch.indexes (r.f 0 1) = false)
    (hd : (inData r (centroidCount r * (r.f 4 2 / 8)) s).toOption = some d) (hfit : indexFits s (spelledIndex r d) = true) :
    bodyTchIndexCreate m r s = .ok (setIndex (r.f 0 1)
      { spelledIndex r d with
        extents := (placeUnits s r.part16 (r.f 2 1) (indexBytes (spelledIndex r d))).getD [] } s) :=
  (check_passes hf).trans ((if_neg (Bool.eq_false_iff.mp hnew)).trans ((withData_ok hd).trans (if_pos hfit)))

/-- A drop marks the index with its operation, by which new work is refused (R334). -/
theorem bodyTchIndexDrop_starts (hi : IndexReached opTchIndexDrop r s x) (ho : opRoom s r.fn = true) :
    bodyTchIndexDrop m r s = .wait (setIndex (r.f 0 1) { x with dropping := some s.bench.nextOp }
      (startOp r 1 5 x.items.length false [r.f 0 1] s).2) :=
  hi.onIndex.trans (asOp_room ho)

/-! ### TCH_INSERT -/

/-- The labels and codes of the `n` items that an insert's bytes hold, codes of `b` bits (R323). -/
def itemsIn (b n : Nat) (d : Bytes) : List (Nat × Nat) :=
  (List.range n).map (fun k => (field d (k * (8 + b / 8)) 8, field d (k * (8 + b / 8) + 8) (8 + b / 8 - 8)))

/-- What an insert of all its items comes to, once the inserts before it have taken effect: the slots, whether every item found one, and
the state (R28, R323). -/
def insertRun (m : Moment) (r : Req) (x : Index) (d : Bytes) (s : State) : List Nat × Bool × State :=
  insertAll m (r.f 0 1) 0 (itemsIn x.bits (r.f 4 4) d) (flushInserts m (r.f 0 1) s)

/-- An insert whose items are all in answers the slot and generation of each (R323). -/
def insertedBytes (i : Nat) (slots : List Nat) (s : State) : Bytes :=
  u32 slots.length
    ++ slots.flatMap (fun k => u32 k ++ u16 (((getIndex s i).map (fun x => slotGen x k)).getD 0) ++ zeros 2)

theorem insertReply_all {i : Nat} {slots : List Nat} {all : Bool} (h : all = true) :
    insertReply i slots all s = .ok s (insertedBytes i slots s) := by
  rw [h]
  rfl

section
variable (hi : IndexReached opTchInsert r s x) (hn : r.f 4 4 ≤ 495)
  (hd : (inData r (r.f 4 4 * (8 + x.bits / 8)) s).toOption = some d)
include hi hn hd

/-- Where the moment does not make it long, an insert that finds a slot for each item answers at once (R323; log entry 10). -/
theorem bodyTchInsert_now (hlong : insertLong m = false)
    (hall : (insertRun m r x d s).2.1 = true) :
    bodyTchInsert m r s =
      (let w := insertRun m r x d s
      .ok w.2.2 (insertedBytes (r.f 0 1) w.1 w.2.2)) := by
  refine hi.onIndex.trans ((if_neg (Nat.not_lt.mpr hn)).trans ((withData_ok hd).trans
    (Eq.trans ?_ (insertReply_all hall))))
  rw [hlong, insertRun, itemsIn]
  cases (List.range (r.f 4 4)).map _ with
  | nil => rfl
  | cons a rest => rfl

/-- Where the moment makes it long, an insert writes its first item and goes on as an operation with the rest (R323; log entry 10). -/
theorem bodyTchInsert_long {a : Nat × Nat} {v : State} {rest : List (Nat × Nat)} {slot : Nat} (hlong : insertLong m = true)
    (hitems : itemsIn x.bits (r.f 4 4) d = a :: rest)
    (hb : beginItem m 0 (r.f 0 1) a.1 a.2 (flushInserts m (r.f 0 1) s) = some (slot, v))
    (ho : opRoom (flushInserts m (r.f 0 1) s) r.fn = true) :
    bodyTchInsert m r s =
      (let w := startOp r 1 5 (r.f 4 4) true [r.f 0 1] v
      .wait { w.2 with tch := { w.2.tch with inserts := tset w.2.tch.inserts w.1 { index := r.f 0 1, slot, rest } } }) := by
  refine hi.onIndex.trans ((if_neg (Nat.not_lt.mpr hn)).trans ((withData_ok hd).trans ?_))
  rw [itemsIn] at hitems
  dsimp only
  rw [hitems, hlong]
  dsimp only
  rw [hb]
  exact if_pos ho

end

theorem endByKind_tchInsert {n : Nat} {o : LongOp} {ok : Bool} (h : o.opcode = 0x0902) :
    endByKind m n o ok s = endTchInsert m n s := by
  simp only [endByKind, h]

section
variable {n : Nat} {q : InsertJob} (hq : tget s.tch.inserts n = some q)
include hq

/-- The end of a long insert publishes the item that was INSERTING and inserts those that follow it (R321, R323). -/
theorem endTchInsert_publishes (hs : stopping s n = false) :
    endTchInsert m n s =
      (let w := insertAll m q.index 1 q.rest
        (publishItem q.index q.slot { s with tch := { s.tch with inserts := tdel s.tch.inserts n } })
      endReply n (insertReply q.index (q.slot :: w.1) w.2.1 w.2.2)) := by
  rw [endTchInsert, hq]
  exact if_neg (Bool.eq_false_iff.mp hs)

/-- A cancelled insert gives the slot of its first item back (R323). -/
theorem endTchInsert_cancelled (hs : stopping s n = true) :
    endTchInsert m n s = endOp n St.cancelled 0 []
      (abandonItem q.index q.slot { s with tch := { s.tch with inserts := tdel s.tch.inserts n } }) := by
  rw [endTchInsert, hq]
  exact if_pos hs

end

/-! ### TCH_DELETE -/

/-- A LIVE item of this chip, named by slot and generation, becomes a tombstone at the shard's next epoch, once the inserts before it
have taken effect (R321, R323). -/
theorem bodyTchDelete_live {y : Index} {a : Item} (hi : IndexReached opTchDelete r s x) (hc : r.f 1 1 = chip s)
    (hy : getIndex (flushInserts m (r.f 0 1) s) (r.f 0 1) = some y) (ha : tget y.items (r.f 4 4) = some a)
    (hgen : slotGen y (r.f 4 4) = r.f 2 2) (hlive : a.sstate = .live) :
    bodyTchDelete m r s =
      (let v := flushInserts m (r.f 0 1) s
      let e := shardEpoch v y
      .ok (setIndex (r.f 0 1)
        { y with floor := e, items := tset y.items (r.f 4 4) { a with del := e, sstate := .tombstone } } v) (u64 e)) := by
  have hmatch : ¬ (decide (slotGen y (r.f 4 4) ≠ r.f 2 2) || decide (a.sstate ≠ .live)) = true := by
    rw [hgen, hlive]
    simp only [ne_eq, not_true_eq_false, decide_false, Bool.or_self, Bool.false_eq_true, not_false_eq_true]
  refine hi.onIndex.trans ((if_pos hc).trans ?_)
  dsimp only
  rw [hy, Option.getD_some, ha]
  exact if_neg hmatch

/-! ### TCH_QUERY and TCH_BULK -/

/-- A query's search of this chip's shard, under a context (R326, R327, R330). -/
def queryShard (r : Req) (x : Index) (s : State) : List (List Hit) × State :=
  runShard (r.f 0 1) x [r.f 0x10 (x.bits / 8)] s.ct (r.f 2 2) (r.f 4 2) (r.f 6 2) (r.f 8 2) (bindContext s)

/-- A query's result: the number of hits, and each of them (R345). -/
def hitsBytes (l : List Hit) : Bytes := u16 l.length ++ zeros 6 ++ l.flatMap hitBytes

/-- A query that no shard is missing from answers its best hits, and is counted (R333, R342). -/
theorem queryReply_whole {q : Query} {p : Nat} (hm : q.missing = []) :
    queryReply q p s =
      if q.topK ≤ 247 then .ok (bump .tchQueries p 1 s) (hitsBytes ((q.hits.headD []).take q.topK))
      else replyData q.req (8 + 16 * q.topK) (hitsBytes ((q.hits.headD []).take q.topK)) [] (bump .tchQueries p 1 s) := by
  simp only [queryReply, noteMissing, hm, List.isEmpty_nil, Bool.not_true, Bool.and_false, if_true, if_false, Bool.false_eq_true,
    hitsBytes]

section
variable (hi : IndexReached opTchQuery r s x) (hf : queryFieldsOk r x = true) (hctx : contextFree s x.partition = true)
  (hlist : r.f 2 2 ≤ 247 ∨ (sgCover r (8 + 16 * r.f 2 2) s).isOk = true)
include hi hf hctx hlist

/-- With legal fields, a context and a list that holds what its largest result needs, a query is answered at once or starts its
operation (R326, R528; log entry 10). -/
theorem bodyTchQuery_accepted :
    bodyTchQuery m r s =
      if queryNow m s x then
        queryReply
          { index := r.f 0 1, req := r, snapshot := (queryShard r x s).2.ct, topK := r.f 2 2, hits := (queryShard r x s).1 }
          x.partition (freeContext (queryShard r x s).2)
      else asOp r s 1 5 0 true [s.tch.nextQ] fun n s => startQuery n (r.f 0 1) x r false (queryHeld m) [r.f 0x10 (x.bits / 8)]
        (r.f 2 2) (r.f 4 2) (r.f 6 2) (r.f 8 2) s := by
  have htested : (if (decide (247 < r.f 2 2) && !carried r) = true then (sgCover r (8 + 16 * r.f 2 2) s).map (fun _ => ())
      else .ok ()) = .ok () := by
    rcases hlist with hsmall | hcover
    · rw [decide_eq_false (Nat.not_lt.mpr hsmall)]
      rfl
    · rw [eq_ok_of_isOk hcover []]
      exact ite_self _
  refine hi.onIndex.trans ((check_passes hf).trans ((check_passes hctx).trans ?_))
  rw [htested]
  rfl

/-- Where the moment makes it long or other chips hold shards, a query goes on as an operation (R333; log entry 10). -/
theorem bodyTchQuery_starts (hnow : queryNow m s x = false) (ho : opRoom s r.fn = true) :
    bodyTchQuery m r s = .wait (startQuery s.bench.nextOp (r.f 0 1) x r false (queryHeld m) [r.f 0x10 (x.bits / 8)] (r.f 2 2)
      (r.f 4 2) (r.f 6 2) (r.f 8 2) (startOp r 1 5 0 true [s.tch.nextQ] s).2) :=
  (bodyTchQuery_accepted hi hf hctx hlist).trans ((if_neg (Bool.eq_false_iff.mp hnow)).trans (asOp_room ho))

/-- Else its result goes to the payload up to 247 hits, and through the list above that (R345). -/
theorem bodyTchQuery_now (hnow : queryNow m s x = true) :
    bodyTchQuery m r s =
      (let w := queryShard r x s
      let v := bump .tchQueries x.partition 1 (freeContext w.2)
      let b := hitsBytes ((w.1.headD []).take (r.f 2 2))
      if r.f 2 2 ≤ 247 then .ok v b else replyData r (8 + 16 * r.f 2 2) b [] v) :=
  (bodyTchQuery_accepted hi hf hctx hlist).trans ((if_pos hnow).trans (queryReply_whole rfl))

end

/-- The limits of a batch: a kind with no graph, 1 to 1,024 hits, 1 to 65,536 queries, for IVF 1 to all of its lists, and a place in
the partition's memory (R331, R341). -/
def bulkInRange (r : Req) (s : State) (x : Index) : Prop :=
  x.kind ≠ 1 ∧ (1 ≤ r.f 2 2 ∧ r.f 2 2 ≤ 1024) ∧ (1 ≤ r.f 8 4 ∧ r.f 8 4 ≤ 65536) ∧
    (x.kind = 2 → 1 ≤ r.f 4 2 ∧ r.f 4 2 ≤ x.lists) ∧ r.f 0x10 8 < partBytes s x.partition 1

/-- A batch within its limits, with a context and a list that holds its codes and its results, starts its search (R331, R528). -/
theorem bodyTchBulk_starts (hc : carried r = false) (hi : IndexReached opTchBulk r s x) (hrange : bulkInRange r s x)
    (hctx : contextFree s x.partition = true)
    (hcover : (sgCover r (r.f 8 4 * (x.bits / 8) + 16 * r.f 2 2 * r.f 8 4) s).isOk = true)
    (hd : (inData r (r.f 8 4 * (x.bits / 8)) s).toOption = some d) (ho : opRoom s r.fn = true) :
    bodyTchBulk m r s = .wait (startQuery s.bench.nextOp (r.f 0 1) x r true false (codesOf x.bits (r.f 8 4) d) (r.f 2 2) 0 0
      (r.f 4 2) (startOp r 1 5 (r.f 8 4) true [s.tch.nextQ] s).2) := by
  obtain ⟨hkind, htop, hcount, hprobes, hplace⟩ := hrange
  have hfields : ¬ (decide (x.kind = 1) || decide (r.f 2 2 = 0) || decide (1024 < r.f 2 2) || decide (r.f 8 4 = 0)
      || decide (65536 < r.f 8 4) || (decide (x.kind = 2) && (decide (r.f 4 2 = 0) || decide (x.lists < r.f 4 2)))
      || decide (partBytes s x.partition 1 ≤ r.f 0x10 8)) = true := by
    simp only [Bool.or_eq_true, Bool.and_eq_true, decide_eq_true_eq]
    omega
  refine hi.onIndex.trans ((if_neg hfields).trans ((check_passes hctx).trans ?_))
  rw [if_neg (Bool.eq_false_iff.mp hc), eq_ok_of_isOk hcover [], toOption_some hd]
  exact asOp_room ho

/-! ### TCH_INDEX_QUERY and TCH_REPAIR -/

/-- What TCH_INDEX_QUERY answers of an index: the fields of its creation, then its status (R317; log entry 29). -/
def indexStatusBytes (i : Nat) (x : Index) : Bytes :=
  u8 i ++ u8 x.kind ++ u8 x.tier ++ u8 x.shardMask ++ u16 x.bits ++ u8 x.degree ++ u8 0 ++ u16 x.build ++ zeros 2 ++ u32 x.lists
    ++ u64 x.capacity ++ u32 x.timeout ++ u64 x.floor ++ u32 (x.entry.getD ones32) ++ u64 (itemCount x .live)
    ++ u64 (itemCount x .tombstone) ++ u64 x.repairPos ++ u64 x.capacity

theorem bodyTchIndexQuery_reached (hx : getIndex s (r.f 0 1) = some x) (hr : r.reaches x.partition = true)
    (hk : x.dropping = none) : bodyTchIndexQuery m r s = .ok s (indexStatusBytes (r.f 0 1) x) := by
  have hseen : ¬ (!r.reaches x.partition || x.dropping.isSome) = true := by
    rw [hr, hk]
    decide
  rw [bodyTchIndexQuery, hx]
  exact if_neg hseen

/-- The sweep of a graph starts over all its slots (R329). -/
theorem bodyTchRepair_starts (hi : IndexReached opTchRepair r s x) (hkind : x.kind = 1) (ho : opRoom s r.fn = true) :
    bodyTchRepair m r s = .wait (startOp r 1 5 x.capacity true [r.f 0 1] s).2 :=
  hi.onIndex.trans ((if_neg (not_not_intro hkind)).trans (asOp_room ho))

end

/-- Settles O23: each command runs on the index that its request reaches (`IndexReached.onIndex`); an insert and a query are answered at
once or become operations as the moment picks (`bodyTchInsert_…`, `bodyTchQuery_…`; log entry 10), and a long insert ends by publishing
or giving back its first item (`endTchInsert_…`). Result sizes are log entry 40, packed results log entry 29. -/
theorem touchstoneCommands : Obligations.TouchstoneCommands := by
  refine ⟨?create, ?drop, ?insertNow, ?insertLong, ?insertEnd, ?insertCancelled, ?delete, ?queryPayload, ?queryList, ?queryStarts,
    ?bulk, ?indexQuery, ?repair⟩
  case create =>
    exact fun m r s d hs hf hnew hd hfit => congrArg Host.Outcome.next
      (runCommand_ended hs (bodyTchIndexCreate_fits hf hnew hd hfit))
  case drop =>
    exact fun m r s x hs hx hr hk hg ho => congrArg Host.Outcome.next
      (runCommand_goesOn hs (bodyTchIndexDrop_starts ⟨hx, hr, hk, hg⟩ ho))
  case insertNow =>
    exact fun m r s x d hs hx hr hk hg hn hd hlong hall => congrArg Host.Outcome.next
      (runCommand_ended hs (bodyTchInsert_now ⟨hx, hr, hk, hg⟩ hn hd hlong hall))
  case insertLong =>
    intro m r s x d a rest hs u n v b w hx hr hk hg hn hd hlong hitems hbegin ho
    have hb : beginItem m 0 (r.f 0 1) a.1 a.2 v = some b :=
      (Option.some_get hbegin).symm.trans (congrArg some (Option.get_eq_getD _))
    exact congrArg Host.Outcome.next (runCommand_goesOn hs (bodyTchInsert_long ⟨hx, hr, hk, hg⟩ hn hd hlong hitems hb ho))
  case insertEnd =>
    intro m op ok o q s u w hg hk hs hr hq
    rw [exec_longOpEnd hg hr, endByKind_tchInsert hk, endTchInsert_publishes hq hs]
  case insertCancelled =>
    intro m op ok o q s u hg hk hs hr hq
    rw [exec_longOpEnd hg hr, endByKind_tchInsert hk, endTchInsert_cancelled hq hs]
  case delete =>
    exact fun m r s x y a hs hx hr hk hg hc hy ha hgen hlive => congrArg Host.Outcome.next
      (runCommand_ended hs (bodyTchDelete_live ⟨hx, hr, hk, hg⟩ hc hy ha hgen hlive))
  case queryPayload =>
    exact fun m r s x hs hx hr hk hg hf hctx hnow htop => congrArg Host.Outcome.next
      (runCommand_ended hs ((bodyTchQuery_now ⟨hx, hr, hk, hg⟩ hf hctx (.inl htop) hnow).trans (if_pos htop)))
  case queryList =>
    exact fun m r s x l hs hx hr hk hg hf hctx hnow htop hcover hl hw => congrArg Host.Outcome.next
      (runCommand_ended hs ((bodyTchQuery_now ⟨hx, hr, hk, hg⟩ hf hctx (.inr hcover) hnow).trans
        ((if_neg (Nat.not_le.mpr htop)).trans (replyData_list (serves_not_carried hs) hl hw))))
  case queryStarts =>
    exact fun m r s x hs hx hr hk hg hf hctx hnow ho hlist => congrArg Host.Outcome.next
      (runCommand_goesOn hs (bodyTchQuery_starts ⟨hx, hr, hk, hg⟩ hf hctx hlist hnow ho))
  case bulk =>
    exact fun m r s x d hs hx hr hk hg hkind htop hcount hprobes hplace hctx hcover hd ho => congrArg Host.Outcome.next
      (runCommand_goesOn hs (bodyTchBulk_starts (serves_not_carried hs) ⟨hx, hr, hk, hg⟩
        ⟨hkind, htop, hcount, hprobes, hplace⟩ hctx hcover hd ho))
  case indexQuery =>
    exact fun m r s x hs hx hr hk => congrArg Host.Outcome.next (runCommand_ended hs (bodyTchIndexQuery_reached hx hr hk))
  case repair =>
    exact fun m r s x hs hx hr hk hg hkind ho => congrArg Host.Outcome.next
      (runCommand_goesOn hs (bodyTchRepair_starts ⟨hx, hr, hk, hg⟩ hkind ho))

end Sys2Proof.Machine
end

section
/-! Touchstone's shards, reclaims and repairs: a sub-query of another chip, the answers that a query waits for and its time, a tombstone
whose slot comes back, and the sweep of a graph (R321, R323, R324, R329, R333). -/

namespace Sys2Proof.Machine

section
variable {m : Moment} {s : State} {i k c slot : Nat} {x : Index} {q : Query}

/-! ### Sub-queries -/

/-- A message's arrival leaves the indexes as they are. -/
theorem getIndex_swlGot {link vc n : Nat} : getIndex (swlGot link vc n s) i = getIndex s i := by
  rw [getIndex, getIndex, (env_swlGot (Env.refl s)).tch]

/-- A sub-query's message has arrived: its codes are of the index's width (R333). -/
def subqueryGot (y : SubQuery) (x : Index) (s : State) : State := swlGot y.link 0 (y.codes.length * (x.bits / 8)) s

/-- A sub-query's search of this chip's shard, under a context (R326, R333). -/
def subqueryShard (y : SubQuery) (x : Index) (s : State) : List (List Hit) × State :=
  runShard y.index x y.codes y.snapshot y.topK y.breadth y.visits y.probes (bindContext s)

/-- A sub-query of the index's partition that is not late and finds a context is answered with its hits (R324, R326, R333). -/
theorem exec_tchSubqueryReceive_inTime {y : SubQuery} (hx : getIndex (s.at m) y.index = some x) (hp : x.partition = y.partition)
    (hk : x.dropping = none) (ht : (subqueryGot y x (s.at m)).ct ≤ y.snapshot + 1000000)
    (hctx : contextFree (subqueryGot y x (s.at m)) x.partition = true) :
    exec (.tchSubqueryReceive m y) s = .next (
      let w := subqueryShard y x (subqueryGot y x (s.at m))
      sendSwl (.swilan y.link 1 8 y.tag [St.ok] (tchAnswerBytes w.1)) (freeContext w.2)) := by
  have hbits : getIndex s y.index = some x := hx
  have hserved : ¬ (decide (x.partition ≠ y.partition) || x.dropping.isSome) = true := by
    rw [hp, hk]
    simp only [ne_eq, not_true_eq_false, decide_false, Option.isSome_none, Bool.or_self, Bool.false_eq_true, not_false_eq_true]
  refine congrArg Host.Outcome.next ?_
  rw [hbits]
  dsimp only
  rw [getIndex_swlGot, hx]
  exact (if_neg hserved).trans ((if_neg (Nat.not_lt.mpr ht)).trans (check_passes hctx))

/-! ### Answers and the query's time -/

/-- The query no longer waits for the shard of chip `c`: without hits the shard is missing, with hits they are merged (R333). -/
def Query.shardEnded (q : Query) (c : Nat) (hits : Option (List (List Hit))) : Query :=
  { q with
    waiting := q.waiting.erase c
    missing := if hits.isNone then q.missing ++ [c] else q.missing
    hits := hits.elim q.hits (fun l => (List.range q.hits.length).map (fun j =>
      bestOf leHit q.topK (q.hits.getD j [] ++ l.getD j []))) }

/-- The query `k` is stored as `q`, and the sub-query to the chip `c` is no longer outstanding. -/
def shardClosed (k c : Nat) (q : Query) (s : State) : State :=
  { s with
    tch := { s.tch with queries := tset s.tch.queries k q }
    swl := { s.swl with reqs := s.swl.reqs.filter (fun e => !(e.2.wait = .subQuery k && e.2.link = linkTo s c)) } }

theorem tchShardDone_waited {hits : Option (List (List Hit))} (hq : tget s.tch.queries k = some q)
    (hc : q.waiting.contains c = true) :
    tchShardDone k c hits s = finishQuery k (shardClosed k c (q.shardEnded c hits) s) := by
  rw [tchShardDone, hq]
  refine (check_passes hc).trans ?_
  cases hits with
  | none => rfl
  | some l => rfl

/-- An answer of a shard that a query waits for joins it, with hits where its status is OK (R333). -/
theorem exec_tchShardAnswer_waited {status : Nat} {l : List (List ShardHit)} (hq : tget (s.at m).tch.queries k = some q)
    (hc : q.waiting.contains c = true) :
    exec (.tchShardAnswer m k c status l) s = .next (tchShardDone k c
      (if status = 0 then
        some (l.map (fun l => l.map (fun h => { label := h.label, slot := h.slot, dist := h.dist, chip := c })))
      else none)
      (swlGot (linkTo (s.at m) c) 1 (16 * (l.map List.length).sum) (s.at m))) := by
  change execTchShardAnswer m k c status l s = _
  rw [execTchShardAnswer, hq]
  exact check_passes hc

theorem exec_tchShardTimeout_due (hq : tget (s.at m).tch.queries k = some q) (ht : q.due ≤ (s.at m).ct) :
    exec (.tchShardTimeout m k) s = .next (q.waiting.foldl (fun s c => tchShardDone k c none s) (s.at m)) := by
  change execTchShardTimeout m k s = _
  rw [execTchShardTimeout, hq]
  exact congrArg Host.Outcome.next (if_pos ht)

/-! ### Reclaims and sweeps -/

/-- The index without the item of a slot: the slot is of the next generation, ENTRY has left it, and an edge to it dangles (R323,
R324, R329). -/
def Index.reclaimed (x : Index) (slot : Nat) : Index :=
  { x with
    items := tdel x.items slot
    gens := tset x.gens slot (slotGen x slot + 1)
    entry := if x.entry = some slot then nextEntry x slot else x.entry
    dangling := x.dangling || (tdel x.items slot).any (fun e => e.2.edges.any (fun f => f.slot = slot)) }

/-- A tombstone of 1 ms ago that no query's snapshot precedes gives its slot back; at the last generation the slot is RETIRED, with
its event (R323, R324). -/
theorem reclaim_unseen {a : Item} (hx : getIndex s i = some x) (ha : tget x.items slot = some a) (hst : a.sstate = .tombstone)
    (ht : a.del + 1000000 ≤ s.ct) (hq : s.tch.queries.any (fun e => e.2.index = i && decide (e.2.snapshot < a.del)) = false) :
    reclaim i slot s =
      (let w := bump .tchReclaimed x.partition 1 (setIndex i (x.reclaimed slot) s)
      if slotGen x slot + 1 = 0xFFFF then note 0x0901 0 x.partition 0 [i, slot] (bump .tchRetired x.partition 1 w) else w) := by
  have hdue : ¬ (decide (a.sstate ≠ .tombstone) || decide (s.ct < a.del + 1000000)
      || s.tch.queries.any (fun e => e.2.index = i && decide (e.2.snapshot < a.del))) = true := by
    rw [hq, hst, decide_eq_false (Nat.not_lt.mpr ht)]
    simp only [ne_eq, not_true_eq_false, decide_false, Bool.or_self, Bool.false_eq_true, not_false_eq_true]
  rw [reclaim, hx]
  dsimp only
  rw [ha]
  exact if_neg hdue

/-- A graph with a dangling edge is swept, to its last slot (R329). -/
theorem exec_tchRepairSweep_dangling {y : Index} (hx : getIndex (s.at m) i = some x) (hd : x.dangling = true) (hkind : x.kind = 1)
    (hy : getIndex (sweep i (s.at m)).2 i = some y) :
    exec (.tchRepairSweep m i) s = .next (setIndex i { y with repairPos := y.capacity } (sweep i (s.at m)).2) := by
  have hneeds : (x.dangling && decide (x.kind = 1)) = true := by
    rw [hd, decide_eq_true hkind]
    rfl
  change execTchRepairSweep m i s = _
  rw [execTchRepairSweep, hx]
  refine (if_pos hneeds).trans (congrArg Host.Outcome.next ?_)
  rw [hy]

end

/-- Settles O24: a sub-query in time runs on this chip's shard (`exec_tchSubqueryReceive_inTime`), an answer or the query's time ends a
shard's part in it (`tchShardDone_waited`), an unseen tombstone is reclaimed (`reclaim_unseen`), and a graph with a dangling edge is
swept (`exec_tchRepairSweep_dangling`). What a sweep does to an edge list is log entry 40. -/
theorem shardsReclaimsAndRepair : Obligations.ShardsReclaimsAndRepair := by
  refine ⟨?subquery, ?answer, ?timeout, ?shardDone, ?reclaim, ?sweep⟩
  case subquery => exact fun m y x s hx hp hk ht hctx => exec_tchSubqueryReceive_inTime hx hp hk ht hctx
  case answer => exact fun m k c status l q s hq hc => exec_tchShardAnswer_waited hq hc
  case timeout => exact fun m k q s hq ht => exec_tchShardTimeout_due hq ht
  case shardDone => exact fun k c hits s q hq hc => tchShardDone_waited hq hc
  case reclaim =>
    exact fun m i slot x a s hx ha hst ht hq => congrArg Host.Outcome.next (reclaim_unseen hx ha hst ht hq)
  case sweep => exact fun m i x y s hx hd hkind hy => exec_tchRepairSweep_dangling hx hd hkind hy

end Sys2Proof.Machine
end

section
/-! The Gather unit's commands: a table's new version by a load or a patch, its drop, its hot rows, a batch at once and a long one, and
the read of a table (R335 to R338, R340). -/

namespace Sys2Proof.Machine

section
variable {m : Moment} {r : Req} {s : State} {x : GTable} {d : Bytes} {v : Nat} {c : GVersion} {place : List (Nat × Nat)}

/-- The request `r` reaches `x`, the table that it names, for the command `o`: the table is not being dropped, and its partition takes
the command (R51, R336). -/
structure TableReached (o : OpInfo) (r : Req) (s : State) (x : GTable) : Prop where
  inRange : r.f 0 2 < 1024
  named : getTable s (r.f 0 2) = some x
  reaches : r.reaches x.partition = true
  kept : x.dropping = none
  admits : (partGate o r x.partition s).isOk = true

theorem TableReached.onTable {o : OpInfo} {k : Nat → GTable → Reply} (h : TableReached o r s x) :
    onTable o r s k = k (r.f 0 2) x :=
  onTable_here h.inRange h.named h.reaches h.kept h.admits

/-! ### Versions -/

/-- A free version, and the memory of a copy of the table, are found for a new version (R336). -/
structure VersionFound (m : Moment) (s : State) (x : GTable) (v : Nat) (place : List (Nat × Nat)) : Prop where
  picked : pickIdx m 0 x.versions 4 = some v
  placed : placeUnits s x.partition x.tier (x.rows * x.rowBytes) = some place

/-- The table with a version that is LOADING (R336). -/
def GTable.loading (x : GTable) (v : Nat) (rows : List Bytes) (place : List (Nat × Nat)) : GTable :=
  { x with versions := tset x.versions v { rows, extents := place } }

/-- The copy of a new version begins: the operation names the table and the version. -/
def versionBegun (r : Req) (x : GTable) (v : Nat) (rows : List Bytes) (place : List (Nat × Nat)) (s : State) : State :=
  setTable (r.f 0 2) (x.loading v rows place) (startOp r 1 6 x.rows true [r.f 0 2, v] s).2

theorem newVersion_begins {rows : List Bytes} (hv : VersionFound m s x v place) (ho : opRoom s r.fn = true) :
    newVersion m r (r.f 0 2) x rows s = .wait (versionBegun r x v rows place s) := by
  rw [newVersion, hv.picked]
  dsimp only
  rw [hv.placed]
  exact asOp_room ho

/-- The table that a load's fields spell (R335). -/
def spelledTable (r : Req) : GTable :=
  { partition := r.part16, format := r.f 2 1, tier := r.f 3 1, rowBytes := r.f 4 2, rows := r.f 8 8 }

/-- A table has the fields that a load spells (R336). -/
structure SpelledBy (r : Req) (x : GTable) : Prop where
  format : x.format = r.f 2 1
  tier : x.tier = r.f 3 1
  rowBytes : x.rowBytes = r.f 4 2
  rows : x.rows = r.f 8 8

/-- What a load does on a table `t`: it copies a new version of one whose fields it repeats (R336). -/
def loadInto (m : Moment) (r : Req) (s : State) (t : Nat) (x : GTable) : Reply :=
  if x.format ≠ r.f 2 1 || x.tier ≠ r.f 3 1 || x.rowBytes ≠ r.f 4 2 || x.rows ≠ r.f 8 8 then Reply.err s St.badField
  else withData r (x.rows * x.rowBytes) s fun d => newVersion m r t x (rowsOf x.rows x.rowBytes d) s

theorem bodyGthTableLoad_eq (hf : tableFieldsOk r = true) :
    bodyGthTableLoad m r s =
      if thas s.gth.tables (r.f 0 2) then onTable opGthTableLoad r s (loadInto m r s)
      else loadInto m r s (r.f 0 2) (spelledTable r) :=
  check_passes hf

theorem loadInto_begins (hs : SpelledBy r x) (hd : (inData r (x.rows * x.rowBytes) s).toOption = some d)
    (hv : VersionFound m s x v place) (ho : opRoom s r.fn = true) :
    loadInto m r s (r.f 0 2) x = .wait (versionBegun r x v (rowsOf x.rows x.rowBytes d) place s) := by
  have hsame : ¬ (decide (x.format ≠ r.f 2 1) || decide (x.tier ≠ r.f 3 1) || decide (x.rowBytes ≠ r.f 4 2)
      || decide (x.rows ≠ r.f 8 8)) = true := by
    simp only [hs.format, hs.tier, hs.rowBytes, hs.rows, ne_eq, not_true_eq_false, decide_false, Bool.or_self,
      Bool.false_eq_true, not_false_eq_true]
  exact (if_neg hsame).trans ((withData_ok hd).trans (newVersion_begins hv ho))

/-- The first load of an unused number defines the table (R336). -/
theorem bodyGthTableLoad_defines (hf : tableFieldsOk r = true) (hnew : thas s.gth.tables (r.f 0 2) = false)
    (hd : (inData r (r.f 8 8 * r.f 4 2) s).toOption = some d) (hv : VersionFound m s (spelledTable r) v place)
    (ho : opRoom s r.fn = true) :
    bodyGthTableLoad m r s =
      .wait (versionBegun r (spelledTable r) v (rowsOf (r.f 8 8) (r.f 4 2) d) place s) :=
  (bodyGthTableLoad_eq hf).trans ((if_neg (Bool.eq_false_iff.mp hnew)).trans
    (loadInto_begins ⟨rfl, rfl, rfl, rfl⟩ hd hv ho))

/-- A table that is named is in the map of tables. -/
theorem thas_of_getTable {t : Nat} (h : getTable s t = some x) : thas s.gth.tables t = true :=
  congrArg Option.isSome h

/-- A load with the fields of a defined table is of a new version of it (R336). -/
theorem bodyGthTableLoad_reloads (hx : TableReached opGthTableLoad r s x) (hf : tableFieldsOk r = true) (hs : SpelledBy r x)
    (hd : (inData r (x.rows * x.rowBytes) s).toOption = some d) (hv : VersionFound m s x v place) (ho : opRoom s r.fn = true) :
    bodyGthTableLoad m r s = .wait (versionBegun r x v (rowsOf x.rows x.rowBytes d) place s) :=
  (bodyGthTableLoad_eq hf).trans ((if_pos (thas_of_getTable hx.named)).trans
    (hx.onTable.trans (loadInto_begins hs hd hv ho)))

/-- The rows that a patch's bytes replace, each with its number, in rows of `w` bytes (R336). -/
def patchRecs (w n : Nat) (d : Bytes) : List (Nat × Bytes) :=
  (List.range n).map (fun i => (field d (i * (4 + w)) 4, slice d (i * (4 + w) + 4) w))

/-- A patch copies the CURRENT version with rows in range replaced, in the order in which it names them (R336). -/
theorem bodyGthTablePatch_begins (hx : TableReached opGthTablePatch r s x) (hc : x.current = some c)
    (hd : (inData r (r.f 4 4 * (4 + x.rowBytes)) s).toOption = some d)
    (hrange : (List.range (r.f 4 4)).find? (fun i =>
      decide (x.rows ≤ ((patchRecs x.rowBytes (r.f 4 4) d).getD i (0, [])).1)) = none)
    (hv : VersionFound m s x v place) (ho : opRoom s r.fn = true) :
    bodyGthTablePatch m r s = .wait (versionBegun r x v
      ((patchRecs x.rowBytes (r.f 4 4) d).foldl (fun (l : List Bytes) e => l.set e.1 e.2) c.rows) place s) := by
  refine hx.onTable.trans ?_
  rw [hc]
  refine (withData_ok hd).trans ?_
  rw [patchRecs] at hrange
  dsimp only
  rw [hrange]
  exact newVersion_begins hv ho

/-! ### GTH_TABLE_DROP and GTH_HOT_SET -/

/-- A drop marks the table with its operation, by which new batches are refused (R336). -/
theorem bodyGthTableDrop_starts (hx : TableReached opGthTableDrop r s x) (ho : opRoom s r.fn = true) :
    bodyGthTableDrop m r s = .wait (setTable (r.f 0 2) { x with dropping := some s.bench.nextOp }
      (startOp r 1 0 0 false [r.f 0 2] s).2) :=
  hx.onTable.trans (asOp_room ho)

/-- Rows in range replace the table's hot rows (R337). -/
theorem bodyGthHotSet_replaces (hx : TableReached opGthHotSet r s x) (hn : r.f 4 4 ≤ 65536)
    (hd : (inData r (4 * r.f 4 4) s).toOption = some d)
    (hrange : (List.range (r.f 4 4)).find? (fun i => decide (x.rows ≤ (codesOf 32 (r.f 4 4) d).getD i 0)) = none) :
    bodyGthHotSet m r s = .ok (setTable (r.f 0 2) { x with hot := (codesOf 32 (r.f 4 4) d).eraseDups } s) := by
  refine hx.onTable.trans ((if_neg (Nat.not_lt.mpr hn)).trans ((withData_ok hd).trans ?_))
  dsimp only
  rw [hrange]

/-! ### GTH_RUN -/

/-- The output of a request's batch over a version's rows (R338, R340). -/
def batchOut (r : Req) (x : GTable) (c : GVersion) (d : Bytes) : Bytes :=
  gatherOut x c (r.f 2 1) (r.f 3 1) (r.f 8 4) (batchIdx r d) (batchWts r d) (batchOffs r d)

/-- The bytes of a batch's input (R338). -/
def batchInLen (r : Req) : Nat := inputLen (r.f 2 1) (r.f 8 4) (r.f 4 4)

/-- The bytes that a batch's list must hold: its input, and its output behind it (R338, R528). -/
def batchListLen (r : Req) (x : GTable) : Nat := batchInLen r + gatherLen x (r.f 2 1) (r.f 3 1) (r.f 8 4) (r.f 4 4)

/-- A batch whose output can be written behind its input answers the number of distinct rows, and is counted (R338). -/
theorem batchReply_written {l : List SgEntry} (hc : carried r = false)
    (hl : (sgCover r (batchInLen r + (batchOut r x c d).length) s).toOption = some l)
    (hw : (sgWrite (sgDrop l (batchInLen r)) (batchOut r x c d) s).2 = none) :
    batchReply r x c d s = .ok (countBatch x (r.f 2 1) (r.f 8 4) (batchIdx r d) (batchOffs r d)
        (sgWrite (sgDrop l (batchInLen r)) (batchOut r x c d) s).1) (u64 (distinct (batchIdx r d)).length) := by
  have hreply := replyAfter_list (result := u64 (distinct (batchIdx r d)).length) hc hl hw
  rw [batchInLen, batchOut] at hreply
  rw [batchReply, hreply]
  rfl

/-- The fields of a batch are legal for its table: the mode and the count in range, formats that gather or pool, and a place in the
partition's memory (R335, R338, R340). -/
structure BatchFields (r : Req) (s : State) (x : GTable) : Prop where
  mode : r.f 2 1 ≤ 3
  count : 1 ≤ r.f 4 4 ∧ r.f 4 4 ≤ 16777216
  gathers : r.f 2 1 = 0 → r.f 3 1 = x.format
  pools : r.f 2 1 ≠ 0 → poolIn.contains x.format = true ∧ poolOut.contains (r.f 3 1) = true
  place : r.f 0x10 8 < partBytes s x.partition 1

theorem BatchFields.legal (h : BatchFields r s x) :
    ¬ (decide (3 < r.f 2 1) || decide (r.f 4 4 = 0) || decide (16777216 < r.f 4 4)
      || (decide (r.f 2 1 = 0) && decide (r.f 3 1 ≠ x.format))
      || (decide (r.f 2 1 ≠ 0) && !(poolIn.contains x.format && poolOut.contains (r.f 3 1)))
      || decide (partBytes s x.partition 1 ≤ r.f 0x10 8)) = true := by
  obtain ⟨hmode, hcount, hgathers, hpools, hplace⟩ := h
  simp only [Bool.or_eq_true, Bool.and_eq_true, Bool.not_eq_true', Bool.and_eq_false_iff, decide_eq_true_eq]
  rintro (((((hm | hz) | hbig) | ⟨h0, hne⟩) | ⟨hnz, hfmt⟩) | hout)
  · omega
  · omega
  · omega
  · exact hne (hgathers h0)
  · obtain ⟨hin, hto⟩ := hpools hnz
    rw [hin, hto] at hfmt
    simp only [Bool.true_eq_false, or_self] at hfmt
  · omega

/-- A batch's input is legal: the offsets rise from 0 to the count, and every index is of a row (R338). -/
structure BatchInput (r : Req) (x : GTable) (d : Bytes) : Prop where
  offsets : offsetsOk (batchOffs r d) (r.f 4 4) = true
  indices : (List.range (r.f 4 4)).find? (fun i => decide (x.rows ≤ (batchIdx r d).getD i 0)) = none

section
variable (hx : TableReached opGthRun r s x) (hf : BatchFields r s x) (hcur : x.currentEntry = some (v, c))
  (hd : (inData r (batchInLen r) s).toOption = some d) (hin : BatchInput r x d)
  (hcover : (sgCover r (batchListLen r x) s).isOk = true)
include hx hf hcur hd hin hcover

/-- A legal batch, whose list holds its input and its output, reads the CURRENT version, at once or, by the moment's choice, as an
operation that binds it (R336, R338, R528; log entry 10). -/
theorem bodyGthRun_accepted :
    bodyGthRun m r s =
      if m.choice.getD 0 0 % 2 = 0 then batchReply r x c d s
      else asOp r s 1 6 (distinct (batchIdx r d)).length true [r.f 0 2, v] fun n s => bindBatch n (r.f 0 2) v x d s := by
  have htested : (if carried r = true then .ok () else (sgCover r (batchListLen r x) s).map (fun _ => ()) : Except SgErr Unit)
      = .ok () := by
    rw [eq_ok_of_isOk hcover []]
    exact ite_self _
  refine hx.onTable.trans ((if_neg hf.legal).trans ?_)
  rw [batchListLen, batchInLen] at htested
  rw [hcur]
  dsimp only
  rw [htested]
  refine (withData_ok hd).trans ((check_passes hin.offsets).trans ?_)
  rw [hin.indices]

theorem bodyGthRun_now {l : List SgEntry} (hnow : m.choice.getD 0 0 % 2 = 0) (hc : carried r = false)
    (hl : (sgCover r (batchInLen r + (batchOut r x c d).length) s).toOption = some l)
    (hw : (sgWrite (sgDrop l (batchInLen r)) (batchOut r x c d) s).2 = none) :
    bodyGthRun m r s = .ok (countBatch x (r.f 2 1) (r.f 8 4) (batchIdx r d) (batchOffs r d)
        (sgWrite (sgDrop l (batchInLen r)) (batchOut r x c d) s).1) (u64 (distinct (batchIdx r d)).length) :=
  (bodyGthRun_accepted hx hf hcur hd hin hcover).trans ((if_pos hnow).trans (batchReply_written hc hl hw))

theorem bodyGthRun_starts (hlong : m.choice.getD 0 0 % 2 = 1) (ho : opRoom s r.fn = true) :
    bodyGthRun m r s = .wait (bindBatch s.bench.nextOp (r.f 0 2) v x d
      (startOp r 1 6 (distinct (batchIdx r d)).length true [r.f 0 2, v] s).2) :=
  (bodyGthRun_accepted hx hf hcur hd hin hcover).trans ((if_neg (by omega)).trans (asOp_room ho))

end

theorem endByKind_gthRun {n : Nat} {o : LongOp} {ok : Bool} (h : o.opcode = 0x090C) :
    endByKind m n o ok s = endGthRun n o s := by
  simp only [endByKind, h]

/-- The batch `n`, over version `b.version` of its table, is no longer held, and no longer binds it (R336). -/
def batchLeft (n : Nat) (b : GBatch) (s : State) : State :=
  bindVersion b.table b.version (· - 1) { s with gth := { s.gth with batches := tdel s.gth.batches n } }

/-- A long batch reads the version that it bound, with the hot rows of its start (R336, R337). -/
theorem endGthRun_reads {n : Nat} {o : LongOp} {b : GBatch} (hc : o.cancelling = false)
    (hb : tget s.gth.batches n = some b) (hx : getTable s b.table = some x) (hv : tget x.versions b.version = some c) :
    endGthRun n o s = endReply n (batchReply o.req { x with hot := b.hot } c b.data (batchLeft n b s)) := by
  rw [endGthRun, hb]
  refine (if_neg (Bool.eq_false_iff.mp hc)).trans ?_
  rw [hx]
  dsimp only
  rw [hv]
  rfl

/-! ### GTH_TABLE_QUERY -/

/-- What GTH_TABLE_QUERY answers of a table: the fields of its creation, its four versions and the number of its hot rows (R336; log
entries 29 and 41). -/
def tableStatusBytes (t : Nat) (x : GTable) : Bytes :=
  u16 t ++ u8 x.format ++ u8 x.tier ++ u16 x.rowBytes ++ zeros 2 ++ u64 x.rows
    ++ (List.range 4).flatMap (fun v => u8 (vstateCode (tget x.versions v)) ++ u32 (((tget x.versions v).map (·.bind)).getD 0))
    ++ u32 x.hot.length

theorem bodyGthTableQuery_reached (hn : r.f 0 2 < 1024) (hx : getTable s (r.f 0 2) = some x) (hr : r.reaches x.partition = true)
    (hk : x.dropping = none) : bodyGthTableQuery m r s = .ok s (tableStatusBytes (r.f 0 2) x) := by
  have hseen : ¬ (!r.reaches x.partition || x.dropping.isSome) = true := by
    rw [hr, hk]
    decide
  refine (if_neg (Nat.not_le.mpr hn)).trans ?_
  rw [hx]
  exact if_neg hseen

end

/-- Settles O25: each command runs on the table that its request reaches (`TableReached.onTable`); a load and a patch begin a version
(`newVersion_begins`), and a legal batch is answered at once or binds its version as an operation (`bodyGthRun_accepted`; log entry
10), whose end reads it (`endGthRun_reads`). The versions' codes and the output's place are log entry 41. -/
theorem gatherCommands : Obligations.GatherCommands := by
  refine ⟨?defines, ?reloads, ?patch, ?drop, ?hot, ?runNow, ?runLong, ?runEnd, ?query⟩
  case defines =>
    exact fun m r s d v place hs hf hnew hd hv hp ho => congrArg Host.Outcome.next
      (runCommand_goesOn hs (bodyGthTableLoad_defines hf hnew hd ⟨hv, hp⟩ ho))
  case reloads =>
    exact fun m r s x d v place hs hn hx hr hk hg hf hformat htier hbytes hrows hd hv hp ho => congrArg Host.Outcome.next
      (runCommand_goesOn hs (bodyGthTableLoad_reloads ⟨hn, hx, hr, hk, hg⟩ hf ⟨hformat, htier, hbytes, hrows⟩ hd ⟨hv, hp⟩ ho))
  case patch =>
    exact fun m r s x c d v place hs hn hx hr hk hg hc hd hrange hv hp ho => congrArg Host.Outcome.next
      (runCommand_goesOn hs (bodyGthTablePatch_begins ⟨hn, hx, hr, hk, hg⟩ hc hd hrange ⟨hv, hp⟩ ho))
  case drop =>
    exact fun m r s x hs hn hx hr hk hg ho => congrArg Host.Outcome.next
      (runCommand_goesOn hs (bodyGthTableDrop_starts ⟨hn, hx, hr, hk, hg⟩ ho))
  case hot =>
    exact fun m r s x d hs hn hx hr hk hg hmax hd hrange => congrArg Host.Outcome.next
      (runCommand_ended hs (bodyGthHotSet_replaces ⟨hn, hx, hr, hk, hg⟩ hmax hd hrange))
  case runNow =>
    exact fun m r s x v c d l hs hn hx hr hk hg hmode hcount hgathers hpools hplace hcur hd hoffs hidx hnow hl hw hcover =>
      congrArg Host.Outcome.next (runCommand_ended hs (bodyGthRun_now ⟨hn, hx, hr, hk, hg⟩
        ⟨hmode, hcount, hgathers, hpools, hplace⟩ hcur hd ⟨hoffs, hidx⟩ hcover hnow (serves_not_carried hs) hl hw))
  case runLong =>
    exact fun m r s x v c d hs hn hx hr hk hg hmode hcount hgathers hpools hplace hcur hd hoffs hidx hlong hcover ho =>
      congrArg Host.Outcome.next (runCommand_goesOn hs (bodyGthRun_starts ⟨hn, hx, hr, hk, hg⟩
        ⟨hmode, hcount, hgathers, hpools, hplace⟩ hcur hd ⟨hoffs, hidx⟩ hcover hlong ho))
  case runEnd =>
    intro m op ok o b x v s u hg hk hc hr hb hx hv
    rw [exec_longOpEnd hg hr, endByKind_gthRun hk, endGthRun_reads hc hb hx hv]
    rfl
  case query =>
    exact fun m r s x hs hn hx hr hk => congrArg Host.Outcome.next
      (runCommand_ended hs (bodyGthTableQuery_reached hn hx hr hk))

end Sys2Proof.Machine
end

section
/-! Ethernet ports and links, queue pairs, the parameters of congestion control, and regions with their quarantine (R346, R351, R352,
R356, R363, R376). -/

namespace Sys2Proof.Machine

section
variable {m : Moment} {r : Req} {s : State} {i : Nat} {q : Qp}

/-! ### Ports -/

/-- The port that NET_PORT_SET spells: a change of mode leaves none of its links up (R346). -/
def Port.setBy (x : Port) (r : Req) : Port :=
  { mode := r.f 1 1, pfc := r.f 2 1, gxPrio := r.f 3 1, linkUp := if r.f 1 1 = x.mode then x.linkUp else 0 }

/-- The operands of NET_PORT_SET are in range, and PFC is off at the priority of GX (R346). -/
theorem portSet_inRange (hp : r.f 0 1 ≤ 7) (hm : r.f 1 1 ≤ 2) (hg : r.f 3 1 ≤ 7) (hn : popcount 8 (r.f 2 1) ≤ 2)
    (hb : bit (r.f 2 1) (r.f 3 1) = false) :
    ¬ (decide (7 < r.f 0 1) || decide (2 < r.f 1 1) || decide (7 < r.f 3 1) || decide (2 < popcount 8 (r.f 2 1))
      || bit (r.f 2 1) (r.f 3 1)) = true := by
  simp only [hb, Bool.or_false, Bool.or_eq_true, decide_eq_true_eq]
  omega

/-- A change of mode takes the links that were up down, each with its event, and with them the queue pairs that have no other (R346,
R352, R378). -/
theorem bodyNetPortSet_inRange {x : Port} (hx : getPort s (r.f 0 1) = x) (hp : r.f 0 1 ≤ 7) (hm : r.f 1 1 ≤ 2) (hg : r.f 3 1 ≤ 7)
    (hn : popcount 8 (r.f 2 1) ≤ 2) (hb : bit (r.f 2 1) (r.f 3 1) = false) :
    bodyNetPortSet m r s =
      .ok (if r.f 1 1 = x.mode then setPort (r.f 0 1) (x.setBy r) s
        else failDownQps m ((setBits 4 x.linkUp).foldl (fun s k => noteLink (4 * r.f 0 1 + k) false s)
          (setPort (r.f 0 1) (x.setBy r) s))) := by
  subst hx
  exact (if_neg (portSet_inRange hp hm hg hn hb)).trans (apply_ite Reply.ok ..).symm

/-- The lines of a port's interfaces: the rate of its mode, and two FEC counts that are free values (R376; log entry 53). -/
def portLines (p : Nat) (s : State) : Bytes × State :=
  (portSubs s p).foldl (fun (a : Bytes × State) _ =>
    (a.1 ++ u16 (modeRate (getPort s p).mode / 1000) ++ u64 (fresh a.2).1 ++ u64 (fresh (fresh a.2).2).1,
      (fresh (fresh a.2).2).2)) ([], s)

theorem bodyNetPortQuery_inRange (hp : r.f 0 1 ≤ 7) :
    bodyNetPortQuery m r s = .ok (portLines (r.f 0 1) s).2 (u32 (portState s (r.f 0 1)) ++ (portLines (r.f 0 1) s).1) :=
  if_neg (Nat.not_lt.mpr hp)

/-- The interface's port with the interface's link up or down. -/
def Port.linkChanged (x : Port) (ifc : Nat) (up : Bool) : Port :=
  { x with linkUp := if up then x.linkUp + 2 ^ (ifc % 4) else x.linkUp - 2 ^ (ifc % 4) }

/-- A present interface's link changes; it comes up where its port is powered and the SerDes reference is there (R352, R464, R523). -/
theorem exec_ethLinkChange_present {ifc : Nat} {up : Bool} (hp : ifPresent (s.at m) ifc = true)
    (hb : bit (getPort (s.at m) (ifc / 4)).linkUp (ifc % 4) = !up)
    (hup : up = true → (s.at m).elec.sdref = true ∧ 2 ≤ (getGroup (s.at m) (0x28 + ifc / 4)).state) :
    exec (.ethLinkChange m ifc up) s = .next (failDownQps m (noteLink ifc up
      (setPort (ifc / 4) ((getPort (s.at m) (ifc / 4)).linkChanged ifc up) (s.at m)))) := by
  have hmay : ¬ (!ifPresent (s.at m) ifc || decide (bit (getPort (s.at m) (ifc / 4)).linkUp (ifc % 4) = up)
      || (up && (!(s.at m).elec.sdref || decide ((getGroup (s.at m) (0x28 + ifc / 4)).state < 2)))) = true := by
    rw [hp, hb]
    cases up with
    | false => exact Bool.false_ne_true
    | true =>
      obtain ⟨href, hstate⟩ := hup rfl
      rw [href, decide_eq_false (Nat.not_lt.mpr hstate)]
      decide
  exact if_neg hmay

/-! ### Queue pairs -/

/-- The queue pair that NET_QP_CONNECT spells, before its first rate is chosen (R351). -/
def spelledQp (r : Req) (ct : Nat) : Qp :=
  { gx := r.f 0 1 = 1, partition := r.part16, paths := r.f 1 1, ifMask := r.f 4 4, peerQpn := r.f 8 4, sqPsn := r.f 0x0C 4,
    cumPsn := r.f 0x10 4, mtu := r.f 0x14 2, sport := r.f 0x16 2, peerAddr := r.b 0x18 16, peerMac := r.b 0x28 6,
    keyId := r.f 0x30 4, txSalt := r.f 0x34 4, rxSalt := r.f 0x38 4, ctInc := ct }

/-- A queue pair at its first rate: `rate_init`, where it is set, and at most the rate of its interfaces (R363). -/
def Qp.started (q : Qp) (s : State) : Qp :=
  { q with rate := if (ccOf s q.partition).rateInit = 0 then rateMax s q else min (ccOf s q.partition).rateInit (rateMax s q) }

/-- The state with the queue pair that NET_QP_CONNECT makes. -/
def qpConnected (i : Nat) (r : Req) (s : State) : State := setQp i ((spelledQp r s.ct).started s) s

/-- Legal fields, a usable key, room in the partition's ways and a free index make a queue pair (R351, R443, R448). -/
theorem bodyNetQpConnect_legal (hf : qpConnectOk r s = true) (hk : (qpKeyCheck r.part16 (r.f 0x30 4) s).isOk = true)
    (hroom : (s.net.qps.filter (fun e => e.2.partition = r.part16)).length < qpRoom s r.part16)
    (hi : pickIdx m 0 s.net.qps 16384 = some i) :
    bodyNetQpConnect m r s = .ok (qpConnected i r s) (u32 (qpHandle (qpConnected i r s) i)) := by
  refine (check_passes hf).trans ?_
  rw [eq_ok_of_isOk hk ()]
  refine (if_neg (Nat.not_le.mpr hroom)).trans ?_
  rw [hi]
  rfl

/-- A close drains a queue pair that is RTS, for as long as its retries may take (R352). -/
theorem bodyNetQpClose_drains (hq : qpFor r s (r.f 0 4) = some (i, q)) (hst : q.state = .rts) (ho : opRoom s r.fn = true) :
    bodyNetQpClose m r s = .wait (setQp i
      { q with state := .draining, drainOp := s.bench.nextOp,
               drainDue := (startOp r 0 0 0 true [] s).2.ct + q.ackTo * q.retryLim } (startOp r 0 0 0 true [] s).2) := by
  rw [bodyNetQpClose, hq]
  dsimp only
  rw [hst]
  exact asOp_room ho

/-- A close returns a queue pair in ERROR to RESET at once (R352). -/
theorem bodyNetQpClose_resets (hq : qpFor r s (r.f 0 4) = some (i, q)) (hst : q.state = .error) (ho : opRoom s r.fn = true) :
    bodyNetQpClose m r s = .wait (qpReset i (startOp r 0 0 0 true [] s).2) := by
  rw [bodyNetQpClose, hq]
  dsimp only
  rw [hst]
  exact asOp_room ho

/-- What NET_QP_QUERY answers of a queue pair (R351; log entry 29). -/
def qpStatusBytes (s : State) (q : Qp) : Bytes :=
  u8 (qpStateCode q.state) ++ u8 (b2n q.gx) ++ u16 (pathsLive s q) ++ u32 q.rate ++ u32 q.sqPsn ++ u32 q.cumPsn
    ++ u16 (q.rx.filter (fun e => e.2.held)).length ++ u32 q.msgNext

theorem bodyNetQpQuery_named (hq : qpFor r s (r.f 0 4) = some (i, q)) : bodyNetQpQuery m r s = .ok s (qpStatusBytes s q) := by
  rw [bodyNetQpQuery, hq]
  rfl

/-! ### Congestion control -/

theorem bodyNetCcSet_inRange (hg : (partGate opNetCcSet r (r.f 0 1) s).isOk = true) (hc : (ccFrom r).ok = true) :
    bodyNetCcSet m r s = .ok { s with net := { s.net with cc := tset s.net.cc (r.f 0 1) (ccFrom r) } } := by
  rw [bodyNetCcSet, eq_ok_of_isOk hg ()]
  exact if_pos hc

/-! ### Regions -/

/-- The generation that an index has with its next region (R356). -/
def nextRegionGen (s : State) (i : Nat) : Nat := (tgetD s.net.regGens i 0 + 1) % 256

/-- The region that NET_REGION_REG spells (R356). -/
def spelledRegion (r : Req) (g : Nat) : Region :=
  { partition := r.part16, backing := r.f 0 1, write := bit (r.f 1 1) 1, read := bit (r.f 1 1) 0, gen := g, scope := r.f 4 4,
    length := r.f 8 8, base := r.f 0x10 8 }

/-- The operands of NET_REGION_REG are in range, and its place lies within the partition's memory (R356). -/
theorem regionReg_inRange (h0 : r.f 8 8 ≠ 0) (hn : r.f 8 8 ≤ 2 ^ 48) (hs : r.f 4 4 = ones32 ∨ r.f 4 4 < 16384)
    (hp : regionPlaceOk s r.part16 (r.f 0 1) (r.f 8 8) (r.f 0x10 8) = true) :
    ¬ (decide (r.f 8 8 = 0) || decide (2 ^ 48 < r.f 8 8) || !(decide (r.f 4 4 = ones32) || decide (r.f 4 4 < 16384))
      || !regionPlaceOk s r.part16 (r.f 0 1) (r.f 8 8) (r.f 0x10 8)) = true := by
  have hscope : (decide (r.f 4 4 = ones32) || decide (r.f 4 4 < 16384)) = true := by
    rw [Bool.or_eq_true, decide_eq_true_eq, decide_eq_true_eq]
    exact hs
  rw [hscope, hp, decide_eq_false h0, decide_eq_false (Nat.not_lt.mpr hn)]
  decide

/-- A region takes the first free index that the moment's choice leads to, whose generation rises (R356; log entry 2). -/
theorem bodyNetRegionReg_placed (h0 : r.f 8 8 ≠ 0) (hn : r.f 8 8 ≤ 2 ^ 48) (hs : r.f 4 4 = ones32 ∨ r.f 4 4 < 16384)
    (hp : regionPlaceOk s r.part16 (r.f 0 1) (r.f 8 8) (r.f 0x10 8) = true)
    (hi : freeFrom (fun i => i = 0 || thas s.net.regions i) 1048576 (s.net.regions.length + 2) (m.choice.getD 0 0 % 1048576)
      = some i) :
    bodyNetRegionReg m r s = .ok
      { s with net := { s.net with regions := tset s.net.regions i (spelledRegion r (nextRegionGen s i))
                                   regGens := tset s.net.regGens i (nextRegionGen s i) } }
      (u32 (i * 256 + nextRegionGen s i)) := by
  rw [bodyNetRegionReg, if_neg (regionReg_inRange h0 hn hs hp), hi]
  rfl

/-- A region that no chain and no import uses goes into quarantine (R356). -/
theorem bodyNetRegionDereg_unused {x : Region}
    (hx : (regionOf s (r.f 0 4)).filter (fun e => r.reaches e.2.partition) = some (i, x))
    (hu : regionUsed s (r.f 0 4) x = false) :
    bodyNetRegionDereg m r s = .ok { s with net := { s.net with
      regions := tset s.net.regions i { x with rstate := .quarantine, ctDereg := s.ct } } } := by
  rw [bodyNetRegionDereg, hx]
  exact if_neg (Bool.eq_false_iff.mp hu)

theorem bodyNetRegionQuery_named {x : Region}
    (hx : (tget s.net.regions (r.f 0 4 / 256)).filter (fun x => x.gen = r.f 0 4 % 256 && r.reaches x.partition) = some x) :
    bodyNetRegionQuery m r s = .ok s (regionBytes x) := by
  rw [bodyNetRegionQuery, hx]

/-- A quarantine of 500 ms is over (R356). -/
theorem exec_regionQuarantineExpiry_due {x : Region} (hx : tget (s.at m).net.regions i = some x) (hst : x.rstate = .quarantine)
    (ht : x.ctDereg + 500000000 ≤ (s.at m).ct) :
    exec (.regionQuarantineExpiry m i) s =
      .next { s.at m with net := { (s.at m).net with regions := tdel (s.at m).net.regions i } } := by
  have hdue : (decide (x.rstate = .quarantine) && decide (x.ctDereg + 500000000 ≤ (s.at m).ct)) = true := by
    rw [decide_eq_true hst, decide_eq_true ht, Bool.and_self]
  change execRegionQuarantineExpiry m i s = _
  rw [execRegionQuarantineExpiry, hx]
  exact if_pos hdue

end

/-- Settles O26: a port's setting and an interface's link change what is up (`bodyNetPortSet_inRange`, `exec_ethLinkChange_present`), a
connection makes a queue pair (`bodyNetQpConnect_legal`) that a close drains or resets by its state (`bodyNetQpClose_…`), and a region
is placed, goes into quarantine and leaves it (`…Region…`). The opcode of NET_REGION_QUERY is log entry 36. -/
theorem portsQueuePairsAndRegions : Obligations.PortsQueuePairsAndRegions := by
  refine ⟨?portSet, ?portQuery, ?linkUp, ?linkDown, ?connect, ?closeRts, ?closeError, ?qpQuery, ?ccSet, ?regionReg, ?regionDereg,
    ?regionQuery, ?quarantine⟩
  case portSet =>
    exact fun m r s hs hp hm hg hn hb => congrArg Host.Outcome.next
      (runCommand_ended hs (bodyNetPortSet_inRange rfl hp hm hg hn hb))
  case portQuery =>
    exact fun m r s hs hp => congrArg Host.Outcome.next (runCommand_ended hs (bodyNetPortQuery_inRange hp))
  case linkUp => exact fun m ifc s hp hb href hg => exec_ethLinkChange_present hp hb (fun _ => ⟨href, hg⟩)
  case linkDown => exact fun m ifc s hp hb => exec_ethLinkChange_present hp hb nofun
  case connect =>
    exact fun m r s i hs hf hk hroom hi => congrArg Host.Outcome.next
      (runCommand_ended hs (bodyNetQpConnect_legal hf hk hroom hi))
  case closeRts =>
    exact fun m r s i q hs hq hst ho => congrArg Host.Outcome.next (runCommand_goesOn hs (bodyNetQpClose_drains hq hst ho))
  case closeError =>
    exact fun m r s i q hs hq hst ho => congrArg Host.Outcome.next (runCommand_goesOn hs (bodyNetQpClose_resets hq hst ho))
  case qpQuery =>
    exact fun m r s i q hs hq => congrArg Host.Outcome.next (runCommand_ended hs (bodyNetQpQuery_named hq))
  case ccSet =>
    exact fun m r s hs hg hc => congrArg Host.Outcome.next (runCommand_ended hs (bodyNetCcSet_inRange hg hc))
  case regionReg =>
    exact fun m r s i hs h0 hn hsc hp hi => congrArg Host.Outcome.next
      (runCommand_ended hs (bodyNetRegionReg_placed h0 hn hsc hp hi))
  case regionDereg =>
    exact fun m r s i x hs hx hu => congrArg Host.Outcome.next (runCommand_ended hs (bodyNetRegionDereg_unused hx hu))
  case regionQuery =>
    exact fun m r s x hs hx => congrArg Host.Outcome.next (runCommand_ended hs (bodyNetRegionQuery_named hx))
  case quarantine => exact fun m n x s hx hst ht => exec_regionQuarantineExpiry_due hx hst ht

end Sys2Proof.Machine
end

section
/-! Work requests, chains, updates and swaps of the composition map with their ends, the read of ranges, and the PTP ports (R349, R364 to
R366, R370, R371, R374, R379). -/

namespace Sys2Proof.Machine

section
variable {m : Moment} {r : Req} {s : State} {i n p : Nat} {b : Bytes}

/-! ### NET_POST -/

/-- The work requests that `n` blocks of 64 bytes spell (R379). -/
def workRequests (n : Nat) (b : Bytes) : List PostWr := (List.range n).map (fun j => postWr (slice b (64 * j) 64))

section
variable {q : Qp} (hq : qpFor r s (r.f 0 4) = some (i, q)) (hr : (qpReady s i).isOk = true)
include hq hr

/-- Work requests that are legal and leave their unused bytes zero go out in order, as one operation (R10, R379). -/
theorem bodyNetPost_sends (hd : (inData r (64 * r.f 4 4) s).toOption = some b)
    (hl : (workRequests (r.f 4 4) b).all (postWrOk s q) = true)
    (hgap : (List.range (r.f 4 4)).all (fun j => postGap (slice b (64 * j) 64)) = true) (hne : r.f 4 4 ≠ 0)
    (ho : opRoom s r.fn = true) :
    bodyNetPost m r s = .wait (spentMsgs m (postAll s.bench.nextOp i (workRequests (r.f 4 4) b)
      (startOp r 0 1 (((workRequests (r.f 4 4) b).map (·.length)).sum) true [r.f 4 4, 0] s).2)) := by
  have hlegal : ¬ (!(workRequests (r.f 4 4) b).all (postWrOk s q)
      || !(List.range (r.f 4 4)).all (fun j => postGap (slice b (64 * j) 64))) = true := by
    rw [hl, hgap]
    decide
  rw [bodyNetPost, hq]
  dsimp only
  rw [eq_ok_of_isOk hr q]
  exact (withData_ok hd).trans ((if_neg hlegal).trans ((if_neg hne).trans (asOp_room ho)))

/-- A post of no work request completes at once. -/
theorem bodyNetPost_empty (hk : r.f 4 4 = 0) (hd : (inData r 0 s).isOk = true) : bodyNetPost m r s = .ok s (u32 0) := by
  rw [bodyNetPost, hq]
  dsimp only
  rw [eq_ok_of_isOk hr q, hk]
  dsimp only
  rw [withData, Nat.mul_zero, eq_ok_of_isOk hd []]
  rfl

end

/-! ### Chains -/

/-- The work requests of a chain, 32 bytes each (R365). -/
def chainWrs (r : Req) : List Bytes := (List.range (r.f 0x0D 1)).map (fun i => r.b (0x40 + 32 * i) 32)

/-- The chain that NET_CHAIN_POST spells: POSTED, or ARMED where it is for admissions (R364, R366). -/
def spelledChain (r : Req) (gen : Nat) : Chain :=
  { cstate := if r.f 0x0C 1 = 1 then .armed else .posted, gen, partition := r.part16, tag := r.f 4 4, qp := r.f 0 4,
    landing := r.f 8 4, wrs := chainWrs r, template := r.b 0x140 256, admission := r.f 0x0C 1 = 1 }

theorem bodyNetChainPost_checked (hc : (chainPostCheck r r.part16 (chainWrs r) s).isOk = true)
    (hi : pickIdx m 0 s.net.chains 65536 = some i) :
    bodyNetChainPost m r s = .ok
      { s with net := { s.net with chains := tset s.net.chains i (spelledChain r (tgetD s.net.chainGens i 0)) } }
      (u32 (chainHandle i (spelledChain r (tgetD s.net.chainGens i 0)))) := by
  refine (checked_isOk hc).trans ?_
  rw [hi]
  rfl

/-- A chain that does not fire is freed (R366). -/
theorem bodyNetChainCancel_idle {c : Chain}
    (hc : (tget s.net.chains (r.f 0 4 % 65536)).filter (fun c => c.gen = r.f 0 4 / 65536 && r.reaches c.partition) = some c)
    (hst : c.cstate ≠ .firing) : bodyNetChainCancel m r s = .ok (freeChain (r.f 0 4 % 65536) s) := by
  rw [bodyNetChainCancel, hc]
  exact if_neg hst

/-! ### Updates of the map -/

/-- The changes of NET_MAP_UPDATE, 64 bytes each (R371). -/
def updateChanges (r : Req) : List Bytes := (List.range (r.f 0 1)).map (fun i => r.b (0x40 + 64 * i) 64)

/-- The map of a partition with changes under its next epoch, the old targets kept (R371). -/
def mapPublished (p : Nat) (l : List Bytes) (s : State) : State :=
  setEpoch p (nextEpoch s p) (l.foldl (fun t b => mapApply p (nextEpoch s p) true (mapChange b) t) s)

/-- The ranges of changes whose old targets drain (R371). -/
def drainingRanges (l : List Bytes) (s : State) : List Nat :=
  (l.map (fun b => (mapChange b).range)).filter (fun k => (tget s.net.ranges k).any (·.switching))

/-- The update has published its changes, and its operation waits for the old targets (R371). -/
def updateBegun (r : Req) (s : State) : State :=
  let v := (startOp r 1 0 0 true [nextEpoch s r.part16] s).2
  let w := mapPublished r.part16 (updateChanges r) v
  setMapOp s.bench.nextOp
    { op := s.bench.nextOp, partition := r.part16, swap := false, phase := 1,
      ranges := drainingRanges (updateChanges r) w, epoch := nextEpoch v r.part16 } w

theorem bodyNetMapUpdate_begins (h0 : r.f 0 1 ≠ 0) (hn : r.f 0 1 ≤ 64)
    (hc : (mapCheck r.part16 (updateChanges r) s).isOk = true) (ho : opRoom s r.fn = true) :
    bodyNetMapUpdate m r s = .wait (updateBegun r s) := by
  have hrange : ¬ (decide (r.f 0 1 = 0) || decide (64 < r.f 0 1)) = true := by
    simp only [Bool.or_eq_true, decide_eq_true_eq]
    omega
  exact (if_neg hrange).trans ((checked_isOk hc).trans (asOp_room ho))

/-- Ranges whose old targets are forgotten: they are VALID (R370, R371). -/
def oldTargetsForgotten (l : List Nat) (s : State) : State :=
  l.foldl (fun s k => { s with net := { s.net with ranges := tmod s.net.ranges k (fun y =>
    { y with switching := false, oldConn := 0, oldKey := 0, oldOffset := 0 }) } }) s

/-- An update with nothing outstanding against its old targets ends with its epoch (R371). -/
theorem mapUpdateEnd_drained {x : MapOp} (hx : tget s.net.mapOps n = some x) (hu : x.swap = false) (hd : mapDrained s x = true)
    (hs : stopping (oldTargetsForgotten x.ranges s) n = false) :
    mapUpdateEnd n s = endOp n 0 0 (u32 x.epoch)
      (note 0x0A07 0 x.partition 0 [x.partition, x.epoch] (delMapOp n (oldTargetsForgotten x.ranges s))) := by
  have hends : ¬ (x.swap || !mapDrained s x) = true := by
    rw [hu, hd]
    decide
  rw [mapUpdateEnd, hx]
  refine (if_neg hends).trans ?_
  change endOp n (if stopping (oldTargetsForgotten x.ranges s) n then _ else _) 0
    (if stopping (oldTargetsForgotten x.ranges s) n then _ else _) _ = _
  rw [hs]
  rfl

/-! ### Swaps of the map -/

/-- The changes of NET_MAP_SWAP, 64 bytes each (R374). -/
def swapChanges (n : Nat) (b : Bytes) : List Bytes := (List.range n).map (fun i => slice b (64 * i) 64)

/-- The swap's operation begins: until its hold is over it waits for the outstanding requests (R374). -/
def swapBegun (r : Req) (b : Bytes) (s : State) : State :=
  let v := (startOp r 1 0 0 true [] s).2
  setMapOp s.bench.nextOp
    { op := s.bench.nextOp, partition := r.f 0 1, swap := true, phase := 1, changes := swapChanges (r.f 4 4) b,
      due := v.ct + v.net.swapHold } v

theorem bodyNetMapSwap_begins (hg : (partGate opNetMapSwap r (r.f 0 1) s).isOk = true) (hn : r.f 4 4 ≤ 65535)
    (hd : (inData r (64 * r.f 4 4) s).toOption = some b)
    (hc : (mapSwapCheck (r.f 0 1) (swapChanges (r.f 4 4) b) s).isOk = true) (ho : opRoom s r.fn = true) :
    bodyNetMapSwap m r s = .wait (swapBegun r b s) := by
  rw [bodyNetMapSwap, eq_ok_of_isOk hg ()]
  exact (if_neg (Nat.not_lt.mpr hn)).trans ((withData_ok hd).trans ((checked_isOk hc).trans (asOp_room ho)))

/-- A swap past its hold that still waits is given up while requests are outstanding, and goes on once there are none (R374). -/
theorem exec_mapSwapHoldExpiry_due {x : MapOp}
    (hx : (s.at m).net.mapOps.find? (fun e => e.2.swap && e.2.partition = p) = some (n, x)) (ht : x.due ≤ (s.at m).ct)
    (hp : x.phase ≤ 2) :
    exec (.mapSwapHoldExpiry m p) s =
      if 0 < mapOutstanding (s.at m) p then .next (mapSwapDrop n (s.at m)) else .next (mapSwapNext n (s.at m)) := by
  have hdue : ¬ (decide ((s.at m).ct < x.due) || decide (2 < x.phase)) = true := by
    simp only [Bool.or_eq_true, decide_eq_true_eq]
    omega
  change execMapSwapHoldExpiry m p s = _
  rw [execMapSwapHoldExpiry, hx]
  exact if_neg hdue

/-! ### The read of ranges -/

/-- The bytes of a range as request `r` may see them: zero where the range is another partition's (R370, R379). -/
def rangeSeen (r : Req) (s : State) (k : Nat) : Bytes :=
  ((tget s.net.ranges k).map (fun x => if r.reaches x.partition then rangeBytes s k else zeros 64)).getD (rangeBytes s k)

theorem bodyNetMapRead_inRange (h0 : r.f 2 2 ≠ 0) (hn : r.f 2 2 ≤ 60) (hend : r.f 0 2 + r.f 2 2 ≤ 65535) :
    bodyNetMapRead m r s = .ok s ((List.range (r.f 2 2)).flatMap (fun i => rangeSeen r s (r.f 0 2 + i))) := by
  have hrange : ¬ (decide (r.f 2 2 = 0) || decide (60 < r.f 2 2) || decide (65535 < r.f 0 2 + r.f 2 2)) = true := by
    simp only [Bool.or_eq_true, decide_eq_true_eq]
    omega
  refine (if_neg hrange).trans (congrArg (fun f => Reply.ok s ((List.range (r.f 2 2)).flatMap f)) (funext fun i => ?_))
  rw [rangeSeen]
  cases tget s.net.ranges (r.f 0 2 + i) with
  | none => rfl
  | some x => rfl

/-! ### PTP ports -/

/-- NET_PTP_SET keeps profile, transport and domain (R349). -/
def samePtp (r : Req) (s : State) : Bool :=
  s.net.ptp.profile = r.f 4 1 && s.net.ptp.transport = r.f 5 1 && s.net.ptp.domain = r.f 6 1

/-- The PTP ports and profile that NET_PTP_SET spells; a change of profile, transport or domain forgets the time transmitters, and an
interface that is no port any more its own (R349). -/
def ptpSetBy (r : Req) (s : State) : Ptp :=
  { ifMask := r.f 0 4, profile := r.f 4 1, transport := r.f 5 1, domain := r.f 6 1,
    selected := if samePtp r s then s.net.ptp.selected.filter (bit (r.f 0 4)) else none,
    heard := if samePtp r s then s.net.ptp.heard.filter (fun e => bit (r.f 0 4) e.1) else [] }

theorem bodyNetPtpSet_inRange (hi : (setBits 32 (r.f 0 4)).all (ifPresent s) = true) (hp : r.f 4 1 ≤ 1) (ht : r.f 5 1 ≤ 2)
    (hd : r.f 6 1 ≤ 127) : bodyNetPtpSet m r s = .ok { s with net := { s.net with ptp := ptpSetBy r s } } := by
  have hrange : ¬ (!(setBits 32 (r.f 0 4)).all (ifPresent s) || decide (1 < r.f 4 1) || decide (2 < r.f 5 1)
      || decide (127 < r.f 6 1)) = true := by
    rw [hi]
    simp only [Bool.not_true, Bool.false_or, Bool.or_eq_true, decide_eq_true_eq]
    omega
  exact if_neg hrange

end

/-- Settles O27: each command's checks pass and its body begins, frees or reads what it names (`bodyNet…`); an update ends once its old
targets have drained (`mapUpdateEnd_drained`), and a swap past its hold is given up or goes on (`exec_mapSwapHoldExpiry_due`). The
operands of a chain's work requests are log entry 28, and that the hold has no setter is log entry 59. -/
theorem postsChainsAndTheComposedMap : Obligations.PostsChainsAndTheComposedMap := by
  refine ⟨?post, ?postNone, ?chainPost, ?chainCancel, ?update, ?drained, ?updateEnd, ?swap, ?holdDrop, ?holdNext, ?read, ?ptp⟩
  case post =>
    exact fun m r s i q b hs hq hr hd hl hne ho hgap => congrArg Host.Outcome.next
      (runCommand_goesOn hs (bodyNetPost_sends hq hr hd hl hgap hne ho))
  case postNone =>
    exact fun m r s i q hs hq hr hk hd => congrArg Host.Outcome.next (runCommand_ended hs (bodyNetPost_empty hq hr hk hd))
  case chainPost =>
    exact fun m r s i hs hc hi => congrArg Host.Outcome.next (runCommand_ended hs (bodyNetChainPost_checked hc hi))
  case chainCancel =>
    exact fun m r s c hs hc hst => congrArg Host.Outcome.next (runCommand_ended hs (bodyNetChainCancel_idle hc hst))
  case update =>
    exact fun m r s hs h0 hn hc ho => congrArg Host.Outcome.next (runCommand_goesOn hs (bodyNetMapUpdate_begins h0 hn hc ho))
  case drained => exact fun m p s => rfl
  case updateEnd => exact fun n s x hx hu hd hs => mapUpdateEnd_drained hx hu hd hs
  case swap =>
    exact fun m r s b hs hg hn hd hc ho => congrArg Host.Outcome.next
      (runCommand_goesOn hs (bodyNetMapSwap_begins hg hn hd hc ho))
  case holdDrop => exact fun m p n x s hx ht hp hout => (exec_mapSwapHoldExpiry_due hx ht hp).trans (if_pos hout)
  case holdNext =>
    exact fun m p n x s hx ht hp hout => (exec_mapSwapHoldExpiry_due hx ht hp).trans (if_neg (Nat.not_lt.mpr (Nat.le_of_eq hout)))
  case read =>
    exact fun m r s hs h0 hn hend => congrArg Host.Outcome.next (runCommand_ended hs (bodyNetMapRead_inRange h0 hn hend))
  case ptp =>
    exact fun m r s hs hi hp ht hd => congrArg Host.Outcome.next (runCommand_ended hs (bodyNetPtpSet_inRange hi hp ht hd))

end Sys2Proof.Machine
end

section
/-! Packets of GX and RC queue pairs that pass the checks, acknowledgements, and what congestion control hears (R348, R353, R357 to
R363). -/

namespace Sys2Proof.Machine

section
variable {m : Moment} {p : Pkt} {s : State} {q z : Qp}

/-! ### GX requests and responses -/

/-- A packet reaches a GX queue pair without a stall, which takes it after its answer to a congestion mark (R362, R363). -/
theorem gxReceive_taken (ha : (arrives p.qp p s).1 = true) (hq : getQp s p.qp = some q) (hgx : q.gx = true)
    (hz : getQp (answerCe p.qp p s) p.qp = some z) (hstall : z.stalled.isEmpty = true) :
    gxReceive m p s = gxTake m p.qp p (answerCe p.qp p s) := by
  rw [gxReceive, arrives_true ha]
  simp only [Bool.not_true, Bool.false_eq_true, if_false, hq, hgx]
  rw [gxGo, hz]
  simp only [hstall, Bool.not_true, Bool.false_eq_true, if_false]

/-- A request that passes the checks and needs only resident pages is answered, taken as a seal, or placed (R357 to R360, R362). -/
theorem gxTake_resident {i j : Nat} {w : Pkt} {r : Region} (hz : getQp s i = some z)
    (hc : (gxChecks m i z p s).packet = some w) (hw : isResponse w = false) (hr : regionOf s w.key = some (j, r))
    (hres : (missingList s r (gxAccess w).2.1 (gxAccess w).2.2).isEmpty = true) :
    gxTake m i p s =
      if w.opcode = 0xE1 then gxAnswer m i w r s else if bit w.flags 7 then gxSealIn m i w s else gxPlace m i w s := by
  rw [gxTake, hz]
  dsimp only
  rw [packet_some hc]
  dsimp only
  rw [hw, hr]
  simp only [hres, Bool.not_true, Bool.false_eq_true, if_false, if_true]

/-- A response that passes the checks is put at its requester's destination (R360). -/
theorem gxTake_response {i : Nat} {w : Pkt} (hz : getQp s i = some z) (hc : (gxChecks m i z p s).packet = some w)
    (hw : isResponse w = true) : gxTake m i p s = gxResponse i w s := by
  rw [gxTake, hz]
  dsimp only
  rw [packet_some hc]
  exact if_pos hw

/-! ### GX acknowledgements -/

/-- The message of the packet that an acknowledgement names (R361). -/
def ackedMsg (q : Qp) (p : Pkt) : Option Nat := (tget q.tx p.ackPsn).map (·.pkt.msg)

/-- An acknowledgement in time retires what it covers; a NAK that refuses a message is heard before the messages complete, any other
after (R353, R359, R361). -/
theorem gxAck_inTime (ha : (arrives p.qp p s).1 = true) (hq : getQp s p.qp = some q) (hgx : q.gx = true)
    (hf : gxWellFormed q p = true) (hop : p.opcode = 0xE2) (hage : gxAged s p = false) :
    gxAck m p s =
      if p.nak = 0x11 || p.nak = 0x12 || p.nak = 0x13 then
        ackDone p.qp p.psn (gxNak m p.qp p (ackedMsg q p) (ackCovers p.qp p s))
      else gxNak m p.qp p (ackedMsg q p) (ackDone p.qp p.psn (ackCovers p.qp p s)) := by
  rw [gxAck, arrives_true ha]
  simp only [if_true, hq, hgx, hf, hop, hage, Bool.not_true, ne_eq, not_true_eq_false, decide_false, Bool.or_self,
    Bool.false_eq_true, if_false]
  rfl

/-! ### RC packets -/

/-- No packet sequence number lies before itself. -/
theorem psnBefore_self (a : Nat) : psnBefore a a = false := by
  rw [psnBefore, psnDiff, Nat.add_sub_cancel_left]
  decide

/-- An RC request that is the next one expected is taken in its turn (R348). -/
theorem rcReceive_next (ha : (arrives p.qp p s).1 = true) (hq : getQp s p.qp = some q) (hrc : q.gx = false)
    (hop : p.bth ≤ 0x0C) (hpsn : p.psn = q.cumPsn) (hz : getQp (answerCe p.qp p s) p.qp = some z) :
    rcReceive m p s = rcRequest m p.qp z p (answerCe p.qp p s) := by
  have hack : p.bth ≠ 0x11 := by omega
  have hresp : ¬ 0x0D ≤ p.bth := by omega
  rw [rcReceive, arrives_true ha]
  simp only [if_true, hq, hrc, hack, hresp, hpsn, psnBefore_self, decide_false, Bool.false_and, Bool.false_eq_true, if_false,
    ne_eq, not_true_eq_false, hz]

theorem rcReceive_ack (ha : (arrives p.qp p s).1 = true) (hq : getQp s p.qp = some q) (hrc : q.gx = false)
    (hop : p.bth = 0x11) : rcReceive m p s = rcAckIn m p.qp p (answerCe p.qp p s) := by
  rw [rcReceive, arrives_true ha]
  simp only [if_true, hq, hrc, hop, Bool.false_eq_true, if_false]

/-! ### Congestion control -/

/-- A CNP is counted, and the rate falls (R363). -/
theorem exec_cnpReceive_known {i : Nat} (hq : getQp (s.at m) i = some q) :
    exec (.cnpReceive m i) s = .next (ccDecrease i (bump .netCnpRecv q.partition 1 (s.at m))) := by
  change execCnpReceive m i s = _
  rw [execCnpReceive, hq]

/-- A period without a decrease raises the rate, to at most that of the interfaces (R363). -/
theorem exec_ccRateIncrease_due {i : Nat} (hq : getQp (s.at m) i = some q)
    (ht : q.ctInc + 1000 * (ccOf (s.at m) q.partition).aiPeriod ≤ (s.at m).ct) :
    exec (.ccRateIncrease m i) s = .next (setQp i
      { q with rate := min (rateMax (s.at m) q) (q.rate + (ccOf (s.at m) q.partition).aiStep), ctInc := (s.at m).ct }
      (s.at m)) := by
  change execCcRateIncrease m i s = _
  rw [execCcRateIncrease, hq]
  exact if_neg (Nat.not_lt.mpr ht)

end

/-- Settles O28: a packet is taken after its answer to a congestion mark (`gxReceive_taken`), a request by its kind (`gxTake_resident`), a
response at its destination (`gxTake_response`); acknowledgements and RC packets are heard in turn (`gxAck_inTime`, `rcReceive_…`).
The codes of RC and the mark of a GX response are log entries 31 and 33. -/
theorem gxPacketsAreTaken : Obligations.GxPacketsAreTaken := by
  refine ⟨?data, ?sealed, ?read, ?response, ?ack, ?rcNext, ?rcAck, ?cnp, ?rateIncrease⟩
  case data =>
    intro m p w q z j r s u v ha hq hgx hstall hz hc hw hr hres hop hflag
    exact next_settleAll m ((gxReceive_taken ha hq hgx hz hstall).trans ((gxTake_resident hz hc hw hr hres).trans
      ((if_neg hop).trans (if_neg (Bool.eq_false_iff.mp hflag)))))
  case sealed =>
    intro m p w q z j r s u v ha hq hgx hstall hz hc hw hr hres hop hflag
    exact next_settleAll m ((gxReceive_taken ha hq hgx hz hstall).trans ((gxTake_resident hz hc hw hr hres).trans
      ((if_neg hop).trans (if_pos hflag))))
  case read =>
    intro m p w q z j r s u v ha hq hgx hstall hz hc hw hr hres hop
    exact next_settleAll m ((gxReceive_taken ha hq hgx hz hstall).trans ((gxTake_resident hz hc hw hr hres).trans (if_pos hop)))
  case response =>
    intro m p w q z s u v ha hq hgx hstall hz hc hw
    exact next_settleAll m ((gxReceive_taken ha hq hgx hz hstall).trans (gxTake_response hz hc hw))
  case ack => exact fun m p q s ha hq hgx hf hop hage => next_settleAll m (gxAck_inTime ha hq hgx hf hop hage)
  case rcNext => exact fun m p q z s ha hq hrc hop hpsn hz => next_settleAll m (rcReceive_next ha hq hrc hop hpsn hz)
  case rcAck => exact fun m p q s ha hq hrc hop => next_settleAll m (rcReceive_ack ha hq hrc hop)
  case cnp => exact fun m i q s hq => exec_cnpReceive_known hq
  case rateIncrease => exact fun m i q s hq ht => exec_ccRateIncrease_due hq ht

end Sys2Proof.Machine
end

section
/-! The timers of queue pairs: acknowledgements and their timeouts, backoffs, paths, held seals, drains and stalls (R352, R353, R359, R361,
R362). -/

namespace Sys2Proof.Machine

section
variable {m : Moment} {s : State} {i n c : Nat} {q : Qp} {t : TxPkt}

/-! ### Acknowledgements and retransmission -/

/-- An acknowledgement that is due goes out, 1 µs after the last one (R353). -/
theorem exec_gxAckTimer_due (hq : getQp (s.at m) i = some q) (hgx : q.gx = true) (hd : q.ackDue = true)
    (ht : q.ctAck.all (fun c => decide (c + 1000 ≤ (s.at m).ct)) = true) :
    exec (.gxAckTimer m i) s = .next (sendAck i 0 0 0 0 (s.at m)) := by
  have hdue : (q.gx && q.ackDue && q.ctAck.all (fun c => decide (c + 1000 ≤ (s.at m).ct))) = true := by
    rw [hgx, hd, ht]
    rfl
  change execGxAckTimer m i s = _
  rw [execGxAckTimer, hq]
  exact if_pos hdue

/-- The queue pair has counted one more timeout. -/
def timedOut (i : Nat) (q : Qp) (s : State) : State := setQp i { q with timeouts := q.timeouts + 1 } s

/-- A packet past its timeout fails its queue pair at the retry limit or when it is too old, and else goes out again over the next path
(R353). -/
theorem exec_gxAckTimeout_due (hq : getQp (s.at m) i = some q) (hx : tget q.tx n = some t) (hgx : q.gx = true)
    (hs : t.sacked = false) (hr : t.resend = none) (ht : t.ctLast + q.ackTo ≤ (s.at m).ct) :
    exec (.gxAckTimeout m i n) s = .next (if q.retryLim ≤ q.timeouts + 1 || tooOld (s.at m) t then qpFail m i 1 (s.at m)
      else resend i n (ccDecrease i (pathTimeout i t.path (timedOut i q (s.at m))))) := by
  have hdue : ¬ (!q.gx || t.sacked || t.resend.isSome || decide ((s.at m).ct < t.ctLast + q.ackTo)) = true := by
    rw [hgx, hs, hr, decide_eq_false (Nat.not_lt.mpr ht)]
    decide
  change execGxAckTimeout m i n s = _
  rw [execGxAckTimeout, hq]
  dsimp only
  rw [hx]
  exact (if_neg hdue).trans (apply_ite Host.Outcome.next ..).symm

/-- A packet whose NAK backoff has passed goes out again, where it is not too old (R361). -/
theorem exec_gxNakBackoffExpiry_due (hx : (getQp (s.at m) i).bind (fun q => tget q.tx n) = some t) (hr : t.resend = some c)
    (hc : c ≤ (s.at m).ct) :
    exec (.gxNakBackoffExpiry m i n) s = .next (if (getQp (s.at m) i).any (·.gx) && tooOld (s.at m) t then qpFail m i 1 (s.at m)
      else resend i n (s.at m)) := by
  have hdue : ¬ t.resend.all (fun c => decide ((s.at m).ct < c)) = true := by
    rw [hr, Option.all_some, decide_eq_true_eq]
    exact Nat.not_lt.mpr hc
  change execGxNakBackoffExpiry m i n s = _
  rw [execGxNakBackoffExpiry, hx]
  exact (if_neg hdue).trans (apply_ite Host.Outcome.next ..).symm

/-- A path whose suspension has passed is used again (R353). -/
theorem exec_gxPathResume_due (hq : getQp (s.at m) i = some q) (hp : tget q.pathSkip n = some c) (hc : c ≤ (s.at m).ct) :
    exec (.gxPathResume m i n) s = .next (setQp i { q with pathSkip := tdel q.pathSkip n } (s.at m)) := by
  have hdue : (tget q.pathSkip n).any (fun c => decide (c ≤ (s.at m).ct)) = true := by
    rw [hp, Option.any_some]
    exact decide_eq_true hc
  change execGxPathResume m i n s = _
  rw [execGxPathResume, hq]
  exact if_pos hdue

/-- An RC queue pair whose oldest packet is past its timeout fails at the retry limit, and else sends everything again from it (R353). -/
theorem exec_rcLocalAckTimeout_due (hq : getQp (s.at m) i = some q) (hx : q.tx.head? = some (n, t)) (hrc : q.gx = false)
    (ht : t.ctLast + q.ackTo ≤ (s.at m).ct) :
    exec (.rcLocalAckTimeout m i) s = .next (if q.retryLim ≤ q.timeouts + 1 then qpFail m i 1 (s.at m)
      else q.tx.foldl (fun s t => resend i t.1 s) (ccDecrease i (timedOut i q (s.at m)))) := by
  have hdue : ¬ (q.gx || decide ((s.at m).ct < t.ctLast + q.ackTo)) = true := by
    rw [hrc, decide_eq_false (Nat.not_lt.mpr ht)]
    decide
  change execRcLocalAckTimeout m i s = _
  rw [execRcLocalAckTimeout, hq]
  dsimp only
  rw [hx]
  exact (if_neg hdue).trans (apply_ite Host.Outcome.next ..).symm

/-! ### Held seals, drains and stalls -/

/-- The message `n` has failed with its held seal, whose buffer is free (R359). -/
def sealFailed (i n : Nat) (q : Qp) (s : State) : State :=
  let v := bump .netSealFailed q.partition 1 (freeSeal i n s)
  setRx i n { getRx v i n with failed := true } v

/-- A held seal past its time fails: its sender hears of it, and later seals go on (R359). -/
theorem sealTimeout_due {x : RxMsg} {p : Pkt} (hq : getQp s i = some q) (hx : tget q.rx n = some x) (hp : x.sealPkt = some p)
    (hh : x.held = true) (ht : x.ctSeal + q.sealTo ≤ s.ct) :
    sealTimeout m i n s = settleCum i (applySeals m i 600 (sendAck i 0x13 p.psn 0 0
      (if bit p.flags 6 then chainSealFailed q.partition (qpHandle (sealFailed i n q s) i) p.tag (sealFailed i n q s)
        else sealFailed i n q s))) := by
  have hseal : (tget q.rx n).bind (fun x => x.sealPkt.map (fun p => (x, p))) = some (x, p) := by
    rw [hx, Option.bind_some, hp]
    rfl
  have hdue : ¬ (!x.held || decide (s.ct < x.ctSeal + q.sealTo)) = true := by
    rw [hh, decide_eq_false (Nat.not_lt.mpr ht)]
    decide
  rw [sealTimeout, hq]
  dsimp only
  rw [hseal]
  exact if_neg hdue

/-- A drain without work left, or past its time, ends with its close, and the queue pair is in RESET (R352). -/
theorem exec_qpDrainEnd_over (hq : getQp (s.at m) i = some q) (hst : q.state = .draining)
    (hd : q.msgs.all (fun x => x.2.done || x.2.failed ≠ 0) = true ∨ q.drainDue ≤ (s.at m).ct) :
    exec (.qpDrainEnd m i) s = .next (endOp q.drainOp (if stopping (s.at m) q.drainOp then St.cancelled else St.ok) 0 []
      (qpReset i (s.at m))) := by
  have hover : (decide (q.state = .draining)
      && (q.msgs.all (fun x => x.2.done || x.2.failed ≠ 0) || decide (q.drainDue ≤ (s.at m).ct))) = true := by
    rw [decide_eq_true hst, Bool.true_and, Bool.or_eq_true, decide_eq_true_eq]
    exact hd
  change execQpDrainEnd m i s = _
  rw [execQpDrainEnd, hq]
  exact if_pos hover

/-- The staging granules of `k` stalled packets are free, the estimate of when their pages will be resident drawn (R362; log entry
34). -/
def stallReleased (k : Nat) (s : State) : State :=
  move Lg.staging 0 1 0 k 10 0
    { (fresh s).2 with net := { (fresh s).2.net with staging := (fresh s).2.net.staging - k } }

/-- A stall of 50 µs ends: its first packet must come again, and those behind it go on (R362). -/
theorem stallExpiry_due {p : Pkt} {l : List Pkt} (hq : getQp s i = some q) (hl : q.stalled = p :: l) (ht : q.ctStall + 50000 ≤ s.ct) :
    stallExpiry m i s = l.foldl (fun s p => gxGo m p s) (sendAck i 2 p.psn (residentBackoff (fresh s).1) 0
      (setQp i { q with stalled := [] } (stallReleased q.stalled.length s))) := by
  rw [stallExpiry, hq]
  dsimp only
  rw [hl]
  exact if_neg (Nat.not_lt.mpr ht)

end

/-- Settles O29: each row finds its queue pair and its timer due (`exec_…_due`), and does what R353 and R361 say of it; a held seal
fails, a drain ends and a stall is answered (`sealTimeout_due`, `exec_qpDrainEnd_over`, `stallExpiry_due`). That the cause of QP_FAILED
is 1 for the retry limit and for 1.5 s is log entry 32. -/
theorem networkTimersAndEnds : Obligations.NetworkTimersAndEnds := by
  refine ⟨?ackTimer, ?ackTimeout, ?nakBackoff, ?pathResume, ?rcTimeout, ?heldSeal, ?drain, ?stall⟩
  case ackTimer => exact fun m i q s hq hgx hd ht => exec_gxAckTimer_due hq hgx hd ht
  case ackTimeout => exact fun m i n q t s hq hx hgx hs hr ht => exec_gxAckTimeout_due hq hx hgx hs hr ht
  case nakBackoff => exact fun m i n c t s hx hr hc => exec_gxNakBackoffExpiry_due hx hr hc
  case pathResume => exact fun m i n c q s hq hp hc => exec_gxPathResume_due hq hp hc
  case rcTimeout => exact fun m i n q t s hq hx hrc ht => exec_rcLocalAckTimeout_due hq hx hrc ht
  case heldSeal => exact fun m i n q x p s hq hx hp hh ht => next_settleAll m (sealTimeout_due hq hx hp hh ht)
  case drain => exact fun m i q s hq hst hd => exec_qpDrainEnd_over hq hst hd
  case stall => exact fun m i q p l s hq hl ht => next_settleAll m (stallExpiry_due hq hl ht)

end Sys2Proof.Machine
end

section
/-! NVMe over Fabrics controllers and their completions, and PTP's messages and losses (R349, R350, R474). -/

namespace Sys2Proof.Machine

section
variable {m : Moment} {r : Req} {s : State} {i c n : Nat} {ok : Bool} {data : Bytes}

/-! ### NVMe over Fabrics -/

/-- The controller that NVME_CONNECT spells, whose operation is `op` (R350). -/
def spelledCtrl (r : Req) (op : Nat) : NvCtrl :=
  { handle := r.f 0 4, subnqn := r.b 0x10 256, hostnqn := r.b 0x110 256, ioQueues := r.f 0x210 1, depth := r.f 0x212 2, op }

/-- A controller is stored. -/
def setCtrl (c : Nat) (x : NvCtrl) (s : State) : State := { s with net := { s.net with ctrls := tset s.net.ctrls c x } }

/-- The connection begins: the controller is taken, and Connect and Identify go out (R350). -/
def connectBegun (r : Req) (c : Nat) (s : State) : State :=
  nvmeIssue c 0 3 0 0 (r.b 0x10 512) { controller := c, owner := .connect s.bench.nextOp }
    (setCtrl c (spelledCtrl r s.bench.nextOp) (startOp r 0 0 0 false [c] s).2)

theorem bodyNvmeConnect_begins {x : Qp} (hx : qpOf s (r.f 0 4) = some (i, x)) (hrc : x.gx = false)
    (hq : 1 ≤ r.f 0x210 1 ∧ r.f 0x210 1 ≤ 64) (hd : 16 ≤ r.f 0x212 2 ∧ r.f 0x212 2 ≤ 1024) (hst : x.state = .rts)
    (hc : pickIdx m 0 s.net.ctrls 64 = some c) (ho : opRoom s r.fn = true) :
    bodyNvmeConnect m r s = .wait (connectBegun r c s) := by
  have hrange : ¬ (x.gx || decide (r.f 0x210 1 = 0) || decide (64 < r.f 0x210 1) || decide (r.f 0x212 2 < 16)
      || decide (1024 < r.f 0x212 2)) = true := by
    rw [hrc]
    simp only [Bool.false_or, Bool.or_eq_true, decide_eq_true_eq]
    omega
  rw [bodyNvmeConnect, hx]
  refine (if_neg hrange).trans ((if_neg (not_not_intro hst)).trans ?_)
  rw [hc]
  exact asOp_room ho

/-- A disconnection fails what is outstanding, and drops the controller (R350, R379). -/
theorem bodyNvmeDisconnect_known (hc : (tget s.net.ctrls (r.f 0 1)).isSome = true) (ho : opRoom s r.fn = true) :
    bodyNvmeDisconnect m r s =
      .wait (dropCtrl (r.f 0 1) (nvmeFailAll m (r.f 0 1) (startOp r 0 0 0 false [r.f 0 1] s).2)) := by
  have hknown : ¬ (tget s.net.ctrls (r.f 0 1)).isNone = true := by
    rw [Option.isNone_iff_eq_none]
    exact Option.isSome_iff_ne_none.mp hc
  exact (if_neg hknown).trans (asOp_room ho)

/-- A command is no longer outstanding. -/
def cmdEnded (n : Nat) (s : State) : State := { s with net := { s.net with cmds := tdel s.net.cmds n } }

/-- The unit that issued the command `x` takes its completion (R350). -/
def ownerHears (m : Moment) (o : NvOwner) (x : NvCmd) (ok : Bool) (data : Bytes) (s : State) : State :=
  match o with
  | .cut g => cutIo g x ok s
  | .restore g => restoreIo g ok data s
  | .recover k => recoverIo m k ok data s
  | .connect k => connectIo k ok data s

/-- A completion reaches the unit that issued the command (R350). -/
theorem nvmeDone_outstanding {x : NvCmd} {o : NvOwner} (hx : tget s.net.cmds n = some x) (ho : x.owner = o) :
    nvmeDone m n ok data s = ownerHears m o x ok data (cmdEnded n s) := by
  rw [nvmeDone, hx, ← ho]
  rfl

/-- The controller with the namespaces that Identify lists (R350; log entry 30). -/
def NvCtrl.connectedWith (x : NvCtrl) (l : List (Nat × Nat × Bool)) : NvCtrl :=
  { x with connected := true, op := 0, namespaces := l.foldl (fun t e => tset t e.1 e.2.1) [] }

/-- A controller whose namespaces are all supported is connected with them (R350). -/
theorem connectIo_supported {x : NvCtrl} (hx : s.net.ctrls.find? (fun e => e.2.op = n) = some (c, x))
    (hl : (namespacesOf data).any (fun e => !((e.2.1 = 512 || e.2.1 = 4096) && e.2.2)) = false) :
    connectIo n true data s =
      endOp n 0 0 (u8 c ++ u32 (namespacesOf data).length) (setCtrl c (x.connectedWith (namespacesOf data)) s) := by
  rw [connectIo, hx]
  exact if_neg (Bool.eq_false_iff.mp hl)

/-- A controller that is lost fails what is outstanding, and is dropped (R350, R378). -/
theorem nvmeLost_known {cause : Nat} (hc : (tget s.net.ctrls c).isSome = true) :
    nvmeLost m c cause s = dropCtrl c (nvmeFailAll m c (note 0x0A08 1 0xFF 0 [c, cause] s)) := by
  obtain ⟨x, hx⟩ := Option.isSome_iff_exists.mp hc
  rw [nvmeLost, hx]

/-! ### PTP -/

/-- A Sync of the selected interface gives an offset (R349, R474). -/
theorem exec_ptpMessageReceive_sync {every : Nat} {theta : Int} (hp : bit (s.at m).net.ptp.ifMask i = true)
    (he : syncEvery every = true) (hsel : (s.at m).net.ptp.selected = some i) :
    exec (.ptpMessageReceive m (.sync i theta every)) s = .next (ptpSync theta every (s.at m)) :=
  congrArg Host.Outcome.next ((check_passes hp).trans ((check_passes he).trans (if_pos hsel)))

/-- The state with what PTP has heard of time transmitters. -/
def setHeard (l : Tab (Nat × Nat × Nat)) (s : State) : State :=
  { s with net := { s.net with ptp := { s.net.ptp with heard := l } } }

/-- An Announce enters the selection of the best master (R349). -/
theorem exec_ptpMessageReceive_announce {rank every : Nat} (hp : bit (s.at m).net.ptp.ifMask i = true)
    (he : announceEvery every = true) :
    exec (.ptpMessageReceive m (.announce i rank every)) s =
      .next (ptpSelect (setHeard (tset (s.at m).net.ptp.heard i (rank, every, (s.at m).ct)) (s.at m))) :=
  congrArg Host.Outcome.next ((check_passes hp).trans (check_passes he))

/-- An Announce not renewed within three intervals leaves the selection (R349). -/
theorem exec_ptpAnnounceTimeout_due {rank every ct : Nat} (hh : tget (s.at m).net.ptp.heard i = some (rank, every, ct))
    (ht : ct + 3 * every ≤ (s.at m).ct) :
    exec (.ptpAnnounceTimeout m i) s = .next (ptpSelect (setHeard (tdel (s.at m).net.ptp.heard i) (s.at m))) := by
  change execPtpAnnounceTimeout m i s = _
  rw [execPtpAnnounceTimeout, hh]
  exact congrArg Host.Outcome.next (if_pos ht)

/-- Without a Sync for four intervals, or without a selected port, PTP is lost (R474). -/
theorem exec_ptpSourceLoss_due {ct : Nat} (hl : (s.at m).clk.ptpLast = some ct)
    (hd : ct + 4 * (s.at m).clk.ptpEvery ≤ (s.at m).ct ∨ (s.at m).net.ptp.selected = none) :
    exec (.ptpSourceLoss m) s =
      .next (sourceLost 1 (modClk (fun c => { c with ptpLast := none, skewRun := 0 }) (s.at m))) := by
  have hlost : (decide (ct + 4 * (s.at m).clk.ptpEvery ≤ (s.at m).ct) || (s.at m).net.ptp.selected.isNone) = true := by
    rw [Bool.or_eq_true, decide_eq_true_eq, Option.isNone_iff_eq_none]
    exact hd
  change execPtpSourceLoss m s = _
  rw [execPtpSourceLoss, hl]
  exact congrArg Host.Outcome.next (if_pos hlost)

end

/-- Settles O30: a connection begins over an RC queue pair (`bodyNvmeConnect_begins`) and its completion connects the controller
(`connectIo_supported`); a completion reaches its unit (`nvmeDone_outstanding`), a disconnection and a lapse drop the controller
(`bodyNvmeDisconnect_known`, `nvmeLost_known`), and PTP's messages and timers are those of R349 (`exec_ptp…`). What Identify carries is
log entry 30. -/
theorem nvmeAndPtp : Obligations.NvmeAndPtp := by
  refine ⟨?connect, ?disconnect, ?connectDone, ?cutDone, ?restoreDone, ?connected, ?lapse, ?sync, ?announce, ?announceTimeout,
    ?sourceLoss⟩
  case connect =>
    exact fun m r s i c x hs hx hrc hq hd hst hc ho => congrArg Host.Outcome.next
      (runCommand_goesOn hs (bodyNvmeConnect_begins hx hrc hq hd hst hc ho))
  case disconnect =>
    exact fun m r s hs hc ho => congrArg Host.Outcome.next (runSettled_goesOn hs (bodyNvmeDisconnect_known hc ho))
  case connectDone => exact fun m n k ok data c s hx ho => next_settleAll m (nvmeDone_outstanding hx ho)
  case cutDone => exact fun m n g ok data c s hx ho => next_settleAll m (nvmeDone_outstanding hx ho)
  case restoreDone => exact fun m n g ok data c s hx ho => next_settleAll m (nvmeDone_outstanding hx ho)
  case connected => exact fun n c data s x hx hl => connectIo_supported hx hl
  case lapse => exact fun m c s hc => next_settleAll m (nvmeLost_known hc)
  case sync => exact fun m i every theta s hp he hsel => exec_ptpMessageReceive_sync hp he hsel
  case announce => exact fun m i rank every s hp he => exec_ptpMessageReceive_announce hp he
  case announceTimeout => exact fun m i rank every ct s hh ht => exec_ptpAnnounceTimeout_due hh ht
  case sourceLoss => exact fun m ct s hl hd => exec_ptpSourceLoss_due hl hd

end Sys2Proof.Machine
end

section
/-! No step lowers the anti-rollback counter or touches the revocation bits (R436). -/

namespace Sys2Proof.Machine

/-- Settles O50: an empty queue idles; a command taken off the queue leaves the Hallmark as it was, and its effect keeps what `Kept`
names, of which the counter and the revocation bits are two fields. -/
theorem theAntiRollbackCounterNeverFalls : Obligations.TheAntiRollbackCounterNeverFalls := by
  intro s t h
  cases hp : s.pending with
  | nil =>
    rw [step_idle hp] at h
    cases h
    exact ⟨Nat.le_refl _, rfl⟩
  | cons c rest =>
    rw [step_front hp] at h
    have k := kept_of_exec h
    exact ⟨k.counter, k.revoked⟩

end Sys2Proof.Machine
end

section
/-! The words HMK_PART, PWR_GROUP, SWL_LINK and TWIN_PAIR: their fields, where BAR0 shows them, and that no write reaches them (R9, R402,
R403, R457, R458, R485, R486). -/

namespace Sys2Proof.Machine

/-! ### Bounds of fields -/

theorem b2n_le_one (b : Bool) : b2n b ≤ 1 := by cases b <;> decide

theorem popcount_le (n v : Nat) : popcount n v ≤ n :=
  (List.length_filter_le _ _).trans_eq List.length_range

theorem pstateCode_le (x : PState) : pstateCode x ≤ 2 := by cases x <;> decide

theorem tdiCode_le (x : Tdi) : tdiCode x ≤ 4 := by cases x <;> decide

theorem LState.code_le (x : LState) : x.code ≤ 5 := by cases x <;> decide

/-- TSTATE as a number (R403). -/
def tstateCode : TState → Nat
  | .locked => 1
  | .lost => 2

theorem tstateCode_le (x : TState) : tstateCode x ≤ 2 := by cases x <;> decide

/-! ### Where the words stand -/

section
variable {s : State} {fn : Nat}

/-- A write to the mirrors at 0x0040_0000 and above changes nothing (R9). -/
theorem exec_registerWrite_mirror {m : Moment} {off value : Nat} (ho : 0x400000 ≤ off) (ha : off % 4 = 0)
    (hr : hostReach (s.at m) = true) (hf : fnRefused (s.at m) fn = false) :
    exec (.registerWrite m fn 0 off 4 value) s = .next (s.at m) := by
  by_cases hfn : fn ≤ 16
  · have hm := mbxCount_le fn
    rw [exec_registerWrite hfn (.inl rfl) ha, hostAccess_served hr hf,
      registerWrite_elsewhere (.inr (by omega)) (.inr (by omega)) (.inr (by omega))]
  · have hg : (decide (16 < fn) || (decide (4 ≠ 4) && decide (4 ≠ 8)) || decide (off % 4 ≠ 0)) = true := by
      rw [decide_eq_true (Nat.lt_of_not_le hfn)]
      rfl
    exact congrArg Host.Outcome.next (if_pos hg)

/-- A word at offset `o` of mirror page `page` (R402, R457, R485). -/
theorem bar0Read_mirror {page o : Nat} (hp : page < 0x100) (ho : o < 0x1000) :
    bar0Read fn (0x400000 + 0x1000 * page + o) 4 s = regRead (mirrorRegs fn page s) o 4 := by
  have hpage : (0x400000 + 0x1000 * page + o - 0x400000) / 0x1000 = page := by omega
  have hoff : (0x400000 + 0x1000 * page + o) % 0x1000 = o := by omega
  unfold bar0Read
  rw [if_neg (by omega), if_neg (by omega), if_neg (by omega), if_neg (by omega), if_pos (by omega), hpage, hoff]

/-- The registers of a row end where the row ends. -/
theorem regRow_end {o w n : Nat} {f : Nat → Nat} {e : Nat × Bytes} (h : e ∈ regRow o w n f) : e.1 + e.2.length ≤ o + w * n := by
  simp only [regRow, List.mem_map, List.mem_range] at h
  obtain ⟨i, hi, rfl⟩ := h
  have hw : w * (i + 1) ≤ w * n := Nat.mul_le_mul_left _ hi
  rw [Nat.mul_succ] at hw
  rw [le_length]
  omega

/-! ### HMK_PART (R458) -/

theorem bar0Read_hmkPart {p : Nat} (hp : p < 16) (hs : shows fn p = true) :
    bar0Read fn (0x40B100 + 4 * p) 4 s = u32 (hmkPart s p) := by
  have hrow : mirrorRegs fn 0xB s = (hallmarkRegs fn s).take 4 ++ (regRow 0x100 4 16 (fun p => if shows fn p then hmkPart s p else 0)
    ++ []) := (List.append_nil _).symm
  rw [show 0x40B100 + 4 * p = 0x400000 + 0x1000 * 0xB + (0x100 + 4 * p) by omega, bar0Read_mirror (by decide) (by omega), hrow,
    regRead_row hp ?_, hs, if_pos rfl]
  simp only [hallmarkRegs, List.cons_append, List.nil_append, List.take_succ_cons, List.take_zero, List.forall_mem_cons]
  simp [u32, u64, c32]
  omega

/-- The fields of HMK_PART from their values: each stands at its bits. -/
theorem hmkWord_fields {pst tdi conf sgnd kek t h l : Nat} (hp : pst ≤ 2) (hd : tdi ≤ 4) (hc : conf ≤ 1) (hs : sgnd ≤ 1) (hk : kek ≤ 1)
    (ht : t ≤ 16) (hh : h ≤ 16) (hl : l ≤ 16) :
    let w := pst * 2 ^ 30 + tdi * 2 ^ 27 + conf * 2 ^ 26 + sgnd * 2 ^ 25 + kek * 2 ^ 24 + t * 2 ^ 15 + h * 2 ^ 10 + l * 2 ^ 5
    w / 2 ^ 30 = pst ∧ w / 2 ^ 27 % 8 = tdi ∧ w / 2 ^ 26 % 2 = conf ∧ w / 2 ^ 25 % 2 = sgnd ∧ w / 2 ^ 24 % 2 = kek ∧
    w / 2 ^ 20 % 16 = 0 ∧ w / 2 ^ 15 % 32 = t ∧ w / 2 ^ 15 % 32 ≤ 16 ∧ w / 2 ^ 10 % 32 = h ∧ w / 2 ^ 10 % 32 ≤ 16 ∧
    w / 2 ^ 5 % 32 = l ∧ w / 2 ^ 5 % 32 ≤ 16 ∧ w % 32 = 0 ∧ w < 2 ^ 32 := by
  intro w
  have hw : w = pst * 2 ^ 30 + tdi * 2 ^ 27 + conf * 2 ^ 26 + sgnd * 2 ^ 25 + kek * 2 ^ 24 + t * 2 ^ 15 + h * 2 ^ 10 + l * 2 ^ 5 := rfl
  clear_value w
  omega

/-- Settles O57: the word is the sum of its fields, each below its neighbour's weight (`hmkWord_fields`); BAR0 shows it in the row of the
Hallmark's page (R457), and a write to a mirror changes nothing. -/
theorem hmkPartHasItsFields : Obligations.HmkPartHasItsFields := by
  refine ⟨?fields, hmkPart_reset, ?shown, ?written⟩
  case fields =>
    exact fun s p => hmkWord_fields (pstateCode_le _) (tdiCode_le _) (b2n_le_one _) (b2n_le_one _) (b2n_le_one _) (popcount_le _ _)
      (popcount_le _ _) (popcount_le _ _)
  case shown => exact fun s fn p hp hs => bar0Read_hmkPart hp hs
  case written => exact fun m fn p value s hp hr hf => exec_registerWrite_mirror (by omega) (by omega) hr hf

/-! ### PWR_GROUP (R486) -/

theorem groupKind_cluster {g : Nat} : groupKind g = .cluster ↔ g < 16 := by
  unfold groupKind
  split
  · next h => exact ⟨fun _ => h, fun _ => rfl⟩
  · next h =>
    refine ⟨fun hk => ?_, fun hg => absurd hg h⟩
    revert hk
    repeat' split
    all_goals intro hk; cases hk

theorem bar0Read_groupWord {g : Nat} (hg : g < 64) : bar0Read fn (0x40C000 + 4 * g) 4 s = u32 (groupWord s g) := by
  have hrow : mirrorRegs fn 0xC s = [] ++ (regRow 0x00 4 64 (groupWord s) ++ (powerRegs s).drop 64) := rfl
  rw [show 0x40C000 + 4 * g = 0x400000 + 0x1000 * 0xC + (0x00 + 4 * g) by omega, bar0Read_mirror (by decide) (by omega), hrow,
    regRead_row hg (List.forall_mem_nil _)]

/-- The fields of PWR_GROUP from their values: each stands at its bits. -/
theorem groupWord_fields {held phase restore perf target state : Nat} (c : Prop) [Decidable c] (hh : held ≤ 4) (hp : phase ≤ 5)
    (hr : restore < 4) (hf : perf < 4) (ht : target < 4) (hs : state < 4) :
    let w := 2 ^ 31 + held * 2 ^ 20 + phase * 2 ^ 16 + (if c then restore * 2 ^ 10 + perf * 2 ^ 8 else 0) + target * 2 ^ 4 + state
    w / 2 ^ 31 = 1 ∧ w / 2 ^ 24 % 128 = 0 ∧ w / 2 ^ 20 % 16 = held ∧ w / 2 ^ 16 % 16 = phase ∧ w / 2 ^ 12 % 16 = 0 ∧
    w / 2 ^ 10 % 4 = (if c then restore else 0) ∧ w / 2 ^ 8 % 4 = (if c then perf else 0) ∧ w / 2 ^ 6 % 4 = 0 ∧
    w / 2 ^ 4 % 4 = target ∧ w / 2 ^ 2 % 4 = 0 ∧ w % 4 = state := by
  intro w
  have hw : w = 2 ^ 31 + held * 2 ^ 20 + phase * 2 ^ 16 + (if c then restore * 2 ^ 10 + perf * 2 ^ 8 else 0) + target * 2 ^ 4 + state := rfl
  clear_value w
  split at hw
  · next hc => simp only [if_pos hc]; omega
  · next hc => simp only [if_neg hc]; omega

theorem groupWord_present {g : Nat} (h : groupPresent s g = true) :
    groupWord s g = 2 ^ 31 + (getGroup s g).held.length * 2 ^ 20 + (((getGroup s g).run.map (·.phase)).getD 0) * 2 ^ 16
      + (if g < 16 then (getGroup s g).restore * 2 ^ 10 + (getGroup s g).perf * 2 ^ 8 else 0)
      + (((getGroup s g).run.bind (·.state)).getD (getGroup s g).state) * 2 ^ 4 + (getGroup s g).state := by
  unfold groupWord
  simp only [h, groupKind_cluster, Bool.not_true, Bool.false_eq_true, if_false]

theorem groupWord_absent {g : Nat} (h : groupPresent s g = false) : groupWord s g = 0 := by
  simp only [groupWord, h, Bool.not_false, if_true]

/-- Settles O58: a present group's word is the sum of its fields (`groupWord_present`), each below its neighbour's weight
(`groupWord_fields`); the grade's tile clusters are those of its tiles, BAR0 shows the words in the first row of the power page (R485),
and a write to a mirror changes nothing. -/
theorem pwrGroupHasItsFields : Obligations.PwrGroupHasItsFields := by
  refine ⟨?fields, fun s g h => groupWord_absent h, ?present, fun s fn g hg => bar0Read_groupWord hg, ?written⟩
  case fields =>
    intro s g w x target phase hpr hh hp hr hf ht hs
    have htarget : (x.run.bind (·.state)).getD x.state = target := by
      change _ = (match x.run with | some t => t.state.getD x.state | none => x.state)
      cases x.run <;> rfl
    have hphase : (x.run.map (·.phase)).getD 0 = phase := by
      change _ = (match x.run with | some t => t.phase | none => 0)
      cases x.run <;> rfl
    have hw := groupWord_present hpr
    rw [htarget, hphase] at hw
    rw [show w = _ from hw]
    exact groupWord_fields (g < 16) hh hp hr hf ht hs
  case present =>
    intro s g
    have hn : tileGranules s = (match s.grade with | .as760 => 16 | .as744 => 14) := by
      rw [tileGranules, tileCount]
      cases s.grade <;> rfl
    rw [groupPresent, hn, Bool.and_eq_true, Bool.or_eq_true, decide_eq_true_eq, decide_eq_true_eq, decide_eq_true_eq]
    exact Iff.rfl
  case written => exact fun m fn g value s hg hr hf => exec_registerWrite_mirror (by omega) (by omega) hr hf

/-! ### SWL_LINK and TWIN_PAIR (R402, R403) -/

theorem bar0Read_linkWord {n : Nat} (hn : n < 7) : bar0Read fn (0x409000 + 4 * n) 4 s = u32 (linkWord (getLink s n)) := by
  have hrow : mirrorRegs fn 0x9 s = [] ++ (regRow 0x00 4 7 (fun n => linkWord (getLink s n)) ++ (swilanRegs fn s).drop 7) := rfl
  rw [show 0x409000 + 4 * n = 0x400000 + 0x1000 * 0x9 + (0x00 + 4 * n) by omega, bar0Read_mirror (by decide) (by omega), hrow,
    regRead_row hn (List.forall_mem_nil _)]

theorem bar0Read_pairWord {p : Nat} (hp : p < 16) (hs : shows fn p = true) :
    bar0Read fn (0x409100 + 4 * p) 4 s = u32 (pairWord s p) := by
  have hrow : mirrorRegs fn 0x9 s = (regRow 0x00 4 7 (fun n => linkWord (getLink s n)) ++ regRow 0x20 4 7 (fun n => sat 32 (getLink s n).retrains)
    ++ [(0x40, c64 s 0 .swlReplays), (0x48, c64 s 0 .swlTx), (0x50, c64 s 0 .swlRx), (0x58, c64 s 0 .swlCrc), (0x60, c64 s fn .swlForwards)])
    ++ (regRow 0x100 4 16 (fun p => if shows fn p then pairWord s p else 0) ++ (swilanRegs fn s).drop 35) := rfl
  rw [show 0x409100 + 4 * p = 0x400000 + 0x1000 * 0x9 + (0x100 + 4 * p) by omega, bar0Read_mirror (by decide) (by omega), hrow,
    regRead_row hp ?_, hs, if_pos rfl]
  simp only [List.forall_mem_append]
  refine ⟨⟨fun e he => (regRow_end he).trans (by omega), fun e he => (regRow_end he).trans (by omega)⟩, ?_⟩
  simp [c64, u64]
  omega

/-- The fields of SWL_LINK from their values: each stands at its bits. -/
theorem linkWord_fields {cause lanes peer state : Nat} (hc : cause ≤ 3) (hl : lanes < 256) (hp : peer < 8) (hs : state ≤ 5) :
    let w := cause * 2 ^ 24 + lanes * 2 ^ 16 + peer * 2 ^ 8 + state
    w / 2 ^ 28 = 0 ∧ w / 2 ^ 24 % 16 = cause ∧ w / 2 ^ 16 % 256 = lanes ∧ w / 2 ^ 11 % 32 = 0 ∧ w / 2 ^ 8 % 8 = peer ∧
    w / 2 ^ 3 % 32 = 0 ∧ w % 8 = state := by
  intro w
  have hw : w = cause * 2 ^ 24 + lanes * 2 ^ 16 + peer * 2 ^ 8 + state := rfl
  clear_value w
  omega

/-- The fields of TWIN_PAIR from their values: each stands at its bits. -/
theorem pairWord_fields {depth loss side peer state : Nat} (hd : depth ≤ 8) (hl : loss < 2) (hs : side ≤ 1) (hp : peer < 8)
    (ht : state ≤ 2) :
    let w := depth * 2 ^ 16 + loss * 2 ^ 8 + side * 2 ^ 7 + peer * 2 ^ 4 + state
    w / 2 ^ 20 = 0 ∧ w / 2 ^ 16 % 16 = depth ∧ w / 2 ^ 9 % 128 = 0 ∧ w / 2 ^ 8 % 2 = loss ∧ w / 2 ^ 7 % 2 = side ∧
    w / 2 ^ 4 % 8 = peer ∧ w / 2 ^ 2 % 4 = 0 ∧ w % 4 = state := by
  intro w
  have hw : w = depth * 2 ^ 16 + loss * 2 ^ 8 + side * 2 ^ 7 + peer * 2 ^ 4 + state := rfl
  clear_value w
  omega

theorem linkWord_reset (n : Nat) : linkWord (getLink State.reset n) = 0 := by
  rw [show getLink State.reset n = {} from rfl]
  decide

theorem pairWord_formed {p : Nat} {x : Pair} (h : tget s.twn.pairs p = some x) :
    pairWord s p = x.depth * 2 ^ 16 + x.onLoss * 2 ^ 8 + b2n x.secondary * 2 ^ 7 + x.peer * 2 ^ 4 + tstateCode x.tstate := by
  rw [pairWord, h]
  rfl

theorem pairWord_unformed {p : Nat} (h : tget s.twn.pairs p = none) : pairWord s p = 0 := by
  rw [pairWord, h]

/-- Settles O59: each word is the sum of its fields, each below its neighbour's weight (`linkWord_fields`, `pairWord_fields`); BAR0 shows
them in the rows of the Swilan page (R402), and a write to a mirror changes nothing. -/
theorem swlLinkAndTwinPairHaveTheirFields : Obligations.SwlLinkAndTwinPairHaveTheirFields := by
  refine ⟨?link, ?pair, fun s p h => pairWord_unformed h, linkWord_reset, fun p => pairWord_unformed rfl,
    fun s fn n hn => bar0Read_linkWord hn, fun s fn p hp hs => bar0Read_pairWord hp hs, ?written⟩
  case link => exact fun l hc hl hp => linkWord_fields hc hl hp (LState.code_le _)
  case pair =>
    intro s p x hx h1 hd hl hp w
    rw [show w = _ from pairWord_formed hx]
    exact pairWord_fields hd hl (b2n_le_one _) hp (tstateCode_le _)
  case written => exact fun m fn off value s ho ha hr hf => exec_registerWrite_mirror (by omega) (by omega) hr hf

end

end Sys2Proof.Machine
end

section
/-! Check units: writes of their registers, and CHK_CLAIM, CHK_RELEASE, CHK_RUN and MLD_CONFIG, taken and refused (R423 to R426). -/

namespace Sys2Proof.Machine

/-! ### Register writes (R425) -/

section
variable {x : CheckUnit} {off n v : Nat}

/-- A write that misses CHK_STATUS leaves OVERLAP to the unit. -/
theorem CheckUnit.statusWrite_misses (h4 : off ≠ 4) (h0 : off ≠ 0 ∨ n ≠ 8) : x.statusWrite off n v = x := by
  have hs : ¬ (decide (off = 0) && decide (n = 8)) = true := by
    rw [Bool.and_eq_true, decide_eq_true_eq, decide_eq_true_eq]
    omega
  exact (if_neg h4).trans (if_neg hs)

/-- A write of a guarded register of a busy unit only sets OVERLAP. -/
theorem CheckUnit.write_busy (h4 : off ≠ 4) (h0 : off ≠ 0 ∨ n ≠ 8) (hg : chkGuarded off = true) (hb : x.busy ≠ 0) :
    x.write off n v = { x with overlap := true } := by
  rw [CheckUnit.write, CheckUnit.statusWrite_misses h4 h0]
  exact (if_pos hb).trans (if_pos hg)

section
variable (hb : x.busy = 0)
include hb

theorem CheckUnit.write_ctl : x.write 0 4 v = x.init (v % 4) := if_neg (not_not_intro hb)

theorem CheckUnit.write_init : x.write 0x18 4 v = x.init x.poly := if_neg (not_not_intro hb)

theorem CheckUnit.write_data8 : x.write 0x20 8 v = x.absorb (le 8 v) := if_neg (not_not_intro hb)

theorem CheckUnit.write_data1 : x.write 0x28 4 v = x.absorb (le 1 v) := if_neg (not_not_intro hb)

end

end

section
variable {m : Moment} {r : Req} {s : State} {fn unit off n v : Nat}

/-- A claimant's write reaches its unit (R424). -/
theorem chkWrite_claimant (hu : unit < 8) (ho : (getUnit s unit).owner = .fn fn) :
    chkWrite fn unit off n v s = setUnit unit ((getUnit s unit).write off n v) s := by
  have hreach : ¬ (decide (8 ≤ unit) || decide ((getUnit s unit).owner ≠ .fn fn)) = true := by
    rw [Bool.or_eq_true, decide_eq_true_eq, decide_eq_true_eq]
    exact not_or.mpr ⟨Nat.not_le.mpr hu, not_not_intro ho⟩
  exact if_neg hreach

/-- Any other function's changes nothing (R424). -/
theorem chkWrite_other (h : 8 ≤ unit ∨ (getUnit s unit).owner ≠ .fn fn) : chkWrite fn unit off n v s = s := by
  have hreach : (decide (8 ≤ unit) || decide ((getUnit s unit).owner ≠ .fn fn)) = true := by
    rw [Bool.or_eq_true, decide_eq_true_eq, decide_eq_true_eq]
    exact h
  exact if_pos hreach

/-- A write at `off` that the host makes through the function's registers. -/
theorem hostAccess_chkWrite {x : CheckUnit} (hr : hostReach s = true) (hf : fnRefused s fn = false) (hu : unit < 8)
    (ho : (getUnit s unit).owner = .fn fn) (hw : (getUnit s unit).write off n v = x) :
    (.next (hostAccess fn (chkWrite fn unit off n v) s) : Out) = .next (setUnit unit x s) := by
  rw [hostAccess_served hr hf, chkWrite_claimant hu ho, hw]

theorem hostAccess_chkWrite_other (hr : hostReach s = true) (hf : fnRefused s fn = false)
    (h : 8 ≤ unit ∨ (getUnit s unit).owner ≠ .fn fn) :
    (.next (hostAccess fn (chkWrite fn unit off n v) s) : Out) = .next s := by
  rw [hostAccess_served hr hf, chkWrite_other h]

/-! ### CHK_CLAIM and CHK_RELEASE (R424) -/

section
variable (hu : r.f 0 1 < 8)
include hu

theorem bodyChkClaim_inRange (hp : r.f 1 1 < 4) :
    bodyChkClaim m r s = if (getUnit s (r.f 0 1)).owner ≠ .free then .err s St.unitBusy
      else .ok (setUnit (r.f 0 1) (({ owner := .fn r.fn } : CheckUnit).init (r.f 1 1)) s) := by
  have hrange : ¬ (decide (8 ≤ r.f 0 1) || decide (4 ≤ r.f 1 1)) = true := by
    rw [Bool.or_eq_true, decide_eq_true_eq, decide_eq_true_eq]
    omega
  exact if_neg hrange

theorem bodyChkRelease_claimed (ho : (getUnit s (r.f 0 1)).owner = .fn r.fn) :
    bodyChkRelease m r s = if (getUnit s (r.f 0 1)).busy ≠ 0 then .err s St.unitBusy else .ok (setUnit (r.f 0 1) {} s) :=
  (if_neg (Nat.not_le.mpr hu)).trans (if_neg (not_not_intro ho))

/-! ### CHK_RUN (R426) -/

/-- The unit that a CHK_RUN starts: restarted first where INIT is set. -/
def CheckUnit.run (x : CheckUnit) (restart : Bool) (op : Nat) : CheckUnit :=
  { (if restart then x.init x.poly else x) with busy := op }

theorem bodyChkRun_other (hk : r.f 2 1 < 2) (ho : (getUnit s (r.f 0 1)).owner ≠ .fn r.fn) :
    bodyChkRun m r s = .err s St.notPermitted := by
  have hrange : ¬ (decide (8 ≤ r.f 0 1) || decide (1 < r.f 2 1)) = true := by
    rw [Bool.or_eq_true, decide_eq_true_eq, decide_eq_true_eq]
    omega
  exact (if_neg hrange).trans (if_pos ho)

/-- A run whose bytes lie where its source says starts a unit that is not busy. -/
theorem bodyChkRun_starts (hk : r.f 2 1 < 2) (ho : (getUnit s (r.f 0 1)).owner = .fn r.fn) (hb : (getUnit s (r.f 0 1)).busy = 0)
    (hmem : r.f 2 1 = 1 → (r.f 3 1 = 1 ∨ r.f 3 1 = 2) ∧ r.f 8 8 + r.f 0x10 8 ≤ partBytes s r.part16 (r.f 3 1))
    (hlist : r.f 2 1 = 0 → carried r = false → (sgCover r (r.f 0x10 8) s).isOk = true) (hroom : opRoom s r.fn = true) :
    bodyChkRun m r s = .wait (setUnit (r.f 0 1) ((getUnit s (r.f 0 1)).run (bit (r.f 1 1) 0) s.bench.nextOp)
      (startOp r 1 1 (r.f 0x10 8) true [r.f 0 1] s).2) := by
  have hrange : ¬ (decide (8 ≤ r.f 0 1) || decide (1 < r.f 2 1)) = true := by
    rw [Bool.or_eq_true, decide_eq_true_eq, decide_eq_true_eq]
    omega
  have hfits : ¬ (decide (r.f 2 1 = 1) && !((decide (r.f 3 1 = 1) || decide (r.f 3 1 = 2))
      && decide (r.f 8 8 + r.f 0x10 8 ≤ partBytes s r.part16 (r.f 3 1)))) = true := by
    simp only [Bool.and_eq_true, Bool.or_eq_true, Bool.not_eq_true', decide_eq_true_eq, not_and, Bool.not_eq_false]
    exact hmem
  have hcover : (if (decide (r.f 2 1 = 0) && !carried r) = true then (sgCover r (r.f 0x10 8) s).map (fun _ => ()) else .ok ())
      = (.ok () : Except SgErr Unit) := by
    by_cases hsg : (decide (r.f 2 1 = 0) && !carried r) = true
    · rw [if_pos hsg]
      rw [Bool.and_eq_true, decide_eq_true_eq, Bool.not_eq_true'] at hsg
      rw [eq_ok_of_isOk (hlist hsg.1 hsg.2) []]
      rfl
    · exact if_neg hsg
  refine (if_neg hrange).trans ((if_neg (not_not_intro ho)).trans ((if_neg (not_not_intro hb)).trans ((if_neg hfits).trans ?_)))
  rw [hcover]
  exact asOp_room hroom

end

/-! ### MLD_CONFIG (R424) -/

/-- The Check units under a mask: those that no function has claimed are the Mould's or free (R424). -/
def unitsDealt (mask : Nat) (s : State) : State :=
  (List.range 8).foldl (fun t k => if (getUnit s k).claimed then t
    else setUnit k { owner := if bit mask k then .mould else .free } t) s

theorem bodyMldConfig_unclaimed (h0 : r.f 0 1 ≠ 0) (hc : (setBits 8 (r.f 0 1)).any (fun k => (getUnit s k).claimed) = false) :
    bodyMldConfig m r s = .ok { unitsDealt (r.f 0 1) s with mld := { (unitsDealt (r.f 0 1) s).mld with units := r.f 0 1 } } := by
  have hfree : ¬ (decide (r.f 0 1 = 0) || (setBits 8 (r.f 0 1)).any (fun k => (getUnit s k).claimed)) = true := by
    rw [hc, decide_eq_false h0]
    decide
  exact if_neg hfree

theorem bodyMldConfig_claimed (h : r.f 0 1 = 0 ∨ (setBits 8 (r.f 0 1)).any (fun k => (getUnit s k).claimed) = true) :
    bodyMldConfig m r s = .err s St.unitBusy := by
  have hbusy : (decide (r.f 0 1 = 0) || (setBits 8 (r.f 0 1)).any (fun k => (getUnit s k).claimed)) = true := by
    rw [Bool.or_eq_true, decide_eq_true_eq]
    exact h
  exact if_pos hbusy

end

/-- Settles O6: a claimant's write reaches its unit (`hostAccess_chkWrite`), which does with it what its register says or only sets
OVERLAP (`CheckUnit.write_…`); each command answers by its case (`body…`). That CHK_CLAIM restarts the unit, CHK_RUN is always an
operation, and a release of a busy unit answers UNIT_BUSY is log entry 58. -/
theorem checkUnitRegistersAndCommands : Obligations.CheckUnitRegistersAndCommands := by
  refine ⟨?ctl, ?ctlBusy, ?ctlOther, ?init, ?initBusy, ?initOther, ?data8, ?data8Busy, ?data8Other, ?data1, ?data1Busy, ?data1Other,
    ?claim, ?claimTaken, ?release, ?releaseBusy, ?runMemory, ?runList, ?runOther, ?config, ?configClaimed⟩
  case ctl => exact fun m fn unit v s hr hf hu ho hb => hostAccess_chkWrite hr hf hu ho (CheckUnit.write_ctl hb)
  case init => exact fun m fn unit v s hr hf hu ho hb => hostAccess_chkWrite hr hf hu ho (CheckUnit.write_init hb)
  case data8 => exact fun m fn unit v s hr hf hu ho hb => hostAccess_chkWrite hr hf hu ho (CheckUnit.write_data8 hb)
  case data1 => exact fun m fn unit v s hr hf hu ho hb => hostAccess_chkWrite hr hf hu ho (CheckUnit.write_data1 hb)
  case ctlBusy =>
    exact fun m fn unit v s hr hf hu ho hb => hostAccess_chkWrite hr hf hu ho
      (CheckUnit.write_busy (by decide) (.inr (by decide)) rfl hb)
  case initBusy =>
    exact fun m fn unit v s hr hf hu ho hb => hostAccess_chkWrite hr hf hu ho
      (CheckUnit.write_busy (by decide) (.inl (by decide)) rfl hb)
  case data8Busy =>
    exact fun m fn unit v s hr hf hu ho hb => hostAccess_chkWrite hr hf hu ho
      (CheckUnit.write_busy (by decide) (.inl (by decide)) rfl hb)
  case data1Busy =>
    exact fun m fn unit v s hr hf hu ho hb => hostAccess_chkWrite hr hf hu ho
      (CheckUnit.write_busy (by decide) (.inl (by decide)) rfl hb)
  case ctlOther => exact fun m fn unit v s hr hf h => hostAccess_chkWrite_other hr hf h
  case initOther => exact fun m fn unit v s hr hf h => hostAccess_chkWrite_other hr hf h
  case data8Other => exact fun m fn unit v s hr hf h => hostAccess_chkWrite_other hr hf h
  case data1Other => exact fun m fn unit v s hr hf h => hostAccess_chkWrite_other hr hf h
  case claim =>
    exact fun m r s hs hu hp ho => congrArg Host.Outcome.next
      (runCommand_ended hs ((bodyChkClaim_inRange hu hp).trans (if_neg (not_not_intro ho))))
  case claimTaken =>
    exact fun m r s hs hu hp ho => congrArg Host.Outcome.next
      (runCommand_failed hs (by decide) ((bodyChkClaim_inRange hu hp).trans (if_pos ho)))
  case release =>
    exact fun m r s hs hu ho hb => congrArg Host.Outcome.next
      (runCommand_ended hs ((bodyChkRelease_claimed hu ho).trans (if_neg (not_not_intro hb))))
  case releaseBusy =>
    exact fun m r s hs hu ho hb => congrArg Host.Outcome.next
      (runCommand_failed hs (by decide) ((bodyChkRelease_claimed hu ho).trans (if_pos hb)))
  case runMemory =>
    exact fun m r s hs hu hk ho hb ht hfit hroom => congrArg Host.Outcome.next (runCommand_goesOn hs
      (bodyChkRun_starts hu (by omega) ho hb (fun _ => ⟨ht, hfit⟩) (fun h0 => absurd h0 (by omega)) hroom))
  case runList =>
    exact fun m r s l hs hu hk ho hb hc hl hroom => congrArg Host.Outcome.next (runCommand_goesOn hs
      (bodyChkRun_starts hu (by omega) ho hb (fun h1 => absurd h1 (by omega)) (fun _ _ => by rw [hl]; rfl) hroom))
  case runOther =>
    exact fun m r s hs hu hk ho => congrArg Host.Outcome.next (runCommand_failed hs (by decide) (bodyChkRun_other hu hk ho))
  case config =>
    exact fun m r s hs h0 hc => congrArg Host.Outcome.next (runCommand_ended hs (bodyMldConfig_unclaimed h0 hc))
  case configClaimed =>
    exact fun m r s hs h => congrArg Host.Outcome.next (runCommand_failed hs (by decide) (bodyMldConfig_claimed h))

end Sys2Proof.Machine
end

section
/-! Swilan links: their query and setting, training and its retries, CRC errors, replay requests and returned credits (R383 to R385,
R406). -/

namespace Sys2Proof.Machine

section
variable {m : Moment} {r : Req} {s : State} {n : Nat}

/-! ### SWL_QUERY and SWL_LINK_SET (R406) -/

theorem bodySwlQuery_inRange (h : r.f 0 1 ≤ 6 ∨ r.f 0 1 = 0xFF) :
    bodySwlQuery m r s = .ok s (if r.f 0 1 = 0xFF then (List.range 7).flatMap (fun k => linkBytes (getLink s k))
      else linkBytes (getLink s (r.f 0 1))) := by
  by_cases hall : r.f 0 1 = 0xFF
  · rw [if_pos hall]
    exact if_pos hall
  · have hn : ¬ 6 < r.f 0 1 := by omega
    rw [if_neg hall]
    exact (if_neg hall).trans (if_neg hn)

section
variable (hn : r.f 0 1 ≤ 6)
include hn

/-- A link and an action in their ranges. -/
theorem linkSet_inRange {a : Nat} (ha : r.f 1 1 = a) (h2 : a ≤ 2) : ¬ (decide (6 < r.f 0 1) || decide (2 < r.f 1 1)) = true := by
  rw [Bool.or_eq_true, decide_eq_true_eq, decide_eq_true_eq]
  omega

theorem bodySwlLinkSet_retrains (ha : r.f 1 1 = 0) (hu : (getLink s (r.f 0 1)).up = true) :
    bodySwlLinkSet m r s = .ok (retrain (r.f 0 1) 0 s) := by
  have hst : (getLink s (r.f 0 1)).lstate = .up ∨ (getLink s (r.f 0 1)).lstate = .degraded := by
    rw [Link.up, Bool.or_eq_true, decide_eq_true_eq, decide_eq_true_eq] at hu
    exact hu
  refine (if_neg (linkSet_inRange hn ha (by decide))).trans ?_
  rcases hst with hst | hst <;> simp only [ha, hst, hu, if_true]

theorem bodySwlLinkSet_starts (ha : r.f 1 1 = 0) (hst : (getLink s (r.f 0 1)).lstate = .fault) :
    bodySwlLinkSet m r s = .ok (startTraining (r.f 0 1) s) := by
  refine (if_neg (linkSet_inRange hn ha (by decide))).trans ?_
  simp only [ha, hst]

theorem bodySwlLinkSet_holds (ha : r.f 1 1 = 1) : bodySwlLinkSet m r s = .ok (disableLink (r.f 0 1) s) := by
  refine (if_neg (linkSet_inRange hn ha (by decide))).trans ?_
  simp only [ha]

theorem bodySwlLinkSet_releases (ha : r.f 1 1 = 2) (hst : (getLink s (r.f 0 1)).lstate = .disabled)
    (hg : 2 ≤ (getGroup s (0x30 + r.f 0 1)).state) : bodySwlLinkSet m r s = .ok (startTraining (r.f 0 1) s) := by
  refine (if_neg (linkSet_inRange hn ha (by decide))).trans ?_
  simp only [ha, hst, Nat.not_lt.mpr hg, if_false]

end

/-! ### Training (R385) -/

section
variable {id : TrainId}

/-- A link that has found the signal of a peer on some of its lanes (R385). -/
def lanesFound (n : Nat) (id : TrainId) (s : State) : State :=
  modLink n (fun l => { l with lanes := id.lanes % 256, empty := false }) s

/-- A link that has also heard who its peer is (R385). -/
def peerHeard (n : Nat) (id : TrainId) (s : State) : State :=
  modLink n (fun l => { l with peerChip := id.chip % 8, peerCode := id.code }) (lanesFound n id s)

/-- The outcome of a training on four or more lanes is decided by who the peer is and which release it runs (R385). -/
theorem trainIdentity_heard (hn : n ≤ 6) (hst : (getLink s n).lstate = .training) (hc : s.elec.sdref = true)
    (hl : 4 ≤ popcount 8 id.lanes) :
    trainIdentity n id s =
      if id.chip ≠ linkPeer (peerHeard n id s) n || id.link ≠ 6 - n then enterState n .fault 1 (peerHeard n id s)
      else if id.release ≠ (peerHeard n id s).bench.fwVersion / 65536 then enterState n .fault 2 (peerHeard n id s)
      else linkCome n id (peerHeard n id s) := by
  have htrains : ¬ (decide (6 < n) || decide ((getLink s n).lstate ≠ .training) || !s.elec.sdref) = true := by
    rw [hc, hst, decide_eq_false (Nat.not_lt.mpr hn)]
    decide
  exact (if_neg htrains).trans (if_neg (Nat.not_lt.mpr hl))

theorem trainIdentity_expected (hn : n ≤ 6) (hst : (getLink s n).lstate = .training) (hc : s.elec.sdref = true)
    (hl : 4 ≤ popcount 8 id.lanes) (hp : id.chip = linkPeer (peerHeard n id s) n) (hk : id.link = 6 - n)
    (hr : id.release = (peerHeard n id s).bench.fwVersion / 65536) :
    trainIdentity n id s = linkCome n id (peerHeard n id s) := by
  have hpeer : ¬ (decide (id.chip ≠ linkPeer (peerHeard n id s) n) || decide (id.link ≠ 6 - n)) = true := by
    rw [decide_eq_false (not_not_intro hp), decide_eq_false (not_not_intro hk)]
    decide
  exact (trainIdentity_heard hn hst hc hl).trans ((if_neg hpeer).trans (if_neg (not_not_intro hr)))

theorem trainIdentity_wrongPeer (hn : n ≤ 6) (hst : (getLink s n).lstate = .training) (hc : s.elec.sdref = true)
    (hl : 4 ≤ popcount 8 id.lanes) (hp : id.chip ≠ linkPeer (peerHeard n id s) n ∨ id.link ≠ 6 - n) :
    trainIdentity n id s = enterState n .fault 1 (peerHeard n id s) := by
  have hpeer : (decide (id.chip ≠ linkPeer (peerHeard n id s) n) || decide (id.link ≠ 6 - n)) = true := by
    rw [Bool.or_eq_true, decide_eq_true_eq, decide_eq_true_eq]
    exact hp
  exact (trainIdentity_heard hn hst hc hl).trans (if_pos hpeer)

end

/-- A link that no peer has answered within 100 ms is ABSENT (R385). -/
theorem exec_swlTrainTimeout_due (hn : n ≤ 6) (hst : (getLink (s.at m) n).lstate = .training)
    (ha : (getLink (s.at m) n).attempts = 0) (ht : (getLink (s.at m) n).ctState + 100000000 ≤ (s.at m).ct) :
    exec (.swlTrainTimeout m n) s =
      .next (enterState n .absent 0 (setLink n { (getLink (s.at m) n) with empty := true } (s.at m))) := by
  have hdue : (decide (n ≤ 6) && decide ((getLink (s.at m) n).lstate = .training) && decide ((getLink (s.at m) n).attempts = 0)
      && decide ((getLink (s.at m) n).ctState + 100000000 ≤ (s.at m).ct)) = true := by
    simp only [Bool.and_eq_true, decide_eq_true_eq]
    exact ⟨⟨⟨hn, hst⟩, ha⟩, ht⟩
  exact congrArg Host.Outcome.next (if_pos hdue)

/-- After 1 s in ABSENT a link trains again (R385). -/
theorem exec_swlAbsentRetry_due (hn : n ≤ 6) (hst : (getLink (s.at m) n).lstate = .absent)
    (ht : (getLink (s.at m) n).ctState + 1000000000 ≤ (s.at m).ct) :
    exec (.swlAbsentRetry m n) s = .next (startTraining n (s.at m)) := by
  have hdue : (decide (n ≤ 6) && decide ((getLink (s.at m) n).lstate = .absent)
      && decide ((getLink (s.at m) n).ctState + 1000000000 ≤ (s.at m).ct)) = true := by
    simp only [Bool.and_eq_true, decide_eq_true_eq]
    exact ⟨⟨hn, hst⟩, ht⟩
  exact congrArg Host.Outcome.next (if_pos hdue)

/-! ### Replay and credits (R383, R384) -/

section
variable (hu : (getLink (s.at m) n).up = true)
include hu

/-- A flit with a bad CRC is discarded and its replay asked for. -/
theorem exec_swlFlitCrcError_up :
    exec (.swlFlitCrcError m n) s = .next (settleAll m (countReplay n
      (emit (.swilan n 0 33 (getLink (s.at m) n).seqRx [] []) (bump .swlCrc noPart 1 (s.at m))))) :=
  congrArg Host.Outcome.next (if_pos hu)

/-- The flits left in the replay buffer, each counted as sent once more. -/
def replayedOnce (n : Nat) (left : List ReplayFlit) (s : State) : State :=
  setLink n { (getLink s n) with replay := left.map (fun f => { f with replays := f.replays + 1 }) } s

/-- A REPLAY request sends what is unacknowledged again, or makes the link train again where a flit has been sent three times. -/
theorem exec_swlReplayRequest_up {k : Nat} {left : List ReplayFlit} (hk : afterAck (getLink (s.at m) n).replay k = left) :
    exec (.swlReplayRequest m n k) s =
      if left.any (fun f => decide (3 ≤ f.replays)) then .next (settleAll m (retrain n 1 (s.at m)))
      else .next (settleAll m (countReplay n (emit (.swilan n 0 32 k (left.map (·.seq)) [])
        (bump .swlReplays noPart left.length (replayedOnce n left (s.at m)))))) := by
  subst hk
  exact check_passes hu

/-- The link once credits of a channel have come back, its oldest flits acknowledged with them. -/
def creditsBack (n vc c k : Nat) (s : State) : State :=
  setLink n { (getLink s n) with
    avail := addAt (getLink s n).avail vc k, creditsIn := addAt (getLink s n).creditsIn vc c
    replay := ackFlits vc k (getLink s n).replay
    twin := if vc = 3 then ackTwin k (getLink s n).twin else (getLink s n).twin } s

theorem exec_swlCreditReturn_up {vc c k : Nat} (hv : vc ≤ 3) (hk : min c (outstanding (s.at m) n vc) = k) :
    exec (.swlCreditReturn m n vc c) s = .next (pumpLink n
      (post [⟨Lg.swilan, swlInst n vc, [(1, -(k : Int)), (0, (k : Int))]⟩] 0x0B 0 (creditsBack n vc c k (s.at m)))) := by
  subst hk
  have hlink : ¬ (!(getLink (s.at m) n).up || decide (3 < vc)) = true := by
    rw [hu, decide_eq_false (Nat.not_lt.mpr hv)]
    decide
  exact if_neg hlink

end

end

/-- Settles O31: each command's action is a case of the link's state (`bodySwl…`), a training ends by what it heard of its peer
(`trainIdentity_…`), and the link's timers and flits act on a link in the state that they name (`exec_swl…`). The causes of SWL_RETRAIN
are log entry 39, and that returned credits acknowledge the oldest flits is log entry 38. -/
theorem linksTrainReplayAndCredit : Obligations.LinksTrainReplayAndCredit := by
  refine ⟨?query, ?retrains, ?starts, ?holds, ?releases, ?comes, ?wrongPeer, ?absent, ?retry, ?crc, ?replay, ?replaySpent, ?credit⟩
  case query => exact fun m r s hs h => congrArg Host.Outcome.next (runCommand_ended hs (bodySwlQuery_inRange h))
  case retrains =>
    exact fun m r s hs hn ha hu => congrArg Host.Outcome.next (runSettled_ended hs (bodySwlLinkSet_retrains hn ha hu))
  case starts =>
    exact fun m r s hs hn ha hst => congrArg Host.Outcome.next (runSettled_ended hs (bodySwlLinkSet_starts hn ha hst))
  case holds => exact fun m r s hs hn ha => congrArg Host.Outcome.next (runSettled_ended hs (bodySwlLinkSet_holds hn ha))
  case releases =>
    exact fun m r s hs hn ha hst hg => congrArg Host.Outcome.next (runSettled_ended hs (bodySwlLinkSet_releases hn ha hst hg))
  case comes =>
    exact fun m n id s hn hst hc hl hp hk hr => next_settleAll m (trainIdentity_expected hn hst hc hl hp hk hr)
  case wrongPeer => exact fun m n id s hn hst hc hl hp => next_settleAll m (trainIdentity_wrongPeer hn hst hc hl hp)
  case absent => exact fun m n s hn hst ha ht => exec_swlTrainTimeout_due hn hst ha ht
  case retry => exact fun m n s hn hst ht => exec_swlAbsentRetry_due hn hst ht
  case crc => exact fun m n s hu => exec_swlFlitCrcError_up hu
  case replay => exact fun m n k s hu hl => (exec_swlReplayRequest_up hu rfl).trans (if_neg (Bool.eq_false_iff.mp hl))
  case replaySpent => exact fun m n k s hu hl => (exec_swlReplayRequest_up hu rfl).trans (if_pos hl)
  case credit => exact fun m n vc c s hu hv => exec_swlCreditReturn_up hu hv rfl

end Sys2Proof.Machine
end

section
/-! Twin pairs: their asking, clearing and query, the grants, the digests and the loss of a pair (R393, R396, R398, R400, R403). -/

namespace Sys2Proof.Machine

section
variable {m : Moment} {r : Req} {s : State} {id base p : Nat} {x : Pair}

/-! ### TWIN_SET, TWIN_CLEAR and TWIN_QUERY -/

/-- TWIN_SET's fields are legal (R393). -/
def twinSetFields (r : Req) (s : State) : Prop :=
  (r.f 0 1 ≤ 15 ∧ r.f 1 1 ≤ 7 ∧ r.f 1 1 ≠ chip s ∧ r.f 2 1 ≤ 1) ∧ (1 ≤ r.f 3 1 ∧ r.f 3 1 ≤ 8) ∧ 100000 ≤ r.f 4 4 ∧ r.f 4 4 ≤ 100000000

/-- Legal fields, a link that is up and no pair yet: the chip named is asked (R393). -/
theorem bodyTwinSet_asks {fn n : Nat} (hsrc : r.src = .mailbox fn n) (hf : twinSetFields r s)
    (hc : (tdispCheck opTwinSet r (r.f 0 1) s).isOk = true) (hl : linkUp s (r.f 1 1) = true) (hp : thas s.twn.pairs (r.f 0 1) = false) :
    bodyTwinSet m r s = .wait (swlAsk (r.f 1 1) (.twinSet r) 2 (r.f 0 1) [0x0B02, 0, 0xFF]
      (fit 0x10 r.payload ++ twinOffer s (r.f 0 1)) s) := by
  obtain ⟨⟨h0, h1, hchip, h2⟩, ⟨hd1, hd8⟩, ht1, ht2⟩ := hf
  have hrange : ¬ (decide (15 < r.f 0 1) || decide (7 < r.f 1 1) || decide (r.f 1 1 = chip s) || decide (1 < r.f 2 1)
      || decide (r.f 3 1 = 0) || decide (8 < r.f 3 1) || decide (r.f 4 4 < 100000) || decide (100000000 < r.f 4 4)) = true := by
    simp only [Bool.or_eq_true, decide_eq_true_eq]
    omega
  rw [bodyTwinSet, hsrc]
  dsimp only
  rw [if_neg hrange, eq_ok_of_isOk hc ()]
  dsimp only
  rw [hl, hp]
  rfl

theorem bodyTwinClear_starts (h0 : r.f 0 1 ≤ 15) (hc : (tdispCheck opTwinClear r (r.f 0 1) s).isOk = true)
    (ho : opRoom s r.fn = true) :
    bodyTwinClear m r s = .wait (startOp r 1 3 (partSessions s (r.f 0 1)).length true [r.f 0 1] s).2 := by
  rw [bodyTwinClear, eq_ok_of_isOk hc ()]
  exact (if_neg (Nat.not_lt.mpr h0)).trans (asOp_room ho)

theorem bodyTwinQuery_seen (h0 : r.f 0 1 ≤ 15) (hfn : r.fn = 0 ∨ r.f 0 1 + 1 = r.fn) :
    bodyTwinQuery m r s = .ok s ((tget s.twn.pairs (r.f 0 1)).elim (zeros 24) (fun x =>
      u32 (pairWord s (r.f 0 1)) ++ u64 x.verified ++ u64 x.unverified ++ u32 (sat 32 x.diverged))) := by
  have hseen : ¬ (decide (r.fn ≠ 0) && decide (r.f 0 1 ≠ r.fn - 1)) = true := by
    simp only [Bool.and_eq_true, decide_eq_true_eq]
    omega
  refine (if_neg (Nat.not_lt.mpr h0)).trans ((if_neg hseen).trans ?_)
  cases tget s.twn.pairs (r.f 0 1) <;> rfl

/-! ### Grants and digests (R396, R398) -/

section
variable {lp : Nat × Pair} (hl : twinLink (s.at m) id = some lp)
include hl

/-- A secondary records the grant that it is told of (R396). -/
theorem exec_twinGrant_secondary {chunk : Nat} (hs : lp.2.secondary = true) :
    exec (.twinGrant m id base chunk) s =
      .next { (swlGot lp.1 3 16 (s.at m)) with twn := { (swlGot lp.1 3 16 (s.at m)).twn with
        grants := (swlGot lp.1 3 16 (s.at m)).twn.grants ++ [(id, base, chunk)] } } := by
  change execTwinGrant m id base chunk s = _
  rw [execTwinGrant, hl]
  exact congrArg Host.Outcome.next (if_pos hs)

/-- The primary's step `n` with a digest of the secondary (R398). -/
def digestJoined (n lg d : Nat) (t : TwinStep) (s : State) : State :=
  { s with twn := { s.twn with steps := tset s.twn.steps n { t with peer := tset t.peer lg d } } }

/-- A digest that arrives joins its step, and the session's steps are compared (R398). -/
theorem exec_twinDigest_primary {lg d : Nat} {x : Session} {e : Nat × TwinStep} (hx : getSess (s.at m) id = some x)
    (hs : lp.2.secondary = false)
    (he : (stepsOf (swlGot lp.1 3 24 (s.at m)) id).find? (fun t => t.2.base = base && !thas t.2.peer lg) = some e) :
    exec (.twinDigest m id base lg d) s =
      .next (settleAll m (twinCompare x.partition id 64 (digestJoined e.1 lg d e.2 (swlGot lp.1 3 24 (s.at m))))) := by
  change execTwinDigest m id base lg d s = _
  rw [execTwinDigest, hl, hx]
  refine congrArg Host.Outcome.next ((if_neg (Bool.eq_false_iff.mp hs)).trans ?_)
  simp only [he]
  rfl

end

/-! ### Loss (R400) -/

section
variable (hx : lockedPair (s.at m) p = some x)
include hx

/-- A late digest of the secondary makes the pair LOST (R400). -/
theorem exec_twinDigestTimeout_late (hs : x.secondary = false) (hd : digestLate (s.at m) p x = true) :
    exec (.twinDigestTimeout m p) s = .next (settleAll m (losePair p 0 x (s.at m))) := by
  have hlate : (!x.secondary && digestLate (s.at m) p x) = true := by
    rw [hs, hd]
    rfl
  change execTwinDigestTimeout m p s = _
  rw [execTwinDigestTimeout, hx]
  exact congrArg Host.Outcome.next (if_pos hlate)

/-- A link that has been down for longer than the pair's timeout makes the pair LOST (R400). -/
theorem exec_twinDigestTimeout_dark (hd : x.secondary = true ∨ digestLate (s.at m) p x = false) (hl : pairDark (s.at m) x = true) :
    exec (.twinDigestTimeout m p) s = .next (settleAll m (losePair p 1 x (s.at m))) := by
  have hearly : ¬ (!x.secondary && digestLate (s.at m) p x) = true := by
    rcases hd with hd | hd
    · rw [hd]
      exact Bool.false_ne_true
    · rw [hd, Bool.and_false]
      exact Bool.false_ne_true
  change execTwinDigestTimeout m p s = _
  rw [execTwinDigestTimeout, hx]
  exact congrArg Host.Outcome.next ((if_neg hearly).trans (if_pos hl))

end

end

/-- Settles O33: the commands' checks pass (`bodyTwin…`), a grant and a digest reach the pair of their session (`exec_twinGrant_secondary`,
`exec_twinDigest_primary`), and a locked pair is lost by its two timeouts (`exec_twinDigestTimeout_…`). TWIN_SET as one exchange and the
causes of a loss are log entry 42. -/
theorem twinPairsFormEndAndCompare : Obligations.TwinPairsFormEndAndCompare := by
  refine ⟨?set, ?clear, ?query, ?grant, ?digest, ?late, ?dark⟩
  case set =>
    intro m r s hs u h0 h1 hchip h2 hd1 hd8 ht1 ht2 hc hl hp
    obtain ⟨fn, n, hsrc⟩ := serves_src hs
    exact congrArg Host.Outcome.next
      (runCommand_goesOn hs (bodyTwinSet_asks hsrc ⟨⟨h0, h1, hchip, h2⟩, ⟨hd1, hd8⟩, ht1, ht2⟩ hc hl hp))
  case clear =>
    exact fun m r s hs h0 hc ho => congrArg Host.Outcome.next (runCommand_goesOn hs (bodyTwinClear_starts h0 hc ho))
  case query =>
    exact fun m r s hs h0 hfn => congrArg Host.Outcome.next (runCommand_ended hs (bodyTwinQuery_seen h0 hfn))
  case grant => exact fun m id base chunk lp s hl hs => exec_twinGrant_secondary hl hs
  case digest => exact fun m id base lg d lp x e s hl hx hs he => exec_twinDigest_primary hl hx hs he
  case late => exact fun m p x s hx hs hd => exec_twinDigestTimeout_late hx hs hd
  case dark => exact fun m p x s hx hd hl => exec_twinDigestTimeout_dark hx hd hl

end Sys2Proof.Machine
end

section
/-! Checkpoint groups: their definition, query and deletion, cuts and restores, the timer and the capture window (R407, R409, R414, R419,
R420). -/

namespace Sys2Proof.Machine

section
variable {m : Moment} {r : Req} {s : State} {g : Nat} {x : CkGroup}

/-! ### MLD_GROUP_SET (R407, R409, R419) -/

/-- The group that MLD_GROUP_SET defines, its timer at the present multiple of its period (R419). -/
def timedGroup (r : Req) (half : Nat) (s : State) : CkGroup :=
  { ckOf r r.part16 half (getGroupCk s (r.f 0 1)) with lastTimer := if r.f 0x28 8 = 0 then 0 else s.ct / r.f 0x28 8 }

/-- A group over a storage queue pair of the partition, its other fields in their ranges, is defined (R407, R409). -/
theorem bodyMldGroupSet_defines {k : Nat × Qp} {l half : Nat} (hl : lbaSize s (r.f 8 4) (r.f 0x0C 4) = l)
    (hh : halfBlocks (max 1 l) (r.f 0x18 8) (r.f 0x20 4) = half)
    (hr : (getGroupCk s (r.f 0 1)).any (fun x => !r.reaches x.partition) = false)
    (hi : (getGroupCk s (r.f 0 1)).any (fun x => x.cstate ≠ .idle) = false) (hd : r.f 3 1 = 0) (hq : qpFor r s (r.f 8 4) = some k)
    (hgx : k.2.gx = false) (hp : k.2.partition = r.part16) (hc : groupSetCheck r l half = true) :
    bodyMldGroupSet m r s = .ok (setGroupCk (r.f 0 1) (timedGroup r half s) s) (u64 half) := by
  have hstore : ¬ (k.2.gx || decide (k.2.partition ≠ r.part16)) = true := by
    rw [hgx, decide_eq_false (not_not_intro hp)]
    decide
  have hdef : ¬ 1 < r.f 3 1 ∧ ¬ r.f 3 1 = 1 := by omega
  subst hl hh
  refine (if_neg (Bool.eq_false_iff.mp hr)).trans ((if_neg hdef.1).trans ((if_neg (Bool.eq_false_iff.mp hi)).trans
    ((if_neg hdef.2).trans ?_)))
  rw [hq]
  dsimp only
  rw [if_neg hstore]
  exact if_pos hc

/-- An idle group that the request reaches is deleted. -/
theorem bodyMldGroupSet_deletes (hx : getGroupCk s (r.f 0 1) = some x) (hr : r.reaches x.partition = true) (hi : x.cstate = .idle)
    (hd : r.f 3 1 = 1) :
    bodyMldGroupSet m r s = .ok { s with mld := { s.mld with groups := tdel s.mld.groups (r.f 0 1) } } (u64 0) := by
  unfold bodyMldGroupSet
  simp only [hx, hr, hi, hd, Option.any_some, Option.isNone_some, Bool.not_true, Nat.lt_irrefl, ne_eq, not_true_eq_false,
    decide_false, Bool.false_eq_true, if_false, if_true]

/-! ### MLD_GROUP_QUERY, MLD_CUT and MLD_RESTORE -/

/-- A group that a request reaches is the one that the body runs on. -/
theorem onGroup_reached {k : Nat → CkGroup → Reply} (hx : getGroupCk s (r.f 0 1) = some x) (hr : r.reaches x.partition = true) :
    onGroup r s k = k (r.f 0 1) x := by
  rw [onGroup, hx]
  exact if_pos hr

section
variable (hx : getGroupCk s (r.f 0 1) = some x) (hr : r.reaches x.partition = true)
include hx hr

theorem bodyMldGroupQuery_reached :
    bodyMldGroupQuery m r s = .ok s (ckFields (r.f 0 1) x ++ u8 x.cstate.code ++ u32 (((getOp s x.op).map (·.handle)).getD 0)
      ++ u64 x.lastId ++ u64 x.lastStep) :=
  onGroup_reached hx hr

theorem bodyMldCut_starts (hi : x.cstate = .idle) (hc : cutSerialOk s = true) (ho : opRoom s r.fn = true) :
    bodyMldCut m r s = .wait (captureAll m (cutStart (r.f 0 1) (modCk (r.f 0 1) (fun x => { x with op := s.bench.nextOp })
      (startOp r 1 4 0 true [r.f 0 1] s).2))) :=
  (onGroup_reached hx hr).trans ((if_neg (not_not_intro hi)).trans ((check_passes hc).trans (asOp_room ho)))

/-- The restore that MLD_RESTORE spells, waiting for NVMe-oF command `cmd` (R420). -/
def spelledRestore (r : Req) (cmd : Nat) : Restore :=
  { group := r.f 0 1, tier := r.f 1 1, verify := r.f 2 1 = 1, target := r.f 8 8, req := r, cmd }

/-- Stores the restore of an operation. -/
def setRestore (n : Nat) (y : Restore) (s : State) : State :=
  { s with mld := { s.mld with restores := tset s.mld.restores n y } }

/-- MLD_RESTORE has begun: it waits for its read of the store area (R420). -/
def restoreBegun (r : Req) (c : Nat) (x : CkGroup) (s : State) : State :=
  let w := (startOp r 1 4 0 true [r.f 0 1] s).2
  nvmeIssue c x.nsid 0 x.lbaBase x.lbaCount [] { controller := c, owner := .restore s.bench.nextOp }
    (setRestore s.bench.nextOp (spelledRestore r w.net.nextCmd) w)

theorem bodyMldRestore_starts {c : Nat × NvCtrl} (hi : x.cstate = .idle) (ht : 1 ≤ r.f 1 1 ∧ r.f 1 1 ≤ 2) (hv : r.f 2 1 ≤ 1)
    (hto : r.f 8 8 = 0 ∨ targetOk s x.partition (r.f 8 8) = true) (hc : ctrlOn s x.qp = some c) (ho : opRoom s r.fn = true) :
    bodyMldRestore m r s = .wait (restoreBegun r c.1 x s) := by
  have hrange : ¬ (decide (r.f 1 1 = 0) || decide (2 < r.f 1 1) || decide (1 < r.f 2 1)
      || (decide (r.f 8 8 ≠ 0) && !targetOk s x.partition (r.f 8 8))) = true := by
    simp only [Bool.or_eq_true, Bool.and_eq_true, Bool.not_eq_true', decide_eq_true_eq]
    rintro (((h | h) | h) | ⟨h0, hbad⟩)
    · omega
    · omega
    · omega
    · rcases hto with hto | hto
      · exact h0 hto
      · rw [hto] at hbad
        cases hbad
  refine (onGroup_reached hx hr).trans ((if_neg hrange).trans ((if_neg (not_not_intro hi)).trans ?_))
  rw [hc]
  exact asOp_room ho

end

/-! ### The timer and the capture window (R414, R419) -/

/-- A multiple of a group's period that has come triggers a cut (R419). -/
theorem exec_mldTimerTrigger_due (hx : getGroupCk (s.at m) g = some x) (hp : x.period ≠ 0) (ht : x.lastTimer < (s.at m).ct / x.period) :
    exec (.mldTimerTrigger m g) s = .next (captureAll m
      (cutTrigger g (setGroupCk g { x with lastTimer := (s.at m).ct / x.period } (s.at m)))) := by
  have hdue : ¬ (decide (x.period = 0) || decide ((s.at m).ct / x.period ≤ x.lastTimer)) = true := by
    rw [Bool.or_eq_true, decide_eq_true_eq, decide_eq_true_eq]
    exact not_or.mpr ⟨hp, Nat.not_le.mpr ht⟩
  change execMldTimerTrigger m g s = _
  rw [execMldTimerTrigger, hx]
  exact if_neg hdue

/-- At the end of the capture window what has not been captured is left out (R414). -/
theorem exec_captureWindowExpiry_due (hx : getGroupCk (s.at m) g = some x) (hst : x.cstate = .capture)
    (ht : x.ctStart + 1000 * x.window ≤ (s.at m).ct) :
    exec (.captureWindowExpiry m g) s =
      .next (captureAll m (captureEnd g (x.toCapture.foldl (fun s id => leaveOut g id s) (s.at m)))) := by
  have hdue : (decide (x.cstate = .capture) && decide (x.ctStart + 1000 * x.window ≤ (s.at m).ct)) = true := by
    rw [decide_eq_true hst, decide_eq_true ht]
    rfl
  change execCaptureWindowExpiry m g s = _
  rw [execCaptureWindowExpiry, hx]
  exact if_pos hdue

end

/-- Settles O34: the fields of a group pass their checks (`bodyMldGroupSet_…`), each command runs on the group that its request reaches
(`onGroup_reached`), and the two timers find theirs due (`exec_…_due`). The unit of the capture window, the codes of a cut's states and
the one read of a restore are log entry 57. -/
theorem checkpointGroupsCutAndRestore : Obligations.CheckpointGroupsCutAndRestore := by
  refine ⟨?define, ?delete, ?query, ?cut, ?restore, ?timer, ?window⟩
  case define =>
    exact fun m r s k hs hr hi hd hq hgx hp hc => congrArg Host.Outcome.next
      (runCommand_ended hs (bodyMldGroupSet_defines rfl rfl hr hi hd hq hgx hp hc))
  case delete =>
    intro m r s hs u hx hd
    obtain ⟨x, hg, hx⟩ := (Option.any_eq_true _ _).mp hx
    rw [Bool.and_eq_true, decide_eq_true_eq] at hx
    exact congrArg Host.Outcome.next (runCommand_ended hs (bodyMldGroupSet_deletes hg hx.1 hx.2 hd))
  case query =>
    exact fun m r s x hs hx hr => congrArg Host.Outcome.next (runCommand_ended hs (bodyMldGroupQuery_reached hx hr))
  case cut =>
    exact fun m r s x hs hx hr hi hc ho => congrArg Host.Outcome.next (runCommand_goesOn hs (bodyMldCut_starts hx hr hi hc ho))
  case restore =>
    exact fun m r s x c hs hx hr hi h1 h2 hv hto hc ho => congrArg Host.Outcome.next
      (runCommand_goesOn hs (bodyMldRestore_starts hx hr hi ⟨h1, h2⟩ hv hto hc ho))
  case timer => exact fun m g x s hx hp ht => exec_mldTimerTrigger_due hx hp ht
  case window => exact fun m g x s hx hst ht => exec_captureWindowExpiry_due hx hst ht

end Sys2Proof.Machine
end

section
/-! Tenant partitions: their making and change, their teardown with its phases, and their query (R442, R444, R445, R454, R458). -/

namespace Sys2Proof.Machine

section
variable {m : Moment} {r : Req} {s : State} {p : Nat}

/-! ### HMK_PARTITION_SET (R442 to R445) -/

/-- The granules of each kind that HMK_PARTITION_SET takes from a partition (R445). -/
def granulesGone (r : Req) (was : Partition) : List Nat :=
  (List.range 3).map (fun k => maskLess (was.masks.getD k 0) ((partAsked r).masks.getD k 0))

/-- A partition with the configuration that HMK_PARTITION_SET asks for; a CONFIDENTIAL one keeps its KEK (R445, R449). -/
def Partition.asked (was : Partition) (r : Req) : Partition :=
  { was with
    signedImages := (partAsked r).signedImages, tileMask := (partAsked r).tileMask, hbmMask := (partAsked r).hbmMask
    lpddrMask := (partAsked r).lpddrMask, ways := (partAsked r).ways, imageKeyHash := (partAsked r).imageKeyHash
    kek := if was.confidential then was.kek else some (r.b 0x40 32) }

section
variable (hc : (partSetCheck (r.f 0 1) (partAsked r) s).isOk = true)
include hc

theorem bodyHmkPartitionSet_makes (ho : (getPart s (r.f 0 1)).pstate = .off) :
    bodyHmkPartitionSet m r s = .ok (makePart (r.f 0 1) (partAsked r) (some (r.b 0x40 32)) s) :=
  (checked_isOk hc).trans (if_pos ho)

variable (ho : (getPart s (r.f 0 1)).pstate ≠ .off)
include ho

theorem bodyHmkPartitionSet_changes (hg : (granulesGone r (getPart s (r.f 0 1))).all (· = 0) = true) :
    bodyHmkPartitionSet m r s = .ok (setPart (r.f 0 1) ((getPart s (r.f 0 1)).asked r) s) :=
  (checked_isOk hc).trans ((if_neg ho).trans (if_pos hg))

/-- A change that takes granules scrubs them by a long operation, and until then they are nobody's (R445). -/
theorem bodyHmkPartitionSet_scrubs (hg : (granulesGone r (getPart s (r.f 0 1))).all (· = 0) = false) (hroom : opRoom s r.fn = true) :
    bodyHmkPartitionSet m r s = .wait (setPart (r.f 0 1)
      { (getPart s (r.f 0 1)).asked r with scrubbing := (List.range 3).map (fun k =>
        (getPart s (r.f 0 1)).scrubbing.getD k 0 + (granulesGone r (getPart s (r.f 0 1))).getD k 0) }
      (startOp r 0 1 (maskBytes (granulesGone r (getPart s (r.f 0 1)))) true
        (r.f 0 1 :: granulesGone r (getPart s (r.f 0 1))) s).2) :=
  (checked_isOk hc).trans ((if_neg ho).trans ((if_neg (Bool.eq_false_iff.mp hg)).trans (asOp_room hroom)))

end

/-! ### HMK_PARTITION_TEARDOWN and HMK_PARTITION_QUERY -/

/-- The operation of HMK_PARTITION_TEARDOWN, which cannot be cancelled (R454). -/
def teardownOp (r : Req) (s : State) : State := (startOp r 1 1 (getPart s (r.f 0 1)).bytes false [r.f 0 1] s).2

theorem bodyHmkPartitionTeardown_starts (h0 : r.f 0 1 ≤ 15) (ha : (getPart s (r.f 0 1)).pstate = .active)
    (hroom : opRoom s r.fn = true) :
    bodyHmkPartitionTeardown m r s = .wait (startTeardown (r.f 0 1) s.bench.nextOp false
      (if (getPart (teardownOp r s) (r.f 0 1)).confidential then tdiFail (r.f 0 1) tdiTeardown (teardownOp r s)
        else teardownOp r s)) :=
  (if_neg (Nat.not_lt.mpr h0)).trans ((if_neg (not_not_intro ha)).trans (asOp_room hroom))

theorem bodyHmkPartitionQuery_seen (h0 : r.f 0 1 ≤ 15) (hfn : r.fn = 0 ∨ r.f 0 1 + 1 = r.fn) :
    bodyHmkPartitionQuery m r s = .ok s (partInfo s (r.f 0 1)) := by
  have hseen : ¬ (decide (r.fn ≠ 0) && decide (r.f 0 1 ≠ r.fn - 1)) = true := by
    simp only [Bool.and_eq_true, decide_eq_true_eq]
    omega
  exact (if_neg (Nat.not_lt.mpr h0)).trans (if_neg hseen)

/-! ### The phases of a teardown (R454) -/

/-- What the end of phase `k` of a teardown does: the objects go, then the tiles and the keys, then the external memory. -/
def phaseEffect (m : Moment) (p k : Nat) (s : State) : State :=
  match k with
  | 1 => settleAll m (phaseOp (getPart s p).tdOp 2 false (modPart p (fun x => { x with tdPhase := 2 }) (tearObjects m p s)))
  | 2 => tearOnChip p s
  | _ => tearExternal p s

/-- A phase ends once every power group that it scrubs is ACTIVE (R454, R465). -/
theorem exec_teardownPhaseDone_powered {k : Nat} (hst : (getPart (s.at m) p).pstate = .teardown) (hk : (getPart (s.at m) p).tdPhase = k)
    (hg : (scrubGroups (getPart (s.at m) p) k).all (fun g => (getGroup (s.at m) g).state = 3) = true) :
    exec (.teardownPhaseDone m p) s = .next (phaseEffect m p k (s.at m)) := by
  have hnone : (scrubGroups (getPart (s.at m) p) k).find? (fun g => (getGroup (s.at m) g).state ≠ 3) = none := by
    rw [List.find?_eq_none]
    intro g h
    have h3 := List.all_eq_true.mp hg g h
    rw [decide_eq_true_eq] at h3
    simp only [h3, ne_eq, not_true_eq_false, decide_false, Bool.false_eq_true, not_false_eq_true]
  subst hk
  refine (if_neg (not_not_intro hst)).trans ?_
  rw [hnone]
  rfl

end

/-- Settles O35: the checks of HMK_PARTITION_SET pass and the partition's state and the granules that it loses decide
(`bodyHmkPartitionSet_…`), a teardown starts (`bodyHmkPartitionTeardown_starts`), and each of its phases has its own effect
(`exec_teardownPhaseDone_powered`). That CONFIDENTIAL cannot change and the cause of TDI_ERROR are log entry 44. -/
theorem partitionsAreMadeChangedAndTornDown : Obligations.PartitionsAreMadeChangedAndTornDown := by
  refine ⟨?makes, ?changes, ?scrubs, ?teardown, ?query, ?objects, ?onChip, ?external⟩
  case makes =>
    exact fun m r s hs hc ho => congrArg Host.Outcome.next (runCommand_ended hs (bodyHmkPartitionSet_makes hc ho))
  case changes =>
    exact fun m r s hs hc ho hg => congrArg Host.Outcome.next (runCommand_ended hs (bodyHmkPartitionSet_changes hc ho hg))
  case scrubs =>
    exact fun m r s hs hc ho hg hroom => congrArg Host.Outcome.next
      (runCommand_goesOn hs (bodyHmkPartitionSet_scrubs hc ho hg hroom))
  case teardown =>
    exact fun m r s hs h0 ha hroom => congrArg Host.Outcome.next
      (runSettled_goesOn hs (bodyHmkPartitionTeardown_starts h0 ha hroom))
  case query =>
    exact fun m r s hs h0 hfn => congrArg Host.Outcome.next (runCommand_ended hs (bodyHmkPartitionQuery_seen h0 hfn))
  case objects => exact fun m p s hst hk hg => exec_teardownPhaseDone_powered (k := 1) hst hk hg
  case onChip => exact fun m p s hst hk hg => exec_teardownPhaseDone_powered (k := 2) hst hk hg
  case external => exact fun m p s hst hk hg => exec_teardownPhaseDone_powered (k := 3) hst hk hg

end Sys2Proof.Machine
end

section
/-! Keys, evidence, certificates and the anti-rollback counter (R436, R438, R441, R448 to R450). -/

namespace Sys2Proof.Machine

section
variable {m : Moment} {r : Req} {s : State}

/-! ### HMK_KEY_LOAD and HMK_KEY_DESTROY (R448 to R450) -/

/-- The generation that a key slot's next key has (R448). -/
def nextKeyGen (s : State) (p slot : Nat) : Nat := (getKey s p slot).gen % 255 + 1

/-- A free slot takes the key under the slot's next generation where its wrapping is sound (R449). -/
theorem bodyHmkKeyLoad_free {kek : Bytes} (h0 : r.f 0 1 ≤ 63) (hk : (getPart s r.part16).kek = some kek)
    (hb : keyBusy s r.part16 (r.f 0 1) = false) :
    bodyHmkKeyLoad m r s = (Config.keyUnwrap kek (r.b 8 40)).elim (.err s stSigInvalid) (fun k =>
      .ok (setKey r.part16 (r.f 0 1) { gen := nextKeyGen s r.part16 (r.f 0 1), key := some k } s)
        (u32 (keyId r.part16 (r.f 0 1) (nextKeyGen s r.part16 (r.f 0 1))))) := by
  refine (if_neg (Nat.not_lt.mpr h0)).trans ?_
  rw [hk]
  refine (if_neg (Bool.eq_false_iff.mp hb)).trans ?_
  cases Config.keyUnwrap kek (r.b 8 40) <;> rfl

/-- A slot that nothing uses is cleared; its generation stays (R450). -/
theorem bodyHmkKeyDestroy_unused {p : Nat} (hp : bits (r.f 0 4) 11 8 = p) (hk : (keyOf s (r.f 0 4)).isSome = true)
    (hr : r.reaches p = true) (hb : keyBusy s p (r.f 0 4 % 256) = false) :
    bodyHmkKeyDestroy m r s = .ok (setKey p (r.f 0 4 % 256) { gen := (getKey s p (r.f 0 4 % 256)).gen } s) := by
  subst hp
  have hreach : ¬ ((keyOf s (r.f 0 4)).isNone || !r.reaches (bits (r.f 0 4) 11 8)) = true := by
    rw [Option.isNone_eq_false_iff.mpr hk, hr]
    decide
  exact (if_neg hreach).trans (if_neg (Bool.eq_false_iff.mp hb))

/-! ### Evidence and certificates (R438, R441) -/

theorem bodyHmkAttest_inScope (h : blocksOk r.fn (r.f 0x20 1) = true) :
    bodyHmkAttest m r s = listOrHead r (evidenceOf s r.fn (r.f 0x20 1) (r.b 0 32)) s :=
  check_passes h

theorem bodyHmkCertRead_inRange (h : r.f 0 1 ≤ 1) : bodyHmkCertRead m r s = listOrHead r (Config.certChain (r.f 0 1)) s :=
  if_neg (Nat.not_lt.mpr h)

section
variable {b : Bytes}

theorem listOrHead_head (h : r.hdr.sgCount = 0) : listOrHead r b s = .ok s (b.take 3968) := if_pos h

theorem listOrHead_list {l : List SgEntry} (h : r.hdr.sgCount ≠ 0) (hc : carried r = false)
    (hl : (sgCover r b.length s).toOption = some l) (hw : (sgWrite l b s).2 = none) :
    listOrHead r b s = .ok (sgWrite l b s).1 [] :=
  (if_neg h).trans (replyData_list hc hl hw)

end

/-! ### HMK_ROLLBACK_COMMIT (R436) -/

theorem bodyHmkRollbackCommit_dualSigned (hp : s.hmk.production = true) (hd : s.hmk.dualSigned = true) :
    bodyHmkRollbackCommit m r s = .ok { s with hmk := { s.hmk with counter := max s.hmk.counter s.hmk.svn } }
      (u8 (max s.hmk.counter s.hmk.svn)) :=
  check_passes (by rw [hp, hd]; rfl)

end

/-- Settles O36: each command's checks pass (`bodyHmk…`), and evidence and certificates go through the list or stand at the head of the
result (`listOrHead_…`), the latter log entry 43. -/
theorem keysEvidenceAndRollback : Obligations.KeysEvidenceAndRollback := by
  refine ⟨?load, ?destroy, ?attest, ?cert, fun r b s h => listOrHead_head h, fun r b s l h hc hl hw => listOrHead_list h hc hl hw,
    ?rollback⟩
  case load =>
    exact fun m r s kek hs h0 hk hb => congrArg Host.Outcome.next (runCommand_answered hs (bodyHmkKeyLoad_free h0 hk hb))
  case destroy =>
    exact fun m r s hs hk hr hb => congrArg Host.Outcome.next (runCommand_ended hs (bodyHmkKeyDestroy_unused rfl hk hr hb))
  case attest => exact fun m r s hs h => congrArg Host.Outcome.next (runCommand_answered hs (bodyHmkAttest_inScope h))
  case cert => exact fun m r s hs h => congrArg Host.Outcome.next (runCommand_answered hs (bodyHmkCertRead_inRange h))
  case rollback =>
    exact fun m r s hs hp hd => congrArg Host.Outcome.next (runCommand_ended hs (bodyHmkRollbackCommit_dualSigned hp hd))

end Sys2Proof.Machine
end

section
/-! The SPDM responder: what a path that answers says to each request, and DOE discovery (R438 to R440; log entry 46). -/

namespace Sys2Proof.Machine

section
variable {m : Moment} {s : State} {via n : Nat} {k : State → State}

/-- A path that answers runs its request (log entry 46). -/
theorem onPath_open (hp : pathOpen (s.at m) via = true) (hb : 2 ≤ (s.at m).bench.bootPhase) {t : State} (ht : k (s.at m) = t) :
    onPath m via s k = .next t := by
  subst ht
  have hopen : (pathOpen (s.at m) via && decide (2 ≤ (s.at m).bench.bootPhase)) = true := by
    rw [hp, decide_eq_true hb]
    rfl
  exact congrArg Host.Outcome.next (if_pos hopen)

section
variable (hp : pathOpen (s.at m) via = true) (hb : 2 ≤ (s.at m).bench.bootPhase)
include hp hb

/-! ### Version, capabilities and algorithms (R439) -/

theorem exec_getVersion : exec (.getVersion m via) s = .next (spdmSay via 0x04 (u8 1 ++ u16 0x1300) (setConn via 1 (s.at m))) := by
  change execGetVersion m via s = _
  exact onPath_open hp hb rfl

theorem exec_getCapabilities_versioned (h : (connOf (s.at m) via).stage ≠ 0) :
    exec (.getCapabilities m via) s = .next (spdmSay via 0x61 (Config.spdmBody 0x61 []) (setConn via 2 (s.at m))) := by
  change execGetCapabilities m via s = _
  exact onPath_open hp hb (if_neg h)

theorem exec_negotiateAlgorithms_capable (h : 2 ≤ (connOf (s.at m) via).stage) :
    exec (.negotiateAlgorithms m via true) s = .next (spdmSay via 0x63 (Config.spdmBody 0x63 []) (setConn via 3 (s.at m))) := by
  change execNegotiateAlgorithms m via true s = _
  exact onPath_open hp hb ((if_neg (Nat.not_lt.mpr h)).trans (if_pos rfl))

/-! ### Certificates and measurements (R438 to R440) -/

section
variable (hr : spdmReady (s.at m) via n = none)
include hr

theorem exec_getDigests_ready :
    exec (.getDigests m via n) s = .next (spdmSay via 0x01 (u8 1 ++ fit 48 (Config.sha384 (chain0 (s.at m)))) (s.at m)) := by
  change execGetDigests m via n s = _
  refine onPath_open hp hb ?_
  rw [hr]

theorem exec_getCertificate_ready {offset len : Nat} {rest : Bytes} (h : (chain0 (s.at m)).drop offset = rest) :
    exec (.getCertificate m via n 0 offset len) s = .next (if rest = [] then spdmErr via spdmInvalid (s.at m)
      else spdmSay via 0x02 (u8 0 ++ u16 (min len rest.length) ++ u16 (rest.length - len) ++ rest.take len) (s.at m)) := by
  subst h
  change execGetCertificate m via n 0 offset len s = _
  refine onPath_open hp hb ?_
  rw [hr]
  by_cases hnone : (chain0 (s.at m)).drop offset = []
  · rw [if_pos hnone]
    exact if_pos (by rw [hnone]; decide)
  · rw [if_neg hnone]
    exact if_neg (by rw [decide_eq_false hnone]; decide)

theorem exec_challenge_ready {nonce : Bytes} :
    exec (.challenge m via n 0 nonce) s = .next (spdmSay via 0x03
      (spdmSigned (s.at m) (Config.spdmBody 0x03 (fit 32 nonce ++ chain0 (s.at m)))) (s.at m)) := by
  change execChallenge m via n 0 nonce s = _
  refine onPath_open hp hb ?_
  rw [hr]
  rfl

/-- The answer to GET_MEASUREMENTS over a body, signed with the nonce where asked (R440). -/
def measurementsSaid (via : Nat) (sign : Bool) (nonce body : Bytes) (s : State) : State :=
  spdmSay via 0x60 (if sign then spdmSigned s (fit 32 nonce ++ body) else body) s

/-- Index 0 asks for the number of blocks alone (R440). -/
theorem exec_getMeasurements_count {sign : Bool} {nonce : Bytes} :
    exec (.getMeasurements m via n 0 sign nonce) s = .next
      (measurementsSaid via sign nonce (u8 (blocksFor (pathFn via)).length ++ le 3 0) (s.at m)) := by
  change execGetMeasurements m via n 0 sign nonce s = _
  refine onPath_open hp hb ?_
  rw [hr, ← List.append_nil (u8 (blocksFor (pathFn via)).length ++ le 3 0)]
  rfl

/-- The blocks that an index of GET_MEASUREMENTS selects for a path: 0xFF every block in scope (R440). -/
def blocksAsked (via k : Nat) : List Nat := if k = 0xFF then blocksFor (pathFn via) else (blocksFor (pathFn via)).filter (· = k)

/-- The measurement blocks of a list as SPDM lays them out: their number, their length and themselves (R440). -/
def measRecords (via : Nat) (sel : List Nat) (s : State) : Bytes :=
  u8 sel.length ++ le 3 (sel.flatMap (measBlock s (pathFn via))).length ++ sel.flatMap (measBlock s (pathFn via))

theorem exec_getMeasurements_blocks {k : Nat} {sign : Bool} {nonce : Bytes} (hk : k ≠ 0) (hs : blocksAsked via k ≠ []) :
    exec (.getMeasurements m via n k sign nonce) s = .next
      (measurementsSaid via sign nonce (measRecords via (blocksAsked via k) (s.at m)) (s.at m)) := by
  have hsel : ¬ (decide (k ≠ 0) && decide (blocksAsked via k = [])) = true := by
    rw [decide_eq_false hs, Bool.and_false]
    exact Bool.false_ne_true
  change execGetMeasurements m via n k sign nonce s = _
  refine onPath_open hp hb ?_
  rw [hr]
  refine (if_neg hsel).trans ?_
  simp only [if_neg hk]
  rfl

end

/-! ### Secure sessions (R439, R456) -/

/-- The state with session `n` opened on a path. -/
def sessionOpened (via n : Nat) (s : State) : State := setSpdm n { via, ctBeat := s.ct } s

theorem exec_keyExchange_free {exchange : Bytes} (h : (connOf (s.at m) via).stage = 3)
    (hn : pick m 0 ((List.range 33).filter (fun i => i ≠ 0 && !thas (s.at m).hmk.sessions i)) = some n) :
    exec (.keyExchange m via 0 exchange) s = .next (spdmSay via 0x64
      (spdmSigned (sessionOpened via n (s.at m)) (u8 n ++ Config.spdmBody 0x64 exchange)) (sessionOpened via n (s.at m))) := by
  change execKeyExchange m via 0 exchange s = _
  refine onPath_open hp hb ((if_neg (not_not_intro h)).trans ?_)
  rw [if_neg (not_not_intro rfl), hn]
  rfl

section
variable {x : SpdmSession} (hx : spdmSession (s.at m) via n = some x)
include hx

theorem exec_finish_verified (hs : x.secured = false) :
    exec (.finish m via n (finishVerify n x)) s = .next (spdmSay via 0x65 (Config.spdmBody 0x65 (u8 n))
      (setSpdm n { x with secured := true } (s.at m))) := by
  change execFinish m via n (finishVerify n x) s = _
  refine onPath_open hp hb ?_
  rw [hx]
  exact (if_neg (Bool.eq_false_iff.mp hs)).trans (if_pos rfl)

variable (hs : x.secured = true)

omit hp hb in
include hs in
/-- A session that is secured is one for the requests inside it. -/
theorem spdmSession_secured : (spdmSession (s.at m) via n).filter (·.secured) = some x := by
  rw [hx]
  exact Option.filter_some_pos hs

include hs

theorem exec_heartbeat_secured :
    exec (.heartbeat m via n) s = .next (spdmSay via 0x68 [] (setSpdm n { x with ctBeat := (s.at m).ct } (s.at m))) := by
  change execHeartbeat m via n s = _
  refine onPath_open hp hb ?_
  rw [spdmSession_secured hx hs]

theorem exec_keyUpdate_secured {op tag : Nat} (h1 : 1 ≤ op) (h3 : op ≤ 3) :
    exec (.keyUpdate m via n op tag) s = .next (spdmSay via 0x69 (u8 op ++ u8 tag)
      (setSpdm n { x with reqKeys := x.reqKeys + b2n (op ≤ 2), rspKeys := x.rspKeys + b2n (op = 2) } (s.at m))) := by
  have hop : ¬ (decide (op = 0) || decide (3 < op)) = true := by
    rw [Bool.or_eq_true, decide_eq_true_eq, decide_eq_true_eq]
    omega
  change execKeyUpdate m via n op tag s = _
  refine onPath_open hp hb ?_
  rw [spdmSession_secured hx hs]
  exact if_neg hop

theorem exec_endSession_secured : exec (.endSession m via n) s = .next (spdmSay via 0x6C [] (dropSpdm n (s.at m))) := by
  change execEndSession m via n s = _
  refine onPath_open hp hb ?_
  rw [spdmSession_secured hx hs]

end

/-! ### DOE Discovery -/

theorem exec_doeDiscovery_doe {index : Nat} (hv : via ≠ 17) :
    exec (.doeDiscovery m via index) s = .next (spdmSay via 0 (if index ≤ 2 then u16 1 ++ u8 index ++ u8 ((index + 1) % 3)
      else u16 0xFFFF ++ u8 0 ++ u8 0) (s.at m)) := by
  change execDoeDiscovery m via index s = _
  exact onPath_open hp hb (if_neg hv)

end

end

/-- Settles O37: a path that answers runs its request (`onPath_open`), and each request finds the connection's stage or its session as
R439 asks (`exec_…`). The codes and layouts of SPDM and DOE, and that the responder answers from phase 0x02 on, are log entry 46. -/
theorem spdmRequestsAreAnswered : Obligations.SpdmRequestsAreAnswered := by
  refine ⟨?version, ?capabilities, ?algorithms, ?digests, ?certificate, ?challenge, ?count, ?blocks, ?exchange, ?finish, ?heartbeat,
    ?keyUpdate, ?endSession, ?discovery⟩
  case version => exact fun m via s hp hb => exec_getVersion hp hb
  case capabilities => exact fun m via s hp hb h => exec_getCapabilities_versioned hp hb h
  case algorithms => exact fun m via s hp hb h => exec_negotiateAlgorithms_capable hp hb h
  case digests => exact fun m via n s hp hb hr => exec_getDigests_ready hp hb hr
  case certificate => exact fun m via n offset len s hp hb hr => exec_getCertificate_ready hp hb hr rfl
  case challenge => exact fun m via n nonce s hp hb hr => exec_challenge_ready hp hb hr
  case count => exact fun m via n sign nonce s hp hb hr => exec_getMeasurements_count hp hb hr
  case blocks => exact fun m via n k sign nonce s hp hb hr hk hs => exec_getMeasurements_blocks hp hb hr hk hs
  case exchange => exact fun m via n exchange s hp hb h hn => exec_keyExchange_free hp hb h hn
  case finish => exact fun m via n x s hp hb hx hs => exec_finish_verified hp hb hx hs
  case heartbeat => exact fun m via n x s hp hb hx hs => exec_heartbeat_secured hp hb hx hs
  case keyUpdate => exact fun m via n op tag x s hp hb hx hs h1 h3 => exec_keyUpdate_secured hp hb hx hs h1 h3
  case endSession => exact fun m via n x s hp hb hx hs => exec_endSession_secured hp hb hx hs
  case discovery => exact fun m fn index s hp hb hv => exec_doeDiscovery_doe hp hb hv

end Sys2Proof.Machine
end

section
/-! ATTEST_DUAL and KEK_SET, the keys of IDE streams, the TDISP machine, and an integrity failure (R441, R449, R451, R452). -/

namespace Sys2Proof.Machine

section
variable {m : Moment} {s : State} {via n fn : Nat}

/-- A request of a secured session runs. -/
theorem inSession_secured {e k : State → State} (h : (spdmSession s via n).any (·.secured) = true) : inSession s via n e k = k s :=
  if_pos h

section
variable (hp : pathOpen (s.at m) via = true) (hb : 2 ≤ (s.at m).bench.bootPhase)
include hp hb

/-! ### Vendor-defined requests (R441, R449) -/

theorem exec_attestDual_ready {blocks : Nat} {nonce : Bytes} (hr : spdmReady (s.at m) via n = none)
    (hk : blocksOk (pathFn via) blocks = true) :
    exec (.attestDual m via n blocks nonce) s =
      .next (spdmSay via 0x7E (evidenceOf (s.at m) (pathFn via) blocks nonce) (s.at m)) := by
  change execAttestDual m via n blocks nonce s = _
  refine onPath_open hp hb ?_
  rw [hr]
  exact if_pos hk

variable (hs : (spdmSession (s.at m) via n).any (·.secured) = true)
include hs

theorem exec_kekSet_held {kek : Bytes} (h1 : 1 ≤ via) (h16 : via ≤ 16) (hc : (getPart (s.at m) (via - 1)).confidential = true)
    (ht : (getPart (s.at m) (via - 1)).tdi = .locked ∨ (getPart (s.at m) (via - 1)).tdi = .run) :
    exec (.kekSet m via n kek) s = .next (spdmSay via 0x7E []
      (setPart (via - 1) { (getPart (s.at m) (via - 1)) with kek := some (fit 32 kek) } (s.at m))) := by
  have hheld : (decide (1 ≤ via) && decide (via ≤ 16) && (getPart (s.at m) (via - 1)).confidential
      && (decide ((getPart (s.at m) (via - 1)).tdi = .locked) || decide ((getPart (s.at m) (via - 1)).tdi = .run))) = true := by
    simp only [Bool.and_eq_true, Bool.or_eq_true, decide_eq_true_eq]
    exact ⟨⟨⟨h1, h16⟩, hc⟩, ht⟩
  change execKekSet m via n kek s = _
  exact onPath_open hp hb ((inSession_secured hs).trans (if_pos hheld))

/-! ### IDE (R451) -/

theorem exec_ideKmMessage_admitted {x : IdeKm} {t : State} (hv : via ≠ 17) (hk : x.stream ≤ 16) (hi : x.index < 12)
    (hx : ideStep (s.at m) x = some t) :
    exec (.ideKmMessage m via n x) s =
      .next (spdmSay via 0x7E (Config.spdmBody 0x7E (u8 x.kind ++ u8 x.stream ++ u8 x.index)) t) := by
  have hrange : (decide (x.stream ≤ 16) && decide (x.index < 12)) = true := by
    rw [decide_eq_true hk, decide_eq_true hi]
    rfl
  change execIdeKmMessage m via n x s = _
  refine onPath_open hp hb ((if_neg hv).trans ((inSession_secured hs).trans ?_))
  rw [if_pos hrange, hx]

/-! ### TDISP (R452) -/

/-- The interface that a TDISP request of a path names: that of a CONFIDENTIAL partition that is ACTIVE (R452). -/
structure TdiNamed (s : State) (via fn : Nat) : Prop where
  doe : via ≠ 17
  low : 1 ≤ fn
  high : fn ≤ 16
  path : via = 0 ∨ via = fn
  active : (getPart s (fn - 1)).pstate = .active
  confidential : (getPart s (fn - 1)).confidential = true

section
variable (ht : TdiNamed (s.at m) via fn)
include ht

/-- A TDISP request that names an interface runs on it. -/
theorem onTdi_named {k : Nat → Partition → State → State} {t : State}
    (hk : k (fn - 1) (getPart (s.at m) (fn - 1)) (s.at m) = t) :
    onTdi m via n fn s k = .next t := by
  subst hk
  have hnamed : ¬ (decide (fn = 0) || decide (16 < fn) || (decide (via ≠ 0) && decide (via ≠ fn))
      || decide ((getPart (s.at m) (fn - 1)).pstate ≠ .active) || !(getPart (s.at m) (fn - 1)).confidential) = true := by
    have hlow := ht.low
    have hhigh := ht.high
    have hpath := ht.path
    rw [ht.confidential, decide_eq_false (not_not_intro ht.active)]
    simp only [Bool.or_eq_true, Bool.and_eq_true, decide_eq_true_eq, Bool.not_true, Bool.false_eq_true, or_false]
    omega
  exact onPath_open hp hb ((if_neg ht.doe).trans ((inSession_secured hs).trans (if_neg hnamed)))

/-- LOCK freezes an unlocked interface with a bound stream (R452). -/
theorem exec_lockInterfaceRequest_unlocked (hu : (getPart (s.at m) (fn - 1)).tdi = .unlocked)
    (hbd : streamBound (s.at m) fn = true) :
    exec (.lockInterfaceRequest m via n fn) s = .next (tdispSay via 0x03 [] (dropApertures (fn - 1) (setPart (fn - 1)
      { (getPart (s.at m) (fn - 1)) with
        tdi := .locked, block5 := some (partConfig (fn - 1) (getPart (s.at m) (fn - 1))) } (s.at m)))) := by
  change execLockInterfaceRequest m via n fn s = _
  exact onTdi_named hp hb hs ht ((if_neg (not_not_intro hu)).trans (check_passes hbd))

/-- START runs a locked interface whose KEK is set (R449, R452). -/
theorem exec_startInterfaceRequest_locked (hl : (getPart (s.at m) (fn - 1)).tdi = .locked)
    (hk : (getPart (s.at m) (fn - 1)).kek.isSome = true) :
    exec (.startInterfaceRequest m via n fn) s = .next (tdispSay via 0x06 [] (setPart (fn - 1)
      { (getPart (s.at m) (fn - 1)) with tdi := .run } (s.at m))) := by
  have hstarts : ¬ (decide ((getPart (s.at m) (fn - 1)).tdi ≠ .locked) || (getPart (s.at m) (fn - 1)).kek.isNone) = true := by
    rw [decide_eq_false (not_not_intro hl), Option.isNone_eq_false_iff.mpr hk]
    decide
  change execStartInterfaceRequest m via n fn s = _
  exact onTdi_named hp hb hs ht (if_neg hstarts)

/-- STOP tears down the partition of a locked, running or failed interface (R452). -/
theorem exec_stopInterfaceRequest_held
    (hl : (getPart (s.at m) (fn - 1)).tdi = .locked ∨ (getPart (s.at m) (fn - 1)).tdi = .run
      ∨ (getPart (s.at m) (fn - 1)).tdi = .error) :
    exec (.stopInterfaceRequest m via n fn) s = .next (tdispSay via 0x07 [] (startTeardown (fn - 1) 0 true (s.at m))) := by
  have hheld : (decide ((getPart (s.at m) (fn - 1)).tdi = .locked) || decide ((getPart (s.at m) (fn - 1)).tdi = .run)
      || decide ((getPart (s.at m) (fn - 1)).tdi = .error)) = true := by
    simp only [Bool.or_eq_true, decide_eq_true_eq, or_assoc]
    exact hl
  change execStopInterfaceRequest m via n fn s = _
  exact onTdi_named hp hb hs ht (if_pos hheld)

end

end

/-! ### Integrity failures (R452) -/

/-- The streams of a VF carry nothing after an integrity failure (R451). -/
def streamsBroken (fn : Nat) (s : State) : State :=
  { s with hmk := { s.hmk with
    ide := s.hmk.ide.map (fun e => if e.1 ≠ 0 && e.2.fn = fn then (e.1, { e.2 with secure := false, going := 0 }) else e) } }

section
variable (h1 : 1 ≤ fn) (h16 : fn ≤ 16)
include h1 h16

/-- Integrity failures of VFs alone are acted on. -/
theorem vf_inRange : ¬ (decide (fn = 0) || decide (16 < fn)) = true := by
  rw [Bool.or_eq_true, decide_eq_true_eq, decide_eq_true_eq]
  omega

theorem exec_ideIntegrityFailure_stream
    (ht : (getPart (s.at m) (fn - 1)).tdi = .run ∨ (getPart (s.at m) (fn - 1)).tdi = .locked) :
    exec (.ideIntegrityFailure m fn false) s = .next (tdiFail (fn - 1) tdiIde (streamsBroken fn (s.at m))) := by
  have hheld : (decide ((getPart (s.at m) (fn - 1)).tdi = .run) || (decide ((getPart (s.at m) (fn - 1)).tdi = .locked) && !false))
      = true := by
    simp only [Bool.or_eq_true, decide_eq_true_eq, Bool.not_false, Bool.and_true]
    exact ht
  exact (if_neg (vf_inRange h1 h16)).trans (congrArg Host.Outcome.next (if_pos hheld))

theorem exec_ideIntegrityFailure_nonT (ht : (getPart (s.at m) (fn - 1)).tdi = .run) :
    exec (.ideIntegrityFailure m fn true) s = .next (tdiFail (fn - 1) tdiNonT (s.at m)) := by
  have hheld : (decide ((getPart (s.at m) (fn - 1)).tdi = .run) || (decide ((getPart (s.at m) (fn - 1)).tdi = .locked) && !true))
      = true := by
    rw [ht]
    rfl
  exact (if_neg (vf_inRange h1 h16)).trans (congrArg Host.Outcome.next (if_pos hheld))

end

end

/-- Settles O38: a request of a secured session runs (`inSession_secured`), one of TDISP on the interface that it names (`onTdi_named`),
and each finds the state that R449, R451 and R452 ask for. The codes and layouts are log entry 46, the causes of TDI_ERROR log entry
44. -/
theorem confidentialInterfacesAndKeys : Obligations.ConfidentialInterfacesAndKeys := by
  refine ⟨?attest, ?kek, ?ide, ?lock, ?start, ?stop, ?integrity, ?nonT⟩
  case attest => exact fun m via n blocks nonce s hp hb hr hk => exec_attestDual_ready hp hb hr hk
  case kek => exact fun m via n kek s hp hb hs h1 h16 hc ht => exec_kekSet_held hp hb hs h1 h16 hc ht
  case ide =>
    intro m via n x s u hp hb hv hs hk hi hx
    obtain ⟨t, ht⟩ := Option.isSome_iff_exists.mp hx
    rw [ht]
    exact exec_ideKmMessage_admitted hp hb hs hv hk hi ht
  case lock =>
    exact fun m via n fn s hp hb hv hs h1 h16 hpath ha hc hu hbd =>
      exec_lockInterfaceRequest_unlocked hp hb hs ⟨hv, h1, h16, hpath, ha, hc⟩ hu hbd
  case start =>
    exact fun m via n fn s hp hb hv hs h1 h16 hpath ha hc hl hk =>
      exec_startInterfaceRequest_locked hp hb hs ⟨hv, h1, h16, hpath, ha, hc⟩ hl hk
  case stop =>
    exact fun m via n fn s hp hb hv hs h1 h16 hpath ha hc hl =>
      exec_stopInterfaceRequest_held hp hb hs ⟨hv, h1, h16, hpath, ha, hc⟩ hl
  case integrity => exact fun m fn s h1 h16 ht => exec_ideIntegrityFailure_stream h1 h16 ht
  case nonT => exact fun m fn s h1 h16 ht => exec_ideIntegrityFailure_nonT h1 h16 ht

end Sys2Proof.Machine
end

section
/-! Power groups and their transitions, the sensors, the trip and the way out of it (R467 to R471, R485). -/

namespace Sys2Proof.Machine

section
variable {m : Moment} {r : Req} {s : State} {g : Nat}

/-! ### PWR_SET and PWR_RESUME (R469, R471) -/

/-- A state or a point of PWR_SET: 0xFF leaves it as it is (R469). -/
def pwrOption (v : Nat) : Option Nat := if v = 0xFF then none else some v

/-- The groups of PWR_SET take on its transition, and each leaves HELD where it is the group's oldest (R467, R468). -/
def transitionsTaken (r : Req) (op : Nat) (s : State) : State :=
  pwrProgress op ((setBits 64 (r.f 0 8)).foldl (fun s g => leaveHeld g 1 s)
    ((setBits 64 (r.f 0 8)).foldl (fun s g => addTrans op (pwrOption (r.f 8 1)) (pwrOption (r.f 9 1)) g s) s))

theorem bodyPwrSet_checked (hc : (pwrSetCheck (setBits 64 (r.f 0 8)) (r.f 8 1) (r.f 9 1) s).isOk = true)
    (ho : opRoom s r.fn = true) :
    bodyPwrSet m r s = .wait (transitionsTaken r s.bench.nextOp (startOp r 1 0 0 false [0] s).2) :=
  (checked_isOk hc).trans (asOp_room ho)

/-- A device out of SAFE, its trip forgotten (R471; log entry 47). -/
def tripCleared (s : State) : State :=
  { s with
    bench := { s.bench with devState := .operating }, pwr := { s.pwr with tripped := false, cause := 0 }
    elec := { s.elec with alert := false } }

/-- A cooled device leaves SAFE, its clusters at their restore points (R471). -/
theorem bodyPwrResume_cooled (hst : s.bench.devState = .safe) (hc : cooled s = true) :
    bodyPwrResume m r s = .ok (tripCleared (modClusters (fun x => { x with perf := x.restore }) s)) :=
  (if_neg (not_not_intro hst)).trans (check_passes hc)

/-! ### The phases of a transition (R467, R468) -/

section
variable {t : Trans} (ht : (getGroup s g).run = some t)
include ht

/-- SWITCH ends unless a cluster's running point would change within a layer group (R466, R467). -/
theorem groupPhase_switches (hp : t.phase = 5) (hm : (t.perf.isSome && !s.pwr.tripped && midGroup s g) = false) :
    groupPhase m g s = groupSwitch m g t s := by
  have hdrain : ¬ (decide (t.phase = 2) && !groupDrained s g) = true := by
    rw [hp]
    exact Bool.false_ne_true
  have hmid : ¬ (decide (t.phase = 5) && t.perf.isSome && !s.pwr.tripped && midGroup s g) = true := by
    rw [Bool.and_assoc, Bool.and_assoc, ← Bool.and_assoc t.perf.isSome, hm, Bool.and_false]
    exact Bool.false_ne_true
  rw [groupPhase, ht]
  exact (if_neg hdrain).trans ((if_neg hmid).trans (if_pos hp))

/-- DRAIN ends once no work is in flight on the group (R467). -/
theorem groupPhase_drains (hp : t.phase = 2) (hd : groupDrained s g = true) :
    groupPhase m g s = pwrProgress t.op (modGroup g (fun x => { x with run := some { t with phase := nextPhase g t } }) s) := by
  have hdrain : ¬ (decide (t.phase = 2) && !groupDrained s g) = true := by
    rw [hd, Bool.not_true, Bool.and_false]
    exact Bool.false_ne_true
  have hmid : ¬ (decide (t.phase = 5) && t.perf.isSome && !s.pwr.tripped && midGroup s g) = true := by
    rw [hp]
    exact Bool.false_ne_true
  have hphase : t.phase ≠ 5 ∧ t.phase ≠ 3 ∧ t.phase ≠ 4 := by omega
  rw [groupPhase, ht]
  refine (if_neg hdrain).trans ((if_neg hmid).trans ((if_neg hphase.1).trans ?_))
  rw [if_neg hphase.2.1, if_neg hphase.2.2]

end

/-! ### Samples (R470, R485) -/

/-- A sample of the sensors trips the device where a sensor's mean reaches the trip temperature (R470). -/
theorem exec_junctionSensorSample {l : List (Nat × Int)} {v : State} (hv : l.foldl takeReading (s.at m) = v) :
    exec (.junctionSensorSample m l) s =
      .next ((v.pwr.readings.find? (fun e => meanAtLeast e.2 v.pwr.tripTemp)).elim v (fun e => trip 1 e.1 (sensorMean e.2) v)) := by
  subst hv
  change execJunctionSensorSample m l s = _
  rw [execJunctionSensorSample]
  cases (l.foldl takeReading (s.at m)).pwr.readings.find?
    (fun e => meanAtLeast e.2 (l.foldl takeReading (s.at m)).pwr.tripTemp) <;> rfl

/-- The state with a sample of the core current, and since when it has been above its limit (R470). -/
def currentTaken (a : Nat) (s : State) : State :=
  { s with pwr := { s.pwr with amps := a, ctAbove := if a ≤ s.pwr.limit then none else some (s.pwr.ctAbove.getD s.ct) } }

/-- A current above its limit for 50 µs trips the device (R470). -/
theorem exec_coreCurrentSample {a : Nat} {v : State} (hv : currentTaken a (s.at m) = v) :
    exec (.coreCurrentSample m a) s = .next (if tooMuch v then trip 2 (hottest v).1 (hottest v).2 v else v) := by
  subst hv
  rfl

end

/-- Settles O39: the checks of PWR_SET pass and its groups take on the transition (`bodyPwrSet_checked`), a cooled device resumes
(`bodyPwrResume_cooled`), a phase ends by its own condition (`groupPhase_…`), and a sample trips where a condition holds
(`exec_…Sample`). That PWR_RESUME clears the trip's cause, the phase that PWR_SET shows and the mean of the first readings are log entry
47. -/
theorem powerGroupsSensorsAndTheTrip : Obligations.PowerGroupsSensorsAndTheTrip := by
  refine ⟨?set, ?query, ?resume, ?phaseDone, ?switches, ?drains, ?cool, ?hot, ?little, ?much, ?thermtrip⟩
  case set =>
    exact fun m r s hs hc ho => congrArg Host.Outcome.next (runSettled_goesOn hs (bodyPwrSet_checked hc ho))
  case query => exact fun m r s hs => congrArg Host.Outcome.next (runCommand_ended hs rfl)
  case resume =>
    exact fun m r s hs hst hc => congrArg Host.Outcome.next (runSettled_ended hs (bodyPwrResume_cooled hst hc))
  case phaseDone => exact fun m g s => rfl
  case switches => exact fun m g s t ht hp hm => groupPhase_switches ht hp hm
  case drains => exact fun m g s t ht hp hd => groupPhase_drains ht hp hd
  case cool =>
    intro m l s u v hf
    rw [exec_junctionSensorSample rfl, hf]
    rfl
  case hot =>
    intro m l e s u v hf
    rw [exec_junctionSensorSample rfl, hf]
    rfl
  case little => exact fun m a s hm => (exec_coreCurrentSample rfl).trans (congrArg _ (if_neg (Bool.eq_false_iff.mp hm)))
  case much => exact fun m a s hm => (exec_coreCurrentSample rfl).trans (congrArg _ (if_pos hm))
  case thermtrip => exact fun m s => rfl

end Sys2Proof.Machine
end

section
/-! Cluster time: its configuration, its steps and its leap table, the edges and the loss of the cadence, and the ends of holdover and of
the table (R472 to R476, R478). -/

namespace Sys2Proof.Machine

section
variable {m : Moment} {r : Req} {s : State}

/-! ### CT_CONFIG, CT_STEP and CT_LEAP_LOAD -/

/-- The time and protection configuration that CT_CONFIG spells. -/
def timeConfigured (r : Req) (s : State) : State :=
  setTimeConfig (r.f 0 1) (r.f 4 4) (toSigned 32 (r.f 8 4)) (r.f 0x0C 4) (r.f 0x10 4) (r.f 0x14 1) (r.f 0x16 2) s

theorem bodyCtConfig_inRange
    (h : timeRanges (r.f 0 1) (r.f 4 4) (r.f 0x0C 4) (r.f 0x10 4) (r.f 0x14 1) (r.f 0x16 2) = true) :
    bodyCtConfig m r s = .ok (sourceLost s.clk.source (timeConfigured r s)) :=
  if_pos h

/-- A step of ct to `new`: the epoch and the Gauge's windows close, what counts in ct restarts, and the step is told (R476). -/
def ctStepped (new : Nat) (s : State) : State :=
  note 0x0E07 1 0xFF 0 [s.ct, new]
    (bump .ctSteps noPart 1 (stepClock s.ct new (stepTimers (stepWindows new (closeEpoch s)))))

theorem bodyCtStep_given (h : r.f 0 1 = 1) : bodyCtStep m r s = .ok (ctStepped (r.f 8 8) s) (u64 s.ct ++ u64 (r.f 8 8)) := by
  unfold bodyCtStep
  rw [if_pos h]
  rfl

/-- A step by the offset that was refused within the last 10 s (R474, R476). -/
theorem bodyCtStep_refused {p : Int × Nat} {new : Nat} (hnew : ((s.ct : Int) - p.1).toNat = new) (h : r.f 0 1 = 0)
    (hp : s.clk.pending = some p) (ht : s.ct ≤ p.2 + 10000000000) :
    bodyCtStep m r s = .ok (ctStepped new s) (u64 s.ct ++ u64 new) := by
  have hrecent : s.clk.pending.filter (fun x => decide (s.ct ≤ x.2 + 10 * secNs)) = some p := by
    rw [hp]
    exact Option.filter_some_pos (decide_eq_true ht)
  subst hnew
  unfold bodyCtStep
  rw [if_neg (show ¬ r.f 0 1 = 1 by omega), if_pos h, hrecent]
  rfl

theorem bodyCtLeapLoad_legal (h : leapOk r.payload 0x10 (r.f 0 1) (r.f 8 8) = true) :
    bodyCtLeapLoad m r s = .ok (modClk (fun c =>
      { c with leap := leapEntries r.payload 0x10 (r.f 0 1), expires := r.f 8 8, leapStale := false }) s) :=
  if_pos h

/-! ### The cadence (R473) -/

section
variable {w : Nat} (hsrc : (s.at m).clk.tsrc ≠ 0)
include hsrc

/-- A pulse shorter than 20 ns is a glitch (R473). -/
theorem exec_cadenceEdge_glitch (hw : w < 20) : exec (.cadenceEdge m w) s = .next (bump .ctGlitch noPart 1 (s.at m)) :=
  congrArg Host.Outcome.next ((if_neg hsrc).trans (if_pos hw))

variable (hw : 20 ≤ w)
include hw

/-- An edge while the cadence is not locked takes part in its acquisition (R473). -/
theorem exec_cadenceEdge_unlocked (hl : (s.at m).clk.cadLocked = false) :
    exec (.cadenceEdge m w) s = .next (cadAcquire (s.at m)) := by
  have hfree : (!(s.at m).clk.cadLocked) = true := by
    rw [hl]
    rfl
  exact congrArg Host.Outcome.next ((if_neg hsrc).trans ((if_neg (Nat.not_lt.mpr hw)).trans (if_pos hfree)))

/-- An edge in the window of a later multiple of the period than the last is accepted; any other is counted (R473). -/
theorem exec_cadenceEdge_locked (hl : (s.at m).clk.cadLocked = true) :
    exec (.cadenceEdge m w) s = .next
      (if cadWindow (s.at m).clk (cadNearest (s.at m).clk (s.at m).ct).2
          && decide ((cadNearest (s.at m).clk (s.at m).clk.cadLast).1 < (cadNearest (s.at m).clk (s.at m).ct).1) then
        cadAccept (cadNearest (s.at m).clk (s.at m).ct).2 (s.at m)
      else bump .ctChatter noPart 1 (modClk (fun c => { c with cadNoise := true }) (s.at m))) :=
  congrArg Host.Outcome.next ((if_neg hsrc).trans ((if_neg (Nat.not_lt.mpr hw)).trans (check_passes hl)))

theorem exec_cadenceEdge_accepted (hl : (s.at m).clk.cadLocked = true)
    (hin : cadWindow (s.at m).clk (cadNearest (s.at m).clk (s.at m).ct).2 = true)
    (hlater : (cadNearest (s.at m).clk (s.at m).clk.cadLast).1 < (cadNearest (s.at m).clk (s.at m).ct).1) :
    exec (.cadenceEdge m w) s = .next (cadAccept (cadNearest (s.at m).clk (s.at m).ct).2 (s.at m)) := by
  rw [exec_cadenceEdge_locked hsrc hw hl, hin, decide_eq_true hlater]
  rfl

theorem exec_cadenceEdge_chatter (hl : (s.at m).clk.cadLocked = true)
    (hout : cadWindow (s.at m).clk (cadNearest (s.at m).clk (s.at m).ct).2 = false
      ∨ (cadNearest (s.at m).clk (s.at m).ct).1 ≤ (cadNearest (s.at m).clk (s.at m).clk.cadLast).1) :
    exec (.cadenceEdge m w) s = .next (bump .ctChatter noPart 1 (modClk (fun c => { c with cadNoise := true }) (s.at m))) := by
  rw [exec_cadenceEdge_locked hsrc hw hl]
  rcases hout with hout | hout
  · rw [hout]
    rfl
  · rw [decide_eq_false (Int.not_lt.mpr hout), Bool.and_false]
    rfl

end

/-- No edge accepted for three periods loses the cadence (R473). -/
theorem exec_cadenceLoss_due (hl : (s.at m).clk.cadLocked = true)
    (ht : (s.at m).clk.cadLast + 3 * (s.at m).clk.period ≤ (s.at m).ct) :
    exec (.cadenceLoss m) s = .next (sourceLost 2 (note 0x0E08 1 0xFF 0 [b2n (s.at m).clk.cadNoise]
      (modClk (fun c => { c with cadLocked := false, candidate := none, skewRun := 0 }) (s.at m)))) := by
  have hdue : ((s.at m).clk.cadLocked && decide ((s.at m).clk.cadLast + 3 * (s.at m).clk.period ≤ (s.at m).ct)) = true := by
    rw [hl, decide_eq_true ht]
    rfl
  exact congrArg Host.Outcome.next (if_pos hdue)

/-! ### Holdover and the leap table (R475, R478) -/

/-- An uncertainty above the budget in HOLDOVER loses the time (R475). -/
theorem exec_holdoverBudgetExceeded_over (hst : (s.at m).clk.tstate = .holdover) (hu : (s.at m).clk.budget < uncertainty (s.at m)) :
    exec (.holdoverBudgetExceeded m) s = .next (note 0x0E04 2 0xFF 0 [(s.at m).clk.ctHold] (setTime .lost (s.at m))) := by
  have hover : (decide ((s.at m).clk.tstate = .holdover) && decide ((s.at m).clk.budget < uncertainty (s.at m))) = true := by
    rw [decide_eq_true hst, decide_eq_true hu]
    rfl
  exact congrArg Host.Outcome.next (if_pos hover)

/-- The leap table's end is told once (R478). -/
theorem exec_leapExpiry_due (hl : (s.at m).clk.leapStale = false) (ht : (s.at m).clk.expires ≤ (s.at m).ct) :
    exec (.leapExpiry m) s = .next (note 0x0E0A 1 0xFF 0 [(s.at m).clk.expires] (modClk (fun c => { c with leapStale := true }) (s.at m))) := by
  have hdue : (!(s.at m).clk.leapStale && decide ((s.at m).clk.expires ≤ (s.at m).ct)) = true := by
    rw [hl, decide_eq_true ht]
    rfl
  exact congrArg Host.Outcome.next (if_pos hdue)

end

/-- Settles O40: the three commands' checks pass (`bodyCt…`), an edge is a glitch, acquires, is accepted or is counted
(`exec_cadenceEdge_…`), and the three losses find their conditions (`exec_…`). That a source removed by CT_CONFIG is lost and the corners
of a step are log entry 48. -/
theorem clusterTimeIsKeptSteppedAndLost : Obligations.ClusterTimeIsKeptSteppedAndLost := by
  refine ⟨?config, ?stepTo, ?stepRefused, ?leapLoad, ?acquires, ?accepted, ?chatter, ?glitch, ?cadenceLoss, ?holdover, ?leapExpiry⟩
  case config => exact fun m r s hs h => congrArg Host.Outcome.next (runCommand_ended hs (bodyCtConfig_inRange h))
  case stepTo => exact fun m r s hs h => congrArg Host.Outcome.next (runCommand_ended hs (bodyCtStep_given h))
  case stepRefused =>
    exact fun m r s p hs h hp ht => congrArg Host.Outcome.next (runCommand_ended hs (bodyCtStep_refused rfl h hp ht))
  case leapLoad => exact fun m r s hs h => congrArg Host.Outcome.next (runCommand_ended hs (bodyCtLeapLoad_legal h))
  case acquires => exact fun m w s hsrc hw hl => exec_cadenceEdge_unlocked hsrc hw hl
  case accepted => exact fun m w s hsrc hw hl hin hlater => exec_cadenceEdge_accepted hsrc hw hl hin hlater
  case chatter => exact fun m w s hsrc hw hl hout => exec_cadenceEdge_chatter hsrc hw hl hout
  case glitch => exact fun m w s hsrc hw => exec_cadenceEdge_glitch hsrc hw
  case cadenceLoss => exact fun m s hl ht => exec_cadenceLoss_due hl ht
  case holdover => exact fun m s hst hu => exec_holdoverBudgetExceeded_over hst hu
  case leapExpiry => exact fun m s hl ht => exec_leapExpiry_due hl ht

end Sys2Proof.Machine
end

section
/-! Settings images, generations of the OTP, the lifetime record and its journal (R480 to R484). -/

namespace Sys2Proof.Machine

section
variable {m : Moment} {r : Req} {s : State} {b : Bytes}

/-! ### Settings and generations (R480 to R482) -/

/-- A valid image is stored in the retention domain (R481). -/
theorem bodyAonSettingsSave_valid (hv : imageValid s (r.b 0 imageLen) = true)
    (hr : [0x0E, 0x0F].any (fun g => groupPresent s g && decide (16 ≤ field (r.b 0 imageLen) (0x10 + g) 1)) = false) :
    bodyAonSettingsSave m r s = .ok (modAon (fun a => { a with settings := some (r.b 0 imageLen) }) s) :=
  (if_neg (Bool.eq_false_iff.mp hr)).trans (if_pos hv)

section
variable (h6 : r.f 0 1 ≤ 6)
include h6

theorem bodyAonSettingsRead_present (hb : settingsImage s (r.f 0 1) = some b) : bodyAonSettingsRead m r s = .ok s b := by
  refine (if_neg (Nat.not_lt.mpr h6)).trans ?_
  rw [hb]

/-- An image that is not there reads as zeros, with detail 1 (R481). -/
theorem bodyAonSettingsRead_absent (hb : settingsImage s (r.f 0 1) = none) :
    bodyAonSettingsRead m r s = { st := s, detail := 1, result := zeros imageLen } := by
  refine (if_neg (Nat.not_lt.mpr h6)).trans ?_
  rw [hb]

end

/-- A valid image for a free generation is programmed by a long operation where its signature block is valid and trusted (R482). -/
theorem bodyOtpProgram_valid {g : Nat} (hb : (inData r (imageLen + blockLen) s).toOption = some b) (hg : otpFree s = some g)
    (hv : imageValid s (b.take imageLen) = true) :
    bodyOtpProgram m r s =
      if blockValid (b.drop imageLen) 4 (fit 32 (Config.blake3 (deviceId ++ u8 g ++ b.take imageLen))) = false then
        .err (sigRejected 4 stSigInvalid 0xFF s) stSigInvalid
      else if rootTrusted s (b.drop imageLen) = false then .err (sigRejected 4 stKeyUntrusted 0xFF s) stKeyUntrusted
      else asOp r s 1 1 (imageLen + blockLen + 2 * imageLen) true (g :: (b.take imageLen).map (·.toNat)) fun _ s => s := by
  refine (withData_ok hb).trans ?_
  dsimp only
  rw [hg]
  refine (check_passes hv).trans ?_
  simp only [Bool.not_eq_true']

/-! ### The lifetime record (R483, R484) -/

/-- The mirror of the record has been written in the present second of ct (R483). -/
def mirrored (s : State) : Bool := s.aon.mirror.any (fun x => x.ct / secNs = s.ct / secNs)

/-- A second not yet counted is counted (R483). -/
theorem exec_lifeMirrorUpdate_due (h : mirrored (s.at m) = false) :
    exec (.lifeMirrorUpdate m) s = .next (modAon (fun a =>
      { a with
        life := lifeSecond (s.at m) (s.at m).aon.life
        mirror := some { lifeSecond (s.at m) (s.at m).aon.life with ct := (s.at m).ct } }) (s.at m)) :=
  congrArg Host.Outcome.next (if_neg (Bool.eq_false_iff.mp h))

/-- The journal is written once ct has passed a multiple of 600 s, and when a serial nears its ceiling (R484). -/
theorem exec_lifeJournalWrite_due {failing : List Nat}
    (h : (s.at m).ct / (600 * secNs) ≠ (s.at m).aon.jCt / (600 * secNs) ∨ ceilingNear (s.at m) = true) :
    exec (.lifeJournalWrite m failing) s = .next (journal failing (s.at m)) := by
  have hdue : (decide ((s.at m).ct / (600 * secNs) ≠ (s.at m).aon.jCt / (600 * secNs)) || ceilingNear (s.at m)) = true := by
    rw [Bool.or_eq_true, decide_eq_true_eq]
    exact h
  exact congrArg Host.Outcome.next (if_pos hdue)

end

/-- Settles O41: the checks of the settings and OTP commands pass (`bodyAonSettings…`, `bodyOtpProgram_valid`), the record and its journal
are answered as they stand, and the two rows of the record find theirs due (`exec_life…_due`). What AON_SETTINGS_SAVE refuses of an
image's reserved bits and how the journal picks its sectors are log entry 49. -/
theorem settingsGenerationsAndLifeAreKept : Obligations.SettingsGenerationsAndLifeAreKept := by
  refine ⟨?save, ?read, ?readAbsent, ?program, ?lifeRead, ?lifeSync, ?mirror, ?journal⟩
  case save =>
    exact fun m r s hs hv hr => congrArg Host.Outcome.next (runCommand_ended hs (bodyAonSettingsSave_valid hv hr))
  case read =>
    exact fun m r s b hs h6 hb => congrArg Host.Outcome.next (runCommand_ended hs (bodyAonSettingsRead_present h6 hb))
  case readAbsent =>
    exact fun m r s hs h6 hb => congrArg Host.Outcome.next (runCommand_detail hs (bodyAonSettingsRead_absent h6 hb))
  case program =>
    exact fun m r s b g hs hb hg hv => congrArg Host.Outcome.next (runCommand_answered hs (bodyOtpProgram_valid hb hg hv))
  case lifeRead => exact fun m r s hs => congrArg Host.Outcome.next (runCommand_ended hs rfl)
  case lifeSync => exact fun m r s hs => congrArg Host.Outcome.next (runCommand_ended hs rfl)
  case mirror => exact fun m s h => exec_lifeMirrorUpdate_due h
  case journal => exact fun m failing s h => exec_lifeJournalWrite_due h

end Sys2Proof.Machine
end

section
/-! Corrected, contained and device-fatal errors, the management view, the watchdogs and the diagnostic commands (R502, R503, R505 to
R508, R512). -/

namespace Sys2Proof.Machine

section
variable {m : Moment} {r : Req} {s : State} {g : Nat}

/-! ### Errors (R502, R503, R505) -/

theorem corrected_sram (chan : Nat) : corrected 0 chan s = modErr (fun e => { e with ceSram := e.ceSram + 1 }) s := rfl

/-- An error of a channel is counted by it and held against its threshold (R502). -/
theorem corrected_channel {tier chan : Nat} (h : 1 ≤ tier) :
    corrected tier chan s = ceThreshold tier chan (countCorrected tier chan s) :=
  if_neg (Nat.one_le_iff_ne_zero.mp h)

/-- An error in a context that has an owner is logged and ends the owner (R503). -/
theorem exec_uncorrectableError_owned {d : UeData} {a : UeAt} (h : ∀ k, d ≠ .shared k) :
    exec (.uncorrectableError m d a) s = .next (settleAll m (ueOwnerEnds m d (ueContained d a (s.at m)))) := by
  cases d with
  | shared k => exact absurd rfl (h k)
  | _ => rfl

/-- One in shared state is device-fatal (R503, R505). -/
theorem exec_uncorrectableError_shared {k : Nat} {a : UeAt} (h : k ≠ 8) :
    exec (.uncorrectableError m (.shared k) a) s = .next (settleAll m (deviceFatal St.uncorrectable k (s.at m))) :=
  next_settleAll m (if_neg h)

/-! ### The management view (R506, R507) -/

section
variable (h1 : 1 ≤ g) (h14 : g ≤ 14)
include h1 h14

/-- A sweep of one of the 14 groups acts on its view. -/
theorem exec_viewSweep_inRange {l : List Skew} :
    exec (.viewSweep m g l) s =
      .next (if l.isEmpty then modErr (fun e => { e with stale := tdel e.stale g }) (s.at m) else skewFound g l (s.at m)) := by
  have hrange : ¬ (decide (g < 1) || decide (14 < g)) = true := by
    rw [Bool.or_eq_true, decide_eq_true_eq, decide_eq_true_eq]
    omega
  exact congrArg Host.Outcome.next (if_neg hrange)

end

/-- A view stale for more than 1 ms is an INTERNAL_FAULT of its group (R507). -/
theorem exec_viewReconcileTimeout_due {c : Nat} (hc : tget (s.at m).err.stale g = some c) (ht : c + msNs < (s.at m).ct) :
    exec (.viewReconcileTimeout m g) s = .next (internalFault g (s.at m)) := by
  change execViewReconcileTimeout m g s = _
  rw [execViewReconcileTimeout, hc]
  exact congrArg Host.Outcome.next (if_pos ht)

/-- The views that DIAG_VIEW_CHECK finds stale among the groups of a mask (log entry 50). -/
def staleAmong (r : Req) (s : State) : Nat := ((setBits 16 (r.f 0 2)).filter (thas s.err.stale)).length

theorem bodyDiagViewCheck_inRange (h0 : (setBits 16 (r.f 0 2)).contains 0 = false) (h15 : (setBits 16 (r.f 0 2)).contains 15 = false) :
    bodyDiagViewCheck m r s =
      { st := modErr (fun e => { e with stale := e.stale.filter (fun x => !(setBits 16 (r.f 0 2)).contains x.1) }) s
        status := if staleAmong r s = 0 then St.ok else St.stateSkew
        result := u32 (setBits 16 (r.f 0 2)).length ++ u32 (staleAmong r s) } := by
  have hrange : ¬ ((setBits 16 (r.f 0 2)).contains 0 || (setBits 16 (r.f 0 2)).contains 15) = true := by
    rw [h0, h15]
    decide
  exact if_neg hrange

/-! ### DIAG_TRAINING and DIAG_INJECT (R497, R512) -/

theorem bodyDiagTraining_inRange (h : r.f 0 1 ≤ 4) :
    bodyDiagTraining m r s = .ok s ((List.range (trainCount (r.f 0 1))).flatMap (fun i => u16 i
      ++ u8 (trainOutcome s (r.f 0 1) i).1 ++ u8 (trainOutcome s (r.f 0 1) i).2)) :=
  if_neg (Nat.not_lt.mpr h)

/-- A line of a partition's memory is armed in a chip that is not of production (R512; log entry 50). -/
theorem bodyDiagInject_arms (hp : s.hmk.production = false) (hk : r.f 0 1 ≤ 1) (ht : 1 ≤ r.f 1 1 ∧ r.f 1 1 ≤ 2) (h15 : r.f 2 1 ≤ 15)
    (ha : r.f 8 8 < partBytes s (r.f 2 1) (r.f 1 1)) :
    bodyDiagInject m r s = .ok (modErr (fun e =>
      { e with injected := e.injected
        ++ [{ hard := r.f 0 1 = 1, tier := r.f 1 1, partition := r.f 2 1, line := r.f 8 8 / 64 }] }) s) := by
  have hrange : ¬ (decide (1 < r.f 0 1) || decide (r.f 1 1 < 1) || decide (2 < r.f 1 1) || decide (15 < r.f 2 1)
      || decide (partBytes s (r.f 2 1) (r.f 1 1) ≤ r.f 8 8)) = true := by
    simp only [Bool.or_eq_true, decide_eq_true_eq]
    omega
  exact (if_neg (Bool.eq_false_iff.mp hp)).trans (if_neg hrange)

end

/-- Settles O42: an error is counted, ends its owner or is fatal by what it lies in (`corrected_…`, `exec_uncorrectableError_…`), a sweep
and its timeout act on the group's view (`exec_view…`), a watchdog's expiry is an INTERNAL_FAULT as it stands, and the diagnostic
commands' checks pass (`bodyDiag…`). What a sweep clears, DIAG_VIEW_CHECK counts and DIAG_INJECT addresses is log entry 50, the boot
log without a list log entry 43. -/
theorem errorsAreCountedContainedAndFatal : Obligations.ErrorsAreCountedContainedAndFatal := by
  refine ⟨?ce, ?ceSram, ?ceChannel, ?owned, ?shared, ?tally, ?patrol, ?clean, ?skewed, ?timeout, ?hallmark, ?bench, ?training, ?errors,
    ?viewCheck, ?inject, ?bootLog⟩
  case ce => exact fun m tier chan s => rfl
  case ceSram => exact fun chan s => corrected_sram chan
  case ceChannel => exact fun tier chan s h => corrected_channel h
  case owned => exact fun m d a s h => exec_uncorrectableError_owned h
  case shared => exact fun m k a s h => exec_uncorrectableError_shared h
  case tally => exact fun m a s => rfl
  case patrol => exact fun m s => rfl
  case clean => exact fun m g s h1 h14 => exec_viewSweep_inRange h1 h14
  case skewed =>
    exact fun m g l s h1 h14 hl => (exec_viewSweep_inRange h1 h14).trans (congrArg _ (if_neg (Bool.eq_false_iff.mp hl)))
  case timeout => exact fun m g c s hc ht => exec_viewReconcileTimeout_due hc ht
  case hallmark => exact fun m s => rfl
  case bench => exact fun m s => rfl
  case training => exact fun m r s hs h => congrArg Host.Outcome.next (runCommand_ended hs (bodyDiagTraining_inRange h))
  case errors => exact fun m r s hs => congrArg Host.Outcome.next (runCommand_ended hs rfl)
  case viewCheck =>
    exact fun m r s hs h0 h15 => congrArg Host.Outcome.next (runCommand_answered hs (bodyDiagViewCheck_inRange h0 h15))
  case inject =>
    exact fun m r s hs hp hk h1 h2 h15 ha => congrArg Host.Outcome.next
      (runCommand_ended hs (bodyDiagInject_arms hp hk ⟨h1, h2⟩ h15 ha))
  case bootLog => exact fun m r s hs => congrArg Host.Outcome.next (runCommand_answered hs rfl)

end Sys2Proof.Machine
end

section
/-! Rails, clocks, the crystal and the timeouts of the flash (R516, R518 to R520, R523, R524). -/

namespace Sys2Proof.Machine

section
variable {m : Moment} {s : State} {k : Nat}

/-! ### Rails (R516, R518, R519) -/

/-- The state with the rails that are outside their windows. -/
def setRailsBad (v : Nat) (s : State) : State := { s with elec := { s.elec with railsBad := v } }

/-- A rail outside its window with PWRGOOD asserted is recorded, and a fall of PWRGOOD (R519). -/
theorem exec_railFault_powered (hp : (s.at m).elec.pwrgood = true) :
    exec (.railFault m k) s = .next (powerFall (modAon (fun a => { a with railFault := a.railFault ||| 2 ^ k })
      (setRailsBad ((s.at m).elec.railsBad ||| 2 ^ k) (s.at m)))) :=
  congrArg Host.Outcome.next (if_pos hp)

/-- A rail returns to its window; the last one to return is a power-on where PWRGOOD is asserted (R519). -/
theorem exec_railReturn_bad {v : State} (hv : setRailsBad ((s.at m).elec.railsBad - 2 ^ k) (s.at m) = v)
    (hb : bit (s.at m).elec.railsBad k = true) :
    exec (.railReturn m k) s = .next (if (s.at m).elec.pwrgood && v.elec.railsBad = 0 then powerOn v else v) := by
  subst hv
  exact check_passes hb

/-- A loss of VAUX_1V8 clears the retention domain, after a fall of PWRGOOD where it is asserted (R518, R519). -/
theorem exec_vaux1v8Loss_powered (hp : (s.at m).elec.pwrgood = true) :
    exec (.vaux1v8Loss m) s =
      .next (clearRetention (powerFall (setRailsBad ((s.at m).elec.railsBad ||| 2 ^ 10) (s.at m)))) :=
  congrArg (fun t => Host.Outcome.next (clearRetention t)) (if_pos hp)

theorem exec_vaux1v8Loss_unpowered (hp : (s.at m).elec.pwrgood = false) :
    exec (.vaux1v8Loss m) s = .next (clearRetention (setRailsBad ((s.at m).elec.railsBad ||| 2 ^ 10) (s.at m))) :=
  congrArg (fun t => Host.Outcome.next (clearRetention t)) (if_neg (Bool.eq_false_iff.mp hp))

/-! ### Clocks (R523, R524) -/

/-- The loss of the SerDes reference takes the Ethernet and Swilan links down, and PTP with them (R523). -/
theorem exec_serdesRefLoss_running (hc : (s.at m).elec.sdref = true) :
    exec (.serdesRefLoss m) s = .next (settleAll m (ptpGone ((List.range 7).foldl (fun s n =>
      if (getLink s n).up then linkLost n .training 0 s else s) ((List.range 8).foldl (fun s p =>
        if (getPort s p).linkUp = 0 then s else portDown m p s) { (s.at m) with elec := { (s.at m).elec with
          sdref := false, sdrefLosses := (s.at m).elec.sdrefLosses + 1 } })))) :=
  check_passes hc

theorem exec_serdesRefReturn_stopped (hc : (s.at m).elec.sdref = false) :
    exec (.serdesRefReturn m) s = .next ((List.range 7).foldl (fun s n =>
      if (getLink s n).lstate = .training then startTraining n s else s)
      { (s.at m) with elec := { (s.at m).elec with sdref := true } }) :=
  if_neg (Bool.eq_false_iff.mp hc)

/-- The state with the PCIe reference clock lost. -/
def refclkGone (s : State) : State := { s with elec := { s.elec with refclk := false } }

/-- The loss of REFCLK takes the PCIe link down, which is a fundamental reset (R524). -/
theorem exec_refclkLoss_up {v : State} (hv : resetState 2 true (s.at m).err.hold (refclkGone (s.at m)) = v)
    (hp : (s.at m).elec.pwrgood = true) (hn : (s.at m).elec.perst = false) (hu : (s.at m).elec.pcieUp = true) :
    exec (.refclkLoss m) s = .next { v with elec := { v.elec with pcieUp := false } } := by
  have hreset : linkReset (refclkGone (s.at m)) = v := (linkReset_up (s := refclkGone (s.at m)) hp hn hu).trans hv
  change execRefclkLoss m s = _
  rw [← hreset]
  rfl

/-- The RTC of a stopped crystal counts again from now on (R524). -/
theorem exec_xtalRestart_stopped (hx : (s.at m).elec.xtal = false) :
    exec (.xtalRestart m) s = .next (modAon (fun a => { a with rtcCt := (s.at m).ct })
      { (s.at m) with elec := { (s.at m).elec with xtal := true } }) :=
  congrArg Host.Outcome.next (if_neg (Bool.eq_false_iff.mp hx))

/-! ### The flash (R520) -/

/-- The state with the flash's failed tries. -/
def setSpiTries (n : Nat) (s : State) : State := { s with elec := { s.elec with spiTries := n } }

section
variable (hb : (s.at m).bench.devState = .booting) (h2 : (s.at m).bench.bootPhase = 2)
include hb h2

/-- The read of a firmware slot is the access of phase 0x02. -/
theorem flashReads : (decide ((s.at m).bench.devState = .booting) && decide ((s.at m).bench.bootPhase = 2)) = true := by
  rw [decide_eq_true hb, decide_eq_true h2]
  rfl

/-- A read that times out is tried again twice (R520). -/
theorem exec_spiFlashTimeout_retries (ht : (s.at m).elec.spiTries < 2) :
    exec (.spiFlashTimeout m) s = .next (setSpiTries ((s.at m).elec.spiTries + 1) (s.at m)) := by
  have haccess : ¬ (!(decide ((s.at m).bench.devState = .booting) && decide ((s.at m).bench.bootPhase = 2))
      && (flashWrite (s.at m)).isNone) = true := by
    rw [flashReads hb h2]
    exact Bool.false_ne_true
  exact (if_neg haccess).trans (if_pos ht)

/-- Then the boot stops (R495, R520). -/
theorem exec_spiFlashTimeout_stopsBoot (ht : 2 ≤ (s.at m).elec.spiTries) :
    exec (.spiFlashTimeout m) s = .next (stopBoot St.flashFailed (setSpiTries 0 (s.at m))) := by
  have haccess : ¬ (!(decide ((s.at m).bench.devState = .booting) && decide ((s.at m).bench.bootPhase = 2))
      && (flashWrite (s.at m)).isNone) = true := by
    rw [flashReads hb h2]
    exact Bool.false_ne_true
  exact (if_neg haccess).trans ((if_neg (Nat.not_lt.mpr ht)).trans (congrArg Host.Outcome.next (if_pos (flashReads hb h2))))

end

/-- A write of a slot that times out a third time fails its FW_LOAD (R499, R520). -/
theorem exec_spiFlashTimeout_failsLoad {o : Nat × LongOp} (hb : (s.at m).bench.devState ≠ .booting) (ho : flashWrite (s.at m) = some o)
    (ht : 2 ≤ (s.at m).elec.spiTries) :
    exec (.spiFlashTimeout m) s = .next (endFwLoad o.1 o.2 false (setSpiTries 0 (s.at m))) := by
  have hread : ¬ (decide ((s.at m).bench.devState = .booting) && decide ((s.at m).bench.bootPhase = 2)) = true := by
    rw [decide_eq_false hb]
    exact Bool.false_ne_true
  have haccess : ¬ (!(decide ((s.at m).bench.devState = .booting) && decide ((s.at m).bench.bootPhase = 2))
      && (flashWrite (s.at m)).isNone) = true := by
    rw [ho, Option.isNone_some, Bool.and_false]
    exact Bool.false_ne_true
  refine (if_neg haccess).trans ((if_neg (Nat.not_lt.mpr ht)).trans (congrArg Host.Outcome.next ((if_neg hread).trans ?_)))
  have hfound : flashWrite (setSpiTries 0 (s.at m)) = some o := ho
  split
  next i b h =>
    obtain rfl := Option.some.inj (hfound.symm.trans h)
    rfl
  next h => exact absurd (hfound.symm.trans h) (Option.some_ne_none o)

end

/-- Settles O44: a rail's fault and return, and a clock's loss and return, find the pins as their rules ask (`exec_…`), and the third
timeout of a flash access fails it (`exec_spiFlashTimeout_…`). That SMBus and I3C hold no further state is log entry 51. -/
theorem railsClocksAndTimeouts : Obligations.RailsClocksAndTimeouts := by
  refine ⟨?fault, ?railBack, ?vauxPowered, ?vauxUnpowered, ?sdrefLoss, ?sdrefReturn, ?refclk, ?xtalStop, ?xtalRestart, ?smbus, ?i3c,
    ?retries, ?stopsBoot, ?failsLoad⟩
  case fault => exact fun m k s hp => exec_railFault_powered hp
  case railBack => exact fun m k s hb => exec_railReturn_bad rfl hb
  case vauxPowered => exact fun m s hp => exec_vaux1v8Loss_powered hp
  case vauxUnpowered => exact fun m s hp => exec_vaux1v8Loss_unpowered hp
  case sdrefLoss => exact fun m s hc => exec_serdesRefLoss_running hc
  case sdrefReturn => exact fun m s hc => exec_serdesRefReturn_stopped hc
  case refclk => exact fun m s hp hn hu => exec_refclkLoss_up rfl hp hn hu
  case xtalStop => exact fun m s => rfl
  case xtalRestart => exact fun m s hx => exec_xtalRestart_stopped hx
  case smbus => exact fun m s => rfl
  case i3c => exact fun m s => rfl
  case retries => exact fun m s hb h2 ht => exec_spiFlashTimeout_retries hb h2 ht
  case stopsBoot => exact fun m s hb h2 ht => exec_spiFlashTimeout_stopsBoot hb h2 ht
  case failsLoad => exact fun m k s hb ho ht => exec_spiFlashTimeout_failsLoad hb ho ht

end Sys2Proof.Machine
end
